-- ==== Sys2Proof/Word.lean ====
section
/-! DEFINITION. The words of the device: bytes and the 64-bit words of the sequencer cores. -/
namespace Sys2Proof

/-- A byte of memory. -/
abbrev Byte := BitVec 8

/-- A word of a sequencer core (R60). -/
abbrev Word := BitVec 64

end Sys2Proof
end

