-- ==== Sys2Proof/Machine/Bits.lean ====
section
/-! DEFINITION. Bit fields, two's complement, sums over bit streams: the CRCs of the device. -/
namespace Sys2Proof

/-- The low `w` bits of a natural number read as a two's complement integer (R13). -/
def toSigned (w n : Nat) : Int :=
  if n % 2 ^ w < 2 ^ (w - 1) then (n % 2 ^ w : Nat) else (n % 2 ^ w : Nat) - (2 : Int) ^ w

/-- The two's complement bits of an integer in `w` bits (R13). -/
def fromSigned (w : Nat) (i : Int) : Nat := (i % (2 : Int) ^ w).toNat

/-- An integer saturated to the range of a signed `w`-bit value. -/
def satSigned (w : Nat) (i : Int) : Int :=
  if i < -(2 : Int) ^ (w - 1) then -(2 : Int) ^ (w - 1)
  else if (2 : Int) ^ (w - 1) - 1 < i then (2 : Int) ^ (w - 1) - 1 else i

/-- Bit `b` of a natural number, 0 or 1. -/
def bitOf (n b : Nat) : Nat := n / 2 ^ b % 2

/-- Bits `lo` and up of a natural number, `w` of them. -/
def bitsOf (n lo w : Nat) : Nat := n / 2 ^ lo % 2 ^ w

/-! ### CRCs -/

/-- One step of a CRC register of `w` bits with polynomial `poly`, most significant bit first. -/
def crcStep (w poly reg : Nat) (b : Bool) : Nat :=
  let r := reg * 2 % 2 ^ w
  if reg.testBit (w - 1) == b then r else r ^^^ poly

/-- The bits of a byte, most significant first. -/
def bitsMsb (b : Nat) : List Bool := (List.range 8).map fun i => b.testBit (7 - i)

/-- A CRC over bytes, no reflection, no final XOR. -/
def crcMsb (w poly init : Nat) (bs : List Nat) : Nat := bs.foldl (fun r b => (bitsMsb b).foldl (crcStep w poly) r) init

/-- One step of a reflected CRC register with reflected polynomial `poly`. -/
def crcStepLsb (poly reg : Nat) (b : Bool) : Nat :=
  if reg.testBit 0 == b then reg / 2 else (reg / 2) ^^^ poly

/-- A reflected CRC over bytes, each least significant bit first. -/
def crcLsb (poly init : Nat) (bs : List Nat) : Nat :=
  bs.foldl (fun r b => ((List.range 8).map b.testBit).foldl (crcStepLsb poly) r) init

/-- CRC-8 with polynomial 0x07 and initial value 0 (R243, R524). -/
def crc8 (bs : List Nat) : Nat := crcMsb 8 0x07 0 bs

/-- CRC-16 with polynomial 0x1021 and initial value 0xFFFF (R495, spec/09, spec/14). -/
def crc16 (bs : List Nat) : Nat := crcMsb 16 0x1021 0xFFFF bs

/-- CRC-32 of IEEE 802.3. -/
def crc32 (bs : List Nat) : Nat := crcLsb 0xEDB88320 0xFFFFFFFF bs ^^^ 0xFFFFFFFF

/-- The CRC-64 of R97. -/
def crc64 (bs : List Nat) : Nat := crcMsb 64 0x42F0E1EBA9EA3693 0 bs

/-- The CRC-16 of a long packet (R281; log 24: CSI-2 x^16 + x^12 + x^5 + 1, least significant bit first). -/
def crcCsi (bs : List Nat) : Nat := crcLsb 0x8408 0xFFFF bs

end Sys2Proof
end

