-- ==== Sys2Proof/Syntax.lean ====
section
/-! DEFINITION. The commands of the device: the one inductive `Instr`, with its operand forms, and what
no command of the table shows (logs 111 and 113). -/
namespace Sys2Proof

/-- The second source of a three-operand Tsuxis instruction: a register (REG), imm16 (IMM), or imm20 with
rd as the first source too (ACC), with the raw bits of the field (R101, R106). -/
inductive Src where
  | reg (r : Nat)
  | imm (imm16 : Nat)
  | acc (imm20 : Nat)
  deriving DecidableEq, Repr


/-- The commands of the device, one constructor for each row of the table of steps (spec/opcode_table.json), in its
order. An operand names the instance (`n`, `c`, `k`, ...), the master (`mid`) or what the outside world shows. -/
inductive Instr where
  /-- REGISTER_WRITE (R17): A write to a BAR 0 or keeper register field that has no row of its own applies by its field type.
  `rival` is a second master's write of the same register in the same fabric cycle, with its value (R44). -/
  | registerWrite (mid : Nat) (off : Nat) (size : Nat) (val : Nat) (rival : Option (Nat × Nat))
  /-- BAD_ACCESS (R15): An access of unsupported size or alignment is discarded or reads zero and increments HIF_BAD_ACCESS. -/
  | badAccess (mid : Nat) (off : Nat) (size : Nat) (isWrite : Bool)
  /-- LO_HALF_READ (R14): A read of a _LO register captures the _HI half for the following read. -/
  | loHalfRead (mid : Nat) (off : Nat)
  /-- RC_READ (R622): A read of an RC field returns its value or extreme and restarts it. -/
  | rcRead (mid : Nat) (off : Nat)
  /-- D2D_RETRY (R23): A die-to-die transfer fails its CRC and is retried, incrementing RETRIES. -/
  | d2dRetry
  /-- D2D_DOWN (R24): No valid die-to-die transfer for 1 us declares the link down and darkens field outputs. -/
  | d2dDown
  /-- D2D_RETURN (R25): The die-to-die link returns and D2D_UP sets while outputs stay dark. -/
  | d2dReturn
  /-- LANE_REF_LOSS (R32): The lane reference stops or the system PLL unlocks, darkening outputs and stopping the data plane. -/
  | laneRefLoss
  /-- PCIE_REF_LOSS (R34): The PCIe reference is lost, taking the host link down. -/
  | pcieRefLoss
  /-- HIF_IRQ_REARM (R449): A write to HIF_IRQ_REARM resends a block message for each still-set GLB_IRQ_SUM bit. -/
  | hifIrqRearm (mask : Nat)
  /-- MSIX_UNMASK (R448): Clearing an MSI-X vector or function mask sends a pending message. -/
  | msixUnmask (fn : Nat) (vec : Option Nat)
  /-- SQ_RUN (R84): SQ_CTL.RUN starts a HALTED core at SQ_PC. -/
  | sqRun (c : Nat)
  /-- SQ_HALT (R127): SQ_CTL.HALT squashes any region and stops the core, stopping a waiting instruction in place. -/
  | sqHalt (c : Nat)
  /-- SQ_STEP (R624): SQ_CTL.STEP executes one instruction on a HALTED core. -/
  | sqStep (c : Nat)
  /-- SQ_CORE_RESET (R578): SQ_CTL.CORE_RESET squashes, drains stores and returns the core to HALTED at pc 0. -/
  | sqCoreReset (c : Nat)
  /-- RECIPE_START (R74): SQ_CTL.RECIPE_START on a HALTED core begins copying and checking a recipe, or sets BUSY. -/
  | recipeStart (c : Nat) (id : Nat)
  /-- RECIPE_BEGIN (R75): 4,096 cycles after the request the recipe claims its resources and runs, or refuses. -/
  | recipeBegin (c : Nat)
  /-- RECIPE_STOP (R77): SQ_CTL.RECIPE_STOP asks the recipe to stop issuing triggers. -/
  | recipeStop (c : Nat)
  /-- RECIPE_STOPPED (R77): Once triggered frames complete the recipe writes EVENT_TB, releases claims and enters STOPPED. -/
  | recipeStopped (c : Nat)
  /-- RECIPE_FCG_START (R72): With LIST_MODE 1 the recipe starts its FCG once the compare unit is armed with the right SRC. -/
  | recipeFcgStart (c : Nat)
  /-- HASH_START (R99): SQ_HASH_CTL.START starts the CRC-64 over all program memories. -/
  | hashStart
  /-- HASH_DONE (R99): The hash engine finishes after 32,768 cycles and sets VALID. -/
  | hashDone
  /-- CORE_WAKE_START (R85): When D21 powers up on a mailbox wake, cores with WAKE_EN start at SQ_WAKE_PC. -/
  | coreWakeStart (c : Nat)
  /-- ADD (R105): Add two operands and set Z N C V. -/
  | add (c : Nat) (rd : Nat) (ra : Nat) (src : Src)
  /-- SUB (R105): Subtract and set Z N C V. -/
  | sub (c : Nat) (rd : Nat) (ra : Nat) (src : Src)
  /-- AND (R105): Bitwise and, setting Z N. -/
  | and (c : Nat) (rd : Nat) (ra : Nat) (src : Src)
  /-- OR (R105): Bitwise or, setting Z N. -/
  | or (c : Nat) (rd : Nat) (ra : Nat) (src : Src)
  /-- XOR (R105): Bitwise xor, setting Z N. -/
  | xor (c : Nat) (rd : Nat) (ra : Nat) (src : Src)
  /-- SHL (R106): Shift left, setting Z N C. -/
  | shl (c : Nat) (rd : Nat) (ra : Nat) (src : Src)
  /-- SHR (R106): Logical shift right, setting Z N C. -/
  | shr (c : Nat) (rd : Nat) (ra : Nat) (src : Src)
  /-- SAR (R106): Arithmetic shift right, setting Z N C. -/
  | sar (c : Nat) (rd : Nat) (ra : Nat) (src : Src)
  /-- MUL (R105): Low 64 bits of the product, setting Z N. -/
  | mul (c : Nat) (rd : Nat) (ra : Nat) (src : Src)
  /-- MOV (R106): Write a sign-extended imm20 into rd. -/
  | mov (c : Nat) (rd : Nat) (imm20 : Nat)
  /-- MOVK (R106): Replace one 16-bit group of rd. -/
  | movk (c : Nat) (rd : Nat) (imm : Nat) (group : Nat)
  /-- B_COND (R108): Branch when the condition holds. -/
  | bCond (c : Nat) (cond : Nat) (off16 : Nat)
  /-- BL (R110): Branch and write lk with the return address. -/
  | bl (c : Nat) (off16 : Nat)
  /-- JR (R109): Jump to the address in ra. -/
  | jr (c : Nat) (ra : Nat)
  /-- RET (R109): Jump to the address in lk. -/
  | ret (c : Nat)
  /-- MOVLK (R104): Copy lk into rd. -/
  | movlk (c : Nat) (rd : Nat)
  /-- SETLK (R104): Copy ra into lk. -/
  | setlk (c : Nat) (ra : Nat)
  /-- LDB (R111): Load 8 bits zero-extended. -/
  | ldb (c : Nat) (rd : Nat) (ra : Nat) (imm16 : Nat)
  /-- LDH (R111): Load 16 bits zero-extended. -/
  | ldh (c : Nat) (rd : Nat) (ra : Nat) (imm16 : Nat)
  /-- LDW (R111): Load 32 bits zero-extended. -/
  | ldw (c : Nat) (rd : Nat) (ra : Nat) (imm16 : Nat)
  /-- LDD (R111): Load 64 bits. -/
  | ldd (c : Nat) (rd : Nat) (ra : Nat) (imm16 : Nat)
  /-- LDSB (R111): Load 8 bits sign-extended. -/
  | ldsb (c : Nat) (rd : Nat) (ra : Nat) (imm16 : Nat)
  /-- LDSH (R111): Load 16 bits sign-extended. -/
  | ldsh (c : Nat) (rd : Nat) (ra : Nat) (imm16 : Nat)
  /-- LDSW (R111): Load 32 bits sign-extended. -/
  | ldsw (c : Nat) (rd : Nat) (ra : Nat) (imm16 : Nat)
  /-- STB (R111): Store 8 bits. -/
  | stb (c : Nat) (rd : Nat) (ra : Nat) (imm16 : Nat)
  /-- STH (R111): Store 16 bits. -/
  | sth (c : Nat) (rd : Nat) (ra : Nat) (imm16 : Nat)
  /-- STW (R111): Store 32 bits. -/
  | stw (c : Nat) (rd : Nat) (ra : Nat) (imm16 : Nat)
  /-- STD (R111): Store 64 bits. -/
  | std (c : Nat) (rd : Nat) (ra : Nat) (imm16 : Nat)
  /-- AADD (R113): Atomic add on a shared-memory word returning the old value. -/
  | aadd (c : Nat) (rd : Nat) (ra : Nat) (rb : Nat)
  /-- AXCH (R113): Atomic exchange on a shared-memory word returning the old value. -/
  | axch (c : Nat) (rd : Nat) (ra : Nat) (rb : Nat)
  /-- RDEV (R116): 32-bit device-register load. -/
  | rdev (c : Nat) (rd : Nat) (ra : Nat) (imm16 : Nat)
  /-- RDEVD (R116): 64-bit device-register load. -/
  | rdevd (c : Nat) (rd : Nat) (ra : Nat) (imm16 : Nat)
  /-- WDEV (R116): 32-bit posted device-register store. -/
  | wdev (c : Nat) (rd : Nat) (ra : Nat) (imm16 : Nat)
  /-- WDEVD (R116): 64-bit posted device-register store. -/
  | wdevd (c : Nat) (rd : Nat) (ra : Nat) (imm16 : Nat)
  /-- DSYNC (R117): Wait for the core's earlier device stores to take effect. -/
  | dsync (c : Nat)
  /-- TBR (R80): Read TB into rd. -/
  | tbr (c : Nat) (rd : Nat)
  /-- WAIT (R81): Wait on TB, an event input, a mailbox or a DMA descriptor with a deadline. -/
  | wait (c : Nat) (kind : Nat) (ra : Nat) (rdl : Nat) (idx : Nat)
  /-- HALT (R126): The halt instruction squashes any region and enters HALTED. -/
  | halt (c : Nat)
  /-- SPEC (R123): Open a run-ahead region with guard, deadline and squash target. -/
  | spec (c : Nat) (k : Nat) (rdl : Nat) (off16 : Nat)
  /-- COMMIT (R92): Ask to keep the open region once its guard arrives. -/
  | commit (c : Nat)
  /-- SQUASH (R93): Undo the open region and continue at the squash target. -/
  | squash (c : Nat)
  /-- PULSE (R133): Schedule a pulse on a TRG output. -/
  | pulse (c : Nat) (rd : Nat) (ra : Nat) (rb : Nat) (rc : Nat)
  /-- PAIR (R134): Schedule a pulse on a complementary pair. -/
  | pair (c : Nat) (rd : Nat) (ra : Nat) (rb : Nat) (rc : Nat)
  /-- TRIGPKT (R137): Schedule a trigger packet on a port's uplink. -/
  | trigpkt (c : Nat) (rd : Nat) (ra : Nat) (rb : Nat) (rc : Nat)
  /-- FIRE (R139): Fire a beacon channel. -/
  | fire (c : Nat) (rd : Nat) (ra : Nat) (imm6 : Nat)
  /-- MBXSEND (R140): Send a word to a mailbox, optionally SYNC. -/
  | mbxsend (c : Nat) (rd : Nat) (ra : Nat) (rb : Nat) (sync : Bool)
  /-- MBXRCV (R142): Receive the word of a mailbox bound to this core. -/
  | mbxrcv (c : Nat) (rd : Nat) (ra : Nat)
  /-- MBXWDR (R143): Withdraw this core's unread mailbox word. -/
  | mbxwdr (c : Nat) (rd : Nat) (ra : Nat)
  /-- DMAQ (R144): Copy and queue a DMA descriptor, optionally EARLY. -/
  | dmaq (c : Nat) (rd : Nat) (ra : Nat) (early : Bool)
  /-- PODRUN (R147): Submit a pod run. -/
  | podrun (c : Nat) (rd : Nat) (ra : Nat) (rb : Nat) (rc : Nat)
  /-- FRAMEARM (R149): Set the arm count of a stream in ARMED gating. -/
  | framearm (c : Nat) (rd : Nat) (ra : Nat) (rb : Nat)
  /-- WAIT_END (R81): The awaited condition of a wait holds and the core resumes. -/
  | waitEnd (c : Nat)
  /-- WAIT_DEADLINE (R81): TB reaches a wait's deadline and the wait ends with Z set. -/
  | waitDeadline (c : Nat)
  /-- REGION_COMMIT (R92): The guard arrives for a waiting commit and the region's effects become final. -/
  | regionCommit (c : Nat)
  /-- SPEC_DEADLINE (R93): A region's deadline passes before commit and the region squashes. -/
  | specDeadline (c : Nat)
  /-- DEVICE_ANSWER (R129): The owning block answers a device load or answered action and the core writes rd; `same`: the
  core whose request reaches its block in the same cycle (R143, R475). -/
  | deviceAnswer (c : Nat) (same : Option Nat)
  /-- STORE_QUEUE_ROOM (R66): An entry of a full device store queue frees and the stalled store enters. -/
  | storeQueueRoom (c : Nat)
  /-- DSYNC_DONE (R66): Every earlier device store of the core has taken effect and dsync ends. -/
  | dsyncDone (c : Nat)
  /-- DMAQ_SLOT_FREE (R145): An in-flight slot frees and a stalled dmaq proceeds. -/
  | dmaqSlotFree (c : Nat)
  /-- SYNC_SEND_END (R141): A SYNC mbxsend ends when the receiver reads the word or the timeout expires. -/
  | syncSendEnd (c : Nat)
  /-- SQ_EV_EVENT (R82): A beacon event reaches consumer SQn_EVk and sets its pending bit. -/
  | sqEvEvent (c : Nat) (k : Nat)
  /-- TRG_PULSE_START (R224): A held pulse reaches its start time and the output goes active. -/
  | trgPulseStart (n : Nat)
  /-- TRG_PULSE_END (R226): A running pulse reaches its end time and the output returns inactive. -/
  | trgPulseEnd (n : Nat)
  /-- PAIR_EDGE (R229): A complementary pair reaches one of its dead-time-separated edge times. -/
  | pairEdge (p : Nat)
  /-- TRG_BCN_EVENT (R225): A beacon event reaches TRG_BCN and outputs with SRC BCN schedule pulses. -/
  | trgBcnEvent (ch : Nat)
  /-- TRG_CLR_COUNTS (R17): TRG_CMD.CLR_COUNTS clears the output's and pair's SAT counters. -/
  | trgClrCounts (n : Nat)
  /-- ENC_EDGE (R155): A filtered encoder transition is accepted and counted into the 64-bit position: the levels A, B, Z that
  the last `held` consecutive samples have shown, the first of them at `ps` in ps of TB (R152). -/
  | encEdge (n : Nat) (a : Bool) (b : Bool) (z : Bool) (ps : Nat) (held : Nat)
  /-- LOAD_PRESET (R160): ENC_CMD.LOAD_PRESET copies the preset into the position. -/
  | loadPreset (n : Nat)
  /-- ENC_CLR_COUNTS (R17): ENC_CMD.CLR_COUNTS clears the channel's SAT counters. -/
  | encClrCounts (n : Nat)
  /-- RESTART_SPEED (R165): ENC_CMD.RESTART_SPEED restarts the speed average. -/
  | restartSpeed (n : Nat)
  /-- CLR_IDX_REF (R162): ENC_CMD.CLR_IDX_REF drops the drift reference and clears Z_REVERSED. -/
  | clrIdxRef (n : Nat)
  /-- SSI_GRID (R168): A grid point of ENC_SSI_PERIOD starts an SSI word or waits for the data line. -/
  | ssiGrid (n : Nat) (lineHigh : Bool)
  /-- SSI_WORD (R172): A received SSI word is decoded, checked and unwrapped into the position. -/
  | ssiWord (n : Nat) (word : Nat)
  /-- SSI_TIMEOUT (R168): TIMEOUT_US expires with the data line not ready or not returned high. -/
  | ssiTimeout (n : Nat) (word : Nat)
  /-- ENC_LOST (R176): The holdover window passes with no transition and feedback is declared lost. -/
  | encLost (n : Nat)
  /-- PO_ENABLE (R181): Setting PO_CFG.EN clears the accumulator and backlog, or sets CFG_ERR. -/
  | poEnable (p : Nat)
  /-- PO_OUTPUT_COUNT (R183): A spacing interval passes and the pulse output emits one count of its backlog. -/
  | poOutputCount (p : Nat)
  /-- CMP_ARM (R187): CMP_CMD.ARM arms a compare unit at BASE with the present position, or refuses. -/
  | cmpArm (k : Nat)
  /-- CMP_DISARM (R192): CMP_CMD.DISARM disarms a compare unit. -/
  | cmpDisarm (k : Nat)
  /-- CMP_CLR_COUNTS (R17): CMP_CMD.CLR_COUNTS clears the unit's SAT counters. -/
  | cmpClrCounts (k : Nat)
  /-- CMP_LIST_WRITE (R185): A write to the list window sets an entry, holding 32-bit low halves. -/
  | cmpListWrite (off : Nat) (size : Nat) (val : Nat)
  /-- PPS_EDGE (R195): An active PPS_IN edge captures TB, computes the phase error and starts a correction. -/
  | ppsEdge
  /-- TB_SLEW_TICK (R195): Every 10,000 ticks an outstanding correction holds or doubles one TB tick. -/
  | tbSlewTick
  /-- TIMEREF_LOST (R194): No TIMEREF edge for 400 ns moves the time PLL to the lane reference. -/
  | timerefLost
  /-- TIMEREF_FREQ_LOCK (R194): The time PLL locks to TIMEREF and STATE becomes FREQ. -/
  | timerefFreqLock
  /-- PPS_TIMEOUT (R196): No PPS pulse for 1.1 s clears PPS_OK and leaves PHASE. -/
  | ppsTimeout
  /-- LOAD_NOW (R198): TMB_CMD.LOAD_NOW loads TB or is refused. -/
  | loadNow
  /-- LOAD_AT_PPS (R198): TMB_CMD.LOAD_AT_PPS arms a TB load at the next PPS edge. -/
  | loadAtPps
  /-- CANCEL_LOAD (R198): TMB_CMD.CANCEL_LOAD drops a pending LOAD_AT_PPS. -/
  | cancelLoad
  /-- FCG_START (R221): FCG_CMD.START starts a generator in its mode or is refused. -/
  | fcgStart (g : Nat)
  /-- FCG_STOP (R222): FCG_CMD.STOP puts the FCG in IDLE and cancels later committed triggers. -/
  | fcgStop (g : Nat)
  /-- FCG_CLR_COUNTS (R17): FCG_CMD.CLR_COUNTS clears the generator's SAT counters. -/
  | fcgClrCounts (g : Nat)
  /-- FCG_PERIOD_WRITE (R206): A write to FCG_PERIOD, held until the _HI half, changes the period from the next commit. -/
  | fcgPeriodWrite (g : Nat) (hi : Bool) (size : Nat) (val : Nat)
  /-- FCG_COMMIT (R201): 200 ns before a trigger time the FCG commits it and passes it to every destination. -/
  | fcgCommit (g : Nat)
  /-- FCG_LOOP_UPDATE (R208): Every 100 ns a LOCK loop updates its set-point, rate and phase. -/
  | fcgLoopUpdate (g : Nat)
  /-- FCG_WINDOW_CLOSE (R213): A confirmation window closes unconfirmed when judged D after its end. -/
  | fcgWindowClose (g : Nat)
  /-- FCG_HOLD_EXPIRED (R218): HOLD_TIME expires and the hold policy applies. -/
  | fcgHoldExpired (g : Nat)
  /-- FCK_DETECT (R246): The activity detector sees a forwarded clock and the port enters CLOCK. -/
  | fckDetect (n : Nat)
  /-- PRT_FREQ_CHECK (R245): A 2 us FCK measurement ends and passes or sets RATE_MISMATCH. -/
  | prtFreqCheck (n : Nat) (khz : Nat)
  /-- PRT_MULT_LOCK (R246): The clock multiplier locks and the port enters EQUALISE. -/
  | prtMultLock (n : Nat)
  /-- PRT_PHASE_CENTRED (R246): The phase interpolators are centred and the CTLE sweep starts. -/
  | prtPhaseCentred (n : Nat)
  /-- CTLE_SWEEP_DONE (R255): The CTLE sweep ends with the best code and the port enters LOCK; `foms` are the figures
  of merit that each physical lane measured at codes 0 to 24. -/
  | ctleSweepDone (n : Nat) (foms : List (List Nat))
  /-- LANE_LOCK (R246): Each lane reaches block or code-group lock and the port enters DESKEW; `units` are the
  blocks or code groups at the pin of physical lane j, in order. -/
  | laneLock (n : Nat) (j : Nat) (units : List Nat)
  /-- PRT_DESKEW (R246): Two agreeing marker columns deskew the lanes. -/
  | prtDeskew (n : Nat)
  /-- LINK_UP (R246): Marker fields match PRT_CFG and the port reaches UP. -/
  | linkUp (n : Nat)
  /-- STAGE_TIMEOUT (R251): A bring-up stage exceeds its time and the port retries. -/
  | stageTimeout (n : Nat)
  /-- LANE_LOCK_LOST (R247): A lane breaks its lock rule; `units` as for LANE_LOCK. -/
  | laneLockLost (n : Nat) (j : Nat) (units : List Nat)
  /-- DESKEW_LOST (R247): A lane misses markers or disagrees in MARKER_SEQ and deskew is lost. -/
  | deskewLost (n : Nat)
  /-- CLK_LOST (R249): FCK absent for 1 us declares clock loss. -/
  | clkLost (n : Nat)
  /-- MARKER_COLUMN (R243): A marker column is received and checked; `cols` are the columns at the data pins, each
  by physical lane: the column before the marker, then the marker column (in RLA its 8 columns). -/
  | markerColumn (n : Nat) (cols : List (List Nat))
  /-- RX_CONTROL_ERROR (R239): A block or code group with bad header or unknown control type is counted; `unit`
  stands at the pin of physical lane j after the unit `prev`. -/
  | rxControlError (n : Nat) (j : Nat) (prev : Nat) (unit : Nat)
  /-- RESTART (R253): PRT_CMD.RESTART takes the link down and restarts bring-up. -/
  | restart (n : Nat)
  /-- HOLD_ENTER (R265): PRT_CMD.HOLD_ENTER enters HOLD now, at frame close, or is refused. -/
  | holdEnter (n : Nat) (force : Bool)
  /-- HOLD_EXIT (R266): PRT_CMD.HOLD_EXIT starts a HOLD exit or cancels a pending entry. -/
  | holdExit (n : Nat)
  /-- DEEP_ENTER (R265): PRT_CMD.DEEP_ENTER powers the port's loops down. -/
  | deepEnter (n : Nat) (force : Bool)
  /-- DEEP_EXIT (R264): PRT_CMD.DEEP_EXIT starts the exit from DEEP. -/
  | deepExit (n : Nat)
  /-- HOLD_EXITED (R263): The HOLD exit completes and the port is UP. -/
  | holdExited (n : Nat)
  /-- DEEP_EXITED (R264): The DEEP exit completes and a fresh bring-up begins. -/
  | deepExited (n : Nat)
  /-- PRT_TRIGGER_WAKE (R266): 200 ns before a queued trigger packet, a HOLD port starts its exit. -/
  | prtTriggerWake (n : Nat)
  /-- PRT_WAKE_EVENT (R266): A beacon event reaches PRT_WAKE and named ports leave HOLD. -/
  | prtWakeEvent (ch : Nat)
  /-- SELFTEST (R262): PRT_CMD.SELFTEST starts an L1 PRBS31 self-test or is refused. -/
  | selftest (n : Nat)
  /-- SELFTEST_DONE (R262): After 2^30 bits the self-test reports PASS and the port brings up on its pins. -/
  | selftestDone (n : Nat) (pass : Nat)
  /-- PRT_CLR_COUNTS (R17): PRT_CMD.CLR_COUNTS clears the port's and lanes' SAT counters. -/
  | prtClrCounts (n : Nat)
  /-- PRBS_LOCK (R258): A PRBS checker makes 64 correct predictions and locks; `bits` are the received bits of physical lane j, in order. -/
  | prbsLock (n : Nat) (j : Nat) (bits : List Bool)
  /-- PRBS_LOCK_LOST (R258): 32 errors in 256 bits unlock and re-seed a PRBS checker; `bits` as for PRBS_LOCK. -/
  | prbsLockLost (n : Nat) (j : Nat) (bits : List Bool)
  /-- PRBS_CLR (R258): PRT_LANE_PRBS_CFG.CLR clears both PRBS counters. -/
  | prbsClr (n : Nat) (j : Nat)
  /-- FOM_UPDATE (R257): Every 65,536 UI a lane updates its FOM and DIP. -/
  | fomUpdate (n : Nat) (j : Nat) (fom : Nat)
  /-- PHASE_TRACK_STEP (R255): Every 1,024 UI the interpolator may move one step toward the eye centre. -/
  | phaseTrackStep (n : Nat) (j : Nat)
  /-- UL_INJ_ONE (R260): PRT_UL_CFG.INJ_ONE flips the next uplink bit. -/
  | ulInjOne (n : Nat)
  /-- RLY_INJ_ONE (R260): RLY_CMD.INJ_ONE flips the next bit on selected relay lanes, or is refused in PORT mode. -/
  | rlyInjOne (k : Nat)
  /-- RLY_CLR_COUNTS (R17): RLY_CMD.CLR_COUNTS clears the relay's counters. -/
  | rlyClrCounts (k : Nat)
  /-- INJ_PERIODIC (R260): Every 2^INJ_EXP bits a generator flips one bit. -/
  | injPeriodic (k : Nat)
  /-- TRIGPKT_SEND (R137): A trigger packet's schedule time is reached and its K28.7 leaves 24 ns later. -/
  | trigpktSend (n : Nat)
  /-- UL_SEND (R305): PKT_UL_TXCMD.SEND queues the control packet in the transmit buffer. -/
  | ulSend (n : Nat)
  /-- UL_TX_DONE (R305): The control packet has gone and TX_BUSY clears. -/
  | ulTxDone (n : Nat)
  /-- PKT_FS (R287): A frame start packet opens, refuses or drops a frame on each matching stream; `cols` are the columns at the data pins, each by physical
  lane: the column before the packet, its SOP column, the columns of its bytes. -/
  | pktFs (n : Nat) (cols : List (List Nat))
  /-- PKT_FE (R292): A frame end packet closes the open frames it matches; `cols` as for PKT_FS. -/
  | pktFe (n : Nat) (cols : List (List Nat))
  /-- PKT_LONG (R291): A long packet is stored as a line of its open frame, or discarded and counted; `cols` as for PKT_FS; `ecc` as for
  ISP_UNIT_DONE, of the line's writes. -/
  | pktLong (n : Nat) (cols : List (List Nat)) (ecc : List (Nat × Nat))
  /-- PKT_SHORT_OTHER (R279): Line start, line end, generic or reserved short packets are ignored or discarded; `cols` as for PKT_FS. -/
  | pktShortOther (n : Nat) (cols : List (List Nat))
  /-- SOP_ABORT (R293): A complete SOP column inside a packet aborts it and closes frames TRUNCATED; `cols` as for PKT_FS, up to the SOP column that cuts the
  packet. -/
  | sopAbort (n : Nat) (cols : List (List Nat))
  /-- FRAME_WDOG (R294): The frame watchdog expires and closes the frame TRUNCATED. -/
  | frameWdog (k : Nat)
  /-- TAG_FINALISE (R297): 200 ns after close and with the trigger outcome final, the tag enters the tag queue. -/
  | tagFinalise (k : Nat)
  /-- TAG_COMPLETE (R297): The tag queue releases a tag, completing it. -/
  | tagComplete
  /-- PKT_TRIG_EVENT (R303): A beacon event reaches PKT_TRIG and enabled ports schedule trigger packets. -/
  | pktTrigEvent (ch : Nat)
  /-- UL_RX_POP (R306): PKT_UL_RXSTAT.POP removes the head reply. -/
  | ulRxPop (n : Nat)
  /-- PKT_MAP_WRITE (R286): A PKT_MAP write enables a stream after checks, or clears EN closing the open frame. -/
  | pktMapWrite (k : Nat) (val : Nat)
  /-- LAST_TAG_READ (R300): A read of the first word of PKT_LAST_TAG captures the whole tag. -/
  | lastTagRead (k : Nat)
  /-- PKT_PORT_CLR_COUNTS (R17): PKT_PORT_CMD.CLR_COUNTS clears the port's SAT counters. -/
  | pktPortClrCounts (n : Nat)
  /-- PKT_STREAM_CLR_COUNTS (R17): PKT_SCMD.CLR_COUNTS clears the stream's SAT counters. -/
  | pktStreamClrCounts (k : Nat)
  /-- ISP_UNIT_START (R343): At a unit boundary the scheduler starts the next ready unit. -/
  | ispUnitStart (i : Nat)
  /-- ISP_UNIT_DONE (R341): A frame or stripe unit finishes in the pipeline; `ecc` are the errors that its LP5X accesses met, as (how,
  address): 1 corrected by link ECC, 2 by in-line ECC, 3 a read that neither could correct (R400 to R402). -/
  | ispUnitDone (i : Nat) (ecc : List (Nat × Nat))
  /-- ISP_INLINE_DONE (R340): An in-line frame's outputs complete after its FE; `ecc` as for ISP_UNIT_DONE. -/
  | ispInlineDone (i : Nat) (ecc : List (Nat × Nat))
  /-- ISP_MERGE_TIMEOUT (R317): No partner frame within PAIR_US bypasses exposure 0. -/
  | ispMergeTimeout (i : Nat) (c : Nat)
  /-- ISP_SUBMIT_GO (R349): ISP_SUBMIT.GO queues a manual job or refuses it. -/
  | ispSubmitGo (i : Nat) (mid : Nat)
  /-- ISP_CTX_DISABLE (R348): Writing a context EN to 0 bypasses its pending and running frames. -/
  | ispCtxDisable (i : Nat) (c : Nat)
  /-- ISP_MODE_WRITE (R348): A write to ISP_CTL MODE or INLINE_CTX applies, bypasses frames, or is discarded. -/
  | ispModeWrite (i : Nat) (val : Nat)
  /-- ISP_CTX_CLR_COUNTS (R17): ISP_CTX_CMD.CLR_COUNTS clears the context's SAT counters. -/
  | ispCtxClrCounts (i : Nat) (c : Nat)
  /-- LAST_STAT_READ (R338): A read of the first word of ISP_LAST_STAT captures the record. -/
  | lastStatRead (i : Nat)
  /-- POD_SUB_GO (R377): POD_SUB_CMD.GO submits a pod run. -/
  | podSubGo (mid : Nat)
  /-- POD_RUN_BEGIN (R379): A queued run begins when its pods are idle and its input is ready. -/
  | podRunBegin (id : Nat)
  /-- POD_LAYER_DONE (R359): A layer completes on every pod of the run and the next layer is checked and started; `ecc` as for
  ISP_UNIT_DONE. -/
  | podLayerDone (id : Nat) (ecc : List (Nat × Nat))
  /-- GATE_DEADLINE (R385): TB_FE + DEADLINE passes without a network verdict and the deadline outcome applies. -/
  | gateDeadline (k : Nat) (seq : Nat)
  /-- GATE_CFG_WRITE (R392): A gate config write sets EN, or clears it finalising tracked frames. -/
  | gateCfgWrite (mid : Nat) (k : Nat) (val : Nat)
  /-- POD_CLR_COUNTS (R17): POD_CMD.CLR_COUNTS clears a pod's saturation counters. -/
  | podClrCounts (k : Nat)
  /-- POD_CCMD_CLR_COUNTS (R17): POD_CCMD.CLR_COUNTS clears the controller's counters. -/
  | podCcmdClrCounts
  /-- GATE_CLR_COUNTS (R17): POD_GATE_CFG.CLR_COUNTS clears the gate's counters. -/
  | gateClrCounts (k : Nat)
  /-- MEM_TRAIN (R397): MEM_CMD.TRAIN starts LP5X training. -/
  | memTrain
  /-- MEM_TRAIN_DONE (R397): Training ends READY or FAILED. -/
  | memTrainDone (chOk : Nat) (gib : Nat)
  /-- MEM_REFRESH (R398): A refresh interval elapses and the controller issues refresh. -/
  | memRefresh
  /-- MEM_CLR_COUNTS (R17): MEM_CMD.CLR_COUNTS clears every MEM SAT counter. -/
  | memClrCounts
  /-- BURST_ARM (R407): MEM_BURST_CFG.ARM moves the burst logic to ARMED. -/
  | burstArm (k : Nat)
  /-- BURST_DISARM (R409): MEM_BURST_CFG.DISARM returns to IDLE and releases GATING. -/
  | burstDisarm (k : Nat)
  /-- FREEZE_NOW (R407): MEM_BURST_CFG.FREEZE_NOW counts as an end event with POST zero. -/
  | freezeNow (k : Nat)
  /-- BURST_END_EVENT (R407): A beacon event reaches MEM_END and armed streams record EVENT_TB and EVENT_SEQ. -/
  | burstEndEvent (ch : Nat)
  /-- DMA_SUB_GO (R413): DMA_SUB_CMD.GO checks and submits the staged descriptor. -/
  | dmaSubGo (mid : Nat)
  /-- DMA_DESC_START (R419): A descriptor's start condition holds and it begins moving bytes. -/
  | dmaDescStart (id : Nat)
  /-- DMA_BURST (R415): A channel issues a burst of up to 512 bytes; `ecc` as for ISP_UNIT_DONE; `host` is what host memory answers to
  its reads. -/
  | dmaBurst (c : Nat) (ecc : List (Nat × Nat)) (host : List Nat)
  /-- DMA_DESC_COMPLETE (R424): A descriptor's completion condition holds and it leaves flight; `host` is what host memory answers to
  the read of CONFIRMED. -/
  | dmaDescComplete (id : Nat) (host : List Nat)
  /-- DMA_PAUSE (R428): DMA_CH_CMD.PAUSE stops new bursts on the channel. -/
  | dmaPause (c : Nat)
  /-- DMA_RESUME (R428): DMA_CH_CMD.RESUME continues the channel at the exact byte. -/
  | dmaResume (c : Nat)
  /-- DMA_DRAIN (R428): DMA_CH_CMD.DRAIN refuses new descriptors and runs the queue out. -/
  | dmaDrain (c : Nat)
  /-- DMA_ABORT (R428): DMA_CH_CMD.ABORT ends the channel's descriptors ABORTED. -/
  | dmaAbort (c : Nat)
  /-- DMA_CH_CLR_COUNTS (R17): DMA_CH_CMD.CLR_COUNTS clears the channel's counters. -/
  | dmaChClrCounts (c : Nat)
  /-- HOST_LINK_UP (R437): The PCIe link reaches DL_Active and held ring writes are sent. -/
  | hostLinkUp (speed : Nat) (width : Nat)
  /-- HOST_LINK_DOWN (R437): The PCIe link leaves DL_Active and host-bound traffic is held. -/
  | hostLinkDown
  /-- PERST_ASSERT (R575): PERST# asserted resets the host link, HIF and RNG. -/
  | perstAssert
  /-- PERST_RELEASE (R567): PERST# released lets link training begin. -/
  | perstRelease
  /-- HOST_CPL_TIMEOUT (R438): A host read completion does not arrive within the Completion Timeout Value. -/
  | hostCplTimeout (ofRing : Bool) (n : Nat)
  /-- HOST_CPL_ERROR (R438): A host read returns poisoned, UR or CA. -/
  | hostCplError (ofRing : Bool) (n : Nat)
  /-- HOST_INDEX_WRITE (R452): A doorbell or context write sets a ring's host-owned index or is discarded. -/
  | hostIndexWrite (mid : Nat) (ring : Nat) (val : Nat) (bar2 : Bool)
  /-- BUOY_ACK (R467): A write of 1 to a buoy pending or sticky bit acknowledges it. -/
  | buoyAck (mid : Nat) (ring : Nat) (mask : Nat)
  /-- BUOY_CNT_READ (R466): A read of RNG_BUOY_CNT returns and clears both crossing counts. -/
  | buoyCntRead (mid : Nat) (ring : Nat)
  /-- RING_CFG_WRITE (R451): A write to RNG_CFG enables a ring after checks or disables it. -/
  | ringCfgWrite (mid : Nat) (ring : Nat) (val : Nat)
  /-- RING_ENTRY_FETCHED (R453): A host-produced ring entry returns from host memory. -/
  | ringEntryFetched (ring : Nat) (bytes : List Nat)
  /-- CMD_NOP (R460): CMD ring NOP completes OK. -/
  | cmdNop (ring : Nat)
  /-- CMD_REG_WRITE (R460): CMD ring REG_WRITE performs a 32-bit register write. -/
  | cmdRegWrite (ring : Nat)
  /-- CMD_REG_READ (R460): CMD ring REG_READ reads a register into ARG1. -/
  | cmdRegRead (ring : Nat)
  /-- CMD_MBX_SEND (R460): CMD ring MBX_SEND sends a mailbox word. -/
  | cmdMbxSend (ring : Nat)
  /-- CMD_BCN_FIRE (R460): CMD ring BCN_FIRE fires a beacon channel. -/
  | cmdBcnFire (ring : Nat)
  /-- CMD_DMA_SUBMIT (R460): CMD ring DMA_SUBMIT reads and submits a descriptor. -/
  | cmdDmaSubmit (ring : Nat) (err : Nat) (desc : List Nat)
  /-- RING_INDEX_WB (R454): The ring engine writes the device-owned index and flags to RNG_WB. -/
  | ringIndexWb (ring : Nat)
  /-- RING_COAL_TIMEOUT (R463): COAL_US passes since the first unnoticed entry and a notice is raised. -/
  | ringCoalTimeout (ring : Nat)
  /-- RNG_EVT_EVENT (R462): A beacon event reaches RNG_EVT_i and a BEACON record goes to its EVT ring. -/
  | rngEvtEvent (i : Nat)
  /-- FLR_VF (R468): A function-level reset of a VF disables its rings and aborts its descriptors. -/
  | flrVf (k : Nat)
  /-- FLR_PF (R469): A function-level reset of the PF resets every ring and VF. -/
  | flrPf
  /-- FLR_COMPLETE (R468): A function-level reset completes. -/
  | flrComplete (fn : Nat)
  /-- HIF_CLR_COUNTS (R17): HIF_CMD.CLR_COUNTS clears the HIF SAT counters. -/
  | hifClrCounts
  /-- MBX_DATA_WRITE (R473): A write to MBX_DATA sends a word to the mailbox; `received`: its receiver's receive reaches it in
  the same cycle (R475). -/
  | mbxDataWrite (mid : Nat) (m : Nat) (word : Nat) (received : Bool)
  /-- MBX_DATA_READ (R474): A read of MBX_DATA receives the word and clears FULL. -/
  | mbxDataRead (mid : Nat) (m : Nat)
  /-- MBX_WITHDRAW (R475): MBX_STAT.WDR withdraws the sender's unread word; `received`: a receive reaches the mailbox in the
  same cycle. -/
  | mbxWithdraw (mid : Nat) (m : Nat) (received : Bool)
  /-- MBX_BIND_WRITE (R472): A write to MBX_BIND sets the binding or is refused. -/
  | mbxBindWrite (mid : Nat) (m : Nat) (val : Nat)
  /-- MBX_TIMEOUT (R476): The mailbox timeout expires with FULL still set; `received`: a receive reaches the mailbox in the
  same cycle, and is in time. -/
  | mbxTimeout (m : Nat) (received : Bool)
  /-- MBX_CLR_COUNTS (R17): MBX_CMD.CLR_COUNTS clears every MBX SAT counter. -/
  | mbxClrCounts
  /-- BCN_FIRE_WRITE (R490): A write to BCN_FIRE requests firings of channels. -/
  | bcnFireWrite (mid : Nat) (mask : Nat)
  /-- BCN_CFG_WRITE (R489): A write to a channel's configuration applies by ownership or is refused. -/
  | bcnCfgWrite (mid : Nat) (c : Nat) (val : Nat)
  /-- BCN_CLR_COUNTS (R17): BCN_CMD.CLR_COUNTS clears every BCN SAT counter. -/
  | bcnClrCounts
  /-- PWR_WAKE_EVENT (R488): A beacon event reaches PWR_WAKE and the named domains power up. -/
  | pwrWakeEvent (ch : Nat)
  /-- KEEP_IRQ_EVENT (R488): A beacon event reaches KEEP_IRQ and drives KIRQn low. -/
  | keepIrqEvent (ch : Nat)
  /-- TWN_SEND_EVENT (R521): A beacon event reaches TWN_SEND and a BCN twin packet is queued. -/
  | twnSendEvent (ch : Nat)
  /-- TWN_CTL_WRITE (R492): A write to TWN_CTL enables or disables twin operation or is discarded. -/
  | twnCtlWrite (val : Nat)
  /-- TWN_RELEASE (R516): TWN_CMD.RELEASE releases the watch or hands the lines over. -/
  | twnRelease
  /-- TWN_HELLO (R498): TWN_CMD.HELLO sends a HELLO and restarts the handshake. -/
  | twnHello
  /-- TWN_FCG_SYNC (R507): TWN_CMD.FCG_SYNC requests an FCGSTATE packet. -/
  | twnFcgSync
  /-- TWN_CLR_COUNTS (R17): TWN_CMD.CLR_COUNTS clears every TWN SAT counter. -/
  | twnClrCounts
  /-- TWN_HELLO_RX (R498): A received HELLO is compared and decides roles or MISMATCH. -/
  | twnHelloRx (pkt : List Nat)
  /-- TWN_FOGHORN_TX (R508): TB crosses a multiple of FOG_PERIOD and a FOGHORN is sent. -/
  | twnFoghornTx
  /-- TWN_FOGHORN_RX (R509): A valid FOGHORN arrives and restores FOGHORN_OK. -/
  | twnFoghornRx (pkt : List Nat)
  /-- TWN_FOG_MISS (R509): A foghorn deadline passes with no FOGHORN. -/
  | twnFogMiss
  /-- TWN_TBSYNC_TX (R503): The TBSYNC interval passes and the watch sends a TBSYNC request. -/
  | twnTbsyncTx
  /-- TWN_TBSYNC_RX (R503): A TBSYNC packet arrives; the lead answers or the watch aligns TB. -/
  | twnTbsyncRx (pkt : List Nat)
  /-- TWN_FS_RX (R505): An FS packet aligns the follower's SEQ. -/
  | twnFsRx (pkt : List Nat)
  /-- TWN_TRIG_RX (R507): A TRIG packet is compared with the watch's commit. -/
  | twnTrigRx (pkt : List Nat)
  /-- TWN_FCGSTATE_RX (R506): An FCGSTATE packet loads a watch FCG's state. -/
  | twnFcgstateRx (pkt : List Nat)
  /-- TWN_ROLE_RX (R518): A ROLE packet handles HANDOVER, HANDOVER_ACK or RELEASE. -/
  | twnRoleRx (pkt : List Nat)
  /-- TWN_MBX_RX (R520): An MBX packet delivers, acknowledges, refuses or withdraws a mirrored word. -/
  | twnMbxRx (pkt : List Nat)
  /-- TWN_BCN_RX (R521): A BCN packet fires the local channel and REMOTE producers. -/
  | twnBcnRx (pkt : List Nat)
  /-- TWN_SEARCH_TIMEOUT (R502): TWN_SEARCH_MS passes without the twin link and the device enters SOLO. -/
  | twnSearchTimeout
  /-- TWN_LINE_MISS (R510): A shared line differs from the tracked schedule longer than LINE_TOL. -/
  | twnLineMiss (n : Nat)
  /-- TWN_TAKEOVER_DRIVE (R513): The watch begins driving the shared lines after confirmation. -/
  | twnTakeoverDrive
  /-- DRIVE_FIGHT (R515): A driven shared line differs from its sensed level for 100 ns. -/
  | driveFight (n : Nat)
  /-- TWN_HANDOVER (R518): At T_H the lead stops and the watch starts driving. -/
  | twnHandover
  /-- TWN_HANDOVER_CANCEL (R518): No acknowledgement by T_H - 2 us cancels the handover. -/
  | twnHandoverCancel
  /-- READ (R527): A keeper READ transaction samples a keeper register. -/
  | read (port : Nat) (addr : Nat) (tail : Nat) (crc : Nat)
  /-- WRITE (R527): A keeper WRITE transaction sets a keeper register. -/
  | write (port : Nat) (addr : Nat) (data : Nat) (tail : Nat) (crc : Nat)
  /-- POLL (R539): A keeper POLL returns the summary word and commits latched banks in its tail. -/
  | poll (port : Nat) (max : Nat) (tail : Nat) (crc : Nat)
  /-- STEP (R557): A keeper STEP drives one display step and counts switches. -/
  | step (port : Nat) (k : Nat) (tail : Nat) (crc : Nat)
  /-- TIME (R530): A keeper TIME stores the wall time. -/
  | time (port : Nat) (seconds : Nat) (crc : Nat)
  /-- NVWRITE (R528): A keeper NVWRITE programs half a journal word. -/
  | nvwrite (port : Nat) (addr : Nat) (data : Nat) (tail : Nat) (fast : Bool) (crc : Nat)
  /-- KD_INTENT (R555): An NVWRITE to KD_INTENT starts a display update. -/
  | kdIntent (port : Nat) (hash : Nat) (tail : Nat) (fast : Bool) (crc : Nat)
  /-- KD_COMMIT (R557): An NVWRITE to KD_COMMIT completes a display update. -/
  | kdCommit (port : Nat) (hash : Nat) (tail : Nat) (fast : Bool) (crc : Nat)
  /-- KRESET (R529): A keeper KRESET transaction forms half of the reset key pair. -/
  | kreset (port : Nat) (data : Nat) (crc : Nat)
  /-- KEEPER_ABANDON (R531): KCSn rises early and the transaction is abandoned. -/
  | keeperAbandon (port : Nat)
  /-- KBR_GO (R532): KBR_CMD.GO starts a bridge keeper transaction. -/
  | kbrGo (mid : Nat)
  /-- KBR_DONE (R532): A bridge transaction ends with data and status. -/
  | kbrDone (flips : Nat)
  /-- KEEPER_POR (R562): The keeper leaves power-on reset and loads its journal values. -/
  | keeperPor
  /-- KP_RESET_WARM (R569): KP_RESET.WARM with the key requests a warm reset. -/
  | kpResetWarm (port : Nat) (key : Nat)
  /-- KP_RESET_COLD (R569): KP_RESET.COLD with the key requests a cold reset. -/
  | kpResetCold (port : Nat) (key : Nat)
  /-- KP_FAIL_CLEAR (R547): A write of 1 to a KP_FAIL bit retries powering the domain. -/
  | kpFailClear (port : Nat) (mask : Nat)
  /-- THERMAL_WARN (R552): A sensor reaches WARN and the warning is latched. -/
  | thermalWarn (sensor : Nat) (hot : Bool)
  /-- THERMAL_TRIP (R553): A sensor reaches TRIP and the hardware darkens outputs and removes all switchable domains. -/
  | thermalTrip (sensor : Nat) (hot : Bool)
  /-- TRIP_CLR (R553): KT_STATUS.TRIP_CLR clears TRIPPED when every sensor is cool. -/
  | tripClr (port : Nat)
  /-- DOMAIN_POWER_UP (R547): A domain reports power good. -/
  | domainPowerUp (d : Nat)
  /-- DOMAIN_POWER_DOWN (R547): A domain finishes its power-down. -/
  | domainPowerDown (d : Nat)
  /-- DOMAIN_POWER_FAIL (R547): A domain fails to report power good in 10 times its power-up time. -/
  | domainPowerFail (d : Nat)
  /-- PWR_WAKE_RELEASE (R549): A write of 1 to PWR_WAKE_HELD releases a woken domain. -/
  | pwrWakeRelease (mask : Nat)
  /-- RAIL_OUT_OF_RANGE (R561): An A-die rail leaves its range and the A-die enters power-on reset. -/
  | railOutOfRange
  /-- VKEEP_LOSS (R561): VKEEP leaves its range and the keeper loses its registers. -/
  | vkeepLoss
  /-- ADIE_RELEASE (R563): Rails, lane reference and keeper ready release the A-die. -/
  | adieRelease
  /-- ADIE_RESET_DONE (R564): The cold-reset actions complete and the sequencer powers the closure. -/
  | adieResetDone (trgPs : Nat)
  /-- WARM_RESET (R572): GLB_RST_CTL.WARM with the key starts a warm reset. -/
  | warmReset (mid : Nat) (val : Nat)
  /-- COLD_RESET (R573): GLB_RST_CTL.COLD with the key starts a cold reset. -/
  | coldReset (mid : Nat) (val : Nat)
  /-- WARM_RESET_DONE (R571): A warm reset completes. -/
  | warmResetDone
  /-- BLOCK_RESET (R576): A GLB_BLK_RST bit resets one block or is refused. -/
  | blockReset (mid : Nat) (mask : Nat)
  /-- BLOCK_RESET_DONE (R576): A block reset completes and BLK_BUSY clears. -/
  | blockResetDone (b : Nat)
  /-- FIO_FAULT_CONFIRM (R604): A field fault condition is confirmed on a channel. -/
  | fioFaultConfirm (c : Nat) (kinds : Nat) (partner : Nat)
  /-- FIO_FAULT_CLEAR (R602): A live fault condition on a channel ends. -/
  | fioFaultClear (c : Nat) (kind : Nat)
  /-- IDLE_WINDOW_END (R602): An IDLE_WIN_MS window ends and idle polarity is judged. -/
  | idleWindowEnd (c : Nat) (ticks : Nat)
  /-- FIO_REARM (R609): A FIO_ARM bit starts a re-arm test or is refused. -/
  | fioRearm (c : Nat)
  /-- FIO_ARM_TEST_DONE (R609): The 2 us re-arm test ends by passing or by a limit. -/
  | fioArmTestDone (c : Nat) (pass : Bool) (kind : Nat) (partner : Nat)
  /-- FIO_DARK_CMD (R607): A FIO_DARK bit darkens an output with cause COMMAND. -/
  | fioDarkCmd (c : Nat)
  /-- GIN_EDGE (R600): A filtered general-input edge fires its producer. -/
  | ginEdge (n : Nat) (level : Bool) (held : Nat)
  /-- FIO_CLR_COUNTS (R17): FIO_CMD.CLR_COUNTS clears every FIO_CH_CNT. -/
  | fioClrCounts
  /-- LANE_REF_RETURN (R32): The lane reference returns and the system PLL relocks, setting GLB_STATUS.REF_LANE_OK and its GLB_EVT change bit. -/
  | laneRefReturn
  /-- PCIE_REF_RETURN (R34): The PCIe reference returns and the host PLL relocks, setting GLB_STATUS.REF_PCIE_OK and its GLB_EVT change bit before link retraining. -/
  | pcieRefReturn
  /-- PCIE_CONFIG_WRITE (R443): A host configuration write changes NumVFs, VF Enable, MSI-X Enable, Device Control 2 or the power state of a function. `what`: 0 NumVFs, 1 VF Enable, 2 MSI-X Enable, 3 the MSI-X function mask, 4 the Completion Timeout Value, 5 Relaxed Ordering Enable, 6 D3hot. -/
  | pcieConfigWrite (fn : Nat) (what : Nat) (val : Nat)
  deriving DecidableEq, Repr

end Sys2Proof
end

