-- ==== Sys2Proof/Decode.lean ====
section
/-! DEFINITION. The words of commands. The rows of the table of steps carry no bits of their own; the instructions of the
sequencer cores have 32-bit words in program memory, decoded and encoded here (spec/03, R101 to R103). -/
namespace Sys2Proof

/-- The command that a word spells by the bits of the table: no row of spec/opcode_table.json gives any. -/
def decodeTableWord (_nbits _w : Nat) : Option Instr := none

/-! ### Decoding (R101 to R103) -/

/-- The three-operand instruction of a low nibble of opcodes 0x1- and 0x2- (R103). -/
def tsxAlu (n : Nat) : Option (Nat → Nat → Nat → Src → Instr) :=
  match n with
  | 0 => some .add
  | 1 => some .sub
  | 2 => some .and
  | 3 => some .or
  | 4 => some .xor
  | 5 => some .shl
  | 6 => some .shr
  | 7 => some .sar
  | 8 => some .mul
  | _ => none

/-- An instruction whose unused fields are zero (R102). -/
def zeroed (unused : Nat) (i : Instr) : Option Instr := if unused = 0 then some i else none

/-- Opcodes 0x2-: the IMM, ACC and INS formats. A shift's imm16 bits 15:6 are zero (R106). -/
def tsxImm (c w n : Nat) : Option Instr :=
  let d := bitsOf w 20 4
  let a := bitsOf w 16 4
  let imm := bitsOf w 0 16
  match n with
  | 0xA => some (.add c d d (.acc (bitsOf w 0 20)))
  | 0xB => some (.sub c d d (.acc (bitsOf w 0 20)))
  | 0xC => some (.mov c d (bitsOf w 0 20))
  | 0xD => zeroed (bitsOf w 16 2) (.movk c d imm (bitsOf w 18 2))
  | n => if (n = 5 ∨ n = 6 ∨ n = 7) ∧ 64 ≤ imm then none else (tsxAlu n).map fun k => k c d a (.imm imm)

/-- Opcodes 0x3-: branches; a cond of 15 is none (R102). -/
def tsxBranch (c w n : Nat) : Option Instr :=
  let d := bitsOf w 20 4
  let a := bitsOf w 16 4
  let imm := bitsOf w 0 16
  match n with
  | 0 => if d = 15 then none else zeroed a (.bCond c d imm)
  | 1 => zeroed (d + a) (.bl c imm)
  | 2 => zeroed (d + imm) (.jr c a)
  | 3 => zeroed (bitsOf w 0 24) (.ret c)
  | 4 => zeroed (bitsOf w 0 20) (.movlk c d)
  | 5 => zeroed (d + imm) (.setlk c a)
  | _ => none

/-- Opcodes 0x4-: loads, stores and atomics. -/
def tsxMemory (c w n : Nat) : Option Instr :=
  let d := bitsOf w 20 4
  let a := bitsOf w 16 4
  let b := bitsOf w 12 4
  let imm := bitsOf w 0 16
  match n with
  | 0 => some (.ldb c d a imm)
  | 1 => some (.ldh c d a imm)
  | 2 => some (.ldw c d a imm)
  | 3 => some (.ldd c d a imm)
  | 4 => some (.ldsb c d a imm)
  | 5 => some (.ldsh c d a imm)
  | 6 => some (.ldsw c d a imm)
  | 8 => some (.stb c d a imm)
  | 9 => some (.sth c d a imm)
  | 0xA => some (.stw c d a imm)
  | 0xB => some (.std c d a imm)
  | 0xC => zeroed (bitsOf w 0 12) (.aadd c d a b)
  | 0xD => zeroed (bitsOf w 0 12) (.axch c d a b)
  | _ => none

/-- Opcodes 0x5-: device registers and TB. -/
def tsxDevice (c w n : Nat) : Option Instr :=
  let d := bitsOf w 20 4
  let a := bitsOf w 16 4
  let imm := bitsOf w 0 16
  match n with
  | 0 => some (.rdev c d a imm)
  | 1 => some (.rdevd c d a imm)
  | 2 => some (.wdev c d a imm)
  | 3 => some (.wdevd c d a imm)
  | 4 => zeroed (bitsOf w 0 24) (.dsync c)
  | 8 => zeroed (bitsOf w 0 20) (.tbr c d)
  | _ => none

/-- Opcodes 0x8-: run-ahead regions. -/
def tsxRegion (c w n : Nat) : Option Instr :=
  match n with
  | 0 => zeroed (bitsOf w 16 2) (.spec c (bitsOf w 22 2) (bitsOf w 18 4) (bitsOf w 0 16))
  | 1 => zeroed (bitsOf w 0 24) (.commit c)
  | 2 => zeroed (bitsOf w 0 24) (.squash c)
  | _ => none

/-- Opcodes 0x9-: actions. The instructions that define no bit of mod hold zero there; fire defines bits 5:0, mbxsend and
dmaq bit 0 (R102, R139, R141, R146). -/
def tsxAction (c w n : Nat) : Option Instr :=
  let d := bitsOf w 20 4
  let a := bitsOf w 16 4
  let b := bitsOf w 12 4
  let e := bitsOf w 8 4
  let m := bitsOf w 0 8
  match n with
  | 0 => zeroed m (.pulse c d a b e)
  | 1 => zeroed m (.pair c d a b e)
  | 2 => zeroed m (.trigpkt c d a b e)
  | 3 => zeroed (b + e + m / 64) (.fire c d a (m % 64))
  | 4 => zeroed (e + m / 2) (.mbxsend c d a b (m == 1))
  | 5 => zeroed (b + e + m) (.mbxrcv c d a)
  | 6 => zeroed (b + e + m) (.mbxwdr c d a)
  | 8 => zeroed (b + e + m / 2) (.dmaq c d a (m == 1))
  | 9 => zeroed m (.podrun c d a b e)
  | 0xA => zeroed (e + m) (.framearm c d a b)
  | _ => none

/-- The instruction of core c that a word spells; none for a word that R102 makes ILLEGAL_OP. A wait's kind is
below 4 (R102); the fields that its kind does not use are checked where the wait is executed (R118 to R122). -/
def tsxDecode (c w : Nat) : Option Instr :=
  let n := bitsOf w 24 4
  let d := bitsOf w 20 4
  let a := bitsOf w 16 4
  let b := bitsOf w 12 4
  match bitsOf w 28 4 with
  | 1 => if bitsOf w 0 12 = 0 then (tsxAlu n).map fun k => k c d a (.reg b) else none
  | 2 => tsxImm c w n
  | 3 => tsxBranch c w n
  | 4 => tsxMemory c w n
  | 5 => tsxDevice c w n
  | 6 => if n = 0 ∧ d < 4 then zeroed (bitsOf w 0 6) (.wait c d a b (bitsOf w 6 6)) else none
  | 7 => if n = 0 then zeroed (bitsOf w 0 24) (.halt c) else none
  | 8 => tsxRegion c w n
  | 9 => tsxAction c w n
  | _ => none

/-! ### Encoding (R101, R103) -/

/-- The formats of R101. -/
def fmtREG (op rd ra rb rc md : Nat) : Nat := op * 2 ^ 24 + rd * 2 ^ 20 + ra * 2 ^ 16 + rb * 2 ^ 12 + rc * 2 ^ 8 + md
def fmtIMM (op rd ra imm16 : Nat) : Nat := op * 2 ^ 24 + rd * 2 ^ 20 + ra * 2 ^ 16 + imm16
def fmtACC (op rd imm20 : Nat) : Nat := op * 2 ^ 24 + rd * 2 ^ 20 + imm20
def fmtINS (op rd sh imm16 : Nat) : Nat := op * 2 ^ 24 + rd * 2 ^ 20 + sh * 2 ^ 18 + imm16
def fmtBR (op cond off16 : Nat) : Nat := op * 2 ^ 24 + cond * 2 ^ 20 + off16
def fmtWT (op kind ra rdl idx : Nat) : Nat := op * 2 ^ 24 + kind * 2 ^ 20 + ra * 2 ^ 16 + rdl * 2 ^ 12 + idx * 2 ^ 6
def fmtSP (op k rdl off16 : Nat) : Nat := op * 2 ^ 24 + k * 2 ^ 22 + rdl * 2 ^ 18 + off16
def fmtNIL (op : Nat) : Nat := op * 2 ^ 24

/-- A three-operand instruction: REG, IMM or ACC by its second source. -/
def tsxAluWord (n rd ra : Nat) (src : Src) : Nat :=
  match src with
  | .reg rb => fmtREG (0x10 + n) rd ra rb 0 0
  | .imm v => fmtIMM (0x20 + n) rd ra v
  | .acc v => fmtACC (0x2A + n) rd v

/-- The word of an instruction of a sequencer core; none for a command that is no instruction (R103). -/
def tsxEncode (i : Instr) : Option Nat :=
  match i with
  | .add _ d a s => some (tsxAluWord 0 d a s)
  | .sub _ d a s => some (tsxAluWord 1 d a s)
  | .and _ d a s => some (tsxAluWord 2 d a s)
  | .or _ d a s => some (tsxAluWord 3 d a s)
  | .xor _ d a s => some (tsxAluWord 4 d a s)
  | .shl _ d a s => some (tsxAluWord 5 d a s)
  | .shr _ d a s => some (tsxAluWord 6 d a s)
  | .sar _ d a s => some (tsxAluWord 7 d a s)
  | .mul _ d a s => some (tsxAluWord 8 d a s)
  | .mov _ d v => some (fmtACC 0x2C d v)
  | .movk _ d v g => some (fmtINS 0x2D d g v)
  | .bCond _ k o => some (fmtBR 0x30 k o)
  | .bl _ o => some (fmtBR 0x31 0 o)
  | .jr _ a => some (fmtREG 0x32 0 a 0 0 0)
  | .ret _ => some (fmtNIL 0x33)
  | .movlk _ d => some (fmtREG 0x34 d 0 0 0 0)
  | .setlk _ a => some (fmtREG 0x35 0 a 0 0 0)
  | .ldb _ d a v => some (fmtIMM 0x40 d a v)
  | .ldh _ d a v => some (fmtIMM 0x41 d a v)
  | .ldw _ d a v => some (fmtIMM 0x42 d a v)
  | .ldd _ d a v => some (fmtIMM 0x43 d a v)
  | .ldsb _ d a v => some (fmtIMM 0x44 d a v)
  | .ldsh _ d a v => some (fmtIMM 0x45 d a v)
  | .ldsw _ d a v => some (fmtIMM 0x46 d a v)
  | .stb _ d a v => some (fmtIMM 0x48 d a v)
  | .sth _ d a v => some (fmtIMM 0x49 d a v)
  | .stw _ d a v => some (fmtIMM 0x4A d a v)
  | .std _ d a v => some (fmtIMM 0x4B d a v)
  | .aadd _ d a b => some (fmtREG 0x4C d a b 0 0)
  | .axch _ d a b => some (fmtREG 0x4D d a b 0 0)
  | .rdev _ d a v => some (fmtIMM 0x50 d a v)
  | .rdevd _ d a v => some (fmtIMM 0x51 d a v)
  | .wdev _ d a v => some (fmtIMM 0x52 d a v)
  | .wdevd _ d a v => some (fmtIMM 0x53 d a v)
  | .dsync _ => some (fmtNIL 0x54)
  | .tbr _ d => some (fmtREG 0x58 d 0 0 0 0)
  | .wait _ k a l x => some (fmtWT 0x60 k a l x)
  | .halt _ => some (fmtNIL 0x70)
  | .spec _ k l o => some (fmtSP 0x80 k l o)
  | .commit _ => some (fmtNIL 0x81)
  | .squash _ => some (fmtNIL 0x82)
  | .pulse _ d a b e => some (fmtREG 0x90 d a b e 0)
  | .pair _ d a b e => some (fmtREG 0x91 d a b e 0)
  | .trigpkt _ d a b e => some (fmtREG 0x92 d a b e 0)
  | .fire _ d a v => some (fmtREG 0x93 d a 0 0 v)
  | .mbxsend _ d a b y => some (fmtREG 0x94 d a b 0 y.toNat)
  | .mbxrcv _ d a => some (fmtREG 0x95 d a 0 0 0)
  | .mbxwdr _ d a => some (fmtREG 0x96 d a 0 0 0)
  | .dmaq _ d a y => some (fmtREG 0x98 d a 0 0 y.toNat)
  | .podrun _ d a b e => some (fmtREG 0x99 d a b e 0)
  | .framearm _ d a b => some (fmtREG 0x9A d a b 0 0)
  | _ => none

end Sys2Proof
end

