-- ==== Sys2Proof/Config.lean ====
section
/-! DEFINITION. What an implementation fixes and the specification leaves open: the free values. -/
namespace Sys2Proof.Config

/-- The free values of the model, one for each index: wherever the specification leaves a value undefined after a step
that goes on, the step takes the next one (log 3). It has no body: no proof can see a value of it. -/
opaque freeValue : Nat → Nat

/-- The code of recipe `id` in the recipe ROM, byte by byte (R74): the specification does not print it (log 44). -/
opaque romByte : Nat → Nat → Nat

/-- The RATE byte of the twin link's own markers: no RATE of R236 names 10.3125 Gb/s (log 86). -/
opaque twinRate : Nat

/-- What a pod makes of a NaN, a function of the operands it comes from (R356 gives every run on the same input the same
result; log 92): 0 the code of an output, 1 an index, 2 a verdict. -/
opaque podNan (kind : Nat) (operands : List Nat) : Nat

/-- What byte `a` of memory `u` holds after the `k`-th loss of its contents, until something writes it (log 91). -/
opaque lostByte (u k a : Nat) : Nat

end Sys2Proof.Config
end

