-- ==== Sys2Proof/Machine/LineCode.lean ====
section
/-! DEFINITION. The line codes of the camera lanes, the relays, the uplinks and the twin link (spec/06 R236 to R244, R258,
R260, R267): 66-bit blocks and their scrambler, 8b/10b code groups, markers and their cadence, columns and packets, PRBS. -/
namespace Sys2Proof.Machine

/-! ### 66-bit blocks (R238, R239) -/

/-- Descramble 64 payload bits after `hist`, the 58 payload bits received before them, bit 0 the earliest (R238). -/
def descramble (hist cur : Nat) : Nat :=
  let seen := hist + 2 ^ 58 * cur
  cur ^^^ seen / 2 ^ 19 % 2 ^ 64 ^^^ seen % 2 ^ 64

/-- Scramble 64 payload bits after `hist`, the 58 payload bits sent before them: bit t is sent as its XOR with the bits sent
39 and 58 earlier; the first 39 bits depend on `hist` alone, the other 25 on those too (R238). -/
def scramble (hist pay : Nat) : Nat :=
  let low := (pay ^^^ hist / 2 ^ 19 ^^^ hist) % 2 ^ 39
  let sent := hist + 2 ^ 58 * low
  low + 2 ^ 39 * ((pay / 2 ^ 39 ^^^ low ^^^ sent / 2 ^ 39) % 2 ^ 25)

/-- The last 58 bits of a scrambled payload. -/
def lastBits (payload : Nat) : Nat := payload / 2 ^ 6 % 2 ^ 58

/-- What a unit of a lane is: a block in RLB, a code group in RLA. `markK` is K28.1, which opens a marker of RLA; `bad` is a
unit in error, of kind 0 (CODE_ERR) or 1 (CTRL_ERR), with the bytes that it passes on inside a packet. A byte that the
specification does not state is none. -/
inductive RxUnit where
  | idle
  | sop
  | marker (bytes : List Nat)
  | markK
  | data (bytes : List Nat)
  | bad (kind : Nat) (bytes : List (Option Nat))
  deriving DecidableEq, Repr

/-- Payload byte k lies at payload bits 8k + 7 to 8k (R238). -/
def payloadBytes (pay : Nat) : List Nat := (List.range 8).map fun k => bitsOf pay (8 * k) 8

/-- A descrambled block of sync header `hdr` (R238, R239). DEDUCED: 01 and 10 are the header's value with header bit 0 the
less significant (log 83). -/
def blockOf (hdr pay : Nat) : RxUnit :=
  let bs := payloadBytes pay
  if hdr = 1 then .data bs
  else if hdr = 2 then
    let ty := bitsOf pay 0 8
    if ty = 0x1E then .idle else if ty = 0x78 then .sop else if ty = 0x4B then .marker bs
    else .bad 1 (List.replicate 8 none)
  else .bad 0 (bs.map some)

/-- A block as sampled, the sync header in bits 1:0 and the scrambled payload above, after the block `prev`. -/
def rlbUnit (prev w : Nat) : RxUnit := blockOf (w % 4) (descramble (lastBits (prev / 4)) (w / 4 % 2 ^ 64))

/-! ### 8b/10b code groups (R240, R267; log 84) -/

/-- The number of ones among the low n bits. -/
def onesIn (n w : Nat) : Nat := ((List.range n).filter w.testBit).length

/-- The 6-bit sub-blocks abcdei of D.0 to D.31 at negative running disparity, bit a the least significant. -/
def sixCodes : List Nat :=
  [57, 46, 45, 35, 43, 37, 38, 7, 39, 41, 42, 11, 44, 13, 14, 58, 54, 49, 50, 19, 52, 21, 22, 23, 51, 25, 26, 27, 28, 29, 30, 53]

/-- The 4-bit sub-blocks fghj at negative running disparity, bit f the least significant: of data, and of control groups. -/
def fourCodes : List Nat := [13, 9, 10, 3, 11, 5, 6, 7]
def fourControl : List Nat := [13, 6, 5, 3, 11, 10, 9, 14]

/-- The 6-bit sub-block of x at running disparity `pos` (true: positive), and the disparity after it. -/
def sixOf (pos k : Bool) (x : Nat) : Nat × Bool :=
  let c := if k && x == 28 then 60 else sixCodes.getD x 0
  let even := onesIn 6 c == 3
  (if pos && (!even || x == 7) then 63 - c else c, if even then pos else !pos)

/-- The 4-bit sub-block of y after the sub-block of x. -/
def fourOf (pos k : Bool) (x y : Nat) : Nat × Bool :=
  let alt := !k && y == 7 && (if pos then [11, 13, 14] else [17, 18, 20]).contains x
  let c := if k then fourControl.getD y 0 else if alt then 14 else fourCodes.getD y 0
  let even := onesIn 4 c == 2
  (if pos && (k || !even || y == 3) then 15 - c else c, if even then pos else !pos)

/-- The code group of byte b (of a control group: its byte y·32 + x), bit a the least significant and sent first, and the
running disparity after it. -/
def groupOf (pos k : Bool) (b : Nat) : Nat × Bool :=
  let six := sixOf pos k (b % 32)
  let four := fourOf six.2 k (b % 32) (b / 32)
  (six.1 + 64 * four.1, four.2)

/-- The characters of 8b/10b: the twelve control characters and the 256 bytes. -/
def lineChars : List (Bool × Nat) :=
  ([0x1C, 0x3C, 0x5C, 0x7C, 0x9C, 0xBC, 0xDC, 0xFC, 0xF7, 0xFB, 0xFD, 0xFE].map fun b => (true, b))
    ++ (List.range 256).map fun b => (false, b)

/-- The character that a code group carries at a running disparity. -/
def charOf (pos : Bool) (w : Nat) : Option (Bool × Nat) := lineChars.find? fun c => (groupOf pos c.1 c.2).1 == w

/-- The running disparity after a code group, where the group alone tells it. -/
def disparityOf (w : Nat) : Option Bool :=
  let one := fun (n c high low : Nat) =>
    if n < 2 * onesIn n c || c == high then some true else if 2 * onesIn n c < n || c == low then some false else none
  (one 4 (w / 64) 12 3).or (one 6 (w % 64) 56 7)

def kIDLE : Nat := 0xBC
def kSOP : Nat := 0xFB
def kMARK : Nat := 0x3C

/-- A code group after the group `prev` (R240). A group that is valid only at the other running disparity breaks it. -/
def rlaUnit (prev w : Nat) : RxUnit :=
  let here := match disparityOf prev with
    | some pos => charOf pos w
    | none => (charOf false w).or (charOf true w)
  match here with
  | some (true, b) => if b = kIDLE then .idle else if b = kSOP then .sop else if b = kMARK then .markK else .bad 1 [some b]
  | some (false, b) => .data [b]
  | none => match (charOf false w).or (charOf true w) with
    | some (_, b) => .bad 0 [some b]
    | none => .bad 0 [none]

/-- A comma stands in K28.1, K28.5 and K28.7, at either disparity. -/
def isComma (w : Nat) : Bool := [false, true].any fun pos => [kMARK, kIDLE, 0xFC].any fun b => (groupOf pos true b).1 == w

/-! ### Units and columns of a port (R236, R237, R241, R242, R629) -/

/-- The bits of a unit, and a unit with every bit inverted. -/
def unitBits (gen : Nat) : Nat := if gen = 1 then 66 else 10
def flipUnit (gen w : Nat) : Nat := 2 ^ unitBits gen - 1 - w % 2 ^ unitBits gen

/-- The unit `w` after the unit `prev` on a lane of generation `gen`. -/
def unitOf (gen prev w : Nat) : RxUnit := if gen = 1 then rlbUnit prev w else rlaUnit prev w

/-- A sync header or a code group that counts towards lock: valid by R238 or R240. -/
def unitValid (gen prev w : Nat) : Bool :=
  match unitOf gen prev w with
  | .bad kind _ => kind ≠ 0
  | _ => true

/-- The units of a lane from their second on, each with the unit before it. -/
def unitPairs (us : List Nat) : List (Nat × Nat) := us.zip us.tail

/-- Some run of `w` consecutive units (or fewer, where there are no more) holds `k` that fail. -/
def lossIn (w k : Nat) : List Bool → Bool
  | [] => false
  | ok :: rest => decide (k ≤ (((ok :: rest).take w).filter (!·)).length) || lossIn w k rest

/-- The units break the lock rule of their generation (R247). -/
def breaksLock (gen : Nat) (us : List Nat) : Bool :=
  let ok := (unitPairs us).map fun p => unitValid gen p.1 p.2
  if gen = 1 then lossIn 64 16 ok else lossIn 16 4 ok

/-- The units give lane lock: in RLB 64 consecutive valid sync headers, which fill the descrambler; in RLA a comma and 16
valid code groups after it (R246). -/
def givesLock (gen : Nat) (us : List Nat) : Bool :=
  let last := us.drop (us.length - 65)
  let valid := fun (us : List Nat) => (unitPairs us).all fun p => unitValid gen p.1 p.2
  if gen = 1 then decide (65 ≤ us.length) && valid last
  else us.tails.any fun t => match t with
    | c :: rest => isComma c && decide (16 ≤ rest.length) && valid (c :: rest.take 16)
    | [] => false

/-- The bytes that a unit passes on inside a packet: a unit that counts as IDLE has bytes that the specification does not
state (R239, R240). -/
def unitBytes (gen : Nat) : RxUnit → List (Option Nat)
  | .data bs => bs.map some
  | .bad _ bs => bs
  | _ => List.replicate (if gen = 1 then 8 else 1) none

/-- What a receiver has made of the columns so far: the units in error as (logical lane, kind), the bytes of the packet since
its SOP column, the packet that a further SOP column cut, and the columns of an RLA marker still to come. -/
structure Columns where
  errs : List (Nat × Nat)
  bytes : Option (List (Option Nat))
  cut : Option (List (Option Nat))
  gap : Nat
  deriving DecidableEq, Repr

def Columns.init : Columns := ⟨[], none, none, 0⟩

def isSop (u : RxUnit) : Bool := u == .sop
def isMark : RxUnit → Bool
  | .marker _ => true
  | .markK => true
  | _ => false

/-- The errors of a column: units in error, and lanes without SOP where only some carry it (R239, R240, R242). -/
def columnErrs (us : List RxUnit) : List (Nat × Nat) :=
  (List.range us.length).filterMap fun i => match us.getD i .idle with
    | .bad kind _ => some (i, kind)
    | u => if us.any isSop && !isSop u then some (i, 1) else none

/-- One column more (R241, R242). A marker column, in RLA with the 7 columns after it, is no part of the byte stream. -/
def Columns.take (gen : Nat) (c : Columns) (us : List RxUnit) : Columns :=
  let c := { c with errs := c.errs ++ columnErrs us }
  if c.gap ≠ 0 then { c with gap := c.gap - 1 }
  else if us.any isMark then { c with gap := if gen = 1 then 0 else 7 }
  else if us.all isSop && !us.isEmpty then { c with cut := c.cut.or c.bytes, bytes := some [] }
  else { c with bytes := c.bytes.map (· ++ us.flatMap (unitBytes gen)) }

/-! ### What a transmitter sends (R241, R243, R244, R261, R273) -/

/-- The 8 bytes of a marker (R243). -/
def markerBytes (lane lanesM1 gen start seq rate peer : Nat) : List Nat :=
  let b := [0x4B, lane + 4 * lanesM1 + 16 * gen + 32 * start, seq % 256, seq / 256 % 256, rate, peer, 0]
  b ++ [crc8 b]

/-- The columns from one marker to the next: of the start window, and after it (R244). -/
def startSpacing (gen : Nat) : Nat := if gen = 1 then 64 else 512
def markerSpacing (gen : Nat) : Nat := if gen = 1 then 4096 else 32768

/-- The number of the marker column that column c of a stream belongs to, with the place of c in it (0 in RLB, 0 to 7 in
RLA); none for a column between markers. DEDUCED: the stream begins with the first of its 256 start-window markers (R244;
log 85). -/
def markerAt (gen c : Nat) : Option (Nat × Nat) :=
  let a := startSpacing gen
  let (i, k) := if c < 255 * a then (c / a, c % a)
    else (255 + (c - 255 * a) / markerSpacing gen, (c - 255 * a) % markerSpacing gen)
  if k < (if gen = 1 then 1 else 8) then some (i, k) else none

/-- The sync header and payload of a control block and of a data block (R238, R239). -/
def ctlBlock (ty : Nat) : Nat × Nat := (2, ty)
def leBytes (bs : List Nat) : Nat := bs.foldr (fun b a => b + 256 * a) 0

/-- The blocks of a packet on one lane: SOP, then its bytes, the last block filled with 0x00 (R241). -/
def packetBlocks (bs : List Nat) : List (Nat × Nat) :=
  ctlBlock 0x78 :: (List.range ((bs.length + 7) / 8)).map fun b => (1, leBytes ((bs.drop (8 * b)).take 8))

/-- What a transmitter is set to: generation, lane count, RATE and PEER_ID. -/
structure LineCfg where
  gen : Nat
  lanes : Nat
  rate : Nat
  peer : Nat
  deriving DecidableEq, Repr

/-- The marker of column c on a lane: MARKER_SEQ counts the marker columns from 0 (R244, R261). -/
def LineCfg.marker (l : LineCfg) (lane i : Nat) : List Nat :=
  markerBytes lane (l.lanes - 1) l.gen (if i < 256 then 1 else 0) (i % 2 ^ 16) l.rate l.peer

/-- Column c on a lane of an RLB stream that carries IDLE, markers and the data columns of `placed` (R241, R244, R261). -/
def LineCfg.block (l : LineCfg) (placed : List (Nat × Nat × Nat)) (lane c : Nat) : Nat × Nat :=
  match markerAt 1 c with
  | some (i, _) => (2, leBytes (l.marker lane i))
  | none => match placed.find? fun p => p.1 == c with
    | some p => p.2
    | none => ctlBlock 0x1E

/-- Column c on a lane of an RLA stream of IDLE and markers: the character. -/
def LineCfg.char (l : LineCfg) (lane c : Nat) : Bool × Nat :=
  match markerAt 0 c with
  | some (i, k) => if k = 0 then (true, kMARK) else (false, (l.marker lane i).getD k 0)
  | none => (true, kIDLE)

/-- The 58 bits last sent before column c, and the running disparity before it, from the start contents `seed`. -/
def LineCfg.history (l : LineCfg) (placed : List (Nat × Nat × Nat)) (lane seed c : Nat) : Nat :=
  (List.range c).foldl (fun h i => lastBits (scramble h (l.block placed lane i).2)) (seed % 2 ^ 58)
def LineCfg.disparity (l : LineCfg) (lane seed c : Nat) : Bool :=
  (List.range c).foldl (fun pos i => let ch := l.char lane i; (groupOf pos ch.1 ch.2).2) (seed.testBit 0)

/-- The unit of column c on a lane as it is sent, before injection. -/
def LineCfg.unit (l : LineCfg) (placed : List (Nat × Nat × Nat)) (lane seed c : Nat) : Nat :=
  if l.gen = 1 then
    let b := l.block placed lane c
    b.1 + 4 * scramble (l.history placed lane seed c) b.2
  else
    let ch := l.char lane c
    (groupOf (l.disparity lane seed c) ch.1 ch.2).1

/-! ### Test patterns (R258, R260) -/

/-- The degree and the second tap of pattern `sel`. -/
def prbsTaps (sel : Nat) : Nat × Nat := [(7, 6), (9, 5), (15, 14), (23, 18), (31, 28)].getD sel (31, 28)

/-- The bit that follows the bits of `reg`, bit 0 the newest. -/
def prbsNext (sel reg : Nat) : Bool := reg.testBit ((prbsTaps sel).1 - 1) ^^ reg.testBit ((prbsTaps sel).2 - 1)

/-- The register with a bit more. -/
def prbsShift (sel reg : Nat) (b : Bool) : Nat := (2 * reg + b.toNat) % 2 ^ (prbsTaps sel).1

/-- The generator's register after n bits. -/
def prbsAfter (sel reg : Nat) : Nat → Nat
  | 0 => reg
  | n + 1 => let r := prbsAfter sel reg n; prbsShift sel r (prbsNext sel r)

/-- A checker: its register, the received bits that have filled it, the run of correct predictions, whether it is locked,
and the results of the last bits since lock, newest first (R258). -/
structure Checker where
  reg : Nat
  filled : Nat
  run : Nat
  locked : Bool
  window : List Bool
  deriving DecidableEq, Repr

def Checker.init : Checker := ⟨0, 0, 0, false, []⟩

/-- One received bit: the checker, whether it compared the bit while LOCKED, whether that was an error, and whether it lost
its lock. While it seeds, the register holds received bits; while LOCKED, its own predictions. -/
def Checker.bit (sel : Nat) (k : Checker) (b : Bool) : Checker × Bool × Bool × Bool :=
  if k.filled < (prbsTaps sel).1 then ({ k with reg := prbsShift sel k.reg b, filled := k.filled + 1 }, false, false, false)
  else
    let p := prbsNext sel k.reg
    if !k.locked then
      let run := if p == b then k.run + 1 else 0
      ({ k with reg := prbsShift sel k.reg b, run := run, locked := decide (64 ≤ run) }, false, false, false)
    else
      let err := p != b
      let window := (err :: k.window).take 256
      if 32 ≤ (window.filter (·)).length then (Checker.init, true, err, true)
      else ({ k with reg := prbsShift sel k.reg p, window := window }, true, err, false)

/-- What a run of bits does to a checker: the bits compared, the errors among them, and whether lock was lost. -/
structure Checked where
  checker : Checker
  bits : Nat
  errs : Nat
  lost : Bool
  deriving DecidableEq, Repr

def Checker.feed (sel : Nat) (k : Checker) (bs : List Bool) : Checked :=
  bs.foldl (fun a b =>
    let r := a.checker.bit sel b
    ⟨r.1, a.bits + r.2.1.toNat, a.errs + r.2.2.1.toNat, a.lost || r.2.2.2⟩) ⟨k, 0, 0, false⟩

/-! ### The uplink's sequences (R267, R302, R304) -/

/-- The marker-burst request: K28.5 D21.5, 8 times. -/
def burstChars : List (Bool × Nat) := (List.replicate 8 [(true, kIDLE), (false, 0xB5)]).flatten

/-- A trigger packet: K28.7, the type, TRIGGER_ID and the CRC-8 over code groups 1 to 5 (R302). -/
def triggerChars (id : Nat) : List (Bool × Nat) :=
  let b := 0x01 :: (List.range 4).map fun k => bitsOf id (8 * k) 8
  (true, 0xFC) :: (b ++ [crc8 b]).map fun x => (false, x)

/-- A control packet: K27.7, bytes 0 to 3 and the payload, their CRC-16, K29.7 (R304). -/
def controlChars (bs : List Nat) : List (Bool × Nat) :=
  let c := crcCsi bs
  (true, kSOP) :: (bs ++ [c % 256, c / 256 % 256]).map (fun x => (false, x)) ++ [(true, 0xFD)]

/-- The character of IDLE at the k-th code group of an idle uplink: K28.5 D16.2. -/
def idleChar (k : Nat) : Bool × Nat := if k % 2 = 0 then (true, kIDLE) else (false, 0x50)

end Sys2Proof.Machine
end

