-- ==== Sys2Proof/Machine/State.lean ====
section
/-! DEFINITION. The state of the device as plain data: the register file, the memories, the internal state of each block,
the queue of waiting commands, and the state after power-on. -/
namespace Sys2Proof.Machine

/-! ### Registers -/

/-- The type of a register field (R17). `co` is a read-only field computed from other state when it is read; `hw` is
written only while its core is HALTED (spec/02); `nv` is set only by NVWRITE (spec/14). -/
inductive FieldType where
  | rw | ro | wo | w1c | w1s | rc | rwl | sat | co | hw | nv
  deriving DecidableEq, Repr

/-- A field of a register: its number `fid`, its lowest bit, its width, its Reset value (R19), its type, the least and the
greatest value of its stated range (R623), and whether it is marked "kept". -/
structure Field where
  fid : Nat
  lo : Nat
  width : Nat
  reset : Nat
  ty : FieldType
  least : Nat
  greatest : Nat
  kept : Bool
  deriving DecidableEq, Repr

/-- The instances of a register: up to three nested counts with the stride of each, outermost first. -/
structure Dims where
  n1 : Nat
  s1 : Nat
  n2 : Nat
  s2 : Nat
  n3 : Nat
  s3 : Nat
  deriving DecidableEq, Repr

/-- A register: its number, the offset of its first instance, its instances, whether it is a _LO/_HI pair (R14), and its
fields. -/
structure Reg where
  rid : Nat
  off : Nat
  dims : Dims
  pair : Bool
  fields : List Field
  deriving DecidableEq, Repr

/-- The register blocks (R45, R46). -/
inductive Block where
  | glb | kbr | pwr | bcn | mbx | tmb | twn | enc | fcg | trg | fio | prt | rly | pkt | isp | pod | sq | dma | mem | rng
  | hif | keep
  deriving DecidableEq, Repr

/-! ### Sequencer cores (spec/02, spec/03) -/

/-- A request that a core makes of another block: a device-register access or an action (R128, R129). -/
inductive Req where
  | store (addr size val : Nat)
  | load (addr size : Nat)
  | pulse (n start width : Nat)
  | pair (p start width : Nat)
  | trigpkt (port time id : Nat)
  | fire (ch : Nat)
  | mbxsend (m word : Nat) (sync : Bool)
  | mbxrcv (m : Nat)
  | mbxwdr (m : Nat)
  | dmaq (desc : List Nat) (early : Bool)
  | podrun (list run seq : Nat)
  | framearm (stream count : Nat) (tentative : Bool)
  deriving DecidableEq, Repr

/-- Why a core does not issue its next instruction (R81, R92, R117, R129, R141, R145). -/
inductive Stall where
  | none
  | wait (kind idx value : Nat) (deadline : Option Nat) (past : Bool)
  | dsync
  | storeFull (r : Req)
  | answer (r : Req) (rd : Nat)
  | syncSend (m rd : Nat)
  | commit (whole : Bool)
  deriving DecidableEq, Repr

/-- An open run-ahead region (R86): what spec saved (with it the arm count of every stream, which a squash restores where
the region set it, R150), its guard, deadline and squash target, the buffered stores as (program address, bytes) with the
newest first, the EARLY descriptors, pod runs and framearms it issued. -/
structure Region where
  savedV : List Nat
  savedLk : Nat
  savedFlags : Nat
  savedArms : List Nat
  guardEv : Nat
  deadline : Nat
  target : Nat
  stores : List (Nat × Byte)
  storeCount : Nat
  early : List Nat
  runs : List Nat
  arms : List Nat
  deriving DecidableEq, Repr

/-- A recipe that a core runs (R69 to R79): its number, the bytes of its card when it began, whether a stop was asked
(with the TB of the request), whether it still waits to start its frame clock (R72), the frames it has counted, and
the value from which its DETAIL counts (R71). -/
structure Recipe where
  id : Nat
  card : List Nat
  stopAt : Option Nat
  fcgWait : Bool
  frames : Nat
  base : Nat
  deriving DecidableEq, Repr

/-- The state of one core beside its registers. -/
structure SqCore where
  stall : Stall
  region : Option Region
  storeQ : List Req
  stepping : Bool
  loadDue : Option Nat
  rom : Nat
  recipe : Option Recipe
  wakeAsked : Bool
  past : Bool
  deriving DecidableEq, Repr

/-- A core after core reset. -/
def SqCore.init : SqCore := ⟨.none, none, [], false, none, 0, none, false, false⟩

/-! ### Mailboxes (spec/12) -/

/-- The word a mailbox holds and the TB from which its timeout runs (R473, R476). -/
structure Mbx where
  word : Nat
  since : Nat
  deriving DecidableEq, Repr

/-! ### Host output (spec/11) -/

/-- A write the device makes towards the host: bytes to host memory of a function's address space, with the
relaxed-ordering attribute or without it (R439), or an MSI-X message (R440, R446, R448). -/
inductive HostMsg where
  | write (fn addr : Nat) (relaxed : Bool) (bytes : List Byte)
  | msi (fn addr data : Nat)
  deriving DecidableEq, Repr

/-- An MSI-X table entry (R448). -/
structure MsixEntry where
  addr : Nat
  data : Nat
  masked : Bool
  pending : Bool
  deriving DecidableEq, Repr

/-- The PCI configuration of a function that commands change (R443, R448): MSI-X Enable and Function Mask, Completion
Timeout Value, Relaxed Ordering Enable, power state D3hot, which has no effect (log 109). -/
structure PciFn where
  msixEn : Bool
  msixMask : Bool
  ctv : Nat
  roEn : Bool
  d3 : Bool
  deriving DecidableEq, Repr

/-! ### The whole device -/

/-! ### Keeper captures, display and port state (spec/14, spec/16) -/

/-- One bank of a capture source (R28, R538): latched, its ripple counter, the DETAIL of its entry, the TB at which the
latch first set (all ones without D4 TIME), and the instant of the latch, which orders the banks (R539). -/
structure Bank where
  latched : Bool
  count : Nat
  detail : Nat
  tb : Nat
  at' : Nat
  deriving DecidableEq, Repr

def Bank.init : Bank := ⟨false, 0, 0, 0, 0⟩

/-- A capture source: which of its two banks takes events, and the banks. -/
structure Capture where
  active : Nat
  bank0 : Bank
  bank1 : Bank
  deriving DecidableEq, Repr

def Capture.init : Capture := ⟨0, Bank.init, Bank.init⟩

/-- What a keeper port keeps between transactions (R525, R529): the ABANDONED, REFUSED, CRC_ERR and JOURNAL_ERR bits of
the previous transaction, a first KRESET that awaits its second, and the status byte, the data and the bytes of a read-type frame
(data and CRC) that the keeper sent in the last transaction. -/
structure KPort where
  abandoned : Bool
  refused : Bool
  crcErr : Bool
  journalErr : Bool
  kreset : Bool
  status : Nat
  data : Nat
  reply : List Nat
  deriving DecidableEq, Repr

def KPort.init : KPort := ⟨false, false, false, false, false, 0, 0, []⟩

/-- A transaction that the keeper bridge runs, with its work tail still to come, and the instant it started (R532). -/
structure KbrRun where
  opcode : Nat
  addr : Nat
  data : Nat
  tail : Nat
  start : Nat
  deriving DecidableEq, Repr

/-! ### Frames, streams and uplinks (spec/07) -/

/-- A trigger record (R202, R295): the trigger time, its TRIGGER_ID, its condition bits, the FCG it comes from, and whether
its confirmation window is still open. -/
structure TrigRec where
  time : Nat
  id : Nat
  late : Bool
  held : Bool
  unconf : Bool
  fcg : Option Nat
  waiting : Bool
  finalAt : Nat
  deriving DecidableEq, Repr

/-- A trigger packet in a port's queue (R138): its schedule time, its TRIGGER_ID, the FCG that scheduled it (R222), and
whether its time had passed. -/
structure TrigPkt where
  time : Nat
  id : Nat
  fcg : Option Nat
  late : Bool
  deriving DecidableEq, Repr

/-- Where a frame stands (R292, R297). -/
inductive Phase where
  | open | closed | queued | complete
  deriving DecidableEq, Repr

/-- The outcome of a context for a frame, and whether one of its reads was uncorrectable (R346, R402, R423). -/
structure Outcome where
  pipe : Nat
  ctx : Nat
  done : Bool
  ecc : Bool
  deriving DecidableEq, Repr

/-- A frame of a stream, from its FS on (R287 to R299): its numbers and stamps, its tag fields, its geometry, the trigger
record it took, and what later blocks add to it (verdict, whether it is final and whether it rejects the frame, the contexts
that are due for it, and outcomes), and whether it has stopped being held (R406). -/
structure Frame where
  stream : Nat
  seq : Nat
  phase : Phase
  tent : Option Nat
  port : Nat
  vc : Nat
  dt : Nat
  fnum : Nat
  tbFs : Nat
  tbFe : Nat
  nsFs : Nat
  closedAt : Nat
  flags : Nat
  trigId : Nat
  trig : Option TrigRec
  encPos : List Nat
  relayed : Nat
  twin : Bool
  learn : Bool
  learnBad : Bool
  lineBytes : Nat
  width : Nat
  height : Nat
  lines : Nat
  slots : Nat
  stored : Bool
  crcErrs : Nat
  verdict : Nat
  final : Bool
  reject : Bool
  lostLines : List Nat
  lapsed : Bool
  due : List (Nat × Nat)
  outcomes : List Outcome
  deriving DecidableEq, Repr

/-- A frame that a link-down has just closed TRUNCATED (R294): its SEQ, the instant, and what stood before: the
count and the event bit of the stream, and LINE_COUNT_MISMATCH of the frame. -/
structure LinkCut where
  seq : Nat
  at' : Nat
  truncs : Nat
  evt : Bool
  lines : Bool
  deriving DecidableEq, Repr

/-- What a stream keeps beside its registers: the instant of its last FS (R289), a refused or dropped frame that awaits its
FE (R292), whether its lines are discarded without counts, as those of a refused frame are (R287, R291), a hole in its SEQ series (R289), its trigger records (R295), the core whose region set its arm count, a framearm
held meanwhile with the core whose open region it comes from (R150), the copy of its last tag (R300), and the frame that a link-down closed (R294). -/
structure StreamSt where
  lastFs : Option Nat
  skipped : Bool
  silent : Bool
  gap : Bool
  trigQ : List TrigRec
  tentCore : Option Nat
  armHeld : Option (Nat × Option Nat)
  lastTag : List Nat
  lastTagRead : List Nat
  cut : Option LinkCut
  deriving DecidableEq, Repr

def StreamSt.init : StreamSt := ⟨none, false, false, false, [], none, none, [], [], none⟩

/-- A sequence that an uplink sends from its first bit on: the start in ns of TB, and its characters of 8 ns each (R267). -/
structure UlItem where
  start : Nat
  chars : List (Bool × Nat)
  deriving DecidableEq, Repr

/-- What a port's packet layer keeps: its queued trigger packets (R138), the virtual channels whose image type AUTO_MAP has
mapped (R282), its queued camera replies with their CRC results (R306), a trigger packet on the wire (its start, in
ns of TB) (R268), the sequences that the uplink has put on the wire, newest first, and the start of the control packet that
it sends (R267, R305). -/
structure PktPort where
  trigQ : List TrigPkt
  mappedImg : List Nat
  mappedEmb : List Nat
  replies : List (List Nat × Bool)
  onWire : Option Nat
  wire : List UlItem
  ctl : Option Nat
  deriving DecidableEq, Repr

def PktPort.init : PktPort := ⟨[], [], [], [], none, [], none⟩
/-! ### Encoders, pulse outputs and compare units (spec/04) -/

/-- What a channel keeps beside its registers: the points of its speed average, newest first, as (edge time in ps, counts
from an arbitrary origin) (R164, R165); the edge time of its last counted transition; whether the condition of R156 or
R171 holds; the drift reference and whether the direction changed since (R162); the counted transitions since the last
index, with Z active and in all, once an index has been seen (R163); whether a count has set DIR since reset; the end, in ps,
of a holdover window that ended before a later transition or word (R176); and for SSI (R168 to R177) the field of the last valid word, the run of equal
fields, the next grid point, the t0 of the word in progress and the instant its TIMEOUT_US ends. -/
structure Enc where
  pts : List (Nat × Int)
  restart : Bool
  lastPs : Option Nat
  bad : Bool
  idxRef : Option (Int × Bool)
  idxTurned : Bool
  zRun : Option (Nat × Nat)
  moved : Bool
  lostWin : Option Nat
  ssiField : Option Nat
  ssiSame : Nat
  ssiGrid : Nat
  ssiT0 : Option Nat
  ssiWait : Option Nat
  deriving DecidableEq, Repr

def Enc.init : Enc := ⟨[], false, none, false, none, false, none, false, none, none, 0, 0, none, none⟩

/-- A position update that a compare unit still tests (R191): the positions before and after, its pin time in ns of TB, and
its matches so far. -/
structure CmpUpd where
  p : Int
  q : Int
  tb : Nat
  matched : Nat
  deriving DecidableEq, Repr

/-- A pulse output's pins: the quadrature state 0 to 3, the step and direction levels, and the instant before which no
further change may come (R183). -/
structure Po where
  phase : Nat
  step : Bool
  dir : Bool
  next : Nat
  deriving DecidableEq, Repr

def Po.init : Po := ⟨0, false, false, 0⟩
/-! ### Trigger outputs (spec/05) -/

/-- A held pulse: start, end (for a pair: S and S + W), and the FCG trigger that scheduled it, when one did (R222, R229). -/
structure Pulse where
  start : Nat
  stop : Nat
  src : Option (Nat × Nat)
  deriving DecidableEq, Repr

/-- An output, or the primary of a pair: the held pulses in order, the pulse whose edges are under way, and for a pair
the number of its edges that are done. -/
structure TrgOut where
  held : List Pulse
  cur : Option Pulse
  stage : Nat
  deriving DecidableEq, Repr

def TrgOut.init : TrgOut := ⟨[], none, 0⟩

/-! ### Timebase and frame clocks (spec/05) -/

/-- A confirmation window (R213): its trigger's identity, its crossing, its bounds. -/
structure Window where
  id : Nat
  crossing : Nat
  lo : Nat
  hi : Nat
  deriving DecidableEq, Repr

/-- A committed trigger whose time has not come: T, TRIGGER_ID (R201, R222). -/
structure Committed where
  time : Nat
  id : Nat
  deriving DecidableEq, Repr

/-- The state of a frame clock generator beside its registers. Rates are in 2^-16 frames/s, the phase in 2^-32 frame; `phi` is
the phase at `phiTb`, `updTb` the TB multiple of the last update (R208); `holdTime` the HOLD_TIME in effect, `holdUsed` what of
it had run at `holdSince` (R218, R219, R223), both in ns. -/
structure Fcg where
  f : Nat
  sp : Nat
  phi : Int
  phiTb : Nat
  updTb : Nat
  nextK : Int
  skipK : Option Int
  nextT : Nat
  lastT : Option Nat
  committed : List Committed
  windows : List Window
  confRun : Nat
  unconfRun : Nat
  anchorDue : Bool
  relock : Bool
  fromStopped : Bool
  holdTime : Nat
  holdUsed : Nat
  holdSince : Nat
  deriving DecidableEq, Repr

def Fcg.init : Fcg := ⟨0, 0, 0, 0, 0, 0, none, 0, none, [], [], 0, 0, false, false, false, 0, 0, 0⟩
/-! ### Ports and relays (spec/06) -/

/-- What stood before a HOLD or DEEP entry, and its instant: a wake of the same cycle restores it (R266). -/
structure Entered where
  at' : Nat
  state : Nat
  evt : Nat
  up : Nat
  locks : Nat
  mult : Bool
  centred : Bool
  swept : Bool
  deskewed : Bool
  deriving DecidableEq, Repr

/-- A line that the device sends by itself: relay 0 to 3, the uplink of port n at 4 + n, the twin link at 12. The instant of
its first bit; the start contents of its scrambler, running disparity or pattern generator (a free value); the bits that
injection inverted, as (lane, bit number) (R260); the columns that carry twin packets, as (column, sync header, payload)
(R241, R495); and the bits that a relay forwarded, as (lane, unit), newest first (R270). -/
structure TxLine where
  start : Nat
  seed : Nat
  flips : List (Nat × Nat)
  placed : List (Nat × Nat × Nat)
  fwd : List (Nat × Nat)
  deriving DecidableEq, Repr

def TxLine.init : TxLine := ⟨0, 0, [], [], []⟩

/-- What a port (0 to 7) or the twin receive lane (8) keeps beside its registers: t0 of its bring-up or the start of its
re-acquisition, whether its clock multiplier holds lock, whether the FCK measurement passed, the CTLE sweep ended and the
phase is centred, the marker columns in agreement with the last MARKER_SEQ, whether the lanes are deskewed, whether the
last marker fields match, the logical lanes that lacked a marker in the last column (bit i lane i), whether the columns show a loss of deskew, an
entry that waits (0 HOLD, 1 DEEP), and an exit that runs (0 HOLD, 1 DEEP), with the instant it started; the lanes whose FOM has
been measured (R257), the lane lock of the twin's lane, the PRBS checkers of the physical lanes (R258), the last entry to HOLD
or DEEP and the instant of the last wake (R266). -/
structure Prt where
  t0 : Nat
  mult : Bool
  freqOk : Bool
  centred : Bool
  swept : Bool
  agree : Nat
  seq : Option Nat
  deskewed : Bool
  markerOk : Bool
  missing : Nat
  skewLost : Bool
  entry : Option Nat
  exit : Option Nat
  exitAt : Nat
  measured : Nat
  twinLock : Bool
  checkers : List (Nat × Checker)
  entered : Option Entered
  wokeAt : Option Nat
  deriving DecidableEq, Repr
def Prt.init : Prt := ⟨0, false, false, false, false, 0, none, false, false, 0, false, none, none, 0, 0, false, [], none, none⟩
/-! ### Image pipelines (spec/08) -/

/-- A frame that a context of a pipeline processes or is to process: the context, the SEQ and the stream and TB_FS of its
exposure 0, what takes the place of SEQ in the output slot rule (R316, R332), its exposures as (stream, SEQ), whether it is
a manual job (R349) or runs in-line (R340), whether it waits for exposures and the instant exposure 0 closed (R317), whether
its first unit has started, its next stripe, whether it stops at the next unit boundary (R348), whether its region overwrote
it (R349), and the registers latched at its start (R345). -/
structure IspJob where
  ctx : Nat
  stream : Nat
  seq : Nat
  tb : Nat
  index : Nat
  exps : List (Nat × Nat)
  manual : Bool
  inl : Bool
  gather : Bool
  since : Nat
  started : Bool
  next : Nat
  stop : Bool
  ovr : Bool
  ecc : Bool
  snap : List (Nat × Nat)
  deriving DecidableEq, Repr

/-- A pipeline beside its registers: its jobs in order of arrival, the context whose unit runs, the context last served
(R343), the bytes in the in-line input buffer when a line last entered it (R340), the last statistics record and the copy
that a read of its first word captured (R337, R338). -/
structure Isp where
  jobs : List IspJob
  unit : Option Nat
  last : Nat
  inBuf : Nat
  lastStat : List Nat
  lastRead : List Nat
  deriving DecidableEq, Repr

def Isp.init : Isp := ⟨[], none, 63, 0, [], []⟩

/-! ### Pods and triage gates (spec/09) -/

/-- A tensor in the pods' band areas (R371): its address, the axis it is split on, its height, width, channel blocks and
bytes. -/
structure LocalTensor where
  addr : Nat
  axis : Nat
  h : Nat
  w : Nat
  blocks : Nat
  bytes : List Nat
  deriving DecidableEq, Repr

/-- A run (R147, R379): its ID, list, pod mask, input code, stream, SEQ (none: the next frame that opens), master, the core
whose open region issued it, whether it has begun, the index of its record, the record and its
LAYER_ID, the LAYOUT of the previous layer, its LOCAL tensor, the verdict of its VERDICT layer, the tensors it wrote as
(space, address, bytes), and the code of an end that its region holds back. -/
structure PodRun where
  id : Nat
  list : Nat
  mask : Nat
  input : Nat
  stream : Nat
  seq : Option Nat
  mid : Nat
  region : Option Nat
  begun : Bool
  layer : Nat
  record : List Nat
  layerId : Nat
  layout : Option Bool
  loc : Option LocalTensor
  verdict : Option Nat
  wrote : List (Nat × Nat × Nat)
  ended : Option Nat
  deriving DecidableEq, Repr

/-- A frame that a gate tracks (R385): its stream, SEQ, TB_FE, and its own verdict: 2 a network reject, 5 a deadline
reject that is not final yet. -/
structure Tracked where
  stream : Nat
  seq : Nat
  tbFe : Nat
  own : Option Nat
  deriving DecidableEq, Repr

/-! ### DMA (spec/10) -/

/-- How a descriptor ended before its completion: GONE, ABORTED, NO_OUTPUT, SHORT_BUFFER (R422), under a reject (R389), or
squashed with its region (R94). -/
inductive DescEnd where
  | gone | aborted | noOutput | short | rejected | squashed
  deriving DecidableEq, Repr

/-- A record of a CMPL ring (R458): bytes of a COPY record, or of a frame's tag, made when it is written, of the stream, SEQ, channel,
LATE_NS limit (0 none), whether a read was uncorrectable, and whether it is a void record. -/
inductive Rec where
  | bytes (bs : List Nat)
  | tag (stream seq chan late : Nat) (ecc void : Bool)
  deriving DecidableEq, Repr

/-- A descriptor in flight (R410): its ID, master, 64 bytes, the core whose open region queued it (R95), the stream whose
delivery built it (R430), the SEQ it names once that is known (R412), whether it has started and whether its bytes are all
moved, its next row and unit, the bytes moved, the bytes written, whether one of its reads was uncorrectable (R423), the buffer
of the FRAME entry it took, whether the slot it reads is being rewritten (R421), and how it ended. -/
structure Desc where
  id : Nat
  mid : Nat
  bytes : List Nat
  region : Option Nat
  sdlv : Option Nat
  seq : Option Nat
  started : Bool
  moved : Bool
  row : Nat
  unit : Nat
  count : Nat
  wrote : Nat
  ecc : Bool
  buf : Option Nat
  rewritten : Bool
  ended : Option DescEnd
  deriving DecidableEq, Repr

/-- What a channel keeps: whether it is paused and whether it drains (R428). -/
structure DmaCh where
  paused : Bool
  draining : Bool
  deriving DecidableEq, Repr

def DmaCh.init : DmaCh := ⟨false, false⟩

/-! ### Rings (spec/11) -/

/-- What the ring engine keeps of a ring beside its context: the host-produced entries it has fetched, from HEAD on (R453);
the entries since the last notice and the instant of the first (R463); the EVT records dropped since the last one written
and the next RECNO (R462); whether an index write-back is due (R454); the statistics records that wait for the fetch of a
posted entry (R461); the instants at which the level last crossed the high and the low buoy (R465; log 101). -/
structure Ring where
  fetched : List (List Nat)
  count : Nat
  since : Option Nat
  lost : Nat
  recno : Nat
  wb : Bool
  stats : List (List Nat)
  hiAt : Option Nat
  loAt : Option Nat
  deriving DecidableEq, Repr

def Ring.init : Ring := ⟨[], 0, none, 0, 0, false, [], none, none⟩

/-! ### Twin (spec/13) -/

/-- A handover (R518): T_H, whether this device is the one that yields, whether the acknowledgement came, and whether it
follows a pairing of two driving devices (R501). -/
structure Handover where
  time : Nat
  yields : Bool
  acked : Bool
  pairing : Bool
  deriving DecidableEq, Repr

/-- What the twin logic keeps of a frame clock generator (R506, R507): a watch FCG that awaits its FCGSTATE packet, an
FCGSTATE packet that the lead owes at its next commit, this device's last commits and the TRIG packets that no commit has
met yet, as (TRIGGER_ID, T). -/
structure TwnFcg where
  await : Bool
  owed : Bool
  own : List (Nat × Nat)
  lead : List (Nat × Nat)
  deriving DecidableEq, Repr

def TwnFcg.init : TwnFcg := ⟨false, false, [], []⟩

/-- What the follower of a stream keeps (R505): whether frames may open (0 yes; 1 none until an FS packet; 2 none until an
FS packet with a SEQ at or above the counter), and FS packets that no frame has matched yet, as (SEQ, TB_FS). -/
structure TwnStream where
  wait : Nat
  fs : List (Nat × Nat)
  deriving DecidableEq, Repr

def TwnStream.init : TwnStream := ⟨0, []⟩

/-- What the twin block keeps beside its registers: the packets that wait to be sent, as (TYPE, payload), in order; the
packets sent, newest first; whether a HELLO waits for the image hash (R500); the STATE that the last HELLO sent carried
and the payload of the last HELLO received (R501); whether the first TBSYNC exchange has loaded TB and how many in a row
were within 2 ns (R504); the instant SEARCH began (R502); the next foghorn multiple to be judged, the run of misses, the
NOMINAL of the last valid foghorn (R509); the STATE the twin's last foghorn carried; the TB at which the first line miss
after the gap's start began and the TB of the confirmed failure (R512); a handover; the NOMINAL of the last
foghorn sent (R508) and the instant of the last TBSYNC request (R503). -/
structure Twn where
  txq : List (Nat × List Nat)
  sent : List (List Nat)
  helloWait : Bool
  ownState : Option Nat
  peer : Option (List Nat)
  loaded : Bool
  aligned : Nat
  searchAt : Nat
  fogNext : Option Nat
  missRun : Nat
  lastFog : Option Nat
  peerState : Nat
  missAt : Option Nat
  confirmed : Option Nat
  handover : Option Handover
  fogTx : Nat
  syncAt : Nat
  deriving DecidableEq, Repr

def Twn.init : Twn := ⟨[], [], false, none, none, false, 0, 0, none, 0, none, 0, none, none, none, 0, 0⟩


/-- The state of the device. -/
structure State where
  /-- The commands that wait, first in, first out (the model's queue). -/
  pending : List Instr
  /-- The register file: field number + 1024 × instance ↦ value. -/
  regs : List (Nat × Nat)
  /-- Halves captured by a read of a _LO register (R14), by register key. -/
  hiHeld : List (Nat × Nat)
  /-- The timebase in ns (R193). -/
  tb : Nat
  /-- Nanoseconds since power-on: the model's own clock for durations (log 2). -/
  ns : Nat
  /-- The index of the next free value (log 3); the model's own. -/
  freeCtr : Nat
  /-- Beacon events between their channel and their consumer, oldest first: channel, consumer, and whether software fired it
  (R483, R486, R490). -/
  beacons : List (Nat × Nat × Bool)
  /-- Consumers busy with an earlier event beyond their own register bits (R488). -/
  bcnBusy : List (Nat × Bool)
  mbx : List (Nat × Mbx)
  cores : List (Nat × SqCore)
  /-- Program memory of core c at c × 0x8000 (R59): a written byte plus one; a byte not written since the core's last recipe
  start holds what the recipe ROM left there, and reads zero where there was none (log 5, 44). -/
  prog : List (Nat × Nat)
  /-- Data memory of core c at c × 0x2000 (R61). -/
  data : List Host.Cell
  /-- Shared sequencer memory (R61). -/
  shared : List Host.Cell
  /-- The instant at which the hash engine finishes, when it runs (R99). -/
  hashDue : Option Nat
  /-- Program memory changed while the hash ran (R99). -/
  hashDirty : Bool
  msix : List (Nat × MsixEntry)
  pci : List (Nat × PciFn)
  /-- PCI NumVFs and VF Enable (R443). -/
  numVfs : Nat
  vfEnable : Bool
  /-- The level of the pin PERST#: asserted (R567, R575). -/
  perst : Bool
  /-- Messages sent to the host, in order, each whole (log 112). -/
  sent : List HostMsg
  /-- Host-bound writes held while the link is down, in order (R437). -/
  held : List HostMsg
  /-- The keeper has left its power-on reset and accepts transactions (R562). -/
  keeperReady : Bool
  captures : List (Nat × Capture)
  /-- A bank whose commit was abandoned, committed first at a later POLL (R540). -/
  abandonedBank : Option (Nat × Nat)
  /-- The KEEP_IRQ latch (R488, R541). -/
  keepIrq : Bool
  /-- Keeper ports: 0 external, 1 bridge (R525). -/
  kports : List (Nat × KPort)
  kbrRun : Option KbrRun
  /-- The journal (R544). -/
  journal : List Host.Cell
  /-- 64-bit journal words whose error code finds two bits in error (R545). -/
  badWords : List (Nat × Bool)
  /-- Fault-log entries written since the log was last empty, up to 4,096 (R543). -/
  logUsed : Nat
  /-- The drive of each display output while a step holds: 0 at 0 V, 1 light, 2 dark (R556, R557). -/
  segDrive : List (Nat × Nat)
  /-- The domains that the power sequencer is switching, with the instant each began (R547). -/
  pwrRun : List (Nat × Nat)
  /-- The domains woken in this nanosecond, as a mask (R549). -/
  wokeNow : Nat
  /-- A display update runs: its INTENT was accepted, its COMMIT was not, and the keeper lost no power since (R555, R558). -/
  dispActive : Bool
  /-- The display outputs that a LIMIT holds at 0 V (R610). -/
  segLimited : List Nat
  /-- The channels that FIO_DARK named in this nanosecond, as a mask, and the instants at which re-arm tests began (R609). -/
  darkNow : Nat
  armAt : List (Nat × Nat)
  /-- The sensors at or above WARN, and at or above TRIP − HYST (R552, R553). -/
  hotMask : Nat
  nearTripMask : Nat
  /-- Every frame since its FS, newest first. -/
  frames : List Frame
  streams : List (Nat × StreamSt)
  pktPorts : List (Nat × PktPort)
  /-- The device tag queue: (stream, SEQ), in order of entry (R297). -/
  tagQ : List (Nat × Nat)
  /-- The instant from which the tag queue may release its next tag (R297). -/
  tagNext : Nat
  enc : List (Nat × Enc)
  po : List (Nat × Po)
  /-- The compare list memory: 262,144 entries of 8 bytes, by entry (R185). -/
  cmpList : List (Nat × Nat)
  /-- The list entry whose low half is held, with that half (R185). -/
  cmpHeld : Option (Nat × Nat)
  /-- The entry a unit made current, as it stood then (R192). -/
  cmpCur : List (Nat × Nat)
  /-- The updates that a unit tests, one crossed entry a tick, oldest first (R191). -/
  cmpUpd : List (Nat × List CmpUpd)
  trg : List (Nat × TrgOut)
  /-- The instant at which the pin of an output that this device does not drive was last sensed (R233; log 82). -/
  pinAt : List (Nat × Nat)
  fcg : List (Nat × Fcg)
  /-- The low half of FCG_PERIOD that awaits its high half (R206). -/
  periodHeld : List (Nat × Nat)
  /-- The correction of R195 still outstanding, in ns. -/
  slew : Int
  /-- The instant from which the next correction tick may come (R195). -/
  slewNext : Nat
  /-- Consecutive PPS edges with a small phase error (R196), and the instant of the last PPS edge. -/
  ppsGood : Nat
  ppsLast : Nat
  prt : List (Nat × Prt)
  /-- The lines that the device sends by itself (R244, R260, R267, R270, R273). -/
  lines : List (Nat × TxLine)
  isp : List (Nat × Isp)
  /-- The tables of pipeline p at p × 0x100000 + their window offset: LUT slots, shading slots, the defect map (R352's
  layout); a byte that nothing has written reads zero (log 5). -/
  ispMem : List Host.Cell
  /-- The master that last set EN of context c of pipeline p, at 64 p + c (R351). -/
  ispMid : List (Nat × Nat)
  /-- Runs that have not ended, in order of submission. -/
  podRuns : List PodRun
  podNextId : Nat
  /-- How often each memory has lost its contents, by the numbers of `memBack` (R350, R395, R580; log 91). -/
  memLost : List (Nat × Nat)
  /-- The pods' local SRAM, pod k at k × 2 MiB: a written byte plus one; 0 where nothing has written it. -/
  lsram : List (Nat × Nat)
  /-- Pods whose local SRAM a run has used: what the host did not write since is undefined. -/
  lsramUsed : List (Nat × Bool)
  /-- Frames that the gates track, in order of their tags. -/
  tracked : List Tracked
  /-- Own verdicts of frames whose tags have not completed: (stream, SEQ, 1 keep, 2 reject, 5 deadline outcome). -/
  preVerdicts : List (Nat × Nat × Nat)
  /-- Keep windows: (stream, first SEQ, last SEQ) (R386). -/
  keepWins : List (Nat × Nat × Nat)
  /-- The master that last set EN of the gate of a stream (R355). -/
  gateMid : List (Nat × Nat)
  /-- The LP5X array, by byte address (R399); a byte that nothing has written reads zero (log 5). -/
  lp5x : List Host.Cell
  /-- The shared pod memory (SPM), 8 MiB, by byte address. -/
  spm : List Host.Cell
  /-- Bytes in the store buffer when a line last entered it (R403). -/
  storeBuf : Nat
  /-- POST as the burst logic of a stream took it at its end event, plus one (R407). -/
  burstPost : List (Nat × Nat)
  /-- The descriptors in flight, in order of acceptance. -/
  descs : List Desc
  dmaNextId : Nat
  dmaCh : List (Nat × DmaCh)
  /-- The channel whose turn it is on each priority level, and the bursts it has moved in its turn (R427). -/
  dmaTurn : List (Nat × Nat × Nat)
  /-- Frames of stream deliveries that wait for an entry: (stream, SEQ) (R431). -/
  sdlvQ : List (Nat × Nat)
  /-- Streams whose READOUT has taken its frames (R432). -/
  sdlvRead : List (Nat × Bool)
  rings : List (Nat × Ring)
  /-- The record queue: records that wait for a full CMPL ring, in order (R459). -/
  recQ : List (Nat × Rec)
  twn : Twn
  twnFcg : List (Nat × TwnFcg)
  twnStreams : List (Nat × TwnStream)
  /-- The A-die is held in its power-on or cold reset (R561 to R565). -/
  aDieReset : Bool
  /-- The lane reference stopped: the data plane stands until a warm reset (R32). -/
  laneStopped : Bool
  /-- The A-die has been released, and performs the cold-reset actions (R563, R564). -/
  aDieReleased : Bool
  /-- Dark outputs that a cause holds at high-impedance (R605). -/
  hiZ : List (Nat × Bool)
  deriving DecidableEq, Repr

/-- The reasons a command ends in a fault. -/
inductive Fault where
  /-- The command names a unit (channel, port, stream, ring, core ...) that the device does not have. Raised by every
  meaning whose unit number is out of range; safe: the machine stops where no device exists to act. -/
  | noSuchUnit
  deriving DecidableEq, Repr

/-- The reasons a command is refused. -/
inductive Refusal where
  /-- The command has no meaning in the model yet. Raised by the arms of `exec` alone; safe. -/
  | notModelled (mnemonic : String)
  deriving DecidableEq, Repr

/-- An MSI-X entry as PCI Express leaves it at reset: masked (log 8). -/
def MsixEntry.init : MsixEntry := ⟨0, 0, true, false⟩

/-- The configuration of a function at reset (log 8). -/
def PciFn.init : PciFn := ⟨false, false, 0, true, false⟩


/-- The registers at power-on that stand apart from their Reset value: every TRG output is dark with DARK_CAUSE = RESET
(R565, R605); 396 and 397 are the field numbers of FIO_CH_STAT.DARK and DARK_CAUSE, channel 12 + n is TRGn. -/
def resetRegs : List (Nat × Nat) :=
  (List.range 16).flatMap fun n => [(396 + 1024 * (12 + n), 1), (397 + 1024 * (12 + n), 6)]

/-- The device when VKEEP first enters its range: every register at its Reset value, the outputs dark, nothing powered but the domains that
are always on, every memory and queue empty (R561, R562; log 4 and 5 for what the specification leaves open). -/
def State.reset : State where
  pending := []
  regs := resetRegs
  hiHeld := []
  tb := 0
  ns := 0
  freeCtr := 0
  beacons := []
  bcnBusy := []
  mbx := []
  cores := []
  prog := []
  data := []
  shared := []
  hashDue := none
  hashDirty := false
  msix := []
  pci := []
  numVfs := 0
  vfEnable := false
  perst := true
  sent := []
  held := []
  keeperReady := false
  captures := []
  abandonedBank := none
  keepIrq := false
  kports := []
  kbrRun := none
  journal := []
  badWords := []
  logUsed := 0
  segDrive := []
  pwrRun := []
  wokeNow := 0
  dispActive := false
  segLimited := []
  darkNow := 0
  armAt := []
  hotMask := 0
  nearTripMask := 0
  frames := []
  streams := []
  pktPorts := []
  tagQ := []
  tagNext := 0
  enc := []
  po := []
  cmpList := []
  cmpHeld := none
  cmpCur := []
  cmpUpd := []
  trg := []
  pinAt := []
  fcg := []
  periodHeld := []
  slew := 0
  slewNext := 0
  ppsGood := 0
  ppsLast := 0
  prt := []
  lines := []
  isp := []
  ispMem := []
  ispMid := []
  podRuns := []
  podNextId := 0
  lsram := []
  lsramUsed := []
  memLost := []
  tracked := []
  preVerdicts := []
  keepWins := []
  gateMid := []
  lp5x := []
  spm := []
  storeBuf := 0
  burstPost := []
  descs := []
  dmaNextId := 0
  dmaCh := []
  dmaTurn := []
  sdlvQ := []
  sdlvRead := []
  rings := []
  recQ := []
  twn := Twn.init
  twnFcg := []
  twnStreams := []
  aDieReset := true
  laneStopped := false
  aDieReleased := false
  hiZ := []

end Sys2Proof.Machine
end

