-- ==== Sys2Proof/Machine/Regs.lean ====
section
/-! DEFINITION. The registers of the device, from the register tables of the specification: every field with its place,
width, type, Reset value and stated range, and every register with its offset. BAR 0 registers carry their BAR 0 offset,
keeper registers their keeper address. -/
namespace Sys2Proof.Machine

namespace F

def GLB_ID_DEVICE : Field := ⟨0, 16, 16, 2400, .ro, 0, 65535, false⟩
def GLB_ID_STEPPING : Field := ⟨1, 8, 8, 176, .ro, 0, 255, false⟩
def GLB_CAP_PORTS : Field := ⟨2, 0, 4, 8, .ro, 0, 15, false⟩
def GLB_CAP_PODS : Field := ⟨3, 4, 4, 8, .ro, 0, 15, false⟩
def GLB_CAP_SQ_CORES : Field := ⟨4, 8, 4, 8, .ro, 0, 15, false⟩
def GLB_CAP_ISPS : Field := ⟨5, 12, 4, 2, .ro, 0, 15, false⟩
def GLB_CAP_MEM_GIB : Field := ⟨6, 16, 8, 0, .ro, 0, 255, false⟩
def GLB_UID_UID : Field := ⟨7, 0, 64, 0, .ro, 0, 18446744073709551615, true⟩
def GLB_SCRATCH_VALUE : Field := ⟨8, 0, 32, 0, .rw, 0, 4294967295, false⟩
def GLB_STATUS_D2D_UP : Field := ⟨9, 0, 1, 0, .ro, 0, 1, false⟩
def GLB_STATUS_KEEPER_BUSY : Field := ⟨10, 1, 1, 0, .ro, 0, 1, false⟩
def GLB_STATUS_LIFECYCLE : Field := ⟨11, 2, 1, 0, .ro, 0, 1, true⟩
def GLB_STATUS_TWIN_RANK : Field := ⟨12, 3, 1, 0, .ro, 0, 1, true⟩
def GLB_STATUS_REF_LANE_OK : Field := ⟨13, 8, 1, 0, .ro, 0, 1, false⟩
def GLB_STATUS_REF_PCIE_OK : Field := ⟨14, 9, 1, 0, .ro, 0, 1, false⟩
def GLB_STATUS_TIMEREF_OK : Field := ⟨15, 10, 1, 0, .ro, 0, 1, false⟩
def GLB_STATUS_PPS_OK : Field := ⟨16, 11, 1, 0, .ro, 0, 1, false⟩
def GLB_D2D_DLY_TRG_PS : Field := ⟨17, 0, 16, 0, .ro, 0, 65535, true⟩
def GLB_D2D_ERR_RETRIES : Field := ⟨18, 0, 16, 0, .sat, 0, 65535, false⟩
def GLB_D2D_ERR_DOWN_EVENTS : Field := ⟨19, 16, 16, 0, .sat, 0, 65535, false⟩
def GLB_IRQ_SUM_SUM : Field := ⟨20, 0, 29, 0, .co, 0, 536870911, false⟩
def GLB_SEC_ERR_MID : Field := ⟨21, 0, 5, 31, .ro, 0, 31, false⟩
def GLB_SEC_ERR_VALID : Field := ⟨22, 8, 1, 0, .w1c, 0, 1, false⟩
def GLB_SEC_ERR_COUNT : Field := ⟨23, 16, 16, 0, .sat, 0, 65535, false⟩
def GLB_SEC_ADDR_OFFSET : Field := ⟨24, 0, 26, 0, .ro, 0, 67108863, false⟩
def GLB_SEC_ADDR_IS_INDEX : Field := ⟨25, 31, 1, 0, .ro, 0, 1, false⟩
def GLB_EVT_EVT : Field := ⟨26, 0, 6, 0, .w1c, 0, 63, false⟩
def GLB_EVT_EN_EN : Field := ⟨27, 0, 6, 0, .rw, 0, 63, false⟩
def GLB_RST_CTL_WARM : Field := ⟨28, 0, 1, 0, .wo, 0, 1, false⟩
def GLB_RST_CTL_COLD : Field := ⟨29, 1, 1, 0, .wo, 0, 1, false⟩
def GLB_RST_CTL_KEY : Field := ⟨30, 16, 16, 0, .wo, 0, 65535, false⟩
def GLB_BLK_RST_BLOCK : Field := ⟨31, 0, 29, 0, .wo, 0, 536870911, false⟩
def GLB_RST_STATUS_BLK_BUSY : Field := ⟨32, 0, 29, 0, .ro, 0, 536870911, false⟩
def GLB_RST_STATUS_WARM_BUSY : Field := ⟨33, 29, 1, 0, .ro, 0, 1, false⟩
def GLB_RST_STATUS_KEY_ERR : Field := ⟨34, 30, 1, 0, .w1c, 0, 1, false⟩
def GLB_RST_STATUS_REFUSED : Field := ⟨35, 31, 1, 0, .w1c, 0, 1, false⟩
def GLB_RST_CAUSE_CAUSE : Field := ⟨36, 0, 4, 0, .ro, 0, 15, true⟩
def GLB_RST_CAUSE_WARM_COUNT : Field := ⟨37, 16, 16, 0, .sat, 0, 65535, true⟩
def KBR_CMD_OPCODE : Field := ⟨38, 0, 8, 1, .rw, 0, 255, false⟩
def KBR_CMD_GO : Field := ⟨39, 8, 1, 0, .wo, 0, 1, false⟩
def KBR_CMD_ADDR : Field := ⟨40, 16, 16, 0, .rw, 0, 65535, false⟩
def KBR_WDATA_DATA : Field := ⟨41, 0, 32, 0, .rw, 0, 4294967295, false⟩
def KBR_TAIL_CLOCKS : Field := ⟨42, 0, 16, 0, .rw, 0, 65535, false⟩
def KBR_STATUS_BUSY : Field := ⟨43, 0, 1, 0, .ro, 0, 1, false⟩
def KBR_STATUS_DONE : Field := ⟨44, 1, 1, 0, .w1c, 0, 1, false⟩
def KBR_STATUS_ABANDONED : Field := ⟨45, 2, 1, 0, .w1c, 0, 1, false⟩
def KBR_STATUS_RCRC_ERR : Field := ⟨46, 3, 1, 0, .w1c, 0, 1, false⟩
def KBR_STATUS_CFG_ERR : Field := ⟨47, 4, 1, 0, .w1c, 0, 1, false⟩
def KBR_STATUS_TAIL_KMISO : Field := ⟨48, 5, 1, 0, .ro, 0, 1, false⟩
def KBR_STATUS_KSTAT : Field := ⟨49, 8, 8, 0, .ro, 0, 255, false⟩
def KBR_RDATA_DATA : Field := ⟨50, 0, 32, 0, .ro, 0, 4294967295, false⟩
def KBR_IRQ_EN_EN : Field := ⟨51, 1, 4, 0, .rw, 0, 15, false⟩
def KBR_ABANDONS_COUNT : Field := ⟨52, 0, 32, 0, .sat, 0, 4294967295, false⟩
def PWR_STATE_DOMAINS : Field := ⟨53, 0, 24, 0, .co, 0, 16777215, false⟩
def PWR_EFFECTIVE_DOMAINS : Field := ⟨54, 0, 24, 0, .co, 0, 16777215, false⟩
def PWR_PROFILE_DOMAINS : Field := ⟨55, 0, 24, 0, .co, 0, 16777215, false⟩
def PWR_REQ_DOMAINS : Field := ⟨56, 0, 24, 0, .co, 0, 16777215, false⟩
def PWR_WAKE_HELD_DOMAINS : Field := ⟨57, 0, 24, 0, .w1c, 0, 16777215, false⟩
def PWR_FAIL_DOMAINS : Field := ⟨58, 0, 24, 0, .co, 0, 16777215, false⟩
def PWR_EVT_EVT : Field := ⟨59, 0, 4, 0, .w1c, 0, 15, false⟩
def PWR_EVT_EN_EN : Field := ⟨60, 0, 4, 0, .rw, 0, 15, false⟩
def BCN_CH_CFG_EN : Field := ⟨61, 0, 1, 0, .rw, 0, 1, false⟩
def BCN_CH_CFG_CONSUMER : Field := ⟨62, 1, 7, 0, .rw, 0, 95, false⟩
def BCN_CH_CFG_OWNER : Field := ⟨63, 8, 5, 31, .rwl, 0, 31, false⟩
def BCN_CH_CFG_ATTR : Field := ⟨64, 13, 1, 0, .rwl, 0, 1, false⟩
def BCN_CH_CFG_FIRE_OWNER_ONLY : Field := ⟨65, 14, 1, 0, .rw, 0, 1, false⟩
def BCN_EN_EN : Field := ⟨66, 0, 32, 0, .rw, 0, 4294967295, false⟩
def BCN_WAKE_DOMAINS : Field := ⟨67, 0, 24, 0, .rw, 0, 16777215, false⟩
def BCN_FIRES_COUNT : Field := ⟨68, 0, 32, 0, .sat, 0, 4294967295, false⟩
def BCN_LAST_TB_VALUE : Field := ⟨69, 0, 64, 0, .ro, 0, 18446744073709551615, false⟩
def BCN_FIRE_CH : Field := ⟨70, 0, 48, 0, .w1s, 0, 281474976710655, false⟩
def BCN_FIRED_CH : Field := ⟨71, 0, 48, 0, .w1c, 0, 281474976710655, false⟩
def BCN_OVR_CONSUMER : Field := ⟨72, 0, 32, 0, .w1c, 0, 4294967295, false⟩
def BCN_EVT_EVT : Field := ⟨73, 0, 3, 0, .w1c, 0, 7, false⟩
def BCN_EVT_EN_EN : Field := ⟨74, 0, 3, 0, .rw, 0, 7, false⟩
def BCN_FIRE_REFUSED_COUNT : Field := ⟨75, 0, 32, 0, .sat, 0, 4294967295, false⟩
def BCN_CFG_REFUSED_COUNT : Field := ⟨76, 0, 32, 0, .sat, 0, 4294967295, false⟩
def BCN_CMD_CLR_COUNTS : Field := ⟨77, 0, 1, 0, .wo, 0, 1, false⟩
def MBX_BIND_SENDER : Field := ⟨78, 0, 5, 31, .rwl, 0, 31, false⟩
def MBX_BIND_RECEIVER : Field := ⟨79, 8, 5, 31, .rwl, 0, 31, false⟩
def MBX_BIND_ATTR : Field := ⟨80, 16, 1, 0, .rwl, 0, 1, false⟩
def MBX_TMO_US : Field := ⟨81, 0, 20, 1000, .rw, 1, 1000000, false⟩
def MBX_DATA_WORD : Field := ⟨82, 0, 32, 0, .rw, 0, 4294967295, false⟩
def MBX_PEEK_WORD : Field := ⟨83, 0, 32, 0, .co, 0, 4294967295, false⟩
def MBX_STAT_FULL : Field := ⟨84, 0, 1, 0, .ro, 0, 1, false⟩
def MBX_STAT_SEND_OVERRUN : Field := ⟨85, 1, 1, 0, .w1c, 0, 1, false⟩
def MBX_STAT_TIMEOUT : Field := ⟨86, 2, 1, 0, .w1c, 0, 1, false⟩
def MBX_STAT_WAKING : Field := ⟨87, 3, 1, 0, .ro, 0, 1, false⟩
def MBX_STAT_WDR : Field := ⟨88, 4, 1, 0, .wo, 0, 1, false⟩
def MBX_STAT_MSGCOUNT : Field := ⟨89, 16, 16, 0, .ro, 0, 65535, false⟩
def MBX_OVR_CNT_COUNT : Field := ⟨90, 0, 32, 0, .sat, 0, 4294967295, false⟩
def MBX_TMO_CNT_COUNT : Field := ⟨91, 0, 32, 0, .sat, 0, 4294967295, false⟩
def MBX_EVT_EVT : Field := ⟨92, 0, 5, 0, .w1c, 0, 31, false⟩
def MBX_EVT_EN_EN : Field := ⟨93, 0, 5, 0, .rw, 0, 31, false⟩
def MBX_RXPEND_MB : Field := ⟨94, 0, 64, 0, .w1c, 0, 18446744073709551615, false⟩
def MBX_RXEN_MB : Field := ⟨95, 0, 64, 0, .rw, 0, 18446744073709551615, false⟩
def MBX_REFUSED_COUNT : Field := ⟨96, 0, 32, 0, .sat, 0, 4294967295, false⟩
def MBX_LOCK_LOCKED : Field := ⟨97, 0, 1, 0, .co, 0, 1, false⟩
def MBX_CMD_CLR_COUNTS : Field := ⟨98, 0, 1, 0, .wo, 0, 1, false⟩
def MBX_PROD_CFG_MAILBOX : Field := ⟨99, 0, 6, 0, .rw, 0, 63, false⟩
def MBX_PROD_CFG_ON_FULL : Field := ⟨100, 6, 1, 0, .rw, 0, 1, false⟩
def MBX_PROD_CFG_ON_TIMEOUT : Field := ⟨101, 7, 1, 0, .rw, 0, 1, false⟩
def MBX_PROD_CFG_EN : Field := ⟨102, 8, 1, 0, .rw, 0, 1, false⟩
def TMB_CTL_AUTO : Field := ⟨103, 0, 1, 1, .rw, 0, 1, false⟩
def TMB_CTL_TIMEREF_EN : Field := ⟨104, 1, 1, 1, .rw, 0, 1, false⟩
def TMB_CTL_PPS_EN : Field := ⟨105, 2, 1, 0, .rw, 0, 1, false⟩
def TMB_CTL_PPS_FALLING : Field := ⟨106, 3, 1, 0, .rw, 0, 1, false⟩
def TMB_STATUS_STATE : Field := ⟨107, 0, 2, 0, .ro, 0, 3, false⟩
def TMB_STATUS_UNLOCKED : Field := ⟨108, 2, 1, 1, .co, 0, 1, false⟩
def TMB_STATUS_CORRECTING : Field := ⟨109, 3, 1, 0, .co, 0, 1, false⟩
def TMB_STATUS_LOAD_PENDING : Field := ⟨110, 4, 1, 0, .ro, 0, 1, false⟩
def TMB_TB_VALUE : Field := ⟨111, 0, 64, 0, .co, 0, 18446744073709551615, false⟩
def TMB_PPS_TB_VALUE : Field := ⟨112, 0, 64, 0, .ro, 0, 18446744073709551615, false⟩
def TMB_PHASE_ERR_VALUE : Field := ⟨113, 0, 32, 0, .ro, 0, 4294967295, false⟩
def TMB_PPS_OFFSET_VALUE : Field := ⟨114, 0, 32, 0, .rw, 0, 999999999, false⟩
def TMB_LOAD_VALUE : Field := ⟨115, 0, 64, 0, .rw, 0, 18446744073709551615, false⟩
def TMB_CMD_LOAD_NOW : Field := ⟨116, 0, 1, 0, .wo, 0, 1, false⟩
def TMB_CMD_LOAD_AT_PPS : Field := ⟨117, 1, 1, 0, .wo, 0, 1, false⟩
def TMB_CMD_CANCEL_LOAD : Field := ⟨118, 2, 1, 0, .wo, 0, 1, false⟩
def TMB_EVT_EVT : Field := ⟨119, 0, 7, 0, .w1c, 0, 127, false⟩
def TMB_EVT_EN_EN : Field := ⟨120, 0, 7, 0, .rw, 0, 127, false⟩
def TMB_LOCK_LOSS_CNT_COUNT : Field := ⟨121, 0, 32, 0, .sat, 0, 4294967295, false⟩
def TWN_CTL_EN : Field := ⟨122, 0, 1, 0, .rw, 0, 1, false⟩
def TWN_CTL_SOLO_OK : Field := ⟨123, 1, 1, 1, .rw, 0, 1, false⟩
def TWN_CTL_MISS_LIMIT : Field := ⟨124, 2, 4, 3, .rw, 1, 15, false⟩
def TWN_CMD_RELEASE : Field := ⟨125, 0, 1, 0, .wo, 0, 1, false⟩
def TWN_CMD_HELLO : Field := ⟨126, 1, 1, 0, .wo, 0, 1, false⟩
def TWN_CMD_FCG_SYNC : Field := ⟨127, 2, 1, 0, .wo, 0, 1, false⟩
def TWN_CMD_CLR_COUNTS : Field := ⟨128, 3, 1, 0, .wo, 0, 1, false⟩
def TWN_STATUS_STATE : Field := ⟨129, 0, 4, 0, .ro, 0, 15, false⟩
def TWN_STATUS_LINK_UP : Field := ⟨130, 4, 1, 0, .ro, 0, 1, false⟩
def TWN_STATUS_FOGHORN_OK : Field := ⟨131, 5, 1, 0, .ro, 0, 1, false⟩
def TWN_STATUS_TB_ALIGNED : Field := ⟨132, 6, 1, 0, .ro, 0, 1, false⟩
def TWN_STATUS_DRIVING : Field := ⟨133, 7, 1, 1, .ro, 0, 1, false⟩
def TWN_STATUS_RANK : Field := ⟨134, 8, 1, 0, .co, 0, 1, false⟩
def TWN_STATUS_PEER_RANK : Field := ⟨135, 9, 1, 0, .ro, 0, 1, false⟩
def TWN_STATUS_HANDOVER_PENDING : Field := ⟨136, 10, 1, 0, .ro, 0, 1, false⟩
def TWN_EVT_EVT : Field := ⟨137, 0, 16, 0, .w1c, 0, 65535, false⟩
def TWN_EVT_EN_EN : Field := ⟨138, 0, 16, 0, .rw, 0, 65535, false⟩
def TWN_HELLO_ERR_CODE : Field := ⟨139, 0, 4, 0, .ro, 0, 15, false⟩
def TWN_PEER_UID_VALUE : Field := ⟨140, 0, 64, 0, .ro, 0, 18446744073709551615, false⟩
def TWN_CFG_HASH_VALUE : Field := ⟨141, 0, 64, 0, .ro, 0, 18446744073709551615, false⟩
def TWN_PEER_CFG_HASH_VALUE : Field := ⟨142, 0, 64, 0, .ro, 0, 18446744073709551615, false⟩
def TWN_PEER_IMG_HASH_VALUE : Field := ⟨143, 0, 64, 0, .ro, 0, 18446744073709551615, false⟩
def TWN_STREAMS_MASK : Field := ⟨144, 0, 64, 0, .rw, 0, 18446744073709551615, false⟩
def TWN_FOG_PERIOD_NS : Field := ⟨145, 0, 16, 1000, .rw, 500, 10000, false⟩
def TWN_LINE_TOL_NS : Field := ⟨146, 0, 16, 50, .rw, 20, 1000, false⟩
def TWN_MATCH_NS : Field := ⟨147, 0, 16, 200, .rw, 10, 10000, false⟩
def TWN_SEARCH_MS_MS : Field := ⟨148, 0, 16, 100, .rw, 1, 65535, false⟩
def TWN_TBSYNC_US_US : Field := ⟨149, 0, 16, 1000, .rw, 10, 65535, false⟩
def TWN_ASYM_PS : Field := ⟨150, 0, 16, 0, .rw, 0, 65535, false⟩
def TWN_TB_OFFSET_VALUE : Field := ⟨151, 0, 32, 0, .ro, 0, 4294967295, false⟩
def TWN_LINK_DLY_VALUE : Field := ⟨152, 0, 32, 0, .ro, 0, 4294967295, false⟩
def TWN_GAP_START_VALUE : Field := ⟨153, 0, 64, 0, .ro, 0, 18446744073709551615, false⟩
def TWN_TAKEOVER_TB_VALUE : Field := ⟨154, 0, 64, 0, .ro, 0, 18446744073709551615, false⟩
def TWN_FOG_SEQ_TX : Field := ⟨155, 0, 16, 0, .ro, 0, 65535, false⟩
def TWN_FOG_SEQ_RX : Field := ⟨156, 16, 16, 0, .ro, 0, 65535, false⟩
def TWN_FOG_MISSED_COUNT : Field := ⟨157, 0, 32, 0, .sat, 0, 4294967295, false⟩
def TWN_LINE_MISS_COUNT : Field := ⟨158, 0, 32, 0, .sat, 0, 4294967295, false⟩
def TWN_TAKEOVERS_COUNT : Field := ⟨159, 0, 32, 0, .sat, 0, 4294967295, false⟩
def TWN_FIGHTS_COUNT : Field := ⟨160, 0, 32, 0, .sat, 0, 4294967295, false⟩
def TWN_SEQ_MISMATCH_COUNT : Field := ⟨161, 0, 32, 0, .sat, 0, 4294967295, false⟩
def TWN_TRIG_MISMATCH_COUNT : Field := ⟨162, 0, 32, 0, .sat, 0, 4294967295, false⟩
def TWN_PKT_ERR_COUNT : Field := ⟨163, 0, 32, 0, .sat, 0, 4294967295, false⟩
def TWN_TX_DROP_COUNT : Field := ⟨164, 0, 32, 0, .sat, 0, 4294967295, false⟩
def TWN_MBX_NAK_COUNT : Field := ⟨165, 0, 32, 0, .sat, 0, 4294967295, false⟩
def TWN_PROD_CFG_SRC : Field := ⟨166, 0, 4, 0, .rw, 0, 6, false⟩
def TWN_PROD_CFG_CH : Field := ⟨167, 8, 6, 0, .rw, 0, 47, false⟩
def TWN_PROD_CFG_EN : Field := ⟨168, 16, 1, 0, .rw, 0, 1, false⟩
def TWN_RX_EQ_CTLE : Field := ⟨169, 0, 5, 0, .rw, 0, 24, false⟩
def TWN_RX_EQ_PHASE : Field := ⟨170, 8, 6, 0, .rw, 0, 63, false⟩
def TWN_RX_FOM_FOM : Field := ⟨171, 0, 8, 0, .ro, 0, 255, false⟩
def TWN_RX_FOM_DIP : Field := ⟨172, 8, 8, 0, .rc, 0, 255, false⟩
def TWN_RX_CODE_ERR_COUNT : Field := ⟨173, 0, 32, 0, .sat, 0, 4294967295, false⟩
def TWN_RX_CTRL_ERR_COUNT : Field := ⟨174, 0, 32, 0, .sat, 0, 4294967295, false⟩
def TWN_RX_MARKER_ERR_COUNT : Field := ⟨175, 0, 32, 0, .sat, 0, 4294967295, false⟩
def TWN_RX_LOCK_LOSS_COUNT : Field := ⟨176, 0, 32, 0, .sat, 0, 4294967295, false⟩
def TWN_RX_PRBS_CFG_EN : Field := ⟨177, 0, 1, 0, .rw, 0, 1, false⟩
def TWN_RX_PRBS_CFG_SEL : Field := ⟨178, 1, 3, 4, .rw, 0, 4, false⟩
def TWN_RX_PRBS_CFG_LOCKED : Field := ⟨179, 8, 1, 0, .ro, 0, 1, false⟩
def TWN_RX_PRBS_CFG_CLR : Field := ⟨180, 9, 1, 0, .wo, 0, 1, false⟩
def TWN_RX_PRBS_ERR_COUNT : Field := ⟨181, 0, 48, 0, .sat, 0, 281474976710655, false⟩
def TWN_RX_PRBS_BITS_COUNT : Field := ⟨182, 0, 64, 0, .ro, 0, 18446744073709551615, false⟩
def TWN_RX_CFG_INVERT : Field := ⟨183, 0, 1, 0, .rw, 0, 1, false⟩
def TWN_RX_CFG_AUTO : Field := ⟨184, 1, 1, 1, .rw, 0, 1, false⟩
def TWN_RX_CFG_PHASE_AUTO : Field := ⟨185, 2, 1, 1, .rw, 0, 1, false⟩
def TWN_RX_CFG_FOM_ALARM : Field := ⟨186, 8, 8, 32, .rw, 0, 255, false⟩
def TWN_RX_STATUS_STATE : Field := ⟨187, 0, 4, 0, .ro, 0, 15, false⟩
def TWN_RX_STATUS_LINK_UP : Field := ⟨188, 4, 1, 0, .ro, 0, 1, false⟩
def TWN_RX_STATUS_CLK_PRESENT : Field := ⟨189, 5, 1, 0, .ro, 0, 1, false⟩
def TWN_TX_CFG_PRBS_EN : Field := ⟨190, 1, 1, 0, .rw, 0, 1, false⟩
def TWN_TX_CFG_PRBS_SEL : Field := ⟨191, 2, 3, 4, .rw, 0, 4, false⟩
def TWN_TX_CFG_INJ_ONE : Field := ⟨192, 5, 1, 0, .wo, 0, 1, false⟩
def TWN_TX_CFG_INJ_EXP : Field := ⟨193, 6, 6, 0, .rw, 0, 63, false⟩
def TWN_TX_CFG_DEEMPH : Field := ⟨194, 12, 4, 4, .rw, 0, 15, false⟩
def TWN_TX_CFG_SWING : Field := ⟨195, 16, 2, 2, .rw, 0, 3, false⟩
def TWN_TX_INJ_CNT_COUNT : Field := ⟨196, 0, 32, 0, .sat, 0, 4294967295, false⟩
def ENC_CFG_MODE : Field := ⟨197, 0, 3, 0, .rw, 0, 5, false⟩
def ENC_CFG_INVERT_DIR : Field := ⟨198, 3, 1, 0, .rw, 0, 1, false⟩
def ENC_CFG_LEVEL : Field := ⟨199, 4, 2, 0, .rw, 0, 2, false⟩
def ENC_CFG_AUTO_FILTER : Field := ⟨200, 6, 1, 1, .rw, 0, 1, false⟩
def ENC_CFG_Z_POL : Field := ⟨201, 7, 1, 0, .rw, 0, 1, false⟩
def ENC_CFG_FILTER_N : Field := ⟨202, 8, 8, 2, .rw, 1, 255, false⟩
def ENC_CFG_INDEX_GATE : Field := ⟨203, 16, 3, 0, .rw, 0, 7, false⟩
def ENC_MAXRATE_RATE : Field := ⟨204, 0, 32, 40000000, .rw, 1000, 40000000, false⟩
def ENC_STATUS_ABZ : Field := ⟨205, 0, 3, 0, .ro, 0, 7, false⟩
def ENC_STATUS_DIR : Field := ⟨206, 3, 1, 0, .ro, 0, 1, false⟩
def ENC_STATUS_SPEED_VALID : Field := ⟨207, 4, 1, 0, .ro, 0, 1, false⟩
def ENC_STATUS_LOST : Field := ⟨208, 5, 1, 0, .ro, 0, 1, false⟩
def ENC_STATUS_FROZEN : Field := ⟨209, 6, 1, 0, .ro, 0, 1, false⟩
def ENC_STATUS_FAULT_ACTIVE : Field := ⟨210, 7, 1, 0, .co, 0, 1, false⟩
def ENC_STATUS_Z_REVERSED : Field := ⟨211, 8, 1, 0, .ro, 0, 1, false⟩
def ENC_STATUS_IDX_REF : Field := ⟨212, 9, 1, 0, .ro, 0, 1, false⟩
def ENC_STATUS_SSI_BUSY : Field := ⟨213, 10, 1, 0, .ro, 0, 1, false⟩
def ENC_STATUS_SSI_WARN : Field := ⟨214, 11, 1, 0, .ro, 0, 1, false⟩
def ENC_STATUS_CHECKS_ARMED : Field := ⟨215, 12, 1, 0, .co, 0, 1, false⟩
def ENC_EVT_EVT : Field := ⟨216, 0, 12, 0, .w1c, 0, 4095, false⟩
def ENC_EVT_EN_EN : Field := ⟨217, 0, 12, 0, .rw, 0, 4095, false⟩
def ENC_CMD_LOAD_PRESET : Field := ⟨218, 0, 1, 0, .wo, 0, 1, false⟩
def ENC_CMD_CLR_COUNTS : Field := ⟨219, 1, 1, 0, .wo, 0, 1, false⟩
def ENC_CMD_RESTART_SPEED : Field := ⟨220, 2, 1, 0, .wo, 0, 1, false⟩
def ENC_CMD_CLR_IDX_REF : Field := ⟨221, 3, 1, 0, .wo, 0, 1, false⟩
def ENC_POS_VALUE : Field := ⟨222, 0, 64, 0, .ro, 0, 18446744073709551615, false⟩
def ENC_PRESET_VALUE : Field := ⟨223, 0, 64, 0, .rw, 0, 18446744073709551615, false⟩
def ENC_LAST_TB_VALUE : Field := ⟨224, 0, 64, 0, .ro, 0, 18446744073709551615, false⟩
def ENC_INTERVAL_VALUE : Field := ⟨225, 0, 32, 0, .ro, 0, 4294967295, false⟩
def ENC_SPEED_VALUE : Field := ⟨226, 0, 32, 0, .co, 0, 4294967295, false⟩
def ENC_MEAS_CFG_LOST_EN : Field := ⟨227, 0, 1, 0, .rw, 0, 1, false⟩
def ENC_MEAS_CFG_FROZEN_EN : Field := ⟨228, 1, 1, 0, .rw, 0, 1, false⟩
def ENC_MEAS_CFG_MOTION_EXPECTED : Field := ⟨229, 2, 1, 0, .rw, 0, 1, false⟩
def ENC_MEAS_CFG_K : Field := ⟨230, 8, 6, 8, .rw, 2, 63, false⟩
def ENC_MEAS_CFG_M : Field := ⟨231, 16, 8, 16, .rw, 2, 255, false⟩
def ENC_MEAS_CFG_AVG_M1 : Field := ⟨232, 24, 8, 15, .rw, 0, 255, false⟩
def ENC_IDX_POS_VALUE : Field := ⟨233, 0, 64, 0, .ro, 0, 18446744073709551615, false⟩
def ENC_IDX_TB_VALUE : Field := ⟨234, 0, 64, 0, .ro, 0, 18446744073709551615, false⟩
def ENC_IDX_PERIOD_VALUE : Field := ⟨235, 0, 32, 0, .rw, 0, 2147483647, false⟩
def ENC_IDX_TOL_VALUE : Field := ⟨236, 0, 32, 0, .rw, 0, 65535, false⟩
def ENC_IDX_DRIFT_VALUE : Field := ⟨237, 0, 32, 0, .ro, 0, 4294967295, false⟩
def ENC_QUAD_ERR_COUNT : Field := ⟨238, 0, 32, 0, .sat, 0, 4294967295, false⟩
def ENC_OVERSPEED_COUNT : Field := ⟨239, 0, 32, 0, .sat, 0, 4294967295, false⟩
def ENC_DRIFT_CNT_COUNT : Field := ⟨240, 0, 32, 0, .sat, 0, 4294967295, false⟩
def ENC_LOST_CNT_COUNT : Field := ⟨241, 0, 32, 0, .sat, 0, 4294967295, false⟩
def ENC_FROZEN_CNT_COUNT : Field := ⟨242, 0, 32, 0, .sat, 0, 4294967295, false⟩
def ENC_SSI_CRC_CNT_COUNT : Field := ⟨243, 0, 32, 0, .sat, 0, 4294967295, false⟩
def ENC_SSI_ERR_CNT_COUNT : Field := ⟨244, 0, 32, 0, .sat, 0, 4294967295, false⟩
def ENC_SSI_WARN_CNT_COUNT : Field := ⟨245, 0, 32, 0, .sat, 0, 4294967295, false⟩
def ENC_SSI_TIMEOUT_CNT_COUNT : Field := ⟨246, 0, 32, 0, .sat, 0, 4294967295, false⟩
def ENC_SSI_SKIP_CNT_COUNT : Field := ⟨247, 0, 32, 0, .sat, 0, 4294967295, false⟩
def ENC_SSI_FRAME_WLEN : Field := ⟨248, 0, 6, 13, .rw, 8, 48, false⟩
def ENC_SSI_FRAME_POS_LSB : Field := ⟨249, 8, 6, 0, .rw, 0, 63, false⟩
def ENC_SSI_FRAME_POS_BITS : Field := ⟨250, 16, 6, 13, .rw, 1, 48, false⟩
def ENC_SSI_FRAME_GRAY : Field := ⟨251, 24, 1, 1, .rw, 0, 1, false⟩
def ENC_SSI_FRAME_PRESET : Field := ⟨252, 25, 3, 0, .rw, 0, 3, false⟩
def ENC_SSI_STAT_ERR_BIT : Field := ⟨253, 0, 6, 0, .rw, 0, 63, false⟩
def ENC_SSI_STAT_ERR_EN : Field := ⟨254, 6, 1, 0, .rw, 0, 1, false⟩
def ENC_SSI_STAT_ERR_LOW : Field := ⟨255, 7, 1, 0, .rw, 0, 1, false⟩
def ENC_SSI_STAT_WARN_BIT : Field := ⟨256, 8, 6, 0, .rw, 0, 63, false⟩
def ENC_SSI_STAT_WARN_EN : Field := ⟨257, 14, 1, 0, .rw, 0, 1, false⟩
def ENC_SSI_STAT_WARN_LOW : Field := ⟨258, 15, 1, 0, .rw, 0, 1, false⟩
def ENC_SSI_CRC_POLY : Field := ⟨259, 0, 16, 0, .rw, 0, 65535, false⟩
def ENC_SSI_CRC_LEN : Field := ⟨260, 16, 5, 0, .rw, 0, 16, false⟩
def ENC_SSI_CRC_INIT_INIT : Field := ⟨261, 0, 16, 0, .rw, 0, 65535, false⟩
def ENC_SSI_CRC_INIT_XOROUT : Field := ⟨262, 16, 16, 0, .rw, 0, 65535, false⟩
def ENC_SSI_TIMING_CLKDIV : Field := ⟨263, 0, 11, 200, .rw, 20, 2000, false⟩
def ENC_SSI_TIMING_DELAY : Field := ⟨264, 16, 8, 0, .rw, 0, 255, false⟩
def ENC_SSI_TIMING_TIMEOUT_US : Field := ⟨265, 24, 8, 30, .rw, 1, 255, false⟩
def ENC_SSI_PERIOD_PERIOD : Field := ⟨266, 0, 32, 50000, .rw, 1000, 4294967295, false⟩
def ENC_SSI_RAW_WORD : Field := ⟨267, 0, 64, 0, .ro, 0, 18446744073709551615, false⟩
def ENC_IRQ_SUM_SUM : Field := ⟨268, 0, 22, 0, .co, 0, 4194303, false⟩
def ENC_LIST_PAGE_PAGE : Field := ⟨269, 0, 5, 0, .rw, 0, 31, false⟩
def PO_CFG_EN : Field := ⟨270, 0, 1, 0, .rw, 0, 1, false⟩
def PO_CFG_SRC : Field := ⟨271, 1, 2, 0, .rw, 0, 3, false⟩
def PO_CFG_PAIR : Field := ⟨272, 4, 3, 0, .rw, 0, 7, false⟩
def PO_CFG_FORMAT : Field := ⟨273, 8, 1, 0, .rw, 0, 1, false⟩
def PO_CFG_INVERT : Field := ⟨274, 9, 1, 0, .rw, 0, 1, false⟩
def PO_RATIO_M : Field := ⟨275, 0, 16, 1, .rw, 1, 65535, false⟩
def PO_RATIO_N : Field := ⟨276, 16, 16, 1, .rw, 0, 65535, false⟩
def PO_SPACING_SPACING_NS : Field := ⟨277, 0, 16, 20, .rw, 20, 65535, false⟩
def PO_STATUS_BACKLOG : Field := ⟨278, 0, 16, 0, .ro, 0, 65535, false⟩
def PO_STATUS_OVERFLOW : Field := ⟨279, 16, 1, 0, .w1c, 0, 1, false⟩
def PO_STATUS_CFG_ERR : Field := ⟨280, 17, 1, 0, .w1c, 0, 1, false⟩
def PO_STATUS_RUNNING : Field := ⟨281, 18, 1, 0, .ro, 0, 1, false⟩
def PO_ACC_A : Field := ⟨282, 0, 16, 0, .ro, 0, 65535, false⟩
def PO_LOST_COUNT : Field := ⟨283, 0, 32, 0, .sat, 0, 4294967295, false⟩
def PO_OUT_VALUE : Field := ⟨284, 0, 64, 0, .ro, 0, 18446744073709551615, false⟩
def CMP_CFG_SRC : Field := ⟨285, 0, 2, 0, .rw, 0, 3, false⟩
def CMP_CFG_CYCLIC : Field := ⟨286, 2, 1, 0, .rw, 0, 1, false⟩
def CMP_BASE_BASE : Field := ⟨287, 0, 18, 0, .rw, 0, 262143, false⟩
def CMP_LEN_LEN : Field := ⟨288, 0, 19, 1, .rw, 1, 262144, false⟩
def CMP_CMD_ARM : Field := ⟨289, 0, 1, 0, .wo, 0, 1, false⟩
def CMP_CMD_DISARM : Field := ⟨290, 1, 1, 0, .wo, 0, 1, false⟩
def CMP_CMD_CLR_COUNTS : Field := ⟨291, 2, 1, 0, .wo, 0, 1, false⟩
def CMP_OFFSET_VALUE : Field := ⟨292, 0, 64, 0, .rw, 0, 18446744073709551615, false⟩
def CMP_PERIOD_VALUE : Field := ⟨293, 0, 64, 0, .rw, 0, 18446744073709551615, false⟩
def CMP_CUR_OFFSET_VALUE : Field := ⟨294, 0, 64, 0, .ro, 0, 18446744073709551615, false⟩
def CMP_STATUS_ARMED : Field := ⟨295, 0, 1, 0, .ro, 0, 1, false⟩
def CMP_STATUS_DONE : Field := ⟨296, 1, 1, 0, .ro, 0, 1, false⟩
def CMP_PTR_PTR : Field := ⟨297, 0, 18, 0, .ro, 0, 262143, false⟩
def CMP_EVT_EVT : Field := ⟨298, 0, 6, 0, .w1c, 0, 63, false⟩
def CMP_EVT_EN_EN : Field := ⟨299, 0, 6, 0, .rw, 0, 63, false⟩
def CMP_MATCHES_COUNT : Field := ⟨300, 0, 32, 0, .sat, 0, 4294967295, false⟩
def CMP_AGAINST_COUNT : Field := ⟨301, 0, 32, 0, .sat, 0, 4294967295, false⟩
def CMP_SKIPPED_COUNT : Field := ⟨302, 0, 32, 0, .sat, 0, 4294967295, false⟩
def CMP_CATCHUP_COUNT : Field := ⟨303, 0, 32, 0, .sat, 0, 4294967295, false⟩
def CMP_LAST_TB_VALUE : Field := ⟨304, 0, 64, 0, .ro, 0, 18446744073709551615, false⟩
def CMP_LAST_TAG : Field := ⟨305, 0, 4, 0, .ro, 0, 15, false⟩
def CMP_LAST_DIR : Field := ⟨306, 4, 2, 0, .ro, 0, 3, false⟩
def CMP_LAST_ENTRY : Field := ⟨307, 8, 18, 0, .ro, 0, 262143, false⟩
def FCG_CFG_MODE : Field := ⟨308, 0, 2, 0, .rw, 0, 2, false⟩
def FCG_CFG_SRC_ENC : Field := ⟨309, 2, 2, 0, .rw, 0, 3, false⟩
def FCG_CFG_CMP_SEL : Field := ⟨310, 4, 4, 0, .rw, 0, 15, false⟩
def FCG_CFG_PKT_ALIGN : Field := ⟨311, 8, 1, 1, .rw, 0, 1, false⟩
def FCG_CFG_START_AT_TB : Field := ⟨312, 9, 1, 0, .rw, 0, 1, false⟩
def FCG_CFG_HOLD_POLICY : Field := ⟨313, 10, 2, 0, .rw, 0, 2, false⟩
def FCG_CFG_PHASE_SHIFT : Field := ⟨314, 12, 3, 2, .rw, 0, 7, false⟩
def FCG_CMD_START : Field := ⟨315, 0, 1, 0, .wo, 0, 1, false⟩
def FCG_CMD_STOP : Field := ⟨316, 1, 1, 0, .wo, 0, 1, false⟩
def FCG_CMD_CLR_COUNTS : Field := ⟨317, 2, 1, 0, .wo, 0, 1, false⟩
def FCG_PERIOD_VALUE : Field := ⟨318, 0, 64, 1000, .rw, 500, 1099511627776, false⟩
def FCG_START_TB_VALUE : Field := ⟨319, 0, 64, 0, .rw, 0, 18446744073709551615, false⟩
def FCG_PORTS_PORTS : Field := ⟨320, 0, 8, 0, .rw, 0, 255, false⟩
def FCG_C_C : Field := ⟨321, 0, 32, 0, .rw, 1, 2147483647, false⟩
def FCG_FMIN_VALUE : Field := ⟨322, 0, 32, 1, .rw, 1, 2000000, false⟩
def FCG_FMAX_VALUE : Field := ⟨323, 0, 32, 2000000, .rw, 1, 2000000, false⟩
def FCG_FSAFE_VALUE : Field := ⟨324, 0, 32, 1, .rw, 1, 2000000, false⟩
def FCG_SLEW_VALUE : Field := ⟨325, 0, 32, 1000, .rw, 1, 2147483647, false⟩
def FCG_HOLD_TIME_US : Field := ⟨326, 0, 32, 1000, .rw, 1, 4294967295, false⟩
def FCG_PRETRIG_NS : Field := ⟨327, 0, 32, 0, .rw, 0, 100000, false⟩
def FCG_CONFIRM_NS : Field := ⟨328, 0, 32, 1000, .rw, 1, 1000000, false⟩
def FCG_LIST_DELAY_NS : Field := ⟨329, 0, 32, 0, .rw, 0, 1000000, false⟩
def FCG_LOCK_TOL_NS : Field := ⟨330, 0, 32, 100, .rw, 1, 65535, false⟩
def FCG_STATUS_LOOP : Field := ⟨331, 0, 3, 0, .ro, 0, 7, false⟩
def FCG_STATUS_PHASE_LOCKED : Field := ⟨332, 3, 1, 0, .ro, 0, 1, false⟩
def FCG_STATUS_RAMPING : Field := ⟨333, 4, 1, 0, .ro, 0, 1, false⟩
def FCG_STATUS_RAMP_DOWN : Field := ⟨334, 5, 1, 0, .ro, 0, 1, false⟩
def FCG_STATUS_CLAMPED : Field := ⟨335, 6, 1, 0, .ro, 0, 1, false⟩
def FCG_STATUS_OPEN_WINDOWS : Field := ⟨336, 8, 5, 0, .co, 0, 31, false⟩
def FCG_RATE_VALUE : Field := ⟨337, 0, 64, 0, .ro, 0, 18446744073709551615, false⟩
def FCG_SETPOINT_VALUE : Field := ⟨338, 0, 64, 0, .ro, 0, 18446744073709551615, false⟩
def FCG_NEXT_TB_VALUE : Field := ⟨339, 0, 64, 0, .ro, 0, 18446744073709551615, false⟩
def FCG_LAST_TB_VALUE : Field := ⟨340, 0, 64, 0, .co, 0, 18446744073709551615, false⟩
def FCG_TRIG_ID_VALUE : Field := ⟨341, 0, 32, 0, .rw, 0, 4294967295, false⟩
def FCG_PHASE_ERR_VALUE : Field := ⟨342, 0, 32, 0, .ro, 0, 4294967295, false⟩
def FCG_EVT_EVT : Field := ⟨343, 0, 13, 0, .w1c, 0, 8191, false⟩
def FCG_EVT_EN_EN : Field := ⟨344, 0, 13, 0, .rw, 0, 8191, false⟩
def FCG_TRIGGERS_COUNT : Field := ⟨345, 0, 32, 0, .sat, 0, 4294967295, false⟩
def FCG_UNCONF_COUNT : Field := ⟨346, 0, 32, 0, .sat, 0, 4294967295, false⟩
def FCG_HELD_COUNT : Field := ⟨347, 0, 32, 0, .sat, 0, 4294967295, false⟩
def FCG_LATE_COUNT : Field := ⟨348, 0, 32, 0, .sat, 0, 4294967295, false⟩
def FCG_CLAMPS_COUNT : Field := ⟨349, 0, 32, 0, .sat, 0, 4294967295, false⟩
def FCG_TURNS_COUNT : Field := ⟨350, 0, 32, 0, .sat, 0, 4294967295, false⟩
def FCG_STRAY_COUNT : Field := ⟨351, 0, 32, 0, .sat, 0, 4294967295, false⟩
def FCG_SLIPS_COUNT : Field := ⟨352, 0, 32, 0, .sat, 0, 4294967295, false⟩
def FCG_IRQ_SUM_SUM : Field := ⟨353, 0, 4, 0, .co, 0, 15, false⟩
def TRG_CFG_MODE : Field := ⟨354, 0, 2, 0, .rw, 0, 3, false⟩
def TRG_CFG_POL : Field := ⟨355, 2, 1, 0, .rw, 0, 1, false⟩
def TRG_CFG_POLICY : Field := ⟨356, 3, 1, 0, .rw, 0, 1, false⟩
def TRG_CFG_SRC : Field := ⟨357, 4, 3, 0, .rw, 0, 5, false⟩
def TRG_CFG_FCG_SEL : Field := ⟨358, 8, 2, 0, .rw, 0, 3, false⟩
def TRG_CFG_LEVEL : Field := ⟨359, 10, 1, 0, .rw, 0, 1, false⟩
def TRG_CFG_TWIN : Field := ⟨360, 11, 1, 0, .rw, 0, 1, false⟩
def TRG_CFG_BCN_CH : Field := ⟨361, 12, 6, 0, .rw, 0, 47, false⟩
def TRG_DELAY_NS : Field := ⟨362, 0, 32, 0, .rw, 0, 1000000, false⟩
def TRG_WIDTH_NS : Field := ⟨363, 0, 32, 1000, .rw, 0, 4294967295, false⟩
def TRG_FLOOR_FLOOR : Field := ⟨364, 0, 16, 0, .rw, 0, 65535, false⟩
def TRG_FLOOR_EFF_MIN : Field := ⟨365, 16, 16, 0, .co, 0, 65535, false⟩
def TRG_STATUS_PENDING : Field := ⟨366, 0, 4, 0, .co, 0, 15, false⟩
def TRG_STATUS_ACTIVE : Field := ⟨367, 4, 1, 0, .ro, 0, 1, false⟩
def TRG_STATUS_PIN : Field := ⟨368, 5, 1, 0, .co, 0, 1, false⟩
def TRG_STATUS_DARK : Field := ⟨369, 6, 1, 0, .co, 0, 1, false⟩
def TRG_STATUS_DRIVING : Field := ⟨370, 7, 1, 0, .co, 0, 1, false⟩
def TRG_EVT_EVT : Field := ⟨371, 0, 8, 0, .w1c, 0, 255, false⟩
def TRG_EVT_EN_EN : Field := ⟨372, 0, 8, 0, .rw, 0, 255, false⟩
def TRG_CMD_CLR_COUNTS : Field := ⟨373, 0, 1, 0, .wo, 0, 1, false⟩
def TRG_LAST_TB_VALUE : Field := ⟨374, 0, 64, 0, .ro, 0, 18446744073709551615, false⟩
def TRG_PULSES_COUNT : Field := ⟨375, 0, 32, 0, .sat, 0, 4294967295, false⟩
def TRG_SHORT_STRETCHED_COUNT : Field := ⟨376, 0, 32, 0, .sat, 0, 4294967295, false⟩
def TRG_SHORT_DROPPED_COUNT : Field := ⟨377, 0, 32, 0, .sat, 0, 4294967295, false⟩
def TRG_LATE_COUNT : Field := ⟨378, 0, 32, 0, .sat, 0, 4294967295, false⟩
def TRG_OVERLAP_COUNT : Field := ⟨379, 0, 32, 0, .sat, 0, 4294967295, false⟩
def TRG_FULL_COUNT : Field := ⟨380, 0, 32, 0, .sat, 0, 4294967295, false⟩
def TRG_DARK_DROP_COUNT : Field := ⟨381, 0, 32, 0, .sat, 0, 4294967295, false⟩
def TRG_PAIR_CFG_EN : Field := ⟨382, 0, 1, 0, .rw, 0, 1, false⟩
def TRG_PAIR_CFG_DEAD_NS : Field := ⟨383, 16, 16, 5, .rw, 5, 65535, false⟩
def TRG_PAIR_SUPPRESSED_COUNT : Field := ⟨384, 0, 32, 0, .sat, 0, 4294967295, false⟩
def TRG_IRQ_SUM_SUM : Field := ⟨385, 0, 16, 0, .co, 0, 65535, false⟩
def FIO_CH_CFG_DARK_LEVEL : Field := ⟨386, 0, 2, 1, .rw, 0, 2, true⟩
def FIO_CH_CFG_OPEN_EN : Field := ⟨387, 2, 1, 0, .rw, 0, 1, false⟩
def FIO_CH_CFG_OPEN_REPORT_ONLY : Field := ⟨388, 3, 1, 0, .rw, 0, 1, false⟩
def FIO_CH_CFG_TERM : Field := ⟨389, 4, 1, 0, .rw, 0, 1, false⟩
def FIO_CH_CFG_IDLE_CHK : Field := ⟨390, 5, 1, 0, .rw, 0, 1, false⟩
def FIO_CH_CFG_IDLE_POL : Field := ⟨391, 6, 1, 0, .rw, 0, 1, false⟩
def FIO_CH_CFG_PROD : Field := ⟨392, 7, 3, 0, .rw, 0, 7, false⟩
def FIO_CH_CFG_PROD_EN : Field := ⟨393, 10, 1, 0, .rw, 0, 1, false⟩
def FIO_CH_CFG_IDLE_WIN_MS : Field := ⟨394, 16, 8, 10, .rw, 1, 255, false⟩
def FIO_CH_STAT_KINDS : Field := ⟨395, 0, 7, 0, .ro, 0, 127, false⟩
def FIO_CH_STAT_DARK : Field := ⟨396, 8, 1, 0, .ro, 0, 1, true⟩
def FIO_CH_STAT_DARK_CAUSE : Field := ⟨397, 9, 3, 0, .ro, 0, 7, true⟩
def FIO_CH_STAT_ARMING : Field := ⟨398, 12, 1, 0, .ro, 0, 1, false⟩
def FIO_CH_STAT_PARTNER : Field := ⟨399, 16, 6, 0, .ro, 0, 63, false⟩
def FIO_CH_LATCH_KINDS : Field := ⟨400, 0, 7, 0, .w1c, 0, 127, false⟩
def FIO_CH_CNT_COUNT : Field := ⟨401, 0, 32, 0, .sat, 0, 4294967295, false⟩
def FIO_ARM_CH : Field := ⟨402, 0, 48, 0, .wo, 0, 281474976710655, false⟩
def FIO_DARK_CH : Field := ⟨403, 0, 48, 0, .wo, 0, 281474976710655, false⟩
def FIO_VF_STAT_OK : Field := ⟨404, 0, 1, 0, .ro, 0, 1, false⟩
def FIO_VF_STAT_FAULT : Field := ⟨405, 1, 3, 0, .ro, 0, 7, false⟩
def FIO_VF_STAT_LEVEL : Field := ⟨406, 16, 16, 0, .co, 0, 65535, false⟩
def FIO_EVT_EVT : Field := ⟨407, 0, 5, 0, .w1c, 0, 31, false⟩
def FIO_EVT_EN_EN : Field := ⟨408, 0, 5, 0, .rw, 0, 31, false⟩
def FIO_CMD_CLR_COUNTS : Field := ⟨409, 0, 1, 0, .wo, 0, 1, false⟩
def FIO_GIN_CFG_LEVEL : Field := ⟨410, 0, 1, 1, .rw, 0, 1, false⟩
def FIO_GIN_CFG_EDGE : Field := ⟨411, 1, 2, 0, .rw, 0, 2, false⟩
def FIO_GIN_CFG_PROD_EN : Field := ⟨412, 3, 1, 0, .rw, 0, 1, false⟩
def FIO_GIN_CFG_FILTER_US : Field := ⟨413, 8, 8, 0, .rw, 0, 255, false⟩
def FIO_GIN_STAT_LEVELS : Field := ⟨414, 0, 8, 0, .ro, 0, 255, false⟩
def PRT_CFG_EN : Field := ⟨415, 0, 1, 0, .rw, 0, 1, false⟩
def PRT_CFG_GEN : Field := ⟨416, 1, 1, 1, .rw, 0, 1, false⟩
def PRT_CFG_LANES : Field := ⟨417, 2, 2, 2, .rw, 0, 2, false⟩
def PRT_CFG_RATE : Field := ⟨418, 4, 6, 46, .rw, 0, 46, false⟩
def PRT_CFG_MB_REQ_EN : Field := ⟨419, 10, 1, 0, .rw, 0, 1, false⟩
def PRT_CFG_LANE_MAP : Field := ⟨420, 16, 8, 228, .rw, 0, 255, false⟩
def PRT_CFG_INVERT : Field := ⟨421, 24, 4, 0, .rw, 0, 15, false⟩
def PRT_CMD_RESTART : Field := ⟨422, 0, 1, 0, .wo, 0, 1, false⟩
def PRT_CMD_HOLD_ENTER : Field := ⟨423, 1, 1, 0, .wo, 0, 1, false⟩
def PRT_CMD_HOLD_EXIT : Field := ⟨424, 2, 1, 0, .wo, 0, 1, false⟩
def PRT_CMD_DEEP_ENTER : Field := ⟨425, 3, 1, 0, .wo, 0, 1, false⟩
def PRT_CMD_DEEP_EXIT : Field := ⟨426, 4, 1, 0, .wo, 0, 1, false⟩
def PRT_CMD_FORCE : Field := ⟨427, 5, 1, 0, .wo, 0, 1, false⟩
def PRT_CMD_CLR_COUNTS : Field := ⟨428, 6, 1, 0, .wo, 0, 1, false⟩
def PRT_CMD_SELFTEST : Field := ⟨429, 7, 1, 0, .wo, 0, 1, false⟩
def PRT_STATUS_STATE : Field := ⟨430, 0, 4, 0, .ro, 0, 15, false⟩
def PRT_STATUS_LINK_UP : Field := ⟨431, 4, 1, 0, .ro, 0, 1, false⟩
def PRT_STATUS_CLK_PRESENT : Field := ⟨432, 5, 1, 0, .ro, 0, 1, false⟩
def PRT_STATUS_ENTRY_PENDING : Field := ⟨433, 6, 1, 0, .ro, 0, 1, false⟩
def PRT_STATUS_START_MARKERS : Field := ⟨434, 7, 1, 0, .ro, 0, 1, false⟩
def PRT_STATUS_LANE_LOCK : Field := ⟨435, 8, 4, 0, .ro, 0, 15, false⟩
def PRT_STATUS_PEER_ID : Field := ⟨436, 16, 8, 0, .ro, 0, 255, false⟩
def PRT_EVT_EVT : Field := ⟨437, 0, 14, 0, .w1c, 0, 16383, false⟩
def PRT_EVT_EN_EN : Field := ⟨438, 0, 14, 0, .rw, 0, 16383, false⟩
def PRT_PWR_CFG_WAKE_ON_TRIGGER : Field := ⟨439, 0, 1, 0, .rw, 0, 1, false⟩
def PRT_PWR_CFG_AUTO_HOLD : Field := ⟨440, 1, 1, 0, .rw, 0, 1, false⟩
def PRT_PWR_CFG_WAKE_BCN_EN : Field := ⟨441, 2, 1, 0, .rw, 0, 1, false⟩
def PRT_PWR_CFG_WAKE_BCN_CH : Field := ⟨442, 3, 6, 0, .rw, 0, 47, false⟩
def PRT_EQ_CFG_AUTO : Field := ⟨443, 0, 1, 1, .rw, 0, 1, false⟩
def PRT_EQ_CFG_PHASE_AUTO : Field := ⟨444, 1, 1, 1, .rw, 0, 1, false⟩
def PRT_EQ_CFG_FOM_ALARM : Field := ⟨445, 8, 8, 32, .rw, 0, 255, false⟩
def PRT_FCK_FREQ_KHZ : Field := ⟨446, 0, 32, 0, .ro, 0, 4294967295, false⟩
def PRT_LINKUP_NS_NS : Field := ⟨447, 0, 32, 0, .ro, 0, 4294967295, false⟩
def PRT_LINKS_COUNT : Field := ⟨448, 0, 32, 0, .sat, 0, 4294967295, false⟩
def PRT_DOWNS_COUNT : Field := ⟨449, 0, 32, 0, .sat, 0, 4294967295, false⟩
def PRT_RETRIES_COUNT : Field := ⟨450, 0, 32, 0, .sat, 0, 4294967295, false⟩
def PRT_CLK_LOSSES_COUNT : Field := ⟨451, 0, 32, 0, .sat, 0, 4294967295, false⟩
def PRT_SELFTEST_PASS : Field := ⟨452, 0, 4, 0, .ro, 0, 15, false⟩
def PRT_SELFTEST_DONE : Field := ⟨453, 4, 1, 0, .ro, 0, 1, false⟩
def PRT_SELFTEST_REFUSED : Field := ⟨454, 5, 1, 0, .ro, 0, 1, false⟩
def PRT_UL_CFG_EN : Field := ⟨455, 0, 1, 1, .rw, 0, 1, false⟩
def PRT_UL_CFG_PRBS_EN : Field := ⟨456, 1, 1, 0, .rw, 0, 1, false⟩
def PRT_UL_CFG_PRBS_SEL : Field := ⟨457, 2, 3, 4, .rw, 0, 4, false⟩
def PRT_UL_CFG_INJ_ONE : Field := ⟨458, 5, 1, 0, .wo, 0, 1, false⟩
def PRT_UL_CFG_INJ_EXP : Field := ⟨459, 6, 6, 0, .rw, 0, 63, false⟩
def PRT_UL_STATUS_RUNNING : Field := ⟨460, 0, 1, 0, .co, 0, 1, false⟩
def PRT_UL_PREEMPT_COUNT : Field := ⟨461, 0, 32, 0, .sat, 0, 4294967295, false⟩
def PRT_UL_INJ_CNT_COUNT : Field := ⟨462, 0, 32, 0, .sat, 0, 4294967295, false⟩
def PRT_LANE_EQ_CTLE : Field := ⟨463, 0, 5, 0, .rw, 0, 24, false⟩
def PRT_LANE_EQ_PHASE : Field := ⟨464, 8, 6, 0, .rw, 0, 63, false⟩
def PRT_LANE_FOM_FOM : Field := ⟨465, 0, 8, 0, .ro, 0, 255, false⟩
def PRT_LANE_FOM_DIP : Field := ⟨466, 8, 8, 0, .rc, 0, 255, false⟩
def PRT_LANE_CODE_ERR_COUNT : Field := ⟨467, 0, 32, 0, .sat, 0, 4294967295, false⟩
def PRT_LANE_CTRL_ERR_COUNT : Field := ⟨468, 0, 32, 0, .sat, 0, 4294967295, false⟩
def PRT_LANE_MARKER_ERR_COUNT : Field := ⟨469, 0, 32, 0, .sat, 0, 4294967295, false⟩
def PRT_LANE_LOCK_LOSS_COUNT : Field := ⟨470, 0, 32, 0, .sat, 0, 4294967295, false⟩
def PRT_LANE_PRBS_CFG_EN : Field := ⟨471, 0, 1, 0, .rw, 0, 1, false⟩
def PRT_LANE_PRBS_CFG_SEL : Field := ⟨472, 1, 3, 4, .rw, 0, 4, false⟩
def PRT_LANE_PRBS_CFG_LOCKED : Field := ⟨473, 8, 1, 0, .ro, 0, 1, false⟩
def PRT_LANE_PRBS_CFG_CLR : Field := ⟨474, 9, 1, 0, .wo, 0, 1, false⟩
def PRT_LANE_PRBS_ERR_COUNT : Field := ⟨475, 0, 48, 0, .sat, 0, 281474976710655, false⟩
def PRT_LANE_PRBS_BITS_COUNT : Field := ⟨476, 0, 64, 0, .ro, 0, 18446744073709551615, false⟩
def RLY_CFG_EN : Field := ⟨477, 0, 1, 0, .rw, 0, 1, false⟩
def RLY_CFG_SRC : Field := ⟨478, 1, 2, 0, .rw, 0, 2, false⟩
def RLY_CFG_SRC_PORT : Field := ⟨479, 4, 3, 0, .rw, 0, 7, false⟩
def RLY_CFG_LOOP : Field := ⟨480, 8, 2, 0, .rw, 0, 2, false⟩
def RLY_CFG_LOOP_PORT : Field := ⟨481, 10, 1, 0, .rw, 0, 1, false⟩
def RLY_CFG_PRBS_SEL : Field := ⟨482, 12, 3, 4, .rw, 0, 4, false⟩
def RLY_CFG_GEN : Field := ⟨483, 15, 1, 1, .rw, 0, 1, false⟩
def RLY_CFG_LANES : Field := ⟨484, 16, 2, 2, .rw, 0, 2, false⟩
def RLY_CFG_RATE : Field := ⟨485, 18, 6, 46, .rw, 0, 46, false⟩
def RLY_CMD_INJ_ONE : Field := ⟨486, 0, 1, 0, .wo, 0, 1, false⟩
def RLY_CMD_CLR_COUNTS : Field := ⟨487, 1, 1, 0, .wo, 0, 1, false⟩
def RLY_INJ_EXP : Field := ⟨488, 0, 6, 0, .rw, 0, 63, false⟩
def RLY_INJ_LANES : Field := ⟨489, 8, 4, 0, .rw, 0, 15, false⟩
def RLY_TX_DEEMPH : Field := ⟨490, 0, 4, 4, .rw, 0, 15, false⟩
def RLY_TX_SWING : Field := ⟨491, 4, 2, 2, .rw, 0, 3, false⟩
def RLY_STATUS_STATE : Field := ⟨492, 0, 2, 0, .ro, 0, 3, false⟩
def RLY_STATUS_CLK_OUT : Field := ⟨493, 2, 1, 0, .ro, 0, 1, false⟩
def RLY_STATUS_LATENCY_NS : Field := ⟨494, 8, 8, 0, .ro, 0, 255, false⟩
def RLY_EVT_EVT : Field := ⟨495, 0, 3, 0, .w1c, 0, 7, false⟩
def RLY_EVT_EN_EN : Field := ⟨496, 0, 3, 0, .rw, 0, 7, false⟩
def RLY_INJ_CNT_COUNT : Field := ⟨497, 0, 32, 0, .sat, 0, 4294967295, false⟩
def RLY_STOPS_COUNT : Field := ⟨498, 0, 32, 0, .sat, 0, 4294967295, false⟩
def PKT_PORT_CFG_HDR_FORM : Field := ⟨499, 0, 1, 0, .rw, 0, 1, false⟩
def PKT_PORT_CFG_AUTO_MAP : Field := ⟨500, 1, 1, 0, .rw, 0, 1, false⟩
def PKT_PORT_CFG_TWIN_SRC : Field := ⟨501, 2, 1, 0, .rw, 0, 1, false⟩
def PKT_PORT_CFG_REPLY_EN : Field := ⟨502, 3, 1, 0, .rw, 0, 1, false⟩
def PKT_PORT_CFG_REPLY_DT : Field := ⟨503, 4, 3, 7, .rw, 0, 7, false⟩
def PKT_PORT_CFG_REPLY_VC : Field := ⟨504, 8, 5, 31, .rw, 0, 31, false⟩
def PKT_PORT_EVT_EVT : Field := ⟨505, 0, 9, 0, .w1c, 0, 511, false⟩
def PKT_PORT_EVT_EN_EN : Field := ⟨506, 0, 9, 0, .rw, 0, 511, false⟩
def PKT_HDR_CORR_COUNT : Field := ⟨507, 0, 32, 0, .sat, 0, 4294967295, false⟩
def PKT_HDR_FAIL_COUNT : Field := ⟨508, 0, 32, 0, .sat, 0, 4294967295, false⟩
def PKT_UNMAPPED_COUNT : Field := ⟨509, 0, 32, 0, .sat, 0, 4294967295, false⟩
def PKT_ORPHAN_COUNT : Field := ⟨510, 0, 32, 0, .sat, 0, 4294967295, false⟩
def PKT_ABORTED_COUNT : Field := ⟨511, 0, 32, 0, .sat, 0, 4294967295, false⟩
def PKT_DT_UNSUP_COUNT : Field := ⟨512, 0, 32, 0, .sat, 0, 4294967295, false⟩
def PKT_UL_RX_LOST_COUNT : Field := ⟨513, 0, 32, 0, .sat, 0, 4294967295, false⟩
def PKT_PORT_CMD_CLR_COUNTS : Field := ⟨514, 0, 1, 0, .wo, 0, 1, false⟩
def PKT_PORT_TRIG_BCN_CH : Field := ⟨515, 0, 6, 0, .rw, 0, 47, false⟩
def PKT_PORT_TRIG_EN : Field := ⟨516, 8, 1, 0, .rw, 0, 1, false⟩
def PKT_PORT_TRIG_ID_VALUE : Field := ⟨517, 0, 32, 0, .rw, 0, 4294967295, false⟩
def PKT_TRIG_DROP_COUNT : Field := ⟨518, 0, 32, 0, .sat, 0, 4294967295, false⟩
def PKT_UL_TXCMD_SEND : Field := ⟨519, 0, 1, 0, .wo, 0, 1, false⟩
def PKT_UL_TXCMD_TX_BUSY : Field := ⟨520, 1, 1, 0, .ro, 0, 1, false⟩
def PKT_UL_RXSTAT_LENGTH : Field := ⟨521, 0, 9, 0, .co, 0, 511, false⟩
def PKT_UL_RXSTAT_CRC_OK : Field := ⟨522, 9, 1, 0, .co, 0, 1, false⟩
def PKT_UL_RXSTAT_DEPTH : Field := ⟨523, 10, 3, 0, .co, 0, 7, false⟩
def PKT_UL_RXSTAT_POP : Field := ⟨524, 13, 1, 0, .wo, 0, 1, false⟩
def PKT_UL_TXBUF_DATA : Field := ⟨525, 0, 32, 0, .rw, 0, 4294967295, false⟩
def PKT_UL_RXBUF_DATA : Field := ⟨526, 0, 32, 0, .co, 0, 4294967295, false⟩
def PKT_MAP_EN : Field := ⟨527, 0, 1, 0, .rw, 0, 1, false⟩
def PKT_MAP_PORT : Field := ⟨528, 1, 3, 0, .rw, 0, 7, false⟩
def PKT_MAP_VC : Field := ⟨529, 4, 5, 0, .rw, 0, 31, false⟩
def PKT_MAP_DT : Field := ⟨530, 10, 6, 42, .rw, 0, 63, false⟩
def PKT_SCFG_GATING : Field := ⟨531, 0, 2, 0, .rw, 0, 2, false⟩
def PKT_SCFG_GEOM_LEARN : Field := ⟨532, 2, 1, 0, .rw, 0, 1, false⟩
def PKT_SCFG_ENC_MASK : Field := ⟨533, 4, 4, 15, .rw, 0, 15, false⟩
def PKT_SCFG_TRIG_SRC : Field := ⟨534, 8, 3, 0, .rw, 0, 5, false⟩
def PKT_GEOM_WIDTH : Field := ⟨535, 0, 16, 0, .rw, 1, 16384, false⟩
def PKT_GEOM_HEIGHT : Field := ⟨536, 16, 16, 0, .rw, 1, 16384, false⟩
def PKT_WDOG_NS : Field := ⟨537, 0, 32, 0, .rw, 0, 4294967295, false⟩
def PKT_SEQ_VALUE : Field := ⟨538, 0, 48, 0, .rw, 0, 281474976710655, false⟩
def PKT_ARM_COUNT : Field := ⟨539, 0, 16, 0, .rw, 0, 65535, false⟩
def PKT_SSTAT_OPEN : Field := ⟨540, 0, 1, 0, .co, 0, 1, false⟩
def PKT_SSTAT_TAG_WAIT : Field := ⟨541, 1, 1, 0, .co, 0, 1, false⟩
def PKT_SSTAT_TRIG_QUEUED : Field := ⟨542, 2, 5, 0, .co, 0, 31, false⟩
def PKT_SSTAT_LINES : Field := ⟨543, 16, 16, 0, .co, 0, 65535, false⟩
def PKT_SEVT_EVT : Field := ⟨544, 0, 5, 0, .w1c, 0, 31, false⟩
def PKT_SEVT_EN_EN : Field := ⟨545, 0, 5, 0, .rw, 0, 31, false⟩
def PKT_FRAMES_COUNT : Field := ⟨546, 0, 32, 0, .sat, 0, 4294967295, false⟩
def PKT_TRUNC_COUNT : Field := ⟨547, 0, 32, 0, .sat, 0, 4294967295, false⟩
def PKT_GATED_OUT_COUNT : Field := ⟨548, 0, 32, 0, .sat, 0, 4294967295, false⟩
def PKT_RATE_DROP_COUNT : Field := ⟨549, 0, 32, 0, .sat, 0, 4294967295, false⟩
def PKT_TAG_DROP_COUNT : Field := ⟨550, 0, 32, 0, .sat, 0, 4294967295, false⟩
def PKT_NO_TRIGGER_COUNT : Field := ⟨551, 0, 32, 0, .sat, 0, 4294967295, false⟩
def PKT_TRIG_ORPHAN_COUNT : Field := ⟨552, 0, 32, 0, .sat, 0, 4294967295, false⟩
def PKT_FE_ORPHAN_COUNT : Field := ⟨553, 0, 32, 0, .sat, 0, 4294967295, false⟩
def PKT_WC_ERR_COUNT : Field := ⟨554, 0, 32, 0, .sat, 0, 4294967295, false⟩
def PKT_CRC_ERR_COUNT : Field := ⟨555, 0, 32, 0, .sat, 0, 4294967295, false⟩
def PKT_FNUM_ERR_COUNT : Field := ⟨556, 0, 32, 0, .sat, 0, 4294967295, false⟩
def PKT_SCMD_CLR_COUNTS : Field := ⟨557, 0, 1, 0, .wo, 0, 1, false⟩
def PKT_LAST_TAG_DATA : Field := ⟨558, 0, 32, 0, .co, 0, 4294967295, false⟩
def PKT_IRQ_PORT_PORT : Field := ⟨559, 0, 8, 0, .co, 0, 255, false⟩
def PKT_IRQ_STREAM_STREAM : Field := ⟨560, 0, 64, 0, .co, 0, 18446744073709551615, false⟩
def PKT_TAG_QUEUE_DEPTH : Field := ⟨561, 0, 13, 0, .co, 0, 8191, false⟩
def PKT_TAG_QUEUE_PEAK : Field := ⟨562, 16, 13, 0, .rc, 0, 8191, false⟩
def PKT_FEV_CFG_STREAM : Field := ⟨563, 0, 6, 0, .rw, 0, 63, false⟩
def PKT_FEV_CFG_EDGE : Field := ⟨564, 6, 1, 0, .rw, 0, 1, false⟩
def PKT_FEV_CFG_EN : Field := ⟨565, 7, 1, 0, .rw, 0, 1, false⟩
def ISP_CTL_MODE : Field := ⟨566, 0, 2, 0, .rw, 0, 2, false⟩
def ISP_CTL_INLINE_CTX : Field := ⟨567, 8, 6, 0, .rw, 0, 63, false⟩
def ISP_STATUS_BUSY : Field := ⟨568, 0, 1, 0, .co, 0, 1, false⟩
def ISP_STATUS_LOADED : Field := ⟨569, 1, 1, 0, .ro, 0, 1, false⟩
def ISP_STATUS_CUR_CTX : Field := ⟨570, 8, 6, 0, .ro, 0, 63, false⟩
def ISP_STATUS_READY : Field := ⟨571, 16, 7, 0, .co, 0, 127, false⟩
def ISP_EVT_EVT : Field := ⟨572, 0, 7, 0, .w1c, 0, 127, false⟩
def ISP_EVT_EN_EN : Field := ⟨573, 0, 7, 0, .rw, 0, 127, false⟩
def ISP_SUBMIT_CTX : Field := ⟨574, 0, 6, 0, .rw, 0, 63, false⟩
def ISP_SUBMIT_GO : Field := ⟨575, 8, 1, 0, .wo, 0, 1, false⟩
def ISP_SUBMIT_PENDING : Field := ⟨576, 9, 1, 0, .ro, 0, 1, false⟩
def ISP_SUBMIT_ERR : Field := ⟨577, 12, 4, 0, .ro, 0, 15, false⟩
def ISP_SUBMIT_SEQ_SEQ : Field := ⟨578, 0, 48, 0, .rw, 0, 281474976710655, false⟩
def ISP_BUSY_CYCLES_VALUE : Field := ⟨579, 0, 64, 0, .ro, 0, 18446744073709551615, false⟩
def ISP_SWITCHES_COUNT : Field := ⟨580, 0, 32, 0, .sat, 0, 4294967295, false⟩
def ISP_DONE_CFG_CTX : Field := ⟨581, 0, 6, 0, .rw, 0, 63, false⟩
def ISP_DONE_CFG_KIND : Field := ⟨582, 6, 2, 0, .rw, 0, 2, false⟩
def ISP_DONE_CFG_EN : Field := ⟨583, 8, 1, 0, .rw, 0, 1, false⟩
def ISP_LAST_STAT_DATA : Field := ⟨584, 0, 32, 0, .co, 0, 4294967295, false⟩
def ISP_CTX_CFG_EN : Field := ⟨585, 0, 1, 0, .rw, 0, 1, false⟩
def ISP_CTX_CFG_PRESET : Field := ⟨586, 1, 3, 0, .rw, 0, 6, false⟩
def ISP_CTX_CFG_MOSAIC : Field := ⟨587, 4, 3, 0, .rw, 0, 5, false⟩
def ISP_CTX_CFG_ORDER : Field := ⟨588, 7, 1, 0, .rw, 0, 1, false⟩
def ISP_CTX_CFG_CFA_PHASE : Field := ⟨589, 8, 4, 0, .rw, 0, 15, false⟩
def ISP_CTX_CFG_DEMOSAIC : Field := ⟨590, 12, 1, 1, .rw, 0, 1, false⟩
def ISP_CTX_CFG_PRIORITY : Field := ⟨591, 13, 2, 0, .rw, 0, 3, false⟩
def ISP_CTX_CFG_STRIPED : Field := ⟨592, 15, 1, 0, .rw, 0, 1, false⟩
def ISP_CTX_SRC_STREAM : Field := ⟨593, 0, 6, 0, .rw, 0, 63, false⟩
def ISP_CTX_SRC_AUTO : Field := ⟨594, 8, 1, 0, .rw, 0, 1, false⟩
def ISP_CTX_SRC_FRAME_DIV : Field := ⟨595, 16, 8, 1, .rw, 1, 255, false⟩
def ISP_CTX_SRC_FRAME_PHASE : Field := ⟨596, 24, 8, 0, .rw, 0, 255, false⟩
def ISP_CTX_MERGE_FORM : Field := ⟨597, 0, 2, 0, .rw, 0, 2, false⟩
def ISP_CTX_MERGE_N : Field := ⟨598, 2, 2, 1, .rw, 1, 3, false⟩
def ISP_CTX_MERGE_STREAM_1 : Field := ⟨599, 8, 6, 0, .rw, 0, 63, false⟩
def ISP_CTX_MERGE_STREAM_2 : Field := ⟨600, 16, 6, 0, .rw, 0, 63, false⟩
def ISP_CTX_MERGE_PAIR_US : Field := ⟨601, 24, 8, 10, .rw, 1, 255, false⟩
def ISP_CTX_STRIPE_STRIPE_H : Field := ⟨602, 0, 10, 64, .rw, 0, 1023, false⟩
def ISP_CTX_STRIPE_MAX_PENDING : Field := ⟨603, 16, 3, 2, .rw, 1, 4, false⟩
def ISP_CTX_MAX_AGE_NS : Field := ⟨604, 0, 32, 10000000, .rw, 1000, 4000000000, false⟩
def ISP_CTX_LIN_LIN_EN : Field := ⟨605, 0, 1, 0, .rw, 0, 1, false⟩
def ISP_CTX_LIN_LUT_SLOT : Field := ⟨606, 4, 4, 0, .rw, 0, 15, false⟩
def ISP_CTX_SAT_LEVEL : Field := ⟨607, 0, 24, 16777215, .rw, 0, 16777215, false⟩
def ISP_CTX_BLACK_VALUE : Field := ⟨608, 0, 24, 0, .rw, 0, 16777215, false⟩
def ISP_CTX_THR_VALUE : Field := ⟨609, 0, 24, 16777215, .rw, 0, 16777215, false⟩
def ISP_CTX_RATIO_RATIO_1 : Field := ⟨610, 0, 16, 256, .rw, 256, 65535, false⟩
def ISP_CTX_RATIO_RATIO_2 : Field := ⟨611, 16, 16, 256, .rw, 256, 65535, false⟩
def ISP_CTX_BLEND_VALUE : Field := ⟨612, 0, 24, 0, .rw, 0, 16777215, false⟩
def ISP_CTX_DEFECT_STATIC_EN : Field := ⟨613, 0, 1, 0, .rw, 0, 1, false⟩
def ISP_CTX_DEFECT_DYN_EN : Field := ⟨614, 1, 1, 0, .rw, 0, 1, false⟩
def ISP_CTX_DEFECT_DEF_BASE : Field := ⟨615, 16, 16, 0, .rw, 0, 65535, false⟩
def ISP_CTX_DEF_LEN_DEF_LEN : Field := ⟨616, 0, 17, 0, .rw, 0, 65536, false⟩
def ISP_CTX_DYN_THRESH_VALUE : Field := ⟨617, 0, 24, 1048576, .rw, 0, 16777215, false⟩
def ISP_CTX_SHADE_SHADE_EN : Field := ⟨618, 0, 1, 0, .rw, 0, 1, false⟩
def ISP_CTX_SHADE_SHADE_SLOT : Field := ⟨619, 1, 3, 0, .rw, 0, 7, false⟩
def ISP_CTX_CCM_0_LOW : Field := ⟨620, 0, 16, 4096, .rw, 0, 65535, false⟩
def ISP_CTX_CCM_0_HIGH : Field := ⟨621, 16, 16, 0, .rw, 0, 65535, false⟩
def ISP_CTX_CCM_1_LOW : Field := ⟨622, 0, 16, 0, .rw, 0, 65535, false⟩
def ISP_CTX_CCM_1_HIGH : Field := ⟨623, 16, 16, 0, .rw, 0, 65535, false⟩
def ISP_CTX_CCM_2_LOW : Field := ⟨624, 0, 16, 0, .rw, 0, 65535, false⟩
def ISP_CTX_CCM_2_HIGH : Field := ⟨625, 16, 16, 4096, .rw, 0, 65535, false⟩
def ISP_CTX_CCM_3_LOW : Field := ⟨626, 0, 16, 0, .rw, 0, 65535, false⟩
def ISP_CTX_CCM_3_HIGH : Field := ⟨627, 16, 16, 0, .rw, 0, 65535, false⟩
def ISP_CTX_CCM_4_LOW : Field := ⟨628, 0, 16, 0, .rw, 0, 65535, false⟩
def ISP_CTX_CCM_4_HIGH : Field := ⟨629, 16, 16, 0, .rw, 0, 65535, false⟩
def ISP_CTX_CCM_5_LOW : Field := ⟨630, 0, 16, 4096, .rw, 0, 65535, false⟩
def ISP_CTX_CCM_5_HIGH : Field := ⟨631, 16, 16, 0, .rw, 0, 65535, false⟩
def ISP_CTX_IRSUB_0_LOW : Field := ⟨632, 0, 16, 0, .rw, 0, 65535, false⟩
def ISP_CTX_IRSUB_0_HIGH : Field := ⟨633, 16, 16, 0, .rw, 0, 65535, false⟩
def ISP_CTX_IRSUB_1_LOW : Field := ⟨634, 0, 16, 0, .rw, 0, 65535, false⟩
def ISP_CTX_LUMA_0_LOW : Field := ⟨635, 0, 16, 13933, .rw, 0, 65535, false⟩
def ISP_CTX_LUMA_0_HIGH : Field := ⟨636, 16, 16, 46871, .rw, 0, 65535, false⟩
def ISP_CTX_LUMA_1_LOW : Field := ⟨637, 0, 16, 4732, .rw, 0, 65535, false⟩
def ISP_CTX_OUT_EN_DISP_EN : Field := ⟨638, 0, 1, 0, .rw, 0, 1, false⟩
def ISP_CTX_OUT_EN_CODE_EN : Field := ⟨639, 1, 1, 0, .rw, 0, 1, false⟩
def ISP_CTX_OUT_EN_VIS_EN : Field := ⟨640, 2, 1, 0, .rw, 0, 1, false⟩
def ISP_CTX_OUT_EN_STAT_EN : Field := ⟨641, 3, 1, 0, .rw, 0, 1, false⟩
def ISP_CTX_DISP_FMT : Field := ⟨642, 0, 1, 0, .rw, 0, 1, false⟩
def ISP_CTX_DISP_TONE : Field := ⟨643, 1, 1, 0, .rw, 0, 1, false⟩
def ISP_CTX_DISP_SHIFT : Field := ⟨644, 2, 4, 8, .rw, 0, 8, false⟩
def ISP_CTX_DISP_DECIM_X1 : Field := ⟨645, 8, 4, 0, .rw, 0, 15, false⟩
def ISP_CTX_DISP_DECIM_Y1 : Field := ⟨646, 12, 4, 0, .rw, 0, 15, false⟩
def ISP_CTX_CODE_DEPTH : Field := ⟨647, 0, 1, 0, .rw, 0, 1, false⟩
def ISP_CTX_CODE_TONE : Field := ⟨648, 1, 1, 0, .rw, 0, 1, false⟩
def ISP_CTX_CODE_SHIFT : Field := ⟨649, 2, 4, 8, .rw, 0, 8, false⟩
def ISP_CTX_CODE_RANGE : Field := ⟨650, 6, 1, 0, .rw, 0, 1, false⟩
def ISP_CTX_VIS_FMT : Field := ⟨651, 0, 2, 0, .rw, 0, 2, false⟩
def ISP_CTX_VIS_SHIFT : Field := ⟨652, 2, 4, 8, .rw, 0, 8, false⟩
def ISP_CTX_VIS_XY_X0 : Field := ⟨653, 0, 16, 0, .rw, 0, 65535, false⟩
def ISP_CTX_VIS_XY_Y0 : Field := ⟨654, 16, 16, 0, .rw, 0, 65535, false⟩
def ISP_CTX_VIS_WH_W : Field := ⟨655, 0, 16, 16, .rw, 0, 65535, false⟩
def ISP_CTX_VIS_WH_H : Field := ⟨656, 16, 16, 16, .rw, 0, 65535, false⟩
def ISP_CTX_OUT_BASE_BASE : Field := ⟨657, 0, 36, 0, .rw, 0, 68719476735, false⟩
def ISP_CTX_OUT_SIZE_SIZE_LOG2 : Field := ⟨658, 0, 6, 12, .rw, 12, 36, false⟩
def ISP_CTX_OUT_SIZE_SLOT_LOG2 : Field := ⟨659, 8, 6, 12, .rw, 12, 36, false⟩
def ISP_CTX_STAT_HIST_SHIFT : Field := ⟨660, 0, 3, 0, .rw, 0, 7, false⟩
def ISP_CTX_STAT_STAT_RING_EN : Field := ⟨661, 3, 1, 0, .rw, 0, 1, false⟩
def ISP_CTX_STAT_STAT_RING : Field := ⟨662, 16, 12, 0, .rw, 0, 4095, false⟩
def ISP_CTX_STAT_XY_X0 : Field := ⟨663, 0, 16, 0, .rw, 0, 65535, false⟩
def ISP_CTX_STAT_XY_Y0 : Field := ⟨664, 16, 16, 0, .rw, 0, 65535, false⟩
def ISP_CTX_STAT_WH_W : Field := ⟨665, 0, 16, 16, .rw, 0, 65535, false⟩
def ISP_CTX_STAT_WH_H : Field := ⟨666, 16, 16, 16, .rw, 0, 65535, false⟩
def ISP_CTX_STATUS_VALID : Field := ⟨667, 0, 1, 0, .ro, 0, 1, false⟩
def ISP_CTX_STATUS_ACTIVE : Field := ⟨668, 1, 1, 0, .ro, 0, 1, false⟩
def ISP_CTX_STATUS_PENDING : Field := ⟨669, 2, 3, 0, .co, 0, 7, false⟩
def ISP_CTX_STATUS_ERR : Field := ⟨670, 8, 4, 0, .ro, 0, 15, false⟩
def ISP_CTX_LAST_SEQ_SEQ : Field := ⟨671, 0, 48, 0, .ro, 0, 281474976710655, false⟩
def ISP_CTX_DONE_COUNT : Field := ⟨672, 0, 32, 0, .sat, 0, 4294967295, false⟩
def ISP_CTX_BYPASS_AGE_COUNT : Field := ⟨673, 0, 32, 0, .sat, 0, 4294967295, false⟩
def ISP_CTX_BYPASS_OVERRUN_COUNT : Field := ⟨674, 0, 32, 0, .sat, 0, 4294967295, false⟩
def ISP_CTX_BYPASS_ERR_COUNT : Field := ⟨675, 0, 32, 0, .sat, 0, 4294967295, false⟩
def ISP_CTX_MERGE_MISS_COUNT : Field := ⟨676, 0, 32, 0, .sat, 0, 4294967295, false⟩
def ISP_CTX_DEF_ORDER_COUNT : Field := ⟨677, 0, 32, 0, .sat, 0, 4294967295, false⟩
def ISP_CTX_STAT_LOST_COUNT : Field := ⟨678, 0, 32, 0, .sat, 0, 4294967295, false⟩
def ISP_CTX_CMD_CLR_COUNTS : Field := ⟨679, 0, 1, 0, .wo, 0, 1, false⟩
def POD_STATUS_STATE : Field := ⟨680, 0, 2, 0, .co, 0, 3, false⟩
def POD_STATUS_LAYER : Field := ⟨681, 8, 8, 0, .co, 0, 255, false⟩
def POD_STATUS_RUN_ID : Field := ⟨682, 16, 16, 0, .co, 0, 65535, false⟩
def POD_BUSY_CYCLES_VALUE : Field := ⟨683, 0, 64, 0, .ro, 0, 18446744073709551615, false⟩
def POD_ACC_SAT_COUNT : Field := ⟨684, 0, 32, 0, .sat, 0, 4294967295, false⟩
def POD_OUT_SAT_COUNT : Field := ⟨685, 0, 32, 0, .sat, 0, 4294967295, false⟩
def POD_CMD_CLR_COUNTS : Field := ⟨686, 0, 1, 0, .wo, 0, 1, false⟩
def POD_LSRAM_PAGE_PAGE : Field := ⟨687, 0, 4, 0, .rw, 0, 15, false⟩
def POD_SUB_LIST_VALUE : Field := ⟨688, 0, 32, 0, .rw, 0, 4294967295, false⟩
def POD_SUB_RUN_VALUE : Field := ⟨689, 0, 32, 0, .rw, 0, 4294967295, false⟩
def POD_SUB_SEQ_VALUE : Field := ⟨690, 0, 64, 0, .rw, 0, 18446744073709551615, false⟩
def POD_SUB_CMD_GO : Field := ⟨691, 0, 1, 0, .wo, 0, 1, false⟩
def POD_SUB_RES_STATUS : Field := ⟨692, 0, 8, 0, .ro, 0, 255, false⟩
def POD_SUB_RES_ID : Field := ⟨693, 16, 16, 0, .ro, 0, 65535, false⟩
def POD_QUEUE_QUEUED : Field := ⟨694, 0, 5, 0, .co, 0, 31, false⟩
def POD_QUEUE_RUNNING : Field := ⟨695, 8, 4, 0, .co, 0, 15, false⟩
def POD_EVT_EVT : Field := ⟨696, 0, 5, 0, .w1c, 0, 31, false⟩
def POD_EVT_EN_EN : Field := ⟨697, 0, 5, 0, .rw, 0, 31, false⟩
def POD_RUN_ERR_CODE : Field := ⟨698, 0, 4, 0, .ro, 0, 15, false⟩
def POD_RUN_ERR_LAYER : Field := ⟨699, 8, 8, 0, .ro, 0, 255, false⟩
def POD_RUN_ERR_LAYER_ID : Field := ⟨700, 16, 16, 0, .ro, 0, 65535, false⟩
def POD_RUNS_OK_COUNT : Field := ⟨701, 0, 32, 0, .sat, 0, 4294967295, false⟩
def POD_RUNS_ERR_COUNT : Field := ⟨702, 0, 32, 0, .sat, 0, 4294967295, false⟩
def POD_RUNS_NO_INPUT_COUNT : Field := ⟨703, 0, 32, 0, .sat, 0, 4294967295, false⟩
def POD_RUNS_DISCARDED_COUNT : Field := ⟨704, 0, 32, 0, .sat, 0, 4294967295, false⟩
def POD_GATE_FULL_COUNT : Field := ⟨705, 0, 32, 0, .sat, 0, 4294967295, false⟩
def POD_RUN_FULL_COUNT : Field := ⟨706, 0, 32, 0, .sat, 0, 4294967295, false⟩
def POD_CCMD_CLR_COUNTS : Field := ⟨707, 0, 1, 0, .wo, 0, 1, false⟩
def POD_GATE_PENDING_DEPTH : Field := ⟨708, 0, 13, 0, .co, 0, 8191, false⟩
def POD_GATE_PENDING_PEAK : Field := ⟨709, 16, 13, 0, .rc, 0, 8191, false⟩
def POD_VDT_CFG_STREAM : Field := ⟨710, 0, 6, 0, .rw, 0, 63, false⟩
def POD_VDT_CFG_KIND : Field := ⟨711, 6, 2, 0, .rw, 0, 3, false⟩
def POD_VDT_CFG_EN : Field := ⟨712, 8, 1, 0, .rw, 0, 1, false⟩
def POD_GATE_CFG_EN : Field := ⟨713, 0, 1, 0, .rw, 0, 1, false⟩
def POD_GATE_CFG_POLICY : Field := ⟨714, 1, 1, 0, .rw, 0, 1, false⟩
def POD_GATE_CFG_REJECT_RECORD : Field := ⟨715, 2, 1, 0, .rw, 0, 1, false⟩
def POD_GATE_CFG_AUTO_RUN : Field := ⟨716, 3, 1, 0, .rw, 0, 1, false⟩
def POD_GATE_CFG_INPUT : Field := ⟨717, 4, 3, 0, .rw, 0, 4, false⟩
def POD_GATE_CFG_POD_MASK : Field := ⟨718, 8, 8, 0, .rw, 0, 255, false⟩
def POD_GATE_CFG_CLR_COUNTS : Field := ⟨719, 31, 1, 0, .wo, 0, 1, false⟩
def POD_GATE_DEADLINE_NS : Field := ⟨720, 0, 32, 1000000, .rw, 1000, 1073741824, false⟩
def POD_GATE_WIN_PRE_KEEP : Field := ⟨721, 0, 16, 0, .rw, 0, 1024, false⟩
def POD_GATE_WIN_POST_KEEP : Field := ⟨722, 16, 16, 0, .rw, 0, 1024, false⟩
def POD_AUTO_LIST_OFFSET : Field := ⟨723, 0, 23, 0, .rw, 0, 8388607, false⟩
def POD_NET_VERDICT_VERDICT : Field := ⟨724, 0, 8, 0, .ro, 0, 255, false⟩
def POD_NET_SEQ_SEQ : Field := ⟨725, 0, 48, 0, .ro, 0, 281474976710655, false⟩
def POD_FINAL_VERDICT : Field := ⟨726, 0, 8, 0, .ro, 0, 255, false⟩
def POD_FINAL_SEQ_SEQ : Field := ⟨727, 0, 48, 0, .ro, 0, 281474976710655, false⟩
def POD_GATE_KEEP_COUNT : Field := ⟨728, 0, 32, 0, .sat, 0, 4294967295, false⟩
def POD_GATE_REJECT_COUNT : Field := ⟨729, 0, 32, 0, .sat, 0, 4294967295, false⟩
def POD_GATE_FORCED_COUNT : Field := ⟨730, 0, 32, 0, .sat, 0, 4294967295, false⟩
def POD_GATE_DL_OUT_COUNT : Field := ⟨731, 0, 32, 0, .sat, 0, 4294967295, false⟩
def POD_GATE_LATE_COUNT : Field := ⟨732, 0, 32, 0, .sat, 0, 4294967295, false⟩
def POD_GATE_TRACKED_FRAMES : Field := ⟨733, 0, 13, 0, .co, 0, 8191, false⟩
def SQ_CTL_RUN : Field := ⟨734, 0, 1, 0, .wo, 0, 1, false⟩
def SQ_CTL_HALT : Field := ⟨735, 1, 1, 0, .wo, 0, 1, false⟩
def SQ_CTL_STEP : Field := ⟨736, 2, 1, 0, .wo, 0, 1, false⟩
def SQ_CTL_CORE_RESET : Field := ⟨737, 3, 1, 0, .wo, 0, 1, false⟩
def SQ_CTL_WAKE_EN : Field := ⟨738, 4, 1, 0, .rw, 0, 1, false⟩
def SQ_CTL_RECIPE_START : Field := ⟨739, 8, 1, 0, .wo, 0, 1, false⟩
def SQ_CTL_RECIPE_STOP : Field := ⟨740, 9, 1, 0, .wo, 0, 1, false⟩
def SQ_CTL_RECIPE_ID : Field := ⟨741, 16, 4, 0, .rw, 1, 6, false⟩
def SQ_STATUS_STATE : Field := ⟨742, 0, 3, 0, .ro, 0, 7, false⟩
def SQ_STATUS_IN_SPEC : Field := ⟨743, 3, 1, 0, .co, 0, 1, false⟩
def SQ_STATUS_WAIT_KIND : Field := ⟨744, 4, 3, 0, .co, 0, 7, false⟩
def SQ_STATUS_EV_PENDING : Field := ⟨745, 8, 4, 0, .ro, 0, 15, false⟩
def SQ_STATUS_FAULT : Field := ⟨746, 16, 4, 0, .ro, 0, 15, false⟩
def SQ_STATUS_RECIPE_STATE : Field := ⟨747, 20, 4, 0, .ro, 0, 15, false⟩
def SQ_STATUS_RECIPE_RUNNING : Field := ⟨748, 24, 4, 0, .ro, 0, 15, false⟩
def SQ_PC_PC : Field := ⟨749, 2, 13, 0, .hw, 0, 8191, false⟩
def SQ_WAKE_PC_PC : Field := ⟨750, 2, 13, 0, .rw, 0, 8191, false⟩
def SQ_CYCLES_COUNT : Field := ⟨751, 0, 64, 0, .ro, 0, 18446744073709551615, false⟩
def SQ_SPEC_COMMITTED_COUNT : Field := ⟨752, 0, 32, 0, .sat, 0, 4294967295, false⟩
def SQ_SPEC_SQUASHED_COUNT : Field := ⟨753, 0, 32, 0, .sat, 0, 4294967295, false⟩
def SQ_FAULT_PC_PC : Field := ⟨754, 0, 15, 0, .ro, 0, 32767, false⟩
def SQ_RECIPE_ERR_CODE : Field := ⟨755, 0, 8, 0, .ro, 0, 255, false⟩
def SQ_RECIPE_ERR_OFFSET : Field := ⟨756, 8, 8, 0, .ro, 0, 255, false⟩
def SQ_IRQ_STATUS_EVT : Field := ⟨757, 0, 6, 0, .w1c, 0, 63, false⟩
def SQ_IRQ_EN_EN : Field := ⟨758, 0, 6, 0, .rw, 0, 63, false⟩
def SQ_VREG_VALUE : Field := ⟨759, 0, 64, 0, .hw, 0, 18446744073709551615, false⟩
def SQ_LK_VALUE : Field := ⟨760, 0, 64, 0, .hw, 0, 18446744073709551615, false⟩
def SQ_FLAGS_ZNCV : Field := ⟨761, 0, 4, 0, .hw, 0, 15, false⟩
def SQ_HASH_CTL_START : Field := ⟨762, 0, 1, 0, .wo, 0, 1, false⟩
def SQ_HASH_CTL_BUSY : Field := ⟨763, 1, 1, 0, .ro, 0, 1, false⟩
def SQ_HASH_CTL_VALID : Field := ⟨764, 2, 1, 0, .ro, 0, 1, false⟩
def SQ_PROG_HASH_HASH : Field := ⟨765, 0, 64, 0, .ro, 0, 18446744073709551615, false⟩
def DMA_CH_CFG_PRIO : Field := ⟨766, 0, 2, 0, .rw, 0, 3, false⟩
def DMA_CH_CFG_WEIGHT1 : Field := ⟨767, 4, 4, 0, .rw, 0, 15, false⟩
def DMA_CH_CMD_PAUSE : Field := ⟨768, 0, 1, 0, .wo, 0, 1, false⟩
def DMA_CH_CMD_RESUME : Field := ⟨769, 1, 1, 0, .wo, 0, 1, false⟩
def DMA_CH_CMD_DRAIN : Field := ⟨770, 2, 1, 0, .wo, 0, 1, false⟩
def DMA_CH_CMD_ABORT : Field := ⟨771, 3, 1, 0, .wo, 0, 1, false⟩
def DMA_CH_CMD_CLR_COUNTS : Field := ⟨772, 4, 1, 0, .wo, 0, 1, false⟩
def DMA_CH_STATUS_STATE : Field := ⟨773, 0, 3, 0, .co, 0, 7, false⟩
def DMA_CH_STATUS_QUEUED : Field := ⟨774, 8, 9, 0, .co, 0, 511, false⟩
def DMA_CH_ACTIVE_ID : Field := ⟨775, 0, 16, 0, .co, 0, 65535, false⟩
def DMA_CH_POS_ROW_VALUE : Field := ⟨776, 0, 32, 0, .co, 0, 4294967295, false⟩
def DMA_CH_POS_BYTE_VALUE : Field := ⟨777, 0, 32, 0, .co, 0, 4294967295, false⟩
def DMA_CH_EVT_EVT : Field := ⟨778, 0, 9, 0, .w1c, 0, 511, false⟩
def DMA_CH_EVT_EN_EN : Field := ⟨779, 0, 9, 0, .rw, 0, 511, false⟩
def DMA_CH_DONE_COUNT : Field := ⟨780, 0, 32, 0, .sat, 0, 4294967295, false⟩
def DMA_CH_VOIDED_COUNT : Field := ⟨781, 0, 32, 0, .sat, 0, 4294967295, false⟩
def DMA_CH_GONE_COUNT : Field := ⟨782, 0, 32, 0, .sat, 0, 4294967295, false⟩
def DMA_CH_ABORTED_COUNT : Field := ⟨783, 0, 32, 0, .sat, 0, 4294967295, false⟩
def DMA_CH_LATE_COUNT : Field := ⟨784, 0, 32, 0, .sat, 0, 4294967295, false⟩
def DMA_CH_NO_OUTPUT_COUNT : Field := ⟨785, 0, 32, 0, .sat, 0, 4294967295, false⟩
def DMA_SDLV_CFG_EN : Field := ⟨786, 0, 1, 0, .rw, 0, 1, false⟩
def DMA_SDLV_CFG_MODE : Field := ⟨787, 1, 1, 0, .rw, 0, 1, false⟩
def DMA_SDLV_CFG_KIND : Field := ⟨788, 2, 2, 0, .rw, 0, 1, false⟩
def DMA_SDLV_CFG_EARLY : Field := ⟨789, 4, 1, 0, .rw, 0, 1, false⟩
def DMA_SDLV_CFG_WAIT_ISP : Field := ⟨790, 5, 1, 0, .rw, 0, 1, false⟩
def DMA_SDLV_CFG_CONFIRMED : Field := ⟨791, 6, 1, 0, .rw, 0, 1, false⟩
def DMA_SDLV_CFG_PIPE : Field := ⟨792, 7, 1, 0, .rw, 0, 1, false⟩
def DMA_SDLV_CFG_OUTPUT : Field := ⟨793, 8, 2, 0, .rw, 0, 2, false⟩
def DMA_SDLV_CFG_CTX : Field := ⟨794, 10, 6, 0, .rw, 0, 63, false⟩
def DMA_SDLV_CFG_CHANNEL : Field := ⟨795, 16, 6, 0, .rw, 0, 63, false⟩
def DMA_SDLV_CFG_XFORM : Field := ⟨796, 24, 8, 0, .rw, 0, 255, false⟩
def DMA_SDLV_RINGS_FRAME_RING : Field := ⟨797, 0, 12, 0, .rw, 0, 4095, false⟩
def DMA_SDLV_RINGS_CMPL_RING : Field := ⟨798, 16, 12, 0, .rw, 0, 4095, false⟩
def DMA_SDLV_LATE_NS : Field := ⟨799, 0, 32, 0, .rw, 0, 4294967295, false⟩
def DMA_SDLV_NEXT_SEQ : Field := ⟨800, 0, 48, 0, .ro, 0, 281474976710655, false⟩
def DMA_SDLV_DELIVERED_COUNT : Field := ⟨801, 0, 32, 0, .sat, 0, 4294967295, false⟩
def DMA_SDLV_MISSED_COUNT : Field := ⟨802, 0, 32, 0, .sat, 0, 4294967295, false⟩
def DMA_SDLV_SHORT_COUNT : Field := ⟨803, 0, 32, 0, .sat, 0, 4294967295, false⟩
def DMA_SUB_DESC_DATA : Field := ⟨804, 0, 32, 0, .rw, 0, 4294967295, false⟩
def DMA_SUB_CMD_GO : Field := ⟨805, 0, 1, 0, .wo, 0, 1, false⟩
def DMA_SUB_RES_RESULT : Field := ⟨806, 0, 32, 0, .ro, 0, 4294967295, false⟩
def DMA_INFLIGHT_COUNT : Field := ⟨807, 0, 9, 0, .co, 0, 511, false⟩
def DMA_INFLIGHT_PEAK : Field := ⟨808, 16, 9, 0, .rc, 0, 511, false⟩
def MEM_CFG_RATE : Field := ⟨809, 0, 4, 6, .rw, 0, 6, false⟩
def MEM_CFG_RANKS : Field := ⟨810, 4, 1, 0, .rw, 0, 1, false⟩
def MEM_CFG_INLINE_ECC : Field := ⟨811, 5, 1, 0, .rw, 0, 1, false⟩
def MEM_CFG_AUTO_TRAIN : Field := ⟨812, 6, 1, 1, .rw, 0, 1, false⟩
def MEM_STATUS_STATE : Field := ⟨813, 0, 3, 0, .ro, 0, 7, false⟩
def MEM_STATUS_CH_OK : Field := ⟨814, 8, 8, 0, .ro, 0, 255, false⟩
def MEM_CMD_TRAIN : Field := ⟨815, 0, 1, 0, .wo, 0, 1, false⟩
def MEM_CMD_CLR_COUNTS : Field := ⟨816, 1, 1, 0, .wo, 0, 1, false⟩
def MEM_USABLE_VALUE : Field := ⟨817, 0, 64, 0, .ro, 0, 18446744073709551615, false⟩
def MEM_EVT_EVT : Field := ⟨818, 0, 6, 0, .w1c, 0, 63, false⟩
def MEM_EVT_EN_EN : Field := ⟨819, 0, 6, 0, .rw, 0, 63, false⟩
def MEM_LINK_CORR_COUNT : Field := ⟨820, 0, 32, 0, .sat, 0, 4294967295, false⟩
def MEM_INLINE_CORR_COUNT : Field := ⟨821, 0, 32, 0, .sat, 0, 4294967295, false⟩
def MEM_UNCORR_COUNT : Field := ⟨822, 0, 32, 0, .sat, 0, 4294967295, false⟩
def MEM_UNCORR_ADDR_VALUE : Field := ⟨823, 0, 64, 0, .ro, 0, 18446744073709551615, false⟩
def MEM_UNCORR_MID_MID : Field := ⟨824, 0, 5, 31, .ro, 0, 31, false⟩
def MEM_STORE_BUF_DEPTH : Field := ⟨825, 0, 12, 0, .co, 0, 4095, false⟩
def MEM_STORE_BUF_PEAK : Field := ⟨826, 16, 12, 0, .rc, 0, 4095, false⟩
def MEM_FRZ_CFG_STREAM : Field := ⟨827, 0, 6, 0, .rw, 0, 63, false⟩
def MEM_FRZ_CFG_EN : Field := ⟨828, 6, 1, 0, .rw, 0, 1, false⟩
def MEM_SREG_BASE_BASE : Field := ⟨829, 0, 36, 0, .rw, 0, 68719476735, false⟩
def MEM_SREG_CFG_EN : Field := ⟨830, 0, 1, 0, .rw, 0, 1, false⟩
def MEM_SREG_CFG_DROP_SEEN : Field := ⟨831, 1, 1, 0, .w1c, 0, 1, false⟩
def MEM_SREG_CFG_FROZEN_SEEN : Field := ⟨832, 2, 1, 0, .w1c, 0, 1, false⟩
def MEM_SREG_CFG_SIZE_LOG2 : Field := ⟨833, 8, 6, 12, .rw, 12, 36, false⟩
def MEM_SREG_CFG_SLOT_LOG2 : Field := ⟨834, 16, 6, 12, .rw, 12, 36, false⟩
def MEM_SREG_NEWEST_SEQ : Field := ⟨835, 0, 48, 0, .ro, 0, 281474976710655, false⟩
def MEM_SREG_NEWEST_STORED : Field := ⟨836, 63, 1, 0, .ro, 0, 1, false⟩
def MEM_SREG_DROPPED_COUNT : Field := ⟨837, 0, 32, 0, .sat, 0, 4294967295, false⟩
def MEM_BURST_CFG_ARM : Field := ⟨838, 0, 1, 0, .wo, 0, 1, false⟩
def MEM_BURST_CFG_DISARM : Field := ⟨839, 1, 1, 0, .wo, 0, 1, false⟩
def MEM_BURST_CFG_FREEZE_NOW : Field := ⟨840, 2, 1, 0, .wo, 0, 1, false⟩
def MEM_BURST_CFG_STATE : Field := ⟨841, 4, 2, 0, .ro, 0, 3, false⟩
def MEM_BURST_CFG_END_CH : Field := ⟨842, 8, 6, 0, .rw, 0, 47, false⟩
def MEM_BURST_PRE_VALUE : Field := ⟨843, 0, 48, 0, .rw, 0, 281474976710655, false⟩
def MEM_BURST_POST_VALUE : Field := ⟨844, 0, 48, 0, .rw, 0, 281474976710655, false⟩
def MEM_BURST_EVENT_SEQ_VALUE : Field := ⟨845, 0, 48, 0, .ro, 0, 281474976710655, false⟩
def MEM_BURST_EVENT_TB_VALUE : Field := ⟨846, 0, 64, 0, .ro, 0, 18446744073709551615, false⟩
def MEM_BURST_PRE_HELD_VALUE : Field := ⟨847, 0, 48, 0, .ro, 0, 281474976710655, false⟩
def MEM_BURST_EXTRA_COUNT : Field := ⟨848, 0, 32, 0, .sat, 0, 4294967295, false⟩
def RNG_CFG_EN : Field := ⟨849, 0, 1, 0, .rw, 0, 1, false⟩
def RNG_CFG_TYPE : Field := ⟨850, 1, 3, 0, .rw, 0, 4, false⟩
def RNG_CFG_SIZE_LOG2 : Field := ⟨851, 4, 5, 4, .rw, 4, 16, false⟩
def RNG_CFG_ATTR : Field := ⟨852, 9, 1, 0, .rw, 0, 1, false⟩
def RNG_CFG_OWNER : Field := ⟨853, 10, 3, 0, .rw, 0, 7, false⟩
def RNG_CFG_WB_EN : Field := ⟨854, 13, 1, 0, .rw, 0, 1, false⟩
def RNG_CFG_ERR_IRQ_EN : Field := ⟨855, 14, 1, 0, .rw, 0, 1, false⟩
def RNG_CFG_HIGH_EN : Field := ⟨856, 15, 1, 0, .rw, 0, 1, false⟩
def RNG_CFG_LOW_EN : Field := ⟨857, 16, 1, 0, .rw, 0, 1, false⟩
def RNG_IRQ_VECTOR : Field := ⟨858, 0, 11, 0, .rw, 0, 2047, false⟩
def RNG_IRQ_ENTRY_IRQ_EN : Field := ⟨859, 11, 1, 0, .rw, 0, 1, false⟩
def RNG_IRQ_BUOY_IRQ_EN : Field := ⟨860, 12, 1, 0, .rw, 0, 1, false⟩
def RNG_IRQ_COAL_COUNT : Field := ⟨861, 16, 8, 1, .rw, 1, 255, false⟩
def RNG_IRQ_COAL_US : Field := ⟨862, 24, 8, 0, .rw, 0, 255, false⟩
def RNG_BASE_ADDR : Field := ⟨863, 0, 64, 0, .rw, 0, 18446744073709551615, false⟩
def RNG_WB_ADDR : Field := ⟨864, 0, 64, 0, .rw, 0, 18446744073709551615, false⟩
def RNG_TAIL_INDEX : Field := ⟨865, 0, 32, 0, .rw, 0, 4294967295, false⟩
def RNG_HEAD_INDEX : Field := ⟨866, 0, 32, 0, .rw, 0, 4294967295, false⟩
def RNG_BUOY_LVL_HIGH : Field := ⟨867, 0, 16, 65535, .rw, 1, 65535, false⟩
def RNG_BUOY_LVL_LOW : Field := ⟨868, 16, 16, 0, .rw, 0, 65534, false⟩
def RNG_BUOY_STAT_HIGH_STICKY : Field := ⟨869, 0, 1, 0, .w1c, 0, 1, false⟩
def RNG_BUOY_STAT_LOW_STICKY : Field := ⟨870, 1, 1, 0, .w1c, 0, 1, false⟩
def RNG_BUOY_STAT_CURRENT_ABOVE : Field := ⟨871, 2, 1, 0, .co, 0, 1, false⟩
def RNG_BUOY_STAT_CURRENT_BELOW : Field := ⟨872, 3, 1, 0, .co, 0, 1, false⟩
def RNG_BUOY_STAT_HIGH_PEND : Field := ⟨873, 4, 1, 0, .w1c, 0, 1, false⟩
def RNG_BUOY_STAT_LOW_PEND : Field := ⟨874, 5, 1, 0, .w1c, 0, 1, false⟩
def RNG_BUOY_STAT_ERROR : Field := ⟨875, 6, 1, 0, .ro, 0, 1, false⟩
def RNG_BUOY_CNT_HIGH_CNT : Field := ⟨876, 0, 16, 0, .rc, 0, 65535, false⟩
def RNG_BUOY_CNT_LOW_CNT : Field := ⟨877, 16, 16, 0, .rc, 0, 65535, false⟩
def RNG_BUOY_PEAK_LEVEL : Field := ⟨878, 0, 17, 0, .rc, 0, 131071, false⟩
def RNG_BUOY_TROUGH_LEVEL : Field := ⟨879, 0, 17, 0, .rc, 0, 131071, false⟩
def RNG_ERR_CODE : Field := ⟨880, 0, 2, 0, .ro, 0, 3, false⟩
def RNG_ERR_CFG_ERR : Field := ⟨881, 2, 1, 0, .w1c, 0, 1, false⟩
def RNG_LOST_COUNT : Field := ⟨882, 0, 32, 0, .sat, 0, 4294967295, false⟩
def RNG_DB_ERR_COUNT : Field := ⟨883, 0, 32, 0, .sat, 0, 4294967295, false⟩
def HIF_LINK_STATUS_UP : Field := ⟨884, 0, 1, 0, .ro, 0, 1, false⟩
def HIF_LINK_STATUS_SPEED : Field := ⟨885, 1, 3, 0, .ro, 0, 7, false⟩
def HIF_LINK_STATUS_WIDTH : Field := ⟨886, 4, 5, 0, .ro, 0, 31, false⟩
def HIF_CTL_MAX_SPEED : Field := ⟨887, 0, 3, 5, .rw, 3, 5, false⟩
def HIF_CTL_RO_EN : Field := ⟨888, 3, 1, 1, .rw, 0, 1, false⟩
def HIF_EVT_EVT : Field := ⟨889, 0, 8, 0, .w1c, 0, 255, false⟩
def HIF_EVT_EN_EN : Field := ⟨890, 0, 8, 0, .rw, 0, 255, false⟩
def HIF_BAD_ACCESS_COUNT : Field := ⟨891, 0, 32, 0, .sat, 0, 4294967295, false⟩
def HIF_CPL_TIMEOUT_COUNT : Field := ⟨892, 0, 32, 0, .sat, 0, 4294967295, false⟩
def HIF_POISONED_COUNT : Field := ⟨893, 0, 32, 0, .sat, 0, 4294967295, false⟩
def HIF_LINK_DOWNS_COUNT : Field := ⟨894, 0, 32, 0, .sat, 0, 4294967295, false⟩
def HIF_DB_ERR_COUNT : Field := ⟨895, 0, 32, 0, .sat, 0, 4294967295, false⟩
def HIF_FLRS_COUNT : Field := ⟨896, 0, 32, 0, .sat, 0, 4294967295, false⟩
def HIF_RING_ERR_FIRST_RING : Field := ⟨897, 0, 12, 0, .ro, 0, 4095, false⟩
def HIF_RING_ERR_FIRST_VALID : Field := ⟨898, 31, 1, 0, .w1c, 0, 1, false⟩
def HIF_RING_ERR_ROUTE_RING : Field := ⟨899, 0, 12, 0, .rw, 0, 4095, false⟩
def HIF_RING_ERR_ROUTE_EN : Field := ⟨900, 31, 1, 0, .rw, 0, 1, false⟩
def HIF_IRQ_REARM_REARM : Field := ⟨901, 0, 29, 0, .wo, 0, 536870911, false⟩
def HIF_VF_STATUS_VF_ENABLED : Field := ⟨902, 1, 7, 0, .co, 0, 127, false⟩
def HIF_VF_STATUS_FLR_BUSY : Field := ⟨903, 9, 7, 0, .ro, 0, 127, false⟩
def HIF_CMD_CLR_COUNTS : Field := ⟨904, 0, 1, 0, .wo, 0, 1, false⟩
def HIF_BLK_VEC_VECTOR : Field := ⟨905, 0, 11, 0, .rw, 0, 2047, false⟩
def HIF_BLK_VEC_EN : Field := ⟨906, 16, 1, 0, .rw, 0, 1, false⟩
def HIF_EVT_ROUTE_RING : Field := ⟨907, 0, 12, 0, .rw, 0, 4095, false⟩
def HIF_EVT_ROUTE_EN : Field := ⟨908, 16, 1, 0, .rw, 0, 1, false⟩
def KI_ID_ID : Field := ⟨909, 0, 32, 157331456, .ro, 0, 4294967295, false⟩
def KI_UID_UID : Field := ⟨910, 0, 64, 0, .ro, 0, 18446744073709551615, true⟩
def KI_LAST_ERR_CODE : Field := ⟨911, 0, 8, 0, .ro, 0, 255, false⟩
def KI_WALL_SECONDS : Field := ⟨912, 0, 32, 0, .ro, 0, 4294967295, false⟩
def KI_POLLS_SINCE_TIME_COUNT : Field := ⟨913, 0, 32, 0, .ro, 0, 4294967295, false⟩
def KL_LIFECYCLE_LOCKED : Field := ⟨914, 0, 1, 0, .nv, 0, 1, true⟩
def KL_LOCKS_MBX : Field := ⟨915, 0, 1, 0, .w1s, 0, 1, false⟩
def KL_LOCKS_BCN : Field := ⟨916, 1, 1, 0, .w1s, 0, 1, false⟩
def KL_RANK_RANK : Field := ⟨917, 0, 1, 0, .nv, 0, 1, true⟩
def KL_BOOT_BOOT_EN : Field := ⟨918, 0, 1, 0, .nv, 0, 1, true⟩
def KP_PROFILE_PROFILE : Field := ⟨919, 0, 3, 1, .rw, 0, 4, false⟩
def KP_PROFILE_SLEEP_HOST : Field := ⟨920, 8, 1, 1, .rw, 0, 1, false⟩
def KP_REQ_DOMAINS : Field := ⟨921, 0, 24, 0, .rw, 0, 16777215, false⟩
def KP_EFFECTIVE_DOMAINS : Field := ⟨922, 0, 24, 0, .co, 0, 16777215, false⟩
def KP_GOOD_DOMAINS : Field := ⟨923, 0, 24, 11, .ro, 0, 16777215, false⟩
def KP_FAIL_DOMAINS : Field := ⟨924, 0, 24, 0, .w1c, 0, 16777215, false⟩
def KP_RESET_WARM : Field := ⟨925, 0, 1, 0, .wo, 0, 1, false⟩
def KP_RESET_COLD : Field := ⟨926, 1, 1, 0, .wo, 0, 1, false⟩
def KP_RESET_KEY : Field := ⟨927, 16, 16, 0, .wo, 0, 65535, false⟩
def KT_CFG_WARN : Field := ⟨928, 0, 8, 115, .nv, 0, 255, true⟩
def KT_CFG_TRIP : Field := ⟨929, 8, 8, 130, .nv, 0, 255, true⟩
def KT_CFG_HYST : Field := ⟨930, 16, 4, 10, .nv, 0, 15, true⟩
def KT_STATUS_WARN_NOW : Field := ⟨931, 0, 1, 0, .co, 0, 1, false⟩
def KT_STATUS_TRIPPED : Field := ⟨932, 1, 1, 0, .ro, 0, 1, false⟩
def KT_STATUS_TRIP_CLR : Field := ⟨933, 2, 1, 0, .wo, 0, 1, false⟩
def KT_STATUS_HOT : Field := ⟨934, 8, 5, 0, .co, 0, 31, false⟩
def KT_TEMP_TEMP : Field := ⟨935, 0, 16, 0, .ro, 0, 65535, false⟩
def KT_TEMP_VALID : Field := ⟨936, 31, 1, 0, .ro, 0, 1, false⟩
def KD_IMAGE_LO_SEG : Field := ⟨937, 0, 32, 0, .rw, 0, 4294967295, false⟩
def KD_IMAGE_HI_SEG : Field := ⟨938, 0, 15, 0, .rw, 0, 32767, false⟩
def KD_WAVE_ERASE_STEPS : Field := ⟨939, 0, 4, 2, .nv, 0, 15, true⟩
def KD_WAVE_WRITE_STEPS : Field := ⟨940, 4, 4, 2, .nv, 0, 15, true⟩
def KD_INTENT_HASH : Field := ⟨941, 0, 32, 0, .nv, 0, 4294967295, false⟩
def KD_COMMIT_HASH : Field := ⟨942, 0, 32, 0, .nv, 0, 4294967295, false⟩
def KD_STATUS_DIRTY : Field := ⟨943, 0, 1, 0, .ro, 0, 1, true⟩
def KD_STATUS_HOLDING : Field := ⟨944, 1, 1, 0, .ro, 0, 1, false⟩
def KD_STATUS_OWNER : Field := ⟨945, 2, 1, 0, .ro, 0, 1, true⟩
def KD_STATUS_NEXT_STEP : Field := ⟨946, 8, 5, 0, .ro, 0, 31, true⟩
def KD_STATUS_STEPS : Field := ⟨947, 16, 5, 0, .co, 0, 31, false⟩
def KD_HASH_HASH : Field := ⟨948, 0, 32, 0, .ro, 0, 4294967295, true⟩
def KD_CNT_COUNT : Field := ⟨949, 0, 32, 0, .sat, 0, 4294967295, true⟩
def KF_NEXT_ENTRY_NO : Field := ⟨950, 0, 32, 0, .ro, 0, 4294967295, true⟩
def KF_OVERWRITE_COUNT_COUNT : Field := ⟨951, 0, 32, 0, .sat, 0, 4294967295, true⟩
def KF_SEL_ENTRY_NO : Field := ⟨952, 0, 32, 0, .rw, 0, 4294967295, false⟩
def KF_PENDING_PENDING : Field := ⟨953, 0, 16, 0, .co, 0, 65535, false⟩
def KF_ENTRY_WORD : Field := ⟨954, 0, 32, 0, .co, 0, 4294967295, false⟩
def KJ_PAGE_PAGE : Field := ⟨955, 0, 2, 0, .rw, 0, 3, false⟩

end F

namespace R

def GLB_ID : Reg := ⟨0, 0, ⟨1, 1, 1, 1, 1, 1⟩, false, [F.GLB_ID_DEVICE, F.GLB_ID_STEPPING]⟩
def GLB_CAP : Reg := ⟨1, 4, ⟨1, 1, 1, 1, 1, 1⟩, false, [F.GLB_CAP_PORTS, F.GLB_CAP_PODS, F.GLB_CAP_SQ_CORES, F.GLB_CAP_ISPS, F.GLB_CAP_MEM_GIB]⟩
def GLB_UID : Reg := ⟨2, 8, ⟨1, 1, 1, 1, 1, 1⟩, true, [F.GLB_UID_UID]⟩
def GLB_SCRATCH : Reg := ⟨3, 16, ⟨1, 1, 1, 1, 1, 1⟩, false, [F.GLB_SCRATCH_VALUE]⟩
def GLB_STATUS : Reg := ⟨4, 20, ⟨1, 1, 1, 1, 1, 1⟩, false, [F.GLB_STATUS_D2D_UP, F.GLB_STATUS_KEEPER_BUSY, F.GLB_STATUS_LIFECYCLE, F.GLB_STATUS_TWIN_RANK, F.GLB_STATUS_REF_LANE_OK, F.GLB_STATUS_REF_PCIE_OK, F.GLB_STATUS_TIMEREF_OK, F.GLB_STATUS_PPS_OK]⟩
def GLB_D2D_DLY : Reg := ⟨5, 24, ⟨1, 1, 1, 1, 1, 1⟩, false, [F.GLB_D2D_DLY_TRG_PS]⟩
def GLB_D2D_ERR : Reg := ⟨6, 28, ⟨1, 1, 1, 1, 1, 1⟩, false, [F.GLB_D2D_ERR_RETRIES, F.GLB_D2D_ERR_DOWN_EVENTS]⟩
def GLB_IRQ_SUM : Reg := ⟨7, 32, ⟨1, 1, 1, 1, 1, 1⟩, false, [F.GLB_IRQ_SUM_SUM]⟩
def GLB_SEC_ERR : Reg := ⟨8, 36, ⟨1, 1, 1, 1, 1, 1⟩, false, [F.GLB_SEC_ERR_MID, F.GLB_SEC_ERR_VALID, F.GLB_SEC_ERR_COUNT]⟩
def GLB_SEC_ADDR : Reg := ⟨9, 40, ⟨1, 1, 1, 1, 1, 1⟩, false, [F.GLB_SEC_ADDR_OFFSET, F.GLB_SEC_ADDR_IS_INDEX]⟩
def GLB_EVT : Reg := ⟨10, 48, ⟨1, 1, 1, 1, 1, 1⟩, false, [F.GLB_EVT_EVT]⟩
def GLB_EVT_EN : Reg := ⟨11, 52, ⟨1, 1, 1, 1, 1, 1⟩, false, [F.GLB_EVT_EN_EN]⟩
def GLB_RST_CTL : Reg := ⟨12, 64, ⟨1, 1, 1, 1, 1, 1⟩, false, [F.GLB_RST_CTL_WARM, F.GLB_RST_CTL_COLD, F.GLB_RST_CTL_KEY]⟩
def GLB_BLK_RST : Reg := ⟨13, 68, ⟨1, 1, 1, 1, 1, 1⟩, false, [F.GLB_BLK_RST_BLOCK]⟩
def GLB_RST_STATUS : Reg := ⟨14, 72, ⟨1, 1, 1, 1, 1, 1⟩, false, [F.GLB_RST_STATUS_BLK_BUSY, F.GLB_RST_STATUS_WARM_BUSY, F.GLB_RST_STATUS_KEY_ERR, F.GLB_RST_STATUS_REFUSED]⟩
def GLB_RST_CAUSE : Reg := ⟨15, 76, ⟨1, 1, 1, 1, 1, 1⟩, false, [F.GLB_RST_CAUSE_CAUSE, F.GLB_RST_CAUSE_WARM_COUNT]⟩
def KBR_CMD : Reg := ⟨16, 65536, ⟨1, 1, 1, 1, 1, 1⟩, false, [F.KBR_CMD_OPCODE, F.KBR_CMD_GO, F.KBR_CMD_ADDR]⟩
def KBR_WDATA : Reg := ⟨17, 65540, ⟨1, 1, 1, 1, 1, 1⟩, false, [F.KBR_WDATA_DATA]⟩
def KBR_TAIL : Reg := ⟨18, 65544, ⟨1, 1, 1, 1, 1, 1⟩, false, [F.KBR_TAIL_CLOCKS]⟩
def KBR_STATUS : Reg := ⟨19, 65548, ⟨1, 1, 1, 1, 1, 1⟩, false, [F.KBR_STATUS_BUSY, F.KBR_STATUS_DONE, F.KBR_STATUS_ABANDONED, F.KBR_STATUS_RCRC_ERR, F.KBR_STATUS_CFG_ERR, F.KBR_STATUS_TAIL_KMISO, F.KBR_STATUS_KSTAT]⟩
def KBR_RDATA : Reg := ⟨20, 65552, ⟨1, 1, 1, 1, 1, 1⟩, false, [F.KBR_RDATA_DATA]⟩
def KBR_IRQ_EN : Reg := ⟨21, 65556, ⟨1, 1, 1, 1, 1, 1⟩, false, [F.KBR_IRQ_EN_EN]⟩
def KBR_ABANDONS : Reg := ⟨22, 65560, ⟨1, 1, 1, 1, 1, 1⟩, false, [F.KBR_ABANDONS_COUNT]⟩
def PWR_STATE : Reg := ⟨23, 131072, ⟨1, 1, 1, 1, 1, 1⟩, false, [F.PWR_STATE_DOMAINS]⟩
def PWR_EFFECTIVE : Reg := ⟨24, 131076, ⟨1, 1, 1, 1, 1, 1⟩, false, [F.PWR_EFFECTIVE_DOMAINS]⟩
def PWR_PROFILE : Reg := ⟨25, 131080, ⟨1, 1, 1, 1, 1, 1⟩, false, [F.PWR_PROFILE_DOMAINS]⟩
def PWR_REQ : Reg := ⟨26, 131084, ⟨1, 1, 1, 1, 1, 1⟩, false, [F.PWR_REQ_DOMAINS]⟩
def PWR_WAKE_HELD : Reg := ⟨27, 131088, ⟨1, 1, 1, 1, 1, 1⟩, false, [F.PWR_WAKE_HELD_DOMAINS]⟩
def PWR_FAIL : Reg := ⟨28, 131092, ⟨1, 1, 1, 1, 1, 1⟩, false, [F.PWR_FAIL_DOMAINS]⟩
def PWR_EVT : Reg := ⟨29, 131096, ⟨1, 1, 1, 1, 1, 1⟩, false, [F.PWR_EVT_EVT]⟩
def PWR_EVT_EN : Reg := ⟨30, 131100, ⟨1, 1, 1, 1, 1, 1⟩, false, [F.PWR_EVT_EN_EN]⟩
def BCN_CH_CFG : Reg := ⟨31, 196608, ⟨48, 64, 1, 1, 1, 1⟩, false, [F.BCN_CH_CFG_EN, F.BCN_CH_CFG_CONSUMER, F.BCN_CH_CFG_OWNER, F.BCN_CH_CFG_ATTR, F.BCN_CH_CFG_FIRE_OWNER_ONLY]⟩
def BCN_EN : Reg := ⟨32, 196612, ⟨48, 64, 6, 4, 1, 1⟩, false, [F.BCN_EN_EN]⟩
def BCN_WAKE : Reg := ⟨33, 196636, ⟨48, 64, 1, 1, 1, 1⟩, false, [F.BCN_WAKE_DOMAINS]⟩
def BCN_FIRES : Reg := ⟨34, 196640, ⟨48, 64, 1, 1, 1, 1⟩, false, [F.BCN_FIRES_COUNT]⟩
def BCN_LAST_TB : Reg := ⟨35, 196648, ⟨48, 64, 1, 1, 1, 1⟩, true, [F.BCN_LAST_TB_VALUE]⟩
def BCN_FIRE : Reg := ⟨36, 258048, ⟨1, 1, 1, 1, 1, 1⟩, true, [F.BCN_FIRE_CH]⟩
def BCN_FIRED : Reg := ⟨37, 258056, ⟨1, 1, 1, 1, 1, 1⟩, true, [F.BCN_FIRED_CH]⟩
def BCN_OVR : Reg := ⟨38, 258064, ⟨3, 4, 1, 1, 1, 1⟩, false, [F.BCN_OVR_CONSUMER]⟩
def BCN_EVT : Reg := ⟨39, 258080, ⟨1, 1, 1, 1, 1, 1⟩, false, [F.BCN_EVT_EVT]⟩
def BCN_EVT_EN : Reg := ⟨40, 258084, ⟨1, 1, 1, 1, 1, 1⟩, false, [F.BCN_EVT_EN_EN]⟩
def BCN_FIRE_REFUSED : Reg := ⟨41, 258088, ⟨1, 1, 1, 1, 1, 1⟩, false, [F.BCN_FIRE_REFUSED_COUNT]⟩
def BCN_CFG_REFUSED : Reg := ⟨42, 258092, ⟨1, 1, 1, 1, 1, 1⟩, false, [F.BCN_CFG_REFUSED_COUNT]⟩
def BCN_CMD : Reg := ⟨43, 258096, ⟨1, 1, 1, 1, 1, 1⟩, false, [F.BCN_CMD_CLR_COUNTS]⟩
def MBX_BIND : Reg := ⟨44, 262144, ⟨64, 64, 1, 1, 1, 1⟩, false, [F.MBX_BIND_SENDER, F.MBX_BIND_RECEIVER, F.MBX_BIND_ATTR]⟩
def MBX_TMO : Reg := ⟨45, 262148, ⟨64, 64, 1, 1, 1, 1⟩, false, [F.MBX_TMO_US]⟩
def MBX_DATA : Reg := ⟨46, 262152, ⟨64, 64, 1, 1, 1, 1⟩, false, [F.MBX_DATA_WORD]⟩
def MBX_PEEK : Reg := ⟨47, 262156, ⟨64, 64, 1, 1, 1, 1⟩, false, [F.MBX_PEEK_WORD]⟩
def MBX_STAT : Reg := ⟨48, 262160, ⟨64, 64, 1, 1, 1, 1⟩, false, [F.MBX_STAT_FULL, F.MBX_STAT_SEND_OVERRUN, F.MBX_STAT_TIMEOUT, F.MBX_STAT_WAKING, F.MBX_STAT_WDR, F.MBX_STAT_MSGCOUNT]⟩
def MBX_OVR_CNT : Reg := ⟨49, 262164, ⟨64, 64, 1, 1, 1, 1⟩, false, [F.MBX_OVR_CNT_COUNT]⟩
def MBX_TMO_CNT : Reg := ⟨50, 262168, ⟨64, 64, 1, 1, 1, 1⟩, false, [F.MBX_TMO_CNT_COUNT]⟩
def MBX_EVT : Reg := ⟨51, 323584, ⟨1, 1, 1, 1, 1, 1⟩, false, [F.MBX_EVT_EVT]⟩
def MBX_EVT_EN : Reg := ⟨52, 323588, ⟨1, 1, 1, 1, 1, 1⟩, false, [F.MBX_EVT_EN_EN]⟩
def MBX_RXPEND : Reg := ⟨53, 323592, ⟨1, 1, 1, 1, 1, 1⟩, true, [F.MBX_RXPEND_MB]⟩
def MBX_RXEN : Reg := ⟨54, 323600, ⟨1, 1, 1, 1, 1, 1⟩, true, [F.MBX_RXEN_MB]⟩
def MBX_REFUSED : Reg := ⟨55, 323608, ⟨1, 1, 1, 1, 1, 1⟩, false, [F.MBX_REFUSED_COUNT]⟩
def MBX_LOCK : Reg := ⟨56, 323612, ⟨1, 1, 1, 1, 1, 1⟩, false, [F.MBX_LOCK_LOCKED]⟩
def MBX_CMD : Reg := ⟨57, 323616, ⟨1, 1, 1, 1, 1, 1⟩, false, [F.MBX_CMD_CLR_COUNTS]⟩
def MBX_PROD_CFG : Reg := ⟨58, 323840, ⟨8, 4, 1, 1, 1, 1⟩, false, [F.MBX_PROD_CFG_MAILBOX, F.MBX_PROD_CFG_ON_FULL, F.MBX_PROD_CFG_ON_TIMEOUT, F.MBX_PROD_CFG_EN]⟩
def TMB_CTL : Reg := ⟨59, 327680, ⟨1, 1, 1, 1, 1, 1⟩, false, [F.TMB_CTL_AUTO, F.TMB_CTL_TIMEREF_EN, F.TMB_CTL_PPS_EN, F.TMB_CTL_PPS_FALLING]⟩
def TMB_STATUS : Reg := ⟨60, 327684, ⟨1, 1, 1, 1, 1, 1⟩, false, [F.TMB_STATUS_STATE, F.TMB_STATUS_UNLOCKED, F.TMB_STATUS_CORRECTING, F.TMB_STATUS_LOAD_PENDING]⟩
def TMB_TB : Reg := ⟨61, 327688, ⟨1, 1, 1, 1, 1, 1⟩, true, [F.TMB_TB_VALUE]⟩
def TMB_PPS_TB : Reg := ⟨62, 327696, ⟨1, 1, 1, 1, 1, 1⟩, true, [F.TMB_PPS_TB_VALUE]⟩
def TMB_PHASE_ERR : Reg := ⟨63, 327704, ⟨1, 1, 1, 1, 1, 1⟩, false, [F.TMB_PHASE_ERR_VALUE]⟩
def TMB_PPS_OFFSET : Reg := ⟨64, 327708, ⟨1, 1, 1, 1, 1, 1⟩, false, [F.TMB_PPS_OFFSET_VALUE]⟩
def TMB_LOAD : Reg := ⟨65, 327712, ⟨1, 1, 1, 1, 1, 1⟩, true, [F.TMB_LOAD_VALUE]⟩
def TMB_CMD : Reg := ⟨66, 327720, ⟨1, 1, 1, 1, 1, 1⟩, false, [F.TMB_CMD_LOAD_NOW, F.TMB_CMD_LOAD_AT_PPS, F.TMB_CMD_CANCEL_LOAD]⟩
def TMB_EVT : Reg := ⟨67, 327724, ⟨1, 1, 1, 1, 1, 1⟩, false, [F.TMB_EVT_EVT]⟩
def TMB_EVT_EN : Reg := ⟨68, 327728, ⟨1, 1, 1, 1, 1, 1⟩, false, [F.TMB_EVT_EN_EN]⟩
def TMB_LOCK_LOSS_CNT : Reg := ⟨69, 327732, ⟨1, 1, 1, 1, 1, 1⟩, false, [F.TMB_LOCK_LOSS_CNT_COUNT]⟩
def TWN_CTL : Reg := ⟨70, 393216, ⟨1, 1, 1, 1, 1, 1⟩, false, [F.TWN_CTL_EN, F.TWN_CTL_SOLO_OK, F.TWN_CTL_MISS_LIMIT]⟩
def TWN_CMD : Reg := ⟨71, 393220, ⟨1, 1, 1, 1, 1, 1⟩, false, [F.TWN_CMD_RELEASE, F.TWN_CMD_HELLO, F.TWN_CMD_FCG_SYNC, F.TWN_CMD_CLR_COUNTS]⟩
def TWN_STATUS : Reg := ⟨72, 393224, ⟨1, 1, 1, 1, 1, 1⟩, false, [F.TWN_STATUS_STATE, F.TWN_STATUS_LINK_UP, F.TWN_STATUS_FOGHORN_OK, F.TWN_STATUS_TB_ALIGNED, F.TWN_STATUS_DRIVING, F.TWN_STATUS_RANK, F.TWN_STATUS_PEER_RANK, F.TWN_STATUS_HANDOVER_PENDING]⟩
def TWN_EVT : Reg := ⟨73, 393228, ⟨1, 1, 1, 1, 1, 1⟩, false, [F.TWN_EVT_EVT]⟩
def TWN_EVT_EN : Reg := ⟨74, 393232, ⟨1, 1, 1, 1, 1, 1⟩, false, [F.TWN_EVT_EN_EN]⟩
def TWN_HELLO_ERR : Reg := ⟨75, 393236, ⟨1, 1, 1, 1, 1, 1⟩, false, [F.TWN_HELLO_ERR_CODE]⟩
def TWN_PEER_UID : Reg := ⟨76, 393240, ⟨1, 1, 1, 1, 1, 1⟩, true, [F.TWN_PEER_UID_VALUE]⟩
def TWN_CFG_HASH : Reg := ⟨77, 393248, ⟨1, 1, 1, 1, 1, 1⟩, true, [F.TWN_CFG_HASH_VALUE]⟩
def TWN_PEER_CFG_HASH : Reg := ⟨78, 393256, ⟨1, 1, 1, 1, 1, 1⟩, true, [F.TWN_PEER_CFG_HASH_VALUE]⟩
def TWN_PEER_IMG_HASH : Reg := ⟨79, 393264, ⟨1, 1, 1, 1, 1, 1⟩, true, [F.TWN_PEER_IMG_HASH_VALUE]⟩
def TWN_STREAMS : Reg := ⟨80, 393272, ⟨1, 1, 1, 1, 1, 1⟩, true, [F.TWN_STREAMS_MASK]⟩
def TWN_FOG_PERIOD : Reg := ⟨81, 393280, ⟨1, 1, 1, 1, 1, 1⟩, false, [F.TWN_FOG_PERIOD_NS]⟩
def TWN_LINE_TOL : Reg := ⟨82, 393284, ⟨1, 1, 1, 1, 1, 1⟩, false, [F.TWN_LINE_TOL_NS]⟩
def TWN_MATCH : Reg := ⟨83, 393288, ⟨1, 1, 1, 1, 1, 1⟩, false, [F.TWN_MATCH_NS]⟩
def TWN_SEARCH_MS : Reg := ⟨84, 393292, ⟨1, 1, 1, 1, 1, 1⟩, false, [F.TWN_SEARCH_MS_MS]⟩
def TWN_TBSYNC_US : Reg := ⟨85, 393296, ⟨1, 1, 1, 1, 1, 1⟩, false, [F.TWN_TBSYNC_US_US]⟩
def TWN_ASYM : Reg := ⟨86, 393300, ⟨1, 1, 1, 1, 1, 1⟩, false, [F.TWN_ASYM_PS]⟩
def TWN_TB_OFFSET : Reg := ⟨87, 393304, ⟨1, 1, 1, 1, 1, 1⟩, false, [F.TWN_TB_OFFSET_VALUE]⟩
def TWN_LINK_DLY : Reg := ⟨88, 393308, ⟨1, 1, 1, 1, 1, 1⟩, false, [F.TWN_LINK_DLY_VALUE]⟩
def TWN_GAP_START : Reg := ⟨89, 393312, ⟨1, 1, 1, 1, 1, 1⟩, true, [F.TWN_GAP_START_VALUE]⟩
def TWN_TAKEOVER_TB : Reg := ⟨90, 393320, ⟨1, 1, 1, 1, 1, 1⟩, true, [F.TWN_TAKEOVER_TB_VALUE]⟩
def TWN_FOG_SEQ : Reg := ⟨91, 393328, ⟨1, 1, 1, 1, 1, 1⟩, false, [F.TWN_FOG_SEQ_TX, F.TWN_FOG_SEQ_RX]⟩
def TWN_FOG_MISSED : Reg := ⟨92, 393344, ⟨1, 1, 1, 1, 1, 1⟩, false, [F.TWN_FOG_MISSED_COUNT]⟩
def TWN_LINE_MISS : Reg := ⟨93, 393348, ⟨1, 1, 1, 1, 1, 1⟩, false, [F.TWN_LINE_MISS_COUNT]⟩
def TWN_TAKEOVERS : Reg := ⟨94, 393352, ⟨1, 1, 1, 1, 1, 1⟩, false, [F.TWN_TAKEOVERS_COUNT]⟩
def TWN_FIGHTS : Reg := ⟨95, 393356, ⟨1, 1, 1, 1, 1, 1⟩, false, [F.TWN_FIGHTS_COUNT]⟩
def TWN_SEQ_MISMATCH : Reg := ⟨96, 393360, ⟨1, 1, 1, 1, 1, 1⟩, false, [F.TWN_SEQ_MISMATCH_COUNT]⟩
def TWN_TRIG_MISMATCH : Reg := ⟨97, 393364, ⟨1, 1, 1, 1, 1, 1⟩, false, [F.TWN_TRIG_MISMATCH_COUNT]⟩
def TWN_PKT_ERR : Reg := ⟨98, 393368, ⟨1, 1, 1, 1, 1, 1⟩, false, [F.TWN_PKT_ERR_COUNT]⟩
def TWN_TX_DROP : Reg := ⟨99, 393372, ⟨1, 1, 1, 1, 1, 1⟩, false, [F.TWN_TX_DROP_COUNT]⟩
def TWN_MBX_NAK : Reg := ⟨100, 393376, ⟨1, 1, 1, 1, 1, 1⟩, false, [F.TWN_MBX_NAK_COUNT]⟩
def TWN_PROD_CFG : Reg := ⟨101, 393472, ⟨8, 4, 1, 1, 1, 1⟩, false, [F.TWN_PROD_CFG_SRC, F.TWN_PROD_CFG_CH, F.TWN_PROD_CFG_EN]⟩
def TWN_RX_EQ : Reg := ⟨102, 394240, ⟨1, 1, 1, 1, 1, 1⟩, false, [F.TWN_RX_EQ_CTLE, F.TWN_RX_EQ_PHASE]⟩
def TWN_RX_FOM : Reg := ⟨103, 394244, ⟨1, 1, 1, 1, 1, 1⟩, false, [F.TWN_RX_FOM_FOM, F.TWN_RX_FOM_DIP]⟩
def TWN_RX_CODE_ERR : Reg := ⟨104, 394248, ⟨1, 1, 1, 1, 1, 1⟩, false, [F.TWN_RX_CODE_ERR_COUNT]⟩
def TWN_RX_CTRL_ERR : Reg := ⟨105, 394252, ⟨1, 1, 1, 1, 1, 1⟩, false, [F.TWN_RX_CTRL_ERR_COUNT]⟩
def TWN_RX_MARKER_ERR : Reg := ⟨106, 394256, ⟨1, 1, 1, 1, 1, 1⟩, false, [F.TWN_RX_MARKER_ERR_COUNT]⟩
def TWN_RX_LOCK_LOSS : Reg := ⟨107, 394260, ⟨1, 1, 1, 1, 1, 1⟩, false, [F.TWN_RX_LOCK_LOSS_COUNT]⟩
def TWN_RX_PRBS_CFG : Reg := ⟨108, 394264, ⟨1, 1, 1, 1, 1, 1⟩, false, [F.TWN_RX_PRBS_CFG_EN, F.TWN_RX_PRBS_CFG_SEL, F.TWN_RX_PRBS_CFG_LOCKED, F.TWN_RX_PRBS_CFG_CLR]⟩
def TWN_RX_PRBS_ERR : Reg := ⟨109, 394272, ⟨1, 1, 1, 1, 1, 1⟩, true, [F.TWN_RX_PRBS_ERR_COUNT]⟩
def TWN_RX_PRBS_BITS : Reg := ⟨110, 394280, ⟨1, 1, 1, 1, 1, 1⟩, true, [F.TWN_RX_PRBS_BITS_COUNT]⟩
def TWN_RX_CFG : Reg := ⟨111, 394304, ⟨1, 1, 1, 1, 1, 1⟩, false, [F.TWN_RX_CFG_INVERT, F.TWN_RX_CFG_AUTO, F.TWN_RX_CFG_PHASE_AUTO, F.TWN_RX_CFG_FOM_ALARM]⟩
def TWN_RX_STATUS : Reg := ⟨112, 394308, ⟨1, 1, 1, 1, 1, 1⟩, false, [F.TWN_RX_STATUS_STATE, F.TWN_RX_STATUS_LINK_UP, F.TWN_RX_STATUS_CLK_PRESENT]⟩
def TWN_TX_CFG : Reg := ⟨113, 394312, ⟨1, 1, 1, 1, 1, 1⟩, false, [F.TWN_TX_CFG_PRBS_EN, F.TWN_TX_CFG_PRBS_SEL, F.TWN_TX_CFG_INJ_ONE, F.TWN_TX_CFG_INJ_EXP, F.TWN_TX_CFG_DEEMPH, F.TWN_TX_CFG_SWING]⟩
def TWN_TX_INJ_CNT : Reg := ⟨114, 394316, ⟨1, 1, 1, 1, 1, 1⟩, false, [F.TWN_TX_INJ_CNT_COUNT]⟩
def ENC_CFG : Reg := ⟨115, 524288, ⟨4, 4096, 1, 1, 1, 1⟩, false, [F.ENC_CFG_MODE, F.ENC_CFG_INVERT_DIR, F.ENC_CFG_LEVEL, F.ENC_CFG_AUTO_FILTER, F.ENC_CFG_Z_POL, F.ENC_CFG_FILTER_N, F.ENC_CFG_INDEX_GATE]⟩
def ENC_MAXRATE : Reg := ⟨116, 524292, ⟨4, 4096, 1, 1, 1, 1⟩, false, [F.ENC_MAXRATE_RATE]⟩
def ENC_STATUS : Reg := ⟨117, 524296, ⟨4, 4096, 1, 1, 1, 1⟩, false, [F.ENC_STATUS_ABZ, F.ENC_STATUS_DIR, F.ENC_STATUS_SPEED_VALID, F.ENC_STATUS_LOST, F.ENC_STATUS_FROZEN, F.ENC_STATUS_FAULT_ACTIVE, F.ENC_STATUS_Z_REVERSED, F.ENC_STATUS_IDX_REF, F.ENC_STATUS_SSI_BUSY, F.ENC_STATUS_SSI_WARN, F.ENC_STATUS_CHECKS_ARMED]⟩
def ENC_EVT : Reg := ⟨118, 524300, ⟨4, 4096, 1, 1, 1, 1⟩, false, [F.ENC_EVT_EVT]⟩
def ENC_EVT_EN : Reg := ⟨119, 524304, ⟨4, 4096, 1, 1, 1, 1⟩, false, [F.ENC_EVT_EN_EN]⟩
def ENC_CMD : Reg := ⟨120, 524308, ⟨4, 4096, 1, 1, 1, 1⟩, false, [F.ENC_CMD_LOAD_PRESET, F.ENC_CMD_CLR_COUNTS, F.ENC_CMD_RESTART_SPEED, F.ENC_CMD_CLR_IDX_REF]⟩
def ENC_POS : Reg := ⟨121, 524312, ⟨4, 4096, 1, 1, 1, 1⟩, true, [F.ENC_POS_VALUE]⟩
def ENC_PRESET : Reg := ⟨122, 524320, ⟨4, 4096, 1, 1, 1, 1⟩, true, [F.ENC_PRESET_VALUE]⟩
def ENC_LAST_TB : Reg := ⟨123, 524328, ⟨4, 4096, 1, 1, 1, 1⟩, true, [F.ENC_LAST_TB_VALUE]⟩
def ENC_INTERVAL : Reg := ⟨124, 524336, ⟨4, 4096, 1, 1, 1, 1⟩, false, [F.ENC_INTERVAL_VALUE]⟩
def ENC_SPEED : Reg := ⟨125, 524340, ⟨4, 4096, 1, 1, 1, 1⟩, false, [F.ENC_SPEED_VALUE]⟩
def ENC_MEAS_CFG : Reg := ⟨126, 524344, ⟨4, 4096, 1, 1, 1, 1⟩, false, [F.ENC_MEAS_CFG_LOST_EN, F.ENC_MEAS_CFG_FROZEN_EN, F.ENC_MEAS_CFG_MOTION_EXPECTED, F.ENC_MEAS_CFG_K, F.ENC_MEAS_CFG_M, F.ENC_MEAS_CFG_AVG_M1]⟩
def ENC_IDX_POS : Reg := ⟨127, 524352, ⟨4, 4096, 1, 1, 1, 1⟩, true, [F.ENC_IDX_POS_VALUE]⟩
def ENC_IDX_TB : Reg := ⟨128, 524360, ⟨4, 4096, 1, 1, 1, 1⟩, true, [F.ENC_IDX_TB_VALUE]⟩
def ENC_IDX_PERIOD : Reg := ⟨129, 524368, ⟨4, 4096, 1, 1, 1, 1⟩, false, [F.ENC_IDX_PERIOD_VALUE]⟩
def ENC_IDX_TOL : Reg := ⟨130, 524372, ⟨4, 4096, 1, 1, 1, 1⟩, false, [F.ENC_IDX_TOL_VALUE]⟩
def ENC_IDX_DRIFT : Reg := ⟨131, 524376, ⟨4, 4096, 1, 1, 1, 1⟩, false, [F.ENC_IDX_DRIFT_VALUE]⟩
def ENC_QUAD_ERR : Reg := ⟨132, 524384, ⟨4, 4096, 1, 1, 1, 1⟩, false, [F.ENC_QUAD_ERR_COUNT]⟩
def ENC_OVERSPEED : Reg := ⟨133, 524388, ⟨4, 4096, 1, 1, 1, 1⟩, false, [F.ENC_OVERSPEED_COUNT]⟩
def ENC_DRIFT_CNT : Reg := ⟨134, 524392, ⟨4, 4096, 1, 1, 1, 1⟩, false, [F.ENC_DRIFT_CNT_COUNT]⟩
def ENC_LOST_CNT : Reg := ⟨135, 524396, ⟨4, 4096, 1, 1, 1, 1⟩, false, [F.ENC_LOST_CNT_COUNT]⟩
def ENC_FROZEN_CNT : Reg := ⟨136, 524400, ⟨4, 4096, 1, 1, 1, 1⟩, false, [F.ENC_FROZEN_CNT_COUNT]⟩
def ENC_SSI_CRC_CNT : Reg := ⟨137, 524404, ⟨4, 4096, 1, 1, 1, 1⟩, false, [F.ENC_SSI_CRC_CNT_COUNT]⟩
def ENC_SSI_ERR_CNT : Reg := ⟨138, 524408, ⟨4, 4096, 1, 1, 1, 1⟩, false, [F.ENC_SSI_ERR_CNT_COUNT]⟩
def ENC_SSI_WARN_CNT : Reg := ⟨139, 524412, ⟨4, 4096, 1, 1, 1, 1⟩, false, [F.ENC_SSI_WARN_CNT_COUNT]⟩
def ENC_SSI_TIMEOUT_CNT : Reg := ⟨140, 524416, ⟨4, 4096, 1, 1, 1, 1⟩, false, [F.ENC_SSI_TIMEOUT_CNT_COUNT]⟩
def ENC_SSI_SKIP_CNT : Reg := ⟨141, 524420, ⟨4, 4096, 1, 1, 1, 1⟩, false, [F.ENC_SSI_SKIP_CNT_COUNT]⟩
def ENC_SSI_FRAME : Reg := ⟨142, 524480, ⟨4, 4096, 1, 1, 1, 1⟩, false, [F.ENC_SSI_FRAME_WLEN, F.ENC_SSI_FRAME_POS_LSB, F.ENC_SSI_FRAME_POS_BITS, F.ENC_SSI_FRAME_GRAY, F.ENC_SSI_FRAME_PRESET]⟩
def ENC_SSI_STAT : Reg := ⟨143, 524484, ⟨4, 4096, 1, 1, 1, 1⟩, false, [F.ENC_SSI_STAT_ERR_BIT, F.ENC_SSI_STAT_ERR_EN, F.ENC_SSI_STAT_ERR_LOW, F.ENC_SSI_STAT_WARN_BIT, F.ENC_SSI_STAT_WARN_EN, F.ENC_SSI_STAT_WARN_LOW]⟩
def ENC_SSI_CRC : Reg := ⟨144, 524488, ⟨4, 4096, 1, 1, 1, 1⟩, false, [F.ENC_SSI_CRC_POLY, F.ENC_SSI_CRC_LEN]⟩
def ENC_SSI_CRC_INIT : Reg := ⟨145, 524492, ⟨4, 4096, 1, 1, 1, 1⟩, false, [F.ENC_SSI_CRC_INIT_INIT, F.ENC_SSI_CRC_INIT_XOROUT]⟩
def ENC_SSI_TIMING : Reg := ⟨146, 524496, ⟨4, 4096, 1, 1, 1, 1⟩, false, [F.ENC_SSI_TIMING_CLKDIV, F.ENC_SSI_TIMING_DELAY, F.ENC_SSI_TIMING_TIMEOUT_US]⟩
def ENC_SSI_PERIOD : Reg := ⟨147, 524500, ⟨4, 4096, 1, 1, 1, 1⟩, false, [F.ENC_SSI_PERIOD_PERIOD]⟩
def ENC_SSI_RAW : Reg := ⟨148, 524504, ⟨4, 4096, 1, 1, 1, 1⟩, true, [F.ENC_SSI_RAW_WORD]⟩
def ENC_IRQ_SUM : Reg := ⟨149, 540672, ⟨1, 1, 1, 1, 1, 1⟩, false, [F.ENC_IRQ_SUM_SUM]⟩
def ENC_LIST_PAGE : Reg := ⟨150, 540676, ⟨1, 1, 1, 1, 1, 1⟩, false, [F.ENC_LIST_PAGE_PAGE]⟩
def PO_CFG : Reg := ⟨151, 544768, ⟨2, 256, 1, 1, 1, 1⟩, false, [F.PO_CFG_EN, F.PO_CFG_SRC, F.PO_CFG_PAIR, F.PO_CFG_FORMAT, F.PO_CFG_INVERT]⟩
def PO_RATIO : Reg := ⟨152, 544772, ⟨2, 256, 1, 1, 1, 1⟩, false, [F.PO_RATIO_M, F.PO_RATIO_N]⟩
def PO_SPACING : Reg := ⟨153, 544776, ⟨2, 256, 1, 1, 1, 1⟩, false, [F.PO_SPACING_SPACING_NS]⟩
def PO_STATUS : Reg := ⟨154, 544780, ⟨2, 256, 1, 1, 1, 1⟩, false, [F.PO_STATUS_BACKLOG, F.PO_STATUS_OVERFLOW, F.PO_STATUS_CFG_ERR, F.PO_STATUS_RUNNING]⟩
def PO_ACC : Reg := ⟨155, 544784, ⟨2, 256, 1, 1, 1, 1⟩, false, [F.PO_ACC_A]⟩
def PO_LOST : Reg := ⟨156, 544788, ⟨2, 256, 1, 1, 1, 1⟩, false, [F.PO_LOST_COUNT]⟩
def PO_OUT : Reg := ⟨157, 544792, ⟨2, 256, 1, 1, 1, 1⟩, true, [F.PO_OUT_VALUE]⟩
def CMP_CFG : Reg := ⟨158, 548864, ⟨16, 256, 1, 1, 1, 1⟩, false, [F.CMP_CFG_SRC, F.CMP_CFG_CYCLIC]⟩
def CMP_BASE : Reg := ⟨159, 548868, ⟨16, 256, 1, 1, 1, 1⟩, false, [F.CMP_BASE_BASE]⟩
def CMP_LEN : Reg := ⟨160, 548872, ⟨16, 256, 1, 1, 1, 1⟩, false, [F.CMP_LEN_LEN]⟩
def CMP_CMD : Reg := ⟨161, 548876, ⟨16, 256, 1, 1, 1, 1⟩, false, [F.CMP_CMD_ARM, F.CMP_CMD_DISARM, F.CMP_CMD_CLR_COUNTS]⟩
def CMP_OFFSET : Reg := ⟨162, 548880, ⟨16, 256, 1, 1, 1, 1⟩, true, [F.CMP_OFFSET_VALUE]⟩
def CMP_PERIOD : Reg := ⟨163, 548888, ⟨16, 256, 1, 1, 1, 1⟩, true, [F.CMP_PERIOD_VALUE]⟩
def CMP_CUR_OFFSET : Reg := ⟨164, 548896, ⟨16, 256, 1, 1, 1, 1⟩, true, [F.CMP_CUR_OFFSET_VALUE]⟩
def CMP_STATUS : Reg := ⟨165, 548904, ⟨16, 256, 1, 1, 1, 1⟩, false, [F.CMP_STATUS_ARMED, F.CMP_STATUS_DONE]⟩
def CMP_PTR : Reg := ⟨166, 548908, ⟨16, 256, 1, 1, 1, 1⟩, false, [F.CMP_PTR_PTR]⟩
def CMP_EVT : Reg := ⟨167, 548912, ⟨16, 256, 1, 1, 1, 1⟩, false, [F.CMP_EVT_EVT]⟩
def CMP_EVT_EN : Reg := ⟨168, 548916, ⟨16, 256, 1, 1, 1, 1⟩, false, [F.CMP_EVT_EN_EN]⟩
def CMP_MATCHES : Reg := ⟨169, 548920, ⟨16, 256, 1, 1, 1, 1⟩, false, [F.CMP_MATCHES_COUNT]⟩
def CMP_AGAINST : Reg := ⟨170, 548924, ⟨16, 256, 1, 1, 1, 1⟩, false, [F.CMP_AGAINST_COUNT]⟩
def CMP_SKIPPED : Reg := ⟨171, 548928, ⟨16, 256, 1, 1, 1, 1⟩, false, [F.CMP_SKIPPED_COUNT]⟩
def CMP_CATCHUP : Reg := ⟨172, 548932, ⟨16, 256, 1, 1, 1, 1⟩, false, [F.CMP_CATCHUP_COUNT]⟩
def CMP_LAST_TB : Reg := ⟨173, 548936, ⟨16, 256, 1, 1, 1, 1⟩, true, [F.CMP_LAST_TB_VALUE]⟩
def CMP_LAST : Reg := ⟨174, 548944, ⟨16, 256, 1, 1, 1, 1⟩, false, [F.CMP_LAST_TAG, F.CMP_LAST_DIR, F.CMP_LAST_ENTRY]⟩
def FCG_CFG : Reg := ⟨175, 655360, ⟨4, 4096, 1, 1, 1, 1⟩, false, [F.FCG_CFG_MODE, F.FCG_CFG_SRC_ENC, F.FCG_CFG_CMP_SEL, F.FCG_CFG_PKT_ALIGN, F.FCG_CFG_START_AT_TB, F.FCG_CFG_HOLD_POLICY, F.FCG_CFG_PHASE_SHIFT]⟩
def FCG_CMD : Reg := ⟨176, 655364, ⟨4, 4096, 1, 1, 1, 1⟩, false, [F.FCG_CMD_START, F.FCG_CMD_STOP, F.FCG_CMD_CLR_COUNTS]⟩
def FCG_PERIOD : Reg := ⟨177, 655368, ⟨4, 4096, 1, 1, 1, 1⟩, true, [F.FCG_PERIOD_VALUE]⟩
def FCG_START_TB : Reg := ⟨178, 655376, ⟨4, 4096, 1, 1, 1, 1⟩, true, [F.FCG_START_TB_VALUE]⟩
def FCG_PORTS : Reg := ⟨179, 655384, ⟨4, 4096, 1, 1, 1, 1⟩, false, [F.FCG_PORTS_PORTS]⟩
def FCG_C : Reg := ⟨180, 655388, ⟨4, 4096, 1, 1, 1, 1⟩, false, [F.FCG_C_C]⟩
def FCG_FMIN : Reg := ⟨181, 655392, ⟨4, 4096, 1, 1, 1, 1⟩, false, [F.FCG_FMIN_VALUE]⟩
def FCG_FMAX : Reg := ⟨182, 655396, ⟨4, 4096, 1, 1, 1, 1⟩, false, [F.FCG_FMAX_VALUE]⟩
def FCG_FSAFE : Reg := ⟨183, 655400, ⟨4, 4096, 1, 1, 1, 1⟩, false, [F.FCG_FSAFE_VALUE]⟩
def FCG_SLEW : Reg := ⟨184, 655404, ⟨4, 4096, 1, 1, 1, 1⟩, false, [F.FCG_SLEW_VALUE]⟩
def FCG_HOLD_TIME : Reg := ⟨185, 655408, ⟨4, 4096, 1, 1, 1, 1⟩, false, [F.FCG_HOLD_TIME_US]⟩
def FCG_PRETRIG : Reg := ⟨186, 655412, ⟨4, 4096, 1, 1, 1, 1⟩, false, [F.FCG_PRETRIG_NS]⟩
def FCG_CONFIRM : Reg := ⟨187, 655416, ⟨4, 4096, 1, 1, 1, 1⟩, false, [F.FCG_CONFIRM_NS]⟩
def FCG_LIST_DELAY : Reg := ⟨188, 655420, ⟨4, 4096, 1, 1, 1, 1⟩, false, [F.FCG_LIST_DELAY_NS]⟩
def FCG_LOCK_TOL : Reg := ⟨189, 655424, ⟨4, 4096, 1, 1, 1, 1⟩, false, [F.FCG_LOCK_TOL_NS]⟩
def FCG_STATUS : Reg := ⟨190, 655432, ⟨4, 4096, 1, 1, 1, 1⟩, false, [F.FCG_STATUS_LOOP, F.FCG_STATUS_PHASE_LOCKED, F.FCG_STATUS_RAMPING, F.FCG_STATUS_RAMP_DOWN, F.FCG_STATUS_CLAMPED, F.FCG_STATUS_OPEN_WINDOWS]⟩
def FCG_RATE : Reg := ⟨191, 655440, ⟨4, 4096, 1, 1, 1, 1⟩, true, [F.FCG_RATE_VALUE]⟩
def FCG_SETPOINT : Reg := ⟨192, 655448, ⟨4, 4096, 1, 1, 1, 1⟩, true, [F.FCG_SETPOINT_VALUE]⟩
def FCG_NEXT_TB : Reg := ⟨193, 655456, ⟨4, 4096, 1, 1, 1, 1⟩, true, [F.FCG_NEXT_TB_VALUE]⟩
def FCG_LAST_TB : Reg := ⟨194, 655464, ⟨4, 4096, 1, 1, 1, 1⟩, true, [F.FCG_LAST_TB_VALUE]⟩
def FCG_TRIG_ID : Reg := ⟨195, 655472, ⟨4, 4096, 1, 1, 1, 1⟩, false, [F.FCG_TRIG_ID_VALUE]⟩
def FCG_PHASE_ERR : Reg := ⟨196, 655476, ⟨4, 4096, 1, 1, 1, 1⟩, false, [F.FCG_PHASE_ERR_VALUE]⟩
def FCG_EVT : Reg := ⟨197, 655480, ⟨4, 4096, 1, 1, 1, 1⟩, false, [F.FCG_EVT_EVT]⟩
def FCG_EVT_EN : Reg := ⟨198, 655484, ⟨4, 4096, 1, 1, 1, 1⟩, false, [F.FCG_EVT_EN_EN]⟩
def FCG_TRIGGERS : Reg := ⟨199, 655488, ⟨4, 4096, 1, 1, 1, 1⟩, false, [F.FCG_TRIGGERS_COUNT]⟩
def FCG_UNCONF : Reg := ⟨200, 655492, ⟨4, 4096, 1, 1, 1, 1⟩, false, [F.FCG_UNCONF_COUNT]⟩
def FCG_HELD : Reg := ⟨201, 655496, ⟨4, 4096, 1, 1, 1, 1⟩, false, [F.FCG_HELD_COUNT]⟩
def FCG_LATE : Reg := ⟨202, 655500, ⟨4, 4096, 1, 1, 1, 1⟩, false, [F.FCG_LATE_COUNT]⟩
def FCG_CLAMPS : Reg := ⟨203, 655504, ⟨4, 4096, 1, 1, 1, 1⟩, false, [F.FCG_CLAMPS_COUNT]⟩
def FCG_TURNS : Reg := ⟨204, 655508, ⟨4, 4096, 1, 1, 1, 1⟩, false, [F.FCG_TURNS_COUNT]⟩
def FCG_STRAY : Reg := ⟨205, 655512, ⟨4, 4096, 1, 1, 1, 1⟩, false, [F.FCG_STRAY_COUNT]⟩
def FCG_SLIPS : Reg := ⟨206, 655516, ⟨4, 4096, 1, 1, 1, 1⟩, false, [F.FCG_SLIPS_COUNT]⟩
def FCG_IRQ_SUM : Reg := ⟨207, 671744, ⟨1, 1, 1, 1, 1, 1⟩, false, [F.FCG_IRQ_SUM_SUM]⟩
def TRG_CFG : Reg := ⟨208, 720896, ⟨16, 256, 1, 1, 1, 1⟩, false, [F.TRG_CFG_MODE, F.TRG_CFG_POL, F.TRG_CFG_POLICY, F.TRG_CFG_SRC, F.TRG_CFG_FCG_SEL, F.TRG_CFG_LEVEL, F.TRG_CFG_TWIN, F.TRG_CFG_BCN_CH]⟩
def TRG_DELAY : Reg := ⟨209, 720900, ⟨16, 256, 1, 1, 1, 1⟩, false, [F.TRG_DELAY_NS]⟩
def TRG_WIDTH : Reg := ⟨210, 720904, ⟨16, 256, 1, 1, 1, 1⟩, false, [F.TRG_WIDTH_NS]⟩
def TRG_FLOOR : Reg := ⟨211, 720908, ⟨16, 256, 1, 1, 1, 1⟩, false, [F.TRG_FLOOR_FLOOR, F.TRG_FLOOR_EFF_MIN]⟩
def TRG_STATUS : Reg := ⟨212, 720912, ⟨16, 256, 1, 1, 1, 1⟩, false, [F.TRG_STATUS_PENDING, F.TRG_STATUS_ACTIVE, F.TRG_STATUS_PIN, F.TRG_STATUS_DARK, F.TRG_STATUS_DRIVING]⟩
def TRG_EVT : Reg := ⟨213, 720916, ⟨16, 256, 1, 1, 1, 1⟩, false, [F.TRG_EVT_EVT]⟩
def TRG_EVT_EN : Reg := ⟨214, 720920, ⟨16, 256, 1, 1, 1, 1⟩, false, [F.TRG_EVT_EN_EN]⟩
def TRG_CMD : Reg := ⟨215, 720924, ⟨16, 256, 1, 1, 1, 1⟩, false, [F.TRG_CMD_CLR_COUNTS]⟩
def TRG_LAST_TB : Reg := ⟨216, 720928, ⟨16, 256, 1, 1, 1, 1⟩, true, [F.TRG_LAST_TB_VALUE]⟩
def TRG_PULSES : Reg := ⟨217, 720944, ⟨16, 256, 1, 1, 1, 1⟩, false, [F.TRG_PULSES_COUNT]⟩
def TRG_SHORT_STRETCHED : Reg := ⟨218, 720948, ⟨16, 256, 1, 1, 1, 1⟩, false, [F.TRG_SHORT_STRETCHED_COUNT]⟩
def TRG_SHORT_DROPPED : Reg := ⟨219, 720952, ⟨16, 256, 1, 1, 1, 1⟩, false, [F.TRG_SHORT_DROPPED_COUNT]⟩
def TRG_LATE : Reg := ⟨220, 720956, ⟨16, 256, 1, 1, 1, 1⟩, false, [F.TRG_LATE_COUNT]⟩
def TRG_OVERLAP : Reg := ⟨221, 720960, ⟨16, 256, 1, 1, 1, 1⟩, false, [F.TRG_OVERLAP_COUNT]⟩
def TRG_FULL : Reg := ⟨222, 720964, ⟨16, 256, 1, 1, 1, 1⟩, false, [F.TRG_FULL_COUNT]⟩
def TRG_DARK_DROP : Reg := ⟨223, 720968, ⟨16, 256, 1, 1, 1, 1⟩, false, [F.TRG_DARK_DROP_COUNT]⟩
def TRG_PAIR_CFG : Reg := ⟨224, 724992, ⟨8, 16, 1, 1, 1, 1⟩, false, [F.TRG_PAIR_CFG_EN, F.TRG_PAIR_CFG_DEAD_NS]⟩
def TRG_PAIR_SUPPRESSED : Reg := ⟨225, 724996, ⟨8, 16, 1, 1, 1, 1⟩, false, [F.TRG_PAIR_SUPPRESSED_COUNT]⟩
def TRG_IRQ_SUM : Reg := ⟨226, 729088, ⟨1, 1, 1, 1, 1, 1⟩, false, [F.TRG_IRQ_SUM_SUM]⟩
def FIO_CH_CFG : Reg := ⟨227, 786432, ⟨48, 32, 1, 1, 1, 1⟩, false, [F.FIO_CH_CFG_DARK_LEVEL, F.FIO_CH_CFG_OPEN_EN, F.FIO_CH_CFG_OPEN_REPORT_ONLY, F.FIO_CH_CFG_TERM, F.FIO_CH_CFG_IDLE_CHK, F.FIO_CH_CFG_IDLE_POL, F.FIO_CH_CFG_PROD, F.FIO_CH_CFG_PROD_EN, F.FIO_CH_CFG_IDLE_WIN_MS]⟩
def FIO_CH_STAT : Reg := ⟨228, 786436, ⟨48, 32, 1, 1, 1, 1⟩, false, [F.FIO_CH_STAT_KINDS, F.FIO_CH_STAT_DARK, F.FIO_CH_STAT_DARK_CAUSE, F.FIO_CH_STAT_ARMING, F.FIO_CH_STAT_PARTNER]⟩
def FIO_CH_LATCH : Reg := ⟨229, 786440, ⟨48, 32, 1, 1, 1, 1⟩, false, [F.FIO_CH_LATCH_KINDS]⟩
def FIO_CH_CNT : Reg := ⟨230, 786444, ⟨48, 32, 1, 1, 1, 1⟩, false, [F.FIO_CH_CNT_COUNT]⟩
def FIO_ARM : Reg := ⟨231, 790528, ⟨1, 1, 1, 1, 1, 1⟩, true, [F.FIO_ARM_CH]⟩
def FIO_DARK : Reg := ⟨232, 790536, ⟨1, 1, 1, 1, 1, 1⟩, true, [F.FIO_DARK_CH]⟩
def FIO_VF_STAT : Reg := ⟨233, 790544, ⟨1, 1, 1, 1, 1, 1⟩, false, [F.FIO_VF_STAT_OK, F.FIO_VF_STAT_FAULT, F.FIO_VF_STAT_LEVEL]⟩
def FIO_EVT : Reg := ⟨234, 790548, ⟨1, 1, 1, 1, 1, 1⟩, false, [F.FIO_EVT_EVT]⟩
def FIO_EVT_EN : Reg := ⟨235, 790552, ⟨1, 1, 1, 1, 1, 1⟩, false, [F.FIO_EVT_EN_EN]⟩
def FIO_CMD : Reg := ⟨236, 790556, ⟨1, 1, 1, 1, 1, 1⟩, false, [F.FIO_CMD_CLR_COUNTS]⟩
def FIO_GIN_CFG : Reg := ⟨237, 790784, ⟨8, 4, 1, 1, 1, 1⟩, false, [F.FIO_GIN_CFG_LEVEL, F.FIO_GIN_CFG_EDGE, F.FIO_GIN_CFG_PROD_EN, F.FIO_GIN_CFG_FILTER_US]⟩
def FIO_GIN_STAT : Reg := ⟨238, 790816, ⟨1, 1, 1, 1, 1, 1⟩, false, [F.FIO_GIN_STAT_LEVELS]⟩
def PRT_CFG : Reg := ⟨239, 1048576, ⟨8, 65536, 1, 1, 1, 1⟩, false, [F.PRT_CFG_EN, F.PRT_CFG_GEN, F.PRT_CFG_LANES, F.PRT_CFG_RATE, F.PRT_CFG_MB_REQ_EN, F.PRT_CFG_LANE_MAP, F.PRT_CFG_INVERT]⟩
def PRT_CMD : Reg := ⟨240, 1048580, ⟨8, 65536, 1, 1, 1, 1⟩, false, [F.PRT_CMD_RESTART, F.PRT_CMD_HOLD_ENTER, F.PRT_CMD_HOLD_EXIT, F.PRT_CMD_DEEP_ENTER, F.PRT_CMD_DEEP_EXIT, F.PRT_CMD_FORCE, F.PRT_CMD_CLR_COUNTS, F.PRT_CMD_SELFTEST]⟩
def PRT_STATUS : Reg := ⟨241, 1048584, ⟨8, 65536, 1, 1, 1, 1⟩, false, [F.PRT_STATUS_STATE, F.PRT_STATUS_LINK_UP, F.PRT_STATUS_CLK_PRESENT, F.PRT_STATUS_ENTRY_PENDING, F.PRT_STATUS_START_MARKERS, F.PRT_STATUS_LANE_LOCK, F.PRT_STATUS_PEER_ID]⟩
def PRT_EVT : Reg := ⟨242, 1048588, ⟨8, 65536, 1, 1, 1, 1⟩, false, [F.PRT_EVT_EVT]⟩
def PRT_EVT_EN : Reg := ⟨243, 1048592, ⟨8, 65536, 1, 1, 1, 1⟩, false, [F.PRT_EVT_EN_EN]⟩
def PRT_PWR_CFG : Reg := ⟨244, 1048596, ⟨8, 65536, 1, 1, 1, 1⟩, false, [F.PRT_PWR_CFG_WAKE_ON_TRIGGER, F.PRT_PWR_CFG_AUTO_HOLD, F.PRT_PWR_CFG_WAKE_BCN_EN, F.PRT_PWR_CFG_WAKE_BCN_CH]⟩
def PRT_EQ_CFG : Reg := ⟨245, 1048600, ⟨8, 65536, 1, 1, 1, 1⟩, false, [F.PRT_EQ_CFG_AUTO, F.PRT_EQ_CFG_PHASE_AUTO, F.PRT_EQ_CFG_FOM_ALARM]⟩
def PRT_FCK_FREQ : Reg := ⟨246, 1048604, ⟨8, 65536, 1, 1, 1, 1⟩, false, [F.PRT_FCK_FREQ_KHZ]⟩
def PRT_LINKUP_NS : Reg := ⟨247, 1048608, ⟨8, 65536, 1, 1, 1, 1⟩, false, [F.PRT_LINKUP_NS_NS]⟩
def PRT_LINKS : Reg := ⟨248, 1048612, ⟨8, 65536, 1, 1, 1, 1⟩, false, [F.PRT_LINKS_COUNT]⟩
def PRT_DOWNS : Reg := ⟨249, 1048616, ⟨8, 65536, 1, 1, 1, 1⟩, false, [F.PRT_DOWNS_COUNT]⟩
def PRT_RETRIES : Reg := ⟨250, 1048620, ⟨8, 65536, 1, 1, 1, 1⟩, false, [F.PRT_RETRIES_COUNT]⟩
def PRT_CLK_LOSSES : Reg := ⟨251, 1048624, ⟨8, 65536, 1, 1, 1, 1⟩, false, [F.PRT_CLK_LOSSES_COUNT]⟩
def PRT_SELFTEST : Reg := ⟨252, 1048628, ⟨8, 65536, 1, 1, 1, 1⟩, false, [F.PRT_SELFTEST_PASS, F.PRT_SELFTEST_DONE, F.PRT_SELFTEST_REFUSED]⟩
def PRT_UL_CFG : Reg := ⟨253, 1048640, ⟨8, 65536, 1, 1, 1, 1⟩, false, [F.PRT_UL_CFG_EN, F.PRT_UL_CFG_PRBS_EN, F.PRT_UL_CFG_PRBS_SEL, F.PRT_UL_CFG_INJ_ONE, F.PRT_UL_CFG_INJ_EXP]⟩
def PRT_UL_STATUS : Reg := ⟨254, 1048644, ⟨8, 65536, 1, 1, 1, 1⟩, false, [F.PRT_UL_STATUS_RUNNING]⟩
def PRT_UL_PREEMPT : Reg := ⟨255, 1048648, ⟨8, 65536, 1, 1, 1, 1⟩, false, [F.PRT_UL_PREEMPT_COUNT]⟩
def PRT_UL_INJ_CNT : Reg := ⟨256, 1048652, ⟨8, 65536, 1, 1, 1, 1⟩, false, [F.PRT_UL_INJ_CNT_COUNT]⟩
def PRT_LANE_EQ : Reg := ⟨257, 1048832, ⟨8, 65536, 4, 64, 1, 1⟩, false, [F.PRT_LANE_EQ_CTLE, F.PRT_LANE_EQ_PHASE]⟩
def PRT_LANE_FOM : Reg := ⟨258, 1048836, ⟨8, 65536, 4, 64, 1, 1⟩, false, [F.PRT_LANE_FOM_FOM, F.PRT_LANE_FOM_DIP]⟩
def PRT_LANE_CODE_ERR : Reg := ⟨259, 1048840, ⟨8, 65536, 4, 64, 1, 1⟩, false, [F.PRT_LANE_CODE_ERR_COUNT]⟩
def PRT_LANE_CTRL_ERR : Reg := ⟨260, 1048844, ⟨8, 65536, 4, 64, 1, 1⟩, false, [F.PRT_LANE_CTRL_ERR_COUNT]⟩
def PRT_LANE_MARKER_ERR : Reg := ⟨261, 1048848, ⟨8, 65536, 4, 64, 1, 1⟩, false, [F.PRT_LANE_MARKER_ERR_COUNT]⟩
def PRT_LANE_LOCK_LOSS : Reg := ⟨262, 1048852, ⟨8, 65536, 4, 64, 1, 1⟩, false, [F.PRT_LANE_LOCK_LOSS_COUNT]⟩
def PRT_LANE_PRBS_CFG : Reg := ⟨263, 1048856, ⟨8, 65536, 4, 64, 1, 1⟩, false, [F.PRT_LANE_PRBS_CFG_EN, F.PRT_LANE_PRBS_CFG_SEL, F.PRT_LANE_PRBS_CFG_LOCKED, F.PRT_LANE_PRBS_CFG_CLR]⟩
def PRT_LANE_PRBS_ERR : Reg := ⟨264, 1048864, ⟨8, 65536, 4, 64, 1, 1⟩, true, [F.PRT_LANE_PRBS_ERR_COUNT]⟩
def PRT_LANE_PRBS_BITS : Reg := ⟨265, 1048872, ⟨8, 65536, 4, 64, 1, 1⟩, true, [F.PRT_LANE_PRBS_BITS_COUNT]⟩
def RLY_CFG : Reg := ⟨266, 1572864, ⟨4, 65536, 1, 1, 1, 1⟩, false, [F.RLY_CFG_EN, F.RLY_CFG_SRC, F.RLY_CFG_SRC_PORT, F.RLY_CFG_LOOP, F.RLY_CFG_LOOP_PORT, F.RLY_CFG_PRBS_SEL, F.RLY_CFG_GEN, F.RLY_CFG_LANES, F.RLY_CFG_RATE]⟩
def RLY_CMD : Reg := ⟨267, 1572868, ⟨4, 65536, 1, 1, 1, 1⟩, false, [F.RLY_CMD_INJ_ONE, F.RLY_CMD_CLR_COUNTS]⟩
def RLY_INJ : Reg := ⟨268, 1572872, ⟨4, 65536, 1, 1, 1, 1⟩, false, [F.RLY_INJ_EXP, F.RLY_INJ_LANES]⟩
def RLY_TX : Reg := ⟨269, 1572876, ⟨4, 65536, 1, 1, 1, 1⟩, false, [F.RLY_TX_DEEMPH, F.RLY_TX_SWING]⟩
def RLY_STATUS : Reg := ⟨270, 1572880, ⟨4, 65536, 1, 1, 1, 1⟩, false, [F.RLY_STATUS_STATE, F.RLY_STATUS_CLK_OUT, F.RLY_STATUS_LATENCY_NS]⟩
def RLY_EVT : Reg := ⟨271, 1572884, ⟨4, 65536, 1, 1, 1, 1⟩, false, [F.RLY_EVT_EVT]⟩
def RLY_EVT_EN : Reg := ⟨272, 1572888, ⟨4, 65536, 1, 1, 1, 1⟩, false, [F.RLY_EVT_EN_EN]⟩
def RLY_INJ_CNT : Reg := ⟨273, 1572892, ⟨4, 65536, 1, 1, 1, 1⟩, false, [F.RLY_INJ_CNT_COUNT]⟩
def RLY_STOPS : Reg := ⟨274, 1572896, ⟨4, 65536, 1, 1, 1, 1⟩, false, [F.RLY_STOPS_COUNT]⟩
def PKT_PORT_CFG : Reg := ⟨275, 1835008, ⟨8, 4096, 1, 1, 1, 1⟩, false, [F.PKT_PORT_CFG_HDR_FORM, F.PKT_PORT_CFG_AUTO_MAP, F.PKT_PORT_CFG_TWIN_SRC, F.PKT_PORT_CFG_REPLY_EN, F.PKT_PORT_CFG_REPLY_DT, F.PKT_PORT_CFG_REPLY_VC]⟩
def PKT_PORT_EVT : Reg := ⟨276, 1835012, ⟨8, 4096, 1, 1, 1, 1⟩, false, [F.PKT_PORT_EVT_EVT]⟩
def PKT_PORT_EVT_EN : Reg := ⟨277, 1835016, ⟨8, 4096, 1, 1, 1, 1⟩, false, [F.PKT_PORT_EVT_EN_EN]⟩
def PKT_HDR_CORR : Reg := ⟨278, 1835024, ⟨8, 4096, 1, 1, 1, 1⟩, false, [F.PKT_HDR_CORR_COUNT]⟩
def PKT_HDR_FAIL : Reg := ⟨279, 1835028, ⟨8, 4096, 1, 1, 1, 1⟩, false, [F.PKT_HDR_FAIL_COUNT]⟩
def PKT_UNMAPPED : Reg := ⟨280, 1835032, ⟨8, 4096, 1, 1, 1, 1⟩, false, [F.PKT_UNMAPPED_COUNT]⟩
def PKT_ORPHAN : Reg := ⟨281, 1835036, ⟨8, 4096, 1, 1, 1, 1⟩, false, [F.PKT_ORPHAN_COUNT]⟩
def PKT_ABORTED : Reg := ⟨282, 1835040, ⟨8, 4096, 1, 1, 1, 1⟩, false, [F.PKT_ABORTED_COUNT]⟩
def PKT_DT_UNSUP : Reg := ⟨283, 1835044, ⟨8, 4096, 1, 1, 1, 1⟩, false, [F.PKT_DT_UNSUP_COUNT]⟩
def PKT_UL_RX_LOST : Reg := ⟨284, 1835048, ⟨8, 4096, 1, 1, 1, 1⟩, false, [F.PKT_UL_RX_LOST_COUNT]⟩
def PKT_PORT_CMD : Reg := ⟨285, 1835052, ⟨8, 4096, 1, 1, 1, 1⟩, false, [F.PKT_PORT_CMD_CLR_COUNTS]⟩
def PKT_PORT_TRIG : Reg := ⟨286, 1835056, ⟨8, 4096, 1, 1, 1, 1⟩, false, [F.PKT_PORT_TRIG_BCN_CH, F.PKT_PORT_TRIG_EN]⟩
def PKT_PORT_TRIG_ID : Reg := ⟨287, 1835060, ⟨8, 4096, 1, 1, 1, 1⟩, false, [F.PKT_PORT_TRIG_ID_VALUE]⟩
def PKT_TRIG_DROP : Reg := ⟨288, 1835064, ⟨8, 4096, 1, 1, 1, 1⟩, false, [F.PKT_TRIG_DROP_COUNT]⟩
def PKT_UL_TXCMD : Reg := ⟨289, 1835072, ⟨8, 4096, 1, 1, 1, 1⟩, false, [F.PKT_UL_TXCMD_SEND, F.PKT_UL_TXCMD_TX_BUSY]⟩
def PKT_UL_RXSTAT : Reg := ⟨290, 1835076, ⟨8, 4096, 1, 1, 1, 1⟩, false, [F.PKT_UL_RXSTAT_LENGTH, F.PKT_UL_RXSTAT_CRC_OK, F.PKT_UL_RXSTAT_DEPTH, F.PKT_UL_RXSTAT_POP]⟩
def PKT_UL_TXBUF : Reg := ⟨291, 1836032, ⟨8, 4096, 65, 4, 1, 1⟩, false, [F.PKT_UL_TXBUF_DATA]⟩
def PKT_UL_RXBUF : Reg := ⟨292, 1837056, ⟨8, 4096, 64, 4, 1, 1⟩, false, [F.PKT_UL_RXBUF_DATA]⟩
def PKT_MAP : Reg := ⟨293, 1867776, ⟨64, 512, 1, 1, 1, 1⟩, false, [F.PKT_MAP_EN, F.PKT_MAP_PORT, F.PKT_MAP_VC, F.PKT_MAP_DT]⟩
def PKT_SCFG : Reg := ⟨294, 1867780, ⟨64, 512, 1, 1, 1, 1⟩, false, [F.PKT_SCFG_GATING, F.PKT_SCFG_GEOM_LEARN, F.PKT_SCFG_ENC_MASK, F.PKT_SCFG_TRIG_SRC]⟩
def PKT_GEOM : Reg := ⟨295, 1867784, ⟨64, 512, 1, 1, 1, 1⟩, false, [F.PKT_GEOM_WIDTH, F.PKT_GEOM_HEIGHT]⟩
def PKT_WDOG : Reg := ⟨296, 1867788, ⟨64, 512, 1, 1, 1, 1⟩, false, [F.PKT_WDOG_NS]⟩
def PKT_SEQ : Reg := ⟨297, 1867792, ⟨64, 512, 1, 1, 1, 1⟩, true, [F.PKT_SEQ_VALUE]⟩
def PKT_ARM : Reg := ⟨298, 1867800, ⟨64, 512, 1, 1, 1, 1⟩, false, [F.PKT_ARM_COUNT]⟩
def PKT_SSTAT : Reg := ⟨299, 1867804, ⟨64, 512, 1, 1, 1, 1⟩, false, [F.PKT_SSTAT_OPEN, F.PKT_SSTAT_TAG_WAIT, F.PKT_SSTAT_TRIG_QUEUED, F.PKT_SSTAT_LINES]⟩
def PKT_SEVT : Reg := ⟨300, 1867808, ⟨64, 512, 1, 1, 1, 1⟩, false, [F.PKT_SEVT_EVT]⟩
def PKT_SEVT_EN : Reg := ⟨301, 1867812, ⟨64, 512, 1, 1, 1, 1⟩, false, [F.PKT_SEVT_EN_EN]⟩
def PKT_FRAMES : Reg := ⟨302, 1867824, ⟨64, 512, 1, 1, 1, 1⟩, false, [F.PKT_FRAMES_COUNT]⟩
def PKT_TRUNC : Reg := ⟨303, 1867828, ⟨64, 512, 1, 1, 1, 1⟩, false, [F.PKT_TRUNC_COUNT]⟩
def PKT_GATED_OUT : Reg := ⟨304, 1867832, ⟨64, 512, 1, 1, 1, 1⟩, false, [F.PKT_GATED_OUT_COUNT]⟩
def PKT_RATE_DROP : Reg := ⟨305, 1867836, ⟨64, 512, 1, 1, 1, 1⟩, false, [F.PKT_RATE_DROP_COUNT]⟩
def PKT_TAG_DROP : Reg := ⟨306, 1867840, ⟨64, 512, 1, 1, 1, 1⟩, false, [F.PKT_TAG_DROP_COUNT]⟩
def PKT_NO_TRIGGER : Reg := ⟨307, 1867844, ⟨64, 512, 1, 1, 1, 1⟩, false, [F.PKT_NO_TRIGGER_COUNT]⟩
def PKT_TRIG_ORPHAN : Reg := ⟨308, 1867848, ⟨64, 512, 1, 1, 1, 1⟩, false, [F.PKT_TRIG_ORPHAN_COUNT]⟩
def PKT_FE_ORPHAN : Reg := ⟨309, 1867852, ⟨64, 512, 1, 1, 1, 1⟩, false, [F.PKT_FE_ORPHAN_COUNT]⟩
def PKT_WC_ERR : Reg := ⟨310, 1867856, ⟨64, 512, 1, 1, 1, 1⟩, false, [F.PKT_WC_ERR_COUNT]⟩
def PKT_CRC_ERR : Reg := ⟨311, 1867860, ⟨64, 512, 1, 1, 1, 1⟩, false, [F.PKT_CRC_ERR_COUNT]⟩
def PKT_FNUM_ERR : Reg := ⟨312, 1867864, ⟨64, 512, 1, 1, 1, 1⟩, false, [F.PKT_FNUM_ERR_COUNT]⟩
def PKT_SCMD : Reg := ⟨313, 1867868, ⟨64, 512, 1, 1, 1, 1⟩, false, [F.PKT_SCMD_CLR_COUNTS]⟩
def PKT_LAST_TAG : Reg := ⟨314, 1868032, ⟨64, 512, 16, 4, 1, 1⟩, false, [F.PKT_LAST_TAG_DATA]⟩
def PKT_IRQ_PORT : Reg := ⟨315, 1900544, ⟨1, 1, 1, 1, 1, 1⟩, false, [F.PKT_IRQ_PORT_PORT]⟩
def PKT_IRQ_STREAM : Reg := ⟨316, 1900548, ⟨1, 1, 1, 1, 1, 1⟩, true, [F.PKT_IRQ_STREAM_STREAM]⟩
def PKT_TAG_QUEUE : Reg := ⟨317, 1900560, ⟨1, 1, 1, 1, 1, 1⟩, false, [F.PKT_TAG_QUEUE_DEPTH, F.PKT_TAG_QUEUE_PEAK]⟩
def PKT_FEV_CFG : Reg := ⟨318, 1900800, ⟨16, 4, 1, 1, 1, 1⟩, false, [F.PKT_FEV_CFG_STREAM, F.PKT_FEV_CFG_EDGE, F.PKT_FEV_CFG_EN]⟩
def ISP_CTL : Reg := ⟨319, 2097152, ⟨2, 1048576, 1, 1, 1, 1⟩, false, [F.ISP_CTL_MODE, F.ISP_CTL_INLINE_CTX]⟩
def ISP_STATUS : Reg := ⟨320, 2097156, ⟨2, 1048576, 1, 1, 1, 1⟩, false, [F.ISP_STATUS_BUSY, F.ISP_STATUS_LOADED, F.ISP_STATUS_CUR_CTX, F.ISP_STATUS_READY]⟩
def ISP_EVT : Reg := ⟨321, 2097160, ⟨2, 1048576, 1, 1, 1, 1⟩, false, [F.ISP_EVT_EVT]⟩
def ISP_EVT_EN : Reg := ⟨322, 2097164, ⟨2, 1048576, 1, 1, 1, 1⟩, false, [F.ISP_EVT_EN_EN]⟩
def ISP_SUBMIT : Reg := ⟨323, 2097168, ⟨2, 1048576, 1, 1, 1, 1⟩, false, [F.ISP_SUBMIT_CTX, F.ISP_SUBMIT_GO, F.ISP_SUBMIT_PENDING, F.ISP_SUBMIT_ERR]⟩
def ISP_SUBMIT_SEQ : Reg := ⟨324, 2097172, ⟨2, 1048576, 1, 1, 1, 1⟩, true, [F.ISP_SUBMIT_SEQ_SEQ]⟩
def ISP_BUSY_CYCLES : Reg := ⟨325, 2097184, ⟨2, 1048576, 1, 1, 1, 1⟩, true, [F.ISP_BUSY_CYCLES_VALUE]⟩
def ISP_SWITCHES : Reg := ⟨326, 2097192, ⟨2, 1048576, 1, 1, 1, 1⟩, false, [F.ISP_SWITCHES_COUNT]⟩
def ISP_DONE_CFG : Reg := ⟨327, 2097216, ⟨2, 1048576, 8, 4, 1, 1⟩, false, [F.ISP_DONE_CFG_CTX, F.ISP_DONE_CFG_KIND, F.ISP_DONE_CFG_EN]⟩
def ISP_LAST_STAT : Reg := ⟨328, 2105344, ⟨2, 1048576, 2048, 4, 1, 1⟩, false, [F.ISP_LAST_STAT_DATA]⟩
def ISP_CTX_CFG : Reg := ⟨329, 2162688, ⟨2, 1048576, 64, 1024, 1, 1⟩, false, [F.ISP_CTX_CFG_EN, F.ISP_CTX_CFG_PRESET, F.ISP_CTX_CFG_MOSAIC, F.ISP_CTX_CFG_ORDER, F.ISP_CTX_CFG_CFA_PHASE, F.ISP_CTX_CFG_DEMOSAIC, F.ISP_CTX_CFG_PRIORITY, F.ISP_CTX_CFG_STRIPED]⟩
def ISP_CTX_SRC : Reg := ⟨330, 2162692, ⟨2, 1048576, 64, 1024, 1, 1⟩, false, [F.ISP_CTX_SRC_STREAM, F.ISP_CTX_SRC_AUTO, F.ISP_CTX_SRC_FRAME_DIV, F.ISP_CTX_SRC_FRAME_PHASE]⟩
def ISP_CTX_MERGE : Reg := ⟨331, 2162696, ⟨2, 1048576, 64, 1024, 1, 1⟩, false, [F.ISP_CTX_MERGE_FORM, F.ISP_CTX_MERGE_N, F.ISP_CTX_MERGE_STREAM_1, F.ISP_CTX_MERGE_STREAM_2, F.ISP_CTX_MERGE_PAIR_US]⟩
def ISP_CTX_STRIPE : Reg := ⟨332, 2162700, ⟨2, 1048576, 64, 1024, 1, 1⟩, false, [F.ISP_CTX_STRIPE_STRIPE_H, F.ISP_CTX_STRIPE_MAX_PENDING]⟩
def ISP_CTX_MAX_AGE : Reg := ⟨333, 2162704, ⟨2, 1048576, 64, 1024, 1, 1⟩, false, [F.ISP_CTX_MAX_AGE_NS]⟩
def ISP_CTX_LIN : Reg := ⟨334, 2162708, ⟨2, 1048576, 64, 1024, 1, 1⟩, false, [F.ISP_CTX_LIN_LIN_EN, F.ISP_CTX_LIN_LUT_SLOT]⟩
def ISP_CTX_SAT : Reg := ⟨335, 2162712, ⟨2, 1048576, 64, 1024, 1, 1⟩, false, [F.ISP_CTX_SAT_LEVEL]⟩
def ISP_CTX_BLACK : Reg := ⟨336, 2162720, ⟨2, 1048576, 64, 1024, 4, 4⟩, false, [F.ISP_CTX_BLACK_VALUE]⟩
def ISP_CTX_THR : Reg := ⟨337, 2162736, ⟨2, 1048576, 64, 1024, 2, 4⟩, false, [F.ISP_CTX_THR_VALUE]⟩
def ISP_CTX_RATIO : Reg := ⟨338, 2162744, ⟨2, 1048576, 64, 1024, 1, 1⟩, false, [F.ISP_CTX_RATIO_RATIO_1, F.ISP_CTX_RATIO_RATIO_2]⟩
def ISP_CTX_BLEND : Reg := ⟨339, 2162748, ⟨2, 1048576, 64, 1024, 1, 1⟩, false, [F.ISP_CTX_BLEND_VALUE]⟩
def ISP_CTX_DEFECT : Reg := ⟨340, 2162752, ⟨2, 1048576, 64, 1024, 1, 1⟩, false, [F.ISP_CTX_DEFECT_STATIC_EN, F.ISP_CTX_DEFECT_DYN_EN, F.ISP_CTX_DEFECT_DEF_BASE]⟩
def ISP_CTX_DEF_LEN : Reg := ⟨341, 2162756, ⟨2, 1048576, 64, 1024, 1, 1⟩, false, [F.ISP_CTX_DEF_LEN_DEF_LEN]⟩
def ISP_CTX_DYN_THRESH : Reg := ⟨342, 2162760, ⟨2, 1048576, 64, 1024, 1, 1⟩, false, [F.ISP_CTX_DYN_THRESH_VALUE]⟩
def ISP_CTX_SHADE : Reg := ⟨343, 2162764, ⟨2, 1048576, 64, 1024, 1, 1⟩, false, [F.ISP_CTX_SHADE_SHADE_EN, F.ISP_CTX_SHADE_SHADE_SLOT]⟩
def ISP_CTX_CCM_0 : Reg := ⟨344, 2162768, ⟨2, 1048576, 64, 1024, 1, 1⟩, false, [F.ISP_CTX_CCM_0_LOW, F.ISP_CTX_CCM_0_HIGH]⟩
def ISP_CTX_CCM_1 : Reg := ⟨345, 2162772, ⟨2, 1048576, 64, 1024, 1, 1⟩, false, [F.ISP_CTX_CCM_1_LOW, F.ISP_CTX_CCM_1_HIGH]⟩
def ISP_CTX_CCM_2 : Reg := ⟨346, 2162776, ⟨2, 1048576, 64, 1024, 1, 1⟩, false, [F.ISP_CTX_CCM_2_LOW, F.ISP_CTX_CCM_2_HIGH]⟩
def ISP_CTX_CCM_3 : Reg := ⟨347, 2162780, ⟨2, 1048576, 64, 1024, 1, 1⟩, false, [F.ISP_CTX_CCM_3_LOW, F.ISP_CTX_CCM_3_HIGH]⟩
def ISP_CTX_CCM_4 : Reg := ⟨348, 2162784, ⟨2, 1048576, 64, 1024, 1, 1⟩, false, [F.ISP_CTX_CCM_4_LOW, F.ISP_CTX_CCM_4_HIGH]⟩
def ISP_CTX_CCM_5 : Reg := ⟨349, 2162788, ⟨2, 1048576, 64, 1024, 1, 1⟩, false, [F.ISP_CTX_CCM_5_LOW, F.ISP_CTX_CCM_5_HIGH]⟩
def ISP_CTX_IRSUB_0 : Reg := ⟨350, 2162792, ⟨2, 1048576, 64, 1024, 1, 1⟩, false, [F.ISP_CTX_IRSUB_0_LOW, F.ISP_CTX_IRSUB_0_HIGH]⟩
def ISP_CTX_IRSUB_1 : Reg := ⟨351, 2162796, ⟨2, 1048576, 64, 1024, 1, 1⟩, false, [F.ISP_CTX_IRSUB_1_LOW]⟩
def ISP_CTX_LUMA_0 : Reg := ⟨352, 2162800, ⟨2, 1048576, 64, 1024, 1, 1⟩, false, [F.ISP_CTX_LUMA_0_LOW, F.ISP_CTX_LUMA_0_HIGH]⟩
def ISP_CTX_LUMA_1 : Reg := ⟨353, 2162804, ⟨2, 1048576, 64, 1024, 1, 1⟩, false, [F.ISP_CTX_LUMA_1_LOW]⟩
def ISP_CTX_OUT_EN : Reg := ⟨354, 2162816, ⟨2, 1048576, 64, 1024, 1, 1⟩, false, [F.ISP_CTX_OUT_EN_DISP_EN, F.ISP_CTX_OUT_EN_CODE_EN, F.ISP_CTX_OUT_EN_VIS_EN, F.ISP_CTX_OUT_EN_STAT_EN]⟩
def ISP_CTX_DISP : Reg := ⟨355, 2162820, ⟨2, 1048576, 64, 1024, 1, 1⟩, false, [F.ISP_CTX_DISP_FMT, F.ISP_CTX_DISP_TONE, F.ISP_CTX_DISP_SHIFT, F.ISP_CTX_DISP_DECIM_X1, F.ISP_CTX_DISP_DECIM_Y1]⟩
def ISP_CTX_CODE : Reg := ⟨356, 2162824, ⟨2, 1048576, 64, 1024, 1, 1⟩, false, [F.ISP_CTX_CODE_DEPTH, F.ISP_CTX_CODE_TONE, F.ISP_CTX_CODE_SHIFT, F.ISP_CTX_CODE_RANGE]⟩
def ISP_CTX_VIS : Reg := ⟨357, 2162828, ⟨2, 1048576, 64, 1024, 1, 1⟩, false, [F.ISP_CTX_VIS_FMT, F.ISP_CTX_VIS_SHIFT]⟩
def ISP_CTX_VIS_XY : Reg := ⟨358, 2162832, ⟨2, 1048576, 64, 1024, 1, 1⟩, false, [F.ISP_CTX_VIS_XY_X0, F.ISP_CTX_VIS_XY_Y0]⟩
def ISP_CTX_VIS_WH : Reg := ⟨359, 2162836, ⟨2, 1048576, 64, 1024, 1, 1⟩, false, [F.ISP_CTX_VIS_WH_W, F.ISP_CTX_VIS_WH_H]⟩
def ISP_CTX_OUT_BASE : Reg := ⟨360, 2162848, ⟨2, 1048576, 64, 1024, 3, 16⟩, true, [F.ISP_CTX_OUT_BASE_BASE]⟩
def ISP_CTX_OUT_SIZE : Reg := ⟨361, 2162856, ⟨2, 1048576, 64, 1024, 3, 16⟩, false, [F.ISP_CTX_OUT_SIZE_SIZE_LOG2, F.ISP_CTX_OUT_SIZE_SLOT_LOG2]⟩
def ISP_CTX_STAT : Reg := ⟨362, 2162912, ⟨2, 1048576, 64, 1024, 1, 1⟩, false, [F.ISP_CTX_STAT_HIST_SHIFT, F.ISP_CTX_STAT_STAT_RING_EN, F.ISP_CTX_STAT_STAT_RING]⟩
def ISP_CTX_STAT_XY : Reg := ⟨363, 2162916, ⟨2, 1048576, 64, 1024, 1, 1⟩, false, [F.ISP_CTX_STAT_XY_X0, F.ISP_CTX_STAT_XY_Y0]⟩
def ISP_CTX_STAT_WH : Reg := ⟨364, 2162920, ⟨2, 1048576, 64, 1024, 1, 1⟩, false, [F.ISP_CTX_STAT_WH_W, F.ISP_CTX_STAT_WH_H]⟩
def ISP_CTX_STATUS : Reg := ⟨365, 2162944, ⟨2, 1048576, 64, 1024, 1, 1⟩, false, [F.ISP_CTX_STATUS_VALID, F.ISP_CTX_STATUS_ACTIVE, F.ISP_CTX_STATUS_PENDING, F.ISP_CTX_STATUS_ERR]⟩
def ISP_CTX_LAST_SEQ : Reg := ⟨366, 2162952, ⟨2, 1048576, 64, 1024, 1, 1⟩, true, [F.ISP_CTX_LAST_SEQ_SEQ]⟩
def ISP_CTX_DONE : Reg := ⟨367, 2162960, ⟨2, 1048576, 64, 1024, 1, 1⟩, false, [F.ISP_CTX_DONE_COUNT]⟩
def ISP_CTX_BYPASS_AGE : Reg := ⟨368, 2162964, ⟨2, 1048576, 64, 1024, 1, 1⟩, false, [F.ISP_CTX_BYPASS_AGE_COUNT]⟩
def ISP_CTX_BYPASS_OVERRUN : Reg := ⟨369, 2162968, ⟨2, 1048576, 64, 1024, 1, 1⟩, false, [F.ISP_CTX_BYPASS_OVERRUN_COUNT]⟩
def ISP_CTX_BYPASS_ERR : Reg := ⟨370, 2162972, ⟨2, 1048576, 64, 1024, 1, 1⟩, false, [F.ISP_CTX_BYPASS_ERR_COUNT]⟩
def ISP_CTX_MERGE_MISS : Reg := ⟨371, 2162976, ⟨2, 1048576, 64, 1024, 1, 1⟩, false, [F.ISP_CTX_MERGE_MISS_COUNT]⟩
def ISP_CTX_DEF_ORDER : Reg := ⟨372, 2162980, ⟨2, 1048576, 64, 1024, 1, 1⟩, false, [F.ISP_CTX_DEF_ORDER_COUNT]⟩
def ISP_CTX_STAT_LOST : Reg := ⟨373, 2162984, ⟨2, 1048576, 64, 1024, 1, 1⟩, false, [F.ISP_CTX_STAT_LOST_COUNT]⟩
def ISP_CTX_CMD : Reg := ⟨374, 2162988, ⟨2, 1048576, 64, 1024, 1, 1⟩, false, [F.ISP_CTX_CMD_CLR_COUNTS]⟩
def POD_STATUS : Reg := ⟨375, 4194304, ⟨8, 262144, 1, 1, 1, 1⟩, false, [F.POD_STATUS_STATE, F.POD_STATUS_LAYER, F.POD_STATUS_RUN_ID]⟩
def POD_BUSY_CYCLES : Reg := ⟨376, 4194312, ⟨8, 262144, 1, 1, 1, 1⟩, true, [F.POD_BUSY_CYCLES_VALUE]⟩
def POD_ACC_SAT : Reg := ⟨377, 4194320, ⟨8, 262144, 1, 1, 1, 1⟩, false, [F.POD_ACC_SAT_COUNT]⟩
def POD_OUT_SAT : Reg := ⟨378, 4194324, ⟨8, 262144, 1, 1, 1, 1⟩, false, [F.POD_OUT_SAT_COUNT]⟩
def POD_CMD : Reg := ⟨379, 4194328, ⟨8, 262144, 1, 1, 1, 1⟩, false, [F.POD_CMD_CLR_COUNTS]⟩
def POD_LSRAM_PAGE : Reg := ⟨380, 4194332, ⟨8, 262144, 1, 1, 1, 1⟩, false, [F.POD_LSRAM_PAGE_PAGE]⟩
def POD_SUB_LIST : Reg := ⟨381, 4259840, ⟨1, 1, 1, 1, 1, 1⟩, false, [F.POD_SUB_LIST_VALUE]⟩
def POD_SUB_RUN : Reg := ⟨382, 4259844, ⟨1, 1, 1, 1, 1, 1⟩, false, [F.POD_SUB_RUN_VALUE]⟩
def POD_SUB_SEQ : Reg := ⟨383, 4259848, ⟨1, 1, 1, 1, 1, 1⟩, true, [F.POD_SUB_SEQ_VALUE]⟩
def POD_SUB_CMD : Reg := ⟨384, 4259856, ⟨1, 1, 1, 1, 1, 1⟩, false, [F.POD_SUB_CMD_GO]⟩
def POD_SUB_RES : Reg := ⟨385, 4259860, ⟨1, 1, 1, 1, 1, 1⟩, false, [F.POD_SUB_RES_STATUS, F.POD_SUB_RES_ID]⟩
def POD_QUEUE : Reg := ⟨386, 4259864, ⟨1, 1, 1, 1, 1, 1⟩, false, [F.POD_QUEUE_QUEUED, F.POD_QUEUE_RUNNING]⟩
def POD_EVT : Reg := ⟨387, 4259868, ⟨1, 1, 1, 1, 1, 1⟩, false, [F.POD_EVT_EVT]⟩
def POD_EVT_EN : Reg := ⟨388, 4259872, ⟨1, 1, 1, 1, 1, 1⟩, false, [F.POD_EVT_EN_EN]⟩
def POD_RUN_ERR : Reg := ⟨389, 4259876, ⟨1, 1, 1, 1, 1, 1⟩, false, [F.POD_RUN_ERR_CODE, F.POD_RUN_ERR_LAYER, F.POD_RUN_ERR_LAYER_ID]⟩
def POD_RUNS_OK : Reg := ⟨390, 4259880, ⟨1, 1, 1, 1, 1, 1⟩, false, [F.POD_RUNS_OK_COUNT]⟩
def POD_RUNS_ERR : Reg := ⟨391, 4259884, ⟨1, 1, 1, 1, 1, 1⟩, false, [F.POD_RUNS_ERR_COUNT]⟩
def POD_RUNS_NO_INPUT : Reg := ⟨392, 4259888, ⟨1, 1, 1, 1, 1, 1⟩, false, [F.POD_RUNS_NO_INPUT_COUNT]⟩
def POD_RUNS_DISCARDED : Reg := ⟨393, 4259892, ⟨1, 1, 1, 1, 1, 1⟩, false, [F.POD_RUNS_DISCARDED_COUNT]⟩
def POD_GATE_FULL : Reg := ⟨394, 4259896, ⟨1, 1, 1, 1, 1, 1⟩, false, [F.POD_GATE_FULL_COUNT]⟩
def POD_RUN_FULL : Reg := ⟨395, 4259900, ⟨1, 1, 1, 1, 1, 1⟩, false, [F.POD_RUN_FULL_COUNT]⟩
def POD_CCMD : Reg := ⟨396, 4259904, ⟨1, 1, 1, 1, 1, 1⟩, false, [F.POD_CCMD_CLR_COUNTS]⟩
def POD_GATE_PENDING : Reg := ⟨397, 4259908, ⟨1, 1, 1, 1, 1, 1⟩, false, [F.POD_GATE_PENDING_DEPTH, F.POD_GATE_PENDING_PEAK]⟩
def POD_VDT_CFG : Reg := ⟨398, 4259968, ⟨8, 4, 1, 1, 1, 1⟩, false, [F.POD_VDT_CFG_STREAM, F.POD_VDT_CFG_KIND, F.POD_VDT_CFG_EN]⟩
def POD_GATE_CFG : Reg := ⟨399, 4292608, ⟨64, 64, 1, 1, 1, 1⟩, false, [F.POD_GATE_CFG_EN, F.POD_GATE_CFG_POLICY, F.POD_GATE_CFG_REJECT_RECORD, F.POD_GATE_CFG_AUTO_RUN, F.POD_GATE_CFG_INPUT, F.POD_GATE_CFG_POD_MASK, F.POD_GATE_CFG_CLR_COUNTS]⟩
def POD_GATE_DEADLINE : Reg := ⟨400, 4292612, ⟨64, 64, 1, 1, 1, 1⟩, false, [F.POD_GATE_DEADLINE_NS]⟩
def POD_GATE_WIN : Reg := ⟨401, 4292616, ⟨64, 64, 1, 1, 1, 1⟩, false, [F.POD_GATE_WIN_PRE_KEEP, F.POD_GATE_WIN_POST_KEEP]⟩
def POD_AUTO_LIST : Reg := ⟨402, 4292620, ⟨64, 64, 1, 1, 1, 1⟩, false, [F.POD_AUTO_LIST_OFFSET]⟩
def POD_NET_VERDICT : Reg := ⟨403, 4292624, ⟨64, 64, 1, 1, 1, 1⟩, false, [F.POD_NET_VERDICT_VERDICT]⟩
def POD_NET_SEQ : Reg := ⟨404, 4292628, ⟨64, 64, 1, 1, 1, 1⟩, true, [F.POD_NET_SEQ_SEQ]⟩
def POD_FINAL : Reg := ⟨405, 4292636, ⟨64, 64, 1, 1, 1, 1⟩, false, [F.POD_FINAL_VERDICT]⟩
def POD_FINAL_SEQ : Reg := ⟨406, 4292640, ⟨64, 64, 1, 1, 1, 1⟩, true, [F.POD_FINAL_SEQ_SEQ]⟩
def POD_GATE_KEEP : Reg := ⟨407, 4292648, ⟨64, 64, 1, 1, 1, 1⟩, false, [F.POD_GATE_KEEP_COUNT]⟩
def POD_GATE_REJECT : Reg := ⟨408, 4292652, ⟨64, 64, 1, 1, 1, 1⟩, false, [F.POD_GATE_REJECT_COUNT]⟩
def POD_GATE_FORCED : Reg := ⟨409, 4292656, ⟨64, 64, 1, 1, 1, 1⟩, false, [F.POD_GATE_FORCED_COUNT]⟩
def POD_GATE_DL_OUT : Reg := ⟨410, 4292660, ⟨64, 64, 1, 1, 1, 1⟩, false, [F.POD_GATE_DL_OUT_COUNT]⟩
def POD_GATE_LATE : Reg := ⟨411, 4292664, ⟨64, 64, 1, 1, 1, 1⟩, false, [F.POD_GATE_LATE_COUNT]⟩
def POD_GATE_TRACKED : Reg := ⟨412, 4292668, ⟨64, 64, 1, 1, 1, 1⟩, false, [F.POD_GATE_TRACKED_FRAMES]⟩
def SQ_CTL : Reg := ⟨413, 16777216, ⟨8, 131072, 1, 1, 1, 1⟩, false, [F.SQ_CTL_RUN, F.SQ_CTL_HALT, F.SQ_CTL_STEP, F.SQ_CTL_CORE_RESET, F.SQ_CTL_WAKE_EN, F.SQ_CTL_RECIPE_START, F.SQ_CTL_RECIPE_STOP, F.SQ_CTL_RECIPE_ID]⟩
def SQ_STATUS : Reg := ⟨414, 16777220, ⟨8, 131072, 1, 1, 1, 1⟩, false, [F.SQ_STATUS_STATE, F.SQ_STATUS_IN_SPEC, F.SQ_STATUS_WAIT_KIND, F.SQ_STATUS_EV_PENDING, F.SQ_STATUS_FAULT, F.SQ_STATUS_RECIPE_STATE, F.SQ_STATUS_RECIPE_RUNNING]⟩
def SQ_PC : Reg := ⟨415, 16777224, ⟨8, 131072, 1, 1, 1, 1⟩, false, [F.SQ_PC_PC]⟩
def SQ_WAKE_PC : Reg := ⟨416, 16777228, ⟨8, 131072, 1, 1, 1, 1⟩, false, [F.SQ_WAKE_PC_PC]⟩
def SQ_CYCLES : Reg := ⟨417, 16777232, ⟨8, 131072, 1, 1, 1, 1⟩, true, [F.SQ_CYCLES_COUNT]⟩
def SQ_SPEC_COMMITTED : Reg := ⟨418, 16777240, ⟨8, 131072, 1, 1, 1, 1⟩, false, [F.SQ_SPEC_COMMITTED_COUNT]⟩
def SQ_SPEC_SQUASHED : Reg := ⟨419, 16777244, ⟨8, 131072, 1, 1, 1, 1⟩, false, [F.SQ_SPEC_SQUASHED_COUNT]⟩
def SQ_FAULT_PC : Reg := ⟨420, 16777248, ⟨8, 131072, 1, 1, 1, 1⟩, false, [F.SQ_FAULT_PC_PC]⟩
def SQ_RECIPE_ERR : Reg := ⟨421, 16777252, ⟨8, 131072, 1, 1, 1, 1⟩, false, [F.SQ_RECIPE_ERR_CODE, F.SQ_RECIPE_ERR_OFFSET]⟩
def SQ_IRQ_STATUS : Reg := ⟨422, 16777256, ⟨8, 131072, 1, 1, 1, 1⟩, false, [F.SQ_IRQ_STATUS_EVT]⟩
def SQ_IRQ_EN : Reg := ⟨423, 16777260, ⟨8, 131072, 1, 1, 1, 1⟩, false, [F.SQ_IRQ_EN_EN]⟩
def SQ_VREG : Reg := ⟨424, 16777472, ⟨8, 131072, 16, 8, 1, 1⟩, true, [F.SQ_VREG_VALUE]⟩
def SQ_LK : Reg := ⟨425, 16777600, ⟨8, 131072, 1, 1, 1, 1⟩, true, [F.SQ_LK_VALUE]⟩
def SQ_FLAGS : Reg := ⟨426, 16777608, ⟨8, 131072, 1, 1, 1, 1⟩, false, [F.SQ_FLAGS_ZNCV]⟩
def SQ_HASH_CTL : Reg := ⟨427, 16781312, ⟨1, 1, 1, 1, 1, 1⟩, false, [F.SQ_HASH_CTL_START, F.SQ_HASH_CTL_BUSY, F.SQ_HASH_CTL_VALID]⟩
def SQ_PROG_HASH : Reg := ⟨428, 16781320, ⟨1, 1, 1, 1, 1, 1⟩, true, [F.SQ_PROG_HASH_HASH]⟩
def DMA_CH_CFG : Reg := ⟨429, 18874368, ⟨64, 256, 1, 1, 1, 1⟩, false, [F.DMA_CH_CFG_PRIO, F.DMA_CH_CFG_WEIGHT1]⟩
def DMA_CH_CMD : Reg := ⟨430, 18874372, ⟨64, 256, 1, 1, 1, 1⟩, false, [F.DMA_CH_CMD_PAUSE, F.DMA_CH_CMD_RESUME, F.DMA_CH_CMD_DRAIN, F.DMA_CH_CMD_ABORT, F.DMA_CH_CMD_CLR_COUNTS]⟩
def DMA_CH_STATUS : Reg := ⟨431, 18874376, ⟨64, 256, 1, 1, 1, 1⟩, false, [F.DMA_CH_STATUS_STATE, F.DMA_CH_STATUS_QUEUED]⟩
def DMA_CH_ACTIVE : Reg := ⟨432, 18874380, ⟨64, 256, 1, 1, 1, 1⟩, false, [F.DMA_CH_ACTIVE_ID]⟩
def DMA_CH_POS_ROW : Reg := ⟨433, 18874384, ⟨64, 256, 1, 1, 1, 1⟩, false, [F.DMA_CH_POS_ROW_VALUE]⟩
def DMA_CH_POS_BYTE : Reg := ⟨434, 18874388, ⟨64, 256, 1, 1, 1, 1⟩, false, [F.DMA_CH_POS_BYTE_VALUE]⟩
def DMA_CH_EVT : Reg := ⟨435, 18874392, ⟨64, 256, 1, 1, 1, 1⟩, false, [F.DMA_CH_EVT_EVT]⟩
def DMA_CH_EVT_EN : Reg := ⟨436, 18874396, ⟨64, 256, 1, 1, 1, 1⟩, false, [F.DMA_CH_EVT_EN_EN]⟩
def DMA_CH_DONE : Reg := ⟨437, 18874400, ⟨64, 256, 1, 1, 1, 1⟩, false, [F.DMA_CH_DONE_COUNT]⟩
def DMA_CH_VOIDED : Reg := ⟨438, 18874404, ⟨64, 256, 1, 1, 1, 1⟩, false, [F.DMA_CH_VOIDED_COUNT]⟩
def DMA_CH_GONE : Reg := ⟨439, 18874408, ⟨64, 256, 1, 1, 1, 1⟩, false, [F.DMA_CH_GONE_COUNT]⟩
def DMA_CH_ABORTED : Reg := ⟨440, 18874412, ⟨64, 256, 1, 1, 1, 1⟩, false, [F.DMA_CH_ABORTED_COUNT]⟩
def DMA_CH_LATE : Reg := ⟨441, 18874416, ⟨64, 256, 1, 1, 1, 1⟩, false, [F.DMA_CH_LATE_COUNT]⟩
def DMA_CH_NO_OUTPUT : Reg := ⟨442, 18874420, ⟨64, 256, 1, 1, 1, 1⟩, false, [F.DMA_CH_NO_OUTPUT_COUNT]⟩
def DMA_SDLV_CFG : Reg := ⟨443, 18907136, ⟨64, 64, 1, 1, 1, 1⟩, false, [F.DMA_SDLV_CFG_EN, F.DMA_SDLV_CFG_MODE, F.DMA_SDLV_CFG_KIND, F.DMA_SDLV_CFG_EARLY, F.DMA_SDLV_CFG_WAIT_ISP, F.DMA_SDLV_CFG_CONFIRMED, F.DMA_SDLV_CFG_PIPE, F.DMA_SDLV_CFG_OUTPUT, F.DMA_SDLV_CFG_CTX, F.DMA_SDLV_CFG_CHANNEL, F.DMA_SDLV_CFG_XFORM]⟩
def DMA_SDLV_RINGS : Reg := ⟨444, 18907140, ⟨64, 64, 1, 1, 1, 1⟩, false, [F.DMA_SDLV_RINGS_FRAME_RING, F.DMA_SDLV_RINGS_CMPL_RING]⟩
def DMA_SDLV_LATE : Reg := ⟨445, 18907144, ⟨64, 64, 1, 1, 1, 1⟩, false, [F.DMA_SDLV_LATE_NS]⟩
def DMA_SDLV_NEXT : Reg := ⟨446, 18907148, ⟨64, 64, 1, 1, 1, 1⟩, true, [F.DMA_SDLV_NEXT_SEQ]⟩
def DMA_SDLV_DELIVERED : Reg := ⟨447, 18907156, ⟨64, 64, 1, 1, 1, 1⟩, false, [F.DMA_SDLV_DELIVERED_COUNT]⟩
def DMA_SDLV_MISSED : Reg := ⟨448, 18907160, ⟨64, 64, 1, 1, 1, 1⟩, false, [F.DMA_SDLV_MISSED_COUNT]⟩
def DMA_SDLV_SHORT : Reg := ⟨449, 18907164, ⟨64, 64, 1, 1, 1, 1⟩, false, [F.DMA_SDLV_SHORT_COUNT]⟩
def DMA_SUB_DESC : Reg := ⟨450, 18935808, ⟨16, 4, 1, 1, 1, 1⟩, false, [F.DMA_SUB_DESC_DATA]⟩
def DMA_SUB_CMD : Reg := ⟨451, 18935872, ⟨1, 1, 1, 1, 1, 1⟩, false, [F.DMA_SUB_CMD_GO]⟩
def DMA_SUB_RES : Reg := ⟨452, 18935876, ⟨1, 1, 1, 1, 1, 1⟩, false, [F.DMA_SUB_RES_RESULT]⟩
def DMA_INFLIGHT : Reg := ⟨453, 18935880, ⟨1, 1, 1, 1, 1, 1⟩, false, [F.DMA_INFLIGHT_COUNT, F.DMA_INFLIGHT_PEAK]⟩
def MEM_CFG : Reg := ⟨454, 19922944, ⟨1, 1, 1, 1, 1, 1⟩, false, [F.MEM_CFG_RATE, F.MEM_CFG_RANKS, F.MEM_CFG_INLINE_ECC, F.MEM_CFG_AUTO_TRAIN]⟩
def MEM_STATUS : Reg := ⟨455, 19922948, ⟨1, 1, 1, 1, 1, 1⟩, false, [F.MEM_STATUS_STATE, F.MEM_STATUS_CH_OK]⟩
def MEM_CMD : Reg := ⟨456, 19922952, ⟨1, 1, 1, 1, 1, 1⟩, false, [F.MEM_CMD_TRAIN, F.MEM_CMD_CLR_COUNTS]⟩
def MEM_USABLE : Reg := ⟨457, 19922960, ⟨1, 1, 1, 1, 1, 1⟩, true, [F.MEM_USABLE_VALUE]⟩
def MEM_EVT : Reg := ⟨458, 19922968, ⟨1, 1, 1, 1, 1, 1⟩, false, [F.MEM_EVT_EVT]⟩
def MEM_EVT_EN : Reg := ⟨459, 19922972, ⟨1, 1, 1, 1, 1, 1⟩, false, [F.MEM_EVT_EN_EN]⟩
def MEM_LINK_CORR : Reg := ⟨460, 19922976, ⟨1, 1, 1, 1, 1, 1⟩, false, [F.MEM_LINK_CORR_COUNT]⟩
def MEM_INLINE_CORR : Reg := ⟨461, 19922980, ⟨1, 1, 1, 1, 1, 1⟩, false, [F.MEM_INLINE_CORR_COUNT]⟩
def MEM_UNCORR : Reg := ⟨462, 19922984, ⟨1, 1, 1, 1, 1, 1⟩, false, [F.MEM_UNCORR_COUNT]⟩
def MEM_UNCORR_ADDR : Reg := ⟨463, 19922992, ⟨1, 1, 1, 1, 1, 1⟩, true, [F.MEM_UNCORR_ADDR_VALUE]⟩
def MEM_UNCORR_MID : Reg := ⟨464, 19923000, ⟨1, 1, 1, 1, 1, 1⟩, false, [F.MEM_UNCORR_MID_MID]⟩
def MEM_STORE_BUF : Reg := ⟨465, 19923008, ⟨1, 1, 1, 1, 1, 1⟩, false, [F.MEM_STORE_BUF_DEPTH, F.MEM_STORE_BUF_PEAK]⟩
def MEM_FRZ_CFG : Reg := ⟨466, 19923200, ⟨4, 4, 1, 1, 1, 1⟩, false, [F.MEM_FRZ_CFG_STREAM, F.MEM_FRZ_CFG_EN]⟩
def MEM_SREG_BASE : Reg := ⟨467, 19955712, ⟨64, 128, 1, 1, 1, 1⟩, true, [F.MEM_SREG_BASE_BASE]⟩
def MEM_SREG_CFG : Reg := ⟨468, 19955720, ⟨64, 128, 1, 1, 1, 1⟩, false, [F.MEM_SREG_CFG_EN, F.MEM_SREG_CFG_DROP_SEEN, F.MEM_SREG_CFG_FROZEN_SEEN, F.MEM_SREG_CFG_SIZE_LOG2, F.MEM_SREG_CFG_SLOT_LOG2]⟩
def MEM_SREG_NEWEST : Reg := ⟨469, 19955728, ⟨64, 128, 1, 1, 1, 1⟩, true, [F.MEM_SREG_NEWEST_SEQ, F.MEM_SREG_NEWEST_STORED]⟩
def MEM_SREG_DROPPED : Reg := ⟨470, 19955736, ⟨64, 128, 1, 1, 1, 1⟩, false, [F.MEM_SREG_DROPPED_COUNT]⟩
def MEM_BURST_CFG : Reg := ⟨471, 19955744, ⟨64, 128, 1, 1, 1, 1⟩, false, [F.MEM_BURST_CFG_ARM, F.MEM_BURST_CFG_DISARM, F.MEM_BURST_CFG_FREEZE_NOW, F.MEM_BURST_CFG_STATE, F.MEM_BURST_CFG_END_CH]⟩
def MEM_BURST_PRE : Reg := ⟨472, 19955752, ⟨64, 128, 1, 1, 1, 1⟩, true, [F.MEM_BURST_PRE_VALUE]⟩
def MEM_BURST_POST : Reg := ⟨473, 19955760, ⟨64, 128, 1, 1, 1, 1⟩, true, [F.MEM_BURST_POST_VALUE]⟩
def MEM_BURST_EVENT_SEQ : Reg := ⟨474, 19955768, ⟨64, 128, 1, 1, 1, 1⟩, true, [F.MEM_BURST_EVENT_SEQ_VALUE]⟩
def MEM_BURST_EVENT_TB : Reg := ⟨475, 19955776, ⟨64, 128, 1, 1, 1, 1⟩, true, [F.MEM_BURST_EVENT_TB_VALUE]⟩
def MEM_BURST_PRE_HELD : Reg := ⟨476, 19955784, ⟨64, 128, 1, 1, 1, 1⟩, true, [F.MEM_BURST_PRE_HELD_VALUE]⟩
def MEM_BURST_EXTRA : Reg := ⟨477, 19955792, ⟨64, 128, 1, 1, 1, 1⟩, false, [F.MEM_BURST_EXTRA_COUNT]⟩
def RNG_CFG : Reg := ⟨478, 20971520, ⟨4096, 64, 1, 1, 1, 1⟩, false, [F.RNG_CFG_EN, F.RNG_CFG_TYPE, F.RNG_CFG_SIZE_LOG2, F.RNG_CFG_ATTR, F.RNG_CFG_OWNER, F.RNG_CFG_WB_EN, F.RNG_CFG_ERR_IRQ_EN, F.RNG_CFG_HIGH_EN, F.RNG_CFG_LOW_EN]⟩
def RNG_IRQ : Reg := ⟨479, 20971524, ⟨4096, 64, 1, 1, 1, 1⟩, false, [F.RNG_IRQ_VECTOR, F.RNG_IRQ_ENTRY_IRQ_EN, F.RNG_IRQ_BUOY_IRQ_EN, F.RNG_IRQ_COAL_COUNT, F.RNG_IRQ_COAL_US]⟩
def RNG_BASE : Reg := ⟨480, 20971528, ⟨4096, 64, 1, 1, 1, 1⟩, true, [F.RNG_BASE_ADDR]⟩
def RNG_WB : Reg := ⟨481, 20971536, ⟨4096, 64, 1, 1, 1, 1⟩, true, [F.RNG_WB_ADDR]⟩
def RNG_TAIL : Reg := ⟨482, 20971544, ⟨4096, 64, 1, 1, 1, 1⟩, false, [F.RNG_TAIL_INDEX]⟩
def RNG_HEAD : Reg := ⟨483, 20971548, ⟨4096, 64, 1, 1, 1, 1⟩, false, [F.RNG_HEAD_INDEX]⟩
def RNG_BUOY_LVL : Reg := ⟨484, 20971552, ⟨4096, 64, 1, 1, 1, 1⟩, false, [F.RNG_BUOY_LVL_HIGH, F.RNG_BUOY_LVL_LOW]⟩
def RNG_BUOY_STAT : Reg := ⟨485, 20971556, ⟨4096, 64, 1, 1, 1, 1⟩, false, [F.RNG_BUOY_STAT_HIGH_STICKY, F.RNG_BUOY_STAT_LOW_STICKY, F.RNG_BUOY_STAT_CURRENT_ABOVE, F.RNG_BUOY_STAT_CURRENT_BELOW, F.RNG_BUOY_STAT_HIGH_PEND, F.RNG_BUOY_STAT_LOW_PEND, F.RNG_BUOY_STAT_ERROR]⟩
def RNG_BUOY_CNT : Reg := ⟨486, 20971560, ⟨4096, 64, 1, 1, 1, 1⟩, false, [F.RNG_BUOY_CNT_HIGH_CNT, F.RNG_BUOY_CNT_LOW_CNT]⟩
def RNG_BUOY_PEAK : Reg := ⟨487, 20971564, ⟨4096, 64, 1, 1, 1, 1⟩, false, [F.RNG_BUOY_PEAK_LEVEL]⟩
def RNG_BUOY_TROUGH : Reg := ⟨488, 20971568, ⟨4096, 64, 1, 1, 1, 1⟩, false, [F.RNG_BUOY_TROUGH_LEVEL]⟩
def RNG_ERR : Reg := ⟨489, 20971572, ⟨4096, 64, 1, 1, 1, 1⟩, false, [F.RNG_ERR_CODE, F.RNG_ERR_CFG_ERR]⟩
def RNG_LOST : Reg := ⟨490, 20971576, ⟨4096, 64, 1, 1, 1, 1⟩, false, [F.RNG_LOST_COUNT]⟩
def RNG_DB_ERR : Reg := ⟨491, 20971580, ⟨4096, 64, 1, 1, 1, 1⟩, false, [F.RNG_DB_ERR_COUNT]⟩
def HIF_LINK_STATUS : Reg := ⟨492, 25165824, ⟨1, 1, 1, 1, 1, 1⟩, false, [F.HIF_LINK_STATUS_UP, F.HIF_LINK_STATUS_SPEED, F.HIF_LINK_STATUS_WIDTH]⟩
def HIF_CTL : Reg := ⟨493, 25165828, ⟨1, 1, 1, 1, 1, 1⟩, false, [F.HIF_CTL_MAX_SPEED, F.HIF_CTL_RO_EN]⟩
def HIF_EVT : Reg := ⟨494, 25165832, ⟨1, 1, 1, 1, 1, 1⟩, false, [F.HIF_EVT_EVT]⟩
def HIF_EVT_EN : Reg := ⟨495, 25165836, ⟨1, 1, 1, 1, 1, 1⟩, false, [F.HIF_EVT_EN_EN]⟩
def HIF_BAD_ACCESS : Reg := ⟨496, 25165840, ⟨1, 1, 1, 1, 1, 1⟩, false, [F.HIF_BAD_ACCESS_COUNT]⟩
def HIF_CPL_TIMEOUT : Reg := ⟨497, 25165844, ⟨1, 1, 1, 1, 1, 1⟩, false, [F.HIF_CPL_TIMEOUT_COUNT]⟩
def HIF_POISONED : Reg := ⟨498, 25165848, ⟨1, 1, 1, 1, 1, 1⟩, false, [F.HIF_POISONED_COUNT]⟩
def HIF_LINK_DOWNS : Reg := ⟨499, 25165852, ⟨1, 1, 1, 1, 1, 1⟩, false, [F.HIF_LINK_DOWNS_COUNT]⟩
def HIF_DB_ERR : Reg := ⟨500, 25165856, ⟨1, 1, 1, 1, 1, 1⟩, false, [F.HIF_DB_ERR_COUNT]⟩
def HIF_FLRS : Reg := ⟨501, 25165860, ⟨1, 1, 1, 1, 1, 1⟩, false, [F.HIF_FLRS_COUNT]⟩
def HIF_RING_ERR_FIRST : Reg := ⟨502, 25165864, ⟨1, 1, 1, 1, 1, 1⟩, false, [F.HIF_RING_ERR_FIRST_RING, F.HIF_RING_ERR_FIRST_VALID]⟩
def HIF_RING_ERR_ROUTE : Reg := ⟨503, 25165868, ⟨1, 1, 1, 1, 1, 1⟩, false, [F.HIF_RING_ERR_ROUTE_RING, F.HIF_RING_ERR_ROUTE_EN]⟩
def HIF_IRQ_REARM : Reg := ⟨504, 25165872, ⟨1, 1, 1, 1, 1, 1⟩, false, [F.HIF_IRQ_REARM_REARM]⟩
def HIF_VF_STATUS : Reg := ⟨505, 25165876, ⟨1, 1, 1, 1, 1, 1⟩, false, [F.HIF_VF_STATUS_VF_ENABLED, F.HIF_VF_STATUS_FLR_BUSY]⟩
def HIF_CMD : Reg := ⟨506, 25165880, ⟨1, 1, 1, 1, 1, 1⟩, false, [F.HIF_CMD_CLR_COUNTS]⟩
def HIF_BLK_VEC : Reg := ⟨507, 25166080, ⟨29, 4, 1, 1, 1, 1⟩, false, [F.HIF_BLK_VEC_VECTOR, F.HIF_BLK_VEC_EN]⟩
def HIF_EVT_ROUTE : Reg := ⟨508, 25166336, ⟨16, 4, 1, 1, 1, 1⟩, false, [F.HIF_EVT_ROUTE_RING, F.HIF_EVT_ROUTE_EN]⟩
def KI_ID : Reg := ⟨509, 0, ⟨1, 1, 1, 1, 1, 1⟩, false, [F.KI_ID_ID]⟩
def KI_UID : Reg := ⟨510, 1, ⟨1, 1, 1, 1, 1, 1⟩, true, [F.KI_UID_UID]⟩
def KI_LAST_ERR : Reg := ⟨511, 3, ⟨1, 1, 1, 1, 1, 1⟩, false, [F.KI_LAST_ERR_CODE]⟩
def KI_WALL : Reg := ⟨512, 4, ⟨1, 1, 1, 1, 1, 1⟩, false, [F.KI_WALL_SECONDS]⟩
def KI_POLLS_SINCE_TIME : Reg := ⟨513, 5, ⟨1, 1, 1, 1, 1, 1⟩, false, [F.KI_POLLS_SINCE_TIME_COUNT]⟩
def KL_LIFECYCLE : Reg := ⟨514, 256, ⟨1, 1, 1, 1, 1, 1⟩, false, [F.KL_LIFECYCLE_LOCKED]⟩
def KL_LOCKS : Reg := ⟨515, 257, ⟨1, 1, 1, 1, 1, 1⟩, false, [F.KL_LOCKS_MBX, F.KL_LOCKS_BCN]⟩
def KL_RANK : Reg := ⟨516, 258, ⟨1, 1, 1, 1, 1, 1⟩, false, [F.KL_RANK_RANK]⟩
def KL_BOOT : Reg := ⟨517, 259, ⟨1, 1, 1, 1, 1, 1⟩, false, [F.KL_BOOT_BOOT_EN]⟩
def KP_PROFILE : Reg := ⟨518, 512, ⟨1, 1, 1, 1, 1, 1⟩, false, [F.KP_PROFILE_PROFILE, F.KP_PROFILE_SLEEP_HOST]⟩
def KP_REQ : Reg := ⟨519, 513, ⟨1, 1, 1, 1, 1, 1⟩, false, [F.KP_REQ_DOMAINS]⟩
def KP_EFFECTIVE : Reg := ⟨520, 514, ⟨1, 1, 1, 1, 1, 1⟩, false, [F.KP_EFFECTIVE_DOMAINS]⟩
def KP_GOOD : Reg := ⟨521, 515, ⟨1, 1, 1, 1, 1, 1⟩, false, [F.KP_GOOD_DOMAINS]⟩
def KP_FAIL : Reg := ⟨522, 516, ⟨1, 1, 1, 1, 1, 1⟩, false, [F.KP_FAIL_DOMAINS]⟩
def KP_RESET : Reg := ⟨523, 520, ⟨1, 1, 1, 1, 1, 1⟩, false, [F.KP_RESET_WARM, F.KP_RESET_COLD, F.KP_RESET_KEY]⟩
def KT_CFG : Reg := ⟨524, 1024, ⟨1, 1, 1, 1, 1, 1⟩, false, [F.KT_CFG_WARN, F.KT_CFG_TRIP, F.KT_CFG_HYST]⟩
def KT_STATUS : Reg := ⟨525, 1025, ⟨1, 1, 1, 1, 1, 1⟩, false, [F.KT_STATUS_WARN_NOW, F.KT_STATUS_TRIPPED, F.KT_STATUS_TRIP_CLR, F.KT_STATUS_HOT]⟩
def KT_TEMP : Reg := ⟨526, 1026, ⟨5, 1, 1, 1, 1, 1⟩, false, [F.KT_TEMP_TEMP, F.KT_TEMP_VALID]⟩
def KD_IMAGE_LO : Reg := ⟨527, 2048, ⟨1, 1, 1, 1, 1, 1⟩, false, [F.KD_IMAGE_LO_SEG]⟩
def KD_IMAGE_HI : Reg := ⟨528, 2049, ⟨1, 1, 1, 1, 1, 1⟩, false, [F.KD_IMAGE_HI_SEG]⟩
def KD_WAVE : Reg := ⟨529, 2050, ⟨1, 1, 1, 1, 1, 1⟩, false, [F.KD_WAVE_ERASE_STEPS, F.KD_WAVE_WRITE_STEPS]⟩
def KD_INTENT : Reg := ⟨530, 2051, ⟨1, 1, 1, 1, 1, 1⟩, false, [F.KD_INTENT_HASH]⟩
def KD_COMMIT : Reg := ⟨531, 2052, ⟨1, 1, 1, 1, 1, 1⟩, false, [F.KD_COMMIT_HASH]⟩
def KD_STATUS : Reg := ⟨532, 2053, ⟨1, 1, 1, 1, 1, 1⟩, false, [F.KD_STATUS_DIRTY, F.KD_STATUS_HOLDING, F.KD_STATUS_OWNER, F.KD_STATUS_NEXT_STEP, F.KD_STATUS_STEPS]⟩
def KD_HASH : Reg := ⟨533, 2054, ⟨1, 1, 1, 1, 1, 1⟩, false, [F.KD_HASH_HASH]⟩
def KD_CNT : Reg := ⟨534, 2064, ⟨48, 1, 1, 1, 1, 1⟩, false, [F.KD_CNT_COUNT]⟩
def KF_NEXT : Reg := ⟨535, 4096, ⟨1, 1, 1, 1, 1, 1⟩, false, [F.KF_NEXT_ENTRY_NO]⟩
def KF_OVERWRITE_COUNT : Reg := ⟨536, 4097, ⟨1, 1, 1, 1, 1, 1⟩, false, [F.KF_OVERWRITE_COUNT_COUNT]⟩
def KF_SEL : Reg := ⟨537, 4098, ⟨1, 1, 1, 1, 1, 1⟩, false, [F.KF_SEL_ENTRY_NO]⟩
def KF_PENDING : Reg := ⟨538, 4099, ⟨1, 1, 1, 1, 1, 1⟩, false, [F.KF_PENDING_PENDING]⟩
def KF_ENTRY : Reg := ⟨539, 4104, ⟨8, 1, 1, 1, 1, 1⟩, false, [F.KF_ENTRY_WORD]⟩
def KJ_PAGE : Reg := ⟨540, 4128, ⟨1, 1, 1, 1, 1, 1⟩, false, [F.KJ_PAGE_PAGE]⟩

end R

/-- The registers of block GLB. -/
def regsGLB : List Reg :=
  [R.GLB_ID, R.GLB_CAP, R.GLB_UID, R.GLB_SCRATCH, R.GLB_STATUS, R.GLB_D2D_DLY, R.GLB_D2D_ERR, R.GLB_IRQ_SUM, R.GLB_SEC_ERR, R.GLB_SEC_ADDR, R.GLB_EVT, R.GLB_EVT_EN] ++
  [R.GLB_RST_CTL, R.GLB_BLK_RST, R.GLB_RST_STATUS, R.GLB_RST_CAUSE]

/-- The registers of block KBR. -/
def regsKBR : List Reg :=
  [R.KBR_CMD, R.KBR_WDATA, R.KBR_TAIL, R.KBR_STATUS, R.KBR_RDATA, R.KBR_IRQ_EN, R.KBR_ABANDONS]

/-- The registers of block PWR. -/
def regsPWR : List Reg :=
  [R.PWR_STATE, R.PWR_EFFECTIVE, R.PWR_PROFILE, R.PWR_REQ, R.PWR_WAKE_HELD, R.PWR_FAIL, R.PWR_EVT, R.PWR_EVT_EN]

/-- The registers of block BCN. -/
def regsBCN : List Reg :=
  [R.BCN_CH_CFG, R.BCN_EN, R.BCN_WAKE, R.BCN_FIRES, R.BCN_LAST_TB, R.BCN_FIRE, R.BCN_FIRED, R.BCN_OVR, R.BCN_EVT, R.BCN_EVT_EN, R.BCN_FIRE_REFUSED, R.BCN_CFG_REFUSED] ++
  [R.BCN_CMD]

/-- The registers of block MBX. -/
def regsMBX : List Reg :=
  [R.MBX_BIND, R.MBX_TMO, R.MBX_DATA, R.MBX_PEEK, R.MBX_STAT, R.MBX_OVR_CNT, R.MBX_TMO_CNT, R.MBX_EVT, R.MBX_EVT_EN, R.MBX_RXPEND, R.MBX_RXEN, R.MBX_REFUSED] ++
  [R.MBX_LOCK, R.MBX_CMD, R.MBX_PROD_CFG]

/-- The registers of block TMB. -/
def regsTMB : List Reg :=
  [R.TMB_CTL, R.TMB_STATUS, R.TMB_TB, R.TMB_PPS_TB, R.TMB_PHASE_ERR, R.TMB_PPS_OFFSET, R.TMB_LOAD, R.TMB_CMD, R.TMB_EVT, R.TMB_EVT_EN, R.TMB_LOCK_LOSS_CNT]

/-- The registers of block TWN. -/
def regsTWN : List Reg :=
  [R.TWN_CTL, R.TWN_CMD, R.TWN_STATUS, R.TWN_EVT, R.TWN_EVT_EN, R.TWN_HELLO_ERR, R.TWN_PEER_UID, R.TWN_CFG_HASH, R.TWN_PEER_CFG_HASH, R.TWN_PEER_IMG_HASH, R.TWN_STREAMS, R.TWN_FOG_PERIOD] ++
  [R.TWN_LINE_TOL, R.TWN_MATCH, R.TWN_SEARCH_MS, R.TWN_TBSYNC_US, R.TWN_ASYM, R.TWN_TB_OFFSET, R.TWN_LINK_DLY, R.TWN_GAP_START, R.TWN_TAKEOVER_TB, R.TWN_FOG_SEQ, R.TWN_FOG_MISSED, R.TWN_LINE_MISS] ++
  [R.TWN_TAKEOVERS, R.TWN_FIGHTS, R.TWN_SEQ_MISMATCH, R.TWN_TRIG_MISMATCH, R.TWN_PKT_ERR, R.TWN_TX_DROP, R.TWN_MBX_NAK, R.TWN_PROD_CFG, R.TWN_RX_EQ, R.TWN_RX_FOM, R.TWN_RX_CODE_ERR, R.TWN_RX_CTRL_ERR] ++
  [R.TWN_RX_MARKER_ERR, R.TWN_RX_LOCK_LOSS, R.TWN_RX_PRBS_CFG, R.TWN_RX_PRBS_ERR, R.TWN_RX_PRBS_BITS, R.TWN_RX_CFG, R.TWN_RX_STATUS, R.TWN_TX_CFG, R.TWN_TX_INJ_CNT]

/-- The registers of block ENC. -/
def regsENC : List Reg :=
  [R.ENC_CFG, R.ENC_MAXRATE, R.ENC_STATUS, R.ENC_EVT, R.ENC_EVT_EN, R.ENC_CMD, R.ENC_POS, R.ENC_PRESET, R.ENC_LAST_TB, R.ENC_INTERVAL, R.ENC_SPEED, R.ENC_MEAS_CFG] ++
  [R.ENC_IDX_POS, R.ENC_IDX_TB, R.ENC_IDX_PERIOD, R.ENC_IDX_TOL, R.ENC_IDX_DRIFT, R.ENC_QUAD_ERR, R.ENC_OVERSPEED, R.ENC_DRIFT_CNT, R.ENC_LOST_CNT, R.ENC_FROZEN_CNT, R.ENC_SSI_CRC_CNT, R.ENC_SSI_ERR_CNT] ++
  [R.ENC_SSI_WARN_CNT, R.ENC_SSI_TIMEOUT_CNT, R.ENC_SSI_SKIP_CNT, R.ENC_SSI_FRAME, R.ENC_SSI_STAT, R.ENC_SSI_CRC, R.ENC_SSI_CRC_INIT, R.ENC_SSI_TIMING, R.ENC_SSI_PERIOD, R.ENC_SSI_RAW, R.ENC_IRQ_SUM, R.ENC_LIST_PAGE] ++
  [R.PO_CFG, R.PO_RATIO, R.PO_SPACING, R.PO_STATUS, R.PO_ACC, R.PO_LOST, R.PO_OUT, R.CMP_CFG, R.CMP_BASE, R.CMP_LEN, R.CMP_CMD, R.CMP_OFFSET] ++
  [R.CMP_PERIOD, R.CMP_CUR_OFFSET, R.CMP_STATUS, R.CMP_PTR, R.CMP_EVT, R.CMP_EVT_EN, R.CMP_MATCHES, R.CMP_AGAINST, R.CMP_SKIPPED, R.CMP_CATCHUP, R.CMP_LAST_TB, R.CMP_LAST]

/-- The registers of block FCG. -/
def regsFCG : List Reg :=
  [R.FCG_CFG, R.FCG_CMD, R.FCG_PERIOD, R.FCG_START_TB, R.FCG_PORTS, R.FCG_C, R.FCG_FMIN, R.FCG_FMAX, R.FCG_FSAFE, R.FCG_SLEW, R.FCG_HOLD_TIME, R.FCG_PRETRIG] ++
  [R.FCG_CONFIRM, R.FCG_LIST_DELAY, R.FCG_LOCK_TOL, R.FCG_STATUS, R.FCG_RATE, R.FCG_SETPOINT, R.FCG_NEXT_TB, R.FCG_LAST_TB, R.FCG_TRIG_ID, R.FCG_PHASE_ERR, R.FCG_EVT, R.FCG_EVT_EN] ++
  [R.FCG_TRIGGERS, R.FCG_UNCONF, R.FCG_HELD, R.FCG_LATE, R.FCG_CLAMPS, R.FCG_TURNS, R.FCG_STRAY, R.FCG_SLIPS, R.FCG_IRQ_SUM]

/-- The registers of block TRG. -/
def regsTRG : List Reg :=
  [R.TRG_CFG, R.TRG_DELAY, R.TRG_WIDTH, R.TRG_FLOOR, R.TRG_STATUS, R.TRG_EVT, R.TRG_EVT_EN, R.TRG_CMD, R.TRG_LAST_TB, R.TRG_PULSES, R.TRG_SHORT_STRETCHED, R.TRG_SHORT_DROPPED] ++
  [R.TRG_LATE, R.TRG_OVERLAP, R.TRG_FULL, R.TRG_DARK_DROP, R.TRG_PAIR_CFG, R.TRG_PAIR_SUPPRESSED, R.TRG_IRQ_SUM]

/-- The registers of block FIO. -/
def regsFIO : List Reg :=
  [R.FIO_CH_CFG, R.FIO_CH_STAT, R.FIO_CH_LATCH, R.FIO_CH_CNT, R.FIO_ARM, R.FIO_DARK, R.FIO_VF_STAT, R.FIO_EVT, R.FIO_EVT_EN, R.FIO_CMD, R.FIO_GIN_CFG, R.FIO_GIN_STAT]

/-- The registers of block PRT. -/
def regsPRT : List Reg :=
  [R.PRT_CFG, R.PRT_CMD, R.PRT_STATUS, R.PRT_EVT, R.PRT_EVT_EN, R.PRT_PWR_CFG, R.PRT_EQ_CFG, R.PRT_FCK_FREQ, R.PRT_LINKUP_NS, R.PRT_LINKS, R.PRT_DOWNS, R.PRT_RETRIES] ++
  [R.PRT_CLK_LOSSES, R.PRT_SELFTEST, R.PRT_UL_CFG, R.PRT_UL_STATUS, R.PRT_UL_PREEMPT, R.PRT_UL_INJ_CNT, R.PRT_LANE_EQ, R.PRT_LANE_FOM, R.PRT_LANE_CODE_ERR, R.PRT_LANE_CTRL_ERR, R.PRT_LANE_MARKER_ERR, R.PRT_LANE_LOCK_LOSS] ++
  [R.PRT_LANE_PRBS_CFG, R.PRT_LANE_PRBS_ERR, R.PRT_LANE_PRBS_BITS]

/-- The registers of block RLY. -/
def regsRLY : List Reg :=
  [R.RLY_CFG, R.RLY_CMD, R.RLY_INJ, R.RLY_TX, R.RLY_STATUS, R.RLY_EVT, R.RLY_EVT_EN, R.RLY_INJ_CNT, R.RLY_STOPS]

/-- The registers of block PKT. -/
def regsPKT : List Reg :=
  [R.PKT_PORT_CFG, R.PKT_PORT_EVT, R.PKT_PORT_EVT_EN, R.PKT_HDR_CORR, R.PKT_HDR_FAIL, R.PKT_UNMAPPED, R.PKT_ORPHAN, R.PKT_ABORTED, R.PKT_DT_UNSUP, R.PKT_UL_RX_LOST, R.PKT_PORT_CMD, R.PKT_PORT_TRIG] ++
  [R.PKT_PORT_TRIG_ID, R.PKT_TRIG_DROP, R.PKT_UL_TXCMD, R.PKT_UL_RXSTAT, R.PKT_UL_TXBUF, R.PKT_UL_RXBUF, R.PKT_MAP, R.PKT_SCFG, R.PKT_GEOM, R.PKT_WDOG, R.PKT_SEQ, R.PKT_ARM] ++
  [R.PKT_SSTAT, R.PKT_SEVT, R.PKT_SEVT_EN, R.PKT_FRAMES, R.PKT_TRUNC, R.PKT_GATED_OUT, R.PKT_RATE_DROP, R.PKT_TAG_DROP, R.PKT_NO_TRIGGER, R.PKT_TRIG_ORPHAN, R.PKT_FE_ORPHAN, R.PKT_WC_ERR] ++
  [R.PKT_CRC_ERR, R.PKT_FNUM_ERR, R.PKT_SCMD, R.PKT_LAST_TAG, R.PKT_IRQ_PORT, R.PKT_IRQ_STREAM, R.PKT_TAG_QUEUE, R.PKT_FEV_CFG]

/-- The registers of block ISP. -/
def regsISP : List Reg :=
  [R.ISP_CTL, R.ISP_STATUS, R.ISP_EVT, R.ISP_EVT_EN, R.ISP_SUBMIT, R.ISP_SUBMIT_SEQ, R.ISP_BUSY_CYCLES, R.ISP_SWITCHES, R.ISP_DONE_CFG, R.ISP_LAST_STAT, R.ISP_CTX_CFG, R.ISP_CTX_SRC] ++
  [R.ISP_CTX_MERGE, R.ISP_CTX_STRIPE, R.ISP_CTX_MAX_AGE, R.ISP_CTX_LIN, R.ISP_CTX_SAT, R.ISP_CTX_BLACK, R.ISP_CTX_THR, R.ISP_CTX_RATIO, R.ISP_CTX_BLEND, R.ISP_CTX_DEFECT, R.ISP_CTX_DEF_LEN, R.ISP_CTX_DYN_THRESH] ++
  [R.ISP_CTX_SHADE, R.ISP_CTX_CCM_0, R.ISP_CTX_CCM_1, R.ISP_CTX_CCM_2, R.ISP_CTX_CCM_3, R.ISP_CTX_CCM_4, R.ISP_CTX_CCM_5, R.ISP_CTX_IRSUB_0, R.ISP_CTX_IRSUB_1, R.ISP_CTX_LUMA_0, R.ISP_CTX_LUMA_1, R.ISP_CTX_OUT_EN] ++
  [R.ISP_CTX_DISP, R.ISP_CTX_CODE, R.ISP_CTX_VIS, R.ISP_CTX_VIS_XY, R.ISP_CTX_VIS_WH, R.ISP_CTX_OUT_BASE, R.ISP_CTX_OUT_SIZE, R.ISP_CTX_STAT, R.ISP_CTX_STAT_XY, R.ISP_CTX_STAT_WH, R.ISP_CTX_STATUS, R.ISP_CTX_LAST_SEQ] ++
  [R.ISP_CTX_DONE, R.ISP_CTX_BYPASS_AGE, R.ISP_CTX_BYPASS_OVERRUN, R.ISP_CTX_BYPASS_ERR, R.ISP_CTX_MERGE_MISS, R.ISP_CTX_DEF_ORDER, R.ISP_CTX_STAT_LOST, R.ISP_CTX_CMD]

/-- The registers of block POD. -/
def regsPOD : List Reg :=
  [R.POD_STATUS, R.POD_BUSY_CYCLES, R.POD_ACC_SAT, R.POD_OUT_SAT, R.POD_CMD, R.POD_LSRAM_PAGE, R.POD_SUB_LIST, R.POD_SUB_RUN, R.POD_SUB_SEQ, R.POD_SUB_CMD, R.POD_SUB_RES, R.POD_QUEUE] ++
  [R.POD_EVT, R.POD_EVT_EN, R.POD_RUN_ERR, R.POD_RUNS_OK, R.POD_RUNS_ERR, R.POD_RUNS_NO_INPUT, R.POD_RUNS_DISCARDED, R.POD_GATE_FULL, R.POD_RUN_FULL, R.POD_CCMD, R.POD_GATE_PENDING, R.POD_VDT_CFG] ++
  [R.POD_GATE_CFG, R.POD_GATE_DEADLINE, R.POD_GATE_WIN, R.POD_AUTO_LIST, R.POD_NET_VERDICT, R.POD_NET_SEQ, R.POD_FINAL, R.POD_FINAL_SEQ, R.POD_GATE_KEEP, R.POD_GATE_REJECT, R.POD_GATE_FORCED, R.POD_GATE_DL_OUT] ++
  [R.POD_GATE_LATE, R.POD_GATE_TRACKED]

/-- The registers of block SQ. -/
def regsSQ : List Reg :=
  [R.SQ_CTL, R.SQ_STATUS, R.SQ_PC, R.SQ_WAKE_PC, R.SQ_CYCLES, R.SQ_SPEC_COMMITTED, R.SQ_SPEC_SQUASHED, R.SQ_FAULT_PC, R.SQ_RECIPE_ERR, R.SQ_IRQ_STATUS, R.SQ_IRQ_EN, R.SQ_VREG] ++
  [R.SQ_LK, R.SQ_FLAGS, R.SQ_HASH_CTL, R.SQ_PROG_HASH]

/-- The registers of block DMA. -/
def regsDMA : List Reg :=
  [R.DMA_CH_CFG, R.DMA_CH_CMD, R.DMA_CH_STATUS, R.DMA_CH_ACTIVE, R.DMA_CH_POS_ROW, R.DMA_CH_POS_BYTE, R.DMA_CH_EVT, R.DMA_CH_EVT_EN, R.DMA_CH_DONE, R.DMA_CH_VOIDED, R.DMA_CH_GONE, R.DMA_CH_ABORTED] ++
  [R.DMA_CH_LATE, R.DMA_CH_NO_OUTPUT, R.DMA_SDLV_CFG, R.DMA_SDLV_RINGS, R.DMA_SDLV_LATE, R.DMA_SDLV_NEXT, R.DMA_SDLV_DELIVERED, R.DMA_SDLV_MISSED, R.DMA_SDLV_SHORT, R.DMA_SUB_DESC, R.DMA_SUB_CMD, R.DMA_SUB_RES] ++
  [R.DMA_INFLIGHT]

/-- The registers of block MEM. -/
def regsMEM : List Reg :=
  [R.MEM_CFG, R.MEM_STATUS, R.MEM_CMD, R.MEM_USABLE, R.MEM_EVT, R.MEM_EVT_EN, R.MEM_LINK_CORR, R.MEM_INLINE_CORR, R.MEM_UNCORR, R.MEM_UNCORR_ADDR, R.MEM_UNCORR_MID, R.MEM_STORE_BUF] ++
  [R.MEM_FRZ_CFG, R.MEM_SREG_BASE, R.MEM_SREG_CFG, R.MEM_SREG_NEWEST, R.MEM_SREG_DROPPED, R.MEM_BURST_CFG, R.MEM_BURST_PRE, R.MEM_BURST_POST, R.MEM_BURST_EVENT_SEQ, R.MEM_BURST_EVENT_TB, R.MEM_BURST_PRE_HELD, R.MEM_BURST_EXTRA]

/-- The registers of block RNG. -/
def regsRNG : List Reg :=
  [R.RNG_CFG, R.RNG_IRQ, R.RNG_BASE, R.RNG_WB, R.RNG_TAIL, R.RNG_HEAD, R.RNG_BUOY_LVL, R.RNG_BUOY_STAT, R.RNG_BUOY_CNT, R.RNG_BUOY_PEAK, R.RNG_BUOY_TROUGH, R.RNG_ERR] ++
  [R.RNG_LOST, R.RNG_DB_ERR]

/-- The registers of block HIF. -/
def regsHIF : List Reg :=
  [R.HIF_LINK_STATUS, R.HIF_CTL, R.HIF_EVT, R.HIF_EVT_EN, R.HIF_BAD_ACCESS, R.HIF_CPL_TIMEOUT, R.HIF_POISONED, R.HIF_LINK_DOWNS, R.HIF_DB_ERR, R.HIF_FLRS, R.HIF_RING_ERR_FIRST, R.HIF_RING_ERR_ROUTE] ++
  [R.HIF_IRQ_REARM, R.HIF_VF_STATUS, R.HIF_CMD, R.HIF_BLK_VEC, R.HIF_EVT_ROUTE]

/-- The registers of block KEEP. -/
def regsKEEP : List Reg :=
  [R.KI_ID, R.KI_UID, R.KI_LAST_ERR, R.KI_WALL, R.KI_POLLS_SINCE_TIME, R.KL_LIFECYCLE, R.KL_LOCKS, R.KL_RANK, R.KL_BOOT, R.KP_PROFILE, R.KP_REQ, R.KP_EFFECTIVE] ++
  [R.KP_GOOD, R.KP_FAIL, R.KP_RESET, R.KT_CFG, R.KT_STATUS, R.KT_TEMP, R.KD_IMAGE_LO, R.KD_IMAGE_HI, R.KD_WAVE, R.KD_INTENT, R.KD_COMMIT, R.KD_STATUS] ++
  [R.KD_HASH, R.KD_CNT, R.KF_NEXT, R.KF_OVERWRITE_COUNT, R.KF_SEL, R.KF_PENDING, R.KF_ENTRY, R.KJ_PAGE]

/-- The field numbers of a block, from the first to before the last: a block reset returns these to their Reset values. -/
def blockFields : Block → Nat × Nat
  | .glb => (0, 38)
  | .kbr => (38, 53)
  | .pwr => (53, 61)
  | .bcn => (61, 78)
  | .mbx => (78, 103)
  | .tmb => (103, 122)
  | .twn => (122, 197)
  | .enc => (197, 308)
  | .fcg => (308, 354)
  | .trg => (354, 386)
  | .fio => (386, 415)
  | .prt => (415, 477)
  | .rly => (477, 499)
  | .pkt => (499, 566)
  | .isp => (566, 680)
  | .pod => (680, 734)
  | .sq => (734, 766)
  | .dma => (766, 809)
  | .mem => (809, 849)
  | .rng => (849, 884)
  | .hif => (884, 909)
  | .keep => (909, 956)

/-- The registers of a block. -/
def blockRegs : Block → List Reg
  | .glb => regsGLB
  | .kbr => regsKBR
  | .pwr => regsPWR
  | .bcn => regsBCN
  | .mbx => regsMBX
  | .tmb => regsTMB
  | .twn => regsTWN
  | .enc => regsENC
  | .fcg => regsFCG
  | .trg => regsTRG
  | .fio => regsFIO
  | .prt => regsPRT
  | .rly => regsRLY
  | .pkt => regsPKT
  | .isp => regsISP
  | .pod => regsPOD
  | .sq => regsSQ
  | .dma => regsDMA
  | .mem => regsMEM
  | .rng => regsRNG
  | .hif => regsHIF
  | .keep => regsKEEP

/-- The numbers of the fields marked "kept" (R19). -/
def keptFields : List Nat :=
  [7, 11, 12, 17, 36, 37, 386, 396, 397, 910, 914, 917, 918, 928, 929, 930, 939, 940, 943, 945, 946, 948, 949, 950, 951]

end Sys2Proof.Machine
end

