-- ==== Sys2Proof/Machine/Sparse.lean ====
section
/-! DEFINITION. Sparse canonical maps from natural numbers: keys strictly rising, and no entry equal to what an unlisted
key reads as. Every memory, the register file and every numbered unit of the device is one of these. -/
namespace Sys2Proof.Machine

/-- What key `k` reads as; `d` where it is not listed. -/
def sget {α : Type} (m : List (Nat × α)) (d : α) (k : Nat) : α :=
  match m with
  | [] => d
  | (k', v) :: r => if k' = k then v else sget r d k

/-- Drop key `k`. -/
def serase {α : Type} (m : List (Nat × α)) (k : Nat) : List (Nat × α) :=
  match m with
  | [] => []
  | (k', v) :: r => if k' = k then serase r k else (k', v) :: serase r k

/-- Put `v` at key `k` in front of the first key that is not below `k`. -/
def sinsert {α : Type} (m : List (Nat × α)) (k : Nat) (v : α) : List (Nat × α) :=
  match m with
  | [] => [(k, v)]
  | (k', v') :: r => if k' < k then (k', v') :: sinsert r k v else (k, v) :: (k', v') :: r

/-- Set key `k` to `v`; the entry is dropped where `v` is what an unlisted key reads as. -/
def sset {α : Type} [DecidableEq α] (m : List (Nat × α)) (d : α) (k : Nat) (v : α) : List (Nat × α) :=
  if v = d then serase m k else sinsert (serase m k) k v

/-- The keys of a sparse map rise strictly. -/
def sortedKeys {α : Type} (m : List (Nat × α)) : Bool :=
  match m with
  | [] => true
  | [_] => true
  | (k, _) :: (k', v') :: r => k < k' && sortedKeys ((k', v') :: r)

/-- The canonical form: keys rise strictly and no entry reads as an unlisted key does. -/
def Sparse.wf {α : Type} [DecidableEq α] (d : α) (m : List (Nat × α)) : Bool :=
  sortedKeys m && m.all fun p => p.2 ≠ d

/-- Keep the entries whose key satisfies `p`. -/
def sfilter {α : Type} (p : Nat → Bool) (m : List (Nat × α)) : List (Nat × α) :=
  m.filter fun e => p e.1

end Sys2Proof.Machine
end

