-- ==== Sys2Proof/Machine/Ops.lean ====
section
/-! DEFINITION. The named operations over registers, events, counters, domains, free values and host output that every
meaning is built from. -/
namespace Sys2Proof.Machine

/-! ### The register file -/

/-- The key of instance `i` of a field in the register file. -/
def Field.key (f : Field) (i : Nat) : Nat := f.fid % 1024 + 1024 * i

/-- The value of instance `i` of a field; its Reset value where nothing was written (R19). -/
def rd (s : State) (f : Field) (i : Nat := 0) : Nat := sget s.regs f.reset (f.key i) % 2 ^ f.width

/-- Set instance `i` of a field to the low bits of `v`. -/
def wr (s : State) (f : Field) (i : Nat) (v : Nat) : State :=
  { s with regs := sset s.regs f.reset (f.key i) (v % 2 ^ f.width) }

/-- A one-bit field is set. -/
def isSet (s : State) (f : Field) (i : Nat := 0) : Bool := rd s f i ≠ 0

/-- Bit `b` of a field is set. -/
def hasBit (s : State) (f : Field) (i b : Nat) : Bool := (rd s f i).testBit b

/-- Set bit `b` of a field: an event bit (R17), a mask bit. -/
def setBit (s : State) (f : Field) (i b : Nat) : State := wr s f i (rd s f i ||| 2 ^ b)

/-- Clear the bits of `mask` in a field. -/
def clearBits (s : State) (f : Field) (i mask : Nat) : State := wr s f i (Nat.bitwise (fun a b => a && !b) (rd s f i) mask)

/-- Set or clear bit `b` of a field. -/
def putBit (s : State) (f : Field) (i b : Nat) (on : Bool) : State :=
  if on then setBit s f i b else clearBits s f i (2 ^ b)

/-- Count `k` more events in a SAT counter, which holds at all ones (R17). -/
def bumpBy (s : State) (f : Field) (i k : Nat) : State := wr s f i (min (rd s f i + k) (2 ^ f.width - 1))

/-- Count one event in a SAT counter. -/
def bump (s : State) (f : Field) (i : Nat := 0) : State := bumpBy s f i 1

/-- Clear every counter of a list at one instance (a CLR_COUNTS bit, R17). -/
def clearAll (s : State) (fs : List Field) (i : Nat) : State := fs.foldl (fun s f => wr s f i 0) s

/-- A one-bit or wider field from a Boolean. -/
def wrBool (s : State) (f : Field) (i : Nat) (b : Bool) : State := wr s f i (if b then 1 else 0)

/-- Return the fields of a block to their Reset values, but those marked "kept" (R19). -/
def resetBlockRegs (s : State) (b : Block) : State :=
  let (lo, hi) := blockFields b
  { s with regs := sfilter (fun k => k % 1024 < lo || hi ≤ k % 1024 || keptFields.contains (k % 1024)) s.regs }

/-- Return one instance of the fields of a list to their Reset values. -/
def resetFields (s : State) (fs : List Field) (i : Nat) : State := fs.foldl (fun s f => wr s f i f.reset) s

/-- The value of instance `i` of a register, from its stored fields. -/
def rawReg (s : State) (r : Reg) (i : Nat) : Nat := r.fields.foldl (fun a f => a + rd s f i * 2 ^ f.lo) 0

/-! ### Free values -/

/-- Take the next free value, of `w` bits (log 3). -/
def takeFree (s : State) (w : Nat) : Nat × State :=
  (Config.freeValue s.freeCtr % 2 ^ w, { s with freeCtr := s.freeCtr + 1 })

/-! ### Power domains and masters -/

/-- Domain `d` reports power good (KP_GOOD). -/
def domGood (s : State) (d : Nat) : Bool := (rd s F.KP_GOOD_DOMAINS).testBit d

/-- A power-on, cold or warm reset of the A-die runs (R571, R608). -/
def resetRunning (s : State) : Bool := isSet s F.GLB_RST_STATUS_WARM_BUSY || s.aDieReset

/-- Domain `d` has power and no reset holds it; TB keeps counting through a warm reset (R48, R571, R572). -/
def domReach (s : State) (d : Nat) : Bool := domGood s d && !(resetRunning s && d ≠ 4)

/-- The logic of domain `d` works: it is reached, and the lane reference that clocks every A-die function but the host link
and the time PLL has not stopped (R31, R32; log 68). -/
def domUp (s : State) (d : Nat) : Bool := domReach s d && !(s.laneStopped && (d == 2 || (decide (6 ≤ d) && decide (d ≤ 23))))

/-- The domain of the block of bit b of GLB_IRQ_SUM; none for the blocks that are always on (R48; log 9). -/
def bitDomain (b : Nat) : Option Nat :=
  if 21 ≤ b ∧ b ≤ 28 then some (b - 15)
  else match b with
    | 4 => some 4
    | 5 => some 15
    | 6 => some 22
    | 7 => some 22
    | 8 => some 22
    | 10 => some 22
    | 11 => some 14
    | 12 => some 16
    | 13 => some 17
    | 14 => some 22
    | 15 => some 21
    | 16 => some 22
    | 17 => some 23
    | 18 => some 22
    | 19 => some 5
    | _ => none

/-- The reset of block b is in progress (R576). -/
def blkBusy (s : State) (b : Nat) : Bool := (rd s F.GLB_RST_STATUS_BLK_BUSY).testBit b

/-- The block of bit b works: its domain does, and no block reset holds it. -/
def blockWorks (s : State) (b : Nat) : Bool := (bitDomain b).all (domUp s) && !blkBusy s b

/-- The registers of the block of bit b are reached: its domain and, but for KBR, PWR, BCN, MBX and GLB, D22 FABRIC have
power, and no reset of the block or of the A-die runs (R47, R48, R571, R576). -/
def blockReach (s : State) (b : Nat) : Bool :=
  (bitDomain b).all (domReach s) && !blkBusy s b && !resetRunning s && (b < 4 || b == 20 || domReach s 22)

/-- The masters that are open: the VFs and the twin (the table of masters, R39). -/
def isOpen (mid : Nat) : Bool := (0x02 ≤ mid && mid ≤ 0x08) || mid == 0x18

/-- The sequencer core of a MID (R39). -/
def coreOf (mid : Nat) : Option Nat := if 0x10 ≤ mid ∧ mid ≤ 0x17 then some (mid - 0x10) else none

/-- The PCI function that accesses host memory for a master: VFk for its MID, the PF otherwise (R446). -/
def fnOf (mid : Nat) : Nat := if 0x02 ≤ mid ∧ mid ≤ 0x08 then mid - 1 else 0

/-- Record a refused access of an open master to a T resource (R42); `isIndex` where the resource is a channel, mailbox or
ring (GLB_SEC_ADDR). -/
def secRefuse (s : State) (mid what : Nat) (isIndex : Bool) : State :=
  let s := bump s F.GLB_SEC_ERR_COUNT
  if isSet s F.GLB_SEC_ERR_VALID then s
  else
    let s := wr s F.GLB_SEC_ERR_MID 0 mid
    let s := wr s F.GLB_SEC_ADDR_OFFSET 0 what
    let s := wrBool s F.GLB_SEC_ADDR_IS_INDEX 0 isIndex
    let s := wr s F.GLB_SEC_ERR_VALID 0 1
    setBit s F.GLB_EVT_EVT 0 5

/-- Change a GLB_STATUS bit; the matching GLB_EVT bit is set where it changes (R38). -/
def setStatus (s : State) (f : Field) (evt : Nat) (on : Bool) : State :=
  if isSet s f = on then s else setBit (wrBool s f 0 on) F.GLB_EVT_EVT 0 evt

/-! ### Memories that lose their contents (R350, R395, R580)

Such a memory comes up with zeros (log 5); a loss leaves free bytes (log 91). It lists how a byte differs from what the memory
came up with. -/

/-- The numbers of the memories. -/
def memSPM : Nat := 0
def memDATA : Nat := 1
def memSHARED : Nat := 2
def memPROG : Nat := 3
def memISP (p : Nat) : Nat := 4 + p
def memLP5X : Nat := 6
def memLIST : Nat := 7

/-- What memory `u` came up with at address `a`. -/
def memBack (s : State) (u a : Nat) : Nat := if sget s.memLost 0 u = 0 then 0 else Config.lostByte u (sget s.memLost 0 u) a

/-- Memory `u` loses its contents. -/
def memLose (s : State) (u : Nat) : State := { s with memLost := sset s.memLost 0 u (sget s.memLost 0 u + 1) }

/-! ### Units of the device -/

def coreAt (s : State) (c : Nat) : SqCore := sget s.cores SqCore.init c
def setCore (s : State) (c : Nat) (k : SqCore) : State := { s with cores := sset s.cores SqCore.init c k }

/-- A byte of program memory that nothing has written: what the recipe ROM left there, else what the memory came up with. -/
def progRest (s : State) (a : Nat) : Nat :=
  if (coreAt s (a / 0x8000)).rom = 0 then memBack s memPROG a % 256
  else Config.romByte (coreAt s (a / 0x8000)).rom (a % 0x8000) % 256

/-- A byte of program memory, core c at c × 0x8000: what was written, else the rest (R59, R74). -/
def progByte (s : State) (a : Nat) : Nat :=
  match sget s.prog 0 a with
  | 0 => progRest s a
  | n + 1 => n % 256

def mbxAt (s : State) (m : Nat) : Mbx := sget s.mbx ⟨0, 0⟩ m
def setMbx (s : State) (m : Nat) (k : Mbx) : State := { s with mbx := sset s.mbx ⟨0, 0⟩ m k }

def pciAt (s : State) (fn : Nat) : PciFn := sget s.pci PciFn.init fn
def setPci (s : State) (fn : Nat) (k : PciFn) : State := { s with pci := sset s.pci PciFn.init fn k }

/-- The table index of vector `v` of function `fn` (R448: 2,048 of the PF, 64 of each VF). -/
def msixKey (fn v : Nat) : Nat := fn * 2048 + v

def msixAt (s : State) (fn v : Nat) : MsixEntry := sget s.msix MsixEntry.init (msixKey fn v)
def setMsix (s : State) (fn v : Nat) (k : MsixEntry) : State :=
  { s with msix := sset s.msix MsixEntry.init (msixKey fn v) k }

/-! ### Bytes -/

/-- The `n` little-endian bytes of a value (R12). -/
def toBytes (n v : Nat) : List Nat := (List.range n).map fun i => v / 2 ^ (8 * i) % 256

/-- The value of little-endian bytes (R12). -/
def ofBytes (bs : List Nat) : Nat := bs.foldr (fun b a => b % 256 + 256 * a) 0

/-- A field of a byte string, little-endian. -/
def leField (bs : List Nat) (off n : Nat) : Nat := ofBytes ((bs.drop off).take n)

/-- One byte of a memory whose unlisted bytes read zero (log 5). -/
def byteAt (m : List Host.Cell) (a : Nat) : Byte := sget m 0 a

/-- Write one byte of such a memory. -/
def putByte (m : List Host.Cell) (a : Nat) (b : Byte) : List Host.Cell := sset m 0 a b

/-- `n` bytes from address `a`. -/
def getBytes (m : List Host.Cell) (a n : Nat) : List Nat := (List.range n).map fun i => (byteAt m (a + i)).toNat

/-- Write bytes from address `a` on. -/
def putBytes (m : List Host.Cell) (a : Nat) (bs : List Nat) : List Host.Cell :=
  (bs.zipIdx).foldl (fun m p => putByte m (a + p.2) (BitVec.ofNat 8 p.1)) m

/-! ### Bytes of memories that can lose their contents -/

/-- One byte of memory `u`, whose list is `m`. -/
def ramByte (s : State) (u : Nat) (m : List Host.Cell) (a : Nat) : Byte := byteAt m a ^^^ BitVec.ofNat 8 (memBack s u a)

/-- The list of memory `u` with byte `a` written. -/
def ramPut (s : State) (u : Nat) (m : List Host.Cell) (a : Nat) (b : Byte) : List Host.Cell :=
  putByte m a (b ^^^ BitVec.ofNat 8 (memBack s u a))

def ramBytes (s : State) (u : Nat) (m : List Host.Cell) (a n : Nat) : List Nat :=
  (List.range n).map fun i => (ramByte s u m (a + i)).toNat

def ramPuts (s : State) (u : Nat) (m : List Host.Cell) (a : Nat) (bs : List Nat) : List Host.Cell :=
  (bs.zipIdx).foldl (fun m p => ramPut s u m (a + p.2) (BitVec.ofNat 8 p.1)) m

def spmBytes (s : State) (a n : Nat) : List Nat := ramBytes s memSPM s.spm a n
def spmPut (s : State) (a : Nat) (bs : List Nat) : State := { s with spm := ramPuts s memSPM s.spm a bs }
def dataByte (s : State) (a : Nat) : Byte := ramByte s memDATA s.data a
def dataPut (s : State) (a : Nat) (b : Byte) : State := { s with data := ramPut s memDATA s.data a b }
def sharedByte (s : State) (a : Nat) : Byte := ramByte s memSHARED s.shared a
def sharedPut (s : State) (a : Nat) (b : Byte) : State := { s with shared := ramPut s memSHARED s.shared a b }
def sharedBytes (s : State) (a n : Nat) : List Nat := ramBytes s memSHARED s.shared a n
def sharedPuts (s : State) (a : Nat) (bs : List Nat) : State := { s with shared := ramPuts s memSHARED s.shared a bs }
def lpBytes (s : State) (a n : Nat) : List Nat := ramBytes s memLP5X s.lp5x a n
def lpPut (s : State) (a : Nat) (bs : List Nat) : State := { s with lp5x := ramPuts s memLP5X s.lp5x a bs }

/-! ### Host output -/

/-- A host-bound message reaches the host. -/
def landHost (s : State) (m : HostMsg) : State := { s with sent := s.sent ++ [m] }

/-- Send a host-bound message; it is held, in order, while the link is down (R437). -/
def sendHost (s : State) (m : HostMsg) : State :=
  if isSet s F.HIF_LINK_STATUS_UP then landHost s m else { s with held := s.held ++ [m] }

/-- Write bytes to host memory in the address space of a function (R446). -/
def hostWrite (s : State) (fn addr : Nat) (bytes : List Nat) : State :=
  sendHost s (.write fn addr false (bytes.map (BitVec.ofNat 8)))

/-- A data write of a descriptor: it takes the relaxed-ordering attribute where HIF_CTL.RO_EN and the function's Relaxed
Ordering Enable are both 1 (R439). -/
def hostData (s : State) (fn addr : Nat) (bytes : List Nat) : State :=
  sendHost s (.write fn addr (isSet s F.HIF_CTL_RO_EN && (pciAt s fn).roEn) (bytes.map (BitVec.ofNat 8)))

/-- Send the message of a vector; a mask leaves it pending; nothing happens while MSI-X is disabled (R448). -/
def sendMsix (s : State) (fn v : Nat) : State :=
  let p := pciAt s fn
  let e := msixAt s fn v
  if p.msixEn = false then s
  else if p.msixMask || e.masked then setMsix s fn v { e with pending := true }
  else sendHost s (.msi fn e.addr e.data)

/-! ### Interrupt summary (R37) -/

/-- Some instance has an event bit that is pending and enabled. -/
def anyPending (s : State) (evt en : Field) : Bool :=
  s.regs.any fun e => e.1 % 1024 == evt.fid && (e.2 &&& rd s en (e.1 / 1024)) ≠ 0

/-- Instance `i` has an event bit that is pending and enabled. -/
def pendingAt (s : State) (evt en : Field) (i : Nat) : Bool := (rd s evt i &&& rd s en i) ≠ 0

/-- Bit `b` of GLB_IRQ_SUM: the OR of the enabled pending sources of its block (R37). -/
def irqBit (s : State) (b : Nat) : Bool :=
  match b with
  | 0 => (rd s F.KBR_STATUS_DONE + 2 * rd s F.KBR_STATUS_ABANDONED + 4 * rd s F.KBR_STATUS_RCRC_ERR
          + 8 * rd s F.KBR_STATUS_CFG_ERR &&& rd s F.KBR_IRQ_EN_EN) ≠ 0
  | 1 => pendingAt s F.PWR_EVT_EVT F.PWR_EVT_EN_EN 0
  | 2 => pendingAt s F.BCN_EVT_EVT F.BCN_EVT_EN_EN 0
  | 3 => pendingAt s F.MBX_EVT_EVT F.MBX_EVT_EN_EN 0 || pendingAt s F.MBX_RXPEND_MB F.MBX_RXEN_MB 0
  | 4 => pendingAt s F.TMB_EVT_EVT F.TMB_EVT_EN_EN 0
  | 5 => pendingAt s F.TWN_EVT_EVT F.TWN_EVT_EN_EN 0
  | 6 => anyPending s F.ENC_EVT_EVT F.ENC_EVT_EN_EN || anyPending s F.CMP_EVT_EVT F.CMP_EVT_EN_EN
         || [0, 1].any fun p => isSet s F.PO_STATUS_OVERFLOW p || isSet s F.PO_STATUS_CFG_ERR p
  | 7 => anyPending s F.FCG_EVT_EVT F.FCG_EVT_EN_EN
  | 8 => anyPending s F.TRG_EVT_EVT F.TRG_EVT_EN_EN
  | 9 => pendingAt s F.FIO_EVT_EVT F.FIO_EVT_EN_EN 0
  | 10 => anyPending s F.PKT_PORT_EVT_EVT F.PKT_PORT_EVT_EN_EN || anyPending s F.PKT_SEVT_EVT F.PKT_SEVT_EN_EN
  | 11 => anyPending s F.RLY_EVT_EVT F.RLY_EVT_EN_EN
  | 12 => pendingAt s F.ISP_EVT_EVT F.ISP_EVT_EN_EN 0
  | 13 => pendingAt s F.ISP_EVT_EVT F.ISP_EVT_EN_EN 1
  | 14 => pendingAt s F.POD_EVT_EVT F.POD_EVT_EN_EN 0
  | 15 => anyPending s F.SQ_IRQ_STATUS_EVT F.SQ_IRQ_EN_EN
  | 16 => anyPending s F.DMA_CH_EVT_EVT F.DMA_CH_EVT_EN_EN
  | 17 => pendingAt s F.MEM_EVT_EVT F.MEM_EVT_EN_EN 0
  | 18 => anyPending s F.RNG_BUOY_STAT_ERROR F.RNG_CFG_ERR_IRQ_EN
  | 19 => pendingAt s F.HIF_EVT_EVT F.HIF_EVT_EN_EN 0
  | 20 => pendingAt s F.GLB_EVT_EVT F.GLB_EVT_EN_EN 0
  | b => decide (21 ≤ b) && decide (b ≤ 28) && pendingAt s F.PRT_EVT_EVT F.PRT_EVT_EN_EN (b - 21)

/-- GLB_IRQ_SUM (R37). -/
def irqSum (s : State) : Nat := (List.range 29).foldl (fun a b => if irqBit s b then a + 2 ^ b else a) 0

/-- Send the message of block `b` where HIF_BLK_VEC_b is enabled (R449). -/
def blockMessage (s : State) (b : Nat) : State :=
  if isSet s F.HIF_BLK_VEC_EN b then sendMsix s 0 (rd s F.HIF_BLK_VEC_VECTOR b) else s

/-- After a command that led from `s` to `t`, send a block message for each GLB_IRQ_SUM bit that rose (R449). -/
def raiseIrq (s t : State) : State :=
  (List.range 29).foldl (fun u b => if irqBit t b && !irqBit s b then blockMessage u b else u) t

/-! ### Frames (spec/07) -/

/-- TMB_STATUS.UNLOCKED (R197). -/
def tbUnlocked (s : State) : Bool :=
  rd s F.TMB_STATUS_STATE = 0 || (isSet s F.TMB_CTL_PPS_EN && rd s F.TMB_STATUS_STATE ≠ 2)

/-- ENC_STATUS.FAULT_ACTIVE of channel k (R179). -/
def encFaultActive (s : State) (k : Nat) : Bool :=
  isSet s F.ENC_STATUS_LOST k || isSet s F.ENC_STATUS_FROZEN k || (sget s.enc Enc.init k).bad
  || isSet s F.ENC_STATUS_Z_REVERSED k
  || [0, 1, 2].any fun i => rd s F.FIO_CH_STAT_KINDS (3 * k + i) % 32 ≠ 0

/-- The relays that are RUNNING and name port n as SRC_PORT (R299, RELAYED). -/
def relaysOf (s : State) (n : Nat) : Nat :=
  (List.range 4).foldl (fun m k => if isSet s F.RLY_CFG_EN k && rd s F.RLY_CFG_SRC k == 0
    && rd s F.RLY_CFG_SRC_PORT k == n && rd s F.RLY_STATUS_STATE k == 2 then m + 2 ^ k else m) 0

/-- The bits of a frame's FLAGS (R298). -/
def flHDRCORR : Nat := 0
def flHDRFAIL : Nat := 1
def flCRCERR : Nat := 2
def flTRUNC : Nat := 3
def flLINES : Nat := 4
def flUNCONF : Nat := 5
def flHELD : Nat := 6
def flVOIDED : Nat := 7
def flFORCED : Nat := 8
def flRELAYED : Nat := 10
def flTAKEOVER : Nat := 11
def flDROPPED : Nat := 12
def flENCFAULT : Nat := 13
def flUNLOCKED : Nat := 14
def flSEQGAP : Nat := 15
def flECC : Nat := 16
def flBYPASSED : Nat := 17
def flLATE : Nat := 18

/-- Set a flag of a frame. -/
def Frame.flag (f : Frame) (b : Nat) : Frame := { f with flags := f.flags ||| 2 ^ b }

/-- Set a flag of a frame where a condition holds. -/
def Frame.flagIf (f : Frame) (c : Bool) (b : Nat) : Frame := if c then f.flag b else f

/-- An open frame takes the conditions that hold now: TB_UNLOCKED and ENCODER_FAULT at any time from TB_FS to TB_FE, and a
relay that stays RUNNING throughout (R299). -/
def settleFrame (s : State) (f : Frame) : Frame :=
  if f.phase ≠ .open then f
  else
    let mask := rd s F.PKT_SCFG_ENC_MASK f.stream
    let f := f.flagIf (tbUnlocked s) flUNLOCKED
    let f := f.flagIf ((List.range 4).any fun k => mask.testBit k && encFaultActive s k) flENCFAULT
    { f with relayed := f.relayed &&& relaysOf s f.port }

def settleFrames (s : State) : State := { s with frames := s.frames.map (settleFrame s) }

/-- End a command that leads from `s` to `t`: the next state, with the conditions its open frames record (R299) and the
block messages it raised (R449). -/
def finish (s t : State) : Host.Outcome State Fault Refusal := .next (raiseIrq s (settleFrames t))

/-- A command on unit `n` of `cnt`: its effect `f`, or a fault where the device has no such unit. -/
def onUnit (n cnt : Nat) (s : State) (f : State → State) : Host.Outcome State Fault Refusal :=
  if n < cnt then finish s (f s) else .fault .noSuchUnit

/-- A command or event of the block of bit `b`: nothing happens while the block does not work. -/
def inBlock (b : Nat) (s : State) (f : State → State) : State := if blockWorks s b then f s else s

/-- A register access of the block of bit `b`: nothing happens while the block is not reached (R47). -/
def inReach (b : Nat) (s : State) (f : State → State) : State := if blockReach s b then f s else s

/-- A command or event of unit `n` of `cnt` in the block of bit `b`. -/
def onBlock (b n cnt : Nat) (s : State) (f : State → State) : Host.Outcome State Fault Refusal :=
  onUnit n cnt s fun s => inBlock b s f

end Sys2Proof.Machine
end

