-- ==== Sys2Proof/Machine/LineTx.lean ====
section
/-! DEFINITION. The lines that the device sends by itself: what a relay in IDLE_LINE or PRBS, an uplink and the twin link put
on their pins, bit by bit (spec/06 R244, R260, R261, R267, R273; spec/13 R495). -/
namespace Sys2Proof.Machine

def lineAt (s : State) (k : Nat) : TxLine := sget s.lines TxLine.init k
def setLine (s : State) (k : Nat) (l : TxLine) : State := { s with lines := sset s.lines TxLine.init k l }

/-- The twin's line, and the line of the uplink of port n. -/
def twinLine : Nat := 12
def ulLine (n : Nat) : Nat := 4 + n

/-- Relay k runs the self-test of a port (R262; STATE 10 is SELFTEST), and that port. -/
def relayTested (s : State) (k : Nat) : Option Nat := [k, k + 4].find? fun p => rd s F.PRT_STATUS_STATE p == 10

/-- What line k sends with: a relay by its own registers, in a self-test by those of the port (R261, R262); the twin link RLB on
one lane, PEER_ID 0x70 + rank (R273, spec/13). The RATE byte of the twin's markers is open: no RATE of R236 is its rate
(log 86). -/
def lineCfg (s : State) (k : Nat) : LineCfg :=
  if k = twinLine then ⟨1, 1, Config.twinRate % 256, 0x70 + rd s F.GLB_STATUS_TWIN_RANK⟩
  else match relayTested s k with
    | some p => ⟨rd s F.PRT_CFG_GEN p, 2 ^ rd s F.PRT_CFG_LANES p, rd s F.PRT_CFG_RATE p, 0xA0 + k⟩
    | none => ⟨rd s F.RLY_CFG_GEN k, 2 ^ rd s F.RLY_CFG_LANES k, rd s F.RLY_CFG_RATE k, 0xA0 + k⟩

/-- The bits that line k sends in 16 ns (R236, R267, R273). -/
def lineRate (s : State) (k : Nat) : Nat :=
  if k = twinLine then 165
  else if 4 ≤ k then 20
  else
    let l := lineCfg s k
    if l.gen = 1 then 80 + 8 * l.rate else 20 + 4 * l.rate

/-- The number of the bit that each lane of line k sends next. -/
def lineNow (s : State) (k : Nat) : Nat := lineRate s k * (s.ns - (lineAt s k).start) / 16

/-- Line k starts: the contents of its scrambler, running disparity or generator are open (log 3, 85). -/
def lineStart (s : State) (k : Nat) : State :=
  let (v, s) := takeFree s 58
  setLine s k { TxLine.init with start := s.ns, seed := v }

/-- Injection inverts the next bit of a lane that it has not inverted yet (R260). -/
def lineFlip (s : State) (k lane : Nat) : State :=
  let l := lineAt s k
  let d := (List.range (l.flips.length + 1)).find? fun d => !l.flips.contains (lane, lineNow s k + d)
  setLine s k { l with flips := (lane, lineNow s k + d.getD 0) :: l.flips }

/-- The pattern generator of line k is on, and its SEL: a relay in PRBS or in a self-test (PRBS31), an uplink or the twin's
lane with PRBS_EN (R260, R262, R268). -/
def linePattern (s : State) (k : Nat) : Option Nat :=
  if k = twinLine then (if isSet s F.TWN_TX_CFG_PRBS_EN then some (rd s F.TWN_TX_CFG_PRBS_SEL) else none)
  else if 4 ≤ k then (if isSet s F.PRT_UL_CFG_PRBS_EN (k - 4) then some (rd s F.PRT_UL_CFG_PRBS_SEL (k - 4)) else none)
  else if (relayTested s k).isSome then some 4
  else if rd s F.RLY_CFG_SRC k = 1 then some (rd s F.RLY_CFG_PRBS_SEL k) else none

/-- Bit i of the pattern that starts from the contents `seed`, never all zero. -/
def patternBit (sel seed i : Nat) : Bool :=
  prbsNext sel (prbsAfter sel (1 + seed % (2 ^ (prbsTaps sel).1 - 1)) i)

/-- Bit i that line k sends on a lane: of its pattern, or of its stream of IDLE, markers and packets; injection inverts it
(R260, R261, R273). -/
def lineBit (s : State) (k lane i : Nat) : Bool :=
  let l := lineAt s k
  let c := lineCfg s k
  let w := unitBits c.gen
  let bit := match linePattern s k with
    | some sel => patternBit sel l.seed i
    | none => (c.unit l.placed lane l.seed (i / w)).testBit (i % w)
  bit ^^ l.flips.contains (lane, i)

/-- The unit of column c that a relay in IDLE_LINE or the twin link sends on a lane, with the bits that injection inverted. -/
def lineUnit (s : State) (k lane c : Nat) : Nat :=
  let l := lineAt s k
  let cfg := lineCfg s k
  let w := unitBits cfg.gen
  l.flips.foldl (fun u f => if f.1 = lane ∧ c * w ≤ f.2 ∧ f.2 < (c + 1) * w then u ^^^ 2 ^ (f.2 - c * w) else u)
    (cfg.unit l.placed lane l.seed c)

/-- The column of the last marker that line k had begun by now. -/
def lineMarker (s : State) (k : Nat) : Nat :=
  let cfg := lineCfg s k
  let c := lineNow s k / unitBits cfg.gen
  let a := startSpacing cfg.gen
  if c < 255 * a then c / a * a else 255 * a + (c - 255 * a) / markerSpacing cfg.gen * markerSpacing cfg.gen

/-- The columns of that marker on the lanes of line k, after the column before it. -/
def lineMarkerCols (s : State) (k : Nat) : List (List Nat) :=
  let cfg := lineCfg s k
  let c := lineMarker s k
  (List.range (if cfg.gen = 1 then 2 else 9)).map fun d =>
    (List.range cfg.lanes).map fun lane => if c + d = 0 then 0 else lineUnit s k lane (c + d - 1)

/-! ### Twin packets on the twin's lane (R241, R495) -/

/-- The columns for the blocks of a packet from column c on: marker columns carry none. -/
def placeBlocks (c : Nat) : List (Nat × Nat) → List (Nat × Nat × Nat)
  | [] => []
  | b :: rest =>
    let c := if (markerAt 1 c).isSome then c + 1 else c
    (c, b.1, b.2) :: placeBlocks (c + 1) rest

/-- The column after the last that a twin packet takes. -/
def twinLineEnd (s : State) : Nat := ((lineAt s twinLine).placed.map fun p => p.1 + 1).foldl max 0

/-- A twin packet leaves: its SOP block takes the next column (R241, R495). -/
def twinLineSend (s : State) (bs : List Nat) : State :=
  let l := lineAt s twinLine
  let c := max (lineNow s twinLine / 66 + 1) (twinLineEnd s)
  setLine s twinLine { l with placed := l.placed ++ placeBlocks c (packetBlocks bs) }

/-- The twin's lane carries no packet at this instant. -/
def twinLineFree (s : State) : Bool := decide (twinLineEnd s ≤ lineNow s twinLine / 66 + 1)

end Sys2Proof.Machine
end

