-- ==== Sys2Proof/Machine/TwinTx.lean ====
section
/-! DEFINITION. The transmit side of the twin link (spec/13, R495 to R497): packets, their order of precedence, the queue. -/
namespace Sys2Proof.Machine

def setTwn (s : State) (t : Twn) : State := { s with twn := t }
def twnFcgAt (s : State) (g : Nat) : TwnFcg := sget s.twnFcg TwnFcg.init g
def setTwnFcg (s : State) (g : Nat) (k : TwnFcg) : State := { s with twnFcg := sset s.twnFcg TwnFcg.init g k }
def twnStreamAt (s : State) (k : Nat) : TwnStream := sget s.twnStreams TwnStream.init k
def setTwnStream (s : State) (k : Nat) (v : TwnStream) : State := { s with twnStreams := sset s.twnStreams TwnStream.init k v }

/-- The STATE values of TWN_STATUS (R491). -/
def twOFF : Nat := 0
def twSEARCH : Nat := 1
def twHANDSHAKE : Nat := 2
def twALIGN : Nat := 3
def twLEAD : Nat := 4
def twWATCH : Nat := 5
def twSOLO : Nat := 6
def twRELEASED : Nat := 7
def twMISMATCH : Nat := 8

def twnState (s : State) : Nat := rd s F.TWN_STATUS_STATE
def twnEvt (s : State) (b : Nat) : State := setBit s F.TWN_EVT_EVT 0 b

/-- A PRBS generator or checker of the twin link is enabled (R497). -/
def twnPrbs (s : State) : Bool := isSet s F.TWN_TX_CFG_PRBS_EN || isSet s F.TWN_RX_PRBS_CFG_EN

/-- The twin link carries packets (R497). -/
def twnCarries (s : State) : Bool := domUp s 15 && isSet s F.TWN_STATUS_LINK_UP && !twnPrbs s

/-- The packet types of R495. -/
def tpHELLO : Nat := 1
def tpFOGHORN : Nat := 2
def tpTBSYNC : Nat := 3
def tpFS : Nat := 4
def tpTRIG : Nat := 5
def tpFCGSTATE : Nat := 6
def tpROLE : Nat := 7
def tpMBX : Nat := 8
def tpBCN : Nat := 9

/-- LEN of a packet type; none for a type that is not in the table (R495). -/
def twnLen (ty : Nat) : Option Nat :=
  match ty with
  | 1 => some 40
  | 2 => some 12
  | 3 => some 25
  | 4 => some 16
  | 5 => some 16
  | 6 => some 36
  | 7 => some 12
  | 8 => some 8
  | 9 => some 2
  | _ => none

/-- The order in which queued packets leave (R496). -/
def twnOrder : List Nat := [2, 7, 5, 6, 4, 3, 9, 8, 1]

/-- Queue a packet; an FS packet that finds 64 of its kind waiting is dropped and counted (R496). Nothing is queued while
the link carries no packets (R497; log 25). -/
def twnPush (s : State) (ty : Nat) (payload : List Nat) : State :=
  if !twnCarries s then s
  else if ty = tpFS && decide (64 ≤ (s.twn.txq.filter fun p => p.1 == tpFS).length) then bump s F.TWN_TX_DROP_COUNT
  else setTwn s { s.twn with txq := s.twn.txq ++ [(ty, payload)] }

/-- The bytes of a packet (R495). -/
def twnBytes (ty : Nat) (payload : List Nat) : List Nat :=
  let b := ty :: payload.length :: payload
  b ++ toBytes 2 (crc16 b)

/-- The payload at the instant its SOP column leaves: a TBSYNC packet is stamped with TB (R503). -/
def twnStamp (s : State) (ty : Nat) (p : List Nat) : List Nat :=
  if ty ≠ tpTBSYNC then p
  else if p.headD 0 = 0 then 0 :: toBytes 8 s.tb ++ p.drop 9
  else p.take 17 ++ toBytes 8 s.tb

/-- The first queued packet in the order of precedence leaves, once the packet before it has gone (R496). -/
def twnDrain (s : State) : State :=
  if !twnCarries s || !twinLineFree s then s
  else match twnOrder.findSome? fun ty => s.twn.txq.find? fun p => p.1 == ty with
    | none => s
    | some p =>
      let bs := twnBytes p.1 (twnStamp s p.1 p.2)
      twinLineSend (setTwn s { s.twn with txq := s.twn.txq.erase p, sent := bs :: s.twn.sent }) bs

/-- An MBX packet: KIND 1 WORD, 2 READ, 3 NAK_FULL, 4 WITHDRAW (R495, R520). -/
def twnMbx (s : State) (m kind word : Nat) : State :=
  twnPush s tpMBX ([m % 256, kind, 0, 0] ++ toBytes 4 word)

end Sys2Proof.Machine
end

