-- ==== Sys2Proof/Machine/Beacon.lean ====
section
/-! DEFINITION. The beacon matrix (spec/12): producers fire channels, channels deliver events to consumers; and the
mailboxes' shared operations (send, receive, withdraw). -/
namespace Sys2Proof.Machine

/-! ### Producers and channels -/

/-- The domains in which a producer lies; it fires only while all are up (R485, R487; log 9 for the blocks whose domain
the specification leaves to D22 FABRIC by R48). -/
def producerDomains (p : Nat) : List Nat :=
  if p < 44 then [22]
  else if p = 44 then [4]
  else if p < 48 then [22]
  else if p < 64 then [6 + (p - 48) / 2]
  else if p < 68 then [14]
  else if p < 84 then [22]
  else if p < 100 then [16 + (p - 84) / 8]
  else if p < 108 then [22]
  else if p < 112 then [23]
  else if p < 136 then []
  else if p < 144 then [15]
  else []

/-- The domains of a consumer; an event finds it powered down when any is down (R625). -/
def consumerDomains (k : Nat) : List Nat :=
  if k < 32 then [21]
  else if k < 48 then [22]
  else match k with
    | 48 => [22, 23]
    | 49 => [22, 2]
    | 53 => [15]
    | 54 => [22]
    | _ => []

/-- A delivered event: BCN_FIRED, BCN_FIRES and, while D4 TIME is up, BCN_LAST_TB; the BCN_FIRE bit ends with the last software
firing of the channel that was on its way (R484, R490). -/
def deliver (s : State) (ch : Nat) : State :=
  let s := setBit s F.BCN_FIRED_CH 0 ch
  let s := bump s F.BCN_FIRES_COUNT ch
  let s := if s.beacons.any fun e => e.1 == ch && e.2.2 then s else clearBits s F.BCN_FIRE_CH 0 (2 ^ ch)
  if domUp s 4 then wr s F.BCN_LAST_TB_VALUE ch s.tb else s

/-- Channel `ch` fires, by software or by a producer: its event enters the matrix towards the consumer bound now (R482, R486). A
reserved consumer acts on nothing, and its event is delivered at once (R484, R488). -/
def fireChannel (s : State) (ch : Nat) (soft : Bool) : State :=
  let k := rd s F.BCN_CH_CFG_CONSUMER ch
  if 55 ≤ k then deliver s ch else { s with beacons := s.beacons ++ [(ch, k, soft)] }

/-- Producer `p` fires every channel that has EN = 1 and enables it, unless its domain is down (R482, R485). DESIGN CHOICE
(log 70): the state of the die-to-die link plays no part; R21 bounds the latency of a crossing and no rule says what becomes of an
event between the dies while the link is down. -/
def fireProducer (s : State) (p : Nat) : State :=
  if (producerDomains p).all (domUp s) then
    (List.range 48).foldl (fun t ch =>
      if isSet s F.BCN_CH_CFG_EN ch && hasBit s F.BCN_EN_EN (ch * 6 + p / 32) (p % 32) then fireChannel t ch false else t) s
  else s

/-- Set a consumer's bit in BCN_OVR (R485, R488). -/
def setOverrun (s : State) (k : Nat) : State := setBit s F.BCN_OVR_CONSUMER (k / 32) (k % 32)

/-- Take the first event on its way to consumer `k` that satisfies `p` out of the matrix. -/
def takeBeacon (s : State) (k : Nat) (p : Nat → Bool) : Option (Nat × State) :=
  match s.beacons.find? fun e => e.2.1 == k && p e.1 with
  | none => none
  | some e => some (e.1, { s with beacons := s.beacons.erase e })

/-- An event reaches consumer `k`: it is delivered; a powered-down consumer discards it, a busy one records its overrun,
any other acts (R484, R485, R488, R625). With no such event on its way nothing happens. -/
def beaconArrives (s : State) (k : Nat) (p : Nat → Bool) (busy : State → Bool) (act : Nat → State → State) : State :=
  match takeBeacon s k p with
  | none => s
  | some (ch, t) =>
    let t := deliver t ch
    if !(consumerDomains k).all (domUp t) then setOverrun t k
    else if busy t then setBit (setOverrun t k) F.BCN_EVT_EVT 0 0
    else act ch t

/-- A master is admitted by a T or O attribute (R41). -/
def admits (attr mid : Nat) : Bool := attr == 1 || !isOpen mid

/-- The outcome of a firing request (R490). -/
inductive FireResult where
  | ok | refused
  deriving DecidableEq, Repr

/-- A firing request of master `mid` for channel `ch` (R490). -/
def fireRequest (s : State) (mid ch : Nat) : FireResult × State :=
  if !admits (rd s F.BCN_CH_CFG_ATTR ch) mid then
    let s := bump s F.BCN_FIRE_REFUSED_COUNT
    (.refused, secRefuse (setBit s F.BCN_EVT_EVT 0 1) mid ch true)
  else if !isSet s F.BCN_CH_CFG_EN ch
      || (isSet s F.BCN_CH_CFG_FIRE_OWNER_ONLY ch && rd s F.BCN_CH_CFG_OWNER ch ≠ mid) then
    (.refused, setBit (bump s F.BCN_FIRE_REFUSED_COUNT) F.BCN_EVT_EVT 0 1)
  else (.ok, fireChannel (setBit s F.BCN_FIRE_CH 0 ch) ch true)

/-- A write of `mask` to BCN_FIRE: each bit of one write is a request of its own (R490). -/
def fireMask (s : State) (mid mask : Nat) : State :=
  (List.range 48).foldl (fun s ch => if mask.testBit ch then (fireRequest s mid ch).2 else s) s

/-! ### Mailboxes -/

/-- The domain of a receiver MID; none for the keeper (R477). -/
def receiverDomain (mid : Nat) : Option Nat :=
  if 0x01 ≤ mid ∧ mid ≤ 0x08 then some 5
  else if 0x10 ≤ mid ∧ mid ≤ 0x17 then some 21
  else if mid = 0x18 then some 15
  else none

/-- A master that mailbox `m` does not bind has no effect on it: counted, and recorded where ATTR = T refuses an open
master (R471, R42). -/
def mbxRefuse (s : State) (mid m : Nat) : State :=
  let s := setBit (bump s F.MBX_REFUSED_COUNT) F.MBX_EVT_EVT 0 2
  if isOpen mid && rd s F.MBX_BIND_ATTR m = 0 then secRefuse s mid m true else s

/-- Master `mid` is the bound sender of mailbox `m` (R471). -/
def isSender (s : State) (mid m : Nat) : Bool :=
  mid ≠ 0x1F && rd s F.MBX_BIND_SENDER m == mid && admits (rd s F.MBX_BIND_ATTR m) mid

/-- Master `mid` is the bound receiver of mailbox `m` (R471). -/
def isReceiver (s : State) (mid m : Nat) : Bool :=
  mid ≠ 0x1F && rd s F.MBX_BIND_RECEIVER m == mid && admits (rd s F.MBX_BIND_ATTR m) mid

/-- The MBX_P producers that a store or a timeout of mailbox `m` fires (R481). -/
def mbxProducers (s : State) (m : Nat) (which : Field) : State :=
  (List.range 8).foldl (fun t i =>
    if isSet s F.MBX_PROD_CFG_EN i && rd s F.MBX_PROD_CFG_MAILBOX i == m && isSet s which i
    then fireProducer t (112 + i) else t) s

/-- Ask the sequencer to power a domain because a mailbox or a beacon wakes it (R549); the bit is held too where the domain is
already powering up (R478; log 104). -/
def wakeDomain (s : State) (d : Nat) : State :=
  setBit { s with wokeNow := s.wokeNow ||| 2 ^ d } F.PWR_WAKE_HELD_DOMAINS 0 d

/-- The outcome of a mailbox operation. -/
inductive MbxResult where
  | ok | refused | overrun | empty
  deriving DecidableEq, Repr

/-- Store a word in the empty mailbox `m`: FULL, MSGCOUNT, the timeout's start, the receiver's wake, RXPEND, the
mirror of a word to the twin, and the producers (R473, R476, R478, R480, R481, R520). -/
def mbxStore (s : State) (m word : Nat) : State :=
  let s := setMbx s m ⟨word % 2 ^ 32, s.tb⟩
  let s := wr s F.MBX_STAT_FULL m 1
  let s := wr s F.MBX_STAT_MSGCOUNT m (rd s F.MBX_STAT_MSGCOUNT m + 1)
  let r := rd s F.MBX_BIND_RECEIVER m
  let s := match receiverDomain r with
    | some d => if domGood s d then s else
        let s := wakeDomain (wr s F.MBX_STAT_WAKING m 1) d
        match coreOf r with
        | some c => setCore s c { coreAt s c with wakeAsked := true }
        | none => s
    | none => s
  let s := if r = 0x01 then setBit s F.MBX_RXPEND_MB 0 m else s
  let s := if r = 0x18 then twnMbx s m 1 word else s
  mbxProducers s m F.MBX_PROD_CFG_ON_FULL

/-- A send of master `mid` (R471, R473); every send to a disabled mailbox is refused (R472). -/
def mbxSend (s : State) (mid m word : Nat) : MbxResult × State :=
  if !isSender s mid m || rd s F.MBX_BIND_RECEIVER m = 0x1F then (.refused, mbxRefuse s mid m)
  else if isSet s F.MBX_STAT_FULL m then
    let s := bump s F.MBX_OVR_CNT_COUNT m
    let s := wr s F.MBX_STAT_SEND_OVERRUN m 1
    (.overrun, setBit s F.MBX_EVT_EVT 0 0)
  else (.ok, mbxStore s m word)

/-- Empty the mailbox. -/
def mbxClear (s : State) (m : Nat) : State :=
  wr (setMbx s m ⟨0, 0⟩) F.MBX_STAT_FULL m 0

/-- A receive of master `mid`: the word where FULL, else nothing; a word that the twin sent is answered READ (R474,
R520). -/
def mbxReceive (s : State) (mid m : Nat) : Option Nat × State :=
  if !isReceiver s mid m then (none, mbxRefuse s mid m)
  else if isSet s F.MBX_STAT_FULL m then
    let t := mbxClear s m
    (some (mbxAt s m).word, if rd s F.MBX_BIND_SENDER m = 0x18 then twnMbx t m 2 0 else t)
  else (none, s)

/-- A withdrawal of master `mid`; the twin's copy is withdrawn with it (R475, R520). -/
def mbxWithdraw (s : State) (mid m : Nat) : MbxResult × State :=
  if !isSender s mid m then (.refused, mbxRefuse s mid m)
  else if isSet s F.MBX_STAT_FULL m then
    let t := mbxClear s m
    (.ok, if rd s F.MBX_BIND_RECEIVER m = 0x18 then twnMbx t m 4 0 else t)
  else (.empty, s)

end Sys2Proof.Machine
end

