-- ==== Sys2Proof/Machine/Trg.lean ====
section
/-! DEFINITION. Trigger outputs and complementary pairs (spec/05, R224 to R234, R626): scheduling, edges, dark. -/
namespace Sys2Proof.Machine

def trgAt (s : State) (n : Nat) : TrgOut := sget s.trg TrgOut.init n
def setTrg (s : State) (n : Nat) (k : TrgOut) : State := { s with trg := sset s.trg TrgOut.init n k }

def poAt (s : State) (p : Nat) : Po := sget s.po Po.init p
def setPo (s : State) (p : Nat) (k : Po) : State := { s with po := sset s.po Po.init p k }

/-- Set a TRG_EVT bit of output n. -/
def trgEvt (s : State) (n b : Nat) : State := setBit s F.TRG_EVT_EVT n b

/-- Output n is dark: FIO channel 12 + n (R601). -/
def trgDark (s : State) (n : Nat) : Bool := isSet s F.FIO_CH_STAT_DARK (12 + n)

/-- Output n belongs to an enabled pair (R229). -/
def paired (s : State) (n : Nat) : Bool := isSet s F.TRG_PAIR_CFG_EN (n / 2)

/-- The output that holds the pulses of output n: the primary of an enabled pair, else n itself. -/
def ownerOf (s : State) (n : Nat) : Nat := if paired s n then n / 2 * 2 else n

/-- The outputs that a pulse of output n moves. -/
def outsOf (s : State) (n : Nat) : List Nat := if paired s n then [n / 2 * 2, n / 2 * 2 + 1] else [n]

/-- The hardware minimum pulse of each MODE (R224). -/
def hwMin (mode : Nat) : Nat :=
  match mode with
  | 1 => 20
  | 2 => 200
  | 3 => 10
  | _ => 0

/-- The effective minimum pulse of output n; 0 while MODE is OFF (R226). -/
def effMin (s : State) (n : Nat) : Nat :=
  if rd s F.TRG_CFG_MODE n = 0 then 0 else max (hwMin (rd s F.TRG_CFG_MODE n)) (rd s F.TRG_FLOOR_FLOOR n)

/-- This device drives the pin of output n: D2 FIELD works (R550), its MODE is not OFF, it is not dark, and a TWIN output belongs to the device
that drives the shared lines (R233, R491). -/
def driving (s : State) (n : Nat) : Bool :=
  domUp s 2 && rd s F.TRG_CFG_MODE n ≠ 0 && !trgDark s n && (!isSet s F.TRG_CFG_TWIN n || isSet s F.TWN_STATUS_DRIVING)

/-- The level of a quadrature output in each of its four states; forward runs 0, 1, 2, 3 with A leading. -/
def quadA (ph : Nat) : Bool := ph % 4 == 1 || ph % 4 == 2
def quadB (ph : Nat) : Bool := ph % 4 == 2 || ph % 4 == 3

/-- The pulse output that drives output n: enabled, naming its pair, with the pair itself disabled (R225, R231). -/
def poOf (s : State) (n : Nat) : Option Nat :=
  [0, 1].find? fun p => isSet s F.PO_STATUS_RUNNING p && rd s F.PO_CFG_PAIR p == n / 2 && !paired s n

/-- Output n is at its active level while it is idle (R225, R229). -/
def idleActive (s : State) (n : Nat) : Bool :=
  if rd s F.TRG_CFG_MODE n = 0 || trgDark s n then false
  else if paired s n then n % 2 == 1
  else match rd s F.TRG_CFG_SRC n with
    | 4 => match poOf s n with
      | some p =>
        let k := poAt s p
        if isSet s F.PO_CFG_FORMAT p then (if n % 2 = 0 then k.step else k.dir)
        else if n % 2 = 0 then quadA k.phase else quadB k.phase
      | none => false
    | 5 => isSet s F.TRG_CFG_LEVEL n
    | _ => false

/-- Put output n at its idle level. -/
def refreshTrg (s : State) (n : Nat) : State := wrBool s F.TRG_STATUS_ACTIVE n (idleActive s n)

/-- Pulses held and not started by output n: a pair pulse takes a place on both outputs (R135, R228). -/
def pendingPulses (s : State) (n : Nat) : Nat := (trgAt s (ownerOf s n)).held.length

/-- Output n holds no pulse and is at its idle level: inactive, but active for the complement of an enabled pair (R229, R234). -/
def trgIdle (s : State) (n : Nat) : Bool :=
  let k := trgAt s (ownerOf s n)
  let up := paired s n && decide (n % 2 = 1) && rd s F.TRG_CFG_MODE n ≠ 0 && !trgDark s n
  k.held.isEmpty && k.cur.isNone && isSet s F.TRG_STATUS_ACTIVE n == up

/-- The end of the last pulse scheduled on output n (R228, R135). -/
def lastEnd (s : State) (n : Nat) : Option Nat :=
  let k := trgAt s (ownerOf s n)
  ((k.cur.toList ++ k.held).getLast?).map Pulse.stop

/-! ### Scheduling (R626) -/

/-- The STATUS codes of R130. -/
def stOK : Nat := 0
def stSTRETCHED : Nat := 1
def stDROPPED : Nat := 2
def stSUPPRESSED : Nat := 3
def stOVERLAP : Nat := 4
def stREFUSED : Nat := 5
def stABSENT : Nat := 6
def stRANGE : Nat := 7
def stSENDOVERRUN : Nat := 8
def stTIMEOUT : Nat := 9
def stEMPTY : Nat := 10
def stNOTGATED : Nat := 11
def stFULL : Nat := 12

/-- The answer to an action (R130). -/
structure Answer where
  status : Nat
  late : Bool
  notDriven : Bool
  id : Nat
  deriving DecidableEq, Repr

def Answer.of (st : Nat) : Answer := ⟨st, false, false, 0⟩

/-- The result word of an action (R130). -/
def Answer.word (a : Answer) : Nat :=
  a.status % 256 + (if a.late then 256 else 0) + (if a.notDriven then 512 else 0) + a.id % 65536 * 65536

/-- Place a pulse of width w on output n, or on the pair whose primary is n, in the order of R626. -/
def placePulse (s : State) (n start w : Nat) (src : Option (Nat × Nat)) : Answer × State :=
  let pr := paired s n
  let dead := if pr then rd s F.TRG_PAIR_CFG_DEAD_NS (n / 2) else 0
  let width := w - 2 * dead
  let short := decide (width < effMin s n)
  let late := decide (start < s.tb)
  let at' := max start s.tb
  if pr && decide (w ≤ 2 * dead) then
    (.of stSUPPRESSED, trgEvt (bump s F.TRG_PAIR_SUPPRESSED_COUNT (n / 2)) n 5)
  else if short && isSet s F.TRG_CFG_POLICY n then (.of stDROPPED, trgEvt (bump s F.TRG_SHORT_DROPPED_COUNT n) n 1)
  else if 8 ≤ (trgAt s n).held.length then (.of stFULL, trgEvt (bump s F.TRG_FULL_COUNT n) n 4)
  else if (lastEnd s n).any fun e => at' < e then (.of stOVERLAP, trgEvt (bump s F.TRG_OVERLAP_COUNT n) n 3)
  else
    let s := if short then trgEvt (bump s F.TRG_SHORT_STRETCHED_COUNT n) n 0 else s
    let s := if late then trgEvt (bump s F.TRG_LATE_COUNT n) n 2 else s
    let k := trgAt s n
    let stop := at' + max width (effMin s n) + 2 * dead
    (⟨if short then stSTRETCHED else stOK, late, isSet s F.TRG_CFG_TWIN n && !isSet s F.TWN_STATUS_DRIVING, 0⟩,
      setTrg s n { k with held := k.held ++ [⟨at', stop, src⟩] })

/-- The pulse action at its scheduler (R133, R135, R136, R231). -/
def pulseAction (s : State) (n start w : Nat) : Answer × State :=
  if 15 < n || 0xFFFFFFFF < w then (.of stRANGE, s)
  else if trgDark s n || paired s n || rd s F.TRG_CFG_SRC n ≠ 1 || rd s F.TRG_CFG_MODE n = 0 then (.of stREFUSED, s)
  else placePulse s n start w none

/-- The pair action at its scheduler (R134 to R136): refused where either output is OFF. -/
def pairAction (s : State) (p start w : Nat) : Answer × State :=
  if 7 < p || 0xFFFFFFFF < w then (.of stRANGE, s)
  else if !paired s (2 * p) || trgDark s (2 * p) || trgDark s (2 * p + 1) || rd s F.TRG_CFG_SRC (2 * p) ≠ 1
      || rd s F.TRG_CFG_MODE (2 * p) = 0 || rd s F.TRG_CFG_MODE (2 * p + 1) = 0 then (.of stREFUSED, s)
  else placePulse s (2 * p) start w none

/-- Count k dropped pulses of output n, with the event (R232). -/
def darkDrop (s : State) (n k : Nat) : State := trgEvt (bumpBy s F.TRG_DARK_DROP_COUNT n k) n 6

/-- A pulse of an FCG trigger or a beacon event on output n: none while MODE is OFF; refused and counted while the output,
or either output of its pair, is dark (R225, R232; log 20). -/
def autoPulse (s : State) (n start : Nat) (src : Option (Nat × Nat)) : State :=
  if rd s F.TRG_CFG_MODE n = 0 then s
  else if (outsOf s n).any (trgDark s) then
    (outsOf s n).foldl (fun s o => if trgDark s o then darkDrop s o 1 else s) s
  else (placePulse s n start (rd s F.TRG_WIDTH_NS n) src).2

/-- The outputs that take pulses of SRC `src`; the complement's SRC has no effect (R231). -/
def sourced (s : State) (src : Nat) (sel : Nat → Bool) : List Nat :=
  (List.range 16).filter fun n => rd s F.TRG_CFG_SRC n == src && sel n && !(paired s n && n % 2 == 1)

/-- A trigger of FCG g at T pulses every output with SRC = FCG and FCG_SEL = g (R202, R225). -/
def trgFcg (s : State) (g t id : Nat) : State :=
  (sourced s 2 fun n => rd s F.TRG_CFG_FCG_SEL n == g).foldl
    (fun s n => autoPulse s n (t + rd s F.TRG_DELAY_NS n) (some (g, id))) s

/-- An event of beacon channel ch at consumer TRG_BCN (R225, R488). -/
def trgBcn (s : State) (ch : Nat) : State :=
  (sourced s 3 fun n => rd s F.TRG_CFG_BCN_CH n == ch).foldl
    (fun s n => autoPulse s n (s.tb + rd s F.TRG_DELAY_NS n) none) s

/-- Cancel the pulses not started that the triggers of FCG g with T after `t` scheduled (R222). -/
def cancelPulses (s : State) (g : Nat) (ids : List Nat) : State :=
  (List.range 16).foldl (fun s n =>
    let k := trgAt s n
    setTrg s n { k with held := k.held.filter fun p => !p.src.any fun e => e.1 == g && ids.contains e.2 }) s

/-- Output n, or its pair, discards every pulse it holds and ends the one under way. Where output n has gone dark (`count`) its
DARK_DROP event is set whatever it held, that of the other output of its pair where it held a pulse (R232). -/
def discardPulses (s : State) (n : Nat) (count : Bool) : State :=
  let o := ownerOf s n
  let k := (trgAt s o).held.length
  let s := setTrg s o TrgOut.init
  (outsOf s n).foldl (fun s m => refreshTrg (if count && (m == n || k ≠ 0) then darkDrop s m k else s) m) s

/-! ### Edges -/

/-- The first pulse of output n starts (R224, R229). -/
def startPulse (s : State) (o : Nat) (p : Pulse) (r : List Pulse) : State :=
  let s := setTrg s o ⟨r, some p, if paired s o then 1 else 0⟩
  let s := (outsOf s o).foldl (fun s n => wr (bump s F.TRG_PULSES_COUNT n) F.TRG_LAST_TB_VALUE n (max p.start s.tb)) s
  if paired s o then wr s F.TRG_STATUS_ACTIVE (o + 1) 0 else wr s F.TRG_STATUS_ACTIVE o 1

/-- A held pulse of output n whose time has come starts; a pulse that ends at that instant gives way to it (R224). -/
def pulseStart (s : State) (n : Nat) : State :=
  let k := trgAt s n
  match k.held with
  | p :: r =>
    if paired s n || s.tb < p.start || k.cur.any fun c => s.tb < c.stop then s else startPulse s n p r
  | [] => s

/-- The pulse under way ends (R226). -/
def pulseEnd (s : State) (n : Nat) : State :=
  let k := trgAt s n
  match k.cur with
  | some c => if paired s n || s.tb < c.stop then s else refreshTrg (setTrg s n { k with cur := none }) n
  | none => s

/-- The next edge of pair p, at S, S + D, S + W − D or S + W (R229). -/
def pairEdge (s : State) (p : Nat) : State :=
  let o := 2 * p
  let d := rd s F.TRG_PAIR_CFG_DEAD_NS p
  let k := trgAt s o
  if !paired s o then s
  else match k.cur with
    | none => match k.held with
      | q :: r => if s.tb < q.start then s else startPulse s o q r
      | [] => s
    | some c =>
      if k.stage = 1 then
        if s.tb < c.start + d then s else wr (setTrg s o { k with stage := 2 }) F.TRG_STATUS_ACTIVE o 1
      else if k.stage = 2 then
        if s.tb < c.stop - d then s else wr (setTrg s o { k with stage := 3 }) F.TRG_STATUS_ACTIVE o 0
      else if s.tb < c.stop then s
      else wr (setTrg s o { k with cur := none, stage := 0 }) F.TRG_STATUS_ACTIVE (o + 1) 1

/-! ### Commands -/

def execTrgPulseStart (n : Nat) (s : State) : Host.Outcome State Fault Refusal := onBlock 8 n 16 s fun s => pulseStart s n

def execTrgPulseEnd (n : Nat) (s : State) : Host.Outcome State Fault Refusal := onBlock 8 n 16 s fun s => pulseEnd s n

def execPairEdge (p : Nat) (s : State) : Host.Outcome State Fault Refusal := onBlock 8 p 8 s fun s => pairEdge s p

/-- An event of channel ch reaches TRG_BCN (consumer 49). -/
def execTrgBcnEvent (ch : Nat) (s : State) : Host.Outcome State Fault Refusal :=
  onUnit ch 48 s fun s => beaconArrives s 49 (· == ch) (fun _ => false) fun ch s => trgBcn s ch

/-- The SAT counters of an output. -/
def trgCounters : List Field :=
  [F.TRG_PULSES_COUNT, F.TRG_SHORT_STRETCHED_COUNT, F.TRG_SHORT_DROPPED_COUNT, F.TRG_LATE_COUNT, F.TRG_OVERLAP_COUNT,
   F.TRG_FULL_COUNT, F.TRG_DARK_DROP_COUNT]

/-- TRG_CMD.CLR_COUNTS (R17). -/
def trgClear (s : State) (n : Nat) : State :=
  let s := clearAll s trgCounters n
  if n % 2 = 0 then wr s F.TRG_PAIR_SUPPRESSED_COUNT (n / 2) 0 else s

def execTrgClrCounts (n : Nat) (s : State) : Host.Outcome State Fault Refusal := onBlock 8 n 16 s fun s => trgClear s n

end Sys2Proof.Machine
end

