-- ==== Sys2Proof/Machine/Fio.lean ====
section
/-! DEFINITION. The keeper's capture banks (R28, R538) and the field channels: faults, dark outputs, re-arm, general
inputs (spec/16, R600 to R611). -/
namespace Sys2Proof.Machine

/-! ### Captures -/

def captureAt (s : State) (src : Nat) : Capture := sget s.captures Capture.init src
def setCapture (s : State) (src : Nat) (k : Capture) : State := { s with captures := sset s.captures Capture.init src k }

def Capture.bank (k : Capture) (i : Nat) : Bank := if i = 0 then k.bank0 else k.bank1
def Capture.setBank (k : Capture) (i : Nat) (b : Bank) : Capture := if i = 0 then { k with bank0 := b } else { k with bank1 := b }

/-- TB, or all ones while D4 TIME is down. -/
def tbOrOnes (s : State) : Nat := if domUp s 4 then s.tb else 2 ^ 64 - 1

/-- The DETAIL of a bank after one more event: pin sources gather the kinds and hold the last PARTNER (R604), the others
keep the first address (R543; log 21). -/
def mergeDetail (src old new : Nat) : Nat :=
  if src < 16 then old else (if new / 65536 = 0 then old / 65536 else new / 65536) * 65536 + ((old % 128) ||| (new % 128))

/-- A fault event of a capture source: its bank latches, its ripple counter counts, KEEP_2 and KEEP_3 fire where a bank of
theirs latches (R28, R538, R542). -/
def capture (s : State) (src detail : Nat) : State :=
  let k := captureAt s src
  let b := k.bank k.active
  let b' : Bank := if b.latched
    then { b with count := min (b.count + 1) 0xFFFF, detail := mergeDetail src b.detail detail }
    else ⟨true, min (b.count + 1) 0xFFFF, detail, tbOrOnes s, s.ns⟩
  let s := setCapture s src (k.setBank k.active b')
  let s := if !b.latched && decide (src < 8) then fireProducer s 146 else s
  if !b.latched && src == 4 then fireProducer s 147 else s

/-- Put a bank, as (instant of its latch, source, bank), before the first one that is not older (R539). -/
def insertBank (b : Nat × Nat × Nat) (bs : List (Nat × Nat × Nat)) : List (Nat × Nat × Nat) :=
  match bs with
  | [] => [b]
  | c :: r =>
    if b.1 < c.1 ∨ (b.1 = c.1 ∧ (b.2.1 < c.2.1 ∨ (b.2.1 = c.2.1 ∧ b.2.2 ≤ c.2.2))) then b :: c :: r
    else c :: insertBank b r

/-- The latched banks, oldest first and then by ascending source number (R539). -/
def latchedBanks (s : State) : List (Nat × Nat × Nat) :=
  (s.captures.flatMap fun e =>
    ([0, 1].filter fun i => (e.2.bank i).latched).map fun i => ((e.2.bank i).at', e.1, i)).foldr insertBank []

/-- PENDING: the source banks latched, saturating (R539). -/
def pendingBanks (s : State) : Nat := min (latchedBanks s).length 0xFFFF

/-- KIRQn is low (R541). -/
def kirqLow (s : State) : Bool := s.keepIrq || pendingBanks s ≠ 0

/-! ### Channels (R601) -/

/-- A field channel that is an output: TRGn, or the SSI clock on channels 7 and 10. -/
def isOutputCh (s : State) (c : Nat) : Bool :=
  (12 ≤ c && c < 28) || (c == 7 && rd s F.ENC_CFG_MODE 2 == 5) || (c == 10 && rd s F.ENC_CFG_MODE 3 == 5)

/-- A differential input: an encoder input in RS-422 mode (R597). -/
def isDifferential (s : State) (c : Nat) : Bool := c < 12 && !isOutputCh s c && rd s F.ENC_CFG_LEVEL (c / 3) == 0

/-- A fault kind that the channel can show (R602). -/
def kindFits (s : State) (c kind : Nat) : Bool :=
  if c = 36 then kind < 3
  else if c = 37 then kind == 6
  else if 37 < c then false
  else if isOutputCh s c then
    kind == 1 || kind == 2 || kind == 3 || kind == 5 || (kind == 0 && isSet s F.FIO_CH_CFG_OPEN_EN c)
  else if isDifferential s c then kind < 4
  else kind == 0 && isSet s F.FIO_CH_CFG_OPEN_EN c

/-- Channel 36 holds a fault. -/
def vfieldFault (s : State) : Bool := rd s F.FIO_CH_STAT_KINDS 36 ≠ 0

/-- Either output of the pair of pulse output p is dark, or OFF (R184, R225). -/
def poIsDark (s : State) (p : Nat) : Bool :=
  let o := 2 * rd s F.PO_CFG_PAIR p
  trgDark s o || trgDark s (o + 1) || rd s F.TRG_CFG_MODE o == 0 || rd s F.TRG_CFG_MODE (o + 1) == 0

/-- A pulse output whose pair goes dark discards its backlog and counts it in PO_LOST (R184). -/
def poDark (s : State) (p : Nat) : State :=
  let b := (toSigned 16 (rd s F.PO_STATUS_BACKLOG p)).natAbs
  if b = 0 then s else bumpBy (wr s F.PO_STATUS_BACKLOG p 0) F.PO_LOST_COUNT p b

/-- Output n goes dark: the pulse outputs on its pair discard their counts. -/
def poDarkOf (s : State) (n : Nat) : State :=
  [0, 1].foldl (fun s p => if rd s F.PO_CFG_PAIR p == n / 2 then poDark s p else s) s

/-- Output channel c goes dark for a DARK_CAUSE; the first of the causes stays reported; a cause may hold the output at
high-impedance (R605; log 22). -/
def goDark (s : State) (cause : Nat) (z : Bool) (c : Nat) : State :=
  if !isOutputCh s c then s
  else
    let was := isSet s F.FIO_CH_STAT_DARK c
    let first := rd s F.FIO_CH_STAT_DARK_CAUSE c
    let s := wr s F.FIO_CH_STAT_DARK c 1
    let s := wr s F.FIO_CH_STAT_DARK_CAUSE c (if was ∧ first ≠ 0 then min cause first else cause)
    let s := wr s F.FIO_CH_STAT_ARMING c 0
    let s := if z then { s with hiZ := sset s.hiZ false c true } else s
    if !was && decide (12 ≤ c) then poDarkOf (discardPulses s (c - 12) true) (c - 12) else s

/-- Every field output goes dark. -/
def goDarkAll (s : State) (cause : Nat) (z : Bool) : State := (List.range 48).foldl (fun s c => goDark s cause z c) s

/-- The level at which output channel c rests while dark: 0 LOW, 1 high-impedance, 2 HIGH (R605, R606). -/
def darkLevel (s : State) (c : Nat) : Nat :=
  if sget s.hiZ false c || vfieldFault s then 1 else rd s F.FIO_CH_CFG_DARK_LEVEL c

/-- FIO_VF_STAT follows the faults of channel 36 and the level; FIO_EVT.VFIELD marks a change of OK (log 107). -/
def vfStat (s : State) (inBand : Bool) : State :=
  let old := isSet s F.FIO_VF_STAT_OK
  let s := wr s F.FIO_VF_STAT_FAULT 0 (rd s F.FIO_CH_STAT_KINDS 36)
  let new := inBand && !vfieldFault s
  let s := wrBool s F.FIO_VF_STAT_OK 0 new
  if old = new then s else setBit s F.FIO_EVT_EVT 0 3

/-- A fault kind is recorded on channel c (R604). -/
def recordKind (s : State) (c kind : Nat) (partner : Nat) : State :=
  let s := setBit s F.FIO_CH_STAT_KINDS c kind
  let s := setBit s F.FIO_CH_LATCH_KINDS c kind
  let s := bump s F.FIO_CH_CNT_COUNT c
  let p := if kind = 3 && !isOutputCh s c then c else partner % 64
  let s := if kind = 3 || kind = 6 then wr s F.FIO_CH_STAT_PARTNER c p else s
  let s := capture s (16 + c) (2 ^ kind + (if kind = 3 || kind = 6 then 65536 * p else 0))
  let s := if isSet s F.FIO_CH_CFG_PROD_EN c then fireProducer s (128 + rd s F.FIO_CH_CFG_PROD c) else s
  setBit s F.FIO_EVT_EVT 0 0

/-- One fault kind is confirmed on channel c: recorded, and the output goes dark as R605 says; a VFIELD fault darkens every
output (R604 to R607); a display limit holds its output at 0 V (R610). -/
def faultConfirm (s : State) (c kind partner : Nat) : State :=
  let s := recordKind s c kind partner
  if c = 36 then goDarkAll (vfStat s false) 5 true
  else if c = 37 then { s with segLimited := partner % 64 :: s.segLimited, segDrive := sset s.segDrive 0 (partner % 64) 0 }
  else if isOutputCh s c then
    if kind = 0 then (if isSet s F.FIO_CH_CFG_OPEN_REPORT_ONLY c then s else goDark s 1 false c)
    else goDark s 1 true c
  else s

/-- The kinds of a mask that are confirmed on channel c in one instant and not live yet: on an output SHORT_PIN takes precedence over
SHORT_GND and SHORT_SUPPLY, the others are recorded together (R602). -/
def kindsNew (s : State) (c kinds : Nat) : List Nat :=
  (List.range 7).filter fun k => kinds.testBit k && kindFits s c k && !hasBit s F.FIO_CH_STAT_KINDS c k
    && !(isOutputCh s c && kinds.testBit 3 && (k == 1 || k == 2))

/-- Fault kinds are confirmed on channel c in one instant (R602, R604, R605). -/
def faultsConfirm (s : State) (c kinds partner : Nat) : State :=
  (kindsNew s c kinds).foldl (fun s k => faultConfirm s c k partner) s

/-- FIO_CH_STAT_c and FIO_VF_STAT after a live condition of the channel ends (R602). -/
def faultClear (s : State) (c kind : Nat) : State :=
  let s := clearBits s F.FIO_CH_STAT_KINDS c (2 ^ kind)
  let s := if rd s F.FIO_CH_STAT_KINDS c = 0 then wr s F.FIO_CH_STAT_PARTNER c 0 else s
  if c = 36 then vfStat s true else s

def execFioFaultConfirm (c kinds partner : Nat) (s : State) : Host.Outcome State Fault Refusal :=
  onUnit c 38 s fun s => faultsConfirm s c kinds partner

def execFioFaultClear (c kind : Nat) (s : State) : Host.Outcome State Fault Refusal :=
  onUnit c 38 s fun s => if kind ≠ 4 && hasBit s F.FIO_CH_STAT_KINDS c kind then faultClear s c kind else s

/-- Channel c may hold the REVERSED kind: IDLE_CHK is set, and on an ENC Z channel Z_REVERSED too (R602). -/
def reversedMay (s : State) (c : Nat) : Bool :=
  isSet s F.FIO_CH_CFG_IDLE_CHK c && (decide (12 ≤ c) || c % 3 ≠ 2 || isSet s F.ENC_STATUS_Z_REVERSED (c / 3))

/-- The live REVERSED kind ends where IDLE_CHK or, on a Z channel, Z_REVERSED clears (R602). -/
def endReversed (s : State) (c : Nat) : State :=
  if hasBit s F.FIO_CH_STAT_KINDS c 4 && !reversedMay s c then faultClear s c 4 else s

/-- The level opposite IDLE_POL has held in `ticks` of the 1 µs ticks of an IDLE_WIN_MS window: in more than 7/8 of them (R602). -/
def idleShown (s : State) (c ticks : Nat) : Bool := decide (7 * (1000 * rd s F.FIO_CH_CFG_IDLE_WIN_MS c) < 8 * ticks)

/-- An IDLE_WIN_MS window of a checked differential input ends, in which the level opposite IDLE_POL held in `ticks` ticks: REVERSED
is confirmed, or a live one ends (R602, R604). -/
def idleWindowEnd (s : State) (c ticks : Nat) : State :=
  let shown := idleShown s c ticks
  if !isDifferential s c || !isSet s F.FIO_CH_CFG_IDLE_CHK c then s
  else if shown && reversedMay s c then (if hasBit s F.FIO_CH_STAT_KINDS c 4 then s else recordKind s c 4 0)
  else if hasBit s F.FIO_CH_STAT_KINDS c 4 then faultClear s c 4
  else s

def execIdleWindowEnd (c ticks : Nat) (s : State) : Host.Outcome State Fault Refusal :=
  onUnit c 12 s fun s => idleWindowEnd s c ticks

/-! ### Dark and re-arm -/

/-- An access of FIO registers: it needs the die-to-die link too (R67). -/
def fioReach (s : State) (f : State → State) : State :=
  if isSet s F.GLB_STATUS_D2D_UP then inReach 9 s f else s

/-- A re-arm of channel c is refused (R608). -/
def rearmRefused (s : State) (c : Nat) : Bool :=
  rd s F.FIO_CH_STAT_KINDS c % 64 ≠ 0 || vfieldFault s || !isSet s F.GLB_STATUS_D2D_UP || !isSet s F.GLB_STATUS_REF_LANE_OK
  || isSet s F.KT_STATUS_TRIPPED || resetRunning s

/-- An output leaves dark and takes its configured idle level (R609). -/
def leaveDark (s : State) (c : Nat) : State :=
  let s := wr (wr (wr s F.FIO_CH_STAT_DARK c 0) F.FIO_CH_STAT_DARK_CAUSE c 0) F.FIO_CH_STAT_ARMING c 0
  let s := { s with hiZ := sset s.hiZ false c false, armAt := sset s.armAt 0 c 0 }
  if 12 ≤ c then (outsOf s (c - 12)).foldl refreshTrg s else s

/-- A FIO_ARM bit (R608, R609): an input clears its latch; an output that is dark and not ARMING starts its test, is
refused, or leaves dark at once where this device does not drive the shared line. One that FIO_DARK names in the same cycle stays
dark. -/
def fioArm (s : State) (c : Nat) : State :=
  if 38 ≤ c then s
  else if !isOutputCh s c then wr s F.FIO_CH_LATCH_KINDS c 0
  else if !isSet s F.FIO_CH_STAT_DARK c || isSet s F.FIO_CH_STAT_ARMING c || s.darkNow.testBit c then s
  else if rearmRefused s c then setBit s F.FIO_EVT_EVT 0 2
  else if 12 ≤ c && isSet s F.TRG_CFG_TWIN (c - 12) && !isSet s F.TWN_STATUS_DRIVING then leaveDark s c
  else wr { s with armAt := sset s.armAt 0 c s.ns } F.FIO_CH_STAT_ARMING c 1

def execFioRearm (c : Nat) (s : State) : Host.Outcome State Fault Refusal := onUnit c 48 s fun s => fioReach s fun s => fioArm s c

/-- The re-arm test ends: 2 µs have passed with no limit and the output leaves dark, or a limit latched kind `kind` and it stays
dark with cause FAULT (R609). -/
def armTestDone (s : State) (c : Nat) (pass : Bool) (kind partner : Nat) : State :=
  if !isOutputCh s c || !isSet s F.FIO_CH_STAT_ARMING c then s
  else if pass then (if sget s.armAt 0 c + 2000 ≤ s.ns then leaveDark s c else s)
  else
    let s := wr s F.FIO_CH_STAT_ARMING c 0
    let s := recordKind s c kind partner
    let s := wr s F.FIO_CH_STAT_DARK_CAUSE c 1
    setBit { s with hiZ := sset s.hiZ false c true } F.FIO_EVT_EVT 0 1

def execFioArmTestDone (c : Nat) (pass : Bool) (kind partner : Nat) (s : State) : Host.Outcome State Fault Refusal :=
  onUnit c 48 s fun s =>
    if pass || kind = 1 || kind = 2 || kind = 3 || kind = 5 then armTestDone s c pass kind partner else s

/-- A FIO_DARK bit: dark with cause COMMAND (R605, R607, R609). -/
def fioDark (s : State) (c : Nat) : State := goDark { s with darkNow := s.darkNow ||| 2 ^ c } 7 false c

def execFioDarkCmd (c : Nat) (s : State) : Host.Outcome State Fault Refusal := onUnit c 48 s fun s => fioReach s fun s => fioDark s c

/-- The filter of GINn passes a level that has been stable for `held` ns: FILTER_US µs to ±20 % and 0.1 µs; within that accuracy a
free value decides (R600). -/
def ginPasses (s : State) (n held : Nat) : Bool × State :=
  let f := rd s F.FIO_GIN_CFG_FILTER_US n
  if 1200 * f + 100 ≤ held then (true, s)
  else if held + 100 < 800 * f then (false, s)
  else
    let (b, s) := takeFree s 1
    (b == 1, s)

/-- An edge that has passed the filter of GINn: its level, and its producer where EDGE selects it (R600). -/
def ginLevel (s : State) (n : Nat) (level : Bool) : State :=
  let old := hasBit s F.FIO_GIN_STAT_LEVELS 0 n
  let s := putBit s F.FIO_GIN_STAT_LEVELS 0 n level
  let e := rd s F.FIO_GIN_CFG_EDGE n
  let sel := old != level && (e == 2 || (e == 0 && level) || (e == 1 && !level))
  if sel && isSet s F.FIO_GIN_CFG_PROD_EN n then fireProducer s (120 + n) else s

/-- GINn has stood at a level for `held` ns. -/
def ginEdge (s : State) (n : Nat) (level : Bool) (held : Nat) : State :=
  let (b, s) := ginPasses s n held
  if b then ginLevel s n level else s

def execGinEdge (n : Nat) (level : Bool) (held : Nat) (s : State) : Host.Outcome State Fault Refusal :=
  onUnit n 8 s fun s => ginEdge s n level held

/-- FIO_CMD.CLR_COUNTS (R17). -/
def fioClear (s : State) : State := (List.range 48).foldl (fun s c => wr s F.FIO_CH_CNT_COUNT c 0) s

def execFioClrCounts (s : State) : Host.Outcome State Fault Refusal := finish s (fioReach s fioClear)

end Sys2Proof.Machine
end

