-- ==== Sys2Proof/Machine/Raw.lean ====
section
/-! DEFINITION. Pixel packings: the CSI-2 forms of R416 and of the RAW types of R280 (R308, R417; log 31 for the byte order of
RAW6, RAW7, RAW16, RAW20 and RAW24, which the specification leaves to CSI-2). -/
namespace Sys2Proof.Machine

/-- Byte i of a list. -/
def byteOf (bs : List Nat) (i : Nat) : Nat := bs.getD i 0

/-- Pixel x of a line whose bytes come as a bit stream, least significant bit first, `w` bits a pixel. -/
def streamPixel (w : Nat) (bs : Nat → Nat) (x : Nat) : Nat :=
  let b := x * w / 8
  (bs b + 256 * bs (b + 1)) / 2 ^ (x * w % 8) % 2 ^ w

/-- Pixel x of a line of packed high bytes with `low` low bits each: groups of `g` pixels, the high bytes first, then the
low-bit bytes as a bit stream (R416). -/
def packedPixel (g low : Nat) (bs : Nat → Nat) (x : Nat) : Nat :=
  let base := x / g * (g + g * low / 8)
  let k := x % g
  bs (base + k) * 2 ^ low + streamPixel low (fun i => bs (base + g + i)) k

/-- The bits of a pixel of a RAW data type; none for any other type (R280, R308). -/
def rawBits (dt : Nat) : Option Nat :=
  match dt with
  | 0x27 => some 24
  | 0x28 => some 6
  | 0x29 => some 7
  | 0x2A => some 8
  | 0x2B => some 10
  | 0x2C => some 12
  | 0x2D => some 14
  | 0x2E => some 16
  | 0x2F => some 20
  | _ => none

/-- The code of pixel x of a stored line of a RAW type (R308, R416; log 31). -/
def rawCode (dt : Nat) (bs : Nat → Nat) (x : Nat) : Nat :=
  match dt with
  | 0x27 => (bs (3 * x) * 256 + bs (3 * x + 1)) * 256 + bs (3 * x + 2)
  | 0x28 => streamPixel 6 bs x
  | 0x29 => streamPixel 7 bs x
  | 0x2A => bs x
  | 0x2B => packedPixel 4 2 bs x
  | 0x2C => packedPixel 2 4 bs x
  | 0x2D => packedPixel 4 6 bs x
  | 0x2E => bs (2 * x) * 256 + bs (2 * x + 1)
  | 0x2F =>
    let b := x / 2 * 5
    let k := x % 2
    (bs (b + 2 * k) * 256 + bs (b + 2 * k + 1)) * 16 + bs (b + 4) / 16 ^ k % 16
  | _ => 0

/-- The packings of transforms 4 to 6: 0 RAW10, 1 RAW12, 2 RAW14, as (pixels, low bits) of a group (R416, R417). -/
def packForm (par : Nat) : Option (Nat × Nat) :=
  match par with
  | 0 => some (4, 2)
  | 1 => some (2, 4)
  | 2 => some (4, 6)
  | _ => none

/-- Bytes in a group of a packing. -/
def groupBytes (f : Nat × Nat) : Nat := f.1 + f.1 * f.2 / 8

end Sys2Proof.Machine
end

