-- ==== Sys2Proof/Machine/IspMath.lean ====
section
/-! DEFINITION. What the stages of a pipeline compute, bit for bit (spec/08, R308 to R336): pure functions of pixels. -/
namespace Sys2Proof.Machine

/-- The greatest 24-bit value. -/
def maxPix : Nat := 16777215

/-- Clamp an integer to 0 to 2^24 − 1 (R308). -/
def clampPix (v : Int) : Nat := min v.toNat maxPix

/-- An image: the value at column x and row y. -/
abbrev Img := Nat → Nat → Nat

/-- An image computed once over `w` columns and `h` rows. -/
def memo (w h : Nat) (f : Img) : Img :=
  let a := (Array.range (w * h)).map fun i => f (i % w) (i / w)
  fun x y => a.getD (y * w + x) 0

/-! ### Mosaics (R309) -/

/-- The tile of a MOSAIC for CFA_PHASE 0, by rows. -/
def mosaicTile (m : Nat) : List (List Nat) :=
  match m with
  | 0 => [[0, 1], [1, 2]]
  | 1 => [[2, 1, 0, 1], [1, 3, 1, 3], [0, 1, 2, 1], [1, 3, 1, 3]]
  | 2 => [[0, 1], [1, 2]]
  | 3 => [[0, 1], [1, 2]]
  | 4 => [[0, 1], [2, 3]]
  | _ => [[0]]

/-- The width and height of a tile. -/
def tileSide (m : Nat) : Nat := (mosaicTile m).length

/-- The dense channel of a MOSAIC. -/
def denseChannel (m : Nat) : Option Nat := if m < 4 then some 1 else none

/-- The peel P of a MOSAIC. -/
def peelOf (m : Nat) : Nat :=
  match m with
  | 1 => 5
  | 5 => 1
  | _ => 4

/-- The channel at pixel (x, y). -/
def channelAt (m phase x y : Nat) : Nat :=
  let w := tileSide m
  ((mosaicTile m).getD ((y + phase / w) % w) []).getD ((x + phase % w) % w) 0

/-- What the stages take from a context, its tables and its frame: the geometry `w` × `h` processed, the geometry height
of the stream `hGeo`. -/
structure IspPar where
  w : Nat
  h : Nat
  hGeo : Nat
  mosaic : Nat
  phase : Nat
  blackFirst : Bool
  edge : Bool
  satLevel : Nat
  linEn : Bool
  lut : Nat → Nat
  ratio : List Nat
  thr : List Nat
  blend : Nat
  black : List Nat
  dynEn : Bool
  dynThr : Nat
  shadeEn : Bool
  gain : Nat → Nat → Nat → Nat
  irK : List Nat
  ccm : List Int
  luma : List Nat

def IspPar.chan (p : IspPar) (x y : Nat) : Nat := channelAt p.mosaic p.phase x y

/-- The positions of a (2r + 1) × (2r + 1) window around (x, y) that lie inside the frame (R310). -/
def windowOf (w h r x y : Nat) : List (Nat × Nat) :=
  (List.range (2 * r + 1)).flatMap fun j => (List.range (2 * r + 1)).filterMap fun i =>
    if r ≤ x + i ∧ x + i - r < w ∧ r ≤ y + j ∧ y + j - r < h then some (x + i - r, y + j - r) else none

/-- The floor of the mean of a list. -/
def meanFloor (l : List Nat) : Nat := if l.isEmpty then 0 else l.sum / l.length

/-! ### Stages -/

/-- Left-justify a code of `b` bits (R308). -/
def leftJustify (b code : Nat) : Nat := code * 2 ^ (24 - b)

/-- Linearisation (R315). -/
def linearise (p : IspPar) (u : Nat) : Nat :=
  if !p.linEn then u
  else
    let i := u / 16384
    let f := u % 16384
    let a : Int := p.lut i
    let b : Int := p.lut (i + 1)
    clampPix (a + ((b - a) * f + 8192) / 16384)

/-- The exposure a pixel takes (R318). -/
def mergeIndex (fuel : Nat) (p : IspPar) (ls : List Nat) (sats : List Bool) (k : Nat) : Nat :=
  match fuel with
  | 0 => k
  | fuel + 1 =>
    if k + 1 < ls.length && (sats.getD k false || decide (p.thr.getD k maxPix ≤ ls.getD k 0))
    then mergeIndex fuel p ls sats (k + 1) else k

/-- Exposure merge of one pixel (R318). -/
def mergePix (p : IspPar) (ls : List Nat) (sats : List Bool) : Nat :=
  let k := mergeIndex 3 p ls sats 0
  let l := ls.getD k 0
  let v := l * p.ratio.getD k 256 / 256
  let thr := p.thr.getD k maxPix
  if k + 1 < ls.length && decide (0 < p.blend) && decide (thr ≤ l + p.blend) then
    let w := (l + p.blend - thr) * 65536 / p.blend
    let b := ls.getD (k + 1) 0 * p.ratio.getD (k + 1) 256 / 256
    min ((v * (65536 - w) + b * w) / 65536) maxPix
  else min v maxPix

/-- Black level (R319). -/
def blackPix (p : IspPar) (f : Img) : Img := fun x y => f x y - p.black.getD (p.chan x y) 0

/-- Insert in order, and the lower median of a list. -/
def lowerMedian (l : List Nat) : Nat := (l.insertionSort (· ≤ ·)).getD ((l.length - 1) / 2) 0

/-- The neighbour set of a pixel (R321). -/
def neighbours (p : IspPar) (static : Nat → Nat → Bool) (f : Img) (x y : Nat) : List Nat :=
  ((windowOf p.w p.h (if p.mosaic = 5 then 1 else 2) x y).filter fun q =>
    (q.1 ≠ x || q.2 ≠ y) && p.chan q.1 q.2 == p.chan x y && !static q.1 q.2).map fun q => f q.1 q.2

/-- A pixel that is not a static defect is a dynamic one (R322). -/
def isDynamic (p : IspPar) (ns : List Nat) (v : Nat) : Bool :=
  p.dynEn && decide (2 ≤ ns.length)
    && (decide (ns.foldl max 0 + p.dynThr < v) || decide (v + p.dynThr < ns.foldl min maxPix))

/-- Defect correction (R321, R322). -/
def defectPix (p : IspPar) (static : Nat → Nat → Bool) (f : Img) : Img := fun x y =>
  let ns := neighbours p static f x y
  if static x y then (if ns.isEmpty then f x y else lowerMedian ns)
  else if isDynamic p ns (f x y) then lowerMedian ns else f x y

/-- The counts of static, dynamic and unfixed defects of the frame (R335, R336; log 32). -/
def defectCounts (p : IspPar) (static : Nat → Nat → Bool) (f : Img) : Nat × Nat × Nat :=
  (List.range (p.w * p.h)).foldl (fun c i =>
    let x := i % p.w
    let y := i / p.w
    let ns := neighbours p static f x y
    if static x y then (c.1 + 1, c.2.1, if ns.isEmpty then c.2.2 + 1 else c.2.2)
    else if isDynamic p ns (f x y) then (c.1, c.2.1 + 1, c.2.2) else c) (0, 0, 0)

/-- Lens shading (R323). -/
def shadePix (p : IspPar) (f : Img) : Img := fun x y =>
  if !p.shadeEn then f x y
  else
    let c := p.chan x y
    let ux := x * 32 * 65536 / max (p.w - 1) 1
    let uy := y * 32 * 65536 / max (p.hGeo - 1) 1
    let i := min 31 (ux / 65536)
    let j := min 31 (uy / 65536)
    let fx := ux - i * 65536
    let fy := uy - j * 65536
    let g := (p.gain c i j * (65536 - fx) * (65536 - fy) + p.gain c (i + 1) j * fx * (65536 - fy)
      + p.gain c i (j + 1) * (65536 - fx) * fy + p.gain c (i + 1) (j + 1) * fx * fy) / 2 ^ 32
    min (f x y * g / 4096) maxPix

/-- The positions of channel c in the demosaic window (R324). -/
def demosaicWindow (p : IspPar) (c x y : Nat) : List (Nat × Nat) :=
  (windowOf p.w p.h (if p.mosaic = 1 then 2 else 1) x y).filter fun q => p.chan q.1 q.2 == c

/-- The bilinear value of channel c (R324). -/
def bilinear (p : IspPar) (f : Img) (c x y : Nat) : Nat :=
  if p.chan x y = c then f x y else meanFloor ((demosaicWindow p c x y).map fun q => f q.1 q.2)

/-- The dense channel at every pixel (R325). -/
def densePix (p : IspPar) (f : Img) (d : Nat) : Img := fun x y =>
  if p.chan x y = d then f x y
  else
    let hIn := decide (1 ≤ x) && decide (x + 1 < p.w)
    let vIn := decide (1 ≤ y) && decide (y + 1 < p.h)
    let l := f (x - 1) y
    let r := f (x + 1) y
    let u := f x (y - 1)
    let b := f x (y + 1)
    let h := (l + r) / 2
    let v := (u + b) / 2
    if !hIn && !vIn then bilinear p f d x y
    else if !hIn then v
    else if !vIn then h
    else
      let dh := (l - r) + (r - l)
      let dv := (u - b) + (b - u)
      if dh < dv then h else if dv < dh then v else (h + v) / 2

/-- Every channel at every pixel (R324, R325). -/
def demosaic (p : IspPar) (f : Img) : Nat → Img :=
  if p.mosaic = 5 then fun _ => f
  else match if p.edge then denseChannel p.mosaic else none with
    | none => fun c x y => bilinear p f c x y
    | some d =>
      let dense := memo p.w p.h (densePix p f d)
      fun c x y =>
        if c = d then dense x y
        else if p.chan x y = c then f x y
        else
          let qs := demosaicWindow p c x y
          let sum : Int := (qs.map fun q => (f q.1 q.2 : Int) - dense q.1 q.2).sum
          clampPix (dense x y + (if qs.isEmpty then 0 else sum / (qs.length : Int)))

/-- The colour channels after IR subtraction (R326). -/
def irSubtract (p : IspPar) (ch : Nat → Nat) (c : Nat) : Nat :=
  if p.mosaic = 1 ∧ c < 3 then ch c - ch 3 * p.irK.getD c 0 / 4096 else ch c

/-- The channel exists in the mosaic. -/
def hasChannel (m c : Nat) : Bool := (mosaicTile m).any fun r => r.contains c

/-- R, G and B (or Y of MONO) of one pixel (R326). -/
def colourPix (p : IspPar) (ch : Nat → Nat) (row : Nat) : Nat :=
  if p.mosaic = 5 then clampPix ((ch 0 : Int) * p.ccm.getD 0 0 / 4096)
  else clampPix (((List.range 4).map fun c =>
    p.ccm.getD (4 * row + c) 0 * (if hasChannel p.mosaic c then (irSubtract p ch c : Int) else 0)).sum / 4096)

/-- Luma of one pixel (R308, R327). -/
def lumaPix (p : IspPar) (rgb : Nat → Nat) : Nat :=
  if p.mosaic = 5 then rgb 0
  else min ((p.luma.getD 0 0 * rgb 0 + p.luma.getD 1 0 * rgb 1 + p.luma.getD 2 0 * rgb 2) / 65536) maxPix

/-- What the colour stage gives: R, G, B, luma (channels 0 to 3), the IR plane, and the marks and counts of the frame. -/
structure IspImage where
  rgb : Nat → Img
  ir : Img
  allSat : Nat → Nat → Bool
  defects : Nat × Nat × Nat

/-- All stages of a frame, from the left-justified codes of its exposures (R311). -/
def runStages (p : IspPar) (static : Nat → Nat → Bool) (codes : List Img) : IspImage :=
  let m := fun (f : Img) => memo p.w p.h f
  let sats : List (Nat → Nat → Bool) := codes.map fun f => fun x y => decide (p.satLevel ≤ f x y)
  let merge := fun (ls : List Img) => m fun x y => mergePix p (ls.map fun l => l x y) (sats.map fun s => s x y)
  let lin := fun (f : Img) => m fun x y => linearise p (f x y)
  let blacks := codes.map fun f => m (blackPix p f)
  let (inDef, mosaic) : Img × Img :=
    if p.blackFirst then
      (blacks.headD fun _ _ => 0, merge (blacks.map fun f => lin (m (shadePix p (m (defectPix p static f))))))
    else
      let b := m (blackPix p (merge (codes.map lin)))
      (b, m (shadePix p (m (defectPix p static b))))
  let chans := demosaic p mosaic
  let chanMemo := (List.range 4).map fun c => m (chans c)
  let ch := fun c x y => (chanMemo.getD c fun _ _ => 0) x y
  let rgbMemo := (List.range 3).map fun r => m fun x y => colourPix p (fun c => ch c x y) r
  let rgb := fun r x y => (rgbMemo.getD r fun _ _ => 0) x y
  { rgb := fun r => if r < 3 then rgb r else fun x y => lumaPix p fun c => rgb c x y
    ir := ch 3
    allSat := fun x y => sats.all fun s => s x y
    defects := defectCounts p static inDef }

/-! ### Outputs (R329 to R332) -/

/-- min(65,535, v >> shift) (R329). -/
def shift16 (v sh : Nat) : Nat := min 65535 (v / 2 ^ sh)

/-- The 8-bit sRGB code of x: round(255 × f(x ÷ 65,535)), half up (R329). f(v) ≥ (2k − 1) ÷ 510 is decided exactly: the
linear part by 12.92, the power part by fifth and twelfth powers, since 2.4 = 12 ÷ 5. -/
def srgbReaches (x k : Nat) : Bool :=
  if k = 0 then true
  else if x * 10000000 ≤ 31308 * 65535 then
    -- 12.92 x / 65535 ≥ (2k − 1) / 510
    decide ((2 * k - 1) * 65535 * 100 ≤ 1292 * x * 510)
  else
    -- 1.055 v^(5/12) − 0.055 ≥ (2k − 1)/510  ⟺  v^5 ≥ (((2k − 1) × 1000 + 28050) / (510 × 1055))^12
    decide (((2 * k - 1) * 1000 + 28050) ^ 12 * 65535 ^ 5 ≤ x ^ 5 * (510 * 1055) ^ 12)

def srgb8 (x : Nat) : Nat := ((List.range 256).filter fun k => srgbReaches x k).length - 1

/-- DISPLAY tone (R329). -/
def dispTone (tone x : Nat) : Nat := if tone = 0 then srgb8 x else x / 256

/-- The greatest r at most 2^64 with r^20 × d ≤ n, by bits from the top. -/
def root20 (bits n d r : Nat) : Nat :=
  match bits with
  | 0 => r
  | b + 1 => let t := r + 2 ^ b; root20 b n d (if t ^ 20 * d ≤ n then t else r)

/-- The BT.709 OETF, or linear, of x ÷ 65,535, in units of 2^-64 ÷ 65,535,000: the rational parts exactly, the power part to
2^-64 (R330; log 33). -/
def codeTone (tone x : Nat) : Int :=
  if tone = 1 then (x * 2 ^ 64 * 1000 : Nat)
  else if x * 1000 < 18 * 65535 then (x * 4500 * 2 ^ 64 : Nat)
  else (1099 * (root20 65 (x ^ 9 * 2 ^ 1280) (65535 ^ 9) 0 : Int) - 99 * 2 ^ 64) * 65535

/-- floor(v + 1/2) of a rational n ÷ d. -/
def roundHalfUp (n d : Int) : Int := (2 * n + d) / (2 * d)

/-- One unit of R′, G′, B′ as `codeTone` counts it. -/
def toneOne : Int := 2 ^ 64 * 1000 * 65535

/-- Y′ × 10,000 in units of `toneOne` (R330). -/
def yPrime (r g b : Int) : Int := 2126 * r + 7152 * g + 722 * b

/-- The Y code (R330). -/
def yCode (ten full : Bool) (y : Int) : Nat :=
  let one := toneOne * 10000
  let v := match ten, full with
    | false, false => roundHalfUp (16 * one + 219 * y) one
    | false, true => roundHalfUp (255 * y) one
    | true, false => roundHalfUp (64 * one + 876 * y) one
    | true, true => roundHalfUp (1023 * y) one
  (max 0 (min (if ten then 1023 else 255) v)).toNat

/-- The Cb or Cr code of the sum over a 2 × 2 block of (B′ − Y′) or (R′ − Y′) × 10,000, with `k` 18,556 or 15,748 (R330). -/
def cCode (ten full : Bool) (sum k : Int) : Nat :=
  let d := toneOne * k * 4
  let v := match ten, full with
    | false, false => roundHalfUp (128 * d + 224 * sum) d
    | false, true => roundHalfUp (128 * d + 255 * sum) d
    | true, false => roundHalfUp (512 * d + 896 * sum) d
    | true, true => roundHalfUp (512 * d + 1023 * sum) d
  (max 0 (min (if ten then 1023 else 255) v)).toNat

/-- A line stride: the bytes rounded up to a multiple of 64 (R332). -/
def stride64 (n : Nat) : Nat := (n + 63) / 64 * 64

/-- The settings of the outputs of a context. -/
structure OutPar where
  dispFmt : Nat
  dispTone : Nat
  dispShift : Nat
  dx : Nat
  dy : Nat
  ten : Bool
  codeTone : Nat
  codeShift : Nat
  full : Bool
  visFmt : Nat
  visShift : Nat
  x0 : Nat
  y0 : Nat
  vw : Nat
  vh : Nat
  deriving DecidableEq, Repr

/-- Bytes of a DISPLAY line (R329). -/
def dispBytes (p : IspPar) (o : OutPar) : Nat := p.w / o.dx * (if o.dispFmt = 0 then 3 else 1)

/-- Bytes of a CODING line (R330). -/
def codeBytes (p : IspPar) (o : OutPar) : Nat := p.w / 2 * 2 * (if o.ten then 2 else 1)

/-- The bytes of a whole output over the geometry: 0 DISPLAY, 1 CODING, 2 VISION (R332). -/
def outBytes (p : IspPar) (o : OutPar) (out : Nat) : Nat :=
  match out with
  | 0 => stride64 (dispBytes p o) * (p.hGeo / o.dy)
  | 1 => stride64 (codeBytes p o) * (p.hGeo / 2 * 3)
  | _ => stride64 (2 * o.vw) * o.vh * (if o.visFmt = 1 then 3 else 1)

/-- The mean of a decimation block of channel c (R329; log 34: rounded down). -/
def blockMean (o : OutPar) (f : Img) (bx by' : Nat) : Nat :=
  ((List.range (o.dx * o.dy)).map fun i => f (bx * o.dx + i % o.dx) (by' * o.dy + i / o.dx)).sum / (o.dx * o.dy)

/-- DISPLAY row oy. -/
def dispLine (p : IspPar) (o : OutPar) (im : IspImage) (oy : Nat) : List Nat :=
  (List.range (p.w / o.dx)).flatMap fun ox =>
    let v := fun c => dispTone o.dispTone (shift16 (blockMean o (im.rgb c) ox oy) o.dispShift)
    if o.dispFmt = 0 then [v 0, v 1, v 2] else [v 3]

/-- R′, G′ or B′ of a pixel (R330). -/
def primePix (o : OutPar) (im : IspImage) (c x y : Nat) : Int := codeTone o.codeTone (shift16 (im.rgb c x y) o.codeShift)

/-- A sample of CODING in its container (R330). -/
def codeSample (o : OutPar) (v : Nat) : List Nat := if o.ten then toBytes 2 (v * 64) else [v]

/-- CODING luma line y. -/
def codeYLine (p : IspPar) (o : OutPar) (im : IspImage) (y : Nat) : List Nat :=
  (List.range (p.w / 2 * 2)).flatMap fun x =>
    codeSample o (yCode o.ten o.full (yPrime (primePix o im 0 x y) (primePix o im 1 x y) (primePix o im 2 x y)))

/-- CODING chroma line of rows 2j and 2j + 1: Cb before Cr. -/
def codeCLine (p : IspPar) (o : OutPar) (im : IspImage) (j : Nat) : List Nat :=
  (List.range (p.w / 2)).flatMap fun i =>
    let sum := fun (c : Nat) => ((List.range 4).map fun k =>
      let x := 2 * i + k % 2
      let y := 2 * j + k / 2
      10000 * primePix o im c x y - yPrime (primePix o im 0 x y) (primePix o im 1 x y) (primePix o im 2 x y)).sum
    if p.mosaic = 5 then codeSample o (if o.ten then 512 else 128) ++ codeSample o (if o.ten then 512 else 128)
    else codeSample o (cCode o.ten o.full (sum 2) 18556) ++ codeSample o (cCode o.ten o.full (sum 0) 15748)

/-- VISION row y of plane c (R331). -/
def visLine (o : OutPar) (im : IspImage) (c y : Nat) : List Nat :=
  (List.range o.vw).flatMap fun x =>
    let v := match o.visFmt with
      | 0 => im.rgb 3 (o.x0 + x) (o.y0 + y)
      | 1 => im.rgb c (o.x0 + x) (o.y0 + y)
      | _ => im.ir (o.x0 + x) (o.y0 + y)
    toBytes 2 (shift16 v o.visShift)

/-- A line of an output: its offset in the slot, its bytes, the first input line it is made from and how many. -/
structure OutLine where
  off : Nat
  bytes : List Nat
  first : Nat
  count : Nat
  deriving DecidableEq, Repr

/-- The lines of an output that input lines `a` to `b` − 1 complete. -/
def outLines (p : IspPar) (o : OutPar) (im : IspImage) (out a b : Nat) : List OutLine :=
  match out with
  | 0 => (List.range (b / o.dy)).filterMap fun oy =>
      if a ≤ oy * o.dy then some ⟨oy * stride64 (dispBytes p o), dispLine p o im oy, oy * o.dy, o.dy⟩ else none
  | 1 =>
    let st := stride64 (codeBytes p o)
    let h2 := p.h / 2 * 2
    let ys := (List.range (min b h2)).filterMap fun y => if a ≤ y then some ⟨y * st, codeYLine p o im y, y, 1⟩ else none
    let cs := (List.range (min b h2 / 2)).filterMap fun j =>
      if a ≤ 2 * j then some ⟨(p.hGeo / 2 * 2 + j) * st, codeCLine p o im j, 2 * j, 2⟩ else none
    ys ++ cs
  | _ =>
    let st := stride64 (2 * o.vw)
    (List.range (if o.visFmt = 1 then 3 else 1)).flatMap fun c =>
      (List.range o.vh).filterMap fun y =>
        if a ≤ o.y0 + y ∧ o.y0 + y < b then some ⟨(c * o.vh + y) * st, visLine o im c y, o.y0 + y, 1⟩ else none

/-! ### Statistics (R335, R336) -/

/-- The window and settings of the statistics of a context. -/
structure StatPar where
  x0 : Nat
  y0 : Nat
  sw : Nat
  sh : Nat
  histShift : Nat
  deriving DecidableEq, Repr

/-- Bytes of a list of values of `n` bytes each. -/
def packAll (n : Nat) (l : List Nat) : List Nat := l.flatMap (toBytes n)

/-- The statistics record (R335, R336) after its first 20 bytes: from 0x0014 on. `h` lines were processed. -/
def statBody (p : IspPar) (st : StatPar) (im : IspImage) : List Nat :=
  let zw := st.sw / 16
  let zh := st.sh / 16
  let mono := p.mosaic == 5
  let inside := (List.range (st.sw * st.sh)).filterMap fun i =>
    let y := st.y0 + i / st.sw
    if y < p.h then some (st.x0 + i % st.sw, y) else none
  let val := fun (c x y : Nat) => if mono && c ≠ 0 then 0 else im.rgb c x y
  let bin := fun (v : Nat) => min 255 (v / 2 ^ (16 - st.histShift))
  let hist := fun (c : Nat) => if mono && c ≠ 0 then List.replicate 256 0 else
    (inside.foldl (fun (a : Array Nat) q => a.modify (bin (val c q.1 q.2)) (· + 1)) (Array.replicate 256 0)).toList
  let zone := fun (z : Nat) => (List.range (zw * zh)).filterMap fun i =>
    let y := st.y0 + z / 16 * zh + i / zw
    if y < p.h then some (st.x0 + z % 16 * zw + i % zw, y) else none
  let zoneMean := fun (c z : Nat) =>
    let qs := zone z
    if qs.isEmpty then 0 else (qs.map fun q => val c q.1 q.2).sum / (qs.length * 256)
  let contrast := fun (z : Nat) =>
    let edge := st.x0 + z % 16 * zw + zw
    let qs := (zone z).filter fun q => q.1 + 1 < edge
    let y8 := fun x y => im.rgb (if mono then 0 else 3) x y / 256
    if qs.isEmpty then 0
    else min 65535 ((qs.map fun q => (y8 (q.1 + 1) q.2 - y8 q.1 q.2) + (y8 q.1 q.2 - y8 (q.1 + 1) q.2)).sum / qs.length)
  let sat := (inside.filter fun q => im.allSat q.1 q.2).length
  packAll 2 [zw, zh, st.x0, st.y0, st.sw, st.sh]
    ++ packAll 4 [sat, im.defects.1, im.defects.2.1, im.defects.2.2, inside.length]
    ++ List.replicate 12 0
    ++ (List.range 4).flatMap (fun c => packAll 4 (hist c))
    ++ (List.range 4).flatMap (fun c => packAll 2 ((List.range 256).map (zoneMean c)))
    ++ packAll 2 ((List.range 256).map contrast)
    ++ List.replicate 1472 0

end Sys2Proof.Machine
end

