-- ==== Sys2Proof/Machine/Tmb.lean ====
section
/-! DEFINITION. The timebase (spec/05, R193 to R200). -/
namespace Sys2Proof.Machine

def fcgAt (s : State) (g : Nat) : Fcg := sget s.fcg Fcg.init g
def setFcg (s : State) (g : Nat) (k : Fcg) : State := { s with fcg := sset s.fcg Fcg.init g k }

/-- FCG g runs: its LOOP is not IDLE (R217). -/
def fcgRuns (s : State) (g : Nat) : Bool := rd s F.FCG_STATUS_LOOP g ≠ 0

def tmbEvt (s : State) (b : Nat) : State := setBit s F.TMB_EVT_EVT 0 b

/-- The time PLL leaves TIMEREF for the lane reference: FREQ or PHASE becomes FREE (R194, R196). -/
def toFree (s : State) : State :=
  let st := rd s F.TMB_STATUS_STATE
  let s := if st = 2 then bump (tmbEvt s 3) F.TMB_LOCK_LOSS_CNT_COUNT else s
  let s := if st ≠ 0 then bump (tmbEvt s 1) F.TMB_LOCK_LOSS_CNT_COUNT else s
  setStatus { wr s F.TMB_STATUS_STATE 0 0 with ppsGood := 0 } F.GLB_STATUS_TIMEREF_OK 3 false

/-- The timebase leaves PHASE for FREQ (R196). -/
def leavePhase (s : State) : State :=
  if rd s F.TMB_STATUS_STATE = 2
  then { bump (tmbEvt (wr s F.TMB_STATUS_STATE 0 1) 3) F.TMB_LOCK_LOSS_CNT_COUNT with ppsGood := 0 } else s

/-- A load of TB is refused: an FCG runs or an output holds a scheduled pulse (R198). -/
def loadBarred (s : State) : Bool :=
  (List.range 4).any (fcgRuns s) || (List.range 16).any fun n => pendingPulses s n ≠ 0

/-- TB takes TMB_LOAD, or the load is refused (R198); a load ends the correction of R195 still
outstanding (log 81). -/
def loadTb (s : State) : State :=
  if loadBarred s then tmbEvt s 6 else tmbEvt { s with tb := rd s F.TMB_LOAD_VALUE, slew := 0 } 5

/-- The phase error of a captured TB (R195). -/
def phaseError (tbPps offset : Nat) : Int := ((tbPps : Int) - offset + 500000000) % 1000000000 - 500000000

/-- FREQ and PHASE follow the phase error of an edge (R196). -/
def judgePhase (s : State) (e : Int) : State :=
  let small := e.natAbs ≤ 2
  match rd s F.TMB_STATUS_STATE with
  | 1 =>
    let n := if small then s.ppsGood + 1 else 0
    if 3 ≤ n then { tmbEvt (wr s F.TMB_STATUS_STATE 0 2) 2 with ppsGood := n } else { s with ppsGood := n }
  | 2 => if small then s else leavePhase s
  | _ => s

/-- An active PPS edge: PPS_OK, the producer, AUTO's PPS_EN (R200, which R504 overrides), the capture with its correction (R195, R196), and a
pending load (R198). -/
def ppsEdge (s : State) : State :=
  let s := setStatus { s with ppsLast := s.ns } F.GLB_STATUS_PPS_OK 4 true
  let s := fireProducer s 44
  let s := if isSet s F.TMB_CTL_AUTO && rd s F.TMB_STATUS_STATE ≠ 0 && twnState s ≠ twALIGN && twnState s ≠ twWATCH then wr s F.TMB_CTL_PPS_EN 0 1 else s
  let s := if isSet s F.TMB_CTL_PPS_EN then
      let e := phaseError s.tb (rd s F.TMB_PPS_OFFSET_VALUE)
      let s := wr s F.TMB_PPS_TB_VALUE 0 s.tb
      let s := wr s F.TMB_PHASE_ERR_VALUE 0 (fromSigned 32 (satSigned 32 e))
      tmbEvt (judgePhase { s with slew := e } e) 4
    else s
  if isSet s F.TMB_STATUS_LOAD_PENDING then loadTb (wr s F.TMB_STATUS_LOAD_PENDING 0 0) else s

def execPpsEdge (s : State) : Host.Outcome State Fault Refusal :=
  finish s (inBlock 4 s ppsEdge)

def execTimerefLost (s : State) : Host.Outcome State Fault Refusal := finish s (inBlock 4 s toFree)

/-- The time PLL locks to TIMEREF while TIMEREF_EN is 1 (R194). -/
def freqLock (s : State) : State :=
  if isSet s F.TMB_CTL_TIMEREF_EN && rd s F.TMB_STATUS_STATE = 0
  then setStatus (tmbEvt (wr s F.TMB_STATUS_STATE 0 1) 0) F.GLB_STATUS_TIMEREF_OK 3 true else s

def execTimerefFreqLock (s : State) : Host.Outcome State Fault Refusal := finish s (inBlock 4 s freqLock)

/-- No PPS pulse for 1.1 s: PPS_OK clears and PHASE is left (R196). -/
def ppsTimeout (s : State) : State :=
  if s.ns < s.ppsLast + 1100000000 then s else leavePhase (setStatus s F.GLB_STATUS_PPS_OK 4 false)

def execPpsTimeout (s : State) : Host.Outcome State Fault Refusal := finish s (inBlock 4 s ppsTimeout)

/-- TMB_CMD.LOAD_NOW (R198). -/
def execLoadNow (s : State) : Host.Outcome State Fault Refusal := finish s (inReach 4 s loadTb)

/-- TMB_CMD.LOAD_AT_PPS: pending, or refused at the request (R198). -/
def loadAtPps (s : State) : State := if loadBarred s then tmbEvt s 6 else wr s F.TMB_STATUS_LOAD_PENDING 0 1

def execLoadAtPps (s : State) : Host.Outcome State Fault Refusal := finish s (inReach 4 s loadAtPps)

/-- TMB_CMD.CANCEL_LOAD (R198). -/
def execCancelLoad (s : State) : Host.Outcome State Fault Refusal := finish s (inReach 4 s fun s => wr s F.TMB_STATUS_LOAD_PENDING 0 0)

/-- Clearing TIMEREF_EN, or AUTO holding it at 1 (R194, R200). -/
def tmbCtlWritten (s : State) : State :=
  let s := if isSet s F.TMB_CTL_AUTO then wr s F.TMB_CTL_TIMEREF_EN 0 1 else s
  if isSet s F.TMB_CTL_TIMEREF_EN then s else toFree s

end Sys2Proof.Machine
end

