-- ==== Sys2Proof/Machine/Relay.lean ====
section
/-! DEFINITION. The states of a port, and the relay ports (spec/06 R261, R270 to R272). -/
namespace Sys2Proof.Machine

def prtAt (s : State) (n : Nat) : Prt := sget s.prt Prt.init n
def setPrt (s : State) (n : Nat) (v : Prt) : State := { s with prt := sset s.prt Prt.init n v }
def prtEvt (s : State) (n b : Nat) : State := setBit s F.PRT_EVT_EVT n b

/-! ### The states of a port (PRT_STATUS.STATE) -/

def pOFF : Nat := 0
def pNOCLOCK : Nat := 1
def pCLOCK : Nat := 2
def pEQUALISE : Nat := 3
def pLOCK : Nat := 4
def pDESKEW : Nat := 5
def pUP : Nat := 6
def pHOLD : Nat := 7
def pDEEP : Nat := 8
def pTEST : Nat := 9
def pSELFTEST : Nat := 10

/-! ### Relays (R270 to R272) -/

/-- Relay k has what it needs to run: a source port whose clock multiplier is locked. A relay that does not run yet waits
while its source is in HOLD; one that runs goes on (R271). -/
def relayReady (s : State) (k : Nat) : Bool :=
  let p := rd s F.RLY_CFG_SRC_PORT k
  (relayTested s k).isSome || rd s F.RLY_CFG_SRC k ≠ 0
  || (isSet s F.PRT_CFG_EN p && (prtAt s p).mult && rd s F.PRT_STATUS_STATE p ≠ pDEEP
      && (rd s F.PRT_STATUS_STATE p ≠ pHOLD || rd s F.RLY_STATUS_STATE k == 2))

/-- Relay k enters RUNNING, and its line starts; the latency of a port source is a free value of at most 40 ns (R244, R270,
R271). -/
def relayStart (s : State) (k : Nat) : State :=
  let s := lineStart s k
  let s := setBit (wr (wr s F.RLY_STATUS_STATE k 2) F.RLY_STATUS_CLK_OUT k 1) F.RLY_EVT_EVT k 1
  if rd s F.RLY_CFG_SRC k = 0 && !(relayTested s k).isSome then
    let (v, s) := takeFree s 16
    wr s F.RLY_STATUS_LATENCY_NS k (v % 41)
  else s

/-- Relay k loses its source (R271). -/
def relayStop (s : State) (k : Nat) : State :=
  let s := wr (wr s F.RLY_STATUS_STATE k 1) F.RLY_STATUS_CLK_OUT k 0
  fireProducer (bump (setBit s F.RLY_EVT_EVT k 0) F.RLY_STOPS_COUNT k) (64 + k)

/-- Relay k follows its enable and its source. -/
def relaySync (s : State) (k : Nat) : State :=
  let st := rd s F.RLY_STATUS_STATE k
  if !isSet s F.RLY_CFG_EN k then (if st = 0 then s else wr (wr s F.RLY_STATUS_STATE k 0) F.RLY_STATUS_CLK_OUT k 0)
  else if relayReady s k then (if st = 2 then s else relayStart s k)
  else if st = 2 then relayStop s k
  else wr s F.RLY_STATUS_STATE k 1

def relaysSync (s : State) : State := (List.range 4).foldl relaySync s

/-- An enabled relay names port n as its source (R265). -/
def relayed (s : State) (n : Nat) : Bool :=
  (List.range 4).any fun k => isSet s F.RLY_CFG_EN k && rd s F.RLY_CFG_SRC k == 0 && rd s F.RLY_CFG_SRC_PORT k == n

/-- Relay k sends on its pins: it runs, and no loop leads it to a port (R261, R271). -/
def relayOnPins (s : State) (k : Nat) : Bool :=
  rd s F.RLY_STATUS_STATE k == 2 && rd s F.RLY_CFG_LOOP k == 0 && (relayTested s k).isNone

/-- What a port samples (nothing in HOLD) leaves on each relay that runs with it as its source, as (logical lane, bits), unchanged and in order
(R270). -/
def relayForward (s : State) (n : Nat) (us : List (Nat × Nat)) : State :=
  (List.range 4).foldl (fun s k =>
    if rd s F.RLY_STATUS_STATE k == 2 && rd s F.RLY_CFG_SRC k == 0 && rd s F.RLY_CFG_SRC_PORT k == n && (relayTested s k).isNone
      && rd s F.PRT_STATUS_STATE n ≠ pHOLD
    then setLine s k { lineAt s k with fwd := us.reverse ++ (lineAt s k).fwd } else s) s

end Sys2Proof.Machine
end

