-- ==== Sys2Proof/Machine/Stream.lean ====
section
/-! DEFINITION. Streams and their frames as records: opening, closing, trigger records and trigger packets, and the part of
a port that frame closing acts on (spec/07 R282 to R303; spec/06 R263 to R267; R494). -/
namespace Sys2Proof.Machine

def streamAt (s : State) (k : Nat) : StreamSt := sget s.streams StreamSt.init k
def setStream (s : State) (k : Nat) (v : StreamSt) : State := { s with streams := sset s.streams StreamSt.init k v }

def pktPortAt (s : State) (n : Nat) : PktPort := sget s.pktPorts PktPort.init n
def setPktPort (s : State) (n : Nat) (v : PktPort) : State := { s with pktPorts := sset s.pktPorts PktPort.init n v }

def sevt (s : State) (k b : Nat) : State := setBit s F.PKT_SEVT_EVT k b
def pevt (s : State) (n b : Nat) : State := setBit s F.PKT_PORT_EVT_EVT n b

/-! ### Ports: states, HOLD and DEEP -/

/-- The uplink of port n runs (R267). -/
def ulRunning (s : State) (n : Nat) : Bool :=
  domUp s (6 + n) && isSet s F.PRT_CFG_EN n && isSet s F.PRT_UL_CFG_EN n && rd s F.PRT_STATUS_STATE n ≠ pDEEP

/-- The trigger packets of port n are sent by this device's own uplink: TWIN_SRC is 0 (R494). -/
def ownUplink (s : State) (n : Nat) : Bool := !isSet s F.PKT_PORT_CFG_TWIN_SRC n

/-- The port has an open frame. -/
def portOpen (s : State) (n : Nat) : Bool := s.frames.any fun f => f.phase == .open && f.port == n

/-- The uplink of port n has stopped: its queued trigger packets are dropped, but those of a TWIN_SRC port (R138, R494). -/
def dropUplink (s : State) (n : Nat) : State :=
  let k := pktPortAt s n
  if (ulRunning s n && !isSet s F.PRT_UL_CFG_PRBS_EN n) || isSet s F.PKT_PORT_CFG_TWIN_SRC n || k.trigQ.isEmpty then s
  else pevt (bumpBy (setPktPort s n { k with trigQ := [] }) F.PKT_TRIG_DROP_COUNT n k.trigQ.length) n 8

/-! #### The uplink's wire (R267, R268, R305) -/

/-- The end of what the uplink of port n has put on the wire, in ns of TB. -/
def ulWireEnd (v : PktPort) : Nat :=
  match v.wire with
  | i :: _ => i.start + 8 * i.chars.length
  | [] => 0

/-- The uplink of port n sends a sequence from TB `t` on. -/
def ulPut (s : State) (n t : Nat) (chars : List (Bool × Nat)) : State :=
  setPktPort s n { pktPortAt s n with wire := ⟨t, chars⟩ :: (pktPortAt s n).wire }

/-- The uplink carries traffic: it runs, and no pattern takes its place (R267, R268). -/
def ulCarries (s : State) (n : Nat) : Bool := ulRunning s n && !isSet s F.PRT_UL_CFG_PRBS_EN n

/-- A marker-burst request where MB_REQ_EN asks for it, as soon as the wire is idle (R246, R250, R267). -/
def burstRequest (s : State) (n : Nat) : State :=
  if n < 8 && isSet s F.PRT_CFG_MB_REQ_EN n && ulCarries s n && ownUplink s n
  then ulPut s n (max s.tb (ulWireEnd (pktPortAt s n))) burstChars else s

/-- Bytes 0 to 3 and the payload of the control packet in the transmit buffer of port n (R304, R305). -/
def ulPacket (s : State) (n : Nat) : List Nat :=
  let len := bitsOf (rd s F.PKT_UL_TXBUF_DATA (65 * n)) 16 16
  ((List.range 65).flatMap fun i => toBytes 4 (rd s F.PKT_UL_TXBUF_DATA (65 * n + i))).take (4 + len)

/-- The control packet of port n starts on the wire at TB `t`. -/
def ulControl (s : State) (n t : Nat) : State :=
  let s := ulPut s n t (controlChars (ulPacket s n))
  setPktPort s n { pktPortAt s n with ctl := some t }

/-- The control packet that waits starts when the uplink carries traffic and its wire is idle; one that an uplink was sending
when it stopped is sent again (R267, R305). -/
def ulTick (s : State) (n : Nat) : State :=
  let v := pktPortAt s n
  if !isSet s F.PKT_UL_TXCMD_TX_BUSY n then s
  else if !ulCarries s n then (if v.ctl.isSome then setPktPort s n { v with ctl := none } else s)
  else if v.ctl.isNone && decide (ulWireEnd v ≤ s.tb) then ulControl s n s.tb else s

/-- The character that the uplink of port n sends at TB `t` (R267): of the sequence under way, or of IDLE. -/
def ulChar (v : PktPort) (t : Nat) : Bool × Nat :=
  match v.wire.find? fun i => i.start ≤ t with
  | some i =>
    if (t - i.start) / 8 < i.chars.length then i.chars.getD ((t - i.start) / 8) (true, kIDLE)
    else idleChar ((t - i.start) / 8 - i.chars.length)
  | none => idleChar (t / 8)

/-! #### Entry and exit (R263 to R266) -/

/-- What stands before an entry of port n. -/
def beforeEntry (s : State) (n : Nat) : Entered :=
  let k := prtAt s n
  ⟨s.ns, rd s F.PRT_STATUS_STATE n, (rd s F.PRT_EVT_EVT n) / 2 ^ 8 % 2, rd s F.PRT_STATUS_LINK_UP n, rd s F.PRT_STATUS_LANE_LOCK n,
   k.mult, k.centred, k.swept, k.deskewed⟩

/-- A wake of the same cycle cancels an entry (R266; log 87). -/
def wokeNow (s : State) (n : Nat) : Bool := (prtAt s n).wokeAt == some s.ns

/-- A port enters HOLD (R263). -/
def enterHold (s : State) (n : Nat) : State :=
  if wokeNow s n then wr (setPrt s n { prtAt s n with entry := none }) F.PRT_STATUS_ENTRY_PENDING n 0
  else
    let s := setPrt s n { prtAt s n with entry := none, exit := none, entered := some (beforeEntry s n) }
    prtEvt (wr (wr s F.PRT_STATUS_STATE n pHOLD) F.PRT_STATUS_ENTRY_PENDING n 0) n 8

/-- A port enters DEEP: loops, PLL and uplink off; LINK_UP clears without an event (R264). Its uplink drops what it holds when
the cycle ends (`uplinksTick`). -/
def enterDeep (s : State) (n : Nat) : State :=
  if wokeNow s n then wr (setPrt s n { prtAt s n with entry := none }) F.PRT_STATUS_ENTRY_PENDING n 0
  else
    let s := setPrt s n { prtAt s n with
      entry := none, exit := none, mult := false, deskewed := false, centred := false, swept := false, entered := some (beforeEntry s n) }
    let s := wr (wr s F.PRT_STATUS_STATE n pDEEP) F.PRT_STATUS_ENTRY_PENDING n 0
    relaysSync (wr (wr s F.PRT_STATUS_LINK_UP n 0) F.PRT_STATUS_LANE_LOCK n 0)

/-- The last open frame of port n has closed: a pending entry happens, or AUTO_HOLD enters HOLD (R265, R266). -/
def afterClose (s : State) (n : Nat) : State :=
  if portOpen s n then s
  else match (prtAt s n).entry with
    | some e => if rd s F.PRT_STATUS_STATE n ≠ pUP && rd s F.PRT_STATUS_STATE n ≠ pHOLD then s
        else if e = 0 then enterHold s n else enterDeep s n
    | none => if isSet s F.PRT_PWR_CFG_AUTO_HOLD n && rd s F.PRT_STATUS_STATE n = pUP then enterHold s n else s

/-- An entry of this cycle is undone: what stood before it stands again (R266; log 87). -/
def undoEntry (s : State) (n : Nat) : State :=
  let k := prtAt s n
  match k.entered with
  | some e =>
    if e.at' ≠ s.ns || (rd s F.PRT_STATUS_STATE n ≠ pHOLD && rd s F.PRT_STATUS_STATE n ≠ pDEEP) then s
    else
      let s := setPrt s n { k with
        entered := none, mult := e.mult, centred := e.centred, swept := e.swept, deskewed := e.deskewed }
      let s := wr (wr (wr s F.PRT_STATUS_STATE n e.state) F.PRT_STATUS_LINK_UP n e.up) F.PRT_STATUS_LANE_LOCK n e.locks
      relaysSync (putBit s F.PRT_EVT_EVT n 8 (e.evt == 1 && hasBit s F.PRT_EVT_EVT n 8))
  | none => s

/-- A wake of a port: an entry of the same cycle and a pending entry are cancelled, a HOLD port starts its exit (R266). -/
def wakePort (s : State) (n : Nat) : State :=
  let s := undoEntry (setPrt s n { prtAt s n with wokeAt := some s.ns }) n
  let k := prtAt s n
  if k.entry.isSome then wr (setPrt s n { k with entry := none }) F.PRT_STATUS_ENTRY_PENDING n 0
  else if rd s F.PRT_STATUS_STATE n = pHOLD && k.exit.isNone then setPrt s n { k with exit := some 0, exitAt := s.ns }
  else s

/-! ### Frames -/

/-- Change every frame that satisfies `p`. -/
def mapFrames (s : State) (p : Frame → Bool) (g : Frame → Frame) : State :=
  { s with frames := s.frames.map fun f => if p f then g f else f }

/-- The newest frame with a stream and a SEQ that has one (a tentative frame has none before its commit). -/
def frameAt (s : State) (st q : Nat) : Option Frame :=
  s.frames.find? fun f => f.stream == st && f.seq == q && f.tent.isNone

/-- Change the frame of a stream and a SEQ. -/
def setFrame (s : State) (st q : Nat) (g : Frame → Frame) : State :=
  mapFrames s (fun f => f.stream == st && f.seq == q && f.tent.isNone) g

/-- The open frame of a stream. -/
def openFrame (s : State) (st : Nat) : Option Frame := s.frames.find? fun f => f.phase == .open && f.stream == st

/-- Bytes in `w` pixels of a data type, and the pixel group (R280); none for a type that is not accepted. -/
def dtFormat (dt : Nat) : Option (Nat × Nat) :=
  match dt with
  | 0x12 => some (8, 1)
  | 0x1E => some (16, 2)
  | 0x1F => some (20, 2)
  | 0x24 => some (24, 1)
  | 0x27 => some (24, 1)
  | 0x28 => some (6, 4)
  | 0x29 => some (7, 8)
  | 0x2A => some (8, 1)
  | 0x2B => some (10, 4)
  | 0x2C => some (12, 2)
  | 0x2D => some (14, 4)
  | 0x2E => some (16, 1)
  | 0x2F => some (20, 2)
  | d => if 0x30 ≤ d ∧ d ≤ 0x37 then some (8, 1) else none

/-- Line bytes of a width (R280). -/
def lineBytesOf (dt w : Nat) : Nat :=
  match dtFormat dt with
  | some (bpp, _) => w * bpp / 8
  | none => 0

/-- The frame geometry is learned: GEOM_LEARN clears and PKT_GEOM takes it (R283). -/
def learnGeom (s : State) (f : Frame) : State :=
  if f.learn && !f.learnBad && isSet s F.PKT_SCFG_GEOM_LEARN f.stream && f.width ≠ 0 then
    wr (wr (wr s F.PKT_GEOM_WIDTH f.stream f.width) F.PKT_GEOM_HEIGHT f.stream f.slots) F.PKT_SCFG_GEOM_LEARN f.stream 0
  else s

/-- An open frame closes at TB `tb`, TRUNCATED or by its FE (R292, R293). -/
def closeFrame (s : State) (f : Frame) (tb : Nat) (trunc : Bool) : State :=
  let short := !trunc && !f.learn && decide (f.lines < f.height)
  let g := fun (f : Frame) =>
    let f := { f with
      phase := .closed, tbFe := tb, closedAt := s.ns, flags := if trunc && f.flags.testBit flLINES then f.flags - 2 ^ flLINES else f.flags }
    let f := (f.flagIf trunc flTRUNC).flagIf (short || (!trunc && f.learnBad)) flLINES
    f.flagIf (f.relayed ≠ 0) flRELAYED
  let s := mapFrames s (fun x => x.phase == .open && x.stream == f.stream) g
  let s := if trunc then sevt (bump s F.PKT_TRUNC_COUNT f.stream) f.stream 0 else learnGeom s f
  afterClose s f.port

/-- Close the open frames that satisfy `p` TRUNCATED at TB `tb` (R293). -/
def truncate (s : State) (p : Frame → Bool) (tb : Nat) : State :=
  (s.frames.filter fun f => f.phase == .open && p f).foldl (fun s f => closeFrame s f tb true) s

/-! ### Trigger records and outcomes (R295, R296) -/

/-- A trigger record of source `src` (1 to 4 FCG0 to FCG3, 5 the trigger packets of port `port`) enters the queue of each
enabled stream with that TRIG_SRC; a seventeenth pushes out the oldest (R295). -/
def putRecord (s : State) (src port : Nat) (r : TrigRec) : State :=
  (List.range 64).foldl (fun s k =>
    if isSet s F.PKT_MAP_EN k && rd s F.PKT_SCFG_TRIG_SRC k == src && (src ≠ 5 || rd s F.PKT_MAP_PORT k == port) then
      let v := streamAt s k
      if v.trigQ.length < 16 then setStream s k { v with trigQ := v.trigQ ++ [r] }
      else bump (setStream s k { v with trigQ := v.trigQ.drop 1 ++ [r] }) F.PKT_TRIG_ORPHAN_COUNT k
    else s) s

/-- A record whose window has closed with outcome `unconf` at `ns`. -/
def TrigRec.settle (r : TrigRec) (g id : Nat) (unconf : Bool) (ns : Nat) : TrigRec :=
  if r.fcg = some g ∧ r.id = id ∧ r.waiting then { r with waiting := false, unconf := unconf, finalAt := ns } else r

/-- The outcome of a trigger reaches the records in the queues and in the frames that took them (R213, R296). -/
def trigOutcome (s : State) (g id : Nat) (unconf : Bool) : State :=
  let s := (List.range 64).foldl (fun (s : State) k =>
    let v := streamAt s k
    setStream s k { v with trigQ := v.trigQ.map fun r => r.settle g id unconf s.ns }) s
  { s with frames := s.frames.map fun f => { f with trig := f.trig.map fun r => r.settle g id unconf s.ns } }

/-- The records of cancelled triggers leave the queues (R222). -/
def cancelRecords (s : State) (g : Nat) (ids : List Nat) : State :=
  (List.range 64).foldl (fun (s : State) k =>
    let v := streamAt s k
    setStream s k { v with trigQ := v.trigQ.filter fun r => !(r.fcg == some g && ids.contains r.id) }) s

/-! ### Trigger packets in a port's queue (R137, R138, R303, R494) -/

/-- A trigger packet asks for a place in the queue of port n (R138, R268). -/
def queuePacket (s : State) (n time id : Nat) (fcg : Option Nat) : Answer × State :=
  let k := pktPortAt s n
  if ownUplink s n && (!ulRunning s n || isSet s F.PRT_UL_CFG_PRBS_EN n) then (.of stREFUSED, s)
  else if 8 ≤ k.trigQ.length then (.of stFULL, s)
  else
    let late := decide (time < s.tb)
    (⟨stOK, late, !ownUplink s n, 0⟩,
      setPktPort s n { k with trigQ := k.trigQ ++ [⟨max time s.tb, id % 2 ^ 32, fcg, late⟩] })

/-- The trigpkt action at the port's uplink scheduler (R137, R138). -/
def trigpktAction (s : State) (port time id : Nat) : Answer × State :=
  if 7 < port || 0xFFFFFFFF < id then (.of stRANGE, s)
  else queuePacket s port time id none

/-- A trigger packet that no instruction asks for: one that finds no place is dropped and counted (R303, R138). -/
def autoPacket (s : State) (n time id : Nat) (fcg : Option Nat) : State :=
  let (a, t) := queuePacket s n time id fcg
  if a.status = stOK then t else pevt (bump t F.PKT_TRIG_DROP_COUNT n) n 8

/-- Cancel the queued packets of cancelled triggers whose schedule time has not passed (R222). -/
def cancelPackets (s : State) (g : Nat) (ids : List Nat) : State :=
  (List.range 8).foldl (fun (s : State) n =>
    let v := pktPortAt s n
    setPktPort s n { v with trigQ := v.trigQ.filter fun p => !(p.fcg == some g && ids.contains p.id && s.tb < p.time) }) s

/-- An event of the beacon trigger path of each port that names the channel (R303). -/
def pktTrig (s : State) (ch : Nat) : State :=
  (List.range 8).foldl (fun s n =>
    if isSet s F.PKT_PORT_TRIG_EN n && rd s F.PKT_PORT_TRIG_BCN_CH n == ch then
      let s := wr s F.PKT_PORT_TRIG_ID_VALUE n (rd s F.PKT_PORT_TRIG_ID_VALUE n + 1)
      autoPacket s n s.tb (rd s F.PKT_PORT_TRIG_ID_VALUE n) none
    else s) s

end Sys2Proof.Machine
end

