-- ==== Sys2Proof/Machine/TwinSync.lean ====
section
/-! DEFINITION. The states of the twin block, and the part of twin operation that frame clock commits take part in (spec/13,
R491, R506, R507, R521); the reported speed of an encoder channel (spec/04, R164 to R166). -/
namespace Sys2Proof.Machine

/-! ### Twin state -/

/-- The TWN producers with SRC = `src` fire (R521). -/
def twnProducers (s : State) (src : Nat) : State :=
  (List.range 8).foldl (fun t i =>
    if isSet s F.TWN_PROD_CFG_EN i && rd s F.TWN_PROD_CFG_SRC i == src then fireProducer t (136 + i) else t) s

/-- The states in which the device drives the shared lines (R491). -/
def twnDrives (st : Nat) : Bool := st == twOFF || st == twLEAD || st == twSOLO

/-- TWN_STATUS.STATE changes, and DRIVING with it; ALIGN and WATCH hold PPS_EN at 0 (R491, R504, R521). -/
def setTwnState (s : State) (st : Nat) : State :=
  if twnState s = st then s
  else
    let s := wrBool (wr s F.TWN_STATUS_STATE 0 st) F.TWN_STATUS_DRIVING 0 (twnDrives st)
    let s := if st = twALIGN ∨ st = twWATCH then wr s F.TMB_CTL_PPS_EN 0 0 else s
    twnProducers s 1

/-- A watch FCG commits nothing until its FCGSTATE packet has arrived (R506). -/
def twnAwaits (s : State) (g : Nat) : Bool := twnState s == twWATCH && (twnFcgAt s g).await

/-- The watch asks for the state of FCG g (R507); the request is an FCGSTATE packet of zeros that names the FCG (log 26). -/
def twnRequest (s : State) (g : Nat) : State := twnPush s tpFCGSTATE (g :: List.replicate 35 0)

/-- A commit and a TRIG packet do not agree (R507). -/
def trigMismatch (s : State) (g : Nat) : State :=
  twnRequest (twnEvt (bump s F.TWN_TRIG_MISMATCH_COUNT) 11) g

/-- TRIGGER_ID `a` is not later than `b`, modulo 2^32. -/
def idReached (a b : Nat) : Bool := (b + 2 ^ 32 - a % 2 ^ 32) % 2 ^ 32 < 2 ^ 31

/-- Compare the TRIG packets of FCG g that this device's commits have reached (R507; log 27). -/
def judgeTrigs (s : State) (g : Nat) : State :=
  let k := twnFcgAt s g
  match k.own with
  | [] => s
  | (last, _) :: _ =>
    let due := k.lead.filter fun p => idReached p.1 last
    let s := setTwnFcg s g { k with lead := k.lead.filter fun p => !idReached p.1 last }
    due.foldl (fun s p =>
      match k.own.find? fun q => q.1 == p.1 with
      | some q => if 8 < ((q.2 : Int) - p.2).natAbs then trigMismatch s g else s
      | none => trigMismatch s g) s

/-- HOLD time left of FCG g in microseconds (R506). -/
def holdLeftUs (s : State) (g : Nat) : Nat :=
  let k := fcgAt s g
  if rd s F.FCG_STATUS_LOOP g ≠ 4 then 0
  else (k.holdTime - (if k.relock then k.holdUsed else k.holdUsed + (s.ns - k.holdSince))) / 1000

/-- The payload of an FCGSTATE packet (R495, R506). -/
def fcgStateBytes (s : State) (g id t cross : Nat) : List Nat :=
  [g, rd s F.FCG_STATUS_LOOP g, 0, 0] ++ toBytes 4 id ++ toBytes 8 t ++ toBytes 8 cross ++ toBytes 8 (fcgAt s g).f
    ++ toBytes 4 (holdLeftUs s g)

/-- A commit of FCG g on a paired device: the lead sends TRIG and an FCGSTATE that it owes; the watch compares (R506,
R507). -/
def twinTrig (s : State) (g id t cross : Nat) : State :=
  if twnState s = twLEAD then
    let s := twnPush s tpTRIG ([g, 0, 0, 0] ++ toBytes 4 id ++ toBytes 8 t)
    let k := twnFcgAt s g
    if k.owed then setTwnFcg (twnPush s tpFCGSTATE (fcgStateBytes s g id t cross)) g { k with owed := false } else s
  else if twnState s = twWATCH then
    let k := twnFcgAt s g
    judgeTrigs (setTwnFcg s g { k with own := ((id, t) :: k.own).take 64 }) g
  else s

/-- FCG g starts: the lead owes its state, a watch FCG awaits it (R506). -/
def twinFcgStart (s : State) (g : Nat) : State := setTwnFcg s g ⟨twnState s == twWATCH, true, [], []⟩

/-! ### Reported speed (R164 to R166, R173) -/

def encAt (s : State) (n : Nat) : Enc := sget s.enc Enc.init n
def setEnc (s : State) (n : Nat) (k : Enc) : State := { s with enc := sset s.enc Enc.init n k }

/-- The magnitude of ENC_SPEED in 1/16 count/s: over the measured intervals, or the lower speed that the time since the
last point implies (R164, R166; log 28 for SSI). -/
def reportedSpeed (s : State) (n : Nat) : Nat :=
  let pts := (encAt s n).pts.take (rd s F.ENC_MEAS_CFG_AVG_M1 n + 2)
  match pts.head?, pts.getLast? with
  | some a, some b =>
    let m := pts.length - 1
    let dt := a.1 - b.1
    let counts := (a.2 - b.2).natAbs
    let elapsed := s.tb * 1000 - a.1
    if m = 0 || dt = 0 then 0
    else if dt < elapsed * m then 16 * counts * 1000000000000 / (m * elapsed)
    else 16 * counts * 1000000000000 / dt
  | _, _ => 0

/-- ENC_SPEED: the reported speed with the direction of the last counted transition as its sign (R164). -/
def signedSpeed (s : State) (n : Nat) : Nat :=
  let v := reportedSpeed s n
  if isSet s F.ENC_STATUS_DIR n then v else fromSigned 32 (-(v : Int))

end Sys2Proof.Machine
end

