-- ==== Sys2Proof/Machine/Fcg.lean ====
section
/-! DEFINITION. Frame clock generators (spec/05, R201 to R223, R627): commits and their destinations, the position-locked
loop, confirmation windows, hold and relock. -/
namespace Sys2Proof.Machine

/-! ### States and events -/

def fIDLE : Nat := 0
def fRUN : Nat := 1
def fACQUIRE : Nat := 2
def fTRACK : Nat := 3
def fHOLD : Nat := 4
def fDECAY : Nat := 5
def fFREERUN : Nat := 6
def fSTOPPED : Nat := 7

def fcgLoop (s : State) (g : Nat) : Nat := rd s F.FCG_STATUS_LOOP g
def setLoop (s : State) (g st : Nat) : State := wr s F.FCG_STATUS_LOOP g st
def fcgEvt (s : State) (g b : Nat) : State := setBit s F.FCG_EVT_EVT g b
def fcgState (s : State) (g : Nat) : State := fireProducer s (34 + 3 * g)

/-- One frame of phase, in units of 2^-32 (R208). -/
def phiOne : Int := 4294967296

/-- The phase that a rate makes in `dt` ns, truncated toward zero (R208). -/
def phaseOf (f dt : Nat) : Nat := f * 65536 * dt / 1000000000

/-- The decision delay of channel n has passed for an instant `t` of TB (R627): N × 2.5 ns + 30 ns of an incremental
channel, the word in progress of an SSI channel. -/
def judged (s : State) (n t : Nat) : Bool :=
  if rd s F.ENC_CFG_MODE n = 5 then
    decide (t ≤ s.tb) && !((sget s.enc Enc.init n).ssiT0.any fun t0 => t0 ≤ t)
  else decide (2 * t + 5 * rd s F.ENC_CFG_FILTER_N n + 60 ≤ 2 * s.tb)

/-- Set MOTION_EXPECTED of the source of a LOCK loop (R175, R220). -/
def ownMotion (s : State) (g : Nat) (on : Bool) : State :=
  wrBool s F.ENC_MEAS_CFG_MOTION_EXPECTED (rd s F.FCG_CFG_SRC_ENC g) on

/-- PHASE_LOCKED changes (R215). -/
def setLocked (s : State) (g : Nat) (on : Bool) : State :=
  if isSet s F.FCG_STATUS_PHASE_LOCKED g = on then s
  else fcgEvt (wrBool s F.FCG_STATUS_PHASE_LOCKED g on) g (if on then 5 else 6)

/-! ### Commit (R201 to R203) -/

/-- The triggers of FCG g that have reached their time leave the committed list; FCG_LAST_TB keeps the last (spec/05). -/
def reachTriggers (s : State) (g : Nat) : State :=
  let k := fcgAt s g
  let past := k.committed.filter fun c => c.time ≤ s.tb
  let s := past.foldl (fun s c => wr s F.FCG_LAST_TB_VALUE g c.time) s
  setFcg s g { k with committed := k.committed.filter fun c => s.tb < c.time }

/-- Commit a trigger of FCG g at T with its crossing, which opens a window where `opens` (R201 to R203, R213, R218). -/
def commitTrigger (s : State) (g t : Nat) (held : Bool) (cross : Nat) (opens : Bool) : State :=
  let s := reachTriggers s g
  let late := decide (t < s.tb)
  let t := max t s.tb
  let id := (rd s F.FCG_TRIG_ID_VALUE g + 1) % 2 ^ 32
  let s := wr (wr s F.FCG_TRIG_ID_VALUE g id) F.FCG_NEXT_TB_VALUE g t
  let s := bump s F.FCG_TRIGGERS_COUNT g
  let s := if late then fcgEvt (bump s F.FCG_LATE_COUNT g) g 10 else s
  let s := if held then bump s F.FCG_HELD_COUNT g else s
  let s := fireProducer s (32 + 3 * g)
  let s := trgFcg s g t id
  let sched := if isSet s F.FCG_CFG_PKT_ALIGN g then t - 24 else t
  let s := (List.range 8).foldl (fun s n =>
    if hasBit s F.FCG_PORTS_PORTS g n then autoPacket s n sched id (some g) else s) s
  let s := putRecord s (g + 1) 0 ⟨t, id, late, held, false, some g, opens, s.ns⟩
  let k := fcgAt s g
  let cf := rd s F.FCG_CONFIRM_NS g
  let k := { k with committed := k.committed ++ [⟨t, id⟩], lastT := some t }
  let k := if opens then { k with windows := k.windows ++ [⟨id, cross, cross - cf, cross + cf⟩] } else k
  twinTrig (setFcg s g k) g id t cross

/-! ### Windows and confirmation (R213 to R216) -/

/-- Window `w` of FCG g closes unconfirmed (R213, R215, R216). -/
def closeWindow (s : State) (g : Nat) (w : Window) : State :=
  let k := fcgAt s g
  let track := fcgLoop s g == fTRACK
  let n := k.unconfRun + 1
  let s := setFcg s g { k with
    windows := k.windows.erase w, confRun := 0, unconfRun := n, anchorDue := k.anchorDue || (track && decide (8 ≤ n)) }
  let s := fcgEvt (bump s F.FCG_UNCONF_COUNT g) g 7
  let s := fireProducer s (33 + 3 * g)
  trigOutcome (setLocked s g false) g w.id true

/-- The oldest window of FCG g closes unconfirmed (R213). -/
def closeOldest (s : State) (g : Nat) : State :=
  match (fcgAt s g).windows with
  | [] => s
  | w :: _ => closeWindow s g w

/-- Open windows now: those whose start has come (R213). -/
def openWindows (s : State) (g : Nat) : Nat := ((fcgAt s g).windows.filter fun w => w.lo ≤ s.tb).length

/-- A seventeenth open window closes the oldest as unconfirmed (R213). -/
def closeExcess (s : State) (g : Nat) : State :=
  (fcgAt s g).windows.foldl (fun s _ => if 16 < openWindows s g then closeOldest s g else s) s

/-- The HOLD_TIME in effect follows the register at an update, a window or a commit (R223). -/
def takeHoldTime (s : State) (g : Nat) : State := setFcg s g { fcgAt s g with holdTime := rd s F.FCG_HOLD_TIME_US g * 1000 }

/-- A window closes when R627 judges its end: the oldest that is due (R213). -/
def windowClose (s : State) (g : Nat) : State :=
  match (fcgAt s g).windows.find? fun w => judged s (rd s F.FCG_CFG_SRC_ENC g) w.hi with
  | some w => takeHoldTime (closeWindow s g w) g
  | none => s

/-- Anchor: a crossing falls at TB `t` and makes no trigger (R216). -/
def anchor (k : Fcg) (t : Nat) : Fcg := { k with phi := 0, phiTb := t, nextK := 1, anchorDue := false, unconfRun := 0, confRun := 0 }

/-- A match at TB `t` confirms the oldest open window that holds it, or is stray (R213 to R215). -/
def confirm (s : State) (g t : Nat) : State :=
  let k := fcgAt s g
  match k.windows.find? fun w => w.lo ≤ t && t ≤ w.hi with
  | none => fcgEvt (bump s F.FCG_STRAY_COUNT g) g 8
  | some w =>
    let e : Int := (t : Int) - w.crossing
    let d := min (e.natAbs * k.f * 65536 / (1000000000 * 2 ^ rd s F.FCG_CFG_PHASE_SHIFT g)) 536870912
    let good := decide (e.natAbs ≤ rd s F.FCG_LOCK_TOL_NS g)
    let n := if good then k.confRun + 1 else 0
    let s := wr s F.FCG_PHASE_ERR_VALUE g (fromSigned 32 (satSigned 32 e))
    let s := setFcg s g { k with phi := if 0 < e then k.phi - d else k.phi + d, windows := k.windows.erase w, confRun := n, unconfRun := 0 }
    let s := if !good then setLocked s g false else if 8 ≤ n then setLocked s g true else s
    trigOutcome s g w.id false

/-! ### The loop (R208 to R212) -/

/-- The clamped set-point from the reported speed, with CLAMPED (R208, R211). -/
def setPoint (s : State) (g speed : Nat) : Nat × State :=
  let raw := speed * 4096 / max 1 (rd s F.FCG_C_C g)
  let lo := rd s F.FCG_FMIN_VALUE g * 65536
  let hi := rd s F.FCG_FMAX_VALUE g * 65536
  let cl := decide (raw < lo) || decide (hi < raw)
  let s := if cl && !isSet s F.FCG_STATUS_CLAMPED g then fcgEvt (bump s F.FCG_CLAMPS_COUNT g) g 0 else s
  let sp := if raw < lo then lo else if hi < raw then hi else raw
  (sp, wr (wrBool s F.FCG_STATUS_CLAMPED g cl) F.FCG_SETPOINT_VALUE g sp)

/-- f moves toward a set-point by at most one step; a ramp that turns is reported (R208, R210). -/
def rampTo (s : State) (g sp : Nat) : State :=
  let k := fcgAt s g
  let step := rd s F.FCG_SLEW_VALUE g * 65536 / 10000
  let down := decide (sp < k.f)
  if step < (if down then k.f - sp else sp - k.f) then
    let turned := isSet s F.FCG_STATUS_RAMPING g && isSet s F.FCG_STATUS_RAMP_DOWN g ≠ down
    let s := if turned then fcgEvt (bump s F.FCG_TURNS_COUNT g) g 1 else s
    let f := if down then k.f - step else k.f + step
    let s := wrBool (wr s F.FCG_STATUS_RAMPING g 1) F.FCG_STATUS_RAMP_DOWN g down
    wr (setFcg s g { k with f := f }) F.FCG_RATE_VALUE g f
  else
    let s := wr (wr s F.FCG_STATUS_RAMPING g 0) F.FCG_STATUS_RAMP_DOWN g 0
    wr (setFcg s g { k with f := sp }) F.FCG_RATE_VALUE g sp

/-- The states of LOCK that make triggers (R217). -/
def triggering (st : Nat) : Bool := st == fTRACK || st == fHOLD || st == fDECAY || st == fFREERUN

/-- The update at the next TB multiple of 100 ns (R208, R217); `speed` is the magnitude that ENC_SPEED reports. -/
def loopUpdate (s : State) (g speed : Nat) : State :=
  let st := fcgLoop s g
  let next := ((fcgAt s g).updTb / 100 + 1) * 100
  if !triggering st || s.tb < next then s
  else
    let s := if st = fTRACK then (let (sp, s) := setPoint s g speed; rampTo s g sp)
      else if st = fDECAY ∧ !(fcgAt s g).relock then rampTo s g (rd s F.FCG_FSAFE_VALUE g * 65536)
      else s
    let k := fcgAt s g
    closeExcess (takeHoldTime (setFcg s g
      { k with phi := k.phi + phaseOf k.f (next - k.phiTb), phiTb := max k.phiTb next, updTb := next }) g) g

/-- The TB at which φ reaches the integer `i`, extrapolated at the present f (R212; log 23). -/
def crossing (k : Fcg) (i : Int) : Nat :=
  ((k.phiTb : Int) + ((i * phiOne - k.phi) * 1000000000) / ((k.f : Int) * 65536)).toNat

/-- Commit the next trigger of FCG g when TB is within 200 ns of its time (R201, R205, R212). -/
def commitDue (s : State) (g : Nat) : State :=
  let k := fcgAt s g
  let st := fcgLoop s g
  if twnAwaits s g then s
  else if st = fRUN then
    if rd s F.FCG_CFG_MODE g = 0 ∧ k.nextT ≤ s.tb + 200 then
      setNextT (commitTrigger s g k.nextT false k.nextT false) g (k.nextT + rd s F.FCG_PERIOD_VALUE g)
    else s
  else if triggering st && decide (0 < k.f) then
    let c := crossing k k.nextK
    let t := c - rd s F.FCG_PRETRIG_NS g
    if s.tb + 200 < t then s
    else
      let near := k.lastT.any fun l => ((t : Int) - l) * 2 * k.f < 1000000000 * 65536
      let s := setFcg s g { k with nextK := k.nextK + 1 }
      if near then s
      else closeExcess (commitTrigger (takeHoldTime s g) g t (st ≠ fTRACK) c (st == fTRACK && !k.anchorDue)) g
  else s
where
  /-- Set the time of the next trigger of FREE. -/
  setNextT (s : State) (g t : Nat) : State := setFcg s g { fcgAt s g with nextT := t }

/-- A match of compare unit k at TB `t` reaches the generators that use it (R207, R213, R216, R217). -/
def fcgMatch (s : State) (unit t : Nat) : State :=
  (List.range 4).foldl (fun s g =>
    let st := fcgLoop s g
    let mode := rd s F.FCG_CFG_MODE g
    if st = fIDLE ∨ rd s F.FCG_CFG_CMP_SEL g ≠ unit ∨ mode = 0 then s
    else if mode = 1 then
      let u := t + rd s F.FCG_LIST_DELAY_NS g
      if twnAwaits s g then s else commitTrigger s g u false u false
    else if st = fACQUIRE then
      let n := rd s F.FCG_CFG_SRC_ENC g
      if isSet s F.ENC_STATUS_SPEED_VALID n then
        let (sp, s) := setPoint s g (reportedSpeed s n)
        let k := fcgAt s g
        let s := setLoop (setFcg s g { anchor k t with f := sp, updTb := s.tb / 100 * 100, fromStopped := false }) g fTRACK
        let s := wr (wr s F.FCG_RATE_VALUE g sp) F.FCG_STATUS_RAMPING g 0
        if k.fromStopped then fcgState (fcgEvt s g 4) g else s
      else s
    else if st = fTRACK then
      let k := fcgAt s g
      if k.anchorDue then fcgEvt (bump (setFcg s g (anchor k t)) F.FCG_SLIPS_COUNT g) g 9 else confirm s g t
    else s) s

/-! ### Loss, hold and relock (R217 to R220) -/

/-- The LOCK generators that run on channel n. -/
def lockedOn (s : State) (n : Nat) : List Nat :=
  (List.range 4).filter fun g => rd s F.FCG_CFG_MODE g == 2 && fcgRuns s g && rd s F.FCG_CFG_SRC_ENC g == n

/-- LOST or FROZEN of channel n: f stays as it is in HOLD, so that no ramp is under way and no clamp acts (R217 to R219; DEDUCED, log 65). -/
def fcgLost (s : State) (n : Nat) : State :=
  (lockedOn s n).foldl (fun s g =>
    let k := fcgAt s g
    if fcgLoop s g = fTRACK then
      let s := setLoop (setFcg s g { k with holdTime := rd s F.FCG_HOLD_TIME_US g * 1000, holdUsed := 0, holdSince := s.ns, relock := false }) g fHOLD
      let s := wr (wr (wr s F.FCG_STATUS_RAMPING g 0) F.FCG_STATUS_RAMP_DOWN g 0) F.FCG_STATUS_CLAMPED g 0
      fcgState (fcgEvt (setLocked s g false) g 2) g
    else if k.relock then setFcg s g { k with relock := false, holdSince := s.ns }
    else s) s

/-- RETURNED of channel n (R219). -/
def fcgReturned (s : State) (n : Nat) : State :=
  (lockedOn s n).foldl (fun s g =>
    let k := fcgAt s g
    let st := fcgLoop s g
    if st = fSTOPPED then ownMotion (setLoop (setFcg s g { k with fromStopped := true }) g fACQUIRE) g true
    else if (st = fHOLD ∨ st = fDECAY ∨ st = fFREERUN) ∧ !k.relock then
      setFcg s g { k with relock := true, holdUsed := k.holdUsed + (s.ns - k.holdSince) }
    else s) s

/-- SPEED_VALID of channel n becomes 1 (R219). -/
def fcgSpeedValid (s : State) (n : Nat) : State :=
  (lockedOn s n).foldl (fun s g =>
    let k := fcgAt s g
    if k.relock then
      let s := setLoop (setFcg s g { k with relock := false, anchorDue := false, confRun := 0, unconfRun := 0 }) g fTRACK
      fcgState (fcgEvt s g 4) g
    else s) s

/-- HOLD_TIME expires: the policy applies (R218). -/
def holdExpired (s : State) (g : Nat) : State :=
  let k := fcgAt s g
  if fcgLoop s g ≠ fHOLD || k.relock || decide (k.holdUsed + (s.ns - k.holdSince) < k.holdTime) then s
  else
    let s := fcgState (fcgEvt s g 3) g
    match rd s F.FCG_CFG_HOLD_POLICY g with
    | 0 => fcgState (fcgEvt (ownMotion (setLoop s g fSTOPPED) g false) g 11) g
    | 1 => setLoop s g fDECAY
    | _ => setLoop s g fFREERUN

/-! ### Start and stop (R221, R222) -/

/-- A START is refused (R221). -/
def startRefused (s : State) (g : Nat) : Bool :=
  let mode := rd s F.FCG_CFG_MODE g
  let lo := rd s F.FCG_FMIN_VALUE g
  let hi := rd s F.FCG_FMAX_VALUE g
  let safe := rd s F.FCG_FSAFE_VALUE g
  let u := rd s F.FCG_CFG_CMP_SEL g
  let n := rd s F.FCG_CFG_SRC_ENC g
  fcgRuns s g || decide (hi < lo) || decide (safe < lo) || decide (hi < safe)
  || (mode == 2 && (rd s F.FCG_C_C g == 0 || rd s F.ENC_CFG_MODE n == 0))
  || ((mode == 1 || mode == 2) && !isSet s F.CMP_STATUS_ARMED u)
  || (mode == 2 && rd s F.CMP_CFG_SRC u ≠ n)

/-- T_0 of FREE mode (R205). -/
def firstTime (s : State) (g : Nat) : Nat :=
  if isSet s F.FCG_CFG_START_AT_TB g then
    let st := rd s F.FCG_START_TB_VALUE g
    let p := max 1 (rd s F.FCG_PERIOD_VALUE g)
    if s.tb + 200 ≤ st then st else st + (s.tb + 200 - st + p - 1) / p * p
  else s.tb + 1000

/-- FCG_CMD.START (R205, R217, R220, R221, R506). -/
def fcgStart (s : State) (g : Nat) : State :=
  if startRefused s g then fcgEvt s g 12
  else
    let s := twinFcgStart (setFcg s g { Fcg.init with nextT := firstTime s g }) g
    let s := wr (wr (wr s F.FCG_STATUS_RAMPING g 0) F.FCG_STATUS_RAMP_DOWN g 0) F.FCG_STATUS_CLAMPED g 0
    if rd s F.FCG_CFG_MODE g = 2 then ownMotion (setLoop s g fACQUIRE) g true else setLoop s g fRUN

/-- FCG_CMD.STOP: IDLE; every committed trigger after the stop is cancelled with its pulses, packets and records; open
windows close with no outcome (R222). -/
def fcgStop (s : State) (g : Nat) : State :=
  if !fcgRuns s g then s
  else
    let s := reachTriggers s g
    let k := fcgAt s g
    let ids := (k.committed.filter fun c => s.tb < c.time).map Committed.id
    let s := cancelRecords (cancelPackets (cancelPulses s g ids) g ids) g ids
    let s := k.windows.foldl (fun s w => trigOutcome s g w.id false) s
    let s := setLocked (setFcg s g Fcg.init) g false
    let s := wr (wr (wr s F.FCG_STATUS_RAMPING g 0) F.FCG_STATUS_RAMP_DOWN g 0) F.FCG_STATUS_CLAMPED g 0
    setLoop s g fIDLE

/-- FCG_LAST_TB: T of the last trigger that reached its time. -/
def fcgLastTb (s : State) (g : Nat) : Nat := rd (reachTriggers s g) F.FCG_LAST_TB_VALUE g

/-! ### Period writes (R206, R223) -/

/-- A write to FCG_PERIOD: a 32-bit write to _LO is held for the write to _HI; a 64-bit write takes effect at once; a value
out of range leaves the period and sets CFG_ERR (R206, R623). -/
def periodWrite (s : State) (g : Nat) (hi : Bool) (size val : Nat) : State :=
  if size = 4 ∧ !hi then { s with periodHeld := sset s.periodHeld 0 g (val % 2 ^ 32 + 1) }
  else
    let old := rd s F.FCG_PERIOD_VALUE g
    let low := sget s.periodHeld 0 g
    let v := if size = 8 then val % 2 ^ 64
      else val % 2 ^ 32 * 2 ^ 32 + (if low = 0 then old % 2 ^ 32 else low - 1)
    let s := { s with periodHeld := sset s.periodHeld 0 g 0 }
    if v = old then s
    else if v < 500 || 2 ^ 40 < v then fcgEvt s g 12 else wr s F.FCG_PERIOD_VALUE g v

/-! ### Commands -/

def execFcgStart (g : Nat) (s : State) : Host.Outcome State Fault Refusal := onBlock 7 g 4 s fun s => fcgStart s g

def execFcgStop (g : Nat) (s : State) : Host.Outcome State Fault Refusal := onBlock 7 g 4 s fun s => fcgStop s g

def fcgCounters : List Field :=
  [F.FCG_TRIGGERS_COUNT, F.FCG_UNCONF_COUNT, F.FCG_HELD_COUNT, F.FCG_LATE_COUNT, F.FCG_CLAMPS_COUNT, F.FCG_TURNS_COUNT,
   F.FCG_STRAY_COUNT, F.FCG_SLIPS_COUNT]

def execFcgClrCounts (g : Nat) (s : State) : Host.Outcome State Fault Refusal := onBlock 7 g 4 s fun s => clearAll s fcgCounters g

def execFcgPeriodWrite (g : Nat) (hi : Bool) (size val : Nat) (s : State) : Host.Outcome State Fault Refusal :=
  onBlock 7 g 4 s fun s => periodWrite s g hi size val

def execFcgCommit (g : Nat) (s : State) : Host.Outcome State Fault Refusal := onBlock 7 g 4 s fun s => commitDue s g

def execFcgWindowClose (g : Nat) (s : State) : Host.Outcome State Fault Refusal := onBlock 7 g 4 s fun s => windowClose s g

def execFcgHoldExpired (g : Nat) (s : State) : Host.Outcome State Fault Refusal := onBlock 7 g 4 s fun s => holdExpired s g

end Sys2Proof.Machine
end

