-- ==== Sys2Proof/Machine/Enc.lean ====
section
/-! DEFINITION. Encoder channels, serial position sensors, pulse outputs and compare units (spec/04). -/
namespace Sys2Proof.Machine

def encEvt (s : State) (n b : Nat) : State := setBit s F.ENC_EVT_EVT n b

/-- The 64-bit position of channel n (R158). -/
def encPos (s : State) (n : Nat) : Int := toSigned 64 (rd s F.ENC_POS_VALUE n)

/-- The averaging length of channel n (R164). -/
def encAvg (s : State) (n : Nat) : Nat := rd s F.ENC_MEAS_CFG_AVG_M1 n + 1

/-! ### Compare units (R185 to R192) -/

def cmpEvt (s : State) (k b : Nat) : State := setBit s F.CMP_EVT_EVT k b

/-- An entry of the compare list (R185). -/
def cmpEntry (s : State) (e : Nat) : Nat := sget s.cmpList 0 e ^^^ memBack s memLIST e % 2 ^ 62

/-- Unit k makes entry `e` current, as it stands now (R192). -/
def cmpMakeCurrent (s : State) (k e : Nat) : State :=
  { wr s F.CMP_PTR_PTR k e with cmpCur := sset s.cmpCur 0 k (cmpEntry s e) }

/-- The target of unit k: sign-extended POS plus CMP_CUR_OFFSET, over 64 bits (R186). -/
def cmpTarget (s : State) (k : Nat) : Int :=
  toSigned 64 (fromSigned 64 (toSigned 56 (sget s.cmpCur 0 k) + rd s F.CMP_CUR_OFFSET_VALUE k))

/-- After a consumed entry: the next one, the end of a ONCE list, or the next cycle (R190). -/
def cmpAdvance (s : State) (k : Nat) : State :=
  let p := rd s F.CMP_PTR_PTR k
  let base := rd s F.CMP_BASE_BASE k
  if p + 1 < base + rd s F.CMP_LEN_LEN k then cmpMakeCurrent s k (p + 1)
  else if isSet s F.CMP_CFG_CYCLIC k then
    cmpMakeCurrent (wr s F.CMP_CUR_OFFSET_VALUE k (rd s F.CMP_CUR_OFFSET_VALUE k + rd s F.CMP_PERIOD_VALUE k)) k base
  else cmpEvt (wr (wr s F.CMP_STATUS_DONE k 1) F.CMP_STATUS_ARMED k 0) k 3

/-- Unit k matches its current entry at pin time `t` (R189); `again` where it is not the update's first match (R191). -/
def cmpMatch (s : State) (k t : Nat) (fwd again : Bool) : State :=
  let e := sget s.cmpCur 0 k
  let s := bump (fireProducer s k) F.CMP_MATCHES_COUNT k
  let s := wr (wr s F.CMP_LAST_TAG k (bitsOf e 58 4)) F.CMP_LAST_DIR k (if fwd then 1 else 2)
  let s := wr (wr s F.CMP_LAST_ENTRY k (rd s F.CMP_PTR_PTR k)) F.CMP_LAST_TB_VALUE k t
  let s := if again then bump s F.CMP_CATCHUP_COUNT k else s
  fcgMatch (cmpEvt s k 0) k t

/-- Test the current entry of unit k against an update (R188 to R191): what is left of the update where the entry is crossed
and so consumed, none where it is not. -/
def cmpTest (s : State) (k : Nat) (u : CmpUpd) : State × Option CmpUpd :=
  let target := cmpTarget s k
  let fwd := decide (u.p < target ∧ target ≤ u.q)
  let rev := decide (u.q ≤ target ∧ target < u.p)
  if !(fwd || rev) then (s, none)
  else
    let dir := bitsOf (sget s.cmpCur 0 k) 56 2
    if 8 ≤ u.matched then (cmpAdvance (cmpEvt (bump s F.CMP_SKIPPED_COUNT k) k 2) k, some u)
    else if dir = 3 then (cmpAdvance s k, some u)
    else if dir = 0 || (dir == 1 && fwd) || (dir == 2 && rev) then
      (cmpAdvance (cmpMatch s k u.tb fwd (u.matched ≠ 0)) k, some { u with matched := u.matched + 1 })
    else (cmpAdvance (cmpEvt (bump s F.CMP_AGAINST_COUNT k) k 1) k, some u)

/-- The updates that unit k still tests. -/
def updsAt (s : State) (k : Nat) : List CmpUpd := sget s.cmpUpd [] k
def setUpds (s : State) (k : Nat) (us : List CmpUpd) : State := { s with cmpUpd := sset s.cmpUpd [] k us }

/-- One tick of unit k: it tests its updates in order until one crosses an entry (R191); a unit that is not armed, or that its
last entry disarms, tests none. -/
def cmpTick (s : State) (k : Nat) : List CmpUpd → State
  | [] => setUpds s k []
  | u :: us =>
    if !isSet s F.CMP_STATUS_ARMED k then setUpds s k []
    else match cmpTest s k u with
      | (t, some v) => setUpds t k (if isSet t F.CMP_STATUS_ARMED k then v :: us else [])
      | (t, none) => cmpTick t k us

/-- An update reaches unit k: tested in this tick, or after the updates that are still under test (R191). -/
def cmpUpdate (s : State) (k : Nat) (u : CmpUpd) : State :=
  match updsAt s k with
  | [] => cmpTick s k [u]
  | us => setUpds s k (us ++ [u])

/-- A tick of every unit that is still testing (R191). -/
def cmpTicks (s : State) : State :=
  (List.range 16).foldl (fun s k => match updsAt s k with
    | [] => s
    | us => cmpTick s k us) s

/-- Arming is refused (R187). -/
def cmpArmRefused (s : State) (k : Nat) : Bool :=
  decide (262144 < rd s F.CMP_BASE_BASE k + rd s F.CMP_LEN_LEN k) || rd s F.CMP_LEN_LEN k == 0
  || rd s F.ENC_CFG_MODE (rd s F.CMP_CFG_SRC k) == 0

/-- CMP_CMD.ARM (R187). -/
def cmpArm (s : State) (k : Nat) : State :=
  if cmpArmRefused s k then cmpEvt s k 4
  else
    let s := wr (setUpds s k []) F.CMP_CUR_OFFSET_VALUE k (rd s F.CMP_OFFSET_VALUE k)
    let s := cmpMakeCurrent s k (rd s F.CMP_BASE_BASE k)
    wr (wr s F.CMP_STATUS_ARMED k 1) F.CMP_STATUS_DONE k 0

/-- CMP_CMD.DISARM (R192): the update under test fires no further event. -/
def cmpDisarm (s : State) (k : Nat) : State := wr (setUpds s k []) F.CMP_STATUS_ARMED k 0

def execCmpDisarm (k : Nat) (s : State) : Host.Outcome State Fault Refusal := onBlock 6 k 16 s fun s => cmpDisarm s k

def cmpCounters : List Field := [F.CMP_MATCHES_COUNT, F.CMP_AGAINST_COUNT, F.CMP_SKIPPED_COUNT, F.CMP_CATCHUP_COUNT]

def execCmpClrCounts (k : Nat) (s : State) : Host.Outcome State Fault Refusal := onBlock 6 k 16 s fun s => clearAll s cmpCounters k

/-- Set an entry of the list; bits 63:62 are zero (R185, R186). -/
def cmpSetEntry (s : State) (e v : Nat) : State := { s with cmpList := sset s.cmpList 0 e (v % 2 ^ 62 ^^^ memBack s memLIST e % 2 ^ 62) }

/-- A write to the list window (R185): 64 bits set an entry; a low half is held for its entry; a high half writes the held
entry whole, or combines with the present low half. -/
def cmpListWrite (s : State) (off size val : Nat) : State :=
  let e := rd s F.ENC_LIST_PAGE_PAGE * 8192 + off % 0x10000 / 8
  if size = 8 then cmpSetEntry s e val
  else if off % 8 < 4 then { s with cmpHeld := some (e, val % 2 ^ 32) }
  else match s.cmpHeld with
    | some (h, low) =>
      if h = e then cmpSetEntry { s with cmpHeld := none } e (low + 2 ^ 32 * (val % 2 ^ 32))
      else cmpSetEntry s e (cmpEntry s e % 2 ^ 32 + 2 ^ 32 * (val % 2 ^ 32))
    | none => cmpSetEntry s e (cmpEntry s e % 2 ^ 32 + 2 ^ 32 * (val % 2 ^ 32))

def execCmpListWrite (off size val : Nat) (s : State) : Host.Outcome State Fault Refusal :=
  finish s (inBlock 6 s fun s => cmpListWrite s off size val)

/-! ### Pulse outputs (R181 to R184) -/

/-- The source counts of `d` that pulse output p takes before its backlog `b` would pass ±32,767, from accumulator a with
ratio m / n (R183). -/
def poTaken (a b m n d : Int) : Int :=
  if m = 0 then d
  else if 0 ≤ d then min d (((32768 - b) * n - 1 - a) / m)
  else -(min (-d) ((a + (32767 + b) * n) / m))

/-- `d` source counts reach pulse output p (R181 to R184): the accumulator keeps the remainder; the source counts that would
carry the backlog past ±32,767 are lost; a dark pair loses the output counts. -/
def poAccumulate (s : State) (p : Nat) (d : Int) : State :=
  if rd s F.PO_RATIO_N p = 0 then
    let (a, s) := takeFree s 32
    let (b, s) := takeFree s 16
    wr (wr s F.PO_ACC_A p a) F.PO_STATUS_BACKLOG p b
  else
  let n : Int := rd s F.PO_RATIO_N p
  let m : Int := rd s F.PO_RATIO_M p
  let a : Int := rd s F.PO_ACC_A p
  if poIsDark s p then
    bumpBy (wr s F.PO_ACC_A p ((a + d * m) % n).toNat) F.PO_LOST_COUNT p ((a + d * m) / n).natAbs
  else
    let b := toSigned 16 (rd s F.PO_STATUS_BACKLOG p)
    let k := poTaken a b m n d
    let s := wr s F.PO_ACC_A p ((a + k * m) % n).toNat
    let s := wr s F.PO_STATUS_BACKLOG p (fromSigned 16 (b + (a + k * m) / n))
    if k = d then s
    else wr (bumpBy s F.PO_LOST_COUNT p (d - k).natAbs) F.PO_STATUS_OVERFLOW p 1

/-- PO_CFG.EN rises: A and BACKLOG clear; a ratio out of order leaves the output off with CFG_ERR (R181). -/
def poEnable (s : State) (p : Nat) : State :=
  let s := wr (wr s F.PO_ACC_A p 0) F.PO_STATUS_BACKLOG p 0
  let m := rd s F.PO_RATIO_M p
  let n := rd s F.PO_RATIO_N p
  if m = 0 || n = 0 || decide (n < m) then wr s F.PO_STATUS_CFG_ERR p 1 else wr s F.PO_STATUS_RUNNING p 1

/-- The pins of pulse output p follow its state. -/
def poRefresh (s : State) (p : Nat) : State :=
  let o := 2 * rd s F.PO_CFG_PAIR p
  refreshTrg (refreshTrg s o) (o + 1)

/-- PO_CFG_p after a write, with the EN it had before. -/
def poCfgWritten (s : State) (p : Nat) (was : Bool) : State :=
  let s := if isSet s F.PO_CFG_EN p then (if was then s else poEnable s p) else wr s F.PO_STATUS_RUNNING p 0
  poRefresh (if poIsDark s p then poDark s p else s) p

/-- The row PO_ENABLE: EN is set. -/
def execPoEnable (p : Nat) (s : State) : Host.Outcome State Fault Refusal :=
  onBlock 6 p 2 s fun s => poCfgWritten (wr s F.PO_CFG_EN p 1) p (isSet s F.PO_CFG_EN p)

/-- One output count of sign `up` has gone out. -/
def poCounted (s : State) (p : Nat) (up : Bool) : State :=
  let one : Int := if up then 1 else -1
  let s := wr s F.PO_STATUS_BACKLOG p (fromSigned 16 (toSigned 16 (rd s F.PO_STATUS_BACKLOG p) - one))
  wr s F.PO_OUT_VALUE p (fromSigned 64 (toSigned 64 (rd s F.PO_OUT_VALUE p) + one))

/-- The next change of pulse output p, no sooner than SPACING after the last (R183): one quadrature state, or in step and
direction the direction, then the step's high time, then its low time. -/
def poStep (s : State) (p : Nat) : State :=
  let k := poAt s p
  let b := toSigned 16 (rd s F.PO_STATUS_BACKLOG p)
  let up := decide (0 < b)
  let fwd := up != isSet s F.PO_CFG_INVERT p
  if !isSet s F.PO_STATUS_RUNNING p || poIsDark s p || s.ns < k.next then s
  else
    let k := { k with next := s.ns + rd s F.PO_SPACING_SPACING_NS p }
    if isSet s F.PO_CFG_FORMAT p then
      if k.step then poRefresh (setPo s p { k with step := false }) p
      else if b = 0 then s
      else if k.dir != fwd then poRefresh (setPo s p { k with dir := fwd }) p
      else poRefresh (poCounted (setPo s p { k with step := true }) p up) p
    else if b = 0 then s
    else poRefresh (poCounted (setPo s p { k with phase := (k.phase + (if fwd then 1 else 3)) % 4 }) p up) p

def execPoOutputCount (p : Nat) (s : State) : Host.Outcome State Fault Refusal := onBlock 6 p 2 s fun s => poStep s p

/-! ### A position update -/

/-- The position of channel n moves from p to q with pin time `ps`: the frame stamps that still take it (R290), the
compare units (R187 to R192) and, for counted counts, the pulse outputs (R181). -/
def posUpdate (s : State) (n : Nat) (p q : Int) (ps : Nat) (counted : Bool) : State :=
  let s := wr s F.ENC_POS_VALUE n (fromSigned 64 q)
  let s := mapFrames s (fun f => (f.phase == .open || f.phase == .closed) && decide (ps ≤ f.tbFs * 1000))
    fun f => { f with encPos := f.encPos.set n (fromSigned 48 q) }
  let s := (List.range 16).foldl (fun s k =>
    if isSet s F.CMP_STATUS_ARMED k && rd s F.CMP_CFG_SRC k == n then cmpUpdate s k ⟨p, q, ps / 1000, 0⟩ else s) s
  [0, 1].foldl (fun s o =>
    if counted && isSet s F.PO_STATUS_RUNNING o && rd s F.PO_CFG_SRC o == n then poAccumulate s o (q - p) else s) s

/-! ### Measurement: speed, lost, returned (R164 to R166, R175 to R178) -/

/-- LOST and FROZEN end: RETURNED, the return producer, and the loops that run on the channel (R178, R219). -/
def encReturn (s : State) (n : Nat) : State :=
  let s := wr (wr s F.ENC_STATUS_LOST n 0) F.ENC_STATUS_FROZEN n 0
  fcgReturned (fireProducer (encEvt s n 6) (28 + n)) n

/-- A new point of the speed average: `d` counts at pin time `ps`; the average restarts at this point where `first` (R164,
R165). The points of the longest average, 256 intervals, are kept. -/
def speedPoint (s : State) (n ps : Nat) (d : Int) (first : Bool) : State :=
  let k := encAt s n
  let c : Int := match k.pts with
    | p :: _ => p.2 + d
    | [] => 0
  let avg := encAvg s n
  let pts := if first || k.restart then [(ps, c)] else ((ps, c) :: k.pts).take 257
  let m := min avg (pts.length - 1)
  let oldest := match (pts.take (avg + 1)).getLast? with
    | some p => p.1
    | none => ps
  let s := setEnc s n { k with pts := pts, restart := false }
  let s := wr s F.ENC_INTERVAL_VALUE n (if m = 0 then 0 else min ((ps - oldest) / m) 0xFFFFFFFF)
  let was := isSet s F.ENC_STATUS_SPEED_VALID n
  let s := wrBool s F.ENC_STATUS_SPEED_VALID n (avg ≤ m)
  if !was && decide (avg ≤ m) then fcgSpeedValid s n else s

/-- AVG_M1 has changed: SPEED_VALID follows from the intervals measured since the restart (R165). -/
def speedSettle (s : State) (n : Nat) : State :=
  let on := decide (encAvg s n ≤ (encAt s n).pts.length - 1)
  let was := isSet s F.ENC_STATUS_SPEED_VALID n
  let s := wrBool s F.ENC_STATUS_SPEED_VALID n on
  if !was && on then fcgSpeedValid s n else s

/-- A check of channel n is armed (R175). -/
def checkArmed (s : State) (n : Nat) (en : Field) : Bool :=
  isSet s F.ENC_MEAS_CFG_MOTION_EXPECTED n && isSet s en n && isSet s F.ENC_STATUS_SPEED_VALID n

/-- The end, in ps of TB, of the holdover window after the last transition or word of channel n (R176). -/
def windowEnd (s : State) (n : Nat) : Option Nat :=
  let kk := rd s F.ENC_MEAS_CFG_K n
  if rd s F.ENC_CFG_MODE n = 5 then some ((rd s F.ENC_LAST_TB_VALUE n + kk * rd s F.ENC_SSI_PERIOD_PERIOD n) * 1000)
  else (encAt s n).lastPs.map fun l => l + kk * rd s F.ENC_INTERVAL_VALUE n

/-- A transition or word with pin time `ps` follows: where the window before it has ended, it held none, and is judged so
though the newcomer may reach the counter first (R176, R627). -/
def noteWindow (s : State) (n ps : Nat) : State :=
  match windowEnd s n with
  | some e => if e < ps && (encAt s n).lostWin.isNone then setEnc s n { encAt s n with lostWin := some e } else s
  | none => s

/-- R627 has judged an instant given in ps. -/
def judgedPs (s : State) (n e : Nat) : Bool :=
  if rd s F.ENC_CFG_MODE n = 5 then judged s n (e / 1000)
  else decide (e + rd s F.ENC_CFG_FILTER_N n * 2500 + 30000 ≤ s.tb * 1000)

/-- A holdover window of channel n has passed with nothing in it, and R627 has judged it (R176). -/
def lostDue (s : State) (n : Nat) : Bool :=
  ((encAt s n).lostWin.toList ++ (windowEnd s n).toList).any (judgedPs s n)

/-- Feedback of channel n is lost (R176). -/
def encLost (s : State) (n : Nat) : State :=
  if isSet s F.ENC_STATUS_LOST n || rd s F.ENC_CFG_MODE n = 0 || !checkArmed s n F.ENC_MEAS_CFG_LOST_EN || !lostDue s n then s
  else
    let s := setEnc s n { encAt s n with lostWin := none }
    let s := bump (encEvt (wr s F.ENC_STATUS_LOST n 1) n 4) F.ENC_LOST_CNT_COUNT n
    fcgLost (fireProducer s (24 + n)) n

def execEncLost (n : Nat) (s : State) : Host.Outcome State Fault Refusal := onBlock 6 n 4 s fun s => encLost s n

/-! ### Counting (R155 to R158, R628) -/

/-- The direction in which a transition to (a, b) counts, where it does: which of A and B changed, then R628. -/
def countDir (mode : Nat) (a b aCh bCh : Bool) : Option Bool :=
  match mode with
  | 1 => if aCh then some (a != b) else if bCh then some (a == b) else none
  | 2 => if aCh then some (a != b) else none
  | 3 => if aCh && a then some (!b) else none
  | 4 => if aCh && a then some b else none
  | _ => none

/-- A counted transition of channel n at pin time `ps` (R155 to R159, R163 to R166, R178). -/
def encCount (s : State) (n ps : Nat) (fwd zActive : Bool) : State :=
  let k := encAt s n
  let s := if k.lastPs.any fun l => ps - l < 25000 then encEvt (bump s F.ENC_OVERSPEED_COUNT n) n 1 else s
  let turned := k.moved && isSet s F.ENC_STATUS_DIR n != fwd
  let returned := isSet s F.ENC_STATUS_LOST n
  let s := noteWindow s n ps
  let s := setEnc s n { encAt s n with
    bad := false, moved := true, lastPs := some ps, idxTurned := k.idxTurned || turned,
    zRun := k.zRun.map fun z => (if zActive then z.1 + 1 else z.1, z.2 + 1) }
  let s := wr (wrBool s F.ENC_STATUS_DIR n fwd) F.ENC_LAST_TB_VALUE n (ps / 1000)
  let s := if returned then encReturn s n else s
  let d : Int := if fwd then 1 else -1
  let s := speedPoint s n ps d (turned || returned)
  let p := encPos s n
  posUpdate s n p (p + d) ps true

/-- A sample in which A and B both changed (R156). -/
def quadErr (s : State) (n : Nat) : State :=
  let s := setEnc s n { encAt s n with bad := true }
  fireProducer (encEvt (bump s F.ENC_QUAD_ERR_COUNT n) n 0) (24 + n)

/-! ### Index (R161 to R163) -/

/-- Z was active for more than half of the counted transitions between two indices (R163, R602). -/
def judgeZ (s : State) (n : Nat) : State :=
  let k := encAt s n
  let s := if k.zRun.any fun z => z.2 < 2 * z.1 then
      encEvt (wr s F.ENC_STATUS_Z_REVERSED n 1) n 7 else s
  setEnc s n { encAt s n with zRun := some (0, 0) }

/-- The drift check against the previous index (R162). -/
def driftCheck (s : State) (n : Nat) (pos : Int) : State :=
  let k := encAt s n
  let fwd := isSet s F.ENC_STATUS_DIR n
  let period := rd s F.ENC_IDX_PERIOD_VALUE n
  match k.idxRef with
  | none => s
  | some (old, oldFwd) =>
    if period = 0 || k.idxTurned || oldFwd != fwd then s
    else
      let dev : Int := if fwd then pos - old - period else pos - old + period
      let s := wr s F.ENC_IDX_DRIFT_VALUE n (fromSigned 32 (satSigned 32 dev))
      if rd s F.ENC_IDX_TOL_VALUE n < dev.natAbs
      then fireProducer (encEvt (bump s F.ENC_DRIFT_CNT_COUNT n) n 3) (20 + n) else s

/-- A qualified index of channel n at pin time `ps` (R161 to R163). -/
def encIndex (s : State) (n ps : Nat) : State :=
  let pos := encPos s n
  let s := wr (wr s F.ENC_IDX_POS_VALUE n (fromSigned 64 pos)) F.ENC_IDX_TB_VALUE n (ps / 1000)
  let s := fireProducer (encEvt s n 2) (16 + n)
  let s := judgeZ (driftCheck s n pos) n
  let k := encAt s n
  wr (setEnc s n { k with idxRef := some (pos, isSet s F.ENC_STATUS_DIR n), idxTurned := false }) F.ENC_STATUS_IDX_REF n 1

/-- The index gate lets an edge pass (R161). -/
def gateOpen (s : State) (n : Nat) (a b : Bool) : Bool :=
  let g := rd s F.ENC_CFG_INDEX_GATE n
  !g.testBit 2 || (a == g.testBit 1 && b == g.testBit 0)

/-- The filter accepts a new level that `held` consecutive samples have shown, the first of them at `ps`: once N have, and not
before the N-th was taken (R152, R153). -/
def filterAccepts (s : State) (n ps held : Nat) : Bool :=
  let f := rd s F.ENC_CFG_FILTER_N n
  decide (f ≤ held) && decide (ps + (f - 1) * 2500 ≤ s.tb * 1000 + 999)

/-- The inputs of channel n have shown the levels a, b, z for `held` samples from `ps` on: a transition where the filter accepts
them (R152 to R163). -/
def encEdge (s : State) (n : Nat) (a b z : Bool) (ps held : Nat) : State :=
  let mode := rd s F.ENC_CFG_MODE n
  if mode = 5 || !domUp s 22 || !filterAccepts s n ps held then s
  else
    let old := rd s F.ENC_STATUS_ABZ n
    let aCh := old.testBit 0 != a
    let bCh := old.testBit 1 != b
    let pol := isSet s F.ENC_CFG_Z_POL n
    let s := wr s F.ENC_STATUS_ABZ n (a.toNat + 2 * b.toNat + 4 * z.toNat)
    let s := if aCh && bCh && (mode == 1 || mode == 2 || mode == 3) then quadErr s n
      else match countDir mode a b aCh bCh with
        | some fwd => encCount s n ps (fwd != isSet s F.ENC_CFG_INVERT_DIR n) (z != pol)
        | none => s
    if old.testBit 2 != z && z != pol && gateOpen s n a b then encIndex s n ps else s

def execEncEdge (n : Nat) (a b z : Bool) (ps held : Nat) (s : State) : Host.Outcome State Fault Refusal :=
  onBlock 6 n 4 s fun s => encEdge s n a b z ps held

/-! ### Channel commands -/

/-- ENC_CMD.LOAD_PRESET (R160). -/
def loadPreset (s : State) (n : Nat) : State :=
  let s := wr (wr s F.ENC_POS_VALUE n (rd s F.ENC_PRESET_VALUE n)) F.ENC_STATUS_IDX_REF n 0
  setEnc s n { encAt s n with idxRef := none }

def execLoadPreset (n : Nat) (s : State) : Host.Outcome State Fault Refusal := onBlock 6 n 4 s fun s => loadPreset s n

def encCounters : List Field :=
  [F.ENC_QUAD_ERR_COUNT, F.ENC_OVERSPEED_COUNT, F.ENC_DRIFT_CNT_COUNT, F.ENC_LOST_CNT_COUNT, F.ENC_FROZEN_CNT_COUNT,
   F.ENC_SSI_CRC_CNT_COUNT, F.ENC_SSI_ERR_CNT_COUNT, F.ENC_SSI_WARN_CNT_COUNT, F.ENC_SSI_TIMEOUT_CNT_COUNT,
   F.ENC_SSI_SKIP_CNT_COUNT]

def execEncClrCounts (n : Nat) (s : State) : Host.Outcome State Fault Refusal := onBlock 6 n 4 s fun s => clearAll s encCounters n

/-- ENC_CMD.RESTART_SPEED: the next counted transition is the first point (R165). -/
def restartSpeed (s : State) (n : Nat) : State :=
  let s := setEnc s n { encAt s n with pts := [], restart := true }
  wr (wr s F.ENC_INTERVAL_VALUE n 0) F.ENC_STATUS_SPEED_VALID n 0

def execRestartSpeed (n : Nat) (s : State) : Host.Outcome State Fault Refusal := onBlock 6 n 4 s fun s => restartSpeed s n

/-- ENC_CMD.CLR_IDX_REF: the drift reference and Z_REVERSED clear (R162, R163). -/
def clrIdxRef (s : State) (n : Nat) : State :=
  let s := setEnc s n { encAt s n with idxRef := none }
  endReversed (wr (wr s F.ENC_STATUS_IDX_REF n 0) F.ENC_STATUS_Z_REVERSED n 0) (3 * n + 2)

def execClrIdxRef (n : Nat) (s : State) : Host.Outcome State Fault Refusal := onBlock 6 n 4 s fun s => clrIdxRef s n

/-! ### Configuration (R154, R167, R174) -/

/-- FILTER_N while AUTO_FILTER is 1 (R154). -/
def autoFilter (s : State) (n : Nat) : State :=
  if isSet s F.ENC_CFG_AUTO_FILTER n
  then wr s F.ENC_CFG_FILTER_N n (max 1 (min 255 (1000000000 / (rd s F.ENC_MAXRATE_RATE n * 10)))) else s

/-- A bit placed by R169: in CRC_LEN to WLEN − 1, outside the position field. -/
def ssiBitOk (s : State) (n b : Nat) : Bool :=
  let lsb := rd s F.ENC_SSI_FRAME_POS_LSB n
  decide (rd s F.ENC_SSI_CRC_LEN n ≤ b) && decide (b < rd s F.ENC_SSI_FRAME_WLEN n)
  && !(decide (lsb ≤ b) && decide (b < lsb + rd s F.ENC_SSI_FRAME_POS_BITS n))

/-- The SSI configuration of channel n keeps the placement rules (R169). -/
def ssiConfigOk (s : State) (n : Nat) : Bool :=
  decide (rd s F.ENC_SSI_CRC_LEN n ≤ rd s F.ENC_SSI_FRAME_POS_LSB n)
  && decide (rd s F.ENC_SSI_FRAME_POS_LSB n + rd s F.ENC_SSI_FRAME_POS_BITS n ≤ rd s F.ENC_SSI_FRAME_WLEN n)
  && (!isSet s F.ENC_SSI_STAT_ERR_EN n || ssiBitOk s n (rd s F.ENC_SSI_STAT_ERR_BIT n))
  && (!isSet s F.ENC_SSI_STAT_WARN_EN n || (ssiBitOk s n (rd s F.ENC_SSI_STAT_WARN_BIT n)
      && !(isSet s F.ENC_SSI_STAT_ERR_EN n && rd s F.ENC_SSI_STAT_ERR_BIT n == rd s F.ENC_SSI_STAT_WARN_BIT n)))

/-- Channel n reads SSI words. -/
def ssiRuns (s : State) (n : Nat) : Bool := domUp s 22 && rd s F.ENC_CFG_MODE n == 5 && ssiConfigOk s n

/-- A broken configuration of an SSI channel sets CFG_ERR (R167). -/
def ssiCheck (s : State) (n : Nat) : State :=
  if rd s F.ENC_CFG_MODE n = 5 && !ssiConfigOk s n then encEvt s n 11 else s

/-- Set a list of fields at instance n. -/
def wrFields (s : State) (n : Nat) (fs : List (Field × Nat)) : State := fs.foldl (fun s f => wr s f.1 n f.2) s

/-- The fields of an SSI preset (R174). -/
def ssiPresetFields (preset : Nat) : List (Field × Nat) :=
  let common := [(F.ENC_SSI_FRAME_POS_LSB, 0), (F.ENC_SSI_FRAME_GRAY, 1), (F.ENC_SSI_STAT_ERR_BIT, 0), (F.ENC_SSI_STAT_ERR_EN, 0),
    (F.ENC_SSI_STAT_ERR_LOW, 0), (F.ENC_SSI_STAT_WARN_BIT, 0), (F.ENC_SSI_STAT_WARN_EN, 0), (F.ENC_SSI_STAT_WARN_LOW, 0),
    (F.ENC_SSI_CRC_POLY, 0), (F.ENC_SSI_CRC_LEN, 0), (F.ENC_SSI_CRC_INIT_INIT, 0), (F.ENC_SSI_CRC_INIT_XOROUT, 0),
    (F.ENC_SSI_TIMING_CLKDIV, 200), (F.ENC_SSI_TIMING_DELAY, 0), (F.ENC_SSI_TIMING_TIMEOUT_US, 30)]
  match preset with
  | 1 => common ++ [(F.ENC_SSI_FRAME_WLEN, 13), (F.ENC_SSI_FRAME_POS_BITS, 13), (F.ENC_SSI_PERIOD_PERIOD, 50000)]
  | 2 => common ++ [(F.ENC_SSI_FRAME_WLEN, 25), (F.ENC_SSI_FRAME_POS_BITS, 25), (F.ENC_SSI_PERIOD_PERIOD, 60000)]
  | 3 => common ++ [(F.ENC_SSI_FRAME_WLEN, 32), (F.ENC_SSI_FRAME_POS_BITS, 24), (F.ENC_SSI_FRAME_POS_LSB, 8),
      (F.ENC_SSI_FRAME_GRAY, 0), (F.ENC_SSI_STAT_ERR_BIT, 7), (F.ENC_SSI_STAT_ERR_EN, 1), (F.ENC_SSI_STAT_ERR_LOW, 1),
      (F.ENC_SSI_STAT_WARN_BIT, 6), (F.ENC_SSI_STAT_WARN_EN, 1), (F.ENC_SSI_STAT_WARN_LOW, 1), (F.ENC_SSI_CRC_POLY, 3),
      (F.ENC_SSI_CRC_LEN, 6), (F.ENC_SSI_CRC_INIT_XOROUT, 0x3F), (F.ENC_SSI_TIMING_CLKDIV, 100),
      (F.ENC_SSI_TIMING_TIMEOUT_US, 20), (F.ENC_SSI_PERIOD_PERIOD, 40000)]
  | _ => []

/-- ENC_SSI_FRAME after a write: a preset loads its configuration (R174). -/
def ssiPreset (s : State) (n : Nat) : State := ssiCheck (wrFields s n (ssiPresetFields (rd s F.ENC_SSI_FRAME_PRESET n))) n

/-- MODE of channel n has changed: unwrapping starts at the next valid word of a channel set to SSI (R172). -/
def encModeSet (s : State) (n : Nat) : State :=
  let k := encAt s n
  ssiCheck (wr (setEnc s n { k with ssiField := none, ssiSame := 0, ssiGrid := 0, ssiT0 := none, ssiWait := none })
    F.ENC_STATUS_SSI_BUSY n 0) n

/-! ### Serial position sensors (R168 to R173, R177) -/

/-- The grid points up to now that fell inside the word in progress are skipped and counted (R168). -/
def ssiSkip (s : State) (n : Nat) : State :=
  let k := encAt s n
  let period := max 1 (rd s F.ENC_SSI_PERIOD_PERIOD n)
  if s.ns < k.ssiGrid then s
  else
    let c := (s.ns - k.ssiGrid) / period + 1
    encEvt (bumpBy (setEnc s n { k with ssiGrid := k.ssiGrid + c * period }) F.ENC_SSI_SKIP_CNT_COUNT n c) n 10

/-- A word of channel n starts now; grid points that passed while it waited for the data line lie in no word and are not
skipped (R168). -/
def ssiStart (s : State) (n : Nat) : State :=
  let k := encAt s n
  let period := max 1 (rd s F.ENC_SSI_PERIOD_PERIOD n)
  let grid := if s.ns < k.ssiGrid then k.ssiGrid else k.ssiGrid + ((s.ns - k.ssiGrid) / period + 1) * period
  wr (setEnc s n { k with ssiT0 := some s.tb, ssiWait := none, ssiGrid := grid }) F.ENC_STATUS_SSI_BUSY n 1

/-- A grid point of channel n, or the rise of the data line it waits for (R168). -/
def ssiGrid (s : State) (n : Nat) (lineHigh : Bool) : State :=
  let k := encAt s n
  if !ssiRuns s n then s
  else if isSet s F.ENC_STATUS_SSI_BUSY n then ssiSkip s n
  else if k.ssiWait.isSome then (if lineHigh then ssiStart s n else s)
  else if s.ns < k.ssiGrid then s
  else
    let period := max 1 (rd s F.ENC_SSI_PERIOD_PERIOD n)
    let next := if k.ssiGrid = 0 then s.ns + period else k.ssiGrid + ((s.ns - k.ssiGrid) / period + 1) * period
    let s := setEnc s n { k with ssiGrid := next }
    if lineHigh then ssiStart s n
    else setEnc s n { encAt s n with ssiWait := some (s.ns + rd s F.ENC_SSI_TIMING_TIMEOUT_US n * 1000) }

def execSsiGrid (n : Nat) (lineHigh : Bool) (s : State) : Host.Outcome State Fault Refusal :=
  onBlock 6 n 4 s fun s => ssiGrid s n lineHigh

/-- The CRC of a word holds (R170). -/
def ssiCrcOk (s : State) (n word : Nat) : Bool :=
  let len := rd s F.ENC_SSI_CRC_LEN n
  let wlen := rd s F.ENC_SSI_FRAME_WLEN n
  let m := 2 ^ len
  let bits := (List.range (wlen - len)).map fun i => word.testBit (wlen - 1 - i)
  let reg := bits.foldl (crcStep len (rd s F.ENC_SSI_CRC_POLY n % m)) (rd s F.ENC_SSI_CRC_INIT_INIT n % m)
  len == 0 || (reg ^^^ (rd s F.ENC_SSI_CRC_INIT_XOROUT n % m)) == word % m

/-- A bit of the word is at its active level. -/
def ssiActive (s : State) (n word : Nat) (en bit low : Field) : Bool :=
  isSet s en n && word.testBit (rd s bit n) != isSet s low n

/-- Gray code to binary: each bit is the XOR of the field bits from the top down to it (R169). -/
def grayToBin (w v : Nat) : Nat := (List.range w).foldl (fun a i => a ^^^ v / 2 ^ i) 0 % 2 ^ w

/-- The decoded position field of a word (R169). -/
def ssiPosition (s : State) (n word : Nat) : Nat :=
  let w := rd s F.ENC_SSI_FRAME_POS_BITS n
  let v := bitsOf word (rd s F.ENC_SSI_FRAME_POS_LSB n) w
  if isSet s F.ENC_SSI_FRAME_GRAY n then grayToBin w v else v

/-- The word in progress ends, with the grid points it covered. -/
def ssiEnd (s : State) (n word : Nat) : State :=
  let s := ssiSkip s n
  let s := wr (setEnc s n { encAt s n with ssiT0 := none, ssiWait := none }) F.ENC_STATUS_SSI_BUSY n 0
  wr s F.ENC_SSI_RAW_WORD n (word % 2 ^ rd s F.ENC_SSI_FRAME_WLEN n)

/-- An invalid word: one counter, SSI_INVALID, the fault producer, FAULT_ACTIVE (R171). -/
def ssiInvalid (s : State) (n : Nat) (counter : Field) : State :=
  let s := setEnc s n { encAt s n with bad := true }
  fireProducer (encEvt (bump s counter n) n 8) (24 + n)

/-- Feedback is frozen: the M-th valid word with the same position field while the check is armed (R175, R177). -/
def checkFrozen (s : State) (n : Nat) : State :=
  if rd s F.ENC_CFG_MODE n = 5 && checkArmed s n F.ENC_MEAS_CFG_FROZEN_EN && !isSet s F.ENC_STATUS_FROZEN n
      && decide (rd s F.ENC_MEAS_CFG_M n ≤ (encAt s n).ssiSame) then
    let s := bump (encEvt (wr s F.ENC_STATUS_FROZEN n 1) n 5) F.ENC_FROZEN_CNT_COUNT n
    fcgLost (fireProducer s (24 + n)) n
  else s

/-- A valid word with position field `v` and position time t0 (R171 to R173, R177, R178). DEDUCED: the first word after MODE is
set sets the position, as a count does for the compare units, but is no counted count of a pulse output (R172, R181; log 80). -/
def ssiValid (s : State) (n v t0 : Nat) (warn : Bool) : State :=
  let k := encAt s n
  let w := rd s F.ENC_SSI_FRAME_POS_BITS n
  let s := wrBool s F.ENC_STATUS_SSI_WARN n warn
  let s := if warn then encEvt (bump s F.ENC_SSI_WARN_CNT_COUNT n) n 9 else s
  let same := k.ssiField == some v
  let p := encPos s n
  let d : Int := match k.ssiField with
    | some old => toSigned w (fromSigned w ((v : Int) - old))
    | none => 0
  let q : Int := if k.ssiField.isSome then p + d else v
  let turned := k.moved && ((decide (0 < d) && !isSet s F.ENC_STATUS_DIR n) || (decide (d < 0) && isSet s F.ENC_STATUS_DIR n))
  let returned := isSet s F.ENC_STATUS_LOST n || (isSet s F.ENC_STATUS_FROZEN n && !same)
  let s := noteWindow s n (t0 * 1000)
  let s := setEnc s n { encAt s n with
    bad := false, moved := k.moved || d ≠ 0, ssiField := some v, ssiSame := if same then k.ssiSame + 1 else 1 }
  let s := if 0 < d then wr s F.ENC_STATUS_DIR n 1 else if d < 0 then wr s F.ENC_STATUS_DIR n 0 else s
  let s := wr s F.ENC_LAST_TB_VALUE n t0
  let keepFrozen := isSet s F.ENC_STATUS_FROZEN n && same
  let s := if returned then wrBool (encReturn s n) F.ENC_STATUS_FROZEN n keepFrozen else s
  let s := speedPoint s n (t0 * 1000) d (turned || returned || k.ssiField.isNone)
  checkFrozen (posUpdate s n p q (t0 * 1000) k.ssiField.isSome) n

/-- The last rising clock edge of the word in progress, in half ns of TB (R168). -/
def ssiLastEdge (s : State) (n t0 : Nat) : Nat :=
  2 * t0 + (2 * rd s F.ENC_SSI_FRAME_WLEN n + 1) * rd s F.ENC_SSI_TIMING_CLKDIV n * 5

/-- The data line has returned high after the word of channel n: the word is decoded, with the t0 of its first falling clock edge
(R168 to R173). -/
def ssiWord (s : State) (n word : Nat) : State :=
  let t0 := (encAt s n).ssiT0.getD 0
  if !ssiRuns s n || !isSet s F.ENC_STATUS_SSI_BUSY n || decide (2 * s.tb < ssiLastEdge s n t0) then s
  else
    let s := ssiEnd s n word
    if !ssiCrcOk s n word then ssiInvalid s n F.ENC_SSI_CRC_CNT_COUNT
    else if ssiActive s n word F.ENC_SSI_STAT_ERR_EN F.ENC_SSI_STAT_ERR_BIT F.ENC_SSI_STAT_ERR_LOW
    then ssiInvalid s n F.ENC_SSI_ERR_CNT_COUNT
    else ssiValid s n (ssiPosition s n word) t0
      (ssiActive s n word F.ENC_SSI_STAT_WARN_EN F.ENC_SSI_STAT_WARN_BIT F.ENC_SSI_STAT_WARN_LOW)

def execSsiWord (n word : Nat) (s : State) : Host.Outcome State Fault Refusal := onBlock 6 n 4 s fun s => ssiWord s n word

/-- TIMEOUT_US expires: no word starts, or the received word is invalid, by the first check that fails (R168, R171). -/
def ssiTimeout (s : State) (n word : Nat) : State :=
  let k := encAt s n
  if isSet s F.ENC_STATUS_SSI_BUSY n then
    if 2 * s.tb < ssiLastEdge s n (k.ssiT0.getD 0) + rd s F.ENC_SSI_TIMING_TIMEOUT_US n * 2000 then s
    else
    let s := ssiEnd s n word
    ssiInvalid s n (if !ssiCrcOk s n word then F.ENC_SSI_CRC_CNT_COUNT
      else if ssiActive s n word F.ENC_SSI_STAT_ERR_EN F.ENC_SSI_STAT_ERR_BIT F.ENC_SSI_STAT_ERR_LOW
      then F.ENC_SSI_ERR_CNT_COUNT else F.ENC_SSI_TIMEOUT_CNT_COUNT)
  else match k.ssiWait with
    | some t => if s.ns < t then s else ssiInvalid (setEnc s n { k with ssiWait := none }) n F.ENC_SSI_TIMEOUT_CNT_COUNT
    | none => s

def execSsiTimeout (n word : Nat) (s : State) : Host.Outcome State Fault Refusal := onBlock 6 n 4 s fun s => ssiTimeout s n word

/-- The LOCK loop of FCG g updates (R208, R217). -/
def execFcgLoopUpdate (g : Nat) (s : State) : Host.Outcome State Fault Refusal :=
  onBlock 7 g 4 s fun s => loopUpdate s g (reportedSpeed s (rd s F.FCG_CFG_SRC_ENC g))

end Sys2Proof.Machine
end

