-- ==== Sys2Proof/Machine/Mem.lean ====
section
/-! DEFINITION. The LP5X store, stream regions and BURST recording (spec/10, R396 to R409). -/
namespace Sys2Proof.Machine

def memEvt (s : State) (b : Nat) : State := setBit s F.MEM_EVT_EVT 0 b

/-- The LP5X store answers accesses: D23 is up and STATE is READY (R397). -/
def memReady (s : State) : Bool := domUp s 23 && rd s F.MEM_STATUS_STATE == 2

/-- An uncorrectable read: counted; the first since UNCORR was clear is logged with its reader (R402). -/
def memUncorr (s : State) (addr mid : Nat) : State :=
  let first := !hasBit s F.MEM_EVT_EVT 0 2
  let s := memEvt (bump s F.MEM_UNCORR_COUNT) 2
  if first then wr (wr s F.MEM_UNCORR_ADDR_VALUE 0 addr) F.MEM_UNCORR_MID_MID 0 mid else s

/-- The bytes of an access of `n` bytes that lie below MEM_USABLE. -/
def memBelow (s : State) (addr n : Nat) : Nat := min n (rd s F.MEM_USABLE_VALUE - addr)

/-- An access that reaches beyond MEM_USABLE is counted and logged once, at its first byte there (R399; log 96). -/
def memBeyond (s : State) (mid addr n : Nat) : State :=
  if memBelow s addr n < n then memUncorr s (max addr (rd s F.MEM_USABLE_VALUE)) mid else s

/-- Read `n` bytes of LP5X for master `mid`: zeros while the store is not READY, and for the bytes beyond MEM_USABLE (R397,
R399). -/
def memRead (s : State) (mid addr n : Nat) : List Nat × State :=
  if !memReady s then (List.replicate n 0, s)
  else (lpBytes s addr (memBelow s addr n) ++ List.replicate (n - memBelow s addr n) 0, memBeyond s mid addr n)

/-- Write bytes to LP5X for master `mid`; those beyond MEM_USABLE are discarded (R397, R399). -/
def memWrite (s : State) (mid addr : Nat) (bs : List Nat) : State :=
  if !memReady s then s
  else memBeyond (lpPut s addr (bs.take (memBelow s addr bs.length))) mid addr bs.length

/-- The errors that a command's own LP5X accesses met, as (how, address): 1 link ECC corrected one, 2 in-line ECC, where it is on,
3 neither could correct a read of master `mid`; with the state, whether one was uncorrectable (R400 to R402). -/
def memErrors (s : State) (mid : Nat) (es : List (Nat × Nat)) : Bool × State :=
  if !memReady s then (false, s)
  else es.foldl (fun a e =>
    match e.1 with
    | 1 => (a.1, bump a.2 F.MEM_LINK_CORR_COUNT)
    | 2 => if isSet a.2 F.MEM_CFG_INLINE_ECC then (a.1, bump a.2 F.MEM_INLINE_CORR_COUNT) else a
    | 3 => (true, memUncorr a.2 e.2 mid)
    | _ => a) (false, s)

/-! ### Training (R396 to R398) -/

def memTrain (s : State) : State := if domUp s 23 then wr s F.MEM_STATUS_STATE 0 1 else s

def execMemTrain (s : State) : Host.Outcome State Fault Refusal := finish s (inBlock 17 s fun s => memTrain s)

/-- The total capacities that the controller supports, in GiB (R396). -/
def memCapacities : List Nat := [8, 16, 32, 64]

/-- Training ends with the channels of `chOk` trained and `gib` GiB installed (R396, R397, R399, R36). -/
def memTrainDone (s : State) (chOk gib : Nat) : State :=
  if rd s F.MEM_STATUS_STATE ≠ 1 || !memCapacities.contains gib then s
  else
    let s := wr s F.MEM_STATUS_CH_OK 0 chOk
    if chOk % 256 = 255 then
      let bytes := gib * 2 ^ 30
      let s := wr s F.MEM_USABLE_VALUE 0 (if isSet s F.MEM_CFG_INLINE_ECC then bytes / 8 * 7 else bytes)
      memEvt (wr (wr s F.GLB_CAP_MEM_GIB 0 gib) F.MEM_STATUS_STATE 0 2) 0
    else memEvt (wr s F.MEM_STATUS_STATE 0 3) 1

def execMemTrainDone (chOk gib : Nat) (s : State) : Host.Outcome State Fault Refusal := finish s (inBlock 17 s fun s => memTrainDone s chOk gib)

/-- A refresh keeps the array and shows in no register (R398). -/
def execMemRefresh (s : State) : Host.Outcome State Fault Refusal := finish s s

/-- MEM_CMD.CLR_COUNTS (R17). -/
def memClear (s : State) : State :=
  let s := clearAll s [F.MEM_LINK_CORR_COUNT, F.MEM_INLINE_CORR_COUNT, F.MEM_UNCORR_COUNT] 0
  (List.range 64).foldl (fun s k => clearAll s [F.MEM_SREG_DROPPED_COUNT, F.MEM_BURST_EXTRA_COUNT] k) s

def execMemClrCounts (s : State) : Host.Outcome State Fault Refusal := finish s (inBlock 17 s fun s => memClear s)

/-! ### Stream regions (R403 to R406) -/

/-- The slots of stream k's region (R404). -/
def regionSlots (s : State) (k : Nat) : Nat := 2 ^ (rd s F.MEM_SREG_CFG_SIZE_LOG2 k - rd s F.MEM_SREG_CFG_SLOT_LOG2 k)

/-- The address of frame SEQ q's slot (R404). -/
def slotAddr (s : State) (k q : Nat) : Nat :=
  rd s F.MEM_SREG_BASE_BASE k + q % regionSlots s k * 2 ^ rd s F.MEM_SREG_CFG_SLOT_LOG2 k

/-- Setting EN of a region is refused (R405). -/
def regionRefused (s : State) (k : Nat) : Bool :=
  let b := rd s F.MEM_SREG_BASE_BASE k
  let e := b + 2 ^ rd s F.MEM_SREG_CFG_SIZE_LOG2 k
  decide (rd s F.MEM_USABLE_VALUE < e)
  || decide (b % 2 ^ rd s F.MEM_SREG_CFG_SIZE_LOG2 k ≠ 0)
  || decide (rd s F.MEM_SREG_CFG_SIZE_LOG2 k < rd s F.MEM_SREG_CFG_SLOT_LOG2 k)
  || (List.range 64).any fun j => j ≠ k && isSet s F.MEM_SREG_CFG_EN j
      && decide (b < rd s F.MEM_SREG_BASE_BASE j + 2 ^ rd s F.MEM_SREG_CFG_SIZE_LOG2 j) && decide (rd s F.MEM_SREG_BASE_BASE j < e)

/-- Frame q of stream k is held: a frame that a line of SEQ q + N or later has ended stays so, though a squash takes NEWEST back
(R94, R406). -/
def held (s : State) (k q : Nat) : Bool :=
  let newest := rd s F.MEM_SREG_NEWEST_SEQ k
  isSet s F.MEM_SREG_NEWEST_STORED k && decide (newest < q + regionSlots s k) && decide (q ≤ newest)
  && s.frames.any fun f => f.stream == k && f.seq == q && f.stored && !f.lapsed

/-- A line of stream k is lost for want of room (R403). -/
def lineLost (s : State) (k : Nat) : State :=
  memEvt (wr (bump s F.MEM_SREG_DROPPED_COUNT k) F.MEM_SREG_CFG_DROP_SEEN k 1) 3

/-- The store buffer takes `n` more bytes where it has room; how much has drained since it last took some is free (R403;
log 30). -/
def storeRoom (s : State) (n : Nat) : Bool × State :=
  let (v, s) := takeFree s 32
  let left := s.storeBuf - v % (s.storeBuf + 1)
  if left + n ≤ 2097152 then
    let s := { s with storeBuf := left + n }
    (true, wr s F.MEM_STORE_BUF_PEAK 0 (max (rd s F.MEM_STORE_BUF_PEAK) ((left + n) / 1024)))
  else (false, { s with storeBuf := left })

/-- MEM_STORE_BUF.DEPTH: what has drained is free (R403; log 30). -/
def storeDepth (s : State) : Nat × State :=
  let (v, s) := takeFree s 32
  let left := s.storeBuf - v % (s.storeBuf + 1)
  (left / 1024, { s with storeBuf := left })

/-- Store line i of the frame with SEQ q of stream k: whether it was stored, and the state (R403 to R406). -/
def storeLine (s : State) (k q i lineBytes : Nat) (bs : List Nat) : Bool × State :=
  if !isSet s F.MEM_SREG_CFG_EN k || !domUp s 23
      || decide (2 ^ rd s F.MEM_SREG_CFG_SLOT_LOG2 k < i * lineBytes + bs.length) then (false, lineLost s k)
  else
    let (room, s) := storeRoom s bs.length
    if !room then (false, lineLost s k)
    else
      let s := memWrite s 0x1F (slotAddr s k q + i * lineBytes) bs
      let n := regionSlots s k
      let s := mapFrames s (fun f => f.stream == k && decide (f.seq + n ≤ q)) fun f => { f with lapsed := true }
      (true, wr (wr s F.MEM_SREG_NEWEST_SEQ k q) F.MEM_SREG_NEWEST_STORED k 1)

/-! ### BURST recording (R407 to R409) -/

def burstState (s : State) (k : Nat) : Nat := rd s F.MEM_BURST_CFG_STATE k

/-- POST of the end event that stream k took (R407). -/
def burstPostOf (s : State) (k : Nat) : Nat := sget s.burstPost 0 k - 1

/-- Held frames of stream k with SEQ below E (R408). -/
def heldBelow (s : State) (k e : Nat) : Nat :=
  (((s.frames.filter fun f => f.stream == k && decide (f.seq < e) && held s k f.seq).map Frame.seq).eraseDups).length

/-- The burst logic freezes stream k (R408). -/
def burstFreeze (s : State) (k : Nat) : State :=
  let s := wr s F.PKT_SCFG_GATING k 2
  let s := wr s F.MEM_BURST_PRE_HELD_VALUE k (min (rd s F.MEM_BURST_PRE_VALUE k) (heldBelow s k (rd s F.MEM_BURST_EVENT_SEQ_VALUE k)))
  let s := memEvt (wr (wr s F.MEM_BURST_CFG_STATE k 3) F.MEM_SREG_CFG_FROZEN_SEEN k 1) 4
  (List.range 4).foldl (fun s i =>
    if isSet s F.MEM_FRZ_CFG_EN i && rd s F.MEM_FRZ_CFG_STREAM i == k then fireProducer s (108 + i) else s) s

/-- E: the SEQ of the first frame of stream k to open after an event of now; one whose FS fell in this cycle counts as after it
(R407). -/
def burstNext (s : State) (k : Nat) : Nat :=
  (s.frames.filter fun f => f.stream == k && f.tent.isNone && f.nsFs == s.ns).foldl (fun e f => min e f.seq)
    (rd s F.PKT_SEQ_VALUE k)

/-- An end event with a POST count reaches the burst logic of stream k (R407, R409). -/
def burstEnd (s : State) (k post : Nat) : State :=
  match burstState s k with
  | 1 =>
    let s := wr (wr s F.MEM_BURST_EVENT_TB_VALUE k s.tb) F.MEM_BURST_EVENT_SEQ_VALUE k (burstNext s k)
    let s := wr { s with burstPost := sset s.burstPost 0 k (post + 1) } F.MEM_BURST_CFG_STATE k 2
    if post = 0 then burstFreeze s k else s
  | 2 => bump s F.MEM_BURST_EXTRA_COUNT k
  | 3 => bump s F.MEM_BURST_EXTRA_COUNT k
  | _ => s

/-- The tag of frame q of stream k has completed, or a dropped frame has taken SEQ q (R408). -/
def burstSeqDone (s : State) (k q : Nat) : State :=
  if burstState s k = 2 ∧ q + 1 = rd s F.MEM_BURST_EVENT_SEQ_VALUE k + burstPostOf s k then burstFreeze s k else s

/-- MEM_BURST_CFG.ARM (R407). -/
def burstArm (s : State) (k : Nat) : State := if burstState s k = 0 then wr s F.MEM_BURST_CFG_STATE k 1 else s

def execBurstArm (k : Nat) (s : State) : Host.Outcome State Fault Refusal := onBlock 17 k 64 s fun s => burstArm s k

/-- MEM_BURST_CFG.DISARM (R409). -/
def execBurstDisarm (k : Nat) (s : State) : Host.Outcome State Fault Refusal :=
  onBlock 17 k 64 s fun s => wr s F.MEM_BURST_CFG_STATE k 0

/-- MEM_BURST_CFG.FREEZE_NOW: an end event with a POST count of zero (R407). -/
def execFreezeNow (k : Nat) (s : State) : Host.Outcome State Fault Refusal := onBlock 17 k 64 s fun s => burstEnd s k 0

/-- An event of channel ch reaches MEM_END (consumer 48): the armed streams that name the channel take it (R407). -/
def memEnd (s : State) (ch : Nat) : State :=
  (List.range 64).foldl (fun s k =>
    if rd s F.MEM_BURST_CFG_END_CH k = ch then burstEnd s k (rd s F.MEM_BURST_POST_VALUE k) else s) s

def execBurstEndEvent (ch : Nat) (s : State) : Host.Outcome State Fault Refusal :=
  onUnit ch 48 s fun s => beaconArrives s 48 (· == ch) (fun _ => false) fun ch s => memEnd s ch

end Sys2Proof.Machine
end

