-- ==== Sys2Proof/Machine/Desc.lean ====
section
/-! DEFINITION. What a DMA descriptor's 64 bytes hold, frame tags, and the records that rings hold (spec/10, R411, R412;
spec/07, R298, R299; spec/11, R458). -/
namespace Sys2Proof.Machine

/-! ### Descriptors (R411, R412) -/

/-- A little-endian field of a descriptor. -/
def Desc.u (d : Desc) (off n : Nat) : Nat := leField d.bytes off n

def Desc.kind (d : Desc) : Nat := d.u 0 1
def Desc.early (d : Desc) : Bool := (d.u 1 1).testBit 0
def Desc.confirmed (d : Desc) : Bool := (d.u 1 1).testBit 1
def Desc.record (d : Desc) : Bool := (d.u 1 1).testBit 2
def Desc.waitIsp (d : Desc) : Bool := (d.u 1 1).testBit 3
def Desc.chan (d : Desc) : Nat := d.u 2 1
def Desc.xcode (d : Desc) : Nat := d.u 3 1 % 16
def Desc.xpar (d : Desc) : Nat := d.u 3 1 / 16
def Desc.cmplRing (d : Desc) : Nat := d.u 4 2 % 4096
def Desc.src (d : Desc) : Nat := d.u 8 8
def Desc.dst (d : Desc) : Nat := d.u 0x10 8
def Desc.length (d : Desc) : Nat := d.u 0x18 4
def Desc.rows (d : Desc) : Nat := d.u 0x1C 4
def Desc.srcStride (d : Desc) : Nat := d.u 0x20 4
def Desc.dstStride (d : Desc) : Nat := d.u 0x24 4
def Desc.planeOff (d : Desc) : Nat := d.u 0x28 4
def Desc.planeStride (d : Desc) : Nat := d.u 0x2C 4
def Desc.firstRow (d : Desc) : Nat := d.u 0x32 2
def Desc.srcX (d : Desc) : Nat := d.u 0x34 2
def Desc.lateNs (d : Desc) : Nat := d.u 0x38 4
def Desc.stream (d : Desc) : Nat := bitsOf d.src 48 6
def Desc.pipe (d : Desc) : Nat := bitsOf d.src 54 1
def Desc.output (d : Desc) : Nat := bitsOf d.src 55 2
def Desc.ctx (d : Desc) : Nat := bitsOf d.src 57 6

def dCOPY : Nat := 1
def dFRAME : Nat := 2
def dISPOUT : Nat := 3

/-- A space field: 0 LP5X, 1 SPM, 2 HOST, 3 a FRAME ring. -/
def dmaSpace (a : Nat) : Nat := bitsOf a 62 2

/-- The address in a space. -/
def dmaAddr (a : Nat) : Nat := a % 2 ^ 62

/-! ### Tags (R298) -/

/-- Word 0 of a frame's tag. -/
def tagWord0 (k q : Nat) (twin : Bool) : Nat := q % 2 ^ 48 + k * 2 ^ 48 + (if twin then 2 ^ 54 else 0) + 2 * 2 ^ 56

/-- The 64 bytes of a frame's tag (R298, R299). -/
def tagBytes (f : Frame) : List Nat :=
  toBytes 8 (tagWord0 f.stream f.seq f.twin) ++ toBytes 8 f.tbFs ++ toBytes 8 f.tbFe ++ toBytes 4 f.flags ++ toBytes 4 f.trigId
  ++ (List.range 4).flatMap (fun k => toBytes 6 (f.encPos.getD k 0)) ++ toBytes 2 f.width ++ toBytes 2 f.slots
  ++ [f.dt, f.verdict] ++ toBytes 2 (min f.crcErrs 0xFFFF)

/-- A tag that holds the selector alone: of a void record whose frame is not known. -/
def bareTag (k q : Nat) : List Nat :=
  toBytes 8 (tagWord0 k q false) ++ List.replicate 16 0 ++ toBytes 4 (2 ^ flVOIDED) ++ List.replicate 33 0 ++ [4] ++ [0, 0]

def dmaEvt (s : State) (c b : Nat) : State := setBit s F.DMA_CH_EVT_EVT c b

/-- The bytes of a record as it is written: a frame's tag as it stands then, DELIVERED_LATE by the instant of the write (R423,
R458). -/
def Rec.write (s : State) (r : Rec) : List Nat × State :=
  match r with
  | .bytes bs => (bs, s)
  | .tag k q c late ecc void =>
    match frameAt s k q with
    | none => (bareTag k q, s)
    | some f =>
      let isLate := late ≠ 0 && decide (f.tbFe + late < s.tb)
      let f := (f.flagIf isLate flLATE).flagIf ecc flECC
      (tagBytes (if void then { (f.flag flVOIDED) with verdict := 4 } else f),
        if isLate then dmaEvt (bump s F.DMA_CH_LATE_COUNT c) c 6 else s)

end Sys2Proof.Machine
end

