-- ==== Sys2Proof/Machine/Rng.lean ====
section
/-! DEFINITION. The ring engine (spec/11, R446, R450 to R467): indices, buoys, entry notices, records, entries. -/
namespace Sys2Proof.Machine

def ringAt (s : State) (n : Nat) : Ring := sget s.rings Ring.init n
def setRing (s : State) (n : Nat) (k : Ring) : State := { s with rings := sset s.rings Ring.init n k }

/-- The TYPE values of RNG_CFG. -/
def rFRAME : Nat := 0
def rCMPL : Nat := 1
def rCMD : Nat := 2
def rSTAT : Nat := 3
def rEVT : Nat := 4

def ringType (s : State) (n : Nat) : Nat := rd s F.RNG_CFG_TYPE n
def ringSize (s : State) (n : Nat) : Nat := 2 ^ rd s F.RNG_CFG_SIZE_LOG2 n

/-- The PCI function that owns ring n (R446). -/
def ringOwner (s : State) (n : Nat) : Nat := rd s F.RNG_CFG_OWNER n

/-- Ring n is enabled and not in ERROR. -/
def ringLive (s : State) (n : Nat) : Bool := domUp s 22 && isSet s F.RNG_CFG_EN n && !isSet s F.RNG_BUOY_STAT_ERROR n

/-- The host produces the entries of ring n. -/
def hostProduced (s : State) (n : Nat) : Bool := ringType s n == rFRAME || ringType s n == rCMD || ringType s n == rSTAT

/-- The level of ring n (R450). -/
def ringLevel (s : State) (n : Nat) : Nat := (rd s F.RNG_TAIL_INDEX n + 2 ^ 32 - rd s F.RNG_HEAD_INDEX n) % 2 ^ 32

def entryBytes (s : State) (n : Nat) : Nat := if ringType s n = rFRAME ∨ ringType s n = rCMPL then 64 else 32

/-- The host address of entry index i (R450). -/
def entryAddr (s : State) (n i : Nat) : Nat := rd s F.RNG_BASE_ADDR n + i % ringSize s n * entryBytes s n

/-! ### Index write-backs and notices (R454, R463) -/

/-- The index write-back that is due goes to RNG_WB (R454). -/
def indexWb (s : State) (n : Nat) : State :=
  let k := ringAt s n
  if !k.wb || !isSet s F.RNG_CFG_EN n || !isSet s F.RNG_CFG_WB_EN n then s
  else
    let idx := if hostProduced s n then rd s F.RNG_HEAD_INDEX n else rd s F.RNG_TAIL_INDEX n
    let l := ringLevel s n
    let fl := (if rd s F.RNG_BUOY_LVL_HIGH n ≤ l then 1 else 0) + (if l ≤ rd s F.RNG_BUOY_LVL_LOW n then 2 else 0)
      + 4 * rd s F.RNG_BUOY_STAT_ERROR n
    hostWrite (setRing s n { k with wb := false }) (ringOwner s n) (rd s F.RNG_WB_ADDR n) (toBytes 4 idx ++ toBytes 4 fl)

/-- The vector of ring n to its owner, after the index write-back that it follows (R440, R448). -/
def ringVector (s : State) (n : Nat) : State :=
  let s := indexWb s n
  sendMsix s (ringOwner s n) (rd s F.RNG_IRQ_VECTOR n)

/-- An entry notice (R463). -/
def entryNotice (s : State) (n : Nat) : State := ringVector (setRing s n { ringAt s n with count := 0, since := none }) n

/-- One more entry produced, or consumed on a host-produced ring (R463). -/
def countEntry (s : State) (n : Nat) : State :=
  if !isSet s F.RNG_IRQ_ENTRY_IRQ_EN n then s
  else
    let k := ringAt s n
    let s := setRing s n { k with count := k.count + 1, since := some (k.since.getD s.ns) }
    if rd s F.RNG_IRQ_COAL_COUNT n ≤ k.count + 1 then entryNotice s n else s

/-! ### Buoys (R464 to R466) -/

/-- One buoy of ring n is crossed (R465). -/
def buoyCross (s : State) (n : Nat) (sticky pend cnt : Field) : State :=
  let was := isSet s pend n
  let s := bump (wr (wr s sticky n 1) pend n 1) cnt n
  if isSet s F.RNG_IRQ_BUOY_IRQ_EN n && !was then ringVector s n else s

/-- An index update led ring n from level `old` to its present level (R464 to R466). -/
def buoys (s : State) (n old : Nat) : State :=
  let new := ringLevel s n
  let hi := rd s F.RNG_BUOY_LVL_HIGH n
  let lo := rd s F.RNG_BUOY_LVL_LOW n
  let s := wr s F.RNG_BUOY_PEAK_LEVEL n (max (rd s F.RNG_BUOY_PEAK_LEVEL n) new)
  let s := wr s F.RNG_BUOY_TROUGH_LEVEL n (min (rd s F.RNG_BUOY_TROUGH_LEVEL n) new)
  let s := if isSet s F.RNG_CFG_HIGH_EN n && decide (old < hi) && decide (hi ≤ new)
    then buoyCross (setRing s n { ringAt s n with hiAt := some s.ns }) n F.RNG_BUOY_STAT_HIGH_STICKY
      F.RNG_BUOY_STAT_HIGH_PEND F.RNG_BUOY_CNT_HIGH_CNT
    else s
  if isSet s F.RNG_CFG_LOW_EN n && decide (lo < old) && decide (new ≤ lo)
    then buoyCross (setRing s n { ringAt s n with loAt := some s.ns }) n F.RNG_BUOY_STAT_LOW_STICKY
      F.RNG_BUOY_STAT_LOW_PEND F.RNG_BUOY_CNT_LOW_CNT
    else s

/-- The device-owned index of ring n advances by one (R454, R463, R464). -/
def advanceRing (s : State) (n : Nat) : State :=
  let old := ringLevel s n
  let s := if hostProduced s n then wr s F.RNG_HEAD_INDEX n (rd s F.RNG_HEAD_INDEX n + 1)
    else wr s F.RNG_TAIL_INDEX n (rd s F.RNG_TAIL_INDEX n + 1)
  let s := setRing s n { ringAt s n with wb := isSet s F.RNG_CFG_WB_EN n }
  countEntry (buoys s n old) n

/-! ### Records (R455, R456, R459, R462) -/

/-- Write a record at TAIL of ring n. -/
def putEntry (s : State) (n : Nat) (bs : List Nat) : State :=
  advanceRing (hostWrite s (ringOwner s n) (entryAddr s n (rd s F.RNG_TAIL_INDEX n)) bs) n

/-- Ring n has room for a record. -/
def ringRoom (s : State) (n : Nat) : Bool := decide (ringLevel s n < ringSize s n)

/-- Write a completion record at TAIL of ring n (R458). -/
def putRec (s : State) (n : Nat) (r : Rec) : State :=
  let (bs, s) := r.write s
  putEntry s n bs

/-- The record queue is full (R459). -/
def recQFull (s : State) : Bool := decide (1024 ≤ s.recQ.length)

/-- A record for ring n finds neither room in the ring nor a place in the record queue (R459). -/
def recordWaits (s : State) (n : Nat) : Bool :=
  recQFull s && ringLive s n && ringType s n == rCMPL && !(ringRoom s n && !(s.recQ.any fun e => e.1 == n))

/-- A completion record for ring n: written in order, queued while the ring is full, lost where it is disabled or in ERROR
(R455, R456, R459). -/
def cmplRecord (s : State) (n : Nat) (r : Rec) : State :=
  if !ringLive s n || ringType s n ≠ rCMPL then bump s F.RNG_LOST_COUNT n
  else if ringRoom s n && !(s.recQ.any fun e => e.1 == n) then putRec s n r
  else { s with recQ := s.recQ ++ [(n, r)] }

/-- The queued records of ring n go out while it has room. -/
def flushRecords (fuel : Nat) (s : State) (n : Nat) : State :=
  match fuel with
  | 0 => s
  | fuel + 1 =>
    match s.recQ.find? fun r => r.1 == n with
    | none => s
    | some r =>
      if ringLive s n && ringRoom s n then flushRecords fuel (putRec { s with recQ := s.recQ.erase r } n r.2) n else s

/-- The records queued for ring n are lost (R455, R456). -/
def loseRecords (s : State) (n : Nat) : State :=
  let c := (s.recQ.filter fun r => r.1 == n).length + (ringAt s n).stats.length
  let s := setRing s n { ringAt s n with stats := [] }
  bumpBy { s with recQ := s.recQ.filter fun r => r.1 ≠ n } F.RNG_LOST_COUNT n c

/-- An EVT record of KIND `kind` for ring n, at TB `tb` (R462). -/
def evtRecord (s : State) (n kind source tb detail : Nat) : State :=
  let k := ringAt s n
  if !ringLive s n || ringType s n ≠ rEVT then bump s F.RNG_LOST_COUNT n
  else if !ringRoom s n then bump (setRing s n { k with lost := min (k.lost + 1) 0xFFFF }) F.RNG_LOST_COUNT n
  else
    let bs := [kind, source] ++ toBytes 2 k.lost ++ toBytes 4 k.recno ++ toBytes 8 tb ++ toBytes 4 detail
      ++ List.replicate 12 0
    putEntry (setRing s n { k with lost := 0, recno := (k.recno + 1) % 2 ^ 32 }) n bs

/-- Ring n enters ERROR with a CODE (R455, R462). -/
def ringError (s : State) (n code : Nat) : State :=
  let s := wr (wr s F.RNG_BUOY_STAT_ERROR n 1) F.RNG_ERR_CODE n code
  let s := loseRecords (setRing s n { ringAt s n with fetched := [], wb := isSet s F.RNG_CFG_WB_EN n }) n
  let s := if isSet s F.HIF_RING_ERR_FIRST_VALID then s
    else wr (wr s F.HIF_RING_ERR_FIRST_RING 0 n) F.HIF_RING_ERR_FIRST_VALID 0 1
  if isSet s F.HIF_RING_ERR_ROUTE_EN then evtRecord s (rd s F.HIF_RING_ERR_ROUTE_RING) 2 0 s.tb n else s

/-! ### Entries the host produces (R453, R457, R461) -/

/-- A host read ends in error: counted (R438). -/
def cplError (s : State) (timeout : Bool) : State :=
  if timeout then setBit (bump s F.HIF_CPL_TIMEOUT_COUNT) F.HIF_EVT_EVT 0 3
  else setBit (bump s F.HIF_POISONED_COUNT) F.HIF_EVT_EVT 0 4

/-- The entry at HEAD of ring n, once fetched. -/
def headEntry (s : State) (n : Nat) : Option (List Nat) := if ringLive s n then (ringAt s n).fetched.head? else none

/-- The entry at HEAD is consumed. -/
def consumeEntry (s : State) (n : Nat) : State :=
  let k := ringAt s n
  advanceRing (setRing s n { k with fetched := k.fetched.drop 1 }) n

/-- The entry at HEAD is written back at offset `off`. -/
def entryWb (s : State) (n off : Nat) (bs : List Nat) : State :=
  hostWrite s (ringOwner s n) (entryAddr s n (rd s F.RNG_HEAD_INDEX n) + off) bs

/-- A statistics record of 8,192 bytes goes into the buffer of the STAT entry `e` at HEAD of ring n (R461). -/
def putStat (s : State) (n : Nat) (e bs : List Nat) : State :=
  let addr := leField e 0 8
  if leField e 8 4 < 8192 || addr % 64 ≠ 0 then consumeEntry (entryWb (entryWb s n 0x0C [1]) n 0x18 (List.replicate 8 0)) n
  else
    let s := hostWrite s (ringOwner s n) addr bs
    consumeEntry (entryWb (entryWb s n 0x0C [0]) n 0x18 (bs.take 8)) n

/-- A statistics record goes to STAT ring n; whether the ring had a posted entry for it. A record whose entry has not been
fetched yet waits for it (R337, R453, R461). -/
def statRecord (s : State) (n : Nat) (bs : List Nat) : Bool × State :=
  let k := ringAt s n
  if !ringLive s n || ringType s n ≠ rSTAT || decide (ringLevel s n ≤ k.stats.length) then (false, s)
  else match if k.stats.isEmpty then headEntry s n else none with
    | some e => (true, putStat s n e bs)
    | none => (true, setRing s n { k with stats := k.stats ++ [bs] })

/-- The records that wait take the entries that have been fetched. -/
def drainStats (fuel : Nat) (s : State) (n : Nat) : State :=
  match fuel with
  | 0 => s
  | fuel + 1 => match (ringAt s n).stats, headEntry s n with
    | bs :: rest, some e => drainStats fuel (putStat (setRing s n { ringAt s n with stats := rest }) n e bs) n
    | _, _ => s

/-- An entry of ring n returns from host memory (R453). -/
def entryFetched (s : State) (n : Nat) (bs : List Nat) : State :=
  let k := ringAt s n
  if ringLive s n && hostProduced s n && isSet s F.HIF_LINK_STATUS_UP && decide (k.fetched.length < 16)
      && decide (k.fetched.length < ringLevel s n) && bs.length == entryBytes s n
  then drainStats 16 (setRing s n { k with fetched := k.fetched ++ [bs.map fun b => b % 256] }) n else s

/-! ### Host writes (R451, R452, R467) -/

/-- VFk is enabled (R443). -/
def vfEnabled (s : State) (k : Nat) : Bool := s.vfEnable && decide (0 < k) && decide (k ≤ s.numVfs)

/-- The function of master `mid` responds: the PF, or a VF that is enabled (R443). -/
def fnResponds (s : State) (mid : Nat) : Bool := fnOf mid == 0 || vfEnabled s (fnOf mid)

/-- The MID `mid` reaches ring n: the PF and the cores through BAR 0, a VF through its window where it owns the ring (R444,
R445). -/
def reachesRing (s : State) (mid n : Nat) : Bool := fnOf mid == 0 || fnOf mid == ringOwner s n

/-- An access of master `mid` to the context of ring n: a function that does not respond has no effect, and a VF's access to a ring
of another is refused (R443, R445). -/
def ringAccess (s : State) (mid n : Nat) (f : State → State) : State :=
  if !domReach s 22 || !fnResponds s mid then s else if !reachesRing s mid n then secRefuse s mid n true else f s

/-- A host index write to ring n is discarded (R452). -/
def dbError (s : State) (n : Nat) : State :=
  setBit (bump (bump s F.RNG_DB_ERR_COUNT n) F.HIF_DB_ERR_COUNT) F.HIF_EVT_EVT 0 6

/-- Set the host-owned index of ring n (R452). -/
def setHostIndex (s : State) (n v : Nat) : State :=
  let old := ringLevel s n
  let tail := rd s F.RNG_TAIL_INDEX n
  let head := rd s F.RNG_HEAD_INDEX n
  if hostProduced s n then
    if ringSize s n < (v + 2 ^ 32 - head) % 2 ^ 32 then dbError s n
    else if v = tail then s
    else
      let s := buoys (wr s F.RNG_TAIL_INDEX n v) n old
      let k := ringAt s n
      setRing s n { k with fetched := k.fetched.take (ringLevel s n) }
  else if old < (v + 2 ^ 32 - head) % 2 ^ 32 then dbError s n
  else if v = head then s
  else flushRecords 1024 (buoys (wr s F.RNG_HEAD_INDEX n v) n old) n

/-- A context write to an index of ring n while EN is 0: the index is set; the extremes follow the level (R451, R466). -/
def indexPlain (s : State) (n : Nat) (f : Field) (v : Nat) : State :=
  let s := wr s f n v
  let l := ringLevel s n
  let s := wr s F.RNG_BUOY_PEAK_LEVEL n (max (rd s F.RNG_BUOY_PEAK_LEVEL n) l)
  wr s F.RNG_BUOY_TROUGH_LEVEL n (min (rd s F.RNG_BUOY_TROUGH_LEVEL n) l)

/-- A doorbell (through the function's BAR 2) or a context write of master `mid` to the host-owned index (R445, R451, R452). -/
def hostIndexWrite (s : State) (mid n val : Nat) (bar2 : Bool) : State :=
  let val := val % 2 ^ 32
  if !domReach s 22 || !fnResponds s mid then s
  else if !bar2 && !reachesRing s mid n then secRefuse s mid n true
  else if !bar2 && !isSet s F.RNG_CFG_EN n then
    indexPlain s n (if hostProduced s n then F.RNG_TAIL_INDEX else F.RNG_HEAD_INDEX) val
  else if !ringLive s n || (bar2 && fnOf mid ≠ ringOwner s n) then dbError s n
  else setHostIndex s n val

def execHostIndexWrite (mid ring val : Nat) (bar2 : Bool) (s : State) : Host.Outcome State Fault Refusal :=
  onBlock 18 ring 4096 s fun s => hostIndexWrite s mid ring val bar2

/-- The acknowledgement of one buoy of ring n: its pending bit clears. Where the buoy was crossed in this same cycle the bit stays 1
and the vector goes out again (R467; the cycle is taken as the nanosecond of the event, log 101). -/
def buoyPendAck (s : State) (n : Nat) (pend : Field) (crossed : Option Nat) : State :=
  if !isSet s pend n then s
  else if crossed == some s.ns then (if isSet s F.RNG_IRQ_BUOY_IRQ_EN n then ringVector s n else s)
  else wr s pend n 0

/-- A write of `mask` to RNG_BUOY_STAT: the sticky and pending bits it names clear (R467). -/
def buoyAck (s : State) (mid n mask : Nat) : State :=
  ringAccess s mid n fun s =>
    let s := if mask.testBit 0 then wr s F.RNG_BUOY_STAT_HIGH_STICKY n 0 else s
    let s := if mask.testBit 1 then wr s F.RNG_BUOY_STAT_LOW_STICKY n 0 else s
    let s := if mask.testBit 4 then buoyPendAck s n F.RNG_BUOY_STAT_HIGH_PEND (ringAt s n).hiAt else s
    if mask.testBit 5 then buoyPendAck s n F.RNG_BUOY_STAT_LOW_PEND (ringAt s n).loAt else s

def execBuoyAck (mid ring mask : Nat) (s : State) : Host.Outcome State Fault Refusal :=
  onBlock 18 ring 4096 s fun s => buoyAck s mid ring mask

/-- A read of RNG_BUOY_CNT clears both counts (R466). -/
def buoyCntRead (s : State) (mid n : Nat) : State :=
  ringAccess s mid n fun s => wr (wr s F.RNG_BUOY_CNT_HIGH_CNT n 0) F.RNG_BUOY_CNT_LOW_CNT n 0

def execBuoyCntRead (mid ring : Nat) (s : State) : Host.Outcome State Fault Refusal :=
  onBlock 18 ring 4096 s fun s => buoyCntRead s mid ring

/-- A write of EN = 1 is refused (R451). -/
def ringEnRefused (s : State) (n : Nat) : Bool :=
  let o := ringOwner s n
  decide (rd s F.RNG_BASE_ADDR n % 4096 ≠ 0)
  || (isSet s F.RNG_CFG_WB_EN n && decide (rd s F.RNG_WB_ADDR n % 8 ≠ 0))
  || decide (ringSize s n < ringLevel s n)
  || (o ≠ 0 && !vfEnabled s o)
  || (o ≠ 0 && rd s F.RNG_CFG_ATTR n == 0)

def ringCfgErr (s : State) (n : Nat) : State := wr s F.RNG_ERR_CFG_ERR n 1

/-- Ring n is disabled: it takes no entry, and the records due to it are lost (R456). -/
def ringDisable (s : State) (n : Nat) : State :=
  loseRecords (setRing (wr s F.RNG_CFG_EN n 0) n { ringAt s n with fetched := [], wb := false, count := 0, since := none }) n

/-- Ring n is enabled (R451, R455). -/
def ringEnable (s : State) (n : Nat) : State :=
  let s := wr (wr (wr s F.RNG_CFG_EN n 1) F.RNG_LOST_COUNT n 0) F.RNG_DB_ERR_COUNT n 0
  setRing (wr (wr s F.RNG_BUOY_STAT_ERROR n 0) F.RNG_ERR_CODE n 0) n Ring.init

/-- The fields of RNG_CFG beside EN, with the bits of a word. -/
def ringCfgFields : List Field :=
  [F.RNG_CFG_TYPE, F.RNG_CFG_SIZE_LOG2, F.RNG_CFG_ATTR, F.RNG_CFG_OWNER, F.RNG_CFG_WB_EN, F.RNG_CFG_ERR_IRQ_EN,
   F.RNG_CFG_HIGH_EN, F.RNG_CFG_LOW_EN]

/-- One field of a RNG_CFG write: out of range it stays and sets CFG_ERR (R623); a VF leaves OWNER and ATTR (R445). -/
def ringCfgField (mid val : Nat) (n : Nat) (s : State) (f : Field) : State :=
  let v := bitsOf val f.lo f.width
  if fnOf mid ≠ 0 && (f.fid == F.RNG_CFG_OWNER.fid || f.fid == F.RNG_CFG_ATTR.fid) then s
  else if v = rd s f n then s
  else if v < f.least || f.greatest < v then ringCfgErr s n
  else wr s f n v

/-- A write of `val` to RNG_CFG by master `mid`; the index write-back that is due goes
out before EN clears; a refused write of EN = 1 is discarded whole (R445, R451, R454, R456; log 67). -/
def ringCfgWrite (s : State) (mid n val : Nat) : State :=
  ringAccess s mid n fun s =>
  if isSet s F.RNG_CFG_EN n then
    let s := if ringCfgFields.any fun f => bitsOf val f.lo f.width ≠ rd s f n then ringCfgErr s n else s
    if val.testBit 0 then s else ringDisable (indexWb s n) n
  else
    let t := ringCfgFields.foldl (ringCfgField mid val n) s
    if !val.testBit 0 then t else if ringEnRefused t n then ringCfgErr s n else ringEnable t n

def execRingCfgWrite (mid ring val : Nat) (s : State) : Host.Outcome State Fault Refusal :=
  onBlock 18 ring 4096 s fun s => ringCfgWrite s mid ring val

/-! ### Commands of the engine -/

def execRingEntryFetched (ring : Nat) (bytes : List Nat) (s : State) : Host.Outcome State Fault Refusal :=
  onBlock 18 ring 4096 s fun s => entryFetched s ring bytes

def execRingIndexWb (ring : Nat) (s : State) : Host.Outcome State Fault Refusal := onBlock 18 ring 4096 s fun s => indexWb s ring

/-- COAL_US has passed since the first entry not yet noticed (R463). -/
def coalTimeout (s : State) (n : Nat) : State :=
  match (ringAt s n).since with
  | some t =>
    if isSet s F.RNG_IRQ_ENTRY_IRQ_EN n && rd s F.RNG_IRQ_COAL_US n ≠ 0 && decide (t + rd s F.RNG_IRQ_COAL_US n * 1000 ≤ s.ns)
    then entryNotice s n else s
  | none => s

def execRingCoalTimeout (ring : Nat) (s : State) : Host.Outcome State Fault Refusal :=
  onBlock 18 ring 4096 s fun s => coalTimeout s ring

/-- An event reaches RNG_EVT_i (consumer 32 + i): a BEACON record to the ring that HIF_EVT_ROUTE_i names; the consumer is
busy until the event is taken (R462, R488). -/
def rngEvt (s : State) (i ch : Nat) : State :=
  let s := { s with bcnBusy := sset s.bcnBusy false (32 + i) true }
  if isSet s F.HIF_EVT_ROUTE_EN i then evtRecord s (rd s F.HIF_EVT_ROUTE_RING i) 1 ch s.tb 0 else s

def execRngEvtEvent (i : Nat) (s : State) : Host.Outcome State Fault Refusal :=
  onUnit i 16 s fun s => beaconArrives s (32 + i) (fun _ => true) (fun t => sget t.bcnBusy false (32 + i)) fun ch s => rngEvt s i ch

end Sys2Proof.Machine
end

