-- ==== Sys2Proof/Machine/IspCfg.lean ====
section
/-! DEFINITION. What a context of a pipeline is set to: its due rule, its validation, its parameters and its output slots
(spec/08, R309 to R337). Every function reads the registers of the state it is given: the present ones, or those latched at a
frame's start (R345). -/
namespace Sys2Proof.Machine

def ispAt (s : State) (p : Nat) : Isp := sget s.isp Isp.init p
def setIsp (s : State) (p : Nat) (k : Isp) : State := { s with isp := sset s.isp Isp.init p k }

/-- The instance of a context register. -/
def ctxI (p c : Nat) : Nat := 64 * p + c

def ispMode (s : State) (p : Nat) : Nat := if domUp s (16 + p) then rd s F.ISP_CTL_MODE p else 0
def ispOFF : Nat := 0
def ispINLINE : Nat := 1
def ispSHARED : Nat := 2

def ispEvt (s : State) (p b : Nat) : State := setBit s F.ISP_EVT_EVT p b

/-- FRAME_DIV, which is at least 1. -/
def frameDiv (s : State) (p c : Nat) : Nat := max 1 (rd s F.ISP_CTX_SRC_FRAME_DIV (ctxI p c))

/-- FORM of the exposure merge (R316). -/
def mergeForm (s : State) (p c : Nat) : Nat := rd s F.ISP_CTX_MERGE_FORM (ctxI p c)

/-- The number of exposures N. -/
def mergeN (s : State) (p c : Nat) : Nat := max 1 (rd s F.ISP_CTX_MERGE_N (ctxI p c))

/-- What takes the place of SEQ q in the due rule and in the output slot rule (R316). -/
def ispIndex (s : State) (p c q : Nat) : Nat := if mergeForm s p c = 2 then q / mergeN s p c else q

/-- Context c of pipeline p takes stream k and is due for SEQ q (R314, R316); the frame is the job's exposure 0. -/
def ispDue (s : State) (p c k q : Nat) : Bool :=
  isSet s F.ISP_CTX_CFG_EN (ctxI p c) && isSet s F.ISP_CTX_SRC_AUTO (ctxI p c)
  && rd s F.ISP_CTX_SRC_STREAM (ctxI p c) == k
  && (mergeForm s p c ≠ 2 || q % mergeN s p c == 0)
  && ispIndex s p c q % frameDiv s p c == rd s F.ISP_CTX_SRC_FRAME_PHASE (ctxI p c)
  && (ispMode s p == ispSHARED || (ispMode s p == ispINLINE && rd s F.ISP_CTL_INLINE_CTX p == c))

/-! ### Parameters -/

/-- A byte of the tables of a pipeline exists: the points of a LUT slot, the nodes of a shading slot, the defect map (R351). -/
def ispTableByte (r : Nat) : Bool :=
  if r < 0x31000 then decide ((r - 0x20000) % 0x1100 < 4100)
  else if r < 0x32000 then false
  else if r < 0x44000 then decide ((r - 0x32000) % 0x2400 % 0x900 < 2178)
  else decide (0x80000 ≤ r) && decide (r < 0xC0000)

/-- The bits of such a byte that are kept: a LUT point has 25. -/
def ispTableMask (r : Nat) : Nat := if r < 0x31000 ∧ (r - 0x20000) % 0x1100 % 4 = 3 then 1 else 255

/-- A byte of the tables of pipeline p, at a window offset. -/
def ispByte (s : State) (p r : Nat) : Nat :=
  if ispTableByte r then (ramByte s (memISP p) s.ispMem (p * 0x100000 + r)).toNat &&& ispTableMask r else 0

/-- A little-endian value of `n` bytes of the tables of pipeline p, at a window offset. -/
def ispTable (s : State) (p off n : Nat) : Nat := ofBytes ((List.range n).map fun i => ispByte s p (off + i))

def ispCcm (s : State) (p c : Nat) : List Int :=
  [F.ISP_CTX_CCM_0_LOW, F.ISP_CTX_CCM_0_HIGH, F.ISP_CTX_CCM_1_LOW, F.ISP_CTX_CCM_1_HIGH, F.ISP_CTX_CCM_2_LOW,
   F.ISP_CTX_CCM_2_HIGH, F.ISP_CTX_CCM_3_LOW, F.ISP_CTX_CCM_3_HIGH, F.ISP_CTX_CCM_4_LOW, F.ISP_CTX_CCM_4_HIGH,
   F.ISP_CTX_CCM_5_LOW, F.ISP_CTX_CCM_5_HIGH].map fun f => toSigned 16 (rd s f (ctxI p c))

/-- The parameters of the stages for a frame of `w` × `h` processed lines in a geometry `hGeo` lines high: registers from
`s`, tables from `m` (R345). -/
def ispPar (s m : State) (p c w h hGeo : Nat) : IspPar :=
  let i := ctxI p c
  let lutBase := 0x20000 + 0x1100 * rd s F.ISP_CTX_LIN_LUT_SLOT i
  let shBase := 0x32000 + 0x2400 * rd s F.ISP_CTX_SHADE_SHADE_SLOT i
  { w := w, h := h, hGeo := hGeo
    mosaic := rd s F.ISP_CTX_CFG_MOSAIC i
    phase := rd s F.ISP_CTX_CFG_CFA_PHASE i
    blackFirst := isSet s F.ISP_CTX_CFG_ORDER i
    edge := isSet s F.ISP_CTX_CFG_DEMOSAIC i
    satLevel := rd s F.ISP_CTX_SAT_LEVEL i
    linEn := isSet s F.ISP_CTX_LIN_LIN_EN i
    lut := fun k => ispTable m p (lutBase + 4 * k) 4 % 2 ^ 25
    ratio := [256, rd s F.ISP_CTX_RATIO_RATIO_1 i, rd s F.ISP_CTX_RATIO_RATIO_2 i]
    thr := [rd s F.ISP_CTX_THR_VALUE (2 * i), rd s F.ISP_CTX_THR_VALUE (2 * i + 1)]
    blend := rd s F.ISP_CTX_BLEND_VALUE i
    black := (List.range 4).map fun k => rd s F.ISP_CTX_BLACK_VALUE (4 * i + k)
    dynEn := isSet s F.ISP_CTX_DEFECT_DYN_EN i
    dynThr := rd s F.ISP_CTX_DYN_THRESH_VALUE i
    shadeEn := isSet s F.ISP_CTX_SHADE_SHADE_EN i
    gain := fun ch x y => ispTable m p (shBase + 0x900 * ch + 2 * (33 * y + x)) 2
    irK := [rd s F.ISP_CTX_IRSUB_0_LOW i, rd s F.ISP_CTX_IRSUB_0_HIGH i, rd s F.ISP_CTX_IRSUB_1_LOW i]
    ccm := ispCcm s p c
    luma := [rd s F.ISP_CTX_LUMA_0_LOW i, rd s F.ISP_CTX_LUMA_0_HIGH i, rd s F.ISP_CTX_LUMA_1_LOW i] }

def outPar (s : State) (p c : Nat) : OutPar :=
  let i := ctxI p c
  { dispFmt := rd s F.ISP_CTX_DISP_FMT i
    dispTone := rd s F.ISP_CTX_DISP_TONE i
    dispShift := rd s F.ISP_CTX_DISP_SHIFT i
    dx := rd s F.ISP_CTX_DISP_DECIM_X1 i + 1
    dy := rd s F.ISP_CTX_DISP_DECIM_Y1 i + 1
    ten := isSet s F.ISP_CTX_CODE_DEPTH i
    codeTone := rd s F.ISP_CTX_CODE_TONE i
    codeShift := rd s F.ISP_CTX_CODE_SHIFT i
    full := isSet s F.ISP_CTX_CODE_RANGE i
    visFmt := rd s F.ISP_CTX_VIS_FMT i
    visShift := rd s F.ISP_CTX_VIS_SHIFT i
    x0 := rd s F.ISP_CTX_VIS_XY_X0 i
    y0 := rd s F.ISP_CTX_VIS_XY_Y0 i
    vw := rd s F.ISP_CTX_VIS_WH_W i
    vh := rd s F.ISP_CTX_VIS_WH_H i }

def statPar (s : State) (p c : Nat) : StatPar :=
  let i := ctxI p c
  { x0 := rd s F.ISP_CTX_STAT_XY_X0 i
    y0 := rd s F.ISP_CTX_STAT_XY_Y0 i
    sw := rd s F.ISP_CTX_STAT_WH_W i
    sh := rd s F.ISP_CTX_STAT_WH_H i
    histShift := rd s F.ISP_CTX_STAT_HIST_SHIFT i }

/-- Output o of a context is enabled: 0 DISPLAY, 1 CODING, 2 VISION (R328). -/
def outEnabled (s : State) (p c o : Nat) : Bool :=
  match o with
  | 0 => isSet s F.ISP_CTX_OUT_EN_DISP_EN (ctxI p c)
  | 1 => isSet s F.ISP_CTX_OUT_EN_CODE_EN (ctxI p c)
  | 2 => isSet s F.ISP_CTX_OUT_EN_VIS_EN (ctxI p c)
  | _ => false

/-- The LP5X address of the output slot of the frame with index `g` (R332, R316). -/
def outAddr (s : State) (p c o g : Nat) : Nat :=
  let i := 3 * ctxI p c + o
  let slot := rd s F.ISP_CTX_OUT_SIZE_SLOT_LOG2 i
  rd s F.ISP_CTX_OUT_BASE_BASE i
    + g / frameDiv s p c % 2 ^ (rd s F.ISP_CTX_OUT_SIZE_SIZE_LOG2 i - slot) * 2 ^ slot

/-! ### The static defect map (R320) -/

/-- One entry after the entry before it: what the list makes of it. -/
def defectEntry (w h e : Nat) (acc : List (Nat × Nat × Nat) × Nat × Option Nat × Bool) :
    List (Nat × Nat × Nat) × Nat × Option Nat × Bool :=
  let (out, bad, prev, ended) := acc
  let x := bitsOf e 0 14
  let y := bitsOf e 14 14
  let kind := bitsOf e 28 2
  let pos := y * 16384 + x
  if ended || kind == 3 then (out, bad, prev, true)
  else if w ≤ x || h ≤ y then (out, bad, some pos, false)
  else if (match prev with | some q => decide (pos ≤ q) | none => false) then (out, bad + 1, some pos, false)
  else (out ++ [(kind, x, y)], bad, some pos, false)

/-- The static defects of a frame, as (KIND, X, Y), and how many entries were out of order. -/
def defectList (s m : State) (p c w h : Nat) : List (Nat × Nat × Nat) × Nat :=
  let i := ctxI p c
  if !isSet s F.ISP_CTX_DEFECT_STATIC_EN i then ([], 0)
  else
    let base := rd s F.ISP_CTX_DEFECT_DEF_BASE i
    let n := min (rd s F.ISP_CTX_DEF_LEN_DEF_LEN i) (65536 - base)
    let r := (List.range n).foldl (fun a k => defectEntry w h (ispTable m p (0x80000 + 4 * (base + k)) 4) a)
      ([], 0, none, false)
    (r.1, r.2.1)

/-- A pixel is a static defect. -/
def isStatic (ds : List (Nat × Nat × Nat)) (x y : Nat) : Bool :=
  ds.any fun d =>
    match d.1 with
    | 0 => d.2.1 == x && d.2.2 == y
    | 1 => d.2.1 == x && decide (d.2.2 ≤ y)
    | _ => d.2.2 == y && decide (d.2.1 ≤ x)

/-! ### Validation (the ERR codes of ISP_CTX_STATUS) -/

/-- Stream k carries frames of the same geometry and data type as stream j (R316). -/
def sameGeometry (s : State) (j k : Nat) : Bool :=
  rd s F.PKT_GEOM_WIDTH j == rd s F.PKT_GEOM_WIDTH k && rd s F.PKT_GEOM_HEIGHT j == rd s F.PKT_GEOM_HEIGHT k
  && rd s F.PKT_MAP_DT j == rd s F.PKT_MAP_DT k

/-- The partner streams of a STREAMS merge. -/
def partners (s : State) (p c : Nat) : List Nat :=
  if mergeForm s p c ≠ 1 then []
  else [rd s F.ISP_CTX_MERGE_STREAM_1 (ctxI p c), rd s F.ISP_CTX_MERGE_STREAM_2 (ctxI p c)].take (mergeN s p c - 1)

def strideBad (s : State) (p c : Nat) : Bool :=
  let h := rd s F.ISP_CTX_STRIPE_STRIPE_H (ctxI p c)
  isSet s F.ISP_CTX_CFG_STRIPED (ctxI p c)
  && (decide (h < 16) || decide (512 < h) || h % tileSide (rd s F.ISP_CTX_CFG_MOSAIC (ctxI p c)) ≠ 0 || h % 2 ≠ 0
    || (outEnabled s p c 0 && h % (outPar s p c).dy ≠ 0))

def cropBad (s : State) (p c w h : Nat) : Bool :=
  let o := outPar s p c
  let t := statPar s p c
  (outEnabled s p c 2 && (decide (w < o.x0 + o.vw) || decide (h < o.y0 + o.vh)))
  || (isSet s F.ISP_CTX_OUT_EN_STAT_EN (ctxI p c)
    && (decide (w < t.x0 + t.sw) || decide (h < t.y0 + t.sh) || decide (t.sw < 16) || decide (t.sh < 16)))

def mergeBad (s : State) (p c k : Nat) : Bool :=
  (mergeForm s p c == 0 && mergeN s p c ≠ 1)
  || (mergeForm s p c ≠ 0 && ispMode s p == ispINLINE && rd s F.ISP_CTL_INLINE_CTX p == c)
  || (partners s p c).any fun j => !sameGeometry s k j

def slotBad (s : State) (p c w h : Nat) : Bool :=
  let par := ispPar s s p c w h h
  (List.range 3).any fun o =>
    let i := 3 * ctxI p c + o
    let size := rd s F.ISP_CTX_OUT_SIZE_SIZE_LOG2 i
    let slot := rd s F.ISP_CTX_OUT_SIZE_SLOT_LOG2 i
    outEnabled s p c o && (decide (size < slot) || rd s F.ISP_CTX_OUT_BASE_BASE i % 2 ^ size ≠ 0
      || decide (2 ^ slot < outBytes par (outPar s p c) o))

/-- The validation of context c for stream k: 0, or the least ERR code whose check fails (log 35 for their order). -/
def ispValidate (s : State) (p c k : Nat) : Nat :=
  let w := rd s F.PKT_GEOM_WIDTH k
  let h := rd s F.PKT_GEOM_HEIGHT k
  let t := tileSide (rd s F.ISP_CTX_CFG_MOSAIC (ctxI p c))
  if (rawBits (rd s F.PKT_MAP_DT k)).isNone then 1
  else if w < 16 || h < 16 || w % t ≠ 0 || h % t ≠ 0 || isSet s F.PKT_SCFG_GEOM_LEARN k then 2
  else if outEnabled s p c 0 && decide (4096 < w / (outPar s p c).dx) then 3
  else if ispMode s p == ispSHARED && strideBad s p c then 4
  else if cropBad s p c w h then 5
  else if mergeBad s p c k then 6
  else if slotBad s p c w h then 7
  else if outEnabled s p c 2 && (outPar s p c).visFmt == 2 && rd s F.ISP_CTX_CFG_MOSAIC (ctxI p c) ≠ 1 then 8
  else if !isSet s F.PKT_MAP_EN k then 9
  else 0

end Sys2Proof.Machine
end

