-- ==== Sys2Proof/Machine/PodMath.lean ====
section
/-! DEFINITION. What a pod computes, bit for bit (spec/09, R357 to R376): FP16 and FP32 arithmetic, layer records and their
checks, tensors and their compression, convolutions, sums, post-processing, and verdicts. Pure functions of bytes. -/
namespace Sys2Proof.Machine

/-! ### Floating point -/

inductive FpKind where
  | finite | inf | nan
  deriving DecidableEq, Repr

/-- A floating-point number: its sign, and where it is finite its magnitude in units of 2^-149, the least step of FP32. -/
structure Fp where
  kind : FpKind
  neg : Bool
  mag : Nat
  deriving DecidableEq, Repr

def Fp.zero : Fp := ⟨.finite, false, 0⟩
def Fp.nan : Fp := ⟨.nan, false, 0⟩

/-- m ÷ 2^sh, rounded to nearest, ties to even. -/
def rneShift (m sh : Nat) : Nat :=
  let q := m / 2 ^ sh
  let r := m % 2 ^ sh
  if 2 ^ sh < 2 * r ∨ (2 * r = 2 ^ sh ∧ q % 2 = 1) then q + 1 else q

/-- The number of bits of a magnitude. -/
def bitLen (m : Nat) : Nat := if m = 0 then 0 else Nat.log2 m + 1

/-- The magnitude m × 2^-(149 + e) rounded to FP32. -/
def fp32Round (neg : Bool) (m e : Nat) : Fp :=
  let sh := max e (bitLen m - 24)
  let v := rneShift m sh * 2 ^ (sh - e)
  if 2 ^ 277 ≤ v then ⟨.inf, neg, 0⟩ else ⟨.finite, neg, v⟩

/-- The signed magnitude of a finite number. -/
def Fp.toInt (a : Fp) : Int := if a.neg then -(a.mag : Int) else a.mag

/-- FP32 addition, to nearest even. -/
def fpAdd (a b : Fp) : Fp :=
  match a.kind, b.kind with
  | .nan, _ => Fp.nan
  | _, .nan => Fp.nan
  | .inf, .inf => if a.neg == b.neg then a else Fp.nan
  | .inf, .finite => a
  | .finite, .inf => b
  | .finite, .finite =>
    let v := a.toInt + b.toInt
    if v = 0 then ⟨.finite, a.neg && b.neg, 0⟩ else fp32Round (decide (v < 0)) v.natAbs 0

/-- FP32 multiplication, to nearest even. -/
def fpMul (a b : Fp) : Fp :=
  let n := a.neg != b.neg
  match a.kind, b.kind with
  | .nan, _ => Fp.nan
  | _, .nan => Fp.nan
  | .finite, .finite => fp32Round n (a.mag * b.mag) 149
  | .inf, .finite => if b.mag = 0 then Fp.nan else ⟨.inf, n, 0⟩
  | .finite, .inf => if a.mag = 0 then Fp.nan else ⟨.inf, n, 0⟩
  | .inf, .inf => ⟨.inf, n, 0⟩

/-- The number of an FP16 code. -/
def fpOf16 (c : Nat) : Fp :=
  let neg := c.testBit 15
  let e := bitsOf c 10 5
  let f := bitsOf c 0 10
  if e = 31 then (if f = 0 then ⟨.inf, neg, 0⟩ else Fp.nan)
  else if e = 0 then ⟨.finite, neg, f * 2 ^ 125⟩
  else ⟨.finite, neg, (1024 + f) * 2 ^ (124 + e)⟩

/-- The number of an FP32 code. -/
def fpOf32 (c : Nat) : Fp :=
  let neg := c.testBit 31
  let e := bitsOf c 23 8
  let f := bitsOf c 0 23
  if e = 255 then (if f = 0 then ⟨.inf, neg, 0⟩ else Fp.nan)
  else if e = 0 then ⟨.finite, neg, f⟩
  else ⟨.finite, neg, (8388608 + f) * 2 ^ (e - 1)⟩

/-- A small integer as a number. -/
def fpOfInt (i : Int) : Fp := ⟨.finite, decide (i < 0), i.natAbs * 2 ^ 149⟩

/-- Round to FP16, to nearest even, saturating at the largest finite value; whether it saturated. The specification states
no code for a NaN that comes of `operands`, so its code is a free value of them (R364; log 92). -/
def fpTo16 (operands : List Nat) (a : Fp) : Nat × Bool :=
  let s := if a.neg then 32768 else 0
  match a.kind with
  | .nan => (Config.podNan 0 operands % 65536, false)
  | .inf => (s + 0x7BFF, true)
  | .finite =>
    if 65504 * 2 ^ 149 < a.mag then (s + 0x7BFF, true)
    else
      let sh := max 125 (bitLen a.mag - 11)
      let v := rneShift a.mag sh * 2 ^ (sh - 125)
      if v < 1024 then (s + v, false)
      else
        let l := Nat.log2 v
        (s + (l - 9) * 1024 + (v / 2 ^ (l - 10) - 1024), false)

/-- The order of numbers; none for a NaN. -/
def Fp.order (a : Fp) : Option Int :=
  match a.kind with
  | .nan => none
  | .inf => some (if a.neg then -(2 : Int) ^ 280 else (2 : Int) ^ 280)
  | .finite => some a.toInt

/-! ### Layer records (R372) -/

structure Layer where
  kind : Nat
  split : Bool
  axis : Nat
  inComp : Bool
  outComp : Bool
  c32 : Bool
  prec : Nat
  verdict : Bool
  groups : Nat
  inW : Nat
  inH : Nat
  inC : Nat
  outC : Nat
  kw : Nat
  kh : Nat
  dw : Nat
  dh : Nat
  sw : Nat
  sh : Nat
  shift : Nat
  argmax : Bool
  pt : Nat
  pb : Nat
  pl : Nat
  pr : Nat
  stripeT : Nat
  inZp : Int
  outZp : Int
  act : Nat
  alpha : Nat
  clampLo : Int
  clampHi : Int
  vmode : Nat
  vparam : Nat
  inAddr : Nat
  outAddr : Nat
  wOff : Nat
  pOff : Nat
  layerId : Nat
  zeroOk : Bool
  checkOk : Bool
  deriving DecidableEq, Repr

def kEND : Nat := 0
def kCONV : Nat := 1
def kFRAME : Nat := 2
def kGAP : Nat := 3

/-- The record that 64 bytes hold. -/
def Layer.parse (bs : List Nat) : Layer :=
  let u := fun off n => ofBytes' ((bs.drop off).take n)
  let fl := u 1 1
  let pad := u 0x10 2
  let int8 := prec8 fl
  { kind := u 0 1
    split := fl.testBit 0
    axis := bitOf fl 1
    inComp := fl.testBit 2
    outComp := fl.testBit 3
    c32 := fl.testBit 4
    prec := bitsOf fl 5 2
    verdict := fl.testBit 7
    groups := u 2 2
    inW := u 4 2
    inH := u 6 2
    inC := u 8 2
    outC := u 0xA 2
    kw := bitsOf (u 0xC 1) 0 4 + 1
    kh := bitsOf (u 0xC 1) 4 4 + 1
    dw := bitsOf (u 0xD 1) 0 3 + 1
    dh := bitsOf (u 0xD 1) 4 3 + 1
    sw := bitsOf (u 0xE 1) 0 2 + 1
    sh := bitsOf (u 0xE 1) 4 2 + 1
    shift := u 0xD 1
    argmax := (u 0xF 1).testBit 0
    pt := bitsOf pad 0 4
    pb := bitsOf pad 4 4
    pl := bitsOf pad 8 4
    pr := bitsOf pad 12 4
    stripeT := u 0x12 2
    inZp := if int8 then toSigned 8 (u 0x14 1) else 0
    outZp := if int8 then toSigned 8 (u 0x15 1) else 0
    act := u 0x16 1
    alpha := u 0x17 1
    clampLo := toSigned 8 (u 0x18 1)
    clampHi := toSigned 8 (u 0x19 1)
    vmode := u 0x1A 1
    vparam := u 0x1C 4
    inAddr := u 0x20 8
    outAddr := u 0x28 8
    wOff := u 0x30 4
    pOff := u 0x34 4
    layerId := u 0x38 2
    zeroOk := u 0x1B 1 == 0 && u 0x3A 4 == 0 && (if u 0 1 = 2 then u 0x20 8 &&& 0xFFFFFFFFC000C000 == 0
      else u 0x0D 1 &&& 0x88 == 0 && u 0x0E 1 &&& 0xCC == 0 && u 0x0F 1 &&& 0xFE == 0)
    checkOk := crc16 (bs.take 0x3E) == u 0x3E 2 }
where
  /-- Little-endian bytes. -/
  ofBytes' (bs : List Nat) : Nat := bs.foldr (fun b a => b % 256 + 256 * a) 0
  /-- PREC is INT8. -/
  prec8 (fl : Nat) : Bool := bitsOf fl 5 2 == 0

/-- B: channels of a block (R359). -/
def Layer.b (l : Layer) : Nat := if l.c32 then 32 else 16

/-- E: bytes of an element (R360). -/
def Layer.e (l : Layer) : Nat := if l.prec = 0 then 1 else 2

/-- An output dimension of a CONV layer; 0 where it would be below 1 (R363). -/
def convDim (n p q k d s : Nat) : Nat := (((n + p + q : Nat) - ((k - 1) * d + 1 : Nat) : Int) / (s : Int) + 1).toNat

def Layer.oh (l : Layer) : Nat :=
  if l.kind = kCONV then convDim l.inH l.pt l.pb l.kh l.dh l.sh else if l.kind = kFRAME then l.inH / l.kh else 1

def Layer.ow (l : Layer) : Nat :=
  if l.kind = kCONV then convDim l.inW l.pl l.pr l.kw l.dw l.sw else if l.kind = kFRAME then l.inW / l.kw else 1

/-- The channels that post-processing forms: IN_C for a GAP layer (R367). -/
def Layer.postC (l : Layer) : Nat := if l.kind = kGAP then l.inC else l.outC

/-- The channels of the output tensor (R366). -/
def Layer.outCh (l : Layer) : Nat := if l.argmax && l.kind ≠ kFRAME then 2 else l.postC

def ceilDiv (a b : Nat) : Nat := (a + b - 1) / b

/-- A multiple of 64, upwards. -/
def up64 (n : Nat) : Nat := ceilDiv n 64 * 64

/-- The line stride of a tensor (R360, R368). -/
def lineStride (w b e : Nat) (comp : Bool) : Nat :=
  let st := up64 (w * b * e)
  if comp then up64 (ceilDiv st 32 * 36) else st

/-- IBG of R359. -/
def Layer.ibg (l : Layer) : Nat := max 1 (ceilDiv (l.inC / max 1 l.groups) l.b)

/-- The bytes of a CONV layer's weights (R373). -/
def Layer.wBytes (l : Layer) : Nat := ceilDiv l.outC l.b * l.kh * l.kw * l.ibg * l.b * l.b * l.e

/-- The space of an address field: 0 LP5X, 1 SPM, 2 LOCAL (R362). -/
def spaceOf (a : Nat) : Nat := bitsOf a 62 2
def addrOf (a : Nat) : Nat := bitsOf a 0 36

/-- An address field fails with RANGE (R362; log 66 for a bit outside its parts). -/
def addrBad (a : Nat) (split : Bool) : Bool :=
  spaceOf a == 3 || bitsOf a 36 26 ≠ 0 || addrOf a % 64 ≠ 0 || (spaceOf a == 1 && decide (0x800000 ≤ addrOf a)) || (spaceOf a == 2 && !split)

/-- A field of the record is out of range, or holds a bit outside its parts (R362, R363, R366, R368, R369, R372, R375, R376,
R381; log 66). -/
def Layer.rangeBad (l : Layer) : Bool :=
  !l.zeroOk || decide (3 < l.kind) || decide (2 < l.prec) || decide (3 < l.act)
  || ((l.inComp || l.outComp) && l.prec ≠ 0)
  || decide (l.inW < 1) || decide (16384 < l.inW) || decide (l.inH < 1) || decide (16384 < l.inH)
  || (!l.split && (decide (l.stripeT < 1) || decide (1024 < l.stripeT)))
  || addrBad l.outAddr l.split
  || decide (l.inC < 1) || decide (4096 < l.inC) || decide (l.outC < 1) || decide (4096 < l.outC)
  || decide (l.groups < 1) || decide (l.inC < l.groups)
  || l.wOff % 64 ≠ 0 || decide (0x800000 ≤ l.wOff) || l.pOff % 16 ≠ 0 || decide (0x800000 ≤ l.pOff)
  || decide (l.oh < 1) || decide (l.ow < 1)
  || (l.verdict && (decide (1 < l.vmode) || (l.vmode == 1 && decide (255 < l.vparam)) || (l.vmode == 0 && decide (32 < l.postC))))
  || (match l.kind with
      | 1 => addrBad l.inAddr l.split || decide (11 < l.kw) || decide (11 < l.kh)
          || l.inC % l.groups ≠ 0 || l.outC % l.groups ≠ 0 || (l.argmax && l.prec == 0 && decide (128 < l.outC))
      | 2 => l.c32 || l.prec ≠ 0 || decide (15 < l.shift)
      | 3 => addrBad l.inAddr l.split || (l.argmax && l.prec == 0 && decide (128 < l.inC))
      | _ => true)

/-! ### Tiling (R369 to R371) -/

/-- Band j of n rows or columns over P pods, as [lo, hi) (R370). -/
def bandOf (n p j : Nat) : Nat × Nat := (j * n / p, (j + 1) * n / p)

/-- What SPLIT divides: the output, or for a GAP layer its input (R367, R370). -/
def Layer.splitN (l : Layer) : Nat :=
  if l.kind = kGAP then (if l.axis = 0 then l.inH else l.inW) else (if l.axis = 0 then l.oh else l.ow)

/-- The pod, by place in the run, that has index i of the split dimension. -/
def bandOwner (n p i : Nat) : Nat := ((List.range p).find? fun j => (bandOf n p j).1 ≤ i && i < (bandOf n p j).2).getD 0

/-- One area of a pod's local SRAM (R354). -/
def podArea : Nat := 524288

/-- Where a tensor begins in the band area that holds it: at its LOCAL address, else at the start (R354, R362; log 93). -/
def localOff (a : Nat) : Nat := if spaceOf a = 2 then addrOf a else 0

/-- The place of pod j in a SPLIT layer does not fit (R354, R370, R371). -/
def bandBad (l : Layer) (p j : Nat) : Bool :=
  let (lo, hi) := bandOf l.splitN p j
  let inN := if l.axis = 0 then l.inH else l.inW
  let inUnit := (if l.axis = 0 then l.inW else l.inH) * l.b * l.e * ceilDiv l.inC l.b
  let outUnit := (if l.axis = 0 then l.ow else l.oh) * l.b * l.e * ceilDiv l.outCh l.b
  let span := if l.axis = 0 then (l.kh - 1) * l.dh + 1 else (l.kw - 1) * l.dw + 1
  let st := if l.axis = 0 then l.sh else l.sw
  let pd := if l.axis = 0 then l.pt else l.pl
  let inOff := localOff l.inAddr
  let outOff := localOff l.outAddr
  if hi ≤ lo then false
  else if l.kind = kFRAME then decide (podArea < outOff + (hi - lo) * outUnit)
  else if l.kind = kGAP then decide (podArea < inOff + (hi - lo) * inUnit) || decide (podArea < outOff + outUnit)
  else
    let needLo := lo * st - pd
    let needHi := min inN ((hi - 1) * st + span - pd)
    let covLo := (bandOf inN p (j - 1)).1
    let covHi := (bandOf inN p (min (p - 1) (j + 1))).2
    decide (podArea < outOff + (hi - lo) * outUnit)
    || (decide (needLo < needHi) && (decide (needLo < covLo) || decide (covHi < needHi)
      || decide (podArea < inOff + (needHi - needLo) * inUnit)))

/-- The layer does not fit the areas of its `p` pods (R354, R369 to R371, R373). -/
def Layer.fitBad (l : Layer) (p : Nat) : Bool :=
  (l.kind == kCONV && decide (podArea < l.wBytes))
  || (if l.split then (List.range p).any (bandBad l p)
      else
        l.kind == kCONV
          && decide (podArea < ((l.stripeT - 1) * l.sh + (l.kh - 1) * l.dh + 1) * l.inW * l.b * l.e * l.ibg))

/-! ### Compression (R368) -/

/-- One chunk, compressed. -/
def compressChunk (z : Nat) (ch : List Nat) : List Nat :=
  let mask := (ch.zipIdx).foldl (fun m p => if p.1 ≠ z then m + 2 ^ p.2 else m) 0
  [mask % 256, mask / 256 % 256, mask / 65536 % 256, mask / 16777216 % 256] ++ ch.filter fun b => b ≠ z

/-- A line, compressed with zero code `z`. -/
def compressLine (z : Nat) (line : List Nat) : List Nat :=
  (List.range (ceilDiv line.length 32)).flatMap fun k =>
    let ch := (line.drop (32 * k)).take 32
    compressChunk z (ch ++ List.replicate (32 - ch.length) z)

/-- `n` bytes of a compressed line. -/
def decompressLine (chunks : Nat) (z : Nat) (bs : List Nat) : List Nat :=
  match chunks with
  | 0 => []
  | c + 1 =>
    let mask := (bs.take 4).foldr (fun b a => b + 256 * a) 0
    let (ch, rest) := (List.range 32).foldl (fun (a : List Nat × List Nat) i =>
      if mask.testBit i then (a.1 ++ [a.2.headD 0], a.2.drop 1) else (a.1 ++ [z], a.2)) ([], bs.drop 4)
    ch ++ decompressLine c z rest

/-! ### Tensors (R360) -/

/-- The bytes that a tensor of h × w × c takes. -/
def tensorBytes (h w c b e : Nat) (comp : Bool) : Nat := ceilDiv c b * h * lineStride w b e comp

/-- A tensor's element codes from its bytes: the code of channel c of pixel (y, x). -/
def tensorRead (h w c b e : Nat) (comp : Bool) (z : Nat) (bs : Array Nat) : Nat → Nat → Nat → Nat :=
  let st := lineStride w b e comp
  let ln := w * b * e
  let lines : Array (Array Nat) := (Array.range (ceilDiv c b * h)).map fun k =>
    let raw := (bs.extract (k * st) ((k + 1) * st)).toList
    (if comp then decompressLine (ceilDiv ln 32) z raw else raw).toArray
  fun y x ch =>
    let line := lines.getD (ch / b * h + y) #[]
    let o := (x * b + ch % b) * e
    if e = 1 then line.getD o 0 else line.getD o 0 + 256 * line.getD (o + 1) 0

/-- The lines of a tensor to write, as (offset, element codes), channels beyond `c` taking the zero code `z`. -/
def tensorLines (h w c b e : Nat) (comp : Bool) (z : Nat) (v : Nat → Nat → Nat → Nat) : List (Nat × List Nat) :=
  (List.range (ceilDiv c b * h)).map fun k =>
    let y := k % h
    let blk := k / h
    (k * lineStride w b e comp, (List.range (w * b)).map fun i =>
      let ch := blk * b + i % b
      if ch < c then v y (i / b) ch else z)

/-! ### Accumulation (R357, R367) -/

/-- Saturate an accumulator; whether it did. -/
def satAcc (prec : Nat) (v : Int) : Int × Nat :=
  let w := if prec = 0 then 32 else 48
  let r := satSigned w v
  (r, if r = v then 0 else 1)

/-- An element code as an integer of its precision. -/
def intOf (prec c : Nat) : Int := toSigned (if prec = 0 then 8 else 16) c

/-- The products of an output value, as (weight code, input code), one list for each block of B channels of a tap; positions
outside the input add zero and are left out. The column of an input channel is its place in its block (R360, R373; log 94). -/
def convTaps (l : Layer) (wt : Nat → Nat) (x : Nat → Nat → Nat → Nat) (oy ox o : Nat) : List (List (Nat × Nat)) :=
  let cig := l.inC / l.groups
  let g := o / (l.outC / l.groups)
  (List.range (l.kh * l.kw)).flatMap fun t =>
    let yy := oy * l.sh + t / l.kw * l.dh
    let xx := ox * l.sw + t % l.kw * l.dw
    if l.pt ≤ yy ∧ yy < l.inH + l.pt ∧ l.pl ≤ xx ∧ xx < l.inW + l.pl then
      (List.range l.ibg).map fun ib =>
        (List.range (min l.b (cig - ib * l.b))).map fun i =>
          let ch := g * cig + ib * l.b + i
          (wt ((((o / l.b * (l.kh * l.kw) + t) * l.ibg + ib) * l.b + o % l.b) * l.b + ch % l.b), x (yy - l.pt) (xx - l.pl) ch)
    else []

/-- The integer accumulator over blocks of products, saturated after each block, and the saturations (R357). -/
def intMac (l : Layer) (blocks : List (List (Nat × Nat))) : Int × Nat :=
  blocks.foldl (fun a blk =>
    let r := satAcc l.prec (a.1 + (blk.map fun p => intOf l.prec p.1 * (intOf l.prec p.2 - l.inZp)).sum)
    (r.1, a.2 + r.2)) (0, 0)

/-- The FP32 accumulator over all products in order (R357). -/
def fpMac (blocks : List (List (Nat × Nat))) : Fp :=
  blocks.foldl (fun a blk => blk.foldl (fun a p => fpAdd a (fpMul (fpOf16 p.1) (fpOf16 p.2))) a) Fp.zero

/-! ### Post-processing (R364 to R366) -/

/-- The parameters of a channel: BIAS, MULT and SHIFT, as codes (R365). -/
structure PodParam where
  bias : Nat
  mult : Nat
  shift : Nat
  deriving DecidableEq, Repr

/-- An output value: its code, accumulator and output saturations. -/
structure PodOut where
  code : Nat
  acc : Nat
  out : Nat
  deriving DecidableEq, Repr

/-- ACT on an integer (R364). -/
def actInt (l : Layer) (y : Int) : Int :=
  match l.act with
  | 1 => max y l.outZp
  | 2 => min (max y l.clampLo) l.clampHi
  | 3 => if l.outZp ≤ y then y else l.outZp + (y - l.outZp) * l.alpha / 256
  | _ => y

/-- Post-processing of an integer accumulator (R364). -/
def postInt (l : Layer) (q : PodParam) (acc : Int × Nat) : PodOut :=
  let t := satAcc l.prec (acc.1 + toSigned 32 q.bias)
  let m := t.1 * toSigned 32 q.mult
  let y := actInt l ((if q.shift = 0 then m else (m + (2 : Int) ^ (q.shift - 1)) / (2 : Int) ^ q.shift) + l.outZp)
  let w := if l.prec = 0 then 8 else 16
  let v := satSigned w y
  ⟨fromSigned w v, acc.2 + t.2, if v = y then 0 else 1⟩

/-- The larger and the smaller of two numbers that are no NaN. -/
def fpMax (a b : Fp) : Fp := if a.order.getD 0 < b.order.getD 0 then b else a
def fpMin (a b : Fp) : Fp := if b.order.getD 0 < a.order.getD 0 then b else a

/-- ACT on a number, with OUT_ZP zero (R364). -/
def actFp (l : Layer) (y : Fp) : Fp :=
  if y.kind = .nan then y
  else match l.act with
    | 1 => fpMax y Fp.zero
    | 2 => fpMin (fpMax y (fpOfInt l.clampLo)) (fpOfInt l.clampHi)
    | 3 => if 0 ≤ y.order.getD 0 then y
        else if y.kind = .inf then fpMul y (fpOfInt l.alpha) else fp32Round y.neg (y.mag * l.alpha) 8
    | _ => y

/-- Post-processing of an FP32 accumulator that comes of `operands` (R364). -/
def postFp (l : Layer) (q : PodParam) (operands : List Nat) (acc : Fp) : PodOut :=
  let r := fpTo16 (q.bias :: q.mult :: operands) (actFp l (fpMul (fpAdd acc (fpOf32 q.bias)) (fpOf32 q.mult)))
  ⟨r.1, 0, if r.2 then 1 else 0⟩

/-- The order of an element code; none for a NaN. -/
def codeOrder (prec c : Nat) : Option Int := if prec = 2 then (fpOf16 c).order else some (intOf prec c)

/-- The index of the largest value, the lowest on a tie; a free index of the values where one is a NaN (log 92). -/
def argmaxOf (prec : Nat) (cs : List Nat) : Nat :=
  if cs.any fun c => (codeOrder prec c).isNone then Config.podNan 1 cs % cs.length
  else
    ((cs.zipIdx).foldl (fun (a : Option (Int × Nat)) p =>
      let v := (codeOrder prec p.1).getD 0
      match a with
      | none => some (v, p.2)
      | some (m, _) => if m < v then some (v, p.2) else a) none).elim 0 Prod.snd

/-- The channels of an output pixel after ARGMAX: the index as an integer, whatever the precision, and the value (R366;
log 95). -/
def argmaxPixel (l : Layer) (cs : List Nat) : List Nat := [argmaxOf l.prec cs, cs.getD (argmaxOf l.prec cs) 0]

/-! ### Layers -/

/-- An output pixel: the values of its layer, its channels after ARGMAX, and the saturations it counted. -/
structure PodPixel where
  vals : List Nat
  chans : List Nat
  acc : Nat
  out : Nat
  deriving DecidableEq, Repr

/-- A pixel from its channels before ARGMAX. -/
def podPixel (l : Layer) (cs : List PodOut) : PodPixel :=
  let v := cs.map PodOut.code
  ⟨v, if l.argmax then argmaxPixel l v else v, (cs.map PodOut.acc).sum, (cs.map PodOut.out).sum⟩

/-- Output pixel (oy, ox) of a CONV layer. -/
def convPixel (l : Layer) (wt : Nat → Nat) (par : Nat → PodParam) (x : Nat → Nat → Nat → Nat) (oy ox : Nat) : PodPixel :=
  podPixel l ((List.range l.outC).map fun o =>
    let t := convTaps l wt x oy ox o
    if l.prec = 2 then postFp l (par o) (t.flatten.flatMap fun p => [p.1, p.2]) (fpMac t) else postInt l (par o) (intMac l t))

/-- The pixels of band j of a GAP layer's input (R367). -/
def gapBand (l : Layer) (p j : Nat) : List (Nat × Nat) :=
  let n := l.inH * l.inW
  (List.range n).filterMap fun i =>
    let y := i / l.inW
    let x := i % l.inW
    if bandOwner l.splitN p (if l.axis = 0 then y else x) == j then some (y, x) else none

/-- The integer sum of a band, and its saturations. -/
def gapInt (l : Layer) (x : Nat → Nat → Nat → Nat) (c : Nat) (qs : List (Nat × Nat)) : Int × Nat :=
  qs.foldl (fun a q =>
    let r := satAcc l.prec (a.1 + (intOf l.prec (x q.1 q.2 c) - l.inZp))
    (r.1, a.2 + r.2)) (0, 0)

def gapFp (x : Nat → Nat → Nat → Nat) (c : Nat) (qs : List (Nat × Nat)) : Fp :=
  qs.foldl (fun a q => fpAdd a (fpOf16 (x q.1 q.2 c))) Fp.zero

/-- The output pixel of a GAP layer over `p` pods: the partial sums go round the ring into the first pod, from the last
pod on (R367; log 36). -/
def gapPixel (l : Layer) (par : Nat → PodParam) (x : Nat → Nat → Nat → Nat) (p : Nat) : PodPixel :=
  let p := if l.split then p else 1
  let bands := (List.range p).map (gapBand l p)
  podPixel l ((List.range l.inC).map fun c =>
    if l.prec = 2 then
      let parts := (bands.map (gapFp x c)).reverse
      postFp l (par c) (bands.flatten.map fun q => x q.1 q.2 c) ((parts.drop 1).foldl fpAdd (parts.headD Fp.zero))
    else
      let parts := (bands.map (gapInt l x c)).reverse
      postInt l (par c) ((parts.drop 1).foldl (fun a b =>
        let r := satAcc l.prec (a.1 + b.1)
        (r.1, a.2 + b.2 + r.2)) (parts.headD (0, 0))))

/-- An output pixel of a FRAME layer, from the 16-bit samples of plane c (R376). -/
def framePixel (l : Layer) (smp : Nat → Nat → Nat → Nat) (oy ox : Nat) : PodPixel :=
  let x0 := bitsOf l.inAddr 0 14
  let y0 := bitsOf l.inAddr 16 14
  let n := l.kw * l.kh
  let v := (List.range l.outC).map fun c =>
    let sum := ((List.range n).map fun i => smp c (y0 + oy * l.kh + i / l.kw) (x0 + ox * l.kw + i % l.kw)).sum
    let q := max (-128) (min 127 (((sum / n / 2 ^ l.shift : Nat) : Int) + l.inZp))
    fromSigned 8 q
  ⟨v, v, 0, 0⟩

/-- The verdict of a VERDICT layer from its output at pixel (0, 0): 1 keep, 2 reject; the class is the index over the OUT_C
channels that ARGMAX, where it is set, replaces; a free verdict of the value where it is a NaN (R381; log 92, log 95). -/
def verdictOf (l : Layer) (p : PodPixel) : Nat :=
  if l.vmode = 0 then (if l.vparam.testBit (argmaxOf l.prec p.vals) then 1 else 2)
  else
    let th := toSigned 8 (l.vparam % 256)
    match codeOrder l.prec (p.chans.headD 0) with
    | some v => if (if l.prec = 2 then (fpOfInt th).toInt else th) ≤ v then 1 else 2
    | none => Config.podNan 2 [p.chans.headD 0, l.vparam] % 2 + 1

end Sys2Proof.Machine
end

