-- ==== Sys2Proof/Machine/Pod.lean ====
section
/-! DEFINITION. Pod runs and triage gates (spec/09, R353 to R395). -/
namespace Sys2Proof.Machine

def podEvt (s : State) (b : Nat) : State := setBit s F.POD_EVT_EVT 0 b

/-- The power domain of a pod (R353). -/
def podDomain (k : Nat) : Nat := if k < 4 then 18 else 19

/-- The pods of a mask, ascending. -/
def podsOf (mask : Nat) : List Nat := (List.range 8).filter mask.testBit

/-- The POD_VDT producers of a stream with KIND `kind` fire (R381, R388, R380). -/
def podProducers (s : State) (k kind : Nat) : State :=
  (List.range 8).foldl (fun t i =>
    if isSet s F.POD_VDT_CFG_EN i && rd s F.POD_VDT_CFG_STREAM i == k && rd s F.POD_VDT_CFG_KIND i == kind
    then fireProducer t (100 + i) else t) s

def podRun (s : State) (id : Nat) : Option PodRun := s.podRuns.find? fun r => r.id == id && r.ended.isNone

/-- Change a run. -/
def setRun (s : State) (id : Nat) (g : PodRun → PodRun) : State :=
  { s with podRuns := s.podRuns.map fun r => if r.id == id then g r else r }

/-- Runs that have not begun. -/
def podWaiting (s : State) : Nat := (s.podRuns.filter fun r => !r.begun && r.ended.isNone).length

/-- The run in progress on pod k. -/
def podBusy (s : State) (k : Nat) : Option PodRun := s.podRuns.find? fun r => r.begun && r.ended.isNone && r.mask.testBit k

/-! ### Input (R379) -/

/-- The pipeline and output of an input code 1 to 4 (the INPUT field of the TRIAGE card). -/
def inputPipe (code : Nat) : Nat := (code - 1) % 2
def inputOut (code : Nat) : Nat := if code ≤ 2 then 2 else 0

/-- The context that gives a run its pipeline input (R379). -/
def inputCtx (s : State) (r : PodRun) (q : Nat) : Option Nat :=
  (List.range 64).find? fun c =>
    ispDue s (inputPipe r.input) c r.stream q && outEnabled s (inputPipe r.input) c (inputOut r.input)

inductive PodInput where
  | waits | ready | absent
  deriving DecidableEq, Repr

/-- Whether the input of a run is ready (R379). -/
def podInput (s : State) (r : PodRun) : PodInput :=
  match r.seq with
  | none => .waits
  | some q =>
    match frameAt s r.stream q with
    | none => if q < rd s F.PKT_SEQ_VALUE r.stream then .absent else .waits
    | some f =>
      if r.input = 0 then
        if (f.stored || f.phase ≠ .open) && !held s r.stream q then .absent else .ready
      else match inputCtx s r q with
        | none => .absent
        | some c => match f.outcomes.find? fun o => o.pipe == inputPipe r.input && o.ctx == c with
          | none => .waits
          | some o => if o.done then .ready else .absent

/-! ### Undefined tensors -/

/-- Free bytes in a space (R380, R394). -/
def freeTensor (s : State) (t : Nat × Nat × Nat) : State :=
  let (v, s) := takeFree s (8 * t.2.2)
  let bs := toBytes t.2.2 v
  match t.1 with
  | 0 => if memReady s then lpPut s t.2.1 bs else s
  | 1 => spmPut s t.2.1 bs
  | _ => s

/-! ### Gates -/

def gateOn (s : State) (k : Nat) : Bool := isSet s F.POD_GATE_CFG_EN k

/-- POLICY rejects. -/
def policyReject (s : State) (k : Nat) : Bool := isSet s F.POD_GATE_CFG_POLICY k

/-- A run ends with a code (R380): counted, recorded where it is the first that is not OK, its RUN_END producers fire
unless a squash ends it (R94); a run that ends NO_INPUT, ABORTED or DISCARDED leaves its tensors undefined (R380, R375;
log 37). -/
def runCounts (s : State) (r : PodRun) (code : Nat) (fire : Bool) : State :=
  let s := bump s (match code with
    | 0 => F.POD_RUNS_OK_COUNT
    | 5 => F.POD_RUNS_NO_INPUT_COUNT
    | 7 => F.POD_RUNS_DISCARDED_COUNT
    | _ => F.POD_RUNS_ERR_COUNT) 0
  let s := if code ≠ 0 && rd s F.POD_RUN_ERR_CODE == 0 then
      wr (wr (wr s F.POD_RUN_ERR_CODE 0 code) F.POD_RUN_ERR_LAYER 0 r.layer) F.POD_RUN_ERR_LAYER_ID 0 r.layerId
    else s
  let s := if code ≠ 0 && code ≠ 7 then podEvt s 0 else s
  let s := if 5 ≤ code then r.wrote.foldl freeTensor s else s
  if fire then podProducers s r.stream 3 else s

/-- A run is discarded (R94, R394). -/
def discardRun (s : State) (r : PodRun) (fire : Bool) : State :=
  runCounts { s with podRuns := s.podRuns.filter fun x => x.id ≠ r.id } r 7 fire

/-- The verdict of a frame becomes final (R387, R388), `reject` where it rejects the frame; runs of a rejected frame end
DISCARDED (R394). -/
def gateFinal (s : State) (k q v : Nat) (reject : Bool) : State :=
  let s : State := { s with tracked := s.tracked.filter fun t => !(t.stream == k && t.seq == q) }
  let s := setFrame s k q fun f => { (f.flagIf (v == 3) flFORCED) with verdict := v, final := true, reject := reject }
  let s := wr (wr s F.POD_FINAL_VERDICT k v) F.POD_FINAL_SEQ_SEQ k q
  let s := if v = 1 then bump s F.POD_GATE_KEEP_COUNT k
    else if v = 3 then bump s F.POD_GATE_FORCED_COUNT k
    else if reject then bump s F.POD_GATE_REJECT_COUNT k else s
  let s := podProducers s k 1
  if reject then
    (s.podRuns.filter fun r => r.stream == k && r.seq == some q && r.ended.isNone).foldl (fun s r => discardRun s r true)
      (podProducers s k 2)
  else s

/-- Rejects whose following PRE_KEEP frames are all decided become final (R387). -/
def gateSettle (s : State) (k : Nat) : State :=
  let pre := rd s F.POD_GATE_WIN_PRE_KEEP k
  (s.tracked.filter fun t => t.stream == k).foldl (fun s t =>
    match t.own with
    | none => s
    | some v =>
      if s.tracked.any fun u => u.stream == k && u.own.isNone && decide (t.seq < u.seq) && decide (u.seq ≤ t.seq + pre)
      then s else gateFinal s k t.seq v true) s

/-- A keep window opens around SEQ q (R386). -/
def gateWindow (s : State) (k q : Nat) : State :=
  let lo := q - rd s F.POD_GATE_WIN_PRE_KEEP k
  let hi := q + rd s F.POD_GATE_WIN_POST_KEEP k
  let s : State := { s with keepWins := (s.keepWins.filter fun w => !(w.1 == k && decide (w.2.2 + 65536 < q))) ++ [(k, lo, hi)] }
  (s.tracked.filter fun t => t.stream == k && decide (lo ≤ t.seq) && decide (t.seq ≤ hi)).foldl
    (fun s t => gateFinal s k t.seq 3 false) s

/-- The frame's own verdict: 1 keep, 2 reject from the network, 5 the deadline outcome (R385, R387). -/
def gateOwn (s : State) (k q v : Nat) : State :=
  let mark := fun (s : State) =>
    gateSettle { s with tracked := s.tracked.map fun t => if t.stream == k && t.seq == q then { t with own := some v } else t } k
  match v with
  | 1 => gateSettle (gateWindow (gateFinal s k q 1 false) k q) k
  | 2 => mark s
  | _ =>
    let s := bump s F.POD_GATE_DL_OUT_COUNT k
    if policyReject s k then mark s else gateSettle (gateFinal s k q 5 false) k

def trackedAt (s : State) (k q : Nat) : Option Tracked := s.tracked.find? fun t => t.stream == k && t.seq == q

/-- A frame takes the deadline outcome at once, finally; one that had taken it already is not counted again (R385, R391,
R392). -/
def gateAtOnce (s : State) (k q : Nat) : State :=
  let took := (trackedAt s k q).any fun t => t.own == some 5
  gateFinal (if took then s else bump s F.POD_GATE_DL_OUT_COUNT k) k q 5 (policyReject s k)

/-- Remember the own verdict of a frame whose tag has not completed; the gate acts on it once it tracks the frame (R385,
R391). -/
def gateEarly (s : State) (k q v : Nat) : State :=
  if s.preVerdicts.any fun e => e.1 == k && e.2.1 == q then s else { s with preVerdicts := s.preVerdicts ++ [(k, q, v)] }

/-- The deadline of a frame that ended at `tbFe` has passed. -/
def gateExpired (s : State) (k tbFe : Nat) : Bool := decide (tbFe + rd s F.POD_GATE_DEADLINE_NS k < s.tb)

/-- A network verdict that arrives too late (R390). -/
def gateLate (s : State) (k : Nat) : State := podEvt (bump s F.POD_GATE_LATE_COUNT k) 3

/-- The frame has a final verdict. -/
def isFinal (s : State) (k q : Nat) : Bool :=
  match frameAt s k q with
  | some f => f.final
  | none => false

/-- A network verdict reaches the gate of stream k (R385, R390). -/
def gateNet (s : State) (k q v : Nat) : State :=
  match trackedAt s k q with
  | some t =>
    if t.own.isSome then s
    else if gateExpired s k t.tbFe then
      let s := gateOwn s k q 5
      if isFinal s k q then gateLate s k else s
    else gateOwn s k q v
  | none =>
    if isFinal s k q then gateLate s k
    else match frameAt s k q with
      | some f =>
        if f.phase = .complete then s else gateEarly s k q (if f.phase = .closed && gateExpired s k f.tbFe then 5 else v)
      | none => s

/-- The frame takes the deadline outcome now (R384, R393). -/
def gateNow (s : State) (k q : Nat) : State :=
  match trackedAt s k q with
  | some t => if t.own.isSome then s else gateOwn s k q 5
  | none =>
    if isFinal s k q then s
    else match frameAt s k q with
      | some f => if f.phase = .complete then s else gateEarly s k q 5
      | none => s

/-- The frame's tag has completed: the gate tracks it. Its own verdict, where it has one, applies before a keep window that
covers it (R385 to R387, R391). -/
def gateTrack (s : State) (k q tbFe : Nat) : State :=
  let pre := s.preVerdicts.find? fun e => e.1 == k && e.2.1 == q
  let s : State := { s with preVerdicts := s.preVerdicts.filter fun e => !(e.1 == k && e.2.1 == q) }
  if !gateOn s k then s
  else if 4096 ≤ s.tracked.length then
    gateAtOnce (podEvt (bump s F.POD_GATE_FULL_COUNT) 1) k q
  else
    let s : State := { s with tracked := s.tracked ++ [⟨k, q, tbFe, none⟩] }
    let s := wr s F.POD_GATE_PENDING_PEAK 0 (max (rd s F.POD_GATE_PENDING_PEAK) s.tracked.length)
    let covered := s.keepWins.any fun w => w.1 == k && decide (w.2.1 ≤ q) && decide (q ≤ w.2.2)
    let s := match pre with
      | some (_, _, v) => gateOwn s k q v
      | none => s
    if covered && (trackedAt s k q).isSome then gateSettle (gateFinal s k q 3 false) k else s

/-- The network verdict of a run (R381, R382). -/
def netVerdict (s : State) (k q v : Nat) : State :=
  let s := wr (wr s F.POD_NET_VERDICT_VERDICT k v) F.POD_NET_SEQ_SEQ k q
  let s := podProducers s k 0
  if gateOn s k then gateNet s k q v else s

/-! ### Ends of runs -/

/-- What the end of a run brings about (R380, R381, R393). -/
def runEffects (s : State) (r : PodRun) (code : Nat) : State :=
  let s := runCounts s r code true
  match r.seq with
  | none => s
  | some q =>
    if code = 0 then
      match r.verdict with
      | some v => netVerdict s r.stream q v
      | none => s
    else if code ≤ 6 && gateOn s r.stream && isSet s F.POD_GATE_CFG_AUTO_RUN r.stream then gateNow s r.stream q
    else s

/-- A run ends; inside an open region its effects wait for the commit (R94, R95). -/
def endRun (s : State) (r : PodRun) (code : Nat) : State :=
  if r.region.isSome then setRun s r.id fun x => { r with ended := some code, begun := x.begun }
  else runEffects { s with podRuns := s.podRuns.filter fun x => x.id ≠ r.id } r code

/-- The runs that satisfy `p` end with a code, in order of submission; one that the end of another discards does not end
again (R394). -/
def endRuns (s : State) (code : Nat) (p : State → PodRun → Bool) : State :=
  (s.podRuns.map PodRun.id).foldl (fun s id =>
    match podRun s id with
    | some r => if p s r then endRun s r code else s
    | none => s) s

/-- Runs that wait for an input that will not come end NO_INPUT (R379). -/
def sweepInputs (s : State) : State := endRuns s 5 fun s r => !r.begun && podInput s r == .absent

/-- The region of core c commits: its runs become final (R92, R95). -/
def commitRuns (s : State) (c : Nat) : State :=
  let mine := s.podRuns.filter fun r => r.region == some c
  mine.foldl (fun s r =>
    match r.ended with
    | some code => runEffects { s with podRuns := s.podRuns.filter fun x => x.id ≠ r.id } r code
    | none => setRun s r.id fun x => { x with region := none }) s

/-- The region of core c is squashed: its runs are discarded (R94). -/
def squashRuns (s : State) (c : Nat) : State :=
  (s.podRuns.filter fun r => r.region == some c).foldl (fun s r => discardRun s r false) s

/-! ### Submission (R147, R148, R377, R395) -/

/-- podrun and POD_SUB: `ra` the list, `rb` pods, input and stream, `rc` the SEQ. DESIGN CHOICE: while D20, the domain of the SPM
that holds the list, is down the answer is ABSENT; R395 names the pods' own domains (log 74). -/
def submitRun (s : State) (mid ra rb rc : Nat) (region : Option Nat) : Answer × State :=
  let mask := rb % 256
  if ra % 64 ≠ 0 ∨ 0x800000 ≤ ra ∨ mask = 0 ∨ 4 < bitsOf rb 8 3 ∨ bitsOf rb 11 5 ≠ 0 ∨ 0x400000 ≤ rb
      ∨ (rc ≠ 2 ^ 64 - 1 ∧ 2 ^ 48 ≤ rc) then (.of stRANGE, s)
  else if !domUp s 20 || (podsOf mask).any fun k => !domUp s (podDomain k) then (.of stABSENT, s)
  else if 16 ≤ podWaiting s then (.of stFULL, s)
  else
    let id := s.podNextId
    let r : PodRun :=
      { id := id, list := ra, mask := mask, input := bitsOf rb 8 3, stream := bitsOf rb 16 6
        seq := if rc = 2 ^ 64 - 1 then none else some rc, mid := mid, region := region, begun := false
        layer := 0, record := [], layerId := 0, layout := none, loc := none, verdict := none, wrote := [], ended := none }
    (⟨stOK, false, false, id⟩, sweepInputs { s with podRuns := s.podRuns ++ [r], podNextId := (id + 1) % 65536 })

/-- A frame with SEQ q opens on stream k: runs bound to the next frame take it, and AUTO_RUN submits a run (R379, R384). -/
def podFrameOpens (s : State) (k q : Nat) : State :=
  let s : State := { s with podRuns := s.podRuns.map fun r =>
    if r.stream == k && r.seq.isNone then { r with seq := some q } else r }
  if gateOn s k && isSet s F.POD_GATE_CFG_AUTO_RUN k then
    let rb := rd s F.POD_GATE_CFG_POD_MASK k + 256 * rd s F.POD_GATE_CFG_INPUT k + 65536 * k
    let (a, s) := submitRun s (sget s.gateMid 1 k) (rd s F.POD_AUTO_LIST_OFFSET k) rb q none
    if a.status = stOK then s
    else
      let s := if a.status = stFULL then podEvt (bump s F.POD_RUN_FULL_COUNT) 2 else s
      gateNow s k q
  else s

/-- POD_SUB_CMD.GO (R377). -/
def podSubGo (s : State) (mid : Nat) : State :=
  if !domUp s 22 then s
  else
    let (a, s) := submitRun s mid (rd s F.POD_SUB_LIST_VALUE) (rd s F.POD_SUB_RUN_VALUE) (rd s F.POD_SUB_SEQ_VALUE) none
    wr (wr s F.POD_SUB_RES_STATUS 0 a.status) F.POD_SUB_RES_ID 0 a.id

def execPodSubGo (mid : Nat) (s : State) : Host.Outcome State Fault Refusal := finish s (inBlock 14 s fun s => podSubGo s mid)

/-! ### Layers -/

/-- The pod controller's own MID, which the error logs show (R40, R355). -/
def midPOD : Nat := 0x1A

/-- Bytes of a space as a run reads them (R355, R362). -/
def readSpace (s : State) (r : PodRun) (field n : Nat) : List Nat × State :=
  match spaceOf field with
  | 0 => memRead s midPOD (addrOf field) n
  | 1 => (spmBytes s (addrOf field) n, s)
  | _ => (match r.loc with
    | some t => t.bytes
    | none => [], s)

/-- The zero code of the tensor a layer writes. -/
def Layer.zeroCode (l : Layer) : Nat := if l.prec = 0 then fromSigned 8 l.outZp else 0

/-- The stored bytes of a line of a tensor, with what follows the last chunk of a compressed line undefined (R360, R368). -/
def lineBytesFor (s : State) (l : Layer) (cs : List Nat) : List Nat × State :=
  let bs := cs.flatMap (toBytes l.e)
  if !l.outComp then (bs, s)
  else
    let out := compressLine l.zeroCode bs
    let pad := lineStride l.ow l.b l.e true - out.length
    let (v, s) := takeFree s (8 * pad)
    (out ++ toBytes pad v, s)

/-- A layer's output goes to its tensor (R360, R362, R371). -/
def writeTensor (s : State) (r : PodRun) (l : Layer) (v : Nat → Nat → Nat → Nat) : State :=
  let ls := tensorLines l.oh l.ow l.outCh l.b l.e l.outComp l.zeroCode v
  let n := tensorBytes l.oh l.ow l.outCh l.b l.e l.outComp
  let base := addrOf l.outAddr
  let sp := spaceOf l.outAddr
  if sp = 2 then
    let (bs, s) := ls.foldl (fun (a : List Nat × State) ln =>
      let (b, t) := lineBytesFor a.2 l ln.2
      (a.1 ++ b ++ List.replicate (lineStride l.ow l.b l.e l.outComp - b.length) 0, t)) ([], s)
    setRun s r.id fun x => { x with loc := some ⟨base, l.axis, l.oh, l.ow, ceilDiv l.outCh l.b, bs⟩ }
  else
    let s := ls.foldl (fun s ln =>
      let (b, s) := lineBytesFor s l ln.2
      if sp = 0 then memWrite s midPOD (base + ln.1) b else spmPut s (base + ln.1) b) s
    setRun s r.id fun x => { x with wrote := x.wrote ++ [(sp, base, n)], loc := none }

/-- The input frame of a run as a FRAME layer sees it: its width, height and planes, and where each sample lies (R376). -/
structure PodFrame where
  w : Nat
  h : Nat
  planes : Nat
  deriving DecidableEq, Repr

/-- The shape of a run's input; none where the stream's data type has no R308 value. -/
def podFrame (s : State) (r : PodRun) (q : Nat) : Option PodFrame :=
  match frameAt s r.stream q with
  | none => none
  | some f =>
    if r.input = 0 then
      if (rawBits f.dt).isNone then none
      else some ⟨f.width, if f.learn && f.phase == .open then 16384 else max f.height f.slots, 1⟩
    else match inputCtx s r q with
      | none => none
      | some c =>
        let o := outPar s (inputPipe r.input) c
        if inputOut r.input = 2 then some ⟨o.vw, o.vh, if o.visFmt = 1 then 3 else 1⟩
        else some ⟨f.width / o.dx, f.height / o.dy, if o.dispFmt = 0 then 3 else 1⟩

/-- The 16-bit samples of a run's input, plane c, row y, column x (R376), and the state after the reads. -/
def podSamples (s : State) (r : PodRun) (q : Nat) (l : Layer) : (Nat → Nat → Nat → Nat) × State :=
  let y0 := bitsOf l.inAddr 16 14
  match frameAt s r.stream q with
  | none => (fun _ _ _ => 0, s)
  | some f =>
    if r.input = 0 then
      let n := min l.inH (f.slots - y0)
      let (bs, s) := memRead s midPOD (slotAddr s r.stream q + y0 * f.lineBytes) (n * f.lineBytes)
      let a := bs.toArray
      let b := (rawBits f.dt).getD 8
      (fun _ y x => if y < y0 ∨ y0 + n ≤ y then 0
        else leftJustify b (rawCode f.dt (fun i => a.getD ((y - y0) * f.lineBytes + i) 0) x) / 256, s)
    else match inputCtx s r q with
      | none => (fun _ _ _ => 0, s)
      | some c =>
        let p := inputPipe r.input
        let o := outPar s p c
        let par := ispPar s s p c f.width f.height f.height
        let out := inputOut r.input
        let (bs, s) := memRead s midPOD (outAddr s p c out (ispIndex s p c q)) (outBytes par o out)
        let a := bs.toArray
        if out = 2 then
          let st := stride64 (2 * o.vw)
          (fun pl y x => a.getD ((pl * o.vh + y) * st + 2 * x) 0 + 256 * a.getD ((pl * o.vh + y) * st + 2 * x + 1) 0, s)
        else
          let st := stride64 (dispBytes par o)
          (fun pl y x => 257 * a.getD (y * st + (if o.dispFmt = 0 then 3 * x + pl else x)) 0, s)

/-- The failure of a record just before its layer starts, as a run code; 0 where it passes (R361, R371, R374 to R376). -/
def layerCheck (s : State) (r : PodRun) (q : Nat) (l : Layer) : Nat :=
  if 256 ≤ r.layer || r.verdict.isSome then 4
  else if l.rangeBad || (match r.layout with | some x => x != l.c32 | none => false) then 2
  else if l.kind = kFRAME && (match podFrame s r q with
      | none => true
      | some f => decide (f.w < bitsOf l.inAddr 0 14 + l.inW) || decide (f.h < bitsOf l.inAddr 16 14 + l.inH)
          || l.outC ≠ f.planes) then 2
  else if l.verdict && (l.oh ≠ 1 || l.ow ≠ 1) then 4
  else if l.fitBad (podsOf r.mask).length then 3
  else if l.kind ≠ kFRAME && spaceOf l.inAddr == 2 && (match r.loc with
      | none => true
      | some t => t.addr ≠ addrOf l.inAddr || t.axis ≠ l.axis || t.h ≠ l.inH || t.w ≠ l.inW
          || t.blocks ≠ ceilDiv l.inC l.b) then 3
  else 0

/-- The next record of a run is read and checked; the run ends at END or at a failed check (R374, R375). -/
def startLayer (s : State) (id : Nat) : State :=
  match podRun s id with
  | none => s
  | some r =>
    let a := r.list + 64 * r.layer
    if 0x800000 < a + 64 then endRun s r 4
    else
      let bs := spmBytes s a 64
      let l := Layer.parse bs
      let r := { r with record := bs, layerId := l.layerId }
      if !l.checkOk then endRun s r 1
      else if l.kind = kEND then endRun s r 0
      else
        let code := layerCheck s r (r.seq.getD 0) l
        if code = 0 then setRun s id fun _ => r else endRun s r code

/-- A run can begin (R379). -/
def canBegin (s : State) (r : PodRun) : Bool :=
  !r.begun && r.ended.isNone && podInput s r == .ready && (podsOf r.mask).all fun k => (podBusy s k).isNone

/-- The oldest run that can begin does (R379). -/
def runBegin (s : State) (id : Nat) : State :=
  let s := sweepInputs s
  match s.podRuns.find? (canBegin s) with
  | some r =>
    if r.id ≠ id then s
    else
      let s := setRun s id fun x => { x with begun := true }
      let s := (podsOf r.mask).foldl (fun (s : State) k =>
        { s with lsram := sfilter (fun a => a / 0x200000 ≠ k) s.lsram, lsramUsed := sset s.lsramUsed false k true }) s
      startLayer s id
  | none => s

def execPodRunBegin (id : Nat) (s : State) : Host.Outcome State Fault Refusal := finish s (inBlock 14 s fun s => runBegin s id)

/-- The weight codes of a layer. -/
def layerWeights (s : State) (l : Layer) : Nat → Nat :=
  let a := (spmBytes s l.wOff l.wBytes).toArray
  fun i => if l.e = 1 then a.getD i 0 else a.getD (2 * i) 0 + 256 * a.getD (2 * i + 1) 0

/-- The parameters of a layer (R365). -/
def layerParams (s : State) (l : Layer) : Nat → PodParam :=
  let a := (spmBytes s l.pOff (16 * l.postC)).toArray
  fun o =>
    let u := fun (i n : Nat) => ofBytes ((List.range n).map fun k => a.getD (16 * o + i + k) 0)
    ⟨u 0 4, u 4 4, u 8 1⟩

/-- The saturations of a GAP layer on the pod at place j of its `p` pods, beside post-processing: in its own band, and where
its partial sum joins the ring (R357, R367). -/
def gapSats (l : Layer) (x : Nat → Nat → Nat → Nat) (p j : Nat) : Nat :=
  if l.prec = 2 then 0
  else ((List.range l.inC).map fun c =>
    let part := fun j => gapInt l x c (gapBand l p j)
    match (List.range (p - 1 - j)).map fun i => (part (p - 1 - i)).1 with
    | [] => (part j).2
    | a :: rest => (part j).2 + (satAcc l.prec (rest.foldl (fun a b => (satAcc l.prec (a + b)).1) a + (part j).1)).2).sum

/-- The accumulator saturations of the pod at place j of `p` pods, from the pixels it owns (R357, R364). -/
def layerSats (l : Layer) (x : Nat → Nat → Nat → Nat) (p j : Nat) (mine : List PodPixel) : Nat :=
  let all := (mine.map PodPixel.acc).sum
  if l.kind ≠ kGAP || !l.split then all
  else if j = 0 then all - ((List.range (p - 1)).map fun i => gapSats l x p (i + 1)).sum
  else gapSats l x p j

/-- The layer of a run completes: its output is written and the next record starts; `ecc` are the errors that its LP5X accesses
met (R357 to R376, R381, R402). -/
def layerDone (s : State) (id : Nat) (ecc : List (Nat × Nat)) : State :=
  match podRun s id with
  | none => s
  | some r =>
    if !r.begun then s
    else
      let l := Layer.parse r.record
      let q := r.seq.getD 0
      let pods := podsOf r.mask
      let waits := l.kind == kFRAME && r.input == 0 && (match frameAt s r.stream q with
        | some f => f.phase == .open && decide (f.slots < bitsOf l.inAddr 16 14 + l.inH)
        | none => false)
      let gone := l.kind == kFRAME && podInput s r == .absent
      if gone then endRun s r 5
      else if waits then s
      else
        let s := (memErrors s midPOD ecc).2
        let (x, smp, s) : (Nat → Nat → Nat → Nat) × (Nat → Nat → Nat → Nat) × State :=
          if l.kind = kFRAME then
            let (f, t) := podSamples s r q l
            (fun _ _ _ => 0, f, t)
          else
            let (bs, t) := readSpace s r l.inAddr (tensorBytes l.inH l.inW l.inC l.b l.e l.inComp)
            (tensorRead l.inH l.inW l.inC l.b l.e l.inComp (fromSigned 8 l.inZp) bs.toArray, fun _ _ _ => 0, t)
        let wt := layerWeights s l
        let par := layerParams s l
        let pix : Array PodPixel := (Array.range (l.oh * l.ow)).map fun i =>
          if l.kind = kCONV then convPixel l wt par x (i / l.ow) (i % l.ow)
          else if l.kind = kGAP then gapPixel l par x pods.length
          else framePixel l smp (i / l.ow) (i % l.ow)
        let owner := fun i => if l.split && l.kind ≠ kGAP
          then bandOwner l.splitN pods.length (if l.axis = 0 then i / l.ow else i % l.ow) else 0
        let s := (pods.zipIdx).foldl (fun s p =>
          let mine := ((List.range (l.oh * l.ow)).filter fun i => owner i == p.2).map fun i => pix.getD i ⟨[], [], 0, 0⟩
          bumpBy (bumpBy s F.POD_ACC_SAT_COUNT p.1 (layerSats l x pods.length p.2 mine)) F.POD_OUT_SAT_COUNT p.1
            (mine.map PodPixel.out).sum) s
        let s := writeTensor s r l fun y xx ch => ((pix.getD (y * l.ow + xx) ⟨[], [], 0, 0⟩).chans.getD ch 0)
        let v := if l.verdict then some (verdictOf l (pix.getD 0 ⟨[], [], 0, 0⟩)) else none
        startLayer (setRun s id fun r => { r with layer := r.layer + 1, layout := some l.c32, verdict := v }) id

def execPodLayerDone (id : Nat) (ecc : List (Nat × Nat)) (s : State) : Host.Outcome State Fault Refusal :=
  finish s (inBlock 14 s fun s => layerDone s id ecc)

/-! ### Power and reset (R380, R395) -/

/-- Every run that satisfies `p` ends ABORTED. -/
def abortRuns (s : State) (p : PodRun → Bool) : State := endRuns s 6 fun _ r => p r

/-- The local SRAM of the pods of domain d loses its contents: every byte is undefined until it is written. -/
def lsramLost (s : State) (d : Nat) : State :=
  ((List.range 8).filter fun k => podDomain k == d).foldl (fun (s : State) k =>
    { s with lsram := sfilter (fun a => a / 0x200000 ≠ k) s.lsram, lsramUsed := sset s.lsramUsed false k true }) s

/-- The SPM loses its contents. -/
def spmLost (s : State) : State := { (memLose s memSPM) with spm := [] }

/-- D18, D19 or D20 powers down: the runs that use it end, and its memory is lost (R395). -/
def podPowerDown (s : State) (d : Nat) : State :=
  if d = 20 then spmLost (abortRuns s fun _ => true)
  else lsramLost (abortRuns s fun r => (podsOf r.mask).any fun k => podDomain k == d) d

/-! ### Gate commands -/

/-- TB_FE + DEADLINE passes without a network verdict (R385). -/
def gateDeadline (s : State) (k q : Nat) : State :=
  match trackedAt s k q with
  | some t => if t.own.isNone && decide (t.tbFe + rd s F.POD_GATE_DEADLINE_NS k ≤ s.tb) then gateOwn s k q 5 else s
  | none => s

def execGateDeadline (k seq : Nat) (s : State) : Host.Outcome State Fault Refusal := onBlock 14 k 64 s fun s => gateDeadline s k seq

/-- The SAT counters of a gate clear (R17). -/
def gateClear (s : State) (k : Nat) : State :=
  clearAll s [F.POD_GATE_KEEP_COUNT, F.POD_GATE_REJECT_COUNT, F.POD_GATE_FORCED_COUNT, F.POD_GATE_DL_OUT_COUNT,
    F.POD_GATE_LATE_COUNT] k

/-- EN of a gate clears: its tracked frames are final at once (R392). -/
def gateDisable (s : State) (k : Nat) : State :=
  let s := (s.tracked.filter fun t => t.stream == k).foldl (fun s t => gateAtOnce s k t.seq) s
  { (wr s F.POD_GATE_CFG_EN k 0) with
    preVerdicts := (s.preVerdicts.filter fun e => e.1 ≠ k)
    keepWins := s.keepWins.filter fun w => w.1 ≠ k }

/-- The fields of POD_GATE_CFG beside EN. -/
def gateFields : List Field :=
  [F.POD_GATE_CFG_POLICY, F.POD_GATE_CFG_REJECT_RECORD, F.POD_GATE_CFG_AUTO_RUN, F.POD_GATE_CFG_INPUT, F.POD_GATE_CFG_POD_MASK]

/-- A write of `val` to POD_GATE_CFG_k by master `mid` (R392). -/
def gateCfgWrite (s : State) (mid k val : Nat) : State :=
  if !domUp s 22 then s
  else
    let t :=
      if gateOn s k then
        let s := if gateFields.any fun f => bitsOf val f.lo f.width ≠ rd s f k then podEvt s 4 else s
        if val.testBit 0 then s else gateDisable s k
      else
        let noPods := val.testBit 3 && bitsOf val 8 8 == 0
        let s := gateFields.foldl (fun s f =>
          let v := bitsOf val f.lo f.width
          if v = rd s f k then s
          else if v < f.least || f.greatest < v
              || (noPods && (f.fid == F.POD_GATE_CFG_AUTO_RUN.fid || f.fid == F.POD_GATE_CFG_POD_MASK.fid))
          then podEvt s 4 else wr s f k v) s
        if val.testBit 0 then { (wr s F.POD_GATE_CFG_EN k 1) with gateMid := sset s.gateMid 1 k mid } else s
    if val.testBit 31 then gateClear t k else t

def execGateCfgWrite (mid k val : Nat) (s : State) : Host.Outcome State Fault Refusal :=
  onBlock 14 k 64 s fun s => gateCfgWrite s mid k val

def execGateClrCounts (k : Nat) (s : State) : Host.Outcome State Fault Refusal := onBlock 14 k 64 s fun s => gateClear s k

/-- POD_CMD_k.CLR_COUNTS (R17). -/
def execPodClrCounts (k : Nat) (s : State) : Host.Outcome State Fault Refusal :=
  onBlock 14 k 8 s fun s => clearAll s [F.POD_ACC_SAT_COUNT, F.POD_OUT_SAT_COUNT] k

/-- The SAT counters of the controller. -/
def podCounters : List Field :=
  [F.POD_RUNS_OK_COUNT, F.POD_RUNS_ERR_COUNT, F.POD_RUNS_NO_INPUT_COUNT, F.POD_RUNS_DISCARDED_COUNT,
   F.POD_GATE_FULL_COUNT, F.POD_RUN_FULL_COUNT]

/-- POD_CCMD.CLR_COUNTS (R17). -/
def execPodCcmdClrCounts (s : State) : Host.Outcome State Fault Refusal := finish s (inBlock 14 s fun s => clearAll s podCounters 0)

end Sys2Proof.Machine
end

