-- ==== Sys2Proof/Machine/Isp.lean ====
section
/-! DEFINITION. The image pipelines: admission, units, outcomes, statistics, modes (spec/08, R307 to R352). -/
namespace Sys2Proof.Machine

/-- The state as a context's registers were when its frame started (R345). -/
def snapView (s : State) (j : IspJob) : State := { s with regs := j.snap }

/-- What a frame's start latches: the context registers, and the geometry, data type and mode they were validated with. -/
def ispSnap (s : State) : List (Nat × Nat) :=
  sfilter (fun k => F.ISP_CTX_CFG_EN.fid ≤ k % 1024 && k % 1024 ≤ F.ISP_CTX_STAT_WH_H.fid) s.regs

/-- The master of a context (R351). -/
def ispMaster (s : State) (p c : Nat) : Nat := sget s.ispMid 1 (ctxI p c)

/-- Change the jobs of pipeline p. -/
def mapJobs (s : State) (p : Nat) (g : List IspJob → List IspJob) : State :=
  let k := ispAt s p
  setIsp s p { k with jobs := g k.jobs }

/-- Two jobs are the same. -/
def IspJob.same (a b : IspJob) : Bool := a.ctx == b.ctx && a.stream == b.stream && a.seq == b.seq && a.manual == b.manual

def dropJob (s : State) (p : Nat) (j : IspJob) : State := mapJobs s p fun js => js.filter fun x => !x.same j

def putJob (s : State) (p : Nat) (j : IspJob) : State := mapJobs s p fun js => js.map fun x => if x.same j then j else x

/-- ACTIVE of a context, from its jobs. -/
def setActive (s : State) (p c : Nat) : State :=
  wrBool s F.ISP_CTX_STATUS_ACTIVE (ctxI p c) ((ispAt s p).jobs.any fun j => j.ctx == c && j.started)

/-- PENDING of a context: due frames that have not started (R344). -/
def ispPending (s : State) (p c : Nat) : Nat :=
  ((ispAt s p).jobs.filter fun j => j.ctx == c && !j.started && !j.manual && !j.inl).length

/-! ### Outcomes (R346, R347) -/

/-- The ISP_DONE producers of a context fire (R347). -/
def ispProducers (s : State) (p c : Nat) (done : Bool) : State :=
  (List.range 8).foldl (fun t i =>
    let n := 8 * p + i
    let kind := rd s F.ISP_DONE_CFG_KIND n
    if isSet s F.ISP_DONE_CFG_EN n && rd s F.ISP_DONE_CFG_CTX n == c && (kind == 2 || (kind == 0) == done)
    then fireProducer t (84 + n) else t) s

/-- A job ends with its outcome: counted, and for a frame of AUTO reported in the tags of its exposures; runs that wait for
it see it (R346, R379). -/
def ispOutcome (s : State) (p : Nat) (j : IspJob) (done : Bool) : State :=
  let c := j.ctx
  let s := setActive (dropJob s p j) p c
  let s := wr s F.ISP_CTX_LAST_SEQ_SEQ (ctxI p c) j.seq
  let s := if done then ispEvt (bump s F.ISP_CTX_DONE_COUNT (ctxI p c)) p 0 else ispEvt s p 1
  let s := if j.manual then wr s F.ISP_SUBMIT_PENDING p 0
    else
      let s := setFrame s j.stream j.seq fun f => { f with outcomes := f.outcomes ++ [⟨p, c, done, j.ecc⟩] }
      if done then s else j.exps.foldl (fun s e => setFrame s e.1 e.2 fun f => f.flag flBYPASSED) s
  sweepInputs (ispProducers s p c done)

/-- A job of AUTO is bypassed; a manual job is dropped (R348, R349). -/
def ispBypass (s : State) (p : Nat) (j : IspJob) : State :=
  if j.manual then wr (setActive (dropJob s p j) p j.ctx) F.ISP_SUBMIT_PENDING p 0 else ispOutcome s p j false

/-- A context failed validation with a code (R346). -/
def ispInvalid (s : State) (p c code : Nat) : State :=
  let s := wr (wr s F.ISP_CTX_STATUS_VALID (ctxI p c) 0) F.ISP_CTX_STATUS_ERR (ctxI p c) code
  ispEvt (bump s F.ISP_CTX_BYPASS_ERR_COUNT (ctxI p c)) p 2

/-- The validation of a job: the frame that still learns its geometry fails with GEOMETRY (R284). -/
def jobCode (s : State) (p : Nat) (j : IspJob) : Nat :=
  let code := ispValidate s p j.ctx j.stream
  match frameAt s j.stream j.seq with
  | some f => if f.learn && code ≠ 1 then 2 else code
  | none => code

/-- The first unit of a job signals the rewrite of its output slots: an ISPOUT descriptor that reads one of them for an earlier
frame will end GONE (R421). -/
def signalRewrite (s : State) (p : Nat) (j : IspJob) : State :=
  { s with descs := s.descs.map fun d =>
      let q := d.seq.getD 0
      if d.kind == dISPOUT && d.pipe == p && d.ctx == j.ctx && d.started && !d.moved && d.ended.isNone && decide (q < j.seq)
          && outEnabled s p j.ctx d.output && outAddr s p j.ctx d.output j.index == outAddr s p j.ctx d.output (ispIndex s p j.ctx q)
      then { d with rewritten := true } else d }

/-- The frame of a job starts with the exposures `es`: validated, latched, its slot index taken by the settings of now (R332,
R345, R346); none where it is bypassed instead. -/
def ispStart (s : State) (p : Nat) (j : IspJob) (es : List (Nat × Nat)) : Option IspJob × State :=
  let code := jobCode s p j
  if code ≠ 0 then (none, ispBypass (ispInvalid s p j.ctx code) p j)
  else
    let s := wr (wr s F.ISP_CTX_STATUS_VALID (ctxI p j.ctx) 1) F.ISP_CTX_STATUS_ERR (ctxI p j.ctx) 0
    let j := { j with started := true, snap := ispSnap s, index := ispIndex s p j.ctx j.seq, exps := es }
    (some j, setActive (signalRewrite (putJob s p j) p j) p j.ctx)

/-! ### Admission (R314, R316, R317, R344) -/

/-- The exposures of a job that are known, and whether all have been stored (R316, R317). -/
def findExposures (s : State) (p : Nat) (j : IspJob) : List (Nat × Nat) × Bool :=
  match mergeForm s p j.ctx with
  | 0 => ([(j.stream, j.seq)], true)
  | 1 =>
    let w := 1000 * rd s F.ISP_CTX_MERGE_PAIR_US (ctxI p j.ctx)
    (partners s p j.ctx).foldl (fun a k =>
      let near := s.frames.filter fun f => f.stream == k && f.tent.isNone && decide (f.tbFs ≤ j.tb + w) && decide (j.tb ≤ f.tbFs + w)
      match near.foldl (fun (b : Option Frame) f => match b with
        | none => some f
        | some g => if f.tbFs < g.tbFs then some f else b) none with
      | none => (a.1, false)
      | some f => (a.1 ++ [(k, f.seq)], a.2 && f.phase ≠ .open)) ([(j.stream, j.seq)], true)
  | _ =>
    let qs := (List.range (mergeN s p j.ctx)).map fun i => (j.stream, j.seq + i)
    (qs, qs.all fun e => match frameAt s e.1 e.2 with
      | some f => f.phase ≠ .open
      | none => false)

/-- Jobs that wait for exposures take those that have been stored since (R316, R317); a group of SEQUENTIAL that a later
frame has passed is bypassed (log 38). -/
def ispGather (s : State) (p : Nat) : State :=
  ((ispAt s p).jobs.filter fun j => j.gather).foldl (fun s j =>
    let (es, full) := findExposures s p j
    if full then putJob s p { j with exps := es, gather := false }
    else if mergeForm s p j.ctx == 2 && s.frames.any fun f =>
        f.stream == j.stream && f.tent.isNone && f.phase ≠ .open && decide (j.seq + mergeN s p j.ctx ≤ f.seq)
    then ispBypass s p { j with exps := es }
    else putJob s p { j with exps := es }) s

/-- The oldest pending frames give way to a further one (R344). -/
def ispRoom (fuel : Nat) (s : State) (p c : Nat) : State :=
  match fuel with
  | 0 => s
  | fuel + 1 =>
    if ispPending s p c < max 1 (rd s F.ISP_CTX_STRIPE_MAX_PENDING (ctxI p c)) then s
    else match (ispAt s p).jobs.find? fun j => j.ctx == c && !j.started && !j.manual && !j.inl with
      | none => s
      | some j => ispRoom fuel (ispBypass (bump s F.ISP_CTX_BYPASS_OVERRUN_COUNT (ctxI p c)) p j) p c

/-- Frame f is due on context c of pipeline p from now on. -/
def addJob (s : State) (p c : Nat) (f : Frame) (inl : Bool) : State :=
  let s := setFrame s f.stream f.seq fun f => { f with due := f.due ++ [(p, c)] }
  let j : IspJob :=
    { ctx := c, stream := f.stream, seq := f.seq, tb := f.tbFs, index := ispIndex s p c f.seq, exps := [(f.stream, f.seq)]
      manual := false, inl := inl, gather := !inl && mergeForm s p c ≠ 0, since := s.ns, started := false, next := 0
      stop := false, ovr := false, ecc := false, snap := [] }
  mapJobs s p fun js => js ++ [j]

/-- The first stripe of an open frame is ready on a striped context (R341). -/
def stripeReady (s : State) (p c k : Nat) (f : Frame) : Bool :=
  let h := rd s F.ISP_CTX_STRIPE_STRIPE_H (ctxI p c)
  f.phase ≠ .open || decide ((k + 1) * h + peelOf (rd s F.ISP_CTX_CFG_MOSAIC (ctxI p c)) ≤ f.slots)

/-- The contexts of SHARED pipelines that are due for the frame with SEQ q of stream k take it once it has closed or its
first stripe is ready (R314, R341, R344). -/
def ispAdmit (s : State) (k q : Nat) : State :=
  (List.range 128).foldl (fun s i =>
    let p := i / 64
    let c := i % 64
    if ispMode s p ≠ ispSHARED then s
    else match frameAt s k q with
      | none => s
      | some f =>
        let ready := f.phase ≠ .open
          || (mergeForm s p c == 0 && isSet s F.ISP_CTX_CFG_STRIPED (ctxI p c) && stripeReady s p c 0 f)
        if ready && ispDue s p c k q && !f.due.contains (p, c) then
          let s := addJob (ispRoom 8 s p c) p c f false
          ispGather s p
        else s) s

/-- The frame with SEQ q of stream k has closed: it is admitted, and merges that wait may take it. -/
def ispClosed (s : State) (k q : Nat) : State := ispGather (ispGather (ispAdmit s k q) 0) 1

/-- A frame opens: an in-line context that is due starts it (R340, R345). -/
def ispOpens (s : State) (k q : Nat) : State :=
  [0, 1].foldl (fun s p =>
    let c := rd s F.ISP_CTL_INLINE_CTX p
    match frameAt s k q with
    | none => s
    | some f =>
      if ispMode s p = ispINLINE ∧ ispDue s p c k q ∧ !f.due.contains (p, c) then
        let s := addJob s p c f true
        match (ispAt s p).jobs.find? fun j => j.inl && j.seq == q && j.stream == k with
        | none => s
        | some j => (ispStart s p j j.exps).2
      else s) s

/-- A line of the frame with SEQ q of stream k enters the in-line input buffers; how much has drained is free; where the
buffer fills, the frame is abandoned (R340; log 39). -/
def ispLine (s : State) (k q n : Nat) : State :=
  [0, 1].foldl (fun s p =>
    let u := ispAt s p
    match u.jobs.find? fun j => j.inl && j.stream == k && j.seq == q with
    | none => s
    | some j =>
      let (v, s) := takeFree s 32
      let left := u.inBuf - v % (u.inBuf + 1)
      if left + n ≤ 65536 then setIsp s p { ispAt s p with inBuf := left + n }
      else ispBypass (ispEvt (setIsp s p { ispAt s p with inBuf := 0 }) p 4) p j) (ispAdmit s k q)

/-- No partner frame within PAIR_US (R317). -/
def ispMergeTimeout (s : State) (p c : Nat) : State :=
  match (ispAt s p).jobs.find? fun j => j.ctx == c && j.gather with
  | none => s
  | some j =>
    if mergeForm s p c == 1 && decide (j.since + 1000 * rd s F.ISP_CTX_MERGE_PAIR_US (ctxI p c) ≤ s.ns)
    then ispBypass (bump s F.ISP_CTX_MERGE_MISS_COUNT (ctxI p c)) p j else s

def execIspMergeTimeout (i c : Nat) (s : State) : Host.Outcome State Fault Refusal :=
  onBlock (12 + i) i 2 s fun s => if c < 64 then ispMergeTimeout s i c else s

/-! ### The scheduler (R341, R343, R344) -/

/-- The first job of a context, if its next unit is ready. -/
def readyJob (s : State) (p c : Nat) : Option IspJob :=
  match (ispAt s p).jobs.find? fun j => j.ctx == c && !j.inl with
  | none => none
  | some j =>
    if j.gather then none
    else
      let v := if j.started then snapView s j else s
      let ok : Bool := match frameAt s j.stream j.seq with
        | none => true
        | some f => f.phase ≠ .open || (isSet v F.ISP_CTX_CFG_STRIPED (ctxI p c) && stripeReady v p c j.next f)
      if ok then some j else none

/-- The contexts with a ready unit. -/
def readyCtxs (s : State) (p : Nat) : List Nat :=
  if ispMode s p = ispSHARED then (List.range 64).filter fun c => (readyJob s p c).isSome else []

/-- The PRIORITY of a context: as latched while a frame of it runs (R343, R345). -/
def ctxPriority (s : State) (p c : Nat) : Nat :=
  match (ispAt s p).jobs.find? fun j => j.ctx == c && !j.inl with
  | some j => rd (if j.started then snapView s j else s) F.ISP_CTX_CFG_PRIORITY (ctxI p c)
  | none => rd s F.ISP_CTX_CFG_PRIORITY (ctxI p c)

/-- The context the scheduler takes next: the highest PRIORITY, then the one that follows the one last served (R343). -/
def nextCtx (s : State) (p : Nat) : Option Nat :=
  let last := (ispAt s p).last
  let cs := ((List.range 64).map fun i => (last + 1 + i) % 64).filter fun c => (readyCtxs s p).contains c
  cs.foldl (fun (b : Option Nat) c =>
    match b with
    | none => some c
    | some d => if ctxPriority s p d < ctxPriority s p c then some c else b) none

/-- A unit of context c begins on pipeline p: a context switch where it is not the one last loaded (R341). -/
def beginUnit (s : State) (p c : Nat) : State :=
  let same := isSet s F.ISP_STATUS_LOADED p && rd s F.ISP_STATUS_CUR_CTX p == c
  let s := if same then s else bump s F.ISP_SWITCHES_COUNT p
  let s := wr (wr s F.ISP_STATUS_LOADED p 1) F.ISP_STATUS_CUR_CTX p c
  setIsp s p { ispAt s p with unit := some c, last := c }

/-- The scheduler starts the next ready unit; frames that are too old or invalid at their first unit are bypassed
(R343, R344, R346). A frame whose context merges by now waits for its exposures (R316, R345). -/
def unitStart (fuel : Nat) (s : State) (p : Nat) : State :=
  match fuel with
  | 0 => s
  | fuel + 1 =>
    if (ispAt s p).unit.isSome then s
    else match nextCtx s p with
      | none => s
      | some c => match readyJob s p c with
        | none => s
        | some j =>
          if j.started then beginUnit s p c
          else if !j.manual && decide (j.tb + rd s F.ISP_CTX_MAX_AGE_NS (ctxI p c) < s.tb) then
            unitStart fuel (ispBypass (bump s F.ISP_CTX_BYPASS_AGE_COUNT (ctxI p c)) p j) p
          else
            let e := findExposures s p j
            if !e.2 then unitStart fuel (putJob s p { j with gather := true }) p
            else match ispStart s p j e.1 with
              | (none, t) => unitStart fuel t p
              | (some _, t) => beginUnit t p c

def execIspUnitStart (i : Nat) (s : State) : Host.Outcome State Fault Refusal := onBlock (12 + i) i 2 s fun s => unitStart 512 s i

/-! ### Processing (R308 to R337) -/

/-- The pipeline context engine's own MID, which error logs show (R40, R351). -/
def midISP : Nat := 0x1B

/-- An exposure as the pipeline reads it from LP5X: the left-justified codes of the first `h` lines. -/
def readExposure (s : State) (e : Nat × Nat) (h : Nat) : Img × State :=
  match frameAt s e.1 e.2 with
  | none => (fun _ _ => 0, s)
  | some f =>
    let (bs, s) := memRead s midISP (slotAddr s e.1 e.2) (h * f.lineBytes)
    let a := bs.toArray
    let b := (rawBits f.dt).getD 24
    (fun x y => leftJustify b (rawCode f.dt (fun i => a.getD (y * f.lineBytes + i) 0) x), s)

/-- The lines of a job's frame that are processed: HEIGHT of the tag for a TRUNCATED frame (R334). -/
def jobLines (f : Frame) : Nat := if f.flags.testBit flTRUNC then min f.slots f.height else f.height

/-- Line y of an exposure is not what the camera sent: it was lost, or it lies beyond what a TRUNCATED partner received, or the
frame is not known any more (R334; log 88). -/
def exposureBad (s : State) (e : Nat × Nat) (y : Nat) : Bool :=
  match frameAt s e.1 e.2 with
  | some f => f.lostLines.contains y || decide (jobLines f ≤ y)
  | none => true

/-- Write one line of an output; it is undefined where a lost line or an overwritten frame reaches it (R334, R349). -/
def writeOutLine (s : State) (addr : Nat) (undefinedAt : Nat → Bool) (peel : Nat) (ln : OutLine) : State :=
  let bad := (List.range (ln.count + 2 * peel)).any fun i => decide (peel ≤ ln.first + i) && undefinedAt (ln.first + i - peel)
  if bad then
    let (v, s) := takeFree s (8 * ln.bytes.length)
    memWrite s midISP (addr + ln.off) (toBytes ln.bytes.length v)
  else memWrite s midISP (addr + ln.off) ln.bytes

/-- A frame processed: its parameters, images and the state after its reads. -/
def ispProcess (s : State) (p : Nat) (j : IspJob) (f : Frame) : IspPar × IspImage × State × Nat :=
  let v := snapView s j
  let h := jobLines f
  let par := ispPar v s p j.ctx f.width h f.height
  let (ds, bad) := defectList v s p j.ctx f.width f.height
  let (codes, s) := j.exps.foldl (fun (a : List Img × State) e =>
    let (im, t) := readExposure a.2 e h
    (a.1 ++ [im], t)) ([], s)
  (par, runStages par (isStatic ds) codes, s, bad)

/-- The outputs of input lines `a` to `b` − 1 of a job (R328 to R334). Where the region has overwritten the frame of a manual
job, all its outputs are undefined, those of earlier stripes too (R349). -/
def ispWrite (s : State) (p : Nat) (j : IspJob) (par : IspPar) (im : IspImage) (a b : Nat) : State :=
  let v := snapView s j
  let o := outPar v p j.ctx
  let gone := j.manual && j.ovr
  let undef := fun y => gone || j.exps.any fun e => exposureBad s e y
  let a := if gone then 0 else a
  (List.range 3).foldl (fun s out =>
    if outEnabled v p j.ctx out then
      (outLines par o im out a b).foldl (fun s ln =>
        writeOutLine s (outAddr v p j.ctx out j.index) undef (peelOf par.mosaic) ln) s
    else s) s

/-- The statistics record of a job (R336). -/
def statRecordOf (s : State) (p : Nat) (j : IspJob) (f : Frame) (par : IspPar) (im : IspImage) : List Nat :=
  let st := statPar (snapView s j) p j.ctx
  let fl := (if f.flags.testBit flTRUNC then 1 else 0) + (if f.flags.testBit flDROPPED then 2 else 0)
    + (if j.ecc then 4 else 0) + (if j.ovr then 8 else 0) + (if 1 < j.exps.length then 16 else 0)
  toBytes 8 (j.seq % 2 ^ 48 + j.stream * 2 ^ 48 + p * 2 ^ 54 + (if j.manual then 2 ^ 55 else 0) + 2 ^ 56)
    ++ toBytes 8 f.tbFs ++ [j.ctx, if par.mosaic = 5 then 1 else 4, st.histShift, fl] ++ statBody par st im

/-- The record goes to ISP_LAST_STAT and to the STAT ring (R337, R351). -/
def ispStat (s : State) (p : Nat) (j : IspJob) (bs : List Nat) : State :=
  let v := snapView s j
  let i := ctxI p j.ctx
  if !isSet v F.ISP_CTX_OUT_EN_STAT_EN i then s
  else
    let s := setIsp s p { ispAt s p with lastStat := bs }
    if !isSet v F.ISP_CTX_STAT_STAT_RING_EN i then s
    else
      let ring := rd v F.ISP_CTX_STAT_STAT_RING i
      let mid := ispMaster s p j.ctx
      let (ok, s) := if reachesRing s mid ring then statRecord s ring bs else (false, secRefuse s midISP ring true)
      if ok then s else ispEvt (bump s F.ISP_CTX_STAT_LOST_COUNT i) p 5

/-- The last outputs of a job are written: its record, its entries out of order and its DONE outcome (R320, R337, R346). -/
def ispFinish (s : State) (p : Nat) (j : IspJob) (f : Frame) (par : IspPar) (im : IspImage) (bad : Nat) : State :=
  let s := bumpBy s F.ISP_CTX_DEF_ORDER_COUNT (ctxI p j.ctx) bad
  ispOutcome (ispStat s p j (statRecordOf s p j f par im)) p j true

/-- The unit of pipeline p is done; `ecc` are the errors that its LP5X accesses met (R341, R348, R402). -/
def unitDone (s : State) (p : Nat) (ecc : List (Nat × Nat)) : State :=
  match (ispAt s p).unit with
  | none => s
  | some c =>
    let s := setIsp s p { ispAt s p with unit := none }
    match (ispAt s p).jobs.find? fun j => j.ctx == c && j.started && !j.inl with
    | none => s
    | some j =>
      if j.stop then ispBypass s p j
      else match frameAt s j.stream j.seq with
        | none => ispBypass s p j
        | some f =>
          let v := snapView s j
          let (bad, s) := memErrors s midISP ecc
          let j := { j with ovr := j.ovr || !held s j.stream j.seq, ecc := j.ecc || bad }
          let (par, im, s, bad) := ispProcess s p j f
          let hs := rd v F.ISP_CTX_STRIPE_STRIPE_H (ctxI p c)
          let striped := isSet v F.ISP_CTX_CFG_STRIPED (ctxI p c)
          let a := if striped then j.next * hs else 0
          let last := !striped || (f.phase ≠ .open && decide (par.h ≤ a + hs))
          let b := if striped then min par.h (a + hs) else par.h
          let s := ispWrite s p j par im a b
          if last then ispFinish s p j f par im bad else putJob s p { j with next := j.next + 1 }

def execIspUnitDone (i : Nat) (ecc : List (Nat × Nat)) (s : State) : Host.Outcome State Fault Refusal :=
  onBlock (12 + i) i 2 s fun s => unitDone s i ecc

/-- An in-line frame's outputs complete after its FE; `ecc` are the link errors that its writes met (R340, R400). -/
def inlineDone (s : State) (p : Nat) (ecc : List (Nat × Nat)) : State :=
  match (ispAt s p).jobs.find? fun j => j.inl && (match frameAt s j.stream j.seq with
      | some f => f.phase ≠ .open
      | none => false) with
  | none => s
  | some j => match frameAt s j.stream j.seq with
    | none => s
    | some f =>
      let s := (memErrors s midISP (ecc.filter (·.1 == 1))).2
      let (par, im, s, bad) := ispProcess s p j f
      ispFinish (ispWrite s p j par im 0 par.h) p j f par im bad

def execIspInlineDone (i : Nat) (ecc : List (Nat × Nat)) (s : State) : Host.Outcome State Fault Refusal :=
  onBlock (12 + i) i 2 s fun s => inlineDone s i ecc

/-! ### Disable, modes, manual jobs (R348, R349) -/

/-- The jobs of pipeline p that satisfy `q` end: pending ones at once, one whose unit runs at the unit boundary (R348). -/
def stopJobs (s : State) (p : Nat) (q : IspJob → Bool) : State :=
  ((ispAt s p).jobs.filter q).foldl (fun s j =>
    if j.started && !j.inl && (ispAt s p).unit == some j.ctx then putJob s p { j with stop := true } else ispBypass s p j) s

/-- A write of EN = 0 to a context (R348). -/
def ctxDisable (s : State) (p c : Nat) : State :=
  if !domUp s (16 + p) then s else stopJobs (wr s F.ISP_CTX_CFG_EN (ctxI p c) 0) p fun j => j.ctx == c

def execIspCtxDisable (i c : Nat) (s : State) : Host.Outcome State Fault Refusal :=
  onBlock (12 + i) i 2 s fun s => if c < 64 then ctxDisable s i c else s

/-- A write of `val` to ISP_CTL (R339, R348, R352). -/
def ispModeWrite (s : State) (p val : Nat) : State :=
  if !domUp s (16 + p) then s
  else
    let m := val % 4
    let c := bitsOf val 8 6
    let cur := rd s F.ISP_CTL_MODE p
    if cur ≠ ispOFF ∧ ((m ≠ ispOFF ∧ m ≠ cur) ∨ c ≠ rd s F.ISP_CTL_INLINE_CTX p) then ispEvt s p 6
    else
      let s := wr s F.ISP_CTL_INLINE_CTX p c
      if m = 3 then ispEvt s p 6
      else
        let s := wr s F.ISP_CTL_MODE p m
        if m = ispOFF then stopJobs s p fun _ => true else s

def execIspModeWrite (i val : Nat) (s : State) : Host.Outcome State Fault Refusal := onBlock (12 + i) i 2 s fun s => ispModeWrite s i val

/-- ISP_SUBMIT.GO: a manual job of context CTX, or its refusal (R349). -/
def ispSubmit (s : State) (p : Nat) : State :=
  if !domUp s (16 + p) then s
  else
    let c := rd s F.ISP_SUBMIT_CTX p
    let q := rd s F.ISP_SUBMIT_SEQ_SEQ p
    let k := rd s F.ISP_CTX_SRC_STREAM (ctxI p c)
    let refuse := fun (e : Nat) => ispEvt (wr s F.ISP_SUBMIT_ERR p e) p 3
    if isSet s F.ISP_SUBMIT_PENDING p then refuse 1
    else if !isSet s F.ISP_CTX_CFG_EN (ctxI p c) || ispValidate s p c k ≠ 0 then refuse 2
    else match frameAt s k q with
      | none => refuse 3
      | some f =>
        if !held s k q then refuse 3
        else if rd s F.ISP_CTL_MODE p ≠ ispSHARED then refuse 4
        else
          let j : IspJob :=
            { ctx := c, stream := k, seq := q, tb := f.tbFs, index := ispIndex s p c q, exps := [(k, q)], manual := true
              inl := false, gather := mergeForm s p c ≠ 0, since := s.ns, started := false, next := 0, stop := false
              ovr := false, ecc := false, snap := [] }
          ispGather (mapJobs (wr (wr s F.ISP_SUBMIT_PENDING p 1) F.ISP_SUBMIT_ERR p 0) p fun js => js ++ [j]) p

def execIspSubmitGo (i _mid : Nat) (s : State) : Host.Outcome State Fault Refusal := onBlock (12 + i) i 2 s fun s => ispSubmit s i

/-- The SAT counters of a context. -/
def ctxCounters : List Field :=
  [F.ISP_CTX_DONE_COUNT, F.ISP_CTX_BYPASS_AGE_COUNT, F.ISP_CTX_BYPASS_OVERRUN_COUNT, F.ISP_CTX_BYPASS_ERR_COUNT,
   F.ISP_CTX_MERGE_MISS_COUNT, F.ISP_CTX_DEF_ORDER_COUNT, F.ISP_CTX_STAT_LOST_COUNT]

/-- ISP_CTX_CMD.CLR_COUNTS (R17). -/
def execIspCtxClrCounts (i c : Nat) (s : State) : Host.Outcome State Fault Refusal :=
  onBlock (12 + i) i 2 s fun s => if c < 64 then clearAll s ctxCounters (ctxI i c) else s

/-- A read of the first word of ISP_LAST_STAT captures the record (R338). -/
def lastStatRead (s : State) (p : Nat) : State :=
  if domUp s (16 + p) then setIsp s p { ispAt s p with lastRead := (ispAt s p).lastStat } else s

def execLastStatRead (i : Nat) (s : State) : Host.Outcome State Fault Refusal := onBlock (12 + i) i 2 s fun s => lastStatRead s i

/-! ### Presets (R313) -/

/-- The MOSAIC, the twelve matrix elements and IR_K of a preset. -/
def ispPreset (n : Nat) : Nat × List Int × Nat :=
  match n with
  | 2 => (1, [4096, 0, 0, 0, 0, 4096, 0, 0, 0, 0, 4096, 0], 4096)
  | 3 => (2, [4096, 0, 0, 0, -4096, 4096, -4096, 0, 0, 0, 4096, 0], 0)
  | 4 => (3, [4096, 0, 0, 0, 0, 0, 4096, 0, -4096, 4096, -4096, 0], 0)
  | 5 => (4, [4096, 0, 0, 0, 0, 4096, 0, 0, 0, 0, 4096, 0], 0)
  | 6 => (5, [4096, 0, 0, 0, 0, 0, 0, 0, 0, 0, 0, 0], 0)
  | _ => (0, [4096, 0, 0, 0, 0, 4096, 0, 0, 0, 0, 4096, 0], 0)

/-- The fields of the colour matrix, in order of their elements. -/
def ccmFields : List Field :=
  [F.ISP_CTX_CCM_0_LOW, F.ISP_CTX_CCM_0_HIGH, F.ISP_CTX_CCM_1_LOW, F.ISP_CTX_CCM_1_HIGH, F.ISP_CTX_CCM_2_LOW,
   F.ISP_CTX_CCM_2_HIGH, F.ISP_CTX_CCM_3_LOW, F.ISP_CTX_CCM_3_HIGH, F.ISP_CTX_CCM_4_LOW, F.ISP_CTX_CCM_4_HIGH,
   F.ISP_CTX_CCM_5_LOW, F.ISP_CTX_CCM_5_HIGH]

/-- The fields that a preset owns (R313, R51). -/
def presetFields : List Field :=
  ccmFields ++ [F.ISP_CTX_CFG_MOSAIC, F.ISP_CTX_IRSUB_0_LOW, F.ISP_CTX_IRSUB_0_HIGH, F.ISP_CTX_IRSUB_1_LOW,
    F.ISP_CTX_CFG_ORDER, F.ISP_CTX_MERGE_FORM, F.ISP_CTX_LIN_LIN_EN, F.ISP_CTX_CFG_DEMOSAIC, F.ISP_CTX_DEFECT_DYN_EN,
    F.ISP_CTX_DYN_THRESH_VALUE, F.ISP_CTX_LUMA_0_LOW, F.ISP_CTX_LUMA_0_HIGH, F.ISP_CTX_LUMA_1_LOW]

/-- A non-zero PRESET sets its fields (R313). -/
def applyPreset (s : State) (p c n : Nat) : State :=
  if n = 0 then s
  else
    let i := ctxI p c
    let (mosaic, m, ir) := ispPreset n
    let s := wr s F.ISP_CTX_CFG_MOSAIC i mosaic
    let s := (ccmFields.zip m).foldl (fun s e => wr s e.1 i (fromSigned 16 e.2)) s
    let s := [F.ISP_CTX_IRSUB_0_LOW, F.ISP_CTX_IRSUB_0_HIGH, F.ISP_CTX_IRSUB_1_LOW].foldl (fun s f => wr s f i ir) s
    let s := wr (wr (wr s F.ISP_CTX_CFG_ORDER i 0) F.ISP_CTX_MERGE_FORM i 0) F.ISP_CTX_LIN_LIN_EN i 0
    let s := wr (wr (wr s F.ISP_CTX_CFG_DEMOSAIC i 1) F.ISP_CTX_DEFECT_DYN_EN i 1) F.ISP_CTX_DYN_THRESH_VALUE i 0x100000
    wr (wr (wr s F.ISP_CTX_LUMA_0_LOW i 13933) F.ISP_CTX_LUMA_0_HIGH i 46871) F.ISP_CTX_LUMA_1_LOW i 4732

/-! ### Power (R350) -/

/-- Pipeline p loses its jobs, tables, defect map and what it holds beside its registers (R350). -/
def ispMemLost (s : State) (p : Nat) : State :=
  { (memLose (setIsp s p Isp.init) (memISP p)) with ispMem := sfilter (fun a => a / 0x100000 ≠ p) s.ispMem
                                                    ispMid := sfilter (fun i => i / 64 ≠ p) s.ispMid }

/-- D16 or D17 powers down: every frame is bypassed; contexts, counters, tables and map are lost (R350). -/
def ispPowerDown (s : State) (p : Nat) : State :=
  ispMemLost (((ispAt s p).jobs).foldl (fun s j => ispBypass s p j) s) p

/-- An ISP_DONE or statistics read back: byte o of the captured record (R338). -/
def lastStatByte (s : State) (p o : Nat) : Nat := (ispAt s p).lastRead.getD o 0

end Sys2Proof.Machine
end

