-- ==== Sys2Proof/Machine/Dma.lean ====
section
/-! DEFINITION. The DMA engine: descriptors, channels, transforms, stream delivery (spec/10, R410 to R434; spec/11, R447,
R457, R458). -/
namespace Sys2Proof.Machine

/-! ### Address fields (R412) -/

/-- An address field has a bit that must be zero (R412). -/
def dmaAddrBad (a : Nat) : Bool :=
  match dmaSpace a with
  | 0 => decide (2 ^ 36 ≤ dmaAddr a)
  | 1 => decide (2 ^ 23 ≤ dmaAddr a)
  | 2 => false
  | _ => decide (2 ^ 12 ≤ dmaAddr a)

/-! ### Transforms (R417) -/

/-- K and E of DEINTERLEAVE and INTERLEAVE. -/
def xK (par : Nat) : Nat := par % 4 + 2
def xE (par : Nat) : Nat := par / 4 % 2 + 1

/-- The group of a packing: pixels and bits of low part. -/
def xForm (par : Nat) : Nat × Nat := (packForm par).getD (4, 2)

/-- The bytes of LENGTH in one unit. -/
def xUnit (code par : Nat) : Nat :=
  match code with
  | 1 => 2
  | 2 => 4
  | 3 => 8
  | 4 => groupBytes (xForm par)
  | 5 => groupBytes (xForm par)
  | 6 => (xForm par).1
  | 7 => xK par * xE par
  | 8 => xE par
  | _ => 1

/-- The parameter is one the table lists. -/
def xParOk (code par : Nat) : Bool :=
  if code ≤ 3 then par == 0
  else if code ≤ 6 then decide (par ≤ 2)
  else code ≤ 8 && par % 4 ≠ 3 && decide (par < 8)

/-- The source bytes of unit p, as (plane, offset in the row). -/
def xSource (code par p : Nat) : List (Nat × Nat) :=
  match code with
  | 6 =>
    let (g, low) := xForm par
    (List.range g).map (fun i => (0, p * g + i)) ++ (List.range (g * low / 8)).map fun i => (1, p * (g * low / 8) + i)
  | 8 => (List.range (xK par)).flatMap fun j => (List.range (xE par)).map fun i => (j, p * xE par + i)
  | _ => (List.range (xUnit code par)).map fun i => (0, p * xUnit code par + i)

/-- The destination bytes of unit p from its source bytes, as (plane, offset in the row, byte). -/
def xDest (code par p : Nat) (bs : List Nat) : List (Nat × Nat × Nat) :=
  let u := bs.length
  match code with
  | 4 =>
    let (g, low) := xForm par
    (List.range g).flatMap fun k =>
      let v := packedPixel g low (fun i => bs.getD i 0) k
      [(0, 2 * (p * g + k), v % 256), (0, 2 * (p * g + k) + 1, v / 256)]
  | 5 =>
    let (g, low) := xForm par
    bs.zipIdx.map fun e => if e.2 < g then (0, p * g + e.2, e.1) else (1, p * (g * low / 8) + (e.2 - g), e.1)
  | 7 => bs.zipIdx.map fun e => (e.2 / xE par, p * xE par + e.2 % xE par, e.1)
  | 1 => bs.zipIdx.map fun e => (0, p * u + (u - 1 - e.2), e.1)
  | 2 => bs.zipIdx.map fun e => (0, p * u + (u - 1 - e.2), e.1)
  | 3 => bs.zipIdx.map fun e => (0, p * u + (u - 1 - e.2), e.1)
  | _ => bs.zipIdx.map fun e => (0, p * u + e.2, e.1)

/-- The destination bytes of a row of `n` units: of plane A or of each plane, and of plane B of PLANE_SPLIT. -/
def xOutRow (code par n : Nat) : Nat × Nat :=
  match code with
  | 4 => (2 * n * (xForm par).1, 0)
  | 5 => (n * (xForm par).1, n * ((xForm par).1 * (xForm par).2 / 8))
  | 6 => (n * groupBytes (xForm par), 0)
  | 7 => (n * xE par, 0)
  | 8 => (n * xK par * xE par, 0)
  | c => (n * xUnit c par, 0)

/-! ### Addresses (R414, R417) -/

/-- The address `off` bytes from `start` under a wrap. -/
def wrapAddr (start w off : Nat) : Nat :=
  if w = 0 then start + off
  else
    let block := start / 2 ^ w * 2 ^ w
    block + (start - block + off) % 2 ^ w

/-- The offset of byte `off` of plane `pl` of row r from the start, on the source side. -/
def Desc.srcOff (d : Desc) (r pl off : Nat) : Nat :=
  if pl = 0 then r * d.srcStride + off
  else if d.xcode = 6 then d.planeOff + r * d.planeStride + off
  else pl * d.planeOff + r * d.srcStride + off

/-- The same on the destination side. -/
def Desc.dstOff (d : Desc) (r pl off : Nat) : Nat :=
  if pl = 0 then r * d.dstStride + off
  else if d.xcode = 5 then d.planeOff + r * d.planeStride + off
  else pl * d.planeOff + r * d.dstStride + off

/-! ### Checks and acceptance (R413, R447) -/

/-- The extent of one side of a descriptor of `length` bytes in each of `rows` rows, in bytes from its start. -/
def Desc.extent (d : Desc) (length rows : Nat) (source : Bool) : Nat :=
  let n := length / xUnit d.xcode d.xpar
  let rows := max rows 1
  let rowEnd := fun (pl len : Nat) => if source then d.srcOff (rows - 1) pl len else d.dstOff (rows - 1) pl len
  if source then
    match d.xcode with
    | 6 => max (rowEnd 0 length) (rowEnd 1 (n * ((xForm d.xpar).1 * (xForm d.xpar).2 / 8)))
    | 8 => rowEnd (xK d.xpar - 1) length
    | _ => rowEnd 0 length
  else
    let (a, b) := xOutRow d.xcode d.xpar n
    match d.xcode with
    | 5 => max (rowEnd 0 a) (rowEnd 1 b)
    | 7 => rowEnd (xK d.xpar - 1) a
    | _ => rowEnd 0 a

/-- An address range lies beyond MEM_USABLE or beyond the SPM; one that wraps takes its whole block. -/
def rangeBeyond (s : State) (a w n : Nat) : Bool :=
  let start := dmaAddr a
  let n := max n 1
  let last := if w = 0 ∨ start % 2 ^ w + n ≤ 2 ^ w then start + n else start / 2 ^ w * 2 ^ w + 2 ^ w
  match dmaSpace a with
  | 0 => decide (rd s F.MEM_USABLE_VALUE < last)
  | 1 => decide (0x800000 < last)
  | _ => false

/-- A wrap value other than 0 or 12 to 36. -/
def wrapBad (w : Nat) : Bool := w ≠ 0 && (decide (w < 12) || decide (36 < w))

/-- The form of the descriptor gives RANGE (R413). -/
def Desc.formBad (d : Desc) : Bool :=
  let k := d.kind
  decide (k < 1) || decide (3 < k) || decide (16 ≤ d.u 1 1) || decide (63 < d.chan) || decide (4096 ≤ d.u 4 2)
  || d.u 0x36 2 ≠ 0 || d.u 0x3C 4 ≠ 0 || dmaAddrBad d.dst
  || wrapBad (d.u 0x30 1) || wrapBad (d.u 0x31 1)
  || !xParOk d.xcode d.xpar || d.length % xUnit d.xcode d.xpar ≠ 0
  || (if k = dCOPY then dmaAddrBad d.src || dmaSpace d.src == 3
      else d.u 0x30 1 ≠ 0 || decide (2 ^ (if k = dFRAME then 54 else 63) ≤ d.src) || (k == dISPOUT && d.output == 3))
  || (k ≠ dFRAME && (d.rows == 0 || d.early))

/-- The descriptor names LP5X or the SPM: space 0 or 1. -/
def Desc.names (d : Desc) (p : Nat → Bool) : Bool := p (dmaSpace d.dst) || (d.kind == dCOPY && p (dmaSpace d.src))

/-- The rings of the descriptor: RANGE, REFUSED or nothing (R447). -/
def ringsAnswer (s : State) (d : Desc) : Option Nat :=
  let live := fun (n t : Nat) => isSet s F.RNG_CFG_EN n && ringType s n == t
  let dstRing := dmaAddr d.dst
  let usesDst := dmaSpace d.dst == 3
  let refuses := fun (n : Nat) => (rd s F.RNG_CFG_ATTR n == 0 && isOpen d.mid) || (fnOf d.mid ≠ 0 && ringOwner s n ≠ fnOf d.mid)
  if (d.record && !live d.cmplRing rCMPL) || (usesDst && !live dstRing rFRAME) then some stRANGE
  else if (d.record && refuses d.cmplRing) || (usesDst && refuses dstRing) then some stREFUSED
  else none

def dmaChAt (s : State) (c : Nat) : DmaCh := sget s.dmaCh DmaCh.init c
def setDmaCh (s : State) (c : Nat) (k : DmaCh) : State := { s with dmaCh := sset s.dmaCh DmaCh.init c k }

/-- The descriptors in flight (R410). -/
def inFlight (s : State) : Nat := (s.descs.filter fun d => d.ended.isNone).length

/-- The frame that a descriptor names, where it is known. -/
def descFrame (s : State) (d : Desc) : Option Frame := d.seq.bind fun q => frameAt s d.stream q

/-- The source bytes of a row and the rows of a descriptor as acceptance sees them: for a FRAME that asks for whole lines or for
every row, by the geometry of its stream, of the frame itself where that is known (R411, R413; log 97). -/
def acceptSize (s : State) (d : Desc) : Nat × Nat :=
  if d.kind = dFRAME then
    let (lb, h) := match descFrame s d with
      | some f => (f.lineBytes, max f.height f.slots)
      | none => if isSet s F.PKT_SCFG_GEOM_LEARN d.stream then (0, 0)
        else (lineBytesOf (rd s F.PKT_MAP_DT d.stream) (rd s F.PKT_GEOM_WIDTH d.stream), rd s F.PKT_GEOM_HEIGHT d.stream)
    (if d.length = 0 then lb - d.srcX else d.length, if d.rows = 0 then h - d.firstRow else d.rows)
  else (d.length, d.rows)

/-- A descriptor that can never be accepted as things stand: its form, its spaces and its address ranges (R413). -/
def checkAnswer (s : State) (d : Desc) : Option Nat :=
  let (len, rows) := acceptSize s d
  if d.formBad then some stRANGE
  else if isOpen d.mid && d.names (· ≤ 1) then some stREFUSED
  else if !memReady s && d.names (· == 0) then some stABSENT
  else if rangeBeyond s d.dst (d.u 0x31 1) (d.extent len rows false)
      || (d.kind == dCOPY && rangeBeyond s d.src (d.u 0x30 1) (d.extent len rows true)) then some stRANGE
  else none

/-- The answer to a descriptor that is not accepted; none where it is (R413, R428, R447). -/
def dmaAnswer (s : State) (d : Desc) : Option Nat :=
  match checkAnswer s d with
  | some a => some a
  | none =>
    match ringsAnswer s d with
    | some a => some a
    | none => if (dmaChAt s d.chan).draining || decide (256 ≤ inFlight s) then some stFULL else none

/-- Accept a descriptor: it takes the next ID (R410). -/
def acceptDesc (s : State) (d : Desc) : State :=
  let s : State := { s with descs := s.descs ++ [{ d with id := s.dmaNextId }], dmaNextId := (s.dmaNextId + 1) % 65536 }
  wr s F.DMA_INFLIGHT_PEAK 0 (max (rd s F.DMA_INFLIGHT_PEAK) (inFlight s))

/-- The SEQ that a selector names; all ones: the next frame of the stream to open (R412). -/
def selectorSeq (d : Desc) : Option Nat :=
  if d.kind = dCOPY then none else if d.src % 2 ^ 48 = 2 ^ 48 - 1 then none else some (d.src % 2 ^ 48)

/-- A descriptor of 64 bytes from master `mid`, not yet accepted. -/
def newDesc (mid : Nat) (bytes : List Nat) (region sdlv : Option Nat) : Desc :=
  let d : Desc := ⟨0, mid, bytes, region, sdlv, none, false, false, 0, 0, 0, 0, false, none, false, none⟩
  { d with seq := selectorSeq d }

/-- Submit a descriptor (R413). -/
def dmaSubmit (s : State) (mid : Nat) (bytes : List Nat) (region : Option Nat) : Answer × State :=
  let d := newDesc mid bytes region none
  match dmaAnswer s d with
  | some a => (.of a, s)
  | none => (⟨stOK, false, false, s.dmaNextId⟩, acceptDesc s d)

/-- DMA_SUB_CMD.GO (R413). -/
def dmaSubGo (s : State) (mid : Nat) : State :=
  if !domUp s 22 then s
  else
    let (a, s) := dmaSubmit s mid ((List.range 16).flatMap fun k => toBytes 4 (rd s F.DMA_SUB_DESC_DATA k)) none
    wr s F.DMA_SUB_RES_RESULT 0 a.word

def execDmaSubGo (mid : Nat) (s : State) : Host.Outcome State Fault Refusal := finish s (inBlock 16 s fun s => dmaSubGo s mid)

/-! ### Records and ends (R422 to R426, R458) -/

/-- What a descriptor's record is made from when it is written; a record is late only where it completes the descriptor
(R423, R458). -/
def Desc.recOf (d : Desc) (q : Nat) (ecc void : Bool) : Rec := .tag d.stream q d.chan (if void then 0 else d.lateNs) ecc void

/-- The SEQ in a descriptor's record: all ones where its selector never met a frame. -/
def Desc.recSeq (d : Desc) : Nat := d.seq.getD (2 ^ 48 - 1)

/-- A void record (R422, R389, R94). -/
def voidRecord (s : State) (d : Desc) : State :=
  if d.record then
    let s := dmaEvt (bump s F.DMA_CH_VOIDED_COUNT d.chan) d.chan 1
    cmplRecord s d.cmplRing (d.recOf d.recSeq false true)
  else s

/-- The COPY completion record with a STATUS (R458). -/
def copyRecord (s : State) (d : Desc) (status : Nat) : State :=
  if d.record then
    cmplRecord s d.cmplRing (.bytes (toBytes 2 d.id ++ toBytes 2 (d.u 6 2) ++ [status, d.chan, 0, 0x81] ++ toBytes 8 s.tb
      ++ toBytes 4 d.count ++ List.replicate 44 0))
  else s

/-- An uncorrectable read was made for a delivery: by the engine, or for ISPOUT by the pipeline that made the output (R423). -/
def descEcc (s : State) (d : Desc) : Bool :=
  d.ecc || (d.kind == dISPOUT && (descFrame s d).any fun f =>
    f.outcomes.any fun o => o.pipe == d.pipe && o.ctx == d.ctx && o.ecc)

/-- The record of a descriptor that reaches completion (R423, R425, R458). -/
def okRecord (s : State) (d : Desc) : State :=
  let c := d.chan
  let s := dmaEvt (bump s F.DMA_CH_DONE_COUNT c) c 0
  let s := if descEcc s d then dmaEvt s c 7 else s
  if d.kind = dCOPY then copyRecord s d 0
  else
    let s := match d.sdlv with
      | some k => bump s F.DMA_SDLV_DELIVERED_COUNT k
      | none => s
    if d.record then cmplRecord s d.cmplRing (d.recOf d.recSeq (descEcc s d) false) else s

/-- The record of a descriptor that ended before its completion (R389, R422, R458). -/
def endRecord (s : State) (d : Desc) (e : DescEnd) : State :=
  match e with
  | .rejected =>
    if d.early then voidRecord s d
    else if isSet s F.POD_GATE_CFG_REJECT_RECORD d.stream then okRecord s d else s
  | .aborted => if d.kind = dCOPY then copyRecord s d 1 else voidRecord s d
  | _ => voidRecord s d

def mapDesc (s : State) (id : Nat) (g : Desc → Desc) : State :=
  { s with descs := s.descs.map fun d => if d.id == id then g d else d }

def dropDesc (s : State) (id : Nat) : State := { s with descs := s.descs.filter fun d => d.id ≠ id }

/-- The descriptors of channel c, in order. -/
def chanDescs (s : State) (c : Nat) : List Desc := s.descs.filter fun d => d.chan == c

/-- A draining channel that has run out becomes IDLE (R428). -/
def dmaDrained (s : State) (c : Nat) : State :=
  let k := dmaChAt s c
  if k.draining && (chanDescs s c).isEmpty then dmaEvt (setDmaCh s c { k with draining := false }) c 5 else s

/-- The record of a descriptor has to wait for a place (R459). -/
def Desc.recordHeld (s : State) (d : Desc) : Bool := d.record && recordWaits s d.cmplRing

/-- Records of ended descriptors go out in the channel's order; that of a descriptor of an open region waits for its commit or its
squash, and one that finds no place waits for one (R94, R95, R426, R459). -/
def dmaFlush (fuel : Nat) (s : State) (c : Nat) : State :=
  match fuel with
  | 0 => s
  | fuel + 1 =>
    match chanDescs s c with
    | [] => dmaDrained s c
    | d :: _ => match if d.region.isSome || d.recordHeld s then none else d.ended with
      | none => s
      | some e => dmaFlush fuel (endRecord (dropDesc s d.id) d e) c

/-- A descriptor ends before its completion: counted at once, its record in order (R419, R421, R422, R426). -/
def endDesc (s : State) (d : Desc) (e : DescEnd) : State :=
  let c := d.chan
  let s := match e with
    | .gone => dmaEvt (bump s F.DMA_CH_GONE_COUNT c) c 2
    | .aborted => dmaEvt (bump s F.DMA_CH_ABORTED_COUNT c) c 3
    | .noOutput => bump s F.DMA_CH_NO_OUTPUT_COUNT c
    | .short => match d.sdlv with
      | some k => bump s F.DMA_SDLV_SHORT_COUNT k
      | none => s
    | _ => s
  dmaFlush 512 (mapDesc s d.id fun x => { x with ended := some e, moved := true }) c

/-- Descriptors that satisfy `p` end ABORTED without records (R468, R469). -/
def dropDescs (s : State) (p : Desc → Bool) : State :=
  (s.descs.filter fun d => d.ended.isNone && p d).foldl (fun s d =>
    dmaDrained (dmaEvt (bump (dropDesc s d.id) F.DMA_CH_ABORTED_COUNT d.chan) d.chan 3) d.chan) s

/-! ### Starting (R419, R420, R431, R457) -/

/-- The gate controls the frame: it is enabled and the frame is tracked, final, or has no complete tag yet (R385, R389). -/
def gated (s : State) (f : Frame) : Bool :=
  f.final || (gateOn s f.stream && (f.phase ≠ .complete || (trackedAt s f.stream f.seq).isSome))

/-- What a descriptor that has not started does now. -/
inductive StartStep where
  | waits | go | ends (e : DescEnd)
  deriving DecidableEq, Repr

/-- Whether a descriptor starts (R419, R420). -/
def startStep (s : State) (d : Desc) : StartStep :=
  if d.kind = dCOPY then .go
  else match d.seq with
    | none => .waits
    | some q => match frameAt s d.stream q with
      | none => if q < rd s F.PKT_SEQ_VALUE d.stream then .ends .gone else .waits
      | some f =>
        if f.final && f.reject then .ends .rejected
        else if d.kind = dFRAME then
          if d.early || (if gated s f then f.final else f.phase = .complete) then .go else .waits
        else match f.outcomes.find? fun o => o.pipe == d.pipe && o.ctx == d.ctx with
          | some o => if !o.done then .ends .noOutput else if !gated s f || f.final then .go else .waits
          | none => if f.phase ≠ .open && !f.due.contains (d.pipe, d.ctx) then .ends .noOutput else .waits

/-- Source bytes per row (R411, R418). -/
def rowBytes (s : State) (d : Desc) : Nat :=
  if d.kind = dFRAME ∧ d.length = 0 then
    match descFrame s d with
    | some f => f.lineBytes - d.srcX
    | none => 0
  else d.length

/-- The rows a FRAME descriptor asks for (R411, R418). -/
def rowsAsked (s : State) (d : Desc) : Nat :=
  if d.kind = dFRAME then
    match descFrame s d with
    | some f => if d.rows = 0 then (if f.learn then f.slots else f.height) - d.firstRow else d.rows
    | none => 0
  else d.rows

/-- The bytes that the buffer of a FRAME entry must have (R457). -/
def bufferNeed (s : State) (d : Desc) : Nat :=
  let rows := rowsAsked s d
  match d.xcode with
  | 5 => max (d.dstStride * rows) (d.planeOff + d.planeStride * rows)
  | 7 => (xK d.xpar - 1) * d.planeOff + d.dstStride * rows
  | _ => d.dstStride * rows

/-- A started descriptor takes the next entry of its FRAME ring (R431, R457). -/
def takeEntry (s : State) (d : Desc) (ring : Nat) (e : List Nat) : State :=
  let (w, s) : Nat × State := if d.kind = dCOPY then takeFree s 64
    else (tagWord0 d.stream (d.seq.getD 0) (match descFrame s d with | some f => f.twin | none => false) + 2 ^ 55, s)
  let s := consumeEntry (entryWb s ring 0x38 (toBytes 8 w)) ring
  let addr := leField e 0 8
  if leField e 8 4 < bufferNeed s d || addr % 64 ≠ 0 then endDesc s d .short
  else mapDesc s d.id fun x => { x with started := true, buf := some addr }

/-- The descriptor in flight with an ID. -/
def descAt (s : State) (id : Nat) : Option Desc := s.descs.find? fun d => d.id == id && d.ended.isNone

/-- Nothing on the channel holds back descriptor `d` (R426, R428). -/
def chanFree (s : State) (c : Nat) (before : Desc → Bool) : Bool :=
  !(dmaChAt s c).paused && (chanDescs s c).all fun x => x.moved || !before x

/-- Start descriptor `d`, which its channel does not hold back. -/
def startDesc (s : State) (d : Desc) : State :=
  match startStep s d with
  | .waits => s
  | .ends e => endDesc s d e
  | .go =>
    if dmaSpace d.dst = 3 then
      match if ringType s (dmaAddr d.dst) = rFRAME ∧ isSet s F.HIF_LINK_STATUS_UP then headEntry s (dmaAddr d.dst) else none with
      | some e => takeEntry s d (dmaAddr d.dst) e
      | none => s
    else mapDesc s d.id fun x => { x with started := true }

/-! ### Stream delivery (R430 to R432) -/

/-- A frame waits for its stream's delivery. -/
def sdlvPush (s : State) (k q : Nat) : State := { s with sdlvQ := s.sdlvQ ++ [(k, q)] }

def sdlvLive (s : State) (k : Nat) (early : Bool) : Bool :=
  domUp s 22 && isSet s F.DMA_SDLV_CFG_EN k && !isSet s F.DMA_SDLV_CFG_MODE k
  && (isSet s F.DMA_SDLV_CFG_EARLY k && rd s F.DMA_SDLV_CFG_KIND k == 0) == early

/-- A frame opens: selectors of the next frame bind to it, and an EARLY delivery builds its descriptor (R412, R430). -/
def dmaFrameOpens (s : State) (k q : Nat) : State :=
  let s : State := { s with descs := s.descs.map fun d =>
    if d.kind ≠ dCOPY && d.stream == k && d.seq.isNone then { d with seq := some q } else d }
  if sdlvLive s k true then sdlvPush s k q else s

/-- A frame's tag has completed (R430). -/
def dmaTagDone (s : State) (k q : Nat) : State := if sdlvLive s k false then sdlvPush s k q else s

/-- READOUT deliveries of FROZEN streams take their frames (R432). -/
def sdlvReadout (s : State) : State :=
  (List.range 64).foldl (fun s k =>
    if domUp s 22 && isSet s F.DMA_SDLV_CFG_EN k && isSet s F.DMA_SDLV_CFG_MODE k && burstState s k == 3
        && !sget s.sdlvRead false k then
      let e := rd s F.MEM_BURST_EVENT_SEQ_VALUE k
      let h := rd s F.MEM_BURST_PRE_HELD_VALUE k
      let s := (List.range (h + burstPostOf s k)).foldl (fun s i => sdlvPush s k (e - h + i)) s
      { s with sdlvRead := sset s.sdlvRead false k true }
    else s) s

/-- A waiting frame is no longer held (R431). -/
def sdlvLost (s : State) (k q : Nat) : Bool :=
  match frameAt s k q with
  | none => true
  | some f => f.stored && !held s k q

/-- Frames that stop being held before they get an entry are skipped (R431). -/
def sdlvSweep (s : State) : State :=
  let s := sdlvReadout s
  let lost := s.sdlvQ.filter fun e => sdlvLost s e.1 e.2
  lost.foldl (fun s e => bump (wr s F.DMA_SDLV_NEXT_SEQ e.1 (e.2 + 1)) F.DMA_SDLV_MISSED_COUNT e.1)
    { s with sdlvQ := s.sdlvQ.filter fun e => !sdlvLost s e.1 e.2 }

/-- The descriptor of a stream's delivery for SEQ q (R430). -/
def sdlvDesc (s : State) (k q : Nat) : Desc :=
  let isp := rd s F.DMA_SDLV_CFG_KIND k == 1
  let p := rd s F.DMA_SDLV_CFG_PIPE k
  let c := rd s F.DMA_SDLV_CFG_CTX k
  let o := rd s F.DMA_SDLV_CFG_OUTPUT k
  let (w, h, lb) : Nat × Nat × Nat := match frameAt s k q with
    | some f => (f.width, if f.learn then f.slots else f.height, f.lineBytes)
    | none => (0, 0, 0)
  let par := ispPar s s p c w h h
  let op := outPar s p c
  let row := if isp then (match o with
      | 0 => dispBytes par op
      | 1 => codeBytes par op
      | _ => 2 * op.vw) else lb
  let rows := if isp then outBytes par op o / max 1 (stride64 row) else h
  let x := rd s F.DMA_SDLV_CFG_XFORM k
  let n := row / xUnit (x % 16) (x / 16)
  let (a, b) := xOutRow (x % 16) (x / 16) n
  let flags := (if isSet s F.DMA_SDLV_CFG_EARLY k && !isp then 1 else 0) + 2 * rd s F.DMA_SDLV_CFG_CONFIRMED k + 4
    + 8 * rd s F.DMA_SDLV_CFG_WAIT_ISP k
  let src := q + k * 2 ^ 48 + (if isp then p * 2 ^ 54 + o * 2 ^ 55 + c * 2 ^ 57 else 0)
  let bytes := [if isp then 3 else 2, flags, rd s F.DMA_SDLV_CFG_CHANNEL k, x]
    ++ toBytes 2 (rd s F.DMA_SDLV_RINGS_CMPL_RING k) ++ [0, 0] ++ toBytes 8 src
    ++ toBytes 8 (3 * 2 ^ 62 + rd s F.DMA_SDLV_RINGS_FRAME_RING k)
    ++ toBytes 4 (if isp then row else 0) ++ toBytes 4 (if isp then rows else 0)
    ++ toBytes 4 (stride64 row) ++ toBytes 4 a ++ toBytes 4 (a * rows) ++ toBytes 4 b
    ++ List.replicate 8 0 ++ toBytes 4 (rd s F.DMA_SDLV_LATE_NS k) ++ List.replicate 4 0
  newDesc 0x01 bytes none (some k)

/-- What the delivery must know of a frame that learns its geometry: its line bytes, from its first line on, and for planes that
follow one another the rows it has, once it has closed (R284, R430; log 98). -/
def sdlvKnows (s : State) (k q : Nat) : Bool :=
  match frameAt s k q with
  | some f => !f.learn || f.phase ≠ .open || (f.lineBytes ≠ 0 && !([5, 7].contains (rd s F.DMA_SDLV_CFG_XFORM k % 16)))
  | none => true

/-- A delivery's descriptor is one that the engine's checks refuse (R413, R447): its frame is skipped (log 98). -/
def sdlvRefused (s : State) (d : Desc) : Bool := d.formBad || (d.record && !(isSet s F.RNG_CFG_EN d.cmplRing && ringType s d.cmplRing == rCMPL))

/-- A frame of a stream's delivery can become a descriptor now: its channel takes it, its start condition holds or its end
is known, its entry is there and the host link is up (R426, R428, R429, R431). -/
def sdlvReady (s : State) (e : Nat × Nat) : Bool :=
  let d := sdlvDesc s e.1 e.2
  let c := d.chan
  (match s.sdlvQ.find? fun x => x.1 == e.1 with | some x => x == e | none => false)
  && chanFree s c (fun _ => true) && !(dmaChAt s c).draining && decide (inFlight s < 256) && sdlvKnows s e.1 e.2
  && match startStep s d with
    | .waits => false
    | .ends _ => true
    | .go => let n := dmaAddr d.dst
      sdlvRefused s d || isSet s F.HIF_LINK_STATUS_UP && ringType s n == rFRAME && (headEntry s n).isSome

/-- A stream's delivery builds its next descriptor and starts it (R430, R431). -/
def sdlvStart (s : State) : State :=
  match s.sdlvQ.find? (sdlvReady s) with
  | none => s
  | some e =>
    let d := { sdlvDesc s e.1 e.2 with id := s.dmaNextId }
    let s := wr { s with sdlvQ := s.sdlvQ.erase e } F.DMA_SDLV_NEXT_SEQ e.1 (e.2 + 1)
    if sdlvRefused s d then bump s F.DMA_SDLV_MISSED_COUNT e.1 else startDesc (acceptDesc s d) d

/-- A descriptor's start condition holds and it begins moving bytes: descriptor `id`, or where `id` is the next ID the
stream delivery's next descriptor, which takes it (R419, R430). -/
def descStart (s : State) (id : Nat) : State :=
  if !domUp s 22 then s
  else
    let s := sdlvSweep s
    match descAt s id with
    | some d =>
      let ahead := s.descs.takeWhile fun x => x.id ≠ id
      if d.started || !chanFree s d.chan (fun x => ahead.contains x) then s else startDesc s d
    | none => if id = s.dmaNextId then sdlvStart s else s

def execDmaDescStart (id : Nat) (s : State) : Host.Outcome State Fault Refusal := finish s (inBlock 16 s fun s => descStart s id)

/-! ### Bursts (R414 to R423, R428, R429) -/

/-- The descriptor whose bytes channel c moves. -/
def activeDesc (s : State) (c : Nat) : Option Desc := (chanDescs s c).find? fun d => d.started && !d.moved

/-- The descriptor names a host address or a FRAME ring. -/
def Desc.namesHost (d : Desc) : Bool := d.names (2 ≤ ·)

/-- A channel stops at a burst boundary while the host link is down (R429). -/
def hostWait (s : State) (d : Desc) : Bool := d.namesHost && !isSet s F.HIF_LINK_STATUS_UP

/-- The descriptor reads or writes LP5X. -/
def Desc.usesLp5x (d : Desc) : Bool := d.kind ≠ dCOPY || d.names (· == 0)

/-- The rows that a descriptor moves at most, from what its frame has now. -/
def rowsNow (s : State) (d : Desc) : Nat :=
  if d.kind = dFRAME then
    match descFrame s d with
    | some f =>
      let top := if f.phase = .open && !f.learn then max f.height f.slots else if f.phase = .open then 16384 else f.slots
      if d.rows = 0 then top - d.firstRow else min d.rows (top - d.firstRow)
    | none => 0
  else d.rows

/-- The next row of a FRAME descriptor can be read: its line has been stored (R419). -/
def rowThere (s : State) (d : Desc) : Bool :=
  if d.kind = dFRAME then
    match descFrame s d with
    | some f => f.phase ≠ .open || decide (d.firstRow + d.row < f.slots)
    | none => true
  else true

/-- The frame or slot that a descriptor reads is gone: a frame that is not held when a line of it is to be read, an output slot
whose rewrite the pipeline has signalled (R406, R421). -/
def descGone (s : State) (d : Desc) : Bool :=
  match d.kind with
  | 2 => (match descFrame s d with
    | none => true
    | some f => !held s d.stream f.seq && (f.stored || (rowThere s d && decide (d.row < rowsNow s d))))
  | 3 => d.rewritten
  | _ => false

/-- A source byte's place: LP5X address, SPM offset or host address, by space. -/
def srcPlace (s : State) (d : Desc) (pl off : Nat) : Nat × Nat :=
  match d.kind with
  | 2 =>
    let f := descFrame s d
    let lb := (f.map Frame.lineBytes).getD 0
    (0, slotAddr s d.stream (d.seq.getD 0) + (d.firstRow + d.row) * lb + d.srcX + d.srcOff 0 pl off)
  | 3 => (0, outAddr s d.pipe d.ctx d.output (ispIndex s d.pipe d.ctx (d.seq.getD 0)) + d.srcOff d.row pl off)
  | _ => (dmaSpace d.src, wrapAddr (dmaAddr d.src) (d.u 0x30 1) (d.srcOff d.row pl off))

/-- A destination byte's place. -/
def dstPlace (d : Desc) (pl off : Nat) : Nat × Nat :=
  if dmaSpace d.dst = 3 then (3, d.buf.getD 0 + d.dstOff d.row pl off)
  else (dmaSpace d.dst, wrapAddr (dmaAddr d.dst) (d.u 0x31 1) (d.dstOff d.row pl off))

/-- The DMA engine's own MID, which error logs show (R40). -/
def midDMA : Nat := 0x19

/-- Read the source bytes of a burst at their places; host bytes come from `host` in order. A burst that reaches beyond
MEM_USABLE is one access there (R397, R399). -/
def readPlaces (s : State) (host : List Nat) (ps : List (Nat × Nat)) : List Nat × State :=
  let below := fun (p : Nat × Nat) => memReady s && decide (p.2 < rd s F.MEM_USABLE_VALUE)
  let r := ps.foldl (fun (a : List Nat × List Nat) p =>
    match p.1 with
    | 0 => (a.1 ++ (if below p then lpBytes s p.2 1 else [0]), a.2)
    | 1 => (a.1 ++ spmBytes s p.2 1, a.2)
    | _ => (a.1 ++ [a.2.headD 0 % 256], a.2.drop 1)) ([], host)
  (r.1, match ps.find? fun p => p.1 == 0 && memReady s && !below p with
    | some p => memUncorr s p.2 midDMA
    | none => s)

/-- Runs of bytes at rising addresses of one space, cut at 4 KiB boundaries (R415). -/
def gatherRuns (ws : List (Nat × Nat × Nat)) : List (Nat × Nat × List Nat) :=
  (ws.foldl (fun (a : List (Nat × Nat × List Nat)) w =>
    match a with
    | (sp, ad, bs) :: rest =>
      if sp = w.1 ∧ ad + bs.length = w.2.1 ∧ w.2.1 % 4096 ≠ 0 then (sp, ad, bs ++ [w.2.2]) :: rest
      else (w.1, w.2.1, [w.2.2]) :: a
    | [] => [(w.1, w.2.1, [w.2.2])]) []).reverse

/-- Write one run of bytes. -/
def writeRun (s : State) (d : Desc) (w : Nat × Nat × List Nat) : State :=
  match w.1 with
  | 0 => memWrite s midDMA w.2.1 w.2.2
  | 1 => spmPut s w.2.1 (w.2.2.take (0x800000 - w.2.1))
  | 2 => hostData s (fnOf d.mid) w.2.1 w.2.2
  | _ => hostData s (ringOwner s (dmaAddr d.dst)) w.2.1 w.2.2

/-- The next position after a burst of `m` units that read `n` bytes and wrote `o`. -/
def advanceDesc (s : State) (id m per n o rows : Nat) : State :=
  mapDesc s id fun d =>
    let u := d.unit + m
    let d := { d with count := d.count + n, wrote := d.wrote + o, unit := if per ≤ u then 0 else u, row := if per ≤ u then d.row + 1 else d.row }
    { d with moved := decide (rows ≤ d.row) }

/-- The errors that a burst's LP5X accesses met (R400 to R402, R423). -/
def eccEffect (s : State) (d : Desc) (ecc : List (Nat × Nat)) : State :=
  let (bad, s) := memErrors s midDMA ecc
  if bad then mapDesc s d.id fun x => { x with ecc := true } else s

/-- The places that unit p of descriptor `d` touches, on either side: (side and plane, space, address). -/
def unitPlaces (s : State) (d : Desc) (p : Nat) : List (Nat × Nat × Nat) :=
  (xSource d.xcode d.xpar p).map (fun e => (2 * e.1, srcPlace s d e.1 e.2))
  ++ (xDest d.xcode d.xpar p (List.replicate (xSource d.xcode d.xpar p).length 0)).map fun w => (2 * w.1 + 1, dstPlace d w.1 w.2.1)

/-- Whether a burst that begins at the places `first` may go on to `more`: on no side and plane does it cross a 4 KiB boundary of
a host address, or a wrap boundary, beyond which addresses fall (R415). -/
def sameBurst (first more : List (Nat × Nat × Nat)) : Bool :=
  more.all fun x => first.all fun y =>
    x.1 ≠ y.1 || (decide (y.2.2 < x.2.2 + 64) && (x.2.1 < 2 || x.2.2 / 4096 == y.2.2 / 4096))

/-- The units of the next burst of a row of `per` units: at most 512 bytes on either side, at least one unit (R415; log 99). -/
def burstUnits (s : State) (d : Desc) (per : Nat) : List Nat :=
  let first := unitPlaces s d d.unit
  let srcs := (xSource d.xcode d.xpar d.unit).length
  let m := min (per - d.unit) (max 1 (512 / max srcs (first.length - srcs)))
  let more := ((List.range (m - 1)).map fun i => d.unit + 1 + i)
  d.unit :: (if sameBurst first first then more.takeWhile fun p => sameBurst first (unitPlaces s d p) else [])

/-- One burst of descriptor `d`, whose next row is there (R414, R415, R417). -/
def moveBurst (s : State) (d : Desc) (ecc : List (Nat × Nat)) (host : List Nat) : State :=
  let per := rowBytes s d / xUnit d.xcode d.xpar
  let units := burstUnits s d per
  let places := units.map fun p => (xSource d.xcode d.xpar p).map fun e => srcPlace s d e.1 e.2
  let n := (places.map List.length).sum
  if d.kind = dCOPY ∧ dmaSpace d.src = 2 ∧ host.length < n then s
  else
    let s := if d.usesLp5x then eccEffect s d ecc else s
    let (bs, s) := readPlaces s host places.flatten
    let outs := (units.zip places).foldl (fun (a : List (Nat × Nat × Nat) × List Nat) e =>
      let ln := e.2.length
      (a.1 ++ (xDest d.xcode d.xpar e.1 (a.2.take ln)).map (fun w => ((dstPlace d w.1 w.2.1).1, (dstPlace d w.1 w.2.1).2, w.2.2)),
        a.2.drop ln)) ([], bs)
    let s := (gatherRuns outs.1).foldl (fun s w => writeRun s d w) s
    advanceDesc s d.id units.length per n outs.1.length (rowsNow s d)

/-! ### Arbitration (R427) -/

/-- The final verdict rejects the frame of a descriptor. -/
def descRejected (s : State) (d : Desc) : Bool :=
  d.kind ≠ dCOPY && (descFrame s d).any fun f => f.final && f.reject

/-- Descriptor `d` has a burst to issue now: its next row is there, and neither the host link nor the record queue holds it
(R419, R429, R459). -/
def burstDue (s : State) (d : Desc) : Bool := rowThere s d && !hostWait s d && !(d.record && recQFull s)

/-- Channel c has a burst to issue, or an end to meet instead. -/
def chanDue (s : State) (c : Nat) : Bool :=
  !(dmaChAt s c).paused && (activeDesc s c).any fun d => descRejected s d || descGone s d || burstDue s d

/-- The channel that the arbiter serves next: of the highest PRIO with a channel that is due, the one whose turn it is while it has
bursts of its WEIGHT left, else the next in ascending number (R427; log 100). -/
def dmaGrant (s : State) : Option Nat :=
  let due := (List.range 64).filter (chanDue s)
  let top := due.foldl (fun p c => max p (rd s F.DMA_CH_CFG_PRIO c)) 0
  let level := due.filter fun c => rd s F.DMA_CH_CFG_PRIO c == top
  let (c, n) := sget s.dmaTurn (0, 0) top
  if level.contains c && decide (n ≤ rd s F.DMA_CH_CFG_WEIGHT1 c) then some c
  else match level.find? fun x => decide (c < x) with
    | some x => some x
    | none => level.head?

/-- Channel c has had one more burst of its turn. -/
def dmaTook (s : State) (c : Nat) : State :=
  let p := rd s F.DMA_CH_CFG_PRIO c
  let t := sget s.dmaTurn (0, 0) p
  let n := if t.1 = c ∧ t.2 ≤ rd s F.DMA_CH_CFG_WEIGHT1 c then t.2 + 1 else 1
  { s with dmaTurn := sset s.dmaTurn (0, 0) p (c, n) }

/-- A channel issues a burst (R415), where it is the one that the arbiter serves (R427); `host` holds what host memory answers. -/
def dmaBurst (s : State) (c : Nat) (ecc : List (Nat × Nat)) (host : List Nat) : State :=
  match if domUp s 22 && dmaGrant s == some c then activeDesc s c else none with
  | none => s
  | some d =>
    if descRejected s d then endDesc s d .rejected
    else if descGone s d then endDesc s d .gone
    else if d.usesLp5x && !domUp s 23 then endDesc s d .aborted
    else if rowsNow s d ≤ d.row || rowBytes s d < xUnit d.xcode d.xpar then
      mapDesc s d.id fun x => { x with moved := true }
    else if !burstDue s d then s
    else
      let t := moveBurst (dmaTook s c) d ecc host
      if d.kind ≠ dCOPY && descGone t d then endDesc t d .gone else t

def execDmaBurst (c : Nat) (ecc : List (Nat × Nat)) (host : List Nat) (s : State) : Host.Outcome State Fault Refusal :=
  onBlock 16 c 64 s fun s => dmaBurst s c ecc host

/-! ### Completion (R424 to R426) -/

/-- Every context due for the frame has reported its outcome (R420). -/
def outcomesIn (f : Frame) : Bool :=
  f.phase ≠ .open && f.due.all fun e => f.outcomes.any fun o => o.pipe == e.1 && o.ctx == e.2

/-- The completion condition of a descriptor holds (R389, R420, R424, R95). -/
def canComplete (s : State) (d : Desc) : Bool :=
  d.started && d.moved && d.region.isNone
  && (d.kind == dCOPY || match descFrame s d with
    | none => false
    | some f => f.phase == .complete && (!gated s f || f.final) && (!d.waitIsp || outcomesIn f))

/-- A descriptor's bytes are all moved: rows beyond what its frame holds do not come (R418). -/
def settleMoved (s : State) (d : Desc) : Desc :=
  if d.started && !d.moved && (rowsNow s d ≤ d.row || rowBytes s d < xUnit d.xcode d.xpar)
      && (match descFrame s d with | some f => f.phase ≠ .open | none => true)
  then { d with moved := true } else d

/-- The read-back that CONFIRMED adds has returned: of the last 64 bytes written to a host address, `host` (R424). -/
def readBack (s : State) (d : Desc) (host : List Nat) : Bool :=
  !d.confirmed || dmaSpace d.dst < 2 || d.wrote == 0 || (isSet s F.HIF_LINK_STATUS_UP && decide (min 64 d.wrote ≤ host.length))

/-- Descriptor `id` reaches its completion and leaves flight (R424, R425, R426). -/
def descComplete (s : State) (id : Nat) (host : List Nat) : State :=
  match if domUp s 22 then descAt s id else none with
  | none => s
  | some d =>
    let d := settleMoved s d
    let ahead := (chanDescs s d.chan).takeWhile fun x => x.id ≠ id
    if d.started && descRejected s d then endDesc s d .rejected
    else if !canComplete s d || !readBack s d host || d.recordHeld s || (d.record && ahead.any fun x => x.record) then s
    else dmaFlush 512 (okRecord (dropDesc s id) d) d.chan

def execDmaDescComplete (id : Nat) (host : List Nat) (s : State) : Host.Outcome State Fault Refusal :=
  finish s (inBlock 16 s fun s => descComplete s id host)

/-- The descriptor has a host read that can end in error: of its source, or the read-back that CONFIRMED adds (R412, R424). -/
def Desc.readsHost (d : Desc) : Bool :=
  d.started && d.ended.isNone
  && ((d.kind == dCOPY && dmaSpace d.src == 2 && !d.moved) || (d.confirmed && decide (2 ≤ dmaSpace d.dst) && d.wrote ≠ 0))

/-- A host read of descriptor `id` ends in error (R438). -/
def descReadError (s : State) (id : Nat) : State :=
  match descAt s id with
  | none => s
  | some d => endDesc s d .aborted

/-! ### Channel commands (R428) -/

def dmaPause (s : State) (c : Nat) : State :=
  if domUp s 22 then dmaEvt (setDmaCh s c { dmaChAt s c with paused := true }) c 4 else s

def execDmaPause (c : Nat) (s : State) : Host.Outcome State Fault Refusal := onBlock 16 c 64 s fun s => dmaPause s c

/-- The channel continues; a frame that stopped being held meanwhile ends GONE. -/
def dmaResume (s : State) (c : Nat) : State :=
  if !domUp s 22 then s
  else
    let s := setDmaCh s c DmaCh.init
    match activeDesc s c with
    | some d => if descGone s d then endDesc s d .gone else s
    | none => s

def execDmaResume (c : Nat) (s : State) : Host.Outcome State Fault Refusal := onBlock 16 c 64 s fun s => dmaResume s c

def dmaDrain (s : State) (c : Nat) : State :=
  if domUp s 22 then dmaDrained (setDmaCh s c ⟨false, true⟩) c else s

def execDmaDrain (c : Nat) (s : State) : Host.Outcome State Fault Refusal := onBlock 16 c 64 s fun s => dmaDrain s c

/-- The channel's descriptors in flight end ABORTED. -/
def dmaAbort (s : State) (c : Nat) : State :=
  if domUp s 22 then
    ((chanDescs s c).filter fun d => d.ended.isNone).foldl (fun s d => endDesc s d .aborted) s
  else s

def execDmaAbort (c : Nat) (s : State) : Host.Outcome State Fault Refusal := onBlock 16 c 64 s fun s => dmaAbort s c

/-- The SAT counters of a channel. -/
def dmaCounters : List Field :=
  [F.DMA_CH_DONE_COUNT, F.DMA_CH_VOIDED_COUNT, F.DMA_CH_GONE_COUNT, F.DMA_CH_ABORTED_COUNT, F.DMA_CH_LATE_COUNT,
   F.DMA_CH_NO_OUTPUT_COUNT]

def execDmaChClrCounts (c : Nat) (s : State) : Host.Outcome State Fault Refusal :=
  onBlock 16 c 64 s fun s => clearAll s dmaCounters c

/-- A write to DMA_CH_CMD_c: more than one of PAUSE, RESUME, DRAIN and ABORT discards the write (R428, R624). -/
def dmaChCmd (s : State) (c val : Nat) : State :=
  let clr := fun (s : State) => if val.testBit 4 then clearAll s dmaCounters c else s
  match val % 16 with
  | 0 => clr s
  | 1 => clr (dmaPause s c)
  | 2 => clr (dmaResume s c)
  | 4 => clr (dmaDrain s c)
  | 8 => clr (dmaAbort s c)
  | _ => dmaEvt s c 8

/-- The host link alone keeps channel c from its next bytes, of a descriptor or of a stream's delivery (R429, R431). -/
def hostHeld (s : State) (c : Nat) : Bool :=
  !isSet s F.HIF_LINK_STATUS_UP
  && ((match (chanDescs s c).find? fun d => !d.started && d.ended.isNone with
      | some d => d.namesHost && (match startStep s d with | .go => true | _ => false)
      | none => false)
    || s.sdlvQ.any fun e => rd s F.DMA_SDLV_CFG_CHANNEL e.1 == c && sdlvReady (wr s F.HIF_LINK_STATUS_UP 0 1) e)

/-- The STATE of a channel (R428, R429). -/
def dmaState (s : State) (c : Nat) : Nat :=
  let k := dmaChAt s c
  if k.paused then 3
  else if k.draining then 4
  else match activeDesc s c with
    | some d => if hostWait s d then 5 else 1
    | none => if hostHeld s c then 5 else if (chanDescs s c).any fun d => !d.started && d.ended.isNone then 2 else 0

/-! ### Regions and power (R94, R95, R434) -/

/-- The records that the channels owe go out. -/
def dmaFlushAll (s : State) : State := (List.range 64).foldl (dmaFlush 512) s

/-- The records that waited for a place in the record queue go out (R459). -/
def dmaRetry (s : State) : State := if s.descs.any fun d => d.ended.isSome then dmaFlushAll s else s

/-- The region of core c commits: its descriptors may complete, and the records of those that have ended go out (R92, R95). -/
def commitDescs (s : State) (c : Nat) : State :=
  let mine := s.descs.any fun d => d.region == some c
  let s : State := { s with descs := s.descs.map fun d => if d.region == some c then { d with region := none } else d }
  if mine then dmaFlushAll s else s

/-- The region of core c is squashed: each of its descriptors, ended or not, leaves a void record and no other (R94). -/
def squashDescs (s : State) (c : Nat) : State :=
  let mine := s.descs.any fun d => d.region == some c
  let squash := fun (d : Desc) =>
    if d.region == some c then { d with region := none, ended := some .squashed, moved := true } else d
  let s : State := { s with descs := s.descs.map squash }
  if mine then dmaFlushAll s else s

/-- D22 powers down: every descriptor ends ABORTED, and the engine loses its channels and delivery state (R434). -/
def dmaPowerDown (s : State) : State :=
  let s : State := (s.descs.filter fun d => d.ended.isNone).foldl (fun s d => endDesc s d .aborted) s
  { s with descs := [], dmaCh := [], dmaTurn := [], sdlvQ := [], sdlvRead := [] }

end Sys2Proof.Machine
end

