-- ==== Sys2Proof/Machine/Pkt.lean ====
section
/-! DEFINITION. The packet layer (spec/07): headers, the stream map, frames and their lines, frame tags, camera replies and
control packets; tentative frames (spec/02 R94, R95; spec/03 R149, R150); the part of R505 that a frame start takes part in. -/
namespace Sys2Proof.Machine

/-! ### Headers (R276 to R278) -/

/-- The outcome of the header check: the header's DT, VC and WC, and whether a bit was corrected. -/
structure PktHeader where
  dt : Nat
  vc : Nat
  wc : Nat
  corrected : Bool
  deriving DecidableEq, Repr

/-- The position code of data bit i in the 32-VC form: the (i + 1)-th integer of 3 or more that is no power of two (R276). -/
def eccCode (i : Nat) : Nat :=
  ((List.range 64).filter fun m => 3 ≤ m && !(m == 4 || m == 8 || m == 16 || m == 32)).getD i 0

/-- The XOR of the position codes of the set bits of d0 to d47: ECC bits 5 to 0 (R276). -/
def eccOf (code : Nat → Nat) (bits d : Nat) : Nat :=
  (List.range bits).foldl (fun a i => if d.testBit i then a ^^^ code i else a) 0

/-- The XOR of the low `n` bits of a number. -/
def parityOf (n d : Nat) : Bool := (List.range n).foldl (fun a i => a ^^ d.testBit i) false

def isPow2 (m : Nat) : Bool := [1, 2, 4, 8, 16, 32].contains m

/-- The data bits with the bit of position code `c` flipped; none where no data bit has that code. -/
def flipCode (code : Nat → Nat) (bits d c : Nat) : Option Nat :=
  ((List.range bits).find? fun i => code i == c).map fun i => d ^^^ 2 ^ i

/-- Decode a 32-VC header (R276, R278). -/
def decodeHdr32 (h : Nat) : Option PktHeader :=
  let d := h % 2 ^ 48
  let syn := eccOf eccCode 48 d ^^^ bitsOf h 48 6
  let odd := parityOf 48 d ^^ parityOf 6 (bitsOf h 48 6) ^^ h.testBit 54
  let fixed := if syn = 0 ∧ !odd then some d
    else if !odd then none
    else if syn = 0 || isPow2 syn then some d
    else flipCode eccCode 48 d syn
  fixed.bind fun d =>
    if bitsOf d 6 2 ≠ 0 || bitsOf d 13 3 ≠ 0 || bitsOf d 32 16 ≠ 0 || bitsOf h 55 9 ≠ 0 then none
    else some ⟨bitsOf d 0 6, bitsOf d 8 5, bitsOf d 16 16, odd⟩

/-- The syndrome of data bit i in the CSI-2 v1.3 header ECC (log 24). -/
def eccCodeLegacy (i : Nat) : Nat :=
  [0x07, 0x0B, 0x0D, 0x0E, 0x13, 0x15, 0x16, 0x19, 0x1A, 0x1C, 0x23, 0x25, 0x26, 0x29, 0x2A, 0x2C, 0x31, 0x32, 0x34, 0x38,
   0x1F, 0x2F, 0x37, 0x3B].getD i 0

/-- Decode a legacy header (R277, R278). -/
def decodeHdr4 (h : Nat) : Option PktHeader :=
  let d := h % 2 ^ 24
  let syn := eccOf eccCodeLegacy 24 d ^^^ bitsOf h 24 6
  let fixed := if syn = 0 || isPow2 syn then some d else flipCode eccCodeLegacy 24 d syn
  fixed.bind fun d =>
    if bitsOf h 30 2 ≠ 0 then none else some ⟨bitsOf d 0 6, bitsOf d 6 2, bitsOf d 8 16, syn ≠ 0⟩

/-- Decode a header by the form of port n (R275). -/
def decodeHdr (s : State) (n h : Nat) : Option PktHeader :=
  if isSet s F.PKT_PORT_CFG_HDR_FORM n then decodeHdr4 h else decodeHdr32 h

/-- Port n delivers packets: it is UP with its link up and D22 powered (R246, R263). -/
def portDelivers (s : State) (n : Nat) : Bool :=
  domUp s 22 && domUp s (6 + n) && isSet s F.PRT_STATUS_LINK_UP n && rd s F.PRT_STATUS_STATE n == pUP

/-- A header that fails: counted, and every open frame of the port takes HDR_ECC_FAIL (R278). -/
def hdrFail (s : State) (n : Nat) : State :=
  mapFrames (pevt (bump s F.PKT_HDR_FAIL_COUNT n) n 0) (fun f => f.phase == .open && f.port == n) fun f => f.flag flHDRFAIL

/-- A packet reaches port n: its header is decoded, and where it is good and `want` accepts it, `act` handles it. -/
def packetIn (s : State) (n h : Nat) (want : PktHeader → Bool) (act : State → PktHeader → State) : State :=
  if !portDelivers s n then s
  else match decodeHdr s n h with
    | none => hdrFail s n
    | some p => if want p then act (if p.corrected then bump s F.PKT_HDR_CORR_COUNT n else s) p else s

/-! ### Streams that match (R285) -/

def streamOf (s : State) (n vc : Nat) (k : Nat) : Bool :=
  isSet s F.PKT_MAP_EN k && rd s F.PKT_MAP_PORT k == n && rd s F.PKT_MAP_VC k == vc

/-- The streams that a short packet matches. -/
def streamsOf (s : State) (n vc : Nat) : List Nat := (List.range 64).filter (streamOf s n vc)

/-- The stream that a long packet matches. -/
def streamFor (s : State) (n vc dt : Nat) : Option Nat := (streamsOf s n vc).find? fun k => rd s F.PKT_MAP_DT k == dt

/-! ### Closing with the pipelines told -/

/-- Close an open frame, and admit it to the pipelines where it has its SEQ (R292, R345). -/
def endFrame (s : State) (f : Frame) (tb : Nat) (trunc : Bool) : State :=
  let s := closeFrame s f tb trunc
  if f.tent.isNone then ispClosed s f.stream f.seq else s

/-- Close TRUNCATED, at TB `tb`, the open frames that satisfy `p` (R293). -/
def cutFrames (s : State) (p : Frame → Bool) (tb : Nat) : State :=
  (s.frames.filter fun f => f.phase == .open && p f).foldl (fun s f => endFrame s f tb true) s

/-! ### Frame events and the twin at a frame start -/

/-- The frame-event producers of stream k with that edge fire (R301). -/
def fevFire (s : State) (k : Nat) (done : Bool) : State :=
  (List.range 16).foldl (fun t i =>
    if isSet s F.PKT_FEV_CFG_EN i && rd s F.PKT_FEV_CFG_STREAM i == k && (rd s F.PKT_FEV_CFG_EDGE i == 1) == done then
      fireProducer t (68 + i) else t) s

/-- The device is paired: LEAD or WATCH (R491). -/
def twnPaired (s : State) : Bool := twnState s == twLEAD || twnState s == twWATCH

/-- Stream k is in TWN_STREAMS of a paired device. -/
def twnShared (s : State) (k : Nat) : Bool := twnPaired s && hasBit s F.TWN_STREAMS_MASK 0 k

/-- This device follows on stream k, which port n receives (R505). -/
def twnFollows (s : State) (k n : Nat) : Bool := twnShared s k && isSet s F.PKT_PORT_CFG_TWIN_SRC n

/-- The next frame of stream k takes `q` and carries SEQ_GAP_BEFORE (R505). -/
def twnSetSeq (s : State) (k q : Nat) : State :=
  wr (setStream s k { streamAt s k with gap := true }) F.PKT_SEQ_VALUE k q

/-- An FS packet with SEQ p meets the follower's frame with SEQ q (R505). -/
def twnAgree (s : State) (k q p : Nat) : State :=
  if q = p then s
  else
    let s := twnEvt (bump s F.TWN_SEQ_MISMATCH_COUNT) 10
    if q < p then twnSetSeq s k (p + 1) else setTwnStream s k { twnStreamAt s k with wait := 2 }

/-- Two instants lie within TWN_MATCH. -/
def twnNear (s : State) (a b : Nat) : Bool :=
  decide (a ≤ b + rd s F.TWN_MATCH_NS) && decide (b ≤ a + rd s F.TWN_MATCH_NS)

/-- A frame opens on a shared stream: the SEQ authority queues an FS packet, the follower matches one that waits (R505). -/
def twnFrameOpens (s : State) (f : Frame) : State :=
  if !twnShared s f.stream then s
  else if !f.twin then twnPush s tpFS ([f.stream, 0] ++ toBytes 6 f.seq ++ toBytes 8 f.tbFs)
  else
    let t := twnStreamAt s f.stream
    match t.fs.find? fun p => twnNear s p.2 f.tbFs with
    | none => s
    | some p => twnAgree (setTwnStream s f.stream { t with fs := t.fs.erase p }) f.stream f.seq p.1

/-! ### Opening (R287 to R290) -/

/-- An instant lies in the gap of a takeover (R514). -/
def inGap (s : State) (t : Nat) : Bool :=
  rd s F.TWN_TAKEOVER_TB_VALUE ≠ 0 && decide (rd s F.TWN_GAP_START_VALUE ≤ t) && decide (t ≤ rd s F.TWN_TAKEOVER_TB_VALUE)

/-- The frame takes the newest trigger record with T ≤ TB_FS; older ones leave the queue (R295, R296). -/
def takeTrig (s : State) (f : Frame) : Frame × State :=
  let v := streamAt s f.stream
  let past := v.trigQ.filter fun r => decide (r.time ≤ f.tbFs)
  let s := setStream s f.stream { v with trigQ := v.trigQ.filter fun r => !decide (r.time ≤ f.tbFs) }
  match past.getLast? with
  | some r =>
    let f := { f with trigId := r.id, trig := some r }
    let gap := hasBit s F.TWN_STREAMS_MASK 0 f.stream && inGap s r.time
    (((f.flagIf r.held flHELD).flagIf r.held flENCFAULT).flagIf gap flTAKEOVER, bumpBy s F.PKT_TRIG_ORPHAN_COUNT f.stream (past.length - 1))
  | none =>
    if rd s F.PKT_SCFG_TRIG_SRC f.stream = 0 then (f, s)
    else (f, sevt (bump s F.PKT_NO_TRIGGER_COUNT f.stream) f.stream 3)

/-- A frame that starts now on stream k of port n, with the stamps of R290 as the positions stand (a transition that belongs
to them and arrives later joins them, `posUpdate`). -/
def newFrame (s : State) (k n vc : Nat) (p : PktHeader) (q : Nat) (tent : Option Nat) : Frame where
  stream := k
  seq := q
  phase := .open
  tent := tent
  port := n
  vc := vc
  dt := rd s F.PKT_MAP_DT k
  fnum := p.wc
  tbFs := s.tb
  tbFe := 0
  nsFs := s.ns
  closedAt := 0
  flags := if p.corrected then 2 ^ flHDRCORR else 0
  trigId := 0
  trig := none
  encPos := (List.range 4).map fun i => rd s F.ENC_POS_VALUE i % 2 ^ 48
  relayed := relaysOf s n
  twin := isSet s F.PKT_PORT_CFG_TWIN_SRC n
  learn := isSet s F.PKT_SCFG_GEOM_LEARN k
  learnBad := false
  lineBytes := if isSet s F.PKT_SCFG_GEOM_LEARN k then 0 else lineBytesOf (rd s F.PKT_MAP_DT k) (rd s F.PKT_GEOM_WIDTH k)
  width := if isSet s F.PKT_SCFG_GEOM_LEARN k then 0 else rd s F.PKT_GEOM_WIDTH k
  height := if isSet s F.PKT_SCFG_GEOM_LEARN k then 16384 else rd s F.PKT_GEOM_HEIGHT k
  lines := 0
  slots := 0
  stored := false
  lapsed := false
  crcErrs := 0
  verdict := 0
  final := false
  reject := false
  lostLines := []
  due := []
  outcomes := []

/-- The SEQ counter steps over a frame (R288). -/
def stepSeq (s : State) (k : Nat) : State := wr s F.PKT_SEQ_VALUE k (rd s F.PKT_SEQ_VALUE k + 1)

/-- A frame with its SEQ opens towards the other blocks: SEQ_GAP_BEFORE, the pipelines, the pods, the DMA, the frame
events and the twin. -/
def announce (s : State) (k q : Nat) : State :=
  let v := streamAt s k
  let s := if v.gap then setFrame (setStream s k { v with gap := false }) k q fun f => f.flag flSEQGAP else s
  let s := dmaFrameOpens (podFrameOpens (ispOpens s k q) k q) k q
  let s := fevFire s k false
  match frameAt s k q with
  | some f => twnFrameOpens s f
  | none => s

/-- A dropped frame takes its SEQ and leaves a hole in the series (R288, R289). -/
def dropSeq (s : State) (k : Nat) : State :=
  let q := rd s F.PKT_SEQ_VALUE k
  let s := stepSeq s k
  burstSeqDone (setStream s k { streamAt s k with gap := true }) k q

/-- The tentative records of stream k, dropped ones among them (R150). -/
def tentativeOf (s : State) (k : Nat) : List Frame := s.frames.filter fun f => f.stream == k && f.tent.isSome

/-- The provisional SEQ of the next tentative record of stream k: the one it takes at commit when no other frame of the
stream comes between (R150, R95). -/
def nextSeqOf (s : State) (k : Nat) : Nat := rd s F.PKT_SEQ_VALUE k + (tentativeOf s k).length

/-- A frame is dropped at its FS; inside a region its record waits for the commit, marked by `complete` (R289, R150). -/
def dropFrame (s : State) (k n vc : Nat) (p : PktHeader) (cnt : Field) (tent : Option Nat) : State :=
  let s := sevt (bump s cnt k) k 2
  let s := setStream s k { streamAt s k with skipped := true }
  if tent.isNone then dropSeq s k
  else { s with frames := { newFrame s k n vc p (nextSeqOf s k) tent with phase := .complete } :: s.frames }

/-- A frame opens on stream k (R288, R290, R295). -/
def openFrameOn (s : State) (k n vc : Nat) (p : PktHeader) (tent : Option Nat) : State :=
  let q := if tent.isNone then rd s F.PKT_SEQ_VALUE k else nextSeqOf s k
  let (f, s) := takeTrig s (newFrame s k n vc p q tent)
  let s := { s with frames := f :: s.frames }
  if tent.isNone then announce (stepSeq s k) k q else s

/-- The watchdog of stream k expires where no FE has closed the frame by TB_FS + WDOG, an FE of that same cycle included: TB
has passed that instant (R294). -/
def frameWdog (s : State) (k : Nat) : State :=
  match openFrame s k with
  | some f =>
    let w := rd s F.PKT_WDOG_NS k
    if w ≠ 0 ∧ f.tbFs + w < s.tb then endFrame (sevt s k 1) f (f.tbFs + w) true else s
  | none => s

def execFrameWdog (k : Nat) (s : State) : Host.Outcome State Fault Refusal := onBlock 10 k 64 s fun s => frameWdog s k

/-- An FS reaches stream k (R287, R289, R293). -/
def fsStream (s : State) (k n : Nat) (p : PktHeader) : State :=
  let s := cutFrames (frameWdog s k) (fun f => f.stream == k) s.tb
  let v := streamAt s k
  let s := setStream s k { v with lastFs := some s.ns, skipped := false, silent := false }
  let gating := rd s F.PKT_SCFG_GATING k
  let refused := gating = 2 ∨ (gating = 1 ∧ rd s F.PKT_ARM_COUNT k = 0)
    ∨ (twnFollows s k n ∧ (twnStreamAt s k).wait ≠ 0)
  if refused then
    bump (setStream s k { streamAt s k with skipped := true, silent := true }) F.PKT_GATED_OUT_COUNT k
  else
    let tent := if gating = 1 then v.tentCore else none
    let s := if gating = 1 then wr s F.PKT_ARM_COUNT k (rd s F.PKT_ARM_COUNT k - 1) else s
    if v.lastFs.any fun t => decide (s.ns < t + 500) then dropFrame s k n p.vc p F.PKT_RATE_DROP_COUNT tent
    else if 4096 ≤ s.tagQ.length then dropFrame s k n p.vc p F.PKT_TAG_DROP_COUNT tent
    else openFrameOn s k n p.vc p tent

/-- A frame start packet on port n (R279, R285). -/
def pktFs (s : State) (n h : Nat) : State :=
  packetIn s n h (·.dt == 0) fun s p => (streamsOf s n p.vc).foldl (fun s k => fsStream s k n p) s

/-! ### Closing (R292) -/

/-- An FE reaches stream k. -/
def feStream (s : State) (k : Nat) (p : PktHeader) : State :=
  let s := frameWdog s k
  match openFrame s k with
  | some f =>
    let s := if p.wc = f.fnum then s else bump s F.PKT_FNUM_ERR_COUNT k
    let s := if p.corrected then mapFrames s (fun x => x.phase == .open && x.stream == k) fun x => x.flag flHDRCORR else s
    endFrame s f s.tb false
  | none =>
    let v := streamAt s k
    if v.skipped then setStream s k { v with skipped := false, silent := false } else bump s F.PKT_FE_ORPHAN_COUNT k

/-- A frame that a link-down of this cycle has closed TRUNCATED takes the FE of the same cycle: it is closed normally (R294). -/
def feAfterCut (s : State) (k : Nat) (p : PktHeader) : State :=
  match (streamAt s k).cut with
  | none => s
  | some c =>
    let mine := fun (f : Frame) => f.stream == k && f.seq == c.seq && f.phase == .closed && f.flags.testBit flTRUNC
    match s.frames.find? mine with
    | some f =>
      if c.at' ≠ s.ns then s
      else
        let short := c.lines || f.learnBad || !f.learn && decide (f.lines < f.height)
        let g := fun (f : Frame) =>
          ({ f with flags := f.flags - 2 ^ flTRUNC }.flagIf short flLINES).flagIf p.corrected flHDRCORR
        let s := mapFrames (setStream s k { streamAt s k with cut := none }) mine g
        let s := if p.wc = f.fnum then s else bump s F.PKT_FNUM_ERR_COUNT k
        let s := wr s F.PKT_TRUNC_COUNT k c.truncs
        learnGeom (putBit s F.PKT_SEVT_EVT k 0 (c.evt && hasBit s F.PKT_SEVT_EVT k 0)) f
    | none => s

/-- The link of port n goes down: its open frames close TRUNCATED, and an FE of the same cycle may still reach them (R293,
R294). -/
def cutLink (s : State) (n : Nat) : State :=
  let open' := s.frames.filter fun f => f.phase == .open && f.port == n
  let t := open'.foldl (fun t f => setStream t f.stream { streamAt t f.stream with
    cut := some ⟨f.seq, s.ns, rd s F.PKT_TRUNC_COUNT f.stream, hasBit s F.PKT_SEVT_EVT f.stream 0, f.flags.testBit flLINES⟩ }) s
  cutFrames t (fun f => f.port == n) s.tb

/-- A frame end packet on port n (R279); one of the cycle in which the link goes down still counts (R294). -/
def pktFe (s : State) (n h : Nat) : State :=
  if portDelivers s n then packetIn s n h (·.dt == 1) fun s p => (streamsOf s n p.vc).foldl (fun s k => feStream s k p) s
  else match decodeHdr s n h with
    | some p => if p.dt = 1 then (streamsOf s n p.vc).foldl (fun s k => feAfterCut s k p) s else s
    | none => s

/-- A short packet that is neither FS nor FE (R279). -/
def pktShort (s : State) (n h : Nat) : State :=
  packetIn s n h (fun p => 2 ≤ p.dt && p.dt < 0x10) fun s p =>
    if 4 ≤ p.dt ∧ p.dt < 8 then bump s F.PKT_DT_UNSUP_COUNT n else s

/-- A complete SOP column arrives inside a packet of virtual channel `vc`; none where its header failed or was not
received whole (R242, R293). -/
def sopAbort (s : State) (n : Nat) (vc : Option Nat) : State :=
  if !portDelivers s n then s
  else
    let s := pevt (bump s F.PKT_ABORTED_COUNT n) n 3
    cutFrames s (fun f => f.port == n && (vc.isNone || vc == some f.vc)) s.tb

/-! ### Lines (R281, R284, R291) -/

/-- The geometry that the first line of a learning frame gives: WC, WIDTH and whether the line is refused (R284). -/
def learnLine (f : Frame) (wc : Nat) : Frame :=
  if !f.learn || f.lines ≠ 0 then f
  else match dtFormat f.dt with
    | none => { f with learnBad := true }
    | some (bpp, g) =>
      let w := wc * 8 / bpp
      if wc = 0 || wc * 8 % (bpp * g) ≠ 0 || 16384 < w then { f with learnBad := true }
      else { f with lineBytes := wc, width := w }

/-- Cut or pad a payload to the line bytes (R291). -/
def fitLine (n : Nat) (bs : List Nat) : List Nat := (bs ++ List.replicate (n - bs.length) 0).take n

/-- Line `i` of frame `f` goes to its slot, or is lost; a tentative frame stores as the SEQ it would take (R94, R291, R403,
R404). -/
def keepLine (s : State) (f : Frame) (i : Nat) (bs : List Nat) : State :=
  let mark := fun (g : Frame → Frame) (s : State) => mapFrames s (fun x => x.phase == .open && x.stream == f.stream) g
  let (ok, s) := storeLine s f.stream f.seq i f.lineBytes bs
  if ok then
    let s := mark (fun x => { x with lines := i + 1, slots := i + 1, stored := true }) s
    if f.tent.isNone then ispLine s f.stream f.seq f.lineBytes else s
  else mark (fun x => { x.flag flDROPPED with lines := i + 1, slots := i + 1, lostLines := x.lostLines ++ [i] }) s

/-- A line of the open frame of stream k arrives (R281, R284, R291). -/
def lineIn (s : State) (k n : Nat) (p : PktHeader) (bs : List Nat) (crcOk : Bool) : State :=
  let s := frameWdog s k
  match openFrame s k with
  | none => if (streamAt s k).silent then s else pevt (bump s F.PKT_ORPHAN_COUNT n) n 2
  | some f =>
    let i := f.lines
    let f := learnLine f p.wc
    let differs := decide (p.wc ≠ f.lineBytes)
    let beyond := decide (f.height ≤ i)
    let f := (f.flagIf p.corrected flHDRCORR).flagIf (!crcOk) flCRCERR
    let f := if crcOk then f else { f with crcErrs := min (f.crcErrs + 1) 0xFFFF }
    let f := f.flagIf (!f.learnBad && (beyond || (differs && !f.learn))) flLINES
    let f := if f.learnBad then { f with lines := i + 1 } else f
    let s := mapFrames s (fun x => x.phase == .open && x.stream == k) fun _ => f
    let s := if crcOk then s else bump s F.PKT_CRC_ERR_COUNT k
    if f.learnBad then s
    else
      let s := if beyond || differs then bump s F.PKT_WC_ERR_COUNT k else s
      if beyond then s else keepLine s f i (fitLine f.lineBytes bs)

/-- A camera reply (R306; a reply of more than 256 bytes is lost). -/
def replyIn (s : State) (n : Nat) (bs : List Nat) (crcOk : Bool) : State :=
  let v := pktPortAt s n
  if 4 ≤ v.replies.length || 256 < bs.length then pevt (bump s F.PKT_UL_RX_LOST_COUNT n) n 6
  else pevt (setPktPort s n { v with replies := v.replies ++ [(bs, crcOk)] }) n 5

/-- The stream that AUTO_MAP gives a data type on a virtual channel of port n (R282). -/
def autoStream (n vc dt : Nat) : Nat := n + 16 * vc + (if dt = 0x12 then 8 else 0)

/-- AUTO_MAP maps the first image type, or embedded data, that arrives on VC 0 to 3 (R282). -/
def autoMap (s : State) (n vc dt : Nat) : State :=
  let k := autoStream n vc dt
  if !isSet s F.PKT_PORT_CFG_AUTO_MAP n || 4 ≤ vc || isSet s F.PKT_MAP_EN k then s
  else
    let s := wr (wr (wr (wr s F.PKT_MAP_PORT k n) F.PKT_MAP_VC k vc) F.PKT_MAP_DT k dt) F.PKT_MAP_EN k 1
    wr (wr s F.PKT_SCFG_GATING k 0) F.PKT_SCFG_GEOM_LEARN k 1

/-- A long packet with its payload and CRC (R280 to R291, R306). -/
def longIn (s : State) (n : Nat) (p : PktHeader) (body : List Nat) : State :=
  let bs := body.take p.wc
  let crcOk := decide (leField body p.wc 2 = crcCsi bs)
  if isSet s F.PKT_PORT_CFG_REPLY_EN n && rd s F.PKT_PORT_CFG_REPLY_VC n == p.vc
      && decide (p.dt = 0x30 + rd s F.PKT_PORT_CFG_REPLY_DT n) then replyIn s n bs crcOk
  else if (dtFormat p.dt).isNone then
    if p.dt = 0x10 ∨ p.dt = 0x11 then s else bump s F.PKT_DT_UNSUP_COUNT n
  else
    let s := if (streamFor s n p.vc p.dt).isNone then autoMap s n p.vc p.dt else s
    match streamFor s n p.vc p.dt with
    | none => pevt (bump s F.PKT_UNMAPPED_COUNT n) n 1
    | some k => lineIn s k n p bs crcOk

/-- A long packet on port n: the header, then WC payload bytes and the CRC, and the bytes that fill its last column (R241, R275). -/
def pktLong (s : State) (n h : Nat) (body : List Nat) : State :=
  packetIn s n h (fun p => 0x10 ≤ p.dt && decide (p.wc + 2 ≤ body.length)) fun s p => longIn s n p body

/-! ### Tags (R297) -/

/-- The outcome of the trigger record has been final for 100 ns (R297). -/
def trigFinal (s : State) (f : Frame) : Bool :=
  match f.trig with
  | none => true
  | some r => !r.waiting && decide (r.finalAt + 100 ≤ s.ns)

/-- The start of the gap that a failure of the lead has made or, while its foghorns come, would make: the NOMINAL of the last one
(R509, R514; log 103). -/
def gapFrom (s : State) : Nat :=
  if isSet s F.TWN_STATUS_FOGHORN_OK then s.twn.lastFog.getD 0 else rd s F.TWN_GAP_START_VALUE

/-- The twin logic holds the tag: its trigger lies after the start of a gap whose outcome is open (R514). -/
def twnHolds (s : State) (f : Frame) : Bool :=
  (twnState s == twWATCH || s.twn.confirmed.isSome && !isSet s F.TWN_STATUS_DRIVING)
  && hasBit s F.TWN_STREAMS_MASK 0 f.stream && f.trig.any (fun r => decide (gapFrom s < r.time))
  && decide (s.ns < f.closedAt + 5200 + rd s F.TWN_CTL_MISS_LIMIT * rd s F.TWN_FOG_PERIOD_NS)

/-- The tag of a frame may be finalised (R290, R297, R627). -/
def canFinalise (s : State) (f : Frame) : Bool :=
  f.phase == .closed && f.tent.isNone && decide (f.closedAt + 200 ≤ s.ns) && trigFinal s f
  && ((List.range 4).all fun n => judged s n f.tbFs) && !twnHolds s f

/-- The oldest frame of stream k whose tag may be finalised enters the tag queue (R296, R297). -/
def tagFinalise (s : State) (k : Nat) : State :=
  match (s.frames.filter fun f => f.stream == k && canFinalise s f).getLast? with
  | none => s
  | some f =>
    if 4096 ≤ s.tagQ.length then s
    else
      let s := setFrame s k f.seq fun f => { f with phase := .queued }.flagIf (f.trig.any TrigRec.unconf) flUNCONF
      let s := { s with tagQ := s.tagQ ++ [(k, f.seq)] }
      wr s F.PKT_TAG_QUEUE_PEAK 0 (max (rd s F.PKT_TAG_QUEUE_PEAK) s.tagQ.length)

def execTagFinalise (k : Nat) (s : State) : Host.Outcome State Fault Refusal := onBlock 10 k 64 s fun s => tagFinalise s k

/-- A frame with the flags and the verdict that the packet layer fills: those that triage, the twin logic, LP5X, the pipelines
and the DMA set are clear (R299, R300). -/
def packetTag (f : Frame) : Frame := { f with flags := f.flags &&& 0xF47F, verdict := 0 }

/-- The tag queue releases its first tag: the frame and the state; none where no tag may leave yet (R297, R300, R301, R385,
R408, R430). -/
def tagRelease (s : State) : Option (Frame × State) :=
  match s.tagQ with
  | [] => none
  | (k, q) :: rest =>
    if s.ns < s.tagNext then none
    else match frameAt s k q with
      | none => none
      | some f =>
        let s : State := { s with tagQ := rest, tagNext := s.ns + 125 }
        let s := setFrame s k q fun f => { f with phase := .complete }
        let s := bump (setStream s k { streamAt s k with lastTag := tagBytes (packetTag f) }) F.PKT_FRAMES_COUNT k
        let s := fevFire s k true
        some (f, dmaTagDone (gateTrack (burstSeqDone s k q) k q f.tbFe) k q)

/-! ### Tentative frames (R94, R95, R149, R150) -/

/-- The framearm action inside the open region of core c (R149, R150). -/
def armTentative (s : State) (c k v : Nat) : Answer × State :=
  if rd s F.PKT_SCFG_GATING k ≠ 1 then (.of stNOTGATED, s)
  else
    let t := streamAt s k
    match t.tentCore with
    | none => (.of stOK, wr (setStream s k { t with tentCore := some c }) F.PKT_ARM_COUNT k v)
    | some d => if d = c then (.of stOK, wr s F.PKT_ARM_COUNT k v) else (.of stOK, setStream s k { t with armHeld := some (v, some c) })

/-- A write of an arm count from outside a region: held while the count is tentative (R150). -/
def armSet (s : State) (k v : Nat) : State :=
  let t := streamAt s k
  if t.tentCore.isSome then setStream s k { t with armHeld := some (v, none) } else wr s F.PKT_ARM_COUNT k v

/-- The framearm action outside a region (R149). -/
def armAction (s : State) (k v : Nat) : Answer × State :=
  if rd s F.PKT_SCFG_GATING k ≠ 1 then (.of stNOTGATED, s) else (.of stOK, armSet s k v)

/-- The tentative count of stream k ends; a held count takes effect, as a tentative one where it comes from a region that is
still open (R150; log 76). -/
def armRelease (s : State) (k : Nat) : State :=
  let t := streamAt s k
  match t.armHeld with
  | some (v, from') => wr (setStream s k { t with tentCore := from', armHeld := none }) F.PKT_ARM_COUNT k v
  | none => setStream s k { t with tentCore := none }

/-- The region of core c ends: what it holds on each stream becomes final where it commits, and goes where it is squashed
(R94, R150; log 76). -/
def heldEnds (s : State) (c : Nat) (commits : Bool) : State :=
  (List.range 64).foldl (fun s k =>
    let t := streamAt s k
    match t.armHeld with
    | some (v, some d) => if d = c then setStream s k { t with armHeld := if commits then some (v, none) else none } else s
    | _ => s) s

/-- The arm count of stream k when core c executed spec (R150). -/
def savedArm (s : State) (c k : Nat) : Nat :=
  match (coreAt s c).region with
  | some r => r.savedArms.getD k 0
  | none => rd s F.PKT_ARM_COUNT k

/-- A tentative record commits: it takes the next SEQ, its lines move to that slot where another frame took the provisional
SEQ, and it opens towards the other blocks (R95, R150, R301). -/
def commitFrame (s : State) (f : Frame) : State :=
  let k := f.stream
  let same := fun (x : Frame) => x.stream == k && x.tent.isSome && x.seq == f.seq
  if f.phase == .complete then dropSeq { s with frames := s.frames.filter fun x => !same x } k
  else
    let q := rd s F.PKT_SEQ_VALUE k
    let s := stepSeq (mapFrames s same fun x => { x with seq := q, tent := none }) k
    let s := if f.stored then
        let s := if q = f.seq then s
          else memWrite s 0x1F (slotAddr s k q) (lpBytes s (slotAddr s k f.seq) (f.slots * f.lineBytes))
        wr (wr s F.MEM_SREG_NEWEST_SEQ k q) F.MEM_SREG_NEWEST_STORED k 1
      else s
    let s := announce s k q
    let s := (List.range (f.lines - f.lostLines.length)).foldl (fun s _ => ispLine s k q f.lineBytes) s
    if f.phase == .open then s else ispClosed s k q

/-- The streams on which core c holds a tentative count, or has tentative records. -/
def tentStreams (s : State) (c : Nat) : List Nat :=
  (List.range 64).filter fun k => (streamAt s k).tentCore == some c

/-- The region of core c commits its framearms: the records commit in arrival order, the count stays (R150). -/
def commitArms (s : State) (c : Nat) : State :=
  let s := heldEnds s c true
  let s := (tentStreams s c).foldl armRelease s
  (s.frames.filter fun f => f.tent == some c).reverse.foldl commitFrame s

/-- The region of core c is squashed: its records drop, the count held at spec returns (R94, R150). The rest of a dropped
frame that is still arriving is discarded like that of a refused one. -/
def squashArms (s : State) (c : Nat) : State :=
  let s := heldEnds s c false
  let gone := s.frames.filter fun f => f.tent == some c
  let s : State := { s with frames := s.frames.filter fun f => f.tent != some c }
  let s := gone.foldl (fun s f =>
    if f.phase == .open then afterClose (setStream s f.stream { streamAt s f.stream with skipped := true, silent := true }) f.port else s) s
  (tentStreams s c).foldl (fun s k => armRelease (wr s F.PKT_ARM_COUNT k (savedArm s c k)) k) s

/-! ### The stream map (R282, R286) -/

/-- Stream k belongs to the AUTO_MAP of a port (R282, R51). -/
def autoOwned (s : State) (k : Nat) : Bool := isSet s F.PKT_PORT_CFG_AUTO_MAP (k % 8)

/-- Stream k is disabled: its open frame closes TRUNCATED, and its trigger records go (R286, R295). -/
def streamOff (s : State) (k : Nat) : State :=
  let s := cutFrames (wr s F.PKT_MAP_EN k 0) (fun f => f.stream == k) s.tb
  setStream s k { streamAt s k with trigQ := [] }

/-- AUTO_MAP of port n is cleared: its eight streams are disabled (R282). -/
def autoMapOff (s : State) (n : Nat) : State :=
  (List.range 8).foldl (fun s i => if isSet s F.PKT_MAP_EN (n + 8 * i) then streamOff s (n + 8 * i) else s) s

/-- A map entry for port, VC and DT may not be enabled on stream k (R286, R306). -/
def mapRefused (s : State) (k port vc dt : Nat) : Bool :=
  ((List.range 64).any fun j => j ≠ k && isSet s F.PKT_MAP_EN j && rd s F.PKT_MAP_PORT j == port
    && rd s F.PKT_MAP_VC j == vc && rd s F.PKT_MAP_DT j == dt)
  || (isSet s F.PKT_PORT_CFG_REPLY_EN port && rd s F.PKT_PORT_CFG_REPLY_VC port == vc
      && decide (dt = 0x30 + rd s F.PKT_PORT_CFG_REPLY_DT port))
  || (!isSet s F.PKT_SCFG_GEOM_LEARN k && (
      let w := rd s F.PKT_GEOM_WIDTH k
      let h := rd s F.PKT_GEOM_HEIGHT k
      w = 0 || 16384 < w || h = 0 || 16384 < h || match dtFormat dt with
        | some (_, g) => w % g ≠ 0
        | none => true))

/-- A write of PKT_MAP of stream k (R51, R286). -/
def pktMapWrite (s : State) (k val : Nat) : State :=
  if autoOwned s k then s
  else
    let en := val.testBit 0
    let dt := bitsOf val 10 6
    let bad := (dtFormat dt).isNone
    let dt' := if bad then rd s F.PKT_MAP_DT k else dt
    let port := bitsOf val 1 3
    let vc := bitsOf val 4 5
    if isSet s F.PKT_MAP_EN k && en then
      if port = rd s F.PKT_MAP_PORT k ∧ vc = rd s F.PKT_MAP_VC k ∧ dt = rd s F.PKT_MAP_DT k then s else sevt s k 4
    else if en && mapRefused s k port vc dt' then sevt s k 4
    else
      let s := if isSet s F.PKT_MAP_EN k then streamOff s k else s
      let s := if bad then sevt s k 4 else s
      wrBool (wr (wr (wr s F.PKT_MAP_PORT k port) F.PKT_MAP_VC k vc) F.PKT_MAP_DT k dt') F.PKT_MAP_EN k en

def execPktMapWrite (k val : Nat) (s : State) : Host.Outcome State Fault Refusal :=
  onBlock 10 k 64 s fun s => pktMapWrite s k val

/-! ### Uplink packets (R137, R138, R268, R302 to R306) -/

/-- The next packet in the queue of port n whose first bit may leave: 24 ns after its schedule time (R137). -/
def duePacket (s : State) (n : Nat) : Option TrigPkt :=
  (pktPortAt s n).trigQ.foldl (fun (b : Option TrigPkt) p =>
    if p.time + 24 ≤ s.tb && b.all fun (q : TrigPkt) => decide (p.time < q.time) then some p else b) none

/-- The end of the control packet of port n, which started at `t0`. -/
def ulCtlEnd (s : State) (n t0 : Nat) : Nat := t0 + 8 * (controlChars (ulPacket s n)).length

/-- A trigger packet of TRIGGER_ID `id` leaves from TB `t` on: it cuts a trigger packet or a control packet under way, and the
control packet is sent again after it (R268, R302). -/
def preempt (s : State) (n t id : Nat) : State :=
  let v := pktPortAt s n
  let ctl := v.ctl.any fun t0 => decide (t < ulCtlEnd s n t0)
  let cut := (v.onWire.any fun t0 => decide (t < t0 + 56)) || v.ctl.any fun t0 => decide (t0 < t ∧ t < ulCtlEnd s n t0)
  let s := if cut then bump s F.PRT_UL_PREEMPT_COUNT n else s
  let s := ulPut s n t (triggerChars id)
  if ctl then ulControl s n (t + 56) else s

/-- A trigger packet leaves; its record goes to the streams of the port with TRIG_SRC = 5 (R137, R268, R295, R494). -/
def trigpktSend (s : State) (n : Nat) : State :=
  match duePacket s n with
  | none => s
  | some p =>
    let s := if ownUplink s n then preempt s n (p.time + 24) p.id else s
    let v := pktPortAt s n
    let s := setPktPort s n { v with
      trigQ := v.trigQ.erase p, onWire := if ownUplink s n then some (p.time + 24) else v.onWire }
    putRecord s 5 n ⟨p.time + 24, p.id, p.late, false, false, none, false, s.ns⟩

def execTrigpktSend (n : Nat) (s : State) : Host.Outcome State Fault Refusal := onBlock 10 n 8 s fun s => trigpktSend s n

/-- PKT_UL_TXCMD.SEND: the packet starts at once where the wire is idle (R305, R494). -/
def ulSend (s : State) (n : Nat) : State :=
  let len := bitsOf (rd s F.PKT_UL_TXBUF_DATA (65 * n)) 16 16
  if isSet s F.PKT_UL_TXCMD_TX_BUSY n || 256 < len || isSet s F.PKT_PORT_CFG_TWIN_SRC n then pevt s n 7
  else ulTick (wr s F.PKT_UL_TXCMD_TX_BUSY n 1) n

def execUlSend (n : Nat) (s : State) : Host.Outcome State Fault Refusal :=
  onBlock 10 n 8 s fun s => ulSend s n

/-- The control packet has gone whole: its last bit has left, and no trigger packet has cut it or was due before it ended
(R268, R305). -/
def ulTxDone (s : State) (n : Nat) : State :=
  let v := pktPortAt s n
  let gone := v.ctl.any fun t0 =>
    decide (ulCtlEnd s n t0 ≤ s.tb) && (duePacket s n).all fun p => decide (ulCtlEnd s n t0 ≤ p.time + 24)
  if isSet s F.PKT_UL_TXCMD_TX_BUSY n && ulCarries s n && gone then
    pevt (wr (setPktPort s n { v with ctl := none }) F.PKT_UL_TXCMD_TX_BUSY n 0) n 4
  else s

def execUlTxDone (n : Nat) (s : State) : Host.Outcome State Fault Refusal := onBlock 10 n 8 s fun s => ulTxDone s n

/-- PKT_UL_RXSTAT.POP (R306). -/
def ulRxPop (s : State) (n : Nat) : State := setPktPort s n { pktPortAt s n with replies := (pktPortAt s n).replies.drop 1 }

def execUlRxPop (n : Nat) (s : State) : Host.Outcome State Fault Refusal := onBlock 10 n 8 s fun s => ulRxPop s n

/-- An event of a channel reaches PKT_TRIG (consumer 54, R303). -/
def execPktTrigEvent (ch : Nat) (s : State) : Host.Outcome State Fault Refusal :=
  onUnit ch 48 s fun s => beaconArrives s 54 (· == ch) (fun _ => false) fun ch s => pktTrig s ch

/-! ### Reads and counters -/

/-- A read of the first word of PKT_LAST_TAG captures the record (R300). -/
def lastTagRead (s : State) (k : Nat) : State := setStream s k { streamAt s k with lastTagRead := (streamAt s k).lastTag }

def execLastTagRead (k : Nat) (s : State) : Host.Outcome State Fault Refusal := onBlock 10 k 64 s fun s => lastTagRead s k

def pktPortCounters : List Field :=
  [F.PKT_HDR_CORR_COUNT, F.PKT_HDR_FAIL_COUNT, F.PKT_UNMAPPED_COUNT, F.PKT_ORPHAN_COUNT, F.PKT_ABORTED_COUNT,
   F.PKT_DT_UNSUP_COUNT, F.PKT_UL_RX_LOST_COUNT, F.PKT_TRIG_DROP_COUNT]

def execPktPortClrCounts (n : Nat) (s : State) : Host.Outcome State Fault Refusal :=
  onBlock 10 n 8 s fun s => clearAll s pktPortCounters n

def pktStreamCounters : List Field :=
  [F.PKT_FRAMES_COUNT, F.PKT_TRUNC_COUNT, F.PKT_GATED_OUT_COUNT, F.PKT_RATE_DROP_COUNT, F.PKT_TAG_DROP_COUNT,
   F.PKT_NO_TRIGGER_COUNT, F.PKT_TRIG_ORPHAN_COUNT, F.PKT_FE_ORPHAN_COUNT, F.PKT_WC_ERR_COUNT, F.PKT_CRC_ERR_COUNT,
   F.PKT_FNUM_ERR_COUNT]

def execPktStreamClrCounts (k : Nat) (s : State) : Host.Outcome State Fault Refusal :=
  onBlock 10 k 64 s fun s => clearAll s pktStreamCounters k

end Sys2Proof.Machine
end

