-- ==== Sys2Proof/Machine/Twn.lean ====
section
/-! DEFINITION. The twin block (spec/13): pairing, timebase alignment, frame numbers and frame clocks across the twin, foghorns,
line sensing, takeover, drive fights, release, and the messages of the twin link; the hash engine (R99), which HELLO uses. -/
namespace Sys2Proof.Machine

/-! ### The hash engine (R97, R99) -/

/-- The hash engine starts: 32,768 cycles. DESIGN CHOICE (log 72; R99 says neither): START during a running hash is ignored, and
START clears VALID at once, though the memories may be unchanged. -/
def hashStart (s : State) : State :=
  if s.hashDue.isSome then s
  else wr (wr { s with hashDue := some (s.ns + 40960), hashDirty := false } F.SQ_HASH_CTL_BUSY 0 1) F.SQ_HASH_CTL_VALID 0 0

def execHashStart (s : State) : Host.Outcome State Fault Refusal := finish s (inReach 15 s hashStart)

/-- A write to a program memory clears VALID, and spoils the hash in progress (R99). -/
def hashSpoiled (s : State) : State :=
  wr { s with hashDirty := s.hashDirty || s.hashDue.isSome } F.SQ_HASH_CTL_VALID 0 0

/-! ### HELLO (R498 to R501) -/

/-- The 32-bit values of a register as little-endian bytes: both halves of a pair. -/
def regBytes (s : State) (r : Reg) (i : Nat) : List Nat := toBytes (if r.pair then 8 else 4) (rawReg s r i)

/-- TWN_CFG_HASH (R499). -/
def cfgHash (s : State) : Nat :=
  let units := (List.range 16).filter fun k => (List.range 4).any fun g =>
    (rd s F.FCG_CFG_MODE g == 1 || rd s F.FCG_CFG_MODE g == 2) && rd s F.FCG_CFG_CMP_SEL g == k
  crc64 (regBytes s R.TWN_STREAMS 0
    ++ (List.range 4).flatMap (fun g =>
        [R.FCG_CFG, R.FCG_PERIOD, R.FCG_START_TB, R.FCG_PORTS, R.FCG_C, R.FCG_FMIN, R.FCG_FMAX, R.FCG_FSAFE, R.FCG_SLEW,
         R.FCG_HOLD_TIME, R.FCG_PRETRIG, R.FCG_CONFIRM, R.FCG_LIST_DELAY, R.FCG_LOCK_TOL].flatMap fun r => regBytes s r g)
    ++ ((List.range 16).filter fun n => isSet s F.TRG_CFG_TWIN n).flatMap (fun n =>
        toBytes 4 n ++ regBytes s R.TRG_CFG n ++ regBytes s R.TRG_DELAY n ++ regBytes s R.TRG_WIDTH n
          ++ toBytes 4 (rd s F.TRG_FLOOR_FLOOR n))
    ++ ((List.range 64).filter fun k => hasBit s F.TWN_STREAMS_MASK 0 k).flatMap (fun k =>
        toBytes 4 k ++ regBytes s R.PKT_MAP k ++ regBytes s R.PKT_GEOM k ++ regBytes s R.PKT_SCFG k)
    ++ units.flatMap fun k => [R.CMP_CFG, R.CMP_BASE, R.CMP_LEN, R.CMP_OFFSET, R.CMP_PERIOD].flatMap fun r => regBytes s r k)

/-- The payload of a HELLO packet that carries STATE `st` (R495). -/
def helloBytes (s : State) (st : Nat) : List Nat :=
  toBytes 8 (rd s F.GLB_UID_UID) ++ toBytes 8 (cfgHash s) ++ toBytes 8 (rd s F.SQ_PROG_HASH_HASH)
  ++ toBytes 8 (rd s F.TWN_STREAMS_MASK) ++ [rd s F.GLB_STATUS_TWIN_RANK, st] ++ toBytes 2 (rd s F.TWN_FOG_PERIOD_NS)
  ++ [0, 0, 0, 0]

/-- The states that drive the shared lines as a twin (R501). -/
def twnDriver (st : Nat) : Bool := st == twLEAD || st == twSOLO

/-- The first TB from `t` on at which every shared line is inactive in its schedule and no pulse starts within 200 ns
(R513, R518). -/
def sharedPulses (s : State) : List Pulse :=
  ((List.range 16).filter fun n => isSet s F.TRG_CFG_TWIN n).flatMap fun n =>
    let k := trgAt s (ownerOf s n)
    k.cur.toList ++ k.held

def sharedQuiet (s : State) (t : Nat) : Bool :=
  (sharedPulses s).all fun p => decide (p.stop ≤ t) || decide (t + 200 < p.start)

def quietTime (s : State) (t : Nat) : Nat :=
  let ends := ((sharedPulses s).map Pulse.stop).filter fun e => t ≤ e
  ((t :: ends).insertionSort (· ≤ ·)).find? (sharedQuiet s) |>.getD t

/-- A ROLE packet (R495). -/
def twnRole (s : State) (kind time : Nat) : State := twnPush s tpROLE ([kind, 0, 0, 0] ++ toBytes 8 time)

/-- A handover at T_H begins on this device (R518). -/
def setHandover (s : State) (h : Option Handover) : State :=
  wrBool (setTwn s { s.twn with handover := h }) F.TWN_STATUS_HANDOVER_PENDING 0 h.isSome

/-- The device that keeps driving offers a handover: the first quiet TB at least 10 µs ahead (R518). -/
def offerHandover (s : State) (yields pairing : Bool) : State :=
  let t := quietTime s (s.tb + 10000)
  twnRole (setHandover s (some ⟨t, yields, false, pairing⟩)) 1 t

/-- The follower's streams on port n open no frame until an FS packet has come (R505). -/
def twnAwaitFs (s : State) (p : Nat → Bool) : State :=
  (List.range 64).foldl (fun s k =>
    if hasBit s F.TWN_STREAMS_MASK 0 k && isSet s F.PKT_PORT_CFG_TWIN_SRC (rd s F.PKT_MAP_PORT k) && p (rd s F.PKT_MAP_PORT k)
    then setTwnStream s k ⟨1, []⟩ else s) s

/-- The link of port n has gone down: first alignment again for the streams it follows (R505). -/
def twnPortDown (s : State) (n : Nat) : State := if twnPaired s then twnAwaitFs s (· == n) else s

/-- The pair has formed: PAIRED, and the follower's first alignment (R501, R505). -/
def twnPairedNow (s : State) : State := twnProducers (twnAwaitFs (twnEvt s 0) fun _ => true) 6

/-- Enter ALIGN (R501, R504). -/
def enterAlign (s : State) : State :=
  setTwnState (setTwn s { s.twn with loaded := false, aligned := 0, fogNext := none, missRun := 0, syncAt := 0 }) twALIGN

/-- Enter LEAD (R501); a lead counts no foghorn of its twin before the twin is WATCH (log 40). -/
def enterLead (s : State) : State :=
  setTwnState (setTwn s { s.twn with fogNext := none, missRun := 0, peerState := 0 }) twLEAD

/-- The first failed check of a handshake (R498). -/
def helloCheck (s : State) (p : List Nat) : Nat :=
  if leField p 32 1 = rd s F.GLB_STATUS_TWIN_RANK then 1
  else if leField p 8 8 ≠ rd s F.TWN_CFG_HASH_VALUE then 2
  else if leField p 16 8 ≠ rd s F.SQ_PROG_HASH_HASH then 3
  else if leField p 34 2 ≠ rd s F.TWN_FOG_PERIOD_NS then 4
  else 0

/-- Roles, once the device has sent its HELLO and holds the twin's (R498, R501; log 41 for the states that the table does
not name). -/
def tryPair (s : State) : State :=
  match s.twn.ownState, s.twn.peer with
  | some own, some p =>
    if twnState s = twMISMATCH then s
    else
      let s := setTwn s { s.twn with ownState := none, peer := none }
      let code := helloCheck s p
      if code ≠ 0 then twnEvt (setTwnState (wr s F.TWN_HELLO_ERR_CODE 0 code) twMISMATCH) 1
      else
        let peerDrives := twnDriver (leField p 33 1)
        let rank := rd s F.GLB_STATUS_TWIN_RANK
        if !twnDriver own then
          if peerDrives || rank ≠ 0 then enterAlign s else enterLead s
        else if !peerDrives then enterLead s
        else if rank = 0 then offerHandover (enterLead s) false true
        else s
  | _, _ => s

/-- HELLO leaves; the device enters HANDSHAKE, but one that drives the shared lines keeps its state (R498; log 41). -/
def helloNow (s : State) : State :=
  let st := twnState s
  let s := wr s F.TWN_CFG_HASH_VALUE 0 (cfgHash s)
  let s := twnPush s tpHELLO (helloBytes s st)
  let s := setTwn s { s.twn with helloWait := false, ownState := some st }
  tryPair (if twnDriver st then s else setTwnState (setTwn s { s.twn with fogNext := none }) twHANDSHAKE)

/-- The device starts a HELLO: with no valid image hash the engine runs first (R500). -/
def sendHello (s : State) : State :=
  if !isSet s F.TWN_CTL_EN then s
  else if isSet s F.SQ_HASH_CTL_VALID then helloNow s
  else
    let s := setTwn s { s.twn with helloWait := true }
    if domUp s 21 then hashStart s else s

/-- The hash engine ends; a HELLO that waited for it leaves (R99, R500). A hash that a write spoiled is a free value. -/
def hashDone (s : State) : State :=
  match s.hashDue with
  | none => s
  | some t =>
    if s.ns < t then s
    else
      let (v, u) := takeFree s 64
      let s := if s.hashDirty then wr u F.SQ_PROG_HASH_HASH 0 v
        else wr s F.SQ_PROG_HASH_HASH 0 (crc64 ((List.range 262144).map (progByte s)))
      let s := wrBool (wr { s with hashDue := none } F.SQ_HASH_CTL_BUSY 0 0) F.SQ_HASH_CTL_VALID 0 (!s.hashDirty)
      if s.twn.helloWait && isSet s F.SQ_HASH_CTL_VALID then sendHello s else s

def execHashDone (s : State) : Host.Outcome State Fault Refusal := finish s (inBlock 15 s hashDone)

/-- TWN_CMD.HELLO (R498). -/
def execTwnHello (s : State) : Host.Outcome State Fault Refusal := finish s (inReach 5 s sendHello)

/-- The receive side of the twin link reaches LINK_UP (R498). -/
def twnLinkUp (s : State) : State := sendHello (twnEvt (wr s F.TWN_STATUS_LINK_UP 0 1) 14)

/-- The receive side of the twin link goes down: what waits to be sent is gone (log 25). -/
def twnLinkDown (s : State) : State :=
  let s := twnEvt (wr s F.TWN_STATUS_LINK_UP 0 0) 15
  setTwn s { s.twn with txq := [], peer := none, ownState := none, helloWait := false }

/-! ### TWN_CTL (R492, R502) -/

def twnBusyState (st : Nat) : Bool := st == twHANDSHAKE || st == twALIGN || st == twLEAD || st == twWATCH

/-- A write of TWN_CTL. -/
def twnCtlWrite (s : State) (val : Nat) : State :=
  let st := twnState s
  let en := val.testBit 0
  let ml := bitsOf val 2 4
  if !en && twnBusyState st then twnEvt s 13
  else
    let s := wrBool s F.TWN_CTL_SOLO_OK 0 (val.testBit 1)
    let s := if ml = rd s F.TWN_CTL_MISS_LIMIT then s
      else if ml = 0 || twnBusyState st then twnEvt s 13 else wr s F.TWN_CTL_MISS_LIMIT 0 ml
    let was := isSet s F.TWN_CTL_EN
    let s := wrBool s F.TWN_CTL_EN 0 en
    if en && !was then setTwnState (setTwn s { s.twn with searchAt := s.ns }) twSEARCH
    else if !en && was then setTwnState (setHandover (setTwn s { s.twn with confirmed := none }) none) twOFF
    else s

/-- TWN_SEARCH_MS pass without LINK_UP (R502). -/
def searchTimeout (s : State) : State :=
  if twnState s = twSEARCH ∧ isSet s F.TWN_CTL_SOLO_OK ∧ !isSet s F.TWN_STATUS_LINK_UP
      ∧ s.twn.searchAt + 1000000 * rd s F.TWN_SEARCH_MS_MS ≤ s.ns then setTwnState s twSOLO
  else s

def execTwnSearchTimeout (s : State) : Host.Outcome State Fault Refusal := finish s (inBlock 5 s searchTimeout)

/-! ### Reception (R495) -/

/-- A packet as it reaches the TWN block is one that the table knows, with its LEN and CRC. -/
def twnValid (b : List Nat) : Bool :=
  match b with
  | ty :: len :: rest =>
    twnLen ty == some len && rest.length == len + 2
      && crc16 (ty :: len :: rest.take len) == ofBytes (rest.drop len)
  | _ => false

/-- A packet of type `ty` arrives: an invalid one is discarded and counted, a valid one of that type acts. -/
def twnRx (s : State) (ty : Nat) (b : List Nat) (act : State → List Nat → State) : State :=
  if !twnCarries s then s
  else if !twnValid b then bump s F.TWN_PKT_ERR_COUNT
  else if b.headD 0 = ty then act s ((b.drop 2).take (b.length - 4)) else s

/-- A HELLO arrives (R498, R519). -/
def helloRx (s : State) (p : List Nat) : State :=
  let s := wr (wr (wr s F.TWN_PEER_UID_VALUE 0 (leField p 0 8)) F.TWN_PEER_CFG_HASH_VALUE 0 (leField p 8 8))
    F.TWN_PEER_IMG_HASH_VALUE 0 (leField p 16 8)
  let s := wr s F.TWN_STATUS_PEER_RANK 0 (leField p 32 1)
  let s := setTwn s { s.twn with peer := some p }
  if !isSet s F.TWN_CTL_EN then s
  else if twnState s = twRELEASED then sendHello s else tryPair s

def execTwnHelloRx (pkt : List Nat) (s : State) : Host.Outcome State Fault Refusal := finish s (inBlock 5 s fun s => twnRx s tpHELLO pkt helloRx)

/-! ### Timebase alignment (R503, R504) -/

/-- A TBSYNC request leaves when it is due: every TWN_TBSYNC_US µs, every 10 µs in ALIGN (R503). -/
def tbsyncTx (s : State) : State :=
  let st := twnState s
  let per := if st = twALIGN then 10000 else 1000 * rd s F.TWN_TBSYNC_US_US
  if (st = twALIGN ∨ st = twWATCH) ∧ (s.twn.syncAt = 0 ∨ s.twn.syncAt + per ≤ s.ns + 1) then
    twnPush (setTwn s { s.twn with syncAt := s.ns + 1 }) tpTBSYNC (List.replicate 25 0)
  else s

def execTwnTbsyncTx (s : State) : Host.Outcome State Fault Refusal := finish s (inBlock 5 s tbsyncTx)

/-- The watch enters WATCH, and the pair has formed (R501). -/
def enterWatch (s : State) : State := twnPairedNow (setTwnState s twWATCH)

/-- TB_ALIGNED falls (R504). -/
def unalign (s : State) : State :=
  let s := setTwn s { s.twn with aligned := 0 }
  if isSet s F.TWN_STATUS_TB_ALIGNED then twnEvt (wr s F.TWN_STATUS_TB_ALIGNED 0 0) 9 else s

/-- An exchange ends on the watch with the stamps t1 to t4 (R503, R504; fractions of a ns are dropped, log 42). -/
def exchangeDone (s : State) (t1 t2 t3 t4 : Nat) : State :=
  let a : Int := (t2 : Int) - t1
  let b : Int := (t4 : Int) - t3
  let offset := ((a - b) * 1000 - toSigned 16 (rd s F.TWN_ASYM_PS)).tdiv 2000
  let s := wr s F.TWN_TB_OFFSET_VALUE 0 (fromSigned 32 (satSigned 32 offset))
  let s := wr s F.TWN_LINK_DLY_VALUE 0 ((a + b).tdiv 2).toNat
  let s := if s.twn.loaded then { s with slew := -offset }
    else
      let s := setTwn s { s.twn with loaded := true }
      if loadBarred s then { tmbEvt s 6 with slew := -offset }
      else tmbEvt { s with tb := fromSigned 64 ((s.tb : Int) + offset), slew := 0 } 5
  if offset.natAbs ≤ 2 then
    let n := s.twn.aligned + 1
    let s := setTwn s { s.twn with aligned := n }
    if 3 ≤ n then
      let s := wr s F.TWN_STATUS_TB_ALIGNED 0 1
      if twnState s = twALIGN then enterWatch s else s
    else s
  else unalign s

/-- A TBSYNC packet arrives: the lead answers a request, the watch ends an exchange (R503). -/
def tbsyncRx (s : State) (p : List Nat) : State :=
  let st := twnState s
  if leField p 0 1 = 0 then
    if st = twLEAD then twnPush s tpTBSYNC ([1] ++ toBytes 8 (leField p 1 8) ++ toBytes 8 s.tb ++ List.replicate 8 0) else s
  else if st = twALIGN ∨ st = twWATCH then exchangeDone s (leField p 1 8) (leField p 9 8) (leField p 17 8) s.tb
  else s

def execTwnTbsyncRx (pkt : List Nat) (s : State) : Host.Outcome State Fault Refusal := finish s (inBlock 5 s fun s => twnRx s tpTBSYNC pkt tbsyncRx)

/-! ### Frame numbers (R505) -/

/-- An FS packet arrives at the follower of its stream. -/
def fsRx (s : State) (p : List Nat) : State :=
  let k := leField p 0 1 % 64
  let q := leField p 2 6
  let t := leField p 8 8
  if !twnFollows s k (rd s F.PKT_MAP_PORT k) then s
  else
    let v := twnStreamAt s k
    let go := v.wait = 1 ∨ (v.wait = 2 ∧ rd s F.PKT_SEQ_VALUE k ≤ q)
    if go then twnSetSeq (setTwnStream s k ⟨0, []⟩) k (q + 1)
    else if v.wait ≠ 0 then s
    else match s.frames.find? fun f => f.stream == k && f.tent.isNone && twnNear s f.tbFs t with
      | some f => twnAgree s k f.seq q
      | none => setTwnStream s k { v with fs := ((q, t) :: v.fs).take 64 }

def execTwnFsRx (pkt : List Nat) (s : State) : Host.Outcome State Fault Refusal := finish s (inBlock 5 s fun s => twnRx s tpFS pkt fsRx)

/-! ### Frame clocks (R506, R507) -/

/-- A TRIG packet arrives at the watch (R507); one of an FCG that this device does not run names a trigger it did not commit. -/
def trigRx (s : State) (p : List Nat) : State :=
  let g := leField p 0 1
  if twnState s ≠ twWATCH || 4 ≤ g then s
  else if !fcgRuns s g then trigMismatch s g
  else
    let k := twnFcgAt s g
    judgeTrigs (setTwnFcg s g { k with lead := k.lead ++ [(leField p 4 4, leField p 8 8)] }) g

def execTwnTrigRx (pkt : List Nat) (s : State) : Host.Outcome State Fault Refusal := finish s (inBlock 5 s fun s => twnRx s tpTRIG pkt trigRx)

/-- The watch loads the state of the lead's FCG, and commits from the next trigger on: the TRIG packets up to the one it names are
not compared (R506, R507; log 27). -/
def fcgLoad (s : State) (g : Nat) (p : List Nat) : State :=
  let loop := leField p 1 1
  let id := leField p 4 4
  let t := leField p 8 8
  let k := fcgAt s g
  let k := { anchor k (leField p 16 8) with
    f := leField p 24 8, nextT := t + rd s F.FCG_PERIOD_VALUE g, lastT := some t, relock := false, updTb := s.tb / 100 * 100,
    holdTime := rd s F.FCG_HOLD_TIME_US g * 1000, holdUsed := rd s F.FCG_HOLD_TIME_US g * 1000 - 1000 * leField p 32 4,
    holdSince := s.ns }
  let s := wr (setLoop (setFcg s g k) g (loop % 8)) F.FCG_TRIG_ID_VALUE g id
  let s := wr s F.FCG_RATE_VALUE g k.f
  let w := twnFcgAt s g
  setTwnFcg s g { w with await := false, lead := w.lead.filter fun q => !idReached q.1 id }

/-- An FCGSTATE packet arrives: the lead takes a request, the watch loads a running FCG (R506, R507; log 26). -/
def fcgstateRx (s : State) (p : List Nat) : State :=
  let g := leField p 0 1
  if 4 ≤ g then s
  else if twnState s = twLEAD then
    if (p.drop 1).all (· == 0) then setTwnFcg s g { twnFcgAt s g with owed := true } else s
  else if twnState s = twWATCH && fcgRuns s g then fcgLoad s g p
  else s

def execTwnFcgstateRx (pkt : List Nat) (s : State) : Host.Outcome State Fault Refusal :=
  finish s (inBlock 5 s fun s => twnRx s tpFCGSTATE pkt fcgstateRx)

/-- TWN_CMD.FCG_SYNC: the watch asks for the state of each FCG (R507). -/
def twnFcgSync (s : State) : State :=
  if twnState s = twWATCH then (List.range 4).foldl (fun s g => if fcgRuns s g then twnRequest s g else s) s else s

def execTwnFcgSync (s : State) : Host.Outcome State Fault Refusal := finish s (inReach 5 s twnFcgSync)

/-! ### Foghorns (R508, R509, R511) -/

/-- The device exchanges foghorns: from the LINK_UP that begins its handshake for as long as it pairs or is paired (R508; log 40). -/
def twnFogs (s : State) : Bool := twnBusyState (twnState s)

/-- A shared output is dark by R24 or R32. -/
def sharedDark (s : State) : Bool :=
  (List.range 16).any fun n => isSet s F.TRG_CFG_TWIN n && trgDark s n
    && (rd s F.FIO_CH_STAT_DARK_CAUSE (12 + n) == 2 || rd s F.FIO_CH_STAT_DARK_CAUSE (12 + n) == 3)

/-- TB has crossed a multiple of TWN_FOG_PERIOD: a foghorn (R508). -/
def foghornTx (s : State) : State :=
  let per := max 1 (rd s F.TWN_FOG_PERIOD_NS)
  let nominal := s.tb / per * per
  if !twnFogs s || !isSet s F.TWN_STATUS_LINK_UP || nominal == s.twn.fogTx || !isSet s F.GLB_STATUS_D2D_UP
      || !isSet s F.GLB_STATUS_REF_LANE_OK || sharedDark s then s
  else
    let seq := (rd s F.TWN_FOG_SEQ_TX + 1) % 65536
    let s := wr (setTwn s { s.twn with fogTx := nominal }) F.TWN_FOG_SEQ_TX 0 seq
    twnPush s tpFOGHORN (toBytes 8 nominal ++ toBytes 2 seq
      ++ [twnState s, rd s F.TWN_STATUS_DRIVING + 2 * rd s F.TWN_STATUS_TB_ALIGNED])

def execTwnFoghornTx (s : State) : Host.Outcome State Fault Refusal := finish s (inBlock 5 s foghornTx)

/-- A valid foghorn arrives (R509); one in the cycle in which a watch confirms a failure undoes the confirmation (R513); on the lead, one that shows the twin turned WATCH completes the pairing and owes it the
state of each FCG (R501, R506). -/
def foghornRx (s : State) (p : List Nat) : State :=
  if !twnFogs s then s
  else
    let nominal := leField p 0 8
    let st := leField p 10 1
    let s := wr s F.TWN_FOG_SEQ_RX 0 (leField p 8 2)
    let turned := twnState s == twLEAD && st == twWATCH && s.twn.peerState ≠ twWATCH
    let expects := twnState s == twWATCH || (twnState s == twLEAD && st == twWATCH) || (twnState s == twALIGN && s.twn.loaded)
    let s := setTwn s { s.twn with
      missRun := 0, lastFog := some nominal, peerState := st,
      fogNext := if expects then some (max (nominal + rd s F.TWN_FOG_PERIOD_NS) (s.twn.fogNext.getD 0)) else s.twn.fogNext,
      confirmed := if twnState s == twWATCH then none else s.twn.confirmed }
    let s := if isSet s F.TWN_STATUS_FOGHORN_OK then s else twnEvt (wr s F.TWN_STATUS_FOGHORN_OK 0 1) 3
    if turned then
      twnPairedNow ((List.range 4).foldl (fun s g => setTwnFcg s g { twnFcgAt s g with owed := true }) s)
    else s

def execTwnFoghornRx (pkt : List Nat) (s : State) : Host.Outcome State Fault Refusal :=
  finish s (inBlock 5 s fun s => twnRx s tpFOGHORN pkt foghornRx)

/-- The watch confirms the lead's failure (R512). The confirmation takes effect when its cycle ends, so that a foghorn of the same
cycle can undo it (R513). -/
def confirmFailure (s : State) : State := setTwn s { s.twn with confirmed := some s.tb }

/-- The cycle of a confirmation has ended: SOLO, not driving yet (R513). -/
def confirmEnter (s : State) : State :=
  if s.twn.confirmed.isSome && twnState s == twWATCH then wr (setTwnState s twSOLO) F.TWN_STATUS_DRIVING 0 0 else s

/-- A handover is cancelled; the lead that offered its release sets RELEASE_FAIL (R518). -/
def cancelHandover (s : State) : State :=
  match s.twn.handover with
  | none => s
  | some h =>
    let s := setHandover s none
    if h.yields && !h.pairing then twnEvt s 8 else s

/-- The foghorns of the twin are lost (R509, R511, R512, R518). -/
def foghornLost (s : State) : State :=
  let s := twnProducers (twnEvt (wr s F.TWN_STATUS_FOGHORN_OK 0 0) 2) 2
  let s := wr s F.TWN_GAP_START_VALUE 0 (s.twn.lastFog.getD 0)
  let s := cancelHandover (if twnState s = twLEAD then s else unalign s)
  if twnState s = twLEAD then twnEvt (setTwnState s twSOLO) 12
  else if twnState s = twWATCH && s.twn.missAt.any (fun t => decide (rd s F.TWN_GAP_START_VALUE < t)) then confirmFailure s
  else s

/-- A foghorn deadline passes with no foghorn (R509). -/
def fogMiss (s : State) : State :=
  match s.twn.fogNext with
  | none => s
  | some t =>
    if !twnFogs s || s.tb ≤ t + rd s F.TWN_LINK_DLY_VALUE + 200 then s
    else
      let n := s.twn.missRun + 1
      let s := setTwn (bump s F.TWN_FOG_MISSED_COUNT) { s.twn with
        missRun := n, fogNext := some (t + rd s F.TWN_FOG_PERIOD_NS) }
      if rd s F.TWN_CTL_MISS_LIMIT ≤ n ∧ isSet s F.TWN_STATUS_FOGHORN_OK then foghornLost s else s

def execTwnFogMiss (s : State) : Host.Outcome State Fault Refusal := finish s (inBlock 5 s fogMiss)

/-! ### Line sensing and takeover (R510 to R515) -/

/-- A shared line has differed from the tracked schedule for longer than TWN_LINE_TOL (R510, R512). -/
def lineMiss (s : State) (n : Nat) : State :=
  if twnState s ≠ twWATCH || !isSet s F.TRG_CFG_TWIN n || rd s F.TRG_CFG_MODE n = 0 then s
  else
    let begin' := s.tb - rd s F.TWN_LINE_TOL_NS
    let s := twnProducers (twnEvt (bump s F.TWN_LINE_MISS_COUNT) 4) 5
    let s := setTwn s { s.twn with missAt := some begin' }
    if !isSet s F.TWN_STATUS_FOGHORN_OK && decide (rd s F.TWN_GAP_START_VALUE < begin') then confirmFailure s else s

def execTwnLineMiss (n : Nat) (s : State) : Host.Outcome State Fault Refusal := onBlock 5 n 16 s fun s => lineMiss s n

/-- The frames of the gap take TAKEOVER (R514). -/
def markGap (s : State) : State :=
  mapFrames s (fun f => hasBit s F.TWN_STREAMS_MASK 0 f.stream
      && ((decide (f.tbFs ≤ rd s F.TWN_TAKEOVER_TB_VALUE)
            && (f.phase == .open || decide (rd s F.TWN_GAP_START_VALUE ≤ f.tbFe)))
          || f.trig.any fun r => inGap s r.time)) fun f => f.flag flTAKEOVER

/-- The watch begins to drive the shared lines (R513, R514). -/
def takeoverDrive (s : State) : State :=
  match if twnState s == twWATCH then none else s.twn.confirmed with
  | none => s
  | some t =>
    if sharedQuiet s s.tb || decide (t + 5000 ≤ s.tb) then
      let s := wr (setTwn s { s.twn with confirmed := none }) F.TWN_STATUS_DRIVING 0 1
      let s := twnEvt (bump (wr s F.TWN_TAKEOVER_TB_VALUE 0 s.tb) F.TWN_TAKEOVERS_COUNT) 5
      markGap (twnProducers s 3)
    else s

def execTwnTakeoverDrive (s : State) : Host.Outcome State Fault Refusal := finish s (inBlock 5 s takeoverDrive)

/-- The pin of a shared line that this device drives has differed from the driven level for 100 ns (R515). -/
def driveFight (s : State) (n : Nat) : State :=
  if !isSet s F.TRG_CFG_TWIN n || !driving s n then s
  else
    let s := twnProducers (twnEvt (bump s F.TWN_FIGHTS_COUNT) 6) 4
    if rd s F.GLB_STATUS_TWIN_RANK = 1 then
      (List.range 16).foldl (fun s m => if isSet s F.TRG_CFG_TWIN m then goDark s 7 false (12 + m) else s) s
    else s

def execDriveFight (n : Nat) (s : State) : Host.Outcome State Fault Refusal := onBlock 5 n 16 s fun s => driveFight s n

/-! ### Releasing (R516 to R518) -/

/-- TWN_CMD.RELEASE (R516 to R518). -/
def twnRelease (s : State) : State :=
  if twnState s = twWATCH then twnEvt (setTwnState (twnRole s 3 0) twRELEASED) 7
  else if twnState s = twLEAD then (if s.twn.handover.isSome then s else offerHandover s true false)
  else twnEvt s 13

def execTwnRelease (s : State) : Host.Outcome State Fault Refusal := finish s (inReach 5 s twnRelease)

/-- A ROLE packet arrives (R517, R518). -/
def roleRx (s : State) (p : List Nat) : State :=
  let t := leField p 4 8
  match leField p 0 1 with
  | 1 =>
    if twnState s = twWATCH ∧ isSet s F.TWN_STATUS_TB_ALIGNED then twnRole (setHandover s (some ⟨t, false, true, false⟩)) 2 t
    else if twnDriver (twnState s) ∧ rd s F.GLB_STATUS_TWIN_RANK = 1 then
      twnRole (setHandover s (some ⟨t, true, true, true⟩)) 2 t
    else s
  | 2 =>
    match s.twn.handover with
    | some h => setHandover s (some { h with acked := true })
    | none => s
  | 3 => if twnState s = twLEAD then twnEvt (setTwnState s twSOLO) 7 else s
  | _ => s

def execTwnRoleRx (pkt : List Nat) (s : State) : Host.Outcome State Fault Refusal := finish s (inBlock 5 s fun s => twnRx s tpROLE pkt roleRx)

/-- T_H comes: the yielding device stops driving, the other drives (R518). -/
def twnHandover (s : State) : State :=
  match s.twn.handover with
  | none => s
  | some h =>
    if s.tb < h.time || !h.acked then s
    else
      let s := setHandover s none
      if h.yields then (if h.pairing then enterAlign s else twnEvt (setTwnState s twRELEASED) 7)
      else if h.pairing then s else setTwnState s twSOLO

def execTwnHandover (s : State) : Host.Outcome State Fault Refusal := finish s (inBlock 5 s twnHandover)

/-- The acknowledgement has not come by T_H − 2 µs (R518). -/
def handoverCancel (s : State) : State :=
  match s.twn.handover with
  | some h => if !h.acked && decide (h.time ≤ s.tb + 2000) then cancelHandover s else s
  | none => s

def execTwnHandoverCancel (s : State) : Host.Outcome State Fault Refusal :=
  finish s (inBlock 5 s handoverCancel)

/-! ### Messages and events (R520, R521) -/

/-- An MBX packet arrives (R520). DESIGN CHOICE (log 102): a READ carries nothing that tells the word it answers, so one that comes
while the mailbox holds a word empties it. -/
def mbxRx (s : State) (p : List Nat) : State :=
  let m := leField p 0 1
  if 64 ≤ m then s
  else match leField p 1 1 with
    | 1 =>
      let (r, t) := mbxSend s 0x18 m (leField p 4 4)
      if r = .ok then t else twnMbx t m 3 0
    | 2 => if rd s F.MBX_BIND_RECEIVER m = 0x18 ∧ isSet s F.MBX_STAT_FULL m then mbxClear s m else s
    | 3 =>
      if rd s F.MBX_BIND_RECEIVER m = 0x18 ∧ isSet s F.MBX_STAT_FULL m then
        bump (wr (mbxClear s m) F.MBX_STAT_SEND_OVERRUN m 1) F.TWN_MBX_NAK_COUNT
      else s
    | 4 => if rd s F.MBX_BIND_SENDER m = 0x18 ∧ isSet s F.MBX_STAT_FULL m then mbxClear s m else s
    | _ => s

/-- A BCN packet arrives (R521). -/
def bcnRx (s : State) (p : List Nat) : State :=
  let ch := leField p 0 1
  if 48 ≤ ch then s
  else
    let s := (fireRequest s 0x18 ch).2
    (List.range 8).foldl (fun t i =>
      if isSet s F.TWN_PROD_CFG_EN i && rd s F.TWN_PROD_CFG_SRC i == 0 && rd s F.TWN_PROD_CFG_CH i == ch then
        fireProducer t (136 + i) else t) s

def execTwnBcnRx (pkt : List Nat) (s : State) : Host.Outcome State Fault Refusal := finish s (inBlock 5 s fun s => twnRx s tpBCN pkt bcnRx)

/-- An event reaches TWN_SEND (consumer 53); busy while a BCN packet waits to leave (R488, R521). -/
def execTwnSendEvent (ch : Nat) (s : State) : Host.Outcome State Fault Refusal :=
  onUnit ch 48 s fun s => beaconArrives s 53 (· == ch) (fun s => s.twn.txq.any fun p => p.1 == tpBCN)
    fun ch s => twnPush s tpBCN [ch, 0]

def twnCounters : List Field :=
  [F.TWN_FOG_MISSED_COUNT, F.TWN_LINE_MISS_COUNT, F.TWN_TAKEOVERS_COUNT, F.TWN_FIGHTS_COUNT, F.TWN_SEQ_MISMATCH_COUNT,
   F.TWN_TRIG_MISMATCH_COUNT, F.TWN_PKT_ERR_COUNT, F.TWN_TX_DROP_COUNT, F.TWN_MBX_NAK_COUNT, F.TWN_RX_CODE_ERR_COUNT,
   F.TWN_RX_CTRL_ERR_COUNT, F.TWN_RX_MARKER_ERR_COUNT, F.TWN_RX_LOCK_LOSS_COUNT, F.TWN_TX_INJ_CNT_COUNT,
   F.TWN_RX_PRBS_ERR_COUNT]

def execTwnClrCounts (s : State) : Host.Outcome State Fault Refusal := finish s (inReach 5 s fun s => clearAll s twnCounters 0)

end Sys2Proof.Machine
end

