-- ==== Sys2Proof/Machine/Prt.lean ====
section
/-! DEFINITION. Camera ports and the twin receive lane (index 8) (spec/06): what the lanes sample, bring-up, loss and
re-acquisition, equalisation, test patterns, self-test, HOLD and DEEP, injection. -/
namespace Sys2Proof.Machine

/-! ### A receive side: ports 0 to 7, and 8 for the twin lane (R273) -/

/-- The bit of the block of a receive side: PRTn, and TWN for the twin lane. -/
def rxBit (n : Nat) : Nat := if n = 8 then 5 else 21 + n

/-- A register of a port, or its counterpart of the twin lane. -/
def rxGet (s : State) (n : Nat) (port twin : Field) : Nat := if n = 8 then rd s twin else rd s port n
def rxSet (s : State) (n : Nat) (port twin : Field) (v : Nat) : State := if n = 8 then wr s twin 0 v else wr s port n v

/-- A register of physical lane j of a port, or its counterpart of the twin lane. -/
def laneGet (s : State) (n j : Nat) (port twin : Field) : Nat := if n = 8 then rd s twin else rd s port (4 * n + j)
def laneSet (s : State) (n j : Nat) (port twin : Field) (v : Nat) : State :=
  if n = 8 then wr s twin 0 v else wr s port (4 * n + j) v
def laneBump (s : State) (n j : Nat) (port twin : Field) : State :=
  if n = 8 then bump s twin else bump s port (4 * n + j)

def rxState (s : State) (n : Nat) : Nat := rxGet s n F.PRT_STATUS_STATE F.TWN_RX_STATUS_STATE
def setRxState (s : State) (n st : Nat) : State := rxSet s n F.PRT_STATUS_STATE F.TWN_RX_STATUS_STATE st
def rxUp (s : State) (n : Nat) : Bool := rxGet s n F.PRT_STATUS_LINK_UP F.TWN_RX_STATUS_LINK_UP ≠ 0
def setRxUp (s : State) (n v : Nat) : State := rxSet s n F.PRT_STATUS_LINK_UP F.TWN_RX_STATUS_LINK_UP v
def rxClk (s : State) (n : Nat) : Bool := rxGet s n F.PRT_STATUS_CLK_PRESENT F.TWN_RX_STATUS_CLK_PRESENT ≠ 0
def setRxClk (s : State) (n v : Nat) : State := rxSet s n F.PRT_STATUS_CLK_PRESENT F.TWN_RX_STATUS_CLK_PRESENT v

/-- The receive side is powered and enabled; the twin's lane runs while TWN_CTL.EN is 1 (log 43). -/
def rxEn (s : State) (n : Nat) : Bool :=
  if n = 8 then domUp s 15 && isSet s F.TWN_CTL_EN else domUp s (6 + n) && isSet s F.PRT_CFG_EN n

/-- An event of a port; the twin block has no event of most of them. -/
def rxEvt (s : State) (n b : Nat) : State := if n = 8 then s else prtEvt s n b

/-- The logical lanes in use, and the physical lane of each (R236, R237). -/
def rxLanes (s : State) (n : Nat) : Nat := if n = 8 then 1 else 2 ^ rd s F.PRT_CFG_LANES n
def physLane (s : State) (n i : Nat) : Nat := if n = 8 then 0 else bitsOf (rd s F.PRT_CFG_LANE_MAP n) (2 * i) 2
def usedLanes (s : State) (n : Nat) : List Nat := (List.range (rxLanes s n)).map (physLane s n)

/-- The generation of the lanes: RLB on the twin link (R236, R273). -/
def rxGen (s : State) (n : Nat) : Nat := if n = 8 then 1 else rd s F.PRT_CFG_GEN n

/-- INVERT is set for physical lane j (R237, R629). -/
def laneInvert (s : State) (n j : Nat) : Bool :=
  if n = 8 then isSet s F.TWN_RX_CFG_INVERT else (rd s F.PRT_CFG_INVERT n).testBit j

/-- What the lane sampler delivers of a unit at the pin: INVERT corrects its polarity (R237). -/
def laneUnit (s : State) (n j w : Nat) : Nat :=
  if laneInvert s n j then flipUnit (rxGen s n) w else w % 2 ^ unitBits (rxGen s n)

/-- The units of a column, given by physical lane, on the logical lanes (R237, R241). -/
def columnOf (s : State) (n : Nat) (col : List Nat) : List Nat := (usedLanes s n).map fun j => laneUnit s n j (col.getD j 0)

/-- The columns of `cols` from the second on as the units of the logical lanes; the first only fills the descramblers. -/
def columnsOf (s : State) (n : Nat) (cols : List (List Nat)) : List (List RxUnit) :=
  let us := cols.map (columnOf s n)
  (us.zip us.tail).map fun p => (p.1.zip p.2).map fun w => unitOf (rxGen s n) w.1 w.2

/-- The relay that feeds a port through a loop: it ignores its pins (R261). -/
def loopRelay (s : State) (n : Nat) : Option Nat :=
  let k := n % 4
  if n < 8 && rd s F.RLY_STATUS_STATE k == 2 && rd s F.RLY_CFG_LOOP k ≠ 0 && rd s F.RLY_CFG_LOOP_PORT k == n / 4 then some k else none

/-- A relay feeds the port digitally: loop L2 (R261). -/
def loopedL2 (s : State) (n : Nat) : Bool :=
  n < 8 && isSet s F.RLY_CFG_EN (n % 4) && rd s F.RLY_CFG_LOOP (n % 4) == 2 && rd s F.RLY_CFG_LOOP_PORT (n % 4) == n / 4

/-- Physical lane j holds lane lock. -/
def laneLocked (s : State) (n j : Nat) : Bool :=
  if n = 8 then (prtAt s 8).twinLock else (rd s F.PRT_STATUS_LANE_LOCK n).testBit j

def setLaneLock (s : State) (n j : Nat) (on : Bool) : State :=
  if n = 8 then setPrt s 8 { prtAt s 8 with twinLock := on } else putBit s F.PRT_STATUS_LANE_LOCK n j on

/-- Every lane loses its lock flag, and what the markers have shown is forgotten. -/
def dropLanes (s : State) (n : Nat) : State :=
  let k := prtAt s n
  let s := setPrt s n { k with
    twinLock := false, centred := false, swept := false, agree := 0, seq := none, deskewed := false, markerOk := false,
    missing := 0, skewLost := false }
  if n = 8 then s else wr s F.PRT_STATUS_LANE_LOCK n 0

/-! ### Link down and re-acquisition (R248 to R251) -/

/-- The link goes down, the port in state `st` from then on (R248, R293, R505). -/
def linkDown (s : State) (n st : Nat) : State :=
  if !rxUp s n then setRxState s n st
  else
    let s := setRxUp (setRxState s n st) n 0
    if n = 8 then twnLinkDown s
    else
      let s := wr (setPrt s n { prtAt s n with entry := none, exit := none }) F.PRT_STATUS_ENTRY_PENDING n 0
      let s := fireProducer (bump (prtEvt s n 1) F.PRT_DOWNS_COUNT n) (49 + 2 * n)
      twnPortDown (cutLink s n) n

/-- The stage that follows the clock multiplier's lock: a port in loop L2 skips phase centring and the sweep (R246, R261). -/
def afterMult (s : State) (n : Nat) : Nat := if loopedL2 s n then pLOCK else pEQUALISE

/-- Back to the clock-multiplier stage: a multiplier that holds lock keeps it (R250, R251). -/
def restartMult (s : State) (n : Nat) : State :=
  let s := dropLanes s n
  setRxState s n (if (prtAt s n).mult then afterMult s n else pCLOCK)

/-- The link goes down with FCK present, and the port re-acquires from phase centring; the uplink asks for a marker burst
(R248, R250). -/
def linkLost (s : State) (n : Nat) : State :=
  let s := linkDown s n pEQUALISE
  burstRequest (restartMult (setPrt s n { prtAt s n with t0 := s.ns }) n) n

/-- Wait for FCK from now on. -/
def awaitClock (s : State) (n : Nat) : State :=
  let s := dropLanes s n
  let s := setPrt s n { prtAt s n with t0 := s.ns, freqOk := false }
  setRxState s n (if rxClk s n then pCLOCK else pNOCLOCK)

/-- A PRBS checker of the port is enabled (R258, R259). -/
def prbsOn (s : State) (n : Nat) : Bool :=
  if n = 8 then isSet s F.TWN_RX_PRBS_CFG_EN else (List.range 4).any fun j => isSet s F.PRT_LANE_PRBS_CFG_EN (4 * n + j)

/-- The bring-up stages run: the port is in none of OFF, HOLD, DEEP, TEST and SELFTEST. -/
def bringingUp (s : State) (n : Nat) : Bool :=
  rxEn s n && (let st := rxState s n; pNOCLOCK ≤ st && st ≤ pUP)

/-! ### Bring-up (R245, R246) -/

/-- The activity detector sees FCK. -/
def fckDetect (s : State) (n : Nat) : State :=
  if !rxEn s n || rxClk s n then s
  else
    let s := setRxClk (setPrt s n { prtAt s n with t0 := s.ns, freqOk := false }) n 1
    if rxState s n = pNOCLOCK then setRxState s n pCLOCK else s

def execFckDetect (n : Nat) (s : State) : Host.Outcome State Fault Refusal := onBlock (rxBit n) n 9 s fun s => fckDetect s n

/-- The configured FCK frequency in units of 0.5 kHz (R236, R273). -/
def fckHalfKhz (s : State) (n : Nat) : Nat :=
  if n = 8 then 2578125
  else if isSet s F.PRT_CFG_GEN n then (5000000 + 500000 * rd s F.PRT_CFG_RATE n) / 4
  else (1250000 + 250000 * rd s F.PRT_CFG_RATE n) / 5

/-- A measurement of FCK ends (R245). -/
def freqCheck (s : State) (n khz : Nat) : State :=
  let st := rxState s n
  if !rxEn s n || !rxClk s n || (st ≠ pCLOCK && st ≠ pTEST) then s
  else
    let s := if n = 8 then s else wr s F.PRT_FCK_FREQ_KHZ n khz
    let f := fckHalfKhz s n
    let ok := decide (99 * f ≤ 200 * khz) && decide (200 * khz ≤ 101 * f)
    let s := setPrt s n { prtAt s n with freqOk := ok }
    if !ok then rxEvt s n 3
    else if st = pCLOCK && (prtAt s n).mult then setRxState s n (afterMult s n) else s

def execPrtFreqCheck (n khz : Nat) (s : State) : Host.Outcome State Fault Refusal := onBlock (rxBit n) n 9 s fun s => freqCheck s n khz

/-- The clock multiplier locks. In a port that was past this stage it has lost lock in a gap of FCK and locks again: the
relays that source the port stop and restart (R246, R249, R271). -/
def multLock (s : State) (n : Nat) : State :=
  let st := rxState s n
  if !rxEn s n || !rxClk s n || !(prtAt s n).freqOk || st = pNOCLOCK || st = pDEEP then s
  else
    let s := relaysSync (setPrt s n { prtAt s n with mult := false })
    let s := relaysSync (setPrt s n { prtAt s n with mult := true })
    if st = pCLOCK then setRxState s n (afterMult s n) else s

def execPrtMultLock (n : Nat) (s : State) : Host.Outcome State Fault Refusal := onBlock (rxBit n) n 9 s fun s => multLock s n

def phaseAuto (s : State) (n : Nat) : Bool := rxGet s n F.PRT_EQ_CFG_PHASE_AUTO F.TWN_RX_CFG_PHASE_AUTO ≠ 0
def eqAuto (s : State) (n : Nat) : Bool := rxGet s n F.PRT_EQ_CFG_AUTO F.TWN_RX_CFG_AUTO ≠ 0

/-- The phase interpolators are centred: with PHASE_AUTO the step that each lane takes is a free value; with AUTO = 0 there
is no CTLE sweep; with MB_REQ_EN the uplink asks for a marker burst (R246, R255, R256). -/
def phaseCentred (s : State) (n : Nat) : State :=
  if !bringingUp s n || rxState s n ≠ pEQUALISE then s
  else
    let s := setPrt s n { prtAt s n with centred := true }
    let s := if phaseAuto s n then (usedLanes s n).foldl (fun s j =>
        let (v, s) := takeFree s 6
        laneSet s n j F.PRT_LANE_EQ_PHASE F.TWN_RX_EQ_PHASE v) s
      else s
    let s := burstRequest s n
    if eqAuto s n then s else setRxState s n pLOCK

def execPrtPhaseCentred (n : Nat) (s : State) : Host.Outcome State Fault Refusal := onBlock (rxBit n) n 9 s fun s => phaseCentred s n

/-- Of the FOMs that a sweep measured at codes 0 to 24, the code with the highest, the lowest such code on a tie (R255). -/
def bestCode (foms : List Nat) : Nat :=
  (List.range 25).foldl (fun b c => if foms.getD b 0 < foms.getD c 0 then c else b) 0

/-- The CTLE sweep ends: `foms` holds what each physical lane measured at the 25 codes (R254, R255). -/
def ctleDone (s : State) (n : Nat) (foms : List (List Nat)) : State :=
  if !bringingUp s n || rxState s n ≠ pEQUALISE || !(prtAt s n).centred then s
  else
    let s := (usedLanes s n).foldl (fun s j =>
      laneSet s n j F.PRT_LANE_EQ_CTLE F.TWN_RX_EQ_CTLE (bestCode (foms.getD j []))) s
    setRxState (setPrt s n { prtAt s n with swept := true }) n pLOCK

def execCtleSweepDone (n : Nat) (foms : List (List Nat)) (s : State) : Host.Outcome State Fault Refusal :=
  onBlock (rxBit n) n 9 s fun s => ctleDone s n foms

/-- Physical lane j locks on the units it has sampled; with the last lane the port enters DESKEW (R246). -/
def laneLock (s : State) (n j : Nat) (units : List Nat) : State :=
  if !bringingUp s n || rxState s n ≠ pLOCK || !(usedLanes s n).contains j
      || !givesLock (rxGen s n) (units.map (laneUnit s n j)) then s
  else
    let s := setLaneLock s n j true
    if (usedLanes s n).all (laneLocked s n) then setRxState s n pDESKEW else s

def execLaneLock (n j : Nat) (units : List Nat) (s : State) : Host.Outcome State Fault Refusal :=
  onBlock (rxBit n) n 9 s fun s => laneLock s n j units

/-- Two consecutive marker columns have agreed (R246). -/
def deskew (s : State) (n : Nat) : State :=
  if bringingUp s n && rxState s n == pDESKEW && decide (2 ≤ (prtAt s n).agree)
  then setPrt s n { prtAt s n with deskewed := true } else s

def execPrtDeskew (n : Nat) (s : State) : Host.Outcome State Fault Refusal := onBlock (rxBit n) n 9 s fun s => deskew s n

/-- A retry of the bring-up, with its event (R251). -/
def retry (s : State) (n evt : Nat) : State :=
  restartMult (if n = 8 then s else bump (prtEvt s n evt) F.PRT_RETRIES_COUNT n) n

/-- The marker fields are judged after deskew: UP, or a retry (R246, R251). -/
def linkUp (s : State) (n : Nat) : State :=
  let k := prtAt s n
  if !bringingUp s n || rxState s n ≠ pDESKEW || !k.deskewed then s
  else if !k.markerOk then retry s n 5
  else
    let s := setRxUp (setRxState (setPrt s n { k with missing := 0, skewLost := false }) n pUP) n 1
    if n = 8 then twnLinkUp s
    else
      let s := wr (bump (prtEvt s n 0) F.PRT_LINKS_COUNT n) F.PRT_LINKUP_NS_NS n (s.ns - k.t0)
      fireProducer s (48 + 2 * n)

def execLinkUp (n : Nat) (s : State) : Host.Outcome State Fault Refusal := onBlock (rxBit n) n 9 s fun s => linkUp s n

/-- A bring-up stage exceeds its time; markers that do not match are the cause where the lanes are deskewed (R251). -/
def stageTimeout (s : State) (n : Nat) : State :=
  let st := rxState s n
  let k := prtAt s n
  if !bringingUp s n || st = pNOCLOCK || st = pUP || (st = pCLOCK && !k.freqOk) then s
  else retry s n (if k.deskewed && !k.markerOk then 5 else 4)

def execStageTimeout (n : Nat) (s : State) : Host.Outcome State Fault Refusal := onBlock (rxBit n) n 9 s fun s => stageTimeout s n

/-! ### Markers (R243, R247) -/

/-- A marker of 8 bytes passes its CRC. -/
def markerGood (m : List Nat) : Bool := m.length == 8 && m.headD 0 == 0x4B && crc8 (m.take 7) == m.getD 7 0

/-- The fields of a marker on logical lane i match the port's configuration (R243, R246). -/
def markerMatches (s : State) (n i : Nat) (m : List Nat) : Bool :=
  let b := m.getD 1 0
  let gen := if n = 8 then 1 else rd s F.PRT_CFG_GEN n
  bitsOf b 0 2 == i && bitsOf b 2 2 == rxLanes s n - 1 && bitsOf b 4 1 == gen
    && (n == 8 || m.getD 4 0 == rd s F.PRT_CFG_RATE n)

/-- A marker column: for each logical lane its marker, or none where the lane lacks one. A marker that fails its CRC is
ignored, and its lane lacks it (R243, R247). -/
def markerColumn (s : State) (n : Nat) (mk : List (List Nat)) : State :=
  let st := rxState s n
  if !bringingUp s n || (st ≠ pDESKEW && st ≠ pUP) then s
  else
    let ls := List.range (rxLanes s n)
    let at' := fun i => mk.getD i []
    let s := ls.foldl (fun s i =>
      if (at' i).isEmpty || markerGood (at' i) then s
      else laneBump s n (physLane s n i) F.PRT_LANE_MARKER_ERR_COUNT F.TWN_RX_MARKER_ERR_COUNT) s
    let good := ls.filter fun i => markerGood (at' i)
    let s := if n = 8 then s else good.foldl (fun s i =>
      wr (wr s F.PRT_STATUS_START_MARKERS n (bitsOf ((at' i).getD 1 0) 5 1)) F.PRT_STATUS_PEER_ID n ((at' i).getD 5 0)) s
    let seqs := (good.map fun i => leField (at' i) 2 2).eraseDups
    let all := good.length == ls.length
    let k := prtAt s n
    let agrees := all && seqs.length == 1
    let missing := (ls.filter fun i => !good.contains i).foldl (fun m i => m + 2 ^ i) 0
    setPrt s n { k with
      agree := if agrees then k.agree + 1 else 0, seq := if agrees then seqs.head? else k.seq,
      markerOk := if all then ls.all fun i => markerMatches s n i (at' i) else k.markerOk,
      missing := missing, skewLost := k.skewLost || decide (missing &&& k.missing ≠ 0) || decide (2 ≤ seqs.length) }

/-- A unit in error on a lane that holds lock: kind 0 CODE_ERR, 1 CTRL_ERR (R239, R240, R242, R629). -/
def rxError (s : State) (n j kind : Nat) : State :=
  let st := rxState s n
  if !rxEn s n || !laneLocked s n j || st = pHOLD || st = pDEEP then s
  else if kind = 0 then laneBump s n j F.PRT_LANE_CODE_ERR_COUNT F.TWN_RX_CODE_ERR_COUNT
  else laneBump s n j F.PRT_LANE_CTRL_ERR_COUNT F.TWN_RX_CTRL_ERR_COUNT

/-- The errors of columns, given by logical lane. -/
def rxErrors (s : State) (n : Nat) (errs : List (Nat × Nat)) : State :=
  errs.foldl (fun s e => rxError s n (physLane s n e.1) e.2) s

/-- The logical lane of physical lane j. -/
def logLane (s : State) (n j : Nat) : Option Nat := (List.range (rxLanes s n)).find? fun i => physLane s n i == j

/-- Physical lane j samples a unit after the unit `prev` (R238 to R240, R629). Relays forward it (R270). -/
def rxUnit (s : State) (n j prev unit : Nat) : State :=
  match logLane s n j with
  | none => s
  | some i =>
    let w := laneUnit s n j unit
    let s := relayForward s n [(i, w)]
    match unitOf (rxGen s n) (laneUnit s n j prev) w with
    | .bad kind _ => rxError s n j kind
    | _ => s

def execRxControlError (n j prev unit : Nat) (s : State) : Host.Outcome State Fault Refusal :=
  onBlock (rxBit n) n 9 s fun s => rxUnit s n j prev unit

/-- The marker of a logical lane in columns that begin with its marker column, or none: in RLB a block of type 0x4B, in RLA
K28.1 with the 7 data code groups after it (R239, R240, R243). -/
def markerIn (us : List RxUnit) : List Nat :=
  match us with
  | .marker bs :: _ => bs
  | .markK :: rest => 0x4B :: (rest.take 7).flatMap fun u => match u with
    | .data bs => bs
    | _ => []
  | _ => []

/-- The markers of the logical lanes. -/
def markersOf (s : State) (n : Nat) (cols : List (List Nat)) : List (List Nat) :=
  let us := columnsOf s n cols
  (List.range (rxLanes s n)).map fun i => markerIn (us.map fun c => c.getD i .idle)

/-- The columns that a port samples: those at its pins, or those of a relay in IDLE_LINE that feeds it through a loop (R261). -/
def sampled (s : State) (n : Nat) (cols : List (List Nat)) : List (List Nat) :=
  match loopRelay s n with
  | some k => if rd s F.RLY_CFG_SRC k = 2 then lineMarkerCols s k else cols
  | none => cols

/-- What running relays forward of the columns. -/
def forwardCols (s : State) (n : Nat) (cols : List (List Nat)) : State :=
  relayForward s n (cols.tail.flatMap fun c => (List.range (rxLanes s n)).zip (columnOf s n c))

/-- A marker column is sampled: the errors of its units count, relays forward it, and its markers are judged. -/
def markerArrives (s : State) (n : Nat) (cols : List (List Nat)) : State :=
  let cols := sampled s n cols
  let errs := (columnsOf s n cols).flatMap columnErrs
  markerColumn (rxErrors (forwardCols s n cols) n errs) n (markersOf s n cols)

def execMarkerColumn (n : Nat) (cols : List (List Nat)) (s : State) : Host.Outcome State Fault Refusal :=
  onBlock (rxBit n) n 9 s fun s => markerArrives s n cols

/-! ### Loss (R247 to R249) -/

/-- A lane breaks its lock rule: the link goes down, and a port in DESKEW waits for the lock and for fresh markers (R246 to
R248). -/
def laneLost (s : State) (n j : Nat) : State :=
  let st := rxState s n
  if !rxEn s n || !laneLocked s n j || st = pHOLD || st = pDEEP then s
  else
    let s := laneBump (setLaneLock s n j false) n j F.PRT_LANE_LOCK_LOSS_COUNT F.TWN_RX_LOCK_LOSS_COUNT
    if rxUp s n then linkLost s n
    else if st = pDESKEW then
      setRxState (setPrt s n { prtAt s n with
        agree := 0, seq := none, deskewed := false, markerOk := false, missing := 0, skewLost := false }) n pLOCK
    else s

/-- The units that physical lane j has sampled show the loss, by the rule of their generation (R247). -/
def laneJudge (s : State) (n j : Nat) (units : List Nat) : State :=
  if breaksLock (rxGen s n) (units.map (laneUnit s n j)) then laneLost s n j else s

def execLaneLockLost (n j : Nat) (units : List Nat) (s : State) : Host.Outcome State Fault Refusal :=
  onBlock (rxBit n) n 9 s fun s => if j < 4 then laneJudge s n j units else s

/-- Deskew is lost: the marker columns have shown it (R247, R248). -/
def deskewLost (s : State) (n : Nat) : State :=
  if rxUp s n && rxState s n == pUP && (prtAt s n).skewLost then linkLost (rxEvt s n 6) n else s

def execDeskewLost (n : Nat) (s : State) : Host.Outcome State Fault Refusal := onBlock (rxBit n) n 9 s fun s => deskewLost s n

/-- FCK has been absent for 1 µs (R249). -/
def clkLost (s : State) (n : Nat) : State :=
  if !rxEn s n || !rxClk s n then s
  else
    let s := setRxClk s n 0
    let s := if n = 8 then s else bump (prtEvt s n 2) F.PRT_CLK_LOSSES_COUNT n
    let st := rxState s n
    if st = pDEEP then s
    else
      let s := linkDown s n (if st = pTEST ∨ st = pSELFTEST then st else pNOCLOCK)
      let s := dropLanes s n
      relaysSync (setPrt s n { prtAt s n with mult := false, freqOk := false })

def execClkLost (n : Nat) (s : State) : Host.Outcome State Fault Refusal := onBlock (rxBit n) n 9 s fun s => clkLost s n

/-- PRT_CMD.RESTART (R253). -/
def portRestart (s : State) (n : Nat) : State :=
  let st := rxState s n
  if !rxEn s n || st = pTEST || st = pSELFTEST then s
  else relaysSync (awaitClock (setPrt (linkDown s n pCLOCK) n { prtAt s n with entry := none, exit := none }) n)

def execRestart (n : Nat) (s : State) : Host.Outcome State Fault Refusal := onBlock (rxBit n) n 8 s fun s => portRestart s n

/-! ### Enabling (R246, R248, R259) -/

/-- PRT_CFG.EN is set, or the twin's lane is enabled (R246). -/
def rxEnabled (s : State) (n : Nat) : State :=
  let k := prtAt s n
  let s := awaitClock (setPrt s n { Prt.init with measured := k.measured, checkers := k.checkers }) n
  if prbsOn s n then setRxState s n pTEST else s

/-- PRT_CFG.EN is cleared, or the twin's lane is disabled (R248, R271, R138). -/
def rxDisabled (s : State) (n : Nat) : State :=
  let s := dropLanes (setRxClk (linkDown s n pOFF) n 0) n
  let k := prtAt s n
  let s := relaysSync (setPrt s n { Prt.init with measured := k.measured, checkers := k.checkers })
  if n = 8 then s else dropUplink s n

/-- A port enters TEST: LINK_UP clears, and no entry to HOLD or DEEP waits any longer (R259). -/
def enterTest (s : State) (n : Nat) : State :=
  let up := rxUp s n
  let s := setPrt s n { prtAt s n with entry := none, exit := none }
  let s := setRxUp (setRxState s n pTEST) n 0
  if n = 8 then (if up then twnLinkDown s else s) else wr s F.PRT_STATUS_ENTRY_PENDING n 0

/-- A checker has been enabled or disabled: the port enters TEST or leaves it (R258, R259). -/
def prbsChanged (s : State) (n : Nat) : State :=
  if !rxEn s n then s
  else if prbsOn s n then (if rxState s n = pSELFTEST then s else relaysSync (enterTest s n))
  else if rxState s n ≠ pTEST then s
  else if rxClk s n && (prtAt s n).mult then restartMult (setPrt s n { prtAt s n with t0 := s.ns }) n
  else awaitClock s n

/-! ### PRBS checkers (R258) -/

def checkerOn (s : State) (n j : Nat) : Bool := laneGet s n j F.PRT_LANE_PRBS_CFG_EN F.TWN_RX_PRBS_CFG_EN ≠ 0

def checkerAt (s : State) (n j : Nat) : Checker := sget (prtAt s n).checkers Checker.init j
def setChecker (s : State) (n j : Nat) (k : Checker) : State :=
  setPrt s n { prtAt s n with checkers := sset (prtAt s n).checkers Checker.init j k }

/-- A checker begins anew: EN or SEL has changed. -/
def checkerReset (s : State) (n j : Nat) : State :=
  laneSet (setChecker s n j Checker.init) n j F.PRT_LANE_PRBS_CFG_LOCKED F.TWN_RX_PRBS_CFG_LOCKED 0

/-- Physical lane j compares a run of raw bits, after INVERT, before any decoding: LOCKED follows, and what it compared while
LOCKED counts. The checker of a lane that is not in use, or that samples nothing, holds (R236, R258). -/
def prbsBits (s : State) (n j : Nat) (bits : List Bool) : State :=
  if !rxEn s n || !checkerOn s n j || !(prtAt s n).mult || !(usedLanes s n).contains j then s
  else
    let sel := laneGet s n j F.PRT_LANE_PRBS_CFG_SEL F.TWN_RX_PRBS_CFG_SEL
    let r := (checkerAt s n j).feed sel (bits.map (· ^^ laneInvert s n j))
    let s := setChecker s n j r.checker
    let s := laneSet s n j F.PRT_LANE_PRBS_CFG_LOCKED F.TWN_RX_PRBS_CFG_LOCKED r.checker.locked.toNat
    let s := laneSet s n j F.PRT_LANE_PRBS_BITS_COUNT F.TWN_RX_PRBS_BITS_COUNT
      (min (laneGet s n j F.PRT_LANE_PRBS_BITS_COUNT F.TWN_RX_PRBS_BITS_COUNT + r.bits) (2 ^ 64 - 1))
    let s := laneSet s n j F.PRT_LANE_PRBS_ERR_COUNT F.TWN_RX_PRBS_ERR_COUNT
      (min (laneGet s n j F.PRT_LANE_PRBS_ERR_COUNT F.TWN_RX_PRBS_ERR_COUNT + r.errs) (2 ^ 48 - 1))
    if r.lost then rxEvt s n 12 else s

def execPrbsLock (n j : Nat) (bits : List Bool) (s : State) : Host.Outcome State Fault Refusal :=
  onBlock (rxBit n) n 9 s fun s => if j < 4 then prbsBits s n j bits else s

def execPrbsLockLost (n j : Nat) (bits : List Bool) (s : State) : Host.Outcome State Fault Refusal :=
  onBlock (rxBit n) n 9 s fun s => if j < 4 then prbsBits s n j bits else s

def prbsClr (s : State) (n j : Nat) : State :=
  laneSet (laneSet s n j F.PRT_LANE_PRBS_BITS_COUNT F.TWN_RX_PRBS_BITS_COUNT 0) n j
    F.PRT_LANE_PRBS_ERR_COUNT F.TWN_RX_PRBS_ERR_COUNT 0

def execPrbsClr (n j : Nat) (s : State) : Host.Outcome State Fault Refusal :=
  onBlock (rxBit n) n 9 s fun s => if j < 4 then prbsClr s n j else s

/-! ### Equalisation in service (R254, R255, R257) -/

/-- A lane measures its FOM while the link is up: DIP keeps 255 minus the lowest (R254, R257). -/
def fomUpdate (s : State) (n j fom : Nat) : State :=
  if !rxUp s n || rxState s n ≠ pUP || !(usedLanes s n).contains j then s
  else
    let fom := fom % 256
    let s := setPrt s n { prtAt s n with measured := (prtAt s n).measured ||| 2 ^ j }
    let s := laneSet s n j F.PRT_LANE_FOM_FOM F.TWN_RX_FOM_FOM fom
    let s := laneSet s n j F.PRT_LANE_FOM_DIP F.TWN_RX_FOM_DIP
      (max (laneGet s n j F.PRT_LANE_FOM_DIP F.TWN_RX_FOM_DIP) (255 - fom))
    if fom < rxGet s n F.PRT_EQ_CFG_FOM_ALARM F.TWN_RX_CFG_FOM_ALARM then rxEvt s n 7 else s

def execFomUpdate (n j fom : Nat) (s : State) : Host.Outcome State Fault Refusal := onBlock (rxBit n) n 9 s fun s => fomUpdate s n j fom

/-- What DIP restarts from at its read: 255 minus the present FOM once one has been measured (R257, R622). -/
def dipRestart (s : State) (n j : Nat) : Nat :=
  if (prtAt s n).measured.testBit j then 255 - laneGet s n j F.PRT_LANE_FOM_FOM F.TWN_RX_FOM_FOM else 0

/-- The data lanes of the port sample, with their phase centred. -/
def lanesSample (s : State) (n : Nat) : Bool :=
  rxEn s n && (prtAt s n).mult && rxState s n ≠ pHOLD && ((prtAt s n).centred || rxState s n = pTEST || rxState s n = pSELFTEST)

/-- The interpolator moves by at most one step; which way is a free value (R255). -/
def phaseStep (s : State) (n j : Nat) : State :=
  if !lanesSample s n || !phaseAuto s n || !(usedLanes s n).contains j then s
  else
    let (v, s) := takeFree s 16
    let p := laneGet s n j F.PRT_LANE_EQ_PHASE F.TWN_RX_EQ_PHASE
    laneSet s n j F.PRT_LANE_EQ_PHASE F.TWN_RX_EQ_PHASE ((p + 63 + v % 3) % 64)

def execPhaseTrackStep (n j : Nat) (s : State) : Host.Outcome State Fault Refusal := onBlock (rxBit n) n 9 s fun s => phaseStep s n j

/-! ### HOLD and DEEP (R263 to R266) -/

/-- FORCE: the port enters by `enter`, in place of an entry that waited, and its open frames close TRUNCATED (R265). -/
def forceEnter (s : State) (n : Nat) (enter : State → Nat → State) : State :=
  if wokeNow s n then s
  else
    let s := enter (wr (setPrt s n { prtAt s n with entry := none }) F.PRT_STATUS_ENTRY_PENDING n 0) n
    cutFrames s (fun f => f.port == n) s.tb

/-- PRT_CMD.HOLD_ENTER (R265). -/
def holdEnter (s : State) (n : Nat) (force : Bool) : State :=
  if !rxEn s n || rxState s n ≠ pUP || relayed s n then prtEvt s n 11
  else if force then forceEnter s n enterHold
  else if portOpen s n then wr (setPrt s n { prtAt s n with entry := some 0 }) F.PRT_STATUS_ENTRY_PENDING n 1
  else enterHold s n

def execHoldEnter (n : Nat) (force : Bool) (s : State) : Host.Outcome State Fault Refusal :=
  onBlock (rxBit n) n 8 s fun s => holdEnter s n force

/-- PRT_CMD.DEEP_ENTER (R264, R265). -/
def deepEnter (s : State) (n : Nat) (force : Bool) : State :=
  let st := rxState s n
  if !rxEn s n || (st ≠ pUP && st ≠ pHOLD) || relayed s n then prtEvt s n 11
  else if force then forceEnter s n enterDeep
  else if portOpen s n then wr (setPrt s n { prtAt s n with entry := some 1 }) F.PRT_STATUS_ENTRY_PENDING n 1
  else enterDeep s n

def execDeepEnter (n : Nat) (force : Bool) (s : State) : Host.Outcome State Fault Refusal :=
  onBlock (rxBit n) n 8 s fun s => deepEnter s n force

/-- PRT_CMD.HOLD_EXIT has the effect of a wake (R266). -/
def execHoldExit (n : Nat) (s : State) : Host.Outcome State Fault Refusal := onBlock (rxBit n) n 8 s fun s => wakePort s n

/-- The HOLD exit completes (R263, R271). -/
def holdExited (s : State) (n : Nat) : State :=
  let k := prtAt s n
  if rd s F.PRT_STATUS_STATE n = pHOLD ∧ k.exit = some 0 then
    relaysSync (prtEvt (wr (setPrt s n { k with exit := none }) F.PRT_STATUS_STATE n pUP) n 9)
  else s

def execHoldExited (n : Nat) (s : State) : Host.Outcome State Fault Refusal := onBlock (rxBit n) n 8 s fun s => holdExited s n

/-- PRT_CMD.DEEP_EXIT (R264). -/
def deepExit (s : State) (n : Nat) : State :=
  if rd s F.PRT_STATUS_STATE n = pDEEP then setPrt s n { prtAt s n with exit := some 1, exitAt := s.ns } else s

def execDeepExit (n : Nat) (s : State) : Host.Outcome State Fault Refusal := onBlock (rxBit n) n 8 s fun s => deepExit s n

/-- The DEEP exit completes, and a fresh bring-up starts at the activity detector (R264). -/
def deepExited (s : State) (n : Nat) : State :=
  let k := prtAt s n
  if rd s F.PRT_STATUS_STATE n = pDEEP ∧ k.exit = some 1 then
    relaysSync (awaitClock (prtEvt (setPrt s n { k with exit := none }) n 10) n)
  else s

def execDeepExited (n : Nat) (s : State) : Host.Outcome State Fault Refusal := onBlock (rxBit n) n 8 s fun s => deepExited s n

/-- WAKE_ON_TRIGGER: a trigger packet of the port's queue is due within 200 ns (R266). -/
def triggerWake (s : State) (n : Nat) : State :=
  if isSet s F.PRT_PWR_CFG_WAKE_ON_TRIGGER n && (pktPortAt s n).trigQ.any fun p => p.time ≤ s.tb + 200
  then wakePort s n else s

def execPrtTriggerWake (n : Nat) (s : State) : Host.Outcome State Fault Refusal := onBlock (rxBit n) n 8 s fun s => triggerWake s n

/-- An event of a channel reaches PRT_WAKE (consumer 50, R266). -/
def execPrtWakeEvent (ch : Nat) (s : State) : Host.Outcome State Fault Refusal :=
  onUnit ch 48 s fun s => beaconArrives s 50 (· == ch) (fun _ => false) fun ch s =>
    (List.range 8).foldl (fun s n =>
      if isSet s F.PRT_PWR_CFG_WAKE_BCN_EN n && rd s F.PRT_PWR_CFG_WAKE_BCN_CH n == ch then wakePort s n else s) s

/-! ### Self-test (R262) -/

/-- PRT_CMD.SELFTEST. -/
def selftest (s : State) (n : Nat) : State :=
  if !rxEn s n || isSet s F.RLY_CFG_EN (n % 4) || rxState s n = pSELFTEST then wr s F.PRT_SELFTEST_REFUSED n 1
  else
    let s := wr (wr (wr s F.PRT_SELFTEST_DONE n 0) F.PRT_SELFTEST_PASS n 0) F.PRT_SELFTEST_REFUSED n 0
    let s := dropLanes (linkDown s n pSELFTEST) n
    relaysSync (wr s F.RLY_CFG_EN (n % 4) 1)

def execSelftest (n : Nat) (s : State) : Host.Outcome State Fault Refusal := onBlock (rxBit n) n 8 s fun s => selftest s n

/-- The self-test ends with the logical lanes of `pass` (R262). -/
def selftestDone (s : State) (n pass : Nat) : State :=
  if rd s F.PRT_STATUS_STATE n ≠ pSELFTEST then s
  else
    let s := wr (wr s F.PRT_SELFTEST_PASS n (pass % 2 ^ rxLanes s n)) F.PRT_SELFTEST_DONE n 1
    let s := prtEvt s n 13
    let s := setPrt (setRxClk (wr s F.RLY_CFG_EN (n % 4) 0) n 0) n { prtAt s n with mult := false }
    let s := awaitClock s n
    relaysSync (if prbsOn s n then setRxState s n pTEST else s)

def execSelftestDone (n pass : Nat) (s : State) : Host.Outcome State Fault Refusal := onBlock (rxBit n) n 8 s fun s => selftestDone s n pass

/-! ### Injection and counters (R260) -/

/-- One flipped bit of an uplink, of a relay on each lane that injection selects, and of the twin's lane (R260). -/
def ulFlip (s : State) (n : Nat) : State := lineFlip (bump s F.PRT_UL_INJ_CNT_COUNT n) (ulLine n) 0
def rlyFlip (s : State) (k : Nat) : State :=
  let ls := (List.range 4).filter fun j => hasBit s F.RLY_INJ_LANES k j
  ls.foldl (fun s j => lineFlip s k j) (bumpBy s F.RLY_INJ_CNT_COUNT k ls.length)
def twinFlip (s : State) : State := lineFlip (bump s F.TWN_TX_INJ_CNT_COUNT) twinLine 0

/-- PRT_UL_CFG.INJ_ONE. -/
def ulInjOne (s : State) (n : Nat) : State := if ulRunning s n then ulFlip s n else s

def execUlInjOne (n : Nat) (s : State) : Host.Outcome State Fault Refusal := onBlock (rxBit n) n 8 s fun s => ulInjOne s n

/-- RLY_CMD.INJ_ONE: refused while the relay's source is a port. -/
def rlyInjOne (s : State) (k : Nat) : State :=
  if rd s F.RLY_CFG_SRC k = 0 then setBit s F.RLY_EVT_EVT k 2
  else if rd s F.RLY_STATUS_STATE k = 2 then rlyFlip s k else s

def execRlyInjOne (k : Nat) (s : State) : Host.Outcome State Fault Refusal := onBlock 11 k 4 s fun s => rlyInjOne s k

def expOn (e : Nat) : Bool := 4 ≤ e && e ≤ 40

/-- Periodic injection flips one bit at a generator: 0 to 3 the relays, 4 to 11 the uplinks, 12 the twin's lane; a relay
flips it on each selected lane. -/
def injPeriodic (s : State) (k : Nat) : State :=
  if k < 4 then
    if expOn (rd s F.RLY_INJ_EXP k) && rd s F.RLY_CFG_SRC k ≠ 0 && rd s F.RLY_STATUS_STATE k == 2
    then rlyFlip s k else s
  else if k < 12 then
    if expOn (rd s F.PRT_UL_CFG_INJ_EXP (k - 4)) && ulRunning s (k - 4) then ulFlip s (k - 4) else s
  else if expOn (rd s F.TWN_TX_CFG_INJ_EXP) && domUp s 15 then twinFlip s else s

def execInjPeriodic (k : Nat) (s : State) : Host.Outcome State Fault Refusal := 
  onUnit k 13 s fun s => inBlock (if k < 4 then 11 else if k < 12 then 17 + k else 5) s fun s => injPeriodic s k

def execRlyClrCounts (k : Nat) (s : State) : Host.Outcome State Fault Refusal :=
  onBlock 11 k 4 s fun s => clearAll s [F.RLY_INJ_CNT_COUNT, F.RLY_STOPS_COUNT] k

/-- PRT_CMD.CLR_COUNTS: every SAT counter of the port and its lanes (R17). -/
def prtClear (s : State) (n : Nat) : State :=
  let s := clearAll s [F.PRT_LINKS_COUNT, F.PRT_DOWNS_COUNT, F.PRT_RETRIES_COUNT, F.PRT_CLK_LOSSES_COUNT,
    F.PRT_UL_PREEMPT_COUNT, F.PRT_UL_INJ_CNT_COUNT] n
  (List.range 4).foldl (fun s j => clearAll s [F.PRT_LANE_CODE_ERR_COUNT, F.PRT_LANE_CTRL_ERR_COUNT,
    F.PRT_LANE_MARKER_ERR_COUNT, F.PRT_LANE_LOCK_LOSS_COUNT, F.PRT_LANE_PRBS_ERR_COUNT] (4 * n + j)) s

def execPrtClrCounts (n : Nat) (s : State) : Host.Outcome State Fault Refusal := onBlock (rxBit n) n 8 s fun s => prtClear s n

end Sys2Proof.Machine
end

