-- ==== Sys2Proof/Machine/PktRx.lean ====
section
/-! DEFINITION. How the packet layer takes packets from the columns that a port samples (spec/06 R241, R242; spec/07 R275 to
R279): a packet command carries the columns of one packet as the data pins bring them, by physical lane, after one column
that only fills the descramblers (log 89). -/
namespace Sys2Proof.Machine

/-- What columns hold for the packet layer: nothing whole, a packet, or a packet that a further SOP column cut. -/
inductive Arrival where
  | none
  | packet (bytes : List (Option Nat))
  | cut (bytes : List (Option Nat))
  deriving DecidableEq, Repr

/-- The bytes of a header by the form of port n (R275). -/
def hdrBytes (s : State) (n : Nat) : Nat := if isSet s F.PKT_PORT_CFG_HDR_FORM n then 4 else 8

/-- The bytes with 0 in place of those that the specification leaves open. -/
def known (bs : List (Option Nat)) : List Nat := bs.map (·.getD 0)

/-- The header of a packet, as a number. -/
def hdrOf (s : State) (n : Nat) (bs : List Nat) : Nat := ofBytes (bs.take (hdrBytes s n))

/-- The bytes are a whole packet: its header, and after the header of a long packet WC payload bytes and the CRC. What follows
a header that fails is discarded to the next SOP column (R275, R278, R279). -/
def packetWhole (s : State) (n : Nat) (bs : List Nat) : Bool :=
  decide (hdrBytes s n ≤ bs.length) && match decodeHdr s n (hdrOf s n bs) with
    | some p => p.dt < 0x10 || decide (hdrBytes s n + p.wc + 2 ≤ bs.length)
    | .none => true

/-- What a port makes of columns (R241, R242). -/
def arrival (s : State) (n : Nat) (c : Columns) : Arrival :=
  match c.cut with
  | some bs => if packetWhole s n (known bs) then .packet bs else .cut bs
  | .none => match c.bytes with
    | some bs => if packetWhole s n (known bs) then .packet bs else .none
    | .none => .none

/-- The columns as a receiver takes them in. -/
def takeColumns (s : State) (n : Nat) (cols : List (List Nat)) : Columns :=
  (columnsOf s n cols).foldl (Columns.take (rxGen s n)) Columns.init

/-- The bytes that the specification leaves open are free values. -/
def fillBytes (s : State) : List (Option Nat) → List Nat × State
  | [] => ([], s)
  | some b :: rest => let r := fillBytes s rest; (b :: r.1, r.2)
  | .none :: rest =>
    let (v, s) := takeFree s 8
    let r := fillBytes s rest
    (v :: r.1, r.2)

/-- The virtual channel of a packet that was cut; none where its header fails or was not received whole (R293). -/
def cutVc (s : State) (n : Nat) (bs : List Nat) : Option Nat :=
  if bs.length < hdrBytes s n then .none else (decodeHdr s n (hdrOf s n bs)).map (·.vc)

/-- Columns reach port n: the errors of their units count, relays forward them, and where the port delivers packets, `act` takes
the header and what follows it of a whole packet; a packet that is cut aborts (R239 to R242, R270, R293). A port that a relay
in PRBS or IDLE_LINE feeds through a loop ignores its pins (R261). -/
def columnsArrive (s : State) (n : Nat) (cols : List (List Nat)) (act : State → Nat → List Nat → State) : State :=
  if (loopRelay s n).any fun k => rd s F.RLY_CFG_SRC k ≠ 0 then s
  else
    let c := takeColumns s n cols
    let s := rxErrors (forwardCols s n cols) n c.errs
    match arrival s n c with
    | .none => s
    | .cut bs => sopAbort s n (cutVc s n (known bs))
    | .packet bs =>
      let (bs, s) := fillBytes s bs
      act s (hdrOf s n bs) (bs.drop (hdrBytes s n))

def execPktFs (n : Nat) (cols : List (List Nat)) (s : State) : Host.Outcome State Fault Refusal :=
  onBlock 10 n 8 s fun s => columnsArrive s n cols fun s h _ => pktFs s n h

def execPktFe (n : Nat) (cols : List (List Nat)) (s : State) : Host.Outcome State Fault Refusal :=
  onBlock 10 n 8 s fun s => columnsArrive s n cols fun s h _ => pktFe s n h

def execPktShortOther (n : Nat) (cols : List (List Nat)) (s : State) : Host.Outcome State Fault Refusal :=
  onBlock 10 n 8 s fun s => columnsArrive s n cols fun s h _ => pktShort s n h

/-- PKT_LONG; `ecc` are the link errors that ECC corrected in the line's writes (R400, R403). -/
def execPktLong (n : Nat) (cols : List (List Nat)) (ecc : List (Nat × Nat)) (s : State) : Host.Outcome State Fault Refusal :=
  onBlock 10 n 8 s fun s => columnsArrive s n cols fun s h body =>
    (memErrors (pktLong s n h body) 0x1F (ecc.filter (·.1 == 1))).2

/-- SOP_ABORT: the columns of a packet up to the SOP column that cuts it (R242). -/
def execSopAbort (n : Nat) (cols : List (List Nat)) (s : State) : Host.Outcome State Fault Refusal :=
  onBlock 10 n 8 s fun s => columnsArrive s n cols fun s _ _ => s

end Sys2Proof.Machine
end

