-- ==== Sys2Proof/Machine/Access.lean ====
section
/-! DEFINITION. Where an address lies: the blocks of BAR 0 (R45), the domains they need (R47, R48), and the register and
instance at an address (R14, R16, R20, R46). -/
namespace Sys2Proof.Machine

/-! ### Registers by address -/

/-- The register `r`, its instance and half at address `a`, where the halves of a pair lie `step` apart; none elsewhere. -/
def Reg.find (r : Reg) (step a : Nat) : Option (Nat × Bool) :=
  if a < r.off then none
  else
    let x := a - r.off
    let d := r.dims
    let i1 := if d.n1 = 1 then 0 else x / d.s1
    let x := x - i1 * d.s1
    let i2 := if d.n2 = 1 then 0 else x / d.s2
    let x := x - i2 * d.s2
    let i3 := if d.n3 = 1 then 0 else x / d.s3
    let x := x - i3 * d.s3
    if d.n1 ≤ i1 ∨ d.n2 ≤ i2 ∨ d.n3 ≤ i3 then none
    else if x = 0 then some ((i1 * d.n2 + i2) * d.n3 + i3, false)
    else if r.pair ∧ x = step then some ((i1 * d.n2 + i2) * d.n3 + i3, true)
    else none

/-- A register that an address names: its block, the register, the instance, the high half of a pair. -/
structure Hit where
  reg : Reg
  inst : Nat
  high : Bool
  deriving DecidableEq, Repr

/-- The first register of a list at address `a`. -/
def findReg (rs : List Reg) (step a : Nat) : Option Hit :=
  rs.findSome? fun r => (r.find step a).map fun p => ⟨r, p.1, p.2⟩

/-- The register block at a BAR 0 offset (R45). -/
def blockAt (a : Nat) : Option Block :=
  match a / 0x10000 with
  | 0x00 => some .glb
  | 0x01 => some .kbr
  | 0x02 => some .pwr
  | 0x03 => some .bcn
  | 0x04 => some .mbx
  | 0x05 => some .tmb
  | 0x06 => some .twn
  | 0x08 => some .enc
  | 0x09 => some .enc
  | 0x0A => some .fcg
  | 0x0B => some .trg
  | 0x0C => some .fio
  | w =>
    if 0x10 ≤ w ∧ w < 0x18 then some .prt
    else if 0x18 ≤ w ∧ w < 0x1C then some .rly
    else if 0x1C ≤ w ∧ w < 0x20 then some .pkt
    else if 0x20 ≤ w ∧ w < 0x40 then some .isp
    else if 0x40 ≤ w ∧ w < 0x60 then some .pod
    else if 0x100 ≤ w ∧ w < 0x110 then some .sq
    else if 0x120 ≤ w ∧ w < 0x130 then some .dma
    else if 0x130 ≤ w ∧ w < 0x140 then some .mem
    else if 0x140 ≤ w ∧ w < 0x144 then some .rng
    else if 0x180 ≤ w ∧ w < 0x190 then some .hif
    else none

/-- The register at a BAR 0 offset. -/
def regAt (a : Nat) : Option Hit := (blockAt a).bind fun b => findReg (blockRegs b) 4 a

/-- The register at a keeper address (R46). -/
def keeperRegAt (a : Nat) : Option Hit := findReg (blockRegs .keep) 1 a

/-- The bit of GLB_IRQ_SUM, GLB_BLK_RST and BLK_BUSY of the block at a BAR 0 offset (R37, R576). -/
def blockBit (a : Nat) : Nat :=
  match blockAt a with
  | some .kbr => 0
  | some .pwr => 1
  | some .bcn => 2
  | some .mbx => 3
  | some .tmb => 4
  | some .twn => 5
  | some .enc => 6
  | some .fcg => 7
  | some .trg => 8
  | some .fio => 9
  | some .pkt => 10
  | some .rly => 11
  | some .isp => 12 + (a - 0x200000) / 0x100000
  | some .pod => 14
  | some .sq => 15
  | some .dma => 16
  | some .mem => 17
  | some .rng => 18
  | some .hif => 19
  | some .prt => 21 + (a - 0x100000) / 0x10000
  | some .glb => 20
  | some .keep => 20
  | none => if 0x800000 ≤ a ∧ a < 0x1000000 then 14 else if 0x1100000 ≤ a ∧ a < 0x1140000 then 15 else 20

/-- The domains that a BAR 0 offset needs: its block's own and, but for the blocks of R48, D22 FABRIC (R47, R48; log 9). -/
def accessDomains (a : Nat) : List Nat :=
  match blockAt a with
  | some .glb => []
  | some .kbr => []
  | some .pwr => []
  | some .bcn => []
  | some .mbx => []
  | some .tmb => [4, 22]
  | some .twn => [15, 22]
  | some .enc => [22]
  | some .fcg => [22]
  | some .trg => [22]
  | some .fio => [22]
  | some .prt => [6 + (a - 0x100000) / 0x10000 % 8, 22]
  | some .rly => [14, 22]
  | some .pkt => [22]
  | some .isp => [16 + (a - 0x200000) / 0x100000 % 2, 22]
  | some .pod =>
    let w := (a - 0x400000) / 0x40000
    if a % 0x40000 < 0x10000 then [podDomain w, 22] else [22]
  | some .sq => [21, 22]
  | some .dma => [22]
  | some .mem => [23, 22]
  | some .rng => [22]
  | some .hif => [5, 22]
  | some .keep => []
  | none => if 0x800000 ≤ a ∧ a < 0x1000000 then [20, 22] else if 0x1100000 ≤ a ∧ a < 0x1140000 then [21, 22] else []

/-- A register of R89: it holds an RC field, or it is a mailbox receive register. -/
def readSideEffect (a : Nat) : Bool :=
  match regAt a with
  | some h => h.reg.rid == R.MBX_DATA.rid || h.reg.fields.any fun f => f.ty == .rc
  | none => false

end Sys2Proof.Machine
end

