-- ==== Sys2Proof/Machine/Flags.lean ====
section
/-! DEFINITION. The flags of the sequencer cores (R105): Z in bit 0, N in bit 1, C in bit 2, V in bit 3, as SQ_FLAGS holds
them. -/
namespace Sys2Proof.Machine

/-- The four flags of a core. -/
structure ZNCV where
  z : Bool
  n : Bool
  c : Bool
  v : Bool
  deriving DecidableEq, Repr

/-- The flags that SQ_FLAGS bits spell. -/
def ZNCV.ofNat (x : Nat) : ZNCV := ⟨x.testBit 0, x.testBit 1, x.testBit 2, x.testBit 3⟩

/-- The SQ_FLAGS bits of the flags. -/
def ZNCV.toNat (f : ZNCV) : Nat := f.z.toNat + 2 * f.n.toNat + 4 * f.c.toNat + 8 * f.v.toNat

/-- Z and N of a result; C and V kept (and, or, xor, mul in R105). -/
def flagsZN (r : Word) (f : ZNCV) : ZNCV := { f with z := r == 0, n := r.msb }

/-- The flags of an addition (R105): C is the carry out of bit 63, V the signed overflow. -/
def flagsAdd (a b : Word) : ZNCV :=
  let r := a + b
  ⟨r == 0, r.msb, decide (2 ^ 64 ≤ a.toNat + b.toNat), a.msb == b.msb && r.msb != a.msb⟩

/-- The flags of a subtraction (R105): C is 1 when no borrow, V the signed overflow. -/
def flagsSub (a b : Word) : ZNCV :=
  let r := a - b
  ⟨r == 0, r.msb, decide (b.toNat ≤ a.toNat), a.msb != b.msb && r.msb != a.msb⟩

/-- The flags of a shift with result `r` (R105): C is the last bit shifted out, kept when the count is 0. -/
def flagsShift (r : Word) (count : Nat) (last : Bool) (f : ZNCV) : ZNCV :=
  { f with z := r == 0, n := r.msb, c := if count = 0 then f.c else last }

/-- A condition of b.cond holds (the table after R107); 15 is no condition (R102). -/
def condHolds (cond : Nat) (f : ZNCV) : Bool :=
  match cond with
  | 0 => true
  | 1 => f.z
  | 2 => !f.z
  | 3 => f.c
  | 4 => !f.c
  | 5 => f.n
  | 6 => !f.n
  | 7 => f.v
  | 8 => !f.v
  | 9 => f.c && !f.z
  | 10 => !f.c || f.z
  | 11 => f.n == f.v
  | 12 => f.n != f.v
  | 13 => !f.z && f.n == f.v
  | 14 => f.z || f.n != f.v
  | _ => false

end Sys2Proof.Machine
end

