-- ==== Sys2Proof/Machine/Operands.lean ====
section
/-! DEFINITION. The operand forms of the sequencer cores: registers, immediates, program addresses, branch targets
(R60, R61, R106, R108, R111), and the loads and stores they address, with the store buffer of a region (R90, R112). -/
namespace Sys2Proof.Machine

/-! ### Core registers -/

/-- Register vk of core c, k a field of four bits: v0 reads zero (R60). -/
def vreg (s : State) (c k : Nat) : Word :=
  if k % 16 = 0 then 0 else BitVec.ofNat 64 (rd s F.SQ_VREG_VALUE (c * 16 + k % 16))

/-- Write register vk of core c; a write to v0 is discarded (R60). -/
def setV (s : State) (c k : Nat) (w : Word) : State :=
  if k % 16 = 0 then s else wr s F.SQ_VREG_VALUE (c * 16 + k % 16) w.toNat

/-- The link register. -/
def lkReg (s : State) (c : Nat) : Word := BitVec.ofNat 64 (rd s F.SQ_LK_VALUE c)
def setLk (s : State) (c : Nat) (w : Word) : State := wr s F.SQ_LK_VALUE c w.toNat

/-- The program counter as a byte address; SQ_PC.PC holds it divided by 4. -/
def pcOf (s : State) (c : Nat) : Nat := 4 * rd s F.SQ_PC_PC c

/-- Set the program counter of core c to a byte address. -/
def setPc (s : State) (c a : Nat) : State := wr s F.SQ_PC_PC c (a / 4)

/-- Core c has ended the instruction at 0x7FFC and stands past it: SQ_PC cannot hold that address (log 11). -/
def pcPast (s : State) (c : Nat) : State :=
  let (v, s) := takeFree s 13
  wr (setCore s c { coreAt s c with past := true }) F.SQ_PC_PC c v

/-- The flags of core c. -/
def flagsOf (s : State) (c : Nat) : ZNCV := ZNCV.ofNat (rd s F.SQ_FLAGS_ZNCV c)
def setFlags (s : State) (c : Nat) (f : ZNCV) : State := wr s F.SQ_FLAGS_ZNCV c f.toNat

/-! ### Immediates (R106) -/

/-- A field of `w` bits sign-extended to a word. -/
def sext (w v : Nat) : Word := (BitVec.ofNat w v).signExtend 64

/-- A field of `w` bits zero-extended to a word. -/
def zext (w v : Nat) : Word := (BitVec.ofNat w v).setWidth 64

/-- The second operand of add, sub and mul: imm16 and imm20 sign-extended (R106). -/
def srcArith (s : State) (c : Nat) (src : Src) : Word :=
  match src with
  | .reg r => vreg s c r
  | .imm v => sext 16 v
  | .acc v => sext 20 v

/-- The second operand of and, or, xor: imm16 zero-extended (R106). -/
def srcLogic (s : State) (c : Nat) (src : Src) : Word :=
  match src with
  | .reg r => vreg s c r
  | .imm v => zext 16 v
  | .acc v => zext 20 v

/-- The count of a shift: bits 5:0 of the register or of imm16 (R106). -/
def srcCount (s : State) (c : Nat) (src : Src) : Nat :=
  match src with
  | .reg r => (vreg s c r).toNat % 64
  | .imm v => v % 64
  | .acc v => v % 64

/-! ### Addresses -/

/-- ra + imm16, sign-extended, over 64 bits (R111, R115). -/
def effAddr (s : State) (c ra imm16 : Nat) : Nat := (vreg s c ra + sext 16 imm16).toNat

/-- The target of a branch at `pc`: pc + 4 × off16 (R108); none outside program memory. -/
def branchTarget (pc off16 : Nat) : Option Nat :=
  let t := (pc : Int) + 4 * toSigned 16 off16
  if 0 ≤ t ∧ t ≤ 0x7FFC then some t.toNat else none

/-- Where a program address lies (R61). -/
inductive Place where
  | own (a : Nat)
  | shared (a : Nat)
  deriving DecidableEq, Repr

/-- The place of a program address; none outside the program address space (R61). -/
def place (a : Nat) : Option Place :=
  if a < 0x2000 then some (.own a)
  else if 0x10000 ≤ a ∧ a < 0x50000 then some (.shared (a - 0x10000))
  else none

/-- One byte at a place, as core c sees it outside a region. -/
def memByte (s : State) (c a : Nat) : Byte :=
  match place a with
  | some (.own o) => dataByte s (c % 8 * 0x2000 + o)
  | some (.shared o) => sharedByte s o
  | none => 0

/-- One byte at a program address as a load of core c reads it: the newest buffered store of the open region, else memory
(R112). -/
def loadByte (s : State) (c a : Nat) : Byte :=
  match (coreAt s c).region with
  | some r => match r.stores.find? fun e => e.1 == a with
    | some e => e.2
    | none => memByte s c a
  | none => memByte s c a

/-- `n` bytes from a program address, little-endian (R12). -/
def loadBytes (s : State) (c a n : Nat) : List Nat := (List.range n).map fun i => (loadByte s c (a + i)).toNat

/-- Write one byte at a program address of core c, in memory. -/
def storeByte (s : State) (c a : Nat) (b : Byte) : State :=
  match place a with
  | some (.own o) => dataPut s (c % 8 * 0x2000 + o) b
  | some (.shared o) => sharedPut s o b
  | none => s

/-- Write the low `n` bytes of a value at a program address: into the store buffer of an open region (R90), else into
memory. -/
def storeBytes (s : State) (c a n : Nat) (v : Nat) : State :=
  let bs := (toBytes n v).zipIdx.map fun p => (a + p.2, BitVec.ofNat 8 p.1)
  let k := coreAt s c
  match k.region with
  | some r => setCore s c { k with region := some { r with stores := bs.reverse ++ r.stores, storeCount := r.storeCount + 1 } }
  | none => bs.foldl (fun s e => storeByte s c e.1 e.2) s

end Sys2Proof.Machine
end

