-- ==== Sys2Proof/Machine/SqActions.lean ====
section
/-! DEFINITION. What other units hold for a sequencer core: the tentative actions of its region (R94), and the recipe it runs
(spec/02, R69 to R79). -/
namespace Sys2Proof.Machine

/-! ### Regions (R92, R94, R95) -/

/-- The tentative actions of core c's region are taken back (R94). -/
def squashActions (s : State) (c : Nat) : State := squashRuns (squashArms (squashDescs s c) c) c

/-- The tentative actions of core c's region become final (R92, R95). -/
def commitActions (s : State) (c : Nat) : State := commitRuns (commitDescs (commitArms s c) c) c

/-! ### Recipe cards (R68 to R72, R76) -/

/-- Where the card of core c lies in shared sequencer memory (R68). -/
def cardBase (c : Nat) : Nat := 0x3F800 + c * 0x100

/-- The bytes of the card of core c. -/
def cardBytes (s : State) (c : Nat) : List Nat := sharedBytes s (cardBase c) 256

/-- The recipe of core c writes into its card (R69). -/
def putCard (s : State) (c off n v : Nat) : State := sharedPuts s (cardBase c + off) (toBytes n v)

/-- The lowest of the first `n` bits that is set. -/
def lowest (n m : Nat) : Option Nat := (List.range n).find? m.testBit

def Recipe.u (r : Recipe) (off n : Nat) : Nat := leField r.card off n

def Recipe.autoDeliver (r : Recipe) : Bool := (r.u 2 2).testBit 0
def Recipe.stopOnFault (r : Recipe) : Bool := (r.u 2 2).testBit 1
def Recipe.ports (r : Recipe) : Nat := r.u 4 1
def Recipe.fcgs (r : Recipe) : Nat := r.u 5 1 % 16
def Recipe.encs (r : Recipe) : Nat := r.u 5 1 / 16
def Recipe.trgs (r : Recipe) : Nat := r.u 6 2
def Recipe.streams (r : Recipe) : Nat := r.u 8 8
def Recipe.cmps (r : Recipe) : Nat := r.u 0x10 2
def Recipe.pods (r : Recipe) : Nat := r.u 0x12 1
def Recipe.dmaFirst (r : Recipe) : Nat := r.u 0x13 1
def Recipe.dmaCount (r : Recipe) : Nat := r.u 0x14 1
def Recipe.frameRing (r : Recipe) : Nat := r.u 0x16 2
def Recipe.cmplRing (r : Recipe) : Nat := r.u 0x18 2
def Recipe.maxFrames (r : Recipe) : Nat := r.u 0x1C 4

def rcFREERUN : Nat := 1
def rcPOSLOCK : Nat := 2
def rcPOSLIST : Nat := 3
def rcDOUBLE : Nat := 4
def rcBURST : Nat := 5
def rcTRIAGE : Nat := 6

/-- The block of the card that a recipe's frame clock takes: its kind, FREERUN, POSLOCK or POSLIST, and how far its fields
are moved (R70, R72). -/
def Recipe.clock (r : Recipe) : Option (Nat × Nat) :=
  match r.id with
  | 1 => some (rcFREERUN, 0)
  | 2 => some (rcPOSLOCK, 0)
  | 3 => some (rcPOSLIST, 0)
  | 4 => some (if r.u 0x20 1 = 0 then rcPOSLOCK else rcPOSLIST, 0x20)
  | 5 => if r.u 0x33 1 = 1 then some (rcFREERUN, 0x20) else none
  | _ => none

/-- The frame clock of the recipe: the lowest it claims (R72). -/
def Recipe.fcg (r : Recipe) : Option Nat := lowest 4 r.fcgs

/-- The streams that a recipe claims, lowest first. -/
def Recipe.streamList (r : Recipe) : List Nat := (List.range 64).filter r.streams.testBit

/-- The lowest stream that a recipe claims. -/
def Recipe.lead (r : Recipe) : Nat := (lowest 64 r.streams).getD 0

/-- The beacon channel and the general input that a BURST recipe claims (R73). -/
def Recipe.endCh (r : Recipe) : Nat := if r.u 0x30 1 = 0 then r.u 0x34 1 else r.u 0x31 1

/-- The compare list entry that a recipe claims (R72). -/
def Recipe.listEntry (r : Recipe) : Option Nat :=
  match r.clock with
  | some (2, d) => if r.u (0x4A + d) 1 = 0 then some (r.u (0x4C + d) 4) else none
  | _ => none

/-- The recipe runs a LOCK loop whose compare unit you arm yourself: LIST_MODE = 1 (R72). -/
def Recipe.listMode (r : Recipe) : Bool :=
  match r.clock with
  | some (2, d) => r.u (0x4A + d) 1 == 1
  | _ => false

/-- The claims of two recipes meet; TRIAGE may name streams that another recipe claims (R76). -/
def Recipe.conflicts (a b : Recipe) : Bool :=
  (a.ports &&& b.ports) ≠ 0 || (a.fcgs &&& b.fcgs) ≠ 0 || (a.encs &&& b.encs) ≠ 0 || (a.trgs &&& b.trgs) ≠ 0
  || (a.id ≠ rcTRIAGE && b.id ≠ rcTRIAGE && (a.streams &&& b.streams) ≠ 0)
  || (a.cmps &&& b.cmps) ≠ 0 || (a.pods &&& b.pods) ≠ 0
  || (a.dmaCount ≠ 0 && b.dmaCount ≠ 0
      && decide (a.dmaFirst < b.dmaFirst + b.dmaCount) && decide (b.dmaFirst < a.dmaFirst + a.dmaCount))
  || (a.autoDeliver && b.autoDeliver && [a.frameRing, a.cmplRing].any [b.frameRing, b.cmplRing].contains)
  || (a.listEntry.isSome && a.listEntry == b.listEntry)
  || (a.id == rcBURST && b.id == rcBURST
      && (a.endCh == b.endCh || (a.u 0x30 1 == 0 && b.u 0x30 1 == 0 && a.u 0x31 1 == b.u 0x31 1)))

/-! ### The recipe of a core -/

/-- The RECIPE_STATE values of SQ_STATUS. -/
def rsNONE : Nat := 0
def rsLOADING : Nat := 1
def rsRUNNING : Nat := 2
def rsSTOPPING : Nat := 3
def rsSTOPPED : Nat := 4
def rsERROR : Nat := 5
def rsDONE : Nat := 6

def recipeState (s : State) (c : Nat) : Nat := rd s F.SQ_STATUS_RECIPE_STATE c
def setRecipeState (s : State) (c st : Nat) : State := wr s F.SQ_STATUS_RECIPE_STATE c st

def setRecipe (s : State) (c : Nat) (r : Option Recipe) : State := setCore s c { coreAt s c with recipe := r }

/-- The recipe of core c where it holds its claims: RUNNING or STOPPING (R76). -/
def runningRecipe (s : State) (c : Nat) : Option Recipe :=
  if recipeState s c = rsRUNNING ∨ recipeState s c = rsSTOPPING then (coreAt s c).recipe else none

/-- The recipe's frame clocks stop: no trigger is issued after now (R77, R222). -/
def stopClocks (s : State) (r : Recipe) : State :=
  if r.clock.isSome then (List.range 4).foldl (fun s g => if r.fcgs.testBit g then fcgStop s g else s) s else s

/-- A TRIAGE recipe clears EN of its gates (R383). -/
def stopGates (s : State) (r : Recipe) : State := if r.id = rcTRIAGE then r.streamList.foldl gateDisable s else s

/-- The recipe of core c ends in RECIPE_STATE `st`: its claims are released, the core is HALTED where it still ran the
recipe (R77, R78). -/
def endRecipe (s : State) (c st : Nat) : State :=
  let s := setRecipe (setRecipeState s c st) c none
  setBit s F.SQ_IRQ_STATUS_EVT c (if st = rsERROR then 3 else 2)

/-- The recipe of core c ends in ERROR with a code and the card offset of a field (R75, R79). -/
def recipeError (s : State) (c code off : Nat) : State :=
  endRecipe (wr (wr s F.SQ_RECIPE_ERR_CODE c code) F.SQ_RECIPE_ERR_OFFSET c off) c rsERROR

/-- A HALT, a core reset or a fault stops the recipe of core c at once: claims released, claimed trigger outputs idle,
ERROR with CODE = ABORTED (R79; log 45). -/
def recipeAbort (s : State) (c : Nat) : State :=
  match (coreAt s c).recipe with
  | none => s
  | some r =>
    let s := stopGates (stopClocks s r) r
    let s := (List.range 16).foldl (fun s n => if r.trgs.testBit n then discardPulses s n false else s) s
    recipeError s c 8 0

/-- What a recipe counts into DETAIL, from the start of the device on (R71). -/
def recipeCount (s : State) (r : Recipe) : Nat :=
  let mine := fun (f : Frame) => f.phase == .complete && r.streams.testBit f.stream
  match r.clock with
  | some (2, _) => (s.frames.filter fun f => mine f && f.flags.testBit flUNCONF).length
  | some (3, _) => rd s F.CMP_AGAINST_COUNT ((lowest 16 r.cmps).getD 0)
  | _ => if r.id = rcTRIAGE then (s.frames.filter fun f => mine f && f.final && f.verdict == 5).length else 0

/-- DETAIL of a recipe (R71): BURST sums the pre-event frames that its streams lost. -/
def recipeDetail (s : State) (r : Recipe) : Nat :=
  if r.id = rcBURST then (r.streamList.map fun k => r.u 0x20 8 - rd s F.MEM_BURST_PRE_HELD_VALUE k).sum
  else recipeCount s r - r.base

/-- The recipe of core c writes DETAIL (R69, R71). -/
def writeDetail (s : State) (c : Nat) (r : Recipe) : State := putCard s c 0xF0 4 (recipeDetail s r % 2 ^ 32)

/-- Every claimed stream of a BURST recipe is FROZEN (R78). -/
def burstEnded (s : State) (r : Recipe) : Bool := r.streamList.all fun k => burstState s k == 3

/-- The core's recipe program ends: the core is HALTED. -/
def recipeHalt (s : State) (c : Nat) : State :=
  wr (setCore s c { coreAt s c with stall := .none, stepping := false }) F.SQ_STATUS_STATE c 0

/-- The results of a recipe that ends: DETAIL, and EVENT_TB of the end or stop event (R69, R73, R77). -/
def recipeResults (s : State) (c : Nat) (r : Recipe) : State :=
  let s := writeDetail s c r
  if r.id = rcBURST then putCard s c 0xE8 8 (rd s F.MEM_BURST_EVENT_TB_VALUE r.lead)
  else match r.stopAt with
    | some t => putCard s c 0xE8 8 t
    | none => s

/-- The recipe of core c has reached its end by itself (R78). -/
def recipeDone (s : State) (c : Nat) (r : Recipe) : State :=
  recipeHalt (endRecipe (stopGates (stopClocks (recipeResults s c r) r) r) c rsDONE) c

/-- RECIPE_STOP asks the recipe of core c to stop (R77): a triggering recipe issues no later trigger, BURST ends its
recording with no post-event frame. -/
def recipeStop (s : State) (c : Nat) : State :=
  match (coreAt s c).recipe with
  | none => s
  | some r =>
    if recipeState s c ≠ rsRUNNING then s
    else
      let u := stopClocks s r
      let u := if r.id = rcBURST then
          r.streamList.foldl (fun u k => if burstState u k = 2 then burstFreeze u k else burstEnd u k 0) u
        else u
      setRecipe (setRecipeState u c rsSTOPPING) c (some { r with stopAt := some s.tb })

/-- A trigger that the recipe's frame clock g issued has not become a frame yet: it is committed, its pulse is held or under
way, its packet is queued, or its record waits for the frame start (R77, R201, R295). -/
def triggerAhead (s : State) (r : Recipe) (g : Nat) : Bool :=
  !(sget s.fcg Fcg.init g).committed.isEmpty
  || ((List.range 16).any fun n => let k := trgAt s n
      r.trgs.testBit n && (k.held ++ k.cur.toList).any fun p => p.src.any fun e => e.1 == g)
  || ((List.range 8).any fun n => r.ports.testBit n && (pktPortAt s n).trigQ.any fun p => p.fcg == some g)
  || (r.streamList.any fun k => (streamAt s k).trigQ.any fun t => t.fcg == some g)

/-- The stopped recipe has completed the frames already triggered: no trigger of its frame clock is ahead of its frame, none
of its streams holds a frame whose tag has not completed, and no gate of a TRIAGE recipe tracks a frame (R77). -/
def recipeQuiet (s : State) (r : Recipe) : Bool :=
  !(r.clock.isSome && r.fcg.any (triggerAhead s r))
  && (s.frames.all fun f => !r.streams.testBit f.stream || f.phase == .complete)
  && (r.id ≠ rcTRIAGE || s.tracked.all fun t => !r.streams.testBit t.stream)

/-- A stopped recipe ends in STOPPED (R77). -/
def recipeStopped (s : State) (c : Nat) : State :=
  match (coreAt s c).recipe with
  | none => s
  | some r =>
    if recipeState s c = rsSTOPPING ∧ recipeQuiet s r then
      recipeHalt (endRecipe (stopGates (recipeResults s c r) r) c rsSTOPPED) c
    else s

/-- A frame's tag has completed: the recipe of core c that claims its stream counts it (R69, R71, R78), or stops at the first
ENCODER_FAULT (R69). -/
def recipeFrame (s : State) (f : Frame) (c : Nat) : State :=
  match runningRecipe s c with
  | none => s
  | some r =>
    if !r.streams.testBit f.stream then s
    else
      let lead := f.stream == r.lead
      let r := if lead then { r with frames := r.frames + 1 } else r
      let s := setRecipe s c (some r)
      let s := if lead then putCard s c 0xE0 8 r.frames else s
      let s := writeDetail s c r
      if r.stopOnFault && f.flags.testBit flENCFAULT && recipeState s c == rsRUNNING then recipeStop s c
      else if lead && r.maxFrames ≠ 0 && r.frames == r.maxFrames then recipeDone s c r
      else s

/-- BURST recipes whose streams are all FROZEN reach DONE (R78). -/
def burstsDone (s : State) : State :=
  (List.range 8).foldl (fun s c =>
    match (coreAt s c).recipe with
    | some r => if r.id = rcBURST && recipeState s c == rsRUNNING && burstEnded s r then recipeDone s c r else s
    | none => s) s

/-- The compare unit k has been armed: a recipe with LIST_MODE = 1 that claims it ends in ERROR where SRC is not the encoder it
claims (R72; log 78). -/
def recipeArmed (s : State) (k : Nat) : State :=
  (List.range 8).foldl (fun s c =>
    match runningRecipe s c with
    | some r =>
      if r.listMode && lowest 16 r.cmps == some k && rd s F.CMP_CFG_SRC k ≠ (lowest 4 r.encs).getD 0 then
        recipeHalt (recipeError (stopClocks s r) c 4 0) c
      else s
    | none => s) s

/-- CMP_CMD.ARM of a command or a register write (R187, R72). -/
def cmpArmCmd (s : State) (k : Nat) : State := if cmpArmRefused s k then cmpArm s k else recipeArmed (cmpArm s k) k

def execCmpArm (k : Nat) (s : State) : Host.Outcome State Fault Refusal := onBlock 6 k 16 s fun s => cmpArmCmd s k

/-- The recipe of a core claims a resource of block bit b (R577). -/
def claimsBlock (r : Recipe) (b : Nat) : Bool :=
  match b with
  | 2 => r.id == rcBURST
  | 6 => r.encs ≠ 0 || r.cmps ≠ 0
  | 7 => r.fcgs ≠ 0
  | 8 => r.trgs ≠ 0
  | 9 => r.id == rcBURST && r.u 0x30 1 == 0
  | 10 => r.streams ≠ 0 || r.ports ≠ 0
  | 14 => r.pods ≠ 0 || r.id == rcTRIAGE
  | 16 => r.dmaCount ≠ 0 || r.autoDeliver
  | 17 => r.id == rcBURST
  | 18 => r.autoDeliver
  | b => decide (21 ≤ b) && r.ports.testBit (b - 21)

/-- A block reset stops the recipes that claim a resource of the block (R577). -/
def abortClaimants (s : State) (b : Nat) : State :=
  (List.range 8).foldl (fun s c => match runningRecipe s c with
    | some r => if claimsBlock r b then recipeHalt (recipeAbort s c) c else s
    | none => s) s

end Sys2Proof.Machine
end

