-- ==== Sys2Proof/Machine/Tsuxis.lean ====
section
/-! DEFINITION. How a sequencer core issues, stalls, faults, and opens and closes run-ahead regions (spec/02, R59 to R100). -/
namespace Sys2Proof.Machine

/-! ### Issue, advance, fault -/

/-- The STATE values of SQ_STATUS. -/
def sqHALTED : Nat := 0
def sqRUNNING : Nat := 1
def sqWAITING : Nat := 2
def sqLOADING : Nat := 3
def sqFAULTED : Nat := 4

def sqState (s : State) (c : Nat) : Nat := rd s F.SQ_STATUS_STATE c
def setSqState (s : State) (c st : Nat) : State := wr s F.SQ_STATUS_STATE c st

/-- Set an SQ_IRQ_STATUS bit. -/
def sqIrq (s : State) (c b : Nat) : State := setBit s F.SQ_IRQ_STATUS_EVT c b

/-- Core c can issue an instruction: D21 SEQ works, the core is RUNNING and no earlier instruction holds it. -/
def canIssue (s : State) (c : Nat) : Bool := blockWorks s 15 && sqState s c == sqRUNNING && (coreAt s c).stall == .none

/-- A posted framearm of the open region (R150). -/
def Req.tentative (r : Req) : Bool :=
  match r with
  | .framearm _ _ t => t
  | _ => false

/-- Such a request once its region has committed. -/
def Req.final (r : Req) : Req :=
  match r with
  | .framearm k v _ => .framearm k v false
  | _ => r

/-- Undo the open region of core c: v1 to v15, lk and the flags return, the store buffer and the tentative actions go
(R93, R94). pc is the caller's. -/
def squashRegion (s : State) (c : Nat) : State :=
  match (coreAt s c).region with
  | none => s
  | some r =>
    let s := squashActions (bump s F.SQ_SPEC_SQUASHED_COUNT c) c
    let k := coreAt s c
    let s := setCore s c { k with region := none, storeQ := (k.storeQ.filter fun q => !q.tentative) }
    let s := (r.savedV.zipIdx).foldl (fun s p => wr s F.SQ_VREG_VALUE (c * 16 + p.2 + 1) p.1) s
    wr (wr s F.SQ_LK_VALUE c r.savedLk) F.SQ_FLAGS_ZNCV c r.savedFlags

/-- Keep the open region of core c: the buffered stores take effect in program order, the tentative actions become final,
the guard's pending bit clears (R92). -/
def commitRegion (s : State) (c : Nat) : State :=
  match (coreAt s c).region with
  | none => s
  | some r =>
    let s := r.stores.foldr (fun e s => storeByte s c e.1 e.2) s
    let s := commitActions s c
    let s := clearBits s F.SQ_STATUS_EV_PENDING c (2 ^ r.guardEv)
    let s := bump s F.SQ_SPEC_COMMITTED_COUNT c
    let k := coreAt s c
    setCore s c { k with region := none, storeQ := k.storeQ.map Req.final }

/-- Core c faults at address `pc` with cause 1 ILLEGAL_OP, 2 BAD_ADDR, 3 MISALIGNED or 4 SPEC_NEST (R100). -/
def coreFault (s : State) (c pc cause : Nat) : State :=
  let s := squashRegion s c
  let s := recipeAbort s c
  let s := setCore s c { coreAt s c with stall := .none, stepping := false }
  let s := wr (setSqState s c sqFAULTED) F.SQ_STATUS_FAULT c cause
  sqIrq (wr s F.SQ_FAULT_PC_PC c pc) c 1

def fILLEGAL : Nat := 1
def fBADADDR : Nat := 2
def fMISALIGNED : Nat := 3
def fNEST : Nat := 4

/-- Core c would execute past 0x7FFC: BAD_ADDR, at an address that SQ_FAULT_PC cannot hold (R59; log 11). -/
def pastFault (s : State) (c : Nat) : State :=
  let (v, s) := takeFree s 15
  coreFault s c v fBADADDR

/-- pc moves to the next instruction (log 11). -/
def nextPc (s : State) (c : Nat) : State := if pcOf s c < 0x7FFC then setPc s c (pcOf s c + 4) else pcPast s c

/-- The instruction at pc ends and the next one follows; past 0x7FFC a running core faults with BAD_ADDR, a
single-stepped one halts there (R59; log 11). -/
def advance (s : State) (c : Nat) : State :=
  if pcOf s c < 0x7FFC then setPc s c (pcOf s c + 4)
  else if (coreAt s c).stepping || sqState s c == sqHALTED then pcPast s c
  else pastFault s c

/-- A stalled core issues again; a single-stepped core halts (R83, R624). -/
def resume (s : State) (c : Nat) : State :=
  let k := coreAt s c
  let s := setCore s c { k with stall := .none, stepping := false }
  setSqState s c (if k.stepping then sqHALTED else sqRUNNING)

/-- Hold core c; STATE shows WAITING except while an answer is awaited (log 12). -/
def hold (s : State) (c : Nat) (st : Stall) : State :=
  let s := setCore s c { coreAt s c with stall := st }
  match st with
  | .answer _ _ => s
  | _ => setSqState s c sqWAITING

/-- WAIT_KIND of SQ_STATUS (spec/02), where the guard of a region plays no part. -/
def stallKind : Stall → Nat
  | .none => 0
  | .wait kind _ _ _ _ => kind + 1
  | .dsync => 5
  | .storeFull _ => 5
  | .answer (.dmaq _ _) _ => 4
  | .answer _ _ => 0
  | .syncSend _ _ => 3
  | .commit _ => 6

/-- WAIT_KIND of core c: a wait for the event that guards the open region reads 6 (spec/02). -/
def waitKindOf (s : State) (c : Nat) : Nat :=
  let k := coreAt s c
  match k.stall, k.region with
  | .wait 1 ev a b d, some r => if ev = r.guardEv then 6 else stallKind (.wait 1 ev a b d)
  | st, _ => stallKind st

/-- The guard of the open region has arrived (R86, R124). -/
def guardArrived (s : State) (c : Nat) (r : Region) : Bool := hasBit s F.SQ_STATUS_EV_PENDING c r.guardEv

/-- Squash at the region's own doing: the core continues at the squash target (R93). -/
def squashTo (s : State) (c : Nat) (r : Region) : State := resume (setPc (squashRegion s c) c r.target) c

/-- A class-C instruction: inside a region it is a commit followed by the instruction; without the guard the core waits
(R88). -/
def classC (s : State) (c : Nat) (f : State → State) : State :=
  match (coreAt s c).region with
  | none => f s
  | some r =>
    if r.deadline < s.tb then squashTo s c r
    else if guardArrived s c r then f (commitRegion s c)
    else hold s c (.commit false)

/-- An instruction of class S that a region admits only up to a limit; beyond it, it is class C (R90). -/
def classLimited (s : State) (c : Nat) (within : Region → Bool) (f : State → State) : State :=
  match (coreAt s c).region with
  | none => f s
  | some r => if within r then f s else classC s c f

/-- A single-stepped core halts once its instruction has ended (R624). -/
def stepEnd (s : State) (c : Nat) : State :=
  let k := coreAt s c
  if k.stepping && k.stall == .none && sqState s c == sqRUNNING then
    setSqState (setCore s c { k with stepping := false }) c sqHALTED
  else s

/-- Core c executes an instruction when it can issue. -/
def issue (c : Nat) (f : State → State) (s : State) : State := if canIssue s c then stepEnd (f s) c else s

/-! ### Arithmetic, logic and constants (R105, R106) -/

/-- Write a result and flags, and go on. -/
def writeResult (s : State) (c rd' : Nat) (r : Word) (f : ZNCV) : State := advance (setFlags (setV s c rd' r) c f) c

/-- The ACC form exists for add and sub alone, with rd as the first source (R103, R106). -/
def srcLegal (accForm : Bool) (rd' ra : Nat) : Src → Bool
  | .acc _ => accForm && rd' == ra
  | _ => true

/-- A shift's imm16 bits 15:6 must be zero (R102, R106). -/
def shiftLegal : Src → Bool
  | .reg _ => true
  | .imm v => v < 64
  | .acc _ => false

/-- Fault with ILLEGAL_OP unless `ok` (R102). -/
def legal (s : State) (c : Nat) (ok : Bool) (f : State → State) : State :=
  if ok then f s else coreFault s c (pcOf s c) fILLEGAL

def tsxAdd (c d a : Nat) (src : Src) (s : State) : State :=
  legal s c (srcLegal true d a src) fun s =>
    let x := vreg s c a; let y := srcArith s c src
    writeResult s c d (x + y) (flagsAdd x y)

def tsxSub (c d a : Nat) (src : Src) (s : State) : State :=
  legal s c (srcLegal true d a src) fun s =>
    let x := vreg s c a; let y := srcArith s c src
    writeResult s c d (x - y) (flagsSub x y)

/-- The logic instructions and mul: Z and N of the result, C and V kept (R105). -/
def tsxLogic (op : Word → Word → Word) (operand : State → Nat → Src → Word) (c d a : Nat) (src : Src) (s : State) : State :=
  legal s c (srcLegal false d a src) fun s =>
    let r := op (vreg s c a) (operand s c src)
    writeResult s c d r (flagsZN r (flagsOf s c))

def tsxShl (c d a : Nat) (src : Src) (s : State) : State :=
  legal s c (shiftLegal src) fun s =>
    let x := vreg s c a; let n := srcCount s c src
    let r := x <<< n
    writeResult s c d r (flagsShift r n (x.getLsbD (64 - n)) (flagsOf s c))

def tsxShr (c d a : Nat) (src : Src) (s : State) : State :=
  legal s c (shiftLegal src) fun s =>
    let x := vreg s c a; let n := srcCount s c src
    let r := x >>> n
    writeResult s c d r (flagsShift r n (x.getLsbD (n - 1)) (flagsOf s c))

def tsxSar (c d a : Nat) (src : Src) (s : State) : State :=
  legal s c (shiftLegal src) fun s =>
    let x := vreg s c a; let n := srcCount s c src
    let r := x.sshiftRight n
    writeResult s c d r (flagsShift r n (x.getLsbD (n - 1)) (flagsOf s c))

/-- mov: imm20 sign-extended; no flags (R106). -/
def tsxMov (c d imm20 : Nat) (s : State) : State := advance (setV s c d (sext 20 imm20)) c

/-- movk: replace the 16 bits selected by sh (R106). -/
def tsxMovk (c d sh imm16 : Nat) (s : State) : State :=
  let x := (vreg s c d).toNat
  let k := 2 ^ (16 * (sh % 4))
  advance (setV s c d (BitVec.ofNat 64 (x - x / k % 2 ^ 16 * k + imm16 % 2 ^ 16 * k))) c

/-! ### Branches (R108 to R110) -/

/-- A taken branch of core c: pc, or BAD_ADDR (R108). -/
def takeBranch (s : State) (c off16 : Nat) : State :=
  match branchTarget (pcOf s c) off16 with
  | some t => setPc s c t
  | none => coreFault s c (pcOf s c) fBADADDR

def tsxB (c cond off16 : Nat) (s : State) : State :=
  legal s c (cond < 15) fun s => if condHolds cond (flagsOf s c) then takeBranch s c off16 else advance s c

def tsxBl (c off16 : Nat) (s : State) : State :=
  match branchTarget (pcOf s c) off16 with
  | some t => setPc (setLk s c (BitVec.ofNat 64 (pcOf s c + 4))) c t
  | none => coreFault s c (pcOf s c) fBADADDR

/-- Move a value into pc: MISALIGNED or BAD_ADDR where it is no instruction address (R109). DESIGN CHOICE: of a value that
is both, MISALIGNED (log 73). -/
def jumpTo (s : State) (c v : Nat) : State :=
  if v % 4 ≠ 0 then coreFault s c (pcOf s c) fMISALIGNED
  else if 0x7FFC < v then coreFault s c (pcOf s c) fBADADDR
  else setPc s c v

/-! ### Loads, stores and atomics (R111 to R114) -/

/-- Check the range and the natural alignment of an access of `n` bytes (R61). DESIGN CHOICE: of an address that fails both,
BAD_ADDR (R100 gives no order; log 73). -/
def withAddr (s : State) (c a n : Nat) (f : State → State) : State :=
  if (place a).isNone then coreFault s c (pcOf s c) fBADADDR
  else if a % n ≠ 0 then coreFault s c (pcOf s c) fMISALIGNED
  else f s

/-- A load of `n` bytes, sign-extended or not (R111, R112). -/
def tsxLoad (n : Nat) (signed : Bool) (c d a imm16 : Nat) (s : State) : State :=
  let ad := effAddr s c a imm16
  withAddr s c ad n fun s =>
    let v := ofBytes (loadBytes s c ad n)
    advance (setV s c d (if signed then sext (8 * n) v else BitVec.ofNat 64 v)) c

/-- A store of the low `n` bytes of the register in the rd field (R111); a full store buffer makes it class C (R90). -/
def tsxStore (n : Nat) (c d a imm16 : Nat) (s : State) : State :=
  let ad := effAddr s c a imm16
  withAddr s c ad n fun s =>
    classLimited s c (fun r => r.storeCount < 64) fun s =>
      advance (storeBytes s c ad n (vreg s c d).toNat) c

/-- An atomic on a 64-bit word of shared memory; rd receives the old value (R113); class C. DESIGN CHOICE: an address outside
shared memory and no multiple of 8 gives BAD_ADDR (log 73). -/
def tsxAtomic (op : Word → Word → Word) (c d a b : Nat) (s : State) : State :=
  let ad := (vreg s c a).toNat
  match place ad with
  | some (.shared o) =>
    if ad % 8 ≠ 0 then coreFault s c (pcOf s c) fMISALIGNED
    else classC s c fun s =>
      let old := BitVec.ofNat 64 (ofBytes (sharedBytes s o 8))
      let new := op old (vreg s c b)
      advance (setV (sharedPuts s o (toBytes 8 new.toNat)) c d old) c
  | _ => coreFault s c (pcOf s c) fBADADDR

/-! ### Device registers and actions (R115 to R117, R128, R129) -/

/-- Post a request into the device store queue of 16; a full queue stalls the core (R66, R128). -/
def post (s : State) (c : Nat) (r : Req) : State :=
  let k := coreAt s c
  if k.storeQ.length < 16 then advance (setCore s c { k with storeQ := k.storeQ ++ [r] }) c
  else hold s c (.storeFull r)

/-- An action: posted when it may be and rd is v0, else the core holds for the answer (R128, R129). -/
def act (s : State) (c d : Nat) (mayPost : Bool) (r : Req) : State :=
  if mayPost && d % 16 == 0 then post s c r else hold s c (.answer r d)

/-- The checks of a device-register access at BAR 0 (R115). DESIGN CHOICE: an address that fails both gives BAD_ADDR (log 73). -/
def withDev (s : State) (c a n : Nat) (f : State → State) : State :=
  if 0x04000000 ≤ a then coreFault s c (pcOf s c) fBADADDR
  else if a % n ≠ 0 then coreFault s c (pcOf s c) fMISALIGNED
  else f s

/-- rdev, rdevd: class S, or C where one of the registers it reads has a read side effect (R89, R115, R116). -/
def tsxRdev (n c d a imm16 : Nat) (s : State) : State :=
  let ad := effAddr s c a imm16
  withDev s c ad n fun s =>
    if readSideEffect ad || (n == 8 && readSideEffect (ad + 4)) then classC s c fun s => hold s c (.answer (.load ad n) d)
    else hold s c (.answer (.load ad n) d)

/-- wdev, wdevd: class C, posted (R66, R115, R116). -/
def tsxWdev (n c d a imm16 : Nat) (s : State) : State :=
  let ad := effAddr s c a imm16
  withDev s c ad n fun s => classC s c fun s => post s c (.store ad n ((vreg s c d).toNat % 2 ^ (8 * n)))

/-- dsync: wait for every earlier device store; class C (R66, R117). -/
def tsxDsync (c : Nat) (s : State) : State :=
  classC s c fun s => if (coreAt s c).storeQ.isEmpty then advance s c else hold s c .dsync

/-- tbr (R80). -/
def tsxTbr (c d : Nat) (s : State) : State := advance (setV s c d (BitVec.ofNat 64 s.tb)) c

/-! ### Waits (R81, R118 to R122) -/

/-- The awaited condition holds (R81, R121, R122). -/
def waitHolds (s : State) (c kind idx value : Nat) : Bool :=
  match kind with
  | 0 => decide (value ≤ s.tb)
  | 1 => hasBit s F.SQ_STATUS_EV_PENDING c idx
  | 2 => isSet s F.MBX_STAT_FULL idx && rd s F.MBX_BIND_RECEIVER idx == 0x10 + c
  | _ => !s.descs.any fun d => d.id == value % 2 ^ 16 && d.mid == 0x10 + c && d.ended.isNone

/-- The wait names the guard of the open region (R120). -/
def isGuardWait (s : State) (c kind idx : Nat) : Bool :=
  match (coreAt s c).region with
  | some r => kind == 1 && idx == r.guardEv
  | none => false

/-- A wait ends: Z where the deadline ended it, N where its time was already past at issue; a met EV wait clears the
pending bit unless it is the guard (R81, R118 to R120). -/
def endWait (s : State) (c kind idx : Nat) (past byDeadline : Bool) : State :=
  let s := if kind = 1 ∧ !byDeadline ∧ !isGuardWait s c kind idx
    then clearBits s F.SQ_STATUS_EV_PENDING c (2 ^ idx) else s
  let s := setFlags s c { flagsOf s c with z := byDeadline, n := past }
  advance (resume s c) c

/-- wait: ends at once where the condition holds or the deadline is reached, else holds the core (R81). -/
def tsxWait (c kind a rdl idx : Nat) (s : State) : State :=
  legal s c (kind < 4 && (kind ≠ 1 || idx < 4) && (kind = 1 || kind = 2 || idx = 0) && (kind = 0 || kind = 3 || a % 16 = 0)) fun s =>
    let go := fun (s : State) =>
      let value := (vreg s c a).toNat
      let deadline := if rdl % 16 = 0 then none else some (vreg s c rdl).toNat
      let past := (kind == 0 && decide (value < s.tb)) || deadline.any fun d => d < s.tb
      if waitHolds s c kind idx value then endWait s c kind idx past false
      else if deadline.any fun d => d ≤ s.tb then endWait s c kind idx past true
      else hold s c (.wait kind idx value deadline past)
    if isGuardWait s c kind idx then go s else classC s c go

/-! ### Run-ahead instructions (R123 to R127) -/

/-- spec: open a region, or fault (R86, R87, R123, R124). -/
def tsxSpec (c k rdl off16 : Nat) (s : State) : State :=
  if (coreAt s c).region.isSome then coreFault s c (pcOf s c) fNEST
  else match branchTarget (pcOf s c) off16 with
    | none => coreFault s c (pcOf s c) fBADADDR
    | some t =>
      let d := if rdl % 16 = 0 then s.tb + 2 ^ 30 else min (vreg s c rdl).toNat (s.tb + 2 ^ 30)
      let r : Region := ⟨(List.range 15).map fun i => rd s F.SQ_VREG_VALUE (c * 16 + i + 1), rd s F.SQ_LK_VALUE c,
        rd s F.SQ_FLAGS_ZNCV c, (List.range 64).map fun k => rd s F.PKT_ARM_COUNT k, k % 4, d, t, [], 0, [], [], []⟩
      let s := setCore s c { coreAt s c with region := some r }
      if d ≤ s.tb then squashTo s c r else advance s c

/-- commit: keep the region once its guard is there; nothing outside a region (R92, R125). -/
def tsxCommit (c : Nat) (s : State) : State :=
  match (coreAt s c).region with
  | none => advance s c
  | some r =>
    if r.deadline < s.tb then squashTo s c r
    else if guardArrived s c r then advance (commitRegion s c) c
    else hold s c (.commit true)

/-- squash: undo the region and continue at its target; nothing outside a region (R93, R125). -/
def tsxSquash (c : Nat) (s : State) : State :=
  match (coreAt s c).region with
  | none => advance s c
  | some r => squashTo s c r

/-- halt: squash any region, HALTED with pc at the next instruction (R126); a recipe stops (R79). -/
def tsxHalt (c : Nat) (s : State) : State :=
  let s := nextPc (recipeAbort (squashRegion s c) c) c
  let s := setCore s c { coreAt s c with stall := .none, stepping := false }
  sqIrq (setSqState s c sqHALTED) c 0

/-! ### Actions (R133 to R150): the requests that the instructions make -/

def tsxPulse (c d a b e : Nat) (s : State) : State :=
  classC s c fun s => act s c d true (.pulse (vreg s c a).toNat (vreg s c b).toNat (vreg s c e).toNat)

def tsxPair (c d a b e : Nat) (s : State) : State :=
  classC s c fun s => act s c d true (.pair (vreg s c a).toNat (vreg s c b).toNat (vreg s c e).toNat)

def tsxTrigpkt (c d a b e : Nat) (s : State) : State :=
  classC s c fun s => act s c d true (.trigpkt (vreg s c a).toNat (vreg s c b).toNat (vreg s c e).toNat)

/-- fire names channel ra + imm6 over 64 bits (R139). -/
def tsxFire (c d a imm6 : Nat) (s : State) : State :=
  classC s c fun s => act s c d true (.fire (vreg s c a + zext 6 imm6).toNat)

def tsxMbxsend (c d a b : Nat) (sync : Bool) (s : State) : State :=
  classC s c fun s => act s c d (!sync) (.mbxsend (vreg s c a).toNat (vreg s c b).toNat sync)

def tsxMbxrcv (c d a : Nat) (s : State) : State := classC s c fun s => act s c d false (.mbxrcv (vreg s c a).toNat)

def tsxMbxwdr (c d a : Nat) (s : State) : State := classC s c fun s => act s c d false (.mbxwdr (vreg s c a).toNat)

/-- dmaq copies the 64 descriptor bytes at issue, with the region's buffered stores (R144). DESIGN CHOICE: an address that
fails both checks gives BAD_ADDR (log 73). -/
def tsxDmaq (c d a : Nat) (early : Bool) (s : State) : State :=
  let ad := (vreg s c a).toNat
  if (place ad).isNone || (place (ad + 63)).isNone then coreFault s c (pcOf s c) fBADADDR
  else if ad % 8 ≠ 0 then coreFault s c (pcOf s c) fMISALIGNED
  else
    let go := fun (s : State) => act s c d false (.dmaq (loadBytes s c ad 64) early)
    if early then classLimited s c (fun r => r.early.length < 8) go else classC s c go

def tsxPodrun (c d a b e : Nat) (s : State) : State :=
  classLimited s c (fun r => r.runs.length < 4) fun s =>
    act s c d false (.podrun (vreg s c a).toNat (vreg s c b).toNat (vreg s c e).toNat)

/-- framearm inside a region is tentative (R149, R150). -/
def tsxFramearm (c d a b : Nat) (s : State) : State :=
  classLimited s c (fun r => r.arms.length < 4) fun s =>
    let k := coreAt s c
    let tent := k.region.isSome
    let s := match k.region with
      | some r => setCore s c { k with region := some { r with arms := r.arms ++ [(vreg s c a).toNat] } }
      | none => s
    act s c d true (.framearm (vreg s c a).toNat (vreg s c b).toNat tent)

end Sys2Proof.Machine
end

