-- ==== Sys2Proof/Machine/SqCtl.lean ====
section
/-! DEFINITION. The rows of the Tsuxis instructions, the instruction words (R101 to R103), and the controls of a core: run,
halt, step, reset, recipe start and stop, wake (spec/02, spec/03; R578, R624). -/
namespace Sys2Proof.Machine

/-! ### Instructions -/

/-- An instruction row: core c executes it where it can issue (log 46). -/
def onCore (c : Nat) (f : State → State) (s : State) : Host.Outcome State Fault Refusal := onUnit c 8 s (issue c f)

def execAdd (c d a : Nat) (src : Src) (s : State) : Host.Outcome State Fault Refusal := onCore c (tsxAdd c d a src) s
def execSub (c d a : Nat) (src : Src) (s : State) : Host.Outcome State Fault Refusal := onCore c (tsxSub c d a src) s

def tsxAnd (c d a : Nat) (src : Src) : State → State := tsxLogic (· &&& ·) srcLogic c d a src
def tsxOr (c d a : Nat) (src : Src) : State → State := tsxLogic (· ||| ·) srcLogic c d a src
def tsxXor (c d a : Nat) (src : Src) : State → State := tsxLogic (· ^^^ ·) srcLogic c d a src
def tsxMul (c d a : Nat) (src : Src) : State → State := tsxLogic (· * ·) srcArith c d a src

def execAnd (c d a : Nat) (src : Src) (s : State) : Host.Outcome State Fault Refusal := onCore c (tsxAnd c d a src) s
def execOr (c d a : Nat) (src : Src) (s : State) : Host.Outcome State Fault Refusal := onCore c (tsxOr c d a src) s
def execXor (c d a : Nat) (src : Src) (s : State) : Host.Outcome State Fault Refusal := onCore c (tsxXor c d a src) s
def execShl (c d a : Nat) (src : Src) (s : State) : Host.Outcome State Fault Refusal := onCore c (tsxShl c d a src) s
def execShr (c d a : Nat) (src : Src) (s : State) : Host.Outcome State Fault Refusal := onCore c (tsxShr c d a src) s
def execSar (c d a : Nat) (src : Src) (s : State) : Host.Outcome State Fault Refusal := onCore c (tsxSar c d a src) s
def execMul (c d a : Nat) (src : Src) (s : State) : Host.Outcome State Fault Refusal := onCore c (tsxMul c d a src) s
def execMov (c d imm20 : Nat) (s : State) : Host.Outcome State Fault Refusal := onCore c (tsxMov c d imm20) s
def execMovk (c d imm group : Nat) (s : State) : Host.Outcome State Fault Refusal := onCore c (tsxMovk c d group imm) s
def execBCond (c cond off16 : Nat) (s : State) : Host.Outcome State Fault Refusal := onCore c (tsxB c cond off16) s
def execBl (c off16 : Nat) (s : State) : Host.Outcome State Fault Refusal := onCore c (tsxBl c off16) s

/-- jr (R109). -/
def tsxJr (c a : Nat) (s : State) : State := jumpTo s c (vreg s c a).toNat

/-- ret (R109). -/
def tsxRet (c : Nat) (s : State) : State := jumpTo s c (lkReg s c).toNat

/-- movlk (R110). -/
def tsxMovlk (c d : Nat) (s : State) : State := advance (setV s c d (lkReg s c)) c

/-- setlk (R110). -/
def tsxSetlk (c a : Nat) (s : State) : State := advance (setLk s c (vreg s c a)) c

def execJr (c a : Nat) (s : State) : Host.Outcome State Fault Refusal := onCore c (tsxJr c a) s
def execRet (c : Nat) (s : State) : Host.Outcome State Fault Refusal := onCore c (tsxRet c) s
def execMovlk (c d : Nat) (s : State) : Host.Outcome State Fault Refusal := onCore c (tsxMovlk c d) s
def execSetlk (c a : Nat) (s : State) : Host.Outcome State Fault Refusal := onCore c (tsxSetlk c a) s

def execLdb (c d a imm16 : Nat) (s : State) : Host.Outcome State Fault Refusal := onCore c (tsxLoad 1 false c d a imm16) s
def execLdh (c d a imm16 : Nat) (s : State) : Host.Outcome State Fault Refusal := onCore c (tsxLoad 2 false c d a imm16) s
def execLdw (c d a imm16 : Nat) (s : State) : Host.Outcome State Fault Refusal := onCore c (tsxLoad 4 false c d a imm16) s
def execLdd (c d a imm16 : Nat) (s : State) : Host.Outcome State Fault Refusal := onCore c (tsxLoad 8 false c d a imm16) s
def execLdsb (c d a imm16 : Nat) (s : State) : Host.Outcome State Fault Refusal := onCore c (tsxLoad 1 true c d a imm16) s
def execLdsh (c d a imm16 : Nat) (s : State) : Host.Outcome State Fault Refusal := onCore c (tsxLoad 2 true c d a imm16) s
def execLdsw (c d a imm16 : Nat) (s : State) : Host.Outcome State Fault Refusal := onCore c (tsxLoad 4 true c d a imm16) s
def execStb (c d a imm16 : Nat) (s : State) : Host.Outcome State Fault Refusal := onCore c (tsxStore 1 c d a imm16) s
def execSth (c d a imm16 : Nat) (s : State) : Host.Outcome State Fault Refusal := onCore c (tsxStore 2 c d a imm16) s
def execStw (c d a imm16 : Nat) (s : State) : Host.Outcome State Fault Refusal := onCore c (tsxStore 4 c d a imm16) s
def execStd (c d a imm16 : Nat) (s : State) : Host.Outcome State Fault Refusal := onCore c (tsxStore 8 c d a imm16) s

def tsxAadd (c d a b : Nat) : State → State := tsxAtomic (· + ·) c d a b
def tsxAxch (c d a b : Nat) : State → State := tsxAtomic (fun _ v => v) c d a b

def execAadd (c d a b : Nat) (s : State) : Host.Outcome State Fault Refusal := onCore c (tsxAadd c d a b) s
def execAxch (c d a b : Nat) (s : State) : Host.Outcome State Fault Refusal := onCore c (tsxAxch c d a b) s
def execRdev (c d a imm16 : Nat) (s : State) : Host.Outcome State Fault Refusal := onCore c (tsxRdev 4 c d a imm16) s
def execRdevd (c d a imm16 : Nat) (s : State) : Host.Outcome State Fault Refusal := onCore c (tsxRdev 8 c d a imm16) s
def execWdev (c d a imm16 : Nat) (s : State) : Host.Outcome State Fault Refusal := onCore c (tsxWdev 4 c d a imm16) s
def execWdevd (c d a imm16 : Nat) (s : State) : Host.Outcome State Fault Refusal := onCore c (tsxWdev 8 c d a imm16) s
def execDsync (c : Nat) (s : State) : Host.Outcome State Fault Refusal := onCore c (tsxDsync c) s
def execTbr (c d : Nat) (s : State) : Host.Outcome State Fault Refusal := onCore c (tsxTbr c d) s
def execWait (c kind a rdl idx : Nat) (s : State) : Host.Outcome State Fault Refusal := onCore c (tsxWait c kind a rdl idx) s
def execHalt (c : Nat) (s : State) : Host.Outcome State Fault Refusal := onCore c (tsxHalt c) s
def execSpec (c k rdl off16 : Nat) (s : State) : Host.Outcome State Fault Refusal := onCore c (tsxSpec c k rdl off16) s
def execCommit (c : Nat) (s : State) : Host.Outcome State Fault Refusal := onCore c (tsxCommit c) s
def execSquash (c : Nat) (s : State) : Host.Outcome State Fault Refusal := onCore c (tsxSquash c) s
def execPulse (c d a b e : Nat) (s : State) : Host.Outcome State Fault Refusal := onCore c (tsxPulse c d a b e) s
def execPair (c d a b e : Nat) (s : State) : Host.Outcome State Fault Refusal := onCore c (tsxPair c d a b e) s
def execTrigpkt (c d a b e : Nat) (s : State) : Host.Outcome State Fault Refusal := onCore c (tsxTrigpkt c d a b e) s
def execFire (c d a imm6 : Nat) (s : State) : Host.Outcome State Fault Refusal := onCore c (tsxFire c d a imm6) s
def execMbxsend (c d a b : Nat) (sync : Bool) (s : State) : Host.Outcome State Fault Refusal :=
  onCore c (tsxMbxsend c d a b sync) s
def execMbxrcv (c d a : Nat) (s : State) : Host.Outcome State Fault Refusal := onCore c (tsxMbxrcv c d a) s
def execMbxwdr (c d a : Nat) (s : State) : Host.Outcome State Fault Refusal := onCore c (tsxMbxwdr c d a) s
def execDmaq (c d a : Nat) (early : Bool) (s : State) : Host.Outcome State Fault Refusal := onCore c (tsxDmaq c d a early) s
def execPodrun (c d a b e : Nat) (s : State) : Host.Outcome State Fault Refusal := onCore c (tsxPodrun c d a b e) s
def execFramearm (c d a b : Nat) (s : State) : Host.Outcome State Fault Refusal := onCore c (tsxFramearm c d a b) s

/-! ### Instruction words (R101 to R103) -/

/-- What core c does with a decoded instruction. -/
def tsxEffect (i : Instr) : State → State :=
  match i with
  | .add c d a src => tsxAdd c d a src
  | .sub c d a src => tsxSub c d a src
  | .and c d a src => tsxAnd c d a src
  | .or c d a src => tsxOr c d a src
  | .xor c d a src => tsxXor c d a src
  | .shl c d a src => tsxShl c d a src
  | .shr c d a src => tsxShr c d a src
  | .sar c d a src => tsxSar c d a src
  | .mul c d a src => tsxMul c d a src
  | .mov c d imm20 => tsxMov c d imm20
  | .movk c d imm group => tsxMovk c d group imm
  | .bCond c cond off16 => tsxB c cond off16
  | .bl c off16 => tsxBl c off16
  | .jr c a => tsxJr c a
  | .ret c => tsxRet c
  | .movlk c d => tsxMovlk c d
  | .setlk c a => tsxSetlk c a
  | .ldb c d a imm16 => tsxLoad 1 false c d a imm16
  | .ldh c d a imm16 => tsxLoad 2 false c d a imm16
  | .ldw c d a imm16 => tsxLoad 4 false c d a imm16
  | .ldd c d a imm16 => tsxLoad 8 false c d a imm16
  | .ldsb c d a imm16 => tsxLoad 1 true c d a imm16
  | .ldsh c d a imm16 => tsxLoad 2 true c d a imm16
  | .ldsw c d a imm16 => tsxLoad 4 true c d a imm16
  | .stb c d a imm16 => tsxStore 1 c d a imm16
  | .sth c d a imm16 => tsxStore 2 c d a imm16
  | .stw c d a imm16 => tsxStore 4 c d a imm16
  | .std c d a imm16 => tsxStore 8 c d a imm16
  | .aadd c d a b => tsxAadd c d a b
  | .axch c d a b => tsxAxch c d a b
  | .rdev c d a imm16 => tsxRdev 4 c d a imm16
  | .rdevd c d a imm16 => tsxRdev 8 c d a imm16
  | .wdev c d a imm16 => tsxWdev 4 c d a imm16
  | .wdevd c d a imm16 => tsxWdev 8 c d a imm16
  | .dsync c => tsxDsync c
  | .tbr c d => tsxTbr c d
  | .wait c kind a rdl idx => tsxWait c kind a rdl idx
  | .halt c => tsxHalt c
  | .spec c k rdl off16 => tsxSpec c k rdl off16
  | .commit c => tsxCommit c
  | .squash c => tsxSquash c
  | .pulse c d a b e => tsxPulse c d a b e
  | .pair c d a b e => tsxPair c d a b e
  | .trigpkt c d a b e => tsxTrigpkt c d a b e
  | .fire c d a imm6 => tsxFire c d a imm6
  | .mbxsend c d a b sync => tsxMbxsend c d a b sync
  | .mbxrcv c d a => tsxMbxrcv c d a
  | .mbxwdr c d a => tsxMbxwdr c d a
  | .dmaq c d a early => tsxDmaq c d a early
  | .podrun c d a b e => tsxPodrun c d a b e
  | .framearm c d a b => tsxFramearm c d a b
  | _ => id

/-- The instruction word of core c at its pc (R59, R101). -/
def fetchWord (s : State) (c : Nat) : Nat :=
  ofBytes ((List.range 4).map fun i => progByte s (c * 0x8000 + pcOf s c + i))

/-- Core c executes the instruction at its pc, or faults with ILLEGAL_OP (R102). -/
def runWord (s : State) (c : Nat) : State :=
  match tsxDecode c (fetchWord s c) with
  | some i => issue c (tsxEffect i) s
  | none => issue c (fun s => coreFault s c (pcOf s c) fILLEGAL) s

/-! ### Controls (spec/02; R84, R127, R578, R624) -/

/-- SQ_CTL.RUN; a core that stands past 0x7FFC faults (log 11). -/
def sqRun (s : State) (c : Nat) : State :=
  if sqState s c = sqHALTED then (if (coreAt s c).past then pastFault s c else setSqState s c sqRUNNING) else s

def execSqRun (c : Nat) (s : State) : Host.Outcome State Fault Refusal :=
  onUnit c 8 s fun s => inReach 15 s fun s => sqRun s c

/-- The core holds nothing and enters HALTED with SQ_IRQ_STATUS.HALTED. -/
def sqHalted (s : State) (c : Nat) : State :=
  sqIrq (setSqState (setCore s c { coreAt s c with stall := .none, stepping := false, loadDue := none }) c sqHALTED) c 0

/-- SQ_CTL.HALT: any region squashes, a recipe stops; pc stays at a waiting instruction, and a SYNC send ends with TIMEOUT
(R79, R84, R93, R127). -/
def sqHalt (s : State) (c : Nat) : State :=
  if sqState s c = sqHALTED ∨ sqState s c = sqFAULTED then s
  else
    let st := (coreAt s c).stall
    let s := recipeAbort (squashRegion s c) c
    match st with
    | .syncSend _ d =>
      sqHalted (nextPc (setFlags (setV s c d (BitVec.ofNat 64 stTIMEOUT)) c { flagsOf s c with z := false }) c) c
    | _ => sqHalted s c

def execSqHalt (c : Nat) (s : State) : Host.Outcome State Fault Refusal :=
  onUnit c 8 s fun s => inReach 15 s fun s => sqHalt s c

/-- SQ_CTL.STEP: a HALTED core executes the one instruction at its pc and halts again (R624). -/
def sqStep (s : State) (c : Nat) : State :=
  if sqState s c = sqHALTED ∧ (coreAt s c).past then pastFault s c
  else if sqState s c = sqHALTED then
    runWord (setSqState (setCore s c { coreAt s c with stepping := true }) c sqRUNNING) c
  else s

def execSqStep (c : Nat) (s : State) : Host.Outcome State Fault Refusal :=
  onUnit c 8 s fun s => inReach 15 s fun s => sqStep s c

/-- The fields that each core has once. -/
def coreFields : List Field :=
  [F.SQ_CTL_RECIPE_ID, F.SQ_STATUS_STATE, F.SQ_STATUS_EV_PENDING, F.SQ_STATUS_FAULT, F.SQ_STATUS_RECIPE_STATE,
   F.SQ_STATUS_RECIPE_RUNNING, F.SQ_PC_PC, F.SQ_CYCLES_COUNT, F.SQ_SPEC_COMMITTED_COUNT, F.SQ_SPEC_SQUASHED_COUNT,
   F.SQ_FAULT_PC_PC, F.SQ_RECIPE_ERR_CODE, F.SQ_RECIPE_ERR_OFFSET, F.SQ_IRQ_STATUS_EVT, F.SQ_IRQ_EN_EN, F.SQ_LK_VALUE,
   F.SQ_FLAGS_ZNCV]

/-- The registers of core c but WAKE_EN and SQ_WAKE_PC return to their Reset values. -/
def coreRegsReset (s : State) (c : Nat) : State :=
  (List.range 16).foldl (fun s k => wr s F.SQ_VREG_VALUE (c * 16 + k) 0) (resetFields s coreFields c)

/-- The registers of core c return to their Reset values. -/
def coreRegsClear (s : State) (c : Nat) : State :=
  resetFields (coreRegsReset s c) [F.SQ_CTL_WAKE_EN, F.SQ_WAKE_PC_PC] c

/-- A core reset: any region squashes, a recipe stops and shows ABORTED, the registers return to their Reset values, the
stores in the device store queue stay to take effect (R79, R578; log 47). -/
def coreReset (s : State) (c : Nat) : State :=
  let k := coreAt s c
  let s := recipeAbort (squashRegion s c) c
  let s := coreRegsClear (setCore s c { SqCore.init with storeQ := k.storeQ, rom := k.rom }) c
  let s := wr s F.SQ_HASH_CTL_VALID 0 0
  if k.recipe.isSome then
    setBit (wr (setRecipeState s c rsERROR) F.SQ_RECIPE_ERR_CODE c 8) F.SQ_IRQ_STATUS_EVT c 3
  else s

def execSqCoreReset (c : Nat) (s : State) : Host.Outcome State Fault Refusal :=
  onUnit c 8 s fun s => inReach 15 s fun s => coreReset s c

/-! ### Recipe start and stop (R74, R77) -/

/-- A request to start recipe RECIPE_ID on core c: the code is copied from the recipe ROM, and the card is checked after
4,096 cycles; a core that is not HALTED discards the request with BUSY (R74, R99). -/
def recipeStart (s : State) (c : Nat) : State :=
  if sqState s c ≠ sqHALTED then wr s F.SQ_RECIPE_ERR_CODE c 7
  else
    let id := rd s F.SQ_CTL_RECIPE_ID c
    let s := wr (wr s F.SQ_RECIPE_ERR_CODE c 0) F.SQ_RECIPE_ERR_OFFSET c 0
    let s := wr (setRecipeState s c rsLOADING) F.SQ_STATUS_RECIPE_RUNNING c id
    let s := setCore s c { coreAt s c with
      recipe := some ⟨id, [], none, false, 0, 0⟩, loadDue := some (s.ns + 5120), rom := id }
    let s := hashSpoiled { s with prog := sfilter (fun a => a / 0x8000 ≠ c) s.prog }
    setSqState s c sqLOADING

/-- A write of RECIPE_START with RECIPE_ID = id; an ID out of range leaves the field (R74, R623, R624). -/
def execRecipeStart (c id : Nat) (s : State) : Host.Outcome State Fault Refusal :=
  onUnit c 8 s fun s => inReach 15 s fun s =>
    recipeStart (if 1 ≤ id ∧ id ≤ 6 then wr s F.SQ_CTL_RECIPE_ID c id else s) c

def execRecipeStop (c : Nat) (s : State) : Host.Outcome State Fault Refusal :=
  onUnit c 8 s fun s => inReach 15 s fun s => recipeStop s c

def execRecipeStopped (c : Nat) (s : State) : Host.Outcome State Fault Refusal := onBlock 15 c 8 s fun s => recipeStopped s c

/-! ### Wake and power (R85, R478) -/

/-- D21 has come up because a mailbox woke it: core c, which WAKE_EN lets start, starts at SQ_WAKE_PC (R85). -/
def coreWake (s : State) (c : Nat) : State :=
  let k := coreAt s c
  if blockWorks s 15 && k.wakeAsked && isSet s F.SQ_CTL_WAKE_EN c && sqState s c == sqHALTED then
    let s := setCore s c { k with wakeAsked := false, past := false }
    let s := (List.range 15).foldl (fun s i => wr s F.SQ_VREG_VALUE (c * 16 + i + 1) 0) s
    let s := wr (wr s F.SQ_LK_VALUE c 0) F.SQ_FLAGS_ZNCV c 0
    sqIrq (setSqState (wr s F.SQ_PC_PC c (rd s F.SQ_WAKE_PC_PC c)) c sqRUNNING) c 4
  else s

def execCoreWakeStart (c : Nat) (s : State) : Host.Outcome State Fault Refusal := onUnit c 8 s fun s => coreWake s c

/-- D21 powers down: the regions squash, the recipes stop, the registers, pending bits and device store queues are lost; the
memories stay, and so do WAKE_EN and SQ_WAKE_PC, which the next wake reads (R85, R93; log 48). -/
def seqPowerDown (s : State) : State :=
  let s := (List.range 8).foldl (fun s c =>
    let s := recipeAbort (squashRegion s c) c
    coreRegsReset (setCore s c { SqCore.init with rom := (coreAt s c).rom, wakeAsked := (coreAt s c).wakeAsked }) c) s
  let s : State := { s with hashDue := none, hashDirty := false }
  resetFields s [F.SQ_HASH_CTL_BUSY, F.SQ_HASH_CTL_VALID, F.SQ_PROG_HASH_HASH] 0

/-- D21 has come up: where a mailbox bound to a core woke it, every core with WAKE_EN is to start; the others stay HALTED
(R85). -/
def seqPowerUp (s : State) : State :=
  let woken := (List.range 8).any fun c => (coreAt s c).wakeAsked
  (List.range 8).foldl (fun s c =>
    setCore s c { coreAt s c with wakeAsked := woken && isSet s F.SQ_CTL_WAKE_EN c }) s

/-! ### Event inputs (R82, R484, R488) -/

/-- A beacon event on its way to SQc_EVk arrives: the pending bit sets, or the consumer overruns (R82, R488). -/
def execSqEvEvent (c k : Nat) (s : State) : Host.Outcome State Fault Refusal :=
  if k < 4 then
    onUnit c 8 s fun s => beaconArrives s (4 * c + k) (fun _ => true) (fun s => hasBit s F.SQ_STATUS_EV_PENDING c k)
      fun _ s => setBit s F.SQ_STATUS_EV_PENDING c k
  else .fault .noSuchUnit

end Sys2Proof.Machine
end

