-- ==== Sys2Proof/Machine/PowerSet.lean ====
section
/-! DEFINITION. What the power sequencer is asked for: the effective set (spec/14, R546, R551); what the keeper's ports keep
between transactions (R525, R529, R531). -/
namespace Sys2Proof.Machine

/-! ### The effective set (R546, R551) -/

/-- The switchable domains: all but D0, D1 and D3. -/
def switchable : Nat := 0xFFFFF4

/-- The domains on which a domain depends (R546). -/
def dependsOn (d : Nat) : List Nat :=
  if d = 2 ∨ d = 5 ∨ d = 14 ∨ d = 15 ∨ d = 22 then [4]
  else if 6 ≤ d ∧ d ≤ 13 then [4, 22]
  else if d = 16 ∨ d = 17 then [4, 22, 23]
  else if d = 18 ∨ d = 19 then [4, 22, 20]
  else if d = 20 ∨ d = 21 ∨ d = 23 then [4, 22]
  else []

/-- The mask of a list of domains. -/
def domMask (ds : List Nat) : Nat := ds.foldl (fun m d => m ||| 2 ^ d) 0

/-- The closure of a set of domains under their dependencies (R546). -/
def closure (m : Nat) : Nat :=
  (List.range 24).foldl (fun a d => if m.testBit d then a ||| domMask (dependsOn d) else a) m

/-- The mask of KP_PROFILE (R551). -/
def profileMask (s : State) : Nat :=
  match rd s F.KP_PROFILE_PROFILE with
  | 1 => switchable
  | 2 => domMask [2, 4, 5, 6, 7, 8, 9, 10, 11, 12, 13, 14, 15, 21, 22, 23]
  | 3 => domMask [2, 4, 5, 21, 22]
  | 4 => if isSet s F.KP_PROFILE_SLEEP_HOST then domMask [4, 5] else 0
  | _ => 0

/-- KP_EFFECTIVE: the closure of the effective set, empty while TRIPPED is 1 (R546, R553; log 49). -/
def effective (s : State) : Nat :=
  if isSet s F.KT_STATUS_TRIPPED then 0
  else closure ((profileMask s ||| rd s F.KP_REQ_DOMAINS ||| rd s F.PWR_WAKE_HELD_DOMAINS) &&& switchable)

def pwrEvt (s : State) (b : Nat) : State := setBit s F.PWR_EVT_EVT 0 b

/-- Set or clear KP_GOOD of a domain. -/
def setGood (s : State) (d : Nat) (on : Bool) : State := putBit s F.KP_GOOD_DOMAINS 0 d on

/-- The display outputs return to 0 V (R557). -/
def dropHold (s : State) : State := wr { s with segDrive := [] } F.KD_STATUS_HOLDING 0 0

/-! ### Keeper ports (R525, R529, R531) -/

def kport (s : State) (p : Nat) : KPort := sget s.kports KPort.init p
def setKport (s : State) (p : Nat) (k : KPort) : State := { s with kports := sset s.kports KPort.init p k }

/-- KI_LAST_ERR takes the reason of a refusal. -/
def lastErr (s : State) (code : Nat) : State := wr s F.KI_LAST_ERR_CODE 0 code

/-- The status byte that a port shows in its next transaction (R525). -/
def statusByte (s : State) (p : Nat) : Nat :=
  let k := kport s p
  0x80 + 32 * (kirqLow s).toNat + 16 * rd s F.KD_STATUS_DIRTY + 8 * k.journalErr.toNat + 4 * k.abandoned.toNat
    + 2 * k.refused.toNat + k.crcErr.toNat

/-- A transaction of port p begins: a display hold of that port ends (R557). -/
def portBegins (s : State) (p : Nat) : State :=
  if isSet s F.KD_STATUS_HOLDING && rd s F.KD_STATUS_OWNER == p then dropHold s else s

/-- A transaction of port p ends before its last CRC clock: it has no effect, and a pending first KRESET is voided, which
the status shows as REFUSED (R529, R531). -/
def keeperCut (s : State) (p : Nat) : State :=
  let k := kport s p
  let t := portBegins s p
  let t := if k.kreset then lastErr t 5 else t
  setKport t p ⟨true, k.kreset, false, false, false, statusByte s p, 0, []⟩

end Sys2Proof.Machine
end

