-- ==== Sys2Proof/Machine/KeeperOps.lean ====
section
/-! DEFINITION. The keeper's transactions: opcodes and work tails, the fault log, the journal, the display (spec/14, R522 to
R558); what becomes of one that the bridge runs when it is abandoned. -/
namespace Sys2Proof.Machine

/-- A 32-bit word of the journal. -/
def journalWord (s : State) (off : Nat) : Nat := ofBytes (getBytes s.journal off 4)

/-- The A-die loads its copies of the keeper's lifecycle and rank (R27, R534, R535). -/
def refreshCopies (s : State) : State :=
  wr (wr s F.GLB_STATUS_LIFECYCLE 0 (rd s F.KL_LIFECYCLE_LOCKED)) F.GLB_STATUS_TWIN_RANK 0 (rd s F.KL_RANK_RANK)

/-! ### Frames and their CRC (R523, R524) -/

/-- The opcode and the address of a frame in transmission order. -/
def frameHead (op addr : Nat) : List Nat := [op, addr / 256 % 256, addr % 256]

/-- A 32-bit field in transmission order: most significant byte first (R522). -/
def frameWord (data : Nat) : List Nat := (toBytes 4 data).reverse

/-- The frame of an opcode is of the read type (R523, R526). -/
def readType (op : Nat) : Bool := op == 1 || op == 3

/-- The CRC that the controller sends: of a read-type frame over opcode and address, of a write-type frame over opcode, address and
data (R523, R524). -/
def sentCrc (op addr data : Nat) : Nat := crc8 (frameHead op addr ++ if readType op then [] else frameWord data)

/-- What the keeper drives at clocks 33 to 72 of a read-type frame: the data and the CRC over opcode, address and data (R523,
R524). -/
def replyBytes (op addr data : Nat) : List Nat := frameWord data ++ [crc8 (frameHead op addr ++ frameWord data)]

/-- The bits of a frame of an opcode (R523). -/
def frameClocks (op : Nat) : Nat := if readType op then 72 else 64

/-! ### What a transaction answers -/

/-- How a transaction's operation ended: the reason of a refusal (KI_LAST_ERR), whether KCSn rose before the operation
completed, whether a journal read was uncorrectable, and the data of a read-type frame (R525, R531). -/
structure KRes where
  refused : Option Nat
  abandoned : Bool
  journalErr : Bool
  data : Nat
  deriving DecidableEq, Repr

def KRes.ok : KRes := ⟨none, false, false, 0⟩
def KRes.refuse (code : Nat) : KRes := ⟨some code, false, false, 0⟩
def KRes.cut : KRes := ⟨none, true, false, 0⟩

/-- The reasons of KI_LAST_ERR. -/
def keOPCODE : Nat := 1
def keADDRESS : Nat := 2
def keREADONLY : Nat := 3
def keLOCKED : Nat := 4
def keSEQUENCE : Nat := 5
def keSTATE : Nat := 6
def keHASH : Nat := 7
def keABSENT : Nat := 8
def keBRIDGE : Nat := 9

/-- A refusal for which the specification names no reason: KI_LAST_ERR takes a free value (log 108). -/
def refuseFree (s : State) : KRes × State :=
  let (v, s) := takeFree s 8
  (KRes.refuse v, s)

/-! ### Journal -/

/-- A 32-bit read of the journal: the word as read, and whether its 64-bit word is uncorrectable (R545). -/
def journalRead (s : State) (off : Nat) : Nat × Bool := (journalWord s off, sget s.badWords false (off / 8))

/-- Bytes written into the journal; the words they lie in read without error. -/
def journalPut (s : State) (off : Nat) (bs : List Nat) : State :=
  { s with
    journal := putBytes s.journal off bs
    badWords := (List.range ((bs.length + 7) / 8)).foldl (fun m i => sset m false (off / 8 + i) false) s.badWords }

/-- A 64-bit journal word whose write was cut short: its bytes and its error code are undefined (R531). -/
def journalSpoil (s : State) (word : Nat) : State :=
  let (v, s) := takeFree s 64
  let (b, s) := takeFree s 1
  { s with journal := putBytes s.journal (8 * word) (toBytes 8 v), badWords := sset s.badWords false word (b == 1) }

/-- What a read of a journal offset through the window returns: the fault log, the display counters, the boot table and the
user area as they stand; system words and the display record, whose layout the specification does not give, a free value;
a reserved offset zero (R544, R545); `addr` is the keeper address read. -/
def windowRead (s : State) (addr off : Nat) : KRes × State :=
  let stored (s : State) : KRes × State :=
    let r := journalRead s off
    (⟨none, false, r.2, r.1⟩, if r.2 then capture s 7 addr else s)
  if off < 0x20000 then stored s
  else if off < 0x20200 then
    let (v, s) := takeFree s 32
    (⟨none, false, false, v⟩, s)
  else if off < 0x202C0 then (⟨none, false, false, rd s F.KD_CNT_COUNT ((off - 0x20200) / 4)⟩, s)
  else if 0x20400 ≤ off ∧ off < 0x205C0 then stored s
  else if 0x21000 ≤ off then stored s
  else (KRes.ok, s)

/-- The journal offset of a window address (R544). -/
def windowOff (s : State) (addr : Nat) : Nat := rd s F.KJ_PAGE_PAGE * 0x10000 + 4 * (addr - 0x4000)

/-! ### Fault log (R540, R543) -/

/-- The 32 bytes of the entry that a bank makes. -/
def logEntry (s : State) (src : Nat) (b : Bank) : List Nat :=
  let body := toBytes 4 (rd s F.KF_NEXT_ENTRY_NO) ++ [src, 0] ++ toBytes 2 b.count ++ toBytes 4 (rd s F.KI_WALL_SECONDS)
    ++ toBytes 4 (rd s F.KI_POLLS_SINCE_TIME_COUNT) ++ toBytes 8 b.tb ++ toBytes 4 b.detail ++ [0, 0]
  body ++ toBytes 2 (crc16 body)

/-- The bank that the next commit takes: one whose commit was abandoned, else the oldest (R539, R540). -/
def nextBank (s : State) : Option (Nat × Nat) :=
  match s.abandonedBank with
  | some b => some b
  | none => (latchedBanks s).head?.map (·.2)

/-- The source swaps to its other bank where the committed bank takes its events (R540). -/
def swapBank (s : State) (src i : Nat) : State :=
  let k := captureAt s src
  if k.active = i then setCapture s src { k with active := 1 - i } else s

/-- Where the next entry lies in the journal (R543). -/
def logSlot (s : State) : Nat := rd s F.KF_NEXT_ENTRY_NO % 4096 * 32

/-- One bank is committed: its entry is written, the log header advances, the bank clears; KEEP_7 fires where an entry is
replaced (R540, R542, R543). -/
def commitBank (s : State) (src i : Nat) : State :=
  let b := (captureAt s src).bank i
  let s := journalPut (swapBank s src i) (logSlot s) (logEntry s src b)
  let s := setCapture s src ((captureAt s src).setBank i Bank.init)
  let s := wr { s with abandonedBank := none } F.KF_NEXT_ENTRY_NO 0 (rd s F.KF_NEXT_ENTRY_NO + 1)
  if 4096 ≤ s.logUsed then fireProducer (bump s F.KF_OVERWRITE_COUNT_COUNT) 151 else { s with logUsed := s.logUsed + 1 }

/-- Commit up to `n` banks; with them the number committed. -/
def commitBanks (n : Nat) (s : State) : Nat × State :=
  match n with
  | 0 => (0, s)
  | n + 1 => match nextBank s with
    | none => (0, s)
    | some (src, i) =>
      let r := commitBanks n (commitBank s src i)
      (r.1 + 1, r.2)

/-- A commit is cut short: the source has swapped, the bank stays and goes first next time, its slot holds undefined bytes
(R540). -/
def commitCut (s : State) (src i : Nat) : State :=
  let w := logSlot s / 8
  let s : State := { (swapBank s src i) with abandonedBank := some (src, i) }
  (List.range 4).foldl (fun s j => journalSpoil s (w + j)) s

/-- The summary word of a POLL (R539). -/
def pollSummary (s : State) : Nat :=
  pendingBanks s + 2 ^ 16 * rd s F.KD_STATUS_DIRTY + 2 ^ 17 * rd s F.KT_STATUS_TRIPPED + 2 ^ 18 * s.keepIrq.toNat
    + 2 ^ 19 * rd s F.KL_LIFECYCLE_LOCKED + 2 ^ 20 * rd s F.KL_RANK_RANK
    + 2 ^ 21 * (decide (rd s F.KF_OVERWRITE_COUNT_COUNT ≠ 0)).toNat

/-- POLL (R539, R540): the summary is sampled, the KEEP_IRQ latch is released, the tail commits one bank per 64 clocks. -/
def opPoll (s : State) (max tail : Nat) : KRes × State :=
  let word := pollSummary s
  let s := bump { s with keepIrq := false } F.KI_POLLS_SINCE_TIME_COUNT
  let n := tail / 64
  let r := commitBanks (if max = 0 then n else min n max) s
  let s := if r.1 = 0 then r.2 else fireProducer r.2 148
  let more := decide (tail % 64 ≠ 0) && (max == 0 || decide (r.1 < max))
  match if more then nextBank s else none with
  | some (src, i) => (⟨none, true, false, word⟩, commitCut s src i)
  | none => (⟨none, false, false, word⟩, s)

/-! ### READ -/

/-- The value of a keeper register field: computed where the register mirrors other state (R539, R552, R555). -/
def keeperField (s : State) (f : Field) (i : Nat) : Nat :=
  if f.fid = F.KP_EFFECTIVE_DOMAINS.fid then effective s
  else if f.fid = F.KT_STATUS_WARN_NOW.fid then (decide (s.hotMask ≠ 0)).toNat
  else if f.fid = F.KT_STATUS_HOT.fid then s.hotMask
  else if f.fid = F.KD_STATUS_STEPS.fid then rd s F.KD_WAVE_ERASE_STEPS + rd s F.KD_WAVE_WRITE_STEPS + 2
  else if f.fid = F.KF_PENDING_PENDING.fid then pendingBanks s
  else if f.ty = .wo ∨ f.ty = .nv ∧ (f.fid = F.KD_INTENT_HASH.fid ∨ f.fid = F.KD_COMMIT_HASH.fid) then 0
  else rd s f i

/-- The word of a keeper register; of a pair, the half that the address names (R20). -/
def keeperWord (s : State) (h : Hit) : Nat :=
  let v := h.reg.fields.foldl (fun a f => a + keeperField s f h.inst % 2 ^ f.width * 2 ^ f.lo) 0
  if h.high then v / 2 ^ 32 else v % 2 ^ 32

/-- A new conversion of sensor k (R554): the temperature is not the model's to say. -/
def convert (s : State) (k : Nat) : State :=
  let (v, s) := takeFree s 16
  wr (wr s F.KT_TEMP_TEMP k v) F.KT_TEMP_VALID k 1

/-- The words of the fault-log entry that KF_SEL names; zero outside the last 4,096 entries. -/
def logRead (s : State) (i : Nat) : KRes × State :=
  let back := (rd s F.KF_NEXT_ENTRY_NO + 2 ^ 32 - rd s F.KF_SEL_ENTRY_NO) % 2 ^ 32
  if 1 ≤ back ∧ back ≤ 4096 then windowRead s (0x1008 + i) (rd s F.KF_SEL_ENTRY_NO % 4096 * 32 + 4 * i) else (KRes.ok, s)

/-- READ (R527, R544, R545, R554). -/
def opRead (s : State) (addr tail : Nat) : KRes × State :=
  if 0x4000 ≤ addr ∧ addr < 0x8000 then windowRead s addr (windowOff s addr)
  else match keeperRegAt addr with
    | none => (KRes.refuse keADDRESS, s)
    | some h =>
      if h.reg.rid = R.KF_ENTRY.rid then logRead s h.inst
      else
        let word := keeperWord s h
        if h.reg.rid = R.KT_TEMP.rid ∧ tail ≠ 0 then
          (⟨none, decide (tail < 16), false, word⟩, if 16 ≤ tail then convert s h.inst else s)
        else (⟨none, false, false, word⟩, s)

/-! ### WRITE -/

/-- A field that a WRITE sets or acts on (R17, R527). -/
def Field.writable (f : Field) : Bool :=
  match f.ty with
  | .rw | .wo | .w1c | .w1s | .rwl => true
  | _ => false

/-- The bits of `v` that a field takes. -/
def Field.bits (f : Field) (v : Nat) : Nat := bitsOf v f.lo f.width

/-- A written value lies in the field's stated range, or is the value it has (R623). -/
def inRange (s : State) (f : Field) (i v : Nat) : Bool := (decide (f.least ≤ v) && decide (v ≤ f.greatest)) || v == rd s f i

/-- The TAIL of a WRITE of KP_PROFILE or KP_REQ ends before every domain is as requested (R531, R548). -/
def powerTail (s : State) (tail : Nat) : KRes :=
  if tail ≠ 0 ∧ (rd s F.KP_GOOD_DOMAINS &&& switchable) ≠ effective s then KRes.cut else KRes.ok

/-- WRITE to a power register: KP_PROFILE with 5 to 7 is refused (R551). -/
def writePower (s : State) (h : Hit) (data tail : Nat) : KRes × State :=
  if h.reg.fields.any fun f => f.writable && !inRange s f h.inst (f.bits data) then refuseFree s
  else
    let s := h.reg.fields.foldl (fun s f => wr s f h.inst (f.bits data)) s
    (powerTail s tail, s)

/-- The resets that a keeper transaction can make: of the A-die by KP_RESET, of the keeper by KRESET (R529, R569). -/
inductive KeeperRst where
  | warm | cold | keeper
  deriving DecidableEq, Repr

/-- WRITE of KP_RESET: without the key it is refused with SEQUENCE; COLD wins over WARM (R569, R570). -/
def writeReset (rst : KeeperRst → State → State) (s : State) (data : Nat) : KRes × State :=
  if bitsOf data 16 16 ≠ 0xA960 then (KRes.refuse keSEQUENCE, s)
  else if data.testBit 1 then (KRes.ok, rst .cold s)
  else if data.testBit 0 then (KRes.ok, rst .warm s)
  else (KRes.ok, s)

/-- WRITE of KT_STATUS.TRIP_CLR: refused while a sensor is not below TRIP − HYST (R553). -/
def writeTrip (s : State) (data : Nat) : KRes × State :=
  if !data.testBit 2 then (KRes.ok, s)
  else if s.nearTripMask ≠ 0 then (KRes.refuse keSTATE, s)
  else (KRes.ok, wr s F.KT_STATUS_TRIPPED 0 0)

/-- WRITE (R527): a register is set by its field types; a read-only, a non-volatile and a reserved address refuse. -/
def opWrite (rst : KeeperRst → State → State) (s : State) (addr data tail : Nat) : KRes × State :=
  if 0x4000 ≤ addr ∧ addr < 0x8000 then (KRes.refuse keREADONLY, s)
  else match keeperRegAt addr with
    | none => (KRes.refuse keADDRESS, s)
    | some h =>
      if !h.reg.fields.any Field.writable then (KRes.refuse keREADONLY, s)
      else if h.reg.rid = R.KP_RESET.rid then writeReset rst s data
      else if h.reg.rid = R.KT_STATUS.rid then writeTrip s data
      else if h.reg.rid = R.KP_FAIL.rid then (KRes.ok, clearBits s F.KP_FAIL_DOMAINS 0 data)
      else if h.reg.rid = R.KL_LOCKS.rid then
        (KRes.ok, h.reg.fields.foldl (fun s f => if f.bits data = 1 then wr s f 0 1 else s) s)
      else writePower s h data tail

/-! ### NVWRITE -/

/-- An NVWRITE whose cell pulse is cut short or too short: NV_ABANDON is latched with the address where it was cut
(R528, R531). -/
def nvCut (s : State) (addr : Nat) (cut : Bool) : KRes × State :=
  if cut then (KRes.cut, capture s 6 addr)
  else
    let (b, s) := takeFree s 1
    (⟨none, false, b == 1, 0⟩, s)

/-- A non-volatile field takes `v`, or an undefined value where its cell pulse was not whole. -/
def nvField (s : State) (good : Bool) (f : Field) (v : Nat) : State :=
  if good then wr s f 0 v
  else
    let (u, s) := takeFree s f.width
    wr s f 0 u

/-- The A-die refreshes its copies after a keeper write (R534). -/
def copiesFollow (s : State) : State := if s.aDieReset then s else refreshCopies s

/-- How an NVWRITE ends whose programming was accepted: `put` says what a whole or an undefined cell does. -/
def nvEnd (s : State) (addr tail : Nat) (fast : Bool) (put : Bool → State → State) : KRes × State :=
  if 64 ≤ tail ∧ !fast then (KRes.ok, put true s) else nvCut (put false s) addr (decide (tail < 64))

/-- NVWRITE to KL_LIFECYCLE (R533, R535): LOCKED for good unless the OPEN pattern stands. -/
def nvLifecycle (s : State) (port data tail : Nat) (fast : Bool) : KRes × State :=
  if port = 1 then (KRes.refuse keBRIDGE, s)
  else if data = 0x4F50454E ∧ isSet s F.KL_LIFECYCLE_LOCKED then (KRes.refuse keLOCKED, s)
  else nvEnd s 0x100 tail fast fun good s =>
    copiesFollow (wr s F.KL_LIFECYCLE_LOCKED 0 (if good && data == 0x4F50454E then 0 else 1))

/-- NVWRITE to KL_RANK or KL_BOOT: refused while LOCKED (R537). -/
def nvLockable (s : State) (f : Field) (addr data tail : Nat) (fast : Bool) : KRes × State :=
  if isSet s F.KL_LIFECYCLE_LOCKED then (KRes.refuse keLOCKED, s)
  else nvEnd s addr tail fast fun good s => copiesFollow (nvField s good f (data % 2))

/-- NVWRITE to KT_CFG or KD_WAVE, whose ranges refuse. -/
def nvRanged (s : State) (fs : List Field) (ok : Bool) (addr data tail : Nat) (fast : Bool) : KRes × State :=
  if !ok then refuseFree s
  else nvEnd s addr tail fast fun good s => fs.foldl (fun s f => nvField s good f (f.bits data)) s

/-- The ranges of KT_CFG. -/
def ktCfgOk (data : Nat) : Bool :=
  let w := bitsOf data 0 8
  let t := bitsOf data 8 8
  let h := bitsOf data 16 4
  decide (60 ≤ w) && decide (w ≤ 135) && decide (100 ≤ t) && decide (t ≤ 140) && decide (w < t) && decide (2 ≤ h)

/-- The ranges of KD_WAVE. -/
def kdWaveOk (data : Nat) : Bool :=
  [bitsOf data 0 4, bitsOf data 4 4].all fun n => decide (1 ≤ n) && decide (n ≤ 8)

/-- The hash of KD_IMAGE (R555). -/
def imageHash (s : State) : Nat :=
  crc32 (toBytes 4 (rd s F.KD_IMAGE_LO_SEG) ++ toBytes 2 (rd s F.KD_IMAGE_HI_SEG % 2 ^ 15))

/-- The display record is undefined: INTENT or not, with any hash. -/
def recordSpoilt (s : State) : State :=
  let (d, s) := takeFree s 1
  let (h, s) := takeFree s 32
  wr (wr s F.KD_STATUS_DIRTY 0 d) F.KD_HASH_HASH 0 h

/-- Port p owns an update that runs (R557). -/
def ownsUpdate (s : State) (p : Nat) : Bool := s.dispActive && rd s F.KD_STATUS_OWNER == p

/-- NVWRITE to KD_INTENT: an update starts at step 0 (R555, R558, R610). -/
def opIntent (s : State) (port hash tail : Nat) (fast : Bool) : KRes × State :=
  if hash ≠ imageHash s then (KRes.refuse keHASH, s)
  else if !domGood s 2 then (KRes.refuse keABSENT, s)
  else if s.dispActive && !ownsUpdate s port then (KRes.refuse keSTATE, s)
  else nvEnd s 0x803 tail fast fun good s =>
    if good then
      let s := wr (wr (wr s F.KD_STATUS_DIRTY 0 1) F.KD_STATUS_OWNER 0 port) F.KD_STATUS_NEXT_STEP 0 0
      { (wr s F.KD_HASH_HASH 0 hash) with dispActive := true, segLimited := [] }
    else recordSpoilt s

/-- N of R555. -/
def stepCount (s : State) : Nat := rd s F.KD_WAVE_ERASE_STEPS + rd s F.KD_WAVE_WRITE_STEPS + 2

/-- NVWRITE to KD_COMMIT: accepted after the last step with the hash of the INTENT; KEEP_5 fires (R542, R555, R557). -/
def opCommit (s : State) (port hash tail : Nat) (fast : Bool) : KRes × State :=
  if !(ownsUpdate s port && rd s F.KD_STATUS_NEXT_STEP == stepCount s) then (KRes.refuse keSEQUENCE, s)
  else if hash ≠ rd s F.KD_HASH_HASH then (KRes.refuse keHASH, s)
  else nvEnd s 0x804 tail fast fun good s =>
    if good then fireProducer { (wr s F.KD_STATUS_DIRTY 0 0) with dispActive := false } 149 else recordSpoilt s

/-- NVWRITE through the journal window: the user area, and the boot table while the device is OPEN (R537, R544). -/
def nvWindow (s : State) (addr data tail : Nat) (fast : Bool) : KRes × State :=
  let off := windowOff s addr
  let boot := decide (0x20400 ≤ off) && decide (off < 0x205C0)
  if boot && isSet s F.KL_LIFECYCLE_LOCKED then (KRes.refuse keLOCKED, s)
  else if !(boot || decide (0x21000 ≤ off)) then (KRes.refuse keADDRESS, s)
  else nvEnd s addr tail fast fun good s => if good then journalPut s off (toBytes 4 data) else journalSpoil s (off / 8)

/-- NVWRITE (R527, R528). -/
def opNvwrite (s : State) (port addr data tail : Nat) (fast : Bool) : KRes × State :=
  if 0x4000 ≤ addr ∧ addr < 0x8000 then nvWindow s addr data tail fast
  else match addr with
    | 0x0100 => nvLifecycle s port data tail fast
    | 0x0102 => nvLockable s F.KL_RANK_RANK addr data tail fast
    | 0x0103 => nvLockable s F.KL_BOOT_BOOT_EN addr data tail fast
    | 0x0400 => nvRanged s [F.KT_CFG_WARN, F.KT_CFG_TRIP, F.KT_CFG_HYST] (ktCfgOk data) addr data tail fast
    | 0x0802 =>
      if s.dispActive then (KRes.refuse keSTATE, s)
      else nvRanged s [F.KD_WAVE_ERASE_STEPS, F.KD_WAVE_WRITE_STEPS] (kdWaveOk data) addr data tail fast
    | 0x0803 => opIntent s port data tail fast
    | 0x0804 => opCommit s port data tail fast
    | _ => (KRes.refuse keADDRESS, s)

/-! ### STEP, TIME, KRESET -/

/-- Segment n is dark in KD_IMAGE. -/
def imageDark (s : State) (n : Nat) : Bool :=
  if n < 32 then hasBit s F.KD_IMAGE_LO_SEG 0 n else hasBit s F.KD_IMAGE_HI_SEG 0 (n - 32)

/-- What step k drives segment n to: 0 held at 0 V, 1 light, 2 dark (R556). -/
def stepDrive (s : State) (k n : Nat) : Nat :=
  let e := rd s F.KD_WAVE_ERASE_STEPS
  if k = 0 then (if n = 47 then 1 else 0)
  else if k ≤ e then (if n < 47 then 1 else 0)
  else if k < stepCount s - 1 then (if n < 47 && imageDark s n then 2 else 0)
  else (if n = 47 then 2 else 0)

/-- The drive of step k is applied and counted (R557); nothing is driven without D2 FIELD, and a limited output stays at
0 V (R610). -/
def applyStep (s : State) (k : Nat) : State :=
  let driven := (List.range 48).filter fun n => stepDrive s k n ≠ 0
  let t := driven.foldl (fun s n => bump s F.KD_CNT_COUNT n) s
  let t : State := { t with segDrive := driven.foldl (fun m n =>
    if domGood s 2 && !s.segLimited.contains n then sset m 0 n (stepDrive s k n) else m) [] }
  wr (wr t F.KD_STATUS_HOLDING 0 1) F.KD_STATUS_NEXT_STEP 0 (k + 1)

/-- STEP (R557, R610). -/
def opStep (s : State) (port k tail : Nat) : KRes × State :=
  if vfieldFault s then (KRes.refuse keSTATE, s)
  else if !(ownsUpdate s port && rd s F.KD_STATUS_NEXT_STEP == k && decide (k < stepCount s)) then (KRes.refuse keSEQUENCE, s)
  else if tail < 64 then (KRes.cut, s)
  else (KRes.ok, applyStep s k)

/-- TIME (R530). -/
def opTime (s : State) (seconds : Nat) : KRes × State :=
  (KRes.ok, fireProducer (wr (wr s F.KI_WALL_SECONDS 0 seconds) F.KI_POLLS_SINCE_TIME_COUNT 0 0) 150)

/-- The key pair of KRESET. -/
def kresetFirst : Nat := 0x4B454550
def kresetSecond : Nat := 0xB4BABAAF

/-- KRESET; `pend` where the port's previous transaction was a first KRESET (R529). -/
def opKreset (rst : KeeperRst → State → State) (s : State) (port data : Nat) (pend : Bool) : KRes × State :=
  if port = 1 then (KRes.refuse keBRIDGE, s)
  else if pend && data == kresetSecond then (KRes.ok, rst .keeper s)
  else if data = kresetFirst then (KRes.ok, s)
  else (KRes.refuse keSEQUENCE, s)

/-! ### Transactions -/

/-- The operation of an opcode (R526). -/
def keeperOp (rst : KeeperRst → State → State) (s : State) (port op addr data tail : Nat) (fast pend : Bool) : KRes × State :=
  match op with
  | 0x01 => opRead s addr tail
  | 0x02 => opWrite rst s addr data tail
  | 0x03 => opPoll s addr tail
  | 0x04 => opStep s port data tail
  | 0x05 => opTime s data
  | 0x06 => opNvwrite s port addr data tail fast
  | 0x0F => opKreset rst s port data pend
  | _ => (KRes.refuse keOPCODE, s)

/-- A transaction of a port that runs to its last CRC clock at least (R522 to R531): its CRC is checked; its operation runs;
the port keeps what the next status byte reports. -/
def keeperFrame (rst : KeeperRst → State → State) (s : State) (port op addr data tail : Nat) (fast crcOk : Bool) : State :=
  let k := kport s port
  let status := statusByte s port
  let s := portBegins s port
  if !crcOk then
    let s := capture (if k.kreset then lastErr s keSEQUENCE else s) 5 0
    setKport s port ⟨false, k.kreset, true, false, false, status, 0, []⟩
  else
    let second := k.kreset && op == 0x0F && data == kresetSecond && port == 0
    let (r, s) := keeperOp rst s port op addr data tail fast k.kreset
    let voided := k.kreset && !second
    let s := match r.refused with
      | some c => lastErr s c
      | none => if voided then lastErr s keSEQUENCE else s
    setKport s port ⟨r.abandoned, r.refused.isSome || voided, false, r.journalErr,
      op == 0x0F && data == kresetFirst && port == 0, status, r.data, if readType op then replyBytes op addr r.data else []⟩

/-! ### The bridge loses its transaction (R533) -/

/-- The bridge reports its transaction ABANDONED (R533). -/
def bridgeAbandoned (s : State) : State :=
  let s := wr (wr { s with kbrRun := none } F.KBR_STATUS_BUSY 0 0) F.GLB_STATUS_KEEPER_BUSY 0 0
  bump (wr (wr s F.KBR_STATUS_ABANDONED 0 1) F.KBR_STATUS_DONE 0 1) F.KBR_ABANDONS_COUNT

/-- KCSn rises for the keeper while a bridge transaction runs: the keeper abandons it where its clock stands, 19.53125 MHz from its
start, by R531 (R533). -/
def bridgeCut (rst : KeeperRst → State → State) (s : State) : State :=
  match s.kbrRun with
  | none => s
  | some r =>
    let clocks := (s.ns - r.start) * 5 / 256
    let n := frameClocks r.opcode
    let s := if clocks < n then keeperCut s 1
      else
        let s := keeperFrame rst s 1 r.opcode r.addr r.data (min (clocks - n) r.tail) false true
        setKport s 1 { kport s 1 with abandoned := true }
    if s.kbrRun.isSome then bridgeAbandoned s else s

/-- The bridge's transaction ends where its clock stands with the power of D4, which the bridge needs, or with a reset: a word whose
cell pulse this cuts short becomes undefined (R57, R531, R561; log 51). A reset that the transaction itself asked for is absorbed by
the one under way (R579). -/
def bridgeLost (s : State) : State := bridgeCut (fun _ s => s) s

end Sys2Proof.Machine
end

