-- ==== Sys2Proof/Machine/Power.lean ====
section
/-! DEFINITION. The power sequencer (spec/14, R547 to R553): domains that come up, go down or fail, what
each block loses with its domain, thermal warnings and trips, wakes. -/
namespace Sys2Proof.Machine

/-! ### What a block loses with its domain -/

/-- Return the registers of unit `n` of a block's outermost dimension to their Reset values. -/
def resetUnit (s : State) (b : Block) (n : Nat) : State :=
  (blockRegs b).foldl (fun s r =>
    let inner := r.dims.n2 * r.dims.n3
    if n < r.dims.n1 then
      (List.range inner).foldl (fun s j => resetFields s r.fields (n * inner + j)) s
    else s) s

/-- The link leaves DL_Active (R437); SPEED and WIDTH keep the last trained values (log 64). -/
def linkLoss (s : State) : State :=
  if isSet s F.HIF_LINK_STATUS_UP then
    setBit (bump (wr s F.HIF_LINK_STATUS_UP 0 0) F.HIF_LINK_DOWNS_COUNT) F.HIF_EVT_EVT 0 1
  else s

/-- The blocks that lie in D22 FABRIC (log 9). -/
def fabricBlocks : List Block := [.enc, .fcg, .trg, .pkt, .pod, .dma, .rng]

/-- What the blocks of D22 keep beside their registers goes. -/
def fabricLose (s : State) : State :=
  let s := memLose (fabricBlocks.foldl resetBlockRegs s) memLIST
  { s with
    frames := [], streams := [], pktPorts := [], tagQ := [], tagNext := 0, enc := [], po := [], cmpList := [], cmpHeld := none,
    cmpCur := [], cmpUpd := [], trg := [], pinAt := [], fcg := [], periodHeld := [], descs := [], dmaCh := [], dmaTurn := [], sdlvQ := [], sdlvRead := [], rings := [],
    recQ := [], podRuns := [], tracked := [], preVerdicts := [], keepWins := [], gateMid := [] }

/-- The timebase and the PLLs lose their state (log 50 for TB). -/
def timeLose (s : State) : State :=
  let s := setStatus s F.GLB_STATUS_REF_LANE_OK 1 false
  let s := setStatus s F.GLB_STATUS_TIMEREF_OK 3 false
  let s := setStatus s F.GLB_STATUS_PPS_OK 4 false
  { (resetBlockRegs s .tmb) with slew := 0, slewNext := 0, ppsGood := 0, ppsLast := 0 }

/-- The twin block loses its state. -/
def twinLose (s : State) : State :=
  { (resetBlockRegs s .twn) with twn := Twn.init, twnFcg := [], twnStreams := [] }

/-- The registers that pods have each lose their values. -/
def podRegsLose (s : State) (ks : List Nat) : State :=
  ks.foldl (fun s k => resetFields s
    [F.POD_BUSY_CYCLES_VALUE, F.POD_ACC_SAT_COUNT, F.POD_OUT_SAT_COUNT, F.POD_LSRAM_PAGE_PAGE] k) s

/-- The blocks of domain d lose their state, as in a power loss (R553). -/
def loseDomain (s : State) (d : Nat) : State :=
  if 6 ≤ d ∧ d ≤ 13 then setPrt (resetUnit s .prt (d - 6)) (d - 6) Prt.init
  else match d with
    | 2 => dropHold s
    | 4 => timeLose s
    | 5 => { (resetBlockRegs s .hif) with msix := [], pci := [], numVfs := 0, vfEnable := false }
    | 14 => resetBlockRegs s .rly
    | 15 => twinLose s
    | 16 => ispMemLost (resetUnit s .isp 0) 0
    | 17 => ispMemLost (resetUnit s .isp 1) 1
    | 18 => lsramLost (podRegsLose s [0, 1, 2, 3]) 18
    | 19 => lsramLost (podRegsLose s [4, 5, 6, 7]) 19
    | 20 => spmLost s
    | 21 => seqPowerDown s
    | 22 => fabricLose s
    | 23 => { (resetBlockRegs s .mem) with storeBuf := 0, burstPost := [] }
    | _ => s

/-- What the blocks of domain d do before they lose power (R547: R248 and R269, R271, R350, R395, R398, R434). -/
def beforeDown (s : State) (d : Nat) : State :=
  if 6 ≤ d ∧ d ≤ 13 then rxDisabled (wr s F.PRT_CFG_EN (d - 6) 0) (d - 6)
  else match d with
    | 5 => linkLoss s
    | 14 => (List.range 4).foldl (fun s k => relaySync (wr s F.RLY_CFG_EN k 0) k) s
    | 15 => rxDisabled (wr s F.TWN_CTL_EN 0 0) 8
    | 16 => ispPowerDown s 0
    | 17 => ispPowerDown s 1
    | 18 => podPowerDown s 18
    | 19 => podPowerDown s 19
    | 20 => podPowerDown s 20
    | 22 => dmaPowerDown s
    | _ => s

/-! ### Domains (R547) -/

/-- Domain d is to be powered, and its dependencies are good (R546, R547). -/
def mayPowerUp (s : State) (d : Nat) : Bool :=
  !s.aDieReset && switchable.testBit d && (effective s).testBit d && !domGood s d && (dependsOn d).all (domGood s)

/-- Every domain that depends on d is down. -/
def dependentsDown (s : State) (d : Nat) : Bool := (List.range 24).all fun e => !((dependsOn e).contains d && domGood s e)

/-- Domain d is to go down, and no domain needs it (R546, R547). -/
def mayPowerDown (s : State) (d : Nat) : Bool :=
  switchable.testBit d && domGood s d && !(effective s).testBit d && dependentsDown s d

/-- The power-up time of a domain, at most, in ns (R546). -/
def powerUpNs (d : Nat) : Nat :=
  match d with
  | 2 => 100000
  | 4 => 250000
  | 5 => 50000
  | 16 | 17 | 21 => 15000
  | 18 | 19 => 30000
  | 20 | 22 | 23 => 20000
  | _ => 10000

/-- The sequencer has domain d to switch: up, where its last try did not fail, or down. -/
def powerDue (s : State) (d : Nat) : Bool := (mayPowerUp s d && !hasBit s F.KP_FAIL_DOMAINS 0 d) || mayPowerDown s d

/-- The sequencer begins to switch what is due: at most 4 domains at once, in ascending domain number (R547). -/
def powerFill (s : State) : State :=
  let run := s.pwrRun.filter fun r => powerDue s r.1
  let next := (List.range 24).filter fun d => powerDue s d && !run.any fun r => r.1 == d
  { s with pwrRun := run ++ (next.take (4 - run.length)).map fun d => (d, s.ns) }

/-- The instant at which the switching of domain d began. -/
def powerSince (s : State) (d : Nat) : Option Nat := (s.pwrRun.find? fun r => r.1 == d).map (·.2)

/-- The wakes that waited for domain d end; their timeouts start (R476, R478). -/
def wakesEnd (s : State) (d : Nat) : State :=
  (List.range 64).foldl (fun s m =>
    if isSet s F.MBX_STAT_WAKING m && receiverDomain (rd s F.MBX_BIND_RECEIVER m) == some d then
      wr (setMbx s m { mbxAt s m with since := s.tb }) F.MBX_STAT_WAKING m 0
    else s) s

/-- Domain d reports power good (R547, R397; log 50 for TB). -/
def domainGood (s : State) (d : Nat) : State :=
  let s := pwrEvt (setGood s d true) 0
  let s : State := if d = 4 then
      let (v, t) := takeFree s 64
      setStatus { t with tb := v } F.GLB_STATUS_REF_LANE_OK 1 (!t.laneStopped)
    else s
  let s := wakesEnd s d
  let s := if d = 21 then seqPowerUp s else s
  if d = 23 ∧ isSet s F.MEM_CFG_AUTO_TRAIN then memTrain s else s


/-- Domain d, which the sequencer is powering up, reports power good within 10 times its power-up time (R547). -/
def domainUp (s : State) (d : Nat) : State :=
  let s := powerFill s
  if mayPowerUp s d && (powerSince s d).any (fun t => decide (s.ns ≤ t + 10 * powerUpNs d)) then powerFill (domainGood s d) else s

def execDomainPowerUp (d : Nat) (s : State) : Host.Outcome State Fault Refusal := onUnit d 24 s fun s => domainUp s d

/-- Domain d goes down: the blocks' actions, then their state is lost (R547, R398). -/
def domainDown (s : State) (d : Nat) : State :=
  let s := powerFill s
  if mayPowerDown s d && (powerSince s d).isSome then
    let s := loseDomain (beforeDown s d) d
    let s := if d = 4 then bridgeLost s else s
    let s := if d = 23 then wr s F.MEM_STATUS_STATE 0 4 else s
    powerFill (pwrEvt (setGood s d false) 1)
  else s

def execDomainPowerDown (d : Nat) (s : State) : Host.Outcome State Fault Refusal := onUnit d 24 s fun s => domainDown s d

/-- Domain d has not reported power good within 10 times its power-up time: it stays off; KP_FAIL and the capture POWER_FAIL
(R547). -/
def domainFail (s : State) (d : Nat) : State :=
  let s := powerFill s
  if mayPowerUp s d && (powerSince s d).any (fun t => decide (t + 10 * powerUpNs d ≤ s.ns)) then
    powerFill (pwrEvt (capture (setBit s F.KP_FAIL_DOMAINS 0 d) 4 0) 2)
  else s

def execDomainPowerFail (d : Nat) (s : State) : Host.Outcome State Fault Refusal := onUnit d 24 s fun s => domainFail s d

/-! ### Wakes (R488, R549) -/

/-- A write of 1s to PWR_WAKE_HELD releases the domains, but for those woken in the same instant (R549). -/
def wakeRelease (s : State) (mask : Nat) : State :=
  clearBits s F.PWR_WAKE_HELD_DOMAINS 0 (domMask ((List.range 24).filter fun d => mask.testBit d && !s.wokeNow.testBit d))

def execPwrWakeRelease (mask : Nat) (s : State) : Host.Outcome State Fault Refusal :=
  finish s (inReach 1 s fun s => wakeRelease s mask)

/-- A beacon event reaches PWR_WAKE: the domains of BCN_WAKE_c are woken (R488, R549). -/
def execPwrWakeEvent (ch : Nat) (s : State) : Host.Outcome State Fault Refusal :=
  onUnit ch 48 s fun s => beaconArrives s 51 (· == ch) (fun _ => false) fun ch s =>
    (List.range 24).foldl (fun s d => if hasBit s F.BCN_WAKE_DOMAINS ch d then wakeDomain s d else s) s

/-- A beacon event reaches KEEP_IRQ: KIRQn is low until the next POLL (R488, R541). -/
def execKeepIrqEvent (ch : Nat) (s : State) : Host.Outcome State Fault Refusal :=
  onUnit ch 48 s fun s => beaconArrives s 52 (· == ch) (fun s => s.keepIrq) fun _ s => { s with keepIrq := true }

/-! ### Thermal (R552, R553) -/

/-- Sensor k reaches WARN, or falls below it (R552). -/
def thermalWarn (s : State) (k : Nat) (hot : Bool) : State :=
  if s.hotMask.testBit k = hot then s
  else if hot then fireProducer (capture { s with hotMask := s.hotMask ||| 2 ^ k } 2 0) 144
  else { s with hotMask := s.hotMask - 2 ^ k }

def execThermalWarn (sensor : Nat) (hot : Bool) (s : State) : Host.Outcome State Fault Refusal :=
  onUnit sensor 5 s fun s => thermalWarn s sensor hot

/-- Every switchable domain goes at once, without the blocks' actions (R553); no self-refresh was entered, so the LP5X array
is lost (log 5, log 91). -/
def dropAllDomains (s : State) : State :=
  let s := (List.range 24).foldl (fun s d => if switchable.testBit d && domGood s d then loseDomain s d else s) s
  let s := bridgeLost s
  wr { (memLose s memLP5X) with lp5x := [], pwrRun := [] } F.KP_GOOD_DOMAINS 0 (rd s F.KP_GOOD_DOMAINS &&& 0xB)

/-- Sensor k reaches TRIP, or falls below TRIP − HYST (R553). -/
def thermalTrip (s : State) (k : Nat) (hot : Bool) : State :=
  if hot then
    let s := goDarkAll { s with nearTripMask := s.nearTripMask ||| 2 ^ k } 4 false
    let s := capture s 3 0
    let s := fireProducer (wr (dropAllDomains s) F.KT_STATUS_TRIPPED 0 1) 145
    if s.aDieReset then s else pwrEvt s 3
  else if s.nearTripMask.testBit k then { s with nearTripMask := s.nearTripMask - 2 ^ k }
  else s

def execThermalTrip (sensor : Nat) (hot : Bool) (s : State) : Host.Outcome State Fault Refusal :=
  onUnit sensor 5 s fun s => thermalTrip s sensor hot

end Sys2Proof.Machine
end

