-- ==== Sys2Proof/Machine/Reset.lean ====
section
/-! DEFINITION. The resets of the A-die and of the keeper, the loss of supplies, the start-up steps (spec/15, R559 to R575,
R579, R580), the die-to-die link and the references (R22 to R25, R31 to R34). -/
namespace Sys2Proof.Machine

/-! ### Die-to-die link and references -/

/-- A transfer fails its CRC and is retried, which RETRIES counts (R23). DESIGN CHOICE (log 69): while the link is declared down no
transfer is retried and none is counted; R23 says only "each retry". -/
def d2dRetry (s : State) : State := if isSet s F.GLB_STATUS_D2D_UP then bump s F.GLB_D2D_ERR_RETRIES else s

/-- The F-die declares the link down; while D4 is down the link is parked and R24 does not apply (R24, R550). -/
def d2dDown (s : State) : State :=
  if isSet s F.GLB_STATUS_D2D_UP && domGood s 4 then
    let s := capture (goDarkAll s 2 false) 0 0
    bump (setStatus s F.GLB_STATUS_D2D_UP 0 false) F.GLB_D2D_ERR_DOWN_EVENTS
  else s

/-- The link returns; outputs stay dark (R25). -/
def d2dReturn (s : State) : State :=
  if domGood s 4 && !s.aDieReset then setStatus s F.GLB_STATUS_D2D_UP 0 true else s

/-- The lane reference stops or the system PLL unlocks, also once more after it returned and before the warm reset: the outputs
go dark, REF_LANE_OK clears, a REF_LOSS capture is latched (R32). -/
def laneRefLoss (s : State) : State :=
  if domGood s 4 && (!s.laneStopped || isSet s F.GLB_STATUS_REF_LANE_OK) then
    let s := capture (goDarkAll s 3 false) 1 0
    { (setStatus s F.GLB_STATUS_REF_LANE_OK 1 false) with laneStopped := true }
  else s

/-- The lane reference returns and the system PLL relocks; the data plane resumes only after a warm reset (R32). -/
def laneRefReturn (s : State) : State :=
  if domGood s 4 && !s.aDieReset then setStatus s F.GLB_STATUS_REF_LANE_OK 1 true else s

/-- The PCIe reference is lost: the host link goes down (R34). -/
def pcieRefLoss (s : State) : State := setStatus (linkLoss s) F.GLB_STATUS_REF_PCIE_OK 2 false

/-- The PCIe reference returns and the host PLL relocks (R34). -/
def pcieRefReturn (s : State) : State := if s.aDieReset then s else setStatus s F.GLB_STATUS_REF_PCIE_OK 2 true

def execD2dRetry (s : State) : Host.Outcome State Fault Refusal := finish s (d2dRetry s)
def execD2dDown (s : State) : Host.Outcome State Fault Refusal := finish s (d2dDown s)
def execD2dReturn (s : State) : Host.Outcome State Fault Refusal := finish s (d2dReturn s)
def execLaneRefLoss (s : State) : Host.Outcome State Fault Refusal := finish s (laneRefLoss s)
def execLaneRefReturn (s : State) : Host.Outcome State Fault Refusal := finish s (laneRefReturn s)
def execPcieRefLoss (s : State) : Host.Outcome State Fault Refusal := finish s (pcieRefLoss s)
def execPcieRefReturn (s : State) : Host.Outcome State Fault Refusal := finish s (pcieRefReturn s)

/-! ### What an A-die reset does to the state -/

/-- A field of the keeper's registers. -/
def keeperFid (i : Nat) : Bool := decide ((blockFields .keep).1 ≤ i) && decide (i < (blockFields .keep).2)

/-- The fields beside the kept ones that a warm reset leaves: PWR_WAKE_HELD, the references and links, the host link and the
HIF counters (R572, R575). -/
def warmFields : List Field :=
  [F.PWR_WAKE_HELD_DOMAINS, F.GLB_STATUS_D2D_UP, F.GLB_STATUS_REF_LANE_OK, F.GLB_STATUS_REF_PCIE_OK,
   F.HIF_LINK_STATUS_UP, F.HIF_LINK_STATUS_SPEED, F.HIF_LINK_STATUS_WIDTH, F.HIF_BAD_ACCESS_COUNT,
   F.HIF_CPL_TIMEOUT_COUNT, F.HIF_POISONED_COUNT, F.HIF_LINK_DOWNS_COUNT, F.HIF_DB_ERR_COUNT, F.HIF_FLRS_COUNT]

/-- Every A-die register returns to its Reset value, but the kept ones and those of `also` (R572). -/
def aDieRegs (s : State) (also : List Field) : State :=
  { s with regs := sfilter (fun k => keeperFid (k % 1024) || keptFields.contains (k % 1024)
      || also.any fun f => f.fid == k % 1024) s.regs }

/-- What the blocks of the A-die hold beside registers and memories goes; the recipe code in program memory stays. -/
def aDieClear (s : State) : State :=
  { s with
    hiHeld := [], beacons := [], bcnBusy := [], mbx := [],
    cores := (List.range 8).foldl (fun m c => sset m SqCore.init c { SqCore.init with rom := (coreAt s c).rom }) [],
    hashDue := none, hashDirty := false, held := [], frames := [], streams := [], pktPorts := [], tagQ := [], tagNext := 0,
    enc := [], po := [], cmpHeld := none, cmpCur := [], cmpUpd := [], trg := [], pinAt := [], fcg := [], periodHeld := [], slew := 0, slewNext := 0,
    ppsGood := 0, ppsLast := 0, prt := [], lines := [], isp := [], ispMid := [], podRuns := [], tracked := [], preVerdicts := [],
    keepWins := [], gateMid := [], storeBuf := 0, burstPost := [], descs := [], dmaCh := [], dmaTurn := [], sdlvQ := [], sdlvRead := [],
    rings := [], recQ := [], twn := Twn.init, twnFcg := [], twnStreams := [] }

/-- The memories of the A-die but the LP5X array lose their contents (R573, R580; log 91). -/
def aDieMemLost (s : State) : State :=
  [memSPM, memDATA, memSHARED, memPROG, memISP 0, memISP 1, memLIST].foldl memLose
    { s with
      cores := [], prog := [], data := [], shared := [], cmpList := [], ispMem := [], lsram := [], spm := []
      lsramUsed := (List.range 8).map fun k => (k, true) }

/-- The configuration space and the MSI-X tables of every function return to their reset values (R573, R575). -/
def pciReset (s : State) : State := { s with msix := [], pci := [], numVfs := 0, vfEnable := false }

/-- CAUSE of GLB_RST_CAUSE. -/
def setCause (s : State) (cause : Nat) : State := wr s F.GLB_RST_CAUSE_CAUSE 0 cause

/-! ### Boot table and locks (R536, R537) -/

/-- The journal offset of the boot table's binding of mailbox m, and of the owner and attribute word of channel c. -/
def bootMbx (m : Nat) : Nat := 0x20400 + 4 * m
def bootBcn (c : Nat) : Nat := 0x20500 + 4 * c

def loadBindings (s : State) : State :=
  (List.range 64).foldl (fun s m => [F.MBX_BIND_SENDER, F.MBX_BIND_RECEIVER, F.MBX_BIND_ATTR].foldl (fun s f =>
    wr s f m (bitsOf (journalWord s (bootMbx m)) f.lo f.width)) s) s

def loadOwners (s : State) : State :=
  (List.range 48).foldl (fun s c => [F.BCN_CH_CFG_OWNER, F.BCN_CH_CFG_ATTR].foldl (fun s f =>
    wr s f c (bitsOf (journalWord s (bootBcn c)) f.lo f.width)) s) s

/-- Where BOOT_EN is 1 the boot table is loaded; where the device is LOCKED both locks are set (R536, R537, R564). -/
def bootLoad (s : State) : State :=
  let s := if isSet s F.KL_BOOT_BOOT_EN then loadOwners (loadBindings s) else s
  if isSet s F.KL_LIFECYCLE_LOCKED then wr (wr s F.KL_LOCKS_MBX 0 1) F.KL_LOCKS_BCN 0 1 else s

/-- Training starts where D23 has power and AUTO_TRAIN is 1 (R397, R571). -/
def autoTrain (s : State) : State := if isSet s F.MEM_CFG_AUTO_TRAIN then memTrain s else s

/-! ### Power-on reset of the A-die (R561, R563, R564, R580) -/

/-- The A-die enters power-on reset: it loses everything, and every field output goes dark (R561, R565). -/
def aDiePowerOn (s : State) : State :=
  let s := bridgeLost (goDarkAll s 6 false)
  let s := pciReset (aDieMemLost (aDieClear (aDieRegs s [])))
  let s := wr (wr s F.GLB_RST_CAUSE_WARM_COUNT 0 0) F.KP_GOOD_DOMAINS 0 (rd s F.KP_GOOD_DOMAINS &&& 0xB)
  dropHold { (memLose s memLP5X) with lp5x := [], pwrRun := [], laneStopped := false, aDieReset := true, aDieReleased := false }

def execRailOutOfRange (s : State) : Host.Outcome State Fault Refusal := finish s (aDiePowerOn s)

/-- VKEEP leaves its range: the keeper loses its registers, capture banks, ripple counters and ports, the field outputs go
high-impedance, the A-die enters power-on reset; the journal and what it holds stay (R561, R606, R611). -/
def vkeepLoss (s : State) : State :=
  let s := aDiePowerOn (goDarkAll s 6 true)
  let s := (List.range 48).foldl (fun s c => wr s F.FIO_CH_CFG_DARK_LEVEL c 1) s
  let s := dropHold (wr (resetBlockRegs s .keep) F.KP_GOOD_DOMAINS 0 (rd s F.KP_GOOD_DOMAINS))
  { s with captures := [], keepIrq := false, kports := [], dispActive := false, segLimited := [], keeperReady := false }

def execVkeepLoss (s : State) : Host.Outcome State Fault Refusal := finish s (vkeepLoss s)

/-- The keeper leaves its power-on reset: its registers hold their Reset values and what the journal keeps; KEEP_5 fires
where an update was cut short (R542, R562). -/
def keeperPor (s : State) : State :=
  if s.keeperReady then s
  else
    let s : State := { s with keeperReady := true }
    if isSet s F.KD_STATUS_DIRTY then fireProducer s 149 else s

def execKeeperPor (s : State) : Host.Outcome State Fault Refusal := finish s (keeperPor s)

/-- Rails, lane reference and keeper are ready: the A-die is released (R563; CAUSE as R568 says). -/
def aDieRelease (s : State) : State :=
  if s.aDieReset && s.keeperReady && !s.aDieReleased then setCause { s with aDieReleased := true } 0 else s

def execAdieRelease (s : State) : Host.Outcome State Fault Refusal := finish s (aDieRelease s)

/-- The cold-reset actions complete (R564): D4, the die-to-die link, the measured trigger path delay, the device number, TB,
the boot table and the locks; the power sequencer then takes over. -/
def aDieResetDone (s : State) (trgPs : Nat) : State :=
  if s.aDieReset && s.aDieReleased then
    let s : State := { s with aDieReset := false, aDieReleased := false, laneStopped := false, tb := 0 }
    let s := if domGood s 4 then s else pwrEvt (setGood s 4 true) 0
    let s := setStatus (setStatus s F.GLB_STATUS_REF_LANE_OK 1 true) F.GLB_STATUS_D2D_UP 0 true
    let s := wr (wr s F.GLB_D2D_DLY_TRG_PS 0 trgPs) F.GLB_UID_UID 0 (rd s F.KI_UID_UID)
    autoTrain (wr (refreshCopies (bootLoad s)) F.GLB_RST_STATUS_WARM_BUSY 0 0)
  else s

def execAdieResetDone (trgPs : Nat) (s : State) : Host.Outcome State Fault Refusal := finish s (aDieResetDone s trgPs)

/-! ### Warm and cold resets (R569 to R573, R579) -/

/-- The part that a warm and a cold reset share: the outputs go dark, every block of the A-die but what R572 names returns
to its reset state, the LP5X devices enter self-refresh. -/
def aDieWarm (s : State) (also : List Field) : State :=
  let s := bridgeLost (goDarkAll s 6 false)
  let s := refreshCopies (aDieClear (aDieRegs s also))
  let s := wr s F.MEM_STATUS_STATE 0 4
  wr { s with laneStopped := !isSet s F.GLB_STATUS_REF_LANE_OK } F.GLB_RST_STATUS_WARM_BUSY 0 1

/-- A warm reset with its CAUSE; a reset of equal or wider scope absorbs it (R572, R579). -/
def warmReset (s : State) (cause : Nat) : State :=
  if resetRunning s then s else bump (setCause (aDieWarm s warmFields) cause) F.GLB_RST_CAUSE_WARM_COUNT

/-- A cold reset with its CAUSE: a warm reset, and the memories but the LP5X array, the host link and the configuration
space are lost, and the actions of R564 follow (R573, R579). -/
def coldReset (s : State) (cause : Nat) : State :=
  if s.aDieReset then s
  else
    let s := pciReset (aDieMemLost (aDieWarm s [F.PWR_WAKE_HELD_DOMAINS, F.GLB_STATUS_REF_LANE_OK, F.GLB_STATUS_REF_PCIE_OK]))
    let s := wr (setCause s cause) F.GLB_RST_CAUSE_WARM_COUNT 0 0
    { s with aDieReset := true, aDieReleased := true }

/-- A write to GLB_RST_CTL: without the key it is discarded and sets KEY_ERR; COLD wins over WARM; during a reset a write
has no effect (R569 to R571). -/
def rstCtlWrite (s : State) (val : Nat) : State :=
  if resetRunning s then s
  else if bitsOf val 16 16 ≠ 0xA960 then wr s F.GLB_RST_STATUS_KEY_ERR 0 1
  else if val.testBit 1 then coldReset s 2
  else if val.testBit 0 then warmReset s 4
  else s

/-- WARM_RESET and COLD_RESET: a write of `val` to GLB_RST_CTL by the PF or a core. -/
def execWarmReset (_mid val : Nat) (s : State) : Host.Outcome State Fault Refusal := finish s (rstCtlWrite s val)
def execColdReset (_mid val : Nat) (s : State) : Host.Outcome State Fault Refusal := finish s (rstCtlWrite s val)

/-- A warm reset completes: bindings and owners reload, the locks are set, training follows (R571, R572). -/
def warmResetDone (s : State) : State :=
  if isSet s F.GLB_RST_STATUS_WARM_BUSY && !s.aDieReset then
    autoTrain (wr (bootLoad s) F.GLB_RST_STATUS_WARM_BUSY 0 0)
  else s

def execWarmResetDone (s : State) : Host.Outcome State Fault Refusal := finish s (warmResetDone s)

end Sys2Proof.Machine
end

