-- ==== Sys2Proof/Machine/Keeper.lean ====
section
/-! DEFINITION. The keeper's own reset, the bridge, and the rows of the keeper's ports (spec/14, R522 to R534; R574). -/
namespace Sys2Proof.Machine

/-- A keeper reset (R574): every register returns to its Reset value, TRIPPED among them (log 105); the journal, the display record and counters, the
captures and the domains' power good stay; a display hold ends and the update is abandoned; a LOCKED device follows with a
warm reset. -/
def keeperReset (s : State) : State :=
  let good := rd s F.KP_GOOD_DOMAINS
  let s := wr (dropHold (resetBlockRegs s .keep)) F.KP_GOOD_DOMAINS 0 good
  let s : State := { s with dispActive := false }
  if isSet s F.KL_LIFECYCLE_LOCKED then warmReset s 5 else s

/-- The resets that a keeper transaction makes (R529, R569, R574). -/
def keeperRsts (k : KeeperRst) (s : State) : State :=
  match k with
  | .warm => warmReset s 3
  | .cold => coldReset s 1
  | .keeper => keeperReset s

/-! ### The bridge (R532, R533) -/

/-- The external KCSn falls while a bridge transaction runs (R533). -/
def bridgeAbandon (s : State) : State := bridgeCut keeperRsts s

/-- KBR_CMD.GO (R532): CFG_ERR while BUSY; nothing without D4 TIME. -/
def kbrGo (s : State) : State :=
  if !domUp s 4 then s
  else if s.kbrRun.isSome then wr s F.KBR_STATUS_CFG_ERR 0 1
  else
    let r : KbrRun := ⟨rd s F.KBR_CMD_OPCODE, rd s F.KBR_CMD_ADDR, rd s F.KBR_WDATA_DATA, rd s F.KBR_TAIL_CLOCKS, s.ns⟩
    let s : State := { s with kbrRun := some r }
    wr (wr s F.KBR_STATUS_BUSY 0 1) F.GLB_STATUS_KEEPER_BUSY 0 1

def execKbrGo (_mid : Nat) (s : State) : Host.Outcome State Fault Refusal :=
  finish s (inReach 0 s kbrGo)

/-- KMISO at the last tail clock: it reports power good after a WRITE of KP_PROFILE or KP_REQ, and is high-impedance after
any other frame (R531, R548). -/
def tailKmiso (s : State) (r : KbrRun) : Nat × State :=
  if r.opcode = 2 ∧ (r.addr = 0x200 ∨ r.addr = 0x201) then
    ((decide ((rd s F.KP_GOOD_DOMAINS &&& switchable) = effective s)).toNat, s)
  else takeFree s 1

/-- Bytes that arrive with the bits of `flips` inverted; its bit 0 is the last bit sent. -/
def flipped (bs : List Nat) (flips : Nat) : List Nat :=
  bs.mapIdx fun i b => b ^^^ bitsOf flips (8 * (bs.length - 1 - i)) 8

/-- A bridge transaction ends (R532): the bridge builds its CRCs right. `flips` names the bits of a read-type frame's data and CRC
that arrive inverted: a read whose CRC fails sets RCRC_ERR. A transaction that reset the A-die reports nothing. -/
def kbrDone (s : State) (flips : Nat) : State :=
  match s.kbrRun with
  | none => s
  | some r =>
    if !domUp s 4 || s.laneStopped || !s.keeperReady then s
    else
      let s := keeperFrame keeperRsts s 1 r.opcode r.addr r.data r.tail false true
      if s.kbrRun.isNone then s
      else
        let k := kport s 1
        let s := wr (wr { s with kbrRun := none } F.KBR_STATUS_BUSY 0 0) F.GLB_STATUS_KEEPER_BUSY 0 0
        let s := if readType r.opcode then
            let rx := flipped k.reply flips
            let s := wr s F.KBR_RDATA_DATA 0 (ofBytes (rx.take 4).reverse)
            if crc8 (frameHead r.opcode r.addr ++ rx.take 4) = rx.getD 4 0 then s else wr s F.KBR_STATUS_RCRC_ERR 0 1
          else s
        let (b, s) := if r.tail = 0 then (rd s F.KBR_STATUS_TAIL_KMISO, s) else tailKmiso s r
        wr (wr (wr s F.KBR_STATUS_KSTAT 0 k.status) F.KBR_STATUS_TAIL_KMISO 0 b) F.KBR_STATUS_DONE 0 1

def execKbrDone (flips : Nat) (s : State) : Host.Outcome State Fault Refusal := finish s (kbrDone s flips)

/-! ### The rows of the keeper -/

/-- A transaction of port 0 (external) with the CRC byte `crc` abandons a bridge transaction and runs (R30, R524, R533); one of port 1 runs where the
bridge runs just it. -/
def portFrame (s : State) (port op addr data tail : Nat) (fast : Bool) (crc : Nat) : State :=
  if port = 0 then
    let s := bridgeAbandon s
    if s.keeperReady then keeperFrame keeperRsts s 0 op addr data tail fast (crc == sentCrc op addr data) else s
  else match s.kbrRun with
    | some r =>
      if r.opcode == op && (r.addr == addr || op == 4 || op == 5 || op == 0x0F) && (r.data == data || readType op)
          && r.tail == tail then
        kbrDone s 0
      else s
    | none => s

/-- The tail of a row that names none: none outside, and what the bridge's transaction carries, whose clocks are ignored
(R531). -/
def ownTail (s : State) (port : Nat) : Nat :=
  match s.kbrRun with
  | some r => if port = 0 then 0 else r.tail
  | none => 0

/-- A keeper row: its port is the external one or the bridge. -/
def onPort (port : Nat) (s : State) (f : State → State) : Host.Outcome State Fault Refusal := onUnit port 2 s f

def execRead (port addr tail : Nat) (crc : Nat) (s : State) : Host.Outcome State Fault Refusal :=
  onPort port s fun s => portFrame s port 1 (addr % 65536) 0 tail false crc

def execWrite (port addr data tail : Nat) (crc : Nat) (s : State) : Host.Outcome State Fault Refusal :=
  onPort port s fun s => portFrame s port 2 (addr % 65536) (data % 2 ^ 32) tail false crc

def execPoll (port max tail : Nat) (crc : Nat) (s : State) : Host.Outcome State Fault Refusal :=
  onPort port s fun s => portFrame s port 3 (max % 65536) 0 tail false crc

def execStep (port k tail : Nat) (crc : Nat) (s : State) : Host.Outcome State Fault Refusal :=
  onPort port s fun s => portFrame s port 4 0 (k % 2 ^ 32) tail false crc

def execTime (port seconds : Nat) (crc : Nat) (s : State) : Host.Outcome State Fault Refusal :=
  onPort port s fun s => portFrame s port 5 0 (seconds % 2 ^ 32) (ownTail s port) false crc

def execNvwrite (port addr data tail : Nat) (fast : Bool) (crc : Nat) (s : State) : Host.Outcome State Fault Refusal :=
  onPort port s fun s => portFrame s port 6 (addr % 65536) (data % 2 ^ 32) tail fast crc

def execKdIntent (port hash tail : Nat) (fast : Bool) (crc : Nat) (s : State) : Host.Outcome State Fault Refusal :=
  onPort port s fun s => portFrame s port 6 0x803 (hash % 2 ^ 32) tail fast crc

def execKdCommit (port hash tail : Nat) (fast : Bool) (crc : Nat) (s : State) : Host.Outcome State Fault Refusal :=
  onPort port s fun s => portFrame s port 6 0x804 (hash % 2 ^ 32) tail fast crc

def execKreset (port data : Nat) (crc : Nat) (s : State) : Host.Outcome State Fault Refusal :=
  onPort port s fun s => portFrame s port 0xF 0 (data % 2 ^ 32) (ownTail s port) false crc

/-- KCSn rises before the last CRC clock (R531); for the bridge, the external KCSn falls while its transaction runs (R533). -/
def execKeeperAbandon (port : Nat) (s : State) : Host.Outcome State Fault Refusal :=
  onPort port s fun s =>
    let s := bridgeAbandon s
    if port = 0 && s.keeperReady then keeperCut s 0 else s

/-- A WRITE whose CRC is right. -/
def goodWrite (s : State) (port addr data : Nat) : State :=
  portFrame s port 2 addr data (ownTail s port) false (sentCrc 2 addr data)

/-- WRITE to KP_RESET with WARM, and with COLD (R569, R570). -/
def execKpResetWarm (port key : Nat) (s : State) : Host.Outcome State Fault Refusal :=
  onPort port s fun s => goodWrite s port 0x208 (1 + key % 65536 * 65536)

def execKpResetCold (port key : Nat) (s : State) : Host.Outcome State Fault Refusal :=
  onPort port s fun s => goodWrite s port 0x208 (2 + key % 65536 * 65536)

/-- WRITE of 1s to KP_FAIL (R547). -/
def execKpFailClear (port mask : Nat) (s : State) : Host.Outcome State Fault Refusal :=
  onPort port s fun s => goodWrite s port 0x204 (mask % 2 ^ 32)

/-- WRITE of 1 to KT_STATUS.TRIP_CLR (R553). -/
def execTripClr (port : Nat) (s : State) : Host.Outcome State Fault Refusal :=
  onPort port s fun s => goodWrite s port 0x401 4

end Sys2Proof.Machine
end

