-- ==== Sys2Proof/Machine/BlockReset.lean ====
section
/-! DEFINITION. Block resets (spec/15, R576, R577, R579, R611), the completion of a tag (R297), and how an answer reaches a
sequencer core (R129, R141). -/
namespace Sys2Proof.Machine

/-! ### Answers to a core -/

/-- The result word of an action reaches core c (R129): rd, Z, the next instruction. -/
def answerCore (s : State) (c d word : Nat) : State :=
  let s := setFlags (setV s c d (BitVec.ofNat 64 word)) c { flagsOf s c with z := decide (word % 65536 = 0) }
  advance (resume s c) c

/-- A SYNC send of core c ends with a STATUS (R141). -/
def endSync (s : State) (c st : Nat) : State :=
  match (coreAt s c).stall with
  | .syncSend _ d => answerCore s c d st
  | _ => s

/-! ### Tag completion (R297) -/

/-- The tag queue releases a tag; the recipes count it (R69, R71, R297). -/
def tagComplete (s : State) : State :=
  match tagRelease s with
  | none => s
  | some (f, t) => burstsDone ((List.range 8).foldl (fun t c => recipeFrame t f c) t)

def execTagComplete (s : State) : Host.Outcome State Fault Refusal := finish s (inBlock 10 s tagComplete)

/-! ### What each block reset does (the table of R576) -/

/-- BCN: the events inside the matrix are discarded; owners reload. -/
def resetBcn (s : State) : State :=
  let s := resetBlockRegs { s with beacons := [] } .bcn
  if isSet s F.KL_BOOT_BOOT_EN then loadOwners s else s

/-- MBX: words are discarded, SYNC sends end with TIMEOUT; bindings reload. -/
def resetMbx (s : State) : State :=
  let s := (List.range 8).foldl (fun s c => endSync s c stTIMEOUT) s
  let s := resetBlockRegs { s with mbx := [] } .mbx
  if isSet s F.KL_BOOT_BOOT_EN then loadBindings s else s

/-- TMB: a pending load is cancelled, TB keeps counting. -/
def resetTmb (s : State) : State :=
  let s := resetBlockRegs { s with slew := 0, slewNext := 0, ppsGood := 0 } .tmb
  setStatus s F.GLB_STATUS_TIMEREF_OK 3 false

/-- TWN: the lane goes down, the logic returns to OFF. -/
def resetTwn (s : State) : State := twinLose (rxDisabled (wr s F.TWN_CTL_EN 0 0) 8)

/-- ENC: compare units disarmed; FCGs in LIST and LOCK mode stop; the compare list memory stays. -/
def resetEnc (s : State) : State :=
  let s := (List.range 4).foldl (fun s g => if rd s F.FCG_CFG_MODE g = 0 then s else fcgStop s g) s
  let s := resetBlockRegs { s with enc := [], po := [], cmpHeld := none, cmpCur := [], cmpUpd := [] } .enc
  [2, 5, 8, 11].foldl endReversed s

/-- FCG: every FCG stops. -/
def resetFcg (s : State) : State :=
  let s := (List.range 4).foldl fcgStop s
  resetBlockRegs { s with fcg := [], periodHeld := [] } .fcg

/-- TRG: held pulses are discarded, outputs at their inactive level. -/
def resetTrg (s : State) : State :=
  let s := (List.range 16).foldl (fun s n => discardPulses s n false) s
  resetBlockRegs { s with trg := [] } .trg

/-- FIO (R611): DARK_LEVEL and the dark states stay. -/
def resetFio (s : State) : State := resetBlockRegs s .fio

/-- Every tag that waits or is queued completes, oldest first. -/
def completeTags (s : State) : State :=
  let mine := s.frames.filter fun f => (f.phase == .closed || f.phase == .queued) && f.tent.isNone
  let s : State := { s with tagQ := mine.reverse.map fun f => (f.stream, f.seq) }
  mine.foldl (fun s _ => tagComplete { s with tagNext := 0 }) s

/-- PKT: open frames closed TRUNCATED, tags completed, every SEQ at 0. -/
def resetPkt (s : State) : State :=
  let s := completeTags (cutFrames s (fun _ => true) s.tb)
  resetBlockRegs { s with
    frames := s.frames.filter fun f => f.phase == .complete
    streams := [], pktPorts := [], tagQ := [], tagNext := 0 } .pkt

/-- RLY: the relays stop. -/
def resetRly (s : State) : State :=
  resetBlockRegs ((List.range 4).foldl (fun s k => relaySync (wr s F.RLY_CFG_EN k 0) k) s) .rly

/-- ISP p: pending and running frames BYPASSED; the tables and the map stay. -/
def resetIsp (s : State) (p : Nat) : State :=
  let s : State := ((ispAt s p).jobs).foldl (fun s j => ispBypass s p j) s
  let s := setIsp s p Isp.init
  resetUnit { s with ispMid := sfilter (fun i => i / 64 ≠ p) s.ispMid } .isp p

/-- POD: runs ABORTED, every tracked frame final by the deadline outcome; the memories stay. -/
def resetPod (s : State) : State :=
  let s := abortRuns s fun _ => true
  let s := (List.range 64).foldl gateDisable s
  resetBlockRegs { s with podRuns := [], tracked := [], preVerdicts := [], keepWins := [], gateMid := [] } .pod

/-- SQ: every core reset; the sequencer memories stay. -/
def resetSq (s : State) : State :=
  let s := (List.range 8).foldl coreReset s
  resetFields { s with hashDue := none, hashDirty := false }
    [F.SQ_HASH_CTL_BUSY, F.SQ_HASH_CTL_VALID, F.SQ_PROG_HASH_HASH] 0

/-- MEM: devices in self-refresh, STATE = OFF, region and burst state lost; the array stays. -/
def resetMem (s : State) : State := resetBlockRegs { s with storeBuf := 0, burstPost := [] } .mem

/-- RNG: every ring disabled, records due lost (R456). -/
def resetRng (s : State) : State := resetBlockRegs { s with rings := [], recQ := [] } .rng

/-- HIF: nothing ends; the link stays, the SAT counters clear. -/
def resetHif (s : State) : State :=
  let link := [F.HIF_LINK_STATUS_UP, F.HIF_LINK_STATUS_SPEED, F.HIF_LINK_STATUS_WIDTH]
  link.foldl (fun t f => wr t f 0 (rd s f)) (resetBlockRegs s .hif)

/-- GLB: the registers that the table names. -/
def resetGlb (s : State) : State :=
  resetFields s
    [F.GLB_SEC_ERR_MID, F.GLB_SEC_ERR_VALID, F.GLB_SEC_ERR_COUNT, F.GLB_SEC_ADDR_OFFSET, F.GLB_SEC_ADDR_IS_INDEX,
     F.GLB_D2D_ERR_RETRIES, F.GLB_D2D_ERR_DOWN_EVENTS, F.GLB_EVT_EVT, F.GLB_EVT_EN_EN, F.GLB_SCRATCH_VALUE] 0

/-- PRT n: link down; relays that source the port stop. -/
def resetPrt (s : State) (n : Nat) : State :=
  relaysSync (setPrt (resetUnit (rxDisabled (wr s F.PRT_CFG_EN n 0) n) .prt n) n Prt.init)

/-- The block of bit b ends its work and returns to its Reset values (R576). -/
def resetBlock (s : State) (b : Nat) : State :=
  match b with
  | 0 => resetBlockRegs (bridgeAbandon s) .kbr
  | 2 => resetBcn s
  | 3 => resetMbx s
  | 4 => resetTmb s
  | 5 => resetTwn s
  | 6 => resetEnc s
  | 7 => resetFcg s
  | 8 => resetTrg s
  | 9 => resetFio s
  | 10 => resetPkt s
  | 11 => resetRly s
  | 12 => resetIsp s 0
  | 13 => resetIsp s 1
  | 14 => resetPod s
  | 15 => resetSq s
  | 16 => resetBlockRegs (dmaPowerDown s) .dma
  | 17 => resetMem s
  | 18 => resetRng s
  | 19 => resetHif s
  | 20 => resetGlb s
  | b => if 21 ≤ b ∧ b ≤ 28 then resetPrt s (b - 21) else s

/-- A request to reset block b: bit 1 is ignored, a reset in progress absorbs it, a refused one changes nothing else; a block
without power is in its reset state already (R576, R577, R579; log 106 for a register write of the same cycle). -/
def blockReset (s : State) (b : Nat) : State :=
  if b = 1 ∨ 28 < b ∨ blkBusy s b then s
  else if b = 5 ∧ twnBusyState (twnState s) then wr s F.GLB_RST_STATUS_REFUSED 0 1
  else
    let s := if (bitDomain b).all (domGood s) then resetBlock (abortClaimants s b) b else s
    setBit s F.GLB_RST_STATUS_BLK_BUSY 0 b

/-- A write of `mask` to GLB_BLK_RST: its bits act in ascending order (R576, R624). -/
def blkRstWrite (s : State) (mask : Nat) : State :=
  if resetRunning s then s else (List.range 29).foldl (fun s b => if mask.testBit b then blockReset s b else s) s

def execBlockReset (_mid mask : Nat) (s : State) : Host.Outcome State Fault Refusal := finish s (blkRstWrite s mask)

/-- The reset of block b completes; LP5X trains by R397 after a MEM reset (R576). -/
def blockResetDone (s : State) (b : Nat) : State :=
  if blkBusy s b then
    let s := clearBits s F.GLB_RST_STATUS_BLK_BUSY 0 (2 ^ b)
    if b = 17 then autoTrain s else s
  else s

def execBlockResetDone (b : Nat) (s : State) : Host.Outcome State Fault Refusal := onUnit b 29 s fun s => blockResetDone s b

end Sys2Proof.Machine
end

