-- ==== Sys2Proof/Machine/Signal.lean ====
section
/-! DEFINITION. The register accesses of the beacon matrix and the mailboxes: configuration by owner, bindings, the mailbox
registers, the timeout (spec/12, R471 to R480, R489, R490). -/
namespace Sys2Proof.Machine

/-! ### Beacon channels -/

/-- A configuration write of a master that may not make it (R489). -/
def bcnRefuse (s : State) : State := setBit (bump s F.BCN_CFG_REFUSED_COUNT) F.BCN_EVT_EVT 0 2

/-- The PF or the keeper. -/
def ruler (mid : Nat) : Bool := mid == 0x00 || mid == 0x01

/-- Master `mid` may write the fields of channel c beside OWNER and ATTR (R489). -/
def bcnMay (s : State) (mid c : Nat) : Bool := ruler mid || (rd s F.BCN_CH_CFG_OWNER c == mid && mid ≠ 0x1F)

/-- A write of `val` to BCN_CH_CFG of channel c (R489). DESIGN CHOICE: an OWNER that names no master of the table of R39 is
stored like any other; R489 gives OWNER no range (log 71). -/
def bcnCfgWrite (s : State) (mid c val : Nat) : State :=
  let consumer := F.BCN_CH_CFG_CONSUMER.bits val
  let owner := F.BCN_CH_CFG_OWNER.bits val
  let attr := F.BCN_CH_CFG_ATTR.bits val
  if !bcnMay s mid c || decide (95 < consumer) then bcnRefuse s
  else
    let s := wr (wr s F.BCN_CH_CFG_EN c (val % 2)) F.BCN_CH_CFG_CONSUMER c consumer
    let s := wr s F.BCN_CH_CFG_FIRE_OWNER_ONLY c (F.BCN_CH_CFG_FIRE_OWNER_ONLY.bits val)
    if owner = rd s F.BCN_CH_CFG_OWNER c ∧ attr = rd s F.BCN_CH_CFG_ATTR c then s
    else if isSet s F.KL_LOCKS_BCN || !ruler mid then bcnRefuse s
    else wr (wr s F.BCN_CH_CFG_OWNER c owner) F.BCN_CH_CFG_ATTR c attr

/-- BCN_CFG_WRITE. -/
def execBcnCfgWrite (mid c val : Nat) (s : State) : Host.Outcome State Fault Refusal :=
  onUnit c 48 s fun s => inReach 2 s fun s => bcnCfgWrite s mid c val

/-- A write to word `y` of the enable mask of channel c; the bits of the producers 152 to 191 stay zero (R487, R489). -/
def bcnEnWrite (s : State) (mid c y val : Nat) : State :=
  if !bcnMay s mid c then bcnRefuse s
  else wr s F.BCN_EN_EN (6 * c + y) (if y = 5 then 0 else if y = 4 then val % 2 ^ 24 else val)

/-- A write to BCN_WAKE of channel c (R489). -/
def bcnWakeWrite (s : State) (mid c val : Nat) : State :=
  if !bcnMay s mid c then bcnRefuse s else wr s F.BCN_WAKE_DOMAINS c val

/-- BCN_FIRE_WRITE: each bit is a request of its own (R490). -/
def execBcnFireWrite (mid mask : Nat) (s : State) : Host.Outcome State Fault Refusal :=
  finish s (inReach 2 s fun s => fireMask s mid mask)

/-- BCN_CMD.CLR_COUNTS (R17). -/
def bcnClear (s : State) : State :=
  clearAll ((List.range 48).foldl (fun s c => wr s F.BCN_FIRES_COUNT c 0) s) [F.BCN_FIRE_REFUSED_COUNT, F.BCN_CFG_REFUSED_COUNT] 0

def execBcnClrCounts (s : State) : Host.Outcome State Fault Refusal := finish s (inReach 2 s bcnClear)

/-! ### The twin's control register -/

/-- TWN_CTL_WRITE: the receive lane of the twin link runs while EN is 1, and the transmit lane starts with it (R244, R491, R492, R498; log 43). -/
def twnCtlRun (s : State) (val : Nat) : State :=
  let t := twnCtlWrite s val
  match isSet s F.TWN_CTL_EN, isSet t F.TWN_CTL_EN with
  | false, true => rxEnabled (lineStart t twinLine) 8
  | true, false => rxDisabled t 8
  | _, _ => t

def execTwnCtlWrite (val : Nat) (s : State) : Host.Outcome State Fault Refusal := finish s (inReach 5 s fun s => twnCtlRun s val)

/-! ### Mailboxes -/

/-- A MID that a mailbox may bind (R472). -/
def bindMid (mid : Nat) : Bool := decide (mid ≤ 0x08) || (decide (0x10 ≤ mid) && decide (mid ≤ 0x18)) || mid == 0x1F

/-- A binding that R472 refuses. -/
def bindBad (s : State) (m sender receiver attr : Nat) : Bool :=
  !bindMid sender || !bindMid receiver || (sender == receiver && sender ≠ 0x1F)
  || (attr == 0 && (isOpen sender || isOpen receiver)) || isSet s F.MBX_STAT_FULL m

/-- A write of `val` to MBX_BIND of mailbox m (R472). DEDUCED: a write of a master other than the PF and the keeper sets
BIND_ERR too (log 77). -/
def bindWrite (s : State) (mid m val : Nat) : State :=
  let sender := F.MBX_BIND_SENDER.bits val
  let receiver := F.MBX_BIND_RECEIVER.bits val
  let attr := F.MBX_BIND_ATTR.bits val
  if sender = rd s F.MBX_BIND_SENDER m ∧ receiver = rd s F.MBX_BIND_RECEIVER m ∧ attr = rd s F.MBX_BIND_ATTR m then s
  else if isSet s F.KL_LOCKS_MBX || !ruler mid || bindBad s m sender receiver attr then setBit s F.MBX_EVT_EVT 0 3
  else wr (wr (wr s F.MBX_BIND_SENDER m sender) F.MBX_BIND_RECEIVER m receiver) F.MBX_BIND_ATTR m attr

def execMbxBindWrite (mid m val : Nat) (s : State) : Host.Outcome State Fault Refusal :=
  onUnit m 64 s fun s => inReach 3 s fun s => bindWrite s mid m val

/-- SYNC sends to mailbox m end with a STATUS (R141). -/
def syncsEnd (s : State) (m st : Nat) : State :=
  (List.range 8).foldl (fun s c => match (coreAt s c).stall with
    | .syncSend m' _ => if m' = m then endSync s c st else s
    | _ => s) s

/-- SYNC_SEND_END: the mailbox that the core's SYNC send filled is empty: its receiver has read the word (R141). -/
def syncSendEnd (s : State) (c : Nat) : State :=
  match (coreAt s c).stall with
  | .syncSend m _ => if isSet s F.MBX_STAT_FULL m then s else endSync s c stOK
  | _ => s

def execSyncSendEnd (c : Nat) (s : State) : Host.Outcome State Fault Refusal :=
  onUnit c 8 s fun s => if blockWorks s 15 && blockWorks s 3 then syncSendEnd s c else s

/-- A MBX packet arrives (R520). Where NAK_FULL empties the mailbox of a SYNC send, the specification names no STATUS: the
send ends with a free one (log 53). -/
def twnMbxArrives (s : State) (p : List Nat) : State :=
  let m := leField p 0 1
  let t := mbxRx s p
  if leField p 1 1 = 3 ∧ isSet s F.MBX_STAT_FULL m ∧ ¬ isSet t F.MBX_STAT_FULL m then
    let (v, t) := takeFree t 8
    syncsEnd t m v
  else t

def execTwnMbxRx (pkt : List Nat) (s : State) : Host.Outcome State Fault Refusal :=
  finish s (inBlock 5 s fun s => twnRx s tpMBX pkt twnMbxArrives)

/-- MBX_DATA_READ (R474). -/
def execMbxDataRead (mid m : Nat) (s : State) : Host.Outcome State Fault Refusal :=
  onUnit m 64 s fun s => inReach 3 s fun s => (mbxReceive s mid m).2

/-- A master that may read MBX_PEEK and MBX_STAT of mailbox m and clear its W1C bits (R471). -/
def mbxSees (s : State) (mid m : Nat) : Bool := mid == 0x01 || isSender s mid m || isReceiver s mid m

/-- A write of `val` to MBX_STAT of mailbox m: the W1C bits for a master that may clear them, the withdrawal for the sender
(R471, R475). -/
def mbxStatWrite (s : State) (mid m val : Nat) : State :=
  let sees := mbxSees s mid m
  let s := if sees then clearBits (clearBits s F.MBX_STAT_SEND_OVERRUN m (bitOf val 1)) F.MBX_STAT_TIMEOUT m (bitOf val 2) else s
  if val.testBit 4 then (mbxWithdraw s mid m).2 else if sees then s else mbxRefuse s mid m

/-- The timeout of mailbox m is due: FULL, no wake under way, its time in TB reached and not yet reported (R476). -/
def mbxDue (s : State) (m : Nat) : Bool :=
  isSet s F.MBX_STAT_FULL m && !isSet s F.MBX_STAT_WAKING m
  && decide ((mbxAt s m).since + rd s F.MBX_TMO_US m * 1000 ≤ s.tb)

/-- The instant that marks a timeout already reported: no TB reaches it. -/
def mbxNever : Nat := 2 ^ 65

/-- The timeout of mailbox m expires (R476, R481, R141). -/
def mbxTimeout (s : State) (m : Nat) : State :=
  if !mbxDue s m then s
  else
    let s := setMbx s m { mbxAt s m with since := mbxNever }
    let s := setBit (bump (wr s F.MBX_STAT_TIMEOUT m 1) F.MBX_TMO_CNT_COUNT m) F.MBX_EVT_EVT 0 1
    mbxProducers (syncsEnd s m stTIMEOUT) m F.MBX_PROD_CFG_ON_TIMEOUT

/-- MBX_CMD.CLR_COUNTS (R17). -/
def mbxCountsClear (s : State) : State :=
  wr ((List.range 64).foldl (fun s m => clearAll s [F.MBX_OVR_CNT_COUNT, F.MBX_TMO_CNT_COUNT] m) s) F.MBX_REFUSED_COUNT 0 0

def execMbxClrCounts (s : State) : Host.Outcome State Fault Refusal := finish s (inReach 3 s mbxCountsClear)

end Sys2Proof.Machine
end

