-- ==== Sys2Proof/Machine/RegRules.lean ====
section
/-! DEFINITION. What a write to the fields of a BAR 0 register obeys: who owns a field (R51), which values it takes (R623 and
the rules that name a further range), when a block freezes it, and which CFG_ERR reports a refused one. -/
namespace Sys2Proof.Machine

/-- A write that reaches a register: the master, the instance, the bits it covers over the register's whole width, and the
value it carries there. -/
structure Wr where
  mid : Nat
  inst : Nat
  mask : Nat
  val : Nat
  deriving DecidableEq, Repr

/-- The value a field takes from a write: the bits the write covers, the others kept. -/
def Wr.into (w : Wr) (s : State) (f : Field) : Nat :=
  let m := bitsOf w.mask f.lo f.width
  Nat.bitwise (fun a b => a && !b) (rd s f w.inst) m ||| (f.bits w.val &&& m)

/-- A field is among those of a list. -/
def Field.isIn (f : Field) (fs : List Field) : Bool := fs.any fun g => g.fid == f.fid

/-! ### Ownership (R51) -/

/-- The SSI fields that a preset owns (R174). -/
def ssiOwned : List Field :=
  [F.ENC_SSI_FRAME_WLEN, F.ENC_SSI_FRAME_POS_LSB, F.ENC_SSI_FRAME_POS_BITS, F.ENC_SSI_FRAME_GRAY, F.ENC_SSI_STAT_ERR_BIT,
   F.ENC_SSI_STAT_ERR_EN, F.ENC_SSI_STAT_ERR_LOW, F.ENC_SSI_STAT_WARN_BIT, F.ENC_SSI_STAT_WARN_EN, F.ENC_SSI_STAT_WARN_LOW,
   F.ENC_SSI_CRC_POLY, F.ENC_SSI_CRC_LEN, F.ENC_SSI_CRC_INIT_INIT, F.ENC_SSI_CRC_INIT_XOROUT, F.ENC_SSI_TIMING_CLKDIV,
   F.ENC_SSI_TIMING_DELAY, F.ENC_SSI_TIMING_TIMEOUT_US, F.ENC_SSI_PERIOD_PERIOD]

/-- An automatic mode owns instance `i` of a field (R51): AUTO_FILTER (R154), an SSI preset (R174), a loop that is closed on
the channel (R175), TMB_CTL.AUTO and the twin (R200), the automatic equaliser and phase (R255), a burst that froze its stream
(R408), a context preset (R313). -/
def ownedField (s : State) (f : Field) (i : Nat) : Bool :=
  if f.fid = F.ENC_CFG_FILTER_N.fid then isSet s F.ENC_CFG_AUTO_FILTER i
  else if f.isIn ssiOwned then isSet s F.ENC_SSI_FRAME_PRESET i
  else if f.fid = F.ENC_MEAS_CFG_MOTION_EXPECTED.fid then !(lockedOn s i).isEmpty
  else if f.fid = F.TMB_CTL_TIMEREF_EN.fid then isSet s F.TMB_CTL_AUTO
  else if f.fid = F.TMB_CTL_PPS_EN.fid then isSet s F.TMB_CTL_AUTO || twnState s == twALIGN || twnState s == twWATCH
  else if f.fid = F.PRT_LANE_EQ_CTLE.fid then isSet s F.PRT_EQ_CFG_AUTO (i / 4)
  else if f.fid = F.PRT_LANE_EQ_PHASE.fid then isSet s F.PRT_EQ_CFG_PHASE_AUTO (i / 4)
  else if f.fid = F.TWN_RX_EQ_CTLE.fid then isSet s F.TWN_RX_CFG_AUTO
  else if f.fid = F.TWN_RX_EQ_PHASE.fid then isSet s F.TWN_RX_CFG_PHASE_AUTO
  else if f.fid = F.PKT_SCFG_GATING.fid then burstState s i == 3
  else f.isIn presetFields && isSet s F.ISP_CTX_CFG_PRESET i

/-! ### Values refused beyond the stated range -/

/-- An injection exponent: 0, or 4 to 40 (R260). -/
def injBad (v : Nat) : Bool := v ≠ 0 && !expOn v

/-- FMIN, FMAX and FSAFE of a running FCG would no longer satisfy FMIN ≤ FSAFE ≤ FMAX (R223). -/
def limitBad (s : State) (f : Field) (g v : Nat) : Bool :=
  let at' (k : Field) := if f.fid = k.fid then v else rd s k g
  fcgRuns s g && (decide (at' F.FCG_FMAX_VALUE < at' F.FCG_FMIN_VALUE) || decide (at' F.FCG_FSAFE_VALUE < at' F.FCG_FMIN_VALUE)
    || decide (at' F.FCG_FMAX_VALUE < at' F.FCG_FSAFE_VALUE))

/-- The value `v` of a field is one its chapter refuses, beyond its stated range: SSI on ENC0 and ENC1 (R167), the FCG's
limits (R223), injection (R260), the header form of a port in use and its reply VC, WDOG, WIDTH (R286), FRAME_PHASE,
DEF_LEN, CFA_PHASE (R309), BLEND (R318: up to the lower THR) and SLOT_LOG2 (R332) of a pipeline context, OFFSET of POD_AUTO_LIST (spec/09), XFORM of a delivery (R417), INLINE_ECC (R401), SLOT_LOG2 (R404), a VF's VECTOR (R445). -/
def extraBad (s : State) (w : Wr) (f : Field) (v : Nat) : Bool :=
  let i := w.inst
  if f.fid = F.ENC_CFG_MODE.fid then v == 5 && decide (i < 2)
  else if f.isIn [F.FCG_FMIN_VALUE, F.FCG_FMAX_VALUE, F.FCG_FSAFE_VALUE] then limitBad s f i v
  else if f.isIn [F.PRT_UL_CFG_INJ_EXP, F.TWN_TX_CFG_INJ_EXP] then injBad v
  else if f.fid = F.RLY_INJ_EXP.fid then injBad v || (v ≠ 0 && rd s F.RLY_CFG_SRC i == 0)
  else if f.fid = F.PKT_PORT_CFG_HDR_FORM.fid then
    (List.range 64).any fun k => isSet s F.PKT_MAP_EN k && rd s F.PKT_MAP_PORT k == i
  else if f.fid = F.PKT_PORT_CFG_REPLY_VC.fid then isSet s F.PKT_PORT_CFG_HDR_FORM i && decide (3 < v)
  else if f.fid = F.PKT_WDOG_NS.fid then v ≠ 0 && (decide (v < 1000) || decide (4000000000 < v))
  else if f.fid = F.PKT_GEOM_WIDTH.fid then
    match dtFormat (rd s F.PKT_MAP_DT i) with
    | some (_, g) => v % g ≠ 0
    | none => false
  else if f.fid = F.POD_AUTO_LIST_OFFSET.fid then v % 64 ≠ 0
  else if f.fid = F.ISP_CTX_SRC_FRAME_PHASE.fid then decide (rd s F.ISP_CTX_SRC_FRAME_DIV i ≤ v)
  else if f.fid = F.ISP_CTX_DEF_LEN_DEF_LEN.fid then decide (65536 < v + rd s F.ISP_CTX_DEFECT_DEF_BASE i)
  else if f.fid = F.ISP_CTX_CFG_CFA_PHASE.fid then decide (tileSide (rd s F.ISP_CTX_CFG_MOSAIC i) ^ 2 ≤ v)
  else if f.fid = F.ISP_CTX_BLEND_VALUE.fid then
    decide (min (rd s F.ISP_CTX_THR_VALUE (2 * i)) (rd s F.ISP_CTX_THR_VALUE (2 * i + 1)) < v)
  else if f.fid = F.ISP_CTX_OUT_SIZE_SLOT_LOG2.fid then decide (rd s F.ISP_CTX_OUT_SIZE_SIZE_LOG2 i < v)
  else if f.fid = F.DMA_SDLV_CFG_XFORM.fid then !xParOk (v % 16) (v / 16)
  else if f.fid = F.MEM_CFG_INLINE_ECC.fid then rd s F.MEM_STATUS_STATE == 2
  else if f.fid = F.MEM_SREG_CFG_SLOT_LOG2.fid then decide (rd s F.MEM_SREG_CFG_SIZE_LOG2 i < v)
  else f.fid == F.RNG_IRQ_VECTOR.fid && fnOf w.mid ≠ 0 && decide (63 < v)

/-! ### CFG_ERR -/

/-- The error that reports a refused field of instance `i` of register `r`, in the words of each chapter's register tables;
TMB, HIF, SQ and GLB have none (log 52). -/
def cfgErr (s : State) (r : Reg) (i : Nat) : State :=
  let u := i / (r.dims.n2 * r.dims.n3)
  match blockAt r.off with
  | some .kbr => wr s F.KBR_STATUS_CFG_ERR 0 1
  | some .mbx => setBit s F.MBX_EVT_EVT 0 4
  | some .twn => twnEvt s 13
  | some .enc =>
    if r.off < 0x84000 then encEvt s u 11
    else if r.off < 0x85000 then s
    else if r.off < 0x86000 then wr s F.PO_STATUS_CFG_ERR u 1
    else setBit s F.CMP_EVT_EVT u 5
  | some .fcg => fcgEvt s u 12
  | some .trg => trgEvt s (if r.off < 0xB1000 then u else 2 * u) 7
  | some .fio => setBit s F.FIO_EVT_EVT 0 4
  | some .prt => prtEvt s u 11
  | some .rly => setBit s F.RLY_EVT_EVT u 2
  | some .pkt => if r.off < 0x1C8000 then pevt s u 7 else if r.off < 0x1D0000 then sevt s u 4 else s
  | some .isp => ispEvt s u 6
  | some .pod => podEvt s 4
  | some .dma => if r.off < 0x1208000 then dmaEvt s u 8 else dmaEvt s (rd s F.DMA_SDLV_CFG_CHANNEL u) 8
  | some .mem => memEvt s 5
  | some .rng => ringCfgErr s u
  | _ => s

/-! ### Frozen fields -/

/-- Whether CFG_ERR reports a write that a frozen register discards: never, where it would change a field, or always
(log 90). -/
inductive FrozenErr where
  | never | change | always
  deriving DecidableEq, Repr

/-- While `cond` holds, a write leaves every field of `reg` but `exempt` as it is, with the CFG_ERR of `err`. -/
structure Frozen where
  reg : Reg
  cond : State → Wr → Bool
  exempt : List Field
  err : FrozenErr

def Frozen.whileSet (r : Reg) (f : Field) (exempt : List Field) : Frozen := ⟨r, fun s w => isSet s f w.inst, exempt, .change⟩

/-- An enabled register whose write keeps EN set (R252, R272). -/
def Frozen.whileKept (r : Reg) (en : Field) : Frozen :=
  ⟨r, fun s w => isSet s en w.inst && w.into s en ≠ 0, [en], .change⟩

/-- Some output that a TRG register affects is not idle: every write that is discarded sets CFG_ERR (R234). A write to TRG_CFG
whose other fields stand as they are is a write to LEVEL alone. -/
def Frozen.trg (r : Reg) (outs : State → Nat → List Nat) (exempt : List Field) : Frozen :=
  ⟨r, fun s w => (outs s w.inst).any fun n => !trgIdle s n, exempt, if exempt.isEmpty then .always else .change⟩

def Frozen.fcg (r : Reg) : Frozen := ⟨r, fun s w => fcgRuns s w.inst, [], .never⟩

def Frozen.cmp (r : Reg) : Frozen := ⟨r, fun s w => isSet s F.CMP_STATUS_ARMED w.inst, [], .never⟩

/-- The rules that freeze fields: R189, R192 (CMP), R204, R223 (FCG), R234 (TRG), R252, R272 (ports and relays), R286 (PKT),
R392 (POD), R405, R409 (MEM), the tables of DMA_SDLV and TWN, R451 (RNG). -/
def frozenRules : List Frozen :=
  [.fcg R.FCG_CFG, .fcg R.FCG_PORTS, .fcg R.FCG_C, .fcg R.FCG_START_TB, .fcg R.FCG_TRIG_ID,
   .cmp R.CMP_CFG, .cmp R.CMP_BASE, .cmp R.CMP_LEN, .cmp R.CMP_OFFSET, .cmp R.CMP_PERIOD,
   .trg R.TRG_CFG outsOf [F.TRG_CFG_LEVEL], .trg R.TRG_DELAY outsOf [], .trg R.TRG_WIDTH outsOf [], .trg R.TRG_FLOOR outsOf [],
   .trg R.TRG_PAIR_CFG (fun _ p => [2 * p, 2 * p + 1]) [],
   .whileKept R.PRT_CFG F.PRT_CFG_EN, .whileKept R.RLY_CFG F.RLY_CFG_EN] ++
  [.whileSet R.PKT_GEOM F.PKT_MAP_EN [], .whileSet R.PKT_SEQ F.PKT_MAP_EN [],
   .whileSet R.PKT_SCFG F.PKT_MAP_EN [F.PKT_SCFG_GATING],
   .whileSet R.POD_GATE_DEADLINE F.POD_GATE_CFG_EN [], .whileSet R.POD_GATE_WIN F.POD_GATE_CFG_EN [],
   .whileSet R.POD_AUTO_LIST F.POD_GATE_CFG_EN [],
   .whileSet R.DMA_SDLV_CFG F.DMA_SDLV_CFG_EN [F.DMA_SDLV_CFG_EN], .whileSet R.DMA_SDLV_RINGS F.DMA_SDLV_CFG_EN [],
   .whileSet R.MEM_SREG_BASE F.MEM_SREG_CFG_EN [],
   .whileSet R.MEM_SREG_CFG F.MEM_SREG_CFG_EN [F.MEM_SREG_CFG_EN, F.MEM_SREG_CFG_DROP_SEEN, F.MEM_SREG_CFG_FROZEN_SEEN],
   .whileSet R.MEM_BURST_CFG F.MEM_BURST_CFG_STATE [], .whileSet R.MEM_BURST_PRE F.MEM_BURST_CFG_STATE [],
   .whileSet R.MEM_BURST_POST F.MEM_BURST_CFG_STATE [], .whileSet R.RNG_BASE F.RNG_CFG_EN [], .whileSet R.RNG_WB F.RNG_CFG_EN [],
   ⟨R.TWN_STREAMS, fun s _ => twnBusyState (twnState s), [], .change⟩,
   ⟨R.TWN_FOG_PERIOD, fun s _ => twnBusyState (twnState s), [], .change⟩]

/-! ### Applying the fields of a write -/

/-- Apply a write to one field by its type (R17, R51, R623); with the state, whether the value was refused. -/
def putField (w : Wr) (a : Bool × State) (f : Field) : Bool × State :=
  let (err, s) := a
  let v := f.bits w.val &&& bitsOf w.mask f.lo f.width
  match f.ty with
  | .w1c => (err, clearBits s f w.inst v)
  | .w1s => (err, wr s f w.inst (rd s f w.inst ||| v))
  | .rw =>
    let n := w.into s f
    if n = rd s f w.inst ∨ ownedField s f w.inst then a
    else if n < f.least || f.greatest < n || extraBad s w f n then (true, s)
    else (err, wr s f w.inst n)
  | _ => a

/-- The fields of a register in the order in which a write applies them: a field that turns an automatic mode on or off
before those it owns (R51). -/
def writeOrder (r : Reg) : List Field :=
  if r.rid = R.ENC_SSI_FRAME.rid then F.ENC_SSI_FRAME_PRESET :: r.fields else r.fields

/-- A write would change a field that it may not. -/
def wouldChange (s : State) (w : Wr) (fs : List Field) : Bool :=
  fs.any fun f => f.ty == .rw && w.into s f ≠ rd s f w.inst

/-- Apply a write to the fields of a register, but for those that are frozen; CFG_ERR once where any was refused. -/
def putFields (s : State) (r : Reg) (w : Wr) : State :=
  match frozenRules.find? fun z => z.reg.rid == r.rid && z.cond s w with
  | some z =>
    let (err, t) := ((writeOrder r).filter (·.isIn z.exempt)).foldl (putField w) (false, s)
    let reported := match z.err with
      | .never => false
      | .change => wouldChange s w (r.fields.filter fun f => !f.isIn z.exempt)
      | .always => true
    if err || reported then cfgErr t r w.inst else t
  | none =>
    let (err, t) := (writeOrder r).foldl (putField w) (false, s)
    if err then cfgErr t r w.inst else t

end Sys2Proof.Machine
end

