-- ==== Sys2Proof/Machine/RegWrite.lean ====
section
/-! DEFINITION. A write to a BAR 0 register: the writes a block discards whole, what follows from a field's new value, the
command bits (R17, R51, R622 to R624 and the rules of each chapter). -/
namespace Sys2Proof.Machine

/-! ### Writes discarded whole -/

/-- GEN = 0 with RATE = 46 (spec/06). -/
def genRateBad (s : State) (gen rate : Field) (i : Nat) : Bool := rd s gen i == 0 && rd s rate i == 46

/-- A field changes from 0 in `s` to 1 in `t`. -/
def rises (s t : State) (f : Field) (i : Nat) : Bool := !isSet s f i && isSet t f i

/-- A field changes from 1 in `s` to 0 in `t`. -/
def falls (s t : State) (f : Field) (i : Nat) : Bool := isSet s f i && !isSet t f i

/-- A register whose write is discarded whole, with its CFG_ERR, for what it would lead to from `s` to `t` at instance i. -/
structure Veto where
  reg : Reg
  bad : State → State → Nat → Bool

/-- EN of a trigger pair is refused (R231). -/
def pairRefused (s t : State) (p : Nat) : Bool :=
  rises s t F.TRG_PAIR_CFG_EN p && (rd t F.TRG_CFG_MODE (2 * p) ≠ rd t F.TRG_CFG_MODE (2 * p + 1)
    || rd t F.TRG_CFG_POL (2 * p) ≠ rd t F.TRG_CFG_POL (2 * p + 1)
    || !(rd t F.TRG_CFG_SRC (2 * p) == 1 || rd t F.TRG_CFG_SRC (2 * p) == 2 || rd t F.TRG_CFG_SRC (2 * p) == 3))

/-- A relay loops onto its own source port (R261). -/
def loopRefused (t : State) (k : Nat) : Bool :=
  rd t F.RLY_CFG_LOOP k ≠ 0 && rd t F.RLY_CFG_SRC k == 0 && rd t F.RLY_CFG_SRC_PORT k == k + 4 * rd t F.RLY_CFG_LOOP_PORT k

/-- R231, R261, R266, R405, R497. -/
def vetoes : List Veto :=
  [⟨R.TRG_PAIR_CFG, pairRefused⟩, ⟨R.RLY_CFG, fun _ t k => loopRefused t k⟩,
   ⟨R.PRT_PWR_CFG, fun _ t n => isSet t F.PRT_PWR_CFG_AUTO_HOLD n && !isSet t F.PRT_PWR_CFG_WAKE_ON_TRIGGER n
      && !isSet t F.PRT_PWR_CFG_WAKE_BCN_EN n⟩,
   ⟨R.MEM_SREG_CFG, fun s t k => rises s t F.MEM_SREG_CFG_EN k && regionRefused t k⟩,
   ⟨R.TWN_TX_CFG, fun s t i => twnBusyState (twnState s) && rises s t F.TWN_TX_CFG_PRBS_EN i⟩,
   ⟨R.TWN_RX_PRBS_CFG, fun s t i => twnBusyState (twnState s) && rises s t F.TWN_RX_PRBS_CFG_EN i⟩]

/-! ### What follows from a write -/

/-- What follows from a write to a register that led from `s` to `t`. -/
structure After where
  reg : Reg
  act : State → State → Wr → State

/-- Put the outputs of a TRG register that drive no pulse at their idle level (R225, R229). -/
def refreshOuts (s : State) (ns : List Nat) : State :=
  ns.foldl (fun s n => if (trgAt s (ownerOf s n)).cur.isNone then refreshTrg s n else s) s

/-- An output is OFF: a pulse output on its pair discards its counts (R225). -/
def trgOff (s : State) (n : Nat) : State := if rd s F.TRG_CFG_MODE n = 0 then poDarkOf s n else s

/-- GEN and RATE keep their values where a write leads to GEN = 0 with RATE = 46 (spec/06). -/
def keepGenRate (s t : State) (w : Wr) (r : Reg) (gen rate : Field) : State :=
  if genRateBad t gen rate w.inst && !genRateBad s gen rate w.inst then
    cfgErr (wr (wr t gen w.inst (rd s gen w.inst)) rate w.inst (rd s rate w.inst)) r w.inst
  else t

def afterEncCfg (s t : State) (w : Wr) : State :=
  let t := if rd s F.ENC_CFG_MODE w.inst = rd t F.ENC_CFG_MODE w.inst then t else encModeSet t w.inst
  autoFilter t w.inst

/-- PO_CFG: the pair that the pulse output leaves goes idle (R181). -/
def afterPoCfg (s t : State) (w : Wr) : State :=
  let old := 2 * rd s F.PO_CFG_PAIR w.inst
  refreshOuts (poCfgWritten t w.inst (isSet s F.PO_CFG_EN w.inst)) [old, old + 1]

/-- PRT_CFG: EN starts the bring-up or takes the port down (R246, R248, R252). -/
def afterPrtCfg (s t : State) (w : Wr) : State :=
  let t := keepGenRate s t w R.PRT_CFG F.PRT_CFG_GEN F.PRT_CFG_RATE
  if rises s t F.PRT_CFG_EN w.inst then rxEnabled t w.inst
  else if falls s t F.PRT_CFG_EN w.inst then rxDisabled t w.inst
  else t

/-- A PRBS checker of lane j of receiver n: a change of EN or SEL starts it anew; the port enters or leaves TEST (R258,
R259). -/
def afterPrbs (n j : Nat) (en sel : Field) (s t : State) (w : Wr) : State :=
  if rd s en w.inst = rd t en w.inst ∧ rd s sel w.inst = rd t sel w.inst then t
  else prbsChanged (checkerReset t n j) n

/-- PRT_UL_CFG: an uplink that stops running or starts a PRBS drops its traffic (R138, R268). -/
def afterUl (s t : State) (w : Wr) : State :=
  if falls s t F.PRT_UL_CFG_EN w.inst || rises s t F.PRT_UL_CFG_PRBS_EN w.inst then dropUplink t w.inst else t

def afterIspCtx (s t : State) (w : Wr) : State :=
  let p := w.inst / 64
  let c := w.inst % 64
  let t := applyPreset t p c (rd t F.ISP_CTX_CFG_PRESET w.inst)
  if rises s t F.ISP_CTX_CFG_EN w.inst then { t with ispMid := sset t.ispMid 1 w.inst w.mid }
  else if falls s t F.ISP_CTX_CFG_EN w.inst then ctxDisable t p c
  else t

/-- DMA_SDLV_CFG.EN: set, NEXT is the next SEQ of the stream and READOUT begins anew; cleared, the frames that wait for an
entry are dropped (R430, R431, R432; log 54). -/
def afterSdlv (s t : State) (w : Wr) : State :=
  let k := w.inst
  if rises s t F.DMA_SDLV_CFG_EN k then
    let t := wr t F.DMA_SDLV_NEXT_SEQ k (rd t F.PKT_SEQ_VALUE k)
    { t with sdlvRead := sset t.sdlvRead false k false }
  else if falls s t F.DMA_SDLV_CFG_EN k then { t with sdlvQ := t.sdlvQ.filter fun e => e.1 ≠ k }
  else t

/-- POD_RUN_ERR clears when POD_EVT.RUN_ERR is cleared (R380). -/
def afterPodEvt (s t : State) (_w : Wr) : State :=
  if hasBit s F.POD_EVT_EVT 0 0 && !hasBit t F.POD_EVT_EVT 0 0
  then resetFields t [F.POD_RUN_ERR_CODE, F.POD_RUN_ERR_LAYER, F.POD_RUN_ERR_LAYER_ID] 0 else t

def afters : List After :=
  [⟨R.ENC_CFG, afterEncCfg⟩, ⟨R.ENC_MAXRATE, fun _ t w => autoFilter t w.inst⟩,
   ⟨R.ENC_SSI_FRAME, fun _ t w => ssiPreset t w.inst⟩, ⟨R.ENC_SSI_STAT, fun _ t w => ssiCheck t w.inst⟩,
   ⟨R.ENC_SSI_CRC, fun _ t w => ssiCheck t w.inst⟩, ⟨R.PO_CFG, afterPoCfg⟩, ⟨R.TMB_CTL, fun _ t _ => tmbCtlWritten t⟩,
   ⟨R.TRG_CFG, fun _ t w => refreshOuts (trgOff t w.inst) (outsOf t w.inst)⟩, ⟨R.ENC_MEAS_CFG, fun _ t w => speedSettle t w.inst⟩,
   ⟨R.TRG_PAIR_CFG, fun _ t w => refreshOuts t [2 * w.inst, 2 * w.inst + 1]⟩] ++
  [⟨R.PRT_CFG, afterPrtCfg⟩,
   ⟨R.PRT_LANE_PRBS_CFG, fun s t w => afterPrbs (w.inst / 4) (w.inst % 4) F.PRT_LANE_PRBS_CFG_EN F.PRT_LANE_PRBS_CFG_SEL
      s t w⟩,
   ⟨R.TWN_RX_PRBS_CFG, fun s t w => afterPrbs 8 0 F.TWN_RX_PRBS_CFG_EN F.TWN_RX_PRBS_CFG_SEL s t w⟩,
   ⟨R.PRT_UL_CFG, afterUl⟩,
   ⟨R.RLY_CFG, fun s t w => relaysSync (keepGenRate s t w R.RLY_CFG F.RLY_CFG_GEN F.RLY_CFG_RATE)⟩,
   ⟨R.PKT_PORT_CFG, fun s t w => if falls s t F.PKT_PORT_CFG_AUTO_MAP w.inst then autoMapOff t w.inst else t⟩,
   ⟨R.ISP_CTX_CFG, afterIspCtx⟩, ⟨R.POD_EVT, afterPodEvt⟩, ⟨R.DMA_SDLV_CFG, afterSdlv⟩, ⟨R.FIO_CH_CFG, fun _ t w => endReversed t w.inst⟩]

/-! ### Command bits (R624) -/

/-- A command bit, with what a write of 1 does for a master at an instance. -/
structure Cmd where
  bit : Field
  act : State → Nat → Nat → State

/-- The commands of the blocks from KBR to FIO. -/
def cmds1 : List Cmd :=
  [⟨F.KBR_CMD_GO, fun s _ _ => kbrGo s⟩, ⟨F.BCN_CMD_CLR_COUNTS, fun s _ _ => bcnClear s⟩,
   ⟨F.MBX_CMD_CLR_COUNTS, fun s _ _ => mbxCountsClear s⟩, ⟨F.TMB_CMD_LOAD_NOW, fun s _ _ => loadTb s⟩,
   ⟨F.TMB_CMD_LOAD_AT_PPS, fun s _ _ => loadAtPps s⟩, ⟨F.TMB_CMD_CANCEL_LOAD, fun s _ _ => wr s F.TMB_STATUS_LOAD_PENDING 0 0⟩,
   ⟨F.TWN_CMD_RELEASE, fun s _ _ => twnRelease s⟩, ⟨F.TWN_CMD_HELLO, fun s _ _ => sendHello s⟩,
   ⟨F.TWN_CMD_FCG_SYNC, fun s _ _ => twnFcgSync s⟩, ⟨F.TWN_CMD_CLR_COUNTS, fun s _ _ => clearAll s twnCounters 0⟩,
   ⟨F.TWN_RX_PRBS_CFG_CLR, fun s _ _ => prbsClr s 8 0⟩,
   ⟨F.TWN_TX_CFG_INJ_ONE, fun s _ _ => twinFlip s⟩] ++
  [⟨F.ENC_CMD_LOAD_PRESET, fun s _ n => loadPreset s n⟩, ⟨F.ENC_CMD_CLR_COUNTS, fun s _ n => clearAll s encCounters n⟩,
   ⟨F.ENC_CMD_RESTART_SPEED, fun s _ n => restartSpeed s n⟩, ⟨F.ENC_CMD_CLR_IDX_REF, fun s _ n => clrIdxRef s n⟩,
   ⟨F.CMP_CMD_ARM, fun s _ k => cmpArmCmd s k⟩, ⟨F.CMP_CMD_DISARM, fun s _ k => cmpDisarm s k⟩,
   ⟨F.CMP_CMD_CLR_COUNTS, fun s _ k => clearAll s cmpCounters k⟩, ⟨F.FCG_CMD_START, fun s _ g => fcgStart s g⟩,
   ⟨F.FCG_CMD_STOP, fun s _ g => fcgStop s g⟩, ⟨F.FCG_CMD_CLR_COUNTS, fun s _ g => clearAll s fcgCounters g⟩,
   ⟨F.TRG_CMD_CLR_COUNTS, fun s _ n => trgClear s n⟩, ⟨F.FIO_CMD_CLR_COUNTS, fun s _ _ => fioClear s⟩]

/-- The commands of the blocks from PRT to POD. -/
def cmds2 : List Cmd :=
  [⟨F.PRT_UL_CFG_INJ_ONE, fun s _ n => ulInjOne s n⟩, ⟨F.PRT_LANE_PRBS_CFG_CLR, fun s _ i => prbsClr s (i / 4) (i % 4)⟩,
   ⟨F.RLY_CMD_INJ_ONE, fun s _ k => rlyInjOne s k⟩,
   ⟨F.RLY_CMD_CLR_COUNTS, fun s _ k => clearAll s [F.RLY_INJ_CNT_COUNT, F.RLY_STOPS_COUNT] k⟩,
   ⟨F.PKT_PORT_CMD_CLR_COUNTS, fun s _ n => clearAll s pktPortCounters n⟩,
   ⟨F.PKT_SCMD_CLR_COUNTS, fun s _ k => clearAll s pktStreamCounters k⟩, ⟨F.PKT_UL_TXCMD_SEND, fun s _ n => ulSend s n⟩,
   ⟨F.PKT_UL_RXSTAT_POP, fun s _ n => ulRxPop s n⟩, ⟨F.ISP_SUBMIT_GO, fun s _ p => ispSubmit s p⟩,
   ⟨F.ISP_CTX_CMD_CLR_COUNTS, fun s _ i => clearAll s ctxCounters i⟩,
   ⟨F.POD_CMD_CLR_COUNTS, fun s _ k => clearAll s [F.POD_ACC_SAT_COUNT, F.POD_OUT_SAT_COUNT] k⟩,
   ⟨F.POD_CCMD_CLR_COUNTS, fun s _ _ => clearAll s podCounters 0⟩, ⟨F.POD_SUB_CMD_GO, fun s mid _ => podSubGo s mid⟩]

/-- HIF_CMD.CLR_COUNTS (R17). -/
def hifClear (s : State) : State :=
  clearAll s [F.HIF_BAD_ACCESS_COUNT, F.HIF_CPL_TIMEOUT_COUNT, F.HIF_POISONED_COUNT, F.HIF_LINK_DOWNS_COUNT, F.HIF_DB_ERR_COUNT,
    F.HIF_FLRS_COUNT] 0

/-- The commands of the blocks from SQ to HIF. -/
def cmds3 : List Cmd :=
  [⟨F.SQ_CTL_RUN, fun s _ c => sqRun s c⟩, ⟨F.SQ_CTL_HALT, fun s _ c => sqHalt s c⟩, ⟨F.SQ_CTL_STEP, fun s _ c => sqStep s c⟩,
   ⟨F.SQ_CTL_CORE_RESET, fun s _ c => coreReset s c⟩, ⟨F.SQ_CTL_RECIPE_START, fun s _ c => recipeStart s c⟩,
   ⟨F.SQ_CTL_RECIPE_STOP, fun s _ c => recipeStop s c⟩, ⟨F.SQ_HASH_CTL_START, fun s _ _ => hashStart s⟩,
   ⟨F.DMA_SUB_CMD_GO, fun s mid _ => dmaSubGo s mid⟩, ⟨F.MEM_CMD_TRAIN, fun s _ _ => memTrain s⟩,
   ⟨F.MEM_CMD_CLR_COUNTS, fun s _ _ => memClear s⟩, ⟨F.MEM_BURST_CFG_ARM, fun s _ k => burstArm s k⟩,
   ⟨F.MEM_BURST_CFG_DISARM, fun s _ k => wr s F.MEM_BURST_CFG_STATE k 0⟩,
   ⟨F.MEM_BURST_CFG_FREEZE_NOW, fun s _ k => burstEnd s k 0⟩, ⟨F.HIF_CMD_CLR_COUNTS, fun s _ _ => hifClear s⟩]

def cmds : List Cmd := cmds1 ++ cmds2 ++ cmds3

/-- The commands of a write act in ascending bit order (R624). -/
def runCmds (s : State) (r : Reg) (w : Wr) : State :=
  r.fields.foldl (fun s f =>
    if f.ty == .wo && (f.bits w.val &&& bitsOf w.mask f.lo f.width) ≠ 0 then
      match cmds.find? fun k => k.bit.fid == f.fid with
      | some k => k.act s w.mid w.inst
      | none => s
    else s) s

/-! ### Registers with a write of their own -/

/-- A register whose writes have an effect of their own; none where this write has none. -/
structure Own where
  reg : Reg
  act : State → Wr → Option State

/-- PRT_CMD (R253, R262, R265, R266, R624): a write with more than one entry or exit is discarded. -/
def prtCmd (s : State) (n v : Nat) : State :=
  let b := fun i => v.testBit i
  if 1 < ([1, 2, 3, 4].filter b).length then prtEvt s n 11
  else
    let s := if b 0 then portRestart s n else s
    let s := if b 1 then holdEnter s n (b 5) else s
    let s := if b 2 then wakePort s n else s
    let s := if b 3 then deepEnter s n (b 5) else s
    let s := if b 4 then deepExit s n else s
    let s := if b 6 then prtClear s n else s
    if b 7 then selftest s n else s

/-- An index of ring n (R445, R451, R452): while EN is 1 only the host-owned index takes a write. -/
def ringIndex (s : State) (w : Wr) (tail : Bool) : State :=
  if hostProduced s w.inst == tail then hostIndexWrite s w.mid w.inst w.val false
  else if isSet s F.RNG_CFG_EN w.inst then s
  else indexPlain s w.inst (if tail then F.RNG_TAIL_INDEX else F.RNG_HEAD_INDEX) (w.val % 2 ^ 32)

/-- HIF_IRQ_REARM: another message for each bit that is still 1 (R449). -/
def irqRearm (s : State) (mask : Nat) : State :=
  (List.range 29).foldl (fun t b => if mask.testBit b && irqBit s b then blockMessage t b else t) s

/-- A sequencer register that holds a value of the core: written only while HALTED, v0 never (R60, spec/02). -/
def coreRegWrite (f : Field) (v0 : Bool) (c : Nat) (s : State) (w : Wr) : State :=
  if sqState s c ≠ sqHALTED || v0 then s else wr s f w.inst (w.into s f)

/-- A write to SQ_PC of a HALTED core. -/
def pcWrite (s : State) (w : Wr) : State :=
  let s := if sqState s w.inst = sqHALTED then setCore s w.inst { coreAt s w.inst with past := false } else s
  coreRegWrite F.SQ_PC_PC false w.inst s w

/-- A relay that a self-test uses: every write to it is discarded (R262). -/
def rlyHeld (s : State) (r : Reg) (w : Wr) : Option State := if (relayTested s w.inst).isSome then some (cfgErr s r w.inst) else none

def owns1 : List Own :=
  [⟨R.GLB_RST_CTL, fun s w => some (rstCtlWrite s w.val)⟩, ⟨R.GLB_BLK_RST, fun s w => some (blkRstWrite s w.val)⟩,
   ⟨R.PWR_WAKE_HELD, fun s w => some (wakeRelease s w.val)⟩,
   ⟨R.BCN_CH_CFG, fun s w => some (bcnCfgWrite s w.mid w.inst w.val)⟩,
   ⟨R.BCN_EN, fun s w => some (bcnEnWrite s w.mid (w.inst / 6) (w.inst % 6) w.val)⟩,
   ⟨R.BCN_WAKE, fun s w => some (bcnWakeWrite s w.mid w.inst w.val)⟩,
   ⟨R.BCN_FIRE, fun s w => some (fireMask s w.mid (w.val &&& w.mask))⟩,
   ⟨R.MBX_BIND, fun s w => some (bindWrite s w.mid w.inst w.val)⟩,
   ⟨R.MBX_DATA, fun s w => some (mbxSend s w.mid w.inst w.val).2⟩,
   ⟨R.MBX_STAT, fun s w => some (mbxStatWrite s w.mid w.inst w.val)⟩, ⟨R.TWN_CTL, fun s w => some (twnCtlRun s w.val)⟩,
   ⟨R.FCG_PERIOD, fun s w => some (if w.mask = 2 ^ 64 - 1 then periodWrite s w.inst false 8 w.val
      else if w.mask % 2 = 1 then periodWrite s w.inst false 4 (w.val % 2 ^ 32)
      else periodWrite s w.inst true 4 (w.val / 2 ^ 32))⟩]

def owns2 : List Own :=
  [⟨R.FIO_ARM, fun s w => some ((List.range 48).foldl (fun t c => if (w.val &&& w.mask).testBit c then fioArm t c else t) s)⟩,
   ⟨R.FIO_DARK, fun s w => some ((List.range 48).foldl (fun t c =>
      if (w.val &&& w.mask).testBit c then fioDark t c else t) s)⟩,
   ⟨R.PRT_CMD, fun s w => some (prtCmd s w.inst w.val)⟩, ⟨R.PKT_MAP, fun s w => some (pktMapWrite s w.inst w.val)⟩,
   ⟨R.PKT_ARM, fun s w => some (armSet s w.inst (w.val % 65536))⟩, ⟨R.ISP_CTL, fun s w => some (ispModeWrite s w.inst w.val)⟩,
   ⟨R.POD_GATE_CFG, fun s w => some (gateCfgWrite s w.mid w.inst w.val)⟩,
   ⟨R.DMA_CH_CMD, fun s w => some (dmaChCmd s w.inst w.val)⟩, ⟨R.RNG_CFG, fun s w => some (ringCfgWrite s w.mid w.inst w.val)⟩,
   ⟨R.RNG_TAIL, fun s w => some (ringIndex s w true)⟩, ⟨R.RNG_HEAD, fun s w => some (ringIndex s w false)⟩,
   ⟨R.RNG_BUOY_STAT, fun s w => some (buoyAck s w.mid w.inst w.val)⟩,
   ⟨R.HIF_IRQ_REARM, fun s w => some (irqRearm s w.val)⟩] ++
  [⟨R.SQ_PC, fun s w => some (pcWrite s w)⟩,
   ⟨R.SQ_VREG, fun s w => some (coreRegWrite F.SQ_VREG_VALUE (w.inst % 16 == 0) (w.inst / 16) s w)⟩,
   ⟨R.SQ_LK, fun s w => some (coreRegWrite F.SQ_LK_VALUE false w.inst s w)⟩,
   ⟨R.SQ_FLAGS, fun s w => some (coreRegWrite F.SQ_FLAGS_ZNCV false w.inst s w)⟩,
   ⟨R.RLY_CFG, fun s w => rlyHeld s R.RLY_CFG w⟩, ⟨R.RLY_CMD, fun s w => rlyHeld s R.RLY_CMD w⟩,
   ⟨R.RLY_INJ, fun s w => rlyHeld s R.RLY_INJ w⟩, ⟨R.RLY_TX, fun s w => rlyHeld s R.RLY_TX w⟩,
   ⟨R.RLY_EVT, fun s w => rlyHeld s R.RLY_EVT w⟩, ⟨R.RLY_EVT_EN, fun s w => rlyHeld s R.RLY_EVT_EN w⟩]

def owns : List Own := owns1 ++ owns2

/-! ### The write -/

/-- A write to the fields of a register that has no write of its own. -/
def plainWrite (s : State) (r : Reg) (w : Wr) : State :=
  let t := putFields s r w
  match vetoes.find? fun v => v.reg.rid == r.rid && v.bad s t w.inst with
  | some _ => cfgErr s r w.inst
  | none =>
    let t := match afters.find? fun a => a.reg.rid == r.rid with
      | some a => a.act s t w
      | none => t
    runCmds t r w

/-- A write to a register. -/
def regWrite (s : State) (r : Reg) (w : Wr) : State :=
  match (owns.find? fun o => o.reg.rid == r.rid).bind fun o => o.act s w with
  | some t => t
  | none => plainWrite s r w

end Sys2Proof.Machine
end

