-- ==== Sys2Proof/Machine/RegRead.lean ====
section
/-! DEFINITION. What a read of a BAR 0 register returns, and what it does: fields that mirror other state, extremes and counts
that a read restarts, receive and capture registers (R14, R17, R300, R338, R474, R622 and the register tables). -/
namespace Sys2Proof.Machine

/-! ### Fields that mirror other state -/

/-- A field whose value is read from other state. -/
structure Mirror where
  field : Field
  value : State → Nat → Nat

/-- The bits of `n` units whose event register has an enabled pending bit. -/
def sumBits (s : State) (evt en : Field) (n : Nat) : Nat :=
  (List.range n).foldl (fun a i => if pendingAt s evt en i then a + 2 ^ i else a) 0

/-- ENC_IRQ_SUM (spec/04). -/
def encSum (s : State) : Nat :=
  sumBits s F.ENC_EVT_EVT F.ENC_EVT_EN_EN 4 + 16 * sumBits s F.CMP_EVT_EVT F.CMP_EVT_EN_EN 16
  + 2 ^ 20 * ([0, 1].foldl (fun a p => if isSet s F.PO_STATUS_OVERFLOW p || isSet s F.PO_STATUS_CFG_ERR p then a + 2 ^ p else a) 0)

def mirrors1 : List Mirror :=
  [⟨F.GLB_IRQ_SUM_SUM, fun s _ => irqSum s⟩, ⟨F.PWR_STATE_DOMAINS, fun s _ => rd s F.KP_GOOD_DOMAINS⟩,
   ⟨F.PWR_EFFECTIVE_DOMAINS, fun s _ => effective s⟩,
   ⟨F.PWR_PROFILE_DOMAINS, fun s _ => rd s F.KP_PROFILE_PROFILE + 256 * rd s F.KP_PROFILE_SLEEP_HOST⟩,
   ⟨F.PWR_REQ_DOMAINS, fun s _ => rd s F.KP_REQ_DOMAINS⟩, ⟨F.PWR_FAIL_DOMAINS, fun s _ => rd s F.KP_FAIL_DOMAINS⟩,
   ⟨F.MBX_PEEK_WORD, fun s m => if isSet s F.MBX_STAT_FULL m then (mbxAt s m).word else 0⟩,
   ⟨F.MBX_LOCK_LOCKED, fun s _ => rd s F.KL_LOCKS_MBX⟩, ⟨F.TMB_STATUS_UNLOCKED, fun s _ => (tbUnlocked s).toNat⟩,
   ⟨F.TMB_STATUS_CORRECTING, fun s _ => (decide (s.slew ≠ 0)).toNat⟩, ⟨F.TMB_TB_VALUE, fun s _ => s.tb⟩,
   ⟨F.TWN_STATUS_RANK, fun s _ => rd s F.GLB_STATUS_TWIN_RANK⟩] ++
  [⟨F.ENC_STATUS_FAULT_ACTIVE, fun s n => (encFaultActive s n).toNat⟩,
   ⟨F.ENC_STATUS_CHECKS_ARMED, fun s n =>
      (checkArmed s n F.ENC_MEAS_CFG_LOST_EN || checkArmed s n F.ENC_MEAS_CFG_FROZEN_EN).toNat⟩,
   ⟨F.ENC_SPEED_VALUE, signedSpeed⟩, ⟨F.ENC_IRQ_SUM_SUM, fun s _ => encSum s⟩,
   ⟨F.FCG_STATUS_OPEN_WINDOWS, openWindows⟩, ⟨F.FCG_LAST_TB_VALUE, fcgLastTb⟩,
   ⟨F.FCG_IRQ_SUM_SUM, fun s _ => sumBits s F.FCG_EVT_EVT F.FCG_EVT_EN_EN 4⟩, ⟨F.TRG_FLOOR_EFF_MIN, effMin⟩,
   ⟨F.TRG_STATUS_PENDING, pendingPulses⟩, ⟨F.TRG_STATUS_DARK, fun s n => (trgDark s n).toNat⟩,
   ⟨F.TRG_STATUS_DRIVING, fun s n => (driving s n).toNat⟩,
   ⟨F.TRG_IRQ_SUM_SUM, fun s _ => sumBits s F.TRG_EVT_EVT F.TRG_EVT_EN_EN 16⟩]

/-- The reply at the head of a port's queue (R306). -/
def headReply (s : State) (n : Nat) : List Nat × Bool := (pktPortAt s n).replies.headD ([], false)

/-- A frame of stream k is closed and its trigger record is not final (R297). -/
def tagWaits (s : State) (k : Nat) : Bool :=
  s.frames.any fun f => f.stream == k && f.phase == .closed && f.trig.any (·.waiting)

/-- The pod of a run that is at work (POD_STATUS, spec/09): WAITING on a STRIPE layer of another pod, or for input lines. -/
def podWaits (s : State) (k : Nat) (r : PodRun) : Bool :=
  (!(Layer.parse r.record).split && (podsOf r.mask).head? ≠ some k)
  || (r.input == 0 && r.layer == 0 && (r.seq.bind fun q => frameAt s r.stream q).any fun f => f.phase == .open)

/-- A pod of a run has an empty band of a SPLIT layer: it idles for the layer (R370). -/
def podIdles (k : Nat) (r : PodRun) : Bool :=
  let l := Layer.parse r.record
  let pods := podsOf r.mask
  l.split && (let b := bandOf l.splitN pods.length (pods.idxOf k); decide (b.2 ≤ b.1))

def podState (s : State) (k : Nat) : Nat :=
  if !domReach s (podDomain k) then 3
  else match podBusy s k with
    | none => 0
    | some r => if podIdles k r then 0 else if podWaits s k r then 2 else 1

def mirrors2 : List Mirror :=
  [⟨F.PRT_UL_STATUS_RUNNING, fun s n => (ulRunning s n).toNat⟩,
   ⟨F.PKT_UL_RXSTAT_LENGTH, fun s n => (headReply s n).1.length⟩, ⟨F.PKT_UL_RXSTAT_CRC_OK, fun s n => (headReply s n).2.toNat⟩,
   ⟨F.PKT_UL_RXSTAT_DEPTH, fun s n => (pktPortAt s n).replies.length⟩,
   ⟨F.PKT_UL_RXBUF_DATA, fun s i => leField (headReply s (i / 64)).1 (4 * (i % 64)) 4⟩,
   ⟨F.PKT_SSTAT_OPEN, fun s k => (openFrame s k).isSome.toNat⟩, ⟨F.PKT_SSTAT_TAG_WAIT, fun s k => (tagWaits s k).toNat⟩,
   ⟨F.PKT_SSTAT_TRIG_QUEUED, fun s k => (streamAt s k).trigQ.length⟩,
   ⟨F.PKT_SSTAT_LINES, fun s k => (openFrame s k).elim 0 (·.lines)⟩,
   ⟨F.PKT_LAST_TAG_DATA, fun s i => leField (streamAt s (i / 16)).lastTagRead (4 * (i % 16)) 4⟩,
   ⟨F.PKT_IRQ_PORT_PORT, fun s _ => sumBits s F.PKT_PORT_EVT_EVT F.PKT_PORT_EVT_EN_EN 8⟩,
   ⟨F.PKT_IRQ_STREAM_STREAM, fun s _ => sumBits s F.PKT_SEVT_EVT F.PKT_SEVT_EN_EN 64⟩,
   ⟨F.PKT_TAG_QUEUE_DEPTH, fun s _ => s.tagQ.length⟩] ++
  [⟨F.ISP_STATUS_BUSY, fun s p => (ispAt s p).unit.isSome.toNat⟩, ⟨F.ISP_STATUS_READY, fun s p => (readyCtxs s p).length⟩,
   ⟨F.ISP_LAST_STAT_DATA, fun s i => ofBytes ((List.range 4).map fun j => lastStatByte s (i / 2048) (4 * (i % 2048) + j))⟩,
   ⟨F.ISP_CTX_STATUS_PENDING, fun s i => ispPending s (i / 64) (i % 64)⟩, ⟨F.POD_STATUS_STATE, podState⟩,
   ⟨F.POD_STATUS_LAYER, fun s k => (podBusy s k).elim 0 (·.layer)⟩,
   ⟨F.POD_STATUS_RUN_ID, fun s k => (podBusy s k).elim 0 (·.id)⟩, ⟨F.POD_QUEUE_QUEUED, fun s _ => podWaiting s⟩,
   ⟨F.POD_QUEUE_RUNNING, fun s _ => (s.podRuns.filter fun r => r.begun && r.ended.isNone).length⟩,
   ⟨F.POD_GATE_PENDING_DEPTH, fun s _ => s.tracked.length⟩,
   ⟨F.POD_GATE_TRACKED_FRAMES, fun s k => (s.tracked.filter fun t => t.stream == k).length⟩]

def mirrors3 : List Mirror :=
  [⟨F.SQ_STATUS_IN_SPEC, fun s c => (coreAt s c).region.isSome.toNat⟩,
   ⟨F.SQ_STATUS_WAIT_KIND, fun s c => if sqState s c = sqWAITING then waitKindOf s c else 0⟩, ⟨F.DMA_CH_STATUS_STATE, dmaState⟩,
   ⟨F.DMA_CH_STATUS_QUEUED, fun s c => ((chanDescs s c).filter fun d => d.ended.isNone).length⟩,
   ⟨F.DMA_CH_ACTIVE_ID, fun s c => (activeDesc s c).elim 0 (·.id)⟩,
   ⟨F.DMA_CH_POS_ROW_VALUE, fun s c => (activeDesc s c).elim 0 (·.row)⟩,
   ⟨F.DMA_CH_POS_BYTE_VALUE, fun s c => (activeDesc s c).elim 0 fun d => d.unit * xUnit d.xcode d.xpar⟩,
   ⟨F.DMA_INFLIGHT_COUNT, fun s _ => inFlight s⟩,
   ⟨F.RNG_BUOY_STAT_CURRENT_ABOVE, fun s n => (decide (rd s F.RNG_BUOY_LVL_HIGH n ≤ ringLevel s n)).toNat⟩,
   ⟨F.RNG_BUOY_STAT_CURRENT_BELOW, fun s n => (decide (ringLevel s n ≤ rd s F.RNG_BUOY_LVL_LOW n)).toNat⟩,
   ⟨F.HIF_VF_STATUS_VF_ENABLED, fun s _ =>
      (List.range 7).foldl (fun a i => if vfEnabled s (i + 1) then a + 2 ^ i else a) 0⟩]

def mirrors : List Mirror := mirrors1 ++ mirrors2 ++ mirrors3

/-! ### Reading a field -/

/-- Fields that no command shows the value of: the level of VFIELD (spec/16), a free value (log 3). -/
def freeReads : List Field := [F.FIO_VF_STAT_LEVEL]

/-- The level that this device gives the pin of output n: the active or inactive level while it drives, the dark level of a dark
output; none where the pin is high-impedance (R225, R233, R605). -/
def pinDriven (s : State) (n : Nat) : Option Bool :=
  if driving s n then some (isSet s F.TRG_STATUS_ACTIVE n != isSet s F.TRG_CFG_POL n)
  else if trgDark s n then
    match darkLevel s (12 + n) with
    | 0 => some false
    | 2 => some true
    | _ => none
  else none

/-- TRG_STATUS.PIN of output n: the level that this device drives, else what the pin shows, a free value sensed once in each
instant (R233; log 82). -/
def pinRead (s : State) (n : Nat) : Nat × State :=
  match pinDriven s n with
  | some b => (b.toNat, wr s F.TRG_STATUS_PIN n b.toNat)
  | none =>
    if s.ns = sget s.pinAt 0 n then (rd s F.TRG_STATUS_PIN n, s)
    else
      let (v, s) := takeFree s 1
      (v, wr { s with pinAt := sset s.pinAt 0 n s.ns } F.TRG_STATUS_PIN n v)

/-- The value that a read of one field returns. A WO field reads zero; the registers of a core read zero unless it is HALTED,
but for the pc and the flags (spec/02). -/
def fieldRead (s : State) (f : Field) (i : Nat) : Nat × State :=
  if f.isIn freeReads then takeFree s f.width
  else if f.fid = F.TRG_STATUS_PIN.fid then pinRead s i
  else if f.fid = F.MEM_STORE_BUF_DEPTH.fid then storeDepth s
  else match mirrors.find? fun m => m.field.fid == f.fid with
    | some m => (m.value s i % 2 ^ f.width, s)
    | none =>
      if f.ty = .wo then (0, s)
      else if f.fid = F.SQ_VREG_VALUE.fid ∧ sqState s (i / 16) ≠ sqHALTED then (0, s)
      else if f.fid = F.SQ_LK_VALUE.fid ∧ sqState s i ≠ sqHALTED then (0, s)
      else (rd s f i, s)

/-! ### What a read does -/

/-- An RC field and the value it restarts from after a read (R17, R622). -/
structure Restart where
  field : Field
  value : State → Nat → Nat

def restarts : List Restart :=
  [⟨F.TWN_RX_FOM_DIP, fun s _ => dipRestart s 8 0⟩, ⟨F.PRT_LANE_FOM_DIP, fun s i => dipRestart s (i / 4) (i % 4)⟩,
   ⟨F.PKT_TAG_QUEUE_PEAK, fun s _ => s.tagQ.length⟩, ⟨F.POD_GATE_PENDING_PEAK, fun s _ => s.tracked.length⟩,
   ⟨F.DMA_INFLIGHT_PEAK, fun s _ => inFlight s⟩, ⟨F.MEM_STORE_BUF_PEAK, fun s _ => s.storeBuf / 1024⟩,
   ⟨F.RNG_BUOY_PEAK_LEVEL, ringLevel⟩, ⟨F.RNG_BUOY_TROUGH_LEVEL, ringLevel⟩,
   ⟨F.RNG_BUOY_CNT_HIGH_CNT, fun _ _ => 0⟩, ⟨F.RNG_BUOY_CNT_LOW_CNT, fun _ _ => 0⟩]

/-- The RC fields of a register restart (R17, R622). -/
def restartRc (s : State) (r : Reg) (i : Nat) : State :=
  r.fields.foldl (fun s f => if f.ty == .rc then
      match restarts.find? fun x => x.field.fid == f.fid with
      | some x => wr s f i (x.value s i)
      | none => wr s f i 0
    else s) s

/-- What happens before the fields are read: captures, and counters brought up to date. -/
def beforeRead (s : State) (r : Reg) (i : Nat) : State :=
  if r.rid = R.PKT_LAST_TAG.rid then (if i % 16 = 0 then lastTagRead s (i / 16) else s)
  else if r.rid = R.ISP_LAST_STAT.rid then (if i % 2048 = 0 then lastStatRead s (i / 2048) else s)
  else s

/-- The value of a register over its whole width, as its fields read. -/
def regValue (s : State) (r : Reg) (i : Nat) : Nat × State :=
  r.fields.foldl (fun a f =>
    let (v, s) := fieldRead a.2 f i
    (a.1 + v * 2 ^ f.lo, s)) (0, s)

/-- A read of a register by master `mid`: its value over the whole width, and the state after. -/
def regRead (s : State) (mid : Nat) (r : Reg) (i : Nat) : Nat × State :=
  if r.rid = R.MBX_DATA.rid then
    let (w, s) := mbxReceive s mid i
    (w.getD 0, s)
  else if (r.rid = R.MBX_PEEK.rid ∨ r.rid = R.MBX_STAT.rid) ∧ !mbxSees s mid i then (0, mbxRefuse s mid i)
  else
    let (v, s) := regValue (beforeRead s r i) r i
    (v, restartRc s r i)

end Sys2Proof.Machine
end

