-- ==== Sys2Proof/Machine/Bus.lean ====
section
/-! DEFINITION. Accesses to BAR 0 and to a VF window: which accesses arrive (R15, R42, R43, R47, R48, R67, R571), registers and
their halves (R14, R16), and the memories that BAR 0 shows (R45, R98, R99, R185, R353, R444, R448). -/
namespace Sys2Proof.Machine

/-! ### Registers -/

/-- A 32-bit write to the register at a BAR 0 offset; a reserved offset discards it (R16). -/
def write32 (s : State) (mid a v : Nat) : State :=
  match regAt a with
  | none => s
  | some h =>
    if h.high then regWrite s h.reg ⟨mid, h.inst, (2 ^ 32 - 1) * 2 ^ 32, v % 2 ^ 32 * 2 ^ 32⟩
    else regWrite s h.reg ⟨mid, h.inst, 2 ^ 32 - 1, v % 2 ^ 32⟩

/-- A 64-bit write: both halves of a pair in the same instant, else two registers, the lower offset first (R14; log 55). -/
def write64 (s : State) (mid a v : Nat) : State :=
  match (regAt a).filter fun h => h.reg.pair && !h.high with
  | some h => regWrite s h.reg ⟨mid, h.inst, 2 ^ 64 - 1, v % 2 ^ 64⟩
  | none => write32 (write32 s mid a v) mid (a + 4) (v / 2 ^ 32)

/-- The key under which the captured high half of a pair is held (R14). -/
def Hit.key (h : Hit) : Nat := h.reg.rid + 1024 * h.inst

/-- A 32-bit read of the register at a BAR 0 offset: a read of a low half captures the high half, and the next read of the high
half returns it (R14); a reserved offset reads zero (R16). -/
def read32 (s : State) (mid a : Nat) : Nat × State :=
  match regAt a with
  | none => (0, s)
  | some h =>
    match (if h.high then sget s.hiHeld 0 h.key else 0) with
    | v + 1 => (v, { s with hiHeld := sset s.hiHeld 0 h.key 0 })
    | 0 =>
      let (v, s) := regRead s mid h.reg h.inst
      if h.high then (v / 2 ^ 32, s)
      else if h.reg.pair then (v % 2 ^ 32, { s with hiHeld := sset s.hiHeld 0 h.key (v / 2 ^ 32 + 1) })
      else (v, s)

/-- A 64-bit read: both halves of a pair from the same instant, else two registers (R14). -/
def read64 (s : State) (mid a : Nat) : Nat × State :=
  match (regAt a).filter fun h => h.reg.pair && !h.high with
  | some h => regRead s mid h.reg h.inst
  | none =>
    let (l, s) := read32 s mid a
    let (h, s) := read32 s mid (a + 4)
    (l + 2 ^ 32 * h, s)

def regBusWrite (s : State) (mid a size v : Nat) : State := if size = 8 then write64 s mid a v else write32 s mid a v
def regBusRead (s : State) (mid a size : Nat) : Nat × State := if size = 8 then read64 s mid a else read32 s mid a

/-! ### Memories of BAR 0 -/

/-- A memory that a BAR 0 offset shows, with the place in it. -/
inductive BarPlace where
  | regs
  | cmpList
  | isp (p rel : Nat)
  | lsram (k at' : Nat)
  | spm (at' : Nat)
  | prog (c at' : Nat)
  | data (c at' : Nat)
  | shared (at' : Nat)
  | msix (at' : Nat)
  | pba (at' : Nat)
  deriving DecidableEq, Repr

/-- What a BAR 0 offset shows (R45 and the windows of each chapter). -/
def barPlace (s : State) (a : Nat) : BarPlace :=
  if a / 0x10000 = 0x09 then .cmpList
  else match blockAt a with
    | some .isp =>
      let r := a % 0x100000
      if r < 0x20000 then .regs else .isp ((a - 0x200000) / 0x100000) r
    | some .pod =>
      let k := (a - 0x400000) / 0x40000
      let r := a % 0x40000
      if r < 0x20000 then .regs else .lsram k (rd s F.POD_LSRAM_PAGE_PAGE k * 0x20000 + (r - 0x20000))
    | some .sq =>
      let c := (a - 0x1000000) / 0x20000
      let r := a % 0x20000
      if r < 0x8000 then .regs
      else if r < 0x10000 then .prog c (r - 0x8000)
      else if r < 0x12000 then .data c (r - 0x10000)
      else .regs
    | some .hif =>
      let r := a % 0x100000
      if 0x10000 ≤ r ∧ r < 0x18000 then .msix (r - 0x10000)
      else if 0x18000 ≤ r ∧ r < 0x18100 then .pba (r - 0x18000)
      else .regs
    | none =>
      if 0x800000 ≤ a ∧ a < 0x1000000 then .spm (a - 0x800000)
      else if 0x1100000 ≤ a ∧ a < 0x1140000 then .shared (a - 0x1100000)
      else .regs
    | _ => .regs

/-- Write one byte of program memory (R74, R98): what a recipe left there is overwritten. -/
def putProg (s : State) (a v : Nat) : State :=
  { s with prog := sset s.prog 0 a (if (coreAt s (a / 0x8000)).rom = 0 ∧ v = progRest s a then 0 else v + 1) }

/-- Bytes of a list with their places. -/
def places (a : Nat) (bs : List Nat) : List (Nat × Nat) := bs.zipIdx.map fun p => (a + p.2, p.1)

/-- A pod's local SRAM is open to BAR 0 while the pod is IDLE (spec/09). -/
def lsramOpen (s : State) (k : Nat) : Bool := podState s k == 0

/-- One byte of a pod's local SRAM: what was written, zero while no run has used it, a free value after one (R354, log 3). -/
def lsramByte (s : State) (k a : Nat) : Nat × State :=
  match sget s.lsram 0 (k * 0x200000 + a) with
  | v + 1 => (v, s)
  | 0 => if sget s.lsramUsed false k then takeFree s 8 else (0, s)

/-- Bytes of an MSI-X table entry (R448, PCI Express): message address, data, vector control. -/
def MsixEntry.bytes (e : MsixEntry) : List Nat := toBytes 8 e.addr ++ toBytes 4 e.data ++ toBytes 4 e.masked.toNat

/-- The message of vector v that waits is sent once nothing masks it (R448). -/
def msixRelease (s : State) (fn v : Nat) : State :=
  let e := msixAt s fn v
  let p := pciAt s fn
  if e.pending && !e.masked && !p.msixMask && p.msixEn then
    sendHost (setMsix s fn v { e with pending := false }) (.msi fn e.addr e.data)
  else s

/-- A write to the MSI-X table of a function, byte `a` of it on (R448). -/
def msixWrite (s : State) (fn a : Nat) (bs : List Nat) : State :=
  let v := a / 16
  let e := msixAt s fn v
  let b := (places (a % 16) bs).foldl (fun b p => b.set p.1 p.2) e.bytes
  msixRelease (setMsix s fn v { e with addr := leField b 0 8 / 4 * 4, data := leField b 8 4, masked := leField b 12 4 % 2 == 1 }) fn v

/-- Bytes of the MSI-X table of a function. -/
def msixRead (s : State) (fn a n : Nat) : List Nat := (((msixAt s fn (a / 16)).bytes).drop (a % 16)).take n

/-- Byte `a` of the pending-bit array of a function. -/
def pbaByte (s : State) (fn a : Nat) : Nat :=
  (List.range 8).foldl (fun x i => if (msixAt s fn (8 * a + i)).pending then x + 2 ^ i else x) 0

/-- A write of `size` bytes into a memory that BAR 0 shows. -/
def barWrite (s : State) (mid a size v : Nat) : State :=
  let bs := toBytes size v
  match barPlace s a with
  | .regs => regBusWrite s mid a size v
  | .cmpList => cmpListWrite s a size v
  | .isp p r =>
    { s with ispMem := (places r bs).foldl (fun m e =>
        if ispTableByte e.1 then ramPut s (memISP p) m (p * 0x100000 + e.1) (BitVec.ofNat 8 (e.2 &&& ispTableMask e.1)) else m) s.ispMem }
  | .lsram k b =>
    if !domReach s (podDomain k) then s
    else if lsramOpen s k then
      { s with lsram := (places b bs).foldl (fun m e => sset m 0 (k * 0x200000 + e.1) (e.2 + 1)) s.lsram }
    else podEvt s 4
  | .spm b => spmPut s b bs
  | .prog c b =>
    if sqState s c = sqHALTED then hashSpoiled ((places (c * 0x8000 + b) bs).foldl (fun s e => putProg s e.1 e.2) s)
    else sqIrq s c 5
  | .data c b => if sqState s c = sqHALTED then (places (c * 0x2000 + b) bs).foldl (fun s e => dataPut s e.1 (BitVec.ofNat 8 e.2)) s else sqIrq s c 5
  | .shared b => sharedPuts s b bs
  | .msix b => msixWrite s 0 b bs
  | .pba _ => s

/-- A read of `size` bytes of a memory that BAR 0 shows. -/
def barRead (s : State) (mid a size : Nat) : Nat × State :=
  let at' (f : Nat → Nat) : Nat := ofBytes ((List.range size).map f)
  match barPlace s a with
  | .regs => regBusRead s mid a size
  | .cmpList =>
    let e := cmpEntry s (rd s F.ENC_LIST_PAGE_PAGE * 8192 + a % 0x10000 / 8)
    (if size = 8 then e else if a % 8 < 4 then e % 2 ^ 32 else e / 2 ^ 32, s)
  | .isp p r => (at' fun i => ispByte s p (r + i), s)
  | .lsram k b =>
    if domReach s (podDomain k) && lsramOpen s k then
      (List.range size).foldl (fun x i =>
        let (v, s) := lsramByte x.2 k (b + i)
        (x.1 + v * 2 ^ (8 * i), s)) (0, s)
    else (0, s)
  | .spm b => (ofBytes (spmBytes s b size), s)
  | .prog c b => (at' fun i => progByte s (c * 0x8000 + b + i), s)
  | .data c b => (at' fun i => (dataByte s (c * 0x2000 + b + i)).toNat, s)
  | .shared b => (ofBytes (sharedBytes s b size), s)
  | .msix b => (ofBytes (msixRead s 0 b size), s)
  | .pba b => (at' fun i => pbaByte s 0 (b + i), s)

/-! ### Which accesses arrive -/

/-- An access of a size and alignment that BAR 0 accepts (R15). -/
def goodAccess (a size : Nat) : Bool := (size == 4 || size == 8) && a % size == 0

/-- HIF_BAD_ACCESS counts (R15, R442). -/
def badAccess (s : State) : State := setBit (bump s F.HIF_BAD_ACCESS_COUNT) F.HIF_EVT_EVT 0 5

/-- The domains of an access: those of its block; POD_STATUS answers for a pod that is off (R47, R48, spec/09; log 9). -/
def needs (a : Nat) : List Nat :=
  if (regAt a).any fun h => h.reg.rid == R.POD_STATUS.rid then [22] else accessDomains a

/-- A BAR 0 access reaches its block (R47, R48, R67, R571, R576). -/
def busReach (s : State) (a : Nat) : Bool :=
  !resetRunning s && !blkBusy s (blockBit a) && (needs a).all (domReach s)
  && (blockAt a ≠ some .fio || isSet s F.GLB_STATUS_D2D_UP)

/-- The registers that read normally during a cold or warm reset (R571). -/
def readsInReset (a : Nat) : Bool :=
  match regAt a with
  | some h => [R.GLB_ID, R.GLB_STATUS, R.GLB_RST_STATUS, R.GLB_RST_CAUSE].any fun r => r.rid == h.reg.rid
  | none => false

/-- A master that reaches BAR 0: the PF and the sequencer cores (R43). -/
def reachesBar (mid : Nat) : Bool := mid == 0x01 || (coreOf mid).isSome

/-- Another master than those leaves BAR 0 untouched; an open one is recorded (R42, R43; log 56). -/
def barRefuse (s : State) (mid a : Nat) : State := if isOpen mid then secRefuse s mid a false else s

/-! ### VF windows (R443 to R445) -/

/-- What an offset of VF BAR 0 shows (R444). -/
inductive VfPlace where
  | id | cap | self
  | ring (n a : Nat)
  | msix (at' : Nat)
  | pba (at' : Nat)
  | mbx (m : Option Nat) (a : Nat)
  | none
  deriving DecidableEq, Repr

def vfPlace (a : Nat) : VfPlace :=
  if a = 0 then .id
  else if a = 4 then .cap
  else if a = 0x10 then .self
  else if 0x40000 ≤ a ∧ a < 0x80000 then .ring ((a - 0x40000) / 0x40) (0x1400000 + (a - 0x40000))
  else if 0x80000 ≤ a ∧ a < 0x80400 then .msix (a - 0x80000)
  else if 0x81000 ≤ a ∧ a < 0x81008 then .pba (a - 0x81000)
  else if 0x90000 ≤ a ∧ a < 0xA0000 then
    .mbx (if a - 0x90000 < 0x1000 then some ((a - 0x90000) / 0x40) else Option.none) (0x40000 + (a - 0x90000))
  else .none

/-- A VF reaches mailbox m with its own MID: as its sender or receiver, or through a register that decides by itself
(R444, R471; log 57). -/
def vfMbx (s : State) (mid : Nat) (m : Option Nat) (a : Nat) : Bool :=
  match m with
  | some m => isSender s mid m || isReceiver s mid m
      || (regAt a).any fun h => [R.MBX_BIND, R.MBX_DATA, R.MBX_STAT, R.MBX_PEEK].any fun r => r.rid == h.reg.rid
  | none => false

def vfWrite (s : State) (mid a size v : Nat) : State :=
  match vfPlace a with
  | .ring n b =>
    if !busReach s b then s
    else if ringOwner s n ≠ fnOf mid then secRefuse s mid n true
    else regBusWrite s mid b size v
  | .msix b => if busReach s 0x1810000 then msixWrite s (fnOf mid) b (toBytes size v) else s
  | .mbx m b =>
    if !busReach s b then s
    else if vfMbx s mid m b then regBusWrite s mid b size v
    else mbxRefuse s mid (m.getD 0)
  | _ => s

def vfRead (s : State) (mid a size : Nat) : Nat × State :=
  match vfPlace a with
  | .id => regBusRead s mid 0 size
  | .cap => regBusRead s mid 4 4
  | .self => (fnOf mid, s)
  | .ring n b =>
    if !busReach s b then (0, s)
    else if ringOwner s n ≠ fnOf mid then (0, secRefuse s mid n true)
    else regBusRead s mid b size
  | .msix b => if busReach s 0x1810000 then (ofBytes (msixRead s (fnOf mid) b size), s) else (0, s)
  | .pba b => if busReach s 0x1810000 then (ofBytes ((List.range size).map fun i => pbaByte s (fnOf mid) (b + i)), s) else (0, s)
  | .mbx m b =>
    if !busReach s b then (0, s)
    else if vfMbx s mid m b then regBusRead s mid b size
    else (0, mbxRefuse s mid (m.getD 0))
  | .none => (0, s)

/-! ### The access -/

/-- A write of `size` bytes by master `mid`: to BAR 0, or to its own window for a VF. -/
def busWrite (s : State) (mid a size v : Nat) : State :=
  if fnOf mid ≠ 0 && !vfEnabled s (fnOf mid) then s
  else if !goodAccess a size then (if resetRunning s then s else badAccess s)
  else if fnOf mid ≠ 0 then (if a < 0x100000 then vfWrite s mid a size v else s)
  else if !reachesBar mid then barRefuse s mid a
  else if busReach s a then barWrite s mid a size v
  else s

/-- A read of `size` bytes by master `mid`. -/
def busRead (s : State) (mid a size : Nat) : Nat × State :=
  if fnOf mid ≠ 0 && !vfEnabled s (fnOf mid) then (0, s)
  else if !goodAccess a size then (0, if resetRunning s then s else badAccess s)
  else if fnOf mid ≠ 0 then (if a < 0x100000 then vfRead s mid a size else (0, s))
  else if !reachesBar mid then (0, barRefuse s mid a)
  else if busReach s a || (resetRunning s && readsInReset a) then barRead s mid a size
  else (0, s)

/-! ### The rows of an access -/

/-- A write, and where a second master writes the same register in the same fabric cycle, both in descending order of their
MIDs: the register keeps the value of the lower one (R44). Writes of different cycles are commands of their own, in order of
arrival. -/
def cycleWrite (s : State) (mid a size v : Nat) (rival : Option (Nat × Nat)) : State :=
  match rival with
  | none => busWrite s mid a size v
  | some (m, u) =>
    if mid < m then busWrite (busWrite s m a size u) mid a size v else busWrite (busWrite s mid a size v) m a size u

/-- REGISTER_WRITE (R17, R44). -/
def execRegisterWrite (mid off size val : Nat) (rival : Option (Nat × Nat)) (s : State) : Host.Outcome State Fault Refusal :=
  finish s (cycleWrite s mid off size val rival)

/-- LO_HALF_READ: a 32-bit read (R14). -/
def execLoHalfRead (mid off : Nat) (s : State) : Host.Outcome State Fault Refusal := finish s (busRead s mid off 4).2

/-- RC_READ: a 32-bit read (R17, R622). -/
def execRcRead (mid off : Nat) (s : State) : Host.Outcome State Fault Refusal := finish s (busRead s mid off 4).2

/-- An access that BAR 0, or above its end BAR 2, does not accept (R15, R442; log 58). -/
def isBadAccess (off size : Nat) : Bool :=
  if off < 0x4000000 then !goodAccess off size else !(size == 4 && (off % 0x100 == 0 || off % 0x100 == 4))

/-- What a read of doorbell slot n in BAR 2 returns: at +0x00 the device-owned index of ring n, at +0x04 RNG_BUOY_STAT of ring n; every
other access is discarded, reads zero and counts (R442). -/
def bar2Read (s : State) (off size : Nat) : Nat × State :=
  let n := off / 0x100 % 4096
  if isBadAccess (0x4000000 + off) size then (0, if resetRunning s then s else badAccess s)
  else if !domReach s 22 then (0, s)
  else if off % 0x100 = 4 then regValue s R.RNG_BUOY_STAT n
  else (if hostProduced s n then rd s F.RNG_HEAD_INDEX n else rd s F.RNG_TAIL_INDEX n, s)

/-- BAD_ACCESS (R15). -/
def execBadAccess (_mid off size : Nat) (_isWrite : Bool) (s : State) : Host.Outcome State Fault Refusal :=
  finish s (if isBadAccess off size && !resetRunning s then badAccess s else s)

/-- HIF_IRQ_REARM (R449). -/
def execHifIrqRearm (mask : Nat) (s : State) : Host.Outcome State Fault Refusal := finish s (inReach 19 s fun s => irqRearm s mask)

/-- HIF_CLR_COUNTS (R17). -/
def execHifClrCounts (s : State) : Host.Outcome State Fault Refusal := finish s (inReach 19 s hifClear)

/-- The host clears a function mask: every message that waits is sent, in order of its vector (R448). -/
def msixReleaseAll (s : State) (fn : Nat) : State := (List.range (if fn = 0 then 2048 else 64)).foldl (fun s v => msixRelease s fn v) s

/-- MSIX_UNMASK: a vector mask, or with `none` the function mask, clears (R448). -/
def msixUnmask (s : State) (fn : Nat) (vec : Option Nat) : State :=
  match vec with
  | some v =>
    if v < (if fn = 0 then 2048 else 64) then msixRelease (setMsix s fn v { msixAt s fn v with masked := false }) fn v else s
  | none => msixReleaseAll (setPci s fn { pciAt s fn with msixMask := false }) fn

def execMsixUnmask (fn : Nat) (vec : Option Nat) (s : State) : Host.Outcome State Fault Refusal :=
  onUnit fn 8 s fun s => inBlock 19 s fun s => msixUnmask s fn vec

end Sys2Proof.Machine
end

