-- ==== Sys2Proof/Machine/SqEvents.lean ====
section
/-! DEFINITION. What ends a stall of a sequencer core: the posted requests that take effect, the answers of the blocks, the
ends of waits and of run-ahead regions (spec/02, spec/03). -/
namespace Sys2Proof.Machine

/-! ### Requests at their blocks (R128 to R150) -/

/-- The MID of core c (R39). -/
def coreMid (c : Nat) : Nat := 0x10 + c

/-- The answer of the block of bit b; ABSENT where it is not reached (R130). -/
def blockAnswer (b : Nat) (s : State) (f : State → Answer × State) : Answer × State :=
  if blockReach s b then f s else (Answer.of stABSENT, s)

/-- RANGE unless `ok` (R131). -/
def operandOk (ok : Bool) (s : State) (f : State → Answer × State) : Answer × State := if ok then f s else (Answer.of stRANGE, s)

def FireResult.status : FireResult → Nat
  | .ok => stOK
  | .refused => stREFUSED

def MbxResult.status : MbxResult → Nat
  | .ok => stOK
  | .refused => stREFUSED
  | .overrun => stSENDOVERRUN
  | .empty => stEMPTY

/-- The open region of core c records what it submitted (R90). -/
def noteRegion (s : State) (c : Nat) (f : Region → Region) : State :=
  setCore s c { coreAt s c with region := (coreAt s c).region.map f }

/-- A descriptor queued with EARLY: bit 0 of its FLAGS is set (R144, R146; log 75). -/
def earlyBytes (bs : List Nat) : List Nat := bs.modify 1 (· ||| 1)

/-- The outcome of a request of core c at its block, and its effect; loads and mbxrcv answer with values of their own. -/
def request (s : State) (c : Nat) (q : Req) : Answer × State :=
  match q with
  | .store a n v => (Answer.of stOK, busWrite s (coreMid c) a n v)
  | .load _ _ => (Answer.of stOK, s)
  | .pulse n t w => blockAnswer 8 s fun s => pulseAction s n t w
  | .pair p t w => blockAnswer 8 s fun s => pairAction s p t w
  | .trigpkt p t i => blockAnswer 10 s fun s => trigpktAction s p t i
  | .fire ch => blockAnswer 2 s fun s => operandOk (ch ≤ 47) s fun s =>
    let (r, s) := fireRequest s (coreMid c) ch
    (Answer.of r.status, s)
  | .mbxsend m w _ => blockAnswer 3 s fun s => operandOk (m ≤ 63) s fun s =>
    let (r, s) := mbxSend s (coreMid c) m (w % 2 ^ 32)
    (Answer.of r.status, s)
  | .mbxrcv _ => (Answer.of stOK, s)
  | .mbxwdr m => blockAnswer 3 s fun s => operandOk (m ≤ 63) s fun s =>
    let (r, s) := mbxWithdraw s (coreMid c) m
    (Answer.of r.status, s)
  | .dmaq bs early => blockAnswer 16 s fun s =>
    let inside := (coreAt s c).region.isSome
    let (a, s) := dmaSubmit s (coreMid c) (if early then earlyBytes bs else bs) (if inside then some c else none)
    (a, if a.status = stOK then noteRegion s c fun r => { r with early := r.early ++ [a.id] } else s)
  | .podrun l r q => blockAnswer 14 s fun s =>
    let inside := (coreAt s c).region.isSome
    let (a, s) := submitRun s (coreMid c) l r q (if inside then some c else none)
    (a, if a.status = stOK then noteRegion s c fun r => { r with runs := r.runs ++ [a.id] } else s)
  | .framearm k v t => blockAnswer 10 s fun s => operandOk (k ≤ 63 && v ≤ 65535) s fun s =>
    if t then armTentative s c k v else armAction s k v

/-! ### The device store queue (R66) -/

/-- The oldest entry of the device store queue of core c takes effect. -/
def drainOne (s : State) (c : Nat) : State :=
  match (coreAt s c).storeQ with
  | [] => s
  | q :: rest => (request (setCore s c { coreAt s c with storeQ := rest }) c q).2

/-- Every entry of the device store queue takes effect, in program order (log 59). -/
def drainAll (s : State) (c : Nat) : State := (coreAt s c).storeQ.foldl (fun s _ => drainOne s c) s

/-- A stalled store enters its queue once an entry has freed (R66). -/
def storeEnters (s : State) (c : Nat) : State :=
  let s := if (coreAt s c).storeQ.length < 16 then s else drainOne s c
  match (coreAt s c).stall with
  | .storeFull q =>
    let k := coreAt s c
    advance (resume (setCore s c { k with storeQ := k.storeQ ++ [q] }) c) c
  | _ => s

/-- STORE_QUEUE_ROOM. -/
def storeQueueRoom (s : State) (c : Nat) : State :=
  match (coreAt s c).stall with
  | .storeFull _ => storeEnters s c
  | _ => s

def execStoreQueueRoom (c : Nat) (s : State) : Host.Outcome State Fault Refusal :=
  onBlock 15 c 8 s fun s => storeQueueRoom s c

/-- DSYNC_DONE: the entries still queued have taken effect, and dsync ends (R66, R117). -/
def dsyncDone (s : State) (c : Nat) : State :=
  if (coreAt s c).stall ≠ .dsync then s
  else
    let s := drainAll s c
    if (coreAt s c).stall = .dsync then advance (resume s c) c else s

def execDsyncDone (c : Nat) (s : State) : Host.Outcome State Fault Refusal := onBlock 15 c 8 s fun s => dsyncDone s c

/-! ### Answers (R115, R129, R142, R145) -/

/-- A value reaches rd of core c, which goes on (R115). -/
def loadCore (s : State) (c d v : Nat) : State := advance (resume (setV s c d (BitVec.ofNat 64 v)) c) c

/-- mbxrcv: the word with C set and Z from it; else zero, C clear, Z set, also where the number is above 63 or MBX is not
reached (R140, R142; log 60). -/
def receiveCore (s : State) (c d m : Nat) : State :=
  let (r, s) := if m ≤ 63 && blockReach s 3 then mbxReceive s (coreMid c) m else (none, s)
  let s := setV s c d (BitVec.ofNat 64 (r.getD 0))
  advance (resume (setFlags s c { flagsOf s c with z := decide (r.getD 0 = 0), c := r.isSome }) c) c

/-- The block answers request q of core c, which waits with result register d. -/
def answerReq (s : State) (c : Nat) (q : Req) (d : Nat) : State :=
  match q with
  | .load a n =>
    let (v, s) := busRead s (coreMid c) a n
    loadCore s c d v
  | .mbxrcv m => receiveCore s c d m
  | .mbxsend m _ true =>
    let (a, s) := request s c q
    if a.status = stOK then hold s c (.syncSend m d) else answerCore s c d a.word
  | _ =>
    let (a, s) := request s c q
    answerCore s c d a.word

/-- A dmaq finds every place in flight taken (R145). -/
def noSlot (s : State) (q : Req) : Bool :=
  match q with
  | .dmaq _ _ => decide (256 ≤ inFlight s)
  | _ => false

/-- DEVICE_ANSWER: the earlier entries of the queue take effect first (R66); a dmaq without a place stalls with WAIT_KIND 4
(R145). -/
def deviceAnswer (s : State) (c : Nat) : State :=
  match (coreAt s c).stall with
  | .answer q d =>
    let s := drainAll s c
    if (coreAt s c).stall ≠ .answer q d then s
    else if noSlot s q then setSqState s c sqWAITING
    else answerReq s c q d
  | _ => s

/-- Core c waits to receive from a mailbox. -/
def receives (s : State) (c : Nat) : Bool :=
  match (coreAt s c).stall with
  | .answer (.mbxrcv _) _ => true
  | _ => false

/-- The requests of cores c and d reach their blocks in one cycle: a receive goes first, so that it takes the word which a
withdrawal would take and leaves room for a send (R143, R475); else the higher MID (R44). -/
def answerBoth (s : State) (c d : Nat) : State :=
  let first := if receives s c then c else if receives s d then d else max c d
  deviceAnswer (deviceAnswer s first) (c + d - first)

/-- DEVICE_ANSWER, with the other core whose request reaches its block in the same cycle. -/
def deviceAnswers (s : State) (c : Nat) (same : Option Nat) : State :=
  match same with
  | some d => if d = c then deviceAnswer s c else answerBoth s c d
  | none => deviceAnswer s c

def execDeviceAnswer (c : Nat) (same : Option Nat) (s : State) : Host.Outcome State Fault Refusal :=
  onBlock 15 (max c (same.getD 0)) 8 s fun s => deviceAnswers s c same

/-! ### Mailbox accesses of one cycle (R473 to R476) -/

/-- The receiver of mailbox m receives: a core that waits for this mailbox takes its answer (R474). -/
def receiverReads (s : State) (m : Nat) : State :=
  let r := rd s F.MBX_BIND_RECEIVER m
  match coreOf r with
  | some c => match (coreAt s c).stall with
    | .answer (.mbxrcv k) _ => if k = m then deviceAnswer s c else s
    | _ => s
  | none => (mbxReceive s r m).2

/-- An access of mailbox m; a receive that reaches it in the same cycle goes first (R475, R476). -/
def mbxAccess (s : State) (m : Nat) (received : Bool) (f : State → State) : State := f (if received then receiverReads s m else s)

/-- MBX_DATA_WRITE (R473). -/
def execMbxDataWrite (mid m word : Nat) (received : Bool) (s : State) : Host.Outcome State Fault Refusal :=
  onUnit m 64 s fun s => inReach 3 s fun s => mbxAccess s m received fun s => (mbxSend s mid m word).2

/-- MBX_STAT_m.WDR written 1 (R475). -/
def execMbxWithdraw (mid m : Nat) (received : Bool) (s : State) : Host.Outcome State Fault Refusal :=
  onUnit m 64 s fun s => inReach 3 s fun s => mbxAccess s m received fun s => (mbxWithdraw s mid m).2

/-- MBX_TIMEOUT; a receive of the same cycle is in time (R476). -/
def execMbxTimeout (m : Nat) (received : Bool) (s : State) : Host.Outcome State Fault Refusal :=
  onBlock 3 m 64 s fun s => mbxAccess s m received fun s => mbxTimeout s m

/-- DMAQ_SLOT_FREE: the stalled dmaq proceeds once a place is free (R145). -/
def dmaqSlotFree (s : State) (c : Nat) : State :=
  match (coreAt s c).stall with
  | .answer (.dmaq bs e) d => if sqState s c ≠ sqWAITING || noSlot s (.dmaq bs e) then s else answerReq s c (.dmaq bs e) d
  | _ => s

def execDmaqSlotFree (c : Nat) (s : State) : Host.Outcome State Fault Refusal := onBlock 15 c 8 s fun s => dmaqSlotFree s c

/-! ### Waits (R81, R119 to R122) -/

/-- The deadline of the open region of core c has passed: the region is squashed (R93, R120). -/
def orSquash (s : State) (c : Nat) (f : State → State) : State :=
  match (coreAt s c).region with
  | some r => if r.deadline < s.tb then squashTo s c r else f s
  | none => f s

/-- WAIT_END: the awaited condition holds. A TB wait whose deadline lay before the awaited time ended there. -/
def waitEnd (s : State) (c : Nat) : State :=
  match (coreAt s c).stall with
  | .wait kind idx value deadline past =>
    if waitHolds s c kind idx value then
      orSquash s c fun s => endWait s c kind idx past (kind == 0 && deadline.any fun d => d < value)
    else s
  | _ => s

def execWaitEnd (c : Nat) (s : State) : Host.Outcome State Fault Refusal := onBlock 15 c 8 s fun s => waitEnd s c

/-- WAIT_DEADLINE: TB has reached the deadline; a condition that occurs in the same cycle wins. -/
def waitDeadline (s : State) (c : Nat) : State :=
  match (coreAt s c).stall with
  | .wait kind idx value (some d) past =>
    if d ≤ s.tb then
      let same := waitHolds s c kind idx value && (if kind = 0 then decide (value ≤ d) else decide (d = s.tb))
      orSquash s c fun s => endWait s c kind idx past !same
    else s
  | _ => s

def execWaitDeadline (c : Nat) (s : State) : Host.Outcome State Fault Refusal := onBlock 15 c 8 s fun s => waitDeadline s c

/-! ### Regions (R88, R92, R93) -/

/-- The core that waited to commit goes on: after commit itself, or with the class-C instruction at its pc, which a
single-stepped core executes now (R88, R92, R624; log 46). -/
def afterCommit (s : State) (c : Nat) (whole : Bool) : State :=
  if whole then advance (resume s c) c
  else
    let k := coreAt s c
    let s := setSqState (setCore s c { k with stall := .none }) c sqRUNNING
    if k.stepping then runWord s c else s

/-- REGION_COMMIT: the guard is there for a waiting commit. -/
def regionCommit (s : State) (c : Nat) : State :=
  match (coreAt s c).stall, (coreAt s c).region with
  | .commit whole, some r =>
    orSquash s c fun s => if guardArrived s c r then afterCommit (commitRegion s c) c whole else s
  | _, _ => s

def execRegionCommit (c : Nat) (s : State) : Host.Outcome State Fault Refusal := onBlock 15 c 8 s fun s => regionCommit s c

/-- SPEC_DEADLINE: TB reaches the deadline of the open region, which is squashed; what the core waited for is not done
(R93, R145). -/
def specDeadline (s : State) (c : Nat) : State :=
  match (coreAt s c).region with
  | some r => if r.deadline ≤ s.tb then squashTo s c r else s
  | none => s

def execSpecDeadline (c : Nat) (s : State) : Host.Outcome State Fault Refusal := onBlock 15 c 8 s fun s => specDeadline s c

end Sys2Proof.Machine
end

