-- ==== Sys2Proof/Machine/Recipe.lean ====
section
/-! DEFINITION. The start of a recipe: the checks of its card and the registers it writes (spec/02, R70 to R76; R235, R383,
R433). -/
namespace Sys2Proof.Machine

/-! ### The fields of a card (R69, R70) -/

/-- A check of a card: the offset of a field, and whether its value is in range. -/
abbrev Check := Nat × Bool

/-- A field of `n` bytes lies from `lo` to `hi`. -/
def Recipe.within (r : Recipe) (off n lo hi : Nat) : Check := (off, decide (lo ≤ r.u off n) && decide (r.u off n ≤ hi))

/-- The header and the trailer (R69): the recipe, the options, the DMA channels, EV_MAP, the rings of AUTO_DELIVER, the fields
that are zero. The unused bytes among the parameters are no fields and are not checked (log 79). -/
def Recipe.headerChecks (r : Recipe) : List Check :=
  [r.within 0 1 1 6, r.within 2 2 0 3, r.within 0x13 1 0 63, r.within 0x14 1 0 (64 - r.dmaFirst), r.within 0x15 1 0 47,
   r.within 0x1A 2 0 0, r.within 0xF4 4 0 0, r.within 0xF8 4 0 0] ++
  if r.autoDeliver then [r.within 0x16 2 0 4095, r.within 0x18 2 0 4095] else []

/-- The FREERUN fields, moved by d. -/
def Recipe.freerunChecks (r : Recipe) (d : Nat) : List Check :=
  [r.within (0x20 + d) 8 500 (2 ^ 40), r.within (0x28 + d) 4 1 (2 ^ 32 - 1), r.within (0x2C + d) 1 0 1]

/-- The POSLOCK fields, moved by d; FMIN above FMAX is reported at FMAX (log 62). -/
def Recipe.poslockChecks (r : Recipe) (d : Nat) : List Check :=
  let fmin := r.u (0x24 + d) 4
  let fmax := r.u (0x28 + d) 4
  [r.within (0x20 + d) 4 1 (2 ^ 31 - 1), r.within (0x24 + d) 4 1 2000000, r.within (0x28 + d) 4 (max 1 fmin) 2000000,
   r.within (0x2C + d) 4 1 (2 ^ 31 - 1), r.within (0x30 + d) 1 2 64, r.within (0x31 + d) 1 0 2,
   r.within (0x32 + d) 2 0 0, r.within (0x4B + d) 1 0 0, r.within (0x34 + d) 4 1 (2 ^ 32 - 1), r.within (0x38 + d) 4 fmin fmax, r.within (0x3C + d) 4 0 100000,
   r.within (0x40 + d) 4 1 1000000, r.within (0x44 + d) 4 1 (2 ^ 32 - 1), r.within (0x48 + d) 1 0 1,
   r.within (0x49 + d) 1 1 2, r.within (0x4A + d) 1 0 1, r.within (0x4C + d) 4 0 262143]

/-- The POSLIST fields, moved by d. -/
def Recipe.poslistChecks (r : Recipe) (d : Nat) : List Check :=
  [r.within (0x20 + d) 4 0 262143, r.within (0x24 + d) 4 1 (262144 - r.u (0x20 + d) 4), r.within (0x28 + d) 1 0 2,
   r.within (0x29 + d) 1 0 1, r.within (0x2C + d) 4 1 (2 ^ 32 - 1), r.within (0x30 + d) 1 0 1]

/-- A gate of DOUBLEFRAME is a claimed output. -/
def Recipe.gateCheck (r : Recipe) (off : Nat) : Check := (off, decide (r.u off 1 ≤ 15) && r.trgs.testBit (r.u off 1))

/-- The fields of DOUBLEFRAME before its source block. -/
def Recipe.doubleChecks (r : Recipe) : List Check :=
  [r.within 0x20 1 0 1, r.gateCheck 0x21, r.gateCheck 0x22, r.within 0x24 4 0 1000000, r.within 0x28 4 100 1000000,
   r.within 0x2C 4 1 1000000]

/-- The fields of BURST, with the owner of its end channel (R73). PRE_FRAMES and POST_FRAMES fit their registers (log 62). -/
def Recipe.burstChecks (r : Recipe) (mine : Nat → Bool) : List Check :=
  let gin := r.u 0x30 1 = 0
  [r.within 0x20 8 0 (2 ^ 48 - 1), r.within 0x28 8 0 (2 ^ 48 - 1), r.within 0x30 1 0 1] ++
  (if gin then [r.within 0x31 1 0 7, r.within 0x32 1 0 1] else [r.within 0x31 1 0 47, (0x31, mine (r.u 0x31 1))]) ++
  [r.within 0x33 1 0 1] ++ (if gin then [r.within 0x34 1 0 47, (0x34, mine (r.u 0x34 1))] else []) ++
  if r.u 0x33 1 = 1 then r.freerunChecks 0x20 else []

/-- The fields of TRIAGE; the layer list lies as R147 has it (log 62). -/
def Recipe.triageChecks (r : Recipe) : List Check :=
  [(0x20, decide (r.u 0x20 4 < 0x800000) && r.u 0x20 4 % 64 == 0), r.within 0x24 1 0 4, r.within 0x25 1 0 1,
   r.within 0x26 1 0 1, r.within 0x28 4 1000 (2 ^ 30), r.within 0x2C 2 0 1024, r.within 0x2E 2 0 1024]

/-- The resources that a frame clock on an encoder needs (R72); a FREERUN needs the FCG alone (log 62). -/
def Recipe.clockChecks (r : Recipe) : List Check :=
  match r.clock with
  | some (1, _) => [(0x05, r.fcgs ≠ 0)]
  | some _ => [(0x05, r.fcgs ≠ 0 && r.encs ≠ 0), (0x10, r.cmps ≠ 0)]
  | none => []

/-- Every check of the card of a recipe; the first field is the one of lowest offset (R75). -/
def Recipe.checks (r : Recipe) (mine : Nat → Bool) : List Check :=
  let body := match r.id with
    | 4 => r.doubleChecks
    | 5 => r.burstChecks mine
    | 6 => r.triageChecks
    | _ => []
  let clock := match r.clock with
    | some (1, d) => if r.id = rcBURST then [] else r.freerunChecks d
    | some (2, d) => r.poslockChecks d
    | some (_, d) => r.poslistChecks d
    | none => []
  r.headerChecks ++ r.clockChecks ++ body ++ clock

/-- The card's checksum: the results count as zero (R69). -/
def Recipe.crcGood (r : Recipe) : Bool :=
  crc32 (r.card.take 0xE0 ++ List.replicate 0x18 0 ++ (r.card.drop 0xF8).take 4) == r.u 0xFC 4

/-- A claimed resource lies in a powered-down domain (R75): the pins of outputs, encoders and general inputs in D2 FIELD (R48),
the burst logic of a stream in D23 MEM (R625). -/
def Recipe.down (s : State) (r : Recipe) : Bool :=
  (r.ports ≠ 0 && (List.range 8).any fun n => r.ports.testBit n && !domUp s (6 + n))
  || (r.pods ≠ 0 && (List.range 8).any fun k => r.pods.testBit k && !domUp s (podDomain k))
  || ((r.fcgs ≠ 0 || r.encs ≠ 0 || r.trgs ≠ 0 || r.streams ≠ 0 || r.cmps ≠ 0 || r.dmaCount ≠ 0 || r.autoDeliver) && !domUp s 22)
  || ((r.trgs ≠ 0 || r.encs ≠ 0 || (r.id == rcBURST && r.u 0x30 1 == 0)) && !domUp s 2)
  || (r.id == rcBURST && !domUp s 23)

/-- Another running recipe claims a resource of this one (R76). -/
def claimsMeet (s : State) (c : Nat) (r : Recipe) : Bool :=
  (List.range 8).any fun d => d ≠ c && (runningRecipe s d).any fun o => r.conflicts o

/-- Why the recipe of core c does not start: the code of SQ_RECIPE_ERR and the offset (R75). -/
def recipeRefusal (s : State) (c : Nat) (r : Recipe) : Option (Nat × Nat) :=
  if !r.crcGood then some (1, 0)
  else if r.u 1 1 ≠ 1 then some (2, 0)
  else if r.u 0 1 ≠ r.id then some (3, 0)
  else match (((r.checks fun ch => rd s F.BCN_CH_CFG_OWNER ch == coreMid c).filter fun k => !k.2).map Prod.fst).min? with
    | some off => some (4, off)
    | none => if claimsMeet s c r then some (5, 0) else if r.down s then some (6, 0) else none

/-! ### The registers it writes -/

/-- The recipe of master `mid` writes fields of instance i of a register; the others keep their values. -/
def putReg (s : State) (mid : Nat) (r : Reg) (i : Nat) (fs : List (Field × Nat)) : State :=
  if busReach s (r.off + i * r.dims.s1) then
    let v := r.fields.foldl (fun a f =>
      match fs.find? fun p => p.1.fid == f.fid with
      | some p => a + p.2 % 2 ^ f.width * 2 ^ f.lo
      | none => if f.ty = .rw then a + rd s f i * 2 ^ f.lo else a) 0
    regWrite s r ⟨mid, i, if r.pair then 2 ^ 64 - 1 else 2 ^ 32 - 1, v⟩
  else s

/-- Every bit that is set in the low `n` of a mask. -/
def forBits (n m : Nat) (s : State) (f : State → Nat → State) : State := ((List.range n).filter m.testBit).foldl f s

/-- The outputs and ports of a frame clock: width and delay of each output, the source and the ports by PATH (spec/05, R202;
R235 for the gates). -/
def clockOutputs (s : State) (mid : Nat) (r : Recipe) (g pulse path : Nat) : State :=
  let gates := if r.id = rcDOUBLE then [r.u 0x21 1, r.u 0x22 1] else []
  let s := forBits 16 r.trgs s fun s n =>
    if gates.contains n then s
    else
      let s := if path = 0 then putReg s mid R.TRG_CFG n [(F.TRG_CFG_SRC, 2), (F.TRG_CFG_FCG_SEL, g)] else s
      putReg (putReg s mid R.TRG_DELAY n [(F.TRG_DELAY_NS, 0)]) mid R.TRG_WIDTH n [(F.TRG_WIDTH_NS, pulse)]
  if path = 1 then
    putReg (putReg s mid R.FCG_PORTS g [(F.FCG_PORTS_PORTS, r.ports)]) mid R.FCG_CFG g [(F.FCG_CFG_PKT_ALIGN, 1)]
  else s

/-- A gate of DOUBLEFRAME (R235). -/
def gateOutput (s : State) (mid g n delay width : Nat) : State :=
  let s := putReg s mid R.TRG_CFG n [(F.TRG_CFG_SRC, 2), (F.TRG_CFG_FCG_SEL, g)]
  putReg (putReg s mid R.TRG_DELAY n [(F.TRG_DELAY_NS, delay)]) mid R.TRG_WIDTH n [(F.TRG_WIDTH_NS, width)]

/-- Both gates of DOUBLEFRAME (R235). -/
def doubleGates (s : State) (mid : Nat) (r : Recipe) (g : Nat) : State :=
  if r.id = rcDOUBLE then
    let s := gateOutput s mid g (r.u 0x21 1) (r.u 0x24 4) (r.u 0x2C 4)
    gateOutput s mid g (r.u 0x22 1) (r.u 0x24 4 + r.u 0x28 4) (r.u 0x2C 4)
  else s

/-- FREERUN: the FCG in FREE mode on PERIOD_NS, started. -/
def freerunStart (s : State) (mid : Nat) (r : Recipe) (g d : Nat) : State :=
  let s := putReg s mid R.FCG_CFG g [(F.FCG_CFG_MODE, 0)]
  let s := putReg s mid R.FCG_PERIOD g [(F.FCG_PERIOD_VALUE, r.u (0x20 + d) 8)]
  fcgStart (clockOutputs s mid r g (r.u (0x28 + d) 4) (r.u (0x2C + d) 1)) g

/-- Integer division of a position by a count: down for travel forward, up for reverse (R72). -/
def roundedTo (p : Int) (n : Nat) (up : Bool) : Int := if up then -((-p) / n * n) else p / n * n

/-- The list entry and the compare unit of LIST_MODE = 0 (R72). -/
def armCrossings (s : State) (mid : Nat) (r : Recipe) (k n d : Nat) : State :=
  let cpf := r.u (0x20 + d) 4
  let rev := r.u (0x49 + d) 1 = 2
  let pos : Int := if rev then -(cpf : Int) else cpf
  let entry := r.u (0x4C + d) 4
  let s := cmpSetEntry s entry (fromSigned 56 pos + (if rev then 2 else 1) * 2 ^ 56)
  let s := putReg s mid R.CMP_CFG k [(F.CMP_CFG_SRC, n), (F.CMP_CFG_CYCLIC, 1)]
  let s := putReg (putReg s mid R.CMP_BASE k [(F.CMP_BASE_BASE, entry)]) mid R.CMP_LEN k [(F.CMP_LEN_LEN, 1)]
  let s := putReg s mid R.CMP_PERIOD k [(F.CMP_PERIOD_VALUE, fromSigned 64 pos)]
  let s := putReg s mid R.CMP_OFFSET k [(F.CMP_OFFSET_VALUE, fromSigned 64 (roundedTo (encPos s n) cpf rev))]
  cmpArm s k

/-- POSLOCK: the loop's registers, the crossings, and the start; with LIST_MODE = 1 the start waits for the compare unit
(R72). -/
def poslockStart (s : State) (mid : Nat) (r : Recipe) (g n k d : Nat) : State × Bool :=
  let u := fun off w => r.u (off + d) w
  let s := putReg s mid R.FCG_CFG g
    [(F.FCG_CFG_MODE, 2), (F.FCG_CFG_SRC_ENC, n), (F.FCG_CFG_CMP_SEL, k), (F.FCG_CFG_HOLD_POLICY, u 0x31 1)]
  let s := putReg (putReg s mid R.FCG_C g [(F.FCG_C_C, u 0x20 4)]) mid R.FCG_FMIN g [(F.FCG_FMIN_VALUE, u 0x24 4)]
  let s := putReg (putReg s mid R.FCG_FMAX g [(F.FCG_FMAX_VALUE, u 0x28 4)]) mid R.FCG_SLEW g [(F.FCG_SLEW_VALUE, u 0x2C 4)]
  let s := putReg (putReg s mid R.FCG_FSAFE g [(F.FCG_FSAFE_VALUE, u 0x38 4)]) mid R.FCG_HOLD_TIME g
    [(F.FCG_HOLD_TIME_US, u 0x34 4)]
  let s := putReg (putReg s mid R.FCG_PRETRIG g [(F.FCG_PRETRIG_NS, u 0x3C 4)]) mid R.FCG_CONFIRM g
    [(F.FCG_CONFIRM_NS, u 0x40 4)]
  let ssi := if rd s F.ENC_CFG_MODE n = 5 then [(F.ENC_MEAS_CFG_FROZEN_EN, 1)] else []
  let s := putReg s mid R.ENC_MEAS_CFG n ((F.ENC_MEAS_CFG_LOST_EN, 1) :: ssi)
  let s := putReg s mid R.ENC_MEAS_CFG n [(F.ENC_MEAS_CFG_K, u 0x30 1)]
  let s := doubleGates (clockOutputs s mid r g (u 0x44 4) (u 0x48 1)) mid r g
  if u 0x4A 1 = 0 then (fcgStart (armCrossings s mid r k n d) g, false) else (s, true)

/-- A direction other than both goes into the entries of a POSLIST (log 63). -/
def listDirection (s : State) (base len dir : Nat) : State :=
  if dir = 0 then s
  else (List.range len).foldl (fun s i =>
    let e := cmpEntry s (base + i)
    cmpSetEntry s (base + i) (e - bitsOf e 56 2 * 2 ^ 56 + dir * 2 ^ 56)) s

/-- POSLIST: the compare unit on its list, the FCG in LIST mode. -/
def poslistStart (s : State) (mid : Nat) (r : Recipe) (g n k d : Nat) : State :=
  let u := fun off w => r.u (off + d) w
  let s := listDirection s (u 0x20 4) (u 0x24 4) (u 0x28 1)
  let s := putReg s mid R.CMP_CFG k [(F.CMP_CFG_SRC, n), (F.CMP_CFG_CYCLIC, u 0x29 1)]
  let s := putReg (putReg s mid R.CMP_BASE k [(F.CMP_BASE_BASE, u 0x20 4)]) mid R.CMP_LEN k [(F.CMP_LEN_LEN, u 0x24 4)]
  let s := cmpArm s k
  let s := putReg s mid R.FCG_CFG g [(F.FCG_CFG_MODE, 1), (F.FCG_CFG_CMP_SEL, k)]
  fcgStart (doubleGates (clockOutputs s mid r g (u 0x2C 4) (u 0x30 1)) mid r g) g

/-- The frame clock of a recipe; with the state, whether its start waits (R72). -/
def clockStart (s : State) (mid : Nat) (r : Recipe) : State × Bool :=
  match r.clock, r.fcg with
  | some (kind, d), some g =>
    let n := (lowest 4 r.encs).getD 0
    let k := (lowest 16 r.cmps).getD 0
    if kind = rcFREERUN then (freerunStart s mid r g d, false)
    else if kind = rcPOSLOCK then poslockStart s mid r g n k d
    else (poslistStart s mid r g n k d, false)
  | _, _ => (s, false)

/-- The end channel of a BURST recipe and the burst logic of each claimed stream (R73). -/
def burstStart (s : State) (mid : Nat) (r : Recipe) : State :=
  let ch := r.endCh
  let s := if r.u 0x30 1 = 0 then
      let n := r.u 0x31 1
      let s := (List.range 6).foldl (fun s y =>
        bcnEnWrite s mid ch y (if (120 + n) / 32 = y then 2 ^ ((120 + n) % 32) else 0)) s
      putReg s mid R.FIO_GIN_CFG n [(F.FIO_GIN_CFG_EDGE, r.u 0x32 1), (F.FIO_GIN_CFG_PROD_EN, 1)]
    else s
  let s := putReg s mid R.BCN_CH_CFG ch
    [(F.BCN_CH_CFG_CONSUMER, 48), (F.BCN_CH_CFG_EN, 1)]
  r.streamList.foldl (fun s k =>
    let s := putReg (putReg s mid R.MEM_BURST_PRE k [(F.MEM_BURST_PRE_VALUE, r.u 0x20 8)]) mid R.MEM_BURST_POST k
      [(F.MEM_BURST_POST_VALUE, r.u 0x28 8)]
    burstArm (putReg s mid R.MEM_BURST_CFG k [(F.MEM_BURST_CFG_END_CH, ch)]) k) s

/-- The gates of a TRIAGE recipe (R383). -/
def triageStart (s : State) (mid : Nat) (r : Recipe) : State :=
  r.streamList.foldl (fun s k =>
    let s := putReg s mid R.POD_GATE_DEADLINE k [(F.POD_GATE_DEADLINE_NS, r.u 0x28 4)]
    let s := putReg s mid R.POD_GATE_WIN k [(F.POD_GATE_WIN_PRE_KEEP, r.u 0x2C 2), (F.POD_GATE_WIN_POST_KEEP, r.u 0x2E 2)]
    let s := putReg s mid R.POD_AUTO_LIST k [(F.POD_AUTO_LIST_OFFSET, r.u 0x20 4)]
    putReg s mid R.POD_GATE_CFG k [(F.POD_GATE_CFG_EN, 1), (F.POD_GATE_CFG_AUTO_RUN, 1), (F.POD_GATE_CFG_POLICY, r.u 0x25 1),
      (F.POD_GATE_CFG_INPUT, r.u 0x24 1), (F.POD_GATE_CFG_POD_MASK, r.pods)]) s

/-- The deliveries of a recipe with AUTO_DELIVER (R433). -/
def deliveryStart (s : State) (mid : Nat) (r : Recipe) : State :=
  if !r.autoDeliver then s
  else (r.streamList.zipIdx).foldl (fun s p =>
    let s := putReg s mid R.DMA_SDLV_RINGS p.1
      [(F.DMA_SDLV_RINGS_FRAME_RING, r.frameRing), (F.DMA_SDLV_RINGS_CMPL_RING, r.cmplRing)]
    let early := if r.id = rcTRIAGE then [(F.DMA_SDLV_CFG_EARLY, r.u 0x26 1)] else []
    putReg s mid R.DMA_SDLV_CFG p.1 ([(F.DMA_SDLV_CFG_EN, 1), (F.DMA_SDLV_CFG_MODE, if r.id = rcBURST then 1 else 0),
      (F.DMA_SDLV_CFG_KIND, 0), (F.DMA_SDLV_CFG_CHANNEL, r.dmaFirst + p.2)] ++ early)) s

/-- The recipe of core c runs: it claims its resources and writes its registers, the frame clock last (R72 to R76). -/
def recipeRuns (s : State) (c : Nat) (r : Recipe) : State :=
  let r := { r with base := recipeCount s r }
  let mid := coreMid c
  let s := deliveryStart s mid r
  let s := if r.id = rcBURST then burstStart s mid r else if r.id = rcTRIAGE then triageStart s mid r else s
  let (s, waits) := clockStart s mid r
  let s := setCore s c { coreAt s c with recipe := some { r with fcgWait := waits }, past := false }
  let s := wr (setSqState (setRecipeState s c rsRUNNING) c sqRUNNING) F.SQ_PC_PC c 0
  writeDetail (putCard s c 0xE0 8 0) c r

/-- RECIPE_BEGIN: 4,096 cycles after the request the card is checked, and the recipe runs or refuses (R74, R75). -/
def recipeBegin (s : State) (c : Nat) : State :=
  let k := coreAt s c
  match k.loadDue, k.recipe with
  | some t, some r =>
    if s.ns < t then s
    else
      let s := setCore s c { k with loadDue := none }
      let r := { r with card := cardBytes s c }
      match recipeRefusal s c r with
      | some (code, off) => setSqState (recipeError s c code off) c sqHALTED
      | none => recipeRuns s c r
  | _, _ => s

def execRecipeBegin (c : Nat) (s : State) : Host.Outcome State Fault Refusal := onBlock 15 c 8 s fun s => recipeBegin s c

/-- RECIPE_FCG_START: with LIST_MODE = 1 the FCG starts once the compare unit is armed with SRC = the claimed encoder; with
another SRC the recipe ends in ERROR (R72). -/
def recipeFcgStart (s : State) (c : Nat) : State :=
  match runningRecipe s c with
  | none => s
  | some r =>
    let k := (lowest 16 r.cmps).getD 0
    if !r.fcgWait || recipeState s c ≠ rsRUNNING || !isSet s F.CMP_STATUS_ARMED k then s
    else if rd s F.CMP_CFG_SRC k ≠ (lowest 4 r.encs).getD 0 then recipeArmed s k
    else fcgStart (setRecipe s c (some { r with fcgWait := false })) (r.fcg.getD 0)

def execRecipeFcgStart (c : Nat) (s : State) : Host.Outcome State Fault Refusal := onBlock 15 c 8 s fun s => recipeFcgStart s c

end Sys2Proof.Machine
end

