-- ==== Sys2Proof/Machine/HostSide.lean ====
section
/-! DEFINITION. The host side: the PCIe link, PERST#, read errors, function-level resets, configuration writes, and the
commands of the CMD rings (spec/11, R437 to R443, R455, R460, R468, R469; R567, R575). -/
namespace Sys2Proof.Machine

/-! ### The link (R437, R567) -/

/-- The link reaches DL_Active where nothing holds it off: PERST#, D5 HOST, the PCIe reference, MAX_SPEED; what was held is
sent in its order, and a changed rate or width is reported. -/
def hostUp (s : State) (speed width : Nat) : State :=
  if s.perst || s.aDieReset || !domGood s 5 || !isSet s F.GLB_STATUS_REF_PCIE_OK || decide (speed < 3)
      || decide (rd s F.HIF_CTL_MAX_SPEED < speed) || !([1, 2, 4, 8, 16].contains width) then s
  else
    let s := if rd s F.HIF_LINK_STATUS_SPEED = speed ∧ rd s F.HIF_LINK_STATUS_WIDTH = width then s
      else setBit (wr (wr s F.HIF_LINK_STATUS_SPEED 0 speed) F.HIF_LINK_STATUS_WIDTH 0 width) F.HIF_EVT_EVT 0 2
    if isSet s F.HIF_LINK_STATUS_UP then s
    else
      let s := setBit (wr s F.HIF_LINK_STATUS_UP 0 1) F.HIF_EVT_EVT 0 0
      { s.held.foldl landHost s with held := [] }

def execHostLinkUp (speed width : Nat) (s : State) : Host.Outcome State Fault Refusal := finish s (hostUp s speed width)

def execHostLinkDown (s : State) : Host.Outcome State Fault Refusal := finish s (linkLoss s)

/-! ### Read errors (R438, R455) -/

/-- A host read ends in error: the fetch of an entry of ring n, or a read of descriptor n. -/
def hostReadError (s : State) (timeout ofRing : Bool) (n : Nat) : State :=
  if ofRing then
    if ringLive s n && hostProduced s n && decide ((ringAt s n).fetched.length < ringLevel s n)
    then ringError (cplError s timeout) n (if timeout then 1 else 2) else s
  else if (descAt s n).any Desc.readsHost then descReadError (cplError s timeout) n
  else s

def execHostCplTimeout (ofRing : Bool) (n : Nat) (s : State) : Host.Outcome State Fault Refusal :=
  finish s (inBlock 18 s fun s => hostReadError s true ofRing n)

def execHostCplError (ofRing : Bool) (n : Nat) (s : State) : Host.Outcome State Fault Refusal :=
  finish s (inBlock 18 s fun s => hostReadError s false ofRing n)

/-! ### Function-level resets (R468, R469) -/

/-- A descriptor names a ring of function k. -/
def Desc.namesRing (s : State) (d : Desc) (k : Nat) : Bool :=
  (d.record && ringOwner s d.cmplRing == k) || (dmaSpace d.dst == 3 && ringOwner s (dmaAddr d.dst) == k)

/-- What a reset of VFk does (R468). -/
def vfReset (s : State) (k : Nat) : State :=
  let s := ((List.range 4096).filter fun n => ringOwner s n == k && isSet s F.RNG_CFG_EN n).foldl ringDisable s
  let s := dropDescs s fun d => d.mid == k + 1 || d.namesRing s k
  { s with msix := sfilter (fun i => i / 2048 ≠ k) s.msix }

/-- The HIF counters (R469, R575). -/
def hifCounts : List Field :=
  [F.HIF_BAD_ACCESS_COUNT, F.HIF_CPL_TIMEOUT_COUNT, F.HIF_POISONED_COUNT, F.HIF_LINK_DOWNS_COUNT, F.HIF_DB_ERR_COUNT,
   F.HIF_FLRS_COUNT]

/-- HIF returns to its Reset values but for the fields of a list. -/
def hifReset (s : State) (keep : List Field) : State := keep.foldl (fun t f => wr t f 0 (rd s f)) (resetBlockRegs s .hif)

/-- What a reset of the PF does (R469): the link's own status stays. -/
def pfReset (s : State) : State :=
  let s := (List.range 7).foldl (fun s i => vfReset s (i + 1)) s
  let s : State := { (resetBlockRegs s .rng) with rings := [], recQ := [], vfEnable := false, msix := [] }
  let s := dropDescs s fun d => d.namesHost || d.record
  hifReset s (hifCounts ++ [F.HIF_LINK_STATUS_UP, F.HIF_LINK_STATUS_SPEED, F.HIF_LINK_STATUS_WIDTH, F.HIF_VF_STATUS_FLR_BUSY])

/-- A function-level reset is counted, and the functions it resets show FLR_BUSY. -/
def flrBegins (s : State) (mask : Nat) : State :=
  let s := wr s F.HIF_VF_STATUS_FLR_BUSY 0 (rd s F.HIF_VF_STATUS_FLR_BUSY ||| mask)
  setBit (bump s F.HIF_FLRS_COUNT) F.HIF_EVT_EVT 0 7

/-- FLR_VF: of a VF that responds (R443). -/
def execFlrVf (k : Nat) (s : State) : Host.Outcome State Fault Refusal :=
  onBlock 19 k 8 s fun s => if vfEnabled s k then flrBegins (vfReset s k) (2 ^ (k - 1)) else s

def execFlrPf (s : State) : Host.Outcome State Fault Refusal := finish s (inBlock 19 s fun s => flrBegins (pfReset s) 127)

/-- FLR_COMPLETE: the resets that a reset of the PF made of the VFs complete with it. -/
def execFlrComplete (fn : Nat) (s : State) : Host.Outcome State Fault Refusal :=
  onBlock 19 fn 8 s fun s => clearBits s F.HIF_VF_STATUS_FLR_BUSY 0 (if fn = 0 then 127 else 2 ^ (fn - 1))

/-! ### PERST# (R567, R575) -/

/-- PERST# is asserted. -/
def perstAssert (s : State) : State :=
  let s := pfReset (linkLoss { s with perst := true })
  pciReset (hifReset s hifCounts)

def execPerstAssert (s : State) : Host.Outcome State Fault Refusal := finish s (perstAssert s)

def execPerstRelease (s : State) : Host.Outcome State Fault Refusal := finish s { s with perst := false }

/-! ### Configuration writes (R438, R439, R443, R448) -/

/-- The configuration writes of the row PCIE_CONFIG_WRITE by its operand `what`: 0 NumVFs, 1 VF Enable, 2 MSI-X Enable,
3 the function mask of MSI-X, 4 the Completion Timeout Value, 5 Relaxed Ordering Enable, 6 D3hot (log 110). -/
def configWrite (s : State) (fn what val : Nat) : State :=
  let p := pciAt s fn
  if fn ≠ 0 && !vfEnabled s fn then s
  else match what with
    | 0 => if fn = 0 ∧ val ≤ 7 then { s with numVfs := val } else s
    | 1 => if fn = 0 then { s with vfEnable := val % 2 == 1 } else s
    | 2 => msixReleaseAll (setPci s fn { p with msixEn := val % 2 == 1 }) fn
    | 3 => msixReleaseAll (setPci s fn { p with msixMask := val % 2 == 1 }) fn
    | 4 => setPci s fn { p with ctv := val % 16 }
    | 5 => setPci s fn { p with roEn := val % 2 == 1 }
    | 6 => setPci s fn { p with d3 := val % 2 == 1 }
    | _ => s

def execPcieConfigWrite (fn what val : Nat) (s : State) : Host.Outcome State Fault Refusal :=
  onUnit fn 8 s fun s => if domGood s 5 && !s.perst then configWrite s fn what val else s

/-! ### CMD rings (R460) -/

/-- The entry at HEAD of a CMD ring. -/
def cmdHead (s : State) (n : Nat) : Option (List Nat) := if ringType s n = rCMD then headEntry s n else none

/-- The MID of the owner of ring n (R39). -/
def ringMid (s : State) (n : Nat) : Nat := 0x01 + ringOwner s n

/-- A command ends: ARG1 where a value was read, RESULT, DONE, then HEAD. A ring that the command itself disabled gets no
write-back. -/
def cmdDone (s : State) (n : Nat) (value : Option Nat) (result : Nat) : State :=
  if (cmdHead s n).isNone then s
  else
    let s := match value with
      | some v => entryWb s n 0x10 (toBytes 8 v)
      | none => s
    let s := entryWb (entryWb s n 0x18 (toBytes 4 result)) n 0x1C (toBytes 4 1)
    consumeEntry s n

/-- A command that answers with a result word alone. -/
def cmdAnswer (n : Nat) (x : Answer × State) : State := cmdDone x.2 n none x.1.word

/-- The command with code `op` at the head of ring n; a non-zero zero field gives RANGE. -/
def cmdRun (s : State) (n op : Nat) (f : List Nat → State) : State :=
  match cmdHead s n with
  | none => s
  | some e =>
    if leField e 0 1 ≠ op then s
    else if leField e 1 1 ≠ 0 || leField e 4 4 ≠ 0 then cmdDone s n none stRANGE
    else f e

/-- CMD_NOP; an OP that R460 does not list gives RANGE here. -/
def cmdNop (s : State) (n : Nat) : State :=
  match cmdHead s n with
  | none => s
  | some e => if 2 ≤ leField e 0 1 ∧ leField e 0 1 ≤ 6 then s
    else cmdDone s n none (if leField e 0 1 = 1 ∧ leField e 1 1 = 0 ∧ leField e 4 4 = 0 then stOK else stRANGE)

def execCmdNop (ring : Nat) (s : State) : Host.Outcome State Fault Refusal := onBlock 18 ring 4096 s fun s => cmdNop s ring

/-- The register commands: REFUSED on a ring with ATTR = O, RANGE for a bad offset. -/
def cmdReg (s : State) (n op : Nat) (f : Nat → List Nat → State) : State :=
  cmdRun s n op fun e =>
    let a := leField e 8 8
    if isSet s F.RNG_CFG_ATTR n then cmdDone s n none stREFUSED
    else if 0x4000000 ≤ a ∨ a % 4 ≠ 0 then cmdDone s n none stRANGE
    else f a e

def cmdRegWrite (s : State) (n : Nat) : State :=
  cmdReg s n 2 fun a e => cmdDone (busWrite s (ringMid s n) a 4 (leField e 0x10 4)) n none stOK

def execCmdRegWrite (ring : Nat) (s : State) : Host.Outcome State Fault Refusal :=
  onBlock 18 ring 4096 s fun s => cmdRegWrite s ring

def cmdRegRead (s : State) (n : Nat) : State :=
  cmdReg s n 3 fun a _ =>
    let (v, t) := busRead s (ringMid s n) a 4
    cmdDone t n (some v) stOK

def execCmdRegRead (ring : Nat) (s : State) : Host.Outcome State Fault Refusal :=
  onBlock 18 ring 4096 s fun s => cmdRegRead s ring

/-- A mailbox send as in R140. -/
def cmdMbxSend (s : State) (n : Nat) : State :=
  cmdRun s n 4 fun e => cmdAnswer n <| blockAnswer 3 s fun s => operandOk (leField e 8 8 ≤ 63) s fun s =>
    let (r, t) := mbxSend s (ringMid s n) (leField e 8 8) (leField e 0x10 4)
    (Answer.of r.status, t)

def execCmdMbxSend (ring : Nat) (s : State) : Host.Outcome State Fault Refusal :=
  onBlock 18 ring 4096 s fun s => cmdMbxSend s ring

/-- A fire as in R139. -/
def cmdBcnFire (s : State) (n : Nat) : State :=
  cmdRun s n 5 fun e => cmdAnswer n <| blockAnswer 2 s fun s => operandOk (leField e 8 8 ≤ 47) s fun s =>
    let (r, t) := fireRequest s (ringMid s n) (leField e 8 8)
    (Answer.of r.status, t)

def execCmdBcnFire (ring : Nat) (s : State) : Host.Outcome State Fault Refusal :=
  onBlock 18 ring 4096 s fun s => cmdBcnFire s ring

/-- The descriptor comes from the host, or its read ends in error: `err` 1 a timeout, else poisoned or an error completion
(R438, R460). -/
def cmdDmaSubmit (s : State) (n err : Nat) (desc : List Nat) : State :=
  cmdRun s n 6 fun _ =>
    if err ≠ 0 then cmdDone (cplError s (err == 1)) n none stABSENT
    else cmdAnswer n <| blockAnswer 16 s fun s =>
      dmaSubmit s (ringMid s n) ((List.range 64).map fun i => desc.getD i 0 % 256) none

def execCmdDmaSubmit (ring err : Nat) (desc : List Nat) (s : State) : Host.Outcome State Fault Refusal :=
  onBlock 18 ring 4096 s fun s => cmdDmaSubmit s ring err desc

end Sys2Proof.Machine
end

