-- ==== Sys2Proof/Machine/Tick.lean ====
section
/-! DEFINITION. What one nanosecond does when no command waits: the timebase, the cycle counters, and the traffic that leaves
its queues (log 2). -/
namespace Sys2Proof.Machine

/-- The cycles of a clock of num/den cycles per ns that end in the ns after instant t (spec/01, Clocks). -/
def cyclesIn (num den t : Nat) : Nat := num * (t + 1) / den - num * t / den

/-- Count cycles in a 64-bit counter. -/
def addCycles (s : State) (f : Field) (i n : Nat) : State := wr s f i (rd s f i + n)

/-- TB advances while D4 TIME works and the time PLL has a source: the lane reference or TIMEREF (R193, R194, R33). -/
def tbTick (s : State) : State :=
  if domUp s 4 && !s.aDieReset && (isSet s F.GLB_STATUS_REF_LANE_OK || rd s F.TMB_STATUS_STATE ≠ 0)
  then { s with tb := (s.tb + 1) % 2 ^ 64 } else s

/-- The compare units' next tick of 2.5 ns (R191), and the windows whose start TB has reached (R213). -/
def feedbackTick (s : State) : State :=
  if !domUp s 22 then s
  else (List.range 4).foldl closeExcess (if cyclesIn 2 5 s.ns = 0 then s else cmpTicks s)

/-- SQ_CYCLES of the cores that are RUNNING or WAITING, at 800 MHz. -/
def sqCycles (s : State) : State :=
  (List.range 8).foldl (fun t c =>
    if domUp s 21 && (sqState s c == sqRUNNING || sqState s c == sqWAITING)
    then addCycles t F.SQ_CYCLES_COUNT c (cyclesIn 4 5 s.ns) else t) s

/-- ISP_BUSY_CYCLES of the pipelines that are BUSY, at 1.2 GHz. -/
def ispCycles (s : State) : State :=
  (List.range 2).foldl (fun t p =>
    if domUp s (16 + p) && (ispAt s p).unit.isSome then addCycles t F.ISP_BUSY_CYCLES_VALUE p (cyclesIn 6 5 s.ns) else t) s

/-- POD_BUSY_CYCLES of the pods that are not IDLE, at 1.5 GHz. -/
def podCycles (s : State) : State :=
  (List.range 8).foldl (fun t k =>
    if podState s k == 1 || podState s k == 2 then addCycles t F.POD_BUSY_CYCLES_VALUE k (cyclesIn 3 2 s.ns) else t) s

/-- One entry of each device store queue takes effect (R66; log 59). -/
def queuesDrain (s : State) : State := if blockWorks s 15 then (List.range 8).foldl drainOne s else s

/-- The uplinks: one that has stopped drops the trigger packets it holds; a control packet that waits starts (R138, R305). -/
def uplinksTick (s : State) : State :=
  if !domUp s 22 then s else (List.range 8).foldl (fun s n => ulTick (dropUplink s n) n) s

/-- One nanosecond passes, in which TB moves by `time`. -/
def tickBy (time : State → State) (s : State) : State :=
  let s := podCycles (ispCycles (sqCycles s))
  let s : State := { time (powerFill s) with ns := s.ns + 1, wokeNow := 0, darkNow := 0, bcnBusy := sfilter (fun k => k < 32 || 48 ≤ k) s.bcnBusy }
  dmaRetry (burstsDone (twnDrain (confirmEnter (queuesDrain (uplinksTick (feedbackTick s))))))

/-- One nanosecond passes. -/
def tick (s : State) : State := tickBy tbTick s

/-- One tick with a correction: TB holds for a positive error and advances by 2 for a negative one (R195). -/
def slewTick (s : State) : State :=
  if s.slew = 0 || s.ns < s.slewNext then s
  else if 0 < s.slew then tickBy id { s with slew := s.slew - 1, slewNext := s.ns + 10000 }
  else tickBy (fun u => tbTick (tbTick u)) { s with slew := s.slew + 1, slewNext := s.ns + 10000 }

def execTbSlewTick (s : State) : Host.Outcome State Fault Refusal := finish s (inBlock 4 s slewTick)

end Sys2Proof.Machine
end

