-- ==== Sys2Proof/Machine/Dispatch.lean ====
section
/-! DEFINITION. The dispatch of a command to its meaning, one arm for each constructor of `Instr`. -/
namespace Sys2Proof.Machine

def exec (i : Instr) (s : State) : Host.Outcome State Fault Refusal :=
  match i with
  | .registerWrite mid off size val rival => Sys2Proof.Machine.execRegisterWrite mid off size val rival s
  | .badAccess mid off size isWrite => Sys2Proof.Machine.execBadAccess mid off size isWrite s
  | .loHalfRead mid off => Sys2Proof.Machine.execLoHalfRead mid off s
  | .rcRead mid off => Sys2Proof.Machine.execRcRead mid off s
  | .d2dRetry => Sys2Proof.Machine.execD2dRetry s
  | .d2dDown => Sys2Proof.Machine.execD2dDown s
  | .d2dReturn => Sys2Proof.Machine.execD2dReturn s
  | .laneRefLoss => Sys2Proof.Machine.execLaneRefLoss s
  | .pcieRefLoss => Sys2Proof.Machine.execPcieRefLoss s
  | .hifIrqRearm mask => Sys2Proof.Machine.execHifIrqRearm mask s
  | .msixUnmask fn vec => Sys2Proof.Machine.execMsixUnmask fn vec s
  | .sqRun c => Sys2Proof.Machine.execSqRun c s
  | .sqHalt c => Sys2Proof.Machine.execSqHalt c s
  | .sqStep c => Sys2Proof.Machine.execSqStep c s
  | .sqCoreReset c => Sys2Proof.Machine.execSqCoreReset c s
  | .recipeStart c id => Sys2Proof.Machine.execRecipeStart c id s
  | .recipeBegin c => Sys2Proof.Machine.execRecipeBegin c s
  | .recipeStop c => Sys2Proof.Machine.execRecipeStop c s
  | .recipeStopped c => Sys2Proof.Machine.execRecipeStopped c s
  | .recipeFcgStart c => Sys2Proof.Machine.execRecipeFcgStart c s
  | .hashStart => Sys2Proof.Machine.execHashStart s
  | .hashDone => Sys2Proof.Machine.execHashDone s
  | .coreWakeStart c => Sys2Proof.Machine.execCoreWakeStart c s
  | .add c rd ra src => Sys2Proof.Machine.execAdd c rd ra src s
  | .sub c rd ra src => Sys2Proof.Machine.execSub c rd ra src s
  | .and c rd ra src => Sys2Proof.Machine.execAnd c rd ra src s
  | .or c rd ra src => Sys2Proof.Machine.execOr c rd ra src s
  | .xor c rd ra src => Sys2Proof.Machine.execXor c rd ra src s
  | .shl c rd ra src => Sys2Proof.Machine.execShl c rd ra src s
  | .shr c rd ra src => Sys2Proof.Machine.execShr c rd ra src s
  | .sar c rd ra src => Sys2Proof.Machine.execSar c rd ra src s
  | .mul c rd ra src => Sys2Proof.Machine.execMul c rd ra src s
  | .mov c rd imm20 => Sys2Proof.Machine.execMov c rd imm20 s
  | .movk c rd imm group => Sys2Proof.Machine.execMovk c rd imm group s
  | .bCond c cond off16 => Sys2Proof.Machine.execBCond c cond off16 s
  | .bl c off16 => Sys2Proof.Machine.execBl c off16 s
  | .jr c ra => Sys2Proof.Machine.execJr c ra s
  | .ret c => Sys2Proof.Machine.execRet c s
  | .movlk c rd => Sys2Proof.Machine.execMovlk c rd s
  | .setlk c ra => Sys2Proof.Machine.execSetlk c ra s
  | .ldb c rd ra imm16 => Sys2Proof.Machine.execLdb c rd ra imm16 s
  | .ldh c rd ra imm16 => Sys2Proof.Machine.execLdh c rd ra imm16 s
  | .ldw c rd ra imm16 => Sys2Proof.Machine.execLdw c rd ra imm16 s
  | .ldd c rd ra imm16 => Sys2Proof.Machine.execLdd c rd ra imm16 s
  | .ldsb c rd ra imm16 => Sys2Proof.Machine.execLdsb c rd ra imm16 s
  | .ldsh c rd ra imm16 => Sys2Proof.Machine.execLdsh c rd ra imm16 s
  | .ldsw c rd ra imm16 => Sys2Proof.Machine.execLdsw c rd ra imm16 s
  | .stb c rd ra imm16 => Sys2Proof.Machine.execStb c rd ra imm16 s
  | .sth c rd ra imm16 => Sys2Proof.Machine.execSth c rd ra imm16 s
  | .stw c rd ra imm16 => Sys2Proof.Machine.execStw c rd ra imm16 s
  | .std c rd ra imm16 => Sys2Proof.Machine.execStd c rd ra imm16 s
  | .aadd c rd ra rb => Sys2Proof.Machine.execAadd c rd ra rb s
  | .axch c rd ra rb => Sys2Proof.Machine.execAxch c rd ra rb s
  | .rdev c rd ra imm16 => Sys2Proof.Machine.execRdev c rd ra imm16 s
  | .rdevd c rd ra imm16 => Sys2Proof.Machine.execRdevd c rd ra imm16 s
  | .wdev c rd ra imm16 => Sys2Proof.Machine.execWdev c rd ra imm16 s
  | .wdevd c rd ra imm16 => Sys2Proof.Machine.execWdevd c rd ra imm16 s
  | .dsync c => Sys2Proof.Machine.execDsync c s
  | .tbr c rd => Sys2Proof.Machine.execTbr c rd s
  | .wait c kind ra rdl idx => Sys2Proof.Machine.execWait c kind ra rdl idx s
  | .halt c => Sys2Proof.Machine.execHalt c s
  | .spec c k rdl off16 => Sys2Proof.Machine.execSpec c k rdl off16 s
  | .commit c => Sys2Proof.Machine.execCommit c s
  | .squash c => Sys2Proof.Machine.execSquash c s
  | .pulse c rd ra rb rc => Sys2Proof.Machine.execPulse c rd ra rb rc s
  | .pair c rd ra rb rc => Sys2Proof.Machine.execPair c rd ra rb rc s
  | .trigpkt c rd ra rb rc => Sys2Proof.Machine.execTrigpkt c rd ra rb rc s
  | .fire c rd ra imm6 => Sys2Proof.Machine.execFire c rd ra imm6 s
  | .mbxsend c rd ra rb sync => Sys2Proof.Machine.execMbxsend c rd ra rb sync s
  | .mbxrcv c rd ra => Sys2Proof.Machine.execMbxrcv c rd ra s
  | .mbxwdr c rd ra => Sys2Proof.Machine.execMbxwdr c rd ra s
  | .dmaq c rd ra early => Sys2Proof.Machine.execDmaq c rd ra early s
  | .podrun c rd ra rb rc => Sys2Proof.Machine.execPodrun c rd ra rb rc s
  | .framearm c rd ra rb => Sys2Proof.Machine.execFramearm c rd ra rb s
  | .waitEnd c => Sys2Proof.Machine.execWaitEnd c s
  | .waitDeadline c => Sys2Proof.Machine.execWaitDeadline c s
  | .regionCommit c => Sys2Proof.Machine.execRegionCommit c s
  | .specDeadline c => Sys2Proof.Machine.execSpecDeadline c s
  | .deviceAnswer c same => Sys2Proof.Machine.execDeviceAnswer c same s
  | .storeQueueRoom c => Sys2Proof.Machine.execStoreQueueRoom c s
  | .dsyncDone c => Sys2Proof.Machine.execDsyncDone c s
  | .dmaqSlotFree c => Sys2Proof.Machine.execDmaqSlotFree c s
  | .syncSendEnd c => Sys2Proof.Machine.execSyncSendEnd c s
  | .sqEvEvent c k => Sys2Proof.Machine.execSqEvEvent c k s
  | .trgPulseStart n => Sys2Proof.Machine.execTrgPulseStart n s
  | .trgPulseEnd n => Sys2Proof.Machine.execTrgPulseEnd n s
  | .pairEdge p => Sys2Proof.Machine.execPairEdge p s
  | .trgBcnEvent ch => Sys2Proof.Machine.execTrgBcnEvent ch s
  | .trgClrCounts n => Sys2Proof.Machine.execTrgClrCounts n s
  | .encEdge n a b z ps held => Sys2Proof.Machine.execEncEdge n a b z ps held s
  | .loadPreset n => Sys2Proof.Machine.execLoadPreset n s
  | .encClrCounts n => Sys2Proof.Machine.execEncClrCounts n s
  | .restartSpeed n => Sys2Proof.Machine.execRestartSpeed n s
  | .clrIdxRef n => Sys2Proof.Machine.execClrIdxRef n s
  | .ssiGrid n lineHigh => Sys2Proof.Machine.execSsiGrid n lineHigh s
  | .ssiWord n word => Sys2Proof.Machine.execSsiWord n word s
  | .ssiTimeout n word => Sys2Proof.Machine.execSsiTimeout n word s
  | .encLost n => Sys2Proof.Machine.execEncLost n s
  | .poEnable p => Sys2Proof.Machine.execPoEnable p s
  | .poOutputCount p => Sys2Proof.Machine.execPoOutputCount p s
  | .cmpArm k => Sys2Proof.Machine.execCmpArm k s
  | .cmpDisarm k => Sys2Proof.Machine.execCmpDisarm k s
  | .cmpClrCounts k => Sys2Proof.Machine.execCmpClrCounts k s
  | .cmpListWrite off size val => Sys2Proof.Machine.execCmpListWrite off size val s
  | .ppsEdge => Sys2Proof.Machine.execPpsEdge s
  | .tbSlewTick => Sys2Proof.Machine.execTbSlewTick s
  | .timerefLost => Sys2Proof.Machine.execTimerefLost s
  | .timerefFreqLock => Sys2Proof.Machine.execTimerefFreqLock s
  | .ppsTimeout => Sys2Proof.Machine.execPpsTimeout s
  | .loadNow => Sys2Proof.Machine.execLoadNow s
  | .loadAtPps => Sys2Proof.Machine.execLoadAtPps s
  | .cancelLoad => Sys2Proof.Machine.execCancelLoad s
  | .fcgStart g => Sys2Proof.Machine.execFcgStart g s
  | .fcgStop g => Sys2Proof.Machine.execFcgStop g s
  | .fcgClrCounts g => Sys2Proof.Machine.execFcgClrCounts g s
  | .fcgPeriodWrite g hi size val => Sys2Proof.Machine.execFcgPeriodWrite g hi size val s
  | .fcgCommit g => Sys2Proof.Machine.execFcgCommit g s
  | .fcgLoopUpdate g => Sys2Proof.Machine.execFcgLoopUpdate g s
  | .fcgWindowClose g => Sys2Proof.Machine.execFcgWindowClose g s
  | .fcgHoldExpired g => Sys2Proof.Machine.execFcgHoldExpired g s
  | .fckDetect n => Sys2Proof.Machine.execFckDetect n s
  | .prtFreqCheck n khz => Sys2Proof.Machine.execPrtFreqCheck n khz s
  | .prtMultLock n => Sys2Proof.Machine.execPrtMultLock n s
  | .prtPhaseCentred n => Sys2Proof.Machine.execPrtPhaseCentred n s
  | .ctleSweepDone n foms => Sys2Proof.Machine.execCtleSweepDone n foms s
  | .laneLock n j units => Sys2Proof.Machine.execLaneLock n j units s
  | .prtDeskew n => Sys2Proof.Machine.execPrtDeskew n s
  | .linkUp n => Sys2Proof.Machine.execLinkUp n s
  | .stageTimeout n => Sys2Proof.Machine.execStageTimeout n s
  | .laneLockLost n j units => Sys2Proof.Machine.execLaneLockLost n j units s
  | .deskewLost n => Sys2Proof.Machine.execDeskewLost n s
  | .clkLost n => Sys2Proof.Machine.execClkLost n s
  | .markerColumn n cols => Sys2Proof.Machine.execMarkerColumn n cols s
  | .rxControlError n j prev unit => Sys2Proof.Machine.execRxControlError n j prev unit s
  | .restart n => Sys2Proof.Machine.execRestart n s
  | .holdEnter n force => Sys2Proof.Machine.execHoldEnter n force s
  | .holdExit n => Sys2Proof.Machine.execHoldExit n s
  | .deepEnter n force => Sys2Proof.Machine.execDeepEnter n force s
  | .deepExit n => Sys2Proof.Machine.execDeepExit n s
  | .holdExited n => Sys2Proof.Machine.execHoldExited n s
  | .deepExited n => Sys2Proof.Machine.execDeepExited n s
  | .prtTriggerWake n => Sys2Proof.Machine.execPrtTriggerWake n s
  | .prtWakeEvent ch => Sys2Proof.Machine.execPrtWakeEvent ch s
  | .selftest n => Sys2Proof.Machine.execSelftest n s
  | .selftestDone n pass => Sys2Proof.Machine.execSelftestDone n pass s
  | .prtClrCounts n => Sys2Proof.Machine.execPrtClrCounts n s
  | .prbsLock n j bits => Sys2Proof.Machine.execPrbsLock n j bits s
  | .prbsLockLost n j bits => Sys2Proof.Machine.execPrbsLockLost n j bits s
  | .prbsClr n j => Sys2Proof.Machine.execPrbsClr n j s
  | .fomUpdate n j fom => Sys2Proof.Machine.execFomUpdate n j fom s
  | .phaseTrackStep n j => Sys2Proof.Machine.execPhaseTrackStep n j s
  | .ulInjOne n => Sys2Proof.Machine.execUlInjOne n s
  | .rlyInjOne k => Sys2Proof.Machine.execRlyInjOne k s
  | .rlyClrCounts k => Sys2Proof.Machine.execRlyClrCounts k s
  | .injPeriodic k => Sys2Proof.Machine.execInjPeriodic k s
  | .trigpktSend n => Sys2Proof.Machine.execTrigpktSend n s
  | .ulSend n => Sys2Proof.Machine.execUlSend n s
  | .ulTxDone n => Sys2Proof.Machine.execUlTxDone n s
  | .pktFs n cols => Sys2Proof.Machine.execPktFs n cols s
  | .pktFe n cols => Sys2Proof.Machine.execPktFe n cols s
  | .pktLong n cols ecc => Sys2Proof.Machine.execPktLong n cols ecc s
  | .pktShortOther n cols => Sys2Proof.Machine.execPktShortOther n cols s
  | .sopAbort n cols => Sys2Proof.Machine.execSopAbort n cols s
  | .frameWdog k => Sys2Proof.Machine.execFrameWdog k s
  | .tagFinalise k => Sys2Proof.Machine.execTagFinalise k s
  | .tagComplete => Sys2Proof.Machine.execTagComplete s
  | .pktTrigEvent ch => Sys2Proof.Machine.execPktTrigEvent ch s
  | .ulRxPop n => Sys2Proof.Machine.execUlRxPop n s
  | .pktMapWrite k val => Sys2Proof.Machine.execPktMapWrite k val s
  | .lastTagRead k => Sys2Proof.Machine.execLastTagRead k s
  | .pktPortClrCounts n => Sys2Proof.Machine.execPktPortClrCounts n s
  | .pktStreamClrCounts k => Sys2Proof.Machine.execPktStreamClrCounts k s
  | .ispUnitStart u => Sys2Proof.Machine.execIspUnitStart u s
  | .ispUnitDone u ecc => Sys2Proof.Machine.execIspUnitDone u ecc s
  | .ispInlineDone u ecc => Sys2Proof.Machine.execIspInlineDone u ecc s
  | .ispMergeTimeout u c => Sys2Proof.Machine.execIspMergeTimeout u c s
  | .ispSubmitGo u mid => Sys2Proof.Machine.execIspSubmitGo u mid s
  | .ispCtxDisable u c => Sys2Proof.Machine.execIspCtxDisable u c s
  | .ispModeWrite u val => Sys2Proof.Machine.execIspModeWrite u val s
  | .ispCtxClrCounts u c => Sys2Proof.Machine.execIspCtxClrCounts u c s
  | .lastStatRead u => Sys2Proof.Machine.execLastStatRead u s
  | .podSubGo mid => Sys2Proof.Machine.execPodSubGo mid s
  | .podRunBegin id => Sys2Proof.Machine.execPodRunBegin id s
  | .podLayerDone id ecc => Sys2Proof.Machine.execPodLayerDone id ecc s
  | .gateDeadline k seq => Sys2Proof.Machine.execGateDeadline k seq s
  | .gateCfgWrite mid k val => Sys2Proof.Machine.execGateCfgWrite mid k val s
  | .podClrCounts k => Sys2Proof.Machine.execPodClrCounts k s
  | .podCcmdClrCounts => Sys2Proof.Machine.execPodCcmdClrCounts s
  | .gateClrCounts k => Sys2Proof.Machine.execGateClrCounts k s
  | .memTrain => Sys2Proof.Machine.execMemTrain s
  | .memTrainDone chOk gib => Sys2Proof.Machine.execMemTrainDone chOk gib s
  | .memRefresh => Sys2Proof.Machine.execMemRefresh s
  | .memClrCounts => Sys2Proof.Machine.execMemClrCounts s
  | .burstArm k => Sys2Proof.Machine.execBurstArm k s
  | .burstDisarm k => Sys2Proof.Machine.execBurstDisarm k s
  | .freezeNow k => Sys2Proof.Machine.execFreezeNow k s
  | .burstEndEvent ch => Sys2Proof.Machine.execBurstEndEvent ch s
  | .dmaSubGo mid => Sys2Proof.Machine.execDmaSubGo mid s
  | .dmaDescStart id => Sys2Proof.Machine.execDmaDescStart id s
  | .dmaBurst c ecc host => Sys2Proof.Machine.execDmaBurst c ecc host s
  | .dmaDescComplete id host => Sys2Proof.Machine.execDmaDescComplete id host s
  | .dmaPause c => Sys2Proof.Machine.execDmaPause c s
  | .dmaResume c => Sys2Proof.Machine.execDmaResume c s
  | .dmaDrain c => Sys2Proof.Machine.execDmaDrain c s
  | .dmaAbort c => Sys2Proof.Machine.execDmaAbort c s
  | .dmaChClrCounts c => Sys2Proof.Machine.execDmaChClrCounts c s
  | .hostLinkUp speed width => Sys2Proof.Machine.execHostLinkUp speed width s
  | .hostLinkDown => Sys2Proof.Machine.execHostLinkDown s
  | .perstAssert => Sys2Proof.Machine.execPerstAssert s
  | .perstRelease => Sys2Proof.Machine.execPerstRelease s
  | .hostCplTimeout ofRing n => Sys2Proof.Machine.execHostCplTimeout ofRing n s
  | .hostCplError ofRing n => Sys2Proof.Machine.execHostCplError ofRing n s
  | .hostIndexWrite mid ring val bar2 => Sys2Proof.Machine.execHostIndexWrite mid ring val bar2 s
  | .buoyAck mid ring mask => Sys2Proof.Machine.execBuoyAck mid ring mask s
  | .buoyCntRead mid ring => Sys2Proof.Machine.execBuoyCntRead mid ring s
  | .ringCfgWrite mid ring val => Sys2Proof.Machine.execRingCfgWrite mid ring val s
  | .ringEntryFetched ring bytes => Sys2Proof.Machine.execRingEntryFetched ring bytes s
  | .cmdNop ring => Sys2Proof.Machine.execCmdNop ring s
  | .cmdRegWrite ring => Sys2Proof.Machine.execCmdRegWrite ring s
  | .cmdRegRead ring => Sys2Proof.Machine.execCmdRegRead ring s
  | .cmdMbxSend ring => Sys2Proof.Machine.execCmdMbxSend ring s
  | .cmdBcnFire ring => Sys2Proof.Machine.execCmdBcnFire ring s
  | .cmdDmaSubmit ring err desc => Sys2Proof.Machine.execCmdDmaSubmit ring err desc s
  | .ringIndexWb ring => Sys2Proof.Machine.execRingIndexWb ring s
  | .ringCoalTimeout ring => Sys2Proof.Machine.execRingCoalTimeout ring s
  | .rngEvtEvent u => Sys2Proof.Machine.execRngEvtEvent u s
  | .flrVf k => Sys2Proof.Machine.execFlrVf k s
  | .flrPf => Sys2Proof.Machine.execFlrPf s
  | .flrComplete fn => Sys2Proof.Machine.execFlrComplete fn s
  | .hifClrCounts => Sys2Proof.Machine.execHifClrCounts s
  | .mbxDataWrite mid m word received => Sys2Proof.Machine.execMbxDataWrite mid m word received s
  | .mbxDataRead mid m => Sys2Proof.Machine.execMbxDataRead mid m s
  | .mbxWithdraw mid m received => Sys2Proof.Machine.execMbxWithdraw mid m received s
  | .mbxBindWrite mid m val => Sys2Proof.Machine.execMbxBindWrite mid m val s
  | .mbxTimeout m received => Sys2Proof.Machine.execMbxTimeout m received s
  | .mbxClrCounts => Sys2Proof.Machine.execMbxClrCounts s
  | .bcnFireWrite mid mask => Sys2Proof.Machine.execBcnFireWrite mid mask s
  | .bcnCfgWrite mid c val => Sys2Proof.Machine.execBcnCfgWrite mid c val s
  | .bcnClrCounts => Sys2Proof.Machine.execBcnClrCounts s
  | .pwrWakeEvent ch => Sys2Proof.Machine.execPwrWakeEvent ch s
  | .keepIrqEvent ch => Sys2Proof.Machine.execKeepIrqEvent ch s
  | .twnSendEvent ch => Sys2Proof.Machine.execTwnSendEvent ch s
  | .twnCtlWrite val => Sys2Proof.Machine.execTwnCtlWrite val s
  | .twnRelease => Sys2Proof.Machine.execTwnRelease s
  | .twnHello => Sys2Proof.Machine.execTwnHello s
  | .twnFcgSync => Sys2Proof.Machine.execTwnFcgSync s
  | .twnClrCounts => Sys2Proof.Machine.execTwnClrCounts s
  | .twnHelloRx pkt => Sys2Proof.Machine.execTwnHelloRx pkt s
  | .twnFoghornTx => Sys2Proof.Machine.execTwnFoghornTx s
  | .twnFoghornRx pkt => Sys2Proof.Machine.execTwnFoghornRx pkt s
  | .twnFogMiss => Sys2Proof.Machine.execTwnFogMiss s
  | .twnTbsyncTx => Sys2Proof.Machine.execTwnTbsyncTx s
  | .twnTbsyncRx pkt => Sys2Proof.Machine.execTwnTbsyncRx pkt s
  | .twnFsRx pkt => Sys2Proof.Machine.execTwnFsRx pkt s
  | .twnTrigRx pkt => Sys2Proof.Machine.execTwnTrigRx pkt s
  | .twnFcgstateRx pkt => Sys2Proof.Machine.execTwnFcgstateRx pkt s
  | .twnRoleRx pkt => Sys2Proof.Machine.execTwnRoleRx pkt s
  | .twnMbxRx pkt => Sys2Proof.Machine.execTwnMbxRx pkt s
  | .twnBcnRx pkt => Sys2Proof.Machine.execTwnBcnRx pkt s
  | .twnSearchTimeout => Sys2Proof.Machine.execTwnSearchTimeout s
  | .twnLineMiss n => Sys2Proof.Machine.execTwnLineMiss n s
  | .twnTakeoverDrive => Sys2Proof.Machine.execTwnTakeoverDrive s
  | .driveFight n => Sys2Proof.Machine.execDriveFight n s
  | .twnHandover => Sys2Proof.Machine.execTwnHandover s
  | .twnHandoverCancel => Sys2Proof.Machine.execTwnHandoverCancel s
  | .read port addr tail crc => Sys2Proof.Machine.execRead port addr tail crc s
  | .write port addr data tail crc => Sys2Proof.Machine.execWrite port addr data tail crc s
  | .poll port max tail crc => Sys2Proof.Machine.execPoll port max tail crc s
  | .step port k tail crc => Sys2Proof.Machine.execStep port k tail crc s
  | .time port seconds crc => Sys2Proof.Machine.execTime port seconds crc s
  | .nvwrite port addr data tail fast crc => Sys2Proof.Machine.execNvwrite port addr data tail fast crc s
  | .kdIntent port hash tail fast crc => Sys2Proof.Machine.execKdIntent port hash tail fast crc s
  | .kdCommit port hash tail fast crc => Sys2Proof.Machine.execKdCommit port hash tail fast crc s
  | .kreset port data crc => Sys2Proof.Machine.execKreset port data crc s
  | .keeperAbandon port => Sys2Proof.Machine.execKeeperAbandon port s
  | .kbrGo mid => Sys2Proof.Machine.execKbrGo mid s
  | .kbrDone flips => Sys2Proof.Machine.execKbrDone flips s
  | .keeperPor => Sys2Proof.Machine.execKeeperPor s
  | .kpResetWarm port key => Sys2Proof.Machine.execKpResetWarm port key s
  | .kpResetCold port key => Sys2Proof.Machine.execKpResetCold port key s
  | .kpFailClear port mask => Sys2Proof.Machine.execKpFailClear port mask s
  | .thermalWarn sensor hot => Sys2Proof.Machine.execThermalWarn sensor hot s
  | .thermalTrip sensor hot => Sys2Proof.Machine.execThermalTrip sensor hot s
  | .tripClr port => Sys2Proof.Machine.execTripClr port s
  | .domainPowerUp d => Sys2Proof.Machine.execDomainPowerUp d s
  | .domainPowerDown d => Sys2Proof.Machine.execDomainPowerDown d s
  | .domainPowerFail d => Sys2Proof.Machine.execDomainPowerFail d s
  | .pwrWakeRelease mask => Sys2Proof.Machine.execPwrWakeRelease mask s
  | .railOutOfRange => Sys2Proof.Machine.execRailOutOfRange s
  | .vkeepLoss => Sys2Proof.Machine.execVkeepLoss s
  | .adieRelease => Sys2Proof.Machine.execAdieRelease s
  | .adieResetDone trgPs => Sys2Proof.Machine.execAdieResetDone trgPs s
  | .warmReset mid val => Sys2Proof.Machine.execWarmReset mid val s
  | .coldReset mid val => Sys2Proof.Machine.execColdReset mid val s
  | .warmResetDone => Sys2Proof.Machine.execWarmResetDone s
  | .blockReset mid mask => Sys2Proof.Machine.execBlockReset mid mask s
  | .blockResetDone b => Sys2Proof.Machine.execBlockResetDone b s
  | .fioFaultConfirm c kinds partner => Sys2Proof.Machine.execFioFaultConfirm c kinds partner s
  | .fioFaultClear c kind => Sys2Proof.Machine.execFioFaultClear c kind s
  | .idleWindowEnd c ticks => Sys2Proof.Machine.execIdleWindowEnd c ticks s
  | .fioRearm c => Sys2Proof.Machine.execFioRearm c s
  | .fioArmTestDone c pass kind partner => Sys2Proof.Machine.execFioArmTestDone c pass kind partner s
  | .fioDarkCmd c => Sys2Proof.Machine.execFioDarkCmd c s
  | .ginEdge n level held => Sys2Proof.Machine.execGinEdge n level held s
  | .fioClrCounts => Sys2Proof.Machine.execFioClrCounts s
  | .laneRefReturn => Sys2Proof.Machine.execLaneRefReturn s
  | .pcieRefReturn => Sys2Proof.Machine.execPcieRefReturn s
  | .pcieConfigWrite fn what val => Sys2Proof.Machine.execPcieConfigWrite fn what val s

end Sys2Proof.Machine
end

