-- ==== Sys2Proof/Safety.lean ====
section
/-! DEFINITION. What claims say of a run: a command completes, what it changes and what it leaves alone, and the memories
keep their canonical form. -/
namespace Sys2Proof.Machine

/-- The outcome is a next state, of which `P` holds. -/
def Answers (o : Host.Outcome State Fault Refusal) (P : State → Prop) : Prop := ∃ t, o = .next t ∧ P t

/-- `t` is `u` but for what ends every command: the conditions that open frames record (R299) and the block messages that
the command raised (R449). -/
def Settled (u t : State) : Prop :=
  t = { u with frames := u.frames.map (settleFrame t), sent := t.sent, held := t.held, msix := t.msix }

/-- Every register field but the listed instances reads in `t` as it reads in `s`. -/
def Keeps (ks : List (Field × Nat)) (s t : State) : Prop :=
  ∀ f i, (∀ p ∈ ks, p.1.key p.2 ≠ f.key i) → rd t f i = rd s f i

/-- Of `s`, registers alone differ in `t`, and of the registers at most the listed ones: every memory, every queue and all
the state that blocks hold beside their registers is as it was. -/
def Changes (ks : List (Field × Nat)) (s t : State) : Prop := Keeps ks s t ∧ Settled { s with regs := t.regs } t

/-- Core `c` can issue its next instruction, is not single-stepped, and its pc has an instruction after it. -/
def Ready (s : State) (c : Nat) : Prop :=
  c < 8 ∧ canIssue s c = true ∧ (coreAt s c).stepping = false ∧ pcOf s c < 0x7FFC

/-- No run-ahead region of core `c` is open. -/
def NoRegion (s : State) (c : Nat) : Prop := (coreAt s c).region = none

/-- No block holds a tentative action of the region of core `c` (R94). -/
def NoTentative (s : State) (c : Nat) : Prop :=
  (∀ d ∈ s.descs, d.region ≠ some c) ∧ (∀ f ∈ s.frames, f.tent ≠ some c) ∧ tentStreams s c = []
  ∧ ∀ r ∈ s.podRuns, r.region ≠ some c

/-- The columns bring port `n` one whole packet of the bytes `bytes`, without an error, from its own pins. -/
def Brings (s : State) (n : Nat) (cols : List (List Nat)) (bytes : List Nat) : Prop :=
  loopRelay s n = none ∧ (takeColumns s n cols).errs = [] ∧ arrival s n (takeColumns s n cols) = .packet (bytes.map some)

/-- Neither image pipeline works or holds a job. -/
def PipelinesOff (s : State) : Prop := ∀ p, p < 2 → ispMode s p = ispOFF ∧ (ispAt s p).jobs = []

/-- No other block follows stream `k`: no twin, pipeline, gate or stream delivery, and no tentative count is held. -/
def Unwatched (s : State) (k : Nat) : Prop :=
  twnPaired s = false ∧ PipelinesOff s ∧ gateOn s k = false ∧ isSet s F.DMA_SDLV_CFG_EN k = false
  ∧ (streamAt s k).tentCore = none ∧ (streamAt s k).gap = false

/-- Every frame still open records what R299 makes it record: TB_UNLOCKED while the time base is unlocked, ENCODER_FAULT
while an encoder of its stream's mask has an active fault, and no relay but those that now run from its port. -/
def FramesMarked (s : State) : Prop :=
  ∀ f ∈ s.frames, f.phase = .open →
    (tbUnlocked s = true → f.flags.testBit flUNLOCKED = true)
    ∧ (∀ k, k < 4 → (rd s F.PKT_SCFG_ENC_MASK f.stream).testBit k = true → encFaultActive s k = true →
        f.flags.testBit flENCFAULT = true)
    ∧ (∀ k, f.relayed.testBit k = true → (relaysOf s f.port).testBit k = true)

/-- The byte memories of the device. -/
def State.memories (s : State) : List (List Host.Cell) := [s.data, s.shared, s.journal, s.ispMem, s.lp5x, s.spm]

/-- Every byte memory is in canonical form: addresses strictly rising, no entry that reads as an unlisted byte. -/
def Memory.wf (s : State) : Bool := s.memories.all (Sparse.wf 0)

/-- The register file lists its keys in strictly rising order. -/
def Registers.wf (s : State) : Bool := sortedKeys s.regs

end Sys2Proof.Machine
end

