-- ==== Sys2Proof/WellFormed.lean ====
section
/-! DEFINITION. The commands that can be sent: every unit they name exists, every operand fits the field that carries it.
A command that is not well-formed names no unit of the device, or a value that its field cannot hold. -/
namespace Sys2Proof

/-- A second operand of an instruction that has no ACC form (R106). -/
def Src.plain (s : Src) : Bool :=
  match s with
  | .reg r => r < 16
  | .imm v => v < 2 ^ 16
  | .acc _ => false

/-- A second operand of a shift: imm16 bits 15:6 are zero (R106). -/
def Src.shift (s : Src) : Bool :=
  match s with
  | .reg r => r < 16
  | .imm v => v < 64
  | .acc _ => false

/-- A second operand of add and sub: the ACC form has rd as its first source (R106). -/
def Src.sum (s : Src) (rd ra : Nat) : Bool :=
  match s with
  | .reg r => r < 16
  | .imm v => v < 2 ^ 16
  | .acc v => rd == ra && v < 2 ^ 20

/-- The kinds of LP5X errors of a command (R400 to R402). -/
def errsOk (es : List (Nat × Nat)) : Bool := es.all fun e => 1 ≤ e.1 && e.1 ≤ 3

/-- The command is well-formed. -/
def Instr.wellFormed (i : Instr) : Bool :=
  match i with
  | .registerWrite mid off size val rival => mid < 32 && off < 2 ^ 26 && (size == 4 || size == 8) && off % size == 0
      && val < 2 ^ (8 * size) && rival.all fun r => r.1 < 32 && r.1 ≠ mid && decide (r.2 < 2 ^ (8 * size))
  | .badAccess mid off _ _ => mid < 32 && off < 2 ^ 26 + 2 ^ 20
  | .loHalfRead mid off => mid < 32 && off < 2 ^ 26 && off % 4 == 0
  | .rcRead mid off => mid < 32 && off < 2 ^ 26 && off % 4 == 0
  | .d2dRetry => true
  | .d2dDown => true
  | .d2dReturn => true
  | .laneRefLoss => true
  | .pcieRefLoss => true
  | .hifIrqRearm mask => mask < 2 ^ 29
  | .msixUnmask fn vec => fn < 8 && vec.all (· < 2048)
  | .sqRun c => c < 8
  | .sqHalt c => c < 8
  | .sqStep c => c < 8
  | .sqCoreReset c => c < 8
  | .recipeStart c id => c < 8 && id < 8
  | .recipeBegin c => c < 8
  | .recipeStop c => c < 8
  | .recipeStopped c => c < 8
  | .recipeFcgStart c => c < 8
  | .hashStart => true
  | .hashDone => true
  | .coreWakeStart c => c < 8
  | .add c rd ra src => c < 8 && rd < 16 && ra < 16 && src.sum rd ra
  | .sub c rd ra src => c < 8 && rd < 16 && ra < 16 && src.sum rd ra
  | .and c rd ra src => c < 8 && rd < 16 && ra < 16 && src.plain
  | .or c rd ra src => c < 8 && rd < 16 && ra < 16 && src.plain
  | .xor c rd ra src => c < 8 && rd < 16 && ra < 16 && src.plain
  | .shl c rd ra src => c < 8 && rd < 16 && ra < 16 && src.shift
  | .shr c rd ra src => c < 8 && rd < 16 && ra < 16 && src.shift
  | .sar c rd ra src => c < 8 && rd < 16 && ra < 16 && src.shift
  | .mul c rd ra src => c < 8 && rd < 16 && ra < 16 && src.plain
  | .mov c rd imm20 => c < 8 && rd < 16 && imm20 < 2 ^ 20
  | .movk c rd imm group => c < 8 && rd < 16 && imm < 2 ^ 16 && group < 4
  | .bCond c cond off16 => c < 8 && cond < 15 && off16 < 2 ^ 16
  | .bl c off16 => c < 8 && off16 < 2 ^ 16
  | .jr c ra => c < 8 && ra < 16
  | .ret c => c < 8
  | .movlk c rd => c < 8 && rd < 16
  | .setlk c ra => c < 8 && ra < 16
  | .ldb c rd ra imm16 => c < 8 && rd < 16 && ra < 16 && imm16 < 2 ^ 16
  | .ldh c rd ra imm16 => c < 8 && rd < 16 && ra < 16 && imm16 < 2 ^ 16
  | .ldw c rd ra imm16 => c < 8 && rd < 16 && ra < 16 && imm16 < 2 ^ 16
  | .ldd c rd ra imm16 => c < 8 && rd < 16 && ra < 16 && imm16 < 2 ^ 16
  | .ldsb c rd ra imm16 => c < 8 && rd < 16 && ra < 16 && imm16 < 2 ^ 16
  | .ldsh c rd ra imm16 => c < 8 && rd < 16 && ra < 16 && imm16 < 2 ^ 16
  | .ldsw c rd ra imm16 => c < 8 && rd < 16 && ra < 16 && imm16 < 2 ^ 16
  | .stb c rd ra imm16 => c < 8 && rd < 16 && ra < 16 && imm16 < 2 ^ 16
  | .sth c rd ra imm16 => c < 8 && rd < 16 && ra < 16 && imm16 < 2 ^ 16
  | .stw c rd ra imm16 => c < 8 && rd < 16 && ra < 16 && imm16 < 2 ^ 16
  | .std c rd ra imm16 => c < 8 && rd < 16 && ra < 16 && imm16 < 2 ^ 16
  | .aadd c rd ra rb => c < 8 && rd < 16 && ra < 16 && rb < 16
  | .axch c rd ra rb => c < 8 && rd < 16 && ra < 16 && rb < 16
  | .rdev c rd ra imm16 => c < 8 && rd < 16 && ra < 16 && imm16 < 2 ^ 16
  | .rdevd c rd ra imm16 => c < 8 && rd < 16 && ra < 16 && imm16 < 2 ^ 16
  | .wdev c rd ra imm16 => c < 8 && rd < 16 && ra < 16 && imm16 < 2 ^ 16
  | .wdevd c rd ra imm16 => c < 8 && rd < 16 && ra < 16 && imm16 < 2 ^ 16
  | .dsync c => c < 8
  | .tbr c rd => c < 8 && rd < 16
  | .wait c kind ra rdl idx => c < 8 && kind < 4 && ra < 16 && rdl < 16 && idx < 64
  | .halt c => c < 8
  | .spec c k rdl off16 => c < 8 && k < 4 && rdl < 16 && off16 < 2 ^ 16
  | .commit c => c < 8
  | .squash c => c < 8
  | .pulse c rd ra rb rc => c < 8 && rd < 16 && ra < 16 && rb < 16 && rc < 16
  | .pair c rd ra rb rc => c < 8 && rd < 16 && ra < 16 && rb < 16 && rc < 16
  | .trigpkt c rd ra rb rc => c < 8 && rd < 16 && ra < 16 && rb < 16 && rc < 16
  | .fire c rd ra imm6 => c < 8 && rd < 16 && ra < 16 && imm6 < 64
  | .mbxsend c rd ra rb _ => c < 8 && rd < 16 && ra < 16 && rb < 16
  | .mbxrcv c rd ra => c < 8 && rd < 16 && ra < 16
  | .mbxwdr c rd ra => c < 8 && rd < 16 && ra < 16
  | .dmaq c rd ra _ => c < 8 && rd < 16 && ra < 16
  | .podrun c rd ra rb rc => c < 8 && rd < 16 && ra < 16 && rb < 16 && rc < 16
  | .framearm c rd ra rb => c < 8 && rd < 16 && ra < 16 && rb < 16
  | .waitEnd c => c < 8
  | .waitDeadline c => c < 8
  | .regionCommit c => c < 8
  | .specDeadline c => c < 8
  | .deviceAnswer c same => c < 8 && same.all (· < 8)
  | .storeQueueRoom c => c < 8
  | .dsyncDone c => c < 8
  | .dmaqSlotFree c => c < 8
  | .syncSendEnd c => c < 8
  | .sqEvEvent c k => c < 8 && k < 4
  | .trgPulseStart n => n < 16
  | .trgPulseEnd n => n < 16
  | .pairEdge p => p < 8
  | .trgBcnEvent ch => ch < 48
  | .trgClrCounts n => n < 16
  | .encEdge n _ _ _ _ _ => n < 4
  | .loadPreset n => n < 4
  | .encClrCounts n => n < 4
  | .restartSpeed n => n < 4
  | .clrIdxRef n => n < 4
  | .ssiGrid n _ => n < 4
  | .ssiWord n word => n < 4 && word < 2 ^ 64
  | .ssiTimeout n word => n < 4 && word < 2 ^ 64
  | .encLost n => n < 4
  | .poEnable p => p < 2
  | .poOutputCount p => p < 2
  | .cmpArm k => k < 16
  | .cmpDisarm k => k < 16
  | .cmpClrCounts k => k < 16
  | .cmpListWrite off size val => off < 2 ^ 16 && (size == 4 || size == 8) && val < 2 ^ (8 * size)
  | .ppsEdge => true
  | .tbSlewTick => true
  | .timerefLost => true
  | .timerefFreqLock => true
  | .ppsTimeout => true
  | .loadNow => true
  | .loadAtPps => true
  | .cancelLoad => true
  | .fcgStart g => g < 4
  | .fcgStop g => g < 4
  | .fcgClrCounts g => g < 4
  | .fcgPeriodWrite g _ size val => g < 4 && (size == 4 || size == 8) && val < 2 ^ (8 * size)
  | .fcgCommit g => g < 4
  | .fcgLoopUpdate g => g < 4
  | .fcgWindowClose g => g < 4
  | .fcgHoldExpired g => g < 4
  | .fckDetect n => n < 9
  | .prtFreqCheck n _ => n < 9
  | .prtMultLock n => n < 9
  | .prtPhaseCentred n => n < 9
  | .ctleSweepDone n foms => n < 9 && foms.all (·.all (· < 256))
  | .laneLock n j units => n < 9 && j < 4 && units.all (· < 2 ^ 66)
  | .prtDeskew n => n < 9
  | .linkUp n => n < 9
  | .stageTimeout n => n < 9
  | .laneLockLost n j units => n < 9 && j < 4 && units.all (· < 2 ^ 66)
  | .deskewLost n => n < 9
  | .clkLost n => n < 9
  | .markerColumn n cols => n < 9 && cols.all (·.all (· < 2 ^ 66))
  | .rxControlError n j prev unit => n < 9 && j < 4 && prev < 2 ^ 66 && unit < 2 ^ 66
  | .restart n => n < 8
  | .holdEnter n _ => n < 8
  | .holdExit n => n < 8
  | .deepEnter n _ => n < 8
  | .deepExit n => n < 8
  | .holdExited n => n < 8
  | .deepExited n => n < 8
  | .prtTriggerWake n => n < 8
  | .prtWakeEvent ch => ch < 48
  | .selftest n => n < 8
  | .selftestDone n pass => n < 8 && pass < 16
  | .prtClrCounts n => n < 8
  | .prbsLock n j _ => n < 9 && j < 4
  | .prbsLockLost n j _ => n < 9 && j < 4
  | .prbsClr n j => n < 9 && j < 4
  | .fomUpdate n j _ => n < 9 && j < 4
  | .phaseTrackStep n j => n < 9 && j < 4
  | .ulInjOne n => n < 8
  | .rlyInjOne k => k < 4
  | .rlyClrCounts k => k < 4
  | .injPeriodic k => k < 13
  | .trigpktSend n => n < 8
  | .ulSend n => n < 8
  | .ulTxDone n => n < 8
  | .pktFs n cols => n < 8 && cols.all (·.all (· < 2 ^ 66))
  | .pktFe n cols => n < 8 && cols.all (·.all (· < 2 ^ 66))
  | .pktLong n cols ecc => n < 8 && cols.all (·.all (· < 2 ^ 66)) && errsOk ecc
  | .pktShortOther n cols => n < 8 && cols.all (·.all (· < 2 ^ 66))
  | .sopAbort n cols => n < 8 && cols.all (·.all (· < 2 ^ 66))
  | .frameWdog k => k < 64
  | .tagFinalise k => k < 64
  | .tagComplete => true
  | .pktTrigEvent ch => ch < 48
  | .ulRxPop n => n < 8
  | .pktMapWrite k val => k < 64 && val < 2 ^ 32
  | .lastTagRead k => k < 64
  | .pktPortClrCounts n => n < 8
  | .pktStreamClrCounts k => k < 64
  | .ispUnitStart i => i < 2
  | .ispUnitDone i ecc => i < 2 && errsOk ecc
  | .ispInlineDone i ecc => i < 2 && errsOk ecc
  | .ispMergeTimeout i c => i < 2 && c < 64
  | .ispSubmitGo i mid => i < 2 && mid < 32
  | .ispCtxDisable i c => i < 2 && c < 64
  | .ispModeWrite i val => i < 2 && val < 2 ^ 32
  | .ispCtxClrCounts i c => i < 2 && c < 64
  | .lastStatRead i => i < 2
  | .podSubGo mid => mid < 32
  | .podRunBegin id => id < 2 ^ 16
  | .podLayerDone id ecc => id < 2 ^ 16 && errsOk ecc
  | .gateDeadline k seq => k < 64 && seq < 2 ^ 48
  | .gateCfgWrite mid k val => mid < 32 && k < 64 && val < 2 ^ 32
  | .podClrCounts k => k < 8
  | .podCcmdClrCounts => true
  | .gateClrCounts k => k < 64
  | .memTrain => true
  | .memTrainDone chOk gib => chOk < 256 && [8, 16, 32, 64].contains gib
  | .memRefresh => true
  | .memClrCounts => true
  | .burstArm k => k < 64
  | .burstDisarm k => k < 64
  | .freezeNow k => k < 64
  | .burstEndEvent ch => ch < 48
  | .dmaSubGo mid => mid < 32
  | .dmaDescStart id => id < 2 ^ 16
  | .dmaBurst c ecc host => c < 64 && errsOk ecc && host.all (· < 256)
  | .dmaDescComplete id host => id < 2 ^ 16 && host.all (· < 256)
  | .dmaPause c => c < 64
  | .dmaResume c => c < 64
  | .dmaDrain c => c < 64
  | .dmaAbort c => c < 64
  | .dmaChClrCounts c => c < 64
  | .hostLinkUp speed width => speed < 8 && width < 32
  | .hostLinkDown => true
  | .perstAssert => true
  | .perstRelease => true
  | .hostCplTimeout _ _ => true
  | .hostCplError _ _ => true
  | .hostIndexWrite mid ring val _ => mid < 32 && ring < 4096 && val < 2 ^ 32
  | .buoyAck mid ring _ => mid < 32 && ring < 4096
  | .buoyCntRead mid ring => mid < 32 && ring < 4096
  | .ringCfgWrite mid ring val => mid < 32 && ring < 4096 && val < 2 ^ 32
  | .ringEntryFetched ring bytes => ring < 4096 && bytes.all (· < 256)
  | .cmdNop ring => ring < 4096
  | .cmdRegWrite ring => ring < 4096
  | .cmdRegRead ring => ring < 4096
  | .cmdMbxSend ring => ring < 4096
  | .cmdBcnFire ring => ring < 4096
  | .cmdDmaSubmit ring _ desc => ring < 4096 && desc.length == 64 && desc.all (· < 256)
  | .ringIndexWb ring => ring < 4096
  | .ringCoalTimeout ring => ring < 4096
  | .rngEvtEvent i => i < 16
  | .flrVf k => 1 ≤ k && k < 8
  | .flrPf => true
  | .flrComplete fn => fn < 8
  | .hifClrCounts => true
  | .mbxDataWrite mid m word _ => mid < 32 && m < 64 && word < 2 ^ 32
  | .mbxDataRead mid m => mid < 32 && m < 64
  | .mbxWithdraw mid m _ => mid < 32 && m < 64
  | .mbxBindWrite mid m val => mid < 32 && m < 64 && val < 2 ^ 32
  | .mbxTimeout m _ => m < 64
  | .mbxClrCounts => true
  | .bcnFireWrite mid mask => mid < 32 && mask < 2 ^ 48
  | .bcnCfgWrite mid c val => mid < 32 && c < 48 && val < 2 ^ 32
  | .bcnClrCounts => true
  | .pwrWakeEvent ch => ch < 48
  | .keepIrqEvent ch => ch < 48
  | .twnSendEvent ch => ch < 48
  | .twnCtlWrite val => val < 2 ^ 32
  | .twnRelease => true
  | .twnHello => true
  | .twnFcgSync => true
  | .twnClrCounts => true
  | .twnHelloRx pkt => pkt.all (· < 256)
  | .twnFoghornTx => true
  | .twnFoghornRx pkt => pkt.all (· < 256)
  | .twnFogMiss => true
  | .twnTbsyncTx => true
  | .twnTbsyncRx pkt => pkt.all (· < 256)
  | .twnFsRx pkt => pkt.all (· < 256)
  | .twnTrigRx pkt => pkt.all (· < 256)
  | .twnFcgstateRx pkt => pkt.all (· < 256)
  | .twnRoleRx pkt => pkt.all (· < 256)
  | .twnMbxRx pkt => pkt.all (· < 256)
  | .twnBcnRx pkt => pkt.all (· < 256)
  | .twnSearchTimeout => true
  | .twnLineMiss n => n < 16
  | .twnTakeoverDrive => true
  | .driveFight n => n < 16
  | .twnHandover => true
  | .twnHandoverCancel => true
  | .read port addr _ crc => port < 2 && addr < 2 ^ 16 && crc < 256
  | .write port addr data _ crc => port < 2 && addr < 2 ^ 16 && data < 2 ^ 32 && crc < 256
  | .poll port max _ crc => port < 2 && max < 2 ^ 16 && crc < 256
  | .step port k _ crc => port < 2 && k < 2 ^ 32 && crc < 256
  | .time port seconds crc => port < 2 && seconds < 2 ^ 32 && crc < 256
  | .nvwrite port addr data _ _ crc => port < 2 && addr < 2 ^ 16 && data < 2 ^ 32 && crc < 256
  | .kdIntent port hash _ _ crc => port < 2 && hash < 2 ^ 32 && crc < 256
  | .kdCommit port hash _ _ crc => port < 2 && hash < 2 ^ 32 && crc < 256
  | .kreset port data crc => port < 2 && data < 2 ^ 32 && crc < 256
  | .keeperAbandon port => port < 2
  | .kbrGo mid => mid < 32
  | .kbrDone flips => flips < 2 ^ 40
  | .keeperPor => true
  | .kpResetWarm port key => port < 2 && key < 2 ^ 16
  | .kpResetCold port key => port < 2 && key < 2 ^ 16
  | .kpFailClear port _ => port < 2
  | .thermalWarn sensor _ => sensor < 5
  | .thermalTrip sensor _ => sensor < 5
  | .tripClr port => port < 2
  | .domainPowerUp d => d < 24
  | .domainPowerDown d => d < 24
  | .domainPowerFail d => d < 24
  | .pwrWakeRelease _ => true
  | .railOutOfRange => true
  | .vkeepLoss => true
  | .adieRelease => true
  | .adieResetDone _ => true
  | .warmReset mid val => mid < 32 && val < 2 ^ 32
  | .coldReset mid val => mid < 32 && val < 2 ^ 32
  | .warmResetDone => true
  | .blockReset mid mask => mid < 32 && mask < 2 ^ 29
  | .blockResetDone b => b < 29
  | .fioFaultConfirm c kinds partner => c < 38 && 0 < kinds && kinds < 2 ^ 7 && partner < 64
  | .fioFaultClear c _ => c < 38
  | .idleWindowEnd c ticks => c < 12 && ticks ≤ 255000
  | .fioRearm c => c < 48
  | .fioArmTestDone c pass kind partner => c < 48 && (pass || [1, 2, 3, 5].contains kind) && partner < 64
  | .fioDarkCmd c => c < 48
  | .ginEdge n _ _ => n < 8
  | .fioClrCounts => true
  | .laneRefReturn => true
  | .pcieRefReturn => true
  | .pcieConfigWrite fn what val => fn < 8 && what < 7 && val < 2 ^ 32

end Sys2Proof
end

