-- ==== Sys2Proof/Certificates/Slice0/Obligations.lean ====
section
/-! DEFINITION. The statements for the provers: what each family of commands does, what the registers and the queue do, and
what holds of every step. -/
open Sys2Proof Sys2Proof.Machine

/-- O1. For every command c, queue rest and state s whose queue is c followed by rest, step of s is exec of c on s with
the queue rest. -/
def Obligations.StepRunsTheFrontCommand : Prop :=
  ∀ (c : Instr) (rest : List Instr) (s : State), s.pending = c :: rest → step s = exec c { s with pending := rest }

/-- O2. The model's choice (log 2) over R193, R33 and R194: with no command waiting and no device store waiting in a
core's store queue, a step answers a next state in which the model's clock ns is one more; TB is one more modulo 2^64
where D4 TIME works outside an A-die reset and the lane reference or TIMEREF clocks the time PLL, and is unchanged where
not. -/
def Obligations.EmptyQueueCountsOneNanosecond : Prop :=
  ∀ s : State, s.pending = [] → (∀ c, c < 8 → (coreAt s c).storeQ = []) →
    Answers (step s) fun t =>
      t.ns = s.ns + 1
      ∧ t.tb = (if domUp s 4 && !s.aDieReset && (isSet s F.GLB_STATUS_REF_LANE_OK || rd s F.TMB_STATUS_STATE ≠ 0)
          then (s.tb + 1) % 2 ^ 64 else s.tb)

/-- O3. For an access of the PF that reaches its block. (1) A 32-bit write to GLB_SCRATCH (RW) stores the value and
changes nothing else. (2) A write to GLB_EVT (W1C) clears exactly the event bits written 1. (3) A write to GLB_STATUS (RO)
changes no register and no other state. (4) A read of TMB_TB_LO captures the high half: a following read of TMB_TB_HI
returns bits 63:32 of TB as it was, whatever TB has become (R14). (5) A read of PKT_TAG_QUEUE restarts its RC field PEAK
from the present depth and changes nothing else (R17, R622). (6) An access that is not of 4 or 8 bytes or not aligned,
with no reset running, increments HIF_BAD_ACCESS (which holds at all ones) and sets HIF_EVT bit 5, and changes nothing
else (R15). (7) When a core writes GLB_SCRATCH in the same cycle as the PF, the register keeps the PF's value, that of the
lower MID, whichever of the two the command names first (R44). -/
def Obligations.RegisterAccessesApplyByFieldType : Prop :=
  ∀ (s : State) (v : Nat),
    (busReach s 0x10 = true → Answers (exec (.registerWrite 1 0x10 4 v none) s) fun t =>
      rd t F.GLB_SCRATCH_VALUE = v % 2 ^ 32 ∧ Changes [(F.GLB_SCRATCH_VALUE, 0)] s t)
    ∧ (busReach s 0x30 = true → Answers (exec (.registerWrite 1 0x30 4 v none) s) fun t =>
      (∀ b, b < 6 → hasBit t F.GLB_EVT_EVT 0 b = (hasBit s F.GLB_EVT_EVT 0 b && !v.testBit b))
      ∧ Changes [(F.GLB_EVT_EVT, 0)] s t)
    ∧ (busReach s 0x14 = true → Answers (exec (.registerWrite 1 0x14 4 v none) s) fun t => Changes [] s t)
    ∧ (busReach s 0x50008 = true → Answers (exec (.loHalfRead 1 0x50008) s) fun t =>
      ∀ x, (busRead { t with tb := x } 1 0x5000C 4).1 = s.tb / 2 ^ 32 % 2 ^ 32)
    ∧ (busReach s 0x1D0010 = true → Answers (exec (.rcRead 1 0x1D0010) s) fun t =>
      rd t F.PKT_TAG_QUEUE_PEAK = s.tagQ.length % 2 ^ 13 ∧ Changes [(F.PKT_TAG_QUEUE_PEAK, 0)] s t)
    ∧ (∀ (mid off size : Nat) (w : Bool), off < 0x4000000 → ((size = 4 ∨ size = 8) → off % size ≠ 0) →
      resetRunning s = false → Answers (exec (.badAccess mid off size w) s) fun t =>
        rd t F.HIF_BAD_ACCESS_COUNT = min (rd s F.HIF_BAD_ACCESS_COUNT + 1) (2 ^ 32 - 1)
        ∧ hasBit t F.HIF_EVT_EVT 0 5 = true
        ∧ Changes [(F.HIF_BAD_ACCESS_COUNT, 0), (F.HIF_EVT_EVT, 0)] s t)
    ∧ (∀ mid u, 0x10 ≤ mid → mid ≤ 0x17 → busReach s 0x10 = true →
      ∀ i ∈ [Instr.registerWrite 1 0x10 4 v (some (mid, u)), .registerWrite mid 0x10 4 u (some (1, v))],
        Answers (exec i s) fun t => rd t F.GLB_SCRATCH_VALUE = v % 2 ^ 32 ∧ Changes [(F.GLB_SCRATCH_VALUE, 0)] s t)

/-- O4. D2D_RETRY with the link up counts one retry (held at all ones) and changes nothing else. D2D_DOWN with the link up
and D4 good clears D2D_UP, counts one down event, darkens every TRG output and latches the D2D_DOWN capture in the active
bank. D2D_RETURN with D4 good outside an A-die reset sets D2D_UP and changes no other register but GLB_EVT, so dark
outputs stay dark. LANE_REF_LOSS with D4 good clears REF_LANE_OK, darkens every TRG output, latches the REF_LOSS capture
and stops the data plane. LANE_REF_RETURN sets REF_LANE_OK and nothing else but its event: the data plane stays stopped.
PCIE_REF_LOSS clears REF_PCIE_OK and the link's UP and changes nothing but these, their events and the count of link
losses. PCIE_REF_RETURN sets REF_PCIE_OK. A changed GLB_STATUS bit sets its GLB_EVT bit. -/
def Obligations.LinksAndReferencesFollowTheirEvents : Prop :=
  ∀ s : State,
    (isSet s F.GLB_STATUS_D2D_UP = true → Answers (exec .d2dRetry s) fun t =>
      rd t F.GLB_D2D_ERR_RETRIES = min (rd s F.GLB_D2D_ERR_RETRIES + 1) (2 ^ 16 - 1)
      ∧ Changes [(F.GLB_D2D_ERR_RETRIES, 0)] s t)
    ∧ (isSet s F.GLB_STATUS_D2D_UP = true → domGood s 4 = true → Answers (exec .d2dDown s) fun t =>
      rd t F.GLB_STATUS_D2D_UP = 0 ∧ hasBit t F.GLB_EVT_EVT 0 0 = true
      ∧ rd t F.GLB_D2D_ERR_DOWN_EVENTS = min (rd s F.GLB_D2D_ERR_DOWN_EVENTS + 1) (2 ^ 16 - 1)
      ∧ (∀ n, n < 16 → trgDark t n = true) ∧ ((captureAt t 0).bank (captureAt s 0).active).latched = true)
    ∧ (domGood s 4 = true → s.aDieReset = false → Answers (exec .d2dReturn s) fun t =>
      rd t F.GLB_STATUS_D2D_UP = 1 ∧ (∀ n, trgDark t n = trgDark s n)
      ∧ (rd s F.GLB_STATUS_D2D_UP = 0 → hasBit t F.GLB_EVT_EVT 0 0 = true)
      ∧ Changes [(F.GLB_STATUS_D2D_UP, 0), (F.GLB_EVT_EVT, 0)] s t)
    ∧ (domGood s 4 = true → s.laneStopped = false → Answers (exec .laneRefLoss s) fun t =>
      rd t F.GLB_STATUS_REF_LANE_OK = 0 ∧ (isSet s F.GLB_STATUS_REF_LANE_OK = true → hasBit t F.GLB_EVT_EVT 0 1 = true)
      ∧ (∀ n, n < 16 → trgDark t n = true) ∧ ((captureAt t 1).bank (captureAt s 1).active).latched = true
      ∧ t.laneStopped = true)
    ∧ (domGood s 4 = true → s.aDieReset = false → Answers (exec .laneRefReturn s) fun t =>
      rd t F.GLB_STATUS_REF_LANE_OK = 1 ∧ (rd s F.GLB_STATUS_REF_LANE_OK = 0 → hasBit t F.GLB_EVT_EVT 0 1 = true)
      ∧ t.laneStopped = s.laneStopped ∧ Changes [(F.GLB_STATUS_REF_LANE_OK, 0), (F.GLB_EVT_EVT, 0)] s t)
    ∧ (Answers (exec .pcieRefLoss s) fun t =>
      rd t F.GLB_STATUS_REF_PCIE_OK = 0 ∧ rd t F.HIF_LINK_STATUS_UP = 0
      ∧ (isSet s F.GLB_STATUS_REF_PCIE_OK = true → hasBit t F.GLB_EVT_EVT 0 2 = true)
      ∧ Changes [(F.GLB_STATUS_REF_PCIE_OK, 0), (F.GLB_EVT_EVT, 0), (F.HIF_LINK_STATUS_UP, 0),
          (F.HIF_LINK_DOWNS_COUNT, 0), (F.HIF_EVT_EVT, 0)] s t)
    ∧ (s.aDieReset = false → Answers (exec .pcieRefReturn s) fun t =>
      rd t F.GLB_STATUS_REF_PCIE_OK = 1 ∧ (rd s F.GLB_STATUS_REF_PCIE_OK = 0 → hasBit t F.GLB_EVT_EVT 0 2 = true)
      ∧ Changes [(F.GLB_STATUS_REF_PCIE_OK, 0), (F.GLB_EVT_EVT, 0)] s t)

/-- O5. HOST_LINK_UP (link down, PERST# released, D5 and the PCIe reference good, a rate of 3 to MAX_SPEED, a width of 1
to 16) sets UP with SPEED and WIDTH, and what was held is sent in its order before anything new. HOST_LINK_DOWN clears UP,
counts the loss and sets HIF_EVT bit 1. PERST_ASSERT clears UP, NumVFs, VF Enable and EN of every ring; PERST_RELEASE
releases the pin alone. HIF_IRQ_REARM with the bit of one block whose GLB_IRQ_SUM bit is 1 and whose vector is enabled and
unmasked sends that vector's message once and changes no register. MSIX_UNMASK of a vector with a message pending sends it
and clears the pending bit. PCIE_CONFIG_WRITE sets NumVFs, VF Enable, the Completion Timeout Value, Relaxed Ordering
Enable or D3hot of its function and nothing else. HIF_CLR_COUNTS clears the six HIF counters and nothing else. -/
def Obligations.HostLinkAndConfigurationCommandsAct : Prop :=
  ∀ s : State,
    (∀ speed width, s.perst = false → s.aDieReset = false → domGood s 5 = true → isSet s F.GLB_STATUS_REF_PCIE_OK = true →
      3 ≤ speed → speed ≤ rd s F.HIF_CTL_MAX_SPEED → width ∈ [1, 2, 4, 8, 16] → isSet s F.HIF_LINK_STATUS_UP = false →
      Answers (exec (.hostLinkUp speed width) s) fun t =>
        rd t F.HIF_LINK_STATUS_UP = 1 ∧ rd t F.HIF_LINK_STATUS_SPEED = speed % 2 ^ F.HIF_LINK_STATUS_SPEED.width
        ∧ rd t F.HIF_LINK_STATUS_WIDTH = width % 2 ^ F.HIF_LINK_STATUS_WIDTH.width
        ∧ hasBit t F.HIF_EVT_EVT 0 0 = true ∧ s.sent ++ s.held <+: t.sent ∧ t.held = [])
    ∧ (isSet s F.HIF_LINK_STATUS_UP = true → Answers (exec .hostLinkDown s) fun t =>
      rd t F.HIF_LINK_STATUS_UP = 0 ∧ hasBit t F.HIF_EVT_EVT 0 1 = true
      ∧ rd t F.HIF_LINK_DOWNS_COUNT = min (rd s F.HIF_LINK_DOWNS_COUNT + 1) (2 ^ 32 - 1)
      ∧ Changes [(F.HIF_LINK_STATUS_UP, 0), (F.HIF_LINK_DOWNS_COUNT, 0), (F.HIF_EVT_EVT, 0)] s t)
    ∧ (Answers (exec .perstAssert s) fun t =>
      t.perst = true ∧ rd t F.HIF_LINK_STATUS_UP = 0 ∧ t.numVfs = 0 ∧ t.vfEnable = false
      ∧ ∀ n, rd t F.RNG_CFG_EN n = 0)
    ∧ (Answers (exec .perstRelease s) fun t => Settled { s with perst := false } t)
    ∧ (∀ b, b < 29 → blockReach s 19 = true → irqBit s b = true → isSet s F.HIF_BLK_VEC_EN b = true →
      (pciAt s 0).msixEn = true → (pciAt s 0).msixMask = false →
      (msixAt s 0 (rd s F.HIF_BLK_VEC_VECTOR b)).masked = false → isSet s F.HIF_LINK_STATUS_UP = true →
      Answers (exec (.hifIrqRearm (2 ^ b)) s) fun t =>
        t.sent = s.sent ++ [.msi 0 (msixAt s 0 (rd s F.HIF_BLK_VEC_VECTOR b)).addr
          (msixAt s 0 (rd s F.HIF_BLK_VEC_VECTOR b)).data]
        ∧ Changes [] s t)
    ∧ (∀ fn v, fn < 8 → v < (if fn = 0 then 2048 else 64) → blockWorks s 19 = true → (msixAt s fn v).pending = true →
      (pciAt s fn).msixEn = true → (pciAt s fn).msixMask = false → isSet s F.HIF_LINK_STATUS_UP = true →
      Answers (exec (.msixUnmask fn (some v)) s) fun t =>
        t.sent = s.sent ++ [.msi fn (msixAt s fn v).addr (msixAt s fn v).data]
        ∧ (msixAt t fn v).masked = false ∧ (msixAt t fn v).pending = false ∧ Changes [] s t)
    ∧ (∀ val, domGood s 5 = true → s.perst = false →
      (val ≤ 7 → Answers (exec (.pcieConfigWrite 0 0 val) s) fun t => Settled { s with numVfs := val } t)
      ∧ (Answers (exec (.pcieConfigWrite 0 1 val) s) fun t => Settled { s with vfEnable := val % 2 == 1 } t)
      ∧ ∀ fn, fn < 8 → (fn = 0 ∨ vfEnabled s fn = true) →
        (Answers (exec (.pcieConfigWrite fn 4 val) s) fun t => (pciAt t fn).ctv = val % 16 ∧ Settled { s with pci := t.pci } t)
        ∧ (Answers (exec (.pcieConfigWrite fn 5 val) s) fun t =>
            (pciAt t fn).roEn = (val % 2 == 1) ∧ Settled { s with pci := t.pci } t)
        ∧ (Answers (exec (.pcieConfigWrite fn 6 val) s) fun t =>
            (pciAt t fn).d3 = (val % 2 == 1) ∧ Settled { s with pci := t.pci } t))
    ∧ (blockReach s 19 = true → Answers (exec .hifClrCounts s) fun t =>
      (∀ f ∈ [F.HIF_BAD_ACCESS_COUNT, F.HIF_CPL_TIMEOUT_COUNT, F.HIF_POISONED_COUNT, F.HIF_LINK_DOWNS_COUNT,
        F.HIF_DB_ERR_COUNT, F.HIF_FLRS_COUNT], rd t f = 0)
      ∧ Changes [(F.HIF_BAD_ACCESS_COUNT, 0), (F.HIF_CPL_TIMEOUT_COUNT, 0), (F.HIF_POISONED_COUNT, 0),
          (F.HIF_LINK_DOWNS_COUNT, 0), (F.HIF_DB_ERR_COUNT, 0), (F.HIF_FLRS_COUNT, 0)] s t)

/-- O6. HOST_CPL_TIMEOUT of an entry fetch of a live host-produced ring with an entry due counts the timeout, sets HIF_EVT
bit 3 and puts the ring in ERROR with CODE 1; HOST_CPL_ERROR does so with POISONED, bit 4 and CODE 2. FLR_VF of an enabled
VF clears EN of every ring that VF owns, shows the VF in FLR_BUSY, counts one reset and sets HIF_EVT bit 7. FLR_PF clears
EN of every ring and VF Enable, shows every VF in FLR_BUSY, counts one reset, and leaves the link's own status.
FLR_COMPLETE of a function ends FLR_BUSY of it, of every VF for the PF, and changes nothing else. -/
def Obligations.HostErrorsAndFunctionResetsAct : Prop :=
  ∀ s : State,
    (∀ n, n < 4096 → blockWorks s 18 = true → ringLive s n = true → hostProduced s n = true →
      (ringAt s n).fetched.length < ringLevel s n →
      (Answers (exec (.hostCplTimeout true n) s) fun t =>
        rd t F.HIF_CPL_TIMEOUT_COUNT = min (rd s F.HIF_CPL_TIMEOUT_COUNT + 1) (2 ^ 32 - 1)
        ∧ hasBit t F.HIF_EVT_EVT 0 3 = true ∧ rd t F.RNG_BUOY_STAT_ERROR n = 1 ∧ rd t F.RNG_ERR_CODE n = 1)
      ∧ (Answers (exec (.hostCplError true n) s) fun t =>
        rd t F.HIF_POISONED_COUNT = min (rd s F.HIF_POISONED_COUNT + 1) (2 ^ 32 - 1)
        ∧ hasBit t F.HIF_EVT_EVT 0 4 = true ∧ rd t F.RNG_BUOY_STAT_ERROR n = 1 ∧ rd t F.RNG_ERR_CODE n = 2))
    ∧ (∀ k, 0 < k → k < 8 → blockWorks s 19 = true → vfEnabled s k = true → Answers (exec (.flrVf k) s) fun t =>
      (∀ n, n < 4096 → ringOwner s n = k → rd t F.RNG_CFG_EN n = 0)
      ∧ hasBit t F.HIF_VF_STATUS_FLR_BUSY 0 (k - 1) = true ∧ hasBit t F.HIF_EVT_EVT 0 7 = true
      ∧ rd t F.HIF_FLRS_COUNT = min (rd s F.HIF_FLRS_COUNT + 1) (2 ^ 32 - 1))
    ∧ (blockWorks s 19 = true → Answers (exec .flrPf s) fun t =>
      (∀ n, rd t F.RNG_CFG_EN n = 0) ∧ t.vfEnable = false ∧ rd t F.HIF_VF_STATUS_FLR_BUSY = 127
      ∧ rd t F.HIF_LINK_STATUS_UP = rd s F.HIF_LINK_STATUS_UP ∧ hasBit t F.HIF_EVT_EVT 0 7 = true
      ∧ rd t F.HIF_FLRS_COUNT = min (rd s F.HIF_FLRS_COUNT + 1) (2 ^ 32 - 1))
    ∧ (∀ fn, fn < 8 → blockWorks s 19 = true → Answers (exec (.flrComplete fn) s) fun t =>
      (∀ i, i < 7 → hasBit t F.HIF_VF_STATUS_FLR_BUSY 0 i
        = (hasBit s F.HIF_VF_STATUS_FLR_BUSY 0 i && fn ≠ 0 && i + 1 ≠ fn))
      ∧ Changes [(F.HIF_VF_STATUS_FLR_BUSY, 0)] s t)

/-- O7. HOST_INDEX_WRITE by the owner's doorbell to a live ring sets the host-owned index where the ring can hold it (TAIL
at most SIZE beyond HEAD; HEAD at most the level forward) and otherwise leaves both indices and counts RNG_DB_ERR.
BUOY_ACK by the PF clears exactly the sticky and pending bits written 1. BUOY_CNT_READ by the PF clears both crossing
counts and nothing else. RING_CFG_WRITE with the other fields as they stand enables a disabled PF ring whose base and
write-back addresses are aligned and whose level fits, with LOST, DB_ERR, ERROR and CODE cleared, and disables an enabled
one. RING_ENTRY_FETCHED queues the entry's bytes. RING_INDEX_WB sends the device-owned index with the level flags to
RNG_WB and ends the write-back. RING_COAL_TIMEOUT at its time raises the notice: the count restarts. RNG_EVT_EVENT at an
idle consumer with a live routed EVT ring that has room delivers the event and advances that ring's TAIL by one. -/
def Obligations.RingCommandsMoveIndicesAndState : Prop :=
  ∀ (s : State) (n : Nat), n < 4096 → blockWorks s 18 = true →
    (∀ mid val, fnOf mid = ringOwner s n → fnResponds s mid = true → ringLive s n = true →
      (hostProduced s n = true → (val % 2 ^ 32 + 2 ^ 32 - rd s F.RNG_HEAD_INDEX n) % 2 ^ 32 ≤ ringSize s n →
        Answers (exec (.hostIndexWrite mid n val true) s) fun t =>
          rd t F.RNG_TAIL_INDEX n = val % 2 ^ 32 ∧ rd t F.RNG_HEAD_INDEX n = rd s F.RNG_HEAD_INDEX n)
      ∧ (hostProduced s n = false → (val % 2 ^ 32 + 2 ^ 32 - rd s F.RNG_HEAD_INDEX n) % 2 ^ 32 ≤ ringLevel s n →
        Answers (exec (.hostIndexWrite mid n val true) s) fun t => rd t F.RNG_HEAD_INDEX n = val % 2 ^ 32)
      ∧ (hostProduced s n = true → ringSize s n < (val % 2 ^ 32 + 2 ^ 32 - rd s F.RNG_HEAD_INDEX n) % 2 ^ 32 →
        Answers (exec (.hostIndexWrite mid n val true) s) fun t =>
          rd t F.RNG_DB_ERR_COUNT n = min (rd s F.RNG_DB_ERR_COUNT n + 1) (2 ^ F.RNG_DB_ERR_COUNT.width - 1)
          ∧ Changes [(F.RNG_DB_ERR_COUNT, n), (F.HIF_DB_ERR_COUNT, 0), (F.HIF_EVT_EVT, 0)] s t))
    ∧ (∀ mask, (ringAt s n).hiAt ≠ some s.ns → (ringAt s n).loAt ≠ some s.ns → Answers (exec (.buoyAck 1 n mask) s) fun t =>
      (∀ p ∈ [(F.RNG_BUOY_STAT_HIGH_STICKY, 0), (F.RNG_BUOY_STAT_LOW_STICKY, 1), (F.RNG_BUOY_STAT_HIGH_PEND, 4),
        (F.RNG_BUOY_STAT_LOW_PEND, 5)], rd t p.1 n = if mask.testBit p.2 then 0 else rd s p.1 n)
      ∧ Changes [(F.RNG_BUOY_STAT_HIGH_STICKY, n), (F.RNG_BUOY_STAT_LOW_STICKY, n), (F.RNG_BUOY_STAT_HIGH_PEND, n),
          (F.RNG_BUOY_STAT_LOW_PEND, n)] s t)
    ∧ (Answers (exec (.buoyCntRead 1 n) s) fun t =>
      rd t F.RNG_BUOY_CNT_HIGH_CNT n = 0 ∧ rd t F.RNG_BUOY_CNT_LOW_CNT n = 0
      ∧ Changes [(F.RNG_BUOY_CNT_HIGH_CNT, n), (F.RNG_BUOY_CNT_LOW_CNT, n)] s t)
    ∧ (∀ val, (∀ f ∈ ringCfgFields, bitsOf val f.lo f.width = rd s f n) →
      (rd s F.RNG_CFG_EN n = 0 → val.testBit 0 = true → ringOwner s n = 0 → rd s F.RNG_BASE_ADDR n % 4096 = 0 →
        (isSet s F.RNG_CFG_WB_EN n = true → rd s F.RNG_WB_ADDR n % 8 = 0) → ringLevel s n ≤ ringSize s n →
        Answers (exec (.ringCfgWrite 1 n val) s) fun t =>
          rd t F.RNG_CFG_EN n = 1 ∧ rd t F.RNG_LOST_COUNT n = 0 ∧ rd t F.RNG_DB_ERR_COUNT n = 0
          ∧ rd t F.RNG_BUOY_STAT_ERROR n = 0 ∧ rd t F.RNG_ERR_CODE n = 0)
      ∧ (rd s F.RNG_CFG_EN n = 1 → val.testBit 0 = false → Answers (exec (.ringCfgWrite 1 n val) s) fun t =>
          rd t F.RNG_CFG_EN n = 0))
    ∧ (∀ bytes : List Nat, ringLive s n = true → hostProduced s n = true → isSet s F.HIF_LINK_STATUS_UP = true →
      (ringAt s n).fetched.length < 16 → (ringAt s n).fetched.length < ringLevel s n → bytes.length = entryBytes s n →
      (ringAt s n).stats = [] →
      Answers (exec (.ringEntryFetched n bytes) s) fun t =>
        (ringAt t n).fetched = (ringAt s n).fetched ++ [bytes.map (· % 256)] ∧ Settled { s with rings := t.rings } t)
    ∧ (hostProduced s n = true → (ringAt s n).wb = true → isSet s F.RNG_CFG_EN n = true → isSet s F.RNG_CFG_WB_EN n = true →
      isSet s F.HIF_LINK_STATUS_UP = true → Answers (exec (.ringIndexWb n) s) fun t =>
        (ringAt t n).wb = false
        ∧ t.sent = s.sent ++ [.write (ringOwner s n) (rd s F.RNG_WB_ADDR n) false
            ((toBytes 4 (rd s F.RNG_HEAD_INDEX n)
              ++ toBytes 4 ((if rd s F.RNG_BUOY_LVL_HIGH n ≤ ringLevel s n then 1 else 0)
                + (if ringLevel s n ≤ rd s F.RNG_BUOY_LVL_LOW n then 2 else 0)
                + 4 * rd s F.RNG_BUOY_STAT_ERROR n)).map (BitVec.ofNat 8))])
    ∧ (∀ t0, (ringAt s n).since = some t0 → isSet s F.RNG_IRQ_ENTRY_IRQ_EN n = true → rd s F.RNG_IRQ_COAL_US n ≠ 0 →
      t0 + rd s F.RNG_IRQ_COAL_US n * 1000 ≤ s.ns → Answers (exec (.ringCoalTimeout n) s) fun t =>
        (ringAt t n).count = 0 ∧ (ringAt t n).since = none ∧ ∀ f i, rd t f i = rd s f i)
    ∧ (∀ i ch soft rest, i < 16 → ch < 48 → s.beacons = (ch, 32 + i, soft) :: rest → domUp s 22 = true →
      sget s.bcnBusy false (32 + i) = false → isSet s F.HIF_EVT_ROUTE_EN i = true → rd s F.HIF_EVT_ROUTE_RING i = n →
      ringLive s n = true → ringType s n = rEVT → ringRoom s n = true → Answers (exec (.rngEvtEvent i) s) fun t =>
        rd t F.RNG_TAIL_INDEX n = (rd s F.RNG_TAIL_INDEX n + 1) % 2 ^ 32 ∧ t.beacons = rest
        ∧ rd t F.BCN_FIRES_COUNT ch = min (rd s F.BCN_FIRES_COUNT ch + 1) (2 ^ 32 - 1)
        ∧ sget t.bcnBusy false (32 + i) = true)

/-- O8. With the entry e of code OP and zero spare fields at the head of CMD ring n. NOP answers RESULT OK (a write of
zero to ARG2 of the entry) on the link. REG_WRITE to GLB_SCRATCH on a T ring of the PF stores ARG1 there. REG_READ of
GLB_SCRATCH writes the register's value into the entry. MBX_SEND by the bound sender to an empty mailbox fills it with the
word. BCN_FIRE of an enabled channel that admits the PF sends its event into the matrix. DMA_SUBMIT of a descriptor that
the DMA accepts puts it in flight with the next ID. Each advances HEAD by one, modulo 2^32, and takes the entry from the
fetched ones. -/
def Obligations.CommandRingEntriesActAndAreConsumed : Prop :=
  ∀ (s : State) (n : Nat) (e : List Nat) (r : List (List Nat)), n < 4096 → blockWorks s 18 = true → ringType s n = rCMD →
    ringLive s n = true → (ringAt s n).fetched = e :: r → leField e 1 1 = 0 → leField e 4 4 = 0 → ringOwner s n = 0 →
    (leField e 0 1 = 1 → isSet s F.HIF_LINK_STATUS_UP = true → Answers (exec (.cmdNop n) s) fun t =>
      rd t F.RNG_HEAD_INDEX n = (rd s F.RNG_HEAD_INDEX n + 1) % 2 ^ 32 ∧ (ringAt t n).fetched = r
      ∧ HostMsg.write 0 (entryAddr s n (rd s F.RNG_HEAD_INDEX n) + 0x18) false [0, 0, 0, 0] ∈ t.sent)
    ∧ (leField e 0 1 = 2 → isSet s F.RNG_CFG_ATTR n = false → leField e 8 8 = 0x10 → busReach s 0x10 = true →
      Answers (exec (.cmdRegWrite n) s) fun t =>
        rd t F.RNG_HEAD_INDEX n = (rd s F.RNG_HEAD_INDEX n + 1) % 2 ^ 32 ∧ (ringAt t n).fetched = r
        ∧ rd t F.GLB_SCRATCH_VALUE = leField e 0x10 4 % 2 ^ 32)
    ∧ (leField e 0 1 = 3 → isSet s F.RNG_CFG_ATTR n = false → leField e 8 8 = 0x10 → busReach s 0x10 = true →
      isSet s F.HIF_LINK_STATUS_UP = true → Answers (exec (.cmdRegRead n) s) fun t =>
        rd t F.RNG_HEAD_INDEX n = (rd s F.RNG_HEAD_INDEX n + 1) % 2 ^ 32 ∧ (ringAt t n).fetched = r
        ∧ HostMsg.write 0 (entryAddr s n (rd s F.RNG_HEAD_INDEX n) + 0x10) false
            ((toBytes 8 (rd s F.GLB_SCRATCH_VALUE)).map (BitVec.ofNat 8)) ∈ t.sent)
    ∧ (leField e 0 1 = 4 → leField e 8 8 < 64 → blockReach s 3 = true → isSender s 1 (leField e 8 8) = true →
      isSet s F.MBX_STAT_FULL (leField e 8 8) = false → Answers (exec (.cmdMbxSend n) s) fun t =>
        rd t F.RNG_HEAD_INDEX n = (rd s F.RNG_HEAD_INDEX n + 1) % 2 ^ 32 ∧ (ringAt t n).fetched = r
        ∧ rd t F.MBX_STAT_FULL (leField e 8 8) = 1 ∧ (mbxAt t (leField e 8 8)).word = leField e 0x10 4 % 2 ^ 32)
    ∧ (leField e 0 1 = 5 → leField e 8 8 < 48 → blockReach s 2 = true → isSet s F.BCN_CH_CFG_EN (leField e 8 8) = true →
      isSet s F.BCN_CH_CFG_FIRE_OWNER_ONLY (leField e 8 8) = false → rd s F.BCN_CH_CFG_CONSUMER (leField e 8 8) < 55 →
      Answers (exec (.cmdBcnFire n) s) fun t =>
        rd t F.RNG_HEAD_INDEX n = (rd s F.RNG_HEAD_INDEX n + 1) % 2 ^ 32 ∧ (ringAt t n).fetched = r
        ∧ (leField e 8 8, rd s F.BCN_CH_CFG_CONSUMER (leField e 8 8), true) ∈ t.beacons)
    ∧ (∀ desc : List Nat, leField e 0 1 = 6 → blockReach s 16 = true →
      dmaAnswer s (newDesc 1 ((List.range 64).map fun i => desc.getD i 0 % 256) none none) = none →
      Answers (exec (.cmdDmaSubmit n 0 desc) s) fun t =>
        rd t F.RNG_HEAD_INDEX n = (rd s F.RNG_HEAD_INDEX n + 1) % 2 ^ 32 ∧ (ringAt t n).fetched = r
        ∧ t.dmaNextId = (s.dmaNextId + 1) % 65536
        ∧ t.descs = s.descs ++ [{ newDesc 1 ((List.range 64).map fun i => desc.getD i 0 % 256) none none with
            id := s.dmaNextId }])

/-- O9. For a core that can issue, x the value of ra and y the second operand: a register, imm16 sign-extended for add,
sub and mul and zero-extended for and, or, xor, or imm20 sign-extended with rd as the first source (ACC, add and sub
only). add: rd = x + y; Z zero, N bit 63, C carry out of bit 63, V signed overflow. sub: rd = x - y; C no borrow, V signed
overflow. and, or, xor, mul (low 64 bits): Z and N of the result, C and V kept. A write to v0 is discarded and v0 reads
zero. pc is the next instruction; no other register, no memory and no other state changes. -/
def Obligations.ArithmeticAndLogicWriteResultAndFlags : Prop :=
  ∀ (s : State) (c d a : Nat) (src : Src), Ready s c →
    let x := vreg s c a
    let sy : Word := match src with
      | .reg r => vreg s c r
      | .imm v => (BitVec.ofNat 16 v).signExtend 64
      | .acc v => (BitVec.ofNat 20 v).signExtend 64
    let zy : Word := match src with
      | .reg r => vreg s c r
      | .imm v => (BitVec.ofNat 16 v).setWidth 64
      | .acc v => (BitVec.ofNat 20 v).setWidth 64
    let done := fun (t : State) (r : Word) =>
      vreg t c d = (if d % 16 = 0 then 0 else r) ∧ (flagsOf t c).z = (r == 0) ∧ (flagsOf t c).n = r.msb
      ∧ pcOf t c = pcOf s c + 4
      ∧ Changes [(F.SQ_VREG_VALUE, c * 16 + d % 16), (F.SQ_FLAGS_ZNCV, c), (F.SQ_PC_PC, c)] s t
    let kept := fun (t : State) => (flagsOf t c).c = (flagsOf s c).c ∧ (flagsOf t c).v = (flagsOf s c).v
    ((∀ v, src = .acc v → d = a) →
      (Answers (exec (.add c d a src) s) fun t => done t (x + sy)
        ∧ (flagsOf t c).c = decide (2 ^ 64 ≤ x.toNat + sy.toNat)
        ∧ (flagsOf t c).v = decide (x.toInt + sy.toInt ≠ (x + sy).toInt))
      ∧ (Answers (exec (.sub c d a src) s) fun t => done t (x - sy)
        ∧ (flagsOf t c).c = decide (sy.toNat ≤ x.toNat)
        ∧ (flagsOf t c).v = decide (x.toInt - sy.toInt ≠ (x - sy).toInt)))
    ∧ ((∀ v, src ≠ .acc v) →
      (Answers (exec (.and c d a src) s) fun t => done t (x &&& zy) ∧ kept t)
      ∧ (Answers (exec (.or c d a src) s) fun t => done t (x ||| zy) ∧ kept t)
      ∧ (Answers (exec (.xor c d a src) s) fun t => done t (x ^^^ zy) ∧ kept t)
      ∧ (Answers (exec (.mul c d a src) s) fun t => done t (x * sy) ∧ kept t))

/-- O10. For a core that can issue. shl, shr and sar of ra by n, the low six bits of a register or an imm16 below 64: bit
i of rd is bit i - n of ra (zero below n), bit i + n (zero above), or bit i + n with bit 63 repeated; Z and N of the
result, C the last bit shifted out and kept for n = 0, V kept. mov writes imm20 sign-extended and movk replaces the 16-bit
group sh of rd by imm16; both leave the flags. v0 stays zero. pc is the next instruction; nothing else changes. -/
def Obligations.ShiftsAndConstantsWriteResults : Prop :=
  ∀ (s : State) (c d a : Nat), Ready s c →
    (∀ (src : Src) (n : Nat), (∀ v, src ≠ .acc v) → (∀ v, src = .imm v → v < 64 ∧ n = v) →
      (∀ r, src = .reg r → n = (vreg s c r).toNat % 64) →
      let x := vreg s c a
      let done := fun (t : State) (r : Word) (out : Bool) =>
        vreg t c d = (if d % 16 = 0 then 0 else r) ∧ (flagsOf t c).z = (r == 0) ∧ (flagsOf t c).n = r.msb
        ∧ (flagsOf t c).c = (if n = 0 then (flagsOf s c).c else out) ∧ (flagsOf t c).v = (flagsOf s c).v
        ∧ pcOf t c = pcOf s c + 4
        ∧ Changes [(F.SQ_VREG_VALUE, c * 16 + d % 16), (F.SQ_FLAGS_ZNCV, c), (F.SQ_PC_PC, c)] s t
      (Answers (exec (.shl c d a src) s) fun t => ∃ r : Word,
        (∀ i, i < 64 → r.getLsbD i = (decide (n ≤ i) && x.getLsbD (i - n))) ∧ done t r (x.getLsbD (64 - n)))
      ∧ (Answers (exec (.shr c d a src) s) fun t => ∃ r : Word,
        (∀ i, i < 64 → r.getLsbD i = (decide (i + n < 64) && x.getLsbD (i + n))) ∧ done t r (x.getLsbD (n - 1)))
      ∧ (Answers (exec (.sar c d a src) s) fun t => ∃ r : Word,
        (∀ i, i < 64 → r.getLsbD i = x.getLsbD (min (i + n) 63)) ∧ done t r (x.getLsbD (n - 1))))
    ∧ (∀ imm20, Answers (exec (.mov c d imm20) s) fun t =>
      vreg t c d = (if d % 16 = 0 then 0 else (BitVec.ofNat 20 imm20).signExtend 64) ∧ pcOf t c = pcOf s c + 4
      ∧ Changes [(F.SQ_VREG_VALUE, c * 16 + d % 16), (F.SQ_PC_PC, c)] s t)
    ∧ (∀ imm group, Answers (exec (.movk c d imm group) s) fun t =>
      (∀ i, i < 64 → (vreg t c d).getLsbD i
        = (decide (d % 16 ≠ 0) && if i / 16 = group % 4 then imm.testBit (i % 16) else (vreg s c d).getLsbD i))
      ∧ pcOf t c = pcOf s c + 4 ∧ Changes [(F.SQ_VREG_VALUE, c * 16 + d % 16), (F.SQ_PC_PC, c)] s t)

/-- O11. For a core that can issue. b.cond goes to pc + 4 x off16 (signed) where the condition holds, else to the next
instruction, for each of the 15 conditions over Z, N, C, V. bl writes lk with pc + 4 and goes to the target. jr and ret go
to the address in ra or lk where it is a multiple of 4 up to 0x7FFC. movlk copies lk into rd, setlk copies ra into lk;
both go on to the next instruction. Flags, other registers, memories and all other state stay. -/
def Obligations.BranchesAndJumpsSetThePc : Prop :=
  ∀ (s : State) (c : Nat), Ready s c →
    (∀ (off16 target : Nat), (target : Int) = (pcOf s c : Int) + 4 * toSigned 16 off16 → target ≤ 0x7FFC →
      (let f := flagsOf s c
       ∀ p ∈ [(0, true), (1, f.z), (2, !f.z), (3, f.c), (4, !f.c), (5, f.n), (6, !f.n), (7, f.v), (8, !f.v),
          (9, f.c && !f.z), (10, !f.c || f.z), (11, f.n == f.v), (12, f.n != f.v), (13, !f.z && (f.n == f.v)),
          (14, f.z || (f.n != f.v))],
        Answers (exec (.bCond c p.1 off16) s) fun t =>
          pcOf t c = (if p.2 then target else pcOf s c + 4) ∧ Changes [(F.SQ_PC_PC, c)] s t)
      ∧ (Answers (exec (.bl c off16) s) fun t =>
        pcOf t c = target ∧ (lkReg t c).toNat = pcOf s c + 4 ∧ Changes [(F.SQ_PC_PC, c), (F.SQ_LK_VALUE, c)] s t))
    ∧ (∀ cond off16, cond < 15 → condHolds cond (flagsOf s c) = false → Answers (exec (.bCond c cond off16) s) fun t =>
      pcOf t c = pcOf s c + 4 ∧ Changes [(F.SQ_PC_PC, c)] s t)
    ∧ (∀ a, (vreg s c a).toNat % 4 = 0 → (vreg s c a).toNat ≤ 0x7FFC → Answers (exec (.jr c a) s) fun t =>
      pcOf t c = (vreg s c a).toNat ∧ Changes [(F.SQ_PC_PC, c)] s t)
    ∧ ((lkReg s c).toNat % 4 = 0 → (lkReg s c).toNat ≤ 0x7FFC → Answers (exec (.ret c) s) fun t =>
      pcOf t c = (lkReg s c).toNat ∧ Changes [(F.SQ_PC_PC, c)] s t)
    ∧ (∀ d, Answers (exec (.movlk c d) s) fun t =>
      vreg t c d = (if d % 16 = 0 then 0 else lkReg s c) ∧ pcOf t c = pcOf s c + 4
      ∧ Changes [(F.SQ_VREG_VALUE, c * 16 + d % 16), (F.SQ_PC_PC, c)] s t)
    ∧ (∀ a, Answers (exec (.setlk c a) s) fun t =>
      lkReg t c = vreg s c a ∧ pcOf t c = pcOf s c + 4 ∧ Changes [(F.SQ_LK_VALUE, c), (F.SQ_PC_PC, c)] s t)

/-- O12. For a core that can issue and an address ra + imm16 (sign-extended, over 64 bits) in its program address space,
aligned to the access: ldb, ldh, ldw, ldd write rd with the 1, 2, 4 or 8 bytes there, the lowest address the least
significant, zero-extended; ldsb, ldsh, ldsw sign-extend. A byte reads as the newest buffered store of the open region
where there is one, else as memory. pc is the next instruction; flags, other registers, every memory byte and all other
state stay. -/
def Obligations.LoadsReadLittleEndianBytes : Prop :=
  ∀ (s : State) (c d a imm16 : Nat), Ready s c → place (effAddr s c a imm16) ≠ none →
    let ad := effAddr s c a imm16
    let done := fun (t : State) (v : Word) =>
      vreg t c d = (if d % 16 = 0 then 0 else v) ∧ pcOf t c = pcOf s c + 4
      ∧ Changes [(F.SQ_VREG_VALUE, c * 16 + d % 16), (F.SQ_PC_PC, c)] s t
    ad = (vreg s c a + (BitVec.ofNat 16 imm16).signExtend 64).toNat
    ∧ (Answers (exec (.ldb c d a imm16) s) fun t => done t ((loadByte s c ad).setWidth 64))
    ∧ (Answers (exec (.ldsb c d a imm16) s) fun t => done t ((loadByte s c ad).signExtend 64))
    ∧ (ad % 2 = 0 →
      (Answers (exec (.ldh c d a imm16) s) fun t =>
        done t ((loadByte s c (ad + 1) ++ loadByte s c ad : BitVec 16).setWidth 64))
      ∧ (Answers (exec (.ldsh c d a imm16) s) fun t =>
        done t ((loadByte s c (ad + 1) ++ loadByte s c ad : BitVec 16).signExtend 64)))
    ∧ (ad % 4 = 0 →
      let w : BitVec 32 := (loadByte s c (ad + 3) ++ loadByte s c (ad + 2) : BitVec 16)
        ++ (loadByte s c (ad + 1) ++ loadByte s c ad : BitVec 16)
      (Answers (exec (.ldw c d a imm16) s) fun t => done t (w.setWidth 64))
      ∧ (Answers (exec (.ldsw c d a imm16) s) fun t => done t (w.signExtend 64)))
    ∧ (ad % 8 = 0 → Answers (exec (.ldd c d a imm16) s) fun t => ∃ v : Word,
        (∀ i, i < 64 → v.getLsbD i = (loadByte s c (ad + i / 8)).getLsbD (i % 8)) ∧ done t v)

/-- O13. stb, sth, stw, std of a core that can issue, to an aligned address ad = ra + imm16 of its program address space,
with no region or one whose store buffer has room: each of the 1, 2, 4 or 8 bytes from ad on then reads, for this core, as
the matching byte of the stored register, every other address reads as before, and no other core's own memory changes;
inside a region no memory byte changes at all. pc is the next instruction, no other register changes. aadd and axch
outside a region, on an aligned 64-bit word at ra in shared memory: rd takes the old word, the word becomes old + rb or
rb, every other byte of shared memory and every byte of the other memories is as before, pc is the next instruction and no
other register changes. -/
def Obligations.StoresAndAtomicsChangeOnlyTheirBytes : Prop :=
  ∀ (s : State) (c d a : Nat), Ready s c →
    (∀ imm16, place (effAddr s c a imm16) ≠ none → (∀ r, (coreAt s c).region = some r → r.storeCount < 64) →
      ∀ p ∈ [(1, Instr.stb c d a imm16), (2, Instr.sth c d a imm16), (4, Instr.stw c d a imm16), (8, Instr.std c d a imm16)],
        let ad := effAddr s c a imm16
        ad % p.1 = 0 → Answers (exec p.2 s) fun t =>
          (∀ i, i < p.1 → ∀ b, b < 8 → (loadByte t c (ad + i)).getLsbD b = (vreg s c d).getLsbD (8 * i + b))
          ∧ (∀ x, ¬ (ad ≤ x ∧ x < ad + p.1) → loadByte t c x = loadByte s c x)
          ∧ (∀ c' x, c' < 8 → c' ≠ c → x < 0x2000 → memByte t c' x = memByte s c' x)
          ∧ ((coreAt s c).region ≠ none → t.memories = s.memories)
          ∧ pcOf t c = pcOf s c + 4 ∧ Keeps [(F.SQ_PC_PC, c)] s t
          ∧ Settled { s with regs := t.regs, cores := t.cores, data := t.data, shared := t.shared } t)
    ∧ (∀ b o, NoRegion s c → place (vreg s c a).toNat = some (.shared o) → (vreg s c a).toNat % 8 = 0 →
      ∀ p ∈ [(Instr.aadd c d a b, true), (Instr.axch c d a b, false)], Answers (exec p.1 s) fun t =>
        ∃ old new : Word,
          (∀ i, i < 64 → old.getLsbD i = (sharedByte s (o + i / 8)).getLsbD (i % 8))
          ∧ new = (if p.2 then old + vreg s c b else vreg s c b)
          ∧ vreg t c d = (if d % 16 = 0 then 0 else old)
          ∧ (∀ i, i < 64 → (sharedByte t (o + i / 8)).getLsbD (i % 8) = new.getLsbD i)
          ∧ (∀ x, ¬ (o ≤ x ∧ x < o + 8) → sharedByte t x = sharedByte s x)
          ∧ pcOf t c = pcOf s c + 4
          ∧ Keeps [(F.SQ_VREG_VALUE, c * 16 + d % 16), (F.SQ_PC_PC, c)] s t
          ∧ Settled { s with regs := t.regs, shared := t.shared } t)

/-- O14. For a core that can issue, outside a region. rdev and rdevd at an aligned BAR 0 address hold the core for the
block's answer of 4 or 8 bytes to rd, and change no register. wdev and wdevd at an aligned BAR 0 address, with room among
the 16 entries, post the low 32 or 64 bits of the register at the end of the core's store queue and go on. dsync with an
empty queue goes on; with a queued store it holds the core. tbr writes TB into rd and goes on. -/
def Obligations.DeviceAccessesPostOrWait : Prop :=
  ∀ (s : State) (c d a imm16 : Nat), Ready s c → NoRegion s c →
    (effAddr s c a imm16 < 0x04000000 →
      (∀ p ∈ [(4, Instr.rdev c d a imm16), (8, Instr.rdevd c d a imm16)], effAddr s c a imm16 % p.1 = 0 →
        Answers (exec p.2 s) fun t =>
          (coreAt t c).stall = .answer (.load (effAddr s c a imm16) p.1) d ∧ (coreAt t c).storeQ = (coreAt s c).storeQ
          ∧ (∀ c', c' ≠ c → coreAt t c' = coreAt s c') ∧ Settled { s with cores := t.cores } t)
      ∧ (∀ p ∈ [(4, Instr.wdev c d a imm16), (8, Instr.wdevd c d a imm16)], effAddr s c a imm16 % p.1 = 0 →
        (coreAt s c).storeQ.length < 16 → Answers (exec p.2 s) fun t =>
          coreAt t c = { coreAt s c with
            storeQ := (coreAt s c).storeQ ++ [.store (effAddr s c a imm16) p.1 ((vreg s c d).toNat % 2 ^ (8 * p.1))] }
          ∧ pcOf t c = pcOf s c + 4 ∧ (∀ c', c' ≠ c → coreAt t c' = coreAt s c') ∧ Keeps [(F.SQ_PC_PC, c)] s t
          ∧ Settled { s with regs := t.regs, cores := t.cores } t))
    ∧ ((coreAt s c).storeQ = [] → Answers (exec (.dsync c) s) fun t =>
      pcOf t c = pcOf s c + 4 ∧ Changes [(F.SQ_PC_PC, c)] s t)
    ∧ ((coreAt s c).storeQ ≠ [] → Answers (exec (.dsync c) s) fun t =>
      (coreAt t c).stall = .dsync ∧ sqState t c = sqWAITING ∧ Keeps [(F.SQ_STATUS_STATE, c)] s t)
    ∧ (Answers (exec (.tbr c d) s) fun t =>
      vreg t c d = (if d % 16 = 0 then 0 else BitVec.ofNat 64 s.tb) ∧ pcOf t c = pcOf s c + 4
      ∧ Changes [(F.SQ_VREG_VALUE, c * 16 + d % 16), (F.SQ_PC_PC, c)] s t)

/-- O15. For a core that can issue. wait outside a region: a TB wait whose time is reached, and an EV wait whose pending
bit is set (which it clears), go on with Z = 0; a wait whose condition does not hold goes on with Z = 1 where its deadline
is reached and else holds the core WAITING, changing no other register. halt enters HALTED with SQ_IRQ_STATUS.HALTED and
closes a region that has no tentative action held; outside a region and a recipe it moves pc on and changes no other
register. spec outside a region, with its target in program memory and its deadline after TB, opens a region that holds v1
to v15, lk, flags, guard, deadline (at most 2^30 ns ahead) and target, and goes on. commit with the guard's event there,
the deadline not passed and no tentative action held by a block closes the region, counts it, clears the guard's pending
bit and goes on. squash closes the region, brings v1 to v15, lk and the flags back as saved and continues at the target;
with no tentative action held it is RUNNING and has counted the squash. Outside a region commit and squash only go on. -/
def Obligations.WaitsAndRegionsOpenAndClose : Prop :=
  ∀ (s : State) (c : Nat), Ready s c →
    (NoRegion s c →
      (∀ a, (vreg s c a).toNat ≤ s.tb → Answers (exec (.wait c 0 a 0 0) s) fun t =>
        (flagsOf t c).z = false ∧ (flagsOf t c).n = decide ((vreg s c a).toNat < s.tb) ∧ pcOf t c = pcOf s c + 4
        ∧ Keeps [(F.SQ_PC_PC, c), (F.SQ_FLAGS_ZNCV, c)] s t)
      ∧ (∀ k, k < 4 → hasBit s F.SQ_STATUS_EV_PENDING c k = true → Answers (exec (.wait c 1 0 0 k) s) fun t =>
        (flagsOf t c).z = false ∧ hasBit t F.SQ_STATUS_EV_PENDING c k = false ∧ pcOf t c = pcOf s c + 4
        ∧ Keeps [(F.SQ_PC_PC, c), (F.SQ_FLAGS_ZNCV, c), (F.SQ_STATUS_EV_PENDING, c)] s t)
      ∧ (∀ kind a rdl idx, (kind = 0 ∧ idx = 0 ∨ kind = 1 ∧ a = 0 ∧ idx < 4 ∨ kind = 2 ∧ a = 0 ∧ idx < 64 ∨ kind = 3 ∧ idx = 0) →
        waitHolds s c kind idx (vreg s c a).toNat = false →
        (rdl % 16 ≠ 0 → (vreg s c rdl).toNat ≤ s.tb → Answers (exec (.wait c kind a rdl idx) s) fun t =>
          (flagsOf t c).z = true ∧ pcOf t c = pcOf s c + 4 ∧ Keeps [(F.SQ_PC_PC, c), (F.SQ_FLAGS_ZNCV, c)] s t)
        ∧ (rdl % 16 = 0 ∨ s.tb < (vreg s c rdl).toNat → Answers (exec (.wait c kind a rdl idx) s) fun t =>
          sqState t c = sqWAITING ∧ (coreAt t c).stall ≠ .none ∧ Keeps [(F.SQ_STATUS_STATE, c)] s t)))
    ∧ (Answers (exec (.halt c) s) fun t =>
      sqState t c = sqHALTED ∧ hasBit t F.SQ_IRQ_STATUS_EVT c 0 = true ∧ (NoTentative s c → (coreAt s c).recipe = none → (coreAt t c).region = none)
      ∧ (NoRegion s c → (coreAt s c).recipe = none → pcOf t c = pcOf s c + 4
        ∧ Keeps [(F.SQ_STATUS_STATE, c), (F.SQ_PC_PC, c), (F.SQ_IRQ_STATUS_EVT, c)] s t))
    ∧ (∀ k rdl off16 target, NoRegion s c → (target : Int) = (pcOf s c : Int) + 4 * toSigned 16 off16 → target ≤ 0x7FFC →
      (rdl % 16 ≠ 0 → s.tb < (vreg s c rdl).toNat) → Answers (exec (.spec c k rdl off16) s) fun t =>
        ∃ r, (coreAt t c).region = some r ∧ r.guardEv = k % 4 ∧ r.target = target
          ∧ r.deadline = (if rdl % 16 = 0 then s.tb + 2 ^ 30 else min (vreg s c rdl).toNat (s.tb + 2 ^ 30))
          ∧ (∀ i, i < 15 → r.savedV[i]? = some (rd s F.SQ_VREG_VALUE (c * 16 + i + 1)))
          ∧ r.savedLk = rd s F.SQ_LK_VALUE c ∧ r.savedFlags = rd s F.SQ_FLAGS_ZNCV c ∧ r.stores = []
          ∧ pcOf t c = pcOf s c + 4 ∧ Keeps [(F.SQ_PC_PC, c)] s t)
    ∧ (∀ r, (coreAt s c).region = some r → hasBit s F.SQ_STATUS_EV_PENDING c r.guardEv = true → s.tb ≤ r.deadline →
      r.guardEv < 4 → NoTentative s c → Answers (exec (.commit c) s) fun t =>
        (coreAt t c).region = none ∧ hasBit t F.SQ_STATUS_EV_PENDING c r.guardEv = false
        ∧ rd t F.SQ_SPEC_COMMITTED_COUNT c = min (rd s F.SQ_SPEC_COMMITTED_COUNT c + 1) (2 ^ 32 - 1)
        ∧ pcOf t c = pcOf s c + 4)
    ∧ (∀ r, (coreAt s c).region = some r → r.savedV.length = 15 → r.target % 4 = 0 → r.target ≤ 0x7FFC →
      Answers (exec (.squash c) s) fun t =>
        (coreAt t c).region = none ∧ pcOf t c = r.target
        ∧ (∀ i, i < 15 → vreg t c (i + 1) = BitVec.ofNat 64 (r.savedV.getD i 0))
        ∧ rd t F.SQ_LK_VALUE c = r.savedLk % 2 ^ 64 ∧ rd t F.SQ_FLAGS_ZNCV c = r.savedFlags % 16
        ∧ (NoTentative s c → sqState t c = sqRUNNING
          ∧ rd t F.SQ_SPEC_SQUASHED_COUNT c = min (rd s F.SQ_SPEC_SQUASHED_COUNT c + 1) (2 ^ 32 - 1)))
    ∧ (NoRegion s c → ∀ i ∈ [Instr.commit c, Instr.squash c], Answers (exec i s) fun t =>
        pcOf t c = pcOf s c + 4 ∧ Changes [(F.SQ_PC_PC, c)] s t)

/-- O16. For a core that can issue outside a region. pulse, pair, trigpkt, fire (channel ra + imm6), mbxsend without SYNC
and framearm, with rd = v0 and room in the store queue, append exactly the request that their operands spell to the queue
and go on. With another rd these, and with any rd mbxsend with SYNC, mbxrcv, mbxwdr, podrun and dmaq (the 64 bytes at an
8-byte aligned ra as they stand), hold the core for the answer to that request. Nothing else changes. -/
def Obligations.ActionsSpellTheirRequests : Prop :=
  ∀ (s : State) (c d a b e : Nat), Ready s c → NoRegion s c →
    let posted : List (Instr × Req) :=
      [(.pulse c d a b e, .pulse (vreg s c a).toNat (vreg s c b).toNat (vreg s c e).toNat),
       (.pair c d a b e, .pair (vreg s c a).toNat (vreg s c b).toNat (vreg s c e).toNat),
       (.trigpkt c d a b e, .trigpkt (vreg s c a).toNat (vreg s c b).toNat (vreg s c e).toNat),
       (.mbxsend c d a b false, .mbxsend (vreg s c a).toNat (vreg s c b).toNat false),
       (.framearm c d a b, .framearm (vreg s c a).toNat (vreg s c b).toNat false)]
      ++ (List.range 64).map fun imm6 => (.fire c d a imm6, .fire (((vreg s c a).toNat + imm6) % 2 ^ 64))
    let awaited : List (Instr × Req) :=
      [(.mbxsend c d a b true, .mbxsend (vreg s c a).toNat (vreg s c b).toNat true),
       (.mbxrcv c d a, .mbxrcv (vreg s c a).toNat), (.mbxwdr c d a, .mbxwdr (vreg s c a).toNat),
       (.podrun c d a b e, .podrun (vreg s c a).toNat (vreg s c b).toNat (vreg s c e).toNat)]
    let holds := fun (t : State) (q : Req) =>
      coreAt t c = { coreAt s c with stall := .answer q d } ∧ (∀ c', c' ≠ c → coreAt t c' = coreAt s c')
      ∧ Settled { s with cores := t.cores } t
    (∀ p ∈ posted,
      (d % 16 = 0 → (coreAt s c).storeQ.length < 16 → Answers (exec p.1 s) fun t =>
        coreAt t c = { coreAt s c with storeQ := (coreAt s c).storeQ ++ [p.2] } ∧ pcOf t c = pcOf s c + 4
        ∧ (∀ c', c' ≠ c → coreAt t c' = coreAt s c') ∧ Keeps [(F.SQ_PC_PC, c)] s t
        ∧ Settled { s with regs := t.regs, cores := t.cores } t)
      ∧ (d % 16 ≠ 0 → Answers (exec p.1 s) fun t => holds t p.2))
    ∧ (∀ p ∈ awaited, Answers (exec p.1 s) fun t => holds t p.2)
    ∧ (∀ early, (vreg s c a).toNat % 8 = 0 → place (vreg s c a).toNat ≠ none → place ((vreg s c a).toNat + 63) ≠ none →
      Answers (exec (.dmaq c d a early) s) fun t => holds t (.dmaq (loadBytes s c (vreg s c a).toNat 64) early))

/-- O17. For a core of a working SEQ. WAIT_END whose condition holds, outside a region, lets the core issue again with Z =
0 (a TB wait without a deadline, or an EV wait, which clears its pending bit). WAIT_DEADLINE with TB at the deadline and
the condition not met lets it issue with Z = 1. REGION_COMMIT of a waiting commit with the guard's event there, the
deadline not passed and no tentative action held by a block closes the region and lets the core issue. SPEC_DEADLINE with
TB at the deadline squashes the region and continues at its target, with lk and the flags as saved. STORE_QUEUE_ROOM with
room lets the stalled store enter last. DSYNC_DONE with an empty queue ends dsync. DMAQ_SLOT_FREE with a place free
submits the stalled descriptor and answers the core. SYNC_SEND_END with the mailbox empty answers OK (0) and Z = 1.
SQ_EV_EVENT for an event on its way to an idle input of a powered SEQ delivers it and sets the pending bit. -/
def Obligations.StallsEndAtTheirEvents : Prop :=
  ∀ (s : State) (c : Nat), c < 8 → blockWorks s 15 = true → pcOf s c < 0x7FFC → (coreAt s c).stepping = false →
    (NoRegion s c → ∀ value past,
      ((coreAt s c).stall = .wait 0 0 value none past → value ≤ s.tb → Answers (exec (.waitEnd c) s) fun t =>
        sqState t c = sqRUNNING ∧ (coreAt t c).stall = .none ∧ (flagsOf t c).z = false ∧ (flagsOf t c).n = past
        ∧ pcOf t c = pcOf s c + 4 ∧ Keeps [(F.SQ_STATUS_STATE, c), (F.SQ_PC_PC, c), (F.SQ_FLAGS_ZNCV, c)] s t)
      ∧ (∀ k, k < 4 → (coreAt s c).stall = .wait 1 k value none past → hasBit s F.SQ_STATUS_EV_PENDING c k = true →
        Answers (exec (.waitEnd c) s) fun t =>
          sqState t c = sqRUNNING ∧ (coreAt t c).stall = .none ∧ (flagsOf t c).z = false
          ∧ hasBit t F.SQ_STATUS_EV_PENDING c k = false ∧ pcOf t c = pcOf s c + 4)
      ∧ (∀ kind idx, (coreAt s c).stall = .wait kind idx value (some s.tb) past → waitHolds s c kind idx value = false →
        Answers (exec (.waitDeadline c) s) fun t =>
          sqState t c = sqRUNNING ∧ (coreAt t c).stall = .none ∧ (flagsOf t c).z = true ∧ pcOf t c = pcOf s c + 4
          ∧ Keeps [(F.SQ_STATUS_STATE, c), (F.SQ_PC_PC, c), (F.SQ_FLAGS_ZNCV, c)] s t))
    ∧ (∀ r whole, (coreAt s c).region = some r → (coreAt s c).stall = .commit whole → s.tb ≤ r.deadline → r.guardEv < 4 → NoTentative s c →
      hasBit s F.SQ_STATUS_EV_PENDING c r.guardEv = true → Answers (exec (.regionCommit c) s) fun t =>
        (coreAt t c).region = none ∧ hasBit t F.SQ_STATUS_EV_PENDING c r.guardEv = false
        ∧ (coreAt t c).stall = .none ∧ sqState t c = sqRUNNING
        ∧ pcOf t c = (if whole then pcOf s c + 4 else pcOf s c))
    ∧ (∀ r, (coreAt s c).region = some r → r.deadline ≤ s.tb → r.target % 4 = 0 → r.target ≤ 0x7FFC →
      Answers (exec (.specDeadline c) s) fun t =>
        (coreAt t c).region = none ∧ (coreAt t c).stall = .none ∧ pcOf t c = r.target
        ∧ rd t F.SQ_LK_VALUE c = r.savedLk % 2 ^ 64 ∧ rd t F.SQ_FLAGS_ZNCV c = r.savedFlags % 16
        ∧ (NoTentative s c → sqState t c = sqRUNNING
          ∧ rd t F.SQ_SPEC_SQUASHED_COUNT c = min (rd s F.SQ_SPEC_SQUASHED_COUNT c + 1) (2 ^ 32 - 1)))
    ∧ (∀ q, (coreAt s c).stall = .storeFull q → (coreAt s c).storeQ.length < 16 →
      Answers (exec (.storeQueueRoom c) s) fun t =>
        (coreAt t c).storeQ = (coreAt s c).storeQ ++ [q] ∧ (coreAt t c).stall = .none ∧ sqState t c = sqRUNNING
        ∧ pcOf t c = pcOf s c + 4 ∧ Keeps [(F.SQ_STATUS_STATE, c), (F.SQ_PC_PC, c)] s t)
    ∧ ((coreAt s c).stall = .dsync → (coreAt s c).storeQ = [] → Answers (exec (.dsyncDone c) s) fun t =>
      (coreAt t c).stall = .none ∧ sqState t c = sqRUNNING ∧ pcOf t c = pcOf s c + 4
      ∧ Keeps [(F.SQ_STATUS_STATE, c), (F.SQ_PC_PC, c)] s t)
    ∧ (∀ bs e d, (coreAt s c).stall = .answer (.dmaq bs e) d → sqState s c = sqWAITING → inFlight s < 256 → NoRegion s c →
      blockReach s 16 = true → dmaAnswer s (newDesc (0x10 + c) (if e then earlyBytes bs else bs) none none) = none →
      Answers (exec (.dmaqSlotFree c) s) fun t =>
        t.descs = s.descs ++ [{ newDesc (0x10 + c) (if e then earlyBytes bs else bs) none none with id := s.dmaNextId }]
        ∧ sqState t c = sqRUNNING
        ∧ vreg t c d = (if d % 16 = 0 then 0 else BitVec.ofNat 64 (s.dmaNextId % 65536 * 65536))
        ∧ (flagsOf t c).z = true ∧ pcOf t c = pcOf s c + 4)
    ∧ (∀ m d, (coreAt s c).stall = .syncSend m d → blockWorks s 3 = true → isSet s F.MBX_STAT_FULL m = false →
      Answers (exec (.syncSendEnd c) s) fun t =>
        (coreAt t c).stall = .none ∧ sqState t c = sqRUNNING ∧ vreg t c d = 0 ∧ (flagsOf t c).z = true
        ∧ pcOf t c = pcOf s c + 4)
    ∧ (∀ k ch soft rest, k < 4 → ch < 48 → s.beacons = (ch, 4 * c + k, soft) :: rest → domUp s 21 = true →
      hasBit s F.SQ_STATUS_EV_PENDING c k = false → Answers (exec (.sqEvEvent c k) s) fun t =>
        hasBit t F.SQ_STATUS_EV_PENDING c k = true ∧ t.beacons = rest
        ∧ rd t F.BCN_FIRES_COUNT ch = min (rd s F.BCN_FIRES_COUNT ch + 1) (2 ^ 32 - 1))

/-- O18. DEVICE_ANSWER of a core of a working SEQ whose store queue is empty. A device load returns the value that a bus
access under the core's MID reads, in rd. mbxrcv of a full mailbox bound to the core returns the word with C = 1 and
empties the mailbox. fire of an enabled channel that admits the core sends its event into the matrix and answers OK. pulse
on an output in a drive mode, not dark, not paired, with SRC = SQ, whose request is neither late, short, overlapping nor
beyond eight held pulses, holds the pulse from its start for its width and answers OK. mbxwdr of an unread word of the
core empties the mailbox and answers OK. Each answer is the result word in rd with Z = 1 for OK; the core goes on RUNNING.
-/
def Obligations.AnswersReachTheWaitingCore : Prop :=
  ∀ (s : State) (c d : Nat), c < 8 → blockWorks s 15 = true → (coreAt s c).storeQ = [] → (coreAt s c).stepping = false →
    let goesOn := fun (t : State) => (coreAt t c).stall = .none ∧ sqState t c = sqRUNNING
    let okWord := fun (t : State) => vreg t c d = 0 ∧ (flagsOf t c).z = true
    (∀ a n, (coreAt s c).stall = .answer (.load a n) d → pcOf (busRead s (0x10 + c) a n).2 c < 0x7FFC →
      (coreAt (busRead s (0x10 + c) a n).2 c).stepping = false →
      Answers (exec (.deviceAnswer c none) s) fun t =>
        goesOn t ∧ vreg t c d = (if d % 16 = 0 then 0 else BitVec.ofNat 64 (busRead s (0x10 + c) a n).1))
    ∧ (∀ m, pcOf s c < 0x7FFC → (coreAt s c).stall = .answer (.mbxrcv m) d → m < 64 → blockReach s 3 = true →
      isReceiver s (0x10 + c) m = true → isSet s F.MBX_STAT_FULL m = true →
      Answers (exec (.deviceAnswer c none) s) fun t =>
        goesOn t ∧ vreg t c d = (if d % 16 = 0 then 0 else BitVec.ofNat 64 (mbxAt s m).word) ∧ (flagsOf t c).c = true
        ∧ rd t F.MBX_STAT_FULL m = 0)
    ∧ (∀ ch, pcOf s c < 0x7FFC → (coreAt s c).stall = .answer (.fire ch) d → ch < 48 → blockReach s 2 = true →
      isSet s F.BCN_CH_CFG_EN ch = true → isSet s F.BCN_CH_CFG_FIRE_OWNER_ONLY ch = false →
      rd s F.BCN_CH_CFG_CONSUMER ch < 55 → Answers (exec (.deviceAnswer c none) s) fun t =>
        goesOn t ∧ okWord t ∧ (ch, rd s F.BCN_CH_CFG_CONSUMER ch, true) ∈ t.beacons)
    ∧ (∀ n start w, pcOf s c < 0x7FFC → (coreAt s c).stall = .answer (.pulse n start w) d → n < 16 → w < 2 ^ 32 →
      blockReach s 8 = true → trgDark s n = false → paired s n = false → rd s F.TRG_CFG_SRC n = 1 →
      rd s F.TRG_CFG_MODE n ≠ 0 → effMin s n ≤ w → s.tb ≤ start → (trgAt s n).held.length < 8 →
      (∀ p ∈ (trgAt s n).cur.toList ++ (trgAt s n).held, p.stop ≤ start) → isSet s F.TRG_CFG_TWIN n = false →
      Answers (exec (.deviceAnswer c none) s) fun t =>
        goesOn t ∧ okWord t ∧ (trgAt t n).held = (trgAt s n).held ++ [⟨start, start + w, none⟩])
    ∧ (∀ m, pcOf s c < 0x7FFC → (coreAt s c).stall = .answer (.mbxwdr m) d → m < 64 → blockReach s 3 = true →
      isSender s (0x10 + c) m = true → isSet s F.MBX_STAT_FULL m = true →
      Answers (exec (.deviceAnswer c none) s) fun t => goesOn t ∧ okWord t ∧ rd t F.MBX_STAT_FULL m = 0)

/-- O19. With SEQ reached. RUN of a HALTED core makes it RUNNING where it stands. HALT of a RUNNING or WAITING core
outside a region and a recipe makes it HALTED with SQ_IRQ_STATUS.HALTED and its pc unmoved; out of a SYNC send rd takes
TIMEOUT and pc the next instruction, and the word stays in its mailbox. STEP of a HALTED core has the effect of the one
instruction whose word stands at its pc; after a mov it is HALTED again. A core reset outside a region and a recipe
returns the core's registers to zero, HALTED at pc 0, clears SQ_HASH_CTL.VALID, keeps the device store queue and the
memories, and changes no other core. CORE_WAKE_START of a woken core starts it at SQ_WAKE_PC with v1 to v15, lk and the
flags zero and SQ_IRQ_STATUS.WAKE. HASH_START sets BUSY and clears VALID; HASH_DONE after its 32,768 cycles with no write
in between writes the CRC-64 over the 256 KiB of program memory, sets VALID and clears BUSY. -/
def Obligations.CoreControlsAndHashEngineAct : Prop :=
  ∀ s : State, blockReach s 15 = true →
    (∀ c, c < 8 →
      (sqState s c = sqHALTED → (coreAt s c).past = false → Answers (exec (.sqRun c) s) fun t =>
        sqState t c = sqRUNNING ∧ Changes [(F.SQ_STATUS_STATE, c)] s t)
      ∧ ((sqState s c = sqRUNNING ∨ sqState s c = sqWAITING) → NoRegion s c → (coreAt s c).recipe = none →
        ((∀ m d, (coreAt s c).stall ≠ .syncSend m d) → Answers (exec (.sqHalt c) s) fun t =>
          sqState t c = sqHALTED ∧ hasBit t F.SQ_IRQ_STATUS_EVT c 0 = true ∧ (coreAt t c).stall = .none
          ∧ Keeps [(F.SQ_STATUS_STATE, c), (F.SQ_IRQ_STATUS_EVT, c)] s t
          ∧ Settled { s with regs := t.regs, cores := t.cores } t)
        ∧ (∀ m d, (coreAt s c).stall = .syncSend m d → pcOf s c < 0x7FFC → Answers (exec (.sqHalt c) s) fun t =>
          sqState t c = sqHALTED ∧ hasBit t F.SQ_IRQ_STATUS_EVT c 0 = true ∧ (coreAt t c).stall = .none
          ∧ vreg t c d = (if d % 16 = 0 then 0 else 9) ∧ (flagsOf t c).z = false ∧ pcOf t c = pcOf s c + 4
          ∧ Keeps [(F.SQ_STATUS_STATE, c), (F.SQ_IRQ_STATUS_EVT, c), (F.SQ_VREG_VALUE, c * 16 + d % 16),
              (F.SQ_FLAGS_ZNCV, c), (F.SQ_PC_PC, c)] s t
          ∧ Settled { s with regs := t.regs, cores := t.cores } t))
      ∧ (sqState s c = sqHALTED → (coreAt s c).past = false → (coreAt s c).stall = .none → blockWorks s 15 = true →
        (∀ i, tsxDecode c (fetchWord s c) = some i → Answers (exec (.sqStep c) s) fun t =>
          Settled (stepEnd (tsxEffect i
            (setSqState (setCore s c { coreAt s c with stepping := true }) c sqRUNNING)) c) t)
        ∧ (∀ d imm20, tsxDecode c (fetchWord s c) = some (.mov c d imm20) → pcOf s c < 0x7FFC →
          Answers (exec (.sqStep c) s) fun t =>
            sqState t c = sqHALTED ∧ (coreAt t c).stepping = false ∧ pcOf t c = pcOf s c + 4
            ∧ vreg t c d = (if d % 16 = 0 then 0 else sext 20 imm20)
            ∧ Keeps [(F.SQ_STATUS_STATE, c), (F.SQ_PC_PC, c), (F.SQ_VREG_VALUE, c * 16 + d % 16)] s t))
      ∧ (NoRegion s c → (coreAt s c).recipe = none → Answers (exec (.sqCoreReset c) s) fun t =>
        sqState t c = sqHALTED ∧ pcOf t c = 0 ∧ (∀ k, vreg t c k = 0) ∧ lkReg t c = 0 ∧ rd t F.SQ_FLAGS_ZNCV c = 0
        ∧ rd t F.SQ_STATUS_EV_PENDING c = 0 ∧ rd t F.SQ_STATUS_FAULT c = 0 ∧ rd t F.SQ_HASH_CTL_VALID = 0
        ∧ coreAt t c = { SqCore.init with storeQ := (coreAt s c).storeQ, rom := (coreAt s c).rom }
        ∧ (∀ c', c' ≠ c → coreAt t c' = coreAt s c')
        ∧ Keeps ((coreFields ++ [F.SQ_CTL_WAKE_EN, F.SQ_WAKE_PC_PC]).map (fun f => (f, c))
            ++ (List.range 16).map (fun k => (F.SQ_VREG_VALUE, c * 16 + k)) ++ [(F.SQ_HASH_CTL_VALID, 0)]) s t
        ∧ Settled { s with regs := t.regs, cores := t.cores } t)
      ∧ (blockWorks s 15 = true → (coreAt s c).wakeAsked = true → isSet s F.SQ_CTL_WAKE_EN c = true →
        sqState s c = sqHALTED → Answers (exec (.coreWakeStart c) s) fun t =>
          sqState t c = sqRUNNING ∧ pcOf t c = 4 * rd s F.SQ_WAKE_PC_PC c ∧ (∀ k, vreg t c k = 0) ∧ lkReg t c = 0
          ∧ rd t F.SQ_FLAGS_ZNCV c = 0 ∧ hasBit t F.SQ_IRQ_STATUS_EVT c 4 = true ∧ (coreAt t c).wakeAsked = false))
    ∧ (s.hashDue = none → Answers (exec .hashStart s) fun t =>
      rd t F.SQ_HASH_CTL_BUSY = 1 ∧ rd t F.SQ_HASH_CTL_VALID = 0
      ∧ Keeps [(F.SQ_HASH_CTL_BUSY, 0), (F.SQ_HASH_CTL_VALID, 0)] s t
      ∧ Settled { s with regs := t.regs, hashDue := some (s.ns + 40960), hashDirty := false } t)
    ∧ (∀ due, s.hashDue = some due → due ≤ s.ns → s.hashDirty = false → s.twn.helloWait = false → blockWorks s 15 = true →
      Answers (exec .hashDone s) fun t =>
        rd t F.SQ_HASH_CTL_BUSY = 0 ∧ rd t F.SQ_HASH_CTL_VALID = 1
        ∧ rd t F.SQ_PROG_HASH_HASH = crc64 ((List.range 262144).map (progByte s))
        ∧ Keeps [(F.SQ_HASH_CTL_BUSY, 0), (F.SQ_HASH_CTL_VALID, 0), (F.SQ_PROG_HASH_HASH, 0)] s t
        ∧ Settled { s with regs := t.regs, hashDue := none } t)

/-- O20. For a core that can issue, outside a region and a recipe. Each of these faults: an ACC form of and, or, xor, mul,
or of add and sub with rd not ra, a shift count of 64 or more as imm16, condition 15 (ILLEGAL_OP, 1); a load whose address
lies outside the program address space, jr above 0x7FFC, rdev at 0x0400_0000 or above, a branch out of program memory
(BAD_ADDR, 2); a misaligned load, store or atomic inside the address space, jr to an address that is no multiple of 4
(MISALIGNED, 3). The core is then FAULTED, FAULT holds the cause, SQ_FAULT_PC the address of the instruction,
SQ_IRQ_STATUS.FAULT is set; the posted device stores stay queued, and no other register and no memory changes. spec inside
a region is SPEC_NEST (4); with no tentative action held by a block the region is squashed first, which counts, and v1 to
v15, lk and the flags return to their values at spec. -/
def Obligations.CoreFaultsRecordCauseAndPc : Prop :=
  ∀ (s : State) (c d a : Nat), Ready s c → (coreAt s c).recipe = none →
    (NoRegion s c →
      let faults := fun (i : Instr) (cause : Nat) => Answers (exec i s) fun t =>
        sqState t c = sqFAULTED ∧ rd t F.SQ_STATUS_FAULT c = cause ∧ rd t F.SQ_FAULT_PC_PC c = pcOf s c
        ∧ hasBit t F.SQ_IRQ_STATUS_EVT c 1 = true ∧ (coreAt t c).storeQ = (coreAt s c).storeQ
        ∧ Keeps [(F.SQ_STATUS_STATE, c), (F.SQ_STATUS_FAULT, c), (F.SQ_FAULT_PC_PC, c), (F.SQ_IRQ_STATUS_EVT, c)] s t
        ∧ Settled { s with regs := t.regs, cores := t.cores } t
      (∀ v, ∀ i ∈ [Instr.and c d a (.acc v), .or c d a (.acc v), .xor c d a (.acc v), .mul c d a (.acc v)], faults i 1)
      ∧ (∀ v, d ≠ a → faults (.add c d a (.acc v)) 1 ∧ faults (.sub c d a (.acc v)) 1)
      ∧ (∀ v, 64 ≤ v → ∀ i ∈ [Instr.shl c d a (.imm v), .shr c d a (.imm v), .sar c d a (.imm v)], faults i 1)
      ∧ (∀ off16, faults (.bCond c 15 off16) 1)
      ∧ (∀ imm16,
        let ad := effAddr s c a imm16
        (place ad = none → ∀ i ∈ [Instr.ldb c d a imm16, .ldh c d a imm16, .ldw c d a imm16, .ldd c d a imm16,
          .ldsb c d a imm16, .ldsh c d a imm16, .ldsw c d a imm16, .stb c d a imm16, .sth c d a imm16, .stw c d a imm16,
          .std c d a imm16], faults i 2)
        ∧ (0x04000000 ≤ ad → faults (.rdev c d a imm16) 2 ∧ faults (.wdevd c d a imm16) 2)
        ∧ (ad < 0x04000000 → (ad % 4 ≠ 0 → faults (.rdev c d a imm16) 3 ∧ faults (.wdev c d a imm16) 3)
          ∧ (ad % 8 ≠ 0 → faults (.rdevd c d a imm16) 3 ∧ faults (.wdevd c d a imm16) 3))
        ∧ (place ad ≠ none →
          ∀ p ∈ [(2, Instr.ldh c d a imm16), (4, Instr.ldw c d a imm16), (8, Instr.ldd c d a imm16), (2, Instr.ldsh c d a imm16),
            (4, Instr.ldsw c d a imm16), (2, Instr.sth c d a imm16), (4, Instr.stw c d a imm16), (8, Instr.std c d a imm16)],
            ad % p.1 ≠ 0 → faults p.2 3))
      ∧ ((vreg s c a).toNat % 4 ≠ 0 → faults (.jr c a) 3)
      ∧ ((vreg s c a).toNat % 4 = 0 → 0x7FFC < (vreg s c a).toNat → faults (.jr c a) 2)
      ∧ (∀ b o, place (vreg s c a).toNat = some (.shared o) → (vreg s c a).toNat % 8 ≠ 0 →
        faults (.aadd c d a b) 3 ∧ faults (.axch c d a b) 3)
      ∧ (∀ b, (vreg s c a).toNat < 0x10000 → faults (.aadd c d a b) 2)
      ∧ (∀ off16, (pcOf s c : Int) + 4 * toSigned 16 off16 < 0 → faults (.bl c off16) 2 ∧ faults (.bCond c 0 off16) 2))
    ∧ (∀ r k rdl off16, (coreAt s c).region = some r → r.savedV.length = 15 → Answers (exec (.spec c k rdl off16) s) fun t =>
      sqState t c = sqFAULTED ∧ rd t F.SQ_STATUS_FAULT c = 4 ∧ rd t F.SQ_FAULT_PC_PC c = pcOf s c
      ∧ hasBit t F.SQ_IRQ_STATUS_EVT c 1 = true
      ∧ (NoTentative s c → (coreAt t c).region = none
        ∧ rd t F.SQ_SPEC_SQUASHED_COUNT c = min (rd s F.SQ_SPEC_SQUASHED_COUNT c + 1) (2 ^ 32 - 1)
        ∧ (∀ j, j < 15 → (vreg t c (j + 1)).toNat = r.savedV.getD j 0 % 2 ^ 64)
        ∧ rd t F.SQ_LK_VALUE c = r.savedLk % 2 ^ 64 ∧ rd t F.SQ_FLAGS_ZNCV c = r.savedFlags % 16))

/-- O21. For core c of a reached SEQ. RECIPE_START with an ID of 1 to 6 on a HALTED core sets LOADING, RECIPE_STATE
LOADING, RECIPE_RUNNING = ID, error code and offset 0, clears the hash VALID, puts the recipe ROM code into the program
memory of this core alone, and falls due 4,096 cycles (5,120 ns) later; on a core that is not HALTED it only sets the code
BUSY and the field RECIPE_ID. RECIPE_BEGIN when due: a card with a wrong CRC ends in RECIPE_STATE ERROR, code 1, offset 0,
the core HALTED, SQ_IRQ_STATUS.RECIPE_ERR set; a card that passes every check (with SEQ working) leaves the core RUNNING
at pc 0 with RECIPE_STATE RUNNING. RECIPE_STOP of a RUNNING recipe sets STOPPING and records TB. RECIPE_STOPPED of a
STOPPING recipe whose frames are all complete sets STOPPED, HALTED and the event bit, and releases the claims.
RECIPE_FCG_START with the compare unit armed on another encoder than the claimed one ends the recipe in ERROR; armed on
the claimed one and with the FCG free to start, the wait is over. -/
def Obligations.RecipesStartStopAndEnd : Prop :=
  ∀ (s : State) (c : Nat), c < 8 →
    (blockReach s 15 = true → ∀ id, 1 ≤ id → id ≤ 6 →
      (sqState s c = sqHALTED → Answers (exec (.recipeStart c id) s) fun t =>
        sqState t c = sqLOADING ∧ recipeState t c = rsLOADING ∧ rd t F.SQ_STATUS_RECIPE_RUNNING c = id
        ∧ rd t F.SQ_CTL_RECIPE_ID c = id ∧ rd t F.SQ_RECIPE_ERR_CODE c = 0 ∧ rd t F.SQ_RECIPE_ERR_OFFSET c = 0
        ∧ rd t F.SQ_HASH_CTL_VALID = 0 ∧ (coreAt t c).loadDue = some (s.ns + 5120)
        ∧ (∀ a, a < 0x8000 → progByte t (c * 0x8000 + a) = Config.romByte id a % 256)
        ∧ (∀ c' a, c' < 8 → c' ≠ c → a < 0x8000 → progByte t (c' * 0x8000 + a) = progByte s (c' * 0x8000 + a))
        ∧ Keeps [(F.SQ_STATUS_STATE, c), (F.SQ_STATUS_RECIPE_STATE, c), (F.SQ_STATUS_RECIPE_RUNNING, c),
            (F.SQ_CTL_RECIPE_ID, c), (F.SQ_RECIPE_ERR_CODE, c), (F.SQ_RECIPE_ERR_OFFSET, c), (F.SQ_HASH_CTL_VALID, 0)] s t
        ∧ Settled { s with regs := t.regs, cores := t.cores, prog := t.prog, hashDirty := t.hashDirty } t)
      ∧ (sqState s c ≠ sqHALTED → Answers (exec (.recipeStart c id) s) fun t =>
        rd t F.SQ_RECIPE_ERR_CODE c = 7 ∧ Changes [(F.SQ_RECIPE_ERR_CODE, c), (F.SQ_CTL_RECIPE_ID, c)] s t))
    ∧ (blockWorks s 15 = true → ∀ due r, (coreAt s c).loadDue = some due → due ≤ s.ns → (coreAt s c).recipe = some r →
      (({ r with card := cardBytes s c } : Recipe).crcGood = false → Answers (exec (.recipeBegin c) s) fun t =>
        sqState t c = sqHALTED ∧ recipeState t c = rsERROR ∧ rd t F.SQ_RECIPE_ERR_CODE c = 1
        ∧ rd t F.SQ_RECIPE_ERR_OFFSET c = 0 ∧ hasBit t F.SQ_IRQ_STATUS_EVT c 3 = true ∧ (coreAt t c).recipe = none
        ∧ Keeps [(F.SQ_STATUS_STATE, c), (F.SQ_STATUS_RECIPE_STATE, c), (F.SQ_RECIPE_ERR_CODE, c),
            (F.SQ_RECIPE_ERR_OFFSET, c), (F.SQ_IRQ_STATUS_EVT, c)] s t
        ∧ Settled { s with regs := t.regs, cores := t.cores } t)
      ∧ (recipeRefusal (setCore s c { coreAt s c with loadDue := none }) c { r with card := cardBytes s c } = none →
        Answers (exec (.recipeBegin c) s) fun t =>
          sqState t c = sqRUNNING ∧ recipeState t c = rsRUNNING ∧ pcOf t c = 0
          ∧ ∃ r', (coreAt t c).recipe = some r' ∧ r'.id = r.id ∧ r'.card = cardBytes s c))
    ∧ (blockReach s 15 = true → ∀ r, (coreAt s c).recipe = some r → recipeState s c = rsRUNNING →
      Answers (exec (.recipeStop c) s) fun t =>
        recipeState t c = rsSTOPPING ∧ (coreAt t c).recipe = some { r with stopAt := some s.tb }
        ∧ (r.id = rcTRIAGE → Keeps [(F.SQ_STATUS_RECIPE_STATE, c)] s t))
    ∧ (blockWorks s 15 = true → ∀ r, (coreAt s c).recipe = some r → recipeState s c = rsSTOPPING → recipeQuiet s r = true →
      Answers (exec (.recipeStopped c) s) fun t =>
        recipeState t c = rsSTOPPED ∧ sqState t c = sqHALTED ∧ hasBit t F.SQ_IRQ_STATUS_EVT c 2 = true
        ∧ (coreAt t c).recipe = none ∧ (coreAt t c).stall = .none)
    ∧ (blockWorks s 15 = true → ∀ r k n g, (coreAt s c).recipe = some r → recipeState s c = rsRUNNING → r.fcgWait = true →
      lowest 16 r.cmps = some k → lowest 4 r.encs = some n → r.fcg = some g → isSet s F.CMP_STATUS_ARMED k = true →
      (rd s F.CMP_CFG_SRC k ≠ n → r.listMode = true → Answers (exec (.recipeFcgStart c) s) fun t =>
        recipeState t c = rsERROR ∧ rd t F.SQ_RECIPE_ERR_CODE c = 4 ∧ sqState t c = sqHALTED ∧ (coreAt t c).recipe = none)
      ∧ (rd s F.CMP_CFG_SRC k = n → startRefused s g = false → Answers (exec (.recipeFcgStart c) s) fun t =>
        (coreAt t c).recipe = some { r with fcgWait := false }
        ∧ fcgLoop t g = (if rd s F.FCG_CFG_MODE g = 2 then fACQUIRE else fRUN)))

/-- O22. For FCG g of a working block. START in FREE mode with its bounds in order enters RUN with the first trigger 1 us
ahead; in LOCK mode with the compare unit armed on the channel it enters ACQUIRE and sets MOTION_EXPECTED of the channel;
a refused START only sets CFG_ERR. STOP with no window open enters IDLE and takes back exactly the held pulses of the
triggers committed after now. A 64-bit PERIOD write in range takes effect at once, one out of range only sets CFG_ERR, a
32-bit write to the low half changes no register. WINDOW_CLOSE counts the oldest window unconfirmed and unlocks the phase
once R627 has judged its end. HOLD_EXPIRED applies the policy once HOLD_TIME has passed in HOLD. FCG_CLR_COUNTS clears the
eight counters alone. (Commits and loop updates: O58.) -/
def Obligations.FrameClocksRunByTheirModes : Prop :=
  ∀ (s : State) (g : Nat), g < 4 → blockWorks s 7 = true →
    (fcgLoop s g = fIDLE → rd s F.FCG_FMIN_VALUE g ≤ rd s F.FCG_FSAFE_VALUE g →
      rd s F.FCG_FSAFE_VALUE g ≤ rd s F.FCG_FMAX_VALUE g →
      (rd s F.FCG_CFG_MODE g = 0 → isSet s F.FCG_CFG_START_AT_TB g = false → Answers (exec (.fcgStart g) s) fun t =>
        fcgLoop t g = fRUN ∧ (fcgAt t g).nextT = s.tb + 1000
        ∧ Keeps [(F.FCG_STATUS_LOOP, g), (F.FCG_STATUS_RAMPING, g), (F.FCG_STATUS_RAMP_DOWN, g), (F.FCG_STATUS_CLAMPED, g)] s t
        ∧ Settled { s with regs := t.regs, fcg := t.fcg, twnFcg := t.twnFcg } t)
      ∧ (rd s F.FCG_CFG_MODE g = 2 → rd s F.FCG_C_C g ≠ 0 → rd s F.ENC_CFG_MODE (rd s F.FCG_CFG_SRC_ENC g) ≠ 0 →
        isSet s F.CMP_STATUS_ARMED (rd s F.FCG_CFG_CMP_SEL g) = true →
        rd s F.CMP_CFG_SRC (rd s F.FCG_CFG_CMP_SEL g) = rd s F.FCG_CFG_SRC_ENC g → Answers (exec (.fcgStart g) s) fun t =>
          fcgLoop t g = fACQUIRE ∧ rd t F.ENC_MEAS_CFG_MOTION_EXPECTED (rd s F.FCG_CFG_SRC_ENC g) = 1))
    ∧ (fcgRuns s g = true ∨ rd s F.FCG_FMAX_VALUE g < rd s F.FCG_FMIN_VALUE g
        ∨ rd s F.FCG_CFG_MODE g = 1 ∧ isSet s F.CMP_STATUS_ARMED (rd s F.FCG_CFG_CMP_SEL g) = false →
      Answers (exec (.fcgStart g) s) fun t => hasBit t F.FCG_EVT_EVT g 12 = true ∧ Changes [(F.FCG_EVT_EVT, g)] s t)
    ∧ (fcgRuns s g = true → (fcgAt s g).windows = [] → Answers (exec (.fcgStop g) s) fun t =>
      let ids := ((fcgAt s g).committed.filter fun x => s.tb < x.time).map Committed.id
      fcgLoop t g = fIDLE ∧ rd t F.FCG_STATUS_PHASE_LOCKED g = 0
      ∧ ∀ n, n < 16 → (trgAt t n).cur = (trgAt s n).cur
        ∧ (trgAt t n).held = (trgAt s n).held.filter fun p => !p.src.any fun e => e.1 == g && ids.contains e.2)
    ∧ (Answers (exec (.fcgClrCounts g) s) fun t =>
      (∀ f ∈ fcgCounters, rd t f g = 0) ∧ Changes (fcgCounters.map fun f => (f, g)) s t)
    ∧ (∀ v, 500 ≤ v → v ≤ 2 ^ 40 → Answers (exec (.fcgPeriodWrite g false 8 v) s) fun t =>
      rd t F.FCG_PERIOD_VALUE g = v ∧ Keeps [(F.FCG_PERIOD_VALUE, g)] s t
      ∧ Settled { s with regs := t.regs, periodHeld := t.periodHeld } t)
    ∧ (∀ v, v < 500 → v ≠ rd s F.FCG_PERIOD_VALUE g → Answers (exec (.fcgPeriodWrite g false 8 v) s) fun t =>
      hasBit t F.FCG_EVT_EVT g 12 = true ∧ Keeps [(F.FCG_EVT_EVT, g)] s t)
    ∧ (∀ v, Answers (exec (.fcgPeriodWrite g false 4 v) s) fun t => Settled { s with periodHeld := t.periodHeld } t)
    ∧ (∀ w rest, (fcgAt s g).windows = w :: rest → judged s (rd s F.FCG_CFG_SRC_ENC g) w.hi = true →
      Answers (exec (.fcgWindowClose g) s) fun t =>
        (fcgAt t g).windows = rest ∧ hasBit t F.FCG_EVT_EVT g 7 = true ∧ rd t F.FCG_STATUS_PHASE_LOCKED g = 0
        ∧ rd t F.FCG_UNCONF_COUNT g = min (rd s F.FCG_UNCONF_COUNT g + 1) (2 ^ F.FCG_UNCONF_COUNT.width - 1))
    ∧ (fcgLoop s g = fHOLD → (fcgAt s g).relock = false →
      (fcgAt s g).holdTime ≤ (fcgAt s g).holdUsed + (s.ns - (fcgAt s g).holdSince) →
      rd s F.FCG_CFG_HOLD_POLICY g ≤ 2 → Answers (exec (.fcgHoldExpired g) s) fun t =>
        hasBit t F.FCG_EVT_EVT g 3 = true
        ∧ fcgLoop t g = (match rd s F.FCG_CFG_HOLD_POLICY g with | 0 => fSTOPPED | 1 => fDECAY | _ => fFREERUN)
        ∧ ∀ g', g' < 4 → g' ≠ g → fcgLoop t g' = fcgLoop s g')

/-- O23. For a working TRG block. PULSE_START of an unpaired output whose first held pulse has come, with none under way,
sets ACTIVE, counts it, records its start as LAST_TB and takes it out of the hold. PULSE_END of an unpaired output that is
a plain source, once TB has reached the end, makes it inactive. PAIR_EDGE of an enabled pair: at S the complement drops
and both outputs count; at S + D the primary rises; at S + W - D it falls; at S + W the complement rises, so both are
never active together. TRG_BCN_EVENT of a channel on its way delivers it once. TRG_CLR_COUNTS clears the seven counters of
the output (and of an even one the pair's) alone. -/
def Obligations.TriggerOutputsFollowTheirPulses : Prop :=
  ∀ s : State, blockWorks s 8 = true →
    (∀ n, n < 16 → paired s n = false →
      (∀ p rest, (trgAt s n).held = p :: rest → (trgAt s n).cur = none → p.start ≤ s.tb →
        Answers (exec (.trgPulseStart n) s) fun t =>
          rd t F.TRG_STATUS_ACTIVE n = 1 ∧ (trgAt t n).held = rest ∧ (trgAt t n).cur = some p
          ∧ rd t F.TRG_PULSES_COUNT n = min (rd s F.TRG_PULSES_COUNT n + 1) (2 ^ F.TRG_PULSES_COUNT.width - 1)
          ∧ rd t F.TRG_LAST_TB_VALUE n = s.tb % 2 ^ F.TRG_LAST_TB_VALUE.width
          ∧ (∀ m, m ≠ n → trgAt t m = trgAt s m)
          ∧ Keeps [(F.TRG_STATUS_ACTIVE, n), (F.TRG_PULSES_COUNT, n), (F.TRG_LAST_TB_VALUE, n)] s t
          ∧ Settled { s with regs := t.regs, trg := t.trg } t)
      ∧ (∀ p, (trgAt s n).cur = some p → p.stop ≤ s.tb → rd s F.TRG_CFG_SRC n < 4 → Answers (exec (.trgPulseEnd n) s) fun t =>
          rd t F.TRG_STATUS_ACTIVE n = 0 ∧ (trgAt t n).cur = none ∧ (trgAt t n).held = (trgAt s n).held
          ∧ (∀ m, m ≠ n → trgAt t m = trgAt s m) ∧ Keeps [(F.TRG_STATUS_ACTIVE, n)] s t
          ∧ Settled { s with regs := t.regs, trg := t.trg } t))
    ∧ (∀ p, p < 8 → paired s (2 * p) = true →
      let k := trgAt s (2 * p)
      let d := rd s F.TRG_PAIR_CFG_DEAD_NS p
      (∀ q rest, k.cur = none → k.held = q :: rest → q.start ≤ s.tb → Answers (exec (.pairEdge p) s) fun t =>
        rd t F.TRG_STATUS_ACTIVE (2 * p + 1) = 0 ∧ rd t F.TRG_STATUS_ACTIVE (2 * p) = rd s F.TRG_STATUS_ACTIVE (2 * p)
        ∧ trgAt t (2 * p) = ⟨rest, some q, 1⟩
        ∧ ∀ o ∈ [2 * p, 2 * p + 1],
          rd t F.TRG_PULSES_COUNT o = min (rd s F.TRG_PULSES_COUNT o + 1) (2 ^ F.TRG_PULSES_COUNT.width - 1))
      ∧ (∀ q, k.cur = some q →
        (k.stage = 1 → q.start + d ≤ s.tb → Answers (exec (.pairEdge p) s) fun t =>
          rd t F.TRG_STATUS_ACTIVE (2 * p) = 1 ∧ (trgAt t (2 * p)).stage = 2 ∧ Keeps [(F.TRG_STATUS_ACTIVE, 2 * p)] s t)
        ∧ (k.stage = 2 → q.stop - d ≤ s.tb → Answers (exec (.pairEdge p) s) fun t =>
          rd t F.TRG_STATUS_ACTIVE (2 * p) = 0 ∧ (trgAt t (2 * p)).stage = 3 ∧ Keeps [(F.TRG_STATUS_ACTIVE, 2 * p)] s t)
        ∧ (k.stage = 3 → q.stop ≤ s.tb → Answers (exec (.pairEdge p) s) fun t =>
          rd t F.TRG_STATUS_ACTIVE (2 * p + 1) = 1 ∧ (trgAt t (2 * p)).cur = none
          ∧ Keeps [(F.TRG_STATUS_ACTIVE, 2 * p + 1)] s t)))
    ∧ (∀ ch soft rest, ch < 48 → s.beacons = (ch, 49, soft) :: rest → Answers (exec (.trgBcnEvent ch) s) fun t =>
      t.beacons = rest ∧ rd t F.BCN_FIRES_COUNT ch = min (rd s F.BCN_FIRES_COUNT ch + 1) (2 ^ 32 - 1)
      ∧ hasBit t F.BCN_FIRED_CH 0 ch = true)
    ∧ (∀ n, n < 16 → Answers (exec (.trgClrCounts n) s) fun t =>
      (∀ f ∈ trgCounters, rd t f n = 0) ∧ (n % 2 = 0 → rd t F.TRG_PAIR_SUPPRESSED_COUNT (n / 2) = 0)
      ∧ Changes (trgCounters.map (fun f => (f, n)) ++ (if n % 2 = 0 then [(F.TRG_PAIR_SUPPRESSED_COUNT, n / 2)] else [])) s t)

/-- O24. For channel n of a working ENC, no frame clock running, no compare unit armed and no pulse output running on it.
An x4 edge of A alone (forward where A and B then differ) or of B alone (forward where they are equal), inverted by
INVERT_DIR, that the filter has accepted (held for FILTER_N samples), on a channel that is not LOST moves the position by one, with DIR, the levels and LAST_TB. LOAD_PRESET loads
the position and drops the index reference, RESTART_SPEED clears interval and SPEED_VALID, CLR_IDX_REF clears IDX_REF and
Z_REVERSED, ENC_CLR_COUNTS the ten counters. ENC_LOST of an armed check that is due sets LOST and counts it. An SSI grid
point starts a word where the data line is high, else waits TIMEOUT_US. A valid SSI word loads the position the first
time, and later adds the signed difference of the position fields; a word with a wrong CRC is counted and leaves the
position. SSI_TIMEOUT of a wait counts and reports it. -/
def Obligations.EncoderChannelsCountAndDecode : Prop :=
  ∀ (s : State) (n : Nat), n < 4 → blockWorks s 6 = true →
    (let quiet := (∀ g, g < 4 → fcgLoop s g = fIDLE)
        ∧ (∀ k, k < 16 → isSet s F.CMP_STATUS_ARMED k = true → rd s F.CMP_CFG_SRC k ≠ n)
        ∧ (∀ p, p < 2 → isSet s F.PO_STATUS_RUNNING p = true → rd s F.PO_CFG_SRC p ≠ n)
     quiet →
      (∀ a b z ps held, rd s F.ENC_CFG_MODE n = 1 → isSet s F.ENC_STATUS_LOST n = false → domUp s 22 = true →
        rd s F.ENC_CFG_FILTER_N n ≤ held → ps + (rd s F.ENC_CFG_FILTER_N n - 1) * 2500 ≤ s.tb * 1000 →
        let aCh := hasBit s F.ENC_STATUS_ABZ n 0 != a
        let bCh := hasBit s F.ENC_STATUS_ABZ n 1 != b
        aCh ≠ bCh → hasBit s F.ENC_STATUS_ABZ n 2 = z →
        let up := (if aCh then a != b else a == b) != isSet s F.ENC_CFG_INVERT_DIR n
        Answers (exec (.encEdge n a b z ps held) s) fun t =>
          rd t F.ENC_POS_VALUE n = fromSigned 64 (encPos s n + if up then 1 else -1)
          ∧ isSet t F.ENC_STATUS_DIR n = up ∧ rd t F.ENC_LAST_TB_VALUE n = ps / 1000 % 2 ^ 64
          ∧ rd t F.ENC_STATUS_ABZ n = a.toNat + 2 * b.toNat + 4 * z.toNat
          ∧ Keeps [(F.ENC_POS_VALUE, n), (F.ENC_STATUS_DIR, n), (F.ENC_LAST_TB_VALUE, n), (F.ENC_STATUS_ABZ, n),
              (F.ENC_OVERSPEED_COUNT, n), (F.ENC_EVT_EVT, n), (F.ENC_INTERVAL_VALUE, n), (F.ENC_STATUS_SPEED_VALID, n)] s t)
      ∧ (∀ word t0, ssiRuns s n = true → isSet s F.ENC_STATUS_SSI_BUSY n = true → s.ns < (encAt s n).ssiGrid →
        (encAt s n).ssiT0 = some t0 → ssiLastEdge s n t0 ≤ 2 * s.tb →
        isSet s F.ENC_STATUS_LOST n = false → isSet s F.ENC_STATUS_FROZEN n = false →
        isSet s F.ENC_MEAS_CFG_FROZEN_EN n = false → isSet s F.ENC_SSI_STAT_ERR_EN n = false →
        isSet s F.ENC_SSI_STAT_WARN_EN n = false → isSet s F.ENC_SSI_FRAME_GRAY n = false →
        let w := rd s F.ENC_SSI_FRAME_POS_BITS n
        let v := word / 2 ^ rd s F.ENC_SSI_FRAME_POS_LSB n % 2 ^ w
        (ssiCrcOk s n word = true → Answers (exec (.ssiWord n word) s) fun t =>
          rd t F.ENC_STATUS_SSI_BUSY n = 0 ∧ rd t F.ENC_SSI_RAW_WORD n = word % 2 ^ rd s F.ENC_SSI_FRAME_WLEN n
          ∧ (encAt t n).ssiField = some v
          ∧ rd t F.ENC_POS_VALUE n = (match (encAt s n).ssiField with
            | none => v % 2 ^ 64
            | some old => fromSigned 64 (encPos s n + toSigned w (fromSigned w ((v : Int) - old)))))
        ∧ (ssiCrcOk s n word = false → Answers (exec (.ssiWord n word) s) fun t =>
          rd t F.ENC_STATUS_SSI_BUSY n = 0 ∧ rd t F.ENC_POS_VALUE n = rd s F.ENC_POS_VALUE n
          ∧ hasBit t F.ENC_EVT_EVT n 8 = true
          ∧ rd t F.ENC_SSI_CRC_CNT_COUNT n = min (rd s F.ENC_SSI_CRC_CNT_COUNT n + 1) (2 ^ F.ENC_SSI_CRC_CNT_COUNT.width - 1)))
      ∧ (rd s F.ENC_CFG_MODE n ≠ 0 → isSet s F.ENC_STATUS_LOST n = false → checkArmed s n F.ENC_MEAS_CFG_LOST_EN = true →
        lostDue s n = true → Answers (exec (.encLost n) s) fun t =>
          rd t F.ENC_STATUS_LOST n = 1 ∧ hasBit t F.ENC_EVT_EVT n 4 = true
          ∧ rd t F.ENC_LOST_CNT_COUNT n = min (rd s F.ENC_LOST_CNT_COUNT n + 1) (2 ^ F.ENC_LOST_CNT_COUNT.width - 1)
          ∧ rd t F.ENC_POS_VALUE n = rd s F.ENC_POS_VALUE n))
    ∧ (Answers (exec (.loadPreset n) s) fun t =>
      rd t F.ENC_POS_VALUE n = rd s F.ENC_PRESET_VALUE n ∧ rd t F.ENC_STATUS_IDX_REF n = 0
      ∧ encAt t n = { encAt s n with idxRef := none }
      ∧ Keeps [(F.ENC_POS_VALUE, n), (F.ENC_STATUS_IDX_REF, n)] s t ∧ Settled { s with regs := t.regs, enc := t.enc } t)
    ∧ (Answers (exec (.restartSpeed n) s) fun t =>
      rd t F.ENC_INTERVAL_VALUE n = 0 ∧ rd t F.ENC_STATUS_SPEED_VALID n = 0
      ∧ encAt t n = { encAt s n with pts := [], restart := true }
      ∧ Keeps [(F.ENC_INTERVAL_VALUE, n), (F.ENC_STATUS_SPEED_VALID, n)] s t
      ∧ Settled { s with regs := t.regs, enc := t.enc } t)
    ∧ (Answers (exec (.clrIdxRef n) s) fun t =>
      rd t F.ENC_STATUS_IDX_REF n = 0 ∧ rd t F.ENC_STATUS_Z_REVERSED n = 0 ∧ (encAt t n).idxRef = none
      ∧ rd t F.ENC_POS_VALUE n = rd s F.ENC_POS_VALUE n)
    ∧ (Answers (exec (.encClrCounts n) s) fun t =>
      (∀ f ∈ encCounters, rd t f n = 0) ∧ Changes (encCounters.map fun f => (f, n)) s t)
    ∧ (ssiRuns s n = true → isSet s F.ENC_STATUS_SSI_BUSY n = false → (encAt s n).ssiWait = none →
      (encAt s n).ssiGrid ≤ s.ns →
      (Answers (exec (.ssiGrid n true) s) fun t =>
        rd t F.ENC_STATUS_SSI_BUSY n = 1 ∧ (encAt t n).ssiT0 = some s.tb ∧ s.ns < (encAt t n).ssiGrid
        ∧ Keeps [(F.ENC_STATUS_SSI_BUSY, n)] s t ∧ Settled { s with regs := t.regs, enc := t.enc } t)
      ∧ (Answers (exec (.ssiGrid n false) s) fun t =>
        (encAt t n).ssiWait = some (s.ns + rd s F.ENC_SSI_TIMING_TIMEOUT_US n * 1000)
        ∧ Settled { s with enc := t.enc } t))
    ∧ (∀ w word, isSet s F.ENC_STATUS_SSI_BUSY n = false → (encAt s n).ssiWait = some w → w ≤ s.ns →
      Answers (exec (.ssiTimeout n word) s) fun t =>
        (encAt t n).ssiWait = none ∧ hasBit t F.ENC_EVT_EVT n 8 = true
        ∧ rd t F.ENC_SSI_TIMEOUT_CNT_COUNT n
          = min (rd s F.ENC_SSI_TIMEOUT_CNT_COUNT n + 1) (2 ^ F.ENC_SSI_TIMEOUT_CNT_COUNT.width - 1))

/-- O25. For a working ENC. PO_ENABLE of a disabled pulse output with 0 < M and M at most N clears the accumulator and the
backlog and sets RUNNING; with a ratio out of order (M zero, or M above N) it sets CFG_ERR instead. PO_OUTPUT_COUNT of a running quadrature
output that is not dark and not inverted, with a positive backlog and its spacing over, moves one quadrature state
forward, takes one count from the backlog and adds one to PO_OUT. CMP_ARM with its list inside the 262,144 entries, not
empty, on an encoder in use, while no core runs a recipe, makes the first entry current with CUR_OFFSET = OFFSET and sets
ARMED; with a list that is empty or leaves the entries it only sets CFG_ERR. CMP_DISARM clears ARMED and drops the update
under test, CMP_CLR_COUNTS clears the four counters. CMP_LIST_WRITE of 64 bits sets one entry; a low half is held, and the
high half of the same entry then writes it whole. (A match by a count: O58.) -/
def Obligations.PulseOutputsAndCompareUnitsAct : Prop :=
  ∀ s : State, blockWorks s 6 = true →
    (∀ p, p < 2 → isSet s F.PO_CFG_EN p = false →
      (rd s F.PO_RATIO_M p ≠ 0 → rd s F.PO_RATIO_M p ≤ rd s F.PO_RATIO_N p → Answers (exec (.poEnable p) s) fun t =>
        rd t F.PO_CFG_EN p = 1 ∧ rd t F.PO_STATUS_RUNNING p = 1 ∧ rd t F.PO_ACC_A p = 0 ∧ rd t F.PO_STATUS_BACKLOG p = 0)
      ∧ (rd s F.PO_RATIO_M p = 0 ∨ rd s F.PO_RATIO_N p < rd s F.PO_RATIO_M p → Answers (exec (.poEnable p) s) fun t =>
        rd t F.PO_STATUS_CFG_ERR p = 1 ∧ rd t F.PO_STATUS_RUNNING p = rd s F.PO_STATUS_RUNNING p))
    ∧ (∀ p b, p < 2 → isSet s F.PO_STATUS_RUNNING p = true → poIsDark s p = false → (poAt s p).next ≤ s.ns →
      isSet s F.PO_CFG_FORMAT p = false → isSet s F.PO_CFG_INVERT p = false →
      rd s F.PO_STATUS_BACKLOG p = b + 1 → b + 1 < 2 ^ 15 → Answers (exec (.poOutputCount p) s) fun t =>
        rd t F.PO_STATUS_BACKLOG p = b ∧ rd t F.PO_OUT_VALUE p = (rd s F.PO_OUT_VALUE p + 1) % 2 ^ 64
        ∧ (poAt t p).phase = ((poAt s p).phase + 1) % 4 ∧ (poAt t p).next = s.ns + rd s F.PO_SPACING_SPACING_NS p
        ∧ Keeps [(F.PO_STATUS_BACKLOG, p), (F.PO_OUT_VALUE, p), (F.TRG_STATUS_ACTIVE, 2 * rd s F.PO_CFG_PAIR p),
            (F.TRG_STATUS_ACTIVE, 2 * rd s F.PO_CFG_PAIR p + 1)] s t
        ∧ Settled { s with regs := t.regs, po := t.po } t)
    ∧ (∀ k, k < 16 →
      (rd s F.CMP_BASE_BASE k + rd s F.CMP_LEN_LEN k ≤ 262144 → rd s F.CMP_LEN_LEN k ≠ 0 →
        rd s F.ENC_CFG_MODE (rd s F.CMP_CFG_SRC k) ≠ 0 → (∀ c, c < 8 → (coreAt s c).recipe = none) →
        Answers (exec (.cmpArm k) s) fun t =>
          rd t F.CMP_STATUS_ARMED k = 1 ∧ rd t F.CMP_STATUS_DONE k = 0 ∧ rd t F.CMP_PTR_PTR k = rd s F.CMP_BASE_BASE k
          ∧ rd t F.CMP_CUR_OFFSET_VALUE k = rd s F.CMP_OFFSET_VALUE k
          ∧ sget t.cmpCur 0 k = cmpEntry s (rd s F.CMP_BASE_BASE k)
          ∧ Keeps [(F.CMP_STATUS_ARMED, k), (F.CMP_STATUS_DONE, k), (F.CMP_PTR_PTR, k), (F.CMP_CUR_OFFSET_VALUE, k)] s t
          ∧ Settled { s with regs := t.regs, cmpCur := t.cmpCur, cmpUpd := t.cmpUpd } t)
      ∧ (262144 < rd s F.CMP_BASE_BASE k + rd s F.CMP_LEN_LEN k ∨ rd s F.CMP_LEN_LEN k = 0 → Answers (exec (.cmpArm k) s) fun t =>
          hasBit t F.CMP_EVT_EVT k 4 = true ∧ Changes [(F.CMP_EVT_EVT, k)] s t)
      ∧ (Answers (exec (.cmpDisarm k) s) fun t =>
          rd t F.CMP_STATUS_ARMED k = 0 ∧ sget t.cmpUpd [] k = [] ∧ Keeps [(F.CMP_STATUS_ARMED, k)] s t
          ∧ Settled { s with regs := t.regs, cmpUpd := t.cmpUpd } t)
      ∧ (Answers (exec (.cmpClrCounts k) s) fun t =>
          (∀ f ∈ cmpCounters, rd t f k = 0) ∧ Changes (cmpCounters.map fun f => (f, k)) s t))
    ∧ (∀ off val,
      let e := rd s F.ENC_LIST_PAGE_PAGE * 8192 + off % 0x10000 / 8
      (Answers (exec (.cmpListWrite off 8 val) s) fun t =>
        cmpEntry t e = val % 2 ^ 62 ∧ (∀ x, x ≠ e → cmpEntry t x = cmpEntry s x) ∧ Settled { s with cmpList := t.cmpList } t)
      ∧ (off % 8 = 0 → Answers (exec (.cmpListWrite off 4 val) s) fun t =>
        Settled { s with cmpHeld := some (e, val % 2 ^ 32) } t)
      ∧ (∀ low, off % 8 = 4 → s.cmpHeld = some (e, low) → low < 2 ^ 32 → Answers (exec (.cmpListWrite off 4 val) s) fun t =>
        cmpEntry t e = (low + 2 ^ 32 * (val % 2 ^ 32)) % 2 ^ 62 ∧ (∀ x, x ≠ e → cmpEntry t x = cmpEntry s x)
        ∧ Settled { s with cmpList := t.cmpList, cmpHeld := none } t))

/-- O26. For a working TMB. TIMEREF_FREQ_LOCK in FREE with TIMEREF_EN enters FREQ and sets TIMEREF_OK. PPS_EDGE with
PPS_EN in FREQ and no load pending captures TB, records the phase error (TB minus offset, modulo 1 s, from -0.5 s up to
0.5 s), which becomes the correction, sets PPS_OK, leaves TB, and on the third error in a row within 2 ns enters PHASE.
TB_SLEW_TICK with no device store waiting holds TB for a positive correction and, with the lane reference, adds 2 for a
negative one, in one ns (log 2), one ns of correction at a time and 10 us apart. TIMEREF_LOST enters FREE, clears TIMEREF_OK and leaves TB. PPS_TIMEOUT after 1.1 s without a pulse clears PPS_OK
and takes PHASE back to FREQ. LOAD_NOW with no frame clock running and no pulse scheduled loads TB and drops the
correction; otherwise it only reports the refusal. LOAD_AT_PPS makes a load pending, which the next PPS_EDGE performs;
CANCEL_LOAD ends it and nothing else. -/
def Obligations.TimebaseLocksSlewsAndLoads : Prop :=
  ∀ s : State, blockWorks s 4 = true →
    (isSet s F.TMB_CTL_TIMEREF_EN = true → rd s F.TMB_STATUS_STATE = 0 → Answers (exec .timerefFreqLock s) fun t =>
      rd t F.TMB_STATUS_STATE = 1 ∧ rd t F.GLB_STATUS_TIMEREF_OK = 1 ∧ hasBit t F.TMB_EVT_EVT 0 0 = true
      ∧ Changes [(F.TMB_STATUS_STATE, 0), (F.GLB_STATUS_TIMEREF_OK, 0), (F.TMB_EVT_EVT, 0), (F.GLB_EVT_EVT, 0)] s t)
    ∧ (∀ e : Int, isSet s F.TMB_CTL_PPS_EN = true → rd s F.TMB_STATUS_STATE = 1 → isSet s F.TMB_STATUS_LOAD_PENDING = false →
      (∃ k : Int, e = (s.tb : Int) - rd s F.TMB_PPS_OFFSET_VALUE + k * 1000000000) → -500000000 ≤ e → e < 500000000 →
      Answers (exec .ppsEdge s) fun t =>
        rd t F.TMB_PPS_TB_VALUE = s.tb % 2 ^ 64 ∧ t.slew = e ∧ rd t F.TMB_PHASE_ERR_VALUE = fromSigned 32 e ∧ t.tb = s.tb
        ∧ rd t F.GLB_STATUS_PPS_OK = 1 ∧ hasBit t F.TMB_EVT_EVT 0 4 = true ∧ t.ppsLast = s.ns
        ∧ (e.natAbs ≤ 2 → s.ppsGood = 2 → rd t F.TMB_STATUS_STATE = 2 ∧ hasBit t F.TMB_EVT_EVT 0 2 = true)
        ∧ (2 < e.natAbs → rd t F.TMB_STATUS_STATE = 1 ∧ t.ppsGood = 0))
    ∧ (s.slewNext ≤ s.ns → (∀ c, c < 8 → (coreAt s c).storeQ = []) →
      (0 < s.slew → Answers (exec .tbSlewTick s) fun t =>
        t.ns = s.ns + 1 ∧ t.tb = s.tb ∧ t.slew = s.slew - 1 ∧ t.slewNext = s.ns + 10000)
      ∧ (s.slew < 0 → s.aDieReset = false → isSet s F.GLB_STATUS_REF_LANE_OK = true → Answers (exec .tbSlewTick s) fun t =>
        t.ns = s.ns + 1 ∧ t.tb = (s.tb + 2) % 2 ^ 64 ∧ t.slew = s.slew + 1 ∧ t.slewNext = s.ns + 10000))
    ∧ (Answers (exec .timerefLost s) fun t =>
      rd t F.TMB_STATUS_STATE = 0 ∧ rd t F.GLB_STATUS_TIMEREF_OK = 0 ∧ t.tb = s.tb
      ∧ (rd s F.TMB_STATUS_STATE ≠ 0 → hasBit t F.TMB_EVT_EVT 0 1 = true)
      ∧ Keeps [(F.TMB_STATUS_STATE, 0), (F.GLB_STATUS_TIMEREF_OK, 0), (F.TMB_EVT_EVT, 0), (F.TMB_LOCK_LOSS_CNT_COUNT, 0),
          (F.GLB_EVT_EVT, 0)] s t)
    ∧ (s.ppsLast + 1100000000 ≤ s.ns → Answers (exec .ppsTimeout s) fun t =>
      rd t F.GLB_STATUS_PPS_OK = 0
      ∧ (rd s F.TMB_STATUS_STATE = 2 → rd t F.TMB_STATUS_STATE = 1 ∧ hasBit t F.TMB_EVT_EVT 0 3 = true
        ∧ rd t F.TMB_LOCK_LOSS_CNT_COUNT = min (rd s F.TMB_LOCK_LOSS_CNT_COUNT + 1) (2 ^ 32 - 1))
      ∧ (rd s F.TMB_STATUS_STATE ≠ 2 → Keeps [(F.GLB_STATUS_PPS_OK, 0), (F.GLB_EVT_EVT, 0)] s t))
    ∧ (blockReach s 4 = true →
      (loadBarred s = false →
        (Answers (exec .loadNow s) fun t =>
          hasBit t F.TMB_EVT_EVT 0 5 = true ∧ Keeps [(F.TMB_EVT_EVT, 0)] s t
          ∧ Settled { s with regs := t.regs, tb := rd s F.TMB_LOAD_VALUE, slew := 0 } t)
        ∧ (Answers (exec .loadAtPps s) fun t =>
          rd t F.TMB_STATUS_LOAD_PENDING = 1 ∧ Changes [(F.TMB_STATUS_LOAD_PENDING, 0)] s t)
        ∧ (isSet s F.TMB_STATUS_LOAD_PENDING = true → isSet s F.TMB_CTL_PPS_EN = false → isSet s F.TMB_CTL_AUTO = false →
          Answers (exec .ppsEdge s) fun t =>
            t.tb = rd s F.TMB_LOAD_VALUE ∧ rd t F.TMB_STATUS_LOAD_PENDING = 0 ∧ hasBit t F.TMB_EVT_EVT 0 5 = true))
      ∧ (loadBarred s = true → ∀ i ∈ [Instr.loadNow, .loadAtPps], Answers (exec i s) fun t =>
        hasBit t F.TMB_EVT_EVT 0 6 = true ∧ Changes [(F.TMB_EVT_EVT, 0)] s t)
      ∧ (Answers (exec .cancelLoad s) fun t =>
        rd t F.TMB_STATUS_LOAD_PENDING = 0 ∧ Changes [(F.TMB_STATUS_LOAD_PENDING, 0)] s t))

/-- O27. FIO_FAULT_CONFIRM of a new kind the channel can show sets the live kind, the latch, one count, FIO_EVT bit 0, and
latches the channel's capture bank; on an output, any kind but OPEN makes it dark and high-impedance; on VFIELD every
trigger output goes dark. FIO_FAULT_CLEAR clears the live kind alone: latch, count and dark stay. IDLE_WINDOW_END confirms
REVERSED where the opposite level held in more than 7/8 of the window's ticks of 1 us and it may hold, and ends it where the
level did not. FIO_REARM, reached over the link, of an input
clears its latch; of a dark output with nothing against it starts the test (ARMING), else it sets FIO_EVT bit 2 and leaves
it dark. FIO_ARM_TEST_DONE passed, 2 us after it began, ends dark; failed, the output stays dark with cause FAULT and the kind latched.
FIO_DARK_CMD makes an output dark with cause COMMAND and discards its pulses. GIN_EDGE of a level that has stood for the
longest filter time records the level and fires the
input's producer where its edge is selected. FIO_CLR_COUNTS clears the fault counters. -/
def Obligations.FieldChannelsLatchDarkenAndRearm : Prop :=
  ∀ s : State,
    (∀ c kind partner, c < 38 → kindFits s c kind = true → hasBit s F.FIO_CH_STAT_KINDS c kind = false →
      Answers (exec (.fioFaultConfirm c (2 ^ kind) partner) s) fun t =>
        hasBit t F.FIO_CH_STAT_KINDS c kind = true ∧ hasBit t F.FIO_CH_LATCH_KINDS c kind = true
        ∧ rd t F.FIO_CH_CNT_COUNT c = min (rd s F.FIO_CH_CNT_COUNT c + 1) (2 ^ F.FIO_CH_CNT_COUNT.width - 1)
        ∧ hasBit t F.FIO_EVT_EVT 0 0 = true
        ∧ ((captureAt t (16 + c)).bank (captureAt s (16 + c)).active).latched = true
        ∧ (isOutputCh s c = true → kind ≠ 0 → isSet t F.FIO_CH_STAT_DARK c = true ∧ sget t.hiZ false c = true)
        ∧ (c = 36 → (∀ n, n < 16 → trgDark t n = true) ∧ rd t F.FIO_VF_STAT_OK = 0))
    ∧ (∀ c kind, c < 38 → c ≠ 36 → kind < 7 → kind ≠ 4 → hasBit s F.FIO_CH_STAT_KINDS c kind = true →
      Answers (exec (.fioFaultClear c kind) s) fun t =>
        hasBit t F.FIO_CH_STAT_KINDS c kind = false
        ∧ (∀ j, j ≠ kind → hasBit t F.FIO_CH_STAT_KINDS c j = hasBit s F.FIO_CH_STAT_KINDS c j)
        ∧ Changes [(F.FIO_CH_STAT_KINDS, c), (F.FIO_CH_STAT_PARTNER, c)] s t)
    ∧ (∀ c, c < 12 → isDifferential s c = true → isSet s F.FIO_CH_CFG_IDLE_CHK c = true →
      ∀ ticks, (7 * (1000 * rd s F.FIO_CH_CFG_IDLE_WIN_MS c) < 8 * ticks → reversedMay s c = true →
        hasBit s F.FIO_CH_STAT_KINDS c 4 = false → Answers (exec (.idleWindowEnd c ticks) s) fun t =>
        hasBit t F.FIO_CH_STAT_KINDS c 4 = true ∧ hasBit t F.FIO_CH_LATCH_KINDS c 4 = true)
      ∧ (8 * ticks ≤ 7 * (1000 * rd s F.FIO_CH_CFG_IDLE_WIN_MS c) → hasBit s F.FIO_CH_STAT_KINDS c 4 = true →
        Answers (exec (.idleWindowEnd c ticks) s) fun t =>
        hasBit t F.FIO_CH_STAT_KINDS c 4 = false
        ∧ Changes [(F.FIO_CH_STAT_KINDS, c), (F.FIO_CH_STAT_PARTNER, c)] s t))
    ∧ (isSet s F.GLB_STATUS_D2D_UP = true → blockReach s 9 = true →
      (∀ c, c < 38 → isOutputCh s c = false → Answers (exec (.fioRearm c) s) fun t =>
        rd t F.FIO_CH_LATCH_KINDS c = 0 ∧ Changes [(F.FIO_CH_LATCH_KINDS, c)] s t)
      ∧ (∀ c, c < 28 → isOutputCh s c = true → isSet s F.FIO_CH_STAT_DARK c = true → isSet s F.FIO_CH_STAT_ARMING c = false →
        s.darkNow.testBit c = false →
        (rearmRefused s c = true → Answers (exec (.fioRearm c) s) fun t =>
          hasBit t F.FIO_EVT_EVT 0 2 = true ∧ Changes [(F.FIO_EVT_EVT, 0)] s t)
        ∧ (rearmRefused s c = false → (12 ≤ c → isSet s F.TRG_CFG_TWIN (c - 12) = false) → Answers (exec (.fioRearm c) s) fun t =>
          rd t F.FIO_CH_STAT_ARMING c = 1 ∧ Keeps [(F.FIO_CH_STAT_ARMING, c)] s t
          ∧ sget t.armAt 0 c = s.ns ∧ Settled { s with regs := t.regs, armAt := t.armAt } t))
      ∧ (∀ n, n < 16 → paired s n = false → trgDark s n = false → Answers (exec (.fioDarkCmd (12 + n)) s) fun t =>
        trgDark t n = true ∧ rd t F.FIO_CH_STAT_DARK_CAUSE (12 + n) = 7 ∧ (trgAt t n).held = [] ∧ (trgAt t n).cur = none
        ∧ rd t F.TRG_STATUS_ACTIVE n = 0
        ∧ rd t F.TRG_DARK_DROP_COUNT n
          = min (rd s F.TRG_DARK_DROP_COUNT n + (trgAt s n).held.length) (2 ^ F.TRG_DARK_DROP_COUNT.width - 1))
      ∧ (Answers (exec .fioClrCounts s) fun t =>
        (∀ c, c < 48 → rd t F.FIO_CH_CNT_COUNT c = 0) ∧ Changes ((List.range 48).map fun c => (F.FIO_CH_CNT_COUNT, c)) s t))
    ∧ (∀ c kind partner, c < 48 → isOutputCh s c = true → isSet s F.FIO_CH_STAT_ARMING c = true →
      (sget s.armAt 0 c + 2000 ≤ s.ns → Answers (exec (.fioArmTestDone c true kind partner) s) fun t =>
        rd t F.FIO_CH_STAT_DARK c = 0 ∧ rd t F.FIO_CH_STAT_DARK_CAUSE c = 0 ∧ rd t F.FIO_CH_STAT_ARMING c = 0)
      ∧ (kind ∈ [1, 2, 3, 5] → Answers (exec (.fioArmTestDone c false kind partner) s) fun t =>
        rd t F.FIO_CH_STAT_DARK c = rd s F.FIO_CH_STAT_DARK c ∧ rd t F.FIO_CH_STAT_DARK_CAUSE c = 1
        ∧ rd t F.FIO_CH_STAT_ARMING c = 0 ∧ hasBit t F.FIO_CH_LATCH_KINDS c kind = true ∧ hasBit t F.FIO_EVT_EVT 0 1 = true))
    ∧ (∀ n level held, n < 8 → 1200 * rd s F.FIO_GIN_CFG_FILTER_US n + 100 ≤ held → Answers (exec (.ginEdge n level held) s) fun t =>
      hasBit t F.FIO_GIN_STAT_LEVELS 0 n = level
      ∧ (∀ m, m ≠ n → hasBit t F.FIO_GIN_STAT_LEVELS 0 m = hasBit s F.FIO_GIN_STAT_LEVELS 0 m)
      ∧ (hasBit s F.FIO_GIN_STAT_LEVELS 0 n = false → level = true → rd s F.FIO_GIN_CFG_EDGE n = 0 →
        isSet s F.FIO_GIN_CFG_PROD_EN n = true → ∀ ch, ch < 48 → isSet s F.BCN_CH_CFG_EN ch = true →
        hasBit s F.BCN_EN_EN (ch * 6 + (120 + n) / 32) ((120 + n) % 32) = true → rd s F.BCN_CH_CFG_CONSUMER ch < 55 →
        (ch, rd s F.BCN_CH_CFG_CONSUMER ch, false) ∈ t.beacons))

/-- O28. For an enabled receive side (port 0 to 7, or 8 the twin's lane) of a working block. FCK_DETECT without clock sets
CLK_PRESENT and leaves NOCLOCK for CLOCK. FREQ_CHECK in CLOCK within 1 % marks the frequency good, else a port reports it
(event 3). MULT_LOCK then leads on to EQUALISE (LOCK in loop L2). PHASE_CENTRED marks the phases centred and with AUTO = 0
leads to LOCK; CTLE_SWEEP_DONE after it leads to LOCK with each lane on the code of 0 to 24 with the highest FOM, the lowest
such code on a tie. LANE_LOCK in LOCK on units that give lock locks the lane and with the last one enters DESKEW. A
MARKER_COLUMN in DESKEW, of a port that no loop feeds, whose markers all pass, match and agree counts one agreement more. PRT_DESKEW after two marks deskew; LINK_UP of a deskewed port with matching markers enters UP, sets
LINK_UP, event 0, counts it and records the time; with markers that do not match, and on STAGE_TIMEOUT, the port counts a
retry and goes back to EQUALISE (LOCK in loop L2), or CLOCK without a multiplier lock, its lane locks gone. -/
def Obligations.ReceiveSidesComeUpByStages : Prop :=
  ∀ (s : State) (n : Nat), n < 9 → blockWorks s (rxBit n) = true → rxEn s n = true →
    (rxClk s n = false → rxState s n = pNOCLOCK → Answers (exec (.fckDetect n) s) fun t =>
      rxClk t n = true ∧ rxState t n = pCLOCK ∧ (prtAt t n).t0 = s.ns
      ∧ Keeps [(F.PRT_STATUS_CLK_PRESENT, n), (F.PRT_STATUS_STATE, n), (F.TWN_RX_STATUS_CLK_PRESENT, 0),
          (F.TWN_RX_STATUS_STATE, 0)] s t
      ∧ Settled { s with regs := t.regs, prt := t.prt } t)
    ∧ (∀ khz, rxClk s n = true → rxState s n = pCLOCK → (prtAt s n).mult = false →
      (99 * fckHalfKhz s n ≤ 200 * khz → 200 * khz ≤ 101 * fckHalfKhz s n → Answers (exec (.prtFreqCheck n khz) s) fun t =>
        (prtAt t n).freqOk = true ∧ rxState t n = pCLOCK ∧ Keeps [(F.PRT_FCK_FREQ_KHZ, n)] s t)
      ∧ (101 * fckHalfKhz s n < 200 * khz → Answers (exec (.prtFreqCheck n khz) s) fun t =>
        (prtAt t n).freqOk = false ∧ rxState t n = pCLOCK ∧ (n < 8 → hasBit t F.PRT_EVT_EVT n 3 = true)))
    ∧ (rxClk s n = true → (prtAt s n).freqOk = true → rxState s n = pCLOCK → Answers (exec (.prtMultLock n) s) fun t =>
      (prtAt t n).mult = true ∧ rxState t n = (if loopedL2 s n then pLOCK else pEQUALISE))
    ∧ (rxState s n = pEQUALISE →
      (Answers (exec (.prtPhaseCentred n) s) fun t =>
        (prtAt t n).centred = true ∧ rxState t n = (if eqAuto s n then pEQUALISE else pLOCK))
      ∧ (∀ foms : List (List Nat), (prtAt s n).centred = true → Answers (exec (.ctleSweepDone n foms) s) fun t =>
        rxState t n = pLOCK ∧ (prtAt t n).swept = true
        ∧ ∀ j ∈ usedLanes s n,
          let fom := fun c => (foms.getD j []).getD c 0
          let code := laneGet t n j F.PRT_LANE_EQ_CTLE F.TWN_RX_EQ_CTLE
          code ≤ 24 ∧ ∀ c, c ≤ 24 → fom c ≤ fom code ∧ (c < code → fom c < fom code)))
    ∧ (∀ j units, rxState s n = pLOCK → j ∈ usedLanes s n → givesLock (rxGen s n) (units.map (laneUnit s n j)) = true →
      Answers (exec (.laneLock n j units) s) fun t =>
      laneLocked t n j = true
      ∧ rxState t n = (if (usedLanes s n).all (fun i => i == j || laneLocked s n i) then pDESKEW else pLOCK))
    ∧ (∀ (cols : List (List Nat)) q, rxState s n = pDESKEW → loopRelay s n = none →
      let mk := markersOf s n cols
      (∀ i, i < rxLanes s n → markerGood (mk.getD i []) = true ∧ markerMatches s n i (mk.getD i []) = true
        ∧ leField (mk.getD i []) 2 2 = q) → Answers (exec (.markerColumn n cols) s) fun t =>
      (prtAt t n).agree = (prtAt s n).agree + 1 ∧ (prtAt t n).markerOk = true ∧ (prtAt t n).missing = 0
      ∧ rxState t n = pDESKEW)
    ∧ (rxState s n = pDESKEW → 2 ≤ (prtAt s n).agree → Answers (exec (.prtDeskew n) s) fun t =>
      prtAt t n = { prtAt s n with deskewed := true } ∧ Settled { s with prt := t.prt } t)
    ∧ (n < 8 → rxState s n = pDESKEW → (prtAt s n).deskewed = true →
      ((prtAt s n).markerOk = true → Answers (exec (.linkUp n) s) fun t =>
        rd t F.PRT_STATUS_STATE n = pUP ∧ rd t F.PRT_STATUS_LINK_UP n = 1 ∧ hasBit t F.PRT_EVT_EVT n 0 = true
        ∧ rd t F.PRT_LINKS_COUNT n = min (rd s F.PRT_LINKS_COUNT n + 1) (2 ^ F.PRT_LINKS_COUNT.width - 1)
        ∧ rd t F.PRT_LINKUP_NS_NS n = (s.ns - (prtAt s n).t0) % 2 ^ F.PRT_LINKUP_NS_NS.width)
      ∧ ((prtAt s n).markerOk = false → Answers (exec (.linkUp n) s) fun t =>
        rd t F.PRT_STATUS_STATE n = (if (prtAt s n).mult then (if loopedL2 s n then pLOCK else pEQUALISE) else pCLOCK) ∧ hasBit t F.PRT_EVT_EVT n 5 = true
        ∧ rd t F.PRT_STATUS_LANE_LOCK n = 0
        ∧ rd t F.PRT_RETRIES_COUNT n = min (rd s F.PRT_RETRIES_COUNT n + 1) (2 ^ F.PRT_RETRIES_COUNT.width - 1)))
    ∧ (n = 8 → rxState s n = pDESKEW → (prtAt s n).deskewed = true → (prtAt s n).markerOk = true →
      isSet s F.SQ_HASH_CTL_VALID = false → Answers (exec (.linkUp n) s) fun t =>
        rd t F.TWN_RX_STATUS_STATE = pUP ∧ rd t F.TWN_RX_STATUS_LINK_UP = 1 ∧ rd t F.TWN_STATUS_LINK_UP = 1
        ∧ hasBit t F.TWN_EVT_EVT 0 14 = true ∧ t.twn.helloWait = true)
    ∧ (n < 8 → (rxState s n = pEQUALISE ∨ rxState s n = pLOCK ∨ rxState s n = pDESKEW) → (prtAt s n).deskewed = false →
      Answers (exec (.stageTimeout n) s) fun t =>
        rd t F.PRT_STATUS_STATE n = (if (prtAt s n).mult then (if loopedL2 s n then pLOCK else pEQUALISE) else pCLOCK) ∧ hasBit t F.PRT_EVT_EVT n 4 = true
        ∧ rd t F.PRT_STATUS_LANE_LOCK n = 0
        ∧ rd t F.PRT_RETRIES_COUNT n = min (rd s F.PRT_RETRIES_COUNT n + 1) (2 ^ F.PRT_RETRIES_COUNT.width - 1))

/-- O29. For port n, enabled and working, UP with no frame open. LANE_LOCK_LOST of a locked lane counts the loss of that
lane, clears LINK_UP, counts one down with event 1, drops every lane lock and re-acquires from EQUALISE (LOCK in loop L2),
or CLOCK without a multiplier lock. DESKEW_LOST where the marker columns have shown it does the same with event 6. CLK_LOST clears
CLK_PRESENT and LINK_UP, counts both with events 2 and 1, and the port is in NOCLOCK with the multiplier unlocked. RESTART
takes the link down and begins again at CLOCK with FCK there. RX_CONTROL_ERROR of a locked lane whose unit is in error
counts one CODE_ERR (an invalid sync header or code group) or CTRL_ERR (a valid one outside the control codes) and no other
register changes. LANE_LOCK_LOST takes units that break the lock rule of the generation. -/
def Obligations.LinkLossesTakeThePortDown : Prop :=
  ∀ (s : State) (n j : Nat), n < 8 → j < 4 → blockWorks s (21 + n) = true → rxEn s n = true →
    rd s F.PRT_STATUS_STATE n = pUP → isSet s F.PRT_STATUS_LINK_UP n = true → portOpen s n = false →
    let down := fun (t : State) => rd t F.PRT_STATUS_LINK_UP n = 0 ∧ hasBit t F.PRT_EVT_EVT n 1 = true
      ∧ rd t F.PRT_DOWNS_COUNT n = min (rd s F.PRT_DOWNS_COUNT n + 1) (2 ^ F.PRT_DOWNS_COUNT.width - 1)
      ∧ rd t F.PRT_STATUS_LANE_LOCK n = 0
    let again := fun (t : State) => rd t F.PRT_STATUS_STATE n = (if (prtAt s n).mult then (if loopedL2 s n then pLOCK else pEQUALISE) else pCLOCK)
    (∀ units, laneLocked s n j = true → breaksLock (rxGen s n) (units.map (laneUnit s n j)) = true →
      Answers (exec (.laneLockLost n j units) s) fun t =>
      down t ∧ again t
      ∧ rd t F.PRT_LANE_LOCK_LOSS_COUNT (4 * n + j)
        = min (rd s F.PRT_LANE_LOCK_LOSS_COUNT (4 * n + j) + 1) (2 ^ F.PRT_LANE_LOCK_LOSS_COUNT.width - 1))
    ∧ ((prtAt s n).skewLost = true → Answers (exec (.deskewLost n) s) fun t =>
      down t ∧ again t ∧ hasBit t F.PRT_EVT_EVT n 6 = true)
    ∧ (isSet s F.PRT_STATUS_CLK_PRESENT n = true →
      (Answers (exec (.clkLost n) s) fun t =>
        down t ∧ rd t F.PRT_STATUS_CLK_PRESENT n = 0 ∧ hasBit t F.PRT_EVT_EVT n 2 = true
        ∧ rd t F.PRT_CLK_LOSSES_COUNT n = min (rd s F.PRT_CLK_LOSSES_COUNT n + 1) (2 ^ F.PRT_CLK_LOSSES_COUNT.width - 1)
        ∧ rd t F.PRT_STATUS_STATE n = pNOCLOCK ∧ (prtAt t n).mult = false)
      ∧ (Answers (exec (.restart n) s) fun t => down t ∧ rd t F.PRT_STATUS_STATE n = pCLOCK ∧ (prtAt t n).t0 = s.ns))
    ∧ (∀ prev unit bytes, laneLocked s n j = true → j ∈ usedLanes s n →
      let sampled := unitOf (rxGen s n) (laneUnit s n j prev) (laneUnit s n j unit)
      (sampled = .bad 0 bytes → Answers (exec (.rxControlError n j prev unit) s) fun t =>
        rd t F.PRT_LANE_CODE_ERR_COUNT (4 * n + j)
          = min (rd s F.PRT_LANE_CODE_ERR_COUNT (4 * n + j) + 1) (2 ^ F.PRT_LANE_CODE_ERR_COUNT.width - 1)
        ∧ Keeps [(F.PRT_LANE_CODE_ERR_COUNT, 4 * n + j)] s t ∧ Settled { s with regs := t.regs, lines := t.lines } t)
      ∧ (sampled = .bad 1 bytes → Answers (exec (.rxControlError n j prev unit) s) fun t =>
        rd t F.PRT_LANE_CTRL_ERR_COUNT (4 * n + j)
          = min (rd s F.PRT_LANE_CTRL_ERR_COUNT (4 * n + j) + 1) (2 ^ F.PRT_LANE_CTRL_ERR_COUNT.width - 1)
        ∧ Keeps [(F.PRT_LANE_CTRL_ERR_COUNT, 4 * n + j)] s t ∧ Settled { s with regs := t.regs, lines := t.lines } t))

/-- O30. For port n, enabled and working. HOLD_ENTER of an UP port that no relay takes enters HOLD with event 8 when no
frame is open, and makes the entry pending while one is; a port in another state reports event 11 and changes nothing
else. DEEP_ENTER likewise enters DEEP, which clears LINK_UP and the lane locks and unlocks the multiplier without an
event. HOLD_EXIT of a HOLD port starts its exit, of a pending entry cancels it, and HOLD_EXITED ends in UP with event 9.
DEEP_EXIT starts the exit, and DEEP_EXITED begins a fresh bring-up with event 10. PRT_TRIGGER_WAKE with WAKE_ON_TRIGGER
and a packet due within 200 ns, and PRT_WAKE_EVENT of the port's channel, wake a HOLD port. SELFTEST of a port that is not
UP, its relay disabled, enables the relay and enters SELFTEST; with the relay in use it only sets REFUSED. SELFTEST_DONE
with no checker enabled records the lanes that passed, sets DONE with event 13 and frees the relay. (No entry and no wake of
the port fell in the same cycle.) -/
def Obligations.PortsHoldSleepWakeAndTestThemselves : Prop :=
  ∀ (s : State) (n : Nat), n < 8 → blockWorks s (21 + n) = true → rxEn s n = true →
    (rd s F.PRT_STATUS_STATE n = pUP → relayed s n = false → wokeNow s n = false →
      (portOpen s n = false →
        (∀ force, Answers (exec (.holdEnter n force) s) fun t =>
          rd t F.PRT_STATUS_STATE n = pHOLD ∧ hasBit t F.PRT_EVT_EVT n 8 = true ∧ rd t F.PRT_STATUS_ENTRY_PENDING n = 0
          ∧ Keeps [(F.PRT_STATUS_STATE, n), (F.PRT_EVT_EVT, n), (F.PRT_STATUS_ENTRY_PENDING, n)] s t)
        ∧ (∀ force, Answers (exec (.deepEnter n force) s) fun t =>
          rd t F.PRT_STATUS_STATE n = pDEEP ∧ rd t F.PRT_STATUS_LINK_UP n = 0 ∧ rd t F.PRT_STATUS_LANE_LOCK n = 0
          ∧ (prtAt t n).mult = false ∧ rd t F.PRT_EVT_EVT n = rd s F.PRT_EVT_EVT n))
      ∧ (portOpen s n = true →
        (Answers (exec (.holdEnter n false) s) fun t =>
          rd t F.PRT_STATUS_ENTRY_PENDING n = 1 ∧ (prtAt t n).entry = some 0
          ∧ Keeps [(F.PRT_STATUS_ENTRY_PENDING, n)] s t)
        ∧ (Answers (exec (.deepEnter n false) s) fun t =>
          rd t F.PRT_STATUS_ENTRY_PENDING n = 1 ∧ (prtAt t n).entry = some 1
          ∧ Keeps [(F.PRT_STATUS_ENTRY_PENDING, n)] s t)))
    ∧ (rd s F.PRT_STATUS_STATE n ≠ pUP → rd s F.PRT_STATUS_STATE n ≠ pHOLD → ∀ force,
      ∀ i ∈ [Instr.holdEnter n force, .deepEnter n force], Answers (exec i s) fun t =>
        hasBit t F.PRT_EVT_EVT n 11 = true ∧ Changes [(F.PRT_EVT_EVT, n)] s t)
    ∧ ((prtAt s n).entry.isSome = true → (∀ e, (prtAt s n).entered = some e → e.at' ≠ s.ns) →
      Answers (exec (.holdExit n) s) fun t =>
      rd t F.PRT_STATUS_ENTRY_PENDING n = 0 ∧ (prtAt t n).entry = none ∧ Keeps [(F.PRT_STATUS_ENTRY_PENDING, n)] s t)
    ∧ (rd s F.PRT_STATUS_STATE n = pHOLD →
      ((prtAt s n).entry = none → (prtAt s n).exit = none → (∀ e, (prtAt s n).entered = some e → e.at' ≠ s.ns) →
        let woken := fun (t : State) => (prtAt t n).exit = some 0 ∧ (prtAt t n).exitAt = s.ns
        (Answers (exec (.holdExit n) s) fun t => woken t ∧ Settled { s with prt := t.prt } t)
        ∧ (isSet s F.PRT_PWR_CFG_WAKE_ON_TRIGGER n = true →
          (∃ p ∈ (pktPortAt s n).trigQ, p.time ≤ s.tb + 200) → Answers (exec (.prtTriggerWake n) s) fun t =>
            woken t ∧ Settled { s with prt := t.prt } t)
        ∧ (∀ soft rest, isSet s F.PRT_PWR_CFG_WAKE_BCN_EN n = true → rd s F.PRT_PWR_CFG_WAKE_BCN_CH n < 48 →
          s.beacons = (rd s F.PRT_PWR_CFG_WAKE_BCN_CH n, 50, soft) :: rest →
          Answers (exec (.prtWakeEvent (rd s F.PRT_PWR_CFG_WAKE_BCN_CH n)) s) fun t => woken t ∧ t.beacons = rest))
      ∧ ((prtAt s n).exit = some 0 → Answers (exec (.holdExited n) s) fun t =>
        rd t F.PRT_STATUS_STATE n = pUP ∧ hasBit t F.PRT_EVT_EVT n 9 = true ∧ (prtAt t n).exit = none))
    ∧ (rd s F.PRT_STATUS_STATE n = pDEEP →
      (Answers (exec (.deepExit n) s) fun t =>
        (prtAt t n).exit = some 1 ∧ (prtAt t n).exitAt = s.ns ∧ Settled { s with prt := t.prt } t)
      ∧ ((prtAt s n).exit = some 1 → Answers (exec (.deepExited n) s) fun t =>
        rd t F.PRT_STATUS_STATE n = (if isSet s F.PRT_STATUS_CLK_PRESENT n then pCLOCK else pNOCLOCK)
        ∧ hasBit t F.PRT_EVT_EVT n 10 = true ∧ (prtAt t n).exit = none ∧ (prtAt t n).t0 = s.ns))
    ∧ (rd s F.PRT_STATUS_STATE n ≠ pSELFTEST →
      (isSet s F.RLY_CFG_EN (n % 4) = true → Answers (exec (.selftest n) s) fun t =>
        rd t F.PRT_SELFTEST_REFUSED n = 1 ∧ Changes [(F.PRT_SELFTEST_REFUSED, n)] s t)
      ∧ (isSet s F.RLY_CFG_EN (n % 4) = false → isSet s F.PRT_STATUS_LINK_UP n = false → Answers (exec (.selftest n) s) fun t =>
        rd t F.PRT_STATUS_STATE n = pSELFTEST ∧ rd t F.RLY_CFG_EN (n % 4) = 1 ∧ rd t F.PRT_SELFTEST_DONE n = 0
        ∧ rd t F.PRT_SELFTEST_PASS n = 0 ∧ rd t F.PRT_SELFTEST_REFUSED n = 0))
    ∧ (∀ pass, rd s F.PRT_STATUS_STATE n = pSELFTEST → prbsOn s n = false → Answers (exec (.selftestDone n pass) s) fun t =>
      rd t F.PRT_SELFTEST_DONE n = 1 ∧ rd t F.PRT_SELFTEST_PASS n = pass % 2 ^ rxLanes s n % 2 ^ F.PRT_SELFTEST_PASS.width
      ∧ hasBit t F.PRT_EVT_EVT n 13 = true ∧ rd t F.RLY_CFG_EN (n % 4) = 0 ∧ rd t F.PRT_STATUS_STATE n = pNOCLOCK)

/-- O31. For a working receive side n and a lane j below 4. PRBS_LOCK and PRBS_LOCK_LOST of an enabled checker of a used lane
with the multiplier locked feed the raw bits to it, inverted where INVERT says so: LOCKED follows the checker, what it
compared while LOCKED and the errors of it count, and a port reports the loss of lock with event 12; PRBS_CLR zeroes the bit and error counts
alone. FOM_UPDATE on a used lane of an UP link stores the FOM, keeps DIP at the greatest of 255 - FOM, and below the alarm
a port reports event 7. PHASE_TRACK_STEP of a lane that samples, with PHASE_AUTO, moves the phase by at most one step, modulo 64. UL_INJ_ONE of a
running uplink counts one injection. RLY_INJ_ONE of a RUNNING relay with its own generator counts one for each selected
lane, with a port as its source it only sets RLY_EVT bit 2. INJ_PERIODIC does so at a relay or an uplink with
an exponent of 4 to 40 that runs. RLY_CLR_COUNTS and PRT_CLR_COUNTS zero their counters. -/
def Obligations.CheckersEqualisersAndInjectionAct : Prop :=
  ∀ s : State,
    (∀ n j, n < 9 → j < 4 → blockWorks s (rxBit n) = true →
      (∀ bits, rxEn s n = true → checkerOn s n j = true → (prtAt s n).mult = true → j ∈ usedLanes s n →
        let sel := laneGet s n j F.PRT_LANE_PRBS_CFG_SEL F.TWN_RX_PRBS_CFG_SEL
        let r := (checkerAt s n j).feed sel (bits.map (· ^^ laneInvert s n j))
        ∀ i ∈ [Instr.prbsLock n j bits, .prbsLockLost n j bits], Answers (exec i s) fun t =>
          checkerAt t n j = r.checker
          ∧ laneGet t n j F.PRT_LANE_PRBS_CFG_LOCKED F.TWN_RX_PRBS_CFG_LOCKED = r.checker.locked.toNat
          ∧ laneGet t n j F.PRT_LANE_PRBS_BITS_COUNT F.TWN_RX_PRBS_BITS_COUNT
            = min (laneGet s n j F.PRT_LANE_PRBS_BITS_COUNT F.TWN_RX_PRBS_BITS_COUNT + r.bits) (2 ^ 64 - 1)
          ∧ laneGet t n j F.PRT_LANE_PRBS_ERR_COUNT F.TWN_RX_PRBS_ERR_COUNT
            = min (laneGet s n j F.PRT_LANE_PRBS_ERR_COUNT F.TWN_RX_PRBS_ERR_COUNT + r.errs) (2 ^ 48 - 1)
          ∧ (n < 8 → r.lost = true → hasBit t F.PRT_EVT_EVT n 12 = true))
      ∧ (Answers (exec (.prbsClr n j) s) fun t =>
        laneGet t n j F.PRT_LANE_PRBS_BITS_COUNT F.TWN_RX_PRBS_BITS_COUNT = 0
        ∧ laneGet t n j F.PRT_LANE_PRBS_ERR_COUNT F.TWN_RX_PRBS_ERR_COUNT = 0
        ∧ Changes (if n = 8 then [(F.TWN_RX_PRBS_BITS_COUNT, 0), (F.TWN_RX_PRBS_ERR_COUNT, 0)]
            else [(F.PRT_LANE_PRBS_BITS_COUNT, 4 * n + j), (F.PRT_LANE_PRBS_ERR_COUNT, 4 * n + j)]) s t)
      ∧ (∀ fom, fom < 256 → rxUp s n = true → rxState s n = pUP → j ∈ usedLanes s n → Answers (exec (.fomUpdate n j fom) s) fun t =>
        let dip := laneGet s n j F.PRT_LANE_FOM_DIP F.TWN_RX_FOM_DIP
        laneGet t n j F.PRT_LANE_FOM_FOM F.TWN_RX_FOM_FOM = fom
        ∧ laneGet t n j F.PRT_LANE_FOM_DIP F.TWN_RX_FOM_DIP = max dip (255 - fom)
        ∧ (n < 8 → fom < rd s F.PRT_EQ_CFG_FOM_ALARM n → hasBit t F.PRT_EVT_EVT n 7 = true))
      ∧ (lanesSample s n = true → phaseAuto s n = true → j ∈ usedLanes s n →
        Answers (exec (.phaseTrackStep n j) s) fun t =>
          let p := laneGet s n j F.PRT_LANE_EQ_PHASE F.TWN_RX_EQ_PHASE
          laneGet t n j F.PRT_LANE_EQ_PHASE F.TWN_RX_EQ_PHASE ∈ [(p + 63) % 64, p, (p + 1) % 64]
          ∧ Keeps [if n = 8 then (F.TWN_RX_EQ_PHASE, 0) else (F.PRT_LANE_EQ_PHASE, 4 * n + j)] s t))
    ∧ (∀ n, n < 8 → blockWorks s (21 + n) = true →
      (ulRunning s n = true → Answers (exec (.ulInjOne n) s) fun t =>
        rd t F.PRT_UL_INJ_CNT_COUNT n = min (rd s F.PRT_UL_INJ_CNT_COUNT n + 1) (2 ^ F.PRT_UL_INJ_CNT_COUNT.width - 1)
        ∧ Keeps [(F.PRT_UL_INJ_CNT_COUNT, n)] s t ∧ Settled { s with regs := t.regs, lines := t.lines } t)
      ∧ (ulRunning s n = true → 4 ≤ rd s F.PRT_UL_CFG_INJ_EXP n → rd s F.PRT_UL_CFG_INJ_EXP n ≤ 40 →
        Answers (exec (.injPeriodic (4 + n)) s) fun t =>
          rd t F.PRT_UL_INJ_CNT_COUNT n = min (rd s F.PRT_UL_INJ_CNT_COUNT n + 1) (2 ^ F.PRT_UL_INJ_CNT_COUNT.width - 1)
          ∧ Keeps [(F.PRT_UL_INJ_CNT_COUNT, n)] s t ∧ Settled { s with regs := t.regs, lines := t.lines } t)
      ∧ (Answers (exec (.prtClrCounts n) s) fun t =>
        (∀ f ∈ [F.PRT_LINKS_COUNT, F.PRT_DOWNS_COUNT, F.PRT_RETRIES_COUNT, F.PRT_CLK_LOSSES_COUNT, F.PRT_UL_PREEMPT_COUNT,
          F.PRT_UL_INJ_CNT_COUNT], rd t f n = 0)
        ∧ ∀ f ∈ [F.PRT_LANE_CODE_ERR_COUNT, F.PRT_LANE_CTRL_ERR_COUNT, F.PRT_LANE_MARKER_ERR_COUNT, F.PRT_LANE_LOCK_LOSS_COUNT,
          F.PRT_LANE_PRBS_ERR_COUNT], ∀ j, j < 4 → rd t f (4 * n + j) = 0))
    ∧ (∀ k, k < 4 → blockWorks s 11 = true →
      (rd s F.RLY_CFG_SRC k = 0 → Answers (exec (.rlyInjOne k) s) fun t =>
        hasBit t F.RLY_EVT_EVT k 2 = true ∧ Changes [(F.RLY_EVT_EVT, k)] s t)
      ∧ (rd s F.RLY_CFG_SRC k ≠ 0 → rd s F.RLY_STATUS_STATE k = 2 →
        (Answers (exec (.rlyInjOne k) s) fun t =>
          rd t F.RLY_INJ_CNT_COUNT k
            = min (rd s F.RLY_INJ_CNT_COUNT k + ((List.range 4).filter fun j => hasBit s F.RLY_INJ_LANES k j).length)
              (2 ^ F.RLY_INJ_CNT_COUNT.width - 1)
          ∧ Keeps [(F.RLY_INJ_CNT_COUNT, k)] s t ∧ Settled { s with regs := t.regs, lines := t.lines } t)
        ∧ (4 ≤ rd s F.RLY_INJ_EXP k → rd s F.RLY_INJ_EXP k ≤ 40 → Answers (exec (.injPeriodic k) s) fun t =>
          rd t F.RLY_INJ_CNT_COUNT k
            = min (rd s F.RLY_INJ_CNT_COUNT k + ((List.range 4).filter fun j => hasBit s F.RLY_INJ_LANES k j).length)
              (2 ^ F.RLY_INJ_CNT_COUNT.width - 1)))
      ∧ (Answers (exec (.rlyClrCounts k) s) fun t =>
        rd t F.RLY_INJ_CNT_COUNT k = 0 ∧ rd t F.RLY_STOPS_COUNT k = 0
        ∧ Changes [(F.RLY_INJ_CNT_COUNT, k), (F.RLY_STOPS_COUNT, k)] s t))

/-- O32. For port n that delivers packets, whose columns bring one whole packet without an error, with a header that decodes
uncorrected, and k the one stream it matches, followed by no other block. An FS packet on an ungated stream with no frame
open and the last FS 500 ns past opens a frame with the stream's SEQ, TB, the frame number, port and channel, and steps
SEQ; with GATING = 2 it is counted out and opens none. A line with a good CRC and the right length of an open frame goes to
the frame's slot of the stream's region, byte for byte, nothing else of LP5X changes, and the frame has one line more; with
a wrong CRC it is also counted. An FE packet within the watchdog's time closes the open frame at TB; with none open it is
an orphan, counted. A short packet of type 4 to 7 is counted unsupported, a header that does not decode is counted failed,
and nothing else of the registers changes. SOP_ABORT, the columns of a packet that a further SOP column cuts, with no frame
open counts the aborted packet. FRAME_WDOG past its time closes the frame TRUNCATED and counts it. -/
def Obligations.FramesOpenTakeLinesAndClose : Prop :=
  ∀ (s : State) (n k : Nat), n < 8 → k < 64 → blockWorks s 10 = true → portDelivers s n = true →
    (∀ (cols : List (List Nat)) (bytes : List Nat) (p : PktHeader), Brings s n cols bytes →
      decodeHdr s n (hdrOf s n bytes) = some p → p.corrected = false → streamsOf s n p.vc = [k] → Unwatched s k →
      (p.dt = 0 → openFrame s k = none →
        (rd s F.PKT_SCFG_GATING k = 0 → rd s F.PKT_SCFG_TRIG_SRC k = 0 → (streamAt s k).trigQ = [] →
          (∀ u, (streamAt s k).lastFs = some u → u + 500 ≤ s.ns) → s.tagQ.length < 4096 → Answers (exec (.pktFs n cols) s) fun t =>
            (∃ f, openFrame t k = some f ∧ f.seq = rd s F.PKT_SEQ_VALUE k ∧ f.tbFs = s.tb ∧ f.fnum = p.wc ∧ f.port = n
              ∧ f.vc = p.vc ∧ f.lines = 0)
            ∧ rd t F.PKT_SEQ_VALUE k = (rd s F.PKT_SEQ_VALUE k + 1) % 2 ^ F.PKT_SEQ_VALUE.width
            ∧ (∀ j, j ≠ k → rd t F.PKT_SEQ_VALUE j = rd s F.PKT_SEQ_VALUE j))
        ∧ (rd s F.PKT_SCFG_GATING k = 2 → Answers (exec (.pktFs n cols) s) fun t =>
            rd t F.PKT_GATED_OUT_COUNT k = min (rd s F.PKT_GATED_OUT_COUNT k + 1) (2 ^ F.PKT_GATED_OUT_COUNT.width - 1)
            ∧ openFrame t k = none ∧ Keeps [(F.PKT_GATED_OUT_COUNT, k)] s t))
      ∧ (p.dt = 1 →
        (∀ f, openFrame s k = some f → f.tent = none → (rd s F.PKT_WDOG_NS k ≠ 0 → s.tb ≤ f.tbFs + rd s F.PKT_WDOG_NS k) →
          Answers (exec (.pktFe n cols) s) fun t =>
          openFrame t k = none ∧ ∃ f' ∈ t.frames, f'.stream = k ∧ f'.seq = f.seq ∧ f'.phase = .closed ∧ f'.tbFe = s.tb)
        ∧ (openFrame s k = none → (streamAt s k).skipped = false → Answers (exec (.pktFe n cols) s) fun t =>
          rd t F.PKT_FE_ORPHAN_COUNT k = min (rd s F.PKT_FE_ORPHAN_COUNT k + 1) (2 ^ F.PKT_FE_ORPHAN_COUNT.width - 1)
          ∧ Keeps [(F.PKT_FE_ORPHAN_COUNT, k)] s t ∧ Settled { s with regs := t.regs, lines := t.lines } t))
      ∧ (∀ f, 0x10 ≤ p.dt → dtFormat p.dt ≠ none →
        isSet s F.PKT_PORT_CFG_REPLY_EN n = false → rd s F.PKT_MAP_DT k = p.dt → openFrame s k = some f → f.tent = none →
        (rd s F.PKT_WDOG_NS k ≠ 0 → s.tb ≤ f.tbFs + rd s F.PKT_WDOG_NS k) → f.learn = false → p.wc = f.lineBytes →
        f.lines < f.height → isSet s F.MEM_SREG_CFG_EN k = true → memReady s = true →
        f.lines * f.lineBytes + p.wc ≤ 2 ^ rd s F.MEM_SREG_CFG_SLOT_LOG2 k → s.storeBuf + p.wc ≤ 2097152 →
        let a := slotAddr s k f.seq + f.lines * f.lineBytes
        let body := bytes.drop (hdrBytes s n)
        a + p.wc ≤ rd s F.MEM_USABLE_VALUE → Answers (exec (.pktLong n cols []) s) fun t =>
          (∀ i, i < p.wc → ramByte t memLP5X t.lp5x (a + i) = BitVec.ofNat 8 (body.getD i 0))
          ∧ (∀ x, ¬ (a ≤ x ∧ x < a + p.wc) → ramByte t memLP5X t.lp5x x = ramByte s memLP5X s.lp5x x)
          ∧ (∃ f', openFrame t k = some f' ∧ f'.seq = f.seq ∧ f'.lines = f.lines + 1 ∧ f'.slots = f.lines + 1)
          ∧ rd t F.MEM_SREG_NEWEST_SEQ k = f.seq % 2 ^ F.MEM_SREG_NEWEST_SEQ.width
          ∧ rd t F.PKT_CRC_ERR_COUNT k = (if leField body p.wc 2 = crcCsi (body.take p.wc) then rd s F.PKT_CRC_ERR_COUNT k
              else min (rd s F.PKT_CRC_ERR_COUNT k + 1) (2 ^ F.PKT_CRC_ERR_COUNT.width - 1)))
      ∧ (4 ≤ p.dt → p.dt < 8 → Answers (exec (.pktShortOther n cols) s) fun t =>
          rd t F.PKT_DT_UNSUP_COUNT n = min (rd s F.PKT_DT_UNSUP_COUNT n + 1) (2 ^ F.PKT_DT_UNSUP_COUNT.width - 1)
          ∧ Keeps [(F.PKT_DT_UNSUP_COUNT, n)] s t ∧ Settled { s with regs := t.regs, lines := t.lines } t))
    ∧ (∀ cols bytes, Brings s n cols bytes → decodeHdr s n (hdrOf s n bytes) = none →
      ∀ i ∈ [Instr.pktFs n cols, .pktFe n cols, .pktShortOther n cols, .pktLong n cols []], Answers (exec i s) fun t =>
        rd t F.PKT_HDR_FAIL_COUNT n = min (rd s F.PKT_HDR_FAIL_COUNT n + 1) (2 ^ F.PKT_HDR_FAIL_COUNT.width - 1)
        ∧ hasBit t F.PKT_PORT_EVT_EVT n 0 = true
        ∧ Keeps [(F.PKT_HDR_FAIL_COUNT, n), (F.PKT_PORT_EVT_EVT, n)] s t)
    ∧ (∀ cols bytes, loopRelay s n = none → (takeColumns s n cols).errs = [] → arrival s n (takeColumns s n cols) = .cut bytes →
      portOpen s n = false → Answers (exec (.sopAbort n cols) s) fun t =>
      rd t F.PKT_ABORTED_COUNT n = min (rd s F.PKT_ABORTED_COUNT n + 1) (2 ^ F.PKT_ABORTED_COUNT.width - 1)
      ∧ hasBit t F.PKT_PORT_EVT_EVT n 3 = true
      ∧ Keeps [(F.PKT_ABORTED_COUNT, n), (F.PKT_PORT_EVT_EVT, n)] s t
      ∧ Settled { s with regs := t.regs, lines := t.lines } t)
    ∧ (∀ f, openFrame s k = some f → f.tent = none → PipelinesOff s → rd s F.PKT_WDOG_NS k ≠ 0 →
      f.tbFs + rd s F.PKT_WDOG_NS k < s.tb → Answers (exec (.frameWdog k) s) fun t =>
        openFrame t k = none ∧ hasBit t F.PKT_SEVT_EVT k 0 = true ∧ hasBit t F.PKT_SEVT_EVT k 1 = true
        ∧ rd t F.PKT_TRUNC_COUNT k = min (rd s F.PKT_TRUNC_COUNT k + 1) (2 ^ F.PKT_TRUNC_COUNT.width - 1)
        ∧ ∃ f' ∈ t.frames, f'.stream = k ∧ f'.seq = f.seq ∧ f'.phase = .closed ∧ f'.flags.testBit flTRUNC = true)

/-- O33. For a working PKT. TAG_FINALISE takes the oldest frame of the stream that may be finalised into the tag queue and
keeps PEAK the greatest depth. TAG_COMPLETE, 125 ns after the last, of a frame that no recipe, gate, burst or delivery
follows releases the first tag of the queue, counts the frame and keeps its tag record as the packet layer filled it. TRIGPKT_SEND takes the one due
packet of an own uplink out of the queue and puts it on the wire at its schedule time + 24 ns. UL_SEND starts a control
packet of at most 256 bytes; once its last bit has left and no trigger packet is due, UL_TX_DONE ends it with event 4; a SEND while one goes only sets event 7. PKT_TRIG_EVENT of a
port's channel queues a packet at TB with the next id. UL_RX_POP drops the oldest reply. PKT_MAP_WRITE enables a free
entry with its port, channel and data type, or with a wrong type sets event 4. LAST_TAG_READ captures the record. The two
CLR_COUNTS zero their counters alone. -/
def Obligations.TagsUplinksAndTheMapAct : Prop :=
  ∀ (s : State), blockWorks s 10 = true →
    (∀ k f, k < 64 → (s.frames.filter fun f => f.stream == k && canFinalise s f).getLast? = some f → s.tagQ.length < 4096 →
      Answers (exec (.tagFinalise k) s) fun t =>
        t.tagQ = s.tagQ ++ [(k, f.seq)]
        ∧ rd t F.PKT_TAG_QUEUE_PEAK = max (rd s F.PKT_TAG_QUEUE_PEAK) (s.tagQ.length + 1) % 2 ^ F.PKT_TAG_QUEUE_PEAK.width
        ∧ (∀ g ∈ t.frames, g.stream = k → g.seq = f.seq → g.tent = none → g.phase = .queued)
        ∧ Keeps [(F.PKT_TAG_QUEUE_PEAK, 0)] s t)
    ∧ (∀ k q rest f, k < 64 → s.tagQ = (k, q) :: rest → s.tagNext ≤ s.ns → frameAt s k q = some f → gateOn s k = false →
      isSet s F.DMA_SDLV_CFG_EN k = false → burstState s k ≠ 2 → (∀ c, c < 8 → (coreAt s c).recipe = none) →
      Answers (exec .tagComplete s) fun t =>
        t.tagQ = rest ∧ t.tagNext = s.ns + 125 ∧ (streamAt t k).lastTag = tagBytes (packetTag f)
        ∧ rd t F.PKT_FRAMES_COUNT k = min (rd s F.PKT_FRAMES_COUNT k + 1) (2 ^ F.PKT_FRAMES_COUNT.width - 1)
        ∧ (∀ g ∈ t.frames, g.stream = k → g.seq = q → g.tent = none → g.phase = .complete))
    ∧ (∀ n, n < 8 →
      (∀ p, (pktPortAt s n).trigQ = [p] → p.time + 24 ≤ s.tb → ownUplink s n = true → Answers (exec (.trigpktSend n) s) fun t =>
        (pktPortAt t n).trigQ = [] ∧ (pktPortAt t n).onWire = some (p.time + 24))
      ∧ (isSet s F.PKT_UL_TXCMD_TX_BUSY n = false → rd s F.PKT_UL_TXBUF_DATA (65 * n) / 65536 % 65536 ≤ 256 →
        isSet s F.PKT_PORT_CFG_TWIN_SRC n = false → Answers (exec (.ulSend n) s) fun t =>
          rd t F.PKT_UL_TXCMD_TX_BUSY n = 1 ∧ Keeps [(F.PKT_UL_TXCMD_TX_BUSY, n)] s t
          ∧ Settled { s with regs := t.regs, pktPorts := t.pktPorts } t)
      ∧ (isSet s F.PKT_UL_TXCMD_TX_BUSY n = true →
        (Answers (exec (.ulSend n) s) fun t =>
          hasBit t F.PKT_PORT_EVT_EVT n 7 = true ∧ Changes [(F.PKT_PORT_EVT_EVT, n)] s t)
        ∧ (∀ t0, ulRunning s n = true → isSet s F.PRT_UL_CFG_PRBS_EN n = false → (pktPortAt s n).ctl = some t0 →
          ulCtlEnd s n t0 ≤ s.tb → duePacket s n = none → Answers (exec (.ulTxDone n) s) fun t =>
            rd t F.PKT_UL_TXCMD_TX_BUSY n = 0 ∧ hasBit t F.PKT_PORT_EVT_EVT n 4 = true ∧ (pktPortAt t n).ctl = none
            ∧ Keeps [(F.PKT_UL_TXCMD_TX_BUSY, n), (F.PKT_PORT_EVT_EVT, n)] s t
            ∧ Settled { s with regs := t.regs, pktPorts := t.pktPorts } t))
      ∧ (∀ ch soft rest, ch < 48 → s.beacons = (ch, 54, soft) :: rest → isSet s F.PKT_PORT_TRIG_EN n = true →
        rd s F.PKT_PORT_TRIG_BCN_CH n = ch → ownUplink s n = true → ulRunning s n = true →
        isSet s F.PRT_UL_CFG_PRBS_EN n = false → (pktPortAt s n).trigQ.length < 8 → Answers (exec (.pktTrigEvent ch) s) fun t =>
          let id := (rd s F.PKT_PORT_TRIG_ID_VALUE n + 1) % 2 ^ 32
          t.beacons = rest ∧ rd t F.PKT_PORT_TRIG_ID_VALUE n = id
          ∧ (pktPortAt t n).trigQ = (pktPortAt s n).trigQ ++ [⟨s.tb, id, none, false⟩])
      ∧ (Answers (exec (.ulRxPop n) s) fun t =>
        (pktPortAt t n).replies = (pktPortAt s n).replies.drop 1 ∧ (pktPortAt t n).trigQ = (pktPortAt s n).trigQ
        ∧ (∀ m, m ≠ n → pktPortAt t m = pktPortAt s m) ∧ Settled { s with pktPorts := t.pktPorts } t)
      ∧ (Answers (exec (.pktPortClrCounts n) s) fun t =>
        (∀ f ∈ pktPortCounters, rd t f n = 0) ∧ Changes (pktPortCounters.map fun f => (f, n)) s t))
    ∧ (∀ k, k < 64 →
      (∀ port vc dt, autoOwned s k = false → isSet s F.PKT_MAP_EN k = false → port < 8 → vc < 32 → dt < 64 →
        (dtFormat dt ≠ none → mapRefused s k port vc dt = false →
          Answers (exec (.pktMapWrite k (1 + 2 * port + 16 * vc + 1024 * dt)) s) fun t =>
            rd t F.PKT_MAP_EN k = 1 ∧ rd t F.PKT_MAP_PORT k = port ∧ rd t F.PKT_MAP_VC k = vc ∧ rd t F.PKT_MAP_DT k = dt
            ∧ Changes [(F.PKT_MAP_EN, k), (F.PKT_MAP_PORT, k), (F.PKT_MAP_VC, k), (F.PKT_MAP_DT, k)] s t)
        ∧ (dtFormat dt = none → Answers (exec (.pktMapWrite k (2 * port + 16 * vc + 1024 * dt)) s) fun t =>
            hasBit t F.PKT_SEVT_EVT k 4 = true ∧ rd t F.PKT_MAP_EN k = 0 ∧ rd t F.PKT_MAP_DT k = rd s F.PKT_MAP_DT k))
      ∧ (Answers (exec (.lastTagRead k) s) fun t =>
        (streamAt t k).lastTagRead = (streamAt s k).lastTag ∧ Settled { s with streams := t.streams } t)
      ∧ (Answers (exec (.pktStreamClrCounts k) s) fun t =>
        (∀ f ∈ pktStreamCounters, rd t f k = 0) ∧ Changes (pktStreamCounters.map fun f => (f, k)) s t))

/-- O34. For pipeline p of a working ISP block. ISP_MODE_WRITE of an OFF pipeline without jobs sets MODE and INLINE_CTX;
of one in another mode a third mode is discarded with event 6; mode OFF turns a pipeline without jobs off. ISP_SUBMIT_GO
while PENDING answers ERR 1, of a disabled context 2, of an unknown frame 3, of a pipeline not SHARED 4, each with event 3
alone; a valid one of a stored, held, closed frame, of a context that merges nothing, sets PENDING, clears ERR and adds one
manual job. ISP_CTX_DISABLE of a context without jobs clears EN alone. LAST_STAT_READ captures the record.
ISP_CTX_CLR_COUNTS zeroes the counters. (Units and their ends: O59.) -/
def Obligations.PipelinesTakeProcessAndEndJobs : Prop :=
  ∀ (s : State) (p : Nat), p < 2 → blockWorks s (12 + p) = true →
    (∀ val,
      (rd s F.ISP_CTL_MODE p = ispOFF → (ispAt s p).jobs = [] → val % 4 < 3 → Answers (exec (.ispModeWrite p val) s) fun t =>
        rd t F.ISP_CTL_MODE p = val % 4 ∧ rd t F.ISP_CTL_INLINE_CTX p = val / 2 ^ 8 % 2 ^ 6
        ∧ Changes [(F.ISP_CTL_MODE, p), (F.ISP_CTL_INLINE_CTX, p)] s t)
      ∧ (rd s F.ISP_CTL_MODE p ≠ ispOFF → val % 4 ≠ ispOFF → val % 4 ≠ rd s F.ISP_CTL_MODE p →
        Answers (exec (.ispModeWrite p val) s) fun t =>
          hasBit t F.ISP_EVT_EVT p 6 = true ∧ Changes [(F.ISP_EVT_EVT, p)] s t)
      ∧ (val % 4 = ispOFF → val / 2 ^ 8 % 2 ^ 6 = rd s F.ISP_CTL_INLINE_CTX p → (ispAt s p).jobs = [] →
        Answers (exec (.ispModeWrite p val) s) fun t =>
          rd t F.ISP_CTL_MODE p = ispOFF ∧ Changes [(F.ISP_CTL_MODE, p)] s t))
    ∧ (∀ mid,
      let c := rd s F.ISP_SUBMIT_CTX p
      let q := rd s F.ISP_SUBMIT_SEQ_SEQ p
      let k := rd s F.ISP_CTX_SRC_STREAM (ctxI p c)
      let refused := fun (e : Nat) => Answers (exec (.ispSubmitGo p mid) s) fun t =>
        rd t F.ISP_SUBMIT_ERR p = e ∧ hasBit t F.ISP_EVT_EVT p 3 = true
        ∧ Changes [(F.ISP_SUBMIT_ERR, p), (F.ISP_EVT_EVT, p)] s t
      (isSet s F.ISP_SUBMIT_PENDING p = true → refused 1)
      ∧ (isSet s F.ISP_SUBMIT_PENDING p = false → isSet s F.ISP_CTX_CFG_EN (ctxI p c) = false → refused 2)
      ∧ (isSet s F.ISP_SUBMIT_PENDING p = false → isSet s F.ISP_CTX_CFG_EN (ctxI p c) = true → ispValidate s p c k = 0 →
        (frameAt s k q = none → refused 3)
        ∧ (∀ f, frameAt s k q = some f → f.phase ≠ .open → held s k q = true →
          (rd s F.ISP_CTL_MODE p ≠ ispSHARED → refused 4)
          ∧ (rd s F.ISP_CTL_MODE p = ispSHARED → mergeForm s p c = 0 → (ispAt s p).jobs = [] →
            Answers (exec (.ispSubmitGo p mid) s) fun t =>
              rd t F.ISP_SUBMIT_PENDING p = 1 ∧ rd t F.ISP_SUBMIT_ERR p = 0
              ∧ (∃ j, (ispAt t p).jobs = [j] ∧ j.ctx = c ∧ j.stream = k ∧ j.seq = q ∧ j.manual = true ∧ j.exps = [(k, q)])
              ∧ Keeps [(F.ISP_SUBMIT_PENDING, p), (F.ISP_SUBMIT_ERR, p)] s t))))
    ∧ (∀ c, c < 64 →
      ((∀ j ∈ (ispAt s p).jobs, j.ctx ≠ c) → Answers (exec (.ispCtxDisable p c) s) fun t =>
        rd t F.ISP_CTX_CFG_EN (ctxI p c) = 0 ∧ Changes [(F.ISP_CTX_CFG_EN, ctxI p c)] s t)
      ∧ (Answers (exec (.ispCtxClrCounts p c) s) fun t =>
        (∀ f ∈ ctxCounters, rd t f (ctxI p c) = 0) ∧ Changes (ctxCounters.map fun f => (f, ctxI p c)) s t))
    ∧ (Answers (exec (.lastStatRead p) s) fun t =>
      (ispAt t p).lastRead = (ispAt s p).lastStat ∧ (ispAt t p).jobs = (ispAt s p).jobs ∧ Settled { s with isp := t.isp } t)

/-- O35. For a working POD block, with no POD_VDT producer enabled. POD_SUB_GO with no run waiting, a list on 64 bytes
below 8 MiB, a non-empty pod mask whose domains and D20 are up, and the next frame (SEQ all ones) answers OK with the next
ID and holds the one run; a mask of zero answers RANGE alone, D20 down ABSENT alone. POD_RUN_BEGIN of the one run, whose
input is ready and pods are free: a record whose CHECK fails ends the run with the error counted, recorded and event 0; an
END record ends it OK, counted; a record that passes its checks is the run's layer. POD_LAYER_DONE of a layer that is no
FRAME layer and writes the band areas, before an END record, ends the run OK, counted, with SPM and LP5X as they were;
where the layer gives the verdict, POD_NET holds keep (1) or reject (2) and the SEQ of the input (no gate follows the run's stream). POD_CLR_COUNTS and
POD_CCMD_CLR_COUNTS zero their counters alone. -/
def Obligations.PodRunsBeginLayersAndEnd : Prop :=
  ∀ s : State, blockWorks s 14 = true → (∀ i, i < 8 → isSet s F.POD_VDT_CFG_EN i = false) →
    let cnt := fun (f : Field) (t : State) => rd t f = min (rd s f + 1) (2 ^ f.width - 1)
    (∀ mid,
      let ra := rd s F.POD_SUB_LIST_VALUE
      let rb := rd s F.POD_SUB_RUN_VALUE
      let formed := ra % 64 = 0 ∧ ra < 0x800000 ∧ rb / 2 ^ 8 % 2 ^ 3 ≤ 4 ∧ rb / 2 ^ 11 % 2 ^ 5 = 0 ∧ rb < 0x400000
        ∧ rd s F.POD_SUB_SEQ_VALUE = 2 ^ 64 - 1
      let answers := fun (st : Nat) => Answers (exec (.podSubGo mid) s) fun t =>
        rd t F.POD_SUB_RES_STATUS = st ∧ rd t F.POD_SUB_RES_ID = 0
        ∧ Changes [(F.POD_SUB_RES_STATUS, 0), (F.POD_SUB_RES_ID, 0)] s t
      (formed → rb % 256 = 0 → answers stRANGE)
      ∧ (formed → rb % 256 ≠ 0 → domUp s 20 = false → answers stABSENT)
      ∧ (formed → rb % 256 ≠ 0 → domUp s 20 = true → (∀ k ∈ podsOf (rb % 256), domUp s (podDomain k) = true) → s.podRuns = [] →
        Answers (exec (.podSubGo mid) s) fun t =>
          rd t F.POD_SUB_RES_STATUS = stOK ∧ rd t F.POD_SUB_RES_ID = s.podNextId % 2 ^ 16
          ∧ t.podNextId = (s.podNextId + 1) % 2 ^ 16
          ∧ (∃ r, t.podRuns = [r] ∧ r.id = s.podNextId ∧ r.list = ra ∧ r.mask = rb % 256 ∧ r.input = rb / 2 ^ 8 % 2 ^ 3
            ∧ r.stream = rb / 2 ^ 16 % 2 ^ 6 ∧ r.seq = none ∧ r.mid = mid ∧ r.begun = false)
          ∧ Keeps [(F.POD_SUB_RES_STATUS, 0), (F.POD_SUB_RES_ID, 0)] s t))
    ∧ (∀ r, s.podRuns = [r] → r.region = none → r.verdict = none → r.ended = none → gateOn s r.stream = false →
      (canBegin s r = true → r.layer = 0 → r.list + 64 ≤ 0x800000 →
        let bs := spmBytes s r.list 64
        let l := Layer.parse bs
        (l.checkOk = false → Answers (exec (.podRunBegin r.id) s) fun t =>
          cnt F.POD_RUNS_ERR_COUNT t ∧ hasBit t F.POD_EVT_EVT 0 0 = true ∧ t.podRuns = []
          ∧ (rd s F.POD_RUN_ERR_CODE = 0 → rd t F.POD_RUN_ERR_CODE = 1 ∧ rd t F.POD_RUN_ERR_LAYER = 0)
          ∧ Keeps [(F.POD_RUNS_ERR_COUNT, 0), (F.POD_EVT_EVT, 0), (F.POD_RUN_ERR_CODE, 0), (F.POD_RUN_ERR_LAYER, 0),
              (F.POD_RUN_ERR_LAYER_ID, 0)] s t)
        ∧ (l.checkOk = true → l.kind = kEND → Answers (exec (.podRunBegin r.id) s) fun t =>
          cnt F.POD_RUNS_OK_COUNT t ∧ t.podRuns = [] ∧ Keeps [(F.POD_RUNS_OK_COUNT, 0)] s t)
        ∧ (l.checkOk = true → l.kind ≠ kEND → layerCheck s r (r.seq.getD 0) l = 0 → Answers (exec (.podRunBegin r.id) s) fun t =>
          t.podRuns = [{ r with begun := true, record := bs, layerId := l.layerId }] ∧ Keeps [] s t))
      ∧ (r.begun = true →
        let l := Layer.parse r.record
        let next := Layer.parse (spmBytes s (r.list + 64 * (r.layer + 1)) 64)
        l.kind ≠ kFRAME → spaceOf l.outAddr = 2 → r.list + 64 * (r.layer + 1) + 64 ≤ 0x800000 → next.checkOk = true →
        next.kind = kEND →
        ∀ ecc : List (Nat × Nat), (l.verdict = false → Answers (exec (.podLayerDone r.id ecc) s) fun t =>
          cnt F.POD_RUNS_OK_COUNT t ∧ t.podRuns = [] ∧ t.spm = s.spm ∧ t.lp5x = s.lp5x)
        ∧ (∀ q, l.verdict = true → r.seq = some q → Answers (exec (.podLayerDone r.id ecc) s) fun t =>
          cnt F.POD_RUNS_OK_COUNT t ∧ t.podRuns = [] ∧ rd t F.POD_NET_VERDICT_VERDICT r.stream ∈ [1, 2]
          ∧ rd t F.POD_NET_SEQ_SEQ r.stream = q % 2 ^ 48)))
    ∧ (∀ k, k < 8 → Answers (exec (.podClrCounts k) s) fun t =>
      rd t F.POD_ACC_SAT_COUNT k = 0 ∧ rd t F.POD_OUT_SAT_COUNT k = 0
      ∧ Changes [(F.POD_ACC_SAT_COUNT, k), (F.POD_OUT_SAT_COUNT, k)] s t)
    ∧ (Answers (exec .podCcmdClrCounts s) fun t =>
      (∀ f ∈ podCounters, rd t f = 0) ∧ Changes (podCounters.map fun f => (f, 0)) s t)

/-- O36. For the gate of stream k of a working POD block. GATE_CFG_WRITE with EN of a disabled gate, every field in its
range and no AUTO_RUN without pods, sets the fields and EN and takes the master that wrote it; on an enabled gate a write
that changes another field is discarded with event 4 alone; a write that clears EN alone, with no frame tracked, disables
the gate. GATE_DEADLINE of the one tracked frame without a verdict of its own, past TB_FE + DEADLINE, with no run and no
producer, gives the frame the deadline outcome 5: final, kept under POLICY keep, rejected and counted under POLICY reject,
with POD_FINAL holding it. GATE_CLR_COUNTS zeroes the gate's counters alone. -/
def Obligations.GatesTakeTheDeadlineOutcome : Prop :=
  ∀ (s : State) (k : Nat), k < 64 → blockWorks s 14 = true →
    let cnt := fun (f : Field) (t : State) => rd t f k = min (rd s f k + 1) (2 ^ f.width - 1)
    (∀ mid val, val.testBit 31 = false →
      (gateOn s k = false → val.testBit 0 = true →
        (∀ f ∈ gateFields, f.least ≤ bitsOf val f.lo f.width ∧ bitsOf val f.lo f.width ≤ f.greatest) →
        (val.testBit 3 = true → val / 2 ^ 8 % 2 ^ 8 ≠ 0) → Answers (exec (.gateCfgWrite mid k val) s) fun t =>
          isSet t F.POD_GATE_CFG_EN k = true ∧ (∀ f ∈ gateFields, rd t f k = val / 2 ^ f.lo % 2 ^ f.width)
          ∧ sget t.gateMid 1 k = mid ∧ Keeps ((F.POD_GATE_CFG_EN :: gateFields).map fun f => (f, k)) s t
          ∧ Settled { s with regs := t.regs, gateMid := t.gateMid } t)
      ∧ (gateOn s k = true → val.testBit 0 = true → (∃ f ∈ gateFields, bitsOf val f.lo f.width ≠ rd s f k) →
        Answers (exec (.gateCfgWrite mid k val) s) fun t =>
          hasBit t F.POD_EVT_EVT 0 4 = true ∧ Changes [(F.POD_EVT_EVT, 0)] s t)
      ∧ (gateOn s k = true → val.testBit 0 = false → (∀ f ∈ gateFields, bitsOf val f.lo f.width = rd s f k) →
        (∀ u ∈ s.tracked, u.stream ≠ k) → Answers (exec (.gateCfgWrite mid k val) s) fun t =>
          gateOn t k = false ∧ Keeps [(F.POD_GATE_CFG_EN, k)] s t))
    ∧ (∀ u f, s.tracked = [u] → u.stream = k → u.own = none → frameAt s k u.seq = some f → s.podRuns = [] →
      (∀ i, i < 8 → isSet s F.POD_VDT_CFG_EN i = false) → u.tbFe + rd s F.POD_GATE_DEADLINE_NS k ≤ s.tb →
      Answers (exec (.gateDeadline k u.seq) s) fun t =>
        (∃ f', frameAt t k u.seq = some f' ∧ f'.verdict = 5 ∧ f'.final = true ∧ f'.reject = policyReject s k)
        ∧ t.tracked = [] ∧ cnt F.POD_GATE_DL_OUT_COUNT t ∧ rd t F.POD_FINAL_VERDICT k = 5
        ∧ rd t F.POD_FINAL_SEQ_SEQ k = u.seq % 2 ^ 48
        ∧ (if policyReject s k then cnt F.POD_GATE_REJECT_COUNT t
          else rd t F.POD_GATE_REJECT_COUNT k = rd s F.POD_GATE_REJECT_COUNT k)
        ∧ Keeps [(F.POD_GATE_DL_OUT_COUNT, k), (F.POD_FINAL_VERDICT, k), (F.POD_FINAL_SEQ_SEQ, k), (F.POD_GATE_REJECT_COUNT, k)] s t)
    ∧ (Answers (exec (.gateClrCounts k) s) fun t =>
      let fs := [F.POD_GATE_KEEP_COUNT, F.POD_GATE_REJECT_COUNT, F.POD_GATE_FORCED_COUNT, F.POD_GATE_DL_OUT_COUNT,
        F.POD_GATE_LATE_COUNT]
      (∀ f ∈ fs, rd t f k = 0) ∧ Changes (fs.map fun f => (f, k)) s t)

/-- O37. For a working MEM block. MEM_TRAIN sets STATE to TRAINING (1) alone. MEM_TRAIN_DONE during training, of a capacity
of 8, 16, 32 or 64 GiB, with all eight channels trained sets READY (2), CH_OK, the installed GiB, USABLE (all of it, or 7/8
with in-line ECC) and event 0; with a channel failed, FAILED (3), CH_OK and event 1. MEM_REFRESH changes nothing. BURST_ARM
arms an idle stream alone; BURST_DISARM returns it to idle alone. FREEZE_NOW of an armed stream of which no frame started in
this cycle records TB and the stream's SEQ, gates the stream out, freezes it with event 4 and reports the frames held before
the event, at most PRE; of a post-event or frozen stream it counts an extra event alone. BURST_END_EVENT that only stream k
names delivers the event and, with POST above 0, moves the armed stream to POST with TB and SEQ recorded. MEM_CLR_COUNTS
zeroes the counters. -/
def Obligations.MemoryTrainsAndBurstsFreeze : Prop :=
  ∀ s : State, blockWorks s 17 = true →
    (Answers (exec .memTrain s) fun t => rd t F.MEM_STATUS_STATE = 1 ∧ Changes [(F.MEM_STATUS_STATE, 0)] s t)
    ∧ (∀ chOk gib, rd s F.MEM_STATUS_STATE = 1 → gib ∈ [8, 16, 32, 64] → Answers (exec (.memTrainDone chOk gib) s) fun t =>
      rd t F.MEM_STATUS_CH_OK = chOk % 256
      ∧ (chOk % 256 = 255 → rd t F.MEM_STATUS_STATE = 2 ∧ rd t F.GLB_CAP_MEM_GIB = gib % 256
        ∧ hasBit t F.MEM_EVT_EVT 0 0 = true
        ∧ rd t F.MEM_USABLE_VALUE
          = (if isSet s F.MEM_CFG_INLINE_ECC then gib * 2 ^ 27 * 7 else gib * 2 ^ 30) % 2 ^ F.MEM_USABLE_VALUE.width)
      ∧ (chOk % 256 ≠ 255 → rd t F.MEM_STATUS_STATE = 3 ∧ hasBit t F.MEM_EVT_EVT 0 1 = true)
      ∧ Changes [(F.MEM_STATUS_CH_OK, 0), (F.MEM_STATUS_STATE, 0), (F.GLB_CAP_MEM_GIB, 0), (F.MEM_USABLE_VALUE, 0),
          (F.MEM_EVT_EVT, 0)] s t)
    ∧ (Answers (exec .memRefresh s) fun t => Settled s t)
    ∧ (Answers (exec .memClrCounts s) fun t =>
      rd t F.MEM_LINK_CORR_COUNT = 0 ∧ rd t F.MEM_INLINE_CORR_COUNT = 0 ∧ rd t F.MEM_UNCORR_COUNT = 0
      ∧ ∀ k, k < 64 → rd t F.MEM_SREG_DROPPED_COUNT k = 0 ∧ rd t F.MEM_BURST_EXTRA_COUNT k = 0)
    ∧ (∀ k, k < 64 →
      (burstState s k = 0 → Answers (exec (.burstArm k) s) fun t =>
        burstState t k = 1 ∧ Changes [(F.MEM_BURST_CFG_STATE, k)] s t)
      ∧ (burstState s k ≠ 0 → Answers (exec (.burstArm k) s) fun t => Settled s t)
      ∧ (Answers (exec (.burstDisarm k) s) fun t => burstState t k = 0 ∧ Changes [(F.MEM_BURST_CFG_STATE, k)] s t)
      ∧ (burstState s k = 1 → (∀ f ∈ s.frames, f.stream = k → f.nsFs ≠ s.ns) → (∀ i, i < 4 → isSet s F.MEM_FRZ_CFG_EN i = false) →
        Answers (exec (.freezeNow k) s) fun t =>
        burstState t k = 3 ∧ rd t F.MEM_BURST_EVENT_TB_VALUE k = s.tb % 2 ^ 64
        ∧ rd t F.MEM_BURST_EVENT_SEQ_VALUE k = rd s F.PKT_SEQ_VALUE k ∧ rd t F.PKT_SCFG_GATING k = 2
        ∧ rd t F.MEM_BURST_PRE_HELD_VALUE k = min (rd s F.MEM_BURST_PRE_VALUE k) (heldBelow s k (rd s F.PKT_SEQ_VALUE k))
        ∧ isSet t F.MEM_SREG_CFG_FROZEN_SEEN k = true ∧ hasBit t F.MEM_EVT_EVT 0 4 = true
        ∧ Keeps [(F.MEM_BURST_CFG_STATE, k), (F.MEM_BURST_EVENT_TB_VALUE, k), (F.MEM_BURST_EVENT_SEQ_VALUE, k),
            (F.PKT_SCFG_GATING, k), (F.MEM_BURST_PRE_HELD_VALUE, k), (F.MEM_SREG_CFG_FROZEN_SEEN, k), (F.MEM_EVT_EVT, 0)] s t)
      ∧ (2 ≤ burstState s k → Answers (exec (.freezeNow k) s) fun t =>
        rd t F.MEM_BURST_EXTRA_COUNT k = min (rd s F.MEM_BURST_EXTRA_COUNT k + 1) (2 ^ F.MEM_BURST_EXTRA_COUNT.width - 1)
        ∧ Changes [(F.MEM_BURST_EXTRA_COUNT, k)] s t)
      ∧ (∀ ch soft rest, ch < 48 → s.beacons = (ch, 48, soft) :: rest → domUp s 22 = true → burstState s k = 1 →
        (∀ f ∈ s.frames, f.stream = k → f.nsFs ≠ s.ns) → rd s F.MEM_BURST_CFG_END_CH k = ch → (∀ j, j < 64 → j ≠ k → rd s F.MEM_BURST_CFG_END_CH j ≠ ch) →
        0 < rd s F.MEM_BURST_POST_VALUE k → Answers (exec (.burstEndEvent ch) s) fun t =>
          burstState t k = 2 ∧ rd t F.MEM_BURST_EVENT_TB_VALUE k = s.tb % 2 ^ 64
          ∧ rd t F.MEM_BURST_EVENT_SEQ_VALUE k = rd s F.PKT_SEQ_VALUE k ∧ burstPostOf t k = rd s F.MEM_BURST_POST_VALUE k
          ∧ t.beacons = rest ∧ hasBit t F.BCN_FIRED_CH 0 ch = true))

/-- O38. For a working DMA engine. DMA_SUB_GO answers the result word of the checks: a refused descriptor leaves the queue
alone, an accepted one enters it with the next ID. PAUSE sets the channel paused with event 4; RESUME of a channel that
moves nothing ends PAUSE and DRAIN; DRAIN of a channel without descriptors sets event 5 and is over, with descriptors it
drains. DMA_CH_CLR_COUNTS zeroes the channel's counters alone. -/
def Obligations.DmaSubmissionsAndChannelCommandsAct : Prop :=
  ∀ s : State, blockWorks s 16 = true →
    (∀ mid,
      let d := newDesc mid ((List.range 16).flatMap fun k => toBytes 4 (rd s F.DMA_SUB_DESC_DATA k)) none none
      (∀ a, dmaAnswer s d = some a → a < 256 → Answers (exec (.dmaSubGo mid) s) fun t =>
        rd t F.DMA_SUB_RES_RESULT = a ∧ Changes [(F.DMA_SUB_RES_RESULT, 0)] s t)
      ∧ (dmaAnswer s d = none → Answers (exec (.dmaSubGo mid) s) fun t =>
        rd t F.DMA_SUB_RES_RESULT = s.dmaNextId % 2 ^ 16 * 2 ^ 16 ∧ t.descs = s.descs ++ [{ d with id := s.dmaNextId }]
        ∧ t.dmaNextId = (s.dmaNextId + 1) % 2 ^ 16 ∧ Keeps [(F.DMA_SUB_RES_RESULT, 0), (F.DMA_INFLIGHT_PEAK, 0)] s t))
    ∧ (∀ c, c < 64 →
      (Answers (exec (.dmaPause c) s) fun t =>
        dmaChAt t c = { dmaChAt s c with paused := true } ∧ (∀ e, e ≠ c → dmaChAt t e = dmaChAt s e)
        ∧ hasBit t F.DMA_CH_EVT_EVT c 4 = true ∧ Keeps [(F.DMA_CH_EVT_EVT, c)] s t)
      ∧ (activeDesc s c = none → Answers (exec (.dmaResume c) s) fun t =>
        dmaChAt t c = DmaCh.init ∧ (∀ e, e ≠ c → dmaChAt t e = dmaChAt s e) ∧ Settled { s with dmaCh := t.dmaCh } t)
      ∧ ((∀ d ∈ s.descs, d.chan ≠ c) → Answers (exec (.dmaDrain c) s) fun t =>
        dmaChAt t c = DmaCh.init ∧ hasBit t F.DMA_CH_EVT_EVT c 5 = true ∧ Keeps [(F.DMA_CH_EVT_EVT, c)] s t)
      ∧ ((∃ d ∈ s.descs, d.chan = c) → Answers (exec (.dmaDrain c) s) fun t =>
        dmaChAt t c = ⟨false, true⟩ ∧ Settled { s with dmaCh := t.dmaCh } t)
      ∧ (Answers (exec (.dmaChClrCounts c) s) fun t =>
        (∀ f ∈ dmaCounters, rd t f c = 0) ∧ Changes (dmaCounters.map fun f => (f, c)) s t))

/-- O39. For mailbox m of a reachable MBX block without MBX_P producers. MBX_DATA_WRITE by the bound sender of an empty
mailbox whose receiver (not the twin) has power stores the word with its instant, sets FULL, steps MSGCOUNT, and the
mailbox's RXPEND bit where the receiver is the PF; a receiver whose domain is down gets WAKING and its domain held; of a
full one it counts an overrun, sets SEND_OVERRUN and event 0, and the word stays; by a master that is not bound (and not
open) it counts a refusal with event 2 alone. MBX_DATA_READ by the bound receiver of a word that the twin did not send
empties the mailbox; of an empty one nothing changes. MBX_WITHDRAW by the sender empties it. MBX_BIND_WRITE by PF or
keeper of a valid new binding sets it; while locked it sets event 3 alone. MBX_TIMEOUT of a full, not waking mailbox past
its time, which no core waits for, sets TIMEOUT, counts, sets event 1, and the word stays. MBX_CLR_COUNTS zeroes the
counters. -/
def Obligations.MailboxesSendReceiveAndTimeOut : Prop :=
  ∀ (s : State) (m : Nat), m < 64 → blockReach s 3 = true →
    (∀ i, i < 8 → isSet s F.MBX_PROD_CFG_EN i = false) →
    let cnt := fun (f : Field) (i : Nat) (t : State) => rd t f i = min (rd s f i + 1) (2 ^ f.width - 1)
    let r := rd s F.MBX_BIND_RECEIVER m
    let empties := fun (i : Instr) => Answers (exec i s) fun t =>
      isSet t F.MBX_STAT_FULL m = false ∧ mbxAt t m = ⟨0, 0⟩ ∧ (∀ n, n ≠ m → mbxAt t n = mbxAt s n)
      ∧ Keeps [(F.MBX_STAT_FULL, m)] s t
    (∀ mid word, isSender s mid m = true →
      (isSet s F.MBX_STAT_FULL m = false → r ≠ 0x18 →
        (let stores := fun (t : State) => mbxAt t m = ⟨word % 2 ^ 32, s.tb⟩ ∧ (∀ n, n ≠ m → mbxAt t n = mbxAt s n)
          ∧ isSet t F.MBX_STAT_FULL m = true ∧ rd t F.MBX_STAT_MSGCOUNT m = (rd s F.MBX_STAT_MSGCOUNT m + 1) % 2 ^ 16
         ((∀ d, receiverDomain r = some d → domGood s d = true) → Answers (exec (.mbxDataWrite mid m word false) s) fun t =>
           stores t ∧ (r = 0x01 → hasBit t F.MBX_RXPEND_MB 0 m = true)
           ∧ Keeps [(F.MBX_STAT_FULL, m), (F.MBX_STAT_MSGCOUNT, m), (F.MBX_RXPEND_MB, 0)] s t)
         ∧ (∀ d, receiverDomain r = some d → domGood s d = false → Answers (exec (.mbxDataWrite mid m word false) s) fun t =>
           stores t ∧ isSet t F.MBX_STAT_WAKING m = true ∧ hasBit t F.PWR_WAKE_HELD_DOMAINS 0 d = true)))
      ∧ (isSet s F.MBX_STAT_FULL m = true → Answers (exec (.mbxDataWrite mid m word false) s) fun t =>
        cnt F.MBX_OVR_CNT_COUNT m t ∧ isSet t F.MBX_STAT_SEND_OVERRUN m = true ∧ hasBit t F.MBX_EVT_EVT 0 0 = true
        ∧ Changes [(F.MBX_OVR_CNT_COUNT, m), (F.MBX_STAT_SEND_OVERRUN, m), (F.MBX_EVT_EVT, 0)] s t)
      ∧ (isSet s F.MBX_STAT_FULL m = true → r ≠ 0x18 → empties (.mbxWithdraw mid m false))
      ∧ (isSet s F.MBX_STAT_FULL m = false → Answers (exec (.mbxWithdraw mid m false) s) fun t => Settled s t))
    ∧ (∀ mid word, isOpen mid = false → isSender s mid m = false →
      ∀ i ∈ [Instr.mbxDataWrite mid m word false, Instr.mbxWithdraw mid m false], Answers (exec i s) fun t =>
        cnt F.MBX_REFUSED_COUNT 0 t ∧ hasBit t F.MBX_EVT_EVT 0 2 = true
        ∧ Changes [(F.MBX_REFUSED_COUNT, 0), (F.MBX_EVT_EVT, 0)] s t)
    ∧ (∀ mid, isReceiver s mid m = true →
      (isSet s F.MBX_STAT_FULL m = true → rd s F.MBX_BIND_SENDER m ≠ 0x18 → empties (.mbxDataRead mid m))
      ∧ (isSet s F.MBX_STAT_FULL m = false → Answers (exec (.mbxDataRead mid m) s) fun t => Settled s t))
    ∧ (∀ mid val,
      let a := F.MBX_BIND_SENDER.bits val
      let b := F.MBX_BIND_RECEIVER.bits val
      let x := F.MBX_BIND_ATTR.bits val
      (a ≠ rd s F.MBX_BIND_SENDER m ∨ b ≠ r ∨ x ≠ rd s F.MBX_BIND_ATTR m) →
      (isSet s F.KL_LOCKS_MBX = false → ruler mid = true → bindBad s m a b x = false →
        Answers (exec (.mbxBindWrite mid m val) s) fun t =>
          rd t F.MBX_BIND_SENDER m = a ∧ rd t F.MBX_BIND_RECEIVER m = b ∧ rd t F.MBX_BIND_ATTR m = x
          ∧ Changes [(F.MBX_BIND_SENDER, m), (F.MBX_BIND_RECEIVER, m), (F.MBX_BIND_ATTR, m)] s t)
      ∧ (isSet s F.KL_LOCKS_MBX = true ∨ ruler mid = false → Answers (exec (.mbxBindWrite mid m val) s) fun t =>
        hasBit t F.MBX_EVT_EVT 0 3 = true ∧ Changes [(F.MBX_EVT_EVT, 0)] s t))
    ∧ (mbxDue s m = true → s.tb < 2 ^ 64 → (∀ c, c < 8 → ∀ d, (coreAt s c).stall ≠ .syncSend m d) → Answers (exec (.mbxTimeout m false) s) fun t =>
      isSet t F.MBX_STAT_TIMEOUT m = true ∧ cnt F.MBX_TMO_CNT_COUNT m t ∧ hasBit t F.MBX_EVT_EVT 0 1 = true
      ∧ (mbxAt t m).word = (mbxAt s m).word ∧ mbxDue t m = false
      ∧ Keeps [(F.MBX_STAT_TIMEOUT, m), (F.MBX_TMO_CNT_COUNT, m), (F.MBX_EVT_EVT, 0)] s t)
    ∧ (Answers (exec .mbxClrCounts s) fun t =>
      rd t F.MBX_REFUSED_COUNT = 0 ∧ ∀ n, n < 64 → rd t F.MBX_OVR_CNT_COUNT n = 0 ∧ rd t F.MBX_TMO_CNT_COUNT n = 0)

/-- O40. For channel ch of a reachable BCN block. BCN_FIRE_WRITE of that bit by a master that the channel admits, enabled
and not owner-only, with a consumer below 55, sets the BCN_FIRE bit and puts the event into the matrix; of a disabled
channel it counts a refusal with event 1 alone. BCN_CFG_WRITE by a master that may (a ruler, or the owner) that keeps
OWNER and ATTR sets EN, CONSUMER and FIRE_OWNER_ONLY; one by a master that may not, or with a consumer above 95, counts a
refusal with event 2 alone; a ruler also sets OWNER and ATTR unless they are locked. PWR_WAKE_EVENT holds exactly the
domains of BCN_WAKE besides those held. KEEP_IRQ_EVENT sets the KEEP_IRQ latch; while it stands the event is an overrun.
TWN_SEND_EVENT of a carrying link with no BCN packet waiting queues one that names the channel. Each delivered event
leaves the matrix and is counted. BCN_CLR_COUNTS zeroes the counters. -/
def Obligations.BeaconsFireAndAreConsumed : Prop :=
  ∀ (s : State) (ch : Nat), ch < 48 →
    let cnt := fun (f : Field) (i : Nat) (t : State) => rd t f i = min (rd s f i + 1) (2 ^ f.width - 1)
    (blockReach s 2 = true →
      (∀ mid,
        (admits (rd s F.BCN_CH_CFG_ATTR ch) mid = true → isSet s F.BCN_CH_CFG_EN ch = true →
          isSet s F.BCN_CH_CFG_FIRE_OWNER_ONLY ch = false → rd s F.BCN_CH_CFG_CONSUMER ch < 55 →
          Answers (exec (.bcnFireWrite mid (2 ^ ch)) s) fun t =>
            t.beacons = s.beacons ++ [(ch, rd s F.BCN_CH_CFG_CONSUMER ch, true)] ∧ hasBit t F.BCN_FIRE_CH 0 ch = true
            ∧ Keeps [(F.BCN_FIRE_CH, 0)] s t)
        ∧ (admits (rd s F.BCN_CH_CFG_ATTR ch) mid = true → isSet s F.BCN_CH_CFG_EN ch = false →
          Answers (exec (.bcnFireWrite mid (2 ^ ch)) s) fun t =>
            cnt F.BCN_FIRE_REFUSED_COUNT 0 t ∧ hasBit t F.BCN_EVT_EVT 0 1 = true
            ∧ Changes [(F.BCN_FIRE_REFUSED_COUNT, 0), (F.BCN_EVT_EVT, 0)] s t))
      ∧ (∀ mid val,
        let x := F.BCN_CH_CFG_CONSUMER.bits val
        let o := F.BCN_CH_CFG_OWNER.bits val
        let a := F.BCN_CH_CFG_ATTR.bits val
        let sets := fun (t : State) => rd t F.BCN_CH_CFG_EN ch = val % 2 ∧ rd t F.BCN_CH_CFG_CONSUMER ch = x
          ∧ rd t F.BCN_CH_CFG_FIRE_OWNER_ONLY ch = val / 2 ^ 14 % 2
        let keys := [(F.BCN_CH_CFG_EN, ch), (F.BCN_CH_CFG_CONSUMER, ch), (F.BCN_CH_CFG_FIRE_OWNER_ONLY, ch)]
        (bcnMay s mid ch = true → x ≤ 95 →
          (o = rd s F.BCN_CH_CFG_OWNER ch → a = rd s F.BCN_CH_CFG_ATTR ch → Answers (exec (.bcnCfgWrite mid ch val) s) fun t =>
            sets t ∧ Changes keys s t)
          ∧ (ruler mid = true → isSet s F.KL_LOCKS_BCN = false → Answers (exec (.bcnCfgWrite mid ch val) s) fun t =>
            sets t ∧ rd t F.BCN_CH_CFG_OWNER ch = o ∧ rd t F.BCN_CH_CFG_ATTR ch = a
            ∧ Changes ((F.BCN_CH_CFG_OWNER, ch) :: (F.BCN_CH_CFG_ATTR, ch) :: keys) s t))
        ∧ (bcnMay s mid ch = false ∨ 95 < x → Answers (exec (.bcnCfgWrite mid ch val) s) fun t =>
          cnt F.BCN_CFG_REFUSED_COUNT 0 t ∧ hasBit t F.BCN_EVT_EVT 0 2 = true
          ∧ Changes [(F.BCN_CFG_REFUSED_COUNT, 0), (F.BCN_EVT_EVT, 0)] s t))
      ∧ (Answers (exec .bcnClrCounts s) fun t =>
        rd t F.BCN_FIRE_REFUSED_COUNT = 0 ∧ rd t F.BCN_CFG_REFUSED_COUNT = 0 ∧ ∀ c, c < 48 → rd t F.BCN_FIRES_COUNT c = 0))
    ∧ (∀ soft rest,
      let taken := fun (t : State) => t.beacons = rest ∧ cnt F.BCN_FIRES_COUNT ch t ∧ hasBit t F.BCN_FIRED_CH 0 ch = true
      (s.beacons = (ch, 51, soft) :: rest → Answers (exec (.pwrWakeEvent ch) s) fun t =>
        taken t ∧ ∀ d, d < 24 → hasBit t F.PWR_WAKE_HELD_DOMAINS 0 d
          = (hasBit s F.PWR_WAKE_HELD_DOMAINS 0 d || hasBit s F.BCN_WAKE_DOMAINS ch d))
      ∧ (s.beacons = (ch, 52, soft) :: rest → Answers (exec (.keepIrqEvent ch) s) fun t =>
        taken t ∧ t.keepIrq = true
        ∧ (s.keepIrq = true → hasBit t F.BCN_OVR_CONSUMER 1 20 = true ∧ hasBit t F.BCN_EVT_EVT 0 0 = true))
      ∧ (s.beacons = (ch, 53, soft) :: rest → twnCarries s = true → (∀ p ∈ s.twn.txq, p.1 ≠ tpBCN) →
        Answers (exec (.twnSendEvent ch) s) fun t => taken t ∧ t.twn.txq = s.twn.txq ++ [(tpBCN, [ch, 0])]))

/-- O41. For a twin block without TWN producers. TWN_CTL_WRITE with EN from OFF enters SEARCH, not driving; clearing EN in
HANDSHAKE, ALIGN, LEAD or WATCH is discarded with event 13 alone; in SEARCH, SOLO, RELEASED or MISMATCH it leads to OFF,
driving. TWN_HELLO of an enabled device with a valid image hash takes its hash, queues HELLO and enters HANDSHAKE; without
one the hash engine starts first. TWN_RELEASE: the watch sends ROLE RELEASE and is RELEASED with event 7; the lead offers
a handover at a quiet TB at least 10 us ahead; else event 13 alone. TWN_FCG_SYNC of the watch asks for each running FCG.
SEARCH times out to SOLO. A handover that is acknowledged and due releases the lead and makes the watch SOLO; one not
acknowledged by 2 us before is cancelled. TAKEOVER_DRIVE 5 us after the confirmation drives, counted, with event 5. A line
miss counts with event 4, and confirms the lead's failure, at this TB, where foghorns are lost. A drive fight counts with event 6, and
rank 1 darkens its shared outputs. A missed foghorn counts; at the limit the foghorns are lost: a lead is SOLO. A foghorn
and a TBSYNC request leave when due. CLR_COUNTS zeroes the counters. -/
def Obligations.TwinActsByItsState : Prop :=
  ∀ s : State, (∀ i, i < 8 → isSet s F.TWN_PROD_CFG_EN i = false) →
    let st := twnState s
    let cnt := fun (f : Field) (t : State) => rd t f = min (rd s f + 1) (2 ^ f.width - 1)
    let evt := fun (t : State) (b : Nat) => hasBit t F.TWN_EVT_EVT 0 b = true
    let sends := fun (t : State) (ty : Nat) (p : List Nat) => twnCarries s = true → t.twn.txq = s.twn.txq ++ [(ty, p)]
    let only13 := fun (i : Instr) => Answers (exec i s) fun t => evt t 13 ∧ Changes [(F.TWN_EVT_EVT, 0)] s t
    (blockReach s 5 = true →
      (∀ val,
        (st = twOFF → isSet s F.TWN_CTL_EN = false → val.testBit 0 = true → val / 2 ^ 2 % 2 ^ 4 = rd s F.TWN_CTL_MISS_LIMIT →
          Answers (exec (.twnCtlWrite val) s) fun t =>
            twnState t = twSEARCH ∧ rd t F.TWN_CTL_EN = 1 ∧ rd t F.TWN_CTL_SOLO_OK = val / 2 % 2 ∧ rd t F.TWN_STATUS_DRIVING = 0
            ∧ t.twn.searchAt = s.ns)
        ∧ (st ∈ [twHANDSHAKE, twALIGN, twLEAD, twWATCH] → val.testBit 0 = false → only13 (.twnCtlWrite val))
        ∧ (st ∈ [twSEARCH, twSOLO, twRELEASED, twMISMATCH] → isSet s F.TWN_CTL_EN = true → val.testBit 0 = false →
          val / 2 ^ 2 % 2 ^ 4 = rd s F.TWN_CTL_MISS_LIMIT → Answers (exec (.twnCtlWrite val) s) fun t =>
            twnState t = twOFF ∧ rd t F.TWN_CTL_EN = 0 ∧ rd t F.TWN_STATUS_DRIVING = 1))
      ∧ (isSet s F.TWN_CTL_EN = true →
        (isSet s F.SQ_HASH_CTL_VALID = true → twnDriver st = false → s.twn.peer = none →
          Answers (exec .twnHello s) fun t =>
            rd t F.TWN_CFG_HASH_VALUE = cfgHash s % 2 ^ 64 ∧ twnState t = twHANDSHAKE ∧ t.twn.ownState = some st
            ∧ sends t tpHELLO (helloBytes s st))
        ∧ (isSet s F.SQ_HASH_CTL_VALID = false → domUp s 21 = true → s.hashDue = none → Answers (exec .twnHello s) fun t =>
          t.twn.helloWait = true ∧ t.hashDue = some (s.ns + 40960) ∧ twnState t = st))
      ∧ (st = twWATCH → Answers (exec .twnRelease s) fun t =>
        twnState t = twRELEASED ∧ evt t 7 ∧ rd t F.TWN_STATUS_DRIVING = 0 ∧ sends t tpROLE ([3, 0, 0, 0] ++ toBytes 8 0))
      ∧ (st = twLEAD → s.twn.handover = none → Answers (exec .twnRelease s) fun t =>
        ∃ T, s.tb + 10000 ≤ T ∧ sharedQuiet s T = true ∧ t.twn.handover = some ⟨T, true, false, false⟩
          ∧ rd t F.TWN_STATUS_HANDOVER_PENDING = 1 ∧ twnState t = twLEAD ∧ sends t tpROLE ([1, 0, 0, 0] ++ toBytes 8 T))
      ∧ (st ≠ twWATCH → st ≠ twLEAD → only13 .twnRelease)
      ∧ (st = twWATCH → twnCarries s = true → Answers (exec .twnFcgSync s) fun t =>
        t.twn.txq = s.twn.txq ++ ((List.range 4).filter (fcgRuns s)).map (fun g => (tpFCGSTATE, g :: List.replicate 35 0))
        ∧ Settled { s with twn := t.twn } t)
      ∧ (Answers (exec .twnClrCounts s) fun t =>
        (∀ f ∈ twnCounters, rd t f = 0) ∧ Changes (twnCounters.map fun f => (f, 0)) s t))
    ∧ (blockWorks s 5 = true →
      (st = twSEARCH → isSet s F.TWN_CTL_SOLO_OK = true → isSet s F.TWN_STATUS_LINK_UP = false →
        s.twn.searchAt + 1000000 * rd s F.TWN_SEARCH_MS_MS ≤ s.ns → Answers (exec .twnSearchTimeout s) fun t =>
          twnState t = twSOLO ∧ rd t F.TWN_STATUS_DRIVING = 1 ∧ Keeps [(F.TWN_STATUS_STATE, 0), (F.TWN_STATUS_DRIVING, 0)] s t)
      ∧ (∀ h, s.twn.handover = some h →
        (h.time ≤ s.tb → h.acked = true → h.pairing = false → Answers (exec .twnHandover s) fun t =>
          t.twn.handover = none ∧ rd t F.TWN_STATUS_HANDOVER_PENDING = 0
          ∧ (st = twLEAD → h.yields = true → twnState t = twRELEASED ∧ evt t 7 ∧ rd t F.TWN_STATUS_DRIVING = 0)
          ∧ (st = twWATCH → h.yields = false → twnState t = twSOLO ∧ rd t F.TWN_STATUS_DRIVING = 1))
        ∧ (h.acked = false → h.time ≤ s.tb + 2000 → Answers (exec .twnHandoverCancel s) fun t =>
          t.twn.handover = none ∧ rd t F.TWN_STATUS_HANDOVER_PENDING = 0 ∧ twnState t = st
          ∧ (h.yields = true → h.pairing = false → evt t 8)))
      ∧ (∀ u, st ≠ twWATCH → s.twn.confirmed = some u → u + 5000 ≤ s.tb → Answers (exec .twnTakeoverDrive s) fun t =>
        rd t F.TWN_STATUS_DRIVING = 1 ∧ rd t F.TWN_TAKEOVER_TB_VALUE = s.tb % 2 ^ 64 ∧ cnt F.TWN_TAKEOVERS_COUNT t ∧ evt t 5
        ∧ t.twn.confirmed = none)
      ∧ (∀ n, n < 16 → isSet s F.TRG_CFG_TWIN n = true →
        (st = twWATCH → rd s F.TRG_CFG_MODE n ≠ 0 → Answers (exec (.twnLineMiss n) s) fun t =>
          cnt F.TWN_LINE_MISS_COUNT t ∧ evt t 4 ∧ t.twn.missAt = some (s.tb - rd s F.TWN_LINE_TOL_NS)
          ∧ t.twn.confirmed = (if isSet s F.TWN_STATUS_FOGHORN_OK = false ∧ rd s F.TWN_GAP_START_VALUE < s.tb - rd s F.TWN_LINE_TOL_NS
            then some s.tb else s.twn.confirmed)
          ∧ Keeps [(F.TWN_LINE_MISS_COUNT, 0), (F.TWN_EVT_EVT, 0)] s t)
        ∧ (driving s n = true → Answers (exec (.driveFight n) s) fun t =>
          cnt F.TWN_FIGHTS_COUNT t ∧ evt t 6
          ∧ (rd s F.GLB_STATUS_TWIN_RANK = 0 → Changes [(F.TWN_FIGHTS_COUNT, 0), (F.TWN_EVT_EVT, 0)] s t)
          ∧ (rd s F.GLB_STATUS_TWIN_RANK = 1 → ∀ m, m < 16 → isSet s F.TRG_CFG_TWIN m = true → trgDark t m = true)))
      ∧ (∀ u, s.twn.fogNext = some u → twnFogs s = true → u + rd s F.TWN_LINK_DLY_VALUE + 200 < s.tb →
        Answers (exec .twnFogMiss s) fun t =>
          cnt F.TWN_FOG_MISSED_COUNT t ∧ t.twn.missRun = s.twn.missRun + 1
          ∧ t.twn.fogNext = some (u + rd s F.TWN_FOG_PERIOD_NS)
          ∧ (s.twn.missRun + 1 < rd s F.TWN_CTL_MISS_LIMIT → twnState t = st ∧ Keeps [(F.TWN_FOG_MISSED_COUNT, 0)] s t)
          ∧ (rd s F.TWN_CTL_MISS_LIMIT ≤ s.twn.missRun + 1 → isSet s F.TWN_STATUS_FOGHORN_OK = true →
            isSet t F.TWN_STATUS_FOGHORN_OK = false ∧ evt t 2
            ∧ rd t F.TWN_GAP_START_VALUE = s.twn.lastFog.getD 0 % 2 ^ 64
            ∧ (st = twLEAD → twnState t = twSOLO ∧ evt t 12 ∧ rd t F.TWN_STATUS_DRIVING = 1)
            ∧ (st = twWATCH → isSet t F.TWN_STATUS_TB_ALIGNED = false)))
      ∧ (let per := max 1 (rd s F.TWN_FOG_PERIOD_NS)
        let nominal := s.tb / per * per
        let seq := (rd s F.TWN_FOG_SEQ_TX + 1) % 2 ^ 16
        twnFogs s = true → isSet s F.TWN_STATUS_LINK_UP = true → s.twn.fogTx ≠ nominal → isSet s F.GLB_STATUS_D2D_UP = true →
        isSet s F.GLB_STATUS_REF_LANE_OK = true → sharedDark s = false → Answers (exec .twnFoghornTx s) fun t =>
          rd t F.TWN_FOG_SEQ_TX = seq ∧ t.twn.fogTx = nominal ∧ Keeps [(F.TWN_FOG_SEQ_TX, 0)] s t
          ∧ sends t tpFOGHORN (toBytes 8 nominal ++ toBytes 2 seq
            ++ [st, rd s F.TWN_STATUS_DRIVING + 2 * rd s F.TWN_STATUS_TB_ALIGNED]))
      ∧ (st = twALIGN ∨ st = twWATCH → s.twn.syncAt = 0 → Answers (exec .twnTbsyncTx s) fun t =>
        t.twn.syncAt = s.ns + 1 ∧ sends t tpTBSYNC (List.replicate 25 0) ∧ Keeps [] s t))

/-- O42. For a working twin block whose link carries packets, without TWN producers. A packet with a wrong TYPE, LEN or
CRC counts one PKT_ERR and nothing else changes, whatever row brings it. A valid HELLO on a disabled device records the
twin's UID, hashes and rank alone. A valid FOGHORN on the watch takes its SEQ, ends the run of misses, sets FOGHORN_OK and
the next deadline. TBSYNC: the lead answers a request with its TB; the watch ends an exchange: TB_OFFSET and LINK_DLY hold
the measured values, and once loaded it slews by the offset's opposite. FS on a follower that awaits one sets the stream's
SEQ to the one after. TRIG of an FCG that runs on a watch that has not committed is kept. FCGSTATE on the lead makes it owe a state; on the
watch a running FCG takes LOOP, TRIGGER_ID and rate and awaits no more. ROLE RELEASED on the lead makes it SOLO with event
7; an offer on an aligned watch is taken and acknowledged; an acknowledgement is noted. MBX WORD from the bound twin to an
empty mailbox fills it; READ empties a mailbox bound to the twin. BCN fires the channel that the twin may fire. -/
def Obligations.TwinPacketsAct : Prop :=
  ∀ (s : State) (pkt : List Nat), blockWorks s 5 = true → twnCarries s = true →
    (∀ i, i < 8 → isSet s F.TWN_PROD_CFG_EN i = false) →
    let p := (pkt.drop 2).take (pkt.length - 4)
    let is := fun (ty : Nat) => twnValid pkt = true ∧ pkt.headD 0 = ty
    let st := twnState s
    (twnValid pkt = false →
      ∀ i ∈ [Instr.twnHelloRx pkt, .twnFoghornRx pkt, .twnTbsyncRx pkt, .twnFsRx pkt, .twnTrigRx pkt, .twnFcgstateRx pkt,
        .twnRoleRx pkt, .twnMbxRx pkt, .twnBcnRx pkt], Answers (exec i s) fun t =>
        rd t F.TWN_PKT_ERR_COUNT = min (rd s F.TWN_PKT_ERR_COUNT + 1) (2 ^ F.TWN_PKT_ERR_COUNT.width - 1)
        ∧ Changes [(F.TWN_PKT_ERR_COUNT, 0)] s t)
    ∧ (is tpHELLO → isSet s F.TWN_CTL_EN = false → Answers (exec (.twnHelloRx pkt) s) fun t =>
      rd t F.TWN_PEER_UID_VALUE = leField p 0 8 % 2 ^ 64 ∧ rd t F.TWN_PEER_CFG_HASH_VALUE = leField p 8 8 % 2 ^ 64
      ∧ rd t F.TWN_PEER_IMG_HASH_VALUE = leField p 16 8 % 2 ^ 64 ∧ rd t F.TWN_STATUS_PEER_RANK = leField p 32 1 % 2
      ∧ t.twn.peer = some p
      ∧ Keeps [(F.TWN_PEER_UID_VALUE, 0), (F.TWN_PEER_CFG_HASH_VALUE, 0), (F.TWN_PEER_IMG_HASH_VALUE, 0),
          (F.TWN_STATUS_PEER_RANK, 0)] s t)
    ∧ (is tpFOGHORN → st = twWATCH → Answers (exec (.twnFoghornRx pkt) s) fun t =>
      rd t F.TWN_FOG_SEQ_RX = leField p 8 2 % 2 ^ 16 ∧ isSet t F.TWN_STATUS_FOGHORN_OK = true ∧ t.twn.missRun = 0
      ∧ t.twn.lastFog = some (leField p 0 8) ∧ t.twn.confirmed = none
      ∧ t.twn.fogNext = some (max (leField p 0 8 + rd s F.TWN_FOG_PERIOD_NS) (s.twn.fogNext.getD 0))
      ∧ twnState t = twWATCH
      ∧ Keeps [(F.TWN_FOG_SEQ_RX, 0), (F.TWN_STATUS_FOGHORN_OK, 0), (F.TWN_EVT_EVT, 0)] s t)
    ∧ (is tpTBSYNC →
      (leField p 0 1 = 0 → st = twLEAD → Answers (exec (.twnTbsyncRx pkt) s) fun t =>
        t.twn.txq = s.twn.txq ++ [(tpTBSYNC, [1] ++ toBytes 8 (leField p 1 8) ++ toBytes 8 s.tb ++ List.replicate 8 0)]
        ∧ Settled { s with twn := t.twn } t)
      ∧ (leField p 0 1 ≠ 0 → st = twWATCH → s.twn.loaded = true → Answers (exec (.twnTbsyncRx pkt) s) fun t =>
        let a : Int := (leField p 9 8 : Int) - leField p 1 8
        let b : Int := (s.tb : Int) - leField p 17 8
        let offset := ((a - b) * 1000 - toSigned 16 (rd s F.TWN_ASYM_PS)).tdiv 2000
        rd t F.TWN_TB_OFFSET_VALUE = fromSigned 32 (satSigned 32 offset) % 2 ^ 32
        ∧ rd t F.TWN_LINK_DLY_VALUE = ((a + b).tdiv 2).toNat % 2 ^ 32 ∧ t.slew = -offset ∧ t.tb = s.tb ∧ twnState t = twWATCH
        ∧ (2 < offset.natAbs → isSet t F.TWN_STATUS_TB_ALIGNED = false)
        ∧ (offset.natAbs ≤ 2 → 2 ≤ s.twn.aligned → isSet t F.TWN_STATUS_TB_ALIGNED = true)))
    ∧ (is tpFS → ∀ k, k = leField p 0 1 % 64 → twnFollows s k (rd s F.PKT_MAP_PORT k) = true → (twnStreamAt s k).wait = 1 →
      Answers (exec (.twnFsRx pkt) s) fun t =>
        rd t F.PKT_SEQ_VALUE k = (leField p 2 6 + 1) % 2 ^ 48 ∧ (streamAt t k).gap = true ∧ twnStreamAt t k = ⟨0, []⟩
        ∧ Keeps [(F.PKT_SEQ_VALUE, k)] s t)
    ∧ (is tpTRIG → ∀ g, g = leField p 0 1 → g < 4 → st = twWATCH → fcgRuns s g = true → (twnFcgAt s g).own = [] →
      Answers (exec (.twnTrigRx pkt) s) fun t =>
        twnFcgAt t g = { twnFcgAt s g with lead := (twnFcgAt s g).lead ++ [(leField p 4 4, leField p 8 8)] } ∧ Keeps [] s t)
    ∧ (is tpFCGSTATE → ∀ g, g = leField p 0 1 → g < 4 →
      (st = twLEAD → (p.drop 1).all (· == 0) = true → Answers (exec (.twnFcgstateRx pkt) s) fun t =>
        twnFcgAt t g = { twnFcgAt s g with owed := true } ∧ Settled { s with twnFcg := t.twnFcg } t)
      ∧ (st = twWATCH → fcgRuns s g = true → Answers (exec (.twnFcgstateRx pkt) s) fun t =>
        rd t F.FCG_TRIG_ID_VALUE g = leField p 4 4 % 2 ^ 32 ∧ (twnFcgAt t g).await = false ∧ (fcgAt t g).f = leField p 24 8
        ∧ (fcgAt t g).nextT = leField p 8 8 + rd s F.FCG_PERIOD_VALUE g
        ∧ rd t F.FCG_STATUS_LOOP g = leField p 1 1 % 8))
    ∧ (is tpROLE →
      (leField p 0 1 = 3 → st = twLEAD → Answers (exec (.twnRoleRx pkt) s) fun t =>
        twnState t = twSOLO ∧ hasBit t F.TWN_EVT_EVT 0 7 = true ∧ rd t F.TWN_STATUS_DRIVING = 1)
      ∧ (leField p 0 1 = 1 → st = twWATCH → isSet s F.TWN_STATUS_TB_ALIGNED = true → Answers (exec (.twnRoleRx pkt) s) fun t =>
        t.twn.handover = some ⟨leField p 4 8, false, true, false⟩ ∧ rd t F.TWN_STATUS_HANDOVER_PENDING = 1
        ∧ t.twn.txq = s.twn.txq ++ [(tpROLE, [2, 0, 0, 0] ++ toBytes 8 (leField p 4 8))]
        ∧ Keeps [(F.TWN_STATUS_HANDOVER_PENDING, 0)] s t)
      ∧ (∀ h, leField p 0 1 = 2 → s.twn.handover = some h → Answers (exec (.twnRoleRx pkt) s) fun t =>
        t.twn.handover = some { h with acked := true } ∧ Keeps [(F.TWN_STATUS_HANDOVER_PENDING, 0)] s t))
    ∧ (is tpMBX → ∀ m, m = leField p 0 1 → m < 64 → (∀ i, i < 8 → isSet s F.MBX_PROD_CFG_EN i = false) →
      (leField p 1 1 = 1 → isSender s 0x18 m = true → isSet s F.MBX_STAT_FULL m = false → rd s F.MBX_BIND_RECEIVER m ≠ 0x18 →
        Answers (exec (.twnMbxRx pkt) s) fun t =>
          isSet t F.MBX_STAT_FULL m = true ∧ mbxAt t m = ⟨leField p 4 4 % 2 ^ 32, s.tb⟩ ∧ t.twn.txq = s.twn.txq)
      ∧ (leField p 1 1 = 2 → rd s F.MBX_BIND_RECEIVER m = 0x18 → isSet s F.MBX_STAT_FULL m = true →
        Answers (exec (.twnMbxRx pkt) s) fun t =>
          isSet t F.MBX_STAT_FULL m = false ∧ mbxAt t m = ⟨0, 0⟩ ∧ Keeps [(F.MBX_STAT_FULL, m)] s t))
    ∧ (is tpBCN → ∀ ch, ch = leField p 0 1 → ch < 48 → rd s F.BCN_CH_CFG_ATTR ch = 1 → isSet s F.BCN_CH_CFG_EN ch = true →
      isSet s F.BCN_CH_CFG_FIRE_OWNER_ONLY ch = false → rd s F.BCN_CH_CFG_CONSUMER ch < 55 → Answers (exec (.twnBcnRx pkt) s) fun t =>
        t.beacons = s.beacons ++ [(ch, rd s F.BCN_CH_CFG_CONSUMER ch, true)] ∧ hasBit t F.BCN_FIRE_CH 0 ch = true
        ∧ Keeps [(F.BCN_FIRE_CH, 0)] s t)

/-- O43. For a ready keeper whose bridge is idle, no first KRESET pending and no display hold, a transaction of the
external port with a right CRC stores the status byte and the data it sent. READ of a register (KF_ENTRY and a KT_TEMP
conversion apart) returns its word and changes nothing; of no register it is refused with ADDRESS. WRITE of KP_REQ sets it
alone; of a register without a writable field it is refused with READ_ONLY. TIME sets the wall clock and clears
POLLS_SINCE_TIME. POLL with nothing latched returns the summary, releases KEEP_IRQ and counts. NVWRITE of KL_RANK with a
whole tail programs it and its copy, on a LOCKED device it is refused with LOCKED. KP_FAIL_CLEAR clears the bits written.
TRIP_CLR clears TRIPPED, or is refused with STATE near the trip level. KRESET: the first key is remembered, any other is
refused with SEQUENCE; the second after the first returns every keeper register that is not kept to its Reset value but
KP_GOOD. KEEPER_ABANDON changes the port alone. A wrong CRC shows at the port, with the capture PORT_CRC, and no keeper
register changes. -/
def Obligations.KeeperTransactionsAct : Prop :=
  ∀ s : State, s.keeperReady = true → s.kbrRun = none →
    let port := fun (t : State) (refused : Bool) (data : Nat) (reply : List Nat) =>
      kport t 0 = ⟨false, refused, false, false, false, statusByte s 0, data, reply⟩
    let refuses := fun (i : Instr) (code : Nat) (reply : List Nat) => Answers (exec i s) fun t =>
      port t true 0 reply ∧ rd t F.KI_LAST_ERR_CODE = code ∧ Keeps [(F.KI_LAST_ERR_CODE, 0)] s t
      ∧ Settled { s with regs := t.regs, kports := t.kports } t
    ((kport s 0).kreset = false → rd s F.KD_STATUS_HOLDING = 0 →
      (∀ addr tail, addr < 2 ^ 16 → ¬ (0x4000 ≤ addr ∧ addr < 0x8000) →
        (∀ h, keeperRegAt addr = some h → h.reg.rid ≠ R.KF_ENTRY.rid → (h.reg.rid ≠ R.KT_TEMP.rid ∨ tail = 0) →
          Answers (exec (.read 0 addr tail (sentCrc 1 addr 0)) s) fun t =>
            port t false (keeperWord s h) (replyBytes 1 addr (keeperWord s h)) ∧ Settled { s with kports := t.kports } t)
        ∧ (∀ h data, data < 2 ^ 32 → keeperRegAt addr = some h → h.reg.fields.any Field.writable = false →
          refuses (.write 0 addr data tail (sentCrc 2 addr data)) 3 [])
        ∧ (∀ data, data < 2 ^ 32 → keeperRegAt addr = none → refuses (.read 0 addr tail (sentCrc 1 addr 0)) 2 (replyBytes 1 addr 0)
          ∧ refuses (.write 0 addr data tail (sentCrc 2 addr data)) 2 []))
      ∧ (∀ data, data < 2 ^ 32 → Answers (exec (.write 0 0x201 data 0 (sentCrc 2 0x201 data)) s) fun t =>
        port t false 0 [] ∧ rd t F.KP_REQ_DOMAINS = data % 2 ^ 24 ∧ Keeps [(F.KP_REQ_DOMAINS, 0)] s t)
      ∧ (∀ seconds, seconds < 2 ^ 32 → Answers (exec (.time 0 seconds (sentCrc 5 0 seconds)) s) fun t =>
        port t false 0 [] ∧ rd t F.KI_WALL_SECONDS = seconds ∧ rd t F.KI_POLLS_SINCE_TIME_COUNT = 0)
      ∧ (∀ max tail, max < 2 ^ 16 → s.abandonedBank = none → latchedBanks s = [] →
        Answers (exec (.poll 0 max tail (sentCrc 3 max 0)) s) fun t =>
        port t false (pollSummary s) (replyBytes 3 max (pollSummary s)) ∧ t.keepIrq = false
        ∧ rd t F.KI_POLLS_SINCE_TIME_COUNT = min (rd s F.KI_POLLS_SINCE_TIME_COUNT + 1) (2 ^ 32 - 1)
        ∧ Keeps [(F.KI_POLLS_SINCE_TIME_COUNT, 0)] s t)
      ∧ (∀ data tail, data < 2 ^ 32 → isSet s F.KL_LIFECYCLE_LOCKED = false → 64 ≤ tail → s.aDieReset = false →
        Answers (exec (.nvwrite 0 0x102 data tail false (sentCrc 6 0x102 data)) s) fun t =>
          port t false 0 [] ∧ rd t F.KL_RANK_RANK = data % 2 ∧ rd t F.GLB_STATUS_TWIN_RANK = data % 2
          ∧ Keeps [(F.KL_RANK_RANK, 0), (F.GLB_STATUS_TWIN_RANK, 0), (F.GLB_STATUS_LIFECYCLE, 0)] s t)
      ∧ (∀ data tail, data < 2 ^ 32 → isSet s F.KL_LIFECYCLE_LOCKED = true →
        refuses (.nvwrite 0 0x102 data tail false (sentCrc 6 0x102 data)) 4 [])
      ∧ (∀ mask, mask < 2 ^ 32 → Answers (exec (.kpFailClear 0 mask) s) fun t =>
        port t false 0 [] ∧ Keeps [(F.KP_FAIL_DOMAINS, 0)] s t
        ∧ ∀ d, d < 24 → hasBit t F.KP_FAIL_DOMAINS 0 d = (hasBit s F.KP_FAIL_DOMAINS 0 d && !mask.testBit d))
      ∧ (s.nearTripMask = 0 → Answers (exec (.tripClr 0) s) fun t =>
        port t false 0 [] ∧ rd t F.KT_STATUS_TRIPPED = 0 ∧ Keeps [(F.KT_STATUS_TRIPPED, 0)] s t)
      ∧ (s.nearTripMask ≠ 0 → refuses (.tripClr 0) 6 [])
      ∧ (Answers (exec (.kreset 0 kresetFirst (sentCrc 0xF 0 kresetFirst)) s) fun t =>
        kport t 0 = ⟨false, false, false, false, true, statusByte s 0, 0, []⟩ ∧ Settled { s with kports := t.kports } t)
      ∧ (∀ data, data < 2 ^ 32 → data ≠ kresetFirst → refuses (.kreset 0 data (sentCrc 0xF 0 data)) 5 [])
      ∧ (Answers (exec (.keeperAbandon 0) s) fun t =>
        kport t 0 = ⟨true, false, false, false, false, statusByte s 0, 0, []⟩ ∧ Settled { s with kports := t.kports } t)
      ∧ (∀ a b n x, a < 2 ^ 16 → b < 2 ^ 32 →
        ∀ p ∈ [(Instr.read 0 a n x, sentCrc 1 a 0), (.write 0 a b n x, sentCrc 2 a b), (.poll 0 a n x, sentCrc 3 a 0),
          (.step 0 b n x, sentCrc 4 0 b), (.time 0 b x, sentCrc 5 0 b), (.nvwrite 0 a b n false x, sentCrc 6 a b),
          (.kdIntent 0 b n false x, sentCrc 6 0x803 b), (.kdCommit 0 b n false x, sentCrc 6 0x804 b),
          (.kreset 0 b x, sentCrc 0xF 0 b)],
        x ≠ p.2 → Answers (exec p.1 s) fun t =>
          kport t 0 = ⟨false, false, true, false, false, statusByte s 0, 0, []⟩
          ∧ ((captureAt t 5).bank (captureAt s 5).active).latched = true
          ∧ ∀ f i, keeperFid (f.fid % 1024) = true → rd t f i = rd s f i))
    ∧ ((kport s 0).kreset = true → isSet s F.KL_LIFECYCLE_LOCKED = false → Answers (exec (.kreset 0 kresetSecond (sentCrc 0xF 0 kresetSecond)) s) fun t =>
      port t false 0 [] ∧ rd t F.KP_GOOD_DOMAINS = rd s F.KP_GOOD_DOMAINS ∧ t.dispActive = false
      ∧ ∀ f i, keeperFid (f.fid % 1024) = true → f.fid % 1024 ∉ keptFields → f.key i ≠ F.KP_GOOD_DOMAINS.key 0 →
          rd t f i = f.reset % 2 ^ f.width)

/-- O44. For a ready keeper with no first KRESET pending at the port used. KD_INTENT of the image's hash with D2 up, no
update running and a whole tail starts an update of port 0 at step 0; another hash is refused with HASH. STEP k, the next
of the port's update, drives each segment as the wave says, counts each driven one, holds, and steps NEXT_STEP; another k
is refused with SEQUENCE. KD_COMMIT after the last step with the stored hash ends the update, clean; before it is refused
with SEQUENCE. A POLL with a 64-clock tail and one bank latched commits it: NEXT_ENTRY_NO steps and the bank clears.
KBR_GO of an idle bridge starts the transaction that KBR_CMD names; of a busy one it sets CFG_ERR alone. KBR_DONE of a
READ stores the register's word and the status, sets DONE and clears BUSY. KP_RESET_WARM and KP_RESET_COLD with the key
start that reset with its CAUSE; without it they are refused with SEQUENCE. KEEPER_POR makes the keeper ready. -/
def Obligations.KeeperUpdatesLogsAndBridges : Prop :=
  ∀ s : State,
    (s.keeperReady = true → s.kbrRun = none → (kport s 0).kreset = false →
      let refused := fun (i : Instr) (code : Nat) => Answers (exec i s) fun t =>
        (kport t 0).refused = true ∧ rd t F.KI_LAST_ERR_CODE = code
      (∀ hash tail, hash < 2 ^ 32 →
        let intent := Instr.kdIntent 0 hash tail false (sentCrc 6 0x803 hash)
        let commit := Instr.kdCommit 0 hash tail false (sentCrc 6 0x804 hash)
        (hash = imageHash s → domGood s 2 = true → s.dispActive = false → 64 ≤ tail → Answers (exec intent s) fun t =>
            t.dispActive = true ∧ rd t F.KD_STATUS_DIRTY = 1 ∧ rd t F.KD_STATUS_OWNER = 0 ∧ rd t F.KD_STATUS_NEXT_STEP = 0
            ∧ rd t F.KD_HASH_HASH = hash ∧ (kport t 0).refused = false)
        ∧ (hash ≠ imageHash s → refused intent 7)
        ∧ (ownsUpdate s 0 = true → rd s F.KD_STATUS_NEXT_STEP = stepCount s → hash = rd s F.KD_HASH_HASH → 64 ≤ tail →
          Answers (exec commit s) fun t =>
            t.dispActive = false ∧ rd t F.KD_STATUS_DIRTY = 0 ∧ rd t F.KD_STATUS_HOLDING = 0)
        ∧ (rd s F.KD_STATUS_NEXT_STEP ≠ stepCount s → refused commit 5))
      ∧ (∀ k tail, k < 2 ^ 32 → vfieldFault s = false →
        (ownsUpdate s 0 = true → rd s F.KD_STATUS_NEXT_STEP = k → k < stepCount s → 64 ≤ tail →
          Answers (exec (.step 0 k tail (sentCrc 4 0 k)) s) fun t =>
            rd t F.KD_STATUS_NEXT_STEP = (k + 1) % 2 ^ 5 ∧ rd t F.KD_STATUS_HOLDING = 1
            ∧ ∀ n, n < 48 →
              sget t.segDrive 0 n = (if domGood s 2 = true ∧ n ∉ s.segLimited then stepDrive s k n else 0)
              ∧ rd t F.KD_CNT_COUNT n = (if stepDrive s k n = 0 then rd s F.KD_CNT_COUNT n
                else min (rd s F.KD_CNT_COUNT n + 1) (2 ^ 32 - 1)))
        ∧ (rd s F.KD_STATUS_NEXT_STEP ≠ k → refused (.step 0 k tail (sentCrc 4 0 k)) 5))
      ∧ (∀ src i max, nextBank s = some (src, i) → i < 2 → max < 2 ^ 16 → s.logUsed < 4096 →
        Answers (exec (.poll 0 max 64 (sentCrc 3 max 0)) s) fun t =>
        (captureAt t src).bank i = Bank.init ∧ t.logUsed = s.logUsed + 1
        ∧ rd t F.KF_NEXT_ENTRY_NO = (rd s F.KF_NEXT_ENTRY_NO + 1) % 2 ^ 32)
      ∧ (∀ key, key < 2 ^ 16 →
        (key = 0xA960 → resetRunning s = false → Answers (exec (.kpResetWarm 0 key) s) fun t =>
          rd t F.GLB_RST_STATUS_WARM_BUSY = 1 ∧ rd t F.GLB_RST_CAUSE_CAUSE = 3 ∧ t.aDieReset = false
          ∧ rd t F.GLB_RST_CAUSE_WARM_COUNT = min (rd s F.GLB_RST_CAUSE_WARM_COUNT + 1) (2 ^ 16 - 1))
        ∧ (key = 0xA960 → s.aDieReset = false → Answers (exec (.kpResetCold 0 key) s) fun t =>
          t.aDieReset = true ∧ rd t F.GLB_RST_CAUSE_CAUSE = 1 ∧ rd t F.GLB_RST_CAUSE_WARM_COUNT = 0)
        ∧ (key ≠ 0xA960 → refused (.kpResetWarm 0 key) 5 ∧ refused (.kpResetCold 0 key) 5)))
    ∧ (∀ mid, blockReach s 0 = true → domUp s 4 = true →
      (s.kbrRun = none → Answers (exec (.kbrGo mid) s) fun t =>
        t.kbrRun = some ⟨rd s F.KBR_CMD_OPCODE, rd s F.KBR_CMD_ADDR, rd s F.KBR_WDATA_DATA, rd s F.KBR_TAIL_CLOCKS, s.ns⟩
        ∧ rd t F.KBR_STATUS_BUSY = 1 ∧ rd t F.GLB_STATUS_KEEPER_BUSY = 1
        ∧ Keeps [(F.KBR_STATUS_BUSY, 0), (F.GLB_STATUS_KEEPER_BUSY, 0)] s t)
      ∧ (s.kbrRun.isSome = true → Answers (exec (.kbrGo mid) s) fun t =>
        rd t F.KBR_STATUS_CFG_ERR = 1 ∧ Changes [(F.KBR_STATUS_CFG_ERR, 0)] s t))
    ∧ (∀ r h, s.kbrRun = some r → r.opcode = 1 → r.tail = 0 → ¬ (0x4000 ≤ r.addr ∧ r.addr < 0x8000) →
      keeperRegAt r.addr = some h → h.reg.rid ≠ R.KF_ENTRY.rid → domUp s 4 = true → s.laneStopped = false →
      s.keeperReady = true → (kport s 1).kreset = false → rd s F.KD_STATUS_HOLDING = 0 → Answers (exec (.kbrDone 0) s) fun t =>
        rd t F.KBR_RDATA_DATA = keeperWord s h % 2 ^ 32 ∧ rd t F.KBR_STATUS_KSTAT = statusByte s 1 % 256
        ∧ rd t F.KBR_STATUS_DONE = 1 ∧ rd t F.KBR_STATUS_BUSY = 0 ∧ t.kbrRun = none)
    ∧ (s.keeperReady = false → Answers (exec .keeperPor s) fun t => t.keeperReady = true)

/-- O45. DOMAIN_POWER_UP of a domain that is due (in the effective set, its dependencies good, not failed, no A-die reset)
and that the sequencer began to power at most 10 times its power-up time ago sets its KP_GOOD bit alone of them and PWR_EVT
0; of one that is not due no power good and no register changes. DOMAIN_POWER_DOWN of a good domain that is no longer in
the effective set, on which no good domain depends and which the sequencer has begun to switch, clears its bit and sets
PWR_EVT 1. DOMAIN_POWER_FAIL of a due domain once 10 times its power-up time has passed sets its KP_FAIL bit and PWR_EVT 2,
and no power good changes. PWR_WAKE_RELEASE drops exactly the held domains written, but for those woken in the same instant. THERMAL_WARN keeps HOT, capturing a sensor that gets hot; a report that repeats changes
nothing. THERMAL_TRIP sets TRIPPED, darkens every trigger output, takes power from every switchable domain, is captured,
and sets PWR_EVT 3 where the A-die is not in reset; below the level again the sensor no longer bars TRIP_CLR. -/
def Obligations.PowerAndSensorsAct : Prop :=
  ∀ s : State,
    let captured := fun (t : State) (src : Nat) => ((captureAt t src).bank (captureAt s src).active).latched = true
    (∀ d, d < 24 →
      let due := mayPowerUp s d = true ∧ hasBit s F.KP_FAIL_DOMAINS 0 d = false
      (∀ u, due → powerSince s d = some u → s.ns ≤ u + 10 * powerUpNs d → Answers (exec (.domainPowerUp d) s) fun t =>
        hasBit t F.PWR_EVT_EVT 0 0 = true ∧ ∀ e, e < 24 → domGood t e = (domGood s e || decide (e = d)))
      ∧ (¬ due → Answers (exec (.domainPowerUp d) s) fun t => Settled { s with pwrRun := t.pwrRun } t)
      ∧ (switchable.testBit d = true → domGood s d = true → (effective s).testBit d = false → dependentsDown s d = true →
        (powerSince s d).isSome = true → Answers (exec (.domainPowerDown d) s) fun t => domGood t d = false ∧ hasBit t F.PWR_EVT_EVT 0 1 = true)
      ∧ (∀ u, due → powerSince s d = some u → u + 10 * powerUpNs d ≤ s.ns → Answers (exec (.domainPowerFail d) s) fun t =>
        hasBit t F.KP_FAIL_DOMAINS 0 d = true ∧ hasBit t F.PWR_EVT_EVT 0 2 = true ∧ captured t 4
        ∧ ∀ e, domGood t e = domGood s e))
    ∧ (∀ mask, blockReach s 1 = true → Answers (exec (.pwrWakeRelease mask) s) fun t =>
      Changes [(F.PWR_WAKE_HELD_DOMAINS, 0)] s t
      ∧ ∀ d, hasBit t F.PWR_WAKE_HELD_DOMAINS 0 d = (hasBit s F.PWR_WAKE_HELD_DOMAINS 0 d && !(mask.testBit d && !s.wokeNow.testBit d)))
    ∧ (∀ k, k < 5 →
      (s.hotMask.testBit k = false → Answers (exec (.thermalWarn k true) s) fun t =>
        t.hotMask = s.hotMask ||| 2 ^ k ∧ captured t 2)
      ∧ (s.hotMask.testBit k = true → Answers (exec (.thermalWarn k false) s) fun t =>
        t.hotMask.testBit k = false ∧ Settled { s with hotMask := t.hotMask } t)
      ∧ (∀ hot, s.hotMask.testBit k = hot → Answers (exec (.thermalWarn k hot) s) fun t => Settled s t)
      ∧ (Answers (exec (.thermalTrip k true) s) fun t =>
        rd t F.KT_STATUS_TRIPPED = 1 ∧ t.nearTripMask = s.nearTripMask ||| 2 ^ k ∧ captured t 3
        ∧ (∀ n, n < 16 → trgDark t n = true) ∧ (∀ d, d < 24 → switchable.testBit d = true → domGood t d = false)
        ∧ (s.aDieReset = false → hasBit t F.PWR_EVT_EVT 0 3 = true))
      ∧ (Answers (exec (.thermalTrip k false) s) fun t =>
        t.nearTripMask.testBit k = false ∧ Settled { s with nearTripMask := t.nearTripMask } t))

/-- O46. RAIL_OUT_OF_RANGE puts the A-die into power-on reset: every trigger output dark, no domain but D0, D1 and D3
good, every byte written to its memories and to the LP5X array gone, every A-die register not kept at its Reset value; VKEEP_LOSS does so too, the
keeper is not ready and its captures are gone. ADIE_RELEASE with a ready keeper releases it with CAUSE 0. ADIE_RESET_DONE
ends the reset: TB 0, D4, the die-to-die link and the lane reference there, the measured path delay, the device number,
and both locks set where LOCKED. A write of GLB_RST_CTL with the key: WARM darkens every trigger output, keeps the
memories, resets every A-die register but the kept and the named ones, CAUSE 4, counted; COLD loses the memories but the
LP5X array, CAUSE 2, count 0; with another key KEY_ERR alone; during a reset nothing. WARM_RESET_DONE clears WARM_BUSY and
sets both locks where LOCKED. BLOCK_RESET marks the block busy (and, for RNG and MEM, returns its registers to their Reset
values, the LP5X array staying); a paired TWN refuses alone; BLOCK_RESET_DONE ends it. -/
def Obligations.ResetsClearAndKeep : Prop :=
  ∀ s : State,
    let dark := fun (t : State) => ∀ n, n < 16 → trgDark t n = true
    let empties := fun (t : State) => t.prog = [] ∧ t.data = [] ∧ t.shared = [] ∧ t.ispMem = [] ∧ t.spm = []
    let locks := fun (t : State) => isSet s F.KL_LIFECYCLE_LOCKED = true → rd t F.KL_LOCKS_MBX = 1 ∧ rd t F.KL_LOCKS_BCN = 1
    let resetReg := fun (t : State) (not : List Field) => ∀ f i, keeperFid (f.fid % 1024) = false → f.fid % 1024 ∉ keptFields →
      (∀ g ∈ not, g.fid % 1024 ≠ f.fid % 1024) → rd t f i = f.reset % 2 ^ f.width
    let powerOn := fun (t : State) => t.aDieReset = true ∧ t.aDieReleased = false ∧ dark t ∧ empties t ∧ t.lp5x = []
      ∧ resetReg t [] ∧ ∀ d, d < 24 → switchable.testBit d = true → domGood t d = false
    (Answers (exec .railOutOfRange s) fun t => powerOn t)
    ∧ (Answers (exec .vkeepLoss s) fun t => t.aDieReset = true ∧ dark t ∧ empties t ∧ t.lp5x = [] ∧ t.keeperReady = false
      ∧ t.captures = [] ∧ t.keepIrq = false ∧ t.dispActive = false)
    ∧ (s.aDieReset = true → s.keeperReady = true → s.aDieReleased = false → Answers (exec .adieRelease s) fun t =>
      t.aDieReleased = true ∧ rd t F.GLB_RST_CAUSE_CAUSE = 0 ∧ Keeps [(F.GLB_RST_CAUSE_CAUSE, 0)] s t)
    ∧ (∀ ps, s.aDieReset = true → s.aDieReleased = true → Answers (exec (.adieResetDone ps) s) fun t =>
      t.aDieReset = false ∧ t.tb = 0 ∧ domGood t 4 = true ∧ rd t F.GLB_STATUS_D2D_UP = 1 ∧ rd t F.GLB_STATUS_REF_LANE_OK = 1
      ∧ rd t F.GLB_D2D_DLY_TRG_PS = ps % 2 ^ F.GLB_D2D_DLY_TRG_PS.width ∧ rd t F.GLB_UID_UID = rd s F.KI_UID_UID
      ∧ rd t F.GLB_RST_STATUS_WARM_BUSY = 0 ∧ locks t)
    ∧ (∀ mid, resetRunning s = false →
      (Answers (exec (.warmReset mid 0xA9600001) s) fun t =>
        rd t F.GLB_RST_STATUS_WARM_BUSY = 1 ∧ rd t F.GLB_RST_CAUSE_CAUSE = 4 ∧ t.aDieReset = false ∧ dark t
        ∧ rd t F.GLB_RST_CAUSE_WARM_COUNT = min (rd s F.GLB_RST_CAUSE_WARM_COUNT + 1) (2 ^ 16 - 1)
        ∧ t.prog = s.prog ∧ t.data = s.data ∧ t.shared = s.shared ∧ t.spm = s.spm ∧ t.lp5x = s.lp5x ∧ t.journal = s.journal
        ∧ resetReg t (F.MEM_STATUS_STATE :: F.GLB_RST_STATUS_WARM_BUSY :: warmFields))
      ∧ (Answers (exec (.coldReset mid 0xA9600002) s) fun t =>
        t.aDieReset = true ∧ t.aDieReleased = true ∧ rd t F.GLB_RST_CAUSE_CAUSE = 2 ∧ rd t F.GLB_RST_CAUSE_WARM_COUNT = 0
        ∧ dark t ∧ empties t ∧ t.lp5x = s.lp5x)
      ∧ (∀ val, val / 2 ^ 16 % 2 ^ 16 ≠ 0xA960 → ∀ i ∈ [Instr.warmReset mid val, .coldReset mid val], Answers (exec i s) fun t =>
        rd t F.GLB_RST_STATUS_KEY_ERR = 1 ∧ Changes [(F.GLB_RST_STATUS_KEY_ERR, 0)] s t))
    ∧ (∀ mid val, resetRunning s = true → ∀ i ∈ [Instr.warmReset mid val, .coldReset mid val, .blockReset mid val],
      Answers (exec i s) fun t => Settled s t)
    ∧ (isSet s F.GLB_RST_STATUS_WARM_BUSY = true → s.aDieReset = false → Answers (exec .warmResetDone s) fun t =>
      rd t F.GLB_RST_STATUS_WARM_BUSY = 0 ∧ locks t)
    ∧ (∀ mid b, b < 29 → resetRunning s = false → blkBusy s b = false →
      (b ≠ 1 → ¬ (b = 5 ∧ twnBusyState (twnState s) = true) → Answers (exec (.blockReset mid (2 ^ b)) s) fun t => blkBusy t b = true)
      ∧ (∀ blk, (b, blk) ∈ [(18, Block.rng), (17, Block.mem)] → (bitDomain b).all (domGood s) = true →
        (∀ c, c < 8 → runningRecipe s c = none) → Answers (exec (.blockReset mid (2 ^ b)) s) fun t =>
          t.lp5x = s.lp5x ∧ ∀ f i, (blockFields blk).1 ≤ f.fid % 1024 → f.fid % 1024 < (blockFields blk).2 →
            f.fid % 1024 ∉ keptFields → rd t f i = f.reset % 2 ^ f.width)
      ∧ (b = 5 → twnBusyState (twnState s) = true → Answers (exec (.blockReset mid (2 ^ b)) s) fun t =>
        rd t F.GLB_RST_STATUS_REFUSED = 1 ∧ Changes [(F.GLB_RST_STATUS_REFUSED, 0)] s t))
    ∧ (∀ b, b < 29 → blkBusy s b = true → Answers (exec (.blockResetDone b) s) fun t =>
      blkBusy t b = false ∧ (b ≠ 17 → Changes [(F.GLB_RST_STATUS_BLK_BUSY, 0)] s t))

/-- O47. For every well-formed instruction of a core: its word fits in 32 bits and decodes, for that core, to the
instruction itself, every operand at every value its field admits. Conversely every 32-bit word that decodes for a core c
below 8 decodes to a well-formed instruction, whose word is that very word. -/
def Obligations.InstructionWordsRoundTrip : Prop :=
  (∀ i w, i.wellFormed = true → tsxEncode i = some w → w < 2 ^ 32 ∧ ∃ c, c < 8 ∧ tsxDecode c w = some i)
  ∧ (∀ c w i, c < 8 → w < 2 ^ 32 → tsxDecode c w = some i → i.wellFormed = true ∧ tsxEncode i = some w)

/-- O48. One word of each format, written out from the formats and the opcode map, decodes to its instruction: sub v3, v1,
v2; add v4, v5, #9; add v6, v6, #0xABCDE (ACC); movk v2, #0x1234 at bits 47:32; b.ne with off16 = 0xFFFE; ldsw v7, [v1 +
8]; wdevd; wait kind 2; spec; fire; mbxsend with SYNC. The word 0, a word of an unassigned opcode, a condition of 15, a
shift count of 64, a wait kind of 4, and a word with an unused field set decode to none. -/
def Obligations.WrittenOutWordsDecode : Prop :=
  (∀ p ∈ [(0x11312000, Instr.sub 0 3 1 (.reg 2)), (0x20450009, .add 0 4 5 (.imm 9)), (0x2A6ABCDE, .add 0 6 6 (.acc 0xABCDE)),
      (0x2D281234, .movk 0 2 0x1234 2), (0x3020FFFE, .bCond 0 2 0xFFFE), (0x46710008, .ldsw 0 7 1 8),
      (0x53890010, .wdevd 0 8 9 0x10), (0x602345C0, .wait 0 2 3 4 0x17), (0x80940040, .spec 0 2 5 0x40),
      (0x93120005, .fire 0 1 2 5), (0x94123001, .mbxsend 0 1 2 3 true)],
    tsxDecode 0 p.1 = some p.2)
  ∧ (∀ w ∈ [0, 0xFF000000, 0x30F00000, 0x25120040, 0x60400000, 0x11312001, 0x70000001, 0x90123401], tsxDecode 0 w = none)

/-- O49. From every state in which it holds, every step that answers a next state keeps it, whatever command was at the
front of the queue or with none: every frame still open has TB_UNLOCKED in its FLAGS where the time base is unlocked,
ENCODER_FAULT where an encoder channel of its stream's ENC_MASK has an active fault, and counts as relayed by no relay
that does not now run from its port. -/
def Obligations.StepKeepsFramesMarked : Prop :=
  ∀ s t : State, FramesMarked s → step s = .next t → FramesMarked t

/-- O50. From every state, a step answers a next state or ends in the fault that no such unit exists; it is never refused.
A well-formed command at the front of the queue never faults: the step answers a next state. A command that is not
well-formed only by the number of its unit faults: core 8, port 8, mailbox 64 and trigger output 16 are no units. -/
def Obligations.StepsAnswerOrNameNoUnit : Prop :=
  ∀ s : State,
    ((∃ t, step s = .next t) ∨ step s = .fault .noSuchUnit)
    ∧ (∀ c rest, s.pending = c :: rest → c.wellFormed = true → ∃ t, step s = .next t)
    ∧ ∀ i ∈ [Instr.sqRun 8, .halt 8, .prtMultLock 8, .mbxTimeout 64 false, .trgPulseEnd 16],
        exec i s = .fault .noSuchUnit

/-- O51. In State.reset no command waits; the A-die is held in power-on reset and not released; the keeper is not ready;
TB is 0; every trigger output is dark with DARK_CAUSE RESET; every other register reads its Reset value (0 where the
specification gives none: log 4); D0, D1 and D3 alone are good; no byte of any memory is listed, so each reads 0 (log 5);
every memory and the register file have their canonical form; no frame is open. -/
def Obligations.ResetIsPowerOn : Prop :=
  State.reset.pending = [] ∧ State.reset.aDieReset = true ∧ State.reset.aDieReleased = false ∧ State.reset.keeperReady = false
  ∧ State.reset.tb = 0
  ∧ (∀ n, n < 16 → trgDark State.reset n = true ∧ rd State.reset F.FIO_CH_STAT_DARK_CAUSE (12 + n) = 6)
  ∧ (∀ f i, (∀ n, n < 16 → F.FIO_CH_STAT_DARK.key (12 + n) ≠ f.key i ∧ F.FIO_CH_STAT_DARK_CAUSE.key (12 + n) ≠ f.key i) →
      rd State.reset f i = f.reset % 2 ^ f.width)
  ∧ (∀ d, d < 24 → (domGood State.reset d = true ↔ d = 0 ∨ d = 1 ∨ d = 3))
  ∧ (∀ m ∈ State.reset.memories, m = [])
  ∧ Memory.wf State.reset = true ∧ Registers.wf State.reset = true ∧ FramesMarked State.reset

/-- O52. A core that can issue stores rd at an aligned address of its program address space with std, stw, sth or stb, and
then loads from it with the same base and offset: ldd brings back the register as it was; ldw, ldh and ldb its low 32, 16
or 8 bits zero-extended; ldsw, ldsh and ldsb the same sign-extended. It holds with no region open and with one whose store
buffer has room. -/
def Obligations.StoredValuesLoadBack : Prop :=
  ∀ (s : State) (c d d' a imm16 : Nat), Ready s c → pcOf s c < 0x7FF8 → d' % 16 ≠ 0 →
    (∀ r, (coreAt s c).region = some r → r.storeCount < 64) → place (effAddr s c a imm16) ≠ none →
    ∀ p ∈ [(8, Instr.std c d a imm16, Instr.ldd c d' a imm16, false), (4, .stw c d a imm16, .ldw c d' a imm16, false),
        (2, .sth c d a imm16, .ldh c d' a imm16, false), (1, .stb c d a imm16, .ldb c d' a imm16, false),
        (4, .stw c d a imm16, .ldsw c d' a imm16, true), (2, .sth c d a imm16, .ldsh c d' a imm16, true),
        (1, .stb c d a imm16, .ldsb c d' a imm16, true)],
      effAddr s c a imm16 % p.1 = 0 →
      Answers (exec p.2.1 s) fun t => Answers (exec p.2.2.1 t) fun u =>
        vreg u c d' = (if p.2.2.2 then ((vreg s c d).setWidth (8 * p.1)).signExtend 64
          else ((vreg s c d).setWidth (8 * p.1)).setWidth 64)
        ∧ pcOf u c = pcOf s c + 8

/-- O53. Mailbox m of a reachable MBX block has ATTR = T. A send or a withdrawal by an open master (a VF or the twin)
leaves the mailbox and its binding as they were and increments GLB_SEC_ERR.COUNT; where GLB_SEC_ERR.VALID is 0 it records
the master and the mailbox and sets VALID, else the record stays. A send is answered with REFUSED. -/
def Obligations.OpenMastersAreRefusedAndRecorded : Prop :=
  ∀ (s : State) (m mid word : Nat), m < 64 → blockReach s 3 = true → mid ∈ [2, 3, 4, 5, 6, 7, 8, 0x18] → rd s F.MBX_BIND_ATTR m = 0 →
    (mbxSend s mid m word).1 = .refused
    ∧ ∀ i ∈ [Instr.mbxDataWrite mid m word false, .mbxWithdraw mid m false], Answers (exec i s) fun t =>
      rd t F.GLB_SEC_ERR_COUNT = min (rd s F.GLB_SEC_ERR_COUNT + 1) (2 ^ F.GLB_SEC_ERR_COUNT.width - 1)
      ∧ (rd s F.GLB_SEC_ERR_VALID = 0 → rd t F.GLB_SEC_ERR_VALID = 1 ∧ rd t F.GLB_SEC_ERR_MID = mid
        ∧ rd t F.GLB_SEC_ADDR_OFFSET = m ∧ rd t F.GLB_SEC_ADDR_IS_INDEX = 1)
      ∧ (rd s F.GLB_SEC_ERR_VALID = 1 → Keeps [(F.GLB_SEC_ERR_COUNT, 0), (F.MBX_REFUSED_COUNT, 0), (F.MBX_EVT_EVT, 0)] s t)
      ∧ mbxAt t m = mbxAt s m ∧ isSet t F.MBX_STAT_FULL m = isSet s F.MBX_STAT_FULL m
      ∧ rd t F.MBX_BIND_SENDER m = rd s F.MBX_BIND_SENDER m ∧ rd t F.MBX_BIND_RECEIVER m = rd s F.MBX_BIND_RECEIVER m
      ∧ Settled { s with regs := t.regs } t

/-- O54. PCIE_REF_LOSS takes the host link down (HIF_LINK_STATUS.UP reads 0) and clears GLB_STATUS.REF_PCIE_OK.
Acquisition, recording to LP5X and sequencer programs continue: every block that worked works, every core that could issue
can issue, every stream, frame, port, pipeline, pod and descriptor and the LP5X array are as they were, and of the
registers only those two, the two event registers and the count of link losses change. -/
def Obligations.PcieReferenceLossLeavesTheDeviceRunning : Prop :=
  ∀ s : State, Answers (exec .pcieRefLoss s) fun t =>
    rd t F.HIF_LINK_STATUS_UP = 0 ∧ rd t F.GLB_STATUS_REF_PCIE_OK = 0
    ∧ (∀ b, blockWorks t b = blockWorks s b) ∧ (∀ c, canIssue t c = canIssue s c ∧ coreAt t c = coreAt s c)
    ∧ t.streams = s.streams ∧ t.prt = s.prt ∧ t.pktPorts = s.pktPorts ∧ t.isp = s.isp ∧ t.podRuns = s.podRuns
    ∧ t.descs = s.descs ∧ t.lp5x = s.lp5x ∧ t.storeBuf = s.storeBuf
    ∧ Changes [(F.GLB_STATUS_REF_PCIE_OK, 0), (F.GLB_EVT_EVT, 0), (F.HIF_LINK_STATUS_UP, 0), (F.HIF_LINK_DOWNS_COUNT, 0),
        (F.HIF_EVT_EVT, 0)] s t

/-- O55. A write of GLB_RST_CTL (while no reset runs) or of KP_RESET (at the external port of a ready keeper that waits
for no second KRESET, with no bridge transaction) without KEY = 0xA960 resets nothing: the first sets
GLB_RST_STATUS.KEY_ERR and changes nothing else; the second is REFUSED in the status byte with KI_LAST_ERR = SEQUENCE, and
no register of the A-die changes. With the key, WARM alone starts a warm reset, and COLD, with WARM or without it, a cold
one. -/
def Obligations.ResetRegistersNeedTheirKey : Prop :=
  ∀ (s : State) (mid key bits : Nat), key < 2 ^ 16 → bits < 4 → resetRunning s = false →
    let val := key * 2 ^ 16 + bits
    let warm := fun (t : State) => t.aDieReset = false ∧ rd t F.GLB_RST_STATUS_WARM_BUSY = 1
    (∀ i ∈ [Instr.warmReset mid val, .coldReset mid val],
      (key ≠ 0xA960 → Answers (exec i s) fun t =>
        rd t F.GLB_RST_STATUS_KEY_ERR = 1 ∧ Changes [(F.GLB_RST_STATUS_KEY_ERR, 0)] s t)
      ∧ (key = 0xA960 → bits = 1 → Answers (exec i s) fun t => warm t ∧ rd t F.GLB_RST_CAUSE_CAUSE = 4)
      ∧ (key = 0xA960 → 2 ≤ bits → Answers (exec i s) fun t => t.aDieReset = true ∧ rd t F.GLB_RST_CAUSE_CAUSE = 2))
    ∧ (s.keeperReady = true → s.kbrRun = none → (kport s 0).kreset = false →
      let write := Instr.write 0 0x208 val 0 (sentCrc 2 0x208 val)
      (key ≠ 0xA960 → Answers (exec write s) fun t =>
        (kport t 0).refused = true ∧ rd t F.KI_LAST_ERR_CODE = 5 ∧ resetRunning t = false
        ∧ ∀ f i, keeperFid (f.fid % 1024) = false → rd t f i = rd s f i)
      ∧ (key = 0xA960 → bits = 1 → Answers (exec write s) fun t => warm t ∧ rd t F.GLB_RST_CAUSE_CAUSE = 3)
      ∧ (key = 0xA960 → 2 ≤ bits → Answers (exec write s) fun t =>
        t.aDieReset = true ∧ rd t F.GLB_RST_CAUSE_CAUSE = 1))

/-- O56. MBX_LOCK.LOCKED mirrors the keeper's mailbox binding lock. For mailbox m of a reachable MBX block: a write of its
present binding changes nothing. With the lock set, a write that would change it is discarded with MBX_EVT.BIND_ERR.
Without it, a write by another master than the PF and the keeper is discarded; one by these is discarded with BIND_ERR
where SENDER or RECEIVER is none of 0x00, 0x01 to 0x08, 0x10 to 0x17, 0x18 and 0x1F (0x19 to 0x1B among the others), or
they are equal and not 0x1F, or ATTR is T and one of them is an open MID, or the mailbox is FULL; else it becomes the
binding. Every send to a mailbox with 0x1F as SENDER or RECEIVER is refused. -/
def Obligations.BindingsFollowTheLockAndItsRules : Prop :=
  ∀ (s : State) (m mid val : Nat), m < 64 → mid < 32 → val < 2 ^ 32 →
    (busReach s 0x4F01C = true → (busRead s 1 0x4F01C 4).1 = rd s F.KL_LOCKS_MBX)
    ∧ (blockReach s 3 = true →
      let a := F.MBX_BIND_SENDER.bits val
      let b := F.MBX_BIND_RECEIVER.bits val
      let x := F.MBX_BIND_ATTR.bits val
      let same := a = rd s F.MBX_BIND_SENDER m ∧ b = rd s F.MBX_BIND_RECEIVER m ∧ x = rd s F.MBX_BIND_ATTR m
      let named := fun n => n = 0 ∨ (1 ≤ n ∧ n ≤ 8) ∨ (0x10 ≤ n ∧ n ≤ 0x17) ∨ n = 0x18 ∨ n = 0x1F
      let opens := fun n => (2 ≤ n ∧ n ≤ 8) ∨ n = 0x18
      let bad := ¬ named a ∨ ¬ named b ∨ (a = b ∧ a ≠ 0x1F) ∨ (x = 0 ∧ (opens a ∨ opens b)) ∨ isSet s F.MBX_STAT_FULL m = true
      let binds := fun (t : State) => rd t F.MBX_BIND_SENDER m = a ∧ rd t F.MBX_BIND_RECEIVER m = b ∧ rd t F.MBX_BIND_ATTR m = x
        ∧ Changes [(F.MBX_BIND_SENDER, m), (F.MBX_BIND_RECEIVER, m), (F.MBX_BIND_ATTR, m)] s t
      let errs := fun (t : State) => hasBit t F.MBX_EVT_EVT 0 3 = true ∧ Changes [(F.MBX_EVT_EVT, 0)] s t
      Answers (exec (.mbxBindWrite mid m val) s) fun t =>
        (same → Settled s t)
        ∧ (¬ same → rd s F.KL_LOCKS_MBX = 1 → errs t)
        ∧ (¬ same → rd s F.KL_LOCKS_MBX = 0 → mid ≠ 0 ∧ mid ≠ 1 → Changes [(F.MBX_EVT_EVT, 0)] s t)
        ∧ (¬ same → rd s F.KL_LOCKS_MBX = 0 → mid = 0 ∨ mid = 1 → (bad → errs t) ∧ (¬ bad → binds t)))
    ∧ (rd s F.MBX_BIND_SENDER m = 0x1F ∨ rd s F.MBX_BIND_RECEIVER m = 0x1F →
      (mbxSend s mid m val).1 = .refused ∧ (mbxSend s mid m val).2 = mbxRefuse s mid m)

/-- O57. For a core that can issue: jr ra and ret with a value that is a multiple of 4 inside 0x0000 to 0x7FFC make it the
pc. A value inside that range that is not a multiple of 4 faults with MISALIGNED (3), a multiple of 4 outside it with
BAD_ADDR (2), a value that is neither with one of the two. In every case of a fault SQ_FAULT_PC holds the address of the
jr or ret and the core is FAULTED. -/
def Obligations.JumpsMoveTheirValueIntoPc : Prop :=
  ∀ (s : State) (c a : Nat), c < 8 → canIssue s c = true →
    ∀ p ∈ [(Instr.jr c a, (vreg s c a).toNat), (Instr.ret c, (lkReg s c).toNat)],
      Answers (exec p.1 s) fun t =>
        (p.2 % 4 = 0 → p.2 ≤ 0x7FFC → pcOf t c = p.2 ∧ sqState t c ≠ sqFAULTED)
        ∧ (¬ (p.2 % 4 = 0 ∧ p.2 ≤ 0x7FFC) →
          sqState t c = sqFAULTED ∧ rd t F.SQ_FAULT_PC_PC c = pcOf s c
          ∧ (p.2 ≤ 0x7FFC → rd t F.SQ_STATUS_FAULT c = 3) ∧ (p.2 % 4 = 0 → rd t F.SQ_STATUS_FAULT c = 2)
          ∧ (rd t F.SQ_STATUS_FAULT c = 2 ∨ rd t F.SQ_STATUS_FAULT c = 3))

/-- O58. A count of an x4 channel that reaches the target of an armed unit, of a ONCE list at its last entry, matches it:
counted once, with the pin time as LAST_TB, DONE set, ARMED cleared and both events set. FCG_COMMIT of a FREE clock within
200 ns of its time, not paired with a twin, counts the trigger, gives it the next TRIG_ID, and pulses each idle single
output that follows the clock after its delay for its width; the next trigger follows by PERIOD. FCG_LOOP_UPDATE in TRACK
at the next multiple of 100 ns, with a reachable set-point inside the limits, sets f to it and moves the phase at it. -/
def Obligations.MatchesCommitsAndLoopUpdates : Prop :=
  (∀ (s : State) (n k : Nat) (a b z : Bool) (ps held : Nat), n < 4 → k < 16 → blockWorks s 6 = true → domUp s 22 = true →
    (∀ g, g < 4 → fcgLoop s g = fIDLE) → (∀ p, p < 2 → isSet s F.PO_STATUS_RUNNING p = false) →
    (∀ j, j < 16 → (isSet s F.CMP_STATUS_ARMED j = true ∧ rd s F.CMP_CFG_SRC j = n ↔ j = k)) → sget s.cmpUpd [] k = [] →
    rd s F.ENC_CFG_MODE n = 1 → isSet s F.ENC_CFG_INVERT_DIR n = false → isSet s F.ENC_STATUS_LOST n = false →
    rd s F.ENC_CFG_FILTER_N n ≤ held → ps + (rd s F.ENC_CFG_FILTER_N n - 1) * 2500 ≤ s.tb * 1000 →
    hasBit s F.ENC_STATUS_ABZ n 0 ≠ a → hasBit s F.ENC_STATUS_ABZ n 1 = b → hasBit s F.ENC_STATUS_ABZ n 2 = z → a ≠ b →
    cmpTarget s k = encPos s n + 1 → bitsOf (sget s.cmpCur 0 k) 56 2 = 1 → isSet s F.CMP_CFG_CYCLIC k = false →
    rd s F.CMP_BASE_BASE k + rd s F.CMP_LEN_LEN k ≤ rd s F.CMP_PTR_PTR k + 1 →
    Answers (exec (.encEdge n a b z ps held) s) fun t =>
      rd t F.CMP_MATCHES_COUNT k = min (rd s F.CMP_MATCHES_COUNT k + 1) (2 ^ F.CMP_MATCHES_COUNT.width - 1)
      ∧ rd t F.CMP_LAST_TB_VALUE k = ps / 1000 % 2 ^ F.CMP_LAST_TB_VALUE.width ∧ rd t F.CMP_STATUS_DONE k = 1
      ∧ rd t F.CMP_STATUS_ARMED k = 0 ∧ hasBit t F.CMP_EVT_EVT k 0 = true ∧ hasBit t F.CMP_EVT_EVT k 3 = true
      ∧ rd t F.CMP_AGAINST_COUNT k = rd s F.CMP_AGAINST_COUNT k)
  ∧ ∀ (s : State) (g : Nat), g < 4 → blockWorks s 7 = true →
    (fcgLoop s g = fRUN → rd s F.FCG_CFG_MODE g = 0 → twnState s ≠ twWATCH → twnState s ≠ twLEAD → s.tb ≤ (fcgAt s g).nextT →
      (fcgAt s g).nextT ≤ s.tb + 200 → Answers (exec (.fcgCommit g) s) fun t =>
        rd t F.FCG_TRIG_ID_VALUE g = (rd s F.FCG_TRIG_ID_VALUE g + 1) % 2 ^ 32
        ∧ rd t F.FCG_TRIGGERS_COUNT g = min (rd s F.FCG_TRIGGERS_COUNT g + 1) (2 ^ F.FCG_TRIGGERS_COUNT.width - 1)
        ∧ rd t F.FCG_LATE_COUNT g = rd s F.FCG_LATE_COUNT g
        ∧ (fcgAt t g).nextT = (fcgAt s g).nextT + rd s F.FCG_PERIOD_VALUE g
        ∧ ∀ n, n < 16 → paired s n = false → trgDark s n = false → rd s F.TRG_CFG_SRC n = 2 → rd s F.TRG_CFG_FCG_SEL n = g →
          rd s F.TRG_CFG_MODE n ≠ 0 → effMin s n ≤ rd s F.TRG_WIDTH_NS n → (trgAt s n).held = [] → (trgAt s n).cur = none →
          let a := (fcgAt s g).nextT + rd s F.TRG_DELAY_NS n
          (trgAt t n).held = [⟨a, a + rd s F.TRG_WIDTH_NS n, some (g, (rd s F.FCG_TRIG_ID_VALUE g + 1) % 2 ^ 32)⟩])
    ∧ (fcgLoop s g = fTRACK → (fcgAt s g).windows = [] → ((fcgAt s g).updTb / 100 + 1) * 100 ≤ s.tb →
      let n := rd s F.FCG_CFG_SRC_ENC g
      let sp := reportedSpeed s n * 4096 / max 1 (rd s F.FCG_C_C g)
      let step := rd s F.FCG_SLEW_VALUE g * 65536 / 10000
      let next := ((fcgAt s g).updTb / 100 + 1) * 100
      rd s F.FCG_FMIN_VALUE g * 65536 ≤ sp → sp ≤ rd s F.FCG_FMAX_VALUE g * 65536 →
      sp ≤ (fcgAt s g).f + step → (fcgAt s g).f ≤ sp + step → Answers (exec (.fcgLoopUpdate g) s) fun t =>
        (fcgAt t g).f = sp ∧ (fcgAt t g).updTb = next ∧ (fcgAt t g).phiTb = max (fcgAt s g).phiTb next
        ∧ (fcgAt t g).phi = (fcgAt s g).phi + phaseOf sp (next - (fcgAt s g).phiTb)
        ∧ rd t F.FCG_STATUS_RAMPING g = 0 ∧ rd t F.FCG_STATUS_CLAMPED g = 0
        ∧ Keeps [(F.FCG_STATUS_RAMPING, g), (F.FCG_STATUS_RAMP_DOWN, g), (F.FCG_STATUS_CLAMPED, g), (F.FCG_SETPOINT_VALUE, g),
            (F.FCG_RATE_VALUE, g)] s t
        ∧ Settled { s with regs := t.regs, fcg := t.fcg } t)

/-- O59. For a pipeline p that holds one job of AUTO, with no pod run and no DONE producer of the pipeline that follows its
outcome. ISP_MERGE_TIMEOUT of a job whose partner has not come by PAIR_US counts a miss and bypasses the job with event 1.
ISP_UNIT_START of a SHARED pipeline without a unit takes the job of a closed frame: its context is loaded, ACTIVE and
VALID, and a change of context counts; a job older than MAX_AGE is bypassed and counted. ISP_UNIT_DONE of an unstriped
closed frame, and ISP_INLINE_DONE of a closed in-line one, end the job DONE: counted, LAST_SEQ, event 0, ACTIVE clear.
(Contexts without a STAT output; the started job's context merges nothing.) -/
def Obligations.PipelineUnitsRunAndEnd : Prop :=
  ∀ (s : State) (p : Nat) (j : IspJob), p < 2 → blockWorks s (12 + p) = true → s.podRuns = [] →
    (∀ i, i < 8 → isSet s F.ISP_DONE_CFG_EN (8 * p + i) = false) → (ispAt s p).jobs = [j] → j.ctx < 64 → j.manual = false →
    let cnt := fun (f : Field) (i : Nat) (t : State) => rd t f i = min (rd s f i + 1) (2 ^ f.width - 1)
    let i := ctxI p j.ctx
    let gone := fun (t : State) => (ispAt t p).jobs = [] ∧ rd t F.ISP_CTX_LAST_SEQ_SEQ i = j.seq % 2 ^ 48
    (j.gather = true → mergeForm s p j.ctx = 1 → j.since + 1000 * rd s F.ISP_CTX_MERGE_PAIR_US i ≤ s.ns →
      Answers (exec (.ispMergeTimeout p j.ctx) s) fun t =>
        cnt F.ISP_CTX_MERGE_MISS_COUNT i t ∧ gone t ∧ hasBit t F.ISP_EVT_EVT p 1 = true)
    ∧ (j.started = false → j.inl = false → j.gather = false → (ispAt s p).unit = none → ispMode s p = ispSHARED →
      (∃ f, frameAt s j.stream j.seq = some f ∧ f.phase ≠ .open) →
      (s.tb ≤ j.tb + rd s F.ISP_CTX_MAX_AGE_NS i → mergeForm s p j.ctx = 0 → jobCode s p j = 0 →
        Answers (exec (.ispUnitStart p) s) fun t =>
          (ispAt t p).unit = some j.ctx ∧ rd t F.ISP_STATUS_LOADED p = 1 ∧ rd t F.ISP_STATUS_CUR_CTX p = j.ctx
          ∧ rd t F.ISP_CTX_STATUS_ACTIVE i = 1 ∧ rd t F.ISP_CTX_STATUS_VALID i = 1 ∧ rd t F.ISP_CTX_STATUS_ERR i = 0
          ∧ (if rd s F.ISP_STATUS_LOADED p = 1 ∧ rd s F.ISP_STATUS_CUR_CTX p = j.ctx
            then rd t F.ISP_SWITCHES_COUNT p = rd s F.ISP_SWITCHES_COUNT p else cnt F.ISP_SWITCHES_COUNT p t)
          ∧ Keeps [(F.ISP_STATUS_LOADED, p), (F.ISP_STATUS_CUR_CTX, p), (F.ISP_CTX_STATUS_ACTIVE, i),
              (F.ISP_CTX_STATUS_VALID, i), (F.ISP_CTX_STATUS_ERR, i), (F.ISP_SWITCHES_COUNT, p)] s t)
      ∧ (j.tb + rd s F.ISP_CTX_MAX_AGE_NS i < s.tb → Answers (exec (.ispUnitStart p) s) fun t =>
        cnt F.ISP_CTX_BYPASS_AGE_COUNT i t ∧ gone t ∧ (ispAt t p).unit = none))
    ∧ (∀ f (ecc : List (Nat × Nat)), frameAt s j.stream j.seq = some f → f.phase ≠ .open →
      isSet (snapView s j) F.ISP_CTX_OUT_EN_STAT_EN i = false →
      let done := fun (t : State) => cnt F.ISP_CTX_DONE_COUNT i t ∧ gone t ∧ hasBit t F.ISP_EVT_EVT p 0 = true
        ∧ rd t F.ISP_CTX_STATUS_ACTIVE i = 0
      (j.started = true → j.inl = false → j.stop = false → (ispAt s p).unit = some j.ctx →
        isSet (snapView s j) F.ISP_CTX_CFG_STRIPED i = false → Answers (exec (.ispUnitDone p ecc) s) fun t =>
          done t ∧ (ispAt t p).unit = none)
      ∧ (j.inl = true → Answers (exec (.ispInlineDone p ecc) s) fun t => done t))

/-- O60. For a working DMA engine with one descriptor d in flight, of channel c. DMA_DESC_START of a COPY, or of a FRAME copy
of a complete frame that no gate controls, with no FRAME ring and no stream delivery, starts it and changes nothing else.
DMA_BURST of a started COPY from SPM to SPM without transform, wrap or record, one row of at most 512 bytes inside the SPM,
moves exactly those bytes: every other byte of SPM is as it was, and all is moved. DMA_DESC_COMPLETE of a moved POSTED COPY
without a record counts it done with event 0, and it leaves flight. DMA_ABORT ends a descriptor without a record ABORTED,
counted, with event 3, and it leaves flight. -/
def Obligations.DescriptorsStartMoveAndEnd : Prop :=
  ∀ (s : State) (d : Desc), blockWorks s 16 = true → s.descs = [d] → d.ended = none → d.chan < 64 →
    let c := d.chan
    let cnt := fun (f : Field) (t : State) => rd t f c = min (rd s f c + 1) (2 ^ f.width - 1)
    (d.started = false → dmaSpace d.dst ≠ 3 → (dmaChAt s c).paused = false → s.sdlvQ = [] →
      (∀ k, k < 64 → isSet s F.DMA_SDLV_CFG_EN k = false) →
      (d.kind = dCOPY ∨ (d.kind = dFRAME ∧ ∃ q f, d.seq = some q ∧ frameAt s d.stream q = some f ∧ f.phase = .complete
        ∧ f.final = false ∧ gateOn s f.stream = false)) → Answers (exec (.dmaDescStart d.id) s) fun t =>
        t.descs = [{ d with started := true }] ∧ Settled { s with descs := t.descs } t)
    ∧ (∀ ecc host, d.started = true → d.moved = false → (dmaChAt s c).paused = false → d.kind = dCOPY → d.u 3 1 = 0 →
      d.u 0x30 2 = 0 → dmaSpace d.src = 1 → dmaSpace d.dst = 1 → d.rows = 1 → d.row = 0 → d.unit = 0 → 1 ≤ d.length →
      d.length ≤ 512 → dmaAddr d.src + d.length ≤ 0x800000 → dmaAddr d.dst + d.length ≤ 0x800000 → d.record = false →
      Answers (exec (.dmaBurst c ecc host) s) fun t =>
        let byte := fun (u : State) (a : Nat) => ramByte u memSPM u.spm a
        (∀ i, i < d.length → byte t (dmaAddr d.dst + i) = byte s (dmaAddr d.src + i))
        ∧ (∀ a, ¬ (dmaAddr d.dst ≤ a ∧ a < dmaAddr d.dst + d.length) → byte t a = byte s a)
        ∧ (∃ e, t.descs = [e] ∧ e.id = d.id ∧ e.moved = true ∧ e.count = d.count + d.length)
        ∧ Settled { s with spm := t.spm, descs := t.descs, dmaTurn := t.dmaTurn } t)
    ∧ (∀ host, d.started = true → d.moved = true → d.region = none → d.kind = dCOPY → d.record = false → d.confirmed = false →
      d.ecc = false → (dmaChAt s c).draining = false → Answers (exec (.dmaDescComplete d.id host) s) fun t =>
        t.descs = [] ∧ cnt F.DMA_CH_DONE_COUNT t ∧ hasBit t F.DMA_CH_EVT_EVT c 0 = true
        ∧ Keeps [(F.DMA_CH_DONE_COUNT, c), (F.DMA_CH_EVT_EVT, c)] s t ∧ Settled { s with regs := t.regs, descs := [] } t)
    ∧ (d.region = none → d.record = false → (dmaChAt s c).draining = false → Answers (exec (.dmaAbort c) s) fun t =>
        t.descs = [] ∧ cnt F.DMA_CH_ABORTED_COUNT t ∧ hasBit t F.DMA_CH_EVT_EVT c 3 = true
        ∧ Keeps [(F.DMA_CH_ABORTED_COUNT, c), (F.DMA_CH_EVT_EVT, c)] s t ∧ Settled { s with regs := t.regs, descs := [] } t)
end

