-- ==== Sys2Proof/Laws/Sparse.lean ====
section
/-! SUPPORT. Laws of the sparse maps: what a write does to a read, and the canonical form. -/
namespace Sys2Proof.Machine

variable {α : Type}

@[simp] theorem sget_nil (d : α) (k : Nat) : sget ([] : List (Nat × α)) d k = d := rfl

theorem sget_serase_same (m : List (Nat × α)) (d : α) (k : Nat) : sget (serase m k) d k = d := by
  induction m with
  | nil => rfl
  | cons p r ih => obtain ⟨a, v⟩ := p; by_cases h : a = k <;> simp [serase, sget, h, ih]

theorem sget_serase_ne (m : List (Nat × α)) (d : α) {k j : Nat} (hj : j ≠ k) : sget (serase m k) d j = sget m d j := by
  induction m with
  | nil => rfl
  | cons p r ih =>
    obtain ⟨a, v⟩ := p
    by_cases h : a = k
    · subst h; simp [serase, sget, ih, Ne.symm hj]
    · simp [serase, sget, h, ih]

theorem sget_sinsert_same (m : List (Nat × α)) (d : α) (k : Nat) (v : α) : sget (sinsert m k v) d k = v := by
  induction m with
  | nil => simp [sinsert, sget]
  | cons p r ih =>
    obtain ⟨a, w⟩ := p
    by_cases h : a < k
    · simp [sinsert, sget, h, ih, Nat.ne_of_lt h]
    · simp [sinsert, sget, h]

theorem sget_sinsert_ne (m : List (Nat × α)) (d : α) {k j : Nat} (v : α) (hj : j ≠ k) :
    sget (sinsert m k v) d j = sget m d j := by
  induction m with
  | nil => simp [sinsert, sget, Ne.symm hj]
  | cons p r ih =>
    obtain ⟨a, w⟩ := p
    by_cases h : a < k
    · simp [sinsert, sget, h, ih]
    · simp [sinsert, sget, h, Ne.symm hj]

/-- A read of the key that was written gives the value written. -/
@[simp] theorem sget_sset_same [DecidableEq α] (m : List (Nat × α)) (d : α) (k : Nat) (v : α) : sget (sset m d k v) d k = v := by
  unfold sset; split
  · rename_i h; rw [sget_serase_same, h]
  · exact sget_sinsert_same ..

/-- A write leaves every other key alone, whatever that key reads as where it is not listed. -/
theorem sget_sset_ne [DecidableEq α] (m : List (Nat × α)) (d e : α) {k j : Nat} (v : α) (hj : j ≠ k) :
    sget (sset m d k v) e j = sget m e j := by
  unfold sset; split
  · exact sget_serase_ne m e hj
  · rw [sget_sinsert_ne _ _ _ hj, sget_serase_ne m e hj]

theorem sget_sset [DecidableEq α] (m : List (Nat × α)) (d : α) (k j : Nat) (v : α) :
    sget (sset m d k v) d j = if j = k then v else sget m d j := by
  split
  · subst j; exact sget_sset_same ..
  · exact sget_sset_ne _ _ _ _ ‹_›

/-! ### The canonical form -/

/-- The keys of a map rise strictly, said of all pairs of entries. -/
def Rising (m : List (Nat × α)) : Prop := m.Pairwise fun p q => p.1 < q.1

theorem sortedKeys_iff (m : List (Nat × α)) : sortedKeys m = true ↔ Rising m := by
  unfold Rising
  induction m with
  | nil => simp [sortedKeys]
  | cons p r ih =>
    cases r with
    | nil => simp [sortedKeys]
    | cons q r =>
      obtain ⟨a, v⟩ := p; obtain ⟨b, w⟩ := q
      simp only [sortedKeys, Bool.and_eq_true, decide_eq_true_eq, ih, List.pairwise_cons, List.mem_cons]
      constructor
      · rintro ⟨h, h1, h2⟩
        refine ⟨?_, h1, h2⟩
        rintro x (rfl | hx)
        · exact h
        · exact Nat.lt_trans h (h1 x hx)
      · rintro ⟨h1, h2⟩
        exact ⟨h1 _ (.inl rfl), h2⟩

theorem mem_serase {m : List (Nat × α)} {k : Nat} {p : Nat × α} : p ∈ serase m k ↔ p ∈ m ∧ p.1 ≠ k := by
  induction m with
  | nil => simp [serase]
  | cons q r ih =>
    obtain ⟨a, v⟩ := q
    by_cases h : a = k
    · simp only [serase, h, if_true, ih, List.mem_cons]
      constructor
      · rintro ⟨h1, h2⟩; exact ⟨.inr h1, h2⟩
      · rintro ⟨rfl | h1, h2⟩
        · exact absurd rfl h2
        · exact ⟨h1, h2⟩
    · simp only [serase, h, if_false, List.mem_cons, ih]
      constructor
      · rintro (rfl | ⟨h1, h2⟩)
        · exact ⟨.inl rfl, h⟩
        · exact ⟨.inr h1, h2⟩
      · rintro ⟨rfl | h1, h2⟩
        · exact .inl rfl
        · exact .inr ⟨h1, h2⟩

theorem rising_serase {m : List (Nat × α)} (k : Nat) (h : Rising m) : Rising (serase m k) := by
  induction m with
  | nil => exact h
  | cons p r ih =>
    obtain ⟨a, v⟩ := p
    obtain ⟨h1, h2⟩ := List.pairwise_cons.mp h
    by_cases e : a = k
    · simp only [serase, e, if_true]; exact ih h2
    · simp only [serase, e, if_false]
      exact List.pairwise_cons.mpr ⟨fun q hq => h1 q (mem_serase.mp hq).1, ih h2⟩

theorem mem_sinsert {m : List (Nat × α)} {k : Nat} {v : α} {p : Nat × α} : p ∈ sinsert m k v ↔ p = (k, v) ∨ p ∈ m := by
  induction m with
  | nil => simp [sinsert]
  | cons q r ih =>
    obtain ⟨a, w⟩ := q
    by_cases h : a < k
    · simp only [sinsert, h, if_true, List.mem_cons, ih]; tauto
    · simp only [sinsert, h, if_false, List.mem_cons]

theorem rising_sinsert {m : List (Nat × α)} {k : Nat} (v : α) (h : Rising m) (hk : ∀ p ∈ m, p.1 ≠ k) :
    Rising (sinsert m k v) := by
  induction m with
  | nil => exact List.pairwise_singleton _ _
  | cons p r ih =>
    obtain ⟨a, w⟩ := p
    obtain ⟨h1, h2⟩ := List.pairwise_cons.mp h
    by_cases e : a < k
    · simp only [sinsert, e, if_true]
      refine List.pairwise_cons.mpr ⟨?_, ih h2 fun p hp => hk p (.tail _ hp)⟩
      intro q hq
      rcases mem_sinsert.mp hq with rfl | hq
      · exact e
      · exact h1 q hq
    · simp only [sinsert, e, if_false]
      have hka : k < a := by have := hk (a, w) (.head _); simp at this; omega
      refine List.pairwise_cons.mpr ⟨?_, h⟩
      intro q hq
      rcases List.mem_cons.mp hq with rfl | hq
      · exact hka
      · exact Nat.lt_trans hka (h1 q hq)

/-- A write keeps the keys rising. -/
theorem sortedKeys_sset [DecidableEq α] {m : List (Nat × α)} (d : α) (k : Nat) (v : α) (h : sortedKeys m = true) :
    sortedKeys (sset m d k v) = true := by
  rw [sortedKeys_iff] at *
  unfold sset; split
  · exact rising_serase k h
  · exact rising_sinsert v (rising_serase k h) fun p hp => (mem_serase.mp hp).2

/-- A write keeps the canonical form. -/
theorem Sparse.wf_sset [DecidableEq α] {m : List (Nat × α)} {d : α} (k : Nat) (v : α) (h : Sparse.wf d m = true) :
    Sparse.wf d (sset m d k v) = true := by
  simp only [Sparse.wf, Bool.and_eq_true] at *
  refine ⟨sortedKeys_sset d k v h.1, ?_⟩
  have h2 := h.2
  rw [List.all_eq_true] at h2 ⊢
  intro p hp
  unfold sset at hp
  split at hp
  · exact h2 p (mem_serase.mp hp).1
  · rcases mem_sinsert.mp hp with rfl | hp
    · simpa using ‹_›
    · exact h2 p (mem_serase.mp hp).1

/-- Keeping some entries keeps the canonical form. -/
theorem Sparse.wf_sfilter [DecidableEq α] {m : List (Nat × α)} {d : α} (f : Nat → Bool) (h : Sparse.wf d m = true) :
    Sparse.wf d (sfilter f m) = true := by
  simp only [Sparse.wf, Bool.and_eq_true, sortedKeys_iff] at *
  refine ⟨List.Pairwise.filter _ h.1, ?_⟩
  have h2 := h.2
  rw [List.all_eq_true] at h2 ⊢
  exact fun p hp => h2 p (List.mem_filter.mp hp).1

theorem sortedKeys_sfilter {m : List (Nat × α)} (f : Nat → Bool) (h : sortedKeys m = true) : sortedKeys (sfilter f m) = true := by
  rw [sortedKeys_iff] at *
  exact List.Pairwise.filter _ h

end Sys2Proof.Machine
end

