-- ==== Sys2Proof/Laws/State.lean ====
section
/-! SUPPORT. What each named update of the state leaves alone: one lemma per field, true by definition. -/
namespace Sys2Proof.Machine

/-! ### `wr` changes `regs` alone -/

@[simp] theorem wr_pending (s : State) (f : Field) (i v : Nat) : (wr s f i v).pending = s.pending := rfl
@[simp] theorem wr_hiHeld (s : State) (f : Field) (i v : Nat) : (wr s f i v).hiHeld = s.hiHeld := rfl
@[simp] theorem wr_tb (s : State) (f : Field) (i v : Nat) : (wr s f i v).tb = s.tb := rfl
@[simp] theorem wr_ns (s : State) (f : Field) (i v : Nat) : (wr s f i v).ns = s.ns := rfl
@[simp] theorem wr_freeCtr (s : State) (f : Field) (i v : Nat) : (wr s f i v).freeCtr = s.freeCtr := rfl
@[simp] theorem wr_beacons (s : State) (f : Field) (i v : Nat) : (wr s f i v).beacons = s.beacons := rfl
@[simp] theorem wr_bcnBusy (s : State) (f : Field) (i v : Nat) : (wr s f i v).bcnBusy = s.bcnBusy := rfl
@[simp] theorem wr_mbx (s : State) (f : Field) (i v : Nat) : (wr s f i v).mbx = s.mbx := rfl
@[simp] theorem wr_cores (s : State) (f : Field) (i v : Nat) : (wr s f i v).cores = s.cores := rfl
@[simp] theorem wr_prog (s : State) (f : Field) (i v : Nat) : (wr s f i v).prog = s.prog := rfl
@[simp] theorem wr_data (s : State) (f : Field) (i v : Nat) : (wr s f i v).data = s.data := rfl
@[simp] theorem wr_shared (s : State) (f : Field) (i v : Nat) : (wr s f i v).shared = s.shared := rfl
@[simp] theorem wr_hashDue (s : State) (f : Field) (i v : Nat) : (wr s f i v).hashDue = s.hashDue := rfl
@[simp] theorem wr_hashDirty (s : State) (f : Field) (i v : Nat) : (wr s f i v).hashDirty = s.hashDirty := rfl
@[simp] theorem wr_msix (s : State) (f : Field) (i v : Nat) : (wr s f i v).msix = s.msix := rfl
@[simp] theorem wr_pci (s : State) (f : Field) (i v : Nat) : (wr s f i v).pci = s.pci := rfl
@[simp] theorem wr_numVfs (s : State) (f : Field) (i v : Nat) : (wr s f i v).numVfs = s.numVfs := rfl
@[simp] theorem wr_vfEnable (s : State) (f : Field) (i v : Nat) : (wr s f i v).vfEnable = s.vfEnable := rfl
@[simp] theorem wr_perst (s : State) (f : Field) (i v : Nat) : (wr s f i v).perst = s.perst := rfl
@[simp] theorem wr_sent (s : State) (f : Field) (i v : Nat) : (wr s f i v).sent = s.sent := rfl
@[simp] theorem wr_held (s : State) (f : Field) (i v : Nat) : (wr s f i v).held = s.held := rfl
@[simp] theorem wr_keeperReady (s : State) (f : Field) (i v : Nat) : (wr s f i v).keeperReady = s.keeperReady := rfl
@[simp] theorem wr_captures (s : State) (f : Field) (i v : Nat) : (wr s f i v).captures = s.captures := rfl
@[simp] theorem wr_abandonedBank (s : State) (f : Field) (i v : Nat) : (wr s f i v).abandonedBank = s.abandonedBank := rfl
@[simp] theorem wr_keepIrq (s : State) (f : Field) (i v : Nat) : (wr s f i v).keepIrq = s.keepIrq := rfl
@[simp] theorem wr_kports (s : State) (f : Field) (i v : Nat) : (wr s f i v).kports = s.kports := rfl
@[simp] theorem wr_kbrRun (s : State) (f : Field) (i v : Nat) : (wr s f i v).kbrRun = s.kbrRun := rfl
@[simp] theorem wr_journal (s : State) (f : Field) (i v : Nat) : (wr s f i v).journal = s.journal := rfl
@[simp] theorem wr_badWords (s : State) (f : Field) (i v : Nat) : (wr s f i v).badWords = s.badWords := rfl
@[simp] theorem wr_logUsed (s : State) (f : Field) (i v : Nat) : (wr s f i v).logUsed = s.logUsed := rfl
@[simp] theorem wr_segDrive (s : State) (f : Field) (i v : Nat) : (wr s f i v).segDrive = s.segDrive := rfl
@[simp] theorem wr_dispActive (s : State) (f : Field) (i v : Nat) : (wr s f i v).dispActive = s.dispActive := rfl
@[simp] theorem wr_segLimited (s : State) (f : Field) (i v : Nat) : (wr s f i v).segLimited = s.segLimited := rfl
@[simp] theorem wr_cmpUpd (s : State) (f : Field) (i v : Nat) : (wr s f i v).cmpUpd = s.cmpUpd := rfl
@[simp] theorem wr_pinAt (s : State) (f : Field) (i v : Nat) : (wr s f i v).pinAt = s.pinAt := rfl
@[simp] theorem wr_lines (s : State) (f : Field) (i v : Nat) : (wr s f i v).lines = s.lines := rfl
@[simp] theorem wr_memLost (s : State) (f : Field) (i v : Nat) : (wr s f i v).memLost = s.memLost := rfl
@[simp] theorem wr_dmaTurn (s : State) (f : Field) (i v : Nat) : (wr s f i v).dmaTurn = s.dmaTurn := rfl
@[simp] theorem wr_pwrRun (s : State) (f : Field) (i v : Nat) : (wr s f i v).pwrRun = s.pwrRun := rfl
@[simp] theorem wr_wokeNow (s : State) (f : Field) (i v : Nat) : (wr s f i v).wokeNow = s.wokeNow := rfl
@[simp] theorem wr_darkNow (s : State) (f : Field) (i v : Nat) : (wr s f i v).darkNow = s.darkNow := rfl
@[simp] theorem wr_armAt (s : State) (f : Field) (i v : Nat) : (wr s f i v).armAt = s.armAt := rfl
@[simp] theorem wr_hotMask (s : State) (f : Field) (i v : Nat) : (wr s f i v).hotMask = s.hotMask := rfl
@[simp] theorem wr_nearTripMask (s : State) (f : Field) (i v : Nat) : (wr s f i v).nearTripMask = s.nearTripMask := rfl
@[simp] theorem wr_frames (s : State) (f : Field) (i v : Nat) : (wr s f i v).frames = s.frames := rfl
@[simp] theorem wr_streams (s : State) (f : Field) (i v : Nat) : (wr s f i v).streams = s.streams := rfl
@[simp] theorem wr_pktPorts (s : State) (f : Field) (i v : Nat) : (wr s f i v).pktPorts = s.pktPorts := rfl
@[simp] theorem wr_tagQ (s : State) (f : Field) (i v : Nat) : (wr s f i v).tagQ = s.tagQ := rfl
@[simp] theorem wr_tagNext (s : State) (f : Field) (i v : Nat) : (wr s f i v).tagNext = s.tagNext := rfl
@[simp] theorem wr_enc (s : State) (f : Field) (i v : Nat) : (wr s f i v).enc = s.enc := rfl
@[simp] theorem wr_po (s : State) (f : Field) (i v : Nat) : (wr s f i v).po = s.po := rfl
@[simp] theorem wr_cmpList (s : State) (f : Field) (i v : Nat) : (wr s f i v).cmpList = s.cmpList := rfl
@[simp] theorem wr_cmpHeld (s : State) (f : Field) (i v : Nat) : (wr s f i v).cmpHeld = s.cmpHeld := rfl
@[simp] theorem wr_cmpCur (s : State) (f : Field) (i v : Nat) : (wr s f i v).cmpCur = s.cmpCur := rfl
@[simp] theorem wr_trg (s : State) (f : Field) (i v : Nat) : (wr s f i v).trg = s.trg := rfl
@[simp] theorem wr_fcg (s : State) (f : Field) (i v : Nat) : (wr s f i v).fcg = s.fcg := rfl
@[simp] theorem wr_periodHeld (s : State) (f : Field) (i v : Nat) : (wr s f i v).periodHeld = s.periodHeld := rfl
@[simp] theorem wr_slew (s : State) (f : Field) (i v : Nat) : (wr s f i v).slew = s.slew := rfl
@[simp] theorem wr_slewNext (s : State) (f : Field) (i v : Nat) : (wr s f i v).slewNext = s.slewNext := rfl
@[simp] theorem wr_ppsGood (s : State) (f : Field) (i v : Nat) : (wr s f i v).ppsGood = s.ppsGood := rfl
@[simp] theorem wr_ppsLast (s : State) (f : Field) (i v : Nat) : (wr s f i v).ppsLast = s.ppsLast := rfl
@[simp] theorem wr_prt (s : State) (f : Field) (i v : Nat) : (wr s f i v).prt = s.prt := rfl
@[simp] theorem wr_isp (s : State) (f : Field) (i v : Nat) : (wr s f i v).isp = s.isp := rfl
@[simp] theorem wr_ispMem (s : State) (f : Field) (i v : Nat) : (wr s f i v).ispMem = s.ispMem := rfl
@[simp] theorem wr_ispMid (s : State) (f : Field) (i v : Nat) : (wr s f i v).ispMid = s.ispMid := rfl
@[simp] theorem wr_podRuns (s : State) (f : Field) (i v : Nat) : (wr s f i v).podRuns = s.podRuns := rfl
@[simp] theorem wr_podNextId (s : State) (f : Field) (i v : Nat) : (wr s f i v).podNextId = s.podNextId := rfl
@[simp] theorem wr_lsram (s : State) (f : Field) (i v : Nat) : (wr s f i v).lsram = s.lsram := rfl
@[simp] theorem wr_lsramUsed (s : State) (f : Field) (i v : Nat) : (wr s f i v).lsramUsed = s.lsramUsed := rfl
@[simp] theorem wr_tracked (s : State) (f : Field) (i v : Nat) : (wr s f i v).tracked = s.tracked := rfl
@[simp] theorem wr_preVerdicts (s : State) (f : Field) (i v : Nat) : (wr s f i v).preVerdicts = s.preVerdicts := rfl
@[simp] theorem wr_keepWins (s : State) (f : Field) (i v : Nat) : (wr s f i v).keepWins = s.keepWins := rfl
@[simp] theorem wr_gateMid (s : State) (f : Field) (i v : Nat) : (wr s f i v).gateMid = s.gateMid := rfl
@[simp] theorem wr_lp5x (s : State) (f : Field) (i v : Nat) : (wr s f i v).lp5x = s.lp5x := rfl
@[simp] theorem wr_spm (s : State) (f : Field) (i v : Nat) : (wr s f i v).spm = s.spm := rfl
@[simp] theorem wr_storeBuf (s : State) (f : Field) (i v : Nat) : (wr s f i v).storeBuf = s.storeBuf := rfl
@[simp] theorem wr_burstPost (s : State) (f : Field) (i v : Nat) : (wr s f i v).burstPost = s.burstPost := rfl
@[simp] theorem wr_descs (s : State) (f : Field) (i v : Nat) : (wr s f i v).descs = s.descs := rfl
@[simp] theorem wr_dmaNextId (s : State) (f : Field) (i v : Nat) : (wr s f i v).dmaNextId = s.dmaNextId := rfl
@[simp] theorem wr_dmaCh (s : State) (f : Field) (i v : Nat) : (wr s f i v).dmaCh = s.dmaCh := rfl
@[simp] theorem wr_sdlvQ (s : State) (f : Field) (i v : Nat) : (wr s f i v).sdlvQ = s.sdlvQ := rfl
@[simp] theorem wr_sdlvRead (s : State) (f : Field) (i v : Nat) : (wr s f i v).sdlvRead = s.sdlvRead := rfl
@[simp] theorem wr_rings (s : State) (f : Field) (i v : Nat) : (wr s f i v).rings = s.rings := rfl
@[simp] theorem wr_recQ (s : State) (f : Field) (i v : Nat) : (wr s f i v).recQ = s.recQ := rfl
@[simp] theorem wr_twn (s : State) (f : Field) (i v : Nat) : (wr s f i v).twn = s.twn := rfl
@[simp] theorem wr_twnFcg (s : State) (f : Field) (i v : Nat) : (wr s f i v).twnFcg = s.twnFcg := rfl
@[simp] theorem wr_twnStreams (s : State) (f : Field) (i v : Nat) : (wr s f i v).twnStreams = s.twnStreams := rfl
@[simp] theorem wr_aDieReset (s : State) (f : Field) (i v : Nat) : (wr s f i v).aDieReset = s.aDieReset := rfl
@[simp] theorem wr_laneStopped (s : State) (f : Field) (i v : Nat) : (wr s f i v).laneStopped = s.laneStopped := rfl
@[simp] theorem wr_aDieReleased (s : State) (f : Field) (i v : Nat) : (wr s f i v).aDieReleased = s.aDieReleased := rfl
@[simp] theorem wr_hiZ (s : State) (f : Field) (i v : Nat) : (wr s f i v).hiZ = s.hiZ := rfl

/-! ### `setCore` changes `cores` alone -/

@[simp] theorem setCore_pending (s : State) (c : Nat) (k : SqCore) : (setCore s c k).pending = s.pending := rfl
@[simp] theorem setCore_regs (s : State) (c : Nat) (k : SqCore) : (setCore s c k).regs = s.regs := rfl
@[simp] theorem setCore_hiHeld (s : State) (c : Nat) (k : SqCore) : (setCore s c k).hiHeld = s.hiHeld := rfl
@[simp] theorem setCore_tb (s : State) (c : Nat) (k : SqCore) : (setCore s c k).tb = s.tb := rfl
@[simp] theorem setCore_ns (s : State) (c : Nat) (k : SqCore) : (setCore s c k).ns = s.ns := rfl
@[simp] theorem setCore_freeCtr (s : State) (c : Nat) (k : SqCore) : (setCore s c k).freeCtr = s.freeCtr := rfl
@[simp] theorem setCore_beacons (s : State) (c : Nat) (k : SqCore) : (setCore s c k).beacons = s.beacons := rfl
@[simp] theorem setCore_bcnBusy (s : State) (c : Nat) (k : SqCore) : (setCore s c k).bcnBusy = s.bcnBusy := rfl
@[simp] theorem setCore_mbx (s : State) (c : Nat) (k : SqCore) : (setCore s c k).mbx = s.mbx := rfl
@[simp] theorem setCore_prog (s : State) (c : Nat) (k : SqCore) : (setCore s c k).prog = s.prog := rfl
@[simp] theorem setCore_data (s : State) (c : Nat) (k : SqCore) : (setCore s c k).data = s.data := rfl
@[simp] theorem setCore_shared (s : State) (c : Nat) (k : SqCore) : (setCore s c k).shared = s.shared := rfl
@[simp] theorem setCore_hashDue (s : State) (c : Nat) (k : SqCore) : (setCore s c k).hashDue = s.hashDue := rfl
@[simp] theorem setCore_hashDirty (s : State) (c : Nat) (k : SqCore) : (setCore s c k).hashDirty = s.hashDirty := rfl
@[simp] theorem setCore_msix (s : State) (c : Nat) (k : SqCore) : (setCore s c k).msix = s.msix := rfl
@[simp] theorem setCore_pci (s : State) (c : Nat) (k : SqCore) : (setCore s c k).pci = s.pci := rfl
@[simp] theorem setCore_numVfs (s : State) (c : Nat) (k : SqCore) : (setCore s c k).numVfs = s.numVfs := rfl
@[simp] theorem setCore_vfEnable (s : State) (c : Nat) (k : SqCore) : (setCore s c k).vfEnable = s.vfEnable := rfl
@[simp] theorem setCore_perst (s : State) (c : Nat) (k : SqCore) : (setCore s c k).perst = s.perst := rfl
@[simp] theorem setCore_sent (s : State) (c : Nat) (k : SqCore) : (setCore s c k).sent = s.sent := rfl
@[simp] theorem setCore_held (s : State) (c : Nat) (k : SqCore) : (setCore s c k).held = s.held := rfl
@[simp] theorem setCore_keeperReady (s : State) (c : Nat) (k : SqCore) : (setCore s c k).keeperReady = s.keeperReady := rfl
@[simp] theorem setCore_captures (s : State) (c : Nat) (k : SqCore) : (setCore s c k).captures = s.captures := rfl
@[simp] theorem setCore_abandonedBank (s : State) (c : Nat) (k : SqCore) : (setCore s c k).abandonedBank = s.abandonedBank := rfl
@[simp] theorem setCore_keepIrq (s : State) (c : Nat) (k : SqCore) : (setCore s c k).keepIrq = s.keepIrq := rfl
@[simp] theorem setCore_kports (s : State) (c : Nat) (k : SqCore) : (setCore s c k).kports = s.kports := rfl
@[simp] theorem setCore_kbrRun (s : State) (c : Nat) (k : SqCore) : (setCore s c k).kbrRun = s.kbrRun := rfl
@[simp] theorem setCore_journal (s : State) (c : Nat) (k : SqCore) : (setCore s c k).journal = s.journal := rfl
@[simp] theorem setCore_badWords (s : State) (c : Nat) (k : SqCore) : (setCore s c k).badWords = s.badWords := rfl
@[simp] theorem setCore_logUsed (s : State) (c : Nat) (k : SqCore) : (setCore s c k).logUsed = s.logUsed := rfl
@[simp] theorem setCore_segDrive (s : State) (c : Nat) (k : SqCore) : (setCore s c k).segDrive = s.segDrive := rfl
@[simp] theorem setCore_dispActive (s : State) (c : Nat) (k : SqCore) : (setCore s c k).dispActive = s.dispActive := rfl
@[simp] theorem setCore_segLimited (s : State) (c : Nat) (k : SqCore) : (setCore s c k).segLimited = s.segLimited := rfl
@[simp] theorem setCore_cmpUpd (s : State) (c : Nat) (k : SqCore) : (setCore s c k).cmpUpd = s.cmpUpd := rfl
@[simp] theorem setCore_pinAt (s : State) (c : Nat) (k : SqCore) : (setCore s c k).pinAt = s.pinAt := rfl
@[simp] theorem setCore_lines (s : State) (c : Nat) (k : SqCore) : (setCore s c k).lines = s.lines := rfl
@[simp] theorem setCore_memLost (s : State) (c : Nat) (k : SqCore) : (setCore s c k).memLost = s.memLost := rfl
@[simp] theorem setCore_dmaTurn (s : State) (c : Nat) (k : SqCore) : (setCore s c k).dmaTurn = s.dmaTurn := rfl
@[simp] theorem setCore_pwrRun (s : State) (c : Nat) (k : SqCore) : (setCore s c k).pwrRun = s.pwrRun := rfl
@[simp] theorem setCore_wokeNow (s : State) (c : Nat) (k : SqCore) : (setCore s c k).wokeNow = s.wokeNow := rfl
@[simp] theorem setCore_darkNow (s : State) (c : Nat) (k : SqCore) : (setCore s c k).darkNow = s.darkNow := rfl
@[simp] theorem setCore_armAt (s : State) (c : Nat) (k : SqCore) : (setCore s c k).armAt = s.armAt := rfl
@[simp] theorem setCore_hotMask (s : State) (c : Nat) (k : SqCore) : (setCore s c k).hotMask = s.hotMask := rfl
@[simp] theorem setCore_nearTripMask (s : State) (c : Nat) (k : SqCore) : (setCore s c k).nearTripMask = s.nearTripMask := rfl
@[simp] theorem setCore_frames (s : State) (c : Nat) (k : SqCore) : (setCore s c k).frames = s.frames := rfl
@[simp] theorem setCore_streams (s : State) (c : Nat) (k : SqCore) : (setCore s c k).streams = s.streams := rfl
@[simp] theorem setCore_pktPorts (s : State) (c : Nat) (k : SqCore) : (setCore s c k).pktPorts = s.pktPorts := rfl
@[simp] theorem setCore_tagQ (s : State) (c : Nat) (k : SqCore) : (setCore s c k).tagQ = s.tagQ := rfl
@[simp] theorem setCore_tagNext (s : State) (c : Nat) (k : SqCore) : (setCore s c k).tagNext = s.tagNext := rfl
@[simp] theorem setCore_enc (s : State) (c : Nat) (k : SqCore) : (setCore s c k).enc = s.enc := rfl
@[simp] theorem setCore_po (s : State) (c : Nat) (k : SqCore) : (setCore s c k).po = s.po := rfl
@[simp] theorem setCore_cmpList (s : State) (c : Nat) (k : SqCore) : (setCore s c k).cmpList = s.cmpList := rfl
@[simp] theorem setCore_cmpHeld (s : State) (c : Nat) (k : SqCore) : (setCore s c k).cmpHeld = s.cmpHeld := rfl
@[simp] theorem setCore_cmpCur (s : State) (c : Nat) (k : SqCore) : (setCore s c k).cmpCur = s.cmpCur := rfl
@[simp] theorem setCore_trg (s : State) (c : Nat) (k : SqCore) : (setCore s c k).trg = s.trg := rfl
@[simp] theorem setCore_fcg (s : State) (c : Nat) (k : SqCore) : (setCore s c k).fcg = s.fcg := rfl
@[simp] theorem setCore_periodHeld (s : State) (c : Nat) (k : SqCore) : (setCore s c k).periodHeld = s.periodHeld := rfl
@[simp] theorem setCore_slew (s : State) (c : Nat) (k : SqCore) : (setCore s c k).slew = s.slew := rfl
@[simp] theorem setCore_slewNext (s : State) (c : Nat) (k : SqCore) : (setCore s c k).slewNext = s.slewNext := rfl
@[simp] theorem setCore_ppsGood (s : State) (c : Nat) (k : SqCore) : (setCore s c k).ppsGood = s.ppsGood := rfl
@[simp] theorem setCore_ppsLast (s : State) (c : Nat) (k : SqCore) : (setCore s c k).ppsLast = s.ppsLast := rfl
@[simp] theorem setCore_prt (s : State) (c : Nat) (k : SqCore) : (setCore s c k).prt = s.prt := rfl
@[simp] theorem setCore_isp (s : State) (c : Nat) (k : SqCore) : (setCore s c k).isp = s.isp := rfl
@[simp] theorem setCore_ispMem (s : State) (c : Nat) (k : SqCore) : (setCore s c k).ispMem = s.ispMem := rfl
@[simp] theorem setCore_ispMid (s : State) (c : Nat) (k : SqCore) : (setCore s c k).ispMid = s.ispMid := rfl
@[simp] theorem setCore_podRuns (s : State) (c : Nat) (k : SqCore) : (setCore s c k).podRuns = s.podRuns := rfl
@[simp] theorem setCore_podNextId (s : State) (c : Nat) (k : SqCore) : (setCore s c k).podNextId = s.podNextId := rfl
@[simp] theorem setCore_lsram (s : State) (c : Nat) (k : SqCore) : (setCore s c k).lsram = s.lsram := rfl
@[simp] theorem setCore_lsramUsed (s : State) (c : Nat) (k : SqCore) : (setCore s c k).lsramUsed = s.lsramUsed := rfl
@[simp] theorem setCore_tracked (s : State) (c : Nat) (k : SqCore) : (setCore s c k).tracked = s.tracked := rfl
@[simp] theorem setCore_preVerdicts (s : State) (c : Nat) (k : SqCore) : (setCore s c k).preVerdicts = s.preVerdicts := rfl
@[simp] theorem setCore_keepWins (s : State) (c : Nat) (k : SqCore) : (setCore s c k).keepWins = s.keepWins := rfl
@[simp] theorem setCore_gateMid (s : State) (c : Nat) (k : SqCore) : (setCore s c k).gateMid = s.gateMid := rfl
@[simp] theorem setCore_lp5x (s : State) (c : Nat) (k : SqCore) : (setCore s c k).lp5x = s.lp5x := rfl
@[simp] theorem setCore_spm (s : State) (c : Nat) (k : SqCore) : (setCore s c k).spm = s.spm := rfl
@[simp] theorem setCore_storeBuf (s : State) (c : Nat) (k : SqCore) : (setCore s c k).storeBuf = s.storeBuf := rfl
@[simp] theorem setCore_burstPost (s : State) (c : Nat) (k : SqCore) : (setCore s c k).burstPost = s.burstPost := rfl
@[simp] theorem setCore_descs (s : State) (c : Nat) (k : SqCore) : (setCore s c k).descs = s.descs := rfl
@[simp] theorem setCore_dmaNextId (s : State) (c : Nat) (k : SqCore) : (setCore s c k).dmaNextId = s.dmaNextId := rfl
@[simp] theorem setCore_dmaCh (s : State) (c : Nat) (k : SqCore) : (setCore s c k).dmaCh = s.dmaCh := rfl
@[simp] theorem setCore_sdlvQ (s : State) (c : Nat) (k : SqCore) : (setCore s c k).sdlvQ = s.sdlvQ := rfl
@[simp] theorem setCore_sdlvRead (s : State) (c : Nat) (k : SqCore) : (setCore s c k).sdlvRead = s.sdlvRead := rfl
@[simp] theorem setCore_rings (s : State) (c : Nat) (k : SqCore) : (setCore s c k).rings = s.rings := rfl
@[simp] theorem setCore_recQ (s : State) (c : Nat) (k : SqCore) : (setCore s c k).recQ = s.recQ := rfl
@[simp] theorem setCore_twn (s : State) (c : Nat) (k : SqCore) : (setCore s c k).twn = s.twn := rfl
@[simp] theorem setCore_twnFcg (s : State) (c : Nat) (k : SqCore) : (setCore s c k).twnFcg = s.twnFcg := rfl
@[simp] theorem setCore_twnStreams (s : State) (c : Nat) (k : SqCore) : (setCore s c k).twnStreams = s.twnStreams := rfl
@[simp] theorem setCore_aDieReset (s : State) (c : Nat) (k : SqCore) : (setCore s c k).aDieReset = s.aDieReset := rfl
@[simp] theorem setCore_laneStopped (s : State) (c : Nat) (k : SqCore) : (setCore s c k).laneStopped = s.laneStopped := rfl
@[simp] theorem setCore_aDieReleased (s : State) (c : Nat) (k : SqCore) : (setCore s c k).aDieReleased = s.aDieReleased := rfl
@[simp] theorem setCore_hiZ (s : State) (c : Nat) (k : SqCore) : (setCore s c k).hiZ = s.hiZ := rfl

/-! ### `setMbx` changes `mbx` alone -/

@[simp] theorem setMbx_pending (s : State) (m : Nat) (k : Mbx) : (setMbx s m k).pending = s.pending := rfl
@[simp] theorem setMbx_regs (s : State) (m : Nat) (k : Mbx) : (setMbx s m k).regs = s.regs := rfl
@[simp] theorem setMbx_hiHeld (s : State) (m : Nat) (k : Mbx) : (setMbx s m k).hiHeld = s.hiHeld := rfl
@[simp] theorem setMbx_tb (s : State) (m : Nat) (k : Mbx) : (setMbx s m k).tb = s.tb := rfl
@[simp] theorem setMbx_ns (s : State) (m : Nat) (k : Mbx) : (setMbx s m k).ns = s.ns := rfl
@[simp] theorem setMbx_freeCtr (s : State) (m : Nat) (k : Mbx) : (setMbx s m k).freeCtr = s.freeCtr := rfl
@[simp] theorem setMbx_beacons (s : State) (m : Nat) (k : Mbx) : (setMbx s m k).beacons = s.beacons := rfl
@[simp] theorem setMbx_bcnBusy (s : State) (m : Nat) (k : Mbx) : (setMbx s m k).bcnBusy = s.bcnBusy := rfl
@[simp] theorem setMbx_cores (s : State) (m : Nat) (k : Mbx) : (setMbx s m k).cores = s.cores := rfl
@[simp] theorem setMbx_prog (s : State) (m : Nat) (k : Mbx) : (setMbx s m k).prog = s.prog := rfl
@[simp] theorem setMbx_data (s : State) (m : Nat) (k : Mbx) : (setMbx s m k).data = s.data := rfl
@[simp] theorem setMbx_shared (s : State) (m : Nat) (k : Mbx) : (setMbx s m k).shared = s.shared := rfl
@[simp] theorem setMbx_hashDue (s : State) (m : Nat) (k : Mbx) : (setMbx s m k).hashDue = s.hashDue := rfl
@[simp] theorem setMbx_hashDirty (s : State) (m : Nat) (k : Mbx) : (setMbx s m k).hashDirty = s.hashDirty := rfl
@[simp] theorem setMbx_msix (s : State) (m : Nat) (k : Mbx) : (setMbx s m k).msix = s.msix := rfl
@[simp] theorem setMbx_pci (s : State) (m : Nat) (k : Mbx) : (setMbx s m k).pci = s.pci := rfl
@[simp] theorem setMbx_numVfs (s : State) (m : Nat) (k : Mbx) : (setMbx s m k).numVfs = s.numVfs := rfl
@[simp] theorem setMbx_vfEnable (s : State) (m : Nat) (k : Mbx) : (setMbx s m k).vfEnable = s.vfEnable := rfl
@[simp] theorem setMbx_perst (s : State) (m : Nat) (k : Mbx) : (setMbx s m k).perst = s.perst := rfl
@[simp] theorem setMbx_sent (s : State) (m : Nat) (k : Mbx) : (setMbx s m k).sent = s.sent := rfl
@[simp] theorem setMbx_held (s : State) (m : Nat) (k : Mbx) : (setMbx s m k).held = s.held := rfl
@[simp] theorem setMbx_keeperReady (s : State) (m : Nat) (k : Mbx) : (setMbx s m k).keeperReady = s.keeperReady := rfl
@[simp] theorem setMbx_captures (s : State) (m : Nat) (k : Mbx) : (setMbx s m k).captures = s.captures := rfl
@[simp] theorem setMbx_abandonedBank (s : State) (m : Nat) (k : Mbx) : (setMbx s m k).abandonedBank = s.abandonedBank := rfl
@[simp] theorem setMbx_keepIrq (s : State) (m : Nat) (k : Mbx) : (setMbx s m k).keepIrq = s.keepIrq := rfl
@[simp] theorem setMbx_kports (s : State) (m : Nat) (k : Mbx) : (setMbx s m k).kports = s.kports := rfl
@[simp] theorem setMbx_kbrRun (s : State) (m : Nat) (k : Mbx) : (setMbx s m k).kbrRun = s.kbrRun := rfl
@[simp] theorem setMbx_journal (s : State) (m : Nat) (k : Mbx) : (setMbx s m k).journal = s.journal := rfl
@[simp] theorem setMbx_badWords (s : State) (m : Nat) (k : Mbx) : (setMbx s m k).badWords = s.badWords := rfl
@[simp] theorem setMbx_logUsed (s : State) (m : Nat) (k : Mbx) : (setMbx s m k).logUsed = s.logUsed := rfl
@[simp] theorem setMbx_segDrive (s : State) (m : Nat) (k : Mbx) : (setMbx s m k).segDrive = s.segDrive := rfl
@[simp] theorem setMbx_dispActive (s : State) (m : Nat) (k : Mbx) : (setMbx s m k).dispActive = s.dispActive := rfl
@[simp] theorem setMbx_segLimited (s : State) (m : Nat) (k : Mbx) : (setMbx s m k).segLimited = s.segLimited := rfl
@[simp] theorem setMbx_cmpUpd (s : State) (m : Nat) (k : Mbx) : (setMbx s m k).cmpUpd = s.cmpUpd := rfl
@[simp] theorem setMbx_pinAt (s : State) (m : Nat) (k : Mbx) : (setMbx s m k).pinAt = s.pinAt := rfl
@[simp] theorem setMbx_lines (s : State) (m : Nat) (k : Mbx) : (setMbx s m k).lines = s.lines := rfl
@[simp] theorem setMbx_memLost (s : State) (m : Nat) (k : Mbx) : (setMbx s m k).memLost = s.memLost := rfl
@[simp] theorem setMbx_dmaTurn (s : State) (m : Nat) (k : Mbx) : (setMbx s m k).dmaTurn = s.dmaTurn := rfl
@[simp] theorem setMbx_pwrRun (s : State) (m : Nat) (k : Mbx) : (setMbx s m k).pwrRun = s.pwrRun := rfl
@[simp] theorem setMbx_wokeNow (s : State) (m : Nat) (k : Mbx) : (setMbx s m k).wokeNow = s.wokeNow := rfl
@[simp] theorem setMbx_darkNow (s : State) (m : Nat) (k : Mbx) : (setMbx s m k).darkNow = s.darkNow := rfl
@[simp] theorem setMbx_armAt (s : State) (m : Nat) (k : Mbx) : (setMbx s m k).armAt = s.armAt := rfl
@[simp] theorem setMbx_hotMask (s : State) (m : Nat) (k : Mbx) : (setMbx s m k).hotMask = s.hotMask := rfl
@[simp] theorem setMbx_nearTripMask (s : State) (m : Nat) (k : Mbx) : (setMbx s m k).nearTripMask = s.nearTripMask := rfl
@[simp] theorem setMbx_frames (s : State) (m : Nat) (k : Mbx) : (setMbx s m k).frames = s.frames := rfl
@[simp] theorem setMbx_streams (s : State) (m : Nat) (k : Mbx) : (setMbx s m k).streams = s.streams := rfl
@[simp] theorem setMbx_pktPorts (s : State) (m : Nat) (k : Mbx) : (setMbx s m k).pktPorts = s.pktPorts := rfl
@[simp] theorem setMbx_tagQ (s : State) (m : Nat) (k : Mbx) : (setMbx s m k).tagQ = s.tagQ := rfl
@[simp] theorem setMbx_tagNext (s : State) (m : Nat) (k : Mbx) : (setMbx s m k).tagNext = s.tagNext := rfl
@[simp] theorem setMbx_enc (s : State) (m : Nat) (k : Mbx) : (setMbx s m k).enc = s.enc := rfl
@[simp] theorem setMbx_po (s : State) (m : Nat) (k : Mbx) : (setMbx s m k).po = s.po := rfl
@[simp] theorem setMbx_cmpList (s : State) (m : Nat) (k : Mbx) : (setMbx s m k).cmpList = s.cmpList := rfl
@[simp] theorem setMbx_cmpHeld (s : State) (m : Nat) (k : Mbx) : (setMbx s m k).cmpHeld = s.cmpHeld := rfl
@[simp] theorem setMbx_cmpCur (s : State) (m : Nat) (k : Mbx) : (setMbx s m k).cmpCur = s.cmpCur := rfl
@[simp] theorem setMbx_trg (s : State) (m : Nat) (k : Mbx) : (setMbx s m k).trg = s.trg := rfl
@[simp] theorem setMbx_fcg (s : State) (m : Nat) (k : Mbx) : (setMbx s m k).fcg = s.fcg := rfl
@[simp] theorem setMbx_periodHeld (s : State) (m : Nat) (k : Mbx) : (setMbx s m k).periodHeld = s.periodHeld := rfl
@[simp] theorem setMbx_slew (s : State) (m : Nat) (k : Mbx) : (setMbx s m k).slew = s.slew := rfl
@[simp] theorem setMbx_slewNext (s : State) (m : Nat) (k : Mbx) : (setMbx s m k).slewNext = s.slewNext := rfl
@[simp] theorem setMbx_ppsGood (s : State) (m : Nat) (k : Mbx) : (setMbx s m k).ppsGood = s.ppsGood := rfl
@[simp] theorem setMbx_ppsLast (s : State) (m : Nat) (k : Mbx) : (setMbx s m k).ppsLast = s.ppsLast := rfl
@[simp] theorem setMbx_prt (s : State) (m : Nat) (k : Mbx) : (setMbx s m k).prt = s.prt := rfl
@[simp] theorem setMbx_isp (s : State) (m : Nat) (k : Mbx) : (setMbx s m k).isp = s.isp := rfl
@[simp] theorem setMbx_ispMem (s : State) (m : Nat) (k : Mbx) : (setMbx s m k).ispMem = s.ispMem := rfl
@[simp] theorem setMbx_ispMid (s : State) (m : Nat) (k : Mbx) : (setMbx s m k).ispMid = s.ispMid := rfl
@[simp] theorem setMbx_podRuns (s : State) (m : Nat) (k : Mbx) : (setMbx s m k).podRuns = s.podRuns := rfl
@[simp] theorem setMbx_podNextId (s : State) (m : Nat) (k : Mbx) : (setMbx s m k).podNextId = s.podNextId := rfl
@[simp] theorem setMbx_lsram (s : State) (m : Nat) (k : Mbx) : (setMbx s m k).lsram = s.lsram := rfl
@[simp] theorem setMbx_lsramUsed (s : State) (m : Nat) (k : Mbx) : (setMbx s m k).lsramUsed = s.lsramUsed := rfl
@[simp] theorem setMbx_tracked (s : State) (m : Nat) (k : Mbx) : (setMbx s m k).tracked = s.tracked := rfl
@[simp] theorem setMbx_preVerdicts (s : State) (m : Nat) (k : Mbx) : (setMbx s m k).preVerdicts = s.preVerdicts := rfl
@[simp] theorem setMbx_keepWins (s : State) (m : Nat) (k : Mbx) : (setMbx s m k).keepWins = s.keepWins := rfl
@[simp] theorem setMbx_gateMid (s : State) (m : Nat) (k : Mbx) : (setMbx s m k).gateMid = s.gateMid := rfl
@[simp] theorem setMbx_lp5x (s : State) (m : Nat) (k : Mbx) : (setMbx s m k).lp5x = s.lp5x := rfl
@[simp] theorem setMbx_spm (s : State) (m : Nat) (k : Mbx) : (setMbx s m k).spm = s.spm := rfl
@[simp] theorem setMbx_storeBuf (s : State) (m : Nat) (k : Mbx) : (setMbx s m k).storeBuf = s.storeBuf := rfl
@[simp] theorem setMbx_burstPost (s : State) (m : Nat) (k : Mbx) : (setMbx s m k).burstPost = s.burstPost := rfl
@[simp] theorem setMbx_descs (s : State) (m : Nat) (k : Mbx) : (setMbx s m k).descs = s.descs := rfl
@[simp] theorem setMbx_dmaNextId (s : State) (m : Nat) (k : Mbx) : (setMbx s m k).dmaNextId = s.dmaNextId := rfl
@[simp] theorem setMbx_dmaCh (s : State) (m : Nat) (k : Mbx) : (setMbx s m k).dmaCh = s.dmaCh := rfl
@[simp] theorem setMbx_sdlvQ (s : State) (m : Nat) (k : Mbx) : (setMbx s m k).sdlvQ = s.sdlvQ := rfl
@[simp] theorem setMbx_sdlvRead (s : State) (m : Nat) (k : Mbx) : (setMbx s m k).sdlvRead = s.sdlvRead := rfl
@[simp] theorem setMbx_rings (s : State) (m : Nat) (k : Mbx) : (setMbx s m k).rings = s.rings := rfl
@[simp] theorem setMbx_recQ (s : State) (m : Nat) (k : Mbx) : (setMbx s m k).recQ = s.recQ := rfl
@[simp] theorem setMbx_twn (s : State) (m : Nat) (k : Mbx) : (setMbx s m k).twn = s.twn := rfl
@[simp] theorem setMbx_twnFcg (s : State) (m : Nat) (k : Mbx) : (setMbx s m k).twnFcg = s.twnFcg := rfl
@[simp] theorem setMbx_twnStreams (s : State) (m : Nat) (k : Mbx) : (setMbx s m k).twnStreams = s.twnStreams := rfl
@[simp] theorem setMbx_aDieReset (s : State) (m : Nat) (k : Mbx) : (setMbx s m k).aDieReset = s.aDieReset := rfl
@[simp] theorem setMbx_laneStopped (s : State) (m : Nat) (k : Mbx) : (setMbx s m k).laneStopped = s.laneStopped := rfl
@[simp] theorem setMbx_aDieReleased (s : State) (m : Nat) (k : Mbx) : (setMbx s m k).aDieReleased = s.aDieReleased := rfl
@[simp] theorem setMbx_hiZ (s : State) (m : Nat) (k : Mbx) : (setMbx s m k).hiZ = s.hiZ := rfl

/-! ### `setPci` changes `pci` alone -/

@[simp] theorem setPci_pending (s : State) (fn : Nat) (k : PciFn) : (setPci s fn k).pending = s.pending := rfl
@[simp] theorem setPci_regs (s : State) (fn : Nat) (k : PciFn) : (setPci s fn k).regs = s.regs := rfl
@[simp] theorem setPci_hiHeld (s : State) (fn : Nat) (k : PciFn) : (setPci s fn k).hiHeld = s.hiHeld := rfl
@[simp] theorem setPci_tb (s : State) (fn : Nat) (k : PciFn) : (setPci s fn k).tb = s.tb := rfl
@[simp] theorem setPci_ns (s : State) (fn : Nat) (k : PciFn) : (setPci s fn k).ns = s.ns := rfl
@[simp] theorem setPci_freeCtr (s : State) (fn : Nat) (k : PciFn) : (setPci s fn k).freeCtr = s.freeCtr := rfl
@[simp] theorem setPci_beacons (s : State) (fn : Nat) (k : PciFn) : (setPci s fn k).beacons = s.beacons := rfl
@[simp] theorem setPci_bcnBusy (s : State) (fn : Nat) (k : PciFn) : (setPci s fn k).bcnBusy = s.bcnBusy := rfl
@[simp] theorem setPci_mbx (s : State) (fn : Nat) (k : PciFn) : (setPci s fn k).mbx = s.mbx := rfl
@[simp] theorem setPci_cores (s : State) (fn : Nat) (k : PciFn) : (setPci s fn k).cores = s.cores := rfl
@[simp] theorem setPci_prog (s : State) (fn : Nat) (k : PciFn) : (setPci s fn k).prog = s.prog := rfl
@[simp] theorem setPci_data (s : State) (fn : Nat) (k : PciFn) : (setPci s fn k).data = s.data := rfl
@[simp] theorem setPci_shared (s : State) (fn : Nat) (k : PciFn) : (setPci s fn k).shared = s.shared := rfl
@[simp] theorem setPci_hashDue (s : State) (fn : Nat) (k : PciFn) : (setPci s fn k).hashDue = s.hashDue := rfl
@[simp] theorem setPci_hashDirty (s : State) (fn : Nat) (k : PciFn) : (setPci s fn k).hashDirty = s.hashDirty := rfl
@[simp] theorem setPci_msix (s : State) (fn : Nat) (k : PciFn) : (setPci s fn k).msix = s.msix := rfl
@[simp] theorem setPci_numVfs (s : State) (fn : Nat) (k : PciFn) : (setPci s fn k).numVfs = s.numVfs := rfl
@[simp] theorem setPci_vfEnable (s : State) (fn : Nat) (k : PciFn) : (setPci s fn k).vfEnable = s.vfEnable := rfl
@[simp] theorem setPci_perst (s : State) (fn : Nat) (k : PciFn) : (setPci s fn k).perst = s.perst := rfl
@[simp] theorem setPci_sent (s : State) (fn : Nat) (k : PciFn) : (setPci s fn k).sent = s.sent := rfl
@[simp] theorem setPci_held (s : State) (fn : Nat) (k : PciFn) : (setPci s fn k).held = s.held := rfl
@[simp] theorem setPci_keeperReady (s : State) (fn : Nat) (k : PciFn) : (setPci s fn k).keeperReady = s.keeperReady := rfl
@[simp] theorem setPci_captures (s : State) (fn : Nat) (k : PciFn) : (setPci s fn k).captures = s.captures := rfl
@[simp] theorem setPci_abandonedBank (s : State) (fn : Nat) (k : PciFn) : (setPci s fn k).abandonedBank = s.abandonedBank := rfl
@[simp] theorem setPci_keepIrq (s : State) (fn : Nat) (k : PciFn) : (setPci s fn k).keepIrq = s.keepIrq := rfl
@[simp] theorem setPci_kports (s : State) (fn : Nat) (k : PciFn) : (setPci s fn k).kports = s.kports := rfl
@[simp] theorem setPci_kbrRun (s : State) (fn : Nat) (k : PciFn) : (setPci s fn k).kbrRun = s.kbrRun := rfl
@[simp] theorem setPci_journal (s : State) (fn : Nat) (k : PciFn) : (setPci s fn k).journal = s.journal := rfl
@[simp] theorem setPci_badWords (s : State) (fn : Nat) (k : PciFn) : (setPci s fn k).badWords = s.badWords := rfl
@[simp] theorem setPci_logUsed (s : State) (fn : Nat) (k : PciFn) : (setPci s fn k).logUsed = s.logUsed := rfl
@[simp] theorem setPci_segDrive (s : State) (fn : Nat) (k : PciFn) : (setPci s fn k).segDrive = s.segDrive := rfl
@[simp] theorem setPci_dispActive (s : State) (fn : Nat) (k : PciFn) : (setPci s fn k).dispActive = s.dispActive := rfl
@[simp] theorem setPci_segLimited (s : State) (fn : Nat) (k : PciFn) : (setPci s fn k).segLimited = s.segLimited := rfl
@[simp] theorem setPci_cmpUpd (s : State) (fn : Nat) (k : PciFn) : (setPci s fn k).cmpUpd = s.cmpUpd := rfl
@[simp] theorem setPci_pinAt (s : State) (fn : Nat) (k : PciFn) : (setPci s fn k).pinAt = s.pinAt := rfl
@[simp] theorem setPci_lines (s : State) (fn : Nat) (k : PciFn) : (setPci s fn k).lines = s.lines := rfl
@[simp] theorem setPci_memLost (s : State) (fn : Nat) (k : PciFn) : (setPci s fn k).memLost = s.memLost := rfl
@[simp] theorem setPci_dmaTurn (s : State) (fn : Nat) (k : PciFn) : (setPci s fn k).dmaTurn = s.dmaTurn := rfl
@[simp] theorem setPci_pwrRun (s : State) (fn : Nat) (k : PciFn) : (setPci s fn k).pwrRun = s.pwrRun := rfl
@[simp] theorem setPci_wokeNow (s : State) (fn : Nat) (k : PciFn) : (setPci s fn k).wokeNow = s.wokeNow := rfl
@[simp] theorem setPci_darkNow (s : State) (fn : Nat) (k : PciFn) : (setPci s fn k).darkNow = s.darkNow := rfl
@[simp] theorem setPci_armAt (s : State) (fn : Nat) (k : PciFn) : (setPci s fn k).armAt = s.armAt := rfl
@[simp] theorem setPci_hotMask (s : State) (fn : Nat) (k : PciFn) : (setPci s fn k).hotMask = s.hotMask := rfl
@[simp] theorem setPci_nearTripMask (s : State) (fn : Nat) (k : PciFn) : (setPci s fn k).nearTripMask = s.nearTripMask := rfl
@[simp] theorem setPci_frames (s : State) (fn : Nat) (k : PciFn) : (setPci s fn k).frames = s.frames := rfl
@[simp] theorem setPci_streams (s : State) (fn : Nat) (k : PciFn) : (setPci s fn k).streams = s.streams := rfl
@[simp] theorem setPci_pktPorts (s : State) (fn : Nat) (k : PciFn) : (setPci s fn k).pktPorts = s.pktPorts := rfl
@[simp] theorem setPci_tagQ (s : State) (fn : Nat) (k : PciFn) : (setPci s fn k).tagQ = s.tagQ := rfl
@[simp] theorem setPci_tagNext (s : State) (fn : Nat) (k : PciFn) : (setPci s fn k).tagNext = s.tagNext := rfl
@[simp] theorem setPci_enc (s : State) (fn : Nat) (k : PciFn) : (setPci s fn k).enc = s.enc := rfl
@[simp] theorem setPci_po (s : State) (fn : Nat) (k : PciFn) : (setPci s fn k).po = s.po := rfl
@[simp] theorem setPci_cmpList (s : State) (fn : Nat) (k : PciFn) : (setPci s fn k).cmpList = s.cmpList := rfl
@[simp] theorem setPci_cmpHeld (s : State) (fn : Nat) (k : PciFn) : (setPci s fn k).cmpHeld = s.cmpHeld := rfl
@[simp] theorem setPci_cmpCur (s : State) (fn : Nat) (k : PciFn) : (setPci s fn k).cmpCur = s.cmpCur := rfl
@[simp] theorem setPci_trg (s : State) (fn : Nat) (k : PciFn) : (setPci s fn k).trg = s.trg := rfl
@[simp] theorem setPci_fcg (s : State) (fn : Nat) (k : PciFn) : (setPci s fn k).fcg = s.fcg := rfl
@[simp] theorem setPci_periodHeld (s : State) (fn : Nat) (k : PciFn) : (setPci s fn k).periodHeld = s.periodHeld := rfl
@[simp] theorem setPci_slew (s : State) (fn : Nat) (k : PciFn) : (setPci s fn k).slew = s.slew := rfl
@[simp] theorem setPci_slewNext (s : State) (fn : Nat) (k : PciFn) : (setPci s fn k).slewNext = s.slewNext := rfl
@[simp] theorem setPci_ppsGood (s : State) (fn : Nat) (k : PciFn) : (setPci s fn k).ppsGood = s.ppsGood := rfl
@[simp] theorem setPci_ppsLast (s : State) (fn : Nat) (k : PciFn) : (setPci s fn k).ppsLast = s.ppsLast := rfl
@[simp] theorem setPci_prt (s : State) (fn : Nat) (k : PciFn) : (setPci s fn k).prt = s.prt := rfl
@[simp] theorem setPci_isp (s : State) (fn : Nat) (k : PciFn) : (setPci s fn k).isp = s.isp := rfl
@[simp] theorem setPci_ispMem (s : State) (fn : Nat) (k : PciFn) : (setPci s fn k).ispMem = s.ispMem := rfl
@[simp] theorem setPci_ispMid (s : State) (fn : Nat) (k : PciFn) : (setPci s fn k).ispMid = s.ispMid := rfl
@[simp] theorem setPci_podRuns (s : State) (fn : Nat) (k : PciFn) : (setPci s fn k).podRuns = s.podRuns := rfl
@[simp] theorem setPci_podNextId (s : State) (fn : Nat) (k : PciFn) : (setPci s fn k).podNextId = s.podNextId := rfl
@[simp] theorem setPci_lsram (s : State) (fn : Nat) (k : PciFn) : (setPci s fn k).lsram = s.lsram := rfl
@[simp] theorem setPci_lsramUsed (s : State) (fn : Nat) (k : PciFn) : (setPci s fn k).lsramUsed = s.lsramUsed := rfl
@[simp] theorem setPci_tracked (s : State) (fn : Nat) (k : PciFn) : (setPci s fn k).tracked = s.tracked := rfl
@[simp] theorem setPci_preVerdicts (s : State) (fn : Nat) (k : PciFn) : (setPci s fn k).preVerdicts = s.preVerdicts := rfl
@[simp] theorem setPci_keepWins (s : State) (fn : Nat) (k : PciFn) : (setPci s fn k).keepWins = s.keepWins := rfl
@[simp] theorem setPci_gateMid (s : State) (fn : Nat) (k : PciFn) : (setPci s fn k).gateMid = s.gateMid := rfl
@[simp] theorem setPci_lp5x (s : State) (fn : Nat) (k : PciFn) : (setPci s fn k).lp5x = s.lp5x := rfl
@[simp] theorem setPci_spm (s : State) (fn : Nat) (k : PciFn) : (setPci s fn k).spm = s.spm := rfl
@[simp] theorem setPci_storeBuf (s : State) (fn : Nat) (k : PciFn) : (setPci s fn k).storeBuf = s.storeBuf := rfl
@[simp] theorem setPci_burstPost (s : State) (fn : Nat) (k : PciFn) : (setPci s fn k).burstPost = s.burstPost := rfl
@[simp] theorem setPci_descs (s : State) (fn : Nat) (k : PciFn) : (setPci s fn k).descs = s.descs := rfl
@[simp] theorem setPci_dmaNextId (s : State) (fn : Nat) (k : PciFn) : (setPci s fn k).dmaNextId = s.dmaNextId := rfl
@[simp] theorem setPci_dmaCh (s : State) (fn : Nat) (k : PciFn) : (setPci s fn k).dmaCh = s.dmaCh := rfl
@[simp] theorem setPci_sdlvQ (s : State) (fn : Nat) (k : PciFn) : (setPci s fn k).sdlvQ = s.sdlvQ := rfl
@[simp] theorem setPci_sdlvRead (s : State) (fn : Nat) (k : PciFn) : (setPci s fn k).sdlvRead = s.sdlvRead := rfl
@[simp] theorem setPci_rings (s : State) (fn : Nat) (k : PciFn) : (setPci s fn k).rings = s.rings := rfl
@[simp] theorem setPci_recQ (s : State) (fn : Nat) (k : PciFn) : (setPci s fn k).recQ = s.recQ := rfl
@[simp] theorem setPci_twn (s : State) (fn : Nat) (k : PciFn) : (setPci s fn k).twn = s.twn := rfl
@[simp] theorem setPci_twnFcg (s : State) (fn : Nat) (k : PciFn) : (setPci s fn k).twnFcg = s.twnFcg := rfl
@[simp] theorem setPci_twnStreams (s : State) (fn : Nat) (k : PciFn) : (setPci s fn k).twnStreams = s.twnStreams := rfl
@[simp] theorem setPci_aDieReset (s : State) (fn : Nat) (k : PciFn) : (setPci s fn k).aDieReset = s.aDieReset := rfl
@[simp] theorem setPci_laneStopped (s : State) (fn : Nat) (k : PciFn) : (setPci s fn k).laneStopped = s.laneStopped := rfl
@[simp] theorem setPci_aDieReleased (s : State) (fn : Nat) (k : PciFn) : (setPci s fn k).aDieReleased = s.aDieReleased := rfl
@[simp] theorem setPci_hiZ (s : State) (fn : Nat) (k : PciFn) : (setPci s fn k).hiZ = s.hiZ := rfl

/-! ### `setMsix` changes `msix` alone -/

@[simp] theorem setMsix_pending (s : State) (fn v : Nat) (k : MsixEntry) : (setMsix s fn v k).pending = s.pending := rfl
@[simp] theorem setMsix_regs (s : State) (fn v : Nat) (k : MsixEntry) : (setMsix s fn v k).regs = s.regs := rfl
@[simp] theorem setMsix_hiHeld (s : State) (fn v : Nat) (k : MsixEntry) : (setMsix s fn v k).hiHeld = s.hiHeld := rfl
@[simp] theorem setMsix_tb (s : State) (fn v : Nat) (k : MsixEntry) : (setMsix s fn v k).tb = s.tb := rfl
@[simp] theorem setMsix_ns (s : State) (fn v : Nat) (k : MsixEntry) : (setMsix s fn v k).ns = s.ns := rfl
@[simp] theorem setMsix_freeCtr (s : State) (fn v : Nat) (k : MsixEntry) : (setMsix s fn v k).freeCtr = s.freeCtr := rfl
@[simp] theorem setMsix_beacons (s : State) (fn v : Nat) (k : MsixEntry) : (setMsix s fn v k).beacons = s.beacons := rfl
@[simp] theorem setMsix_bcnBusy (s : State) (fn v : Nat) (k : MsixEntry) : (setMsix s fn v k).bcnBusy = s.bcnBusy := rfl
@[simp] theorem setMsix_mbx (s : State) (fn v : Nat) (k : MsixEntry) : (setMsix s fn v k).mbx = s.mbx := rfl
@[simp] theorem setMsix_cores (s : State) (fn v : Nat) (k : MsixEntry) : (setMsix s fn v k).cores = s.cores := rfl
@[simp] theorem setMsix_prog (s : State) (fn v : Nat) (k : MsixEntry) : (setMsix s fn v k).prog = s.prog := rfl
@[simp] theorem setMsix_data (s : State) (fn v : Nat) (k : MsixEntry) : (setMsix s fn v k).data = s.data := rfl
@[simp] theorem setMsix_shared (s : State) (fn v : Nat) (k : MsixEntry) : (setMsix s fn v k).shared = s.shared := rfl
@[simp] theorem setMsix_hashDue (s : State) (fn v : Nat) (k : MsixEntry) : (setMsix s fn v k).hashDue = s.hashDue := rfl
@[simp] theorem setMsix_hashDirty (s : State) (fn v : Nat) (k : MsixEntry) : (setMsix s fn v k).hashDirty = s.hashDirty := rfl
@[simp] theorem setMsix_pci (s : State) (fn v : Nat) (k : MsixEntry) : (setMsix s fn v k).pci = s.pci := rfl
@[simp] theorem setMsix_numVfs (s : State) (fn v : Nat) (k : MsixEntry) : (setMsix s fn v k).numVfs = s.numVfs := rfl
@[simp] theorem setMsix_vfEnable (s : State) (fn v : Nat) (k : MsixEntry) : (setMsix s fn v k).vfEnable = s.vfEnable := rfl
@[simp] theorem setMsix_perst (s : State) (fn v : Nat) (k : MsixEntry) : (setMsix s fn v k).perst = s.perst := rfl
@[simp] theorem setMsix_sent (s : State) (fn v : Nat) (k : MsixEntry) : (setMsix s fn v k).sent = s.sent := rfl
@[simp] theorem setMsix_held (s : State) (fn v : Nat) (k : MsixEntry) : (setMsix s fn v k).held = s.held := rfl
@[simp] theorem setMsix_keeperReady (s : State) (fn v : Nat) (k : MsixEntry) : (setMsix s fn v k).keeperReady = s.keeperReady := rfl
@[simp] theorem setMsix_captures (s : State) (fn v : Nat) (k : MsixEntry) : (setMsix s fn v k).captures = s.captures := rfl
@[simp] theorem setMsix_abandonedBank (s : State) (fn v : Nat) (k : MsixEntry) : (setMsix s fn v k).abandonedBank = s.abandonedBank := rfl
@[simp] theorem setMsix_keepIrq (s : State) (fn v : Nat) (k : MsixEntry) : (setMsix s fn v k).keepIrq = s.keepIrq := rfl
@[simp] theorem setMsix_kports (s : State) (fn v : Nat) (k : MsixEntry) : (setMsix s fn v k).kports = s.kports := rfl
@[simp] theorem setMsix_kbrRun (s : State) (fn v : Nat) (k : MsixEntry) : (setMsix s fn v k).kbrRun = s.kbrRun := rfl
@[simp] theorem setMsix_journal (s : State) (fn v : Nat) (k : MsixEntry) : (setMsix s fn v k).journal = s.journal := rfl
@[simp] theorem setMsix_badWords (s : State) (fn v : Nat) (k : MsixEntry) : (setMsix s fn v k).badWords = s.badWords := rfl
@[simp] theorem setMsix_logUsed (s : State) (fn v : Nat) (k : MsixEntry) : (setMsix s fn v k).logUsed = s.logUsed := rfl
@[simp] theorem setMsix_segDrive (s : State) (fn v : Nat) (k : MsixEntry) : (setMsix s fn v k).segDrive = s.segDrive := rfl
@[simp] theorem setMsix_dispActive (s : State) (fn v : Nat) (k : MsixEntry) : (setMsix s fn v k).dispActive = s.dispActive := rfl
@[simp] theorem setMsix_segLimited (s : State) (fn v : Nat) (k : MsixEntry) : (setMsix s fn v k).segLimited = s.segLimited := rfl
@[simp] theorem setMsix_cmpUpd (s : State) (fn v : Nat) (k : MsixEntry) : (setMsix s fn v k).cmpUpd = s.cmpUpd := rfl
@[simp] theorem setMsix_pinAt (s : State) (fn v : Nat) (k : MsixEntry) : (setMsix s fn v k).pinAt = s.pinAt := rfl
@[simp] theorem setMsix_lines (s : State) (fn v : Nat) (k : MsixEntry) : (setMsix s fn v k).lines = s.lines := rfl
@[simp] theorem setMsix_memLost (s : State) (fn v : Nat) (k : MsixEntry) : (setMsix s fn v k).memLost = s.memLost := rfl
@[simp] theorem setMsix_dmaTurn (s : State) (fn v : Nat) (k : MsixEntry) : (setMsix s fn v k).dmaTurn = s.dmaTurn := rfl
@[simp] theorem setMsix_pwrRun (s : State) (fn v : Nat) (k : MsixEntry) : (setMsix s fn v k).pwrRun = s.pwrRun := rfl
@[simp] theorem setMsix_wokeNow (s : State) (fn v : Nat) (k : MsixEntry) : (setMsix s fn v k).wokeNow = s.wokeNow := rfl
@[simp] theorem setMsix_darkNow (s : State) (fn v : Nat) (k : MsixEntry) : (setMsix s fn v k).darkNow = s.darkNow := rfl
@[simp] theorem setMsix_armAt (s : State) (fn v : Nat) (k : MsixEntry) : (setMsix s fn v k).armAt = s.armAt := rfl
@[simp] theorem setMsix_hotMask (s : State) (fn v : Nat) (k : MsixEntry) : (setMsix s fn v k).hotMask = s.hotMask := rfl
@[simp] theorem setMsix_nearTripMask (s : State) (fn v : Nat) (k : MsixEntry) : (setMsix s fn v k).nearTripMask = s.nearTripMask := rfl
@[simp] theorem setMsix_frames (s : State) (fn v : Nat) (k : MsixEntry) : (setMsix s fn v k).frames = s.frames := rfl
@[simp] theorem setMsix_streams (s : State) (fn v : Nat) (k : MsixEntry) : (setMsix s fn v k).streams = s.streams := rfl
@[simp] theorem setMsix_pktPorts (s : State) (fn v : Nat) (k : MsixEntry) : (setMsix s fn v k).pktPorts = s.pktPorts := rfl
@[simp] theorem setMsix_tagQ (s : State) (fn v : Nat) (k : MsixEntry) : (setMsix s fn v k).tagQ = s.tagQ := rfl
@[simp] theorem setMsix_tagNext (s : State) (fn v : Nat) (k : MsixEntry) : (setMsix s fn v k).tagNext = s.tagNext := rfl
@[simp] theorem setMsix_enc (s : State) (fn v : Nat) (k : MsixEntry) : (setMsix s fn v k).enc = s.enc := rfl
@[simp] theorem setMsix_po (s : State) (fn v : Nat) (k : MsixEntry) : (setMsix s fn v k).po = s.po := rfl
@[simp] theorem setMsix_cmpList (s : State) (fn v : Nat) (k : MsixEntry) : (setMsix s fn v k).cmpList = s.cmpList := rfl
@[simp] theorem setMsix_cmpHeld (s : State) (fn v : Nat) (k : MsixEntry) : (setMsix s fn v k).cmpHeld = s.cmpHeld := rfl
@[simp] theorem setMsix_cmpCur (s : State) (fn v : Nat) (k : MsixEntry) : (setMsix s fn v k).cmpCur = s.cmpCur := rfl
@[simp] theorem setMsix_trg (s : State) (fn v : Nat) (k : MsixEntry) : (setMsix s fn v k).trg = s.trg := rfl
@[simp] theorem setMsix_fcg (s : State) (fn v : Nat) (k : MsixEntry) : (setMsix s fn v k).fcg = s.fcg := rfl
@[simp] theorem setMsix_periodHeld (s : State) (fn v : Nat) (k : MsixEntry) : (setMsix s fn v k).periodHeld = s.periodHeld := rfl
@[simp] theorem setMsix_slew (s : State) (fn v : Nat) (k : MsixEntry) : (setMsix s fn v k).slew = s.slew := rfl
@[simp] theorem setMsix_slewNext (s : State) (fn v : Nat) (k : MsixEntry) : (setMsix s fn v k).slewNext = s.slewNext := rfl
@[simp] theorem setMsix_ppsGood (s : State) (fn v : Nat) (k : MsixEntry) : (setMsix s fn v k).ppsGood = s.ppsGood := rfl
@[simp] theorem setMsix_ppsLast (s : State) (fn v : Nat) (k : MsixEntry) : (setMsix s fn v k).ppsLast = s.ppsLast := rfl
@[simp] theorem setMsix_prt (s : State) (fn v : Nat) (k : MsixEntry) : (setMsix s fn v k).prt = s.prt := rfl
@[simp] theorem setMsix_isp (s : State) (fn v : Nat) (k : MsixEntry) : (setMsix s fn v k).isp = s.isp := rfl
@[simp] theorem setMsix_ispMem (s : State) (fn v : Nat) (k : MsixEntry) : (setMsix s fn v k).ispMem = s.ispMem := rfl
@[simp] theorem setMsix_ispMid (s : State) (fn v : Nat) (k : MsixEntry) : (setMsix s fn v k).ispMid = s.ispMid := rfl
@[simp] theorem setMsix_podRuns (s : State) (fn v : Nat) (k : MsixEntry) : (setMsix s fn v k).podRuns = s.podRuns := rfl
@[simp] theorem setMsix_podNextId (s : State) (fn v : Nat) (k : MsixEntry) : (setMsix s fn v k).podNextId = s.podNextId := rfl
@[simp] theorem setMsix_lsram (s : State) (fn v : Nat) (k : MsixEntry) : (setMsix s fn v k).lsram = s.lsram := rfl
@[simp] theorem setMsix_lsramUsed (s : State) (fn v : Nat) (k : MsixEntry) : (setMsix s fn v k).lsramUsed = s.lsramUsed := rfl
@[simp] theorem setMsix_tracked (s : State) (fn v : Nat) (k : MsixEntry) : (setMsix s fn v k).tracked = s.tracked := rfl
@[simp] theorem setMsix_preVerdicts (s : State) (fn v : Nat) (k : MsixEntry) : (setMsix s fn v k).preVerdicts = s.preVerdicts := rfl
@[simp] theorem setMsix_keepWins (s : State) (fn v : Nat) (k : MsixEntry) : (setMsix s fn v k).keepWins = s.keepWins := rfl
@[simp] theorem setMsix_gateMid (s : State) (fn v : Nat) (k : MsixEntry) : (setMsix s fn v k).gateMid = s.gateMid := rfl
@[simp] theorem setMsix_lp5x (s : State) (fn v : Nat) (k : MsixEntry) : (setMsix s fn v k).lp5x = s.lp5x := rfl
@[simp] theorem setMsix_spm (s : State) (fn v : Nat) (k : MsixEntry) : (setMsix s fn v k).spm = s.spm := rfl
@[simp] theorem setMsix_storeBuf (s : State) (fn v : Nat) (k : MsixEntry) : (setMsix s fn v k).storeBuf = s.storeBuf := rfl
@[simp] theorem setMsix_burstPost (s : State) (fn v : Nat) (k : MsixEntry) : (setMsix s fn v k).burstPost = s.burstPost := rfl
@[simp] theorem setMsix_descs (s : State) (fn v : Nat) (k : MsixEntry) : (setMsix s fn v k).descs = s.descs := rfl
@[simp] theorem setMsix_dmaNextId (s : State) (fn v : Nat) (k : MsixEntry) : (setMsix s fn v k).dmaNextId = s.dmaNextId := rfl
@[simp] theorem setMsix_dmaCh (s : State) (fn v : Nat) (k : MsixEntry) : (setMsix s fn v k).dmaCh = s.dmaCh := rfl
@[simp] theorem setMsix_sdlvQ (s : State) (fn v : Nat) (k : MsixEntry) : (setMsix s fn v k).sdlvQ = s.sdlvQ := rfl
@[simp] theorem setMsix_sdlvRead (s : State) (fn v : Nat) (k : MsixEntry) : (setMsix s fn v k).sdlvRead = s.sdlvRead := rfl
@[simp] theorem setMsix_rings (s : State) (fn v : Nat) (k : MsixEntry) : (setMsix s fn v k).rings = s.rings := rfl
@[simp] theorem setMsix_recQ (s : State) (fn v : Nat) (k : MsixEntry) : (setMsix s fn v k).recQ = s.recQ := rfl
@[simp] theorem setMsix_twn (s : State) (fn v : Nat) (k : MsixEntry) : (setMsix s fn v k).twn = s.twn := rfl
@[simp] theorem setMsix_twnFcg (s : State) (fn v : Nat) (k : MsixEntry) : (setMsix s fn v k).twnFcg = s.twnFcg := rfl
@[simp] theorem setMsix_twnStreams (s : State) (fn v : Nat) (k : MsixEntry) : (setMsix s fn v k).twnStreams = s.twnStreams := rfl
@[simp] theorem setMsix_aDieReset (s : State) (fn v : Nat) (k : MsixEntry) : (setMsix s fn v k).aDieReset = s.aDieReset := rfl
@[simp] theorem setMsix_laneStopped (s : State) (fn v : Nat) (k : MsixEntry) : (setMsix s fn v k).laneStopped = s.laneStopped := rfl
@[simp] theorem setMsix_aDieReleased (s : State) (fn v : Nat) (k : MsixEntry) : (setMsix s fn v k).aDieReleased = s.aDieReleased := rfl
@[simp] theorem setMsix_hiZ (s : State) (fn v : Nat) (k : MsixEntry) : (setMsix s fn v k).hiZ = s.hiZ := rfl

/-! ### `landHost` changes `sent` alone -/

@[simp] theorem landHost_pending (s : State) (m : HostMsg) : (landHost s m).pending = s.pending := rfl
@[simp] theorem landHost_regs (s : State) (m : HostMsg) : (landHost s m).regs = s.regs := rfl
@[simp] theorem landHost_hiHeld (s : State) (m : HostMsg) : (landHost s m).hiHeld = s.hiHeld := rfl
@[simp] theorem landHost_tb (s : State) (m : HostMsg) : (landHost s m).tb = s.tb := rfl
@[simp] theorem landHost_ns (s : State) (m : HostMsg) : (landHost s m).ns = s.ns := rfl
@[simp] theorem landHost_freeCtr (s : State) (m : HostMsg) : (landHost s m).freeCtr = s.freeCtr := rfl
@[simp] theorem landHost_beacons (s : State) (m : HostMsg) : (landHost s m).beacons = s.beacons := rfl
@[simp] theorem landHost_bcnBusy (s : State) (m : HostMsg) : (landHost s m).bcnBusy = s.bcnBusy := rfl
@[simp] theorem landHost_mbx (s : State) (m : HostMsg) : (landHost s m).mbx = s.mbx := rfl
@[simp] theorem landHost_cores (s : State) (m : HostMsg) : (landHost s m).cores = s.cores := rfl
@[simp] theorem landHost_prog (s : State) (m : HostMsg) : (landHost s m).prog = s.prog := rfl
@[simp] theorem landHost_data (s : State) (m : HostMsg) : (landHost s m).data = s.data := rfl
@[simp] theorem landHost_shared (s : State) (m : HostMsg) : (landHost s m).shared = s.shared := rfl
@[simp] theorem landHost_hashDue (s : State) (m : HostMsg) : (landHost s m).hashDue = s.hashDue := rfl
@[simp] theorem landHost_hashDirty (s : State) (m : HostMsg) : (landHost s m).hashDirty = s.hashDirty := rfl
@[simp] theorem landHost_msix (s : State) (m : HostMsg) : (landHost s m).msix = s.msix := rfl
@[simp] theorem landHost_pci (s : State) (m : HostMsg) : (landHost s m).pci = s.pci := rfl
@[simp] theorem landHost_numVfs (s : State) (m : HostMsg) : (landHost s m).numVfs = s.numVfs := rfl
@[simp] theorem landHost_vfEnable (s : State) (m : HostMsg) : (landHost s m).vfEnable = s.vfEnable := rfl
@[simp] theorem landHost_perst (s : State) (m : HostMsg) : (landHost s m).perst = s.perst := rfl
@[simp] theorem landHost_held (s : State) (m : HostMsg) : (landHost s m).held = s.held := rfl
@[simp] theorem landHost_keeperReady (s : State) (m : HostMsg) : (landHost s m).keeperReady = s.keeperReady := rfl
@[simp] theorem landHost_captures (s : State) (m : HostMsg) : (landHost s m).captures = s.captures := rfl
@[simp] theorem landHost_abandonedBank (s : State) (m : HostMsg) : (landHost s m).abandonedBank = s.abandonedBank := rfl
@[simp] theorem landHost_keepIrq (s : State) (m : HostMsg) : (landHost s m).keepIrq = s.keepIrq := rfl
@[simp] theorem landHost_kports (s : State) (m : HostMsg) : (landHost s m).kports = s.kports := rfl
@[simp] theorem landHost_kbrRun (s : State) (m : HostMsg) : (landHost s m).kbrRun = s.kbrRun := rfl
@[simp] theorem landHost_journal (s : State) (m : HostMsg) : (landHost s m).journal = s.journal := rfl
@[simp] theorem landHost_badWords (s : State) (m : HostMsg) : (landHost s m).badWords = s.badWords := rfl
@[simp] theorem landHost_logUsed (s : State) (m : HostMsg) : (landHost s m).logUsed = s.logUsed := rfl
@[simp] theorem landHost_segDrive (s : State) (m : HostMsg) : (landHost s m).segDrive = s.segDrive := rfl
@[simp] theorem landHost_dispActive (s : State) (m : HostMsg) : (landHost s m).dispActive = s.dispActive := rfl
@[simp] theorem landHost_segLimited (s : State) (m : HostMsg) : (landHost s m).segLimited = s.segLimited := rfl
@[simp] theorem landHost_cmpUpd (s : State) (m : HostMsg) : (landHost s m).cmpUpd = s.cmpUpd := rfl
@[simp] theorem landHost_pinAt (s : State) (m : HostMsg) : (landHost s m).pinAt = s.pinAt := rfl
@[simp] theorem landHost_lines (s : State) (m : HostMsg) : (landHost s m).lines = s.lines := rfl
@[simp] theorem landHost_memLost (s : State) (m : HostMsg) : (landHost s m).memLost = s.memLost := rfl
@[simp] theorem landHost_dmaTurn (s : State) (m : HostMsg) : (landHost s m).dmaTurn = s.dmaTurn := rfl
@[simp] theorem landHost_pwrRun (s : State) (m : HostMsg) : (landHost s m).pwrRun = s.pwrRun := rfl
@[simp] theorem landHost_wokeNow (s : State) (m : HostMsg) : (landHost s m).wokeNow = s.wokeNow := rfl
@[simp] theorem landHost_darkNow (s : State) (m : HostMsg) : (landHost s m).darkNow = s.darkNow := rfl
@[simp] theorem landHost_armAt (s : State) (m : HostMsg) : (landHost s m).armAt = s.armAt := rfl
@[simp] theorem landHost_hotMask (s : State) (m : HostMsg) : (landHost s m).hotMask = s.hotMask := rfl
@[simp] theorem landHost_nearTripMask (s : State) (m : HostMsg) : (landHost s m).nearTripMask = s.nearTripMask := rfl
@[simp] theorem landHost_frames (s : State) (m : HostMsg) : (landHost s m).frames = s.frames := rfl
@[simp] theorem landHost_streams (s : State) (m : HostMsg) : (landHost s m).streams = s.streams := rfl
@[simp] theorem landHost_pktPorts (s : State) (m : HostMsg) : (landHost s m).pktPorts = s.pktPorts := rfl
@[simp] theorem landHost_tagQ (s : State) (m : HostMsg) : (landHost s m).tagQ = s.tagQ := rfl
@[simp] theorem landHost_tagNext (s : State) (m : HostMsg) : (landHost s m).tagNext = s.tagNext := rfl
@[simp] theorem landHost_enc (s : State) (m : HostMsg) : (landHost s m).enc = s.enc := rfl
@[simp] theorem landHost_po (s : State) (m : HostMsg) : (landHost s m).po = s.po := rfl
@[simp] theorem landHost_cmpList (s : State) (m : HostMsg) : (landHost s m).cmpList = s.cmpList := rfl
@[simp] theorem landHost_cmpHeld (s : State) (m : HostMsg) : (landHost s m).cmpHeld = s.cmpHeld := rfl
@[simp] theorem landHost_cmpCur (s : State) (m : HostMsg) : (landHost s m).cmpCur = s.cmpCur := rfl
@[simp] theorem landHost_trg (s : State) (m : HostMsg) : (landHost s m).trg = s.trg := rfl
@[simp] theorem landHost_fcg (s : State) (m : HostMsg) : (landHost s m).fcg = s.fcg := rfl
@[simp] theorem landHost_periodHeld (s : State) (m : HostMsg) : (landHost s m).periodHeld = s.periodHeld := rfl
@[simp] theorem landHost_slew (s : State) (m : HostMsg) : (landHost s m).slew = s.slew := rfl
@[simp] theorem landHost_slewNext (s : State) (m : HostMsg) : (landHost s m).slewNext = s.slewNext := rfl
@[simp] theorem landHost_ppsGood (s : State) (m : HostMsg) : (landHost s m).ppsGood = s.ppsGood := rfl
@[simp] theorem landHost_ppsLast (s : State) (m : HostMsg) : (landHost s m).ppsLast = s.ppsLast := rfl
@[simp] theorem landHost_prt (s : State) (m : HostMsg) : (landHost s m).prt = s.prt := rfl
@[simp] theorem landHost_isp (s : State) (m : HostMsg) : (landHost s m).isp = s.isp := rfl
@[simp] theorem landHost_ispMem (s : State) (m : HostMsg) : (landHost s m).ispMem = s.ispMem := rfl
@[simp] theorem landHost_ispMid (s : State) (m : HostMsg) : (landHost s m).ispMid = s.ispMid := rfl
@[simp] theorem landHost_podRuns (s : State) (m : HostMsg) : (landHost s m).podRuns = s.podRuns := rfl
@[simp] theorem landHost_podNextId (s : State) (m : HostMsg) : (landHost s m).podNextId = s.podNextId := rfl
@[simp] theorem landHost_lsram (s : State) (m : HostMsg) : (landHost s m).lsram = s.lsram := rfl
@[simp] theorem landHost_lsramUsed (s : State) (m : HostMsg) : (landHost s m).lsramUsed = s.lsramUsed := rfl
@[simp] theorem landHost_tracked (s : State) (m : HostMsg) : (landHost s m).tracked = s.tracked := rfl
@[simp] theorem landHost_preVerdicts (s : State) (m : HostMsg) : (landHost s m).preVerdicts = s.preVerdicts := rfl
@[simp] theorem landHost_keepWins (s : State) (m : HostMsg) : (landHost s m).keepWins = s.keepWins := rfl
@[simp] theorem landHost_gateMid (s : State) (m : HostMsg) : (landHost s m).gateMid = s.gateMid := rfl
@[simp] theorem landHost_lp5x (s : State) (m : HostMsg) : (landHost s m).lp5x = s.lp5x := rfl
@[simp] theorem landHost_spm (s : State) (m : HostMsg) : (landHost s m).spm = s.spm := rfl
@[simp] theorem landHost_storeBuf (s : State) (m : HostMsg) : (landHost s m).storeBuf = s.storeBuf := rfl
@[simp] theorem landHost_burstPost (s : State) (m : HostMsg) : (landHost s m).burstPost = s.burstPost := rfl
@[simp] theorem landHost_descs (s : State) (m : HostMsg) : (landHost s m).descs = s.descs := rfl
@[simp] theorem landHost_dmaNextId (s : State) (m : HostMsg) : (landHost s m).dmaNextId = s.dmaNextId := rfl
@[simp] theorem landHost_dmaCh (s : State) (m : HostMsg) : (landHost s m).dmaCh = s.dmaCh := rfl
@[simp] theorem landHost_sdlvQ (s : State) (m : HostMsg) : (landHost s m).sdlvQ = s.sdlvQ := rfl
@[simp] theorem landHost_sdlvRead (s : State) (m : HostMsg) : (landHost s m).sdlvRead = s.sdlvRead := rfl
@[simp] theorem landHost_rings (s : State) (m : HostMsg) : (landHost s m).rings = s.rings := rfl
@[simp] theorem landHost_recQ (s : State) (m : HostMsg) : (landHost s m).recQ = s.recQ := rfl
@[simp] theorem landHost_twn (s : State) (m : HostMsg) : (landHost s m).twn = s.twn := rfl
@[simp] theorem landHost_twnFcg (s : State) (m : HostMsg) : (landHost s m).twnFcg = s.twnFcg := rfl
@[simp] theorem landHost_twnStreams (s : State) (m : HostMsg) : (landHost s m).twnStreams = s.twnStreams := rfl
@[simp] theorem landHost_aDieReset (s : State) (m : HostMsg) : (landHost s m).aDieReset = s.aDieReset := rfl
@[simp] theorem landHost_laneStopped (s : State) (m : HostMsg) : (landHost s m).laneStopped = s.laneStopped := rfl
@[simp] theorem landHost_aDieReleased (s : State) (m : HostMsg) : (landHost s m).aDieReleased = s.aDieReleased := rfl
@[simp] theorem landHost_hiZ (s : State) (m : HostMsg) : (landHost s m).hiZ = s.hiZ := rfl

/-! ### `settleFrames` changes `frames` alone -/

@[simp] theorem settleFrames_pending (s : State) : (settleFrames s).pending = s.pending := rfl
@[simp] theorem settleFrames_regs (s : State) : (settleFrames s).regs = s.regs := rfl
@[simp] theorem settleFrames_hiHeld (s : State) : (settleFrames s).hiHeld = s.hiHeld := rfl
@[simp] theorem settleFrames_tb (s : State) : (settleFrames s).tb = s.tb := rfl
@[simp] theorem settleFrames_ns (s : State) : (settleFrames s).ns = s.ns := rfl
@[simp] theorem settleFrames_freeCtr (s : State) : (settleFrames s).freeCtr = s.freeCtr := rfl
@[simp] theorem settleFrames_beacons (s : State) : (settleFrames s).beacons = s.beacons := rfl
@[simp] theorem settleFrames_bcnBusy (s : State) : (settleFrames s).bcnBusy = s.bcnBusy := rfl
@[simp] theorem settleFrames_mbx (s : State) : (settleFrames s).mbx = s.mbx := rfl
@[simp] theorem settleFrames_cores (s : State) : (settleFrames s).cores = s.cores := rfl
@[simp] theorem settleFrames_prog (s : State) : (settleFrames s).prog = s.prog := rfl
@[simp] theorem settleFrames_data (s : State) : (settleFrames s).data = s.data := rfl
@[simp] theorem settleFrames_shared (s : State) : (settleFrames s).shared = s.shared := rfl
@[simp] theorem settleFrames_hashDue (s : State) : (settleFrames s).hashDue = s.hashDue := rfl
@[simp] theorem settleFrames_hashDirty (s : State) : (settleFrames s).hashDirty = s.hashDirty := rfl
@[simp] theorem settleFrames_msix (s : State) : (settleFrames s).msix = s.msix := rfl
@[simp] theorem settleFrames_pci (s : State) : (settleFrames s).pci = s.pci := rfl
@[simp] theorem settleFrames_numVfs (s : State) : (settleFrames s).numVfs = s.numVfs := rfl
@[simp] theorem settleFrames_vfEnable (s : State) : (settleFrames s).vfEnable = s.vfEnable := rfl
@[simp] theorem settleFrames_perst (s : State) : (settleFrames s).perst = s.perst := rfl
@[simp] theorem settleFrames_sent (s : State) : (settleFrames s).sent = s.sent := rfl
@[simp] theorem settleFrames_held (s : State) : (settleFrames s).held = s.held := rfl
@[simp] theorem settleFrames_keeperReady (s : State) : (settleFrames s).keeperReady = s.keeperReady := rfl
@[simp] theorem settleFrames_captures (s : State) : (settleFrames s).captures = s.captures := rfl
@[simp] theorem settleFrames_abandonedBank (s : State) : (settleFrames s).abandonedBank = s.abandonedBank := rfl
@[simp] theorem settleFrames_keepIrq (s : State) : (settleFrames s).keepIrq = s.keepIrq := rfl
@[simp] theorem settleFrames_kports (s : State) : (settleFrames s).kports = s.kports := rfl
@[simp] theorem settleFrames_kbrRun (s : State) : (settleFrames s).kbrRun = s.kbrRun := rfl
@[simp] theorem settleFrames_journal (s : State) : (settleFrames s).journal = s.journal := rfl
@[simp] theorem settleFrames_badWords (s : State) : (settleFrames s).badWords = s.badWords := rfl
@[simp] theorem settleFrames_logUsed (s : State) : (settleFrames s).logUsed = s.logUsed := rfl
@[simp] theorem settleFrames_segDrive (s : State) : (settleFrames s).segDrive = s.segDrive := rfl
@[simp] theorem settleFrames_dispActive (s : State) : (settleFrames s).dispActive = s.dispActive := rfl
@[simp] theorem settleFrames_segLimited (s : State) : (settleFrames s).segLimited = s.segLimited := rfl
@[simp] theorem settleFrames_cmpUpd (s : State) : (settleFrames s).cmpUpd = s.cmpUpd := rfl
@[simp] theorem settleFrames_pinAt (s : State) : (settleFrames s).pinAt = s.pinAt := rfl
@[simp] theorem settleFrames_lines (s : State) : (settleFrames s).lines = s.lines := rfl
@[simp] theorem settleFrames_memLost (s : State) : (settleFrames s).memLost = s.memLost := rfl
@[simp] theorem settleFrames_dmaTurn (s : State) : (settleFrames s).dmaTurn = s.dmaTurn := rfl
@[simp] theorem settleFrames_pwrRun (s : State) : (settleFrames s).pwrRun = s.pwrRun := rfl
@[simp] theorem settleFrames_wokeNow (s : State) : (settleFrames s).wokeNow = s.wokeNow := rfl
@[simp] theorem settleFrames_darkNow (s : State) : (settleFrames s).darkNow = s.darkNow := rfl
@[simp] theorem settleFrames_armAt (s : State) : (settleFrames s).armAt = s.armAt := rfl
@[simp] theorem settleFrames_hotMask (s : State) : (settleFrames s).hotMask = s.hotMask := rfl
@[simp] theorem settleFrames_nearTripMask (s : State) : (settleFrames s).nearTripMask = s.nearTripMask := rfl
@[simp] theorem settleFrames_streams (s : State) : (settleFrames s).streams = s.streams := rfl
@[simp] theorem settleFrames_pktPorts (s : State) : (settleFrames s).pktPorts = s.pktPorts := rfl
@[simp] theorem settleFrames_tagQ (s : State) : (settleFrames s).tagQ = s.tagQ := rfl
@[simp] theorem settleFrames_tagNext (s : State) : (settleFrames s).tagNext = s.tagNext := rfl
@[simp] theorem settleFrames_enc (s : State) : (settleFrames s).enc = s.enc := rfl
@[simp] theorem settleFrames_po (s : State) : (settleFrames s).po = s.po := rfl
@[simp] theorem settleFrames_cmpList (s : State) : (settleFrames s).cmpList = s.cmpList := rfl
@[simp] theorem settleFrames_cmpHeld (s : State) : (settleFrames s).cmpHeld = s.cmpHeld := rfl
@[simp] theorem settleFrames_cmpCur (s : State) : (settleFrames s).cmpCur = s.cmpCur := rfl
@[simp] theorem settleFrames_trg (s : State) : (settleFrames s).trg = s.trg := rfl
@[simp] theorem settleFrames_fcg (s : State) : (settleFrames s).fcg = s.fcg := rfl
@[simp] theorem settleFrames_periodHeld (s : State) : (settleFrames s).periodHeld = s.periodHeld := rfl
@[simp] theorem settleFrames_slew (s : State) : (settleFrames s).slew = s.slew := rfl
@[simp] theorem settleFrames_slewNext (s : State) : (settleFrames s).slewNext = s.slewNext := rfl
@[simp] theorem settleFrames_ppsGood (s : State) : (settleFrames s).ppsGood = s.ppsGood := rfl
@[simp] theorem settleFrames_ppsLast (s : State) : (settleFrames s).ppsLast = s.ppsLast := rfl
@[simp] theorem settleFrames_prt (s : State) : (settleFrames s).prt = s.prt := rfl
@[simp] theorem settleFrames_isp (s : State) : (settleFrames s).isp = s.isp := rfl
@[simp] theorem settleFrames_ispMem (s : State) : (settleFrames s).ispMem = s.ispMem := rfl
@[simp] theorem settleFrames_ispMid (s : State) : (settleFrames s).ispMid = s.ispMid := rfl
@[simp] theorem settleFrames_podRuns (s : State) : (settleFrames s).podRuns = s.podRuns := rfl
@[simp] theorem settleFrames_podNextId (s : State) : (settleFrames s).podNextId = s.podNextId := rfl
@[simp] theorem settleFrames_lsram (s : State) : (settleFrames s).lsram = s.lsram := rfl
@[simp] theorem settleFrames_lsramUsed (s : State) : (settleFrames s).lsramUsed = s.lsramUsed := rfl
@[simp] theorem settleFrames_tracked (s : State) : (settleFrames s).tracked = s.tracked := rfl
@[simp] theorem settleFrames_preVerdicts (s : State) : (settleFrames s).preVerdicts = s.preVerdicts := rfl
@[simp] theorem settleFrames_keepWins (s : State) : (settleFrames s).keepWins = s.keepWins := rfl
@[simp] theorem settleFrames_gateMid (s : State) : (settleFrames s).gateMid = s.gateMid := rfl
@[simp] theorem settleFrames_lp5x (s : State) : (settleFrames s).lp5x = s.lp5x := rfl
@[simp] theorem settleFrames_spm (s : State) : (settleFrames s).spm = s.spm := rfl
@[simp] theorem settleFrames_storeBuf (s : State) : (settleFrames s).storeBuf = s.storeBuf := rfl
@[simp] theorem settleFrames_burstPost (s : State) : (settleFrames s).burstPost = s.burstPost := rfl
@[simp] theorem settleFrames_descs (s : State) : (settleFrames s).descs = s.descs := rfl
@[simp] theorem settleFrames_dmaNextId (s : State) : (settleFrames s).dmaNextId = s.dmaNextId := rfl
@[simp] theorem settleFrames_dmaCh (s : State) : (settleFrames s).dmaCh = s.dmaCh := rfl
@[simp] theorem settleFrames_sdlvQ (s : State) : (settleFrames s).sdlvQ = s.sdlvQ := rfl
@[simp] theorem settleFrames_sdlvRead (s : State) : (settleFrames s).sdlvRead = s.sdlvRead := rfl
@[simp] theorem settleFrames_rings (s : State) : (settleFrames s).rings = s.rings := rfl
@[simp] theorem settleFrames_recQ (s : State) : (settleFrames s).recQ = s.recQ := rfl
@[simp] theorem settleFrames_twn (s : State) : (settleFrames s).twn = s.twn := rfl
@[simp] theorem settleFrames_twnFcg (s : State) : (settleFrames s).twnFcg = s.twnFcg := rfl
@[simp] theorem settleFrames_twnStreams (s : State) : (settleFrames s).twnStreams = s.twnStreams := rfl
@[simp] theorem settleFrames_aDieReset (s : State) : (settleFrames s).aDieReset = s.aDieReset := rfl
@[simp] theorem settleFrames_laneStopped (s : State) : (settleFrames s).laneStopped = s.laneStopped := rfl
@[simp] theorem settleFrames_aDieReleased (s : State) : (settleFrames s).aDieReleased = s.aDieReleased := rfl
@[simp] theorem settleFrames_hiZ (s : State) : (settleFrames s).hiZ = s.hiZ := rfl

end Sys2Proof.Machine
end

