-- ==== Sys2Proof/Laws/Regs.lean ====
section
/-! SUPPORT. Laws of the register file: what a write of a field does to a read of a field, the frame of the operations that
are built from writes, and the end of a command. -/
namespace Sys2Proof.Machine

/-! ### Reads and writes -/

/-- Two fields share a key only where they are one field of one instance. -/
theorem key_eq_iff (f g : Field) (i j : Nat) : f.key i = g.key j ↔ f.fid % 1024 = g.fid % 1024 ∧ i = j := by
  unfold Field.key; omega

theorem rd_congr {s t : State} (h : t.regs = s.regs) (f : Field) (i : Nat) : rd t f i = rd s f i := by
  unfold rd; rw [h]

/-- A read of the field just written gives the low bits of the value. -/
@[simp] theorem rd_wr_same (s : State) (f : Field) (i v : Nat) : rd (wr s f i v) f i = v % 2 ^ f.width := by
  simp [rd, wr]

/-- A write leaves every register with another key alone. -/
theorem rd_wr_ne (s : State) (f g : Field) (i j v : Nat) (h : f.key i ≠ g.key j) : rd (wr s f i v) g j = rd s g j := by
  unfold rd wr; rw [sget_sset_ne _ _ _ _ (Ne.symm h)]

/-- A write of a field leaves every other field alone. -/
theorem rd_wr_field (s : State) (f g : Field) (i j v : Nat) (h : f.fid % 1024 ≠ g.fid % 1024) : rd (wr s f i v) g j = rd s g j :=
  rd_wr_ne s f g i j v fun e => h ((key_eq_iff f g i j).mp e).1

/-- A write of one instance leaves every other instance alone. -/
theorem rd_wr_inst (s : State) (f g : Field) {i j : Nat} (v : Nat) (h : i ≠ j) : rd (wr s f i v) g j = rd s g j :=
  rd_wr_ne s f g i j v fun e => h ((key_eq_iff f g i j).mp e).2

theorem rd_lt (s : State) (f : Field) (i : Nat) : rd s f i < 2 ^ f.width := Nat.mod_lt _ (Nat.two_pow_pos _)

@[simp] theorem rd_mod (s : State) (f : Field) (i : Nat) : rd s f i % 2 ^ f.width = rd s f i := Nat.mod_eq_of_lt (rd_lt s f i)

/-! ### Updates of other parts of the state do not change a register -/

@[simp] theorem rd_setCore (s : State) (c : Nat) (k : SqCore) (f : Field) (i : Nat) : rd (setCore s c k) f i = rd s f i := rfl
@[simp] theorem rd_setMbx (s : State) (m : Nat) (k : Mbx) (f : Field) (i : Nat) : rd (setMbx s m k) f i = rd s f i := rfl
@[simp] theorem rd_setPci (s : State) (n : Nat) (k : PciFn) (f : Field) (i : Nat) : rd (setPci s n k) f i = rd s f i := rfl
@[simp] theorem rd_setMsix (s : State) (n v : Nat) (k : MsixEntry) (f : Field) (i : Nat) : rd (setMsix s n v k) f i = rd s f i := rfl
@[simp] theorem rd_landHost (s : State) (m : HostMsg) (f : Field) (i : Nat) : rd (landHost s m) f i = rd s f i := rfl
@[simp] theorem rd_settleFrames (s : State) (f : Field) (i : Nat) : rd (settleFrames s) f i = rd s f i := rfl
@[simp] theorem rd_takeFree (s : State) (w : Nat) (f : Field) (i : Nat) : rd (takeFree s w).2 f i = rd s f i := rfl

@[simp] theorem coreAt_setCore_same (s : State) (c : Nat) (k : SqCore) : coreAt (setCore s c k) c = k := by
  simp [coreAt, setCore]
theorem coreAt_setCore_ne (s : State) {c d : Nat} (k : SqCore) (h : d ≠ c) : coreAt (setCore s c k) d = coreAt s d := by
  unfold coreAt setCore; rw [sget_sset_ne _ _ _ _ h]
@[simp] theorem coreAt_wr (s : State) (f : Field) (i v c : Nat) : coreAt (wr s f i v) c = coreAt s c := rfl
@[simp] theorem mbxAt_setMbx_same (s : State) (m : Nat) (k : Mbx) : mbxAt (setMbx s m k) m = k := by simp [mbxAt, setMbx]
@[simp] theorem mbxAt_wr (s : State) (f : Field) (i v m : Nat) : mbxAt (wr s f i v) m = mbxAt s m := rfl

/-! ### Operations built from writes -/

theorem setBit_eq (s : State) (f : Field) (i b : Nat) : setBit s f i b = wr s f i (rd s f i ||| 2 ^ b) := rfl
theorem bump_eq (s : State) (f : Field) (i : Nat) : bump s f i = wr s f i (min (rd s f i + 1) (2 ^ f.width - 1)) := rfl
theorem wrBool_eq (s : State) (f : Field) (i : Nat) (b : Bool) : wrBool s f i b = wr s f i (if b then 1 else 0) := rfl
theorem clearBits_eq (s : State) (f : Field) (i m : Nat) :
    clearBits s f i m = wr s f i (Nat.bitwise (fun a b => a && !b) (rd s f i) m) := rfl

/-- A counter moves by one, and holds at all ones (R17). -/
@[simp] theorem rd_bump (s : State) (f : Field) (i : Nat) : rd (bump s f i) f i = min (rd s f i + 1) (2 ^ f.width - 1) := by
  rw [bump_eq, rd_wr_same, Nat.mod_eq_of_lt]
  have := Nat.two_pow_pos f.width
  omega

/-- An event bit inside its field is set, and the others stay. -/
theorem rd_setBit (s : State) (f : Field) (i b : Nat) (hb : b < f.width) : rd (setBit s f i b) f i = rd s f i ||| 2 ^ b := by
  rw [setBit_eq, rd_wr_same]
  exact Nat.mod_eq_of_lt (Nat.or_lt_two_pow (rd_lt s f i) (Nat.pow_lt_pow_right (by decide) hb))

theorem hasBit_setBit (s : State) (f : Field) (i b : Nat) (hb : b < f.width) : hasBit (setBit s f i b) f i b = true := by
  simp [hasBit, rd_setBit s f i b hb]

/-! ### Lists of writes -/

theorem rd_clearAll_ne (fs : List Field) (s : State) (i : Nat) (g : Field) (j : Nat)
    (h : ∀ f ∈ fs, f.key i ≠ g.key j) : rd (clearAll s fs i) g j = rd s g j := by
  unfold clearAll
  induction fs generalizing s with
  | nil => rfl
  | cons f fs ih =>
    rw [List.foldl_cons, ih _ fun k hk => h k (.tail _ hk), rd_wr_ne _ _ _ _ _ _ (h f (.head _))]

theorem rd_clearAll_mem (fs : List Field) (s : State) (i : Nat) (g : Field) (hg : g ∈ fs)
    (hd : ∀ k ∈ fs, k.fid % 1024 = g.fid % 1024 → k = g) : rd (clearAll s fs i) g i = 0 := by
  unfold clearAll
  induction fs generalizing s with
  | nil => cases hg
  | cons f fs ih =>
    rw [List.foldl_cons]
    by_cases hm : g ∈ fs
    · exact ih _ hm fun k hk => hd k (.tail _ hk)
    · have e : g = f := by simpa [hm] using hg
      subst e
      have h := rd_clearAll_ne fs (wr s g i 0) i g i fun k hk hkey =>
        hm ((hd k (.tail _ hk) ((key_eq_iff k g i i).mp hkey).1) ▸ hk)
      unfold clearAll at h
      rw [h]; simp

/-! ### The end of a command -/

/-- `t` differs from `s` at most in what host output may change: the messages and the MSI-X pending bits. -/
def HostOnly (s t : State) : Prop := t = { s with sent := t.sent, held := t.held, msix := t.msix }

theorem HostOnly.refl (s : State) : HostOnly s s := rfl

theorem HostOnly.trans {s t u : State} (h : HostOnly s t) (k : HostOnly t u) : HostOnly s u := by
  unfold HostOnly at *
  rw [k, h]

theorem sendHost_hostOnly (s : State) (m : HostMsg) : HostOnly s (sendHost s m) := by
  unfold sendHost; split <;> rfl

theorem setMsix_hostOnly (s : State) (fn v : Nat) (k : MsixEntry) : HostOnly s (setMsix s fn v k) := rfl

theorem sendMsix_hostOnly (s : State) (fn v : Nat) : HostOnly s (sendMsix s fn v) := by
  unfold sendMsix; dsimp only
  split
  · rfl
  · split
    · rfl
    · exact sendHost_hostOnly ..

theorem blockMessage_hostOnly (s : State) (b : Nat) : HostOnly s (blockMessage s b) := by
  unfold blockMessage; split
  · exact sendMsix_hostOnly ..
  · rfl

theorem raiseIrq_hostOnly (s t : State) : HostOnly t (raiseIrq s t) := by
  unfold raiseIrq
  have : ∀ (l : List Nat) (u : State),
      HostOnly u (l.foldl (fun u b => if irqBit t b && !irqBit s b then blockMessage u b else u) u) := by
    intro l
    induction l with
    | nil => exact fun u => rfl
    | cons b l ih =>
      intro u
      rw [List.foldl_cons]
      refine HostOnly.trans ?_ (ih _)
      split
      · exact blockMessage_hostOnly ..
      · rfl
  exact this _ _

/-- A command that leads to `t` ends in `t`, but for what its open frames record (R299) and its block messages (R449). -/
theorem finish_eq (s t : State) : finish s t = .next { t with
    frames := t.frames.map (settleFrame t)
    sent := (raiseIrq s (settleFrames t)).sent
    held := (raiseIrq s (settleFrames t)).held
    msix := (raiseIrq s (settleFrames t)).msix } := by
  unfold finish
  have h := raiseIrq_hostOnly s (settleFrames t)
  unfold HostOnly at h
  rw [h]; rfl

theorem onUnit_lt {n cnt : Nat} (h : n < cnt) (s : State) (f : State → State) : onUnit n cnt s f = finish s (f s) := if_pos h

theorem onUnit_ge {n cnt : Nat} (h : cnt ≤ n) (s : State) (f : State → State) : onUnit n cnt s f = .fault .noSuchUnit :=
  if_neg (Nat.not_lt.mpr h)

theorem inBlock_of {b : Nat} {s : State} (h : blockWorks s b = true) (f : State → State) : inBlock b s f = f s := if_pos h

theorem inReach_of {b : Nat} {s : State} (h : blockReach s b = true) (f : State → State) : inReach b s f = f s := if_pos h

end Sys2Proof.Machine
end

