-- ==== Sys2Proof/Laws/Memory.lean ====
section
/-! SUPPORT. The byte memories: every operation that writes bytes keeps the canonical form, a byte reads back, and every
other byte stays. -/
namespace Sys2Proof.Machine

/-! ### One byte and a run of bytes -/

@[simp] theorem byteAt_putByte_same (m : List Host.Cell) (a : Nat) (b : Byte) : byteAt (putByte m a b) a = b := by
  simp [byteAt, putByte]

theorem byteAt_putByte_ne (m : List Host.Cell) {a x : Nat} (b : Byte) (h : x ≠ a) : byteAt (putByte m a b) x = byteAt m x :=
  sget_sset_ne _ _ _ _ h

theorem wf_putByte {m : List Host.Cell} (a : Nat) (b : Byte) (h : Sparse.wf 0 m = true) : Sparse.wf 0 (putByte m a b) = true :=
  Sparse.wf_sset a b h

theorem wf_putBytes {m : List Host.Cell} (a : Nat) (bs : List Nat) (h : Sparse.wf 0 m = true) :
    Sparse.wf 0 (putBytes m a bs) = true := by
  unfold putBytes
  generalize bs.zipIdx = l
  induction l generalizing m with
  | nil => exact h
  | cons p l ih => exact ih (wf_putByte _ _ h)

/-- A run of bytes changes no byte outside it. -/
theorem byteAt_putBytes_out (m : List Host.Cell) (a x : Nat) (bs : List Nat) (h : ¬ (a ≤ x ∧ x < a + bs.length)) :
    byteAt (putBytes m a bs) x = byteAt m x := by
  unfold putBytes
  suffices H : ∀ k, (∀ i, k ≤ i → i < k + bs.length → x ≠ a + i) →
      byteAt ((bs.zipIdx k).foldl (fun m p => putByte m (a + p.2) (BitVec.ofNat 8 p.1)) m) x = byteAt m x by
    exact H 0 fun i _ hi => by omega
  clear h
  induction bs generalizing m with
  | nil => intro _ _; rfl
  | cons b bs ih =>
    intro k hk
    have hl : (b :: bs).length = bs.length + 1 := rfl
    rw [List.zipIdx_cons, List.foldl_cons, ih _ (k + 1) fun i h1 h2 => hk i (by omega) (by omega)]
    exact byteAt_putByte_ne _ _ (hk k (Nat.le_refl k) (by omega))

/-! ### The memories of the device -/

theorem wf_of_same {s t : State} (h : t.memories = s.memories) (hw : Memory.wf s = true) : Memory.wf t = true := by
  unfold Memory.wf at *; rw [h]; exact hw

theorem Memory.wf_iff (s : State) : Memory.wf s = true ↔ Sparse.wf 0 s.data = true ∧ Sparse.wf 0 s.shared = true
    ∧ Sparse.wf 0 s.journal = true ∧ Sparse.wf 0 s.ispMem = true ∧ Sparse.wf 0 s.lp5x = true ∧ Sparse.wf 0 s.spm = true := by
  simp [Memory.wf, State.memories]

@[simp] theorem wr_memories (s : State) (f : Field) (i v : Nat) : (wr s f i v).memories = s.memories := rfl
@[simp] theorem setCore_memories (s : State) (c : Nat) (k : SqCore) : (setCore s c k).memories = s.memories := rfl

/-- A store of one byte by a core keeps the form of every memory. -/
theorem wf_storeByte {s : State} (c a : Nat) (b : Byte) (h : Memory.wf s = true) : Memory.wf (storeByte s c a b) = true := by
  rw [Memory.wf_iff] at *
  obtain ⟨h1, h2, h3⟩ := h
  unfold storeByte
  split
  · exact ⟨wf_putByte _ _ h1, h2, h3⟩
  · exact ⟨h1, wf_putByte _ _ h2, h3⟩
  · exact ⟨h1, h2, h3⟩

/-- A store of a core keeps the form of every memory. -/
theorem wf_storeBytes {s : State} (c a n v : Nat) (h : Memory.wf s = true) : Memory.wf (storeBytes s c a n v) = true := by
  unfold storeBytes
  simp only
  split
  · exact h
  · rename_i hr
    clear hr
    generalize List.map _ _ = l
    induction l generalizing s with
    | nil => exact h
    | cons e l ih => exact ih (wf_storeByte _ _ _ h)

/-- What ends a command keeps the form of every memory. -/
theorem wf_settled {u t : State} (h : Settled u t) (hw : Memory.wf u = true) : Memory.wf t = true := by
  apply wf_of_same _ hw
  rw [h]; rfl

/-- The memories after power-on have their form. -/
theorem wf_reset : Memory.wf State.reset = true := rfl

/-! ### The register file -/

/-- A write of a register field keeps the order of the register file. -/
theorem regs_wf_wr {s : State} (f : Field) (i v : Nat) (h : Registers.wf s = true) : Registers.wf (wr s f i v) = true :=
  sortedKeys_sset _ _ _ h

theorem regs_wf_settled {u t : State} (h : Settled u t) (hw : Registers.wf u = true) : Registers.wf t = true := by
  unfold Registers.wf at *
  rw [h]; exact hw

end Sys2Proof.Machine
end

