-- ==== Sys2Proof/Laws/Safety.lean ====
section
/-! SUPPORT. How claims about a command are proved: a command ends in a settled state, and writes keep what they do not name. -/
namespace Sys2Proof.Machine

/-- To show what a command that leads to `u` answers, show it of every settled form of `u`. -/
theorem answers_finish {s u : State} {P : State → Prop} (h : ∀ t, Settled u t → P t) : Answers (finish s u) P :=
  ⟨_, finish_eq s u, h _ rfl⟩

theorem answers_onUnit {n cnt : Nat} {s : State} {f : State → State} {P : State → Prop} (hn : n < cnt)
    (h : ∀ t, Settled (f s) t → P t) : Answers (onUnit n cnt s f) P := by
  rw [onUnit_lt hn]; exact answers_finish h

theorem answers_onBlock {b n cnt : Nat} {s : State} {f : State → State} {P : State → Prop} (hn : n < cnt)
    (hb : blockWorks s b = true) (h : ∀ t, Settled (f s) t → P t) : Answers (onBlock b n cnt s f) P :=
  answers_onUnit hn fun t ht => h t (by rwa [inBlock_of hb] at ht)

theorem answers_reach {b : Nat} {s : State} {f : State → State} {P : State → Prop}
    (hb : blockReach s b = true) (h : ∀ t, Settled (f s) t → P t) : Answers (finish s (inReach b s f)) P :=
  answers_finish fun t ht => h t (by rwa [inReach_of hb] at ht)

theorem answers_unitReach {b n cnt : Nat} {s : State} {f : State → State} {P : State → Prop} (hn : n < cnt)
    (hb : blockReach s b = true) (h : ∀ t, Settled (f s) t → P t) : Answers (onUnit n cnt s fun s => inReach b s f) P :=
  answers_onUnit hn fun t ht => h t (by rwa [inReach_of hb] at ht)

theorem answers_inBlock {b : Nat} {s : State} {f : State → State} {P : State → Prop}
    (hb : blockWorks s b = true) (h : ∀ t, Settled (f s) t → P t) : Answers (finish s (inBlock b s f)) P :=
  answers_finish fun t ht => h t (by rwa [inBlock_of hb] at ht)

/-! ### What a settled state keeps -/

theorem Settled.pending {u t : State} (h : Settled u t) : t.pending = u.pending := by
  have e := congrArg State.pending h; exact e
theorem Settled.regs {u t : State} (h : Settled u t) : t.regs = u.regs := by
  have e := congrArg State.regs h; exact e
theorem Settled.hiHeld {u t : State} (h : Settled u t) : t.hiHeld = u.hiHeld := by
  have e := congrArg State.hiHeld h; exact e
theorem Settled.tb {u t : State} (h : Settled u t) : t.tb = u.tb := by
  have e := congrArg State.tb h; exact e
theorem Settled.ns {u t : State} (h : Settled u t) : t.ns = u.ns := by
  have e := congrArg State.ns h; exact e
theorem Settled.freeCtr {u t : State} (h : Settled u t) : t.freeCtr = u.freeCtr := by
  have e := congrArg State.freeCtr h; exact e
theorem Settled.beacons {u t : State} (h : Settled u t) : t.beacons = u.beacons := by
  have e := congrArg State.beacons h; exact e
theorem Settled.bcnBusy {u t : State} (h : Settled u t) : t.bcnBusy = u.bcnBusy := by
  have e := congrArg State.bcnBusy h; exact e
theorem Settled.mbx {u t : State} (h : Settled u t) : t.mbx = u.mbx := by
  have e := congrArg State.mbx h; exact e
theorem Settled.cores {u t : State} (h : Settled u t) : t.cores = u.cores := by
  have e := congrArg State.cores h; exact e
theorem Settled.prog {u t : State} (h : Settled u t) : t.prog = u.prog := by
  have e := congrArg State.prog h; exact e
theorem Settled.data {u t : State} (h : Settled u t) : t.data = u.data := by
  have e := congrArg State.data h; exact e
theorem Settled.shared {u t : State} (h : Settled u t) : t.shared = u.shared := by
  have e := congrArg State.shared h; exact e
theorem Settled.hashDue {u t : State} (h : Settled u t) : t.hashDue = u.hashDue := by
  have e := congrArg State.hashDue h; exact e
theorem Settled.hashDirty {u t : State} (h : Settled u t) : t.hashDirty = u.hashDirty := by
  have e := congrArg State.hashDirty h; exact e
theorem Settled.pci {u t : State} (h : Settled u t) : t.pci = u.pci := by
  have e := congrArg State.pci h; exact e
theorem Settled.numVfs {u t : State} (h : Settled u t) : t.numVfs = u.numVfs := by
  have e := congrArg State.numVfs h; exact e
theorem Settled.vfEnable {u t : State} (h : Settled u t) : t.vfEnable = u.vfEnable := by
  have e := congrArg State.vfEnable h; exact e
theorem Settled.perst {u t : State} (h : Settled u t) : t.perst = u.perst := by
  have e := congrArg State.perst h; exact e
theorem Settled.keeperReady {u t : State} (h : Settled u t) : t.keeperReady = u.keeperReady := by
  have e := congrArg State.keeperReady h; exact e
theorem Settled.captures {u t : State} (h : Settled u t) : t.captures = u.captures := by
  have e := congrArg State.captures h; exact e
theorem Settled.abandonedBank {u t : State} (h : Settled u t) : t.abandonedBank = u.abandonedBank := by
  have e := congrArg State.abandonedBank h; exact e
theorem Settled.keepIrq {u t : State} (h : Settled u t) : t.keepIrq = u.keepIrq := by
  have e := congrArg State.keepIrq h; exact e
theorem Settled.kports {u t : State} (h : Settled u t) : t.kports = u.kports := by
  have e := congrArg State.kports h; exact e
theorem Settled.kbrRun {u t : State} (h : Settled u t) : t.kbrRun = u.kbrRun := by
  have e := congrArg State.kbrRun h; exact e
theorem Settled.journal {u t : State} (h : Settled u t) : t.journal = u.journal := by
  have e := congrArg State.journal h; exact e
theorem Settled.badWords {u t : State} (h : Settled u t) : t.badWords = u.badWords := by
  have e := congrArg State.badWords h; exact e
theorem Settled.logUsed {u t : State} (h : Settled u t) : t.logUsed = u.logUsed := by
  have e := congrArg State.logUsed h; exact e
theorem Settled.segDrive {u t : State} (h : Settled u t) : t.segDrive = u.segDrive := by
  have e := congrArg State.segDrive h; exact e
theorem Settled.dispActive {u t : State} (h : Settled u t) : t.dispActive = u.dispActive := by
  have e := congrArg State.dispActive h; exact e
theorem Settled.segLimited {u t : State} (h : Settled u t) : t.segLimited = u.segLimited := by
  have e := congrArg State.segLimited h; exact e
theorem Settled.cmpUpd {u t : State} (h : Settled u t) : t.cmpUpd = u.cmpUpd := by
  have e := congrArg State.cmpUpd h; exact e
theorem Settled.pinAt {u t : State} (h : Settled u t) : t.pinAt = u.pinAt := by
  have e := congrArg State.pinAt h; exact e
theorem Settled.lines {u t : State} (h : Settled u t) : t.lines = u.lines := by
  have e := congrArg State.lines h; exact e
theorem Settled.memLost {u t : State} (h : Settled u t) : t.memLost = u.memLost := by
  have e := congrArg State.memLost h; exact e
theorem Settled.dmaTurn {u t : State} (h : Settled u t) : t.dmaTurn = u.dmaTurn := by
  have e := congrArg State.dmaTurn h; exact e
theorem Settled.pwrRun {u t : State} (h : Settled u t) : t.pwrRun = u.pwrRun := by
  have e := congrArg State.pwrRun h; exact e
theorem Settled.wokeNow {u t : State} (h : Settled u t) : t.wokeNow = u.wokeNow := by
  have e := congrArg State.wokeNow h; exact e
theorem Settled.darkNow {u t : State} (h : Settled u t) : t.darkNow = u.darkNow := by
  have e := congrArg State.darkNow h; exact e
theorem Settled.armAt {u t : State} (h : Settled u t) : t.armAt = u.armAt := by
  have e := congrArg State.armAt h; exact e
theorem Settled.hotMask {u t : State} (h : Settled u t) : t.hotMask = u.hotMask := by
  have e := congrArg State.hotMask h; exact e
theorem Settled.nearTripMask {u t : State} (h : Settled u t) : t.nearTripMask = u.nearTripMask := by
  have e := congrArg State.nearTripMask h; exact e
theorem Settled.streams {u t : State} (h : Settled u t) : t.streams = u.streams := by
  have e := congrArg State.streams h; exact e
theorem Settled.pktPorts {u t : State} (h : Settled u t) : t.pktPorts = u.pktPorts := by
  have e := congrArg State.pktPorts h; exact e
theorem Settled.tagQ {u t : State} (h : Settled u t) : t.tagQ = u.tagQ := by
  have e := congrArg State.tagQ h; exact e
theorem Settled.tagNext {u t : State} (h : Settled u t) : t.tagNext = u.tagNext := by
  have e := congrArg State.tagNext h; exact e
theorem Settled.enc {u t : State} (h : Settled u t) : t.enc = u.enc := by
  have e := congrArg State.enc h; exact e
theorem Settled.po {u t : State} (h : Settled u t) : t.po = u.po := by
  have e := congrArg State.po h; exact e
theorem Settled.cmpList {u t : State} (h : Settled u t) : t.cmpList = u.cmpList := by
  have e := congrArg State.cmpList h; exact e
theorem Settled.cmpHeld {u t : State} (h : Settled u t) : t.cmpHeld = u.cmpHeld := by
  have e := congrArg State.cmpHeld h; exact e
theorem Settled.cmpCur {u t : State} (h : Settled u t) : t.cmpCur = u.cmpCur := by
  have e := congrArg State.cmpCur h; exact e
theorem Settled.trg {u t : State} (h : Settled u t) : t.trg = u.trg := by
  have e := congrArg State.trg h; exact e
theorem Settled.fcg {u t : State} (h : Settled u t) : t.fcg = u.fcg := by
  have e := congrArg State.fcg h; exact e
theorem Settled.periodHeld {u t : State} (h : Settled u t) : t.periodHeld = u.periodHeld := by
  have e := congrArg State.periodHeld h; exact e
theorem Settled.slew {u t : State} (h : Settled u t) : t.slew = u.slew := by
  have e := congrArg State.slew h; exact e
theorem Settled.slewNext {u t : State} (h : Settled u t) : t.slewNext = u.slewNext := by
  have e := congrArg State.slewNext h; exact e
theorem Settled.ppsGood {u t : State} (h : Settled u t) : t.ppsGood = u.ppsGood := by
  have e := congrArg State.ppsGood h; exact e
theorem Settled.ppsLast {u t : State} (h : Settled u t) : t.ppsLast = u.ppsLast := by
  have e := congrArg State.ppsLast h; exact e
theorem Settled.prt {u t : State} (h : Settled u t) : t.prt = u.prt := by
  have e := congrArg State.prt h; exact e
theorem Settled.isp {u t : State} (h : Settled u t) : t.isp = u.isp := by
  have e := congrArg State.isp h; exact e
theorem Settled.ispMem {u t : State} (h : Settled u t) : t.ispMem = u.ispMem := by
  have e := congrArg State.ispMem h; exact e
theorem Settled.ispMid {u t : State} (h : Settled u t) : t.ispMid = u.ispMid := by
  have e := congrArg State.ispMid h; exact e
theorem Settled.podRuns {u t : State} (h : Settled u t) : t.podRuns = u.podRuns := by
  have e := congrArg State.podRuns h; exact e
theorem Settled.podNextId {u t : State} (h : Settled u t) : t.podNextId = u.podNextId := by
  have e := congrArg State.podNextId h; exact e
theorem Settled.lsram {u t : State} (h : Settled u t) : t.lsram = u.lsram := by
  have e := congrArg State.lsram h; exact e
theorem Settled.lsramUsed {u t : State} (h : Settled u t) : t.lsramUsed = u.lsramUsed := by
  have e := congrArg State.lsramUsed h; exact e
theorem Settled.tracked {u t : State} (h : Settled u t) : t.tracked = u.tracked := by
  have e := congrArg State.tracked h; exact e
theorem Settled.preVerdicts {u t : State} (h : Settled u t) : t.preVerdicts = u.preVerdicts := by
  have e := congrArg State.preVerdicts h; exact e
theorem Settled.keepWins {u t : State} (h : Settled u t) : t.keepWins = u.keepWins := by
  have e := congrArg State.keepWins h; exact e
theorem Settled.gateMid {u t : State} (h : Settled u t) : t.gateMid = u.gateMid := by
  have e := congrArg State.gateMid h; exact e
theorem Settled.lp5x {u t : State} (h : Settled u t) : t.lp5x = u.lp5x := by
  have e := congrArg State.lp5x h; exact e
theorem Settled.spm {u t : State} (h : Settled u t) : t.spm = u.spm := by
  have e := congrArg State.spm h; exact e
theorem Settled.storeBuf {u t : State} (h : Settled u t) : t.storeBuf = u.storeBuf := by
  have e := congrArg State.storeBuf h; exact e
theorem Settled.burstPost {u t : State} (h : Settled u t) : t.burstPost = u.burstPost := by
  have e := congrArg State.burstPost h; exact e
theorem Settled.descs {u t : State} (h : Settled u t) : t.descs = u.descs := by
  have e := congrArg State.descs h; exact e
theorem Settled.dmaNextId {u t : State} (h : Settled u t) : t.dmaNextId = u.dmaNextId := by
  have e := congrArg State.dmaNextId h; exact e
theorem Settled.dmaCh {u t : State} (h : Settled u t) : t.dmaCh = u.dmaCh := by
  have e := congrArg State.dmaCh h; exact e
theorem Settled.sdlvQ {u t : State} (h : Settled u t) : t.sdlvQ = u.sdlvQ := by
  have e := congrArg State.sdlvQ h; exact e
theorem Settled.sdlvRead {u t : State} (h : Settled u t) : t.sdlvRead = u.sdlvRead := by
  have e := congrArg State.sdlvRead h; exact e
theorem Settled.rings {u t : State} (h : Settled u t) : t.rings = u.rings := by
  have e := congrArg State.rings h; exact e
theorem Settled.recQ {u t : State} (h : Settled u t) : t.recQ = u.recQ := by
  have e := congrArg State.recQ h; exact e
theorem Settled.twn {u t : State} (h : Settled u t) : t.twn = u.twn := by
  have e := congrArg State.twn h; exact e
theorem Settled.twnFcg {u t : State} (h : Settled u t) : t.twnFcg = u.twnFcg := by
  have e := congrArg State.twnFcg h; exact e
theorem Settled.twnStreams {u t : State} (h : Settled u t) : t.twnStreams = u.twnStreams := by
  have e := congrArg State.twnStreams h; exact e
theorem Settled.aDieReset {u t : State} (h : Settled u t) : t.aDieReset = u.aDieReset := by
  have e := congrArg State.aDieReset h; exact e
theorem Settled.laneStopped {u t : State} (h : Settled u t) : t.laneStopped = u.laneStopped := by
  have e := congrArg State.laneStopped h; exact e
theorem Settled.aDieReleased {u t : State} (h : Settled u t) : t.aDieReleased = u.aDieReleased := by
  have e := congrArg State.aDieReleased h; exact e
theorem Settled.hiZ {u t : State} (h : Settled u t) : t.hiZ = u.hiZ := by
  have e := congrArg State.hiZ h; exact e
theorem Settled.frames {u t : State} (h : Settled u t) : t.frames = u.frames.map (settleFrame t) := by
  have e := congrArg State.frames h; exact e

theorem Settled.rd {u t : State} (h : Settled u t) (f : Field) (i : Nat) : rd t f i = rd u f i := rd_congr h.regs f i
theorem Settled.hasBit {u t : State} (h : Settled u t) (f : Field) (i b : Nat) : hasBit t f i b = hasBit u f i b := by
  unfold Machine.hasBit; rw [h.rd]

/-- A settled state of `u` changes of `s` what `u` changes of it. -/
theorem Settled.changes {s u t : State} {ks : List (Field × Nat)} (h : Settled u t) (hk : Keeps ks s u)
    (hu : u = { s with regs := u.regs }) : Changes ks s t := by
  refine ⟨fun f i hf => (h.rd f i).trans (hk f i hf), ?_⟩
  obtain ⟨r, rfl⟩ : ∃ r, u = { s with regs := r } := ⟨_, hu⟩
  have hr : t.regs = r := h.regs
  unfold Settled at *
  rw [hr]; exact h

theorem Keeps.refl (ks : List (Field × Nat)) (s : State) : Keeps ks s s := fun _ _ _ => rfl

theorem Keeps.wr {ks : List (Field × Nat)} {s u : State} (h : Keeps ks s u) (f : Field) (i v : Nat)
    (hm : (f, i) ∈ ks) : Keeps ks s (wr u f i v) := fun g j hg =>
  (rd_wr_ne u f g i j v (hg (f, i) hm)).trans (h g j hg)

theorem Keeps.trans {ks : List (Field × Nat)} {s t u : State} (h : Keeps ks s t) (k : Keeps ks t u) : Keeps ks s u :=
  fun f i hf => (k f i hf).trans (h f i hf)

end Sys2Proof.Machine
end

