-- ==== Sys2Proof/Laws/Touches.lean ====
section
/-! SUPPORT. Which fields the shared operations may change, whatever the instance: the frame of a whole operation. -/
namespace Sys2Proof.Machine

/-- Of the registers, `t` differs from `s` at most in instances of the listed fields. -/
def Touches (fs : List Field) (s t : State) : Prop :=
  ∀ f i, (∀ g ∈ fs, g.fid % 1024 ≠ f.fid % 1024) → rd t f i = rd s f i

variable {fs : List Field} {s t u : State}

theorem Touches.refl : Touches fs s s := fun _ _ _ => rfl

theorem Touches.of_regs (h : t.regs = s.regs) : Touches fs s t := fun f i _ => rd_congr h f i

theorem Touches.trans (h : Touches fs s t) (k : Touches fs t u) : Touches fs s u := fun f i hf => (k f i hf).trans (h f i hf)

theorem Touches.mono {gs : List Field} (h : Touches fs s t) (hs : ∀ f ∈ fs, f ∈ gs) : Touches gs s t :=
  fun f i hf => h f i fun g hg => hf g (hs g hg)

theorem Touches.wr (h : Touches fs s t) (f : Field) (i v : Nat) (hm : f ∈ fs) : Touches fs s (wr t f i v) :=
  fun g j hg => (rd_wr_field t f g i j v (hg f hm)).trans (h g j hg)

theorem Touches.foldl {α : Type} (g : State → α → State) (l : List α) (hg : ∀ u x, Touches fs u (g u x)) (s : State) :
    Touches fs s (l.foldl g s) := by
  induction l generalizing s with
  | nil => exact .refl
  | cons x l ih => exact (hg s x).trans (ih _)

theorem Touches.settled (h : Touches fs s t) (hu : Settled t u) : Touches fs s u := h.trans (.of_regs hu.regs)

/-! ### The beacon matrix -/

/-- What a delivery records (R484). -/
def beaconFields : List Field := [F.BCN_FIRED_CH, F.BCN_FIRES_COUNT, F.BCN_FIRE_CH, F.BCN_LAST_TB_VALUE]

theorem deliver_touches (s : State) (ch : Nat) : Touches beaconFields s (deliver s ch) := by
  have h : Touches beaconFields s (bump (setBit s F.BCN_FIRED_CH 0 ch) F.BCN_FIRES_COUNT ch) := by
    refine (Touches.refl.wr _ _ _ ?_).wr _ _ _ ?_ <;> simp [beaconFields]
  have last : ∀ u, Touches beaconFields s u →
      Touches beaconFields s (if domUp u 4 = true then Machine.wr u F.BCN_LAST_TB_VALUE ch u.tb else u) := by
    intro u hu
    split
    · exact hu.wr _ _ _ (by simp [beaconFields])
    · exact hu
  unfold deliver; dsimp only
  refine last _ ?_
  split
  · exact h
  · exact h.wr _ _ _ (by simp [beaconFields])

theorem fireChannel_touches (s : State) (ch : Nat) (soft : Bool) : Touches beaconFields s (fireChannel s ch soft) := by
  unfold fireChannel; dsimp only
  split
  · exact deliver_touches s ch
  · exact .of_regs rfl

theorem fireProducer_touches (s : State) (p : Nat) : Touches beaconFields s (fireProducer s p) := by
  unfold fireProducer; split
  · refine Touches.foldl _ _ (fun u x => ?_) s
    split
    · exact fireChannel_touches u x false
    · exact .refl
  · exact .refl

theorem capture_touches (s : State) (src detail : Nat) : Touches beaconFields s (capture s src detail) := by
  have step : ∀ (u v : State) (c : Bool) (p : Nat), Touches beaconFields u v →
      Touches beaconFields u (if c = true then fireProducer v p else v) := by
    intro u v c p h
    cases c
    · exact h
    · exact h.trans (fireProducer_touches v p)
  unfold capture; dsimp only
  exact step _ _ _ _ (step _ _ _ _ (.of_regs rfl))

/-! ### Dark outputs -/

/-- What an output that goes dark may change (R605, R232, R184). -/
def darkFields : List Field :=
  [F.FIO_CH_STAT_DARK, F.FIO_CH_STAT_DARK_CAUSE, F.FIO_CH_STAT_ARMING, F.TRG_STATUS_ACTIVE, F.TRG_DARK_DROP_COUNT,
   F.TRG_EVT_EVT, F.PO_STATUS_BACKLOG, F.PO_LOST_COUNT]

theorem darkDrop_touches (s : State) (n k : Nat) : Touches darkFields s (darkDrop s n k) := by
  exact (Touches.refl.wr _ _ _ (by simp [darkFields])).wr _ _ _ (by simp [darkFields])

theorem discardPulses_touches (s : State) (n : Nat) (count : Bool) : Touches darkFields s (discardPulses s n count) := by
  unfold discardPulses; dsimp only
  refine (Touches.of_regs rfl).trans (Touches.foldl _ _ (fun u m => ?_) _)
  refine Touches.wr ?_ _ _ _ (by simp [darkFields])
  split
  · exact darkDrop_touches _ _ _
  · exact .refl

theorem poDarkOf_touches (s : State) (n : Nat) : Touches darkFields s (poDarkOf s n) := by
  unfold poDarkOf
  refine Touches.foldl _ _ (fun u p => ?_) s
  split
  · unfold poDark; dsimp only
    split
    · exact .refl
    · exact (Touches.refl.wr _ _ _ (by simp [darkFields])).wr _ _ _ (by simp [darkFields])
  · exact .refl

theorem goDark_touches (s : State) (cause : Nat) (z : Bool) (c : Nat) : Touches darkFields s (goDark s cause z c) := by
  unfold goDark
  split
  · exact .refl
  · dsimp only
    have h : Touches darkFields s (wr (wr (wr s F.FIO_CH_STAT_DARK c 1) F.FIO_CH_STAT_DARK_CAUSE c
        (if isSet s F.FIO_CH_STAT_DARK c = true ∧ rd s F.FIO_CH_STAT_DARK_CAUSE c ≠ 0
         then min cause (rd s F.FIO_CH_STAT_DARK_CAUSE c) else cause)) F.FIO_CH_STAT_ARMING c 0) := by
      refine ((Touches.refl.wr _ _ _ ?_).wr _ _ _ ?_).wr _ _ _ ?_ <;> simp [darkFields]
    split
    · refine Touches.trans ?_ (poDarkOf_touches _ _)
      refine Touches.trans ?_ (discardPulses_touches _ _ _)
      split
      · exact h.trans (.of_regs rfl)
      · exact h
    · split
      · exact h.trans (.of_regs rfl)
      · exact h

theorem goDarkAll_touches (s : State) (cause : Nat) (z : Bool) : Touches darkFields s (goDarkAll s cause z) :=
  Touches.foldl _ _ (fun u c => goDark_touches u cause z c) s

/-- What a dark output discards changes none of its channel's own status (R232, R184). -/
theorem dark_tail_touches (u : State) (n : Nat) (b : Bool) :
    Touches [F.TRG_STATUS_ACTIVE, F.TRG_DARK_DROP_COUNT, F.TRG_EVT_EVT, F.PO_STATUS_BACKLOG, F.PO_LOST_COUNT]
      u (poDarkOf (discardPulses u n b) n) := by
  refine Touches.trans (t := discardPulses u n b) ?_ ?_
  · unfold discardPulses; dsimp only
    refine (Touches.of_regs rfl).trans (Touches.foldl _ _ (fun u m => ?_) _)
    refine Touches.wr ?_ _ _ _ (by simp)
    split
    · exact (Touches.refl.wr _ _ _ (by simp)).wr _ _ _ (by simp)
    · exact .refl
  · unfold poDarkOf
    refine Touches.foldl _ _ (fun u p => ?_) _
    split
    · unfold poDark; dsimp only
      split
      · exact .refl
      · exact (Touches.refl.wr _ _ _ (by simp)).wr _ _ _ (by simp)
    · exact .refl

theorem rd_hiZ (u : State) (z : List (Nat × Bool)) (f : Field) (i : Nat) : rd { u with hiZ := z } f i = rd u f i := rfl

theorem rd_tail (u : State) (n : Nat) (b : Bool) (c : Nat) :
    rd (poDarkOf (discardPulses u n b) n) F.FIO_CH_STAT_DARK c = rd u F.FIO_CH_STAT_DARK c :=
  dark_tail_touches u n b F.FIO_CH_STAT_DARK c (by decide)

/-- An output that goes dark is dark. -/
theorem goDark_dark (s : State) (cause : Nat) (z : Bool) {c : Nat} (hc : isOutputCh s c = true) :
    isSet (goDark s cause z c) F.FIO_CH_STAT_DARK c = true := by
  have key : ∀ u v : State, rd u F.FIO_CH_STAT_DARK c = 1 →
      Touches [F.TRG_STATUS_ACTIVE, F.TRG_DARK_DROP_COUNT, F.TRG_EVT_EVT, F.PO_STATUS_BACKLOG, F.PO_LOST_COUNT] u v →
      isSet v F.FIO_CH_STAT_DARK c = true := by
    intro u v hu h
    have := h F.FIO_CH_STAT_DARK c (by decide)
    simp [isSet, this, hu]
  have h0 : ∀ v w, rd (wr (wr (wr s F.FIO_CH_STAT_DARK c 1) F.FIO_CH_STAT_DARK_CAUSE c v) F.FIO_CH_STAT_ARMING c w)
      F.FIO_CH_STAT_DARK c = 1 := by
    intro v w
    rw [rd_wr_field _ _ _ _ _ _ (by decide), rd_wr_field _ _ _ _ _ _ (by decide), rd_wr_same]; rfl
  unfold goDark
  simp only [hc, Bool.not_true, Bool.false_eq_true, if_false]
  have h1 : ∀ u : State, rd u F.FIO_CH_STAT_DARK c = 1 → isSet u F.FIO_CH_STAT_DARK c = true := by
    intro u h; simp [isSet, h]
  split
  · refine key _ _ ?_ (dark_tail_touches _ _ _)
    split
    · rw [rd_hiZ]; exact h0 _ _
    · exact h0 _ _
  · refine h1 _ ?_
    split
    · rw [rd_hiZ]; exact h0 _ _
    · exact h0 _ _

/-- Every trigger output is dark after all outputs went dark. -/
theorem goDarkAll_dark (s : State) (cause : Nat) (z : Bool) {n : Nat} (hn : n < 16) : trgDark (goDarkAll s cause z) n = true := by
  have mono : ∀ (u : State) (c : Nat), isSet u F.FIO_CH_STAT_DARK (12 + n) = true →
      isSet (goDark u cause z c) F.FIO_CH_STAT_DARK (12 + n) = true := by
    intro u c h
    by_cases hc : c = 12 + n
    · subst hc; exact goDark_dark u cause z (by simp [isOutputCh]; omega)
    · have : rd (goDark u cause z c) F.FIO_CH_STAT_DARK (12 + n) = rd u F.FIO_CH_STAT_DARK (12 + n) := by
        have h0 : ∀ v w, rd (wr (wr (wr u F.FIO_CH_STAT_DARK c 1) F.FIO_CH_STAT_DARK_CAUSE c v) F.FIO_CH_STAT_ARMING c w)
            F.FIO_CH_STAT_DARK (12 + n) = rd u F.FIO_CH_STAT_DARK (12 + n) := by
          intro v w
          rw [rd_wr_inst _ _ _ _ hc, rd_wr_inst _ _ _ _ hc, rd_wr_inst _ _ _ _ hc]
        unfold goDark
        split
        · rfl
        · dsimp only
          have tail : ∀ v m b, rd (poDarkOf (discardPulses v m b) m) F.FIO_CH_STAT_DARK (12 + n) = rd v F.FIO_CH_STAT_DARK (12 + n) := by
            intro v m b
            exact rd_tail v m b (12 + n)
          split
          · rw [tail]; split
            · rw [rd_hiZ]; exact h0 _ _
            · exact h0 _ _
          · split
            · rw [rd_hiZ]; exact h0 _ _
            · exact h0 _ _
      unfold isSet at *; rw [this]; exact h
  have hit : ∀ (l : List Nat) (u : State), 12 + n ∈ l ∨ isSet u F.FIO_CH_STAT_DARK (12 + n) = true →
      isSet (l.foldl (fun s c => goDark s cause z c) u) F.FIO_CH_STAT_DARK (12 + n) = true := by
    intro l
    induction l with
    | nil => intro u h; simpa using h
    | cons c l ih =>
      intro u h
      rw [List.foldl_cons]
      apply ih
      rcases h with h | h
      · rcases List.mem_cons.mp h with h | h
        · right; subst h; exact goDark_dark u cause z (by simp [isOutputCh]; omega)
        · exact .inl h
      · exact .inr (mono u c h)
  exact hit _ s (.inl (List.mem_range.mpr (by omega)))

end Sys2Proof.Machine
end

