-- ==== Sys2Proof/Tests/Slice0.lean ====
section
/-! SUPPORT. Tests: for every statement with hypotheses a named theorem shows states and operands that meet all of them
together (`test_meets_<the statement's name>`, one conjunct per shape of its premises); every check of WellFormed refuses an
ill-formed command; worked examples of the specification and single steps on small states. Expected values come from the
specification, cited at each test. -/
open Sys2Proof Sys2Proof.Machine
namespace Sys2Proof.Tests
set_option Elab.async false

/-! ### States the tests start from -/

def isSync : Stall → Bool
  | .syncSend _ _ => true
  | _ => false
theorem noSync {x : Stall} (h : isSync x = false) (m d : Nat) : x ≠ .syncSend m d := by rintro rfl; cases h

/-- The FIO channels. -/
def chs : List Nat := List.range 48
/-- Core 1 with values at the ends of their ranges in v1, v2, v5 and v15. -/
def vv (s : State) : State := ([(1,5),(2,2^63),(5,2^64-1),(15,2^63-1)]).foldl (fun s e => wr s F.SQ_VREG_VALUE (16*1+e.1)
    e.2) s
/-- A released A-die with every domain good, both references present, D2D up and no output dark. -/
def live : State :=
  let s : State := { State.reset with aDieReset := false, aDieReleased := false, keeperReady := true, perst := false, laneStopped := false, tb := 100000, ns := 100000 }
  let s := wr s F.KP_GOOD_DOMAINS 0 0xFFFFFF
  let s := wr s F.GLB_STATUS_D2D_UP 0 1
  let s := wr s F.GLB_STATUS_REF_LANE_OK 0 1
  let s := wr s F.GLB_STATUS_REF_PCIE_OK 0 1
  let s := wr s F.KP_PROFILE_PROFILE 0 1
  let s := wr s F.TWN_STATUS_DRIVING 0 1
  chs.foldl (fun s c => wr (wr s F.FIO_CH_STAT_DARK c 0) F.FIO_CH_STAT_DARK_CAUSE c 0) s
/-- `live` with core 1 in state `k`, running, at program address 0x100 words. -/
def co (k : SqCore) : State := vv (wr (wr (wr { live with cores := [(1,k),(0,k)] } F.SQ_STATUS_STATE 1 sqRUNNING)
    F.SQ_STATUS_STATE 0 sqRUNNING) F.SQ_PC_PC 1 0x100)
/-- A complete frame of stream 0. -/
def fr0 : Frame := ⟨0, 0, .complete, none, 0, 0, 0x2A, 0, 90000, 95000, 90000, 0, 0, 0, none, [0,0,0,0], 0, false, false,
    false, 64, 64, 4, 4, 4, true, 0, 0, false, false, [], false, [], []⟩
/-- A block of n bytes, zero but for those listed. -/
def mkB (n : Nat) (l : List (Nat × Nat)) : List Nat := (List.range n).map fun i => ((l.find? fun e => e.1 ==
    i).map Prod.snd).getD 0
/-- Burst memory trained. -/
def ready (s : State) : State := wr s F.MEM_STATUS_STATE 0 2
/-- The region of stream k, enabled, with frame q its newest. -/
def region (s : State) (k q : Nat) : State := wr (wr (wr (wr (wr (wr s F.MEM_SREG_CFG_EN k 1)
    F.MEM_SREG_CFG_SIZE_LOG2 k 20) F.MEM_SREG_CFG_SLOT_LOG2 k 16) F.MEM_SREG_NEWEST_SEQ k q)
    F.MEM_SREG_NEWEST_STORED k 1) F.MEM_USABLE_VALUE 0 (2^33)
/-- Core 1 of `co`, in its first state. -/
def core1 : State := co SqCore.init

/-! ### Hand-written words and worked examples of the specification -/

/-- Decoding: the twelve words of the worked encoding of spec/03 (the Rig F triage loop). -/
theorem test_worked_encoding :
    [0x60100000, 0x58900000, 0x2A93D090, 0x8064FFFD, 0x98040001, 0x60100040, 0x50560000, 0x21550001, 0x30200003,
      0x81000000, 0x3000FFF6, 0x82000000].map (tsxDecode 3)
      = [some (.wait 3 1 0 0 0), some (.tbr 3 9), some (.add 3 9 9 (.acc 0x3D090)), some (.spec 3 1 9 0xFFFD),
        some (.dmaq 3 0 4 true), some (.wait 3 1 0 0 1), some (.rdev 3 5 6 0), some (.sub 3 5 5 (.imm 1)),
        some (.bCond 3 2 3), some (.commit 3), some (.bCond 3 0 0xFFF6), some (.squash 3)] := by decide +kernel

/-- spec/14, the identity read of Rig T: the header CRC over 01 00 00 is 0x6B, the read CRC is 0xF3. -/
theorem test_keeper_crc : crc8 [1, 0, 0] = 0x6B ∧ crc8 [1, 0, 0, 9, 0x60, 0xB0, 0] = 0xF3 := by decide +kernel

/-- spec/07, the tags of frame 800,000 of S4 on Rig D, of the lead and of the watch. -/
theorem test_tag_word : tagWord0 4 800000 false = 0x02040000000C3500 ∧ tagWord0 4 800000 true = 0x02440000000C3500 := by
  decide +kernel

/-- spec/10, Rig F: SEQ 30,000 lies at 0x1_9800_0000. -/
theorem test_slot_address :
    slotAddr (wr (wr (wr State.reset F.MEM_SREG_CFG_SIZE_LOG2 2 32) F.MEM_SREG_CFG_SLOT_LOG2 2 23)
        F.MEM_SREG_BASE_BASE 2 0x100000000)
      2 30000 = 0x198000000 := by decide +kernel

/-- spec/09, the compressed chunk: 82 00 00 40 05 80 11, and back. -/
theorem test_compressed_chunk :
    let ch := (List.range 32).map fun i => if i = 1 then 0x05 else if i = 7 then 0x80 else if i = 30 then 0x11 else 0
    compressChunk 0 ch = [0x82, 0, 0, 0x40, 0x05, 0x80, 0x11] ∧ decompressLine 1 0 (compressChunk 0 ch) = ch :=
        by decide +kernel

/-- spec/10, UNPACK and PLANE_SPLIT of the RAW12 group 7D 0A 31. -/
theorem test_unpack_group :
    (xDest 4 1 0 [0x7D, 0x0A, 0x31]).map (fun e => e.2.2) = [0xD1, 0x07, 0xA3, 0x00]
      ∧ (xDest 5 1 0 [0x7D, 0x0A, 0x31]).map (fun e => (e.1, e.2.2)) = [(0, 0x7D), (0, 0x0A), (1, 0x31)] :=
          by decide +kernel

/-- spec/08, the dead column at X = 517 of Rig T. -/
theorem test_defect_entry : defectEntry 1280 800 0x10000205 ([], 0, none, false) = ([(1, 517, 0)], 0, some 517, false) :=
    by decide +kernel

/-- spec/04, Rig F through PO0: after 91 counts at 45 / 4,096 no output count, after 92 the first. -/
theorem test_pulse_output_ratio :
    let s := wr (wr State.reset F.PO_RATIO_M 0 45) F.PO_RATIO_N 0 4096
    let lit := [0, 1, 2, 3].foldl (fun s n => wr (wr s F.FIO_CH_STAT_DARK (12 + n) 0) F.TRG_CFG_MODE n 1) s
    rd (poAccumulate lit 0 91) F.PO_STATUS_BACKLOG 0 = 0 ∧ rd (poAccumulate lit 0 92) F.PO_STATUS_BACKLOG 0 = 1 := by
  decide +kernel

/-- spec/04, Rig F: entry 1,024 of the compare list, POS = 100 forward, written at BAR 0 + 0x009_2000. -/
theorem test_compare_list_entry :
    cmpEntry (cmpListWrite State.reset 0x2000 8 0x0100000000000064) 1024 = 0x0100000000000064
      ∧ toSigned 56 (0x0100000000000064 : Nat) = 100 := by decide +kernel

/-- The CRC check values of spec/07 and spec/10 over the digits 1 to 9. -/
theorem test_crc_check_values :
    let d := [0x31, 0x32, 0x33, 0x34, 0x35, 0x36, 0x37, 0x38, 0x39]
    crc16 d = 0x29B1 ∧ crc32 d = 0xCBF43926 := by decide +kernel

/-- R240: D21.5 and K28.5 as sent, and what the receiver makes of K28.5 and of a group that no character has. -/
theorem test_code_groups :
    (groupOf false true 0xBC).1 = (groupOf true true 0xBC).1 ^^^ 0x3FF ∧ rlaUnit 0 (groupOf false true 0xBC).1 = .idle
      ∧ rlaUnit 0 0 = .bad 0 [none] := by decide +kernel

/-- R238: descrambling undoes scrambling. -/
theorem test_descramble :
    descramble 0x155AA55AA55AA5 (scramble 0x155AA55AA55AA5 0x0123456789ABCDEF) = 0x0123456789ABCDEF := by decide +kernel

/-! ### Single steps -/

/-- add wraps at 2^64: C; and overflows from 2^63 - 1: N and V (R105, R110). -/
theorem test_add_wraps :
    (match step { core1 with pending := [.add 1 3 5 (.imm 1)] } with
      | .next t => vreg t 1 3 == 0 && flagsOf t 1 == ⟨true, false, true, false⟩
      | _ => false) = true
    ∧ (match step { core1 with pending := [.add 1 3 15 (.imm 1)] } with
      | .next t => vreg t 1 3 == 2 ^ 63 && flagsOf t 1 == ⟨false, true, false, true⟩
      | _ => false) = true := by decide +kernel

/-- v0 discards what is written to it (R103). -/
theorem test_v0_discards :
    (match step { core1 with pending := [.add 1 0 1 (.reg 2)] } with
      | .next t => vreg t 1 0 == 0
      | _ => false) = true := by decide +kernel

/-- The device identity of revision B0 reads 0x0960_B000 at BAR 0 + 0 (R35). -/
theorem test_identity_reads : (busRead live 16 0 4).1 = 0x0960B000 := by decide +kernel

/-- Reset leaves every trigger output dark and TB at 0, no command waiting. -/
theorem test_reset : State.reset.pending = [] ∧ State.reset.tb = 0 ∧ trgDark State.reset 4 = true := by decide +kernel

/-- A retry counts in the retry counter while the die-to-die link is up (R23). -/
theorem test_d2d_retry :
    (match step { live with pending := [.d2dRetry] } with
      | .next t => rd t F.GLB_D2D_ERR_RETRIES 0 == 1
      | _ => false) = true := by decide +kernel

/-! ### Well-formedness: each of these terms breaks one check -/

theorem test_wellFormed_refuses_1 :
    ([.registerWrite 32 0 4 0 none, .registerWrite 0 (2 ^ 26) 4 0 none, .registerWrite 0 0 3 0 none,
      .registerWrite 0 0 4 (2 ^ 32) none, .registerWrite 0 0 4 0 (some (0, 0)), .registerWrite 0 0 4 0 (some (32, 0)),
      .registerWrite 0 0 4 0 (some (1, 2 ^ 32)), .registerWrite 0 2 4 0 none, .badAccess 32 0 0 false,
      .badAccess 0 (2 ^ 26 + 2 ^ 20) 0 false, .loHalfRead 32 0, .loHalfRead 0 (2 ^ 26), .loHalfRead 0 2, .rcRead 32 0,
      .rcRead 0 (2 ^ 26), .rcRead 0 2, .hifIrqRearm (2 ^ 29), .msixUnmask 8 none, .msixUnmask 0 (some (2048)), .sqRun 8,
      .sqHalt 8, .sqStep 8, .sqCoreReset 8, .recipeStart 8 0, .recipeStart 0 8, .recipeBegin 8, .recipeStop 8,
      .recipeStopped 8, .recipeFcgStart 8, .coreWakeStart 8, .add 8 0 0 (.reg 0), .add 0 16 0 (.reg 0),
          .add 0 0 16 (.reg 0),
      .add 0 0 0 (.reg 16), .sub 8 0 0 (.reg 0), .sub 0 16 0 (.reg 0), .sub 0 0 16 (.reg 0), .sub 0 0 0 (.acc (2 ^ 20)),
      .and 8 0 0 (.reg 0), .and 0 16 0 (.reg 0), .and 0 0 16 (.reg 0),
          .and 0 0 0 (.acc 0)] : List Instr).all (fun i => !i.wellFormed) = true := by decide +kernel
theorem test_wellFormed_refuses_2 :
    ([.or 8 0 0 (.reg 0), .or 0 16 0 (.reg 0), .or 0 0 16 (.reg 0), .or 0 0 0 (.acc 0), .xor 8 0 0 (.reg 0),
      .xor 0 16 0 (.reg 0), .xor 0 0 16 (.reg 0), .xor 0 0 0 (.acc 0), .shl 8 0 0 (.reg 0), .shl 0 16 0 (.reg 0),
      .shl 0 0 16 (.reg 0), .shl 0 0 0 (.acc 0), .shl 0 0 0 (.imm 64), .shr 8 0 0 (.reg 0), .shr 0 16 0 (.reg 0),
      .shr 0 0 16 (.reg 0), .shr 0 0 0 (.acc 0), .shr 0 0 0 (.imm 64), .sar 8 0 0 (.reg 0), .sar 0 16 0 (.reg 0),
      .sar 0 0 16 (.reg 0), .sar 0 0 0 (.acc 0), .sar 0 0 0 (.imm 64), .mul 8 0 0 (.reg 0), .mul 0 16 0 (.reg 0),
      .mul 0 0 16 (.reg 0), .mul 0 0 0 (.acc 0), .mov 8 0 0, .mov 0 16 0, .mov 0 0 (2 ^ 20), .movk 8 0 0 0,
          .movk 0 16 0 0,
      .movk 0 0 (2 ^ 16) 0, .movk 0 0 0 4, .bCond 8 0 0, .bCond 0 15 0, .bCond 0 0 (2 ^ 16), .bl 8 0, .bl 0 (2 ^ 16),
          .jr 8 0,
      .jr 0 16, .ret 8] : List Instr).all (fun i => !i.wellFormed) = true := by decide +kernel
theorem test_wellFormed_refuses_3 :
    ([.movlk 8 0, .movlk 0 16, .setlk 8 0, .setlk 0 16, .ldb 8 0 0 0, .ldb 0 16 0 0, .ldb 0 0 16 0, .ldb 0 0 0 (2 ^ 16),
      .ldh 8 0 0 0, .ldh 0 16 0 0, .ldh 0 0 16 0, .ldh 0 0 0 (2 ^ 16), .ldw 8 0 0 0, .ldw 0 16 0 0, .ldw 0 0 16 0,
      .ldw 0 0 0 (2 ^ 16), .ldd 8 0 0 0, .ldd 0 16 0 0, .ldd 0 0 16 0, .ldd 0 0 0 (2 ^ 16), .ldsb 8 0 0 0, .ldsb 0 16 0 0,
      .ldsb 0 0 16 0, .ldsb 0 0 0 (2 ^ 16), .ldsh 8 0 0 0, .ldsh 0 16 0 0, .ldsh 0 0 16 0, .ldsh 0 0 0 (2 ^ 16),
      .ldsw 8 0 0 0, .ldsw 0 16 0 0, .ldsw 0 0 16 0, .ldsw 0 0 0 (2 ^ 16), .stb 8 0 0 0, .stb 0 16 0 0, .stb 0 0 16 0,
      .stb 0 0 0 (2 ^ 16), .sth 8 0 0 0, .sth 0 16 0 0, .sth 0 0 16 0, .sth 0 0 0 (2 ^ 16), .stw 8 0 0 0,
          .stw 0 16 0 0] : List Instr).all (fun i => !i.wellFormed) = true := by decide +kernel
theorem test_wellFormed_refuses_4 :
    ([.stw 0 0 16 0, .stw 0 0 0 (2 ^ 16), .std 8 0 0 0, .std 0 16 0 0, .std 0 0 16 0, .std 0 0 0 (2 ^ 16), .aadd 8 0 0 0,
      .aadd 0 16 0 0, .aadd 0 0 16 0, .aadd 0 0 0 16, .axch 8 0 0 0, .axch 0 16 0 0, .axch 0 0 16 0, .axch 0 0 0 16,
      .rdev 8 0 0 0, .rdev 0 16 0 0, .rdev 0 0 16 0, .rdev 0 0 0 (2 ^ 16), .rdevd 8 0 0 0, .rdevd 0 16 0 0,
          .rdevd 0 0 16 0,
      .rdevd 0 0 0 (2 ^ 16), .wdev 8 0 0 0, .wdev 0 16 0 0, .wdev 0 0 16 0, .wdev 0 0 0 (2 ^ 16), .wdevd 8 0 0 0,
      .wdevd 0 16 0 0, .wdevd 0 0 16 0, .wdevd 0 0 0 (2 ^ 16), .dsync 8, .tbr 8 0, .tbr 0 16, .wait 8 0 0 0 0,
      .wait 0 4 0 0 0, .wait 0 0 16 0 0, .wait 0 0 0 16 0, .wait 0 0 0 0 64, .halt 8, .spec 8 0 0 0, .spec 0 4 0 0,
      .spec 0 0 16 0] : List Instr).all (fun i => !i.wellFormed) = true := by decide +kernel
theorem test_wellFormed_refuses_5 :
    ([.spec 0 0 0 (2 ^ 16), .commit 8, .squash 8, .pulse 8 0 0 0 0, .pulse 0 16 0 0 0, .pulse 0 0 16 0 0,
        .pulse 0 0 0 16 0,
      .pulse 0 0 0 0 16, .pair 8 0 0 0 0, .pair 0 16 0 0 0, .pair 0 0 16 0 0, .pair 0 0 0 16 0, .pair 0 0 0 0 16,
      .trigpkt 8 0 0 0 0, .trigpkt 0 16 0 0 0, .trigpkt 0 0 16 0 0, .trigpkt 0 0 0 16 0, .trigpkt 0 0 0 0 16,
          .fire 8 0 0 0,
      .fire 0 16 0 0, .fire 0 0 16 0, .fire 0 0 0 64, .mbxsend 8 0 0 0 false, .mbxsend 0 16 0 0 false,
      .mbxsend 0 0 16 0 false, .mbxsend 0 0 0 16 false, .mbxrcv 8 0 0, .mbxrcv 0 16 0, .mbxrcv 0 0 16, .mbxwdr 8 0 0,
      .mbxwdr 0 16 0, .mbxwdr 0 0 16, .dmaq 8 0 0 false, .dmaq 0 16 0 false, .dmaq 0 0 16 false, .podrun 8 0 0 0 0,
      .podrun 0 16 0 0 0, .podrun 0 0 16 0 0, .podrun 0 0 0 16 0, .podrun 0 0 0 0 16, .framearm 8 0 0 0,
          .framearm 0 16 0 0] : List Instr).all (fun i => !i.wellFormed) = true := by decide +kernel
theorem test_wellFormed_refuses_6 :
    ([.framearm 0 0 16 0, .framearm 0 0 0 16, .waitEnd 8, .waitDeadline 8, .regionCommit 8, .specDeadline 8,
      .deviceAnswer 8 none, .deviceAnswer 0 (some (8)), .storeQueueRoom 8, .dsyncDone 8, .dmaqSlotFree 8, .syncSendEnd 8,
      .sqEvEvent 8 0, .sqEvEvent 0 4, .trgPulseStart 16, .trgPulseEnd 16, .pairEdge 8, .trgBcnEvent 48, .trgClrCounts 16,
      .encEdge 4 false false false 0 0, .loadPreset 4, .encClrCounts 4, .restartSpeed 4, .clrIdxRef 4, .ssiGrid 4 false,
      .ssiWord 4 0, .ssiWord 0 (2 ^ 64), .ssiTimeout 4 0, .ssiTimeout 0 (2 ^ 64), .encLost 4, .poEnable 2,
          .poOutputCount 2,
      .cmpArm 16, .cmpDisarm 16, .cmpClrCounts 16, .cmpListWrite (2 ^ 16) 4 0, .cmpListWrite 0 3 0,
      .cmpListWrite 0 4 (2 ^ 32), .fcgStart 4, .fcgStop 4, .fcgClrCounts 4,
          .fcgPeriodWrite 4 false 4 0] : List Instr).all (fun i => !i.wellFormed) = true := by decide +kernel
theorem test_wellFormed_refuses_7 :
    ([.fcgPeriodWrite 0 false 3 0, .fcgPeriodWrite 0 false 4 (2 ^ 32), .fcgCommit 4, .fcgLoopUpdate 4, .fcgWindowClose 4,
      .fcgHoldExpired 4, .fckDetect 9, .prtFreqCheck 9 0, .prtMultLock 9, .prtPhaseCentred 9, .ctleSweepDone 9 [],
      .ctleSweepDone 0 [[256]], .laneLock 9 0 [], .laneLock 0 4 [], .laneLock 0 0 [2 ^ 66], .prtDeskew 9, .linkUp 9,
      .stageTimeout 9, .laneLockLost 9 0 [], .laneLockLost 0 4 [], .laneLockLost 0 0 [2 ^ 66], .deskewLost 9, .clkLost 9,
      .markerColumn 9 [], .markerColumn 0 [[2 ^ 66]], .rxControlError 9 0 0 0, .rxControlError 0 4 0 0,
      .rxControlError 0 0 (2 ^ 66) 0, .rxControlError 0 0 0 (2 ^ 66), .restart 8, .holdEnter 8 false, .holdExit 8,
      .deepEnter 8 false, .deepExit 8, .holdExited 8, .deepExited 8, .prtTriggerWake 8, .prtWakeEvent 48, .selftest 8,
      .selftestDone 8 0, .selftestDone 0 16, .prtClrCounts 8] : List Instr).all (fun i => !i.wellFormed) = true :=
          by decide +kernel
theorem test_wellFormed_refuses_8 :
    ([.prbsLock 9 0 [], .prbsLock 0 4 [], .prbsLockLost 9 0 [], .prbsLockLost 0 4 [], .prbsClr 9 0, .prbsClr 0 4,
      .fomUpdate 9 0 0, .fomUpdate 0 4 0, .phaseTrackStep 9 0, .phaseTrackStep 0 4, .ulInjOne 8, .rlyInjOne 4,
      .rlyClrCounts 4, .injPeriodic 13, .trigpktSend 8, .ulSend 8, .ulTxDone 8, .pktFs 8 [], .pktFs 0 [[2 ^ 66]],
          .pktFe 8 [],
      .pktFe 0 [[2 ^ 66]], .pktLong 8 [] [], .pktLong 0 [[2 ^ 66]] [], .pktLong 0 [] [(0, 4)], .pktShortOther 8 [],
      .pktShortOther 0 [[2 ^ 66]], .sopAbort 8 [], .sopAbort 0 [[2 ^ 66]], .frameWdog 64, .tagFinalise 64,
          .pktTrigEvent 48,
      .ulRxPop 8, .pktMapWrite 64 0, .pktMapWrite 0 (2 ^ 32), .lastTagRead 64, .pktPortClrCounts 8,
          .pktStreamClrCounts 64,
      .ispUnitStart 2, .ispUnitDone 2 [], .ispUnitDone 0 [(0, 4)], .ispInlineDone 2 [], .ispInlineDone 0 [(0,
          4)]] : List Instr).all (fun i => !i.wellFormed) = true := by decide +kernel
theorem test_wellFormed_refuses_9 :
    ([.ispMergeTimeout 2 0, .ispMergeTimeout 0 64, .ispSubmitGo 2 0, .ispSubmitGo 0 32, .ispCtxDisable 2 0,
      .ispCtxDisable 0 64, .ispModeWrite 2 0, .ispModeWrite 0 (2 ^ 32), .ispCtxClrCounts 2 0, .ispCtxClrCounts 0 64,
      .lastStatRead 2, .podSubGo 32, .podRunBegin (2 ^ 16), .podLayerDone (2 ^ 16) [], .podLayerDone 0 [(0, 4)],
      .gateDeadline 64 0, .gateDeadline 0 (2 ^ 48), .gateCfgWrite 32 0 0, .gateCfgWrite 0 64 0,
          .gateCfgWrite 0 0 (2 ^ 32),
      .podClrCounts 8, .gateClrCounts 64, .memTrainDone 256 8, .memTrainDone 0 12, .burstArm 64, .burstDisarm 64,
      .freezeNow 64, .burstEndEvent 48, .dmaSubGo 32, .dmaDescStart (2 ^ 16), .dmaBurst 64 [] [], .dmaBurst 0 [(0, 4)] [],
      .dmaBurst 0 [] [256], .dmaDescComplete (2 ^ 16) [], .dmaDescComplete 0 [256], .dmaPause 64, .dmaResume 64,
          .dmaDrain 64,
      .dmaAbort 64, .dmaChClrCounts 64, .hostLinkUp 8 0, .hostLinkUp 0 32] : List Instr).all (fun i => !i.wellFormed) =
          true := by decide +kernel
theorem test_wellFormed_refuses_10 :
    ([.hostIndexWrite 32 0 0 false, .hostIndexWrite 0 4096 0 false, .hostIndexWrite 0 0 (2 ^ 32) false, .buoyAck 32 0 0,
      .buoyAck 0 4096 0, .buoyCntRead 32 0, .buoyCntRead 0 4096, .ringCfgWrite 32 0 0, .ringCfgWrite 0 4096 0,
      .ringCfgWrite 0 0 (2 ^ 32), .ringEntryFetched 4096 [], .ringEntryFetched 0 [256], .cmdNop 4096, .cmdRegWrite 4096,
      .cmdRegRead 4096, .cmdMbxSend 4096, .cmdBcnFire 4096, .cmdDmaSubmit 4096 0 (List.replicate 64 0),
      .cmdDmaSubmit 0 0 (List.replicate 64 256), .cmdDmaSubmit 0 0 [], .ringIndexWb 4096, .ringCoalTimeout 4096,
      .rngEvtEvent 16, .flrVf 8, .flrVf 0, .flrComplete 8, .mbxDataWrite 32 0 0 false, .mbxDataWrite 0 64 0 false,
      .mbxDataWrite 0 0 (2 ^ 32) false, .mbxDataRead 32 0, .mbxDataRead 0 64, .mbxWithdraw 32 0 false,
      .mbxWithdraw 0 64 false, .mbxBindWrite 32 0 0, .mbxBindWrite 0 64 0, .mbxBindWrite 0 0 (2 ^ 32),
          .mbxTimeout 64 false,
      .bcnFireWrite 32 0, .bcnFireWrite 0 (2 ^ 48), .bcnCfgWrite 32 0 0, .bcnCfgWrite 0 48 0,
          .bcnCfgWrite 0 0 (2 ^ 32)] : List Instr).all (fun i => !i.wellFormed) = true := by decide +kernel
theorem test_wellFormed_refuses_11 :
    ([.pwrWakeEvent 48, .keepIrqEvent 48, .twnSendEvent 48, .twnCtlWrite (2 ^ 32), .twnHelloRx [256], .twnFoghornRx [256],
      .twnTbsyncRx [256], .twnFsRx [256], .twnTrigRx [256], .twnFcgstateRx [256], .twnRoleRx [256], .twnMbxRx [256],
      .twnBcnRx [256], .twnLineMiss 16, .driveFight 16, .read 2 0 0 0, .read 0 (2 ^ 16) 0 0, .read 0 0 0 256,
      .write 2 0 0 0 0, .write 0 (2 ^ 16) 0 0 0, .write 0 0 (2 ^ 32) 0 0, .write 0 0 0 0 256, .poll 2 0 0 0,
      .poll 0 (2 ^ 16) 0 0, .poll 0 0 0 256, .step 2 0 0 0, .step 0 (2 ^ 32) 0 0, .step 0 0 0 256, .time 2 0 0,
      .time 0 (2 ^ 32) 0, .time 0 0 256, .nvwrite 2 0 0 0 false 0, .nvwrite 0 (2 ^ 16) 0 0 false 0,
      .nvwrite 0 0 (2 ^ 32) 0 false 0, .nvwrite 0 0 0 0 false 256, .kdIntent 2 0 0 false 0, .kdIntent 0 (2 ^ 32)
          0 false 0,
      .kdIntent 0 0 0 false 256, .kdCommit 2 0 0 false 0, .kdCommit 0 (2 ^ 32) 0 false 0, .kdCommit 0 0 0 false 256,
      .kreset 2 0 0] : List Instr).all (fun i => !i.wellFormed) = true := by decide +kernel
theorem test_wellFormed_refuses_12 :
    ([.kreset 0 (2 ^ 32) 0, .kreset 0 0 256, .keeperAbandon 2, .kbrGo 32, .kbrDone (2 ^ 40), .kpResetWarm 2 0,
      .kpResetWarm 0 (2 ^ 16), .kpResetCold 2 0, .kpResetCold 0 (2 ^ 16), .kpFailClear 2 0, .thermalWarn 5 false,
      .thermalTrip 5 false, .tripClr 2, .domainPowerUp 24, .domainPowerDown 24, .domainPowerFail 24, .warmReset 32 0,
      .warmReset 0 (2 ^ 32), .coldReset 32 0, .coldReset 0 (2 ^ 32), .blockReset 32 0, .blockReset 0 (2 ^ 29),
      .blockResetDone 29, .fioFaultConfirm 38 1 0, .fioFaultConfirm 0 (2 ^ 7) 0, .fioFaultConfirm 0 1 64,
      .fioFaultConfirm 0 0 0, .fioFaultClear 38 0, .idleWindowEnd 12 0, .idleWindowEnd 0 255001, .fioRearm 48,
      .fioArmTestDone 48 true 0 0, .fioArmTestDone 0 false 4 0, .fioArmTestDone 0 true 0 64, .fioDarkCmd 48,
      .ginEdge 8 false 0, .pcieConfigWrite 8 0 0, .pcieConfigWrite 0 7 0,
          .pcieConfigWrite 0 0 (2 ^ 32)] : List Instr).all (fun i => !i.wellFormed) = true := by decide +kernel

/-! ### The statements' hypotheses are met -/

theorem test_meets_StepRunsTheFrontCommand :
    ∃ (c : Instr) (rest : List Instr) (s : State), s.pending = c :: rest :=
  ⟨.d2dRetry, [.commit 1], { core1 with pending := [.d2dRetry, .commit 1] }, rfl⟩

theorem test_meets_ActionsSpellTheirRequests :
    (∃ (s : State) (c d : Nat), Ready s c ∧ NoRegion s c ∧ d % 16 = 0 ∧ (coreAt s c).storeQ.length < 16)
    ∧ (∃ (s : State) (c d : Nat), Ready s c ∧ NoRegion s c ∧ d % 16 ≠ 0)
    ∧ (∃ (s : State) (c a : Nat), Ready s c ∧ NoRegion s c ∧ (vreg s c a).toNat % 8 = 0
        ∧ place (vreg s c a).toNat ≠ none ∧ place ((vreg s c a).toNat + 63) ≠ none) := by
  refine ⟨⟨{ core1 with cores := [(1, { SqCore.init with storeQ := List.replicate 15 (.load 0 4) })] }, 1, 0, ?_⟩,
    ⟨core1, 1, 15, ?_⟩, ⟨core1, 1, 0, ?_⟩⟩ <;> unfold Ready NoRegion <;> decide +kernel

theorem test_meets_InstructionWordsRoundTrip :
    (∃ i w, i.wellFormed = true ∧ tsxEncode i = some w)
    ∧ (∃ c w i, c < 8 ∧ w < 2 ^ 32 ∧ tsxDecode c w = some i) :=
  ⟨⟨.add 7 15 15 (.acc 0xFFFFF), 0x2AFFFFFF, by decide⟩, ⟨7, 0x8064FFFD, .spec 7 1 9 0xFFFD, by decide⟩⟩

theorem test_meets_StepKeepsFramesMarked : ∃ s t : State, FramesMarked s ∧ step s = .next t :=
  ⟨{ live with pending := [.d2dRetry], frames := [{ fr0 with phase := .open, flags := 2 ^ flUNLOCKED }] }, _,
    fun f hf _ => by
      cases List.mem_singleton.mp hf
      refine ⟨fun _ => by decide +kernel, ?_, fun k h => absurd h (by simp [fr0])⟩
      intro k hk
      revert k
      decide +kernel, rfl⟩

theorem test_meets_StepsAnswerOrNameNoUnit :
    ∃ (s : State) (c : Instr) (rest : List Instr), s.pending = c :: rest ∧ c.wellFormed = true :=
  ⟨{ core1 with pending := [.sqRun 7] }, .sqRun 7, [], by decide +kernel⟩

theorem test_meets_EmptyQueueCountsOneNanosecond :
    (∃ (s : State), s.pending = [] ∧ (∀ c < 8, (coreAt s c).storeQ = [])) :=
  ⟨live, by decide +kernel⟩

theorem test_meets_RegisterAccessesApplyByFieldType :
    (∃ (s : State) (mid off size : Nat), busReach s 48 = true ∧ busReach s 20 = true ∧ busReach s 327688 = true ∧
    busReach s 1900560 = true ∧ off < 67108864 ∧ (size = 4 ∨ size = 8 → off % size ≠ 0) ∧ resetRunning s = false ∧ 16
    ≤ mid ∧ mid ≤ 23 ∧ busReach s 16 = true) :=
  ⟨live, 16, 16, 16, by decide +kernel⟩

theorem test_meets_LinksAndReferencesFollowTheirEvents :
    (∃ (s : State), isSet s F.GLB_STATUS_D2D_UP = true ∧ domGood s 4 = true ∧ s.aDieReset = false ∧ s.laneStopped =
    false) :=
  ⟨live, by decide +kernel⟩

namespace HostLinkAndConfigurationCommandsAct
def a0 : State := wr (wr live F.HIF_LINK_STATUS_UP 0 0) F.HIF_CTL_MAX_SPEED 0 5
def up : State := wr live F.HIF_LINK_STATUS_UP 0 1
def pc : PciFn := { pciAt live 0 with msixEn := true, msixMask := false }
def mx (p : Bool) (m : Bool) : MsixEntry := { msixAt live 0 0 with pending := p, masked := m, addr := 0x1000, data := 5 }
def b1 : State :=
    { wr (wr up F.HIF_BLK_VEC_EN 5 1) F.HIF_BLK_VEC_VECTOR 5 3 with pci := [(0,pc),(2,pc)], msix := [(0, mx true true), (3, mx false false), (4, mx true true), (4099, mx true true)] }
def b2 : State := wr (wr b1 F.TMB_EVT_EN_EN 0 127) F.TMB_EVT_EVT 0 5
def b3 : State := (List.range 29).foldl (fun s b => wr (wr s F.HIF_BLK_VEC_EN b 1) F.HIF_BLK_VEC_VECTOR b 3) b2

theorem test_meets_HostLinkAndConfigurationCommandsAct :
    (∃ (s : State) (speed width val fn : Nat), s.perst = false ∧ s.aDieReset = false ∧ domGood s 5 = true ∧ isSet s
    F.GLB_STATUS_REF_PCIE_OK = true ∧ 3 ≤ speed ∧ speed ≤ rd s F.HIF_CTL_MAX_SPEED ∧ width ∈ [1, 2, 4, 8, 16] ∧ isSet
    s F.HIF_LINK_STATUS_UP = false ∧ val ≤ 7 ∧ fn < 8 ∧ (fn = 0 ∨ vfEnabled s fn = true)) ∧
    (∃ (s : State) (b : Nat), b < 29 ∧ blockReach s 19 = true ∧ irqBit s b = true ∧ isSet s F.HIF_BLK_VEC_EN b = true
    ∧ (pciAt s 0).msixEn = true ∧ (pciAt s 0).msixMask = false ∧ (msixAt s 0 (rd s F.HIF_BLK_VEC_VECTOR b)).masked =
    false ∧ isSet s F.HIF_LINK_STATUS_UP = true) ∧
    (∃ (s : State) (fn v : Nat), fn < 8 ∧ (v < if fn = 0 then 2048 else 64) ∧ blockWorks s 19 = true ∧ (msixAt s fn
    v).pending = true ∧ (pciAt s fn).msixEn = true ∧ (pciAt s fn).msixMask = false ∧ isSet s F.HIF_LINK_STATUS_UP =
    true) :=
  ⟨⟨a0, 3, 1, 0, 0, by decide +kernel⟩,
  ⟨b3, 4, by decide +kernel⟩,
  ⟨b1, 0, 0, by decide +kernel⟩⟩
end HostLinkAndConfigurationCommandsAct

namespace HostErrorsAndFunctionResetsAct
def rb (s : State) (n ty en tail head : Nat) : State := wr (wr (wr (wr (wr (wr s F.RNG_CFG_TYPE n ty) F.RNG_CFG_EN n en)
    F.RNG_CFG_SIZE_LOG2 n 4) F.RNG_TAIL_INDEX n tail) F.RNG_HEAD_INDEX n head) F.RNG_BUOY_LVL_HIGH n 9
def up : State := wr live F.HIF_LINK_STATUS_UP 0 1
def r0 := [0,1,2,3,4].foldl (fun s i => rb s i i 1 5 3) up
def rv : State := { wr r0 F.RNG_CFG_OWNER 2 2 with vfEnable := true, numVfs := 3 }

theorem test_meets_HostErrorsAndFunctionResetsAct :
    (∃ (s : State) (n fn : Nat), n < 4096 ∧ blockWorks s 18 = true ∧ ringLive s n = true ∧ hostProduced s n = true ∧
    (ringAt s n).fetched.length < ringLevel s n ∧ fn < 8 ∧ blockWorks s 19 = true) ∧
    (∃ (s : State) (k : Nat), 0 < k ∧ k < 8 ∧ blockWorks s 19 = true ∧ vfEnabled s k = true) :=
  ⟨⟨r0, 0, 0, by decide +kernel⟩,
  ⟨rv, 1, by decide +kernel⟩⟩
end HostErrorsAndFunctionResetsAct

namespace RingCommandsMoveIndicesAndState
def rb (s : State) (n ty en tail head : Nat) : State := wr (wr (wr (wr (wr (wr s F.RNG_CFG_TYPE n ty) F.RNG_CFG_EN n en)
    F.RNG_CFG_SIZE_LOG2 n 4) F.RNG_TAIL_INDEX n tail) F.RNG_HEAD_INDEX n head) F.RNG_BUOY_LVL_HIGH n 9
def up : State := wr live F.HIF_LINK_STATUS_UP 0 1
def r0 := [0,1,2,3,4].foldl (fun s i => rb s i i 1 5 3) up
def rd0 := [0,1,2,3,4].foldl (fun s i => rb s i i 0 5 3) up
def rg (s : State) (k : Ring) : State := { s with rings := (List.range 5).map fun i => (i, k) }
def ri := [0,1,2,3,4].foldl (fun s i => wr (wr s F.RNG_IRQ_COAL_US i 5) F.RNG_IRQ_ENTRY_IRQ_EN i 1)
    (rg r0 { ringAt live 0 with since := some 90000, count := 3 })
def rw := [0,1,2,3,4].foldl (fun s i => wr s F.RNG_CFG_WB_EN i 1) (rg r0 { ringAt live 0 with wb := true })
def re : State := { wr (wr r0 F.HIF_EVT_ROUTE_EN 1 1) F.HIF_EVT_ROUTE_RING 1 4 with beacons := [(1, 33, true)] }

theorem test_meets_RingCommandsMoveIndicesAndState :
    (∃ (s : State) (n mid val : Nat) (bytes : List Nat), n < 4096 ∧ blockWorks s 18 = true ∧ fnOf mid = ringOwner s n
    ∧ fnResponds s mid = true ∧ ringLive s n = true ∧ hostProduced s n = true ∧ (val % 2 ^ 32 + 2 ^ 32 - rd s
    F.RNG_HEAD_INDEX n) % 2 ^ 32 ≤ ringSize s n ∧ isSet s F.HIF_LINK_STATUS_UP = true ∧ (ringAt s n).fetched.length <
    16 ∧ (ringAt s n).fetched.length < ringLevel s n ∧ bytes.length = entryBytes s n ∧ (ringAt s n).stats = []) ∧
    (∃ (s : State) (n mid val : Nat), n < 4096 ∧ blockWorks s 18 = true ∧ fnOf mid = ringOwner s n ∧ fnResponds s mid
    = true ∧ ringLive s n = true ∧ hostProduced s n = false ∧ (val % 2 ^ 32 + 2 ^ 32 - rd s F.RNG_HEAD_INDEX n) % 2 ^
    32 ≤ ringLevel s n) ∧
    (∃ (s : State) (n mid val : Nat), n < 4096 ∧ blockWorks s 18 = true ∧ fnOf mid = ringOwner s n ∧ fnResponds s mid
    = true ∧ ringLive s n = true ∧ hostProduced s n = true ∧ ringSize s n < (val % 2 ^ 32 + 2 ^ 32 - rd s
    F.RNG_HEAD_INDEX n) % 2 ^ 32) ∧
    (∃ (s : State) (n val : Nat), n < 4096 ∧ blockWorks s 18 = true ∧ (ringAt s n).hiAt ≠ some s.ns ∧ (ringAt s
    n).loAt ≠ some s.ns ∧ (∀ f ∈ ringCfgFields, bitsOf val f.lo f.width = rd s f n) ∧ rd s F.RNG_CFG_EN n = 0 ∧
    val.testBit 0 = true ∧ ringOwner s n = 0 ∧ rd s F.RNG_BASE_ADDR n % 4096 = 0 ∧ (isSet s F.RNG_CFG_WB_EN n = true
    → rd s F.RNG_WB_ADDR n % 8 = 0) ∧ ringLevel s n ≤ ringSize s n) ∧
    (∃ (s : State) (n val : Nat), n < 4096 ∧ blockWorks s 18 = true ∧ (∀ f ∈ ringCfgFields, bitsOf val f.lo f.width =
    rd s f n) ∧ rd s F.RNG_CFG_EN n = 1 ∧ val.testBit 0 = false) ∧
    (∃ (s : State) (n : Nat), n < 4096 ∧ blockWorks s 18 = true ∧ hostProduced s n = true ∧ (ringAt s n).wb = true ∧
    isSet s F.RNG_CFG_EN n = true ∧ isSet s F.RNG_CFG_WB_EN n = true ∧ isSet s F.HIF_LINK_STATUS_UP = true) ∧
    (∃ (s : State) (n t0 : Nat), n < 4096 ∧ blockWorks s 18 = true ∧ (ringAt s n).since = some t0 ∧ isSet s
    F.RNG_IRQ_ENTRY_IRQ_EN n = true ∧ rd s F.RNG_IRQ_COAL_US n ≠ 0 ∧ t0 + rd s F.RNG_IRQ_COAL_US n * 1000 ≤ s.ns) ∧
    (∃ (s : State) (n i ch : Nat) (soft : Bool) (rest : List (Nat × Nat × Bool)), n < 4096 ∧ blockWorks s 18 = true ∧
    i < 16 ∧ ch < 48 ∧ s.beacons = (ch, 32 + i, soft) :: rest ∧ domUp s 22 = true ∧ sget s.bcnBusy false (32 + i) =
    false ∧ isSet s F.HIF_EVT_ROUTE_EN i = true ∧ rd s F.HIF_EVT_ROUTE_RING i = n ∧ ringLive s n = true ∧ ringType s
    n = rEVT ∧ ringRoom s n = true) :=
  ⟨⟨r0, 2, 1, 4, List.replicate 32 300, by decide +kernel⟩,
  ⟨r0, 1, 1, 4, by decide +kernel⟩,
  ⟨r0, 2, 1, 1, by decide +kernel⟩,
  ⟨rd0, 1, 67, by decide +kernel⟩,
  ⟨r0, 1, 66, by decide +kernel⟩,
  ⟨rw, 2, by decide +kernel⟩,
  ⟨ri, 1, 90000, by decide +kernel⟩,
  ⟨re, 4, 1, 1, true, [], by decide +kernel⟩⟩
end RingCommandsMoveIndicesAndState

namespace CommandRingEntriesActAndAreConsumed
def rb (s : State) (n ty en tail head : Nat) : State := wr (wr (wr (wr (wr (wr s F.RNG_CFG_TYPE n ty) F.RNG_CFG_EN n en)
    F.RNG_CFG_SIZE_LOG2 n 4) F.RNG_TAIL_INDEX n tail) F.RNG_HEAD_INDEX n head) F.RNG_BUOY_LVL_HIGH n 9
def up : State := wr live F.HIF_LINK_STATUS_UP 0 1
def copyB := mkB 64 [(0,1),(2,3),(8,0x10),(15,0x40),(0x10,0x80),(0x17,0x40),(0x18,8),(0x1C,1)]
def ent (op a : Nat) : List Nat := mkB 32 ([(0,op),(8,a),(0x10,0x44),(0x11,300)])
def es : List (List Nat) := [ent 1 0, ent 2 0x10, ent 3 0x10, ent 4 2, ent 5 3, ent 6 0]
def cmdSt (q : List (List Nat)) : State :=
  let s := wr (wr (wr (wr (wr (rb up 2 2 1 (2^32-1+3) (2^32-1)) F.MBX_BIND_SENDER 2 1) F.MBX_BIND_RECEIVER 2 0x10) F.BCN_CH_CFG_EN 3 1) F.BCN_CH_CFG_CONSUMER 3 20) F.BCN_CH_CFG_ATTR 3 0
  let s := [0,1,3,4].foldl (fun s i => rb s i i 1 5 3) s
  { s with rings := [(2, { ringAt s 2 with fetched := q })] }
def l : List State := es.map fun e => cmdSt [e]

theorem test_meets_CommandRingEntriesActAndAreConsumed :
    (∃ (s : State) (n : Nat) (e : List Nat) (r : List (List Nat)), n < 4096 ∧ blockWorks s 18 = true ∧ ringType s n =
    rCMD ∧ ringLive s n = true ∧ (ringAt s n).fetched = e :: r ∧ leField e 1 1 = 0 ∧ leField e 4 4 = 0 ∧ ringOwner s
    n = 0 ∧ leField e 0 1 = 1 ∧ isSet s F.HIF_LINK_STATUS_UP = true) ∧
    (∃ (s : State) (n : Nat) (e : List Nat) (r : List (List Nat)), n < 4096 ∧ blockWorks s 18 = true ∧ ringType s n =
    rCMD ∧ ringLive s n = true ∧ (ringAt s n).fetched = e :: r ∧ leField e 1 1 = 0 ∧ leField e 4 4 = 0 ∧ ringOwner s
    n = 0 ∧ leField e 0 1 = 2 ∧ isSet s F.RNG_CFG_ATTR n = false ∧ leField e 8 8 = 16 ∧ busReach s 16 = true) ∧
    (∃ (s : State) (n : Nat) (e : List Nat) (r : List (List Nat)), n < 4096 ∧ blockWorks s 18 = true ∧ ringType s n =
    rCMD ∧ ringLive s n = true ∧ (ringAt s n).fetched = e :: r ∧ leField e 1 1 = 0 ∧ leField e 4 4 = 0 ∧ ringOwner s
    n = 0 ∧ leField e 0 1 = 3 ∧ isSet s F.RNG_CFG_ATTR n = false ∧ leField e 8 8 = 16 ∧ busReach s 16 = true ∧ isSet
    s F.HIF_LINK_STATUS_UP = true) ∧
    (∃ (s : State) (n : Nat) (e : List Nat) (r : List (List Nat)), n < 4096 ∧ blockWorks s 18 = true ∧ ringType s n =
    rCMD ∧ ringLive s n = true ∧ (ringAt s n).fetched = e :: r ∧ leField e 1 1 = 0 ∧ leField e 4 4 = 0 ∧ ringOwner s
    n = 0 ∧ leField e 0 1 = 4 ∧ leField e 8 8 < 64 ∧ blockReach s 3 = true ∧ isSender s 1 (leField e 8 8) = true ∧
    isSet s F.MBX_STAT_FULL (leField e 8 8) = false) ∧
    (∃ (s : State) (n : Nat) (e : List Nat) (r : List (List Nat)), n < 4096 ∧ blockWorks s 18 = true ∧ ringType s n =
    rCMD ∧ ringLive s n = true ∧ (ringAt s n).fetched = e :: r ∧ leField e 1 1 = 0 ∧ leField e 4 4 = 0 ∧ ringOwner s
    n = 0 ∧ leField e 0 1 = 5 ∧ leField e 8 8 < 48 ∧ blockReach s 2 = true ∧ isSet s F.BCN_CH_CFG_EN (leField e 8 8)
    = true ∧ isSet s F.BCN_CH_CFG_FIRE_OWNER_ONLY (leField e 8 8) = false ∧ rd s F.BCN_CH_CFG_CONSUMER (leField e 8
    8) < 55) ∧
    (∃ (s : State) (n : Nat) (e : List Nat) (r : List (List Nat)) (desc : List Nat), n < 4096 ∧ blockWorks s 18 =
    true ∧ ringType s n = rCMD ∧ ringLive s n = true ∧ (ringAt s n).fetched = e :: r ∧ leField e 1 1 = 0 ∧ leField e
    4 4 = 0 ∧ ringOwner s n = 0 ∧ leField e 0 1 = 6 ∧ blockReach s 16 = true ∧ (dmaAnswer s (newDesc 1 (List.map (fun
    i => desc.getD i 0 % 256) (List.range 64)) none none) = none)) :=
  ⟨⟨cmdSt [ent 1 0], 2, ent 1 0, [], by decide +kernel⟩,
  ⟨cmdSt [ent 2 16], 2, ent 2 16, [], by decide +kernel⟩,
  ⟨cmdSt [ent 3 16], 2, ent 3 16, [], by decide +kernel⟩,
  ⟨cmdSt [ent 4 2], 2, ent 4 2, [], by decide +kernel⟩,
  ⟨cmdSt [ent 5 3], 2, ent 5 3, [], by decide +kernel⟩,
  ⟨cmdSt [ent 6 0], 2, ent 6 0, [], copyB, by decide +kernel⟩⟩
end CommandRingEntriesActAndAreConsumed

theorem test_meets_ArithmeticAndLogicWriteResultAndFlags :
    (∃ (s : State) (c d a : Nat) (src : Src), Ready s c ∧ (∀ (v : Nat), src = Src.acc v → d = a) ∧ (∀ (v : Nat), src
    ≠ Src.acc v)) :=
  ⟨co SqCore.init, 0, 0, 0, Src.reg 2, by unfold Ready; decide +kernel, by simp, by simp⟩

theorem test_meets_ShiftsAndConstantsWriteResults :
    (∃ (s : State) (c : Nat) (src : Src) (n : Nat), Ready s c ∧ (∀ (v : Nat), src ≠ Src.acc v) ∧ (∀ (v : Nat), src =
    Src.imm v → v < 64 ∧ n = v) ∧ (∀ (r : Nat), src = Src.reg r → n = BitVec.toNat (vreg s c r) % 64)) :=
  ⟨co SqCore.init, 0, Src.reg 2, 0, by unfold Ready; decide +kernel, by simp, by simp, by simp; decide +kernel⟩

theorem test_meets_BranchesAndJumpsSetThePc :
    (∃ (s : State) (c off16 target cond a : Nat), Ready s c ∧ ↑target = ↑(pcOf s c) + 4 * toSigned 16 off16 ∧ target
    ≤ 32764 ∧ cond < 15 ∧ condHolds cond (flagsOf s c) = false ∧ BitVec.toNat (vreg s c a) % 4 = 0 ∧ BitVec.toNat
    (vreg s c a) ≤ 32764 ∧ BitVec.toNat (lkReg s c) % 4 = 0 ∧ BitVec.toNat (lkReg s c) ≤ 32764) :=
  ⟨wr (wr (co SqCore.init) F.SQ_VREG_VALUE 18 32764) F.SQ_LK_VALUE 1 516, 0, 0, 0, 1, 0,
  by unfold Ready; decide +kernel⟩

namespace LoadsReadLittleEndianBytes
def mem (s : State) : State :=
    { wr (wr s F.SQ_VREG_VALUE 17 0x1000) F.SQ_VREG_VALUE 18 0x10008 with data := (List.range 12).map fun i => (0x2000 + i, BitVec.ofNat 8 (200+i)), shared := (List.range 12).map fun i => (i, BitVec.ofNat 8 (100+i)) }

theorem test_meets_LoadsReadLittleEndianBytes :
    (∃ (s : State) (c a imm16 : Nat), Ready s c ∧ place (effAddr s c a imm16) ≠ none ∧ effAddr s c a imm16 % 2 = 0 ∧
    effAddr s c a imm16 % 4 = 0 ∧ effAddr s c a imm16 % 8 = 0) :=
  ⟨mem (co SqCore.init), 0, 0, 0, by unfold Ready; decide +kernel⟩
end LoadsReadLittleEndianBytes

namespace StoresAndAtomicsChangeOnlyTheirBytes
def mem (s : State) : State :=
    { wr (wr (wr s F.SQ_VREG_VALUE 17 0x1000) F.SQ_VREG_VALUE 18 0x10008) F.SQ_VREG_VALUE 19 0xFEDCBA9876543210 with data := (List.range 12).map fun i => (0x2000 + i, BitVec.ofNat 8 (200+i)), shared := (List.range 12).map fun i => (i, BitVec.ofNat 8 (100+i)) }

theorem test_meets_StoresAndAtomicsChangeOnlyTheirBytes :
    (∃ (s : State) (c d a imm16 : Nat), Ready s c ∧ place (effAddr s c a imm16) ≠ none ∧ (∀ (r : Region), (coreAt s
    c).region = some r → r.storeCount < 64) ∧ effAddr s c a imm16 % (1, Instr.stb c d a imm16).1 = 0 ∧ effAddr s c a
    imm16 % (2, Instr.sth c d a imm16).1 = 0 ∧ effAddr s c a imm16 % (4, Instr.stw c d a imm16).1 = 0 ∧ effAddr s c a
    imm16 % (8, Instr.std c d a imm16).1 = 0) ∧
    (∃ (s : State) (c a o : Nat), Ready s c ∧ NoRegion s c ∧ place (BitVec.toNat (vreg s c a)) = some (Place.shared
    o) ∧ BitVec.toNat (vreg s c a) % 8 = 0) :=
  ⟨⟨mem (co SqCore.init), 0, 0, 0, 0, by unfold Ready; decide +kernel⟩,
  ⟨mem (co SqCore.init), 1, 2, 8, by unfold Ready NoRegion; decide +kernel⟩⟩
end StoresAndAtomicsChangeOnlyTheirBytes

namespace DeviceAccessesPostOrWait
def q : SqCore := { SqCore.init with storeQ := [.fire 3] }

theorem test_meets_DeviceAccessesPostOrWait :
    (∃ (s : State) (c d a imm16 : Nat), Ready s c ∧ NoRegion s c ∧ effAddr s c a imm16 < 67108864 ∧ effAddr s c a
    imm16 % (4, Instr.rdev c d a imm16).1 = 0 ∧ effAddr s c a imm16 % (8, Instr.rdevd c d a imm16).1 = 0 ∧ effAddr s
    c a imm16 % (4, Instr.wdev c d a imm16).1 = 0 ∧ (coreAt s c).storeQ.length < 16 ∧ effAddr s c a imm16 % (8,
    Instr.wdevd c d a imm16).1 = 0 ∧ (coreAt s c).storeQ = []) ∧
    (∃ (s : State) (c : Nat), Ready s c ∧ NoRegion s c ∧ (coreAt s c).storeQ ≠ []) :=
  ⟨⟨wr (co SqCore.init) F.SQ_VREG_VALUE 17 33554440, 0, 0, 0, 0, by unfold Ready NoRegion; decide +kernel⟩,
  ⟨{ co q with tb := 2 ^ 40 + 7 }, 0, by unfold Ready NoRegion; decide +kernel⟩⟩
end DeviceAccessesPostOrWait

namespace WaitsAndRegionsOpenAndClose
def rg : Region := ⟨(List.range 15).map (· + 100), 77, 5, [], 2, 200000, 0x40, [(0x1005, 7)], 1, [], [], []⟩

theorem test_meets_WaitsAndRegionsOpenAndClose :
    (∃ (s : State) (c a kind rdl idx : Nat), Ready s c ∧ NoRegion s c ∧ BitVec.toNat (vreg s c a) ≤ s.tb ∧ (kind = 0
    ∧ idx = 0 ∨ kind = 1 ∧ a = 0 ∧ idx < 4 ∨ kind = 2 ∧ a = 0 ∧ idx < 64 ∨ kind = 3 ∧ idx = 0) ∧ waitHolds s c kind
    idx (BitVec.toNat (vreg s c a)) = false ∧ rdl % 16 ≠ 0 ∧ BitVec.toNat (vreg s c rdl) ≤ s.tb) ∧
    (∃ (s : State) (c k : Nat), Ready s c ∧ NoRegion s c ∧ k < 4 ∧ hasBit s F.SQ_STATUS_EV_PENDING c k = true) ∧
    (∃ (s : State) (c kind a rdl idx off16 : Nat) (target : ℤ), Ready s c ∧ NoRegion s c ∧ (kind = 0 ∧ idx = 0 ∨ kind
    = 1 ∧ a = 0 ∧ idx < 4 ∨ kind = 2 ∧ a = 0 ∧ idx < 64 ∨ kind = 3 ∧ idx = 0) ∧ waitHolds s c kind idx (BitVec.toNat
    (vreg s c a)) = false ∧ (rdl % 16 = 0 ∨ s.tb < BitVec.toNat (vreg s c rdl)) ∧ target = ↑(pcOf s c) + 4 * toSigned
    16 off16 ∧ target ≤ 32764 ∧ (rdl % 16 ≠ 0 → s.tb < BitVec.toNat (vreg s c rdl))) ∧
    (∃ (s : State) (c : Nat) (r : Region), Ready s c ∧ (coreAt s c).region = some r ∧ hasBit s F.SQ_STATUS_EV_PENDING
    c r.guardEv = true ∧ s.tb ≤ r.deadline ∧ r.guardEv < 4 ∧ NoTentative s c) ∧
    (∃ (s : State) (c : Nat) (r : Region), Ready s c ∧ (coreAt s c).region = some r ∧ r.savedV.length = 15 ∧ r.target
    % 4 = 0 ∧ r.target ≤ 32764) :=
  ⟨⟨wr (wr (co SqCore.init) F.SQ_VREG_VALUE 17 99999) F.SQ_VREG_VALUE 18 200000, 0, 0, 1, 1, 0,
  by unfold Ready NoRegion; decide +kernel⟩,
  ⟨wr (wr (co SqCore.init) F.SQ_STATUS_EV_PENDING 1 5) F.SQ_VREG_VALUE 18 5, 1, 0,
  by unfold Ready NoRegion; decide +kernel⟩,
  ⟨wr (wr (co SqCore.init) F.SQ_VREG_VALUE 17 99999) F.SQ_VREG_VALUE 18 200000, 0, 1, 0, 0, 0, 0, 0,
  by unfold Ready NoRegion; decide +kernel⟩,
  ⟨wr (co ({ SqCore.init with region := some rg })) F.SQ_STATUS_EV_PENDING 1 4, 1, rg,
  by unfold Ready NoTentative; decide +kernel⟩,
  ⟨wr (co ({ SqCore.init with region := some rg })) F.SQ_STATUS_EV_PENDING 1 4, 0, rg,
  by unfold Ready; decide +kernel⟩⟩
end WaitsAndRegionsOpenAndClose

namespace StallsEndAtTheirEvents
def rg : Region := ⟨(List.range 15).map (· + 100), 77, 5, [], 2, 200000, 0x40, [(0x1005, 7)], 1, [], [], []⟩
def copyB := mkB 64 [(0,1),(2,3),(8,0x10),(15,0x40),(0x10,0x80),(0x17,0x40),(0x18,8),(0x1C,1)]
def stl (st : Stall) (k : SqCore := SqCore.init) : State := wr (co {k with stall := st}) F.SQ_STATUS_STATE 1 sqWAITING
def q16 := List.replicate 15 (Req.fire 3)

theorem test_meets_StallsEndAtTheirEvents :
    (∃ (s : State) (c value : Nat) (past : Bool), c < 8 ∧ blockWorks s 15 = true ∧ pcOf s c < 32764 ∧ (coreAt s
    c).stepping = false ∧ NoRegion s c ∧ (coreAt s c).stall = Stall.wait 0 0 value none past ∧ value ≤ s.tb) ∧
    (∃ (s : State) (c value : Nat) (past : Bool) (k : Nat), c < 8 ∧ blockWorks s 15 = true ∧ pcOf s c < 32764 ∧
    (coreAt s c).stepping = false ∧ NoRegion s c ∧ k < 4 ∧ (coreAt s c).stall = Stall.wait 1 k value none past ∧
    hasBit s F.SQ_STATUS_EV_PENDING c k = true) ∧
    (∃ (s : State) (c value : Nat) (past : Bool) (kind idx : Nat), c < 8 ∧ blockWorks s 15 = true ∧ pcOf s c < 32764
    ∧ (coreAt s c).stepping = false ∧ NoRegion s c ∧ (coreAt s c).stall = Stall.wait kind idx value (some s.tb) past
    ∧ waitHolds s c kind idx value = false) ∧
    (∃ (s : State) (c : Nat) (r : Region) (whole : Bool), c < 8 ∧ blockWorks s 15 = true ∧ pcOf s c < 32764 ∧ (coreAt
    s c).stepping = false ∧ (coreAt s c).region = some r ∧ (coreAt s c).stall = Stall.commit whole ∧ s.tb ≤
    r.deadline ∧ r.guardEv < 4 ∧ NoTentative s c ∧ hasBit s F.SQ_STATUS_EV_PENDING c r.guardEv = true) ∧
    (∃ (s : State) (c : Nat) (r : Region), c < 8 ∧ blockWorks s 15 = true ∧ pcOf s c < 32764 ∧ (coreAt s c).stepping
    = false ∧ (coreAt s c).region = some r ∧ r.deadline ≤ s.tb ∧ r.target % 4 = 0 ∧ r.target ≤ 32764) ∧
    (∃ (s : State) (c : Nat) (q : Req), c < 8 ∧ blockWorks s 15 = true ∧ pcOf s c < 32764 ∧ (coreAt s c).stepping =
    false ∧ (coreAt s c).stall = Stall.storeFull q ∧ (coreAt s c).storeQ.length < 16) ∧
    (∃ (s : State) (c : Nat), c < 8 ∧ blockWorks s 15 = true ∧ pcOf s c < 32764 ∧ (coreAt s c).stepping = false ∧
    (coreAt s c).stall = Stall.dsync ∧ (coreAt s c).storeQ = []) ∧
    (∃ (s : State) (c : Nat) (bs : List Nat) (e : Bool) (d : Nat), c < 8 ∧ blockWorks s 15 = true ∧ pcOf s c < 32764
    ∧ (coreAt s c).stepping = false ∧ (coreAt s c).stall = Stall.answer (Req.dmaq bs e) d ∧ sqState s c = sqWAITING ∧
    inFlight s < 256 ∧ NoRegion s c ∧ blockReach s 16 = true ∧ (dmaAnswer s (newDesc (16 + c) (if e = true then
    earlyBytes bs else bs) none none) = none)) ∧
    (∃ (s : State) (c m d : Nat), c < 8 ∧ blockWorks s 15 = true ∧ pcOf s c < 32764 ∧ (coreAt s c).stepping = false ∧
    (coreAt s c).stall = Stall.syncSend m d ∧ blockWorks s 3 = true ∧ isSet s F.MBX_STAT_FULL m = false) ∧
    (∃ (s : State) (c k ch : Nat) (soft : Bool) (rest : List (Nat × Nat × Bool)), c < 8 ∧ blockWorks s 15 = true ∧
    pcOf s c < 32764 ∧ (coreAt s c).stepping = false ∧ k < 4 ∧ ch < 48 ∧ s.beacons = (ch, 4 * c + k, soft) :: rest ∧
    domUp s 21 = true ∧ hasBit s F.SQ_STATUS_EV_PENDING c k = false) :=
  ⟨⟨stl (Stall.wait 0 0 50000 none false), 0, 50000, false, by unfold NoRegion; decide +kernel⟩,
  ⟨wr (stl (Stall.wait 1 2 0 none true)) F.SQ_STATUS_EV_PENDING 1 4, 1, 0, true, 2,
  by unfold NoRegion; decide +kernel⟩,
  ⟨stl (Stall.wait 1 2 0 (some 100000) true), 0, 0, true, 1, 2, by unfold NoRegion; decide +kernel⟩,
  ⟨wr (stl (Stall.commit true) ({ SqCore.init with region := some rg })) F.SQ_STATUS_EV_PENDING 1 4, 1, rg, true,
  by unfold NoTentative; decide +kernel⟩,
  ⟨stl Stall.none ({ SqCore.init with region := some ({ rg with deadline := 90000 }) }), 0,
  { rg with deadline := 90000 }, by decide +kernel⟩,
  ⟨stl (Stall.storeFull (Req.fire 3)) ({ SqCore.init with storeQ := q16 }), 0, Req.fire 3, by decide +kernel⟩,
  ⟨stl Stall.dsync, 0, by decide +kernel⟩,
  ⟨stl (Stall.answer (Req.dmaq copyB false) 2), 1, copyB, false, 2, by unfold NoRegion; decide +kernel⟩,
  ⟨stl (Stall.syncSend 3 0), 0, 3, 0, by decide +kernel⟩,
  ⟨{ co SqCore.init with beacons := [(5, 6, true)] }, 1, 2, 5, true, [], by decide +kernel⟩⟩
end StallsEndAtTheirEvents

namespace AnswersReachTheWaitingCore
def stl (st : Stall) (k : SqCore := SqCore.init) : State := wr (co {k with stall := st}) F.SQ_STATUS_STATE 1 sqWAITING
def mb (s : State) : State := wr (wr (setMbx (wr s F.MBX_STAT_FULL 2 1) 2 ⟨77,5000⟩) F.MBX_BIND_SENDER 2 0x11)
    F.MBX_BIND_RECEIVER 2 0x11
def bc (s : State) : State := wr (wr s F.BCN_CH_CFG_EN 3 1) F.BCN_CH_CFG_CONSUMER 3 20
def tg (s : State) : State := wr (wr s F.TRG_CFG_MODE 2 1) F.TRG_CFG_SRC 2 1
def an (q : Req) (d : Nat) := stl (.answer q d)

theorem test_meets_AnswersReachTheWaitingCore :
    (∃ (s : State) (c d a n : Nat), c < 8 ∧ blockWorks s 15 = true ∧ (coreAt s c).storeQ = [] ∧ (coreAt s c).stepping
    = false ∧ (coreAt s c).stall = Stall.answer (Req.load a n) d ∧ pcOf (busRead s (16 + c) a n).2 c < 32764 ∧
    (coreAt (busRead s (16 + c) a n).2 c).stepping = false) ∧
    (∃ (s : State) (c d m : Nat), c < 8 ∧ blockWorks s 15 = true ∧ (coreAt s c).storeQ = [] ∧ (coreAt s c).stepping =
    false ∧ pcOf s c < 32764 ∧ (coreAt s c).stall = Stall.answer (Req.mbxrcv m) d ∧ m < 64 ∧ blockReach s 3 = true ∧
    isReceiver s (16 + c) m = true ∧ isSet s F.MBX_STAT_FULL m = true) ∧
    (∃ (s : State) (c d ch : Nat), c < 8 ∧ blockWorks s 15 = true ∧ (coreAt s c).storeQ = [] ∧ (coreAt s c).stepping
    = false ∧ pcOf s c < 32764 ∧ (coreAt s c).stall = Stall.answer (Req.fire ch) d ∧ ch < 48 ∧ blockReach s 2 = true
    ∧ isSet s F.BCN_CH_CFG_EN ch = true ∧ isSet s F.BCN_CH_CFG_FIRE_OWNER_ONLY ch = false ∧ rd s
    F.BCN_CH_CFG_CONSUMER ch < 55) ∧
    (∃ (s : State) (c d n start w : Nat), c < 8 ∧ blockWorks s 15 = true ∧ (coreAt s c).storeQ = [] ∧ (coreAt s
    c).stepping = false ∧ pcOf s c < 32764 ∧ (coreAt s c).stall = Stall.answer (Req.pulse n start w) d ∧ n < 16 ∧ w <
    2 ^ 32 ∧ blockReach s 8 = true ∧ trgDark s n = false ∧ paired s n = false ∧ rd s F.TRG_CFG_SRC n = 1 ∧ rd s
    F.TRG_CFG_MODE n ≠ 0 ∧ effMin s n ≤ w ∧ s.tb ≤ start ∧ (trgAt s n).held.length < 8 ∧ (∀ p ∈ (trgAt s
    n).cur.toList ++ (trgAt s n).held, p.stop ≤ start) ∧ isSet s F.TRG_CFG_TWIN n = false) ∧
    (∃ (s : State) (c d m : Nat), c < 8 ∧ blockWorks s 15 = true ∧ (coreAt s c).storeQ = [] ∧ (coreAt s c).stepping =
    false ∧ pcOf s c < 32764 ∧ (coreAt s c).stall = Stall.answer (Req.mbxwdr m) d ∧ m < 64 ∧ blockReach s 3 = true ∧
    isSender s (16 + c) m = true ∧ isSet s F.MBX_STAT_FULL m = true) :=
  ⟨⟨an (Req.load 16 4) 2, 1, 2, 16, 4, by decide +kernel⟩,
  ⟨mb (an (Req.mbxrcv 2) 2), 1, 2, 2, by decide +kernel⟩,
  ⟨bc (an (Req.fire 3) 2), 1, 2, 3, by decide +kernel⟩,
  ⟨tg (an (Req.pulse 2 200000 500) 0), 1, 0, 2, 200000, 500, by decide +kernel⟩,
  ⟨mb (an (Req.mbxwdr 2) 2), 1, 2, 2, by decide +kernel⟩⟩
end AnswersReachTheWaitingCore

namespace CoreControlsAndHashEngineAct
def wc (s : State) (c a : Nat) (w : Nat) : State :=
    (List.range 4).foldl (fun s i => { s with prog := sset s.prog 0 (c*0x8000 + a + i) (w / 2^(8*i) % 256 + 1) }) s
def hl (k : SqCore) : State := wc (wr (wr (co k) F.SQ_STATUS_STATE 1 sqHALTED) F.SQ_CTL_WAKE_EN 1 1) 1 0x400 0x2C312345
def wt (k : SqCore) : State := wr (co k) F.SQ_STATUS_STATE 1 sqWAITING

theorem test_meets_CoreControlsAndHashEngineAct :
    (∃ (s : State) (c : Nat), blockReach s 15 = true ∧ c < 8 ∧ (sqState s c = sqRUNNING ∨ sqState s c = sqWAITING) ∧
    NoRegion s c ∧ (coreAt s c).recipe = none ∧ (∀ (m d : Nat), (coreAt s c).stall ≠ Stall.syncSend m d) ∧ s.hashDue
    = none) ∧
    (∃ (s : State) (c m d : Nat), blockReach s 15 = true ∧ c < 8 ∧ (sqState s c = sqRUNNING ∨ sqState s c =
    sqWAITING) ∧ NoRegion s c ∧ (coreAt s c).recipe = none ∧ (coreAt s c).stall = Stall.syncSend m d ∧ pcOf s c <
    32764) ∧
    (∃ (s : State) (c : Nat) (i : Instr) (d imm20 : Nat), blockReach s 15 = true ∧ c < 8 ∧ sqState s c = sqHALTED ∧
    (coreAt s c).past = false ∧ (coreAt s c).stall = Stall.none ∧ blockWorks s 15 = true ∧ tsxDecode c (fetchWord s
    c) = some i ∧ tsxDecode c (fetchWord s c) = some (Instr.mov c d imm20) ∧ pcOf s c < 32764) ∧
    (∃ (s : State) (c : Nat), blockReach s 15 = true ∧ c < 8 ∧ blockWorks s 15 = true ∧ (coreAt s c).wakeAsked = true
    ∧ isSet s F.SQ_CTL_WAKE_EN c = true ∧ sqState s c = sqHALTED) ∧
    (∃ (s : State) (due : Nat), blockReach s 15 = true ∧ s.hashDue = some due ∧ due ≤ s.ns ∧ s.hashDirty = false ∧
    s.twn.helloWait = false ∧ blockWorks s 15 = true) :=
  ⟨⟨hl SqCore.init, 0, by decide +kernel, by decide +kernel, by decide +kernel, by unfold NoRegion; decide +kernel,
  by decide +kernel, fun m d => noSync (by decide +kernel) m d, by decide +kernel⟩,
  ⟨wt ({ SqCore.init with stall := Stall.syncSend 3 2 }), 0, 3, 2, by unfold NoRegion; decide +kernel⟩,
  ⟨hl SqCore.init, 1, Instr.mov 1 (bitsOf (fetchWord (hl SqCore.init) 1) 20 4) (bitsOf (fetchWord (hl SqCore.init) 1)
  0 20), 3, 74565, by decide +kernel⟩,
  ⟨hl ({ SqCore.init with wakeAsked := true }), 1, by decide +kernel⟩,
  ⟨{ live with hashDue := some 90000 }, 90000, by decide +kernel⟩⟩
end CoreControlsAndHashEngineAct

namespace CoreFaultsRecordCauseAndPc
def rg : Region := ⟨(List.range 15).map (· + 100), 77, 5, [], 2, 200000, 0x40, [(0x1005, 7)], 1, [], [], []⟩

theorem test_meets_CoreFaultsRecordCauseAndPc :
    (∃ (s : State) (c d a o : Nat), Ready s c ∧ (coreAt s c).recipe = none ∧ NoRegion s c ∧ d ≠ a ∧ BitVec.toNat
    (vreg s c a) % 4 = 0 ∧ 32764 < BitVec.toNat (vreg s c a) ∧ place (BitVec.toNat (vreg s c a)) = some (Place.shared
    o) ∧ BitVec.toNat (vreg s c a) % 8 ≠ 0) ∧
    (∃ (s : State) (c a v imm16 off16 : Nat), Ready s c ∧ (coreAt s c).recipe = none ∧ NoRegion s c ∧ 64 ≤ v ∧ place
    (effAddr s c a imm16) = none ∧ 67108864 ≤ effAddr s c a imm16 ∧ BitVec.toNat (vreg s c a) % 4 ≠ 0 ∧ BitVec.toNat
    (vreg s c a) < 65536 ∧ ↑(pcOf s c) + 4 * toSigned 16 off16 < 0) ∧
    (∃ (s : State) (c d a imm16 : Nat), Ready s c ∧ (coreAt s c).recipe = none ∧ NoRegion s c ∧ effAddr s c a imm16 <
    67108864 ∧ effAddr s c a imm16 % 4 ≠ 0 ∧ effAddr s c a imm16 % 8 ≠ 0 ∧ place (effAddr s c a imm16) ≠ none ∧
    effAddr s c a imm16 % (4, Instr.ldw c d a imm16).1 ≠ 0 ∧ effAddr s c a imm16 % (8, Instr.ldd c d a imm16).1 ≠ 0 ∧
    effAddr s c a imm16 % (4, Instr.ldsw c d a imm16).1 ≠ 0 ∧ effAddr s c a imm16 % (4, Instr.stw c d a imm16).1 ≠ 0
    ∧ effAddr s c a imm16 % (8, Instr.std c d a imm16).1 ≠ 0) ∧
    (∃ (s : State) (c d a imm16 : Nat), Ready s c ∧ (coreAt s c).recipe = none ∧ NoRegion s c ∧ place (effAddr s c a
    imm16) ≠ none ∧ effAddr s c a imm16 % (2, Instr.ldh c d a imm16).1 ≠ 0 ∧ effAddr s c a imm16 % (2, Instr.ldsh c d
    a imm16).1 ≠ 0 ∧ effAddr s c a imm16 % (2, Instr.sth c d a imm16).1 ≠ 0) ∧
    (∃ (s : State) (c : Nat) (r : Region), Ready s c ∧ (coreAt s c).recipe = none ∧ (coreAt s c).region = some r ∧
    r.savedV.length = 15) :=
  ⟨⟨wr (co SqCore.init) F.SQ_VREG_VALUE 18 65540, 1, 1, 2, 4, by unfold Ready NoRegion; decide +kernel⟩,
  ⟨wr (co SqCore.init) F.SQ_VREG_VALUE 18 65540, 1, 1, 64, 32768, 32768, by unfold Ready NoRegion; decide +kernel⟩,
  ⟨wr (co SqCore.init) F.SQ_VREG_VALUE 18 65540, 1, 1, 1, 1, by unfold Ready NoRegion; decide +kernel⟩,
  ⟨wr (co SqCore.init) F.SQ_VREG_VALUE 18 65540, 1, 1, 1, 2, by unfold Ready NoRegion; decide +kernel⟩,
  ⟨co ({ SqCore.init with region := some rg }), 1, rg, by unfold Ready; decide +kernel⟩⟩
end CoreFaultsRecordCauseAndPc

namespace RecipesStartStopAndEnd
def card (l : List (Nat × Nat)) : List Nat := let b := mkB 252 l; b ++ toBytes 4 (crc32 (b.take 0xE0 ++ List.replicate 0x18 0 ++ (b.drop 0xF8).take 4))
def c1 := card [(0,1),(1,1),(5,1),(0x21,0x10),(0x28,5)]
def c3 := card [(0,3),(1,1),(4,2),(5,0x12),(0x10,2),(0x24,9),(0x2C,1)]
def putc (s : State) (c : Nat) (b : List Nat) : State := sharedPuts s (cardBase c) b
def rc (id : Nat) (b : List Nat) : Recipe := ⟨id, b, none, false, 0, 0⟩
def sqq (s : State) (st rst : Nat) (k : SqCore) : State := wr (wr { s with cores := [(1,k)] } F.SQ_STATUS_STATE 1 st)
    F.SQ_STATUS_RECIPE_STATE 1 rst
def ld (r : Recipe) : SqCore := { SqCore.init with recipe := some r, loadDue := some 90000, stall := .dsync }
def c2 := card [(0,2),(1,1),(5,0x12),(0x10,2),(0x4A,1)]
def rcx : List Recipe := [rc 1 c1, rc 3 c3, {rc 2 c2 with fcgWait := true}, rc 6 c1]
def fe (a b : Nat) : State := wr (wr (wr (wr live F.CMP_STATUS_ARMED 1 1) F.CMP_CFG_SRC 1 a) F.FCG_CFG_MODE 1 b)
    F.FCG_CFG_CMP_SEL 1 1

set_option maxRecDepth 100000 in
theorem test_meets_RecipesStartStopAndEnd :
    (∃ (s : State) (c id : Nat), c < 8 ∧ blockReach s 15 = true ∧ 1 ≤ id ∧ id ≤ 6 ∧ sqState s c = sqHALTED) ∧
    (∃ (s : State) (c id : Nat), c < 8 ∧ blockReach s 15 = true ∧ 1 ≤ id ∧ id ≤ 6 ∧ sqState s c ≠ sqHALTED) ∧
    (∃ (s : State) (c due : Nat) (r : Recipe), c < 8 ∧ blockWorks s 15 = true ∧ (coreAt s c).loadDue = some due ∧ due
    ≤ s.ns ∧ (coreAt s c).recipe = some r ∧ { r with card := cardBytes s c }.crcGood = false) ∧
    (∃ (s : State) (c due : Nat) (r : Recipe), c < 8 ∧ blockWorks s 15 = true ∧ (coreAt s c).loadDue = some due ∧ due
    ≤ s.ns ∧ (coreAt s c).recipe = some r ∧ recipeRefusal (setCore s c ({ coreAt s c with loadDue := none })) c
    { r with card := cardBytes s c } = none) ∧
    (∃ (s : State) (c : Nat) (r : Recipe), c < 8 ∧ blockReach s 15 = true ∧ (coreAt s c).recipe = some r ∧
    recipeState s c = rsRUNNING) ∧
    (∃ (s : State) (c : Nat) (r : Recipe), c < 8 ∧ blockWorks s 15 = true ∧ (coreAt s c).recipe = some r ∧
    recipeState s c = rsSTOPPING ∧ recipeQuiet s r = true) ∧
    (∃ (s : State) (c : Nat) (r : Recipe) (k n g : Nat), c < 8 ∧ blockWorks s 15 = true ∧ (coreAt s c).recipe = some
    r ∧ recipeState s c = rsRUNNING ∧ r.fcgWait = true ∧ lowest 16 r.cmps = some k ∧ lowest 4 r.encs = some n ∧ r.fcg
    = some g ∧ isSet s F.CMP_STATUS_ARMED k = true ∧ rd s F.CMP_CFG_SRC k ≠ n ∧ r.listMode = true) ∧
    (∃ (s : State) (c : Nat) (r : Recipe) (k n g : Nat), c < 8 ∧ blockWorks s 15 = true ∧ (coreAt s c).recipe = some
    r ∧ recipeState s c = rsRUNNING ∧ r.fcgWait = true ∧ lowest 16 r.cmps = some k ∧ lowest 4 r.encs = some n ∧ r.fcg
    = some g ∧ isSet s F.CMP_STATUS_ARMED k = true ∧ rd s F.CMP_CFG_SRC k = n ∧ startRefused s g = false) :=
  ⟨⟨sqq live sqHALTED 0 SqCore.init, 0, 1, by decide +kernel⟩,
  ⟨sqq live sqRUNNING 0 SqCore.init, 1, 1, by decide +kernel⟩,
  ⟨sqq live sqLOADING rsLOADING (ld (rc 1 [])), 1, 90000, rc 1 [], by decide +kernel⟩,
  ⟨putc (sqq live sqLOADING rsLOADING (ld (rc 1 []))) 1 c1, 1, 90000, rc 1 [], by decide +kernel⟩,
  ⟨sqq live sqRUNNING rsRUNNING ({ SqCore.init with recipe := some (rc 1 c1) }), 1, rc 1 c1, by decide +kernel⟩,
  ⟨sqq live sqRUNNING rsSTOPPING ({ SqCore.init with recipe := some (rc 1 c1) }), 1, rc 1 c1, by decide +kernel⟩,
  ⟨sqq (fe 1 1) sqRUNNING rsRUNNING ({ SqCore.init with recipe := rcx[2]? }), 1, { rc 2 c2 with fcgWait := true }, 1,
  0, 1, by decide +kernel⟩,
  ⟨sqq (fe 0 1) sqRUNNING rsRUNNING ({ SqCore.init with recipe := rcx[2]? }), 1, { rc 2 c2 with fcgWait := true }, 1,
  0, 1, by decide +kernel⟩⟩
end RecipesStartStopAndEnd

namespace FrameClocksRunByTheirModes
def fk (g : Nat) (k : Fcg) (st : Nat) (s : State := live) : State := setLoop (setFcg s g k) g st
def b0 : State := wr (wr (wr live F.FCG_FMIN_VALUE 1 10) F.FCG_FSAFE_VALUE 1 20) F.FCG_FMAX_VALUE 1 3000
def b2 : State := wr (wr (wr (wr (wr (wr b0 F.FCG_CFG_MODE 1 2) F.FCG_C_C 1 4096) F.ENC_CFG_MODE 0 1)
    F.CMP_STATUS_ARMED 0 1) F.CMP_CFG_SRC 0 0) F.ENC_MEAS_CFG_MOTION_EXPECTED 0 0
def b3 : State := wr b0 F.FCG_CFG_MODE 1 1
def w0 : Window := ⟨7, 90000, 89000, 90500⟩
def k0 : Fcg :=
    { Fcg.init with f := 65536000, nextT := 100100, updTb := 99900, phiTb := 99900, committed := [⟨101000, 3⟩] }
def p0 : State := { fk 1 k0 fRUN b0 with trg := [(2, ⟨[⟨101000,102000,some (1,3)⟩,⟨103000,104000,none⟩], none, 0⟩)] }
def p1 : State := fk 1 { k0 with windows := [w0] } fTRACK b2
def p2 (pol : Nat) : State := wr (fk 1 { k0 with holdTime := 50, holdUsed := 10, holdSince := 5 } fHOLD b2)
    F.FCG_CFG_HOLD_POLICY 1 pol

theorem test_meets_FrameClocksRunByTheirModes :
    (∃ (s : State) (g v : Nat), g < 4 ∧ blockWorks s 7 = true ∧ fcgLoop s g = fIDLE ∧ rd s F.FCG_FMIN_VALUE g ≤ rd s
    F.FCG_FSAFE_VALUE g ∧ rd s F.FCG_FSAFE_VALUE g ≤ rd s F.FCG_FMAX_VALUE g ∧ rd s F.FCG_CFG_MODE g = 0 ∧ isSet s
    F.FCG_CFG_START_AT_TB g = false ∧ 500 ≤ v ∧ v ≤ 2 ^ 40) ∧
    (∃ (s : State) (g : Nat), g < 4 ∧ blockWorks s 7 = true ∧ fcgLoop s g = fIDLE ∧ rd s F.FCG_FMIN_VALUE g ≤ rd s
    F.FCG_FSAFE_VALUE g ∧ rd s F.FCG_FSAFE_VALUE g ≤ rd s F.FCG_FMAX_VALUE g ∧ rd s F.FCG_CFG_MODE g = 2 ∧ rd s
    F.FCG_C_C g ≠ 0 ∧ rd s F.ENC_CFG_MODE (rd s F.FCG_CFG_SRC_ENC g) ≠ 0 ∧ isSet s F.CMP_STATUS_ARMED (rd s
    F.FCG_CFG_CMP_SEL g) = true ∧ rd s F.CMP_CFG_SRC (rd s F.FCG_CFG_CMP_SEL g) = rd s F.FCG_CFG_SRC_ENC g) ∧
    (∃ (s : State) (g : Nat), g < 4 ∧ blockWorks s 7 = true ∧ (fcgRuns s g = true ∨ rd s F.FCG_FMAX_VALUE g < rd s
    F.FCG_FMIN_VALUE g ∨ rd s F.FCG_CFG_MODE g = 1 ∧ isSet s F.CMP_STATUS_ARMED (rd s F.FCG_CFG_CMP_SEL g) = false)) ∧
    (∃ (s : State) (g : Nat), g < 4 ∧ blockWorks s 7 = true ∧ fcgRuns s g = true ∧ (fcgAt s g).windows = []) ∧
    (∃ (s : State) (g v : Nat), g < 4 ∧ blockWorks s 7 = true ∧ v < 500 ∧ v ≠ rd s F.FCG_PERIOD_VALUE g) ∧
    (∃ (s : State) (g : Nat) (w : Window) (rest : List Window), g < 4 ∧ blockWorks s 7 = true ∧ (fcgAt s g).windows =
    w :: rest ∧ judged s (rd s F.FCG_CFG_SRC_ENC g) w.hi = true) ∧
    (∃ (s : State) (g : Nat), g < 4 ∧ blockWorks s 7 = true ∧ fcgLoop s g = fHOLD ∧ (fcgAt s g).relock = false ∧
    (fcgAt s g).holdTime ≤ (fcgAt s g).holdUsed + (s.ns - (fcgAt s g).holdSince) ∧ rd s F.FCG_CFG_HOLD_POLICY g ≤ 2) :=
  ⟨⟨b0, 0, 500, by decide +kernel⟩,
  ⟨b2, 1, by decide +kernel⟩,
  ⟨b3, 1, by decide +kernel⟩,
  ⟨p0, 1, by decide +kernel⟩,
  ⟨b0, 0, 0, by decide +kernel⟩,
  ⟨p1, 1, w0, [], by decide +kernel⟩,
  ⟨p2 0, 1, by decide +kernel⟩⟩
end FrameClocksRunByTheirModes

namespace TriggerOutputsFollowTheirPulses
def pA : Pulse := ⟨99000,99500,some (1,3)⟩
def pB : Pulse := ⟨99000,99900,none⟩
def o (n : Nat) (k : TrgOut) (s : State := live) : State := { s with trg := [(n,k)] }
def s1 := o 3 ⟨[pA,pB],none,0⟩
def s2 := o 3 ⟨[pB],some pA,0⟩
def pr (s : State) := wr (wr s F.TRG_PAIR_CFG_DEAD_NS 1 20) F.TRG_PAIR_CFG_EN 1 1
def q1 := pr (o 2 ⟨[pA,pB],none,0⟩)
def q2 (st : Nat) := pr (o 2 ⟨[pB],some pA,st⟩)
def bc : State := { live with beacons := [(3,49,true)] }

theorem test_meets_TriggerOutputsFollowTheirPulses :
    (∃ (s : State) (n : Nat) (p : Pulse) (rest : List Pulse), blockWorks s 8 = true ∧ n < 16 ∧ paired s n = false ∧
    (trgAt s n).held = p :: rest ∧ (trgAt s n).cur = none ∧ p.start ≤ s.tb) ∧
    (∃ (s : State) (n : Nat) (p : Pulse), blockWorks s 8 = true ∧ n < 16 ∧ paired s n = false ∧ (trgAt s n).cur =
    some p ∧ p.stop ≤ s.tb ∧ rd s F.TRG_CFG_SRC n < 4) ∧
    (∃ (s : State) (p : Nat) (q : Pulse) (rest : List Pulse), blockWorks s 8 = true ∧ p < 8 ∧ paired s (2 * p) = true
    ∧ (trgAt s (2 * p)).cur = none ∧ (trgAt s (2 * p)).held = q :: rest ∧ q.start ≤ s.tb) ∧
    (∃ (s : State) (p : Nat) (q : Pulse), blockWorks s 8 = true ∧ p < 8 ∧ paired s (2 * p) = true ∧ (trgAt s (2 *
    p)).cur = some q ∧ (trgAt s (2 * p)).stage = 1 ∧ q.start + rd s F.TRG_PAIR_CFG_DEAD_NS p ≤ s.tb) ∧
    (∃ (s : State) (p : Nat) (q : Pulse), blockWorks s 8 = true ∧ p < 8 ∧ paired s (2 * p) = true ∧ (trgAt s (2 *
    p)).cur = some q ∧ (trgAt s (2 * p)).stage = 2 ∧ q.stop - rd s F.TRG_PAIR_CFG_DEAD_NS p ≤ s.tb) ∧
    (∃ (s : State) (p : Nat) (q : Pulse), blockWorks s 8 = true ∧ p < 8 ∧ paired s (2 * p) = true ∧ (trgAt s (2 *
    p)).cur = some q ∧ (trgAt s (2 * p)).stage = 3 ∧ q.stop ≤ s.tb) ∧
    (∃ (s : State) (ch : Nat) (soft : Bool) (rest : List (Nat × Nat × Bool)), blockWorks s 8 = true ∧ ch < 48 ∧
    s.beacons = (ch, 49, soft) :: rest) :=
  ⟨⟨s1, 3, pA, [pB], by decide +kernel⟩,
  ⟨s2, 3, pA, by decide +kernel⟩,
  ⟨q1, 1, pA, [pB], by decide +kernel⟩,
  ⟨q2 1, 1, pA, by decide +kernel⟩,
  ⟨q2 2, 1, pA, by decide +kernel⟩,
  ⟨q2 3, 1, pA, by decide +kernel⟩,
  ⟨bc, 3, true, [], by decide +kernel⟩⟩
end TriggerOutputsFollowTheirPulses

namespace EncoderChannelsCountAndDecode
def ss (n : Nat) (k : Enc) (s : State) : State := { s with enc := [(n,k)] }
def i1 := wr (wr live F.ENC_CFG_MODE 1 1) F.ENC_CFG_FILTER_N 1 2
def sb : State := wr (wr (wr (wr (wr (wr live F.ENC_CFG_MODE 1 5) F.ENC_SSI_FRAME_WLEN 1 12)
    F.ENC_SSI_FRAME_POS_BITS 1 8) F.ENC_SSI_FRAME_POS_LSB 1 2) F.ENC_SSI_TIMING_TIMEOUT_US 1 30) F.ENC_SSI_FRAME_GRAY 1 0
def sg : State := ss 1 { Enc.init with ssiGrid := 90000 } sb
def sw (f : Option Nat) : State := wr (ss 1 { Enc.init with ssiGrid := 900000, ssiT0 := some 1000, ssiField := f } sb)
    F.ENC_STATUS_SSI_BUSY 1 1
def sc0 : State := wr (wr (wr (sw (some 3)) F.ENC_SSI_FRAME_WLEN 1 16) F.ENC_SSI_FRAME_POS_LSB 1 4)
    F.ENC_SSI_FRAME_POS_BITS 1 8
def sc : State := wr (wr sc0 F.ENC_SSI_CRC_LEN 1 4) F.ENC_SSI_CRC_POLY 1 3
def st : State := ss 1 { Enc.init with ssiWait := some 90000 } sb
def lo : State := wr (wr (wr (wr (ss 1 { Enc.init with lastPs := some 5000, moved := true, lostWin := some 1000 } i1)
    F.ENC_MEAS_CFG_LOST_EN 1 1) F.ENC_INTERVAL_VALUE 1 1000) F.ENC_MEAS_CFG_MOTION_EXPECTED 1 1)
    F.ENC_STATUS_SPEED_VALID 1 1

theorem test_meets_EncoderChannelsCountAndDecode :
    (∃ (s : State) (n : Nat) (a b z : Bool) (ps held : Nat), n < 4 ∧ blockWorks s 6 = true ∧ ((∀ g < 4, fcgLoop s g =
    fIDLE) ∧ (∀ k < 16, isSet s F.CMP_STATUS_ARMED k = true → rd s F.CMP_CFG_SRC k ≠ n) ∧ ∀ p < 2, isSet s
    F.PO_STATUS_RUNNING p = true → rd s F.PO_CFG_SRC p ≠ n) ∧ rd s F.ENC_CFG_MODE n = 1 ∧ isSet s F.ENC_STATUS_LOST n
    = false ∧ domUp s 22 = true ∧ rd s F.ENC_CFG_FILTER_N n ≤ held ∧ ps + (rd s F.ENC_CFG_FILTER_N n - 1) * 2500 ≤
    s.tb * 1000 ∧ (hasBit s F.ENC_STATUS_ABZ n 0 != a) ≠ (hasBit s F.ENC_STATUS_ABZ n 1 != b) ∧ hasBit s
    F.ENC_STATUS_ABZ n 2 = z) ∧
    (∃ (s : State) (n word t0 : Nat), n < 4 ∧ blockWorks s 6 = true ∧ ((∀ g < 4, fcgLoop s g = fIDLE) ∧ (∀ k < 16,
    isSet s F.CMP_STATUS_ARMED k = true → rd s F.CMP_CFG_SRC k ≠ n) ∧ ∀ p < 2, isSet s F.PO_STATUS_RUNNING p = true →
    rd s F.PO_CFG_SRC p ≠ n) ∧ ssiRuns s n = true ∧ isSet s F.ENC_STATUS_SSI_BUSY n = true ∧ s.ns < (encAt s
    n).ssiGrid ∧ (encAt s n).ssiT0 = some t0 ∧ ssiLastEdge s n t0 ≤ 2 * s.tb ∧ isSet s F.ENC_STATUS_LOST n = false ∧
    isSet s F.ENC_STATUS_FROZEN n = false ∧ isSet s F.ENC_MEAS_CFG_FROZEN_EN n = false ∧ isSet s
    F.ENC_SSI_STAT_ERR_EN n = false ∧ isSet s F.ENC_SSI_STAT_WARN_EN n = false ∧ isSet s F.ENC_SSI_FRAME_GRAY n =
    false ∧ ssiCrcOk s n word = true) ∧
    (∃ (s : State) (n word t0 : Nat), n < 4 ∧ blockWorks s 6 = true ∧ ((∀ g < 4, fcgLoop s g = fIDLE) ∧ (∀ k < 16,
    isSet s F.CMP_STATUS_ARMED k = true → rd s F.CMP_CFG_SRC k ≠ n) ∧ ∀ p < 2, isSet s F.PO_STATUS_RUNNING p = true →
    rd s F.PO_CFG_SRC p ≠ n) ∧ ssiRuns s n = true ∧ isSet s F.ENC_STATUS_SSI_BUSY n = true ∧ s.ns < (encAt s
    n).ssiGrid ∧ (encAt s n).ssiT0 = some t0 ∧ ssiLastEdge s n t0 ≤ 2 * s.tb ∧ isSet s F.ENC_STATUS_LOST n = false ∧
    isSet s F.ENC_STATUS_FROZEN n = false ∧ isSet s F.ENC_MEAS_CFG_FROZEN_EN n = false ∧ isSet s
    F.ENC_SSI_STAT_ERR_EN n = false ∧ isSet s F.ENC_SSI_STAT_WARN_EN n = false ∧ isSet s F.ENC_SSI_FRAME_GRAY n =
    false ∧ ssiCrcOk s n word = false) ∧
    (∃ (s : State) (n : Nat), n < 4 ∧ blockWorks s 6 = true ∧ ((∀ g < 4, fcgLoop s g = fIDLE) ∧ (∀ k < 16, isSet s
    F.CMP_STATUS_ARMED k = true → rd s F.CMP_CFG_SRC k ≠ n) ∧ ∀ p < 2, isSet s F.PO_STATUS_RUNNING p = true → rd s
    F.PO_CFG_SRC p ≠ n) ∧ rd s F.ENC_CFG_MODE n ≠ 0 ∧ isSet s F.ENC_STATUS_LOST n = false ∧ checkArmed s n
    F.ENC_MEAS_CFG_LOST_EN = true ∧ lostDue s n = true) ∧
    (∃ (s : State) (n : Nat), n < 4 ∧ blockWorks s 6 = true ∧ ssiRuns s n = true ∧ isSet s F.ENC_STATUS_SSI_BUSY n =
    false ∧ (encAt s n).ssiWait = none ∧ (encAt s n).ssiGrid ≤ s.ns) ∧
    (∃ (s : State) (n w : Nat), n < 4 ∧ blockWorks s 6 = true ∧ isSet s F.ENC_STATUS_SSI_BUSY n = false ∧ (encAt s
    n).ssiWait = some w ∧ w ≤ s.ns) :=
  ⟨⟨i1, 1, false, true, false, 0, 3, by decide +kernel⟩,
  ⟨sw none, 1, 0, 1000, by decide +kernel⟩,
  ⟨sc, 1, 1, 1000, by decide +kernel⟩,
  ⟨lo, 1, by decide +kernel⟩,
  ⟨sg, 1, by decide +kernel⟩,
  ⟨st, 1, 90000, by decide +kernel⟩⟩
end EncoderChannelsCountAndDecode

namespace PulseOutputsAndCompareUnitsAct
def s0 := wr (wr (wr (wr live F.PO_RATIO_M 0 2) F.PO_RATIO_N 0 3) F.PO_RATIO_M 1 0) F.PO_RATIO_N 1 3
def s1 := wr (wr (wr (wr (wr live F.PO_CFG_EN 1 1) F.PO_STATUS_RUNNING 1 1) F.PO_STATUS_BACKLOG 1 3) F.PO_CFG_PAIR 1 2)
    F.PO_SPACING_SPACING_NS 1 100
def s1' := (List.range 16).foldl (fun s n => wr s F.TRG_CFG_MODE n 1) s1
def s2 := wr (wr (wr (wr (wr live F.CMP_BASE_BASE 2 100) F.CMP_LEN_LEN 2 5) F.CMP_CFG_SRC 2 1) F.ENC_CFG_MODE 1 1)
    F.CMP_STATUS_ARMED 1 1
def s4 := wr live F.CMP_LEN_LEN 2 0
def s3 : State := { live with cmpHeld := some (3, 8), cmpList := [(3, 77)] }

theorem test_meets_PulseOutputsAndCompareUnitsAct :
    (∃ (s : State) (p k off : Nat), blockWorks s 6 = true ∧ p < 2 ∧ isSet s F.PO_CFG_EN p = false ∧ rd s F.PO_RATIO_M
    p ≠ 0 ∧ rd s F.PO_RATIO_M p ≤ rd s F.PO_RATIO_N p ∧ k < 16 ∧ (262144 < rd s F.CMP_BASE_BASE k + rd s
    F.CMP_LEN_LEN k ∨ rd s F.CMP_LEN_LEN k = 0) ∧ off % 8 = 0) ∧
    (∃ (s : State) (p : Nat), blockWorks s 6 = true ∧ p < 2 ∧ isSet s F.PO_CFG_EN p = false ∧ (rd s F.PO_RATIO_M p =
    0 ∨ rd s F.PO_RATIO_N p < rd s F.PO_RATIO_M p)) ∧
    (∃ (s : State) (p b : Nat), blockWorks s 6 = true ∧ p < 2 ∧ isSet s F.PO_STATUS_RUNNING p = true ∧ poIsDark s p =
    false ∧ (poAt s p).next ≤ s.ns ∧ isSet s F.PO_CFG_FORMAT p = false ∧ isSet s F.PO_CFG_INVERT p = false ∧ rd s
    F.PO_STATUS_BACKLOG p = b + 1 ∧ b + 1 < 2 ^ 15) ∧
    (∃ (s : State) (k : Nat), blockWorks s 6 = true ∧ k < 16 ∧ rd s F.CMP_BASE_BASE k + rd s F.CMP_LEN_LEN k ≤ 262144
    ∧ rd s F.CMP_LEN_LEN k ≠ 0 ∧ rd s F.ENC_CFG_MODE (rd s F.CMP_CFG_SRC k) ≠ 0 ∧ (∀ c < 8, (coreAt s c).recipe =
    none)) ∧
    (∃ (s : State) (off low : Nat), blockWorks s 6 = true ∧ off % 8 = 4 ∧ s.cmpHeld = some (rd s F.ENC_LIST_PAGE_PAGE
    * 8192 + off % 65536 / 8, low) ∧ low < 2 ^ 32) :=
  ⟨⟨s4, 0, 2, 0, by decide +kernel⟩,
  ⟨s0, 1, by decide +kernel⟩,
  ⟨s1', 1, 2, by decide +kernel⟩,
  ⟨s2, 2, by decide +kernel⟩,
  ⟨s3, 28, 8, by decide +kernel⟩⟩
end PulseOutputsAndCompareUnitsAct

namespace TimebaseLocksSlewsAndLoads
def f0 := wr (wr live F.TMB_CTL_TIMEREF_EN 0 1) F.TMB_STATUS_STATE 0 0
def f1 : State :=
    { wr (wr (wr f0 F.TMB_STATUS_STATE 0 1) F.TMB_CTL_PPS_EN 0 1) F.TMB_PPS_OFFSET_VALUE 0 99999 with ppsGood := 2 }
def sl (e : Int) : State := { f1 with slew := e, slewNext := 100 }
def f4 : State := { wr f1 F.TMB_STATUS_STATE 0 2 with ns := 2*10^9 }
def f5 : State := wr (wr (wr (wr f0 F.TMB_STATUS_LOAD_PENDING 0 1) F.TMB_CTL_PPS_EN 0 0) F.TMB_CTL_AUTO 0 0)
    F.TMB_LOAD_VALUE 0 777
def f6 : State := wr f5 F.FCG_STATUS_LOOP 1 1

theorem test_meets_TimebaseLocksSlewsAndLoads :
    (∃ (s : State), blockWorks s 4 = true ∧ isSet s F.TMB_CTL_TIMEREF_EN = true ∧ rd s F.TMB_STATUS_STATE = 0) ∧
    (∃ (s : State) (e : ℤ), blockWorks s 4 = true ∧ isSet s F.TMB_CTL_PPS_EN = true ∧ rd s F.TMB_STATUS_STATE = 1 ∧
    isSet s F.TMB_STATUS_LOAD_PENDING = false ∧ (∃ k, e = ↑s.tb - ↑(rd s F.TMB_PPS_OFFSET_VALUE) + k * 1000000000) ∧
    -500000000 ≤ e ∧ e < 500000000) ∧
    (∃ (s : State), blockWorks s 4 = true ∧ s.slewNext ≤ s.ns ∧ (∀ c < 8, (coreAt s c).storeQ = []) ∧ 0 < s.slew) ∧
    (∃ (s : State), blockWorks s 4 = true ∧ s.slewNext ≤ s.ns ∧ (∀ c < 8, (coreAt s c).storeQ = []) ∧ s.slew < 0 ∧
    s.aDieReset = false ∧ isSet s F.GLB_STATUS_REF_LANE_OK = true) ∧
    (∃ (s : State), blockWorks s 4 = true ∧ s.ppsLast + 1100000000 ≤ s.ns) ∧
    (∃ (s : State), blockWorks s 4 = true ∧ blockReach s 4 = true ∧ loadBarred s = false ∧ isSet s
    F.TMB_STATUS_LOAD_PENDING = true ∧ isSet s F.TMB_CTL_PPS_EN = false ∧ isSet s F.TMB_CTL_AUTO = false) ∧
    (∃ (s : State), blockWorks s 4 = true ∧ blockReach s 4 = true ∧ loadBarred s = true) :=
  ⟨⟨f0, by decide +kernel⟩,
  ⟨f1, 1, by decide +kernel, by decide +kernel, by decide +kernel, by decide +kernel, ⟨0, by decide +kernel⟩,
  by decide +kernel⟩,
  ⟨sl 1, by decide +kernel⟩,
  ⟨sl (-1), by decide +kernel⟩,
  ⟨f4, by decide +kernel⟩,
  ⟨f5, by decide +kernel⟩,
  ⟨f6, by decide +kernel⟩⟩
end TimebaseLocksSlewsAndLoads

namespace FieldChannelsLatchDarkenAndRearm
def i0 := wr (wr live F.ENC_CFG_MODE 0 1) F.FIO_CH_CFG_OPEN_EN 12 1
def i1 := wr (wr (wr i0 F.FIO_CH_CFG_IDLE_CHK 0 1) F.FIO_CH_CFG_IDLE_CHK 2 1) F.FIO_CH_CFG_IDLE_WIN_MS 0 1
def i2 := wr (wr (wr i1 F.FIO_CH_STAT_KINDS 0 16) F.FIO_CH_STAT_KINDS 2 3) F.FIO_CH_STAT_KINDS 14 2
def i3 := wr (wr (wr i1 F.FIO_CH_STAT_DARK 12 1) F.FIO_CH_STAT_DARK 14 1) F.FIO_CH_STAT_DARK_CAUSE 14 2
def i4 := wr (wr (wr { i3 with armAt := List.replicate 20 90000 } F.FIO_CH_STAT_ARMING 12 1) F.FIO_CH_STAT_ARMING 14 1)
    F.FIO_CH_STAT_KINDS 12 6
def i5 := wr i3 F.FIO_CH_STAT_KINDS 36 1

theorem test_meets_FieldChannelsLatchDarkenAndRearm :
    (∃ (s : State) (c kind n held : Nat), c < 38 ∧ kindFits s c kind = true ∧ hasBit s F.FIO_CH_STAT_KINDS c kind =
    false ∧ isSet s F.GLB_STATUS_D2D_UP = true ∧ blockReach s 9 = true ∧ isOutputCh s c = false ∧ n < 16 ∧ paired s n
    = false ∧ trgDark s n = false ∧ n < 8 ∧ 1200 * rd s F.FIO_GIN_CFG_FILTER_US n + 100 ≤ held) ∧
    (∃ (s : State) (c kind : Nat), c < 38 ∧ c ≠ 36 ∧ kind < 7 ∧ kind ≠ 4 ∧ hasBit s F.FIO_CH_STAT_KINDS c kind =
    true) ∧
    (∃ (s : State) (c ticks : Nat), c < 12 ∧ isDifferential s c = true ∧ isSet s F.FIO_CH_CFG_IDLE_CHK c = true ∧ 7 *
    (1000 * rd s F.FIO_CH_CFG_IDLE_WIN_MS c) < 8 * ticks ∧ reversedMay s c = true ∧ hasBit s F.FIO_CH_STAT_KINDS c 4
    = false) ∧
    (∃ (s : State) (c ticks : Nat), c < 12 ∧ isDifferential s c = true ∧ isSet s F.FIO_CH_CFG_IDLE_CHK c = true ∧ 8 *
    ticks ≤ 7 * (1000 * rd s F.FIO_CH_CFG_IDLE_WIN_MS c) ∧ hasBit s F.FIO_CH_STAT_KINDS c 4 = true) ∧
    (∃ (s : State) (c : Nat), isSet s F.GLB_STATUS_D2D_UP = true ∧ blockReach s 9 = true ∧ c < 28 ∧ isOutputCh s c =
    true ∧ isSet s F.FIO_CH_STAT_DARK c = true ∧ isSet s F.FIO_CH_STAT_ARMING c = false ∧ s.darkNow.testBit c = false
    ∧ rearmRefused s c = true) ∧
    (∃ (s : State) (c : Nat), isSet s F.GLB_STATUS_D2D_UP = true ∧ blockReach s 9 = true ∧ c < 28 ∧ isOutputCh s c =
    true ∧ isSet s F.FIO_CH_STAT_DARK c = true ∧ isSet s F.FIO_CH_STAT_ARMING c = false ∧ s.darkNow.testBit c = false
    ∧ rearmRefused s c = false ∧ (12 ≤ c → isSet s F.TRG_CFG_TWIN (c - 12) = false)) ∧
    (∃ (s : State) (c : Nat), c < 48 ∧ isOutputCh s c = true ∧ isSet s F.FIO_CH_STAT_ARMING c = true ∧ sget s.armAt 0
    c + 2000 ≤ s.ns) ∧
    (∃ (s : State) (c kind : Nat), c < 48 ∧ isOutputCh s c = true ∧ isSet s F.FIO_CH_STAT_ARMING c = true ∧ kind ∈
    [1, 2, 3, 5]) :=
  ⟨⟨i0, 0, 0, 0, 7300, by decide +kernel⟩,
  ⟨i2, 2, 0, by decide +kernel⟩,
  ⟨i1, 0, 7300, by decide +kernel⟩,
  ⟨i2, 0, 0, by decide +kernel⟩,
  ⟨i5, 12, by decide +kernel⟩,
  ⟨i3, 12, by decide +kernel⟩,
  ⟨i4, 12, by decide +kernel⟩,
  ⟨i4, 12, 1, by decide +kernel⟩⟩
end FieldChannelsLatchDarkenAndRearm

namespace ReceiveSidesComeUpByStages
def enc1 (bl : List (Nat × Nat)) : List (List Nat) :=
  ([0] :: (bl.foldl (fun (a : List (List Nat) × Nat) b => let w := scramble a.2 b.2; (a.1 ++ [[b.1 + 4*w]], lastBits w)) ([], 0)).1)
def mkCols (bs : List Nat) : List (List Nat) := enc1 [(2, leBytes bs)]
def mA (_n rate : Nat) := markerBytes 0 0 1 0 5 rate 9
def all9 (s : State) (f : State → Nat → State) : State := (List.range 9).foldl f s
def b0 : State := wr (all9 live fun s n => if n = 8 then s else wr (wr s F.PRT_CFG_EN n 1) F.PRT_CFG_GEN n 1)
    F.TWN_CTL_EN 0 1
def st (v : Nat) (k : Prt) (s : State := b0) : State := all9 s fun s n => setPrt (setRxState (setRxClk s n 1) n v) n k
def k0 := { Prt.init with t0 := 5000 }
def k1 := { k0 with freqOk := true, mult := true }
def lk (s : State) : State := all9 s fun s n => if n =
    8 then setPrt s 8 {prtAt s 8 with twinLock := true} else wr s F.PRT_STATUS_LANE_LOCK n 1

theorem test_meets_ReceiveSidesComeUpByStages :
    (∃ (s : State) (n : Nat), n < 9 ∧ blockWorks s (rxBit n) = true ∧ rxEn s n = true ∧ rxClk s n = false ∧ rxState s
    n = pNOCLOCK) ∧
    (∃ (s : State) (n khz : Nat), n < 9 ∧ blockWorks s (rxBit n) = true ∧ rxEn s n = true ∧ rxClk s n = true ∧
    rxState s n = pCLOCK ∧ (prtAt s n).mult = false ∧ 99 * fckHalfKhz s n ≤ 200 * khz ∧ 200 * khz ≤ 101 * fckHalfKhz
    s n) ∧
    (∃ (s : State) (n khz : Nat), n < 9 ∧ blockWorks s (rxBit n) = true ∧ rxEn s n = true ∧ rxClk s n = true ∧
    rxState s n = pCLOCK ∧ (prtAt s n).mult = false ∧ 101 * fckHalfKhz s n < 200 * khz) ∧
    (∃ (s : State) (n : Nat), n < 9 ∧ blockWorks s (rxBit n) = true ∧ rxEn s n = true ∧ rxClk s n = true ∧ (prtAt s
    n).freqOk = true ∧ rxState s n = pCLOCK) ∧
    (∃ (s : State) (n : Nat), n < 9 ∧ blockWorks s (rxBit n) = true ∧ rxEn s n = true ∧ rxState s n = pEQUALISE ∧
    (prtAt s n).centred = true ∧ n < 8 ∧ (rxState s n = pEQUALISE ∨ rxState s n = pLOCK ∨ rxState s n = pDESKEW) ∧
    (prtAt s n).deskewed = false) ∧
    (∃ (s : State) (n j : Nat) (units : List Nat), n < 9 ∧ blockWorks s (rxBit n) = true ∧ rxEn s n = true ∧ rxState
    s n = pLOCK ∧ j ∈ usedLanes s n ∧ givesLock (rxGen s n) (List.map (laneUnit s n j) units) = true) ∧
    (∃ (s : State) (n : Nat) (cols : List (List Nat)) (q : Nat), n < 9 ∧ blockWorks s (rxBit n) = true ∧ rxEn s n =
    true ∧ rxState s n = pDESKEW ∧ loopRelay s n = none ∧ (∀ i < rxLanes s n, markerGood ((markersOf s n cols).getD i
    []) = true ∧ markerMatches s n i ((markersOf s n cols).getD i []) = true ∧ leField ((markersOf s n cols).getD i
    []) 2 2 = q)) ∧
    (∃ (s : State) (n : Nat), n < 9 ∧ blockWorks s (rxBit n) = true ∧ rxEn s n = true ∧ rxState s n = pDESKEW ∧ 2 ≤
    (prtAt s n).agree) ∧
    (∃ (s : State) (n : Nat), n < 9 ∧ blockWorks s (rxBit n) = true ∧ rxEn s n = true ∧ n < 8 ∧ rxState s n = pDESKEW
    ∧ (prtAt s n).deskewed = true ∧ (prtAt s n).markerOk = true) ∧
    (∃ (s : State) (n : Nat), n < 9 ∧ blockWorks s (rxBit n) = true ∧ rxEn s n = true ∧ n < 8 ∧ rxState s n = pDESKEW
    ∧ (prtAt s n).deskewed = true ∧ (prtAt s n).markerOk = false) ∧
    (∃ (s : State) (n : Nat), n < 9 ∧ blockWorks s (rxBit n) = true ∧ rxEn s n = true ∧ n = 8 ∧ rxState s n = pDESKEW
    ∧ (prtAt s n).deskewed = true ∧ (prtAt s n).markerOk = true ∧ isSet s F.SQ_HASH_CTL_VALID = false) :=
  ⟨⟨all9 b0 fun s n => setRxState s n pNOCLOCK, 0, by decide +kernel⟩,
  ⟨st pCLOCK k0, 0, 3500000, by decide +kernel⟩,
  ⟨st pCLOCK k0, 0, 3600000, by decide +kernel⟩,
  ⟨st pCLOCK k1, 0, by decide +kernel⟩,
  ⟨st pEQUALISE ({ k1 with centred := true }), 0, by decide +kernel⟩,
  ⟨st pLOCK k1, 0, 0, List.replicate 65 1, by decide +kernel⟩,
  ⟨lk (st pDESKEW ({ k1 with agree := 2, missing := 3 })), 8, mkCols (mA 0 0), 5, by decide +kernel⟩,
  ⟨lk (st pDESKEW ({ k1 with agree := 2, missing := 3 })), 0, by decide +kernel⟩,
  ⟨lk (st pDESKEW ({ k1 with agree := 2, deskewed := true, markerOk := true })), 0, by decide +kernel⟩,
  ⟨lk (st pDESKEW ({ k1 with agree := 2, deskewed := true })), 0, by decide +kernel⟩,
  ⟨lk (st pDESKEW ({ k1 with agree := 2, deskewed := true, markerOk := true })), 8, by decide +kernel⟩⟩
end ReceiveSidesComeUpByStages

namespace LinkLossesTakeThePortDown
def b0 (g lanes : Nat) : State := (List.range 8).foldl (fun s n => setPrt (wr (wr (wr (wr (wr (wr (wr s F.PRT_CFG_EN n 1)
    F.PRT_CFG_GEN n g) F.PRT_STATUS_STATE n pUP) F.PRT_STATUS_LINK_UP n 1) F.PRT_STATUS_CLK_PRESENT n 1)
    F.PRT_STATUS_LANE_LOCK n 15) F.PRT_CFG_LANES n lanes)
    n {Prt.init with mult := true, freqOk := true, skewLost := true}) live

theorem test_meets_LinkLossesTakeThePortDown :
    (∃ (s : State) (n j : Nat) (units : List Nat) (prev unit : Nat) (bytes : List (Option Nat)), n < 8 ∧ j < 4 ∧
    blockWorks s (21 + n) = true ∧ rxEn s n = true ∧ rd s F.PRT_STATUS_STATE n = pUP ∧ isSet s F.PRT_STATUS_LINK_UP n
    = true ∧ portOpen s n = false ∧ laneLocked s n j = true ∧ breaksLock (rxGen s n) (List.map (laneUnit s n j)
    units) = true ∧ (prtAt s n).skewLost = true ∧ isSet s F.PRT_STATUS_CLK_PRESENT n = true ∧ j ∈ usedLanes s n ∧
    unitOf (rxGen s n) (laneUnit s n j prev) (laneUnit s n j unit) = RxUnit.bad 0 bytes) ∧
    (∃ (s : State) (n j prev unit : Nat) (bytes : List (Option Nat)), n < 8 ∧ j < 4 ∧ blockWorks s (21 + n) = true ∧
    rxEn s n = true ∧ rd s F.PRT_STATUS_STATE n = pUP ∧ isSet s F.PRT_STATUS_LINK_UP n = true ∧ portOpen s n = false
    ∧ laneLocked s n j = true ∧ j ∈ usedLanes s n ∧ unitOf (rxGen s n) (laneUnit s n j prev) (laneUnit s n j unit) =
    RxUnit.bad 1 bytes) :=
  ⟨⟨b0 1 0, 0, 0, List.replicate 66 3, 0, 0, List.map some (payloadBytes (descramble (lastBits (5 / 4)) (3 / 4 % 2 ^
  64))), by decide +kernel⟩,
  ⟨b0 1 0, 0, 0, 0, 2, List.replicate 8 none, by decide +kernel⟩⟩
end LinkLossesTakeThePortDown

namespace PortsHoldSleepWakeAndTestThemselves
def trg0 : TrigPkt := ⟨100100, 5, none, false⟩
def pb (k : Prt) (v : Nat) : State :=
    (List.range 8).foldl (fun s n => setPktPort (setPrt (wr (wr (wr (wr (wr (wr (wr (wr s F.PRT_CFG_EN n 1)
    F.PRT_CFG_GEN n 1) F.PRT_STATUS_STATE n v) F.PRT_STATUS_CLK_PRESENT n 1) F.PRT_STATUS_LANE_LOCK n 1)
    F.PRT_PWR_CFG_WAKE_ON_TRIGGER n 1) F.PRT_PWR_CFG_WAKE_BCN_EN n 1) F.PRT_PWR_CFG_WAKE_BCN_CH n 16) n k)
    n { pktPortAt s n with trigQ := [trg0] }) live
def up (s : State) := (List.range 8).foldl (fun s n => wr s F.PRT_STATUS_LINK_UP n 1) s
def k1 := { Prt.init with mult := true, freqOk := true }
def op (s : State) := { s with frames := (List.range 8).map fun n => { fr0 with port := n, phase := .open, stream := n } }
def bc (s : State) := { s with beacons := [(16, 50, false)] }
def rl (s : State) := wr (wr (wr s F.RLY_CFG_EN 0 1) F.RLY_CFG_EN 1 1) F.RLY_CFG_EN 2 1

theorem test_meets_PortsHoldSleepWakeAndTestThemselves :
    (∃ (s : State) (n : Nat), n < 8 ∧ blockWorks s (21 + n) = true ∧ rxEn s n = true ∧ rd s F.PRT_STATUS_STATE n =
    pUP ∧ relayed s n = false ∧ wokeNow s n = false ∧ portOpen s n = false) ∧
    (∃ (s : State) (n : Nat), n < 8 ∧ blockWorks s (21 + n) = true ∧ rxEn s n = true ∧ rd s F.PRT_STATUS_STATE n =
    pUP ∧ relayed s n = false ∧ wokeNow s n = false ∧ portOpen s n = true) ∧
    (∃ (s : State) (n : Nat), n < 8 ∧ blockWorks s (21 + n) = true ∧ rxEn s n = true ∧ rd s F.PRT_STATUS_STATE n ≠
    pUP ∧ rd s F.PRT_STATUS_STATE n ≠ pHOLD ∧ rd s F.PRT_STATUS_STATE n ≠ pSELFTEST ∧ isSet s F.RLY_CFG_EN (n % 4) =
    false ∧ isSet s F.PRT_STATUS_LINK_UP n = false) ∧
    (∃ (s : State) (n : Nat), n < 8 ∧ blockWorks s (21 + n) = true ∧ rxEn s n = true ∧ (prtAt s n).entry.isSome =
    true ∧ (∀ (e : Entered), (prtAt s n).entered = some e → e.at' ≠ s.ns)) ∧
    (∃ (s : State) (n : Nat), n < 8 ∧ blockWorks s (21 + n) = true ∧ rxEn s n = true ∧ rd s F.PRT_STATUS_STATE n =
    pHOLD ∧ (prtAt s n).entry = none ∧ (prtAt s n).exit = none ∧ (∀ (e : Entered), (prtAt s n).entered = some e →
    e.at' ≠ s.ns) ∧ isSet s F.PRT_PWR_CFG_WAKE_ON_TRIGGER n = true ∧ (∃ p ∈ (pktPortAt s n).trigQ, p.time ≤ s.tb +
    200)) ∧
    (∃ (s : State) (n : Nat) (soft : Bool) (rest : List (Nat × Nat × Bool)), n < 8 ∧ blockWorks s (21 + n) = true ∧
    rxEn s n = true ∧ rd s F.PRT_STATUS_STATE n = pHOLD ∧ (prtAt s n).entry = none ∧ (prtAt s n).exit = none ∧ (∀ (e
    : Entered), (prtAt s n).entered = some e → e.at' ≠ s.ns) ∧ isSet s F.PRT_PWR_CFG_WAKE_BCN_EN n = true ∧ rd s
    F.PRT_PWR_CFG_WAKE_BCN_CH n < 48 ∧ s.beacons = (rd s F.PRT_PWR_CFG_WAKE_BCN_CH n, 50, soft) :: rest) ∧
    (∃ (s : State) (n : Nat), n < 8 ∧ blockWorks s (21 + n) = true ∧ rxEn s n = true ∧ rd s F.PRT_STATUS_STATE n =
    pHOLD ∧ (prtAt s n).exit = some 0) ∧
    (∃ (s : State) (n : Nat), n < 8 ∧ blockWorks s (21 + n) = true ∧ rxEn s n = true ∧ rd s F.PRT_STATUS_STATE n =
    pDEEP ∧ (prtAt s n).exit = some 1) ∧
    (∃ (s : State) (n : Nat), n < 8 ∧ blockWorks s (21 + n) = true ∧ rxEn s n = true ∧ rd s F.PRT_STATUS_STATE n ≠
    pSELFTEST ∧ isSet s F.RLY_CFG_EN (n % 4) = true) ∧
    (∃ (s : State) (n : Nat), n < 8 ∧ blockWorks s (21 + n) = true ∧ rxEn s n = true ∧ rd s F.PRT_STATUS_STATE n =
    pSELFTEST ∧ prbsOn s n = false) :=
  ⟨⟨up (pb k1 pUP), 0, by decide +kernel⟩,
  ⟨op (up (pb k1 pUP)), 0, by decide +kernel⟩,
  ⟨pb k1 pDEEP, 0, by decide +kernel⟩,
  ⟨op (up (pb ({ k1 with entry := some 0 }) pUP)), 0, by decide +kernel⟩,
  ⟨up (pb k1 pHOLD), 0, by decide +kernel⟩,
  ⟨bc (up (pb k1 pHOLD)), 0, false, [], by decide +kernel⟩,
  ⟨up (pb ({ k1 with exit := some 0 }) pHOLD), 0, by decide +kernel⟩,
  ⟨pb ({ k1 with exit := some 1 }) pDEEP, 0, by decide +kernel⟩,
  ⟨rl (pb k1 pCLOCK), 0, by decide +kernel⟩,
  ⟨pb k1 pSELFTEST, 0, by decide +kernel⟩⟩
end PortsHoldSleepWakeAndTestThemselves

namespace CheckersEqualisersAndInjectionAct
def pb (v : Nat) (k : Prt) : State := (List.range 9).foldl (fun s n => setPrt (rxSet (if n =
    8 then (wr (setRxUp (setRxState (setRxClk s n 1) n v) n (if v = pUP then 1 else 0)) F.TWN_CTL_EN 0 1)
    else (wr (wr (wr (wr (wr (setRxUp (setRxState (setRxClk s n 1) n v) n (if v = pUP then 1 else 0)) F.PRT_CFG_EN n 1)
    F.PRT_CFG_GEN n 1) F.PRT_UL_CFG_EN n 1) F.PRT_EQ_CFG_FOM_ALARM n 100) F.PRT_UL_CFG_INJ_EXP n 5))
    n F.PRT_EQ_CFG_PHASE_AUTO F.TWN_RX_CFG_PHASE_AUTO 1) n k) live
def ck (c : Checker) : Prt :=
    { Prt.init with mult := true, freqOk := true, centred := true, checkers := (List.range 4).map fun j => (j, c) }
def on (s : State) : State :=
    (List.range 9).foldl (fun s n => (List.range 4).foldl (fun s j => laneSet s n j F.PRT_LANE_PRBS_CFG_EN F.TWN_RX_PRBS_CFG_EN 1) s) s
def ckL : Checker := ⟨3, 7, 64, true, List.replicate 40 true⟩
def ry (src : Nat) (s : State) : State := (List.range 4).foldl (fun s k => wr (wr (wr (wr s F.RLY_CFG_EN k 1)
    F.RLY_CFG_SRC k src) F.RLY_INJ_LANES k 5) F.RLY_INJ_EXP k 6) s
def ru (s : State) : State := (List.range 4).foldl (fun s k => wr s F.RLY_STATUS_STATE k 2) s

theorem test_meets_CheckersEqualisersAndInjectionAct :
    (∃ (s : State) (n j : Nat), n < 9 ∧ j < 4 ∧ blockWorks s (rxBit n) = true ∧ rxEn s n = true ∧ checkerOn s n j =
    true ∧ (prtAt s n).mult = true ∧ j ∈ usedLanes s n ∧ lanesSample s n = true ∧ phaseAuto s n = true ∧ n < 8 ∧
    blockWorks s (21 + n) = true ∧ ulRunning s n = true ∧ 4 ≤ rd s F.PRT_UL_CFG_INJ_EXP n ∧ rd s F.PRT_UL_CFG_INJ_EXP
    n ≤ 40) ∧
    (∃ (s : State) (n j fom : Nat), n < 9 ∧ j < 4 ∧ blockWorks s (rxBit n) = true ∧ fom < 256 ∧ rxUp s n = true ∧
    rxState s n = pUP ∧ j ∈ usedLanes s n) ∧
    (∃ (s : State) (k : Nat), k < 4 ∧ blockWorks s 11 = true ∧ rd s F.RLY_CFG_SRC k = 0) ∧
    (∃ (s : State) (k : Nat), k < 4 ∧ blockWorks s 11 = true ∧ rd s F.RLY_CFG_SRC k ≠ 0 ∧ rd s F.RLY_STATUS_STATE k =
    2 ∧ 4 ≤ rd s F.RLY_INJ_EXP k ∧ rd s F.RLY_INJ_EXP k ≤ 40) :=
  ⟨⟨on (pb pTEST (ck Checker.init)), 0, 0, by decide +kernel⟩,
  ⟨pb pUP (ck ckL), 0, 0, 0, by decide +kernel⟩,
  ⟨live, 0, by decide +kernel⟩,
  ⟨ru (ry 1 live), 0, by decide +kernel⟩⟩
end CheckersEqualisersAndInjectionAct

namespace FramesOpenTakeLinesAndClose
def enc1 (bl : List (Nat × Nat)) : List (List Nat) :=
  ([0] :: (bl.foldl (fun (a : List (List Nat) × Nat) b => let w := scramble a.2 b.2; (a.1 ++ [[b.1 + 4*w]], lastBits w)) ([], 0)).1)
def colsOf (bs : List Nat) : List (List Nat) := enc1 (packetBlocks bs)
def hdr (dt wc vc : Nat) : Nat := let d := dt + 256*vc + 65536*wc; let e := eccOf eccCode 48 d; d + 2^48*e + 2^54*((parityOf 48 d) ^^ (parityOf 6 e)).toNat
def hb (dt wc vc : Nat) : List Nat := toBytes 8 (hdr dt wc vc)
def pay : List Nat := [1,2,3,4,5,6,7,8,9,10]
def lng (bad : Nat) : List Nat := hb 0x2A 10 1 ++ pay ++ toBytes 2 (crcCsi pay + bad)
def fill8 (b : List Nat) := b ++ List.replicate ((8 - b.length % 8) % 8) 0
def cutCols := enc1 ((packetBlocks ((lng 0).take 16)) ++ packetBlocks (hb 0 9 1))
def base : State := ready (region live 2 7)
def b0 : State := [1].foldl (fun s n => wr (wr (wr (wr (wr s F.PRT_CFG_LANES n 0) F.PRT_CFG_EN n 1) F.PRT_CFG_GEN n 1)
    F.PRT_STATUS_STATE n pUP) F.PRT_STATUS_LINK_UP n 1) base
def b1 : State := wr (wr (wr (wr (wr (wr (wr b0 F.PKT_MAP_EN 2 1) F.PKT_MAP_PORT 2 1) F.PKT_MAP_VC 2 1)
    F.PKT_MAP_DT 2 0x2A) F.PKT_GEOM_WIDTH 2 10) F.PKT_GEOM_HEIGHT 2 4) F.PKT_SEQ_VALUE 2 8
def fo : Frame :=
    { fr0 with stream := 2, seq := 7, phase := .open, port := 1, vc := 1, width := 10, height := 4, lineBytes := 10, lines := 2, slots := 2, tbFs := 90000, learn := false }
def o1 : State := wr { b1 with frames := [fo] } F.PKT_WDOG_NS 2 20000

theorem test_meets_FramesOpenTakeLinesAndClose :
    (∃ (s : State) (n k : Nat) (cols : List (List Nat)) (bytes : List Nat) (p : PktHeader), n < 8 ∧ k < 64 ∧
    blockWorks s 10 = true ∧ portDelivers s n = true ∧ Brings s n cols bytes ∧ decodeHdr s n (hdrOf s n bytes) = some
    p ∧ p.corrected = false ∧ streamsOf s n p.vc = [k] ∧ Unwatched s k ∧ p.dt = 0 ∧ openFrame s k = none ∧ rd s
    F.PKT_SCFG_GATING k = 0 ∧ rd s F.PKT_SCFG_TRIG_SRC k = 0 ∧ (streamAt s k).trigQ = [] ∧ (∀ (u : Nat), (streamAt s
    k).lastFs = some u → u + 500 ≤ s.ns) ∧ s.tagQ.length < 4096) ∧
    (∃ (s : State) (n k : Nat) (cols : List (List Nat)) (bytes : List Nat) (p : PktHeader), n < 8 ∧ k < 64 ∧
    blockWorks s 10 = true ∧ portDelivers s n = true ∧ Brings s n cols bytes ∧ decodeHdr s n (hdrOf s n bytes) = some
    p ∧ p.corrected = false ∧ streamsOf s n p.vc = [k] ∧ Unwatched s k ∧ p.dt = 0 ∧ openFrame s k = none ∧ rd s
    F.PKT_SCFG_GATING k = 2) ∧
    (∃ (s : State) (n k : Nat) (cols : List (List Nat)) (bytes : List Nat) (p : PktHeader) (f : Frame), n < 8 ∧ k <
    64 ∧ blockWorks s 10 = true ∧ portDelivers s n = true ∧ Brings s n cols bytes ∧ decodeHdr s n (hdrOf s n bytes) =
    some p ∧ p.corrected = false ∧ streamsOf s n p.vc = [k] ∧ Unwatched s k ∧ p.dt = 1 ∧ openFrame s k = some f ∧
    f.tent = none ∧ (rd s F.PKT_WDOG_NS k ≠ 0 → s.tb ≤ f.tbFs + rd s F.PKT_WDOG_NS k)) ∧
    (∃ (s : State) (n k : Nat) (cols : List (List Nat)) (bytes : List Nat) (p : PktHeader), n < 8 ∧ k < 64 ∧
    blockWorks s 10 = true ∧ portDelivers s n = true ∧ Brings s n cols bytes ∧ decodeHdr s n (hdrOf s n bytes) = some
    p ∧ p.corrected = false ∧ streamsOf s n p.vc = [k] ∧ Unwatched s k ∧ p.dt = 1 ∧ openFrame s k = none ∧ (streamAt
    s k).skipped = false) ∧
    (∃ (s : State) (n k : Nat) (cols : List (List Nat)) (bytes : List Nat) (p : PktHeader) (f : Frame), n < 8 ∧ k <
    64 ∧ blockWorks s 10 = true ∧ portDelivers s n = true ∧ Brings s n cols bytes ∧ decodeHdr s n (hdrOf s n bytes) =
    some p ∧ p.corrected = false ∧ streamsOf s n p.vc = [k] ∧ Unwatched s k ∧ 16 ≤ p.dt ∧ dtFormat p.dt ≠ none ∧
    isSet s F.PKT_PORT_CFG_REPLY_EN n = false ∧ rd s F.PKT_MAP_DT k = p.dt ∧ openFrame s k = some f ∧ f.tent = none ∧
    (rd s F.PKT_WDOG_NS k ≠ 0 → s.tb ≤ f.tbFs + rd s F.PKT_WDOG_NS k) ∧ f.learn = false ∧ p.wc = f.lineBytes ∧
    f.lines < f.height ∧ isSet s F.MEM_SREG_CFG_EN k = true ∧ memReady s = true ∧ f.lines * f.lineBytes + p.wc ≤ 2 ^
    rd s F.MEM_SREG_CFG_SLOT_LOG2 k ∧ s.storeBuf + p.wc ≤ 2097152 ∧ slotAddr s k f.seq + f.lines * f.lineBytes + p.wc
    ≤ rd s F.MEM_USABLE_VALUE) ∧
    (∃ (s : State) (n k : Nat) (cols : List (List Nat)) (bytes : List Nat) (p : PktHeader), n < 8 ∧ k < 64 ∧
    blockWorks s 10 = true ∧ portDelivers s n = true ∧ Brings s n cols bytes ∧ decodeHdr s n (hdrOf s n bytes) = some
    p ∧ p.corrected = false ∧ streamsOf s n p.vc = [k] ∧ Unwatched s k ∧ 4 ≤ p.dt ∧ p.dt < 8) ∧
    (∃ (s : State) (n k : Nat) (cols : List (List Nat)) (bytes : List Nat), n < 8 ∧ k < 64 ∧ blockWorks s 10 = true ∧
    portDelivers s n = true ∧ Brings s n cols bytes ∧ decodeHdr s n (hdrOf s n bytes) = none) ∧
    (∃ (s : State) (n k : Nat) (cols : List (List Nat)) (bytes : List (Option Nat)), n < 8 ∧ k < 64 ∧ blockWorks s 10
    = true ∧ portDelivers s n = true ∧ loopRelay s n = none ∧ (takeColumns s n cols).errs = [] ∧ arrival s n
    (takeColumns s n cols) = Arrival.cut bytes ∧ portOpen s n = false) ∧
    (∃ (s : State) (n k : Nat) (f : Frame), n < 8 ∧ k < 64 ∧ blockWorks s 10 = true ∧ portDelivers s n = true ∧
    openFrame s k = some f ∧ f.tent = none ∧ PipelinesOff s ∧ rd s F.PKT_WDOG_NS k ≠ 0 ∧ f.tbFs + rd s F.PKT_WDOG_NS
    k < s.tb) :=
  ⟨⟨b1, 1, 2, colsOf (hb 0 9 1), fill8 (hb 0 9 1), { dt := 0, vc := 1, wc := 9, corrected := false },
  by unfold Brings Unwatched PipelinesOff; decide +kernel⟩,
  ⟨wr b1 F.PKT_SCFG_GATING 2 2, 1, 2, colsOf (hb 0 9 1), fill8 (hb 0 9 1),
  { dt := 0, vc := 1, wc := 9, corrected := false }, by unfold Brings Unwatched PipelinesOff; decide +kernel⟩,
  ⟨o1, 1, 2, colsOf (hb 1 9 1), fill8 (hb 1 9 1), { dt := 1, vc := 1, wc := 9, corrected := false }, fo,
  by unfold Brings Unwatched PipelinesOff; decide +kernel⟩,
  ⟨b1, 1, 2, colsOf (hb 1 9 1), fill8 (hb 1 9 1), { dt := 1, vc := 1, wc := 9, corrected := false },
  by unfold Brings Unwatched PipelinesOff; decide +kernel⟩,
  ⟨o1, 1, 2, colsOf (lng 0), fill8 (lng 0), { dt := 42, vc := 1, wc := 10, corrected := false }, fo,
  by unfold Brings Unwatched PipelinesOff; decide +kernel⟩,
  ⟨b1, 1, 2, colsOf (hb 5 9 1), fill8 (hb 5 9 1), { dt := 5, vc := 1, wc := 9, corrected := false },
  by unfold Brings Unwatched PipelinesOff; decide +kernel⟩,
  ⟨b1, 1, 1, colsOf [1, 2, 3, 4, 5, 6, 7, 9], fill8 [1, 2, 3, 4, 5, 6, 7, 9], by unfold Brings; decide +kernel⟩,
  ⟨b1, 1, 1, cutCols, List.map some (List.take 16 (fill8 (lng 0))), by decide +kernel⟩,
  ⟨wr o1 F.PKT_WDOG_NS 2 5000, 1, 2, fo, by unfold PipelinesOff; decide +kernel⟩⟩
end FramesOpenTakeLinesAndClose

namespace TagsUplinksAndTheMapAct
def fc : Frame := { fr0 with stream := 2, seq := 7, phase := .closed, closedAt := 90000, tbFs := 80000 }
def fq : Frame := { fc with phase := .queued }
def pt (s : State) (k : PktPort) : State := (List.range 8).foldl (fun s n => setPktPort s n k) s
def up (s : State) : State := (List.range 8).foldl (fun s n => wr (wr (wr (wr s F.PRT_CFG_EN n 1) F.PRT_UL_CFG_EN n 1)
    F.PKT_PORT_TRIG_EN n 1) F.PKT_PORT_TRIG_BCN_CH n 7) s
def p0 := pktPortAt live 0

theorem test_meets_TagsUplinksAndTheMapAct :
    (∃ (s : State) (k : Nat) (f : Frame), blockWorks s 10 = true ∧ k < 64 ∧ ((List.filter (fun f => f.stream == k &&
    canFinalise s f) s.frames).getLast? = some f) ∧ s.tagQ.length < 4096) ∧
    (∃ (s : State) (k q : Nat) (rest : List (Nat × Nat)) (f : Frame), blockWorks s 10 = true ∧ k < 64 ∧ s.tagQ = (k,
    q) :: rest ∧ s.tagNext ≤ s.ns ∧ frameAt s k q = some f ∧ gateOn s k = false ∧ isSet s F.DMA_SDLV_CFG_EN k = false
    ∧ burstState s k ≠ 2 ∧ (∀ c < 8, (coreAt s c).recipe = none)) ∧
    (∃ (s : State) (n : Nat) (p : TrigPkt), blockWorks s 10 = true ∧ n < 8 ∧ (pktPortAt s n).trigQ = [p] ∧ p.time +
    24 ≤ s.tb ∧ ownUplink s n = true) ∧
    (∃ (s : State) (n k port vc dt : Nat), blockWorks s 10 = true ∧ n < 8 ∧ isSet s F.PKT_UL_TXCMD_TX_BUSY n = false
    ∧ rd s F.PKT_UL_TXBUF_DATA (65 * n) / 65536 % 65536 ≤ 256 ∧ isSet s F.PKT_PORT_CFG_TWIN_SRC n = false ∧ k < 64 ∧
    autoOwned s k = false ∧ isSet s F.PKT_MAP_EN k = false ∧ port < 8 ∧ vc < 32 ∧ dt < 64 ∧ dtFormat dt = none) ∧
    (∃ (s : State) (n t0 : Nat), blockWorks s 10 = true ∧ n < 8 ∧ isSet s F.PKT_UL_TXCMD_TX_BUSY n = true ∧ ulRunning
    s n = true ∧ isSet s F.PRT_UL_CFG_PRBS_EN n = false ∧ (pktPortAt s n).ctl = some t0 ∧ ulCtlEnd s n t0 ≤ s.tb ∧
    duePacket s n = none) ∧
    (∃ (s : State) (n ch : Nat) (soft : Bool) (rest : List (Nat × Nat × Bool)), blockWorks s 10 = true ∧ n < 8 ∧ ch <
    48 ∧ s.beacons = (ch, 54, soft) :: rest ∧ isSet s F.PKT_PORT_TRIG_EN n = true ∧ rd s F.PKT_PORT_TRIG_BCN_CH n =
    ch ∧ ownUplink s n = true ∧ ulRunning s n = true ∧ isSet s F.PRT_UL_CFG_PRBS_EN n = false ∧ (pktPortAt s
    n).trigQ.length < 8) ∧
    (∃ (s : State) (k port vc dt : Nat), blockWorks s 10 = true ∧ k < 64 ∧ autoOwned s k = false ∧ isSet s
    F.PKT_MAP_EN k = false ∧ port < 8 ∧ vc < 32 ∧ dt < 64 ∧ dtFormat dt ≠ none ∧ mapRefused s k port vc dt = false) :=
  ⟨⟨{ live with frames := [fc] }, 2, fc, by decide +kernel⟩,
  ⟨{ live with frames := [fq], tagQ := [(2, 7)] }, 2, 7, [], fq, by decide +kernel⟩,
  ⟨up (pt live ({ p0 with trigQ := [{ time := 90000, id := 6, fcg := none, late := true }] })), 0,
  { time := 90000, id := 6, fcg := none, late := true }, by decide +kernel⟩,
  ⟨live, 0, 0, 0, 0, 0, by decide +kernel⟩,
  ⟨List.foldl (fun s n => wr s F.PKT_UL_TXCMD_TX_BUSY n 1) (up (pt live ({ p0 with ctl := some 90000 }))) (List.range
  8), 0, 90000, by decide +kernel⟩,
  ⟨{ up live with beacons := [(7, 54, false), (7, 54, true)] }, 0, 7, false, [(7, 54, true)], by decide +kernel⟩,
  ⟨wr (wr live F.PKT_GEOM_WIDTH 2 16) F.PKT_GEOM_HEIGHT 2 16, 2, 0, 0, 42, by decide +kernel⟩⟩
end TagsUplinksAndTheMapAct

namespace PipelinesTakeProcessAndEndJobs
def fx : Frame := { fr0 with stream := 2, seq := 7, width := 16, height := 16, slots := 16, lines := 16, lineBytes := 16 }
def cfg (mode : Nat) : State :=
  let s := ready (region live 2 7)
  let s := wr (wr (wr (wr s F.PKT_MAP_EN 2 1) F.PKT_MAP_DT 2 0x2A) F.PKT_GEOM_WIDTH 2 16) F.PKT_GEOM_HEIGHT 2 16
  let i := ctxI 0 5
  let s := wr (wr (wr s F.ISP_CTX_CFG_EN i 1) F.ISP_CTX_SRC_STREAM i 2) F.ISP_CTX_MAX_AGE_NS i 50000
  let s := wr (wr (wr s F.ISP_SUBMIT_CTX 0 5) F.ISP_SUBMIT_SEQ_SEQ 0 7) F.ISP_CTL_MODE 0 mode
  { s with frames := [fx] }
def c2 := cfg ispSHARED
def c1 := cfg 1

theorem test_meets_PipelinesTakeProcessAndEndJobs :
    (∃ (s : State) (p val c : Nat), p < 2 ∧ blockWorks s (12 + p) = true ∧ rd s F.ISP_CTL_MODE p = ispOFF ∧ (ispAt s
    p).jobs = [] ∧ val % 4 < 3 ∧ val % 4 = ispOFF ∧ val / 2 ^ 8 % 2 ^ 6 = rd s F.ISP_CTL_INLINE_CTX p ∧ isSet s
    F.ISP_SUBMIT_PENDING p = false ∧ isSet s F.ISP_CTX_CFG_EN (ctxI p (rd s F.ISP_SUBMIT_CTX p)) = false ∧ c < 64 ∧
    (∀ j ∈ (ispAt s p).jobs, j.ctx ≠ c)) ∧
    (∃ (s : State) (p val : Nat) (f : Frame), p < 2 ∧ blockWorks s (12 + p) = true ∧ rd s F.ISP_CTL_MODE p ≠ ispOFF ∧
    val % 4 ≠ ispOFF ∧ val % 4 ≠ rd s F.ISP_CTL_MODE p ∧ isSet s F.ISP_SUBMIT_PENDING p = false ∧ isSet s
    F.ISP_CTX_CFG_EN (ctxI p (rd s F.ISP_SUBMIT_CTX p)) = true ∧ ispValidate s p (rd s F.ISP_SUBMIT_CTX p) (rd s
    F.ISP_CTX_SRC_STREAM (ctxI p (rd s F.ISP_SUBMIT_CTX p))) = 0 ∧ frameAt s (rd s F.ISP_CTX_SRC_STREAM (ctxI p (rd s
    F.ISP_SUBMIT_CTX p))) (rd s F.ISP_SUBMIT_SEQ_SEQ p) = some f ∧ f.phase ≠ Phase.open ∧ held s (rd s
    F.ISP_CTX_SRC_STREAM (ctxI p (rd s F.ISP_SUBMIT_CTX p))) (rd s F.ISP_SUBMIT_SEQ_SEQ p) = true ∧ rd s
    F.ISP_CTL_MODE p = ispSHARED ∧ mergeForm s p (rd s F.ISP_SUBMIT_CTX p) = 0 ∧ (ispAt s p).jobs = []) ∧
    (∃ (s : State) (p : Nat), p < 2 ∧ blockWorks s (12 + p) = true ∧ isSet s F.ISP_SUBMIT_PENDING p = true) ∧
    (∃ (s : State) (p : Nat), p < 2 ∧ blockWorks s (12 + p) = true ∧ isSet s F.ISP_SUBMIT_PENDING p = false ∧ isSet s
    F.ISP_CTX_CFG_EN (ctxI p (rd s F.ISP_SUBMIT_CTX p)) = true ∧ ispValidate s p (rd s F.ISP_SUBMIT_CTX p) (rd s
    F.ISP_CTX_SRC_STREAM (ctxI p (rd s F.ISP_SUBMIT_CTX p))) = 0 ∧ frameAt s (rd s F.ISP_CTX_SRC_STREAM (ctxI p (rd s
    F.ISP_SUBMIT_CTX p))) (rd s F.ISP_SUBMIT_SEQ_SEQ p) = none) ∧
    (∃ (s : State) (p : Nat) (f : Frame), p < 2 ∧ blockWorks s (12 + p) = true ∧ isSet s F.ISP_SUBMIT_PENDING p =
    false ∧ isSet s F.ISP_CTX_CFG_EN (ctxI p (rd s F.ISP_SUBMIT_CTX p)) = true ∧ ispValidate s p (rd s
    F.ISP_SUBMIT_CTX p) (rd s F.ISP_CTX_SRC_STREAM (ctxI p (rd s F.ISP_SUBMIT_CTX p))) = 0 ∧ frameAt s (rd s
    F.ISP_CTX_SRC_STREAM (ctxI p (rd s F.ISP_SUBMIT_CTX p))) (rd s F.ISP_SUBMIT_SEQ_SEQ p) = some f ∧ f.phase ≠
    Phase.open ∧ held s (rd s F.ISP_CTX_SRC_STREAM (ctxI p (rd s F.ISP_SUBMIT_CTX p))) (rd s F.ISP_SUBMIT_SEQ_SEQ p)
    = true ∧ rd s F.ISP_CTL_MODE p ≠ ispSHARED) :=
  ⟨⟨live, 0, 0, 0, by decide +kernel⟩,
  ⟨c2, 0, 1, fx, by decide +kernel⟩,
  ⟨wr c2 F.ISP_SUBMIT_PENDING 0 1, 0, by decide +kernel⟩,
  ⟨{ c2 with frames := [] }, 0, by decide +kernel⟩,
  ⟨c1, 0, fx, by decide +kernel⟩⟩
end PipelinesTakeProcessAndEndJobs

namespace PodRunsBeginLayersAndEnd
def fixC (b : List Nat) : List Nat := b.take 0x3E ++ toBytes 2 (crc16 (b.take 0x3E))
def endR := fixC (mkB 64 [])
def gap (v : Nat) :=
    fixC (mkB 64 [(0,3),(1,v),(2,1),(4,1),(6,1),(8,1),(10,1),(0x19,127),(0x1A,1),(0x21,0x10),(0x27,0x40),(0x2F,0x80)])
def fx : Frame := { fr0 with stream := 2, seq := 7 }
def base (rec : List Nat) : State :=
    { (spmPut (spmPut (ready (region live 2 7)) 0x2000 rec) 0x2040 endR) with frames := [fx] }
def run : PodRun := ⟨9, 0x2000, 1, 0, 2, some 7, 1, none, false, 0, [], 0, none, none, none, [], none⟩
def runB (v : Nat) : PodRun := { run with begun := true, record := gap v }
def st (rec : List Nat) (r : PodRun) : State := { base rec with podRuns := [r] }
def sub (m : Nat) : State := wr (wr (wr live F.POD_SUB_LIST_VALUE 0 0x2000) F.POD_SUB_RUN_VALUE 0 (m + 2 * 65536))
    F.POD_SUB_SEQ_VALUE 0 (2^64-1)

set_option maxRecDepth 100000 in
theorem test_meets_PodRunsBeginLayersAndEnd :
    (∃ (s : State) (k : Nat), blockWorks s 14 = true ∧ (∀ i < 8, isSet s F.POD_VDT_CFG_EN i = false) ∧ rd s
    F.POD_SUB_LIST_VALUE % 64 = 0 ∧ rd s F.POD_SUB_LIST_VALUE < 8388608 ∧ rd s F.POD_SUB_RUN_VALUE / 2 ^ 8 % 2 ^ 3 ≤
    4 ∧ rd s F.POD_SUB_RUN_VALUE / 2 ^ 11 % 2 ^ 5 = 0 ∧ rd s F.POD_SUB_RUN_VALUE < 4194304 ∧ rd s F.POD_SUB_SEQ_VALUE
    = 2 ^ 64 - 1 ∧ rd s F.POD_SUB_RUN_VALUE % 256 = 0 ∧ k < 8) ∧
    (∃ (s : State), blockWorks s 14 = true ∧ (∀ i < 8, isSet s F.POD_VDT_CFG_EN i = false) ∧ rd s
    F.POD_SUB_LIST_VALUE % 64 = 0 ∧ rd s F.POD_SUB_LIST_VALUE < 8388608 ∧ rd s F.POD_SUB_RUN_VALUE / 2 ^ 8 % 2 ^ 3 ≤
    4 ∧ rd s F.POD_SUB_RUN_VALUE / 2 ^ 11 % 2 ^ 5 = 0 ∧ rd s F.POD_SUB_RUN_VALUE < 4194304 ∧ rd s F.POD_SUB_SEQ_VALUE
    = 2 ^ 64 - 1 ∧ rd s F.POD_SUB_RUN_VALUE % 256 ≠ 0 ∧ domUp s 20 = false) ∧
    (∃ (s : State), blockWorks s 14 = true ∧ (∀ i < 8, isSet s F.POD_VDT_CFG_EN i = false) ∧ rd s
    F.POD_SUB_LIST_VALUE % 64 = 0 ∧ rd s F.POD_SUB_LIST_VALUE < 8388608 ∧ rd s F.POD_SUB_RUN_VALUE / 2 ^ 8 % 2 ^ 3 ≤
    4 ∧ rd s F.POD_SUB_RUN_VALUE / 2 ^ 11 % 2 ^ 5 = 0 ∧ rd s F.POD_SUB_RUN_VALUE < 4194304 ∧ rd s F.POD_SUB_SEQ_VALUE
    = 2 ^ 64 - 1 ∧ rd s F.POD_SUB_RUN_VALUE % 256 ≠ 0 ∧ domUp s 20 = true ∧ (∀ k ∈ podsOf (rd s F.POD_SUB_RUN_VALUE %
    256), domUp s (podDomain k) = true) ∧ s.podRuns = []) ∧
    (∃ (s : State) (r : PodRun), blockWorks s 14 = true ∧ (∀ i < 8, isSet s F.POD_VDT_CFG_EN i = false) ∧ s.podRuns =
    [r] ∧ r.region = none ∧ r.verdict = none ∧ r.ended = none ∧ gateOn s r.stream = false ∧ canBegin s r = true ∧
    r.layer = 0 ∧ r.list + 64 ≤ 8388608 ∧ (Layer.parse (spmBytes s r.list 64)).checkOk = false) ∧
    (∃ (s : State) (r : PodRun), blockWorks s 14 = true ∧ (∀ i < 8, isSet s F.POD_VDT_CFG_EN i = false) ∧ s.podRuns =
    [r] ∧ r.region = none ∧ r.verdict = none ∧ r.ended = none ∧ gateOn s r.stream = false ∧ canBegin s r = true ∧
    r.layer = 0 ∧ r.list + 64 ≤ 8388608 ∧ (Layer.parse (spmBytes s r.list 64)).checkOk = true ∧ (Layer.parse
    (spmBytes s r.list 64)).kind = kEND) ∧
    (∃ (s : State) (r : PodRun), blockWorks s 14 = true ∧ (∀ i < 8, isSet s F.POD_VDT_CFG_EN i = false) ∧ s.podRuns =
    [r] ∧ r.region = none ∧ r.verdict = none ∧ r.ended = none ∧ gateOn s r.stream = false ∧ canBegin s r = true ∧
    r.layer = 0 ∧ r.list + 64 ≤ 8388608 ∧ (Layer.parse (spmBytes s r.list 64)).checkOk = true ∧ (Layer.parse
    (spmBytes s r.list 64)).kind ≠ kEND ∧ layerCheck s r (r.seq.getD 0) (Layer.parse (spmBytes s r.list 64)) = 0) ∧
    (∃ (s : State) (r : PodRun), blockWorks s 14 = true ∧ (∀ i < 8, isSet s F.POD_VDT_CFG_EN i = false) ∧ s.podRuns =
    [r] ∧ r.region = none ∧ r.verdict = none ∧ r.ended = none ∧ gateOn s r.stream = false ∧ r.begun = true ∧
    (Layer.parse r.record).kind ≠ kFRAME ∧ spaceOf (Layer.parse r.record).outAddr = 2 ∧ r.list + 64 * (r.layer + 1) +
    64 ≤ 8388608 ∧ (Layer.parse (spmBytes s (r.list + 64 * (r.layer + 1)) 64)).checkOk = true ∧ (Layer.parse
    (spmBytes s (r.list + 64 * (r.layer + 1)) 64)).kind = kEND ∧ (Layer.parse r.record).verdict = false) ∧
    (∃ (s : State) (r : PodRun) (q : Nat), blockWorks s 14 = true ∧ (∀ i < 8, isSet s F.POD_VDT_CFG_EN i = false) ∧
    s.podRuns = [r] ∧ r.region = none ∧ r.verdict = none ∧ r.ended = none ∧ gateOn s r.stream = false ∧ r.begun =
    true ∧ (Layer.parse r.record).kind ≠ kFRAME ∧ spaceOf (Layer.parse r.record).outAddr = 2 ∧ r.list + 64 * (r.layer
    + 1) + 64 ≤ 8388608 ∧ (Layer.parse (spmBytes s (r.list + 64 * (r.layer + 1)) 64)).checkOk = true ∧ (Layer.parse
    (spmBytes s (r.list + 64 * (r.layer + 1)) 64)).kind = kEND ∧ (Layer.parse r.record).verdict = true ∧ r.seq = some
    q) :=
  ⟨⟨sub 0, 0, by decide +kernel⟩,
  ⟨setGood (sub 3) 20 false, by decide +kernel⟩,
  ⟨sub 3, by decide +kernel⟩,
  ⟨st (mkB 64 []) run, run, by decide +kernel⟩,
  ⟨st endR run, run, by decide +kernel⟩,
  ⟨st (gap 1) run, run, by decide +kernel⟩,
  ⟨st (gap 1) (runB 1), runB 1, by decide +kernel⟩,
  ⟨st (gap 1) (runB 129), runB 129, 7, by decide +kernel⟩⟩
end PodRunsBeginLayersAndEnd

namespace GatesTakeTheDeadlineOutcome
def fx : Frame := { fr0 with stream := 2, seq := 7 }
def g : State := wr (wr live F.POD_GATE_CFG_EN 2 1) F.POD_GATE_DEADLINE_NS 2 1000
def gt : State := { g with frames := [fx], tracked := [⟨2,7,95000,none⟩] }

theorem test_meets_GatesTakeTheDeadlineOutcome :
    (∃ (s : State) (k val : Nat), k < 64 ∧ blockWorks s 14 = true ∧ val.testBit 31 = false ∧ gateOn s k = false ∧
    val.testBit 0 = true ∧ (∀ f ∈ gateFields, f.least ≤ bitsOf val f.lo f.width ∧ bitsOf val f.lo f.width ≤
    f.greatest) ∧ (val.testBit 3 = true → val / 2 ^ 8 % 2 ^ 8 ≠ 0)) ∧
    (∃ (s : State) (k val : Nat), k < 64 ∧ blockWorks s 14 = true ∧ val.testBit 31 = false ∧ gateOn s k = true ∧
    val.testBit 0 = true ∧ (∃ f ∈ gateFields, bitsOf val f.lo f.width ≠ rd s f k)) ∧
    (∃ (s : State) (k val : Nat), k < 64 ∧ blockWorks s 14 = true ∧ val.testBit 31 = false ∧ gateOn s k = true ∧
    val.testBit 0 = false ∧ (∀ f ∈ gateFields, bitsOf val f.lo f.width = rd s f k) ∧ (∀ u ∈ s.tracked, u.stream ≠ k)) ∧
    (∃ (s : State) (k : Nat) (u : Tracked) (f : Frame), k < 64 ∧ blockWorks s 14 = true ∧ s.tracked = [u] ∧ u.stream
    = k ∧ u.own = none ∧ frameAt s k u.seq = some f ∧ s.podRuns = [] ∧ (∀ i < 8, isSet s F.POD_VDT_CFG_EN i = false)
    ∧ u.tbFe + rd s F.POD_GATE_DEADLINE_NS k ≤ s.tb) :=
  ⟨⟨live, 0, 1, by decide +kernel⟩,
  ⟨g, 2, 3, by decide +kernel⟩,
  ⟨g, 2, 0, by decide +kernel⟩,
  ⟨gt, 2, { stream := 2, seq := 7, tbFe := 95000, own := none }, fx, by decide +kernel⟩⟩
end GatesTakeTheDeadlineOutcome

namespace MemoryTrainsAndBurstsFreeze
def s0 := live
def s1 := wr (wr live F.MEM_STATUS_STATE 0 1) F.MEM_BURST_CFG_STATE 1 1
def s2 := wr (wr (wr (wr { live with beacons := [(3,48,true)] } F.MEM_BURST_CFG_STATE 1 1) F.MEM_BURST_CFG_END_CH 1 3)
    F.MEM_BURST_POST_VALUE 1 4) F.MEM_BURST_CFG_STATE 2 3

theorem test_meets_MemoryTrainsAndBurstsFreeze :
    (∃ (s : State) (gib k : Nat), blockWorks s 17 = true ∧ rd s F.MEM_STATUS_STATE = 1 ∧ gib ∈ [8, 16, 32, 64] ∧ k <
    64 ∧ burstState s k ≠ 0 ∧ burstState s k = 1 ∧ (∀ f ∈ s.frames, f.stream = k → f.nsFs ≠ s.ns) ∧ (∀ i < 4, isSet s
    F.MEM_FRZ_CFG_EN i = false)) ∧
    (∃ (s : State) (k : Nat), blockWorks s 17 = true ∧ k < 64 ∧ burstState s k = 0) ∧
    (∃ (s : State) (k : Nat), blockWorks s 17 = true ∧ k < 64 ∧ 2 ≤ burstState s k) ∧
    (∃ (s : State) (k ch : Nat) (soft : Bool) (rest : List (Nat × Nat × Bool)), blockWorks s 17 = true ∧ k < 64 ∧ ch
    < 48 ∧ s.beacons = (ch, 48, soft) :: rest ∧ domUp s 22 = true ∧ burstState s k = 1 ∧ (∀ f ∈ s.frames, f.stream =
    k → f.nsFs ≠ s.ns) ∧ rd s F.MEM_BURST_CFG_END_CH k = ch ∧ (∀ j < 64, j ≠ k → rd s F.MEM_BURST_CFG_END_CH j ≠ ch)
    ∧ 0 < rd s F.MEM_BURST_POST_VALUE k) :=
  ⟨⟨s1, 8, 1, by decide +kernel⟩,
  ⟨s0, 0, by decide +kernel⟩,
  ⟨s2, 2, by decide +kernel⟩,
  ⟨s2, 1, 3, true, [], by decide +kernel⟩⟩
end MemoryTrainsAndBurstsFreeze

namespace DmaSubmissionsAndChannelCommandsAct
def mk (l : List (Nat × Nat)) : List Nat := (List.range 64).map fun i => ((l.find? fun e => e.1 == i).map Prod.snd).getD 0
def copyB := mk [(0,1),(2,3),(8,0x10),(15,0x40),(0x10,0x80),(0x17,0x40),(0x18,8),(0x1C,1)]
def d0 : Desc := newDesc 1 copyB none none
def spm0 := (List.range 16).foldl (fun s i => spmPut s (0x10+i) [i+1]) live
def setSub (s : State) (b : List Nat) : State :=
    (List.range 16).foldl (fun s k => wr s F.DMA_SUB_DESC_DATA k (ofBytes ((b.drop (4*k)).take 4))) s
def base := spm0
def s0 := setSub spm0 copyB
def s1 := setSub spm0 (mk [(0,1),(2,77)])
def sd (d : Desc) : State := { base with descs := [d] }

theorem test_meets_DmaSubmissionsAndChannelCommandsAct :
    (∃ (s : State) (mid a : Nat), blockWorks s 16 = true ∧ (dmaAnswer s (newDesc mid (List.flatMap (fun k => toBytes
    4 (rd s F.DMA_SUB_DESC_DATA k)) (List.range 16)) none none) = some a) ∧ a < 256) ∧
    (∃ (s : State) (mid c : Nat), blockWorks s 16 = true ∧ (dmaAnswer s (newDesc mid (List.flatMap (fun k => toBytes
    4 (rd s F.DMA_SUB_DESC_DATA k)) (List.range 16)) none none) = none) ∧ c < 64 ∧ activeDesc s c = none ∧ (∀ d ∈
    s.descs, d.chan ≠ c)) ∧
    (∃ (s : State) (c : Nat), blockWorks s 16 = true ∧ c < 64 ∧ (∃ d ∈ s.descs, d.chan = c)) :=
  ⟨⟨s1, 0, 7, by decide +kernel⟩,
  ⟨s0, 0, 0, by decide +kernel⟩,
  ⟨sd d0, 3, by decide +kernel⟩⟩
end DmaSubmissionsAndChannelCommandsAct

namespace MailboxesSendReceiveAndTimeOut
def bd (s : State) (a b x : Nat) : State := [0,1,2,3].foldl (fun s m => wr (wr (wr s F.MBX_BIND_SENDER m a)
    F.MBX_BIND_RECEIVER m b) F.MBX_BIND_ATTR m x) s
def full (s : State) : State := [0,1,2,3].foldl (fun s m => setMbx (wr (wr s F.MBX_STAT_FULL m 1) F.MBX_TMO_US m 5)
    m ⟨77, 5000⟩) s
def lo (s : State) : State := wr s F.KP_GOOD_DOMAINS 0 (0xFFFFFF - 2^5 - 2^21)

theorem test_meets_MailboxesSendReceiveAndTimeOut :
    (∃ (s : State) (m mid : Nat), m < 64 ∧ blockReach s 3 = true ∧ (∀ i < 8, isSet s F.MBX_PROD_CFG_EN i = false) ∧
    isSender s mid m = true ∧ isSet s F.MBX_STAT_FULL m = false ∧ rd s F.MBX_BIND_RECEIVER m ≠ 24 ∧ (∀ (d : Nat),
    receiverDomain (rd s F.MBX_BIND_RECEIVER m) = some d → domGood s d = true)) ∧
    (∃ (s : State) (m mid d : Nat), m < 64 ∧ blockReach s 3 = true ∧ (∀ i < 8, isSet s F.MBX_PROD_CFG_EN i = false) ∧
    isSender s mid m = true ∧ isSet s F.MBX_STAT_FULL m = false ∧ rd s F.MBX_BIND_RECEIVER m ≠ 24 ∧ receiverDomain
    (rd s F.MBX_BIND_RECEIVER m) = some d ∧ domGood s d = false) ∧
    (∃ (s : State) (m mid : Nat), m < 64 ∧ blockReach s 3 = true ∧ (∀ i < 8, isSet s F.MBX_PROD_CFG_EN i = false) ∧
    isSender s mid m = true ∧ isSet s F.MBX_STAT_FULL m = true ∧ rd s F.MBX_BIND_RECEIVER m ≠ 24 ∧ mbxDue s m = true
    ∧ s.tb < 2 ^ 64 ∧ (∀ c < 8, ∀ (d : Nat), (coreAt s c).stall ≠ Stall.syncSend m d)) ∧
    (∃ (s : State) (m mid val : Nat), m < 64 ∧ blockReach s 3 = true ∧ (∀ i < 8, isSet s F.MBX_PROD_CFG_EN i = false)
    ∧ isOpen mid = false ∧ isSender s mid m = false ∧ (F.MBX_BIND_SENDER.bits val ≠ rd s F.MBX_BIND_SENDER m ∨
    F.MBX_BIND_RECEIVER.bits val ≠ rd s F.MBX_BIND_RECEIVER m ∨ F.MBX_BIND_ATTR.bits val ≠ rd s F.MBX_BIND_ATTR m) ∧
    isSet s F.KL_LOCKS_MBX = false ∧ ruler mid = true ∧ bindBad s m (F.MBX_BIND_SENDER.bits val)
    (F.MBX_BIND_RECEIVER.bits val) (F.MBX_BIND_ATTR.bits val) = false) ∧
    (∃ (s : State) (m mid : Nat), m < 64 ∧ blockReach s 3 = true ∧ (∀ i < 8, isSet s F.MBX_PROD_CFG_EN i = false) ∧
    isReceiver s mid m = true ∧ isSet s F.MBX_STAT_FULL m = true ∧ rd s F.MBX_BIND_SENDER m ≠ 24) ∧
    (∃ (s : State) (m mid : Nat), m < 64 ∧ blockReach s 3 = true ∧ (∀ i < 8, isSet s F.MBX_PROD_CFG_EN i = false) ∧
    isReceiver s mid m = true ∧ isSet s F.MBX_STAT_FULL m = false) ∧
    (∃ (s : State) (m mid val : Nat), m < 64 ∧ blockReach s 3 = true ∧ (∀ i < 8, isSet s F.MBX_PROD_CFG_EN i = false)
    ∧ (F.MBX_BIND_SENDER.bits val ≠ rd s F.MBX_BIND_SENDER m ∨ F.MBX_BIND_RECEIVER.bits val ≠ rd s
    F.MBX_BIND_RECEIVER m ∨ F.MBX_BIND_ATTR.bits val ≠ rd s F.MBX_BIND_ATTR m) ∧ (isSet s F.KL_LOCKS_MBX = true ∨
    ruler mid = false)) :=
  ⟨⟨bd live 16 1 0, 0, 16, by decide +kernel⟩,
  ⟨lo (bd live 16 1 0), 0, 16, 5, by decide +kernel⟩,
  ⟨full (bd live 16 1 0), 0, 16, by decide +kernel, by decide +kernel, by decide +kernel, by decide +kernel,
  by decide +kernel, by decide +kernel, by decide +kernel, by decide +kernel,
  fun c hc d => noSync ((by decide +kernel : ∀ c < 8, isSync (coreAt (full (bd live 16 1 0)) c).stall = false) c hc) _ d⟩,
  ⟨live, 0, 0, 1, by decide +kernel⟩,
  ⟨full (bd live 16 1 0), 0, 1, by decide +kernel⟩,
  ⟨bd live 16 1 0, 0, 1, by decide +kernel⟩,
  ⟨live, 0, 2, 0, by decide +kernel⟩⟩
end MailboxesSendReceiveAndTimeOut

namespace BeaconsFireAndAreConsumed
def b0 := live
def cfg (s : State) (ch con : Nat) : State := wr (wr (wr s F.BCN_CH_CFG_EN ch 1) F.BCN_CH_CFG_CONSUMER ch con)
    F.BCN_CH_CFG_ATTR ch 1
def s1 := cfg (cfg b0 0 51) 3 53
def s2 : State := { wr (cfg b0 3 51) F.BCN_WAKE_DOMAINS 3 0x00F0F0 with beacons := [(3,51,true)] }
def s3 : State := { cfg b0 3 52 with beacons := [(3,52,true)], keepIrq := true }
def s4 : State := { wr (cfg b0 3 53) F.TWN_STATUS_LINK_UP 0 1 with beacons := [(3,53,false)] }

theorem test_meets_BeaconsFireAndAreConsumed :
    (∃ (s : State) (ch mid val : Nat), ch < 48 ∧ blockReach s 2 = true ∧ admits (rd s F.BCN_CH_CFG_ATTR ch) mid =
    true ∧ isSet s F.BCN_CH_CFG_EN ch = true ∧ isSet s F.BCN_CH_CFG_FIRE_OWNER_ONLY ch = false ∧ rd s
    F.BCN_CH_CFG_CONSUMER ch < 55 ∧ bcnMay s mid ch = true ∧ F.BCN_CH_CFG_CONSUMER.bits val ≤ 95 ∧
    F.BCN_CH_CFG_OWNER.bits val = rd s F.BCN_CH_CFG_OWNER ch ∧ F.BCN_CH_CFG_ATTR.bits val = rd s F.BCN_CH_CFG_ATTR
    ch) ∧
    (∃ (s : State) (ch mid val : Nat), ch < 48 ∧ blockReach s 2 = true ∧ admits (rd s F.BCN_CH_CFG_ATTR ch) mid =
    true ∧ isSet s F.BCN_CH_CFG_EN ch = false ∧ bcnMay s mid ch = true ∧ F.BCN_CH_CFG_CONSUMER.bits val ≤ 95 ∧ ruler
    mid = true ∧ isSet s F.KL_LOCKS_BCN = false) ∧
    (∃ (s : State) (ch mid val : Nat), ch < 48 ∧ blockReach s 2 = true ∧ (bcnMay s mid ch = false ∨ 95 <
    F.BCN_CH_CFG_CONSUMER.bits val)) ∧
    (∃ (s : State) (ch : Nat) (soft : Bool) (rest : List (Nat × Nat × Bool)), ch < 48 ∧ s.beacons = (ch, 51, soft) ::
    rest) ∧
    (∃ (s : State) (ch : Nat) (soft : Bool) (rest : List (Nat × Nat × Bool)), ch < 48 ∧ s.beacons = (ch, 52, soft) ::
    rest) ∧
    (∃ (s : State) (ch : Nat) (soft : Bool) (rest : List (Nat × Nat × Bool)), ch < 48 ∧ s.beacons = (ch, 53, soft) ::
    rest ∧ twnCarries s = true ∧ (∀ p ∈ s.twn.txq, p.1 ≠ tpBCN)) :=
  ⟨⟨s1, 3, 1, 16235, by decide +kernel⟩,
  ⟨s1, 1, 1, 1, by decide +kernel⟩,
  ⟨s1, 1, 3, 1, by decide +kernel⟩,
  ⟨s2, 3, true, [], by decide +kernel⟩,
  ⟨s3, 3, true, [], by decide +kernel⟩,
  ⟨s4, 3, false, [], by decide +kernel⟩⟩
end BeaconsFireAndAreConsumed

namespace TwinActsByItsState
def tw (st : Nat) (s : State := live) : State := wr (wr (wr (wr s F.TWN_STATUS_STATE 0 st) F.TWN_CTL_EN 0 1)
    F.TWN_STATUS_DRIVING 0 (if twnDrives st then 1 else 0)) F.TWN_STATUS_LINK_UP 0 1
def off := wr live F.TWN_CTL_MISS_LIMIT 0 7
def wt : State := wr (wr (tw 5) F.TRG_CFG_TWIN 1 1) F.TRG_CFG_MODE 1 1
def ld : State :=
    { wr (wr (tw 4) F.TWN_STATUS_FOGHORN_OK 0 1) F.TRG_CFG_TWIN 1 1 with twn := { Twn.init with fogNext := some 5, missRun := 3 } }
def sv := wr (tw 1) F.SQ_HASH_CTL_VALID 0 1
def srch : State := { wr (wr (tw 1) F.TWN_CTL_SOLO_OK 0 1) F.TWN_STATUS_LINK_UP 0 0 with ns := 2^60 }
def solo : State := { tw 6 with twn := { Twn.init with confirmed := some 89000 } }
def ho (h : Handover) (st : Nat) : State := { tw st with twn := { Twn.init with handover := some h } }
def h1 : Handover := ⟨96000, true, true, false⟩
def h3 : Handover := ⟨96000, true, false, false⟩
def x1 := wr ld F.TRG_CFG_MODE 1 1

theorem test_meets_TwinActsByItsState :
    (∃ (s : State) (val : Nat), (∀ i < 8, isSet s F.TWN_PROD_CFG_EN i = false) ∧ blockReach s 5 = true ∧ twnState s =
    twOFF ∧ isSet s F.TWN_CTL_EN = false ∧ val.testBit 0 = true ∧ val / 2 ^ 2 % 2 ^ 4 = rd s F.TWN_CTL_MISS_LIMIT) ∧
    (∃ (s : State) (val n u : Nat), (∀ i < 8, isSet s F.TWN_PROD_CFG_EN i = false) ∧ blockReach s 5 = true ∧ twnState
    s ∈ [twHANDSHAKE, twALIGN, twLEAD, twWATCH] ∧ val.testBit 0 = false ∧ isSet s F.TWN_CTL_EN = true ∧ isSet s
    F.SQ_HASH_CTL_VALID = false ∧ domUp s 21 = true ∧ s.hashDue = none ∧ twnState s = twLEAD ∧ s.twn.handover = none
    ∧ blockWorks s 5 = true ∧ n < 16 ∧ isSet s F.TRG_CFG_TWIN n = true ∧ driving s n = true ∧ s.twn.fogNext = some u
    ∧ twnFogs s = true ∧ u + rd s F.TWN_LINK_DLY_VALUE + 200 < s.tb ∧ isSet s F.TWN_STATUS_LINK_UP = true ∧
    s.twn.fogTx ≠ s.tb / max 1 (rd s F.TWN_FOG_PERIOD_NS) * max 1 (rd s F.TWN_FOG_PERIOD_NS) ∧ isSet s
    F.GLB_STATUS_D2D_UP = true ∧ isSet s F.GLB_STATUS_REF_LANE_OK = true ∧ sharedDark s = false) ∧
    (∃ (s : State) (val : Nat), (∀ i < 8, isSet s F.TWN_PROD_CFG_EN i = false) ∧ blockReach s 5 = true ∧ twnState s ∈
    [twSEARCH, twSOLO, twRELEASED, twMISMATCH] ∧ isSet s F.TWN_CTL_EN = true ∧ val.testBit 0 = false ∧ val / 2 ^ 2 %
    2 ^ 4 = rd s F.TWN_CTL_MISS_LIMIT ∧ twnState s ≠ twWATCH ∧ twnState s ≠ twLEAD) ∧
    (∃ (s : State), (∀ i < 8, isSet s F.TWN_PROD_CFG_EN i = false) ∧ blockReach s 5 = true ∧ isSet s F.TWN_CTL_EN =
    true ∧ isSet s F.SQ_HASH_CTL_VALID = true ∧ twnDriver (twnState s) = false ∧ s.twn.peer = none) ∧
    (∃ (s : State) (n : Nat), (∀ i < 8, isSet s F.TWN_PROD_CFG_EN i = false) ∧ blockReach s 5 = true ∧ twnState s =
    twWATCH ∧ twnCarries s = true ∧ blockWorks s 5 = true ∧ n < 16 ∧ isSet s F.TRG_CFG_TWIN n = true ∧ rd s
    F.TRG_CFG_MODE n ≠ 0 ∧ (twnState s = twALIGN ∨ twnState s = twWATCH) ∧ s.twn.syncAt = 0) ∧
    (∃ (s : State), (∀ i < 8, isSet s F.TWN_PROD_CFG_EN i = false) ∧ blockWorks s 5 = true ∧ twnState s = twSEARCH ∧
    isSet s F.TWN_CTL_SOLO_OK = true ∧ isSet s F.TWN_STATUS_LINK_UP = false ∧ s.twn.searchAt + 1000000 * rd s
    F.TWN_SEARCH_MS_MS ≤ s.ns) ∧
    (∃ (s : State) (h : Handover), (∀ i < 8, isSet s F.TWN_PROD_CFG_EN i = false) ∧ blockWorks s 5 = true ∧
    s.twn.handover = some h ∧ h.time ≤ s.tb ∧ h.acked = true ∧ h.pairing = false) ∧
    (∃ (s : State) (h : Handover), (∀ i < 8, isSet s F.TWN_PROD_CFG_EN i = false) ∧ blockWorks s 5 = true ∧
    s.twn.handover = some h ∧ h.acked = false ∧ h.time ≤ s.tb + 2000) ∧
    (∃ (s : State) (u : Nat), (∀ i < 8, isSet s F.TWN_PROD_CFG_EN i = false) ∧ blockWorks s 5 = true ∧ twnState s ≠
    twWATCH ∧ s.twn.confirmed = some u ∧ u + 5000 ≤ s.tb) :=
  ⟨⟨off, 29, by decide +kernel⟩,
  ⟨x1, 0, 1, 5, by decide +kernel⟩,
  ⟨tw 8, 12, by decide +kernel⟩,
  ⟨sv, by decide +kernel⟩,
  ⟨wt, 1, by decide +kernel⟩,
  ⟨srch, by decide +kernel⟩,
  ⟨ho h1 4, h1, by decide +kernel⟩,
  ⟨ho h3 4, h3, by decide +kernel⟩,
  ⟨solo, 89000, by decide +kernel⟩⟩
end TwinActsByItsState

namespace TwinPacketsAct
def pk (ty : Nat) (p : List Nat) : List Nat := twnBytes ty p
def tw (st : Nat) (s : State := live) : State := wr (wr (wr (wr s F.TWN_STATUS_STATE 0 st) F.TWN_CTL_EN 0 1)
    F.TWN_STATUS_DRIVING 0 (if twnDrives st then 1 else 0)) F.TWN_STATUS_LINK_UP 0 1
def fcg (s : State) : State := wr (setLoop s 1 fRUN) F.FCG_PERIOD_VALUE 1 1000
def wt : State :=
    { fcg (wr (tw 5) F.TWN_STATUS_TB_ALIGNED 0 1) with twn := { Twn.init with loaded := true, aligned := 2, confirmed := some 5, fogNext := some 99500, missRun := 2 } }
def wtS : State := setTwnStream (wr (wr (wr wt F.TWN_STREAMS_MASK 0 8) F.PKT_PORT_CFG_TWIN_SRC 0 1) F.PKT_MAP_PORT 3 0)
    3 ⟨1, []⟩
def ld : State := { fcg (tw 4) with twn := { Twn.init with handover := some ⟨120000,true,false,false⟩ } }
def off : State := wr (tw 0) F.TWN_CTL_EN 0 0
def mb : State := wr (wr (wr (wr (wr (wr (wr (tw 5) F.MBX_BIND_SENDER 2 0x18) F.MBX_BIND_RECEIVER 2 1)
    F.MBX_BIND_ATTR 2 1) F.MBX_BIND_SENDER 3 1) F.MBX_BIND_RECEIVER 3 0x18) F.MBX_BIND_ATTR 3 1) F.MBX_STAT_FULL 3 1
def bc := wr (wr (wr (tw 5) F.BCN_CH_CFG_EN 3 1) F.BCN_CH_CFG_CONSUMER 3 12) F.BCN_CH_CFG_ATTR 3 1

theorem test_meets_TwinPacketsAct :
    (∃ (s : State) (pkt : List Nat), blockWorks s 5 = true ∧ twnCarries s = true ∧ (∀ i < 8, isSet s
    F.TWN_PROD_CFG_EN i = false) ∧ twnValid pkt = false) ∧
    (∃ (s : State) (pkt : List Nat), blockWorks s 5 = true ∧ twnCarries s = true ∧ (∀ i < 8, isSet s
    F.TWN_PROD_CFG_EN i = false) ∧ twnValid pkt = true ∧ pkt.headD 0 = tpHELLO ∧ isSet s F.TWN_CTL_EN = false) ∧
    (∃ (s : State) (pkt : List Nat), blockWorks s 5 = true ∧ twnCarries s = true ∧ (∀ i < 8, isSet s
    F.TWN_PROD_CFG_EN i = false) ∧ twnValid pkt = true ∧ pkt.headD 0 = tpFOGHORN ∧ twnState s = twWATCH) ∧
    (∃ (s : State) (pkt : List Nat), blockWorks s 5 = true ∧ twnCarries s = true ∧ (∀ i < 8, isSet s
    F.TWN_PROD_CFG_EN i = false) ∧ twnValid pkt = true ∧ pkt.headD 0 = tpTBSYNC ∧ leField (List.take (pkt.length - 4)
    (List.drop 2 pkt)) 0 1 = 0 ∧ twnState s = twLEAD) ∧
    (∃ (s : State) (pkt : List Nat), blockWorks s 5 = true ∧ twnCarries s = true ∧ (∀ i < 8, isSet s
    F.TWN_PROD_CFG_EN i = false) ∧ twnValid pkt = true ∧ pkt.headD 0 = tpTBSYNC ∧ leField (List.take (pkt.length - 4)
    (List.drop 2 pkt)) 0 1 ≠ 0 ∧ twnState s = twWATCH ∧ s.twn.loaded = true) ∧
    (∃ (s : State) (pkt : List Nat) (k : Nat), blockWorks s 5 = true ∧ twnCarries s = true ∧ (∀ i < 8, isSet s
    F.TWN_PROD_CFG_EN i = false) ∧ twnValid pkt = true ∧ pkt.headD 0 = tpFS ∧ k = leField (List.take (pkt.length - 4)
    (List.drop 2 pkt)) 0 1 % 64 ∧ twnFollows s k (rd s F.PKT_MAP_PORT k) = true ∧ (twnStreamAt s k).wait = 1) ∧
    (∃ (s : State) (pkt : List Nat) (g : Nat), blockWorks s 5 = true ∧ twnCarries s = true ∧ (∀ i < 8, isSet s
    F.TWN_PROD_CFG_EN i = false) ∧ twnValid pkt = true ∧ pkt.headD 0 = tpTRIG ∧ g = leField (List.take (pkt.length -
    4) (List.drop 2 pkt)) 0 1 ∧ g < 4 ∧ twnState s = twWATCH ∧ fcgRuns s g = true ∧ (twnFcgAt s g).own = []) ∧
    (∃ (s : State) (pkt : List Nat) (g : Nat), blockWorks s 5 = true ∧ twnCarries s = true ∧ (∀ i < 8, isSet s
    F.TWN_PROD_CFG_EN i = false) ∧ twnValid pkt = true ∧ pkt.headD 0 = tpFCGSTATE ∧ g = leField (List.take
    (pkt.length - 4) (List.drop 2 pkt)) 0 1 ∧ g < 4 ∧ twnState s = twLEAD ∧ (((List.drop 1 (List.take (pkt.length -
    4) (List.drop 2 pkt))).all fun x => x == 0) = true)) ∧
    (∃ (s : State) (pkt : List Nat) (g : Nat), blockWorks s 5 = true ∧ twnCarries s = true ∧ (∀ i < 8, isSet s
    F.TWN_PROD_CFG_EN i = false) ∧ twnValid pkt = true ∧ pkt.headD 0 = tpFCGSTATE ∧ g = leField (List.take
    (pkt.length - 4) (List.drop 2 pkt)) 0 1 ∧ g < 4 ∧ twnState s = twWATCH ∧ fcgRuns s g = true) ∧
    (∃ (s : State) (pkt : List Nat), blockWorks s 5 = true ∧ twnCarries s = true ∧ (∀ i < 8, isSet s
    F.TWN_PROD_CFG_EN i = false) ∧ twnValid pkt = true ∧ pkt.headD 0 = tpROLE ∧ leField (List.take (pkt.length - 4)
    (List.drop 2 pkt)) 0 1 = 3 ∧ twnState s = twLEAD) ∧
    (∃ (s : State) (pkt : List Nat), blockWorks s 5 = true ∧ twnCarries s = true ∧ (∀ i < 8, isSet s
    F.TWN_PROD_CFG_EN i = false) ∧ twnValid pkt = true ∧ pkt.headD 0 = tpROLE ∧ leField (List.take (pkt.length - 4)
    (List.drop 2 pkt)) 0 1 = 1 ∧ twnState s = twWATCH ∧ isSet s F.TWN_STATUS_TB_ALIGNED = true) ∧
    (∃ (s : State) (pkt : List Nat) (h : Handover), blockWorks s 5 = true ∧ twnCarries s = true ∧ (∀ i < 8, isSet s
    F.TWN_PROD_CFG_EN i = false) ∧ twnValid pkt = true ∧ pkt.headD 0 = tpROLE ∧ leField (List.take (pkt.length - 4)
    (List.drop 2 pkt)) 0 1 = 2 ∧ s.twn.handover = some h) ∧
    (∃ (s : State) (pkt : List Nat) (m : Nat), blockWorks s 5 = true ∧ twnCarries s = true ∧ (∀ i < 8, isSet s
    F.TWN_PROD_CFG_EN i = false) ∧ twnValid pkt = true ∧ pkt.headD 0 = tpMBX ∧ m = leField (List.take (pkt.length -
    4) (List.drop 2 pkt)) 0 1 ∧ m < 64 ∧ (∀ i < 8, isSet s F.MBX_PROD_CFG_EN i = false) ∧ leField (List.take
    (pkt.length - 4) (List.drop 2 pkt)) 1 1 = 1 ∧ isSender s 24 m = true ∧ isSet s F.MBX_STAT_FULL m = false ∧ rd s
    F.MBX_BIND_RECEIVER m ≠ 24) ∧
    (∃ (s : State) (pkt : List Nat) (m : Nat), blockWorks s 5 = true ∧ twnCarries s = true ∧ (∀ i < 8, isSet s
    F.TWN_PROD_CFG_EN i = false) ∧ twnValid pkt = true ∧ pkt.headD 0 = tpMBX ∧ m = leField (List.take (pkt.length -
    4) (List.drop 2 pkt)) 0 1 ∧ m < 64 ∧ (∀ i < 8, isSet s F.MBX_PROD_CFG_EN i = false) ∧ leField (List.take
    (pkt.length - 4) (List.drop 2 pkt)) 1 1 = 2 ∧ rd s F.MBX_BIND_RECEIVER m = 24 ∧ isSet s F.MBX_STAT_FULL m = true) ∧
    (∃ (s : State) (pkt : List Nat) (ch : Nat), blockWorks s 5 = true ∧ twnCarries s = true ∧ (∀ i < 8, isSet s
    F.TWN_PROD_CFG_EN i = false) ∧ twnValid pkt = true ∧ pkt.headD 0 = tpBCN ∧ ch = leField (List.take (pkt.length -
    4) (List.drop 2 pkt)) 0 1 ∧ ch < 48 ∧ rd s F.BCN_CH_CFG_ATTR ch = 1 ∧ isSet s F.BCN_CH_CFG_EN ch = true ∧ isSet s
    F.BCN_CH_CFG_FIRE_OWNER_ONLY ch = false ∧ rd s F.BCN_CH_CFG_CONSUMER ch < 55) :=
  ⟨⟨wt, [1, 2, 3], by decide +kernel⟩,
  ⟨off, pk 1 (toBytes 8 1234605616436508552 ++ toBytes 8 5 ++ toBytes 8 6 ++ toBytes 8 0 ++ [1, 2, 3, 4, 0, 0, 0,
  0]), by decide +kernel⟩,
  ⟨wt, pk 2 (toBytes 8 99000 ++ toBytes 2 4660 ++ [4, 1]), by decide +kernel⟩,
  ⟨ld, pk 3 (List.replicate 25 0), by decide +kernel⟩,
  ⟨wt, pk 3 ([1] ++ toBytes 8 99000 ++ toBytes 8 99101 ++ toBytes 8 99200), by decide +kernel⟩,
  ⟨wtS, pk 4 ([3, 0] ++ toBytes 6 77 ++ toBytes 8 99000), 3, by decide +kernel⟩,
  ⟨wt, pk 5 ([1, 0, 0, 0] ++ toBytes 4 55 ++ toBytes 8 101000), 1, by decide +kernel⟩,
  ⟨ld, pk 6 (1 :: List.replicate 35 0), 1, by decide +kernel⟩,
  ⟨wt, pk 6 (1 :: List.replicate 35 0), 1, by decide +kernel⟩,
  ⟨ld, pk 7 ([3, 0, 0, 0] ++ toBytes 8 0), by decide +kernel⟩,
  ⟨wt, pk 7 ([1, 0, 0, 0] ++ toBytes 8 120000), by decide +kernel⟩,
  ⟨ld, pk 7 ([2, 0, 0, 0] ++ toBytes 8 120000), { time := 120000, yields := true, acked := false, pairing := false },
  by decide +kernel⟩,
  ⟨mb, pk 8 ([2, 1, 0, 0] ++ toBytes 4 43981), 2, by decide +kernel⟩,
  ⟨mb, pk 8 ([3, 2, 0, 0] ++ toBytes 4 0), 3, by decide +kernel⟩,
  ⟨bc, pk 9 [3, 0], 3, by decide +kernel⟩⟩
end TwinPacketsAct

namespace KeeperTransactionsAct
def k0 := wr (wr live F.KL_LIFECYCLE_LOCKED 0 0) F.KP_FAIL_DOMAINS 0 0xFF
def k1 : State := { wr k0 F.KL_LIFECYCLE_LOCKED 0 1 with nearTripMask := 2 }
def k2 : State := setKport (wr k0 F.KL_LIFECYCLE_LOCKED 0 0) 0 ⟨false,false,false,false,true,0,0,[]⟩

theorem test_meets_KeeperTransactionsAct :
    (∃ (s : State) (addr tail : Nat) (h : Hit) (seconds max data mask a b n x : Nat), s.keeperReady = true ∧ s.kbrRun
    = none ∧ (kport s 0).kreset = false ∧ rd s F.KD_STATUS_HOLDING = 0 ∧ addr < 2 ^ 16 ∧ ¬(16384 ≤ addr ∧ addr <
    32768) ∧ keeperRegAt addr = some h ∧ h.reg.rid ≠ R.KF_ENTRY.rid ∧ (h.reg.rid ≠ R.KT_TEMP.rid ∨ tail = 0) ∧
    seconds < 2 ^ 32 ∧ max < 2 ^ 16 ∧ s.abandonedBank = none ∧ latchedBanks s = [] ∧ data < 2 ^ 32 ∧ isSet s
    F.KL_LIFECYCLE_LOCKED = false ∧ 64 ≤ tail ∧ s.aDieReset = false ∧ mask < 2 ^ 32 ∧ s.nearTripMask = 0 ∧ data ≠
    kresetFirst ∧ a < 2 ^ 16 ∧ b < 2 ^ 32 ∧ x ≠ (Instr.read 0 a n x, sentCrc 1 a 0).2 ∧ x ≠ (Instr.write 0 a b n x,
    sentCrc 2 a b).2 ∧ x ≠ (Instr.poll 0 a n x, sentCrc 3 a 0).2 ∧ x ≠ (Instr.step 0 b n x, sentCrc 4 0 b).2 ∧ x ≠
    (Instr.time 0 b x, sentCrc 5 0 b).2 ∧ x ≠ (Instr.nvwrite 0 a b n false x, sentCrc 6 a b).2 ∧ x ≠ (Instr.kdIntent
    0 b n false x, sentCrc 6 2051 b).2 ∧ x ≠ (Instr.kdCommit 0 b n false x, sentCrc 6 2052 b).2 ∧ x ≠ (Instr.kreset 0
    b x, sentCrc 15 0 b).2) ∧
    (∃ (s : State) (addr : Nat) (h : Hit) (data : Nat), s.keeperReady = true ∧ s.kbrRun = none ∧ (kport s 0).kreset =
    false ∧ rd s F.KD_STATUS_HOLDING = 0 ∧ addr < 2 ^ 16 ∧ ¬(16384 ≤ addr ∧ addr < 32768) ∧ data < 2 ^ 32 ∧
    keeperRegAt addr = some h ∧ h.reg.fields.any Field.writable = false) ∧
    (∃ (s : State) (addr data : Nat), s.keeperReady = true ∧ s.kbrRun = none ∧ (kport s 0).kreset = false ∧ rd s
    F.KD_STATUS_HOLDING = 0 ∧ addr < 2 ^ 16 ∧ ¬(16384 ≤ addr ∧ addr < 32768) ∧ data < 2 ^ 32 ∧ keeperRegAt addr =
    none) ∧
    (∃ (s : State) (data : Nat), s.keeperReady = true ∧ s.kbrRun = none ∧ (kport s 0).kreset = false ∧ rd s
    F.KD_STATUS_HOLDING = 0 ∧ data < 2 ^ 32 ∧ isSet s F.KL_LIFECYCLE_LOCKED = true ∧ s.nearTripMask ≠ 0) ∧
    (∃ (s : State), s.keeperReady = true ∧ s.kbrRun = none ∧ (kport s 0).kreset = true ∧ isSet s
    F.KL_LIFECYCLE_LOCKED = false) :=
  ⟨⟨k0, 513, 64, { reg := R.KP_REQ, inst := 0, high := false }, 64, 64, 64, 64, 64, 64, 64, 64, by decide +kernel⟩,
  ⟨k0, 256, { reg := R.KL_LIFECYCLE, inst := 0, high := false }, 64, by decide +kernel⟩,
  ⟨k0, 64, 64, by decide +kernel⟩,
  ⟨k1, 64, by decide +kernel⟩,
  ⟨k2, by decide +kernel⟩⟩
end KeeperTransactionsAct

namespace KeeperUpdatesLogsAndBridges
def k0 := wr (wr live F.KL_LIFECYCLE_LOCKED 0 0) F.KP_FAIL_DOMAINS 0 0xFF
def upd : State :=
    { wr (wr (wr (wr (wr k0 F.KD_STATUS_DIRTY 0 1) F.KD_STATUS_NEXT_STEP 0 1) F.KD_HASH_HASH 0 77) F.KD_STATUS_HOLDING 0 1) F.KD_IMAGE_LO_SEG 0 0xF0F with dispActive := true, segLimited := [3,40] }
def updE : State := wr upd F.KD_STATUS_NEXT_STEP 0 (stepCount upd)
def kc := capture (capture k0 2 5) 3 1
def kb : State := { wr k0 F.KBR_CMD_ADDR 0 0x201 with kbrRun := some ⟨1, 0x201, 0, 0, 5⟩ }
def np : State := { k0 with keeperReady := false }

theorem test_meets_KeeperUpdatesLogsAndBridges :
    (∃ (s : State) (hash tail key : Nat), s.keeperReady = true ∧ s.kbrRun = none ∧ (kport s 0).kreset = false ∧ hash
    < 2 ^ 32 ∧ hash = imageHash s ∧ domGood s 2 = true ∧ s.dispActive = false ∧ 64 ≤ tail ∧ key < 2 ^ 16 ∧ key =
    43360 ∧ resetRunning s = false ∧ s.aDieReset = false ∧ blockReach s 0 = true ∧ domUp s 4 = true) ∧
    (∃ (s : State) (hash k key : Nat), s.keeperReady = true ∧ s.kbrRun = none ∧ (kport s 0).kreset = false ∧ hash < 2
    ^ 32 ∧ hash ≠ imageHash s ∧ rd s F.KD_STATUS_NEXT_STEP ≠ stepCount s ∧ k < 2 ^ 32 ∧ vfieldFault s = false ∧ rd s
    F.KD_STATUS_NEXT_STEP ≠ k ∧ key < 2 ^ 16 ∧ key ≠ 43360) ∧
    (∃ (s : State) (hash tail : Nat), s.keeperReady = true ∧ s.kbrRun = none ∧ (kport s 0).kreset = false ∧ hash < 2
    ^ 32 ∧ ownsUpdate s 0 = true ∧ rd s F.KD_STATUS_NEXT_STEP = stepCount s ∧ hash = rd s F.KD_HASH_HASH ∧ 64 ≤ tail) ∧
    (∃ (s : State) (k tail : Nat), s.keeperReady = true ∧ s.kbrRun = none ∧ (kport s 0).kreset = false ∧ k < 2 ^ 32 ∧
    vfieldFault s = false ∧ ownsUpdate s 0 = true ∧ rd s F.KD_STATUS_NEXT_STEP = k ∧ k < stepCount s ∧ 64 ≤ tail) ∧
    (∃ (s : State) (src i max : Nat), s.keeperReady = true ∧ s.kbrRun = none ∧ (kport s 0).kreset = false ∧ nextBank
    s = some (src, i) ∧ i < 2 ∧ max < 2 ^ 16 ∧ s.logUsed < 4096) ∧
    (∃ (s : State) (r : KbrRun) (h : Hit), blockReach s 0 = true ∧ domUp s 4 = true ∧ s.kbrRun.isSome = true ∧
    s.kbrRun = some r ∧ r.opcode = 1 ∧ r.tail = 0 ∧ ¬(16384 ≤ r.addr ∧ r.addr < 32768) ∧ keeperRegAt r.addr = some h
    ∧ h.reg.rid ≠ R.KF_ENTRY.rid ∧ s.laneStopped = false ∧ s.keeperReady = true ∧ (kport s 1).kreset = false ∧ rd s
    F.KD_STATUS_HOLDING = 0) ∧
    (∃ (s : State), s.keeperReady = false) :=
  ⟨⟨k0, 2982322595, 64, 43360, by decide +kernel⟩,
  ⟨k0, 0, 1, 0, by decide +kernel⟩,
  ⟨updE, 77, 64, by decide +kernel⟩,
  ⟨upd, 1, 64, by decide +kernel⟩,
  ⟨kc, 2, 0, 0, by decide +kernel⟩,
  ⟨kb, { opcode := 1, addr := 513, data := 0, tail := 0, start := 5 }, { reg := R.KP_REQ, inst := 0, high := false },
  by decide +kernel⟩,
  ⟨np, by decide +kernel⟩⟩
end KeeperUpdatesLogsAndBridges

namespace PowerAndSensorsAct
def down (ds : List Nat) (s : State) : State := ds.foldl (fun s d => setGood s d false) s
def p0 := { down [16,23,5] live with pwrRun := [(5,90000),(23,90000)] }
def p1 :=
    { wr live F.KP_PROFILE_PROFILE 0 0 with pwrRun := [(16, 90000),(6,90000)], hotMask := 3, nearTripMask := 6, wokeNow := 0x10 }
def p2 := wr (wr { p0 with ns := 10^9 } F.PWR_WAKE_HELD_DOMAINS 0 0xFF) F.PWR_EVT_EVT 0 0

theorem test_meets_PowerAndSensorsAct :
    (∃ (s : State) (d u k : Nat) (hot : Bool), d < 24 ∧ mayPowerUp s d = true ∧ hasBit s F.KP_FAIL_DOMAINS 0 d =
    false ∧ powerSince s d = some u ∧ s.ns ≤ u + 10 * powerUpNs d ∧ blockReach s 1 = true ∧ k < 5 ∧ s.hotMask.testBit
    k = false ∧ s.hotMask.testBit k = hot) ∧
    (∃ (s : State) (d : Nat), d < 24 ∧ ¬(mayPowerUp s d = true ∧ hasBit s F.KP_FAIL_DOMAINS 0 d = false)) ∧
    (∃ (s : State) (d k : Nat), d < 24 ∧ switchable.testBit d = true ∧ domGood s d = true ∧ (effective s).testBit d =
    false ∧ dependentsDown s d = true ∧ (powerSince s d).isSome = true ∧ k < 5 ∧ s.hotMask.testBit k = true) ∧
    (∃ (s : State) (d u : Nat), d < 24 ∧ mayPowerUp s d = true ∧ hasBit s F.KP_FAIL_DOMAINS 0 d = false ∧ powerSince
    s d = some u ∧ u + 10 * powerUpNs d ≤ s.ns) :=
  ⟨⟨p0, 5, 90000, 0, false, by decide +kernel⟩,
  ⟨p0, 0, by decide +kernel⟩,
  ⟨p1, 6, 0, by decide +kernel⟩,
  ⟨p2, 5, 90000, by decide +kernel⟩⟩
end PowerAndSensorsAct

namespace ResetsClearAndKeep
def lk := wr live F.KL_LIFECYCLE_LOCKED 0 1
def mem : State :=
    { lk with spm := [(3,5)], lp5x := [(4,7)], data := [(3,5)], shared := [(3,5)], ispMem := [(3,5)], prog := [(3,5)], journal := [(3,5)] }
def touched := wr (wr (wr (wr (wr mem F.TRG_WIDTH_NS 3 777) F.GLB_SCRATCH_VALUE 0 5) F.MEM_CFG_INLINE_ECC 0 1)
    F.RNG_CFG_EN 2 1) F.GLB_RST_CAUSE_WARM_COUNT 0 9
def rst0 : State := { touched with aDieReset := true, aDieReleased := false }
def rst1 : State := { touched with aDieReset := true, aDieReleased := true }
def wb := wr touched F.GLB_RST_STATUS_WARM_BUSY 0 1
def bb := wr touched F.GLB_RST_STATUS_BLK_BUSY 0 (2^17+2^5)
def tw := wr touched F.TWN_STATUS_STATE 0 5

theorem test_meets_ResetsClearAndKeep :
    (∃ (s : State), s.aDieReset = true ∧ s.keeperReady = true ∧ s.aDieReleased = false ∧ resetRunning s = true) ∧
    (∃ (s : State), s.aDieReset = true ∧ s.aDieReleased = true) ∧
    (∃ (s : State) (val b : Nat), resetRunning s = false ∧ val / 2 ^ 16 % 2 ^ 16 ≠ 43360 ∧ b < 29 ∧ blkBusy s b =
    false ∧ b ≠ 1 ∧ ¬(b = 5 ∧ twnBusyState (twnState s) = true)) ∧
    (∃ (s : State), isSet s F.GLB_RST_STATUS_WARM_BUSY = true ∧ s.aDieReset = false) ∧
    (∃ (s : State) (b : Nat) (blk : Block), b < 29 ∧ resetRunning s = false ∧ blkBusy s b = false ∧ (b, blk) ∈ [(18,
    Block.rng), (17, Block.mem)] ∧ Option.all (domGood s) (bitDomain b) = true ∧ (∀ c < 8, runningRecipe s c = none)) ∧
    (∃ (s : State) (b : Nat), b < 29 ∧ resetRunning s = false ∧ blkBusy s b = false ∧ b = 5 ∧ twnBusyState (twnState
    s) = true) ∧
    (∃ (s : State) (b : Nat), b < 29 ∧ blkBusy s b = true) :=
  ⟨⟨rst0, by decide +kernel⟩,
  ⟨rst1, by decide +kernel⟩,
  ⟨touched, 0, 0, by decide +kernel⟩,
  ⟨wb, by decide +kernel⟩,
  ⟨touched, 17, Block.mem, by decide +kernel⟩,
  ⟨tw, 5, by decide +kernel⟩,
  ⟨bb, 5, by decide +kernel⟩⟩
end ResetsClearAndKeep

theorem test_meets_StoredValuesLoadBack :
    (∃ (s : State) (c d d' a imm16 : Nat), Ready s c ∧ pcOf s c < 32760 ∧ d' % 16 ≠ 0 ∧ (∀ (r : Region), (coreAt s
    c).region = some r → r.storeCount < 64) ∧ place (effAddr s c a imm16) ≠ none ∧ effAddr s c a imm16 % (8,
    Instr.std c d a imm16, Instr.ldd c d' a imm16, false).1 = 0 ∧ effAddr s c a imm16 % (4, Instr.stw c d a imm16,
    Instr.ldw c d' a imm16, false).1 = 0 ∧ effAddr s c a imm16 % (2, Instr.sth c d a imm16, Instr.ldh c d' a imm16,
    false).1 = 0 ∧ effAddr s c a imm16 % (1, Instr.stb c d a imm16, Instr.ldb c d' a imm16, false).1 = 0 ∧ effAddr s
    c a imm16 % (4, Instr.stw c d a imm16, Instr.ldsw c d' a imm16, true).1 = 0 ∧ effAddr s c a imm16 % (2, Instr.sth
    c d a imm16, Instr.ldsh c d' a imm16, true).1 = 0 ∧ effAddr s c a imm16 % (1, Instr.stb c d a imm16, Instr.ldsb c
    d' a imm16, true).1 = 0) :=
  ⟨wr (wr (co SqCore.init) F.SQ_VREG_VALUE 18 4112) F.SQ_VREG_VALUE 17 18364758544493064720, 0, 0, 1, 0, 0,
  by unfold Ready; decide +kernel⟩

theorem test_meets_OpenMastersAreRefusedAndRecorded :
    (∃ (s : State) (m mid : Nat), m < 64 ∧ blockReach s 3 = true ∧ mid ∈ [2, 3, 4, 5, 6, 7, 8, 24] ∧ rd s
    F.MBX_BIND_ATTR m = 0) :=
  ⟨live, 0, 2, by decide +kernel⟩

theorem test_meets_ResetRegistersNeedTheirKey :
    (∃ (s : State) (key bits : Nat), key < 2 ^ 16 ∧ bits < 4 ∧ resetRunning s = false ∧ s.keeperReady = true ∧
    s.kbrRun = none ∧ (kport s 0).kreset = false ∧ key ≠ 43360) ∧
    (∃ (s : State) (key bits : Nat), key < 2 ^ 16 ∧ bits < 4 ∧ resetRunning s = false ∧ s.keeperReady = true ∧
    s.kbrRun = none ∧ (kport s 0).kreset = false ∧ key = 43360 ∧ bits = 1) ∧
    (∃ (s : State) (key bits : Nat), key < 2 ^ 16 ∧ bits < 4 ∧ resetRunning s = false ∧ s.keeperReady = true ∧
    s.kbrRun = none ∧ (kport s 0).kreset = false ∧ key = 43360 ∧ 2 ≤ bits) :=
  ⟨⟨live, 0, 0, by decide +kernel⟩,
  ⟨live, 43360, 1, by decide +kernel⟩,
  ⟨live, 43360, 2, by decide +kernel⟩⟩

namespace BindingsFollowTheLockAndItsRules
def b1 := wr (wr (wr live F.MBX_BIND_SENDER 3 1) F.MBX_BIND_RECEIVER 3 0x10) F.MBX_BIND_ATTR 3 1

theorem test_meets_BindingsFollowTheLockAndItsRules :
    (∃ (s : State) (m mid val : Nat), m < 64 ∧ mid < 32 ∧ val < 2 ^ 32 ∧ busReach s 323612 = true ∧ blockReach s 3 =
    true ∧ (rd s F.MBX_BIND_SENDER m = 31 ∨ rd s F.MBX_BIND_RECEIVER m = 31)) :=
  ⟨b1, 0, 0, 0, by decide +kernel⟩
end BindingsFollowTheLockAndItsRules

theorem test_meets_JumpsMoveTheirValueIntoPc :
    (∃ (s : State) (c : Nat), c < 8 ∧ canIssue s c = true) :=
  ⟨wr (wr (co SqCore.init) F.SQ_VREG_VALUE 18 0) F.SQ_LK_VALUE 1 0, 0, by decide +kernel⟩

namespace MatchesCommitsAndLoopUpdates
def ce : State := wr (wr (wr (wr (wr (wr (wr (wr live F.ENC_CFG_MODE 1 1) F.ENC_CFG_FILTER_N 1 2) F.CMP_STATUS_ARMED 2 1)
    F.CMP_CFG_SRC 2 1) F.CMP_BASE_BASE 2 5) F.CMP_LEN_LEN 2 1) F.CMP_PTR_PTR 2 5) F.CMP_CFG_SRC 0 0
def e1 (target : Nat) : State := { ce with cmpCur := [(2, 2^56 + target)], cmpList := [(5, 2^56 + target)] }
def fk (g : Nat) (k : Fcg) (st : Nat) (s : State := live) : State := setLoop (setFcg s g k) g st
def b0 : State := wr (wr (wr (wr live F.FCG_FMIN_VALUE 1 10) F.FCG_FSAFE_VALUE 1 20) F.FCG_FMAX_VALUE 1 3000)
    F.FCG_PERIOD_VALUE 1 1000
def outs (s : State) : State := wr (wr (wr (wr (wr s F.TRG_CFG_SRC 2 2) F.TRG_CFG_FCG_SEL 2 1) F.TRG_CFG_MODE 2 1)
    F.TRG_WIDTH_NS 2 1000) F.TRG_DELAY_NS 2 500
def k0 : Fcg := { Fcg.init with f := 0, nextT := 100100, updTb := 99900, phiTb := 99900 }
def c1 := outs (fk 1 k0 fRUN b0)
def tr0 : State := wr (wr (wr b0 F.FCG_CFG_SRC_ENC 1 1) F.FCG_C_C 1 4096) F.FCG_SLEW_VALUE 1 1000
def tr1 : State :=
    { fk 1 { k0 with f := 160000001 } fTRACK (wr (wr tr0 F.FCG_FMIN_VALUE 1 0) F.FCG_CFG_MODE 1 2) with enc := [(1, { Enc.init with pts := [(99900000, 11), (99800000, 10)] })] }

theorem test_meets_MatchesCommitsAndLoopUpdates :
    (∃ (s : State) (n k : Nat) (a b z : Bool) (ps held : Nat), n < 4 ∧ k < 16 ∧ blockWorks s 6 = true ∧ domUp s 22 =
    true ∧ (∀ g < 4, fcgLoop s g = fIDLE) ∧ (∀ p < 2, isSet s F.PO_STATUS_RUNNING p = false) ∧ (∀ j < 16, isSet s
    F.CMP_STATUS_ARMED j = true ∧ rd s F.CMP_CFG_SRC j = n ↔ j = k) ∧ sget s.cmpUpd [] k = [] ∧ rd s F.ENC_CFG_MODE n
    = 1 ∧ isSet s F.ENC_CFG_INVERT_DIR n = false ∧ isSet s F.ENC_STATUS_LOST n = false ∧ rd s F.ENC_CFG_FILTER_N n ≤
    held ∧ ps + (rd s F.ENC_CFG_FILTER_N n - 1) * 2500 ≤ s.tb * 1000 ∧ hasBit s F.ENC_STATUS_ABZ n 0 ≠ a ∧ hasBit s
    F.ENC_STATUS_ABZ n 1 = b ∧ hasBit s F.ENC_STATUS_ABZ n 2 = z ∧ a ≠ b ∧ cmpTarget s k = encPos s n + 1 ∧ bitsOf
    (sget s.cmpCur 0 k) 56 2 = 1 ∧ isSet s F.CMP_CFG_CYCLIC k = false ∧ rd s F.CMP_BASE_BASE k + rd s F.CMP_LEN_LEN k
    ≤ rd s F.CMP_PTR_PTR k + 1) ∧
    (∃ (s : State) (g : Nat), g < 4 ∧ blockWorks s 7 = true ∧ fcgLoop s g = fRUN ∧ rd s F.FCG_CFG_MODE g = 0 ∧
    twnState s ≠ twWATCH ∧ twnState s ≠ twLEAD ∧ s.tb ≤ (fcgAt s g).nextT ∧ (fcgAt s g).nextT ≤ s.tb + 200) ∧
    (∃ (s : State) (g : Nat), g < 4 ∧ blockWorks s 7 = true ∧ fcgLoop s g = fTRACK ∧ (fcgAt s g).windows = [] ∧
    ((fcgAt s g).updTb / 100 + 1) * 100 ≤ s.tb ∧ rd s F.FCG_FMIN_VALUE g * 65536 ≤ reportedSpeed s (rd s
    F.FCG_CFG_SRC_ENC g) * 4096 / max 1 (rd s F.FCG_C_C g) ∧ reportedSpeed s (rd s F.FCG_CFG_SRC_ENC g) * 4096 / max
    1 (rd s F.FCG_C_C g) ≤ rd s F.FCG_FMAX_VALUE g * 65536 ∧ reportedSpeed s (rd s F.FCG_CFG_SRC_ENC g) * 4096 / max
    1 (rd s F.FCG_C_C g) ≤ (fcgAt s g).f + rd s F.FCG_SLEW_VALUE g * 65536 / 10000 ∧ (fcgAt s g).f ≤ reportedSpeed s
    (rd s F.FCG_CFG_SRC_ENC g) * 4096 / max 1 (rd s F.FCG_C_C g) + rd s F.FCG_SLEW_VALUE g * 65536 / 10000) :=
  ⟨⟨e1 1, 1, 2, true, false, false, 1, 2, by decide +kernel⟩,
  ⟨c1, 1, by decide +kernel⟩,
  ⟨tr1, 1, by decide +kernel⟩⟩
end MatchesCommitsAndLoopUpdates

namespace PipelineUnitsRunAndEnd
def fx : Frame := { fr0 with stream := 2, seq := 7, width := 0, height := 0, slots := 0, lines := 0, lineBytes := 0 }
def cfg (mode : Nat) : State :=
  let s := ready (region live 2 7)
  let s := wr (wr (wr (wr s F.PKT_MAP_EN 2 1) F.PKT_MAP_DT 2 0x2A) F.PKT_GEOM_WIDTH 2 16) F.PKT_GEOM_HEIGHT 2 16
  let i := ctxI 0 5
  let s := wr (wr (wr s F.ISP_CTX_CFG_EN i 1) F.ISP_CTX_SRC_STREAM i 2) F.ISP_CTX_MAX_AGE_NS i 50000
  let s := wr (wr (wr s F.ISP_SUBMIT_CTX 0 5) F.ISP_SUBMIT_SEQ_SEQ 0 7) F.ISP_CTL_MODE 0 mode
  { s with frames := [fx] }
def c2 := cfg ispSHARED
def c1 := cfg 1
def job : IspJob := ⟨5, 2, 7, 95000, 0, [(2,7)], false, false, false, 0, false, 0, false, false, false, []⟩
def jobG : IspJob := { job with gather := true }
def jobS : IspJob := { job with started := true, snap := ispSnap c2 }
def jobI : IspJob := { job with started := true, inl := true, snap := ispSnap c2 }
def wj (s : State) (j : IspJob) (u : Option Nat) : State :=
    { s with isp := [(0, { ispAt s 0 with jobs := [j], unit := u })] }
def mg : State := { wr c2 F.ISP_CTX_MERGE_FORM (ctxI 0 5) 1 with ns := 10^9 }
def old : State := { c2 with tb := 10^7 }

theorem test_meets_PipelineUnitsRunAndEnd :
    (∃ (s : State) (p : Nat) (j : IspJob), p < 2 ∧ blockWorks s (12 + p) = true ∧ s.podRuns = [] ∧ (∀ i < 8, isSet s
    F.ISP_DONE_CFG_EN (8 * p + i) = false) ∧ (ispAt s p).jobs = [j] ∧ j.ctx < 64 ∧ j.manual = false ∧ j.gather = true
    ∧ mergeForm s p j.ctx = 1 ∧ j.since + 1000 * rd s F.ISP_CTX_MERGE_PAIR_US (ctxI p j.ctx) ≤ s.ns) ∧
    (∃ (s : State) (p : Nat) (j : IspJob), p < 2 ∧ blockWorks s (12 + p) = true ∧ s.podRuns = [] ∧ (∀ i < 8, isSet s
    F.ISP_DONE_CFG_EN (8 * p + i) = false) ∧ (ispAt s p).jobs = [j] ∧ j.ctx < 64 ∧ j.manual = false ∧ j.started =
    false ∧ j.inl = false ∧ j.gather = false ∧ (ispAt s p).unit = none ∧ ispMode s p = ispSHARED ∧ (∃ f, frameAt s
    j.stream j.seq = some f ∧ f.phase ≠ Phase.open) ∧ s.tb ≤ j.tb + rd s F.ISP_CTX_MAX_AGE_NS (ctxI p j.ctx) ∧
    mergeForm s p j.ctx = 0 ∧ jobCode s p j = 0) ∧
    (∃ (s : State) (p : Nat) (j : IspJob), p < 2 ∧ blockWorks s (12 + p) = true ∧ s.podRuns = [] ∧ (∀ i < 8, isSet s
    F.ISP_DONE_CFG_EN (8 * p + i) = false) ∧ (ispAt s p).jobs = [j] ∧ j.ctx < 64 ∧ j.manual = false ∧ j.started =
    false ∧ j.inl = false ∧ j.gather = false ∧ (ispAt s p).unit = none ∧ ispMode s p = ispSHARED ∧ (∃ f, frameAt s
    j.stream j.seq = some f ∧ f.phase ≠ Phase.open) ∧ j.tb + rd s F.ISP_CTX_MAX_AGE_NS (ctxI p j.ctx) < s.tb) ∧
    (∃ (s : State) (p : Nat) (j : IspJob) (f : Frame), p < 2 ∧ blockWorks s (12 + p) = true ∧ s.podRuns = [] ∧ (∀ i <
    8, isSet s F.ISP_DONE_CFG_EN (8 * p + i) = false) ∧ (ispAt s p).jobs = [j] ∧ j.ctx < 64 ∧ j.manual = false ∧
    frameAt s j.stream j.seq = some f ∧ f.phase ≠ Phase.open ∧ isSet (snapView s j) F.ISP_CTX_OUT_EN_STAT_EN (ctxI p
    j.ctx) = false ∧ j.started = true ∧ j.inl = false ∧ j.stop = false ∧ (ispAt s p).unit = some j.ctx ∧ isSet
    (snapView s j) F.ISP_CTX_CFG_STRIPED (ctxI p j.ctx) = false) ∧
    (∃ (s : State) (p : Nat) (j : IspJob) (f : Frame), p < 2 ∧ blockWorks s (12 + p) = true ∧ s.podRuns = [] ∧ (∀ i <
    8, isSet s F.ISP_DONE_CFG_EN (8 * p + i) = false) ∧ (ispAt s p).jobs = [j] ∧ j.ctx < 64 ∧ j.manual = false ∧
    frameAt s j.stream j.seq = some f ∧ f.phase ≠ Phase.open ∧ isSet (snapView s j) F.ISP_CTX_OUT_EN_STAT_EN (ctxI p
    j.ctx) = false ∧ j.inl = true) :=
  ⟨⟨wj mg jobG none, 0, jobG, by decide +kernel⟩,
  ⟨wj c2 job none, 0, job, by decide +kernel⟩,
  ⟨wj old job none, 0, job, by decide +kernel⟩,
  ⟨wj c2 jobS (some 5), 0, jobS, fx, by decide +kernel⟩,
  ⟨wj c1 jobI none, 0, jobI, fx, by decide +kernel⟩⟩
end PipelineUnitsRunAndEnd

namespace DescriptorsStartMoveAndEnd
def mk (l : List (Nat × Nat)) : List Nat := (List.range 64).map fun i => ((l.find? fun e => e.1 == i).map Prod.snd).getD 0
def copyB := mk [(0,1),(2,3),(8,0x10),(15,0x40),(0x10,0x80),(0x17,0x40),(0x18,8),(0x1C,1)]
def d0 : Desc := newDesc 1 copyB none none
def dS : Desc := { d0 with id := 7, started := true }
def dM : Desc := { dS with moved := true }
def spm0 := (List.range 16).foldl (fun s i => spmPut s (0x10+i) [i+1]) live
def base := spm0
def sd (d : Desc) : State := { base with descs := [d] }

theorem test_meets_DescriptorsStartMoveAndEnd :
    (∃ (s : State) (d : Desc), blockWorks s 16 = true ∧ s.descs = [d] ∧ d.ended = none ∧ d.chan < 64 ∧ d.started =
    false ∧ dmaSpace d.dst ≠ 3 ∧ (dmaChAt s d.chan).paused = false ∧ s.sdlvQ = [] ∧ (∀ k < 64, isSet s
    F.DMA_SDLV_CFG_EN k = false) ∧ (d.kind = dCOPY ∨ d.kind = dFRAME ∧ ∃ q f, d.seq = some q ∧ frameAt s d.stream q =
    some f ∧ f.phase = Phase.complete ∧ f.final = false ∧ gateOn s f.stream = false)) ∧
    (∃ (s : State) (d : Desc), blockWorks s 16 = true ∧ s.descs = [d] ∧ d.ended = none ∧ d.chan < 64 ∧ d.started =
    true ∧ d.moved = false ∧ (dmaChAt s d.chan).paused = false ∧ d.kind = dCOPY ∧ d.u 3 1 = 0 ∧ d.u 48 2 = 0 ∧
    dmaSpace d.src = 1 ∧ dmaSpace d.dst = 1 ∧ d.rows = 1 ∧ d.row = 0 ∧ d.unit = 0 ∧ 1 ≤ d.length ∧ d.length ≤ 512 ∧
    dmaAddr d.src + d.length ≤ 8388608 ∧ dmaAddr d.dst + d.length ≤ 8388608 ∧ d.record = false) ∧
    (∃ (s : State) (d : Desc), blockWorks s 16 = true ∧ s.descs = [d] ∧ d.ended = none ∧ d.chan < 64 ∧ d.started =
    true ∧ d.moved = true ∧ d.region = none ∧ d.kind = dCOPY ∧ d.record = false ∧ d.confirmed = false ∧ d.ecc = false
    ∧ (dmaChAt s d.chan).draining = false) :=
  ⟨⟨sd d0, d0, by decide +kernel, by decide +kernel, by decide +kernel, by decide +kernel, by decide +kernel,
  by decide +kernel, by decide +kernel, by decide +kernel, by decide +kernel, .inl (by decide +kernel)⟩,
  ⟨sd dS, dS, by decide +kernel⟩,
  ⟨sd dM, dM, by decide +kernel⟩⟩
end DescriptorsStartMoveAndEnd

end Sys2Proof.Tests
end

section
/-! The loss of the PCIe reference (R34): the registers that it writes, and that what lets a block work and a core issue is
none of them. -/
namespace Sys2Proof.Machine

/-! ### Operations that write registers alone -/

/-- Of `s`, registers alone differ in `t`, whichever they are. -/
def RegsOnly (s t : State) : Prop := t = { s with regs := t.regs }

theorem RegsOnly.refl (s : State) : RegsOnly s s := rfl

theorem RegsOnly.wr {s t : State} (h : RegsOnly s t) (f : Field) (i v : Nat) : RegsOnly s (wr t f i v) := by
  unfold RegsOnly at h
  rw [h]; rfl

theorem RegsOnly.setStatus {s t : State} (h : RegsOnly s t) (f : Field) (evt : Nat) (on : Bool) :
    RegsOnly s (setStatus t f evt on) := by
  unfold Machine.setStatus
  split
  · exact h
  · exact (h.wr ..).wr ..

theorem RegsOnly.linkLoss {s t : State} (h : RegsOnly s t) : RegsOnly s (linkLoss t) := by
  unfold Machine.linkLoss
  split
  · exact ((h.wr ..).wr ..).wr ..
  · exact h

/-! ### A status bit and the host link -/

/-- A cleared status bit reads 0, whether it was set before or not. -/
theorem rd_setStatus_false (s : State) (f : Field) (evt : Nat) (hf : F.GLB_EVT_EVT.key 0 ≠ f.key 0) :
    rd (setStatus s f evt false) f = 0 := by
  unfold setStatus
  split
  next hclear => simpa [isSet] using hclear
  next => rw [setBit_eq, rd_wr_ne _ _ _ _ _ _ hf, wrBool_eq, rd_wr_same]; rfl

/-- A change of a status bit leaves every other field alone but the events of GLB. -/
theorem rd_setStatus_ne (s : State) (f g : Field) (evt : Nat) (on : Bool) (i : Nat) (hf : f.key 0 ≠ g.key i)
    (he : F.GLB_EVT_EVT.key 0 ≠ g.key i) : rd (setStatus s f evt on) g i = rd s g i := by
  unfold setStatus
  split
  · rfl
  · rw [setBit_eq, rd_wr_ne _ _ _ _ _ _ he, wrBool_eq, rd_wr_ne _ _ _ _ _ _ hf]

theorem Keeps.setStatus {ks : List (Field × Nat)} {s u : State} (h : Keeps ks s u) (f : Field) (evt : Nat) (on : Bool)
    (hf : (f, 0) ∈ ks) (he : (F.GLB_EVT_EVT, 0) ∈ ks) : Keeps ks s (setStatus u f evt on) := fun g i hg =>
  (rd_setStatus_ne u f g evt on i (hg _ hf) (hg _ he)).trans (h g i hg)

/-- After the loss the link is down, whether it was up before or not (R437). -/
theorem rd_linkLoss_up (s : State) : rd (linkLoss s) F.HIF_LINK_STATUS_UP = 0 := by
  unfold linkLoss
  split
  next =>
    rw [setBit_eq, rd_wr_field _ _ _ _ _ _ (by decide), bump_eq, rd_wr_field _ _ _ _ _ _ (by decide), rd_wr_same]
    rfl
  next hdown => simpa [isSet] using hdown

theorem Keeps.linkLoss {ks : List (Field × Nat)} {s u : State} (h : Keeps ks s u) (hu : (F.HIF_LINK_STATUS_UP, 0) ∈ ks)
    (hd : (F.HIF_LINK_DOWNS_COUNT, 0) ∈ ks) (he : (F.HIF_EVT_EVT, 0) ∈ ks) : Keeps ks s (linkLoss u) := by
  unfold Machine.linkLoss
  split
  · exact ((h.wr _ _ _ hu).wr _ _ _ hd).wr _ _ _ he
  · exact h

/-! ### What lets a block work and a core issue -/

/-- The register fields that say whether a block works: the power good of its domain and the resets that hold it. -/
def worksFields : List Field := [F.KP_GOOD_DOMAINS, F.GLB_RST_STATUS_WARM_BUSY, F.GLB_RST_STATUS_BLK_BUSY]

/-- None of the listed fields is among `ks`, whatever the unit. -/
def Spares (ks : List (Field × Nat)) (fs : List Field) : Prop := ∀ p ∈ ks, ∀ f ∈ fs, p.1.fid % 1024 ≠ f.fid % 1024

/-- A change that spares a field leaves it as it reads, of every unit. -/
theorem Changes.rd_spared {ks : List (Field × Nat)} {fs : List Field} {s t : State} (h : Changes ks s t) (hs : Spares ks fs)
    {f : Field} (hf : f ∈ fs) (i : Nat) : rd t f i = rd s f i :=
  h.1 f i fun p hp e => hs p hp f hf ((key_eq_iff p.1 f p.2 i).mp e).1

/-- Domains work alike where power good and the resets read alike and the lane reference stands alike (R31, R48, R571). -/
theorem domUp_congr {s t : State} (hgood : rd t F.KP_GOOD_DOMAINS = rd s F.KP_GOOD_DOMAINS)
    (hwarm : rd t F.GLB_RST_STATUS_WARM_BUSY = rd s F.GLB_RST_STATUS_WARM_BUSY) (hreset : t.aDieReset = s.aDieReset)
    (hlane : t.laneStopped = s.laneStopped) : domUp t = domUp s := by
  funext d
  simp only [domUp, domReach, domGood, resetRunning, isSet, hgood, hwarm, hreset, hlane]

/-- A change that spares power good and the resets leaves every block working as it worked. -/
theorem Changes.blockWorks {ks : List (Field × Nat)} {s t : State} (h : Changes ks s t) (hs : Spares ks worksFields) (b : Nat) :
    blockWorks t b = blockWorks s b := by
  have hdom : domUp t = domUp s := domUp_congr (h.rd_spared hs (by decide) 0) (h.rd_spared hs (by decide) 0)
    h.2.aDieReset h.2.laneStopped
  have hbusy : rd t F.GLB_RST_STATUS_BLK_BUSY = rd s F.GLB_RST_STATUS_BLK_BUSY := h.rd_spared hs (by decide) 0
  simp only [Machine.blockWorks, blkBusy, hdom, hbusy]

theorem Changes.coreAt {ks : List (Field × Nat)} {s t : State} (h : Changes ks s t) (c : Nat) : coreAt t c = coreAt s c := by
  unfold Machine.coreAt; rw [h.2.cores]

/-- A change that also spares the cores' STATE leaves every core able to issue that was. -/
theorem Changes.canIssue {ks : List (Field × Nat)} {s t : State} (h : Changes ks s t) (hs : Spares ks worksFields)
    (hst : Spares ks [F.SQ_STATUS_STATE]) (c : Nat) : canIssue t c = canIssue s c := by
  have hstate : sqState t c = sqState s c := h.rd_spared hst (.head _) c
  simp only [Machine.canIssue, h.blockWorks hs, hstate, h.coreAt]

/-! ### The loss of the PCIe reference -/

/-- The registers that the loss of the PCIe reference changes: the two bits, their event registers, the count of losses. -/
def pcieLossFields : List (Field × Nat) :=
  [(F.GLB_STATUS_REF_PCIE_OK, 0), (F.GLB_EVT_EVT, 0), (F.HIF_LINK_STATUS_UP, 0), (F.HIF_LINK_DOWNS_COUNT, 0), (F.HIF_EVT_EVT, 0)]

theorem pcieRefLoss_keeps (s : State) : Keeps pcieLossFields s (pcieRefLoss s) :=
  ((Keeps.refl _ s).linkLoss (by decide) (by decide) (by decide)).setStatus _ _ _ (by decide) (by decide)

theorem pcieRefLoss_regsOnly (s : State) : RegsOnly s (pcieRefLoss s) := (RegsOnly.refl s).linkLoss.setStatus ..

theorem rd_pcieRefLoss_up (s : State) : rd (pcieRefLoss s) F.HIF_LINK_STATUS_UP = 0 :=
  (rd_setStatus_ne _ _ _ _ _ _ (by decide) (by decide)).trans (rd_linkLoss_up s)

theorem rd_pcieRefLoss_refOk (s : State) : rd (pcieRefLoss s) F.GLB_STATUS_REF_PCIE_OK = 0 :=
  rd_setStatus_false _ _ _ (by decide)

theorem pcieLossFields_spare_works : Spares pcieLossFields worksFields := by unfold Spares; decide

theorem pcieLossFields_spare_sqState : Spares pcieLossFields [F.SQ_STATUS_STATE] := by unfold Spares; decide

/-- Settles O54: of the registers only `pcieLossFields` change, and these are none of those that let a block work or a core
issue; all else that the blocks hold is as it was, since the command writes registers alone. -/
theorem pcieReferenceLossLeavesTheDeviceRunning : Obligations.PcieReferenceLossLeavesTheDeviceRunning := by
  intro s
  refine answers_finish (u := pcieRefLoss s) fun t ht => ?_
  have hc : Changes pcieLossFields s t := ht.changes (pcieRefLoss_keeps s) (pcieRefLoss_regsOnly s)
  have hrest : Settled { s with regs := t.regs } t := hc.2
  have hworks := pcieLossFields_spare_works
  exact ⟨(ht.rd _ _).trans (rd_pcieRefLoss_up s), (ht.rd _ _).trans (rd_pcieRefLoss_refOk s), hc.blockWorks hworks,
    fun c => ⟨hc.canIssue hworks pcieLossFields_spare_sqState c, hc.coreAt c⟩, hrest.streams, hrest.prt, hrest.pktPorts,
    hrest.isp, hrest.podRuns, hrest.descs, hrest.lp5x, hrest.storeBuf, hc⟩

end Sys2Proof.Machine
end

section
/-! Jumps of a core (R109): what a fault leaves in the registers, what the end of a single-stepped instruction leaves alone,
and the three ways in which jr and ret end. -/
namespace Sys2Proof.Machine

/-! ### The registers of a fault (R100) -/

/-- In `t` core `c` is FAULTED, with the cause and the address that its registers then hold. -/
structure FaultedAt (t : State) (c pc cause : Nat) : Prop where
  state_eq : sqState t c = sqFAULTED
  pc_eq : rd t F.SQ_FAULT_PC_PC c = pc
  cause_eq : rd t F.SQ_STATUS_FAULT c = cause

/-- A fault writes state, cause and address last, so no region or recipe that it ends shows in them. -/
theorem faultedAt_coreFault (s : State) (c : Nat) {pc cause : Nat} (hpc : pc < 2 ^ F.SQ_FAULT_PC_PC.width)
    (hcause : cause < 2 ^ F.SQ_STATUS_FAULT.width) : FaultedAt (coreFault s c pc cause) c pc cause where
  state_eq := by
    unfold coreFault sqIrq setSqState sqState
    rw [setBit_eq, rd_wr_field _ _ _ _ _ _ (by decide), rd_wr_field _ _ _ _ _ _ (by decide),
      rd_wr_field _ _ _ _ _ _ (by decide), rd_wr_same]
    rfl
  pc_eq := by
    unfold coreFault sqIrq
    rw [setBit_eq, rd_wr_field _ _ _ _ _ _ (by decide), rd_wr_same, Nat.mod_eq_of_lt hpc]
  cause_eq := by
    unfold coreFault sqIrq
    rw [setBit_eq, rd_wr_field _ _ _ _ _ _ (by decide), rd_wr_field _ _ _ _ _ _ (by decide), rd_wr_same,
      Nat.mod_eq_of_lt hcause]

/-- Every pc fits SQ_FAULT_PC. -/
theorem pcOf_lt (s : State) (c : Nat) : pcOf s c < 2 ^ F.SQ_FAULT_PC_PC.width := by
  have hpc : rd s F.SQ_PC_PC c < 2 ^ 13 := rd_lt s F.SQ_PC_PC c
  show 4 * rd s F.SQ_PC_PC c < 2 ^ 15
  omega

theorem pcOf_setPc (s : State) (c : Nat) {v : Nat} (halign : v % 4 = 0) (hrange : v ≤ 0x7FFC) : pcOf (setPc s c v) c = v := by
  have hfits : v / 4 % 2 ^ F.SQ_PC_PC.width = v / 4 := Nat.mod_eq_of_lt (show v / 4 < 2 ^ 13 by omega)
  unfold pcOf setPc
  rw [rd_wr_same, hfits]
  omega

theorem sqState_setPc (s : State) (c v : Nat) : sqState (setPc s c v) c = sqState s c := rd_wr_field _ _ _ _ _ _ (by decide)

/-! ### The end of an instruction (R624) -/

theorem stepEnd_of_not_running {s : State} {c : Nat} (h : sqState s c ≠ sqRUNNING) : stepEnd s c = s := by
  simp [stepEnd, h]

theorem stepEnd_touches (s : State) (c : Nat) : Touches [F.SQ_STATUS_STATE] s (stepEnd s c) := by
  unfold stepEnd; dsimp only
  split
  · exact (Touches.of_regs rfl).wr _ _ _ (.head _)
  · exact .refl

/-- The end of a step halts a core or leaves its state: it faults none. -/
theorem sqState_stepEnd_ne_faulted {s : State} {c : Nat} (h : sqState s c ≠ sqFAULTED) : sqState (stepEnd s c) c ≠ sqFAULTED := by
  unfold stepEnd; dsimp only
  split
  · unfold sqState setSqState
    rw [rd_wr_same]
    decide
  · exact h

theorem issue_of_canIssue {s : State} {c : Nat} (h : canIssue s c = true) (f : State → State) :
    issue c f s = stepEnd (f s) c := if_pos h

theorem sqState_of_canIssue {s : State} {c : Nat} (h : canIssue s c = true) : sqState s c = sqRUNNING := by
  simp only [canIssue, Bool.and_eq_true, beq_iff_eq] at h
  exact h.1.2

/-! ### jr and ret (R109) -/

theorem exec_jr (c a : Nat) (s : State) : exec (.jr c a) s = onCore c (tsxJr c a) s := rfl

theorem exec_ret (c : Nat) (s : State) : exec (.ret c) s = onCore c (tsxRet c) s := rfl

theorem jumpTo_misaligned {s : State} {c v : Nat} (h : v % 4 ≠ 0) : jumpTo s c v = coreFault s c (pcOf s c) fMISALIGNED :=
  if_pos h

theorem jumpTo_beyond {s : State} {c v : Nat} (halign : v % 4 = 0) (h : 0x7FFC < v) :
    jumpTo s c v = coreFault s c (pcOf s c) fBADADDR := by
  rw [jumpTo, if_neg (not_not.mpr halign), if_pos h]

theorem jumpTo_address {s : State} {c v : Nat} (halign : v % 4 = 0) (h : v ≤ 0x7FFC) : jumpTo s c v = setPc s c v := by
  rw [jumpTo, if_neg (not_not.mpr halign), if_neg (Nat.not_lt.mpr h)]

/-- How a core that moves the value `v` into its pc in `s` stands in `t`. -/
inductive Jumped (s : State) (c v : Nat) (t : State) : Prop where
  | taken (halign : v % 4 = 0) (hrange : v ≤ 0x7FFC) (hpc : pcOf t c = v) (hstate : sqState t c ≠ sqFAULTED)
  | misaligned (halign : v % 4 ≠ 0) (hfault : FaultedAt t c (pcOf s c) fMISALIGNED)
  | beyond (halign : v % 4 = 0) (hrange : 0x7FFC < v) (hfault : FaultedAt t c (pcOf s c) fBADADDR)

/-- A faulted core is not RUNNING, so the end of the instruction adds nothing to the fault. -/
theorem faultedAt_stepEnd_coreFault (s : State) (c : Nat) {cause : Nat} (hcause : cause < 2 ^ F.SQ_STATUS_FAULT.width) :
    FaultedAt (stepEnd (coreFault s c (pcOf s c) cause) c) c (pcOf s c) cause := by
  have hfault := faultedAt_coreFault s c (pcOf_lt s c) hcause
  rwa [stepEnd_of_not_running (by rw [hfault.state_eq]; decide)]

theorem jumped_stepEnd_jumpTo {s : State} {c : Nat} (v : Nat) (hrun : sqState s c = sqRUNNING) :
    Jumped s c v (stepEnd (jumpTo s c v) c) := by
  by_cases halign : v % 4 = 0
  · rcases Nat.lt_or_ge 0x7FFC v with hrange | hrange
    · rw [jumpTo_beyond halign hrange]
      exact .beyond halign hrange (faultedAt_stepEnd_coreFault s c (by decide))
    · rw [jumpTo_address halign hrange]
      refine .taken halign hrange ?_ (sqState_stepEnd_ne_faulted ?_)
      · have hkept : pcOf (stepEnd (setPc s c v) c) c = pcOf (setPc s c v) c :=
          congrArg (4 * ·) (stepEnd_touches (setPc s c v) c F.SQ_PC_PC c (by decide))
        exact hkept.trans (pcOf_setPc s c halign hrange)
      · rw [sqState_setPc, hrun]; decide
  · rw [jumpTo_misaligned halign]
    exact .misaligned halign (faultedAt_stepEnd_coreFault s c (by decide))

theorem FaultedAt.settled {u t : State} {c pc cause : Nat} (h : FaultedAt u c pc cause) (ht : Settled u t) :
    FaultedAt t c pc cause :=
  ⟨(ht.rd _ _).trans h.state_eq, (ht.rd _ _).trans h.pc_eq, (ht.rd _ _).trans h.cause_eq⟩

theorem Jumped.settled {s u t : State} {c v : Nat} (h : Jumped s c v u) (ht : Settled u t) : Jumped s c v t := by
  have hpc : pcOf t c = pcOf u c := congrArg (4 * ·) (ht.rd _ _)
  have hstate : sqState t c = sqState u c := ht.rd _ _
  cases h with
  | taken halign hrange hto hok => exact .taken halign hrange (hpc.trans hto) (hstate ▸ hok)
  | misaligned halign hfault => exact .misaligned halign (hfault.settled ht)
  | beyond halign hrange hfault => exact .beyond halign hrange (hfault.settled ht)

/-- An instruction that moves `v` into the pc of a core that can issue it ends in one of the three ways of a jump. -/
theorem answers_jump {s : State} {c v : Nat} {f : State → State} (hc : c < 8) (hi : canIssue s c = true)
    (hf : f s = jumpTo s c v) : Answers (onCore c f s) (Jumped s c v) := by
  refine answers_onUnit hc fun t ht => ?_
  rw [issue_of_canIssue hi, hf] at ht
  exact (jumped_stepEnd_jumpTo v (sqState_of_canIssue hi)).settled ht

/-- Settles O57: both instructions hand the value of their register to one jump, and each of its three ways meets the clause
that its alignment and range select. -/
theorem jumpsMoveTheirValueIntoPc : Obligations.JumpsMoveTheirValueIntoPc := by
  intro s c a hc hi p hp
  have hjump : Answers (exec p.1 s) (Jumped s c p.2) := by
    rcases List.mem_pair.mp hp with rfl | rfl
    · rw [exec_jr]
      exact answers_jump hc hi rfl
    · rw [exec_ret]
      exact answers_jump hc hi rfl
  obtain ⟨t, hexec, hjumped⟩ := hjump
  refine ⟨t, hexec, ?_⟩
  cases hjumped with
  | taken halign hrange hpc hstate => exact ⟨fun _ _ => ⟨hpc, hstate⟩, fun hno => absurd ⟨halign, hrange⟩ hno⟩
  | misaligned halign hfault =>
    exact ⟨fun h => absurd h halign, fun _ => ⟨hfault.state_eq, hfault.pc_eq, fun _ => hfault.cause_eq, fun h => absurd h halign,
      .inr hfault.cause_eq⟩⟩
  | beyond halign hrange hfault =>
    exact ⟨fun _ h => absurd h (Nat.not_le.mpr hrange), fun _ => ⟨hfault.state_eq, hfault.pc_eq,
      fun h => absurd h (Nat.not_le.mpr hrange), fun _ => hfault.cause_eq, .inl hfault.cause_eq⟩⟩

end Sys2Proof.Machine
end

section
/-! The bindings of a mailbox (R472): the mirror of the lock in MBX_LOCK, what a write of MBX_BIND answers, and the sends
that a mailbox bound to 0x1F refuses. -/
namespace Sys2Proof.Machine

/-! ### A read of a plain register by the PF -/

/-- The PF reads a 32-bit register that its access reaches; no window of another memory and no reset stands between. -/
theorem busRead_register {s : State} {a : Nat} (halign : goodAccess a 4 = true) (hplace : barPlace s a = .regs)
    (hreach : busReach s a = true) : busRead s 0x01 a 4 = read32 s 0x01 a := by
  have hpf : (decide (fnOf 0x01 ≠ 0) && !vfEnabled s (fnOf 0x01)) = false := rfl
  have hbar : (!reachesBar 0x01) = false := rfl
  have hread : barRead s 0x01 a 4 = read32 s 0x01 a := by rw [barRead, hplace]; rfl
  rw [busRead, hpf, halign, hbar, hreach, ← hread]
  rfl

/-- A read of a register that is no pair is the read of all its fields. -/
theorem read32_single {s : State} {mid a : Nat} {h : Hit} (hat : regAt a = some h) (hlow : h.high = false)
    (hpair : h.reg.pair = false) : read32 s mid a = regRead s mid h.reg h.inst := by
  simp [read32, hat, hlow, hpair]

/-! ### MBX_LOCK -/

theorem regAt_mbxLock : regAt 0x4F01C = some ⟨R.MBX_LOCK, 0, false⟩ := by decide

theorem fieldRead_mbxLock (s : State) (i : Nat) : fieldRead s F.MBX_LOCK_LOCKED i = (rd s F.KL_LOCKS_MBX, s) :=
  congrArg (·, s) (rd_mod s F.KL_LOCKS_MBX 0)

theorem regRead_mbxLock (s : State) (mid i : Nat) : regRead s mid R.MBX_LOCK i = (rd s F.KL_LOCKS_MBX, s) := by
  have hvalue : regValue s R.MBX_LOCK i = (0 + rd s F.KL_LOCKS_MBX * 2 ^ 0, s) := by
    show (0 + (fieldRead s F.MBX_LOCK_LOCKED i).1 * 2 ^ 0, (fieldRead s F.MBX_LOCK_LOCKED i).2) = _
    rw [fieldRead_mbxLock]
  show ((regValue s R.MBX_LOCK i).1, restartRc (regValue s R.MBX_LOCK i).2 R.MBX_LOCK i) = _
  rw [hvalue, Nat.zero_add, pow_zero, Nat.mul_one]
  rfl

/-- MBX_LOCK, where it is reached, shows the keeper's lock of the bindings. -/
theorem busRead_mbxLock {s : State} (hreach : busReach s 0x4F01C = true) :
    busRead s 0x01 0x4F01C 4 = (rd s F.KL_LOCKS_MBX, s) := by
  rw [busRead_register rfl rfl hreach, read32_single regAt_mbxLock rfl rfl, regRead_mbxLock]

/-! ### Which bindings R472 admits -/

/-- A MID that a binding may name. -/
def Bindable (n : Nat) : Prop := n = 0 ∨ (1 ≤ n ∧ n ≤ 8) ∨ (0x10 ≤ n ∧ n ≤ 0x17) ∨ n = 0x18 ∨ n = 0x1F

/-- An open MID: a VF or the twin. -/
def OpenMid (n : Nat) : Prop := (2 ≤ n ∧ n ≤ 8) ∨ n = 0x18

/-- The binding of mailbox `m` that `val`, as a value of MBX_BIND, spells is one that R472 refuses whoever writes it. -/
def BadBinding (s : State) (m val : Nat) : Prop :=
  let a := F.MBX_BIND_SENDER.bits val
  let b := F.MBX_BIND_RECEIVER.bits val
  ¬ Bindable a ∨ ¬ Bindable b ∨ (a = b ∧ a ≠ 0x1F) ∨ (F.MBX_BIND_ATTR.bits val = 0 ∧ (OpenMid a ∨ OpenMid b))
    ∨ isSet s F.MBX_STAT_FULL m = true

theorem bindMid_iff (n : Nat) : bindMid n = true ↔ Bindable n := by
  simp only [bindMid, Bindable, Bool.or_eq_true, Bool.and_eq_true, decide_eq_true_eq, beq_iff_eq]
  omega

theorem isOpen_iff (n : Nat) : isOpen n = true ↔ OpenMid n := by
  simp only [isOpen, OpenMid, Bool.or_eq_true, Bool.and_eq_true, decide_eq_true_eq, beq_iff_eq]

theorem bindBad_iff (s : State) (m val : Nat) :
    bindBad s m (F.MBX_BIND_SENDER.bits val) (F.MBX_BIND_RECEIVER.bits val) (F.MBX_BIND_ATTR.bits val) = true
      ↔ BadBinding s m val := by
  simp only [bindBad, BadBinding, ← bindMid_iff, ← isOpen_iff, Bool.or_eq_true, Bool.and_eq_true, Bool.not_eq_true',
    Bool.not_eq_true, decide_eq_true_eq, beq_iff_eq, or_assoc]

theorem ruler_iff (mid : Nat) : ruler mid = true ↔ mid = 0 ∨ mid = 1 := by
  simp only [ruler, Bool.or_eq_true, beq_iff_eq]

/-! ### What a write of MBX_BIND does -/

/-- Mailbox `m` has the binding that `val`, as a value of MBX_BIND, spells. -/
def Bound (s : State) (m val : Nat) : Prop :=
  F.MBX_BIND_SENDER.bits val = rd s F.MBX_BIND_SENDER m ∧ F.MBX_BIND_RECEIVER.bits val = rd s F.MBX_BIND_RECEIVER m
  ∧ F.MBX_BIND_ATTR.bits val = rd s F.MBX_BIND_ATTR m

/-- The state with the binding of mailbox `m` that `val` spells. -/
def bindTo (s : State) (m val : Nat) : State :=
  wr (wr (wr s F.MBX_BIND_SENDER m (F.MBX_BIND_SENDER.bits val)) F.MBX_BIND_RECEIVER m (F.MBX_BIND_RECEIVER.bits val))
    F.MBX_BIND_ATTR m (F.MBX_BIND_ATTR.bits val)

theorem bindWrite_bound {s : State} {mid m val : Nat} (h : Bound s m val) : bindWrite s mid m val = s := if_pos h

theorem bindWrite_discarded {s : State} {mid m val : Nat} (hnew : ¬ Bound s m val)
    (h : isSet s F.KL_LOCKS_MBX = true ∨ ruler mid = false ∨ BadBinding s m val) :
    bindWrite s mid m val = setBit s F.MBX_EVT_EVT 0 3 := by
  refine (if_neg hnew).trans (if_pos ?_)
  simpa only [Bool.or_eq_true, Bool.not_eq_true', bindBad_iff, or_assoc] using h

theorem bindWrite_binds {s : State} {mid m val : Nat} (hnew : ¬ Bound s m val) (hopen : isSet s F.KL_LOCKS_MBX = false)
    (hruler : ruler mid = true) (hgood : ¬ BadBinding s m val) : bindWrite s mid m val = bindTo s m val := by
  have hbad := Bool.eq_false_iff.mpr (mt (bindBad_iff ..).mp hgood)
  refine (if_neg hnew).trans (if_neg ?_)
  simp [hopen, hruler, hbad]

theorem Field.bits_lt (f : Field) (v : Nat) : f.bits v < 2 ^ f.width := Nat.mod_lt _ (Nat.two_pow_pos _)

theorem bound_bindTo (s : State) (m val : Nat) : Bound (bindTo s m val) m val := by
  have hfits (f : Field) : f.bits val % 2 ^ f.width = f.bits val := Nat.mod_eq_of_lt (f.bits_lt val)
  unfold bindTo
  refine ⟨?_, ?_, ?_⟩
  · rw [rd_wr_field _ _ _ _ _ _ (by decide), rd_wr_field _ _ _ _ _ _ (by decide), rd_wr_same, hfits]
  · rw [rd_wr_field _ _ _ _ _ _ (by decide), rd_wr_same, hfits]
  · rw [rd_wr_same, hfits]

theorem Settled.bound {u t : State} (ht : Settled u t) {m val : Nat} (h : Bound u m val) : Bound t m val := by
  simpa only [Bound, ht.rd] using h

theorem bindTo_changes {s t : State} {m val : Nat} (ht : Settled (bindTo s m val) t) :
    Changes [(F.MBX_BIND_SENDER, m), (F.MBX_BIND_RECEIVER, m), (F.MBX_BIND_ATTR, m)] s t :=
  ht.changes ((((Keeps.refl _ s).wr _ _ _ (by simp)).wr _ _ _ (by simp)).wr _ _ _ (by simp))
    ((((RegsOnly.refl s).wr ..).wr ..).wr ..)

/-- A discarded write shows in BIND_ERR and in nothing else. -/
theorem bindErr_changes {s t : State} (ht : Settled (setBit s F.MBX_EVT_EVT 0 3) t) :
    hasBit t F.MBX_EVT_EVT 0 3 = true ∧ Changes [(F.MBX_EVT_EVT, 0)] s t :=
  ⟨(ht.hasBit ..).trans (hasBit_setBit _ _ _ _ (by decide)),
    ht.changes ((Keeps.refl _ s).wr _ _ _ (by simp)) ((RegsOnly.refl s).wr ..)⟩

theorem exec_mbxBindWrite (mid m val : Nat) (s : State) : exec (.mbxBindWrite mid m val) s = execMbxBindWrite mid m val s := rfl

theorem answers_mbxBindWrite {s : State} {mid m val : Nat} {P : State → Prop} (hm : m < 64) (hreach : blockReach s 3 = true)
    (h : ∀ t, Settled (bindWrite s mid m val) t → P t) : Answers (exec (.mbxBindWrite mid m val) s) P := by
  rw [exec_mbxBindWrite]
  exact answers_unitReach hm hreach h

/-! ### The disabled mailbox -/

/-- No master is the sender of a mailbox whose SENDER is none. -/
theorem isSender_of_none {s : State} {mid m : Nat} (h : rd s F.MBX_BIND_SENDER m = 0x1F) : isSender s mid m = false := by
  rw [isSender, h]
  by_cases hmid : mid = 0x1F
  · rw [hmid]; rfl
  · rw [beq_eq_false_iff_ne.mpr (Ne.symm hmid), Bool.and_false, Bool.false_and]

theorem mbxSend_disabled {s : State} {mid m word : Nat}
    (h : rd s F.MBX_BIND_SENDER m = 0x1F ∨ rd s F.MBX_BIND_RECEIVER m = 0x1F) :
    mbxSend s mid m word = (.refused, mbxRefuse s mid m) := by
  refine if_pos ?_
  rcases h with hsender | hreceiver
  · simp [isSender_of_none hsender]
  · simp [hreceiver]

/-- Settles O56: the mirror is a read of the lock; a write of MBX_BIND keeps the binding, is discarded with BIND_ERR or takes
effect, and the clauses name which of the three; a disabled mailbox has no sender or no receiver. -/
theorem bindingsFollowTheLockAndItsRules : Obligations.BindingsFollowTheLockAndItsRules := by
  intro s m mid val hm _ _
  refine ⟨fun hreach => congrArg Prod.fst (busRead_mbxLock hreach), fun hreach => ?_, fun hnone => ?_⟩
  · refine answers_mbxBindWrite hm hreach fun t ht => ?_
    have hdiscard (hnew : ¬ Bound s m val) (h : isSet s F.KL_LOCKS_MBX = true ∨ ruler mid = false ∨ BadBinding s m val) :=
      bindErr_changes (bindWrite_discarded hnew h ▸ ht)
    refine ⟨fun hsame => bindWrite_bound hsame ▸ ht, fun hnew hlock => ?_, fun hnew _ hother => ?_,
      fun hnew hopen hruler => ⟨fun hbad => ?_, fun hgood => ?_⟩⟩
    · exact hdiscard hnew (.inl (by simp [isSet, hlock]))
    · exact (hdiscard hnew (.inr (.inl (by simp [ruler, hother])))).2
    · exact hdiscard hnew (.inr (.inr hbad))
    · have hbinds := bindWrite_binds hnew (by simp [isSet, hopen]) ((ruler_iff mid).mpr hruler) hgood
      rw [hbinds] at ht
      obtain ⟨hsender, hreceiver, hattr⟩ := ht.bound (bound_bindTo s m val)
      exact ⟨hsender.symm, hreceiver.symm, hattr.symm, bindTo_changes ht⟩
  · rw [mbxSend_disabled hnone]
    exact ⟨rfl, rfl⟩

end Sys2Proof.Machine
end

section
/-! What no transaction of the keeper changes by itself: the mark of a power-on or cold reset of the A-die (R561, R573). Only
the reset that a transaction makes can set it, so a bridge transaction that a warm reset cuts leaves it alone. -/
namespace Sys2Proof.Machine

theorem foldl_aDieReset {α : Type} {g : State → α → State} (hg : ∀ u x, (g u x).aDieReset = u.aDieReset)
    (l : List α) (s : State) : (l.foldl g s).aDieReset = s.aDieReset :=
  l.foldlRecOn (motive := fun u => u.aDieReset = s.aDieReset) g rfl fun u hu x _ => (hg u x).trans hu

/-! ### Operations that write registers -/

@[simp] theorem setBit_aDieReset (s : State) (f : Field) (i b : Nat) : (setBit s f i b).aDieReset = s.aDieReset := rfl
@[simp] theorem clearBits_aDieReset (s : State) (f : Field) (i m : Nat) : (clearBits s f i m).aDieReset = s.aDieReset := rfl
@[simp] theorem bump_aDieReset (s : State) (f : Field) (i : Nat) : (bump s f i).aDieReset = s.aDieReset := rfl
@[simp] theorem darkDrop_aDieReset (s : State) (n k : Nat) : (darkDrop s n k).aDieReset = s.aDieReset := rfl
@[simp] theorem refreshTrg_aDieReset (s : State) (n : Nat) : (refreshTrg s n).aDieReset = s.aDieReset := rfl
@[simp] theorem takeFree_aDieReset (s : State) (w : Nat) : (takeFree s w).2.aDieReset = s.aDieReset := rfl
@[simp] theorem lastErr_aDieReset (s : State) (code : Nat) : (lastErr s code).aDieReset = s.aDieReset := rfl
@[simp] theorem setKport_aDieReset (s : State) (p : Nat) (k : KPort) : (setKport s p k).aDieReset = s.aDieReset := rfl
@[simp] theorem setCapture_aDieReset (s : State) (src : Nat) (k : Capture) : (setCapture s src k).aDieReset = s.aDieReset := rfl

/-! ### Outputs that go dark, producers and captures -/

@[simp] theorem discardPulses_aDieReset (s : State) (n : Nat) (count : Bool) :
    (discardPulses s n count).aDieReset = s.aDieReset := by
  unfold discardPulses
  refine (foldl_aDieReset (fun u m => ?_) _ _).trans rfl
  rw [refreshTrg_aDieReset]
  split <;> rfl

@[simp] theorem poDarkOf_aDieReset (s : State) (n : Nat) : (poDarkOf s n).aDieReset = s.aDieReset := by
  have hpo (u : State) (p : Nat) : (poDark u p).aDieReset = u.aDieReset := by unfold poDark; dsimp only; split <;> rfl
  exact foldl_aDieReset (fun u p => by split; exacts [hpo u p, rfl]) _ _

@[simp] theorem goDark_aDieReset (s : State) (cause : Nat) (z : Bool) (c : Nat) :
    (goDark s cause z c).aDieReset = s.aDieReset := by
  cases z <;> simp [goDark, apply_ite State.aDieReset]

@[simp] theorem goDarkAll_aDieReset (s : State) (cause : Nat) (z : Bool) : (goDarkAll s cause z).aDieReset = s.aDieReset :=
  foldl_aDieReset (fun u c => goDark_aDieReset u cause z c) _ s

@[simp] theorem fireProducer_aDieReset (s : State) (p : Nat) : (fireProducer s p).aDieReset = s.aDieReset := by
  have hdeliver (u : State) (ch : Nat) : (deliver u ch).aDieReset = u.aDieReset := by
    simp [deliver, apply_ite State.aDieReset]
  have hfire (u : State) (ch : Nat) : (fireChannel u ch false).aDieReset = u.aDieReset := by
    simp [fireChannel, apply_ite State.aDieReset, hdeliver]
  unfold fireProducer
  split
  · exact foldl_aDieReset (fun u ch => by split; exacts [hfire u ch, rfl]) _ s
  · rfl

@[simp] theorem capture_aDieReset (s : State) (src detail : Nat) : (capture s src detail).aDieReset = s.aDieReset := by
  simp [capture, apply_ite State.aDieReset]

/-! ### The journal -/

@[simp] theorem journalSpoil_aDieReset (s : State) (word : Nat) : (journalSpoil s word).aDieReset = s.aDieReset := rfl
@[simp] theorem journalPut_aDieReset (s : State) (off : Nat) (bs : List Nat) :
    (journalPut s off bs).aDieReset = s.aDieReset := rfl

@[simp] theorem windowRead_aDieReset (s : State) (addr off : Nat) : (windowRead s addr off).2.aDieReset = s.aDieReset := by
  simp [windowRead, apply_ite Prod.snd, apply_ite State.aDieReset]

@[simp] theorem swapBank_aDieReset (s : State) (src i : Nat) : (swapBank s src i).aDieReset = s.aDieReset := by
  simp [swapBank, apply_ite State.aDieReset]

@[simp] theorem commitBank_aDieReset (s : State) (src i : Nat) : (commitBank s src i).aDieReset = s.aDieReset := by
  simp [commitBank, apply_ite State.aDieReset]

@[simp] theorem commitBanks_aDieReset (n : Nat) (s : State) : (commitBanks n s).2.aDieReset = s.aDieReset := by
  induction n generalizing s with
  | zero => rfl
  | succ n ih =>
    unfold commitBanks
    split
    · rfl
    · exact (ih _).trans (commitBank_aDieReset ..)

@[simp] theorem commitCut_aDieReset (s : State) (src i : Nat) : (commitCut s src i).aDieReset = s.aDieReset :=
  (foldl_aDieReset (fun u _ => journalSpoil_aDieReset u _) _ _).trans (swapBank_aDieReset s src i)

/-! ### The operation of each opcode -/

/-- The resets that the keeper's transactions make leave the mark alone. -/
def KeepsMark (rst : KeeperRst → State → State) : Prop := ∀ k u, (rst k u).aDieReset = u.aDieReset

@[simp] theorem opPoll_aDieReset (s : State) (max tail : Nat) : (opPoll s max tail).2.aDieReset = s.aDieReset := by
  unfold opPoll; dsimp only
  split <;> simp [apply_ite State.aDieReset]

@[simp] theorem opRead_aDieReset (s : State) (addr tail : Nat) : (opRead s addr tail).2.aDieReset = s.aDieReset := by
  have hlog (i : Nat) : (logRead s i).2.aDieReset = s.aDieReset := by
    simp [logRead, apply_ite Prod.snd, apply_ite State.aDieReset]
  have hconvert (k : Nat) : (convert s k).aDieReset = s.aDieReset := rfl
  unfold opRead
  split
  · exact windowRead_aDieReset ..
  · split
    · rfl
    · simp [apply_ite Prod.snd, apply_ite State.aDieReset, hlog, hconvert]

@[simp] theorem writePower_aDieReset (s : State) (h : Hit) (data tail : Nat) :
    (writePower s h data tail).2.aDieReset = s.aDieReset := by
  unfold writePower
  split
  · rfl
  · exact foldl_aDieReset (fun u f => wr_aDieReset u f _ _) _ _

theorem opWrite_aDieReset {rst : KeeperRst → State → State} (hrst : KeepsMark rst) (s : State) (addr data tail : Nat) :
    (opWrite rst s addr data tail).2.aDieReset = s.aDieReset := by
  have hreset : (writeReset rst s data).2.aDieReset = s.aDieReset := by
    simp [writeReset, apply_ite Prod.snd, apply_ite State.aDieReset, hrst _ _]
  have htrip : (writeTrip s data).2.aDieReset = s.aDieReset := by
    simp [writeTrip, apply_ite Prod.snd, apply_ite State.aDieReset]
  have hlocks (fs : List Field) :
      (fs.foldl (fun s f => if f.bits data = 1 then wr s f 0 1 else s) s).aDieReset = s.aDieReset :=
    foldl_aDieReset (fun u f => by split <;> rfl) _ _
  unfold opWrite
  split
  · rfl
  · split
    · rfl
    · simp [apply_ite Prod.snd, apply_ite State.aDieReset, hreset, htrip, hlocks]

theorem opKreset_aDieReset {rst : KeeperRst → State → State} (hrst : KeepsMark rst) (s : State) (port data : Nat)
    (pend : Bool) : (opKreset rst s port data pend).2.aDieReset = s.aDieReset := by
  simp [opKreset, apply_ite Prod.snd, apply_ite State.aDieReset, hrst _ _]

/-- An NVWRITE whose cell, whole or not, leaves the mark alone does so however its programming ends. -/
theorem nvEnd_aDieReset {put : Bool → State → State} (hput : ∀ good u, (put good u).aDieReset = u.aDieReset) (s : State)
    (addr tail : Nat) (fast : Bool) : (nvEnd s addr tail fast put).2.aDieReset = s.aDieReset := by
  unfold nvEnd nvCut
  split
  · exact hput true s
  · split
    · exact (capture_aDieReset ..).trans (hput false s)
    · exact hput false s

@[simp] theorem nvField_aDieReset (s : State) (good : Bool) (f : Field) (v : Nat) :
    (nvField s good f v).aDieReset = s.aDieReset := by
  cases good <;> rfl

@[simp] theorem copiesFollow_aDieReset (s : State) : (copiesFollow s).aDieReset = s.aDieReset := by
  unfold copiesFollow
  split <;> rfl

theorem nvLifecycle_aDieReset (s : State) (port data tail : Nat) (fast : Bool) :
    (nvLifecycle s port data tail fast).2.aDieReset = s.aDieReset := by
  have hend := nvEnd_aDieReset (fun good u => copiesFollow_aDieReset
    (wr u F.KL_LIFECYCLE_LOCKED 0 (if good && data == 0x4F50454E then 0 else 1))) s 0x100 tail fast
  unfold nvLifecycle
  split
  · rfl
  · split
    · rfl
    · exact hend

theorem nvLockable_aDieReset (s : State) (f : Field) (addr data tail : Nat) (fast : Bool) :
    (nvLockable s f addr data tail fast).2.aDieReset = s.aDieReset := by
  unfold nvLockable
  split
  · rfl
  · exact nvEnd_aDieReset (fun good u => (copiesFollow_aDieReset _).trans (nvField_aDieReset u good f _)) ..

theorem nvRanged_aDieReset (s : State) (fs : List Field) (ok : Bool) (addr data tail : Nat) (fast : Bool) :
    (nvRanged s fs ok addr data tail fast).2.aDieReset = s.aDieReset := by
  unfold nvRanged
  split
  · rfl
  · exact nvEnd_aDieReset (fun good u => foldl_aDieReset (fun v f => nvField_aDieReset v good f _) fs u) ..

theorem opIntent_aDieReset (s : State) (port hash tail : Nat) (fast : Bool) :
    (opIntent s port hash tail fast).2.aDieReset = s.aDieReset := by
  unfold opIntent
  split
  · rfl
  · split
    · rfl
    · split
      · rfl
      · exact nvEnd_aDieReset (fun good u => by cases good <;> rfl) ..

theorem opCommit_aDieReset (s : State) (port hash tail : Nat) (fast : Bool) :
    (opCommit s port hash tail fast).2.aDieReset = s.aDieReset := by
  unfold opCommit
  split
  · rfl
  · split
    · rfl
    · refine nvEnd_aDieReset (fun good u => ?_) ..
      cases good
      · rfl
      · simp

theorem nvWindow_aDieReset (s : State) (addr data tail : Nat) (fast : Bool) :
    (nvWindow s addr data tail fast).2.aDieReset = s.aDieReset := by
  have hput (off : Nat) (good : Bool) (u : State) :
      (if good then journalPut u off (toBytes 4 data) else journalSpoil u (off / 8)).aDieReset = u.aDieReset := by
    cases good <;> rfl
  have hend (off : Nat) := nvEnd_aDieReset (hput off) s addr tail fast
  simp only [nvWindow, apply_ite Prod.snd, apply_ite State.aDieReset, hend, ite_self]

@[simp] theorem opNvwrite_aDieReset (s : State) (port addr data tail : Nat) (fast : Bool) :
    (opNvwrite s port addr data tail fast).2.aDieReset = s.aDieReset := by
  unfold opNvwrite
  split
  · exact nvWindow_aDieReset ..
  · split
    · exact nvLifecycle_aDieReset ..
    · exact nvLockable_aDieReset ..
    · exact nvLockable_aDieReset ..
    · exact nvRanged_aDieReset ..
    · split
      · rfl
      · exact nvRanged_aDieReset ..
    · exact opIntent_aDieReset ..
    · exact opCommit_aDieReset ..
    · rfl

@[simp] theorem opStep_aDieReset (s : State) (port k tail : Nat) : (opStep s port k tail).2.aDieReset = s.aDieReset := by
  have happly : (applyStep s k).aDieReset = s.aDieReset := foldl_aDieReset (fun u n => bump_aDieReset u _ n) _ s
  simp [opStep, apply_ite Prod.snd, apply_ite State.aDieReset, happly]

@[simp] theorem opTime_aDieReset (s : State) (seconds : Nat) : (opTime s seconds).2.aDieReset = s.aDieReset :=
  fireProducer_aDieReset ..

theorem keeperOp_aDieReset {rst : KeeperRst → State → State} (hrst : KeepsMark rst) (s : State) (port op addr data tail : Nat)
    (fast pend : Bool) : (keeperOp rst s port op addr data tail fast pend).2.aDieReset = s.aDieReset := by
  unfold keeperOp
  split
  · exact opRead_aDieReset ..
  · exact opWrite_aDieReset hrst ..
  · exact opPoll_aDieReset ..
  · exact opStep_aDieReset ..
  · exact opTime_aDieReset ..
  · exact opNvwrite_aDieReset ..
  · exact opKreset_aDieReset hrst ..
  · rfl

/-! ### Whole transactions -/

@[simp] theorem portBegins_aDieReset (s : State) (p : Nat) : (portBegins s p).aDieReset = s.aDieReset := by
  unfold portBegins
  split <;> rfl

@[simp] theorem keeperCut_aDieReset (s : State) (p : Nat) : (keeperCut s p).aDieReset = s.aDieReset := by
  simp [keeperCut, apply_ite State.aDieReset]

theorem keeperFrame_aDieReset {rst : KeeperRst → State → State} (hrst : KeepsMark rst) (s : State)
    (port op addr data tail : Nat) (fast crcOk : Bool) :
    (keeperFrame rst s port op addr data tail fast crcOk).aDieReset = s.aDieReset := by
  unfold keeperFrame
  cases crcOk
  · simp [apply_ite State.aDieReset]
  · have hop := (keeperOp_aDieReset hrst (portBegins s port) port op addr data tail fast (kport s port).kreset).trans
      (portBegins_aDieReset s port)
    rw [Bool.not_true, if_neg Bool.false_ne_true, setKport_aDieReset]
    split
    · exact hop
    · rw [apply_ite State.aDieReset, lastErr_aDieReset, ite_self]
      exact hop

theorem bridgeCut_aDieReset {rst : KeeperRst → State → State} (hrst : KeepsMark rst) (s : State) :
    (bridgeCut rst s).aDieReset = s.aDieReset := by
  have habandoned (u : State) : (bridgeAbandoned u).aDieReset = u.aDieReset := rfl
  unfold bridgeCut
  split
  · rfl
  · simp [apply_ite State.aDieReset, habandoned, keeperFrame_aDieReset hrst]

/-- The loss of a bridge transaction makes no reset of its own (R579). -/
theorem bridgeLost_aDieReset (s : State) : (bridgeLost s).aDieReset = s.aDieReset :=
  bridgeCut_aDieReset (fun _ _ => rfl) s

end Sys2Proof.Machine
end

section
/-! The reset registers of the two dies (R569, R570): what a write of GLB_RST_CTL and a WRITE of KP_RESET do without the key,
and which reset they start with it. -/
namespace Sys2Proof.Machine

/-! ### The resets that a write starts (R572, R573) -/

/-- A warm reset runs that `cause` started. -/
def WarmRuns (cause : Nat) (t : State) : Prop :=
  (t.aDieReset = false ∧ rd t F.GLB_RST_STATUS_WARM_BUSY = 1) ∧ rd t F.GLB_RST_CAUSE_CAUSE = cause

/-- A cold reset runs that `cause` started. -/
def ColdRuns (cause : Nat) (t : State) : Prop := t.aDieReset = true ∧ rd t F.GLB_RST_CAUSE_CAUSE = cause

theorem rd_setKport (s : State) (p : Nat) (k : KPort) (f : Field) (i : Nat) : rd (setKport s p k) f i = rd s f i := rfl

theorem WarmRuns.setKport {cause : Nat} {s : State} (h : WarmRuns cause s) (p : Nat) (k : KPort) :
    WarmRuns cause (setKport s p k) := by
  simpa only [WarmRuns, setKport_aDieReset, rd_setKport] using h

theorem ColdRuns.setKport {cause : Nat} {s : State} (h : ColdRuns cause s) (p : Nat) (k : KPort) :
    ColdRuns cause (setKport s p k) := by
  simpa only [ColdRuns, setKport_aDieReset, rd_setKport] using h

theorem WarmRuns.settled {cause : Nat} {u t : State} (h : WarmRuns cause u) (ht : Settled u t) : WarmRuns cause t := by
  simpa only [WarmRuns, ht.aDieReset, ht.rd] using h

theorem ColdRuns.settled {cause : Nat} {u t : State} (h : ColdRuns cause u) (ht : Settled u t) : ColdRuns cause t := by
  simpa only [ColdRuns, ht.aDieReset, ht.rd] using h

theorem resetRunning_congr {s t : State} (hwarm : rd t F.GLB_RST_STATUS_WARM_BUSY = rd s F.GLB_RST_STATUS_WARM_BUSY)
    (hmark : t.aDieReset = s.aDieReset) : resetRunning t = resetRunning s := by
  simp only [resetRunning, isSet, hwarm, hmark]

theorem aDieReset_of_not_running {s : State} (h : resetRunning s = false) : s.aDieReset = false := (Bool.or_eq_false_iff.mp h).2

theorem refreshCopies_aDieReset (s : State) : (refreshCopies s).aDieReset = s.aDieReset := rfl

theorem aDieClear_aDieReset (s : State) : (aDieClear s).aDieReset = s.aDieReset := rfl

theorem aDieRegs_aDieReset (s : State) (also : List Field) : (aDieRegs s also).aDieReset = s.aDieReset := rfl

theorem aDieWarm_aDieReset (s : State) (also : List Field) : (aDieWarm s also).aDieReset = s.aDieReset := by
  simp only [aDieWarm, wr_aDieReset, refreshCopies_aDieReset, aDieClear_aDieReset, aDieRegs_aDieReset,
    bridgeLost_aDieReset, goDarkAll_aDieReset]

theorem rd_aDieWarm_busy (s : State) (also : List Field) : rd (aDieWarm s also) F.GLB_RST_STATUS_WARM_BUSY = 1 := rd_wr_same ..

theorem warmRuns_warmReset {s : State} {cause : Nat} (hrun : resetRunning s = false)
    (hc : cause < 2 ^ F.GLB_RST_CAUSE_CAUSE.width) : WarmRuns cause (warmReset s cause) := by
  rw [warmReset, hrun, if_neg Bool.false_ne_true, bump_eq, setCause]
  refine ⟨⟨?_, ?_⟩, ?_⟩
  · rw [wr_aDieReset, wr_aDieReset, aDieWarm_aDieReset, aDieReset_of_not_running hrun]
  · rw [rd_wr_field _ _ _ _ _ _ (by decide), rd_wr_field _ _ _ _ _ _ (by decide), rd_aDieWarm_busy]
  · rw [rd_wr_field _ _ _ _ _ _ (by decide), rd_wr_same, Nat.mod_eq_of_lt hc]

theorem coldRuns_coldReset {s : State} {cause : Nat} (hrun : resetRunning s = false)
    (hc : cause < 2 ^ F.GLB_RST_CAUSE_CAUSE.width) : ColdRuns cause (coldReset s cause) := by
  rw [coldReset, aDieReset_of_not_running hrun, if_neg Bool.false_ne_true]
  refine ⟨rfl, ?_⟩
  have hmarks (u : State) (a b : Bool) (f : Field) : rd { u with aDieReset := a, aDieReleased := b } f = rd u f := rfl
  rw [hmarks, rd_wr_field _ _ _ _ _ _ (by decide), setCause, rd_wr_same, Nat.mod_eq_of_lt hc]

/-! ### The word of a reset register: KEY above COLD and WARM -/

section
variable {key bits : Nat}

theorem bitsOf_resetKey (hkey : key < 2 ^ 16) (hbits : bits < 4) : bitsOf (key * 2 ^ 16 + bits) 16 16 = key := by
  unfold bitsOf; omega

theorem testBit_resetWord_cold (hbits : bits < 4) : (key * 2 ^ 16 + bits).testBit 1 = decide (2 ≤ bits) := by
  rw [Nat.testBit_eq_decide_div_mod_eq, decide_eq_decide]
  omega

theorem testBit_resetWord_warm : (key * 2 ^ 16 + 1).testBit 0 = true := by
  rw [Nat.testBit_eq_decide_div_mod_eq, decide_eq_true_iff]
  omega

end

/-! ### GLB_RST_CTL (R570, R571) -/

section
variable {s : State} {val : Nat}

theorem rstCtlWrite_unkeyed (hrun : resetRunning s = false) (hkey : bitsOf val 16 16 ≠ 0xA960) :
    rstCtlWrite s val = wr s F.GLB_RST_STATUS_KEY_ERR 0 1 := by
  simp [rstCtlWrite, hrun, hkey]

theorem rstCtlWrite_cold (hrun : resetRunning s = false) (hkey : bitsOf val 16 16 = 0xA960) (hcold : val.testBit 1 = true) :
    rstCtlWrite s val = coldReset s 2 := by
  simp [rstCtlWrite, hrun, hkey, hcold]

theorem rstCtlWrite_warm (hrun : resetRunning s = false) (hkey : bitsOf val 16 16 = 0xA960) (hcold : val.testBit 1 = false)
    (hwarm : val.testBit 0 = true) : rstCtlWrite s val = warmReset s 4 := by
  simp [rstCtlWrite, hrun, hkey, hcold, hwarm]

theorem keyErr_changes {t : State} (ht : Settled (wr s F.GLB_RST_STATUS_KEY_ERR 0 1) t) :
    rd t F.GLB_RST_STATUS_KEY_ERR = 1 ∧ Changes [(F.GLB_RST_STATUS_KEY_ERR, 0)] s t :=
  ⟨(ht.rd ..).trans (rd_wr_same ..), ht.changes ((Keeps.refl _ s).wr _ _ _ (by simp)) ((RegsOnly.refl s).wr ..)⟩

/-! ### A WRITE of KP_RESET (R527, R570) -/

theorem writeReset_unkeyed (rst : KeeperRst → State → State) (s : State) (hkey : bitsOf val 16 16 ≠ 0xA960) :
    writeReset rst s val = (KRes.refuse keSEQUENCE, s) := if_pos hkey

theorem writeReset_cold (rst : KeeperRst → State → State) (s : State) (hkey : bitsOf val 16 16 = 0xA960)
    (hcold : val.testBit 1 = true) : writeReset rst s val = (KRes.ok, rst .cold s) := by
  simp [writeReset, hkey, hcold]

theorem writeReset_warm (rst : KeeperRst → State → State) (s : State) (hkey : bitsOf val 16 16 = 0xA960)
    (hcold : val.testBit 1 = false) (hwarm : val.testBit 0 = true) : writeReset rst s val = (KRes.ok, rst .warm s) := by
  simp [writeReset, hkey, hcold, hwarm]

theorem keeperRegAt_kpReset : keeperRegAt 0x208 = some ⟨R.KP_RESET, 0, false⟩ := by decide

theorem opWrite_kpReset (rst : KeeperRst → State → State) (s : State) (data tail : Nat) :
    opWrite rst s 0x208 data tail = writeReset rst s data := by
  rw [opWrite, if_neg (by decide), keeperRegAt_kpReset]
  rfl

end

/-! ### A transaction with a right CRC at a port that waits for no second KRESET (R525, R529) -/

section
variable {rst : KeeperRst → State → State} {s u : State} {port op addr data tail : Nat} {fast : Bool}

/-- An operation that is refused leaves its reason in KI_LAST_ERR and REFUSED in the status byte. -/
theorem keeperFrame_refused {code : Nat} (hport : (kport s port).kreset = false)
    (hop : keeperOp rst (portBegins s port) port op addr data tail fast false = (KRes.refuse code, u)) :
    ∃ k : KPort, k.refused = true ∧ keeperFrame rst s port op addr data tail fast true = setKport (lastErr u code) port k := by
  simp only [keeperFrame, hport, hop, KRes.refuse]
  exact ⟨_, rfl, rfl⟩

/-- An operation that succeeds changes besides what it does the port's own record. -/
theorem keeperFrame_ok (hport : (kport s port).kreset = false)
    (hop : keeperOp rst (portBegins s port) port op addr data tail fast false = (KRes.ok, u)) :
    ∃ k : KPort, keeperFrame rst s port op addr data tail fast true = setKport u port k := by
  simp only [keeperFrame, hport, hop, KRes.ok]
  exact ⟨_, rfl⟩

end

theorem portBegins_touches (s : State) (p : Nat) : Touches [F.KD_STATUS_HOLDING] s (portBegins s p) := by
  unfold portBegins dropHold
  split
  · exact (Touches.of_regs rfl).wr _ _ _ (.head _)
  · exact .refl

theorem resetRunning_portBegins (s : State) (p : Nat) : resetRunning (portBegins s p) = resetRunning s :=
  resetRunning_congr (portBegins_touches s p _ _ (by decide)) (portBegins_aDieReset s p)

/-- Where registers of the keeper alone change, no register of the A-die does. -/
theorem Touches.rd_aDie {fs : List Field} {s t : State} (h : Touches fs s t) (hfs : ∀ g ∈ fs, keeperFid (g.fid % 1024) = true)
    {f : Field} (hf : keeperFid (f.fid % 1024) = false) (i : Nat) : rd t f i = rd s f i :=
  h f i fun g hg e => Bool.false_ne_true (hf.symm.trans (e ▸ hfs g hg))

/-! ### A WRITE of KP_RESET at the external port -/

section
variable {s : State} {val : Nat}

/-- An external WRITE of KP_RESET with its CRC runs at a ready keeper whose bridge is idle. -/
theorem answers_kpReset {P : State → Prop} (hready : s.keeperReady = true) (hidle : s.kbrRun = none) (hval : val < 2 ^ 32)
    (h : ∀ t, Settled (keeperFrame keeperRsts s 0 2 0x208 val 0 false true) t → P t) :
    Answers (exec (.write 0 0x208 val 0 (sentCrc 2 0x208 val)) s) P := by
  have hexec : exec (.write 0 0x208 val 0 (sentCrc 2 0x208 val)) s
      = onPort 0 s fun s => portFrame s 0 2 0x208 (val % 2 ^ 32) 0 false (sentCrc 2 0x208 val) := rfl
  have hframe : portFrame s 0 2 0x208 val 0 false (sentCrc 2 0x208 val)
      = keeperFrame keeperRsts s 0 2 0x208 val 0 false true := by
    simp [portFrame, bridgeAbandon, bridgeCut, hidle, hready]
  rw [hexec, Nat.mod_eq_of_lt hval]
  exact answers_onUnit (by decide) fun t ht => h t (hframe ▸ ht)

theorem keeperOp_kpReset (rst : KeeperRst → State → State) (s : State) (data : Nat) :
    keeperOp rst s 0 2 0x208 data 0 false false = writeReset rst s data := opWrite_kpReset ..

theorem keeperRsts_warm (s : State) : keeperRsts .warm s = warmReset s 3 := rfl

theorem keeperRsts_cold (s : State) : keeperRsts .cold s = coldReset s 1 := rfl

theorem kpReset_unkeyed {t : State} (hrun : resetRunning s = false) (hport : (kport s 0).kreset = false)
    (hkey : bitsOf val 16 16 ≠ 0xA960) (ht : Settled (keeperFrame keeperRsts s 0 2 0x208 val 0 false true) t) :
    (kport t 0).refused = true ∧ rd t F.KI_LAST_ERR_CODE = 5 ∧ resetRunning t = false
      ∧ ∀ f i, keeperFid (f.fid % 1024) = false → rd t f i = rd s f i := by
  obtain ⟨k, hk, hframe⟩ := keeperFrame_refused hport ((keeperOp_kpReset ..).trans (writeReset_unkeyed _ _ hkey))
  rw [hframe] at ht
  have htouch : Touches [F.KD_STATUS_HOLDING, F.KI_LAST_ERR_CODE] s t :=
    Touches.trans (((portBegins_touches s 0).mono (by simp)).wr F.KI_LAST_ERR_CODE 0 keSEQUENCE (by simp)) (.of_regs ht.regs)
  have haDie (f : Field) (i : Nat) (hf : keeperFid (f.fid % 1024) = false) : rd t f i = rd s f i :=
    htouch.rd_aDie (by decide) hf i
  have hmark : t.aDieReset = s.aDieReset := ht.aDieReset.trans (portBegins_aDieReset s 0)
  have hcode : rd t F.KI_LAST_ERR_CODE = 5 := by rw [ht.rd, rd_setKport, lastErr, rd_wr_same]; rfl
  refine ⟨?_, hcode, (resetRunning_congr (haDie _ _ (by decide)) hmark).trans hrun, haDie⟩
  rw [kport, ht.kports, setKport, sget_sset_same, hk]

theorem kpReset_warm {t : State} (hrun : resetRunning s = false) (hport : (kport s 0).kreset = false)
    (hkey : bitsOf val 16 16 = 0xA960) (hcold : val.testBit 1 = false) (hwarm : val.testBit 0 = true)
    (ht : Settled (keeperFrame keeperRsts s 0 2 0x208 val 0 false true) t) : WarmRuns 3 t := by
  obtain ⟨k, hframe⟩ := keeperFrame_ok hport ((keeperOp_kpReset ..).trans (writeReset_warm _ _ hkey hcold hwarm))
  rw [hframe, keeperRsts_warm] at ht
  have hruns : WarmRuns 3 (warmReset (portBegins s 0) 3) :=
    warmRuns_warmReset ((resetRunning_portBegins s 0).trans hrun) (by decide)
  exact (hruns.setKport 0 k).settled ht

theorem kpReset_cold {t : State} (hrun : resetRunning s = false) (hport : (kport s 0).kreset = false)
    (hkey : bitsOf val 16 16 = 0xA960) (hcold : val.testBit 1 = true)
    (ht : Settled (keeperFrame keeperRsts s 0 2 0x208 val 0 false true) t) : ColdRuns 1 t := by
  obtain ⟨k, hframe⟩ := keeperFrame_ok hport ((keeperOp_kpReset ..).trans (writeReset_cold _ _ hkey hcold))
  rw [hframe, keeperRsts_cold] at ht
  have hruns : ColdRuns 1 (coldReset (portBegins s 0) 1) :=
    coldRuns_coldReset ((resetRunning_portBegins s 0).trans hrun) (by decide)
  exact (hruns.setKport 0 k).settled ht

end

/-- Settles O55: either register compares KEY first and COLD before WARM; without the key GLB_RST_CTL writes one bit and
KP_RESET only registers of the keeper, and with it the reset that the bits name runs with its own CAUSE. -/
theorem resetRegistersNeedTheirKey : Obligations.ResetRegistersNeedTheirKey := by
  intro s mid key bits hkey hbits hrun val warm
  have hval : bitsOf val 16 16 = key := bitsOf_resetKey hkey hbits
  have hcold : val.testBit 1 = decide (2 ≤ bits) := testBit_resetWord_cold hbits
  have hwarm (h : bits = 1) : val.testBit 0 = true := by subst h; exact testBit_resetWord_warm
  refine ⟨fun i hi => ?_, fun hready hidle hport => ?_⟩
  · have hexec : exec i s = finish s (rstCtlWrite s val) := by
      rcases List.mem_pair.mp hi with rfl | rfl <;> rfl
    rw [hexec]
    refine ⟨fun hno => answers_finish fun t ht => ?_, fun hyes hone => answers_finish fun t ht => ?_,
      fun hyes htwo => answers_finish fun t ht => ?_⟩
    · rw [rstCtlWrite_unkeyed hrun (hval ▸ hno)] at ht
      exact keyErr_changes ht
    · rw [rstCtlWrite_warm hrun (hval.trans hyes) (hcold.trans (by simp [hone])) (hwarm hone)] at ht
      exact (warmRuns_warmReset hrun (by decide)).settled ht
    · rw [rstCtlWrite_cold hrun (hval.trans hyes) (hcold.trans (by simp [htwo]))] at ht
      exact (coldRuns_coldReset hrun (by decide)).settled ht
  · have hword : val < 2 ^ 32 := by show key * 2 ^ 16 + bits < 2 ^ 32; omega
    refine ⟨fun hno => answers_kpReset hready hidle hword fun t ht => ?_,
      fun hyes hone => answers_kpReset hready hidle hword fun t ht => ?_,
      fun hyes htwo => answers_kpReset hready hidle hword fun t ht => ?_⟩
    · exact kpReset_unkeyed hrun hport (hval ▸ hno) ht
    · exact kpReset_warm hrun hport (hval.trans hyes) (hcold.trans (by simp [hone])) (hwarm hone) ht
    · exact kpReset_cold hrun hport (hval.trans hyes) (hcold.trans (by simp [htwo])) ht

end Sys2Proof.Machine
end

section
/-! How a command ends: in the end of a command on some state, or at a unit that the device does not have; and the marks of
the frames that every such end brings up to date (R299). -/
open Sys2Proof
namespace Sys2Proof.Machine

/-! ### The ends of a command -/

/-- The outcome is the end of a command on some state, or the fault of a unit that the device does not have, and that only
for a command that is not well-formed. -/
inductive Ends (wf : Bool) (s : State) (o : Host.Outcome State Fault Refusal) : Prop where
  | finishes (u : State) (h : o = finish s u)
  | noUnit (hbad : wf = false) (h : o = .fault .noSuchUnit)

theorem ends_finish (wf : Bool) (s u : State) : Ends wf s (finish s u) := .finishes u rfl

/-- A command on unit `n` of `cnt` ends, where its unit exists whenever it is well-formed. -/
theorem ends_onUnit {wf : Bool} {n cnt : Nat} {s : State} {f : State → State} (hunit : wf = true → n < cnt) :
    Ends wf s (onUnit n cnt s f) := by
  rcases Nat.lt_or_ge n cnt with hn | hn
  · exact .finishes (f s) (onUnit_lt hn ..)
  · exact .noUnit (Bool.eq_false_iff.mpr fun hw => absurd (hunit hw) (Nat.not_lt.mpr hn)) (onUnit_ge hn ..)

/-- The event inputs of a core are a second unit number beside the core's. -/
theorem ends_sqEvEvent (c k : Nat) (s : State) : Ends (Instr.wellFormed (.sqEvEvent c k)) s (execSqEvEvent c k s) := by
  unfold execSqEvEvent
  split
  · refine ends_onUnit fun hw => ?_
    simp only [Instr.wellFormed, Bool.and_eq_true, decide_eq_true_eq] at hw
    exact hw.1
  next hk => exact .noUnit (by simp [Instr.wellFormed, hk]) rfl

theorem ends_deviceAnswer (c : Nat) (same : Option Nat) (s : State) :
    Ends (Instr.wellFormed (.deviceAnswer c same)) s (execDeviceAnswer c same s) := by
  apply ends_onUnit
  intro hw
  simp only [Instr.wellFormed, Bool.and_eq_true, decide_eq_true_eq] at hw
  obtain ⟨hc, hsame⟩ := hw
  cases same with
  | none => exact Nat.max_lt.mpr ⟨hc, by decide⟩
  | some d => exact Nat.max_lt.mpr ⟨hc, of_decide_eq_true hsame⟩

/-- Every command of the table ends so: those of the device as a whole end on some state, the others act on a unit. -/
theorem exec_ends (i : Instr) (s : State) : Ends i.wellFormed s (exec i s) := by
  cases i
  case sqEvEvent c k => exact ends_sqEvEvent c k s
  case deviceAnswer c same => exact ends_deviceAnswer c same s
  case fioClrCounts | ppsEdge | timerefLost | timerefFreqLock | ppsTimeout | loadNow | loadAtPps | cancelLoad | cmpListWrite
      | memTrain | memTrainDone | memRefresh | memClrCounts | podSubGo | podRunBegin | podLayerDone | podCcmdClrCounts
      | dmaSubGo | dmaDescStart | dmaDescComplete | hashStart | hashDone | twnHello | twnSearchTimeout | twnHelloRx
      | twnTbsyncTx | twnTbsyncRx | twnFsRx | twnTrigRx | twnFcgstateRx | twnFcgSync | twnFoghornTx | twnFoghornRx
      | twnFogMiss | twnTakeoverDrive | twnRelease | twnRoleRx | twnHandover | twnHandoverCancel | twnBcnRx | twnClrCounts
      | pwrWakeRelease | d2dRetry | d2dDown | d2dReturn | laneRefLoss | laneRefReturn | pcieRefLoss | pcieRefReturn
      | railOutOfRange | vkeepLoss | keeperPor | adieRelease | adieResetDone | warmReset | coldReset | warmResetDone | kbrGo
      | kbrDone | tagComplete | blockReset | bcnFireWrite | bcnClrCounts | twnCtlWrite | twnMbxRx | mbxClrCounts
      | registerWrite | loHalfRead | rcRead | badAccess | hifIrqRearm | hifClrCounts | hostLinkUp | hostLinkDown
      | hostCplTimeout | hostCplError | flrPf | perstAssert | perstRelease | tbSlewTick => exact ends_finish _ s _
  all_goals
    dsimp only [exec]
    apply ends_onUnit
    intro hw
    simp only [Instr.wellFormed, Bool.and_eq_true, decide_eq_true_eq, beq_iff_eq] at hw
    omega

/-- A step ends as a command does; on an empty queue it always ends on some state. -/
theorem step_ends (s : State) : ∃ wf u, Ends wf u (step s) := by
  unfold step
  split
  · exact ⟨true, _, ends_finish _ s (tick s)⟩
  · exact ⟨_, _, exec_ends ..⟩

theorem Ends.answers {s : State} {o : Host.Outcome State Fault Refusal} (h : Ends true s o) : ∃ t, o = .next t := by
  cases h with
  | finishes u h => exact ⟨_, h⟩
  | noUnit hbad => exact absurd hbad (by decide)

/-- Settles O1: it is the definition of a step on a queue with a front. -/
theorem stepRunsTheFrontCommand : Obligations.StepRunsTheFrontCommand := by
  intro c rest s hs
  simp only [step, hs]

/-- Refutes O50: the last clause counts port 8 among the units that PRT_MULT_LOCK lacks, but receive side 8, the lane of the
twin, is one: the well-formed command answers, from State.reset as from every state. -/
theorem not_stepsAnswerOrNameNoUnit : ¬ Obligations.StepsAnswerOrNameNoUnit := by
  intro h
  obtain ⟨-, -, hfaults⟩ := h State.reset
  have hfault : exec (.prtMultLock 8) State.reset = .fault .noSuchUnit := hfaults _ (by simp)
  obtain ⟨t, hnext⟩ : ∃ t, exec (.prtMultLock 8) State.reset = .next t := Ends.answers (exec_ends (.prtMultLock 8) State.reset)
  rw [hnext] at hfault
  cases hfault

/-! ### The marks of open frames (R299) -/

theorem Frame.flag_testBit (f : Frame) (b : Nat) : (f.flag b).flags.testBit b = true := by
  simp [Frame.flag]

theorem Frame.flagIf_testBit {f : Frame} {c : Bool} (b : Nat) (h : c = true) : (f.flagIf c b).flags.testBit b = true := by
  rw [h]
  exact f.flag_testBit b

/-- A flag of a frame stays when another is set. -/
theorem Frame.testBit_flagIf {f : Frame} {a : Nat} (c : Bool) (b : Nat) (h : f.flags.testBit a = true) :
    (f.flagIf c b).flags.testBit a = true := by
  cases c
  · exact h
  · simp [Frame.flagIf, Frame.flag, h]

/-- What a settled frame records: all that R299 makes it record now. -/
structure Marked (s : State) (f : Frame) : Prop where
  unlocked : tbUnlocked s = true → f.flags.testBit flUNLOCKED = true
  encFault : ∀ k, k < 4 → (rd s F.PKT_SCFG_ENC_MASK f.stream).testBit k = true → encFaultActive s k = true →
    f.flags.testBit flENCFAULT = true
  relayed : ∀ k, f.relayed.testBit k = true → (relaysOf s f.port).testBit k = true

theorem flagIf_stream (f : Frame) (c : Bool) (b : Nat) : (f.flagIf c b).stream = f.stream := by cases c <;> rfl
theorem flagIf_port (f : Frame) (c : Bool) (b : Nat) : (f.flagIf c b).port = f.port := by cases c <;> rfl
theorem flagIf_phase (f : Frame) (c : Bool) (b : Nat) : (f.flagIf c b).phase = f.phase := by cases c <;> rfl

theorem settleFrame_phase (s : State) (f : Frame) : (settleFrame s f).phase = f.phase := by
  unfold settleFrame
  split
  · rfl
  · simp only [flagIf_phase]

theorem settleFrame_marked (s : State) {f : Frame} (hopen : f.phase = .open) : Marked s (settleFrame s f) := by
  rw [settleFrame, if_neg (not_not.mpr hopen)]
  refine ⟨fun h => ?_, fun k hk hmask hfault => ?_, fun k hk => ?_⟩
  · exact Frame.testBit_flagIf _ _ (Frame.flagIf_testBit _ h)
  · refine Frame.flagIf_testBit _ (List.any_eq_true.mpr ⟨k, List.mem_range.mpr hk, ?_⟩)
    rw [hfault, Bool.and_true]
    simpa only [flagIf_stream] using hmask
  · simp only [flagIf_port, Nat.testBit_and, Bool.and_eq_true] at hk ⊢
    exact hk.2

/-- Whatever a command leads to, its end marks every open frame. -/
theorem framesMarked_of_finish {s u t : State} (h : finish s u = .next t) : FramesMarked t := by
  obtain ⟨t', ht', hu⟩ : Answers (finish s u) (Settled u) := answers_finish fun _ => id
  obtain rfl : t' = t := Host.Outcome.next.inj (ht'.symm.trans h)
  intro f hf hopen
  rw [hu.frames, List.mem_map] at hf
  obtain ⟨g, -, rfl⟩ := hf
  rw [settleFrame_phase] at hopen
  obtain ⟨hunlocked, hfault, hrelayed⟩ := settleFrame_marked t' hopen
  exact ⟨hunlocked, hfault, hrelayed⟩

/-- Settles O49: a step that answers ends on some state, and the end of a command marks every open frame. -/
theorem stepKeepsFramesMarked : Obligations.StepKeepsFramesMarked := by
  intro s t _ hstep
  obtain ⟨_, _, hends⟩ := step_ends s
  cases hends with
  | finishes u h => exact framesMarked_of_finish (h.symm.trans hstep)
  | noUnit _ h => exact absurd (h.symm.trans hstep) (by simp)

end Sys2Proof.Machine
end

section
/-! The words of the sequencer's instructions (R101 to R103): the fields of each format read back what was put there, a word
is the sum of its fields, and so decoding and encoding undo each other. -/
namespace Sys2Proof

theorem bitsOf_lt (w lo n : Nat) : bitsOf w lo n < 2 ^ n := Nat.mod_lt _ (Nat.two_pow_pos n)

theorem fields_lt (w : Nat) : bitsOf w 20 4 < 16 ∧ bitsOf w 16 4 < 16 ∧ bitsOf w 12 4 < 16 ∧ bitsOf w 8 4 < 16
    ∧ bitsOf w 0 8 < 256 ∧ bitsOf w 0 16 < 2 ^ 16 ∧ bitsOf w 0 20 < 2 ^ 20 ∧ bitsOf w 18 2 < 4 ∧ bitsOf w 22 2 < 4
    ∧ bitsOf w 18 4 < 16 ∧ bitsOf w 6 6 < 64 :=
  ⟨bitsOf_lt .., bitsOf_lt .., bitsOf_lt .., bitsOf_lt .., bitsOf_lt .., bitsOf_lt .., bitsOf_lt .., bitsOf_lt ..,
    bitsOf_lt .., bitsOf_lt .., bitsOf_lt ..⟩

/-- A word is the sum of the fields of the REG format. -/
theorem eq_fmtREG_fields {w : Nat} (hw : w < 2 ^ 32) : w = fmtREG (16 * bitsOf w 28 4 + bitsOf w 24 4) (bitsOf w 20 4)
    (bitsOf w 16 4) (bitsOf w 12 4) (bitsOf w 8 4) (bitsOf w 0 8) := by
  simp only [fmtREG, bitsOf]; omega

/-! ### The fields of each format -/

/-- The opcode byte of a word, its two nibbles as decoding reads them. -/
def HasOp (w op : Nat) : Prop := bitsOf w 28 4 = op / 16 ∧ bitsOf w 24 4 = op % 16

section
variable {op d a b e m v k g x : Nat}

theorem fmtREG_lt (hop : op < 256) (hd : d < 16) (ha : a < 16) (hb : b < 16) (he : e < 16) (hm : m < 256) :
    fmtREG op d a b e m < 2 ^ 32 := by unfold fmtREG; omega

theorem fmtREG_fields (hop : op < 256) (hd : d < 16) (ha : a < 16) (hb : b < 16) (he : e < 16) (hm : m < 256) :
    HasOp (fmtREG op d a b e m) op ∧ bitsOf (fmtREG op d a b e m) 20 4 = d ∧ bitsOf (fmtREG op d a b e m) 16 4 = a
    ∧ bitsOf (fmtREG op d a b e m) 12 4 = b ∧ bitsOf (fmtREG op d a b e m) 8 4 = e ∧ bitsOf (fmtREG op d a b e m) 0 8 = m
    ∧ bitsOf (fmtREG op d a b e m) 0 12 = e * 2 ^ 8 + m ∧ bitsOf (fmtREG op d a b e m) 0 16 = b * 2 ^ 12 + e * 2 ^ 8 + m
    ∧ bitsOf (fmtREG op d a b e m) 0 20 = a * 2 ^ 16 + b * 2 ^ 12 + e * 2 ^ 8 + m := by
  simp only [HasOp, bitsOf, fmtREG]; omega

theorem fmtIMM_lt (hop : op < 256) (hd : d < 16) (ha : a < 16) (hv : v < 2 ^ 16) : fmtIMM op d a v < 2 ^ 32 := by
  unfold fmtIMM; omega

theorem fmtIMM_fields (hop : op < 256) (hd : d < 16) (ha : a < 16) (hv : v < 2 ^ 16) :
    HasOp (fmtIMM op d a v) op ∧ bitsOf (fmtIMM op d a v) 20 4 = d ∧ bitsOf (fmtIMM op d a v) 16 4 = a
    ∧ bitsOf (fmtIMM op d a v) 0 16 = v := by
  simp only [HasOp, bitsOf, fmtIMM]; omega

theorem fmtACC_lt (hop : op < 256) (hd : d < 16) (hv : v < 2 ^ 20) : fmtACC op d v < 2 ^ 32 := by unfold fmtACC; omega

theorem fmtACC_fields (hop : op < 256) (hd : d < 16) (hv : v < 2 ^ 20) :
    HasOp (fmtACC op d v) op ∧ bitsOf (fmtACC op d v) 20 4 = d ∧ bitsOf (fmtACC op d v) 0 20 = v := by
  simp only [HasOp, bitsOf, fmtACC]; omega

theorem fmtINS_lt (hop : op < 256) (hd : d < 16) (hg : g < 4) (hv : v < 2 ^ 16) : fmtINS op d g v < 2 ^ 32 := by
  unfold fmtINS; omega

theorem fmtINS_fields (hop : op < 256) (hd : d < 16) (hg : g < 4) (hv : v < 2 ^ 16) :
    HasOp (fmtINS op d g v) op ∧ bitsOf (fmtINS op d g v) 20 4 = d ∧ bitsOf (fmtINS op d g v) 18 2 = g
    ∧ bitsOf (fmtINS op d g v) 16 2 = 0 ∧ bitsOf (fmtINS op d g v) 0 16 = v := by
  simp only [HasOp, bitsOf, fmtINS]; omega

theorem fmtBR_lt (hop : op < 256) (hk : k < 16) (hv : v < 2 ^ 16) : fmtBR op k v < 2 ^ 32 := by unfold fmtBR; omega

theorem fmtBR_fields (hop : op < 256) (hk : k < 16) (hv : v < 2 ^ 16) :
    HasOp (fmtBR op k v) op ∧ bitsOf (fmtBR op k v) 20 4 = k ∧ bitsOf (fmtBR op k v) 16 4 = 0
    ∧ bitsOf (fmtBR op k v) 0 16 = v := by
  simp only [HasOp, bitsOf, fmtBR]; omega

theorem fmtWT_lt (hop : op < 256) (hk : k < 16) (ha : a < 16) (hb : b < 16) (hx : x < 64) : fmtWT op k a b x < 2 ^ 32 := by
  unfold fmtWT; omega

theorem fmtWT_fields (hop : op < 256) (hk : k < 16) (ha : a < 16) (hb : b < 16) (hx : x < 64) :
    HasOp (fmtWT op k a b x) op ∧ bitsOf (fmtWT op k a b x) 20 4 = k ∧ bitsOf (fmtWT op k a b x) 16 4 = a
    ∧ bitsOf (fmtWT op k a b x) 12 4 = b ∧ bitsOf (fmtWT op k a b x) 6 6 = x ∧ bitsOf (fmtWT op k a b x) 0 6 = 0 := by
  simp only [HasOp, bitsOf, fmtWT]; omega

theorem fmtSP_lt (hop : op < 256) (hk : k < 4) (hb : b < 16) (hv : v < 2 ^ 16) : fmtSP op k b v < 2 ^ 32 := by
  unfold fmtSP; omega

theorem fmtSP_fields (hop : op < 256) (hk : k < 4) (hb : b < 16) (hv : v < 2 ^ 16) :
    HasOp (fmtSP op k b v) op ∧ bitsOf (fmtSP op k b v) 22 2 = k ∧ bitsOf (fmtSP op k b v) 18 4 = b
    ∧ bitsOf (fmtSP op k b v) 16 2 = 0 ∧ bitsOf (fmtSP op k b v) 0 16 = v := by
  simp only [HasOp, bitsOf, fmtSP]; omega

theorem fmtNIL_lt (hop : op < 256) : fmtNIL op < 2 ^ 32 := by unfold fmtNIL; omega

theorem fmtNIL_fields (hop : op < 256) : HasOp (fmtNIL op) op ∧ bitsOf (fmtNIL op) 0 24 = 0 := by
  simp only [HasOp, bitsOf, fmtNIL]; omega

end

/-! ### From an instruction to its word and back -/

theorem Src.plain_of_shift {src : Src} (h : src.shift = true) : src.plain = true := by
  cases src with
  | reg b => exact h
  | imm v => exact decide_eq_true (Nat.lt_of_lt_of_le (of_decide_eq_true h : v < 64) (by decide))
  | acc v => exact h

/-- The word fits in 32 bits and decodes, for core `c`, to the instruction. -/
def Reads (c w : Nat) (i : Instr) : Prop := w < 2 ^ 32 ∧ tsxDecode c w = some i

theorem bitsOf_opcode {w op hi lo : Nat} (h : HasOp w op) (hop : op = 16 * hi + lo) (hlo : lo < 16) :
    bitsOf w 28 4 = hi ∧ bitsOf w 24 4 = lo := by
  obtain ⟨h1, h2⟩ := h
  omega

/-- The three-operand forms with a register. -/
theorem decode_aluReg {c n d a b : Nat} {k : Nat → Nat → Nat → Src → Instr} (hn : n < 9) (hk : tsxAlu n = some k)
    (hd : d < 16) (ha : a < 16) (hb : b < 16) : tsxDecode c (fmtREG (0x10 + n) d a b 0 0) = some (k c d a (.reg b)) := by
  obtain ⟨hop, h20, h16, h12, -, -, h0, -⟩ :=
    fmtREG_fields (op := 0x10 + n) (e := 0) (m := 0) (by omega) hd ha hb (by decide) (by decide)
  obtain ⟨hhi, hlo⟩ := bitsOf_opcode (hi := 1) (lo := n) hop (by omega) (by omega)
  simp [tsxDecode, hhi, hlo, h20, h16, h12, h0, hk]

/-- The three-operand forms with an immediate. -/
theorem decode_aluImm {c n d a v : Nat} {k : Nat → Nat → Nat → Src → Instr} (hn : n < 9) (hk : tsxAlu n = some k)
    (hd : d < 16) (ha : a < 16) (hv : v < 2 ^ 16) (hshift : n = 5 ∨ n = 6 ∨ n = 7 → v < 64) :
    tsxDecode c (fmtIMM (0x20 + n) d a v) = some (k c d a (.imm v)) := by
  obtain ⟨hop, h20, h16, h0⟩ := fmtIMM_fields (op := 0x20 + n) (by omega) hd ha hv
  obtain ⟨hhi, hlo⟩ := bitsOf_opcode (hi := 2) (lo := n) hop (by omega) (by omega)
  have hno : ¬ ((n = 5 ∨ n = 6 ∨ n = 7) ∧ 64 ≤ v) := fun h => Nat.not_le.mpr (hshift h.1) h.2
  simp only [tsxDecode, hhi, hlo, tsxImm, h20, h16, h0]
  split
  case h_5 => rw [if_neg hno, hk]; rfl
  all_goals omega

/-- The ACC forms of add and sub. -/
theorem decode_aluAcc {c n d v : Nat} {k : Nat → Nat → Nat → Src → Instr} (hn : n < 2) (hk : tsxAlu n = some k)
    (hd : d < 16) (hv : v < 2 ^ 20) : tsxDecode c (fmtACC (0x2A + n) d v) = some (k c d d (.acc v)) := by
  obtain ⟨hop, h20, h0⟩ := fmtACC_fields (op := 0x2A + n) (by omega) hd hv
  obtain ⟨hhi, hlo⟩ := bitsOf_opcode (hi := 2) (lo := 0xA + n) hop (by omega) (by omega)
  simp only [tsxDecode, hhi, hlo, tsxImm, h20, h0]
  obtain rfl | rfl : n = 0 ∨ n = 1 := by omega
  · obtain rfl : Instr.add = k := Option.some.inj hk
    rfl
  · obtain rfl : Instr.sub = k := Option.some.inj hk
    rfl

/-- A three-operand instruction reads back from the word of each form that it has: the ACC form is that of add and sub. -/
theorem reads_aluWord {c n d a : Nat} {src : Src} {k : Nat → Nat → Nat → Src → Instr} (hn : n < 9) (hk : tsxAlu n = some k)
    (hd : d < 16) (ha : a < 16) (hsrc : if n < 2 then src.sum d a = true else src.plain = true)
    (hshift : n = 5 ∨ n = 6 ∨ n = 7 → src.shift = true) :
    Reads c (tsxAluWord n d a src) (k c d a src) := by
  cases src with
  | reg b =>
    have hb : b < 16 := by split at hsrc <;> exact of_decide_eq_true hsrc
    exact ⟨fmtREG_lt (by omega) hd ha hb (by decide) (by decide), decode_aluReg hn hk hd ha hb⟩
  | imm v =>
    have hv : v < 2 ^ 16 := by split at hsrc <;> exact of_decide_eq_true hsrc
    exact ⟨fmtIMM_lt (by omega) hd ha hv, decode_aluImm hn hk hd ha hv fun h => of_decide_eq_true (hshift h)⟩
  | acc v =>
    have hn2 : n < 2 := by
      by_contra h
      rw [if_neg h] at hsrc
      exact Bool.false_ne_true hsrc
    rw [if_pos hn2] at hsrc
    simp only [Src.sum, Bool.and_eq_true, beq_iff_eq, decide_eq_true_eq] at hsrc
    obtain ⟨rfl, hv⟩ := hsrc
    exact ⟨fmtACC_lt (by omega) hd hv, decode_aluAcc hn2 hk hd hv⟩

section
variable {c op d a b e m v k g x : Nat} {i : Instr}

theorem reads_fmtREG (hop : op < 256) (hd : d < 16) (ha : a < 16) (hb : b < 16) (he : e < 16) (hm : m < 256)
    (h : ∀ w, HasOp w op → bitsOf w 20 4 = d → bitsOf w 16 4 = a → bitsOf w 12 4 = b → bitsOf w 8 4 = e → bitsOf w 0 8 = m →
      bitsOf w 0 12 = e * 2 ^ 8 + m → bitsOf w 0 16 = b * 2 ^ 12 + e * 2 ^ 8 + m →
      bitsOf w 0 20 = a * 2 ^ 16 + b * 2 ^ 12 + e * 2 ^ 8 + m → tsxDecode c w = some i) :
    Reads c (fmtREG op d a b e m) i := by
  obtain ⟨hop', h20, h16, h12, h8, h0, h012, h016, h020⟩ := fmtREG_fields hop hd ha hb he hm
  exact ⟨fmtREG_lt hop hd ha hb he hm, h _ hop' h20 h16 h12 h8 h0 h012 h016 h020⟩

theorem reads_fmtIMM (hop : op < 256) (hd : d < 16) (ha : a < 16) (hv : v < 2 ^ 16)
    (h : ∀ w, HasOp w op → bitsOf w 20 4 = d → bitsOf w 16 4 = a → bitsOf w 0 16 = v → tsxDecode c w = some i) :
    Reads c (fmtIMM op d a v) i := by
  obtain ⟨hop', h20, h16, h0⟩ := fmtIMM_fields hop hd ha hv
  exact ⟨fmtIMM_lt hop hd ha hv, h _ hop' h20 h16 h0⟩

theorem reads_fmtNIL (hop : op < 256) (h : ∀ w, HasOp w op → bitsOf w 0 24 = 0 → tsxDecode c w = some i) :
    Reads c (fmtNIL op) i := by
  obtain ⟨hop', h0⟩ := fmtNIL_fields hop
  exact ⟨fmtNIL_lt hop, h _ hop' h0⟩

end

/-- The word of a well-formed instruction reads back as the instruction, format by format. -/
theorem reads_of_encode {i : Instr} {w : Nat} (hwf : i.wellFormed = true) (he : tsxEncode i = some w) :
    ∃ c, c < 8 ∧ Reads c w i := by
  cases i
  case add c d a src | sub c d a src =>
    obtain rfl := Option.some.inj he
    simp only [Instr.wellFormed, Bool.and_eq_true, decide_eq_true_eq] at hwf
    obtain ⟨⟨⟨hc, hd⟩, ha⟩, hsrc⟩ := hwf
    exact ⟨c, hc, reads_aluWord (by decide) rfl hd ha hsrc (by simp)⟩
  case and c d a src | or c d a src | xor c d a src | mul c d a src =>
    obtain rfl := Option.some.inj he
    simp only [Instr.wellFormed, Bool.and_eq_true, decide_eq_true_eq] at hwf
    obtain ⟨⟨⟨hc, hd⟩, ha⟩, hsrc⟩ := hwf
    exact ⟨c, hc, reads_aluWord (by decide) rfl hd ha hsrc (by simp)⟩
  case shl c d a src | shr c d a src | sar c d a src =>
    obtain rfl := Option.some.inj he
    simp only [Instr.wellFormed, Bool.and_eq_true, decide_eq_true_eq] at hwf
    obtain ⟨⟨⟨hc, hd⟩, ha⟩, hsrc⟩ := hwf
    exact ⟨c, hc, reads_aluWord (by decide) rfl hd ha (Src.plain_of_shift hsrc) fun _ => hsrc⟩
  case ldb c d a v | ldh c d a v | ldw c d a v | ldd c d a v | ldsb c d a v | ldsh c d a v | ldsw c d a v | stb c d a v
      | sth c d a v | stw c d a v | std c d a v | rdev c d a v | rdevd c d a v | wdev c d a v | wdevd c d a v =>
    obtain rfl := Option.some.inj he
    simp only [Instr.wellFormed, Bool.and_eq_true, decide_eq_true_eq] at hwf
    obtain ⟨⟨⟨hc, hd⟩, ha⟩, hv⟩ := hwf
    refine ⟨c, hc, reads_fmtIMM (by decide) hd ha hv fun w hop h20 h16 h0 => ?_⟩
    simp only [tsxDecode, tsxMemory, tsxDevice, hop.1, hop.2, h20, h16, h0]
  case ret c | dsync c | halt c | commit c | squash c =>
    obtain rfl := Option.some.inj he
    refine ⟨c, of_decide_eq_true hwf, reads_fmtNIL (by decide) fun w hop h0 => ?_⟩
    simp [tsxDecode, tsxBranch, tsxDevice, tsxRegion, zeroed, hop.1, hop.2, h0]
  case pulse c d a b e | pair c d a b e | trigpkt c d a b e | podrun c d a b e =>
    obtain rfl := Option.some.inj he
    simp only [Instr.wellFormed, Bool.and_eq_true, decide_eq_true_eq] at hwf
    obtain ⟨⟨⟨⟨hc, hd⟩, ha⟩, hb⟩, he⟩ := hwf
    refine ⟨c, hc, reads_fmtREG (by decide) hd ha hb he (by decide) fun w hop h20 h16 h12 h8 h0 _ _ _ => ?_⟩
    simp [tsxDecode, tsxAction, zeroed, hop.1, hop.2, h20, h16, h12, h8, h0]
  case aadd c d a b | axch c d a b | framearm c d a b =>
    obtain rfl := Option.some.inj he
    simp only [Instr.wellFormed, Bool.and_eq_true, decide_eq_true_eq] at hwf
    obtain ⟨⟨⟨hc, hd⟩, ha⟩, hb⟩ := hwf
    refine ⟨c, hc, reads_fmtREG (by decide) hd ha hb (by decide) (by decide) fun w hop h20 h16 h12 h8 h0 h012 _ _ => ?_⟩
    simp [tsxDecode, tsxAction, tsxMemory, zeroed, hop.1, hop.2, h20, h16, h12, h8, h0, h012]
  case mbxrcv c d a | mbxwdr c d a =>
    obtain rfl := Option.some.inj he
    simp only [Instr.wellFormed, Bool.and_eq_true, decide_eq_true_eq] at hwf
    obtain ⟨⟨hc, hd⟩, ha⟩ := hwf
    refine ⟨c, hc, reads_fmtREG (by decide) hd ha (by decide) (by decide) (by decide) fun w hop h20 h16 h12 h8 h0 _ _ _ => ?_⟩
    simp [tsxDecode, tsxAction, zeroed, hop.1, hop.2, h20, h16, h12, h8, h0]
  case jr c a | setlk c a =>
    obtain rfl := Option.some.inj he
    simp only [Instr.wellFormed, Bool.and_eq_true, decide_eq_true_eq] at hwf
    obtain ⟨hc, ha⟩ := hwf
    refine ⟨c, hc, reads_fmtREG (by decide) (by decide) ha (by decide) (by decide) (by decide)
      fun w hop h20 h16 _ _ _ _ h016 _ => ?_⟩
    simp [tsxDecode, tsxBranch, zeroed, hop.1, hop.2, h20, h16, h016]
  case movlk c d | tbr c d =>
    obtain rfl := Option.some.inj he
    simp only [Instr.wellFormed, Bool.and_eq_true, decide_eq_true_eq] at hwf
    obtain ⟨hc, hd⟩ := hwf
    refine ⟨c, hc, reads_fmtREG (by decide) hd (by decide) (by decide) (by decide) (by decide)
      fun w hop h20 _ _ _ _ _ _ h020 => ?_⟩
    simp [tsxDecode, tsxBranch, tsxDevice, zeroed, hop.1, hop.2, h20, h020]
  case mbxsend c d a b y =>
    obtain rfl := Option.some.inj he
    simp only [Instr.wellFormed, Bool.and_eq_true, decide_eq_true_eq] at hwf
    obtain ⟨⟨⟨hc, hd⟩, ha⟩, hb⟩ := hwf
    refine ⟨c, hc, reads_fmtREG (by decide) hd ha hb (by decide) (by cases y <;> decide)
      fun w hop h20 h16 h12 h8 h0 _ _ _ => ?_⟩
    cases y <;> simp [tsxDecode, tsxAction, zeroed, hop.1, hop.2, h20, h16, h12, h8, h0]
  case dmaq c d a y =>
    obtain rfl := Option.some.inj he
    simp only [Instr.wellFormed, Bool.and_eq_true, decide_eq_true_eq] at hwf
    obtain ⟨⟨hc, hd⟩, ha⟩ := hwf
    refine ⟨c, hc, reads_fmtREG (by decide) hd ha (by decide) (by decide) (by cases y <;> decide)
      fun w hop h20 h16 h12 h8 h0 _ _ _ => ?_⟩
    cases y <;> simp [tsxDecode, tsxAction, zeroed, hop.1, hop.2, h20, h16, h12, h8, h0]
  case fire c d a v =>
    obtain rfl := Option.some.inj he
    simp only [Instr.wellFormed, Bool.and_eq_true, decide_eq_true_eq] at hwf
    obtain ⟨⟨⟨hc, hd⟩, ha⟩, hv⟩ := hwf
    refine ⟨c, hc, reads_fmtREG (by decide) hd ha (by decide) (by decide) (by omega)
      fun w hop h20 h16 h12 h8 h0 _ _ _ => ?_⟩
    simp [tsxDecode, tsxAction, zeroed, hop.1, hop.2, h20, h16, h12, h8, h0, Nat.div_eq_of_lt hv, Nat.mod_eq_of_lt hv]
  case mov c d v =>
    obtain rfl := Option.some.inj he
    simp only [Instr.wellFormed, Bool.and_eq_true, decide_eq_true_eq] at hwf
    obtain ⟨⟨hc, hd⟩, hv⟩ := hwf
    obtain ⟨hop, h20, h0⟩ := fmtACC_fields (op := 0x2C) (by decide) hd hv
    exact ⟨c, hc, fmtACC_lt (by decide) hd hv, by simp only [tsxDecode, tsxImm, hop.1, hop.2, h20, h0]⟩
  case movk c d v g =>
    obtain rfl := Option.some.inj he
    simp only [Instr.wellFormed, Bool.and_eq_true, decide_eq_true_eq] at hwf
    obtain ⟨⟨⟨hc, hd⟩, hv⟩, hg⟩ := hwf
    obtain ⟨hop, h20, h18, h16, h0⟩ := fmtINS_fields (op := 0x2D) (by decide) hd hg hv
    exact ⟨c, hc, fmtINS_lt (by decide) hd hg hv, by simp [tsxDecode, tsxImm, zeroed, hop.1, hop.2, h20, h18, h16, h0]⟩
  case bCond c k v =>
    obtain rfl := Option.some.inj he
    simp only [Instr.wellFormed, Bool.and_eq_true, decide_eq_true_eq] at hwf
    obtain ⟨⟨hc, hk⟩, hv⟩ := hwf
    obtain ⟨hop, h20, h16, h0⟩ := fmtBR_fields (op := 0x30) (by decide) (Nat.lt_succ_of_lt hk) hv
    exact ⟨c, hc, fmtBR_lt (by decide) (Nat.lt_succ_of_lt hk) hv,
      by simp [tsxDecode, tsxBranch, zeroed, hop.1, hop.2, h20, h16, h0, hk.ne]⟩
  case bl c v =>
    obtain rfl := Option.some.inj he
    simp only [Instr.wellFormed, Bool.and_eq_true, decide_eq_true_eq] at hwf
    obtain ⟨hc, hv⟩ := hwf
    obtain ⟨hop, h20, h16, h0⟩ := fmtBR_fields (op := 0x31) (k := 0) (by decide) (by decide) hv
    exact ⟨c, hc, fmtBR_lt (by decide) (by decide) hv, by simp [tsxDecode, tsxBranch, zeroed, hop.1, hop.2, h20, h16, h0]⟩
  case wait c k a b x =>
    obtain rfl := Option.some.inj he
    simp only [Instr.wellFormed, Bool.and_eq_true, decide_eq_true_eq] at hwf
    obtain ⟨⟨⟨⟨hc, hk⟩, ha⟩, hb⟩, hx⟩ := hwf
    have hk' : k < 16 := by omega
    obtain ⟨hop, h20, h16, h12, h6, h0⟩ := fmtWT_fields (op := 0x60) (by decide) hk' ha hb hx
    exact ⟨c, hc, fmtWT_lt (by decide) hk' ha hb hx,
      by simp [tsxDecode, zeroed, hop.1, hop.2, h20, h16, h12, h6, h0, hk]⟩
  case spec c k b v =>
    obtain rfl := Option.some.inj he
    simp only [Instr.wellFormed, Bool.and_eq_true, decide_eq_true_eq] at hwf
    obtain ⟨⟨⟨hc, hk⟩, hb⟩, hv⟩ := hwf
    obtain ⟨hop, h22, h18, h16, h0⟩ := fmtSP_fields (op := 0x80) (by decide) hk hb hv
    exact ⟨c, hc, fmtSP_lt (by decide) hk hb hv, by simp [tsxDecode, tsxRegion, zeroed, hop.1, hop.2, h22, h18, h16, h0]⟩
  all_goals exact absurd he.symm (Option.some_ne_none w)

/-! ### From a word to its instruction and back -/

/-- The instruction is well-formed and its word is `w`. -/
def Spells (i : Instr) (w : Nat) : Prop := i.wellFormed = true ∧ tsxEncode i = some w

theorem Spells.of_some {i j : Instr} {w : Nat} (h : some j = some i) (hj : Spells j w) : Spells i w :=
  Option.some.inj h ▸ hj

theorem Spells.of_zeroed {i j : Instr} {u w : Nat} (h : zeroed u j = some i) (hj : u = 0 → Spells j w) : Spells i w := by
  unfold zeroed at h
  split at h
  next hu => exact .of_some h (hj hu)
  next => cases h

section
variable {c w : Nat} {i : Instr}

/-- What a word of opcode `0x10 + n` or `0x20 + n` holds is well-formed, and is its word again. -/
theorem spells_alu {n d a : Nat} {src : Src} {k : Nat → Nat → Nat → Src → Instr} (hk : tsxAlu n = some k) (hc : c < 8)
    (hd : d < 16) (ha : a < 16) (hsrc : src.plain = true) (hshift : n = 5 ∨ n = 6 ∨ n = 7 → src.shift = true)
    (hw : w = tsxAluWord n d a src) : Spells (k c d a src) w := by
  have hsum : src.sum d a = true := by
    cases src with
    | reg b => exact hsrc
    | imm v => exact hsrc
    | acc v => exact absurd hsrc Bool.false_ne_true
  unfold tsxAlu at hk
  split at hk
  case h_10 => cases hk
  case h_1 | h_2 =>
    obtain rfl := Option.some.inj hk
    exact ⟨by simp [Instr.wellFormed, hc, hd, ha, hsum], congrArg some hw.symm⟩
  case h_6 | h_7 | h_8 =>
    obtain rfl := Option.some.inj hk
    exact ⟨by simp [Instr.wellFormed, hc, hd, ha, hshift], congrArg some hw.symm⟩
  all_goals
    obtain rfl := Option.some.inj hk
    exact ⟨by simp [Instr.wellFormed, hc, hd, ha, hsrc], congrArg some hw.symm⟩

theorem spells_aluReg (hc : c < 8) (hw : w < 2 ^ 32) (hhi : bitsOf w 28 4 = 1) (h0 : bitsOf w 0 12 = 0)
    (h : (tsxAlu (bitsOf w 24 4)).map (fun k => k c (bitsOf w 20 4) (bitsOf w 16 4) (.reg (bitsOf w 12 4))) = some i) :
    Spells i w := by
  obtain ⟨k, hk, rfl⟩ := Option.map_eq_some_iff.mp h
  refine spells_alu hk hc (bitsOf_lt w 20 4) (bitsOf_lt w 16 4) (decide_eq_true (bitsOf_lt w 12 4))
    (fun _ => decide_eq_true (bitsOf_lt w 12 4)) ?_
  simp only [tsxAluWord, fmtREG, bitsOf] at *
  omega

theorem spells_imm (hc : c < 8) (hw : w < 2 ^ 32) (hhi : bitsOf w 28 4 = 2) (h : tsxImm c w (bitsOf w 24 4) = some i) :
    Spells i w := by
  have hlt := fields_lt w
  unfold tsxImm at h
  dsimp only at h
  split at h
  case h_5 =>
    split at h
    next => cases h
    next hno =>
      obtain ⟨k, hk, rfl⟩ := Option.map_eq_some_iff.mp h
      refine spells_alu hk hc (bitsOf_lt w 20 4) (bitsOf_lt w 16 4) (decide_eq_true (bitsOf_lt w 0 16))
        (fun hn => decide_eq_true (Nat.lt_of_not_le fun hv => hno ⟨hn, hv⟩)) ?_
      simp only [tsxAluWord, fmtIMM, bitsOf] at *
      omega
  case h_4 =>
    refine .of_zeroed h fun h0 => ⟨?_, congrArg some ?_⟩
    · simp only [Instr.wellFormed, Bool.and_eq_true, decide_eq_true_eq]; omega
    · simp only [fmtINS, bitsOf] at *; omega
  all_goals
    refine .of_some h ⟨?_, congrArg some ?_⟩
    · simp only [Instr.wellFormed, Src.sum, Bool.and_eq_true, decide_eq_true_eq, beq_iff_eq, true_and]; omega
    · simp only [tsxAluWord, fmtACC, bitsOf] at *; omega

theorem spells_branch (hc : c < 8) (hw : w < 2 ^ 32) (hhi : bitsOf w 28 4 = 3) (h : tsxBranch c w (bitsOf w 24 4) = some i) :
    Spells i w := by
  have hlt := fields_lt w
  unfold tsxBranch at h
  dsimp only at h
  split at h
  case h_7 => cases h
  case h_1 =>
    split at h
    next => cases h
    next hk =>
      refine .of_zeroed h fun h0 => ⟨?_, congrArg some ?_⟩
      · simp only [Instr.wellFormed, Bool.and_eq_true, decide_eq_true_eq]; omega
      · simp only [fmtBR, bitsOf] at *; omega
  all_goals
    refine .of_zeroed h fun h0 => ⟨?_, congrArg some ?_⟩
    · simp only [Instr.wellFormed, Bool.and_eq_true, decide_eq_true_eq]; omega
    · simp only [fmtBR, fmtREG, fmtNIL, bitsOf] at *; omega

theorem spells_memory (hc : c < 8) (hw : w < 2 ^ 32) (hhi : bitsOf w 28 4 = 4) (h : tsxMemory c w (bitsOf w 24 4) = some i) :
    Spells i w := by
  have hlt := fields_lt w
  unfold tsxMemory at h
  dsimp only at h
  split at h
  case h_14 => cases h
  case h_12 | h_13 =>
    refine .of_zeroed h fun h0 => ⟨?_, congrArg some ?_⟩
    · simp only [Instr.wellFormed, Bool.and_eq_true, decide_eq_true_eq]; omega
    · simp only [fmtREG, bitsOf] at *; omega
  all_goals
    refine .of_some h ⟨?_, congrArg some ?_⟩
    · simp only [Instr.wellFormed, Bool.and_eq_true, decide_eq_true_eq]; omega
    · simp only [fmtIMM, bitsOf] at *; omega

theorem spells_device (hc : c < 8) (hw : w < 2 ^ 32) (hhi : bitsOf w 28 4 = 5) (h : tsxDevice c w (bitsOf w 24 4) = some i) :
    Spells i w := by
  have hlt := fields_lt w
  unfold tsxDevice at h
  dsimp only at h
  split at h
  case h_7 => cases h
  case h_5 | h_6 =>
    refine .of_zeroed h fun h0 => ⟨?_, congrArg some ?_⟩
    · simp only [Instr.wellFormed, Bool.and_eq_true, decide_eq_true_eq]; omega
    · simp only [fmtREG, fmtNIL, bitsOf] at *; omega
  all_goals
    refine .of_some h ⟨?_, congrArg some ?_⟩
    · simp only [Instr.wellFormed, Bool.and_eq_true, decide_eq_true_eq]; omega
    · simp only [fmtIMM, bitsOf] at *; omega

theorem spells_region (hc : c < 8) (hw : w < 2 ^ 32) (hhi : bitsOf w 28 4 = 8) (h : tsxRegion c w (bitsOf w 24 4) = some i) :
    Spells i w := by
  have hlt := fields_lt w
  unfold tsxRegion at h
  split at h
  case h_4 => cases h
  all_goals
    refine .of_zeroed h fun h0 => ⟨?_, congrArg some ?_⟩
    · simp only [Instr.wellFormed, Bool.and_eq_true, decide_eq_true_eq]; omega
    · simp only [fmtSP, fmtNIL, bitsOf] at *; omega

/-- The one mod bit of mbxsend and dmaq. -/
theorem toNat_beq_one {m : Nat} (h : m / 2 = 0) : (m == 1).toNat = m := by
  obtain rfl | rfl : m = 0 ∨ m = 1 := by omega
  · rfl
  · rfl

theorem spells_action (hc : c < 8) (hw : w < 2 ^ 32) (hhi : bitsOf w 28 4 = 9) (h : tsxAction c w (bitsOf w 24 4) = some i) :
    Spells i w := by
  have hlt := fields_lt w
  have hword := eq_fmtREG_fields hw
  unfold tsxAction at h
  dsimp only at h
  split at h
  case h_11 => cases h
  case h_5 | h_8 =>
    refine .of_zeroed h fun h0 => ⟨?_, congrArg some ?_⟩
    · simp only [Instr.wellFormed, Bool.and_eq_true, decide_eq_true_eq]; omega
    · rw [toNat_beq_one (by omega)]
      unfold fmtREG at *; omega
  all_goals
    refine .of_zeroed h fun h0 => ⟨?_, congrArg some ?_⟩
    · simp only [Instr.wellFormed, Bool.and_eq_true, decide_eq_true_eq]; omega
    · unfold fmtREG at *; omega

/-- A word that decodes spells the instruction that it decodes to, whichever group of opcodes it is of. -/
theorem spells_of_decode (hc : c < 8) (hw : w < 2 ^ 32) (h : tsxDecode c w = some i) : Spells i w := by
  have hlt := fields_lt w
  unfold tsxDecode at h
  dsimp only at h
  split at h
  case h_1 hhi =>
    split at h
    next h0 => exact spells_aluReg hc hw hhi h0 h
    next => cases h
  case h_2 hhi => exact spells_imm hc hw hhi h
  case h_3 hhi => exact spells_branch hc hw hhi h
  case h_4 hhi => exact spells_memory hc hw hhi h
  case h_5 hhi => exact spells_device hc hw hhi h
  case h_6 hhi =>
    split at h
    next hwait =>
      refine .of_zeroed h fun h0 => ⟨?_, congrArg some ?_⟩
      · simp only [Instr.wellFormed, Bool.and_eq_true, decide_eq_true_eq]; omega
      · simp only [fmtWT, bitsOf] at *; omega
    next => cases h
  case h_7 hhi =>
    split at h
    next hhalt =>
      refine .of_zeroed h fun h0 => ⟨decide_eq_true hc, congrArg some ?_⟩
      simp only [fmtNIL, bitsOf] at *; omega
    next => cases h
  case h_8 hhi => exact spells_region hc hw hhi h
  case h_9 hhi => exact spells_action hc hw hhi h
  case h_10 => cases h

end

/-- Settles O47: format by format from an instruction to its word, and opcode group by opcode group from a word to its
instruction. -/
theorem instructionWordsRoundTrip : Obligations.InstructionWordsRoundTrip := by
  refine ⟨fun i w hwf he => ?_, fun c w i hc hw h => spells_of_decode hc hw h⟩
  obtain ⟨c, hc, hw, hdecode⟩ := reads_of_encode hwf he
  exact ⟨hw, c, hc, hdecode⟩

end Sys2Proof
end

section
/-! Rules of a sequencer core's state: what its registers, flags and pc read after a write, that these writes change
registers alone, and how an instruction that a core can issue ends (R60, R105, R624). -/
open Sys2Proof
namespace Sys2Proof.Machine

/-! ### Flags -/

@[simp] theorem ZNCV.ofNat_toNat (f : ZNCV) : ZNCV.ofNat f.toNat = f := by
  obtain ⟨z, n, c, v⟩ := f
  revert z n c v
  decide

theorem ZNCV.toNat_lt (f : ZNCV) : f.toNat < 16 := by
  obtain ⟨z, n, c, v⟩ := f
  revert z n c v
  decide

@[simp] theorem flagsOf_setFlags (s : State) (c : Nat) (f : ZNCV) : flagsOf (setFlags s c f) c = f := by
  have hfits : f.toNat % 2 ^ F.SQ_FLAGS_ZNCV.width = f.toNat := Nat.mod_eq_of_lt f.toNat_lt
  rw [flagsOf, setFlags, rd_wr_same, hfits, ZNCV.ofNat_toNat]

/-! ### Registers of a core -/

section
variable (s : State) (c d : Nat) (w : Word)

@[simp] theorem vreg_setV : vreg (setV s c d w) c d = if d % 16 = 0 then 0 else w := by
  unfold vreg setV
  split
  · rfl
  · rw [rd_wr_same, Nat.mod_eq_of_lt (show w.toNat < 2 ^ F.SQ_VREG_VALUE.width from w.isLt), BitVec.ofNat_toNat,
      BitVec.setWidth_eq]

@[simp] theorem lkReg_setLk : lkReg (setLk s c w) c = w := by
  rw [lkReg, setLk, rd_wr_same, Nat.mod_eq_of_lt (show w.toNat < 2 ^ F.SQ_LK_VALUE.width from w.isLt), BitVec.ofNat_toNat,
    BitVec.setWidth_eq]

theorem rd_setV_field {f : Field} (hf : F.SQ_VREG_VALUE.fid % 1024 ≠ f.fid % 1024) (i : Nat) : rd (setV s c d w) f i = rd s f i := by
  unfold setV
  split
  · rfl
  · exact rd_wr_field _ _ _ _ _ _ hf

@[simp] theorem pcOf_setV (c' : Nat) : pcOf (setV s c d w) c' = pcOf s c' := congrArg (4 * ·) (rd_setV_field _ _ _ _ (by decide) _)
@[simp] theorem flagsOf_setV (c' : Nat) : flagsOf (setV s c d w) c' = flagsOf s c' :=
  congrArg ZNCV.ofNat (rd_setV_field _ _ _ _ (by decide) _)
@[simp] theorem coreAt_setV (c' : Nat) : coreAt (setV s c d w) c' = coreAt s c' := by unfold setV; split <;> rfl

@[simp] theorem pcOf_setFlags (f : ZNCV) (c' : Nat) : pcOf (setFlags s c f) c' = pcOf s c' :=
  congrArg (4 * ·) (rd_wr_field _ _ _ _ _ _ (by decide))
@[simp] theorem coreAt_setFlags (f : ZNCV) (c' : Nat) : coreAt (setFlags s c f) c' = coreAt s c' := rfl
@[simp] theorem vreg_setFlags (f : ZNCV) (c' k : Nat) : vreg (setFlags s c f) c' k = vreg s c' k := by
  unfold vreg setFlags; rw [rd_wr_field _ _ _ _ _ _ (by decide)]

@[simp] theorem pcOf_setLk (c' : Nat) : pcOf (setLk s c w) c' = pcOf s c' := congrArg (4 * ·) (rd_wr_field _ _ _ _ _ _ (by decide))
@[simp] theorem coreAt_setLk (c' : Nat) : coreAt (setLk s c w) c' = coreAt s c' := rfl

variable (a : Nat)

@[simp] theorem vreg_setPc (c' k : Nat) : vreg (setPc s c a) c' k = vreg s c' k := by
  unfold vreg setPc; rw [rd_wr_field _ _ _ _ _ _ (by decide)]
@[simp] theorem lkReg_setPc (c' : Nat) : lkReg (setPc s c a) c' = lkReg s c' := by
  unfold lkReg setPc; rw [rd_wr_field _ _ _ _ _ _ (by decide)]
@[simp] theorem flagsOf_setPc (c' : Nat) : flagsOf (setPc s c a) c' = flagsOf s c' := by
  unfold flagsOf setPc; rw [rd_wr_field _ _ _ _ _ _ (by decide)]
@[simp] theorem coreAt_setPc (c' : Nat) : coreAt (setPc s c a) c' = coreAt s c' := rfl

end

/-! ### What these writes keep -/

section
variable {ks : List (Field × Nat)} {s u : State}

theorem Keeps.setV (h : Keeps ks s u) (c d : Nat) (w : Word) (hm : (F.SQ_VREG_VALUE, c * 16 + d % 16) ∈ ks) :
    Keeps ks s (setV u c d w) := by
  unfold Machine.setV
  split
  · exact h
  · exact h.wr _ _ _ hm

theorem Keeps.setFlags (h : Keeps ks s u) (c : Nat) (f : ZNCV) (hm : (F.SQ_FLAGS_ZNCV, c) ∈ ks) : Keeps ks s (setFlags u c f) :=
  h.wr _ _ _ hm

theorem Keeps.setLk (h : Keeps ks s u) (c : Nat) (w : Word) (hm : (F.SQ_LK_VALUE, c) ∈ ks) : Keeps ks s (setLk u c w) :=
  h.wr _ _ _ hm

theorem Keeps.setPc (h : Keeps ks s u) (c a : Nat) (hm : (F.SQ_PC_PC, c) ∈ ks) : Keeps ks s (setPc u c a) := h.wr _ _ _ hm

theorem Keeps.of_regs (h : Keeps ks s u) {t : State} (ht : t.regs = u.regs) : Keeps ks s t := fun f i hf =>
  (rd_congr ht f i).trans (h f i hf)

theorem Keeps.mono {ks' : List (Field × Nat)} (h : Keeps ks s u) (hs : ∀ p ∈ ks, p ∈ ks') : Keeps ks' s u :=
  fun f i hf => h f i fun p hp => hf p (hs p hp)

theorem Settled.keeps {t : State} (ht : Settled u t) (h : Keeps ks s u) : Keeps ks s t := h.of_regs ht.regs

theorem RegsOnly.setV (h : RegsOnly s u) (c d : Nat) (w : Word) : RegsOnly s (setV u c d w) := by
  unfold Machine.setV
  split
  · exact h
  · exact h.wr ..

theorem RegsOnly.setFlags (h : RegsOnly s u) (c : Nat) (f : ZNCV) : RegsOnly s (setFlags u c f) := h.wr ..
theorem RegsOnly.setLk (h : RegsOnly s u) (c : Nat) (w : Word) : RegsOnly s (setLk u c w) := h.wr ..
theorem RegsOnly.setPc (h : RegsOnly s u) (c a : Nat) : RegsOnly s (setPc u c a) := h.wr ..

theorem RegsOnly.coreAt (h : RegsOnly s u) (c : Nat) : coreAt u c = coreAt s c := by unfold RegsOnly at h; rw [h]; rfl

end

/-! ### Settled states read as the states they settle -/

section
variable {u t : State} (ht : Settled u t)
include ht

theorem Settled.vreg (c k : Nat) : vreg t c k = vreg u c k := by unfold Machine.vreg; rw [ht.rd]
theorem Settled.lkReg (c : Nat) : lkReg t c = lkReg u c := by unfold Machine.lkReg; rw [ht.rd]
theorem Settled.pcOf (c : Nat) : pcOf t c = pcOf u c := by unfold Machine.pcOf; rw [ht.rd]
theorem Settled.flagsOf (c : Nat) : flagsOf t c = flagsOf u c := by unfold Machine.flagsOf; rw [ht.rd]
theorem Settled.coreAt (c : Nat) : coreAt t c = coreAt u c := by unfold Machine.coreAt; rw [ht.cores]
theorem Settled.sqState (c : Nat) : sqState t c = sqState u c := ht.rd ..

end

/-! ### A core that can issue -/

section
variable {s : State} {c : Nat}

theorem Ready.lt (h : Ready s c) : c < 8 := h.1
theorem Ready.canIssue (h : Ready s c) : canIssue s c = true := h.2.1
theorem Ready.stepping (h : Ready s c) : (coreAt s c).stepping = false := h.2.2.1
theorem Ready.pc_lt (h : Ready s c) : pcOf s c < 0x7FFC := h.2.2.2

theorem stepEnd_of_not_stepping {u : State} (h : (coreAt u c).stepping = false) : stepEnd u c = u := by
  simp [stepEnd, h]

/-- An instruction of a core that can issue, and that stays no single step, has the effect of the instruction. -/
theorem answers_issue {f : State → State} {P : State → Prop} (hr : Ready s c) (hstep : (coreAt (f s) c).stepping = false)
    (h : ∀ t, Settled (f s) t → P t) : Answers (onCore c f s) P := by
  refine answers_onUnit hr.lt fun t ht => h t ?_
  rwa [issue_of_canIssue hr.canIssue, stepEnd_of_not_stepping hstep] at ht

theorem advance_of_lt {u : State} (h : pcOf u c < 0x7FFC) : advance u c = setPc u c (pcOf u c + 4) := if_pos h

/-- The next instruction follows where the pc has one. -/
theorem pcOf_setPc_next {u : State} (h : pcOf u c < 0x7FFC) : pcOf (setPc u c (pcOf u c + 4)) c = pcOf u c + 4 := by
  refine pcOf_setPc u c ?_ (by unfold pcOf at *; omega)
  unfold pcOf; omega

/-- An instruction that only writes registers, and then goes on, from a core that can issue it. -/
theorem answers_next {f : State → State} {u : State} {ks : List (Field × Nat)} {P : State → Prop} (hr : Ready s c)
    (hf : f s = advance u c) (hu : RegsOnly s u) (hpc : pcOf u c = pcOf s c) (hk : Keeps ks s u) (hm : (F.SQ_PC_PC, c) ∈ ks)
    (h : ∀ t, Settled (setPc u c (pcOf s c + 4)) t → pcOf t c = pcOf s c + 4 → Changes ks s t → P t) :
    Answers (onCore c f s) P := by
  have hnext : f s = setPc u c (pcOf s c + 4) := by rw [hf, advance_of_lt (hpc ▸ hr.pc_lt), hpc]
  have hstep : (coreAt (f s) c).stepping = false := by rw [hnext, coreAt_setPc, hu.coreAt, hr.stepping]
  refine answers_issue hr hstep fun t ht => ?_
  rw [hnext] at ht
  refine h t ht ?_ (ht.changes (hk.setPc _ _ hm) (hu.setPc ..))
  rw [ht.pcOf, ← hpc, pcOf_setPc_next (hpc ▸ hr.pc_lt)]

end

end Sys2Proof.Machine
end

section
/-! Arithmetic, logic, shifts and constants of a core (R105, R106): what each writes into its register and the flags. -/
open Sys2Proof
namespace Sys2Proof.Machine

theorem Answers.imp {o : Host.Outcome State Fault Refusal} {P Q : State → Prop} (h : Answers o P) (hpq : ∀ t, P t → Q t) :
    Answers o Q := by
  obtain ⟨t, ho, ht⟩ := h
  exact ⟨t, ho, hpq t ht⟩

/-! ### Signed overflow (R105) -/

theorem saddOverflow_eq_decide {w : Nat} (x y : BitVec w) : x.saddOverflow y = decide (x.toInt + y.toInt ≠ (x + y).toInt) := by
  rw [Bool.eq_iff_iff, decide_eq_true_iff]
  refine ⟨fun h heq => ?_, fun h => ?_⟩
  · have hlo := BitVec.le_toInt (x + y)
    have hhi := BitVec.toInt_lt (x := x + y)
    simp only [BitVec.saddOverflow, Bool.or_eq_true, decide_eq_true_eq] at h
    omega
  · by_contra hno
    exact h (BitVec.toInt_add_of_not_saddOverflow hno).symm

theorem ssubOverflow_eq_decide {w : Nat} (x y : BitVec w) : x.ssubOverflow y = decide (x.toInt - y.toInt ≠ (x - y).toInt) := by
  rw [Bool.eq_iff_iff, decide_eq_true_iff]
  refine ⟨fun h heq => ?_, fun h => ?_⟩
  · have hlo := BitVec.le_toInt (x - y)
    have hhi := BitVec.toInt_lt (x := x - y)
    simp only [BitVec.ssubOverflow, Bool.or_eq_true, decide_eq_true_eq] at h
    omega
  · by_contra hno
    exact h (BitVec.toInt_sub_of_not_ssubOverflow hno).symm

theorem flagsAdd_v (x y : Word) : (flagsAdd x y).v = decide (x.toInt + y.toInt ≠ (x + y).toInt) := by
  rw [← saddOverflow_eq_decide, BitVec.saddOverflow_eq]; rfl

theorem flagsSub_v (x y : Word) : (flagsSub x y).v = decide (x.toInt - y.toInt ≠ (x - y).toInt) := by
  rw [← ssubOverflow_eq_decide, BitVec.ssubOverflow_eq]
  show (x.msb != y.msb && (x - y).msb != x.msb) = _
  cases x.msb <;> cases y.msb <;> cases (x - y).msb <;> rfl

/-! ### Instructions that write a result -/

section
variable {s : State} {c d : Nat}

/-- An instruction that writes a result and flags does so and goes on. -/
theorem answers_writeResult {f : State → State} {r : Word} {fl : ZNCV} (hr : Ready s c) (hf : f s = writeResult s c d r fl) :
    Answers (onCore c f s) fun t => vreg t c d = (if d % 16 = 0 then 0 else r) ∧ flagsOf t c = fl ∧ pcOf t c = pcOf s c + 4
      ∧ Changes [(F.SQ_VREG_VALUE, c * 16 + d % 16), (F.SQ_FLAGS_ZNCV, c), (F.SQ_PC_PC, c)] s t := by
  refine answers_next hr hf (((RegsOnly.refl s).setV c d r).setFlags c fl) (by simp)
    (((Keeps.refl _ s).setV c d r (by simp)).setFlags c fl (by simp)) (by simp) fun t ht hpc hch => ⟨?_, ?_, hpc, hch⟩
  · rw [ht.vreg, vreg_setPc, vreg_setFlags, vreg_setV]
  · rw [ht.flagsOf, flagsOf_setPc, flagsOf_setFlags]

/-- An instruction that writes a register and leaves the flags. -/
theorem answers_writeReg {f : State → State} {r : Word} (hr : Ready s c) (hf : f s = advance (setV s c d r) c) :
    Answers (onCore c f s) fun t => vreg t c d = (if d % 16 = 0 then 0 else r) ∧ pcOf t c = pcOf s c + 4
      ∧ Changes [(F.SQ_VREG_VALUE, c * 16 + d % 16), (F.SQ_PC_PC, c)] s t := by
  refine answers_next hr hf ((RegsOnly.refl s).setV c d r) (by simp) ((Keeps.refl _ s).setV c d r (by simp)) (by simp)
    fun t ht hpc hch => ⟨?_, hpc, hch⟩
  rw [ht.vreg, vreg_setPc, vreg_setV]

theorem legal_of {s : State} {c : Nat} {ok : Bool} (h : ok = true) (f : State → State) : legal s c ok f = f s := if_pos h

/-- The logic instructions and mul, in a form other than ACC. -/
theorem answers_logic {op : Word → Word → Word} {operand : State → Nat → Src → Word} {a : Nat} {src : Src} (hr : Ready s c)
    (hsrc : ∀ v, src ≠ .acc v) : Answers (onCore c (tsxLogic op operand c d a src) s) fun t =>
      let r := op (vreg s c a) (operand s c src)
      (vreg t c d = (if d % 16 = 0 then 0 else r) ∧ (flagsOf t c).z = (r == 0) ∧ (flagsOf t c).n = r.msb
        ∧ pcOf t c = pcOf s c + 4
        ∧ Changes [(F.SQ_VREG_VALUE, c * 16 + d % 16), (F.SQ_FLAGS_ZNCV, c), (F.SQ_PC_PC, c)] s t)
      ∧ (flagsOf t c).c = (flagsOf s c).c ∧ (flagsOf t c).v = (flagsOf s c).v := by
  have hlegal : srcLegal false d a src = true := by
    cases src with
    | acc v => exact absurd rfl (hsrc v)
    | _ => rfl
  refine (answers_writeResult hr (legal_of hlegal _)).imp fun t ⟨hv, hfl, hpc, hch⟩ => ?_
  rw [hfl]
  exact ⟨⟨hv, rfl, rfl, hpc, hch⟩, rfl, rfl⟩

theorem srcLegal_true {a : Nat} {src : Src} (h : ∀ v, src = .acc v → d = a) : srcLegal true d a src = true := by
  cases src with
  | acc v => simp [srcLegal, h v rfl]
  | _ => rfl

end

/-- Settles O9: each instruction writes its result and the flags that R105 gives it; the operands are the ones that the model
reads. -/
theorem arithmeticAndLogicWriteResultAndFlags : Obligations.ArithmeticAndLogicWriteResultAndFlags := by
  intro s c d a src hr x sy zy done kept
  have hsy : srcArith s c src = sy := by cases src <;> rfl
  have hzy : srcLogic s c src = zy := by cases src <;> rfl
  refine ⟨fun hacc => ⟨?_, ?_⟩, fun hacc => ⟨?_, ?_, ?_, ?_⟩⟩
  · refine (answers_writeResult hr (legal_of (srcLegal_true hacc) _)).imp fun t ⟨hv, hfl, hpc, hch⟩ => ?_
    rw [hsy] at hv hfl
    refine ⟨⟨hv, ?_, ?_, hpc, hch⟩, ?_, ?_⟩ <;> rw [hfl]
    · rfl
    · rfl
    · rfl
    · exact flagsAdd_v x sy
  · refine (answers_writeResult hr (legal_of (srcLegal_true hacc) _)).imp fun t ⟨hv, hfl, hpc, hch⟩ => ?_
    rw [hsy] at hv hfl
    refine ⟨⟨hv, ?_, ?_, hpc, hch⟩, ?_, ?_⟩ <;> rw [hfl]
    · rfl
    · rfl
    · rfl
    · exact flagsSub_v x sy
  · exact hzy ▸ answers_logic (op := (· &&& ·)) hr hacc
  · exact hzy ▸ answers_logic (op := (· ||| ·)) hr hacc
  · exact hzy ▸ answers_logic (op := (· ^^^ ·)) hr hacc
  · exact hsy ▸ answers_logic (op := (· * ·)) hr hacc

/-! ### The bits of movk (R106) -/

/-- The number `x` with the 16 bits from bit 16 × g on replaced by those of `v`. -/
def putGroup (x g v : Nat) : Nat := x - x / 2 ^ (16 * g) % 2 ^ 16 * 2 ^ (16 * g) + v % 2 ^ 16 * 2 ^ (16 * g)

theorem putGroup_eq (x g v : Nat) :
    putGroup x g v = 2 ^ (16 * g) * (2 ^ 16 * (x / 2 ^ (16 * g) / 2 ^ 16) + v % 2 ^ 16) + x % 2 ^ (16 * g) := by
  unfold putGroup
  generalize 2 ^ (16 * g) = k
  have hx : k * (x / k) + x % k = x := Nat.div_add_mod x k
  have hq : 2 ^ 16 * (x / k / 2 ^ 16) + x / k % 2 ^ 16 = x / k := Nat.div_add_mod ..
  generalize x / k / 2 ^ 16 = hi at *
  generalize x / k % 2 ^ 16 = mid at *
  rw [← hq, Nat.mul_add] at hx
  rw [Nat.mul_add, Nat.mul_comm mid k, Nat.mul_comm (v % 2 ^ 16) k]
  omega

theorem testBit_putGroup (x g v i : Nat) :
    (putGroup x g v).testBit i = if i / 16 = g then v.testBit (i % 16) else x.testBit i := by
  rw [putGroup_eq, Nat.testBit_two_pow_mul_add _ (Nat.mod_lt _ (Nat.two_pow_pos _))]
  by_cases hlo : i < 16 * g
  · rw [if_pos hlo, if_neg (by omega), Nat.testBit_mod_two_pow, decide_eq_true hlo, Bool.true_and]
  · rw [if_neg hlo, Nat.testBit_two_pow_mul_add _ (Nat.mod_lt _ (Nat.two_pow_pos _))]
    by_cases hmid : i - 16 * g < 16
    · rw [if_pos hmid, if_pos (by omega), Nat.testBit_mod_two_pow, decide_eq_true hmid, Bool.true_and]
      congr 1
      omega
    · rw [if_neg hmid, if_neg (by omega), Nat.testBit_div_two_pow, Nat.testBit_div_two_pow]
      congr 1
      omega

theorem tsxMovk_eq (c d g v : Nat) (s : State) :
    tsxMovk c d g v s = advance (setV s c d (BitVec.ofNat 64 (putGroup (vreg s c d).toNat (g % 4) v))) c := rfl

/-! ### The bits of the shifts (R105, R106) -/

section
variable {s : State} {c d a n : Nat} {src : Src}

/-- A shift by an amount that is legal. -/
theorem answers_shift {f : State → State} {r : Word} {out : Bool} (hr : Ready s c)
    (hf : f s = writeResult s c d r (flagsShift r n out (flagsOf s c))) : Answers (onCore c f s) fun t =>
      vreg t c d = (if d % 16 = 0 then 0 else r) ∧ (flagsOf t c).z = (r == 0) ∧ (flagsOf t c).n = r.msb
        ∧ (flagsOf t c).c = (if n = 0 then (flagsOf s c).c else out) ∧ (flagsOf t c).v = (flagsOf s c).v
        ∧ pcOf t c = pcOf s c + 4
        ∧ Changes [(F.SQ_VREG_VALUE, c * 16 + d % 16), (F.SQ_FLAGS_ZNCV, c), (F.SQ_PC_PC, c)] s t := by
  refine (answers_writeResult hr hf).imp fun t ⟨hv, hfl, hpc, hch⟩ => ?_
  rw [hfl]
  exact ⟨hv, rfl, rfl, rfl, rfl, hpc, hch⟩

theorem shiftLegal_of (hacc : ∀ v, src ≠ .acc v) (himm : ∀ v, src = .imm v → v < 64 ∧ n = v) : shiftLegal src = true := by
  cases src with
  | reg r => rfl
  | imm v => exact decide_eq_true (himm v rfl).1
  | acc v => exact absurd rfl (hacc v)

theorem srcCount_of (hacc : ∀ v, src ≠ .acc v) (himm : ∀ v, src = .imm v → v < 64 ∧ n = v)
    (hreg : ∀ r, src = .reg r → n = (vreg s c r).toNat % 64) : srcCount s c src = n := by
  cases src with
  | reg r => exact (hreg r rfl).symm
  | imm v =>
    obtain ⟨hv, rfl⟩ := himm v rfl
    exact Nat.mod_eq_of_lt hv
  | acc v => exact absurd rfl (hacc v)

end

theorem getLsbD_sar (x : Word) (n : Nat) {i : Nat} (hi : i < 64) : (x.sshiftRight n).getLsbD i = x.getLsbD (min (i + n) 63) := by
  rw [BitVec.getLsbD_sshiftRight, decide_eq_false (Nat.not_le.mpr hi), Bool.not_false, Bool.true_and, Nat.add_comm n i]
  split
  · rw [Nat.min_eq_left (by omega)]
  · rw [Nat.min_eq_right (by omega), BitVec.msb_eq_getLsbD_last]

/-- Settles O10: the shifts bit by bit from the library's lemmas, movk from the bits of a number with one group replaced. -/
theorem shiftsAndConstantsWriteResults : Obligations.ShiftsAndConstantsWriteResults := by
  intro s c d a hr
  refine ⟨fun src n hacc himm hreg => ?_, fun imm20 => answers_writeReg hr rfl, fun imm group => ?_⟩
  · intro x done
    have hlegal := shiftLegal_of hacc himm
    obtain rfl := srcCount_of hacc himm hreg
    refine ⟨?_, ?_, ?_⟩
    · refine (answers_shift hr (legal_of hlegal _)).imp fun t ht => ⟨x <<< srcCount s c src, fun i hi => ?_, ht⟩
      rw [BitVec.getLsbD_shiftLeft, decide_eq_true hi, Bool.true_and, ← decide_not, decide_eq_decide.mpr Nat.not_lt]
    · refine (answers_shift hr (legal_of hlegal _)).imp fun t ht => ⟨x >>> srcCount s c src, fun i hi => ?_, ht⟩
      rw [BitVec.getLsbD_ushiftRight, Nat.add_comm]
      by_cases h : i + srcCount s c src < 64
      · rw [decide_eq_true h, Bool.true_and]
      · rw [decide_eq_false h, Bool.false_and, BitVec.getLsbD_of_ge _ _ (Nat.not_lt.mp h)]
    · exact (answers_shift hr (legal_of hlegal _)).imp fun t ht => ⟨x.sshiftRight _, fun i hi => getLsbD_sar x _ hi, ht⟩
  · refine (answers_writeReg hr (tsxMovk_eq c d group imm s)).imp fun t ⟨hv, hpc, hch⟩ => ⟨fun i hi => ?_, hpc, hch⟩
    rw [hv]
    by_cases hd : d % 16 = 0
    · simp [hd]
    · rw [if_neg hd, BitVec.getLsbD_ofNat, decide_eq_true hi, Bool.true_and, testBit_putGroup, decide_eq_true hd, Bool.true_and]
      rfl

end Sys2Proof.Machine
end

section
/-! Branches, jumps and the link register of a core (R107 to R110). -/
open Sys2Proof
namespace Sys2Proof.Machine

section
variable {s : State} {c : Nat}

/-- An instruction that only writes registers, and then sets pc to an address of program memory. -/
theorem answers_goes {f : State → State} {u : State} {a : Nat} {ks : List (Field × Nat)} {P : State → Prop} (hr : Ready s c)
    (hf : f s = setPc u c a) (halign : a % 4 = 0) (hrange : a ≤ 0x7FFC) (hu : RegsOnly s u) (hk : Keeps ks s u)
    (hm : (F.SQ_PC_PC, c) ∈ ks) (h : ∀ t, Settled (setPc u c a) t → pcOf t c = a → Changes ks s t → P t) :
    Answers (onCore c f s) P := by
  have hstep : (coreAt (f s) c).stepping = false := by rw [hf, coreAt_setPc, hu.coreAt, hr.stepping]
  refine answers_issue hr hstep fun t ht => ?_
  rw [hf] at ht
  exact h t ht (by rw [ht.pcOf, pcOf_setPc u c halign hrange]) (ht.changes (hk.setPc _ _ hm) (hu.setPc ..))

/-- An instruction that changes pc alone. -/
theorem answers_pcOnly {f : State → State} {a : Nat} (hr : Ready s c) (hf : f s = setPc s c a) (halign : a % 4 = 0)
    (hrange : a ≤ 0x7FFC) : Answers (onCore c f s) fun t => pcOf t c = a ∧ Changes [(F.SQ_PC_PC, c)] s t :=
  answers_goes hr hf halign hrange (.refl s) (.refl _ s) (by simp) fun _ _ hpc hch => ⟨hpc, hch⟩

theorem next_align (s : State) (c : Nat) : (pcOf s c + 4) % 4 = 0 := by unfold pcOf; omega

theorem Ready.next_le (hr : Ready s c) : pcOf s c + 4 ≤ 0x7FFC := by
  have := hr.pc_lt
  unfold pcOf at *; omega

/-- An instruction that goes on and does nothing else. -/
theorem answers_advance {f : State → State} (hr : Ready s c) (hf : f s = advance s c) :
    Answers (onCore c f s) fun t => pcOf t c = pcOf s c + 4 ∧ Changes [(F.SQ_PC_PC, c)] s t :=
  answers_pcOnly hr (hf.trans (advance_of_lt hr.pc_lt)) (next_align s c) hr.next_le

/-- A branch target in program memory. -/
structure Target (s : State) (c off16 target : Nat) : Prop where
  eq : (target : Int) = (pcOf s c : Int) + 4 * toSigned 16 off16
  le : target ≤ 0x7FFC

theorem Target.branchTarget {off16 target : Nat} (h : Target s c off16 target) :
    branchTarget (pcOf s c) off16 = some target := by
  have hrange : 0 ≤ (target : Int) ∧ (target : Int) ≤ 0x7FFC := ⟨Int.natCast_nonneg _, by exact_mod_cast h.le⟩
  rw [Machine.branchTarget, ← h.eq]
  exact if_pos hrange

theorem Target.align {off16 target : Nat} (h : Target s c off16 target) : target % 4 = 0 := by
  have heq := h.eq
  unfold pcOf at heq
  omega

theorem tsxB_taken {cond off16 : Nat} (hcond : cond < 15) (hold : condHolds cond (flagsOf s c) = true) :
    tsxB c cond off16 s = takeBranch s c off16 := by
  rw [tsxB, legal_of (decide_eq_true hcond), if_pos hold]

theorem tsxB_notTaken {cond off16 : Nat} (hcond : cond < 15) (hold : condHolds cond (flagsOf s c) = false) :
    tsxB c cond off16 s = advance s c := by
  rw [tsxB, legal_of (decide_eq_true hcond), hold, if_neg Bool.false_ne_true]

/-- b.cond goes to the target or on to the next instruction, as its condition says. -/
theorem answers_bCond {cond off16 target : Nat} (hr : Ready s c) (hcond : cond < 15) (h : Target s c off16 target) :
    Answers (exec (.bCond c cond off16) s) fun t =>
      pcOf t c = (if condHolds cond (flagsOf s c) then target else pcOf s c + 4) ∧ Changes [(F.SQ_PC_PC, c)] s t := by
  show Answers (onCore c (tsxB c cond off16) s) _
  cases hold : condHolds cond (flagsOf s c)
  · exact answers_advance hr (tsxB_notTaken hcond hold)
  · refine answers_pcOnly hr ((tsxB_taken hcond hold).trans ?_) h.align h.le
    rw [takeBranch, h.branchTarget]
    rfl

/-- The conditions of the table after R107. -/
theorem condHolds_table (f : ZNCV) {p : Nat × Bool} (hp : p ∈ [(0, true), (1, f.z), (2, !f.z), (3, f.c), (4, !f.c), (5, f.n),
    (6, !f.n), (7, f.v), (8, !f.v), (9, f.c && !f.z), (10, !f.c || f.z), (11, f.n == f.v), (12, f.n != f.v),
    (13, !f.z && (f.n == f.v)), (14, f.z || (f.n != f.v))]) : p.1 < 15 ∧ condHolds p.1 f = p.2 := by
  simp only [List.mem_cons, List.not_mem_nil, or_false] at hp
  rcases hp with rfl | rfl | rfl | rfl | rfl | rfl | rfl | rfl | rfl | rfl | rfl | rfl | rfl | rfl | rfl <;>
    exact ⟨by simp, rfl⟩

end

/-- Settles O11: every instruction writes at most lk or a register and then sets pc, to its target or to the next
instruction. -/
theorem branchesAndJumpsSetThePc : Obligations.BranchesAndJumpsSetThePc := by
  intro s c hr
  refine ⟨fun off16 target heq hle => ⟨?_, ?_⟩, fun cond off16 hcond hold => ?_, fun a halign hrange => ?_,
    fun halign hrange => ?_, fun d => answers_writeReg hr rfl, fun a => ?_⟩
  · intro f p hp
    obtain ⟨hcond, htable⟩ := condHolds_table f hp
    exact htable ▸ answers_bCond hr hcond ⟨heq, hle⟩
  · have h : Target s c off16 target := ⟨heq, hle⟩
    refine answers_goes (u := setLk s c (BitVec.ofNat 64 (pcOf s c + 4))) (f := tsxBl c off16) hr ?_ h.align h.le
      ((RegsOnly.refl s).setLk ..) ((Keeps.refl _ s).setLk _ _ (by simp)) (by simp) fun t ht hpc hch => ⟨hpc, ?_, hch⟩
    · rw [tsxBl, h.branchTarget]
    · rw [ht.lkReg, lkReg_setPc, lkReg_setLk, BitVec.toNat_ofNat]
      exact Nat.mod_eq_of_lt (Nat.lt_of_le_of_lt hr.next_le (by decide))
  · exact answers_advance hr (tsxB_notTaken hcond hold)
  · exact answers_pcOnly hr (jumpTo_address halign hrange) halign hrange
  · exact answers_pcOnly hr (jumpTo_address halign hrange) halign hrange
  · refine answers_next (u := setLk s c (vreg s c a)) hr rfl ((RegsOnly.refl s).setLk ..) (by simp)
      ((Keeps.refl _ s).setLk _ _ (by simp)) (by simp) fun t ht hpc hch => ⟨?_, hpc, hch⟩
    rw [ht.lkReg, lkReg_setPc, lkReg_setLk]

end Sys2Proof.Machine
end

section
/-! Bytes of numbers (R12), and the program memories of the cores: what a byte reads after bytes were written. -/
open Sys2Proof
namespace Sys2Proof.Machine

/-! ### Little-endian bytes -/

theorem ofBytes_cons (b : Nat) (bs : List Nat) : ofBytes (b :: bs) = 2 ^ 8 * ofBytes bs + b % 2 ^ 8 := Nat.add_comm _ _

/-- A bit of a number is a bit of the byte that holds it. -/
theorem testBit_ofBytes (bs : List Nat) (i : Nat) :
    (ofBytes bs).testBit i = (decide (i / 8 < bs.length) && (bs.getD (i / 8) 0).testBit (i % 8)) := by
  induction bs generalizing i with
  | nil => simp [ofBytes]
  | cons b bs ih =>
    rw [ofBytes_cons, Nat.testBit_two_pow_mul_add _ (Nat.mod_lt _ (Nat.two_pow_pos 8))]
    by_cases hi : i < 8
    · have hdiv : i / 8 = 0 := Nat.div_eq_of_lt hi
      rw [if_pos hi, Nat.testBit_mod_two_pow, decide_eq_true hi, hdiv, Nat.mod_eq_of_lt hi]
      simp
    · have hdiv : i / 8 = (i - 8) / 8 + 1 := by omega
      have hmod : i % 8 = (i - 8) % 8 := by omega
      rw [if_neg hi, ih, hdiv, hmod]
      simp

theorem ofBytes_lt (bs : List Nat) : ofBytes bs < 2 ^ (8 * bs.length) := by
  induction bs with
  | nil => exact Nat.one_pos
  | cons b bs ih =>
    rw [ofBytes_cons, List.length_cons, Nat.mul_add, Nat.pow_add]
    omega

theorem toBytes_length (n v : Nat) : (toBytes n v).length = n := by simp [toBytes]

theorem toBytes_getElem? {n i : Nat} (v : Nat) (h : i < n) : (toBytes n v)[i]? = some (v / 2 ^ (8 * i) % 256) := by
  simp [toBytes, h]

theorem toBytes_getD {n i : Nat} (v : Nat) (h : i < n) : (toBytes n v).getD i 0 = v / 2 ^ (8 * i) % 256 := by
  rw [List.getD_eq_getElem?_getD, toBytes_getElem? v h, Option.getD_some]

/-- The bytes of a number spell its low bits. -/
theorem ofBytes_toBytes (n v : Nat) : ofBytes (toBytes n v) = v % 2 ^ (8 * n) := by
  refine Nat.eq_of_testBit_eq fun i => ?_
  rw [testBit_ofBytes, toBytes_length, Nat.testBit_mod_two_pow]
  by_cases h : i / 8 < n
  · have hi : i < 8 * n := by omega
    rw [toBytes_getD v h, decide_eq_true h, decide_eq_true hi, show (256 : Nat) = 2 ^ 8 from rfl,
      Nat.testBit_mod_two_pow, decide_eq_true (Nat.mod_lt _ (by decide)), Nat.testBit_div_two_pow]
    simp only [Bool.true_and]
    congr 1
    omega
  · have hi : ¬ i < 8 * n := by omega
    rw [decide_eq_false h, decide_eq_false hi, Bool.false_and, Bool.false_and]

/-- The byte of a number as a byte of memory. -/
def leByte (v i : Nat) : Byte := BitVec.ofNat 8 (v / 2 ^ (8 * i) % 256)

theorem leByte_getLsbD (v i : Nat) {b : Nat} (hb : b < 8) : (leByte v i).getLsbD b = v.testBit (8 * i + b) := by
  rw [leByte, BitVec.getLsbD_ofNat, decide_eq_true hb, Bool.true_and, show (256 : Nat) = 2 ^ 8 from rfl,
    Nat.testBit_mod_two_pow, decide_eq_true hb, Bool.true_and, Nat.testBit_div_two_pow, Nat.add_comm]

/-! ### One byte of a memory that can lose its contents -/

section
variable (s : State) (u : Nat) (m : List Host.Cell) (a : Nat) (b : Byte)

theorem ramByte_ramPut_same : ramByte s u (ramPut s u m a b) a = b := by
  rw [ramByte, ramPut, byteAt_putByte_same, BitVec.xor_assoc, BitVec.xor_self, BitVec.xor_zero]

theorem ramByte_ramPut_ne {x : Nat} (h : x ≠ a) : ramByte s u (ramPut s u m a b) x = ramByte s u m x := by
  rw [ramByte, ramPut, byteAt_putByte_ne _ _ h, ramByte]

end

theorem ramPuts_nil (s : State) (u : Nat) (m : List Host.Cell) (a : Nat) : ramPuts s u m a [] = m := rfl

/-- A run of bytes is its first byte and the run of the others, one address on. -/
theorem ramPuts_cons (s : State) (u : Nat) (m : List Host.Cell) (a b : Nat) (bs : List Nat) :
    ramPuts s u m a (b :: bs) = ramPuts s u (ramPut s u m a (BitVec.ofNat 8 b)) (a + 1) bs := by
  unfold ramPuts
  rw [List.zipIdx_cons, List.foldl_cons, List.zipIdx_succ, List.foldl_map]
  refine congrArg (fun g => List.foldl g _ _) ?_
  funext m p
  rw [Nat.add_assoc, Nat.add_comm 1]

/-- What a byte reads after a run of bytes was written. -/
theorem ramByte_ramPuts (s : State) (u : Nat) (m : List Host.Cell) (a x : Nat) (bs : List Nat) :
    ramByte s u (ramPuts s u m a bs) x = (if a ≤ x ∧ x < a + bs.length then BitVec.ofNat 8 (bs.getD (x - a) 0)
      else ramByte s u m x) := by
  induction bs generalizing m a with
  | nil => rw [ramPuts_nil, if_neg (by simp only [List.length_nil]; omega)]
  | cons b bs ih =>
    rw [ramPuts_cons, ih]
    rcases Nat.lt_trichotomy x a with h | rfl | h
    · rw [if_neg (by omega), if_neg (by omega), ramByte_ramPut_ne _ _ _ _ _ (by omega)]
    · rw [if_neg (by omega), if_pos (by simp), ramByte_ramPut_same, Nat.sub_self]
      rfl
    · by_cases hlen : x < a + 1 + bs.length
      · obtain ⟨k, rfl⟩ : ∃ k, x = a + 1 + k := ⟨x - (a + 1), by omega⟩
        rw [if_pos (by omega), if_pos (by simp only [List.length_cons]; omega), Nat.add_sub_cancel_left,
          show a + 1 + k - a = k + 1 by omega]
        rfl
      · rw [if_neg (by omega), if_neg (by simp only [List.length_cons]; omega), ramByte_ramPut_ne _ _ _ _ _ (by omega)]

/-! ### One byte of a core's program address space (R61) -/

theorem place_eq_own {a : Nat} (h : a < 0x2000) : place a = some (.own a) := if_pos h

theorem place_eq_shared {a : Nat} (hlo : 0x10000 ≤ a) (hhi : a < 0x50000) : place a = some (.shared (a - 0x10000)) := by
  rw [place, if_neg (by omega), if_pos ⟨hlo, hhi⟩]

theorem place_eq_none {a : Nat} (h : ¬ a < 0x2000) (h' : ¬ (0x10000 ≤ a ∧ a < 0x50000)) : place a = none := by
  rw [place, if_neg h, if_neg h']

theorem place_ne_none {a : Nat} : place a ≠ none ↔ a < 0x2000 ∨ 0x10000 ≤ a ∧ a < 0x50000 := by
  constructor
  · intro h
    by_contra hno
    exact h (place_eq_none (fun h => hno (.inl h)) (fun h => hno (.inr h)))
  · rintro (h | ⟨hlo, hhi⟩)
    · rw [place_eq_own h]; simp
    · rw [place_eq_shared hlo hhi]; simp

/-- An access of up to 8 bytes at its own alignment lies wholly in the memory where it begins. -/
theorem place_add {a n i : Nat} (hn : n ∈ [1, 2, 4, 8]) (ha : place a ≠ none) (halign : a % n = 0) (hi : i < n) :
    place (a + i) ≠ none := by
  simp only [List.mem_cons, List.not_mem_nil, or_false] at hn
  rw [place_ne_none] at *
  rcases hn with rfl | rfl | rfl | rfl <;> omega

/-- The state with one byte of a core's program address space written. -/
theorem memByte_storeByte_same {s : State} {c a : Nat} (b : Byte) (ha : place a ≠ none) : memByte (storeByte s c a b) c a = b := by
  rcases place_ne_none.mp ha with h | ⟨hlo, hhi⟩
  · rw [storeByte, memByte, place_eq_own h]
    exact ramByte_ramPut_same ..
  · rw [storeByte, memByte, place_eq_shared hlo hhi]
    exact ramByte_ramPut_same ..

/-- A byte written changes no other address of the core, and no byte of another core's own memory. -/
theorem memByte_storeByte_ne {s : State} {c a c' x : Nat} (b : Byte) (hx : x ≠ a ∨ c' % 8 ≠ c % 8 ∧ x < 0x2000) :
    memByte (storeByte s c a b) c' x = memByte s c' x := by
  by_cases ha : place a = none
  · rw [storeByte, ha]
  · rcases place_ne_none.mp ha with hown | ⟨hlo, hhi⟩
    · rw [storeByte, place_eq_own hown, memByte, memByte]
      by_cases hxo : x < 0x2000
      · rw [place_eq_own hxo]
        exact ramByte_ramPut_ne _ _ _ _ _ (by omega)
      · by_cases hxs : 0x10000 ≤ x ∧ x < 0x50000
        · rw [place_eq_shared hxs.1 hxs.2]
          rfl
        · rw [place_eq_none hxo hxs]
    · rw [storeByte, place_eq_shared hlo hhi, memByte, memByte]
      by_cases hxo : x < 0x2000
      · rw [place_eq_own hxo]
        rfl
      · by_cases hxs : 0x10000 ≤ x ∧ x < 0x50000
        · rw [place_eq_shared hxs.1 hxs.2]
          exact ramByte_ramPut_ne _ _ _ _ _ (by omega)
        · rw [place_eq_none hxo hxs]

/-- Of `s`, the program memories of the cores alone differ in `t`. -/
def RamOnly (s t : State) : Prop := t = { s with data := t.data, shared := t.shared }

theorem RamOnly.refl (s : State) : RamOnly s s := rfl

theorem RamOnly.trans {s t u : State} (h : RamOnly s t) (k : RamOnly t u) : RamOnly s u := by
  unfold RamOnly at *
  rw [k, h]

theorem storeByte_ramOnly (s : State) (c a : Nat) (b : Byte) : RamOnly s (storeByte s c a b) := by
  unfold storeByte; split <;> rfl

theorem RamOnly.coreAt {s t : State} (h : RamOnly s t) (c : Nat) : coreAt t c = coreAt s c := by
  unfold RamOnly at h; rw [h]; rfl

theorem RamOnly.regs {s t : State} (h : RamOnly s t) : t.regs = s.regs := by
  unfold RamOnly at h; rw [h]

/-- The state with the bytes `bs` written from address `a` of core `c` on. -/
def storeRun (s : State) (c a : Nat) : List Nat → State
  | [] => s
  | b :: bs => storeRun (storeByte s c a (BitVec.ofNat 8 b)) c (a + 1) bs

theorem foldl_storeByte (s : State) (c a k : Nat) (bs : List Nat) :
    ((bs.zipIdx k).map fun p => (a + p.2, BitVec.ofNat 8 p.1)).foldl (fun s e => storeByte s c e.1 e.2) s
      = storeRun s c (a + k) bs := by
  induction bs generalizing s k with
  | nil => rfl
  | cons b bs ih => exact ih _ (k + 1)

theorem storeRun_ramOnly (s : State) (c a : Nat) (bs : List Nat) : RamOnly s (storeRun s c a bs) := by
  induction bs generalizing s a with
  | nil => rfl
  | cons b bs ih => exact (storeByte_ramOnly ..).trans (ih ..)

theorem memByte_storeRun_ne {s : State} {c a c' x : Nat} {bs : List Nat}
    (hx : ¬ (a ≤ x ∧ x < a + bs.length) ∨ c' % 8 ≠ c % 8 ∧ x < 0x2000) : memByte (storeRun s c a bs) c' x = memByte s c' x := by
  induction bs generalizing s a with
  | nil => rfl
  | cons b bs ih =>
    simp only [List.length_cons] at hx
    exact (ih (by omega)).trans (memByte_storeByte_ne _ (by omega))

theorem memByte_storeRun {s : State} {c a i : Nat} {bs : List Nat} (hi : i < bs.length)
    (hplace : ∀ j, j < bs.length → place (a + j) ≠ none) :
    memByte (storeRun s c a bs) c (a + i) = BitVec.ofNat 8 (bs.getD i 0) := by
  induction bs generalizing s a i with
  | nil => exact absurd hi (Nat.not_lt_zero i)
  | cons b bs ih =>
    cases i with
    | zero =>
      rw [Nat.add_zero, storeRun, memByte_storeRun_ne (.inl (by omega))]
      exact memByte_storeByte_same _ (hplace 0 (by simp))
    | succ i =>
      have hshift (j : Nat) (hj : j < bs.length) : place (a + 1 + j) ≠ none :=
        (show a + (j + 1) = a + 1 + j by omega) ▸ hplace (j + 1) (by simpa using hj)
      rw [show a + (i + 1) = a + 1 + i by omega]
      exact ih (by simpa using hi) hshift

/-! ### Stores of a core, in a region and outside one (R90, R112) -/

section
variable {s : State} {c a n v : Nat}

theorem storeBytes_outside (h : (coreAt s c).region = none) : storeBytes s c a n v = storeRun s c a (toBytes n v) := by
  rw [storeBytes]
  simp only [h]
  exact foldl_storeByte s c a 0 _

/-- What the store buffer of a region takes for a store, newest first. -/
def buffered (a n v : Nat) : List (Nat × Byte) := ((toBytes n v).zipIdx.map fun p => (a + p.2, BitVec.ofNat 8 p.1)).reverse

theorem storeBytes_inside {r : Region} (h : (coreAt s c).region = some r) : storeBytes s c a n v
    = setCore s c { coreAt s c with region := some { r with stores := buffered a n v ++ r.stores, storeCount := r.storeCount + 1 } } := by
  rw [storeBytes]
  simp only [h]
  rfl

theorem mem_buffered {e : Nat × Byte} : e ∈ buffered a n v ↔ ∃ i, i < n ∧ e = (a + i, leByte v i) := by
  simp only [buffered, List.mem_reverse, List.mem_map, List.mem_zipIdx_iff_getElem?, Prod.exists]
  constructor
  · rintro ⟨b, i, hb, rfl⟩
    have hi : i < n := by
      have := (List.getElem?_eq_some_iff.mp hb).1
      rwa [toBytes_length] at this
    rw [toBytes_getElem? v hi] at hb
    exact ⟨i, hi, by rw [← Option.some.inj hb]; rfl⟩
  · rintro ⟨i, hi, rfl⟩
    exact ⟨_, i, toBytes_getElem? v hi, rfl⟩

theorem find_buffered {i : Nat} (hi : i < n) : (buffered a n v).find? (·.1 == a + i) = some (a + i, leByte v i) := by
  have hsome : ((buffered a n v).find? (·.1 == a + i)).isSome = true :=
    List.find?_isSome.mpr ⟨_, mem_buffered.mpr ⟨i, hi, rfl⟩, by simp⟩
  obtain ⟨e, he⟩ := Option.isSome_iff_exists.mp hsome
  obtain ⟨j, -, rfl⟩ := mem_buffered.mp (List.mem_of_find?_eq_some he)
  have hj : a + j = a + i := by simpa using List.find?_some he
  obtain rfl : j = i := by omega
  exact he

theorem find_buffered_none {x : Nat} (hx : ¬ (a ≤ x ∧ x < a + n)) : (buffered a n v).find? (·.1 == x) = none := by
  refine List.find?_eq_none.mpr fun e he => ?_
  obtain ⟨i, hi, rfl⟩ := mem_buffered.mp he
  simp only [beq_iff_eq]
  omega

theorem loadByte_outside (h : (coreAt s c).region = none) (x : Nat) : loadByte s c x = memByte s c x := by
  rw [loadByte, h]

theorem loadByte_inside {r : Region} (h : (coreAt s c).region = some r) (x : Nat) : loadByte s c x
    = ((r.stores.find? (·.1 == x)).map (·.2)).getD (memByte s c x) := by
  rw [loadByte, h]
  dsimp only
  cases r.stores.find? (·.1 == x) <;> rfl

/-- A byte that a store has written loads back, from the store buffer or from memory. -/
theorem loadByte_storeBytes {i : Nat} (hi : i < n) (hplace : ∀ j, j < n → place (a + j) ≠ none) :
    loadByte (storeBytes s c a n v) c (a + i) = leByte v i := by
  cases h : (coreAt s c).region with
  | none =>
    rw [storeBytes_outside h, loadByte_outside (by rw [(storeRun_ramOnly ..).coreAt, h]),
      memByte_storeRun (by rwa [toBytes_length]) (by rwa [toBytes_length]), toBytes_getD v hi]
    rfl
  | some r =>
    rw [storeBytes_inside h, loadByte_inside (r := _) (by rw [coreAt_setCore_same]), List.find?_append, find_buffered hi]
    rfl

/-- A store leaves every other address of the core alone. -/
theorem loadByte_storeBytes_ne {x : Nat} (hx : ¬ (a ≤ x ∧ x < a + n)) : loadByte (storeBytes s c a n v) c x = loadByte s c x := by
  cases h : (coreAt s c).region with
  | none =>
    rw [storeBytes_outside h, loadByte_outside (by rw [(storeRun_ramOnly ..).coreAt, h]), loadByte_outside h,
      memByte_storeRun_ne (.inl (by rwa [toBytes_length]))]
  | some r =>
    rw [storeBytes_inside h, loadByte_inside (r := _) (by rw [coreAt_setCore_same]), List.find?_append, find_buffered_none hx,
      loadByte_inside h]
    rfl

/-- A store writes no byte of another core's own memory. -/
theorem memByte_storeBytes_other {c' x : Nat} (hc : c' % 8 ≠ c % 8) (hx : x < 0x2000) :
    memByte (storeBytes s c a n v) c' x = memByte s c' x := by
  cases h : (coreAt s c).region with
  | none => rw [storeBytes_outside h, memByte_storeRun_ne (.inr ⟨hc, hx⟩)]
  | some r => rw [storeBytes_inside h]; rfl

/-- What a store leaves of the state: all but the core itself and the program memories, and its stall and single step. -/
theorem storeBytes_rest (s : State) (c a n v : Nat) :
    storeBytes s c a n v = { s with cores := (storeBytes s c a n v).cores, data := (storeBytes s c a n v).data,
                                    shared := (storeBytes s c a n v).shared }
    ∧ (coreAt (storeBytes s c a n v) c).stepping = (coreAt s c).stepping
    ∧ (coreAt (storeBytes s c a n v) c).stall = (coreAt s c).stall := by
  cases h : (coreAt s c).region with
  | none =>
    have hram := storeRun_ramOnly s c a (toBytes n v)
    rw [storeBytes_outside h, hram.coreAt]
    unfold RamOnly at hram
    exact ⟨by rw [hram], rfl, rfl⟩
  | some r =>
    rw [storeBytes_inside h, coreAt_setCore_same]
    exact ⟨rfl, rfl, rfl⟩

theorem storeBytes_memories (h : (coreAt s c).region ≠ none) : (storeBytes s c a n v).memories = s.memories := by
  obtain ⟨r, hr⟩ := Option.ne_none_iff_exists'.mp h
  rw [storeBytes_inside hr]
  rfl

end

end Sys2Proof.Machine
end

section
/-! Loads, stores and atomics of a core (R111 to R113). -/
open Sys2Proof
namespace Sys2Proof.Machine

/-! ### Loads -/

theorem withAddr_of {s : State} {c a n : Nat} (ha : place a ≠ none) (halign : a % n = 0) (f : State → State) :
    withAddr s c a n f = f s := by
  have hsome : (place a).isNone = false := by
    cases h : place a with
    | none => exact absurd h ha
    | some p => rfl
  rw [withAddr, hsome, if_neg Bool.false_ne_true, if_neg (not_not.mpr halign)]

/-- The bytes that a load reads. -/
theorem loadBytes_eq (s : State) (c a n : Nat) : (loadBytes s c a n).length = n
    ∧ ∀ i, i < n → (loadBytes s c a n).getD i 0 = (loadByte s c (a + i)).toNat := by
  refine ⟨by simp [loadBytes], fun i hi => ?_⟩
  simp [loadBytes, List.getD_eq_getElem?_getD, hi]

/-- The value that a load of `n` bytes reads: the lowest address is the least significant. -/
def loadValue (s : State) (c a n : Nat) : BitVec (8 * n) := BitVec.ofNat (8 * n) (ofBytes (loadBytes s c a n))

theorem loadValue_getLsbD {s : State} {c a n i : Nat} (hi : i < 8 * n) :
    (loadValue s c a n).getLsbD i = (loadByte s c (a + i / 8)).getLsbD (i % 8) := by
  obtain ⟨hlen, hget⟩ := loadBytes_eq s c a n
  have hbyte : i / 8 < n := by omega
  rw [loadValue, BitVec.getLsbD_ofNat, decide_eq_true hi, Bool.true_and, testBit_ofBytes, hlen, decide_eq_true hbyte,
    Bool.true_and, hget _ hbyte]
  rfl

theorem ofBytes_loadBytes_lt (s : State) (c a n : Nat) : ofBytes (loadBytes s c a n) < 2 ^ (8 * n) := by
  have h := ofBytes_lt (loadBytes s c a n)
  rwa [(loadBytes_eq s c a n).1] at h

/-- What a load writes: the value zero-extended or sign-extended. -/
theorem load_extended {n : Nat} (hn : 8 * n ≤ 64) (s : State) (c a : Nat) (signed : Bool) :
    (if signed = true then sext (8 * n) (ofBytes (loadBytes s c a n)) else BitVec.ofNat 64 (ofBytes (loadBytes s c a n)))
      = if signed = true then (loadValue s c a n).signExtend 64 else (loadValue s c a n).setWidth 64 := by
  cases signed
  · exact (BitVec.setWidth_ofNat_of_le_of_lt hn (ofBytes_loadBytes_lt s c a n)).symm
  · rfl

/-- A load in range and aligned writes its value, extended, and goes on. -/
theorem answers_load {s : State} {c n d a imm16 : Nat} (signed : Bool) (hr : Ready s c) (hn : 8 * n ≤ 64)
    (ha : place (effAddr s c a imm16) ≠ none) (halign : effAddr s c a imm16 % n = 0) :
    Answers (onCore c (tsxLoad n signed c d a imm16) s) fun t =>
      vreg t c d = (if d % 16 = 0 then 0 else if signed then (loadValue s c (effAddr s c a imm16) n).signExtend 64
        else (loadValue s c (effAddr s c a imm16) n).setWidth 64)
      ∧ pcOf t c = pcOf s c + 4 ∧ Changes [(F.SQ_VREG_VALUE, c * 16 + d % 16), (F.SQ_PC_PC, c)] s t := by
  refine answers_writeReg hr ?_
  rw [tsxLoad, withAddr_of ha halign]
  exact congrArg (fun r => advance (setV s c d r) c) (load_extended hn s c _ signed)

theorem loadValue_one (s : State) (c a : Nat) : loadValue s c a 1 = loadByte s c a := by
  refine BitVec.eq_of_getLsbD_eq fun i hi => ?_
  rw [loadValue_getLsbD hi, Nat.div_eq_of_lt hi, Nat.mod_eq_of_lt hi, Nat.add_zero]

/-- A value twice as long is the two halves, the upper address first. -/
theorem loadValue_two (s : State) (c a : Nat) :
    loadValue s c a 2 = (loadByte s c (a + 1) ++ loadByte s c a : BitVec 16) := by
  refine BitVec.eq_of_getLsbD_eq fun i hi => ?_
  rw [loadValue_getLsbD hi, BitVec.getLsbD_append]
  by_cases h : i < 8
  · rw [if_pos h, Nat.div_eq_of_lt h, Nat.mod_eq_of_lt h, Nat.add_zero]
  · rw [if_neg h, show i / 8 = 1 by omega, show i % 8 = i - 8 by omega]

theorem loadValue_four (s : State) (c a : Nat) :
    loadValue s c a 4 = ((loadByte s c (a + 3) ++ loadByte s c (a + 2) : BitVec 16)
      ++ (loadByte s c (a + 1) ++ loadByte s c a : BitVec 16) : BitVec 32) := by
  have hhigh : (loadByte s c (a + 3) ++ loadByte s c (a + 2) : BitVec 16) = loadValue s c (a + 2) 2 := (loadValue_two ..).symm
  rw [hhigh, ← loadValue_two s c a]
  refine BitVec.eq_of_getLsbD_eq fun i hi => ?_
  rw [loadValue_getLsbD hi, BitVec.getLsbD_append]
  by_cases h : i < 16
  · rw [if_pos h, loadValue_getLsbD h]
  · rw [if_neg h, loadValue_getLsbD (by omega), show (i - 16) % 8 = i % 8 by omega,
      show a + 2 + (i - 16) / 8 = a + i / 8 by omega]

/-- Settles O12: a load writes the value that its bytes spell, extended to a register. -/
theorem loadsReadLittleEndianBytes : Obligations.LoadsReadLittleEndianBytes := by
  intro s c d a imm16 hr ha ad done
  refine ⟨rfl, ?_, ?_, fun h2 => ⟨?_, ?_⟩, fun h4 => ⟨?_, ?_⟩, fun h8 => ?_⟩
  · exact loadValue_one s c ad ▸ answers_load false hr (by decide) ha (Nat.mod_one _)
  · exact loadValue_one s c ad ▸ answers_load true hr (by decide) ha (Nat.mod_one _)
  · exact loadValue_two s c ad ▸ answers_load false hr (by decide) ha h2
  · exact loadValue_two s c ad ▸ answers_load true hr (by decide) ha h2
  · exact loadValue_four s c ad ▸ answers_load false hr (by decide) ha h4
  · exact loadValue_four s c ad ▸ answers_load true hr (by decide) ha h4
  · refine (answers_load false hr (by decide) ha h8).imp fun t ht => ⟨(loadValue s c ad 8).setWidth 64, fun i hi => ?_, ht⟩
    rw [BitVec.setWidth_eq, loadValue_getLsbD hi]

/-! ### Stores -/

section
variable {s : State} {c d a imm16 n : Nat}

theorem classLimited_within {within : Region → Bool} (h : ∀ r, (coreAt s c).region = some r → within r = true)
    (f : State → State) : classLimited s c within f = f s := by
  unfold classLimited
  split
  · rfl
  next r hr => rw [h r hr, if_pos rfl]

theorem pcOf_congr {u : State} (h : u.regs = s.regs) : pcOf u c = pcOf s c := congrArg (4 * ·) (rd_congr h ..)

theorem storeBytes_regs (s : State) (c a n v : Nat) : (storeBytes s c a n v).regs = s.regs := by
  rw [(storeBytes_rest s c a n v).1]

/-- A store in range and aligned, with room in the store buffer of an open region, stores and goes on. -/
theorem answers_store {P : State → Prop} (hr : Ready s c) (hroom : ∀ r, (coreAt s c).region = some r → r.storeCount < 64)
    (ha : place (effAddr s c a imm16) ≠ none) (halign : effAddr s c a imm16 % n = 0)
    (h : ∀ t, Settled (setPc (storeBytes s c (effAddr s c a imm16) n (vreg s c d).toNat) c (pcOf s c + 4)) t → P t) :
    Answers (onCore c (tsxStore n c d a imm16) s) P := by
  have hpc := pcOf_congr (c := c) (storeBytes_regs s c (effAddr s c a imm16) n (vreg s c d).toNat)
  have hf : tsxStore n c d a imm16 s = setPc (storeBytes s c (effAddr s c a imm16) n (vreg s c d).toNat) c (pcOf s c + 4) := by
    rw [tsxStore, withAddr_of ha halign, classLimited_within fun r hr => decide_eq_true (hroom r hr),
      advance_of_lt (hpc ▸ hr.pc_lt), hpc]
  refine answers_issue hr ?_ fun t ht => h t (hf ▸ ht)
  rw [hf, coreAt_setPc, (storeBytes_rest ..).2.1, hr.stepping]

theorem loadByte_congr {u : State} (hcores : u.cores = s.cores) (hdata : u.data = s.data) (hshared : u.shared = s.shared)
    (hlost : u.memLost = s.memLost) (x : Nat) : loadByte u c x = loadByte s c x := by
  simp only [loadByte, memByte, coreAt, dataByte, sharedByte, ramByte, memBack, hcores, hdata, hshared, hlost]

theorem memByte_congr {u : State} (hdata : u.data = s.data) (hshared : u.shared = s.shared)
    (hlost : u.memLost = s.memLost) (x : Nat) : memByte u c x = memByte s c x := by
  simp only [memByte, dataByte, sharedByte, ramByte, memBack, hdata, hshared, hlost]

theorem Settled.loadByte {u t : State} (ht : Settled u t) (c x : Nat) : loadByte t c x = loadByte u c x :=
  loadByte_congr ht.cores ht.data ht.shared ht.memLost x

theorem Settled.memByte {u t : State} (ht : Settled u t) (c x : Nat) : memByte t c x = memByte u c x :=
  memByte_congr ht.data ht.shared ht.memLost x

theorem leByte_vreg (w : Word) (i : Nat) {b : Nat} (hb : b < 8) : (leByte w.toNat i).getLsbD b = w.getLsbD (8 * i + b) :=
  leByte_getLsbD _ _ hb

end

/-- What a store of `n` bytes leaves behind. -/
structure Stored (s : State) (c ad n : Nat) (w : Word) (t : State) : Prop where
  bytes : ∀ i, i < n → loadByte t c (ad + i) = leByte w.toNat i
  others : ∀ x, ¬ (ad ≤ x ∧ x < ad + n) → loadByte t c x = loadByte s c x
  otherCores : ∀ c' x, c' < 8 → c' ≠ c → x < 0x2000 → memByte t c' x = memByte s c' x
  memories : (coreAt s c).region ≠ none → t.memories = s.memories
  pc : pcOf t c = pcOf s c + 4
  regs : Keeps [(F.SQ_PC_PC, c)] s t
  rest : Settled { s with regs := t.regs, cores := t.cores, data := t.data, shared := t.shared } t
  stepping : (coreAt t c).stepping = false
  stall : (coreAt t c).stall = (coreAt s c).stall

theorem Settled.memories {u t : State} (ht : Settled u t) : t.memories = u.memories := by
  simp only [State.memories, ht.data, ht.shared, ht.journal, ht.ispMem, ht.lp5x, ht.spm]

/-- A settled state differs from `s` in the listed parts where the state that it settles does. -/
theorem Settled.rest_of_ram {s u t : State} (ht : Settled u t)
    (hu : u = { s with regs := u.regs, cores := u.cores, data := u.data, shared := u.shared }) :
    Settled { s with regs := t.regs, cores := t.cores, data := t.data, shared := t.shared } t := by
  rw [ht.regs, ht.cores, ht.data, ht.shared, ← hu]
  exact ht

theorem stored {s t : State} {c d a imm16 n : Nat} (hr : Ready s c) (hn : n ∈ [1, 2, 4, 8])
    (ha : place (effAddr s c a imm16) ≠ none) (halign : effAddr s c a imm16 % n = 0)
    (ht : Settled (setPc (storeBytes s c (effAddr s c a imm16) n (vreg s c d).toNat) c (pcOf s c + 4)) t) :
    Stored s c (effAddr s c a imm16) n (vreg s c d) t := by
  obtain ⟨hrest, hstep, hstall⟩ := storeBytes_rest s c (effAddr s c a imm16) n (vreg s c d).toNat
  have hpc := pcOf_congr (c := c) (storeBytes_regs s c (effAddr s c a imm16) n (vreg s c d).toNat)
  exact
    { bytes := fun i hi => (ht.loadByte ..).trans (loadByte_storeBytes hi fun j hj => place_add hn ha halign hj)
      others := fun x hx => (ht.loadByte ..).trans (loadByte_storeBytes_ne hx)
      otherCores := fun c' x hc' hne hx => by
        have hcores : c' % 8 ≠ c % 8 := by rwa [Nat.mod_eq_of_lt hc', Nat.mod_eq_of_lt hr.lt]
        exact (ht.memByte ..).trans (memByte_storeBytes_other hcores hx)
      memories := fun h => ht.memories.trans (storeBytes_memories h)
      pc := by rw [ht.pcOf, ← hpc, pcOf_setPc_next (hpc ▸ hr.pc_lt)]
      regs := ht.keeps (((Keeps.refl _ s).of_regs (storeBytes_regs ..)).setPc _ _ (by simp))
      rest := ht.rest_of_ram (by rw [setPc, hrest]; rfl)
      stepping := by rw [ht.coreAt, coreAt_setPc, hstep, hr.stepping]
      stall := by rw [ht.coreAt, coreAt_setPc, hstall] }

/-- The stores: their sizes, and that each is a store of its size. -/
theorem exec_store {s : State} {c d a imm16 : Nat} {p : Nat × Instr}
    (hp : p ∈ [(1, Instr.stb c d a imm16), (2, Instr.sth c d a imm16), (4, Instr.stw c d a imm16), (8, Instr.std c d a imm16)]) :
    p.1 ∈ [1, 2, 4, 8] ∧ exec p.2 s = onCore c (tsxStore p.1 c d a imm16) s := by
  simp only [List.mem_cons, List.not_mem_nil, or_false] at hp
  rcases hp with rfl | rfl | rfl | rfl <;> exact ⟨by simp, rfl⟩

theorem answers_stored {s : State} {c d a imm16 : Nat} {p : Nat × Instr} (hr : Ready s c)
    (hroom : ∀ r, (coreAt s c).region = some r → r.storeCount < 64) (ha : place (effAddr s c a imm16) ≠ none)
    (hp : p ∈ [(1, Instr.stb c d a imm16), (2, Instr.sth c d a imm16), (4, Instr.stw c d a imm16), (8, Instr.std c d a imm16)])
    (halign : effAddr s c a imm16 % p.1 = 0) :
    Answers (exec p.2 s) (Stored s c (effAddr s c a imm16) p.1 (vreg s c d)) := by
  obtain ⟨hn, hexec⟩ := exec_store (s := s) hp
  rw [hexec]
  exact answers_store hr hroom ha halign fun t ht => stored hr hn ha halign ht

/-! ### Atomics -/

section
variable {s : State} {c d a b o : Nat}

theorem classC_outside (h : NoRegion s c) (f : State → State) : classC s c f = f s := by
  rw [classC, h]

/-- The word at place `o` of the shared memory. -/
def sharedWord (s : State) (o : Nat) : Word := BitVec.ofNat 64 (ofBytes (sharedBytes s o 8))

theorem sharedWord_getLsbD {i : Nat} (hi : i < 64) :
    (sharedWord s o).getLsbD i = (sharedByte s (o + i / 8)).getLsbD (i % 8) := by
  have hbyte : i / 8 < 8 := by omega
  rw [sharedWord, BitVec.getLsbD_ofNat, decide_eq_true hi, Bool.true_and, testBit_ofBytes]
  simp only [sharedBytes, ramBytes, List.length_map, List.length_range, hbyte, decide_true, Bool.true_and,
    List.getD_eq_getElem?_getD, List.getElem?_map, List.getElem?_range hbyte, Option.map_some, Option.getD_some]
  rfl

theorem sharedByte_sharedPuts (s : State) (o x : Nat) (bs : List Nat) : sharedByte (sharedPuts s o bs) x
    = if o ≤ x ∧ x < o + bs.length then BitVec.ofNat 8 (bs.getD (x - o) 0) else sharedByte s x :=
  ramByte_ramPuts ..

theorem Settled.sharedByte {u t : State} (ht : Settled u t) (x : Nat) : sharedByte t x = sharedByte u x := by
  simp only [Machine.sharedByte, ramByte, memBack, ht.shared, ht.memLost]

theorem sharedByte_setV (c d : Nat) (w : Word) (x : Nat) : sharedByte (setV s c d w) x = sharedByte s x := by
  unfold setV; split <;> rfl

/-- The state with a register and then a word of the shared memory written. -/
theorem setV_rest (s : State) (c d : Nat) (w : Word) : setV s c d w = { s with regs := (setV s c d w).regs } := by
  unfold setV; split <;> rfl

/-- An atomic outside a region takes the old word into rd, puts the new one and goes on. -/
theorem answers_atomic (op : Word → Word → Word) (hr : Ready s c) (hreg : NoRegion s c)
    (hplace : place (vreg s c a).toNat = some (.shared o)) (halign : (vreg s c a).toNat % 8 = 0) :
    Answers (onCore c (tsxAtomic op c d a b) s) fun t => ∃ old new : Word,
      (∀ i, i < 64 → old.getLsbD i = (sharedByte s (o + i / 8)).getLsbD (i % 8))
      ∧ new = op old (vreg s c b)
      ∧ vreg t c d = (if d % 16 = 0 then 0 else old)
      ∧ (∀ i, i < 64 → (sharedByte t (o + i / 8)).getLsbD (i % 8) = new.getLsbD i)
      ∧ (∀ x, ¬ (o ≤ x ∧ x < o + 8) → sharedByte t x = sharedByte s x)
      ∧ pcOf t c = pcOf s c + 4
      ∧ Keeps [(F.SQ_VREG_VALUE, c * 16 + d % 16), (F.SQ_PC_PC, c)] s t
      ∧ Settled { s with regs := t.regs, shared := t.shared } t := by
  let new := op (sharedWord s o) (vreg s c b)
  let u := setV (sharedPuts s o (toBytes 8 new.toNat)) c d (sharedWord s o)
  have hpc : pcOf u c = pcOf s c := pcOf_setV ..
  have hnext : advance u c = setPc u c (pcOf s c + 4) := by rw [advance_of_lt (hpc ▸ hr.pc_lt), hpc]
  have hf : tsxAtomic op c d a b s = setPc u c (pcOf s c + 4) := by
    rw [tsxAtomic, hplace]
    dsimp only
    rw [if_neg (not_not.mpr halign), classC_outside hreg]
    exact hnext
  have hbytes (x : Nat) : sharedByte (setPc u c (pcOf s c + 4)) x
      = if o ≤ x ∧ x < o + 8 then BitVec.ofNat 8 ((toBytes 8 new.toNat).getD (x - o) 0) else sharedByte s x := by
    show sharedByte u x = _
    rw [sharedByte_setV, sharedByte_sharedPuts, toBytes_length]
  refine answers_issue hr (by rw [hf, coreAt_setPc, coreAt_setV]; exact hr.stepping) fun t ht => ?_
  rw [hf] at ht
  refine ⟨sharedWord s o, new, fun i hi => sharedWord_getLsbD hi, rfl, ?_, fun i hi => ?_, fun x hx => ?_, ?_, ?_, ?_⟩
  · rw [ht.vreg, vreg_setPc, vreg_setV]
  · have hbyte : i / 8 < 8 := by omega
    rw [ht.sharedByte, hbytes, if_pos (by omega), Nat.add_sub_cancel_left, toBytes_getD _ hbyte]
    refine (leByte_vreg new (i / 8) (Nat.mod_lt i (by decide))).trans ?_
    rw [Nat.div_add_mod]
  · rw [ht.sharedByte, hbytes, if_neg hx]
  · rw [ht.pcOf, ← hpc, pcOf_setPc_next (hpc ▸ hr.pc_lt)]
  · refine ht.keeps (Keeps.setPc (Keeps.setV ?_ _ _ _ (by simp)) _ _ (by simp))
    exact (Keeps.refl _ s).of_regs rfl
  · have hu : setPc u c (pcOf s c + 4) = { s with regs := (setPc u c (pcOf s c + 4)).regs, shared := u.shared } := by
      show wr u _ _ _ = _
      rw [show u = _ from setV_rest _ c d _]
      rfl
    rw [ht.regs, ht.shared]
    exact hu ▸ ht

end

/-- Settles O13: a store changes the bytes that it names, in memory or in the buffer of the region; an atomic changes one word
of the shared memory. -/
theorem storesAndAtomicsChangeOnlyTheirBytes : Obligations.StoresAndAtomicsChangeOnlyTheirBytes := by
  intro s c d a hr
  refine ⟨fun imm16 ha hroom p hp => ?_, fun b o hreg hplace halign p hp => ?_⟩
  · intro ad halign
    refine (answers_stored hr hroom ha hp halign).imp fun t h =>
      ⟨fun i hi b hb => ?_, h.others, h.otherCores, h.memories, h.pc, h.regs, h.rest⟩
    rw [h.bytes i hi, leByte_vreg _ _ hb]
  · rcases List.mem_pair.mp hp with rfl | rfl
    · exact answers_atomic (· + ·) hr hreg hplace halign
    · exact answers_atomic (fun _ v => v) hr hreg hplace halign

/-! ### A store and then a load -/

section
variable {s t : State} {c d a imm16 n : Nat} {w : Word}

theorem Stored.ready (hr : Ready s c) (hpc : pcOf s c < 0x7FF8) {ad : Nat} (h : Stored s c ad n w t) : Ready t c := by
  have hch : Keeps [(F.SQ_PC_PC, c)] s t := h.regs
  have hspare (f : Field) (hf : F.SQ_PC_PC.fid % 1024 ≠ f.fid % 1024) (i : Nat) : rd t f i = rd s f i :=
    hch f i (by simpa using fun e => hf ((key_eq_iff ..).mp e).1)
  have hdom : domUp t = domUp s :=
    domUp_congr (hspare _ (by decide) 0) (hspare _ (by decide) 0) h.rest.aDieReset h.rest.laneStopped
  have hbusy : rd t F.GLB_RST_STATUS_BLK_BUSY = rd s F.GLB_RST_STATUS_BLK_BUSY := hspare _ (by decide) 0
  have hworks : blockWorks t 15 = blockWorks s 15 := by simp only [blockWorks, blkBusy, hdom, hbusy]
  have hstate : sqState t c = sqState s c := hspare _ (by decide) c
  have hissue : canIssue t c = canIssue s c := by simp only [canIssue, hworks, hstate, h.stall]
  exact ⟨hr.lt, hissue.trans hr.canIssue, h.stepping, by rw [h.pc]; omega⟩

theorem Stored.effAddr {ad : Nat} (h : Stored s c ad n w t) (a imm16 : Nat) : effAddr t c a imm16 = effAddr s c a imm16 := by
  have hv : vreg t c a = vreg s c a := by
    unfold vreg
    rw [h.regs F.SQ_VREG_VALUE _ (by simpa using fun e => absurd ((key_eq_iff ..).mp e).1 (by decide))]
  rw [Machine.effAddr, hv, Machine.effAddr]

/-- The bytes that a store has written spell the low bits of its register. -/
theorem Stored.loadValue {ad : Nat} (h : Stored s c ad n w t) : loadValue t c ad n = w.setWidth (8 * n) := by
  refine BitVec.eq_of_getLsbD_eq fun i hi => ?_
  rw [loadValue_getLsbD hi, h.bytes _ (by omega), leByte_vreg _ _ (Nat.mod_lt i (by decide)), Nat.div_add_mod,
    BitVec.getLsbD_setWidth, decide_eq_true hi, Bool.true_and]

end

/-- A store and a load of `n` bytes at one address. -/
theorem answers_storeLoad {s : State} {c d d' a imm16 n : Nat} {st : Instr} (signed : Bool) (hr : Ready s c)
    (hpc : pcOf s c < 0x7FF8) (hd : d' % 16 ≠ 0) (hroom : ∀ r, (coreAt s c).region = some r → r.storeCount < 64)
    (ha : place (effAddr s c a imm16) ≠ none) (halign : effAddr s c a imm16 % n = 0)
    (hst : (n, st) ∈ [(1, Instr.stb c d a imm16), (2, .sth c d a imm16), (4, .stw c d a imm16), (8, .std c d a imm16)]) :
    Answers (exec st s) fun t => Answers (onCore c (tsxLoad n signed c d' a imm16) t) fun u =>
      vreg u c d' = (if signed then ((vreg s c d).setWidth (8 * n)).signExtend 64 else ((vreg s c d).setWidth (8 * n)).setWidth 64)
      ∧ pcOf u c = pcOf s c + 8 := by
  have hn : 8 * n ≤ 64 := by
    have := (exec_store (s := s) hst).1
    simp only [List.mem_cons, List.not_mem_nil, or_false] at this
    omega
  refine (answers_stored hr hroom ha hst halign).imp fun t h => ?_
  have haddr := h.effAddr a imm16
  refine (answers_load signed (h.ready hr hpc) hn (haddr ▸ ha) (haddr ▸ halign)).imp fun u ⟨hv, hupc, _⟩ => ⟨?_, ?_⟩
  · rw [hv, if_neg hd, haddr, h.loadValue]
  · rw [hupc, h.pc]

/-- Settles O52: the load reads the bytes that the store has just written, from the store buffer or from memory. -/
theorem storedValuesLoadBack : Obligations.StoredValuesLoadBack := by
  intro s c d d' a imm16 hr hpc hd hroom ha p hp halign
  simp only [List.mem_cons, List.not_mem_nil, or_false] at hp
  rcases hp with rfl | rfl | rfl | rfl | rfl | rfl | rfl
  · exact answers_storeLoad false hr hpc hd hroom ha halign (by simp)
  · exact answers_storeLoad false hr hpc hd hroom ha halign (by simp)
  · exact answers_storeLoad false hr hpc hd hroom ha halign (by simp)
  · exact answers_storeLoad false hr hpc hd hroom ha halign (by simp)
  · exact answers_storeLoad true hr hpc hd hroom ha halign (by simp)
  · exact answers_storeLoad true hr hpc hd hroom ha halign (by simp)
  · exact answers_storeLoad true hr hpc hd hroom ha halign (by simp)

end Sys2Proof.Machine
end

section
/-! Device accesses, dsync, tbr and the actions of a core (R115 to R117, R128 to R150): what is posted and what is awaited. -/
open Sys2Proof
namespace Sys2Proof.Machine

section
variable {s : State} {c d : Nat}

/-- Core `c` is `k` in `t` and nothing else of `s` has changed. -/
structure CoreIs (s : State) (c : Nat) (k : SqCore) (t : State) : Prop where
  core : coreAt t c = k
  others : ∀ c', c' ≠ c → coreAt t c' = coreAt s c'
  rest : Settled { s with cores := t.cores } t

theorem coreIs_of_settled {k : SqCore} {t : State} (ht : Settled (setCore s c k) t) : CoreIs s c k t where
  core := by rw [ht.coreAt, coreAt_setCore_same]
  others c' h := by rw [ht.coreAt, coreAt_setCore_ne _ _ h]
  rest := by rw [ht.cores]; exact ht

/-- A core that issues an instruction which only holds it for an answer. -/
theorem answers_awaits {f : State → State} {q : Req} (hr : Ready s c) (hf : f s = hold s c (.answer q d)) :
    Answers (onCore c f s) (CoreIs s c { coreAt s c with stall := .answer q d }) := by
  have hhold : f s = setCore s c { coreAt s c with stall := .answer q d } := hf
  refine answers_issue hr ?_ fun t ht => coreIs_of_settled (hhold ▸ ht)
  rw [hhold, coreAt_setCore_same]
  exact hr.stepping

/-- Core `c` has posted the request `q` and gone on; nothing else of `s` has changed. -/
structure Posted (s : State) (c : Nat) (q : Req) (t : State) : Prop where
  core : coreAt t c = { coreAt s c with storeQ := (coreAt s c).storeQ ++ [q] }
  pc : pcOf t c = pcOf s c + 4
  others : ∀ c', c' ≠ c → coreAt t c' = coreAt s c'
  regs : Keeps [(F.SQ_PC_PC, c)] s t
  rest : Settled { s with regs := t.regs, cores := t.cores } t

theorem pcOf_setCore (s : State) (c c' : Nat) (k : SqCore) : pcOf (setCore s c k) c' = pcOf s c' := rfl

/-- A core that posts a request into a store queue with room. -/
theorem answers_posts {f : State → State} {q : Req} (hr : Ready s c) (hroom : (coreAt s c).storeQ.length < 16)
    (hf : f s = post s c q) : Answers (onCore c f s) (Posted s c q) := by
  let u := setCore s c { coreAt s c with storeQ := (coreAt s c).storeQ ++ [q] }
  have hpost : f s = setPc u c (pcOf s c + 4) := by
    rw [hf, post, if_pos hroom]
    exact advance_of_lt (u := u) hr.pc_lt
  refine answers_issue hr ?_ fun t ht => ?_
  · rw [hpost, coreAt_setPc, coreAt_setCore_same]
    exact hr.stepping
  · rw [hpost] at ht
    exact
      { core := by rw [ht.coreAt, coreAt_setPc, coreAt_setCore_same]
        pc := by rw [ht.pcOf]; exact pcOf_setPc_next (u := u) hr.pc_lt
        others := fun c' h => by rw [ht.coreAt, coreAt_setPc, coreAt_setCore_ne _ _ h]
        regs := ht.keeps (((Keeps.refl _ s).of_regs rfl).setPc _ _ (by simp))
        rest := by rw [ht.regs, ht.cores]; exact ht }

theorem act_posts {q : Req} (hd : d % 16 = 0) : act s c d true q = post s c q := by
  rw [act, hd]; rfl

theorem act_awaits {q : Req} {mayPost : Bool} (h : mayPost = false ∨ d % 16 ≠ 0) : act s c d mayPost q = hold s c (.answer q d) := by
  refine if_neg ?_
  rw [Bool.and_eq_true, beq_iff_eq]
  rintro ⟨hpost, hd⟩
  rcases h with h | h
  · rw [h] at hpost
    exact Bool.false_ne_true hpost
  · exact h hd

/-- An action of a core that can issue, outside a region: it posts where it may, and awaits the answer else. -/
theorem answers_postedAct {f : State → State} {q : Req} (hr : Ready s c) (hf : f s = act s c d true q) :
    (d % 16 = 0 → (coreAt s c).storeQ.length < 16 → Answers (onCore c f s) (Posted s c q))
    ∧ (d % 16 ≠ 0 → Answers (onCore c f s) (CoreIs s c { coreAt s c with stall := .answer q d })) :=
  ⟨fun hd hroom => answers_posts hr hroom (hf.trans (act_posts hd)),
    fun hd => answers_awaits hr (hf.trans (act_awaits (.inr hd)))⟩

theorem answers_awaitedAct {f : State → State} {q : Req} (hr : Ready s c) (hf : f s = act s c d false q) :
    Answers (onCore c f s) (CoreIs s c { coreAt s c with stall := .answer q d }) :=
  answers_awaits hr (hf.trans (act_awaits (.inl rfl)))

/-! ### Device accesses -/

theorem withDev_of {a n : Nat} (ha : a < 0x04000000) (halign : a % n = 0) (f : State → State) : withDev s c a n f = f s := by
  rw [withDev, if_neg (Nat.not_le.mpr ha), if_neg (not_not.mpr halign)]

theorem tsxRdev_eq {n a imm16 : Nat} (hreg : NoRegion s c) (ha : effAddr s c a imm16 < 0x04000000)
    (halign : effAddr s c a imm16 % n = 0) : tsxRdev n c d a imm16 s = hold s c (.answer (.load (effAddr s c a imm16) n) d) := by
  rw [tsxRdev, withDev_of ha halign, classC_outside hreg, ite_self]

theorem tsxWdev_eq {n a imm16 : Nat} (hreg : NoRegion s c) (ha : effAddr s c a imm16 < 0x04000000)
    (halign : effAddr s c a imm16 % n = 0) :
    tsxWdev n c d a imm16 s = post s c (.store (effAddr s c a imm16) n ((vreg s c d).toNat % 2 ^ (8 * n))) := by
  rw [tsxWdev, withDev_of ha halign, classC_outside hreg]

end

/-- Settles O14: outside a region each instruction posts a request, holds the core for an answer, or goes on. -/
theorem deviceAccessesPostOrWait : Obligations.DeviceAccessesPostOrWait := by
  intro s c d a imm16 hr hreg
  refine ⟨fun ha => ⟨fun p hp halign => ?_, fun p hp halign hroom => ?_⟩, fun hempty => ?_, fun hqueued => ?_,
    answers_writeReg hr rfl⟩
  · have hrdev : Answers (exec p.2 s)
        (CoreIs s c { coreAt s c with stall := .answer (.load (effAddr s c a imm16) p.1) d }) := by
      rcases List.mem_pair.mp hp with rfl | rfl
      · exact answers_awaits hr (tsxRdev_eq hreg ha halign)
      · exact answers_awaits hr (tsxRdev_eq hreg ha halign)
    exact hrdev.imp fun t h => ⟨by rw [h.core], by rw [h.core], h.others, h.rest⟩
  · have hwdev : Answers (exec p.2 s)
        (Posted s c (.store (effAddr s c a imm16) p.1 ((vreg s c d).toNat % 2 ^ (8 * p.1)))) := by
      rcases List.mem_pair.mp hp with rfl | rfl
      · exact answers_posts hr hroom (tsxWdev_eq hreg ha halign)
      · exact answers_posts hr hroom (tsxWdev_eq hreg ha halign)
    exact hwdev.imp fun t h => ⟨h.core, h.pc, h.others, h.regs, h.rest⟩
  · refine answers_advance hr ?_
    rw [tsxDsync, classC_outside hreg, hempty]
    rfl
  · let u := setCore s c { coreAt s c with stall := .dsync }
    have hf : tsxDsync c s = setSqState u c sqWAITING := by
      have hne : (coreAt s c).storeQ.isEmpty = false := List.isEmpty_eq_false_iff.mpr hqueued
      rw [tsxDsync, classC_outside hreg, hne]
      rfl
    have hcore : coreAt (tsxDsync c s) c = { coreAt s c with stall := .dsync } := by
      rw [hf]; exact coreAt_setCore_same s c { coreAt s c with stall := .dsync }
    refine answers_issue hr (by rw [hcore]; exact hr.stepping) fun t ht => ⟨?_, ?_, ?_⟩
    · rw [ht.coreAt, hcore]
    · rw [ht.sqState, hf, sqState, setSqState, rd_wr_same]
      rfl
    · rw [hf] at ht
      exact ht.keeps (((Keeps.refl _ s).of_regs rfl).wr _ _ _ (by simp))

/-- The channel that fire names. -/
theorem fire_channel (x : Word) {imm6 : Nat} (h : imm6 < 64) : (x + zext 6 imm6).toNat = (x.toNat + imm6) % 2 ^ 64 := by
  rw [BitVec.toNat_add, zext, BitVec.toNat_setWidth, BitVec.toNat_ofNat, Nat.mod_eq_of_lt (show imm6 < 2 ^ 6 from h)]
  omega

/-- Settles O16: outside a region the actions of class C and the limited ones make their request, which is posted or awaited. -/
theorem actionsSpellTheirRequests : Obligations.ActionsSpellTheirRequests := by
  intro s c d a b e hr hreg posted awaited holds
  have hc (f : State → State) : classC s c f = f s := classC_outside hreg f
  have hlimited (w : Region → Bool) (f : State → State) : classLimited s c w f = f s :=
    classLimited_within (fun r h => absurd h (by rw [hreg]; simp)) f
  have hholds {q : Req} {t : State} (h : CoreIs s c { coreAt s c with stall := .answer q d } t) : holds t q :=
    ⟨h.core, h.others, h.rest⟩
  refine ⟨fun p hp => ?_, fun p hp => ?_, fun early halign hlo hhi => ?_⟩
  · have hacts : (d % 16 = 0 → (coreAt s c).storeQ.length < 16 → Answers (exec p.1 s) (Posted s c p.2))
        ∧ (d % 16 ≠ 0 → Answers (exec p.1 s) (CoreIs s c { coreAt s c with stall := .answer p.2 d })) := by
      simp only [posted, List.mem_append, List.mem_cons, List.not_mem_nil, or_false, List.mem_map, List.mem_range] at hp
      rcases hp with (rfl | rfl | rfl | rfl | rfl) | ⟨imm6, himm, rfl⟩
      · exact answers_postedAct hr (hc _)
      · exact answers_postedAct hr (hc _)
      · exact answers_postedAct hr (hc _)
      · exact answers_postedAct hr (hc _)
      · refine answers_postedAct hr ?_
        rw [tsxFramearm, hlimited]
        simp only [show (coreAt s c).region = none from hreg]
        rfl
      · exact fire_channel (vreg s c a) himm ▸ answers_postedAct hr (hc _)
    exact ⟨fun hd hroom => (hacts.1 hd hroom).imp fun t h => ⟨h.core, h.pc, h.others, h.regs, h.rest⟩,
      fun hd => (hacts.2 hd).imp fun t => hholds⟩
  · have hawaits : Answers (exec p.1 s) (CoreIs s c { coreAt s c with stall := .answer p.2 d }) := by
      simp only [awaited, List.mem_cons, List.not_mem_nil, or_false] at hp
      rcases hp with rfl | rfl | rfl | rfl
      · exact answers_awaitedAct hr (hc _)
      · exact answers_awaitedAct hr (hc _)
      · exact answers_awaitedAct hr (hc _)
      · exact answers_awaitedAct hr (hlimited _ _)
    exact hawaits.imp fun t => hholds
  · have hsome {x : Nat} (h : place x ≠ none) : (place x).isNone = false := by
      cases hx : place x with
      | none => exact absurd hx h
      | some _ => rfl
    refine (answers_awaitedAct (f := tsxDmaq c d a early) hr ?_).imp fun t => hholds
    rw [tsxDmaq]
    dsimp only
    rw [hsome hlo, hsome hhi, Bool.or_self, if_neg Bool.false_ne_true, if_neg (not_not.mpr halign), hlimited, hc, ite_self]

end Sys2Proof.Machine
end

section
/-! The refusal of an open master by a mailbox with ATTR = T, and its record (R42, R471). -/
open Sys2Proof
namespace Sys2Proof.Machine

section
variable {s u : State}

theorem RegsOnly.changes {ks : List (Field × Nat)} {t : State} (hu : RegsOnly s u) (ht : Settled u t) (hk : Keeps ks s u) :
    Changes ks s t := ht.changes hk hu

theorem RegsOnly.settled {t : State} (hu : RegsOnly s u) (ht : Settled u t) : Settled { s with regs := t.regs } t := by
  obtain ⟨r, rfl⟩ : ∃ r, u = { s with regs := r } := ⟨_, hu⟩
  have hr : t.regs = r := ht.regs
  unfold Settled at *
  rw [hr]
  exact ht

theorem RegsOnly.bump (h : RegsOnly s u) (f : Field) (i : Nat) : RegsOnly s (bump u f i) := h.wr f i _
theorem RegsOnly.setBit (h : RegsOnly s u) (f : Field) (i b : Nat) : RegsOnly s (setBit u f i b) := h.wr f i _
theorem RegsOnly.wrBool (h : RegsOnly s u) (f : Field) (i : Nat) (b : Bool) : RegsOnly s (wrBool u f i b) := h.wr f i _

theorem secRefuse_of_valid {mid what : Nat} {idx : Bool} (h : rd s F.GLB_SEC_ERR_VALID ≠ 0) :
    secRefuse s mid what idx = bump s F.GLB_SEC_ERR_COUNT :=
  if_pos (by simpa (disch := decide) [isSet, bump_eq, rd_wr_field] using h)

/-- The record of the first refused access of an open master. -/
def secRecord (s : State) (mid what : Nat) (isIndex : Bool) : State :=
  setBit (wr (wrBool (wr (wr s F.GLB_SEC_ERR_MID 0 mid) F.GLB_SEC_ADDR_OFFSET 0 what) F.GLB_SEC_ADDR_IS_INDEX 0 isIndex)
    F.GLB_SEC_ERR_VALID 0 1) F.GLB_EVT_EVT 0 5

theorem secRefuse_of_not_valid {mid what : Nat} {idx : Bool} (h : rd s F.GLB_SEC_ERR_VALID = 0) :
    secRefuse s mid what idx = secRecord (bump s F.GLB_SEC_ERR_COUNT) mid what idx :=
  if_neg (by simpa (disch := decide) [isSet, bump_eq, rd_wr_field] using h)

theorem RegsOnly.secRefuse (h : RegsOnly s u) (mid what : Nat) (idx : Bool) : RegsOnly s (secRefuse u mid what idx) := by
  by_cases hv : rd u F.GLB_SEC_ERR_VALID = 0
  · rw [secRefuse_of_not_valid hv]
    exact (((((h.bump _ _).wr _ _ _).wr _ _ _).wrBool _ _ _).wr _ _ _).setBit _ _ _
  · rw [secRefuse_of_valid hv]
    exact h.bump _ _

/-- What a refused access of an open master to a T resource may touch. -/
def secFields : List Field :=
  [F.GLB_SEC_ERR_COUNT, F.GLB_SEC_ERR_MID, F.GLB_SEC_ADDR_OFFSET, F.GLB_SEC_ADDR_IS_INDEX, F.GLB_SEC_ERR_VALID, F.GLB_EVT_EVT]

theorem secRefuse_touches (s : State) (mid what : Nat) (idx : Bool) : Touches secFields s (secRefuse s mid what idx) := by
  have hcount : Touches secFields s (bump s F.GLB_SEC_ERR_COUNT) :=
    Touches.refl.wr _ _ _ (by simp [secFields])
  by_cases hv : rd s F.GLB_SEC_ERR_VALID = 0
  · rw [secRefuse_of_not_valid hv]
    exact ((((hcount.wr _ _ _ (by simp [secFields])).wr _ _ _ (by simp [secFields])).wr _ _ _ (by simp [secFields])).wr
      _ _ _ (by simp [secFields])).wr _ _ _ (by simp [secFields])
  · rw [secRefuse_of_valid hv]
    exact hcount

theorem rd_secRefuse_count (s : State) (mid what : Nat) (idx : Bool) :
    rd (secRefuse s mid what idx) F.GLB_SEC_ERR_COUNT = min (rd s F.GLB_SEC_ERR_COUNT + 1) (2 ^ F.GLB_SEC_ERR_COUNT.width - 1) := by
  by_cases hv : rd s F.GLB_SEC_ERR_VALID = 0
  · rw [secRefuse_of_not_valid hv]
    simp (disch := decide) only [secRecord, setBit_eq, wrBool_eq, rd_wr_field, rd_bump]
  · rw [secRefuse_of_valid hv, rd_bump]

theorem secRefuse_records {mid what : Nat} (h : rd s F.GLB_SEC_ERR_VALID = 0) :
    let t := secRefuse s mid what true
    rd t F.GLB_SEC_ERR_VALID = 1 ∧ rd t F.GLB_SEC_ERR_MID = mid % 2 ^ F.GLB_SEC_ERR_MID.width
    ∧ rd t F.GLB_SEC_ADDR_OFFSET = what % 2 ^ F.GLB_SEC_ADDR_OFFSET.width ∧ rd t F.GLB_SEC_ADDR_IS_INDEX = 1 := by
  rw [secRefuse_of_not_valid h]
  simp (disch := decide) [secRecord, setBit_eq, wrBool_eq, rd_wr_field, rd_wr_same]

theorem isOpen_of_mem {mid : Nat} (h : mid ∈ [2, 3, 4, 5, 6, 7, 8, 0x18]) : isOpen mid = true := by
  revert h; revert mid; decide

theorem isSender_of_open {mid m : Nat} (ho : isOpen mid = true) (ha : rd s F.MBX_BIND_ATTR m = 0) : isSender s mid m = false := by
  simp [isSender, admits, ha, ho]

theorem mbxSend_of_not_sender {mid m word : Nat} (h : isSender s mid m = false) :
    mbxSend s mid m word = (.refused, mbxRefuse s mid m) := by
  simp [mbxSend, h]

theorem mbxWithdraw_of_not_sender {mid m : Nat} (h : isSender s mid m = false) :
    mbxWithdraw s mid m = (.refused, mbxRefuse s mid m) := by
  simp [mbxWithdraw, h]

/-- The count and the event of a refused access to a mailbox. -/
def mbxCountRefused (s : State) : State := setBit (bump s F.MBX_REFUSED_COUNT) F.MBX_EVT_EVT 0 2

theorem mbxRefuse_open {mid m : Nat} (ho : isOpen mid = true) (ha : rd s F.MBX_BIND_ATTR m = 0) :
    mbxRefuse s mid m = secRefuse (mbxCountRefused s) mid m true :=
  if_pos (by simp (disch := decide) [ho, ha, setBit_eq, bump_eq, rd_wr_field])

theorem rd_mbxCountRefused {f : Field} (i : Nat) (hc : F.MBX_REFUSED_COUNT.fid % 1024 ≠ f.fid % 1024)
    (he : F.MBX_EVT_EVT.fid % 1024 ≠ f.fid % 1024) : rd (mbxCountRefused s) f i = rd s f i := by
  rw [mbxCountRefused, setBit_eq, rd_wr_field _ _ _ _ _ _ he, bump_eq, rd_wr_field _ _ _ _ _ _ hc]

theorem mbxRefuse_open_keeps {mid m : Nat} (ho : isOpen mid = true) (ha : rd s F.MBX_BIND_ATTR m = 0) {f : Field} (i : Nat)
    (hf : ∀ g ∈ F.MBX_REFUSED_COUNT :: F.MBX_EVT_EVT :: secFields, g.fid % 1024 ≠ f.fid % 1024) :
    rd (mbxRefuse s mid m) f i = rd s f i := by
  rw [mbxRefuse_open ho ha, secRefuse_touches _ _ _ _ f i fun g hg => hf g (by simp [hg]),
    rd_mbxCountRefused i (hf _ (by simp)) (hf _ (by simp))]

/-- A refused access of an open master to a T mailbox. -/
theorem answers_mbxRefused {i : Instr} {m mid : Nat} (ho : isOpen mid = true) (ha : rd s F.MBX_BIND_ATTR m = 0)
    (hmid : mid < 32) (hm : m < 64) (hb : blockReach s 3 = true)
    {r : State → State} (hi : exec i s = onUnit m 64 s fun s => inReach 3 s r) (hrs : r s = mbxRefuse s mid m) :
    Answers (exec i s) fun t =>
      rd t F.GLB_SEC_ERR_COUNT = min (rd s F.GLB_SEC_ERR_COUNT + 1) (2 ^ F.GLB_SEC_ERR_COUNT.width - 1)
      ∧ (rd s F.GLB_SEC_ERR_VALID = 0 → rd t F.GLB_SEC_ERR_VALID = 1 ∧ rd t F.GLB_SEC_ERR_MID = mid
        ∧ rd t F.GLB_SEC_ADDR_OFFSET = m ∧ rd t F.GLB_SEC_ADDR_IS_INDEX = 1)
      ∧ (rd s F.GLB_SEC_ERR_VALID = 1 → Keeps [(F.GLB_SEC_ERR_COUNT, 0), (F.MBX_REFUSED_COUNT, 0), (F.MBX_EVT_EVT, 0)] s t)
      ∧ mbxAt t m = mbxAt s m ∧ isSet t F.MBX_STAT_FULL m = isSet s F.MBX_STAT_FULL m
      ∧ rd t F.MBX_BIND_SENDER m = rd s F.MBX_BIND_SENDER m ∧ rd t F.MBX_BIND_RECEIVER m = rd s F.MBX_BIND_RECEIVER m
      ∧ Settled { s with regs := t.regs } t := by
  rw [hi]
  refine answers_unitReach hm hb fun t ht => ?_
  rw [hrs] at ht
  have hkeep := fun f hf => (ht.rd f m).trans (mbxRefuse_open_keeps (mid := mid) ho ha (f := f) m hf)
  have hregs : RegsOnly s (mbxRefuse s mid m) := by
    rw [mbxRefuse_open ho ha]
    exact (((RegsOnly.refl s).bump _ _).setBit _ _ _).secRefuse _ _ _
  have hvalid : rd (mbxCountRefused s) F.GLB_SEC_ERR_VALID = rd s F.GLB_SEC_ERR_VALID :=
    rd_mbxCountRefused 0 (by decide) (by decide)
  refine ⟨?_, fun hv => ?_, fun hv => ?_, ?_, ?_, hkeep _ (by decide), hkeep _ (by decide), hregs.settled ht⟩
  · rw [ht.rd, mbxRefuse_open ho ha, rd_secRefuse_count, rd_mbxCountRefused 0 (by decide) (by decide)]
  · obtain ⟨hvld, hmd, hoff, hidx⟩ := secRefuse_records (mid := mid) (what := m) (hvalid.trans hv)
    rw [← mbxRefuse_open ho ha] at hvld hmd hoff hidx
    refine ⟨(ht.rd _ _).trans hvld, (ht.rd _ _).trans (hmd.trans ?_), (ht.rd _ _).trans (hoff.trans ?_), (ht.rd _ _).trans hidx⟩
    · exact Nat.mod_eq_of_lt hmid
    · exact Nat.mod_eq_of_lt (lt_trans hm (by decide))
  · refine ht.keeps ?_
    rw [mbxRefuse_open ho ha, secRefuse_of_valid (by rw [hvalid, hv]; decide)]
    exact (((Keeps.refl _ s).wr _ _ _ (by simp)).wr _ _ _ (by simp)).wr _ _ _ (by simp)
  · have hmbx := ht.mbx
    rw [hregs] at hmbx
    unfold mbxAt; rw [hmbx]
  · unfold isSet; rw [hkeep _ (by decide)]

end

/-- Settles O53: an open master is never the sender of a T mailbox, so both accesses end in the refusal. -/
theorem openMastersAreRefusedAndRecorded : Obligations.OpenMastersAreRefusedAndRecorded := by
  intro s m mid word hm hb hmid ha
  have ho := isOpen_of_mem hmid
  have hlt : mid < 32 := (by decide : ∀ x ∈ [2, 3, 4, 5, 6, 7, 8, 0x18], x < 32) mid hmid
  have hsend := isSender_of_open (m := m) ho ha
  refine ⟨by rw [mbxSend_of_not_sender hsend], ?_⟩
  simp only [List.mem_cons, List.not_mem_nil, or_false, forall_eq_or_imp, forall_eq]
  refine ⟨answers_mbxRefused ho ha hlt hm hb (r := fun s => mbxAccess s m false fun s => (mbxSend s mid m word).2) rfl
      (congrArg Prod.snd (mbxSend_of_not_sender hsend)),
    answers_mbxRefused ho ha hlt hm hb (r := fun s => mbxAccess s m false fun s => (mbxWithdraw s mid m).2) rfl
      (congrArg Prod.snd (mbxWithdraw_of_not_sender hsend))⟩

end Sys2Proof.Machine
end

section
/-! The device when VKEEP first comes up (R561, R562). -/
open Sys2Proof
namespace Sys2Proof.Machine

theorem sget_of_not_mem {α : Type} {m : List (Nat × α)} (d : α) {k : Nat} (h : ∀ p ∈ m, p.1 ≠ k) : sget m d k = d := by
  induction m with
  | nil => rfl
  | cons p r ih =>
    rw [sget, if_neg (h p (by simp))]
    exact ih fun q hq => h q (by simp [hq])

/-- The register file at power-on lists the keys of the dark outputs alone. -/
theorem resetRegs_keys : ∀ p ∈ resetRegs, ∃ n < 16,
    p.1 = F.FIO_CH_STAT_DARK.key (12 + n) ∨ p.1 = F.FIO_CH_STAT_DARK_CAUSE.key (12 + n) := by
  decide

theorem rd_reset {f : Field} {i : Nat}
    (h : ∀ n, n < 16 → F.FIO_CH_STAT_DARK.key (12 + n) ≠ f.key i ∧ F.FIO_CH_STAT_DARK_CAUSE.key (12 + n) ≠ f.key i) :
    rd State.reset f i = f.reset % 2 ^ f.width := by
  have hget : sget State.reset.regs f.reset (f.key i) = f.reset := by
    refine sget_of_not_mem _ fun p hp hk => ?_
    obtain ⟨n, hn, hdark | hcause⟩ := resetRegs_keys p hp
    · exact (h n hn).1 (hdark ▸ hk)
    · exact (h n hn).2 (hcause ▸ hk)
  rw [rd, hget]

theorem framesMarked_of_no_frame {s : State} (h : s.frames = []) : FramesMarked s := by
  intro f hf
  rw [h] at hf
  cases hf

/-- Settles O51: the reset state is one closed value, and its register file lists the dark outputs alone. -/
theorem resetIsPowerOn : Obligations.ResetIsPowerOn :=
  ⟨rfl, rfl, rfl, rfl, rfl, by decide, fun _ _ => rd_reset, by decide, by decide, rfl, rfl, framesMarked_of_no_frame rfl⟩

end Sys2Proof.Machine
end

section
/-! Accesses of the PF and of the cores to BAR 0 registers, by the type of the field (R14 to R17, R44, R622). -/
open Sys2Proof
namespace Sys2Proof.Machine

section
variable {s u t : State} {mid a v : Nat}

/-! ### The access reaches the register -/

/-- The fields that say whether an access of BAR 0 reaches its block. -/
def reachFields : List Field := F.GLB_STATUS_D2D_UP :: worksFields

/-- Accesses reach their blocks alike where power good, the resets and the die-to-die link read alike. -/
theorem busReach_congr (h : ∀ f ∈ reachFields, rd t f 0 = rd s f 0) (hreset : t.aDieReset = s.aDieReset) :
    busReach t = busReach s := by
  have hgood := h F.KP_GOOD_DOMAINS (by decide)
  have hwarm := h F.GLB_RST_STATUS_WARM_BUSY (by decide)
  have hbusy := h F.GLB_RST_STATUS_BLK_BUSY (by decide)
  have hup := h F.GLB_STATUS_D2D_UP (by decide)
  have hreach : domReach t = domReach s := by
    funext d
    simp only [domReach, domGood, resetRunning, isSet, hgood, hwarm, hreset]
  funext a
  simp only [busReach, resetRunning, blkBusy, isSet, hreach, hwarm, hbusy, hup, hreset]

/-- The PF or a core: a master that reaches all of BAR 0. -/
theorem busMaster_of (h : mid = 0x01 ∨ (0x10 ≤ mid ∧ mid ≤ 0x17)) : fnOf mid = 0 ∧ reachesBar mid = true := by
  rcases h with rfl | ⟨hlo, hhi⟩
  · exact ⟨rfl, rfl⟩
  · interval_cases mid <;> exact ⟨rfl, rfl⟩

/-- A 32-bit write of the PF or of a core to a register that it reaches. -/
theorem busWrite_register (hm : mid = 0x01 ∨ (0x10 ≤ mid ∧ mid ≤ 0x17)) (halign : goodAccess a 4 = true)
    (hplace : barPlace s a = .regs) (hreach : busReach s a = true) : busWrite s mid a 4 v = write32 s mid a v := by
  obtain ⟨hfn, hbar⟩ := busMaster_of hm
  have hwrite : barWrite s mid a 4 v = write32 s mid a v := by rw [barWrite, hplace]; rfl
  simp [busWrite, hfn, halign, hbar, hreach, hwrite]

theorem write32_low {h : Hit} (hat : regAt a = some h) (hlow : h.high = false) :
    write32 s mid a v = regWrite s h.reg ⟨mid, h.inst, 2 ^ 32 - 1, v % 2 ^ 32⟩ := by
  simp [write32, hat, hlow]

/-! ### GLB_SCRATCH: a field of type RW -/

theorem regAt_scratch : regAt 0x10 = some ⟨R.GLB_SCRATCH, 0, false⟩ := by decide

theorem bitwise_andNot_ones (n x : Nat) (hx : x < 2 ^ n) : Nat.bitwise (fun a b => a && !b) x (2 ^ n - 1) = 0 := by
  refine Nat.eq_of_testBit_eq fun i => ?_
  rw [Nat.testBit_bitwise (by rfl), Nat.testBit_two_pow_sub_one, Nat.zero_testBit]
  by_cases hi : i < n
  · simp [hi]
  · rw [Nat.testBit_lt_two_pow (lt_of_lt_of_le hx (Nat.pow_le_pow_right (by decide) (not_lt.mp hi)))]
    rfl

/-- A write of all bits of a field that fills a 32-bit register gives the field the value. -/
theorem into_word {f : Field} {i : Nat} (hlo : f.lo = 0) (hw : f.width = 32) :
    Wr.into ⟨mid, i, 2 ^ 32 - 1, v % 2 ^ 32⟩ s f = v % 2 ^ 32 := by
  have hmask : bitsOf (2 ^ 32 - 1) f.lo f.width = 2 ^ 32 - 1 := by rw [hlo, hw]; decide
  have hbits : f.bits (v % 2 ^ 32) = v % 2 ^ 32 := by
    rw [Field.bits, bitsOf, hlo, hw]; omega
  have hold : rd s f i < 2 ^ 32 := hw ▸ rd_lt s f i
  have hand : v % 2 ^ 32 &&& (2 ^ 32 - 1) = v % 2 ^ 32 := by rw [Nat.and_two_pow_sub_one_eq_mod, Nat.mod_mod]
  show Nat.bitwise _ (rd s f i) (bitsOf (2 ^ 32 - 1) f.lo f.width) ||| (f.bits (v % 2 ^ 32) &&& bitsOf (2 ^ 32 - 1) f.lo f.width) = _
  rw [hmask, hbits, bitwise_andNot_ones 32 _ hold, hand, Nat.zero_or]

/-- GLB_SCRATCH holds `v` in `u`, and nothing else of `s` has changed. -/
structure Scratch (v : Nat) (s u : State) : Prop where
  value : rd u F.GLB_SCRATCH_VALUE = v % 2 ^ 32
  keeps : Keeps [(F.GLB_SCRATCH_VALUE, 0)] s u
  regsOnly : RegsOnly s u

theorem Scratch.settled (h : Scratch v s u) (ht : Settled u t) :
    rd t F.GLB_SCRATCH_VALUE = v % 2 ^ 32 ∧ Changes [(F.GLB_SCRATCH_VALUE, 0)] s t :=
  ⟨(ht.rd _ _).trans h.value, h.regsOnly.changes ht h.keeps⟩

theorem Scratch.after {v' : Nat} {r : State} (h : Scratch v s u) (h' : Scratch v' u r) : Scratch v' s r where
  value := h'.value
  keeps f i hf := (h'.keeps f i hf).trans (h.keeps f i hf)
  regsOnly := by
    have hu := h.regsOnly
    have hr := h'.regsOnly
    unfold RegsOnly at *
    rw [hr, hu]

theorem putField_scratch (hn : v < 2 ^ 32) {w : Wr} (hi : w.into s F.GLB_SCRATCH_VALUE = v) :
    putField w (false, s) F.GLB_SCRATCH_VALUE
      = (false, if v = rd s F.GLB_SCRATCH_VALUE w.inst then s else wr s F.GLB_SCRATCH_VALUE w.inst v) := by
  have hrw : putField w (false, s) F.GLB_SCRATCH_VALUE =
      if w.into s F.GLB_SCRATCH_VALUE = rd s F.GLB_SCRATCH_VALUE w.inst ∨ false = true then (false, s)
      else if decide (w.into s F.GLB_SCRATCH_VALUE < 0) || decide (4294967295 < w.into s F.GLB_SCRATCH_VALUE) || false then (true, s)
      else (false, wr s F.GLB_SCRATCH_VALUE w.inst (w.into s F.GLB_SCRATCH_VALUE)) := rfl
  have hrange : ¬ 4294967295 < v := by omega
  rw [hrw, hi]
  by_cases hsame : v = rd s F.GLB_SCRATCH_VALUE w.inst
  · simp [← hsame]
  · simp [hsame, hrange]

theorem regWrite_scratch (s : State) (w : Wr) (hok : (putField w (false, s) F.GLB_SCRATCH_VALUE).1 = false) :
    regWrite s R.GLB_SCRATCH w = (putField w (false, s) F.GLB_SCRATCH_VALUE).2 := by
  have hput : regWrite s R.GLB_SCRATCH w = if (putField w (false, s) F.GLB_SCRATCH_VALUE).1
      then cfgErr (putField w (false, s) F.GLB_SCRATCH_VALUE).2 R.GLB_SCRATCH w.inst
      else (putField w (false, s) F.GLB_SCRATCH_VALUE).2 := rfl
  rw [hput, hok]
  rfl

theorem busWrite_scratch (hm : mid = 0x01 ∨ (0x10 ≤ mid ∧ mid ≤ 0x17)) (hreach : busReach s 0x10 = true) :
    Scratch v s (busWrite s mid 0x10 4 v) := by
  have hfield := putField_scratch (s := s) (Nat.mod_lt v (by decide)) (into_word (mid := mid) (i := 0) (v := v) (f := F.GLB_SCRATCH_VALUE) rfl rfl)
  have hwrite : busWrite s mid 0x10 4 v = if v % 2 ^ 32 = rd s F.GLB_SCRATCH_VALUE then s
      else wr s F.GLB_SCRATCH_VALUE 0 (v % 2 ^ 32) := by
    rw [busWrite_register hm rfl rfl hreach, write32_low regAt_scratch rfl, regWrite_scratch _ _ (by rw [hfield]), hfield]
  rw [hwrite]
  split
  case isTrue hsame => exact ⟨hsame.symm, Keeps.refl _ s, RegsOnly.refl s⟩
  case isFalse => exact ⟨by rw [rd_wr_same]; exact Nat.mod_mod _ _, (Keeps.refl _ s).wr _ _ _ (by simp), (RegsOnly.refl s).wr _ _ _⟩

theorem Scratch.busReach (h : Scratch v s u) : busReach u = busReach s := by
  refine busReach_congr (fun f hf => h.keeps f 0 ?_) ?_
  · simp only [List.mem_singleton, forall_eq]
    revert hf; revert f; decide
  · rw [h.regsOnly]

theorem answers_scratch (hreach : busReach s 0x10 = true) : Answers (exec (.registerWrite 1 0x10 4 v none) s) fun t =>
    rd t F.GLB_SCRATCH_VALUE = v % 2 ^ 32 ∧ Changes [(F.GLB_SCRATCH_VALUE, 0)] s t :=
  answers_finish fun _ ht => (busWrite_scratch (.inl rfl) hreach).settled ht

/-- Two writes of one cycle act in descending order of their MIDs (R44). -/
theorem answers_scratch_rival {w : Nat} (hlo : 0x10 ≤ mid) (hhi : mid ≤ 0x17) (hreach : busReach s 0x10 = true) :
    ∀ i ∈ [Instr.registerWrite 1 0x10 4 v (some (mid, w)), .registerWrite mid 0x10 4 w (some (1, v))],
      Answers (exec i s) fun t => rd t F.GLB_SCRATCH_VALUE = v % 2 ^ 32 ∧ Changes [(F.GLB_SCRATCH_VALUE, 0)] s t := by
  have hcore : Scratch w s (busWrite s mid 0x10 4 w) := busWrite_scratch (.inr ⟨hlo, hhi⟩) hreach
  have hboth : Scratch v s (busWrite (busWrite s mid 0x10 4 w) 1 0x10 4 v) :=
    hcore.after (busWrite_scratch (.inl rfl) (by rw [hcore.busReach]; exact hreach))
  simp only [List.mem_cons, List.not_mem_nil, or_false, forall_eq_or_imp, forall_eq]
  constructor
  · have horder : cycleWrite s 1 0x10 4 v (some (mid, w)) = busWrite (busWrite s mid 0x10 4 w) 1 0x10 4 v :=
      if_pos (by omega)
    refine answers_finish fun _ ht => ?_
    rw [horder] at ht
    exact hboth.settled ht
  · have horder : cycleWrite s mid 0x10 4 w (some (1, v)) = busWrite (busWrite s mid 0x10 4 w) 1 0x10 4 v :=
      if_neg (by omega)
    refine answers_finish fun _ ht => ?_
    rw [horder] at ht
    exact hboth.settled ht

/-! ### GLB_EVT and GLB_STATUS: fields of type W1C and RO -/

theorem regAt_evt : regAt 0x30 = some ⟨R.GLB_EVT, 0, false⟩ := by decide
theorem regAt_status : regAt 0x14 = some ⟨R.GLB_STATUS, 0, false⟩ := by decide

theorem regWrite_evt (s : State) (w : Wr) : regWrite s R.GLB_EVT w =
    clearBits s F.GLB_EVT_EVT w.inst (F.GLB_EVT_EVT.bits w.val &&& bitsOf w.mask F.GLB_EVT_EVT.lo F.GLB_EVT_EVT.width) := rfl

theorem regWrite_status (s : State) (w : Wr) : regWrite s R.GLB_STATUS w = s := rfl

/-- Bit `b` of the value that a full 32-bit write gives a field at bit 0. -/
theorem testBit_written {b n : Nat} (hb : b < n) (hn : n ≤ 32) :
    (bitsOf (v % 2 ^ 32) 0 n &&& bitsOf (2 ^ 32 - 1) 0 n).testBit b = v.testBit b := by
  have hb32 : b < 32 := by omega
  simp only [bitsOf, pow_zero, Nat.div_one, Nat.testBit_and, Nat.testBit_mod_two_pow, Nat.testBit_two_pow_sub_one]
  simp [hb, hb32]

theorem hasBit_clearBits (s : State) (f : Field) (i m b : Nat) (hb : b < f.width) :
    hasBit (clearBits s f i m) f i b = (hasBit s f i b && !m.testBit b) := by
  rw [hasBit, clearBits_eq, rd_wr_same, Nat.testBit_mod_two_pow, Nat.testBit_bitwise (by rfl), decide_eq_true hb, Bool.true_and,
    hasBit]

theorem answers_evt (hreach : busReach s 0x30 = true) : Answers (exec (.registerWrite 1 0x30 4 v none) s) fun t =>
    (∀ b, b < 6 → hasBit t F.GLB_EVT_EVT 0 b = (hasBit s F.GLB_EVT_EVT 0 b && !v.testBit b))
    ∧ Changes [(F.GLB_EVT_EVT, 0)] s t := by
  refine answers_finish fun t ht => ?_
  rw [cycleWrite, busWrite_register (.inl rfl) rfl rfl hreach, write32_low regAt_evt rfl, regWrite_evt] at ht
  refine ⟨fun b hb => ?_, ht.changes ((Keeps.refl _ s).wr _ _ _ (by simp)) rfl⟩
  rw [ht.hasBit, hasBit_clearBits _ _ _ _ _ hb]
  exact congrArg (fun x => hasBit s F.GLB_EVT_EVT 0 b && !x) (testBit_written hb (by decide))

theorem answers_status (hreach : busReach s 0x14 = true) :
    Answers (exec (.registerWrite 1 0x14 4 v none) s) fun t => Changes [] s t := by
  refine answers_finish fun t ht => ?_
  rw [cycleWrite, busWrite_register (.inl rfl) rfl rfl hreach, write32_low regAt_status rfl, regWrite_status] at ht
  exact ht.changes (Keeps.refl _ s) rfl

/-! ### TMB_TB: a pair whose low half captures the high half -/

theorem regAt_tbLo : regAt 0x50008 = some ⟨R.TMB_TB, 0, false⟩ := by decide
theorem regAt_tbHi : regAt 0x5000C = some ⟨R.TMB_TB, 0, true⟩ := by decide

theorem regRead_tb (s : State) : regRead s mid R.TMB_TB 0 = (s.tb % 2 ^ 64, s) := by
  have hvalue : regRead s mid R.TMB_TB 0 = (0 + s.tb % 2 ^ 64 * 2 ^ 0, s) := rfl
  rw [hvalue, Nat.zero_add, pow_zero, Nat.mul_one]

/-- A read of the low half of a pair captures the high half. -/
theorem read32_lo {h : Hit} {x : Nat} (hat : regAt a = some h) (hlow : h.high = false) (hpair : h.reg.pair = true)
    (hread : regRead s mid h.reg h.inst = (x, u)) :
    read32 s mid a = (x % 2 ^ 32, { u with hiHeld := sset u.hiHeld 0 h.key (x / 2 ^ 32 + 1) }) := by
  simp [read32, hat, hlow, hpair, hread]

theorem read32_tbLo (s : State) : read32 s mid 0x50008 = (s.tb % 2 ^ 64 % 2 ^ 32,
    { s with hiHeld := sset s.hiHeld 0 R.TMB_TB.rid (s.tb % 2 ^ 64 / 2 ^ 32 + 1) }) :=
  read32_lo regAt_tbLo rfl rfl (regRead_tb s)

/-- A read of the high half returns what a read of the low half captured. -/
theorem read32_hi {h : Hit} {x : Nat} (hat : regAt a = some h) (hhigh : h.high = true)
    (hheld : sget s.hiHeld 0 h.key = x + 1) : (read32 s mid a).1 = x := by
  simp [read32, hat, hhigh, hheld]

theorem answers_tbLo (hreach : busReach s 0x50008 = true) : Answers (exec (.loHalfRead 1 0x50008) s) fun t =>
    ∀ x, (busRead { t with tb := x } 1 0x5000C 4).1 = s.tb / 2 ^ 32 % 2 ^ 32 := by
  refine answers_finish fun t ht x => ?_
  rw [busRead_register rfl rfl hreach, read32_tbLo] at ht
  have hregs : t.regs = s.regs := ht.regs
  have hheld : t.hiHeld = sset s.hiHeld 0 R.TMB_TB.rid (s.tb % 2 ^ 64 / 2 ^ 32 + 1) := ht.hiHeld
  have hreach' : busReach { t with tb := x } 0x5000C = true :=
    (congrFun (busReach_congr (t := { t with tb := x }) (fun f _ => rd_congr hregs f 0) ht.aDieReset) _).trans hreach
  rw [busRead_register rfl rfl hreach', read32_hi (x := s.tb % 2 ^ 64 / 2 ^ 32) regAt_tbHi rfl]
  · omega
  · show sget t.hiHeld 0 R.TMB_TB.rid = _
    rw [hheld, sget_sset_same]

/-! ### PKT_TAG_QUEUE: a field of type RC -/

theorem regAt_tagQueue : regAt 0x1D0010 = some ⟨R.PKT_TAG_QUEUE, 0, false⟩ := by decide

theorem regRead_tagQueue (s : State) : (regRead s mid R.PKT_TAG_QUEUE 0).2 = wr s F.PKT_TAG_QUEUE_PEAK 0 s.tagQ.length := rfl

theorem answers_tagQueue (hreach : busReach s 0x1D0010 = true) : Answers (exec (.rcRead 1 0x1D0010) s) fun t =>
    rd t F.PKT_TAG_QUEUE_PEAK = s.tagQ.length % 2 ^ 13 ∧ Changes [(F.PKT_TAG_QUEUE_PEAK, 0)] s t := by
  refine answers_finish fun t ht => ?_
  rw [busRead_register rfl rfl hreach, read32_single regAt_tagQueue rfl rfl, regRead_tagQueue] at ht
  exact ⟨by rw [ht.rd, rd_wr_same]; rfl, ht.changes ((Keeps.refl _ s).wr _ _ _ (by simp)) rfl⟩

/-! ### A bad access -/

theorem goodAccess_false {size : Nat} (h : (size = 4 ∨ size = 8) → a % size ≠ 0) : goodAccess a size = false := by
  by_cases hs : size = 4 ∨ size = 8
  · simp [goodAccess, h hs]
  · obtain ⟨h4, h8⟩ := not_or.mp hs
    simp [goodAccess, h4, h8]

theorem answers_badAccess {size : Nat} {w : Bool} (ha : a < 0x4000000) (hbad : (size = 4 ∨ size = 8) → a % size ≠ 0)
    (hrun : resetRunning s = false) : Answers (exec (.badAccess mid a size w) s) fun t =>
      rd t F.HIF_BAD_ACCESS_COUNT = min (rd s F.HIF_BAD_ACCESS_COUNT + 1) (2 ^ 32 - 1)
      ∧ hasBit t F.HIF_EVT_EVT 0 5 = true
      ∧ Changes [(F.HIF_BAD_ACCESS_COUNT, 0), (F.HIF_EVT_EVT, 0)] s t := by
  refine answers_finish fun t ht => ?_
  have hacts : (if isBadAccess a size && !resetRunning s then badAccess s else s) = badAccess s :=
    if_pos (by simp [isBadAccess, ha, goodAccess_false hbad, hrun])
  rw [hacts, badAccess] at ht
  refine ⟨?_, ?_, ht.changes (((Keeps.refl _ s).wr _ _ _ (by simp)).wr _ _ _ (by simp)) rfl⟩
  · rw [ht.rd, setBit_eq, rd_wr_field _ _ _ _ _ _ (by decide), rd_bump]
    rfl
  · rw [ht.hasBit, hasBit_setBit _ _ _ _ (by decide)]

end

/-- Settles O3, type of field by type of field. -/
theorem registerAccessesApplyByFieldType : Obligations.RegisterAccessesApplyByFieldType := fun _ _ =>
  ⟨answers_scratch, answers_evt, answers_status, answers_tbLo, answers_tagQueue,
    fun _ _ _ _ => answers_badAccess, fun _ _ hlo hhi hreach => answers_scratch_rival hlo hhi hreach⟩

end Sys2Proof.Machine
end

section
/-! The die-to-die link and the references (R23 to R25, R31 to R38). -/
open Sys2Proof
namespace Sys2Proof.Machine

section
variable {s t u : State}

/-! ### What darkness and captures leave alone -/

/-- A relation that every step of a fold keeps, and that is a preorder, holds from its start to its end. -/
theorem foldl_frame {α : Type} {R : State → State → Prop} (hrefl : ∀ u, R u u) (htrans : ∀ {u v w}, R u v → R v w → R u w)
    {g : State → α → State} (hg : ∀ u x, R u (g u x)) (l : List α) (s : State) : R s (l.foldl g s) := by
  induction l generalizing s with
  | nil => exact hrefl s
  | cons x l ih => exact htrans (hg s x) (ih _)

/-- Of `s`, registers, the held pulses and the high-impedance marks alone differ in `t`. -/
def DarkOnly (s t : State) : Prop := t = { s with regs := t.regs, trg := t.trg, hiZ := t.hiZ }

theorem DarkOnly.refl (s : State) : DarkOnly s s := rfl

theorem DarkOnly.trans (h : DarkOnly s t) (h' : DarkOnly t u) : DarkOnly s u := by
  unfold DarkOnly at *
  rw [h', h]

theorem DarkOnly.ite {c : Prop} [Decidable c] (ht : DarkOnly s t) (hu : DarkOnly s u) : DarkOnly s (if c then t else u) := by
  split
  · exact ht
  · exact hu

theorem DarkOnly.captures (h : DarkOnly s t) : t.captures = s.captures := by
  have e := congrArg State.captures h; exact e

theorem DarkOnly.laneStopped (h : DarkOnly s t) : t.laneStopped = s.laneStopped := by
  have e := congrArg State.laneStopped h; exact e

theorem discardPulses_darkOnly (s : State) (n : Nat) (count : Bool) : DarkOnly s (discardPulses s n count) := by
  refine DarkOnly.trans (t := setTrg s (ownerOf s n) TrgOut.init) rfl ?_
  refine foldl_frame DarkOnly.refl DarkOnly.trans (fun u m => ?_) _ _
  split <;> rfl

theorem poDark_darkOnly (s : State) (p : Nat) : DarkOnly s (poDark s p) := by
  unfold poDark
  dsimp only
  split <;> rfl

theorem poDarkOf_darkOnly (s : State) (n : Nat) : DarkOnly s (poDarkOf s n) := by
  refine foldl_frame DarkOnly.refl DarkOnly.trans (fun u p => ?_) _ _
  split
  · exact poDark_darkOnly u p
  · rfl

theorem goDark_darkOnly (s : State) (cause : Nat) (z : Bool) (c : Nat) : DarkOnly s (goDark s cause z c) := by
  unfold goDark
  split
  · exact DarkOnly.refl s
  · dsimp only
    refine DarkOnly.ite (((?_ : DarkOnly s _).trans (discardPulses_darkOnly _ _ _)).trans (poDarkOf_darkOnly _ _)) ?_
    · split <;> rfl
    · split <;> rfl

theorem goDarkAll_darkOnly (s : State) (cause : Nat) (z : Bool) : DarkOnly s (goDarkAll s cause z) :=
  foldl_frame DarkOnly.refl DarkOnly.trans (fun u c => goDark_darkOnly u cause z c) _ s

/-- Of `s`, registers and the events of the matrix alone differ in `t`. -/
def FiresOnly (s t : State) : Prop := t = { s with regs := t.regs, beacons := t.beacons }

theorem FiresOnly.refl (s : State) : FiresOnly s s := rfl

theorem FiresOnly.trans (h : FiresOnly s t) (h' : FiresOnly t u) : FiresOnly s u := by
  unfold FiresOnly at *
  rw [h', h]

theorem FiresOnly.ite {c : Prop} [Decidable c] (ht : FiresOnly s t) (hu : FiresOnly s u) : FiresOnly s (if c then t else u) := by
  split
  · exact ht
  · exact hu

theorem FiresOnly.captures (h : FiresOnly s t) : t.captures = s.captures := by
  have e := congrArg State.captures h; exact e

theorem RegsOnly.ite {c : Prop} [Decidable c] (ht : RegsOnly s t) (hu : RegsOnly s u) : RegsOnly s (if c then t else u) := by
  split
  · exact ht
  · exact hu

theorem deliver_regsOnly (s : State) (ch : Nat) : RegsOnly s (deliver s ch) := by
  unfold deliver
  dsimp only
  refine RegsOnly.ite (RegsOnly.wr ?_ _ _ _) ?_
  · exact RegsOnly.ite rfl rfl
  · exact RegsOnly.ite rfl rfl

theorem RegsOnly.firesOnly (h : RegsOnly s t) : FiresOnly s t := by
  unfold RegsOnly at h
  unfold FiresOnly
  rw [h]

theorem fireChannel_firesOnly (s : State) (ch : Nat) (soft : Bool) : FiresOnly s (fireChannel s ch soft) := by
  unfold fireChannel
  dsimp only
  split
  · exact (deliver_regsOnly s ch).firesOnly
  · rfl

theorem fireProducer_firesOnly (s : State) (p : Nat) : FiresOnly s (fireProducer s p) := by
  unfold fireProducer
  split
  · refine foldl_frame FiresOnly.refl FiresOnly.trans (fun u ch => ?_) _ s
    split
    · exact fireChannel_firesOnly u ch false
    · rfl
  · rfl

/-! ### Captures -/

/-- The bank that a fault event leaves of bank `b`. -/
def Bank.capture (b : Bank) (src detail tb ns : Nat) : Bank :=
  if b.latched then { b with count := min (b.count + 1) 0xFFFF, detail := mergeDetail src b.detail detail }
  else ⟨true, min (b.count + 1) 0xFFFF, detail, tb, ns⟩

theorem Bank.capture_latched (b : Bank) (src detail tb ns : Nat) : (b.capture src detail tb ns).latched = true := by
  unfold Bank.capture
  split
  case isTrue h => exact h
  case isFalse => rfl

theorem Capture.bank_setBank (k : Capture) (i : Nat) (b : Bank) : (k.setBank i b).bank i = b := by
  unfold Capture.bank Capture.setBank
  split <;> rfl

/-- The capture source that a fault event leaves of source `src`. -/
def captured (s : State) (src detail : Nat) : Capture :=
  let k := captureAt s src
  k.setBank k.active ((k.bank k.active).capture src detail (tbOrOnes s) s.ns)

theorem capture_firesOnly (s : State) (src detail : Nat) :
    FiresOnly (setCapture s src (captured s src detail)) (capture s src detail) := by
  have hbank := FiresOnly.refl (setCapture s src (captured s src detail))
  have hfire := FiresOnly.ite (c := (!((captureAt s src).bank (captureAt s src).active).latched && decide (src < 8)) = true)
    (fireProducer_firesOnly _ 146) hbank
  exact FiresOnly.ite (hfire.trans (fireProducer_firesOnly _ 147)) hfire

theorem captureAt_congr (h : t.captures = s.captures) (src : Nat) : captureAt t src = captureAt s src := by
  unfold captureAt; rw [h]

theorem captureAt_setCapture_same (s : State) (src : Nat) (k : Capture) : captureAt (setCapture s src k) src = k := by
  simp [captureAt, setCapture]

/-- A capture latches the bank that takes events. -/
theorem capture_latches (s : State) (src detail : Nat) :
    ((captureAt (capture s src detail) src).bank (captureAt s src).active).latched = true := by
  rw [captureAt_congr (capture_firesOnly s src detail).captures, captureAt_setCapture_same, captured, Capture.bank_setBank,
    Bank.capture_latched]

/-- A capture after all outputs went dark latches the bank that took events before. -/
theorem capture_goDarkAll_latches (s : State) (cause : Nat) (z : Bool) (src detail : Nat) :
    ((captureAt (capture (goDarkAll s cause z) src detail) src).bank (captureAt s src).active).latched = true := by
  have h := capture_latches (goDarkAll s cause z) src detail
  rwa [captureAt_congr (goDarkAll_darkOnly s cause z).captures] at h

/-! ### Status bits -/

/-- A changed status bit sets its event (R38). -/
theorem hasBit_setStatus {f : Field} {evt : Nat} {on : Bool} (h : isSet s f = !on) (he : evt < F.GLB_EVT_EVT.width) :
    hasBit (setStatus s f evt on) F.GLB_EVT_EVT 0 evt = true := by
  have hne : ¬ isSet s f = on := by rw [h]; cases on <;> decide
  rw [setStatus, if_neg hne, hasBit_setBit _ _ _ _ he]

/-- A one-bit status field that is set reads 1. -/
theorem rd_setStatus_true {f : Field} {evt : Nat} (hw : f.width = 1) (hf : F.GLB_EVT_EVT.key 0 ≠ f.key 0) :
    rd (setStatus s f evt true) f = 1 := by
  unfold setStatus
  split
  next hset =>
    have hlt : rd s f 0 < 2 ^ 1 := hw ▸ rd_lt s f 0
    have hne : rd s f 0 ≠ 0 := by simpa [isSet] using hset
    omega
  next => rw [setBit_eq, rd_wr_ne _ _ _ _ _ _ hf, wrBool_eq, rd_wr_same, hw]; rfl

/-- The outputs go dark and a capture latches: what a loss of the link to the F-die or of the lane reference does first. -/
theorem darkCapture_touches (s : State) (cause src : Nat) :
    Touches (darkFields ++ beaconFields) s (capture (goDarkAll s cause false) src 0) :=
  ((goDarkAll_touches s cause false).mono fun _ hf => List.mem_append_left _ hf).trans
    ((capture_touches _ src 0).mono fun _ hf => List.mem_append_right _ hf)

/-- A read that neither darkness nor a capture changes. -/
theorem rd_darkCapture (s : State) (cause src : Nat) {f : Field} (i : Nat)
    (hf : ∀ g ∈ darkFields ++ beaconFields, g.fid % 1024 ≠ f.fid % 1024) :
    rd (capture (goDarkAll s cause false) src 0) f i = rd s f i :=
  darkCapture_touches s cause src f i hf

theorem trgDark_darkCapture (s : State) (cause src : Nat) {n : Nat} (hn : n < 16) :
    trgDark (capture (goDarkAll s cause false) src 0) n = true := by
  have hdark := goDarkAll_dark s cause false hn
  unfold trgDark isSet at *
  rwa [capture_touches _ src 0 F.FIO_CH_STAT_DARK (12 + n) (by decide)]

theorem setStatus_captures (s : State) (f : Field) (evt : Nat) (on : Bool) : (setStatus s f evt on).captures = s.captures := by
  have e := congrArg State.captures ((RegsOnly.refl s).setStatus f evt on); exact e

theorem captures_d2dDown {f g : Field} {evt i : Nat} {on : Bool} (ht : Settled (bump (setStatus u f evt on) g i) t) :
    t.captures = u.captures := ht.captures.trans (setStatus_captures u f evt on)

theorem captures_laneRefLoss {f : Field} {evt : Nat} {on : Bool}
    (ht : Settled { setStatus u f evt on with laneStopped := true } t) : t.captures = u.captures :=
  ht.captures.trans (setStatus_captures u f evt on)

theorem rd_laneRefLoss {f : Field} {evt : Nat} {on : Bool}
    (ht : Settled { setStatus u f evt on with laneStopped := true } t) (g : Field) (i : Nat) :
    rd t g i = rd (setStatus u f evt on) g i := rd_congr ht.regs g i

theorem rd_setStatus_field (s : State) (f g : Field) (evt : Nat) (on : Bool) (i : Nat) (hf : f.fid % 1024 ≠ g.fid % 1024)
    (he : F.GLB_EVT_EVT.fid % 1024 ≠ g.fid % 1024) : rd (setStatus s f evt on) g i = rd s g i :=
  rd_setStatus_ne s f g evt on i (fun e => hf ((key_eq_iff f g 0 i).mp e).1) fun e => he ((key_eq_iff _ g 0 i).mp e).1

/-! ### The events -/

theorem answers_d2dRetry (hup : isSet s F.GLB_STATUS_D2D_UP = true) : Answers (exec .d2dRetry s) fun t =>
    rd t F.GLB_D2D_ERR_RETRIES = min (rd s F.GLB_D2D_ERR_RETRIES + 1) (2 ^ 16 - 1) ∧ Changes [(F.GLB_D2D_ERR_RETRIES, 0)] s t := by
  refine answers_finish fun t ht => ?_
  rw [d2dRetry, if_pos hup] at ht
  exact ⟨(ht.rd _ _).trans (rd_bump _ _ _), ht.changes ((Keeps.refl _ s).wr _ _ _ (by simp)) rfl⟩

theorem answers_d2dDown (hup : isSet s F.GLB_STATUS_D2D_UP = true) (hgood : domGood s 4 = true) :
    Answers (exec .d2dDown s) fun t =>
      rd t F.GLB_STATUS_D2D_UP = 0 ∧ hasBit t F.GLB_EVT_EVT 0 0 = true
      ∧ rd t F.GLB_D2D_ERR_DOWN_EVENTS = min (rd s F.GLB_D2D_ERR_DOWN_EVENTS + 1) (2 ^ 16 - 1)
      ∧ (∀ n, n < 16 → trgDark t n = true) ∧ ((captureAt t 0).bank (captureAt s 0).active).latched = true := by
  refine answers_finish fun t ht => ?_
  have hdown : d2dDown s = bump (setStatus (capture (goDarkAll s 2 false) 0 0) F.GLB_STATUS_D2D_UP 0 false)
      F.GLB_D2D_ERR_DOWN_EVENTS := if_pos (by rw [hup, hgood]; rfl)
  rw [hdown] at ht
  have hup' : isSet (capture (goDarkAll s 2 false) 0 0) F.GLB_STATUS_D2D_UP = !false := by
    unfold isSet at *
    rwa [rd_darkCapture s 2 0 0 (by decide)]
  refine ⟨?_, ?_, ?_, fun n hn => ?_, ?_⟩
  · rw [ht.rd, bump_eq, rd_wr_field _ _ _ _ _ _ (by decide), rd_setStatus_false _ _ _ (by decide)]
  · rw [ht.hasBit, hasBit, bump_eq, rd_wr_field _ _ _ _ _ _ (by decide)]
    exact hasBit_setStatus hup' (by decide)
  · rw [ht.rd, rd_bump, rd_setStatus_field _ _ _ _ _ _ (by decide) (by decide), rd_darkCapture s 2 0 0 (by decide)]
    rfl
  · have hdark := trgDark_darkCapture s 2 0 hn
    unfold trgDark isSet at *
    rwa [ht.rd, bump_eq, rd_wr_field _ _ _ _ _ _ (by decide), rd_setStatus_field _ _ _ _ _ _ (by decide) (by decide)]
  · rw [captureAt_congr (captures_d2dDown ht)]
    exact capture_goDarkAll_latches s 2 false 0 0

theorem answers_d2dReturn (hgood : domGood s 4 = true) (hrst : s.aDieReset = false) : Answers (exec .d2dReturn s) fun t =>
    rd t F.GLB_STATUS_D2D_UP = 1 ∧ (∀ n, trgDark t n = trgDark s n)
    ∧ (rd s F.GLB_STATUS_D2D_UP = 0 → hasBit t F.GLB_EVT_EVT 0 0 = true)
    ∧ Changes [(F.GLB_STATUS_D2D_UP, 0), (F.GLB_EVT_EVT, 0)] s t := by
  refine answers_finish fun t ht => ?_
  have hret : d2dReturn s = setStatus s F.GLB_STATUS_D2D_UP 0 true := if_pos (by rw [hgood, hrst]; rfl)
  rw [hret] at ht
  refine ⟨?_, fun n => ?_, fun h0 => ?_, ((RegsOnly.refl s).setStatus _ _ _).changes ht
    ((Keeps.refl _ s).setStatus _ _ _ (by simp) (by simp))⟩
  · rw [ht.rd, rd_setStatus_true rfl (by decide)]
  · unfold trgDark isSet
    rw [ht.rd, rd_setStatus_field _ _ _ _ _ _ (by decide) (by decide)]
  · rw [ht.hasBit, hasBit_setStatus (by simp [isSet, h0]) (by decide)]

theorem answers_laneRefLoss (hgood : domGood s 4 = true) (hrun : s.laneStopped = false) : Answers (exec .laneRefLoss s) fun t =>
    rd t F.GLB_STATUS_REF_LANE_OK = 0 ∧ (isSet s F.GLB_STATUS_REF_LANE_OK = true → hasBit t F.GLB_EVT_EVT 0 1 = true)
    ∧ (∀ n, n < 16 → trgDark t n = true) ∧ ((captureAt t 1).bank (captureAt s 1).active).latched = true
    ∧ t.laneStopped = true := by
  refine answers_finish fun t ht => ?_
  have hloss : laneRefLoss s = { setStatus (capture (goDarkAll s 3 false) 1 0) F.GLB_STATUS_REF_LANE_OK 1 false with
      laneStopped := true } := if_pos (by rw [hgood, hrun]; rfl)
  rw [hloss] at ht
  have hrd : ∀ f i, rd t f i = rd (setStatus (capture (goDarkAll s 3 false) 1 0) F.GLB_STATUS_REF_LANE_OK 1 false) f i :=
    fun f i => rd_laneRefLoss ht f i
  refine ⟨?_, fun hok => ?_, fun n hn => ?_, ?_, ht.laneStopped⟩
  · rw [hrd, rd_setStatus_false _ _ _ (by decide)]
  · have hok' : isSet (capture (goDarkAll s 3 false) 1 0) F.GLB_STATUS_REF_LANE_OK = !false := by
      unfold isSet at *
      rwa [rd_darkCapture s 3 1 0 (by decide)]
    rw [hasBit, hrd]
    exact hasBit_setStatus hok' (by decide)
  · have hdark := trgDark_darkCapture s 3 1 hn
    unfold trgDark isSet at *
    rwa [hrd, rd_setStatus_field _ _ _ _ _ _ (by decide) (by decide)]
  · rw [captureAt_congr (captures_laneRefLoss ht)]
    exact capture_goDarkAll_latches s 3 false 1 0

theorem answers_laneRefReturn (hgood : domGood s 4 = true) (hrst : s.aDieReset = false) : Answers (exec .laneRefReturn s) fun t =>
    rd t F.GLB_STATUS_REF_LANE_OK = 1 ∧ (rd s F.GLB_STATUS_REF_LANE_OK = 0 → hasBit t F.GLB_EVT_EVT 0 1 = true)
    ∧ t.laneStopped = s.laneStopped ∧ Changes [(F.GLB_STATUS_REF_LANE_OK, 0), (F.GLB_EVT_EVT, 0)] s t := by
  refine answers_finish fun t ht => ?_
  have hret : laneRefReturn s = setStatus s F.GLB_STATUS_REF_LANE_OK 1 true := if_pos (by rw [hgood, hrst]; rfl)
  rw [hret] at ht
  have hchange := ((RegsOnly.refl s).setStatus F.GLB_STATUS_REF_LANE_OK 1 true).changes ht
    ((Keeps.refl [(F.GLB_STATUS_REF_LANE_OK, 0), (F.GLB_EVT_EVT, 0)] s).setStatus _ _ _ (by simp) (by simp))
  refine ⟨?_, fun h0 => ?_, hchange.2.laneStopped, hchange⟩
  · rw [ht.rd, rd_setStatus_true rfl (by decide)]
  · rw [ht.hasBit, hasBit_setStatus (by simp [isSet, h0]) (by decide)]

theorem rd_linkLoss_of_ne (s : State) (i : Nat) {f : Field}
    (hf : ∀ g ∈ [F.HIF_LINK_STATUS_UP, F.HIF_LINK_DOWNS_COUNT, F.HIF_EVT_EVT], g.fid % 1024 ≠ f.fid % 1024) :
    rd (linkLoss s) f i = rd s f i := by
  unfold linkLoss
  split
  · rw [setBit_eq, rd_wr_field _ _ _ _ _ _ (hf _ (by simp)), bump_eq, rd_wr_field _ _ _ _ _ _ (hf _ (by simp)),
      rd_wr_field _ _ _ _ _ _ (hf _ (by simp))]
  · rfl

theorem answers_pcieRefLoss (s : State) : Answers (exec .pcieRefLoss s) fun t =>
    rd t F.GLB_STATUS_REF_PCIE_OK = 0 ∧ rd t F.HIF_LINK_STATUS_UP = 0
    ∧ (isSet s F.GLB_STATUS_REF_PCIE_OK = true → hasBit t F.GLB_EVT_EVT 0 2 = true)
    ∧ Changes [(F.GLB_STATUS_REF_PCIE_OK, 0), (F.GLB_EVT_EVT, 0), (F.HIF_LINK_STATUS_UP, 0),
        (F.HIF_LINK_DOWNS_COUNT, 0), (F.HIF_EVT_EVT, 0)] s t := by
  refine answers_finish fun t ht => ⟨(ht.rd _ _).trans (rd_pcieRefLoss_refOk s), (ht.rd _ _).trans (rd_pcieRefLoss_up s),
    fun hok => ?_, (pcieRefLoss_regsOnly s).changes ht (pcieRefLoss_keeps s)⟩
  rw [ht.hasBit]
  refine hasBit_setStatus ?_ (by decide)
  unfold isSet at *
  rwa [rd_linkLoss_of_ne s 0 (by decide)]

theorem answers_pcieRefReturn (hrst : s.aDieReset = false) : Answers (exec .pcieRefReturn s) fun t =>
    rd t F.GLB_STATUS_REF_PCIE_OK = 1 ∧ (rd s F.GLB_STATUS_REF_PCIE_OK = 0 → hasBit t F.GLB_EVT_EVT 0 2 = true)
    ∧ Changes [(F.GLB_STATUS_REF_PCIE_OK, 0), (F.GLB_EVT_EVT, 0)] s t := by
  refine answers_finish fun t ht => ?_
  have hret : pcieRefReturn s = setStatus s F.GLB_STATUS_REF_PCIE_OK 2 true := if_neg (by simp [hrst])
  rw [hret] at ht
  refine ⟨?_, fun h0 => ?_, ((RegsOnly.refl s).setStatus _ _ _).changes ht
    ((Keeps.refl _ s).setStatus _ _ _ (by simp) (by simp))⟩
  · rw [ht.rd, rd_setStatus_true rfl (by decide)]
  · rw [ht.hasBit, hasBit_setStatus (by simp [isSet, h0]) (by decide)]

end

/-- Settles O4, event by event. -/
theorem linksAndReferencesFollowTheirEvents : Obligations.LinksAndReferencesFollowTheirEvents := fun s =>
  ⟨answers_d2dRetry, answers_d2dDown, answers_d2dReturn, answers_laneRefLoss, answers_laneRefReturn, answers_pcieRefLoss s,
    answers_pcieRefReturn⟩

end Sys2Proof.Machine
end

section
/-! The host link, PERST#, block messages, MSI-X masks and configuration writes (R437 to R449, R567, R575). -/
open Sys2Proof
namespace Sys2Proof.Machine

section
variable {s t u v : State}

/-! ### What the end of a command sends -/

theorem irqBit_congr (h : t.regs = s.regs) (b : Nat) : irqBit t b = irqBit s b := by
  have hrd : ∀ f i, rd t f i = rd s f i := rd_congr h
  unfold irqBit
  split <;> simp only [pendingAt, anyPending, isSet, hrd, h]

/-- Messages only leave: what `u` had sent leads what `v` has, and nothing more is held. -/
def Sends (u v : State) : Prop := v.regs = u.regs ∧ v.held = u.held ∧ u.sent <+: v.sent

theorem Sends.refl (u : State) : Sends u u := ⟨rfl, rfl, List.prefix_refl _⟩

theorem Sends.trans {w : State} (h : Sends u v) (h' : Sends v w) : Sends u w :=
  ⟨h'.1.trans h.1, h'.2.1.trans h.2.1, h.2.2.trans h'.2.2⟩

theorem landHost_sends (s : State) (m : HostMsg) : Sends s (landHost s m) := ⟨rfl, rfl, ⟨[m], rfl⟩⟩

theorem blockMessage_sends (hup : isSet s F.HIF_LINK_STATUS_UP = true) (b : Nat) : Sends s (blockMessage s b) := by
  unfold blockMessage sendMsix
  split
  · dsimp only
    split
    · exact Sends.refl s
    split
    · exact ⟨rfl, rfl, List.prefix_refl _⟩
    · rw [sendHost, if_pos hup]
      exact landHost_sends s _
  · exact Sends.refl s

/-- While the link is up the end of a command holds no message back. -/
theorem raiseIrq_sends (s : State) (hup : isSet u F.HIF_LINK_STATUS_UP = true) : Sends u (raiseIrq s u) := by
  have hfold : ∀ (l : List Nat) (v : State), Sends u v →
      Sends u (l.foldl (fun v b => if irqBit u b && !irqBit s b then blockMessage v b else v) v) := by
    intro l
    induction l with
    | nil => exact fun v h => h
    | cons b l ih =>
      intro v hv
      refine ih _ ?_
      dsimp only
      split
      · have hv' : isSet v F.HIF_LINK_STATUS_UP = true := by
          unfold isSet at *
          rwa [rd_congr hv.1]
        exact hv.trans (blockMessage_sends hv' b)
      · exact hv
  exact hfold _ u (Sends.refl u)

theorem answers_finish_sends {P : State → Prop} (hup : isSet u F.HIF_LINK_STATUS_UP = true)
    (h : ∀ t, Settled u t → t.held = u.held → u.sent <+: t.sent → P t) : Answers (finish s u) P := by
  obtain ⟨_, hheld, hsent⟩ := raiseIrq_sends (u := settleFrames u) s hup
  exact ⟨_, finish_eq s u, h _ rfl hheld hsent⟩

/-- Without a changed register the end of a command sends nothing. -/
theorem raiseIrq_of_regs (h : u.regs = s.regs) : raiseIrq s u = u := by
  have hfold : ∀ l : List Nat, l.foldl (fun v b => if irqBit u b && !irqBit s b then blockMessage v b else v) u = u := by
    intro l
    induction l with
    | nil => rfl
    | cons b l ih => simpa [irqBit_congr h b] using ih
  exact hfold _

theorem answers_finish_silent {P : State → Prop} (hregs : u.regs = s.regs)
    (h : ∀ t, Settled u t → t.sent = u.sent → t.msix = u.msix → P t) : Answers (finish s u) P := by
  have hquiet : raiseIrq s (settleFrames u) = settleFrames u := raiseIrq_of_regs hregs
  refine ⟨_, finish_eq s u, h _ rfl ?_ ?_⟩
  · show (raiseIrq s (settleFrames u)).sent = _
    rw [hquiet]; rfl
  · show (raiseIrq s (settleFrames u)).msix = _
    rw [hquiet]; rfl

/-! ### HOST_LINK_UP and HOST_LINK_DOWN -/

theorem foldl_landHost (l : List HostMsg) (s : State) : l.foldl landHost s = { s with sent := s.sent ++ l } := by
  induction l generalizing s with
  | nil => simp
  | cons m l ih => rw [List.foldl_cons, ih]; simp [landHost]

/-- The trained rate and width, and the event of a change of them. -/
def linkTrained (s : State) (speed width : Nat) : State :=
  if rd s F.HIF_LINK_STATUS_SPEED = speed ∧ rd s F.HIF_LINK_STATUS_WIDTH = width then s
  else setBit (wr (wr s F.HIF_LINK_STATUS_SPEED 0 speed) F.HIF_LINK_STATUS_WIDTH 0 width) F.HIF_EVT_EVT 0 2

theorem linkTrained_regsOnly (s : State) (speed width : Nat) : RegsOnly s (linkTrained s speed width) :=
  RegsOnly.ite (RegsOnly.refl s) rfl

theorem rd_linkTrained_speed (s : State) (speed width : Nat) :
    rd (linkTrained s speed width) F.HIF_LINK_STATUS_SPEED = speed % 2 ^ F.HIF_LINK_STATUS_SPEED.width := by
  unfold linkTrained
  split
  case isTrue h => rw [← h.1, rd_mod]
  case isFalse => simp (disch := decide) only [setBit_eq, rd_wr_field, rd_wr_same]

theorem rd_linkTrained_width (s : State) (speed width : Nat) :
    rd (linkTrained s speed width) F.HIF_LINK_STATUS_WIDTH = width % 2 ^ F.HIF_LINK_STATUS_WIDTH.width := by
  unfold linkTrained
  split
  case isTrue h => rw [← h.2, rd_mod]
  case isFalse => simp (disch := decide) only [setBit_eq, rd_wr_field, rd_wr_same]

theorem rd_linkTrained_up (s : State) (speed width : Nat) :
    rd (linkTrained s speed width) F.HIF_LINK_STATUS_UP = rd s F.HIF_LINK_STATUS_UP := by
  unfold linkTrained
  split
  · rfl
  · simp (disch := decide) only [setBit_eq, rd_wr_field]

/-- The link comes up: what was held leaves in its order. -/
def linkRises (s : State) : State :=
  { setBit (wr s F.HIF_LINK_STATUS_UP 0 1) F.HIF_EVT_EVT 0 0 with sent := s.sent ++ s.held, held := [] }

theorem hostUp_of {speed width : Nat} (hperst : s.perst = false) (hrst : s.aDieReset = false) (hgood : domGood s 5 = true)
    (href : isSet s F.GLB_STATUS_REF_PCIE_OK = true) (hlo : 3 ≤ speed) (hhi : speed ≤ rd s F.HIF_CTL_MAX_SPEED)
    (hwidth : width ∈ [1, 2, 4, 8, 16]) (hup : isSet s F.HIF_LINK_STATUS_UP = false) :
    hostUp s speed width = linkRises (linkTrained s speed width) := by
  have hfree : ¬ (s.perst || s.aDieReset || !domGood s 5 || !isSet s F.GLB_STATUS_REF_PCIE_OK || decide (speed < 3)
      || decide (rd s F.HIF_CTL_MAX_SPEED < speed) || !([1, 2, 4, 8, 16].contains width)) = true := by
    have hnarrow : [1, 2, 4, 8, 16].contains width = true := List.contains_iff_mem.mpr hwidth
    rw [hperst, hrst, hgood, href, hnarrow, decide_eq_false (not_lt.mpr hlo), decide_eq_false (not_lt.mpr hhi)]
    decide
  have hup' : ¬ isSet (linkTrained s speed width) F.HIF_LINK_STATUS_UP = true := by
    unfold isSet at *
    rw [rd_linkTrained_up, hup]
    decide
  have hmain : hostUp s speed width = if isSet (linkTrained s speed width) F.HIF_LINK_STATUS_UP then linkTrained s speed width
      else
        let u := setBit (wr (linkTrained s speed width) F.HIF_LINK_STATUS_UP 0 1) F.HIF_EVT_EVT 0 0
        { u.held.foldl landHost u with held := [] } := if_neg hfree
  rw [hmain, if_neg hup']
  dsimp only
  rw [foldl_landHost]
  rfl

theorem answers_hostLinkUp {speed width : Nat} (hperst : s.perst = false) (hrst : s.aDieReset = false)
    (hgood : domGood s 5 = true) (href : isSet s F.GLB_STATUS_REF_PCIE_OK = true) (hlo : 3 ≤ speed)
    (hhi : speed ≤ rd s F.HIF_CTL_MAX_SPEED) (hwidth : width ∈ [1, 2, 4, 8, 16]) (hup : isSet s F.HIF_LINK_STATUS_UP = false) :
    Answers (exec (.hostLinkUp speed width) s) fun t =>
      rd t F.HIF_LINK_STATUS_UP = 1 ∧ rd t F.HIF_LINK_STATUS_SPEED = speed % 2 ^ F.HIF_LINK_STATUS_SPEED.width
      ∧ rd t F.HIF_LINK_STATUS_WIDTH = width % 2 ^ F.HIF_LINK_STATUS_WIDTH.width
      ∧ hasBit t F.HIF_EVT_EVT 0 0 = true ∧ s.sent ++ s.held <+: t.sent ∧ t.held = [] := by
  have hstate := hostUp_of hperst hrst hgood href hlo hhi hwidth hup
  have hrd : ∀ f i, rd (hostUp s speed width) f i
      = rd (setBit (wr (linkTrained s speed width) F.HIF_LINK_STATUS_UP 0 1) F.HIF_EVT_EVT 0 0) f i := fun f i => by
    rw [hstate]; exact rd_congr rfl f i
  have hone : rd (hostUp s speed width) F.HIF_LINK_STATUS_UP = 1 := by
    simp (disch := decide) only [hrd, setBit_eq, rd_wr_field, rd_wr_same]; rfl
  refine answers_finish_sends (by simp [isSet, hone]) fun t ht hheld hsent => ?_
  refine ⟨(ht.rd _ _).trans hone, ?_, ?_, ?_, ?_, ?_⟩
  · simp (disch := decide) only [ht.rd, hrd, setBit_eq, rd_wr_field, rd_linkTrained_speed]
  · simp (disch := decide) only [ht.rd, hrd, setBit_eq, rd_wr_field, rd_linkTrained_width]
  · rw [ht.hasBit, hasBit, hrd]
    exact hasBit_setBit _ _ _ _ (by decide)
  · have hsame : (linkTrained s speed width).sent ++ (linkTrained s speed width).held = s.sent ++ s.held := by
      rw [linkTrained_regsOnly s speed width]
    rw [hstate] at hsent
    rw [← hsame]
    exact hsent
  · rw [hheld, hstate]
    rfl

theorem answers_hostLinkDown (hup : isSet s F.HIF_LINK_STATUS_UP = true) : Answers (exec .hostLinkDown s) fun t =>
    rd t F.HIF_LINK_STATUS_UP = 0 ∧ hasBit t F.HIF_EVT_EVT 0 1 = true
    ∧ rd t F.HIF_LINK_DOWNS_COUNT = min (rd s F.HIF_LINK_DOWNS_COUNT + 1) (2 ^ 32 - 1)
    ∧ Changes [(F.HIF_LINK_STATUS_UP, 0), (F.HIF_LINK_DOWNS_COUNT, 0), (F.HIF_EVT_EVT, 0)] s t := by
  refine answers_finish fun t ht => ⟨(ht.rd _ _).trans (rd_linkLoss_up s), ?_, ?_,
    ((RegsOnly.refl s).linkLoss).changes ht ((Keeps.refl _ s).linkLoss (by simp) (by simp) (by simp))⟩
  · rw [ht.hasBit, linkLoss, if_pos hup, hasBit_setBit _ _ _ _ (by decide)]
  · rw [ht.rd, linkLoss, if_pos hup, setBit_eq, rd_wr_field _ _ _ _ _ _ (by decide), rd_bump,
      rd_wr_field _ _ _ _ _ _ (by decide)]
    rfl

/-! ### Messages of block vectors and of unmasked vectors -/

/-- Re-arming one block whose bit is pending sends its message again. -/
theorem irqRearm_bit {b : Nat} (hb : b < 29) (hirq : irqBit s b = true) : irqRearm s (2 ^ b) = blockMessage s b := by
  have hfold : ∀ (l : List Nat) (v : State), l.Nodup →
      l.foldl (fun t i => if (2 ^ b).testBit i && irqBit s i then blockMessage t i else t) v
        = if b ∈ l then blockMessage v b else v := by
    intro l
    induction l with
    | nil => exact fun _ _ => rfl
    | cons i l ih =>
      intro v hl
      obtain ⟨hi, hl⟩ := List.nodup_cons.mp hl
      rw [List.foldl_cons, ih _ hl]
      by_cases hib : i = b
      · subst hib
        simp [hi, hirq]
      · simp [Ne.symm hib, Nat.testBit_two_pow_of_ne (Ne.symm hib)]
  rw [irqRearm, hfold _ _ List.nodup_range, if_pos (List.mem_range.mpr hb)]

theorem blockMessage_sent {b : Nat} (hen : isSet s F.HIF_BLK_VEC_EN b = true) (hmsix : (pciAt s 0).msixEn = true)
    (hfn : (pciAt s 0).msixMask = false) (hvec : (msixAt s 0 (rd s F.HIF_BLK_VEC_VECTOR b)).masked = false)
    (hup : isSet s F.HIF_LINK_STATUS_UP = true) :
    blockMessage s b = landHost s (.msi 0 (msixAt s 0 (rd s F.HIF_BLK_VEC_VECTOR b)).addr
      (msixAt s 0 (rd s F.HIF_BLK_VEC_VECTOR b)).data) := by
  simp [blockMessage, sendMsix, sendHost, hen, hmsix, hfn, hvec, hup]

theorem answers_irqRearm {b : Nat} (hb : b < 29) (hreach : blockReach s 19 = true) (hirq : irqBit s b = true)
    (hen : isSet s F.HIF_BLK_VEC_EN b = true) (hmsix : (pciAt s 0).msixEn = true)
    (hfn : (pciAt s 0).msixMask = false) (hvec : (msixAt s 0 (rd s F.HIF_BLK_VEC_VECTOR b)).masked = false)
    (hup : isSet s F.HIF_LINK_STATUS_UP = true) : Answers (exec (.hifIrqRearm (2 ^ b)) s) fun t =>
      t.sent = s.sent ++ [.msi 0 (msixAt s 0 (rd s F.HIF_BLK_VEC_VECTOR b)).addr
        (msixAt s 0 (rd s F.HIF_BLK_VEC_VECTOR b)).data]
      ∧ Changes [] s t := by
  have hstate : inReach 19 s (fun s => irqRearm s (2 ^ b)) = landHost s (.msi 0 (msixAt s 0 (rd s F.HIF_BLK_VEC_VECTOR b)).addr
      (msixAt s 0 (rd s F.HIF_BLK_VEC_VECTOR b)).data) := by
    rw [inReach_of hreach, irqRearm_bit hb hirq, blockMessage_sent hen hmsix hfn hvec hup]
  show Answers (finish s (inReach 19 s fun s => irqRearm s (2 ^ b))) _
  rw [hstate]
  exact answers_finish_silent rfl fun t ht hsent _ => ⟨hsent, fun f i _ => rd_congr ht.regs f i, by
    rw [ht.regs]; exact ht⟩

theorem answers_msixUnmask {fn v : Nat} (hfn : fn < 8) (hv : v < (if fn = 0 then 2048 else 64)) (hworks : blockWorks s 19 = true)
    (hpend : (msixAt s fn v).pending = true) (hmsix : (pciAt s fn).msixEn = true) (hmask : (pciAt s fn).msixMask = false)
    (hup : isSet s F.HIF_LINK_STATUS_UP = true) : Answers (exec (.msixUnmask fn (some v)) s) fun t =>
      t.sent = s.sent ++ [.msi fn (msixAt s fn v).addr (msixAt s fn v).data]
      ∧ (msixAt t fn v).masked = false ∧ (msixAt t fn v).pending = false ∧ Changes [] s t := by
  let e := msixAt s fn v
  let done := setMsix (setMsix s fn v { e with masked := false }) fn v { e with masked := false, pending := false }
  have hentry : msixAt (setMsix s fn v { e with masked := false }) fn v = { e with masked := false } := by simp [msixAt, setMsix]
  have hfree : (((msixAt (setMsix s fn v { e with masked := false }) fn v).pending
      && !(msixAt (setMsix s fn v { e with masked := false }) fn v).masked && !(pciAt s fn).msixMask) && (pciAt s fn).msixEn) = true := by
    rw [hentry, hmsix, hmask]
    simpa using hpend
  have hrelease : msixUnmask s fn (some v) = landHost done (.msi fn e.addr e.data) := by
    have hsend : msixRelease (setMsix s fn v { e with masked := false }) fn v
        = sendHost (setMsix (setMsix s fn v { e with masked := false }) fn v
            { msixAt (setMsix s fn v { e with masked := false }) fn v with pending := false })
            (.msi fn (msixAt (setMsix s fn v { e with masked := false }) fn v).addr
              (msixAt (setMsix s fn v { e with masked := false }) fn v).data) := if_pos hfree
    rw [hentry] at hsend
    exact (if_pos hv).trans (hsend.trans (if_pos hup))
  have hstate : inBlock 19 s (fun s => msixUnmask s fn (some v)) = landHost done (.msi fn e.addr e.data) := by
    rw [inBlock_of hworks, hrelease]
  have hexec : exec (.msixUnmask fn (some v)) s = finish s (landHost done (.msi fn e.addr e.data)) := by
    rw [← hstate]
    exact onUnit_lt hfn s _
  rw [hexec]
  refine answers_finish_silent rfl fun t ht hsent hvec => ?_
  have hlast : msixAt t fn v = { e with masked := false, pending := false } := by
    unfold msixAt
    rw [hvec]
    exact sget_sset_same _ _ _ _
  refine ⟨hsent, by rw [hlast], by rw [hlast], fun f i _ => rd_congr ht.regs f i, ?_⟩
  have hregs : t.regs = s.regs := ht.regs
  rw [hregs]
  exact ht

/-! ### Counters that a CLR_COUNTS bit clears (R17) -/

theorem RegsOnly.clearAll (h : RegsOnly s u) (fs : List Field) (i : Nat) : RegsOnly s (clearAll u fs i) := by
  unfold Machine.clearAll
  induction fs generalizing u with
  | nil => exact h
  | cons f fs ih => exact ih (h.wr f i 0)

theorem Keeps.clearAll {ks : List (Field × Nat)} (h : Keeps ks s u) {fs : List Field} {i : Nat} (hm : ∀ f ∈ fs, (f, i) ∈ ks) :
    Keeps ks s (clearAll u fs i) := by
  unfold Machine.clearAll
  induction fs generalizing u with
  | nil => exact h
  | cons f fs ih => exact ih (h.wr f i 0 (hm f (by simp))) fun g hg => hm g (by simp [hg])

/-- Clearing counters at one index zeroes them and changes nothing else. -/
theorem cleared_of_settled {fs : List Field} {i : Nat} (ht : Settled (clearAll s fs i) t)
    (hfs : ∀ f ∈ fs, ∀ g ∈ fs, f.fid % 1024 = g.fid % 1024 → f = g) :
    (∀ f ∈ fs, rd t f i = 0) ∧ Changes (fs.map (·, i)) s t :=
  ⟨fun f hf => (ht.rd f i).trans (rd_clearAll_mem fs s i f hf fun k hk => hfs k hk f hf),
    ((RegsOnly.refl s).clearAll fs i).changes ht ((Keeps.refl _ s).clearAll fun f hf => List.mem_map.mpr ⟨f, hf, rfl⟩)⟩

theorem answers_hifClrCounts (hreach : blockReach s 19 = true) : Answers (exec .hifClrCounts s) fun t =>
    (∀ f ∈ [F.HIF_BAD_ACCESS_COUNT, F.HIF_CPL_TIMEOUT_COUNT, F.HIF_POISONED_COUNT, F.HIF_LINK_DOWNS_COUNT,
      F.HIF_DB_ERR_COUNT, F.HIF_FLRS_COUNT], rd t f = 0)
    ∧ Changes [(F.HIF_BAD_ACCESS_COUNT, 0), (F.HIF_CPL_TIMEOUT_COUNT, 0), (F.HIF_POISONED_COUNT, 0),
        (F.HIF_LINK_DOWNS_COUNT, 0), (F.HIF_DB_ERR_COUNT, 0), (F.HIF_FLRS_COUNT, 0)] s t :=
  answers_reach hreach fun _ ht => cleared_of_settled ht (by decide)

/-! ### Configuration writes -/

theorem answers_configWrite {fn what val : Nat} {P : State → Prop} (hgood : domGood s 5 = true) (hperst : s.perst = false)
    (hfn : fn < 8) (h : ∀ t, Settled (configWrite s fn what val) t → P t) : Answers (exec (.pcieConfigWrite fn what val) s) P := by
  refine answers_onUnit hfn fun t ht => h t ?_
  rwa [hgood, hperst] at ht

theorem configWrite_of {fn : Nat} (what val : Nat) (h : fn = 0 ∨ vfEnabled s fn = true) : configWrite s fn what val =
    match what with
    | 0 => if fn = 0 ∧ val ≤ 7 then { s with numVfs := val } else s
    | 1 => if fn = 0 then { s with vfEnable := val % 2 == 1 } else s
    | 2 => msixReleaseAll (setPci s fn { pciAt s fn with msixEn := val % 2 == 1 }) fn
    | 3 => msixReleaseAll (setPci s fn { pciAt s fn with msixMask := val % 2 == 1 }) fn
    | 4 => setPci s fn { pciAt s fn with ctv := val % 16 }
    | 5 => setPci s fn { pciAt s fn with roEn := val % 2 == 1 }
    | 6 => setPci s fn { pciAt s fn with d3 := val % 2 == 1 }
    | _ => s := by
  refine (if_neg ?_).trans rfl
  rcases h with rfl | h
  · simp
  · simp [h]

theorem pciAt_setPci_same (s : State) (fn : Nat) (k : PciFn) : pciAt (setPci s fn k) fn = k := by simp [pciAt, setPci]

theorem settled_setPci {fn : Nat} {k : PciFn} (ht : Settled (setPci s fn k) t) :
    pciAt t fn = k ∧ Settled { s with pci := t.pci } t := by
  have hpci : t.pci = (setPci s fn k).pci := ht.pci
  constructor
  · rw [pciAt, hpci]
    exact pciAt_setPci_same s fn k
  · rw [hpci]
    exact ht

theorem answers_pcieConfigWrite (val : Nat) (hgood : domGood s 5 = true) (hperst : s.perst = false) :
    (val ≤ 7 → Answers (exec (.pcieConfigWrite 0 0 val) s) fun t => Settled { s with numVfs := val } t)
    ∧ (Answers (exec (.pcieConfigWrite 0 1 val) s) fun t => Settled { s with vfEnable := val % 2 == 1 } t)
    ∧ ∀ fn, fn < 8 → (fn = 0 ∨ vfEnabled s fn = true) →
      (Answers (exec (.pcieConfigWrite fn 4 val) s) fun t => (pciAt t fn).ctv = val % 16 ∧ Settled { s with pci := t.pci } t)
      ∧ (Answers (exec (.pcieConfigWrite fn 5 val) s) fun t =>
          (pciAt t fn).roEn = (val % 2 == 1) ∧ Settled { s with pci := t.pci } t)
      ∧ (Answers (exec (.pcieConfigWrite fn 6 val) s) fun t =>
          (pciAt t fn).d3 = (val % 2 == 1) ∧ Settled { s with pci := t.pci } t) := by
  refine ⟨fun hval => answers_configWrite hgood hperst (by decide) fun t ht => ?_,
    answers_configWrite hgood hperst (by decide) fun t ht => ?_, fun fn hfn hen =>
    ⟨answers_configWrite hgood hperst hfn fun t ht => ?_, answers_configWrite hgood hperst hfn fun t ht => ?_,
      answers_configWrite hgood hperst hfn fun t ht => ?_⟩⟩
  · have hwrite : configWrite s 0 0 val = { s with numVfs := val } :=
      (configWrite_of 0 val (.inl rfl)).trans (if_pos ⟨rfl, hval⟩)
    rwa [hwrite] at ht
  · rwa [configWrite_of 1 val (.inl rfl)] at ht
  all_goals
    rw [configWrite_of _ val hen] at ht
    obtain ⟨hk, hrest⟩ := settled_setPci ht
    exact ⟨by rw [hk], hrest⟩

/-! ### PERST# -/

theorem sget_sfilter {α : Type} (p : Nat → Bool) (m : List (Nat × α)) (d : α) (k : Nat) :
    sget (sfilter p m) d k = if p k then sget m d k else d := by
  induction m with
  | nil => simp [sfilter]
  | cons e m ih =>
    obtain ⟨k', v⟩ := e
    have htail : sget (m.filter fun e => p e.1) d k = if p k then sget m d k else d := ih
    by_cases hk : k' = k
    · subst hk
      by_cases hp : p k' = true
      · simp [sfilter, hp, sget]
      · simp [sfilter, hp, htail]
    · by_cases hp : p k' = true
      · simp [sfilter, hp, sget, hk, htail]
      · simp [sfilter, hp, sget, hk, htail]

theorem resetBlockRegs_regs (s : State) (b : Block) : (resetBlockRegs s b).regs = sfilter (fun k =>
    k % 1024 < (blockFields b).1 || (blockFields b).2 ≤ k % 1024 || keptFields.contains (k % 1024)) s.regs := rfl

/-- A field of a block that is not kept returns to its Reset value with the block's registers. -/
theorem rd_resetBlockRegs_in {b : Block} {f : Field} (i : Nat) (hlo : (blockFields b).1 ≤ f.fid % 1024)
    (hhi : f.fid % 1024 < (blockFields b).2) (hkept : keptFields.contains (f.fid % 1024) = false) :
    rd (resetBlockRegs s b) f i = f.reset % 2 ^ f.width := by
  have hkey : f.key i % 1024 = f.fid % 1024 := by simp [Field.key]
  have hget : sget (resetBlockRegs s b).regs f.reset (f.key i) = f.reset := by
    rw [resetBlockRegs_regs, sget_sfilter, hkey, hkept, decide_eq_false (not_lt.mpr hlo), decide_eq_false (not_le.mpr hhi)]
    rfl
  rw [rd, hget]

/-- A field outside the block stays. -/
theorem rd_resetBlockRegs_out {b : Block} {f : Field} (i : Nat)
    (hout : f.fid % 1024 < (blockFields b).1 ∨ (blockFields b).2 ≤ f.fid % 1024) : rd (resetBlockRegs s b) f i = rd s f i := by
  have hkey : f.key i % 1024 = f.fid % 1024 := by simp [Field.key]
  have hget : sget (resetBlockRegs s b).regs f.reset (f.key i) = sget s.regs f.reset (f.key i) := by
    rw [resetBlockRegs_regs, sget_sfilter, hkey]
    rcases hout with h | h
    · rw [decide_eq_true h]; rfl
    · rw [decide_eq_true h, Bool.or_true]; rfl
  rw [rd, rd, hget]

/-- Of `s`, the registers, the descriptors and the DMA channels alone differ in `t`. -/
def DmaOnly (s t : State) : Prop := t = { s with regs := t.regs, descs := t.descs, dmaCh := t.dmaCh }

theorem DmaOnly.refl (s : State) : DmaOnly s s := rfl

theorem DmaOnly.trans (h : DmaOnly s t) (h' : DmaOnly t u) : DmaOnly s u := by
  unfold DmaOnly at *
  rw [h', h]

/-- What a dropped descriptor leaves in the registers. -/
def dropFields : List Field := [F.DMA_CH_ABORTED_COUNT, F.DMA_CH_EVT_EVT]

theorem dmaDrained_dmaOnly (s : State) (c : Nat) : DmaOnly s (dmaDrained s c) := by
  unfold dmaDrained
  dsimp only
  split <;> rfl

theorem dmaDrained_touches (s : State) (c : Nat) : Touches dropFields s (dmaDrained s c) := by
  unfold dmaDrained
  dsimp only
  split
  · exact (Touches.of_regs (s := s) (t := setDmaCh s c { dmaChAt s c with draining := false }) rfl).wr _ _ _ (by simp [dropFields])
  · exact Touches.refl

theorem dropDesc_ends_dmaOnly (s : State) (d : Desc) :
    DmaOnly s (dmaEvt (bump (dropDesc s d.id) F.DMA_CH_ABORTED_COUNT d.chan) d.chan 3) := rfl

theorem dropDesc_ends_touches (s : State) (d : Desc) :
    Touches dropFields s (dmaEvt (bump (dropDesc s d.id) F.DMA_CH_ABORTED_COUNT d.chan) d.chan 3) := by
  have hdrop : Touches dropFields s (dropDesc s d.id) := Touches.of_regs rfl
  exact (hdrop.wr _ _ _ (by simp [dropFields])).wr _ _ _ (by simp [dropFields])

theorem dropDescs_dmaOnly (s : State) (p : Desc → Bool) : DmaOnly s (dropDescs s p) := by
  refine foldl_frame DmaOnly.refl DmaOnly.trans (fun u d => ?_) _ s
  exact (dropDesc_ends_dmaOnly u d).trans (dmaDrained_dmaOnly _ _)

theorem dropDescs_touches (s : State) (p : Desc → Bool) : Touches dropFields s (dropDescs s p) := by
  refine Touches.foldl _ _ (fun u d => ?_) s
  exact (dropDesc_ends_touches u d).trans (dmaDrained_touches _ _)

/-! ### Function-level resets -/

/-- Of `s`, the registers, the rings with their records, the descriptors, the DMA channels, the MSI-X tables and VF Enable
alone differ in `t`. -/
def FlrOnly (s t : State) : Prop :=
  t = { s with regs := t.regs, rings := t.rings, recQ := t.recQ, descs := t.descs, dmaCh := t.dmaCh, msix := t.msix,
               vfEnable := t.vfEnable }

theorem FlrOnly.refl (s : State) : FlrOnly s s := rfl

theorem FlrOnly.trans (h : FlrOnly s t) (h' : FlrOnly t u) : FlrOnly s u := by
  unfold FlrOnly at *
  rw [h', h]

theorem DmaOnly.flrOnly (h : DmaOnly s t) : FlrOnly s t := by
  unfold DmaOnly at h
  unfold FlrOnly
  rw [h]

theorem RegsOnly.flrOnly (h : RegsOnly s t) : FlrOnly s t := by
  unfold RegsOnly at h
  unfold FlrOnly
  rw [h]

theorem FlrOnly.perst (h : FlrOnly s t) : t.perst = s.perst := by
  have e := congrArg State.perst h; exact e

/-- What the reset of a VF may touch. -/
def flrFields : List Field := [F.RNG_CFG_EN, F.RNG_LOST_COUNT, F.DMA_CH_ABORTED_COUNT, F.DMA_CH_EVT_EVT]

theorem ringDisable_flrOnly (s : State) (n : Nat) : FlrOnly s (ringDisable s n) := rfl

theorem ringDisable_touches (s : State) (n : Nat) : Touches [F.RNG_CFG_EN, F.RNG_LOST_COUNT] s (ringDisable s n) := by
  have hen : Touches [F.RNG_CFG_EN, F.RNG_LOST_COUNT] s (wr s F.RNG_CFG_EN n 0) := Touches.refl.wr _ _ _ (by simp)
  exact (hen.trans (.of_regs rfl)).wr _ _ _ (by simp)

/-- A disabled ring stays disabled when further rings are, and is disabled when it is among them. -/
theorem ringDisable_en (s : State) (m n : Nat) :
    rd (ringDisable s m) F.RNG_CFG_EN n = if m = n then 0 else rd s F.RNG_CFG_EN n := by
  have hreg : rd (ringDisable s m) F.RNG_CFG_EN n = rd (wr s F.RNG_CFG_EN m 0) F.RNG_CFG_EN n :=
    (rd_wr_field _ _ _ _ _ _ (by decide)).trans (rd_congr rfl _ _)
  rw [hreg]
  by_cases h : m = n
  · subst h
    rw [rd_wr_same, if_pos rfl]
    rfl
  · rw [rd_wr_inst _ _ _ _ h, if_neg h]

theorem foldl_ringDisable_en (l : List Nat) (s : State) (n : Nat) :
    rd (l.foldl ringDisable s) F.RNG_CFG_EN n = if n ∈ l then 0 else rd s F.RNG_CFG_EN n := by
  induction l generalizing s with
  | nil => rfl
  | cons m l ih =>
    rw [List.foldl_cons, ih, ringDisable_en]
    by_cases hl : n ∈ l
    · simp [hl]
    · by_cases hm : m = n
      · simp [hm]
      · simp [hl, hm, Ne.symm hm]

/-- The rings of a VF that its reset disables. -/
def vfRings (s : State) (k : Nat) : List Nat := (List.range 4096).filter fun n => ringOwner s n == k && isSet s F.RNG_CFG_EN n

/-- The descriptors dropped after the rings of a VF are disabled. -/
def vfDropped (s : State) (k : Nat) : State :=
  dropDescs ((vfRings s k).foldl ringDisable s) fun d => d.mid == k + 1 || d.namesRing ((vfRings s k).foldl ringDisable s) k

theorem vfReset_eq (s : State) (k : Nat) :
    vfReset s k = { vfDropped s k with msix := sfilter (fun i => i / 2048 ≠ k) (vfDropped s k).msix } := by
  unfold vfReset vfDropped vfRings
  with_reducible rfl

theorem msix_flrOnly (u : State) (m : List (Nat × MsixEntry)) : FlrOnly u { u with msix := m } := rfl

theorem vfReset_flrOnly (s : State) (k : Nat) : FlrOnly s (vfReset s k) := by
  have hrings : FlrOnly s ((vfRings s k).foldl ringDisable s) := foldl_frame FlrOnly.refl FlrOnly.trans ringDisable_flrOnly _ s
  rw [vfReset_eq]
  exact (hrings.trans (dropDescs_dmaOnly _ _).flrOnly).trans (msix_flrOnly _ _)

theorem vfReset_regs (s : State) (k : Nat) : (vfReset s k).regs = (vfDropped s k).regs := by
  rw [vfReset_eq]

theorem vfReset_touches (s : State) (k : Nat) : Touches flrFields s (vfReset s k) := by
  have hrings : Touches flrFields s ((vfRings s k).foldl ringDisable s) :=
    Touches.foldl _ _ (fun u n => (ringDisable_touches u n).mono (by simp [flrFields])) s
  have hdescs : Touches flrFields ((vfRings s k).foldl ringDisable s) (vfDropped s k) :=
    (dropDescs_touches _ _).mono (by simp [flrFields, dropFields])
  exact (hrings.trans hdescs).trans (.of_regs (vfReset_regs s k))

/-- The reset of a VF disables each of its rings. -/
theorem vfReset_en {k n : Nat} (hn : n < 4096) (hown : ringOwner s n = k) : rd (vfReset s k) F.RNG_CFG_EN n = 0 := by
  rw [rd_congr (vfReset_regs s k), vfDropped, dropDescs_touches _ _ F.RNG_CFG_EN n (by decide), foldl_ringDisable_en]
  split
  case isTrue => rfl
  case isFalse hmem =>
    by_contra hen
    exact hmem (List.mem_filter.mpr ⟨List.mem_range.mpr hn, by simp [hown, isSet, hen]⟩)

/-! ### HIF returns to its Reset values but for a list -/

theorem rd_restored_ne {f : Field} (i : Nat) (keep : List Field) (u : State) (h : ∀ g ∈ keep, g.fid % 1024 ≠ f.fid % 1024) :
    rd (keep.foldl (fun t f => wr t f 0 (rd s f)) u) f i = rd u f i := by
  induction keep generalizing u with
  | nil => rfl
  | cons g keep ih => rw [List.foldl_cons, ih _ fun k hk => h k (by simp [hk]), rd_wr_field _ _ _ _ _ _ (h g (by simp))]

theorem rd_restored_mem {f : Field} (keep : List Field) (u : State) (hf : f ∈ keep)
    (hinj : ∀ g ∈ keep, g.fid % 1024 = f.fid % 1024 → g = f) :
    rd (keep.foldl (fun t f => wr t f 0 (rd s f)) u) f = rd s f := by
  induction keep generalizing u with
  | nil => cases hf
  | cons g keep ih =>
    rw [List.foldl_cons]
    by_cases hmem : f ∈ keep
    · exact ih _ hmem fun k hk => hinj k (by simp [hk])
    · have hg : f = g := by simpa [hmem] using hf
      subst hg
      rw [rd_restored_ne, rd_wr_same, rd_mod]
      exact fun k hk hfid => hmem ((hinj k (by simp [hk]) hfid) ▸ hk)

theorem hifReset_regsOnly (s : State) (keep : List Field) : RegsOnly s (hifReset s keep) := by
  unfold hifReset
  have hfold : ∀ u, RegsOnly s u → RegsOnly s (keep.foldl (fun t f => wr t f 0 (rd s f)) u) := by
    induction keep with
    | nil => exact fun _ h => h
    | cons g keep ih => exact fun u h => ih _ (h.wr _ _ _)
  exact hfold _ rfl

theorem rd_hifReset_out {f : Field} (i : Nat) (keep : List Field) (hout : f.fid % 1024 < 884 ∨ 909 ≤ f.fid % 1024)
    (h : ∀ g ∈ keep, g.fid % 1024 ≠ f.fid % 1024) : rd (hifReset s keep) f i = rd s f i :=
  (rd_restored_ne i keep _ h).trans (rd_resetBlockRegs_out i hout)

theorem rd_hifReset_in {f : Field} (i : Nat) (keep : List Field) (hlo : 884 ≤ f.fid % 1024) (hhi : f.fid % 1024 < 909)
    (h : ∀ g ∈ keep, g.fid % 1024 ≠ f.fid % 1024) (hkept : keptFields.contains (f.fid % 1024) = false) :
    rd (hifReset s keep) f i = f.reset % 2 ^ f.width :=
  (rd_restored_ne i keep _ h).trans (rd_resetBlockRegs_in i hlo hhi hkept)

/-- The fields of HIF that a reset of the PF spares. -/
def pfKeep : List Field :=
  hifCounts ++ [F.HIF_LINK_STATUS_UP, F.HIF_LINK_STATUS_SPEED, F.HIF_LINK_STATUS_WIDTH, F.HIF_VF_STATUS_FLR_BUSY]

/-- The VFs reset with the PF. -/
def vfsReset (s : State) : State := (List.range 7).foldl (fun s i => vfReset s (i + 1)) s

/-- The rings return to their Reset values with the PF. -/
def ringsReset (s : State) : State := { resetBlockRegs s .rng with rings := [], recQ := [], vfEnable := false, msix := [] }

theorem pfReset_eq (s : State) :
    pfReset s = hifReset (dropDescs (ringsReset (vfsReset s)) fun d => d.namesHost || d.record) pfKeep := by
  unfold pfReset vfsReset ringsReset pfKeep
  with_reducible rfl

theorem vfsReset_flrOnly (s : State) : FlrOnly s (vfsReset s) :=
  foldl_frame FlrOnly.refl FlrOnly.trans (fun u i => vfReset_flrOnly u (i + 1)) _ s

theorem vfsReset_touches (s : State) : Touches flrFields s (vfsReset s) :=
  Touches.foldl _ _ (fun u i => vfReset_touches u (i + 1)) s

theorem ringsReset_flrOnly (s : State) : FlrOnly s (ringsReset s) := rfl

theorem ringsReset_regs (s : State) : (ringsReset s).regs = (resetBlockRegs s .rng).regs := rfl

theorem pfReset_flrOnly (s : State) : FlrOnly s (pfReset s) := by
  rw [pfReset_eq]
  exact (((vfsReset_flrOnly s).trans (ringsReset_flrOnly _)).trans (dropDescs_dmaOnly _ _).flrOnly).trans
    (hifReset_regsOnly _ _).flrOnly

theorem pfReset_vfEnable (s : State) : (pfReset s).vfEnable = false := by
  rw [pfReset_eq, hifReset_regsOnly, dropDescs_dmaOnly]
  rfl

/-- After the reset of the PF every ring is disabled. -/
theorem pfReset_en (s : State) (n : Nat) : rd (pfReset s) F.RNG_CFG_EN n = 0 := by
  rw [pfReset_eq, rd_hifReset_out n pfKeep (by decide) (by decide), dropDescs_touches _ _ _ _ (by decide),
    rd_congr (ringsReset_regs _),    rd_resetBlockRegs_in n (by decide) (by decide) (by decide)]
  rfl

/-- What the reset of the PF spares of HIF reads as before. -/
theorem rd_pfReset_kept {f : Field} (hf : f ∈ pfKeep) : rd (pfReset s) f = rd s f := by
  have hdist : ∀ f ∈ pfKeep, (∀ g ∈ pfKeep, g.fid % 1024 = f.fid % 1024 → g = f) ∧ (f.fid % 1024 < 849 ∨ 884 ≤ f.fid % 1024)
      ∧ (∀ g ∈ dropFields ++ flrFields, g.fid % 1024 ≠ f.fid % 1024) := by decide
  obtain ⟨hinj, hrng, hother⟩ := hdist f hf
  rw [pfReset_eq, hifReset, rd_restored_mem _ _ hf hinj,
    dropDescs_touches _ _ _ _ fun g hg => hother g (List.mem_append_left _ hg), rd_congr (ringsReset_regs _),
    rd_resetBlockRegs_out 0 hrng,
    vfsReset_touches s _ _ fun g hg => hother g (List.mem_append_right _ hg)]

theorem RegsOnly.perst (h : RegsOnly s t) : t.perst = s.perst := by
  have e := congrArg State.perst h; exact e

theorem settled_pciReset (ht : Settled (pciReset u) t) :
    t.perst = u.perst ∧ t.numVfs = 0 ∧ t.vfEnable = false ∧ ∀ f i, rd t f i = rd u f i :=
  ⟨ht.perst, ht.numVfs, ht.vfEnable, fun f i => rd_congr ht.regs f i⟩

theorem answers_perstAssert (s : State) : Answers (exec .perstAssert s) fun t =>
    t.perst = true ∧ rd t F.HIF_LINK_STATUS_UP = 0 ∧ t.numVfs = 0 ∧ t.vfEnable = false ∧ ∀ n, rd t F.RNG_CFG_EN n = 0 := by
  have hstate : perstAssert s = pciReset (hifReset (pfReset (linkLoss { s with perst := true })) hifCounts) := by
    unfold perstAssert
    with_reducible rfl
  have hperst : (hifReset (pfReset (linkLoss { s with perst := true })) hifCounts).perst = true := by
    rw [(hifReset_regsOnly _ _).perst, (pfReset_flrOnly _).perst, (RegsOnly.refl _).linkLoss.perst]
  refine answers_finish fun t ht => ?_
  rw [hstate] at ht
  obtain ⟨hpin, hvfs, hen, hrd⟩ := settled_pciReset ht
  refine ⟨hpin.trans hperst, ?_, hvfs, hen, fun n => ?_⟩
  · rw [hrd, rd_hifReset_in 0 _ (by decide) (by decide) (by decide) (by decide)]
    rfl
  · rw [hrd, rd_hifReset_out n _ (by decide) (by decide)]
    exact pfReset_en _ n

end

/-- Settles O5, command by command. -/
theorem hostLinkAndConfigurationCommandsAct : Obligations.HostLinkAndConfigurationCommandsAct := fun s =>
  ⟨fun _ _ => answers_hostLinkUp, answers_hostLinkDown, answers_perstAssert s, answers_finish fun _ ht => ht,
    fun _ => answers_irqRearm, fun _ _ => answers_msixUnmask, fun val => answers_pcieConfigWrite val, answers_hifClrCounts⟩

end Sys2Proof.Machine
end

section
/-! Counterexamples: states written out register by register, and what the model evaluates on them. -/
open Sys2Proof
namespace Sys2Proof.Machine

/-- What a function of the next state gives, where the outcome is one. -/
def outcome {α : Type} (f : State → α) (o : Host.Outcome State Fault Refusal) : Option α :=
  match o with
  | .next t => some (f t)
  | _ => none

/-- An outcome that answers `P` and shows `v` has a next state with both. -/
theorem Answers.shows {α : Type} {o : Host.Outcome State Fault Refusal} {P : State → Prop} (h : Answers o P) {f : State → α} {v : α}
    (hv : outcome f o = some v) : ∃ t, f t = v ∧ P t := by
  obtain ⟨t, rfl, ht⟩ := h
  exact ⟨t, Option.some.inj hv, ht⟩

/-- A state with registers written one after another: field, index, value. -/
def withRegs (s : State) (l : List (Field × Nat × Nat)) : State := l.foldl (fun s x => wr s x.1 x.2.1 x.2.2) s

/-- The A-die released with power good of every domain, the die-to-die link and both references there; every other register
at its Reset value. -/
def powered : State :=
  withRegs { State.reset with aDieReset := false, aDieReleased := true, keeperReady := true, perst := false }
    [(F.KP_GOOD_DOMAINS, 0, 0xFFFFFF), (F.GLB_STATUS_D2D_UP, 0, 1), (F.GLB_STATUS_REF_LANE_OK, 0, 1), (F.GLB_STATUS_REF_PCIE_OK, 0, 1)]

/-- An entry of a CMD ring: MBX_SEND (4) of a word to mailbox 0. -/
def sendEntry : List Nat := [4, 0, 0, 0, 0, 0, 0, 0] ++ List.replicate 24 0

/-- CMD ring 0 of the PF holds `sendEntry`; the PF is the sender of mailbox 0, and its receiver is none (0x1F). -/
def noReceiver : State :=
  setRing (withRegs powered [(F.RNG_CFG_EN, 0, 1), (F.RNG_CFG_TYPE, 0, rCMD), (F.MBX_BIND_SENDER, 0, 1), (F.MBX_BIND_RECEIVER, 0, 0x1F)])
    0 { Ring.init with fetched := [sendEntry] }

/-- Refutes O8: the bound sender of an empty mailbox whose RECEIVER is none is refused (R472), and nothing fills it. -/
theorem not_commandRingEntriesActAndAreConsumed : ¬ Obligations.CommandRingEntriesActAndAreConsumed := by
  intro h
  obtain ⟨-, -, -, hsend, -⟩ := h noReceiver 0 sendEntry [] (by decide) (by decide +kernel) (by decide +kernel) (by decide +kernel)
    (by decide +kernel) (by decide) (by decide) (by decide +kernel)
  have hfill := hsend (by decide) (by decide) (by decide +kernel) (by decide +kernel) (by decide +kernel)
  have hempty : outcome (fun t => rd t F.MBX_STAT_FULL (leField sendEntry 8 8)) (exec (.cmdMbxSend 0) noReceiver) = some 0 := by
    decide +kernel
  obtain ⟨t, hzero, -, -, hone, -⟩ := hfill.shows hempty
  rw [hone] at hzero
  exact absurd hzero (by decide)

end Sys2Proof.Machine
end

section
/-! Failed host reads and function-level resets (R438, R455, R468, R469). -/
open Sys2Proof
namespace Sys2Proof.Machine

section
variable {s t u : State}

/-! ### What a record of a ring touches -/

theorem Touches.ite {fs : List Field} {c : Prop} [Decidable c] (ht : Touches fs s t) (hu : Touches fs s u) :
    Touches fs s (if c then t else u) := by
  split
  · exact ht
  · exact hu

theorem sendHost_regs (s : State) (m : HostMsg) : (sendHost s m).regs = s.regs := by
  rw [sendHost_hostOnly s m]

theorem sendMsix_regs (s : State) (fn v : Nat) : (sendMsix s fn v).regs = s.regs := by
  rw [sendMsix_hostOnly s fn v]

theorem hostWrite_regs (s : State) (fn a : Nat) (bs : List Nat) : (hostWrite s fn a bs).regs = s.regs := sendHost_regs _ _

theorem indexWb_regs (s : State) (n : Nat) : (indexWb s n).regs = s.regs := by
  unfold indexWb
  dsimp only
  split
  · rfl
  · exact hostWrite_regs _ _ _ _

theorem ringVector_regs (s : State) (n : Nat) : (ringVector s n).regs = s.regs :=
  (sendMsix_regs _ _ _).trans (indexWb_regs s n)

theorem entryNotice_regs (s : State) (n : Nat) : (entryNotice s n).regs = s.regs := ringVector_regs _ n

theorem countEntry_regs (s : State) (n : Nat) : (countEntry s n).regs = s.regs := by
  unfold countEntry
  dsimp only
  split
  · rfl
  split
  · exact entryNotice_regs _ n
  · rfl

/-- What an index update of a ring may touch besides the index. -/
def buoyFields : List Field :=
  [F.RNG_BUOY_PEAK_LEVEL, F.RNG_BUOY_TROUGH_LEVEL, F.RNG_BUOY_STAT_HIGH_STICKY, F.RNG_BUOY_STAT_HIGH_PEND, F.RNG_BUOY_CNT_HIGH_CNT,
   F.RNG_BUOY_STAT_LOW_STICKY, F.RNG_BUOY_STAT_LOW_PEND, F.RNG_BUOY_CNT_LOW_CNT]

theorem buoyCross_touches (s : State) (n : Nat) {sticky pend cnt : Field}
    (h : sticky ∈ buoyFields ∧ pend ∈ buoyFields ∧ cnt ∈ buoyFields) : Touches buoyFields s (buoyCross s n sticky pend cnt) := by
  obtain ⟨hs, hp, hc⟩ := h
  have hmark : Touches buoyFields s (bump (wr (wr s sticky n 1) pend n 1) cnt n) :=
    ((Touches.refl.wr _ _ _ hs).wr _ _ _ hp).wr _ _ _ hc
  exact (hmark.trans (.of_regs (ringVector_regs _ n))).ite hmark

theorem setRing_regs (s : State) (n : Nat) (k : Ring) : (setRing s n k).regs = s.regs := rfl

/-- One buoy, where an index update crosses it. -/
theorem buoyStep_touches (s : State) (n : Nat) (k : Ring) {sticky pend cnt : Field} (c : Prop) [Decidable c]
    (h : sticky ∈ buoyFields ∧ pend ∈ buoyFields ∧ cnt ∈ buoyFields) :
    Touches buoyFields s (if c then buoyCross (setRing s n k) n sticky pend cnt else s) :=
  Touches.ite (Touches.trans (.of_regs (setRing_regs s n k)) (buoyCross_touches _ n h)) Touches.refl

theorem buoys_touches (s : State) (n old : Nat) : Touches buoyFields s (buoys s n old) := by
  unfold buoys
  refine Touches.trans ?_ (buoyStep_touches _ n _ _ (by simp [buoyFields]))
  refine Touches.trans ?_ (buoyStep_touches _ n _ _ (by simp [buoyFields]))
  exact (Touches.refl.wr _ _ _ (by simp [buoyFields])).wr _ _ _ (by simp [buoyFields])

/-- What an advance of the device-owned index may touch. -/
def advanceFields : List Field := F.RNG_HEAD_INDEX :: F.RNG_TAIL_INDEX :: buoyFields

theorem advanceRing_touches (s : State) (n : Nat) : Touches advanceFields s (advanceRing s n) := by
  unfold advanceRing
  refine Touches.trans ?_ (.of_regs (countEntry_regs _ n))
  refine Touches.trans ?_ ((buoys_touches _ n _).mono fun f hf => by simp [advanceFields, hf])
  refine Touches.trans ?_ (.of_regs (setRing_regs _ n _))
  exact Touches.ite (Touches.refl.wr _ _ _ (by simp [advanceFields])) (Touches.refl.wr _ _ _ (by simp [advanceFields]))

theorem putEntry_touches (s : State) (n : Nat) (bs : List Nat) : Touches advanceFields s (putEntry s n bs) :=
  Touches.trans (.of_regs (hostWrite_regs _ _ _ _)) (advanceRing_touches _ n)

theorem evtRecord_touches (s : State) (n kind source tb detail : Nat) :
    Touches (F.RNG_LOST_COUNT :: advanceFields) s (evtRecord s n kind source tb detail) := by
  have hlost : ∀ v : State, Touches (F.RNG_LOST_COUNT :: advanceFields) v (bump v F.RNG_LOST_COUNT n) := fun v =>
    Touches.refl.wr _ _ _ (by simp)
  unfold evtRecord
  refine Touches.ite (hlost s) (Touches.ite ?_ ?_)
  · exact Touches.trans (.of_regs (setRing_regs s n _)) (hlost _)
  · exact Touches.trans (.of_regs (setRing_regs s n _)) ((putEntry_touches _ n _).mono fun f hf => by simp [hf])

/-! ### Failed reads (R438, R455) -/

/-- What a ring that enters ERROR may touch besides its ERROR and CODE. -/
def ringErrFields : List Field :=
  F.HIF_RING_ERR_FIRST_RING :: F.HIF_RING_ERR_FIRST_VALID :: F.RNG_LOST_COUNT :: advanceFields

theorem loseRecords_touches (s : State) (n : Nat) : Touches [F.RNG_LOST_COUNT] s (loseRecords s n) :=
  Touches.trans (.of_regs rfl) (Touches.refl.wr _ _ _ (by simp))

theorem ringError_touches (s : State) (n code : Nat) :
    Touches ringErrFields (wr (wr s F.RNG_BUOY_STAT_ERROR n 1) F.RNG_ERR_CODE n code) (ringError s n code) := by
  have hroute : ∀ (v : State) (r kind source tb detail : Nat) (c : Prop) [Decidable c],
      Touches ringErrFields v (if c then evtRecord v r kind source tb detail else v) := fun v r kind source tb detail c _ =>
    Touches.ite ((evtRecord_touches v r kind source tb detail).mono fun f hf => by simp [ringErrFields] at hf ⊢; tauto) Touches.refl
  have hfirst : ∀ (v : State) (c : Prop) [Decidable c], Touches ringErrFields v
      (if c then v else wr (wr v F.HIF_RING_ERR_FIRST_RING 0 n) F.HIF_RING_ERR_FIRST_VALID 0 1) := fun v c _ =>
    Touches.ite Touches.refl ((Touches.refl.wr _ _ _ (by simp [ringErrFields])).wr _ _ _ (by simp [ringErrFields]))
  unfold ringError
  refine Touches.trans ?_ (hroute _ _ _ _ _ _ _)
  refine Touches.trans ?_ (hfirst _ _)
  refine Touches.trans (.of_regs (setRing_regs _ n _)) ((loseRecords_touches _ n).mono fun f hf => ?_)
  simp only [List.mem_singleton] at hf
  simp [hf, ringErrFields]

theorem rd_ringError_error (s : State) (n code : Nat) : rd (ringError s n code) F.RNG_BUOY_STAT_ERROR n = 1 := by
  rw [ringError_touches s n code _ _ (by decide), rd_wr_field _ _ _ _ _ _ (by decide), rd_wr_same]
  rfl

theorem rd_ringError_code (s : State) (n code : Nat) :
    rd (ringError s n code) F.RNG_ERR_CODE n = code % 2 ^ F.RNG_ERR_CODE.width := by
  rw [ringError_touches s n code _ _ (by decide), rd_wr_same]

theorem rd_ringError_other {f : Field} (i : Nat) (s : State) (n code : Nat)
    (hf : ∀ g ∈ F.RNG_BUOY_STAT_ERROR :: F.RNG_ERR_CODE :: ringErrFields, g.fid % 1024 ≠ f.fid % 1024) :
    rd (ringError s n code) f i = rd s f i := by
  rw [ringError_touches s n code f i fun g hg => hf g (by simp [hg]), rd_wr_field _ _ _ _ _ _ (hf _ (by simp)),
    rd_wr_field _ _ _ _ _ _ (hf _ (by simp))]

theorem hostReadError_entry {n : Nat} {timeout : Bool} (hlive : ringLive s n = true) (hhost : hostProduced s n = true)
    (hdue : (ringAt s n).fetched.length < ringLevel s n) :
    hostReadError s timeout true n = ringError (cplError s timeout) n (if timeout then 1 else 2) :=
  (if_pos rfl).trans (if_pos (by rw [hlive, hhost, decide_eq_true hdue]; rfl))

theorem answers_cplTimeout {n : Nat} (hworks : blockWorks s 18 = true) (hlive : ringLive s n = true)
    (hhost : hostProduced s n = true) (hdue : (ringAt s n).fetched.length < ringLevel s n) :
    Answers (exec (.hostCplTimeout true n) s) fun t =>
      rd t F.HIF_CPL_TIMEOUT_COUNT = min (rd s F.HIF_CPL_TIMEOUT_COUNT + 1) (2 ^ 32 - 1)
      ∧ hasBit t F.HIF_EVT_EVT 0 3 = true ∧ rd t F.RNG_BUOY_STAT_ERROR n = 1 ∧ rd t F.RNG_ERR_CODE n = 1 := by
  refine answers_inBlock hworks fun t ht => ?_
  rw [hostReadError_entry hlive hhost hdue] at ht
  refine ⟨?_, ?_, (ht.rd _ _).trans (rd_ringError_error _ _ _), (ht.rd _ _).trans (rd_ringError_code _ _ _)⟩
  · rw [ht.rd, rd_ringError_other _ _ _ _ (by decide)]
    exact (rd_wr_field _ _ _ _ _ _ (by decide)).trans (rd_bump _ _ _)
  · rw [ht.hasBit, hasBit, rd_ringError_other _ _ _ _ (by decide)]
    exact hasBit_setBit _ _ _ _ (by decide)

theorem answers_cplError {n : Nat} (hworks : blockWorks s 18 = true) (hlive : ringLive s n = true)
    (hhost : hostProduced s n = true) (hdue : (ringAt s n).fetched.length < ringLevel s n) :
    Answers (exec (.hostCplError true n) s) fun t =>
      rd t F.HIF_POISONED_COUNT = min (rd s F.HIF_POISONED_COUNT + 1) (2 ^ 32 - 1)
      ∧ hasBit t F.HIF_EVT_EVT 0 4 = true ∧ rd t F.RNG_BUOY_STAT_ERROR n = 1 ∧ rd t F.RNG_ERR_CODE n = 2 := by
  refine answers_inBlock hworks fun t ht => ?_
  rw [hostReadError_entry hlive hhost hdue] at ht
  refine ⟨?_, ?_, (ht.rd _ _).trans (rd_ringError_error _ _ _), (ht.rd _ _).trans (rd_ringError_code _ _ _)⟩
  · rw [ht.rd, rd_ringError_other _ _ _ _ (by decide)]
    exact (rd_wr_field _ _ _ _ _ _ (by decide)).trans (rd_bump _ _ _)
  · rw [ht.hasBit, hasBit, rd_ringError_other _ _ _ _ (by decide)]
    exact hasBit_setBit _ _ _ _ (by decide)

/-! ### Function-level resets (R468, R469) -/

theorem rd_flrBegins_other {f : Field} (i : Nat) (s : State) (mask : Nat)
    (hf : ∀ g ∈ [F.HIF_VF_STATUS_FLR_BUSY, F.HIF_FLRS_COUNT, F.HIF_EVT_EVT], g.fid % 1024 ≠ f.fid % 1024) :
    rd (flrBegins s mask) f i = rd s f i := by
  unfold flrBegins
  rw [setBit_eq, rd_wr_field _ _ _ _ _ _ (hf _ (by simp)), bump_eq, rd_wr_field _ _ _ _ _ _ (hf _ (by simp)),
    rd_wr_field _ _ _ _ _ _ (hf _ (by simp))]

theorem flrBegins_shows (s : State) {mask : Nat} (hm : mask < 2 ^ 7) :
    rd (flrBegins s mask) F.HIF_VF_STATUS_FLR_BUSY = rd s F.HIF_VF_STATUS_FLR_BUSY ||| mask
    ∧ hasBit (flrBegins s mask) F.HIF_EVT_EVT 0 7 = true
    ∧ rd (flrBegins s mask) F.HIF_FLRS_COUNT = min (rd s F.HIF_FLRS_COUNT + 1) (2 ^ 32 - 1) := by
  refine ⟨?_, hasBit_setBit _ _ _ _ (by decide), ?_⟩
  · simp (disch := decide) only [flrBegins, setBit_eq, bump_eq, rd_wr_field, rd_wr_same]
    exact Nat.mod_eq_of_lt (Nat.or_lt_two_pow (rd_lt s F.HIF_VF_STATUS_FLR_BUSY 0) hm)
  · simp (disch := decide) only [flrBegins, setBit_eq, rd_wr_field, rd_bump]
    rfl

theorem flrBegins_vfEnable {mask : Nat} (ht : Settled (flrBegins s mask) t) : t.vfEnable = s.vfEnable := ht.vfEnable

theorem answers_flrVf {k : Nat} (hk : 0 < k) (hk8 : k < 8) (hworks : blockWorks s 19 = true) (hen : vfEnabled s k = true) :
    Answers (exec (.flrVf k) s) fun t =>
      (∀ n, n < 4096 → ringOwner s n = k → rd t F.RNG_CFG_EN n = 0)
      ∧ hasBit t F.HIF_VF_STATUS_FLR_BUSY 0 (k - 1) = true ∧ hasBit t F.HIF_EVT_EVT 0 7 = true
      ∧ rd t F.HIF_FLRS_COUNT = min (rd s F.HIF_FLRS_COUNT + 1) (2 ^ 32 - 1) := by
  refine answers_onBlock hk8 hworks fun t ht => ?_
  rw [if_pos hen] at ht
  have hmask : 2 ^ (k - 1) < 2 ^ 7 := Nat.pow_lt_pow_right (by decide) (by omega)
  obtain ⟨hbusy, hevt, hcount⟩ := flrBegins_shows (vfReset s k) hmask
  refine ⟨fun n hn hown => ?_, ?_, (ht.hasBit _ _ _).trans hevt, ?_⟩
  · rw [ht.rd, rd_flrBegins_other _ _ _ (by decide), vfReset_en hn hown]
  · rw [ht.hasBit, hasBit, hbusy, Nat.testBit_or, Nat.testBit_two_pow_self, Bool.or_true]
  · rw [ht.rd, hcount, vfReset_touches s k _ _ (by decide)]

theorem answers_flrPf (hworks : blockWorks s 19 = true) : Answers (exec .flrPf s) fun t =>
    (∀ n, rd t F.RNG_CFG_EN n = 0) ∧ t.vfEnable = false ∧ rd t F.HIF_VF_STATUS_FLR_BUSY = 127
    ∧ rd t F.HIF_LINK_STATUS_UP = rd s F.HIF_LINK_STATUS_UP ∧ hasBit t F.HIF_EVT_EVT 0 7 = true
    ∧ rd t F.HIF_FLRS_COUNT = min (rd s F.HIF_FLRS_COUNT + 1) (2 ^ 32 - 1) := by
  refine answers_inBlock hworks fun t ht => ?_
  obtain ⟨hbusy, hevt, hcount⟩ := flrBegins_shows (pfReset s) (mask := 127) (by decide)
  have hfull : ∀ x < 2 ^ 7, x ||| 127 = 127 := by decide
  refine ⟨fun n => ?_, ?_, ?_, ?_, (ht.hasBit _ _ _).trans hevt, ?_⟩
  · rw [ht.rd, rd_flrBegins_other _ _ _ (by decide), pfReset_en]
  · rw [flrBegins_vfEnable ht, pfReset_vfEnable]
  · rw [ht.rd, hbusy, hfull _ (rd_lt _ F.HIF_VF_STATUS_FLR_BUSY 0)]
  · rw [ht.rd, rd_flrBegins_other _ _ _ (by decide), rd_pfReset_kept (by decide)]
  · rw [ht.rd, hcount, rd_pfReset_kept (by decide)]

/-- The FLR_BUSY bits that the end of a reset of a function clears. -/
theorem flrDone_testBit {fn i : Nat} (hfn : fn < 8) (hi : i < 7) :
    (!(if fn = 0 then 127 else 2 ^ (fn - 1)).testBit i) = (decide (fn ≠ 0) && decide (i + 1 ≠ fn)) := by
  have h : ∀ fn < 8, ∀ i < 7, (!(if fn = 0 then 127 else 2 ^ (fn - 1)).testBit i) = (decide (fn ≠ 0) && decide (i + 1 ≠ fn)) := by
    decide
  exact h fn hfn i hi

theorem answers_flrComplete {fn : Nat} (hfn : fn < 8) (hworks : blockWorks s 19 = true) : Answers (exec (.flrComplete fn) s) fun t =>
    (∀ i, i < 7 → hasBit t F.HIF_VF_STATUS_FLR_BUSY 0 i
      = (hasBit s F.HIF_VF_STATUS_FLR_BUSY 0 i && fn ≠ 0 && i + 1 ≠ fn))
    ∧ Changes [(F.HIF_VF_STATUS_FLR_BUSY, 0)] s t := by
  refine answers_onBlock hfn hworks fun t ht => ⟨fun i hi => ?_, ht.changes ((Keeps.refl _ s).wr _ _ _ (by simp)) rfl⟩
  rw [ht.hasBit, hasBit_clearBits _ _ _ _ _ hi, flrDone_testBit hfn hi, Bool.and_assoc]

end

/-- Settles O6, command by command. -/
theorem hostErrorsAndFunctionResetsAct : Obligations.HostErrorsAndFunctionResetsAct := fun _ =>
  ⟨fun _ _ hworks hlive hhost hdue => ⟨answers_cplTimeout hworks hlive hhost hdue, answers_cplError hworks hlive hhost hdue⟩,
    fun _ => answers_flrVf, answers_flrPf, fun _ => answers_flrComplete⟩

end Sys2Proof.Machine
end

section
/-! A counterexample to what a wait leaves alone. -/
open Sys2Proof
namespace Sys2Proof.Machine

/-- Core 0 can issue; the register file holds 9 for its SQ_STATUS.STATE, which reads as RUNNING (1) in the field's three bits. -/
def wideState : State := { powered with regs := sset powered.regs 0 (F.SQ_STATUS_STATE.key 0) 9 }

/-- A field at the place of SQ_STATUS.STATE, one bit wider. -/
def wideField : Field := { F.SQ_STATUS_STATE with width := 4 }

/-- Refutes O15: a wait that ends writes STATE = RUNNING again, and `Keeps` speaks of every `Field`, also of one that shows a
bit which the register file of the start state holds beyond the model's own field. -/
theorem not_waitsAndRegionsOpenAndClose : ¬ Obligations.WaitsAndRegionsOpenAndClose := by
  intro h
  have hready : Ready wideState 0 := by unfold Ready; decide +kernel
  have hout : NoRegion wideState 0 := by unfold NoRegion; decide +kernel
  obtain ⟨hwait, -, -⟩ := (h wideState 0 hready).1 hout
  have hends := hwait 0 (by decide +kernel)
  have hone : outcome (fun t => rd t wideField 0) (exec (.wait 0 0 0 0 0) wideState) = some 1 := by decide +kernel
  obtain ⟨t, hread, -, -, -, hkeeps⟩ := hends.shows hone
  have hsame : rd t wideField 0 = rd wideState wideField 0 := hkeeps wideField 0 (by decide)
  have hnine : rd wideState wideField 0 = 9 := by decide +kernel
  omega

end Sys2Proof.Machine
end

section
/-! Faults of a core (R100): cause, pc and STATE, and what a squashed region gives back (R93, R94). -/
open Sys2Proof
namespace Sys2Proof.Machine

section
variable {s t u : State} {c d a pc cause : Nat}

/-! ### The effect of a fault -/

theorem coreAt_coreFault (s : State) (c pc cause : Nat) :
    coreAt (coreFault s c pc cause) c = { coreAt (recipeAbort (squashRegion s c) c) c with stall := .none, stepping := false } := by
  unfold coreFault
  exact coreAt_setCore_same _ _ _

theorem hasBit_coreFault (s : State) (c pc cause : Nat) : hasBit (coreFault s c pc cause) F.SQ_IRQ_STATUS_EVT c 1 = true :=
  hasBit_setBit _ _ _ _ (by decide)

/-- A core without region and recipe loses nothing but its run when it faults. -/
theorem coreFault_plain (hregion : NoRegion s c) (hrecipe : (coreAt s c).recipe = none) : coreFault s c pc cause =
    sqIrq (wr (wr (setSqState (setCore s c { coreAt s c with stall := .none, stepping := false }) c sqFAULTED) F.SQ_STATUS_FAULT c cause)
      F.SQ_FAULT_PC_PC c pc) c 1 := by
  have hsquash : squashRegion s c = s := by
    unfold squashRegion
    rw [show (coreAt s c).region = none from hregion]
  have habort : recipeAbort s c = s := by
    unfold recipeAbort
    rw [hrecipe]
  rw [coreFault, hsquash, habort]

/-- What a fault of core `c` at `pc` shows, and that it changes nothing else. -/
structure FaultsAt (s : State) (c pc cause : Nat) (t : State) : Prop where
  state : sqState t c = sqFAULTED
  fault : rd t F.SQ_STATUS_FAULT c = cause
  faultPc : rd t F.SQ_FAULT_PC_PC c = pc
  irq : hasBit t F.SQ_IRQ_STATUS_EVT c 1 = true
  storeQ : (coreAt t c).storeQ = (coreAt s c).storeQ
  regs : Keeps [(F.SQ_STATUS_STATE, c), (F.SQ_STATUS_FAULT, c), (F.SQ_FAULT_PC_PC, c), (F.SQ_IRQ_STATUS_EVT, c)] s t
  rest : Settled { s with regs := t.regs, cores := t.cores } t

theorem faultsAt_settled (hregion : NoRegion s c) (hrecipe : (coreAt s c).recipe = none) (hpc : pc < 2 ^ F.SQ_FAULT_PC_PC.width)
    (hcause : cause < 2 ^ F.SQ_STATUS_FAULT.width) (ht : Settled (coreFault s c pc cause) t) : FaultsAt s c pc cause t := by
  obtain ⟨hstate, hat, hwhy⟩ := faultedAt_coreFault s c hpc hcause
  have hcore : coreAt (coreFault s c pc cause) c = { coreAt s c with stall := .none, stepping := false } := by
    rw [coreFault_plain hregion hrecipe]
    exact coreAt_setCore_same s c _
  refine
    { state := (ht.sqState c).trans hstate
      fault := (ht.rd _ _).trans hwhy
      faultPc := (ht.rd _ _).trans hat
      irq := (ht.hasBit _ _ _).trans (hasBit_coreFault ..)
      storeQ := by rw [ht.coreAt, hcore]
      regs := ht.keeps ?_
      rest := ?_ }
  · rw [coreFault_plain hregion hrecipe]
    exact ((((Keeps.refl _ s).of_regs rfl).wr _ _ _ (by simp)).wr _ _ _ (by simp)).wr _ _ _ (by simp) |>.wr _ _ _ (by simp)
  · rw [ht.regs, ht.cores]
    rw [coreFault_plain hregion hrecipe] at ht ⊢
    exact ht

/-- An instruction that faults. -/
theorem answers_coreFault {f : State → State} {P : State → Prop} (hr : Ready s c) (hf : f s = coreFault s c pc cause)
    (h : ∀ t, Settled (coreFault s c pc cause) t → P t) : Answers (onCore c f s) P := by
  refine answers_issue hr ?_ fun t ht => h t (hf ▸ ht)
  rw [hf, coreAt_coreFault]

/-- The instructions that fault with `cause` at their own address. -/
def Faulting (s : State) (c cause : Nat) (f : State → State) : Prop := f s = coreFault s c (pcOf s c) cause

theorem answers_faults {f : State → State} (hr : Ready s c) (hregion : NoRegion s c) (hrecipe : (coreAt s c).recipe = none)
    (hcause : cause < 2 ^ F.SQ_STATUS_FAULT.width) (hf : Faulting s c cause f) :
    Answers (onCore c f s) (FaultsAt s c (pcOf s c) cause) :=
  answers_coreFault hr hf fun _ ht => faultsAt_settled hregion hrecipe (lt_trans hr.pc_lt (by decide)) hcause ht

/-! ### Which instructions fault -/

theorem legal_not {ok : Bool} (h : ok = false) (f : State → State) : legal s c ok f = coreFault s c (pcOf s c) fILLEGAL := by
  subst h
  rfl

theorem srcLegal_acc_ne (v : Nat) (h : d ≠ a) : srcLegal true d a (.acc v) = false := by simp [srcLegal, h]

theorem shiftLegal_wide {v : Nat} (h : 64 ≤ v) : shiftLegal (.imm v) = false := decide_eq_false (by omega)

theorem withAddr_outside {n ad : Nat} {f : State → State} (h : place ad = none) :
    withAddr s c ad n f = coreFault s c (pcOf s c) fBADADDR := if_pos (by rw [h]; rfl)

theorem withAddr_misaligned {n ad : Nat} {f : State → State} (ha : place ad ≠ none) (h : ad % n ≠ 0) :
    withAddr s c ad n f = coreFault s c (pcOf s c) fMISALIGNED := by
  have hsome : (place ad).isNone = false := by
    cases hp : place ad with
    | none => exact absurd hp ha
    | some p => rfl
  rw [withAddr, hsome, if_neg Bool.false_ne_true, if_pos h]

theorem withDev_beyond {n ad : Nat} {f : State → State} (h : 0x04000000 ≤ ad) :
    withDev s c ad n f = coreFault s c (pcOf s c) fBADADDR := if_pos h

theorem withDev_misaligned {n ad : Nat} {f : State → State} (hin : ad < 0x04000000) (h : ad % n ≠ 0) :
    withDev s c ad n f = coreFault s c (pcOf s c) fMISALIGNED := (if_neg (not_le.mpr hin)).trans (if_pos h)

theorem faulting_load_outside {n imm16 : Nat} {signed : Bool} (h : place (effAddr s c a imm16) = none) :
    Faulting s c 2 (tsxLoad n signed c d a imm16) := by
  rw [Faulting, tsxLoad]
  exact withAddr_outside h

theorem faulting_store_outside {n imm16 : Nat} (h : place (effAddr s c a imm16) = none) :
    Faulting s c 2 (tsxStore n c d a imm16) := by
  rw [Faulting, tsxStore]
  exact withAddr_outside h

theorem faulting_load_misaligned {n imm16 : Nat} {signed : Bool} (ha : place (effAddr s c a imm16) ≠ none)
    (h : effAddr s c a imm16 % n ≠ 0) : Faulting s c 3 (tsxLoad n signed c d a imm16) := by
  rw [Faulting, tsxLoad]
  exact withAddr_misaligned ha h

theorem faulting_store_misaligned {n imm16 : Nat} (ha : place (effAddr s c a imm16) ≠ none)
    (h : effAddr s c a imm16 % n ≠ 0) : Faulting s c 3 (tsxStore n c d a imm16) := by
  rw [Faulting, tsxStore]
  exact withAddr_misaligned ha h

theorem faulting_rdev_beyond {n imm16 : Nat} (h : 0x04000000 ≤ effAddr s c a imm16) : Faulting s c 2 (tsxRdev n c d a imm16) := by
  rw [Faulting, tsxRdev]
  exact withDev_beyond h

theorem faulting_wdev_beyond {n imm16 : Nat} (h : 0x04000000 ≤ effAddr s c a imm16) : Faulting s c 2 (tsxWdev n c d a imm16) := by
  rw [Faulting, tsxWdev]
  exact withDev_beyond h

theorem faulting_rdev_misaligned {n imm16 : Nat} (hin : effAddr s c a imm16 < 0x04000000) (h : effAddr s c a imm16 % n ≠ 0) :
    Faulting s c 3 (tsxRdev n c d a imm16) := by
  rw [Faulting, tsxRdev]
  exact withDev_misaligned hin h

theorem faulting_wdev_misaligned {n imm16 : Nat} (hin : effAddr s c a imm16 < 0x04000000) (h : effAddr s c a imm16 % n ≠ 0) :
    Faulting s c 3 (tsxWdev n c d a imm16) := by
  rw [Faulting, tsxWdev]
  exact withDev_misaligned hin h

theorem faulting_logic_acc {op : Word → Word → Word} {operand : State → Nat → Src → Word} (v : Nat) :
    Faulting s c 1 (tsxLogic op operand c d a (.acc v)) := by
  rw [Faulting, tsxLogic]
  exact legal_not rfl _

theorem faulting_add_acc (v : Nat) (h : d ≠ a) : Faulting s c 1 (tsxAdd c d a (.acc v)) := by
  rw [Faulting, tsxAdd]
  exact legal_not (srcLegal_acc_ne v h) _

theorem faulting_sub_acc (v : Nat) (h : d ≠ a) : Faulting s c 1 (tsxSub c d a (.acc v)) := by
  rw [Faulting, tsxSub]
  exact legal_not (srcLegal_acc_ne v h) _

theorem faulting_shl_wide {v : Nat} (h : 64 ≤ v) : Faulting s c 1 (tsxShl c d a (.imm v)) := by
  rw [Faulting, tsxShl]
  exact legal_not (shiftLegal_wide h) _

theorem faulting_shr_wide {v : Nat} (h : 64 ≤ v) : Faulting s c 1 (tsxShr c d a (.imm v)) := by
  rw [Faulting, tsxShr]
  exact legal_not (shiftLegal_wide h) _

theorem faulting_sar_wide {v : Nat} (h : 64 ≤ v) : Faulting s c 1 (tsxSar c d a (.imm v)) := by
  rw [Faulting, tsxSar]
  exact legal_not (shiftLegal_wide h) _

theorem faulting_noCondition (off16 : Nat) : Faulting s c 1 (tsxB c 15 off16) := by
  rw [Faulting, tsxB]
  exact legal_not rfl _

theorem faulting_jr_misaligned (h : (vreg s c a).toNat % 4 ≠ 0) : Faulting s c 3 (tsxJr c a) := by
  rw [Faulting, tsxJr]
  exact jumpTo_misaligned h

theorem faulting_jr_beyond (halign : (vreg s c a).toNat % 4 = 0) (h : 0x7FFC < (vreg s c a).toNat) :
    Faulting s c 2 (tsxJr c a) := by
  rw [Faulting, tsxJr]
  exact jumpTo_beyond halign h

theorem place_not_shared {ad : Nat} (h : ad < 0x10000) (o : Nat) : place ad ≠ some (.shared o) := by
  unfold place
  split
  · simp
  · rw [if_neg (by omega)]
    simp

theorem faulting_atomic_misaligned {op : Word → Word → Word} {b o : Nat} (hp : place (vreg s c a).toNat = some (.shared o))
    (h : (vreg s c a).toNat % 8 ≠ 0) : Faulting s c 3 (tsxAtomic op c d a b) := by
  simp only [Faulting, tsxAtomic, hp, if_pos h]
  rfl

theorem faulting_atomic_below {op : Word → Word → Word} {b : Nat} (h : (vreg s c a).toNat < 0x10000) :
    Faulting s c 2 (tsxAtomic op c d a b) := by
  rw [Faulting, tsxAtomic]
  dsimp only
  split
  case h_1 o hp => exact absurd hp (place_not_shared h o)
  case h_2 => rfl

theorem branchTarget_below {pc off16 : Nat} (h : (pc : Int) + 4 * toSigned 16 off16 < 0) : branchTarget pc off16 = none :=
  if_neg fun hr => absurd hr.1 (not_le.mpr h)

theorem faulting_branch_below {off16 : Nat} (h : (pcOf s c : Int) + 4 * toSigned 16 off16 < 0) :
    Faulting s c 2 (tsxB c 0 off16) := by
  have htake : takeBranch s c off16 = coreFault s c (pcOf s c) fBADADDR := by rw [takeBranch, branchTarget_below h]
  exact htake

theorem faulting_bl_below {off16 : Nat} (h : (pcOf s c : Int) + 4 * toSigned 16 off16 < 0) : Faulting s c 2 (tsxBl c off16) := by
  rw [Faulting, tsxBl, branchTarget_below h]
  rfl

/-! ### What a squashed region gives back -/

/-- Of `s`, the streams alone differ in `t`, and of each no more than the held count. -/
def ArmsOnly (s t : State) : Prop := t = { s with streams := t.streams } ∧ ∀ k, (streamAt t k).tentCore = (streamAt s k).tentCore

theorem ArmsOnly.refl (s : State) : ArmsOnly s s := ⟨rfl, fun _ => rfl⟩

theorem ArmsOnly.trans (h : ArmsOnly s t) (h' : ArmsOnly t u) : ArmsOnly s u := by
  refine ⟨?_, fun k => (h'.2 k).trans (h.2 k)⟩
  rw [h'.1, h.1]

theorem streamAt_setStream (s : State) (k j : Nat) (v : StreamSt) : streamAt (setStream s k v) j = if j = k then v else streamAt s j := by
  unfold streamAt setStream
  by_cases h : j = k
  · subst h
    rw [if_pos rfl]
    exact sget_sset_same _ _ _ _
  · rw [if_neg h]
    exact sget_sset_ne _ _ _ _ h

theorem armsOnly_setStream {k : Nat} {v : StreamSt} (h : v.tentCore = (streamAt s k).tentCore) : ArmsOnly s (setStream s k v) := by
  refine ⟨rfl, fun j => ?_⟩
  rw [streamAt_setStream]
  split
  case isTrue hj => rw [h, hj]
  case isFalse => rfl

theorem heldEnds_armsOnly (s : State) (c : Nat) (commits : Bool) : ArmsOnly s (heldEnds s c commits) := by
  refine foldl_frame ArmsOnly.refl ArmsOnly.trans (fun u k => ?_) _ s
  dsimp only
  split
  · split
    · exact armsOnly_setStream rfl
    · exact ArmsOnly.refl u
  · exact ArmsOnly.refl u

theorem squashDescs_of_none (h : ∀ d ∈ s.descs, d.region ≠ some c) : squashDescs s c = s := by
  have hmine : (s.descs.any fun d => d.region == some c) = false := by
    simpa using h
  have hmap : s.descs.map (fun d => if d.region == some c then { d with region := none, ended := some .squashed, moved := true } else d)
      = s.descs := by
    refine (List.map_congr_left (g := id) fun d hd => ?_).trans (List.map_id _)
    simp [h d hd]
  simp only [squashDescs, hmine, hmap]
  rfl

theorem filter_tent_of_none (h : ∀ f ∈ s.frames, f.tent ≠ some c) :
    (s.frames.filter fun f => f.tent == some c) = [] ∧ (s.frames.filter fun f => f.tent != some c) = s.frames := by
  constructor
  · simpa using h
  · simpa using h

theorem ArmsOnly.tentStreams (h : ArmsOnly s t) : tentStreams t c = tentStreams s c := by
  unfold Machine.tentStreams
  simp only [h.2]

theorem squashArms_of_none (hframes : ∀ f ∈ s.frames, f.tent ≠ some c) (hstreams : tentStreams s c = []) :
    squashArms s c = heldEnds s c false := by
  have harms := heldEnds_armsOnly s c false
  have hsame : (heldEnds s c false).frames = s.frames := by
    have e := congrArg State.frames harms.1; exact e
  obtain ⟨hgone, hkept⟩ := filter_tent_of_none (s := heldEnds s c false) (c := c) (by rw [hsame]; exact hframes)
  have htent : tentStreams (heldEnds s c false) c = [] := harms.tentStreams.trans hstreams
  unfold squashArms
  dsimp only
  rw [hgone, hkept, List.foldl_nil, htent, List.foldl_nil]

theorem squashRuns_of_none (h : ∀ r ∈ s.podRuns, r.region ≠ some c) : squashRuns s c = s := by
  have hnone : (s.podRuns.filter fun r => r.region == some c) = [] := by simpa using h
  rw [squashRuns, hnone, List.foldl_nil]

/-- Where no block holds a tentative action, a squash takes back no more than held counts. -/
theorem squashActions_of_none (h : NoTentative s c) : ArmsOnly s (squashActions s c) := by
  obtain ⟨hdescs, hframes, hstreams, hruns⟩ := h
  have harms := heldEnds_armsOnly s c false
  have hsame : (heldEnds s c false).podRuns = s.podRuns := by
    have e := congrArg State.podRuns harms.1; exact e
  rw [squashActions, squashDescs_of_none hdescs, squashArms_of_none hframes hstreams,
    squashRuns_of_none (by rw [hsame]; exact hruns)]
  exact harms

/-- The saved values return to v1 to v15. -/
def restoreV (s : State) (c : Nat) (saved : List Nat) : State :=
  saved.zipIdx.foldl (fun s p => wr s F.SQ_VREG_VALUE (c * 16 + p.2 + 1) p.1) s

theorem rd_restoreV_ne {f : Field} {i : Nat} (s : State) (c : Nat) (saved : List Nat) (hf : F.SQ_VREG_VALUE.fid % 1024 ≠ f.fid % 1024) :
    rd (restoreV s c saved) f i = rd s f i :=
  Touches.foldl (fs := [F.SQ_VREG_VALUE]) _ _ (fun _ _ => Touches.refl.wr _ _ _ (by simp)) s f i (by simpa using hf)

theorem restoreV_regsOnly (s : State) (c : Nat) (saved : List Nat) : RegsOnly s (restoreV s c saved) :=
  foldl_frame RegsOnly.refl (fun h h' => by unfold RegsOnly at *; rw [h', h]) (fun u p => (RegsOnly.refl u).wr _ _ _) _ s

/-- Written one by one from index `k` on, every saved value stands in its register. -/
theorem rd_restoreV_from (saved : List Nat) (k : Nat) (s : State) {j : Nat} (hj : j < saved.length) :
    rd ((saved.zipIdx k).foldl (fun s p => wr s F.SQ_VREG_VALUE (c * 16 + p.2 + 1) p.1) s) F.SQ_VREG_VALUE (c * 16 + (k + j) + 1)
      = saved.getD j 0 % 2 ^ 64 := by
  have hlater : ∀ (l : List Nat) (m : Nat) (u : State) (i : Nat), i < m →
      rd ((l.zipIdx m).foldl (fun s p => wr s F.SQ_VREG_VALUE (c * 16 + p.2 + 1) p.1) u) F.SQ_VREG_VALUE (c * 16 + i + 1)
        = rd u F.SQ_VREG_VALUE (c * 16 + i + 1) := by
    intro l
    induction l with
    | nil => exact fun _ _ _ _ => rfl
    | cons x l ih =>
      intro m u i hi
      rw [List.zipIdx_cons, List.foldl_cons, ih _ _ _ (by omega), rd_wr_inst _ _ _ _ (by omega)]
  induction saved generalizing k s j with
  | nil => simp at hj
  | cons x saved ih =>
    rw [List.zipIdx_cons, List.foldl_cons]
    cases j with
    | zero =>
      exact (hlater saved (k + 1) _ k (by omega)).trans (rd_wr_same s F.SQ_VREG_VALUE (c * 16 + k + 1) x)
    | succ j =>
      have hnext := ih (k + 1) (wr s F.SQ_VREG_VALUE (c * 16 + k + 1) x) (j := j) (by simpa using hj)
      rw [show k + 1 + j = k + (j + 1) by omega] at hnext
      exact hnext

theorem rd_restoreV {saved : List Nat} {j : Nat} (s : State) (hj : j < saved.length) :
    rd (restoreV s c saved) F.SQ_VREG_VALUE (c * 16 + j + 1) = saved.getD j 0 % 2 ^ 64 := by
  have h := rd_restoreV_from (c := c) saved 0 s hj
  rwa [Nat.zero_add] at h

/-- The core without its region, once the actions of the region are taken back. -/
def regionGone (s : State) (c : Nat) : State :=
  setCore s c { coreAt s c with region := none, storeQ := (coreAt s c).storeQ.filter fun q => !q.tentative }

theorem regionGone_regs (s : State) (c : Nat) : (regionGone s c).regs = s.regs := rfl

theorem squashRegion_of {r : Region} (h : (coreAt s c).region = some r) : squashRegion s c =
    wr (wr (restoreV (regionGone (squashActions (bump s F.SQ_SPEC_SQUASHED_COUNT c) c) c) c r.savedV) F.SQ_LK_VALUE c r.savedLk)
      F.SQ_FLAGS_ZNCV c r.savedFlags := by
  unfold squashRegion
  rw [h]
  rfl

theorem NoTentative.bump (h : NoTentative s c) (f : Field) (i : Nat) : NoTentative (bump s f i) c := h

/-- A squash without tentative actions: the region is gone, counted, and v1 to v15, lk and the flags are as saved. -/
structure Squashed (s : State) (c : Nat) (r : Region) (u : State) : Prop where
  region : (coreAt u c).region = none
  recipe : (coreAt u c).recipe = (coreAt s c).recipe
  stepping : (coreAt u c).stepping = (coreAt s c).stepping
  count : rd u F.SQ_SPEC_SQUASHED_COUNT c = min (rd s F.SQ_SPEC_SQUASHED_COUNT c + 1) (2 ^ 32 - 1)
  regs : ∀ j, j < 15 → rd u F.SQ_VREG_VALUE (c * 16 + j + 1) = r.savedV.getD j 0 % 2 ^ 64
  lk : rd u F.SQ_LK_VALUE c = r.savedLk % 2 ^ 64
  flags : rd u F.SQ_FLAGS_ZNCV c = r.savedFlags % 16

theorem squashed_of {r : Region} (h : (coreAt s c).region = some r) (hlen : r.savedV.length = 15) (hnone : NoTentative s c) :
    Squashed s c r (squashRegion s c) := by
  let u := squashActions (bump s F.SQ_SPEC_SQUASHED_COUNT c) c
  have harms : ArmsOnly (bump s F.SQ_SPEC_SQUASHED_COUNT c) u := squashActions_of_none (hnone.bump _ _)
  have hregs : u.regs = (bump s F.SQ_SPEC_SQUASHED_COUNT c).regs := by
    have e := congrArg State.regs harms.1; exact e
  have hcores : u.cores = s.cores := by
    have e := congrArg State.cores harms.1; exact e
  have hcore : coreAt u c = coreAt s c := by unfold coreAt; rw [hcores]
  have hall : coreAt (squashRegion s c) c = { coreAt s c with region := none, storeQ := (coreAt s c).storeQ.filter fun q => !q.tentative } := by
    rw [squashRegion_of h]
    show coreAt (restoreV (regionGone u c) c r.savedV) c = _
    rw [(restoreV_regsOnly _ _ _).coreAt, regionGone, coreAt_setCore_same, hcore]
  refine
    { region := by rw [hall]
      recipe := by rw [hall]
      stepping := by rw [hall]
      count := ?_
      regs := fun j hj => ?_
      lk := ?_
      flags := ?_ }
  all_goals rw [squashRegion_of h]
  · rw [rd_wr_field _ _ _ _ _ _ (by decide), rd_wr_field _ _ _ _ _ _ (by decide), rd_restoreV_ne _ _ _ (by decide)]
    rw [rd_congr (regionGone_regs u c), rd_congr hregs, rd_bump]
    rfl
  · rw [rd_wr_field _ _ _ _ _ _ (by decide), rd_wr_field _ _ _ _ _ _ (by decide), rd_restoreV _ (by omega)]
  · rw [rd_wr_field _ _ _ _ _ _ (by decide), rd_wr_same]
    rfl
  · rw [rd_wr_same]
    rfl

/-! ### A nested spec -/

theorem recipeAbort_of_none (h : (coreAt s c).recipe = none) : recipeAbort s c = s := by
  unfold recipeAbort
  rw [h]

/-- What a fault writes after the squash of the open region. -/
theorem rd_coreFault_of_squash {f : Field} (i : Nat) (hrecipe : (coreAt (squashRegion s c) c).recipe = none)
    (hf : ∀ g ∈ [F.SQ_STATUS_STATE, F.SQ_STATUS_FAULT, F.SQ_FAULT_PC_PC, F.SQ_IRQ_STATUS_EVT], g.fid % 1024 ≠ f.fid % 1024) :
    rd (coreFault s c pc cause) f i = rd (squashRegion s c) f i := by
  rw [coreFault, recipeAbort_of_none hrecipe]
  rw [sqIrq, setBit_eq, rd_wr_field _ _ _ _ _ _ (hf _ (by simp)), rd_wr_field _ _ _ _ _ _ (hf _ (by simp)),
    rd_wr_field _ _ _ _ _ _ (hf _ (by simp)), setSqState, rd_wr_field _ _ _ _ _ _ (hf _ (by simp))]
  rfl

theorem answers_nestedSpec {r : Region} {k rdl off16 : Nat} (hr : Ready s c) (hrecipe : (coreAt s c).recipe = none)
    (hregion : (coreAt s c).region = some r) (hlen : r.savedV.length = 15) : Answers (exec (.spec c k rdl off16) s) fun t =>
      sqState t c = sqFAULTED ∧ rd t F.SQ_STATUS_FAULT c = 4 ∧ rd t F.SQ_FAULT_PC_PC c = pcOf s c
      ∧ hasBit t F.SQ_IRQ_STATUS_EVT c 1 = true
      ∧ (NoTentative s c → (coreAt t c).region = none
        ∧ rd t F.SQ_SPEC_SQUASHED_COUNT c = min (rd s F.SQ_SPEC_SQUASHED_COUNT c + 1) (2 ^ 32 - 1)
        ∧ (∀ j, j < 15 → (vreg t c (j + 1)).toNat = r.savedV.getD j 0 % 2 ^ 64)
        ∧ rd t F.SQ_LK_VALUE c = r.savedLk % 2 ^ 64 ∧ rd t F.SQ_FLAGS_ZNCV c = r.savedFlags % 16) := by
  have hspec : tsxSpec c k rdl off16 s = coreFault s c (pcOf s c) fNEST := if_pos (by rw [hregion]; rfl)
  refine answers_coreFault (f := tsxSpec c k rdl off16) hr hspec fun t ht => ?_
  obtain ⟨hstate, hat, hwhy⟩ := faultedAt_coreFault s c (pc := pcOf s c) (cause := fNEST) (lt_trans hr.pc_lt (by decide)) (by decide)
  refine ⟨(ht.sqState c).trans hstate, (ht.rd _ _).trans hwhy, (ht.rd _ _).trans hat, (ht.hasBit _ _ _).trans (hasBit_coreFault ..),
    fun hnone => ?_⟩
  have hsq := squashed_of hregion hlen hnone
  have hnorecipe : (coreAt (squashRegion s c) c).recipe = none := hsq.recipe.trans hrecipe
  have hrd := fun (f : Field) i hf => (ht.rd f i).trans (rd_coreFault_of_squash (pc := pcOf s c) (cause := fNEST) i hnorecipe hf)
  refine ⟨?_, (hrd _ _ (by decide)).trans hsq.count, fun j hj => ?_, (hrd _ _ (by decide)).trans hsq.lk,
    (hrd _ _ (by decide)).trans hsq.flags⟩
  · rw [ht.coreAt, coreAt_coreFault, recipeAbort_of_none hnorecipe]
    exact hsq.region
  · have hv : vreg t c (j + 1) = BitVec.ofNat 64 (rd t F.SQ_VREG_VALUE (c * 16 + j + 1)) := by
      have hj16 : (j + 1) % 16 = j + 1 := Nat.mod_eq_of_lt (by omega)
      simp [vreg, hj16, Nat.add_assoc]
    rw [hv, hrd _ _ (by decide), hsq.regs j hj]
    simp

end

/-- Settles O20: each faulting instruction is `coreFault` at its own address. -/
theorem coreFaultsRecordCauseAndPc : Obligations.CoreFaultsRecordCauseAndPc := by
  intro s c d a hr hrecipe
  refine ⟨fun hregion => ?_, fun r k rdl off16 hregion hlen => answers_nestedSpec hr hrecipe hregion hlen⟩
  intro faults
  have hfault : ∀ (f : State → State) (i : Instr) (cause : Nat), (∀ s, exec i s = onCore c f s) → cause < 2 ^ F.SQ_STATUS_FAULT.width →
      Faulting s c cause f → faults i cause := by
    intro f i cause hexec hcause hf
    show Answers (exec i s) _
    rw [hexec]
    exact (answers_faults hr hregion hrecipe hcause hf).imp fun t h =>
      ⟨h.state, h.fault, h.faultPc, h.irq, h.storeQ, h.regs, h.rest⟩
  clear_value faults
  refine ⟨fun v => ?_, fun v hda => ?_, fun v hv => ?_, fun off16 => ?_, fun imm16 => ?_, fun h => ?_, fun halign h => ?_,
    fun b o hp h => ?_, fun b h => ?_, fun off16 h => ?_⟩
  · simp only [List.mem_cons, List.not_mem_nil, or_false, forall_eq_or_imp, forall_eq]
    exact ⟨hfault (tsxAnd c d a (.acc v)) _ 1 (fun _ => rfl) (by decide) (faulting_logic_acc v),
      hfault (tsxOr c d a (.acc v)) _ 1 (fun _ => rfl) (by decide) (faulting_logic_acc v),
      hfault (tsxXor c d a (.acc v)) _ 1 (fun _ => rfl) (by decide) (faulting_logic_acc v),
      hfault (tsxMul c d a (.acc v)) _ 1 (fun _ => rfl) (by decide) (faulting_logic_acc v)⟩
  · exact ⟨hfault (tsxAdd c d a (.acc v)) _ 1 (fun _ => rfl) (by decide) (faulting_add_acc v hda),
      hfault (tsxSub c d a (.acc v)) _ 1 (fun _ => rfl) (by decide) (faulting_sub_acc v hda)⟩
  · simp only [List.mem_cons, List.not_mem_nil, or_false, forall_eq_or_imp, forall_eq]
    exact ⟨hfault (tsxShl c d a (.imm v)) _ 1 (fun _ => rfl) (by decide) (faulting_shl_wide hv),
      hfault (tsxShr c d a (.imm v)) _ 1 (fun _ => rfl) (by decide) (faulting_shr_wide hv),
      hfault (tsxSar c d a (.imm v)) _ 1 (fun _ => rfl) (by decide) (faulting_sar_wide hv)⟩
  · exact hfault (tsxB c 15 off16) _ 1 (fun _ => rfl) (by decide) (faulting_noCondition off16)
  · intro ad
    refine ⟨fun hout => ?_, fun hbeyond => ⟨?_, ?_⟩, fun hin => ⟨fun h => ⟨?_, ?_⟩, fun h => ⟨?_, ?_⟩⟩, fun ha => ?_⟩
    · have hload : ∀ n signed i, (∀ s, exec i s = onCore c (tsxLoad n signed c d a imm16) s) → faults i 2 :=
        fun n signed i hexec => hfault _ i 2 hexec (by decide) (faulting_load_outside hout)
      have hstore : ∀ n i, (∀ s, exec i s = onCore c (tsxStore n c d a imm16) s) → faults i 2 :=
        fun n i hexec => hfault _ i 2 hexec (by decide) (faulting_store_outside hout)
      simp only [List.mem_cons, List.not_mem_nil, or_false, forall_eq_or_imp, forall_eq]
      exact ⟨hload 1 false _ fun _ => rfl, hload 2 false _ fun _ => rfl, hload 4 false _ fun _ => rfl, hload 8 false _ fun _ => rfl,
        hload 1 true _ fun _ => rfl, hload 2 true _ fun _ => rfl, hload 4 true _ fun _ => rfl, hstore 1 _ fun _ => rfl,
        hstore 2 _ fun _ => rfl, hstore 4 _ fun _ => rfl, hstore 8 _ fun _ => rfl⟩
    · exact hfault (tsxRdev 4 c d a imm16) _ 2 (fun _ => rfl) (by decide) (faulting_rdev_beyond hbeyond)
    · exact hfault (tsxWdev 8 c d a imm16) _ 2 (fun _ => rfl) (by decide) (faulting_wdev_beyond hbeyond)
    · exact hfault (tsxRdev 4 c d a imm16) _ 3 (fun _ => rfl) (by decide) (faulting_rdev_misaligned hin h)
    · exact hfault (tsxWdev 4 c d a imm16) _ 3 (fun _ => rfl) (by decide) (faulting_wdev_misaligned hin h)
    · exact hfault (tsxRdev 8 c d a imm16) _ 3 (fun _ => rfl) (by decide) (faulting_rdev_misaligned hin h)
    · exact hfault (tsxWdev 8 c d a imm16) _ 3 (fun _ => rfl) (by decide) (faulting_wdev_misaligned hin h)
    · have hload : ∀ n signed i, (∀ s, exec i s = onCore c (tsxLoad n signed c d a imm16) s) → ad % n ≠ 0 → faults i 3 :=
        fun n signed i hexec h => hfault _ i 3 hexec (by decide) (faulting_load_misaligned ha h)
      have hstore : ∀ n i, (∀ s, exec i s = onCore c (tsxStore n c d a imm16) s) → ad % n ≠ 0 → faults i 3 :=
        fun n i hexec h => hfault _ i 3 hexec (by decide) (faulting_store_misaligned ha h)
      simp only [List.mem_cons, List.not_mem_nil, or_false, forall_eq_or_imp, forall_eq]
      exact ⟨hload 2 false _ fun _ => rfl, hload 4 false _ fun _ => rfl, hload 8 false _ fun _ => rfl, hload 2 true _ fun _ => rfl,
        hload 4 true _ fun _ => rfl, hstore 2 _ fun _ => rfl, hstore 4 _ fun _ => rfl, hstore 8 _ fun _ => rfl⟩
  · exact hfault (tsxJr c a) _ 3 (fun _ => rfl) (by decide) (faulting_jr_misaligned h)
  · exact hfault (tsxJr c a) _ 2 (fun _ => rfl) (by decide) (faulting_jr_beyond halign h)
  · exact ⟨hfault (tsxAadd c d a b) _ 3 (fun _ => rfl) (by decide) (faulting_atomic_misaligned hp h),
      hfault (tsxAxch c d a b) _ 3 (fun _ => rfl) (by decide) (faulting_atomic_misaligned hp h)⟩
  · exact hfault (tsxAadd c d a b) _ 2 (fun _ => rfl) (by decide) (faulting_atomic_below h)
  · exact ⟨hfault (tsxBl c off16) _ 2 (fun _ => rfl) (by decide) (faulting_bl_below h),
      hfault (tsxB c 0 off16) _ 2 (fun _ => rfl) (by decide) (faulting_branch_below h)⟩

end Sys2Proof.Machine
end

section
/-! What ends a stall of a core (R66, R81, R86 to R95, R117 to R120, R141, R145) and the event inputs (R82, R488). -/
open Sys2Proof
namespace Sys2Proof.Machine

section
variable {s t u : State} {c d : Nat}

/-! ### A core that goes on -/

/-- Core `c` of `u` issues again after the instruction that held it; nothing else of `u` has changed. -/
structure GoesOn (u : State) (c : Nat) (t : State) : Prop where
  state : sqState t c = sqRUNNING
  core : coreAt t c = { coreAt u c with stall := .none, stepping := false }
  pc : pcOf t c = pcOf u c + 4
  others : ∀ f i, F.SQ_STATUS_STATE.key c ≠ f.key i → F.SQ_PC_PC.key c ≠ f.key i → rd t f i = rd u f i
  rest : Settled { u with regs := t.regs, cores := t.cores } t

/-- The state in which core `c` of `u` issues again. -/
def released (u : State) (c : Nat) : State :=
  setSqState (setCore u c { coreAt u c with stall := .none, stepping := false }) c sqRUNNING

theorem resume_eq (hstep : (coreAt u c).stepping = false) : resume u c = released u c := by
  unfold resume released
  dsimp only
  rw [hstep]
  rfl

theorem coreAt_released (u : State) (c : Nat) : coreAt (released u c) c = { coreAt u c with stall := .none, stepping := false } :=
  coreAt_setCore_same u c _

theorem rd_released_ne {f : Field} {i : Nat} (hf : F.SQ_STATUS_STATE.key c ≠ f.key i) : rd (released u c) f i = rd u f i :=
  (rd_wr_ne _ _ _ _ _ _ hf).trans (rd_congr rfl f i)

theorem sqState_released (u : State) (c : Nat) : sqState (released u c) c = sqRUNNING := by
  unfold sqState released setSqState
  rw [rd_wr_same]
  rfl

theorem pcOf_released (u : State) (c : Nat) : pcOf (released u c) c = pcOf u c := by
  unfold pcOf
  rw [rd_released_ne]
  exact fun e => absurd ((key_eq_iff ..).mp e).1 (by decide)

theorem advance_resume (hstep : (coreAt u c).stepping = false) (hpc : pcOf u c < 0x7FFC) :
    advance (resume u c) c = setPc (released u c) c (pcOf u c + 4) := by
  rw [resume_eq hstep, advance_of_lt (by rwa [pcOf_released]), pcOf_released]

/-- A settled state of `u` with other registers and cores. -/
theorem Settled.rest_of_cores {v : State} (ht : Settled v t) (hv : v = { u with regs := v.regs, cores := v.cores }) :
    Settled { u with regs := t.regs, cores := t.cores } t := by
  rw [ht.regs, ht.cores]
  rwa [hv] at ht

theorem released_rest (u : State) (c a : Nat) : setPc (released u c) c a =
    { u with regs := (setPc (released u c) c a).regs, cores := (setPc (released u c) c a).cores } := rfl

/-- A core that goes on, as a settled state shows it. -/
theorem goesOn_of_settled (hstep : (coreAt u c).stepping = false) (hpc : pcOf u c < 0x7FFC)
    (ht : Settled (advance (resume u c) c) t) : GoesOn u c t := by
  rw [advance_resume hstep hpc] at ht
  refine
    { state := ?_
      core := by rw [ht.coreAt, coreAt_setPc, coreAt_released]
      pc := ?_
      others := fun f i hs hp => ?_
      rest := ht.rest_of_cores (released_rest ..) }
  · rw [ht.sqState, sqState_setPc, sqState_released]
  · rw [ht.pcOf]
    have h := pcOf_setPc_next (u := released u c) (c := c) (by rwa [pcOf_released])
    rwa [pcOf_released] at h
  · rw [ht.rd, setPc, rd_wr_ne _ _ _ _ _ _ hp, rd_released_ne hs]

namespace GoesOn

variable (h : GoesOn u c t)
include h

theorem stall : (coreAt t c).stall = .none := by rw [h.core]

theorem other {f : Field} (i : Nat) (hs : F.SQ_STATUS_STATE.fid % 1024 ≠ f.fid % 1024) (hp : F.SQ_PC_PC.fid % 1024 ≠ f.fid % 1024) :
    rd t f i = rd u f i :=
  h.others f i (fun e => hs ((key_eq_iff ..).mp e).1) fun e => hp ((key_eq_iff ..).mp e).1

theorem flags : flagsOf t c = flagsOf u c := by
  unfold flagsOf
  rw [h.other c (by decide) (by decide)]

theorem vreg (d : Nat) : vreg t c d = vreg u c d := by
  unfold Machine.vreg
  rw [h.other _ (by decide) (by decide)]

theorem keeps {ks : List (Field × Nat)} {s : State} (hu : Keeps ks s u) (hs : (F.SQ_STATUS_STATE, c) ∈ ks) (hp : (F.SQ_PC_PC, c) ∈ ks) :
    Keeps ks s t := fun f i hf => (h.others f i (hf _ hs) (hf _ hp)).trans (hu f i hf)

end GoesOn

/-! ### Waits (R81, R118 to R120) -/

theorem orSquash_of_noRegion (h : NoRegion s c) (f : State → State) : orSquash s c f = f s := by
  unfold orSquash
  rw [show (coreAt s c).region = none from h]

theorem isGuardWait_of_noRegion (h : NoRegion s c) (kind idx : Nat) : isGuardWait s c kind idx = false := by
  unfold isGuardWait
  rw [show (coreAt s c).region = none from h]

/-- What a wait that ends writes before its core goes on. -/
def waitFlags (s : State) (c : Nat) (past byDeadline : Bool) : State :=
  setFlags s c { flagsOf s c with z := byDeadline, n := past }

theorem endWait_keeping {kind idx : Nat} {past byDeadline : Bool} (h : kind ≠ 1 ∨ byDeadline = true) :
    endWait s c kind idx past byDeadline = advance (resume (waitFlags s c past byDeadline) c) c := by
  have hno : ¬ (kind = 1 ∧ (!byDeadline) = true ∧ (!isGuardWait s c kind idx) = true) := by
    rcases h with hk | hb
    · exact fun ⟨h1, _⟩ => hk h1
    · rw [hb]
      exact fun ⟨_, h2, _⟩ => by cases h2
  unfold endWait
  rw [if_neg hno]
  rfl

theorem endWait_event {idx : Nat} {past : Bool} (h : NoRegion s c) : endWait s c 1 idx past false =
    advance (resume (waitFlags (clearBits s F.SQ_STATUS_EV_PENDING c (2 ^ idx)) c past false) c) c := by
  unfold endWait
  rw [if_pos ⟨rfl, rfl, by rw [isGuardWait_of_noRegion h]; rfl⟩]
  rfl

theorem goesOn_waitFlags {past byDeadline : Bool} (hstep : (coreAt s c).stepping = false) (hpc : pcOf s c < 0x7FFC)
    (ht : Settled (advance (resume (waitFlags s c past byDeadline) c) c) t) :
    sqState t c = sqRUNNING ∧ (coreAt t c).stall = .none ∧ (flagsOf t c).z = byDeadline ∧ (flagsOf t c).n = past
    ∧ pcOf t c = pcOf s c + 4 ∧ Keeps [(F.SQ_STATUS_STATE, c), (F.SQ_PC_PC, c), (F.SQ_FLAGS_ZNCV, c)] s t := by
  have hgo := goesOn_of_settled (u := waitFlags s c past byDeadline) hstep (by rwa [waitFlags, pcOf_setFlags]) ht
  refine ⟨hgo.state, hgo.stall, ?_, ?_, ?_, hgo.keeps ((Keeps.refl _ s).setFlags _ _ (by simp)) (by simp) (by simp)⟩
  · rw [hgo.flags, waitFlags, flagsOf_setFlags]
  · rw [hgo.flags, waitFlags, flagsOf_setFlags]
  · rw [hgo.pc, waitFlags, pcOf_setFlags]

theorem answers_waitEnd_tb {value : Nat} {past : Bool} (hc : c < 8) (hworks : blockWorks s 15 = true) (hpc : pcOf s c < 0x7FFC)
    (hstep : (coreAt s c).stepping = false) (hregion : NoRegion s c) (hstall : (coreAt s c).stall = .wait 0 0 value none past)
    (htb : value ≤ s.tb) : Answers (exec (.waitEnd c) s) fun t =>
      sqState t c = sqRUNNING ∧ (coreAt t c).stall = .none ∧ (flagsOf t c).z = false ∧ (flagsOf t c).n = past
      ∧ pcOf t c = pcOf s c + 4 ∧ Keeps [(F.SQ_STATUS_STATE, c), (F.SQ_PC_PC, c), (F.SQ_FLAGS_ZNCV, c)] s t := by
  refine answers_onBlock hc hworks fun t ht => goesOn_waitFlags hstep hpc ?_
  have hholds : waitHolds s c 0 0 value = true := decide_eq_true htb
  have hend : waitEnd s c = endWait s c 0 0 past false := by
    unfold waitEnd
    rw [hstall]
    dsimp only
    rw [if_pos hholds, orSquash_of_noRegion hregion]
    rfl
  rwa [hend, endWait_keeping (.inl (by decide))] at ht

theorem answers_waitEnd_ev {k value : Nat} {past : Bool} (hc : c < 8) (hworks : blockWorks s 15 = true) (hpc : pcOf s c < 0x7FFC)
    (hstep : (coreAt s c).stepping = false) (hregion : NoRegion s c) (hk : k < 4)
    (hstall : (coreAt s c).stall = .wait 1 k value none past) (hev : hasBit s F.SQ_STATUS_EV_PENDING c k = true) :
    Answers (exec (.waitEnd c) s) fun t =>
      sqState t c = sqRUNNING ∧ (coreAt t c).stall = .none ∧ (flagsOf t c).z = false
      ∧ hasBit t F.SQ_STATUS_EV_PENDING c k = false ∧ pcOf t c = pcOf s c + 4 := by
  refine answers_onBlock hc hworks fun t ht => ?_
  have hholds : waitHolds s c 1 k value = true := hev
  have hend : waitEnd s c = endWait s c 1 k past false := by
    unfold waitEnd
    rw [hstall]
    dsimp only
    rw [if_pos hholds, orSquash_of_noRegion hregion]
    rfl
  rw [hend, endWait_event hregion] at ht
  have hpc' : pcOf (clearBits s F.SQ_STATUS_EV_PENDING c (2 ^ k)) c = pcOf s c :=
    congrArg (4 * ·) (rd_wr_field _ _ _ _ _ _ (by decide))
  obtain ⟨hstate, hnone, hz, -, hnext, hkeeps⟩ := goesOn_waitFlags (s := clearBits s F.SQ_STATUS_EV_PENDING c (2 ^ k)) hstep
    (by rwa [hpc']) ht
  refine ⟨hstate, hnone, hz, ?_, hnext.trans (by rw [hpc'])⟩
  have hbits : rd t F.SQ_STATUS_EV_PENDING c = rd (clearBits s F.SQ_STATUS_EV_PENDING c (2 ^ k)) F.SQ_STATUS_EV_PENDING c := by
    refine hkeeps _ _ ?_
    simp only [List.mem_cons, List.not_mem_nil, or_false, forall_eq_or_imp, forall_eq]
    exact ⟨fun e => absurd ((key_eq_iff ..).mp e).1 (by decide), fun e => absurd ((key_eq_iff ..).mp e).1 (by decide),
      fun e => absurd ((key_eq_iff ..).mp e).1 (by decide)⟩
  rw [hasBit, hbits, ← hasBit, hasBit_clearBits _ _ _ _ _ hk, Nat.testBit_two_pow_self, Bool.not_true, Bool.and_false]

theorem answers_waitDeadline {kind idx value : Nat} {past : Bool} (hc : c < 8) (hworks : blockWorks s 15 = true)
    (hpc : pcOf s c < 0x7FFC) (hstep : (coreAt s c).stepping = false) (hregion : NoRegion s c)
    (hstall : (coreAt s c).stall = .wait kind idx value (some s.tb) past) (hholds : waitHolds s c kind idx value = false) :
    Answers (exec (.waitDeadline c) s) fun t =>
      sqState t c = sqRUNNING ∧ (coreAt t c).stall = .none ∧ (flagsOf t c).z = true ∧ pcOf t c = pcOf s c + 4
      ∧ Keeps [(F.SQ_STATUS_STATE, c), (F.SQ_PC_PC, c), (F.SQ_FLAGS_ZNCV, c)] s t := by
  refine answers_onBlock hc hworks fun t ht => ?_
  have hend : waitDeadline s c = endWait s c kind idx past true := by
    unfold waitDeadline
    rw [hstall]
    dsimp only
    rw [if_pos (le_refl _), orSquash_of_noRegion hregion, hholds]
    rfl
  rw [hend, endWait_keeping (.inr rfl)] at ht
  obtain ⟨hstate, hnone, hz, -, hnext, hkeeps⟩ := goesOn_waitFlags hstep hpc ht
  exact ⟨hstate, hnone, hz, hnext, hkeeps⟩

/-! ### Stores, dsync, dmaq and SYNC sends that stall -/

theorem answers_storeQueueRoom {q : Req} (hc : c < 8) (hworks : blockWorks s 15 = true) (hpc : pcOf s c < 0x7FFC)
    (hstep : (coreAt s c).stepping = false) (hstall : (coreAt s c).stall = .storeFull q) (hroom : (coreAt s c).storeQ.length < 16) :
    Answers (exec (.storeQueueRoom c) s) fun t =>
      (coreAt t c).storeQ = (coreAt s c).storeQ ++ [q] ∧ (coreAt t c).stall = .none ∧ sqState t c = sqRUNNING
      ∧ pcOf t c = pcOf s c + 4 ∧ Keeps [(F.SQ_STATUS_STATE, c), (F.SQ_PC_PC, c)] s t := by
  refine answers_onBlock hc hworks fun t ht => ?_
  let k : SqCore := { coreAt s c with storeQ := (coreAt s c).storeQ ++ [q] }
  have hcore : coreAt (setCore s c k) c = k := coreAt_setCore_same _ _ _
  have henter : storeQueueRoom s c = advance (resume (setCore s c k) c) c := by
    unfold storeQueueRoom storeEnters
    rw [if_pos hroom]
    dsimp only
    split
    · next p hp =>
      obtain rfl : p = q := by injection hp.symm.trans hstall
      rfl
    · next hne => exact absurd hstall (hne q)
  rw [henter] at ht
  have hgo := goesOn_of_settled (u := setCore s c k) (by rw [hcore]; exact hstep) hpc ht
  exact ⟨by rw [hgo.core, hcore], hgo.stall, hgo.state, hgo.pc, hgo.keeps ((Keeps.refl _ s).of_regs rfl) (by simp) (by simp)⟩

theorem drainAll_of_empty (h : (coreAt s c).storeQ = []) : drainAll s c = s := by
  rw [drainAll, h]
  rfl

theorem answers_dsyncDone (hc : c < 8) (hworks : blockWorks s 15 = true) (hpc : pcOf s c < 0x7FFC)
    (hstep : (coreAt s c).stepping = false) (hstall : (coreAt s c).stall = .dsync) (hempty : (coreAt s c).storeQ = []) :
    Answers (exec (.dsyncDone c) s) fun t =>
      (coreAt t c).stall = .none ∧ sqState t c = sqRUNNING ∧ pcOf t c = pcOf s c + 4
      ∧ Keeps [(F.SQ_STATUS_STATE, c), (F.SQ_PC_PC, c)] s t := by
  refine answers_onBlock hc hworks fun t ht => ?_
  have hend : dsyncDone s c = advance (resume s c) c := by
    unfold dsyncDone
    rw [if_neg (not_not.mpr hstall), drainAll_of_empty hempty, if_pos hstall]
  rw [hend] at ht
  have hgo := goesOn_of_settled hstep hpc ht
  exact ⟨hgo.stall, hgo.state, hgo.pc, hgo.keeps (Keeps.refl _ s) (by simp) (by simp)⟩

/-- What an answer writes before its core goes on: the result word and Z. -/
def answered (s : State) (c d word : Nat) : State :=
  setFlags (setV s c d (BitVec.ofNat 64 word)) c { flagsOf s c with z := decide (word % 65536 = 0) }

theorem goesOn_answer {word : Nat} (hstep : (coreAt s c).stepping = false) (hpc : pcOf s c < 0x7FFC)
    (ht : Settled (answerCore s c d word) t) : GoesOn (answered s c d word) c t ∧ sqState t c = sqRUNNING
      ∧ (coreAt t c).stall = .none ∧ vreg t c d = (if d % 16 = 0 then 0 else BitVec.ofNat 64 word)
      ∧ (flagsOf t c).z = decide (word % 65536 = 0) ∧ pcOf t c = pcOf s c + 4 := by
  have hcore : coreAt (answered s c d word) c = coreAt s c := by rw [answered, coreAt_setFlags, coreAt_setV]
  have hpc' : pcOf (answered s c d word) c = pcOf s c := by rw [answered, pcOf_setFlags, pcOf_setV]
  have hgo := goesOn_of_settled (u := answered s c d word) (by rw [hcore]; exact hstep) (by rwa [hpc']) ht
  refine ⟨hgo, hgo.state, hgo.stall, ?_, ?_, by rw [hgo.pc, hpc']⟩
  · rw [hgo.vreg, answered, vreg_setFlags, vreg_setV]
  · rw [hgo.flags, answered, flagsOf_setFlags]

theorem answers_syncSendEnd {m : Nat} (hc : c < 8) (hworks : blockWorks s 15 = true) (hpc : pcOf s c < 0x7FFC)
    (hstep : (coreAt s c).stepping = false) (hstall : (coreAt s c).stall = .syncSend m d) (hmbx : blockWorks s 3 = true)
    (hempty : isSet s F.MBX_STAT_FULL m = false) : Answers (exec (.syncSendEnd c) s) fun t =>
      (coreAt t c).stall = .none ∧ sqState t c = sqRUNNING ∧ vreg t c d = 0 ∧ (flagsOf t c).z = true
      ∧ pcOf t c = pcOf s c + 4 := by
  refine answers_onUnit hc fun t ht => ?_
  have hend : syncSendEnd s c = answerCore s c d 0 := by
    simp only [syncSendEnd, endSync, hstall, hempty]
    rfl
  rw [hworks, hmbx] at ht
  have ht' : Settled (syncSendEnd s c) t := ht
  rw [hend] at ht'
  obtain ⟨-, hstate, hnone, hv, hz, hnext⟩ := goesOn_answer hstep hpc ht'
  exact ⟨hnone, hstate, hv.trans (by split <;> rfl), hz, hnext⟩

theorem coreAt_noteRegion (f : Region → Region) (h : (coreAt s c).region = none) : coreAt (noteRegion s c f) c = coreAt s c := by
  have hsame : ∀ k : SqCore, k.region = none → { k with region := k.region.map f } = k := by
    rintro ⟨⟩ rfl
    rfl
  exact (coreAt_setCore_same ..).trans (hsame _ h)

theorem pcOf_acceptDesc (dsc : Desc) : pcOf (acceptDesc s dsc) c = pcOf s c :=
  congrArg (4 * ·) (rd_wr_field _ _ _ _ _ _ (by decide))

theorem dmaSubmit_accepted {mid : Nat} {bs : List Nat} {r : Option Nat} (h : dmaAnswer s (newDesc mid bs r none) = none) :
    dmaSubmit s mid bs r = (⟨stOK, false, false, s.dmaNextId⟩, acceptDesc s (newDesc mid bs r none)) := by
  unfold dmaSubmit
  dsimp only
  rw [h]

/-- A dmaq that the engine accepts, outside a region. -/
theorem request_dmaq {bs : List Nat} {e : Bool} (hregion : NoRegion s c) (hreach : blockReach s 16 = true)
    (haccept : dmaAnswer s (newDesc (0x10 + c) (if e then earlyBytes bs else bs) none none) = none) :
    ∃ f, request s c (.dmaq bs e) = (⟨stOK, false, false, s.dmaNextId⟩,
      noteRegion (acceptDesc s (newDesc (0x10 + c) (if e then earlyBytes bs else bs) none none)) c f) := by
  have hnone : (coreAt s c).region = none := hregion
  unfold request blockAnswer coreMid
  dsimp only
  rw [if_pos hreach, hnone, Option.isSome_none, if_neg Bool.false_ne_true, dmaSubmit_accepted haccept]
  dsimp only
  rw [if_pos rfl]
  exact ⟨_, rfl⟩

theorem answered_regsOnly (s : State) (c d word : Nat) : RegsOnly s (answered s c d word) :=
  ((RegsOnly.refl s).setV ..).setFlags ..

theorem answerReq_dmaq (s : State) (c d : Nat) (bs : List Nat) (e : Bool) : answerReq s c (.dmaq bs e) d =
    answerCore (request s c (.dmaq bs e)).2 c d (request s c (.dmaq bs e)).1.word := rfl

theorem answered_descs (s : State) (c d word : Nat) : (answered s c d word).descs = s.descs := by
  have e := congrArg State.descs (answered_regsOnly s c d word); exact e

theorem descs_noteRegion_acceptDesc (dsc : Desc) (f : Region → Region) :
    (noteRegion (acceptDesc s dsc) c f).descs = s.descs ++ [{ dsc with id := s.dmaNextId }] := rfl

theorem answers_dmaqSlotFree {bs : List Nat} {e : Bool} (hc : c < 8) (hworks : blockWorks s 15 = true) (hpc : pcOf s c < 0x7FFC)
    (hstep : (coreAt s c).stepping = false) (hstall : (coreAt s c).stall = .answer (.dmaq bs e) d) (hstate : sqState s c = sqWAITING)
    (hroom : inFlight s < 256) (hregion : NoRegion s c) (hreach : blockReach s 16 = true)
    (haccept : dmaAnswer s (newDesc (0x10 + c) (if e then earlyBytes bs else bs) none none) = none) :
    Answers (exec (.dmaqSlotFree c) s) fun t =>
      t.descs = s.descs ++ [{ newDesc (0x10 + c) (if e then earlyBytes bs else bs) none none with id := s.dmaNextId }]
      ∧ sqState t c = sqRUNNING
      ∧ vreg t c d = (if d % 16 = 0 then 0 else BitVec.ofNat 64 (s.dmaNextId % 65536 * 65536))
      ∧ (flagsOf t c).z = true ∧ pcOf t c = pcOf s c + 4 := by
  refine answers_onBlock hc hworks fun t ht => ?_
  obtain ⟨f, hsub⟩ := request_dmaq hregion hreach haccept
  have hfull : noSlot s (.dmaq bs e) = false := decide_eq_false (by omega)
  have hend : dmaqSlotFree s c = answerReq s c (.dmaq bs e) d := by
    simp only [dmaqSlotFree, hstall, hstate, hfull]
    rfl
  have hword : Answer.word ⟨stOK, false, false, s.dmaNextId⟩ = s.dmaNextId % 65536 * 65536 := by simp [Answer.word, stOK]
  have hcore := coreAt_noteRegion (s := acceptDesc s (newDesc (0x10 + c) (if e then earlyBytes bs else bs) none none)) f hregion
  have hpc' := pcOf_acceptDesc (s := s) (c := c) (newDesc (0x10 + c) (if e then earlyBytes bs else bs) none none)
  have hpcu' : pcOf (noteRegion (acceptDesc s (newDesc (0x10 + c) (if e then earlyBytes bs else bs) none none)) c f) c = _ :=
    pcOf_setCore ..
  have hdescs := descs_noteRegion_acceptDesc (s := s) (c := c) (newDesc (0x10 + c) (if e then earlyBytes bs else bs) none none) f
  generalize noteRegion (acceptDesc s (newDesc (0x10 + c) (if e then earlyBytes bs else bs) none none)) c f = u at *
  rw [hend, answerReq_dmaq, hsub] at ht
  dsimp only at ht
  rw [hword] at ht
  have hcore' : coreAt u c = coreAt s c := hcore
  have hpcu : pcOf u c = pcOf s c := hpcu'.trans hpc'
  obtain ⟨hgo, hrun, -, hv, hz, hnext⟩ := goesOn_answer (by rw [hcore']; exact hstep) (hpcu.trans_lt hpc) ht
  exact ⟨hgo.rest.descs.trans ((answered_descs ..).trans hdescs), hrun, hv, hz.trans (decide_eq_true (by omega)),
    hnext.trans (congrArg (· + 4) hpcu)⟩

/-! ### The end of a region (R92, R93) -/

theorem storeBytes_fold_ramOnly (l : List (Nat × Byte)) (s : State) (c : Nat) :
    RamOnly s (l.foldr (fun e s => storeByte s c e.1 e.2) s) := by
  induction l with
  | nil => exact RamOnly.refl s
  | cons e l ih => exact ih.trans (storeByte_ramOnly ..)

theorem commitDescs_of_none (h : ∀ d ∈ s.descs, d.region ≠ some c) : commitDescs s c = s := by
  have hmine : (s.descs.any fun d => d.region == some c) = false := by
    simpa using h
  have hmap : s.descs.map (fun d => if d.region == some c then { d with region := none } else d) = s.descs := by
    refine (List.map_congr_left (g := id) fun d hd => ?_).trans (List.map_id _)
    simp [h d hd]
  simp only [commitDescs, hmine, hmap]
  rfl

theorem commitRuns_of_none (h : ∀ r ∈ s.podRuns, r.region ≠ some c) : commitRuns s c = s := by
  have hnone : (s.podRuns.filter fun r => r.region == some c) = [] := by simpa using h
  rw [commitRuns, hnone, List.foldl_nil]

theorem commitArms_of_none (hframes : ∀ f ∈ s.frames, f.tent ≠ some c) (hstreams : tentStreams s c = []) :
    commitArms s c = heldEnds s c true := by
  have harms := heldEnds_armsOnly s c true
  have hsame : (heldEnds s c true).frames = s.frames := by
    have e := congrArg State.frames harms.1; exact e
  have hgone := (filter_tent_of_none (s := heldEnds s c true) (c := c) (by rw [hsame]; exact hframes)).1
  unfold commitArms
  dsimp only
  rw [harms.tentStreams.trans hstreams, List.foldl_nil, hgone, List.reverse_nil, List.foldl_nil]

/-- Where no block holds a tentative action, a commit makes no more than held counts final. -/
theorem commitActions_of_none (h : NoTentative s c) : ArmsOnly s (commitActions s c) := by
  obtain ⟨hdescs, hframes, hstreams, hruns⟩ := h
  have harms := heldEnds_armsOnly s c true
  have hsame : (heldEnds s c true).descs = s.descs := by
    have e := congrArg State.descs harms.1; exact e
  have hsame' : (heldEnds s c true).podRuns = s.podRuns := by
    have e := congrArg State.podRuns harms.1; exact e
  rw [commitActions, commitArms_of_none hframes hstreams, commitDescs_of_none (by rw [hsame]; exact hdescs),
    commitRuns_of_none (by rw [hsame']; exact hruns)]
  exact harms

/-- The core without its region, once its actions are final. -/
def regionKept (s : State) (c : Nat) : State :=
  setCore s c { coreAt s c with region := none, storeQ := (coreAt s c).storeQ.map Req.final }

theorem commitRegion_of {r : Region} (h : (coreAt s c).region = some r) : commitRegion s c =
    regionKept (bump (clearBits (commitActions (r.stores.foldr (fun e s => storeByte s c e.1 e.2) s) c) F.SQ_STATUS_EV_PENDING c
      (2 ^ r.guardEv)) F.SQ_SPEC_COMMITTED_COUNT c) c := by
  unfold commitRegion
  rw [h]
  rfl

theorem NoTentative.ramOnly (h : NoTentative s c) (hram : RamOnly s t) : NoTentative t c := by
  unfold RamOnly at hram
  rw [hram]
  exact h

/-- What a region that is kept leaves of its core, where no block holds a tentative action. -/
structure Kept (s : State) (c : Nat) (r : Region) (u : State) : Prop where
  core : coreAt u c = { coreAt s c with region := none, storeQ := (coreAt s c).storeQ.map Req.final }
  pc : pcOf u c = pcOf s c
  guardEv : r.guardEv < 4 → hasBit u F.SQ_STATUS_EV_PENDING c r.guardEv = false

theorem kept_commitRegion {r : Region} (h : (coreAt s c).region = some r) (hnone : NoTentative s c) : Kept s c r (commitRegion s c) := by
  rw [commitRegion_of h]
  have hram := storeBytes_fold_ramOnly r.stores s c
  have harms := commitActions_of_none (hnone.ramOnly hram)
  revert harms
  generalize commitActions _ c = v
  intro harms
  have hregs : v.regs = s.regs := by
    have e := congrArg State.regs harms.1; exact e.trans hram.regs
  have hcores : v.cores = s.cores := by
    have e := congrArg State.cores harms.1; unfold RamOnly at hram; exact e.trans (by rw [hram])
  refine
    { core := ?_
      pc := ?_
      guardEv := fun hg => ?_ }
  · refine (coreAt_setCore_same ..).trans ?_
    have hcore : coreAt v c = coreAt s c := by unfold coreAt; rw [hcores]
    show { coreAt v c with region := none, storeQ := (coreAt v c).storeQ.map Req.final } = _
    rw [hcore]
  · refine congrArg (4 * ·) ((rd_wr_field _ _ _ _ _ _ (by decide)).trans ((rd_wr_field _ _ _ _ _ _ (by decide)).trans (rd_congr hregs ..)))
  · have hbit : hasBit (clearBits v F.SQ_STATUS_EV_PENDING c (2 ^ r.guardEv)) F.SQ_STATUS_EV_PENDING c r.guardEv = false := by
      rw [hasBit_clearBits _ _ _ _ _ hg, Nat.testBit_two_pow_self, Bool.not_true, Bool.and_false]
    exact (congrArg (Nat.testBit · _) (rd_wr_field _ _ _ _ _ _ (by decide))).trans hbit

/-- A core whose stall ends with no instruction of its own, ready for the one at its pc. -/
theorem stallOver {u : State} (ht : Settled (setSqState (setCore u c { coreAt u c with stall := .none }) c sqRUNNING) t) :
    coreAt t c = { coreAt u c with stall := .none } ∧ sqState t c = sqRUNNING ∧ pcOf t c = pcOf u c
    ∧ ∀ f i, F.SQ_STATUS_STATE.key c ≠ f.key i → rd t f i = rd u f i := by
  refine ⟨by rw [ht.coreAt]; exact coreAt_setCore_same .., ?_, ?_, fun f i hf => ?_⟩
  · rw [ht.sqState, sqState, setSqState, rd_wr_same]
    rfl
  · rw [ht.pcOf]
    exact congrArg (4 * ·) (rd_wr_field _ _ _ _ _ _ (by decide))
  · rw [ht.rd, setSqState, rd_wr_ne _ _ _ _ _ _ hf]
    rfl

theorem answers_regionCommit {r : Region} {whole : Bool} (hc : c < 8) (hworks : blockWorks s 15 = true) (hpc : pcOf s c < 0x7FFC)
    (hstep : (coreAt s c).stepping = false) (hregion : (coreAt s c).region = some r) (hstall : (coreAt s c).stall = .commit whole)
    (htb : s.tb ≤ r.deadline) (hg : r.guardEv < 4) (hnone : NoTentative s c)
    (hev : hasBit s F.SQ_STATUS_EV_PENDING c r.guardEv = true) : Answers (exec (.regionCommit c) s) fun t =>
      (coreAt t c).region = none ∧ hasBit t F.SQ_STATUS_EV_PENDING c r.guardEv = false
      ∧ (coreAt t c).stall = .none ∧ sqState t c = sqRUNNING ∧ pcOf t c = (if whole then pcOf s c + 4 else pcOf s c) := by
  refine answers_onBlock hc hworks fun t ht => ?_
  have hend : regionCommit s c = afterCommit (commitRegion s c) c whole := by
    unfold regionCommit
    rw [hstall, hregion]
    dsimp only
    unfold orSquash
    rw [hregion]
    dsimp only
    rw [if_neg (not_lt.mpr htb), guardArrived, if_pos hev]
  have hkept := kept_commitRegion hregion hnone
  rw [hend] at ht
  revert hkept ht
  generalize commitRegion s c = u
  intro ht hkept
  have hstep' : (coreAt u c).stepping = false := by rw [hkept.core]; exact hstep
  have hbit : ∀ v : State, rd v F.SQ_STATUS_EV_PENDING c = rd u F.SQ_STATUS_EV_PENDING c →
      hasBit v F.SQ_STATUS_EV_PENDING c r.guardEv = false := fun v hv => (congrArg (Nat.testBit · _) hv).trans (hkept.guardEv hg)
  cases whole with
  | true =>
    have hgo := goesOn_of_settled hstep' (hkept.pc.trans_lt hpc) ht
    exact ⟨by rw [hgo.core, hkept.core], hbit t (hgo.other _ (by decide) (by decide)), hgo.stall, hgo.state,
      hgo.pc.trans (congrArg (· + 4) hkept.pc)⟩
  | false =>
    have hafter : afterCommit u c false = setSqState (setCore u c { coreAt u c with stall := .none }) c sqRUNNING := by
      unfold afterCommit
      dsimp only
      rw [if_neg Bool.false_ne_true, if_neg (by rw [hstep']; exact Bool.false_ne_true)]
    rw [hafter] at ht
    obtain ⟨hcore, hstate, hpc', hother⟩ := stallOver ht
    exact ⟨by rw [hcore, hkept.core], hbit t (hother _ _ fun e => absurd ((key_eq_iff ..).mp e).1 (by decide)), by rw [hcore],
      hstate, hpc'.trans hkept.pc⟩

theorem coreAt_resume (u : State) (c : Nat) : coreAt (resume u c) c = { coreAt u c with stall := .none, stepping := false } :=
  coreAt_setCore_same ..

theorem rd_resume_ne {f : Field} {i : Nat} (hf : F.SQ_STATUS_STATE.key c ≠ f.key i) : rd (resume u c) f i = rd u f i :=
  (rd_wr_ne _ _ _ _ _ _ hf).trans (rd_congr rfl f i)

theorem coreAt_squashRegion {r : Region} (h : (coreAt s c).region = some r) : (coreAt (squashRegion s c) c).region = none := by
  rw [squashRegion_of h]
  show (coreAt (restoreV (regionGone (squashActions (bump s F.SQ_SPEC_SQUASHED_COUNT c) c) c) c r.savedV) c).region = none
  rw [(restoreV_regsOnly _ _ _).coreAt, regionGone, coreAt_setCore_same]

theorem stepping_squashRegion {r : Region} (h : (coreAt s c).region = some r) (hnone : NoTentative s c) :
    (coreAt (squashRegion s c) c).stepping = (coreAt s c).stepping ∧
    rd (squashRegion s c) F.SQ_SPEC_SQUASHED_COUNT c = min (rd s F.SQ_SPEC_SQUASHED_COUNT c + 1) (2 ^ 32 - 1) := by
  have harms : ArmsOnly (bump s F.SQ_SPEC_SQUASHED_COUNT c) (squashActions (bump s F.SQ_SPEC_SQUASHED_COUNT c) c) :=
    squashActions_of_none (hnone.bump _ _)
  rw [squashRegion_of h]
  revert harms
  generalize squashActions _ c = u
  intro harms
  have hregs : u.regs = (bump s F.SQ_SPEC_SQUASHED_COUNT c).regs := by
    have e := congrArg State.regs harms.1; exact e
  have hcores : u.cores = s.cores := by
    have e := congrArg State.cores harms.1; exact e
  constructor
  · show (coreAt (restoreV (regionGone u c) c r.savedV) c).stepping = _
    rw [(restoreV_regsOnly _ _ _).coreAt, regionGone, coreAt_setCore_same]
    show (coreAt u c).stepping = _
    unfold coreAt
    rw [hcores]
  · rw [rd_wr_field _ _ _ _ _ _ (by decide), rd_wr_field _ _ _ _ _ _ (by decide), rd_restoreV_ne _ _ _ (by decide),
      rd_congr (regionGone_regs u c), rd_congr hregs, rd_bump]
    rfl

theorem answers_specDeadline {r : Region} (hc : c < 8) (hworks : blockWorks s 15 = true)
    (hstep : (coreAt s c).stepping = false) (hregion : (coreAt s c).region = some r) (hdue : r.deadline ≤ s.tb)
    (halign : r.target % 4 = 0) (hrange : r.target ≤ 0x7FFC) : Answers (exec (.specDeadline c) s) fun t =>
      (coreAt t c).region = none ∧ (coreAt t c).stall = .none ∧ pcOf t c = r.target
      ∧ rd t F.SQ_LK_VALUE c = r.savedLk % 2 ^ 64 ∧ rd t F.SQ_FLAGS_ZNCV c = r.savedFlags % 16
      ∧ (NoTentative s c → sqState t c = sqRUNNING
        ∧ rd t F.SQ_SPEC_SQUASHED_COUNT c = min (rd s F.SQ_SPEC_SQUASHED_COUNT c + 1) (2 ^ 32 - 1)) := by
  refine answers_onBlock hc hworks fun t ht => ?_
  have hend : specDeadline s c = resume (setPc (squashRegion s c) c r.target) c := by
    unfold specDeadline
    rw [hregion]
    dsimp only
    rw [if_pos hdue, squashTo]
  rw [hend] at ht
  have hother : ∀ f, F.SQ_STATUS_STATE.fid % 1024 ≠ f.fid % 1024 → F.SQ_PC_PC.fid % 1024 ≠ f.fid % 1024 →
      rd t f c = rd (squashRegion s c) f c := fun f hs hp => by
    rw [ht.rd, rd_resume_ne (fun e => hs ((key_eq_iff ..).mp e).1), setPc, rd_wr_field _ _ _ _ _ _ hp]
  refine ⟨?_, ?_, ?_, ?_, ?_, fun hnone => ⟨?_, ?_⟩⟩
  · rw [ht.coreAt, coreAt_resume, coreAt_setPc]
    exact coreAt_squashRegion hregion
  · rw [ht.coreAt, coreAt_resume]
  · rw [ht.pcOf]
    have hpc := pcOf_setPc (squashRegion s c) c halign hrange
    exact (congrArg (4 * ·) (rd_resume_ne fun e => absurd ((key_eq_iff ..).mp e).1 (by decide))).trans hpc
  · rw [hother _ (by decide) (by decide), squashRegion_of hregion, rd_wr_field _ _ _ _ _ _ (by decide), rd_wr_same]
    rfl
  · rw [hother _ (by decide) (by decide), squashRegion_of hregion, rd_wr_same]
    rfl
  · rw [ht.sqState, resume_eq (by rw [coreAt_setPc, (stepping_squashRegion hregion hnone).1, hstep]), sqState_released]
  · rw [hother _ (by decide) (by decide), (stepping_squashRegion hregion hnone).2]

/-! ### The event inputs (R82, R488) -/

theorem rd_deliver_fires (s : State) (ch : Nat) :
    rd (deliver s ch) F.BCN_FIRES_COUNT ch = min (rd s F.BCN_FIRES_COUNT ch + 1) (2 ^ 32 - 1) := by
  have hbump : rd (bump (setBit s F.BCN_FIRED_CH 0 ch) F.BCN_FIRES_COUNT ch) F.BCN_FIRES_COUNT ch
      = min (rd s F.BCN_FIRES_COUNT ch + 1) (2 ^ 32 - 1) := by
    rw [rd_bump, setBit_eq, rd_wr_field _ _ _ _ _ _ (by decide)]
    rfl
  have hlast : ∀ v : State, rd v F.BCN_FIRES_COUNT ch = min (rd s F.BCN_FIRES_COUNT ch + 1) (2 ^ 32 - 1) →
      rd (if domUp v 4 then wr v F.BCN_LAST_TB_VALUE ch v.tb else v) F.BCN_FIRES_COUNT ch
        = min (rd s F.BCN_FIRES_COUNT ch + 1) (2 ^ 32 - 1) := by
    intro v hv
    split
    · exact (rd_wr_field _ _ _ _ _ _ (by decide)).trans hv
    · exact hv
  refine hlast _ ?_
  split
  · exact hbump
  · exact (rd_wr_field _ _ _ _ _ _ (by decide)).trans hbump

theorem RegsOnly.domUp (h : RegsOnly s u) {fs : List Field} (ht : Touches fs s u)
    (hfs : ∀ f ∈ [F.KP_GOOD_DOMAINS, F.GLB_RST_STATUS_WARM_BUSY], ∀ g ∈ fs, g.fid % 1024 ≠ f.fid % 1024) (d : Nat) :
    domUp u d = domUp s d := by
  unfold RegsOnly at h
  have hadie : u.aDieReset = s.aDieReset := by rw [h]
  have hlane : u.laneStopped = s.laneStopped := by rw [h]
  exact congrFun (domUp_congr (ht _ 0 (hfs _ (by simp))) (ht _ 0 (hfs _ (by simp))) hadie hlane) d

/-- The one event on its way to an idle consumer with power arrives there. -/
theorem beaconArrives_first {k ch : Nat} {soft : Bool} {rest : List (Nat × Nat × Bool)} {p : Nat → Bool} {busy : State → Bool}
    {act : Nat → State → State} (hbeacons : s.beacons = (ch, k, soft) :: rest) (hp : p ch = true)
    (hup : ∀ d ∈ consumerDomains k, domUp s d = true) (hidle : busy (deliver { s with beacons := rest } ch) = false) :
    beaconArrives s k p busy act = act ch (deliver { s with beacons := rest } ch) := by
  have htake : takeBeacon s k p = some (ch, { s with beacons := rest }) := by
    unfold takeBeacon
    have hfind : s.beacons.find? (fun e => e.2.1 == k && p e.1) = some (ch, k, soft) := by
      rw [hbeacons]
      exact List.find?_cons_of_pos (by simp [hp])
    rw [hfind]
    dsimp only
    rw [hbeacons, List.erase_cons_head]
  have hall : ((consumerDomains k).all (domUp (deliver { s with beacons := rest } ch))) = true := by
    refine List.all_eq_true.mpr fun d hd => ?_
    rw [(deliver_regsOnly _ ch).domUp (deliver_touches _ ch) (by decide)]
    exact hup d hd
  unfold beaconArrives
  rw [htake]
  dsimp only
  rw [hall, hidle]
  rfl

theorem answers_sqEvEvent {k ch : Nat} {soft : Bool} {rest : List (Nat × Nat × Bool)} (hc : c < 8) (hk : k < 4)
    (hbeacons : s.beacons = (ch, 4 * c + k, soft) :: rest) (hup : domUp s 21 = true)
    (hidle : hasBit s F.SQ_STATUS_EV_PENDING c k = false) : Answers (exec (.sqEvEvent c k) s) fun t =>
      hasBit t F.SQ_STATUS_EV_PENDING c k = true ∧ t.beacons = rest
      ∧ rd t F.BCN_FIRES_COUNT ch = min (rd s F.BCN_FIRES_COUNT ch + 1) (2 ^ 32 - 1) := by
  have hexec : exec (.sqEvEvent c k) s = onUnit c 8 s fun s => beaconArrives s (4 * c + k) (fun _ => true)
      (fun s => hasBit s F.SQ_STATUS_EV_PENDING c k) fun _ s => setBit s F.SQ_STATUS_EV_PENDING c k := if_pos hk
  have hdomains : consumerDomains (4 * c + k) = [21] := if_pos (by omega)
  have hpending : rd (deliver { s with beacons := rest } ch) F.SQ_STATUS_EV_PENDING c = rd s F.SQ_STATUS_EV_PENDING c :=
    deliver_touches _ _ _ _ (by decide)
  rw [hexec]
  refine answers_onUnit hc fun t ht => ?_
  rw [beaconArrives_first hbeacons rfl (by simpa [hdomains] using hup) ((congrArg (Nat.testBit · k) hpending).trans hidle)] at ht
  refine ⟨?_, ?_, ?_⟩
  · rw [ht.hasBit]
    exact hasBit_setBit _ _ _ _ (by exact hk)
  · rw [ht.beacons]
    have hsame := congrArg State.beacons (deliver_regsOnly { s with beacons := rest } ch)
    exact hsame
  · rw [ht.rd, setBit_eq, rd_wr_field _ _ _ _ _ _ (by decide), rd_deliver_fires]
    rfl

end

/-- Settles O17: each stall ends in `advance` of its core, a squash, or the command at its pc. -/
theorem stallsEndAtTheirEvents : Obligations.StallsEndAtTheirEvents := by
  intro s c hc hworks hpc hstep
  refine ⟨fun hregion value past => ⟨fun hstall htb => ?_, fun k hk hstall hev => ?_, fun kind idx hstall hholds => ?_⟩,
    fun r whole hregion hstall htb hg hnone hev => ?_, fun r hregion hdue halign hrange => ?_, fun q hstall hroom => ?_,
    fun hstall hempty => ?_, fun bs e d hstall hstate hroom hregion hreach haccept => ?_, fun m d hstall hmbx hempty => ?_,
    fun k ch soft rest hk _ hbeacons hup hidle => ?_⟩
  · exact answers_waitEnd_tb hc hworks hpc hstep hregion hstall htb
  · exact answers_waitEnd_ev hc hworks hpc hstep hregion hk hstall hev
  · exact answers_waitDeadline hc hworks hpc hstep hregion hstall hholds
  · exact answers_regionCommit hc hworks hpc hstep hregion hstall htb hg hnone hev
  · exact answers_specDeadline hc hworks hstep hregion hdue halign hrange
  · exact answers_storeQueueRoom hc hworks hpc hstep hstall hroom
  · exact answers_dsyncDone hc hworks hpc hstep hstall hempty
  · exact answers_dmaqSlotFree hc hworks hpc hstep hstall hstate hroom hregion hreach haccept
  · exact answers_syncSendEnd hc hworks hpc hstep hstall hmbx hempty
  · exact answers_sqEvEvent hc hk hbeacons hup hidle

end Sys2Proof.Machine
end

section
/-! Counterexamples of the image pipelines and of the streams. -/
open Sys2Proof
namespace Sys2Proof.Machine

/-- Power is good; the register file holds 64 for ISP_CTL.INLINE_CTX of pipeline 0, which reads as 0 in the field's six bits. -/
def wideContext : State := { powered with regs := sset powered.regs 0 (F.ISP_CTL_INLINE_CTX.key 0) 64 }

/-- A field at the place of ISP_CTL.INLINE_CTX, one bit wider. -/
def wideContextField : Field := { F.ISP_CTL_INLINE_CTX with width := 7 }

/-- Refutes O34: a mode write writes INLINE_CTX again where it is equal, and `Changes` speaks of every `Field`, also of one that
shows a bit which the register file of the start state holds beyond the model's own field. -/
theorem not_pipelinesTakeProcessAndEndJobs : ¬ Obligations.PipelinesTakeProcessAndEndJobs := by
  intro h
  obtain ⟨hmode, -⟩ := h wideContext 0 (by decide) (by decide +kernel)
  obtain ⟨-, -, hoff⟩ := hmode 0
  have hone : outcome (fun t => rd t wideContextField 0) (exec (.ispModeWrite 0 0) wideContext) = some 0 := by decide +kernel
  obtain ⟨t, hread, -, hkeeps, -⟩ := (hoff (by decide) (by decide +kernel) (by decide +kernel)).shows hone
  have hsame : rd t wideContextField 0 = rd wideContext wideContextField 0 := hkeeps wideContextField 0 (by decide)
  have hraw : rd wideContext wideContextField 0 = 64 := by decide +kernel
  omega

/-- The 66-bit columns of one lane that carry blocks, each scrambled after the one before, behind an idle column. -/
def laneColumns (blocks : List (Nat × Nat)) : List (List Nat) :=
  [0] :: (blocks.foldl (fun acc block =>
    let payload := scramble acc.2 block.2
    (acc.1 ++ [[block.1 + 4 * payload]], lastBits payload)) ([], 0)).1

/-- The eight header bytes of a packet of data type `dt`, word count `wc` and channel `vc`. -/
def headerBytes (dt wc vc : Nat) : List Nat :=
  let data := dt + 2 ^ 8 * vc + 2 ^ 16 * wc
  let ecc := eccOf eccCode 48 data
  toBytes 8 (data + 2 ^ 48 * ecc + 2 ^ 54 * ((parityOf 48 data) ^^ (parityOf 6 ecc)).toNat)

/-- A line of ten bytes of stream 2 with its header and CRC. -/
def lineBytesSent : List Nat :=
  let line := [1, 2, 3, 4, 5, 6, 7, 8, 9, 10]
  headerBytes 0x2A 10 1 ++ line ++ toBytes 2 (crcCsi line)

/-- The bytes that reach the port: the line's, filled to whole blocks. -/
def lineBytesReceived : List Nat := lineBytesSent ++ List.replicate 4 0

/-- An open frame of stream 2 whose learned geometry is bad: its lines are counted and not stored. -/
def badFrame : Frame :=
  { stream := 2, seq := 7, phase := .open, tent := none, port := 1, vc := 1, dt := 0x2A, fnum := 0, tbFs := 0, tbFe := 0, nsFs := 0,
    closedAt := 0, flags := 0, trigId := 0, trig := none, encPos := [0, 0, 0, 0], relayed := 0, twin := false, learn := false,
    learnBad := true, lineBytes := 10, width := 10, height := 4, lines := 2, slots := 0, stored := false, crcErrs := 0, verdict := 0,
    final := false, reject := false, lostLines := [], lapsed := false, due := [], outcomes := [] }

/-- Port 1 is up on one lane and carries stream 2, which has a region of 2^16-byte slots in trained memory, and `badFrame` open. -/
def badFrameOpen : State :=
  { withRegs powered
      [(F.MEM_SREG_CFG_EN, 2, 1), (F.MEM_SREG_CFG_SIZE_LOG2, 2, 20), (F.MEM_SREG_CFG_SLOT_LOG2, 2, 16), (F.MEM_USABLE_VALUE, 0, 2 ^ 33),
       (F.MEM_STATUS_STATE, 0, 2), (F.PRT_CFG_EN, 1, 1), (F.PRT_CFG_LANES, 1, 0), (F.PRT_CFG_GEN, 1, 1), (F.PRT_STATUS_STATE, 1, pUP),
       (F.PRT_STATUS_LINK_UP, 1, 1), (F.PKT_MAP_EN, 2, 1), (F.PKT_MAP_PORT, 2, 1), (F.PKT_MAP_VC, 2, 1), (F.PKT_MAP_DT, 2, 0x2A)]
    with frames := [badFrame] }

/-- Refutes O32: a line of an open frame whose learned geometry is bad is counted, and no slot is filled. -/
theorem not_framesOpenTakeLinesAndClose : ¬ Obligations.FramesOpenTakeLinesAndClose := by
  intro h
  obtain ⟨hpacket, -⟩ := h badFrameOpen 1 2 (by decide) (by decide) (by decide +kernel) (by decide +kernel)
  have hbrings : Brings badFrameOpen 1 (laneColumns (packetBlocks lineBytesSent)) lineBytesReceived := by unfold Brings; decide +kernel
  have hunwatched : Unwatched badFrameOpen 2 := by unfold Unwatched PipelinesOff; decide +kernel
  obtain ⟨-, -, hline, -⟩ := hpacket _ _ { dt := 42, vc := 1, wc := 10, corrected := false } hbrings (by decide +kernel) (by decide)
    (by decide +kernel) hunwatched
  have hstored := hline badFrame (by decide) (by decide) (by decide +kernel) (by decide +kernel) (by decide +kernel) (by decide)
    (by decide +kernel) (by decide) (by decide) (by decide) (by decide +kernel) (by decide +kernel) (by decide +kernel) (by decide)
    (by decide +kernel)
  have hempty : outcome (fun t => (openFrame t 2).map Frame.slots)
      (exec (.pktLong 1 (laneColumns (packetBlocks lineBytesSent)) []) badFrameOpen) = some (some 0) := by decide +kernel
  obtain ⟨t, hslots, -, -, ⟨f, hopen, -, -, hthree⟩, -⟩ := hstored.shows hempty
  rw [hopen] at hslots
  have hzero : f.slots = 0 := Option.some.inj hslots
  rw [hzero] at hthree
  exact absurd hthree (by decide)

end Sys2Proof.Machine
end

section
/-! Counterexamples of the mailboxes and the twin's words to them: a mailbox whose RECEIVER is none (0x1F) is disabled. -/
open Sys2Proof
namespace Sys2Proof.Machine

/-- The PF is the sender of the empty mailbox 0, and its receiver is none (0x1F). -/
def disabledMailbox : State := withRegs powered [(F.MBX_BIND_SENDER, 0, 1), (F.MBX_BIND_RECEIVER, 0, 0x1F)]

/-- Refutes O39: a send of the bound sender to an empty mailbox whose RECEIVER is none is refused (R472), and nothing fills it. -/
theorem not_mailboxesSendReceiveAndTimeOut : ¬ Obligations.MailboxesSendReceiveAndTimeOut := by
  intro h
  obtain ⟨hsend, -⟩ := h disabledMailbox 0 (by decide) (by decide +kernel) (by decide +kernel)
  obtain ⟨hempty, -⟩ := hsend 1 7 (by decide +kernel)
  obtain ⟨hfill, -⟩ := hempty (by decide +kernel) (by decide +kernel)
  have hzero : outcome (fun t => isSet t F.MBX_STAT_FULL 0) (exec (.mbxDataWrite 1 0 7 false) disabledMailbox) = some false := by
    decide +kernel
  have hnone : receiverDomain (rd disabledMailbox F.MBX_BIND_RECEIVER 0) = none := by decide +kernel
  obtain ⟨t, hread, ⟨-, -, hfull, -⟩, -⟩ := (hfill fun d hd => by rw [hnone] at hd; cases hd).shows hzero
  rw [hread] at hfull
  exact absurd hfull (by decide)

/-- The twin's link is up; the twin is the sender of the empty mailbox 0, and its receiver is none (0x1F). -/
def disabledForTwin : State :=
  withRegs powered [(F.TWN_STATUS_LINK_UP, 0, 1), (F.MBX_BIND_SENDER, 0, 0x18), (F.MBX_BIND_RECEIVER, 0, 0x1F), (F.MBX_BIND_ATTR, 0, 1)]

/-- An MBX packet of the twin: the word 7 for mailbox 0. -/
def wordPacket : List Nat :=
  let body := [tpMBX, 8, 0, 1, 0, 0, 7, 0, 0, 0]
  body ++ toBytes 2 (crc16 body)

/-- Refutes O42: the word of the bound twin to an empty mailbox whose RECEIVER is none is refused (R472), and nothing fills it. -/
theorem not_twinPacketsAct : ¬ Obligations.TwinPacketsAct := by
  intro h
  obtain ⟨-, -, -, -, -, -, -, -, hmbx, -⟩ := h disabledForTwin wordPacket (by decide +kernel) (by decide +kernel) (by decide +kernel)
  obtain ⟨hword, -⟩ := hmbx ⟨by decide +kernel, by decide +kernel⟩ 0 (by decide +kernel) (by decide) (by decide +kernel)
  have hfill := hword (by decide +kernel) (by decide +kernel) (by decide +kernel) (by decide +kernel)
  have hzero : outcome (fun t => isSet t F.MBX_STAT_FULL 0) (exec (.twnMbxRx wordPacket) disabledForTwin) = some false := by
    decide +kernel
  obtain ⟨t, hread, hfull, -⟩ := hfill.shows hzero
  rw [hread] at hfull
  exact absurd hfull (by decide)

/-! Counterexamples of the trip and of the resets: each makes the bridge lose its transaction, which runs as far as its clock
stands (R531, R533), and a POLL so far commits a latched bank into the journal. -/

/-- The bridge runs a POLL since instant 0 with a tail of 64 clocks, all of which have passed. -/
def pollingBridge : State := { powered with kbrRun := some ⟨3, 0, 0, 64, 0⟩, ns := 100000 }

/-- `pollingBridge` with D0, D1, D3 and D4 alone good. -/
def pollingAlone : State := withRegs pollingBridge [(F.KP_GOOD_DOMAINS, 0, 0x1B)]

/-- Refutes O45: a trip latches the bank of its capture, drops D4, and the POLL that the bridge then loses commits that bank. -/
theorem not_powerAndSensorsAct : ¬ Obligations.PowerAndSensorsAct := by
  intro h
  obtain ⟨-, -, hthermal⟩ := h pollingAlone
  obtain ⟨-, -, -, htrip, -⟩ := hthermal 0 (by decide)
  have hclear : outcome (fun t => ((captureAt t 3).bank (captureAt pollingAlone 3).active).latched) (exec (.thermalTrip 0 true) pollingAlone)
      = some false := by decide +kernel
  obtain ⟨t, hread, -, -, hlatched, -⟩ := htrip.shows hclear
  rw [hread] at hlatched
  exact absurd hlatched (by decide)

/-- `pollingBridge` with one bank of capture source 0 latched. -/
def pollingLatched : State := { pollingBridge with captures := [(0, { Capture.init with bank0 := ⟨true, 1, 0, 0, 0⟩ })] }

/-- Refutes O46: the POLL that the bridge loses in a warm reset commits a bank, which the journal holds from then on. -/
theorem not_resetsClearAndKeep : ¬ Obligations.ResetsClearAndKeep := by
  intro h
  obtain ⟨-, -, -, -, hkeyed, -⟩ := h pollingLatched
  obtain ⟨hwarm, -⟩ := hkeyed 1 (by decide +kernel)
  have hwritten : outcome (fun t => t.journal.isEmpty) (exec (.warmReset 1 0xA9600001) pollingLatched) = some false := by decide +kernel
  have hblank : pollingLatched.journal.isEmpty = true := by decide +kernel
  obtain ⟨t, hread, -, -, -, -, -, -, -, -, -, -, hjournal, -⟩ := hwarm.shows hwritten
  rw [hjournal, hblank] at hread
  exact absurd hread (by decide)

end Sys2Proof.Machine
end

section
/-! Triage gates: their configuration, the deadline outcome and the counters (R385 to R392). -/
open Sys2Proof
namespace Sys2Proof.Machine

section
variable {s t u : State} {k val : Nat}

/-! ### Frames and producers, as a gate sees them -/

/-- The end of a command keeps what a gate decided of a frame, and the frame's place. -/
theorem settleFrame_keeps (s : State) (f : Frame) : (settleFrame s f).stream = f.stream ∧ (settleFrame s f).seq = f.seq
    ∧ (settleFrame s f).tent = f.tent ∧ (settleFrame s f).verdict = f.verdict ∧ (settleFrame s f).final = f.final
    ∧ (settleFrame s f).reject = f.reject := by
  have hflag : ∀ (g : Frame) (c : Bool) (b : Nat), g.flagIf c b = { g with flags := (g.flagIf c b).flags } := by
    intro g c b
    cases c <;> rfl
  unfold settleFrame
  split
  · exact ⟨rfl, rfl, rfl, rfl, rfl, rfl⟩
  · dsimp only
    rw [hflag _ _ flENCFAULT, hflag _ _ flUNLOCKED]
    exact ⟨rfl, rfl, rfl, rfl, rfl, rfl⟩

/-- The newest frame of a stream and a SEQ is found under the end of a command as it was. -/
theorem frameAt_settled (h : Settled u t) (k q : Nat) : frameAt t k q = (frameAt u k q).map (settleFrame t) := by
  unfold frameAt
  rw [h.frames, List.find?_map]
  congr 2
  funext f
  obtain ⟨hst, hsq, htn, -⟩ := settleFrame_keeps t f
  simp only [Function.comp_apply, hst, hsq, htn]

/-- A change of the frames of a stream and a SEQ that keeps their place. -/
theorem frameAt_setFrame (s : State) (k q : Nat) {g : Frame → Frame}
    (hg : ∀ f, (g f).stream = f.stream ∧ (g f).seq = f.seq ∧ (g f).tent = f.tent) :
    frameAt (setFrame s k q g) k q = (frameAt s k q).map g := by
  unfold frameAt setFrame mapFrames
  rw [List.find?_map]
  have hp : ((fun f : Frame => f.stream == k && f.seq == q && f.tent.isNone) ∘ fun f : Frame =>
      if (f.stream == k && f.seq == q && f.tent.isNone) = true then g f else f)
      = fun f : Frame => f.stream == k && f.seq == q && f.tent.isNone := by
    funext f
    obtain ⟨hst, hsq, htn⟩ := hg f
    simp only [Function.comp_apply]
    split
    · rw [hst, hsq, htn]
    · rfl
  rw [hp]
  cases hf : s.frames.find? fun f => f.stream == k && f.seq == q && f.tent.isNone with
  | none => rfl
  | some f => simp only [Option.map_some, if_pos (List.find?_some hf)]

/-- Without an enabled POD_VDT producer nothing fires. -/
theorem podProducers_of_none (h : ∀ i, i < 8 → isSet s F.POD_VDT_CFG_EN i = false) (k kind : Nat) : podProducers s k kind = s := by
  unfold podProducers
  refine List.foldlRecOn (motive := fun t => t = s) (List.range 8) _ rfl fun t ht i hi => ?_
  rw [ht, h i (List.mem_range.mp hi)]
  rfl

/-! ### Configuration -/

theorem domUp_of_blockWorks {b d : Nat} (h : blockWorks s b = true) (hb : bitDomain b = some d) : domUp s d = true := by
  have hboth := (Bool.and_eq_true_iff.mp h).1
  rw [hb] at hboth
  exact hboth

/-- One field takes its bits of a written word. -/
def storeField (val k : Nat) (s : State) (f : Field) : State :=
  if bitsOf val f.lo f.width = rd s f k then s else wr s f k (bitsOf val f.lo f.width)

theorem storeField_regsOnly (val k : Nat) (s : State) (f : Field) : RegsOnly s (storeField val k s f) := by
  unfold storeField
  split
  · rfl
  · exact (RegsOnly.refl s).wr _ _ _

theorem rd_storeField_same (val k : Nat) (s : State) (f : Field) : rd (storeField val k s f) f k = bitsOf val f.lo f.width := by
  unfold storeField
  split
  case isTrue h => exact h.symm
  case isFalse => rw [rd_wr_same, bitsOf, Nat.mod_mod]

theorem rd_storeField_ne (val k : Nat) (s : State) {f g : Field} {i : Nat} (h : f.key k ≠ g.key i) :
    rd (storeField val k s f) g i = rd s g i := by
  unfold storeField
  split
  · rfl
  · exact rd_wr_ne _ _ _ _ _ _ h

theorem foldl_storeField_ne (val k : Nat) (fs : List Field) (s : State) {g : Field} {i : Nat}
    (h : ∀ f ∈ fs, f.key k ≠ g.key i) : rd (fs.foldl (storeField val k) s) g i = rd s g i := by
  induction fs generalizing s with
  | nil => rfl
  | cons f fs ih =>
    exact (ih _ fun x hx => h x (by simp [hx])).trans (rd_storeField_ne val k s (h f (by simp)))

/-- Every field of a list of distinct ones then holds its bits of the word. -/
theorem foldl_storeField_mem (val k : Nat) (fs : List Field) (s : State)
    (hfs : fs.Pairwise fun f g => f.fid % 1024 ≠ g.fid % 1024) :
    ∀ f ∈ fs, rd (fs.foldl (storeField val k) s) f k = bitsOf val f.lo f.width := by
  induction fs generalizing s with
  | nil => simp
  | cons f fs ih =>
    obtain ⟨hf, hrest⟩ := List.pairwise_cons.mp hfs
    intro g hg
    rcases List.mem_cons.mp hg with rfl | hg
    · refine (foldl_storeField_ne val k fs _ fun x hx e => ?_).trans (rd_storeField_same val k s g)
      exact hf x hx ((key_eq_iff x g k k).mp e).1.symm
    · exact ih _ hrest g hg

theorem RegsOnly.trans {w : State} (h : RegsOnly s u) (h' : RegsOnly u w) : RegsOnly s w := by
  unfold RegsOnly at *
  rw [h', h]

theorem foldl_storeField_regsOnly (val k : Nat) (fs : List Field) (s : State) : RegsOnly s (fs.foldl (storeField val k) s) :=
  List.foldlRecOn (motive := fun t => RegsOnly s t) fs _ (RegsOnly.refl s)
    fun t ht f _ => RegsOnly.trans ht (storeField_regsOnly val k t f)

/-- The gate's fields as a write of `val` in range leaves them. -/
def gateStored (s : State) (val k : Nat) : State := gateFields.foldl (storeField val k) s

/-- A disabled gate takes a write in range, and with EN the master that wrote it. -/
theorem gateCfgWrite_enables {mid : Nat} (hdom : domUp s 22 = true) (hoff : gateOn s k = false) (hen : val.testBit 0 = true)
    (hclr : val.testBit 31 = false)
    (hrange : ∀ f ∈ gateFields, f.least ≤ bitsOf val f.lo f.width ∧ bitsOf val f.lo f.width ≤ f.greatest)
    (hpods : val.testBit 3 = true → val / 2 ^ 8 % 2 ^ 8 ≠ 0) : gateCfgWrite s mid k val
      = { wr (gateStored s val k) F.POD_GATE_CFG_EN k 1 with gateMid := sset s.gateMid 1 k mid } := by
  have hpods' : (val.testBit 3 && bitsOf val 8 8 == 0) = false := by
    cases h : val.testBit 3
    · rfl
    · simpa [bitsOf] using hpods h
  have hfold : gateFields.foldl (fun s f =>
      if bitsOf val f.lo f.width = rd s f k then s
      else if bitsOf val f.lo f.width < f.least || f.greatest < bitsOf val f.lo f.width
          || ((val.testBit 3 && bitsOf val 8 8 == 0) && (f.fid == F.POD_GATE_CFG_AUTO_RUN.fid || f.fid == F.POD_GATE_CFG_POD_MASK.fid))
      then podEvt s 4 else wr s f k (bitsOf val f.lo f.width)) s = gateStored s val k := by
    refine List.foldl_ext _ _ _ fun u f hf => ?_
    obtain ⟨hlo, hhi⟩ := hrange f hf
    rw [hpods', storeField]
    simp [Nat.not_lt.mpr hlo, Nat.not_lt.mpr hhi]
  have hmid : (gateStored s val k).gateMid = s.gateMid := by
    have e := congrArg State.gateMid (foldl_storeField_regsOnly val k gateFields s); exact e
  unfold gateCfgWrite
  rw [hdom, hoff, hen, hclr]
  dsimp only
  rw [hfold, hmid]
  rfl

theorem answers_gateEnables {mid : Nat} (hk : k < 64) (hworks : blockWorks s 14 = true) (hoff : gateOn s k = false)
    (hen : val.testBit 0 = true) (hclr : val.testBit 31 = false)
    (hrange : ∀ f ∈ gateFields, f.least ≤ bitsOf val f.lo f.width ∧ bitsOf val f.lo f.width ≤ f.greatest)
    (hpods : val.testBit 3 = true → val / 2 ^ 8 % 2 ^ 8 ≠ 0) : Answers (exec (.gateCfgWrite mid k val) s) fun t =>
      isSet t F.POD_GATE_CFG_EN k = true ∧ (∀ f ∈ gateFields, rd t f k = val / 2 ^ f.lo % 2 ^ f.width)
      ∧ sget t.gateMid 1 k = mid ∧ Keeps ((F.POD_GATE_CFG_EN :: gateFields).map fun f => (f, k)) s t
      ∧ Settled { s with regs := t.regs, gateMid := t.gateMid } t := by
  refine answers_onBlock hk hworks fun t ht => ?_
  rw [gateCfgWrite_enables (domUp_of_blockWorks hworks rfl) hoff hen hclr hrange hpods] at ht
  have hstored := foldl_storeField_regsOnly val k gateFields s
  have hrd : ∀ f i, rd t f i = rd (wr (gateStored s val k) F.POD_GATE_CFG_EN k 1) f i := rd_congr ht.regs
  refine ⟨?_, fun f hf => ?_, ?_, fun f i hf => ?_, ?_⟩
  · have : rd t F.POD_GATE_CFG_EN k = 1 := (hrd _ _).trans (rd_wr_same _ _ _ _)
    unfold isSet
    rw [this]; rfl
  · have hne : ∀ f ∈ gateFields, F.POD_GATE_CFG_EN.fid % 1024 ≠ f.fid % 1024 := by decide
    exact ((hrd f k).trans (rd_wr_field _ _ f k k 1 (hne f hf))).trans
      (foldl_storeField_mem val k gateFields s (by decide) f hf)
  · have e := congrArg State.gateMid ht
    rw [e]; exact sget_sset_same ..
  · rw [hrd]
    refine (rd_wr_ne _ _ f k i 1 (hf (F.POD_GATE_CFG_EN, k) (by simp))).trans
      (foldl_storeField_ne val k gateFields s fun g hg => hf (g, k) ?_)
    exact List.mem_map.mpr ⟨g, by simp [hg], rfl⟩
  · obtain ⟨r, hr⟩ : ∃ r, gateStored s val k = { s with regs := r } := ⟨_, hstored⟩
    rw [hr] at ht
    have hregs := ht.regs
    have hgate : t.gateMid = sset s.gateMid 1 k mid := by have e := congrArg State.gateMid ht; exact e
    unfold Settled at *
    rw [hregs, hgate]
    exact ht

theorem answers_gateCfgRefused {mid : Nat} (hk : k < 64) (hworks : blockWorks s 14 = true) (hon : gateOn s k = true)
    (hen : val.testBit 0 = true) (hclr : val.testBit 31 = false) (hch : ∃ f ∈ gateFields, bitsOf val f.lo f.width ≠ rd s f k) :
    Answers (exec (.gateCfgWrite mid k val) s) fun t => hasBit t F.POD_EVT_EVT 0 4 = true ∧ Changes [(F.POD_EVT_EVT, 0)] s t := by
  refine answers_onBlock hk hworks fun t ht => ?_
  have hany : (gateFields.any fun f => bitsOf val f.lo f.width ≠ rd s f k) = true := by simpa using hch
  have hw : gateCfgWrite s mid k val = podEvt s 4 := by
    unfold gateCfgWrite
    rw [domUp_of_blockWorks hworks rfl, hon, hen, hclr, hany]
    rfl
  rw [hw] at ht
  exact ⟨(ht.hasBit _ _ _).trans (hasBit_setBit s _ _ _ (by decide)),
    ((RegsOnly.refl s).setBit _ _ _).changes ht ((Keeps.refl _ s).wr _ _ _ (by simp))⟩

theorem answers_gateDisabled {mid : Nat} (hk : k < 64) (hworks : blockWorks s 14 = true) (hon : gateOn s k = true)
    (hen : val.testBit 0 = false) (hclr : val.testBit 31 = false) (hsame : ∀ f ∈ gateFields, bitsOf val f.lo f.width = rd s f k)
    (hnone : ∀ u ∈ s.tracked, u.stream ≠ k) :
    Answers (exec (.gateCfgWrite mid k val) s) fun t => gateOn t k = false ∧ Keeps [(F.POD_GATE_CFG_EN, k)] s t := by
  refine answers_onBlock hk hworks fun t ht => ?_
  have hany : (gateFields.any fun f => bitsOf val f.lo f.width ≠ rd s f k) = false := by
    simpa using hsame
  have htr : (s.tracked.filter fun t => t.stream == k) = [] := by
    simpa using hnone
  have hw : gateCfgWrite s mid k val = gateDisable s k := by
    unfold gateCfgWrite
    rw [domUp_of_blockWorks hworks rfl, hon, hen, hclr, hany]
    rfl
  have hregs : (gateCfgWrite s mid k val).regs = (wr s F.POD_GATE_CFG_EN k 0).regs := by
    rw [hw, gateDisable, htr]
    rfl
  refine ⟨?_, ht.keeps ?_⟩
  · have : rd t F.POD_GATE_CFG_EN k = 0 := (ht.rd _ _).trans ((rd_congr hregs _ _).trans (rd_wr_same _ _ _ _))
    unfold gateOn isSet
    rw [this]; rfl
  · intro f i hf
    exact (rd_congr hregs _ _).trans (((Keeps.refl _ s).wr F.POD_GATE_CFG_EN k 0 (by simp)) f i hf)

/-! ### The deadline -/

/-- The frame leaves the gate with the deadline outcome. -/
def gateDecided (s : State) (k q : Nat) : State :=
  let u : State := { s with tracked := [] }
  let v := setFrame u k q fun f => { f with verdict := 5, final := true, reject := policyReject s k }
  let w := wr (wr v F.POD_FINAL_VERDICT k 5) F.POD_FINAL_SEQ_SEQ k q
  if policyReject s k then bump w F.POD_GATE_REJECT_COUNT k else w

theorem gateFinal_deadline {q : Nat} {own : Option Nat} {x : Tracked} (htr : s.tracked = [{ x with own := own }])
    (hk : x.stream = k) (hq : x.seq = q) (hruns : s.podRuns = []) (hvdt : ∀ i, i < 8 → isSet s F.POD_VDT_CFG_EN i = false) :
    gateFinal s k q 5 (policyReject s k) = gateDecided s k q := by
  have hout : (s.tracked.filter fun t => !(t.stream == k && t.seq == q)) = [] := by
    rw [htr]; simp [hk, hq]
  have hvdt' : ∀ i, i < 8 → isSet (gateDecided s k q) F.POD_VDT_CFG_EN i = false := by
    intro i hi
    have : rd (gateDecided s k q) F.POD_VDT_CFG_EN i = rd s F.POD_VDT_CFG_EN i := by
      unfold gateDecided
      dsimp only
      split <;> simp (disch := decide) only [bump_eq, rd_wr_field] <;> rfl
    have h := hvdt i hi
    unfold isSet at *
    rwa [this]
  have hpr : ∀ kind, podProducers (gateDecided s k q) k kind = gateDecided s k q := podProducers_of_none hvdt' k
  have hruns' : (gateDecided s k q).podRuns = [] := by
    unfold gateDecided
    dsimp only
    split <;> exact hruns
  unfold gateFinal
  rw [hout]
  change (if policyReject s k = true then
      ((podProducers (gateDecided s k q) k 1).podRuns.filter fun r => r.stream == k && r.seq == some q && r.ended.isNone).foldl
        (fun s r => discardRun s r true) (podProducers (podProducers (gateDecided s k q) k 1) k 2)
    else podProducers (gateDecided s k q) k 1) = _
  rw [hpr, hpr, hruns']
  exact ite_self _

/-- The tracked frames of a gate, with the deadline outcome as the own verdict of one. -/
def markDeadline (s : State) (k q : Nat) : State :=
  { s with tracked := s.tracked.map fun t => if t.stream == k && t.seq == q then { t with own := some 5 } else t }

theorem gateOwn_deadline (s : State) (k q : Nat) : gateOwn s k q 5 =
    let v := bump s F.POD_GATE_DL_OUT_COUNT k
    if policyReject v k then gateSettle (markDeadline v k q) k else gateSettle (gateFinal v k q 5 false) k := rfl

/-- The one tracked frame takes the deadline outcome. -/
theorem gateDeadline_of {x : Tracked} (htr : s.tracked = [x]) (hk : x.stream = k) (hown : x.own = none)
    (hruns : s.podRuns = []) (hvdt : ∀ i, i < 8 → isSet s F.POD_VDT_CFG_EN i = false)
    (hdue : x.tbFe + rd s F.POD_GATE_DEADLINE_NS k ≤ s.tb) :
    gateDeadline s k x.seq = gateDecided (bump s F.POD_GATE_DL_OUT_COUNT k) k x.seq := by
  have hat : trackedAt s k x.seq = some x := by
    unfold trackedAt
    rw [htr]; simp [hk]
  have hvdt' : ∀ i, i < 8 → isSet (bump s F.POD_GATE_DL_OUT_COUNT k) F.POD_VDT_CFG_EN i = false := by
    intro i hi
    have h := hvdt i hi
    unfold isSet at *
    rwa [bump_eq, rd_wr_field _ _ _ _ _ _ (by decide)]
  have hpol : policyReject (bump s F.POD_GATE_DL_OUT_COUNT k) k = policyReject s k := by
    unfold policyReject isSet
    rw [bump_eq, rd_wr_field _ _ _ _ _ _ (by decide)]
  unfold gateDeadline
  rw [hat]
  dsimp only
  rw [hown, decide_eq_true hdue]
  generalize hv : bump s F.POD_GATE_DL_OUT_COUNT k = v at *
  have hvtr : v.tracked = [x] := by rw [← hv]; exact htr
  have hvruns : v.podRuns = [] := by rw [← hv]; exact hruns
  change gateOwn s k x.seq 5 = _
  rw [gateOwn_deadline, hv]
  dsimp only
  cases hp : policyReject v k with
  | false =>
    have hnone : (gateDecided v k x.seq).tracked = [] := by
      unfold gateDecided
      rw [hp]; rfl
    have hfin := gateFinal_deadline (x := x) (own := none) (by rw [hvtr, ← hown]) hk rfl hvruns hvdt'
    rw [if_neg Bool.false_ne_true, ← hp, hfin, gateSettle, hnone]
    rfl
  | true =>
    have hmark : (markDeadline v k x.seq).tracked = [{ x with own := some 5 }] := by
      unfold markDeadline
      rw [hvtr]; simp [hk]
    have hfin : gateFinal (markDeadline v k x.seq) k x.seq 5 (policyReject (markDeadline v k x.seq) k)
        = gateDecided (markDeadline v k x.seq) k x.seq := gateFinal_deadline hmark hk rfl hvruns hvdt'
    rw [show policyReject (markDeadline v k x.seq) k = true from hp] at hfin
    rw [if_pos rfl, gateSettle, hmark]
    simp only [List.filter_cons, hk, beq_self_eq_true, if_true, List.filter_nil, List.foldl_cons, List.foldl_nil, hmark,
      List.any_cons, List.any_nil, Option.isNone_some, Bool.and_false, Bool.false_and, Bool.or_false, Bool.false_eq_true, if_false]
    exact hfin

/-- The registers after the decision. -/
def gateDecidedRegs (s : State) (k q : Nat) : State :=
  let w := wr (wr s F.POD_FINAL_VERDICT k 5) F.POD_FINAL_SEQ_SEQ k q
  if policyReject s k then bump w F.POD_GATE_REJECT_COUNT k else w

theorem gateDecided_regs (s : State) (k q : Nat) : (gateDecided s k q).regs = (gateDecidedRegs s k q).regs := by
  unfold gateDecided gateDecidedRegs
  dsimp only
  split <;> rfl

theorem rd_bump_field (s : State) {f g : Field} (i j : Nat) (h : f.fid % 1024 ≠ g.fid % 1024) : rd (bump s f i) g j = rd s g j := by
  rw [bump_eq, rd_wr_field _ _ _ _ _ _ h]

theorem rd_gateDecidedRegs (s : State) (k q : Nat) : let t := gateDecidedRegs s k q
    rd t F.POD_FINAL_VERDICT k = 5 ∧ rd t F.POD_FINAL_SEQ_SEQ k = q % 2 ^ 48
    ∧ rd t F.POD_GATE_DL_OUT_COUNT k = rd s F.POD_GATE_DL_OUT_COUNT k
    ∧ rd t F.POD_GATE_REJECT_COUNT k = (if policyReject s k then
        min (rd s F.POD_GATE_REJECT_COUNT k + 1) (2 ^ F.POD_GATE_REJECT_COUNT.width - 1) else rd s F.POD_GATE_REJECT_COUNT k)
    ∧ Keeps [(F.POD_FINAL_VERDICT, k), (F.POD_FINAL_SEQ_SEQ, k), (F.POD_GATE_REJECT_COUNT, k)] s t := by
  unfold gateDecidedRegs
  dsimp only
  have hkeep := ((Keeps.refl [(F.POD_FINAL_VERDICT, k), (F.POD_FINAL_SEQ_SEQ, k), (F.POD_GATE_REJECT_COUNT, k)] s).wr
    F.POD_FINAL_VERDICT k 5 (by simp)).wr F.POD_FINAL_SEQ_SEQ k q (by simp)
  split
  · refine ⟨?_, ?_, ?_, ?_, hkeep.wr _ _ _ (by simp)⟩ <;>
      simp (disch := decide) only [rd_bump, rd_bump_field, rd_wr_field, rd_wr_same] <;> rfl
  · refine ⟨?_, ?_, ?_, ?_, hkeep⟩ <;> simp (disch := decide) only [rd_wr_field, rd_wr_same] <;> rfl

theorem gateDecided_tracked (s : State) (k q : Nat) : (gateDecided s k q).tracked = [] := by
  unfold gateDecided
  dsimp only
  split <;> rfl

theorem gateDecided_frames (s : State) (k q : Nat) : (gateDecided s k q).frames
    = (setFrame s k q fun f => { f with verdict := 5, final := true, reject := policyReject s k }).frames := by
  unfold gateDecided
  dsimp only
  split <;> rfl

theorem answers_gateDeadline {x : Tracked} {f : Frame} (hk64 : k < 64) (hworks : blockWorks s 14 = true) (htr : s.tracked = [x])
    (hk : x.stream = k) (hown : x.own = none) (hat : frameAt s k x.seq = some f) (hruns : s.podRuns = [])
    (hvdt : ∀ i, i < 8 → isSet s F.POD_VDT_CFG_EN i = false) (hdue : x.tbFe + rd s F.POD_GATE_DEADLINE_NS k ≤ s.tb) :
    let cnt := fun (f : Field) (t : State) => rd t f k = min (rd s f k + 1) (2 ^ f.width - 1)
    Answers (exec (.gateDeadline k x.seq) s) fun t =>
      (∃ f', frameAt t k x.seq = some f' ∧ f'.verdict = 5 ∧ f'.final = true ∧ f'.reject = policyReject s k)
      ∧ t.tracked = [] ∧ cnt F.POD_GATE_DL_OUT_COUNT t ∧ rd t F.POD_FINAL_VERDICT k = 5
      ∧ rd t F.POD_FINAL_SEQ_SEQ k = x.seq % 2 ^ 48
      ∧ (if policyReject s k then cnt F.POD_GATE_REJECT_COUNT t
        else rd t F.POD_GATE_REJECT_COUNT k = rd s F.POD_GATE_REJECT_COUNT k)
      ∧ Keeps [(F.POD_GATE_DL_OUT_COUNT, k), (F.POD_FINAL_VERDICT, k), (F.POD_FINAL_SEQ_SEQ, k), (F.POD_GATE_REJECT_COUNT, k)] s t := by
  intro cnt
  refine answers_onBlock hk64 hworks fun t ht => ?_
  rw [gateDeadline_of htr hk hown hruns hvdt hdue] at ht
  have hpol : policyReject (bump s F.POD_GATE_DL_OUT_COUNT k) k = policyReject s k := by
    unfold policyReject isSet
    rw [bump_eq, rd_wr_field _ _ _ _ _ _ (by decide)]
  have hrd : ∀ g i, rd t g i = rd (gateDecidedRegs (bump s F.POD_GATE_DL_OUT_COUNT k) k x.seq) g i :=
    rd_congr (ht.regs.trans (gateDecided_regs _ _ _))
  obtain ⟨hverdict, hseq, hdl, hreject, hkeep⟩ := rd_gateDecidedRegs (bump s F.POD_GATE_DL_OUT_COUNT k) k x.seq
  refine ⟨?_, ?_, ?_, ?_, ?_, ?_, fun g i hg => ?_⟩
  · have hfr := frameAt_settled ht k x.seq
    have hset : frameAt (gateDecided (bump s F.POD_GATE_DL_OUT_COUNT k) k x.seq) k x.seq
        = some { f with verdict := 5, final := true, reject := policyReject s k } := by
      rw [frameAt, gateDecided_frames]
      change frameAt _ _ _ = _
      refine (frameAt_setFrame _ k x.seq ?_).trans ?_
      · exact fun f => ⟨rfl, rfl, rfl⟩
      change (frameAt s k x.seq).map _ = _
      rw [hat, hpol]
      rfl
    rw [hset] at hfr
    obtain ⟨-, -, -, hv, hf, hr⟩ := settleFrame_keeps t { f with verdict := 5, final := true, reject := policyReject s k }
    exact ⟨_, hfr, hv, hf, hr⟩
  · have e := congrArg State.tracked ht
    exact e.trans (gateDecided_tracked _ _ _)
  · exact (hrd _ _).trans (hdl.trans (rd_bump s _ _))
  · rw [hrd, hverdict]
  · rw [hrd, hseq]
  · have hr := (hrd F.POD_GATE_REJECT_COUNT k).trans hreject
    rw [hpol, rd_bump_field _ _ _ (by decide)] at hr
    cases hp : policyReject s k <;> rw [hp] at hr <;> exact hr
  · rw [hrd]
    refine (hkeep g i fun p hp => hg p (by simp at hp ⊢; tauto)).trans ?_
    rw [bump_eq]
    exact rd_wr_ne _ _ _ _ _ _ (hg (F.POD_GATE_DL_OUT_COUNT, k) (by simp))

end

/-- Settles O36. The deadline's one tracked frame leaves the gate in `gateDecided`, marked first where the policy rejects. -/
theorem gatesTakeTheDeadlineOutcome : Obligations.GatesTakeTheDeadlineOutcome := by
  intro s k hk hworks
  refine ⟨fun mid val hclr => ⟨?_, ?_, ?_⟩, ?_, ?_⟩
  · exact fun hoff hen hrange hpods => answers_gateEnables hk hworks hoff hen hclr hrange hpods
  · exact fun hon hen hch => answers_gateCfgRefused hk hworks hon hen hclr hch
  · exact fun hon hen hsame hnone => answers_gateDisabled hk hworks hon hen hclr hsame hnone
  · exact fun u f htr hst hown hat hruns hvdt hdue => answers_gateDeadline hk hworks htr hst hown hat hruns hvdt hdue
  · exact answers_onBlock hk hworks fun t ht => cleared_of_settled ht (by decide)

end Sys2Proof.Machine
end

section
/-! Beacon channels: firing, configuration and the consumers PWR_WAKE, KEEP_IRQ and TWN_SEND (R482 to R490, R521, R541,
R549). -/
open Sys2Proof
namespace Sys2Proof.Machine

section
variable {s t u : State} {ch mid val : Nat}

/-! ### Firing -/

theorem foldl_if_eq {α : Type} {l : List Nat} (hl : l.Nodup) {k : Nat} (hk : k ∈ l) (f : α → Nat → α) (a : α) :
    l.foldl (fun a i => if i = k then f a i else a) a = f a k := by
  induction l generalizing a with
  | nil => simp at hk
  | cons x l ih =>
    obtain ⟨hx, hl⟩ := List.nodup_cons.mp hl
    have hrest : ∀ b, k ∉ l → l.foldl (fun a i => if i = k then f a i else a) b = b := by
      intro b hb
      refine List.foldlRecOn (motive := fun c => c = b) l _ rfl fun c hc i hi => ?_
      rw [if_neg fun e : i = k => hb (e ▸ hi)]; exact hc
    rw [List.foldl_cons]
    rcases List.mem_cons.mp hk with rfl | hk
    · rw [if_pos rfl, hrest _ hx]
    · rw [if_neg fun e : x = k => hx (e ▸ hk)]
      exact ih hl hk a

/-- A write of one bit to BCN_FIRE is one request. -/
theorem fireMask_bit (hch : ch < 48) (mid : Nat) : fireMask s mid (2 ^ ch) = (fireRequest s mid ch).2 := by
  rw [← foldl_if_eq (List.nodup_range (n := 48)) (List.mem_range.mpr hch) fun s c => (fireRequest s mid c).2]
  unfold fireMask
  congr 1
  funext s c
  rw [Nat.testBit_two_pow]
  by_cases h : c = ch
  · simp [h]
  · simp [h, Ne.symm h]

theorem fireRequest_ok (hadm : admits (rd s F.BCN_CH_CFG_ATTR ch) mid = true) (hen : isSet s F.BCN_CH_CFG_EN ch = true)
    (hown : isSet s F.BCN_CH_CFG_FIRE_OWNER_ONLY ch = false) :
    fireRequest s mid ch = (.ok, fireChannel (setBit s F.BCN_FIRE_CH 0 ch) ch true) := by
  unfold fireRequest
  rw [hadm, hen, hown]
  rfl

theorem fireRequest_disabled (hadm : admits (rd s F.BCN_CH_CFG_ATTR ch) mid = true) (hen : isSet s F.BCN_CH_CFG_EN ch = false) :
    fireRequest s mid ch = (.refused, setBit (bump s F.BCN_FIRE_REFUSED_COUNT) F.BCN_EVT_EVT 0 1) := by
  unfold fireRequest
  rw [hadm, hen]
  rfl

/-- The event of a channel with a real consumer enters the matrix. -/
theorem fireChannel_queues {soft : Bool} (hk : rd s F.BCN_CH_CFG_CONSUMER ch < 55) :
    fireChannel s ch soft = { s with beacons := s.beacons ++ [(ch, rd s F.BCN_CH_CFG_CONSUMER ch, soft)] } :=
  if_neg (Nat.not_le.mpr hk)

theorem answers_fires (hch : ch < 48) (hreach : blockReach s 2 = true) (hadm : admits (rd s F.BCN_CH_CFG_ATTR ch) mid = true)
    (hen : isSet s F.BCN_CH_CFG_EN ch = true) (hown : isSet s F.BCN_CH_CFG_FIRE_OWNER_ONLY ch = false)
    (hk : rd s F.BCN_CH_CFG_CONSUMER ch < 55) : Answers (exec (.bcnFireWrite mid (2 ^ ch)) s) fun t =>
      t.beacons = s.beacons ++ [(ch, rd s F.BCN_CH_CFG_CONSUMER ch, true)] ∧ hasBit t F.BCN_FIRE_CH 0 ch = true
      ∧ Keeps [(F.BCN_FIRE_CH, 0)] s t := by
  refine answers_reach (f := fun s => fireMask s mid (2 ^ ch)) hreach fun t ht => ?_
  have hcons : rd (setBit s F.BCN_FIRE_CH 0 ch) F.BCN_CH_CFG_CONSUMER ch = rd s F.BCN_CH_CFG_CONSUMER ch := by
    rw [setBit_eq, rd_wr_field _ _ _ _ _ _ (by decide)]
  rw [fireMask_bit hch, fireRequest_ok hadm hen hown] at ht
  dsimp only at ht
  rw [fireChannel_queues (by rwa [hcons]), hcons] at ht
  refine ⟨ht.beacons, ?_, ht.keeps ((Keeps.refl _ s).wr _ _ _ (by simp))⟩
  · rw [ht.hasBit]
    exact hasBit_setBit s _ _ _ (by exact hch)

theorem answers_fireRefused (hch : ch < 48) (hreach : blockReach s 2 = true)
    (hadm : admits (rd s F.BCN_CH_CFG_ATTR ch) mid = true) (hen : isSet s F.BCN_CH_CFG_EN ch = false) :
    Answers (exec (.bcnFireWrite mid (2 ^ ch)) s) fun t =>
      rd t F.BCN_FIRE_REFUSED_COUNT = min (rd s F.BCN_FIRE_REFUSED_COUNT + 1) (2 ^ F.BCN_FIRE_REFUSED_COUNT.width - 1)
      ∧ hasBit t F.BCN_EVT_EVT 0 1 = true ∧ Changes [(F.BCN_FIRE_REFUSED_COUNT, 0), (F.BCN_EVT_EVT, 0)] s t := by
  refine answers_reach (f := fun s => fireMask s mid (2 ^ ch)) hreach fun t ht => ?_
  rw [fireMask_bit hch, fireRequest_disabled hadm hen] at ht
  refine ⟨?_, ?_, (((RegsOnly.refl s).bump _ _).setBit _ _ _).changes ht (((Keeps.refl _ s).wr _ _ _ (by simp)).wr _ _ _ (by simp))⟩
  · rw [ht.rd, setBit_eq, rd_wr_field _ _ _ _ _ _ (by decide), rd_bump]
  · rw [ht.hasBit]
    exact hasBit_setBit _ _ _ _ (by decide)

/-! ### Configuration -/

/-- The fields of a channel that its owner may set too. -/
def channelSet (s : State) (ch val : Nat) : State :=
  wr (wr (wr s F.BCN_CH_CFG_EN ch (val % 2)) F.BCN_CH_CFG_CONSUMER ch (F.BCN_CH_CFG_CONSUMER.bits val))
    F.BCN_CH_CFG_FIRE_OWNER_ONLY ch (F.BCN_CH_CFG_FIRE_OWNER_ONLY.bits val)

theorem bcnCfgWrite_may (hmay : bcnMay s mid ch = true) (hx : F.BCN_CH_CFG_CONSUMER.bits val ≤ 95) :
    bcnCfgWrite s mid ch val =
      let u := channelSet s ch val
      if F.BCN_CH_CFG_OWNER.bits val = rd u F.BCN_CH_CFG_OWNER ch ∧ F.BCN_CH_CFG_ATTR.bits val = rd u F.BCN_CH_CFG_ATTR ch then u
      else if isSet u F.KL_LOCKS_BCN || !ruler mid then bcnRefuse u
      else wr (wr u F.BCN_CH_CFG_OWNER ch (F.BCN_CH_CFG_OWNER.bits val)) F.BCN_CH_CFG_ATTR ch (F.BCN_CH_CFG_ATTR.bits val) := by
  unfold bcnCfgWrite
  rw [hmay]
  exact if_neg (by simpa using hx)

theorem rd_channelSet {f : Field} (i : Nat)
    (hf : ∀ g ∈ [F.BCN_CH_CFG_EN, F.BCN_CH_CFG_CONSUMER, F.BCN_CH_CFG_FIRE_OWNER_ONLY], g.fid % 1024 ≠ f.fid % 1024) :
    rd (channelSet s ch val) f i = rd s f i := by
  unfold channelSet
  rw [rd_wr_field _ _ _ _ _ _ (hf _ (by simp)), rd_wr_field _ _ _ _ _ _ (hf _ (by simp)), rd_wr_field _ _ _ _ _ _ (hf _ (by simp))]

theorem Field.bits_mod (f : Field) (v : Nat) : f.bits v % 2 ^ f.width = f.bits v := Nat.mod_mod _ _

theorem channelSet_sets (s : State) (ch val : Nat) : rd (channelSet s ch val) F.BCN_CH_CFG_EN ch = val % 2
    ∧ rd (channelSet s ch val) F.BCN_CH_CFG_CONSUMER ch = F.BCN_CH_CFG_CONSUMER.bits val
    ∧ rd (channelSet s ch val) F.BCN_CH_CFG_FIRE_OWNER_ONLY ch = val / 2 ^ 14 % 2 := by
  unfold channelSet
  simp (disch := decide) only [rd_wr_field, rd_wr_same, Field.bits_mod]
  exact ⟨Nat.mod_mod _ _, trivial, rfl⟩

theorem channelSet_keeps {ks : List (Field × Nat)} (hks : ∀ p ∈ [(F.BCN_CH_CFG_EN, ch), (F.BCN_CH_CFG_CONSUMER, ch),
    (F.BCN_CH_CFG_FIRE_OWNER_ONLY, ch)], p ∈ ks) : Keeps ks s (channelSet s ch val) :=
  (((Keeps.refl _ s).wr _ _ _ (hks _ (by simp))).wr _ _ _ (hks _ (by simp))).wr _ _ _ (hks _ (by simp))

theorem channelSet_regsOnly : RegsOnly s (channelSet s ch val) := (((RegsOnly.refl s).wr _ _ _).wr _ _ _).wr _ _ _

theorem answers_channelSet (hch : ch < 48) (hreach : blockReach s 2 = true) (hmay : bcnMay s mid ch = true)
    (hx : F.BCN_CH_CFG_CONSUMER.bits val ≤ 95) (ho : F.BCN_CH_CFG_OWNER.bits val = rd s F.BCN_CH_CFG_OWNER ch)
    (ha : F.BCN_CH_CFG_ATTR.bits val = rd s F.BCN_CH_CFG_ATTR ch) : Answers (exec (.bcnCfgWrite mid ch val) s) fun t =>
      (rd t F.BCN_CH_CFG_EN ch = val % 2 ∧ rd t F.BCN_CH_CFG_CONSUMER ch = F.BCN_CH_CFG_CONSUMER.bits val
        ∧ rd t F.BCN_CH_CFG_FIRE_OWNER_ONLY ch = val / 2 ^ 14 % 2)
      ∧ Changes [(F.BCN_CH_CFG_EN, ch), (F.BCN_CH_CFG_CONSUMER, ch), (F.BCN_CH_CFG_FIRE_OWNER_ONLY, ch)] s t := by
  refine answers_unitReach hch hreach fun t ht => ?_
  rw [bcnCfgWrite_may hmay hx] at ht
  dsimp only at ht
  rw [rd_channelSet _ (by decide), rd_channelSet _ (by decide), if_pos ⟨ho, ha⟩] at ht
  obtain ⟨h1, h2, h3⟩ := channelSet_sets s ch val
  exact ⟨⟨(ht.rd _ _).trans h1, (ht.rd _ _).trans h2, (ht.rd _ _).trans h3⟩,
    channelSet_regsOnly.changes ht (channelSet_keeps fun _ h => h)⟩

theorem answers_channelOwned (hch : ch < 48) (hreach : blockReach s 2 = true) (hmay : bcnMay s mid ch = true)
    (hx : F.BCN_CH_CFG_CONSUMER.bits val ≤ 95) (hruler : ruler mid = true) (hlock : isSet s F.KL_LOCKS_BCN = false) :
    Answers (exec (.bcnCfgWrite mid ch val) s) fun t =>
      (rd t F.BCN_CH_CFG_EN ch = val % 2 ∧ rd t F.BCN_CH_CFG_CONSUMER ch = F.BCN_CH_CFG_CONSUMER.bits val
        ∧ rd t F.BCN_CH_CFG_FIRE_OWNER_ONLY ch = val / 2 ^ 14 % 2)
      ∧ rd t F.BCN_CH_CFG_OWNER ch = F.BCN_CH_CFG_OWNER.bits val ∧ rd t F.BCN_CH_CFG_ATTR ch = F.BCN_CH_CFG_ATTR.bits val
      ∧ Changes [(F.BCN_CH_CFG_OWNER, ch), (F.BCN_CH_CFG_ATTR, ch), (F.BCN_CH_CFG_EN, ch), (F.BCN_CH_CFG_CONSUMER, ch),
          (F.BCN_CH_CFG_FIRE_OWNER_ONLY, ch)] s t := by
  refine answers_unitReach hch hreach fun t ht => ?_
  have hlock' : isSet (channelSet s ch val) F.KL_LOCKS_BCN = false := by
    unfold isSet at *
    rwa [rd_channelSet _ (by decide)]
  rw [bcnCfgWrite_may hmay hx] at ht
  dsimp only at ht
  rw [hlock', hruler] at ht
  obtain ⟨h1, h2, h3⟩ := channelSet_sets s ch val
  have hkeep : ∀ ks, (∀ p ∈ [(F.BCN_CH_CFG_EN, ch), (F.BCN_CH_CFG_CONSUMER, ch), (F.BCN_CH_CFG_FIRE_OWNER_ONLY, ch)], p ∈ ks) →
      Keeps ks s (channelSet s ch val) := fun _ h => channelSet_keeps h
  have honly : RegsOnly s (channelSet s ch val) := channelSet_regsOnly
  generalize channelSet s ch val = v at *
  split at ht
  case isTrue heq =>
    exact ⟨⟨(ht.rd _ _).trans h1, (ht.rd _ _).trans h2, (ht.rd _ _).trans h3⟩, (ht.rd _ _).trans heq.1.symm,
      (ht.rd _ _).trans heq.2.symm, honly.changes ht (hkeep _ (by simp))⟩
  case isFalse =>
    have hrd : ∀ f i, rd t f i = rd (wr (wr v F.BCN_CH_CFG_OWNER ch (F.BCN_CH_CFG_OWNER.bits val)) F.BCN_CH_CFG_ATTR ch
      (F.BCN_CH_CFG_ATTR.bits val)) f i := ht.rd
    refine ⟨⟨?_, ?_, ?_⟩, ?_, ?_, ((honly.wr _ _ _).wr _ _ _).changes ht (((hkeep _ (by simp)).wr _ _ _ (by simp)).wr _ _ _ (by simp))⟩ <;>
      simp (disch := decide) only [hrd, rd_wr_field, rd_wr_same, Field.bits_mod, h1, h2, h3]

theorem answers_cfgRefused (hch : ch < 48) (hreach : blockReach s 2 = true)
    (h : bcnMay s mid ch = false ∨ 95 < F.BCN_CH_CFG_CONSUMER.bits val) : Answers (exec (.bcnCfgWrite mid ch val) s) fun t =>
      rd t F.BCN_CFG_REFUSED_COUNT = min (rd s F.BCN_CFG_REFUSED_COUNT + 1) (2 ^ F.BCN_CFG_REFUSED_COUNT.width - 1)
      ∧ hasBit t F.BCN_EVT_EVT 0 2 = true ∧ Changes [(F.BCN_CFG_REFUSED_COUNT, 0), (F.BCN_EVT_EVT, 0)] s t := by
  refine answers_unitReach hch hreach fun t ht => ?_
  have hw : bcnCfgWrite s mid ch val = bcnRefuse s := by
    unfold bcnCfgWrite
    exact if_pos (by simpa using h)
  rw [hw, bcnRefuse] at ht
  refine ⟨?_, ?_, (((RegsOnly.refl s).bump _ _).setBit _ _ _).changes ht (((Keeps.refl _ s).wr _ _ _ (by simp)).wr _ _ _ (by simp))⟩
  · rw [ht.rd, setBit_eq, rd_wr_field _ _ _ _ _ _ (by decide), rd_bump]
  · rw [ht.hasBit]
    exact hasBit_setBit _ _ _ _ (by decide)

/-- A fold of writes of zero over instances zeroes each of them. -/
theorem rd_foldl_clear (f : Field) (l : List Nat) (s : State) {i : Nat} (hi : i ∈ l) : rd (l.foldl (fun s c => wr s f c 0) s) f i = 0 := by
  induction l generalizing s with
  | nil => simp at hi
  | cons c l ih =>
    rw [List.foldl_cons]
    by_cases hl : i ∈ l
    · exact ih _ hl
    · have hc : i = c := by simpa [hl] using hi
      refine List.foldlRecOn (motive := fun t => rd t f i = 0) l _ ?_ fun t ht d hd => ?_
      · rw [hc, rd_wr_same, Nat.zero_mod]
      · rw [rd_wr_inst _ _ _ _ fun e : d = i => hl (e ▸ hd)]
        exact ht

theorem answers_bcnClrCounts (hreach : blockReach s 2 = true) : Answers (exec .bcnClrCounts s) fun t =>
    rd t F.BCN_FIRE_REFUSED_COUNT = 0 ∧ rd t F.BCN_CFG_REFUSED_COUNT = 0 ∧ ∀ c, c < 48 → rd t F.BCN_FIRES_COUNT c = 0 := by
  refine answers_reach hreach fun t ht => ?_
  unfold bcnClear clearAll at ht
  simp only [List.foldl_cons, List.foldl_nil] at ht
  refine ⟨?_, ?_, fun c hc => ?_⟩
  · rw [ht.rd, rd_wr_field _ _ _ _ _ _ (by decide), rd_wr_same, Nat.zero_mod]
  · rw [ht.rd, rd_wr_same, Nat.zero_mod]
  · rw [ht.rd, rd_wr_field _ _ _ _ _ _ (by decide), rd_wr_field _ _ _ _ _ _ (by decide)]
    exact rd_foldl_clear _ _ _ (List.mem_range.mpr hc)

/-! ### Consumers -/

/-- The one event on its way to a busy consumer with power is an overrun. -/
theorem beaconArrives_busy {k : Nat} {soft : Bool} {rest : List (Nat × Nat × Bool)} {p : Nat → Bool} {busy : State → Bool}
    {act : Nat → State → State} (hbeacons : s.beacons = (ch, k, soft) :: rest) (hp : p ch = true)
    (hup : ∀ d ∈ consumerDomains k, domUp s d = true) (hbusy : busy (deliver { s with beacons := rest } ch) = true) :
    beaconArrives s k p busy act = setBit (setOverrun (deliver { s with beacons := rest } ch) k) F.BCN_EVT_EVT 0 0 := by
  have hidle : (fun _ : State => false) (deliver { s with beacons := rest } ch) = false := rfl
  have h := beaconArrives_first (busy := fun _ => false) (act := fun _ t => setBit (setOverrun t k) F.BCN_EVT_EVT 0 0)
    hbeacons hp hup hidle
  rw [← h]
  unfold beaconArrives
  have htake : takeBeacon s k p = some (ch, { s with beacons := rest }) := by
    unfold takeBeacon
    have hfind : s.beacons.find? (fun e => e.2.1 == k && p e.1) = some (ch, k, soft) := by
      rw [hbeacons]
      exact List.find?_cons_of_pos (by simp [hp])
    rw [hfind]
    dsimp only
    rw [hbeacons, List.erase_cons_head]
  rw [htake]
  dsimp only
  rw [hbusy]
  simp only [if_true, Bool.false_eq_true, if_false]

/-- An event of the channel was delivered: it left the matrix, is counted and shown. -/
def Taken (s : State) (ch : Nat) (rest : List (Nat × Nat × Bool)) (u : State) : Prop :=
  u.beacons = rest ∧ rd u F.BCN_FIRES_COUNT ch = min (rd s F.BCN_FIRES_COUNT ch + 1) (2 ^ F.BCN_FIRES_COUNT.width - 1)
  ∧ hasBit u F.BCN_FIRED_CH 0 ch = true

theorem Taken.settled {rest : List (Nat × Nat × Bool)} (h : Taken s ch rest u) (ht : Settled u t) : Taken s ch rest t :=
  ⟨ht.beacons.trans h.1, (ht.rd _ _).trans h.2.1, (ht.hasBit _ _ _).trans h.2.2⟩

theorem Taken.congr {rest : List (Nat × Nat × Bool)} (h : Taken s ch rest u) (hr : t.regs = u.regs) (hb : t.beacons = u.beacons) :
    Taken s ch rest t := by
  unfold Taken hasBit at *
  rwa [rd_congr hr, rd_congr hr, hb]

theorem Taken.of_touches {rest : List (Nat × Nat × Bool)} {fs : List Field} (h : Taken s ch rest u) (ht : Touches fs u t)
    (hb : t.beacons = u.beacons) (hfs : ∀ f ∈ [F.BCN_FIRES_COUNT, F.BCN_FIRED_CH], ∀ g ∈ fs, g.fid % 1024 ≠ f.fid % 1024) :
    Taken s ch rest t := by
  obtain ⟨hbc, hcount, hfired⟩ := h
  refine ⟨hb.trans hbc, (ht _ _ (hfs _ (by simp))).trans hcount, ?_⟩
  unfold hasBit at *
  rwa [ht _ _ (hfs _ (by simp))]

theorem hasBit_deliver_fired (hch : ch < 48) : hasBit (deliver s ch) F.BCN_FIRED_CH 0 ch = true := by
  have hset : hasBit (setBit s F.BCN_FIRED_CH 0 ch) F.BCN_FIRED_CH 0 ch = true := hasBit_setBit s _ _ _ (by exact hch)
  have hsame : rd (deliver s ch) F.BCN_FIRED_CH = rd (setBit s F.BCN_FIRED_CH 0 ch) F.BCN_FIRED_CH := by
    unfold deliver
    dsimp only
    split <;> split <;> simp (disch := decide) only [rd_wr_field, rd_bump_field, clearBits_eq]
  unfold hasBit at *
  rwa [hsame]

theorem taken_deliver (hch : ch < 48) (s : State) (rest : List (Nat × Nat × Bool)) :
    Taken s ch rest (deliver { s with beacons := rest } ch) := by
  refine ⟨?_, (rd_deliver_fires _ ch).trans rfl, hasBit_deliver_fired hch⟩
  have e := congrArg State.beacons (deliver_regsOnly { s with beacons := rest } ch)
  exact e

/-- The domains of a list that BCN_WAKE of a channel names are woken one by one. -/
def wakeAll (ch : Nat) (l : List Nat) (s : State) : State :=
  l.foldl (fun s d => if hasBit s F.BCN_WAKE_DOMAINS ch d then wakeDomain s d else s) s

theorem wakeDomain_touches (s : State) (d : Nat) : Touches [F.PWR_WAKE_HELD_DOMAINS] s (wakeDomain s d) := by
  intro f i hf
  exact rd_wr_field _ _ _ _ _ _ (hf _ (by simp))

theorem wakeAll_touches (ch : Nat) (l : List Nat) (s : State) : Touches [F.PWR_WAKE_HELD_DOMAINS] s (wakeAll ch l s)
    ∧ (wakeAll ch l s).beacons = s.beacons := by
  refine List.foldlRecOn (motive := fun t => Touches [F.PWR_WAKE_HELD_DOMAINS] s t ∧ t.beacons = s.beacons) l _
    ⟨Touches.refl, rfl⟩ fun t ht d _ => ?_
  split
  · exact ⟨ht.1.trans (wakeDomain_touches t d), ht.2⟩
  · exact ht

theorem hasBit_wakeAll (ch : Nat) (l : List Nat) (s : State) (hl : ∀ x ∈ l, x < 24) {d : Nat} :
    hasBit (wakeAll ch l s) F.PWR_WAKE_HELD_DOMAINS 0 d
      = (hasBit s F.PWR_WAKE_HELD_DOMAINS 0 d || (decide (d ∈ l) && hasBit s F.BCN_WAKE_DOMAINS ch d)) := by
  induction l generalizing s with
  | nil => simp [wakeAll]
  | cons x l ih =>
    have hcons : wakeAll ch (x :: l) s = wakeAll ch l (if hasBit s F.BCN_WAKE_DOMAINS ch x then wakeDomain s x else s) := rfl
    rw [hcons, ih _ fun y hy => hl y (by simp [hy])]
    cases hx : hasBit s F.BCN_WAKE_DOMAINS ch x with
    | false => by_cases hd : d = x <;> simp [hd, hx]
    | true =>
      have hwake : hasBit (wakeDomain s x) F.BCN_WAKE_DOMAINS ch d = hasBit s F.BCN_WAKE_DOMAINS ch d := by
        unfold hasBit
        rw [wakeDomain_touches _ _ _ _ (by decide)]
      have hheld : hasBit (wakeDomain s x) F.PWR_WAKE_HELD_DOMAINS 0 d
          = (hasBit s F.PWR_WAKE_HELD_DOMAINS 0 d || decide (x = d)) := by
        unfold hasBit wakeDomain
        rw [rd_setBit _ _ _ _ (hl x (by simp)), Nat.testBit_or, Nat.testBit_two_pow]
        rfl
      rw [if_pos rfl, hheld, hwake]
      by_cases hd : d = x
      · subst hd; simp [hx]
      · simp [hd, Ne.symm hd]

theorem answers_pwrWakeEvent {soft : Bool} {rest : List (Nat × Nat × Bool)} (hch : ch < 48) (hb : s.beacons = (ch, 51, soft) :: rest) :
    Answers (exec (.pwrWakeEvent ch) s) fun t => Taken s ch rest t ∧ ∀ d, d < 24 → hasBit t F.PWR_WAKE_HELD_DOMAINS 0 d
      = (hasBit s F.PWR_WAKE_HELD_DOMAINS 0 d || hasBit s F.BCN_WAKE_DOMAINS ch d) := by
  have hexec : exec (.pwrWakeEvent ch) s = onUnit ch 48 s fun s => beaconArrives s 51 (· == ch) (fun _ => false) fun ch s =>
    wakeAll ch (List.range 24) s := rfl
  rw [hexec]
  refine answers_onUnit hch fun t ht => ?_
  rw [beaconArrives_first hb (by simp) (by simp [consumerDomains]) rfl] at ht
  have htaken := taken_deliver hch s rest
  have hsame : ∀ f i, (∀ g ∈ beaconFields, g.fid % 1024 ≠ f.fid % 1024) →
      rd (deliver { s with beacons := rest } ch) f i = rd s f i := fun f i hf => deliver_touches { s with beacons := rest } ch f i hf
  generalize deliver { s with beacons := rest } ch = v at *
  obtain ⟨htouch, hbeacons⟩ := wakeAll_touches ch (List.range 24) v
  refine ⟨(htaken.of_touches htouch hbeacons (by decide)).settled ht, fun d hd => ?_⟩
  rw [ht.hasBit, hasBit_wakeAll _ _ _ fun x hx => List.mem_range.mp hx]
  unfold hasBit
  rw [hsame _ _ (by decide), hsame _ _ (by decide), decide_eq_true (List.mem_range.mpr hd), Bool.true_and]

theorem answers_keepIrqEvent {soft : Bool} {rest : List (Nat × Nat × Bool)} (hch : ch < 48) (hb : s.beacons = (ch, 52, soft) :: rest) :
    Answers (exec (.keepIrqEvent ch) s) fun t => Taken s ch rest t ∧ t.keepIrq = true
        ∧ (s.keepIrq = true → hasBit t F.BCN_OVR_CONSUMER 1 20 = true ∧ hasBit t F.BCN_EVT_EVT 0 0 = true) := by
  have hexec : exec (.keepIrqEvent ch) s = onUnit ch 48 s fun s => beaconArrives s 52 (· == ch) (fun s => s.keepIrq)
    fun _ s => { s with keepIrq := true } := rfl
  rw [hexec]
  refine answers_onUnit hch fun t ht => ?_
  have hkeep : (deliver { s with beacons := rest } ch).keepIrq = s.keepIrq := by
    have e := congrArg State.keepIrq (deliver_regsOnly { s with beacons := rest } ch); exact e
  have htaken := taken_deliver hch s rest
  have hbusy := fun h => beaconArrives_busy (act := fun _ (s : State) => { s with keepIrq := true }) (busy := fun s => s.keepIrq)
    (p := (· == ch)) hb (by simp) (by simp [consumerDomains]) (hkeep.trans h)
  have hidle := fun h => beaconArrives_first (act := fun _ (s : State) => { s with keepIrq := true }) (busy := fun s => s.keepIrq)
    (p := (· == ch)) hb (by simp) (by simp [consumerDomains]) (hkeep.trans h)
  generalize deliver { s with beacons := rest } ch = v at *
  cases hk : s.keepIrq with
  | false =>
    rw [hidle hk] at ht
    refine ⟨Taken.settled (htaken.congr (by exact rfl) (by exact rfl)) ht, ?_, fun h => absurd h (by simp)⟩
    have e := congrArg State.keepIrq ht; exact e
  | true =>
    rw [hbusy hk] at ht
    refine ⟨Taken.settled (htaken.of_touches (fs := [F.BCN_OVR_CONSUMER, F.BCN_EVT_EVT])
      ((Touches.refl.wr _ _ _ (by simp)).wr _ _ _ (by simp)) rfl (by decide)) ht, ?_, fun _ => ⟨?_, ?_⟩⟩
    · have e := congrArg State.keepIrq ht
      exact e.trans (hkeep.trans hk)
    · rw [ht.hasBit, hasBit, setBit_eq, rd_wr_field _ _ _ _ _ _ (by decide)]
      exact hasBit_setBit _ _ _ _ (by decide)
    · rw [ht.hasBit]
      exact hasBit_setBit _ _ _ _ (by decide)

theorem answers_twnSendEvent {soft : Bool} {rest : List (Nat × Nat × Bool)} (hch : ch < 48) (hb : s.beacons = (ch, 53, soft) :: rest)
    (hcar : twnCarries s = true) (hnone : ∀ p ∈ s.twn.txq, p.1 ≠ tpBCN) : Answers (exec (.twnSendEvent ch) s) fun t =>
      Taken s ch rest t ∧ t.twn.txq = s.twn.txq ++ [(tpBCN, [ch, 0])] := by
  have hexec : exec (.twnSendEvent ch) s = onUnit ch 48 s fun s => beaconArrives s 53 (· == ch)
    (fun s => s.twn.txq.any fun p => p.1 == tpBCN) fun ch s => twnPush s tpBCN [ch, 0] := rfl
  rw [hexec]
  refine answers_onUnit hch fun t ht => ?_
  have htaken := taken_deliver hch s rest
  have hsame : ∀ f i, (∀ g ∈ beaconFields, g.fid % 1024 ≠ f.fid % 1024) →
      rd (deliver { s with beacons := rest } ch) f i = rd s f i := fun f i hf => deliver_touches { s with beacons := rest } ch f i hf
  have honly := deliver_regsOnly { s with beacons := rest } ch
  have htwn : (deliver { s with beacons := rest } ch).twn = s.twn := by
    have e := congrArg State.twn honly; exact e
  have hdom : domUp (deliver { s with beacons := rest } ch) 15 = domUp s 15 :=
    honly.domUp (deliver_touches { s with beacons := rest } ch) (by decide) 15
  have hcar' : twnCarries (deliver { s with beacons := rest } ch) = true := by
    unfold twnCarries twnPrbs isSet at *
    rwa [hdom, hsame _ _ (by decide), hsame _ _ (by decide), hsame _ _ (by decide)]
  have hup : domUp s 15 = true := (Bool.and_eq_true_iff.mp (Bool.and_eq_true_iff.mp hcar).1).1
  have hidle : ((deliver { s with beacons := rest } ch).twn.txq.any fun p => p.1 == tpBCN) = false := by
    rw [htwn]; simpa using hnone
  rw [beaconArrives_first (busy := fun s => s.twn.txq.any fun p => p.1 == tpBCN) hb (by simp) (by simpa [consumerDomains] using hup)
    hidle] at ht
  generalize deliver { s with beacons := rest } ch = v at *
  have hpush : twnPush v tpBCN [ch, 0] = setTwn v { v.twn with txq := v.twn.txq ++ [(tpBCN, [ch, 0])] } := by
    unfold twnPush
    rw [hcar']
    rfl
  rw [hpush, htwn] at ht
  refine ⟨(htaken.congr (by exact rfl) (by exact rfl)).settled ht, ?_⟩
  have e := congrArg (fun v : State => v.twn.txq) ht; exact e

end

/-- Settles O40. Each consumer's clause is `beaconArrives` on the one event on its way. -/
theorem beaconsFireAndAreConsumed : Obligations.BeaconsFireAndAreConsumed := by
  intro s ch hch
  refine ⟨fun hreach => ⟨fun mid => ⟨?_, ?_⟩, fun mid val => ⟨fun hmay hx => ⟨?_, ?_⟩, ?_⟩, ?_⟩, fun soft rest => ⟨?_, ?_, ?_⟩⟩
  · exact answers_fires hch hreach
  · exact answers_fireRefused hch hreach
  · exact answers_channelSet hch hreach hmay hx
  · exact answers_channelOwned hch hreach hmay hx
  · exact answers_cfgRefused hch hreach
  · exact answers_bcnClrCounts hreach
  · exact answers_pwrWakeEvent hch
  · exact answers_keepIrqEvent hch
  · exact answers_twnSendEvent hch

end Sys2Proof.Machine
end

section
/-! Submission to the DMA engine and the commands of its channels (R413, R428). -/
open Sys2Proof
namespace Sys2Proof.Machine

section
variable {s t u : State} {c mid : Nat}

/-- The descriptor that the submission registers spell. -/
def subDesc (s : State) (mid : Nat) : Desc :=
  newDesc mid ((List.range 16).flatMap fun k => toBytes 4 (rd s F.DMA_SUB_DESC_DATA k)) none none

theorem dmaSubGo_refused {a : Nat} (hdom : domUp s 22 = true) (ha : dmaAnswer s (subDesc s mid) = some a) :
    dmaSubGo s mid = wr s F.DMA_SUB_RES_RESULT 0 (Answer.of a).word := by
  unfold dmaSubGo dmaSubmit
  rw [hdom]
  dsimp only
  rw [show dmaAnswer s (newDesc mid _ none none) = some a from ha]
  rfl

theorem dmaSubGo_accepted (hdom : domUp s 22 = true) (ha : dmaAnswer s (subDesc s mid) = none) :
    dmaSubGo s mid = wr (acceptDesc s (subDesc s mid)) F.DMA_SUB_RES_RESULT 0 (Answer.mk stOK false false s.dmaNextId).word := by
  unfold dmaSubGo
  rw [hdom, dmaSubmit_accepted ha]
  rfl

theorem answers_subRefused {a : Nat} (hworks : blockWorks s 16 = true) (ha : dmaAnswer s (subDesc s mid) = some a) (hlt : a < 256) :
    Answers (exec (.dmaSubGo mid) s) fun t => rd t F.DMA_SUB_RES_RESULT = a ∧ Changes [(F.DMA_SUB_RES_RESULT, 0)] s t := by
  refine answers_inBlock hworks fun t ht => ?_
  rw [dmaSubGo_refused (domUp_of_blockWorks hworks rfl) ha] at ht
  have hword : (Answer.of a).word = a := by
    unfold Answer.of Answer.word
    simpa using hlt
  refine ⟨?_, ((RegsOnly.refl s).wr _ _ _).changes ht ((Keeps.refl _ s).wr _ _ _ (by simp))⟩
  rw [ht.rd, rd_wr_same, hword]
  exact Nat.mod_eq_of_lt (lt_trans hlt (by decide))

theorem answers_subAccepted (hworks : blockWorks s 16 = true) (ha : dmaAnswer s (subDesc s mid) = none) :
    Answers (exec (.dmaSubGo mid) s) fun t =>
      rd t F.DMA_SUB_RES_RESULT = s.dmaNextId % 2 ^ 16 * 2 ^ 16 ∧ t.descs = s.descs ++ [{ subDesc s mid with id := s.dmaNextId }]
      ∧ t.dmaNextId = (s.dmaNextId + 1) % 2 ^ 16 ∧ Keeps [(F.DMA_SUB_RES_RESULT, 0), (F.DMA_INFLIGHT_PEAK, 0)] s t := by
  refine answers_inBlock hworks fun t ht => ?_
  rw [dmaSubGo_accepted (domUp_of_blockWorks hworks rfl) ha] at ht
  refine ⟨?_, ht.descs, ?_, ht.keeps fun f i hf => ?_⟩
  · have hword : (Answer.mk stOK false false s.dmaNextId).word = s.dmaNextId % 2 ^ 16 * 2 ^ 16 := by
      unfold Answer.word stOK
      simp
    rw [ht.rd, rd_wr_same, hword]
    refine Nat.mod_eq_of_lt ?_
    have : s.dmaNextId % 2 ^ 16 < 2 ^ 16 := Nat.mod_lt _ (by decide)
    show _ < 2 ^ 32
    omega
  · have e := congrArg State.dmaNextId ht; exact e
  · rw [rd_wr_ne _ _ _ _ _ _ (hf (F.DMA_SUB_RES_RESULT, 0) (by simp))]
    exact (rd_wr_ne _ _ _ _ _ _ (hf (F.DMA_INFLIGHT_PEAK, 0) (by simp))).trans rfl

/-! ### Channel commands -/

theorem dmaChAt_setDmaCh_same (s : State) (c : Nat) (k : DmaCh) : dmaChAt (setDmaCh s c k) c = k := sget_sset_same ..

theorem dmaChAt_setDmaCh_ne (s : State) {c e : Nat} (k : DmaCh) (h : e ≠ c) : dmaChAt (setDmaCh s c k) e = dmaChAt s e :=
  sget_sset_ne _ _ _ _ h

theorem dmaChAt_congr (h : t.dmaCh = s.dmaCh) (c : Nat) : dmaChAt t c = dmaChAt s c := by
  unfold dmaChAt; rw [h]

theorem dmaChAt_dmaEvt (s : State) (c b e : Nat) : dmaChAt (dmaEvt s c b) e = dmaChAt s e := rfl

/-- A command that sets one channel's state and nothing else. -/
theorem settled_setDmaCh {k : DmaCh} (ht : Settled (setDmaCh s c k) t) : Settled { s with dmaCh := t.dmaCh } t := by
  have hd := ht.dmaCh
  unfold Settled at *
  rw [hd]
  exact ht

theorem answers_dmaPause (hc : c < 64) (hworks : blockWorks s 16 = true) : Answers (exec (.dmaPause c) s) fun t =>
    dmaChAt t c = { dmaChAt s c with paused := true } ∧ (∀ e, e ≠ c → dmaChAt t e = dmaChAt s e)
    ∧ hasBit t F.DMA_CH_EVT_EVT c 4 = true ∧ Keeps [(F.DMA_CH_EVT_EVT, c)] s t := by
  refine answers_onBlock hc hworks fun t ht => ?_
  rw [dmaPause, if_pos (domUp_of_blockWorks hworks rfl)] at ht
  refine ⟨?_, fun e he => ?_, ?_, ht.keeps fun f i hf => (rd_wr_ne _ _ _ _ _ _ (hf (F.DMA_CH_EVT_EVT, c) (by simp))).trans rfl⟩
  · exact (dmaChAt_congr ht.dmaCh c).trans ((dmaChAt_dmaEvt ..).trans (dmaChAt_setDmaCh_same s c _))
  · exact (dmaChAt_congr ht.dmaCh e).trans ((dmaChAt_dmaEvt ..).trans (dmaChAt_setDmaCh_ne s _ he))
  · rw [ht.hasBit]
    exact hasBit_setBit _ _ _ _ (by decide)

theorem answers_dmaResume (hc : c < 64) (hworks : blockWorks s 16 = true) (hnone : activeDesc s c = none) :
    Answers (exec (.dmaResume c) s) fun t =>
      dmaChAt t c = DmaCh.init ∧ (∀ e, e ≠ c → dmaChAt t e = dmaChAt s e) ∧ Settled { s with dmaCh := t.dmaCh } t := by
  refine answers_onBlock hc hworks fun t ht => ?_
  have hres : dmaResume s c = setDmaCh s c DmaCh.init := by
    unfold dmaResume
    rw [domUp_of_blockWorks hworks rfl]
    dsimp only
    rw [show activeDesc (setDmaCh s c DmaCh.init) c = none from hnone]
    rfl
  rw [hres] at ht
  exact ⟨(dmaChAt_congr ht.dmaCh c).trans (dmaChAt_setDmaCh_same s c _),
    fun e he => (dmaChAt_congr ht.dmaCh e).trans (dmaChAt_setDmaCh_ne s _ he), settled_setDmaCh ht⟩

/-- A channel that drains runs out where it has no descriptor. -/
theorem dmaDrained_setDmaCh (s : State) (c : Nat) : dmaDrained (setDmaCh s c ⟨false, true⟩) c =
    if (chanDescs s c).isEmpty then dmaEvt (setDmaCh (setDmaCh s c ⟨false, true⟩) c DmaCh.init) c 5
    else setDmaCh s c ⟨false, true⟩ := by
  unfold dmaDrained
  rw [dmaChAt_setDmaCh_same]
  rfl

theorem dmaDrain_eq (hdom : domUp s 22 = true) : dmaDrain s c = dmaDrained (setDmaCh s c ⟨false, true⟩) c := if_pos hdom

theorem answers_drainEmpty (hc : c < 64) (hworks : blockWorks s 16 = true) (hnone : ∀ d ∈ s.descs, d.chan ≠ c) :
    Answers (exec (.dmaDrain c) s) fun t =>
      dmaChAt t c = DmaCh.init ∧ hasBit t F.DMA_CH_EVT_EVT c 5 = true ∧ Keeps [(F.DMA_CH_EVT_EVT, c)] s t := by
  refine answers_onBlock hc hworks fun t ht => ?_
  have hempty : (chanDescs s c).isEmpty = true := by
    unfold chanDescs
    simpa using hnone
  rw [dmaDrain_eq (domUp_of_blockWorks hworks rfl), dmaDrained_setDmaCh, if_pos hempty] at ht
  refine ⟨(dmaChAt_congr ht.dmaCh c).trans ((dmaChAt_dmaEvt ..).trans (dmaChAt_setDmaCh_same _ c _)), ?_,
    ht.keeps fun f i hf => (rd_wr_ne _ _ _ _ _ _ (hf (F.DMA_CH_EVT_EVT, c) (by simp))).trans rfl⟩
  rw [ht.hasBit]
  exact hasBit_setBit _ _ _ _ (by decide)

theorem answers_drainBegins (hc : c < 64) (hworks : blockWorks s 16 = true) (hsome : ∃ d ∈ s.descs, d.chan = c) :
    Answers (exec (.dmaDrain c) s) fun t => dmaChAt t c = ⟨false, true⟩ ∧ Settled { s with dmaCh := t.dmaCh } t := by
  refine answers_onBlock hc hworks fun t ht => ?_
  have hbusy : (chanDescs s c).isEmpty = false := by
    unfold chanDescs
    simpa using hsome
  rw [dmaDrain_eq (domUp_of_blockWorks hworks rfl), dmaDrained_setDmaCh, if_neg (by simp [hbusy])] at ht
  exact ⟨(dmaChAt_congr ht.dmaCh c).trans (dmaChAt_setDmaCh_same s c _), settled_setDmaCh ht⟩

end

/-- Settles O38. -/
theorem dmaSubmissionsAndChannelCommandsAct : Obligations.DmaSubmissionsAndChannelCommandsAct := by
  intro s hworks
  refine ⟨fun mid => ⟨fun a ha hlt => ?_, fun ha => ?_⟩, fun c hc => ⟨?_, ?_, ?_, ?_, ?_⟩⟩
  · exact answers_subRefused hworks ha hlt
  · exact answers_subAccepted hworks ha
  · exact answers_dmaPause hc hworks
  · exact answers_dmaResume hc hworks
  · exact answers_drainEmpty hc hworks
  · exact answers_drainBegins hc hworks
  · exact answers_onBlock hc hworks fun t ht => cleared_of_settled ht (by decide)

end Sys2Proof.Machine
end

section
/-! LP5X training and BURST recording (R396 to R409). -/
open Sys2Proof
namespace Sys2Proof.Machine

section
variable {s t u : State} {k ch : Nat}

/-! ### Training -/

theorem answers_memTrain (hworks : blockWorks s 17 = true) :
    Answers (exec .memTrain s) fun t => rd t F.MEM_STATUS_STATE = 1 ∧ Changes [(F.MEM_STATUS_STATE, 0)] s t := by
  refine answers_inBlock hworks fun t ht => ?_
  rw [memTrain, if_pos (domUp_of_blockWorks hworks rfl)] at ht
  exact ⟨(ht.rd _ _).trans (rd_wr_same _ _ _ _), ((RegsOnly.refl s).wr _ _ _).changes ht ((Keeps.refl _ s).wr _ _ _ (by simp))⟩

/-- Training that found every channel. -/
def memTrained (s : State) (chOk gib : Nat) : State :=
  memEvt (wr (wr (wr (wr s F.MEM_STATUS_CH_OK 0 chOk) F.MEM_USABLE_VALUE 0
    (if isSet s F.MEM_CFG_INLINE_ECC then gib * 2 ^ 27 * 7 else gib * 2 ^ 30)) F.GLB_CAP_MEM_GIB 0 gib) F.MEM_STATUS_STATE 0 2) 0

theorem memTrainDone_eq {chOk gib : Nat} (hst : rd s F.MEM_STATUS_STATE = 1) (hgib : gib ∈ [8, 16, 32, 64]) :
    memTrainDone s chOk gib = if chOk % 256 = 255 then memTrained s chOk gib
      else memEvt (wr (wr s F.MEM_STATUS_CH_OK 0 chOk) F.MEM_STATUS_STATE 0 3) 1 := by
  have hcap : memCapacities.contains gib = true := by simpa [memCapacities] using hgib
  have hecc : isSet (wr s F.MEM_STATUS_CH_OK 0 chOk) F.MEM_CFG_INLINE_ECC = isSet s F.MEM_CFG_INLINE_ECC := by
    unfold isSet
    rw [rd_wr_field _ _ _ _ _ _ (by decide)]
  have hbytes : gib * 2 ^ 30 / 8 * 7 = gib * 2 ^ 27 * 7 := by omega
  unfold memTrainDone memTrained
  rw [hst, hcap]
  dsimp only
  rw [hecc, hbytes]
  rfl

theorem answers_memTrainDone {chOk gib : Nat} (hworks : blockWorks s 17 = true) (hst : rd s F.MEM_STATUS_STATE = 1)
    (hgib : gib ∈ [8, 16, 32, 64]) : Answers (exec (.memTrainDone chOk gib) s) fun t =>
      rd t F.MEM_STATUS_CH_OK = chOk % 256
      ∧ (chOk % 256 = 255 → rd t F.MEM_STATUS_STATE = 2 ∧ rd t F.GLB_CAP_MEM_GIB = gib % 256
        ∧ hasBit t F.MEM_EVT_EVT 0 0 = true
        ∧ rd t F.MEM_USABLE_VALUE
          = (if isSet s F.MEM_CFG_INLINE_ECC then gib * 2 ^ 27 * 7 else gib * 2 ^ 30) % 2 ^ F.MEM_USABLE_VALUE.width)
      ∧ (chOk % 256 ≠ 255 → rd t F.MEM_STATUS_STATE = 3 ∧ hasBit t F.MEM_EVT_EVT 0 1 = true)
      ∧ Changes [(F.MEM_STATUS_CH_OK, 0), (F.MEM_STATUS_STATE, 0), (F.GLB_CAP_MEM_GIB, 0), (F.MEM_USABLE_VALUE, 0),
          (F.MEM_EVT_EVT, 0)] s t := by
  refine answers_inBlock hworks fun t ht => ?_
  rw [memTrainDone_eq hst hgib] at ht
  by_cases hall : chOk % 256 = 255
  · rw [if_pos hall] at ht
    refine ⟨?_, fun _ => ⟨?_, ?_, ?_, ?_⟩, fun h => absurd hall h, ?_⟩
    case refine_4 =>
      rw [ht.hasBit]
      exact hasBit_setBit _ _ _ _ (by decide)
    case refine_6 =>
      exact (((((RegsOnly.refl s).wr _ _ _).wr _ _ _).wr _ _ _).wr _ _ _ |>.setBit _ _ _).changes ht
        ((((((Keeps.refl _ s).wr _ _ _ (by simp)).wr _ _ _ (by simp)).wr _ _ _ (by simp)).wr _ _ _ (by simp)).wr _ _ _ (by simp))
    all_goals simp (disch := decide) only [ht.rd, memTrained, memEvt, setBit_eq, rd_wr_field, rd_wr_same] <;> rfl
  · rw [if_neg hall] at ht
    refine ⟨?_, fun h => absurd h hall, fun _ => ⟨?_, ?_⟩, ?_⟩
    case refine_3 =>
      rw [ht.hasBit]
      exact hasBit_setBit _ _ _ _ (by decide)
    case refine_4 =>
      exact ((((RegsOnly.refl s).wr _ _ _).wr _ _ _).setBit _ _ _).changes ht
        ((((Keeps.refl _ s).wr _ _ _ (by simp)).wr _ _ _ (by simp)).wr _ _ _ (by simp))
    all_goals
      simp (disch := decide) only [ht.rd, memEvt, setBit_eq, rd_wr_field, rd_wr_same]
      rfl

theorem rd_clearAll_inst (fs : List Field) (s : State) {i j : Nat} (g : Field) (h : i ≠ j) : rd (clearAll s fs i) g j = rd s g j := by
  unfold clearAll
  refine List.foldlRecOn (motive := fun t => rd t g j = rd s g j) fs _ rfl fun t ht f _ => ?_
  rw [rd_wr_inst _ _ _ _ h]
  exact ht

theorem rd_clearAll_field (fs : List Field) (s : State) {i : Nat} (g : Field) (j : Nat)
    (h : ∀ f ∈ fs, f.fid % 1024 ≠ g.fid % 1024) : rd (clearAll s fs i) g j = rd s g j := by
  unfold clearAll
  refine List.foldlRecOn (motive := fun t => rd t g j = rd s g j) fs _ rfl fun t ht f hf => ?_
  rw [rd_wr_field _ _ _ _ _ _ (h f hf)]
  exact ht

/-- Counters cleared at each index of a list read zero at each of them. -/
theorem rd_foldl_clearAll {fs : List Field} (hfs : ∀ f ∈ fs, ∀ g ∈ fs, f.fid % 1024 = g.fid % 1024 → f = g) (l : List Nat)
    (s : State) {i : Nat} (hi : i ∈ l) {f : Field} (hf : f ∈ fs) : rd (l.foldl (fun s k => clearAll s fs k) s) f i = 0 := by
  induction l generalizing s with
  | nil => simp at hi
  | cons c l ih =>
    rw [List.foldl_cons]
    by_cases hl : i ∈ l
    · exact ih _ hl
    · have hc : i = c := by simpa [hl] using hi
      refine List.foldlRecOn (motive := fun t => rd t f i = 0) l _ ?_ fun t ht d hd => ?_
      · rw [hc]
        exact rd_clearAll_mem fs s c f hf fun g hg => hfs g hg f hf
      · rw [rd_clearAll_inst _ _ _ fun e : d = i => hl (e ▸ hd)]
        exact ht

/-- The counters of the store and those of each stream. -/
def memStoreCounters : List Field := [F.MEM_LINK_CORR_COUNT, F.MEM_INLINE_CORR_COUNT, F.MEM_UNCORR_COUNT]
def memStreamCounters : List Field := [F.MEM_SREG_DROPPED_COUNT, F.MEM_BURST_EXTRA_COUNT]

theorem memClear_eq (s : State) :
    memClear s = (List.range 64).foldl (fun s k => clearAll s memStreamCounters k) (clearAll s memStoreCounters 0) := by
  unfold memClear memStreamCounters memStoreCounters
  with_reducible rfl

theorem rd_memClear_store {f : Field} (hf : f ∈ memStoreCounters) : rd (memClear s) f = 0 := by
  have hown : ∀ g ∈ memStoreCounters, g.fid % 1024 = f.fid % 1024 → g = f :=
    (by decide : ∀ f ∈ memStoreCounters, ∀ g ∈ memStoreCounters, g.fid % 1024 = f.fid % 1024 → g = f) f hf
  have hother : ∀ g ∈ memStreamCounters, g.fid % 1024 ≠ f.fid % 1024 :=
    (by decide : ∀ f ∈ memStoreCounters, ∀ g ∈ memStreamCounters, g.fid % 1024 ≠ f.fid % 1024) f hf
  rw [memClear_eq]
  generalize List.range 64 = l
  refine List.foldlRecOn (motive := fun t => rd t f = 0) l _ ?_ fun u hu j _ => ?_
  · exact rd_clearAll_mem _ s 0 f hf hown
  · exact (rd_clearAll_field _ _ f 0 hother).trans hu

theorem rd_memClear_stream {f : Field} (hf : f ∈ memStreamCounters) (hk : k < 64) : rd (memClear s) f k = 0 := by
  rw [memClear_eq]
  exact rd_foldl_clearAll (by decide) _ _ (List.mem_range.mpr hk) hf

theorem answers_memClrCounts (hworks : blockWorks s 17 = true) : Answers (exec .memClrCounts s) fun t =>
      rd t F.MEM_LINK_CORR_COUNT = 0 ∧ rd t F.MEM_INLINE_CORR_COUNT = 0 ∧ rd t F.MEM_UNCORR_COUNT = 0
      ∧ ∀ k, k < 64 → rd t F.MEM_SREG_DROPPED_COUNT k = 0 ∧ rd t F.MEM_BURST_EXTRA_COUNT k = 0 := by
  refine answers_inBlock hworks fun t ht => ?_
  exact ⟨(ht.rd _ _).trans (rd_memClear_store (by decide)), (ht.rd _ _).trans (rd_memClear_store (by decide)),
    (ht.rd _ _).trans (rd_memClear_store (by decide)), fun k hk => ⟨(ht.rd _ _).trans (rd_memClear_stream (by decide) hk),
      (ht.rd _ _).trans (rd_memClear_stream (by decide) hk)⟩⟩

/-! ### BURST recording -/

theorem answers_burstArm (hk : k < 64) (hworks : blockWorks s 17 = true) (h : burstState s k = 0) :
    Answers (exec (.burstArm k) s) fun t => burstState t k = 1 ∧ Changes [(F.MEM_BURST_CFG_STATE, k)] s t := by
  refine answers_onBlock hk hworks fun t ht => ?_
  rw [burstArm, if_pos h] at ht
  exact ⟨(ht.rd _ _).trans (rd_wr_same _ _ _ _), ((RegsOnly.refl s).wr _ _ _).changes ht ((Keeps.refl _ s).wr _ _ _ (by simp))⟩

theorem answers_burstArm_not (hk : k < 64) (hworks : blockWorks s 17 = true) (h : burstState s k ≠ 0) :
    Answers (exec (.burstArm k) s) fun t => Settled s t := by
  refine answers_onBlock hk hworks fun t ht => ?_
  rwa [burstArm, if_neg h] at ht

theorem answers_burstDisarm (hk : k < 64) (hworks : blockWorks s 17 = true) :
    Answers (exec (.burstDisarm k) s) fun t => burstState t k = 0 ∧ Changes [(F.MEM_BURST_CFG_STATE, k)] s t :=
  answers_onBlock hk hworks fun _ ht => ⟨(ht.rd _ _).trans (rd_wr_same _ _ _ _),
    ((RegsOnly.refl s).wr _ _ _).changes ht ((Keeps.refl _ s).wr _ _ _ (by simp))⟩

theorem burstNext_of_none (hnone : ∀ f ∈ s.frames, f.stream = k → f.nsFs ≠ s.ns) : burstNext s k = rd s F.PKT_SEQ_VALUE k := by
  have : (s.frames.filter fun f => f.stream == k && f.tent.isNone && f.nsFs == s.ns) = [] := by
    rw [List.filter_eq_nil_iff]
    intro f hf h
    simp only [Bool.and_eq_true, beq_iff_eq] at h
    exact hnone f hf h.1.1 h.2
  unfold burstNext
  rw [this]
  rfl

/-- An armed stream takes an end event with a POST count. -/
def burstTaken (s : State) (k post : Nat) : State :=
  wr { wr (wr s F.MEM_BURST_EVENT_TB_VALUE k s.tb) F.MEM_BURST_EVENT_SEQ_VALUE k (rd s F.PKT_SEQ_VALUE k)
    with burstPost := sset s.burstPost 0 k (post + 1) } F.MEM_BURST_CFG_STATE k 2

theorem burstEnd_armed {post : Nat} (hst : burstState s k = 1) (hnone : ∀ f ∈ s.frames, f.stream = k → f.nsFs ≠ s.ns) :
    burstEnd s k post = if post = 0 then burstFreeze (burstTaken s k post) k else burstTaken s k post := by
  unfold burstEnd
  rw [hst]
  dsimp only
  rw [burstNext_of_none hnone]
  rfl

theorem rd_burstTaken (s : State) (k post : Nat) : rd (burstTaken s k post) F.MEM_BURST_CFG_STATE k = 2
    ∧ rd (burstTaken s k post) F.MEM_BURST_EVENT_TB_VALUE k = s.tb % 2 ^ 64
    ∧ rd (burstTaken s k post) F.MEM_BURST_EVENT_SEQ_VALUE k = rd s F.PKT_SEQ_VALUE k := by
  have hregs : (burstTaken s k post).regs = (wr (wr (wr s F.MEM_BURST_EVENT_TB_VALUE k s.tb) F.MEM_BURST_EVENT_SEQ_VALUE k
    (rd s F.PKT_SEQ_VALUE k)) F.MEM_BURST_CFG_STATE k 2).regs := rfl
  refine ⟨?_, ?_, ?_⟩ <;> rw [rd_congr hregs] <;> simp (disch := decide) only [rd_wr_field, rd_wr_same]
  · rfl
  · rfl
  · exact rd_mod s F.PKT_SEQ_VALUE k


theorem burstTaken_keeps (s : State) (k post : Nat) : Keeps [(F.MEM_BURST_CFG_STATE, k), (F.MEM_BURST_EVENT_TB_VALUE, k),
    (F.MEM_BURST_EVENT_SEQ_VALUE, k)] s (burstTaken s k post) := by
  have hregs : (burstTaken s k post).regs = (wr (wr (wr s F.MEM_BURST_EVENT_TB_VALUE k s.tb) F.MEM_BURST_EVENT_SEQ_VALUE k
    (rd s F.PKT_SEQ_VALUE k)) F.MEM_BURST_CFG_STATE k 2).regs := rfl
  intro f i hf
  rw [rd_congr hregs]
  exact ((((Keeps.refl _ s).wr F.MEM_BURST_EVENT_TB_VALUE k _ (by simp)).wr F.MEM_BURST_EVENT_SEQ_VALUE k _ (by simp)).wr
    F.MEM_BURST_CFG_STATE k _ (by simp)) f i hf

theorem Keeps.touches {ks : List (Field × Nat)} (h : Keeps ks s u) {fs : List Field} (hfs : ks.map Prod.fst = fs) :
    Touches fs s u := fun f i hf => h f i fun p hp he =>
  hf p.1 (hfs ▸ List.mem_map_of_mem hp) ((key_eq_iff _ _ _ _).mp he).1

theorem burstTaken_touches (s : State) (k post : Nat) : Touches [F.MEM_BURST_CFG_STATE, F.MEM_BURST_EVENT_TB_VALUE,
    F.MEM_BURST_EVENT_SEQ_VALUE] s (burstTaken s k post) := (burstTaken_keeps s k post).touches rfl

/-- What stands in a stream's region depends on its NEWEST and its slots alone. -/
theorem heldBelow_congr (hframes : u.frames = s.frames) (hrd : ∀ f ∈ [F.MEM_SREG_NEWEST_SEQ, F.MEM_SREG_NEWEST_STORED,
    F.MEM_SREG_CFG_SIZE_LOG2, F.MEM_SREG_CFG_SLOT_LOG2], rd u f k = rd s f k) (e : Nat) : heldBelow u k e = heldBelow s k e := by
  unfold heldBelow held regionSlots isSet
  rw [hframes]
  simp only [hrd _ (by simp : F.MEM_SREG_NEWEST_SEQ ∈ _), hrd _ (by simp : F.MEM_SREG_NEWEST_STORED ∈ _),
    hrd _ (by simp : F.MEM_SREG_CFG_SIZE_LOG2 ∈ _), hrd _ (by simp : F.MEM_SREG_CFG_SLOT_LOG2 ∈ _)]

/-- The registers of a stream that the burst logic freezes. -/
def burstFrozen (s : State) (k : Nat) : State :=
  memEvt (wr (wr (wr (wr s F.PKT_SCFG_GATING k 2) F.MEM_BURST_PRE_HELD_VALUE k
    (min (rd s F.MEM_BURST_PRE_VALUE k) (heldBelow s k (rd s F.MEM_BURST_EVENT_SEQ_VALUE k)))) F.MEM_BURST_CFG_STATE k 3)
    F.MEM_SREG_CFG_FROZEN_SEEN k 1) 4

theorem burstFreeze_eq (hfrz : ∀ i, i < 4 → isSet s F.MEM_FRZ_CFG_EN i = false) : burstFreeze s k = burstFrozen s k := by
  have hgate : ∀ f, F.PKT_SCFG_GATING.fid % 1024 ≠ f.fid % 1024 → rd (wr s F.PKT_SCFG_GATING k 2) f k = rd s f k :=
    fun f hf => rd_wr_field _ _ _ _ _ _ hf
  have hheld : ∀ e, heldBelow (wr s F.PKT_SCFG_GATING k 2) k e = heldBelow s k e :=
    heldBelow_congr rfl fun f hf => hgate f
      ((by decide : ∀ f ∈ [F.MEM_SREG_NEWEST_SEQ, F.MEM_SREG_NEWEST_STORED, F.MEM_SREG_CFG_SIZE_LOG2, F.MEM_SREG_CFG_SLOT_LOG2],
        F.PKT_SCFG_GATING.fid % 1024 ≠ f.fid % 1024) f hf)
  have hoff : ∀ i, i < 4 → isSet (burstFrozen s k) F.MEM_FRZ_CFG_EN i = false := by
    intro i hi
    have h := hfrz i hi
    unfold isSet burstFrozen memEvt at *
    simpa (disch := decide) only [setBit_eq, rd_wr_field] using h
  have hfold : (List.range 4).foldl (fun s i =>
      if isSet s F.MEM_FRZ_CFG_EN i && rd s F.MEM_FRZ_CFG_STREAM i == k then fireProducer s (108 + i) else s) (burstFrozen s k)
      = burstFrozen s k := by
    refine List.foldlRecOn (motive := fun t => t = burstFrozen s k) (List.range 4) _ rfl fun t ht i hi => ?_
    rw [ht, hoff i (List.mem_range.mp hi)]
    rfl
  unfold burstFreeze
  dsimp only
  rw [hgate _ (by decide), hgate _ (by decide), hheld]
  exact hfold

theorem rd_burstFrozen (s : State) (k : Nat) : rd (burstFrozen s k) F.MEM_BURST_CFG_STATE k = 3
    ∧ rd (burstFrozen s k) F.PKT_SCFG_GATING k = 2
    ∧ rd (burstFrozen s k) F.MEM_BURST_PRE_HELD_VALUE k
      = min (rd s F.MEM_BURST_PRE_VALUE k) (heldBelow s k (rd s F.MEM_BURST_EVENT_SEQ_VALUE k))
    ∧ rd (burstFrozen s k) F.MEM_SREG_CFG_FROZEN_SEEN k = 1 ∧ hasBit (burstFrozen s k) F.MEM_EVT_EVT 0 4 = true := by
  refine ⟨?_, ?_, ?_, ?_, hasBit_setBit _ _ _ _ (by decide)⟩ <;> unfold burstFrozen memEvt <;>
    simp (disch := decide) only [setBit_eq, rd_wr_field, rd_wr_same]
  · rfl
  · rfl
  · refine Nat.mod_eq_of_lt (lt_of_le_of_lt (min_le_left _ _) (rd_lt s _ k))
  · rfl

theorem burstFrozen_keeps (s : State) (k : Nat) : Keeps [(F.PKT_SCFG_GATING, k), (F.MEM_BURST_PRE_HELD_VALUE, k),
    (F.MEM_BURST_CFG_STATE, k), (F.MEM_SREG_CFG_FROZEN_SEEN, k), (F.MEM_EVT_EVT, 0)] s (burstFrozen s k) :=
  (((((Keeps.refl _ s).wr _ _ _ (by simp)).wr _ _ _ (by simp)).wr _ _ _ (by simp)).wr _ _ _ (by simp)).wr _ _ _ (by simp)

theorem burstFrozen_touches (s : State) (k : Nat) : Touches [F.PKT_SCFG_GATING, F.MEM_BURST_PRE_HELD_VALUE,
    F.MEM_BURST_CFG_STATE, F.MEM_SREG_CFG_FROZEN_SEEN, F.MEM_EVT_EVT] s (burstFrozen s k) := (burstFrozen_keeps s k).touches rfl

theorem heldBelow_burstTaken (s : State) (k post e : Nat) : heldBelow (burstTaken s k post) k e = heldBelow s k e :=
  heldBelow_congr (s := s) (u := burstTaken s k post) rfl (fun f hf => burstTaken_touches s k post f k
    ((by decide : ∀ f ∈ [F.MEM_SREG_NEWEST_SEQ, F.MEM_SREG_NEWEST_STORED, F.MEM_SREG_CFG_SIZE_LOG2, F.MEM_SREG_CFG_SLOT_LOG2],
      ∀ g ∈ [F.MEM_BURST_CFG_STATE, F.MEM_BURST_EVENT_TB_VALUE, F.MEM_BURST_EVENT_SEQ_VALUE], g.fid % 1024 ≠ f.fid % 1024) f hf)) e

theorem answers_freezeNow (hk : k < 64) (hworks : blockWorks s 17 = true) (hst : burstState s k = 1)
    (hnone : ∀ f ∈ s.frames, f.stream = k → f.nsFs ≠ s.ns) (hfrz : ∀ i, i < 4 → isSet s F.MEM_FRZ_CFG_EN i = false) :
    Answers (exec (.freezeNow k) s) fun t =>
        burstState t k = 3 ∧ rd t F.MEM_BURST_EVENT_TB_VALUE k = s.tb % 2 ^ 64
        ∧ rd t F.MEM_BURST_EVENT_SEQ_VALUE k = rd s F.PKT_SEQ_VALUE k ∧ rd t F.PKT_SCFG_GATING k = 2
        ∧ rd t F.MEM_BURST_PRE_HELD_VALUE k = min (rd s F.MEM_BURST_PRE_VALUE k) (heldBelow s k (rd s F.PKT_SEQ_VALUE k))
        ∧ isSet t F.MEM_SREG_CFG_FROZEN_SEEN k = true ∧ hasBit t F.MEM_EVT_EVT 0 4 = true
        ∧ Keeps [(F.MEM_BURST_CFG_STATE, k), (F.MEM_BURST_EVENT_TB_VALUE, k), (F.MEM_BURST_EVENT_SEQ_VALUE, k),
            (F.PKT_SCFG_GATING, k), (F.MEM_BURST_PRE_HELD_VALUE, k), (F.MEM_SREG_CFG_FROZEN_SEEN, k), (F.MEM_EVT_EVT, 0)] s t := by
  refine answers_onBlock hk hworks fun t ht => ?_
  obtain ⟨-, htb, hseq⟩ := rd_burstTaken s k 0
  have hkeepT := burstTaken_keeps s k 0
  have hheld := heldBelow_burstTaken s k 0
  have hpre : rd (burstTaken s k 0) F.MEM_BURST_PRE_VALUE k = rd s F.MEM_BURST_PRE_VALUE k :=
    burstTaken_touches s k 0 _ _ (by decide)
  have hfrz' : ∀ i, i < 4 → isSet (burstTaken s k 0) F.MEM_FRZ_CFG_EN i = false := by
    intro i hi
    have h := hfrz i hi
    unfold isSet at *
    rwa [burstTaken_touches s k 0 _ _ (by decide)]
  rw [burstEnd_armed hst hnone, if_pos rfl, burstFreeze_eq hfrz'] at ht
  generalize burstTaken s k 0 = v at *
  obtain ⟨hstate, hgate, hph, hseen, hevt⟩ := rd_burstFrozen v k
  have hkeepF := burstFrozen_keeps v k
  have htbF : rd (burstFrozen v k) F.MEM_BURST_EVENT_TB_VALUE k = _ := burstFrozen_touches v k _ _ (by decide)
  have hseqF : rd (burstFrozen v k) F.MEM_BURST_EVENT_SEQ_VALUE k = _ := burstFrozen_touches v k _ _ (by decide)
  refine ⟨(ht.rd _ _).trans hstate, (ht.rd _ _).trans (htbF.trans htb), (ht.rd _ _).trans (hseqF.trans hseq),
    (ht.rd _ _).trans hgate, (ht.rd _ _).trans ?_, ?_, (ht.hasBit _ _ _).trans hevt, ht.keeps ?_⟩
  · rw [hph, hpre, hseq, hheld]
  · unfold isSet
    rw [ht.rd, hseen]; rfl
  · exact (hkeepT.mono (by simp)).trans (hkeepF.mono (by simp))

/-- After its state an event of an armed stream changes nothing but one count. -/
theorem answers_freezeExtra (hk : k < 64) (hworks : blockWorks s 17 = true) (hst : 2 ≤ burstState s k) :
    Answers (exec (.freezeNow k) s) fun t =>
      rd t F.MEM_BURST_EXTRA_COUNT k = min (rd s F.MEM_BURST_EXTRA_COUNT k + 1) (2 ^ F.MEM_BURST_EXTRA_COUNT.width - 1)
      ∧ Changes [(F.MEM_BURST_EXTRA_COUNT, k)] s t := by
  refine answers_onBlock hk hworks fun t ht => ?_
  have hlt : burstState s k < 4 := rd_lt s F.MEM_BURST_CFG_STATE k
  have hend : burstEnd s k 0 = bump s F.MEM_BURST_EXTRA_COUNT k := by
    obtain h | h : burstState s k = 2 ∨ burstState s k = 3 := by omega
    all_goals unfold burstEnd; rw [h]; rfl
  rw [hend] at ht
  exact ⟨(ht.rd _ _).trans (rd_bump _ _ _), ((RegsOnly.refl s).bump _ _).changes ht ((Keeps.refl _ s).wr _ _ _ (by simp))⟩

/-! ### MEM_END -/

/-- A fold in which one element alone acts. -/
theorem foldl_once {α : Type} {step : α → Nat → α} {l : List Nat} (hl : l.Nodup) {k : Nat} (hk : k ∈ l) {a b : α}
    (ha : ∀ j ∈ l, j ≠ k → step a j = a) (hb : ∀ j ∈ l, j ≠ k → step b j = b) (hstep : step a k = b) : l.foldl step a = b := by
  induction l with
  | nil => simp at hk
  | cons x l ih =>
    obtain ⟨hx, hl⟩ := List.nodup_cons.mp hl
    rw [List.foldl_cons]
    rcases List.mem_cons.mp hk with rfl | hk
    · rw [hstep]
      exact List.foldlRecOn (motive := fun c => c = b) l _ rfl fun c hc j hj => by
        rw [hc]
        exact hb j (by simp [hj]) fun e => hx (e ▸ hj)
    · rw [ha x (by simp) fun e => hx (e ▸ hk)]
      exact ih hl hk (fun j hj => ha j (by simp [hj])) fun j hj => hb j (by simp [hj])

/-- An event that one armed stream alone names acts on that stream. -/
theorem memEnd_of_one (hk : k < 64) (hch : rd s F.MEM_BURST_CFG_END_CH k = ch)
    (hothers : ∀ j, j < 64 → j ≠ k → rd s F.MEM_BURST_CFG_END_CH j ≠ ch) (hst : burstState s k = 1)
    (hnone : ∀ f ∈ s.frames, f.stream = k → f.nsFs ≠ s.ns) (hpost : 0 < rd s F.MEM_BURST_POST_VALUE k) :
    memEnd s ch = burstTaken s k (rd s F.MEM_BURST_POST_VALUE k) := by
  have hend := burstEnd_armed (post := rd s F.MEM_BURST_POST_VALUE k) hst hnone
  rw [if_neg (Nat.pos_iff_ne_zero.mp hpost)] at hend
  have hchan : ∀ j, rd (burstTaken s k (rd s F.MEM_BURST_POST_VALUE k)) F.MEM_BURST_CFG_END_CH j = rd s F.MEM_BURST_CFG_END_CH j :=
    fun j => burstTaken_touches _ _ _ _ _ (by decide)
  unfold memEnd
  refine foldl_once List.nodup_range (List.mem_range.mpr hk) (fun j hj hjk => if_neg ?_) (fun j hj hjk => if_neg ?_)
    ((if_pos hch).trans hend)
  · exact hothers j (List.mem_range.mp hj) hjk
  · rw [hchan]
    exact hothers j (List.mem_range.mp hj) hjk

theorem answers_burstEndEvent {soft : Bool} {rest : List (Nat × Nat × Bool)} (hk : k < 64) (hworks : blockWorks s 17 = true)
    (hc : ch < 48) (hb : s.beacons = (ch, 48, soft) :: rest) (hup : domUp s 22 = true) (hst : burstState s k = 1)
    (hnone : ∀ f ∈ s.frames, f.stream = k → f.nsFs ≠ s.ns) (hch : rd s F.MEM_BURST_CFG_END_CH k = ch)
    (hothers : ∀ j, j < 64 → j ≠ k → rd s F.MEM_BURST_CFG_END_CH j ≠ ch) (hpost : 0 < rd s F.MEM_BURST_POST_VALUE k) :
    Answers (exec (.burstEndEvent ch) s) fun t =>
          burstState t k = 2 ∧ rd t F.MEM_BURST_EVENT_TB_VALUE k = s.tb % 2 ^ 64
          ∧ rd t F.MEM_BURST_EVENT_SEQ_VALUE k = rd s F.PKT_SEQ_VALUE k ∧ burstPostOf t k = rd s F.MEM_BURST_POST_VALUE k
          ∧ t.beacons = rest ∧ hasBit t F.BCN_FIRED_CH 0 ch = true := by
  have hexec : exec (.burstEndEvent ch) s = onUnit ch 48 s fun s => beaconArrives s 48 (· == ch) (fun _ => false)
    fun ch s => memEnd s ch := rfl
  rw [hexec]
  refine answers_onUnit hc fun t ht => ?_
  have hdoms : ∀ d ∈ consumerDomains 48, domUp s d = true := by
    simpa [consumerDomains] using ⟨hup, domUp_of_blockWorks hworks rfl⟩
  rw [beaconArrives_first hb (by simp) hdoms rfl] at ht
  obtain ⟨hbeacons, -, hfired⟩ := taken_deliver hc s rest
  have honly := deliver_regsOnly { s with beacons := rest } ch
  have hframes : (deliver { s with beacons := rest } ch).frames = s.frames := by
    have e := congrArg State.frames honly; exact e
  have hns : (deliver { s with beacons := rest } ch).ns = s.ns := by have e := congrArg State.ns honly; exact e
  have htb : (deliver { s with beacons := rest } ch).tb = s.tb := by have e := congrArg State.tb honly; exact e
  have hsame : ∀ f i, (∀ g ∈ beaconFields, g.fid % 1024 ≠ f.fid % 1024) →
      rd (deliver { s with beacons := rest } ch) f i = rd s f i := fun f i hf => deliver_touches { s with beacons := rest } ch f i hf
  generalize deliver { s with beacons := rest } ch = v at *
  have hpostv := hsame F.MEM_BURST_POST_VALUE k (by decide)
  rw [memEnd_of_one hk ((hsame _ _ (by decide)).trans hch)
    (fun j hj hjk => by rw [hsame _ _ (by decide)]; exact hothers j hj hjk) ((hsame _ _ (by decide)).trans hst)
    (by rw [hframes, hns]; exact hnone) (by rwa [hpostv]), hpostv] at ht
  obtain ⟨hstate, htbT, hseq⟩ := rd_burstTaken v k (rd s F.MEM_BURST_POST_VALUE k)
  refine ⟨(ht.rd _ _).trans hstate, ?_, ?_, ?_, ?_, ?_⟩
  · rw [ht.rd, htbT, htb]
  · rw [ht.rd, hseq, hsame _ _ (by decide)]
  · have e : t.burstPost = sset v.burstPost 0 k (rd s F.MEM_BURST_POST_VALUE k + 1) := congrArg State.burstPost ht
    unfold burstPostOf
    rw [e, sget_sset_same]
    rfl
  · exact ht.beacons.trans hbeacons
  · rw [ht.hasBit, hasBit, burstTaken_touches _ _ _ _ _ (by decide)]
    exact hfired

end

/-- Settles O37. -/
theorem memoryTrainsAndBurstsFreeze : Obligations.MemoryTrainsAndBurstsFreeze := by
  intro s hworks
  refine ⟨answers_memTrain hworks, fun chOk gib hst hgib => answers_memTrainDone hworks hst hgib, ?_, answers_memClrCounts hworks,
    fun k hk => ⟨answers_burstArm hk hworks, answers_burstArm_not hk hworks, answers_burstDisarm hk hworks,
      answers_freezeNow hk hworks, answers_freezeExtra hk hworks, ?_⟩⟩
  · exact answers_finish fun t ht => ht
  · exact fun ch soft rest hc hb hup hst hnone hch hothers hpost =>
      answers_burstEndEvent hk hworks hc hb hup hst hnone hch hothers hpost

end Sys2Proof.Machine
end

section
/-! Trigger outputs and complementary pairs follow their held pulses (R224, R229, R488). -/
open Sys2Proof
namespace Sys2Proof.Machine

section
variable {s t u v : State} {n : Nat}

/-! ### What trigger outputs change -/

/-- Of `s`, registers and the held pulses alone differ in `t`. -/
def TrgOnly (s t : State) : Prop := t = { s with regs := t.regs, trg := t.trg }

theorem TrgOnly.refl (s : State) : TrgOnly s s := rfl

theorem TrgOnly.trans (h : TrgOnly s t) (h' : TrgOnly t u) : TrgOnly s u := by
  unfold TrgOnly at *
  rw [h', h]

theorem RegsOnly.trgOnly (h : RegsOnly s t) : TrgOnly s t := by
  unfold RegsOnly at h
  unfold TrgOnly
  rw [h]

theorem setTrg_trgOnly (s : State) (n : Nat) (k : TrgOut) : TrgOnly s (setTrg s n k) := rfl

theorem TrgOnly.wr (h : TrgOnly s t) (f : Field) (i x : Nat) : TrgOnly s (wr t f i x) :=
  h.trans ((RegsOnly.refl t).wr f i x).trgOnly

theorem TrgOnly.settled (h : TrgOnly s u) (ht : Settled u t) : Settled { s with regs := t.regs, trg := t.trg } t := by
  obtain ⟨r, g, rfl⟩ : ∃ r g, u = { s with regs := r, trg := g } := ⟨_, _, h⟩
  have hr : t.regs = r := ht.regs
  have hg : t.trg = g := by have e := congrArg State.trg ht; exact e
  unfold Settled at *
  rw [hr, hg]
  exact ht

theorem TrgOnly.beacons (h : TrgOnly s u) : u.beacons = s.beacons := by have e := congrArg State.beacons h; exact e

theorem trgAt_setTrg_same (s : State) (n : Nat) (k : TrgOut) : trgAt (setTrg s n k) n = k := sget_sset_same ..

theorem trgAt_setTrg_ne (s : State) {n m : Nat} (k : TrgOut) (h : m ≠ n) : trgAt (setTrg s n k) m = trgAt s m :=
  sget_sset_ne _ _ _ _ h

theorem trgAt_congr (h : t.trg = s.trg) (n : Nat) : trgAt t n = trgAt s n := by unfold trgAt; rw [h]

theorem trgAt_wr (s : State) (f : Field) (i x n : Nat) : trgAt (wr s f i x) n = trgAt s n := rfl

theorem trgAt_bump (s : State) (f : Field) (i n : Nat) : trgAt (bump s f i) n = trgAt s n := rfl

theorem Settled.trgAt (ht : Settled u t) (n : Nat) : trgAt t n = trgAt u n :=
  trgAt_congr (by have e := congrArg State.trg ht; exact e) n

theorem rd_setTrg (s : State) (n : Nat) (k : TrgOut) (f : Field) (i : Nat) : rd (setTrg s n k) f i = rd s f i := rfl

/-! ### Starts and ends of single outputs -/

/-- A pulse starts on a single output. -/
theorem startPulse_single {p : Pulse} {r : List Pulse} (hp : paired s n = false) (hdue : p.start ≤ s.tb) : startPulse s n p r =
    wr (wr (bump (setTrg s n ⟨r, some p, 0⟩) F.TRG_PULSES_COUNT n) F.TRG_LAST_TB_VALUE n s.tb) F.TRG_STATUS_ACTIVE n 1 := by
  have hpair : ∀ w : State, (∀ f i, f.fid % 1024 = F.TRG_PAIR_CFG_EN.fid % 1024 → rd w f i = rd s f i) → paired w n = false := by
    intro w hw
    unfold paired isSet at *
    rwa [hw _ _ rfl]
  have hset : paired (setTrg s n ⟨r, some p, 0⟩) n = false := hp
  unfold startPulse outsOf
  dsimp only
  rw [hp]
  simp only [Bool.false_eq_true, if_false]
  rw [hset]
  simp only [Bool.false_eq_true, if_false, List.foldl_cons, List.foldl_nil]
  rw [show max p.start (setTrg s n ⟨r, some p, 0⟩).tb = s.tb from max_eq_right hdue]
  refine if_neg ?_
  rw [hpair _ fun f i hf => ?_]
  · exact Bool.false_ne_true
  · rw [rd_wr_field _ _ _ _ _ _ (by rw [hf]; decide), rd_bump_field _ _ _ (by rw [hf]; decide)]
    rfl

theorem answers_pulseStart {p : Pulse} {rest : List Pulse} (hn : n < 16) (hworks : blockWorks s 8 = true)
    (hp : paired s n = false) (hheld : (trgAt s n).held = p :: rest) (hcur : (trgAt s n).cur = none) (hdue : p.start ≤ s.tb) :
    Answers (exec (.trgPulseStart n) s) fun t =>
      rd t F.TRG_STATUS_ACTIVE n = 1 ∧ (trgAt t n).held = rest ∧ (trgAt t n).cur = some p
      ∧ rd t F.TRG_PULSES_COUNT n = min (rd s F.TRG_PULSES_COUNT n + 1) (2 ^ F.TRG_PULSES_COUNT.width - 1)
      ∧ rd t F.TRG_LAST_TB_VALUE n = s.tb % 2 ^ F.TRG_LAST_TB_VALUE.width
      ∧ (∀ m, m ≠ n → trgAt t m = trgAt s m)
      ∧ Keeps [(F.TRG_STATUS_ACTIVE, n), (F.TRG_PULSES_COUNT, n), (F.TRG_LAST_TB_VALUE, n)] s t
      ∧ Settled { s with regs := t.regs, trg := t.trg } t := by
  refine answers_onBlock hn hworks fun t ht => ?_
  have hstart : pulseStart s n = startPulse s n p rest := by
    unfold pulseStart
    dsimp only
    rw [hheld]
    dsimp only
    rw [hp, hcur]
    exact if_neg (by simpa using hdue)
  rw [hstart, startPulse_single hp hdue] at ht
  refine ⟨?_, ?_, ?_, ?_, ?_, fun m hm => ?_, ht.keeps ?_, ?_⟩
  · exact (ht.rd _ _).trans (rd_wr_same _ _ _ _)
  · rw [ht.trgAt, trgAt_wr, trgAt_wr, trgAt_bump, trgAt_setTrg_same]
  · rw [ht.trgAt, trgAt_wr, trgAt_wr, trgAt_bump, trgAt_setTrg_same]
  · rw [ht.rd, rd_wr_field _ _ _ _ _ _ (by decide), rd_wr_field _ _ _ _ _ _ (by decide), rd_bump, rd_setTrg]
  · rw [ht.rd, rd_wr_field _ _ _ _ _ _ (by decide), rd_wr_same]
  · rw [ht.trgAt, trgAt_wr, trgAt_wr, trgAt_bump, trgAt_setTrg_ne _ _ hm]
  · exact (((Keeps.refl _ (setTrg s n ⟨rest, some p, 0⟩)).wr _ _ _ (by simp)).wr _ _ _ (by simp)).wr _ _ _ (by simp)
  · exact ((((setTrg_trgOnly s n _).wr _ _ _).wr _ _ _).wr _ _ _).settled ht

/-- An idle plain source is inactive. -/
theorem idleActive_plain (hp : paired s n = false) (hsrc : rd s F.TRG_CFG_SRC n < 4) : idleActive s n = false := by
  unfold idleActive
  split
  · rfl
  · rw [hp, if_neg Bool.false_ne_true]
    split
    case h_1 h => omega
    case h_2 h => omega
    case h_3 => rfl

theorem answers_pulseEnd {p : Pulse} (hn : n < 16) (hworks : blockWorks s 8 = true) (hp : paired s n = false)
    (hcur : (trgAt s n).cur = some p) (hdue : p.stop ≤ s.tb) (hsrc : rd s F.TRG_CFG_SRC n < 4) :
    Answers (exec (.trgPulseEnd n) s) fun t =>
      rd t F.TRG_STATUS_ACTIVE n = 0 ∧ (trgAt t n).cur = none ∧ (trgAt t n).held = (trgAt s n).held
      ∧ (∀ m, m ≠ n → trgAt t m = trgAt s m) ∧ Keeps [(F.TRG_STATUS_ACTIVE, n)] s t
      ∧ Settled { s with regs := t.regs, trg := t.trg } t := by
  refine answers_onBlock hn hworks fun t ht => ?_
  have hidle : idleActive (setTrg s n { trgAt s n with cur := none }) n = false := idleActive_plain hp hsrc
  have hend : pulseEnd s n = wr (setTrg s n { trgAt s n with cur := none }) F.TRG_STATUS_ACTIVE n 0 := by
    unfold pulseEnd
    dsimp only
    rw [hcur]
    dsimp only
    rw [hp, if_neg (by simpa using hdue), refreshTrg, hidle]
    rfl
  rw [hend] at ht
  refine ⟨(ht.rd _ _).trans (rd_wr_same _ _ _ _), ?_, ?_, fun m hm => ?_, ht.keeps ?_, ?_⟩
  · rw [ht.trgAt, trgAt_wr, trgAt_setTrg_same]
  · rw [ht.trgAt, trgAt_wr, trgAt_setTrg_same]
  · rw [ht.trgAt, trgAt_wr, trgAt_setTrg_ne _ _ hm]
  · exact (Keeps.refl _ (setTrg s n { trgAt s n with cur := none })).wr _ _ _ (by simp)
  · exact ((setTrg_trgOnly s n _).wr _ _ _).settled ht

/-! ### Pairs -/

section
variable {p : Nat} {q : Pulse} {rest : List Pulse}

/-- A pulse starts on a pair: the complement drops. -/
def pairStarted (s : State) (p : Nat) (q : Pulse) (rest : List Pulse) : State :=
  wr (wr (bump (wr (bump (setTrg s (2 * p) ⟨rest, some q, 1⟩) F.TRG_PULSES_COUNT (2 * p)) F.TRG_LAST_TB_VALUE (2 * p) s.tb)
    F.TRG_PULSES_COUNT (2 * p + 1)) F.TRG_LAST_TB_VALUE (2 * p + 1) s.tb) F.TRG_STATUS_ACTIVE (2 * p + 1) 0

theorem startPulse_pair (hp : paired s (2 * p) = true) (hdue : q.start ≤ s.tb) :
    startPulse s (2 * p) q rest = pairStarted s p q rest := by
  have hset : paired (setTrg s (2 * p) ⟨rest, some q, 1⟩) (2 * p) = true := hp
  have hhalf : 2 * p / 2 * 2 = 2 * p := by omega
  unfold startPulse outsOf
  dsimp only
  rw [hp]
  simp only [if_true]
  rw [hset]
  simp only [if_true, List.foldl_cons, List.foldl_nil, hhalf]
  rw [show max q.start (setTrg s (2 * p) ⟨rest, some q, 1⟩).tb = s.tb from max_eq_right hdue]
  rw [show max q.start (wr (bump (setTrg s (2 * p) ⟨rest, some q, 1⟩) F.TRG_PULSES_COUNT (2 * p)) F.TRG_LAST_TB_VALUE
    (2 * p) s.tb).tb = s.tb from max_eq_right hdue]
  refine if_pos ?_
  simp (disch := decide) only [paired, isSet, rd_wr_field, rd_bump_field, rd_setTrg]
  exact hp

theorem pairEdge_of_cur (hp : paired s (2 * p) = true) (hcur : (trgAt s (2 * p)).cur = some q) : pairEdge s p =
    let k := trgAt s (2 * p)
    let d := rd s F.TRG_PAIR_CFG_DEAD_NS p
    if k.stage = 1 then
      if s.tb < q.start + d then s else wr (setTrg s (2 * p) { k with stage := 2 }) F.TRG_STATUS_ACTIVE (2 * p) 1
    else if k.stage = 2 then
      if s.tb < q.stop - d then s else wr (setTrg s (2 * p) { k with stage := 3 }) F.TRG_STATUS_ACTIVE (2 * p) 0
    else if s.tb < q.stop then s
    else wr (setTrg s (2 * p) { k with cur := none, stage := 0 }) F.TRG_STATUS_ACTIVE (2 * p + 1) 1 := by
  unfold pairEdge
  dsimp only
  rw [hp, hcur]
  rfl

/-- An edge of a pair that moves one output and the pair's stage. -/
theorem answers_pairEdge {k : TrgOut} {o x : Nat} {P : State → Prop} (hp8 : p < 8) (hworks : blockWorks s 8 = true)
    (hedge : pairEdge s p = wr (setTrg s (2 * p) k) F.TRG_STATUS_ACTIVE o x)
    (h : ∀ t, rd t F.TRG_STATUS_ACTIVE o = x % 2 → trgAt t (2 * p) = k → Keeps [(F.TRG_STATUS_ACTIVE, o)] s t → P t) :
    Answers (exec (.pairEdge p) s) P := by
  refine answers_onBlock hp8 hworks fun t ht => ?_
  rw [hedge] at ht
  refine h t ((ht.rd _ _).trans (rd_wr_same _ _ _ _)) ?_ (ht.keeps ?_)
  · rw [ht.trgAt, trgAt_wr, trgAt_setTrg_same]
  · exact (Keeps.refl _ (setTrg s (2 * p) k)).wr _ _ _ (by simp)

theorem answers_pairStart (hp8 : p < 8) (hworks : blockWorks s 8 = true) (hp : paired s (2 * p) = true)
    (hcur : (trgAt s (2 * p)).cur = none) (hheld : (trgAt s (2 * p)).held = q :: rest) (hdue : q.start ≤ s.tb) :
    Answers (exec (.pairEdge p) s) fun t =>
        rd t F.TRG_STATUS_ACTIVE (2 * p + 1) = 0 ∧ rd t F.TRG_STATUS_ACTIVE (2 * p) = rd s F.TRG_STATUS_ACTIVE (2 * p)
        ∧ trgAt t (2 * p) = ⟨rest, some q, 1⟩
        ∧ ∀ o ∈ [2 * p, 2 * p + 1],
          rd t F.TRG_PULSES_COUNT o = min (rd s F.TRG_PULSES_COUNT o + 1) (2 ^ F.TRG_PULSES_COUNT.width - 1) := by
  refine answers_onBlock hp8 hworks fun t ht => ?_
  have hstart : pairEdge s p = pairStarted s p q rest := by
    unfold pairEdge
    dsimp only
    rw [hp, hcur, hheld]
    exact (if_neg (Nat.not_lt.mpr hdue)).trans (startPulse_pair hp hdue)
  rw [hstart] at ht
  have hne : 2 * p + 1 ≠ 2 * p := by omega
  refine ⟨(ht.rd _ _).trans (rd_wr_same _ _ _ _), ?_, ?_, ?_⟩
  · rw [ht.rd, pairStarted, rd_wr_inst _ _ _ _ hne]
    simp (disch := decide) only [rd_wr_field, rd_bump_field, rd_setTrg]
  · rw [ht.trgAt]
    exact trgAt_setTrg_same _ _ _
  · intro o ho
    rw [ht.rd, pairStarted]
    simp only [List.mem_cons, List.not_mem_nil, or_false] at ho
    rcases ho with rfl | rfl
    · rw [rd_wr_field _ _ _ _ _ _ (by decide), rd_wr_field _ _ _ _ _ _ (by decide), bump_eq, rd_wr_inst _ _ _ _ hne,
        rd_wr_field _ _ _ _ _ _ (by decide), rd_bump, rd_setTrg]
    · rw [rd_wr_field _ _ _ _ _ _ (by decide), rd_wr_field _ _ _ _ _ _ (by decide), rd_bump, rd_wr_field _ _ _ _ _ _ (by decide),
        bump_eq, rd_wr_inst _ _ _ _ hne.symm, rd_setTrg]

end

/-! ### Beacon events and counters -/

/-- What a pulse that an event or a trigger asks for may write. -/
def pulseFields : List Field :=
  [F.TRG_EVT_EVT, F.TRG_PAIR_SUPPRESSED_COUNT, F.TRG_SHORT_DROPPED_COUNT, F.TRG_FULL_COUNT, F.TRG_OVERLAP_COUNT,
   F.TRG_SHORT_STRETCHED_COUNT, F.TRG_LATE_COUNT, F.TRG_DARK_DROP_COUNT]

/-- Held pulses, and the counters and events of outputs, alone differ. -/
def Pulses (s t : State) : Prop := TrgOnly s t ∧ Touches pulseFields s t

theorem Pulses.refl (s : State) : Pulses s s := ⟨TrgOnly.refl s, Touches.refl⟩

theorem Pulses.trans (h : Pulses s t) (h' : Pulses t u) : Pulses s u := ⟨h.1.trans h'.1, h.2.trans h'.2⟩

theorem Pulses.wr (h : Pulses s t) (f : Field) (i x : Nat) (hf : f ∈ pulseFields) : Pulses s (wr t f i x) :=
  ⟨h.1.wr f i x, h.2.wr f i x hf⟩

theorem Pulses.counted (h : Pulses s t) (f : Field) (i b : Nat) (hf : f ∈ pulseFields) : Pulses s (trgEvt (bump t f i) n b) :=
  (h.wr f i _ hf).wr _ _ _ (by simp [pulseFields])

theorem Pulses.ite {c : Prop} [Decidable c] (h : Pulses s t) (h' : Pulses s u) : Pulses s (if c then t else u) := by
  split
  · exact h
  · exact h'

theorem placePulse_pulses (s : State) (n start w : Nat) (src : Option (Nat × Nat)) : Pulses s (placePulse s n start w src).2 := by
  unfold placePulse
  dsimp only
  generalize (if paired s n = true then rd s F.TRG_PAIR_CFG_DEAD_NS (n / 2) else 0) = dead
  split
  · exact (Pulses.refl s).counted _ _ _ (by simp [pulseFields])
  split
  · exact (Pulses.refl s).counted _ _ _ (by simp [pulseFields])
  split
  · exact (Pulses.refl s).counted _ _ _ (by simp [pulseFields])
  split
  · exact (Pulses.refl s).counted _ _ _ (by simp [pulseFields])
  · have hshort : Pulses s (if decide (w - 2 * dead < effMin s n) = true then
        trgEvt (bump s F.TRG_SHORT_STRETCHED_COUNT n) n 0 else s) :=
      ((Pulses.refl s).counted _ _ _ (by simp [pulseFields])).ite (Pulses.refl s)
    generalize (if decide (w - 2 * dead < effMin s n) = true then trgEvt (bump s F.TRG_SHORT_STRETCHED_COUNT n) n 0 else s) = u at *
    have hlate : Pulses s (if decide (start < s.tb) = true then trgEvt (bump u F.TRG_LATE_COUNT n) n 2 else u) :=
      (hshort.counted _ _ _ (by simp [pulseFields])).ite hshort
    exact hlate.trans ⟨setTrg_trgOnly _ _ _, Touches.of_regs rfl⟩

theorem autoPulse_pulses (s : State) (n start : Nat) (src : Option (Nat × Nat)) : Pulses s (autoPulse s n start src) := by
  unfold autoPulse
  split
  · exact Pulses.refl s
  split
  · refine foldl_frame Pulses.refl Pulses.trans (fun u o => Pulses.ite ?_ (Pulses.refl u)) _ s
    exact ((Pulses.refl u).wr _ _ _ (by simp [pulseFields])).wr _ _ _ (by simp [pulseFields])
  · exact placePulse_pulses _ _ _ _ _

theorem trgBcn_pulses (s : State) (ch : Nat) : Pulses s (trgBcn s ch) :=
  foldl_frame Pulses.refl Pulses.trans (fun _ _ => autoPulse_pulses _ _ _ _) _ s

theorem trgFcg_pulses (s : State) (g x id : Nat) : Pulses s (trgFcg s g x id) :=
  foldl_frame Pulses.refl Pulses.trans (fun _ _ => autoPulse_pulses _ _ _ _) _ s

/-- Whatever its consumer does, the first event on its way to it is delivered once. -/
theorem taken_beaconArrives {k ch : Nat} {soft : Bool} {rest : List (Nat × Nat × Bool)} {p : Nat → Bool} {busy : State → Bool}
    {act : Nat → State → State} (hch : ch < 48) (hb : s.beacons = (ch, k, soft) :: rest) (hp : p ch = true)
    (hact : ∀ u, Taken s ch rest u → Taken s ch rest (act ch u)) : Taken s ch rest (beaconArrives s k p busy act) := by
  have htake : takeBeacon s k p = some (ch, { s with beacons := rest }) := by
    unfold takeBeacon
    have hfind : s.beacons.find? (fun e => e.2.1 == k && p e.1) = some (ch, k, soft) := by
      rw [hb]
      exact List.find?_cons_of_pos (by simp [hp])
    rw [hfind]
    dsimp only
    rw [hb, List.erase_cons_head]
  have htaken := taken_deliver hch s rest
  unfold beaconArrives
  rw [htake]
  dsimp only
  generalize deliver { s with beacons := rest } ch = v at *
  have hover : Taken s ch rest (setOverrun v k) :=
    htaken.of_touches (fs := [F.BCN_OVR_CONSUMER]) (Touches.refl.wr _ _ _ (by simp)) rfl (by decide)
  split
  · exact hover
  split
  · exact hover.of_touches (fs := [F.BCN_EVT_EVT]) (Touches.refl.wr _ _ _ (by simp)) rfl (by decide)
  · exact hact v htaken

theorem answers_trgBcnEvent {ch : Nat} {soft : Bool} {rest : List (Nat × Nat × Bool)} (hch : ch < 48)
    (hb : s.beacons = (ch, 49, soft) :: rest) : Answers (exec (.trgBcnEvent ch) s) (Taken s ch rest) := by
  have hexec : exec (.trgBcnEvent ch) s = onUnit ch 48 s fun s => beaconArrives s 49 (· == ch) (fun _ => false)
    fun ch s => trgBcn s ch := rfl
  rw [hexec]
  refine answers_onUnit hch fun t ht => Taken.settled ?_ ht
  refine taken_beaconArrives hch hb (by simp) fun u hu => ?_
  obtain ⟨honly, htouch⟩ := trgBcn_pulses u ch
  exact hu.of_touches htouch honly.beacons (by decide)

theorem answers_trgClrCounts (hn : n < 16) (hworks : blockWorks s 8 = true) : Answers (exec (.trgClrCounts n) s) fun t =>
      (∀ f ∈ trgCounters, rd t f n = 0) ∧ (n % 2 = 0 → rd t F.TRG_PAIR_SUPPRESSED_COUNT (n / 2) = 0)
      ∧ Changes (trgCounters.map (fun f => (f, n)) ++ (if n % 2 = 0 then [(F.TRG_PAIR_SUPPRESSED_COUNT, n / 2)] else [])) s t := by
  refine answers_onBlock hn hworks fun t ht => ?_
  have hzero : ∀ f ∈ trgCounters, rd (clearAll s trgCounters n) f n = 0 := fun f hf =>
    rd_clearAll_mem _ s n f hf fun g hg => (by decide : ∀ f ∈ trgCounters, ∀ g ∈ trgCounters, g.fid % 1024 = f.fid % 1024 → g = f) f hf g hg
  have hkeep : ∀ ks, (∀ f ∈ trgCounters, (f, n) ∈ ks) → Keeps ks s (clearAll s trgCounters n) :=
    fun ks hm => (Keeps.refl ks s).clearAll hm
  have honly := (RegsOnly.refl s).clearAll trgCounters n
  unfold trgClear at ht
  dsimp only at ht
  by_cases heven : n % 2 = 0
  · rw [if_pos heven] at ht
    rw [if_pos heven]
    refine ⟨fun f hf => ?_, fun _ => (ht.rd _ _).trans ((rd_wr_same _ _ _ _).trans (Nat.zero_mod _)), (honly.wr _ _ _).changes ht
      ((hkeep _ fun f hf => ?_).wr _ _ _ (by simp))⟩
    · rw [ht.rd, rd_wr_field _ _ _ _ _ _ ((by decide : ∀ f ∈ trgCounters, F.TRG_PAIR_SUPPRESSED_COUNT.fid % 1024 ≠ f.fid % 1024) f hf)]
      exact hzero f hf
    · exact List.mem_append_left _ (List.mem_map.mpr ⟨f, hf, rfl⟩)
  · rw [if_neg heven] at ht
    rw [if_neg heven, List.append_nil]
    exact ⟨fun f hf => (ht.rd _ _).trans (hzero f hf), fun h => absurd h heven,
      honly.changes ht (hkeep _ fun f hf => List.mem_map.mpr ⟨f, hf, rfl⟩)⟩

end

/-- Settles O23. -/
theorem triggerOutputsFollowTheirPulses : Obligations.TriggerOutputsFollowTheirPulses := by
  intro s hworks
  refine ⟨fun n hn hp => ⟨?_, ?_⟩, fun p hp8 hp => ⟨?_, fun q hcur => ⟨fun hst hdue => ?_, fun hst hdue => ?_, fun hst hdue => ?_⟩⟩, ?_, ?_⟩
  · exact fun q rest => answers_pulseStart hn hworks hp
  · exact fun q => answers_pulseEnd hn hworks hp
  · exact fun q rest => answers_pairStart hp8 hworks hp
  · refine answers_pairEdge (k := { trgAt s (2 * p) with stage := 2 }) (x := 1) hp8 hworks ?_ fun t ha hk hkeep => ⟨ha, by rw [hk], hkeep⟩
    rw [pairEdge_of_cur hp hcur]
    exact (if_pos hst).trans (if_neg (Nat.not_lt.mpr hdue))
  · refine answers_pairEdge (k := { trgAt s (2 * p) with stage := 3 }) (x := 0) hp8 hworks ?_ fun t ha hk hkeep => ⟨ha, by rw [hk], hkeep⟩
    rw [pairEdge_of_cur hp hcur]
    exact (if_neg (by rw [hst]; decide)).trans ((if_pos hst).trans (if_neg (Nat.not_lt.mpr hdue)))
  · refine answers_pairEdge (k := { trgAt s (2 * p) with cur := none, stage := 0 }) (x := 1) hp8 hworks ?_ fun t ha hk hkeep =>
      ⟨ha, by rw [hk], hkeep⟩
    rw [pairEdge_of_cur hp hcur]
    exact (if_neg (by rw [hst]; decide)).trans ((if_neg (by rw [hst]; decide)).trans (if_neg (Nat.not_lt.mpr hdue)))
  · exact fun ch soft rest => answers_trgBcnEvent
  · exact fun n hn => answers_trgClrCounts hn hworks

end Sys2Proof.Machine
end

section
/-! Descriptors of the DMA engine: start, a burst, completion, abort (R414 to R428). -/
open Sys2Proof
namespace Sys2Proof.Machine

section
variable {s t u : State} {d : Desc}

/-! ### One descriptor in flight -/

theorem descAt_of_one (hd : s.descs = [d]) (hend : d.ended = none) : descAt s d.id = some d := by
  unfold descAt
  rw [hd]
  simp [hend]

theorem chanDescs_of_one (hd : s.descs = [d]) : chanDescs s d.chan = [d] := by
  unfold chanDescs
  rw [hd]
  simp

theorem chanDescs_of_none (hd : s.descs = []) (c : Nat) : chanDescs s c = [] := by
  unfold chanDescs
  rw [hd]
  rfl

theorem dropDesc_of_one (hd : s.descs = [d]) : dropDesc s d.id = { s with descs := [] } := by
  unfold dropDesc
  rw [hd]
  simp

theorem mapDesc_of_one (hd : s.descs = [d]) (g : Desc → Desc) : mapDesc s d.id g = { s with descs := [g d] } := by
  unfold mapDesc
  rw [hd]
  simp

theorem descRejected_copy (hk : d.kind = dCOPY) : descRejected s d = false := by
  unfold descRejected
  rw [hk]
  rfl

/-- A channel without descriptors that does not drain is left alone. -/
theorem dmaDrained_of_not {c : Nat} (h : (dmaChAt s c).draining = false) : dmaDrained s c = s := by
  unfold dmaDrained
  dsimp only
  rw [h]
  rfl

theorem dmaFlush_empty {c fuel : Nat} (hd : s.descs = []) (h : (dmaChAt s c).draining = false) : dmaFlush (fuel + 1) s c = s := by
  rw [dmaFlush, chanDescs_of_none hd]
  exact dmaDrained_of_not h

/-! ### Starts -/

/-- No stream delivery waits or reads out. -/
theorem sdlvSweep_of_none (hq : s.sdlvQ = []) (hen : ∀ k, k < 64 → isSet s F.DMA_SDLV_CFG_EN k = false) : sdlvSweep s = s := by
  have hread : sdlvReadout s = s := by
    unfold sdlvReadout
    refine List.foldlRecOn (motive := fun t => t = s) (List.range 64) _ rfl fun t ht k hk => ?_
    rw [ht, hen k (List.mem_range.mp hk), Bool.and_false]
    rfl
  unfold sdlvSweep
  dsimp only
  rw [hread, hq]
  simp only [List.filter_nil, List.foldl_nil]
  rw [← hq]

theorem startStep_go (h : d.kind = dCOPY ∨ (d.kind = dFRAME ∧ ∃ q f, d.seq = some q ∧ frameAt s d.stream q = some f
    ∧ f.phase = .complete ∧ f.final = false ∧ gateOn s f.stream = false)) : startStep s d = .go := by
  unfold startStep
  rcases h with hk | ⟨hk, q, f, hseq, hat, hphase, hfinal, hgate⟩
  · rw [if_pos hk]
  · have hgated : gated s f = false := by
      unfold gated
      rw [hfinal, hgate]
      rfl
    rw [hk, if_neg (by decide), hseq]
    dsimp only
    rw [hat]
    dsimp only
    rw [hfinal, hgated, hphase]
    simp

theorem answers_descStart (hworks : blockWorks s 16 = true) (hd : s.descs = [d]) (hend : d.ended = none)
    (hstarted : d.started = false) (hdst : dmaSpace d.dst ≠ 3) (hpaused : (dmaChAt s d.chan).paused = false) (hq : s.sdlvQ = [])
    (hen : ∀ k, k < 64 → isSet s F.DMA_SDLV_CFG_EN k = false)
    (hgo : d.kind = dCOPY ∨ (d.kind = dFRAME ∧ ∃ q f, d.seq = some q ∧ frameAt s d.stream q = some f
      ∧ f.phase = .complete ∧ f.final = false ∧ gateOn s f.stream = false)) : Answers (exec (.dmaDescStart d.id) s) fun t =>
        t.descs = [{ d with started := true }] ∧ Settled { s with descs := t.descs } t := by
  refine answers_inBlock hworks fun t ht => ?_
  have hstart : descStart s d.id = { s with descs := [{ d with started := true }] } := by
    unfold descStart
    rw [domUp_of_blockWorks hworks rfl, sdlvSweep_of_none hq hen]
    refine (if_neg Bool.false_ne_true).trans ?_
    dsimp only
    rw [descAt_of_one hd hend]
    have hfree : chanFree s d.chan (fun x => (s.descs.takeWhile fun x => x.id ≠ d.id).contains x) = true := by
      unfold chanFree
      rw [hpaused, chanDescs_of_one hd, hd]
      simp
    dsimp only
    rw [hstarted, hfree]
    refine Eq.trans (b := startDesc s d) rfl ?_
    unfold startDesc
    rw [startStep_go hgo]
    dsimp only
    rw [if_neg hdst, mapDesc_of_one hd]
  rw [hstart] at ht
  refine ⟨ht.descs, ?_⟩
  have hdescs := ht.descs
  unfold Settled at *
  rw [hdescs]
  exact ht

/-! ### Ends -/

/-- A descriptor left flight, counted with its event. -/
def descLeft (s : State) (c : Nat) (f : Field) (b : Nat) : State :=
  dmaEvt (bump { s with descs := [] } f c) c b

theorem answers_descLeft {P : State → Prop} {i : Instr} {g : State → State} {c b : Nat} {f : Field} (hi : exec i s = finish s (g s))
    (hg : g s = descLeft s c f b) (hf : F.DMA_CH_EVT_EVT.fid % 1024 ≠ f.fid % 1024) (hb : b < 9)
    (h : ∀ t, t.descs = [] → rd t f c = min (rd s f c + 1) (2 ^ f.width - 1) → hasBit t F.DMA_CH_EVT_EVT c b = true →
      Keeps [(f, c), (F.DMA_CH_EVT_EVT, c)] s t → Settled { s with regs := t.regs, descs := [] } t → P t) :
    Answers (exec i s) P := by
  rw [hi, hg]
  refine answers_finish fun t ht => ?_
  refine h t ht.descs ?_ ?_ (ht.keeps ?_) ?_
  · rw [ht.rd, descLeft, dmaEvt, setBit_eq, rd_wr_field _ _ _ _ _ _ hf, rd_bump]
    rfl
  · rw [ht.hasBit]
    exact hasBit_setBit _ _ _ _ (by exact hb)
  · exact ((Keeps.refl _ { s with descs := [] }).wr _ _ _ (by simp)).wr _ _ _ (by simp)
  · exact RegsOnly.settled (s := { s with descs := [] }) (((RegsOnly.refl _).bump _ _).setBit _ _ _) ht

theorem answers_descComplete {host : List Nat} (hworks : blockWorks s 16 = true) (hd : s.descs = [d]) (hend : d.ended = none)
    (hstarted : d.started = true) (hmoved : d.moved = true) (hregion : d.region = none) (hk : d.kind = dCOPY)
    (hrec : d.record = false) (hconf : d.confirmed = false) (hecc : d.ecc = false) (hdrain : (dmaChAt s d.chan).draining = false) :
    Answers (exec (.dmaDescComplete d.id host) s) fun t =>
        t.descs = [] ∧ rd t F.DMA_CH_DONE_COUNT d.chan = min (rd s F.DMA_CH_DONE_COUNT d.chan + 1) (2 ^ F.DMA_CH_DONE_COUNT.width - 1)
        ∧ hasBit t F.DMA_CH_EVT_EVT d.chan 0 = true
        ∧ Keeps [(F.DMA_CH_DONE_COUNT, d.chan), (F.DMA_CH_EVT_EVT, d.chan)] s t ∧ Settled { s with regs := t.regs, descs := [] } t := by
  have hexec : exec (.dmaDescComplete d.id host) s = finish s (inBlock 16 s fun s => descComplete s d.id host) := rfl
  rw [inBlock_of hworks] at hexec
  refine answers_descLeft (g := fun s => descComplete s d.id host) hexec ?_ (by decide) (by decide)
    fun t h1 h2 h3 h4 h5 => ⟨h1, h2, h3, h4, h5⟩
  have hsettle : settleMoved s d = d := by
    unfold settleMoved
    rw [hmoved, Bool.not_true, Bool.and_false, Bool.false_and, Bool.false_and]
    rfl
  have hcan : canComplete s d = true := by
    unfold canComplete
    rw [hstarted, hmoved, hregion, hk]
    rfl
  have hback : readBack s d host = true := by
    unfold readBack
    rw [hconf]
    rfl
  have hheld : d.recordHeld s = false := by
    unfold Desc.recordHeld
    rw [hrec]
    rfl
  have hok : okRecord (dropDesc s d.id) d = descLeft s d.chan F.DMA_CH_DONE_COUNT 0 := by
    unfold okRecord descEcc copyRecord
    rw [dropDesc_of_one hd]
    dsimp only
    rw [hecc, hk, hrec]
    rfl
  unfold descComplete
  rw [domUp_of_blockWorks hworks rfl, if_pos rfl, descAt_of_one hd hend]
  dsimp only
  rw [hsettle, descRejected_copy hk, hcan, hback, hheld, hrec, hstarted, hok]
  exact dmaFlush_empty (s := descLeft s d.chan F.DMA_CH_DONE_COUNT 0) (fuel := 511) (by exact rfl) (by exact hdrain)

/-- A descriptor that has ended ABORTED. -/
def abortedDesc (d : Desc) : Desc := { d with ended := some .aborted, moved := true }

/-- The abort of the one descriptor, counted, before its record. -/
def abortMarked (s : State) (d : Desc) : State :=
  { dmaEvt (bump s F.DMA_CH_ABORTED_COUNT d.chan) d.chan 3 with descs := [abortedDesc d] }

/-- An aborted descriptor without a record leaves flight. -/
theorem dmaFlush_aborted (hregion : d.region = none) (hrec : d.record = false) (hdrain : (dmaChAt s d.chan).draining = false) :
    dmaFlush 512 (abortMarked s d) d.chan = descLeft s d.chan F.DMA_CH_ABORTED_COUNT 3 := by
  have hrec' : (abortedDesc d).record = false := hrec
  have hcopy : ∀ w x, copyRecord w (abortedDesc d) x = w := fun w x => if_neg (by rw [hrec']; decide)
  have hvoid : ∀ w, voidRecord w (abortedDesc d) = w := fun w => if_neg (by rw [hrec']; decide)
  have hdrop : dropDesc (abortMarked s d) (abortedDesc d).id = descLeft s d.chan F.DMA_CH_ABORTED_COUNT 3 :=
    dropDesc_of_one (d := abortedDesc d) rfl
  have hend : endRecord (dropDesc (abortMarked s d) (abortedDesc d).id) (abortedDesc d) .aborted
      = descLeft s d.chan F.DMA_CH_ABORTED_COUNT 3 := by
    unfold endRecord
    rw [hcopy, hvoid, hdrop]
    exact ite_self _
  have hheld : ((abortedDesc d).region.isSome || (abortedDesc d).recordHeld (abortMarked s d)) = false := by
    unfold Desc.recordHeld
    rw [show (abortedDesc d).region = none from hregion, hrec']
    rfl
  have hstep : dmaFlush 512 (abortMarked s d) d.chan
      = dmaFlush 511 (endRecord (dropDesc (abortMarked s d) (abortedDesc d).id) (abortedDesc d) .aborted) d.chan := by
    rw [dmaFlush, show chanDescs (abortMarked s d) d.chan = [abortedDesc d] from chanDescs_of_one (d := abortedDesc d) rfl]
    dsimp only
    rw [hheld]
    rfl
  rw [hstep, hend]
  exact dmaFlush_empty (s := descLeft s d.chan F.DMA_CH_ABORTED_COUNT 3) (fuel := 510) (by exact rfl) (by exact hdrain)

theorem answers_abort (hworks : blockWorks s 16 = true) (hd : s.descs = [d]) (hend : d.ended = none) (hc : d.chan < 64)
    (hregion : d.region = none) (hrec : d.record = false) (hdrain : (dmaChAt s d.chan).draining = false) :
    Answers (exec (.dmaAbort d.chan) s) fun t =>
        t.descs = [] ∧ rd t F.DMA_CH_ABORTED_COUNT d.chan
          = min (rd s F.DMA_CH_ABORTED_COUNT d.chan + 1) (2 ^ F.DMA_CH_ABORTED_COUNT.width - 1)
        ∧ hasBit t F.DMA_CH_EVT_EVT d.chan 3 = true
        ∧ Keeps [(F.DMA_CH_ABORTED_COUNT, d.chan), (F.DMA_CH_EVT_EVT, d.chan)] s t
        ∧ Settled { s with regs := t.regs, descs := [] } t := by
  have hexec : exec (.dmaAbort d.chan) s = finish s (dmaAbort s d.chan) := by
    have h : exec (.dmaAbort d.chan) s = onUnit d.chan 64 s fun s => inBlock 16 s fun s => dmaAbort s d.chan := rfl
    rw [h, onUnit_lt hc, inBlock_of hworks]
  refine answers_descLeft (g := fun s => dmaAbort s d.chan) hexec ?_ (by decide) (by decide)
    fun t h1 h2 h3 h4 h5 => ⟨h1, h2, h3, h4, h5⟩
  have hone : ((chanDescs s d.chan).filter fun d => d.ended.isNone) = [d] := by
    rw [chanDescs_of_one hd]
    simp [hend]
  unfold dmaAbort
  rw [domUp_of_blockWorks hworks rfl, hone]
  refine Eq.trans ?_ (dmaFlush_aborted hregion hrec hdrain)
  refine congrArg (fun w => dmaFlush 512 w d.chan) ?_
  exact mapDesc_of_one (s := dmaEvt (bump s F.DMA_CH_ABORTED_COUNT d.chan) d.chan 3) hd _

/-! ### A burst between places of the SPM -/

/-- A COPY of one row from SPM to SPM, without transform, wrap or record, that begins at its first byte. -/
structure PlainRow (d : Desc) : Prop where
  kind : d.kind = dCOPY
  code : d.u 3 1 = 0
  wraps : d.u 0x30 2 = 0
  src : dmaSpace d.src = 1
  dst : dmaSpace d.dst = 1
  rows : d.rows = 1
  row : d.row = 0
  unit : d.unit = 0
  pos : 1 ≤ d.length
  short : d.length ≤ 512

theorem ofBytes_two (a b : Nat) : ofBytes [a, b] = a % 256 + 256 * (b % 256) := by
  simp [ofBytes]

theorem leField_two {bs : List Nat} {off : Nat} (h : leField bs off 2 = 0) : leField bs off 1 = 0 ∧ leField bs (off + 1) 1 = 0 := by
  unfold leField at *
  rw [show bs.drop (off + 1) = (bs.drop off).drop 1 by rw [List.drop_drop]]
  rcases hb : bs.drop off with _ | ⟨x, _ | ⟨y, rest⟩⟩
  · exact ⟨rfl, rfl⟩
  · rw [hb] at h
    exact ⟨h, rfl⟩
  · rw [hb] at h
    have htwo : ofBytes [x, y] = 0 := h
    have hone : ∀ z, ofBytes [z] = z % 256 := fun z => by simp [ofBytes]
    rw [ofBytes_two] at htwo
    exact ⟨(hone x).trans (by omega), (hone y).trans (by omega)⟩

namespace PlainRow

theorem xcode (h : PlainRow d) : d.xcode = 0 := by unfold Desc.xcode; rw [h.code]
theorem xpar (h : PlainRow d) : d.xpar = 0 := by unfold Desc.xpar; rw [h.code]

theorem srcPlace (h : PlainRow d) (s : State) (off : Nat) : srcPlace s d 0 off = (1, dmaAddr d.src + off) := by
  unfold Machine.srcPlace wrapAddr Desc.srcOff
  rw [h.kind]
  dsimp only [dCOPY]
  rw [show d.u 0x30 1 = 0 from (leField_two h.wraps).1, h.src, h.row, if_pos rfl, if_pos rfl, Nat.zero_mul, Nat.zero_add]
  rfl

theorem dstPlace (h : PlainRow d) (off : Nat) : dstPlace d 0 off = (1, dmaAddr d.dst + off) := by
  unfold Machine.dstPlace wrapAddr Desc.dstOff
  rw [if_neg (by rw [h.dst]; decide), show d.u 0x31 1 = 0 from (leField_two h.wraps).2, h.dst, h.row, if_pos rfl, if_pos rfl,
    Nat.zero_mul, Nat.zero_add]

theorem xSource (h : PlainRow d) (p : Nat) : xSource d.xcode d.xpar p = [(0, p)] := by
  rw [h.xcode, h.xpar]
  simp [Machine.xSource, xUnit]

theorem xDest (h : PlainRow d) (p b : Nat) : xDest d.xcode d.xpar p [b] = [(0, p, b)] := by
  rw [h.xcode, h.xpar]
  simp [Machine.xDest]

theorem unitPlaces (h : PlainRow d) (s : State) (p : Nat) :
    unitPlaces s d p = [(0, 1, dmaAddr d.src + p), (1, 1, dmaAddr d.dst + p)] := by
  unfold Machine.unitPlaces
  rw [h.xSource]
  simp [h.srcPlace, h.xDest, h.dstPlace]

theorem sameBurst (h : PlainRow d) (s : State) (p : Nat) : sameBurst (Machine.unitPlaces s d 0) (Machine.unitPlaces s d p) = true := by
  rw [h.unitPlaces, h.unitPlaces]
  simp [Machine.sameBurst]
  omega

theorem rowBytes (h : PlainRow d) (s : State) : rowBytes s d = d.length := by
  unfold Machine.rowBytes
  rw [h.kind]
  exact if_neg fun e => absurd e.1 (by decide)

theorem rowsNow (h : PlainRow d) (s : State) : rowsNow s d = 1 := by
  unfold Machine.rowsNow
  rw [h.kind, h.rows]
  exact if_neg (by decide)

theorem unitBytes (h : PlainRow d) : xUnit d.xcode d.xpar = 1 := by
  rw [h.xcode, h.xpar]
  rfl

/-- The whole row is one burst. -/
theorem burstUnits (h : PlainRow d) (s : State) : burstUnits s d d.length = List.range d.length := by
  obtain ⟨n, hn⟩ : ∃ n, d.length = n + 1 := ⟨d.length - 1, by have := h.pos; omega⟩
  have hm : min (d.length - 0) (max 1 (512 / max 1 (2 - 1))) - 1 = n := by have := h.short; norm_num; omega
  have hfirst : (Machine.unitPlaces s d 0).length = 2 := by rw [h.unitPlaces]; rfl
  have hmore : ∀ l : List Nat, (l.takeWhile fun p => Machine.sameBurst (Machine.unitPlaces s d 0) (Machine.unitPlaces s d p)) = l :=
    fun l => List.takeWhile_eq_self_iff.mpr fun p _ => h.sameBurst s p
  unfold Machine.burstUnits
  dsimp only
  rw [h.unit, h.xSource, if_pos (h.sameBurst s 0), hmore, hfirst]
  simp only [List.length_cons, List.length_nil, Nat.zero_add]
  rw [hm, hn, List.range_succ_eq_map]
  congr 1
  exact List.map_congr_left fun i _ => Nat.add_comm _ _

end PlainRow

/-- What holds of the elements taken so far holds at the end of a fold. -/
theorem foldl_prefix {α β : Type} {f : β → α → β} {P : List α → β → Prop} {b : β} (l : List α) (h0 : P [] b)
    (hs : ∀ done x a, x ∈ l → P done a → P (done ++ [x]) (f a x)) : P l (l.foldl f b) := by
  have h : ∀ (l' done : List α) (a : β), (∀ x ∈ l', x ∈ l) → P done a → P (done ++ l') (l'.foldl f a) := by
    intro l'
    induction l' with
    | nil => intro done a _ h; simpa using h
    | cons x l' ih =>
      intro done a hl h
      rw [List.foldl_cons, List.append_cons]
      exact ih _ _ (fun y hy => hl y (by simp [hy])) (hs done x a (hl x (by simp)) h)
  exact h l [] b (fun _ hx => hx) h0

/-- Reads of the SPM bring its bytes in order and change nothing. -/
theorem readPlaces_spm (s : State) (host : List Nat) (ps : List (Nat × Nat)) (hps : ∀ p ∈ ps, p.1 = 1) :
    readPlaces s host ps = (ps.map fun p => (ramByte s memSPM s.spm p.2).toNat, s) := by
  have hfind : (ps.find? fun p => p.1 == 0 && memReady s && !(memReady s && decide (p.2 < rd s F.MEM_USABLE_VALUE))) = none :=
    List.find?_eq_none.mpr fun p hp => by rw [hps p hp]; simp
  unfold readPlaces
  dsimp only
  rw [hfind]
  generalize hr : List.foldl _ _ _ = r
  have hread : r = (ps.map fun p => (ramByte s memSPM s.spm p.2).toNat, host) := by
    rw [← hr]
    refine foldl_prefix (P := fun done (a : List Nat × List Nat) => a = (done.map fun p => (ramByte s memSPM s.spm p.2).toNat, host))
      ps rfl fun done x a hx ha => ?_
    rw [ha, hps x hx]
    simp [spmBytes, ramBytes]
  rw [hread]

/-- The bytes that a burst writes, one for each of its units. -/
theorem foldl_units {α : Type} {k : Nat → List Nat → List α} {g : Nat → Nat → α} (hk : ∀ p b, k p [b] = [g p b])
    (place : Nat → Nat × Nat) (x : Nat → Nat) (us : List Nat) (acc : List α) (tail : List Nat) :
    (us.zip (us.map fun p => [place p])).foldl (fun (a : List α × List Nat) e =>
      (a.1 ++ k e.1 (a.2.take e.2.length), a.2.drop e.2.length)) (acc, us.map x ++ tail)
      = (acc ++ us.map fun p => g p (x p), tail) := by
  induction us generalizing acc with
  | nil => simp
  | cons p us ih =>
    have h := ih (acc ++ [g p (x p)])
    rw [List.append_assoc, List.singleton_append] at h
    simp only [List.map_cons, List.zip_cons_cons, List.foldl_cons, List.cons_append, List.length_cons, List.length_nil]
    rw [show (x p :: (us.map x ++ tail)).take (0 + 1) = [x p] from rfl, hk]
    exact h

/-- The runs cover the bytes gathered, each at its address. -/
structure Runs (b : Nat → Nat) (ws : List (Nat × Nat × Nat)) (rs : List (Nat × Nat × List Nat)) : Prop where
  space : ∀ r ∈ rs, r.1 = 1
  byte : ∀ r ∈ rs, ∀ i, i < r.2.2.length → r.2.2.getD i 0 = b (r.2.1 + i)
  cover : ∀ x, (∃ r ∈ rs, r.2.1 ≤ x ∧ x < r.2.1 + r.2.2.length) ↔ ∃ w ∈ ws, w.2.1 = x

/-- A byte that begins a run. -/
theorem Runs.new {b : Nat → Nat} {ws : List (Nat × Nat × Nat)} {rs : List (Nat × Nat × List Nat)} {w : Nat × Nat × Nat}
    (h : Runs b ws rs) (hby : w.2.2 = b w.2.1) : Runs b (ws ++ [w]) ((1, w.2.1, [w.2.2]) :: rs) := by
  refine ⟨fun r hr => ?_, fun r hr i hi => ?_, fun x => ?_⟩
  · rcases List.mem_cons.mp hr with rfl | hr
    · rfl
    · exact h.space r hr
  · rcases List.mem_cons.mp hr with rfl | hr
    · obtain rfl : i = 0 := by simpa using hi
      exact hby
    · exact h.byte r hr i hi
  · have hhead : (w.2.1 ≤ x ∧ x < w.2.1 + [w.2.2].length) ↔ w.2.1 = x := by
      rw [List.length_singleton]; omega
    rw [List.exists_mem_cons_iff, hhead, h.cover x]
    simp only [List.mem_append, List.mem_singleton, or_and_right, exists_or, exists_eq_left]
    exact or_comm

/-- A byte that follows the last run of those gathered. -/
theorem Runs.grows {b : Nat → Nat} {ws : List (Nat × Nat × Nat)} {rs : List (Nat × Nat × List Nat)} {w : Nat × Nat × Nat}
    {sp ad : Nat} {bs : List Nat} (h : Runs b ws ((sp, ad, bs) :: rs)) (hnext : ad + bs.length = w.2.1) (hby : w.2.2 = b w.2.1) :
    Runs b (ws ++ [w]) ((sp, ad, bs ++ [w.2.2]) :: rs) := by
  refine ⟨fun r hr => ?_, fun r hr i hi => ?_, fun x => ?_⟩
  · rcases List.mem_cons.mp hr with rfl | hr
    · exact h.space (sp, ad, bs) (by simp)
    · exact h.space r (by simp [hr])
  · rcases List.mem_cons.mp hr with rfl | hr
    · by_cases hlt : i < bs.length
      · rw [show ((sp, ad, bs ++ [w.2.2]) : Nat × Nat × List Nat).2.2.getD i 0 = bs.getD i 0 by
        simp only [List.getD_eq_getElem?_getD, List.getElem?_append_left hlt]]
        exact h.byte (sp, ad, bs) (by simp) i hlt
      · obtain rfl : i = bs.length := by simp at hi; omega
        rw [show ((sp, ad, bs ++ [w.2.2]) : Nat × Nat × List Nat).2.2.getD bs.length 0 = w.2.2 by simp, hby, ← hnext]
    · exact h.byte r (by simp [hr]) i hi
  · have hcover := h.cover x
    rw [List.exists_mem_cons_iff] at hcover ⊢
    have hhead : (ad ≤ x ∧ x < ad + (bs ++ [w.2.2]).length) ↔ (ad ≤ x ∧ x < ad + bs.length) ∨ w.2.1 = x := by
      rw [List.length_append, List.length_singleton]; omega
    simp only [List.mem_append, List.mem_singleton, or_and_right, exists_or, exists_eq_left]
    rw [← hcover, hhead]
    exact or_right_comm

theorem runs_gatherRuns (b : Nat → Nat) (ws : List (Nat × Nat × Nat)) (hws : ∀ w ∈ ws, w.1 = 1 ∧ w.2.2 = b w.2.1) :
    Runs b ws (gatherRuns ws) := by
  have h : Runs b ws (gatherRuns ws).reverse := by
    unfold gatherRuns
    rw [List.reverse_reverse]
    refine foldl_prefix (P := Runs b) ws ⟨by simp, by simp, by simp⟩ fun done w acc hw h => ?_
    obtain ⟨hsp, hby⟩ := hws w hw
    match acc, h with
    | [], h => exact hsp ▸ h.new hby
    | (sp, ad, bs) :: rest, h =>
      dsimp only
      split
      case isTrue hnext => exact h.grows hnext.2.1 hby
      case isFalse => exact hsp ▸ h.new hby
  exact ⟨fun r hr => h.space r (List.mem_reverse.mpr hr), fun r hr => h.byte r (List.mem_reverse.mpr hr), fun x => by
    rw [← h.cover x]; simp only [List.mem_reverse]⟩

/-- Runs in the SPM write their bytes there, and nothing else. -/
theorem foldl_writeRun {b : Nat → Nat} {ws : List (Nat × Nat × Nat)} {rs : List (Nat × Nat × List Nat)} (h : Runs b ws rs)
    (hws : ∀ w ∈ ws, w.2.1 < 0x800000) (s : State) (d : Desc) : ∃ m, rs.foldl (fun s w => writeRun s d w) s = { s with spm := m }
      ∧ ∀ x, ramByte s memSPM m x = if ∃ w ∈ ws, w.2.1 = x then BitVec.ofNat 8 (b x) else ramByte s memSPM s.spm x := by
  have hfold := foldl_prefix (f := fun s w => writeRun s d w) (b := s) (P := fun done t => ∃ m, t = { s with spm := m }
      ∧ ∀ x, ramByte s memSPM m x = if ∃ r ∈ done, r.2.1 ≤ x ∧ x < r.2.1 + r.2.2.length then BitVec.ofNat 8 (b x)
        else ramByte s memSPM s.spm x) rs ⟨s.spm, rfl, fun x => by simp⟩ fun done r t hr ⟨m, ht, hm⟩ => ?_
  · obtain ⟨m, ht, hm⟩ := hfold
    refine ⟨m, ht, fun x => ?_⟩
    rw [hm x]
    exact if_congr (h.cover x) rfl rfl
  · have hfits : r.2.2.length ≤ 0x800000 - r.2.1 := by
      rcases Nat.eq_zero_or_pos r.2.2.length with h0 | hpos
      · omega
      · obtain ⟨w, hw, hx⟩ := (h.cover (r.2.1 + r.2.2.length - 1)).mp ⟨r, hr, by omega, by omega⟩
        have := hws w hw
        omega
    have hwrite : writeRun t d r = { s with spm := ramPuts s memSPM m r.2.1 r.2.2 } := by
      unfold writeRun
      rw [h.space r hr]
      change spmPut t r.2.1 (r.2.2.take (0x800000 - r.2.1)) = _
      rw [List.take_of_length_le hfits, ht]
      rfl
    refine ⟨_, hwrite, fun x => ?_⟩
    rw [ramByte_ramPuts]
    by_cases hx : r.2.1 ≤ x ∧ x < r.2.1 + r.2.2.length
    · rw [if_pos hx, if_pos ⟨r, by simp, hx⟩, h.byte r hr _ (by omega), Nat.add_sub_cancel' hx.1]
    · rw [if_neg hx, hm x]
      refine if_congr ?_ rfl rfl
      simp only [List.mem_append, List.mem_singleton, or_and_right, exists_or, exists_eq_left, hx, or_false]

/-- The descriptor after the burst that moved its one row. -/
def movedDesc (d : Desc) : Desc :=
  { d with count := d.count + d.length, wrote := d.wrote + d.length, unit := 0, row := 1, moved := true }

theorem advanceDesc_plain (h : PlainRow d) (hd : s.descs = [d]) :
    advanceDesc s d.id d.length d.length d.length d.length 1 = { s with descs := [movedDesc d] } := by
  unfold advanceDesc
  rw [mapDesc_of_one hd]
  simp [movedDesc, h.unit, h.row]

theorem singletons_sum {α : Type} (f : Nat → α) (l : List Nat) : ((l.map fun p => [f p]).map List.length).sum = l.length := by
  induction l with
  | nil => rfl
  | cons x l ih => rw [List.map_cons, List.map_cons, List.sum_cons, ih, List.length_cons, List.length_cons, List.length_nil, Nat.zero_add,
      Nat.add_comm]

theorem singletons_flatten {α : Type} (f : Nat → α) (l : List Nat) : (l.map fun p => [f p]).flatten = l.map f := by
  induction l with
  | nil => rfl
  | cons x l ih => simp [ih]

/-- The burst of a plain row moves its bytes. -/
theorem moveBurst_plain (h : PlainRow d) (hd : s.descs = [d]) (ecc : List (Nat × Nat)) (host : List Nat)
    (hdst : dmaAddr d.dst + d.length ≤ 0x800000) : ∃ m, moveBurst s d ecc host = { s with spm := m, descs := [movedDesc d] }
      ∧ ∀ x, ramByte s memSPM m x = if dmaAddr d.dst ≤ x ∧ x < dmaAddr d.dst + d.length
        then ramByte s memSPM s.spm (dmaAddr d.src + (x - dmaAddr d.dst)) else ramByte s memSPM s.spm x := by
  have hlp : d.usesLp5x = false := by
    unfold Desc.usesLp5x Desc.names
    rw [h.kind, h.src, h.dst]
    rfl
  unfold moveBurst
  dsimp only
  rw [h.rowBytes, h.unitBytes, Nat.div_one, h.burstUnits, h.rowsNow, hlp]
  have hplaces : ((List.range d.length).map fun p => (xSource d.xcode d.xpar p).map fun e => srcPlace s d e.1 e.2)
      = (List.range d.length).map fun p => [(1, dmaAddr d.src + p)] := by
    refine List.map_congr_left fun p _ => ?_
    rw [h.xSource, List.map_singleton, h.srcPlace]
  have hcount := singletons_sum (fun p => ((1 : Nat), dmaAddr d.src + p)) (List.range d.length)
  have hflat := singletons_flatten (fun p => ((1 : Nat), dmaAddr d.src + p)) (List.range d.length)
  rw [List.length_range] at hcount
  have hspace : ∀ p ∈ (List.range d.length).map fun p => ((1 : Nat), dmaAddr d.src + p), p.1 = 1 := by
    intro p hp
    obtain ⟨q, -, rfl⟩ := List.mem_map.mp hp
    rfl
  have hhost : ¬ (d.kind = dCOPY ∧ dmaSpace d.src = 2 ∧ host.length < d.length) := by
    rw [h.src]; simp
  rw [hplaces, hcount, if_neg hhost, hflat, if_neg Bool.false_ne_true, readPlaces_spm s host _ hspace, List.map_map]
  dsimp only
  have houts := foldl_units (k := fun p bs => (xDest d.xcode d.xpar p bs).map fun w =>
    ((dstPlace d w.1 w.2.1).1, (dstPlace d w.1 w.2.1).2, w.2.2)) (g := fun p b => (1, dmaAddr d.dst + p, b))
    (fun p b => by rw [h.xDest, List.map_singleton, h.dstPlace]) (fun p => (1, dmaAddr d.src + p))
    (fun p => (ramByte s memSPM s.spm (dmaAddr d.src + p)).toNat) (List.range d.length) [] []
  rw [List.append_nil, List.nil_append] at houts
  rw [show (List.range d.length).map ((fun p : Nat × Nat => (ramByte s memSPM s.spm p.2).toNat) ∘ fun p => (1, dmaAddr d.src + p))
    = (List.range d.length).map fun p => (ramByte s memSPM s.spm (dmaAddr d.src + p)).toNat from rfl, houts]
  have hruns := runs_gatherRuns (fun x => (ramByte s memSPM s.spm (dmaAddr d.src + (x - dmaAddr d.dst))).toNat)
    ((List.range d.length).map fun p => (1, dmaAddr d.dst + p, (ramByte s memSPM s.spm (dmaAddr d.src + p)).toNat)) fun w hw => by
      obtain ⟨p, -, rfl⟩ := List.mem_map.mp hw
      exact ⟨rfl, by dsimp only; rw [Nat.add_sub_cancel_left]⟩
  obtain ⟨m, hm, hbyte⟩ := foldl_writeRun hruns (fun w hw => by
    obtain ⟨p, hp, rfl⟩ := List.mem_map.mp hw
    have := List.mem_range.mp hp
    dsimp only
    omega) s d
  dsimp only
  rw [hm, List.length_map, List.length_range]
  refine ⟨m, advanceDesc_plain (s := { s with spm := m }) h hd, fun x => ?_⟩
  rw [hbyte x]
  refine if_congr ?_ ?_ rfl
  · simp only [List.mem_map, List.mem_range]
    constructor
    · rintro ⟨w, ⟨p, hp, rfl⟩, rfl⟩
      dsimp only
      omega
    · exact fun hx => ⟨_, ⟨x - dmaAddr d.dst, by omega, rfl⟩, by dsimp only; omega⟩
  · rw [BitVec.ofNat_toNat, BitVec.setWidth_eq]

/-! ### The arbiter -/

theorem activeDesc_of_one (hd : s.descs = [d]) (hstarted : d.started = true) (hmoved : d.moved = false) :
    activeDesc s d.chan = some d := by
  unfold activeDesc
  rw [chanDescs_of_one hd]
  simp [hstarted, hmoved]

theorem activeDesc_of_other {c : Nat} (hd : s.descs = [d]) (hc : c ≠ d.chan) : activeDesc s c = none := by
  have : chanDescs s c = [] := by
    unfold chanDescs
    rw [hd]
    simp [Ne.symm hc]
  unfold activeDesc
  rw [this]
  rfl

theorem burstDue_plain (h : PlainRow d) (hrec : d.record = false) : burstDue s d = true := by
  have hhost : d.namesHost = false := by
    unfold Desc.namesHost Desc.names
    rw [h.src, h.dst, h.kind]
    rfl
  unfold burstDue rowThere hostWait
  rw [h.kind, hhost, hrec]
  rfl

/-- The arbiter serves the one channel that has a burst to issue. -/
theorem dmaGrant_of_one {c : Nat} (hc : c < 64) (hdue : ∀ e, e < 64 → chanDue s e = decide (e = c)) : dmaGrant s = some c := by
  have hlist : (List.range 64).filter (chanDue s) = [c] := by
    have hcongr : (List.range 64).filter (chanDue s) = (List.range 64).filter (· == c) :=
      List.filter_congr fun e he => by rw [hdue e (List.mem_range.mp he)]; rfl
    rw [hcongr, List.filter_beq]
    rw [List.count_eq_one_of_mem List.nodup_range (List.mem_range.mpr hc)]
    rfl
  have hlevel : [c].filter (fun e => rd s F.DMA_CH_CFG_PRIO e == max 0 (rd s F.DMA_CH_CFG_PRIO c)) = [c] := by simp
  unfold dmaGrant
  rw [hlist]
  simp only [List.foldl_cons, List.foldl_nil]
  simp only [hlevel]
  split
  case isTrue hin => exact congrArg some (by simpa using (Bool.and_eq_true_iff.mp hin).1)
  case isFalse => by_cases hlt : (sget s.dmaTurn (0, 0) (rd s F.DMA_CH_CFG_PRIO c)).1 < c <;> simp [hlt]

theorem answers_burst {ecc : List (Nat × Nat)} {host : List Nat} (hworks : blockWorks s 16 = true) (hd : s.descs = [d])
    (hc : d.chan < 64) (hstarted : d.started = true) (hmoved : d.moved = false)
    (hpaused : (dmaChAt s d.chan).paused = false) (h : PlainRow d) (hdst : dmaAddr d.dst + d.length ≤ 0x800000)
    (hrec : d.record = false) : Answers (exec (.dmaBurst d.chan ecc host) s) fun t =>
        let byte := fun (u : State) (a : Nat) => ramByte u memSPM u.spm a
        (∀ i, i < d.length → byte t (dmaAddr d.dst + i) = byte s (dmaAddr d.src + i))
        ∧ (∀ a, ¬ (dmaAddr d.dst ≤ a ∧ a < dmaAddr d.dst + d.length) → byte t a = byte s a)
        ∧ (∃ e, t.descs = [e] ∧ e.id = d.id ∧ e.moved = true ∧ e.count = d.count + d.length)
        ∧ Settled { s with spm := t.spm, descs := t.descs, dmaTurn := t.dmaTurn } t := by
  refine answers_onBlock hc hworks fun t ht => ?_
  have hactive := activeDesc_of_one hd hstarted hmoved
  have hgrant : dmaGrant s = some d.chan := by
    refine dmaGrant_of_one hc fun e _ => ?_
    unfold chanDue
    by_cases he : e = d.chan
    · rw [he, hpaused, hactive]
      simp [burstDue_plain h hrec]
    · rw [activeDesc_of_other hd he]
      simp [he]
  have hgone : descGone s d = false := by
    unfold descGone
    rw [h.kind]
    rfl
  have hlp : d.usesLp5x = false := by
    unfold Desc.usesLp5x Desc.names
    rw [h.kind, h.src, h.dst]
    rfl
  have hleft : ¬ (rowsNow s d ≤ d.row ∨ rowBytes s d < xUnit d.xcode d.xpar) := by
    rw [h.rowsNow, h.row, h.rowBytes, h.unitBytes]
    have := h.pos
    omega
  have hburst : dmaBurst s d.chan ecc host = moveBurst (dmaTook s d.chan) d ecc host := by
    unfold dmaBurst
    rw [domUp_of_blockWorks hworks rfl, hgrant]
    simp only [Bool.true_and, beq_self_eq_true, if_true]
    rw [hactive]
    dsimp only
    rw [descRejected_copy h.kind, hgone, hlp, burstDue_plain h hrec, h.kind]
    simp only [Bool.false_and, Bool.false_eq_true, if_false, Bool.not_true, decide_eq_true_eq, Bool.or_eq_true, ne_eq,
      not_true_eq_false, decide_false]
    exact if_neg hleft
  obtain ⟨m, hmove, hbyte⟩ := moveBurst_plain (s := dmaTook s d.chan) h hd ecc host hdst
  rw [hburst, hmove] at ht
  have hlost : ∀ a mem, ramByte t memSPM mem a = ramByte s memSPM mem a := by
    intro a mem
    have e : t.memLost = s.memLost := by have e := congrArg State.memLost ht; exact e
    unfold ramByte memBack
    rw [e]
  have hspm : t.spm = m := by have e := congrArg State.spm ht; exact e
  have hb : ∀ x, ramByte t memSPM t.spm x = if dmaAddr d.dst ≤ x ∧ x < dmaAddr d.dst + d.length
        then ramByte s memSPM s.spm (dmaAddr d.src + (x - dmaAddr d.dst)) else ramByte s memSPM s.spm x := by
    intro x
    rw [hlost, hspm]
    exact hbyte x
  refine ⟨fun i hi => ?_, fun a ha => ?_, ⟨movedDesc d, ht.descs, rfl, rfl, rfl⟩, ?_⟩
  · dsimp only
    rw [hb, if_pos (by omega), Nat.add_sub_cancel_left]
  · dsimp only
    rw [hb, if_neg ha]
  · have hdescs := ht.descs
    have hturn := ht.dmaTurn
    unfold Settled at *
    rw [hdescs, hturn, hspm]
    exact ht

end

/-- Settles O60. -/
theorem descriptorsStartMoveAndEnd : Obligations.DescriptorsStartMoveAndEnd := by
  intro s d hworks hd hend hc
  refine ⟨fun hst hdst hp hq hen hgo => ?_, fun ecc host hst hmv hp hk hx hw hs hdst hrows hrow hunit hpos hshort _ hfit hrec => ?_,
    fun host hst hmv hr hk hrec hconf hecc hdr => ?_, fun hr hrec hdr => ?_⟩
  · exact answers_descStart hworks hd hend hst hdst hp hq hen hgo
  · exact answers_burst hworks hd hc hst hmv hp ⟨hk, hx, hw, hs, hdst, hrows, hrow, hunit, hpos, hshort⟩ hfit hrec
  · exact answers_descComplete hworks hd hend hst hmv hr hk hrec hconf hecc hdr
  · exact answers_abort hworks hd hend hc hr hrec hdr

end Sys2Proof.Machine
end

section
/-! Frame clocks start, stop, take a period, close their windows and let HOLD expire (R205 to R223). -/
open Sys2Proof
namespace Sys2Proof.Machine

section
variable {s t u v : State} {g : Nat}

/-! ### The generators' own state -/

theorem fcgAt_setFcg (s : State) (g : Nat) (k : Fcg) : fcgAt (setFcg s g k) g = k := sget_sset_same ..

theorem fcgAt_congr (h : t.fcg = s.fcg) (g : Nat) : fcgAt t g = fcgAt s g := by unfold fcgAt; rw [h]

theorem Settled.fcgAt (ht : Settled u t) (g : Nat) : fcgAt t g = fcgAt u g :=
  fcgAt_congr (by have e := congrArg State.fcg ht; exact e) g

theorem Settled.fcgLoop (ht : Settled u t) (g : Nat) : fcgLoop t g = fcgLoop u g := ht.rd _ _

theorem fcgLoop_setLoop (s : State) (g : Nat) {st : Nat} (h : st < 8) : fcgLoop (setLoop s g st) g = st :=
  (rd_wr_same s F.FCG_STATUS_LOOP g st).trans (Nat.mod_eq_of_lt h)

theorem fcgLoop_setLoop_ne (s : State) {g g' : Nat} (st : Nat) (h : g' ≠ g) : fcgLoop (setLoop s g st) g' = fcgLoop s g' :=
  rd_wr_inst s _ _ _ (Ne.symm h)

theorem isSet_congr {f : Field} {i : Nat} (h : rd t f i = rd s f i) : isSet t f i = isSet s f i := by
  unfold isSet; rw [h]

/-- Setting a bit clears none. -/
theorem hasBit_setBit_of (s : State) (f : Field) (i b c : Nat) (hb : b < f.width) (h : hasBit s f i c = true) :
    hasBit (setBit s f i b) f i c = true := by
  unfold hasBit at *
  rw [rd_setBit s f i b hb, Nat.testBit_or, h, Bool.true_or]

theorem fireProducer_fcg (s : State) (p : Nat) : (fireProducer s p).fcg = s.fcg := by
  have e := congrArg State.fcg (fireProducer_firesOnly s p); exact e

/-- Of `s`, registers and the generators' state, here and at the twin, alone differ in `t`. -/
def FcgOnly (s t : State) : Prop := t = { s with regs := t.regs, fcg := t.fcg, twnFcg := t.twnFcg }

theorem FcgOnly.trans (h : FcgOnly s t) (h' : FcgOnly t u) : FcgOnly s u := by
  unfold FcgOnly at *
  rw [h', h]

theorem setFcg_fcgOnly (s : State) (g : Nat) (k : Fcg) : FcgOnly s (setFcg s g k) := rfl

theorem setTwnFcg_fcgOnly (s : State) (g : Nat) (k : TwnFcg) : FcgOnly s (setTwnFcg s g k) := rfl

theorem FcgOnly.wr (h : FcgOnly s t) (f : Field) (i x : Nat) : FcgOnly s (wr t f i x) := h.trans rfl

theorem FcgOnly.settled (h : FcgOnly s u) (ht : Settled u t) :
    Settled { s with regs := t.regs, fcg := t.fcg, twnFcg := t.twnFcg } t := by
  obtain ⟨r, k, w, rfl⟩ : ∃ r k w, u = { s with regs := r, fcg := k, twnFcg := w } := ⟨_, _, _, h⟩
  have hr : t.regs = r := ht.regs
  have hf : t.fcg = k := by have e := congrArg State.fcg ht; exact e
  have hw : t.twnFcg = w := by have e := congrArg State.twnFcg ht; exact e
  unfold Settled at *
  rw [hr, hf, hw]
  exact ht

/-! ### START -/

theorem fcgRuns_of_idle (h : fcgLoop s g = fIDLE) : fcgRuns s g = false := by
  unfold fcgRuns
  rw [show rd s F.FCG_STATUS_LOOP g = 0 from h]
  rfl

/-- A generator as START leaves it before its mode's state. -/
def fcgFresh (s : State) (g : Nat) : State :=
  wr (wr (wr (twinFcgStart (setFcg s g { Fcg.init with nextT := firstTime s g }) g) F.FCG_STATUS_RAMPING g 0)
    F.FCG_STATUS_RAMP_DOWN g 0) F.FCG_STATUS_CLAMPED g 0

theorem rd_fcgFresh (s : State) (g : Nat) {f : Field} (i : Nat)
    (hf : ∀ h ∈ [F.FCG_STATUS_RAMPING, F.FCG_STATUS_RAMP_DOWN, F.FCG_STATUS_CLAMPED], h.fid % 1024 ≠ f.fid % 1024) :
    rd (fcgFresh s g) f i = rd s f i := by
  unfold fcgFresh
  rw [rd_wr_field _ _ _ _ _ _ (hf _ (by simp)), rd_wr_field _ _ _ _ _ _ (hf _ (by simp)), rd_wr_field _ _ _ _ _ _ (hf _ (by simp))]
  rfl

theorem fcgStart_of_accepted (h : startRefused s g = false) : fcgStart s g =
    if rd (fcgFresh s g) F.FCG_CFG_MODE g = 2 then ownMotion (setLoop (fcgFresh s g) g fACQUIRE) g true
    else setLoop (fcgFresh s g) g fRUN := by
  unfold fcgStart
  rw [h]
  rfl

theorem answers_startFree (hg : g < 4) (hworks : blockWorks s 7 = true) (hidle : fcgLoop s g = fIDLE)
    (hmin : rd s F.FCG_FMIN_VALUE g ≤ rd s F.FCG_FSAFE_VALUE g) (hmax : rd s F.FCG_FSAFE_VALUE g ≤ rd s F.FCG_FMAX_VALUE g)
    (hmode : rd s F.FCG_CFG_MODE g = 0) (hat : isSet s F.FCG_CFG_START_AT_TB g = false) : Answers (exec (.fcgStart g) s) fun t =>
        fcgLoop t g = fRUN ∧ (fcgAt t g).nextT = s.tb + 1000
        ∧ Keeps [(F.FCG_STATUS_LOOP, g), (F.FCG_STATUS_RAMPING, g), (F.FCG_STATUS_RAMP_DOWN, g), (F.FCG_STATUS_CLAMPED, g)] s t
        ∧ Settled { s with regs := t.regs, fcg := t.fcg, twnFcg := t.twnFcg } t := by
  refine answers_onBlock hg hworks fun t ht => ?_
  have hok : startRefused s g = false := by
    unfold startRefused
    rw [fcgRuns_of_idle hidle, hmode]
    simp only [Bool.false_or, Bool.or_eq_false_iff, decide_eq_false_iff_not, Nat.not_lt]
    exact ⟨⟨⟨⟨⟨hmin.trans hmax, hmin⟩, hmax⟩, rfl⟩, rfl⟩, rfl⟩
  have hrun : fcgStart s g = setLoop (fcgFresh s g) g fRUN := by
    rw [fcgStart_of_accepted hok, rd_fcgFresh _ _ _ (by decide), hmode]
    rfl
  rw [hrun] at ht
  refine ⟨(ht.fcgLoop g).trans (fcgLoop_setLoop _ _ (by decide)), ?_, ht.keeps ?_, ?_⟩
  · rw [ht.fcgAt]
    have hk : fcgAt (setLoop (fcgFresh s g) g fRUN) g = { Fcg.init with nextT := firstTime s g } := fcgAt_setFcg s g _
    rw [hk]
    exact if_neg (by simp [hat])
  · exact ((((Keeps.refl _ (twinFcgStart (setFcg s g { Fcg.init with nextT := firstTime s g }) g)).wr _ _ _ (by simp)).wr
      _ _ _ (by simp)).wr _ _ _ (by simp)).wr _ _ _ (by simp)
  · exact (((((setFcg_fcgOnly s g _).trans (setTwnFcg_fcgOnly _ g _)).wr _ _ _).wr _ _ _).wr _ _ _).wr _ _ _ |>.settled ht

theorem answers_startLock (hg : g < 4) (hworks : blockWorks s 7 = true) (hidle : fcgLoop s g = fIDLE)
    (hmin : rd s F.FCG_FMIN_VALUE g ≤ rd s F.FCG_FSAFE_VALUE g) (hmax : rd s F.FCG_FSAFE_VALUE g ≤ rd s F.FCG_FMAX_VALUE g)
    (hmode : rd s F.FCG_CFG_MODE g = 2) (hc : rd s F.FCG_C_C g ≠ 0) (henc : rd s F.ENC_CFG_MODE (rd s F.FCG_CFG_SRC_ENC g) ≠ 0)
    (harmed : isSet s F.CMP_STATUS_ARMED (rd s F.FCG_CFG_CMP_SEL g) = true)
    (hsrc : rd s F.CMP_CFG_SRC (rd s F.FCG_CFG_CMP_SEL g) = rd s F.FCG_CFG_SRC_ENC g) : Answers (exec (.fcgStart g) s) fun t =>
          fcgLoop t g = fACQUIRE ∧ rd t F.ENC_MEAS_CFG_MOTION_EXPECTED (rd s F.FCG_CFG_SRC_ENC g) = 1 := by
  refine answers_onBlock hg hworks fun t ht => ?_
  have hok : startRefused s g = false := by
    unfold startRefused
    rw [fcgRuns_of_idle hidle, hmode]
    dsimp only
    rw [harmed, hsrc]
    simp only [Bool.false_or, Bool.or_eq_false_iff, decide_eq_false_iff_not, Nat.not_lt]
    refine ⟨⟨⟨⟨⟨hmin.trans hmax, hmin⟩, hmax⟩, ?_⟩, rfl⟩, by simp⟩
    simp [hc, henc]
  have hrun : fcgStart s g = ownMotion (setLoop (fcgFresh s g) g fACQUIRE) g true := by
    rw [fcgStart_of_accepted hok, rd_fcgFresh _ _ _ (by decide), hmode]
    rfl
  have hn : rd (setLoop (fcgFresh s g) g fACQUIRE) F.FCG_CFG_SRC_ENC g = rd s F.FCG_CFG_SRC_ENC g := by
    unfold setLoop
    rw [rd_wr_field _ _ _ _ _ _ (by decide), rd_fcgFresh _ _ _ (by decide)]
  rw [hrun, ownMotion, hn, wrBool_eq] at ht
  refine ⟨?_, (ht.rd _ _).trans (rd_wr_same _ _ _ _)⟩
  rw [ht.fcgLoop, fcgLoop, rd_wr_field _ _ _ _ _ _ (by decide)]
  exact fcgLoop_setLoop _ _ (by decide)

theorem answers_startRefused (hg : g < 4) (hworks : blockWorks s 7 = true) (h : startRefused s g = true) :
    Answers (exec (.fcgStart g) s) fun t => hasBit t F.FCG_EVT_EVT g 12 = true ∧ Changes [(F.FCG_EVT_EVT, g)] s t := by
  refine answers_onBlock hg hworks fun t ht => ?_
  rw [fcgStart, if_pos h] at ht
  exact ⟨(ht.hasBit _ _ _).trans (hasBit_setBit s _ _ _ (by decide)),
    ((RegsOnly.refl s).setBit _ _ _).changes ht ((Keeps.refl _ s).wr _ _ _ (by simp))⟩

/-! ### STOP -/

/-- The pulses of an output without those of the triggers `ids` of FCG g. -/
def cancelled (g : Nat) (ids : List Nat) (k : TrgOut) : TrgOut :=
  { k with held := k.held.filter fun p => !p.src.any fun e => e.1 == g && ids.contains e.2 }

theorem trgAt_cancelPulses (s : State) (g : Nat) (ids : List Nat) {n : Nat} (hn : n < 16) :
    trgAt (cancelPulses s g ids) n = cancelled g ids (trgAt s n) := by
  have hidem : ∀ k, cancelled g ids (cancelled g ids k) = cancelled g ids k := by
    intro k
    unfold cancelled
    simp only [List.filter_filter, Bool.and_self]
  have hfold : ∀ (l : List Nat) (u : State), trgAt (l.foldl (fun s n => setTrg s n (cancelled g ids (trgAt s n))) u) n
      = if n ∈ l then cancelled g ids (trgAt u n) else trgAt u n := by
    intro l
    induction l with
    | nil => intro u; simp
    | cons m l ih =>
      intro u
      rw [List.foldl_cons, ih]
      by_cases hm : n = m
      · subst hm
        rw [trgAt_setTrg_same, hidem, ite_self, if_pos (by simp)]
      · rw [trgAt_setTrg_ne _ _ hm]
        exact if_congr (by simp [hm]) rfl rfl
  exact (hfold (List.range 16) s).trans (if_pos (List.mem_range.mpr hn))

/-- The triggers whose time has come leave the committed list; no pulse changes. -/
theorem reachTriggers_own (s : State) (g : Nat) : (reachTriggers s g).tb = s.tb ∧ (reachTriggers s g).trg = s.trg
    ∧ fcgAt (reachTriggers s g) g = { fcgAt s g with committed := (fcgAt s g).committed.filter fun c => s.tb < c.time } := by
  have hfold : RegsOnly s (((fcgAt s g).committed.filter fun c => c.time ≤ s.tb).foldl
      (fun s c => wr s F.FCG_LAST_TB_VALUE g c.time) s) :=
    List.foldlRecOn (motive := fun t => RegsOnly s t) _ _ (RegsOnly.refl s) fun t ht _ _ => ht.wr _ _ _
  unfold reachTriggers
  dsimp only
  generalize List.foldl _ s _ = w at hfold ⊢
  have htb : w.tb = s.tb := by have e := congrArg State.tb hfold; exact e
  have htrg : w.trg = s.trg := by have e := congrArg State.trg hfold; exact e
  refine ⟨htb, htrg, ?_⟩
  rw [fcgAt_setFcg, htb]

theorem setLocked_regsOnly (s : State) (g : Nat) (on : Bool) : RegsOnly s (setLocked s g on) := by
  unfold setLocked
  split
  · exact RegsOnly.refl s
  · exact ((RegsOnly.refl s).wrBool _ _ _).setBit _ _ _

theorem setLocked_touches (s : State) (g : Nat) (on : Bool) : Touches [F.FCG_STATUS_PHASE_LOCKED, F.FCG_EVT_EVT] s (setLocked s g on) := by
  unfold setLocked
  split
  · exact Touches.refl
  · exact (Touches.refl.wr _ _ _ (by simp)).wr _ _ _ (by simp)

theorem rd_setLocked_false (s : State) (g : Nat) : rd (setLocked s g false) F.FCG_STATUS_PHASE_LOCKED g = 0 := by
  unfold setLocked
  split
  case isTrue h => simpa [isSet] using h
  case isFalse =>
    unfold fcgEvt
    rw [setBit_eq, rd_wr_field _ _ _ _ _ _ (by decide), wrBool_eq, rd_wr_same]
    rfl

theorem hasBit_setLocked {b : Nat} (h : hasBit s F.FCG_EVT_EVT g b = true) (on : Bool) :
    hasBit (setLocked s g on) F.FCG_EVT_EVT g b = true := by
  unfold setLocked
  split
  · exact h
  · refine hasBit_setBit_of _ _ _ _ _ (by split <;> decide) ?_
    unfold hasBit at *
    rwa [wrBool_eq, rd_wr_field _ _ _ _ _ _ (by decide)]

theorem cancelPackets_trg (s : State) (g : Nat) (ids : List Nat) : (cancelPackets s g ids).trg = s.trg :=
  List.foldlRecOn (motive := fun t : State => t.trg = s.trg) (List.range 8) _ rfl fun _ ht _ _ => ht

theorem cancelRecords_trg (s : State) (g : Nat) (ids : List Nat) : (cancelRecords s g ids).trg = s.trg :=
  List.foldlRecOn (motive := fun t : State => t.trg = s.trg) (List.range 64) _ rfl fun _ ht _ _ => ht

/-- STOP with no window open. -/
theorem fcgStop_of_none (hruns : fcgRuns s g = true) (hw : (fcgAt s g).windows = []) :
    let ids := ((fcgAt s g).committed.filter fun c => s.tb < c.time).map Committed.id
    let u := setLocked (setFcg (cancelRecords (cancelPackets (cancelPulses (reachTriggers s g) g ids) g ids) g ids) g Fcg.init) g false
    fcgStop s g = setLoop (wr (wr (wr u F.FCG_STATUS_RAMPING g 0) F.FCG_STATUS_RAMP_DOWN g 0) F.FCG_STATUS_CLAMPED g 0) g fIDLE := by
  obtain ⟨htb, -, hk⟩ := reachTriggers_own s g
  unfold fcgStop
  rw [hruns]
  refine (if_neg Bool.false_ne_true).trans ?_
  dsimp only
  rw [hk, htb]
  simp only [hw, List.filter_filter, Bool.and_self, List.foldl_nil]

theorem answers_stop (hg : g < 4) (hworks : blockWorks s 7 = true) (hruns : fcgRuns s g = true) (hw : (fcgAt s g).windows = []) :
    Answers (exec (.fcgStop g) s) fun t =>
      let ids := ((fcgAt s g).committed.filter fun x => s.tb < x.time).map Committed.id
      fcgLoop t g = fIDLE ∧ rd t F.FCG_STATUS_PHASE_LOCKED g = 0
      ∧ ∀ n, n < 16 → (trgAt t n).cur = (trgAt s n).cur
        ∧ (trgAt t n).held = (trgAt s n).held.filter fun p => !p.src.any fun e => e.1 == g && ids.contains e.2 := by
  refine answers_onBlock hg hworks fun t ht => ?_
  rw [fcgStop_of_none hruns hw] at ht
  generalize ((fcgAt s g).committed.filter fun c => s.tb < c.time).map Committed.id = ids at ht ⊢
  have hcancel : ∀ n, n < 16 → trgAt (cancelRecords (cancelPackets (cancelPulses (reachTriggers s g) g ids) g ids) g ids) n
      = cancelled g ids (trgAt s n) := by
    intro n hn
    rw [trgAt_congr (cancelRecords_trg _ _ _), trgAt_congr (cancelPackets_trg _ _ _), trgAt_cancelPulses _ _ _ hn,
      trgAt_congr (reachTriggers_own s g).2.1]
  generalize cancelRecords (cancelPackets (cancelPulses (reachTriggers s g) g ids) g ids) g ids = c at ht hcancel
  have hlocked := setLocked_regsOnly (setFcg c g Fcg.init) g false
  have hzero := rd_setLocked_false (setFcg c g Fcg.init) g
  have htrg : (setLocked (setFcg c g Fcg.init) g false).trg = c.trg := by
    have e := congrArg State.trg hlocked; exact e
  generalize setLocked (setFcg c g Fcg.init) g false = w at *
  refine ⟨(ht.fcgLoop g).trans (fcgLoop_setLoop _ _ (by decide)), ?_, fun n hn => ?_⟩
  · rw [ht.rd, setLoop]
    simp (disch := decide) only [rd_wr_field]
    exact hzero
  · have hsame : trgAt t n = cancelled g ids (trgAt s n) := by
      rw [ht.trgAt, ← hcancel n hn]
      exact trgAt_congr htrg n
    rw [hsame]
    exact ⟨rfl, rfl⟩

/-! ### PERIOD -/

theorem periodWrite_64 {x : Nat} (hx : x < 2 ^ 64) : periodWrite s g false 8 x =
    let u := { s with periodHeld := sset s.periodHeld 0 g 0 }
    if x = rd s F.FCG_PERIOD_VALUE g then u
    else if x < 500 || 2 ^ 40 < x then fcgEvt u g 12 else wr u F.FCG_PERIOD_VALUE g x := by
  unfold periodWrite
  rw [if_neg (by decide)]
  dsimp only
  rw [if_pos rfl, Nat.mod_eq_of_lt hx]

theorem answers_periodTaken {x : Nat} (hg : g < 4) (hworks : blockWorks s 7 = true) (hlo : 500 ≤ x) (hhi : x ≤ 2 ^ 40) :
    Answers (exec (.fcgPeriodWrite g false 8 x) s) fun t =>
      rd t F.FCG_PERIOD_VALUE g = x ∧ Keeps [(F.FCG_PERIOD_VALUE, g)] s t
      ∧ Settled { s with regs := t.regs, periodHeld := t.periodHeld } t := by
  refine answers_onBlock hg hworks fun t ht => ?_
  have hx : x < 2 ^ 64 := lt_of_le_of_lt hhi (by decide)
  rw [periodWrite_64 hx] at ht
  dsimp only at ht
  have hfinal : ∀ w : State, RegsOnly { s with periodHeld := sset s.periodHeld 0 g 0 } w → Settled w t →
      Settled { s with regs := t.regs, periodHeld := t.periodHeld } t := by
    intro w hw ht
    have hp : t.periodHeld = sset s.periodHeld 0 g 0 := by
      have e := congrArg State.periodHeld (hw.settled ht); exact e
    rw [hp]
    exact hw.settled ht
  by_cases heq : x = rd s F.FCG_PERIOD_VALUE g
  · rw [if_pos heq] at ht
    exact ⟨(ht.rd _ _).trans heq.symm, fun f i _ => ht.rd f i, hfinal _ (RegsOnly.refl _) ht⟩
  · rw [if_neg heq, if_neg (by simp; omega)] at ht
    refine ⟨(ht.rd _ _).trans ((rd_wr_same _ _ _ _).trans (Nat.mod_eq_of_lt hx)), ht.keeps ?_, hfinal _ ((RegsOnly.refl _).wr _ _ _) ht⟩
    exact (Keeps.refl _ { s with periodHeld := sset s.periodHeld 0 g 0 }).wr _ _ _ (by simp)

theorem answers_periodRefused {x : Nat} (hg : g < 4) (hworks : blockWorks s 7 = true) (hlo : x < 500)
    (hne : x ≠ rd s F.FCG_PERIOD_VALUE g) : Answers (exec (.fcgPeriodWrite g false 8 x) s) fun t =>
      hasBit t F.FCG_EVT_EVT g 12 = true ∧ Keeps [(F.FCG_EVT_EVT, g)] s t := by
  refine answers_onBlock hg hworks fun t ht => ?_
  rw [periodWrite_64 (lt_trans hlo (by decide))] at ht
  dsimp only at ht
  rw [if_neg hne, if_pos (by simp [hlo])] at ht
  exact ⟨(ht.hasBit _ _ _).trans (hasBit_setBit _ _ _ _ (by decide)),
    ht.keeps ((Keeps.refl _ { s with periodHeld := sset s.periodHeld 0 g 0 }).wr _ _ _ (by simp))⟩

theorem answers_periodLow {x : Nat} (hg : g < 4) (hworks : blockWorks s 7 = true) :
    Answers (exec (.fcgPeriodWrite g false 4 x) s) fun t => Settled { s with periodHeld := t.periodHeld } t := by
  refine answers_onBlock hg hworks fun t ht => ?_
  rw [periodWrite, if_pos (by decide)] at ht
  have hp : t.periodHeld = sset s.periodHeld 0 g (x % 2 ^ 32 + 1) := by have e := congrArg State.periodHeld ht; exact e
  unfold Settled at *
  rw [hp]
  exact ht

/-! ### Windows -/

/-- Outcomes of triggers change streams and frames alone. -/
theorem trigOutcome_only (s : State) (g id : Nat) (unconf : Bool) :
    (trigOutcome s g id unconf).regs = s.regs ∧ (trigOutcome s g id unconf).fcg = s.fcg := by
  unfold trigOutcome
  dsimp only
  generalize List.range 64 = l
  exact List.foldlRecOn (motive := fun t : State => t.regs = s.regs ∧ t.fcg = s.fcg) l _ ⟨rfl, rfl⟩ fun _ ht _ _ => ht

/-- A generator whose window `w` has closed unconfirmed. -/
def unconfirmed (s : State) (g : Nat) (w : Window) : Fcg :=
  let k := fcgAt s g
  { k with
    windows := k.windows.erase w, confRun := 0, unconfRun := k.unconfRun + 1,
    anchorDue := k.anchorDue || (fcgLoop s g == fTRACK && decide (8 ≤ k.unconfRun + 1)) }

theorem closeWindow_eq (s : State) (g : Nat) (w : Window) : closeWindow s g w =
    trigOutcome (setLocked (fireProducer (fcgEvt (bump (setFcg s g (unconfirmed s g w)) F.FCG_UNCONF_COUNT g) g 7) (33 + 3 * g))
      g false) g w.id true := by
  unfold closeWindow unconfirmed
  with_reducible rfl

/-- A window closes unconfirmed. -/
theorem closeWindow_closes (s : State) (g : Nat) (w : Window) :
    (fcgAt (closeWindow s g w) g).windows = (fcgAt s g).windows.erase w ∧ hasBit (closeWindow s g w) F.FCG_EVT_EVT g 7 = true
    ∧ rd (closeWindow s g w) F.FCG_STATUS_PHASE_LOCKED g = 0
    ∧ rd (closeWindow s g w) F.FCG_UNCONF_COUNT g = min (rd s F.FCG_UNCONF_COUNT g + 1) (2 ^ F.FCG_UNCONF_COUNT.width - 1) := by
  have hwin : (unconfirmed s g w).windows = (fcgAt s g).windows.erase w := rfl
  rw [closeWindow_eq]
  generalize unconfirmed s g w = k at *
  have hcount : rd (fcgEvt (bump (setFcg s g k) F.FCG_UNCONF_COUNT g) g 7) F.FCG_UNCONF_COUNT g
      = min (rd s F.FCG_UNCONF_COUNT g + 1) (2 ^ F.FCG_UNCONF_COUNT.width - 1) := by
    unfold fcgEvt
    rw [setBit_eq, rd_wr_field _ _ _ _ _ _ (by decide), rd_bump]
    rfl
  have hevt : hasBit (fcgEvt (bump (setFcg s g k) F.FCG_UNCONF_COUNT g) g 7) F.FCG_EVT_EVT g 7 = true :=
    hasBit_setBit _ _ _ _ (by decide)
  have hfcg : fcgAt (fcgEvt (bump (setFcg s g k) F.FCG_UNCONF_COUNT g) g 7) g = k := fcgAt_setFcg s g k
  generalize fcgEvt (bump (setFcg s g k) F.FCG_UNCONF_COUNT g) g 7 = a at *
  have hfire := fireProducer_touches a (33 + 3 * g)
  have hevt' : hasBit (fireProducer a (33 + 3 * g)) F.FCG_EVT_EVT g 7 = true := by
    unfold hasBit at *
    rwa [hfire _ _ (by decide)]
  obtain ⟨hregs, hfcg'⟩ := trigOutcome_only (setLocked (fireProducer a (33 + 3 * g)) g false) g w.id true
  have hlocked := setLocked_regsOnly (fireProducer a (33 + 3 * g)) g false
  refine ⟨?_, ?_, ?_, ?_⟩
  · rw [fcgAt_congr hfcg', ← hwin, ← hfcg]
    refine congrArg Fcg.windows (fcgAt_congr ?_ g)
    have e : (setLocked (fireProducer a (33 + 3 * g)) g false).fcg = _ := congrArg State.fcg hlocked
    exact e.trans (fireProducer_fcg _ _)
  · unfold hasBit
    rw [rd_congr hregs]
    exact hasBit_setLocked hevt' false
  · rw [rd_congr hregs, rd_setLocked_false]
  · rw [rd_congr hregs, setLocked_touches _ _ _ _ _ (by decide), hfire _ _ (by decide), hcount]

theorem answers_windowClose {w : Window} {rest : List Window} (hg : g < 4) (hworks : blockWorks s 7 = true)
    (hw : (fcgAt s g).windows = w :: rest) (hj : judged s (rd s F.FCG_CFG_SRC_ENC g) w.hi = true) :
    Answers (exec (.fcgWindowClose g) s) fun t =>
        (fcgAt t g).windows = rest ∧ hasBit t F.FCG_EVT_EVT g 7 = true ∧ rd t F.FCG_STATUS_PHASE_LOCKED g = 0
        ∧ rd t F.FCG_UNCONF_COUNT g = min (rd s F.FCG_UNCONF_COUNT g + 1) (2 ^ F.FCG_UNCONF_COUNT.width - 1) := by
  refine answers_onBlock hg hworks fun t ht => ?_
  have hclose : windowClose s g = takeHoldTime (closeWindow s g w) g := by
    unfold windowClose
    rw [hw, List.find?_cons_of_pos (by exact hj)]
  rw [hclose] at ht
  obtain ⟨hwin, hevt, hlock, hcount⟩ := closeWindow_closes s g w
  rw [hw, List.erase_cons_head] at hwin
  generalize closeWindow s g w = c at *
  refine ⟨?_, (ht.hasBit _ _ _).trans hevt, (ht.rd _ _).trans hlock, (ht.rd _ _).trans hcount⟩
  rw [ht.fcgAt, takeHoldTime, fcgAt_setFcg]
  exact hwin

/-! ### HOLD -/

theorem answers_holdExpired (hg : g < 4) (hworks : blockWorks s 7 = true) (hloop : fcgLoop s g = fHOLD)
    (hrelock : (fcgAt s g).relock = false)
    (hdue : (fcgAt s g).holdTime ≤ (fcgAt s g).holdUsed + (s.ns - (fcgAt s g).holdSince)) :
    Answers (exec (.fcgHoldExpired g) s) fun t =>
        hasBit t F.FCG_EVT_EVT g 3 = true
        ∧ fcgLoop t g = (match rd s F.FCG_CFG_HOLD_POLICY g with | 0 => fSTOPPED | 1 => fDECAY | _ => fFREERUN)
        ∧ ∀ g', g' < 4 → g' ≠ g → fcgLoop t g' = fcgLoop s g' := by
  refine answers_onBlock hg hworks fun t ht => ?_
  have hpass : ¬ ((decide (fcgLoop s g ≠ fHOLD) || (fcgAt s g).relock
      || decide ((fcgAt s g).holdUsed + (s.ns - (fcgAt s g).holdSince) < (fcgAt s g).holdTime)) = true) := by
    rw [hloop, hrelock]
    simpa using hdue
  unfold holdExpired at ht
  dsimp only at ht
  rw [if_neg hpass] at ht
  have hfire := fireProducer_touches (fcgEvt s g 3) (34 + 3 * g)
  have hevt : hasBit (fcgState (fcgEvt s g 3) g) F.FCG_EVT_EVT g 3 = true := by
    have h : hasBit (fcgEvt s g 3) F.FCG_EVT_EVT g 3 = true := hasBit_setBit s _ _ _ (by decide)
    unfold fcgState hasBit at *
    rwa [hfire _ _ (by decide)]
  have hrd : ∀ f i, F.FCG_EVT_EVT.fid % 1024 ≠ f.fid % 1024 → (∀ h ∈ beaconFields, h.fid % 1024 ≠ f.fid % 1024) →
      rd (fcgState (fcgEvt s g 3) g) f i = rd s f i := by
    intro f i he hb
    unfold fcgState
    rw [hfire _ _ hb, fcgEvt, setBit_eq, rd_wr_field _ _ _ _ _ _ he]
  rw [hrd _ _ (by decide) (by decide)] at ht
  have hother : ∀ g', fcgLoop (fcgState (fcgEvt s g 3) g) g' = fcgLoop s g' := fun g' => hrd _ _ (by decide) (by decide)
  generalize fcgState (fcgEvt s g 3) g = a at *
  have hset : ∀ st, hasBit (setLoop a g st) F.FCG_EVT_EVT g 3 = true := by
    intro st
    unfold hasBit setLoop at *
    rwa [rd_wr_field _ _ _ _ _ _ (by decide)]
  generalize rd s F.FCG_CFG_HOLD_POLICY g = policy at *
  rcases policy with _ | _ | policy
  case zero =>
    change Settled (fcgState (fcgEvt (ownMotion (setLoop a g fSTOPPED) g false) g 11) g) t at ht
    have hfire := fireProducer_touches (fcgEvt (ownMotion (setLoop a g fSTOPPED) g false) g 11) (34 + 3 * g)
    have hloop' : ∀ g', fcgLoop t g' = fcgLoop (setLoop a g fSTOPPED) g' := by
      intro g'
      rw [ht.fcgLoop]
      unfold fcgState fcgLoop
      rw [hfire _ _ (by decide), fcgEvt, setBit_eq, rd_wr_field _ _ _ _ _ _ (by decide), ownMotion, wrBool_eq,
        rd_wr_field _ _ _ _ _ _ (by decide)]
    refine ⟨?_, (hloop' g).trans (fcgLoop_setLoop _ _ (st := fSTOPPED) (by decide)), fun g' _ hne =>
      (hloop' g').trans ((fcgLoop_setLoop_ne _ _ hne).trans (hother g'))⟩
    rw [ht.hasBit, fcgState, hasBit, hfire _ _ (by decide)]
    refine hasBit_setBit_of _ _ _ _ _ (by decide) ?_
    unfold hasBit ownMotion
    rw [wrBool_eq, rd_wr_field _ _ _ _ _ _ (by decide)]
    exact hset _
  case succ.zero =>
    exact ⟨(ht.hasBit _ _ _).trans (hset _), (ht.fcgLoop g).trans (fcgLoop_setLoop _ _ (st := fDECAY) (by decide)),
      fun g' _ hne => (ht.fcgLoop g').trans ((fcgLoop_setLoop_ne _ _ hne).trans (hother g'))⟩
  case succ.succ =>
    exact ⟨(ht.hasBit _ _ _).trans (hset _), (ht.fcgLoop g).trans (fcgLoop_setLoop _ _ (st := fFREERUN) (by decide)),
      fun g' _ hne => (ht.fcgLoop g').trans ((fcgLoop_setLoop_ne _ _ hne).trans (hother g'))⟩

end

/-- Settles O22. -/
theorem frameClocksRunByTheirModes : Obligations.FrameClocksRunByTheirModes := by
  intro s g hg hworks
  refine ⟨fun hidle hmin hmax => ⟨?_, ?_⟩, fun h => ?_, ?_, ?_, ?_, ?_, ?_, ?_, ?_⟩
  · exact fun hmode hat => answers_startFree hg hworks hidle hmin hmax hmode hat
  · exact fun hmode hc henc harmed hsrc => answers_startLock hg hworks hidle hmin hmax hmode hc henc harmed hsrc
  · refine answers_startRefused hg hworks ?_
    unfold startRefused
    dsimp only
    rcases h with h | h | ⟨hm, hu⟩
    · rw [h]; rfl
    · rw [decide_eq_true h]; simp
    · rw [hm, hu]; simp
  · exact answers_stop hg hworks
  · exact answers_onBlock hg hworks fun t ht => cleared_of_settled ht (by decide)
  · exact fun v => answers_periodTaken hg hworks
  · exact fun v => answers_periodRefused hg hworks
  · exact fun v => answers_periodLow hg hworks
  · exact fun w rest => answers_windowClose hg hworks
  · exact fun hloop hrelock hdue _ => answers_holdExpired hg hworks hloop hrelock hdue

end Sys2Proof.Machine
end

section
/-! Pulse outputs and compare units of the encoder block (R181 to R192). -/
open Sys2Proof
namespace Sys2Proof.Machine

section
variable {s t u v : State} {p k : Nat}

/-! ### Pulse outputs -/

/-- Following the state of a pulse output, its pair's pins alone change. -/
theorem poRefresh_keeps (s : State) (p : Nat) :
    Keeps [(F.TRG_STATUS_ACTIVE, 2 * rd s F.PO_CFG_PAIR p), (F.TRG_STATUS_ACTIVE, 2 * rd s F.PO_CFG_PAIR p + 1)] s (poRefresh s p) := by
  unfold poRefresh refreshTrg
  rw [wrBool_eq, wrBool_eq]
  exact ((Keeps.refl _ s).wr _ _ _ (by simp)).wr _ _ _ (by simp)

theorem poRefresh_regsOnly (s : State) (p : Nat) : RegsOnly s (poRefresh s p) :=
  ((RegsOnly.refl s).wrBool ..).wrBool ..

theorem rd_poRefresh (s : State) (p : Nat) {f : Field} (i : Nat) (h : F.TRG_STATUS_ACTIVE.fid % 1024 ≠ f.fid % 1024) :
    rd (poRefresh s p) f i = rd s f i :=
  (poRefresh_keeps s p).touches rfl f i fun g hg => by
    rcases List.mem_pair.mp hg with rfl | rfl <;> exact h

/-- A pulse output that goes dark loses its backlog, counted, and nothing else. -/
theorem poDark_touches (s : State) (p : Nat) : Touches [F.PO_STATUS_BACKLOG, F.PO_LOST_COUNT] s (poDark s p) := by
  unfold poDark; dsimp only
  split
  · exact .refl
  · exact ((Touches.refl).wr _ _ _ (by simp)).wr _ _ _ (by simp)

/-- What is left of a pulse output's backlog when it goes dark is none. -/
theorem rd_poDark_backlog (h : rd s F.PO_STATUS_BACKLOG p = 0) : poDark s p = s := by
  unfold poDark; dsimp only
  rw [h]
  rfl

/-- A pulse output without a backlog, darkened where its pair is and with its pins refreshed. -/
def poSettled (s : State) (p : Nat) : State := poRefresh (if poIsDark s p then poDark s p else s) p

theorem rd_poSettled (h : rd s F.PO_STATUS_BACKLOG p = 0) {f : Field} (i : Nat)
    (hf : F.TRG_STATUS_ACTIVE.fid % 1024 ≠ f.fid % 1024) : rd (poSettled s p) f i = rd s f i := by
  unfold poSettled
  rw [rd_poDark_backlog h, ite_self]
  exact rd_poRefresh s p i hf

/-- PO_CFG.EN of a disabled pulse output rises. -/
theorem answers_poEnable {P : State → Prop} (hp : p < 2) (hworks : blockWorks s 6 = true) (hoff : isSet s F.PO_CFG_EN p = false)
    (h : ∀ t, Settled (poSettled (poEnable (wr s F.PO_CFG_EN p 1) p) p) t → P t) : Answers (exec (.poEnable p) s) P := by
  refine answers_onBlock hp hworks fun t ht => h t ?_
  have hon : isSet (wr s F.PO_CFG_EN p 1) F.PO_CFG_EN p = true := by
    unfold isSet; rw [rd_wr_same]; rfl
  unfold poCfgWritten at ht
  rw [hon, hoff] at ht
  exact ht

/-- An enabled pulse output starts with nothing accumulated, unless its ratio is out of order. -/
theorem poEnable_eq (s : State) (p : Nat) : poEnable s p =
    if rd s F.PO_RATIO_M p = 0 ∨ rd s F.PO_RATIO_N p = 0 ∨ rd s F.PO_RATIO_N p < rd s F.PO_RATIO_M p
    then wr (wr (wr s F.PO_ACC_A p 0) F.PO_STATUS_BACKLOG p 0) F.PO_STATUS_CFG_ERR p 1
    else wr (wr (wr s F.PO_ACC_A p 0) F.PO_STATUS_BACKLOG p 0) F.PO_STATUS_RUNNING p 1 := by
  have hm (f : Field) (h₁ : F.PO_STATUS_BACKLOG.fid % 1024 ≠ f.fid % 1024) (h₂ : F.PO_ACC_A.fid % 1024 ≠ f.fid % 1024) :
      rd (wr (wr s F.PO_ACC_A p 0) F.PO_STATUS_BACKLOG p 0) f p = rd s f p := by
    rw [rd_wr_field _ _ _ _ _ _ h₁, rd_wr_field _ _ _ _ _ _ h₂]
  unfold poEnable
  dsimp only
  rw [hm F.PO_RATIO_M (by decide) (by decide), hm F.PO_RATIO_N (by decide) (by decide)]
  simp only [Bool.or_eq_true, decide_eq_true_eq, or_assoc]

theorem answers_poStarts (hp : p < 2) (hworks : blockWorks s 6 = true) (hoff : isSet s F.PO_CFG_EN p = false)
    (hm : rd s F.PO_RATIO_M p ≠ 0) (hle : rd s F.PO_RATIO_M p ≤ rd s F.PO_RATIO_N p) : Answers (exec (.poEnable p) s) fun t =>
      rd t F.PO_CFG_EN p = 1 ∧ rd t F.PO_STATUS_RUNNING p = 1 ∧ rd t F.PO_ACC_A p = 0 ∧ rd t F.PO_STATUS_BACKLOG p = 0 := by
  refine answers_poEnable hp hworks hoff fun t ht => ?_
  rw [poEnable_eq, if_neg (by
    rw [rd_wr_field _ _ _ _ _ _ (by decide), rd_wr_field _ _ _ _ _ _ (by decide)]; omega)] at ht
  have hz : rd (wr (wr (wr (wr s F.PO_CFG_EN p 1) F.PO_ACC_A p 0) F.PO_STATUS_BACKLOG p 0) F.PO_STATUS_RUNNING p 1)
      F.PO_STATUS_BACKLOG p = 0 := by
    rw [rd_wr_field _ _ _ _ _ _ (by decide), rd_wr_same]; rfl
  refine ⟨?_, ?_, ?_, ?_⟩ <;> rw [ht.rd, rd_poSettled hz _ (by decide)]
  · simp (disch := decide) only [rd_wr_field, rd_wr_same]; rfl
  · exact rd_wr_same ..
  · simp (disch := decide) only [rd_wr_field, rd_wr_same]; rfl
  · exact hz

theorem answers_poRefused (hp : p < 2) (hworks : blockWorks s 6 = true) (hoff : isSet s F.PO_CFG_EN p = false)
    (h : rd s F.PO_RATIO_M p = 0 ∨ rd s F.PO_RATIO_N p < rd s F.PO_RATIO_M p) : Answers (exec (.poEnable p) s) fun t =>
      rd t F.PO_STATUS_CFG_ERR p = 1 ∧ rd t F.PO_STATUS_RUNNING p = rd s F.PO_STATUS_RUNNING p := by
  refine answers_poEnable hp hworks hoff fun t ht => ?_
  rw [poEnable_eq, if_pos (by
    rw [rd_wr_field _ _ _ _ _ _ (by decide), rd_wr_field _ _ _ _ _ _ (by decide)]; omega)] at ht
  have hz : rd (wr (wr (wr (wr s F.PO_CFG_EN p 1) F.PO_ACC_A p 0) F.PO_STATUS_BACKLOG p 0) F.PO_STATUS_CFG_ERR p 1)
      F.PO_STATUS_BACKLOG p = 0 := by
    rw [rd_wr_field _ _ _ _ _ _ (by decide), rd_wr_same]; rfl
  refine ⟨?_, ?_⟩ <;> rw [ht.rd, rd_poSettled hz _ (by decide)]
  · exact rd_wr_same ..
  · simp (disch := decide) only [rd_wr_field]

theorem poAt_setPo_same (s : State) (p : Nat) (k : Po) : poAt (setPo s p k) p = k := sget_sset_same ..

/-- Of `s`, registers and the pulse outputs' pins alone differ in `t`. -/
def PoOnly (s t : State) : Prop := t = { s with regs := t.regs, po := t.po }

theorem PoOnly.settled (h : PoOnly s u) (ht : Settled u t) : Settled { s with regs := t.regs, po := t.po } t := by
  obtain ⟨r, k, rfl⟩ : ∃ r k, u = { s with regs := r, po := k } := ⟨_, _, h⟩
  have hr : t.regs = r := ht.regs
  have hk : t.po = k := ht.po
  unfold Settled at *
  rw [hr, hk]; exact ht

theorem toSigned_small {w n : Nat} (h : n < 2 ^ (w - 1)) : toSigned w n = n := by
  have hle : 2 ^ (w - 1) ≤ 2 ^ w := Nat.pow_le_pow_right (by decide) (Nat.sub_le _ _)
  unfold toSigned
  rw [Nat.mod_eq_of_lt (h.trans_le hle), if_pos h]

theorem fromSigned_nat (w n : Nat) : fromSigned w (n : Int) = n % 2 ^ w := by
  unfold fromSigned
  rw [show ((2 : Int) ^ w) = ((2 ^ w : Nat) : Int) by push_cast; rfl, ← Int.natCast_emod, Int.toNat_natCast]

/-- Sign extension and an addition keep a number modulo the width. -/
theorem fromSigned_toSigned_add (w n d : Nat) : fromSigned w (toSigned w n + d) = (n + d) % 2 ^ w := by
  have hc : ((2 : Int) ^ w) = ((2 ^ w : Nat) : Int) := by push_cast; rfl
  have hm : (toSigned w n + d) % ((2 ^ w : Nat) : Int) = ((n + d : Nat) : Int) % ((2 ^ w : Nat) : Int) := by
    unfold toSigned
    rw [hc]
    split <;> push_cast <;> simp [Int.add_emod]
  unfold fromSigned
  rw [hc, hm, ← Int.natCast_emod, Int.toNat_natCast]

/-- One output count forward takes one from the backlog. -/
theorem poCounted_up {b : Nat} (hb : rd s F.PO_STATUS_BACKLOG p = b + 1) (hlt : b + 1 < 2 ^ 15) : poCounted s p true =
    wr (wr s F.PO_STATUS_BACKLOG p b) F.PO_OUT_VALUE p ((rd s F.PO_OUT_VALUE p + 1) % 2 ^ 64) := by
  unfold poCounted
  dsimp only
  rw [if_pos rfl, hb, toSigned_small (w := 16) hlt, rd_wr_field _ _ _ _ _ _ (by decide),
    show ((b + 1 : Nat) : Int) - 1 = (b : Nat) by push_cast; omega, fromSigned_nat, Nat.mod_eq_of_lt (by omega)]
  rw [show (1 : Int) = ((1 : Nat) : Int) from rfl, fromSigned_toSigned_add]

theorem answers_poOutputCount {b : Nat} (hp : p < 2) (hworks : blockWorks s 6 = true) (hrun : isSet s F.PO_STATUS_RUNNING p = true)
    (hdark : poIsDark s p = false) (hnext : (poAt s p).next ≤ s.ns) (hfmt : isSet s F.PO_CFG_FORMAT p = false)
    (hinv : isSet s F.PO_CFG_INVERT p = false) (hb : rd s F.PO_STATUS_BACKLOG p = b + 1) (hlt : b + 1 < 2 ^ 15) :
    Answers (exec (.poOutputCount p) s) fun t =>
        rd t F.PO_STATUS_BACKLOG p = b ∧ rd t F.PO_OUT_VALUE p = (rd s F.PO_OUT_VALUE p + 1) % 2 ^ 64
        ∧ (poAt t p).phase = ((poAt s p).phase + 1) % 4 ∧ (poAt t p).next = s.ns + rd s F.PO_SPACING_SPACING_NS p
        ∧ Keeps [(F.PO_STATUS_BACKLOG, p), (F.PO_OUT_VALUE, p), (F.TRG_STATUS_ACTIVE, 2 * rd s F.PO_CFG_PAIR p),
            (F.TRG_STATUS_ACTIVE, 2 * rd s F.PO_CFG_PAIR p + 1)] s t
        ∧ Settled { s with regs := t.regs, po := t.po } t := by
  let next : Po := { poAt s p with next := s.ns + rd s F.PO_SPACING_SPACING_NS p, phase := ((poAt s p).phase + 1) % 4 }
  have hstep : poStep s p = poRefresh (poCounted (setPo s p next) p true) p := by
    unfold poStep
    dsimp only
    rw [hrun, hdark, hfmt, hinv, hb, toSigned_small (w := 16) hlt,
      show decide (0 < ((b + 1 : Nat) : Int)) = true from decide_eq_true (by push_cast; omega),
      if_neg (by simpa using hnext), if_neg Bool.false_ne_true, if_neg (by push_cast; omega)]
    rfl
  refine answers_onBlock hp hworks fun t ht => ?_
  rw [hstep, poCounted_up (s := setPo s p next) hb hlt] at ht
  have hkeep : Keeps [(F.PO_STATUS_BACKLOG, p), (F.PO_OUT_VALUE, p)] s (wr (wr (setPo s p next) F.PO_STATUS_BACKLOG p b)
      F.PO_OUT_VALUE p ((rd s F.PO_OUT_VALUE p + 1) % 2 ^ 64)) :=
    ((Keeps.refl _ (setPo s p next)).wr _ _ _ (by simp)).wr _ _ _ (by simp)
  have hpair : rd (wr (wr (setPo s p next) F.PO_STATUS_BACKLOG p b) F.PO_OUT_VALUE p ((rd s F.PO_OUT_VALUE p + 1) % 2 ^ 64))
      F.PO_CFG_PAIR p = rd s F.PO_CFG_PAIR p := by
    rw [rd_wr_field _ _ _ _ _ _ (by decide), rd_wr_field _ _ _ _ _ _ (by decide)]; rfl
  have hpo : PoOnly s (wr (wr (setPo s p next) F.PO_STATUS_BACKLOG p b) F.PO_OUT_VALUE p ((rd s F.PO_OUT_VALUE p + 1) % 2 ^ 64)) := rfl
  have hat : poAt (wr (wr (setPo s p next) F.PO_STATUS_BACKLOG p b) F.PO_OUT_VALUE p ((rd s F.PO_OUT_VALUE p + 1) % 2 ^ 64)) p
      = next := poAt_setPo_same s p next
  have hback : rd (wr (wr (setPo s p next) F.PO_STATUS_BACKLOG p b) F.PO_OUT_VALUE p ((rd s F.PO_OUT_VALUE p + 1) % 2 ^ 64))
      F.PO_STATUS_BACKLOG p = b := by
    rw [rd_wr_field _ _ _ _ _ _ (by decide), rd_wr_same]; exact Nat.mod_eq_of_lt (by change b < 2 ^ 16; omega)
  have hout : rd (wr (wr (setPo s p next) F.PO_STATUS_BACKLOG p b) F.PO_OUT_VALUE p ((rd s F.PO_OUT_VALUE p + 1) % 2 ^ 64))
      F.PO_OUT_VALUE p = (rd s F.PO_OUT_VALUE p + 1) % 2 ^ 64 := by
    rw [rd_wr_same]; exact Nat.mod_mod _ _
  rw [show rd (setPo s p next) F.PO_OUT_VALUE p = rd s F.PO_OUT_VALUE p from rfl] at ht
  generalize (wr (wr (setPo s p next) F.PO_STATUS_BACKLOG p b) F.PO_OUT_VALUE p ((rd s F.PO_OUT_VALUE p + 1) % 2 ^ 64)) = w at *
  have hat' : poAt t p = next := by
    rw [← hat]
    unfold poAt
    rw [ht.po, show (poRefresh w p).po = w.po from by have e := congrArg State.po (poRefresh_regsOnly w p); exact e]
  refine ⟨?_, ?_, by rw [hat'], by rw [hat'], ht.keeps ?_, ?_⟩
  · rw [ht.rd, rd_poRefresh _ _ _ (by decide), hback]
  · rw [ht.rd, rd_poRefresh _ _ _ (by decide), hout]
  · have hr := poRefresh_keeps w p
    rw [hpair] at hr
    exact (hkeep.mono (by simp)).trans (hr.mono (by simp))
  · refine PoOnly.settled ?_ ht
    unfold PoOnly at *
    rw [poRefresh_regsOnly w p, hpo]

/-! ### Compare units -/

/-- Of `s`, registers and the compare units' own state alone differ in `t`. -/
def CmpOnly (s t : State) : Prop := t = { s with regs := t.regs, cmpCur := t.cmpCur, cmpUpd := t.cmpUpd }

theorem CmpOnly.settled (h : CmpOnly s u) (ht : Settled u t) :
    Settled { s with regs := t.regs, cmpCur := t.cmpCur, cmpUpd := t.cmpUpd } t := by
  obtain ⟨r, c, k, rfl⟩ : ∃ r c k, u = { s with regs := r, cmpCur := c, cmpUpd := k } := ⟨_, _, _, h⟩
  have hr : t.regs = r := ht.regs
  have hc : t.cmpCur = c := ht.cmpCur
  have hk : t.cmpUpd = k := ht.cmpUpd
  unfold Settled at *
  rw [hr, hc, hk]; exact ht

/-- No recipe runs on any core, so arming a unit ends none. -/
theorem recipeArmed_of_none (h : ∀ c, c < 8 → (coreAt s c).recipe = none) : recipeArmed s k = s := by
  have hrun (c : Nat) (hc : c < 8) : runningRecipe s c = none := by
    unfold runningRecipe; rw [h c hc, ite_self]
  refine List.foldlRecOn (motive := fun t => t = s) (List.range 8) _ rfl fun t ht c hc => ?_
  rw [ht, hrun c (List.mem_range.mp hc)]

/-- What an accepted arming leads to. -/
def cmpArmed (s : State) (k : Nat) : State :=
  wr (wr (cmpMakeCurrent (wr (setUpds s k []) F.CMP_CUR_OFFSET_VALUE k (rd s F.CMP_OFFSET_VALUE k)) k (rd s F.CMP_BASE_BASE k))
    F.CMP_STATUS_ARMED k 1) F.CMP_STATUS_DONE k 0

theorem cmpArm_of_accepted (h : cmpArmRefused s k = false) : cmpArm s k = cmpArmed s k := by
  unfold cmpArm
  rw [h, if_neg Bool.false_ne_true]
  dsimp only
  rw [rd_wr_field _ _ _ _ _ _ (by decide)]
  rfl

theorem cmpArmed_keeps (s : State) (k : Nat) :
    Keeps [(F.CMP_STATUS_ARMED, k), (F.CMP_STATUS_DONE, k), (F.CMP_PTR_PTR, k), (F.CMP_CUR_OFFSET_VALUE, k)] s (cmpArmed s k) := by
  refine Keeps.wr (Keeps.wr ?_ _ _ _ (by simp)) _ _ _ (by simp)
  exact ((((Keeps.refl _ (setUpds s k [])).wr _ _ _ (by simp)).wr F.CMP_PTR_PTR k _ (by simp)).of_regs rfl)

theorem cmpArmed_only (s : State) (k : Nat) : CmpOnly s (cmpArmed s k) := rfl

theorem rd_cmpMakeCurrent (s : State) (k e : Nat) (f : Field) (i : Nat) :
    rd (cmpMakeCurrent s k e) f i = rd (wr s F.CMP_PTR_PTR k e) f i := rfl

theorem rd_setUpds (s : State) (k : Nat) (us : List CmpUpd) (f : Field) (i : Nat) : rd (setUpds s k us) f i = rd s f i := rfl

theorem answers_cmpArm (hk : k < 16) (hworks : blockWorks s 6 = true)
    (hin : rd s F.CMP_BASE_BASE k + rd s F.CMP_LEN_LEN k ≤ 262144) (hlen : rd s F.CMP_LEN_LEN k ≠ 0)
    (hmode : rd s F.ENC_CFG_MODE (rd s F.CMP_CFG_SRC k) ≠ 0) (hrec : ∀ c, c < 8 → (coreAt s c).recipe = none) :
    Answers (exec (.cmpArm k) s) fun t =>
          rd t F.CMP_STATUS_ARMED k = 1 ∧ rd t F.CMP_STATUS_DONE k = 0 ∧ rd t F.CMP_PTR_PTR k = rd s F.CMP_BASE_BASE k
          ∧ rd t F.CMP_CUR_OFFSET_VALUE k = rd s F.CMP_OFFSET_VALUE k
          ∧ sget t.cmpCur 0 k = cmpEntry s (rd s F.CMP_BASE_BASE k)
          ∧ Keeps [(F.CMP_STATUS_ARMED, k), (F.CMP_STATUS_DONE, k), (F.CMP_PTR_PTR, k), (F.CMP_CUR_OFFSET_VALUE, k)] s t
          ∧ Settled { s with regs := t.regs, cmpCur := t.cmpCur, cmpUpd := t.cmpUpd } t := by
  have hacc : cmpArmRefused s k = false := by
    unfold cmpArmRefused
    simp only [Bool.or_eq_false_iff, decide_eq_false_iff_not, beq_eq_false_iff_ne]
    exact ⟨⟨by omega, hlen⟩, hmode⟩
  have hcmd : cmpArmCmd s k = cmpArmed s k := by
    unfold cmpArmCmd
    rw [hacc, if_neg Bool.false_ne_true, cmpArm_of_accepted hacc]
    exact recipeArmed_of_none hrec
  refine answers_onBlock hk hworks fun t ht => ?_
  rw [hcmd] at ht
  refine ⟨?_, ?_, ?_, ?_, ?_, ht.keeps (cmpArmed_keeps s k), (cmpArmed_only s k).settled ht⟩
  · rw [ht.rd, cmpArmed, rd_wr_field _ _ _ _ _ _ (by decide), rd_wr_same]; rfl
  · rw [ht.rd, cmpArmed, rd_wr_same]; rfl
  · rw [ht.rd, cmpArmed, rd_wr_field _ _ _ _ _ _ (by decide), rd_wr_field _ _ _ _ _ _ (by decide), rd_cmpMakeCurrent, rd_wr_same]
    exact rd_mod s F.CMP_BASE_BASE k
  · rw [ht.rd, cmpArmed, rd_wr_field _ _ _ _ _ _ (by decide), rd_wr_field _ _ _ _ _ _ (by decide), rd_cmpMakeCurrent,
      rd_wr_field _ _ _ _ _ _ (by decide), rd_wr_same]
    exact rd_mod s F.CMP_OFFSET_VALUE k
  · rw [ht.cmpCur]
    exact sget_sset_same ..

theorem answers_cmpArmRefused (hk : k < 16) (hworks : blockWorks s 6 = true)
    (h : 262144 < rd s F.CMP_BASE_BASE k + rd s F.CMP_LEN_LEN k ∨ rd s F.CMP_LEN_LEN k = 0) :
    Answers (exec (.cmpArm k) s) fun t => hasBit t F.CMP_EVT_EVT k 4 = true ∧ Changes [(F.CMP_EVT_EVT, k)] s t := by
  have href : cmpArmRefused s k = true := by
    unfold cmpArmRefused
    simp only [Bool.or_eq_true, decide_eq_true_eq, beq_iff_eq]
    exact .inl h
  have hcmd : cmpArmCmd s k = setBit s F.CMP_EVT_EVT k 4 := by
    unfold cmpArmCmd cmpArm
    rw [href]
    rfl
  refine answers_onBlock hk hworks fun t ht => ?_
  rw [hcmd] at ht
  exact ⟨(ht.hasBit ..).trans (hasBit_setBit _ _ _ _ (by decide)),
    ((RegsOnly.refl s).setBit ..).changes ht ((Keeps.refl _ s).wr _ _ _ (by simp))⟩

theorem answers_cmpDisarm (hk : k < 16) (hworks : blockWorks s 6 = true) : Answers (exec (.cmpDisarm k) s) fun t =>
    rd t F.CMP_STATUS_ARMED k = 0 ∧ sget t.cmpUpd [] k = [] ∧ Keeps [(F.CMP_STATUS_ARMED, k)] s t
    ∧ Settled { s with regs := t.regs, cmpUpd := t.cmpUpd } t := by
  refine answers_onBlock hk hworks fun t ht => ?_
  refine ⟨?_, ?_, ht.keeps ?_, ?_⟩
  · rw [ht.rd, cmpDisarm, rd_wr_same]; rfl
  · rw [ht.cmpUpd]; exact sget_sset_same s.cmpUpd [] k []
  · exact (Keeps.refl _ (setUpds s k [])).wr _ _ _ (by simp)
  · have hu : t.cmpUpd = (cmpDisarm s k).cmpUpd := ht.cmpUpd
    have hr : t.regs = (cmpDisarm s k).regs := ht.regs
    unfold Settled at *
    rw [hr, hu]; exact ht

/-! ### The compare list -/

/-- An entry that is set reads as it was set, whatever its memory came up with. -/
theorem cmpEntry_cmpSetEntry_same (s : State) (e x : Nat) : cmpEntry (cmpSetEntry s e x) e = x % 2 ^ 62 := by
  unfold cmpEntry
  rw [show (cmpSetEntry s e x).cmpList = sset s.cmpList 0 e (x % 2 ^ 62 ^^^ memBack s memLIST e % 2 ^ 62) from rfl, sget_sset_same,
    show memBack (cmpSetEntry s e x) memLIST e = memBack s memLIST e from rfl, Nat.xor_assoc, Nat.xor_self, Nat.xor_zero]

theorem cmpEntry_cmpSetEntry_ne (s : State) {e y : Nat} (x : Nat) (h : y ≠ e) : cmpEntry (cmpSetEntry s e x) y = cmpEntry s y := by
  unfold cmpEntry
  rw [show (cmpSetEntry s e x).cmpList = sset s.cmpList 0 e (x % 2 ^ 62 ^^^ memBack s memLIST e % 2 ^ 62) from rfl,
    sget_sset_ne _ _ _ _ h]
  rfl

theorem Settled.cmpEntry (ht : Settled u t) (e : Nat) : cmpEntry t e = cmpEntry u e := by
  unfold Machine.cmpEntry memBack
  rw [ht.cmpList, ht.memLost]

/-- The entry that offset `off` of the list window names. -/
def listEntry (s : State) (off : Nat) : Nat := rd s F.ENC_LIST_PAGE_PAGE * 8192 + off % 0x10000 / 8

theorem answers_cmpListWrite_whole (hworks : blockWorks s 6 = true) (off val : Nat) : Answers (exec (.cmpListWrite off 8 val) s) fun t =>
    cmpEntry t (listEntry s off) = val % 2 ^ 62 ∧ (∀ x, x ≠ listEntry s off → cmpEntry t x = cmpEntry s x)
    ∧ Settled { s with cmpList := t.cmpList } t := by
  refine answers_inBlock hworks fun t ht => ?_
  have ht : Settled (cmpSetEntry s (listEntry s off) val) t := ht
  refine ⟨(ht.cmpEntry _).trans (cmpEntry_cmpSetEntry_same ..), fun x hx => (ht.cmpEntry x).trans (cmpEntry_cmpSetEntry_ne s val hx), ?_⟩
  have hl : t.cmpList = (cmpSetEntry s (listEntry s off) val).cmpList := ht.cmpList
  unfold Settled at *
  rw [hl]; exact ht

theorem answers_cmpListWrite_low {off : Nat} (hworks : blockWorks s 6 = true) (hoff : off % 8 = 0) (val : Nat) :
    Answers (exec (.cmpListWrite off 4 val) s) fun t => Settled { s with cmpHeld := some (listEntry s off, val % 2 ^ 32) } t := by
  refine answers_inBlock hworks fun t ht => ?_
  unfold cmpListWrite at ht
  dsimp only at ht
  rw [if_neg (by decide), if_pos (by omega)] at ht
  exact ht

theorem answers_cmpListWrite_high {off low : Nat} (hworks : blockWorks s 6 = true) (hoff : off % 8 = 4)
    (hheld : s.cmpHeld = some (listEntry s off, low)) (val : Nat) : Answers (exec (.cmpListWrite off 4 val) s) fun t =>
      cmpEntry t (listEntry s off) = (low + 2 ^ 32 * (val % 2 ^ 32)) % 2 ^ 62
      ∧ (∀ x, x ≠ listEntry s off → cmpEntry t x = cmpEntry s x)
      ∧ Settled { s with cmpList := t.cmpList, cmpHeld := none } t := by
  refine answers_inBlock hworks fun t ht => ?_
  have hw : cmpListWrite s off 4 val =
      cmpSetEntry { s with cmpHeld := none } (listEntry s off) (low + 2 ^ 32 * (val % 2 ^ 32)) := by
    unfold cmpListWrite
    dsimp only
    rw [if_neg (by decide), if_neg (by omega), hheld]
    exact if_pos rfl
  rw [hw] at ht
  refine ⟨(ht.cmpEntry _).trans (cmpEntry_cmpSetEntry_same ..),
    fun x hx => (ht.cmpEntry x).trans (cmpEntry_cmpSetEntry_ne { s with cmpHeld := none } _ hx), ?_⟩
  have hl := ht.cmpList
  unfold Settled at *
  rw [hl]; exact ht

end

/-- Settles O25, clause by clause. -/
theorem pulseOutputsAndCompareUnitsAct : Obligations.PulseOutputsAndCompareUnitsAct := by
  intro s hworks
  refine ⟨fun p hp hoff => ⟨answers_poStarts hp hworks hoff, answers_poRefused hp hworks hoff⟩,
    fun p b hp hrun hdark hnext hfmt hinv => answers_poOutputCount hp hworks hrun hdark hnext hfmt hinv,
    fun k hk => ⟨answers_cmpArm hk hworks, answers_cmpArmRefused hk hworks, answers_cmpDisarm hk hworks,
      answers_onBlock hk hworks fun t ht => cleared_of_settled ht (by decide)⟩,
    fun off val => ⟨answers_cmpListWrite_whole hworks off val, fun hoff => answers_cmpListWrite_low hworks hoff val,
      fun low hoff hheld _ => answers_cmpListWrite_high hworks hoff hheld val⟩⟩

end Sys2Proof.Machine
end

section
/-! Encoder channels count, index, time out and take their words (R152 to R178). -/
open Sys2Proof
namespace Sys2Proof.Machine

section
variable {s t u v : State} {n : Nat}

/-! ### The channels' own state -/

theorem encAt_setEnc (s : State) (n : Nat) (k : Enc) : encAt (setEnc s n k) n = k := sget_sset_same ..

theorem Settled.encAt (ht : Settled u t) (n : Nat) : encAt t n = encAt u n := by unfold Machine.encAt; rw [ht.enc]

theorem rd_setEnc (s : State) (n : Nat) (k : Enc) (f : Field) (i : Nat) : rd (setEnc s n k) f i = rd s f i := rfl

/-- Of `s`, registers and the channels' own state alone differ in `t`. -/
def EncOnly (s t : State) : Prop := t = { s with regs := t.regs, enc := t.enc }

theorem EncOnly.trans (h : EncOnly s t) (h' : EncOnly t u) : EncOnly s u := by
  unfold EncOnly at *
  rw [h', h]

theorem RegsOnly.encOnly (h : RegsOnly s t) : EncOnly s t := by
  unfold RegsOnly at h
  unfold EncOnly
  rw [h]

theorem EncOnly.wr (h : EncOnly s t) (f : Field) (i x : Nat) : EncOnly s (wr t f i x) := h.trans rfl

theorem EncOnly.setEnc (h : EncOnly s t) (n : Nat) (k : Enc) : EncOnly s (setEnc t n k) := h.trans rfl

theorem EncOnly.settled (h : EncOnly s u) (ht : Settled u t) : Settled { s with regs := t.regs, enc := t.enc } t := by
  obtain ⟨r, k, rfl⟩ : ∃ r k, u = { s with regs := r, enc := k } := ⟨_, _, h⟩
  have hr : t.regs = r := ht.regs
  have hk : t.enc = k := ht.enc
  unfold Settled at *
  rw [hr, hk]; exact ht

/-! ### No generator runs -/

/-- No frame clock runs. -/
def ClocksIdle (s : State) : Prop := ∀ g, g < 4 → fcgLoop s g = fIDLE

theorem ClocksIdle.touches {fs : List Field} (h : ClocksIdle s) (ht : Touches fs s t)
    (hfs : ∀ f ∈ fs, f.fid % 1024 ≠ F.FCG_STATUS_LOOP.fid % 1024) : ClocksIdle t :=
  fun g hg => (ht _ _ hfs).trans (h g hg)

theorem lockedOn_of_idle (h : ClocksIdle s) (n : Nat) : lockedOn s n = [] := by
  unfold lockedOn
  refine List.filter_eq_nil_iff.mpr fun g hg => ?_
  rw [fcgRuns_of_idle (h g (List.mem_range.mp hg)), Bool.and_false, Bool.false_and]
  exact Bool.false_ne_true

theorem fcgSpeedValid_of_idle (h : ClocksIdle s) (n : Nat) : fcgSpeedValid s n = s := by
  unfold fcgSpeedValid; rw [lockedOn_of_idle h]; rfl

theorem fcgLost_of_idle (h : ClocksIdle s) (n : Nat) : fcgLost s n = s := by
  unfold fcgLost; rw [lockedOn_of_idle h]; rfl

/-! ### The stages of a count -/

/-- A transition too soon after the last is counted. -/
def spacingNoted (s : State) (n ps : Nat) : State :=
  if (encAt s n).lastPs.any fun l => ps - l < 25000 then encEvt (bump s F.ENC_OVERSPEED_COUNT n) n 1 else s

theorem spacingNoted_keeps (s : State) (n ps : Nat) : Keeps [(F.ENC_OVERSPEED_COUNT, n), (F.ENC_EVT_EVT, n)] s (spacingNoted s n ps) := by
  unfold spacingNoted
  split
  · exact ((Keeps.refl _ s).wr _ _ _ (by simp)).wr _ _ _ (by simp)
  · exact .refl _ s

theorem spacingNoted_regsOnly (s : State) (n ps : Nat) : RegsOnly s (spacingNoted s n ps) := by
  unfold spacingNoted
  split
  · exact ((RegsOnly.refl s).bump ..).setBit ..
  · exact .refl s

theorem noteWindow_regs (s : State) (n ps : Nat) : (noteWindow s n ps).regs = s.regs := by
  unfold noteWindow
  split
  · split <;> rfl
  · rfl

theorem noteWindow_encOnly (s : State) (n ps : Nat) : EncOnly s (noteWindow s n ps) := by
  unfold noteWindow
  split
  · split <;> rfl
  · rfl

/-- A counted transition up to its place in the speed average: the channel's marks, its direction and its instant. -/
def encMarked (s : State) (n ps : Nat) (fwd zActive : Bool) : State :=
  let k := encAt s n
  let turned := k.moved && isSet (spacingNoted s n ps) F.ENC_STATUS_DIR n != fwd
  let w := noteWindow (spacingNoted s n ps) n ps
  wr (wrBool (setEnc w n { encAt w n with
    bad := false, moved := true, lastPs := some ps, idxTurned := k.idxTurned || turned,
    zRun := k.zRun.map fun z => (if zActive then z.1 + 1 else z.1, z.2 + 1) }) F.ENC_STATUS_DIR n fwd) F.ENC_LAST_TB_VALUE n (ps / 1000)

theorem encMarked_keeps (s : State) (n ps : Nat) (fwd z : Bool) :
    Keeps [(F.ENC_OVERSPEED_COUNT, n), (F.ENC_EVT_EVT, n), (F.ENC_STATUS_DIR, n), (F.ENC_LAST_TB_VALUE, n)] s (encMarked s n ps fwd z) := by
  unfold encMarked
  dsimp only
  rw [wrBool_eq]
  refine Keeps.wr (Keeps.wr ?_ _ _ _ (by simp)) _ _ _ (by simp)
  exact (((spacingNoted_keeps s n ps).of_regs (noteWindow_regs _ n ps)).of_regs rfl).mono (by simp)

theorem rd_encMarked_dir (s : State) (n ps : Nat) (fwd z : Bool) : isSet (encMarked s n ps fwd z) F.ENC_STATUS_DIR n = fwd := by
  unfold isSet encMarked
  dsimp only
  rw [rd_wr_field _ _ _ _ _ _ (by decide), wrBool_eq, rd_wr_same]
  cases fwd <;> rfl

theorem rd_encMarked_lastTb (s : State) (n ps : Nat) (fwd z : Bool) :
    rd (encMarked s n ps fwd z) F.ENC_LAST_TB_VALUE n = ps / 1000 % 2 ^ 64 := rd_wr_same ..

/-- What a count writes of the channel's own state, of the compare units' and of the other state stays. -/
theorem encMarked_encOnly (s : State) (n ps : Nat) (fwd z : Bool) : EncOnly s (encMarked s n ps fwd z) := by
  unfold encMarked
  dsimp only
  rw [wrBool_eq]
  exact (((((spacingNoted_regsOnly s n ps).encOnly).trans (noteWindow_encOnly _ n ps)).setEnc _ _).wr _ _ _).wr _ _ _

/-- A point of the speed average writes the points, the interval and SPEED_VALID, and tells the loops of a speed that has become valid. -/
theorem speedPoint_shape (s : State) (n ps : Nat) (d : Int) (first : Bool) : ∃ (k : Enc) (x : Nat) (y told : Bool),
    speedPoint s n ps d first =
      (let w := wrBool (wr (setEnc s n k) F.ENC_INTERVAL_VALUE n x) F.ENC_STATUS_SPEED_VALID n y
       if told then fcgSpeedValid w n else w) ∧ k.ssiField = (encAt s n).ssiField :=
  ⟨_, _, _, _, by rfl, by rfl⟩

/-- While no frame clock runs, a point of the speed average writes the interval, SPEED_VALID and the channel's points alone. -/
theorem speedPoint_of_idle (h : ClocksIdle s) (n ps : Nat) (d : Int) (first : Bool) :
    Keeps [(F.ENC_INTERVAL_VALUE, n), (F.ENC_STATUS_SPEED_VALID, n)] s (speedPoint s n ps d first)
    ∧ EncOnly s (speedPoint s n ps d first) ∧ (encAt (speedPoint s n ps d first) n).ssiField = (encAt s n).ssiField := by
  obtain ⟨k, x, y, told, heq, hk⟩ := speedPoint_shape s n ps d first
  have hkeep : Keeps [(F.ENC_INTERVAL_VALUE, n), (F.ENC_STATUS_SPEED_VALID, n)] s
      (wrBool (wr (setEnc s n k) F.ENC_INTERVAL_VALUE n x) F.ENC_STATUS_SPEED_VALID n y) := by
    rw [wrBool_eq]
    exact ((Keeps.refl _ (setEnc s n k)).wr _ _ _ (by simp)).wr _ _ _ (by simp)
  have hidle := h.touches (hkeep.touches (fs := [F.ENC_INTERVAL_VALUE, F.ENC_STATUS_SPEED_VALID]) rfl) (by decide)
  dsimp only at heq
  rw [fcgSpeedValid_of_idle hidle, ite_self] at heq
  rw [heq]
  refine ⟨hkeep, rfl, ?_⟩
  rw [← hk, wrBool_eq]
  exact congrArg Enc.ssiField (encAt_setEnc s n k)

/-! ### A position update -/

/-- The position as it stands after an update, with the frame stamps that still take it. -/
def posStamped (s : State) (n : Nat) (q : Int) (ps : Nat) : State :=
  mapFrames (wr s F.ENC_POS_VALUE n (fromSigned 64 q)) (fun f => (f.phase == .open || f.phase == .closed) && decide (ps ≤ f.tbFs * 1000))
    fun f => { f with encPos := f.encPos.set n (fromSigned 48 q) }

theorem posStamped_keeps (s : State) (n : Nat) (q : Int) (ps : Nat) : Keeps [(F.ENC_POS_VALUE, n)] s (posStamped s n q ps) :=
  ((Keeps.refl _ s).wr F.ENC_POS_VALUE n (fromSigned 64 q) (by simp)).of_regs rfl

theorem rd_posStamped (s : State) (n : Nat) (q : Int) (ps : Nat) :
    rd (posStamped s n q ps) F.ENC_POS_VALUE n = fromSigned 64 q := by
  have hlt : fromSigned 64 q < 2 ^ 64 := by unfold fromSigned; omega
  exact (rd_wr_same s F.ENC_POS_VALUE n _).trans (Nat.mod_eq_of_lt hlt)

/-- No armed compare unit follows channel n. -/
def UnitsQuiet (s : State) (n : Nat) : Prop := ∀ k, k < 16 → isSet s F.CMP_STATUS_ARMED k = true → rd s F.CMP_CFG_SRC k ≠ n

/-- No running pulse output follows channel n. -/
def OutputsQuiet (s : State) (n : Nat) : Prop := ∀ p, p < 2 → isSet s F.PO_STATUS_RUNNING p = true → rd s F.PO_CFG_SRC p ≠ n

/-- What no unit and no pulse output takes of a position update. -/
theorem OutputsQuiet.fold {counted : Bool} {d : Int} (h : OutputsQuiet s n) : [0, 1].foldl (fun s o =>
    if counted && isSet s F.PO_STATUS_RUNNING o && rd s F.PO_CFG_SRC o == n then poAccumulate s o d else s) s = s := by
  have hout (o : Nat) (ho : o < 2) : (counted && isSet s F.PO_STATUS_RUNNING o && rd s F.PO_CFG_SRC o == n) = false := by
    cases hr : isSet s F.PO_STATUS_RUNNING o with
    | false => rw [Bool.and_false, Bool.false_and]
    | true => rw [beq_false_of_ne (h o ho hr), Bool.and_false]
  rw [List.foldl_cons, hout 0 (by decide), if_neg Bool.false_ne_true, List.foldl_cons, hout 1 (by decide), if_neg Bool.false_ne_true]
  rfl

theorem posUpdate_quiet (hunits : UnitsQuiet s n) (houts : OutputsQuiet s n) (p q : Int) (ps : Nat) (counted : Bool) :
    posUpdate s n p q ps counted = posStamped s n q ps := by
  have hkeep := (posStamped_keeps s n q ps).touches (fs := [F.ENC_POS_VALUE]) rfl
  have hunits' (k : Nat) (hk : k < 16) :
      (isSet (posStamped s n q ps) F.CMP_STATUS_ARMED k && rd (posStamped s n q ps) F.CMP_CFG_SRC k == n) = false := by
    rw [isSet_congr (hkeep F.CMP_STATUS_ARMED k (by decide)), hkeep F.CMP_CFG_SRC k (by decide)]
    cases ha : isSet s F.CMP_STATUS_ARMED k with
    | false => rfl
    | true => exact beq_false_of_ne (hunits k hk ha)
  have houts' : OutputsQuiet (posStamped s n q ps) n := fun o ho hr => by
    rw [isSet_congr (hkeep F.PO_STATUS_RUNNING o (by decide))] at hr
    rw [hkeep F.PO_CFG_SRC o (by decide)]
    exact houts o ho hr
  have hfold : (List.range 16).foldl (fun s k => if isSet s F.CMP_STATUS_ARMED k && rd s F.CMP_CFG_SRC k == n
      then cmpUpdate s k ⟨p, q, ps / 1000, 0⟩ else s) (posStamped s n q ps) = posStamped s n q ps := by
    refine List.foldlRecOn (motive := fun t => t = posStamped s n q ps) (List.range 16) _ rfl fun t ht k hk => ?_
    rw [ht, hunits' k (List.mem_range.mp hk), if_neg Bool.false_ne_true]
  unfold posUpdate
  dsimp only
  rw [show mapFrames (Machine.wr s F.ENC_POS_VALUE n (fromSigned 64 q)) _ _ = posStamped s n q ps from rfl, hfold]
  exact houts'.fold

/-! ### A counted transition -/

/-- One count in the direction counted. -/
def oneCount (fwd : Bool) : Int := if fwd then 1 else -1

theorem spacingNoted_lost (s : State) (n ps : Nat) : isSet (spacingNoted s n ps) F.ENC_STATUS_LOST n = isSet s F.ENC_STATUS_LOST n :=
  isSet_congr ((spacingNoted_keeps s n ps).touches (fs := [F.ENC_OVERSPEED_COUNT, F.ENC_EVT_EVT]) rfl _ _ (by decide))

/-- A count of a channel that is not LOST marks the channel, takes its place in the speed average and moves the position. -/
theorem encCount_shape (hlost : isSet s F.ENC_STATUS_LOST n = false) (ps : Nat) (fwd z : Bool) : ∃ first : Bool,
    encCount s n ps fwd z = (let u := speedPoint (encMarked s n ps fwd z) n ps (oneCount fwd) first
      posUpdate u n (encPos u n) (encPos u n + oneCount fwd) ps true) := by
  have hl := spacingNoted_lost s n ps
  rw [hlost] at hl
  refine ⟨(encAt s n).moved && isSet (spacingNoted s n ps) F.ENC_STATUS_DIR n != fwd || false, ?_⟩
  unfold encCount
  dsimp only
  rw [show (if (encAt s n).lastPs.any (fun l => ps - l < 25000) = true then encEvt (bump s F.ENC_OVERSPEED_COUNT n) n 1 else s)
    = spacingNoted s n ps from rfl, hl, if_neg Bool.false_ne_true]
  rfl

/-- The state in which a count moves the position: what the count and the speed average have written until then. -/
theorem speedPoint_marked (hidle : ClocksIdle s) (ps : Nat) (fwd z first : Bool) :
    let u := speedPoint (encMarked s n ps fwd z) n ps (oneCount fwd) first
    Keeps [(F.ENC_OVERSPEED_COUNT, n), (F.ENC_EVT_EVT, n), (F.ENC_STATUS_DIR, n), (F.ENC_LAST_TB_VALUE, n),
      (F.ENC_INTERVAL_VALUE, n), (F.ENC_STATUS_SPEED_VALID, n)] s u
    ∧ isSet u F.ENC_STATUS_DIR n = fwd ∧ rd u F.ENC_LAST_TB_VALUE n = ps / 1000 % 2 ^ 64 ∧ EncOnly s u := by
  have hmark := encMarked_keeps s n ps fwd z
  have hidle' := hidle.touches (hmark.touches (fs := [F.ENC_OVERSPEED_COUNT, F.ENC_EVT_EVT, F.ENC_STATUS_DIR, F.ENC_LAST_TB_VALUE]) rfl)
    (by decide)
  obtain ⟨hkeep, honly, -⟩ := speedPoint_of_idle hidle' n ps (oneCount fwd) first
  have ht := hkeep.touches (fs := [F.ENC_INTERVAL_VALUE, F.ENC_STATUS_SPEED_VALID]) rfl
  refine ⟨(hmark.mono (by simp)).trans (hkeep.mono (by simp)), ?_, ?_, (encMarked_encOnly s n ps fwd z).trans honly⟩
  · rw [isSet_congr (ht F.ENC_STATUS_DIR n (by decide)), rd_encMarked_dir]
  · rw [ht F.ENC_LAST_TB_VALUE n (by decide), rd_encMarked_lastTb]

theorem encCount_quiet (hidle : ClocksIdle s) (hunits : UnitsQuiet s n) (houts : OutputsQuiet s n)
    (hlost : isSet s F.ENC_STATUS_LOST n = false) (ps : Nat) (fwd z : Bool) :
    rd (encCount s n ps fwd z) F.ENC_POS_VALUE n = fromSigned 64 (encPos s n + oneCount fwd)
    ∧ isSet (encCount s n ps fwd z) F.ENC_STATUS_DIR n = fwd
    ∧ rd (encCount s n ps fwd z) F.ENC_LAST_TB_VALUE n = ps / 1000 % 2 ^ 64
    ∧ Keeps [(F.ENC_POS_VALUE, n), (F.ENC_STATUS_DIR, n), (F.ENC_LAST_TB_VALUE, n), (F.ENC_OVERSPEED_COUNT, n), (F.ENC_EVT_EVT, n),
        (F.ENC_INTERVAL_VALUE, n), (F.ENC_STATUS_SPEED_VALID, n)] s (encCount s n ps fwd z) := by
  obtain ⟨first, heq⟩ := encCount_shape hlost ps fwd z
  obtain ⟨hkeep, hdir, htb, -⟩ := speedPoint_marked (n := n) hidle ps fwd z first
  rw [heq]
  generalize speedPoint (encMarked s n ps fwd z) n ps (oneCount fwd) first = u at *
  have ht := hkeep.touches (fs := [F.ENC_OVERSPEED_COUNT, F.ENC_EVT_EVT, F.ENC_STATUS_DIR, F.ENC_LAST_TB_VALUE,
    F.ENC_INTERVAL_VALUE, F.ENC_STATUS_SPEED_VALID]) rfl
  have hpos : encPos u n = encPos s n := congrArg (toSigned 64) (ht F.ENC_POS_VALUE n (by decide))
  have hunits' : UnitsQuiet u n := fun k hk hr => by
    rw [isSet_congr (ht F.CMP_STATUS_ARMED k (by decide))] at hr
    rw [ht F.CMP_CFG_SRC k (by decide)]; exact hunits k hk hr
  have houts' : OutputsQuiet u n := fun k hk hr => by
    rw [isSet_congr (ht F.PO_STATUS_RUNNING k (by decide))] at hr
    rw [ht F.PO_CFG_SRC k (by decide)]; exact houts k hk hr
  dsimp only
  rw [posUpdate_quiet hunits' houts', hpos]
  have hstamp := posStamped_keeps u n (encPos s n + oneCount fwd) ps
  have hst := hstamp.touches (fs := [F.ENC_POS_VALUE]) rfl
  refine ⟨rd_posStamped .., ?_, ?_, (hkeep.mono (by simp)).trans (hstamp.mono (by simp))⟩
  · rw [isSet_congr (hst F.ENC_STATUS_DIR n (by decide)), hdir]
  · rw [hst F.ENC_LAST_TB_VALUE n (by decide), htb]

/-- The transition of A alone or of B alone that an x4 channel's filter accepts, its index input steady, counts once. -/
theorem encEdge_counts {a b z : Bool} {ps held : Nat} (hmode : rd s F.ENC_CFG_MODE n = 1) (hdom : domUp s 22 = true)
    (hheld : rd s F.ENC_CFG_FILTER_N n ≤ held) (hps : ps + (rd s F.ENC_CFG_FILTER_N n - 1) * 2500 ≤ s.tb * 1000)
    (hone : (hasBit s F.ENC_STATUS_ABZ n 0 != a) ≠ (hasBit s F.ENC_STATUS_ABZ n 1 != b)) (hz : hasBit s F.ENC_STATUS_ABZ n 2 = z) :
    ∃ x, encEdge s n a b z ps held = encCount (wr s F.ENC_STATUS_ABZ n (a.toNat + 2 * b.toNat + 4 * z.toNat)) n ps
      ((if hasBit s F.ENC_STATUS_ABZ n 0 != a then a != b else a == b) != isSet s F.ENC_CFG_INVERT_DIR n) x := by
  have hacc : filterAccepts s n ps held = true := by
    unfold filterAccepts
    simp only [Bool.and_eq_true, decide_eq_true_eq]
    omega
  have hinv : isSet (wr s F.ENC_STATUS_ABZ n (a.toNat + 2 * b.toNat + 4 * z.toNat)) F.ENC_CFG_INVERT_DIR n
      = isSet s F.ENC_CFG_INVERT_DIR n := isSet_congr (rd_wr_field _ _ _ _ _ _ (by decide))
  refine ⟨z != isSet s F.ENC_CFG_Z_POL n, ?_⟩
  unfold encEdge
  dsimp only
  rw [hmode, hdom, hacc]
  unfold hasBit at *
  rw [hz, hinv, bne_self_eq_false, Bool.false_and, Bool.false_and]
  cases ha : ((rd s F.ENC_STATUS_ABZ n).testBit 0 != a) <;> cases hb : ((rd s F.ENC_STATUS_ABZ n).testBit 1 != b)
  · rw [ha, hb] at hone; exact absurd rfl hone
  · rfl
  · rfl
  · rw [ha, hb] at hone; exact absurd rfl hone

theorem answers_encEdge {a b z : Bool} {ps held : Nat} (hn : n < 4) (hworks : blockWorks s 6 = true) (hidle : ClocksIdle s)
    (hunits : UnitsQuiet s n) (houts : OutputsQuiet s n) (hlost : isSet s F.ENC_STATUS_LOST n = false)
    (hmode : rd s F.ENC_CFG_MODE n = 1) (hdom : domUp s 22 = true)
    (hheld : rd s F.ENC_CFG_FILTER_N n ≤ held) (hps : ps + (rd s F.ENC_CFG_FILTER_N n - 1) * 2500 ≤ s.tb * 1000)
    (hone : (hasBit s F.ENC_STATUS_ABZ n 0 != a) ≠ (hasBit s F.ENC_STATUS_ABZ n 1 != b)) (hz : hasBit s F.ENC_STATUS_ABZ n 2 = z) :
    let up := (if hasBit s F.ENC_STATUS_ABZ n 0 != a then a != b else a == b) != isSet s F.ENC_CFG_INVERT_DIR n
    Answers (exec (.encEdge n a b z ps held) s) fun t =>
          rd t F.ENC_POS_VALUE n = fromSigned 64 (encPos s n + if up then 1 else -1)
          ∧ isSet t F.ENC_STATUS_DIR n = up ∧ rd t F.ENC_LAST_TB_VALUE n = ps / 1000 % 2 ^ 64
          ∧ rd t F.ENC_STATUS_ABZ n = a.toNat + 2 * b.toNat + 4 * z.toNat
          ∧ Keeps [(F.ENC_POS_VALUE, n), (F.ENC_STATUS_DIR, n), (F.ENC_LAST_TB_VALUE, n), (F.ENC_STATUS_ABZ, n),
              (F.ENC_OVERSPEED_COUNT, n), (F.ENC_EVT_EVT, n), (F.ENC_INTERVAL_VALUE, n), (F.ENC_STATUS_SPEED_VALID, n)] s t := by
  intro up
  obtain ⟨x, heq⟩ := encEdge_counts hmode hdom hheld hps hone hz
  refine answers_onBlock hn hworks fun t ht => ?_
  rw [heq] at ht
  have habz : rd (wr s F.ENC_STATUS_ABZ n (a.toNat + 2 * b.toNat + 4 * z.toNat)) F.ENC_STATUS_ABZ n
      = a.toNat + 2 * b.toNat + 4 * z.toNat := by
    rw [rd_wr_same]
    cases a <;> cases b <;> cases z <;> rfl
  have hkeep : Keeps [(F.ENC_STATUS_ABZ, n)] s (wr s F.ENC_STATUS_ABZ n (a.toNat + 2 * b.toNat + 4 * z.toNat)) :=
    (Keeps.refl _ s).wr _ _ _ (by simp)
  generalize wr s F.ENC_STATUS_ABZ n (a.toNat + 2 * b.toNat + 4 * z.toNat) = w at *
  have hw := hkeep.touches (fs := [F.ENC_STATUS_ABZ]) rfl
  obtain ⟨hpos, hdir, htb, hk⟩ := encCount_quiet (hidle.touches hw (by decide))
    (fun k hk hr => by
      rw [isSet_congr (hw F.CMP_STATUS_ARMED k (by decide))] at hr
      rw [hw F.CMP_CFG_SRC k (by decide)]; exact hunits k hk hr)
    (fun k hk hr => by
      rw [isSet_congr (hw F.PO_STATUS_RUNNING k (by decide))] at hr
      rw [hw F.PO_CFG_SRC k (by decide)]; exact houts k hk hr)
    ((isSet_congr (hw F.ENC_STATUS_LOST n (by decide))).trans hlost) ps up x
  refine ⟨?_, ?_, (ht.rd _ _).trans htb, ?_, ht.keeps ((hkeep.mono (by simp)).trans (hk.mono (by simp)))⟩
  · rw [ht.rd, hpos, show encPos w n = encPos s n from congrArg (toSigned 64) (hw F.ENC_POS_VALUE n (by decide))]
    rfl
  · rw [isSet_congr (ht.rd _ _), hdir]
  · rw [ht.rd, ← habz]
    exact hk _ _ (by simp [key_eq_iff]; decide)

/-! ### Serial words -/

variable {word t0 : Nat}

/-- A word that ends between two grid points. -/
def ssiEnded (s : State) (n word : Nat) : State :=
  wr (wr (setEnc s n { encAt s n with ssiT0 := none, ssiWait := none }) F.ENC_STATUS_SSI_BUSY n 0) F.ENC_SSI_RAW_WORD n
    (word % 2 ^ rd s F.ENC_SSI_FRAME_WLEN n)

theorem ssiEnd_of_before (h : s.ns < (encAt s n).ssiGrid) : ssiEnd s n word = ssiEnded s n word := by
  have hskip : ssiSkip s n = s := if_pos h
  unfold ssiEnd
  dsimp only
  rw [hskip, rd_wr_field _ _ _ _ _ _ (by decide), rd_setEnc]
  rfl

theorem ssiEnded_keeps (s : State) (n word : Nat) :
    Keeps [(F.ENC_STATUS_SSI_BUSY, n), (F.ENC_SSI_RAW_WORD, n)] s (ssiEnded s n word) :=
  ((Keeps.refl _ (setEnc s n _)).wr _ _ _ (by simp)).wr _ _ _ (by simp)

theorem ssiEnded_touches (s : State) (n word : Nat) : Touches [F.ENC_STATUS_SSI_BUSY, F.ENC_SSI_RAW_WORD] s (ssiEnded s n word) :=
  (ssiEnded_keeps s n word).touches rfl

theorem rd_ssiEnded_busy (s : State) (n word : Nat) : rd (ssiEnded s n word) F.ENC_STATUS_SSI_BUSY n = 0 := by
  unfold ssiEnded
  rw [rd_wr_field _ _ _ _ _ _ (by decide), rd_wr_same]; rfl

theorem rd_ssiEnded_raw (s : State) (n word : Nat) :
    rd (ssiEnded s n word) F.ENC_SSI_RAW_WORD n = word % 2 ^ rd s F.ENC_SSI_FRAME_WLEN n := by
  have hw : rd s F.ENC_SSI_FRAME_WLEN n < 2 ^ 6 := rd_lt ..
  have hlt : word % 2 ^ rd s F.ENC_SSI_FRAME_WLEN n < 2 ^ 64 :=
    (Nat.mod_lt _ (Nat.two_pow_pos _)).trans (Nat.pow_lt_pow_right (by decide) hw)
  exact (rd_wr_same ..).trans (Nat.mod_eq_of_lt hlt)

theorem encAt_ssiEnded (s : State) (n word : Nat) : encAt (ssiEnded s n word) n = { encAt s n with ssiT0 := none, ssiWait := none } :=
  encAt_setEnc ..

/-- Whether a word's CRC holds rests on the channel's registers alone. -/
theorem ssiCrcOk_touches {fs : List Field} (h : Touches fs s t) (hfs : ∀ f ∈ [F.ENC_SSI_CRC_LEN, F.ENC_SSI_FRAME_WLEN, F.ENC_SSI_CRC_POLY,
    F.ENC_SSI_CRC_INIT_INIT, F.ENC_SSI_CRC_INIT_XOROUT], ∀ g ∈ fs, g.fid % 1024 ≠ f.fid % 1024) :
    ssiCrcOk t n word = ssiCrcOk s n word := by
  unfold ssiCrcOk
  rw [h _ n (hfs F.ENC_SSI_CRC_LEN (by simp)), h _ n (hfs F.ENC_SSI_FRAME_WLEN (by simp)), h _ n (hfs F.ENC_SSI_CRC_POLY (by simp)),
    h _ n (hfs F.ENC_SSI_CRC_INIT_INIT (by simp)), h _ n (hfs F.ENC_SSI_CRC_INIT_XOROUT (by simp))]

theorem ssiActive_of_off {en : Field} (h : isSet s en n = false) (bit low : Field) : ssiActive s n word en bit low = false := by
  unfold ssiActive; rw [h, Bool.false_and]

/-- What a word in progress decodes to once its data line is back: a valid position or a CRC error. -/
theorem ssiWord_decodes (hrun : ssiRuns s n = true) (hbusy : isSet s F.ENC_STATUS_SSI_BUSY n = true)
    (hns : s.ns < (encAt s n).ssiGrid) (ht0 : (encAt s n).ssiT0 = some t0) (hedge : ssiLastEdge s n t0 ≤ 2 * s.tb)
    (herr : isSet s F.ENC_SSI_STAT_ERR_EN n = false) (hwarn : isSet s F.ENC_SSI_STAT_WARN_EN n = false)
    (hgray : isSet s F.ENC_SSI_FRAME_GRAY n = false) : ssiWord s n word = (if ssiCrcOk s n word = true
      then ssiValid (ssiEnded s n word) n (bitsOf word (rd s F.ENC_SSI_FRAME_POS_LSB n) (rd s F.ENC_SSI_FRAME_POS_BITS n)) t0 false
      else ssiInvalid (ssiEnded s n word) n F.ENC_SSI_CRC_CNT_COUNT) := by
  have ht := ssiEnded_touches s n word
  have hpos : ssiPosition (ssiEnded s n word) n word =
      bitsOf word (rd s F.ENC_SSI_FRAME_POS_LSB n) (rd s F.ENC_SSI_FRAME_POS_BITS n) := by
    unfold ssiPosition
    dsimp only
    rw [(isSet_congr (ht F.ENC_SSI_FRAME_GRAY n (by decide))).trans hgray, if_neg Bool.false_ne_true,
      ht F.ENC_SSI_FRAME_POS_LSB n (by decide), ht F.ENC_SSI_FRAME_POS_BITS n (by decide)]
  unfold ssiWord
  dsimp only
  rw [hrun, hbusy, ht0, ssiEnd_of_before hns, ssiCrcOk_touches ht (by decide), hpos,
    ssiActive_of_off ((isSet_congr (ht F.ENC_SSI_STAT_ERR_EN n (by decide))).trans herr),
    ssiActive_of_off ((isSet_congr (ht F.ENC_SSI_STAT_WARN_EN n (by decide))).trans hwarn)]
  rw [if_neg (by simpa using hedge)]
  cases ssiCrcOk s n word <;> rfl

/-- An invalid word is counted and reported, and raises the channel's fault producer. -/
theorem ssiInvalid_touches (s : State) (n : Nat) (f : Field) :
    Touches (f :: F.ENC_EVT_EVT :: beaconFields) s (ssiInvalid s n f) := by
  have h : Touches [f, F.ENC_EVT_EVT] (setEnc s n { encAt s n with bad := true })
      (encEvt (bump (setEnc s n { encAt s n with bad := true }) f n) n 8) :=
    (Touches.refl.wr _ _ _ (by simp)).wr _ _ _ (by simp)
  exact ((Touches.of_regs rfl : Touches _ s (setEnc s n _)).trans (h.mono (by simp))).trans
    ((fireProducer_touches _ _).mono (by simp +contextual))

/-- An invalid word sets the event and counts once in its counter. -/
theorem ssiInvalid_counts (s : State) (n : Nat) {f : Field} (hevt : F.ENC_EVT_EVT.fid % 1024 ≠ f.fid % 1024)
    (hbcn : ∀ g ∈ beaconFields, g.fid % 1024 ≠ f.fid % 1024) :
    hasBit (ssiInvalid s n f) F.ENC_EVT_EVT n 8 = true ∧ rd (ssiInvalid s n f) f n = min (rd s f n + 1) (2 ^ f.width - 1) := by
  have hfire := fireProducer_touches (encEvt (bump (setEnc s n { encAt s n with bad := true }) f n) n 8) (24 + n)
  refine ⟨?_, ?_⟩
  · unfold ssiInvalid hasBit
    rw [hfire _ _ (by decide)]
    exact hasBit_setBit _ _ _ _ (by decide)
  · refine (hfire _ _ hbcn).trans ?_
    rw [encEvt, setBit_eq, rd_wr_field _ _ _ _ _ _ hevt, rd_bump]
    rfl

theorem ssiInvalid_encAt (s : State) (n : Nat) (f : Field) : encAt (ssiInvalid s n f) n = { encAt s n with bad := true } := by
  have h : (ssiInvalid s n f).enc = (setEnc s n { encAt s n with bad := true }).enc := by
    have e := congrArg State.enc
      (fireProducer_firesOnly (encEvt (bump (setEnc s n { encAt s n with bad := true }) f n) n 8) (24 + n))
    exact e
  unfold encAt at *
  rw [h]
  exact encAt_setEnc s n _

/-- By how much a valid word moves the position: the signed difference of the position fields, none at the first. -/
def ssiMoved (s : State) (n v : Nat) : Int :=
  match (encAt s n).ssiField with
  | some old => toSigned (rd s F.ENC_SSI_FRAME_POS_BITS n) (fromSigned (rd s F.ENC_SSI_FRAME_POS_BITS n) ((v : Int) - old))
  | none => 0

/-- Where a valid word puts the position: at its field the first time, later on by the difference. -/
def ssiTarget (s : State) (n v : Nat) : Int := if (encAt s n).ssiField.isSome then encPos s n + ssiMoved s n v else v

/-- A valid word up to its place in the speed average, on a channel that is neither LOST nor FROZEN. -/
def ssiMarked (s : State) (n v t0 : Nat) : State :=
  let k := encAt s n
  let d := ssiMoved s n v
  let w := noteWindow (wrBool s F.ENC_STATUS_SSI_WARN n false) n (t0 * 1000)
  let w := setEnc w n { encAt w n with
    bad := false, moved := k.moved || d ≠ 0, ssiField := some v, ssiSame := if k.ssiField == some v then k.ssiSame + 1 else 1 }
  wr (if 0 < d then wr w F.ENC_STATUS_DIR n 1 else if d < 0 then wr w F.ENC_STATUS_DIR n 0 else w) F.ENC_LAST_TB_VALUE n t0

theorem ssiMarked_touches (s : State) (n v t0 : Nat) :
    Touches [F.ENC_STATUS_SSI_WARN, F.ENC_STATUS_DIR, F.ENC_LAST_TB_VALUE] s (ssiMarked s n v t0) := by
  have hw : Touches [F.ENC_STATUS_SSI_WARN, F.ENC_STATUS_DIR, F.ENC_LAST_TB_VALUE] s
      (noteWindow (wrBool s F.ENC_STATUS_SSI_WARN n false) n (t0 * 1000)) := by
    rw [wrBool_eq]
    exact (Touches.refl.wr _ _ _ (by simp)).trans (.of_regs (noteWindow_regs _ _ _))
  unfold ssiMarked
  dsimp only
  refine Touches.wr ?_ _ _ _ (by simp)
  refine Touches.ite (Touches.wr ?_ _ _ _ (by simp)) (Touches.ite (Touches.wr ?_ _ _ _ (by simp)) ?_) <;>
    exact hw.trans (.of_regs rfl)

theorem encAt_ssiMarked (s : State) (n v t0 : Nat) : (encAt (ssiMarked s n v t0) n).ssiField = some v := by
  unfold ssiMarked
  dsimp only
  split
  · exact congrArg Enc.ssiField (encAt_setEnc _ n _)
  split
  · exact congrArg Enc.ssiField (encAt_setEnc _ n _)
  · exact congrArg Enc.ssiField (encAt_setEnc _ n _)

theorem ssiValid_shape (hlost : isSet s F.ENC_STATUS_LOST n = false) (hfrozen : isSet s F.ENC_STATUS_FROZEN n = false) (v t0 : Nat) :
    ∃ first : Bool, ssiValid s n v t0 false = checkFrozen (posUpdate (speedPoint (ssiMarked s n v t0) n (t0 * 1000) (ssiMoved s n v) first)
      n (encPos s n) (ssiTarget s n v) (t0 * 1000) (encAt s n).ssiField.isSome) n := by
  have hw (f : Field) (h : F.ENC_STATUS_SSI_WARN.fid % 1024 ≠ f.fid % 1024) : rd (wr s F.ENC_STATUS_SSI_WARN n 0) f n = rd s f n :=
    rd_wr_field _ _ _ _ _ _ h
  have hl := (isSet_congr (hw F.ENC_STATUS_LOST (by decide))).trans hlost
  have hf := (isSet_congr (hw F.ENC_STATUS_FROZEN (by decide))).trans hfrozen
  have hp : encPos (wr s F.ENC_STATUS_SSI_WARN n 0) n = encPos s n := congrArg (toSigned 64) (hw F.ENC_POS_VALUE (by decide))
  unfold ssiValid
  dsimp only
  rw [if_neg Bool.false_ne_true, wrBool_eq, show (if false = true then 1 else 0) = 0 from rfl, hl, hf, hp, Bool.false_and, Bool.or_false,
    if_neg Bool.false_ne_true]
  exact ⟨_, rfl⟩


theorem checkFrozen_of_off (h : isSet s F.ENC_MEAS_CFG_FROZEN_EN n = false) : checkFrozen s n = s := by
  unfold checkFrozen checkArmed
  rw [h, Bool.and_false, Bool.false_and, Bool.and_false, Bool.false_and, Bool.false_and]
  exact if_neg Bool.false_ne_true

/-- A valid word puts the position where its field says and keeps the field. -/
theorem ssiValid_quiet (hidle : ClocksIdle s) (hunits : UnitsQuiet s n) (houts : OutputsQuiet s n)
    (hlost : isSet s F.ENC_STATUS_LOST n = false) (hfrozen : isSet s F.ENC_STATUS_FROZEN n = false)
    (hoff : isSet s F.ENC_MEAS_CFG_FROZEN_EN n = false) (v t0 : Nat) :
    rd (ssiValid s n v t0 false) F.ENC_POS_VALUE n = fromSigned 64 (ssiTarget s n v)
    ∧ (encAt (ssiValid s n v t0 false) n).ssiField = some v
    ∧ Touches [F.ENC_STATUS_SSI_WARN, F.ENC_STATUS_DIR, F.ENC_LAST_TB_VALUE, F.ENC_INTERVAL_VALUE, F.ENC_STATUS_SPEED_VALID,
        F.ENC_POS_VALUE] s (ssiValid s n v t0 false) := by
  obtain ⟨first, heq⟩ := ssiValid_shape hlost hfrozen v t0
  have hmark := ssiMarked_touches s n v t0
  obtain ⟨hkeep, -, hfield⟩ := speedPoint_of_idle (hidle.touches hmark (by decide)) n (t0 * 1000) (ssiMoved s n v) first
  rw [encAt_ssiMarked] at hfield
  have ht : Touches [F.ENC_STATUS_SSI_WARN, F.ENC_STATUS_DIR, F.ENC_LAST_TB_VALUE, F.ENC_INTERVAL_VALUE, F.ENC_STATUS_SPEED_VALID] s
      (speedPoint (ssiMarked s n v t0) n (t0 * 1000) (ssiMoved s n v) first) :=
    (hmark.mono (by simp)).trans ((hkeep.touches (fs := [F.ENC_INTERVAL_VALUE, F.ENC_STATUS_SPEED_VALID]) rfl).mono (by simp))
  rw [heq]
  generalize speedPoint (ssiMarked s n v t0) n (t0 * 1000) (ssiMoved s n v) first = u at *
  have hunits' : UnitsQuiet u n := fun k hk hr => by
    rw [isSet_congr (ht F.CMP_STATUS_ARMED k (by decide))] at hr
    rw [ht F.CMP_CFG_SRC k (by decide)]; exact hunits k hk hr
  have houts' : OutputsQuiet u n := fun k hk hr => by
    rw [isSet_congr (ht F.PO_STATUS_RUNNING k (by decide))] at hr
    rw [ht F.PO_CFG_SRC k (by decide)]; exact houts k hk hr
  have hst := (posStamped_keeps u n (ssiTarget s n v) (t0 * 1000)).touches (fs := [F.ENC_POS_VALUE]) rfl
  rw [posUpdate_quiet hunits' houts', checkFrozen_of_off
    (((isSet_congr (hst F.ENC_MEAS_CFG_FROZEN_EN n (by decide))).trans (isSet_congr (ht F.ENC_MEAS_CFG_FROZEN_EN n (by decide)))).trans hoff)]
  exact ⟨rd_posStamped .., hfield, (ht.mono (by simp)).trans (hst.mono (by simp))⟩

theorem answers_ssiWord (hn : n < 4) (hworks : blockWorks s 6 = true) (hidle : ClocksIdle s)
    (hunits : UnitsQuiet s n) (houts : OutputsQuiet s n) (hrun : ssiRuns s n = true) (hbusy : isSet s F.ENC_STATUS_SSI_BUSY n = true)
    (hns : s.ns < (encAt s n).ssiGrid) (ht0 : (encAt s n).ssiT0 = some t0) (hedge : ssiLastEdge s n t0 ≤ 2 * s.tb)
    (hlost : isSet s F.ENC_STATUS_LOST n = false) (hfrozen : isSet s F.ENC_STATUS_FROZEN n = false)
    (hoff : isSet s F.ENC_MEAS_CFG_FROZEN_EN n = false) (herr : isSet s F.ENC_SSI_STAT_ERR_EN n = false)
    (hwarn : isSet s F.ENC_SSI_STAT_WARN_EN n = false) (hgray : isSet s F.ENC_SSI_FRAME_GRAY n = false)
    (hcrc : ssiCrcOk s n word = true) :
    let w := rd s F.ENC_SSI_FRAME_POS_BITS n
    let v := word / 2 ^ rd s F.ENC_SSI_FRAME_POS_LSB n % 2 ^ w
    Answers (exec (.ssiWord n word) s) fun t =>
          rd t F.ENC_STATUS_SSI_BUSY n = 0 ∧ rd t F.ENC_SSI_RAW_WORD n = word % 2 ^ rd s F.ENC_SSI_FRAME_WLEN n
          ∧ (encAt t n).ssiField = some v
          ∧ rd t F.ENC_POS_VALUE n = (match (encAt s n).ssiField with
            | none => v % 2 ^ 64
            | some old => fromSigned 64 (encPos s n + toSigned w (fromSigned w ((v : Int) - old)))) := by
  intro w v
  have hword := ssiWord_decodes (word := word) hrun hbusy hns ht0 hedge herr hwarn hgray
  rw [if_pos hcrc] at hword
  refine answers_onBlock hn hworks fun t ht => ?_
  rw [hword] at ht
  have hend := ssiEnded_touches s n word
  obtain ⟨hpos, hfield, htv⟩ := ssiValid_quiet (s := ssiEnded s n word) (hidle.touches hend (by decide))
    (fun k hk hr => by
      rw [isSet_congr (hend F.CMP_STATUS_ARMED k (by decide))] at hr
      rw [hend F.CMP_CFG_SRC k (by decide)]; exact hunits k hk hr)
    (fun k hk hr => by
      rw [isSet_congr (hend F.PO_STATUS_RUNNING k (by decide))] at hr
      rw [hend F.PO_CFG_SRC k (by decide)]; exact houts k hk hr)
    ((isSet_congr (hend F.ENC_STATUS_LOST n (by decide))).trans hlost)
    ((isSet_congr (hend F.ENC_STATUS_FROZEN n (by decide))).trans hfrozen)
    ((isSet_congr (hend F.ENC_MEAS_CFG_FROZEN_EN n (by decide))).trans hoff) v t0
  refine ⟨?_, ?_, ?_, ?_⟩
  · rw [ht.rd]; exact (htv _ _ (by decide)).trans (rd_ssiEnded_busy s n word)
  · rw [ht.rd]; exact (htv _ _ (by decide)).trans (rd_ssiEnded_raw s n word)
  · rw [ht.encAt]; exact hfield
  · rw [ht.rd]
    refine hpos.trans ?_
    unfold ssiTarget ssiMoved
    rw [encAt_ssiEnded, hend F.ENC_SSI_FRAME_POS_BITS n (by decide),
      show encPos (ssiEnded s n word) n = encPos s n from congrArg (toSigned 64) (hend F.ENC_POS_VALUE n (by decide))]
    dsimp only
    cases (encAt s n).ssiField with
    | none => exact fromSigned_nat 64 v
    | some old => rfl

theorem answers_ssiWord_wrong (hn : n < 4) (hworks : blockWorks s 6 = true) (hrun : ssiRuns s n = true)
    (hbusy : isSet s F.ENC_STATUS_SSI_BUSY n = true)
    (hns : s.ns < (encAt s n).ssiGrid) (ht0 : (encAt s n).ssiT0 = some t0) (hedge : ssiLastEdge s n t0 ≤ 2 * s.tb)
    (herr : isSet s F.ENC_SSI_STAT_ERR_EN n = false) (hwarn : isSet s F.ENC_SSI_STAT_WARN_EN n = false)
    (hgray : isSet s F.ENC_SSI_FRAME_GRAY n = false) (hcrc : ssiCrcOk s n word = false) :
    Answers (exec (.ssiWord n word) s) fun t =>
          rd t F.ENC_STATUS_SSI_BUSY n = 0 ∧ rd t F.ENC_POS_VALUE n = rd s F.ENC_POS_VALUE n
          ∧ hasBit t F.ENC_EVT_EVT n 8 = true
          ∧ rd t F.ENC_SSI_CRC_CNT_COUNT n = min (rd s F.ENC_SSI_CRC_CNT_COUNT n + 1) (2 ^ F.ENC_SSI_CRC_CNT_COUNT.width - 1) := by
  have hword := ssiWord_decodes (word := word) hrun hbusy hns ht0 hedge herr hwarn hgray
  rw [if_neg (by rw [hcrc]; exact Bool.false_ne_true)] at hword
  refine answers_onBlock hn hworks fun t ht => ?_
  rw [hword] at ht
  have hend := ssiEnded_touches s n word
  have hinv := ssiInvalid_touches (ssiEnded s n word) n F.ENC_SSI_CRC_CNT_COUNT
  obtain ⟨hevt, hcount⟩ := ssiInvalid_counts (ssiEnded s n word) n (f := F.ENC_SSI_CRC_CNT_COUNT) (by decide) (by decide)
  refine ⟨?_, ?_, (ht.hasBit ..).trans hevt, ?_⟩
  · rw [ht.rd]; exact (hinv _ _ (by decide)).trans (rd_ssiEnded_busy s n word)
  · rw [ht.rd]; exact (hinv _ _ (by decide)).trans (hend _ _ (by decide))
  · rw [ht.rd, hcount, hend _ _ (by decide)]

/-! ### The channel's checks and commands -/

theorem answers_encLost (hn : n < 4) (hworks : blockWorks s 6 = true) (hidle : ClocksIdle s)
    (hmode : rd s F.ENC_CFG_MODE n ≠ 0) (hlost : isSet s F.ENC_STATUS_LOST n = false)
    (harmed : checkArmed s n F.ENC_MEAS_CFG_LOST_EN = true) (hdue : lostDue s n = true) : Answers (exec (.encLost n) s) fun t =>
          rd t F.ENC_STATUS_LOST n = 1 ∧ hasBit t F.ENC_EVT_EVT n 4 = true
          ∧ rd t F.ENC_LOST_CNT_COUNT n = min (rd s F.ENC_LOST_CNT_COUNT n + 1) (2 ^ F.ENC_LOST_CNT_COUNT.width - 1)
          ∧ rd t F.ENC_POS_VALUE n = rd s F.ENC_POS_VALUE n := by
  let w : State := bump (encEvt (wr (setEnc s n { encAt s n with lostWin := none }) F.ENC_STATUS_LOST n 1) n 4) F.ENC_LOST_CNT_COUNT n
  have hw : Touches [F.ENC_STATUS_LOST, F.ENC_EVT_EVT, F.ENC_LOST_CNT_COUNT] s w :=
    (((Touches.of_regs rfl : Touches _ s (setEnc s n { encAt s n with lostWin := none })).wr _ _ _ (by simp)).wr _ _ _ (by simp)).wr _ _ _
      (by simp)
  have hfire : Touches beaconFields w (fireProducer w (24 + n)) := fireProducer_touches w _
  have heq : encLost s n = fireProducer w (24 + n) := by
    unfold encLost
    dsimp only
    rw [hlost, harmed, hdue, if_neg (by simpa using hmode)]
    exact fcgLost_of_idle ((hidle.touches hw (by decide)).touches hfire (by decide)) n
  refine answers_onBlock hn hworks fun t ht => ?_
  rw [heq] at ht
  refine ⟨?_, ?_, ?_, ?_⟩
  · rw [ht.rd, hfire _ _ (by decide)]
    simp (disch := decide) only [w, encEvt, setBit_eq, bump_eq, rd_wr_field, rd_wr_same]
    rfl
  · rw [ht.hasBit]
    unfold hasBit
    rw [hfire _ _ (by decide), show rd w F.ENC_EVT_EVT n = rd (encEvt (wr (setEnc s n { encAt s n with lostWin := none })
      F.ENC_STATUS_LOST n 1) n 4) F.ENC_EVT_EVT n from rd_wr_field _ _ _ _ _ _ (by decide)]
    exact hasBit_setBit _ _ _ _ (by decide)
  · rw [ht.rd, hfire _ _ (by decide), show rd w F.ENC_LOST_CNT_COUNT n = _ from rd_bump ..]
    simp (disch := decide) only [encEvt, setBit_eq, rd_wr_field, rd_setEnc]
  · rw [ht.rd, hfire _ _ (by decide), hw _ _ (by decide)]

theorem answers_loadPreset (hn : n < 4) (hworks : blockWorks s 6 = true) : Answers (exec (.loadPreset n) s) fun t =>
      rd t F.ENC_POS_VALUE n = rd s F.ENC_PRESET_VALUE n ∧ rd t F.ENC_STATUS_IDX_REF n = 0
      ∧ encAt t n = { encAt s n with idxRef := none }
      ∧ Keeps [(F.ENC_POS_VALUE, n), (F.ENC_STATUS_IDX_REF, n)] s t ∧ Settled { s with regs := t.regs, enc := t.enc } t := by
  refine answers_onBlock hn hworks fun t ht => ⟨?_, ?_, ?_, ht.keeps ?_, ?_⟩
  · rw [ht.rd, loadPreset, rd_setEnc, rd_wr_field _ _ _ _ _ _ (by decide), rd_wr_same]
    exact rd_mod s F.ENC_PRESET_VALUE n
  · rw [ht.rd, loadPreset, rd_setEnc, rd_wr_same]; rfl
  · rw [ht.encAt]; exact encAt_setEnc ..
  · exact (((Keeps.refl _ s).wr F.ENC_POS_VALUE n (rd s F.ENC_PRESET_VALUE n) (by simp)).wr F.ENC_STATUS_IDX_REF n 0 (by simp)).of_regs rfl
  · exact EncOnly.settled (s := s) (u := loadPreset s n) rfl ht

theorem answers_restartSpeed (hn : n < 4) (hworks : blockWorks s 6 = true) : Answers (exec (.restartSpeed n) s) fun t =>
      rd t F.ENC_INTERVAL_VALUE n = 0 ∧ rd t F.ENC_STATUS_SPEED_VALID n = 0
      ∧ encAt t n = { encAt s n with pts := [], restart := true }
      ∧ Keeps [(F.ENC_INTERVAL_VALUE, n), (F.ENC_STATUS_SPEED_VALID, n)] s t
      ∧ Settled { s with regs := t.regs, enc := t.enc } t := by
  refine answers_onBlock hn hworks fun t ht => ⟨?_, ?_, ?_, ht.keeps ?_, ?_⟩
  · rw [ht.rd, restartSpeed, rd_wr_field _ _ _ _ _ _ (by decide), rd_wr_same]; rfl
  · rw [ht.rd, restartSpeed, rd_wr_same]; rfl
  · rw [ht.encAt]; exact encAt_setEnc s n { encAt s n with pts := [], restart := true }
  · exact ((Keeps.refl _ (setEnc s n _)).wr _ _ _ (by simp)).wr _ _ _ (by simp)
  · exact EncOnly.settled (s := s) (u := restartSpeed s n) rfl ht

/-- Where the REVERSED of a field channel ends, its live kinds and its partner alone change. -/
theorem endReversed_touches {c : Nat} (hc : c ≠ 36) :
    Touches [F.FIO_CH_STAT_KINDS, F.FIO_CH_STAT_PARTNER] s (endReversed s c) ∧ RegsOnly s (endReversed s c) := by
  unfold endReversed
  split
  · unfold faultClear
    dsimp only
    rw [if_neg hc, clearBits_eq]
    exact ⟨Touches.ite ((Touches.refl.wr _ _ _ (by simp)).wr _ _ _ (by simp)) (Touches.refl.wr _ _ _ (by simp)),
      RegsOnly.ite (((RegsOnly.refl s).wr ..).wr ..) ((RegsOnly.refl s).wr ..)⟩
  · exact ⟨.refl, .refl s⟩

theorem answers_clrIdxRef (hn : n < 4) (hworks : blockWorks s 6 = true) : Answers (exec (.clrIdxRef n) s) fun t =>
      rd t F.ENC_STATUS_IDX_REF n = 0 ∧ rd t F.ENC_STATUS_Z_REVERSED n = 0 ∧ (encAt t n).idxRef = none
      ∧ rd t F.ENC_POS_VALUE n = rd s F.ENC_POS_VALUE n := by
  let w : State := wr (wr (setEnc s n { encAt s n with idxRef := none }) F.ENC_STATUS_IDX_REF n 0) F.ENC_STATUS_Z_REVERSED n 0
  obtain ⟨hend, honly⟩ := endReversed_touches (s := w) (c := 3 * n + 2) (by omega)
  refine answers_onBlock hn hworks fun t ht => ?_
  have ht : Settled (endReversed w (3 * n + 2)) t := ht
  refine ⟨?_, ?_, ?_, ?_⟩
  · rw [ht.rd, hend _ _ (by decide), rd_wr_field _ _ _ _ _ _ (by decide), rd_wr_same]; rfl
  · rw [ht.rd, hend _ _ (by decide), rd_wr_same]; rfl
  · have henc : (endReversed w (3 * n + 2)).enc = w.enc := by have e := congrArg State.enc honly; exact e
    rw [ht.encAt, encAt, henc]
    exact congrArg Enc.idxRef (encAt_setEnc s n { encAt s n with idxRef := none })
  · rw [ht.rd, hend _ _ (by decide), rd_wr_field _ _ _ _ _ _ (by decide), rd_wr_field _ _ _ _ _ _ (by decide), rd_setEnc]

/-! ### The grid of a serial channel -/

/-- The grid point of channel n after now. -/
def ssiNext (s : State) (n : Nat) : Nat :=
  let period := max 1 (rd s F.ENC_SSI_PERIOD_PERIOD n)
  if (encAt s n).ssiGrid = 0 then s.ns + period
  else (encAt s n).ssiGrid + ((s.ns - (encAt s n).ssiGrid) / period + 1) * period

theorem ssiNext_gt (hgrid : (encAt s n).ssiGrid ≤ s.ns) : s.ns < ssiNext s n := by
  have hp : 0 < max 1 (rd s F.ENC_SSI_PERIOD_PERIOD n) := by omega
  unfold ssiNext
  dsimp only
  generalize max 1 (rd s F.ENC_SSI_PERIOD_PERIOD n) = period at *
  have hstep := Nat.lt_mul_div_succ (s.ns - (encAt s n).ssiGrid) hp
  rw [Nat.mul_comm] at hstep
  split <;> omega

/-- A grid point that has come, with no word in progress and none waiting for its data line. -/
theorem ssiGrid_due (hrun : ssiRuns s n = true) (hidle : isSet s F.ENC_STATUS_SSI_BUSY n = false)
    (hwait : (encAt s n).ssiWait = none) (hgrid : (encAt s n).ssiGrid ≤ s.ns) (high : Bool) : ssiGrid s n high =
      (let w := setEnc s n { encAt s n with ssiGrid := ssiNext s n }
       if high then ssiStart w n
       else setEnc w n { encAt w n with ssiWait := some (s.ns + rd s F.ENC_SSI_TIMING_TIMEOUT_US n * 1000) }) := by
  unfold ssiGrid
  dsimp only
  rw [if_neg (by rw [hrun]; exact Bool.false_ne_true), if_neg (by rw [hidle]; exact Bool.false_ne_true),
    if_neg (by rw [hwait]; exact Bool.false_ne_true), if_neg (by omega)]
  rfl

theorem answers_ssiGrid_high (hn : n < 4) (hworks : blockWorks s 6 = true) (hrun : ssiRuns s n = true)
    (hidle : isSet s F.ENC_STATUS_SSI_BUSY n = false) (hwait : (encAt s n).ssiWait = none) (hgrid : (encAt s n).ssiGrid ≤ s.ns) :
    Answers (exec (.ssiGrid n true) s) fun t =>
        rd t F.ENC_STATUS_SSI_BUSY n = 1 ∧ (encAt t n).ssiT0 = some s.tb ∧ s.ns < (encAt t n).ssiGrid
        ∧ Keeps [(F.ENC_STATUS_SSI_BUSY, n)] s t ∧ Settled { s with regs := t.regs, enc := t.enc } t := by
  have hnext := ssiNext_gt hgrid
  let w : State := setEnc s n { encAt s n with ssiGrid := ssiNext s n }
  have hw : encAt w n = { encAt s n with ssiGrid := ssiNext s n } := encAt_setEnc ..
  have hstart : ssiStart w n = wr (setEnc w n { encAt w n with ssiT0 := some s.tb, ssiWait := none }) F.ENC_STATUS_SSI_BUSY n 1 := by
    unfold ssiStart
    dsimp only
    rw [if_pos (show w.ns < (encAt w n).ssiGrid by rw [hw]; exact hnext)]
    rfl
  refine answers_onBlock hn hworks fun t ht => ?_
  have heq := ssiGrid_due hrun hidle hwait hgrid true
  dsimp only at heq
  rw [if_pos rfl, hstart] at heq
  rw [heq] at ht
  have hat : encAt t n = { encAt w n with ssiT0 := some s.tb, ssiWait := none } := ht.encAt n |>.trans (encAt_setEnc w n _)
  refine ⟨?_, by rw [hat], by rw [hat, hw]; exact hnext, ht.keeps ?_, ?_⟩
  · rw [ht.rd, rd_wr_same]; rfl
  · exact (Keeps.refl _ (setEnc w n _)).wr _ _ _ (by simp)
  · exact EncOnly.settled (s := s) (u := wr (setEnc w n _) _ _ _) rfl ht

theorem answers_ssiGrid_low (hn : n < 4) (hworks : blockWorks s 6 = true) (hrun : ssiRuns s n = true)
    (hidle : isSet s F.ENC_STATUS_SSI_BUSY n = false) (hwait : (encAt s n).ssiWait = none) (hgrid : (encAt s n).ssiGrid ≤ s.ns) :
    Answers (exec (.ssiGrid n false) s) fun t =>
        (encAt t n).ssiWait = some (s.ns + rd s F.ENC_SSI_TIMING_TIMEOUT_US n * 1000)
        ∧ Settled { s with enc := t.enc } t := by
  refine answers_onBlock hn hworks fun t ht => ?_
  have heq := ssiGrid_due hrun hidle hwait hgrid false
  dsimp only at heq
  rw [if_neg Bool.false_ne_true] at heq
  rw [heq] at ht
  refine ⟨?_, ?_⟩
  · rw [ht.encAt, encAt_setEnc]
  · have he := ht.enc
    unfold Settled at *
    rw [he]; exact ht

theorem answers_ssiTimeout {w : Nat} (hn : n < 4) (hworks : blockWorks s 6 = true) (hidle : isSet s F.ENC_STATUS_SSI_BUSY n = false)
    (hwait : (encAt s n).ssiWait = some w) (hdue : w ≤ s.ns) (word : Nat) : Answers (exec (.ssiTimeout n word) s) fun t =>
        (encAt t n).ssiWait = none ∧ hasBit t F.ENC_EVT_EVT n 8 = true
        ∧ rd t F.ENC_SSI_TIMEOUT_CNT_COUNT n
          = min (rd s F.ENC_SSI_TIMEOUT_CNT_COUNT n + 1) (2 ^ F.ENC_SSI_TIMEOUT_CNT_COUNT.width - 1) := by
  have heq : ssiTimeout s n word = ssiInvalid (setEnc s n { encAt s n with ssiWait := none }) n F.ENC_SSI_TIMEOUT_CNT_COUNT := by
    unfold ssiTimeout
    dsimp only
    rw [hidle, hwait, if_neg Bool.false_ne_true]
    exact if_neg (by omega)
  refine answers_onBlock hn hworks fun t ht => ?_
  rw [heq] at ht
  obtain ⟨hevt, hcount⟩ := ssiInvalid_counts (setEnc s n { encAt s n with ssiWait := none }) n (f := F.ENC_SSI_TIMEOUT_CNT_COUNT)
    (by decide) (by decide)
  refine ⟨?_, (ht.hasBit ..).trans hevt, (ht.rd ..).trans hcount⟩
  rw [ht.encAt, ssiInvalid_encAt, encAt_setEnc]

end

/-- Settles O24, clause by clause. -/
theorem encoderChannelsCountAndDecode : Obligations.EncoderChannelsCountAndDecode := by
  intro s n hn hworks
  refine ⟨fun ⟨hidle, hunits, houts⟩ => ⟨fun a b z ps held hmode hlost hdom hheld hps => ?_, fun word t0 hrun hbusy hns ht0 hedge
      hlost hfrozen hoff herr hwarn hgray => ⟨?_, ?_⟩, fun hmode hlost harmed hdue => answers_encLost hn hworks hidle hmode hlost harmed hdue⟩,
    answers_loadPreset hn hworks, answers_restartSpeed hn hworks, answers_clrIdxRef hn hworks,
    answers_onBlock hn hworks fun t ht => cleared_of_settled ht (by decide),
    fun hrun hidle hwait hgrid => ⟨answers_ssiGrid_high hn hworks hrun hidle hwait hgrid, answers_ssiGrid_low hn hworks hrun hidle hwait hgrid⟩,
    fun w word hidle hwait hdue => answers_ssiTimeout hn hworks hidle hwait hdue word⟩
  · exact fun hone hz => answers_encEdge hn hworks hidle hunits houts hlost hmode hdom hheld hps hone hz
  · exact answers_ssiWord hn hworks hidle hunits houts hrun hbusy hns ht0 hedge hlost hfrozen hoff herr hwarn hgray
  · exact answers_ssiWord_wrong hn hworks hrun hbusy hns ht0 hedge herr hwarn hgray

end Sys2Proof.Machine
end

section
/-! Matches of compare units, commits of frame clocks, loop updates (R186 to R217). -/
open Sys2Proof
namespace Sys2Proof.Machine

section
variable {s t u v : State} {n g k : Nat}

/-! ### A match -/

theorem fcgMatch_of_idle (h : ClocksIdle s) (k x : Nat) : fcgMatch s k x = s := by
  unfold fcgMatch
  refine List.foldlRecOn (motive := fun t => t = s) (List.range 4) _ rfl fun t ht g hg => ?_
  rw [ht]
  exact if_pos (.inl (h g (List.mem_range.mp hg)))

/-- What a match of unit k records, forward, at pin time `x`. -/
def matchRecorded (s : State) (k x : Nat) : State :=
  cmpEvt (wr (wr (wr (wr (bump (fireProducer s k) F.CMP_MATCHES_COUNT k) F.CMP_LAST_TAG k (bitsOf (sget s.cmpCur 0 k) 58 4))
    F.CMP_LAST_DIR k 1) F.CMP_LAST_ENTRY k (rd s F.CMP_PTR_PTR k)) F.CMP_LAST_TB_VALUE k x) k 0

theorem matchRecorded_touches (s : State) (k x : Nat) :
    Touches ([F.CMP_MATCHES_COUNT, F.CMP_LAST_TAG, F.CMP_LAST_DIR, F.CMP_LAST_ENTRY, F.CMP_LAST_TB_VALUE, F.CMP_EVT_EVT] ++ beaconFields)
      s (matchRecorded s k x) :=
  (((((((fireProducer_touches s k).mono fun _ hf => List.mem_append_right _ hf).wr _ _ _ (by simp)).wr _ _ _ (by simp)).wr _ _ _ (by simp)).wr _ _ _ (by simp)).wr
    _ _ _ (by simp)).wr _ _ _ (by simp)

theorem cmpMatch_of_idle (h : ClocksIdle s) (k x : Nat) : cmpMatch s k x true false = matchRecorded s k x := by
  have hptr : rd (wr (wr (bump (fireProducer s k) F.CMP_MATCHES_COUNT k) F.CMP_LAST_TAG k (bitsOf (sget s.cmpCur 0 k) 58 4))
      F.CMP_LAST_DIR k 1) F.CMP_PTR_PTR k = rd s F.CMP_PTR_PTR k := by
    simp (disch := decide) only [bump_eq, rd_wr_field]
    exact fireProducer_touches s k _ _ (by decide)
  unfold cmpMatch
  dsimp only
  rw [if_pos rfl, if_neg Bool.false_ne_true, hptr]
  exact fcgMatch_of_idle (h.touches (matchRecorded_touches s k x) (by decide)) k x

/-- The unit after its ONCE list's last entry. -/
def cmpEnded (s : State) (k : Nat) : State := cmpEvt (wr (wr s F.CMP_STATUS_DONE k 1) F.CMP_STATUS_ARMED k 0) k 3

theorem cmpAdvance_last (hcyc : isSet s F.CMP_CFG_CYCLIC k = false)
    (hlast : rd s F.CMP_BASE_BASE k + rd s F.CMP_LEN_LEN k ≤ rd s F.CMP_PTR_PTR k + 1) : cmpAdvance s k = cmpEnded s k := by
  unfold cmpAdvance
  dsimp only
  rw [if_neg (by omega), hcyc]
  exact if_neg Bool.false_ne_true

/-- Unit k, armed forward on the last entry of a ONCE list, is crossed by one count forward. -/
theorem cmpUpdate_matches {p : Int} (hidle : ClocksIdle s) (hupd : sget s.cmpUpd [] k = []) (harm : isSet s F.CMP_STATUS_ARMED k = true)
    (htgt : cmpTarget s k = p + 1) (hdir : bitsOf (sget s.cmpCur 0 k) 56 2 = 1) (hcyc : isSet s F.CMP_CFG_CYCLIC k = false)
    (hlast : rd s F.CMP_BASE_BASE k + rd s F.CMP_LEN_LEN k ≤ rd s F.CMP_PTR_PTR k + 1) (x : Nat) :
    cmpUpdate s k ⟨p, p + 1, x, 0⟩ = setUpds (cmpEnded (matchRecorded s k x) k) k [] := by
  have hm := matchRecorded_touches s k x
  have hadv := cmpAdvance_last (s := matchRecorded s k x) ((isSet_congr (hm F.CMP_CFG_CYCLIC k (by decide))).trans hcyc)
    (by rw [hm F.CMP_BASE_BASE k (by decide), hm F.CMP_LEN_LEN k (by decide), hm F.CMP_PTR_PTR k (by decide)]; exact hlast)
  have htest : cmpTest s k ⟨p, p + 1, x, 0⟩ = (cmpEnded (matchRecorded s k x) k, some ⟨p, p + 1, x, 1⟩) := by
    unfold cmpTest
    dsimp only
    rw [htgt, hdir, show decide (p < p + 1 ∧ p + 1 ≤ p + 1) = true from decide_eq_true (by omega), Bool.true_or,
      if_neg (by decide), if_neg (by decide), if_neg (by decide),
      show (decide ((1 : Nat) = 0) || 1 == 1 && true || 1 == 2 && decide (p + 1 ≤ p + 1 ∧ p + 1 < p)) = true from rfl, if_pos rfl,
      show decide (0 ≠ 0) = false from rfl, cmpMatch_of_idle hidle, hadv]
  have hdis : isSet (cmpEnded (matchRecorded s k x) k) F.CMP_STATUS_ARMED k = false := by
    unfold isSet cmpEnded cmpEvt
    rw [setBit_eq, rd_wr_field _ _ _ _ _ _ (by decide), rd_wr_same]; rfl
  unfold cmpUpdate updsAt
  rw [hupd]
  dsimp only
  unfold cmpTick
  rw [harm, if_neg (by decide), htest]
  dsimp only
  rw [hdis, if_neg Bool.false_ne_true]

/-- Of the units that follow channel n, the one that is armed alone takes a position update. -/
theorem posUpdate_one {p q : Int} {ps : Nat} {y w : State} (hy : posStamped s n q ps = y) (hk : k < 16) (houts : OutputsQuiet w n)
    (hone : ∀ j, j < 16 → (isSet y F.CMP_STATUS_ARMED j = true ∧ rd y F.CMP_CFG_SRC j = n ↔ j = k))
    (hw : cmpUpdate y k ⟨p, q, ps / 1000, 0⟩ = w)
    (hsame : ∀ j, j ≠ k → rd w F.CMP_STATUS_ARMED j = rd y F.CMP_STATUS_ARMED j ∧ rd w F.CMP_CFG_SRC j = rd y F.CMP_CFG_SRC j)
    (counted : Bool) : posUpdate s n p q ps counted = w := by
  have hfold : (List.range 16).foldl (fun s k => if isSet s F.CMP_STATUS_ARMED k && rd s F.CMP_CFG_SRC k == n
      then cmpUpdate s k ⟨p, q, ps / 1000, 0⟩ else s) y = w := by
    refine foldl_once List.nodup_range (List.mem_range.mpr hk) (fun j hj hjk => if_neg ?_) (fun j hj hjk => if_neg ?_)
      ((if_pos ?_).trans hw)
    · rw [Bool.and_eq_true, beq_iff_eq]
      exact fun h => hjk ((hone j (List.mem_range.mp hj)).mp h)
    · rw [Bool.and_eq_true, beq_iff_eq, isSet_congr (hsame j hjk).1, (hsame j hjk).2]
      exact fun h => hjk ((hone j (List.mem_range.mp hj)).mp h)
    · rw [Bool.and_eq_true, beq_iff_eq]
      exact (hone k hk).mpr rfl
  unfold posUpdate
  dsimp only
  rw [show mapFrames (wr s F.ENC_POS_VALUE n (fromSigned 64 q)) _ _ = y from hy, hfold]
  exact houts.fold

/-- What a count writes before the units take it. -/
def countFields : List Field :=
  [F.ENC_STATUS_ABZ, F.ENC_OVERSPEED_COUNT, F.ENC_EVT_EVT, F.ENC_STATUS_DIR, F.ENC_LAST_TB_VALUE, F.ENC_INTERVAL_VALUE,
   F.ENC_STATUS_SPEED_VALID, F.ENC_POS_VALUE]

/-- A count of a channel while no frame clock runs: a position update from a state that differs from the first in the
channel's own registers, in its own state and in the frames' stamps. -/
theorem encEdge_moves {a b z : Bool} {ps held : Nat} (hdom : domUp s 22 = true) (hidle : ClocksIdle s)
    (hmode : rd s F.ENC_CFG_MODE n = 1) (hinv : isSet s F.ENC_CFG_INVERT_DIR n = false) (hlost : isSet s F.ENC_STATUS_LOST n = false)
    (hheld : rd s F.ENC_CFG_FILTER_N n ≤ held) (hps : ps + (rd s F.ENC_CFG_FILTER_N n - 1) * 2500 ≤ s.tb * 1000)
    (ha : hasBit s F.ENC_STATUS_ABZ n 0 ≠ a) (hb : hasBit s F.ENC_STATUS_ABZ n 1 = b) (hz : hasBit s F.ENC_STATUS_ABZ n 2 = z)
    (hab : a ≠ b) : ∃ u, encEdge s n a b z ps held = posUpdate u n (encPos s n) (encPos s n + 1) ps true
      ∧ Touches countFields s (posStamped u n (encPos s n + 1) ps) ∧ u.cmpCur = s.cmpCur ∧ u.cmpUpd = s.cmpUpd := by
  have hach : (hasBit s F.ENC_STATUS_ABZ n 0 != a) = true := by simpa using ha
  obtain ⟨x, heq⟩ := encEdge_counts (a := a) (b := b) hmode hdom hheld hps (by rw [hach, hb, bne_self_eq_false]; decide) hz
  rw [hach, if_pos rfl, hinv, show (a != b) = true by simpa using hab, show (true != false) = true from rfl] at heq
  have hwt : Touches [F.ENC_STATUS_ABZ] s (wr s F.ENC_STATUS_ABZ n (a.toNat + 2 * b.toNat + 4 * z.toNat)) :=
    Touches.refl.wr _ _ _ (by simp)
  have hwo : EncOnly s (wr s F.ENC_STATUS_ABZ n (a.toNat + 2 * b.toNat + 4 * z.toNat)) := rfl
  generalize wr s F.ENC_STATUS_ABZ n (a.toNat + 2 * b.toNat + 4 * z.toNat) = w at *
  obtain ⟨first, hcount⟩ := encCount_shape ((isSet_congr (hwt F.ENC_STATUS_LOST n (by decide))).trans hlost) ps true x
  obtain ⟨hkeep, -, -, honly⟩ := speedPoint_marked (n := n) (hidle.touches hwt (by decide)) ps true x first
  rw [hcount] at heq
  generalize speedPoint (encMarked w n ps true x) n ps (oneCount true) first = u at *
  have hut : Touches countFields s u := (hwt.mono (by simp [countFields])).trans ((hkeep.touches (fs := [F.ENC_OVERSPEED_COUNT,
    F.ENC_EVT_EVT, F.ENC_STATUS_DIR, F.ENC_LAST_TB_VALUE, F.ENC_INTERVAL_VALUE, F.ENC_STATUS_SPEED_VALID]) rfl).mono
    (by simp [countFields]))
  have hpos : encPos u n = encPos s n := congrArg (toSigned 64)
    ((hkeep F.ENC_POS_VALUE n (by simp [key_eq_iff]; decide)).trans (hwt _ _ (by decide)))
  have hall := hwo.trans honly
  dsimp only at heq
  rw [hpos] at heq
  refine ⟨u, heq, ?_, ?_, ?_⟩
  · exact hut.trans (((posStamped_keeps u n _ ps).touches (fs := [F.ENC_POS_VALUE]) rfl).mono (by simp [countFields]))
  · have e := congrArg State.cmpCur hall; exact e
  · have e := congrArg State.cmpUpd hall; exact e

/-- A unit after its match on its last entry: counted, ended, with both events, whatever the other units hold. -/
theorem rd_matched (y : State) (k x : Nat) : let w := setUpds (cmpEnded (matchRecorded y k x) k) k []
    rd w F.CMP_MATCHES_COUNT k = min (rd y F.CMP_MATCHES_COUNT k + 1) (2 ^ F.CMP_MATCHES_COUNT.width - 1)
      ∧ rd w F.CMP_LAST_TB_VALUE k = x % 2 ^ F.CMP_LAST_TB_VALUE.width ∧ rd w F.CMP_STATUS_DONE k = 1
      ∧ rd w F.CMP_STATUS_ARMED k = 0 ∧ hasBit w F.CMP_EVT_EVT k 0 = true ∧ hasBit w F.CMP_EVT_EVT k 3 = true
      ∧ rd w F.CMP_AGAINST_COUNT k = rd y F.CMP_AGAINST_COUNT k
      ∧ ∀ j, j ≠ k → rd w F.CMP_STATUS_ARMED j = rd y F.CMP_STATUS_ARMED j ∧ rd w F.CMP_CFG_SRC j = rd y F.CMP_CFG_SRC j := by
  have hrec := matchRecorded_touches y k x
  have hend : Touches [F.CMP_STATUS_DONE, F.CMP_STATUS_ARMED, F.CMP_EVT_EVT] (matchRecorded y k x) (cmpEnded (matchRecorded y k x) k) :=
    ((Touches.refl.wr _ _ _ (by simp)).wr _ _ _ (by simp)).wr _ _ _ (by simp)
  have hevt0 : hasBit (matchRecorded y k x) F.CMP_EVT_EVT k 0 = true := hasBit_setBit _ _ _ _ (by decide)
  intro w
  refine ⟨?_, ?_, ?_, ?_, ?_, ?_, ?_, fun j hj => ⟨?_, ?_⟩⟩
  · refine (hend _ _ (by decide)).trans ?_
    unfold matchRecorded cmpEvt
    rw [setBit_eq, rd_wr_field _ _ _ _ _ _ (by decide), rd_wr_field _ _ _ _ _ _ (by decide), rd_wr_field _ _ _ _ _ _ (by decide),
      rd_wr_field _ _ _ _ _ _ (by decide), rd_wr_field _ _ _ _ _ _ (by decide), rd_bump, fireProducer_touches y k _ _ (by decide)]
  · refine (hend _ _ (by decide)).trans ?_
    unfold matchRecorded cmpEvt
    rw [setBit_eq, rd_wr_field _ _ _ _ _ _ (by decide), rd_wr_same]
  · change rd (cmpEnded _ k) _ k = 1
    unfold cmpEnded cmpEvt
    simp (disch := decide) only [setBit_eq, rd_wr_field, rd_wr_same]; rfl
  · change rd (cmpEnded _ k) _ k = 0
    unfold cmpEnded cmpEvt
    simp (disch := decide) only [setBit_eq, rd_wr_field, rd_wr_same]; rfl
  · refine hasBit_setBit_of _ _ _ 3 0 (by decide) ?_
    unfold hasBit at *
    rw [rd_wr_field _ _ _ _ _ _ (by decide), rd_wr_field _ _ _ _ _ _ (by decide)]
    exact hevt0
  · exact hasBit_setBit _ _ _ _ (by decide)
  · exact (hend _ _ (by decide)).trans (hrec _ _ (by decide))
  · change rd (cmpEnded _ k) _ j = _
    unfold cmpEnded cmpEvt
    rw [setBit_eq, rd_wr_field _ _ _ _ _ _ (by decide), rd_wr_inst _ _ _ _ (Ne.symm hj), rd_wr_inst _ _ _ _ (Ne.symm hj)]
    exact hrec _ _ (by decide)
  · exact (hend _ _ (by decide)).trans (hrec _ _ (by decide))

theorem answers_encEdge_matches {a b z : Bool} {ps held : Nat} (hn : n < 4) (hk : k < 16) (hworks : blockWorks s 6 = true)
    (hdom : domUp s 22 = true) (hidle : ClocksIdle s) (hpo : ∀ p, p < 2 → isSet s F.PO_STATUS_RUNNING p = false)
    (hone : ∀ j, j < 16 → (isSet s F.CMP_STATUS_ARMED j = true ∧ rd s F.CMP_CFG_SRC j = n ↔ j = k)) (hupd : sget s.cmpUpd [] k = [])
    (hmode : rd s F.ENC_CFG_MODE n = 1) (hinv : isSet s F.ENC_CFG_INVERT_DIR n = false) (hlost : isSet s F.ENC_STATUS_LOST n = false)
    (hheld : rd s F.ENC_CFG_FILTER_N n ≤ held) (hps : ps + (rd s F.ENC_CFG_FILTER_N n - 1) * 2500 ≤ s.tb * 1000)
    (ha : hasBit s F.ENC_STATUS_ABZ n 0 ≠ a) (hb : hasBit s F.ENC_STATUS_ABZ n 1 = b) (hz : hasBit s F.ENC_STATUS_ABZ n 2 = z)
    (hab : a ≠ b) (htgt : cmpTarget s k = encPos s n + 1) (hdir : bitsOf (sget s.cmpCur 0 k) 56 2 = 1)
    (hcyc : isSet s F.CMP_CFG_CYCLIC k = false)
    (hlast : rd s F.CMP_BASE_BASE k + rd s F.CMP_LEN_LEN k ≤ rd s F.CMP_PTR_PTR k + 1) :
    Answers (exec (.encEdge n a b z ps held) s) fun t =>
      rd t F.CMP_MATCHES_COUNT k = min (rd s F.CMP_MATCHES_COUNT k + 1) (2 ^ F.CMP_MATCHES_COUNT.width - 1)
      ∧ rd t F.CMP_LAST_TB_VALUE k = ps / 1000 % 2 ^ F.CMP_LAST_TB_VALUE.width ∧ rd t F.CMP_STATUS_DONE k = 1
      ∧ rd t F.CMP_STATUS_ARMED k = 0 ∧ hasBit t F.CMP_EVT_EVT k 0 = true ∧ hasBit t F.CMP_EVT_EVT k 3 = true
      ∧ rd t F.CMP_AGAINST_COUNT k = rd s F.CMP_AGAINST_COUNT k := by
  obtain ⟨u, heq, ht, hcur, hupds⟩ := encEdge_moves hdom hidle hmode hinv hlost hheld hps ha hb hz hab
  have hycur : (posStamped u n (encPos s n + 1) ps).cmpCur = s.cmpCur := hcur
  have hyupd : (posStamped u n (encPos s n + 1) ps).cmpUpd = s.cmpUpd := hupds
  obtain ⟨y, hy⟩ : ∃ y, posStamped u n (encPos s n + 1) ps = y := ⟨_, rfl⟩
  rw [hy] at ht hycur hyupd
  have hmatch : cmpUpdate y k ⟨encPos s n, encPos s n + 1, ps / 1000, 0⟩ = setUpds (cmpEnded (matchRecorded y k (ps / 1000)) k) k [] := by
    refine cmpUpdate_matches (hidle.touches ht (by decide)) (by rw [hyupd]; exact hupd)
      ((isSet_congr (ht F.CMP_STATUS_ARMED k (by decide))).trans ((hone k hk).mpr rfl).1) ?_ (by rw [hycur]; exact hdir)
      ((isSet_congr (ht F.CMP_CFG_CYCLIC k (by decide))).trans hcyc) ?_ _
    · unfold cmpTarget at *
      rw [hycur, ht F.CMP_CUR_OFFSET_VALUE k (by decide)]
      exact htgt
    · rw [ht F.CMP_BASE_BASE k (by decide), ht F.CMP_LEN_LEN k (by decide), ht F.CMP_PTR_PTR k (by decide)]
      exact hlast
  obtain ⟨hcount, htb, hdone, hoff, hev0, hev3, hagainst, hothers⟩ := rd_matched y k (ps / 1000)
  have hrun (p : Nat) : rd (setUpds (cmpEnded (matchRecorded y k (ps / 1000)) k) k []) F.PO_STATUS_RUNNING p = rd y F.PO_STATUS_RUNNING p := by
    rw [rd_setUpds, cmpEnded, cmpEvt, setBit_eq]
    simp (disch := decide) only [rd_wr_field]
    exact matchRecorded_touches y k _ _ _ (by decide)
  have hfin := posUpdate_one (p := encPos s n) hy hk (fun p hp hr => absurd hr (by
      rw [isSet_congr (hrun p), isSet_congr (ht F.PO_STATUS_RUNNING p (by decide)), hpo p hp]; exact Bool.false_ne_true))
    (fun j hj => by rw [isSet_congr (ht F.CMP_STATUS_ARMED j (by decide)), ht F.CMP_CFG_SRC j (by decide)]; exact hone j hj)
    hmatch hothers true
  refine answers_onBlock hn hworks fun t hs => ?_
  rw [heq, hfin] at hs
  refine ⟨?_, (hs.rd _ _).trans htb, (hs.rd _ _).trans hdone, (hs.rd _ _).trans hoff, (hs.hasBit ..).trans hev0,
    (hs.hasBit ..).trans hev3, ?_⟩
  · rw [hs.rd, hcount, ht _ _ (by decide)]
  · rw [hs.rd, hagainst, ht _ _ (by decide)]

/-! ### A commit -/

/-- A pulse wide enough, on an idle single output that is not dark, is held from its start. -/
theorem autoPulse_idle {start : Nat} {src : Option (Nat × Nat)} (hp : paired s n = false) (hdark : trgDark s n = false)
    (hmode : rd s F.TRG_CFG_MODE n ≠ 0) (hmin : effMin s n ≤ rd s F.TRG_WIDTH_NS n) (hheld : (trgAt s n).held = [])
    (hcur : (trgAt s n).cur = none) (hstart : s.tb ≤ start) :
    (trgAt (autoPulse s n start src) n).held = [⟨start, start + rd s F.TRG_WIDTH_NS n, src⟩] := by
  have hend : lastEnd s n = none := by
    unfold lastEnd ownerOf
    dsimp only
    rw [hp, if_neg Bool.false_ne_true, hheld, hcur]
    rfl
  unfold autoPulse outsOf
  rw [if_neg hmode, hp, if_neg Bool.false_ne_true, if_neg (by simp [hdark])]
  unfold placePulse
  dsimp only
  rw [hp, hheld, hend, if_neg Bool.false_ne_true, Nat.mul_zero, Nat.sub_zero, Nat.add_zero, Bool.false_and,
    if_neg Bool.false_ne_true, decide_eq_false (by omega : ¬ rd s F.TRG_WIDTH_NS n < effMin s n), Bool.false_and,
    if_neg Bool.false_ne_true, if_neg (by decide), if_neg (by exact Bool.false_ne_true),
    decide_eq_false (by omega : ¬ start < s.tb), if_neg Bool.false_ne_true, if_neg Bool.false_ne_true, trgAt_setTrg_same,
    if_neg Bool.false_ne_true, max_eq_left hstart, max_eq_left hmin, hheld]
  rfl

/-- A pulse of one output leaves what every other holds. -/
theorem trgAt_autoPulse_ne {m start : Nat} {src : Option (Nat × Nat)} (h : n ≠ m) : trgAt (autoPulse s m start src) n = trgAt s n := by
  have hdrop (l : List Nat) : trgAt (l.foldl (fun s o => if trgDark s o then darkDrop s o 1 else s) s) n = trgAt s n := by
    refine List.foldlRecOn (motive := fun t : State => trgAt t n = trgAt s n) l _ rfl fun t ht o _ => ?_
    split
    · exact ht
    · exact ht
  have hplace : trgAt (placePulse s m start (rd s F.TRG_WIDTH_NS m) src).2 n = trgAt s n := by
    unfold placePulse
    dsimp only
    generalize (if paired s m = true then rd s F.TRG_PAIR_CFG_DEAD_NS (m / 2) else 0) = dead
    split
    · rfl
    split
    · rfl
    split
    · rfl
    split
    · rfl
    refine (trgAt_setTrg_ne _ _ h).trans ?_
    split <;> split <;> rfl
  unfold autoPulse
  split
  · rfl
  split
  · exact hdrop _
  · exact hplace

/-- A trigger of FCG g at x pulses an idle single output that follows it, once, after its delay, for its width. -/
theorem trgFcg_holds {x id : Nat} (hn : n < 16) (hp : paired s n = false) (hdark : trgDark s n = false)
    (hsrc : rd s F.TRG_CFG_SRC n = 2) (hsel : rd s F.TRG_CFG_FCG_SEL n = g) (hmode : rd s F.TRG_CFG_MODE n ≠ 0)
    (hmin : effMin s n ≤ rd s F.TRG_WIDTH_NS n) (hheld : (trgAt s n).held = []) (hcur : (trgAt s n).cur = none) (htb : s.tb ≤ x) :
    (trgAt (trgFcg s g x id) n).held =
      [⟨x + rd s F.TRG_DELAY_NS n, x + rd s F.TRG_DELAY_NS n + rd s F.TRG_WIDTH_NS n, some (g, id)⟩] := by
  have hmem : n ∈ sourced s 2 fun n => rd s F.TRG_CFG_FCG_SEL n == g := by
    unfold sourced
    rw [List.mem_filter]
    exact ⟨List.mem_range.mpr hn, by simp [hsrc, hsel, hp]⟩
  have hnodup : (sourced s 2 fun n => rd s F.TRG_CFG_FCG_SEL n == g).Nodup := List.nodup_range.filter _
  unfold trgFcg
  generalize sourced s 2 (fun n => rd s F.TRG_CFG_FCG_SEL n == g) = l at hmem hnodup
  obtain ⟨a, b, rfl⟩ := List.append_of_mem hmem
  rw [List.nodup_append] at hnodup
  obtain ⟨-, hb, hdis⟩ := hnodup
  have hkeepn (l : List Nat) (hl : n ∉ l) (u : State) :
      trgAt (l.foldl (fun s n => autoPulse s n (x + rd s F.TRG_DELAY_NS n) (some (g, id))) u) n = trgAt u n := by
    refine List.foldlRecOn (motive := fun t : State => trgAt t n = trgAt u n) l _ rfl fun t ht m hm => ?_
    exact (trgAt_autoPulse_ne fun e => hl (by rw [e]; exact hm)).trans ht
  rw [List.foldl_append, List.foldl_cons, hkeepn b (List.nodup_cons.mp hb).1]
  have ha := hkeepn a (fun h => hdis n h n (by simp) rfl) s
  have hpulses : Pulses s (a.foldl (fun s n => autoPulse s n (x + rd s F.TRG_DELAY_NS n) (some (g, id))) s) :=
    foldl_frame Pulses.refl Pulses.trans (fun _ _ => autoPulse_pulses _ _ _ _) _ s
  generalize a.foldl (fun s n => autoPulse s n (x + rd s F.TRG_DELAY_NS n) (some (g, id))) s = u at *
  obtain ⟨honly, ht⟩ := hpulses
  have hutb : u.tb = s.tb := by have e := congrArg State.tb honly; exact e
  have hmin' : effMin u n = effMin s n := by
    unfold effMin
    rw [ht F.TRG_CFG_MODE n (by decide), ht F.TRG_FLOOR_FLOOR n (by decide)]
  rw [autoPulse_idle ((isSet_congr (ht F.TRG_PAIR_CFG_EN (n / 2) (by decide))).trans hp)
    ((isSet_congr (ht F.FIO_CH_STAT_DARK (12 + n) (by decide))).trans hdark) (by rw [ht F.TRG_CFG_MODE n (by decide)]; exact hmode)
    (by rw [hmin', ht F.TRG_WIDTH_NS n (by decide)]; exact hmin) (by rw [ha]; exact hheld) (by rw [ha]; exact hcur)
    (by rw [hutb]; omega), ht F.TRG_DELAY_NS n (by decide), ht F.TRG_WIDTH_NS n (by decide)]

/-- Queues of packets and streams, and the counters of what found no place in them, alone differ. -/
def Recorded (s t : State) : Prop := t = { s with regs := t.regs, pktPorts := t.pktPorts, streams := t.streams }
  ∧ Touches [F.PKT_TRIG_DROP_COUNT, F.PKT_PORT_EVT_EVT, F.PKT_TRIG_ORPHAN_COUNT] s t

theorem Recorded.refl (s : State) : Recorded s s := ⟨rfl, .refl⟩

theorem Recorded.trans (h : Recorded s t) (h' : Recorded t u) : Recorded s u := by
  refine ⟨?_, h.2.trans h'.2⟩
  obtain ⟨h, -⟩ := h
  obtain ⟨h', -⟩ := h'
  rw [h', h]

theorem Recorded.trgAt (h : Recorded s t) (n : Nat) : trgAt t n = trgAt s n :=
  trgAt_congr (by have e := congrArg State.trg h.1; exact e) n

theorem autoPacket_recorded (s : State) (n x id : Nat) (f : Option Nat) : Recorded s (autoPacket s n x id f) := by
  unfold autoPacket queuePacket
  dsimp only
  have hdrop (u : State) : Recorded u (pevt (bump u F.PKT_TRIG_DROP_COUNT n) n 8) :=
    ⟨rfl, (Touches.refl.wr _ _ _ (by simp)).wr _ _ _ (by simp)⟩
  split
  · exact hdrop s
  split
  · exact hdrop s
  · exact ⟨rfl, .of_regs rfl⟩

theorem putRecord_recorded (s : State) (src port : Nat) (r : TrigRec) : Recorded s (putRecord s src port r) := by
  unfold putRecord
  refine foldl_frame Recorded.refl Recorded.trans (fun u k => ?_) _ s
  split
  · dsimp only
    split
    · exact ⟨rfl, .of_regs rfl⟩
    · exact ⟨rfl, Touches.wr (.of_regs rfl) _ _ _ (by simp)⟩
  · exact .refl u

/-- The next trigger's identity. -/
def nextId (s : State) (g : Nat) : Nat := (rd s F.FCG_TRIG_ID_VALUE g + 1) % 2 ^ 32

/-- A trigger at x counted and announced, before it reaches outputs and queues. -/
def commitNoted (s : State) (g x : Nat) : State :=
  fireProducer (bump (wr (wr (reachTriggers s g) F.FCG_TRIG_ID_VALUE g (nextId s g)) F.FCG_NEXT_TB_VALUE g x) F.FCG_TRIGGERS_COUNT g)
    (32 + 3 * g)

theorem reachTriggers_touches (s : State) (g : Nat) : Touches [F.FCG_LAST_TB_VALUE] s (reachTriggers s g) := by
  have hfold : Touches [F.FCG_LAST_TB_VALUE] s (((fcgAt s g).committed.filter fun c => c.time ≤ s.tb).foldl
      (fun s c => wr s F.FCG_LAST_TB_VALUE g c.time) s) :=
    Touches.foldl _ _ (fun _ _ => Touches.refl.wr _ _ _ (by simp)) s
  exact hfold.trans (.of_regs rfl)

/-- What an announced trigger has changed of the registers, and that it has changed no pulse, no time and no generator's state but
the list of its committed triggers. -/
theorem commitNoted_rest (s : State) (g x : Nat) :
    Touches ([F.FCG_LAST_TB_VALUE, F.FCG_TRIG_ID_VALUE, F.FCG_NEXT_TB_VALUE, F.FCG_TRIGGERS_COUNT] ++ beaconFields) s (commitNoted s g x)
    ∧ (commitNoted s g x).trg = s.trg ∧ (commitNoted s g x).tb = s.tb
    ∧ rd (commitNoted s g x) F.FCG_TRIG_ID_VALUE g = nextId s g
    ∧ rd (commitNoted s g x) F.FCG_TRIGGERS_COUNT g = min (rd s F.FCG_TRIGGERS_COUNT g + 1) (2 ^ F.FCG_TRIGGERS_COUNT.width - 1) := by
  obtain ⟨htb, htrg, -⟩ := reachTriggers_own s g
  have hreach := reachTriggers_touches s g
  have hid : nextId s g < 2 ^ F.FCG_TRIG_ID_VALUE.width := Nat.mod_lt _ (by decide)
  unfold commitNoted
  generalize reachTriggers s g = r at *
  have hfire := fireProducer_touches (bump (wr (wr r F.FCG_TRIG_ID_VALUE g (nextId s g)) F.FCG_NEXT_TB_VALUE g x) F.FCG_TRIGGERS_COUNT g)
    (32 + 3 * g)
  have honly := fireProducer_firesOnly (bump (wr (wr r F.FCG_TRIG_ID_VALUE g (nextId s g)) F.FCG_NEXT_TB_VALUE g x) F.FCG_TRIGGERS_COUNT g)
    (32 + 3 * g)
  refine ⟨?_, ?_, ?_, ?_, ?_⟩
  · exact ((((hreach.mono (by simp)).wr _ _ _ (by simp)).wr _ _ _ (by simp)).wr _ _ _ (by simp)).trans
      (hfire.mono fun f hf => List.mem_append_right _ hf)
  · have e := congrArg State.trg honly; exact e.trans htrg
  · have e := congrArg State.tb honly; exact e.trans htb
  · rw [hfire _ _ (by decide), bump_eq, rd_wr_field _ _ _ _ _ _ (by decide), rd_wr_field _ _ _ _ _ _ (by decide), rd_wr_same]
    exact Nat.mod_eq_of_lt hid
  · rw [hfire _ _ (by decide), rd_bump, rd_wr_field _ _ _ _ _ _ (by decide), rd_wr_field _ _ _ _ _ _ (by decide), hreach _ _ (by decide)]

theorem twinTrig_of_alone (hw : twnState s ≠ twWATCH) (hl : twnState s ≠ twLEAD) (g id x c : Nat) : twinTrig s g id x c = s := by
  unfold twinTrig
  rw [if_neg hl, if_neg hw]

/-- A trigger that is on time, of a device alone, reaches the outputs, then the queues of packets and streams. -/
theorem commitTrigger_shape (hw : twnState s ≠ twWATCH) (hl : twnState s ≠ twLEAD) {x : Nat} (htime : s.tb ≤ x) :
    ∃ v k, Recorded (trgFcg (commitNoted s g x) g x (nextId s g)) v ∧ commitTrigger s g x false x false = setFcg v g k := by
  obtain ⟨htb, -, -⟩ := reachTriggers_own s g
  have hreach := reachTriggers_touches s g
  obtain ⟨hnote, -, -, -⟩ := commitNoted_rest s g x
  have hid : (rd (reachTriggers s g) F.FCG_TRIG_ID_VALUE g + 1) % 2 ^ 32 = nextId s g := by
    rw [hreach _ _ (by decide)]; rfl
  have hnoted : fireProducer (bump (wr (wr (reachTriggers s g) F.FCG_TRIG_ID_VALUE g (nextId s g)) F.FCG_NEXT_TB_VALUE g x)
    F.FCG_TRIGGERS_COUNT g) (32 + 3 * g) = commitNoted s g x := rfl
  unfold commitTrigger
  dsimp only
  rw [htb, decide_eq_false (by omega : ¬ x < s.tb), max_eq_left htime, hid, if_neg Bool.false_ne_true, if_neg Bool.false_ne_true, hnoted]
  generalize hsched : (if isSet (trgFcg (commitNoted s g x) g x (nextId s g)) F.FCG_CFG_PKT_ALIGN g = true then x - 24 else x) = sched
  have hpulses := trgFcg_pulses (commitNoted s g x) g x (nextId s g)
  generalize trgFcg (commitNoted s g x) g x (nextId s g) = u at *
  have hpack : Recorded u ((List.range 8).foldl (fun t n =>
      if hasBit t F.FCG_PORTS_PORTS g n then autoPacket t n sched (nextId s g) (some g) else t) u) := by
    refine foldl_frame Recorded.refl Recorded.trans (fun u n => ?_) _ u
    split
    · exact autoPacket_recorded ..
    · exact .refl u
  generalize (List.range 8).foldl (fun t n => if hasBit t F.FCG_PORTS_PORTS g n then autoPacket t n sched (nextId s g) (some g) else t) u = w at *
  have hrec := hpack.trans (putRecord_recorded w (g + 1) 0 ⟨x, nextId s g, false, false, false, some g, false, w.ns⟩)
  have hstate : twnState (putRecord w (g + 1) 0 ⟨x, nextId s g, false, false, false, some g, false, w.ns⟩) = twnState s :=
    (hrec.2 _ _ (by decide)).trans ((hpulses.2 _ _ (by decide)).trans (hnote _ _ (by decide)))
  generalize putRecord w (g + 1) 0 ⟨x, nextId s g, false, false, false, some g, false, w.ns⟩ = v at *
  have halone (k : Fcg) : twinTrig (setFcg v g k) g (nextId s g) x x = setFcg v g k :=
    twinTrig_of_alone (s := setFcg v g k) (fun h => hw (hstate.symm.trans h)) (fun h => hl (hstate.symm.trans h)) ..
  rw [halone]
  exact ⟨v, _, hrec, rfl⟩

theorem answers_fcgCommit (hg : g < 4) (hworks : blockWorks s 7 = true) (hloop : fcgLoop s g = fRUN) (hmode : rd s F.FCG_CFG_MODE g = 0)
    (hw : twnState s ≠ twWATCH) (hl : twnState s ≠ twLEAD) (hfrom : s.tb ≤ (fcgAt s g).nextT) (hto : (fcgAt s g).nextT ≤ s.tb + 200) :
    Answers (exec (.fcgCommit g) s) fun t =>
        rd t F.FCG_TRIG_ID_VALUE g = (rd s F.FCG_TRIG_ID_VALUE g + 1) % 2 ^ 32
        ∧ rd t F.FCG_TRIGGERS_COUNT g = min (rd s F.FCG_TRIGGERS_COUNT g + 1) (2 ^ F.FCG_TRIGGERS_COUNT.width - 1)
        ∧ rd t F.FCG_LATE_COUNT g = rd s F.FCG_LATE_COUNT g
        ∧ (fcgAt t g).nextT = (fcgAt s g).nextT + rd s F.FCG_PERIOD_VALUE g
        ∧ ∀ n, n < 16 → paired s n = false → trgDark s n = false → rd s F.TRG_CFG_SRC n = 2 → rd s F.TRG_CFG_FCG_SEL n = g →
          rd s F.TRG_CFG_MODE n ≠ 0 → effMin s n ≤ rd s F.TRG_WIDTH_NS n → (trgAt s n).held = [] → (trgAt s n).cur = none →
          let a := (fcgAt s g).nextT + rd s F.TRG_DELAY_NS n
          (trgAt t n).held = [⟨a, a + rd s F.TRG_WIDTH_NS n, some (g, (rd s F.FCG_TRIG_ID_VALUE g + 1) % 2 ^ 32)⟩] := by
  obtain ⟨v, k, hrec, hcommit⟩ := commitTrigger_shape (g := g) hw hl hfrom
  have hdue : commitDue s g = setFcg (setFcg v g k) g
      { fcgAt (setFcg v g k) g with nextT := (fcgAt s g).nextT + rd s F.FCG_PERIOD_VALUE g } := by
    unfold commitDue
    dsimp only
    have hawait : twnAwaits s g = false := by
      unfold twnAwaits
      rw [beq_false_of_ne hw, Bool.false_and]
    rw [hawait, if_neg Bool.false_ne_true, if_pos hloop, if_pos ⟨hmode, hto⟩, hcommit]
    rfl
  obtain ⟨hnote, hntrg, hntb, hid, hcount⟩ := commitNoted_rest s g (fcgAt s g).nextT
  obtain ⟨-, hpulses⟩ := trgFcg_pulses (commitNoted s g (fcgAt s g).nextT) g (fcgAt s g).nextT (nextId s g)
  refine answers_onBlock hg hworks fun t ht => ?_
  rw [hdue] at ht
  have hrd (f : Field) (i : Nat) : rd t f i = rd v f i := ht.rd f i
  refine ⟨?_, ?_, ?_, ?_, fun n hn hp hdark hsrc hsel hmode' hmin hheld hcur => ?_⟩
  · rw [hrd, hrec.2 _ _ (by decide), hpulses _ _ (by decide), hid]; rfl
  · rw [hrd, hrec.2 _ _ (by decide), hpulses _ _ (by decide), hcount]
  · rw [hrd, hrec.2 _ _ (by decide), hpulses _ _ (by decide), hnote _ _ (by decide)]
  · rw [ht.fcgAt, fcgAt_setFcg]
  · intro a
    have htrg : trgAt t n = trgAt v n := ht.trgAt n
    have hmin' : effMin (commitNoted s g (fcgAt s g).nextT) n = effMin s n := by
      unfold effMin
      rw [hnote F.TRG_CFG_MODE n (by decide), hnote F.TRG_FLOOR_FLOOR n (by decide)]
    have hat : trgAt (commitNoted s g (fcgAt s g).nextT) n = trgAt s n := trgAt_congr hntrg n
    rw [htrg, hrec.trgAt, trgFcg_holds hn ((isSet_congr (hnote F.TRG_PAIR_CFG_EN (n / 2) (by decide))).trans hp)
      ((isSet_congr (hnote F.FIO_CH_STAT_DARK (12 + n) (by decide))).trans hdark) ((hnote F.TRG_CFG_SRC n (by decide)).trans hsrc)
      ((hnote F.TRG_CFG_FCG_SEL n (by decide)).trans hsel) (by rw [hnote F.TRG_CFG_MODE n (by decide)]; exact hmode')
      (by rw [hmin', hnote F.TRG_WIDTH_NS n (by decide)]; exact hmin) (by rw [hat]; exact hheld) (by rw [hat]; exact hcur)
      (by rw [hntb]; exact hfrom), hnote F.TRG_DELAY_NS n (by decide), hnote F.TRG_WIDTH_NS n (by decide)]
    rfl

/-! ### A loop update -/

/-- A reachable set-point inside the limits becomes f. -/
def loopSet (s : State) (g sp : Nat) : State :=
  let w := wr (wr (wr (wr s F.FCG_STATUS_CLAMPED g 0) F.FCG_SETPOINT_VALUE g sp) F.FCG_STATUS_RAMPING g 0) F.FCG_STATUS_RAMP_DOWN g 0
  wr (setFcg w g { fcgAt s g with f := sp }) F.FCG_RATE_VALUE g sp

theorem loopSet_keeps (s : State) (g sp : Nat) : Keeps [(F.FCG_STATUS_RAMPING, g), (F.FCG_STATUS_RAMP_DOWN, g), (F.FCG_STATUS_CLAMPED, g),
    (F.FCG_SETPOINT_VALUE, g), (F.FCG_RATE_VALUE, g)] s (loopSet s g sp) := by
  have h := ((((Keeps.refl [(F.FCG_STATUS_RAMPING, g), (F.FCG_STATUS_RAMP_DOWN, g), (F.FCG_STATUS_CLAMPED, g), (F.FCG_SETPOINT_VALUE, g),
    (F.FCG_RATE_VALUE, g)] s).wr F.FCG_STATUS_CLAMPED g 0 (by simp)).wr F.FCG_SETPOINT_VALUE g sp (by simp)).wr F.FCG_STATUS_RAMPING g 0
    (by simp)).wr F.FCG_STATUS_RAMP_DOWN g 0 (by simp)
  unfold loopSet
  dsimp only
  generalize wr (wr (wr (wr s F.FCG_STATUS_CLAMPED g 0) F.FCG_SETPOINT_VALUE g sp) F.FCG_STATUS_RAMPING g 0) F.FCG_STATUS_RAMP_DOWN g 0 = w at *
  exact Keeps.wr (s := s) (u := setFcg w g _) (h.of_regs rfl) _ _ _ (by simp)

/-- Of `s`, registers and the generators' state alone differ in `t`. -/
def LoopOnly (s t : State) : Prop := t = { s with regs := t.regs, fcg := t.fcg }

theorem LoopOnly.settled (h : LoopOnly s u) (ht : Settled u t) : Settled { s with regs := t.regs, fcg := t.fcg } t := by
  obtain ⟨r, k, rfl⟩ : ∃ r k, u = { s with regs := r, fcg := k } := ⟨_, _, h⟩
  have hr : t.regs = r := ht.regs
  have hf : t.fcg = k := ht.fcg
  unfold Settled at *
  rw [hr, hf]; exact ht

theorem rd_setFcg (s : State) (g : Nat) (k : Fcg) (f : Field) (i : Nat) : rd (setFcg s g k) f i = rd s f i := rfl

theorem answers_fcgLoopUpdate (hg : g < 4) (hworks : blockWorks s 7 = true) (hloop : fcgLoop s g = fTRACK)
    (hwin : (fcgAt s g).windows = []) (hdue : ((fcgAt s g).updTb / 100 + 1) * 100 ≤ s.tb) :
      let n := rd s F.FCG_CFG_SRC_ENC g
      let sp := reportedSpeed s n * 4096 / max 1 (rd s F.FCG_C_C g)
      let step := rd s F.FCG_SLEW_VALUE g * 65536 / 10000
      let next := ((fcgAt s g).updTb / 100 + 1) * 100
      rd s F.FCG_FMIN_VALUE g * 65536 ≤ sp → sp ≤ rd s F.FCG_FMAX_VALUE g * 65536 →
      sp ≤ (fcgAt s g).f + step → (fcgAt s g).f ≤ sp + step → Answers (exec (.fcgLoopUpdate g) s) fun t =>
        (fcgAt t g).f = sp ∧ (fcgAt t g).updTb = next ∧ (fcgAt t g).phiTb = max (fcgAt s g).phiTb next
        ∧ (fcgAt t g).phi = (fcgAt s g).phi + phaseOf sp (next - (fcgAt s g).phiTb)
        ∧ rd t F.FCG_STATUS_RAMPING g = 0 ∧ rd t F.FCG_STATUS_CLAMPED g = 0
        ∧ Keeps [(F.FCG_STATUS_RAMPING, g), (F.FCG_STATUS_RAMP_DOWN, g), (F.FCG_STATUS_CLAMPED, g), (F.FCG_SETPOINT_VALUE, g),
            (F.FCG_RATE_VALUE, g)] s t
        ∧ Settled { s with regs := t.regs, fcg := t.fcg } t := by
  intro n sp step next hmin hmax hup hdown
  have hset : setPoint s g (reportedSpeed s n) = (sp, wr (wr s F.FCG_STATUS_CLAMPED g 0) F.FCG_SETPOINT_VALUE g sp) := by
    unfold setPoint
    dsimp only
    rw [decide_eq_false (by omega : ¬ sp < _), decide_eq_false (by omega : ¬ _ < sp), Bool.or_false, Bool.false_and,
      if_neg Bool.false_ne_true, if_neg (by omega : ¬ sp < _), if_neg (by omega : ¬ _ < sp)]
    rfl
  have hramp : rampTo (wr (wr s F.FCG_STATUS_CLAMPED g 0) F.FCG_SETPOINT_VALUE g sp) g sp = loopSet s g sp := by
    unfold rampTo
    dsimp only
    rw [rd_wr_field _ _ _ _ _ _ (by decide), rd_wr_field _ _ _ _ _ _ (by decide), if_neg]
    · rfl
    · change ¬ step < if decide (sp < (fcgAt s g).f) = true then (fcgAt s g).f - sp else sp - (fcgAt s g).f
      split <;> omega
  let k : Fcg := { fcgAt s g with f := sp }
  have hk : fcgAt (loopSet s g sp) g = k := fcgAt_setFcg ..
  let k' : Fcg := { k with phi := k.phi + phaseOf k.f (next - k.phiTb), phiTb := max k.phiTb next, updTb := next }
  let w : State := setFcg (loopSet s g sp) g k'
  have hhold : takeHoldTime w g = setFcg w g { k' with holdTime := rd w F.FCG_HOLD_TIME_US g * 1000 } := by
    unfold takeHoldTime
    rw [show fcgAt w g = k' from fcgAt_setFcg ..]
  have heq : loopUpdate s g (reportedSpeed s n) = setFcg w g { k' with holdTime := rd w F.FCG_HOLD_TIME_US g * 1000 } := by
    unfold loopUpdate
    dsimp only
    rw [hloop, if_neg (by simp [triggering]; omega), if_pos rfl, hset]
    dsimp only
    rw [hramp, hk]
    change closeExcess (takeHoldTime w g) g = _
    rw [hhold]
    unfold closeExcess
    rw [fcgAt_setFcg, show ({ k' with holdTime := rd w F.FCG_HOLD_TIME_US g * 1000 } : Fcg).windows = [] from hwin]
    rfl
  refine answers_onBlock hg hworks fun t ht => ?_
  rw [heq] at ht
  have hat : fcgAt t g = { k' with holdTime := rd w F.FCG_HOLD_TIME_US g * 1000 } := (ht.fcgAt g).trans (fcgAt_setFcg ..)
  have hrd (f : Field) (i : Nat) : rd t f i = rd (loopSet s g sp) f i := ht.rd f i
  refine ⟨by rw [hat], by rw [hat], by rw [hat], by rw [hat], ?_, ?_, ?_, ?_⟩
  · rw [hrd, loopSet, rd_wr_field _ _ _ _ _ _ (by decide), rd_setFcg, rd_wr_field _ _ _ _ _ _ (by decide), rd_wr_same]; rfl
  · rw [hrd, loopSet, rd_wr_field _ _ _ _ _ _ (by decide), rd_setFcg]
    simp (disch := decide) only [rd_wr_field, rd_wr_same]; rfl
  · exact ht.keeps ((loopSet_keeps s g sp).of_regs rfl)
  · exact LoopOnly.settled (s := s) (u := setFcg w g _) rfl ht

end

/-- Settles O58, clause by clause. -/
theorem matchesCommitsAndLoopUpdates : Obligations.MatchesCommitsAndLoopUpdates := by
  refine ⟨fun s n k a b z ps held hn hk hworks hdom hidle hpo hone hupd hmode hinv hlost hheld hps ha hb hz hab htgt hdir hcyc hlast =>
    answers_encEdge_matches hn hk hworks hdom hidle hpo hone hupd hmode hinv hlost hheld hps ha hb hz hab htgt hdir hcyc hlast,
    fun s g hg hworks => ⟨fun hloop hmode hw hl hfrom hto => answers_fcgCommit hg hworks hloop hmode hw hl hfrom hto,
      fun hloop hwin hdue => answers_fcgLoopUpdate hg hworks hloop hwin hdue⟩⟩

end Sys2Proof.Machine
end

section
/-! The answer of a block reaches rd of the core that waits for it (R115, R129, R142). -/
open Sys2Proof
namespace Sys2Proof.Machine

section
variable {s t u : State} {c d : Nat}

/-- A core whose request has its answer, with no posted store before it, takes it. -/
theorem answers_awaited {q : Req} {P : State → Prop} (hc : c < 8) (hworks : blockWorks s 15 = true)
    (hempty : (coreAt s c).storeQ = []) (hstall : (coreAt s c).stall = .answer q d) (hslot : noSlot s q = false)
    (h : ∀ t, Settled (answerReq s c q d) t → P t) : Answers (exec (.deviceAnswer c none) s) P := by
  refine answers_onBlock (by simpa using hc) hworks fun t ht => h t ?_
  have heq : deviceAnswers s c none = answerReq s c q d := by
    unfold deviceAnswers deviceAnswer
    simp only [hstall]
    rw [drainAll_of_empty hempty, if_neg (not_not.mpr hstall), hslot]
    exact if_neg Bool.false_ne_true
  rwa [heq] at ht

/-- The core of a request that its block has answered OK goes on with 0 in rd and Z set, whatever the block did beside. -/
theorem okAnswered (hcore : coreAt u c = coreAt s c) (hpc : pcOf u c = pcOf s c) (hstep : (coreAt s c).stepping = false)
    (hlt : pcOf s c < 0x7FFC) (ht : Settled (answerCore u c d 0) t) :
    ((coreAt t c).stall = .none ∧ sqState t c = sqRUNNING) ∧ (vreg t c d = 0 ∧ (flagsOf t c).z = true)
    ∧ GoesOn (answered u c d 0) c t := by
  obtain ⟨hgo, hstate, hstall, hv, hz, -⟩ := goesOn_answer (by rw [hcore]; exact hstep) (by rw [hpc]; exact hlt) ht
  exact ⟨⟨hstall, hstate⟩, ⟨by rw [hv]; split <;> rfl, hz⟩, hgo⟩

/-- The result word of a plain OK is 0. -/
theorem okWord_answer (u : State) (c d : Nat) : answerCore u c d (Answer.of stOK).word = answerCore u c d 0 :=
  congrArg (answerCore u c d) (by decide)

/-- A core is no open master. -/
theorem isOpen_core (hc : c < 8) : isOpen (0x10 + c) = false :=
  (by decide : ∀ c < 8, isOpen (0x10 + c) = false) c hc

theorem answers_deviceLoad {a n : Nat} (hc : c < 8) (hworks : blockWorks s 15 = true) (hempty : (coreAt s c).storeQ = [])
    (hstall : (coreAt s c).stall = .answer (.load a n) d) (hpc : pcOf (busRead s (0x10 + c) a n).2 c < 0x7FFC)
    (hstep : (coreAt (busRead s (0x10 + c) a n).2 c).stepping = false) : Answers (exec (.deviceAnswer c none) s) fun t =>
      ((coreAt t c).stall = .none ∧ sqState t c = sqRUNNING)
      ∧ vreg t c d = (if d % 16 = 0 then 0 else BitVec.ofNat 64 (busRead s (0x10 + c) a n).1) := by
  refine answers_awaited hc hworks hempty hstall rfl fun t ht => ?_
  have ht : Settled (advance (resume (setV (busRead s (0x10 + c) a n).2 c d (BitVec.ofNat 64 (busRead s (0x10 + c) a n).1)) c) c) t := ht
  have hgo := goesOn_of_settled (by rw [coreAt_setV]; exact hstep) (by rw [pcOf_setV]; exact hpc) ht
  exact ⟨⟨hgo.stall, hgo.state⟩, by rw [hgo.vreg, vreg_setV]⟩

/-! ### Mailboxes -/

/-- A packet to the twin waits at the link alone. -/
theorem twnMbx_rest (s : State) (m kind word : Nat) : Touches [F.TWN_TX_DROP_COUNT] s (twnMbx s m kind word)
    ∧ (twnMbx s m kind word).cores = s.cores := by
  unfold twnMbx twnPush
  split
  · exact ⟨.refl, rfl⟩
  split
  · exact ⟨Touches.refl.wr _ _ _ (by simp), rfl⟩
  · exact ⟨.of_regs rfl, rfl⟩

/-- A mailbox that is emptied, its word perhaps answered to the twin. -/
theorem mbxClear_twn (s : State) (m kind : Nat) (twin : Bool) : let u := if twin then twnMbx (mbxClear s m) m kind 0 else mbxClear s m
    rd u F.MBX_STAT_FULL m = 0 ∧ (∀ c, coreAt u c = coreAt s c) ∧ (∀ c, pcOf u c = pcOf s c) := by
  have hclear : rd (mbxClear s m) F.MBX_STAT_FULL m = 0 := by rw [mbxClear, rd_wr_same]; rfl
  have hcore (c : Nat) : coreAt (mbxClear s m) c = coreAt s c := rfl
  have hpc (c : Nat) : pcOf (mbxClear s m) c = pcOf s c :=
    congrArg (4 * ·) (rd_wr_field (setMbx s m ⟨0, 0⟩) F.MBX_STAT_FULL F.SQ_PC_PC m c 0 (by decide))
  obtain ⟨ht, hcores⟩ := twnMbx_rest (mbxClear s m) m kind 0
  cases twin with
  | false => exact ⟨hclear, hcore, hpc⟩
  | true =>
    refine ⟨(ht _ _ (by decide)).trans hclear, fun c => ?_, fun c => ?_⟩
    · exact (congrArg (fun l => sget l SqCore.init c) hcores).trans (hcore c)
    · exact (congrArg (4 * ·) (ht F.SQ_PC_PC c (by decide))).trans (hpc c)

theorem answers_mbxrcv {m : Nat} (hc : c < 8) (hworks : blockWorks s 15 = true) (hempty : (coreAt s c).storeQ = [])
    (hstep : (coreAt s c).stepping = false) (hpc : pcOf s c < 0x7FFC) (hstall : (coreAt s c).stall = .answer (.mbxrcv m) d) (hm : m < 64)
    (hreach : blockReach s 3 = true) (hrecv : isReceiver s (0x10 + c) m = true) (hfull : isSet s F.MBX_STAT_FULL m = true) :
    Answers (exec (.deviceAnswer c none) s) fun t =>
        ((coreAt t c).stall = .none ∧ sqState t c = sqRUNNING)
        ∧ vreg t c d = (if d % 16 = 0 then 0 else BitVec.ofNat 64 (mbxAt s m).word) ∧ (flagsOf t c).c = true
        ∧ rd t F.MBX_STAT_FULL m = 0 := by
  refine answers_awaited hc hworks hempty hstall rfl fun t ht => ?_
  obtain ⟨hclear, hcores, hpcs⟩ := mbxClear_twn s m 2 (decide (rd s F.MBX_BIND_SENDER m = 0x18))
  have hrec : mbxReceive s (coreMid c) m =
      (some (mbxAt s m).word, if decide (rd s F.MBX_BIND_SENDER m = 0x18) then twnMbx (mbxClear s m) m 2 0 else mbxClear s m) := by
    have hr : isReceiver s (coreMid c) m = true := hrecv
    unfold mbxReceive
    rw [hr, hfull]
    simp
  generalize (if decide (rd s F.MBX_BIND_SENDER m = 0x18) then twnMbx (mbxClear s m) m 2 0 else mbxClear s m) = u at *
  have heq : answerReq s c (.mbxrcv m) d = advance (resume (setFlags (setV u c d (BitVec.ofNat 64 (mbxAt s m).word)) c
      { flagsOf (setV u c d (BitVec.ofNat 64 (mbxAt s m).word)) c with z := decide ((mbxAt s m).word = 0), c := true }) c) c := by
    have hcond : (decide (m ≤ 63) && blockReach s 3) = true := by simp [hreach]; omega
    unfold answerReq receiveCore
    dsimp only
    rw [hcond, if_pos rfl, hrec]
    rfl
  rw [heq] at ht
  have hgo := goesOn_of_settled (by rw [coreAt_setFlags, coreAt_setV, hcores]; exact hstep)
    (by rw [pcOf_setFlags, pcOf_setV, hpcs]; exact hpc) ht
  refine ⟨⟨hgo.stall, hgo.state⟩, ?_, ?_, ?_⟩
  · rw [hgo.vreg, vreg_setFlags, vreg_setV]
  · rw [hgo.flags, flagsOf_setFlags]
  · rw [hgo.other m (by decide) (by decide), setFlags, rd_wr_field _ _ _ _ _ _ (by decide)]
    exact (rd_setV_field u c d _ (by decide) m).trans hclear

theorem answers_mbxwdr {m : Nat} (hc : c < 8) (hworks : blockWorks s 15 = true) (hempty : (coreAt s c).storeQ = [])
    (hstep : (coreAt s c).stepping = false) (hpc : pcOf s c < 0x7FFC) (hstall : (coreAt s c).stall = .answer (.mbxwdr m) d) (hm : m < 64)
    (hreach : blockReach s 3 = true) (hsend : isSender s (0x10 + c) m = true) (hfull : isSet s F.MBX_STAT_FULL m = true) :
    Answers (exec (.deviceAnswer c none) s) fun t =>
        ((coreAt t c).stall = .none ∧ sqState t c = sqRUNNING) ∧ (vreg t c d = 0 ∧ (flagsOf t c).z = true)
        ∧ rd t F.MBX_STAT_FULL m = 0 := by
  refine answers_awaited hc hworks hempty hstall rfl fun t ht => ?_
  obtain ⟨hclear, hcores, hpcs⟩ := mbxClear_twn s m 4 (decide (rd s F.MBX_BIND_RECEIVER m = 0x18))
  have hwdr : mbxWithdraw s (coreMid c) m =
      (.ok, if decide (rd s F.MBX_BIND_RECEIVER m = 0x18) then twnMbx (mbxClear s m) m 4 0 else mbxClear s m) := by
    have hr : isSender s (coreMid c) m = true := hsend
    unfold mbxWithdraw
    rw [hr, hfull]
    simp
  generalize (if decide (rd s F.MBX_BIND_RECEIVER m = 0x18) then twnMbx (mbxClear s m) m 4 0 else mbxClear s m) = u at *
  have heq : answerReq s c (.mbxwdr m) d = answerCore u c d 0 := by
    unfold answerReq request blockAnswer operandOk
    dsimp only
    rw [hreach, if_pos rfl, decide_eq_true (by omega : m ≤ 63), if_pos rfl, hwdr]
    exact okWord_answer u c d
  rw [heq] at ht
  obtain ⟨hon, hok, hgo⟩ := okAnswered (hcores c) (hpcs c) hstep hpc ht
  refine ⟨hon, hok, ?_⟩
  rw [hgo.other m (by decide) (by decide), answered, setFlags, rd_wr_field _ _ _ _ _ _ (by decide)]
  exact (rd_setV_field u c d _ (by decide) m).trans hclear

/-! ### Beacons and pulses -/

/-- What a core that goes on leaves beside registers and cores is what its request left. -/
theorem GoesOn.state_rest {w : Nat} (h : GoesOn (answered u c d w) c t) : t.beacons = u.beacons ∧ t.trg = u.trg := by
  have hrest : answered u c d w = { u with regs := (answered u c d w).regs } := answered_regsOnly u c d w
  have hb := h.rest.beacons
  have ht := h.rest.trg
  generalize answered u c d w = v at *
  refine ⟨hb.trans ?_, ht.trans ?_⟩
  · have e := congrArg State.beacons hrest; exact e
  · have e := congrArg State.trg hrest; exact e

theorem answers_fire {ch : Nat} (hc : c < 8) (hworks : blockWorks s 15 = true) (hempty : (coreAt s c).storeQ = [])
    (hstep : (coreAt s c).stepping = false) (hpc : pcOf s c < 0x7FFC) (hstall : (coreAt s c).stall = .answer (.fire ch) d) (hch : ch < 48)
    (hreach : blockReach s 2 = true) (hen : isSet s F.BCN_CH_CFG_EN ch = true) (hown : isSet s F.BCN_CH_CFG_FIRE_OWNER_ONLY ch = false)
    (hk : rd s F.BCN_CH_CFG_CONSUMER ch < 55) : Answers (exec (.deviceAnswer c none) s) fun t =>
        ((coreAt t c).stall = .none ∧ sqState t c = sqRUNNING) ∧ (vreg t c d = 0 ∧ (flagsOf t c).z = true)
        ∧ (ch, rd s F.BCN_CH_CFG_CONSUMER ch, true) ∈ t.beacons := by
  refine answers_awaited hc hworks hempty hstall rfl fun t ht => ?_
  have hadm : admits (rd s F.BCN_CH_CFG_ATTR ch) (coreMid c) = true := by
    unfold admits coreMid
    rw [isOpen_core hc, Bool.not_false, Bool.or_true]
  have hcons : rd (setBit s F.BCN_FIRE_CH 0 ch) F.BCN_CH_CFG_CONSUMER ch = rd s F.BCN_CH_CFG_CONSUMER ch := by
    rw [setBit_eq, rd_wr_field _ _ _ _ _ _ (by decide)]
  let u : State := { setBit s F.BCN_FIRE_CH 0 ch with
    beacons := s.beacons ++ [(ch, rd s F.BCN_CH_CFG_CONSUMER ch, true)] }
  have hfire : fireChannel (setBit s F.BCN_FIRE_CH 0 ch) ch true = u := by
    rw [fireChannel_queues (by rwa [hcons]), hcons]; rfl
  have heq : answerReq s c (.fire ch) d = answerCore u c d 0 := by
    unfold answerReq request blockAnswer operandOk
    dsimp only
    rw [hreach, if_pos rfl, decide_eq_true (by omega : ch ≤ 47), if_pos rfl, fireRequest_ok hadm hen hown, hfire]
    exact okWord_answer u c d
  rw [heq] at ht
  have hpcu : pcOf u c = pcOf s c := congrArg (4 * ·) (rd_wr_field s F.BCN_FIRE_CH F.SQ_PC_PC 0 c _ (by decide))
  obtain ⟨hon, hok, hgo⟩ := okAnswered (u := u) (s := s) rfl hpcu hstep hpc ht
  refine ⟨hon, hok, ?_⟩
  rw [hgo.state_rest.1]
  exact List.mem_append_right _ (by simp)

/-- A pulse on time, wide enough, clear of the pulses before it and with room among them, is held as asked. -/
theorem placePulse_ok {n start w : Nat} (hp : paired s n = false) (hmin : effMin s n ≤ w) (hstart : s.tb ≤ start)
    (hroom : (trgAt s n).held.length < 8) (hclear : ∀ p ∈ (trgAt s n).cur.toList ++ (trgAt s n).held, p.stop ≤ start)
    (htwin : isSet s F.TRG_CFG_TWIN n = false) : placePulse s n start w none =
      (Answer.of stOK, setTrg s n { trgAt s n with held := (trgAt s n).held ++ [⟨start, start + w, none⟩] }) := by
  have hend : (lastEnd s n).any (fun e => decide (start < e)) = false := by
    unfold lastEnd ownerOf
    dsimp only
    rw [hp, if_neg Bool.false_ne_true]
    cases hlast : ((trgAt s n).cur.toList ++ (trgAt s n).held).getLast? with
    | none => rfl
    | some p =>
      have := hclear p (List.mem_of_getLast? hlast)
      exact decide_eq_false (by omega)
  unfold placePulse
  dsimp only
  rw [hp, if_neg Bool.false_ne_true, Nat.mul_zero, Nat.sub_zero, Nat.add_zero, Bool.false_and, if_neg Bool.false_ne_true,
    decide_eq_false (by omega : ¬ w < effMin s n), Bool.false_and, if_neg Bool.false_ne_true, if_neg (by omega),
    max_eq_left hstart, hend, if_neg Bool.false_ne_true, decide_eq_false (by omega : ¬ start < s.tb), if_neg Bool.false_ne_true,
    if_neg Bool.false_ne_true, if_neg Bool.false_ne_true, htwin, Bool.false_and, max_eq_left hmin]
  rfl

theorem answers_pulse {n start w : Nat} (hc : c < 8) (hworks : blockWorks s 15 = true) (hempty : (coreAt s c).storeQ = [])
    (hstep : (coreAt s c).stepping = false) (hpc : pcOf s c < 0x7FFC) (hstall : (coreAt s c).stall = .answer (.pulse n start w) d)
    (hn : n < 16) (hw : w < 2 ^ 32) (hreach : blockReach s 8 = true) (hdark : trgDark s n = false) (hp : paired s n = false)
    (hsrc : rd s F.TRG_CFG_SRC n = 1) (hmode : rd s F.TRG_CFG_MODE n ≠ 0) (hmin : effMin s n ≤ w) (hstart : s.tb ≤ start)
    (hroom : (trgAt s n).held.length < 8) (hclear : ∀ p ∈ (trgAt s n).cur.toList ++ (trgAt s n).held, p.stop ≤ start)
    (htwin : isSet s F.TRG_CFG_TWIN n = false) : Answers (exec (.deviceAnswer c none) s) fun t =>
        ((coreAt t c).stall = .none ∧ sqState t c = sqRUNNING) ∧ (vreg t c d = 0 ∧ (flagsOf t c).z = true)
        ∧ (trgAt t n).held = (trgAt s n).held ++ [⟨start, start + w, none⟩] := by
  refine answers_awaited hc hworks hempty hstall rfl fun t ht => ?_
  have hact : pulseAction s n start w =
      (Answer.of stOK, setTrg s n { trgAt s n with held := (trgAt s n).held ++ [⟨start, start + w, none⟩] }) := by
    unfold pulseAction
    rw [if_neg (by simp; omega), if_neg (by simp [hdark, hp, hsrc, hmode])]
    exact placePulse_ok hp hmin hstart hroom hclear htwin
  have heq : answerReq s c (.pulse n start w) d =
      answerCore (setTrg s n { trgAt s n with held := (trgAt s n).held ++ [⟨start, start + w, none⟩] }) c d 0 := by
    unfold answerReq request blockAnswer
    dsimp only
    rw [hreach, if_pos rfl, hact]
    exact okWord_answer _ c d
  rw [heq] at ht
  obtain ⟨hon, hok, hgo⟩ := okAnswered (u := setTrg s n _) (s := s) rfl rfl hstep hpc ht
  refine ⟨hon, hok, ?_⟩
  rw [trgAt_congr hgo.state_rest.2, trgAt_setTrg_same]

end

/-- Settles O18, clause by clause. -/
theorem answersReachTheWaitingCore : Obligations.AnswersReachTheWaitingCore := by
  intro s c d hc hworks hempty hstep goesOn okWord
  refine ⟨fun a n hstall hpc hstep => answers_deviceLoad hc hworks hempty hstall hpc hstep,
    fun m hpc hstall hm hreach hrecv hfull => answers_mbxrcv hc hworks hempty hstep hpc hstall hm hreach hrecv hfull,
    fun ch hpc hstall hch hreach hen hown hk => answers_fire hc hworks hempty hstep hpc hstall hch hreach hen hown hk,
    fun n start w hpc hstall hn hw hreach hdark hp hsrc hmode hmin hstart hroom hclear htwin =>
      answers_pulse hc hworks hempty hstep hpc hstall hn hw hreach hdark hp hsrc hmode hmin hstart hroom hclear htwin,
    fun m hpc hstall hm hreach hsend hfull => answers_mbxwdr hc hworks hempty hstep hpc hstall hm hreach hsend hfull⟩

end Sys2Proof.Machine
end

section
/-! Field channels: faults latch and darken, re-arm needs its test, general inputs fire (R600 to R609). -/
open Sys2Proof
namespace Sys2Proof.Machine

section
variable {s t u v : State} {c kind partner n : Nat}

/-! ### A fault is recorded -/

/-- What a recorded fault writes, beside what a firing producer does. -/
def recordFields : List Field :=
  [F.FIO_CH_STAT_KINDS, F.FIO_CH_LATCH_KINDS, F.FIO_CH_CNT_COUNT, F.FIO_CH_STAT_PARTNER, F.FIO_EVT_EVT]

/-- The kind on the channel, live, latched and counted. -/
def kindNoted (s : State) (c kind : Nat) : State :=
  bump (setBit (setBit s F.FIO_CH_STAT_KINDS c kind) F.FIO_CH_LATCH_KINDS c kind) F.FIO_CH_CNT_COUNT c

/-- The noted fault with its partner, before its capture. -/
def partnerNoted (s : State) (c kind partner : Nat) : State :=
  if kind = 3 || kind = 6 then wr (kindNoted s c kind) F.FIO_CH_STAT_PARTNER c (if kind = 3 && !isOutputCh s c then c else partner % 64)
  else kindNoted s c kind

theorem kindNoted_regsOnly (s : State) (c kind : Nat) : RegsOnly s (kindNoted s c kind) :=
  (((RegsOnly.refl s).setBit ..).setBit ..).bump ..

theorem partnerNoted_regsOnly (s : State) (c kind partner : Nat) : RegsOnly s (partnerNoted s c kind partner) :=
  RegsOnly.ite ((kindNoted_regsOnly s c kind).wr ..) (kindNoted_regsOnly s c kind)

theorem kindNoted_touches (s : State) (c kind : Nat) : Touches recordFields s (kindNoted s c kind) :=
  ((Touches.refl.wr _ _ _ (by simp [recordFields])).wr _ _ _ (by simp [recordFields])).wr _ _ _ (by simp [recordFields])

theorem partnerNoted_rest (s : State) (c kind partner : Nat) :
    Touches [F.FIO_CH_STAT_PARTNER] (kindNoted s c kind) (partnerNoted s c kind partner) :=
  Touches.ite (Touches.refl.wr _ _ _ (by simp)) .refl

/-- Which channels are outputs rests on the encoders' modes alone. -/
theorem isOutputCh_touches {fs : List Field} (h : Touches fs s t) (hfs : ∀ g ∈ fs, g.fid % 1024 ≠ F.ENC_CFG_MODE.fid % 1024) (c : Nat) :
    isOutputCh t c = isOutputCh s c := by
  unfold isOutputCh
  rw [h _ _ hfs, h _ _ hfs]

/-- The capture of a recorded fault, and the producer that its channel fires. -/
def kindCaptured (s : State) (c detail : Nat) : State :=
  let w := capture s (16 + c) detail
  if isSet w F.FIO_CH_CFG_PROD_EN c then fireProducer w (128 + rd w F.FIO_CH_CFG_PROD c) else w

theorem recordKind_shape (s : State) (c kind partner : Nat) : ∃ detail,
    recordKind s c kind partner = setBit (kindCaptured (partnerNoted s c kind partner) c detail) F.FIO_EVT_EVT 0 0 := by
  have hout : isOutputCh (kindNoted s c kind) c = isOutputCh s c := isOutputCh_touches (kindNoted_touches s c kind) (by decide) c
  refine ⟨2 ^ kind + (if kind = 3 || kind = 6 then 65536 * (if kind = 3 && !isOutputCh s c then c else partner % 64) else 0), ?_⟩
  unfold recordKind partnerNoted
  dsimp only
  rw [show bump (setBit (setBit s F.FIO_CH_STAT_KINDS c kind) F.FIO_CH_LATCH_KINDS c kind) F.FIO_CH_CNT_COUNT c = kindNoted s c kind
    from rfl, hout]
  rfl

theorem kindCaptured_rest (s : State) (c detail : Nat) : Touches beaconFields s (kindCaptured s c detail)
    ∧ ((captureAt (kindCaptured s c detail) (16 + c)).bank (captureAt s (16 + c)).active).latched = true := by
  have hcap := capture_touches s (16 + c) detail
  have hlatch := capture_latches s (16 + c) detail
  unfold kindCaptured
  dsimp only
  generalize capture s (16 + c) detail = w at *
  split
  · refine ⟨hcap.trans (fireProducer_touches _ _), ?_⟩
    rwa [captureAt_congr (fireProducer_firesOnly w _).captures]
  · exact ⟨hcap, hlatch⟩

/-- A recorded fault is live, latched, counted and captured, with FIO_EVT bit 0. -/
theorem recordKind_records (hkind : kind < 7) (s : State) (c partner : Nat) : let t := recordKind s c kind partner
    hasBit t F.FIO_CH_STAT_KINDS c kind = true ∧ hasBit t F.FIO_CH_LATCH_KINDS c kind = true
    ∧ rd t F.FIO_CH_CNT_COUNT c = min (rd s F.FIO_CH_CNT_COUNT c + 1) (2 ^ F.FIO_CH_CNT_COUNT.width - 1)
    ∧ hasBit t F.FIO_EVT_EVT 0 0 = true
    ∧ ((captureAt t (16 + c)).bank (captureAt s (16 + c)).active).latched = true
    ∧ Touches (recordFields ++ beaconFields) s t := by
  obtain ⟨detail, heq⟩ := recordKind_shape s c kind partner
  have hpart := partnerNoted_rest s c kind partner
  have hnote := kindNoted_touches s c kind
  obtain ⟨hcap, hlatch⟩ := kindCaptured_rest (partnerNoted s c kind partner) c detail
  have hcaps : captureAt (partnerNoted s c kind partner) (16 + c) = captureAt s (16 + c) :=
    captureAt_congr (partnerNoted_regsOnly s c kind partner).firesOnly.captures _
  rw [hcaps] at hlatch
  generalize kindCaptured (partnerNoted s c kind partner) c detail = w at *
  have hw (f : Field) (i : Nat) (h₁ : F.FIO_EVT_EVT.fid % 1024 ≠ f.fid % 1024) (h₂ : ∀ g ∈ beaconFields, g.fid % 1024 ≠ f.fid % 1024)
      (h₃ : ∀ g ∈ [F.FIO_CH_STAT_PARTNER], g.fid % 1024 ≠ f.fid % 1024) :
      rd (setBit w F.FIO_EVT_EVT 0 0) f i = rd (kindNoted s c kind) f i := by
    rw [setBit_eq, rd_wr_field _ _ _ _ _ _ h₁, hcap _ _ h₂, hpart _ _ h₃]
  have hlat : hasBit (setBit (setBit s F.FIO_CH_STAT_KINDS c kind) F.FIO_CH_LATCH_KINDS c kind) F.FIO_CH_LATCH_KINDS c kind = true :=
    hasBit_setBit _ _ _ _ hkind
  have hliv : hasBit (setBit s F.FIO_CH_STAT_KINDS c kind) F.FIO_CH_STAT_KINDS c kind = true := hasBit_setBit _ _ _ _ hkind
  intro t
  have htdef : t = setBit w F.FIO_EVT_EVT 0 0 := heq
  rw [htdef]
  refine ⟨?_, ?_, ?_, hasBit_setBit _ _ _ _ (by decide), hlatch, ?_⟩
  · unfold hasBit at *
    rw [hw _ _ (by decide) (by decide) (by decide), kindNoted, bump_eq, rd_wr_field _ _ _ _ _ _ (by decide), setBit_eq,
      rd_wr_field _ _ _ _ _ _ (by decide)]
    exact hliv
  · unfold hasBit at *
    rw [hw _ _ (by decide) (by decide) (by decide), kindNoted, bump_eq, rd_wr_field _ _ _ _ _ _ (by decide)]
    exact hlat
  · rw [hw _ _ (by decide) (by decide) (by decide), kindNoted, rd_bump, setBit_eq, rd_wr_field _ _ _ _ _ _ (by decide), setBit_eq,
      rd_wr_field _ _ _ _ _ _ (by decide)]
  · refine Touches.wr ?_ _ _ _ (by simp [recordFields])
    refine (hnote.mono fun f hf => List.mem_append_left _ hf).trans ((hpart.mono (by simp [recordFields])).trans ?_)
    exact hcap.mono fun f hf => List.mem_append_right _ hf

/-! ### A confirmed fault -/

/-- A mask of one kind that the channel can show and does not show confirms that kind. -/
theorem faultsConfirm_one (hfit : kindFits s c kind = true) (hnew : hasBit s F.FIO_CH_STAT_KINDS c kind = false) (hkind : kind < 7) :
    faultsConfirm s c (2 ^ kind) partner = faultConfirm s c kind partner := by
  have hlist : kindsNew s c (2 ^ kind) = [kind] := by
    unfold kindsNew
    rw [List.filter_congr (q := fun k => k == kind) fun k _ => ?_]
    · exact (by decide : ∀ k < 7, (List.range 7).filter (fun j => j == k) = [k]) kind hkind
    · rw [Nat.testBit_two_pow, Nat.testBit_two_pow]
      by_cases hk : k = kind
      · subst hk
        rw [hfit, hnew]
        by_cases h3 : k = 3
        · simp [h3]
        · simp [h3]
      · simp [hk, Ne.symm hk]
  unfold faultsConfirm
  rw [hlist]
  rfl

/-- A channel of a kind that fits it is a pin, VFIELD or the display, and the kind is below 7. -/
theorem kind_lt_of_fits (h : kindFits s c kind = true) : kind < 7 := by
  unfold kindFits at h
  split at h
  · have := of_decide_eq_true h; omega
  split at h
  · rw [beq_iff_eq] at h; omega
  split at h
  · exact absurd h Bool.false_ne_true
  split at h
  · simp only [Bool.or_eq_true, Bool.and_eq_true, beq_iff_eq] at h; omega
  split at h
  · have := of_decide_eq_true h; omega
  · simp only [Bool.and_eq_true, beq_iff_eq] at h; omega

/-- An output that goes dark at high-impedance is held so. -/
theorem goDark_hiZ (s : State) (cause : Nat) (hc : isOutputCh s c = true) : sget (goDark s cause true c).hiZ false c = true := by
  have htail (w : State) (n : Nat) : (poDarkOf (discardPulses w n true) n).hiZ = w.hiZ := by
    have hd : (discardPulses w n true).hiZ = w.hiZ := by
      unfold discardPulses
      dsimp only
      refine List.foldlRecOn (motive := fun t : State => t.hiZ = w.hiZ) _ _ rfl fun t ht m _ => ?_
      unfold refreshTrg
      rw [wrBool_eq]
      split <;> exact ht
    unfold poDarkOf
    refine List.foldlRecOn (motive := fun t : State => t.hiZ = w.hiZ) _ _ hd fun t ht p _ => ?_
    unfold poDark
    dsimp only
    split
    · split <;> exact ht
    · exact ht
  unfold goDark
  rw [hc, if_neg (by decide)]
  dsimp only
  rw [if_pos rfl]
  split
  · rw [htail]
    exact sget_sset_same s.hiZ false c true
  · exact sget_sset_same s.hiZ false c true

/-- What a recorded fault does to the outputs and the display. -/
def faultActs (s : State) (c kind partner : Nat) : State :=
  if c = 36 then goDarkAll (vfStat s false) 5 true
  else if c = 37 then { s with segLimited := partner % 64 :: s.segLimited, segDrive := sset s.segDrive 0 (partner % 64) 0 }
  else if isOutputCh s c then
    if kind = 0 then (if isSet s F.FIO_CH_CFG_OPEN_REPORT_ONLY c then s else goDark s 1 false c)
    else goDark s 1 true c
  else s

theorem faultConfirm_eq (s : State) (c kind partner : Nat) :
    faultConfirm s c kind partner = faultActs (recordKind s c kind partner) c kind partner := rfl

theorem vfStat_touches (s : State) (b : Bool) : Touches [F.FIO_VF_STAT_FAULT, F.FIO_VF_STAT_OK, F.FIO_EVT_EVT] s (vfStat s b) := by
  unfold vfStat
  dsimp only
  rw [wrBool_eq]
  split
  · exact (Touches.refl.wr _ _ _ (by simp)).wr _ _ _ (by simp)
  · exact ((Touches.refl.wr _ _ _ (by simp)).wr _ _ _ (by simp)).wr _ _ _ (by simp)

theorem vfStat_regsOnly (s : State) (b : Bool) : RegsOnly s (vfStat s b) := by
  unfold vfStat
  dsimp only
  split
  · exact ((RegsOnly.refl s).wr ..).wrBool ..
  · exact (((RegsOnly.refl s).wr ..).wrBool ..).setBit ..

/-- A VFIELD fault clears OK and clears no event. -/
theorem vfStat_fault (s : State) : rd (vfStat s false) F.FIO_VF_STAT_OK = 0
    ∧ (hasBit s F.FIO_EVT_EVT 0 0 = true → hasBit (vfStat s false) F.FIO_EVT_EVT 0 0 = true) := by
  let w : State := wrBool (wr s F.FIO_VF_STAT_FAULT 0 (rd s F.FIO_CH_STAT_KINDS 36)) F.FIO_VF_STAT_OK 0 false
  have hok : rd w F.FIO_VF_STAT_OK = 0 := by
    unfold w; rw [wrBool_eq, rd_wr_same]; rfl
  have hevt : rd w F.FIO_EVT_EVT 0 = rd s F.FIO_EVT_EVT 0 := by
    unfold w; rw [wrBool_eq, rd_wr_field _ _ _ _ _ _ (by decide), rd_wr_field _ _ _ _ _ _ (by decide)]
  have heq : vfStat s false = if isSet s F.FIO_VF_STAT_OK = false then w else setBit w F.FIO_EVT_EVT 0 3 := rfl
  rw [heq]
  refine ⟨?_, fun h => ?_⟩
  · split
    · exact hok
    · rw [setBit_eq, rd_wr_field _ _ _ _ _ _ (by decide)]; exact hok
  · have h' : hasBit w F.FIO_EVT_EVT 0 0 = true := by unfold hasBit at *; rwa [hevt]
    split
    · exact h'
    · exact hasBit_setBit_of _ _ _ _ _ (by decide) h'

/-- What a recorded fault does leaves the record: the kinds, the latch, the count, the capture and the event. -/
theorem faultActs_rest (s : State) (c kind partner : Nat) : let t := faultActs s c kind partner
    Touches (darkFields ++ [F.FIO_VF_STAT_FAULT, F.FIO_VF_STAT_OK, F.FIO_EVT_EVT]) s t
    ∧ t.captures = s.captures ∧ (hasBit s F.FIO_EVT_EVT 0 0 = true → hasBit t F.FIO_EVT_EVT 0 0 = true) := by
  have hdark (w : State) (ht : Touches darkFields s w) (hc : w.captures = s.captures) :
      Touches (darkFields ++ [F.FIO_VF_STAT_FAULT, F.FIO_VF_STAT_OK, F.FIO_EVT_EVT]) s w
      ∧ w.captures = s.captures ∧ (hasBit s F.FIO_EVT_EVT 0 0 = true → hasBit w F.FIO_EVT_EVT 0 0 = true) := by
    refine ⟨ht.mono fun f hf => List.mem_append_left _ hf, hc, fun h => ?_⟩
    unfold hasBit at *
    rwa [ht _ _ (by decide)]
  intro t
  unfold t faultActs
  split
  · have hall := goDarkAll_touches (vfStat s false) 5 true
    refine ⟨((vfStat_touches s false).mono fun f hf => List.mem_append_right _ hf).trans (hall.mono fun f hf => List.mem_append_left _ hf),
      (goDarkAll_darkOnly _ 5 true).captures.trans (vfStat_regsOnly s false).firesOnly.captures, fun h => ?_⟩
    have hv := (vfStat_fault s).2 h
    unfold hasBit at *
    rwa [hall _ _ (by decide)]
  split
  · exact hdark _ (.of_regs rfl) rfl
  split
  · split
    · split
      · exact hdark s .refl rfl
      · exact hdark _ (goDark_touches s 1 false c) (goDark_darkOnly s 1 false c).captures
    · exact hdark _ (goDark_touches s 1 true c) (goDark_darkOnly s 1 true c).captures
  · exact hdark s .refl rfl

/-- VFIELD and the display are no outputs. -/
theorem output_ne (h : isOutputCh s c = true) : c ≠ 36 ∧ c ≠ 37 := by
  unfold isOutputCh at h
  simp only [Bool.or_eq_true, Bool.and_eq_true, decide_eq_true_eq, beq_iff_eq] at h
  omega

theorem faultActs_output (ho : isOutputCh s c = true) (hk : kind ≠ 0) : faultActs s c kind partner = goDark s 1 true c := by
  obtain ⟨h36, h37⟩ := output_ne ho
  unfold faultActs
  rw [if_neg h36, if_neg h37, ho, if_pos rfl, if_neg hk]

theorem faultActs_vfield (s : State) (kind partner : Nat) : faultActs s 36 kind partner = goDarkAll (vfStat s false) 5 true := by
  unfold faultActs
  rw [if_pos rfl]

theorem answers_fioFaultConfirm (hc : c < 38) (hfit : kindFits s c kind = true) (hnew : hasBit s F.FIO_CH_STAT_KINDS c kind = false) :
      Answers (exec (.fioFaultConfirm c (2 ^ kind) partner) s) fun t =>
        hasBit t F.FIO_CH_STAT_KINDS c kind = true ∧ hasBit t F.FIO_CH_LATCH_KINDS c kind = true
        ∧ rd t F.FIO_CH_CNT_COUNT c = min (rd s F.FIO_CH_CNT_COUNT c + 1) (2 ^ F.FIO_CH_CNT_COUNT.width - 1)
        ∧ hasBit t F.FIO_EVT_EVT 0 0 = true
        ∧ ((captureAt t (16 + c)).bank (captureAt s (16 + c)).active).latched = true
        ∧ (isOutputCh s c = true → kind ≠ 0 → isSet t F.FIO_CH_STAT_DARK c = true ∧ sget t.hiZ false c = true)
        ∧ (c = 36 → (∀ n, n < 16 → trgDark t n = true) ∧ rd t F.FIO_VF_STAT_OK = 0) := by
  have hkind := kind_lt_of_fits hfit
  have heq : faultsConfirm s c (2 ^ kind) partner = faultActs (recordKind s c kind partner) c kind partner :=
    faultsConfirm_one hfit hnew hkind
  obtain ⟨w, hw⟩ : ∃ w, w = recordKind s c kind partner := ⟨_, rfl⟩
  obtain ⟨hlive, hlat, hcnt, hevt, hcap, ht⟩ := recordKind_records hkind s c partner
  rw [← hw] at heq hlive hlat hcnt hevt hcap ht
  obtain ⟨hact, hcaps, hev⟩ := faultActs_rest w c kind partner
  have hout : isOutputCh w c = isOutputCh s c := isOutputCh_touches ht (by decide) c
  refine answers_onUnit (n := c) (f := fun s => faultsConfirm s c (2 ^ kind) partner) hc fun t hs => ?_
  rw [heq] at hs
  refine ⟨?_, ?_, ?_, (hs.hasBit ..).trans (hev hevt), ?_, fun ho hk0 => ?_, fun h36 => ?_⟩
  · rw [hs.hasBit]; unfold hasBit at *; rwa [hact _ _ (by decide)]
  · rw [hs.hasBit]; unfold hasBit at *; rwa [hact _ _ (by decide)]
  · rw [hs.rd, hact _ _ (by decide), hcnt]
  · rwa [captureAt_congr (hs.captures.trans hcaps)]
  · rw [faultActs_output (hout.trans ho) hk0] at hs
    refine ⟨?_, ?_⟩
    · rw [isSet_congr (hs.rd _ _)]; exact goDark_dark w 1 true (hout.trans ho)
    · rw [hs.hiZ]; exact goDark_hiZ w 1 (hout.trans ho)
  · rw [h36, faultActs_vfield] at hs
    refine ⟨fun n hn => ?_, ?_⟩
    · unfold trgDark; rw [isSet_congr (hs.rd _ _)]; exact goDarkAll_dark _ 5 true hn
    · rw [hs.rd, goDarkAll_touches (vfStat w false) 5 true _ _ (by decide)]; exact (vfStat_fault w).1

/-! ### A condition ends -/

/-- A bit beyond its field is not set. -/
theorem hasBit_beyond {f : Field} {i j : Nat} (h : f.width ≤ j) : hasBit s f i j = false :=
  Nat.testBit_eq_false_of_lt ((rd_lt s f i).trans_le (Nat.pow_le_pow_right (by decide) h))

theorem hasBit_clearBits_pow (s : State) (f : Field) (i b j : Nat) :
    hasBit (clearBits s f i (2 ^ b)) f i j = (hasBit s f i j && decide (j ≠ b)) := by
  by_cases hj : j < f.width
  · rw [hasBit_clearBits _ _ _ _ _ hj, Nat.testBit_two_pow]
    by_cases h : j = b
    · subst h; simp
    · simp [h, Ne.symm h]
  · rw [hasBit_beyond (by omega), hasBit_beyond (by omega)]
    rfl

/-- A live condition of a channel other than VFIELD that ends clears its kind, and the partner of the last one. -/
theorem faultClear_clears (hc : c ≠ 36) (kind : Nat) :
    (∀ j, hasBit (faultClear s c kind) F.FIO_CH_STAT_KINDS c j = (hasBit s F.FIO_CH_STAT_KINDS c j && decide (j ≠ kind)))
    ∧ RegsOnly s (faultClear s c kind) ∧ Keeps [(F.FIO_CH_STAT_KINDS, c), (F.FIO_CH_STAT_PARTNER, c)] s (faultClear s c kind) := by
  have hclr : Keeps [(F.FIO_CH_STAT_KINDS, c), (F.FIO_CH_STAT_PARTNER, c)] s (clearBits s F.FIO_CH_STAT_KINDS c (2 ^ kind)) :=
    (Keeps.refl _ s).wr _ _ _ (by simp)
  have hbits := hasBit_clearBits_pow s F.FIO_CH_STAT_KINDS c kind
  have hregs : RegsOnly s (clearBits s F.FIO_CH_STAT_KINDS c (2 ^ kind)) := (RegsOnly.refl s).wr ..
  unfold faultClear
  dsimp only
  rw [if_neg hc]
  generalize clearBits s F.FIO_CH_STAT_KINDS c (2 ^ kind) = w at *
  refine ⟨fun j => ?_, RegsOnly.ite (hregs.wr ..) hregs, ?_⟩
  · rw [← hbits j]
    split
    · unfold hasBit; rw [rd_wr_field _ _ _ _ _ _ (by decide)]
    · rfl
  · split
    · exact hclr.wr _ _ _ (by simp)
    · exact hclr

theorem answers_fioFaultClear (hc : c < 38) (h36 : c ≠ 36) (h4 : kind ≠ 4) (hlive : hasBit s F.FIO_CH_STAT_KINDS c kind = true) :
      Answers (exec (.fioFaultClear c kind) s) fun t =>
        hasBit t F.FIO_CH_STAT_KINDS c kind = false
        ∧ (∀ j, j ≠ kind → hasBit t F.FIO_CH_STAT_KINDS c j = hasBit s F.FIO_CH_STAT_KINDS c j)
        ∧ Changes [(F.FIO_CH_STAT_KINDS, c), (F.FIO_CH_STAT_PARTNER, c)] s t := by
  obtain ⟨hbits, hregs, hkeep⟩ := faultClear_clears (s := s) h36 kind
  refine answers_onUnit (n := c) (f := fun s => if kind ≠ 4 && hasBit s F.FIO_CH_STAT_KINDS c kind then faultClear s c kind else s) hc
    fun t ht => ?_
  rw [hlive, decide_eq_true h4, if_pos (by decide)] at ht
  refine ⟨?_, fun j hj => ?_, hregs.changes ht hkeep⟩
  · rw [ht.hasBit, hbits, decide_eq_false (by simp), Bool.and_false]
  · rw [ht.hasBit, hbits, decide_eq_true hj, Bool.and_true]

theorem answers_idleWindow_shown {ticks : Nat} (hc : c < 12) (hdiff : isDifferential s c = true)
    (hchk : isSet s F.FIO_CH_CFG_IDLE_CHK c = true) (hshown : 7 * (1000 * rd s F.FIO_CH_CFG_IDLE_WIN_MS c) < 8 * ticks)
    (hmay : reversedMay s c = true) (hnew : hasBit s F.FIO_CH_STAT_KINDS c 4 = false) : Answers (exec (.idleWindowEnd c ticks) s) fun t =>
      hasBit t F.FIO_CH_STAT_KINDS c 4 = true ∧ hasBit t F.FIO_CH_LATCH_KINDS c 4 = true := by
  obtain ⟨hlive, hlat, -⟩ := recordKind_records (kind := 4) (by decide) s c 0
  have heq : idleWindowEnd s c ticks = recordKind s c 4 0 := by
    unfold idleWindowEnd idleShown
    dsimp only
    rw [hdiff, hchk, hmay, hnew, decide_eq_true hshown]
    rfl
  refine answers_onUnit (n := c) (f := fun s => idleWindowEnd s c ticks) hc fun t ht => ?_
  rw [heq] at ht
  exact ⟨(ht.hasBit ..).trans hlive, (ht.hasBit ..).trans hlat⟩

theorem answers_idleWindow_over {ticks : Nat} (hc : c < 12) (hdiff : isDifferential s c = true)
    (hchk : isSet s F.FIO_CH_CFG_IDLE_CHK c = true) (hover : 8 * ticks ≤ 7 * (1000 * rd s F.FIO_CH_CFG_IDLE_WIN_MS c))
    (hlive : hasBit s F.FIO_CH_STAT_KINDS c 4 = true) : Answers (exec (.idleWindowEnd c ticks) s) fun t =>
      hasBit t F.FIO_CH_STAT_KINDS c 4 = false ∧ Changes [(F.FIO_CH_STAT_KINDS, c), (F.FIO_CH_STAT_PARTNER, c)] s t := by
  obtain ⟨hbits, hregs, hkeep⟩ := faultClear_clears (s := s) (c := c) (by omega) 4
  have heq : idleWindowEnd s c ticks = faultClear s c 4 := by
    unfold idleWindowEnd idleShown
    dsimp only
    rw [hdiff, hchk, hlive, decide_eq_false (by omega)]
    rfl
  refine answers_onUnit (n := c) (f := fun s => idleWindowEnd s c ticks) hc fun t ht => ?_
  rw [heq] at ht
  refine ⟨?_, hregs.changes ht hkeep⟩
  rw [ht.hasBit, hbits, decide_eq_false (by simp), Bool.and_false]

/-! ### Re-arm and dark -/

/-- An access of a field channel over the link. -/
theorem answers_fioReach {cnt : Nat} {f : State → State} {P : State → Prop} (hc : c < cnt) (hup : isSet s F.GLB_STATUS_D2D_UP = true)
    (hreach : blockReach s 9 = true) (h : ∀ t, Settled (f s) t → P t) : Answers (onUnit c cnt s fun s => fioReach s f) P := by
  refine answers_onUnit hc fun t ht => h t ?_
  have heq : fioReach s f = f s := by
    unfold fioReach
    rw [hup, if_pos rfl]
    exact if_pos hreach
  rwa [heq] at ht

theorem answers_rearm_input (hup : isSet s F.GLB_STATUS_D2D_UP = true) (hreach : blockReach s 9 = true) (hc : c < 38)
    (hin : isOutputCh s c = false) : Answers (exec (.fioRearm c) s) fun t =>
      rd t F.FIO_CH_LATCH_KINDS c = 0 ∧ Changes [(F.FIO_CH_LATCH_KINDS, c)] s t := by
  have heq : fioArm s c = wr s F.FIO_CH_LATCH_KINDS c 0 := by
    unfold fioArm
    rw [if_neg (by omega), hin]
    rfl
  refine answers_fioReach (c := c) (f := fun s => fioArm s c) (show c < 48 by omega) hup hreach fun t ht => ?_
  rw [heq] at ht
  exact ⟨(ht.rd ..).trans (rd_wr_same ..), ((RegsOnly.refl s).wr ..).changes ht ((Keeps.refl _ s).wr _ _ _ (by simp))⟩

section
variable (hup : isSet s F.GLB_STATUS_D2D_UP = true) (hreach : blockReach s 9 = true) (hc : c < 28) (hout : isOutputCh s c = true)
  (hdark : isSet s F.FIO_CH_STAT_DARK c = true) (harm : isSet s F.FIO_CH_STAT_ARMING c = false) (hnow : s.darkNow.testBit c = false)
include hup hreach hc hout hdark harm hnow

theorem answers_rearm_refused (href : rearmRefused s c = true) : Answers (exec (.fioRearm c) s) fun t =>
    hasBit t F.FIO_EVT_EVT 0 2 = true ∧ Changes [(F.FIO_EVT_EVT, 0)] s t := by
  have heq : fioArm s c = setBit s F.FIO_EVT_EVT 0 2 := by
    unfold fioArm
    rw [if_neg (by omega), hout, hdark, harm, hnow, href]
    rfl
  refine answers_fioReach (c := c) (f := fun s => fioArm s c) (show c < 48 by omega) hup hreach fun t ht => ?_
  rw [heq] at ht
  exact ⟨(ht.hasBit ..).trans (hasBit_setBit _ _ _ _ (by decide)),
    ((RegsOnly.refl s).setBit ..).changes ht ((Keeps.refl _ s).wr _ _ _ (by simp))⟩

theorem answers_rearm_tests (href : rearmRefused s c = false) (hown : 12 ≤ c → isSet s F.TRG_CFG_TWIN (c - 12) = false) :
    Answers (exec (.fioRearm c) s) fun t =>
      rd t F.FIO_CH_STAT_ARMING c = 1 ∧ Keeps [(F.FIO_CH_STAT_ARMING, c)] s t
      ∧ sget t.armAt 0 c = s.ns ∧ Settled { s with regs := t.regs, armAt := t.armAt } t := by
  have htwin : (decide (12 ≤ c) && isSet s F.TRG_CFG_TWIN (c - 12) && !isSet s F.TWN_STATUS_DRIVING) = false := by
    by_cases h : 12 ≤ c
    · rw [hown h, Bool.and_false, Bool.false_and]
    · rw [decide_eq_false h, Bool.false_and, Bool.false_and]
  have heq : fioArm s c = wr { s with armAt := sset s.armAt 0 c s.ns } F.FIO_CH_STAT_ARMING c 1 := by
    unfold fioArm
    rw [if_neg (by omega), hout, hdark, harm, hnow, href, htwin]
    rfl
  refine answers_fioReach (c := c) (f := fun s => fioArm s c) (show c < 48 by omega) hup hreach fun t ht => ?_
  rw [heq] at ht
  refine ⟨(ht.rd ..).trans (rd_wr_same ..), ht.keeps ?_, ?_, ?_⟩
  · exact (Keeps.refl _ ({ s with armAt := sset s.armAt 0 c s.ns } : State)).wr _ _ _ (by simp)
  · rw [ht.armAt]; exact sget_sset_same s.armAt 0 c s.ns
  · have hr := ht.regs
    have ha := ht.armAt
    unfold Settled at *
    rw [hr, ha]; exact ht

end

/-- What pulse outputs discard on a dark pair is theirs. -/
theorem poDarkOf_touches_po (s : State) (n : Nat) : Touches [F.PO_STATUS_BACKLOG, F.PO_LOST_COUNT] s (poDarkOf s n) :=
  Touches.foldl _ _ (fun u p => Touches.ite (poDark_touches u p) .refl) s

theorem poDarkOf_regsOnly (s : State) (n : Nat) : RegsOnly s (poDarkOf s n) := by
  refine foldl_frame RegsOnly.refl RegsOnly.trans (fun u p => RegsOnly.ite ?_ (.refl u)) _ s
  unfold poDark
  dsimp only
  exact RegsOnly.ite (.refl u) (((RegsOnly.refl u).wr ..).wr ..)

theorem discardPulses_single (hp : paired s n = false) : discardPulses s n true =
    refreshTrg (darkDrop (setTrg s n TrgOut.init) n (trgAt s n).held.length) n := by
  have hp' : paired (setTrg s n TrgOut.init) n = false := hp
  unfold discardPulses ownerOf outsOf
  dsimp only
  rw [hp, if_neg Bool.false_ne_true, hp', if_neg Bool.false_ne_true, List.foldl_cons, List.foldl_nil, beq_self_eq_true, Bool.true_or,
    Bool.and_self, if_pos rfl]

theorem answers_fioDarkCmd (hup : isSet s F.GLB_STATUS_D2D_UP = true) (hreach : blockReach s 9 = true) (hn : n < 16)
    (hp : paired s n = false) (hlit : trgDark s n = false) : Answers (exec (.fioDarkCmd (12 + n)) s) fun t =>
        trgDark t n = true ∧ rd t F.FIO_CH_STAT_DARK_CAUSE (12 + n) = 7 ∧ (trgAt t n).held = [] ∧ (trgAt t n).cur = none
        ∧ rd t F.TRG_STATUS_ACTIVE n = 0
        ∧ rd t F.TRG_DARK_DROP_COUNT n
          = min (rd s F.TRG_DARK_DROP_COUNT n + (trgAt s n).held.length) (2 ^ F.TRG_DARK_DROP_COUNT.width - 1) := by
  let w : State := wr (wr (wr { s with darkNow := s.darkNow ||| 2 ^ (12 + n) } F.FIO_CH_STAT_DARK (12 + n) 1)
    F.FIO_CH_STAT_DARK_CAUSE (12 + n) 7) F.FIO_CH_STAT_ARMING (12 + n) 0
  have hw : Touches [F.FIO_CH_STAT_DARK, F.FIO_CH_STAT_DARK_CAUSE, F.FIO_CH_STAT_ARMING] s w :=
    (((Touches.of_regs rfl : Touches _ s { s with darkNow := s.darkNow ||| 2 ^ (12 + n) }).wr _ _ _ (by simp)).wr _ _ _ (by simp)).wr _ _ _
      (by simp)
  have hout : isOutputCh ({ s with darkNow := s.darkNow ||| 2 ^ (12 + n) } : State) (12 + n) = true := by
    unfold isOutputCh
    simp only [Bool.or_eq_true, Bool.and_eq_true, decide_eq_true_eq]
    omega
  have hwas : isSet ({ s with darkNow := s.darkNow ||| 2 ^ (12 + n) } : State) F.FIO_CH_STAT_DARK (12 + n) = false := hlit
  have hpw : paired w n = false := (isSet_congr (hw F.TRG_PAIR_CFG_EN (n / 2) (by decide))).trans hp
  have hdrop := discardPulses_single hpw
  have heq : fioDark s (12 + n) = poDarkOf (discardPulses w n true) n := by
    unfold fioDark goDark
    rw [hout, hwas, if_neg (by decide)]
    simp only [Bool.false_eq_true, false_and, if_false, Bool.not_false, Bool.true_and, Nat.le_add_right, decide_true, if_true,
      Nat.add_sub_cancel_left]
    rfl
  have htrgw : trgAt w n = trgAt s n := rfl
  have htail := poDarkOf_touches_po (discardPulses w n true) n
  have honly := poDarkOf_regsOnly (discardPulses w n true) n
  rw [hdrop, htrgw] at htail honly heq
  let x : State := darkDrop (setTrg w n TrgOut.init) n (trgAt s n).held.length
  have hx : Touches [F.TRG_DARK_DROP_COUNT, F.TRG_EVT_EVT] w x :=
    ((Touches.of_regs rfl : Touches _ w (setTrg w n TrgOut.init)).wr _ _ _ (by simp)).wr _ _ _ (by simp)
  have hdarkx : trgDark x n = true := by
    unfold trgDark isSet
    rw [hx _ _ (by decide)]
    unfold w
    simp (disch := decide) only [rd_wr_field, rd_wr_same]
    rfl
  have hidle : idleActive x n = false := by
    unfold idleActive
    rw [hdarkx, Bool.or_true, if_pos rfl]
  have hfin : refreshTrg x n = wr x F.TRG_STATUS_ACTIVE n 0 := by
    unfold refreshTrg
    rw [hidle]
    rfl
  change Touches _ (refreshTrg x n) _ at htail
  change RegsOnly (refreshTrg x n) _ at honly
  change _ = poDarkOf (refreshTrg x n) n at heq
  rw [hfin] at htail honly heq
  refine answers_fioReach (c := 12 + n) (f := fun s => fioDark s (12 + n)) (show 12 + n < 48 by omega) hup hreach fun t ht => ?_
  rw [heq] at ht
  have hat : trgAt t n = TrgOut.init := by
    have h₁ : (poDarkOf (wr x F.TRG_STATUS_ACTIVE n 0) n).trg = x.trg := by have e := congrArg State.trg honly; exact e
    rw [trgAt_congr (ht.trg.trans h₁)]
    exact trgAt_setTrg_same w n TrgOut.init
  refine ⟨?_, ?_, by rw [hat]; rfl, by rw [hat]; rfl, ?_, ?_⟩
  · unfold trgDark at *
    rw [isSet_congr (ht.rd _ _), isSet_congr (htail _ _ (by decide)), isSet_congr (rd_wr_field _ _ _ _ _ _ (by decide))]
    exact hdarkx
  · rw [ht.rd, htail _ _ (by decide), rd_wr_field _ _ _ _ _ _ (by decide), hx _ _ (by decide)]
    unfold w
    simp (disch := decide) only [rd_wr_field, rd_wr_same]
    rfl
  · rw [ht.rd, htail _ _ (by decide), rd_wr_same]; rfl
  · rw [ht.rd, htail _ _ (by decide), rd_wr_field _ _ _ _ _ _ (by decide)]
    unfold x darkDrop trgEvt
    rw [setBit_eq, rd_wr_field _ _ _ _ _ _ (by decide), bumpBy, rd_wr_same, rd_setTrg, hw _ _ (by decide)]
    exact Nat.mod_eq_of_lt (by have := Nat.two_pow_pos F.TRG_DARK_DROP_COUNT.width; omega)

theorem answers_fioClrCounts (hup : isSet s F.GLB_STATUS_D2D_UP = true) (hreach : blockReach s 9 = true) :
    Answers (exec .fioClrCounts s) fun t =>
        (∀ c, c < 48 → rd t F.FIO_CH_CNT_COUNT c = 0) ∧ Changes ((List.range 48).map fun c => (F.FIO_CH_CNT_COUNT, c)) s t := by
  have hclr (l : List Nat) (u : State) : ∀ c ∈ l, rd (l.foldl (fun s c => wr s F.FIO_CH_CNT_COUNT c 0) u) F.FIO_CH_CNT_COUNT c = 0 := by
    induction l generalizing u with
    | nil => intro c hc; simp at hc
    | cons x l ih =>
      intro c hc
      rw [List.foldl_cons]
      by_cases hcl : c ∈ l
      · exact ih _ c hcl
      · obtain rfl : c = x := by simpa [hcl] using hc
        refine List.foldlRecOn (motive := fun t : State => rd t F.FIO_CH_CNT_COUNT c = 0) l _ (rd_wr_same ..) fun t ht y hy => ?_
        rw [rd_wr_inst _ _ _ _ fun e => hcl (by rw [← e]; exact hy)]
        exact ht
  have hkeep : Keeps ((List.range 48).map fun c => (F.FIO_CH_CNT_COUNT, c)) s (fioClear s) := by
    refine List.foldlRecOn (motive := fun t : State => Keeps _ s t) (List.range 48) _ (Keeps.refl _ s) fun t ht c hc => ?_
    exact ht.wr _ _ _ (List.mem_map.mpr ⟨c, hc, rfl⟩)
  have hregs : RegsOnly s (fioClear s) :=
    List.foldlRecOn (motive := fun t : State => RegsOnly s t) (List.range 48) _ (RegsOnly.refl s) fun t ht c _ => ht.wr _ _ _
  refine answers_finish (u := fioReach s fioClear) fun t ht => ?_
  have heq : fioReach s fioClear = fioClear s := by
    unfold fioReach
    rw [hup, if_pos rfl]
    exact if_pos hreach
  rw [heq] at ht
  exact ⟨fun c hc => (ht.rd ..).trans (hclr (List.range 48) s c (List.mem_range.mpr hc)), hregs.changes ht hkeep⟩

/-! ### The re-arm test ends -/

/-- An output that leaves dark is neither dark nor under test. -/
theorem leaveDark_lights (s : State) (c : Nat) : rd (leaveDark s c) F.FIO_CH_STAT_DARK c = 0
    ∧ rd (leaveDark s c) F.FIO_CH_STAT_DARK_CAUSE c = 0 ∧ rd (leaveDark s c) F.FIO_CH_STAT_ARMING c = 0 := by
  let w : State := { wr (wr (wr s F.FIO_CH_STAT_DARK c 0) F.FIO_CH_STAT_DARK_CAUSE c 0) F.FIO_CH_STAT_ARMING c 0 with
    hiZ := sset s.hiZ false c false, armAt := sset s.armAt 0 c 0 }
  have hw : rd w F.FIO_CH_STAT_DARK c = 0 ∧ rd w F.FIO_CH_STAT_DARK_CAUSE c = 0 ∧ rd w F.FIO_CH_STAT_ARMING c = 0 := by
    have hregs : w.regs = (wr (wr (wr s F.FIO_CH_STAT_DARK c 0) F.FIO_CH_STAT_DARK_CAUSE c 0) F.FIO_CH_STAT_ARMING c 0).regs := rfl
    rw [rd_congr hregs, rd_congr hregs, rd_congr hregs]
    simp (disch := decide) only [rd_wr_field, rd_wr_same]
    decide
  have hrefresh : Touches [F.TRG_STATUS_ACTIVE] w (leaveDark s c) := by
    have heq : leaveDark s c = if 12 ≤ c then (outsOf w (c - 12)).foldl refreshTrg w else w := rfl
    rw [heq]
    refine Touches.ite (Touches.foldl _ _ (fun u m => ?_) w) .refl
    unfold refreshTrg
    rw [wrBool_eq]
    exact Touches.refl.wr _ _ _ (by simp)
  rw [hrefresh _ _ (by decide), hrefresh _ _ (by decide), hrefresh _ _ (by decide)]
  exact hw

theorem answers_armTest_passed (hc : c < 48) (hout : isOutputCh s c = true) (harm : isSet s F.FIO_CH_STAT_ARMING c = true)
    (hdue : sget s.armAt 0 c + 2000 ≤ s.ns) : Answers (exec (.fioArmTestDone c true kind partner) s) fun t =>
      rd t F.FIO_CH_STAT_DARK c = 0 ∧ rd t F.FIO_CH_STAT_DARK_CAUSE c = 0 ∧ rd t F.FIO_CH_STAT_ARMING c = 0 := by
  have heq : armTestDone s c true kind partner = leaveDark s c := by
    unfold armTestDone
    rw [hout, harm, if_neg (by decide), if_pos rfl, if_pos hdue]
  obtain ⟨hd, hcause, ha⟩ := leaveDark_lights s c
  refine answers_onUnit (n := c) (f := fun s => if true || kind = 1 || kind = 2 || kind = 3 || kind = 5
    then armTestDone s c true kind partner else s) hc fun t ht => ?_
  rw [if_pos (by simp), heq] at ht
  exact ⟨(ht.rd ..).trans hd, (ht.rd ..).trans hcause, (ht.rd ..).trans ha⟩

theorem answers_armTest_failed (hc : c < 48) (hout : isOutputCh s c = true) (harm : isSet s F.FIO_CH_STAT_ARMING c = true)
    (hkind : kind ∈ [1, 2, 3, 5]) : Answers (exec (.fioArmTestDone c false kind partner) s) fun t =>
        rd t F.FIO_CH_STAT_DARK c = rd s F.FIO_CH_STAT_DARK c ∧ rd t F.FIO_CH_STAT_DARK_CAUSE c = 1
        ∧ rd t F.FIO_CH_STAT_ARMING c = 0 ∧ hasBit t F.FIO_CH_LATCH_KINDS c kind = true ∧ hasBit t F.FIO_EVT_EVT 0 1 = true := by
  have hk : kind < 7 := (by decide : ∀ k ∈ [1, 2, 3, 5], k < 7) kind hkind
  let w : State := recordKind (wr s F.FIO_CH_STAT_ARMING c 0) c kind partner
  obtain ⟨-, hlat, -, -, -, hrec⟩ := recordKind_records hk (wr s F.FIO_CH_STAT_ARMING c 0) c partner
  have heq : armTestDone s c false kind partner =
      setBit { wr w F.FIO_CH_STAT_DARK_CAUSE c 1 with hiZ := sset (wr w F.FIO_CH_STAT_DARK_CAUSE c 1).hiZ false c true } F.FIO_EVT_EVT 0 1 := by
    unfold armTestDone
    rw [hout, harm, if_neg (by decide), if_neg Bool.false_ne_true]
  refine answers_onUnit (n := c) (f := fun s => if false || kind = 1 || kind = 2 || kind = 3 || kind = 5
    then armTestDone s c false kind partner else s) hc fun t ht => ?_
  have hsel : (false || decide (kind = 1) || decide (kind = 2) || decide (kind = 3) || decide (kind = 5)) = true :=
    (by decide : ∀ k ∈ [1, 2, 3, 5], (false || decide (k = 1) || decide (k = 2) || decide (k = 3) || decide (k = 5)) = true) kind hkind
  rw [if_pos hsel, heq] at ht
  have hrd (f : Field) (i : Nat) (h : F.FIO_EVT_EVT.fid % 1024 ≠ f.fid % 1024) : rd t f i = rd (wr w F.FIO_CH_STAT_DARK_CAUSE c 1) f i := by
    rw [ht.rd, setBit_eq, rd_wr_field _ _ _ _ _ _ h]
    exact rd_congr rfl f i
  refine ⟨?_, ?_, ?_, ?_, (ht.hasBit ..).trans (hasBit_setBit _ _ _ _ (by decide))⟩
  · rw [hrd _ _ (by decide), rd_wr_field _ _ _ _ _ _ (by decide), hrec _ _ (by decide), rd_wr_field _ _ _ _ _ _ (by decide)]
  · rw [hrd _ _ (by decide), rd_wr_same]; rfl
  · rw [hrd _ _ (by decide), rd_wr_field _ _ _ _ _ _ (by decide), hrec _ _ (by decide), rd_wr_same]; rfl
  · unfold hasBit at *
    rw [hrd _ _ (by decide), rd_wr_field _ _ _ _ _ _ (by decide)]
    exact hlat

/-! ### General inputs -/

theorem hasBit_putBit (s : State) (f : Field) {i b : Nat} (hb : b < f.width) (on : Bool) : hasBit (putBit s f i b on) f i b = on
    ∧ ∀ j, j ≠ b → hasBit (putBit s f i b on) f i j = hasBit s f i j := by
  unfold putBit
  cases on with
  | false =>
    rw [if_neg Bool.false_ne_true]
    refine ⟨?_, fun j hj => ?_⟩
    · rw [hasBit_clearBits_pow, decide_eq_false (by simp), Bool.and_false]
    · rw [hasBit_clearBits_pow, decide_eq_true hj, Bool.and_true]
  | true =>
    rw [if_pos rfl]
    refine ⟨hasBit_setBit _ _ _ _ hb, fun j hj => ?_⟩
    unfold hasBit
    rw [rd_setBit _ _ _ _ hb, Nat.testBit_or, Nat.testBit_two_pow_of_ne (Ne.symm hj), Bool.or_false]

theorem putBit_touches (s : State) (f : Field) (i b : Nat) (on : Bool) : Touches [f] s (putBit s f i b on) :=
  Touches.ite (Touches.refl.wr _ _ _ (by simp)) (Touches.refl.wr _ _ _ (by simp))

/-- A channel that fires keeps the events on their way. -/
theorem mem_fireChannel {e : Nat × Nat × Bool} (h : e ∈ s.beacons) (ch : Nat) (soft : Bool) : e ∈ (fireChannel s ch soft).beacons := by
  unfold fireChannel
  dsimp only
  split
  · have e := congrArg State.beacons (deliver_regsOnly s ch)
    rwa [show (deliver s ch).beacons = s.beacons from e]
  · exact List.mem_append_left _ h

/-- A producer with its domains up fires every enabled channel that enables it. -/
theorem mem_fireProducer {p ch : Nat} (hdom : (producerDomains p).all (domUp s) = true) (hch : ch < 48)
    (hen : isSet s F.BCN_CH_CFG_EN ch = true) (hbit : hasBit s F.BCN_EN_EN (ch * 6 + p / 32) (p % 32) = true)
    (hk : rd s F.BCN_CH_CFG_CONSUMER ch < 55) : (ch, rd s F.BCN_CH_CFG_CONSUMER ch, false) ∈ (fireProducer s p).beacons := by
  have hmem : ch ∈ List.range 48 := List.mem_range.mpr hch
  unfold fireProducer
  rw [if_pos hdom]
  generalize List.range 48 = l at hmem
  obtain ⟨a, b, rfl⟩ := List.append_of_mem hmem
  rw [List.foldl_append, List.foldl_cons]
  have ha : Touches beaconFields s (a.foldl (fun t ch =>
      if isSet s F.BCN_CH_CFG_EN ch && hasBit s F.BCN_EN_EN (ch * 6 + p / 32) (p % 32) then fireChannel t ch false else t) s) :=
    Touches.foldl _ _ (fun u x => Touches.ite (fireChannel_touches u x false) .refl) s
  generalize a.foldl (fun t ch =>
    if isSet s F.BCN_CH_CFG_EN ch && hasBit s F.BCN_EN_EN (ch * 6 + p / 32) (p % 32) then fireChannel t ch false else t) s = u at *
  refine List.foldlRecOn (motive := fun t : State => (ch, rd s F.BCN_CH_CFG_CONSUMER ch, false) ∈ t.beacons) b _ ?_ fun t ht x _ => ?_
  · rw [hen, hbit, Bool.and_self, if_pos rfl, ← ha F.BCN_CH_CFG_CONSUMER ch (by decide), fireChannel_queues (by
      rw [ha F.BCN_CH_CFG_CONSUMER ch (by decide)]; exact hk)]
    exact List.mem_append_right _ (by simp)
  · split
    · exact mem_fireChannel ht x false
    · exact ht

theorem answers_ginEdge {level : Bool} {held : Nat} (hn : n < 8) (hheld : 1200 * rd s F.FIO_GIN_CFG_FILTER_US n + 100 ≤ held) :
    Answers (exec (.ginEdge n level held) s) fun t =>
      hasBit t F.FIO_GIN_STAT_LEVELS 0 n = level
      ∧ (∀ m, m ≠ n → hasBit t F.FIO_GIN_STAT_LEVELS 0 m = hasBit s F.FIO_GIN_STAT_LEVELS 0 m)
      ∧ (hasBit s F.FIO_GIN_STAT_LEVELS 0 n = false → level = true → rd s F.FIO_GIN_CFG_EDGE n = 0 →
        isSet s F.FIO_GIN_CFG_PROD_EN n = true → ∀ ch, ch < 48 → isSet s F.BCN_CH_CFG_EN ch = true →
        hasBit s F.BCN_EN_EN (ch * 6 + (120 + n) / 32) ((120 + n) % 32) = true → rd s F.BCN_CH_CFG_CONSUMER ch < 55 →
        (ch, rd s F.BCN_CH_CFG_CONSUMER ch, false) ∈ t.beacons) := by
  have hpass : ginEdge s n level held = ginLevel s n level := by
    unfold ginEdge ginPasses
    dsimp only
    rw [if_pos hheld]
    rfl
  have hput := putBit_touches s F.FIO_GIN_STAT_LEVELS 0 n level
  obtain ⟨hlevel, hothers⟩ := hasBit_putBit s F.FIO_GIN_STAT_LEVELS (i := 0) (b := n) (by exact hn) level
  let w : State := putBit s F.FIO_GIN_STAT_LEVELS 0 n level
  let sel : Bool := hasBit s F.FIO_GIN_STAT_LEVELS 0 n != level
    && (rd w F.FIO_GIN_CFG_EDGE n == 2 || (rd w F.FIO_GIN_CFG_EDGE n == 0 && level) || (rd w F.FIO_GIN_CFG_EDGE n == 1 && !level))
  have heq : ginLevel s n level = if sel && isSet w F.FIO_GIN_CFG_PROD_EN n then fireProducer w (120 + n) else w := rfl
  have hrest : Touches beaconFields w (ginLevel s n level) := by
    rw [heq]
    exact Touches.ite (fireProducer_touches w _) .refl
  refine answers_onUnit (n := n) (f := fun s => ginEdge s n level held) hn fun t ht => ?_
  rw [hpass] at ht
  refine ⟨?_, fun m hm => ?_, fun hold hlev hedge hprod ch hch hen hbit hk => ?_⟩
  · rw [ht.hasBit]
    unfold hasBit at *
    rwa [hrest _ _ (by decide)]
  · rw [ht.hasBit, ← hothers m hm]
    unfold hasBit
    rw [hrest _ _ (by decide)]
  · have hsel : sel = true := by
      unfold sel
      rw [hold, hput F.FIO_GIN_CFG_EDGE n (by decide), hedge, hlev]
      rfl
    have hprod' : isSet w F.FIO_GIN_CFG_PROD_EN n = true := (isSet_congr (hput F.FIO_GIN_CFG_PROD_EN n (by decide))).trans hprod
    rw [heq, hsel, hprod', Bool.and_self, if_pos rfl] at ht
    have hcons : rd w F.BCN_CH_CFG_CONSUMER ch = rd s F.BCN_CH_CFG_CONSUMER ch := hput _ _ (by decide)
    rw [ht.beacons, ← hcons]
    refine mem_fireProducer ?_ hch ((isSet_congr (hput F.BCN_CH_CFG_EN ch (by decide))).trans hen) ?_ (by rw [hcons]; exact hk)
    · have hnil : producerDomains (120 + n) = [] := (by decide : ∀ m < 8, producerDomains (120 + m) = []) n hn
      rw [hnil]
      rfl
    · unfold hasBit at *
      rwa [hput _ _ (by decide)]

end

/-- Settles O27, clause by clause. -/
theorem fieldChannelsLatchDarkenAndRearm : Obligations.FieldChannelsLatchDarkenAndRearm := by
  intro s
  refine ⟨fun c kind partner hc hfit hnew => answers_fioFaultConfirm hc hfit hnew,
    fun c kind hc h36 _ h4 hlive => answers_fioFaultClear hc h36 h4 hlive,
    fun c hc hdiff hchk ticks => ⟨answers_idleWindow_shown hc hdiff hchk, answers_idleWindow_over hc hdiff hchk⟩,
    fun hup hreach => ⟨fun c hc hin => answers_rearm_input hup hreach hc hin, fun c hc hout hdark harm hnow =>
      ⟨answers_rearm_refused hup hreach hc hout hdark harm hnow, answers_rearm_tests hup hreach hc hout hdark harm hnow⟩,
      fun n hn hp hlit => answers_fioDarkCmd hup hreach hn hp hlit, answers_fioClrCounts hup hreach⟩,
    fun c kind partner hc hout harm => ⟨answers_armTest_passed hc hout harm, answers_armTest_failed hc hout harm⟩,
    fun n level held hn hheld => answers_ginEdge hn hheld⟩

end Sys2Proof.Machine
end

section
/-! Keeper transactions at the external port (R522 to R553). -/
open Sys2Proof
namespace Sys2Proof.Machine

section
variable {s t u v : State} {op addr data tail : Nat} {fast : Bool} {r : KRes}

/-! ### A transaction that runs -/

theorem kport_setKport (s : State) (p : Nat) (k : KPort) : kport (setKport s p k) p = k := sget_sset_same ..

theorem Settled.kport (ht : Settled u t) (p : Nat) : Machine.kport t p = Machine.kport u p := by unfold Machine.kport; rw [ht.kports]

theorem portBegins_of_noHold (h : rd s F.KD_STATUS_HOLDING = 0) (p : Nat) : portBegins s p = s := by
  unfold portBegins isSet
  rw [h]
  rfl

/-- What port 0 shows after an operation with right CRC, no first KRESET before it. -/
def portAfter (s : State) (op addr data : Nat) (r : KRes) : KPort :=
  ⟨r.abandoned, r.refused.isSome, false, r.journalErr, op == 0x0F && data == kresetFirst, statusByte s 0, r.data,
    if readType op then replyBytes op addr r.data else []⟩

/-- The keeper after an operation: a refusal leaves its reason. -/
def afterOp (r : KRes) (u : State) : State :=
  match r.refused with
  | some c => lastErr u c
  | none => u

theorem keeperFrame_of_op (hk : (kport s 0).kreset = false)
    (hop : keeperOp keeperRsts (portBegins s 0) 0 op addr data tail fast false = (r, u)) :
    keeperFrame keeperRsts s 0 op addr data tail fast true = setKport (afterOp r u) 0 (portAfter s op addr data r) := by
  have hkr : (kport s 0).kreset = false := hk
  unfold keeperFrame
  dsimp only
  rw [hkr, hop]
  unfold afterOp portAfter
  cases hr : r.refused with
  | none => simp
  | some c => simp

theorem bridgeAbandon_idle (hidle : s.kbrRun = none) : bridgeAbandon s = s := by
  unfold bridgeAbandon bridgeCut
  rw [hidle]

/-- At the external port with the bridge idle, a transaction with its right CRC runs its operation. -/
theorem portFrame_runs (hready : s.keeperReady = true) (hidle : s.kbrRun = none) (hk : (kport s 0).kreset = false)
    (hop : keeperOp keeperRsts (portBegins s 0) 0 op addr data tail fast false = (r, u)) :
    portFrame s 0 op addr data tail fast (sentCrc op addr data) = setKport (afterOp r u) 0 (portAfter s op addr data r) := by
  unfold portFrame
  rw [if_pos rfl, bridgeAbandon_idle hidle]
  dsimp only
  rw [hready, if_pos rfl, beq_self_eq_true, keeperFrame_of_op hk hop]

theorem answers_portOp {i : Instr} {P : State → Prop} (hready : s.keeperReady = true) (hidle : s.kbrRun = none)
    (hk : (kport s 0).kreset = false) (hi : exec i s = onPort 0 s fun s => portFrame s 0 op addr data tail fast (sentCrc op addr data))
    (hop : keeperOp keeperRsts (portBegins s 0) 0 op addr data tail fast false = (r, u))
    (h : ∀ t, Settled (setKport (afterOp r u) 0 (portAfter s op addr data r)) t → P t) : Answers (exec i s) P := by
  rw [hi]
  refine answers_onUnit (by decide) fun t ht => h t ?_
  rwa [portFrame_runs hready hidle hk hop] at ht

theorem Settled.portSet {p : Nat} {k : KPort} (ht : Settled (setKport u p k) t) : Machine.kport t p = k := (ht.kport p).trans (kport_setKport ..)

theorem Settled.keptRegs {p : Nat} {k : KPort} (ht : Settled (setKport u p k) t) (f : Field) (i : Nat) : Machine.rd t f i = Machine.rd u f i :=
  (ht.rd f i).trans (rd_setKport u p k f i)

/-- The port's state alone. -/
theorem settled_setKport {p : Nat} {k : KPort} (ht : Settled (setKport s p k) t) : Settled { s with kports := t.kports } t := by
  have hk := ht.kports
  unfold Settled at *
  rw [hk]; exact ht

theorem exec_keeperRead (haddr : addr < 2 ^ 16) : exec (.read 0 addr tail (sentCrc 1 addr 0)) s
    = onPort 0 s fun s => portFrame s 0 1 addr 0 tail false (sentCrc 1 addr 0) := by
  change (onPort 0 s fun s => portFrame s 0 1 (addr % 65536) 0 tail false (sentCrc 1 addr 0)) = _
  rw [Nat.mod_eq_of_lt (show addr < 65536 from haddr)]

theorem exec_keeperWrite (haddr : addr < 2 ^ 16) (hdata : data < 2 ^ 32) : exec (.write 0 addr data tail (sentCrc 2 addr data)) s
    = onPort 0 s fun s => portFrame s 0 2 addr data tail false (sentCrc 2 addr data) := by
  change (onPort 0 s fun s => portFrame s 0 2 (addr % 65536) (data % 2 ^ 32) tail false (sentCrc 2 addr data)) = _
  rw [Nat.mod_eq_of_lt (show addr < 65536 from haddr), Nat.mod_eq_of_lt hdata]

/-- Every value of 24 bits is in the range of KP_REQ. -/
theorem inRange_req (s : State) (data : Nat) : inRange s F.KP_REQ_DOMAINS 0 (F.KP_REQ_DOMAINS.bits data) = true := by
  have hlt : F.KP_REQ_DOMAINS.bits data < 2 ^ 24 := Nat.mod_lt _ (by decide)
  have hle : decide (F.KP_REQ_DOMAINS.bits data ≤ F.KP_REQ_DOMAINS.greatest) = true :=
    decide_eq_true (show F.KP_REQ_DOMAINS.bits data ≤ 16777215 by omega)
  unfold inRange
  rw [hle, decide_eq_true (show F.KP_REQ_DOMAINS.least ≤ _ from Nat.zero_le _)]
  rfl

theorem opWrite_req : opWrite keeperRsts s 0x201 data 0 = (KRes.ok, wr s F.KP_REQ_DOMAINS 0 (data % 2 ^ 24)) := by
  have hany : (R.KP_REQ.fields.any fun f => f.writable && !inRange s f 0 (f.bits data)) = false := by
    change (F.KP_REQ_DOMAINS.writable && !inRange s F.KP_REQ_DOMAINS 0 (F.KP_REQ_DOMAINS.bits data) || false) = false
    rw [inRange_req]
    rfl
  have hbits : F.KP_REQ_DOMAINS.bits data = data % 2 ^ 24 := by
    change data / 2 ^ 0 % 2 ^ 24 = _
    rw [pow_zero, Nat.div_one]
  unfold opWrite
  rw [if_neg (by decide), (by decide +kernel : keeperRegAt 0x201 = some ⟨R.KP_REQ, 0, false⟩)]
  dsimp only
  rw [if_neg (by decide), if_neg (by decide), if_neg (by decide), if_neg (by decide), if_neg (by decide)]
  unfold writePower
  rw [if_neg (by rw [hany]; decide), ← hbits]
  rfl

theorem opWrite_fail : opWrite keeperRsts s 0x204 data 0 = (KRes.ok, clearBits s F.KP_FAIL_DOMAINS 0 data) := by
  unfold opWrite
  rw [if_neg (by decide), (by decide +kernel : keeperRegAt 0x204 = some ⟨R.KP_FAIL, 0, false⟩)]
  dsimp only
  rw [if_neg (by decide), if_neg (by decide), if_neg (by decide), if_pos rfl]

/-- TRIP_CLR ends a trip once no sensor is near the trip level (R553). -/
theorem opWrite_tripClr : opWrite keeperRsts s 0x401 4 0
    = if s.nearTripMask ≠ 0 then (KRes.refuse 6, s) else (KRes.ok, wr s F.KT_STATUS_TRIPPED 0 0) := by
  unfold opWrite
  rw [if_neg (by decide), (by decide +kernel : keeperRegAt 0x401 = some ⟨R.KT_STATUS, 0, false⟩)]
  dsimp only
  rw [if_neg (by decide), if_neg (by decide), if_pos rfl]
  unfold writeTrip
  rw [if_neg (by decide)]
  rfl

theorem exec_nvwrite {fast : Bool} (haddr : addr < 2 ^ 16) (hdata : data < 2 ^ 32) :
    exec (.nvwrite 0 addr data tail fast (sentCrc 6 addr data)) s
    = onPort 0 s fun s => portFrame s 0 6 addr data tail fast (sentCrc 6 addr data) := by
  change (onPort 0 s fun s => portFrame s 0 6 (addr % 65536) (data % 2 ^ 32) tail fast (sentCrc 6 addr data)) = _
  rw [Nat.mod_eq_of_lt (show addr < 65536 from haddr), Nat.mod_eq_of_lt hdata]

theorem nvLockable_programs (hopen : isSet s F.KL_LIFECYCLE_LOCKED = false) (htail : 64 ≤ tail) (hrst : s.aDieReset = false) :
    nvLockable s F.KL_RANK_RANK 0x102 data tail false = (KRes.ok, refreshCopies (wr s F.KL_RANK_RANK 0 (data % 2))) := by
  unfold nvLockable nvEnd
  rw [hopen, if_neg Bool.false_ne_true, if_pos ⟨htail, rfl⟩]
  dsimp only
  unfold copiesFollow nvField
  rw [if_pos rfl, wr_aDieReset, hrst]
  rfl

/-- A row that names no tail, of the external port, ends with its CRC (R531). -/
theorem exec_goodWrite {i : Instr} (hidle : s.kbrRun = none) (hi : exec i s = onPort 0 s fun s => goodWrite s 0 addr data) :
    exec i s = onPort 0 s fun s => portFrame s 0 2 addr data 0 false (sentCrc 2 addr data) := by
  have htail : ownTail s 0 = 0 := by unfold ownTail; rw [hidle]
  rw [hi, onPort, onPort, onUnit_lt (by decide), onUnit_lt (by decide), goodWrite, htail]

theorem exec_kreset (hidle : s.kbrRun = none) (hdata : data < 2 ^ 32) : exec (.kreset 0 data (sentCrc 0xF 0 data)) s
    = onPort 0 s fun s => portFrame s 0 0xF 0 data 0 false (sentCrc 0xF 0 data) := by
  have htail : ownTail s 0 = 0 := by unfold ownTail; rw [hidle]
  change (onPort 0 s fun s => portFrame s 0 0xF 0 (data % 2 ^ 32) (ownTail s 0) false (sentCrc 0xF 0 data)) = _
  rw [onPort, onPort, onUnit_lt (by decide), onUnit_lt (by decide), htail, Nat.mod_eq_of_lt hdata]

theorem exec_keeperAbandon : exec (.keeperAbandon 0) s = onPort 0 s fun s =>
    if (decide (0 = 0) && (bridgeAbandon s).keeperReady) = true then keeperCut (bridgeAbandon s) 0 else bridgeAbandon s := rfl

/-- No field of a fired beacon channel is the keeper's. -/
theorem keeperFid_beacon {f : Field} (hf : keeperFid (f.fid % 1024) = true) :
    ∀ g ∈ beaconFields, g.fid % 1024 ≠ f.fid % 1024 := by
  have hall : ∀ g ∈ beaconFields, keeperFid (g.fid % 1024) = false := by decide
  intro g hg heq
  rw [← heq, hall g hg] at hf
  exact absurd hf (by decide)

theorem opWrite_readOnly {h : Hit} (hwin : ¬ (0x4000 ≤ addr ∧ addr < 0x8000)) (hreg : keeperRegAt addr = some h)
    (hro : h.reg.fields.any Field.writable = false) : opWrite keeperRsts s addr data tail = (KRes.refuse 3, s) := by
  unfold opWrite
  rw [if_neg hwin, hreg]
  dsimp only
  rw [hro, Bool.not_false, if_pos rfl]
  rfl

theorem opWrite_reserved (hwin : ¬ (0x4000 ≤ addr ∧ addr < 0x8000)) (hreg : keeperRegAt addr = none) :
    opWrite keeperRsts s addr data tail = (KRes.refuse 2, s) := by
  unfold opWrite
  rw [if_neg hwin, hreg]
  rfl

/-- Each row of the external port whose CRC may be wrong is a frame, whose right CRC is the one named with it. -/
theorem sentFrame_of_row (s : State) {a b n x : Nat} {p : Instr × Nat} (ha : a < 2 ^ 16) (hb : b < 2 ^ 32)
    (hp : p ∈ [(Instr.read 0 a n x, sentCrc 1 a 0), (.write 0 a b n x, sentCrc 2 a b), (.poll 0 a n x, sentCrc 3 a 0),
      (.step 0 b n x, sentCrc 4 0 b), (.time 0 b x, sentCrc 5 0 b), (.nvwrite 0 a b n false x, sentCrc 6 a b),
      (.kdIntent 0 b n false x, sentCrc 6 0x803 b), (.kdCommit 0 b n false x, sentCrc 6 0x804 b),
      (.kreset 0 b x, sentCrc 0xF 0 b)]) :
    ∃ op addr data tail fast, exec p.1 s = (onPort 0 s fun s => portFrame s 0 op addr data tail fast x)
      ∧ p.2 = sentCrc op addr data := by
  have ha' : a % 65536 = a := Nat.mod_eq_of_lt ha
  have hb' : b % 2 ^ 32 = b := Nat.mod_eq_of_lt hb
  simp only [List.mem_cons, List.not_mem_nil, or_false] at hp
  rcases hp with rfl | rfl | rfl | rfl | rfl | rfl | rfl | rfl | rfl
  · exact ⟨1, a % 65536, 0, n, false, rfl, by rw [ha']⟩
  · exact ⟨2, a % 65536, b % 2 ^ 32, n, false, rfl, by rw [ha', hb']⟩
  · exact ⟨3, a % 65536, 0, n, false, rfl, by rw [ha']⟩
  · exact ⟨4, 0, b % 2 ^ 32, n, false, rfl, by rw [hb']⟩
  · exact ⟨5, 0, b % 2 ^ 32, ownTail s 0, false, rfl, by rw [hb']⟩
  · exact ⟨6, a % 65536, b % 2 ^ 32, n, false, rfl, by rw [ha', hb']⟩
  · exact ⟨6, 0x803, b % 2 ^ 32, n, false, rfl, by rw [hb']⟩
  · exact ⟨6, 0x804, b % 2 ^ 32, n, false, rfl, by rw [hb']⟩
  · exact ⟨15, 0, b % 2 ^ 32, ownTail s 0, false, rfl, by rw [hb']⟩

section
variable (hready : s.keeperReady = true) (hidle : s.kbrRun = none) (hk : (kport s 0).kreset = false)
  (hhold : rd s F.KD_STATUS_HOLDING = 0)
include hready hidle hk hhold

/-- A refused transaction changes the port and the reason of the last refusal alone. -/
theorem answers_refused {i : Instr} {code : Nat} (hcode : code < 2 ^ 8) (hfirst : (op == 0x0F && data == kresetFirst) = false)
    (hi : exec i s = onPort 0 s fun s => portFrame s 0 op addr data tail fast (sentCrc op addr data))
    (hop : keeperOp keeperRsts s 0 op addr data tail fast false = (KRes.refuse code, s)) : Answers (exec i s) fun t =>
      kport t 0 = ⟨false, true, false, false, false, statusByte s 0, 0, if readType op then replyBytes op addr 0 else []⟩
      ∧ rd t F.KI_LAST_ERR_CODE = code ∧ Keeps [(F.KI_LAST_ERR_CODE, 0)] s t
      ∧ Settled { s with regs := t.regs, kports := t.kports } t := by
  refine answers_portOp (r := KRes.refuse code) (u := s) hready hidle hk hi (by rw [portBegins_of_noHold hhold]; exact hop) fun t ht => ?_
  have ht : Settled (setKport (wr s F.KI_LAST_ERR_CODE 0 code) 0 (portAfter s op addr data (KRes.refuse code))) t := ht
  refine ⟨?_, ?_, fun f i hf => ?_, ?_⟩
  · rw [ht.portSet]
    unfold portAfter
    rw [hfirst]
    rfl
  · rw [ht.keptRegs, rd_wr_same]
    exact Nat.mod_eq_of_lt hcode
  · rw [ht.keptRegs]
    exact (Keeps.refl _ s).wr F.KI_LAST_ERR_CODE 0 code (by simp) f i hf
  · have hr := ht.regs
    have hp := ht.kports
    unfold Settled at *
    rw [hr, hp]; exact ht

/-- An accepted transaction shows its data at the port. -/
theorem answers_accepted {i : Instr} {x : Nat} {P : State → Prop} (hfirst : (op == 0x0F && data == kresetFirst) = false)
    (hi : exec i s = onPort 0 s fun s => portFrame s 0 op addr data tail fast (sentCrc op addr data))
    (hop : keeperOp keeperRsts s 0 op addr data tail fast false = (⟨none, false, false, x⟩, u))
    (h : ∀ t k, Settled (setKport u 0 k) t →
      kport t 0 = ⟨false, false, false, false, false, statusByte s 0, x, if readType op then replyBytes op addr x else []⟩ → P t) :
    Answers (exec i s) P := by
  refine answers_portOp (r := ⟨none, false, false, x⟩) (u := u) hready hidle hk hi (by rw [portBegins_of_noHold hhold]; exact hop) fun t ht => h t _ ht ?_
  rw [ht.portSet]
  unfold portAfter
  rw [hfirst]
  rfl

/-! ### READ and WRITE -/

theorem answers_keeperRead {h : Hit} (haddr : addr < 2 ^ 16) (hwin : ¬ (0x4000 ≤ addr ∧ addr < 0x8000)) (hreg : keeperRegAt addr = some h)
    (hentry : h.reg.rid ≠ R.KF_ENTRY.rid) (htemp : h.reg.rid ≠ R.KT_TEMP.rid ∨ tail = 0) :
    Answers (exec (.read 0 addr tail (sentCrc 1 addr 0)) s) fun t =>
      kport t 0 = ⟨false, false, false, false, false, statusByte s 0, keeperWord s h, replyBytes 1 addr (keeperWord s h)⟩
      ∧ Settled { s with kports := t.kports } t := by
  have hop : keeperOp keeperRsts s 0 1 addr 0 tail false false = (⟨none, false, false, keeperWord s h⟩, s) := by
    change opRead s addr tail = _
    unfold opRead
    rw [if_neg hwin, hreg]
    dsimp only
    rw [if_neg hentry, if_neg (by omega)]
  exact answers_accepted hready hidle hk hhold rfl (exec_keeperRead haddr) hop fun t k ht hport => ⟨hport, settled_setKport ht⟩


theorem refuses_reservedRead (haddr : addr < 2 ^ 16) (hwin : ¬ (0x4000 ≤ addr ∧ addr < 0x8000)) (hreg : keeperRegAt addr = none) :
    Answers (exec (.read 0 addr tail (sentCrc 1 addr 0)) s) fun t =>
      kport t 0 = ⟨false, true, false, false, false, statusByte s 0, 0, replyBytes 1 addr 0⟩
      ∧ rd t F.KI_LAST_ERR_CODE = 2 ∧ Keeps [(F.KI_LAST_ERR_CODE, 0)] s t
      ∧ Settled { s with regs := t.regs, kports := t.kports } t := by
  refine answers_refused hready hidle hk hhold (op := 1) (data := 0) (code := 2) (by decide) rfl (exec_keeperRead haddr) ?_
  change opRead s addr tail = _
  unfold opRead
  rw [if_neg hwin, hreg]
  rfl

/-- A WRITE of a reserved address and of a register without a writable field is refused. -/
theorem refuses_write {code : Nat} (haddr : addr < 2 ^ 16) (hdata : data < 2 ^ 32) (hcode : code < 2 ^ 8)
    (hop : opWrite keeperRsts s addr data tail = (KRes.refuse code, s)) :
    Answers (exec (.write 0 addr data tail (sentCrc 2 addr data)) s) fun t =>
      kport t 0 = ⟨false, true, false, false, false, statusByte s 0, 0, []⟩
      ∧ rd t F.KI_LAST_ERR_CODE = code ∧ Keeps [(F.KI_LAST_ERR_CODE, 0)] s t
      ∧ Settled { s with regs := t.regs, kports := t.kports } t :=
  answers_refused hready hidle hk hhold hcode rfl (exec_keeperWrite haddr hdata) hop

/-- A WRITE of KP_REQ sets it (R548). -/
theorem answers_writeReq (hdata : data < 2 ^ 32) : Answers (exec (.write 0 0x201 data 0 (sentCrc 2 0x201 data)) s) fun t =>
    kport t 0 = ⟨false, false, false, false, false, statusByte s 0, 0, []⟩
    ∧ rd t F.KP_REQ_DOMAINS = data % 2 ^ 24 ∧ Keeps [(F.KP_REQ_DOMAINS, 0)] s t := by
  refine answers_accepted hready hidle hk hhold (op := 2) (x := 0) rfl (exec_keeperWrite (by decide) hdata) opWrite_req fun t k ht hport => ⟨hport, ?_, fun f i hf => ?_⟩
  · rw [ht.keptRegs, rd_wr_same]
    exact Nat.mod_mod ..
  · rw [ht.keptRegs]
    exact (Keeps.refl _ s).wr F.KP_REQ_DOMAINS 0 _ (by simp) f i hf


/-- TIME sets the wall clock and begins the count of polls again (R530). -/
theorem answers_time (hdata : data < 2 ^ 32) : Answers (exec (.time 0 data (sentCrc 5 0 data)) s) fun t =>
    kport t 0 = ⟨false, false, false, false, false, statusByte s 0, 0, []⟩
    ∧ rd t F.KI_WALL_SECONDS = data ∧ rd t F.KI_POLLS_SINCE_TIME_COUNT = 0 := by
  have hi : exec (.time 0 data (sentCrc 5 0 data)) s
      = onPort 0 s fun s => portFrame s 0 5 0 data (ownTail s 0) false (sentCrc 5 0 data) := by
    change (onPort 0 s fun s => portFrame s 0 5 0 (data % 2 ^ 32) (ownTail s 0) false (sentCrc 5 0 data)) = _
    rw [Nat.mod_eq_of_lt hdata]
  have hi : exec (.time 0 data (sentCrc 5 0 data)) s
      = onPort 0 s fun s => portFrame s 0 5 0 data 0 false (sentCrc 5 0 data) := by
    rw [hi]
    have htail : ownTail s 0 = 0 := by unfold ownTail; rw [hidle]
    rw [onPort, onPort, onUnit_lt (by decide), onUnit_lt (by decide), htail]
  refine answers_accepted hready hidle hk hhold (op := 5) (x := 0) rfl hi rfl fun t k ht hport => ⟨hport, ?_, ?_⟩
  · rw [ht.keptRegs, (fireProducer_touches _ 150) _ _ (by decide), rd_wr_ne _ _ _ _ _ _ (by decide), rd_wr_same]
    exact Nat.mod_eq_of_lt hdata
  · rw [ht.keptRegs, (fireProducer_touches _ 150) _ _ (by decide), rd_wr_same]
    rfl

/-- A POLL with no bank latched samples the summary and releases KEEP_IRQ (R539). -/
theorem answers_emptyPoll {max : Nat} (hmax : max < 2 ^ 16) (hab : s.abandonedBank = none) (hnone : latchedBanks s = []) :
    Answers (exec (.poll 0 max tail (sentCrc 3 max 0)) s) fun t =>
      kport t 0 = ⟨false, false, false, false, false, statusByte s 0, pollSummary s, replyBytes 3 max (pollSummary s)⟩
      ∧ t.keepIrq = false
      ∧ rd t F.KI_POLLS_SINCE_TIME_COUNT = min (rd s F.KI_POLLS_SINCE_TIME_COUNT + 1) (2 ^ 32 - 1)
      ∧ Keeps [(F.KI_POLLS_SINCE_TIME_COUNT, 0)] s t := by
  have hi : exec (.poll 0 max tail (sentCrc 3 max 0)) s
      = onPort 0 s fun s => portFrame s 0 3 max 0 tail false (sentCrc 3 max 0) := by
    change (onPort 0 s fun s => portFrame s 0 3 (max % 65536) 0 tail false (sentCrc 3 max 0)) = _
    rw [Nat.mod_eq_of_lt (show max < 65536 from hmax)]
  have hop : opPoll s max tail
      = (⟨none, false, false, pollSummary s⟩, bump { s with keepIrq := false } F.KI_POLLS_SINCE_TIME_COUNT) := by
    have hnext : nextBank (bump { s with keepIrq := false } F.KI_POLLS_SINCE_TIME_COUNT) = none := by
      unfold nextBank
      change (match s.abandonedBank with | some b => some b | none => (latchedBanks s).head?.map (·.2)) = none
      rw [hab, hnone]
      rfl
    have hcommit : ∀ n, commitBanks n (bump { s with keepIrq := false } F.KI_POLLS_SINCE_TIME_COUNT)
        = (0, bump { s with keepIrq := false } F.KI_POLLS_SINCE_TIME_COUNT) := by
      intro n
      cases n with
      | zero => rfl
      | succ n => rw [commitBanks, hnext]
    unfold opPoll
    dsimp only
    rw [hcommit]
    dsimp only
    rw [if_pos rfl, hnext, ite_self]
  refine answers_accepted hready hidle hk hhold (op := 3) (x := pollSummary s) rfl hi hop fun t k ht hport =>
    ⟨hport, ht.keepIrq, ?_, fun f i hf => ?_⟩
  · exact (ht.keptRegs _ _).trans (rd_bump { s with keepIrq := false } F.KI_POLLS_SINCE_TIME_COUNT 0)
  · rw [ht.keptRegs, bump_eq]
    exact (Keeps.refl _ s).wr F.KI_POLLS_SINCE_TIME_COUNT 0 _ (by simp) f i hf

/-- An NVWRITE of KL_RANK with a whole tail programs it, and the A-die's copy follows (R528, R534). -/
theorem answers_writeRank (hdata : data < 2 ^ 32) (hopen : isSet s F.KL_LIFECYCLE_LOCKED = false) (htail : 64 ≤ tail)
    (hrst : s.aDieReset = false) : Answers (exec (.nvwrite 0 0x102 data tail false (sentCrc 6 0x102 data)) s) fun t =>
      kport t 0 = ⟨false, false, false, false, false, statusByte s 0, 0, []⟩
      ∧ rd t F.KL_RANK_RANK = data % 2 ∧ rd t F.GLB_STATUS_TWIN_RANK = data % 2
      ∧ Keeps [(F.KL_RANK_RANK, 0), (F.GLB_STATUS_TWIN_RANK, 0), (F.GLB_STATUS_LIFECYCLE, 0)] s t := by
  refine answers_accepted hready hidle hk hhold (op := 6) (x := 0) rfl (exec_nvwrite (by decide) hdata) (nvLockable_programs hopen htail hrst)
    fun t k ht hport => ⟨hport, ?_, ?_, fun f i hf => ?_⟩
  · rw [ht.keptRegs]
    unfold refreshCopies
    rw [rd_wr_ne _ _ _ _ _ _ (by decide), rd_wr_ne _ _ _ _ _ _ (by decide), rd_wr_same]
    exact Nat.mod_mod ..
  · rw [ht.keptRegs]
    unfold refreshCopies
    rw [rd_wr_same, rd_wr_same]
    exact (Nat.mod_mod ..).trans (Nat.mod_mod ..)
  · rw [ht.keptRegs]
    exact (((Keeps.refl _ s).wr F.KL_RANK_RANK 0 _ (by simp)).wr F.GLB_STATUS_LIFECYCLE 0 _ (by simp)).wr
      F.GLB_STATUS_TWIN_RANK 0 _ (by simp) f i hf

theorem refuses_lockedRank (hdata : data < 2 ^ 32) (hlocked : isSet s F.KL_LIFECYCLE_LOCKED = true) :
    Answers (exec (.nvwrite 0 0x102 data tail false (sentCrc 6 0x102 data)) s) fun t =>
      kport t 0 = ⟨false, true, false, false, false, statusByte s 0, 0, []⟩
      ∧ rd t F.KI_LAST_ERR_CODE = 4 ∧ Keeps [(F.KI_LAST_ERR_CODE, 0)] s t
      ∧ Settled { s with regs := t.regs, kports := t.kports } t := by
  have hop : nvLockable s F.KL_RANK_RANK 0x102 data tail false = (KRes.refuse 4, s) := by
    unfold nvLockable
    rw [hlocked, if_pos rfl]
    rfl
  exact answers_refused hready hidle hk hhold (by decide) rfl (exec_nvwrite (by decide) hdata) hop

/-- The bits written to KP_FAIL are cleared (R547). -/
theorem answers_failClear {mask : Nat} (hmask : mask < 2 ^ 32) : Answers (exec (.kpFailClear 0 mask) s) fun t =>
    kport t 0 = ⟨false, false, false, false, false, statusByte s 0, 0, []⟩ ∧ Keeps [(F.KP_FAIL_DOMAINS, 0)] s t
    ∧ ∀ d, d < 24 → hasBit t F.KP_FAIL_DOMAINS 0 d = (hasBit s F.KP_FAIL_DOMAINS 0 d && !mask.testBit d) := by
  have hi : exec (.kpFailClear 0 mask) s = onPort 0 s fun s => goodWrite s 0 0x204 mask := by
    change (onPort 0 s fun s => goodWrite s 0 0x204 (mask % 2 ^ 32)) = _
    rw [Nat.mod_eq_of_lt hmask]
  refine answers_accepted hready hidle hk hhold (op := 2) (x := 0) rfl (exec_goodWrite hidle hi) opWrite_fail
    fun t k ht hport => ⟨hport, fun f i hf => ?_, fun d hd => ?_⟩
  · rw [ht.keptRegs, clearBits_eq]
    exact (Keeps.refl _ s).wr F.KP_FAIL_DOMAINS 0 _ (by simp) f i hf
  · rw [hasBit, ht.keptRegs]
    exact hasBit_clearBits s F.KP_FAIL_DOMAINS 0 mask d hd

theorem answers_tripClr (hnear : s.nearTripMask = 0) : Answers (exec (.tripClr 0) s) fun t =>
    kport t 0 = ⟨false, false, false, false, false, statusByte s 0, 0, []⟩
    ∧ rd t F.KT_STATUS_TRIPPED = 0 ∧ Keeps [(F.KT_STATUS_TRIPPED, 0)] s t := by
  have hop : opWrite keeperRsts s 0x401 4 0 = (KRes.ok, wr s F.KT_STATUS_TRIPPED 0 0) := by
    rw [opWrite_tripClr, if_neg (not_not.mpr hnear)]
  refine answers_accepted hready hidle hk hhold (op := 2) (x := 0) rfl (exec_goodWrite hidle rfl) hop
    fun t k ht hport => ⟨hport, ?_, fun f i hf => ?_⟩
  · rw [ht.keptRegs, rd_wr_same]
    rfl
  · rw [ht.keptRegs]
    exact (Keeps.refl _ s).wr F.KT_STATUS_TRIPPED 0 0 (by simp) f i hf

theorem refuses_tripClr (hnear : s.nearTripMask ≠ 0) : Answers (exec (.tripClr 0) s) fun t =>
    kport t 0 = ⟨false, true, false, false, false, statusByte s 0, 0, []⟩
    ∧ rd t F.KI_LAST_ERR_CODE = 6 ∧ Keeps [(F.KI_LAST_ERR_CODE, 0)] s t
    ∧ Settled { s with regs := t.regs, kports := t.kports } t :=
  answers_refused hready hidle hk hhold (by decide) rfl (exec_goodWrite hidle rfl) (by
    change opWrite keeperRsts s 0x401 4 0 = _
    rw [opWrite_tripClr, if_pos hnear])

/-- A first KRESET is remembered by its port (R529). -/
theorem answers_kresetFirst : Answers (exec (.kreset 0 kresetFirst (sentCrc 0xF 0 kresetFirst)) s) fun t =>
    kport t 0 = ⟨false, false, false, false, true, statusByte s 0, 0, []⟩ ∧ Settled { s with kports := t.kports } t := by
  refine answers_portOp (r := KRes.ok) (u := s) hready hidle hk (exec_kreset hidle (by decide)) ?_ fun t ht =>
    ⟨ht.portSet, settled_setKport ht⟩
  rw [portBegins_of_noHold hhold]
  rfl

theorem refuses_kreset (hdata : data < 2 ^ 32) (hne : data ≠ kresetFirst) :
    Answers (exec (.kreset 0 data (sentCrc 0xF 0 data)) s) fun t =>
      kport t 0 = ⟨false, true, false, false, false, statusByte s 0, 0, []⟩
      ∧ rd t F.KI_LAST_ERR_CODE = 5 ∧ Keeps [(F.KI_LAST_ERR_CODE, 0)] s t
      ∧ Settled { s with regs := t.regs, kports := t.kports } t := by
  have hfirst : (data == kresetFirst) = false := beq_eq_false_iff_ne.mpr hne
  refine answers_refused hready hidle hk hhold (by decide) (by rw [hfirst, Bool.and_false]) (exec_kreset hidle hdata) ?_
  change opKreset keeperRsts s 0 data false = _
  unfold opKreset
  rw [if_neg (by decide), Bool.false_and, if_neg Bool.false_ne_true, if_neg hne]
  rfl

/-- A transaction that ends before its last CRC clock changes the port alone (R531). -/
theorem answers_abandon : Answers (exec (.keeperAbandon 0) s) fun t =>
    kport t 0 = ⟨true, false, false, false, false, statusByte s 0, 0, []⟩ ∧ Settled { s with kports := t.kports } t := by
  have hcut : keeperCut s 0 = setKport s 0 ⟨true, false, false, false, false, statusByte s 0, 0, []⟩ := by
    unfold keeperCut
    dsimp only
    rw [hk, portBegins_of_noHold hhold]
    rfl
  have hrun : (if (decide (0 = 0) && (bridgeAbandon s).keeperReady) = true then keeperCut (bridgeAbandon s) 0 else bridgeAbandon s)
      = setKport s 0 ⟨true, false, false, false, false, statusByte s 0, 0, []⟩ := by
    rw [bridgeAbandon_idle hidle, hready, if_pos (by decide), hcut]
  rw [exec_keeperAbandon]
  refine answers_onUnit (by decide) fun t ht => ?_
  rw [hrun] at ht
  exact ⟨ht.portSet, settled_setKport ht⟩

/-- A transaction with a wrong CRC shows at the port and is captured; no keeper register changes (R524, R538). -/
theorem answers_badCrc {i : Instr} {crc : Nat} (hi : exec i s = onPort 0 s fun s => portFrame s 0 op addr data tail fast crc)
    (hcrc : crc ≠ sentCrc op addr data) : Answers (exec i s) fun t =>
      kport t 0 = ⟨false, false, true, false, false, statusByte s 0, 0, []⟩
      ∧ ((captureAt t 5).bank (captureAt s 5).active).latched = true
      ∧ ∀ f i, keeperFid (f.fid % 1024) = true → rd t f i = rd s f i := by
  have hframe : portFrame s 0 op addr data tail fast crc
      = setKport (capture s 5 0) 0 ⟨false, false, true, false, false, statusByte s 0, 0, []⟩ := by
    unfold portFrame
    rw [if_pos rfl, bridgeAbandon_idle hidle]
    dsimp only
    rw [hready, if_pos rfl, beq_eq_false_iff_ne.mpr hcrc]
    unfold keeperFrame
    dsimp only
    rw [Bool.not_false, if_pos rfl, hk, if_neg Bool.false_ne_true, portBegins_of_noHold hhold]
  rw [hi]
  refine answers_onUnit (by decide) fun t ht => ?_
  rw [hframe] at ht
  refine ⟨ht.portSet, ?_, fun f i hf => ?_⟩
  · rw [captureAt_congr ht.captures]
    exact capture_latches s 5 0
  · rw [ht.keptRegs]
    exact capture_touches s 5 0 f i (keeperFid_beacon hf)

end

/-! ### KRESET with both keys (R529, R574) -/

theorem portBegins_rd (s : State) (p : Nat) {f : Field} (i : Nat) (hf : F.KD_STATUS_HOLDING.fid % 1024 ≠ f.fid % 1024) :
    rd (portBegins s p) f i = rd s f i := by
  unfold portBegins dropHold
  split
  · exact rd_wr_field _ _ _ _ _ _ hf
  · rfl

theorem rd_resetBlockRegs_kept {b : Block} {f : Field} (i : Nat) (hkept : keptFields.contains (f.fid % 1024) = true) :
    rd (resetBlockRegs s b) f i = rd s f i := by
  have hkey : f.key i % 1024 = f.fid % 1024 := by simp [Field.key]
  rw [rd, resetBlockRegs_regs, sget_sfilter, hkey, hkept, Bool.or_true, if_pos rfl, rd]

/-- A field that is written with its Reset value, 0, is no longer listed. -/
theorem rd_wr_zero {f g : Field} {i j : Nat} (hreset : g.reset = 0) (h : rd s f i = f.reset % 2 ^ f.width) :
    rd (wr s g j 0) f i = f.reset % 2 ^ f.width := by
  by_cases hkey : f.key i = g.key j
  · have hget : sget (wr s g j 0).regs f.reset (f.key i) = f.reset := by
      change sget (sset s.regs g.reset (g.key j) (0 % 2 ^ g.width)) f.reset (f.key i) = f.reset
      rw [hkey, sset, hreset, if_pos (Nat.zero_mod _)]
      exact sget_serase_same ..
    rw [rd, hget]
  · rw [rd_wr_ne _ _ _ _ _ _ (Ne.symm hkey), h]

/-- A keeper reset of a device that is not LOCKED. -/
theorem keeperReset_of_open (hopen : isSet s F.KL_LIFECYCLE_LOCKED = false) : keeperReset s
    = { wr (dropHold (resetBlockRegs s .keep)) F.KP_GOOD_DOMAINS 0 (rd s F.KP_GOOD_DOMAINS) with dispActive := false } := by
  have hlocked : isSet (wr (dropHold (resetBlockRegs s .keep)) F.KP_GOOD_DOMAINS 0 (rd s F.KP_GOOD_DOMAINS))
      F.KL_LIFECYCLE_LOCKED = isSet s F.KL_LIFECYCLE_LOCKED := by
    refine isSet_congr ?_
    unfold dropHold
    rw [rd_wr_field _ _ _ _ _ _ (by decide), rd_wr_field _ _ _ _ _ _ (by decide)]
    exact (rd_congr (s := resetBlockRegs s .keep) rfl F.KL_LIFECYCLE_LOCKED 0).trans (rd_resetBlockRegs_kept 0 (by decide))
  unfold keeperReset
  dsimp only
  refine if_neg (fun h => Bool.false_ne_true ?_)
  rw [← hopen, ← hlocked]
  exact h

/-- A keeper register that is not kept reads its Reset value after a keeper reset; the power good stays. -/
theorem rd_keeperReset (hopen : isSet s F.KL_LIFECYCLE_LOCKED = false) {f : Field} {i : Nat}
    (hf : keeperFid (f.fid % 1024) = true) (hkept : f.fid % 1024 ∉ keptFields) (hgood : f.key i ≠ F.KP_GOOD_DOMAINS.key 0) :
    rd (keeperReset s) f i = f.reset % 2 ^ f.width := by
  obtain ⟨hlo, hhi⟩ : (blockFields .keep).1 ≤ f.fid % 1024 ∧ f.fid % 1024 < (blockFields .keep).2 := by
    unfold keeperFid at hf
    simpa using hf
  have hbase : rd (resetBlockRegs s .keep) f i = f.reset % 2 ^ f.width :=
    rd_resetBlockRegs_in i hlo hhi (by simpa using hkept)
  rw [keeperReset_of_open hopen]
  change rd (wr (dropHold (resetBlockRegs s .keep)) F.KP_GOOD_DOMAINS 0 (rd s F.KP_GOOD_DOMAINS)) f i = _
  rw [rd_wr_ne _ _ _ _ _ _ hgood.symm]
  unfold dropHold
  exact rd_wr_zero (s := { resetBlockRegs s .keep with segDrive := [] }) rfl hbase

theorem answers_kresetSecond (hready : s.keeperReady = true) (hidle : s.kbrRun = none) (hk : (kport s 0).kreset = true)
    (hopen : isSet s F.KL_LIFECYCLE_LOCKED = false) :
    Answers (exec (.kreset 0 kresetSecond (sentCrc 0xF 0 kresetSecond)) s) fun t =>
      kport t 0 = ⟨false, false, false, false, false, statusByte s 0, 0, []⟩
      ∧ rd t F.KP_GOOD_DOMAINS = rd s F.KP_GOOD_DOMAINS ∧ t.dispActive = false
      ∧ ∀ f i, keeperFid (f.fid % 1024) = true → f.fid % 1024 ∉ keptFields → f.key i ≠ F.KP_GOOD_DOMAINS.key 0 →
          rd t f i = f.reset % 2 ^ f.width := by
  have hframe : portFrame s 0 0xF 0 kresetSecond 0 false (sentCrc 0xF 0 kresetSecond)
      = setKport (keeperReset (portBegins s 0)) 0 ⟨false, false, false, false, false, statusByte s 0, 0, []⟩ := by
    unfold portFrame
    rw [if_pos rfl, bridgeAbandon_idle hidle]
    dsimp only
    rw [hready, if_pos rfl, beq_self_eq_true]
    unfold keeperFrame
    dsimp only
    rw [hk]
    rfl
  have hopen' : isSet (portBegins s 0) F.KL_LIFECYCLE_LOCKED = false :=
    (isSet_congr (portBegins_rd s 0 0 (by decide))).trans hopen
  rw [exec_kreset hidle (by decide)]
  refine answers_onUnit (by decide) fun t ht => ?_
  rw [hframe] at ht
  refine ⟨ht.portSet, ?_, ?_, fun f i hf hkept hgood => ?_⟩
  · rw [ht.keptRegs, keeperReset_of_open hopen']
    refine (rd_wr_same _ _ _ _).trans ?_
    rw [rd_mod, portBegins_rd s 0 0 (by decide)]
  · rw [ht.dispActive]
    exact congrArg State.dispActive (keeperReset_of_open hopen')
  · rw [ht.keptRegs]
    exact rd_keeperReset hopen' hf hkept hgood

end

/-- Settles O43, clause by clause. -/
theorem keeperTransactionsAct : Obligations.KeeperTransactionsAct := by
  unfold Obligations.KeeperTransactionsAct
  intro s hready hidle
  dsimp only
  refine ⟨fun hk hhold => ⟨fun addr tail haddr hwin => ⟨fun h hreg hentry htemp => ?_, fun h data hdata hreg hro => ?_,
    fun data hdata hreg => ⟨?_, ?_⟩⟩, fun data hdata => ?_, fun seconds hs => ?_, fun max tail hmax hab hnone => ?_,
    fun data tail hdata hopen htail hrst => ?_, fun data tail hdata hlocked => ?_, fun mask hmask => ?_, fun hnear => ?_,
    fun hnear => ?_, ?_, fun data hdata hne => ?_, ?_, fun a b n x ha hb p hp hcrc => ?_⟩, fun hk hopen => ?_⟩
  · exact answers_keeperRead hready hidle hk hhold haddr hwin hreg hentry htemp
  · exact refuses_write hready hidle hk hhold haddr hdata (by decide) (opWrite_readOnly hwin hreg hro)
  · exact refuses_reservedRead hready hidle hk hhold haddr hwin hreg
  · exact refuses_write hready hidle hk hhold haddr hdata (by decide) (opWrite_reserved hwin hreg)
  · exact answers_writeReq hready hidle hk hhold hdata
  · exact answers_time hready hidle hk hhold hs
  · exact answers_emptyPoll hready hidle hk hhold hmax hab hnone
  · exact answers_writeRank hready hidle hk hhold hdata hopen htail hrst
  · exact refuses_lockedRank hready hidle hk hhold hdata hlocked
  · exact answers_failClear hready hidle hk hhold hmask
  · exact answers_tripClr hready hidle hk hhold hnear
  · exact refuses_tripClr hready hidle hk hhold hnear
  · exact answers_kresetFirst hready hidle hk hhold
  · exact refuses_kreset hready hidle hk hhold hdata hne
  · exact answers_abandon hready hidle hk hhold
  · obtain ⟨op, addr, data, tail, fast, hi, hsent⟩ := sentFrame_of_row s ha hb hp
    exact answers_badCrc hready hidle hk hhold hi (hsent ▸ hcrc)
  · exact answers_kresetSecond hready hidle hk hopen

end Sys2Proof.Machine
end

section
/-! The keeper's display, fault log, bridge and resets (R532, R540, R555 to R558, R569, R574). -/
open Sys2Proof
namespace Sys2Proof.Machine

section
variable {s t u v : State} {op addr data tail : Nat} {fast : Bool} {r : KRes}

/-! ### A display hold that a transaction ends touches nothing an operation reads -/

theorem portBegins_dispActive (s : State) (p : Nat) : (portBegins s p).dispActive = s.dispActive := by
  unfold portBegins dropHold; split <;> rfl

theorem portBegins_segLimited (s : State) (p : Nat) : (portBegins s p).segLimited = s.segLimited := by
  unfold portBegins dropHold; split <;> rfl

theorem portBegins_captures (s : State) (p : Nat) : (portBegins s p).captures = s.captures := by
  unfold portBegins dropHold; split <;> rfl

theorem portBegins_abandonedBank (s : State) (p : Nat) : (portBegins s p).abandonedBank = s.abandonedBank := by
  unfold portBegins dropHold; split <;> rfl

theorem portBegins_logUsed (s : State) (p : Nat) : (portBegins s p).logUsed = s.logUsed := by
  unfold portBegins dropHold; split <;> rfl

theorem domGood_portBegins (s : State) (p d : Nat) : domGood (portBegins s p) d = domGood s d := by
  unfold domGood; rw [portBegins_rd _ _ _ (by decide)]

theorem imageHash_portBegins (s : State) (p : Nat) : imageHash (portBegins s p) = imageHash s := by
  unfold imageHash; rw [portBegins_rd _ _ _ (by decide), portBegins_rd _ _ _ (by decide)]

theorem ownsUpdate_portBegins (s : State) (p q : Nat) : ownsUpdate (portBegins s p) q = ownsUpdate s q := by
  unfold ownsUpdate; rw [portBegins_rd _ _ _ (by decide), portBegins_dispActive]

theorem stepCount_portBegins (s : State) (p : Nat) : stepCount (portBegins s p) = stepCount s := by
  unfold stepCount; rw [portBegins_rd _ _ _ (by decide), portBegins_rd _ _ _ (by decide)]

theorem stepDrive_portBegins (s : State) (p k n : Nat) : stepDrive (portBegins s p) k n = stepDrive s k n := by
  unfold stepDrive imageDark hasBit
  simp (disch := decide) only [portBegins_rd, stepCount_portBegins]

theorem vfieldFault_portBegins (s : State) (p : Nat) : vfieldFault (portBegins s p) = vfieldFault s := by
  unfold vfieldFault; rw [portBegins_rd _ _ _ (by decide)]

theorem nextBank_portBegins (s : State) (p : Nat) : nextBank (portBegins s p) = nextBank s := by
  unfold nextBank latchedBanks; rw [portBegins_captures, portBegins_abandonedBank]

/-- A transaction of the owning port leaves no display hold behind it at its start. -/
theorem portBegins_ends_hold (howns : ownsUpdate s 0 = true) : rd (portBegins s 0) F.KD_STATUS_HOLDING = 0 := by
  have howner : (rd s F.KD_STATUS_OWNER == 0) = true := (Bool.and_eq_true_iff.mp howns).2
  unfold portBegins dropHold
  rw [howner, Bool.and_true]
  split
  · exact rd_wr_same ..
  · simpa [isSet] using ‹¬isSet s F.KD_STATUS_HOLDING = true›

/-- What a refused operation shows. -/
theorem answers_opRefused {i : Instr} {code : Nat} (hready : s.keeperReady = true) (hidle : s.kbrRun = none)
    (hk : (kport s 0).kreset = false) (hcode : code < 2 ^ 8)
    (hi : exec i s = onPort 0 s fun s => portFrame s 0 op addr data tail fast (sentCrc op addr data))
    (hop : keeperOp keeperRsts (portBegins s 0) 0 op addr data tail fast false = (KRes.refuse code, u)) :
    Answers (exec i s) fun t => (kport t 0).refused = true ∧ rd t F.KI_LAST_ERR_CODE = code := by
  refine answers_portOp hready hidle hk hi hop fun t ht => ?_
  have ht : Settled (setKport (wr u F.KI_LAST_ERR_CODE 0 code) 0 (portAfter s op addr data (KRes.refuse code))) t := ht
  refine ⟨by rw [ht.portSet]; rfl, ?_⟩
  rw [ht.keptRegs, rd_wr_same]
  exact Nat.mod_eq_of_lt hcode

/-- The state after an operation that succeeds. -/
theorem answers_opDone {i : Instr} {x : Nat} {P : State → Prop} (hready : s.keeperReady = true) (hidle : s.kbrRun = none)
    (hk : (kport s 0).kreset = false)
    (hi : exec i s = onPort 0 s fun s => portFrame s 0 op addr data tail fast (sentCrc op addr data))
    (hop : keeperOp keeperRsts (portBegins s 0) 0 op addr data tail fast false = (⟨none, false, false, x⟩, u))
    (h : ∀ t k, k.refused = false → Settled (setKport u 0 k) t → P t) : Answers (exec i s) P :=
  answers_portOp hready hidle hk hi hop fun t ht => h t _ rfl ht

/-! ### An update of the display (R555, R557) -/

theorem exec_kdIntent (hdata : data < 2 ^ 32) : exec (.kdIntent 0 data tail false (sentCrc 6 0x803 data)) s
    = onPort 0 s fun s => portFrame s 0 6 0x803 data tail false (sentCrc 6 0x803 data) := by
  change (onPort 0 s fun s => portFrame s 0 6 0x803 (data % 2 ^ 32) tail false (sentCrc 6 0x803 data)) = _
  rw [Nat.mod_eq_of_lt hdata]

theorem exec_kdCommit (hdata : data < 2 ^ 32) : exec (.kdCommit 0 data tail false (sentCrc 6 0x804 data)) s
    = onPort 0 s fun s => portFrame s 0 6 0x804 data tail false (sentCrc 6 0x804 data) := by
  change (onPort 0 s fun s => portFrame s 0 6 0x804 (data % 2 ^ 32) tail false (sentCrc 6 0x804 data)) = _
  rw [Nat.mod_eq_of_lt hdata]

theorem exec_step (hdata : data < 2 ^ 32) : exec (.step 0 data tail (sentCrc 4 0 data)) s
    = onPort 0 s fun s => portFrame s 0 4 0 data tail false (sentCrc 4 0 data) := by
  change (onPort 0 s fun s => portFrame s 0 4 0 (data % 2 ^ 32) tail false (sentCrc 4 0 data)) = _
  rw [Nat.mod_eq_of_lt hdata]

/-- An update of port p begins at step 0. -/
def updateBegun (s : State) (p hash : Nat) : State :=
  { (wr (wr (wr (wr s F.KD_STATUS_DIRTY 0 1) F.KD_STATUS_OWNER 0 p) F.KD_STATUS_NEXT_STEP 0 0) F.KD_HASH_HASH 0 hash) with
    dispActive := true, segLimited := [] }

theorem opIntent_begins (hhash : data = imageHash s) (hd2 : domGood s 2 = true) (hidle : s.dispActive = false) (htail : 64 ≤ tail) :
    opIntent s 0 data tail false = (KRes.ok, updateBegun s 0 data) := by
  unfold opIntent nvEnd
  rw [if_neg (not_not.mpr hhash), hd2, hidle, Bool.false_and, Bool.not_true, if_neg Bool.false_ne_true, if_neg Bool.false_ne_true,
    if_pos ⟨htail, rfl⟩]
  rfl

theorem opIntent_refuses (hhash : data ≠ imageHash s) : opIntent s 0 data tail false = (KRes.refuse 7, s) := if_pos hhash

theorem opCommit_ends (howns : ownsUpdate s 0 = true) (hstep : rd s F.KD_STATUS_NEXT_STEP = stepCount s)
    (hhash : data = rd s F.KD_HASH_HASH) (htail : 64 ≤ tail) : opCommit s 0 data tail false
      = (KRes.ok, fireProducer { (wr s F.KD_STATUS_DIRTY 0 0) with dispActive := false } 149) := by
  unfold opCommit nvEnd
  rw [howns, hstep, beq_self_eq_true, Bool.and_true, Bool.not_true, if_neg Bool.false_ne_true, if_neg (not_not.mpr hhash),
    if_pos ⟨htail, rfl⟩]
  rfl

theorem opCommit_refuses (hstep : rd s F.KD_STATUS_NEXT_STEP ≠ stepCount s) :
    opCommit s 0 data tail false = (KRes.refuse 5, s) := by
  unfold opCommit
  rw [beq_eq_false_iff_ne.mpr hstep, Bool.and_false, Bool.not_false, if_pos rfl]
  rfl

/-! ### A step (R556, R557) -/

/-- A counter of several instances after one count of each listed one. -/
theorem rd_foldl_bump (f : Field) {l : List Nat} (hl : l.Nodup) (s : State) (n : Nat) :
    rd (l.foldl (fun s n => bump s f n) s) f n = if n ∈ l then min (rd s f n + 1) (2 ^ f.width - 1) else rd s f n := by
  induction l generalizing s with
  | nil => simp
  | cons x l ih =>
    obtain ⟨hx, hl⟩ := List.nodup_cons.mp hl
    rw [List.foldl_cons, ih hl]
    by_cases hn : n = x
    · subst hn
      rw [if_neg hx, if_pos (by simp), rd_bump]
    · have hkeep : rd (bump s f x) f n = rd s f n := rd_wr_inst _ _ _ _ (Ne.symm hn)
      rw [hkeep]
      simp [hn]

/-- The drive of the listed outputs that may be driven; every other one stands at 0 V. -/
theorem sget_foldl_drive (c : Nat → Bool) (w : Nat → Nat) (l : List Nat) (m : List (Nat × Nat)) (n : Nat) :
    sget (l.foldl (fun m n => if c n = true then sset m 0 n (w n) else m) m) 0 n
      = if n ∈ l ∧ c n = true then w n else sget m 0 n := by
  induction l generalizing m with
  | nil => simp
  | cons x l ih =>
    rw [List.foldl_cons, ih]
    by_cases hn : n = x
    · subst hn
      by_cases hc : c n = true <;> simp [hc]
    · have hkeep : sget (if c x = true then sset m 0 x (w x) else m) 0 n = sget m 0 n := by
        split
        · exact sget_sset_ne _ _ _ _ hn
        · rfl
      rw [hkeep]
      simp [hn]

/-- The segments that step k drives. -/
def drivenBy (s : State) (k : Nat) : List Nat := (List.range 48).filter fun n => stepDrive s k n ≠ 0

theorem mem_drivenBy {k n : Nat} (hn : n < 48) : n ∈ drivenBy s k ↔ stepDrive s k n ≠ 0 := by
  simp [drivenBy, hn]

theorem foldl_bump_touches (f : Field) (l : List Nat) (s : State) : Touches [f] s (l.foldl (fun s n => bump s f n) s) :=
  Touches.foldl _ _ (fun u n => Touches.refl.wr f n _ (by simp)) s

theorem applyStep_drives (s : State) (k : Nat) {n : Nat} (hn : n < 48) : sget (applyStep s k).segDrive 0 n
    = if domGood s 2 = true ∧ n ∉ s.segLimited then stepDrive s k n else 0 := by
  have h := sget_foldl_drive (fun n => domGood s 2 && !s.segLimited.contains n) (stepDrive s k) (drivenBy s k) [] n
  refine h.trans ?_
  by_cases hz : stepDrive s k n = 0 <;> simp [mem_drivenBy hn, hz, sget]

theorem applyStep_counts (s : State) (k : Nat) {n : Nat} (hn : n < 48) : rd (applyStep s k) F.KD_CNT_COUNT n
    = if stepDrive s k n = 0 then rd s F.KD_CNT_COUNT n else min (rd s F.KD_CNT_COUNT n + 1) (2 ^ 32 - 1) := by
  have hcount := rd_foldl_bump F.KD_CNT_COUNT (l := drivenBy s k) (List.nodup_range.filter _) s n
  unfold applyStep
  dsimp only
  rw [rd_wr_field _ _ _ _ _ _ (by decide), rd_wr_field _ _ _ _ _ _ (by decide)]
  refine hcount.trans ?_
  by_cases hz : stepDrive s k n = 0
  · rw [if_neg (by rw [mem_drivenBy hn]; exact not_not.mpr hz), if_pos hz]
  · rw [if_pos ((mem_drivenBy hn).mpr hz), if_neg hz]
    rfl

theorem opStep_applies {k : Nat} (hvf : vfieldFault s = false) (howns : ownsUpdate s 0 = true)
    (hstep : rd s F.KD_STATUS_NEXT_STEP = k) (hk : k < stepCount s) (htail : 64 ≤ tail) :
    opStep s 0 k tail = (KRes.ok, applyStep s k) := by
  unfold opStep
  rw [hvf, if_neg Bool.false_ne_true, howns, hstep, beq_self_eq_true, decide_eq_true hk, if_neg (by decide), if_neg (by omega)]

theorem opStep_refuses {k : Nat} (hvf : vfieldFault s = false) (hstep : rd s F.KD_STATUS_NEXT_STEP ≠ k) :
    opStep s 0 k tail = (KRes.refuse 5, s) := by
  unfold opStep
  rw [hvf, if_neg Bool.false_ne_true, beq_eq_false_iff_ne.mpr hstep, Bool.and_false, Bool.false_and, Bool.not_false, if_pos rfl]
  rfl

section
variable (hready : s.keeperReady = true) (hidle : s.kbrRun = none) (hk : (kport s 0).kreset = false)
include hready hidle hk

theorem answers_kdIntent (hdata : data < 2 ^ 32) (hhash : data = imageHash s) (hd2 : domGood s 2 = true)
    (hdisp : s.dispActive = false) (htail : 64 ≤ tail) :
    Answers (exec (.kdIntent 0 data tail false (sentCrc 6 0x803 data)) s) fun t =>
      t.dispActive = true ∧ rd t F.KD_STATUS_DIRTY = 1 ∧ rd t F.KD_STATUS_OWNER = 0 ∧ rd t F.KD_STATUS_NEXT_STEP = 0
      ∧ rd t F.KD_HASH_HASH = data ∧ (kport t 0).refused = false := by
  have hop : opIntent (portBegins s 0) 0 data tail false = (KRes.ok, updateBegun (portBegins s 0) 0 data) :=
    opIntent_begins (hhash.trans (imageHash_portBegins s 0).symm) ((domGood_portBegins s 0 2).trans hd2)
      ((portBegins_dispActive s 0).trans hdisp) htail
  refine answers_opDone (x := 0) hready hidle hk (exec_kdIntent hdata) hop fun t k href ht => ?_
  have hrd (f : Field) (i : Nat) : rd t f i = rd (updateBegun (portBegins s 0) 0 data) f i := ht.keptRegs f i
  refine ⟨ht.dispActive, ?_, ?_, ?_, ?_, by rw [ht.portSet, href]⟩
  all_goals rw [hrd]
  · exact (rd_wr_field _ _ _ _ _ _ (by decide)).trans ((rd_wr_ne _ _ _ _ _ _ (by decide)).trans
      ((rd_wr_ne _ _ _ _ _ _ (by decide)).trans (rd_wr_same ..)))
  · exact (rd_wr_field _ _ _ _ _ _ (by decide)).trans ((rd_wr_ne _ _ _ _ _ _ (by decide)).trans (rd_wr_same ..))
  · exact (rd_wr_field _ _ _ _ _ _ (by decide)).trans (rd_wr_same ..)
  · exact (rd_wr_same ..).trans (Nat.mod_eq_of_lt hdata)

theorem refuses_kdIntent (hdata : data < 2 ^ 32) (hhash : data ≠ imageHash s) :
    Answers (exec (.kdIntent 0 data tail false (sentCrc 6 0x803 data)) s) fun t =>
      (kport t 0).refused = true ∧ rd t F.KI_LAST_ERR_CODE = 7 :=
  answers_opRefused (u := portBegins s 0) hready hidle hk (by decide) (exec_kdIntent hdata)
    (opIntent_refuses (by rwa [imageHash_portBegins]))

theorem answers_kdCommit (hdata : data < 2 ^ 32) (howns : ownsUpdate s 0 = true) (hstep : rd s F.KD_STATUS_NEXT_STEP = stepCount s)
    (hhash : data = rd s F.KD_HASH_HASH) (htail : 64 ≤ tail) :
    Answers (exec (.kdCommit 0 data tail false (sentCrc 6 0x804 data)) s) fun t =>
      t.dispActive = false ∧ rd t F.KD_STATUS_DIRTY = 0 ∧ rd t F.KD_STATUS_HOLDING = 0 := by
  have hop : opCommit (portBegins s 0) 0 data tail false
      = (KRes.ok, fireProducer { (wr (portBegins s 0) F.KD_STATUS_DIRTY 0 0) with dispActive := false } 149) :=
    opCommit_ends ((ownsUpdate_portBegins s 0 0).trans howns)
      (by rw [portBegins_rd _ _ _ (by decide), stepCount_portBegins, hstep])
      (by rw [portBegins_rd _ _ _ (by decide), hhash]) htail
  refine answers_opDone (x := 0) hready hidle hk (exec_kdCommit hdata) hop fun t k _ ht => ⟨?_, ?_, ?_⟩
  · rw [ht.dispActive]
    exact congrArg State.dispActive (fireProducer_firesOnly _ 149)
  · rw [ht.keptRegs, (fireProducer_touches _ 149) _ _ (by decide)]
    change rd (wr (portBegins s 0) F.KD_STATUS_DIRTY 0 0) F.KD_STATUS_DIRTY 0 = 0
    rw [rd_wr_same, Nat.zero_mod]
  · rw [ht.keptRegs, (fireProducer_touches _ 149) _ _ (by decide)]
    change rd (wr (portBegins s 0) F.KD_STATUS_DIRTY 0 0) F.KD_STATUS_HOLDING 0 = 0
    rw [rd_wr_ne _ _ _ _ _ _ (by decide), portBegins_ends_hold howns]

theorem refuses_kdCommit (hdata : data < 2 ^ 32) (hstep : rd s F.KD_STATUS_NEXT_STEP ≠ stepCount s) :
    Answers (exec (.kdCommit 0 data tail false (sentCrc 6 0x804 data)) s) fun t =>
      (kport t 0).refused = true ∧ rd t F.KI_LAST_ERR_CODE = 5 :=
  answers_opRefused (u := portBegins s 0) hready hidle hk (by decide) (exec_kdCommit hdata)
    (opCommit_refuses (by rwa [portBegins_rd _ _ _ (by decide), stepCount_portBegins]))

theorem answers_step (hdata : data < 2 ^ 32) (hvf : vfieldFault s = false) (howns : ownsUpdate s 0 = true)
    (hstep : rd s F.KD_STATUS_NEXT_STEP = data) (hlast : data < stepCount s) (htail : 64 ≤ tail) :
    Answers (exec (.step 0 data tail (sentCrc 4 0 data)) s) fun t =>
      rd t F.KD_STATUS_NEXT_STEP = (data + 1) % 2 ^ 5 ∧ rd t F.KD_STATUS_HOLDING = 1
      ∧ ∀ n, n < 48 →
        sget t.segDrive 0 n = (if domGood s 2 = true ∧ n ∉ s.segLimited then stepDrive s data n else 0)
        ∧ rd t F.KD_CNT_COUNT n = (if stepDrive s data n = 0 then rd s F.KD_CNT_COUNT n
          else min (rd s F.KD_CNT_COUNT n + 1) (2 ^ 32 - 1)) := by
  have hop : opStep (portBegins s 0) 0 data tail = (KRes.ok, applyStep (portBegins s 0) data) :=
    opStep_applies ((vfieldFault_portBegins s 0).trans hvf) ((ownsUpdate_portBegins s 0 0).trans howns)
      (by rw [portBegins_rd _ _ _ (by decide), hstep]) (by rwa [stepCount_portBegins]) htail
  refine answers_opDone (x := 0) hready hidle hk (exec_step hdata) hop fun t k _ ht => ⟨?_, ?_, fun n hn => ⟨?_, ?_⟩⟩
  · rw [ht.keptRegs]
    exact rd_wr_same ..
  · rw [ht.keptRegs]
    exact (rd_wr_ne _ _ _ _ _ _ (by decide)).trans (rd_wr_same ..)
  · rw [ht.segDrive, ← domGood_portBegins s 0 2, ← portBegins_segLimited s 0, ← stepDrive_portBegins s 0]
    exact applyStep_drives (portBegins s 0) data hn
  · rw [ht.keptRegs, applyStep_counts _ _ hn, stepDrive_portBegins, portBegins_rd _ _ _ (by decide)]

theorem refuses_step (hdata : data < 2 ^ 32) (hvf : vfieldFault s = false) (hstep : rd s F.KD_STATUS_NEXT_STEP ≠ data) :
    Answers (exec (.step 0 data tail (sentCrc 4 0 data)) s) fun t =>
      (kport t 0).refused = true ∧ rd t F.KI_LAST_ERR_CODE = 5 :=
  answers_opRefused (u := portBegins s 0) hready hidle hk (by decide) (exec_step hdata)
    (opStep_refuses ((vfieldFault_portBegins s 0).trans hvf) (by rwa [portBegins_rd _ _ _ (by decide)]))

end

/-! ### The fault log (R539, R540) -/

theorem swapBank_rd (s : State) (src i : Nat) (f : Field) (j : Nat) : rd (swapBank s src i) f j = rd s f j := by
  unfold swapBank; dsimp only; split <;> rfl

theorem swapBank_logUsed (s : State) (src i : Nat) : (swapBank s src i).logUsed = s.logUsed := by
  unfold swapBank; dsimp only; split <;> rfl

/-- The log after the entry of bank i of source src is written and its bank cleared. -/
def bankWritten (s : State) (src i : Nat) : State :=
  let t := journalPut (swapBank s src i) (logSlot s) (logEntry s src ((captureAt s src).bank i))
  setCapture t src ((captureAt t src).setBank i Bank.init)

theorem bankWritten_rd (s : State) (src i : Nat) (f : Field) (j : Nat) : rd (bankWritten s src i) f j = rd s f j := by
  have h : (bankWritten s src i).regs = (swapBank s src i).regs := by simp only [bankWritten, journalPut, setCapture]
  rw [rd_congr h, swapBank_rd]

theorem bankWritten_logUsed (s : State) (src i : Nat) : (bankWritten s src i).logUsed = s.logUsed := by
  simp only [bankWritten, journalPut, setCapture, swapBank_logUsed]

theorem bankWritten_clears (s : State) (src i : Nat) : (captureAt (bankWritten s src i) src).bank i = Bank.init := by
  have h : captureAt (bankWritten s src i) src = (captureAt (swapBank s src i) src).setBank i Bank.init := by
    simp only [bankWritten, journalPut, setCapture, captureAt, sget_sset_same]
  rw [h, Capture.bank_setBank]

/-- The log after a commit has counted its entry. -/
def entryCounted (s : State) (src i : Nat) : State :=
  wr { bankWritten s src i with abandonedBank := none } F.KF_NEXT_ENTRY_NO 0 (rd (bankWritten s src i) F.KF_NEXT_ENTRY_NO + 1)

theorem commitBank_eq (s : State) (src i : Nat) : commitBank s src i
    = if 4096 ≤ (entryCounted s src i).logUsed then fireProducer (bump (entryCounted s src i) F.KF_OVERWRITE_COUNT_COUNT) 151
      else { entryCounted s src i with logUsed := (entryCounted s src i).logUsed + 1 } := rfl

/-- A commit within the first 4,096 entries clears its bank and counts its entry. -/
theorem commitBank_commits {src i : Nat} (hused : s.logUsed < 4096) :
    (captureAt (commitBank s src i) src).bank i = Bank.init ∧ (commitBank s src i).logUsed = s.logUsed + 1
    ∧ rd (commitBank s src i) F.KF_NEXT_ENTRY_NO = (rd s F.KF_NEXT_ENTRY_NO + 1) % 2 ^ 32 := by
  have hlog : (entryCounted s src i).logUsed = s.logUsed := by
    simp only [entryCounted, wr_logUsed, bankWritten_logUsed]
  have hcaps : (entryCounted s src i).captures = (bankWritten s src i).captures := by
    simp only [entryCounted, wr_captures]
  have hno : rd (entryCounted s src i) F.KF_NEXT_ENTRY_NO = (rd s F.KF_NEXT_ENTRY_NO + 1) % 2 ^ 32 := by
    rw [entryCounted, rd_wr_same, bankWritten_rd]
    rfl
  rw [commitBank_eq, hlog, if_neg (by omega)]
  refine ⟨?_, rfl, hno⟩
  exact (congrArg (fun k => Capture.bank k i) (captureAt_congr hcaps src)).trans (bankWritten_clears s src i)

theorem exec_poll {max : Nat} (hmax : max < 2 ^ 16) : exec (.poll 0 max tail (sentCrc 3 max 0)) s
    = onPort 0 s fun s => portFrame s 0 3 max 0 tail false (sentCrc 3 max 0) := by
  change (onPort 0 s fun s => portFrame s 0 3 (max % 65536) 0 tail false (sentCrc 3 max 0)) = _
  rw [Nat.mod_eq_of_lt (show max < 65536 from hmax)]

/-- POLL with a tail of 64 clocks and a bank latched commits that bank. -/
theorem opPoll_commits {src i max : Nat} (hnext : nextBank s = some (src, i)) : opPoll s max 64
    = (⟨none, false, false, pollSummary s⟩,
      fireProducer (commitBank (bump { s with keepIrq := false } F.KI_POLLS_SINCE_TIME_COUNT) src i) 148) := by
  have hn : (if max = 0 then 64 / 64 else min (64 / 64) max) = 1 := by
    split
    · rfl
    · omega
  have hnext' : nextBank (bump { s with keepIrq := false } F.KI_POLLS_SINCE_TIME_COUNT) = some (src, i) := hnext
  have hcommit : commitBanks 1 (bump { s with keepIrq := false } F.KI_POLLS_SINCE_TIME_COUNT)
      = (1, commitBank (bump { s with keepIrq := false } F.KI_POLLS_SINCE_TIME_COUNT) src i) := by
    rw [commitBanks, hnext']
    rfl
  unfold opPoll
  dsimp only
  rw [hn, hcommit]
  rfl

theorem answers_poll (hready : s.keeperReady = true) (hidle : s.kbrRun = none) (hk : (kport s 0).kreset = false) {src i max : Nat}
    (hnext : nextBank s = some (src, i)) (hmax : max < 2 ^ 16) (hused : s.logUsed < 4096) :
    Answers (exec (.poll 0 max 64 (sentCrc 3 max 0)) s) fun t =>
      (captureAt t src).bank i = Bank.init ∧ t.logUsed = s.logUsed + 1
      ∧ rd t F.KF_NEXT_ENTRY_NO = (rd s F.KF_NEXT_ENTRY_NO + 1) % 2 ^ 32 := by
  have hop := opPoll_commits (max := max) ((nextBank_portBegins s 0).trans hnext)
  obtain ⟨w, hw⟩ : ∃ w, w = bump { portBegins s 0 with keepIrq := false } F.KI_POLLS_SINCE_TIME_COUNT := ⟨_, rfl⟩
  have hwused : w.logUsed = s.logUsed := by
    rw [hw]
    exact portBegins_logUsed s 0
  have hwno : rd w F.KF_NEXT_ENTRY_NO = rd s F.KF_NEXT_ENTRY_NO := by
    rw [hw, bump_eq]
    exact (rd_wr_field _ _ _ _ _ _ (by decide)).trans (portBegins_rd s 0 0 (by decide))
  obtain ⟨hbank, hlog, hno⟩ := commitBank_commits (s := w) (src := src) (i := i) (hwused ▸ hused)
  rw [← hw] at hop
  obtain ⟨v, hv⟩ : ∃ v, v = commitBank w src i := ⟨_, rfl⟩
  rw [← hv] at hop hbank hlog hno
  refine answers_opDone (op := 3) (addr := max) (u := fireProducer v 148) hready hidle hk (exec_poll hmax) hop
    fun t k _ ht => ⟨?_, ?_, ?_⟩
  · rw [captureAt_congr ht.captures]
    exact (congrArg (fun k => Capture.bank k i) (captureAt_congr (fireProducer_firesOnly v 148).captures src)).trans hbank
  · have hfire := congrArg State.logUsed (fireProducer_firesOnly v 148)
    rw [← hwused, ← hlog]
    exact ht.logUsed.trans hfire
  · rw [ht.keptRegs, (fireProducer_touches v 148) _ _ (by decide), hno, hwno]

/-! ### KP_RESET (R569, R570, R572, R573) -/

theorem bridgeLost_idle (h : s.kbrRun = none) : bridgeLost s = s := by
  unfold bridgeLost bridgeCut
  rw [h]

/-- The count of warm resets is kept by what a warm and a cold reset share. -/
theorem rd_aDieWarm_count (also : List Field) (hidle : s.kbrRun = none) :
    rd (aDieWarm s also) F.GLB_RST_CAUSE_WARM_COUNT = rd s F.GLB_RST_CAUSE_WARM_COUNT := by
  have hdark : (goDarkAll s 6 false).kbrRun = s.kbrRun := by
    have e := congrArg State.kbrRun (goDarkAll_darkOnly s 6 false)
    exact e
  have hregs (u : State) : rd (aDieRegs u also) F.GLB_RST_CAUSE_WARM_COUNT = rd u F.GLB_RST_CAUSE_WARM_COUNT := by
    have hkept : keptFields.contains (F.GLB_RST_CAUSE_WARM_COUNT.key 0 % 1024) = true := by decide
    rw [rd, rd, aDieRegs]
    dsimp only
    rw [sget_sfilter, hkept, Bool.or_true, Bool.true_or, if_pos rfl]
  unfold aDieWarm
  dsimp only
  rw [bridgeLost_idle (hdark.trans hidle), rd_wr_field _ _ _ _ _ _ (by decide)]
  generalize hw : goDarkAll s 6 false = w
  change rd (wr (refreshCopies (aDieClear (aDieRegs w also))) F.MEM_STATUS_STATE 0 4) F.GLB_RST_CAUSE_WARM_COUNT 0 = _
  unfold refreshCopies
  rw [rd_wr_field _ _ _ _ _ _ (by decide), rd_wr_field _ _ _ _ _ _ (by decide), rd_wr_field _ _ _ _ _ _ (by decide)]
  refine (hregs w).trans ?_
  rw [← hw]
  exact goDarkAll_touches s 6 false _ _ (by decide)

theorem warmReset_counts {cause : Nat} (hrun : resetRunning s = false) (hidle : s.kbrRun = none) :
    rd (warmReset s cause) F.GLB_RST_CAUSE_WARM_COUNT = min (rd s F.GLB_RST_CAUSE_WARM_COUNT + 1) (2 ^ 16 - 1) := by
  unfold warmReset setCause
  rw [hrun, if_neg Bool.false_ne_true, rd_bump, rd_wr_ne _ _ _ _ _ _ (by decide), rd_aDieWarm_count _ hidle]
  rfl

theorem coldReset_runs (cause : Nat) (hc : cause < 2 ^ F.GLB_RST_CAUSE_CAUSE.width) (hrst : s.aDieReset = false) :
    rd (coldReset s cause) F.GLB_RST_CAUSE_WARM_COUNT = 0 ∧ ColdRuns cause (coldReset s cause) := by
  have hmarks (u : State) (a b : Bool) (f : Field) : rd { u with aDieReset := a, aDieReleased := b } f = rd u f := rfl
  unfold coldReset setCause
  rw [hrst, if_neg Bool.false_ne_true]
  refine ⟨?_, rfl, ?_⟩
  · rw [hmarks, rd_wr_same]
    rfl
  · rw [hmarks, rd_wr_ne _ _ _ _ _ _ (by decide), rd_wr_same, Nat.mod_eq_of_lt hc]

theorem portBegins_kbrRun (s : State) (p : Nat) : (portBegins s p).kbrRun = s.kbrRun := by
  unfold portBegins dropHold; split <;> rfl

section
variable (hready : s.keeperReady = true) (hidle : s.kbrRun = none) (hk : (kport s 0).kreset = false)
include hready hidle hk

theorem answers_kpResetWarm {key : Nat} (hkey : key = 0xA960) (hrun : resetRunning s = false) :
    Answers (exec (.kpResetWarm 0 key) s) fun t =>
      rd t F.GLB_RST_STATUS_WARM_BUSY = 1 ∧ rd t F.GLB_RST_CAUSE_CAUSE = 3 ∧ t.aDieReset = false
      ∧ rd t F.GLB_RST_CAUSE_WARM_COUNT = min (rd s F.GLB_RST_CAUSE_WARM_COUNT + 1) (2 ^ 16 - 1) := by
  subst hkey
  have hop : opWrite keeperRsts (portBegins s 0) 0x208 (1 + 0xA960 % 65536 * 65536) 0 = (KRes.ok, warmReset (portBegins s 0) 3) :=
    (opWrite_kpReset ..).trans (writeReset_warm _ _ (by decide) (by decide) (by decide))
  have hrun' : resetRunning (portBegins s 0) = false := (resetRunning_portBegins s 0).trans hrun
  refine answers_opDone (op := 2) (x := 0) hready hidle hk (exec_goodWrite hidle rfl) hop fun t k _ ht => ?_
  have hruns : WarmRuns 3 t := ((warmRuns_warmReset hrun' (by decide)).setKport 0 k).settled ht
  refine ⟨hruns.1.2, hruns.2, hruns.1.1, ?_⟩
  rw [ht.keptRegs, warmReset_counts hrun' ((portBegins_kbrRun s 0).trans hidle), portBegins_rd _ _ _ (by decide)]

theorem answers_kpResetCold {key : Nat} (hkey : key = 0xA960) (hrst : s.aDieReset = false) :
    Answers (exec (.kpResetCold 0 key) s) fun t =>
      t.aDieReset = true ∧ rd t F.GLB_RST_CAUSE_CAUSE = 1 ∧ rd t F.GLB_RST_CAUSE_WARM_COUNT = 0 := by
  subst hkey
  have hop : opWrite keeperRsts (portBegins s 0) 0x208 (2 + 0xA960 % 65536 * 65536) 0 = (KRes.ok, coldReset (portBegins s 0) 1) :=
    (opWrite_kpReset ..).trans (writeReset_cold _ _ (by decide) (by decide))
  refine answers_opDone (op := 2) (x := 0) hready hidle hk (exec_goodWrite hidle rfl) hop fun t k _ ht => ?_
  obtain ⟨hcount, hcold⟩ := coldReset_runs 1 (by decide) ((portBegins_aDieReset s 0).trans hrst)
  have hruns : ColdRuns 1 t := (hcold.setKport 0 k).settled ht
  exact ⟨hruns.1, hruns.2, (ht.keptRegs _ _).trans hcount⟩

/-- Without the key a WRITE of KP_RESET is refused (R570). -/
theorem refuses_kpReset {i : Instr} {key bits : Nat} (hlt : key < 2 ^ 16) (hkey : key ≠ 0xA960) (hbits : bits < 4)
    (hi : exec i s = onPort 0 s fun s => goodWrite s 0 0x208 (bits + key % 65536 * 65536)) :
    Answers (exec i s) fun t => (kport t 0).refused = true ∧ rd t F.KI_LAST_ERR_CODE = 5 := by
  have hword : bitsOf (bits + key % 65536 * 65536) 16 16 ≠ 0xA960 := by
    rw [Nat.mod_eq_of_lt (show key < 65536 from hlt), Nat.add_comm bits]
    have h := bitsOf_resetKey hlt hbits
    rw [show key * 65536 = key * 2 ^ 16 from rfl, h]
    exact hkey
  exact answers_opRefused (u := portBegins s 0) hready hidle hk (by decide) (exec_goodWrite hidle hi)
    ((opWrite_kpReset ..).trans (writeReset_unkeyed _ _ hword))

end

/-! ### The bridge (R532) -/

theorem answers_kbrGo {mid : Nat} (hreach : blockReach s 0 = true) (hd4 : domUp s 4 = true) (hidle : s.kbrRun = none) :
    Answers (exec (.kbrGo mid) s) fun t =>
      t.kbrRun = some ⟨rd s F.KBR_CMD_OPCODE, rd s F.KBR_CMD_ADDR, rd s F.KBR_WDATA_DATA, rd s F.KBR_TAIL_CLOCKS, s.ns⟩
      ∧ rd t F.KBR_STATUS_BUSY = 1 ∧ rd t F.GLB_STATUS_KEEPER_BUSY = 1
      ∧ Keeps [(F.KBR_STATUS_BUSY, 0), (F.GLB_STATUS_KEEPER_BUSY, 0)] s t := by
  refine answers_reach (f := kbrGo) hreach fun t ht => ?_
  have hgo : kbrGo s = wr (wr { s with kbrRun := some ⟨rd s F.KBR_CMD_OPCODE, rd s F.KBR_CMD_ADDR, rd s F.KBR_WDATA_DATA,
      rd s F.KBR_TAIL_CLOCKS, s.ns⟩ } F.KBR_STATUS_BUSY 0 1) F.GLB_STATUS_KEEPER_BUSY 0 1 := by
    unfold kbrGo
    rw [hd4, hidle]
    rfl
  rw [hgo] at ht
  refine ⟨ht.kbrRun, ?_, ?_, fun f i hf => ?_⟩
  · rw [ht.rd, rd_wr_field _ _ _ _ _ _ (by decide), rd_wr_same]
    rfl
  · rw [ht.rd, rd_wr_same]
    rfl
  · rw [ht.rd]
    exact ((Keeps.refl _ s).wr F.KBR_STATUS_BUSY 0 1 (by simp)).wr F.GLB_STATUS_KEEPER_BUSY 0 1 (by simp) f i hf

theorem answers_kbrGo_busy {mid : Nat} (hreach : blockReach s 0 = true) (hd4 : domUp s 4 = true) (hbusy : s.kbrRun.isSome = true) :
    Answers (exec (.kbrGo mid) s) fun t => rd t F.KBR_STATUS_CFG_ERR = 1 ∧ Changes [(F.KBR_STATUS_CFG_ERR, 0)] s t := by
  refine answers_reach (f := kbrGo) hreach fun t ht => ?_
  have hgo : kbrGo s = wr s F.KBR_STATUS_CFG_ERR 0 1 := by
    unfold kbrGo
    rw [hd4, hbusy]
    rfl
  rw [hgo] at ht
  exact ⟨(ht.rd _ _).trans (rd_wr_same ..), ht.changes ((Keeps.refl _ s).wr _ _ _ (by simp)) ((RegsOnly.refl s).wr ..)⟩

/-- Bytes of which no bit is inverted arrive as they are. -/
theorem flipped_zero {bs : List Nat} : flipped bs 0 = bs := by
  unfold flipped bitsOf
  simp only [Nat.zero_div, Nat.zero_mod, Nat.xor_zero]
  exact List.ext_getElem (by simp) fun i _ _ => by simp

/-- A READ of a register that the bridge runs. -/
theorem keeperFrame_bridgeRead {h : Hit} (hwin : ¬ (0x4000 ≤ addr ∧ addr < 0x8000)) (hreg : keeperRegAt addr = some h)
    (hentry : h.reg.rid ≠ R.KF_ENTRY.rid) (hkr : (kport s 1).kreset = false) (hhold : rd s F.KD_STATUS_HOLDING = 0) :
    keeperFrame keeperRsts s 1 1 addr data 0 false true
      = setKport s 1 ⟨false, false, false, false, false, statusByte s 1, keeperWord s h, replyBytes 1 addr (keeperWord s h)⟩ := by
  have hop : opRead s addr 0 = (⟨none, false, false, keeperWord s h⟩, s) := by
    unfold opRead
    rw [if_neg hwin, hreg]
    dsimp only
    rw [if_neg hentry, if_neg (by simp)]
  unfold keeperFrame
  dsimp only
  rw [hkr, portBegins_of_noHold hhold, show keeperOp keeperRsts s 1 1 addr data 0 false false = _ from hop]
  rfl

/-- The register's word arrives, and its CRC is right (R523, R524). -/
theorem replyBytes_word (addr data : Nat) : ofBytes ((replyBytes 1 addr data).take 4).reverse = data % 2 ^ 32
    ∧ crc8 (frameHead 1 addr ++ (replyBytes 1 addr data).take 4) = (replyBytes 1 addr data).getD 4 0 := by
  have hlen : (frameWord data).length = 4 := by rw [frameWord, List.length_reverse, toBytes_length]
  have htake : (replyBytes 1 addr data).take 4 = frameWord data := by
    rw [replyBytes, List.take_append_of_le_length hlen.ge, List.take_of_length_le hlen.le]
  have hget : (replyBytes 1 addr data).getD 4 0 = crc8 (frameHead 1 addr ++ frameWord data) := by
    rw [replyBytes, List.getD_append_right _ _ _ _ hlen.le, hlen]
    rfl
  rw [htake, hget]
  refine ⟨?_, rfl⟩
  rw [frameWord, List.reverse_reverse, ofBytes_toBytes]

/-- A READ that the bridge ran ends: the register's word and the status are stored (R532). -/
theorem answers_kbrDone {k : KbrRun} {h : Hit} (hrun : s.kbrRun = some k) (hop : k.opcode = 1) (htail : k.tail = 0)
    (hwin : ¬ (0x4000 ≤ k.addr ∧ k.addr < 0x8000)) (hreg : keeperRegAt k.addr = some h) (hentry : h.reg.rid ≠ R.KF_ENTRY.rid)
    (hd4 : domUp s 4 = true) (hlane : s.laneStopped = false) (hready : s.keeperReady = true) (hkr : (kport s 1).kreset = false)
    (hhold : rd s F.KD_STATUS_HOLDING = 0) : Answers (exec (.kbrDone 0) s) fun t =>
      rd t F.KBR_RDATA_DATA = keeperWord s h % 2 ^ 32 ∧ rd t F.KBR_STATUS_KSTAT = statusByte s 1 % 256
      ∧ rd t F.KBR_STATUS_DONE = 1 ∧ rd t F.KBR_STATUS_BUSY = 0 ∧ t.kbrRun = none := by
  obtain ⟨hword, hcrc⟩ := replyBytes_word k.addr (keeperWord s h)
  obtain ⟨v, hv⟩ : ∃ v, v = setKport s 1 ⟨false, false, false, false, false, statusByte s 1, keeperWord s h,
    replyBytes 1 k.addr (keeperWord s h)⟩ := ⟨_, rfl⟩
  have hvrun : v.kbrRun = some k := by rw [hv]; exact hrun
  have hvport : kport v 1 = ⟨false, false, false, false, false, statusByte s 1, keeperWord s h,
    replyBytes 1 k.addr (keeperWord s h)⟩ := by rw [hv]; exact kport_setKport ..
  have hdone : ∃ b, kbrDone s 0 = wr (wr (wr (wr (wr (wr { v with kbrRun := none } F.KBR_STATUS_BUSY 0 0) F.GLB_STATUS_KEEPER_BUSY 0 0)
      F.KBR_RDATA_DATA 0 (keeperWord s h % 2 ^ 32)) F.KBR_STATUS_KSTAT 0 (statusByte s 1)) F.KBR_STATUS_TAIL_KMISO 0 b)
      F.KBR_STATUS_DONE 0 1 := by
    unfold kbrDone
    rw [hrun]
    dsimp only
    rw [hd4, hlane, hready, if_neg (by decide), hop, htail, keeperFrame_bridgeRead hwin hreg hentry hkr hhold, ← hv, hvrun,
      hvport, flipped_zero]
    dsimp only
    rw [hword, if_pos hcrc]
    exact ⟨_, rfl⟩
  obtain ⟨b, hdone⟩ := hdone
  refine answers_finish fun t ht => ?_
  rw [hdone] at ht
  refine ⟨?_, ?_, ?_, ?_, ht.kbrRun⟩
  all_goals rw [ht.rd]
  · simp (disch := decide) only [rd_wr_field, rd_wr_same]
    exact Nat.mod_mod ..
  · simp (disch := decide) only [rd_wr_field, rd_wr_same]
    rfl
  · rw [rd_wr_same]
    rfl
  · simp (disch := decide) only [rd_wr_field, rd_wr_same]
    rfl

theorem answers_keeperPor (hready : s.keeperReady = false) : Answers (exec .keeperPor s) fun t => t.keeperReady = true := by
  refine answers_finish fun t ht => ?_
  rw [ht.keeperReady]
  unfold keeperPor
  rw [hready, if_neg Bool.false_ne_true]
  dsimp only
  split
  · exact congrArg State.keeperReady (fireProducer_firesOnly { s with keeperReady := true } 149)
  · rfl

end

/-- Settles O44, clause by clause. -/
theorem keeperUpdatesLogsAndBridges : Obligations.KeeperUpdatesLogsAndBridges := by
  unfold Obligations.KeeperUpdatesLogsAndBridges
  intro s
  dsimp only
  refine ⟨fun hready hidle hk => ⟨fun hash tail hh => ⟨?_, ?_, ?_, ?_⟩, fun k tail hkk hvf => ⟨?_, ?_⟩, ?_, fun key hkey => ⟨?_, ?_, ?_⟩⟩,
    fun mid hreach hd4 => ⟨?_, ?_⟩, ?_, ?_⟩
  · exact answers_kdIntent hready hidle hk hh
  · exact refuses_kdIntent hready hidle hk hh
  · exact answers_kdCommit hready hidle hk hh
  · exact refuses_kdCommit hready hidle hk hh
  · exact answers_step hready hidle hk hkk hvf
  · exact refuses_step hready hidle hk hkk hvf
  · intro src i max hnext _ hmax hused
    exact answers_poll hready hidle hk hnext hmax hused
  · exact answers_kpResetWarm hready hidle hk
  · exact answers_kpResetCold hready hidle hk
  · intro hne
    exact ⟨refuses_kpReset hready hidle hk hkey hne (bits := 1) (by decide) rfl,
      refuses_kpReset hready hidle hk hkey hne (bits := 2) (by decide) rfl⟩
  · exact answers_kbrGo hreach hd4
  · exact answers_kbrGo_busy hreach hd4
  · intro r h hrun hop htail hwin hreg hentry hd4 hlane hready hkr hhold
    exact answers_kbrDone hrun hop htail hwin hreg hentry hd4 hlane hready hkr hhold
  · exact answers_keeperPor

end Sys2Proof.Machine
end

section
/-! The twin block acts (R491 to R521): its control register, HELLO, release and handover, foghorns, line misses, takeover,
drive fights. -/
open Sys2Proof
namespace Sys2Proof.Machine

section
variable {s t u v w : State} {fs : List Field}

/-! ### Without TWN producers, a change of state changes STATE and DRIVING alone -/

/-- No producer of the TWN block is enabled. -/
def ProdsOff (s : State) : Prop := ∀ i, i < 8 → isSet s F.TWN_PROD_CFG_EN i = false

theorem ProdsOff.touches (h : ProdsOff s) (ht : Touches fs s u) (hfs : ∀ g ∈ fs, g.fid % 1024 ≠ F.TWN_PROD_CFG_EN.fid % 1024) :
    ProdsOff u := fun i hi => (isSet_congr (ht _ _ hfs)).trans (h i hi)

theorem twnProducers_none (h : ProdsOff s) (src : Nat) : twnProducers s src = s := by
  unfold twnProducers
  refine List.foldlRecOn (motive := fun t => t = s) _ _ rfl fun t ht i hi => ?_
  rw [h i (List.mem_range.mp hi), Bool.false_and, if_neg Bool.false_ne_true, ht]

/-- Of `s`, registers and what the twin block keeps beside them alone differ in `t`. -/
def TwnOnly (s t : State) : Prop := t = { s with regs := t.regs, twn := t.twn }

theorem TwnOnly.refl (s : State) : TwnOnly s s := rfl

theorem TwnOnly.trans (h : TwnOnly s t) (h' : TwnOnly t u) : TwnOnly s u := by
  unfold TwnOnly at *
  rw [h', h]

theorem RegsOnly.twnOnly (h : RegsOnly s t) : TwnOnly s t := by
  unfold RegsOnly at h
  unfold TwnOnly
  rw [h]

theorem TwnOnly.setTwn (h : TwnOnly s t) (k : Twn) : TwnOnly s (setTwn t k) := h.trans rfl

theorem RegsOnly.twn (h : RegsOnly s t) : t.twn = s.twn := by
  have e := congrArg State.twn h
  exact e

/-- The states that twin operation without alignment enters. -/
def plainState (st : Nat) : Prop := st < 2 ^ 4 ∧ st ≠ twALIGN ∧ st ≠ twWATCH

theorem setTwnState_eq (hoff : ProdsOff s) {st : Nat} (hst : plainState st) : setTwnState s st
    = if twnState s = st then s
      else wrBool (wr s F.TWN_STATUS_STATE 0 st) F.TWN_STATUS_DRIVING 0 (twnDrives st) := by
  obtain ⟨-, hal, hwa⟩ := hst
  have ht : Touches [F.TWN_STATUS_STATE, F.TWN_STATUS_DRIVING] s
      (wrBool (wr s F.TWN_STATUS_STATE 0 st) F.TWN_STATUS_DRIVING 0 (twnDrives st)) :=
    (Touches.refl.wr _ _ _ (by simp)).wr _ _ _ (by simp)
  unfold setTwnState
  dsimp only
  rw [if_neg (by simp [hal, hwa] : ¬(st = twALIGN ∨ st = twWATCH)), twnProducers_none (hoff.touches ht (by decide))]

theorem setTwnState_touches (hoff : ProdsOff s) {st : Nat} (hst : plainState st) :
    Touches [F.TWN_STATUS_STATE, F.TWN_STATUS_DRIVING] s (setTwnState s st) := by
  rw [setTwnState_eq hoff hst]
  exact Touches.ite .refl ((Touches.refl.wr _ _ _ (by simp)).wr _ _ _ (by simp))

theorem setTwnState_regsOnly (hoff : ProdsOff s) {st : Nat} (hst : plainState st) : RegsOnly s (setTwnState s st) := by
  rw [setTwnState_eq hoff hst]
  exact RegsOnly.ite (.refl s) (((RegsOnly.refl s).wr _ _ _).wrBool _ _ _)

theorem twnState_setTwnState (hoff : ProdsOff s) {st : Nat} (hst : plainState st) : twnState (setTwnState s st) = st := by
  rw [setTwnState_eq hoff hst]
  split
  · assumption
  · rw [twnState, wrBool_eq, rd_wr_field _ _ _ _ _ _ (by decide), rd_wr_same]
    exact Nat.mod_eq_of_lt hst.1

theorem driving_setTwnState (hoff : ProdsOff s) {st : Nat} (hst : plainState st) (hne : twnState s ≠ st) :
    rd (setTwnState s st) F.TWN_STATUS_DRIVING = (twnDrives st).toNat := by
  rw [setTwnState_eq hoff hst, if_neg hne, wrBool_eq, rd_wr_same]
  cases twnDrives st <;> rfl

theorem twnEvt_touches (s : State) (b : Nat) : Touches [F.TWN_EVT_EVT] s (twnEvt s b) :=
  Touches.refl.wr F.TWN_EVT_EVT 0 _ (by simp)

theorem twnEvt_sets (s : State) {b : Nat} (hb : b < 16) : hasBit (twnEvt s b) F.TWN_EVT_EVT 0 b = true := hasBit_setBit s F.TWN_EVT_EVT 0 b hb

theorem twnEvt_regsOnly (s : State) (b : Nat) : RegsOnly s (twnEvt s b) := (RegsOnly.refl s).setBit _ _ _

/-! ### The packets that wait to be sent -/

/-- What carries the twin's packets: the powers, the resets, the link and its patterns. -/
def carryFields : List Field :=
  [F.KP_GOOD_DOMAINS, F.GLB_RST_STATUS_WARM_BUSY, F.TWN_STATUS_LINK_UP, F.TWN_TX_CFG_PRBS_EN, F.TWN_RX_PRBS_CFG_EN]

theorem twnCarries_congr (h : TwnOnly s u) (ht : Touches fs s u)
    (hfs : ∀ f ∈ carryFields, ∀ g ∈ fs, g.fid % 1024 ≠ f.fid % 1024) : twnCarries u = twnCarries s := by
  unfold TwnOnly at h
  have hadie : u.aDieReset = s.aDieReset := by rw [h]
  have hlane : u.laneStopped = s.laneStopped := by rw [h]
  have hrd (f : Field) (hf : f ∈ carryFields) : rd u f = rd s f := ht f 0 (hfs f hf)
  unfold twnCarries twnPrbs
  rw [domUp_congr (hrd _ (by simp [carryFields])) (hrd _ (by simp [carryFields])) hadie hlane,
    isSet_congr (hrd F.TWN_STATUS_LINK_UP (by simp [carryFields])),
    isSet_congr (hrd F.TWN_TX_CFG_PRBS_EN (by simp [carryFields])),
    isSet_congr (hrd F.TWN_RX_PRBS_CFG_EN (by simp [carryFields]))]

/-- A packet but FS joins the queue where the link carries packets. -/
theorem twnPush_eq (s : State) {ty : Nat} (hty : ty ≠ tpFS) (p : List Nat) : twnPush s ty p
    = setTwn s { s.twn with txq := if twnCarries s then s.twn.txq ++ [(ty, p)] else s.twn.txq } := by
  unfold twnPush
  cases hc : twnCarries s
  · rfl
  · rw [Bool.not_true, if_neg Bool.false_ne_true, if_neg (by simp [hty]), if_pos rfl]

theorem twnPush_touches (s : State) {ty : Nat} (hty : ty ≠ tpFS) (p : List Nat) : Touches [] s (twnPush s ty p) := by
  rw [twnPush_eq s hty]
  exact .of_regs rfl

theorem twnPush_twnOnly (s : State) {ty : Nat} (hty : ty ≠ tpFS) (p : List Nat) : TwnOnly s (twnPush s ty p) := by
  rw [twnPush_eq s hty]
  rfl

theorem twnPush_txq {ty : Nat} (hty : ty ≠ tpFS) (p : List Nat) (hc : twnCarries s = true) :
    (twnPush s ty p).twn.txq = s.twn.txq ++ [(ty, p)] := by
  rw [twnPush_eq s hty, if_pos hc]
  rfl

/-! ### The receive lane and the relays that follow it -/

/-- What a relay that starts or stops may change (R271). -/
def relayFields : List Field :=
  [F.RLY_STATUS_STATE, F.RLY_STATUS_CLK_OUT, F.RLY_EVT_EVT, F.RLY_STOPS_COUNT, F.RLY_STATUS_LATENCY_NS] ++ beaconFields

theorem relaySync_touches (s : State) (k : Nat) : Touches relayFields s (relaySync s k) := by
  have hstart : Touches relayFields s (relayStart s k) := by
    unfold relayStart
    dsimp only
    have h : Touches relayFields s (setBit (wr (wr (lineStart s k) F.RLY_STATUS_STATE k 2) F.RLY_STATUS_CLK_OUT k 1) F.RLY_EVT_EVT k 1) :=
      (((Touches.of_regs rfl).wr _ _ _ (by simp [relayFields])).wr _ _ _ (by simp [relayFields])).wr _ _ _ (by simp [relayFields])
    refine Touches.ite (Touches.wr ?_ _ _ _ (by simp [relayFields])) h
    exact h.trans (.of_regs rfl)
  have hstop : Touches relayFields s (relayStop s k) := by
    unfold relayStop
    refine Touches.trans ?_ ((fireProducer_touches _ _).mono fun _ hf => List.mem_append_right _ hf)
    exact (((Touches.refl.wr _ _ _ (by simp [relayFields])).wr _ _ _ (by simp [relayFields])).wr _ _ _
      (by simp [relayFields])).wr _ _ _ (by simp [relayFields])
  unfold relaySync
  refine Touches.ite (Touches.ite .refl ?_) (Touches.ite (Touches.ite .refl hstart) (Touches.ite hstop ?_))
  · exact (Touches.refl.wr _ _ _ (by simp [relayFields])).wr _ _ _ (by simp [relayFields])
  · exact Touches.refl.wr _ _ _ (by simp [relayFields])

theorem relaysSync_touches (s : State) : Touches relayFields s (relaysSync s) :=
  Touches.foldl _ _ (fun u k => relaySync_touches u k) s

theorem setRxState_twin (s : State) (st : Nat) : setRxState s 8 st = wr s F.TWN_RX_STATUS_STATE 0 st := rfl

theorem dropLanes_twin_regs (s : State) : (dropLanes s 8).regs = s.regs := rfl

/-- The twin's lane that is enabled waits for its clock, or a checker takes it. -/
theorem rxEnabled_twin (s : State) : Touches [F.TWN_RX_STATUS_STATE] s (rxEnabled s 8) ∧ (rxEnabled s 8).twn = s.twn := by
  have hawait (u : State) : Touches [F.TWN_RX_STATUS_STATE] u (awaitClock u 8) ∧ (awaitClock u 8).twn = u.twn :=
    ⟨(Touches.of_regs rfl).wr _ _ _ (by simp), rfl⟩
  unfold rxEnabled
  dsimp only
  obtain ⟨ha, ht⟩ := hawait (setPrt s 8 { Prt.init with measured := (prtAt s 8).measured, checkers := (prtAt s 8).checkers })
  split
  · exact ⟨((Touches.of_regs rfl).trans ha).wr _ _ _ (by simp), ht⟩
  · exact ⟨(Touches.of_regs rfl).trans ha, ht⟩

/-- What the twin's lane may change where it is disabled. -/
def laneOffFields : List Field :=
  [F.TWN_RX_STATUS_STATE, F.TWN_RX_STATUS_LINK_UP, F.TWN_RX_STATUS_CLK_PRESENT, F.TWN_STATUS_LINK_UP, F.TWN_EVT_EVT] ++ relayFields

theorem rxDisabled_twin (s : State) : Touches laneOffFields s (rxDisabled s 8) := by
  have hdown : Touches laneOffFields s (linkDown s 8 pOFF) := by
    unfold linkDown
    refine Touches.ite (Touches.refl.wr _ _ _ (by simp [laneOffFields])) ?_
    dsimp only
    rw [if_pos rfl]
    unfold twnLinkDown
    refine Touches.trans ?_ (.of_regs rfl)
    refine Touches.wr (Touches.wr (Touches.wr (Touches.refl.wr _ _ _ ?_) _ _ _ ?_) _ _ _ ?_) _ _ _ ?_ <;> simp [laneOffFields]
  unfold rxDisabled
  dsimp only
  rw [if_pos rfl]
  refine Touches.trans ?_ ((relaysSync_touches _).mono fun _ hf => List.mem_append_right _ hf)
  refine Touches.trans (Touches.wr hdown F.TWN_RX_STATUS_CLK_PRESENT 0 0 (by simp [laneOffFields])) ?_
  exact .of_regs rfl

/-! ### TWN_CTL (R492, R502) -/

/-- TWN_CTL with SOLO_OK and EN written. -/
def ctlWritten (s : State) (val : Nat) : State :=
  wrBool (wrBool s F.TWN_CTL_SOLO_OK 0 (val.testBit 1)) F.TWN_CTL_EN 0 (val.testBit 0)

theorem ctlWritten_touches (s : State) (val : Nat) : Touches [F.TWN_CTL_SOLO_OK, F.TWN_CTL_EN] s (ctlWritten s val) :=
  (Touches.refl.wr _ _ _ (by simp)).wr _ _ _ (by simp)

theorem ctlWritten_en (s : State) (val : Nat) : rd (ctlWritten s val) F.TWN_CTL_EN = if val.testBit 0 then 1 else 0 := by
  rw [ctlWritten, wrBool_eq _ F.TWN_CTL_EN, rd_wr_same]
  split <;> rfl

theorem ctlWritten_solo (s : State) (val : Nat) : rd (ctlWritten s val) F.TWN_CTL_SOLO_OK = val / 2 % 2 := by
  have h : (if val.testBit 1 = true then 1 else 0) = val / 2 % 2 := by
    have h2 := Nat.mod_two_eq_zero_or_one (val / 2)
    rw [Nat.testBit_eq_decide_div_mod_eq]
    rcases h2 with h2 | h2 <;> simp [h2]
  rw [ctlWritten, wrBool_eq _ F.TWN_CTL_EN, rd_wr_field _ _ _ _ _ _ (by decide), wrBool_eq, rd_wr_same, h]
  exact Nat.mod_mod ..

/-- A write of TWN_CTL that keeps MISS_LIMIT and is not discarded. -/
theorem twnCtlWrite_eq {val : Nat} (hlim : val / 2 ^ 2 % 2 ^ 4 = rd s F.TWN_CTL_MISS_LIMIT)
    (hmay : (!val.testBit 0 && twnBusyState (twnState s)) = false) : twnCtlWrite s val
    = if val.testBit 0 && !isSet s F.TWN_CTL_EN then
        setTwnState (setTwn (ctlWritten s val) { s.twn with searchAt := s.ns }) twSEARCH
      else if !val.testBit 0 && isSet s F.TWN_CTL_EN then
        setTwnState (setHandover (setTwn (ctlWritten s val) { s.twn with confirmed := none }) none) twOFF
      else ctlWritten s val := by
  have hkeep : bitsOf val 2 4 = rd (wrBool s F.TWN_CTL_SOLO_OK 0 (val.testBit 1)) F.TWN_CTL_MISS_LIMIT := by
    rw [wrBool_eq, rd_wr_field _ _ _ _ _ _ (by decide)]
    exact hlim
  have hwas : isSet (wrBool s F.TWN_CTL_SOLO_OK 0 (val.testBit 1)) F.TWN_CTL_EN = isSet s F.TWN_CTL_EN :=
    isSet_congr (rd_wr_field _ _ _ _ _ _ (by decide))
  unfold twnCtlWrite
  dsimp only
  rw [if_neg (by rw [hmay]; decide), if_pos hkeep, hwas]
  rfl

theorem plain_search : plainState twSEARCH := ⟨by decide, by decide, by decide⟩
theorem plain_off : plainState twOFF := ⟨by decide, by decide, by decide⟩
theorem plain_handshake : plainState twHANDSHAKE := ⟨by decide, by decide, by decide⟩
theorem plain_released : plainState twRELEASED := ⟨by decide, by decide, by decide⟩
theorem plain_solo : plainState twSOLO := ⟨by decide, by decide, by decide⟩

/-- EN from OFF begins the search, not driving (R502). -/
theorem answers_ctlEnable {val : Nat} (hoff : ProdsOff s) (hreach : blockReach s 5 = true) (hst : twnState s = twOFF)
    (hen : isSet s F.TWN_CTL_EN = false) (hval : val.testBit 0 = true)
    (hlim : val / 2 ^ 2 % 2 ^ 4 = rd s F.TWN_CTL_MISS_LIMIT) : Answers (exec (.twnCtlWrite val) s) fun t =>
      twnState t = twSEARCH ∧ rd t F.TWN_CTL_EN = 1 ∧ rd t F.TWN_CTL_SOLO_OK = val / 2 % 2 ∧ rd t F.TWN_STATUS_DRIVING = 0
      ∧ t.twn.searchAt = s.ns := by
  obtain ⟨v, hv⟩ : ∃ v, v = setTwn (ctlWritten s val) { s.twn with searchAt := s.ns } := ⟨_, rfl⟩
  obtain ⟨w, hw⟩ : ∃ w, w = setTwnState v twSEARCH := ⟨_, rfl⟩
  have hwrite : twnCtlWrite s val = w := by
    rw [hw, hv, twnCtlWrite_eq hlim (by rw [hval]; rfl), hval, hen]
    rfl
  have hvt : Touches [F.TWN_CTL_SOLO_OK, F.TWN_CTL_EN] s v := by
    rw [hv]
    exact (ctlWritten_touches s val).trans (.of_regs rfl)
  have hvoff : ProdsOff v := hoff.touches hvt (by decide)
  have hvst : twnState v ≠ twSEARCH := by
    rw [twnState, hvt _ _ (by decide)]
    rw [twnState] at hst
    rw [hst]
    decide
  have hwt : Touches [F.TWN_STATUS_STATE, F.TWN_STATUS_DRIVING] v w := hw ▸ setTwnState_touches hvoff plain_search
  have hven : rd v F.TWN_CTL_EN = 1 := by
    rw [hv]
    refine (ctlWritten_en s val).trans ?_
    rw [hval]
    rfl
  have hwen : isSet w F.TWN_CTL_EN = true := by
    rw [isSet, hwt _ _ (by decide), hven]
    rfl
  have hrun : twnCtlRun s val = rxEnabled (lineStart w twinLine) 8 := by
    unfold twnCtlRun
    dsimp only
    rw [hwrite, hen, hwen]
  obtain ⟨hrx, hrxt⟩ := rxEnabled_twin (lineStart w twinLine)
  have hrx : Touches [F.TWN_RX_STATUS_STATE] w (rxEnabled (lineStart w twinLine) 8) := (Touches.of_regs rfl).trans hrx
  refine answers_reach (f := fun s => twnCtlRun s val) hreach fun t ht => ?_
  rw [hrun] at ht
  refine ⟨?_, ?_, ?_, ?_, ?_⟩
  · rw [twnState, ht.rd, hrx _ _ (by decide), hw]
    exact twnState_setTwnState hvoff plain_search
  · rw [ht.rd, hrx _ _ (by decide), hwt _ _ (by decide), hven]
  · rw [ht.rd, hrx _ _ (by decide), hwt _ _ (by decide), hv]
    exact ctlWritten_solo s val
  · rw [ht.rd, hrx _ _ (by decide), hw, driving_setTwnState hvoff plain_search hvst]
    rfl
  · rw [ht.twn, hrxt]
    change w.twn.searchAt = s.ns
    rw [hw, (setTwnState_regsOnly hvoff plain_search).twn, hv]
    rfl

theorem answers_evt13 {i : Instr} {f : State → State} (hi : exec i s = finish s (inReach 5 s f)) (hreach : blockReach s 5 = true)
    (hf : f s = twnEvt s 13) : Answers (exec i s) fun t =>
      hasBit t F.TWN_EVT_EVT 0 13 = true ∧ Changes [(F.TWN_EVT_EVT, 0)] s t := by
  rw [hi]
  refine answers_reach hreach fun t ht => ?_
  rw [hf] at ht
  exact ⟨by rw [ht.hasBit]; exact twnEvt_sets s (by decide),
    ht.changes ((Keeps.refl _ s).wr F.TWN_EVT_EVT 0 _ (by simp)) (twnEvt_regsOnly s 13)⟩

/-- Clearing EN in a state that cannot end is discarded with an event (R492). -/
theorem answers_ctlDiscards {val : Nat} (hreach : blockReach s 5 = true)
    (hst : twnState s ∈ [twHANDSHAKE, twALIGN, twLEAD, twWATCH]) (hval : val.testBit 0 = false) :
    Answers (exec (.twnCtlWrite val) s) fun t => hasBit t F.TWN_EVT_EVT 0 13 = true ∧ Changes [(F.TWN_EVT_EVT, 0)] s t := by
  have hbusy : twnBusyState (twnState s) = true := by
    have hall : ∀ st ∈ [twHANDSHAKE, twALIGN, twLEAD, twWATCH], twnBusyState st = true := by decide
    exact hall _ hst
  have hwrite : twnCtlWrite s val = twnEvt s 13 := by
    unfold twnCtlWrite
    dsimp only
    rw [hbusy, hval]
    rfl
  have hrun : twnCtlRun s val = twnEvt s 13 := by
    have hen : isSet (twnEvt s 13) F.TWN_CTL_EN = isSet s F.TWN_CTL_EN := isSet_congr (twnEvt_touches s 13 _ _ (by decide))
    unfold twnCtlRun
    dsimp only
    rw [hwrite, hen]
    cases isSet s F.TWN_CTL_EN <;> rfl
  exact answers_evt13 (f := fun s => twnCtlRun s val) rfl hreach hrun

theorem setHandover_touches (s : State) (h : Option Handover) : Touches [F.TWN_STATUS_HANDOVER_PENDING] s (setHandover s h) :=
  (Touches.of_regs rfl).wr _ _ _ (by simp)

/-- Clearing EN in a state that can end leads to OFF, driving (R491, R492). -/
theorem answers_ctlDisable {val : Nat} (hoff : ProdsOff s) (hreach : blockReach s 5 = true)
    (hst : twnState s ∈ [twSEARCH, twSOLO, twRELEASED, twMISMATCH]) (hen : isSet s F.TWN_CTL_EN = true)
    (hval : val.testBit 0 = false) (hlim : val / 2 ^ 2 % 2 ^ 4 = rd s F.TWN_CTL_MISS_LIMIT) :
    Answers (exec (.twnCtlWrite val) s) fun t =>
      twnState t = twOFF ∧ rd t F.TWN_CTL_EN = 0 ∧ rd t F.TWN_STATUS_DRIVING = 1 := by
  obtain ⟨v, hv⟩ : ∃ v, v = setHandover (setTwn (ctlWritten s val) { s.twn with confirmed := none }) none := ⟨_, rfl⟩
  obtain ⟨w, hw⟩ : ∃ w, w = setTwnState v twOFF := ⟨_, rfl⟩
  have hbusy : twnBusyState (twnState s) = false ∧ twnState s ≠ twOFF := by
    have hall : ∀ st ∈ [twSEARCH, twSOLO, twRELEASED, twMISMATCH], twnBusyState st = false ∧ st ≠ twOFF := by decide
    exact hall _ hst
  have hwrite : twnCtlWrite s val = w := by
    rw [hw, hv, twnCtlWrite_eq hlim (by rw [hbusy.1, Bool.and_false]), hval, hen]
    rfl
  have hvt : Touches [F.TWN_CTL_SOLO_OK, F.TWN_CTL_EN, F.TWN_STATUS_HANDOVER_PENDING] s v := by
    rw [hv]
    refine Touches.trans ?_ ((setHandover_touches _ none).mono (by simp))
    exact ((ctlWritten_touches s val).mono (by simp)).trans (.of_regs rfl)
  have hvoff : ProdsOff v := hoff.touches hvt (by decide)
  have hvst : twnState v ≠ twOFF := by
    rw [twnState, hvt _ _ (by decide)]
    exact hbusy.2
  have hwt : Touches [F.TWN_STATUS_STATE, F.TWN_STATUS_DRIVING] v w := hw ▸ setTwnState_touches hvoff plain_off
  have hwen : rd w F.TWN_CTL_EN = 0 := by
    rw [hwt _ _ (by decide), hv, setHandover_touches _ _ _ _ (by decide)]
    refine (ctlWritten_en s val).trans ?_
    rw [hval]
    rfl
  have hrun : twnCtlRun s val = rxDisabled w 8 := by
    have hwen' : isSet w F.TWN_CTL_EN = false := by
      rw [isSet, hwen]
      rfl
    unfold twnCtlRun
    dsimp only
    rw [hwrite, hen, hwen']
  refine answers_reach (f := fun s => twnCtlRun s val) hreach fun t ht => ?_
  rw [hrun] at ht
  refine ⟨?_, ?_, ?_⟩
  · rw [twnState, ht.rd, rxDisabled_twin w _ _ (by decide), hw]
    exact twnState_setTwnState hvoff plain_off
  · rw [ht.rd, rxDisabled_twin w _ _ (by decide), hwen]
  · rw [ht.rd, rxDisabled_twin w _ _ (by decide), hw, driving_setTwnState hvoff plain_off hvst]
    rfl

/-! ### HELLO (R498 to R500) -/

/-- A register reads alike where no field of it is touched. -/
theorem regBytes_congr (ht : Touches fs s u) {r : Reg}
    (hr : (r.fields.all fun f => fs.all fun g => decide (g.fid % 1024 ≠ f.fid % 1024)) = true) (i : Nat) :
    regBytes u r i = regBytes s r i := by
  have hfield : ∀ f ∈ r.fields, rd u f i = rd s f i := by
    intro f hf
    refine ht f i fun g hg => ?_
    exact of_decide_eq_true (List.all_eq_true.mp (List.all_eq_true.mp hr f hf) g hg)
  have hfold : ∀ (l : List Field) (a : Nat), (∀ f ∈ l, rd u f i = rd s f i) →
      l.foldl (fun a f => a + rd u f i * 2 ^ f.lo) a = l.foldl (fun a f => a + rd s f i * 2 ^ f.lo) a := by
    intro l
    induction l with
    | nil => intro a _; rfl
    | cons f l ih =>
      intro a h
      rw [List.foldl_cons, List.foldl_cons, h f (by simp)]
      exact ih _ fun g hg => h g (by simp [hg])
  unfold regBytes rawReg
  rw [hfold r.fields 0 hfield]

/-- The configuration hash does not depend on the register that holds it. -/
theorem cfgHash_written (s : State) (x : Nat) : cfgHash (wr s F.TWN_CFG_HASH_VALUE 0 x) = cfgHash s := by
  have ht : Touches [F.TWN_CFG_HASH_VALUE] s (wr s F.TWN_CFG_HASH_VALUE 0 x) := Touches.refl.wr _ _ _ (by simp)
  have hreg {r : Reg} (hr : (r.fields.all fun f => [F.TWN_CFG_HASH_VALUE].all fun g => decide (g.fid % 1024 ≠ f.fid % 1024)) = true)
      (i : Nat) : regBytes (wr s F.TWN_CFG_HASH_VALUE 0 x) r i = regBytes s r i := regBytes_congr ht hr i
  unfold cfgHash isSet hasBit
  simp (disch := decide) only [rd_wr_field, hreg, List.flatMap_cons, List.flatMap_nil]

theorem helloBytes_written (s : State) (x st : Nat) : helloBytes (wr s F.TWN_CFG_HASH_VALUE 0 x) st = helloBytes s st := by
  unfold helloBytes
  rw [cfgHash_written]
  simp (disch := decide) only [rd_wr_field]

/-- HELLO of a device with a valid image hash leaves, and the handshake begins (R498). -/
theorem answers_hello (hoff : ProdsOff s) (hreach : blockReach s 5 = true) (hen : isSet s F.TWN_CTL_EN = true)
    (hvalid : isSet s F.SQ_HASH_CTL_VALID = true) (hdrv : twnDriver (twnState s) = false) (hpeer : s.twn.peer = none) :
    Answers (exec .twnHello s) fun t =>
      rd t F.TWN_CFG_HASH_VALUE = cfgHash s % 2 ^ 64 ∧ twnState t = twHANDSHAKE ∧ t.twn.ownState = some (twnState s)
      ∧ (twnCarries s = true → t.twn.txq = s.twn.txq ++ [(tpHELLO, helloBytes s (twnState s))]) := by
  obtain ⟨v, hv⟩ : ∃ v, v = wr s F.TWN_CFG_HASH_VALUE 0 (cfgHash s) := ⟨_, rfl⟩
  have hvt : Touches [F.TWN_CFG_HASH_VALUE] s v := hv ▸ Touches.refl.wr _ _ _ (by simp)
  have hvo : RegsOnly s v := hv ▸ (RegsOnly.refl s).wr _ _ _
  obtain ⟨p, hp⟩ : ∃ p, p = twnPush v tpHELLO (helloBytes v (twnState s)) := ⟨_, rfl⟩
  have hpt : Touches [] v p := hp ▸ twnPush_touches v (by decide) _
  obtain ⟨w, hw⟩ : ∃ w, w = setTwn p { p.twn with helloWait := false, ownState := some (twnState s), fogNext := none } := ⟨_, rfl⟩
  have hwt : Touches [F.TWN_CFG_HASH_VALUE] s w := by
    rw [hw]
    exact (hvt.trans (hpt.mono (by simp))).trans (.of_regs rfl)
  have hwoff : ProdsOff w := hoff.touches hwt (by decide)
  have hregs := setTwnState_regsOnly hwoff plain_handshake
  have hpp : p.twn.peer = none := by
    rw [hp, twnPush_eq v (by decide)]
    exact (congrArg Twn.peer hvo.twn).trans hpeer
  have hnow : helloNow s = setTwnState w twHANDSHAKE := by
    have hlone (u : State) (hu : u.twn.peer = none) : tryPair u = u := by
      unfold tryPair
      rw [hu]
      split <;> simp_all
    unfold helloNow
    dsimp only
    rw [← hv, ← hp, if_neg (by rw [hdrv]; decide)]
    refine (hlone _ ?_).trans ?_
    · rw [hw] at hregs
      exact (congrArg Twn.peer hregs.twn).trans hpp
    · rw [hw]
      rfl
  have hsend : sendHello s = setTwnState w twHANDSHAKE := by
    unfold sendHello
    rw [hen, hvalid]
    exact hnow
  refine answers_reach (f := sendHello) hreach fun t ht => ?_
  rw [hsend] at ht
  have htwn : t.twn = w.twn := ht.twn.trans hregs.twn
  refine ⟨?_, ?_, ?_, fun hc => ?_⟩
  · rw [ht.rd, setTwnState_touches hwoff plain_handshake _ _ (by decide), hw]
    change rd p F.TWN_CFG_HASH_VALUE 0 = _
    rw [hpt _ _ (by decide), hv, rd_wr_same]
    rfl
  · rw [twnState, ht.rd]
    exact twnState_setTwnState hwoff plain_handshake
  · rw [htwn, hw]
    rfl
  · have hcv : twnCarries v = true := (twnCarries_congr hvo.twnOnly hvt (by decide)).trans hc
    rw [htwn, hw]
    change p.twn.txq = _
    rw [hp, twnPush_txq (by decide) _ hcv, hvo.twn, hv, helloBytes_written]

/-- Without a valid image hash the engine runs first (R500). -/
theorem answers_helloWaits (hreach : blockReach s 5 = true) (hen : isSet s F.TWN_CTL_EN = true)
    (hvalid : isSet s F.SQ_HASH_CTL_VALID = false) (hd21 : domUp s 21 = true) (hdue : s.hashDue = none) :
    Answers (exec .twnHello s) fun t =>
      t.twn.helloWait = true ∧ t.hashDue = some (s.ns + 40960) ∧ twnState t = twnState s := by
  have hsend : sendHello s = wr (wr { setTwn s { s.twn with helloWait := true } with
      hashDue := some (s.ns + 40960), hashDirty := false } F.SQ_HASH_CTL_BUSY 0 1) F.SQ_HASH_CTL_VALID 0 0 := by
    have hd : domUp (setTwn s { s.twn with helloWait := true }) 21 = true := hd21
    unfold sendHello hashStart
    rw [hen, hvalid]
    dsimp only
    rw [hd]
    simp [setTwn, hdue]
  refine answers_reach (f := sendHello) hreach fun t ht => ?_
  rw [hsend] at ht
  refine ⟨?_, ht.hashDue, ?_⟩
  · rw [ht.twn]
    rfl
  · rw [twnState, ht.rd, rd_wr_field _ _ _ _ _ _ (by decide), rd_wr_field _ _ _ _ _ _ (by decide)]
    rfl

/-! ### Release and handover (R516 to R518) -/

theorem twnRole_touches (s : State) (kind time : Nat) : Touches [] s (twnRole s kind time) := twnPush_touches s (by decide) _

theorem twnRole_twnOnly (s : State) (kind time : Nat) : TwnOnly s (twnRole s kind time) := twnPush_twnOnly s (by decide) _

/-- A state entered with its event. -/
theorem enter_evt {st b : Nat} (hoff : ProdsOff s) (hst : plainState st) (hne : twnState s ≠ st) (hb : b < 16)
    (ht : Settled (twnEvt (setTwnState s st) b) t) :
    twnState t = st ∧ hasBit t F.TWN_EVT_EVT 0 b = true ∧ rd t F.TWN_STATUS_DRIVING = (twnDrives st).toNat ∧ t.twn = s.twn := by
  refine ⟨?_, ?_, ?_, ?_⟩
  · rw [twnState, ht.rd, twnEvt_touches _ _ _ _ (by decide)]
    exact twnState_setTwnState hoff hst
  · rw [ht.hasBit]
    exact twnEvt_sets _ hb
  · rw [ht.rd, twnEvt_touches _ _ _ _ (by decide)]
    exact driving_setTwnState hoff hst hne
  · rw [ht.twn, (twnEvt_regsOnly _ _).twn, (setTwnState_regsOnly hoff hst).twn]

/-- The watch releases itself (R517). -/
theorem answers_releaseWatch (hoff : ProdsOff s) (hreach : blockReach s 5 = true) (hst : twnState s = twWATCH) :
    Answers (exec .twnRelease s) fun t =>
      twnState t = twRELEASED ∧ hasBit t F.TWN_EVT_EVT 0 7 = true ∧ rd t F.TWN_STATUS_DRIVING = 0
      ∧ (twnCarries s = true → t.twn.txq = s.twn.txq ++ [(tpROLE, [3, 0, 0, 0] ++ toBytes 8 0)]) := by
  have hrel : twnRelease s = twnEvt (setTwnState (twnRole s 3 0) twRELEASED) 7 := if_pos hst
  have hst' : twnState (twnRole s 3 0) = twWATCH := (twnRole_touches s 3 0 _ _ (by decide)).trans hst
  refine answers_reach (f := twnRelease) hreach fun t ht => ?_
  rw [hrel] at ht
  obtain ⟨hstate, hevt, hdrv, htwn⟩ := enter_evt (hoff.touches (twnRole_touches s 3 0) (by decide)) plain_released
    (by rw [hst']; decide) (by decide) ht
  exact ⟨hstate, hevt, hdrv, fun hc => by rw [htwn]; exact twnPush_txq (by decide) _ hc⟩

/-- A quiet time is not before the time it is sought from, and quiet (R513, R518). -/
theorem quietTime_quiet (s : State) (x : Nat) : x ≤ quietTime s x ∧ sharedQuiet s (quietTime s x) = true := by
  obtain ⟨ends, hends⟩ : ∃ l, l = ((sharedPulses s).map Pulse.stop).filter fun e => x ≤ e := ⟨_, rfl⟩
  have hge : ∀ y ∈ x :: ends, x ≤ y := by
    intro y hy
    rcases List.mem_cons.mp hy with rfl | hy
    · exact le_refl _
    · rw [hends] at hy
      simpa using (List.mem_filter.mp hy).2
  obtain ⟨m, hm, hmax⟩ : ∃ m ∈ x :: ends, ∀ y ∈ x :: ends, y ≤ m := by
    have hne : (x :: ends) ≠ [] := by simp
    exact ⟨(x :: ends).max hne, List.max_mem hne, fun y hy => List.le_max_of_mem hy⟩
  have hquiet : sharedQuiet s m = true := by
    refine List.all_eq_true.mpr fun p hp => ?_
    have hstop : p.stop ≤ m := by
      by_cases hx : x ≤ p.stop
      · refine hmax _ (List.mem_cons_of_mem _ ?_)
        rw [hends]
        exact List.mem_filter.mpr ⟨List.mem_map_of_mem hp, by simpa using hx⟩
      · have := hge m hm
        omega
    rw [decide_eq_true hstop, Bool.true_or]
  have hfind : (((x :: ends).insertionSort (· ≤ ·)).find? (sharedQuiet s)).isSome = true := by
    rw [List.find?_isSome]
    exact ⟨m, (List.mem_insertionSort _).mpr hm, hquiet⟩
  obtain ⟨q, hq⟩ := Option.isSome_iff_exists.mp hfind
  have htime : quietTime s x = q := by
    unfold quietTime
    dsimp only
    rw [← hends, hq]
    rfl
  rw [htime]
  exact ⟨hge q ((List.mem_insertionSort _).mp (List.mem_of_find?_eq_some hq)), List.find?_some hq⟩

theorem setHandover_pending (s : State) (h : Option Handover) :
    rd (setHandover s h) F.TWN_STATUS_HANDOVER_PENDING = h.isSome.toNat := by
  unfold setHandover
  rw [wrBool_eq, rd_wr_same]
  cases h <;> rfl

theorem setHandover_twn (s : State) (h : Option Handover) : (setHandover s h).twn = { s.twn with handover := h } := rfl

theorem setHandover_twnOnly (s : State) (h : Option Handover) : TwnOnly s (setHandover s h) := rfl

/-- The lead offers its release at a quiet time (R518). -/
theorem answers_releaseLead (hreach : blockReach s 5 = true) (hst : twnState s = twLEAD) (hnone : s.twn.handover = none) :
    Answers (exec .twnRelease s) fun t => ∃ T, s.tb + 10000 ≤ T ∧ sharedQuiet s T = true
      ∧ t.twn.handover = some ⟨T, true, false, false⟩ ∧ rd t F.TWN_STATUS_HANDOVER_PENDING = 1 ∧ twnState t = twLEAD
      ∧ (twnCarries s = true → t.twn.txq = s.twn.txq ++ [(tpROLE, [1, 0, 0, 0] ++ toBytes 8 T)]) := by
  obtain ⟨hge, hquiet⟩ := quietTime_quiet s (s.tb + 10000)
  obtain ⟨T, hT⟩ : ∃ T, T = quietTime s (s.tb + 10000) := ⟨_, rfl⟩
  rw [← hT] at hge hquiet
  obtain ⟨v, hv⟩ : ∃ v, v = setHandover s (some ⟨T, true, false, false⟩) := ⟨_, rfl⟩
  have hvt : Touches [F.TWN_STATUS_HANDOVER_PENDING] s v := hv ▸ setHandover_touches s _
  have hrel : twnRelease s = twnRole v 1 T := by
    have hne : twnState s ≠ twWATCH := by rw [hst]; decide
    unfold twnRelease offerHandover
    rw [if_neg hne, if_pos hst, hnone, if_neg (by decide)]
    dsimp only
    rw [← hT, ← hv]
  have hrole : twnRole v 1 T
      = setTwn v { v.twn with txq := if twnCarries v then v.twn.txq ++ [(tpROLE, [1, 0, 0, 0] ++ toBytes 8 T)] else v.twn.txq } :=
    twnPush_eq v (by decide) _
  refine answers_reach (f := twnRelease) hreach fun t ht => ⟨T, hge, hquiet, ?_⟩
  rw [hrel] at ht
  refine ⟨?_, ?_, ?_, fun hc => ?_⟩
  · rw [ht.twn, hrole, hv]
    rfl
  · rw [ht.rd, twnRole_touches v 1 T _ _ (by decide), hv, setHandover_pending]
    rfl
  · rw [twnState, ht.rd, twnRole_touches v 1 T _ _ (by decide), hvt _ _ (by decide)]
    exact hst
  · have hcv : twnCarries v = true := (twnCarries_congr (hv ▸ setHandover_twnOnly s _) hvt (by decide)).trans hc
    rw [ht.twn, twnRole, twnPush_txq (by decide) _ hcv, hv]
    rfl

theorem answers_releaseRefused (hreach : blockReach s 5 = true) (hwa : twnState s ≠ twWATCH) (hle : twnState s ≠ twLEAD) :
    Answers (exec .twnRelease s) fun t => hasBit t F.TWN_EVT_EVT 0 13 = true ∧ Changes [(F.TWN_EVT_EVT, 0)] s t :=
  answers_evt13 (f := twnRelease) rfl hreach (by unfold twnRelease; rw [if_neg hwa, if_neg hle])

/-- T_H comes with its acknowledgement: the one that yields is released, the other drives (R518). -/
theorem answers_handover {h : Handover} (hoff : ProdsOff s) (hworks : blockWorks s 5 = true) (hh : s.twn.handover = some h)
    (hdue : h.time ≤ s.tb) (hack : h.acked = true) (hpair : h.pairing = false) : Answers (exec .twnHandover s) fun t =>
      t.twn.handover = none ∧ rd t F.TWN_STATUS_HANDOVER_PENDING = 0
      ∧ (twnState s = twLEAD → h.yields = true →
          twnState t = twRELEASED ∧ hasBit t F.TWN_EVT_EVT 0 7 = true ∧ rd t F.TWN_STATUS_DRIVING = 0)
      ∧ (twnState s = twWATCH → h.yields = false → twnState t = twSOLO ∧ rd t F.TWN_STATUS_DRIVING = 1) := by
  obtain ⟨v, hv⟩ : ∃ v, v = setHandover s none := ⟨_, rfl⟩
  have hvt : Touches [F.TWN_STATUS_HANDOVER_PENDING] s v := hv ▸ setHandover_touches s none
  have hvoff : ProdsOff v := hoff.touches hvt (by decide)
  have hvst : twnState v = twnState s := hvt _ _ (by decide)
  have hvp : rd v F.TWN_STATUS_HANDOVER_PENDING = 0 := by rw [hv, setHandover_pending]; rfl
  have hvh : v.twn.handover = none := by rw [hv]; rfl
  have hrun : twnHandover s = if h.yields then twnEvt (setTwnState v twRELEASED) 7 else setTwnState v twSOLO := by
    unfold twnHandover
    rw [hh]
    dsimp only
    rw [hack, hpair, if_neg (by simp; omega), ← hv]
    rfl
  refine answers_inBlock (f := twnHandover) hworks fun t ht => ?_
  rw [hrun] at ht
  cases hy : h.yields
  case true =>
    rw [hy, if_pos rfl] at ht
    have htw : t.twn = v.twn := by rw [ht.twn, (twnEvt_regsOnly _ _).twn, (setTwnState_regsOnly hvoff plain_released).twn]
    refine ⟨by rw [htw, hvh], ?_, fun hst _ => ?_, fun _ hno => Bool.noConfusion hno⟩
    · rw [ht.rd, twnEvt_touches _ _ _ _ (by decide), setTwnState_touches hvoff plain_released _ _ (by decide), hvp]
    · obtain ⟨hstate, hevt, hdrv, -⟩ := enter_evt hvoff plain_released (by rw [hvst, hst]; decide) (by decide) ht
      exact ⟨hstate, hevt, hdrv⟩
  case false =>
    rw [hy, if_neg Bool.false_ne_true] at ht
    have htw : t.twn = v.twn := by rw [ht.twn, (setTwnState_regsOnly hvoff plain_solo).twn]
    refine ⟨by rw [htw, hvh], ?_, fun _ hno => Bool.noConfusion hno, fun hst _ => ⟨?_, ?_⟩⟩
    · rw [ht.rd, setTwnState_touches hvoff plain_solo _ _ (by decide), hvp]
    · rw [twnState, ht.rd]
      exact twnState_setTwnState hvoff plain_solo
    · rw [ht.rd, driving_setTwnState hvoff plain_solo (by rw [hvst, hst]; decide)]
      rfl

/-- A handover that is cancelled: the lead that offered its release reports it (R518). -/
theorem cancelHandover_eq {h : Handover} (hh : s.twn.handover = some h) : cancelHandover s
    = if h.yields && !h.pairing then twnEvt (setHandover s none) 8 else setHandover s none := by
  unfold cancelHandover
  rw [hh]

theorem answers_handoverCancel {h : Handover} (hworks : blockWorks s 5 = true) (hh : s.twn.handover = some h)
    (hack : h.acked = false) (hdue : h.time ≤ s.tb + 2000) : Answers (exec .twnHandoverCancel s) fun t =>
      t.twn.handover = none ∧ rd t F.TWN_STATUS_HANDOVER_PENDING = 0 ∧ twnState t = twnState s
      ∧ (h.yields = true → h.pairing = false → hasBit t F.TWN_EVT_EVT 0 8 = true) := by
  obtain ⟨v, hv⟩ : ∃ v, v = setHandover s none := ⟨_, rfl⟩
  have hvt : Touches [F.TWN_STATUS_HANDOVER_PENDING] s v := hv ▸ setHandover_touches s none
  have hvst : twnState v = twnState s := hvt _ _ (by decide)
  have hvp : rd v F.TWN_STATUS_HANDOVER_PENDING = 0 := by rw [hv, setHandover_pending]; rfl
  have hvh : v.twn.handover = none := by rw [hv]; rfl
  have hrun : handoverCancel s = if h.yields && !h.pairing then twnEvt v 8 else v := by
    unfold handoverCancel
    rw [hh]
    dsimp only
    rw [hack, decide_eq_true hdue, if_pos (by rfl), cancelHandover_eq hh, ← hv]
  refine answers_inBlock (f := handoverCancel) hworks fun t ht => ?_
  rw [hrun] at ht
  split at ht
  · refine ⟨?_, ?_, ?_, fun _ _ => ?_⟩
    · rw [ht.twn, (twnEvt_regsOnly v 8).twn, hvh]
    · rw [ht.rd, twnEvt_touches _ _ _ _ (by decide), hvp]
    · rw [twnState, ht.rd, twnEvt_touches _ _ _ _ (by decide)]
      exact hvst
    · rw [ht.hasBit]
      exact twnEvt_sets v (by decide)
  · rename_i hno
    exact ⟨by rw [ht.twn, hvh], by rw [ht.rd, hvp], by rw [twnState, ht.rd]; exact hvst,
      fun hy hp => absurd (by rw [hy, hp]; rfl) hno⟩

/-! ### The search and the takeover (R502, R513, R514) -/

theorem answers_searchTimeout (hoff : ProdsOff s) (hworks : blockWorks s 5 = true) (hst : twnState s = twSEARCH)
    (hsolo : isSet s F.TWN_CTL_SOLO_OK = true) (hup : isSet s F.TWN_STATUS_LINK_UP = false)
    (hdue : s.twn.searchAt + 1000000 * rd s F.TWN_SEARCH_MS_MS ≤ s.ns) : Answers (exec .twnSearchTimeout s) fun t =>
      twnState t = twSOLO ∧ rd t F.TWN_STATUS_DRIVING = 1 ∧ Keeps [(F.TWN_STATUS_STATE, 0), (F.TWN_STATUS_DRIVING, 0)] s t := by
  have hrun : searchTimeout s = setTwnState s twSOLO := by
    unfold searchTimeout
    rw [if_pos ⟨hst, hsolo, by rw [hup]; rfl, hdue⟩]
  have hne : twnState s ≠ twSOLO := by rw [hst]; decide
  refine answers_inBlock (f := searchTimeout) hworks fun t ht => ?_
  rw [hrun] at ht
  refine ⟨?_, ?_, ht.keeps ?_⟩
  · rw [twnState, ht.rd]
    exact twnState_setTwnState hoff plain_solo
  · rw [ht.rd, driving_setTwnState hoff plain_solo hne]
    rfl
  · rw [setTwnState_eq hoff plain_solo, if_neg hne]
    exact ((Keeps.refl _ s).wr _ _ _ (by simp)).wr _ _ _ (by simp)

/-- The watch drives once its confirmation is 5 µs old (R513). -/
theorem answers_takeover {x : Nat} (hoff : ProdsOff s) (hworks : blockWorks s 5 = true) (hst : twnState s ≠ twWATCH)
    (hconf : s.twn.confirmed = some x) (hdue : x + 5000 ≤ s.tb) : Answers (exec .twnTakeoverDrive s) fun t =>
      rd t F.TWN_STATUS_DRIVING = 1 ∧ rd t F.TWN_TAKEOVER_TB_VALUE = s.tb % 2 ^ 64
      ∧ rd t F.TWN_TAKEOVERS_COUNT = min (rd s F.TWN_TAKEOVERS_COUNT + 1) (2 ^ F.TWN_TAKEOVERS_COUNT.width - 1)
      ∧ hasBit t F.TWN_EVT_EVT 0 5 = true ∧ t.twn.confirmed = none := by
  obtain ⟨v, hv⟩ : ∃ v, v = wr (wr (setTwn s { s.twn with confirmed := none }) F.TWN_STATUS_DRIVING 0 1) F.TWN_TAKEOVER_TB_VALUE 0 s.tb :=
    ⟨_, rfl⟩
  have hvt : Touches [F.TWN_STATUS_DRIVING, F.TWN_TAKEOVER_TB_VALUE] s v := by
    rw [hv]
    exact ((Touches.of_regs rfl).wr _ _ _ (by simp)).wr _ _ _ (by simp)
  obtain ⟨w, hw⟩ : ∃ w, w = twnEvt (bump v F.TWN_TAKEOVERS_COUNT) 5 := ⟨_, rfl⟩
  have hwt : Touches [F.TWN_TAKEOVERS_COUNT, F.TWN_EVT_EVT] v w := by
    rw [hw]
    exact (Touches.refl.wr _ _ _ (by simp)).wr _ _ _ (by simp)
  have hwoff : ProdsOff w := (hoff.touches hvt (by decide)).touches hwt (by decide)
  have hrun : takeoverDrive s = markGap w := by
    unfold takeoverDrive
    rw [beq_eq_false_iff_ne.mpr hst, if_neg Bool.false_ne_true, hconf]
    dsimp only
    rw [decide_eq_true hdue, Bool.or_true, if_pos rfl]
    rw [hw, hv] at hwoff
    exact congrArg markGap ((twnProducers_none hwoff 3).trans (by rw [hw, hv]))
  obtain ⟨m, hm⟩ : ∃ m, m = markGap w := ⟨_, rfl⟩
  have hmr : m.regs = w.regs := by rw [hm]; rfl
  have hmt : m.twn = w.twn := by rw [hm]; rfl
  refine answers_inBlock (f := takeoverDrive) hworks fun t ht => ?_
  rw [hrun, ← hm] at ht
  have hrd (f : Field) (i : Nat) : rd t f i = rd w f i := (ht.rd f i).trans (rd_congr hmr f i)
  refine ⟨?_, ?_, ?_, ?_, ?_⟩
  · rw [hrd, hwt _ _ (by decide), hv, rd_wr_ne _ _ _ _ _ _ (by decide), rd_wr_same]
    rfl
  · rw [hrd, hwt _ _ (by decide), hv, rd_wr_same]
    rfl
  · rw [hrd, hw, twnEvt_touches _ _ _ _ (by decide), rd_bump, hvt _ _ (by decide)]
  · rw [hasBit, hrd, hw]
    exact twnEvt_sets _ (by decide)
  · rw [ht.twn, hmt, hw, hv]
    rfl

/-! ### Line misses and drive fights (R510, R512, R515) -/

/-- A counter of the block counts, with its event and no producer. -/
theorem counted_eq (hoff : ProdsOff s) {f : Field} {b src : Nat} (hf : f.fid % 1024 ≠ F.TWN_PROD_CFG_EN.fid % 1024) :
    twnProducers (twnEvt (bump s f) b) src = twnEvt (bump s f) b := by
  have ht : Touches [f, F.TWN_EVT_EVT] s (twnEvt (bump s f) b) := (Touches.refl.wr _ _ _ (by simp)).wr _ _ _ (by simp)
  refine twnProducers_none (hoff.touches ht fun g hg => ?_) src
  rcases List.mem_pair.mp hg with rfl | rfl
  · exact hf
  · decide

/-- A line miss of a shared output on the watch counts, and confirms the failure where foghorns are lost (R510, R512). -/
theorem answers_lineMiss {n : Nat} (hoff : ProdsOff s) (hworks : blockWorks s 5 = true) (hn : n < 16)
    (htwin : isSet s F.TRG_CFG_TWIN n = true) (hst : twnState s = twWATCH) (hmode : rd s F.TRG_CFG_MODE n ≠ 0) :
    Answers (exec (.twnLineMiss n) s) fun t =>
      rd t F.TWN_LINE_MISS_COUNT = min (rd s F.TWN_LINE_MISS_COUNT + 1) (2 ^ F.TWN_LINE_MISS_COUNT.width - 1)
      ∧ hasBit t F.TWN_EVT_EVT 0 4 = true ∧ t.twn.missAt = some (s.tb - rd s F.TWN_LINE_TOL_NS)
      ∧ t.twn.confirmed = (if isSet s F.TWN_STATUS_FOGHORN_OK = false ∧ rd s F.TWN_GAP_START_VALUE < s.tb - rd s F.TWN_LINE_TOL_NS
        then some s.tb else s.twn.confirmed)
      ∧ Keeps [(F.TWN_LINE_MISS_COUNT, 0), (F.TWN_EVT_EVT, 0)] s t := by
  obtain ⟨v, hv⟩ : ∃ v, v = twnEvt (bump s F.TWN_LINE_MISS_COUNT) 4 := ⟨_, rfl⟩
  have hvk : Keeps [(F.TWN_LINE_MISS_COUNT, 0), (F.TWN_EVT_EVT, 0)] s v := by
    rw [hv]
    exact ((Keeps.refl _ s).wr _ _ _ (by simp)).wr F.TWN_EVT_EVT 0 _ (by simp)
  have hvo : RegsOnly s v := hv ▸ ((RegsOnly.refl s).bump _ _).setBit _ _ _
  have htb : v.tb = s.tb := by rw [hvo]
  obtain ⟨w, hw⟩ : ∃ w, w = setTwn v { s.twn with missAt := some (s.tb - rd s F.TWN_LINE_TOL_NS) } := ⟨_, rfl⟩
  have hwr : w.regs = v.regs := by rw [hw]; rfl
  have hwk : Keeps [(F.TWN_LINE_MISS_COUNT, 0), (F.TWN_EVT_EVT, 0)] s w := hvk.of_regs hwr
  have hwtb : w.tb = s.tb := by rw [hw]; exact htb
  have hcond : (!isSet w F.TWN_STATUS_FOGHORN_OK && decide (rd w F.TWN_GAP_START_VALUE < s.tb - rd s F.TWN_LINE_TOL_NS)) = true
      ↔ isSet s F.TWN_STATUS_FOGHORN_OK = false ∧ rd s F.TWN_GAP_START_VALUE < s.tb - rd s F.TWN_LINE_TOL_NS := by
    rw [isSet_congr (hwk F.TWN_STATUS_FOGHORN_OK 0 (by decide)), hwk F.TWN_GAP_START_VALUE 0 (by decide)]
    simp
  have hrun : lineMiss s n = if isSet s F.TWN_STATUS_FOGHORN_OK = false
      ∧ rd s F.TWN_GAP_START_VALUE < s.tb - rd s F.TWN_LINE_TOL_NS then confirmFailure w else w := by
    unfold lineMiss
    rw [if_neg (by simp [hst, htwin, hmode])]
    dsimp only
    rw [counted_eq hoff (by decide), ← hv, hvo.twn, ← hw]
    exact if_congr hcond rfl rfl
  refine answers_onBlock (b := 5) (f := fun s => lineMiss s n) hn hworks fun t ht => ?_
  rw [hrun] at ht
  have hsame : ∀ c : Prop, [Decidable c] → Settled (if c then confirmFailure w else w) t →
      (∀ f i, rd t f i = rd w f i) ∧ t.twn = { w.twn with confirmed := if c then some s.tb else s.twn.confirmed } := by
    intro c _ h
    by_cases hc : c
    · rw [if_pos hc] at h
      refine ⟨fun f i => h.rd f i, ?_⟩
      rw [if_pos hc, h.twn, confirmFailure, hwtb]
      rfl
    · rw [if_neg hc] at h
      refine ⟨h.rd, ?_⟩
      rw [if_neg hc, h.twn, hw]
      rfl
  obtain ⟨hrd, htwn⟩ := hsame _ ht
  refine ⟨?_, ?_, ?_, ?_, fun f i hf => (hrd f i).trans (hwk f i hf)⟩
  · rw [hrd, rd_congr hwr, hv, twnEvt_touches _ _ _ _ (by decide), rd_bump]
  · rw [hasBit, hrd, rd_congr hwr, hv]
    exact twnEvt_sets _ (by decide)
  · rw [htwn, hw]
    rfl
  · rw [htwn]

/-- An output that is dark stays so when another goes dark. -/
theorem goDark_keeps_dark (s : State) (cause : Nat) (c : Nat) {n : Nat} (hn : n < 16) (h : trgDark s n = true) :
    trgDark (goDark s cause false c) n = true := by
  by_cases hc : c = 12 + n
  · subst hc
    exact goDark_dark s cause false (by simp [isOutputCh]; omega)
  · have hbase (a b : Nat) : rd (wr (wr (wr s F.FIO_CH_STAT_DARK c 1) F.FIO_CH_STAT_DARK_CAUSE c a) F.FIO_CH_STAT_ARMING c b)
        F.FIO_CH_STAT_DARK (12 + n) = rd s F.FIO_CH_STAT_DARK (12 + n) := by
      rw [rd_wr_inst _ _ _ _ hc, rd_wr_inst _ _ _ _ hc, rd_wr_inst _ _ _ _ hc]
    refine (isSet_congr ?_).trans h
    unfold goDark
    split
    · rfl
    · dsimp only
      split
      · rw [rd_tail, if_neg Bool.false_ne_true]
        exact hbase _ _
      · rw [if_neg Bool.false_ne_true]
        exact hbase _ _

/-- Every shared output goes dark. -/
def sharedGoDark (s : State) : State :=
  (List.range 16).foldl (fun s m => if isSet s F.TRG_CFG_TWIN m then goDark s 7 false (12 + m) else s) s

theorem sharedGoDark_touches (s : State) : Touches darkFields s (sharedGoDark s) :=
  Touches.foldl _ _ (fun u m => Touches.ite (goDark_touches u 7 false (12 + m)) .refl) s

theorem sharedGoDark_dark (s : State) {m : Nat} (hm : m < 16) (htwin : isSet s F.TRG_CFG_TWIN m = true) :
    trgDark (sharedGoDark s) m = true := by
  have h := foldl_prefix (f := fun s m => if isSet s F.TRG_CFG_TWIN m then goDark s 7 false (12 + m) else s) (b := s)
    (P := fun done u => Touches darkFields s u ∧ (m ∈ done → trgDark u m = true)) (List.range 16) ⟨.refl, by simp⟩
    fun done x u hx hu => by
      obtain ⟨ht, hd⟩ := hu
      refine ⟨ht.trans (Touches.ite (goDark_touches u 7 false (12 + x)) .refl), fun hmem => ?_⟩
      rcases List.mem_append.mp hmem with h | h
      · split
        · exact goDark_keeps_dark u 7 (12 + x) hm (hd h)
        · exact hd h
      · obtain rfl := List.mem_singleton.mp h
        rw [if_pos ((isSet_congr (ht F.TRG_CFG_TWIN m (by decide))).trans htwin)]
        exact goDark_dark u 7 false (by simp [isOutputCh]; omega)
  exact h.2 (List.mem_range.mpr hm)

/-- A drive fight counts; the device of rank 1 stops driving its shared outputs (R515). -/
theorem answers_driveFight {n : Nat} (hoff : ProdsOff s) (hworks : blockWorks s 5 = true) (hn : n < 16)
    (htwin : isSet s F.TRG_CFG_TWIN n = true) (hdrv : driving s n = true) : Answers (exec (.driveFight n) s) fun t =>
      rd t F.TWN_FIGHTS_COUNT = min (rd s F.TWN_FIGHTS_COUNT + 1) (2 ^ F.TWN_FIGHTS_COUNT.width - 1)
      ∧ hasBit t F.TWN_EVT_EVT 0 6 = true
      ∧ (rd s F.GLB_STATUS_TWIN_RANK = 0 → Changes [(F.TWN_FIGHTS_COUNT, 0), (F.TWN_EVT_EVT, 0)] s t)
      ∧ (rd s F.GLB_STATUS_TWIN_RANK = 1 → ∀ m, m < 16 → isSet s F.TRG_CFG_TWIN m = true → trgDark t m = true) := by
  obtain ⟨v, hv⟩ : ∃ v, v = twnEvt (bump s F.TWN_FIGHTS_COUNT) 6 := ⟨_, rfl⟩
  have hvk : Keeps [(F.TWN_FIGHTS_COUNT, 0), (F.TWN_EVT_EVT, 0)] s v := by
    rw [hv]
    exact ((Keeps.refl _ s).wr _ _ _ (by simp)).wr F.TWN_EVT_EVT 0 _ (by simp)
  have hvo : RegsOnly s v := hv ▸ ((RegsOnly.refl s).bump _ _).setBit _ _ _
  have hvt : Touches [F.TWN_FIGHTS_COUNT, F.TWN_EVT_EVT] s v := by
    rw [hv]
    exact (Touches.refl.wr _ _ _ (by simp)).wr F.TWN_EVT_EVT 0 _ (by simp)
  have hcount : rd v F.TWN_FIGHTS_COUNT = min (rd s F.TWN_FIGHTS_COUNT + 1) (2 ^ F.TWN_FIGHTS_COUNT.width - 1) := by
    rw [hv, twnEvt_touches _ _ _ _ (by decide), rd_bump]
  have hevt : hasBit v F.TWN_EVT_EVT 0 6 = true := hv ▸ twnEvt_sets _ (by decide)
  have hrun : driveFight s n = if rd s F.GLB_STATUS_TWIN_RANK = 1 then sharedGoDark v else v := by
    have hrank : rd v F.GLB_STATUS_TWIN_RANK = rd s F.GLB_STATUS_TWIN_RANK := hvk _ _ (by decide)
    unfold driveFight
    rw [htwin, hdrv, if_neg (by decide)]
    dsimp only
    rw [counted_eq hoff (by decide), ← hv, hrank]
    rfl
  refine answers_onBlock (b := 5) (f := fun s => driveFight s n) hn hworks fun t ht => ?_
  rw [hrun] at ht
  split at ht
  · rename_i hrank
    refine ⟨?_, ?_, fun h0 => absurd (h0.symm.trans hrank) (by decide), fun _ m hm hmt => ?_⟩
    · rw [ht.rd, sharedGoDark_touches v _ _ (by decide), hcount]
    · rw [ht.hasBit, hasBit, sharedGoDark_touches v _ _ (by decide)]
      exact hevt
    · rw [trgDark, isSet_congr (ht.rd _ _)]
      exact sharedGoDark_dark v hm ((isSet_congr (hvt F.TRG_CFG_TWIN m (by decide))).trans hmt)
  · rename_i hrank
    exact ⟨by rw [ht.rd, hcount], by rw [ht.hasBit]; exact hevt, fun _ => ht.changes hvk hvo, fun h1 => absurd h1 hrank⟩

/-! ### Foghorns (R508, R509, R511) -/

/-- The fields that the loss of the foghorns may change beside the flag, the gap and the counter. -/
def fogLossFields : List Field :=
  [F.TWN_STATUS_STATE, F.TWN_STATUS_DRIVING, F.TWN_STATUS_TB_ALIGNED, F.TWN_STATUS_HANDOVER_PENDING, F.TWN_EVT_EVT]

/-- What follows a loss of foghorns leaves the other fields, the events that were there, and the watch for foghorns. -/
structure FogFollows (s t : State) : Prop where
  touches : Touches fogLossFields s t
  events : ∀ b, hasBit s F.TWN_EVT_EVT 0 b = true → hasBit t F.TWN_EVT_EVT 0 b = true
  missRun : t.twn.missRun = s.twn.missRun
  fogNext : t.twn.fogNext = s.twn.fogNext

theorem FogFollows.refl (s : State) : FogFollows s s := ⟨.refl, fun _ h => h, rfl, rfl⟩

theorem FogFollows.trans (h : FogFollows s t) (h' : FogFollows t u) : FogFollows s u :=
  ⟨h.touches.trans h'.touches, fun b hb => h'.events b (h.events b hb), h'.missRun.trans h.missRun, h'.fogNext.trans h.fogNext⟩

theorem fogFollows_twnEvt (s : State) {b : Nat} (hb : b < 16) : FogFollows s (twnEvt s b) :=
  ⟨(twnEvt_touches s b).mono (by simp [fogLossFields]), fun _ h => hasBit_setBit_of s F.TWN_EVT_EVT 0 b _ hb h, rfl, rfl⟩

theorem fogFollows_regs {f : Field} (s : State) (i x : Nat) (hf : f ∈ fogLossFields) (hne : f.fid % 1024 ≠ F.TWN_EVT_EVT.fid % 1024) :
    FogFollows s (wr s f i x) :=
  ⟨Touches.refl.wr _ _ _ hf, fun b h => by rwa [hasBit, rd_wr_field _ _ _ _ _ _ hne], rfl, rfl⟩

theorem fogFollows_setTwn (s : State) (k : Twn) (hm : k.missRun = s.twn.missRun) (hf : k.fogNext = s.twn.fogNext) :
    FogFollows s (setTwn s k) := ⟨.of_regs rfl, fun _ h => h, hm, hf⟩

theorem fogFollows_setHandover (s : State) (h : Option Handover) : FogFollows s (setHandover s h) :=
  (fogFollows_setTwn s { s.twn with handover := h } rfl rfl).trans
    (fogFollows_regs _ 0 _ (by simp [fogLossFields]) (by decide))

theorem fogFollows_unalign (s : State) : FogFollows s (unalign s) := by
  have h := fogFollows_setTwn s { s.twn with aligned := 0 } rfl rfl
  unfold unalign
  dsimp only
  split
  · exact (h.trans (fogFollows_regs _ 0 0 (by simp [fogLossFields]) (by decide))).trans (fogFollows_twnEvt _ (by decide))
  · exact h

theorem fogFollows_cancelHandover (s : State) : FogFollows s (cancelHandover s) := by
  unfold cancelHandover
  split
  · exact .refl s
  · dsimp only
    split
    · exact (fogFollows_setHandover s none).trans (fogFollows_twnEvt _ (by decide))
    · exact fogFollows_setHandover s none

theorem fogFollows_setTwnState (hoff : ProdsOff s) {st : Nat} (hst : plainState st) : FogFollows s (setTwnState s st) := by
  rw [setTwnState_eq hoff hst]
  split
  · exact .refl s
  · exact (fogFollows_regs s 0 st (by simp [fogLossFields]) (by decide)).trans
      (fogFollows_regs _ 0 _ (by simp [fogLossFields]) (by decide))

theorem unalign_clears (s : State) : isSet (unalign s) F.TWN_STATUS_TB_ALIGNED = false := by
  unfold unalign
  dsimp only
  split
  · rw [isSet_congr (twnEvt_touches _ 9 _ _ (by decide)), isSet, rd_wr_same]
    rfl
  · exact Bool.eq_false_iff.mpr ‹_›

theorem cancelHandover_touches (s : State) :
    Touches [F.TWN_STATUS_HANDOVER_PENDING, F.TWN_EVT_EVT] s (cancelHandover s) := by
  unfold cancelHandover
  split
  · exact .refl
  · exact Touches.ite (((setHandover_touches s none).mono (by simp)).wr F.TWN_EVT_EVT 0 _ (by simp))
      ((setHandover_touches s none).mono (by simp))

/-- The flag is down, its event is there, and the gap begins at the last foghorn. -/
def gapBegun (s : State) : State :=
  wr (twnEvt (wr s F.TWN_STATUS_FOGHORN_OK 0 0) 2) F.TWN_GAP_START_VALUE 0 (s.twn.lastFog.getD 0)

/-- A handover ends, and a device that does not lead is not aligned any more. -/
def gapUnpaired (s : State) : State := cancelHandover (if twnState s = twLEAD then s else unalign s)

theorem gapBegun_touches (s : State) :
    Touches [F.TWN_STATUS_FOGHORN_OK, F.TWN_EVT_EVT, F.TWN_GAP_START_VALUE] s (gapBegun s) :=
  ((Touches.refl.wr _ _ _ (by simp)).wr F.TWN_EVT_EVT 0 _ (by simp)).wr _ _ _ (by simp)

theorem fogFollows_gapUnpaired (s : State) : FogFollows s (gapUnpaired s) := by
  unfold gapUnpaired
  refine FogFollows.trans ?_ (fogFollows_cancelHandover _)
  split
  · exact .refl s
  · exact fogFollows_unalign s

theorem twnState_gapUnpaired (s : State) : twnState (gapUnpaired s) = twnState s := by
  unfold gapUnpaired
  rw [twnState, cancelHandover_touches _ _ _ (by decide)]
  split
  · rfl
  · unfold unalign
    dsimp only
    split
    · rw [twnEvt_touches _ _ _ _ (by decide), rd_wr_ne _ _ _ _ _ _ (by decide)]
      rfl
    · rfl

theorem foghornLost_eq (hoff : ProdsOff s) : foghornLost s
    = if twnState s = twLEAD then twnEvt (setTwnState (gapUnpaired (gapBegun s)) twSOLO) 12
      else if twnState s == twWATCH && (gapUnpaired (gapBegun s)).twn.missAt.any
          (fun x => decide (rd (gapUnpaired (gapBegun s)) F.TWN_GAP_START_VALUE < x)) then confirmFailure (gapUnpaired (gapBegun s))
      else gapUnpaired (gapBegun s) := by
  have ht : Touches [F.TWN_STATUS_FOGHORN_OK, F.TWN_EVT_EVT] s (twnEvt (wr s F.TWN_STATUS_FOGHORN_OK 0 0) 2) :=
    (Touches.refl.wr _ _ _ (by simp)).wr _ _ _ (by simp)
  have hst : twnState (gapUnpaired (gapBegun s)) = twnState s :=
    (twnState_gapUnpaired _).trans (gapBegun_touches s _ _ (by decide))
  unfold foghornLost
  dsimp only
  rw [twnProducers_none (hoff.touches ht (by decide))]
  change (if twnState (gapUnpaired (gapBegun s)) = twLEAD then twnEvt (setTwnState (gapUnpaired (gapBegun s)) twSOLO) 12
    else if (twnState (gapUnpaired (gapBegun s)) == twWATCH && _) = true then _ else _) = _
  rw [hst]
  rfl

/-- The foghorns are lost: the flag falls with its event, the gap begins, a lead goes on alone, a watch is not aligned
(R509, R511, R512, R518). -/
theorem foghornLost_loses (hoff : ProdsOff s) (ht : u = foghornLost s) :
    rd u F.TWN_FOG_MISSED_COUNT = rd s F.TWN_FOG_MISSED_COUNT ∧ u.twn.missRun = s.twn.missRun ∧ u.twn.fogNext = s.twn.fogNext
    ∧ isSet u F.TWN_STATUS_FOGHORN_OK = false ∧ hasBit u F.TWN_EVT_EVT 0 2 = true
    ∧ rd u F.TWN_GAP_START_VALUE = s.twn.lastFog.getD 0 % 2 ^ 64
    ∧ (twnState s = twLEAD → twnState u = twSOLO ∧ hasBit u F.TWN_EVT_EVT 0 12 = true ∧ rd u F.TWN_STATUS_DRIVING = 1)
    ∧ (twnState s = twWATCH → isSet u F.TWN_STATUS_TB_ALIGNED = false) := by
  obtain ⟨g, hg⟩ : ∃ g, g = gapBegun s := ⟨_, rfl⟩
  have hgt : Touches [F.TWN_STATUS_FOGHORN_OK, F.TWN_EVT_EVT, F.TWN_GAP_START_VALUE] s g := hg ▸ gapBegun_touches s
  have hgok : rd g F.TWN_STATUS_FOGHORN_OK = 0 := by
    rw [hg, gapBegun, rd_wr_field _ _ _ _ _ _ (by decide), twnEvt_touches _ _ _ _ (by decide), rd_wr_same]
    rfl
  have hgevt : hasBit g F.TWN_EVT_EVT 0 2 = true := by
    rw [hasBit, hg, gapBegun, rd_wr_field _ _ _ _ _ _ (by decide)]
    exact twnEvt_sets _ (by decide)
  have hggap : rd g F.TWN_GAP_START_VALUE = s.twn.lastFog.getD 0 % 2 ^ 64 := by
    rw [hg, gapBegun, rd_wr_same]
    rfl
  have hgtwn : g.twn = s.twn := by rw [hg]; rfl
  obtain ⟨c, hc⟩ : ∃ c, c = gapUnpaired g := ⟨_, rfl⟩
  have hcf : FogFollows g c := hc ▸ fogFollows_gapUnpaired g
  have hgst : twnState g = twnState s := hgt _ _ (by decide)
  have hcst : twnState c = twnState s := by rw [hc, twnState_gapUnpaired, hgst]
  have hcoff : ProdsOff c := (hoff.touches hgt (by decide)).touches hcf.touches (by decide)
  have hu : u = if twnState s = twLEAD then twnEvt (setTwnState c twSOLO) 12
      else if twnState s == twWATCH && c.twn.missAt.any (fun x => decide (rd c F.TWN_GAP_START_VALUE < x)) then confirmFailure c
      else c := by
    rw [ht, foghornLost_eq hoff, ← hg, ← hc]
  have hcu : FogFollows c u := by
    rw [hu]
    split
    · exact (fogFollows_setTwnState hcoff plain_solo).trans (fogFollows_twnEvt _ (by decide))
    · split
      · exact fogFollows_setTwn c _ rfl rfl
      · exact .refl c
  have hgu := hcf.trans hcu
  refine ⟨?_, ?_, ?_, ?_, hgu.events 2 hgevt, ?_, fun hl => ?_, fun hw => ?_⟩
  · rw [hgu.touches _ _ (by decide), hgt _ _ (by decide)]
  · rw [hgu.missRun, hgtwn]
  · rw [hgu.fogNext, hgtwn]
  · rw [isSet, hgu.touches _ _ (by decide), hgok]
    rfl
  · rw [hgu.touches _ _ (by decide), hggap]
  · rw [if_pos hl] at hu
    rw [hu]
    refine ⟨?_, twnEvt_sets _ (by decide), ?_⟩
    · rw [twnState, twnEvt_touches _ _ _ _ (by decide)]
      exact twnState_setTwnState hcoff plain_solo
    · rw [twnEvt_touches _ _ _ _ (by decide), driving_setTwnState hcoff plain_solo (by rw [hcst, hl]; decide)]
      rfl
  · have hcal : isSet c F.TWN_STATUS_TB_ALIGNED = false := by
      rw [hc, gapUnpaired, if_neg (by rw [hgst, hw]; decide), isSet_congr (cancelHandover_touches _ _ _ (by decide))]
      exact unalign_clears g
    rw [if_neg (by rw [hw]; decide)] at hu
    rw [hu]
    split
    · exact hcal
    · exact hcal

/-- A deadline with no foghorn counts; at the limit the foghorns are lost (R509). -/
theorem answers_fogMiss {x : Nat} (hoff : ProdsOff s) (hworks : blockWorks s 5 = true) (hnext : s.twn.fogNext = some x)
    (hfogs : twnFogs s = true) (hdue : x + rd s F.TWN_LINK_DLY_VALUE + 200 < s.tb) : Answers (exec .twnFogMiss s) fun t =>
      rd t F.TWN_FOG_MISSED_COUNT = min (rd s F.TWN_FOG_MISSED_COUNT + 1) (2 ^ F.TWN_FOG_MISSED_COUNT.width - 1)
      ∧ t.twn.missRun = s.twn.missRun + 1 ∧ t.twn.fogNext = some (x + rd s F.TWN_FOG_PERIOD_NS)
      ∧ (s.twn.missRun + 1 < rd s F.TWN_CTL_MISS_LIMIT →
          twnState t = twnState s ∧ Keeps [(F.TWN_FOG_MISSED_COUNT, 0)] s t)
      ∧ (rd s F.TWN_CTL_MISS_LIMIT ≤ s.twn.missRun + 1 → isSet s F.TWN_STATUS_FOGHORN_OK = true →
        isSet t F.TWN_STATUS_FOGHORN_OK = false ∧ hasBit t F.TWN_EVT_EVT 0 2 = true
        ∧ rd t F.TWN_GAP_START_VALUE = s.twn.lastFog.getD 0 % 2 ^ 64
        ∧ (twnState s = twLEAD → twnState t = twSOLO ∧ hasBit t F.TWN_EVT_EVT 0 12 = true ∧ rd t F.TWN_STATUS_DRIVING = 1)
        ∧ (twnState s = twWATCH → isSet t F.TWN_STATUS_TB_ALIGNED = false)) := by
  obtain ⟨v, hv⟩ : ∃ v, v = setTwn (bump s F.TWN_FOG_MISSED_COUNT) { s.twn with
    missRun := s.twn.missRun + 1, fogNext := some (x + rd s F.TWN_FOG_PERIOD_NS) } := ⟨_, rfl⟩
  have hvk : Keeps [(F.TWN_FOG_MISSED_COUNT, 0)] s v := by
    rw [hv]
    exact ((Keeps.refl _ s).wr F.TWN_FOG_MISSED_COUNT 0 _ (by simp)).of_regs rfl
  have hvcount : rd v F.TWN_FOG_MISSED_COUNT = min (rd s F.TWN_FOG_MISSED_COUNT + 1) (2 ^ F.TWN_FOG_MISSED_COUNT.width - 1) := by
    rw [hv]
    exact rd_bump s F.TWN_FOG_MISSED_COUNT 0
  have hvst : twnState v = twnState s := hvk F.TWN_STATUS_STATE 0 (by decide)
  have hvrun : v.twn.missRun = s.twn.missRun + 1 := by rw [hv]; rfl
  have hvnext : v.twn.fogNext = some (x + rd s F.TWN_FOG_PERIOD_NS) := by rw [hv]; rfl
  have hvlast : v.twn.lastFog = s.twn.lastFog := by rw [hv]; rfl
  have hvoff : ProdsOff v := by
    have ht : Touches [F.TWN_FOG_MISSED_COUNT] s v := by
      rw [hv]
      exact (Touches.refl.wr F.TWN_FOG_MISSED_COUNT 0 _ (by simp)).trans (.of_regs rfl)
    exact hoff.touches ht (by decide)
  have hrun : fogMiss s = if rd s F.TWN_CTL_MISS_LIMIT ≤ s.twn.missRun + 1 ∧ isSet s F.TWN_STATUS_FOGHORN_OK = true
      then foghornLost v else v := by
    have hlim : rd v F.TWN_CTL_MISS_LIMIT = rd s F.TWN_CTL_MISS_LIMIT := hvk _ _ (by decide)
    have hok : isSet v F.TWN_STATUS_FOGHORN_OK = isSet s F.TWN_STATUS_FOGHORN_OK := isSet_congr (hvk _ _ (by decide))
    rw [← hlim, ← hok]
    unfold fogMiss
    rw [hnext]
    dsimp only
    rw [hfogs, if_neg (by simp; omega), hv]
  refine answers_inBlock (f := fogMiss) hworks fun t ht => ?_
  rw [hrun] at ht
  split at ht
  · obtain ⟨hcount, hmiss, hfog, hok, hevt, hgap, hlead, hwatch⟩ := foghornLost_loses hvoff rfl
    refine ⟨by rw [ht.rd, hcount, hvcount], by rw [ht.twn, hmiss, hvrun], by rw [ht.twn, hfog, hvnext],
      fun hlt => by omega, fun _ _ => ⟨?_, ?_, ?_, fun hl => ?_, fun hw => ?_⟩⟩
    · rw [isSet_congr (ht.rd _ _)]
      exact hok
    · rw [ht.hasBit]
      exact hevt
    · rw [ht.rd, hgap, hvlast]
    · obtain ⟨hst, h12, hdrv⟩ := hlead (hvst.trans hl)
      exact ⟨(ht.rd _ _).trans hst, by rw [ht.hasBit]; exact h12, (ht.rd _ _).trans hdrv⟩
    · rw [isSet_congr (ht.rd _ _)]
      exact hwatch (hvst.trans hw)
  · rename_i hno
    exact ⟨by rw [ht.rd, hvcount], by rw [ht.twn, hvrun], by rw [ht.twn, hvnext],
      fun _ => ⟨(ht.rd _ _).trans hvst, ht.keeps hvk⟩, fun hle hok => absurd ⟨hle, hok⟩ hno⟩

/-- A foghorn leaves at its multiple of the period (R508). -/
theorem answers_foghornTx (hworks : blockWorks s 5 = true) (hfogs : twnFogs s = true)
    (hup : isSet s F.TWN_STATUS_LINK_UP = true) (hnew : s.twn.fogTx ≠ s.tb / max 1 (rd s F.TWN_FOG_PERIOD_NS) * max 1 (rd s F.TWN_FOG_PERIOD_NS))
    (hd2d : isSet s F.GLB_STATUS_D2D_UP = true) (hlane : isSet s F.GLB_STATUS_REF_LANE_OK = true) (hdark : sharedDark s = false) :
    Answers (exec .twnFoghornTx s) fun t =>
      rd t F.TWN_FOG_SEQ_TX = (rd s F.TWN_FOG_SEQ_TX + 1) % 2 ^ 16
      ∧ t.twn.fogTx = s.tb / max 1 (rd s F.TWN_FOG_PERIOD_NS) * max 1 (rd s F.TWN_FOG_PERIOD_NS)
      ∧ Keeps [(F.TWN_FOG_SEQ_TX, 0)] s t
      ∧ (twnCarries s = true → t.twn.txq = s.twn.txq ++ [(tpFOGHORN,
          toBytes 8 (s.tb / max 1 (rd s F.TWN_FOG_PERIOD_NS) * max 1 (rd s F.TWN_FOG_PERIOD_NS))
          ++ toBytes 2 ((rd s F.TWN_FOG_SEQ_TX + 1) % 2 ^ 16)
          ++ [twnState s, rd s F.TWN_STATUS_DRIVING + 2 * rd s F.TWN_STATUS_TB_ALIGNED])]) := by
  obtain ⟨N, hN⟩ : ∃ N, N = s.tb / max 1 (rd s F.TWN_FOG_PERIOD_NS) * max 1 (rd s F.TWN_FOG_PERIOD_NS) := ⟨_, rfl⟩
  rw [← hN] at hnew ⊢
  obtain ⟨q, hq⟩ : ∃ q, q = (rd s F.TWN_FOG_SEQ_TX + 1) % 2 ^ 16 := ⟨_, rfl⟩
  have hqlt : q < 2 ^ 16 := hq ▸ Nat.mod_lt _ (by decide)
  obtain ⟨v, hv⟩ : ∃ v, v = wr (setTwn s { s.twn with fogTx := N }) F.TWN_FOG_SEQ_TX 0 q := ⟨_, rfl⟩
  have hvt : Touches [F.TWN_FOG_SEQ_TX] s v := by
    rw [hv]
    exact (Touches.of_regs rfl).wr _ _ _ (by simp)
  have hvk : Keeps [(F.TWN_FOG_SEQ_TX, 0)] s v := by
    rw [hv]
    exact ((Keeps.refl _ s).of_regs rfl).wr _ _ _ (by simp)
  have hrun : foghornTx s = twnPush v tpFOGHORN (toBytes 8 N ++ toBytes 2 q
      ++ [twnState s, rd s F.TWN_STATUS_DRIVING + 2 * rd s F.TWN_STATUS_TB_ALIGNED]) := by
    have h1 : twnState v = twnState s := hvt _ _ (by decide)
    have h2 : rd v F.TWN_STATUS_DRIVING = rd s F.TWN_STATUS_DRIVING := hvt _ _ (by decide)
    have h3 : rd v F.TWN_STATUS_TB_ALIGNED = rd s F.TWN_STATUS_TB_ALIGNED := hvt _ _ (by decide)
    unfold foghornTx
    dsimp only
    rw [← hN, hfogs, hup, hd2d, hlane, hdark, beq_eq_false_iff_ne.mpr hnew.symm, if_neg (by decide),
      show (rd s F.TWN_FOG_SEQ_TX + 1) % 65536 = q from hq.symm, ← hv, h1, h2, h3]
  refine answers_inBlock (f := foghornTx) hworks fun t ht => ?_
  rw [hrun] at ht
  refine ⟨?_, ?_, ?_, fun hc => ?_⟩
  · rw [ht.rd, twnPush_touches v (by decide) _ _ _ (by decide), hv, rd_wr_same, ← hq]
    exact Nat.mod_eq_of_lt hqlt
  · rw [ht.twn, twnPush_eq v (by decide), hv]
    rfl
  · exact ht.keeps fun f i hf => (twnPush_touches v (by decide) _ f i (by simp)).trans (hvk f i hf)
  · have hcv : twnCarries v = true := by
      have hvo : TwnOnly s v := by rw [hv]; rfl
      exact (twnCarries_congr hvo hvt (by decide)).trans hc
    rw [ht.twn, twnPush_txq (by decide) _ hcv, hv, ← hq]
    rfl

/-- A TBSYNC request leaves when it is due (R503). -/
theorem answers_tbsyncTx (hworks : blockWorks s 5 = true) (hst : twnState s = twALIGN ∨ twnState s = twWATCH)
    (hsync : s.twn.syncAt = 0) : Answers (exec .twnTbsyncTx s) fun t =>
      t.twn.syncAt = s.ns + 1 ∧ (twnCarries s = true → t.twn.txq = s.twn.txq ++ [(tpTBSYNC, List.replicate 25 0)])
      ∧ Keeps [] s t := by
  obtain ⟨v, hv⟩ : ∃ v, v = setTwn s { s.twn with syncAt := s.ns + 1 } := ⟨_, rfl⟩
  have hvt : Touches [] s v := hv ▸ .of_regs rfl
  have hrun : tbsyncTx s = twnPush v tpTBSYNC (List.replicate 25 0) := by
    unfold tbsyncTx
    dsimp only
    rw [if_pos ⟨hst, .inl hsync⟩, hv]
  refine answers_inBlock (f := tbsyncTx) hworks fun t ht => ?_
  rw [hrun] at ht
  refine ⟨?_, fun hc => ?_, ?_⟩
  · rw [ht.twn, twnPush_eq v (by decide), hv]
    rfl
  · have hcv : twnCarries v = true := by
      have hvo : TwnOnly s v := by rw [hv]; rfl
      exact (twnCarries_congr hvo hvt (by decide)).trans hc
    rw [ht.twn, twnPush_txq (by decide) _ hcv, hv]
    rfl
  · exact ht.keeps fun f i _ => (twnPush_touches v (by decide) _ f i (by simp)).trans (hvt f i (by simp))

/-! ### Requests for the frame clocks, and the counters (R507) -/

/-- The watch asks for each running FCG, in their order. -/
theorem twnFcgSync_asks (hst : twnState s = twWATCH) (hc : twnCarries s = true) : twnFcgSync s
    = setTwn s { s.twn with txq := s.twn.txq ++ ((List.range 4).filter (fcgRuns s)).map (fun g => (tpFCGSTATE, g :: List.replicate 35 0)) } := by
  unfold twnFcgSync
  rw [if_pos hst]
  refine foldl_prefix (P := fun done u => u = setTwn s { s.twn with
    txq := s.twn.txq ++ (done.filter (fcgRuns s)).map (fun g => (tpFCGSTATE, g :: List.replicate 35 0)) }) _ ?_ fun done g u _ hu => ?_
  · rw [List.filter_nil, List.map_nil, List.append_nil]
    rfl
  · have hut : Touches [] s u := hu ▸ .of_regs rfl
    have hcu : twnCarries u = true := (twnCarries_congr (by rw [hu]; rfl) hut (by decide)).trans hc
    have hr : fcgRuns u g = fcgRuns s g := by
      unfold fcgRuns
      rw [hut _ _ (by simp)]
    rw [List.filter_append, hr]
    cases hg : fcgRuns s g
    · rw [if_neg Bool.false_ne_true, List.filter_singleton, hg, hu]
      simp
    · rw [if_pos rfl, List.filter_singleton, hg, twnRequest, twnPush_eq u (by decide), if_pos hcu, hu]
      simp [setTwn]

theorem answers_fcgSync (hreach : blockReach s 5 = true) (hst : twnState s = twWATCH) (hc : twnCarries s = true) :
    Answers (exec .twnFcgSync s) fun t =>
      t.twn.txq = s.twn.txq ++ ((List.range 4).filter (fcgRuns s)).map (fun g => (tpFCGSTATE, g :: List.replicate 35 0))
      ∧ Settled { s with twn := t.twn } t := by
  refine answers_reach (f := twnFcgSync) hreach fun t ht => ?_
  rw [twnFcgSync_asks hst hc] at ht
  refine ⟨by rw [ht.twn]; rfl, ?_⟩
  have htw := ht.twn
  unfold Settled at *
  rw [htw]
  exact ht

theorem answers_twnClrCounts (hreach : blockReach s 5 = true) : Answers (exec .twnClrCounts s) fun t =>
    (∀ f ∈ twnCounters, rd t f = 0) ∧ Changes (twnCounters.map fun f => (f, 0)) s t :=
  answers_reach hreach fun _ ht => cleared_of_settled ht (by decide)

end

/-- Settles O41, clause by clause. -/
theorem twinActsByItsState : Obligations.TwinActsByItsState := by
  unfold Obligations.TwinActsByItsState
  intro s hoff
  dsimp only
  refine ⟨fun hreach => ⟨fun val => ⟨?_, ?_, ?_⟩, fun hen => ⟨?_, ?_⟩, ?_, ?_, ?_, ?_, ?_⟩,
    fun hworks => ⟨?_, fun h hh => ⟨?_, ?_⟩, fun u hst hconf hdue => ?_, fun n hn htwin => ⟨?_, ?_⟩, fun u hnext hfogs hdue => ?_, ?_, ?_⟩⟩
  · exact answers_ctlEnable hoff hreach
  · exact answers_ctlDiscards hreach
  · exact answers_ctlDisable hoff hreach
  · exact answers_hello hoff hreach hen
  · exact answers_helloWaits hreach hen
  · exact answers_releaseWatch hoff hreach
  · exact answers_releaseLead hreach
  · exact answers_releaseRefused hreach
  · exact answers_fcgSync hreach
  · exact answers_twnClrCounts hreach
  · exact answers_searchTimeout hoff hworks
  · exact answers_handover hoff hworks hh
  · exact answers_handoverCancel hworks hh
  · exact answers_takeover hoff hworks hst hconf hdue
  · exact answers_lineMiss hoff hworks hn htwin
  · exact answers_driveFight hoff hworks hn htwin
  · exact answers_fogMiss hoff hworks hnext hfogs hdue
  · exact answers_foghornTx hworks
  · exact answers_tbsyncTx hworks

end Sys2Proof.Machine
end

section
/-! Units of the image pipelines: their start, their end and the outcome of a job (R317, R341 to R346). -/
open Sys2Proof
namespace Sys2Proof.Machine

section
variable {s t u v w : State} {fs : List Field} {p c : Nat} {j : IspJob}

/-! ### What accesses of LP5X may change beside its bytes (R399 to R402) -/

/-- The counters and the log of LP5X errors. -/
def memLogFields : List Field :=
  [F.MEM_UNCORR_COUNT, F.MEM_EVT_EVT, F.MEM_UNCORR_ADDR_VALUE, F.MEM_UNCORR_MID_MID, F.MEM_LINK_CORR_COUNT,
    F.MEM_INLINE_CORR_COUNT]

/-- Of `s`, the error log, the bytes of LP5X and the free values taken alone differ in `t`. -/
structure MemLogs (s t : State) : Prop where
  touches : Touches memLogFields s t
  rest : t = { s with regs := t.regs, lp5x := t.lp5x, freeCtr := t.freeCtr }

theorem MemLogs.refl (s : State) : MemLogs s s := ⟨.refl, rfl⟩

theorem MemLogs.trans (h : MemLogs s t) (h' : MemLogs t u) : MemLogs s u := by
  refine ⟨h.touches.trans h'.touches, ?_⟩
  have e := h.rest
  have e' := h'.rest
  rw [e', e]

theorem MemLogs.wr (h : MemLogs s t) (f : Field) (i x : Nat) (hf : f ∈ memLogFields) : MemLogs s (wr t f i x) :=
  h.trans ⟨Touches.refl.wr f i x hf, rfl⟩

theorem MemLogs.bump (h : MemLogs s t) (f : Field) (i : Nat) (hf : f ∈ memLogFields) : MemLogs s (bump t f i) := h.wr f i _ hf

theorem lpPut_logs (s : State) (a : Nat) (bs : List Nat) : MemLogs s (lpPut s a bs) := ⟨.of_regs rfl, rfl⟩

theorem takeFree_logs (s : State) (n : Nat) : MemLogs s (takeFree s n).2 := ⟨.of_regs rfl, rfl⟩

theorem MemLogs.ite {b : Prop} [Decidable b] (h : MemLogs s t) (h' : MemLogs s u) : MemLogs s (if b then t else u) := by
  split
  · exact h
  · exact h'

theorem memUncorr_logs (s : State) (addr mid : Nat) : MemLogs s (memUncorr s addr mid) := by
  have h : MemLogs s (memEvt (bump s F.MEM_UNCORR_COUNT) 2) :=
    ((MemLogs.refl s).bump _ _ (by simp [memLogFields])).wr F.MEM_EVT_EVT 0 _ (by simp [memLogFields])
  unfold memUncorr
  exact MemLogs.ite ((h.wr _ _ _ (by simp [memLogFields])).wr _ _ _ (by simp [memLogFields])) h

theorem memBeyond_logs (s : State) (mid addr n : Nat) : MemLogs s (memBeyond s mid addr n) := by
  unfold memBeyond
  exact MemLogs.ite (memUncorr_logs s _ _) (.refl s)

theorem memRead_logs (s : State) (mid addr n : Nat) : MemLogs s (memRead s mid addr n).2 := by
  unfold memRead
  split
  · exact .refl s
  · exact memBeyond_logs s mid addr n

theorem memWrite_logs (s : State) (mid addr : Nat) (bs : List Nat) : MemLogs s (memWrite s mid addr bs) := by
  unfold memWrite
  split
  · exact .refl s
  · exact (lpPut_logs s _ _).trans (memBeyond_logs _ mid addr bs.length)

theorem memErrors_logs (s : State) (mid : Nat) (es : List (Nat × Nat)) : MemLogs s (memErrors s mid es).2 := by
  unfold memErrors
  split
  · exact .refl s
  · refine List.foldlRecOn (motive := fun (a : Bool × State) => MemLogs s a.2) es _ (MemLogs.refl s) fun a ha e _ => ?_
    split
    · exact ha.bump _ _ (by simp [memLogFields])
    · split
      · exact ha.bump _ _ (by simp [memLogFields])
      · exact ha
    · exact ha.trans (memUncorr_logs a.2 e.2 mid)
    · exact ha

/-! ### What processing a frame changes (R308 to R337) -/

theorem readExposure_logs (s : State) (e : Nat × Nat) (h : Nat) : MemLogs s (readExposure s e h).2 := by
  unfold readExposure
  split
  · exact .refl s
  · exact memRead_logs s midISP _ _

theorem ispProcess_logs (s : State) (p : Nat) (j : IspJob) (f : Frame) : MemLogs s (ispProcess s p j f).2.2.1 := by
  unfold ispProcess
  dsimp only
  refine List.foldlRecOn (motive := fun (a : List Img × State) => MemLogs s a.2) j.exps _ (MemLogs.refl s) fun a ha e _ => ?_
  exact ha.trans (readExposure_logs a.2 e _)

theorem writeOutLine_logs (s : State) (addr : Nat) (bad : Nat → Bool) (peel : Nat) (ln : OutLine) :
    MemLogs s (writeOutLine s addr bad peel ln) := by
  unfold writeOutLine
  dsimp only
  split
  · exact (takeFree_logs s _).trans (memWrite_logs _ midISP _ _)
  · exact memWrite_logs s midISP _ _

theorem ispWrite_logs (s : State) (p : Nat) (j : IspJob) (par : IspPar) (im : IspImage) (a b : Nat) :
    MemLogs s (ispWrite s p j par im a b) := by
  unfold ispWrite
  dsimp only
  refine foldl_frame MemLogs.refl MemLogs.trans (fun u out => ?_) _ s
  refine MemLogs.ite ?_ (.refl u)
  exact foldl_frame MemLogs.refl MemLogs.trans (fun v ln => writeOutLine_logs v _ _ _ ln) _ u

/-! ### A pipeline with one job -/

theorem ispAt_setIsp (s : State) (p : Nat) (k : Isp) : ispAt (setIsp s p k) p = k := sget_sset_same ..

theorem ispAt_congr (h : t.isp = s.isp) (p : Nat) : ispAt t p = ispAt s p := by
  unfold ispAt
  rw [h]

/-- No pod run waits and no ISP_DONE producer of the pipeline is enabled. -/
structure Lone (s : State) (p : Nat) : Prop where
  runs : s.podRuns = []
  producers : ∀ i, i < 8 → isSet s F.ISP_DONE_CFG_EN (8 * p + i) = false

theorem Lone.congr (h : Lone s p) (hruns : t.podRuns = s.podRuns) (ht : Touches fs s t)
    (hfs : ∀ g ∈ fs, g.fid % 1024 ≠ F.ISP_DONE_CFG_EN.fid % 1024) : Lone t p :=
  ⟨hruns.trans h.runs, fun i hi => (isSet_congr (ht _ _ hfs)).trans (h.producers i hi)⟩

theorem sweepInputs_none (h : s.podRuns = []) : sweepInputs s = s := by
  unfold sweepInputs endRuns
  rw [h]
  rfl

theorem ispProducers_none (h : Lone s p) (c : Nat) (done : Bool) : ispProducers s p c done = s := by
  unfold ispProducers
  refine List.foldlRecOn (motive := fun t => t = s) _ _ rfl fun t ht i hi => ?_
  dsimp only
  rw [h.producers i (List.mem_range.mp hi), Bool.false_and, Bool.false_and, if_neg Bool.false_ne_true, ht]

/-- A job that is the only one of its pipeline leaves it without a job. -/
theorem dropJob_one {x : IspJob} (hjobs : (ispAt s p).jobs = [x]) (hsame : x.same j = true) :
    dropJob s p j = setIsp s p { ispAt s p with jobs := [] } := by
  unfold dropJob mapJobs
  dsimp only
  rw [hjobs, List.filter_singleton, hsame]
  rfl

theorem same_self (j : IspJob) : j.same j = true := by
  unfold IspJob.same
  simp

/-- What the outcome of a job may change of the registers. -/
def outcomeFields : List Field :=
  [F.ISP_CTX_STATUS_ACTIVE, F.ISP_CTX_LAST_SEQ_SEQ, F.ISP_CTX_DONE_COUNT, F.ISP_EVT_EVT]

/-- The registers after the outcome of a job that leaves none. -/
def outcomeWritten (s : State) (p : Nat) (j : IspJob) (done : Bool) : State :=
  let s := wr (wrBool (setIsp s p { ispAt s p with jobs := [] }) F.ISP_CTX_STATUS_ACTIVE (ctxI p j.ctx) false)
    F.ISP_CTX_LAST_SEQ_SEQ (ctxI p j.ctx) j.seq
  if done then ispEvt (bump s F.ISP_CTX_DONE_COUNT (ctxI p j.ctx)) p 0 else ispEvt s p 1

theorem setActive_none (h : (ispAt s p).jobs = []) (c : Nat) :
    setActive s p c = wrBool s F.ISP_CTX_STATUS_ACTIVE (ctxI p c) false := by
  unfold setActive
  rw [h]
  rfl

/-- A frame's record of its outcomes and flags alone. -/
theorem foldl_setFrame (l : List (Nat × Nat)) (g : Frame → Frame) (s : State) :
    ∃ fr, l.foldl (fun s e => setFrame s e.1 e.2 g) s = { s with frames := fr } :=
  List.foldlRecOn (motive := fun (u : State) => ∃ fr, u = { s with frames := fr }) l _ ⟨s.frames, rfl⟩ fun u hu e _ => by
    obtain ⟨fr, rfl⟩ := hu
    exact ⟨_, rfl⟩

theorem outcomeWritten_touches (s : State) (p : Nat) (j : IspJob) (done : Bool) :
    Touches outcomeFields s (outcomeWritten s p j done) := by
  have h : Touches outcomeFields s (wr (wrBool (setIsp s p { ispAt s p with jobs := [] }) F.ISP_CTX_STATUS_ACTIVE (ctxI p j.ctx) false)
      F.ISP_CTX_LAST_SEQ_SEQ (ctxI p j.ctx) j.seq) :=
    ((Touches.of_regs rfl).wr _ _ _ (by simp [outcomeFields])).wr _ _ _ (by simp [outcomeFields])
  unfold outcomeWritten
  exact Touches.ite ((h.wr _ _ _ (by simp [outcomeFields])).wr F.ISP_EVT_EVT p _ (by simp [outcomeFields]))
    (h.wr F.ISP_EVT_EVT p _ (by simp [outcomeFields]))

/-- The outcome of the one job of a pipeline: what is written, and the record of the frames (R346). -/
theorem ispOutcome_one {x : IspJob} (hl : Lone s p) (hjobs : (ispAt s p).jobs = [x]) (hsame : x.same j = true)
    (hauto : j.manual = false) (done : Bool) :
    ∃ fr, ispOutcome s p j done = { outcomeWritten s p j done with frames := fr } := by
  have hactive : setActive (dropJob s p j) p j.ctx
      = wrBool (setIsp s p { ispAt s p with jobs := [] }) F.ISP_CTX_STATUS_ACTIVE (ctxI p j.ctx) false := by
    rw [dropJob_one hjobs hsame]
    exact setActive_none (congrArg Isp.jobs (ispAt_setIsp s p { ispAt s p with jobs := [] })) j.ctx
  obtain ⟨v, hv⟩ : ∃ v, v = outcomeWritten s p j done := ⟨_, rfl⟩
  have hvl : Lone v p := by
    refine hl.congr ?_ (hv ▸ outcomeWritten_touches s p j done) (by decide)
    rw [hv]
    unfold outcomeWritten
    cases done <;> rfl
  have hwritten : (if done = true then ispEvt (bump (wr (setActive (dropJob s p j) p j.ctx) F.ISP_CTX_LAST_SEQ_SEQ (ctxI p j.ctx) j.seq)
      F.ISP_CTX_DONE_COUNT (ctxI p j.ctx)) p 0 else ispEvt (wr (setActive (dropJob s p j) p j.ctx) F.ISP_CTX_LAST_SEQ_SEQ (ctxI p j.ctx)
      j.seq) p 1) = v := by
    rw [hactive, hv]
    rfl
  have hend (u : State) (hu : ∃ fr, u = { v with frames := fr }) : ∃ fr, sweepInputs (ispProducers u p j.ctx done) = { v with frames := fr } := by
    obtain ⟨fr, rfl⟩ := hu
    have hul : Lone { v with frames := fr } p := hvl.congr (t := { v with frames := fr }) (fs := []) rfl (.of_regs rfl) (by simp)
    rw [ispProducers_none hul, sweepInputs_none hul.runs]
    exact ⟨fr, rfl⟩
  rw [← hv]
  unfold ispOutcome
  dsimp only
  rw [hwritten, hauto, if_neg Bool.false_ne_true]
  refine hend _ ?_
  cases done
  · rw [if_neg Bool.false_ne_true]
    obtain ⟨fr, hfr⟩ := foldl_setFrame j.exps (fun f => f.flag flBYPASSED)
      (setFrame v j.stream j.seq fun f => { f with outcomes := f.outcomes ++ [⟨p, j.ctx, false, j.ecc⟩] })
    exact ⟨fr, hfr⟩
  · exact ⟨_, rfl⟩

/-- What an ended job leaves: no job, ACTIVE clear, its SEQ, its event, and a count where it is DONE. -/
theorem outcome_leaves {x : IspJob} (hl : Lone s p) (hjobs : (ispAt s p).jobs = [x]) (hsame : x.same j = true)
    (hauto : j.manual = false) (done : Bool) (ht : Settled (ispOutcome s p j done) t) :
    (ispAt t p).jobs = [] ∧ (ispAt t p).unit = (ispAt s p).unit
    ∧ rd t F.ISP_CTX_LAST_SEQ_SEQ (ctxI p j.ctx) = j.seq % 2 ^ 48 ∧ rd t F.ISP_CTX_STATUS_ACTIVE (ctxI p j.ctx) = 0
    ∧ hasBit t F.ISP_EVT_EVT p (if done then 0 else 1) = true
    ∧ (done = true → rd t F.ISP_CTX_DONE_COUNT (ctxI p j.ctx)
        = min (rd s F.ISP_CTX_DONE_COUNT (ctxI p j.ctx) + 1) (2 ^ F.ISP_CTX_DONE_COUNT.width - 1))
    ∧ Touches outcomeFields s t := by
  obtain ⟨fr, hout⟩ := ispOutcome_one hl hjobs hsame hauto done
  rw [hout] at ht
  have hrd (f : Field) (i : Nat) : rd t f i = rd (outcomeWritten s p j done) f i := ht.rd f i
  have hisp : ispAt t p = { ispAt s p with jobs := [] } := by
    rw [ispAt_congr ht.isp]
    have h : (outcomeWritten s p j done).isp = (setIsp s p { ispAt s p with jobs := [] }).isp := by
      unfold outcomeWritten
      cases done <;> rfl
    exact (ispAt_congr h p).trans (ispAt_setIsp ..)
  refine ⟨by rw [hisp], by rw [hisp], ?_, ?_, ?_, fun hd => ?_, fun f i hf => (hrd f i).trans (outcomeWritten_touches s p j done f i hf)⟩
  · rw [hrd]
    unfold outcomeWritten
    cases done <;> simp (disch := decide) only [ispEvt, setBit_eq, bump_eq, rd_wr_field, rd_wr_same, if_true, Bool.false_eq_true, if_false] <;> rfl
  · rw [hrd]
    unfold outcomeWritten
    cases done <;> simp (disch := decide) only [ispEvt, setBit_eq, bump_eq, wrBool_eq, rd_wr_field, rd_wr_same, if_true, Bool.false_eq_true, if_false] <;> rfl
  · rw [hasBit, hrd]
    unfold outcomeWritten
    cases done
    · exact hasBit_setBit _ F.ISP_EVT_EVT p 1 (by decide)
    · exact hasBit_setBit _ F.ISP_EVT_EVT p 0 (by decide)
  · subst hd
    rw [hrd]
    unfold outcomeWritten
    dsimp only
    rw [if_pos rfl, ispEvt, setBit_eq, rd_wr_field _ _ _ _ _ _ (by decide), rd_bump, rd_wr_field _ _ _ _ _ _ (by decide), wrBool_eq,
      rd_wr_field _ _ _ _ _ _ (by decide)]
    rfl

/-- No partner within PAIR_US: the job is bypassed (R317). -/
theorem answers_mergeTimeout (hp : p < 2) (hworks : blockWorks s (12 + p) = true) (hl : Lone s p)
    (hjobs : (ispAt s p).jobs = [j]) (hc : j.ctx < 64) (hauto : j.manual = false) (hgather : j.gather = true)
    (hform : mergeForm s p j.ctx = 1) (hdue : j.since + 1000 * rd s F.ISP_CTX_MERGE_PAIR_US (ctxI p j.ctx) ≤ s.ns) :
    Answers (exec (.ispMergeTimeout p j.ctx) s) fun t =>
      rd t F.ISP_CTX_MERGE_MISS_COUNT (ctxI p j.ctx)
        = min (rd s F.ISP_CTX_MERGE_MISS_COUNT (ctxI p j.ctx) + 1) (2 ^ F.ISP_CTX_MERGE_MISS_COUNT.width - 1)
      ∧ ((ispAt t p).jobs = [] ∧ rd t F.ISP_CTX_LAST_SEQ_SEQ (ctxI p j.ctx) = j.seq % 2 ^ 48)
      ∧ hasBit t F.ISP_EVT_EVT p 1 = true := by
  obtain ⟨v, hv⟩ : ∃ v, v = bump s F.ISP_CTX_MERGE_MISS_COUNT (ctxI p j.ctx) := ⟨_, rfl⟩
  have hrun : ispMergeTimeout s p j.ctx = ispOutcome v p j false := by
    unfold ispMergeTimeout ispBypass
    rw [hjobs, List.find?_singleton, beq_self_eq_true, hgather, Bool.and_true, if_pos rfl]
    dsimp only
    rw [hform, decide_eq_true hdue, if_pos (by decide), hauto, if_neg Bool.false_ne_true, hv]
  have hvl : Lone v p := by
    rw [hv]
    exact hl.congr (t := bump s _ _) (fs := [F.ISP_CTX_MERGE_MISS_COUNT]) rfl (Touches.refl.wr _ _ _ (by simp)) (by decide)
  have hvj : (ispAt v p).jobs = [j] := by rw [hv]; exact hjobs
  refine answers_onBlock (f := fun s => if j.ctx < 64 then ispMergeTimeout s p j.ctx else s) hp hworks fun t ht => ?_
  rw [if_pos hc, hrun] at ht
  obtain ⟨hnone, -, hseq, -, hevt, -, htouch⟩ := outcome_leaves hvl hvj (same_self j) hauto false ht
  exact ⟨by rw [htouch _ _ (by decide), hv, rd_bump], ⟨hnone, hseq⟩, hevt⟩

/-! ### The scheduler (R341, R343, R344) -/

/-- The one job of a pipeline is ready where its frame has closed. -/
theorem readyJob_one (hjobs : (ispAt s p).jobs = [j]) (hinl : j.inl = false) (hgather : j.gather = false) {f : Frame}
    (hf : frameAt s j.stream j.seq = some f) (hclosed : f.phase ≠ .open) (c : Nat) :
    readyJob s p c = if c = j.ctx then some j else none := by
  have hphase : (decide (f.phase ≠ .open)) = true := decide_eq_true hclosed
  unfold readyJob
  rw [hjobs, List.find?_singleton, hinl, Bool.not_false, Bool.and_true]
  by_cases hc : c = j.ctx
  · subst hc
    rw [beq_self_eq_true, if_pos rfl, if_pos rfl]
    dsimp only
    rw [hgather, if_neg Bool.false_ne_true, hf]
    exact if_pos (show (decide (f.phase ≠ .open) || _) = true by rw [hphase, Bool.true_or])
  · rw [beq_eq_false_iff_ne.mpr (Ne.symm hc), if_neg Bool.false_ne_true, if_neg hc]

theorem readyJob_none (hjobs : (ispAt s p).jobs = []) (c : Nat) : readyJob s p c = none := by
  unfold readyJob
  rw [hjobs]
  rfl

/-- A choice among equals is the first of them. -/
theorem foldl_choice {l : List Nat} {c : Nat} (hl : ∀ x ∈ l, x = c) (hne : l ≠ []) (q : Nat → Nat) :
    l.foldl (fun (b : Option Nat) x => match b with
      | none => some x
      | some d => if q d < q x then some x else b) none = some c := by
  obtain ⟨a, l, rfl⟩ := List.exists_cons_of_ne_nil hne
  obtain rfl : a = c := hl a (by simp)
  rw [List.foldl_cons]
  refine List.foldlRecOn (motive := fun b => b = some a) l _ rfl fun b hb x hx => ?_
  rw [hb, hl x (by simp [hx])]
  exact if_neg (lt_irrefl _)

theorem nextCtx_one (hmode : ispMode s p = ispSHARED) (hjobs : (ispAt s p).jobs = [j]) (hinl : j.inl = false)
    (hgather : j.gather = false) (hc : j.ctx < 64) {f : Frame} (hf : frameAt s j.stream j.seq = some f) (hclosed : f.phase ≠ .open) :
    nextCtx s p = some j.ctx := by
  have hready (c : Nat) : (readyCtxs s p).contains c = true ↔ c = j.ctx := by
    rw [List.contains_iff_mem, readyCtxs, if_pos hmode, List.mem_filter, List.mem_range, readyJob_one hjobs hinl hgather hf hclosed]
    by_cases h : c = j.ctx
    · simp [h, hc]
    · simp [h]
  unfold nextCtx
  refine foldl_choice (fun x hx => (hready x).mp (List.mem_filter.mp hx).2) ?_ _
  obtain ⟨i, hi, hrot⟩ : ∃ i, i < 64 ∧ ((ispAt s p).last + 1 + i) % 64 = j.ctx :=
    ⟨(j.ctx + 64 * ((ispAt s p).last + 1) - ((ispAt s p).last + 1)) % 64, Nat.mod_lt _ (by decide), by omega⟩
  refine List.ne_nil_of_mem (a := j.ctx) (List.mem_filter.mpr ⟨?_, (hready _).mpr rfl⟩)
  exact List.mem_map.mpr ⟨i, List.mem_range.mpr hi, hrot⟩

theorem nextCtx_none (hjobs : (ispAt s p).jobs = []) : nextCtx s p = none := by
  have hready : readyCtxs s p = [] := by
    unfold readyCtxs
    split
    · simp [readyJob_none hjobs]
    · rfl
  unfold nextCtx
  rw [hready]
  simp

/-- A job older than MAX_AGE is bypassed, and no other is there (R344). -/
theorem answers_aged (hp : p < 2) (hworks : blockWorks s (12 + p) = true) (hl : Lone s p) (hjobs : (ispAt s p).jobs = [j])
    (hc : j.ctx < 64) (hauto : j.manual = false) (hstarted : j.started = false) (hinl : j.inl = false) (hgather : j.gather = false)
    (hunit : (ispAt s p).unit = none) (hmode : ispMode s p = ispSHARED) {f : Frame} (hf : frameAt s j.stream j.seq = some f)
    (hclosed : f.phase ≠ .open) (hage : j.tb + rd s F.ISP_CTX_MAX_AGE_NS (ctxI p j.ctx) < s.tb) :
    Answers (exec (.ispUnitStart p) s) fun t =>
      rd t F.ISP_CTX_BYPASS_AGE_COUNT (ctxI p j.ctx)
        = min (rd s F.ISP_CTX_BYPASS_AGE_COUNT (ctxI p j.ctx) + 1) (2 ^ F.ISP_CTX_BYPASS_AGE_COUNT.width - 1)
      ∧ ((ispAt t p).jobs = [] ∧ rd t F.ISP_CTX_LAST_SEQ_SEQ (ctxI p j.ctx) = j.seq % 2 ^ 48) ∧ (ispAt t p).unit = none := by
  obtain ⟨v, hv⟩ : ∃ v, v = bump s F.ISP_CTX_BYPASS_AGE_COUNT (ctxI p j.ctx) := ⟨_, rfl⟩
  have hvl : Lone v p := by
    rw [hv]
    exact hl.congr (t := bump s _ _) (fs := [F.ISP_CTX_BYPASS_AGE_COUNT]) rfl (Touches.refl.wr _ _ _ (by simp)) (by decide)
  have hvj : (ispAt v p).jobs = [j] := by rw [hv]; exact hjobs
  have hvu : (ispAt v p).unit = none := by rw [hv]; exact hunit
  obtain ⟨w, hw⟩ : ∃ w, w = ispOutcome v p j false := ⟨_, rfl⟩
  have hwj : (ispAt w p).jobs = [] ∧ (ispAt w p).unit = none := by
    obtain ⟨fr, hout⟩ := ispOutcome_one hvl hvj (same_self j) hauto false
    have hisp : ispAt w p = { ispAt v p with jobs := [] } := by
      rw [hw, hout]
      exact ispAt_setIsp ..
    rw [hisp]
    exact ⟨rfl, hvu⟩
  have hagain : unitStart 511 w p = w := by
    unfold unitStart
    rw [hwj.2, nextCtx_none hwj.1]
    rfl
  have hrun : unitStart 512 s p = w := by
    unfold unitStart
    rw [hunit, nextCtx_one hmode hjobs hinl hgather hc hf hclosed, if_neg (by decide)]
    dsimp only
    rw [readyJob_one hjobs hinl hgather hf hclosed, if_pos rfl]
    dsimp only
    rw [hstarted, if_neg Bool.false_ne_true, hauto, decide_eq_true hage, if_pos (by decide), ← hv]
    unfold ispBypass
    rw [hauto, if_neg Bool.false_ne_true, ← hw, hagain]
  refine answers_onBlock (f := fun s => unitStart 512 s p) hp hworks fun t ht => ?_
  rw [hrun, hw] at ht
  obtain ⟨hnone, hu, hseq, -, -, -, htouch⟩ := outcome_leaves hvl hvj (same_self j) hauto false ht
  exact ⟨by rw [htouch _ _ (by decide), hv, rd_bump], ⟨hnone, hseq⟩, hu.trans hvu⟩

/-- The one job of a pipeline is replaced by what it has become. -/
theorem putJob_one {x : IspJob} (hjobs : (ispAt s p).jobs = [x]) (hsame : x.same j = true) :
    putJob s p j = setIsp s p { ispAt s p with jobs := [j] } := by
  unfold putJob mapJobs
  dsimp only
  rw [hjobs, List.map_singleton, hsame]
  rfl

/-- The job as it starts: its registers latched, its slot index taken (R345). -/
def startedJob (s : State) (p : Nat) (j : IspJob) (es : List (Nat × Nat)) : IspJob :=
  { j with started := true, snap := ispSnap s, index := ispIndex s p j.ctx j.seq, exps := es }

/-- The registers of a context whose frame starts. -/
def startWritten (s : State) (i : Nat) : State :=
  wrBool (wr (wr s F.ISP_CTX_STATUS_VALID i 1) F.ISP_CTX_STATUS_ERR i 0) F.ISP_CTX_STATUS_ACTIVE i true

/-- The one job of a pipeline starts: VALID and ACTIVE are set. -/
theorem ispStart_one (hjobs : (ispAt s p).jobs = [j]) (hcode : jobCode s p j = 0) (es : List (Nat × Nat)) :
    ∃ j' w, ispStart s p j es = (some j', w) ∧ w.regs = (startWritten s (ctxI p j.ctx)).regs := by
  obtain ⟨a, ha⟩ : ∃ a, a = wr (wr s F.ISP_CTX_STATUS_VALID (ctxI p j.ctx) 1) F.ISP_CTX_STATUS_ERR (ctxI p j.ctx) 0 := ⟨_, rfl⟩
  obtain ⟨j', hj'⟩ : ∃ j', j' = startedJob a p j es := ⟨_, rfl⟩
  have hctx : j'.ctx = j.ctx := by rw [hj']; rfl
  have hstarted : j'.started = true := by rw [hj']; rfl
  have hsame : j.same j' = true := by
    rw [hj']
    exact same_self j
  have haj : (ispAt a p).jobs = [j] := by rw [ha]; exact hjobs
  have hput : putJob a p j' = setIsp a p { ispAt a p with jobs := [j'] } := putJob_one haj hsame
  obtain ⟨b, hb⟩ : ∃ b, b = signalRewrite (putJob a p j') p j' := ⟨_, rfl⟩
  have hbj : (ispAt b p).jobs = [j'] := by
    have h : ispAt b p = { ispAt a p with jobs := [j'] } := by
      rw [hb, hput]
      exact (ispAt_congr (s := setIsp a p { ispAt a p with jobs := [j'] }) rfl p).trans (ispAt_setIsp ..)
    rw [h]
  refine ⟨j', setActive b p j'.ctx, ?_, ?_⟩
  · unfold ispStart
    dsimp only
    rw [if_neg (not_not.mpr hcode), ← ha, hb, hj']
    rfl
  · have hbr : b.regs = a.regs := by
      rw [hb, hput]
      rfl
    unfold setActive
    rw [hbj, List.any_cons, beq_self_eq_true, hstarted, hctx]
    unfold startWritten
    rw [← ha]
    change (wrBool b F.ISP_CTX_STATUS_ACTIVE (ctxI p j.ctx) true).regs = _
    simp only [wrBool, wr, hbr]

theorem beginUnit_unit (s : State) (p c : Nat) : (ispAt (beginUnit s p c) p).unit = some c := by
  unfold beginUnit
  dsimp only
  rw [ispAt_setIsp]

/-- Context c is the one last loaded on pipeline p. -/
def sameCtx (s : State) (p c : Nat) : Prop := rd s F.ISP_STATUS_LOADED p = 1 ∧ rd s F.ISP_STATUS_CUR_CTX p = c

theorem sameCtx_iff (s : State) (p c : Nat) :
    (isSet s F.ISP_STATUS_LOADED p && rd s F.ISP_STATUS_CUR_CTX p == c) = true ↔ sameCtx s p c := by
  have hlt : rd s F.ISP_STATUS_LOADED p < 2 ^ 1 := rd_lt s F.ISP_STATUS_LOADED p
  unfold sameCtx isSet
  rw [Bool.and_eq_true, beq_iff_eq, decide_eq_true_iff]
  constructor
  · rintro ⟨h, h'⟩
    exact ⟨by omega, h'⟩
  · rintro ⟨h, h'⟩
    exact ⟨by omega, h'⟩

/-- The registers of a unit that begins: the context loaded, a switch counted. -/
theorem beginUnit_regs (s : State) (p c : Nat) [Decidable (sameCtx s p c)] : (beginUnit s p c).regs
    = (wr (wr (if sameCtx s p c then s else bump s F.ISP_SWITCHES_COUNT p) F.ISP_STATUS_LOADED p 1) F.ISP_STATUS_CUR_CTX p c).regs := by
  unfold beginUnit
  dsimp only
  by_cases h : sameCtx s p c
  · rw [if_pos ((sameCtx_iff s p c).mpr h), if_pos h]
    rfl
  · rw [if_neg fun e => h ((sameCtx_iff s p c).mp e), if_neg h]
    rfl

/-- A SHARED pipeline without a unit takes the job of a closed frame (R341, R345, R346). -/
theorem answers_unitStart (hp : p < 2) (hworks : blockWorks s (12 + p) = true) (hjobs : (ispAt s p).jobs = [j])
    (hc : j.ctx < 64) (hauto : j.manual = false) (hstarted : j.started = false) (hinl : j.inl = false) (hgather : j.gather = false)
    (hunit : (ispAt s p).unit = none) (hmode : ispMode s p = ispSHARED) {f : Frame} (hf : frameAt s j.stream j.seq = some f)
    (hclosed : f.phase ≠ .open) (hage : s.tb ≤ j.tb + rd s F.ISP_CTX_MAX_AGE_NS (ctxI p j.ctx)) (hform : mergeForm s p j.ctx = 0)
    (hcode : jobCode s p j = 0) : Answers (exec (.ispUnitStart p) s) fun t =>
      (ispAt t p).unit = some j.ctx ∧ rd t F.ISP_STATUS_LOADED p = 1 ∧ rd t F.ISP_STATUS_CUR_CTX p = j.ctx
      ∧ rd t F.ISP_CTX_STATUS_ACTIVE (ctxI p j.ctx) = 1 ∧ rd t F.ISP_CTX_STATUS_VALID (ctxI p j.ctx) = 1
      ∧ rd t F.ISP_CTX_STATUS_ERR (ctxI p j.ctx) = 0
      ∧ (if rd s F.ISP_STATUS_LOADED p = 1 ∧ rd s F.ISP_STATUS_CUR_CTX p = j.ctx
        then rd t F.ISP_SWITCHES_COUNT p = rd s F.ISP_SWITCHES_COUNT p
        else rd t F.ISP_SWITCHES_COUNT p = min (rd s F.ISP_SWITCHES_COUNT p + 1) (2 ^ F.ISP_SWITCHES_COUNT.width - 1))
      ∧ Keeps [(F.ISP_STATUS_LOADED, p), (F.ISP_STATUS_CUR_CTX, p), (F.ISP_CTX_STATUS_ACTIVE, ctxI p j.ctx),
          (F.ISP_CTX_STATUS_VALID, ctxI p j.ctx), (F.ISP_CTX_STATUS_ERR, ctxI p j.ctx), (F.ISP_SWITCHES_COUNT, p)] s t := by
  classical
  obtain ⟨j', w, hstart, hw⟩ := ispStart_one hjobs hcode [(j.stream, j.seq)]
  have hexp : findExposures s p j = ([(j.stream, j.seq)], true) := by
    unfold findExposures
    rw [hform]
    rfl
  have hrun : unitStart 512 s p = beginUnit w p j.ctx := by
    unfold unitStart
    rw [hunit, nextCtx_one hmode hjobs hinl hgather hc hf hclosed, if_neg (by decide)]
    dsimp only
    rw [readyJob_one hjobs hinl hgather hf hclosed, if_pos rfl]
    dsimp only
    rw [hstarted, if_neg Bool.false_ne_true, hauto, decide_eq_false (not_lt.mpr hage), if_neg (by decide), hexp]
    dsimp only
    rw [if_neg (by decide), hstart]
  obtain ⟨i, hi⟩ : ∃ i, i = ctxI p j.ctx := ⟨_, rfl⟩
  have hwrd (f : Field) (n : Nat) : rd w f n = rd (startWritten s (ctxI p j.ctx)) f n := rd_congr hw f n
  have hwk : Keeps [(F.ISP_CTX_STATUS_ACTIVE, ctxI p j.ctx), (F.ISP_CTX_STATUS_VALID, ctxI p j.ctx), (F.ISP_CTX_STATUS_ERR, ctxI p j.ctx)] s w :=
    ((((Keeps.refl _ s).wr _ _ _ (by simp)).wr _ _ _ (by simp)).wr _ _ _ (by simp)).of_regs hw
  have hwt : Touches [F.ISP_CTX_STATUS_ACTIVE, F.ISP_CTX_STATUS_VALID, F.ISP_CTX_STATUS_ERR] s w := by
    have h : Touches [F.ISP_CTX_STATUS_ACTIVE, F.ISP_CTX_STATUS_VALID, F.ISP_CTX_STATUS_ERR] s (startWritten s (ctxI p j.ctx)) :=
      ((Touches.refl.wr _ _ _ (by simp)).wr _ _ _ (by simp)).wr _ _ _ (by simp)
    exact h.trans (.of_regs hw)
  have hsame : sameCtx w p j.ctx ↔ rd s F.ISP_STATUS_LOADED p = 1 ∧ rd s F.ISP_STATUS_CUR_CTX p = j.ctx := by
    unfold sameCtx
    rw [hwt _ _ (by decide), hwt _ _ (by decide)]
  have hregs := beginUnit_regs w p j.ctx
  refine answers_onBlock (f := fun s => unitStart 512 s p) hp hworks fun t ht => ?_
  rw [hrun] at ht
  have hrd (f : Field) (n : Nat) : rd t f n = rd (wr (wr (if sameCtx w p j.ctx then w else bump w F.ISP_SWITCHES_COUNT p)
      F.ISP_STATUS_LOADED p 1) F.ISP_STATUS_CUR_CTX p j.ctx) f n := (ht.rd f n).trans (rd_congr hregs f n)
  have hbase (f : Field) (n : Nat) (h1 : F.ISP_STATUS_CUR_CTX.fid % 1024 ≠ f.fid % 1024)
      (h2 : F.ISP_STATUS_LOADED.fid % 1024 ≠ f.fid % 1024) (h3 : F.ISP_SWITCHES_COUNT.fid % 1024 ≠ f.fid % 1024) :
      rd t f n = rd w f n := by
    rw [hrd, rd_wr_field _ _ _ _ _ _ h1, rd_wr_field _ _ _ _ _ _ h2]
    split
    · rfl
    · exact rd_wr_field _ _ _ _ _ _ h3
  refine ⟨?_, ?_, ?_, ?_, ?_, ?_, ?_, fun f n hf => ?_⟩
  · rw [ispAt_congr ht.isp, beginUnit_unit]
  · rw [hrd, rd_wr_field _ _ _ _ _ _ (by decide), rd_wr_same]
    rfl
  · rw [hrd, rd_wr_same]
    exact Nat.mod_eq_of_lt hc
  · rw [hbase _ _ (by decide) (by decide) (by decide), hwrd, startWritten, wrBool_eq, rd_wr_same]
    rfl
  · rw [hbase _ _ (by decide) (by decide) (by decide), hwrd, startWritten, wrBool_eq, rd_wr_field _ _ _ _ _ _ (by decide),
      rd_wr_field _ _ _ _ _ _ (by decide), rd_wr_same]
    rfl
  · rw [hbase _ _ (by decide) (by decide) (by decide), hwrd, startWritten, wrBool_eq, rd_wr_field _ _ _ _ _ _ (by decide), rd_wr_same]
    rfl
  · have hcount : rd t F.ISP_SWITCHES_COUNT p = if sameCtx w p j.ctx then rd s F.ISP_SWITCHES_COUNT p
        else min (rd s F.ISP_SWITCHES_COUNT p + 1) (2 ^ F.ISP_SWITCHES_COUNT.width - 1) := by
      rw [hrd, rd_wr_field _ _ _ _ _ _ (by decide), rd_wr_field _ _ _ _ _ _ (by decide)]
      split
      · exact hwt _ _ (by decide)
      · rw [rd_bump, hwt _ _ (by decide)]
    split
    · rename_i h
      rw [hcount, if_pos (hsame.mpr h)]
    · rename_i h
      rw [hcount, if_neg fun e => h (hsame.mp e)]
  · rw [hrd]
    refine Keeps.wr (Keeps.wr ?_ _ _ _ (by simp)) _ _ _ (by simp) f n hf
    split
    · exact hwk.mono (by simp)
    · exact (hwk.mono (by simp)).wr _ _ _ (by simp)

/-! ### The end of a unit (R341, R346) -/

theorem MemLogs.isp (h : MemLogs s t) : t.isp = s.isp := by
  have e := congrArg State.isp h.rest
  exact e

theorem MemLogs.podRuns (h : MemLogs s t) : t.podRuns = s.podRuns := by
  have e := congrArg State.podRuns h.rest
  exact e

/-- The last outputs of the one job of a pipeline, without a statistics record. -/
theorem finish_leaves {x : IspJob} {f : Frame} {par : IspPar} {im : IspImage} {bad : Nat} (hl : Lone s p)
    (hjobs : (ispAt s p).jobs = [x]) (hsame : x.same j = true) (hauto : j.manual = false)
    (hstat : isSet (snapView s j) F.ISP_CTX_OUT_EN_STAT_EN (ctxI p j.ctx) = false)
    (ht : Settled (ispFinish s p j f par im bad) t) :
    (ispAt t p).jobs = [] ∧ (ispAt t p).unit = (ispAt s p).unit
    ∧ rd t F.ISP_CTX_LAST_SEQ_SEQ (ctxI p j.ctx) = j.seq % 2 ^ 48 ∧ rd t F.ISP_CTX_STATUS_ACTIVE (ctxI p j.ctx) = 0
    ∧ hasBit t F.ISP_EVT_EVT p 0 = true
    ∧ rd t F.ISP_CTX_DONE_COUNT (ctxI p j.ctx)
        = min (rd s F.ISP_CTX_DONE_COUNT (ctxI p j.ctx) + 1) (2 ^ F.ISP_CTX_DONE_COUNT.width - 1) := by
  obtain ⟨v, hv⟩ : ∃ v, v = bumpBy s F.ISP_CTX_DEF_ORDER_COUNT (ctxI p j.ctx) bad := ⟨_, rfl⟩
  have hvt : Touches [F.ISP_CTX_DEF_ORDER_COUNT] s v := hv ▸ Touches.refl.wr _ _ _ (by simp)
  have hvl : Lone v p := hl.congr (by rw [hv]; rfl) hvt (by decide)
  have hvisp : ispAt v p = ispAt s p := ispAt_congr (by rw [hv]; rfl) p
  have hview : isSet (snapView v j) F.ISP_CTX_OUT_EN_STAT_EN (ctxI p j.ctx) = false := hstat
  have hrun : ispFinish s p j f par im bad = ispOutcome v p j true := by
    unfold ispFinish ispStat
    dsimp only
    rw [← hv, hview, Bool.not_false, if_pos rfl]
  rw [hrun] at ht
  obtain ⟨hnone, hu, hseq, hact, hevt, hcount, -⟩ := outcome_leaves hvl (hvisp ▸ hjobs) hsame hauto true ht
  refine ⟨hnone, by rw [hu, hvisp], hseq, hact, hevt, ?_⟩
  rw [hcount rfl, hvt _ _ (by decide)]

/-- The job whose unit ends keeps what names it. -/
def unitJob (s : State) (j : IspJob) (bad : Bool) : IspJob := { j with ovr := j.ovr || !held s j.stream j.seq, ecc := j.ecc || bad }

/-- The unit of an unstriped closed frame ends its job DONE (R341, R346). -/
theorem answers_unitDone {ecc : List (Nat × Nat)} (hp : p < 2) (hworks : blockWorks s (12 + p) = true) (hl : Lone s p)
    (hjobs : (ispAt s p).jobs = [j]) (hauto : j.manual = false) {f : Frame} (hf : frameAt s j.stream j.seq = some f)
    (hstat : isSet (snapView s j) F.ISP_CTX_OUT_EN_STAT_EN (ctxI p j.ctx) = false) (hstarted : j.started = true)
    (hinl : j.inl = false) (hstop : j.stop = false) (hunit : (ispAt s p).unit = some j.ctx)
    (hstriped : isSet (snapView s j) F.ISP_CTX_CFG_STRIPED (ctxI p j.ctx) = false) : Answers (exec (.ispUnitDone p ecc) s) fun t =>
      (rd t F.ISP_CTX_DONE_COUNT (ctxI p j.ctx)
          = min (rd s F.ISP_CTX_DONE_COUNT (ctxI p j.ctx) + 1) (2 ^ F.ISP_CTX_DONE_COUNT.width - 1)
        ∧ ((ispAt t p).jobs = [] ∧ rd t F.ISP_CTX_LAST_SEQ_SEQ (ctxI p j.ctx) = j.seq % 2 ^ 48)
        ∧ hasBit t F.ISP_EVT_EVT p 0 = true ∧ rd t F.ISP_CTX_STATUS_ACTIVE (ctxI p j.ctx) = 0)
      ∧ (ispAt t p).unit = none := by
  obtain ⟨s', hs'⟩ : ∃ s', s' = setIsp s p { ispAt s p with unit := none } := ⟨_, rfl⟩
  have hs'at : ispAt s' p = { ispAt s p with unit := none } := by rw [hs']; exact ispAt_setIsp ..
  have hs'l : Lone s' p := hl.congr (by rw [hs']; rfl) (fs := []) (by rw [hs']; exact .of_regs rfl) (by simp)
  have hs'j : (ispAt s' p).jobs = [j] := by rw [hs'at]; exact hjobs
  have hs'f : frameAt s' j.stream j.seq = some f := by rw [hs']; exact hf
  have hs'striped : isSet (snapView s' j) F.ISP_CTX_CFG_STRIPED (ctxI p j.ctx) = false := hstriped
  obtain ⟨w, j', par, im, bad, hrun, hlogs, hsame, hctx, hsnap, hseq, hman⟩ :
      ∃ (w : State) (j' : IspJob) (par : IspPar) (im : IspImage) (bad : Nat), unitDone s p ecc = ispFinish w p j' f par im bad
        ∧ MemLogs s' w ∧ j.same j' = true ∧ j'.ctx = j.ctx ∧ j'.snap = j.snap ∧ j'.seq = j.seq ∧ j'.manual = j.manual := by
    obtain ⟨m, hm⟩ : ∃ m, m = memErrors s' midISP ecc := ⟨_, rfl⟩
    obtain ⟨j', hj'⟩ : ∃ j', j' = unitJob m.2 j m.1 := ⟨_, rfl⟩
    obtain ⟨q, hq⟩ : ∃ q, q = ispProcess m.2 p j' f := ⟨_, rfl⟩
    refine ⟨ispWrite q.2.2.1 p j' q.1 q.2.1 0 q.1.h, j', q.1, q.2.1, q.2.2.2, ?_, ?_, ?_, ?_, ?_, ?_, ?_⟩
    · unfold unitDone
      rw [hunit]
      dsimp only
      rw [← hs', hs'j, List.find?_singleton, beq_self_eq_true, hstarted, hinl, if_pos (by decide)]
      dsimp only
      rw [hstop, if_neg Bool.false_ne_true, hs'f]
      dsimp only
      rw [hs'striped, ← hm]
      simp only [Bool.false_eq_true, if_false, Bool.not_false, Bool.true_or, if_true]
      rw [hq, hj']
      rfl
    · rw [hq, hm]
      exact ((memErrors_logs s' midISP ecc).trans (ispProcess_logs _ p j' f)).trans (ispWrite_logs _ p j' _ _ _ _)
    · rw [hj']
      exact same_self j
    all_goals rw [hj']; rfl
  have hwl : Lone w p := hs'l.congr hlogs.podRuns hlogs.touches (by decide)
  have hwat : ispAt w p = ispAt s' p := ispAt_congr hlogs.isp p
  have hwstat : isSet (snapView w j') F.ISP_CTX_OUT_EN_STAT_EN (ctxI p j'.ctx) = false := by
    rw [hctx, ← hstat]
    refine isSet_congr (rd_congr ?_ _ _)
    exact hsnap
  refine answers_onBlock (f := fun s => unitDone s p ecc) hp hworks fun t ht => ?_
  rw [hrun] at ht
  obtain ⟨hnone, hu, hlast, hact, hevt, hcount⟩ := finish_leaves hwl (hwat ▸ hs'j) hsame (hman.trans hauto) hwstat ht
  rw [hctx] at hlast hact hcount
  have hdone : rd w F.ISP_CTX_DONE_COUNT (ctxI p j.ctx) = rd s F.ISP_CTX_DONE_COUNT (ctxI p j.ctx) := by
    rw [hlogs.touches _ _ (by decide), hs']
    rfl
  refine ⟨⟨by rw [hcount, hdone], ⟨hnone, by rw [hlast, hseq]⟩, hevt, hact⟩, ?_⟩
  rw [hu, hwat, hs'at]

/-- A closed in-line frame ends its job DONE (R340). -/
theorem answers_inlineDone {ecc : List (Nat × Nat)} (hp : p < 2) (hworks : blockWorks s (12 + p) = true) (hl : Lone s p)
    (hjobs : (ispAt s p).jobs = [j]) (hauto : j.manual = false) {f : Frame} (hf : frameAt s j.stream j.seq = some f)
    (hclosed : f.phase ≠ .open) (hstat : isSet (snapView s j) F.ISP_CTX_OUT_EN_STAT_EN (ctxI p j.ctx) = false)
    (hinl : j.inl = true) : Answers (exec (.ispInlineDone p ecc) s) fun t =>
      rd t F.ISP_CTX_DONE_COUNT (ctxI p j.ctx)
          = min (rd s F.ISP_CTX_DONE_COUNT (ctxI p j.ctx) + 1) (2 ^ F.ISP_CTX_DONE_COUNT.width - 1)
      ∧ ((ispAt t p).jobs = [] ∧ rd t F.ISP_CTX_LAST_SEQ_SEQ (ctxI p j.ctx) = j.seq % 2 ^ 48)
      ∧ hasBit t F.ISP_EVT_EVT p 0 = true ∧ rd t F.ISP_CTX_STATUS_ACTIVE (ctxI p j.ctx) = 0 := by
  obtain ⟨w, par, im, bad, hrun, hlogs⟩ : ∃ (w : State) (par : IspPar) (im : IspImage) (bad : Nat),
      inlineDone s p ecc = ispFinish w p j f par im bad ∧ MemLogs s w := by
    obtain ⟨m, hm⟩ : ∃ m, m = (memErrors s midISP (ecc.filter (·.1 == 1))).2 := ⟨_, rfl⟩
    obtain ⟨q, hq⟩ : ∃ q, q = ispProcess m p j f := ⟨_, rfl⟩
    refine ⟨ispWrite q.2.2.1 p j q.1 q.2.1 0 q.1.h, q.1, q.2.1, q.2.2.2, ?_, ?_⟩
    · unfold inlineDone
      rw [hjobs, List.find?_singleton, if_pos (by rw [hinl, hf]; simpa using hclosed)]
      dsimp only
      rw [hf]
      dsimp only
      rw [← hm, ← hq]
    · rw [hq, hm]
      exact ((memErrors_logs s midISP _).trans (ispProcess_logs _ p j f)).trans (ispWrite_logs _ p j _ _ _ _)
  refine answers_onBlock (f := fun s => inlineDone s p ecc) hp hworks fun t ht => ?_
  rw [hrun] at ht
  obtain ⟨hnone, -, hlast, hact, hevt, hcount⟩ := finish_leaves (hl.congr hlogs.podRuns hlogs.touches (by decide))
    (ispAt_congr hlogs.isp p ▸ hjobs) (same_self j) hauto hstat ht
  exact ⟨by rw [hcount, hlogs.touches _ _ (by decide)], ⟨hnone, hlast⟩, hevt, hact⟩

end

/-- Settles O59, clause by clause. -/
theorem pipelineUnitsRunAndEnd : Obligations.PipelineUnitsRunAndEnd := by
  unfold Obligations.PipelineUnitsRunAndEnd
  intro s p j hp hworks hruns hprods hjobs hc hauto
  have hl : Lone s p := ⟨hruns, hprods⟩
  dsimp only
  refine ⟨fun hgather hform hdue => ?_, fun hstarted hinl hgather hunit hmode ⟨f, hf, hclosed⟩ => ⟨fun hage hform hcode => ?_,
    fun hage => ?_⟩, fun f ecc hf hclosed hstat => ⟨fun hstarted hinl hstop hunit hstriped => ?_, fun hinl => ?_⟩⟩
  · exact answers_mergeTimeout hp hworks hl hjobs hc hauto hgather hform hdue
  · exact answers_unitStart hp hworks hjobs hc hauto hstarted hinl hgather hunit hmode hf hclosed hage hform hcode
  · exact answers_aged hp hworks hl hjobs hc hauto hstarted hinl hgather hunit hmode hf hclosed hage
  · exact answers_unitDone hp hworks hl hjobs hauto hf hstat hstarted hinl hstop hunit hstriped
  · exact answers_inlineDone hp hworks hl hjobs hauto hf hclosed hstat hinl

end Sys2Proof.Machine
end

section
/-! Pod runs: submission, the first record, the end of a layer (R374 to R381, R395). -/
open Sys2Proof
namespace Sys2Proof.Machine

section
variable {s t u v w : State} {fs : List Field} {r : PodRun}

/-! ### A run that is alone -/

/-- No POD_VDT producer is enabled. -/
def VdtOff (s : State) : Prop := ∀ i, i < 8 → isSet s F.POD_VDT_CFG_EN i = false

theorem VdtOff.touches (h : VdtOff s) (ht : Touches fs s u) (hfs : ∀ g ∈ fs, g.fid % 1024 ≠ F.POD_VDT_CFG_EN.fid % 1024) :
    VdtOff u := fun i hi => (isSet_congr (ht _ _ hfs)).trans (h i hi)

theorem podRun_one (hone : s.podRuns = [r]) (hended : r.ended = none) : podRun s r.id = some r := by
  unfold podRun
  rw [hone, List.find?_singleton, beq_self_eq_true, hended]
  rfl

theorem setRun_one (hone : s.podRuns = [r]) (g : PodRun → PodRun) : setRun s r.id g = { s with podRuns := [g r] } := by
  unfold setRun
  rw [hone, List.map_singleton, beq_self_eq_true, if_pos rfl]

/-- Of the runs, the one that ends is gone. -/
theorem filter_one {x : PodRun} (hid : x.id = r.id) : [x].filter (fun y => decide (y.id ≠ r.id)) = [] := by
  rw [List.filter_singleton, hid]
  simp

/-- A run that ends OK is counted (R380). -/
theorem runCounts_ok (hoff : VdtOff s) (r : PodRun) : runCounts s r 0 true = bump s F.POD_RUNS_OK_COUNT := by
  have ht : Touches [F.POD_RUNS_OK_COUNT] s (bump s F.POD_RUNS_OK_COUNT) := Touches.refl.wr _ _ _ (by simp)
  exact podProducers_of_none (hoff.touches ht (by decide)) r.stream 3

/-- A run outside a region that ends OK with a verdict, of a stream without a gate: POD_NET takes it (R381). -/
theorem endRun_verdict {x : PodRun} {q n k : Nat} (hone : s.podRuns = [x]) (hid : x.id = r.id) (hoff : VdtOff s)
    (hregion : r.region = none) (hverdict : r.verdict = some n) (hseq : r.seq = some q) (hk : r.stream = k)
    (hgate : gateOn s k = false) : endRun s r 0
      = wr (wr (bump { s with podRuns := [] } F.POD_RUNS_OK_COUNT) F.POD_NET_VERDICT_VERDICT k n) F.POD_NET_SEQ_SEQ k q := by
  obtain ⟨w, hw⟩ : ∃ w, w = bump { s with podRuns := [] } F.POD_RUNS_OK_COUNT := ⟨_, rfl⟩
  have hwt : Touches [F.POD_RUNS_OK_COUNT] s w := by
    rw [hw]
    exact (Touches.of_regs (by rfl)).wr F.POD_RUNS_OK_COUNT 0 _ (by simp)
  have ht : Touches [F.POD_RUNS_OK_COUNT, F.POD_NET_VERDICT_VERDICT, F.POD_NET_SEQ_SEQ] s
      (wr (wr w F.POD_NET_VERDICT_VERDICT k n) F.POD_NET_SEQ_SEQ k q) :=
    ((hwt.mono (by simp)).wr _ _ _ (by simp)).wr _ _ _ (by simp)
  have hoff' : VdtOff { s with podRuns := [] } := hoff.touches (fs := []) (.of_regs rfl) (by simp)
  unfold endRun runEffects
  rw [hregion, if_neg (by decide), hone, filter_one hid, runCounts_ok hoff', hverdict, hseq, hk, ← hw]
  dsimp only
  rw [if_pos rfl]
  unfold netVerdict
  dsimp only
  rw [podProducers_of_none (hoff.touches ht (by decide)) k 0, if_neg]
  have hgate' : gateOn (wr (wr w F.POD_NET_VERDICT_VERDICT k n) F.POD_NET_SEQ_SEQ k q) k = false :=
    (isSet_congr (ht F.POD_GATE_CFG_EN k (by decide))).trans hgate
  rw [hgate']
  decide

/-- The record of the first run that failed. -/
def errRecorded (s : State) (r : PodRun) (code : Nat) : State :=
  if rd s F.POD_RUN_ERR_CODE == 0 then
    wr (wr (wr s F.POD_RUN_ERR_CODE 0 code) F.POD_RUN_ERR_LAYER 0 r.layer) F.POD_RUN_ERR_LAYER_ID 0 r.layerId
  else s

/-- A run that a failed check ends is counted, recorded and reported (R375, R380). -/
theorem runCounts_check (hoff : VdtOff s) (r : PodRun) :
    runCounts s r 1 true = podEvt (errRecorded (bump s F.POD_RUNS_ERR_COUNT) r 1) 0 := by
  have ht : Touches [F.POD_RUNS_ERR_COUNT, F.POD_RUN_ERR_CODE, F.POD_RUN_ERR_LAYER, F.POD_RUN_ERR_LAYER_ID, F.POD_EVT_EVT] s
      (podEvt (errRecorded (bump s F.POD_RUNS_ERR_COUNT) r 1) 0) := by
    have h : Touches [F.POD_RUNS_ERR_COUNT, F.POD_RUN_ERR_CODE, F.POD_RUN_ERR_LAYER, F.POD_RUN_ERR_LAYER_ID, F.POD_EVT_EVT] s
        (bump s F.POD_RUNS_ERR_COUNT) := Touches.refl.wr _ _ _ (by simp)
    refine Touches.wr (Touches.ite ?_ h) F.POD_EVT_EVT 0 _ (by simp)
    exact ((h.wr _ _ _ (by simp)).wr _ _ _ (by simp)).wr _ _ _ (by simp)
  exact podProducers_of_none (hoff.touches ht (by decide)) r.stream 3

/-- A run outside a region, without a verdict, ends OK: it is counted, and gone. -/
theorem endRun_ok {x : PodRun} (hone : s.podRuns = [x]) (hid : x.id = r.id) (hoff : VdtOff s) (hregion : r.region = none)
    (hverdict : r.verdict = none) : endRun s r 0 = bump { s with podRuns := [] } F.POD_RUNS_OK_COUNT := by
  have hoff' : VdtOff { s with podRuns := [] } := hoff.touches (fs := []) (.of_regs rfl) (by simp)
  unfold endRun runEffects
  rw [hregion, if_neg (by decide), hone, filter_one hid, runCounts_ok hoff', hverdict]
  cases r.seq <;> rfl

/-- A run outside a region, of a stream without a gate, that a failed check ends. -/
theorem endRun_check {x : PodRun} (hone : s.podRuns = [x]) (hid : x.id = r.id) (hoff : VdtOff s) (hregion : r.region = none)
    (hgate : gateOn s r.stream = false) :
    endRun s r 1 = podEvt (errRecorded (bump { s with podRuns := [] } F.POD_RUNS_ERR_COUNT) r 1) 0 := by
  have hoff' : VdtOff { s with podRuns := [] } := hoff.touches (fs := []) (.of_regs rfl) (by simp)
  have hgate' : gateOn (podEvt (errRecorded (bump { s with podRuns := [] } F.POD_RUNS_ERR_COUNT) r 1) 0) r.stream = false := by
    refine (isSet_congr ?_).trans hgate
    unfold podEvt errRecorded
    split <;> simp (disch := decide) only [setBit_eq, bump_eq, rd_wr_field] <;> rfl
  unfold endRun runEffects
  rw [hregion, if_neg (by decide), hone, filter_one hid, runCounts_check hoff']
  dsimp only
  rw [hgate']
  cases r.seq <;> rfl

/-! ### Records (R374, R375) -/

/-- The run with the record at its place read. -/
def withRecord (s : State) (r : PodRun) : PodRun :=
  { r with record := spmBytes s (r.list + 64 * r.layer) 64
           layerId := (Layer.parse (spmBytes s (r.list + 64 * r.layer) 64)).layerId }

/-- The next record of a run that is alone is read. -/
theorem startLayer_one (hone : s.podRuns = [r]) (hended : r.ended = none) (hroom : r.list + 64 * r.layer + 64 ≤ 0x800000) :
    startLayer s r.id = (
      let l := Layer.parse (spmBytes s (r.list + 64 * r.layer) 64)
      if !l.checkOk then endRun s (withRecord s r) 1
      else if l.kind = kEND then endRun s (withRecord s r) 0
      else if layerCheck s (withRecord s r) (r.seq.getD 0) l = 0 then setRun s r.id fun _ => withRecord s r
      else endRun s (withRecord s r) (layerCheck s (withRecord s r) (r.seq.getD 0) l)) := by
  unfold startLayer
  rw [podRun_one hone hended]
  dsimp only
  rw [if_neg (by omega)]
  rfl

/-- A run that is alone and whose next record is END is over. -/
theorem startLayer_end (hone : s.podRuns = [r]) (hended : r.ended = none) (hroom : r.list + 64 * r.layer + 64 ≤ 0x800000)
    (hcheck : (Layer.parse (spmBytes s (r.list + 64 * r.layer) 64)).checkOk = true)
    (hkind : (Layer.parse (spmBytes s (r.list + 64 * r.layer) 64)).kind = kEND) : ∃ x : PodRun, x.id = r.id ∧ x.region = r.region
      ∧ x.seq = r.seq ∧ x.stream = r.stream ∧ x.verdict = r.verdict ∧ startLayer s r.id = endRun s x 0 := by
  refine ⟨withRecord s r, rfl, rfl, rfl, rfl, rfl, ?_⟩
  rw [startLayer_one hone hended hroom]
  dsimp only
  rw [hcheck, Bool.not_true, if_neg Bool.false_ne_true, if_pos hkind]

theorem spmBytes_congr (hspm : t.spm = s.spm) (hlost : t.memLost = s.memLost) (a n : Nat) : spmBytes t a n = spmBytes s a n := by
  unfold spmBytes ramBytes ramByte memBack
  rw [hspm, hlost]

/-! ### The first record (R379) -/

/-- The run has begun, and the local memories of its pods are its own. -/
def RunBegun (s : State) (r : PodRun) (t : State) : Prop :=
  t = { s with podRuns := [{ r with begun := true }], lsram := t.lsram, lsramUsed := t.lsramUsed }

theorem runBegin_one (hone : s.podRuns = [r]) (hcan : canBegin s r = true) :
    ∃ u, RunBegun s r u ∧ runBegin s r.id = startLayer u r.id := by
  have hparts := hcan
  unfold canBegin at hparts
  simp only [Bool.and_eq_true, Bool.not_eq_true', beq_iff_eq] at hparts
  obtain ⟨⟨⟨hbegun, hended⟩, hready⟩, -⟩ := hparts
  have hended : r.ended = none := Option.isNone_iff_eq_none.mp hended
  have hsweep : sweepInputs s = s := by
    unfold sweepInputs endRuns
    rw [hone, List.map_singleton, List.foldl_cons, List.foldl_nil, podRun_one hone hended]
    exact if_neg (by dsimp only; rw [hready, hbegun]; decide)
  have hfold : ∀ (l : List Nat) (v : State), RunBegun s r v →
      RunBegun s r (l.foldl (fun (s : State) k =>
        { s with lsram := sfilter (fun a => a / 0x200000 ≠ k) s.lsram, lsramUsed := sset s.lsramUsed false k true }) v) :=
    fun l v hv => List.foldlRecOn (motive := fun v => RunBegun s r v) l _ hv fun v hv k _ => by
      unfold RunBegun at *
      rw [hv]
  refine ⟨_, hfold (podsOf r.mask) (setRun s r.id fun x => { x with begun := true }) ?_, ?_⟩
  · rw [setRun_one hone]
    rfl
  · unfold runBegin
    dsimp only
    rw [hsweep, hone, List.find?_singleton, hcan, if_pos rfl]
    dsimp only
    rw [if_neg (not_not.mpr rfl)]

theorem RunBegun.podRuns (h : RunBegun s r u) : u.podRuns = [{ r with begun := true }] := by
  have e := congrArg State.podRuns h
  exact e

theorem RunBegun.regs (h : RunBegun s r u) : u.regs = s.regs := by
  have e := congrArg State.regs h
  exact e

/-- The checks of a record do not ask what a begun run has changed. -/
theorem layerCheck_begun (h : RunBegun s r u) (q : Nat) (l : Layer) : layerCheck u (withRecord u { r with begun := true }) q l
    = layerCheck s r q l := by
  have hview (a : List (Nat × Nat)) (b : List (Nat × Bool)) (bs : List Nat) (n : Nat) :
      layerCheck { s with podRuns := [{ r with begun := true }], lsram := a, lsramUsed := b }
        { r with begun := true, record := bs, layerId := n } q l = layerCheck s r q l := rfl
  unfold withRecord
  generalize spmBytes u _ 64 = bs
  rw [h]
  exact hview u.lsram u.lsramUsed bs _

section
variable (hworks : blockWorks s 14 = true) (hoff : VdtOff s) (hone : s.podRuns = [r]) (hregion : r.region = none)
  (hverdict : r.verdict = none) (hgate : gateOn s r.stream = false) (hcan : canBegin s r = true) (hlayer : r.layer = 0)
  (hroom : r.list + 64 ≤ 0x800000)
include hone hcan hlayer hroom

/-- The first record of the run is read. -/
theorem runBegin_reads : ∃ u, RunBegun s r u ∧ withRecord u { r with begun := true }
      = { r with begun := true, record := spmBytes s r.list 64, layerId := (Layer.parse (spmBytes s r.list 64)).layerId }
    ∧ runBegin s r.id = (
      let l := Layer.parse (spmBytes s r.list 64)
      if !l.checkOk then endRun u (withRecord u { r with begun := true }) 1
      else if l.kind = kEND then endRun u (withRecord u { r with begun := true }) 0
      else if layerCheck s r (r.seq.getD 0) l = 0 then setRun u r.id fun _ => withRecord u { r with begun := true }
      else endRun u (withRecord u { r with begun := true }) (layerCheck s r (r.seq.getD 0) l)) := by
  obtain ⟨u, hu, hrun⟩ := runBegin_one hone hcan
  have hended : r.ended = none := by
    unfold canBegin at hcan
    simp only [Bool.and_eq_true] at hcan
    exact Option.isNone_iff_eq_none.mp hcan.1.1.2
  have hspm : spmBytes u (r.list + 64 * r.layer) 64 = spmBytes s r.list 64 := by
    rw [hlayer]
    refine spmBytes_congr ?_ ?_ _ _ <;> rw [hu]
  refine ⟨u, hu, ?_, ?_⟩
  · unfold withRecord
    dsimp only
    rw [hspm]
  · have h := startLayer_one (r := { r with begun := true }) hu.podRuns hended (by dsimp only; omega)
    rw [hrun]
    refine h.trans ?_
    dsimp only
    rw [hspm, layerCheck_begun hu]

include hworks in
/-- A record whose CHECK fails ends the run (R375). -/
theorem answers_badRecord (hoff : VdtOff s) (hregion : r.region = none) (hgate : gateOn s r.stream = false)
    (hcheck : (Layer.parse (spmBytes s r.list 64)).checkOk = false) : Answers (exec (.podRunBegin r.id) s) fun t =>
      rd t F.POD_RUNS_ERR_COUNT = min (rd s F.POD_RUNS_ERR_COUNT + 1) (2 ^ F.POD_RUNS_ERR_COUNT.width - 1)
      ∧ hasBit t F.POD_EVT_EVT 0 0 = true ∧ t.podRuns = []
      ∧ (rd s F.POD_RUN_ERR_CODE = 0 → rd t F.POD_RUN_ERR_CODE = 1 ∧ rd t F.POD_RUN_ERR_LAYER = 0)
      ∧ Keeps [(F.POD_RUNS_ERR_COUNT, 0), (F.POD_EVT_EVT, 0), (F.POD_RUN_ERR_CODE, 0), (F.POD_RUN_ERR_LAYER, 0),
          (F.POD_RUN_ERR_LAYER_ID, 0)] s t := by
  obtain ⟨u, hu, hrec, hread⟩ := runBegin_reads hone hcan hlayer hroom
  have hrd (f : Field) (i : Nat) : rd u f i = rd s f i := rd_congr hu.regs f i
  obtain ⟨x, hx⟩ : ∃ x, x = withRecord u { r with begun := true } := ⟨_, rfl⟩
  obtain ⟨a, ha⟩ : ∃ a, a = bump { u with podRuns := [] } F.POD_RUNS_ERR_COUNT := ⟨_, rfl⟩
  have hak : Keeps [(F.POD_RUNS_ERR_COUNT, 0)] s a := by
    rw [ha]
    exact ((Keeps.refl _ s).of_regs hu.regs).wr F.POD_RUNS_ERR_COUNT 0 _ (by simp)
  have hacount : rd a F.POD_RUNS_ERR_COUNT = min (rd s F.POD_RUNS_ERR_COUNT + 1) (2 ^ F.POD_RUNS_ERR_COUNT.width - 1) := by
    rw [ha, rd_bump, ← hrd]
    rfl
  have hacode : rd a F.POD_RUN_ERR_CODE = rd s F.POD_RUN_ERR_CODE := hak _ _ (by decide)
  have hrun : runBegin s r.id = podEvt (errRecorded a x 1) 0 := by
    rw [hread]
    dsimp only
    rw [hcheck, Bool.not_false, if_pos rfl, ha, hx]
    refine endRun_check hu.podRuns rfl (hoff.touches (fs := []) (.of_regs hu.regs) (by simp)) ?_ ?_
    · rw [hrec]
      exact hregion
    · rw [hrec]
      exact (isSet_congr (hrd _ _)).trans hgate
  have hxlayer : x.layer = 0 := by rw [hx, hrec]; exact hlayer
  refine answers_inBlock (f := fun s => runBegin s r.id) hworks fun t ht => ?_
  rw [hrun] at ht
  have htrd (f : Field) (hf : F.POD_EVT_EVT.fid % 1024 ≠ f.fid % 1024) : rd t f = rd (errRecorded a x 1) f :=
    (ht.rd f 0).trans (rd_wr_field _ _ _ _ _ _ hf)
  refine ⟨?_, ?_, ?_, fun h0 => ⟨?_, ?_⟩, ht.keeps (Keeps.wr ?_ F.POD_EVT_EVT 0 _ (by simp))⟩
  · rw [htrd _ (by decide), ← hacount]
    unfold errRecorded
    split
    · simp (disch := decide) only [rd_wr_field]
    · rfl
  · rw [ht.hasBit]
    exact hasBit_setBit _ F.POD_EVT_EVT 0 0 (by decide)
  · rw [ht.podRuns]
    have h : (errRecorded a x 1).podRuns = a.podRuns := by
      unfold errRecorded
      split <;> rfl
    exact h.trans (by rw [ha]; rfl)
  · rw [htrd _ (by decide), errRecorded, hacode, h0, if_pos (by decide)]
    simp (disch := decide) only [rd_wr_field, rd_wr_same]
    rfl
  · rw [htrd _ (by decide), errRecorded, hacode, h0, if_pos (by decide), hxlayer]
    simp (disch := decide) only [rd_wr_field, rd_wr_same]
    rfl
  · unfold errRecorded
    split
    · exact (((hak.mono (by simp)).wr _ _ _ (by simp)).wr _ _ _ (by simp)).wr _ _ _ (by simp)
    · exact hak.mono (by simp)

include hworks in
/-- An END record ends the run OK (R374). -/
theorem answers_endRecord (hoff : VdtOff s) (hregion : r.region = none) (hverdict : r.verdict = none)
    (hcheck : (Layer.parse (spmBytes s r.list 64)).checkOk = true) (hkind : (Layer.parse (spmBytes s r.list 64)).kind = kEND) :
    Answers (exec (.podRunBegin r.id) s) fun t =>
      rd t F.POD_RUNS_OK_COUNT = min (rd s F.POD_RUNS_OK_COUNT + 1) (2 ^ F.POD_RUNS_OK_COUNT.width - 1)
      ∧ t.podRuns = [] ∧ Keeps [(F.POD_RUNS_OK_COUNT, 0)] s t := by
  obtain ⟨u, hu, hrec, hread⟩ := runBegin_reads hone hcan hlayer hroom
  have hrd (f : Field) (i : Nat) : rd u f i = rd s f i := rd_congr hu.regs f i
  have hrun : runBegin s r.id = bump { u with podRuns := [] } F.POD_RUNS_OK_COUNT := by
    rw [hread]
    dsimp only
    rw [hcheck, Bool.not_true, if_neg Bool.false_ne_true, if_pos hkind]
    refine endRun_ok hu.podRuns rfl (hoff.touches (fs := []) (.of_regs hu.regs) (by simp)) ?_ ?_
    · rw [hrec]
      exact hregion
    · rw [hrec]
      exact hverdict
  refine answers_inBlock (f := fun s => runBegin s r.id) hworks fun t ht => ?_
  rw [hrun] at ht
  refine ⟨?_, ht.podRuns, ht.keeps ?_⟩
  · rw [ht.rd, rd_bump, ← hrd]
    rfl
  · exact ((Keeps.refl _ s).of_regs hu.regs).wr F.POD_RUNS_OK_COUNT 0 _ (by simp)

include hworks in
/-- A record that passes its checks is the run's layer. -/
theorem answers_layerRecord (hcheck : (Layer.parse (spmBytes s r.list 64)).checkOk = true)
    (hkind : (Layer.parse (spmBytes s r.list 64)).kind ≠ kEND)
    (hpass : layerCheck s r (r.seq.getD 0) (Layer.parse (spmBytes s r.list 64)) = 0) : Answers (exec (.podRunBegin r.id) s) fun t =>
      t.podRuns = [{ r with begun := true, record := spmBytes s r.list 64, layerId := (Layer.parse (spmBytes s r.list 64)).layerId }]
      ∧ Keeps [] s t := by
  obtain ⟨u, hu, hrec, hread⟩ := runBegin_reads hone hcan hlayer hroom
  have hrun : runBegin s r.id = { u with podRuns := [withRecord u { r with begun := true }] } := by
    rw [hread]
    dsimp only
    rw [hcheck, Bool.not_true, if_neg Bool.false_ne_true, if_neg hkind, if_pos hpass]
    exact setRun_one (r := { r with begun := true }) hu.podRuns fun _ => withRecord u { r with begun := true }
  refine answers_inBlock (f := fun s => runBegin s r.id) hworks fun t ht => ?_
  rw [hrun] at ht
  refine ⟨by rw [ht.podRuns, hrec], ht.keeps ?_⟩
  exact (Keeps.refl _ s).of_regs hu.regs

end

/-! ### Submission (R377, R395) -/

/-- The words of a submission are in order, and it is for the next frame. -/
def Formed (s : State) : Prop :=
  rd s F.POD_SUB_LIST_VALUE % 64 = 0 ∧ rd s F.POD_SUB_LIST_VALUE < 0x800000 ∧ rd s F.POD_SUB_RUN_VALUE / 2 ^ 8 % 2 ^ 3 ≤ 4
  ∧ rd s F.POD_SUB_RUN_VALUE / 2 ^ 11 % 2 ^ 5 = 0 ∧ rd s F.POD_SUB_RUN_VALUE < 0x400000 ∧ rd s F.POD_SUB_SEQ_VALUE = 2 ^ 64 - 1

/-- What a submission answers from the POD_SUB registers. -/
def submitted (s : State) (mid : Nat) : Answer × State :=
  submitRun s mid (rd s F.POD_SUB_LIST_VALUE) (rd s F.POD_SUB_RUN_VALUE) (rd s F.POD_SUB_SEQ_VALUE) none

theorem podSubGo_answers (hworks : blockWorks s 14 = true) (mid : Nat) : podSubGo s mid
    = wr (wr (submitted s mid).2 F.POD_SUB_RES_STATUS 0 (submitted s mid).1.status) F.POD_SUB_RES_ID 0 (submitted s mid).1.id := by
  unfold podSubGo
  rw [domUp_of_blockWorks hworks rfl]
  rfl

/-- A submission that is refused answers its STATUS alone. -/
theorem answers_refusedSub {mid st : Nat} (hworks : blockWorks s 14 = true) (hst : st < 2 ^ 8)
    (hsub : submitted s mid = (.of st, s)) : Answers (exec (.podSubGo mid) s) fun t =>
      rd t F.POD_SUB_RES_STATUS = st ∧ rd t F.POD_SUB_RES_ID = 0
      ∧ Changes [(F.POD_SUB_RES_STATUS, 0), (F.POD_SUB_RES_ID, 0)] s t := by
  refine answers_inBlock (f := fun s => podSubGo s mid) hworks fun t ht => ?_
  rw [podSubGo_answers hworks, hsub] at ht
  refine ⟨?_, ?_, ht.changes (((Keeps.refl _ s).wr _ _ _ (by simp)).wr _ _ _ (by simp)) (((RegsOnly.refl s).wr _ _ _).wr _ _ _)⟩
  · rw [ht.rd, rd_wr_ne _ _ _ _ _ _ (by decide), rd_wr_same]
    exact Nat.mod_eq_of_lt hst
  · rw [ht.rd, rd_wr_same]
    rfl

theorem submitted_noPods {mid : Nat} (hmask : rd s F.POD_SUB_RUN_VALUE % 256 = 0) : submitted s mid = (.of stRANGE, s) := by
  unfold submitted submitRun
  dsimp only
  rw [if_pos (by simp [hmask])]

/-- The run that a submission for the next frame adds (R377). -/
def submittedRun (s : State) (mid : Nat) : PodRun :=
  { id := s.podNextId, list := rd s F.POD_SUB_LIST_VALUE, mask := rd s F.POD_SUB_RUN_VALUE % 256,
    input := bitsOf (rd s F.POD_SUB_RUN_VALUE) 8 3, stream := bitsOf (rd s F.POD_SUB_RUN_VALUE) 16 6, seq := none, mid := mid,
    region := none, begun := false, layer := 0, record := [], layerId := 0, layout := none, loc := none, verdict := none,
    wrote := [], ended := none }

theorem submitted_formed {mid : Nat} (hf : Formed s) (hmask : rd s F.POD_SUB_RUN_VALUE % 256 ≠ 0) : submitted s mid
    = (if !domUp s 20 || (podsOf (rd s F.POD_SUB_RUN_VALUE % 256)).any fun k => !domUp s (podDomain k) then (.of stABSENT, s)
      else if 16 ≤ podWaiting s then (.of stFULL, s)
      else (⟨stOK, false, false, s.podNextId⟩, sweepInputs { s with
        podRuns := s.podRuns ++ [submittedRun s mid], podNextId := (s.podNextId + 1) % 65536 })) := by
  obtain ⟨halign, hlist, hin, hzero, hrun, hseq⟩ := hf
  unfold submitted submitRun
  dsimp only
  rw [if_neg (by
    unfold bitsOf
    rintro (h | h | h | h | h | h | h)
    · exact h halign
    · omega
    · exact hmask h
    · omega
    · exact h hzero
    · omega
    · exact h.1 hseq), if_pos hseq]
  rfl

/-- A run for the next frame waits for it. -/
theorem sweepInputs_waits (hone : s.podRuns = [r]) (hseq : r.seq = none) : sweepInputs s = s := by
  have hwaits : podInput s r = .waits := by
    unfold podInput
    rw [hseq]
  unfold sweepInputs endRuns
  rw [hone, List.map_singleton, List.foldl_cons, List.foldl_nil]
  split
  · rename_i x hx
    obtain rfl : x = r := by
      unfold podRun at hx
      rw [hone] at hx
      exact List.mem_singleton.mp (List.mem_of_find?_eq_some hx)
    exact if_neg (by dsimp only; rw [hwaits]; simp)
  · rfl

theorem submitted_absent {mid : Nat} (hf : Formed s) (hmask : rd s F.POD_SUB_RUN_VALUE % 256 ≠ 0) (hd20 : domUp s 20 = false) :
    submitted s mid = (.of stABSENT, s) := by
  rw [submitted_formed hf hmask, hd20]
  rfl

theorem answers_submits {mid : Nat} (hworks : blockWorks s 14 = true) (hf : Formed s)
    (hmask : rd s F.POD_SUB_RUN_VALUE % 256 ≠ 0) (hd20 : domUp s 20 = true)
    (hpods : ∀ k ∈ podsOf (rd s F.POD_SUB_RUN_VALUE % 256), domUp s (podDomain k) = true) (hnone : s.podRuns = []) :
    Answers (exec (.podSubGo mid) s) fun t =>
      rd t F.POD_SUB_RES_STATUS = stOK ∧ rd t F.POD_SUB_RES_ID = s.podNextId % 2 ^ 16
      ∧ t.podNextId = (s.podNextId + 1) % 2 ^ 16
      ∧ (∃ r, t.podRuns = [r] ∧ r.id = s.podNextId ∧ r.list = rd s F.POD_SUB_LIST_VALUE ∧ r.mask = rd s F.POD_SUB_RUN_VALUE % 256
        ∧ r.input = rd s F.POD_SUB_RUN_VALUE / 2 ^ 8 % 2 ^ 3 ∧ r.stream = rd s F.POD_SUB_RUN_VALUE / 2 ^ 16 % 2 ^ 6 ∧ r.seq = none
        ∧ r.mid = mid ∧ r.begun = false)
      ∧ Keeps [(F.POD_SUB_RES_STATUS, 0), (F.POD_SUB_RES_ID, 0)] s t := by
  have hup : ((podsOf (rd s F.POD_SUB_RUN_VALUE % 256)).any fun k => !domUp s (podDomain k)) = false :=
    List.any_eq_false.mpr fun k hk => by rw [hpods k hk]; decide
  have hwaiting : ¬ 16 ≤ podWaiting s := by
    unfold podWaiting
    rw [hnone]
    decide
  obtain ⟨r, hr, hsub⟩ : ∃ r : PodRun, (r.id = s.podNextId ∧ r.list = rd s F.POD_SUB_LIST_VALUE ∧ r.mask = rd s F.POD_SUB_RUN_VALUE % 256
      ∧ r.input = rd s F.POD_SUB_RUN_VALUE / 2 ^ 8 % 2 ^ 3 ∧ r.stream = rd s F.POD_SUB_RUN_VALUE / 2 ^ 16 % 2 ^ 6 ∧ r.seq = none
      ∧ r.mid = mid ∧ r.begun = false) ∧ submitted s mid
        = (⟨stOK, false, false, s.podNextId⟩, { s with podRuns := [r], podNextId := (s.podNextId + 1) % 65536 }) := by
    refine ⟨submittedRun s mid, ⟨rfl, rfl, rfl, rfl, rfl, rfl, rfl, rfl⟩, ?_⟩
    rw [submitted_formed hf hmask, hd20, hup, if_neg (by decide), if_neg hwaiting, hnone, List.nil_append]
    exact congrArg (Prod.mk _) (sweepInputs_waits rfl rfl)
  refine answers_inBlock (f := fun s => podSubGo s mid) hworks fun t ht => ?_
  rw [podSubGo_answers hworks, hsub] at ht
  refine ⟨?_, ?_, ht.podNextId, ⟨r, ht.podRuns, hr⟩, ht.keeps ?_⟩
  · rw [ht.rd, rd_wr_ne _ _ _ _ _ _ (by decide), rd_wr_same]
    rfl
  · rw [ht.rd, rd_wr_same]
    rfl
  · exact (((Keeps.refl _ s).of_regs rfl).wr _ _ _ (by simp)).wr _ _ _ (by simp)

/-! ### The end of a layer (R357 to R376, R381) -/

/-- The registers that the work of a layer may change. -/
def layerFields : List Field := F.POD_ACC_SAT_COUNT :: F.POD_OUT_SAT_COUNT :: memLogFields

/-- What the work of a layer changes besides its run: counters and logs, and the free values it takes. -/
structure LayerWork (s t : State) : Prop where
  touches : Touches layerFields s t
  rest : t = { s with regs := t.regs, freeCtr := t.freeCtr }

theorem LayerWork.refl (s : State) : LayerWork s s := ⟨.refl, rfl⟩

theorem LayerWork.trans (h : LayerWork s t) (h' : LayerWork t u) : LayerWork s u := by
  refine ⟨h.touches.trans h'.touches, ?_⟩
  have e := h.rest
  have e' := h'.rest
  rw [e', e]

theorem LayerWork.wr (h : LayerWork s t) (f : Field) (i x : Nat) (hf : f ∈ layerFields) : LayerWork s (wr t f i x) :=
  h.trans ⟨Touches.refl.wr f i x hf, rfl⟩

theorem LayerWork.of_logs (h : MemLogs s t) (hlp : t.lp5x = s.lp5x) : LayerWork s t := by
  refine ⟨h.touches.mono fun f hf => by simp [layerFields, hf], ?_⟩
  have e := h.rest
  rw [hlp] at e
  exact e

theorem LayerWork.podRuns (h : LayerWork s t) : t.podRuns = s.podRuns := by
  have e := congrArg State.podRuns h.rest
  exact e

theorem memUncorr_lp5x (s : State) (addr mid : Nat) : (memUncorr s addr mid).lp5x = s.lp5x := by
  unfold memUncorr
  dsimp only
  split <;> rfl

theorem memRead_lp5x (s : State) (mid addr n : Nat) : (memRead s mid addr n).2.lp5x = s.lp5x := by
  unfold memRead memBeyond
  split
  · rfl
  · dsimp only
    split
    · exact memUncorr_lp5x s _ mid
    · rfl

theorem memErrors_lp5x (s : State) (mid : Nat) (es : List (Nat × Nat)) : (memErrors s mid es).2.lp5x = s.lp5x := by
  unfold memErrors
  split
  · rfl
  · refine List.foldlRecOn (motive := fun (a : Bool × State) => a.2.lp5x = s.lp5x) es _ rfl fun a ha e _ => ?_
    split
    · exact ha
    · split <;> exact ha
    · exact (memUncorr_lp5x a.2 e.2 mid).trans ha
    · exact ha

theorem readSpace_work (s : State) (r : PodRun) (field n : Nat) : LayerWork s (readSpace s r field n).2 := by
  unfold readSpace
  split
  · exact .of_logs (memRead_logs s midPOD _ n) (memRead_lp5x s midPOD _ n)
  · exact .refl s
  · exact .refl s

theorem lineBytesFor_work (s : State) (l : Layer) (cs : List Nat) : LayerWork s (lineBytesFor s l cs).2 := by
  unfold lineBytesFor
  dsimp only
  split
  · exact .refl s
  · exact ⟨.of_regs rfl, rfl⟩

/-- The saturations of a layer are counted for each of its pods. -/
theorem satCounts_work (s : State) (ps : List (Nat × Nat)) (a b : Nat × Nat → Nat) : LayerWork s (ps.foldl (fun s p =>
    bumpBy (bumpBy s F.POD_ACC_SAT_COUNT p.1 (a p)) F.POD_OUT_SAT_COUNT p.1 (b p)) s) :=
  foldl_frame LayerWork.refl LayerWork.trans (fun u p =>
    ((LayerWork.refl u).wr _ _ _ (by simp [layerFields])).wr _ _ _ (by simp [layerFields])) ps s

/-- A tensor that goes to the bands of its pods changes nothing outside the run. -/
theorem writeTensor_bands (hone : s.podRuns = [r]) {l : Layer} (hout : spaceOf l.outAddr = 2) (v : Nat → Nat → Nat → Nat) :
    ∃ u loc, LayerWork s u ∧ writeTensor s r l v = { u with podRuns := [{ r with loc := loc }] } := by
  have hfold (ls : List (Nat × List Nat)) (g : List Nat × State → Nat × List Nat → List Nat)
      (h : ∀ a ln, LayerWork a.2 (lineBytesFor a.2 l ln.2).2 := fun a ln => lineBytesFor_work a.2 l ln.2) :
      LayerWork s (ls.foldl (fun a ln => (g a ln, (lineBytesFor a.2 l ln.2).2)) ([], s)).2 :=
    List.foldlRecOn (motive := fun (a : List Nat × State) => LayerWork s a.2) ls _ (.refl s) fun a ha ln _ => ha.trans (h a ln)
  unfold writeTensor
  dsimp only
  rw [if_pos hout]
  have hwork := hfold (tensorLines l.oh l.ow l.outCh l.b l.e l.outComp l.zeroCode v) fun a ln => a.1 ++ (lineBytesFor a.2 l ln.2).1
    ++ List.replicate (lineStride l.ow l.b l.e l.outComp - (lineBytesFor a.2 l ln.2).1.length) 0
  generalize List.foldl _ _ _ = w at *
  exact ⟨w.2, some ⟨addrOf l.outAddr, l.axis, l.oh, l.ow, ceilDiv l.outCh l.b, w.1⟩, hwork, setRun_one (hwork.podRuns.trans hone) _⟩

theorem verdictOf_mem (l : Layer) (p : PodPixel) : verdictOf l p ∈ [1, 2] := by
  have hite (b : Prop) [Decidable b] : (if b then 1 else 2) ∈ [1, 2] := by split <;> simp
  unfold verdictOf
  split
  · exact hite _
  · dsimp only
    split
    · exact hite _
    · have h := Nat.mod_lt (Config.podNan 2 [p.chans.headD 0, l.vparam]) (show 2 > 0 by omega)
      simp only [List.mem_cons, List.not_mem_nil, or_false]
      omega

/-- The layer of a run that is alone, no FRAME layer and one that writes the bands, is over: the next record is read. -/
theorem layerDone_next (hone : s.podRuns = [r]) (hended : r.ended = none) (hbegun : r.begun = true)
    (hkind : (Layer.parse r.record).kind ≠ kFRAME) (hout : spaceOf (Layer.parse r.record).outAddr = 2) (ecc : List (Nat × Nat)) :
    ∃ u loc layout v, LayerWork s u ∧ (if (Layer.parse r.record).verdict then ∃ n ∈ [1, 2], v = some n else v = none)
      ∧ layerDone s r.id ecc = startLayer { u with podRuns :=
          [{ r with loc := loc, layer := r.layer + 1, layout := layout, verdict := v }] } r.id := by
  obtain ⟨l, hl⟩ : ∃ l, l = Layer.parse r.record := ⟨_, rfl⟩
  rw [← hl] at hkind hout ⊢
  have hk : (l.kind == kFRAME) = false := beq_false_of_ne hkind
  have hfin (t : State) (f : Nat → Nat → Nat → Nat) (p : PodPixel) (ht : LayerWork s t) : ∃ u loc layout v, LayerWork s u
      ∧ (if l.verdict then ∃ n ∈ [1, 2], v = some n else v = none)
      ∧ startLayer (setRun (writeTensor t r l f) r.id fun r =>
          { r with layer := r.layer + 1, layout := some l.c32, verdict := if l.verdict then some (verdictOf l p) else none }) r.id
        = startLayer { u with podRuns := [{ r with loc := loc, layer := r.layer + 1, layout := layout, verdict := v }] } r.id := by
    obtain ⟨u, loc, hu, hw⟩ := writeTensor_bands (ht.podRuns.trans hone) hout f
    refine ⟨u, loc, some l.c32, if l.verdict then some (verdictOf l p) else none, ht.trans hu, ?_, ?_⟩
    · split
      · exact ⟨_, verdictOf_mem l p, rfl⟩
      · rfl
    · rw [hw]
      exact congrArg (startLayer · r.id) (setRun_one (r := { r with loc := loc }) rfl _)
  unfold layerDone
  rw [podRun_one hone hended]
  dsimp only
  rw [← hl, if_neg (by rw [hbegun]; decide), hk, Bool.false_and, if_neg (by decide), Bool.false_and, Bool.false_and,
    if_neg (by decide), if_neg hkind]
  refine hfin _ _ _ ?_
  refine LayerWork.trans ?_ (satCounts_work _ _ _ _)
  exact (LayerWork.of_logs (memErrors_logs s midPOD ecc) (memErrors_lp5x s midPOD ecc)).trans (readSpace_work _ r _ _)

section
variable (hworks : blockWorks s 14 = true) (hoff : VdtOff s) (hone : s.podRuns = [r]) (hregion : r.region = none)
  (hended : r.ended = none) (hgate : gateOn s r.stream = false) (hbegun : r.begun = true)
  (hkind : (Layer.parse r.record).kind ≠ kFRAME) (hout : spaceOf (Layer.parse r.record).outAddr = 2)
  (hroom : r.list + 64 * (r.layer + 1) + 64 ≤ 0x800000)
  (hcheck : (Layer.parse (spmBytes s (r.list + 64 * (r.layer + 1)) 64)).checkOk = true)
  (hnext : (Layer.parse (spmBytes s (r.list + 64 * (r.layer + 1)) 64)).kind = kEND)
include hone hended hbegun hkind hout hroom hcheck hnext

/-- An END record follows the layer: the run ends OK, with the verdict of the layer. -/
theorem layerDone_ends (ecc : List (Nat × Nat)) : ∃ u y x, LayerWork s u ∧ y.id = x.id ∧ x.region = r.region ∧ x.seq = r.seq
    ∧ x.stream = r.stream
    ∧ (if (Layer.parse r.record).verdict then ∃ n ∈ [1, 2], x.verdict = some n else x.verdict = none)
    ∧ layerDone s r.id ecc = endRun { u with podRuns := [y] } x 0 := by
  obtain ⟨u, loc, layout, v, hu, hv, hdone⟩ := layerDone_next hone hended hbegun hkind hout ecc
  obtain ⟨y, hy⟩ : ∃ y, y = { r with loc := loc, layer := r.layer + 1, layout := layout, verdict := v } := ⟨_, rfl⟩
  obtain ⟨w, hw⟩ : ∃ w, w = { u with podRuns := [y] } := ⟨_, rfl⟩
  have hlist : y.list = r.list := by rw [hy]
  have hlayer : y.layer = r.layer + 1 := by rw [hy]
  have hid : y.id = r.id := by rw [hy]
  have hspm : spmBytes w (y.list + 64 * y.layer) 64 = spmBytes s (r.list + 64 * (r.layer + 1)) 64 := by
    rw [hlist, hlayer]
    refine spmBytes_congr ?_ ?_ _ _
    all_goals rw [hw, hu.rest]
  obtain ⟨x, hxid, hxr, hxs, hxk, hxv, hstart⟩ := startLayer_end (s := w) (r := y) (by rw [hw]) (by rw [hy]; exact hended)
    (by rw [hlist, hlayer]; exact hroom) (by rw [hspm]; exact hcheck) (by rw [hspm]; exact hnext)
  refine ⟨u, y, x, hu, hxid.symm, hxr.trans (by rw [hy]), hxs.trans (by rw [hy]), hxk.trans (by rw [hy]), ?_, ?_⟩
  · rw [hxv, hy]
    exact hv
  · rw [hdone, ← hy, ← hw, ← hid]
    exact hstart

include hworks hoff hregion in
/-- Where the layer gives no verdict, the run is counted and gone. -/
theorem answers_lastLayer (hverdict : (Layer.parse r.record).verdict = false) (ecc : List (Nat × Nat)) :
    Answers (exec (.podLayerDone r.id ecc) s) fun t =>
      rd t F.POD_RUNS_OK_COUNT = min (rd s F.POD_RUNS_OK_COUNT + 1) (2 ^ F.POD_RUNS_OK_COUNT.width - 1)
      ∧ t.podRuns = [] ∧ t.spm = s.spm ∧ t.lp5x = s.lp5x := by
  obtain ⟨u, y, x, hu, hid, hxr, -, -, hv, hdone⟩ :=
    layerDone_ends hone hended hbegun hkind hout hroom hcheck hnext ecc
  rw [hverdict, if_neg Bool.false_ne_true] at hv
  have hrun : layerDone s r.id ecc = bump { u with podRuns := [] } F.POD_RUNS_OK_COUNT :=
    hdone.trans (endRun_ok rfl hid ((hoff.touches hu.touches (by decide)).touches (fs := []) (.of_regs rfl) (by simp))
      (hxr.trans hregion) hv)
  refine answers_inBlock (f := fun s => layerDone s r.id ecc) hworks fun t ht => ?_
  rw [hrun] at ht
  refine ⟨?_, ht.podRuns, ?_, ?_⟩
  · rw [ht.rd, rd_bump, ← hu.touches F.POD_RUNS_OK_COUNT 0 (by decide)]
    rfl
  · have e := congrArg State.spm hu.rest
    exact ht.spm.trans e
  · have e := congrArg State.lp5x hu.rest
    exact ht.lp5x.trans e

include hworks hoff hregion hgate in
/-- Where the layer gives the verdict, POD_NET holds it (R381). -/
theorem answers_verdictLayer (hverdict : (Layer.parse r.record).verdict = true) {q : Nat} (hseq : r.seq = some q)
    (ecc : List (Nat × Nat)) : Answers (exec (.podLayerDone r.id ecc) s) fun t =>
      rd t F.POD_RUNS_OK_COUNT = min (rd s F.POD_RUNS_OK_COUNT + 1) (2 ^ F.POD_RUNS_OK_COUNT.width - 1)
      ∧ t.podRuns = [] ∧ rd t F.POD_NET_VERDICT_VERDICT r.stream ∈ [1, 2] ∧ rd t F.POD_NET_SEQ_SEQ r.stream = q % 2 ^ 48 := by
  obtain ⟨u, y, x, hu, hid, hxr, hxs, hxk, hv, hdone⟩ :=
    layerDone_ends hone hended hbegun hkind hout hroom hcheck hnext ecc
  rw [hverdict, if_pos rfl] at hv
  obtain ⟨n, hn, hv⟩ := hv
  have hrun : layerDone s r.id ecc = wr (wr (bump { u with podRuns := [] } F.POD_RUNS_OK_COUNT) F.POD_NET_VERDICT_VERDICT r.stream n)
      F.POD_NET_SEQ_SEQ r.stream q :=
    hdone.trans (endRun_verdict rfl hid ((hoff.touches hu.touches (by decide)).touches (fs := []) (.of_regs rfl) (by simp))
      (hxr.trans hregion) hv (hxs.trans hseq) hxk
      ((isSet_congr (hu.touches F.POD_GATE_CFG_EN r.stream (by decide))).trans hgate))
  refine answers_inBlock (f := fun s => layerDone s r.id ecc) hworks fun t ht => ?_
  rw [hrun] at ht
  refine ⟨?_, ht.podRuns, ?_, ?_⟩
  · rw [ht.rd, rd_wr_field _ _ _ _ _ _ (by decide), rd_wr_field _ _ _ _ _ _ (by decide), rd_bump,
      ← hu.touches F.POD_RUNS_OK_COUNT 0 (by decide)]
    rfl
  · rw [ht.rd, rd_wr_field _ _ _ _ _ _ (by decide), rd_wr_same]
    exact (by decide : ∀ n ∈ [1, 2], n % 2 ^ F.POD_NET_VERDICT_VERDICT.width ∈ [1, 2]) n hn
  · rw [ht.rd, rd_wr_same]
    rfl

end

/-! ### Counters (R17) -/

theorem answers_podClrCounts {k : Nat} (hworks : blockWorks s 14 = true) (hk : k < 8) : Answers (exec (.podClrCounts k) s) fun t =>
    rd t F.POD_ACC_SAT_COUNT k = 0 ∧ rd t F.POD_OUT_SAT_COUNT k = 0
    ∧ Changes [(F.POD_ACC_SAT_COUNT, k), (F.POD_OUT_SAT_COUNT, k)] s t := by
  refine answers_onBlock (f := fun s => clearAll s [F.POD_ACC_SAT_COUNT, F.POD_OUT_SAT_COUNT] k) hk hworks fun t ht => ?_
  obtain ⟨h, hc⟩ := cleared_of_settled ht (by decide)
  exact ⟨h _ (by simp), h _ (by simp), hc⟩

theorem answers_podCcmdClrCounts (hworks : blockWorks s 14 = true) : Answers (exec .podCcmdClrCounts s) fun t =>
    (∀ f ∈ podCounters, rd t f = 0) ∧ Changes (podCounters.map fun f => (f, 0)) s t :=
  answers_inBlock (f := fun s => clearAll s podCounters 0) hworks fun _ ht => cleared_of_settled ht (by decide)

end

/-- Settles O35, clause by clause. -/
theorem podRunsBeginLayersAndEnd : Obligations.PodRunsBeginLayersAndEnd := by
  unfold Obligations.PodRunsBeginLayersAndEnd
  intro s hworks hoff cnt
  refine ⟨?_, fun r hone hregion hverdict hended hgate => ⟨?_, ?_⟩,
    fun k hk => answers_podClrCounts hworks hk, answers_podCcmdClrCounts hworks⟩
  · intro mid ra rb formed answers
    exact ⟨fun _ hmask => answers_refusedSub hworks (by decide) (submitted_noPods hmask),
      fun hf hmask hd20 => answers_refusedSub hworks (by decide) (submitted_absent hf hmask hd20),
      fun hf hmask hd20 hpods hnone => answers_submits hworks hf hmask hd20 hpods hnone⟩
  · intro hcan hlayer hroom bs l
    exact ⟨answers_badRecord hworks hone hcan hlayer hroom hoff hregion hgate,
      answers_endRecord hworks hone hcan hlayer hroom hoff hregion hverdict, answers_layerRecord hworks hone hcan hlayer hroom⟩
  · intro hbegun l next hkind hout hroom hcheck hnext ecc
    exact ⟨fun hv => answers_lastLayer hworks hoff hone hregion hended hbegun hkind hout hroom hcheck hnext hv ecc,
      fun q hv hseq => answers_verdictLayer hworks hoff hone hregion hended hgate hbegun hkind hout hroom hcheck hnext hv hseq ecc⟩

end Sys2Proof.Machine
end

section
/-! Run, halt, step, reset and wake of a core, and the hash engine (R84, R85, R99, R127, R578, R624). -/
open Sys2Proof
namespace Sys2Proof.Machine

section
variable {s t u v : State} {c : Nat}

/-! ### Changes of registers and cores -/

/-- Only registers and cores differ. -/
def CoresOnly (s t : State) : Prop := t = { s with regs := t.regs, cores := t.cores }

theorem CoresOnly.refl (s : State) : CoresOnly s s := rfl

theorem CoresOnly.wr (h : CoresOnly s u) (f : Field) (i x : Nat) : CoresOnly s (wr u f i x) := by
  unfold CoresOnly at *
  rw [h]
  rfl

theorem CoresOnly.setCore (h : CoresOnly s u) (c : Nat) (k : SqCore) : CoresOnly s (setCore u c k) := by
  unfold CoresOnly at *
  rw [h]
  rfl

theorem CoresOnly.regsOnly (h : CoresOnly s u) (h' : RegsOnly u v) : CoresOnly s v := by
  unfold CoresOnly RegsOnly at *
  rw [h', h]

theorem CoresOnly.settled (h : CoresOnly s u) (ht : Settled u t) : Settled { s with regs := t.regs, cores := t.cores } t :=
  ht.rest_of_cores h

theorem CoresOnly.domUp (h : CoresOnly s u) {fs : List Field} (ht : Touches fs s u)
    (hfs : ∀ f ∈ [F.KP_GOOD_DOMAINS, F.GLB_RST_STATUS_WARM_BUSY], ∀ g ∈ fs, g.fid % 1024 ≠ f.fid % 1024) (d : Nat) :
    domUp u d = domUp s d := by
  unfold CoresOnly at h
  have hadie : u.aDieReset = s.aDieReset := by rw [h]
  have hlane : u.laneStopped = s.laneStopped := by rw [h]
  exact congrFun (domUp_congr (ht _ 0 (hfs _ (by simp))) (ht _ 0 (hfs _ (by simp))) hadie hlane) d

theorem squashRegion_of_noRegion (h : NoRegion s c) : squashRegion s c = s := by
  unfold squashRegion
  rw [show (coreAt s c).region = none from h]

/-! ### Run (R84) -/

theorem answers_sqRun (hreach : blockReach s 15 = true) (hc : c < 8) (hst : sqState s c = sqHALTED) (hpast : (coreAt s c).past = false) :
    Answers (exec (.sqRun c) s) fun t => sqState t c = sqRUNNING ∧ Changes [(F.SQ_STATUS_STATE, c)] s t := by
  have hrun : sqRun s c = setSqState s c sqRUNNING := by
    unfold sqRun
    rw [if_pos hst, hpast, if_neg Bool.false_ne_true]
  refine answers_unitReach (f := fun s => sqRun s c) hc hreach fun t ht => ?_
  rw [hrun] at ht
  refine ⟨(ht.sqState c).trans ?_, ht.changes ((Keeps.refl _ s).wr _ _ _ (by simp)) ((RegsOnly.refl s).wr _ _ _)⟩
  exact rd_wr_same ..

/-! ### Halt (R84, R127) -/

/-- What a core that halts shows. -/
theorem sqHalted_settled (hc : CoresOnly s u) (ht : Settled (sqHalted u c) t) : sqState t c = sqHALTED
    ∧ hasBit t F.SQ_IRQ_STATUS_EVT c 0 = true ∧ (coreAt t c).stall = .none
    ∧ (∀ f i, F.SQ_STATUS_STATE.fid % 1024 ≠ f.fid % 1024 → F.SQ_IRQ_STATUS_EVT.fid % 1024 ≠ f.fid % 1024 → rd t f i = rd u f i)
    ∧ (∀ ks, Keeps ks s u → (F.SQ_STATUS_STATE, c) ∈ ks → (F.SQ_IRQ_STATUS_EVT, c) ∈ ks → Keeps ks s t)
    ∧ Settled { s with regs := t.regs, cores := t.cores } t := by
  obtain ⟨w, hw⟩ : ∃ w, w = setCore u c { coreAt u c with stall := .none, stepping := false, loadDue := none } := ⟨_, rfl⟩
  have hwr : w.regs = u.regs := by rw [hw]; rfl
  have heq : sqHalted u c = setBit (wr w F.SQ_STATUS_STATE c sqHALTED) F.SQ_IRQ_STATUS_EVT c 0 := by rw [hw]; rfl
  rw [heq] at ht
  refine ⟨?_, ?_, ?_, fun f i hs hi => ?_, fun ks hk hs hi => ?_, ?_⟩
  · rw [ht.sqState, setBit_eq]
    refine (rd_wr_field _ _ _ _ _ _ (by decide)).trans ?_
    rw [rd_wr_same]
    rfl
  · rw [ht.hasBit]
    exact hasBit_setBit _ _ _ _ (by decide)
  · rw [ht.coreAt]
    have h : coreAt w c = { coreAt u c with stall := .none, stepping := false, loadDue := none } := by
      rw [hw]
      exact coreAt_setCore_same _ _ _
    exact congrArg SqCore.stall h
  · rw [ht.rd, setBit_eq, rd_wr_field _ _ _ _ _ _ hi, rd_wr_field _ _ _ _ _ _ hs]
    exact rd_congr hwr f i
  · exact ht.keeps (((hk.of_regs hwr).wr _ _ _ hs).wr _ _ _ hi)
  · refine CoresOnly.settled (CoresOnly.wr (CoresOnly.wr ?_ F.SQ_STATUS_STATE c _) F.SQ_IRQ_STATUS_EVT c _) ht
    rw [hw]
    exact hc.setCore c _

section
variable (hreach : blockReach s 15 = true) (hc : c < 8) (hst : sqState s c = sqRUNNING ∨ sqState s c = sqWAITING)
  (hregion : NoRegion s c) (hrecipe : (coreAt s c).recipe = none)
include hreach hc hst hregion hrecipe

omit hreach hc in
theorem sqHalt_plain (hplain : ∀ m d, (coreAt s c).stall ≠ .syncSend m d) : sqHalt s c = sqHalted s c := by
  have hlive : ¬ (sqState s c = sqHALTED ∨ sqState s c = sqFAULTED) := by
    rcases hst with h | h <;> rw [h] <;> decide
  unfold sqHalt
  rw [if_neg hlive, squashRegion_of_noRegion hregion, recipeAbort_of_none hrecipe]
  dsimp only
  split
  · exact absurd ‹_› (hplain _ _)
  · rfl

/-- The SYNC send of the core has ended with TIMEOUT. -/
def sendTimedOut (s : State) (c d : Nat) : State :=
  setFlags (setV s c d (BitVec.ofNat 64 stTIMEOUT)) c { flagsOf s c with z := false }

omit hreach hc in
theorem sqHalt_sync {m d : Nat} (hstall : (coreAt s c).stall = .syncSend m d) (hpc : pcOf s c < 0x7FFC) :
    sqHalt s c = sqHalted (setPc (sendTimedOut s c d) c (pcOf s c + 4)) c := by
  have hlive : ¬ (sqState s c = sqHALTED ∨ sqState s c = sqFAULTED) := by
    rcases hst with h | h <;> rw [h] <;> decide
  have hpc' : pcOf (sendTimedOut s c d) c = pcOf s c := by
    unfold sendTimedOut
    rw [pcOf_setFlags, pcOf_setV]
  have hnext : nextPc (sendTimedOut s c d) c = setPc (sendTimedOut s c d) c (pcOf s c + 4) := by
    unfold nextPc
    rw [hpc', if_pos hpc]
  unfold sqHalt
  rw [if_neg hlive, squashRegion_of_noRegion hregion, recipeAbort_of_none hrecipe]
  dsimp only
  rw [hstall]
  exact congrArg (sqHalted · c) hnext

theorem answers_sqHalt (hplain : ∀ m d, (coreAt s c).stall ≠ .syncSend m d) : Answers (exec (.sqHalt c) s) fun t =>
    sqState t c = sqHALTED ∧ hasBit t F.SQ_IRQ_STATUS_EVT c 0 = true ∧ (coreAt t c).stall = .none
    ∧ Keeps [(F.SQ_STATUS_STATE, c), (F.SQ_IRQ_STATUS_EVT, c)] s t ∧ Settled { s with regs := t.regs, cores := t.cores } t := by
  refine answers_unitReach (f := fun s => sqHalt s c) hc hreach fun t ht => ?_
  rw [sqHalt_plain hst hregion hrecipe hplain] at ht
  obtain ⟨hstate, hirq, hstall, -, hk, hrest⟩ := sqHalted_settled (.refl s) ht
  exact ⟨hstate, hirq, hstall, hk _ (.refl _ s) (by simp) (by simp), hrest⟩

theorem answers_sqHalt_sync {m d : Nat} (hstall : (coreAt s c).stall = .syncSend m d) (hpc : pcOf s c < 0x7FFC) :
    Answers (exec (.sqHalt c) s) fun t =>
      sqState t c = sqHALTED ∧ hasBit t F.SQ_IRQ_STATUS_EVT c 0 = true ∧ (coreAt t c).stall = .none
      ∧ vreg t c d = (if d % 16 = 0 then 0 else 9) ∧ (flagsOf t c).z = false ∧ pcOf t c = pcOf s c + 4
      ∧ Keeps [(F.SQ_STATUS_STATE, c), (F.SQ_IRQ_STATUS_EVT, c), (F.SQ_VREG_VALUE, c * 16 + d % 16), (F.SQ_FLAGS_ZNCV, c),
          (F.SQ_PC_PC, c)] s t
      ∧ Settled { s with regs := t.regs, cores := t.cores } t := by
  refine answers_unitReach (f := fun s => sqHalt s c) hc hreach fun t ht => ?_
  rw [sqHalt_sync hst hregion hrecipe hstall hpc] at ht
  have hregs : RegsOnly s (sendTimedOut s c d) := ((RegsOnly.refl s).setV c d _).setFlags c _
  have hpc' : pcOf (sendTimedOut s c d) c = pcOf s c := by
    unfold sendTimedOut
    rw [pcOf_setFlags, pcOf_setV]
  obtain ⟨hstate, hirq, hst', hrd, hk, hrest⟩ := sqHalted_settled ((CoresOnly.refl s).regsOnly (hregs.setPc c _)) ht
  refine ⟨hstate, hirq, hst', ?_, ?_, ?_, hk _ ?_ (by simp) (by simp), hrest⟩
  · have h : vreg t c d = vreg (setPc (sendTimedOut s c d) c (pcOf s c + 4)) c d := by
      unfold vreg
      rw [hrd _ _ (by decide) (by decide)]
    rw [h, vreg_setPc, sendTimedOut, vreg_setFlags, vreg_setV]
    rfl
  · have h : flagsOf t c = flagsOf (setPc (sendTimedOut s c d) c (pcOf s c + 4)) c :=
      congrArg ZNCV.ofNat (hrd _ _ (by decide) (by decide))
    rw [h, flagsOf_setPc, sendTimedOut, flagsOf_setFlags]
  · have h : pcOf t c = pcOf (setPc (sendTimedOut s c d) c (pcOf s c + 4)) c := congrArg (4 * ·) (hrd _ _ (by decide) (by decide))
    rw [h, ← hpc']
    exact pcOf_setPc_next (by rw [hpc']; exact hpc)
  · exact (((Keeps.refl _ s).setV c d _ (by simp)).setFlags c _ (by simp)).setPc c _ (by simp)

end

/-! ### Single steps (R624) -/

/-- The core takes the one instruction at its pc. -/
def stepped (s : State) (c : Nat) : State := setSqState (setCore s c { coreAt s c with stepping := true }) c sqRUNNING

theorem coreAt_stepped (s : State) (c : Nat) : coreAt (stepped s c) c = { coreAt s c with stepping := true } :=
  coreAt_setCore_same s c _

theorem rd_stepped {f : Field} (hf : F.SQ_STATUS_STATE.fid % 1024 ≠ f.fid % 1024) (i : Nat) : rd (stepped s c) f i = rd s f i :=
  (rd_wr_field _ _ _ _ _ _ hf).trans (rd_congr rfl f i)

theorem stepped_touches (s : State) (c : Nat) : Touches [F.SQ_STATUS_STATE] s (stepped s c) :=
  (Touches.of_regs (by rfl)).wr F.SQ_STATUS_STATE c _ (by simp)

theorem stepped_coresOnly (s : State) (c : Nat) : CoresOnly s (stepped s c) := ((CoresOnly.refl s).setCore c _).wr ..

theorem sqState_stepped (s : State) (c : Nat) : sqState (stepped s c) c = sqRUNNING := rd_wr_same ..

theorem canIssue_stepped (hworks : blockWorks s 15 = true) (hstall : (coreAt s c).stall = .none) : canIssue (stepped s c) c = true := by
  have hdom : domUp (stepped s c) = domUp s :=
    funext ((stepped_coresOnly s c).domUp (stepped_touches s c) (by decide))
  have hw : blockWorks (stepped s c) 15 = true := by
    rw [← hworks]
    unfold blockWorks blkBusy
    rw [hdom, rd_stepped (by decide)]
  unfold canIssue
  rw [hw, sqState_stepped, coreAt_stepped, hstall]
  rfl

/-- A step fetches the word at the pc of the core. -/
theorem fetchWord_stepped (s : State) (c : Nat) : fetchWord (stepped s c) c = fetchWord s c := by
  have hrom (k : Nat) : (coreAt (stepped s c) k).rom = (coreAt s k).rom := by
    by_cases h : k = c
    · rw [h, coreAt_stepped]
    · have e : coreAt (stepped s c) k = coreAt s k := coreAt_setCore_ne s _ h
      rw [e]
  have hbyte (a : Nat) : progByte (stepped s c) a = progByte s a := by
    have hprog : (stepped s c).prog = s.prog := rfl
    have hlost : (stepped s c).memLost = s.memLost := rfl
    unfold progByte progRest memBack
    rw [hrom, hprog, hlost]
  unfold fetchWord pcOf
  rw [rd_stepped (by decide), funext hbyte]

section
variable (hreach : blockReach s 15 = true) (hc : c < 8) (hst : sqState s c = sqHALTED) (hpast : (coreAt s c).past = false)
  (hstall : (coreAt s c).stall = .none) (hworks : blockWorks s 15 = true)
include hreach hc hst hpast hstall hworks

/-- STEP of a HALTED core has the effect of the instruction at its pc. -/
theorem answers_sqStep {i : Instr} {P : State → Prop} (hdec : tsxDecode c (fetchWord s c) = some i)
    (h : ∀ t, Settled (stepEnd (tsxEffect i (stepped s c)) c) t → P t) : Answers (exec (.sqStep c) s) P := by
  have hstep : sqStep s c = runWord (stepped s c) c := by
    unfold sqStep
    rw [if_neg (by rw [hpast]; simp), if_pos hst]
    rfl
  have hrun : runWord (stepped s c) c = stepEnd (tsxEffect i (stepped s c)) c := by
    unfold runWord
    rw [fetchWord_stepped, hdec]
    exact if_pos (canIssue_stepped hworks hstall)
  refine answers_unitReach (f := fun s => sqStep s c) hc hreach fun t ht => h t ?_
  rwa [hstep, hrun] at ht

/-- After a mov the core is HALTED again. -/
theorem answers_sqStep_mov {d imm20 : Nat} (hdec : tsxDecode c (fetchWord s c) = some (.mov c d imm20)) (hpc : pcOf s c < 0x7FFC) :
    Answers (exec (.sqStep c) s) fun t =>
      sqState t c = sqHALTED ∧ (coreAt t c).stepping = false ∧ pcOf t c = pcOf s c + 4
      ∧ vreg t c d = (if d % 16 = 0 then 0 else sext 20 imm20)
      ∧ Keeps [(F.SQ_STATUS_STATE, c), (F.SQ_PC_PC, c), (F.SQ_VREG_VALUE, c * 16 + d % 16)] s t := by
  have hpc0 : pcOf (stepped s c) c = pcOf s c := congrArg (4 * ·) (rd_stepped (by decide) c)
  obtain ⟨u, hu⟩ : ∃ u, u = setV (stepped s c) c d (sext 20 imm20) := ⟨_, rfl⟩
  have hpcu : pcOf u c = pcOf s c := by rw [hu, pcOf_setV, hpc0]
  have hcore : coreAt (setPc u c (pcOf s c + 4)) c = { coreAt s c with stepping := true } := by
    rw [coreAt_setPc, hu, coreAt_setV, coreAt_stepped]
  have hstate : sqState (setPc u c (pcOf s c + 4)) c = sqRUNNING := by
    unfold sqState setPc
    rw [rd_wr_field _ _ _ _ _ _ (by decide), hu, rd_setV_field _ _ _ _ (by decide)]
    exact sqState_stepped s c
  have hend : stepEnd (tsxEffect (.mov c d imm20) (stepped s c)) c
      = setSqState (setCore (setPc u c (pcOf s c + 4)) c { coreAt s c with stepping := false }) c sqHALTED := by
    have heff : tsxEffect (.mov c d imm20) (stepped s c) = setPc u c (pcOf s c + 4) := by
      rw [← hpcu, ← advance_of_lt (by rw [hpcu]; exact hpc), hu]
      rfl
    rw [heff]
    unfold stepEnd
    dsimp only
    rw [hcore, hstate, hstall]
    rfl
  have hk : Keeps [(F.SQ_STATUS_STATE, c), (F.SQ_PC_PC, c), (F.SQ_VREG_VALUE, c * 16 + d % 16)] s (setPc u c (pcOf s c + 4)) := by
    rw [hu]
    have h0 : Keeps [(F.SQ_STATUS_STATE, c), (F.SQ_PC_PC, c), (F.SQ_VREG_VALUE, c * 16 + d % 16)] s (stepped s c) :=
      ((Keeps.refl _ s).of_regs (by rfl)).wr F.SQ_STATUS_STATE c _ (by simp)
    exact (h0.setV c d _ (by simp)).setPc c _ (by simp)
  have hpcw : pcOf (setPc u c (pcOf s c + 4)) c = pcOf s c + 4 := by
    rw [← hpcu]
    exact pcOf_setPc_next (by rw [hpcu]; exact hpc)
  have hvw : vreg (setPc u c (pcOf s c + 4)) c d = if d % 16 = 0 then 0 else sext 20 imm20 := by
    rw [vreg_setPc, hu, vreg_setV]
  generalize setPc u c (pcOf s c + 4) = w at *
  refine answers_sqStep hreach hc hst hpast hstall hworks hdec fun t ht => ?_
  rw [hend] at ht
  refine ⟨?_, ?_, ?_, ?_, ht.keeps ((hk.of_regs (t := setCore w c _) rfl).wr F.SQ_STATUS_STATE c _ (by simp))⟩
  · exact (ht.sqState c).trans (rd_wr_same ..)
  · have h : coreAt t c = { coreAt s c with stepping := false } := (ht.coreAt c).trans (coreAt_setCore_same w c _)
    rw [h]
  · rw [← hpcw, ht.pcOf]
    exact congrArg (4 * ·) (rd_wr_field _ _ _ _ _ _ (by decide))
  · rw [← hvw, ht.vreg]
    unfold vreg setSqState
    rw [rd_wr_field _ _ _ _ _ _ (by decide)]
    rfl

end

/-! ### Writes at many instances -/

/-- A field reads a value where it did, or where a fold has written it. -/
theorem rd_foldl_wr {α : Type} (f : Field) (x : Nat) (g : α → Nat) (l : List α) {i : Nat}
    (h : rd s f i = x % 2 ^ f.width ∨ ∃ k ∈ l, g k = i) : rd (l.foldl (fun s k => wr s f (g k) x) s) f i = x % 2 ^ f.width := by
  induction l generalizing s with
  | nil => simpa using h
  | cons k l ih =>
    rw [List.foldl_cons]
    refine ih ?_
    by_cases hk : g k = i
    · left
      rw [hk, rd_wr_same]
    · rw [rd_wr_inst _ _ _ _ hk]
      rcases h with h | ⟨k', hk', e⟩
      · exact .inl h
      · rcases List.mem_cons.mp hk' with rfl | hm
        · exact absurd e hk
        · exact .inr ⟨k', hm, e⟩

theorem rd_foldl_wr_field {α : Type} {f g : Field} (h : f.fid % 1024 ≠ g.fid % 1024) (x : Nat) (n : α → Nat) (l : List α) (s : State)
    (i : Nat) : rd (l.foldl (fun s k => wr s f (n k) x) s) g i = rd s g i := by
  induction l generalizing s with
  | nil => rfl
  | cons k l ih =>
    rw [List.foldl_cons, ih]
    exact rd_wr_field _ _ _ _ _ _ h

theorem RegsOnly.foldl_wr {α : Type} (f : Field) (x : Nat) (n : α → Nat) (l : List α) (s : State) :
    RegsOnly s (l.foldl (fun s k => Machine.wr s f (n k) x) s) :=
  foldl_frame RegsOnly.refl RegsOnly.trans (fun u _ => (RegsOnly.refl u).wr _ _ _) l s

theorem Keeps.foldl_wr {ks : List (Field × Nat)} (h : Keeps ks s u) {α : Type} (f : Field) (x : Nat) (n : α → Nat) {l : List α}
    (hm : ∀ k ∈ l, (f, n k) ∈ ks) : Keeps ks s (l.foldl (fun s k => Machine.wr s f (n k) x) u) :=
  List.foldlRecOn (motive := fun (v : State) => Keeps ks s v) l _ h fun _ hv k hk => hv.wr _ _ _ (hm k hk)

/-! ### Core reset (R79, R578) -/

theorem resetFields_core (s : State) (c : Nat) : resetFields s coreFields c = clearAll s coreFields c := rfl

/-- The fields of core `c` that a reset clears. -/
theorem rd_coreRegsReset {f : Field} (hf : f ∈ coreFields) : rd (coreRegsReset s c) f c = 0 := by
  have hne : F.SQ_VREG_VALUE.fid % 1024 ≠ f.fid % 1024 :=
    (by decide : ∀ f ∈ coreFields, F.SQ_VREG_VALUE.fid % 1024 ≠ f.fid % 1024) f hf
  unfold coreRegsReset
  rw [rd_foldl_wr_field hne 0 (fun k => c * 16 + k), resetFields_core]
  exact rd_clearAll_mem coreFields s c f hf
    ((by decide : ∀ f ∈ coreFields, ∀ k ∈ coreFields, k.fid % 1024 = f.fid % 1024 → k = f) f hf)

theorem vreg_of_cleared (h : ∀ k, k < 16 → rd u F.SQ_VREG_VALUE (c * 16 + k) = 0) (k : Nat) : vreg u c k = 0 := by
  unfold vreg
  split
  · rfl
  · rw [h _ (Nat.mod_lt _ (by decide))]
    rfl

theorem rd_vreg_coreRegsReset {k : Nat} (hk : k < 16) : rd (coreRegsReset s c) F.SQ_VREG_VALUE (c * 16 + k) = 0 :=
  rd_foldl_wr F.SQ_VREG_VALUE 0 (fun k => c * 16 + k) (List.range 16) (.inr ⟨k, List.mem_range.mpr hk, rfl⟩)

/-- The fields of core `c` that a core reset changes. -/
def coreResetFields (c : Nat) : List (Field × Nat) :=
  (coreFields ++ [F.SQ_CTL_WAKE_EN, F.SQ_WAKE_PC_PC]).map (fun f => (f, c))
    ++ (List.range 16).map (fun k => (F.SQ_VREG_VALUE, c * 16 + k)) ++ [(F.SQ_HASH_CTL_VALID, 0)]

theorem answers_sqCoreReset (hreach : blockReach s 15 = true) (hc : c < 8) (hregion : NoRegion s c)
    (hrecipe : (coreAt s c).recipe = none) : Answers (exec (.sqCoreReset c) s) fun t =>
      sqState t c = sqHALTED ∧ pcOf t c = 0 ∧ (∀ k, vreg t c k = 0) ∧ lkReg t c = 0 ∧ rd t F.SQ_FLAGS_ZNCV c = 0
      ∧ rd t F.SQ_STATUS_EV_PENDING c = 0 ∧ rd t F.SQ_STATUS_FAULT c = 0 ∧ rd t F.SQ_HASH_CTL_VALID = 0
      ∧ coreAt t c = { SqCore.init with storeQ := (coreAt s c).storeQ, rom := (coreAt s c).rom }
      ∧ (∀ c', c' ≠ c → coreAt t c' = coreAt s c')
      ∧ Keeps (coreResetFields c) s t ∧ Settled { s with regs := t.regs, cores := t.cores } t := by
  obtain ⟨k, hk⟩ : ∃ k, k = { SqCore.init with storeQ := (coreAt s c).storeQ, rom := (coreAt s c).rom } := ⟨_, rfl⟩
  obtain ⟨w, hw⟩ : ∃ w, w = coreRegsReset (setCore s c k) c := ⟨_, rfl⟩
  obtain ⟨v, hv⟩ : ∃ v, v = wr (wr (wr w F.SQ_CTL_WAKE_EN c F.SQ_CTL_WAKE_EN.reset) F.SQ_WAKE_PC_PC c F.SQ_WAKE_PC_PC.reset)
      F.SQ_HASH_CTL_VALID 0 0 := ⟨_, rfl⟩
  have hreset : coreReset s c = v := by
    unfold coreReset
    dsimp only
    rw [hrecipe, squashRegion_of_noRegion hregion, recipeAbort_of_none hrecipe, ← hk, hv, hw]
    rfl
  have hcoreF {f : Field} (hf : f ∈ coreFields) : rd v f c = 0 := by
    have hne := (by decide : ∀ f ∈ coreFields, F.SQ_CTL_WAKE_EN.fid % 1024 ≠ f.fid % 1024 ∧ F.SQ_WAKE_PC_PC.fid % 1024 ≠ f.fid % 1024
      ∧ F.SQ_HASH_CTL_VALID.fid % 1024 ≠ f.fid % 1024) f hf
    rw [hv, rd_wr_field _ _ _ _ _ _ hne.2.2, rd_wr_field _ _ _ _ _ _ hne.2.1, rd_wr_field _ _ _ _ _ _ hne.1, hw]
    exact rd_coreRegsReset hf
  have hvreg (k : Nat) : vreg v c k = 0 := by
    refine vreg_of_cleared (fun k hk => ?_) k
    rw [hv, rd_wr_field _ _ _ _ _ _ (by decide), rd_wr_field _ _ _ _ _ _ (by decide), rd_wr_field _ _ _ _ _ _ (by decide), hw]
    exact rd_vreg_coreRegsReset hk
  have hregs : RegsOnly (setCore s c k) v := by
    rw [hv, hw]
    refine ((RegsOnly.trans ?_ (RegsOnly.foldl_wr _ _ _ _ _)).wr _ _ _).wr _ _ _ |>.wr _ _ _
    exact (RegsOnly.refl _).clearAll coreFields c
  have hkeep : Keeps (coreResetFields c) s v := by
    rw [hv, hw]
    have h0 : Keeps (coreResetFields c) s (setCore s c k) := (Keeps.refl _ s).of_regs rfl
    have h1 : Keeps (coreResetFields c) s (clearAll (setCore s c k) coreFields c) :=
      h0.clearAll fun f hf => by simp [coreResetFields, hf]
    have h2 : Keeps (coreResetFields c) s (coreRegsReset (setCore s c k) c) :=
      Keeps.foldl_wr h1 F.SQ_VREG_VALUE 0 (fun k => c * 16 + k) fun k hk => by
        simp only [coreResetFields, List.mem_append, List.mem_map]
        exact .inl (.inr ⟨k, hk, rfl⟩)
    exact ((h2.wr _ _ _ (by simp [coreResetFields])).wr _ _ _ (by simp [coreResetFields])).wr _ _ _ (by simp [coreResetFields])
  have hvalid : rd v F.SQ_HASH_CTL_VALID = 0 := by rw [hv, rd_wr_same]; rfl
  refine answers_unitReach (f := fun s => coreReset s c) hc hreach fun t ht => ?_
  rw [hreset] at ht
  refine ⟨(ht.sqState c).trans (hcoreF (by simp [coreFields])), ?_, fun k => (ht.vreg c k).trans (hvreg k), ?_,
    (ht.rd _ _).trans (hcoreF (by simp [coreFields])), (ht.rd _ _).trans (hcoreF (by simp [coreFields])),
    (ht.rd _ _).trans (hcoreF (by simp [coreFields])), (ht.rd _ _).trans hvalid, ?_, fun c' hne => ?_, ht.keeps hkeep,
    (((CoresOnly.refl s).setCore c k).regsOnly hregs).settled ht⟩
  · rw [ht.pcOf]
    exact congrArg (4 * ·) (hcoreF (by simp [coreFields]))
  · rw [ht.lkReg]
    exact congrArg (BitVec.ofNat 64) (hcoreF (by simp [coreFields]))
  · rw [ht.coreAt, hregs.coreAt, coreAt_setCore_same, hk]
  · rw [ht.coreAt, hregs.coreAt, coreAt_setCore_ne _ _ hne]

/-! ### Wake (R85) -/

theorem answers_coreWake (hc : c < 8) (hworks : blockWorks s 15 = true) (hasked : (coreAt s c).wakeAsked = true)
    (hen : isSet s F.SQ_CTL_WAKE_EN c = true) (hst : sqState s c = sqHALTED) : Answers (exec (.coreWakeStart c) s) fun t =>
      sqState t c = sqRUNNING ∧ pcOf t c = 4 * rd s F.SQ_WAKE_PC_PC c ∧ (∀ k, vreg t c k = 0) ∧ lkReg t c = 0
      ∧ rd t F.SQ_FLAGS_ZNCV c = 0 ∧ hasBit t F.SQ_IRQ_STATUS_EVT c 4 = true ∧ (coreAt t c).wakeAsked = false := by
  obtain ⟨w, hw⟩ : ∃ w, w = setCore s c { coreAt s c with wakeAsked := false, past := false } := ⟨_, rfl⟩
  obtain ⟨v, hv⟩ : ∃ v, v = (List.range 15).foldl (fun s i => wr s F.SQ_VREG_VALUE (c * 16 + i + 1) 0) w := ⟨_, rfl⟩
  have hvw {f : Field} (hf : F.SQ_VREG_VALUE.fid % 1024 ≠ f.fid % 1024) (i : Nat) : rd v f i = rd s f i := by
    rw [hv, rd_foldl_wr_field hf 0 (fun k => c * 16 + k + 1), hw]
    exact rd_congr rfl f i
  have hregs : RegsOnly w v := by
    rw [hv]
    exact RegsOnly.foldl_wr _ _ _ _ _
  have hvreg {k : Nat} (h0 : k ≠ 0) (hk : k < 16) : rd v F.SQ_VREG_VALUE (c * 16 + k) = 0 := by
    rw [hv]
    exact rd_foldl_wr F.SQ_VREG_VALUE 0 (fun k => c * 16 + k + 1) (List.range 15)
      (.inr ⟨k - 1, List.mem_range.mpr (by omega), by omega⟩)
  have hwake : coreWake s c = setBit (wr (wr (wr (wr v F.SQ_LK_VALUE c 0) F.SQ_FLAGS_ZNCV c 0) F.SQ_PC_PC c (rd s F.SQ_WAKE_PC_PC c))
      F.SQ_STATUS_STATE c sqRUNNING) F.SQ_IRQ_STATUS_EVT c 4 := by
    unfold coreWake
    dsimp only
    rw [hworks, hasked, hen, hst, if_pos (by decide), ← hw, ← hv]
    have hpc : rd (wr (wr v F.SQ_LK_VALUE c 0) F.SQ_FLAGS_ZNCV c 0) F.SQ_WAKE_PC_PC c = rd s F.SQ_WAKE_PC_PC c := by
      rw [rd_wr_field _ _ _ _ _ _ (by decide), rd_wr_field _ _ _ _ _ _ (by decide), hvw (by decide)]
    rw [hpc]
    rfl
  refine answers_onUnit (f := fun s => coreWake s c) hc fun t ht => ?_
  rw [hwake] at ht
  have hrd (f : Field) (i : Nat) := ht.rd f i
  refine ⟨?_, ?_, fun k => ?_, ?_, ?_, ?_, ?_⟩
  · unfold sqState
    rw [ht.rd, setBit_eq, rd_wr_field _ _ _ _ _ _ (by decide), rd_wr_same]
    rfl
  · unfold pcOf
    rw [ht.rd, setBit_eq, rd_wr_field _ _ _ _ _ _ (by decide), rd_wr_field _ _ _ _ _ _ (by decide), rd_wr_same]
    exact congrArg (4 * ·) (Nat.mod_eq_of_lt (rd_lt s F.SQ_WAKE_PC_PC c))
  · unfold vreg
    split
    · rfl
    · rename_i h0
      rw [ht.rd, setBit_eq]
      simp (disch := decide) only [rd_wr_field]
      rw [hvreg h0 (Nat.mod_lt _ (by decide))]
      rfl
  · unfold lkReg
    rw [ht.rd, setBit_eq]
    simp (disch := decide) only [rd_wr_field, rd_wr_same]
    rfl
  · rw [ht.rd, setBit_eq]
    simp (disch := decide) only [rd_wr_field, rd_wr_same]
    rfl
  · rw [ht.hasBit]
    exact hasBit_setBit _ _ _ _ (by decide)
  · rw [ht.coreAt]
    have h : coreAt v c = { coreAt s c with wakeAsked := false, past := false } := by
      rw [hregs.coreAt, hw]
      exact coreAt_setCore_same s c _
    exact congrArg SqCore.wakeAsked h

/-! ### The hash engine (R97, R99) -/

theorem crcStep_lt {w poly reg : Nat} (hp : poly < 2 ^ w) (b : Bool) : crcStep w poly reg b < 2 ^ w := by
  have h : reg * 2 % 2 ^ w < 2 ^ w := Nat.mod_lt _ (by positivity)
  unfold crcStep
  dsimp only
  split
  · exact h
  · exact Nat.xor_lt_two_pow h hp

theorem crc64_lt (bs : List Nat) : crc64 bs < 2 ^ 64 := by
  unfold crc64 crcMsb
  refine List.foldlRecOn (motive := fun (r : Nat) => r < 2 ^ 64) bs _ (by decide) fun r hr b _ => ?_
  exact List.foldlRecOn (motive := fun (r : Nat) => r < 2 ^ 64) (bitsMsb b) _ hr fun r _ x _ => crcStep_lt (by decide) x

theorem answers_hashStart (hreach : blockReach s 15 = true) (hidle : s.hashDue = none) : Answers (exec .hashStart s) fun t =>
    rd t F.SQ_HASH_CTL_BUSY = 1 ∧ rd t F.SQ_HASH_CTL_VALID = 0
    ∧ Keeps [(F.SQ_HASH_CTL_BUSY, 0), (F.SQ_HASH_CTL_VALID, 0)] s t
    ∧ Settled { s with regs := t.regs, hashDue := some (s.ns + 40960), hashDirty := false } t := by
  refine answers_reach (f := hashStart) hreach fun t ht => ?_
  unfold hashStart at ht
  rw [hidle, if_neg (by decide)] at ht
  refine ⟨?_, ?_, ht.keeps ((((Keeps.refl _ s).of_regs rfl).wr _ _ _ (by simp)).wr _ _ _ (by simp)), ?_⟩
  · rw [ht.rd]
    simp (disch := decide) only [rd_wr_field, rd_wr_same]
    rfl
  · rw [ht.rd, rd_wr_same]
    rfl
  · rw [ht.regs]
    exact ht

theorem answers_hashDone {due : Nat} (hworks : blockWorks s 15 = true) (hdue : s.hashDue = some due) (hle : due ≤ s.ns)
    (hclean : s.hashDirty = false) (hhello : s.twn.helloWait = false) : Answers (exec .hashDone s) fun t =>
      rd t F.SQ_HASH_CTL_BUSY = 0 ∧ rd t F.SQ_HASH_CTL_VALID = 1
      ∧ rd t F.SQ_PROG_HASH_HASH = crc64 ((List.range 262144).map (progByte s))
      ∧ Keeps [(F.SQ_HASH_CTL_BUSY, 0), (F.SQ_HASH_CTL_VALID, 0), (F.SQ_PROG_HASH_HASH, 0)] s t
      ∧ Settled { s with regs := t.regs, hashDue := none } t := by
  have hlt := crc64_lt ((List.range 262144).map (progByte s))
  obtain ⟨x, hx⟩ : ∃ x, x = crc64 ((List.range 262144).map (progByte s)) := ⟨_, rfl⟩
  rw [← hx] at hlt ⊢
  have hdone : hashDone s = wr (wr { wr s F.SQ_PROG_HASH_HASH 0 x with hashDue := none }
      F.SQ_HASH_CTL_BUSY 0 0) F.SQ_HASH_CTL_VALID 0 1 := by
    unfold hashDone
    rw [hdue]
    dsimp only
    rw [if_neg (by omega), hclean, if_neg Bool.false_ne_true, ← hx]
    have hno (u : State) (hu : u.twn.helloWait = false) : (if u.twn.helloWait && isSet u F.SQ_HASH_CTL_VALID then sendHello u else u) = u := by
      rw [hu, Bool.false_and, if_neg Bool.false_ne_true]
    rw [show (wr s F.SQ_PROG_HASH_HASH 0 x).hashDirty = false from hclean]
    refine (hno _ ?_).trans rfl
    exact hhello
  refine answers_inBlock (f := hashDone) hworks fun t ht => ?_
  rw [hdone] at ht
  refine ⟨?_, ?_, ?_, ht.keeps ?_, ?_⟩
  · rw [ht.rd]
    simp (disch := decide) only [rd_wr_field, rd_wr_same]
    rfl
  · rw [ht.rd, rd_wr_same]
    rfl
  · rw [ht.rd, rd_wr_field _ _ _ _ _ _ (by decide), rd_wr_field _ _ _ _ _ _ (by decide)]
    exact (rd_wr_same s F.SQ_PROG_HASH_HASH 0 x).trans (Nat.mod_eq_of_lt hlt)
  · exact ((((Keeps.refl _ s).wr _ _ _ (by simp)).of_regs rfl).wr _ _ _ (by simp)).wr _ _ _ (by simp)
  · rw [ht.regs]
    exact ht

end

/-- Settles O19, clause by clause. -/
theorem coreControlsAndHashEngineAct : Obligations.CoreControlsAndHashEngineAct := by
  unfold Obligations.CoreControlsAndHashEngineAct
  intro s hreach
  refine ⟨fun c hc => ⟨?_, fun hst hregion hrecipe => ⟨?_, ?_⟩, fun hst hpast hstall hworks => ⟨?_, ?_⟩, ?_, ?_⟩, ?_, ?_⟩
  · exact fun hst hpast => answers_sqRun hreach hc hst hpast
  · exact fun hplain => answers_sqHalt hreach hc hst hregion hrecipe hplain
  · exact fun m d hstall hpc => answers_sqHalt_sync hreach hc hst hregion hrecipe hstall hpc
  · exact fun i hdec => answers_sqStep hreach hc hst hpast hstall hworks hdec fun _ ht => ht
  · exact fun d imm20 hdec hpc => answers_sqStep_mov hreach hc hst hpast hstall hworks hdec hpc
  · exact fun hregion hrecipe => answers_sqCoreReset hreach hc hregion hrecipe
  · exact fun hworks hasked hen hst => answers_coreWake hc hworks hasked hen hst
  · exact answers_hashStart hreach
  · exact fun due hdue hle hclean hhello hworks => answers_hashDone hworks hdue hle hclean hhello

end Sys2Proof.Machine
end

section
/-! What nothing but the clock and a load moves: TB, the clock of the model, the correction of TB, and the device stores that
wait in the cores' queues (R193, R195, R198). -/
open Sys2Proof
namespace Sys2Proof.Machine

section
variable {s t u v : State}

/-- What the clock moves, with the device stores that wait. -/
def pace (s : State) : Nat × Nat × Int × Nat × (Nat → List Req) :=
  (s.tb, s.ns, s.slew, s.slewNext, fun c => (coreAt s c).storeQ)

/-- Neither time nor a device store has moved. -/
def Still (s t : State) : Prop := pace t = pace s

theorem Still.refl (s : State) : Still s s := rfl
theorem Still.trans (h : Still s u) (h' : Still u v) : Still s v := Eq.trans h' h

section
variable (h : Still s u)
include h

theorem Still.wr (f : Field) (i x : Nat) : Still s (wr u f i x) := h
theorem Still.bump (f : Field) (i : Nat) : Still s (bump u f i) := h
theorem Still.bumpBy (f : Field) (i k : Nat) : Still s (bumpBy u f i k) := h
theorem Still.setBit (f : Field) (i b : Nat) : Still s (setBit u f i b) := h
theorem Still.wrBool (f : Field) (i : Nat) (b : Bool) : Still s (wrBool u f i b) := h
theorem Still.setFcg (g : Nat) (k : Fcg) : Still s (setFcg u g k) := h
theorem Still.setStream (k : Nat) (x : StreamSt) : Still s (setStream u k x) := h
theorem Still.setPktPort (n : Nat) (x : PktPort) : Still s (setPktPort u n x) := h
theorem Still.setTwn (k : Twn) : Still s (setTwn u k) := h
theorem Still.setTrg (n : Nat) (k : TrgOut) : Still s (setTrg u n k) := h
theorem Still.setRing (n : Nat) (k : Ring) : Still s (setRing u n k) := h
theorem Still.frames (fs : List Frame) : Still s { u with frames := fs } := h

theorem Still.ite {b : Prop} [Decidable b] (h' : Still s v) : Still s (if b then u else v) := by
  split
  · exact h
  · exact h'

theorem Still.regsOnly (h' : RegsOnly u v) : Still s v := by
  unfold RegsOnly at h'
  rw [h']
  exact h

theorem Still.firesOnly (h' : FiresOnly u v) : Still s v := by
  unfold FiresOnly at h'
  rw [h']
  exact h

theorem Still.trgOnly (h' : TrgOnly u v) : Still s v := by
  unfold TrgOnly at h'
  rw [h']
  exact h

theorem Still.recorded (h' : Recorded u v) : Still s v := by
  rw [h'.1]
  exact h

theorem Still.foldl {α : Type} {g : State → α → State} (hg : ∀ u x, Still u (g u x)) (l : List α) : Still s (l.foldl g u) :=
  h.trans (foldl_frame Still.refl Still.trans hg l u)

end

/-! ### Trigger records, packets and the twin -/

theorem fireProducer_still (s : State) (p : Nat) : Still s (fireProducer s p) := (Still.refl s).firesOnly (fireProducer_firesOnly s p)

theorem foldProducers_still (l : List Nat) (b : Nat → Bool) (p : Nat → Nat) (s : State) :
    Still s (l.foldl (fun t i => if b i then fireProducer t (p i) else t) s) :=
  (Still.refl s).foldl (fun u i => (fireProducer_still u (p i)).ite (.refl u)) l

theorem trigOutcome_still (s : State) (g id : Nat) (unconf : Bool) : Still s (trigOutcome s g id unconf) := by
  unfold trigOutcome
  dsimp only
  refine Still.frames ?_ _
  exact (Still.refl s).foldl (fun u k => (Still.refl u).setStream k _) (List.range 64)

theorem setLocked_still (s : State) (g : Nat) (on : Bool) : Still s (setLocked s g on) := by
  unfold setLocked
  exact (Still.refl s).ite (((Still.refl s).wrBool _ _ _).setBit _ _ _)

theorem closeWindow_still (s : State) (g : Nat) (w : Window) : Still s (closeWindow s g w) := by
  unfold closeWindow
  dsimp only
  refine Still.trans ?_ (trigOutcome_still _ g w.id true)
  refine Still.trans ?_ (setLocked_still _ g false)
  exact Still.trans ((((Still.refl s).setFcg g _).bump _ g).setBit _ g 7) (fireProducer_still _ _)

theorem closeOldest_still (s : State) (g : Nat) : Still s (closeOldest s g) := by
  unfold closeOldest
  split
  · exact .refl s
  · exact closeWindow_still s g _

theorem closeExcess_still (s : State) (g : Nat) : Still s (closeExcess s g) := by
  unfold closeExcess
  exact (Still.refl s).foldl (fun u _ => (closeOldest_still u g).ite (.refl u)) _

theorem reachTriggers_still (s : State) (g : Nat) : Still s (reachTriggers s g) := by
  unfold reachTriggers
  dsimp only
  exact ((Still.refl s).foldl (fun u (c : Committed) => (Still.refl u).wr _ g c.time) _).setFcg g _

theorem twnPush_still (s : State) (ty : Nat) (bs : List Nat) : Still s (twnPush s ty bs) := by
  unfold twnPush
  exact (Still.refl s).ite (((Still.refl s).bump _ _).ite ((Still.refl s).setTwn _))

theorem trigMismatch_still (s : State) (g : Nat) : Still s (trigMismatch s g) :=
  (((Still.refl s).bump F.TWN_TRIG_MISMATCH_COUNT 0).setBit F.TWN_EVT_EVT 0 11).trans (twnPush_still _ _ _)

theorem Still.setTwnFcg (h : Still s u) (g : Nat) (k : TwnFcg) : Still s (setTwnFcg u g k) := h

theorem judgeTrigs_still (s : State) (g : Nat) : Still s (judgeTrigs s g) := by
  unfold judgeTrigs
  dsimp only
  split
  · exact .refl s
  · refine ((Still.refl s).setTwnFcg g _).foldl (fun u p => ?_) _
    split
    · exact (trigMismatch_still u g).ite (.refl u)
    · exact trigMismatch_still u g

theorem twinTrig_still (s : State) (g id x c : Nat) : Still s (twinTrig s g id x c) := by
  have hpush := twnPush_still s tpTRIG ([g, 0, 0, 0] ++ toBytes 4 id ++ toBytes 8 x)
  unfold twinTrig
  dsimp only
  refine Still.ite (Still.ite ?_ hpush) (Still.ite ?_ (.refl s))
  · exact (hpush.trans (twnPush_still _ _ _)).setTwnFcg g _
  · exact ((Still.refl s).setTwnFcg g _).trans (judgeTrigs_still _ g)

/-! ### Frame clocks and compare units -/

theorem commitTrigger_still (s : State) (g x : Nat) (held : Bool) (c : Nat) (opens : Bool) :
    Still s (commitTrigger s g x held c opens) := by
  unfold commitTrigger
  dsimp only
  refine Still.trans ?_ (twinTrig_still _ _ _ _ _)
  refine Still.setFcg ?_ g _
  refine Still.recorded ?_ (putRecord_recorded ..)
  refine Still.foldl ?_ (fun u n => Still.ite ((Still.refl u).recorded (autoPacket_recorded u n _ _ _)) (.refl u)) _
  refine Still.trgOnly ?_ (trgFcg_pulses _ g _ _).1
  refine Still.trans ?_ (fireProducer_still _ _)
  have h0 := (((reachTriggers_still s g).wr F.FCG_TRIG_ID_VALUE g ((rd (reachTriggers s g) F.FCG_TRIG_ID_VALUE g + 1) % 2 ^ 32)).wr
    F.FCG_NEXT_TB_VALUE g (max x (reachTriggers s g).tb)).bump F.FCG_TRIGGERS_COUNT g
  have h1 := Still.ite (b := decide (x < (reachTriggers s g).tb) = true) ((h0.bump F.FCG_LATE_COUNT g).setBit F.FCG_EVT_EVT g 10) h0
  exact Still.ite (h1.bump F.FCG_HELD_COUNT g) h1

theorem setPoint_still (s : State) (g speed : Nat) : Still s (setPoint s g speed).2 := by
  unfold setPoint
  dsimp only
  exact ((Still.ite (((Still.refl s).bump _ g).setBit _ g 0) (.refl s)).wrBool _ g _).wr _ g _

theorem confirm_still (s : State) (g x : Nat) : Still s (confirm s g x) := by
  unfold confirm
  dsimp only
  split
  · exact ((Still.refl s).bump _ g).setBit _ g 8
  · refine Still.trans ?_ (trigOutcome_still _ _ _ _)
    have h (a : Nat) (k : Fcg) : Still s (setFcg (wr s F.FCG_PHASE_ERR_VALUE g a) g k) := ((Still.refl s).wr _ g a).setFcg g k
    exact Still.ite ((h _ _).trans (setLocked_still _ g false)) (Still.ite ((h _ _).trans (setLocked_still _ g true)) (h _ _))

theorem fcgState_still (s : State) (g : Nat) : Still s (fcgState s g) := fireProducer_still s _

theorem fcgMatch_still (s : State) (unit x : Nat) : Still s (fcgMatch s unit x) := by
  unfold fcgMatch
  refine (Still.refl s).foldl (fun u g => ?_) _
  dsimp only
  refine Still.ite (.refl u) (Still.ite (Still.ite (.refl u) (commitTrigger_still u _ _ _ _ _)) ?_)
  refine Still.ite (Still.ite ?_ (.refl u)) (Still.ite (Still.ite ?_ (confirm_still u g x)) (.refl u))
  · have h (a b : Nat) (k : Fcg) :
        Still u (wr (wr (setLoop (setFcg (setPoint u g a).2 g k) g fTRACK) F.FCG_RATE_VALUE g b) F.FCG_STATUS_RAMPING g 0) :=
      (((setPoint_still u g a).setFcg g k).wr F.FCG_STATUS_LOOP g fTRACK).wr _ g b |>.wr _ g 0
    exact Still.ite (((h _ _ _).setBit F.FCG_EVT_EVT g 4).trans (fcgState_still _ g)) (h _ _ _)
  · exact (((Still.refl u).setFcg g _).bump _ g).setBit _ g 9

theorem cmpMatch_still (s : State) (k x : Nat) (fwd again : Bool) : Still s (cmpMatch s k x fwd again) := by
  unfold cmpMatch
  dsimp only
  refine Still.trans (Still.setBit ?_ _ k 0) (fcgMatch_still _ k x)
  have h (a b c : Nat) : Still s (wr (wr (wr (wr (bump (fireProducer s k) F.CMP_MATCHES_COUNT k) F.CMP_LAST_TAG k a) F.CMP_LAST_DIR k b)
      F.CMP_LAST_ENTRY k c) F.CMP_LAST_TB_VALUE k x) :=
    ((((fireProducer_still s k).bump _ k).wr _ k a).wr _ k b).wr _ k c |>.wr _ k x
  exact Still.ite ((h _ _ _).bump F.CMP_CATCHUP_COUNT k) (h _ _ _)

theorem Still.makeCurrent (h : Still s u) (k e : Nat) : Still s (cmpMakeCurrent u k e) := h

theorem cmpAdvance_still (s : State) (k : Nat) : Still s (cmpAdvance s k) := by
  unfold cmpAdvance
  dsimp only
  refine Still.ite ((Still.refl s).makeCurrent k _) (Still.ite ?_ ?_)
  · exact ((Still.refl s).wr _ k _).makeCurrent k _
  · exact (((Still.refl s).wr _ k 1).wr _ k 0).setBit _ k 3

theorem cmpTest_still (s : State) (k : Nat) (x : CmpUpd) : Still s (cmpTest s k x).1 := by
  unfold cmpTest
  dsimp only
  split
  · exact .refl s
  · split
    · refine Still.trans ?_ (cmpAdvance_still (cmpEvt (bump s F.CMP_SKIPPED_COUNT k) k 2) k)
      exact ((Still.refl s).bump _ k).setBit _ k 2
    · split
      · exact cmpAdvance_still s k
      · split
        · have h := cmpMatch_still s k x.tb (decide (x.p < cmpTarget s k ∧ cmpTarget s k ≤ x.q)) (decide (x.matched ≠ 0))
          dsimp only
          generalize cmpMatch s k x.tb _ _ = w at h ⊢
          exact h.trans (cmpAdvance_still w k)
        · refine Still.trans ?_ (cmpAdvance_still (cmpEvt (bump s F.CMP_AGAINST_COUNT k) k 1) k)
          exact ((Still.refl s).bump _ k).setBit _ k 1

theorem Still.setUpds (h : Still s u) (k : Nat) (us : List CmpUpd) : Still s (setUpds u k us) := h

theorem cmpTick_still (s : State) (k : Nat) (us : List CmpUpd) : Still s (cmpTick s k us) := by
  induction us generalizing s with
  | nil => exact (Still.refl s).setUpds k []
  | cons x us ih =>
    have h := cmpTest_still s k x
    unfold cmpTick
    split
    · exact (Still.refl s).setUpds k []
    · split
      · rename_i w y e
        rw [e] at h
        exact h.setUpds k _
      · rename_i w e
        rw [e] at h
        exact h.trans (ih w)

theorem feedbackTick_still (s : State) : Still s (feedbackTick s) := by
  unfold feedbackTick
  refine Still.ite (.refl s) (Still.foldl (Still.ite (.refl s) ?_) closeExcess_still _)
  unfold cmpTicks
  refine (Still.refl s).foldl (fun u k => ?_) _
  split
  · exact .refl u
  · exact cmpTick_still u k _

/-! ### Uplinks -/

theorem dropUplink_still (s : State) (n : Nat) : Still s (dropUplink s n) := by
  unfold dropUplink
  dsimp only
  exact Still.ite (.refl s) ((((Still.refl s).setPktPort n _).bumpBy _ n _).setBit _ n 8)

theorem ulTick_still (s : State) (n : Nat) : Still s (ulTick s n) := by
  unfold ulTick
  dsimp only
  refine Still.ite (.refl s) (Still.ite (Still.ite ((Still.refl s).setPktPort n _) (.refl s)) (Still.ite ?_ (.refl s)))
  exact ((Still.refl s).setPktPort n _).setPktPort n _

theorem uplinksTick_still (s : State) : Still s (uplinksTick s) := by
  unfold uplinksTick
  exact Still.ite (.refl s) ((Still.refl s).foldl (fun u n => (dropUplink_still u n).trans (ulTick_still _ n)) _)

/-! ### The twin's confirmation and its packets -/

theorem setTwnState_still (s : State) (x : Nat) : Still s (setTwnState s x) := by
  unfold setTwnState twnProducers
  dsimp only
  refine Still.ite (.refl s) (Still.trans ?_ (foldProducers_still _ _ _ _))
  have h := ((Still.refl s).wr F.TWN_STATUS_STATE 0 x).wrBool F.TWN_STATUS_DRIVING 0 (twnDrives x)
  exact Still.ite (h.wr F.TMB_CTL_PPS_EN 0 0) h

theorem confirmEnter_still (s : State) : Still s (confirmEnter s) := by
  unfold confirmEnter
  exact Still.ite ((setTwnState_still s twSOLO).wr _ 0 0) (.refl s)

theorem twinLineSend_still (s : State) (bs : List Nat) : Still s (twinLineSend s bs) := rfl

theorem twnDrain_still (s : State) : Still s (twnDrain s) := by
  unfold twnDrain
  refine Still.ite (.refl s) ?_
  split
  · exact .refl s
  · exact ((Still.refl s).setTwn _).trans (twinLineSend_still _ _)

/-! ### Recipes that end -/

/-- A core that keeps its queued stores keeps the pace. -/
theorem Still.setCore (h : Still s u) (c : Nat) {k : SqCore} (hq : k.storeQ = (coreAt u c).storeQ) : Still s (setCore u c k) := by
  have hcores : (fun c' => (coreAt (Machine.setCore u c k) c').storeQ) = fun c' => (coreAt u c').storeQ := by
    funext c'
    by_cases e : c' = c
    · rw [e, coreAt_setCore_same, hq]
    · rw [coreAt_setCore_ne _ _ e]
  unfold Still pace at *
  rw [hcores]
  exact h

theorem fcgStop_still (s : State) (g : Nat) : Still s (fcgStop s g) := by
  have hrec (u : State) (ids : List Nat) : Still u (cancelRecords u g ids) :=
    (Still.refl u).foldl (fun v k => (Still.refl v).setStream k _) _
  have hpul (u : State) (ids : List Nat) : Still u (cancelPulses u g ids) :=
    (Still.refl u).foldl (fun v n => (Still.refl v).setTrg n _) _
  have hpack (u : State) (ids : List Nat) : Still u (cancelPackets u g ids) :=
    (Still.refl u).foldl (fun v n => (Still.refl v).setPktPort n _) _
  unfold fcgStop
  dsimp only
  refine Still.ite (.refl s) (Still.wr (Still.wr (Still.wr (Still.wr ?_ _ g 0) _ g 0) _ g 0) _ g fIDLE)
  refine Still.trans (Still.setFcg ?_ g Fcg.init) (setLocked_still _ g false)
  refine Still.foldl ?_ (fun u w => trigOutcome_still u g _ false) _
  exact (((reachTriggers_still s g).trans (hpul _ _)).trans (hpack _ _)).trans (hrec _ _)

theorem stopClocks_still (s : State) (r : Recipe) : Still s (stopClocks s r) := by
  unfold stopClocks
  exact Still.ite ((Still.refl s).foldl (fun u g => (fcgStop_still u g).ite (.refl u)) _) (.refl s)

theorem podProducers_still (s : State) (k kind : Nat) : Still s (podProducers s k kind) := foldProducers_still _ _ _ s

theorem freeTensor_still (s : State) (x : Nat × Nat × Nat) : Still s (freeTensor s x) := by
  unfold freeTensor
  dsimp only
  split
  · split <;> rfl
  · rfl
  · rfl

theorem runCounts_still (s : State) (r : PodRun) (code : Nat) (fire : Bool) : Still s (runCounts s r code fire) := by
  have hbase (f : Field) : Still s (bump s f) := (Still.refl s).bump f 0
  unfold runCounts
  dsimp only
  generalize hb : bump s _ = b
  have hb : Still s b := hb ▸ hbase _
  have hcode := Still.ite (b := (code ≠ 0 && rd b F.POD_RUN_ERR_CODE == 0) = true)
    (((hb.wr F.POD_RUN_ERR_CODE 0 code).wr F.POD_RUN_ERR_LAYER 0 r.layer).wr F.POD_RUN_ERR_LAYER_ID 0 r.layerId) hb
  have hevt := Still.ite (b := (code ≠ 0 && code ≠ 7) = true) (hcode.setBit F.POD_EVT_EVT 0 0) hcode
  have hfree := Still.ite (b := 5 ≤ code) (hevt.foldl freeTensor_still r.wrote) hevt
  exact Still.ite (hfree.trans (podProducers_still _ _ _)) hfree

theorem gateFinal_still (s : State) (k q v : Nat) (reject : Bool) : Still s (gateFinal s k q v reject) := by
  have hbase : Still s (wr (wr (setFrame { s with tracked := s.tracked.filter fun t => !(t.stream == k && t.seq == q) } k q
      fun f => { (f.flagIf (v == 3) flFORCED) with verdict := v, final := true, reject := reject }) F.POD_FINAL_VERDICT k v)
      F.POD_FINAL_SEQ_SEQ k q) := rfl
  unfold gateFinal
  dsimp only
  generalize wr (wr (setFrame _ k q _) F.POD_FINAL_VERDICT k v) F.POD_FINAL_SEQ_SEQ k q = u at hbase ⊢
  have hcount := Still.ite (b := v = 1) (hbase.bump F.POD_GATE_KEEP_COUNT k) (Still.ite (b := v = 3) (hbase.bump F.POD_GATE_FORCED_COUNT k)
    (Still.ite (b := reject = true) (hbase.bump F.POD_GATE_REJECT_COUNT k) hbase))
  have hprod := hcount.trans (podProducers_still _ k 1)
  refine Still.ite ((hprod.trans (podProducers_still _ k 2)).foldl (fun w r => ?_) _) hprod
  exact Still.trans (u := { w with podRuns := w.podRuns.filter fun x => x.id ≠ r.id }) rfl (runCounts_still _ r 7 true)

theorem gateDisable_still (s : State) (k : Nat) : Still s (gateDisable s k) := by
  have h : Still s ((s.tracked.filter fun t => t.stream == k).foldl (fun s t => gateAtOnce s k t.seq) s) := by
    refine (Still.refl s).foldl (fun u x => ?_) _
    unfold gateAtOnce
    exact (Still.ite (.refl u) ((Still.refl u).bump _ k)).trans (gateFinal_still _ _ _ _ _)
  unfold gateDisable
  dsimp only
  generalize List.foldl _ s _ = u at h ⊢
  exact h

theorem stopGates_still (s : State) (r : Recipe) : Still s (stopGates s r) := by
  unfold stopGates
  exact Still.ite ((Still.refl s).foldl gateDisable_still _) (.refl s)

theorem putCard_still (s : State) (c off n v : Nat) : Still s (putCard s c off n v) := rfl

theorem recipeResults_still (s : State) (c : Nat) (r : Recipe) : Still s (recipeResults s c r) := by
  unfold recipeResults
  dsimp only
  have h : Still s (writeDetail s c r) := putCard_still s c 0xF0 4 _
  refine Still.ite (h.trans (putCard_still _ c _ _ _)) ?_
  split
  · exact h.trans (putCard_still _ c _ _ _)
  · exact h

theorem recipeDone_still (s : State) (c : Nat) (r : Recipe) : Still s (recipeDone s c r) := by
  have hend (u : State) : Still u (endRecipe u c rsDONE) := by
    unfold endRecipe setRecipe
    dsimp only
    refine Still.setBit (Still.setCore ?_ c (by rfl)) _ c _
    exact (Still.refl u).wr F.SQ_STATUS_RECIPE_STATE c rsDONE
  have hhalt (u : State) : Still u (recipeHalt u c) := by
    unfold recipeHalt
    exact Still.wr (Still.setCore (.refl u) c (by rfl)) F.SQ_STATUS_STATE c 0
  exact ((((recipeResults_still s c r).trans (stopClocks_still _ r)).trans (stopGates_still _ r)).trans (hend _)).trans (hhalt _)

theorem burstsDone_still (s : State) : Still s (burstsDone s) := by
  unfold burstsDone
  refine (Still.refl s).foldl (fun u c => ?_) _
  split
  · exact Still.ite (recipeDone_still u c _) (.refl u)
  · exact .refl u

/-! ### Records that go out -/

theorem sendHost_still (s : State) (m : HostMsg) : Still s (sendHost s m) := by
  unfold sendHost
  split <;> rfl

theorem sendMsix_still (s : State) (fn v : Nat) : Still s (sendMsix s fn v) := by
  unfold sendMsix
  dsimp only
  refine Still.ite (.refl s) (Still.ite ?_ (sendHost_still s _))
  rfl

theorem indexWb_still (s : State) (n : Nat) : Still s (indexWb s n) := by
  unfold indexWb
  dsimp only
  exact Still.ite (.refl s) (((Still.refl s).setRing n _).trans (sendHost_still _ _))

theorem ringVector_still (s : State) (n : Nat) : Still s (ringVector s n) := (indexWb_still s n).trans (sendMsix_still _ _ _)

theorem countEntry_still (s : State) (n : Nat) : Still s (countEntry s n) := by
  unfold countEntry
  dsimp only
  refine Still.ite (.refl s) (Still.ite ?_ ((Still.refl s).setRing n _))
  exact (((Still.refl s).setRing n _).setRing n _).trans (ringVector_still _ n)

theorem buoyCross_still (s : State) (n : Nat) (sticky pend cnt : Field) : Still s (buoyCross s n sticky pend cnt) := by
  have h := (((Still.refl s).wr sticky n 1).wr pend n 1).bump cnt n
  unfold buoyCross
  exact Still.ite (h.trans (ringVector_still _ n)) h

theorem buoys_still (s : State) (n old : Nat) : Still s (buoys s n old) := by
  have hpeak (a b : Nat) : Still s (wr (wr s F.RNG_BUOY_PEAK_LEVEL n a) F.RNG_BUOY_TROUGH_LEVEL n b) :=
    ((Still.refl s).wr _ n a).wr _ n b
  have hcross (u : State) (k : Ring) (a b c : Field) : Still u (buoyCross (setRing u n k) n a b c) :=
    ((Still.refl u).setRing n k).trans (buoyCross_still _ n a b c)
  unfold buoys
  dsimp only
  have hhigh (b : Prop) [Decidable b] (x y : Nat) (k : Ring) := Still.ite (b := b)
    ((hpeak x y).trans (hcross _ k F.RNG_BUOY_STAT_HIGH_STICKY F.RNG_BUOY_STAT_HIGH_PEND F.RNG_BUOY_CNT_HIGH_CNT)) (hpeak x y)
  exact Still.ite ((hhigh _ _ _ _).trans (hcross _ _ _ _ _)) (hhigh _ _ _ _)

theorem advanceRing_still (s : State) (n : Nat) : Still s (advanceRing s n) := by
  unfold advanceRing
  dsimp only
  refine Still.trans (Still.trans (Still.setRing ?_ n _) (buoys_still _ n _)) (countEntry_still _ n)
  exact Still.ite ((Still.refl s).wr _ n _) ((Still.refl s).wr _ n _)

theorem putRec_still (s : State) (n : Nat) (r : Rec) : Still s (putRec s n r) := by
  have hwrite : Still s (r.write s).2 := by
    unfold Rec.write
    split
    · exact .refl s
    · split
      · exact .refl s
      · exact Still.ite (((Still.refl s).bump _ _).setBit _ _ 6) (.refl s)
  have hput (u : State) (bs : List Nat) : Still u (putEntry u n bs) := by
    unfold putEntry hostWrite
    exact (sendHost_still u _).trans (advanceRing_still _ n)
  unfold putRec
  dsimp only
  exact hwrite.trans (hput _ _)

theorem cmplRecord_still (s : State) (n : Nat) (r : Rec) : Still s (cmplRecord s n r) := by
  unfold cmplRecord
  refine Still.ite ((Still.refl s).bump _ n) (Still.ite (putRec_still s n r) ?_)
  rfl

theorem endRecord_still (s : State) (d : Desc) (e : DescEnd) : Still s (endRecord s d e) := by
  have hvoid : Still s (voidRecord s d) := by
    unfold voidRecord
    exact Still.ite ((((Still.refl s).bump _ _).setBit F.DMA_CH_EVT_EVT _ 1).trans (cmplRecord_still _ _ _)) (.refl s)
  have hcopy (u : State) (x : Nat) : Still u (copyRecord u d x) := by
    unfold copyRecord
    exact Still.ite (cmplRecord_still u _ _) (.refl u)
  have hok : Still s (okRecord s d) := by
    obtain ⟨v, hv⟩ : ∃ v, v = dmaEvt (bump s F.DMA_CH_DONE_COUNT d.chan) d.chan 0 := ⟨_, rfl⟩
    have h0 : Still s v := by
      rw [hv]
      exact ((Still.refl s).bump _ d.chan).setBit _ d.chan 0
    obtain ⟨w, hw⟩ : ∃ w, w = if descEcc v d then dmaEvt v d.chan 7 else v := ⟨_, rfl⟩
    have h1 : Still s w := by
      rw [hw]
      exact Still.ite (h0.setBit _ d.chan 7) h0
    unfold okRecord
    dsimp only
    rw [← hv, ← hw]
    refine Still.ite (h1.trans (hcopy _ 0)) ?_
    refine Still.ite (Still.trans ?_ (cmplRecord_still _ _ _)) ?_
    · split
      · exact h1.bump _ _
      · exact h1
    · split
      · exact h1.bump _ _
      · exact h1
  unfold endRecord
  split
  · exact Still.ite hvoid (Still.ite hok (.refl s))
  · exact Still.ite (hcopy s 1) hvoid
  · exact hvoid

theorem dmaFlush_still (fuel : Nat) (s : State) (c : Nat) : Still s (dmaFlush fuel s c) := by
  induction fuel generalizing s with
  | zero => exact .refl s
  | succ fuel ih =>
    unfold dmaFlush
    split
    · unfold dmaDrained
      dsimp only
      exact Still.ite (Still.setBit (u := setDmaCh s c _) rfl _ c 5) (.refl s)
    · split
      · exact .refl s
      · exact (Still.trans (u := dropDesc s _) rfl (endRecord_still _ _ _)).trans (ih _)

theorem dmaRetry_still (s : State) : Still s (dmaRetry s) := by
  unfold dmaRetry dmaFlushAll
  exact Still.ite ((Still.refl s).foldl (fun u c => dmaFlush_still 512 u c) _) (.refl s)

/-! ### One nanosecond (log 2) -/

theorem queuesDrain_of_empty (h : ∀ c, c < 8 → (coreAt s c).storeQ = []) : queuesDrain s = s := by
  unfold queuesDrain
  split
  · refine List.foldlRecOn (motive := fun (u : State) => u = s) (List.range 8) _ rfl fun u hu c hc => ?_
    rw [hu]
    unfold drainOne
    rw [h c (List.mem_range.mp hc)]
  · rfl

/-- The cycles of a nanosecond are counted. -/
def cycled (s : State) : State := podCycles (ispCycles (sqCycles s))

/-- The registers that count cycles. -/
def cycleFields : List Field := [F.SQ_CYCLES_COUNT, F.ISP_BUSY_CYCLES_VALUE, F.POD_BUSY_CYCLES_VALUE]

/-- Counted cycles change those registers alone. -/
theorem cycled_only (s : State) : RegsOnly s (cycled s) ∧ Touches cycleFields s (cycled s) := by
  have hrefl (u : State) : RegsOnly u u ∧ Touches cycleFields u u := ⟨.refl u, .refl⟩
  have htrans {u v w : State} (h : RegsOnly u v ∧ Touches cycleFields u v) (h' : RegsOnly v w ∧ Touches cycleFields v w) :
      RegsOnly u w ∧ Touches cycleFields u w := ⟨h.1.trans h'.1, h.2.trans h'.2⟩
  have hadd (u : State) {f : Field} (hf : f ∈ cycleFields) (b : Bool) (i n : Nat) : RegsOnly u (if b then addCycles u f i n else u)
      ∧ Touches cycleFields u (if b then addCycles u f i n else u) :=
    ⟨RegsOnly.ite ((RegsOnly.refl u).wr f i _) (.refl u), Touches.ite (Touches.refl.wr f i _ hf) .refl⟩
  have hfold {g : State → Nat → State} (hg : ∀ v c, RegsOnly v (g v c) ∧ Touches cycleFields v (g v c)) (l : List Nat) (u : State) :
      RegsOnly u (l.foldl g u) ∧ Touches cycleFields u (l.foldl g u) :=
    foldl_frame (R := fun u v => RegsOnly u v ∧ Touches cycleFields u v) hrefl htrans hg l u
  have hsq (u : State) : RegsOnly u (sqCycles u) ∧ Touches cycleFields u (sqCycles u) :=
    hfold (fun v c => hadd v (by simp [cycleFields]) _ c _) (List.range 8) u
  have hisp (u : State) : RegsOnly u (ispCycles u) ∧ Touches cycleFields u (ispCycles u) :=
    hfold (fun v c => hadd v (by simp [cycleFields]) _ c _) (List.range 2) u
  have hpod (u : State) : RegsOnly u (podCycles u) ∧ Touches cycleFields u (podCycles u) :=
    hfold (fun v c => hadd v (by simp [cycleFields]) _ c _) (List.range 8) u
  exact htrans (htrans (hsq s) (hisp _)) (hpod _)

/-- What a nanosecond does before TB moves: registers, and the domains that the sequencer begins to switch. -/
def preTick (s : State) : State := powerFill (cycled s)

theorem preTick_rest (s : State) : preTick s = { s with regs := (preTick s).regs, pwrRun := (preTick s).pwrRun } := by
  have h := (cycled_only s).1
  unfold preTick powerFill
  generalize cycled s = w at h ⊢
  unfold RegsOnly at h
  rw [h]

theorem preTick_touches (s : State) : Touches cycleFields s (preTick s) := (cycled_only s).2.trans (.of_regs rfl)

/-- TB advances: D4 TIME works outside a reset, and the time PLL has a source (R193, R194, R33). -/
def tbRuns (s : State) : Bool :=
  domUp s 4 && !s.aDieReset && (isSet s F.GLB_STATUS_REF_LANE_OK || rd s F.TMB_STATUS_STATE ≠ 0)

theorem tbTick_eq (s : State) : tbTick s = { s with tb := if tbRuns s then (s.tb + 1) % 2 ^ 64 else s.tb } := by
  unfold tbTick
  change (if tbRuns s then _ else _) = _
  split <;> rfl

theorem tbRuns_tb (s : State) (x : Nat) : tbRuns { s with tb := x } = tbRuns s := rfl

theorem tbRuns_preTick (s : State) : tbRuns (preTick s) = tbRuns s := by
  have ht := preTick_touches s
  have hrest := preTick_rest s
  have hadie : (preTick s).aDieReset = s.aDieReset := by
    have e := congrArg State.aDieReset hrest
    exact e
  have hlane : (preTick s).laneStopped = s.laneStopped := by
    have e := congrArg State.laneStopped hrest
    exact e
  unfold tbRuns isSet
  rw [congrFun (domUp_congr (ht _ 0 (by decide)) (ht _ 0 (by decide)) hadie hlane) 4, hadie, ht _ 0 (by decide), ht _ 0 (by decide)]

/-- A nanosecond on which no device store waits moves TB by `time`, and the clock by one. -/
theorem pace_tickBy {time : State → State} {x : Nat} (htime : time (preTick s) = { preTick s with tb := x })
    (hq : ∀ c, c < 8 → (coreAt s c).storeQ = []) : (tickBy time s).tb = x ∧ (tickBy time s).ns = s.ns + 1
      ∧ (tickBy time s).slew = s.slew ∧ (tickBy time s).slewNext = s.slewNext := by
  have hrest := preTick_rest s
  have hns : (cycled s).ns = s.ns := by
    have h := (cycled_only s).1
    unfold RegsOnly at h
    rw [h]
  obtain ⟨u, hu⟩ : ∃ u : State, u = { time (preTick s) with
    ns := (cycled s).ns + 1, wokeNow := 0, darkNow := 0, bcnBusy := sfilter (fun k => k < 32 || 48 ≤ k) (cycled s).bcnBusy } := ⟨_, rfl⟩
  have hpace : pace u = (x, s.ns + 1, s.slew, s.slewNext, fun c => (coreAt s c).storeQ) := by
    unfold pace coreAt
    rw [hu, htime, hns, hrest]
  have hstill : Still u (uplinksTick (feedbackTick u)) := (feedbackTick_still u).trans (uplinksTick_still _)
  have hqu : queuesDrain (uplinksTick (feedbackTick u)) = uplinksTick (feedbackTick u) := by
    refine queuesDrain_of_empty fun c hc => ?_
    have h := congrFun (congrArg (fun p => p.2.2.2.2) (Eq.trans hstill hpace)) c
    exact h.trans (hq c hc)
  have htick : tickBy time s = dmaRetry (burstsDone (twnDrain (confirmEnter (queuesDrain (uplinksTick (feedbackTick u)))))) := by
    rw [hu]
    rfl
  have hall : Still u (tickBy time s) := by
    rw [htick, hqu]
    exact (((hstill.trans (confirmEnter_still _)).trans (twnDrain_still _)).trans (burstsDone_still _)).trans (dmaRetry_still _)
  have h := Eq.trans hall hpace
  unfold pace at h
  simp only [Prod.mk.injEq] at h
  exact ⟨h.1, h.2.1, h.2.2.1, h.2.2.2.1⟩

theorem pace_tick (hq : ∀ c, c < 8 → (coreAt s c).storeQ = []) : (tick s).ns = s.ns + 1
    ∧ (tick s).tb = if tbRuns s then (s.tb + 1) % 2 ^ 64 else s.tb := by
  have htb : (preTick s).tb = s.tb := by
    have e := congrArg State.tb (preTick_rest s)
    exact e
  have htime : tbTick (preTick s) = { preTick s with tb := if tbRuns s then (s.tb + 1) % 2 ^ 64 else s.tb } := by
    rw [tbTick_eq, tbRuns_preTick, htb]
  obtain ⟨h, hns, -⟩ := pace_tickBy htime hq
  exact ⟨hns, h⟩

end

/-- Settles O2: with no device store waiting, nothing that follows the nanosecond moves TB or the clock. -/
theorem emptyQueueCountsOneNanosecond : Obligations.EmptyQueueCountsOneNanosecond := by
  unfold Obligations.EmptyQueueCountsOneNanosecond
  intro s hpending hq
  obtain ⟨hns, htb⟩ := pace_tick hq
  unfold step
  rw [hpending]
  exact answers_finish fun t ht => ⟨ht.ns.trans hns, ht.tb.trans htb⟩

end Sys2Proof.Machine
end

section
/-! The timebase locks, captures, slews, loads and loses its references (R193 to R200). -/
open Sys2Proof
namespace Sys2Proof.Machine

section
variable {s t u v : State} {e : Int}

/-! ### TIMEREF (R194, R196) -/

theorem answers_freqLock (hworks : blockWorks s 4 = true) (hen : isSet s F.TMB_CTL_TIMEREF_EN = true)
    (hst : rd s F.TMB_STATUS_STATE = 0) : Answers (exec .timerefFreqLock s) fun t =>
      rd t F.TMB_STATUS_STATE = 1 ∧ rd t F.GLB_STATUS_TIMEREF_OK = 1 ∧ hasBit t F.TMB_EVT_EVT 0 0 = true
      ∧ Changes [(F.TMB_STATUS_STATE, 0), (F.GLB_STATUS_TIMEREF_OK, 0), (F.TMB_EVT_EVT, 0), (F.GLB_EVT_EVT, 0)] s t := by
  have hlock : freqLock s = setStatus (tmbEvt (wr s F.TMB_STATUS_STATE 0 1) 0) F.GLB_STATUS_TIMEREF_OK 3 true := by
    unfold freqLock
    rw [hen, hst, if_pos (by decide)]
  refine answers_inBlock (f := freqLock) hworks fun t ht => ?_
  rw [hlock] at ht
  refine ⟨?_, ?_, ?_, ht.changes (Keeps.setStatus ?_ _ 3 true (by simp) (by simp)) (RegsOnly.setStatus ?_ _ 3 true)⟩
  · rw [ht.rd, rd_setStatus_field _ _ _ _ _ _ (by decide) (by decide), tmbEvt, setBit_eq, rd_wr_field _ _ _ _ _ _ (by decide), rd_wr_same]
    rfl
  · rw [ht.rd]
    exact rd_setStatus_true (by decide) (by decide)
  · rw [ht.hasBit, hasBit, rd_setStatus_field _ _ _ _ _ _ (by decide) (by decide)]
    exact hasBit_setBit _ F.TMB_EVT_EVT 0 0 (by decide)
  · exact ((Keeps.refl _ s).wr _ _ _ (by simp)).wr F.TMB_EVT_EVT 0 _ (by simp)
  · exact ((RegsOnly.refl s).wr _ _ _).wr F.TMB_EVT_EVT 0 _

/-- Only registers and the count of good edges differ. -/
def GoodOnly (s t : State) : Prop := t = { s with regs := t.regs, ppsGood := t.ppsGood }

theorem toFree_shape (s : State) : ∃ u, RegsOnly s u ∧ Keeps [(F.TMB_STATUS_STATE, 0), (F.TMB_EVT_EVT, 0), (F.TMB_LOCK_LOSS_CNT_COUNT, 0)] s u
    ∧ (rd s F.TMB_STATUS_STATE ≠ 0 → hasBit u F.TMB_EVT_EVT 0 1 = true)
    ∧ toFree s = setStatus { wr u F.TMB_STATUS_STATE 0 0 with ppsGood := 0 } F.GLB_STATUS_TIMEREF_OK 3 false := by
  have hbump (w : State) (b : Nat) (hw : RegsOnly s w ∧ Keeps [(F.TMB_STATUS_STATE, 0), (F.TMB_EVT_EVT, 0), (F.TMB_LOCK_LOSS_CNT_COUNT, 0)] s w) :
      RegsOnly s (bump (tmbEvt w b) F.TMB_LOCK_LOSS_CNT_COUNT)
      ∧ Keeps [(F.TMB_STATUS_STATE, 0), (F.TMB_EVT_EVT, 0), (F.TMB_LOCK_LOSS_CNT_COUNT, 0)] s (bump (tmbEvt w b) F.TMB_LOCK_LOSS_CNT_COUNT) :=
    ⟨(hw.1.wr F.TMB_EVT_EVT 0 _).wr F.TMB_LOCK_LOSS_CNT_COUNT 0 _,
      (hw.2.wr F.TMB_EVT_EVT 0 _ (by simp)).wr F.TMB_LOCK_LOSS_CNT_COUNT 0 _ (by simp)⟩
  obtain ⟨w, hw⟩ : ∃ w, w = if rd s F.TMB_STATUS_STATE = 2 then bump (tmbEvt s 3) F.TMB_LOCK_LOSS_CNT_COUNT else s := ⟨_, rfl⟩
  have hwk : RegsOnly s w ∧ Keeps [(F.TMB_STATUS_STATE, 0), (F.TMB_EVT_EVT, 0), (F.TMB_LOCK_LOSS_CNT_COUNT, 0)] s w := by
    rw [hw]
    split
    · exact hbump s 3 ⟨.refl s, .refl _ s⟩
    · exact ⟨.refl s, .refl _ s⟩
  have hfree : toFree s = setStatus { wr (if rd s F.TMB_STATUS_STATE ≠ 0 then bump (tmbEvt w 1) F.TMB_LOCK_LOSS_CNT_COUNT else w)
      F.TMB_STATUS_STATE 0 0 with ppsGood := 0 } F.GLB_STATUS_TIMEREF_OK 3 false := by
    unfold toFree
    dsimp only
    rw [← hw]
  refine ⟨_, ?_, ?_, fun hne => ?_, hfree⟩
  · split
    · exact (hbump w 1 hwk).1
    · exact hwk.1
  · split
    · exact (hbump w 1 hwk).2
    · exact hwk.2
  · rw [if_pos hne, hasBit, bump_eq, rd_wr_field _ _ _ _ _ _ (by decide)]
    exact hasBit_setBit _ F.TMB_EVT_EVT 0 1 (by decide)

theorem answers_timerefLost (hworks : blockWorks s 4 = true) : Answers (exec .timerefLost s) fun t =>
    rd t F.TMB_STATUS_STATE = 0 ∧ rd t F.GLB_STATUS_TIMEREF_OK = 0 ∧ t.tb = s.tb
    ∧ (rd s F.TMB_STATUS_STATE ≠ 0 → hasBit t F.TMB_EVT_EVT 0 1 = true)
    ∧ Keeps [(F.TMB_STATUS_STATE, 0), (F.GLB_STATUS_TIMEREF_OK, 0), (F.TMB_EVT_EVT, 0), (F.TMB_LOCK_LOSS_CNT_COUNT, 0),
        (F.GLB_EVT_EVT, 0)] s t := by
  obtain ⟨u, hu, huk, hevt, hfree⟩ := toFree_shape s
  obtain ⟨w, hw⟩ : ∃ w : State, w = { wr u F.TMB_STATUS_STATE 0 0 with ppsGood := 0 } := ⟨_, rfl⟩
  have hwr (f : Field) : rd w f = rd (wr u F.TMB_STATUS_STATE 0 0) f := by rw [hw]; rfl
  rw [← hw] at hfree
  refine answers_inBlock (f := toFree) hworks fun t ht => ?_
  rw [hfree] at ht
  refine ⟨?_, ?_, ?_, fun hne => ?_, ht.keeps (Keeps.setStatus ?_ _ 3 false (by simp) (by simp))⟩
  · rw [ht.rd, rd_setStatus_field _ _ _ _ _ _ (by decide) (by decide), hwr, rd_wr_same]
    rfl
  · rw [ht.rd]
    exact rd_setStatus_false _ _ _ (by decide)
  · have h : (setStatus w F.GLB_STATUS_TIMEREF_OK 3 false).tb = w.tb := by
      have e := congrArg State.tb ((RegsOnly.refl w).setStatus F.GLB_STATUS_TIMEREF_OK 3 false)
      exact e
    have hu' := congrArg State.tb hu
    rw [ht.tb, h, hw]
    exact hu'
  · rw [ht.hasBit, hasBit, rd_setStatus_field _ _ _ _ _ _ (by decide) (by decide), hwr, rd_wr_field _ _ _ _ _ _ (by decide)]
    exact hevt hne
  · rw [hw]
    refine Keeps.of_regs (u := wr u F.TMB_STATUS_STATE 0 0) ?_ rfl
    exact (huk.mono (by simp)).wr F.TMB_STATUS_STATE 0 _ (by simp)

/-! ### The loss of PPS (R196) -/

theorem leavePhase_of_not (h : rd s F.TMB_STATUS_STATE ≠ 2) : leavePhase s = s := if_neg h

theorem leavePhase_of (h : rd s F.TMB_STATUS_STATE = 2) : leavePhase s
    = { bump (tmbEvt (wr s F.TMB_STATUS_STATE 0 1) 3) F.TMB_LOCK_LOSS_CNT_COUNT with ppsGood := 0 } := if_pos h

theorem answers_ppsTimeout (hworks : blockWorks s 4 = true) (hlate : s.ppsLast + 1100000000 ≤ s.ns) :
    Answers (exec .ppsTimeout s) fun t => rd t F.GLB_STATUS_PPS_OK = 0
      ∧ (rd s F.TMB_STATUS_STATE = 2 → rd t F.TMB_STATUS_STATE = 1 ∧ hasBit t F.TMB_EVT_EVT 0 3 = true
        ∧ rd t F.TMB_LOCK_LOSS_CNT_COUNT = min (rd s F.TMB_LOCK_LOSS_CNT_COUNT + 1) (2 ^ 32 - 1))
      ∧ (rd s F.TMB_STATUS_STATE ≠ 2 → Keeps [(F.GLB_STATUS_PPS_OK, 0), (F.GLB_EVT_EVT, 0)] s t) := by
  obtain ⟨w, hw⟩ : ∃ w, w = setStatus s F.GLB_STATUS_PPS_OK 4 false := ⟨_, rfl⟩
  have hout : ppsTimeout s = leavePhase w := by
    rw [hw]
    exact if_neg (by omega)
  have hrd (f : Field) (h1 : F.GLB_STATUS_PPS_OK.fid % 1024 ≠ f.fid % 1024) (h2 : F.GLB_EVT_EVT.fid % 1024 ≠ f.fid % 1024) :
      rd w f = rd s f := by rw [hw]; exact rd_setStatus_field _ _ _ _ _ _ h1 h2
  have hok : rd w F.GLB_STATUS_PPS_OK = 0 := by rw [hw]; exact rd_setStatus_false _ _ _ (by decide)
  have hwk : Keeps [(F.GLB_STATUS_PPS_OK, 0), (F.GLB_EVT_EVT, 0)] s w := by
    rw [hw]
    exact (Keeps.refl _ s).setStatus _ 4 false (by simp) (by simp)
  have hstate := hrd F.TMB_STATUS_STATE (by decide) (by decide)
  refine answers_inBlock (f := ppsTimeout) hworks fun t ht => ?_
  rw [hout] at ht
  by_cases h2 : rd s F.TMB_STATUS_STATE = 2
  · rw [leavePhase_of (hstate.trans h2)] at ht
    have htr (f : Field) : rd t f = rd (bump (tmbEvt (wr w F.TMB_STATUS_STATE 0 1) 3) F.TMB_LOCK_LOSS_CNT_COUNT) f := ht.rd f 0
    refine ⟨?_, fun _ => ⟨?_, ?_, ?_⟩, fun h => absurd h2 h⟩
    · rw [htr, bump_eq, tmbEvt, setBit_eq]
      simp (disch := decide) only [rd_wr_field]
      exact hok
    · rw [htr, bump_eq, tmbEvt, setBit_eq]
      simp (disch := decide) only [rd_wr_field, rd_wr_same]
      rfl
    · rw [hasBit, htr, bump_eq, rd_wr_field _ _ _ _ _ _ (by decide)]
      exact hasBit_setBit _ F.TMB_EVT_EVT 0 3 (by decide)
    · rw [htr, rd_bump, tmbEvt, setBit_eq]
      simp (disch := decide) only [rd_wr_field]
      rw [hrd _ (by decide) (by decide)]
      rfl
  · rw [leavePhase_of_not (by rw [hstate]; exact h2)] at ht
    exact ⟨(ht.rd _ _).trans hok, fun h => absurd h h2, fun _ => ht.keeps hwk⟩

/-! ### Loads (R198) -/

/-- What bars a load does not ask of the rest of the state. -/
theorem loadBarred_congr {fs : List Field} (ht : Touches fs s u) (hfs : ∀ g ∈ fs, g.fid % 1024 ≠ F.FCG_STATUS_LOOP.fid % 1024
    ∧ g.fid % 1024 ≠ F.TRG_PAIR_CFG_EN.fid % 1024) (htrg : u.trg = s.trg) : loadBarred u = loadBarred s := by
  unfold loadBarred fcgRuns pendingPulses ownerOf paired isSet trgAt
  rw [htrg]
  simp only [ht F.FCG_STATUS_LOOP _ fun g hg => (hfs g hg).1, ht F.TRG_PAIR_CFG_EN _ fun g hg => (hfs g hg).2]

theorem loadTb_of_free (h : loadBarred s = false) : loadTb s = tmbEvt { s with tb := rd s F.TMB_LOAD_VALUE, slew := 0 } 5 := by
  unfold loadTb
  rw [h, if_neg Bool.false_ne_true]

theorem answers_loadNow (hreach : blockReach s 4 = true) (hfree : loadBarred s = false) : Answers (exec .loadNow s) fun t =>
    hasBit t F.TMB_EVT_EVT 0 5 = true ∧ Keeps [(F.TMB_EVT_EVT, 0)] s t
    ∧ Settled { s with regs := t.regs, tb := rd s F.TMB_LOAD_VALUE, slew := 0 } t := by
  refine answers_reach (f := loadTb) hreach fun t ht => ?_
  rw [loadTb_of_free hfree] at ht
  refine ⟨?_, ht.keeps (((Keeps.refl _ s).of_regs rfl).wr F.TMB_EVT_EVT 0 _ (by simp)), ?_⟩
  · rw [ht.hasBit]
    exact hasBit_setBit _ F.TMB_EVT_EVT 0 5 (by decide)
  · rw [ht.regs]
    exact ht

theorem answers_loadAtPps (hreach : blockReach s 4 = true) (hfree : loadBarred s = false) : Answers (exec .loadAtPps s) fun t =>
    rd t F.TMB_STATUS_LOAD_PENDING = 1 ∧ Changes [(F.TMB_STATUS_LOAD_PENDING, 0)] s t := by
  refine answers_reach (f := loadAtPps) hreach fun t ht => ?_
  unfold loadAtPps at ht
  rw [hfree, if_neg Bool.false_ne_true] at ht
  refine ⟨?_, ht.changes ((Keeps.refl _ s).wr _ _ _ (by simp)) ((RegsOnly.refl s).wr _ _ _)⟩
  rw [ht.rd, rd_wr_same]
  rfl

theorem answers_loadRefused (hreach : blockReach s 4 = true) (hbar : loadBarred s = true) :
    ∀ i ∈ [Instr.loadNow, .loadAtPps], Answers (exec i s) fun t =>
      hasBit t F.TMB_EVT_EVT 0 6 = true ∧ Changes [(F.TMB_EVT_EVT, 0)] s t := by
  have hrep {f : State → State} (hf : f s = tmbEvt s 6) : Answers (finish s (inReach 4 s f)) fun t =>
      hasBit t F.TMB_EVT_EVT 0 6 = true ∧ Changes [(F.TMB_EVT_EVT, 0)] s t := by
    refine answers_reach hreach fun t ht => ?_
    rw [hf] at ht
    refine ⟨?_, ht.changes ((Keeps.refl _ s).wr F.TMB_EVT_EVT 0 _ (by simp)) ((RegsOnly.refl s).wr F.TMB_EVT_EVT 0 _)⟩
    rw [ht.hasBit]
    exact hasBit_setBit _ F.TMB_EVT_EVT 0 6 (by decide)
  intro i hi
  simp only [List.mem_cons, List.not_mem_nil, or_false] at hi
  rcases hi with rfl | rfl
  · exact hrep (f := loadTb) (if_pos hbar)
  · exact hrep (f := loadAtPps) (if_pos hbar)

theorem answers_cancelLoad (hreach : blockReach s 4 = true) : Answers (exec .cancelLoad s) fun t =>
    rd t F.TMB_STATUS_LOAD_PENDING = 0 ∧ Changes [(F.TMB_STATUS_LOAD_PENDING, 0)] s t := by
  refine answers_reach (f := fun s => wr s F.TMB_STATUS_LOAD_PENDING 0 0) hreach fun t ht => ?_
  refine ⟨?_, ht.changes ((Keeps.refl _ s).wr _ _ _ (by simp)) ((RegsOnly.refl s).wr _ _ _)⟩
  rw [ht.rd, rd_wr_same]
  rfl

/-! ### An edge of PPS (R195, R196) -/

theorem phaseError_eq {tb off : Nat} (h : ∃ k : Int, e = (tb : Int) - off + k * 1000000000) (hlo : -500000000 ≤ e)
    (hhi : e < 500000000) : phaseError tb off = e := by
  obtain ⟨k, hk⟩ := h
  unfold phaseError
  omega

/-- The registers that an edge changes before its capture. -/
def edgeFields : List Field := [F.GLB_STATUS_PPS_OK, F.GLB_EVT_EVT, F.TMB_CTL_PPS_EN] ++ beaconFields

/-- The edge has been seen: PPS_OK, the producer, and AUTO's PPS_EN (R200). -/
def edgeSeen (s : State) : State :=
  let s := fireProducer (setStatus { s with ppsLast := s.ns } F.GLB_STATUS_PPS_OK 4 true) 44
  if isSet s F.TMB_CTL_AUTO && rd s F.TMB_STATUS_STATE ≠ 0 && twnState s ≠ twALIGN && twnState s ≠ twWATCH
  then wr s F.TMB_CTL_PPS_EN 0 1 else s

theorem edgeSeen_shape (s : State) : ∃ u, FiresOnly { s with ppsLast := s.ns } u ∧ Touches edgeFields s u
    ∧ rd u F.GLB_STATUS_PPS_OK = 1 ∧ rd u F.TMB_CTL_PPS_EN = rd s F.TMB_CTL_PPS_EN
    ∧ edgeSeen s = if isSet u F.TMB_CTL_AUTO && rd u F.TMB_STATUS_STATE ≠ 0 && twnState u ≠ twALIGN && twnState u ≠ twWATCH
      then wr u F.TMB_CTL_PPS_EN 0 1 else u := by
  obtain ⟨w, hw⟩ : ∃ w, w = setStatus { s with ppsLast := s.ns } F.GLB_STATUS_PPS_OK 4 true := ⟨_, rfl⟩
  have hwo : RegsOnly { s with ppsLast := s.ns } w := by
    rw [hw]
    exact (RegsOnly.refl _).setStatus _ 4 true
  have hwt : Keeps [(F.GLB_STATUS_PPS_OK, 0), (F.GLB_EVT_EVT, 0)] s w := by
    rw [hw]
    refine Keeps.setStatus ?_ _ 4 true (by simp) (by simp)
    exact (Keeps.refl _ s).of_regs rfl
  have hfire := fireProducer_touches w 44
  refine ⟨fireProducer w 44, hwo.firesOnly.trans (fireProducer_firesOnly w 44), ?_, ?_, ?_, ?_⟩
  · exact ((hwt.touches (fs := [F.GLB_STATUS_PPS_OK, F.GLB_EVT_EVT]) rfl).mono (by decide)).trans (hfire.mono (by decide))
  · rw [hfire _ _ (by decide), hw]
    exact rd_setStatus_true (by decide) (by decide)
  · rw [hfire _ _ (by decide)]
    exact hwt _ _ (by decide)
  · unfold edgeSeen
    rw [hw]

/-- What an edge that is seen shows. -/
structure Seen (s u : State) : Prop where
  rest : FiresOnly { s with ppsLast := s.ns } u
  touches : Touches edgeFields s u
  ok : rd u F.GLB_STATUS_PPS_OK = 1

theorem edgeSeen_seen (s : State) : Seen s (edgeSeen s) := by
  obtain ⟨u, hu, ht, hok, -, hedge⟩ := edgeSeen_shape s
  rw [hedge]
  split
  · refine ⟨hu.trans (RegsOnly.firesOnly ((RegsOnly.refl u).wr _ _ _)), ht.wr _ _ _ (by simp [edgeFields]), ?_⟩
    rw [rd_wr_field _ _ _ _ _ _ (by decide)]
    exact hok
  · exact ⟨hu, ht, hok⟩

theorem isSet_edgeSeen (h : isSet s F.TMB_CTL_PPS_EN = true) : isSet (edgeSeen s) F.TMB_CTL_PPS_EN = true := by
  obtain ⟨u, -, -, -, hen, hedge⟩ := edgeSeen_shape s
  rw [hedge]
  split
  · unfold isSet
    rw [rd_wr_same]
    rfl
  · exact (isSet_congr hen).trans h

theorem isSet_edgeSeen_off (hauto : isSet s F.TMB_CTL_AUTO = false) (h : isSet s F.TMB_CTL_PPS_EN = false) :
    isSet (edgeSeen s) F.TMB_CTL_PPS_EN = false := by
  obtain ⟨u, -, ht, -, hen, hedge⟩ := edgeSeen_shape s
  have hauto' : isSet u F.TMB_CTL_AUTO = false := (isSet_congr (ht _ _ (by decide))).trans hauto
  rw [hedge, hauto']
  simp only [Bool.false_and, Bool.false_eq_true, if_false]
  exact (isSet_congr hen).trans h

/-- The capture of an edge, where PPS_EN lets it, and what the loop makes of its error (R195, R196). -/
def edgeJudged (s : State) : State :=
  if isSet s F.TMB_CTL_PPS_EN then
    let e := phaseError s.tb (rd s F.TMB_PPS_OFFSET_VALUE)
    let s := wr s F.TMB_PPS_TB_VALUE 0 s.tb
    let s := wr s F.TMB_PHASE_ERR_VALUE 0 (fromSigned 32 (satSigned 32 e))
    tmbEvt (judgePhase { s with slew := e } e) 4
  else s

theorem ppsEdge_eq (s : State) : ppsEdge s = if isSet (edgeJudged (edgeSeen s)) F.TMB_STATUS_LOAD_PENDING
    then loadTb (wr (edgeJudged (edgeSeen s)) F.TMB_STATUS_LOAD_PENDING 0 0) else edgeJudged (edgeSeen s) := rfl

/-- An edge without PPS_EN performs the load that is pending. -/
theorem answers_ppsLoad (hworks : blockWorks s 4 = true) (hfree : loadBarred s = false)
    (hpend : isSet s F.TMB_STATUS_LOAD_PENDING = true) (hen : isSet s F.TMB_CTL_PPS_EN = false)
    (hauto : isSet s F.TMB_CTL_AUTO = false) : Answers (exec .ppsEdge s) fun t =>
      t.tb = rd s F.TMB_LOAD_VALUE ∧ rd t F.TMB_STATUS_LOAD_PENDING = 0 ∧ hasBit t F.TMB_EVT_EVT 0 5 = true := by
  obtain ⟨hrest, ht, -⟩ := edgeSeen_seen s
  have hen' := isSet_edgeSeen_off hauto hen
  obtain ⟨w, hw⟩ : ∃ w, w = edgeSeen s := ⟨_, rfl⟩
  rw [← hw] at hrest ht hen'
  have hpend' : isSet w F.TMB_STATUS_LOAD_PENDING = true := (isSet_congr (ht _ _ (by decide))).trans hpend
  have htrg : w.trg = s.trg := by
    have x := congrArg State.trg hrest
    exact x
  have hbar : loadBarred (wr w F.TMB_STATUS_LOAD_PENDING 0 0) = false := by
    rw [loadBarred_congr (fs := F.TMB_STATUS_LOAD_PENDING :: edgeFields) (s := s) ((ht.mono fun f hf => .tail _ hf).wr _ _ _ (by simp)) (by decide) htrg]
    exact hfree
  have hedge : ppsEdge s = tmbEvt { wr w F.TMB_STATUS_LOAD_PENDING 0 0 with
      tb := rd (wr w F.TMB_STATUS_LOAD_PENDING 0 0) F.TMB_LOAD_VALUE, slew := 0 } 5 := by
    rw [← loadTb_of_free hbar]
    rw [ppsEdge_eq, ← hw, edgeJudged, hen', if_neg Bool.false_ne_true, hpend', if_pos rfl]
  refine answers_inBlock (f := ppsEdge) hworks fun t hs => ?_
  rw [hedge] at hs
  refine ⟨?_, ?_, ?_⟩
  · rw [hs.tb]
    exact (rd_wr_field _ _ _ _ _ _ (by decide)).trans (ht _ _ (by decide))
  · rw [hs.rd, tmbEvt, setBit_eq, rd_wr_field _ _ _ _ _ _ (by decide)]
    exact rd_wr_same w F.TMB_STATUS_LOAD_PENDING 0 0
  · rw [hs.hasBit]
    exact hasBit_setBit _ F.TMB_EVT_EVT 0 5 (by decide)

/-- The good errors in a row, with that of an edge (R196). -/
def goodRun (s : State) (e : Int) : Nat := if e.natAbs ≤ 2 then s.ppsGood + 1 else 0

theorem judgePhase_eq (h : rd s F.TMB_STATUS_STATE = 1) : judgePhase s e = if 3 ≤ goodRun s e
    then { tmbEvt (wr s F.TMB_STATUS_STATE 0 2) 2 with ppsGood := goodRun s e } else { s with ppsGood := goodRun s e } := by
  unfold judgePhase
  rw [h]
  dsimp only
  rfl

/-- In FREQ, an edge counts the good errors in a row; the third enters PHASE (R196). -/
theorem judgePhase_freq (h : rd s F.TMB_STATUS_STATE = 1) : GoodOnly s (judgePhase s e)
    ∧ Touches [F.TMB_STATUS_STATE, F.TMB_EVT_EVT] s (judgePhase s e)
    ∧ (e.natAbs ≤ 2 → s.ppsGood = 2 → judgePhase s e = { tmbEvt (wr s F.TMB_STATUS_STATE 0 2) 2 with ppsGood := 3 })
    ∧ (2 < e.natAbs → judgePhase s e = { s with ppsGood := 0 }) := by
  have hwr : Touches [F.TMB_STATUS_STATE, F.TMB_EVT_EVT] s (tmbEvt (wr s F.TMB_STATUS_STATE 0 2) 2) :=
    (Touches.refl.wr F.TMB_STATUS_STATE 0 2 (by simp)).wr F.TMB_EVT_EVT 0 _ (by simp)
  rw [judgePhase_eq h]
  refine ⟨?_, ?_, fun hs h2 => ?_, fun hs => ?_⟩
  · split <;> rfl
  · split
    · exact hwr.trans (.of_regs rfl)
    · exact .of_regs rfl
  · have hn : goodRun s e = 3 := by
      unfold goodRun
      rw [if_pos hs, h2]
    rw [hn, if_pos (by decide)]
  · have hn : goodRun s e = 0 := if_neg (by omega)
    rw [hn, if_neg (by decide)]

theorem satSigned_of_fits (hlo : -500000000 ≤ e) (hhi : e < 500000000) : satSigned 32 e = e := by
  unfold satSigned
  rw [if_neg (by omega), if_neg (by omega)]

theorem fromSigned_lt (w : Nat) (e : Int) : fromSigned w e < 2 ^ w := by
  have h := Int.emod_lt_of_pos e (show (0 : Int) < 2 ^ w by positivity)
  have h0 := Int.emod_nonneg e (show (2 : Int) ^ w ≠ 0 by positivity)
  unfold fromSigned
  zify
  rw [Int.toNat_of_nonneg h0]
  exact h

/-- The capture of an edge. -/
def edgeCapture (s : State) (e : Int) : State :=
  { wr (wr s F.TMB_PPS_TB_VALUE 0 s.tb) F.TMB_PHASE_ERR_VALUE 0 (fromSigned 32 e) with slew := e }

theorem answers_ppsEdge (hworks : blockWorks s 4 = true) (hen : isSet s F.TMB_CTL_PPS_EN = true) (hst : rd s F.TMB_STATUS_STATE = 1)
    (hpend : isSet s F.TMB_STATUS_LOAD_PENDING = false)
    (hphase : ∃ k : Int, e = (s.tb : Int) - rd s F.TMB_PPS_OFFSET_VALUE + k * 1000000000) (hlo : -500000000 ≤ e)
    (hhi : e < 500000000) : Answers (exec .ppsEdge s) fun t =>
      rd t F.TMB_PPS_TB_VALUE = s.tb % 2 ^ 64 ∧ t.slew = e ∧ rd t F.TMB_PHASE_ERR_VALUE = fromSigned 32 e ∧ t.tb = s.tb
      ∧ rd t F.GLB_STATUS_PPS_OK = 1 ∧ hasBit t F.TMB_EVT_EVT 0 4 = true ∧ t.ppsLast = s.ns
      ∧ (e.natAbs ≤ 2 → s.ppsGood = 2 → rd t F.TMB_STATUS_STATE = 2 ∧ hasBit t F.TMB_EVT_EVT 0 2 = true)
      ∧ (2 < e.natAbs → rd t F.TMB_STATUS_STATE = 1 ∧ t.ppsGood = 0) := by
  obtain ⟨hrest, ht, hok⟩ := edgeSeen_seen s
  have hen' := isSet_edgeSeen hen
  obtain ⟨w, hw⟩ : ∃ w, w = edgeSeen s := ⟨_, rfl⟩
  rw [← hw] at hrest ht hok hen'
  have htb : w.tb = s.tb := by have x := congrArg State.tb hrest; exact x
  have hgood : w.ppsGood = s.ppsGood := by have x := congrArg State.ppsGood hrest; exact x
  have hlast : w.ppsLast = s.ns := by have x := congrArg State.ppsLast hrest; exact x
  obtain ⟨a, ha⟩ : ∃ a, a = edgeCapture w e := ⟨_, rfl⟩
  have hard (f : Field) : rd a f = rd (wr (wr w F.TMB_PPS_TB_VALUE 0 w.tb) F.TMB_PHASE_ERR_VALUE 0 (fromSigned 32 e)) f := by
    rw [ha]; rfl
  have hast : rd a F.TMB_STATUS_STATE = 1 := by
    rw [hard, rd_wr_field _ _ _ _ _ _ (by decide), rd_wr_field _ _ _ _ _ _ (by decide), ht _ _ (by decide), hst]
  obtain ⟨hbo, hbt, hthird, hfar⟩ := judgePhase_freq (e := e) hast
  obtain ⟨b, hb⟩ : ∃ b, b = judgePhase a e := ⟨_, rfl⟩
  rw [← hb] at hbo hbt hthird hfar
  have hjudged : edgeJudged w = tmbEvt b 4 := by
    have hoff : phaseError w.tb (rd w F.TMB_PPS_OFFSET_VALUE) = e := by
      rw [htb, ht _ _ (by decide)]
      exact phaseError_eq hphase hlo hhi
    unfold edgeJudged
    rw [if_pos hen', hoff]
    dsimp only
    rw [satSigned_of_fits hlo hhi, hb, ha]
    rfl
  have hpend' : isSet (tmbEvt b 4) F.TMB_STATUS_LOAD_PENDING = false := by
    refine (isSet_congr ?_).trans hpend
    rw [tmbEvt, setBit_eq, rd_wr_field _ _ _ _ _ _ (by decide), hbt _ _ (by decide), hard, rd_wr_field _ _ _ _ _ _ (by decide),
      rd_wr_field _ _ _ _ _ _ (by decide), ht _ _ (by decide)]
  have hedge : ppsEdge s = tmbEvt b 4 := by
    rw [ppsEdge_eq, ← hw, hjudged, hpend', if_neg Bool.false_ne_true]
  refine answers_inBlock (f := ppsEdge) hworks fun t hs => ?_
  rw [hedge] at hs
  have hb4 (f : Field) (hf : F.TMB_EVT_EVT.fid % 1024 ≠ f.fid % 1024) : rd t f = rd b f :=
    (hs.rd f 0).trans (rd_wr_field _ _ _ _ _ _ hf)
  have hbslew : b.slew = e := by
    have x := congrArg State.slew hbo
    exact x.trans (by rw [ha]; rfl)
  have hbtb : b.tb = s.tb := by
    have x := congrArg State.tb hbo
    exact x.trans (by rw [ha]; exact htb)
  have hblast : b.ppsLast = s.ns := by
    have x := congrArg State.ppsLast hbo
    exact x.trans (by rw [ha]; exact hlast)
  have hagood : a.ppsGood = s.ppsGood := by rw [ha]; exact hgood
  refine ⟨?_, hs.slew.trans hbslew, ?_, hs.tb.trans hbtb, ?_, ?_, hs.ppsLast.trans hblast, fun hsm h2 => ⟨?_, ?_⟩,
    fun hbig => ⟨?_, ?_⟩⟩
  · rw [hb4 _ (by decide), hbt _ _ (by decide), hard, rd_wr_field _ _ _ _ _ _ (by decide), rd_wr_same, htb]
    rfl
  · rw [hb4 _ (by decide), hbt _ _ (by decide), hard, rd_wr_same]
    exact Nat.mod_eq_of_lt (fromSigned_lt 32 e)
  · rw [hb4 _ (by decide), hbt _ _ (by decide), hard, rd_wr_field _ _ _ _ _ _ (by decide), rd_wr_field _ _ _ _ _ _ (by decide), hok]
  · rw [hs.hasBit]
    exact hasBit_setBit _ F.TMB_EVT_EVT 0 4 (by decide)
  · rw [hb4 _ (by decide), hthird hsm (hagood.trans h2)]
    refine (rd_wr_field _ F.TMB_EVT_EVT F.TMB_STATUS_STATE 0 0 _ (by decide)).trans ?_
    exact rd_wr_same a F.TMB_STATUS_STATE 0 2
  · have h2b : hasBit b F.TMB_EVT_EVT 0 2 = true := by
      rw [hthird hsm (hagood.trans h2)]
      exact hasBit_setBit (wr a F.TMB_STATUS_STATE 0 2) F.TMB_EVT_EVT 0 2 (by decide)
    rw [hs.hasBit]
    exact hasBit_setBit_of b F.TMB_EVT_EVT 0 4 2 (by decide) h2b
  · rw [hb4 _ (by decide), hfar hbig]
    exact hast
  · rw [hs.ppsGood]
    have hbg : b.ppsGood = 0 := by rw [hfar hbig]
    exact hbg

/-! ### The correction of TB (R195) -/

theorem answers_slewHolds (hworks : blockWorks s 4 = true) (hdue : s.slewNext ≤ s.ns) (hq : ∀ c, c < 8 → (coreAt s c).storeQ = [])
    (hpos : 0 < s.slew) : Answers (exec .tbSlewTick s) fun t =>
      t.ns = s.ns + 1 ∧ t.tb = s.tb ∧ t.slew = s.slew - 1 ∧ t.slewNext = s.ns + 10000 := by
  obtain ⟨w, hw⟩ : ∃ w : State, w = { s with slew := s.slew - 1, slewNext := s.ns + 10000 } := ⟨_, rfl⟩
  have htick : slewTick s = tickBy id w := by
    unfold slewTick
    rw [if_neg (by simp only [Bool.or_eq_true, decide_eq_true_eq]; omega), if_pos hpos, hw]
  have htb : (preTick w).tb = s.tb := by
    have x := congrArg State.tb (preTick_rest w)
    exact x.trans (by rw [hw])
  obtain ⟨h1, h2, h3, h4⟩ := pace_tickBy (s := w) (time := id) (x := s.tb) (by rw [← htb]; rfl) (by rw [hw]; exact hq)
  refine answers_inBlock (f := slewTick) hworks fun t ht => ?_
  rw [htick] at ht
  exact ⟨ht.ns.trans (h2.trans (by rw [hw])), ht.tb.trans h1, ht.slew.trans (h3.trans (by rw [hw])),
    ht.slewNext.trans (h4.trans (by rw [hw]))⟩

theorem answers_slewAdds (hworks : blockWorks s 4 = true) (hdue : s.slewNext ≤ s.ns) (hq : ∀ c, c < 8 → (coreAt s c).storeQ = [])
    (hneg : s.slew < 0) (hadie : s.aDieReset = false) (href : isSet s F.GLB_STATUS_REF_LANE_OK = true) :
    Answers (exec .tbSlewTick s) fun t =>
      t.ns = s.ns + 1 ∧ t.tb = (s.tb + 2) % 2 ^ 64 ∧ t.slew = s.slew + 1 ∧ t.slewNext = s.ns + 10000 := by
  obtain ⟨w, hw⟩ : ∃ w : State, w = { s with slew := s.slew + 1, slewNext := s.ns + 10000 } := ⟨_, rfl⟩
  have htick : slewTick s = tickBy (fun u => tbTick (tbTick u)) w := by
    unfold slewTick
    rw [if_neg (by simp only [Bool.or_eq_true, decide_eq_true_eq]; omega), if_neg (by omega), hw]
  have hruns : tbRuns w = true := by
    have h : tbRuns s = true := by
      unfold tbRuns
      rw [domUp_of_blockWorks hworks rfl, hadie, href]
      rfl
    rw [hw]
    exact h
  have htb : (preTick w).tb = s.tb := by
    have x := congrArg State.tb (preTick_rest w)
    exact x.trans (by rw [hw])
  have htime : tbTick (tbTick (preTick w)) = { preTick w with tb := (s.tb + 2) % 2 ^ 64 } := by
    have hone : tbTick (preTick w) = { preTick w with tb := (s.tb + 1) % 2 ^ 64 } := by
      rw [tbTick_eq, tbRuns_preTick, hruns, htb, if_pos rfl]
    rw [hone, tbTick_eq, tbRuns_tb, tbRuns_preTick, hruns, if_pos rfl]
    dsimp only
    rw [show ((s.tb + 1) % 2 ^ 64 + 1) % 2 ^ 64 = (s.tb + 2) % 2 ^ 64 by omega]
  obtain ⟨h1, h2, h3, h4⟩ := pace_tickBy (s := w) (time := fun u => tbTick (tbTick u)) htime (by rw [hw]; exact hq)
  refine answers_inBlock (f := slewTick) hworks fun t ht => ?_
  rw [htick] at ht
  exact ⟨ht.ns.trans (h2.trans (by rw [hw])), ht.tb.trans h1, ht.slew.trans (h3.trans (by rw [hw])),
    ht.slewNext.trans (h4.trans (by rw [hw]))⟩

end

/-- Settles O26, clause by clause. -/
theorem timebaseLocksSlewsAndLoads : Obligations.TimebaseLocksSlewsAndLoads := by
  unfold Obligations.TimebaseLocksSlewsAndLoads
  intro s hworks
  refine ⟨answers_freqLock hworks, ?_, fun hdue hq => ⟨?_, ?_⟩, answers_timerefLost hworks, answers_ppsTimeout hworks,
    fun hreach => ⟨fun hfree => ⟨answers_loadNow hreach hfree, answers_loadAtPps hreach hfree, ?_⟩, answers_loadRefused hreach,
      answers_cancelLoad hreach⟩⟩
  · exact fun e hen hst hpend hphase hlo hhi => answers_ppsEdge hworks hen hst hpend hphase hlo hhi
  · exact fun hpos => answers_slewHolds hworks hdue hq hpos
  · exact fun hneg hadie href => answers_slewAdds hworks hdue hq hneg hadie href
  · exact fun hpend hen hauto => answers_ppsLoad hworks hfree hpend hen hauto

end Sys2Proof.Machine
end

section
/-! A receive side: rules of its state, and its bring-up, stage by stage (R245, R246, R251, R255). -/
open Sys2Proof
namespace Sys2Proof.Machine

section
variable {s t u v : State} {fs : List Field} {n : Nat}

/-! ### Registers of a port or of the twin's lane -/

theorem rxGet_touches (h : Touches fs s u) {p q : Field} (hp : ∀ g ∈ fs, g.fid % 1024 ≠ p.fid % 1024)
    (hq : ∀ g ∈ fs, g.fid % 1024 ≠ q.fid % 1024) (n : Nat) : rxGet u n p q = rxGet s n p q := by
  unfold rxGet
  rw [h p n hp, h q 0 hq]

theorem rxSet_touches (s : State) (n : Nat) (p q : Field) (x : Nat) : Touches [p, q] s (rxSet s n p q x) := by
  unfold rxSet
  exact Touches.ite (Touches.refl.wr _ _ _ (by simp)) (Touches.refl.wr _ _ _ (by simp))

theorem rxSet_regsOnly (s : State) (n : Nat) (p q : Field) (x : Nat) : RegsOnly s (rxSet s n p q x) := by
  unfold rxSet
  exact RegsOnly.ite ((RegsOnly.refl s).wr _ _ _) ((RegsOnly.refl s).wr _ _ _)

theorem rxGet_rxSet (s : State) (n : Nat) {p q : Field} {x : Nat} (hp : x < 2 ^ p.width) (hq : x < 2 ^ q.width) :
    rxGet (rxSet s n p q x) n p q = x := by
  unfold rxGet rxSet
  split
  · rw [rd_wr_same, Nat.mod_eq_of_lt hq]
  · rw [rd_wr_same, Nat.mod_eq_of_lt hp]

theorem laneSet_touches (s : State) (n j : Nat) (p q : Field) (x : Nat) : Touches [p, q] s (laneSet s n j p q x) := by
  unfold laneSet
  exact Touches.ite (Touches.refl.wr _ _ _ (by simp)) (Touches.refl.wr _ _ _ (by simp))

theorem laneSet_regsOnly (s : State) (n j : Nat) (p q : Field) (x : Nat) : RegsOnly s (laneSet s n j p q x) := by
  unfold laneSet
  exact RegsOnly.ite ((RegsOnly.refl s).wr _ _ _) ((RegsOnly.refl s).wr _ _ _)

theorem laneBump_touches (s : State) (n j : Nat) (p q : Field) : Touches [p, q] s (laneBump s n j p q) := by
  unfold laneBump
  exact Touches.ite (Touches.refl.wr _ _ _ (by simp)) (Touches.refl.wr _ _ _ (by simp))

theorem laneBump_regsOnly (s : State) (n j : Nat) (p q : Field) : RegsOnly s (laneBump s n j p q) := by
  unfold laneBump
  exact RegsOnly.ite ((RegsOnly.refl s).wr _ _ _) ((RegsOnly.refl s).wr _ _ _)

theorem rxState_touches (h : Touches fs s u) (hfs : ∀ f ∈ [F.PRT_STATUS_STATE, F.TWN_RX_STATUS_STATE], ∀ g ∈ fs, g.fid % 1024 ≠ f.fid % 1024)
    (n : Nat) : rxState u n = rxState s n := rxGet_touches h (hfs _ (by simp)) (hfs _ (by simp)) n

theorem rxState_set (s : State) (n : Nat) {st : Nat} (h : st < 2 ^ 4) : rxState (setRxState s n st) n = st := rxGet_rxSet s n h h

theorem setRxState_touches (s : State) (n st : Nat) : Touches [F.PRT_STATUS_STATE, F.TWN_RX_STATUS_STATE] s (setRxState s n st) :=
  rxSet_touches s n _ _ st

theorem setRxState_regsOnly (s : State) (n st : Nat) : RegsOnly s (setRxState s n st) := rxSet_regsOnly s n _ _ st

/-- The relay that loops back to a port does not follow the rest of the registers. -/
theorem loopedL2_touches (h : Touches fs s u) (hfs : ∀ f ∈ [F.RLY_CFG_EN, F.RLY_CFG_LOOP, F.RLY_CFG_LOOP_PORT], ∀ g ∈ fs,
    g.fid % 1024 ≠ f.fid % 1024) (n : Nat) : loopedL2 u n = loopedL2 s n := by
  unfold loopedL2
  rw [isSet_congr (h F.RLY_CFG_EN _ (hfs _ (by simp))), h F.RLY_CFG_LOOP _ (hfs _ (by simp)), h F.RLY_CFG_LOOP_PORT _ (hfs _ (by simp))]

/-- The registers that name the lanes in use. -/
def laneFields : List Field := [F.PRT_CFG_LANES, F.PRT_CFG_LANE_MAP]

theorem usedLanes_touches (h : Touches fs s u) (hfs : ∀ f ∈ laneFields, ∀ g ∈ fs, g.fid % 1024 ≠ f.fid % 1024)
    (n : Nat) : usedLanes u n = usedLanes s n := by
  have hl := h F.PRT_CFG_LANES n (hfs _ (by simp [laneFields]))
  have hm := h F.PRT_CFG_LANE_MAP n (hfs _ (by simp [laneFields]))
  have hphys : physLane u n = physLane s n := by
    funext i
    unfold physLane
    rw [hm]
  unfold usedLanes rxLanes
  rw [hphys, hl]

theorem usedLanes_lt {j : Nat} (h : j ∈ usedLanes s n) : j < 4 := by
  obtain ⟨i, -, rfl⟩ := List.mem_map.mp h
  unfold physLane bitsOf
  split <;> omega

theorem rxLanes_pos (s : State) (n : Nat) : 0 < rxLanes s n := by
  unfold rxLanes
  split
  · decide
  · positivity

/-! ### What a port keeps beside its registers -/

theorem prtAt_setPrt (s : State) (n : Nat) (k : Prt) : prtAt (setPrt s n k) n = k := sget_sset_same ..

theorem RegsOnly.prtAt (h : RegsOnly s u) (n : Nat) : prtAt u n = prtAt s n := by
  unfold RegsOnly at h
  rw [h]
  rfl

theorem Settled.prtAt (h : Settled u t) (n : Nat) : prtAt t n = prtAt u n := by
  unfold Machine.prtAt
  rw [h.prt]

theorem Settled.rxState (h : Settled u t) (n : Nat) : rxState t n = rxState u n := by
  unfold Machine.rxState rxGet
  rw [h.rd, h.rd]

theorem Settled.rxClk (h : Settled u t) (n : Nat) : rxClk t n = rxClk u n := by
  unfold Machine.rxClk rxGet
  rw [h.rd, h.rd]

theorem Settled.laneLocked (h : Settled u t) (n j : Nat) : laneLocked t n j = laneLocked u n j := by
  unfold Machine.laneLocked
  rw [h.rd, h.prtAt]

/-- Only registers and what the ports keep differ. -/
def PortOnly (s t : State) : Prop := t = { s with regs := t.regs, prt := t.prt }

theorem PortOnly.refl (s : State) : PortOnly s s := rfl

theorem PortOnly.trans (h : PortOnly s u) (h' : PortOnly u v) : PortOnly s v := by
  unfold PortOnly at *
  rw [h', h]

theorem RegsOnly.portOnly (h : RegsOnly s u) : PortOnly s u := by
  unfold RegsOnly at h
  unfold PortOnly
  rw [h]

theorem PortOnly.setPrt (h : PortOnly s u) (n : Nat) (k : Prt) : PortOnly s (setPrt u n k) := h.trans rfl

theorem PortOnly.settled (h : PortOnly s u) (ht : Settled u t) : Settled { s with regs := t.regs, prt := t.prt } t := by
  rw [ht.regs, ht.prt]
  unfold PortOnly at h
  rwa [h] at ht

/-! ### FCK (R245) -/

theorem bringingUp_of (hen : rxEn s n = true) {st : Nat} (hst : rxState s n = st) (hlo : pNOCLOCK ≤ st) (hhi : st ≤ pUP) :
    bringingUp s n = true := by
  unfold bringingUp
  dsimp only
  rw [hen, hst, decide_eq_true hlo, decide_eq_true hhi]
  rfl

theorem answers_fckDetect (hn : n < 9) (hworks : blockWorks s (rxBit n) = true) (hen : rxEn s n = true) (hclk : rxClk s n = false)
    (hst : rxState s n = pNOCLOCK) : Answers (exec (.fckDetect n) s) fun t =>
      rxClk t n = true ∧ rxState t n = pCLOCK ∧ (prtAt t n).t0 = s.ns
      ∧ Keeps [(F.PRT_STATUS_CLK_PRESENT, n), (F.PRT_STATUS_STATE, n), (F.TWN_RX_STATUS_CLK_PRESENT, 0),
          (F.TWN_RX_STATUS_STATE, 0)] s t
      ∧ Settled { s with regs := t.regs, prt := t.prt } t := by
  obtain ⟨a, ha⟩ : ∃ a, a = setPrt s n { prtAt s n with t0 := s.ns, freqOk := false } := ⟨_, rfl⟩
  obtain ⟨b, hb⟩ : ∃ b, b = setRxClk a n 1 := ⟨_, rfl⟩
  have hbt : Touches [F.PRT_STATUS_CLK_PRESENT, F.TWN_RX_STATUS_CLK_PRESENT] s b := by
    rw [hb, ha]
    exact (Touches.of_regs (by rfl)).trans (rxSet_touches _ n _ _ 1)
  have hfck : fckDetect s n = setRxState b n pCLOCK := by
    unfold fckDetect
    rw [hen, hclk, if_neg (by decide), ← ha, ← hb]
    exact if_pos ((rxState_touches hbt (by decide) n).trans hst)
  have hab : PortOnly s b := by
    rw [hb, ha]
    exact ((PortOnly.refl s).setPrt n _).trans (rxSet_regsOnly _ n _ _ 1).portOnly
  have hclkb : rxClk b n = true := by
    unfold rxClk
    rw [hb, setRxClk, rxGet_rxSet _ _ (by decide) (by decide)]
    rfl
  have hkeep {p q : Field} (w : State) (x : Nat) (h : Keeps [(F.PRT_STATUS_CLK_PRESENT, n), (F.PRT_STATUS_STATE, n),
      (F.TWN_RX_STATUS_CLK_PRESENT, 0), (F.TWN_RX_STATUS_STATE, 0)] s w)
      (hp : (p, n) ∈ [(F.PRT_STATUS_CLK_PRESENT, n), (F.PRT_STATUS_STATE, n)])
      (hq : (q, 0) ∈ [(F.TWN_RX_STATUS_CLK_PRESENT, 0), (F.TWN_RX_STATUS_STATE, 0)]) :
      Keeps [(F.PRT_STATUS_CLK_PRESENT, n), (F.PRT_STATUS_STATE, n), (F.TWN_RX_STATUS_CLK_PRESENT, 0),
        (F.TWN_RX_STATUS_STATE, 0)] s (rxSet w n p q x) := by
    unfold rxSet
    split
    · exact h.wr _ _ _ (List.mem_append_right [(F.PRT_STATUS_CLK_PRESENT, n), (F.PRT_STATUS_STATE, n)] hq)
    · exact h.wr _ _ _ (List.mem_append_left [(F.TWN_RX_STATUS_CLK_PRESENT, 0), (F.TWN_RX_STATUS_STATE, 0)] hp)
  refine answers_onBlock (f := fun s => fckDetect s n) hn hworks fun t ht => ?_
  rw [hfck] at ht
  refine ⟨?_, ?_, ?_, ht.keeps (hkeep b pCLOCK ?_ (by simp) (by simp)), (hab.trans (setRxState_regsOnly b n pCLOCK).portOnly).settled ht⟩
  · have h : rxGet (setRxState b n pCLOCK) n F.PRT_STATUS_CLK_PRESENT F.TWN_RX_STATUS_CLK_PRESENT
        = rxGet b n F.PRT_STATUS_CLK_PRESENT F.TWN_RX_STATUS_CLK_PRESENT :=
      rxGet_touches (setRxState_touches b n pCLOCK) (by decide) (by decide) n
    rw [ht.rxClk, ← hclkb, rxClk, h]
    rfl
  · exact (ht.rxState n).trans (rxState_set b n (by decide))
  · have hp : prtAt b n = { prtAt s n with t0 := s.ns, freqOk := false } := by
      rw [hb, setRxClk, (rxSet_regsOnly a n _ _ 1).prtAt n, ha, prtAt_setPrt]
    rw [ht.prtAt, (setRxState_regsOnly b n pCLOCK).prtAt n, hp]
  · rw [hb]
    refine hkeep a 1 ?_ (by simp) (by simp)
    rw [ha]
    exact (Keeps.refl _ s).of_regs rfl

section
variable {khz : Nat} (hn : n < 9) (hworks : blockWorks s (rxBit n) = true) (hen : rxEn s n = true) (hclk : rxClk s n = true)
  (hst : rxState s n = pCLOCK)

/-- A measurement of FCK that ended, in a port that waits for its clock. -/
def measured (s : State) (n khz : Nat) (ok : Bool) : State :=
  setPrt (if n = 8 then s else wr s F.PRT_FCK_FREQ_KHZ n khz) n { prtAt s n with freqOk := ok }

theorem measured_touches (s : State) (n khz : Nat) (ok : Bool) : Touches [F.PRT_FCK_FREQ_KHZ] s (measured s n khz ok) :=
  (Touches.ite .refl (Touches.refl.wr _ _ _ (by simp))).trans (.of_regs rfl)

include hen hclk hst in
theorem freqCheck_eq (hmult : (prtAt s n).mult = false) {ok : Bool} (hok : (decide (99 * fckHalfKhz s n ≤ 200 * khz)
    && decide (200 * khz ≤ 101 * fckHalfKhz s n)) = ok) :
    freqCheck s n khz = if !ok then rxEvt (measured s n khz ok) n 3 else measured s n khz ok := by
  have hprt : prtAt (if n = 8 then s else wr s F.PRT_FCK_FREQ_KHZ n khz) n = prtAt s n := by split <;> rfl
  have hf : fckHalfKhz (if n = 8 then s else wr s F.PRT_FCK_FREQ_KHZ n khz) n = fckHalfKhz s n := by
    split
    · rfl
    · unfold fckHalfKhz isSet
      rw [rd_wr_field _ _ _ _ _ _ (by decide), rd_wr_field _ _ _ _ _ _ (by decide)]
  unfold freqCheck
  dsimp only
  rw [hen, hclk, hst, if_neg (by decide), hprt, hf, hok]
  change (if !ok then rxEvt (measured s n khz ok) n 3 else if (decide (pCLOCK = pCLOCK) && (prtAt (measured s n khz ok) n).mult) = true
    then _ else measured s n khz ok) = _
  have hm : (prtAt (measured s n khz ok) n).mult = false := by
    unfold measured
    rw [prtAt_setPrt]
    exact hmult
  rw [hm, Bool.and_false, if_neg Bool.false_ne_true]

include hn hworks hen hclk hst in
theorem answers_freqGood (hmult : (prtAt s n).mult = false) (hlo : 99 * fckHalfKhz s n ≤ 200 * khz)
    (hhi : 200 * khz ≤ 101 * fckHalfKhz s n) : Answers (exec (.prtFreqCheck n khz) s) fun t =>
      (prtAt t n).freqOk = true ∧ rxState t n = pCLOCK ∧ Keeps [(F.PRT_FCK_FREQ_KHZ, n)] s t := by
  have hcheck := freqCheck_eq (khz := khz) hen hclk hst hmult (ok := true) (by rw [decide_eq_true hlo, decide_eq_true hhi]; rfl)
  refine answers_onBlock (f := fun s => freqCheck s n khz) hn hworks fun t ht => ?_
  rw [hcheck] at ht
  replace ht : Settled (measured s n khz true) t := ht
  refine ⟨?_, ?_, ht.keeps ?_⟩
  · rw [ht.prtAt, measured, prtAt_setPrt]
  · rw [ht.rxState, rxState_touches (measured_touches s n khz true) (by decide), hst]
  · refine Keeps.of_regs (u := if n = 8 then s else wr s F.PRT_FCK_FREQ_KHZ n khz) ?_ rfl
    split
    · exact .refl _ s
    · exact (Keeps.refl _ s).wr _ _ _ (by simp)

include hn hworks hen hclk hst in
theorem answers_freqHigh (hmult : (prtAt s n).mult = false) (hhi : 101 * fckHalfKhz s n < 200 * khz) :
    Answers (exec (.prtFreqCheck n khz) s) fun t =>
      (prtAt t n).freqOk = false ∧ rxState t n = pCLOCK ∧ (n < 8 → hasBit t F.PRT_EVT_EVT n 3 = true) := by
  have hcheck := freqCheck_eq (khz := khz) hen hclk hst hmult (ok := false) (by
    rw [decide_eq_false (show ¬ 200 * khz ≤ 101 * fckHalfKhz s n by omega), Bool.and_false])
  have hevt : RegsOnly (measured s n khz false) (rxEvt (measured s n khz false) n 3)
      ∧ Touches [F.PRT_EVT_EVT] (measured s n khz false) (rxEvt (measured s n khz false) n 3) := by
    unfold rxEvt prtEvt
    exact ⟨RegsOnly.ite (.refl _) ((RegsOnly.refl _).wr F.PRT_EVT_EVT n _), Touches.ite .refl (Touches.refl.wr F.PRT_EVT_EVT n _ (by simp))⟩
  refine answers_onBlock (f := fun s => freqCheck s n khz) hn hworks fun t ht => ?_
  rw [hcheck] at ht
  replace ht : Settled (rxEvt (measured s n khz false) n 3) t := ht
  refine ⟨?_, ?_, fun h8 => ?_⟩
  · rw [ht.prtAt, hevt.1.prtAt, measured, prtAt_setPrt]
  · rw [ht.rxState, rxState_touches hevt.2 (by decide), rxState_touches (measured_touches s n khz false) (by decide), hst]
  · rw [ht.hasBit, rxEvt, if_neg (by omega)]
    exact hasBit_setBit _ F.PRT_EVT_EVT n 3 (by decide)

end

/-! ### The clock multiplier (R246) -/

/-- Of a change of the relays, the ports see nothing. -/
def RelayOnly (s t : State) : Prop :=
  t = { s with regs := t.regs, lines := t.lines, beacons := t.beacons, freeCtr := t.freeCtr }

theorem RelayOnly.refl (s : State) : RelayOnly s s := rfl

theorem RelayOnly.trans (h : RelayOnly s u) (h' : RelayOnly u v) : RelayOnly s v := by
  unfold RelayOnly at *
  rw [h', h]

theorem RegsOnly.relayOnly (h : RegsOnly s u) : RelayOnly s u := by
  unfold RegsOnly at h
  unfold RelayOnly
  rw [h]

theorem FiresOnly.relayOnly (h : FiresOnly s u) : RelayOnly s u := by
  unfold FiresOnly at h
  unfold RelayOnly
  rw [h]

theorem RelayOnly.ite {b : Prop} [Decidable b] (h : RelayOnly s u) (h' : RelayOnly s v) : RelayOnly s (if b then u else v) := by
  split
  · exact h
  · exact h'

theorem RelayOnly.prtAt (h : RelayOnly s u) (n : Nat) : prtAt u n = prtAt s n := by
  have e := congrArg State.prt h
  unfold Machine.prtAt
  rw [e]

theorem relaySync_only (s : State) (k : Nat) : RelayOnly s (relaySync s k) := by
  have hwr (u : State) (f : Field) (x : Nat) : RelayOnly u (wr u f k x) := ((RegsOnly.refl u).wr f k x).relayOnly
  have hstart : RelayOnly s (relayStart s k) := by
    have h0 : RelayOnly s (lineStart s k) := by unfold lineStart; rfl
    unfold relayStart
    generalize lineStart s k = w at h0 ⊢
    have h : RelayOnly s (setBit (wr (wr w F.RLY_STATUS_STATE k 2) F.RLY_STATUS_CLK_OUT k 1) F.RLY_EVT_EVT k 1) :=
      ((h0.trans (hwr w F.RLY_STATUS_STATE 2)).trans (hwr _ F.RLY_STATUS_CLK_OUT 1)).trans (hwr _ F.RLY_EVT_EVT _)
    dsimp only
    generalize setBit (wr (wr w F.RLY_STATUS_STATE k 2) F.RLY_STATUS_CLK_OUT k 1) F.RLY_EVT_EVT k 1 = x at h ⊢
    exact RelayOnly.ite ((h.trans (u := x) (v := (takeFree x 16).2) rfl).trans (hwr _ F.RLY_STATUS_LATENCY_NS _)) h
  have hstop : RelayOnly s (relayStop s k) := by
    unfold relayStop
    refine RelayOnly.trans ?_ (fireProducer_firesOnly _ _).relayOnly
    exact (((hwr s F.RLY_STATUS_STATE 1).trans (hwr _ F.RLY_STATUS_CLK_OUT 0)).trans (hwr _ F.RLY_EVT_EVT _)).trans (hwr _ F.RLY_STOPS_COUNT _)
  unfold relaySync
  refine RelayOnly.ite (RelayOnly.ite (.refl s) ((hwr _ _ _).trans (hwr _ _ _))) (RelayOnly.ite (RelayOnly.ite (.refl s) hstart)
    (RelayOnly.ite hstop (hwr _ _ _)))

theorem relaysSync_only (s : State) : RelayOnly s (relaysSync s) := foldl_frame RelayOnly.refl RelayOnly.trans relaySync_only _ s

theorem answers_multLock (hn : n < 9) (hworks : blockWorks s (rxBit n) = true) (hen : rxEn s n = true) (hclk : rxClk s n = true)
    (hok : (prtAt s n).freqOk = true) (hst : rxState s n = pCLOCK) : Answers (exec (.prtMultLock n) s) fun t =>
      (prtAt t n).mult = true ∧ rxState t n = (if loopedL2 s n then pLOCK else pEQUALISE) := by
  obtain ⟨a, ha⟩ : ∃ a, a = relaysSync (setPrt s n { prtAt s n with mult := false }) := ⟨_, rfl⟩
  obtain ⟨b, hb⟩ : ∃ b, b = setPrt a n { prtAt a n with mult := true } := ⟨_, rfl⟩
  have hset (w : State) (k : Prt) : Touches relayFields w (setPrt w n k) := .of_regs rfl
  have hat : Touches relayFields s a := by
    rw [ha]
    exact (hset s _).trans (relaysSync_touches _)
  have htouch : Touches relayFields s (relaysSync b) := by
    refine hat.trans (Touches.trans ?_ (relaysSync_touches b))
    rw [hb]
    exact hset a _
  have hlock : multLock s n = setRxState (relaysSync b) n (afterMult (relaysSync b) n) := by
    unfold multLock
    dsimp only
    rw [if_neg (by rw [hen, hclk, hok, hst]; decide), ← ha, ← hb]
    exact if_pos hst
  have hafter : afterMult (relaysSync b) n = if loopedL2 s n then pLOCK else pEQUALISE := by
    unfold afterMult
    rw [loopedL2_touches htouch (by decide)]
  refine answers_onBlock (f := fun s => multLock s n) hn hworks fun t ht => ?_
  rw [hlock] at ht
  refine ⟨?_, ?_⟩
  · rw [ht.prtAt, (setRxState_regsOnly _ n _).prtAt, (relaysSync_only b).prtAt, hb, prtAt_setPrt]
  · rw [ht.rxState, hafter]
    refine rxState_set _ n ?_
    split <;> decide

/-! ### Equalisation (R246, R255) -/

/-- Of a stage of the lanes, the rest of the port sees nothing: registers, free values and the uplinks' wires alone differ. -/
def StageOnly (s t : State) : Prop := t = { s with regs := t.regs, freeCtr := t.freeCtr, pktPorts := t.pktPorts }

theorem StageOnly.refl (s : State) : StageOnly s s := rfl

theorem StageOnly.trans (h : StageOnly s u) (h' : StageOnly u v) : StageOnly s v := by
  unfold StageOnly at *
  rw [h', h]

theorem RegsOnly.stageOnly (h : RegsOnly s u) : StageOnly s u := by
  unfold RegsOnly at h
  unfold StageOnly
  rw [h]

theorem StageOnly.prtAt (h : StageOnly s u) (n : Nat) : prtAt u n = prtAt s n := by
  have e := congrArg State.prt h
  unfold Machine.prtAt
  rw [e]

/-- The uplink's marker burst changes its wire alone. -/
theorem burstRequest_only (s : State) (n : Nat) : StageOnly s (burstRequest s n) ∧ Touches [] s (burstRequest s n) := by
  unfold burstRequest
  split
  · exact ⟨rfl, .of_regs rfl⟩
  · exact ⟨.refl s, .refl⟩

/-- The lanes take the phases that the interpolators found. -/
theorem centredPhases_only (l : List Nat) (s : State) (n : Nat) (p q : Field) : StageOnly s (l.foldl (fun s j =>
    laneSet (takeFree s 6).2 n j p q (takeFree s 6).1) s) ∧ Touches [p, q] s (l.foldl (fun s j =>
    laneSet (takeFree s 6).2 n j p q (takeFree s 6).1) s) :=
  foldl_frame (R := fun u v => StageOnly u v ∧ Touches [p, q] u v) (fun u => ⟨.refl u, .refl⟩)
    (fun h h' => ⟨h.1.trans h'.1, h.2.trans h'.2⟩)
    (fun u j => by
      have h0 : Touches [p, q] u (takeFree u 6).2 := .of_regs rfl
      exact ⟨StageOnly.trans (u := (takeFree u 6).2) rfl (laneSet_regsOnly _ n j p q _).stageOnly,
        h0.trans (laneSet_touches _ n j p q _)⟩) l s

section
variable (hn : n < 9) (hworks : blockWorks s (rxBit n) = true) (hen : rxEn s n = true)
include hn hworks hen

theorem answers_phaseCentred (hst : rxState s n = pEQUALISE) : Answers (exec (.prtPhaseCentred n) s) fun t =>
    (prtAt t n).centred = true ∧ rxState t n = (if eqAuto s n then pEQUALISE else pLOCK) := by
  have hup := bringingUp_of hen hst (by decide) (by decide)
  obtain ⟨a, ha⟩ : ∃ a, a = setPrt s n { prtAt s n with centred := true } := ⟨_, rfl⟩
  have hat : Touches [F.PRT_LANE_EQ_PHASE, F.TWN_RX_EQ_PHASE] s a := by
    rw [ha]
    exact .of_regs rfl
  obtain ⟨b, hb⟩ : ∃ b, b = if phaseAuto a n then (usedLanes a n).foldl (fun s j =>
      laneSet (takeFree s 6).2 n j F.PRT_LANE_EQ_PHASE F.TWN_RX_EQ_PHASE (takeFree s 6).1) a else a := ⟨_, rfl⟩
  have hbo : StageOnly a b ∧ Touches [F.PRT_LANE_EQ_PHASE, F.TWN_RX_EQ_PHASE] a b := by
    rw [hb]
    split
    · exact centredPhases_only _ a n _ _
    · exact ⟨.refl a, .refl⟩
  have hburst := burstRequest_only b n
  have htouch : Touches [F.PRT_LANE_EQ_PHASE, F.TWN_RX_EQ_PHASE] s (burstRequest b n) :=
    (hat.trans hbo.2).trans (hburst.2.mono (by simp))
  have hprt : prtAt (burstRequest b n) n = { prtAt s n with centred := true } := by
    rw [hburst.1.prtAt, hbo.1.prtAt, ha, prtAt_setPrt]
  have hcentred : phaseCentred s n = if eqAuto s n then burstRequest b n else setRxState (burstRequest b n) n pLOCK := by
    have hauto : eqAuto (burstRequest b n) n = eqAuto s n := by
      unfold eqAuto
      rw [rxGet_touches htouch (by decide) (by decide)]
    rw [← hauto, hb, ha]
    unfold phaseCentred
    dsimp only
    exact if_neg (by rw [hup, hst]; decide)
  refine answers_onBlock (f := fun s => phaseCentred s n) hn hworks fun t ht => ?_
  rw [hcentred] at ht
  split at ht
  · rename_i h
    rw [if_pos h]
    exact ⟨by rw [ht.prtAt, hprt], by rw [ht.rxState, rxState_touches htouch (by decide), hst]⟩
  · rename_i h
    rw [if_neg h]
    exact ⟨by rw [ht.prtAt, (setRxState_regsOnly _ n _).prtAt, hprt], by rw [ht.rxState, rxState_set _ n (by decide)]⟩

end

/-- One code tried in a sweep: it is kept where it is better than the best before it. -/
def betterCode (foms : List Nat) (b c : Nat) : Nat := if foms.getD b 0 < foms.getD c 0 then c else b

/-- Of the codes tried so far, the best is one of them, none of them is better, and none before it is as good. -/
theorem betterCode_best (foms : List Nat) (k : Nat) : (List.range (k + 1)).foldl (betterCode foms) 0 ≤ k ∧ ∀ c, c ≤ k →
    foms.getD c 0 ≤ foms.getD ((List.range (k + 1)).foldl (betterCode foms) 0) 0
    ∧ (c < (List.range (k + 1)).foldl (betterCode foms) 0 → foms.getD c 0 < foms.getD ((List.range (k + 1)).foldl (betterCode foms) 0) 0) := by
  induction k with
  | zero =>
    have h : (List.range (0 + 1)).foldl (betterCode foms) 0 = 0 := by simp [betterCode]
    rw [h]
    exact ⟨by omega, fun c hc => ⟨by rw [Nat.le_zero.mp hc], by omega⟩⟩
  | succ k ih =>
    rw [List.range_succ, List.foldl_append, List.foldl_cons, List.foldl_nil]
    generalize (List.range (k + 1)).foldl (betterCode foms) 0 = b at ih ⊢
    obtain ⟨hb, hbest⟩ := ih
    unfold betterCode
    split
    · rename_i hlt
      refine ⟨Nat.le_refl _, fun c hc => ?_⟩
      rcases Nat.lt_or_eq_of_le hc with hc | rfl
      · have := (hbest c (by omega)).1
        exact ⟨by omega, fun _ => by omega⟩
      · exact ⟨Nat.le_refl _, fun h => absurd h (Nat.lt_irrefl _)⟩
    · rename_i hge
      refine ⟨by omega, fun c hc => ?_⟩
      rcases Nat.lt_or_eq_of_le hc with hc | rfl
      · exact hbest c (by omega)
      · exact ⟨by omega, fun h => by omega⟩

theorem bestCode_best (foms : List Nat) : bestCode foms ≤ 24 ∧ ∀ c, c ≤ 24 →
    foms.getD c 0 ≤ foms.getD (bestCode foms) 0 ∧ (c < bestCode foms → foms.getD c 0 < foms.getD (bestCode foms) 0) :=
  betterCode_best foms 24

theorem laneGet_laneSet (s : State) (n j : Nat) {p q : Field} {x : Nat} (hp : x < 2 ^ p.width) (hq : x < 2 ^ q.width) :
    laneGet (laneSet s n j p q x) n j p q = x := by
  unfold laneGet laneSet
  split
  · rw [rd_wr_same, Nat.mod_eq_of_lt hq]
  · rw [rd_wr_same, Nat.mod_eq_of_lt hp]

theorem laneGet_laneSet_ne (s : State) {n i j : Nat} (hij : i ≠ j) (hn : n ≠ 8) (p q : Field) (x : Nat) :
    laneGet (laneSet s n i p q x) n j p q = laneGet s n j p q := by
  unfold laneGet laneSet
  rw [if_neg hn, if_neg hn, if_neg hn, rd_wr_inst _ _ _ _ (by omega)]

theorem laneGet_touches (h : Touches fs s u) {p q : Field} (hp : ∀ g ∈ fs, g.fid % 1024 ≠ p.fid % 1024)
    (hq : ∀ g ∈ fs, g.fid % 1024 ≠ q.fid % 1024) (n j : Nat) : laneGet u n j p q = laneGet s n j p q := by
  unfold laneGet
  rw [h p _ hp, h q 0 hq]

theorem Settled.laneGet (h : Settled u t) (n j : Nat) (p q : Field) : laneGet t n j p q = laneGet u n j p q := by
  unfold Machine.laneGet
  rw [h.rd, h.rd]

theorem usedLanes_twin {i j : Nat} (h : n = 8) (hi : i ∈ usedLanes s n) (hj : j ∈ usedLanes s n) : i = j := by
  have hzero : ∀ k ∈ usedLanes s n, k = 0 := by
    intro k hk
    obtain ⟨i, -, rfl⟩ := List.mem_map.mp hk
    exact if_pos h
  rw [hzero i hi, hzero j hj]

/-- Every lane of the list takes its own value. -/
theorem laneGet_foldl_laneSet {p q : Field} {g : Nat → Nat} {l : List Nat} {j : Nat} (hp : g j < 2 ^ p.width) (hq : g j < 2 ^ q.width)
    (htwin : ∀ i ∈ l, n = 8 → i = j) (h : laneGet s n j p q = g j ∨ j ∈ l) :
    laneGet (l.foldl (fun s i => laneSet s n i p q (g i)) s) n j p q = g j := by
  induction l generalizing s with
  | nil => simpa using h
  | cons i l ih =>
    rw [List.foldl_cons]
    refine ih (fun k hk => htwin k (.tail _ hk)) ?_
    by_cases hij : i = j
    · left
      rw [hij, laneGet_laneSet _ _ _ hp hq]
    · rw [laneGet_laneSet_ne _ hij (fun h8 => hij (htwin i (by simp) h8))]
      rcases h with h | h
      · exact .inl h
      · exact .inr ((List.mem_cons.mp h).resolve_left (Ne.symm hij))

theorem foldl_laneSet_only (l : List Nat) (s : State) (n : Nat) (p q : Field) (g : Nat → Nat) :
    RegsOnly s (l.foldl (fun s i => laneSet s n i p q (g i)) s) ∧ Touches [p, q] s (l.foldl (fun s i => laneSet s n i p q (g i)) s) :=
  foldl_frame (R := fun u v => RegsOnly u v ∧ Touches [p, q] u v) (fun u => ⟨.refl u, .refl⟩)
    (fun h h' => ⟨h.1.trans h'.1, h.2.trans h'.2⟩)
    (fun u i => ⟨laneSet_regsOnly u n i p q _, laneSet_touches u n i p q _⟩) l s

section
variable (hn : n < 9) (hworks : blockWorks s (rxBit n) = true) (hen : rxEn s n = true)
include hn hworks hen

theorem answers_ctleDone (hst : rxState s n = pEQUALISE) (hcentred : (prtAt s n).centred = true) (foms : List (List Nat)) :
    Answers (exec (.ctleSweepDone n foms) s) fun t =>
      rxState t n = pLOCK ∧ (prtAt t n).swept = true
      ∧ ∀ j ∈ usedLanes s n,
        let fom := fun c => (foms.getD j []).getD c 0
        let code := laneGet t n j F.PRT_LANE_EQ_CTLE F.TWN_RX_EQ_CTLE
        code ≤ 24 ∧ ∀ c, c ≤ 24 → fom c ≤ fom code ∧ (c < code → fom c < fom code) := by
  have hup := bringingUp_of hen hst (by decide) (by decide)
  obtain ⟨a, ha⟩ : ∃ a, a = (usedLanes s n).foldl (fun s j =>
      laneSet s n j F.PRT_LANE_EQ_CTLE F.TWN_RX_EQ_CTLE (bestCode (foms.getD j []))) s := ⟨_, rfl⟩
  have hdone : ctleDone s n foms = setRxState (setPrt a n { prtAt a n with swept := true }) n pLOCK := by
    unfold ctleDone
    rw [ha]
    exact if_neg (by rw [hup, hst, hcentred]; decide)
  refine answers_onBlock (f := fun s => ctleDone s n foms) hn hworks fun t ht => ?_
  rw [hdone] at ht
  refine ⟨?_, ?_, fun j hj => ?_⟩
  · rw [ht.rxState, rxState_set _ n (by decide)]
  · rw [ht.prtAt, (setRxState_regsOnly _ n _).prtAt, prtAt_setPrt]
  · have hbest := bestCode_best (foms.getD j [])
    have hlt : bestCode (foms.getD j []) < 2 ^ 5 := Nat.lt_of_le_of_lt hbest.1 (by decide)
    have hset : Touches [F.PRT_STATUS_STATE, F.TWN_RX_STATUS_STATE] a (setPrt a n { prtAt a n with swept := true }) := .of_regs rfl
    have hcode : laneGet t n j F.PRT_LANE_EQ_CTLE F.TWN_RX_EQ_CTLE = bestCode (foms.getD j []) := by
      rw [ht.laneGet, laneGet_touches (hset.trans (setRxState_touches _ n pLOCK)) (by decide) (by decide), ha]
      exact laneGet_foldl_laneSet (g := fun j => bestCode (foms.getD j [])) hlt hlt (fun i hi h8 => usedLanes_twin h8 hi hj) (.inr hj)
    dsimp only
    rw [hcode]
    exact hbest

/-! ### Lane lock (R246) -/

theorem answers_laneLock {j : Nat} {units : List Nat} (hst : rxState s n = pLOCK) (hj : j ∈ usedLanes s n)
    (hunits : givesLock (rxGen s n) (units.map (laneUnit s n j)) = true) : Answers (exec (.laneLock n j units) s) fun t =>
      laneLocked t n j = true
      ∧ rxState t n = (if (usedLanes s n).all (fun i => i == j || laneLocked s n i) then pDESKEW else pLOCK) := by
  have hup := bringingUp_of hen hst (by decide) (by decide)
  obtain ⟨a, ha⟩ : ∃ a, a = setLaneLock s n j true := ⟨_, rfl⟩
  have hat : Touches [F.PRT_STATUS_LANE_LOCK] s a := by
    rw [ha, setLaneLock]
    split
    · exact .of_regs rfl
    · exact putBit_touches s _ n j true
  have hlocked : ∀ i ∈ usedLanes s n, laneLocked a n i = (i == j || laneLocked s n i) := by
    intro i hi
    rw [ha]
    unfold laneLocked setLaneLock
    split
    · rename_i h8
      rw [usedLanes_twin h8 hi hj, beq_self_eq_true, Bool.true_or, prtAt_setPrt]
    · have hb := hasBit_putBit s F.PRT_STATUS_LANE_LOCK (i := n) (show j < 4 from usedLanes_lt hj) true
      by_cases hij : i = j
      · rw [hij, beq_self_eq_true, Bool.true_or]
        exact hb.1
      · rw [show (i == j) = false from beq_eq_false_iff_ne.mpr hij, Bool.false_or]
        exact hb.2 i hij
  have hlock : laneLock s n j units =
      if (usedLanes s n).all (fun i => i == j || laneLocked s n i) then setRxState a n pDESKEW else a := by
    have hall : (usedLanes a n).all (laneLocked a n) = (usedLanes s n).all fun i => i == j || laneLocked s n i := by
      rw [usedLanes_touches hat (by decide)]
      exact Bool.eq_iff_iff.mpr (by
        rw [List.all_eq_true, List.all_eq_true]
        exact forall₂_congr fun i hi => by rw [hlocked i hi])
    rw [← hall, ha]
    unfold laneLock
    exact if_neg (by rw [hup, hst, hunits, List.contains_iff_mem.mpr hj]; decide)
  have hjl : laneLocked a n j = true := by rw [hlocked j hj, beq_self_eq_true, Bool.true_or]
  refine answers_onBlock (f := fun s => laneLock s n j units) hn hworks fun t ht => ?_
  rw [hlock] at ht
  split at ht
  · rename_i h
    rw [if_pos h, ht.laneLocked, ht.rxState, rxState_set _ n (by decide)]
    refine ⟨?_, rfl⟩
    rw [← hjl, laneLocked, laneLocked, (setRxState_regsOnly a n _).prtAt, setRxState_touches a n pDESKEW _ _ (by decide)]
  · rename_i h
    rw [if_neg h, ht.laneLocked, ht.rxState, rxState_touches hat (by decide)]
    exact ⟨hjl, hst⟩

end

/-! ### Marker columns (R243, R246, R247) -/

theorem RelayOnly.rxEn (h : RelayOnly s u) (ht : Touches fs s u) (hfs : ∀ f ∈ [F.KP_GOOD_DOMAINS, F.GLB_RST_STATUS_WARM_BUSY,
    F.TWN_CTL_EN, F.PRT_CFG_EN], ∀ g ∈ fs, g.fid % 1024 ≠ f.fid % 1024) (n : Nat) : rxEn u n = rxEn s n := by
  have hadie := congrArg State.aDieReset h
  have hlane := congrArg State.laneStopped h
  have hd : Machine.domUp u = Machine.domUp s := domUp_congr (ht _ 0 (hfs _ (by simp))) (ht _ 0 (hfs _ (by simp))) hadie hlane
  unfold Machine.rxEn
  rw [hd, isSet_congr (ht F.TWN_CTL_EN 0 (hfs _ (by simp))), isSet_congr (ht F.PRT_CFG_EN n (hfs _ (by simp)))]

/-- The registers that a marker column may write besides the port's own record. -/
def markerFields : List Field := [F.PRT_LANE_CODE_ERR_COUNT, F.TWN_RX_CODE_ERR_COUNT, F.PRT_LANE_CTRL_ERR_COUNT, F.TWN_RX_CTRL_ERR_COUNT,
  F.PRT_LANE_MARKER_ERR_COUNT, F.TWN_RX_MARKER_ERR_COUNT, F.PRT_STATUS_START_MARKERS, F.PRT_STATUS_PEER_ID]

/-- A change that relays, error counts and the shown marker fields bear: ports stay. -/
def MarkerOnly (s t : State) : Prop := RelayOnly s t ∧ Touches markerFields s t

theorem MarkerOnly.refl (s : State) : MarkerOnly s s := ⟨.refl s, .refl⟩

theorem MarkerOnly.trans (h : MarkerOnly s u) (h' : MarkerOnly u v) : MarkerOnly s v := ⟨h.1.trans h'.1, h.2.trans h'.2⟩

theorem MarkerOnly.laneBump (s : State) (n j : Nat) {p q : Field} (hpq : ∀ f ∈ [p, q], f ∈ markerFields) :
    MarkerOnly s (laneBump s n j p q) := ⟨(laneBump_regsOnly s n j p q).relayOnly, (laneBump_touches s n j p q).mono hpq⟩

theorem forwardCols_only (s : State) (n : Nat) (cols : List (List Nat)) : MarkerOnly s (forwardCols s n cols) := by
  unfold forwardCols relayForward
  refine foldl_frame (R := MarkerOnly) MarkerOnly.refl MarkerOnly.trans (fun u k => ?_) _ s
  dsimp only
  split
  · exact ⟨rfl, .of_regs rfl⟩
  · exact .refl u

theorem rxError_only (s : State) (n j kind : Nat) : MarkerOnly s (rxError s n j kind) := by
  unfold rxError
  dsimp only
  split
  · exact .refl s
  split
  · exact .laneBump s n j (by decide)
  · exact .laneBump s n j (by decide)

theorem rxErrors_only (s : State) (n : Nat) (errs : List (Nat × Nat)) : MarkerOnly s (rxErrors s n errs) := by
  have hstep (u : State) (e : Nat × Nat) : MarkerOnly u (rxError u n (physLane u n e.1) e.2) := rxError_only u n _ _
  unfold rxErrors
  exact foldl_frame (R := MarkerOnly) MarkerOnly.refl MarkerOnly.trans hstep errs s

theorem markerMatches_touches (h : Touches markerFields s u) (n i : Nat) (m : List Nat) : markerMatches u n i m = markerMatches s n i m := by
  have hl : rxLanes u n = rxLanes s n := by unfold rxLanes; rw [h F.PRT_CFG_LANES n (by decide)]
  unfold markerMatches
  rw [hl, h F.PRT_CFG_GEN n (by decide), h F.PRT_CFG_RATE n (by decide)]

theorem eraseDups_map_const {α : Type} {f : α → Nat} {q : Nat} {l : List α} (hl : l ≠ []) (h : ∀ x ∈ l, f x = q) : (l.map f).eraseDups = [q] := by
  obtain ⟨x, l, rfl⟩ := List.exists_cons_of_ne_nil hl
  have hrest : (l.map f).filter (fun b => !b == f x) = [] := List.filter_eq_nil_iff.mpr fun b hb => by
    obtain ⟨y, hy, rfl⟩ := List.mem_map.mp hb
    rw [h x (by simp), h y (.tail _ hy), beq_self_eq_true]
    decide
  rw [List.map_cons, List.eraseDups_cons, hrest, List.eraseDups_nil, h x (by simp)]

/-- The errors of the lanes' markers are counted. -/
def markersCounted (s : State) (n : Nat) (mk : List (List Nat)) : State :=
  (List.range (rxLanes s n)).foldl (fun s i =>
    if (mk.getD i []).isEmpty || markerGood (mk.getD i []) then s
    else laneBump s n (physLane s n i) F.PRT_LANE_MARKER_ERR_COUNT F.TWN_RX_MARKER_ERR_COUNT) s

/-- The port shows what the good markers of the lanes `good` say. -/
def markersShown (s : State) (n : Nat) (mk : List (List Nat)) (good : List Nat) : State :=
  if n = 8 then s else good.foldl (fun s i =>
    wr (wr s F.PRT_STATUS_START_MARKERS n (bitsOf ((mk.getD i []).getD 1 0) 5 1)) F.PRT_STATUS_PEER_ID n ((mk.getD i []).getD 5 0)) s

theorem markersCounted_only (s : State) (n : Nat) (mk : List (List Nat)) : MarkerOnly s (markersCounted s n mk) := by
  unfold markersCounted
  refine foldl_frame (R := MarkerOnly) MarkerOnly.refl MarkerOnly.trans (fun u i => ?_) _ s
  split
  · exact .refl u
  · exact .laneBump u n _ (by decide)

theorem markersShown_only (s : State) (n : Nat) (mk : List (List Nat)) (good : List Nat) : MarkerOnly s (markersShown s n mk good) := by
  unfold markersShown
  split
  · exact .refl s
  have hwr (u : State) (f : Field) (x : Nat) (hf : f ∈ markerFields) : MarkerOnly u (wr u f n x) :=
    ⟨((RegsOnly.refl u).wr f n x).relayOnly, Touches.refl.wr _ _ _ hf⟩
  refine foldl_frame (R := MarkerOnly) MarkerOnly.refl MarkerOnly.trans (fun u i => ?_) good s
  exact (hwr u _ _ (by decide)).trans (hwr _ _ _ (by decide))

/-- Markers on every lane that pass, match and bear one sequence number. -/
theorem markerColumn_agrees {mk : List (List Nat)} {q : Nat} (hen : rxEn s n = true) (hst : rxState s n = pDESKEW)
    (hmk : ∀ i, i < rxLanes s n → markerGood (mk.getD i []) = true ∧ markerMatches s n i (mk.getD i []) = true
      ∧ leField (mk.getD i []) 2 2 = q) :
    (prtAt (markerColumn s n mk) n).agree = (prtAt s n).agree + 1 ∧ (prtAt (markerColumn s n mk) n).markerOk = true
      ∧ (prtAt (markerColumn s n mk) n).missing = 0 ∧ rxState (markerColumn s n mk) n = pDESKEW := by
  have hup := bringingUp_of hen hst (by decide) (by decide)
  have hgood : (List.range (rxLanes s n)).filter (fun i => markerGood (mk.getD i [])) = List.range (rxLanes s n) :=
    List.filter_eq_self.mpr fun i hi => (hmk i (List.mem_range.mp hi)).1
  have hseqs : ((List.range (rxLanes s n)).map fun i => leField (mk.getD i []) 2 2).eraseDups = [q] := by
    refine eraseDups_map_const ?_ fun i hi => (hmk i (List.mem_range.mp hi)).2.2
    have := rxLanes_pos s n
    intro h
    rw [List.range_eq_nil] at h
    omega
  have hmissing : ((List.range (rxLanes s n)).filter fun i => !(List.range (rxLanes s n)).contains i) = [] :=
    List.filter_eq_nil_iff.mpr fun i hi => by rw [List.contains_iff_mem.mpr hi]; decide
  obtain ⟨c, hc⟩ : ∃ c, c = markersShown (markersCounted s n mk) n mk (List.range (rxLanes s n)) := ⟨_, rfl⟩
  have hsc : MarkerOnly s c := by
    rw [hc]
    exact (markersCounted_only s n mk).trans (markersShown_only _ n mk _)
  have hmatch : (List.range (rxLanes s n)).all (fun i => markerMatches c n i (mk.getD i [])) = true :=
    List.all_eq_true.mpr fun i hi => by rw [markerMatches_touches hsc.2, (hmk i (List.mem_range.mp hi)).2.1]
  have hcol : markerColumn s n mk = setPrt c n { prtAt c n with
      agree := (prtAt c n).agree + 1, seq := some q, markerOk := true, missing := 0,
      skewLost := (prtAt c n).skewLost || decide (0 &&& (prtAt c n).missing ≠ 0) || decide (2 ≤ [q].length) } := by
    unfold markerColumn
    dsimp only
    unfold markersShown markersCounted at hc
    rw [if_neg (by rw [hup, hst]; decide), hgood, hseqs, hmissing, beq_self_eq_true, ← hc, if_pos rfl, hmatch]
    rfl
  rw [hcol, prtAt_setPrt, hsc.1.prtAt]
  have hset (k : Prt) : Touches markerFields c (setPrt c n k) := .of_regs rfl
  exact ⟨rfl, rfl, rfl, (rxState_touches (hsc.2.trans (hset _)) (by decide) n).trans hst⟩

section
variable (hn : n < 9) (hworks : blockWorks s (rxBit n) = true) (hen : rxEn s n = true) (hst : rxState s n = pDESKEW)
include hn hworks hen hst

theorem answers_markerColumn {cols : List (List Nat)} {q : Nat} (hloop : loopRelay s n = none)
    (hmk : ∀ i, i < rxLanes s n → markerGood ((markersOf s n cols).getD i []) = true
      ∧ markerMatches s n i ((markersOf s n cols).getD i []) = true ∧ leField ((markersOf s n cols).getD i []) 2 2 = q) :
    Answers (exec (.markerColumn n cols) s) fun t =>
      (prtAt t n).agree = (prtAt s n).agree + 1 ∧ (prtAt t n).markerOk = true ∧ (prtAt t n).missing = 0
      ∧ rxState t n = pDESKEW := by
  obtain ⟨u, hu⟩ : ∃ u, u = rxErrors (forwardCols s n cols) n ((columnsOf s n cols).flatMap columnErrs) := ⟨_, rfl⟩
  have hsu : MarkerOnly s u := by
    rw [hu]
    exact (forwardCols_only s n cols).trans (rxErrors_only _ n _)
  have harrives : markerArrives s n cols = markerColumn u n (markersOf s n cols) := by
    have hcols : sampled s n cols = cols := by
      unfold sampled
      rw [hloop]
    unfold markerArrives
    rw [hcols, hu]
  have hlanes : rxLanes u n = rxLanes s n := by unfold rxLanes; rw [hsu.2 F.PRT_CFG_LANES n (by decide)]
  obtain ⟨hagree, hok, hmissing, hstate⟩ := markerColumn_agrees (s := u) (n := n) (mk := markersOf s n cols) (q := q)
    ((hsu.1.rxEn hsu.2 (by decide) n).trans hen) ((rxState_touches hsu.2 (by decide) n).trans hst) fun i hi => by
      obtain ⟨hgood, hmatch, hseq⟩ := hmk i (hlanes ▸ hi)
      exact ⟨hgood, (markerMatches_touches hsu.2 n i _).trans hmatch, hseq⟩
  refine answers_onBlock (f := fun s => markerArrives s n cols) hn hworks fun t ht => ?_
  rw [harrives] at ht
  rw [ht.prtAt, ht.rxState, hagree, hsu.1.prtAt]
  exact ⟨rfl, hok, hmissing, hstate⟩

theorem answers_deskew (hagree : 2 ≤ (prtAt s n).agree) : Answers (exec (.prtDeskew n) s) fun t =>
    prtAt t n = { prtAt s n with deskewed := true } ∧ Settled { s with prt := t.prt } t := by
  have hdeskew : deskew s n = setPrt s n { prtAt s n with deskewed := true } := by
    unfold deskew
    exact if_pos (by rw [bringingUp_of hen hst (by decide) (by decide), hst, decide_eq_true hagree]; rfl)
  refine answers_onBlock (f := fun s => deskew s n) hn hworks fun t ht => ?_
  rw [hdeskew] at ht
  refine ⟨by rw [ht.prtAt, prtAt_setPrt], ?_⟩
  rw [ht.prt]
  exact ht

end

/-! ### LINK_UP and the retries (R246, R251) -/

section
variable (hn8 : n ≠ 8)
include hn8

/-- Back to the stage of the clock multiplier: the state follows its lock, every lane lock is gone, all else stays. -/
theorem restartMult_reads (s : State) :
    rd (restartMult s n) F.PRT_STATUS_STATE n = (if (prtAt s n).mult then (if loopedL2 s n then pLOCK else pEQUALISE) else pCLOCK)
    ∧ rd (restartMult s n) F.PRT_STATUS_LANE_LOCK n = 0
    ∧ Touches [F.PRT_STATUS_STATE, F.PRT_STATUS_LANE_LOCK] s (restartMult s n) := by
  obtain ⟨u, hu⟩ : ∃ u, u = dropLanes s n := ⟨_, rfl⟩
  obtain ⟨x, hx⟩ : ∃ x, x = if (prtAt u n).mult then afterMult u n else pCLOCK := ⟨_, rfl⟩
  have hrestart : restartMult s n = wr u F.PRT_STATUS_STATE n x := by
    rw [hx, hu]
    unfold restartMult setRxState rxSet
    rw [if_neg hn8]
  have hset (k : Prt) : Touches [F.PRT_STATUS_LANE_LOCK] s (setPrt s n k) := .of_regs rfl
  have hsu : Touches [F.PRT_STATUS_LANE_LOCK] s u := by
    rw [hu, dropLanes, if_neg hn8]
    exact (hset _).wr _ _ _ (by simp)
  have hlane : rd u F.PRT_STATUS_LANE_LOCK n = 0 := by
    rw [hu, dropLanes, if_neg hn8, rd_wr_same]
    rfl
  have hmult : (prtAt u n).mult = (prtAt s n).mult := by
    have h (w : State) : prtAt (wr w F.PRT_STATUS_LANE_LOCK n 0) n = prtAt w n := rfl
    rw [hu, dropLanes, if_neg hn8, h, prtAt_setPrt]
  have hvalue : x = if (prtAt s n).mult then (if loopedL2 s n then pLOCK else pEQUALISE) else pCLOCK := by
    rw [hx, hmult, afterMult, loopedL2_touches hsu (by decide)]
  refine ⟨?_, ?_, ?_⟩
  · rw [hrestart, rd_wr_same, ← hvalue]
    refine Nat.mod_eq_of_lt ?_
    rw [hvalue]
    split
    · split <;> decide
    · decide
  · rw [hrestart, rd_wr_field _ _ _ _ _ _ (by decide), hlane]
  · rw [hrestart]
    exact (hsu.mono (by simp)).wr _ _ _ (by simp)

theorem retry_reads (s : State) {evt : Nat} (hevt : evt < 14) :
    rd (retry s n evt) F.PRT_STATUS_STATE n = (if (prtAt s n).mult then (if loopedL2 s n then pLOCK else pEQUALISE) else pCLOCK)
    ∧ hasBit (retry s n evt) F.PRT_EVT_EVT n evt = true ∧ rd (retry s n evt) F.PRT_STATUS_LANE_LOCK n = 0
    ∧ rd (retry s n evt) F.PRT_RETRIES_COUNT n = min (rd s F.PRT_RETRIES_COUNT n + 1) (2 ^ F.PRT_RETRIES_COUNT.width - 1) := by
  obtain ⟨u, hu⟩ : ∃ u, u = bump (prtEvt s n evt) F.PRT_RETRIES_COUNT n := ⟨_, rfl⟩
  have hretry : retry s n evt = restartMult u n := by
    unfold retry
    rw [if_neg hn8, hu]
  have hsu : Touches [F.PRT_EVT_EVT, F.PRT_RETRIES_COUNT] s u := by
    rw [hu]
    exact (Touches.refl.wr F.PRT_EVT_EVT n _ (by simp)).wr F.PRT_RETRIES_COUNT n _ (by simp)
  have hprt : prtAt u n = prtAt s n := by
    rw [hu]
    rfl
  obtain ⟨hstate, hlane, htouch⟩ := restartMult_reads hn8 u
  rw [hretry]
  refine ⟨?_, ?_, hlane, ?_⟩
  · rw [hstate, hprt, loopedL2_touches hsu (by decide)]
  · rw [hasBit, htouch _ _ (by decide), hu, rd_bump_field _ _ _ (by decide)]
    exact hasBit_setBit s F.PRT_EVT_EVT n evt hevt
  · rw [htouch _ _ (by decide), hu, rd_bump, prtEvt, setBit_eq, rd_wr_field _ _ _ _ _ _ (by decide)]

variable (hn : n < 9) (hworks : blockWorks s (rxBit n) = true) (hen : rxEn s n = true)
include hn hworks hen

theorem answers_linkRetry (hst : rxState s n = pDESKEW) (hdeskewed : (prtAt s n).deskewed = true) (hok : (prtAt s n).markerOk = false) :
    Answers (exec (.linkUp n) s) fun t =>
      rd t F.PRT_STATUS_STATE n = (if (prtAt s n).mult then (if loopedL2 s n then pLOCK else pEQUALISE) else pCLOCK)
      ∧ hasBit t F.PRT_EVT_EVT n 5 = true ∧ rd t F.PRT_STATUS_LANE_LOCK n = 0
      ∧ rd t F.PRT_RETRIES_COUNT n = min (rd s F.PRT_RETRIES_COUNT n + 1) (2 ^ F.PRT_RETRIES_COUNT.width - 1) := by
  have hlink : linkUp s n = retry s n 5 := by
    unfold linkUp
    dsimp only
    rw [if_neg (by rw [bringingUp_of hen hst (by decide) (by decide), hst, hdeskewed]; decide), if_pos (by rw [hok]; rfl)]
  refine answers_onBlock (f := fun s => linkUp s n) hn hworks fun t ht => ?_
  rw [hlink] at ht
  rw [ht.rd, ht.rd, ht.rd, ht.hasBit]
  exact retry_reads hn8 s (by decide)

theorem answers_stageTimeout (hst : rxState s n = pEQUALISE ∨ rxState s n = pLOCK ∨ rxState s n = pDESKEW)
    (hdeskewed : (prtAt s n).deskewed = false) : Answers (exec (.stageTimeout n) s) fun t =>
      rd t F.PRT_STATUS_STATE n = (if (prtAt s n).mult then (if loopedL2 s n then pLOCK else pEQUALISE) else pCLOCK)
      ∧ hasBit t F.PRT_EVT_EVT n 4 = true ∧ rd t F.PRT_STATUS_LANE_LOCK n = 0
      ∧ rd t F.PRT_RETRIES_COUNT n = min (rd s F.PRT_RETRIES_COUNT n + 1) (2 ^ F.PRT_RETRIES_COUNT.width - 1) := by
  have hrange : pCLOCK < rxState s n ∧ rxState s n < pUP := by
    rcases hst with h | h | h <;> rw [h] <;> decide
  have hup := bringingUp_of hen rfl (show pNOCLOCK ≤ rxState s n from Nat.le_trans (by decide) hrange.1.le) hrange.2.le
  have hstage : stageTimeout s n = retry s n 4 := by
    unfold stageTimeout
    dsimp only
    have hno : rxState s n ≠ pNOCLOCK ∧ rxState s n ≠ pUP ∧ rxState s n ≠ pCLOCK := by
      rcases hst with h | h | h <;> rw [h] <;> decide
    rw [if_neg (by rw [hup]; simp [hno]), if_neg (by rw [hdeskewed, Bool.false_and]; decide)]
  refine answers_onBlock (f := fun s => stageTimeout s n) hn hworks fun t ht => ?_
  rw [hstage] at ht
  rw [ht.rd, ht.rd, ht.rd, ht.hasBit]
  exact retry_reads hn8 s (by decide)

theorem answers_linkUp (hst : rxState s n = pDESKEW) (hdeskewed : (prtAt s n).deskewed = true) (hok : (prtAt s n).markerOk = true) :
    Answers (exec (.linkUp n) s) fun t =>
      rd t F.PRT_STATUS_STATE n = pUP ∧ rd t F.PRT_STATUS_LINK_UP n = 1 ∧ hasBit t F.PRT_EVT_EVT n 0 = true
      ∧ rd t F.PRT_LINKS_COUNT n = min (rd s F.PRT_LINKS_COUNT n + 1) (2 ^ F.PRT_LINKS_COUNT.width - 1)
      ∧ rd t F.PRT_LINKUP_NS_NS n = (s.ns - (prtAt s n).t0) % 2 ^ F.PRT_LINKUP_NS_NS.width := by
  obtain ⟨u, hu⟩ : ∃ u, u = setPrt s n { prtAt s n with missing := 0, skewLost := false } := ⟨_, rfl⟩
  obtain ⟨v, hv⟩ : ∃ v, v = wr (bump (prtEvt (wr (wr u F.PRT_STATUS_STATE n pUP) F.PRT_STATUS_LINK_UP n 1) n 0) F.PRT_LINKS_COUNT n)
      F.PRT_LINKUP_NS_NS n (s.ns - (prtAt s n).t0) := ⟨_, rfl⟩
  have hlink : linkUp s n = fireProducer v (48 + 2 * n) := by
    unfold linkUp
    dsimp only
    rw [if_neg (by rw [bringingUp_of hen hst (by decide) (by decide), hst, hdeskewed]; decide), if_neg (by rw [hok]; decide),
      if_neg hn8, ← hu]
    unfold setRxUp setRxState rxSet
    rw [if_neg hn8, if_neg hn8, hv, hu]
    rfl
  have htouch := fireProducer_touches v (48 + 2 * n)
  have hcount : rd u F.PRT_LINKS_COUNT n = rd s F.PRT_LINKS_COUNT n := by
    rw [hu]
    rfl
  refine answers_onBlock (f := fun s => linkUp s n) hn hworks fun t ht => ?_
  rw [hlink] at ht
  rw [ht.rd, ht.rd, ht.rd, ht.rd, ht.hasBit, hasBit, htouch _ _ (by decide), htouch _ _ (by decide), htouch _ _ (by decide),
    htouch _ _ (by decide), htouch _ _ (by decide), hv, ← hcount]
  simp (disch := decide) only [prtEvt, setBit_eq, bump_eq, rd_wr_field, rd_wr_same]
  refine ⟨by decide, by decide, ?_, ?_, trivial⟩
  · have h := hasBit_setBit u F.PRT_EVT_EVT n 0 (by decide)
    rwa [hasBit, setBit_eq, rd_wr_same] at h
  · have h := rd_bump u F.PRT_LINKS_COUNT n
    rwa [bump_eq, rd_wr_same] at h

end

/-- A HELLO without a valid image hash waits; it writes the hash engine's registers alone. -/
theorem sendHello_waits (hen : isSet s F.TWN_CTL_EN = true) (hvalid : isSet s F.SQ_HASH_CTL_VALID = false) :
    (sendHello s).twn.helloWait = true ∧ Touches [F.SQ_HASH_CTL_BUSY, F.SQ_HASH_CTL_VALID] s (sendHello s) := by
  have hset : Touches [F.SQ_HASH_CTL_BUSY, F.SQ_HASH_CTL_VALID] s (setTwn s { s.twn with helloWait := true }) := .of_regs rfl
  unfold sendHello
  rw [hen, hvalid]
  dsimp only
  rw [if_neg (by decide), if_neg (by decide)]
  generalize hw : setTwn s { s.twn with helloWait := true } = w at hset ⊢
  have hwait : w.twn.helloWait = true := by rw [← hw]; rfl
  split
  · unfold hashStart
    split
    · exact ⟨hwait, hset⟩
    · have hdue : Touches [F.SQ_HASH_CTL_BUSY, F.SQ_HASH_CTL_VALID] w { w with hashDue := some (w.ns + 40960), hashDirty := false } := .of_regs rfl
      exact ⟨hwait, hset.trans ((hdue.wr _ _ _ (by simp)).wr _ _ _ (by simp))⟩
  · exact ⟨hwait, hset⟩

theorem answers_twinLinkUp (hworks : blockWorks s (rxBit 8) = true) (hen : rxEn s 8 = true) (hst : rxState s 8 = pDESKEW)
    (hdeskewed : (prtAt s 8).deskewed = true) (hok : (prtAt s 8).markerOk = true) (hvalid : isSet s F.SQ_HASH_CTL_VALID = false) :
    Answers (exec (.linkUp 8) s) fun t =>
      rd t F.TWN_RX_STATUS_STATE = pUP ∧ rd t F.TWN_RX_STATUS_LINK_UP = 1 ∧ rd t F.TWN_STATUS_LINK_UP = 1
      ∧ hasBit t F.TWN_EVT_EVT 0 14 = true ∧ t.twn.helloWait = true := by
  obtain ⟨u, hu⟩ : ∃ u, u = setPrt s 8 { prtAt s 8 with missing := 0, skewLost := false } := ⟨_, rfl⟩
  obtain ⟨v, hv⟩ : ∃ v, v = twnEvt (wr (wr (wr u F.TWN_RX_STATUS_STATE 0 pUP) F.TWN_RX_STATUS_LINK_UP 0 1) F.TWN_STATUS_LINK_UP 0 1) 14 :=
    ⟨_, rfl⟩
  have hlink : linkUp s 8 = sendHello v := by
    unfold linkUp
    dsimp only
    rw [if_neg (by rw [bringingUp_of hen hst (by decide) (by decide), hst, hdeskewed]; decide), if_neg (by rw [hok]; decide), ← hu, hv]
    rfl
  have htouch : Touches [F.TWN_RX_STATUS_STATE, F.TWN_RX_STATUS_LINK_UP, F.TWN_STATUS_LINK_UP, F.TWN_EVT_EVT] s v := by
    have h0 : Touches [F.TWN_RX_STATUS_STATE, F.TWN_RX_STATUS_LINK_UP, F.TWN_STATUS_LINK_UP, F.TWN_EVT_EVT] s u := by
      rw [hu]
      exact .of_regs rfl
    rw [hv]
    exact (((h0.wr _ _ _ (by simp)).wr _ _ _ (by simp)).wr _ _ _ (by simp)).wr F.TWN_EVT_EVT _ _ (by simp)
  have htwn : isSet s F.TWN_CTL_EN = true := by
    unfold rxEn at hen
    exact (Bool.and_eq_true_iff.mp hen).2
  obtain ⟨hwait, hhello⟩ := sendHello_waits (s := v) ((isSet_congr (htouch _ _ (by decide))).trans htwn)
    ((isSet_congr (htouch _ _ (by decide))).trans hvalid)
  refine answers_onBlock (f := fun s => linkUp s 8) (show 8 < 9 by decide) hworks fun t ht => ?_
  rw [hlink] at ht
  rw [ht.rd, ht.rd, ht.rd, ht.hasBit, ht.twn, hasBit, hhello _ _ (by decide), hhello _ _ (by decide), hhello _ _ (by decide),
    hhello _ _ (by decide), hv]
  refine ⟨?_, ?_, ?_, ?_, hv ▸ hwait⟩
  · simp (disch := decide) only [twnEvt, setBit_eq, rd_wr_field, rd_wr_same]
    rfl
  · simp (disch := decide) only [twnEvt, setBit_eq, rd_wr_field, rd_wr_same]
    rfl
  · simp (disch := decide) only [twnEvt, setBit_eq, rd_wr_field, rd_wr_same]
    rfl
  · exact hasBit_setBit _ F.TWN_EVT_EVT 0 14 (by decide)

end

/-- Settles O28, clause by clause. -/
theorem receiveSidesComeUpByStages : Obligations.ReceiveSidesComeUpByStages := by
  intro s n hn hworks hen
  refine ⟨fun hclk hst => answers_fckDetect hn hworks hen hclk hst,
    fun khz hclk hst hmult => ⟨fun hlo hhi => answers_freqGood hn hworks hen hclk hst hmult hlo hhi,
      fun hhi => answers_freqHigh hn hworks hen hclk hst hmult hhi⟩,
    fun hclk hok hst => answers_multLock hn hworks hen hclk hok hst,
    fun hst => ⟨answers_phaseCentred hn hworks hen hst, fun foms hcentred => answers_ctleDone hn hworks hen hst hcentred foms⟩,
    fun j units hst hj hunits => answers_laneLock hn hworks hen hst hj hunits,
    fun cols q hst hloop hmk => answers_markerColumn hn hworks hen hst hloop hmk,
    fun hst hagree => answers_deskew hn hworks hen hst hagree,
    fun hn8 hst hdeskewed => ⟨fun hok => answers_linkUp hn8.ne hn hworks hen hst hdeskewed hok,
      fun hok => answers_linkRetry hn8.ne hn hworks hen hst hdeskewed hok⟩,
    ?_, fun hn8 hst hdeskewed => answers_stageTimeout hn8.ne hn hworks hen hst hdeskewed⟩
  rintro rfl hst hdeskewed hok hvalid
  exact answers_twinLinkUp hworks hen hst hdeskewed hok hvalid

end Sys2Proof.Machine
end

section
/-! A port's link goes down: losses of lane lock, deskew and clock, RESTART, and units in error (R239, R240, R247 to R253). -/
open Sys2Proof
namespace Sys2Proof.Machine

section
variable {s t u v : State} {n j : Nat}

/-! ### The link goes down (R248) -/

theorem portOpen_congr (h : u.frames = s.frames) (n : Nat) : portOpen u n = portOpen s n := by
  unfold portOpen
  rw [h]

theorem cutLink_none (h : portOpen s n = false) : cutLink s n = s := by
  have hnone : s.frames.filter (fun f => f.phase == .open && f.port == n) = [] :=
    List.filter_eq_nil_iff.mpr fun f hf he => by
      have := List.any_eq_false.mp h f hf
      exact this he
  unfold cutLink cutFrames
  rw [hnone]
  dsimp only [List.foldl_nil]
  rw [hnone]
  rfl

/-- What the streams of the follower await is all that changes. -/
theorem twnPortDown_keeps (s : State) (n : Nat) :
    (twnPortDown s n).prt = s.prt ∧ (twnPortDown s n).ns = s.ns ∧ Touches [] s (twnPortDown s n) := by
  have hfold : ∃ x, twnAwaitFs s (· == n) = { s with twnStreams := x } := by
    unfold twnAwaitFs
    refine foldl_frame (R := fun u v => ∃ x, v = { u with twnStreams := x }) (fun u => ⟨u.twnStreams, rfl⟩)
      (fun ⟨x, hx⟩ ⟨y, hy⟩ => ⟨y, by rw [hy, hx]⟩) (fun u k => ?_) _ s
    dsimp only
    split
    · exact ⟨_, rfl⟩
    · exact ⟨u.twnStreams, rfl⟩
  obtain ⟨x, hx⟩ := hfold
  unfold twnPortDown
  rw [hx]
  split
  · exact ⟨rfl, rfl, .of_regs rfl⟩
  · exact ⟨rfl, rfl, .refl⟩

/-- The registers of a link that goes down. -/
def downFields : List Field :=
  [F.PRT_STATUS_STATE, F.PRT_STATUS_LINK_UP, F.PRT_STATUS_ENTRY_PENDING, F.PRT_EVT_EVT, F.PRT_DOWNS_COUNT] ++ beaconFields

/-- The link of port n has gone down, with the port in state `st`. -/
structure WentDown (s u : State) (n st : Nat) : Prop where
  state : rd u F.PRT_STATUS_STATE n = st
  linkUp : rd u F.PRT_STATUS_LINK_UP n = 0
  evt : hasBit u F.PRT_EVT_EVT n 1 = true
  evts : ∀ b, hasBit s F.PRT_EVT_EVT n b = true → hasBit u F.PRT_EVT_EVT n b = true
  downs : rd u F.PRT_DOWNS_COUNT n = min (rd s F.PRT_DOWNS_COUNT n + 1) (2 ^ F.PRT_DOWNS_COUNT.width - 1)
  prt : prtAt u n = { prtAt s n with entry := none, exit := none }
  ns : u.ns = s.ns
  touches : Touches downFields s u

theorem isSet_of_rxUp (hn8 : n ≠ 8) : rxUp s n = isSet s F.PRT_STATUS_LINK_UP n := by
  unfold rxUp rxGet isSet
  rw [if_neg hn8]

theorem rxState_port (hn8 : n ≠ 8) : rxState s n = rd s F.PRT_STATUS_STATE n := by
  unfold rxState rxGet
  rw [if_neg hn8]

theorem linkDown_went (hn8 : n ≠ 8) (hup : isSet s F.PRT_STATUS_LINK_UP n = true) (hopen : portOpen s n = false) {st : Nat} (hst : st < 2 ^ 4) :
    WentDown s (linkDown s n st) n st := by
  obtain ⟨u, hu⟩ : ∃ u, u = wr (setPrt (wr (wr s F.PRT_STATUS_STATE n st) F.PRT_STATUS_LINK_UP n 0) n
      { prtAt s n with entry := none, exit := none }) F.PRT_STATUS_ENTRY_PENDING n 0 := ⟨_, rfl⟩
  obtain ⟨v, hv⟩ : ∃ v, v = bump (prtEvt u n 1) F.PRT_DOWNS_COUNT n := ⟨_, rfl⟩
  have hfires := fireProducer_firesOnly v (49 + 2 * n)
  have hfire := fireProducer_touches v (49 + 2 * n)
  have hframes : (fireProducer v (49 + 2 * n)).frames = s.frames := by
    have e := congrArg State.frames hfires
    rw [e, hv, hu]
    rfl
  have hdown : linkDown s n st = twnPortDown (fireProducer v (49 + 2 * n)) n := by
    rw [← cutLink_none ((portOpen_congr hframes n).trans hopen)]
    unfold linkDown
    rw [if_neg (by rw [isSet_of_rxUp hn8, hup]; decide)]
    dsimp only
    rw [if_neg hn8, hv, hu]
    unfold setRxUp setRxState rxSet
    rw [if_neg hn8, if_neg hn8]
    rfl
  obtain ⟨hprt, hns, htwn⟩ := twnPortDown_keeps (fireProducer v (49 + 2 * n)) n
  have hset (w : State) (k : Prt) : Touches downFields w (setPrt w n k) := .of_regs rfl
  have hwr (w : State) (f : Field) (x : Nat) (hf : f ∈ downFields) : Touches downFields w (wr w f n x) := Touches.refl.wr _ _ _ hf
  have hsu : Touches downFields s u := by
    rw [hu]
    exact (((hwr s _ _ (by decide)).trans (hwr _ _ _ (by decide))).trans (hset _ _)).trans (hwr _ _ _ (by decide))
  have huv : Touches downFields u v := by
    rw [hv]
    exact (hwr u F.PRT_EVT_EVT _ (by decide)).trans (hwr _ F.PRT_DOWNS_COUNT _ (by decide))
  have hreg (w : State) (k : Prt) (f : Field) : rd (setPrt w n k) f n = rd w f n := rfl
  have hue : rd u F.PRT_EVT_EVT n = rd s F.PRT_EVT_EVT n ∧ rd u F.PRT_DOWNS_COUNT n = rd s F.PRT_DOWNS_COUNT n := by
    rw [hu]
    simp (disch := decide) only [rd_wr_field, hreg, and_self]
  have hread (f : Field) (hf : ∀ g ∈ beaconFields, g.fid % 1024 ≠ f.fid % 1024) : rd (linkDown s n st) f n = rd v f n := by
    rw [hdown, htwn f n (by simp), hfire f n hf]
  have hevt : rd v F.PRT_EVT_EVT n = rd (setBit u F.PRT_EVT_EVT n 1) F.PRT_EVT_EVT n := by
    rw [hv, rd_bump_field _ _ _ (by decide)]
    rfl
  refine ⟨?_, ?_, ?_, fun b hb => ?_, ?_, ?_, ?_, ?_⟩
  · rw [hread _ (by decide), hv, hu]
    simp (disch := decide) only [prtEvt, setBit_eq, bump_eq, rd_wr_field, hreg]
    exact (rd_wr_same s F.PRT_STATUS_STATE n st).trans (Nat.mod_eq_of_lt hst)
  · rw [hread _ (by decide), hv, hu]
    simp (disch := decide) only [prtEvt, setBit_eq, bump_eq, rd_wr_field]
    exact rd_wr_same (wr s F.PRT_STATUS_STATE n st) F.PRT_STATUS_LINK_UP n 0
  · rw [hasBit, hread _ (by decide), hevt]
    exact hasBit_setBit u _ n 1 (by decide)
  · rw [hasBit, hread _ (by decide), hevt]
    refine hasBit_setBit_of u _ n 1 b (by decide) ?_
    rwa [hasBit, hue.1]
  · rw [hread _ (by decide), hv, rd_bump, prtEvt, setBit_eq, rd_wr_field _ _ _ _ _ _ (by decide), hue.2]
  · have e := congrArg State.prt hfires
    have hp : prtAt (linkDown s n st) n = prtAt v n := by
      unfold prtAt
      rw [hdown, hprt, e]
    have hp' (w : State) (k : Prt) : prtAt (bump (prtEvt (wr (setPrt w n k) F.PRT_STATUS_ENTRY_PENDING n 0) n 1) F.PRT_DOWNS_COUNT n) n = k :=
      prtAt_setPrt w n k
    rw [hp, hv, hu, hp']
  · have e := congrArg State.ns hfires
    rw [hdown, hns, e, hv, hu]
    rfl
  · rw [hdown]
    exact (hsu.trans huv).trans ((hfire.mono fun f hf => List.mem_append_right _ hf).trans (htwn.mono (by simp)))

/-! ### Lanes that lose their lock or their deskew (R247, R248) -/

/-- The link is down and its lanes have no lock. -/
def Cut (s u : State) (n : Nat) : Prop :=
  rd u F.PRT_STATUS_LINK_UP n = 0 ∧ hasBit u F.PRT_EVT_EVT n 1 = true
    ∧ rd u F.PRT_DOWNS_COUNT n = min (rd s F.PRT_DOWNS_COUNT n + 1) (2 ^ F.PRT_DOWNS_COUNT.width - 1)
    ∧ rd u F.PRT_STATUS_LANE_LOCK n = 0

/-- The port has gone back to the stage of the clock multiplier. -/
def Reacquires (s u : State) (n : Nat) : Prop :=
  rd u F.PRT_STATUS_STATE n = if (prtAt s n).mult then (if loopedL2 s n then pLOCK else pEQUALISE) else pCLOCK

theorem Settled.cut (h : Settled u t) (hu : Cut s u n) : Cut s t n := by
  unfold Cut at *
  rwa [h.rd, h.rd, h.rd, h.hasBit]

theorem Settled.reacquires (h : Settled u t) (hu : Reacquires s u n) : Reacquires s t n := by
  unfold Reacquires at *
  rwa [h.rd]

theorem linkLost_reads (hn8 : n ≠ 8) (hup : isSet s F.PRT_STATUS_LINK_UP n = true) (hopen : portOpen s n = false) :
    Cut s (linkLost s n) n ∧ Reacquires s (linkLost s n) n
    ∧ (∀ b, hasBit s F.PRT_EVT_EVT n b = true → hasBit (linkLost s n) F.PRT_EVT_EVT n b = true)
    ∧ Touches (F.PRT_STATUS_LANE_LOCK :: downFields) s (linkLost s n) := by
  have hdown := linkDown_went hn8 hup hopen (st := pEQUALISE) (by decide)
  obtain ⟨u, hu⟩ : ∃ u, u = linkDown s n pEQUALISE := ⟨_, rfl⟩
  rw [← hu] at hdown
  obtain ⟨w, hw⟩ : ∃ w, w = setPrt u n { prtAt u n with t0 := u.ns } := ⟨_, rfl⟩
  have hlost : linkLost s n = burstRequest (restartMult w n) n := by
    rw [hw, hu]
    rfl
  have hregs : w.regs = u.regs := by rw [hw]; rfl
  have huw : Touches downFields u w := .of_regs hregs
  have hmult : (prtAt w n).mult = (prtAt s n).mult := by rw [hw, prtAt_setPrt, hdown.prt]
  obtain ⟨hstate, hlane, hrestart⟩ := restartMult_reads hn8 w
  have hburst := (burstRequest_only (restartMult w n) n).2
  have hread (f : Field) (hf : ∀ g ∈ [F.PRT_STATUS_STATE, F.PRT_STATUS_LANE_LOCK], g.fid % 1024 ≠ f.fid % 1024) :
      rd (linkLost s n) f n = rd u f n := by
    rw [hlost, hburst f n (by simp), hrestart f n hf]
    exact rd_congr hregs f n
  refine ⟨⟨?_, ?_, ?_, ?_⟩, ?_, fun b hb => ?_, ?_⟩
  · rw [hread _ (by decide), hdown.linkUp]
  · rw [hasBit, hread _ (by decide)]
    exact hdown.evt
  · rw [hread _ (by decide), hdown.downs]
  · rw [hlost, hburst _ n (by simp), hlane]
  · unfold Reacquires
    rw [hlost, hburst _ n (by simp), hstate, hmult, loopedL2_touches (hdown.touches.trans huw) (by decide)]
  · rw [hasBit, hread _ (by decide)]
    exact hdown.evts b hb
  · rw [hlost]
    exact ((hdown.touches.trans huw).mono fun f hf => .tail _ hf).trans ((hrestart.mono (by decide)).trans (hburst.mono (by simp)))

/-- A port whose lanes have dropped, with another record of its own. -/
theorem dropped_reads (hn8 : n ≠ 8) {k : Prt} (h : u = setPrt (dropLanes s n) n k) :
    rd u F.PRT_STATUS_LANE_LOCK n = 0 ∧ Touches [F.PRT_STATUS_LANE_LOCK] s u := by
  have hset (w : State) (k : Prt) : Touches [F.PRT_STATUS_LANE_LOCK] w (setPrt w n k) := .of_regs rfl
  have hreg (w : State) (k : Prt) (f : Field) : rd (setPrt w n k) f n = rd w f n := rfl
  rw [h, dropLanes, if_neg hn8]
  refine ⟨?_, ((hset s _).wr _ _ _ (by simp)).trans (hset _ k)⟩
  rw [hreg, rd_wr_same]
  rfl

section
variable (hn : n < 8) (hworks : blockWorks s (21 + n) = true) (hen : rxEn s n = true) (hst : rd s F.PRT_STATUS_STATE n = pUP)
  (hup : isSet s F.PRT_STATUS_LINK_UP n = true) (hopen : portOpen s n = false)
include hn hworks hen hst hup hopen

theorem answers_laneLockLost (hj : j < 4) {units : List Nat} (hlocked : laneLocked s n j = true)
    (hbreaks : breaksLock (rxGen s n) (units.map (laneUnit s n j)) = true) : Answers (exec (.laneLockLost n j units) s) fun t =>
      Cut s t n ∧ Reacquires s t n
      ∧ rd t F.PRT_LANE_LOCK_LOSS_COUNT (4 * n + j)
        = min (rd s F.PRT_LANE_LOCK_LOSS_COUNT (4 * n + j) + 1) (2 ^ F.PRT_LANE_LOCK_LOSS_COUNT.width - 1) := by
  have hn8 : n ≠ 8 := hn.ne
  obtain ⟨u, hu⟩ : ∃ u, u = bump (putBit s F.PRT_STATUS_LANE_LOCK n j false) F.PRT_LANE_LOCK_LOSS_COUNT (4 * n + j) := ⟨_, rfl⟩
  have hsu : Touches [F.PRT_STATUS_LANE_LOCK, F.PRT_LANE_LOCK_LOSS_COUNT] s u := by
    rw [hu]
    exact ((putBit_touches s _ n j false).mono (by decide)).trans (Touches.refl.wr F.PRT_LANE_LOCK_LOSS_COUNT _ _ (by decide))
  have hframes : u.frames = s.frames ∧ prtAt u n = prtAt s n := by
    rw [hu]
    exact ⟨rfl, rfl⟩
  have hset : isSet u F.PRT_STATUS_LINK_UP n = true := (isSet_congr (hsu _ _ (by decide))).trans hup
  have hjudge : laneJudge s n j units = linkLost u n := by
    unfold laneJudge laneLost
    dsimp only
    rw [if_pos hbreaks, if_neg (by rw [hen, hlocked, rxState_port hn8, hst]; decide)]
    unfold setLaneLock laneBump
    rw [if_neg hn8, if_neg hn8, ← hu, if_pos ((isSet_of_rxUp hn8).trans hset)]
  obtain ⟨⟨hlink, hevt, hdowns, hlanes⟩, hagain, -, htouch⟩ := linkLost_reads hn8 hset ((portOpen_congr hframes.1 n).trans hopen)
  have hrx : blockWorks s (rxBit n) = true := by rwa [rxBit, if_neg hn8]
  refine answers_onBlock (f := fun s => if j < 4 then laneJudge s n j units else s) (show n < 9 by omega) hrx fun t ht => ?_
  rw [if_pos hj, hjudge] at ht
  refine ⟨ht.cut ⟨hlink, hevt, ?_, hlanes⟩, ht.reacquires ?_, ?_⟩
  · rw [hdowns, hsu _ _ (by decide)]
  · unfold Reacquires at *
    rw [hagain, hframes.2, loopedL2_touches hsu (by decide)]
  · rw [ht.rd, htouch _ _ (by decide), hu, rd_bump]
    have h := putBit_touches s F.PRT_STATUS_LANE_LOCK n j false
    rw [h _ _ (by decide)]

omit hen in
theorem answers_deskewLost (hskew : (prtAt s n).skewLost = true) : Answers (exec (.deskewLost n) s) fun t =>
    Cut s t n ∧ Reacquires s t n ∧ hasBit t F.PRT_EVT_EVT n 6 = true := by
  have hn8 : n ≠ 8 := hn.ne
  obtain ⟨u, hu⟩ : ∃ u, u = setBit s F.PRT_EVT_EVT n 6 := ⟨_, rfl⟩
  have hsu : Touches [F.PRT_EVT_EVT] s u := by
    rw [hu]
    exact Touches.refl.wr F.PRT_EVT_EVT _ _ (by simp)
  have hframes : u.frames = s.frames ∧ prtAt u n = prtAt s n := by
    rw [hu]
    exact ⟨rfl, rfl⟩
  have hset : isSet u F.PRT_STATUS_LINK_UP n = true := (isSet_congr (hsu _ _ (by decide))).trans hup
  have hlost : deskewLost s n = linkLost u n := by
    unfold deskewLost
    rw [if_pos (by rw [isSet_of_rxUp hn8, hup, rxState_port hn8, hst, hskew]; decide), rxEvt, if_neg hn8, hu]
    rfl
  obtain ⟨⟨hlink, hevt, hdowns, hlanes⟩, hagain, hevts, -⟩ := linkLost_reads hn8 hset ((portOpen_congr hframes.1 n).trans hopen)
  have hrx : blockWorks s (rxBit n) = true := by rwa [rxBit, if_neg hn8]
  refine answers_onBlock (f := fun s => deskewLost s n) (show n < 9 by omega) hrx fun t ht => ?_
  rw [hlost] at ht
  refine ⟨ht.cut ⟨hlink, hevt, ?_, hlanes⟩, ht.reacquires ?_, ?_⟩
  · rw [hdowns, hsu _ _ (by decide)]
  · unfold Reacquires at *
    rw [hagain, hframes.2, loopedL2_touches hsu (by decide)]
  · rw [ht.hasBit]
    refine hevts 6 ?_
    rw [hu]
    exact hasBit_setBit s _ n 6 (by decide)

/-! ### FCK lost and RESTART (R249, R253) -/

theorem answers_clkLost (hclk : isSet s F.PRT_STATUS_CLK_PRESENT n = true) : Answers (exec (.clkLost n) s) fun t =>
    Cut s t n ∧ rd t F.PRT_STATUS_CLK_PRESENT n = 0 ∧ hasBit t F.PRT_EVT_EVT n 2 = true
    ∧ rd t F.PRT_CLK_LOSSES_COUNT n = min (rd s F.PRT_CLK_LOSSES_COUNT n + 1) (2 ^ F.PRT_CLK_LOSSES_COUNT.width - 1)
    ∧ rd t F.PRT_STATUS_STATE n = pNOCLOCK ∧ (prtAt t n).mult = false := by
  have hn8 : n ≠ 8 := hn.ne
  obtain ⟨u, hu⟩ : ∃ u, u = bump (prtEvt (wr s F.PRT_STATUS_CLK_PRESENT n 0) n 2) F.PRT_CLK_LOSSES_COUNT n := ⟨_, rfl⟩
  have hsu : Touches [F.PRT_STATUS_CLK_PRESENT, F.PRT_EVT_EVT, F.PRT_CLK_LOSSES_COUNT] s u := by
    rw [hu]
    exact ((Touches.refl.wr _ _ _ (by simp)).wr F.PRT_EVT_EVT _ _ (by simp)).wr F.PRT_CLK_LOSSES_COUNT _ _ (by simp)
  have hframes : u.frames = s.frames := by
    rw [hu]
    rfl
  have hstate : rd u F.PRT_STATUS_STATE n = pUP := (hsu _ _ (by decide)).trans hst
  have hset : isSet u F.PRT_STATUS_LINK_UP n = true := (isSet_congr (hsu _ _ (by decide))).trans hup
  have hdown := linkDown_went (s := u) hn8 hset ((portOpen_congr hframes n).trans hopen) (st := pNOCLOCK) (by decide)
  obtain ⟨d, hd⟩ : ∃ d, d = linkDown u n pNOCLOCK := ⟨_, rfl⟩
  rw [← hd] at hdown
  obtain ⟨f, hf⟩ : ∃ f, f = setPrt (dropLanes d n) n { prtAt (dropLanes d n) n with mult := false, freqOk := false } := ⟨_, rfl⟩
  have hdf := dropped_reads hn8 (s := d) hf
  have hlost : clkLost s n = relaysSync f := by
    have hclk' : rxClk s n = true := by
      unfold rxClk rxGet
      rwa [if_neg hn8]
    rw [hf, hd, hu]
    unfold clkLost setRxClk rxSet
    dsimp only
    rw [if_neg (by rw [hen, hclk']; decide), if_neg hn8, if_neg hn8, ← hu, rxState_port hn8, hstate, if_neg (by decide), if_neg (by decide)]
  have hsync := relaysSync_touches f
  have hread (g : Field) (hg : ∀ x ∈ F.PRT_STATUS_LANE_LOCK :: relayFields, x.fid % 1024 ≠ g.fid % 1024) :
      rd (relaysSync f) g n = rd d g n := by
    rw [hsync g n (fun x hx => hg x (.tail _ hx)), hdf.2 g n (fun x hx => hg x (by rw [List.mem_singleton.mp hx]; exact .head _))]
  have hrx : blockWorks s (rxBit n) = true := by rwa [rxBit, if_neg hn8]
  refine answers_onBlock (f := fun s => clkLost s n) (show n < 9 by omega) hrx fun t ht => ?_
  rw [hlost] at ht
  refine ⟨ht.cut ⟨?_, ?_, ?_, ?_⟩, ?_, ?_, ?_, ?_, ?_⟩
  · rw [hread _ (by decide), hdown.linkUp]
  · rw [hasBit, hread _ (by decide)]
    exact hdown.evt
  · rw [hread _ (by decide), hdown.downs, hsu _ _ (by decide)]
  · rw [hsync _ _ (by decide), hdf.1]
  · rw [ht.rd, hread _ (by decide), hdown.touches _ _ (by decide), hu]
    simp (disch := decide) only [prtEvt, setBit_eq, bump_eq, rd_wr_field, rd_wr_same]
    rfl
  · rw [ht.hasBit, hasBit, hread _ (by decide)]
    refine hdown.evts 2 ?_
    rw [hu, hasBit, rd_bump_field _ _ _ (by decide)]
    exact hasBit_setBit _ F.PRT_EVT_EVT n 2 (by decide)
  · have hcount : rd (prtEvt (wr s F.PRT_STATUS_CLK_PRESENT n 0) n 2) F.PRT_CLK_LOSSES_COUNT n = rd s F.PRT_CLK_LOSSES_COUNT n := by
      simp (disch := decide) only [prtEvt, setBit_eq, rd_wr_field]
    rw [ht.rd, hread _ (by decide), hdown.touches _ _ (by decide), hu, rd_bump, hcount]
  · rw [ht.rd, hread _ (by decide), hdown.state]
  · rw [ht.prtAt, (relaysSync_only f).prtAt, hf, prtAt_setPrt]

theorem answers_restart (hclk : isSet s F.PRT_STATUS_CLK_PRESENT n = true) : Answers (exec (.restart n) s) fun t =>
    Cut s t n ∧ rd t F.PRT_STATUS_STATE n = pCLOCK ∧ (prtAt t n).t0 = s.ns := by
  have hn8 : n ≠ 8 := hn.ne
  have hdown := linkDown_went hn8 hup hopen (st := pCLOCK) (by decide)
  obtain ⟨d, hd⟩ : ∃ d, d = linkDown s n pCLOCK := ⟨_, rfl⟩
  rw [← hd] at hdown
  obtain ⟨e, he⟩ : ∃ e, e = setPrt d n { prtAt s n with entry := none, exit := none } := ⟨_, rfl⟩
  obtain ⟨f, hf⟩ : ∃ f, f = setPrt (dropLanes e n) n { prtAt (dropLanes e n) n with t0 := (dropLanes e n).ns, freqOk := false } := ⟨_, rfl⟩
  have hef := dropped_reads hn8 (s := e) hf
  have hde : Touches [F.PRT_STATUS_LANE_LOCK] d e := by
    rw [he]
    exact .of_regs rfl
  have hdf := hde.trans hef.2
  have hclkf : rxClk f n = true := by
    unfold rxClk rxGet
    rw [if_neg hn8, hdf _ _ (by decide), hdown.touches _ _ (by decide)]
    exact hclk
  have hwait : portRestart s n = relaysSync (wr f F.PRT_STATUS_STATE n pCLOCK) := by
    have hawait : awaitClock e n = wr f F.PRT_STATUS_STATE n pCLOCK := by
      have h : awaitClock e n = setRxState f n (if rxClk f n then pCLOCK else pNOCLOCK) := by
        rw [hf]
        rfl
      rw [h, hclkf, if_pos rfl]
      unfold setRxState rxSet
      rw [if_neg hn8]
    rw [← hawait, he, hd]
    unfold portRestart
    dsimp only
    rw [if_neg (by rw [hen, rxState_port hn8, hst]; decide)]
  have hsync := relaysSync_touches (wr f F.PRT_STATUS_STATE n pCLOCK)
  have hread (g : Field) (hg : ∀ x ∈ F.PRT_STATUS_LANE_LOCK :: F.PRT_STATUS_STATE :: relayFields, x.fid % 1024 ≠ g.fid % 1024) :
      rd (relaysSync (wr f F.PRT_STATUS_STATE n pCLOCK)) g n = rd d g n := by
    rw [hsync g n (fun x hx => hg x (.tail _ (.tail _ hx))), rd_wr_field _ _ _ _ _ _ (hg _ (by simp)),
      hdf g n (fun x hx => hg x (by rw [List.mem_singleton.mp hx]; exact .head _))]
  have hrx : blockWorks s (rxBit n) = true := by rwa [rxBit, if_neg hn8]
  refine answers_onBlock (f := fun s => portRestart s n) hn hrx fun t ht => ?_
  rw [hwait] at ht
  refine ⟨ht.cut ⟨?_, ?_, ?_, ?_⟩, ?_, ?_⟩
  · rw [hread _ (by decide), hdown.linkUp]
  · rw [hasBit, hread _ (by decide)]
    exact hdown.evt
  · rw [hread _ (by decide), hdown.downs]
  · rw [hsync _ _ (by decide), rd_wr_field _ _ _ _ _ _ (by decide), hef.1]
  · rw [ht.rd, hsync _ _ (by decide), rd_wr_same]
    rfl
  · have hns : (dropLanes e n).ns = s.ns := by
      rw [dropLanes, if_neg hn8, he]
      exact hdown.ns
    have hw : prtAt (wr f F.PRT_STATUS_STATE n pCLOCK) n = prtAt f n := rfl
    rw [ht.prtAt, (relaysSync_only _).prtAt, hw, hf, prtAt_setPrt, hns]

end

/-! ### Units in error (R239, R240) -/

/-- A sample that relays forward leaves all but their lines. -/
theorem relayForward_only (s : State) (n : Nat) (us : List (Nat × Nat)) : relayForward s n us = { s with lines := (relayForward s n us).lines } := by
  unfold relayForward
  refine foldl_frame (R := fun u v => v = { u with lines := v.lines }) (fun u => rfl) (fun h h' => by rw [h', h]) (fun u k => ?_) _ s
  dsimp only
  split
  · rfl
  · rfl

theorem logLane_of_mem (h : j ∈ usedLanes s n) : ∃ i, logLane s n j = some i := by
  obtain ⟨i, hi, rfl⟩ := List.mem_map.mp h
  exact Option.isSome_iff_exists.mp (List.find?_isSome.mpr ⟨i, hi, beq_self_eq_true _⟩)

section
variable (hn : n < 8) (hworks : blockWorks s (21 + n) = true) (hen : rxEn s n = true) (hst : rd s F.PRT_STATUS_STATE n = pUP)
  (hlocked : laneLocked s n j = true) (hj : j ∈ usedLanes s n)
include hn hworks hen hst hlocked hj

/-- A unit in error counts in the error counter of its kind. -/
theorem answers_unitError {prev unit kind : Nat} {bytes : List (Option Nat)} {p q : Field}
    (hpq : (if kind = 0 then (F.PRT_LANE_CODE_ERR_COUNT, F.TWN_RX_CODE_ERR_COUNT)
      else (F.PRT_LANE_CTRL_ERR_COUNT, F.TWN_RX_CTRL_ERR_COUNT)) = (p, q))
    (hbad : unitOf (rxGen s n) (laneUnit s n j prev) (laneUnit s n j unit) = .bad kind bytes) :
    Answers (exec (.rxControlError n j prev unit) s) fun t =>
      rd t p (4 * n + j) = min (rd s p (4 * n + j) + 1) (2 ^ p.width - 1)
      ∧ Keeps [(p, 4 * n + j)] s t ∧ Settled { s with regs := t.regs, lines := t.lines } t := by
  have hn8 : n ≠ 8 := hn.ne
  obtain ⟨i, hi⟩ := logLane_of_mem hj
  obtain ⟨u, hu⟩ : ∃ u, u = relayForward s n [(i, laneUnit s n j unit)] := ⟨_, rfl⟩
  have hlines : u = { s with lines := u.lines } := by
    rw [hu]
    exact relayForward_only s n _
  have hregs : u.regs = s.regs := by have e := congrArg State.regs hlines; exact e
  have hsu : Touches [] s u := .of_regs hregs
  have hrelay : RelayOnly s u := by
    unfold RelayOnly
    rw [hlines]
  have herr : rxUnit s n j prev unit = bump u p (4 * n + j) := by
    have hlock : laneLocked u n j = true := by
      rw [← hlocked, laneLocked, laneLocked, if_neg hn8, if_neg hn8, hsu _ _ (by simp)]
    have hrx : rxError u n j kind = bump u p (4 * n + j) := by
      unfold rxError laneBump
      dsimp only
      rw [if_neg (by rw [hrelay.rxEn hsu (by simp), hen, hlock, rxState_touches hsu (by simp), rxState_port hn8, hst]; decide),
        if_neg hn8, if_neg hn8]
      split
      · rename_i h
        rw [if_pos h] at hpq
        rw [(Prod.mk.inj hpq).1]
      · rename_i h
        rw [if_neg h] at hpq
        rw [(Prod.mk.inj hpq).1]
    unfold rxUnit
    rw [hi]
    dsimp only
    have hunit : unitOf (rxGen u n) (laneUnit u n j prev) (laneUnit s n j unit) = .bad kind bytes := by
      have hgen : rxGen u n = rxGen s n := by rw [rxGen, rxGen, hsu _ _ (by simp)]
      have hinvert : laneInvert u n j = laneInvert s n j := by rw [laneInvert, laneInvert, if_neg hn8, if_neg hn8, hsu _ _ (by simp)]
      rwa [laneUnit, hgen, hinvert]
    rw [← hu, hunit]
    exact hrx
  have hrx : blockWorks s (rxBit n) = true := by rwa [rxBit, if_neg hn8]
  refine answers_onBlock (f := fun s => rxUnit s n j prev unit) (show n < 9 by omega) hrx fun t ht => ?_
  rw [herr] at ht
  refine ⟨?_, ht.keeps ?_, ?_⟩
  · rw [ht.rd, rd_bump, hsu _ _ (by simp)]
  · exact ((Keeps.refl _ s).of_regs hregs).wr p (4 * n + j) _ (by simp)
  · have hw (w : State) : (bump w p (4 * n + j)).lines = w.lines := rfl
    have hb : { s with regs := (bump u p (4 * n + j)).regs, lines := u.lines } = bump u p (4 * n + j) := by
      rw [hlines]
      rfl
    rw [ht.regs, ht.lines, hw, hb]
    exact ht

end

end

/-- Settles O29, clause by clause. -/
theorem linkLossesTakeThePortDown : Obligations.LinkLossesTakeThePortDown := by
  intro s n j hn hj hworks hen hst hup hopen
  exact ⟨fun units hlocked hbreaks => answers_laneLockLost hn hworks hen hst hup hopen hj hlocked hbreaks,
    fun hskew => answers_deskewLost hn hworks hst hup hopen hskew,
    fun hclk => ⟨answers_clkLost hn hworks hen hst hup hopen hclk, answers_restart hn hworks hen hst hup hopen hclk⟩,
    fun prev unit bytes hlocked hused => ⟨fun hbad => answers_unitError hn hworks hen hst hlocked hused rfl hbad,
      fun hbad => answers_unitError hn hworks hen hst hlocked hused rfl hbad⟩⟩

end Sys2Proof.Machine
end

section
/-! Counterexample of the ports' wakes: an event wakes every port that its channel names, and the entry of another port that
the wake undoes may stop the relays that run from that port, which fires their producers. -/
open Sys2Proof
namespace Sys2Proof.Machine

/-- Ports 0 and 1 are in HOLD and woken by channel 0, whose event is on its way. Port 1 has entered HOLD in this cycle, from a
state without a multiplier lock; relay 2 runs from it, and its stop fires channel 1. -/
def heldPair : State :=
  withRegs { powered with
      prt := [(1, { Prt.init with mult := true, entered := some ⟨powered.ns, pUP, 0, 1, 0, false, false, false, false⟩ })],
      beacons := [(0, 50, false)] }
    [(F.PRT_CFG_EN, 0, 1), (F.PRT_CFG_EN, 1, 1), (F.PRT_STATUS_STATE, 0, pHOLD), (F.PRT_STATUS_STATE, 1, pHOLD),
      (F.PRT_PWR_CFG_WAKE_BCN_EN, 0, 1), (F.PRT_PWR_CFG_WAKE_BCN_EN, 1, 1), (F.RLY_CFG_EN, 2, 1), (F.RLY_CFG_SRC_PORT, 2, 1),
      (F.RLY_STATUS_STATE, 2, 2), (F.BCN_CH_CFG_EN, 1, 1), (F.BCN_EN_EN, 8, 4)]

/-- Refutes O30: the wake that channel 0 brings to port 0 also undoes the entry of port 1, relay 2 stops and fires channel 1, whose
event stands in the matrix beside the rest. -/
theorem not_portsHoldSleepWakeAndTestThemselves : ¬ Obligations.PortsHoldSleepWakeAndTestThemselves := by
  intro h
  obtain ⟨-, -, -, hhold, -⟩ := h heldPair 0 (by decide) (by decide +kernel) (by decide +kernel)
  obtain ⟨hwakes, -⟩ := hhold (by decide +kernel)
  have hnone : (prtAt heldPair 0).entered = none := by decide +kernel
  obtain ⟨-, -, hevent⟩ := hwakes (by decide +kernel) (by decide +kernel) fun e he => by rw [hnone] at he; cases he
  have hch : rd heldPair F.PRT_PWR_CFG_WAKE_BCN_CH 0 = 0 := by decide +kernel
  have hfired : outcome (fun t => t.beacons) (exec (.prtWakeEvent (rd heldPair F.PRT_PWR_CFG_WAKE_BCN_CH 0)) heldPair)
      = some [(1, 0, false)] := by
    rw [hch]
    decide +kernel
  have hleft := hevent false [] (by decide +kernel) (by rw [hch]; decide) (by rw [hch]; rfl)
  obtain ⟨t, hread, -, hrest⟩ := hleft.shows hfired
  rw [hread] at hrest
  exact absurd hrest (by decide)

end Sys2Proof.Machine
end

section
/-! Checkers, equalisation in service, injection and counters of ports and relays (R254 to R260). -/
open Sys2Proof
namespace Sys2Proof.Machine

section
variable {s t u v : State} {n j : Nat}

/-! ### PRBS checkers (R258) -/

theorem checkerAt_setChecker (s : State) (n j : Nat) (k : Checker) : checkerAt (setChecker s n j k) n j = k := by
  unfold checkerAt setChecker
  rw [prtAt_setPrt]
  exact sget_sset_same ..

theorem RegsOnly.checkerAt (h : RegsOnly s u) (n j : Nat) : checkerAt u n j = checkerAt s n j := by
  unfold Machine.checkerAt
  rw [h.prtAt]

theorem rxEvt_only (s : State) (n b : Nat) : RegsOnly s (rxEvt s n b) ∧ Touches [F.PRT_EVT_EVT] s (rxEvt s n b) := by
  unfold rxEvt prtEvt
  exact ⟨RegsOnly.ite (.refl _) ((RegsOnly.refl _).wr F.PRT_EVT_EVT n _), Touches.ite .refl (Touches.refl.wr F.PRT_EVT_EVT n _ (by simp))⟩

theorem hasBit_rxEvt (hn8 : n ≠ 8) {b : Nat} (hb : b < 14) : hasBit (rxEvt s n b) F.PRT_EVT_EVT n b = true := by
  rw [rxEvt, if_neg hn8]
  exact hasBit_setBit s F.PRT_EVT_EVT n b hb

theorem laneSet_keeps {ks : List (Field × Nat)} (h : Keeps ks s u) {p q : Field} (hp : n ≠ 8 → (p, 4 * n + j) ∈ ks)
    (hq : n = 8 → (q, 0) ∈ ks) (x : Nat) : Keeps ks s (laneSet u n j p q x) := by
  unfold laneSet
  split
  · rename_i h8
    exact h.wr _ _ _ (hq h8)
  · rename_i h8
    exact h.wr _ _ _ (hp h8)

theorem laneGet_lt {p q : Field} {w : Nat} (hp : p.width = w) (hq : q.width = w) (s : State) (n j : Nat) : laneGet s n j p q < 2 ^ w := by
  unfold laneGet
  split
  · exact hq ▸ rd_lt s q 0
  · exact hp ▸ rd_lt s p _

/-- The results that a checker has counted and shown. -/
structure CheckerShows (s u : State) (n j : Nat) (r : Checked) : Prop where
  checker : checkerAt u n j = r.checker
  locked : laneGet u n j F.PRT_LANE_PRBS_CFG_LOCKED F.TWN_RX_PRBS_CFG_LOCKED = r.checker.locked.toNat
  bits : laneGet u n j F.PRT_LANE_PRBS_BITS_COUNT F.TWN_RX_PRBS_BITS_COUNT
    = min (laneGet s n j F.PRT_LANE_PRBS_BITS_COUNT F.TWN_RX_PRBS_BITS_COUNT + r.bits) (2 ^ 64 - 1)
  errs : laneGet u n j F.PRT_LANE_PRBS_ERR_COUNT F.TWN_RX_PRBS_ERR_COUNT
    = min (laneGet s n j F.PRT_LANE_PRBS_ERR_COUNT F.TWN_RX_PRBS_ERR_COUNT + r.errs) (2 ^ 48 - 1)

/-- The lane's checker takes its results, and LOCKED and the counts follow. -/
def checkerCounted (s : State) (n j : Nat) (r : Checked) : State :=
  let s := laneSet (setChecker s n j r.checker) n j F.PRT_LANE_PRBS_CFG_LOCKED F.TWN_RX_PRBS_CFG_LOCKED r.checker.locked.toNat
  let s := laneSet s n j F.PRT_LANE_PRBS_BITS_COUNT F.TWN_RX_PRBS_BITS_COUNT
    (min (laneGet s n j F.PRT_LANE_PRBS_BITS_COUNT F.TWN_RX_PRBS_BITS_COUNT + r.bits) (2 ^ 64 - 1))
  laneSet s n j F.PRT_LANE_PRBS_ERR_COUNT F.TWN_RX_PRBS_ERR_COUNT
    (min (laneGet s n j F.PRT_LANE_PRBS_ERR_COUNT F.TWN_RX_PRBS_ERR_COUNT + r.errs) (2 ^ 48 - 1))

theorem checkerCounted_shows (s : State) (n j : Nat) (r : Checked) : CheckerShows s (checkerCounted s n j r) n j r := by
  obtain ⟨a, ha⟩ : ∃ a, a = laneSet (setChecker s n j r.checker) n j F.PRT_LANE_PRBS_CFG_LOCKED F.TWN_RX_PRBS_CFG_LOCKED
    r.checker.locked.toNat := ⟨_, rfl⟩
  obtain ⟨b, hb⟩ : ∃ b, b = laneSet a n j F.PRT_LANE_PRBS_BITS_COUNT F.TWN_RX_PRBS_BITS_COUNT
    (min (laneGet a n j F.PRT_LANE_PRBS_BITS_COUNT F.TWN_RX_PRBS_BITS_COUNT + r.bits) (2 ^ 64 - 1)) := ⟨_, rfl⟩
  have hcounted : checkerCounted s n j r = laneSet b n j F.PRT_LANE_PRBS_ERR_COUNT F.TWN_RX_PRBS_ERR_COUNT
      (min (laneGet b n j F.PRT_LANE_PRBS_ERR_COUNT F.TWN_RX_PRBS_ERR_COUNT + r.errs) (2 ^ 48 - 1)) := by
    rw [hb, ha]
    rfl
  have hset : Touches [F.PRT_LANE_PRBS_CFG_LOCKED, F.TWN_RX_PRBS_CFG_LOCKED] s (setChecker s n j r.checker) := .of_regs rfl
  have hsa : Touches [F.PRT_LANE_PRBS_CFG_LOCKED, F.TWN_RX_PRBS_CFG_LOCKED] s a := by
    rw [ha]
    exact hset.trans (laneSet_touches _ n j _ _ _)
  have hab : Touches [F.PRT_LANE_PRBS_BITS_COUNT, F.TWN_RX_PRBS_BITS_COUNT] a b := by
    rw [hb]
    exact laneSet_touches a n j _ _ _
  have hbc : Touches [F.PRT_LANE_PRBS_ERR_COUNT, F.TWN_RX_PRBS_ERR_COUNT] b (checkerCounted s n j r) := by
    rw [hcounted]
    exact laneSet_touches b n j _ _ _
  refine ⟨?_, ?_, ?_, ?_⟩
  · rw [hcounted, (laneSet_regsOnly b n j _ _ _).checkerAt, hb, (laneSet_regsOnly a n j _ _ _).checkerAt, ha,
      (laneSet_regsOnly _ n j _ _ _).checkerAt, checkerAt_setChecker]
  · rw [laneGet_touches hbc (by decide) (by decide), laneGet_touches hab (by decide) (by decide), ha]
    have hlt : r.checker.locked.toNat < 2 ^ 1 := Bool.toNat_lt _
    exact laneGet_laneSet _ n j hlt hlt
  · rw [laneGet_touches hbc (by decide) (by decide), hb, laneGet_touches hsa (by decide) (by decide)]
    have hlt (x : Nat) : min x (2 ^ 64 - 1) < 2 ^ 64 := by omega
    exact laneGet_laneSet a n j (hlt _) (hlt _)
  · rw [hcounted, laneGet_touches hab (by decide) (by decide), laneGet_touches hsa (by decide) (by decide)]
    have hlt (x : Nat) : min x (2 ^ 48 - 1) < 2 ^ 48 := by omega
    exact laneGet_laneSet b n j (hlt _) (hlt _)

section
variable (hn : n < 9) (hj : j < 4) (hworks : blockWorks s (rxBit n) = true)
include hn hj hworks

theorem answers_prbsBits {bits : List Bool} (hen : rxEn s n = true) (hon : checkerOn s n j = true) (hmult : (prtAt s n).mult = true)
    (hused : j ∈ usedLanes s n) {r : Checked}
    (hr : (checkerAt s n j).feed (laneGet s n j F.PRT_LANE_PRBS_CFG_SEL F.TWN_RX_PRBS_CFG_SEL) (bits.map (· ^^ laneInvert s n j)) = r) :
    ∀ i ∈ [Instr.prbsLock n j bits, .prbsLockLost n j bits], Answers (exec i s) fun t =>
      checkerAt t n j = r.checker
      ∧ laneGet t n j F.PRT_LANE_PRBS_CFG_LOCKED F.TWN_RX_PRBS_CFG_LOCKED = r.checker.locked.toNat
      ∧ laneGet t n j F.PRT_LANE_PRBS_BITS_COUNT F.TWN_RX_PRBS_BITS_COUNT
        = min (laneGet s n j F.PRT_LANE_PRBS_BITS_COUNT F.TWN_RX_PRBS_BITS_COUNT + r.bits) (2 ^ 64 - 1)
      ∧ laneGet t n j F.PRT_LANE_PRBS_ERR_COUNT F.TWN_RX_PRBS_ERR_COUNT
        = min (laneGet s n j F.PRT_LANE_PRBS_ERR_COUNT F.TWN_RX_PRBS_ERR_COUNT + r.errs) (2 ^ 48 - 1)
      ∧ (n < 8 → r.lost = true → hasBit t F.PRT_EVT_EVT n 12 = true) := by
  have hbits : prbsBits s n j bits = if r.lost then rxEvt (checkerCounted s n j r) n 12 else checkerCounted s n j r := by
    rw [← hr]
    unfold prbsBits
    rw [if_neg (by rw [hen, hon, hmult, List.contains_iff_mem.mpr hused]; decide)]
    rfl
  have hshows := checkerCounted_shows s n j r
  obtain ⟨hevt, htouch⟩ := rxEvt_only (checkerCounted s n j r) n 12
  have hall : Answers (onBlock (rxBit n) n 9 s fun s => if j < 4 then prbsBits s n j bits else s) fun t =>
      checkerAt t n j = r.checker
      ∧ laneGet t n j F.PRT_LANE_PRBS_CFG_LOCKED F.TWN_RX_PRBS_CFG_LOCKED = r.checker.locked.toNat
      ∧ laneGet t n j F.PRT_LANE_PRBS_BITS_COUNT F.TWN_RX_PRBS_BITS_COUNT
        = min (laneGet s n j F.PRT_LANE_PRBS_BITS_COUNT F.TWN_RX_PRBS_BITS_COUNT + r.bits) (2 ^ 64 - 1)
      ∧ laneGet t n j F.PRT_LANE_PRBS_ERR_COUNT F.TWN_RX_PRBS_ERR_COUNT
        = min (laneGet s n j F.PRT_LANE_PRBS_ERR_COUNT F.TWN_RX_PRBS_ERR_COUNT + r.errs) (2 ^ 48 - 1)
      ∧ (n < 8 → r.lost = true → hasBit t F.PRT_EVT_EVT n 12 = true) := by
    refine answers_onBlock (f := fun s => if j < 4 then prbsBits s n j bits else s) hn hworks fun t ht => ?_
    rw [if_pos hj, hbits] at ht
    obtain ⟨w, hw⟩ : ∃ w, w = if r.lost then rxEvt (checkerCounted s n j r) n 12 else checkerCounted s n j r := ⟨_, rfl⟩
    have hregs : RegsOnly (checkerCounted s n j r) w := by
      rw [hw]
      exact RegsOnly.ite hevt (.refl _)
    have hread : Touches [F.PRT_EVT_EVT] (checkerCounted s n j r) w := by
      rw [hw]
      exact Touches.ite htouch .refl
    rw [← hw] at ht
    refine ⟨?_, ?_, ?_, ?_, fun hn8 hlost => ?_⟩
    · rw [checkerAt, ht.prtAt]
      exact (hregs.checkerAt n j).trans hshows.checker
    · rw [ht.laneGet, laneGet_touches hread (by decide) (by decide), hshows.locked]
    · rw [ht.laneGet, laneGet_touches hread (by decide) (by decide), hshows.bits]
    · rw [ht.laneGet, laneGet_touches hread (by decide) (by decide), hshows.errs]
    · rw [ht.hasBit, hw, if_pos hlost]
      exact hasBit_rxEvt hn8.ne (by decide)
  intro i hi
  rcases List.mem_cons.mp hi with rfl | hi
  · exact hall
  · rw [List.mem_singleton.mp hi]
    exact hall

theorem answers_prbsClr : Answers (exec (.prbsClr n j) s) fun t =>
    laneGet t n j F.PRT_LANE_PRBS_BITS_COUNT F.TWN_RX_PRBS_BITS_COUNT = 0
    ∧ laneGet t n j F.PRT_LANE_PRBS_ERR_COUNT F.TWN_RX_PRBS_ERR_COUNT = 0
    ∧ Changes (if n = 8 then [(F.TWN_RX_PRBS_BITS_COUNT, 0), (F.TWN_RX_PRBS_ERR_COUNT, 0)]
        else [(F.PRT_LANE_PRBS_BITS_COUNT, 4 * n + j), (F.PRT_LANE_PRBS_ERR_COUNT, 4 * n + j)]) s t := by
  refine answers_onBlock (f := fun s => if j < 4 then prbsClr s n j else s) hn hworks fun t ht => ?_
  rw [if_pos hj] at ht
  obtain ⟨a, ha⟩ : ∃ a, a = laneSet s n j F.PRT_LANE_PRBS_BITS_COUNT F.TWN_RX_PRBS_BITS_COUNT 0 := ⟨_, rfl⟩
  have hclr : prbsClr s n j = laneSet a n j F.PRT_LANE_PRBS_ERR_COUNT F.TWN_RX_PRBS_ERR_COUNT 0 := by rw [ha]; rfl
  rw [hclr] at ht
  refine ⟨?_, ?_, ht.keeps (laneSet_keeps ?_ ?_ ?_ 0), ?_⟩
  · rw [ht.laneGet, laneGet_touches (laneSet_touches a n j _ _ 0) (by decide) (by decide), ha,
      laneGet_laneSet _ _ _ (by decide) (by decide)]
  · rw [ht.laneGet, laneGet_laneSet _ _ _ (by decide) (by decide)]
  · rw [ha]
    exact laneSet_keeps (.refl _ s) (fun h => by rw [if_neg h]; simp) (fun h => by rw [if_pos h]; simp) 0
  · exact fun h => by rw [if_neg h]; simp
  · exact fun h => by rw [if_pos h]; simp
  · rw [ha] at ht
    exact ((laneSet_regsOnly s n j _ _ 0).trans (laneSet_regsOnly _ n j _ _ 0)).settled ht

/-! ### Equalisation in service (R254, R255, R257) -/

omit hj in
theorem answers_fomUpdate {fom : Nat} (hfom : fom < 256) (hup : rxUp s n = true) (hst : rxState s n = pUP) (hused : j ∈ usedLanes s n) :
    Answers (exec (.fomUpdate n j fom) s) fun t =>
      let dip := laneGet s n j F.PRT_LANE_FOM_DIP F.TWN_RX_FOM_DIP
      laneGet t n j F.PRT_LANE_FOM_FOM F.TWN_RX_FOM_FOM = fom
      ∧ laneGet t n j F.PRT_LANE_FOM_DIP F.TWN_RX_FOM_DIP = max dip (255 - fom)
      ∧ (n < 8 → fom < rd s F.PRT_EQ_CFG_FOM_ALARM n → hasBit t F.PRT_EVT_EVT n 7 = true) := by
  obtain ⟨a, ha⟩ : ∃ a, a = laneSet (setPrt s n { prtAt s n with measured := (prtAt s n).measured ||| 2 ^ j }) n j
    F.PRT_LANE_FOM_FOM F.TWN_RX_FOM_FOM fom := ⟨_, rfl⟩
  obtain ⟨b, hb⟩ : ∃ b, b = laneSet a n j F.PRT_LANE_FOM_DIP F.TWN_RX_FOM_DIP
    (max (laneGet a n j F.PRT_LANE_FOM_DIP F.TWN_RX_FOM_DIP) (255 - fom)) := ⟨_, rfl⟩
  have hset (k : Prt) : Touches [F.PRT_LANE_FOM_FOM, F.TWN_RX_FOM_FOM] s (setPrt s n k) := .of_regs rfl
  have hsa : Touches [F.PRT_LANE_FOM_FOM, F.TWN_RX_FOM_FOM] s a := by
    rw [ha]
    exact (hset _).trans (laneSet_touches _ n j _ _ _)
  have hab : Touches [F.PRT_LANE_FOM_DIP, F.TWN_RX_FOM_DIP] a b := by
    rw [hb]
    exact laneSet_touches a n j _ _ _
  have halarm : rxGet b n F.PRT_EQ_CFG_FOM_ALARM F.TWN_RX_CFG_FOM_ALARM = rxGet s n F.PRT_EQ_CFG_FOM_ALARM F.TWN_RX_CFG_FOM_ALARM := by
    rw [rxGet_touches hab (by decide) (by decide), rxGet_touches hsa (by decide) (by decide)]
  have hupdate : fomUpdate s n j fom
      = if fom < rxGet s n F.PRT_EQ_CFG_FOM_ALARM F.TWN_RX_CFG_FOM_ALARM then rxEvt b n 7 else b := by
    rw [← halarm, hb, ha]
    unfold fomUpdate
    rw [if_neg (by rw [hup, hst, List.contains_iff_mem.mpr hused]; decide), Nat.mod_eq_of_lt hfom]
  obtain ⟨w, hw⟩ : ∃ w, w = if fom < rxGet s n F.PRT_EQ_CFG_FOM_ALARM F.TWN_RX_CFG_FOM_ALARM then rxEvt b n 7 else b := ⟨_, rfl⟩
  have hbw : Touches [F.PRT_EVT_EVT] b w := by
    rw [hw]
    exact Touches.ite (rxEvt_only b n 7).2 .refl
  have hfomlt : fom < 2 ^ 8 := hfom
  refine answers_onBlock (f := fun s => fomUpdate s n j fom) hn hworks fun t ht => ?_
  rw [hupdate, ← hw] at ht
  refine ⟨?_, ?_, fun hn8 hlow => ?_⟩
  · rw [ht.laneGet, laneGet_touches hbw (by decide) (by decide), laneGet_touches hab (by decide) (by decide), ha]
    exact laneGet_laneSet _ n j hfomlt hfomlt
  · rw [ht.laneGet, laneGet_touches hbw (by decide) (by decide), hb, laneGet_touches hsa (by decide) (by decide)]
    have hlt : max (laneGet s n j F.PRT_LANE_FOM_DIP F.TWN_RX_FOM_DIP) (255 - fom) < 2 ^ 8 := by
      have := laneGet_lt (p := F.PRT_LANE_FOM_DIP) (q := F.TWN_RX_FOM_DIP) (w := 8) rfl rfl s n j
      omega
    exact laneGet_laneSet a n j hlt hlt
  · have hl : fom < rxGet s n F.PRT_EQ_CFG_FOM_ALARM F.TWN_RX_CFG_FOM_ALARM := by
      unfold rxGet
      rwa [if_neg hn8.ne]
    rw [ht.hasBit, hw, if_pos hl]
    exact hasBit_rxEvt hn8.ne (by decide)

omit hj in
theorem answers_phaseStep (hsample : lanesSample s n = true) (hauto : phaseAuto s n = true) (hused : j ∈ usedLanes s n) :
    Answers (exec (.phaseTrackStep n j) s) fun t =>
      let p := laneGet s n j F.PRT_LANE_EQ_PHASE F.TWN_RX_EQ_PHASE
      laneGet t n j F.PRT_LANE_EQ_PHASE F.TWN_RX_EQ_PHASE ∈ [(p + 63) % 64, p, (p + 1) % 64]
      ∧ Keeps [if n = 8 then (F.TWN_RX_EQ_PHASE, 0) else (F.PRT_LANE_EQ_PHASE, 4 * n + j)] s t := by
  obtain ⟨a, ha⟩ : ∃ a, a = (takeFree s 16).2 := ⟨_, rfl⟩
  have hregs : a.regs = s.regs := by
    rw [ha]
    rfl
  have hsa : Touches [] s a := .of_regs hregs
  have hp := laneGet_lt (p := F.PRT_LANE_EQ_PHASE) (q := F.TWN_RX_EQ_PHASE) (w := 6) rfl rfl s n j
  have hstep : phaseStep s n j = laneSet a n j F.PRT_LANE_EQ_PHASE F.TWN_RX_EQ_PHASE
      ((laneGet s n j F.PRT_LANE_EQ_PHASE F.TWN_RX_EQ_PHASE + 63 + (takeFree s 16).1 % 3) % 64) := by
    rw [← laneGet_touches hsa (by simp) (by simp), ha]
    unfold phaseStep
    exact if_neg (by rw [hsample, hauto, List.contains_iff_mem.mpr hused]; decide)
  refine answers_onBlock (f := fun s => phaseStep s n j) hn hworks fun t ht => ?_
  rw [hstep] at ht
  generalize laneGet s n j F.PRT_LANE_EQ_PHASE F.TWN_RX_EQ_PHASE = p at hp ht ⊢
  generalize (takeFree s 16).1 = x at ht
  refine ⟨?_, ht.keeps (laneSet_keeps ((Keeps.refl _ s).of_regs hregs) (fun h => by rw [if_neg h]; simp) (fun h => by rw [if_pos h]; simp) _)⟩
  have hlt : (p + 63 + x % 3) % 64 < 2 ^ 6 := Nat.mod_lt _ (by decide)
  rw [ht.laneGet, laneGet_laneSet _ n j hlt hlt]
  have hx : x % 3 = 0 ∨ x % 3 = 1 ∨ x % 3 = 2 := by omega
  rcases hx with h | h | h <;> rw [h]
  · simp
  · rw [show (p + 63 + 1) % 64 = p by omega]
    simp
  · rw [show (p + 63 + 2) % 64 = (p + 1) % 64 by omega]
    simp

end

/-! ### Injection and counters (R260) -/

/-- Injection inverts bits of lines alone. -/
theorem lineFlip_only (s : State) (k lane : Nat) : lineFlip s k lane = { s with lines := (lineFlip s k lane).lines } := rfl

theorem ulFlip_shows (s : State) (n : Nat) :
    rd (ulFlip s n) F.PRT_UL_INJ_CNT_COUNT n = min (rd s F.PRT_UL_INJ_CNT_COUNT n + 1) (2 ^ F.PRT_UL_INJ_CNT_COUNT.width - 1)
    ∧ Keeps [(F.PRT_UL_INJ_CNT_COUNT, n)] s (ulFlip s n)
    ∧ ulFlip s n = { s with regs := (ulFlip s n).regs, lines := (ulFlip s n).lines } := by
  refine ⟨rd_bump s F.PRT_UL_INJ_CNT_COUNT n, ?_, rfl⟩
  exact ((Keeps.refl _ s).wr F.PRT_UL_INJ_CNT_COUNT n _ (by simp)).of_regs rfl

/-- Registers and the lines of generators alone differ. -/
theorem Settled.linesOnly (ht : Settled u t) (h : u = { s with regs := u.regs, lines := u.lines }) :
    Settled { s with regs := t.regs, lines := t.lines } t := by
  rw [ht.regs, ht.lines, ← h]
  exact ht

theorem answers_inBlock_unit {i : Instr} {k m b : Nat} {f : State → State} {P : State → Prop}
    (hexec : exec i s = onUnit k m s fun s => inBlock b s f) (hk : k < m) (hworks : blockWorks s b = true)
    (h : ∀ t, Settled (f s) t → P t) : Answers (exec i s) P := by
  rw [hexec]
  refine answers_onUnit hk fun t ht => h t ?_
  rwa [inBlock_of hworks] at ht

section
variable (hn : n < 8) (hworks : blockWorks s (21 + n) = true)
include hn hworks

theorem answers_ulInjOne (hrun : ulRunning s n = true) : Answers (exec (.ulInjOne n) s) fun t =>
    rd t F.PRT_UL_INJ_CNT_COUNT n = min (rd s F.PRT_UL_INJ_CNT_COUNT n + 1) (2 ^ F.PRT_UL_INJ_CNT_COUNT.width - 1)
    ∧ Keeps [(F.PRT_UL_INJ_CNT_COUNT, n)] s t ∧ Settled { s with regs := t.regs, lines := t.lines } t := by
  obtain ⟨hcount, hkeeps, hlines⟩ := ulFlip_shows s n
  have hrx : blockWorks s (rxBit n) = true := by rwa [rxBit, if_neg hn.ne]
  refine answers_onBlock (f := fun s => ulInjOne s n) hn hrx fun t ht => ?_
  rw [ulInjOne, hrun, if_pos rfl] at ht
  exact ⟨(ht.rd ..).trans hcount, ht.keeps hkeeps, ht.linesOnly hlines⟩

theorem answers_ulInjPeriodic (hrun : ulRunning s n = true) (hlo : 4 ≤ rd s F.PRT_UL_CFG_INJ_EXP n)
    (hhi : rd s F.PRT_UL_CFG_INJ_EXP n ≤ 40) : Answers (exec (.injPeriodic (4 + n)) s) fun t =>
    rd t F.PRT_UL_INJ_CNT_COUNT n = min (rd s F.PRT_UL_INJ_CNT_COUNT n + 1) (2 ^ F.PRT_UL_INJ_CNT_COUNT.width - 1)
    ∧ Keeps [(F.PRT_UL_INJ_CNT_COUNT, n)] s t ∧ Settled { s with regs := t.regs, lines := t.lines } t := by
  obtain ⟨hcount, hkeeps, hlines⟩ := ulFlip_shows s n
  have hinj : injPeriodic s (4 + n) = ulFlip s n := by
    unfold injPeriodic expOn
    rw [if_neg (by omega), if_pos (by omega), Nat.add_sub_cancel_left, decide_eq_true hlo, decide_eq_true hhi, hrun]
    rfl
  have hblock : blockWorks s (if 4 + n < 4 then 11 else if 4 + n < 12 then 17 + (4 + n) else 5) = true := by
    rw [if_neg (by omega), if_pos (by omega), show 17 + (4 + n) = 21 + n by omega]
    exact hworks
  refine answers_inBlock_unit (f := fun s => injPeriodic s (4 + n)) rfl (show 4 + n < 13 by omega) hblock fun t ht => ?_
  rw [hinj] at ht
  exact ⟨(ht.rd ..).trans hcount, ht.keeps hkeeps, ht.linesOnly hlines⟩

/-- The counters of a port, and those of each of its lanes. -/
def portCounters : List Field := [F.PRT_LINKS_COUNT, F.PRT_DOWNS_COUNT, F.PRT_RETRIES_COUNT, F.PRT_CLK_LOSSES_COUNT,
  F.PRT_UL_PREEMPT_COUNT, F.PRT_UL_INJ_CNT_COUNT]
def portLaneCounters : List Field := [F.PRT_LANE_CODE_ERR_COUNT, F.PRT_LANE_CTRL_ERR_COUNT, F.PRT_LANE_MARKER_ERR_COUNT,
  F.PRT_LANE_LOCK_LOSS_COUNT, F.PRT_LANE_PRBS_ERR_COUNT]

theorem answers_prtClrCounts : Answers (exec (.prtClrCounts n) s) fun t =>
    (∀ f ∈ portCounters, rd t f n = 0) ∧ ∀ f ∈ portLaneCounters, ∀ j, j < 4 → rd t f (4 * n + j) = 0 := by
  have hclear : prtClear s n = ((List.range 4).map (4 * n + ·)).foldl (fun s i => clearAll s portLaneCounters i)
      (clearAll s portCounters n) := by
    rw [List.foldl_map]
    rfl
  have hrx : blockWorks s (rxBit n) = true := by rwa [rxBit, if_neg hn.ne]
  refine answers_onBlock (f := fun s => prtClear s n) hn hrx fun t ht => ?_
  rw [hclear] at ht
  refine ⟨fun f hf => ?_, fun f hf j hj => ?_⟩
  · have hother : ∀ g ∈ portLaneCounters, g.fid % 1024 ≠ f.fid % 1024 :=
      (by decide : ∀ f ∈ portCounters, ∀ g ∈ portLaneCounters, g.fid % 1024 ≠ f.fid % 1024) f hf
    have hown : ∀ g ∈ portCounters, f.fid % 1024 = g.fid % 1024 → f = g :=
      (by decide : ∀ f ∈ portCounters, ∀ g ∈ portCounters, f.fid % 1024 = g.fid % 1024 → f = g) f hf
    rw [ht.rd]
    refine List.foldlRecOn (motive := fun u => rd u f n = 0) _ _ ?_ fun u hu i _ => ?_
    · exact rd_clearAll_mem _ s n f hf fun g hg h => (hown g hg h.symm).symm
    · exact (rd_clearAll_field _ _ f n hother).trans hu
  · rw [ht.rd]
    exact rd_foldl_clearAll (by decide) _ _ (List.mem_map.mpr ⟨j, List.mem_range.mpr hj, rfl⟩) hf

end

section
variable {k : Nat} (hk : k < 4) (hworks : blockWorks s 11 = true)
include hk hworks

theorem answers_rlyInjRefused (hsrc : rd s F.RLY_CFG_SRC k = 0) : Answers (exec (.rlyInjOne k) s) fun t =>
    hasBit t F.RLY_EVT_EVT k 2 = true ∧ Changes [(F.RLY_EVT_EVT, k)] s t := by
  refine answers_onBlock (f := fun s => rlyInjOne s k) hk hworks fun t ht => ?_
  rw [rlyInjOne, if_pos hsrc] at ht
  refine ⟨?_, ((RegsOnly.refl s).setBit _ _ _).changes ht ((Keeps.refl _ s).wr F.RLY_EVT_EVT k _ (by simp))⟩
  rw [ht.hasBit]
  exact hasBit_setBit s F.RLY_EVT_EVT k 2 (by decide)

omit hk hworks in
theorem rlyFlip_shows (s : State) (k : Nat) :
    rd (rlyFlip s k) F.RLY_INJ_CNT_COUNT k
      = min (rd s F.RLY_INJ_CNT_COUNT k + ((List.range 4).filter fun j => hasBit s F.RLY_INJ_LANES k j).length)
        (2 ^ F.RLY_INJ_CNT_COUNT.width - 1)
    ∧ Keeps [(F.RLY_INJ_CNT_COUNT, k)] s (rlyFlip s k)
    ∧ rlyFlip s k = { s with regs := (rlyFlip s k).regs, lines := (rlyFlip s k).lines } := by
  obtain ⟨ls, hls⟩ : ∃ ls, ls = (List.range 4).filter fun j => hasBit s F.RLY_INJ_LANES k j := ⟨_, rfl⟩
  obtain ⟨a, ha⟩ : ∃ a, a = bumpBy s F.RLY_INJ_CNT_COUNT k ls.length := ⟨_, rfl⟩
  have hflip : rlyFlip s k = ls.foldl (fun s j => lineFlip s k j) a := by
    rw [ha, hls]
    rfl
  have hlines : ls.foldl (fun s j => lineFlip s k j) a = { a with lines := (ls.foldl (fun s j => lineFlip s k j) a).lines } :=
    foldl_frame (R := fun u v => v = { u with lines := v.lines }) (fun u => rfl) (fun h h' => by rw [h', h])
      (fun u j => lineFlip_only u k j) ls a
  have hregs : (rlyFlip s k).regs = a.regs := by
    rw [hflip, hlines]
  rw [← hls]
  refine ⟨?_, ?_, ?_⟩
  · rw [rd_congr hregs, ha, bumpBy, rd_wr_same]
    exact Nat.mod_eq_of_lt (Nat.lt_of_le_of_lt (Nat.min_le_right _ _) (by decide))
  · refine Keeps.of_regs (u := a) ?_ hregs
    rw [ha]
    exact (Keeps.refl _ s).wr F.RLY_INJ_CNT_COUNT k _ (by simp)
  · have hsa : a = { s with regs := a.regs } := by
      rw [ha]
      rfl
    rw [hregs, hflip]
    generalize ls.foldl (fun s j => lineFlip s k j) a = b at hlines
    rw [hlines, hsa]

section
variable (hsrc : rd s F.RLY_CFG_SRC k ≠ 0) (hst : rd s F.RLY_STATUS_STATE k = 2)
include hsrc hst

theorem answers_rlyInjOne : Answers (exec (.rlyInjOne k) s) fun t =>
    rd t F.RLY_INJ_CNT_COUNT k
      = min (rd s F.RLY_INJ_CNT_COUNT k + ((List.range 4).filter fun j => hasBit s F.RLY_INJ_LANES k j).length)
        (2 ^ F.RLY_INJ_CNT_COUNT.width - 1)
    ∧ Keeps [(F.RLY_INJ_CNT_COUNT, k)] s t ∧ Settled { s with regs := t.regs, lines := t.lines } t := by
  obtain ⟨hcount, hkeeps, hlines⟩ := rlyFlip_shows s k
  refine answers_onBlock (f := fun s => rlyInjOne s k) hk hworks fun t ht => ?_
  rw [rlyInjOne, if_neg hsrc, if_pos hst] at ht
  exact ⟨(ht.rd ..).trans hcount, ht.keeps hkeeps, ht.linesOnly hlines⟩

theorem answers_rlyInjPeriodic (hlo : 4 ≤ rd s F.RLY_INJ_EXP k) (hhi : rd s F.RLY_INJ_EXP k ≤ 40) :
    Answers (exec (.injPeriodic k) s) fun t =>
      rd t F.RLY_INJ_CNT_COUNT k
        = min (rd s F.RLY_INJ_CNT_COUNT k + ((List.range 4).filter fun j => hasBit s F.RLY_INJ_LANES k j).length)
          (2 ^ F.RLY_INJ_CNT_COUNT.width - 1) := by
  have hinj : injPeriodic s k = rlyFlip s k := by
    unfold injPeriodic expOn
    rw [if_pos hk, decide_eq_true hlo, decide_eq_true hhi, hst]
    exact if_pos (by simp [hsrc])
  have hblock : blockWorks s (if k < 4 then 11 else if k < 12 then 17 + k else 5) = true := by rwa [if_pos hk]
  refine answers_inBlock_unit (f := fun s => injPeriodic s k) rfl (show k < 13 by omega) hblock fun t ht => ?_
  rw [hinj] at ht
  exact (ht.rd ..).trans (rlyFlip_shows s k).1

end

theorem answers_rlyClrCounts : Answers (exec (.rlyClrCounts k) s) fun t =>
    rd t F.RLY_INJ_CNT_COUNT k = 0 ∧ rd t F.RLY_STOPS_COUNT k = 0
    ∧ Changes [(F.RLY_INJ_CNT_COUNT, k), (F.RLY_STOPS_COUNT, k)] s t := by
  refine answers_onBlock (f := fun s => clearAll s [F.RLY_INJ_CNT_COUNT, F.RLY_STOPS_COUNT] k) hk hworks fun t ht => ?_
  refine ⟨?_, ?_, ((RegsOnly.refl s).clearAll _ k).changes ht ((Keeps.refl _ s).clearAll (by simp))⟩
  · rw [ht.rd]
    exact rd_clearAll_mem _ s k _ (by simp) (by decide)
  · rw [ht.rd]
    exact rd_clearAll_mem _ s k _ (by simp) (by decide)

end

end

/-- Settles O31, clause by clause. -/
theorem checkersEqualisersAndInjectionAct : Obligations.CheckersEqualisersAndInjectionAct := by
  intro s
  refine ⟨fun n j hn hj hworks => ⟨fun bits hen hon hmult hused => answers_prbsBits hn hj hworks hen hon hmult hused rfl,
      answers_prbsClr hn hj hworks, fun fom hfom hup hst hused => answers_fomUpdate hn hworks hfom hup hst hused,
      fun hsample hauto hused => answers_phaseStep hn hworks hsample hauto hused⟩,
    fun n hn hworks => ⟨fun hrun => answers_ulInjOne hn hworks hrun,
      fun hrun hlo hhi => answers_ulInjPeriodic hn hworks hrun hlo hhi, answers_prtClrCounts hn hworks⟩,
    fun k hk hworks => ⟨fun hsrc => answers_rlyInjRefused hk hworks hsrc,
      fun hsrc hst => ⟨answers_rlyInjOne hk hworks hsrc hst, fun hlo hhi => answers_rlyInjPeriodic hk hworks hsrc hst hlo hhi⟩,
      answers_rlyClrCounts hk hworks⟩⟩

end Sys2Proof.Machine
end

section
/-! Tags, uplink packets, the stream map and the counters of the packet layer (R137, R268, R286, R297 to R306). -/
open Sys2Proof
namespace Sys2Proof.Machine

section
variable {s t u v : State} {n k q : Nat}

/-! ### Tags (R297, R300) -/

/-- Of a frame of stream k with SEQ q that was changed, every record has the phase that the change gives. -/
theorem phase_of_setFrame {h : Frame → Frame} {ph : Phase} (hframes : u.frames = (setFrame s k q h).frames) (ht : Settled u t)
    (hh : ∀ f, (h f).phase = ph) : ∀ g ∈ t.frames, g.stream = k → g.seq = q → g.tent = none → g.phase = ph := by
  intro g hg hk hq htent
  rw [ht.frames, hframes] at hg
  obtain ⟨x, hx, rfl⟩ := List.mem_map.mp hg
  obtain ⟨f, -, rfl⟩ := List.mem_map.mp hx
  obtain ⟨hst, hsq, htn, -⟩ := settleFrame_keeps t (if f.stream == k && f.seq == q && f.tent.isNone then h f else f)
  rw [settleFrame_phase]
  by_cases hm : (f.stream == k && f.seq == q && f.tent.isNone) = true
  · rw [if_pos hm]
    exact hh f
  · rw [hst, if_neg hm] at hk
    rw [hsq, if_neg hm] at hq
    rw [htn, if_neg hm] at htent
    exact absurd (by rw [hk, hq, htent]; simp) hm

/-- A frame whose tag is final waits in the tag queue. -/
def queuedFrame (f : Frame) : Frame := { f with phase := .queued }.flagIf (f.trig.any TrigRec.unconf) flUNCONF

theorem queuedFrame_phase (f : Frame) : (queuedFrame f).phase = .queued := by
  unfold queuedFrame
  cases f.trig.any TrigRec.unconf <;> rfl

theorem answers_tagFinalise (hworks : blockWorks s 10 = true) {f : Frame} (hk : k < 64)
    (hlast : (s.frames.filter fun f => f.stream == k && canFinalise s f).getLast? = some f) (hroom : s.tagQ.length < 4096) :
    Answers (exec (.tagFinalise k) s) fun t =>
      t.tagQ = s.tagQ ++ [(k, f.seq)]
      ∧ rd t F.PKT_TAG_QUEUE_PEAK = max (rd s F.PKT_TAG_QUEUE_PEAK) (s.tagQ.length + 1) % 2 ^ F.PKT_TAG_QUEUE_PEAK.width
      ∧ (∀ g ∈ t.frames, g.stream = k → g.seq = f.seq → g.tent = none → g.phase = .queued)
      ∧ Keeps [(F.PKT_TAG_QUEUE_PEAK, 0)] s t := by
  have hlen : (s.tagQ ++ [(k, f.seq)]).length = s.tagQ.length + 1 := by simp
  obtain ⟨a, ha⟩ : ∃ a, a = { setFrame s k f.seq queuedFrame with tagQ := s.tagQ ++ [(k, f.seq)] } := ⟨_, rfl⟩
  have hfinal : tagFinalise s k = wr a F.PKT_TAG_QUEUE_PEAK 0 (max (rd s F.PKT_TAG_QUEUE_PEAK) (s.tagQ.length + 1)) := by
    unfold tagFinalise
    rw [hlast, ha, ← hlen]
    dsimp only
    rw [if_neg (by omega)]
    rfl
  have hregs : a.regs = s.regs := by
    rw [ha]
    rfl
  refine answers_onBlock (f := fun s => tagFinalise s k) hk hworks fun t ht => ?_
  rw [hfinal] at ht
  refine ⟨?_, ?_, phase_of_setFrame (s := s) (h := queuedFrame) ?_ ht queuedFrame_phase, ht.keeps (((Keeps.refl _ s).of_regs hregs).wr _ _ _ (by simp))⟩
  · rw [ht.tagQ, ha]
    rfl
  · rw [ht.rd, rd_wr_same]
  · rw [ha]
    rfl

/-- Frame events fire alone. -/
theorem fevFire_firesOnly (s : State) (k : Nat) (done : Bool) : FiresOnly s (fevFire s k done) ∧ Touches beaconFields s (fevFire s k done) := by
  unfold fevFire
  refine foldl_frame (R := fun u v => FiresOnly u v ∧ Touches beaconFields u v) (fun u => ⟨.refl u, .refl⟩)
    (fun h h' => ⟨h.1.trans h'.1, h.2.trans h'.2⟩) (fun u i => ?_) _ s
  exact ⟨FiresOnly.ite (fireProducer_firesOnly u _) (.refl u), Touches.ite (fireProducer_touches u _) .refl⟩

/-- The recipes of cores that run none count no frame and end no burst. -/
theorem recipesSee_none (hnone : ∀ c, c < 8 → (coreAt s c).recipe = none) (f : Frame) :
    burstsDone ((List.range 8).foldl (fun t c => recipeFrame t f c) s) = s := by
  have hframe : (List.range 8).foldl (fun t c => recipeFrame t f c) s = s :=
    List.foldlRecOn (motive := fun t => t = s) _ _ rfl fun u hu c hc => by
      unfold recipeFrame runningRecipe
      rw [hu, hnone c (List.mem_range.mp hc), ite_self]
  rw [hframe]
  unfold burstsDone
  exact List.foldlRecOn (motive := fun t => t = s) _ _ rfl fun u hu c hc => by
    rw [hu, hnone c (List.mem_range.mp hc)]

theorem answers_tagComplete (hworks : blockWorks s 10 = true) {rest : List (Nat × Nat)} {f : Frame}
    (htag : s.tagQ = (k, q) :: rest) (hnext : s.tagNext ≤ s.ns) (hframe : frameAt s k q = some f) (hgate : gateOn s k = false)
    (hsdlv : isSet s F.DMA_SDLV_CFG_EN k = false) (hburst : burstState s k ≠ 2) (hrecipe : ∀ c, c < 8 → (coreAt s c).recipe = none) :
    Answers (exec .tagComplete s) fun t =>
      t.tagQ = rest ∧ t.tagNext = s.ns + 125 ∧ (streamAt t k).lastTag = tagBytes (packetTag f)
      ∧ rd t F.PKT_FRAMES_COUNT k = min (rd s F.PKT_FRAMES_COUNT k + 1) (2 ^ F.PKT_FRAMES_COUNT.width - 1)
      ∧ (∀ g ∈ t.frames, g.stream = k → g.seq = q → g.tent = none → g.phase = .complete) := by
  obtain ⟨a, ha⟩ : ∃ a, a = setFrame { s with tagQ := rest, tagNext := s.ns + 125 } k q fun f => { f with phase := .complete } := ⟨_, rfl⟩
  obtain ⟨b, hb⟩ : ∃ b, b = setStream a k { streamAt a k with lastTag := tagBytes (packetTag f) } := ⟨_, rfl⟩
  obtain ⟨c, hc⟩ : ∃ c, c = fevFire (bump b F.PKT_FRAMES_COUNT k) k true := ⟨_, rfl⟩
  obtain ⟨hfires, htouch⟩ := fevFire_firesOnly (bump b F.PKT_FRAMES_COUNT k) k true
  have hbregs : b.regs = s.regs := by
    rw [hb, ha]
    rfl
  have hbs : Touches [F.PKT_FRAMES_COUNT] s b := .of_regs hbregs
  have hbc : Touches (F.PKT_FRAMES_COUNT :: beaconFields) s c := by
    rw [hc]
    exact ((hbs.wr F.PKT_FRAMES_COUNT k _ (by simp)).mono (by simp)).trans (htouch.mono fun f hf => .tail _ hf)
  have hstreams : c.streams = b.streams := by
    have e := congrArg State.streams hfires
    rw [hc, e]
    rfl
  have hframes : c.frames = a.frames := by
    have e := congrArg State.frames hfires
    rw [hc, e, hb]
    rfl
  have hcores : c.cores = s.cores := by
    have e := congrArg State.cores hfires
    rw [hc, e, hb, ha]
    rfl
  have htags : c.tagQ = rest ∧ c.tagNext = s.ns + 125 := by
    have e := congrArg State.tagQ hfires
    have e' := congrArg State.tagNext hfires
    rw [hc, e, e', hb, ha]
    exact ⟨rfl, rfl⟩
  obtain ⟨d, hd⟩ : ∃ d, d = { c with preVerdicts := c.preVerdicts.filter fun e => !(e.1 == k && e.2.1 == q) } := ⟨_, rfl⟩
  have hdregs : d.regs = c.regs := by
    rw [hd]
  have hrelease : tagRelease s = some (f, d) := by
    have hseq : burstSeqDone c k q = c := by
      unfold burstSeqDone burstState at *
      rw [hbc _ _ (by decide)]
      exact if_neg fun h => hburst h.1
    have htrack : gateTrack c k q f.tbFe = d := by
      have hoff : gateOn d k = false := by
        rw [← hgate, gateOn, gateOn, isSet_congr ((rd_congr hdregs _ _).trans (hbc _ _ (by decide)))]
      rw [hd] at hoff ⊢
      unfold gateTrack
      exact if_pos (by rw [hoff]; rfl)
    have hdma : dmaTagDone d k q = d := by
      have hset : isSet d F.DMA_SDLV_CFG_EN k = false := (isSet_congr ((rd_congr hdregs _ _).trans (hbc _ _ (by decide)))).trans hsdlv
      unfold dmaTagDone sdlvLive
      rw [hset, Bool.and_false, Bool.false_and, Bool.false_and]
      exact if_neg Bool.false_ne_true
    unfold tagRelease
    rw [htag]
    dsimp only
    rw [if_neg (by omega), hframe]
    dsimp only
    rw [← ha, ← hb, ← hc, hseq, htrack, hdma]
  have hcomplete : tagComplete s = d := by
    unfold tagComplete
    rw [hrelease]
    refine recipesSee_none (fun i hi => ?_) f
    have hcore : coreAt d i = coreAt s i := by
      unfold coreAt
      rw [hd, hcores]
    rw [hcore]
    exact hrecipe i hi
  have hexec : exec .tagComplete s = finish s (tagComplete s) := by
    rw [← inBlock_of hworks tagComplete]
    rfl
  rw [hexec, hcomplete]
  refine answers_finish fun t ht => ⟨?_, ?_, ?_, ?_, phase_of_setFrame (s := { s with tagQ := rest, tagNext := s.ns + 125 })
    (h := fun f => { f with phase := .complete }) ?_ ht fun f => rfl⟩
  · rw [ht.tagQ, hd]
    exact htags.1
  · rw [ht.tagNext, hd]
    exact htags.2
  · have hst : streamAt t k = streamAt b k := by
      unfold streamAt
      rw [ht.streams, hd, hstreams]
    rw [hst, hb, streamAt_setStream, if_pos rfl]
  · rw [ht.rd, rd_congr hdregs, hc, htouch _ _ (by decide), rd_bump, rd_congr hbregs]
  · rw [hd, hframes, ha]

/-! ### Uplinks (R137, R268, R302 to R306) -/

theorem pktPortAt_setPktPort (s : State) (n : Nat) (x : PktPort) : pktPortAt (setPktPort s n x) n = x := sget_sset_same ..

theorem pktPortAt_congr (h : u.pktPorts = s.pktPorts) (n : Nat) : pktPortAt u n = pktPortAt s n := by
  unfold pktPortAt
  rw [h]

/-- The wire of an uplink takes a sequence; the queue of the port stays. -/
theorem ulPut_shows (s : State) (n x : Nat) (chars : List (Bool × Nat)) : (pktPortAt (ulPut s n x chars) n).trigQ = (pktPortAt s n).trigQ := by
  unfold ulPut
  rw [pktPortAt_setPktPort]

theorem ulControl_shows (s : State) (n x : Nat) : (pktPortAt (ulControl s n x) n).trigQ = (pktPortAt s n).trigQ := by
  unfold ulControl
  dsimp only
  rw [pktPortAt_setPktPort]
  exact ulPut_shows s n x _

theorem preempt_shows (s : State) (n x id : Nat) : (pktPortAt (preempt s n x id) n).trigQ = (pktPortAt s n).trigQ := by
  have hbump (c : Prop) [Decidable c] : pktPortAt (if c then bump s F.PRT_UL_PREEMPT_COUNT n else s) n = pktPortAt s n := by
    split <;> rfl
  unfold preempt
  dsimp only
  split
  · rw [ulControl_shows, ulPut_shows, hbump]
  · rw [ulPut_shows, hbump]

theorem preempt_touches (s : State) (n x id : Nat) : Touches [F.PRT_UL_PREEMPT_COUNT] s (preempt s n x id) := by
  have hput (u : State) (x : Nat) (chars : List (Bool × Nat)) : Touches [F.PRT_UL_PREEMPT_COUNT] u (ulPut u n x chars) := .of_regs rfl
  have hcontrol (u : State) (x : Nat) : Touches [F.PRT_UL_PREEMPT_COUNT] u (ulControl u n x) := .of_regs rfl
  have hbump (c : Prop) [Decidable c] : Touches [F.PRT_UL_PREEMPT_COUNT] s (if c then bump s F.PRT_UL_PREEMPT_COUNT n else s) :=
    Touches.ite (Touches.refl.wr _ _ _ (by simp)) .refl
  unfold preempt
  dsimp only
  exact Touches.ite (((hbump _).trans (hput _ _ _)).trans (hcontrol _ _)) ((hbump _).trans (hput _ _ _))

theorem putRecord_pktPorts (s : State) (src port : Nat) (r : TrigRec) : (putRecord s src port r).pktPorts = s.pktPorts := by
  unfold putRecord
  refine foldl_frame (R := fun u v => v.pktPorts = u.pktPorts) (fun u => rfl) (fun h h' => h'.trans h) (fun u k => ?_) _ s
  split
  · dsimp only
    split <;> rfl
  · rfl

section
variable (hworks : blockWorks s 10 = true) (hn : n < 8)
include hworks hn

theorem answers_trigpktSend {p : TrigPkt} (hq : (pktPortAt s n).trigQ = [p]) (hdue : p.time + 24 ≤ s.tb) (hown : ownUplink s n = true) :
    Answers (exec (.trigpktSend n) s) fun t => (pktPortAt t n).trigQ = [] ∧ (pktPortAt t n).onWire = some (p.time + 24) := by
  obtain ⟨a, ha⟩ : ∃ a, a = preempt s n (p.time + 24) p.id := ⟨_, rfl⟩
  have hqueue : (pktPortAt a n).trigQ = [p] := by rw [ha, preempt_shows, hq]
  have hfound : duePacket s n = some p := by
    unfold duePacket
    rw [hq, List.foldl_cons, List.foldl_nil, decide_eq_true hdue]
    rfl
  have hsend : trigpktSend s n = putRecord (setPktPort a n { pktPortAt a n with
      trigQ := (pktPortAt a n).trigQ.erase p, onWire := if ownUplink a n then some (p.time + 24) else (pktPortAt a n).onWire })
      5 n ⟨p.time + 24, p.id, p.late, false, false, none, false, a.ns⟩ := by
    unfold trigpktSend
    rw [hfound]
    dsimp only
    rw [if_pos hown, ← ha]
    rfl
  have howna : ownUplink a n = true := by
    rw [← hown, ownUplink, ownUplink, ha, isSet_congr (preempt_touches s n _ _ _ _ (by decide))]
  refine answers_onBlock (f := fun s => trigpktSend s n) hn hworks fun t ht => ?_
  rw [hsend] at ht
  have hport := pktPortAt_congr (ht.pktPorts.trans (putRecord_pktPorts _ _ _ _)) n
  rw [pktPortAt_setPktPort] at hport
  rw [hport, hqueue, howna]
  exact ⟨by simp, rfl⟩

omit hworks hn in
/-- A control packet that waits starts, or waits on: its port's record alone changes. -/
theorem ulTick_only (s : State) (n : Nat) : ulTick s n = { s with pktPorts := (ulTick s n).pktPorts } := by
  unfold ulTick
  dsimp only
  split
  · rfl
  split
  · split <;> rfl
  · split <;> rfl

theorem answers_ulSend (hidle : isSet s F.PKT_UL_TXCMD_TX_BUSY n = false)
    (hlen : rd s F.PKT_UL_TXBUF_DATA (65 * n) / 65536 % 65536 ≤ 256) (hown : isSet s F.PKT_PORT_CFG_TWIN_SRC n = false) :
    Answers (exec (.ulSend n) s) fun t =>
      rd t F.PKT_UL_TXCMD_TX_BUSY n = 1 ∧ Keeps [(F.PKT_UL_TXCMD_TX_BUSY, n)] s t
      ∧ Settled { s with regs := t.regs, pktPorts := t.pktPorts } t := by
  obtain ⟨a, ha⟩ : ∃ a, a = wr s F.PKT_UL_TXCMD_TX_BUSY n 1 := ⟨_, rfl⟩
  have hsend : ulSend s n = ulTick a n := by
    have hfits : ¬ 256 < bitsOf (rd s F.PKT_UL_TXBUF_DATA (65 * n)) 16 16 := Nat.not_lt.mpr hlen
    unfold ulSend
    rw [ha]
    exact if_neg (by rw [hidle, hown, decide_eq_false hfits]; decide)
  have htick := ulTick_only a n
  generalize ulTick a n = b at hsend htick
  have hregs : b.regs = a.regs := by rw [htick]
  refine answers_onBlock (f := fun s => ulSend s n) hn hworks fun t ht => ?_
  rw [hsend] at ht
  refine ⟨?_, ht.keeps ?_, ?_⟩
  · rw [ht.rd, rd_congr hregs, ha, rd_wr_same]
    rfl
  · refine Keeps.of_regs (u := a) ?_ hregs
    rw [ha]
    exact (Keeps.refl _ s).wr _ _ _ (by simp)
  · have hb : { s with regs := b.regs, pktPorts := b.pktPorts } = b := by
      rw [htick, ha]
      rfl
    rw [ht.regs, ht.pktPorts, hb]
    exact ht

theorem answers_ulSendBusy (hbusy : isSet s F.PKT_UL_TXCMD_TX_BUSY n = true) : Answers (exec (.ulSend n) s) fun t =>
    hasBit t F.PKT_PORT_EVT_EVT n 7 = true ∧ Changes [(F.PKT_PORT_EVT_EVT, n)] s t := by
  have hsend : ulSend s n = pevt s n 7 := by
    unfold ulSend
    exact if_pos (by rw [hbusy]; rfl)
  refine answers_onBlock (f := fun s => ulSend s n) hn hworks fun t ht => ?_
  rw [hsend] at ht
  refine ⟨?_, ((RegsOnly.refl s).setBit _ _ _).changes ht ((Keeps.refl _ s).wr F.PKT_PORT_EVT_EVT n _ (by simp))⟩
  rw [ht.hasBit]
  exact hasBit_setBit s F.PKT_PORT_EVT_EVT n 7 (by decide)

theorem answers_ulTxDone {t0 : Nat} (hbusy : isSet s F.PKT_UL_TXCMD_TX_BUSY n = true) (hrun : ulRunning s n = true)
    (hpattern : isSet s F.PRT_UL_CFG_PRBS_EN n = false) (hctl : (pktPortAt s n).ctl = some t0) (hgone : ulCtlEnd s n t0 ≤ s.tb)
    (hdue : duePacket s n = none) : Answers (exec (.ulTxDone n) s) fun t =>
      rd t F.PKT_UL_TXCMD_TX_BUSY n = 0 ∧ hasBit t F.PKT_PORT_EVT_EVT n 4 = true ∧ (pktPortAt t n).ctl = none
      ∧ Keeps [(F.PKT_UL_TXCMD_TX_BUSY, n), (F.PKT_PORT_EVT_EVT, n)] s t
      ∧ Settled { s with regs := t.regs, pktPorts := t.pktPorts } t := by
  obtain ⟨a, ha⟩ : ∃ a, a = setPktPort s n { pktPortAt s n with ctl := none } := ⟨_, rfl⟩
  have hdone : ulTxDone s n = pevt (wr a F.PKT_UL_TXCMD_TX_BUSY n 0) n 4 := by
    unfold ulTxDone ulCarries
    rw [ha]
    exact if_pos (by rw [hbusy, hrun, hpattern, hctl, hdue, Option.any_some, decide_eq_true hgone]; rfl)
  have hregs : a.regs = s.regs := by
    rw [ha]
    rfl
  refine answers_onBlock (f := fun s => ulTxDone s n) hn hworks fun t ht => ?_
  rw [hdone] at ht
  refine ⟨?_, ?_, ?_, ht.keeps ?_, ?_⟩
  · rw [ht.rd, pevt, setBit_eq, rd_wr_field _ _ _ _ _ _ (by decide), rd_wr_same]
    rfl
  · rw [ht.hasBit]
    exact hasBit_setBit _ F.PKT_PORT_EVT_EVT n 4 (by decide)
  · have hw : (pevt (wr a F.PKT_UL_TXCMD_TX_BUSY n 0) n 4).pktPorts = a.pktPorts := rfl
    rw [pktPortAt_congr (ht.pktPorts.trans hw), ha, pktPortAt_setPktPort]
  · exact (((Keeps.refl _ s).of_regs hregs).wr _ _ _ (by simp)).wr F.PKT_PORT_EVT_EVT n _ (by simp)
  · rw [ht.regs, ht.pktPorts]
    rw [ha] at ht ⊢
    exact ht

theorem answers_ulRxPop : Answers (exec (.ulRxPop n) s) fun t =>
    (pktPortAt t n).replies = (pktPortAt s n).replies.drop 1 ∧ (pktPortAt t n).trigQ = (pktPortAt s n).trigQ
    ∧ (∀ m, m ≠ n → pktPortAt t m = pktPortAt s m) ∧ Settled { s with pktPorts := t.pktPorts } t := by
  refine answers_onBlock (f := fun s => ulRxPop s n) hn hworks fun t ht => ?_
  have hport := pktPortAt_congr ht.pktPorts n
  rw [ulRxPop, pktPortAt_setPktPort] at hport
  refine ⟨by rw [hport], by rw [hport], fun m hm => ?_, ?_⟩
  · rw [pktPortAt_congr ht.pktPorts m]
    exact sget_sset_ne _ _ _ _ hm
  · rw [ht.pktPorts]
    exact ht

theorem answers_pktPortClrCounts : Answers (exec (.pktPortClrCounts n) s) fun t =>
    (∀ f ∈ pktPortCounters, rd t f n = 0) ∧ Changes (pktPortCounters.map fun f => (f, n)) s t := by
  refine answers_onBlock (f := fun s => clearAll s pktPortCounters n) hn hworks fun t ht => ?_
  exact cleared_of_settled ht (by decide)

end

/-! ### Packets that a beacon channel triggers (R303) -/

/-- A packet that finds a place enters its port's queue alone. -/
theorem autoPacket_queues {x id : Nat} {fcg : Option Nat} (hown : ownUplink s n = true) (hrun : ulRunning s n = true)
    (hpattern : isSet s F.PRT_UL_CFG_PRBS_EN n = false) (hroom : (pktPortAt s n).trigQ.length < 8) :
    autoPacket s n x id fcg = setPktPort s n { pktPortAt s n with
      trigQ := (pktPortAt s n).trigQ ++ [⟨max x s.tb, id % 2 ^ 32, fcg, decide (x < s.tb)⟩] } := by
  have hqueue : queuePacket s n x id fcg = (⟨stOK, decide (x < s.tb), !ownUplink s n, 0⟩, setPktPort s n { pktPortAt s n with
      trigQ := (pktPortAt s n).trigQ ++ [⟨max x s.tb, id % 2 ^ 32, fcg, decide (x < s.tb)⟩] }) := by
    unfold queuePacket
    dsimp only
    rw [if_neg (by rw [hown, hrun, hpattern]; decide), if_neg (by omega)]
  unfold autoPacket
  rw [hqueue]
  rfl

/-- What the beacon trigger path of one port does at an event of channel `ch`. -/
def portTrig (ch : Nat) (s : State) (n : Nat) : State :=
  if isSet s F.PKT_PORT_TRIG_EN n && rd s F.PKT_PORT_TRIG_BCN_CH n == ch then
    let s := wr s F.PKT_PORT_TRIG_ID_VALUE n (rd s F.PKT_PORT_TRIG_ID_VALUE n + 1)
    autoPacket s n s.tb (rd s F.PKT_PORT_TRIG_ID_VALUE n) none
  else s

theorem autoPacket_other {m x id : Nat} {fcg : Option Nat} (hm : n ≠ m) : pktPortAt (autoPacket s m x id fcg) n = pktPortAt s n := by
  have hqueue : pktPortAt (queuePacket s m x id fcg).2 n = pktPortAt s n := by
    unfold queuePacket
    dsimp only
    split
    · rfl
    split
    · rfl
    · exact sget_sset_ne _ _ _ _ hm
  unfold autoPacket
  dsimp only
  split
  · exact hqueue
  · exact hqueue

/-- Another port's trigger path: of port n its packet record and its id stay. -/
def Aside (n : Nat) (s t : State) : Prop :=
  pktPortAt t n = pktPortAt s n ∧ rd t F.PKT_PORT_TRIG_ID_VALUE n = rd s F.PKT_PORT_TRIG_ID_VALUE n
  ∧ t = { s with regs := t.regs, pktPorts := t.pktPorts, streams := t.streams }
  ∧ Touches [F.PKT_PORT_TRIG_ID_VALUE, F.PKT_TRIG_DROP_COUNT, F.PKT_PORT_EVT_EVT, F.PKT_TRIG_ORPHAN_COUNT] s t

theorem Aside.refl (n : Nat) (s : State) : Aside n s s := ⟨rfl, rfl, rfl, .refl⟩

theorem Aside.trans (h : Aside n s u) (h' : Aside n u v) : Aside n s v := by
  obtain ⟨hp, hid, hu, ht⟩ := h
  obtain ⟨hp', hid', hv, ht'⟩ := h'
  exact ⟨hp'.trans hp, hid'.trans hid, by rw [hv, hu], ht.trans ht'⟩

theorem portTrig_aside {m : Nat} (hm : n ≠ m) (ch : Nat) (s : State) : Aside n s (portTrig ch s m) := by
  unfold portTrig
  split
  · obtain ⟨w, hw⟩ : ∃ w, w = wr s F.PKT_PORT_TRIG_ID_VALUE m (rd s F.PKT_PORT_TRIG_ID_VALUE m + 1) := ⟨_, rfl⟩
    have hsw : Aside n s w := by
      rw [hw]
      exact ⟨rfl, rd_wr_inst _ _ _ _ (Ne.symm hm), rfl, Touches.refl.wr _ _ _ (by simp)⟩
    obtain ⟨hu, ht⟩ := autoPacket_recorded w m w.tb (rd w F.PKT_PORT_TRIG_ID_VALUE m) none
    have hauto : Aside n w (autoPacket w m w.tb (rd w F.PKT_PORT_TRIG_ID_VALUE m) none) :=
      ⟨autoPacket_other hm, ht _ _ (by decide), hu, ht.mono fun f hf => .tail _ hf⟩
    rw [← hw]
    exact hsw.trans hauto
  · exact .refl n s

/-- A fold that visits n once is its step at n between steps elsewhere. -/
theorem foldl_visit {R : State → State → Prop} (hrefl : ∀ u, R u u) (htrans : ∀ {u v w}, R u v → R v w → R u w)
    {g : State → Nat → State} (hg : ∀ u j, n ≠ j → R u (g u j)) {l : List Nat} (hl : l.Nodup) (hn : n ∈ l) (s : State) :
    ∃ u, R s u ∧ R (g u n) (l.foldl g s) := by
  obtain ⟨as, bs, rfl⟩ := List.append_of_mem hn
  have hrest : ∀ (l : List Nat) (s : State), n ∉ l → R s (l.foldl g s) := by
    intro l
    induction l with
    | nil => exact fun s _ => hrefl s
    | cons j l ih =>
      intro s hl
      obtain ⟨hj, hl⟩ := not_or.mp (List.mem_cons.not.mp hl)
      exact htrans (hg s j hj) (ih _ hl)
  obtain ⟨has, hbs⟩ : n ∉ as ∧ n ∉ bs := by
    rw [List.nodup_middle, List.nodup_cons, List.mem_append, not_or] at hl
    exact hl.1
  refine ⟨as.foldl g s, hrest as s has, ?_⟩
  rw [List.foldl_append, List.foldl_cons]
  exact hrest bs _ hbs

/-- The trigger path of port n takes the events of channel `ch`, and its queue has room. -/
structure TrigReady (s : State) (n ch : Nat) : Prop where
  en : isSet s F.PKT_PORT_TRIG_EN n = true
  bound : rd s F.PKT_PORT_TRIG_BCN_CH n = ch
  own : ownUplink s n = true
  running : ulRunning s n = true
  pattern : isSet s F.PRT_UL_CFG_PRBS_EN n = false
  room : (pktPortAt s n).trigQ.length < 8

/-- The registers that say so. -/
def trigReadyFields : List Field := [F.PKT_PORT_TRIG_EN, F.PKT_PORT_TRIG_BCN_CH, F.PKT_PORT_CFG_TWIN_SRC, F.PRT_CFG_EN, F.PRT_UL_CFG_EN,
  F.PRT_STATUS_STATE, F.PRT_UL_CFG_PRBS_EN, F.KP_GOOD_DOMAINS, F.GLB_RST_STATUS_WARM_BUSY]

theorem TrigReady.congr {ch : Nat} {fs : List Field} (h : TrigReady s n ch) (ht : Touches fs s u)
    (hfs : ∀ f ∈ trigReadyFields, ∀ g ∈ fs, g.fid % 1024 ≠ f.fid % 1024) (hadie : u.aDieReset = s.aDieReset)
    (hlane : u.laneStopped = s.laneStopped) (hport : pktPortAt u n = pktPortAt s n) : TrigReady u n ch := by
  have hr (f : Field) (hf : f ∈ trigReadyFields) (i : Nat) : rd u f i = rd s f i := ht f i (hfs f hf)
  have hdom : domUp u = domUp s := domUp_congr (hr _ (by decide) 0) (hr _ (by decide) 0) hadie hlane
  obtain ⟨hen, hbound, hown, hrun, hpattern, hroom⟩ := h
  refine ⟨(isSet_congr (hr _ (by decide) n)).trans hen, (hr _ (by decide) n).trans hbound, ?_, ?_,
    (isSet_congr (hr _ (by decide) n)).trans hpattern, hport ▸ hroom⟩
  · rwa [ownUplink, isSet_congr (hr F.PKT_PORT_CFG_TWIN_SRC (by decide) n)]
  · unfold ulRunning at *
    rwa [hdom, isSet_congr (hr F.PRT_CFG_EN (by decide) n), isSet_congr (hr F.PRT_UL_CFG_EN (by decide) n),
      hr F.PRT_STATUS_STATE (by decide) n]

theorem portTrig_queues {ch : Nat} (h : TrigReady s n ch) :
    rd (portTrig ch s n) F.PKT_PORT_TRIG_ID_VALUE n = (rd s F.PKT_PORT_TRIG_ID_VALUE n + 1) % 2 ^ 32
    ∧ (pktPortAt (portTrig ch s n) n).trigQ
      = (pktPortAt s n).trigQ ++ [⟨s.tb, (rd s F.PKT_PORT_TRIG_ID_VALUE n + 1) % 2 ^ 32, none, false⟩]
    ∧ (portTrig ch s n).beacons = s.beacons := by
  obtain ⟨w, hw⟩ : ∃ w, w = wr s F.PKT_PORT_TRIG_ID_VALUE n (rd s F.PKT_PORT_TRIG_ID_VALUE n + 1) := ⟨_, rfl⟩
  have hid : rd w F.PKT_PORT_TRIG_ID_VALUE n = (rd s F.PKT_PORT_TRIG_ID_VALUE n + 1) % 2 ^ 32 := by
    rw [hw, rd_wr_same]
    rfl
  have hregs : RegsOnly s w := by
    rw [hw]
    exact (RegsOnly.refl s).wr _ _ _
  have hkeep : pktPortAt w n = pktPortAt s n ∧ w.tb = s.tb ∧ w.beacons = s.beacons ∧ w.aDieReset = s.aDieReset
      ∧ w.laneStopped = s.laneStopped := by
    rw [hw]
    exact ⟨rfl, rfl, rfl, rfl, rfl⟩
  obtain ⟨hport, htb, hbeacons, hadie, hlane⟩ := hkeep
  have hsw : Touches [F.PKT_PORT_TRIG_ID_VALUE] s w := by
    rw [hw]
    exact Touches.refl.wr _ _ _ (by simp)
  have hready := h.congr hsw (by decide) hadie hlane hport
  have hstep : portTrig ch s n = autoPacket w n w.tb (rd w F.PKT_PORT_TRIG_ID_VALUE n) none := by
    rw [hw]
    exact if_pos (by rw [h.en, h.bound]; simp)
  rw [hstep, autoPacket_queues hready.own hready.running hready.pattern hready.room, hid]
  refine ⟨hid, ?_, hbeacons⟩
  rw [pktPortAt_setPktPort, hport, htb, Nat.max_self, Nat.mod_mod, decide_eq_false (Nat.lt_irrefl _)]

theorem answers_pktTrigEvent {ch : Nat} {soft : Bool} {rest : List (Nat × Nat × Bool)} (hup : domUp s 22 = true) (hn : n < 8)
    (hch : ch < 48) (hbeacons : s.beacons = (ch, 54, soft) :: rest) (hready : TrigReady s n ch) :
    Answers (exec (.pktTrigEvent ch) s) fun t =>
      t.beacons = rest ∧ rd t F.PKT_PORT_TRIG_ID_VALUE n = (rd s F.PKT_PORT_TRIG_ID_VALUE n + 1) % 2 ^ 32
      ∧ (pktPortAt t n).trigQ
        = (pktPortAt s n).trigQ ++ [⟨s.tb, (rd s F.PKT_PORT_TRIG_ID_VALUE n + 1) % 2 ^ 32, none, false⟩] := by
  have hdomains : ∀ d ∈ consumerDomains 54, domUp s d = true := by
    intro d hd
    rwa [List.mem_singleton.mp hd]
  obtain ⟨r, hr⟩ : ∃ r, r = { s with beacons := rest } := ⟨_, rfl⟩
  obtain ⟨a, ha⟩ : ∃ a, a = deliver r ch := ⟨_, rfl⟩
  have harrive : beaconArrives s 54 (· == ch) (fun _ => false) (fun ch s => pktTrig s ch) = (List.range 8).foldl (portTrig ch) a := by
    rw [beaconArrives_first hbeacons (by simp) hdomains rfl, ha, hr]
    rfl
  have hra : RegsOnly r a := by
    rw [ha]
    exact deliver_regsOnly r ch
  have hsr : Touches beaconFields s r := by
    rw [hr]
    exact .of_regs rfl
  have hsa : Touches beaconFields s a := by
    rw [ha]
    exact hsr.trans (deliver_touches r ch)
  have hkeep : pktPortAt a n = pktPortAt s n ∧ a.tb = s.tb ∧ a.beacons = rest ∧ a.aDieReset = s.aDieReset
      ∧ a.laneStopped = s.laneStopped := by
    unfold RegsOnly at hra
    rw [hra, hr]
    exact ⟨rfl, rfl, rfl, rfl, rfl⟩
  obtain ⟨haport, hatb, harest, haadie, halane⟩ := hkeep
  have hida : rd a F.PKT_PORT_TRIG_ID_VALUE n = rd s F.PKT_PORT_TRIG_ID_VALUE n := hsa _ _ (by decide)
  have hreadya := hready.congr hsa (by decide) haadie halane haport
  obtain ⟨b, ⟨hbport, hbid, hb, hbtouch⟩, hport, hid, hfold, -⟩ := foldl_visit (Aside.refl n) Aside.trans
    (fun u j hj => portTrig_aside hj ch u) List.nodup_range (List.mem_range.mpr hn) a
  have hkeepb : b.tb = a.tb ∧ b.beacons = a.beacons ∧ b.aDieReset = a.aDieReset ∧ b.laneStopped = a.laneStopped := by
    rw [hb]
    exact ⟨rfl, rfl, rfl, rfl⟩
  obtain ⟨hbtb, hbrest, hbadie, hblane⟩ := hkeepb
  obtain ⟨hqid, hqueue, hqrest⟩ := portTrig_queues (hreadya.congr hbtouch (by decide) hbadie hblane hbport)
  generalize portTrig ch b n = c at hport hid hfold hqid hqueue hqrest
  generalize (List.range 8).foldl (portTrig ch) a = d at harrive hport hid hfold
  have hdrest : d.beacons = c.beacons := by
    have e := congrArg State.beacons hfold
    exact e
  have hexec : exec (.pktTrigEvent ch) s = onUnit ch 48 s fun s =>
      beaconArrives s 54 (· == ch) (fun _ => false) fun ch s => pktTrig s ch := rfl
  rw [hexec]
  refine answers_onUnit hch fun t ht => ?_
  replace ht : Settled d t := by
    rw [← harrive]
    exact ht
  refine ⟨?_, ?_, ?_⟩
  · rw [ht.beacons, hdrest, hqrest, hbrest, harest]
  · rw [ht.rd, hid, hqid, hbid, hida]
  · rw [pktPortAt_congr ht.pktPorts, hport, hqueue, hbport, haport, hbid, hida, hbtb, hatb]

/-! ### The stream map, captured tags and counters (R286, R300) -/

/-- The fields of a value written to PKT_MAP. -/
theorem mapValue_fields {e port vc dt : Nat} (he : e < 2) (hport : port < 8) (hvc : vc < 32) (hdt : dt < 64) :
    (e + 2 * port + 16 * vc + 1024 * dt).testBit 0 = decide (e = 1) ∧ bitsOf (e + 2 * port + 16 * vc + 1024 * dt) 10 6 = dt
    ∧ bitsOf (e + 2 * port + 16 * vc + 1024 * dt) 1 3 = port ∧ bitsOf (e + 2 * port + 16 * vc + 1024 * dt) 4 5 = vc := by
  unfold bitsOf
  refine ⟨?_, by omega, by omega, by omega⟩
  rw [Nat.testBit_zero]
  congr 1
  exact propext ⟨by omega, by omega⟩

section
variable (hworks : blockWorks s 10 = true) (hk : k < 64)
include hworks hk

section
variable {port vc dt : Nat} (hauto : autoOwned s k = false) (hoff : isSet s F.PKT_MAP_EN k = false) (hport : port < 8) (hvc : vc < 32)
  (hdt : dt < 64)
include hauto hoff hport hvc hdt

theorem answers_mapEnable (htype : dtFormat dt ≠ none) (hfree : mapRefused s k port vc dt = false) :
    Answers (exec (.pktMapWrite k (1 + 2 * port + 16 * vc + 1024 * dt)) s) fun t =>
      rd t F.PKT_MAP_EN k = 1 ∧ rd t F.PKT_MAP_PORT k = port ∧ rd t F.PKT_MAP_VC k = vc ∧ rd t F.PKT_MAP_DT k = dt
      ∧ Changes [(F.PKT_MAP_EN, k), (F.PKT_MAP_PORT, k), (F.PKT_MAP_VC, k), (F.PKT_MAP_DT, k)] s t := by
  obtain ⟨hen, hd, hp, hv⟩ := mapValue_fields (e := 1) (by decide) hport hvc hdt
  have hgood : (dtFormat dt).isNone = false := by
    rw [← Option.not_isSome, Option.isSome_iff_ne_none.mpr htype]
    rfl
  have hwrite : pktMapWrite s k (1 + 2 * port + 16 * vc + 1024 * dt)
      = wr (wr (wr (wr s F.PKT_MAP_PORT k port) F.PKT_MAP_VC k vc) F.PKT_MAP_DT k dt) F.PKT_MAP_EN k 1 := by
    unfold pktMapWrite
    rw [hauto, hen, hd, hp, hv, hoff]
    dsimp only
    rw [hgood, if_neg Bool.false_ne_true, if_neg Bool.false_ne_true, if_neg Bool.false_ne_true, if_neg Bool.false_ne_true,
      if_neg (by rw [Bool.false_and]; decide), hfree]
    rfl
  refine answers_onBlock (f := fun s => pktMapWrite s k _) hk hworks fun t ht => ?_
  rw [hwrite] at ht
  have hp' : port % 2 ^ 3 = port := Nat.mod_eq_of_lt hport
  have hv' : vc % 2 ^ 5 = vc := Nat.mod_eq_of_lt hvc
  have hd' : dt % 2 ^ 6 = dt := Nat.mod_eq_of_lt hdt
  refine ⟨?_, ?_, ?_, ?_, ((((RegsOnly.refl s).wr _ _ _).wr _ _ _).wr _ _ _ |>.wr _ _ _).changes ht
    (((((Keeps.refl _ s).wr _ _ _ (by simp)).wr _ _ _ (by simp)).wr _ _ _ (by simp)).wr _ _ _ (by simp))⟩
  · rw [ht.rd, rd_wr_same]
    rfl
  · rw [ht.rd]
    simp (disch := decide) only [rd_wr_field, rd_wr_same]
    exact hp'
  · rw [ht.rd]
    simp (disch := decide) only [rd_wr_field, rd_wr_same]
    exact hv'
  · rw [ht.rd]
    simp (disch := decide) only [rd_wr_field, rd_wr_same]
    exact hd'

theorem answers_mapBadType (htype : dtFormat dt = none) : Answers (exec (.pktMapWrite k (2 * port + 16 * vc + 1024 * dt)) s) fun t =>
    hasBit t F.PKT_SEVT_EVT k 4 = true ∧ rd t F.PKT_MAP_EN k = 0 ∧ rd t F.PKT_MAP_DT k = rd s F.PKT_MAP_DT k := by
  obtain ⟨hen, hd, hp, hv⟩ := mapValue_fields (e := 0) (by decide) hport hvc hdt
  rw [Nat.zero_add] at hen hd hp hv
  have hwrite : pktMapWrite s k (2 * port + 16 * vc + 1024 * dt)
      = wr (wr (wr (wr (sevt s k 4) F.PKT_MAP_PORT k port) F.PKT_MAP_VC k vc) F.PKT_MAP_DT k (rd s F.PKT_MAP_DT k)) F.PKT_MAP_EN k 0 := by
    unfold pktMapWrite
    rw [hauto, hen, hd, hp, hv, hoff]
    dsimp only
    rw [htype]
    rfl
  refine answers_onBlock (f := fun s => pktMapWrite s k _) hk hworks fun t ht => ?_
  rw [hwrite] at ht
  refine ⟨?_, ?_, ?_⟩
  · rw [ht.hasBit, hasBit]
    simp (disch := decide) only [rd_wr_field]
    exact hasBit_setBit s F.PKT_SEVT_EVT k 4 (by decide)
  · rw [ht.rd, rd_wr_same]
    rfl
  · rw [ht.rd, rd_wr_field _ _ _ _ _ _ (by decide), rd_wr_same]
    exact Nat.mod_eq_of_lt (rd_lt s F.PKT_MAP_DT k)

end

theorem answers_lastTagRead : Answers (exec (.lastTagRead k) s) fun t =>
    (streamAt t k).lastTagRead = (streamAt s k).lastTag ∧ Settled { s with streams := t.streams } t := by
  refine answers_onBlock (f := fun s => lastTagRead s k) hk hworks fun t ht => ⟨?_, ?_⟩
  · have hst : streamAt t k = streamAt (lastTagRead s k) k := by
      unfold streamAt
      rw [ht.streams]
    rw [hst, lastTagRead, streamAt_setStream, if_pos rfl]
  · rw [ht.streams]
    exact ht

theorem answers_pktStreamClrCounts : Answers (exec (.pktStreamClrCounts k) s) fun t =>
    (∀ f ∈ pktStreamCounters, rd t f k = 0) ∧ Changes (pktStreamCounters.map fun f => (f, k)) s t := by
  refine answers_onBlock (f := fun s => clearAll s pktStreamCounters k) hk hworks fun t ht => ?_
  exact cleared_of_settled ht (by decide)

end

end

/-- Settles O33, clause by clause. -/
theorem tagsUplinksAndTheMapAct : Obligations.TagsUplinksAndTheMapAct := by
  intro s hworks
  refine ⟨fun k f hk hlast hroom => answers_tagFinalise hworks hk hlast hroom,
    fun k q rest f _ htag hnext hframe hgate hsdlv hburst hrecipe =>
      answers_tagComplete hworks htag hnext hframe hgate hsdlv hburst hrecipe,
    fun n hn => ⟨fun p hq hdue hown => answers_trigpktSend hworks hn hq hdue hown,
      fun hidle hlen hown => answers_ulSend hworks hn hidle hlen hown,
      fun hbusy => ⟨answers_ulSendBusy hworks hn hbusy,
        fun t0 hrun hpattern hctl hgone hdue => answers_ulTxDone hworks hn hbusy hrun hpattern hctl hgone hdue⟩,
      fun ch soft rest hch hbeacons hen hbound hown hrun hpattern hroom =>
        answers_pktTrigEvent (domUp_of_blockWorks hworks rfl) hn hch hbeacons ⟨hen, hbound, hown, hrun, hpattern, hroom⟩,
      answers_ulRxPop hworks hn, answers_pktPortClrCounts hworks hn⟩,
    fun k hk => ⟨fun port vc dt hauto hoff hport hvc hdt =>
        ⟨fun htype hfree => answers_mapEnable hworks hk hauto hoff hport hvc hdt htype hfree,
          fun htype => answers_mapBadType hworks hk hauto hoff hport hvc hdt htype⟩,
      answers_lastTagRead hworks hk, answers_pktStreamClrCounts hworks hk⟩⟩

end Sys2Proof.Machine
end

section
/-! Recipes load, begin or refuse, start their clock, stop and end (R69 to R79). -/
open Sys2Proof
namespace Sys2Proof.Machine

section
variable {s t u v : State} {c : Nat}

/-! ### RECIPE_START (R74, R99) -/

/-- The registers that a request to start recipe `id` writes. -/
def recipeRequested (s : State) (c id : Nat) : State :=
  wr (wr (wr (wr (wr s F.SQ_CTL_RECIPE_ID c id) F.SQ_RECIPE_ERR_CODE c 0) F.SQ_RECIPE_ERR_OFFSET c 0) F.SQ_STATUS_RECIPE_STATE c rsLOADING)
    F.SQ_STATUS_RECIPE_RUNNING c id

/-- A core whose recipe's code is copied from the recipe ROM. -/
def coreLoading (k : SqCore) (id due : Nat) : SqCore := { k with recipe := some ⟨id, [], none, false, 0, 0⟩, loadDue := some due, rom := id }

/-- The registers that a start writes. -/
def startFields (c : Nat) : List (Field × Nat) :=
  [(F.SQ_STATUS_STATE, c), (F.SQ_STATUS_RECIPE_STATE, c), (F.SQ_STATUS_RECIPE_RUNNING, c), (F.SQ_CTL_RECIPE_ID, c),
    (F.SQ_RECIPE_ERR_CODE, c), (F.SQ_RECIPE_ERR_OFFSET, c), (F.SQ_HASH_CTL_VALID, 0)]

theorem recipeRequested_keeps (s : State) (c id : Nat) : Keeps (startFields c) s (recipeRequested s c id) := by
  have hwr (u : State) (f : Field) (x : Nat) (hu : Keeps (startFields c) s u) (hf : (f, c) ∈ startFields c) :
      Keeps (startFields c) s (wr u f c x) := hu.wr f c x hf
  unfold recipeRequested
  refine hwr _ _ _ (hwr _ _ _ (hwr _ _ _ (hwr _ _ _ (hwr _ _ _ (.refl _ s) ?_) ?_) ?_) ?_) ?_ <;> simp [startFields]

/-- The state of a core that loads recipe `id`. -/
def recipeLoading (s : State) (c id : Nat) : State :=
  setSqState (hashSpoiled { setCore (recipeRequested s c id) c (coreLoading (coreAt s c) id (s.ns + 5120)) with
    prog := sfilter (fun a => a / 0x8000 ≠ c) s.prog }) c sqLOADING

/-- Registers, cores, program memory and the mark of the hash engine alone differ. -/
def StartOnly (s t : State) : Prop := t = { s with regs := t.regs, cores := t.cores, prog := t.prog, hashDirty := t.hashDirty }

theorem StartOnly.trans (h : StartOnly s u) (h' : StartOnly u v) : StartOnly s v := by
  unfold StartOnly at *
  rw [h', h]

theorem RegsOnly.startOnly (h : RegsOnly s u) : StartOnly s u := by
  unfold RegsOnly at h
  unfold StartOnly
  rw [h]

theorem recipeRequested_regsOnly (s : State) (c id : Nat) : RegsOnly s (recipeRequested s c id) :=
  (((((RegsOnly.refl s).wr _ _ _).wr _ _ _).wr _ _ _).wr _ _ _).wr _ _ _

theorem recipeLoading_startOnly (s : State) (c id : Nat) : StartOnly s (recipeLoading s c id) := by
  have hspoil (u : State) : StartOnly u (hashSpoiled u) := rfl
  have hprog (u : State) (k : SqCore) (x : List (Nat × Nat)) : StartOnly u { setCore u c k with prog := x } := rfl
  unfold recipeLoading setSqState
  exact ((recipeRequested_regsOnly s c id).startOnly.trans (hprog _ _ _)).trans
    ((hspoil _).trans ((RegsOnly.refl _).wr _ _ _).startOnly)

/-- Program bytes follow what is written there, the ROM of their core, and the lost memories. -/
theorem progByte_congr {a b : Nat} (hprog : sget u.prog 0 a = sget s.prog 0 a) (hlost : u.memLost = s.memLost)
    (hrom : (coreAt u (a / 0x8000)).rom = (coreAt s (a / 0x8000)).rom) (h : progByte s a = b) : progByte u a = b := by
  unfold progByte progRest memBack at *
  rwa [hprog, hlost, hrom]

section
variable {id : Nat} (hc : c < 8) (hreach : blockReach s 15 = true) (hlo : 1 ≤ id) (hhi : id ≤ 6)
include hc hreach hlo hhi

omit hc hreach in
theorem recipeStart_halted (hst : sqState s c = sqHALTED) :
    recipeStart (if 1 ≤ id ∧ id ≤ 6 then wr s F.SQ_CTL_RECIPE_ID c id else s) c = recipeLoading s c id := by
  have hid : rd (wr s F.SQ_CTL_RECIPE_ID c id) F.SQ_CTL_RECIPE_ID c = id := by
    rw [rd_wr_same]
    exact Nat.mod_eq_of_lt (Nat.lt_of_le_of_lt hhi (by decide))
  have hstate : sqState (wr s F.SQ_CTL_RECIPE_ID c id) c = sqHALTED := by
    unfold sqState at *
    rwa [rd_wr_field _ _ _ _ _ _ (by decide)]
  rw [if_pos ⟨hlo, hhi⟩]
  unfold recipeStart
  rw [if_neg (by rw [hstate]; decide)]
  dsimp only
  rw [hid]
  rfl

theorem answers_recipeStart (hst : sqState s c = sqHALTED) : Answers (exec (.recipeStart c id) s) fun t =>
    sqState t c = sqLOADING ∧ recipeState t c = rsLOADING ∧ rd t F.SQ_STATUS_RECIPE_RUNNING c = id
    ∧ rd t F.SQ_CTL_RECIPE_ID c = id ∧ rd t F.SQ_RECIPE_ERR_CODE c = 0 ∧ rd t F.SQ_RECIPE_ERR_OFFSET c = 0
    ∧ rd t F.SQ_HASH_CTL_VALID = 0 ∧ (coreAt t c).loadDue = some (s.ns + 5120)
    ∧ (∀ a, a < 0x8000 → progByte t (c * 0x8000 + a) = Config.romByte id a % 256)
    ∧ (∀ c' a, c' < 8 → c' ≠ c → a < 0x8000 → progByte t (c' * 0x8000 + a) = progByte s (c' * 0x8000 + a))
    ∧ Keeps [(F.SQ_STATUS_STATE, c), (F.SQ_STATUS_RECIPE_STATE, c), (F.SQ_STATUS_RECIPE_RUNNING, c),
        (F.SQ_CTL_RECIPE_ID, c), (F.SQ_RECIPE_ERR_CODE, c), (F.SQ_RECIPE_ERR_OFFSET, c), (F.SQ_HASH_CTL_VALID, 0)] s t
    ∧ Settled { s with regs := t.regs, cores := t.cores, prog := t.prog, hashDirty := t.hashDirty } t := by
  obtain ⟨u, hu⟩ : ∃ u, u = recipeLoading s c id := ⟨_, rfl⟩
  have hcore : ∀ d, coreAt u d = if d = c then coreLoading (coreAt s c) id (s.ns + 5120) else coreAt s d := by
    intro d
    have h : coreAt u d = coreAt (setCore (recipeRequested s c id) c (coreLoading (coreAt s c) id (s.ns + 5120))) d := by
      rw [hu]
      rfl
    rw [h]
    split
    · rename_i hd
      rw [hd, coreAt_setCore_same]
    · rename_i hd
      rw [coreAt_setCore_ne _ _ hd]
      rfl
  have hprog : u.prog = sfilter (fun a => a / 0x8000 ≠ c) s.prog ∧ u.memLost = s.memLost := by
    rw [hu]
    exact ⟨rfl, rfl⟩
  obtain ⟨b, hb⟩ : ∃ b, b = recipeRequested s c id := ⟨_, rfl⟩
  have hread (f : Field) : rd u f c = rd (wr (wr b F.SQ_HASH_CTL_VALID 0 0) F.SQ_STATUS_STATE c sqLOADING) f c := by
    rw [hu, hb]
    rfl
  have hframe : StartOnly s u := by
    rw [hu]
    exact recipeLoading_startOnly s c id
  have hkeeps : Keeps (startFields c) s b := by
    rw [hb]
    exact recipeRequested_keeps s c id
  have hid : id % 2 ^ 4 = id := Nat.mod_eq_of_lt (Nat.lt_of_le_of_lt hhi (by decide))
  refine answers_unitReach (f := fun s => recipeStart (if 1 ≤ id ∧ id ≤ 6 then wr s F.SQ_CTL_RECIPE_ID c id else s) c) hc hreach fun t ht => ?_
  rw [recipeStart_halted hlo hhi hst, ← hu] at ht
  refine ⟨?_, ?_, ?_, ?_, ?_, ?_, ?_, ?_, fun a ha => ?_, fun d a hd hne ha => ?_, ht.keeps (ks := startFields c) ?_, ?_⟩
  · rw [sqState, ht.rd, hread, rd_wr_same]
    rfl
  · rw [recipeState, ht.rd, hread, hb, recipeRequested]
    simp (disch := decide) only [rd_wr_field, rd_wr_same]
    rfl
  · rw [ht.rd, hread, hb, recipeRequested]
    simp (disch := decide) only [rd_wr_field, rd_wr_same]
    exact hid
  · rw [ht.rd, hread, hb, recipeRequested]
    simp (disch := decide) only [rd_wr_field, rd_wr_same]
    exact hid
  · rw [ht.rd, hread, hb, recipeRequested]
    simp (disch := decide) only [rd_wr_field, rd_wr_same]
    rfl
  · rw [ht.rd, hread, hb, recipeRequested]
    simp (disch := decide) only [rd_wr_field, rd_wr_same]
    rfl
  · have h : rd u F.SQ_HASH_CTL_VALID 0 = rd (wr (wr b F.SQ_HASH_CTL_VALID 0 0) F.SQ_STATUS_STATE c sqLOADING) F.SQ_HASH_CTL_VALID 0 := by
      rw [hu, hb]
      rfl
    rw [ht.rd, h, rd_wr_field _ _ _ _ _ _ (by decide), rd_wr_same]
    rfl
  · rw [ht.coreAt, hcore, if_pos rfl]
    rfl
  · have hdiv : (c * 0x8000 + a) / 0x8000 = c := by omega
    have hmod : (c * 0x8000 + a) % 0x8000 = a := by omega
    have hcoret : coreAt t c = coreLoading (coreAt s c) id (s.ns + 5120) := by rw [ht.coreAt, hcore, if_pos rfl]
    unfold progByte progRest
    rw [ht.prog, hprog.1, sget_sfilter, hdiv, hmod, if_neg (by simp), hcoret]
    exact if_neg (show id ≠ 0 by omega)
  · have hdiv : (d * 0x8000 + a) / 0x8000 = d := by omega
    refine progByte_congr ?_ ((congrArg State.memLost ht).trans hprog.2) ?_ rfl
    · rw [ht.prog, hprog.1, sget_sfilter, hdiv, if_pos (by simpa using hne)]
    · rw [hdiv, ht.coreAt, hcore, if_neg hne]
  · have hregs : u.regs = (wr (wr b F.SQ_HASH_CTL_VALID 0 0) F.SQ_STATUS_STATE c sqLOADING).regs := by
      rw [hu, hb]
      rfl
    exact ((hkeeps.wr _ _ _ (by simp [startFields])).wr _ _ _ (by simp [startFields])).of_regs hregs
  · rw [ht.regs, ht.cores, ht.prog, ht.hashDirty]
    unfold StartOnly at hframe
    rwa [← hframe]

theorem answers_recipeStartBusy (hst : sqState s c ≠ sqHALTED) : Answers (exec (.recipeStart c id) s) fun t =>
    rd t F.SQ_RECIPE_ERR_CODE c = 7 ∧ Changes [(F.SQ_RECIPE_ERR_CODE, c), (F.SQ_CTL_RECIPE_ID, c)] s t := by
  have hstate : sqState (wr s F.SQ_CTL_RECIPE_ID c id) c ≠ sqHALTED := by
    unfold sqState at *
    rwa [rd_wr_field _ _ _ _ _ _ (by decide)]
  refine answers_unitReach (f := fun s => recipeStart (if 1 ≤ id ∧ id ≤ 6 then wr s F.SQ_CTL_RECIPE_ID c id else s) c) hc hreach fun t ht => ?_
  rw [if_pos ⟨hlo, hhi⟩, recipeStart, if_pos hstate] at ht
  refine ⟨?_, (((RegsOnly.refl s).wr _ _ _).wr _ _ _).changes ht (((Keeps.refl _ s).wr _ _ _ (by simp)).wr _ _ _ (by simp))⟩
  rw [ht.rd, rd_wr_same]
  rfl

end

/-! ### RECIPE_BEGIN (R74 to R76) -/

/-- What a core keeps plays no part in its card. -/
theorem cardBytes_setCore (s : State) (c d : Nat) (k : SqCore) : cardBytes (setCore s d k) c = cardBytes s c := by
  unfold cardBytes sharedBytes ramBytes ramByte memBack setCore
  rfl

section
variable {due : Nat} {r : Recipe} (hload : (coreAt s c).loadDue = some due) (hdue : due ≤ s.ns) (hrecipe : (coreAt s c).recipe = some r)
include hload hdue hrecipe

theorem recipeBegin_refused {code off : Nat} (h : recipeRefusal (setCore s c { coreAt s c with loadDue := none }) c
    { r with card := cardBytes s c } = some (code, off)) :
    recipeBegin s c = setSqState (recipeError (setCore s c { coreAt s c with loadDue := none }) c code off) c sqHALTED := by
  unfold recipeBegin
  dsimp only
  split
  · rename_i x y hx hy
    rw [hload] at hx
    rw [hrecipe] at hy
    cases hx
    cases hy
    rw [if_neg (by omega)]
    rw [cardBytes_setCore]
    split
    · rename_i heq
      rw [h] at heq
      cases heq
      rfl
    · rename_i heq
      rw [h] at heq
      cases heq
  · rename_i h
    exact absurd hrecipe (h due r hload)

theorem recipeBegin_runs (h : recipeRefusal (setCore s c { coreAt s c with loadDue := none }) c
    { r with card := cardBytes s c } = none) :
    recipeBegin s c = recipeRuns (setCore s c { coreAt s c with loadDue := none }) c { r with card := cardBytes s c } := by
  unfold recipeBegin
  dsimp only
  split
  · rename_i x y hx hy
    rw [hload] at hx
    rw [hrecipe] at hy
    cases hx
    cases hy
    rw [if_neg (by omega)]
    rw [cardBytes_setCore]
    split
    · rename_i heq
      rw [h] at heq
      cases heq
    · rfl
  · rename_i h
    exact absurd hrecipe (h due r hload)

end

/-- A recipe's core that runs from pc 0. -/
def recipeRunning (s : State) (c : Nat) (q : Recipe) : State :=
  wr (wr (wr (setCore s c { coreAt s c with recipe := some q, past := false }) F.SQ_STATUS_RECIPE_STATE c rsRUNNING)
    F.SQ_STATUS_STATE c sqRUNNING) F.SQ_PC_PC c 0

/-- However its claims are set up, a recipe that runs ends in that state, with its card, the results apart. -/
theorem recipeRuns_ends (s : State) (c : Nat) (r : Recipe) : ∃ a q, ∃ bs bs' : List Nat × Nat,
    recipeRuns s c r = sharedPuts (sharedPuts (recipeRunning a c q) bs.2 bs.1) bs'.2 bs'.1 ∧ q.id = r.id ∧ q.card = r.card := by
  unfold recipeRuns
  dsimp only
  generalize clockStart _ _ _ = x
  exact ⟨x.1, _, (_, _), (_, _), rfl, rfl, rfl⟩

section
variable {due : Nat} {r : Recipe} (hc : c < 8) (hworks : blockWorks s 15 = true) (hload : (coreAt s c).loadDue = some due) (hdue : due ≤ s.ns)
  (hrecipe : (coreAt s c).recipe = some r)
include hc hworks hload hdue hrecipe

theorem answers_recipeCardBad (hcrc : ({ r with card := cardBytes s c } : Recipe).crcGood = false) : Answers (exec (.recipeBegin c) s) fun t =>
    sqState t c = sqHALTED ∧ recipeState t c = rsERROR ∧ rd t F.SQ_RECIPE_ERR_CODE c = 1
    ∧ rd t F.SQ_RECIPE_ERR_OFFSET c = 0 ∧ hasBit t F.SQ_IRQ_STATUS_EVT c 3 = true ∧ (coreAt t c).recipe = none
    ∧ Keeps [(F.SQ_STATUS_STATE, c), (F.SQ_STATUS_RECIPE_STATE, c), (F.SQ_RECIPE_ERR_CODE, c),
        (F.SQ_RECIPE_ERR_OFFSET, c), (F.SQ_IRQ_STATUS_EVT, c)] s t
    ∧ Settled { s with regs := t.regs, cores := t.cores } t := by
  obtain ⟨w, hw⟩ : ∃ w, w = setCore s c { coreAt s c with loadDue := none } := ⟨_, rfl⟩
  have hbegin : recipeBegin s c = setSqState (recipeError w c 1 0) c sqHALTED := by
    rw [hw]
    refine recipeBegin_refused hload hdue hrecipe ?_
    unfold recipeRefusal
    exact if_pos (by rw [hcrc]; rfl)
  obtain ⟨b, hb⟩ : ∃ b, b = wr (wr (wr w F.SQ_RECIPE_ERR_CODE c 1) F.SQ_RECIPE_ERR_OFFSET c 0) F.SQ_STATUS_RECIPE_STATE c rsERROR := ⟨_, rfl⟩
  obtain ⟨d, hd⟩ : ∃ d, d = setRecipe b c none := ⟨_, rfl⟩
  have herror : setSqState (recipeError w c 1 0) c sqHALTED = wr (setBit d F.SQ_IRQ_STATUS_EVT c 3) F.SQ_STATUS_STATE c sqHALTED := by
    rw [hd, hb]
    rfl
  have hregs : d.regs = b.regs := by
    rw [hd]
    rfl
  have hsb : Keeps [(F.SQ_STATUS_STATE, c), (F.SQ_STATUS_RECIPE_STATE, c), (F.SQ_RECIPE_ERR_CODE, c),
      (F.SQ_RECIPE_ERR_OFFSET, c), (F.SQ_IRQ_STATUS_EVT, c)] s b := by
    have hregsw : w.regs = s.regs := by
      rw [hw]
      rfl
    rw [hb]
    exact ((((Keeps.refl _ s).of_regs hregsw).wr _ _ _ (by simp)).wr _ _ _ (by simp)).wr _ _ _ (by simp)
  refine answers_onBlock (f := fun s => recipeBegin s c) hc hworks fun t ht => ?_
  rw [hbegin, herror] at ht
  refine ⟨?_, ?_, ?_, ?_, ?_, ?_, ht.keeps ?_, ?_⟩
  · rw [sqState, ht.rd, rd_wr_same]
    rfl
  · rw [recipeState, ht.rd, setBit_eq, rd_wr_field _ _ _ _ _ _ (by decide), rd_wr_field _ _ _ _ _ _ (by decide), rd_congr hregs, hb, rd_wr_same]
    rfl
  · rw [ht.rd, setBit_eq, rd_wr_field _ _ _ _ _ _ (by decide), rd_wr_field _ _ _ _ _ _ (by decide), rd_congr hregs, hb]
    simp (disch := decide) only [rd_wr_field, rd_wr_same]
    rfl
  · rw [ht.rd, setBit_eq, rd_wr_field _ _ _ _ _ _ (by decide), rd_wr_field _ _ _ _ _ _ (by decide), rd_congr hregs, hb]
    simp (disch := decide) only [rd_wr_field, rd_wr_same]
    rfl
  · rw [ht.hasBit, hasBit, rd_wr_field _ _ _ _ _ _ (by decide)]
    exact hasBit_setBit d F.SQ_IRQ_STATUS_EVT c 3 (by decide)
  · have hcore : coreAt t c = coreAt d c := ht.coreAt c
    rw [hcore, hd, setRecipe, coreAt_setCore_same]
  · exact ((hsb.of_regs hregs).wr F.SQ_IRQ_STATUS_EVT c _ (by simp)).wr _ _ _ (by simp)
  · refine ht.rest_of_cores (u := s) ?_
    rw [hd, hb, hw]
    rfl

theorem answers_recipeRuns (hgood : recipeRefusal (setCore s c { coreAt s c with loadDue := none }) c { r with card := cardBytes s c } = none) :
    Answers (exec (.recipeBegin c) s) fun t =>
      sqState t c = sqRUNNING ∧ recipeState t c = rsRUNNING ∧ pcOf t c = 0
      ∧ ∃ r', (coreAt t c).recipe = some r' ∧ r'.id = r.id ∧ r'.card = cardBytes s c := by
  have hbegin := recipeBegin_runs hload hdue hrecipe hgood
  obtain ⟨a, q, bs, bs', hruns, hid, hcard⟩ := recipeRuns_ends (setCore s c { coreAt s c with loadDue := none }) c { r with card := cardBytes s c }
  refine answers_onBlock (f := fun s => recipeBegin s c) hc hworks fun t ht => ?_
  rw [hbegin, hruns] at ht
  have hregs (f : Field) : rd t f c = rd (recipeRunning a c q) f c := ht.rd f c
  have hcore : coreAt t c = coreAt (recipeRunning a c q) c := ht.coreAt c
  have hown : coreAt (recipeRunning a c q) c = { coreAt a c with recipe := some q, past := false } := coreAt_setCore_same a c _
  refine ⟨?_, ?_, ?_, q, by rw [hcore, hown], hid, hcard⟩
  · rw [sqState, hregs, recipeRunning]
    simp (disch := decide) only [rd_wr_field, rd_wr_same]
    rfl
  · rw [recipeState, hregs, recipeRunning]
    simp (disch := decide) only [rd_wr_field, rd_wr_same]
    rfl
  · rw [pcOf, hregs, recipeRunning, rd_wr_same]
    rfl

end

/-! ### RECIPE_STOP and its end (R77, R78) -/

/-- A TRIAGE recipe has no frame clock. -/
theorem clock_triage {r : Recipe} (h : r.id = rcTRIAGE) : r.clock = none := by
  unfold Recipe.clock
  rw [h]
  rfl

/-- A stop of a running recipe, whatever its clocks and bursts do. -/
theorem recipeStop_ends {r : Recipe} (hrecipe : (coreAt s c).recipe = some r) (hst : recipeState s c = rsRUNNING) :
    ∃ a, recipeStop s c = setRecipe (setRecipeState a c rsSTOPPING) c (some { r with stopAt := some s.tb }) ∧ (r.id = rcTRIAGE → a = s) := by
  unfold recipeStop
  rw [hrecipe]
  dsimp only
  rw [if_neg (by rw [hst]; decide)]
  refine ⟨_, rfl, fun hid => ?_⟩
  rw [if_neg (by rw [hid]; decide), stopClocks, clock_triage hid]
  rfl

theorem answers_recipeStop {r : Recipe} (hc : c < 8) (hreach : blockReach s 15 = true) (hrecipe : (coreAt s c).recipe = some r)
    (hst : recipeState s c = rsRUNNING) : Answers (exec (.recipeStop c) s) fun t =>
      recipeState t c = rsSTOPPING ∧ (coreAt t c).recipe = some { r with stopAt := some s.tb }
      ∧ (r.id = rcTRIAGE → Keeps [(F.SQ_STATUS_RECIPE_STATE, c)] s t) := by
  obtain ⟨a, hstop, htriage⟩ := recipeStop_ends hrecipe hst
  refine answers_unitReach (f := fun s => recipeStop s c) hc hreach fun t ht => ?_
  rw [hstop] at ht
  obtain ⟨d, hd⟩ : ∃ d, d = setRecipe (setRecipeState a c rsSTOPPING) c (some { r with stopAt := some s.tb }) := ⟨_, rfl⟩
  have hregs : d.regs = (wr a F.SQ_STATUS_RECIPE_STATE c rsSTOPPING).regs := by
    rw [hd]
    rfl
  rw [← hd] at ht
  refine ⟨?_, ?_, fun hid => ht.keeps ?_⟩
  · rw [recipeState, ht.rd, rd_congr hregs, rd_wr_same]
    rfl
  · have hcore : coreAt t c = coreAt d c := ht.coreAt c
    rw [hcore, hd, setRecipe, coreAt_setCore_same]
  · refine Keeps.of_regs ?_ hregs
    rw [htriage hid]
    exact (Keeps.refl _ s).wr _ _ _ (by simp)

/-- A recipe's core halted at the end `st` of the recipe. -/
theorem halted_reads (a : State) (c : Nat) {st : Nat} (hst : st < 2 ^ 4) (h : u = recipeHalt (endRecipe a c st) c) :
    recipeState u c = st ∧ sqState u c = sqHALTED ∧ hasBit u F.SQ_IRQ_STATUS_EVT c (if st = rsERROR then 3 else 2) = true
    ∧ (coreAt u c).recipe = none ∧ (coreAt u c).stall = .none ∧ rd u F.SQ_RECIPE_ERR_CODE c = rd a F.SQ_RECIPE_ERR_CODE c := by
  obtain ⟨b, hb⟩ : ∃ b, b = setRecipe (setRecipeState a c st) c none := ⟨_, rfl⟩
  obtain ⟨d, hd⟩ : ∃ d, d = setBit b F.SQ_IRQ_STATUS_EVT c (if st = rsERROR then 3 else 2) := ⟨_, rfl⟩
  obtain ⟨e, he⟩ : ∃ e, e = setCore d c { coreAt d c with stall := .none, stepping := false } := ⟨_, rfl⟩
  have hend : u = wr e F.SQ_STATUS_STATE c 0 := by
    rw [h, he, hd, hb]
    rfl
  have hregse : e.regs = d.regs := by
    rw [he]
    rfl
  have hregsb : b.regs = (wr a F.SQ_STATUS_RECIPE_STATE c st).regs := by
    rw [hb]
    rfl
  have hcoreb : (coreAt b c).recipe = none := by rw [hb, setRecipe, coreAt_setCore_same]
  have hcored : coreAt d c = coreAt b c := by
    rw [hd]
    rfl
  have hcore : coreAt u c = { coreAt d c with stall := .none, stepping := false } := by
    rw [hend, coreAt_wr, he, coreAt_setCore_same]
  refine ⟨?_, ?_, ?_, ?_, ?_, ?_⟩
  · rw [recipeState, hend, rd_wr_field _ _ _ _ _ _ (by decide), rd_congr hregse, hd, setBit_eq, rd_wr_field _ _ _ _ _ _ (by decide),
      rd_congr hregsb, rd_wr_same]
    exact Nat.mod_eq_of_lt hst
  · rw [sqState, hend, rd_wr_same]
    rfl
  · rw [hasBit, hend, rd_wr_field _ _ _ _ _ _ (by decide), rd_congr hregse, hd]
    refine hasBit_setBit b F.SQ_IRQ_STATUS_EVT c _ ?_
    split <;> decide
  · rw [hcore]
    exact (congrArg SqCore.recipe hcored).trans hcoreb
  · rw [hcore]
  · rw [hend, rd_wr_field _ _ _ _ _ _ (by decide), rd_congr hregse, hd, setBit_eq, rd_wr_field _ _ _ _ _ _ (by decide),
      rd_congr hregsb, rd_wr_field _ _ _ _ _ _ (by decide)]

theorem answers_recipeStopped {r : Recipe} (hc : c < 8) (hworks : blockWorks s 15 = true) (hrecipe : (coreAt s c).recipe = some r)
    (hst : recipeState s c = rsSTOPPING) (hquiet : recipeQuiet s r = true) : Answers (exec (.recipeStopped c) s) fun t =>
      recipeState t c = rsSTOPPED ∧ sqState t c = sqHALTED ∧ hasBit t F.SQ_IRQ_STATUS_EVT c 2 = true
      ∧ (coreAt t c).recipe = none ∧ (coreAt t c).stall = .none := by
  have hstop : recipeStopped s c = recipeHalt (endRecipe (stopGates (recipeResults s c r) r) c rsSTOPPED) c := by
    unfold recipeStopped
    rw [hrecipe]
    exact if_pos ⟨hst, hquiet⟩
  refine answers_onBlock (f := fun s => recipeStopped s c) hc hworks fun t ht => ?_
  rw [hstop] at ht
  obtain ⟨d, hd⟩ : ∃ d, d = recipeHalt (endRecipe (stopGates (recipeResults s c r) r) c rsSTOPPED) c := ⟨_, rfl⟩
  obtain ⟨hstate, hsq, hevt, hnone, hstall, -⟩ := halted_reads _ c (by decide) hd
  rw [← hd] at ht
  have hcore : coreAt t c = coreAt d c := ht.coreAt c
  rw [recipeState, sqState, ht.rd, ht.rd, ht.hasBit, hcore]
  exact ⟨hstate, hsq, hevt, hnone, hstall⟩

/-! ### The clock of a recipe with LIST_MODE = 1 (R72) -/

/-- The registers that a frame clock's stop writes. -/
def clockStopFields : List Field := [F.FCG_LAST_TB_VALUE, F.FCG_STATUS_PHASE_LOCKED, F.FCG_EVT_EVT, F.FCG_STATUS_RAMPING,
  F.FCG_STATUS_RAMP_DOWN, F.FCG_STATUS_CLAMPED, F.FCG_STATUS_LOOP]

/-- Of a stop the cores see nothing, and of the registers those of its clock alone differ. -/
def ClockStop (s t : State) : Prop := t.cores = s.cores ∧ Touches clockStopFields s t

theorem ClockStop.refl (s : State) : ClockStop s s := ⟨rfl, .refl⟩

theorem ClockStop.trans (h : ClockStop s u) (h' : ClockStop u v) : ClockStop s v := ⟨h'.1.trans h.1, h.2.trans h'.2⟩

theorem ClockStop.wr (h : ClockStop s u) (f : Field) (i x : Nat) (hf : f ∈ clockStopFields) : ClockStop s (wr u f i x) :=
  ⟨h.1, h.2.wr f i x hf⟩

theorem ClockStop.foldl {α : Type} {g : State → α → State} (hg : ∀ u x, ClockStop u (g u x)) (l : List α) (s : State) :
    ClockStop s (l.foldl g s) := foldl_frame ClockStop.refl ClockStop.trans hg l s

theorem ClockStop.ite {b : Prop} [Decidable b] (h : ClockStop s u) (h' : ClockStop s v) : ClockStop s (if b then u else v) := by
  split
  · exact h
  · exact h'

theorem trigOutcome_clockStop (s : State) (g id : Nat) (unconf : Bool) : ClockStop s (trigOutcome s g id unconf) := by
  have hframes (u : State) (x : List Frame) : ClockStop u { u with frames := x } := ⟨rfl, .of_regs rfl⟩
  have hstream (u : State) (k : Nat) (x : StreamSt) : ClockStop u (setStream u k x) := ⟨rfl, .of_regs rfl⟩
  unfold trigOutcome
  dsimp only
  exact (ClockStop.foldl (fun u k => hstream u k _) _ s).trans (hframes _ _)

theorem fcgStop_clockStop (s : State) (g : Nat) : ClockStop s (fcgStop s g) := by
  have hfcg (u : State) (k : Fcg) : ClockStop u (setFcg u g k) := ⟨rfl, .of_regs rfl⟩
  have hstream (u : State) (k : Nat) (x : StreamSt) : ClockStop u (setStream u k x) := ⟨rfl, .of_regs rfl⟩
  have htrg (u : State) (k : Nat) (x : TrgOut) : ClockStop u (setTrg u k x) := ⟨rfl, .of_regs rfl⟩
  have hport (u : State) (k : Nat) (x : PktPort) : ClockStop u (setPktPort u k x) := ⟨rfl, .of_regs rfl⟩
  have hreach (u : State) : ClockStop u (reachTriggers u g) := by
    unfold reachTriggers
    dsimp only
    exact (ClockStop.foldl (fun u c => (ClockStop.refl u).wr _ _ _ (by decide)) _ u).trans (hfcg _ _)
  have hpulses (u : State) (ids : List Nat) : ClockStop u (cancelPulses u g ids) := ClockStop.foldl (fun u k => htrg u k _) _ u
  have hpackets (u : State) (ids : List Nat) : ClockStop u (cancelPackets u g ids) := ClockStop.foldl (fun u k => hport u k _) _ u
  have hrecords (u : State) (ids : List Nat) : ClockStop u (cancelRecords u g ids) := ClockStop.foldl (fun u k => hstream u k _) _ u
  have hlocked (u : State) : ClockStop u (setLocked u g false) := by
    unfold setLocked
    exact ClockStop.ite (.refl u) (((ClockStop.refl u).wr _ _ _ (by decide)).wr F.FCG_EVT_EVT _ _ (by decide))
  unfold fcgStop
  dsimp only
  refine ClockStop.ite (.refl s) (ClockStop.wr (ClockStop.wr (ClockStop.wr (ClockStop.wr ?_ _ g 0 (by decide)) _ g 0 (by decide)) _ g 0
    (by decide)) _ g fIDLE (by decide))
  refine ClockStop.trans (ClockStop.trans ?_ (hfcg _ Fcg.init)) (hlocked _)
  refine ClockStop.trans ?_ (ClockStop.foldl (fun u w => trigOutcome_clockStop u g _ false) _ _)
  exact (((hreach s).trans (hpulses _ _)).trans (hpackets _ _)).trans (hrecords _ _)

theorem stopClocks_clockStop (s : State) (r : Recipe) : ClockStop s (stopClocks s r) := by
  unfold stopClocks
  exact ClockStop.ite (ClockStop.foldl (fun u g => ClockStop.ite (fcgStop_clockStop u g) (.refl u)) _ s) (.refl s)

/-- What other cores' recipes do leaves core c, its recipe's state and the source of compare unit k. -/
structure Apart (c k : Nat) (s t : State) : Prop where
  core : coreAt t c = coreAt s c
  recipe : recipeState t c = recipeState s c
  code : rd t F.SQ_RECIPE_ERR_CODE c = rd s F.SQ_RECIPE_ERR_CODE c
  state : sqState t c = sqState s c
  src : rd t F.CMP_CFG_SRC k = rd s F.CMP_CFG_SRC k

section
variable {k : Nat}

theorem Apart.refl (c k : Nat) (s : State) : Apart c k s s := ⟨rfl, rfl, rfl, rfl, rfl⟩

theorem Apart.trans (h : Apart c k s u) (h' : Apart c k u v) : Apart c k s v :=
  ⟨h'.core.trans h.core, h'.recipe.trans h.recipe, h'.code.trans h.code, h'.state.trans h.state, h'.src.trans h.src⟩

theorem Apart.wr {j : Nat} (hj : j ≠ c) (f : Field) (x : Nat) (hf : f.fid % 1024 ≠ F.CMP_CFG_SRC.fid % 1024) (s : State) :
    Apart c k s (wr s f j x) :=
  ⟨rfl, rd_wr_inst _ _ _ _ hj, rd_wr_inst _ _ _ _ hj, rd_wr_inst _ _ _ _ hj, rd_wr_field _ _ _ _ _ _ hf⟩

theorem Apart.setCore {j : Nat} (hj : j ≠ c) (x : SqCore) (s : State) : Apart c k s (setCore s j x) :=
  ⟨coreAt_setCore_ne _ _ hj.symm, rfl, rfl, rfl, rfl⟩

theorem ClockStop.apart (h : ClockStop s u) (c k : Nat) : Apart c k s u := by
  obtain ⟨hcores, ht⟩ := h
  have hcore : coreAt u c = coreAt s c := by
    unfold coreAt
    rw [hcores]
  exact ⟨hcore, ht _ _ (by decide), ht _ _ (by decide), ht _ _ (by decide), ht _ _ (by decide)⟩

/-- A recipe that ends in ERROR at its armed compare unit. -/
def armedError (s : State) (r : Recipe) (c : Nat) : State := recipeHalt (recipeError (stopClocks s r) c 4 0) c

theorem armedError_apart {j : Nat} (hj : j ≠ c) (s : State) (r : Recipe) : Apart c k s (armedError s r j) := by
  have hhalt (u : State) : Apart c k u (recipeHalt u j) := (Apart.setCore hj _ u).trans (.wr hj F.SQ_STATUS_STATE 0 (by decide) _)
  have hend (u : State) (st : Nat) : Apart c k u (endRecipe u j st) :=
    ((Apart.wr hj F.SQ_STATUS_RECIPE_STATE st (by decide) u).trans (.setCore hj _ _)).trans (.wr hj F.SQ_IRQ_STATUS_EVT _ (by decide) _)
  have hcode (u : State) : Apart c k u (Machine.wr (Machine.wr u F.SQ_RECIPE_ERR_CODE j 4) F.SQ_RECIPE_ERR_OFFSET j 0) :=
    (Apart.wr hj _ 4 (by decide) u).trans (.wr hj _ 0 (by decide) _)
  exact ((((stopClocks_clockStop s r).apart c k).trans (hcode _)).trans (hend _ rsERROR)).trans (hhalt _)

/-- What the armed compare unit k does to the recipe of core c. -/
def armedAt (k : Nat) (s : State) (c : Nat) : State :=
  match runningRecipe s c with
  | some r =>
    if r.listMode && lowest 16 r.cmps == some k && rd s F.CMP_CFG_SRC k ≠ (lowest 4 r.encs).getD 0 then armedError s r c else s
  | none => s

theorem armedAt_apart {j : Nat} (hj : j ≠ c) (s : State) : Apart c k s (armedAt k s j) := by
  unfold armedAt
  split
  · split
    · exact armedError_apart hj s _
    · exact .refl c k s
  · exact .refl c k s

theorem recipeArmed_eq (s : State) (k : Nat) : recipeArmed s k = (List.range 8).foldl (armedAt k) s := rfl

section
variable {r : Recipe} {n g : Nat} (hc : c < 8) (hworks : blockWorks s 15 = true) (hrecipe : (coreAt s c).recipe = some r)
  (hst : recipeState s c = rsRUNNING) (hwait : r.fcgWait = true) (hcmp : lowest 16 r.cmps = some k) (henc : lowest 4 r.encs = some n)
  (harmed : isSet s F.CMP_STATUS_ARMED k = true)
include hc hworks hrecipe hst hwait hcmp henc harmed

theorem answers_recipeWrongSource (hsrc : rd s F.CMP_CFG_SRC k ≠ n) (hlist : r.listMode = true) :
    Answers (exec (.recipeFcgStart c) s) fun t =>
      recipeState t c = rsERROR ∧ rd t F.SQ_RECIPE_ERR_CODE c = 4 ∧ sqState t c = sqHALTED ∧ (coreAt t c).recipe = none := by
  have hrunning : runningRecipe s c = some r := by
    unfold runningRecipe
    rw [if_pos (.inl hst), hrecipe]
  have hstart : recipeFcgStart s c = (List.range 8).foldl (armedAt k) s := by
    rw [← recipeArmed_eq]
    unfold recipeFcgStart
    rw [hrunning]
    dsimp only
    rw [hcmp, henc, Option.getD_some, Option.getD_some, if_neg (by rw [hwait, hst, harmed]; decide), if_pos hsrc]
  obtain ⟨u, hsu, hut⟩ := foldl_visit (Apart.refl c k) Apart.trans (fun u j hj => armedAt_apart (Ne.symm hj) u) List.nodup_range
    (List.mem_range.mpr hc) s
  have hstep : armedAt k u c = armedError u r c := by
    have hru : runningRecipe u c = some r := by
      rw [← hrunning, runningRecipe, runningRecipe, hsu.recipe, hsu.core]
    unfold armedAt
    rw [hru]
    dsimp only
    rw [hlist, hcmp, henc, hsu.src]
    exact if_pos (by simp [hsrc])
  obtain ⟨a, ha⟩ : ∃ a, a = Machine.wr (Machine.wr (stopClocks u r) F.SQ_RECIPE_ERR_CODE c 4) F.SQ_RECIPE_ERR_OFFSET c 0 := ⟨_, rfl⟩
  have herror : armedError u r c = recipeHalt (endRecipe a c rsERROR) c := by
    rw [ha]
    rfl
  obtain ⟨hstate, hsq, -, hnone, -, hcode⟩ := halted_reads a c (by decide) herror
  rw [hstep] at hut
  refine answers_onBlock (f := fun s => recipeFcgStart s c) hc hworks fun t ht => ?_
  rw [hstart] at ht
  generalize (List.range 8).foldl (armedAt k) s = d at hut ht
  have hrecipet : recipeState t c = recipeState d c := ht.rd ..
  have hsqt : sqState t c = sqState d c := ht.rd ..
  have hcoret : coreAt t c = coreAt d c := ht.coreAt c
  refine ⟨by rw [hrecipet, hut.recipe, hstate], ?_, by rw [hsqt, hut.state, hsq], by rw [hcoret, hut.core, hnone]⟩
  rw [ht.rd, hut.code, hcode, ha, rd_wr_field _ _ _ _ _ _ (by decide), rd_wr_same]
  rfl

theorem answers_recipeClockStarts (hfcg : r.fcg = some g) (hsrc : rd s F.CMP_CFG_SRC k = n) (hok : startRefused s g = false) :
    Answers (exec (.recipeFcgStart c) s) fun t =>
      (coreAt t c).recipe = some { r with fcgWait := false }
      ∧ fcgLoop t g = (if rd s F.FCG_CFG_MODE g = 2 then fACQUIRE else fRUN) := by
  have hrunning : runningRecipe s c = some r := by
    unfold runningRecipe
    rw [if_pos (.inl hst), hrecipe]
  obtain ⟨a, ha⟩ : ∃ a, a = setRecipe s c (some { r with fcgWait := false }) := ⟨_, rfl⟩
  have hstart : recipeFcgStart s c = fcgStart a g := by
    unfold recipeFcgStart
    rw [hrunning]
    dsimp only
    rw [hcmp, henc, hfcg, Option.getD_some, Option.getD_some, Option.getD_some, if_neg (by rw [hwait, hst, harmed]; decide),
      if_neg (fun h => h hsrc), ha]
  have hregs : a.regs = s.regs := by
    rw [ha]
    rfl
  have hrefused : startRefused a g = false := by
    rw [← hok]
    unfold startRefused fcgRuns isSet
    simp only [rd_congr hregs]
  obtain ⟨b, hb⟩ : ∃ b, b = fcgFresh a g := ⟨_, rfl⟩
  have hmode : rd b F.FCG_CFG_MODE g = rd s F.FCG_CFG_MODE g := by
    rw [hb, rd_fcgFresh a g g (by decide), rd_congr hregs]
  have hcoreb : coreAt b c = coreAt a c := by
    rw [hb]
    rfl
  have haccept := fcgStart_of_accepted hrefused
  rw [← hb, hmode] at haccept
  refine answers_onBlock (f := fun s => recipeFcgStart s c) hc hworks fun t ht => ?_
  rw [hstart, haccept] at ht
  refine ⟨?_, ?_⟩
  · have hcore : coreAt t c = coreAt b c := by
      rw [ht.coreAt c]
      split <;> rfl
    rw [hcore, hcoreb, ha, setRecipe, coreAt_setCore_same]
  · rw [fcgLoop, ht.rd]
    split
    · rw [ownMotion, wrBool_eq, rd_wr_field _ _ _ _ _ _ (by decide), setLoop, rd_wr_same]
      rfl
    · rw [setLoop, rd_wr_same]
      rfl

end

end

end

/-- Settles O21, clause by clause. -/
theorem recipesStartStopAndEnd : Obligations.RecipesStartStopAndEnd := by
  intro s c hc
  refine ⟨fun hreach id hlo hhi => ⟨fun hst => answers_recipeStart hc hreach hlo hhi hst,
      fun hst => answers_recipeStartBusy hc hreach hlo hhi hst⟩,
    fun hworks due r hload hdue hrecipe => ⟨fun hcrc => answers_recipeCardBad hc hworks hload hdue hrecipe hcrc,
      fun hgood => answers_recipeRuns hc hworks hload hdue hrecipe hgood⟩,
    fun hreach r hrecipe hst => answers_recipeStop hc hreach hrecipe hst,
    fun hworks r hrecipe hst hquiet => answers_recipeStopped hc hworks hrecipe hst hquiet,
    fun hworks r k n g hrecipe hst hwait hcmp henc hfcg harmed =>
      ⟨fun hsrc hlist => answers_recipeWrongSource hc hworks hrecipe hst hwait hcmp henc harmed hsrc hlist,
        fun hsrc hok => answers_recipeClockStarts hc hworks hrecipe hst hwait hcmp henc harmed hfcg hsrc hok⟩⟩

end Sys2Proof.Machine
end
